-- ==== Sys2Proof/Word.lean ====
section
/-!
DEFINITION. The word types of the Pyaris AV416 model: 32-bit registers, bytes, instance numbers.
-/

namespace Sys2Proof

/-- A register of BAR0, PF BAR2 or the HST capability: 32 bits (R8). -/
abbrev Word := BitVec 32

/-- A byte of host memory, NVM, NAND or a disc block. -/
abbrev Byte := BitVec 8

/-- An instance number, 0 the physical function and 1 to 255 the virtual functions (R17). -/
abbrev Func := BitVec 8

/-- A drive, D0 to D3 (R16). -/
abbrev Drive := Fin 4

/-- A servo axis, drive × 4 + role (R16). -/
abbrev Axis := Fin 16

end Sys2Proof
end

