-- ==== Sys2Proof/Types.lean ====
section
/-!
DEFINITION. The types of the commands' operands: names the spec numbers (roles, instance states, statuses, halt causes), and the
outcomes that the world outside the block decides (a measurement, a check, a medium's answer), which a command brings with it.
-/

namespace Sys2Proof

/-- Which register space an access names: BAR0 of a function, PF BAR2, the HST capability in PF configuration space, or the
configuration space of a function. -/
inductive Space where
  | bar0 (f : Func)
  | bar2
  | hst
  | cfg (f : Func)
  deriving DecidableEq, Repr

/-- The width of a read (R8). -/
inductive Width where
  | w8
  | w16
  | w32
  | w64
  deriving DecidableEq, Repr

/-- Its bytes. -/
def Width.bytes : Width → Nat
  | .w8 => 1
  | .w16 => 2
  | .w32 => 4
  | .w64 => 8

/-- What a register read names: an offset and a width. -/
structure RegSpan where
  off : BitVec 22
  w : Width
  deriving DecidableEq, Repr

/-- How a memory read failed (R53). -/
inductive ReadFail where
  | unsupported
  | abort
  | poisoned
  deriving DecidableEq, Repr

/-- The configuration-space fields of a function that the spec gives an effect. `other` is any other field of the PCI Express
specification, which the block only stores. -/
inductive CfgField where
  | memorySpaceEnable
  | relaxedOrdering
  | maxPayload
  | maxReadRequest
  | extendedTags
  | timeoutDisable
  | tag10
  | msixEnable
  | functionMask
  | vfMemorySpaceEnable
  | ariHierarchy
  | targetLinkSpeed
  | aspmL1
  | l1Substates
  | ltrEnable
  | aerCorrectable
  | aerUncorrectable
  | ideRequired
  | doeInterruptEnable
  | ideStreamEnable
  | pcrcEnable
  | other (off : Nat)
  deriving DecidableEq, Repr

/-- What clears a holding condition of MSI-X inside one function (R56). -/
inductive Unmask where
  | vector (v : Fin 16)
  | functionMask
  | enable
  deriving DecidableEq, Repr

/-- IDE sub-streams (R67). -/
inductive SubStream where
  | posted
  | nonPosted
  | completion
  deriving DecidableEq, Repr

/-- What a received TLP shows while the link stream is Secure (R71). -/
inductive TlpCheck where
  | good
  | macFail
  | pcrcFail
  | noPrefix
  | badKeySet
  | badCounter
  deriving DecidableEq, Repr

/-- Requests of the SPDM responder's subset, and one outside it (Table 02-6). -/
inductive SpdmReq where
  | getVersion
  | getCapabilities (version : Nat)
  | negotiateAlgorithms
  | getDigests
  | getCertificate (slot : Fin 8)
  | challenge (slot : Fin 8)
  | getMeasurements (index : Nat)
  | keyExchange
  | finish (session : Nat) (ok : Bool)
  | keyUpdate (session : Nat)
  | endSession (session : Nat)
  | ideKmPlain
  | discovery (index : Nat)
  | outside (code : Byte)
  deriving DecidableEq, Repr

/-- Requests that the halted-state responder answers (Table 15-7). -/
inductive HaltReq where
  | memRead (f : Func) (bytes : Nat)
  | memWrite (f : Func)
  | cfgRead (f : Func) (off : Nat)
  | cfgWrite (f : Func) (off : Nat)
  | message
  | nonPosted
  deriving DecidableEq, Repr

/-- The failed checks that lead to the integrity halt, with what HALT_DETAIL holds for each (Tables 02-7, 05-5, 05-6). -/
inductive HaltCause where
  | dramMac (addr : BitVec 40)
  | leafMac (addr : BitVec 64)
  | ideMac (sub : SubStream) (set : Fin 2)
  | idePcrc (sub : SubStream) (set : Fin 2)
  | ideSequence (sub : SubStream) (set : Fin 2) (reason : Fin 4)
  | flashTag (die : Fin 16) (block : BitVec 16) (page : BitVec 12) (inst : Func)
  | arcTag (drive : Fin 4) (pba : BitVec 56) (inst : Func)
  | bootImage (slot : Fin 2)
  | otpCells
  | settings (word : BitVec 16)
  | hardware (check : Fin 10)
  deriving DecidableEq, Repr

/-- What the MAC checks of the LPDDR lines that a step touches show: all pass, one passes on its re-read, or one fails twice (R200). -/
inductive MacCheck where
  | good
  | line (addr : BitVec 40) (first again : List Byte)
  deriving DecidableEq, Repr

/-- How a read of a flash unit ends (R241, R242, R206): a clean decode; one that corrected more than 40 bits of a codeword; recovery by
read retry; rebuilding from the stripe; a tag failure mended by a rebuild; a tag failure whose rebuilt unit fails too; no recovery. -/
inductive NandRead where
  | clean
  | weak
  | retried
  | rebuilt
  | tagRebuilt
  | tagFailed
  | lost
  deriving DecidableEq, Repr

/-- The four servo roles (R16). -/
inductive Role where
  | foc
  | trk
  | spn
  | sld
  deriving DecidableEq, Repr

/-- The codes of the inputs D*_SVA to D*_SVD in one sample at 3.2 MHz (R341). -/
structure Pickup where
  a : BitVec 12
  b : BitVec 12
  c : BitVec 12
  d : BitVec 12
  deriving DecidableEq, Repr

/-- One sample of a drive's RF converter (R311), and whether the servo defect detector's flag is active at it (R323). -/
structure RfSample where
  code : BitVec 8
  defect : Bool
  deriving DecidableEq, Repr

/-- A run of blocks of one segment (Table 08-10, one entry). -/
structure SrRun where
  inst : Nat
  first : Bool
  last : Bool
  len : Nat
  seg : Nat
  idx : Nat
  slot : Nat
  deriving DecidableEq, Repr

/-- What a block's header or a filler's address record shows of it: kind 1 data or 3 filler, and for data its instance, segment, index,
archive sequence, whether it is the segment's last, and the chain digest it carries (Table 08-6). -/
structure BlockId where
  kind : Nat
  inst : Nat
  seg : Nat
  idx : Nat
  seq : Nat
  last : Bool
  digest : Nat
  /-- The chain digest for the instance's next block, over this block's header. -/
  next : Nat
  deriving DecidableEq, Repr

/-- A stripe as the load scan finds it (R300): where it was read, the positions recorded, whether every recorded block is verified, its
three data blocks. -/
structure ScanStripe where
  num : Nat
  pba : Nat
  on : List (Fin 4)
  whole : Bool
  blocks : List BlockId
  deriving DecidableEq, Repr

/-- The newest SID of a disc (Table 08-8). -/
structure SidBody where
  setId : Nat
  pos : Fin 4
  layers : Nat
  rootSlot : Nat
  rebuilds : Nat
  stripes : Nat
  digest : Nat
  deriving DecidableEq, Repr

/-- What STRIPE_LOAD finds in a drive (R299): write-once media of 1 or 2 layers, at least as long as R275 asks, blank, its newest SID. -/
structure DiscExam where
  writeOnce : Bool
  layers : Nat
  long : Bool
  blank : Bool
  sid : Option SidBody
  /-- Room for OPC runs in the calibration area of each layer, and the recommended write power in 0.01 mW. -/
  pca : List Nat
  pind : Nat
  deriving DecidableEq, Repr

/-- The structures read from the discs of a set (R300): replacements, runs, an FR; slots used in each area; the stripe after the last one
that the newest SR covers; the sequences and the session of the newest structures; the stripes scanned, in ascending order, and the
spare slots used by layer × 40 + zone. -/
structure SetExam where
  rl : List (Nat × Nat)
  runs : List SrRun
  finalised : Bool
  sidUsed : Nat
  rlUsed : Nat
  srUsed : Nat
  rlSeq : Nat
  srSeq : Nat
  covered : Nat
  session : Nat
  scan : List ScanStripe
  spare : List (Nat × Nat)
  /-- What each instance has on the set in the stripes that the SR covers: instance, last archive sequence, its chain digest, blocks, and the
  chain digest over that last block's header. -/
  fr : List (Nat × Nat × Nat × Nat × Nat)
  /-- The newest RL, the SRs and the FR as they stand on the discs: kind, slot of the area and body. -/
  copies : List (Nat × Nat × List Byte)
  deriving DecidableEq, Repr

/-- What the sweeps of FOCBAL on a layer gave: the jitter at the seven points of the first and of the repeated sweep of foc_off and of
bal; on a layer with few verified slots, the TE amplitude at the seven points and the extremes of TE (R432). -/
structure BalMeas where
  foc : List Nat
  focAgain : List Nat
  bal : List Nat
  balAgain : List Nat
  te : List Nat
  teHi : Int
  teLo : Int
  deriving DecidableEq, Repr

/-- What the reads of THR on a layer gave: flagged bytes and failed rows at each of the five values of qual, the sum of P and −N over
the reads and their number (R433). -/
structure ThrMeas where
  scores : List (Nat × Nat)
  sum : Int
  num : Nat
  deriving DecidableEq, Repr

/-- A reading of Heron's sensors (Table 16-1): the four die sites in 1/16 °C, the four D*_THM codes, the six rails in mV, the mean code
of a laser's current over 100 µs. DESIGN CHOICE, log entry 54. -/
inductive SensorRead where
  | die (sites : List Int)
  | therm (codes : List (BitVec 12))
  | rails (mv : List (BitVec 16))
  | laser (d : Fin 4) (code : BitVec 12)
  deriving DecidableEq, Repr

/-- What the method of a calibration item measured (R428 to R435): oscillator counts in turn; the sums of 256 conversions of the zero or
the reference input by converter SVA to SVD and RF; the Fourier amplitudes X and W; the sweeps by layer; two laser powers in µW with
their currents in 0.01 mA; the mean asymmetry of a zone. The soak of TSENS needs none. -/
inductive CalMeas where
  | soak
  | osc (counts : List Nat)
  | zero (sums : List Int)
  | ref (sums : List Int)
  | gain (x w : Nat)
  | bal (layers : List BalMeas)
  | thr (layers : List ThrMeas)
  | laser (p1 i1 p2 i2 : Int)
  | zone (layer : Fin 2) (zone : Fin 40) (beta : Int)
  deriving DecidableEq, Repr

/-- What identification shows of a NAND die (R209 to R211, R245): it answers at all, it becomes ready after RESET, and the items of Table
06-2 as its parameter page gives them: data and spare bytes per page, pages per block, blocks, tPROG and tBERS in µs, factory marking as
ONFI 4.1; NV-DDR3 listed. -/
structure DieIdent where
  present : Bool
  ready : Bool
  data : BitVec 16
  spare : BitVec 16
  ppb : BitVec 16
  blocks : BitVec 32
  tprog : BitVec 16
  tbers : BitVec 16
  marking : Bool
  ddr3 : BitVec 16
  ddr2 : BitVec 16
  deriving DecidableEq, Repr

/-- A copy of a root key slot that the OTP array reads otherwise than it was programmed (R170): the slot, the second copy or the first, the
key and the check word read. -/
structure OtpRead where
  slot : Fin 4
  second : Bool
  key : List Byte
  check : BitVec 32
  deriving DecidableEq, Repr

/-- What a start-up meets (Table 15-3): the hardware check of Table 05-6 that fails; whether the image that a firmware slot was made with
passes its checks; what the start-up items of Table 13-2 measure, in their order, none where the method fails; the LPDDR size in MiB, none
where training fails; the dies; whether a valid anchor is found on NAND that is not erased; the units, by PUA, that neither decode nor can
be rebuilt; the instances whose wrapped key fails its tag in every copy; the factory bad-block markers.
DESIGN CHOICE, log entry 11. DESIGN CHOICE, log entry 14. -/
structure StartEnv where
  cells : List OtpRead
  check : Option (Fin 10)
  slotA : Bool
  slotB : Bool
  cal : List (Option CalMeas)
  lpddr : Option (BitVec 16)
  dies : List DieIdent
  anchor : Bool
  badUnits : List Nat
  badKeys : List Func
  markers : List (Fin 16 × BitVec 16)
  deriving DecidableEq, Repr

end Sys2Proof
end

