-- ==== Sys2Proof/Syntax.lean ====
section
/-!
DEFINITION. The commands of the block, one constructor per row of spec/opcode_table.json, with the operands each carries: what the
host wrote, which command, drive or axis it names, and what the world outside answered. A command by number names the command in
flight that COMMAND_ACCEPT or GO created.
-/

namespace Sys2Proof

/-- The commands and events of the block, in the order of the opcode table. -/
inductive Instr where
  /-- REGISTER_WRITE (R7): A write to a BAR0, PF BAR2 or HST register that has no row of its own, applied by access code, width and alignment rules. -/
  | registerWrite (sp : Space) (off : BitVec 22) (data : List Byte)
  /-- LATCHED_PAIR_READ (R22): A read of the lower half of a 64-bit register pair, or of HLT.HREC0, latches the upper half or record for later reads. -/
  | latchedPairRead (sp : Space) (r : RegSpan)
  /-- CONFIG_WRITE (R41): A configuration write to a function that has no row of its own, applied as the PCI Express specification defines. -/
  | configWrite (f : Func) (field : CfgField) (v : Word)
  /-- SYSTEM_PAGE_SIZE_WRITE (R48): A write of System Page Size is accepted for 4, 8, 16 or 32 KiB and ignored otherwise. -/
  | systemPageSizeWrite (v : Word)
  /-- NUMVFS_WRITE (R49): A write of NumVFs is applied, or ignored while VF Enable is 1 or when it exceeds 255. -/
  | numvfsWrite (v : BitVec 16)
  /-- VF_ENABLE_SET (R50): Setting VF Enable makes VFs 1 to NumVFs appear with fresh configuration space. -/
  | vfEnableSet
  /-- VF_ENABLE_CLEAR (R50): Clearing VF Enable applies a function-level reset to every existing VF while keeping the instance table. -/
  | vfEnableClear
  /-- BUS_MASTER_ENABLE_WRITE (R54): A change of a function's Bus Master Enable holds or resumes its DMA, doorbell fetches and pending interrupts. -/
  | busMasterEnableWrite (f : Func) (en : Bool)
  /-- COMPLETION_TIMEOUT_VALUE_WRITE (R53): A write of Completion Timeout Value is applied, or ignored when its encoding lies outside ranges A and B. -/
  | completionTimeoutValueWrite (f : Func) (v : BitVec 4)
  /-- INITIATE_FUNCTION_LEVEL_RESET (R59): A configuration write that sets Initiate Function Level Reset starts the FLR of the PF or of a VF. -/
  | initiateFunctionLevelReset (f : Func)
  /-- POWER_STATE_D3HOT (R63): The PF enters D3hot, which stops requests from every function while media work continues. -/
  | powerStateD3hot
  /-- POWER_STATE_D0 (R63): The PF returns to D0, keeping all state, and held work resumes. -/
  | powerStateD0
  /-- MSIX_VECTOR_UNMASK (R56): Clearing a mask or enabling MSI-X sends one message for each pending bit that no longer has a holding condition. -/
  | msixVectorUnmask (f : Func) (what : Unmask)
  /-- HOST_READ_COMPLETION (R51): A completion with data arrives for a DMA read request of the Pyaris, and the work that needed it proceeds. -/
  | hostReadCompletion (tag : Nat) (data : List Byte) (bad : List Nat)
  /-- HOST_READ_ERROR_COMPLETION (R53): A completion with Unsupported Request, Completer Abort or poisoned data ends a DMA read as a host-access failure. -/
  | hostReadErrorCompletion (tag : Nat) (why : ReadFail)
  /-- COMPLETION_TIMEOUT (R53): A DMA read reaches its completion timeout; the command fails with host-access, or the fetch is retried. -/
  | completionTimeout (tag : Nat)
  /-- LEAF_FETCH_RETRY (R53): A failed host-held leaf fetch is retried every 1 ms, up to 100 attempts. -/
  | leafFetchRetry (line : Nat)
  /-- LINK_UP (R45): Link training ends at the highest common rate and width, and the result is logged. -/
  | linkUp (rate : Fin 4) (width : Fin 3)
  /-- DL_DOWN (R61): The upstream port enters DL_Down, which starts a warm reset. -/
  | dlDown
  /-- HOT_RESET_RECEIVED (R61): A received hot reset starts a warm reset. -/
  | hotResetReceived
  /-- WARM_RESET_COMPLETE (R484): The warm reset ends within 10 ms, and the link retrains. -/
  | warmResetComplete
  /-- SPDM_REQUEST (R66): A CMA/SPDM or Secured CMA/SPDM data object arrives in the DOE mailbox and is answered within the supported subset. -/
  | spdmRequest (secured : Bool) (size : Nat) (req : SpdmReq)
  /-- DOE_ABORT (R65): DOE Abort ends the exchange in progress within 1 ms. -/
  | doeAbort
  /-- QUERY (R67): The IDE_KM QUERY message for the link stream is answered. -/
  | query (session : Nat)
  /-- KEY_PROG (R67): The IDE_KM KEY_PROG message programs a key set for a sub-stream and direction. -/
  | keyProg (session : Nat) (sub : SubStream) (tx : Bool) (set : Fin 2) (key : Nat)
  /-- K_SET_GO (R69): The IDE_KM K_SET_GO message switches to the named key set and makes the stream Secure. -/
  | kSetGo (session : Nat) (sub : SubStream) (tx : Bool) (set : Fin 2)
  /-- K_SET_STOP (R69): The IDE_KM K_SET_STOP message retires the named receive key set. -/
  | kSetStop (session : Nat) (sub : SubStream) (set : Fin 2)
  /-- IDE_TLP_RECEIVED (R71): A TLP received while the link stream is Secure is checked, and any IDE integrity failure raises the halt. -/
  | ideTlpReceived (sub : SubStream) (k : Fin 2) (chk : TlpCheck)
  /-- IDE_TX_COUNTER_LIMIT (R69): A transmit invocation counter reaches its limit, and transmission on that sub-stream is held. -/
  | ideTxCounterLimit (sub : SubStream)
  /-- HST_CNT_CLR (R80): A write of 1 to HST.CNT_CLR clears HST.LINK_CNT1 and HST.LINK_CNT2. -/
  | hstCntClr (v : Word)
  /-- INSTANCE_START (R86): Starts an IDLE instance with a fresh key, an empty namespace, a quota and a new billing period. -/
  | instanceStart (id : Nat)
  /-- INSTANCE_RESET (R87): Starts the instance reset of a VF instance. -/
  | instanceReset (id : Nat)
  /-- INSTANCE_REMOVE (R92): Starts the removal of an instance that holds no block under retention. -/
  | instanceRemove (id : Nat)
  /-- SET_POLICY (R109): Sets min_hold and legal_hold of an instance, in force from its completion. -/
  | setPolicy (id : Nat)
  /-- SET_QUOTA (R107): Sets the quota and the warning level of an instance, subject to total capacity. -/
  | setQuota (id : Nat)
  /-- SET_PERIOD (R118): Sets the first billing boundary and the interval of an instance. -/
  | setPeriod (id : Nat)
  /-- RESET_DRAIN_DONE (R87): Once outstanding DMA reads have ended, the generation advances, unstarted commands drop, and the reset or removal is acknowledged. -/
  | resetDrainDone (f : Func)
  /-- OLD_GENERATION_MEDIA_ENDED (R87): Every started media operation of the old generation ends, its completion is discarded, and a removal reaches DRAINING or IDLE. -/
  | oldGenerationMediaEnded (f : Func)
  /-- MB_IN_POST (R95): A write of INS.MB_IN_POST posts the free inbound slots that it names. -/
  | mbInPost (f : Func) (post : Byte)
  /-- MAILBOX_CONSUME (R95): The Pyaris consumes the oldest posted inbound message, acts on its type, frees the slot and sets in_free. -/
  | mailboxConsume (f : Func)
  /-- MB_OUT_ACK (R96): A write of INS.MB_OUT_ACK frees outbound slots and moves queued messages into them. -/
  | mbOutAck (f : Func) (ack : Byte)
  /-- SHARED_PAGE_WRITE (R101): A write to the shared page window updates a policy or status page within the access rules. -/
  | sharedPageWrite (f : Func) (off : BitVec 12) (data : List Byte)
  /-- POLICY_PAGE_USED_UPDATE (R102): The used field of each policy page is refreshed once per second. -/
  | policyPageUsedUpdate
  /-- EPOCH_COMMIT (R112): A write of CFG.EPOCH_COMMIT with the current epoch plus one copies the shadows and tags new commands with the new epoch. -/
  | epochCommit (v : Word)
  /-- SUBSYSTEM_ADOPT (R113): A subsystem reaches its safe point, drains commands of the old epoch and sets its CFG.EPOCH_ADOPT bit. -/
  | subsystemAdopt (bit : Fin 14) (part : Fin 16)
  /-- EPOCH_ADOPTION_TIMEOUT (R115): The adoption timeout ends with pending still 1; late is set and the laggards are logged. -/
  | epochAdoptionTimeout
  /-- OCCUPANCY_TICK (R116): Every second of monotonic time, current usage is added to each counting meter's occupancy. -/
  | occupancyTick
  /-- PERIOD_BOUNDARY (R119): Wall time reaches the closing boundary of the open billing period, which closes as a new one opens. -/
  | periodBoundary
  /-- RING_ENABLE (R128): A write setting an SQ or CQ enable is accepted, or refused with an err code. -/
  | ringEnable (f : Func) (cq : Bool) (k : Fin 4) (v : Word)
  /-- RING_DISABLE (R130): A write clearing an SQ or CQ enable stops fetching, or is refused with err 7 for a CQ still in use. -/
  | ringDisable (f : Func) (cq : Bool) (k : Fin 4) (v : Word)
  /-- DB_EN_WRITE (R131): A write of RNG.CTL.db_en enables or disables fetching of the doorbell page and wakes a sleeping function. -/
  | dbEnWrite (f : Func) (v : Word)
  /-- DOORBELL_FETCH (R133): The polling interval of a function expires, and a 32-byte doorbell page fetch is issued. -/
  | doorbellFetch (f : Func)
  /-- DOORBELL_FETCH_COMPLETE (R133): A doorbell fetch returns; tails and heads are checked, work is found or the interval grows, and sleep may be entered. -/
  | doorbellFetchComplete (f : Func) (data : List Byte)
  /-- WAKE (R137): A write of RNG.WAKE wakes a sleeping function, or counts as spurious while it is awake. -/
  | wake (f : Func)
  /-- COMMAND_ACCEPT (R147): An SQ entry is taken within the in-flight limits, counted, stamped with the epoch and checked in order. -/
  | commandAccept (f : Func) (sq : Fin 4) (entry : List Byte)
  /-- COMMAND_START (R158): An accepted command starts once every fenced or overlapping earlier command has completed. -/
  | commandStart (id : Nat)
  /-- WRITE (R149): Seals and programs nblk units of host data and applies their map updates as one step. -/
  | write (id : Nat) (mac : MacCheck)
  /-- READ (R149): Returns the newest staged content, or bounded data for Empty blocks. -/
  | read (id : Nat) (mac : MacCheck) (bad : List Nat)
  /-- DISCARD (R246): Sets the named blocks Empty in one map step and journals it. -/
  | discard (id : Nat)
  /-- FLUSH (R150): Completes once earlier commands of the instance have completed and their journal entries are in NAND. -/
  | flush (id : Nat)
  /-- COMMIT_SEGMENT (R27): Pins a run of logical blocks as one archive segment and queues it. -/
  | commitSegment (id : Nat)
  /-- ARCHIVE_READ (R152): Reads, decodes and checks archive blocks of a segment and returns them with their headers. -/
  | archiveRead (id : Nat)
  /-- VERIFY (R152): Checks archive blocks of a segment without returning their data. -/
  | verify (id : Nat)
  /-- IDENTIFY (R143): Returns instance or device identification data. -/
  | identify (id : Nat)
  /-- GET_LOG (R144): Returns whole event-log entries from a given sequence number. -/
  | getLog (id : Nat)
  /-- GET_USAGE (R123): Returns usage records of the open and recently closed billing periods. -/
  | getUsage (id : Nat)
  /-- STRIPE_LOAD (R299): Examines the discs, then initialises, loads and scans a stripe set, or refuses. -/
  | stripeLoad (id : Nat) (discs : List (Option DiscExam)) (set : SetExam) (fails : Nat)
  /-- STRIPE_FINALIZE (R302): Finishes the active segments, writes the pending entries and the FR, and closes the set. -/
  | stripeFinalize (id fails : Nat)
  /-- STRIPE_REBUILD (R306): Rebuilds the missing disc position of a set onto a blank disc. -/
  | stripeRebuild (id : Nat) (disc : Option DiscExam) (rebuilds : Nat) (reads : List (List (Option (List Byte))))
  /-- STORE_SETTINGS (R510): Checks a signed settings package and stores it as the next settings copy. -/
  | storeSettings (id : Nat)
  /-- STORE_SETTINGS_CAPTURE (R511): STORE_SETTINGS with dlen 0 stores the register values in force as a new settings copy. -/
  | storeSettingsCapture (id : Nat)
  /-- FW_STAGE (R525): Writes a chunk of a firmware package into the slot not running, and checks it at the last chunk. -/
  | fwStage (id : Nat)
  /-- FW_ACTIVATE (R526): Makes a valid slot active, arming a trial boot for the other slot. -/
  | fwActivate (id : Nat)
  /-- COMPLETION_WRITE (R156): A due completion is written to its CQ once there is room, as one 16-byte DMA write. -/
  | completionWrite (id : Nat)
  /-- COALESCING_TIMEOUT (R157): The coalescing time of a CQ passes for its oldest unsignalled entry, and its vector is signalled. -/
  | coalescingTimeout (f : Func) (cq : Fin 4)
  /-- GO (R164): A write of TSK.GO.go accepts the task port entry image as a command. -/
  | goTask (f : Func) (v : Word)
  /-- TASK_PORT_COMPLETION (R164): A task port command completes into TSK.CPL0 to TSK.CPL3, setting done and clearing busy. -/
  | taskPortCompletion (id : Nat)
  /-- INTEGRITY_HALT (R487): A failed check reaches the halt controller; write gates close, engines stop, keys are zeroised and outputs are released. -/
  | integrityHalt (c : HaltCause) (more : List HaltCause)
  /-- HALT_RECORD_WRITTEN (R492): The hardware logger finishes writing the halt record to NVM and sets nvm_ok. -/
  | haltRecordWritten
  /-- HALTED_STATE_REQUEST (R490): The halted-state responder answers a received request with all ones, held values or live HST values. -/
  | haltedStateRequest (r : HaltReq)
  /-- SELFTEST_PERIOD (R202): The known-answer tests rerun every SEA.CTL.selftest_min minutes. -/
  | selftestPeriod (bad : Option (Fin 5))
  /-- DRBG_RESEED (R176): The DRBG is reseeded after 65,536 generate requests. -/
  | drbgReseed
  /-- ENTROPY_HEALTH_FAIL (R176): A continuous health test fails, and generation stops until 1024 samples pass. -/
  | entropyHealthFail
  /-- JTAG_ACCESS (R197): A JTAG debug access port access is admitted or refused by the range checker. -/
  | jtagAccess (write : Bool) (addr : BitVec 40) (v : Word)
  /-- QUAR_CLR (R204): A write of SEA.QUAR_CLR empties the quarantine list and logs the action. -/
  | quarClr (v : Word)
  /-- NAND_PAGE_PROGRAM_DONE (R223): A page program reports success, and WRITEs whose last unit it holds complete. -/
  | nandPageProgramDone (pua : Nat)
  /-- PAGE_WAIT_TIMEOUT (R223): A unit has waited 2 ms in an unfilled page, which is then programmed. -/
  | pageWaitTimeout (role : Fin 4)
  /-- NAND_PROGRAM_FAIL (R244): A program fails; its units go to the next stripe and the block is retired. -/
  | nandProgramFail (pua : Nat)
  /-- NAND_ERASE_DONE (R240): A block erase ends, and a failed erase retires the block. -/
  | nandEraseDone (die : Fin 16) (block : BitVec 16) (ok : Bool)
  /-- NAND_READ_DONE (R242): A unit read ends and is recovered by decode, read retry or stripe parity, or is lost. -/
  | nandReadDone (pua : Nat) (r : NandRead)
  /-- JOURNAL_FLUSH (R227): 64 ms or 1024 unflushed map updates trigger a journal flush ending with FRONTIER and BAND entries. -/
  | journalFlush
  /-- JOURNAL_FLUSH_COMPLETE (R228): The last page of a flush reports success, and the completions waiting on it are written. -/
  | journalFlushComplete
  /-- ROOT_CHECKPOINT (R229): A root checkpoint is written at its interval or after 8192 journal units. -/
  | rootCheckpoint
  /-- GARBAGE_COLLECTION (R237): Fewer than 8 free bands start relocating the valid units of the emptiest closed band. -/
  | garbageCollection
  /-- STATIC_WEAR_LEVELLING (R239): A die whose erase counts spread beyond FSS.WL.spread moves the band holding its least-erased block to the cold band. -/
  | staticWearLevelling (die : Fin 16)
  /-- REFRESH_READ (R241): Every programmed page is read at least every 7 days, and weak blocks are moved and erased. -/
  | refreshRead (die : Fin 16) (block : BitVec 16) (page : BitVec 12) (r : NandRead)
  /-- DIE_BUSY_TIMEOUT (R245): A die stays busy 50 ms beyond its operation limit, which may declare the die failed. -/
  | dieBusyTimeout (die : Fin 16)
  /-- DIE_REBUILD_DONE (R245): The rebuild of a failed die's units ends, and die_rebuild clears. -/
  | dieRebuildDone (seen : List (Nat × NandRead))
  /-- WRITE_SPACE_WAIT_TIMEOUT (R245): A WRITE that has waited 10 s for space completes with busy. -/
  | writeSpaceWaitTimeout (id : Nat)
  /-- ZQ_CALIBRATION (R209): ZQ CALIBRATION LONG is issued to NV-DDR3 channels every 10 min. -/
  | zqCalibration
  /-- HREG_ENABLE (R220): A write setting FSS.HREG_CTL.en enables the host-held region, or is refused with err. -/
  | hregEnable
  /-- HREG_DISABLE (R221): A write clearing FSS.HREG_CTL.en stops access to the host-held region. -/
  | hregDisable
  /-- HREG_DISABLE_DONE (R221): Accesses to the region have ended, its leaves are marked NAND only, and busy clears. -/
  | hregDisableDone
  /-- PD_PGOOD_FALL (R466): PD_PGOOD is qualified low: NAND quiesces, spindles are forced to zero demand, grants are withdrawn and the sleds hold. -/
  | pdPgoodFall
  /-- PD_PGOOD_RISE (R466): PD_PGOOD is qualified high after 10 ms, and normal work resumes. -/
  | pdPgoodRise
  /-- MCH_ENABLE_WRITE (R258): A write of MCH.CTL enables the map cache when inv_ok is 1, refuses it otherwise, or disables it. -/
  | mchEnableWrite (v : Word)
  /-- CLEAN (R261): MCH.OP_CTL op 1 writes back the dirty lines visited by address or by set and way. -/
  | clean (mode : Fin 2)
  /-- INVALIDATE (R261): MCH.OP_CTL op 2 makes the lines visited invalid without write-back. -/
  | invalidate (mode : Fin 2)
  /-- CLEAN_AND_INVALIDATE (R261): MCH.OP_CTL op 3 writes back and then invalidates the lines visited. -/
  | cleanAndInvalidate (mode : Fin 2)
  /-- MAINTENANCE_OP_DONE (R265): Every line has been visited and written back; busy clears and done and op_done set. -/
  | maintenanceOpDone (bad : List Nat)
  /-- PARITY_WINDOW_EXPIRY (R269): A way's parity window of MCH.PAR.window seconds ends, and its count clears. -/
  | parityWindowExpiry (way : Fin 8)
  /-- WAY_EN (R270): A write of MCH.WAY_EN restores the named ways after invalidating them. -/
  | wayEn (v : Word)
  /-- SEGMENT_ADMIT (R290): The next queued segment is admitted to the formatter when it fits on the loaded set. -/
  | segmentAdmit
  /-- ARCHIVE_BLOCK_FORMAT (R291): A run of up to 96 blocks of an active segment is formatted into consecutive data slots. -/
  | archiveBlockFormat (reads : List NandRead)
  /-- FILLER_TIMEOUT (R292): After ARC.CTL.fill_ms with no block ready, the partly filled stripe is completed with filler blocks. -/
  | fillerTimeout
  /-- STRIPE_RECORD_START (R293): A stripe begins recording on all present drives when gates, slots and in-flight limits allow. -/
  | stripeRecordStart
  /-- SLOT_VERIFY_RESULT (R337): The read-after-write result of a recorded slot is known and judged against Table 09-1. -/
  | slotVerifyResult (d : Fin 4) (num : Nat)
  /-- ARCHIVE_DONE (R29): Once every stripe of a segment is verified and the mailbox has room, the segment is unpinned and ARCHIVE_DONE is posted. -/
  | archiveDone (num : Nat)
  /-- PENDING_ENTRIES_WRITE (R298): Pending RL and SR entries are written to the set on a count, stripe or 24 h trigger. -/
  | pendingEntriesWrite (fails : Nat)
  /-- DEGRADED_DRIVE_TIMEOUT (R305): A drive's write gate has stayed closed for ARC.DEG.tmo_s while the others can open, and it is treated as absent for writing. -/
  | degradedDriveTimeout (d : Fin 4)
  /-- ZONE_WOBBLE_MEASURE (R309): W(z, l) is measured over 8 revolutions for each zone and layer at load or spin-up. -/
  | zoneWobbleMeasure (d : Fin 4) (layer : Fin 2) (zone : Fin 40) (periods : BitVec 24)
  /-- CHANNEL_CLOCK_LOCK_CHANGE (R307): The wobble phase-locked loop gains or loses lock. -/
  | channelClockLockChange (d : Fin 4) (errs : List (BitVec 8)) (kbps : BitVec 18)
  /-- FRAME_SYNC (R319): A frame's sync is accepted, inferred, held as a candidate or lost under the flywheel. -/
  | frameSync (d : Fin 4) (start : Option (BitVec 21)) (rf : List RfSample)
  /-- BLOCK_DECODE (R288): A buffered slot is decoded by inner and outer passes with erasures and the EDC check. -/
  | blockDecode (d : Fin 4)
  /-- READ_RETRY (R326): A block whose decode failed is read again one revolution later with changed settings. -/
  | readRetry (d : Fin 4)
  /-- OPC_RUN (R334): Optimum power calibration runs between stripes when due, and its result is kept or rejected. -/
  | opcRun (d : Fin 4) (layer : Fin 2) (fields : Option (List (Int × Int)))
  /-- OPC_GO (R334): A write of WST.OPC_CTL.go requests OPC on every layer of the loaded disc. -/
  | opcGo (d : Fin 4)
  /-- SERVO_SAMPLE (R339): An axis tick latches inputs, and the compensator computes the sample that takes effect at tick plus lat. -/
  | servoSample (a : Axis) (adc : List Pickup) (since : Nat) (ns : BitVec 16)
  /-- SERVO_SAMPLE_DEADLINE (R365): A sample unfinished at tick plus lat is late; its output is held, and the third late sample opens the axis. -/
  | servoSampleDeadline (a : Axis) (ns : BitVec 16)
  /-- LIMIT_GROUP_SAMPLE (R359): A spindle or laser limit group takes the lowest member output and back-calculates the others. -/
  | limitGroupSample (d : Fin 4) (laser : Bool) (ma : BitVec 16)
  /-- SWAP (R348): A write of SRV.SWAP sets swap_pending; the banks exchange at the next sample boundary. -/
  | swap (a : Axis) (v : Word)
  /-- OPEN (R351): SRV.AX_CMD cmd 1 opens an axis held by the manager. -/
  | openAxis (a : Axis)
  /-- CLOSE (R352): SRV.AX_CMD cmd 2 closes an axis with the preload of Table 10-3. -/
  | closeAxis (a : Axis)
  /-- ACQUIRE (R360): SRV.AX_CMD cmd 3 runs focus acquisition for a layer. -/
  | acquire (d : Fin 4) (layer : Fin 2)
  /-- SEEK (R362): SRV.AX_CMD cmd 4 starts a short or long track seek to SRV.SEEK.target. -/
  | seek (d : Fin 4) (now : Nat)
  /-- LAYER_JUMP (R361): SRV.AX_CMD cmd 5 kicks the focus to the other layer. -/
  | layerJump (d : Fin 4) (layer : Fin 2)
  /-- RELEASE_TO_HERON (R350): SRV.AX_CMD cmd 7 returns a manager-held axis to Heron's start sequence. -/
  | releaseToHeron (a : Axis)
  /-- LAYER_JUMP_TIMEOUT (R361): No close within SRV.JUMP2.tmo_us, so acquisition runs for the target layer. -/
  | layerJumpTimeout (d : Fin 4)
  /-- SEEK_CONFIRM (R364): An ADIP address read after a seek close confirms the target track, or the seek is retried. -/
  | seekConfirm (d : Fin 4) (now : Nat)
  /-- DRIVE_START_SEQUENCE (R350): A disc qualified present with door and tray closed starts spindle, focus, tracking and sled in order. -/
  | driveStartSequence (d : Fin 4)
  /-- RATE_METER_BIN (R356): At the end of each 100 ms bin the rate meter value is updated. -/
  | rateMeterBin
  /-- SOURCE_FAULT_HOLD_EXPIRY (R357): After hold_ms of a faulted source, the set-point slews toward SP_FB. -/
  | sourceFaultHoldExpiry (a : Axis)
  /-- START (R375): SPN.CMD start moves a STOPPED spindle to WAIT_GRANT. -/
  | spinStart (d : Fin 4)
  /-- STOP (R375): SPN.CMD stop moves the spindle to BRAKE. -/
  | spinStop (d : Fin 4)
  /-- COAST (R375): SPN.CMD coast turns every gate low and moves the spindle to STOPPED at once. -/
  | coast (d : Fin 4)
  /-- CLEAR_FAULT (R375): SPN.CMD clear fault moves FAULT to STOPPED. -/
  | clearFault (d : Fin 4)
  /-- ROTOR_DETECT_DONE (R377): The six test vectors are measured, and START begins at the step found, or detection repeats or aligns. -/
  | rotorDetectDone (d : Fin 4) (currents : List Nat)
  /-- ALIGNMENT_DONE (R378): The 200 ms alignment at step 0 ends and START begins at step 2. -/
  | alignmentDone (d : Fin 4)
  /-- FORCED_COMMUTATION (R379): The forced step time in START expires, and the next commutation step is applied. -/
  | forcedCommutation (d : Fin 4)
  /-- ZERO_CROSSING (R381): A back-EMF crossing accepted within the window schedules the next commutation and updates speed, lock and Ke. -/
  | zeroCrossing (d : Fin 4) (dt : Nat) (rising : Bool) (sample : Int)
  /-- CROSSING_WINDOW_MISS (R394): A crossing window closes without a crossing, and a second miss in a row declares rotor loss. -/
  | crossingWindowMiss (d : Fin 4)
  /-- ROTOR_REACQUIRED (R394): Six passive crossings reacquire the rotor, which returns to RUN or goes to BRAKE by its speed. -/
  | rotorReacquired (d : Fin 4) (step : Fin 6) (intervals : List Nat)
  /-- REACQUISITION_TIMEOUT (R394): 50 ms pass in LOST without reacquisition, and the drive brakes. -/
  | reacquisitionTimeout (d : Fin 4)
  /-- LOCKED_ROTOR_TIMEOUT (R390): No commutation event for 250 ms in START or RUN declares a locked rotor. -/
  | lockedRotorTimeout (d : Fin 4)
  /-- LOCKED_ROTOR_RETRY (R390): 1 s after a locked rotor the drive asks again for a grant, or enters FAULT. -/
  | lockedRotorRetry (d : Fin 4)
  /-- SPINDLE_OVERCURRENT (R392): An ISNS sample above ioc turns every gate low for the period, and 1000 periods in a row give fault 4. -/
  | spindleOvercurrent (d : Fin 4)
  /-- BRAKE_PROBE (R389): Every 5 ms in BRAKE the low gates are released and the speed is estimated from back-EMF. -/
  | brakeProbe (d : Fin 4) (uv : Nat)
  /-- BRAKE_TIMEOUT (R389): 5 s in BRAKE without a stop estimate moves the drive to STOPPED and logs it. -/
  | brakeTimeout (d : Fin 4)
  /-- SPINDLE_IDLE_TIMEOUT (R397): A drive idle for SPN.CTL.idle_s goes to BRAKE and then STOPPED. -/
  | spindleIdleTimeout (d : Fin 4)
  /-- TRAVEL (R411): SLD.CMD travel moves the sled to SLD.TGT in travel mode. -/
  | travel (d : Fin 4)
  /-- SLED_SEEK (R412): SLD.CMD seek moves the sled to SLD.TGT in seek mode. -/
  | sledSeek (d : Fin 4)
  /-- HOME (R406): SLD.CMD home references the sled against the inner stop and moves it to the lead-in. -/
  | home (d : Fin 4)
  /-- PARK (R418): SLD.CMD park travels the sled to SLD.MECH.park. -/
  | park (d : Fin 4)
  /-- SLED_STOP (R418): SLD.CMD stop brakes the sled at a and holds. -/
  | sledStop (d : Fin 4)
  /-- RELEASE (R418): SLD.CMD release turns the bridges off and clears homed. -/
  | sledRelease (d : Fin 4)
  /-- SLED_CLEAR (R417): SLD.CMD clear moves the sled from FAULT to OFF. -/
  | sledClear (d : Fin 4)
  /-- SLED_PLAN_TICK (R410): Each 100 µs tick plans the sled's position and velocity and may report arrival. -/
  | sledPlanTick (d : Fin 4)
  /-- SLED_TICK_LATE (R422): A planning tick unfinished by the next tick stops the step timer and may clear homed. -/
  | sledTickLate (d : Fin 4)
  /-- SLED_ARRIVAL_REPORT (R410): settle_ms after ARRIVED, arrival is reported to the servo engine. -/
  | sledArrivalReport (d : Fin 4)
  /-- SLED_REREFERENCE (R414): An ADIP read re-references the sled position and may declare lost steps. -/
  | sledRereference (d : Fin 4) (k : Fin 567840)
  /-- BOOST_DECAY (R403): After decay_s without a declaration, boost falls by one step. -/
  | boostDecay (d : Fin 4)
  /-- SLED_OVERCURRENT (R416): A STIS sample above ioc cuts that phase for the period, and 1000 periods in a row give fault 3. -/
  | sledOvercurrent (d : Fin 4) (phaseB : Bool)
  /-- OPEN_COIL (R416): A coil whose current stays below 10 % of its target for 100 periods sends the sled to FAULT. -/
  | openCoil (d : Fin 4) (phaseB : Bool)
  /-- CAL_ITEM_GO (R436): A write of CAL.CMD with go queues the named calibration item. -/
  | calItemGo (kind : Fin 16) (d : Fin 4)
  /-- CAL_STORE (R442): A write of CAL.CMD with store writes changed Avocet records to NVM now. -/
  | calStore
  /-- CAL_ITEM_RUN (R436): A due calibration item runs, and its result updates the temperature sets or the item fails. -/
  | calItemRun (m : Option CalMeas)
  /-- CAL_DEFER_TIMEOUT (R437): A due drive item has waited defer_s, and no new stripe begins until it runs. -/
  | calDeferTimeout
  /-- CAL_PERIODIC_STORE (R442): Changed sets are stored at most once per store_min minutes. -/
  | calPeriodicStore
  /-- CONVERTER_CHECK_PERIOD (R430): CREF and ADCOFS rerun every 10 min when their converter is free. -/
  | converterCheckPeriod
  /-- VCORE_LOW (R449): VDD_CORE below v_lo for 500 ns raises the fabric-slow alarm. -/
  | vcoreLow
  /-- SPEED_INDEX_MEASURE (R447): Every 100 µs the replica rings are counted and the speed indices updated. -/
  | speedIndexMeasure (idx : List (BitVec 16)) (mv : BitVec 16)
  /-- FABRIC_SLOW_ALARM_CLEAR (R451): All alarm conditions have held clear for hold_ms, and the alarm clears. -/
  | fabricSlowAlarmClear
  /-- TPUT_WINDOW (R448): Each 1 ms window, the throughput counters record their last and lowest counts. -/
  | tputWindow (counts : List Nat)
  /-- TPUT_CLR (R448): A write of STL.TPUT_CLR resets every min field. -/
  | tputClr (v : Word)
  /-- CRYSTAL_QUALIFIED (R453): XT25 or XT32K is qualified by amplitude and frequency, or its qualification fails. -/
  | crystalQualified (xt32k good : Bool)
  /-- XT25_REQUALIFY (R453): Every 10 s while XT25 is not selected, its qualification is tried again. -/
  | xt25Requalify (good : Bool)
  /-- CLOCK_SOURCE_FAULT (R454): A missing-clock or amplitude detector faults a source. -/
  | clockSourceFault (k : Fin 3)
  /-- SUPERVISOR_GATE (R457): Each 125 ms gate, the supervisor judges the deviations and names a drifting or faulted source. -/
  | supervisorGate (xp xk pk : Int)
  /-- REF25_SWITCHOVER (R458): ref25 moves to another source without a glitch, with LPDDR and NAND paused. -/
  | ref25Switchover
  /-- SOURCE_RETURN (R459): A requalified source has agreed for return_s, and ref25 returns to it. -/
  | sourceReturn
  /-- SEL_REQ (R459): A write of CLK.SEL_REQ requests ref25 from the named source. -/
  | selReq (v : Word)
  /-- SLEEP_MODE_ENTRY (R461): After idle_ms with every idle condition met, the device enters SLEEP or DEEP. -/
  | sleepModeEntry
  /-- POWER_MODE_WAKE (R462): A wake event returns the device to RUN, aborting any entry in progress. -/
  | powerModeWake
  /-- FMC_GO (R464): A write of CLK.FMC_GO starts a frequency measurement, or is refused while busy. -/
  | fmcGo (v : Word)
  /-- FMC_DONE (R464): The measurement gate ends and the count is reported. -/
  | fmcDone (count : Word)
  /-- PSE_CLASS_CHANGE (R465): A PSE_CLASS code stable for 100 ms sets a new P_class. -/
  | pseClassChange (code : BitVec 2)
  /-- BUDGET_SAMPLE (R468): Every 1 ms the budget loop computes excess and shares, judges overload and gives or withdraws grants. -/
  | budgetSample (code : BitVec 12)
  /-- POWER_ON_RESET (R476): The supply monitor releases power-on reset, and the start-up sequence begins. -/
  | powerOnReset (vsel : BitVec 2)
  /-- BROWN_OUT (R476): A rail below its falling threshold past its filter starts a power-on reset. -/
  | brownOut (rail : Fin 7)
  /-- PERST_N_ASSERT (R478): A qualified PERST_N assertion starts a PERST_N reset and the start-up sequence. -/
  | perstNAssert
  /-- PERST_N_DEASSERT (R481): PERST_N deasserts, releasing the PCIe port, and early release sets HLT.BOOT.early. -/
  | perstNDeassert
  /-- STARTUP_SEQUENCE (R479): The device runs steps 1 to 11 of Table 15-3: clocks, OTP, tests, firmware, settings, calibration, LPDDR and rebuild. -/
  | startupSequence (env : StartEnv)
  /-- SWEEP_COMPLETE (R186): The whole protected LPDDR range is sealed, and sweep_done is set. -/
  | sweepComplete
  /-- FIRST_READY_STATE (R480): The end of step 11 makes configuration, BARs, rings and task ports available. -/
  | firstReadyState
  /-- STARTUP_SET_RELOAD (R485): Once every drive with a disc holds spindle lock, Heron reloads the stripe set named in instance 0's record. -/
  | startupSetReload (discs : List (Option DiscExam)) (set : SetExam)
  /-- ACC_CLR (R8): A write of 1 to HLT.ACC_CLR clears HLT.ACC_ERR and HLT.ACC_ADDR. -/
  | accClr
  /-- RST_CNT_CLEAR (R517): A write of 0 to HLT.RST_CNT.brownout clears that field and counter 6. -/
  | rstCntClear
  /-- SENSOR_SAMPLE (R497): Heron reads die, drive, supply and laser sensors and acts at their limits. -/
  | sensorSample (r : SensorRead)
  /-- HOT_CLEAR (R498): The die temperature has stayed below crit − 5 °C for 10 s, and hot clears. -/
  | hotClear
  /-- THERM_WRITE (R498): A write of HRN.THERM takes effect only when warn and crit are valid as a pair. -/
  | thermWrite (v : Word)
  /-- LOG_FOLD_FLUSH (R503): At the end of a folding second, one entry carrying the repeat count is written. -/
  | logFoldFlush
  /-- LOG_MIRROR_WRITE (R504): A filled or second-old mirror block is written to the staging store and journaled. -/
  | logMirrorWrite
  /-- LOG_NVM_WRITE (R504): A critical entry is written to the NVM ring within 10 ms. -/
  | logNvmWrite
  /-- TIM_SEC_LO_READ (R519): A read of TIM.SEC_LO latches TIM.SEC_HI and TIM.SUB from the same tick. -/
  | timSecLoRead
  /-- SET (R520): TIM.CMD = 1 stages a clock set that commits at a sub-second wrap. -/
  | setClock
  /-- CANCEL (R520): TIM.CMD = 2 cancels a pending clock set. -/
  | cancel
  /-- CLOCK_COMMIT (R520): At the wrap, the staged time is taken, valid is set and a regression is reported. -/
  | clockCommit
  /-- LAST_ALIVE_WRITE (R521): While the clock is valid, counter 5 is written every 3600 s and when PD_PGOOD falls. -/
  | lastAliveWrite
  /-- MONO_FLOOR_WRITE (R522): Counter 4 is rewritten when monotonic time reaches the stored floor. -/
  | monoFloorWrite
  /-- I (R535): The monitor command I reports identity and state. -/
  | monI
  /-- RD (R536): The monitor command RD reads up to 64 words under the range checker and monitor rules. -/
  | monRd (addr n : BitVec 64)
  /-- WR (R537): The monitor command WR writes one word, rewriting a whole NVM row where it lands. -/
  | monWr (addr value : BitVec 64) (good : Bool)
  /-- BAUD (R535): The monitor command BAUD changes the UART rate after its status line. -/
  | baud (rate : BitVec 64)
  /-- LOCK (R540): The monitor command LOCK sets the production lock for the next start-up. -/
  | lock
  /-- UNLOCK (R542): The monitor command UNLOCK arms the unlock when the code matches and slot 3 is not active. -/
  | unlock (code : BitVec 64)
  /-- MONITOR_GO (R531): The monitor command GO ends the monitor and continues step 5. -/
  | monitorGo
  /-- MONITOR_IDLE_TIMEOUT (R531): No complete command line for the idle timeout ends the monitor as GO. -/
  | monitorIdleTimeout
  /-- INPUT_QUALIFIED (R557): A digital input holds a new level for its glitch time and is qualified. -/
  | inputQualified (n : Fin 13) (v : Bool)
  /-- CHATTER_CLEAR (R558): After a quiet window and 1 s of held level, the chatter verdict clears. -/
  | chatterClear (n : Fin 13)
  /-- INPUT_STUCK (R559): An input held at its stuck level past its timeout, or a tray and door pair in conflict, is declared stuck. -/
  | inputStuck (n : Fin 13)
  /-- STUCK_CLEAR (R559): After 1 s away from the stuck level, the stuck verdict clears. -/
  | stuckClear (n : Fin 13)
  /-- ANALOGUE_OUT_OF_RANGE (R561): An analogue input outside its range for the entry time is declared out of range. -/
  | analogueOutOfRange (n : Fin 10) (code : BitVec 12)
  /-- ANALOGUE_RETURN (R561): An analogue input within its return band for 1 s returns to range. -/
  | analogueReturn (n : Fin 10) (code : BitVec 12)
  /-- ENTROPY_HEALTH_RECOVERY (R176): After a health-test failure, 1024 consecutive passing samples restart generation and set SEA.STS.rng_ok again. -/
  | entropyHealthRecovery
  /-- CARRIER_PERIOD (R383): Each spindle or sled PWM carrier period samples the shunt current at the on-time centre and updates the duty toward the current target. -/
  | carrierPeriod (d : Fin 4) (sled : Bool) (ma mb : BitVec 16)
  /-- COMMUTATION (R381): At the scheduled instant after an accepted crossing, or at the predicted time after a miss, the drive advances one step of Table 11-2 with softened edges. -/
  | commutation (d : Fin 4)
  /-- SWEEP_WATERMARK (R186): The start-up sweep seals another line, SEA.SWEEP advances, and any engine waiting on a line below the new watermark proceeds. -/
  | sweepWatermark (n : BitVec 27)
  /-- UNKNOWN_COMMAND (R533): A monitor line whose command name is unknown, or that breaks the syntax or exceeds 128 characters, is answered with status 01 or 02. -/
  | unknownCommand (syn : Bool)
  deriving DecidableEq, Repr

end Sys2Proof
end

