-- ==== Sys2Proof/WellFormed.lean ====
section
/-!
DEFINITION. What the operand types cannot say about a command: the lengths of the byte strings it carries.
-/

namespace Sys2Proof

/-- A command that the world outside can send: an access of 1 to 8 bytes, a 64-byte entry, a 32-byte doorbell fetch.
DESIGN CHOICE, log entry 11. -/
def Instr.wellFormed : Instr → Bool
  | .registerWrite _ _ data => decide (1 ≤ data.length ∧ data.length ≤ 8)
  | .sharedPageWrite _ _ data => decide (1 ≤ data.length ∧ data.length ≤ 8)
  | .commandAccept _ _ entry => decide (entry.length = 64)
  | .doorbellFetchComplete _ data => decide (data.length = 32)
  | .hostReadCompletion _ data _ => decide (1 ≤ data.length ∧ data.length ≤ 4096)
  | _ => true

end Sys2Proof
end

