-- ==== Sys2Proof/Decode.lean ====
section
/-!
DEFINITION. The command that a word spells by the bits of spec/opcode_table.json. The table gives no row any bits: the commands are
register writes, protocol events and events at pins, so no word spells one.
-/

namespace Sys2Proof

/-- The command that a word of `nbits` bits spells: none, since no row of the table has bits. DESIGN CHOICE, log entry 57. -/
def decodeTableWord (_nbits _w : Nat) : Option Instr := none

end Sys2Proof
end

