-- ==== Sys2Proof/Config.lean ====
section
/-!
DEFINITION. What an implementation fixes and what the spec leaves open. Every constant here is opaque: nothing can be proved about
its value, so a statement holds for every value (log entries 4 to 8).
-/

namespace Sys2Proof.Config

/-- A fresh value each time, for the results the spec leaves open; applied to a counter that the step advances (DESIGN CHOICE, log entry 4). -/
opaque freeNat : Nat → Nat

/-- Heruimer's PCI vendor identifier (R42), which the spec does not give. DESIGN CHOICE, log entry 7. -/
opaque vendorId : BitVec 16

/-- The stepping of the device: 0 A1, 1 B0 (R1). DESIGN CHOICE, log entry 7. -/
opaque steppingB0 : Bool

/-- The device identity digest (Table 20-14), 16 bytes taken from OTP. DESIGN CHOICE, log entry 7. -/
opaque deviceDigest : Nat

/-- SHA-384 of a byte string, as 48 bytes held in a number. DESIGN CHOICE, log entry 5. -/
opaque sha384 : List Byte → Nat

/-- SHA-256 of a byte string, as a 256-bit number. DESIGN CHOICE, log entry 5. -/
opaque sha256 : List Byte → Nat

/-- ECDSA P-384 verification of a signature over a message under a public key. DESIGN CHOICE, log entry 5. -/
opaque ecdsaOk : (key msg sig : List Byte) → Bool

/-- The digest of the firmware signer key of an index, held in the boot ROM (R523). -/
opaque bootRomKeyDigest : Nat → Nat

/-- The digest of the settings key, held in the boot ROM (Table 16-7, check 18). -/
opaque settingsKeyDigest : Nat

/-- The value that the running firmware holds as the default of a storable register (R508). DESIGN CHOICE, log entry 7. -/
opaque fwDefault : Nat → Word

/-- The event code of an event, by its source and place (R501). DESIGN CHOICE, log entry 6. -/
opaque evCode : Nat → Nat → BitVec 16

/-- The AES-GCM tag of a message: key, nonce, additional data, plaintext. DESIGN CHOICE, log entry 5. -/
opaque gcmTag : (key nonce : Nat) → (aad text : List Byte) → Nat

/-- The gain trim in 1/65,536 for a sum of 256 conversions of a converter's reference input; true for the RF converter (R430 gives no
formula). DESIGN CHOICE, log entry 8. -/
opaque gainTrim : (rf : Bool) → (sum : Int) → Int

/-- Byte `i` of the AES-GCM key stream, which the ciphertext is the exclusive-or of with the message. DESIGN CHOICE, log entry 5. -/
opaque gcmByte : (key nonce i : Nat) → Byte

/-- The IDE_KM status that answers a K_SET_GO for a key set not programmed (R75). DESIGN CHOICE, log entry 8. -/
opaque ideKmUnprogrammed : Nat

/-- The SPDM response code of a request (Table 02-6), by the request's number; the SPDM specification gives it.
DESIGN CHOICE, log entry 8. PRESUMED, log entry 36. -/
opaque spdmResponse : Nat → Nat

/-- The digest of the boot ROM, SPDM measurement block 1. -/
opaque bootRomDigest : Nat

/-- A message authentication code of an LPDDR line or a map leaf line. DESIGN CHOICE, log entry 5. -/
opaque lineMac : (key : Nat) → (msg : List Byte) → Nat

/-- The XTS ciphertext of a 64-byte line: data key, tweak key, tweak, plaintext. DESIGN CHOICE, log entry 5. -/
opaque xtsText : (dataKey tweakKey tweak : Nat) → (text : List Byte) → List Byte

/-- The 32 bytes of the key of a serial, as the deterministic random bit generator drew them (R176, R177). DESIGN CHOICE, log entry 5. -/
opaque drbgKey : (serial : Nat) → List Byte

/-- The 32 bytes of a root slot, and of the identity seed, in the OTP key cells (R170 to R173). DESIGN CHOICE, log entry 7. -/
opaque rootKey : (slot : Nat) → List Byte
opaque identitySeed : List Byte

/-- The injected sine of R347, amplitude × sin of a phase in 2^-32 turn, in Q4.28; the spec states no rounding of it.
DESIGN CHOICE, log entry 8. -/
opaque injSine : (amp : Int) → (phase : Nat) → Int

/-- A drive temperature in 1/16 °C as the Q4.28 measure of the thermal members (Table 10-5); the spec gives no scale.
DESIGN CHOICE, log entry 8. -/
opaque tempQ : Int → Int

/-- A laser power in 0.01 mW as the Q4.28 value of the laser limit group; the spec gives no scale. DESIGN CHOICE, log entry 8. -/
opaque powerQ : Int → Int

/-- The value in 0.01 mW that the laser serial port writes for Pread (0), ΔPs (1), ΔPw (2) and ΔPo (3) at a demand of the laser group; the
spec gives the levels at no demand, only that the last three scale together (R330). DESIGN CHOICE, log entry 8. -/
opaque laserLevel : (level : Nat) → (demand : Int) → BitVec 16

/-- The factor (R / R_opc) ^ (γ / 256) of R435 in 1/65,536, which the spec computes to 0.1 %. DESIGN CHOICE, log entry 8. -/
opaque rateTerm : (rate rateOpc gamma : Nat) → Nat

/-- The factory default of a calibration value that settings item 0x0008 does not hold (R425). DESIGN CHOICE, log entry 7. -/
opaque calDefault : Nat → Int

/-- The temperature of a thermistor code in 1/16 °C where no settings item 0x0004 is stored. -/
opaque fwThermistor : Nat → Int

/-- The optimum power of R335 in 0.01 mW, from its exact quotient; the spec states no rounding. DESIGN CHOICE, log entry 8. -/
opaque opcRound : (num den : Int) → Nat

/-- The bounds of the management area in LPDDR, in MiB, as SEA.MGMT_BASE and SEA.MGMT_SIZE report them (spec/05 gives no value).
DESIGN CHOICE, log entry 7. -/
opaque mgmtBase : BitVec 32
opaque mgmtSize : BitVec 32

/-- The 64 plaintext bytes of an LPDDR line, by its number and the counter of free values: the spec gives no layout of LPDDR.
DESIGN CHOICE, log entry 7. -/
opaque lineContent : (line k : Nat) → List Byte

/-- What LPDDR holds where nothing has been sealed since it was powered. DESIGN CHOICE, log entry 7. -/
opaque rawLpddr : Nat → List Byte

/-- The 4096 bytes of a record or section unit of kind 2, by its checkpoint-structure sequence: the spec gives these no layout.
DESIGN CHOICE, log entry 69. -/
opaque ckptBytes : Nat → List Byte

/-- The data rate in MT/s of a timing mode of ONFI, NV-DDR3 or NV-DDR2 (R210). DESIGN CHOICE, log entry 7. -/
opaque nandRate : (ddr3 : Bool) → (mode : Nat) → Nat

/-- The running firmware's values for settings items that are not stored: namespace size and quota of instance 0 (item 0x0003),
HST.IDE_CTL.required (item 0x0002), max_mts, rr_addr, rr_levels and the overprovision percent (item 0x0006).
DESIGN CHOICE, log entry 7. -/
opaque fwInstance0 : Nat × Nat
opaque fwIdeRequired : Nat
opaque fwNand : Nat × Nat × Nat × Nat

end Sys2Proof.Config
end

