-- ==== Sys2Proof/Machine/Bank.lean ====
section
/-!
DEFINITION. Sparse tables by number: a list of (key, value) pairs in one canonical form, the keys strictly rising and no entry
equal to what an unlisted key reads as. The default is given by the caller as a function of the key.
-/

namespace Sys2Proof.Machine

/-- A sparse table from numbers to values. -/
abbrev Bank (α : Type) := List (Nat × α)

/-- What key `k` holds: its entry, or the default. -/
def Bank.get {α : Type} (d : Nat → α) (b : Bank α) (k : Nat) : α :=
  match b with
  | [] => d k
  | (j, v) :: r => if j = k then v else Bank.get d r k

/-- The table without key `k`. -/
def Bank.erase {α : Type} (b : Bank α) (k : Nat) : Bank α :=
  match b with
  | [] => []
  | (j, v) :: r => if j = k then r else (j, v) :: Bank.erase r k

/-- The table with an entry for key `k` in its place. -/
def Bank.insert {α : Type} (b : Bank α) (k : Nat) (v : α) : Bank α :=
  match b with
  | [] => [(k, v)]
  | (j, w) :: r =>
    if k < j then (k, v) :: (j, w) :: r
    else if k = j then (k, v) :: r
    else (j, w) :: Bank.insert r k v

/-- The table after a write of `v` to key `k`: writing the default removes the entry. -/
def Bank.set {α : Type} [DecidableEq α] (d : Nat → α) (b : Bank α) (k : Nat) (v : α) : Bank α :=
  if v = d k then b.erase k else b.insert k v

/-- Every key of the table lies above `n`. -/
def Bank.above {α : Type} (n : Nat) (b : Bank α) : Bool :=
  match b with
  | [] => true
  | (j, _) :: r => decide (n < j) && Bank.above n r

/-- The canonical form: keys strictly rising, no entry equal to its default. -/
def Bank.wf {α : Type} [DecidableEq α] (d : Nat → α) (b : Bank α) : Bool :=
  match b with
  | [] => true
  | (j, v) :: r => Bank.above j r && decide (v ≠ d j) && Bank.wf d r

/-- The table with every listed value changed by `g`. -/
def Bank.mapVals {α : Type} [DecidableEq α] (d : Nat → α) (b : Bank α) (g : α → α) : Bank α :=
  b.foldr (fun e r => if g e.2 = d e.1 then r else (e.1, g e.2) :: r) []

/-- The entries of `b` whose keys satisfy `p`. -/
def Bank.keep {α : Type} (p : Nat → Bool) (b : Bank α) : Bank α := b.filter (fun e => p e.1)

/-- `dst` with every key that satisfies `p` taking what `src` holds there. -/
def Bank.adopt {α : Type} [DecidableEq α] (d : Nat → α) (p : Nat → Bool) (src dst : Bank α) : Bank α :=
  (src.filter (fun e => p e.1)).foldl (fun b e => Bank.set d b e.1 e.2) (dst.filter (fun e => !p e.1))

/-- Bytes `off .. off + len - 1` of a byte table. -/
def Bank.bytes (d : Nat → Byte) (b : Bank Byte) (off len : Nat) : List Byte :=
  match len with
  | 0 => []
  | n + 1 => Bank.get d b off :: Bank.bytes d b (off + 1) n

/-- A byte table after a run of bytes is written from `off` on. -/
def Bank.putBytes (d : Nat → Byte) (b : Bank Byte) (off : Nat) : List Byte → Bank Byte
  | [] => b
  | v :: r => Bank.putBytes d (Bank.set d b off v) (off + 1) r

end Sys2Proof.Machine
end

