-- ==== Sys2Proof/Machine/Bits.lean ====
section
/-!
DEFINITION. Bit-field, sign, byte-order, saturation and serial-number helpers that every family uses (R6, R15).
-/

namespace Sys2Proof.Machine

/-- Bits `[lo + len - 1 : lo]` of `n` (R6). -/
def fldN (n lo len : Nat) : Nat := (n >>> lo) % 2 ^ len

/-- The field `[lo + len - 1 : lo]` of a register word. -/
def fld (w : Word) (lo len : Nat) : Nat := fldN w.toNat lo len

/-- `n` with bits `[lo + len - 1 : lo]` replaced by the low `len` bits of `v`. -/
def setFldN (n lo len v : Nat) : Nat := n - (fldN n lo len) * 2 ^ lo + (v % 2 ^ len) * 2 ^ lo

/-- A register word with one field replaced. -/
def setFld (w : Word) (lo len v : Nat) : Word := BitVec.ofNat 32 (setFldN w.toNat lo len v)

/-- `b` as the number 0 or 1. -/
def b2n (b : Bool) : Nat := if b then 1 else 0

/-- The two's-complement reading of the low `len` bits of `n`. -/
def sext (len n : Nat) : Int :=
  let m := n % 2 ^ len
  if 2 * m < 2 ^ len then (m : Int) else (m : Int) - (2 ^ len : Nat)

/-- The low `len` bits of an integer, as a natural number. -/
def wrapN (len : Nat) (i : Int) : Nat := (i % (2 ^ len : Nat)).toNat

/-- A 32-bit word holding the two's complement of `i`. -/
def wordOfInt (i : Int) : Word := BitVec.ofInt 32 i

/-- `i` held between `lo` and `hi`. -/
def clampI (lo hi i : Int) : Int := if i < lo then lo else if hi < i then hi else i

/-- `i` saturated to a signed field of `len` bits. -/
def satS (len : Nat) (i : Int) : Int := clampI (-(2 ^ (len - 1) : Nat)) ((2 ^ (len - 1) : Nat) - 1) i

/-- `n` saturated to an unsigned field of `len` bits. -/
def satU (len n : Nat) : Nat := min n (2 ^ len - 1)

/-- A saturating 16-bit counter advanced by one. -/
def inc16 (n : Nat) : Nat := satU 16 (n + 1)

/-- Truncating division, the `/` of the pseudocode (R15). -/
def tdiv (a b : Int) : Int := Int.tdiv a b

/-- Arithmetic shift right of a signed value (R15). -/
def asr (a : Int) (k : Nat) : Int := Int.fdiv a (2 ^ k : Nat)

/-- The `len` least significant bytes of `n`, little-endian (R6). -/
def leBytes (len n : Nat) : List Byte :=
  match len with
  | 0 => []
  | k + 1 => BitVec.ofNat 8 n :: leBytes k (n / 256)

/-- The `len` bytes of `n`, most significant first. -/
def beBytes (len n : Nat) : List Byte := (leBytes len n).reverse

/-- The number a little-endian byte string holds. -/
def leNat : List Byte → Nat
  | [] => 0
  | b :: r => b.toNat + 256 * leNat r

/-- `len` bytes of `l` from offset `off`. -/
def slice (l : List Byte) (off len : Nat) : List Byte := (l.drop off).take len

/-- The little-endian field of `len` bytes at `off`. -/
def leAt (l : List Byte) (off len : Nat) : Nat := leNat (slice l off len)

/-- `l` padded with zero bytes or cut to exactly `n` bytes. -/
def padTo (n : Nat) (l : List Byte) : List Byte := (l ++ List.replicate (n - l.length) 0).take n

/-- `l` with the bytes from `off` on replaced by `v`, as far as `l` reaches. -/
def putAt (l : List Byte) (off : Nat) (v : List Byte) : List Byte :=
  l.take off ++ v ++ l.drop (off + v.length)

/-- One byte of the reflected CRC-32 of IEEE 802.3, eight shifts. -/
def crcBits : Nat → Nat → Nat
  | 0, c => c
  | k + 1, c => crcBits k (if c % 2 = 1 then (c / 2) ^^^ 0xEDB88320 else c / 2)

/-- The CRC-32 register run over a byte string. -/
def crcRun (c : Nat) : List Byte → Nat
  | [] => c
  | b :: r => crcRun (crcBits 8 (c ^^^ b.toNat)) r

/-- CRC-32, IEEE 802.3 polynomial (Tables 15-8, 16-4, 08-5). -/
def crc32 (l : List Byte) : Nat := (crcRun 0xFFFFFFFF l) ^^^ 0xFFFFFFFF

/-- Serial comparison of 32-bit sequence numbers: `a` is later than `b` (R502). -/
def serialAfter (a b : Nat) : Bool :=
  let d := (a + 2 ^ 32 - b % 2 ^ 32) % 2 ^ 32
  decide (d ≠ 0 ∧ d < 2 ^ 31)

/-- Bit `i` of a mask held as a number. -/
def bitN (n i : Nat) : Bool := n.testBit i

/-- The mask with bit `i` set or cleared. -/
def setBitN (n i : Nat) (v : Bool) : Nat := setFldN n i 1 (b2n v)

/-- The mask of the indices below `k` for which `p` holds. -/
def maskOf (k : Nat) (p : Nat → Bool) : Nat :=
  match k with
  | 0 => 0
  | j + 1 => maskOf j p + b2n (p j) * 2 ^ j

/-- The number of ones among the low `k` bits. -/
def popN (k n : Nat) : Nat :=
  match k with
  | 0 => 0
  | j + 1 => popN j n + b2n (n.testBit j)

/-- A generation, a count or a sequence that runs from 1 to `top` and is followed by 1 (R17, R101). -/
def wrapInc (top n : Nat) : Nat := if top ≤ n then 1 else n + 1

end Sys2Proof.Machine
end

