-- ==== Sys2Proof/Machine/Events.lean ====
section
/-!
DEFINITION. The event-log entries that the chapters name, with the source number of each (R500) and its class (R501). The 16-bit
code of an event and its argument layout are those of the firmware's decode section, which the spec does not list (log entry 6).
-/

namespace Sys2Proof.Machine

/-- The events that the spec says are logged. -/
inductive Ev where
  | reservedBits
  | accessRefused
  | valueRefused
  | linkUp
  | linkDown
  | readTimeout
  | readRefused
  | readPoisoned
  | ideTxHeld
  | ideKmPlain
  | instanceState
  | inboundUnknown
  | relayDiscarded
  | commitRefused
  | commandRefused
  | commandFailed
  | completionDiscarded
  | ringFault
  | ringRefused
  | doorbellFailed
  | epochLate
  | epochAdopted
  | timeRegressed
  | clockSet
  | periodClosed
  | startUp
  | earlyRelease
  | dramFail
  | haltRecovered
  | slotFailed
  | trialReverted
  | settingsFallback
  | settingsFactory
  | settingsValue
  | settingsStored
  | counterRecovered
  | firmwareStaged
  | rangeRefused
  | quarantineCleared
  | entropyFail
  | entropyBack
  | keyLost
  | logLost
  | railOut
  | siteExcluded
  | dieWarm
  | dieCritical
  | laserCurrent
  | monitorEntered
  | monitorUnlocked
  | queueWaiting
  | dieExcluded
  | dieFailed
  | blockRetired
  | unitLost
  | unitRebuilt
  | leafRepaired
  | lineRetried
  | unitRepaired
  | storeFormatted
  | storeFormatRevoked
  | storeUnmountable
  | hregRefused
  | spaceTimeout
  | wayDisabled
  | parityFault
  | axisOpened
  | gateClosed
  | clampStep
  | acquireFailed
  | seekFailed
  | sourceFault
  | spinIgnored
  | rotorAligned
  | rotorLost
  | rotorLocked
  | brakeTimeout
  | spindleFault
  | sledRefused
  | stepsLost
  | sledFault
  | alarmRose
  | opcFailed
  | setFull
  | foreignSet
  | setLoadFailed
  | stripeLost
  | segmentHeld
  | blockRebuilt
  | linkUnchecked
  | driveAbsent
  | calFailed
  | converterDrift
  | converterFault
  | thermSuspect
  | clockUnqualified
  | clockFault
  | clockDrift
  | clockUnresolved
  | overload
  | pinSense
  | inputVerdict
  | inputCleared
  | rangeVerdict
  | rangeBack
  | monitorRow
  | monitorLock
  | monitorRefusal
  | monitorArmed
  | otpCopyFail
  deriving DecidableEq, Repr

/-- The source number of an event (R500). -/
def Ev.src : Ev → Nat
  | .reservedBits => 24
  | .accessRefused => 24
  | .valueRefused => 24
  | .linkUp => 1
  | .linkDown => 1
  | .readTimeout => 1
  | .readRefused => 1
  | .readPoisoned => 1
  | .ideTxHeld => 1
  | .ideKmPlain => 1
  | .instanceState => 2
  | .inboundUnknown => 2
  | .relayDiscarded => 2
  | .commitRefused => 24
  | .commandRefused => 3
  | .commandFailed => 3
  | .completionDiscarded => 3
  | .ringFault => 3
  | .ringRefused => 3
  | .doorbellFailed => 3
  | .epochLate => 24
  | .epochAdopted => 24
  | .timeRegressed => 20
  | .clockSet => 20
  | .periodClosed => 2
  | .startUp => 18
  | .earlyRelease => 18
  | .dramFail => 18
  | .haltRecovered => 18
  | .slotFailed => 25
  | .trialReverted => 19
  | .settingsFallback => 21
  | .settingsFactory => 21
  | .settingsValue => 21
  | .settingsStored => 21
  | .counterRecovered => 21
  | .firmwareStaged => 19
  | .rangeRefused => 5
  | .quarantineCleared => 5
  | .entropyFail => 5
  | .entropyBack => 5
  | .keyLost => 5
  | .logLost => 22
  | .railOut => 19
  | .siteExcluded => 19
  | .dieWarm => 19
  | .dieCritical => 19
  | .laserCurrent => 19
  | .monitorEntered => 25
  | .monitorUnlocked => 25
  | .queueWaiting => 8
  | .dieExcluded => 6
  | .dieFailed => 6
  | .blockRetired => 6
  | .unitLost => 6
  | .unitRebuilt => 6
  | .leafRepaired => 5
  | .lineRetried => 5
  | .unitRepaired => 5
  | .storeFormatted => 6
  | .storeFormatRevoked => 6
  | .storeUnmountable => 6
  | .hregRefused => 6
  | .spaceTimeout => 6
  | .wayDisabled => 7
  | .parityFault => 7
  | .axisOpened => 11
  | .gateClosed => 10
  | .clampStep => 11
  | .acquireFailed => 11
  | .seekFailed => 11
  | .sourceFault => 11
  | .spinIgnored => 12
  | .rotorAligned => 12
  | .rotorLost => 12
  | .rotorLocked => 12
  | .brakeTimeout => 12
  | .spindleFault => 12
  | .sledRefused => 13
  | .stepsLost => 13
  | .sledFault => 13
  | .alarmRose => 17
  | .opcFailed => 10
  | .setFull => 8
  | .foreignSet => 8
  | .setLoadFailed => 8
  | .stripeLost => 8
  | .segmentHeld => 8
  | .blockRebuilt => 8
  | .linkUnchecked => 8
  | .driveAbsent => 8
  | .calFailed => 14
  | .converterDrift => 14
  | .converterFault => 14
  | .thermSuspect => 14
  | .clockUnqualified => 15
  | .clockFault => 15
  | .clockDrift => 15
  | .clockUnresolved => 15
  | .overload => 16
  | .pinSense => 16
  | .inputVerdict => 23
  | .inputCleared => 23
  | .rangeVerdict => 23
  | .rangeBack => 23
  | .monitorRow => 25
  | .monitorLock => 25
  | .monitorRefusal => 25
  | .monitorArmed => 25
  | .otpCopyFail => 5

/-- The class of an event: 0 info, 1 notice, 2 warning, 3 critical (R501). -/
def Ev.cls : Ev → Nat
  | .reservedBits => 1
  | .accessRefused => 1
  | .valueRefused => 1
  | .linkUp => 0
  | .linkDown => 2
  | .readTimeout => 2
  | .readRefused => 2
  | .readPoisoned => 2
  | .ideTxHeld => 2
  | .ideKmPlain => 1
  | .instanceState => 0
  | .inboundUnknown => 1
  | .relayDiscarded => 1
  | .commitRefused => 1
  | .commandRefused => 1
  | .commandFailed => 2
  | .completionDiscarded => 1
  | .ringFault => 2
  | .ringRefused => 1
  | .doorbellFailed => 2
  | .epochLate => 2
  | .epochAdopted => 0
  | .timeRegressed => 1
  | .clockSet => 1
  | .periodClosed => 0
  | .startUp => 0
  | .earlyRelease => 2
  | .dramFail => 3
  | .haltRecovered => 3
  | .slotFailed => 3
  | .trialReverted => 3
  | .settingsFallback => 3
  | .settingsFactory => 3
  | .settingsValue => 1
  | .settingsStored => 1
  | .counterRecovered => 1
  | .firmwareStaged => 1
  | .rangeRefused => 1
  | .quarantineCleared => 1
  | .entropyFail => 2
  | .entropyBack => 0
  | .keyLost => 3
  | .logLost => 2
  | .railOut => 2
  | .siteExcluded => 2
  | .dieWarm => 2
  | .dieCritical => 3
  | .laserCurrent => 2
  | .monitorEntered => 0
  | .monitorUnlocked => 3
  | .queueWaiting => 2
  | .dieExcluded => 3
  | .dieFailed => 3
  | .blockRetired => 2
  | .unitLost => 3
  | .unitRebuilt => 2
  | .leafRepaired => 2
  | .lineRetried => 2
  | .unitRepaired => 2
  | .storeFormatted => 1
  | .storeFormatRevoked => 3
  | .storeUnmountable => 3
  | .hregRefused => 1
  | .spaceTimeout => 2
  | .wayDisabled => 2
  | .parityFault => 2
  | .axisOpened => 2
  | .gateClosed => 2
  | .clampStep => 2
  | .acquireFailed => 2
  | .seekFailed => 2
  | .sourceFault => 2
  | .spinIgnored => 1
  | .rotorAligned => 2
  | .rotorLost => 2
  | .rotorLocked => 2
  | .brakeTimeout => 2
  | .spindleFault => 3
  | .sledRefused => 1
  | .stepsLost => 2
  | .sledFault => 3
  | .alarmRose => 2
  | .opcFailed => 2
  | .setFull => 2
  | .foreignSet => 1
  | .setLoadFailed => 2
  | .stripeLost => 3
  | .segmentHeld => 3
  | .blockRebuilt => 2
  | .linkUnchecked => 0
  | .driveAbsent => 3
  | .calFailed => 2
  | .converterDrift => 2
  | .converterFault => 3
  | .thermSuspect => 2
  | .clockUnqualified => 2
  | .clockFault => 2
  | .clockDrift => 2
  | .clockUnresolved => 2
  | .overload => 2
  | .pinSense => 2
  | .inputVerdict => 2
  | .inputCleared => 0
  | .rangeVerdict => 2
  | .rangeBack => 0
  | .monitorRow => 0
  | .monitorLock => 0
  | .monitorRefusal => 1
  | .monitorArmed => 1
  | .otpCopyFail => 2

/-- Every event. -/
def Ev.all : List Ev := [
  .reservedBits, .accessRefused, .valueRefused, .linkUp, .linkDown, .readTimeout, .readRefused, .readPoisoned, .ideTxHeld, .ideKmPlain,
  .instanceState, .inboundUnknown, .relayDiscarded, .commitRefused, .commandRefused, .commandFailed, .completionDiscarded, .ringFault, .ringRefused, .doorbellFailed,
  .epochLate, .epochAdopted, .timeRegressed, .clockSet, .periodClosed, .startUp, .earlyRelease, .dramFail, .haltRecovered, .slotFailed,
  .trialReverted, .settingsFallback, .settingsFactory, .settingsValue, .settingsStored, .counterRecovered, .firmwareStaged, .rangeRefused, .quarantineCleared, .entropyFail,
  .entropyBack, .keyLost, .logLost, .railOut, .siteExcluded, .dieWarm, .dieCritical, .laserCurrent, .monitorEntered, .monitorUnlocked,
  .queueWaiting, .dieExcluded, .dieFailed, .blockRetired, .unitLost, .unitRebuilt, .leafRepaired, .lineRetried, .unitRepaired, .storeFormatted,
  .storeFormatRevoked, .storeUnmountable, .hregRefused, .spaceTimeout, .wayDisabled, .parityFault, .axisOpened, .gateClosed, .clampStep, .acquireFailed,
  .seekFailed, .sourceFault, .spinIgnored, .rotorAligned, .rotorLost, .rotorLocked, .brakeTimeout, .spindleFault, .sledRefused, .stepsLost,
  .sledFault, .alarmRose, .opcFailed, .setFull, .foreignSet, .setLoadFailed, .stripeLost, .segmentHeld, .blockRebuilt, .linkUnchecked,
  .driveAbsent, .calFailed, .converterDrift, .converterFault, .thermSuspect, .clockUnqualified, .clockFault, .clockDrift, .clockUnresolved, .overload,
  .pinSense, .inputVerdict, .inputCleared, .rangeVerdict, .rangeBack, .monitorRow, .monitorLock, .monitorRefusal, .monitorArmed, .otpCopyFail]

end Sys2Proof.Machine
end

