-- ==== Sys2Proof/Machine/RegMap.lean ====
section
/-!
DEFINITION. The register map of spec/20 (R582, R583): for every register its access masks, its reset word, whether it is
epoch-committed (E), which of its fields the settings store can hold, and the ranges its fields accept. The rows follow the field
tables of the chapters. Keys: a PF BAR2 register is its offset; a BAR0 register of instance f is 0x100_0000 + f × 0x8000 + offset;
an HST register is 0x200_0000 + its configuration-space offset.
-/

namespace Sys2Proof.Machine

/-- A field whose values outside `[lo, hi]` leave the field unchanged. -/
structure FieldRange where
  pos : Nat
  len : Nat
  signed : Bool
  lo : Int
  hi : Int
  deriving DecidableEq, Repr

/-- One register of the map: the bits of each access code of R7, the reset word, the E mark of R584, the storable bits of
Table 16-5, those of them whose reset is "From NVM", whether warm reset keeps it (RWS), and its range checks. -/
structure RegDesc where
  rw : Nat
  rws : Nat
  w1c : Nat
  ro : Nat
  wo : Nat
  reset : Nat
  epoch : Bool
  storable : Nat
  fromNvm : Nat
  sticky : Bool
  checks : List FieldRange
  deriving DecidableEq, Repr

/-- The register rows of the CFG block (offset in the block, descriptor), after the field tables of spec/20 and its chapter. -/
def cfgRows : List (Nat × RegDesc) := [
  (0x000, ⟨0x0, 0x0, 0x0, 0xFFFFFFFF, 0x0, 0x0, false, 0x0, 0x0, false, []⟩),
  (0x004, ⟨0x0, 0x0, 0x0, 0xFFFF, 0x0, 0x0, false, 0x0, 0x0, false, []⟩),
  (0x008, ⟨0x0, 0x0, 0x0, 0xFFFFFFFF, 0x0, 0x0, false, 0x0, 0x0, false, []⟩),
  (0x00C, ⟨0x0, 0x0, 0x0, 0xFFFFFFFF, 0x0, 0x0, false, 0x0, 0x0, false, []⟩),
  (0x100, ⟨0x0, 0x0, 0x60000, 0x1FFFF, 0x0, 0x0, false, 0x0, 0x0, false, []⟩),
  (0x104, ⟨0x0, 0x0, 0x0, 0x0, 0xFFFF, 0x0, false, 0x0, 0x0, false, []⟩),
  (0x108, ⟨0x0, 0x0, 0x0, 0x3FFF, 0x0, 0x3FFF, false, 0x0, 0x0, false, []⟩),
  (0x10C, ⟨0xFFFF, 0x0, 0x0, 0x0, 0x0, 0x3E8, false, 0x0, 0x0, false, [⟨0, 16, false, 1, 65535⟩]⟩)]

/-- The register rows of the CLK block (offset in the block, descriptor), after the field tables of spec/20 and its chapter. -/
def clkRows : List (Nat × RegDesc) := [
  (0x000, ⟨0x0, 0x0, 0x8000, 0x77773, 0x0, 0x40000, false, 0x0, 0x0, false, []⟩),
  (0x004, ⟨0xFFFFFFFF, 0x0, 0x0, 0x0, 0x0, 0x3E8012C, true, 0xFFFFFFFF, 0x0, false, [⟨0, 16, false, 50, 5000⟩, ⟨16, 16, false, 50, 20000⟩]⟩),
  (0x008, ⟨0xFF03FFFF, 0x0, 0x0, 0x0, 0x0, 0x3C030000, true, 0xFF03FFFF, 0x0, false, [⟨0, 16, true, (-5000), 0⟩, ⟨24, 8, false, 1, 255⟩]⟩),
  (0x00C, ⟨0x0, 0x0, 0x0, 0xFFFFFFFF, 0x0, 0x0, false, 0x0, 0x0, false, []⟩),
  (0x010, ⟨0x0, 0x0, 0x0, 0xFFFFFFFF, 0x0, 0x0, false, 0x0, 0x0, false, []⟩),
  (0x014, ⟨0x0, 0x0, 0x0, 0xFFFFFFFF, 0x0, 0x0, false, 0x0, 0x0, false, []⟩),
  (0x018, ⟨0x0, 0x0, 0x0, 0xFFFFFFFF, 0x0, 0x0, false, 0x0, 0x0, false, []⟩),
  (0x01C, ⟨0x0, 0x0, 0x0, 0x0, 0x3, 0x0, false, 0x0, 0x0, false, []⟩),
  (0x030, ⟨0xFFFF0003, 0x0, 0x0, 0x0, 0x0, 0x3E80000, true, 0xFFFF0003, 0x0, false, [⟨16, 16, false, 1, 65535⟩]⟩),
  (0x034, ⟨0xFFF, 0x0, 0x0, 0x0, 0x0, 0xFFF, true, 0xFFF, 0x0, false, []⟩),
  (0x038, ⟨0xFFF, 0x0, 0x0, 0x0, 0x0, 0x601, true, 0xFFF, 0x0, false, []⟩),
  (0x03C, ⟨0xFFF, 0x0, 0x0, 0x0, 0x0, 0x0, true, 0xFFF, 0x0, false, []⟩),
  (0x040, ⟨0x3F1F, 0x0, 0x0, 0x0, 0x0, 0x2D00, true, 0x3F1F, 0x0, false, [⟨0, 5, false, 0, 20⟩, ⟨8, 6, false, 30, 60⟩]⟩),
  (0x044, ⟨0x3F1F, 0x0, 0x0, 0x0, 0x0, 0x2D00, true, 0x3F1F, 0x0, false, [⟨0, 5, false, 0, 20⟩, ⟨8, 6, false, 30, 60⟩]⟩),
  (0x048, ⟨0x3F1F, 0x0, 0x0, 0x0, 0x0, 0x2D00, true, 0x3F1F, 0x0, false, [⟨0, 5, false, 0, 20⟩, ⟨8, 6, false, 30, 60⟩]⟩),
  (0x04C, ⟨0x3, 0x0, 0x0, 0x0, 0x0, 0x0, true, 0x3, 0x0, false, []⟩),
  (0x050, ⟨0x1F031F, 0x0, 0x0, 0x0, 0x0, 0x100000, false, 0x0, 0x0, false, [⟨16, 5, false, 4, 24⟩]⟩),
  (0x054, ⟨0x0, 0x0, 0x0, 0x0, 0x1, 0x0, false, 0x0, 0x0, false, []⟩),
  (0x058, ⟨0x0, 0x0, 0xE, 0x1, 0x0, 0x0, false, 0x0, 0x0, false, []⟩),
  (0x05C, ⟨0x0, 0x0, 0x0, 0xFFFFFFFF, 0x0, 0x0, false, 0x0, 0x0, false, []⟩)]

/-- The register rows of the PWB block (offset in the block, descriptor), after the field tables of spec/20 and its chapter. -/
def pwbRows : List (Nat × RegDesc) := [
  (0x000, ⟨0x0, 0x0, 0x0, 0xF73F, 0x0, 0x400, false, 0x0, 0x0, false, []⟩),
  (0x004, ⟨0x0, 0x0, 0x0, 0x1FFFF, 0x0, 0x0, false, 0x0, 0x0, false, []⟩),
  (0x008, ⟨0x0, 0x0, 0x0, 0x1FFFF, 0x0, 0x0, false, 0x0, 0x0, false, []⟩),
  (0x00C, ⟨0x0, 0x0, 0x0, 0xFFFFFFFF, 0x0, 0x0, false, 0x0, 0x0, false, []⟩),
  (0x010, ⟨0x0, 0x0, 0x0, 0xFFFF, 0x0, 0x0, false, 0x0, 0x0, false, []⟩),
  (0x014, ⟨0x0, 0x0, 0x0, 0xFFFF, 0x0, 0x0, false, 0x0, 0x0, false, []⟩),
  (0x018, ⟨0x0, 0x0, 0x0, 0xFFFF, 0x0, 0x0, false, 0x0, 0x0, false, []⟩),
  (0x01C, ⟨0x0, 0x0, 0x0, 0xFFFF, 0x0, 0x0, false, 0x0, 0x0, false, []⟩),
  (0x020, ⟨0x7F03FF, 0x0, 0x0, 0x0, 0x0, 0x500028, true, 0x7F03FF, 0x0, false, [⟨0, 10, false, 0, 512⟩, ⟨16, 7, false, 25, 100⟩]⟩),
  (0x024, ⟨0xFFFF, 0x0, 0x0, 0x0, 0x0, 0x0, true, 0xFFFF, 0xFFFF, false, []⟩),
  (0x028, ⟨0x1FFFF, 0x0, 0x0, 0x0, 0x0, 0xC350, true, 0x1FFFF, 0x0, false, [⟨0, 17, false, 30000, 60000⟩]⟩),
  (0x02C, ⟨0xFFFF, 0x0, 0x0, 0x0, 0x0, 0x2EE0, true, 0xFFFF, 0x0, false, []⟩),
  (0x030, ⟨0x1FFFF, 0x0, 0x0, 0x0, 0x0, 0x4E20, true, 0x1FFFF, 0x0, false, [⟨0, 17, false, 1000, 100000⟩]⟩),
  (0x034, ⟨0x1FFFF, 0x0, 0x0, 0x0, 0x0, 0x0, true, 0x1FFFF, 0x0, false, []⟩),
  (0x038, ⟨0xFFFFFFFF, 0x0, 0x0, 0x0, 0x0, 0x1F42328, true, 0xFFFFFFFF, 0x0, false, []⟩),
  (0x03C, ⟨0xFFFFFFFF, 0x0, 0x0, 0x0, 0x0, 0x3E807D0, true, 0xFFFFFFFF, 0x0, false, []⟩),
  (0x040, ⟨0x1FFFF, 0x0, 0x0, 0x0, 0x0, 0x0, true, 0x1FFFF, 0x1FFFF, false, []⟩),
  (0x044, ⟨0xFFFF, 0x0, 0x0, 0x0, 0x0, 0x0, true, 0xFFFF, 0xFFFF, false, []⟩),
  (0x048, ⟨0x0, 0x0, 0x0, 0xFFFFFFFF, 0x0, 0x0, false, 0x0, 0x0, false, []⟩)]

/-- The register rows of the STL block (offset in the block, descriptor), after the field tables of spec/20 and its chapter. -/
def stlRows : List (Nat × RegDesc) := [
  (0x000, ⟨0x0, 0x0, 0x0, 0xFFFFFFFF, 0x0, 0xFFFF0000, false, 0x0, 0x0, false, []⟩),
  (0x004, ⟨0x0, 0x0, 0x0, 0xFFFF, 0x0, 0x0, false, 0x0, 0x0, false, []⟩),
  (0x008, ⟨0x0, 0x0, 0x0, 0xFFFF, 0x0, 0x0, false, 0x0, 0x0, false, []⟩),
  (0x00C, ⟨0x0, 0x0, 0x0, 0xFFFF, 0x0, 0x0, false, 0x0, 0x0, false, []⟩),
  (0x010, ⟨0x0, 0x0, 0x0, 0xFFFF, 0x0, 0x0, false, 0x0, 0x0, false, []⟩),
  (0x014, ⟨0x0, 0x0, 0x0, 0xFFFFFFFF, 0x0, 0xFFFF0000, false, 0x0, 0x0, false, []⟩),
  (0x018, ⟨0x0, 0x0, 0x0, 0xFFFF000F, 0x0, 0x0, false, 0x0, 0x0, false, []⟩),
  (0x01C, ⟨0xFF1FFFFF, 0x0, 0x0, 0x0, 0x0, 0xA10026C, true, 0xFF1FFFFF, 0x0, false, [⟨0, 10, false, 600, 700⟩, ⟨10, 11, false, 512, 2047⟩, ⟨24, 8, false, 1, 255⟩]⟩),
  (0x020, ⟨0x0, 0x0, 0x0, 0xFFFFFFFF, 0x0, 0xFFFF0000, false, 0x0, 0x0, false, []⟩),
  (0x024, ⟨0x0, 0x0, 0x0, 0xFFFFFFFF, 0x0, 0xFFFF0000, false, 0x0, 0x0, false, []⟩),
  (0x028, ⟨0x0, 0x0, 0x0, 0xFFFFFFFF, 0x0, 0xFFFF0000, false, 0x0, 0x0, false, []⟩),
  (0x02C, ⟨0x0, 0x0, 0x0, 0xFFFFFFFF, 0x0, 0xFFFF0000, false, 0x0, 0x0, false, []⟩),
  (0x030, ⟨0x0, 0x0, 0x0, 0xFFFFFFFF, 0x0, 0xFFFF0000, false, 0x0, 0x0, false, []⟩),
  (0x034, ⟨0x0, 0x0, 0x0, 0xFFFFFFFF, 0x0, 0xFFFF0000, false, 0x0, 0x0, false, []⟩),
  (0x038, ⟨0x0, 0x0, 0x0, 0xFFFFFFFF, 0x0, 0xFFFF0000, false, 0x0, 0x0, false, []⟩),
  (0x03C, ⟨0x0, 0x0, 0x0, 0xFFFFFFFF, 0x0, 0xFFFF0000, false, 0x0, 0x0, false, []⟩),
  (0x040, ⟨0x0, 0x0, 0x0, 0x0, 0x1, 0x0, false, 0x0, 0x0, false, []⟩)]

/-- The register rows of the HLT block (offset in the block, descriptor), after the field tables of spec/20 and its chapter. -/
def hltRows : List (Nat × RegDesc) := [
  (0x000, ⟨0x0, 0x0, 0x0, 0x30F, 0x0, 0x0, false, 0x0, 0x0, false, []⟩),
  (0x004, ⟨0x0, 0x0, 0x0, 0xF0F, 0x0, 0x0, false, 0x0, 0x0, false, []⟩),
  (0x008, ⟨0x0, 0x0, 0x0, 0xFFFFFFFF, 0x0, 0x0, false, 0x0, 0x0, false, []⟩),
  (0x010, ⟨0x0, 0x0, 0x0, 0xFFFF, 0x0, 0x0, false, 0x0, 0x0, false, []⟩),
  (0x014, ⟨0x0, 0x0, 0x0, 0xFF7FFFFF, 0x0, 0x0, false, 0x0, 0x0, false, []⟩),
  (0x018, ⟨0x0, 0x0, 0x0, 0x0, 0x1, 0x0, false, 0x0, 0x0, false, []⟩),
  (0x020, ⟨0x0, 0x0, 0x0, 0x7F, 0x0, 0x7F, false, 0x0, 0x0, false, []⟩),
  (0x024, ⟨0x0, 0x0, 0x0, 0xFFFF0000, 0xFFFF, 0x0, false, 0x0, 0x0, false, []⟩),
  (0x040, ⟨0xF, 0x0, 0x0, 0x0, 0x0, 0x0, false, 0x0, 0x0, false, []⟩),
  (0x044, ⟨0x0, 0x0, 0x0, 0x1F, 0x0, 0x0, false, 0x0, 0x0, false, []⟩),
  (0x048, ⟨0x0, 0x0, 0x0, 0xFFFFFFFF, 0x0, 0x0, false, 0x0, 0x0, false, []⟩),
  (0x04C, ⟨0x0, 0x0, 0x0, 0xFFFFFFFF, 0x0, 0x0, false, 0x0, 0x0, false, []⟩),
  (0x050, ⟨0x0, 0x0, 0x0, 0xFFFFFFFF, 0x0, 0x0, false, 0x0, 0x0, false, []⟩),
  (0x054, ⟨0x0, 0x0, 0x0, 0xFFFFFFFF, 0x0, 0x0, false, 0x0, 0x0, false, []⟩),
  (0x058, ⟨0x0, 0x0, 0x0, 0xFFFFFFFF, 0x0, 0x0, false, 0x0, 0x0, false, []⟩),
  (0x05C, ⟨0x0, 0x0, 0x0, 0xFFFFFFFF, 0x0, 0x0, false, 0x0, 0x0, false, []⟩),
  (0x060, ⟨0x0, 0x0, 0x0, 0xFFFFFFFF, 0x0, 0x0, false, 0x0, 0x0, false, []⟩),
  (0x064, ⟨0x0, 0x0, 0x0, 0xFFFFFFFF, 0x0, 0x0, false, 0x0, 0x0, false, []⟩),
  (0x068, ⟨0x0, 0x0, 0x0, 0xFFFFFFFF, 0x0, 0x0, false, 0x0, 0x0, false, []⟩),
  (0x06C, ⟨0x0, 0x0, 0x0, 0xFFFFFFFF, 0x0, 0x0, false, 0x0, 0x0, false, []⟩),
  (0x070, ⟨0x0, 0x0, 0x0, 0xFFFFFFFF, 0x0, 0x0, false, 0x0, 0x0, false, []⟩),
  (0x074, ⟨0x0, 0x0, 0x0, 0xFFFFFFFF, 0x0, 0x0, false, 0x0, 0x0, false, []⟩)]

/-- The register rows of the SEA block (offset in the block, descriptor), after the field tables of spec/20 and its chapter. -/
def seaRows : List (Nat × RegDesc) := [
  (0x000, ⟨0x0, 0x0, 0x0, 0x7FF, 0x0, 0x0, false, 0x0, 0x0, false, []⟩),
  (0x004, ⟨0x0, 0x0, 0x0, 0xFFFF, 0x0, 0x0, false, 0x0, 0x0, false, []⟩),
  (0x008, ⟨0x0, 0x0, 0x0, 0xFFFF, 0x0, 0x0, false, 0x0, 0x0, false, []⟩),
  (0x00C, ⟨0x0, 0x0, 0x0, 0xFFFF, 0x0, 0x0, false, 0x0, 0x0, false, []⟩),
  (0x010, ⟨0x0, 0x0, 0x0, 0xFFFF, 0x0, 0x0, false, 0x0, 0x0, false, []⟩),
  (0x020, ⟨0x0, 0x0, 0x0, 0xFFFFFFFF, 0x0, 0x0, false, 0x0, 0x0, false, []⟩),
  (0x024, ⟨0x0, 0x0, 0x0, 0xFFFFFFFF, 0x0, 0x0, false, 0x0, 0x0, false, []⟩),
  (0x030, ⟨0x0, 0x0, 0x0, 0x7FFFF, 0x0, 0x0, false, 0x0, 0x0, false, []⟩),
  (0x034, ⟨0x0, 0x0, 0x0, 0xFFFFFFFF, 0x0, 0x0, false, 0x0, 0x0, false, []⟩),
  (0x038, ⟨0x0, 0x0, 0x0, 0xFFFFFFFF, 0x0, 0x0, false, 0x0, 0x0, false, []⟩),
  (0x040, ⟨0x0, 0xFFFFFFF, 0x0, 0x0, 0x0, 0x0, false, 0x0, 0x0, true, []⟩),
  (0x050, ⟨0x0, 0xFFFFFFF, 0x0, 0x0, 0x0, 0x0, false, 0x0, 0x0, true, []⟩),
  (0x060, ⟨0x0, 0xFFFFFFF, 0x0, 0x0, 0x0, 0x0, false, 0x0, 0x0, true, []⟩),
  (0x070, ⟨0x0, 0xFFFFFFF, 0x0, 0x0, 0x0, 0x0, false, 0x0, 0x0, true, []⟩),
  (0x080, ⟨0x0, 0xFFFFFFF, 0x0, 0x0, 0x0, 0x0, false, 0x0, 0x0, true, []⟩),
  (0x090, ⟨0x0, 0xFFFFFFF, 0x0, 0x0, 0x0, 0x0, false, 0x0, 0x0, true, []⟩),
  (0x0A0, ⟨0x0, 0xFFFFFFF, 0x0, 0x0, 0x0, 0x0, false, 0x0, 0x0, true, []⟩),
  (0x0B0, ⟨0x0, 0xFFFFFFF, 0x0, 0x0, 0x0, 0x0, false, 0x0, 0x0, true, []⟩),
  (0x044, ⟨0x0, 0xFFFFFFF, 0x0, 0x0, 0x0, 0x0, false, 0x0, 0x0, true, []⟩),
  (0x054, ⟨0x0, 0xFFFFFFF, 0x0, 0x0, 0x0, 0x0, false, 0x0, 0x0, true, []⟩),
  (0x064, ⟨0x0, 0xFFFFFFF, 0x0, 0x0, 0x0, 0x0, false, 0x0, 0x0, true, []⟩),
  (0x074, ⟨0x0, 0xFFFFFFF, 0x0, 0x0, 0x0, 0x0, false, 0x0, 0x0, true, []⟩),
  (0x084, ⟨0x0, 0xFFFFFFF, 0x0, 0x0, 0x0, 0x0, false, 0x0, 0x0, true, []⟩),
  (0x094, ⟨0x0, 0xFFFFFFF, 0x0, 0x0, 0x0, 0x0, false, 0x0, 0x0, true, []⟩),
  (0x0A4, ⟨0x0, 0xFFFFFFF, 0x0, 0x0, 0x0, 0x0, false, 0x0, 0x0, true, []⟩),
  (0x0B4, ⟨0x0, 0xFFFFFFF, 0x0, 0x0, 0x0, 0x0, false, 0x0, 0x0, true, []⟩),
  (0x048, ⟨0x0, 0x1F3, 0x0, 0x0, 0x0, 0x0, false, 0x0, 0x0, true, []⟩),
  (0x058, ⟨0x0, 0x1F3, 0x0, 0x0, 0x0, 0x0, false, 0x0, 0x0, true, []⟩),
  (0x068, ⟨0x0, 0x1F3, 0x0, 0x0, 0x0, 0x0, false, 0x0, 0x0, true, []⟩),
  (0x078, ⟨0x0, 0x1F3, 0x0, 0x0, 0x0, 0x0, false, 0x0, 0x0, true, []⟩),
  (0x088, ⟨0x0, 0x1F3, 0x0, 0x0, 0x0, 0x0, false, 0x0, 0x0, true, []⟩),
  (0x098, ⟨0x0, 0x1F3, 0x0, 0x0, 0x0, 0x0, false, 0x0, 0x0, true, []⟩),
  (0x0A8, ⟨0x0, 0x1F3, 0x0, 0x0, 0x0, 0x0, false, 0x0, 0x0, true, []⟩),
  (0x0B8, ⟨0x0, 0x1F3, 0x0, 0x0, 0x0, 0x0, false, 0x0, 0x0, true, []⟩),
  (0x100, ⟨0xFF, 0x0, 0x0, 0x0, 0x0, 0x0, true, 0xFF, 0x0, false, []⟩),
  (0x104, ⟨0x0, 0x0, 0x0, 0x7F, 0x0, 0x0, false, 0x0, 0x0, false, []⟩),
  (0x108, ⟨0x0, 0x0, 0x0, 0x0, 0x1, 0x0, false, 0x0, 0x0, false, []⟩),
  (0x10C, ⟨0x0, 0x0, 0x0, 0x101FF, 0x0, 0x0, false, 0x0, 0x0, false, []⟩)]

/-- The register rows of the FSS block (offset in the block, descriptor), after the field tables of spec/20 and its chapter. -/
def fssRows : List (Nat × RegDesc) := [
  (0x000, ⟨0x0, 0x0, 0x0, 0x3F, 0x0, 0x0, false, 0x0, 0x0, false, []⟩),
  (0x004, ⟨0x0, 0x0, 0x0, 0x1FFF001F, 0x0, 0x0, false, 0x0, 0x0, false, []⟩),
  (0x008, ⟨0x0, 0x0, 0x0, 0xFFFFFFFF, 0x0, 0x0, false, 0x0, 0x0, false, []⟩),
  (0x00C, ⟨0x0, 0x0, 0x0, 0xFFFFFFFF, 0x0, 0x0, false, 0x0, 0x0, false, []⟩),
  (0x010, ⟨0x0, 0x0, 0x0, 0xFFFFFFFF, 0x0, 0x0, false, 0x0, 0x0, false, []⟩),
  (0x014, ⟨0x0, 0x0, 0x0, 0xFFF03FF, 0x0, 0x0, false, 0xFFF03FF, 0xFFF03FF, false, []⟩),
  (0x018, ⟨0xFFFFFFFF, 0x0, 0x0, 0x0, 0x0, 0x12C01F4, true, 0xFFFFFFFF, 0x0, false, [⟨0, 16, false, 100, 5000⟩, ⟨16, 16, false, 10, 65535⟩]⟩),
  (0x01C, ⟨0xFF, 0x0, 0x0, 0x0, 0x0, 0x1E, true, 0xFF, 0x0, false, [⟨0, 8, false, 5, 255⟩]⟩),
  (0x020, ⟨0xFFF, 0x0, 0x0, 0x0, 0x0, 0x100, true, 0xFFF, 0x0, false, [⟨0, 12, false, 16, 2048⟩]⟩),
  (0x030, ⟨0xFFF00000, 0x0, 0x0, 0x0, 0x0, 0x0, false, 0x0, 0x0, false, []⟩),
  (0x034, ⟨0xFFFFFFFF, 0x0, 0x0, 0x0, 0x0, 0x0, false, 0x0, 0x0, false, []⟩),
  (0x038, ⟨0x7F, 0x0, 0x0, 0x0, 0x0, 0x0, false, 0x0, 0x0, false, []⟩),
  (0x03C, ⟨0x1, 0x0, 0x4, 0x2, 0x0, 0x0, false, 0x0, 0x0, false, []⟩),
  (0x040, ⟨0x0, 0x0, 0x0, 0xFFFFFFFF, 0x0, 0x0, false, 0x0, 0x0, false, []⟩),
  (0x044, ⟨0x0, 0x0, 0x0, 0xFFFFFFFF, 0x0, 0x0, false, 0x0, 0x0, false, []⟩),
  (0x048, ⟨0x0, 0x0, 0x0, 0xFFFFFFFF, 0x0, 0x0, false, 0x0, 0x0, false, []⟩),
  (0x04C, ⟨0x0, 0x0, 0x0, 0xFFFFFFFF, 0x0, 0x0, false, 0x0, 0x0, false, []⟩),
  (0x050, ⟨0x0, 0x0, 0x0, 0xFFFFFFFF, 0x0, 0x0, false, 0x0, 0x0, false, []⟩),
  (0x054, ⟨0x0, 0x0, 0x0, 0xFFFF, 0x0, 0x0, false, 0x0, 0x0, false, []⟩)]

/-- The register rows of the MCH block (offset in the block, descriptor), after the field tables of spec/20 and its chapter. -/
def mchRows : List (Nat × RegDesc) := [
  (0x000, ⟨0x0, 0x3, 0x0, 0x0, 0x0, 0x2, false, 0x0, 0x0, true, []⟩),
  (0x004, ⟨0x0, 0x0, 0x0, 0x7, 0x0, 0x0, false, 0x0, 0x0, false, []⟩),
  (0x008, ⟨0x0, 0x0, 0x0, 0x3FFF3FFF, 0x0, 0x0, false, 0x0, 0x0, false, []⟩),
  (0x010, ⟨0xFFFFFFC0, 0x0, 0x0, 0x0, 0x0, 0x0, false, 0x0, 0x0, false, []⟩),
  (0x014, ⟨0x1FFFF, 0x0, 0x0, 0x0, 0x0, 0x1, false, 0x0, 0x0, false, []⟩),
  (0x018, ⟨0x10703FF, 0x0, 0x0, 0x0, 0x0, 0x0, false, 0x0, 0x0, false, []⟩),
  (0x01C, ⟨0x0, 0x0, 0x0, 0x0, 0x113, 0x0, false, 0x0, 0x0, false, []⟩),
  (0x020, ⟨0x0, 0x0, 0xE, 0xFFFF0001, 0x0, 0x0, false, 0x0, 0x0, false, []⟩),
  (0x024, ⟨0x0, 0x0, 0xF, 0x0, 0x0, 0x0, false, 0x0, 0x0, false, []⟩),
  (0x028, ⟨0xF, 0x0, 0x0, 0x0, 0x0, 0x0, false, 0x0, 0x0, false, []⟩),
  (0x030, ⟨0xFFFF00FF, 0x0, 0x0, 0x0, 0x0, 0x3C0004, true, 0xFFFF00FF, 0x0, false, [⟨0, 8, false, 1, 255⟩, ⟨16, 16, false, 1, 65535⟩]⟩),
  (0x034, ⟨0x0, 0x0, 0x0, 0xFFFF, 0x0, 0x0, false, 0x0, 0x0, false, []⟩),
  (0x038, ⟨0x0, 0x0, 0x0, 0x0, 0xFF, 0x0, false, 0x0, 0x0, false, []⟩),
  (0x040, ⟨0x0, 0x0, 0x0, 0xFFFFFFFF, 0x0, 0x0, false, 0x0, 0x0, false, []⟩),
  (0x044, ⟨0x0, 0x0, 0x0, 0xFFFFFFFF, 0x0, 0x0, false, 0x0, 0x0, false, []⟩),
  (0x048, ⟨0x0, 0x0, 0x0, 0xFFFFFFFF, 0x0, 0x0, false, 0x0, 0x0, false, []⟩),
  (0x04C, ⟨0x0, 0x0, 0x0, 0xFFFFFFFF, 0x0, 0x0, false, 0x0, 0x0, false, []⟩),
  (0x050, ⟨0x0, 0x0, 0x0, 0xFFFFFFFF, 0x0, 0x0, false, 0x0, 0x0, false, []⟩),
  (0x054, ⟨0x0, 0x0, 0x0, 0xFFFFFFFF, 0x0, 0x0, false, 0x0, 0x0, false, []⟩),
  (0x058, ⟨0x0, 0x0, 0x0, 0xFFFFFFFF, 0x0, 0x0, false, 0x0, 0x0, false, []⟩),
  (0x05C, ⟨0x0, 0x0, 0x0, 0xFFFFFFFF, 0x0, 0x0, false, 0x0, 0x0, false, []⟩),
  (0x060, ⟨0x0, 0x0, 0x0, 0xFFFFFFFF, 0x0, 0x0, false, 0x0, 0x0, false, []⟩),
  (0x064, ⟨0x0, 0x0, 0x0, 0xFFFFFFFF, 0x0, 0x0, false, 0x0, 0x0, false, []⟩)]

/-- The register rows of the ARC block (offset in the block, descriptor), after the field tables of spec/20 and its chapter. -/
def arcRows : List (Nat × RegDesc) := [
  (0x000, ⟨0x0, 0x0, 0x0, 0x3F037F, 0x0, 0x0, false, 0x0, 0x0, false, []⟩),
  (0x004, ⟨0x0, 0x0, 0x0, 0xFFFFFFFF, 0x0, 0x0, false, 0x0, 0x0, false, []⟩),
  (0x008, ⟨0x0, 0x0, 0x0, 0xFFFFFFFF, 0x0, 0x0, false, 0x0, 0x0, false, []⟩),
  (0x00C, ⟨0x0, 0x0, 0x0, 0xFFFF, 0x0, 0x7777, false, 0x0, 0x0, false, []⟩),
  (0x010, ⟨0x0, 0x0, 0x0, 0x1FFFFF, 0x0, 0x0, false, 0x0, 0x0, false, []⟩),
  (0x014, ⟨0x0, 0x0, 0x0, 0x1FFFFF, 0x0, 0x0, false, 0x0, 0x0, false, []⟩),
  (0x018, ⟨0x0, 0x0, 0x0, 0xFFFF, 0x0, 0x0, false, 0x0, 0x0, false, []⟩),
  (0x020, ⟨0xFFFF0001, 0x0, 0x0, 0x0, 0x0, 0x7D00000, true, 0xFFFF0001, 0x0, false, [⟨16, 16, false, 1, 65535⟩]⟩),
  (0x024, ⟨0xFFFF, 0x0, 0x0, 0x0, 0x0, 0x3C, true, 0xFFFF, 0x0, false, [⟨0, 16, false, 1, 65535⟩]⟩),
  (0x030, ⟨0x0, 0x0, 0x0, 0xFFFFFFFF, 0x0, 0x0, false, 0x0, 0x0, false, []⟩),
  (0x034, ⟨0x0, 0x0, 0x0, 0xFFFFFFFF, 0x0, 0x0, false, 0x0, 0x0, false, []⟩),
  (0x038, ⟨0x0, 0x0, 0x0, 0x1FFFF, 0x0, 0x0, false, 0x0, 0x0, false, []⟩)]

/-- The register rows of the RDC block (offset in the block, descriptor), after the field tables of spec/20 and its chapter. -/
def rdcRows : List (Nat × RegDesc) := [
  (0x000, ⟨0x0, 0x0, 0x0, 0xF, 0x0, 0x0, false, 0x0, 0x0, false, []⟩),
  (0x004, ⟨0x0, 0x0, 0x0, 0x3FFFF, 0x0, 0x0, false, 0x0, 0x0, false, []⟩),
  (0x010, ⟨0xFFF0FFF, 0x0, 0x0, 0x0, 0x0, 0xFC00000, true, 0xFFF0FFF, 0x0, false, []⟩),
  (0x014, ⟨0xFFF0FFF, 0x0, 0x0, 0x0, 0x0, 0xF800F80, true, 0xFFF0FFF, 0x0, false, []⟩),
  (0x018, ⟨0xFFF0FFF, 0x0, 0x0, 0x0, 0x0, 0x800000, true, 0xFFF0FFF, 0x0, false, []⟩),
  (0x01C, ⟨0xFFF0FFF, 0x0, 0x0, 0x0, 0x0, 0x400080, true, 0xFFF0FFF, 0x0, false, []⟩),
  (0x020, ⟨0xFFF, 0x0, 0x0, 0x0, 0x0, 0x0, true, 0xFFF, 0x0, false, []⟩),
  (0x024, ⟨0x1FFFFFF, 0x0, 0x0, 0x0, 0x0, 0x40285A, true, 0x1FFFFFF, 0x0, false, [⟨0, 4, false, 6, 14⟩, ⟨4, 4, false, 2, 8⟩, ⟨8, 4, false, 1, 15⟩, ⟨12, 4, false, 1, 8⟩, ⟨16, 9, false, 1, 511⟩]⟩),
  (0x028, ⟨0x0, 0x0, 0x0, 0x3FF03FF, 0x0, 0x0, false, 0x0, 0x0, false, []⟩),
  (0x02C, ⟨0x1FF, 0x0, 0x0, 0x0, 0x0, 0x118, true, 0x1FF, 0x0, false, []⟩),
  (0x030, ⟨0x3, 0x0, 0x0, 0x0, 0x0, 0x3, true, 0x3, 0x0, false, []⟩),
  (0x034, ⟨0xFF1F3FFF, 0x0, 0x0, 0x0, 0x0, 0x100A0411, true, 0xFF1F3FFF, 0x0, false, [⟨16, 5, false, 0, 16⟩]⟩),
  (0x040, ⟨0x0, 0x0, 0x0, 0xFFFFFFFF, 0x0, 0x0, false, 0x0, 0x0, false, []⟩),
  (0x044, ⟨0x0, 0x0, 0x0, 0xFFFFFFFF, 0x0, 0x0, false, 0x0, 0x0, false, []⟩),
  (0x048, ⟨0x0, 0x0, 0x0, 0xFFFFFFFF, 0x0, 0x0, false, 0x0, 0x0, false, []⟩),
  (0x04C, ⟨0x0, 0x0, 0x0, 0xFFFFFFFF, 0x0, 0x0, false, 0x0, 0x0, false, []⟩),
  (0x050, ⟨0x0, 0x0, 0x0, 0xFFFF, 0x0, 0x0, false, 0x0, 0x0, false, []⟩)]

/-- The register rows of the WST block (offset in the block, descriptor), after the field tables of spec/20 and its chapter. -/
def wstRows : List (Nat × RegDesc) := [
  (0x000, ⟨0x0, 0x0, 0x8, 0x37, 0x0, 0x0, false, 0x0, 0x0, false, []⟩),
  (0x004, ⟨0x0, 0x0, 0x0, 0x0, 0x1, 0x0, false, 0x0, 0x0, false, []⟩),
  (0x010, ⟨0x7F7F7F, 0x0, 0x0, 0x0, 0x0, 0x0, true, 0x7F7F7F, 0x7F7F7F, false, []⟩),
  (0x014, ⟨0x7F7F7F, 0x0, 0x0, 0x0, 0x0, 0x0, true, 0x7F7F7F, 0x7F7F7F, false, []⟩),
  (0x018, ⟨0x7F7F7F, 0x0, 0x0, 0x0, 0x0, 0x0, true, 0x7F7F7F, 0x7F7F7F, false, []⟩),
  (0x01C, ⟨0x7F7F7F, 0x0, 0x0, 0x0, 0x0, 0x0, true, 0x7F7F7F, 0x7F7F7F, false, []⟩),
  (0x020, ⟨0x7F7F7F7F, 0x0, 0x0, 0x0, 0x0, 0x0, true, 0x7F7F7F7F, 0x7F7F7F7F, false, [⟨0, 7, false, 0, 64⟩, ⟨8, 7, false, 0, 64⟩, ⟨24, 7, false, 0, 64⟩]⟩),
  (0x024, ⟨0x7F7F7F7F, 0x0, 0x0, 0x0, 0x0, 0x0, true, 0x7F7F7F7F, 0x7F7F7F7F, false, [⟨0, 7, false, 0, 64⟩, ⟨8, 7, false, 0, 64⟩, ⟨24, 7, false, 0, 64⟩]⟩),
  (0x028, ⟨0x7F7F7F7F, 0x0, 0x0, 0x0, 0x0, 0x0, true, 0x7F7F7F7F, 0x7F7F7F7F, false, [⟨0, 7, false, 0, 64⟩, ⟨8, 7, false, 0, 64⟩, ⟨24, 7, false, 0, 64⟩]⟩),
  (0x02C, ⟨0x7F7F7F7F, 0x0, 0x0, 0x0, 0x0, 0x0, true, 0x7F7F7F7F, 0x7F7F7F7F, false, [⟨0, 7, false, 0, 64⟩, ⟨8, 7, false, 0, 64⟩, ⟨24, 7, false, 0, 64⟩]⟩),
  (0x040, ⟨0xFF1FFFFF, 0x0, 0x0, 0x0, 0x0, 0xEC100028, true, 0xFF1FFFFF, 0x0, false, [⟨10, 11, false, 900, 1150⟩]⟩),
  (0x048, ⟨0x0, 0x0, 0x0, 0xFFFFFFFF, 0x0, 0x0, false, 0x0, 0x0, false, []⟩),
  (0x04C, ⟨0x0, 0x0, 0x0, 0xFFFFFFFF, 0x0, 0x0, false, 0x0, 0x0, false, []⟩),
  (0x050, ⟨0x0, 0x0, 0x0, 0xFFFF, 0x0, 0x0, false, 0x0, 0x0, false, []⟩),
  (0x060, ⟨0x7F7F7F7F, 0x0, 0x0, 0x0, 0x0, 0x0, true, 0x7F7F7F7F, 0x7F7F7F7F, false, []⟩)]

/-- The register rows of the SRV block, part 1 (offset in the block, descriptor), after the field tables of spec/20 and its chapter. -/
def srvRows1 : List (Nat × RegDesc) := [
  (0x000, ⟨0x0, 0x0, 0x0, 0xFFFF03FF, 0x0, 0x0, false, 0x0, 0x0, false, []⟩),
  (0x004, ⟨0x0, 0x0, 0x0, 0x0, 0x107, 0x0, false, 0x0, 0x0, false, []⟩),
  (0x008, ⟨0xFFFFFFFF, 0x0, 0x0, 0x0, 0x0, 0x0, true, 0xFFFFFFFF, 0x0, false, [⟨16, 16, false, 1, 65535⟩]⟩),
  (0x00C, ⟨0x1FFFFF07, 0x0, 0x0, 0x0, 0x0, 0x10024007, true, 0x1FFFFF07, 0x0, false, [⟨8, 8, false, 1, 255⟩, ⟨16, 4, false, 1, 15⟩, ⟨20, 9, false, 0, 256⟩]⟩),
  (0x010, ⟨0xFFFFFFFF, 0x0, 0x0, 0x0, 0x0, 0x0, true, 0xFFFFFFFF, 0xFFFFFFFF, false, [⟨0, 32, true, 1, 2147483647⟩]⟩),
  (0x014, ⟨0xFFFFFFFF, 0x0, 0x0, 0x0, 0x0, 0x0, true, 0xFFFFFFFF, 0xFFFFFFFF, false, []⟩),
  (0x018, ⟨0xFFFFFFFF, 0x0, 0x0, 0x0, 0x0, 0x0, true, 0xFFFFFFFF, 0xFFFFFFFF, false, []⟩),
  (0x01C, ⟨0xFFFFFFFF, 0x0, 0x0, 0x0, 0x0, 0x0, true, 0xFFFFFFFF, 0x0, false, []⟩),
  (0x020, ⟨0x0, 0x0, 0x0, 0xFFFFFFFF, 0x0, 0x0, false, 0x0, 0x0, false, []⟩),
  (0x024, ⟨0x0, 0x0, 0x0, 0xFFFFFFFF, 0x0, 0x0, false, 0x0, 0x0, false, []⟩),
  (0x028, ⟨0x0, 0x0, 0x0, 0xFFFFFFFF, 0x0, 0x0, false, 0x0, 0x0, false, []⟩),
  (0x02C, ⟨0x0, 0x0, 0x0, 0x0, 0x1, 0x0, false, 0x0, 0x0, false, []⟩),
  (0x030, ⟨0xFFFFFFFF, 0x0, 0x0, 0x0, 0x0, 0x0, false, 0x0, 0x0, false, []⟩),
  (0x034, ⟨0xFFFFFFFF, 0x0, 0x0, 0x0, 0x0, 0x0, false, 0x0, 0x0, false, []⟩),
  (0x100, ⟨0xFFFFFFFF, 0x0, 0x0, 0x0, 0x0, 0x0, false, 0xFFFFFFFF, 0xFFFFFFFF, false, []⟩),
  (0x104, ⟨0xFFFFFFFF, 0x0, 0x0, 0x0, 0x0, 0x0, false, 0xFFFFFFFF, 0xFFFFFFFF, false, []⟩),
  (0x108, ⟨0xFFFFFFFF, 0x0, 0x0, 0x0, 0x0, 0x0, false, 0xFFFFFFFF, 0xFFFFFFFF, false, []⟩),
  (0x10C, ⟨0xFFFFFFFF, 0x0, 0x0, 0x0, 0x0, 0x0, false, 0xFFFFFFFF, 0xFFFFFFFF, false, []⟩),
  (0x110, ⟨0xFFFFFFFF, 0x0, 0x0, 0x0, 0x0, 0x0, false, 0xFFFFFFFF, 0xFFFFFFFF, false, []⟩),
  (0x114, ⟨0xFFFFFFFF, 0x0, 0x0, 0x0, 0x0, 0x0, false, 0xFFFFFFFF, 0xFFFFFFFF, false, []⟩),
  (0x118, ⟨0xFFFFFFFF, 0x0, 0x0, 0x0, 0x0, 0x0, false, 0xFFFFFFFF, 0xFFFFFFFF, false, []⟩),
  (0x11C, ⟨0xFFFFFFFF, 0x0, 0x0, 0x0, 0x0, 0x0, false, 0xFFFFFFFF, 0xFFFFFFFF, false, []⟩),
  (0x120, ⟨0xFFFFFFFF, 0x0, 0x0, 0x0, 0x0, 0x0, false, 0xFFFFFFFF, 0xFFFFFFFF, false, []⟩),
  (0x124, ⟨0xFFFFFFFF, 0x0, 0x0, 0x0, 0x0, 0x0, false, 0xFFFFFFFF, 0xFFFFFFFF, false, []⟩),
  (0x128, ⟨0xFFFFFFFF, 0x0, 0x0, 0x0, 0x0, 0x0, false, 0xFFFFFFFF, 0xFFFFFFFF, false, []⟩),
  (0x12C, ⟨0xFFFFFFFF, 0x0, 0x0, 0x0, 0x0, 0x0, false, 0xFFFFFFFF, 0xFFFFFFFF, false, []⟩),
  (0x130, ⟨0xFFFFFFFF, 0x0, 0x0, 0x0, 0x0, 0x0, false, 0xFFFFFFFF, 0xFFFFFFFF, false, []⟩),
  (0x134, ⟨0xF, 0x0, 0x0, 0x0, 0x0, 0x0, false, 0xF, 0xF, false, []⟩),
  (0x138, ⟨0xFFFFFFFF, 0x0, 0x0, 0x0, 0x0, 0x0, false, 0xFFFFFFFF, 0xFFFFFFFF, false, []⟩),
  (0x13C, ⟨0xFFFFFFFF, 0x0, 0x0, 0x0, 0x0, 0x0, false, 0xFFFFFFFF, 0xFFFFFFFF, false, []⟩),
  (0x140, ⟨0xFFFFFFFF, 0x0, 0x0, 0x0, 0x0, 0x0, false, 0xFFFFFFFF, 0xFFFFFFFF, false, []⟩),
  (0x144, ⟨0xFFFFFFFF, 0x0, 0x0, 0x0, 0x0, 0x0, false, 0xFFFFFFFF, 0xFFFFFFFF, false, []⟩),
  (0x148, ⟨0xFFFFFFFF, 0x0, 0x0, 0x0, 0x0, 0x0, false, 0xFFFFFFFF, 0xFFFFFFFF, false, []⟩),
  (0x14C, ⟨0xFFFFFFFF, 0x0, 0x0, 0x0, 0x0, 0x0, false, 0xFFFFFFFF, 0xFFFFFFFF, false, []⟩),
  (0x150, ⟨0xFFFFFFFF, 0x0, 0x0, 0x0, 0x0, 0x0, false, 0xFFFFFFFF, 0xFFFFFFFF, false, []⟩),
  (0x154, ⟨0xFFFFFFFF, 0x0, 0x0, 0x0, 0x0, 0x0, false, 0xFFFFFFFF, 0xFFFFFFFF, false, []⟩),
  (0x158, ⟨0xFFFFFFFF, 0x0, 0x0, 0x0, 0x0, 0x0, false, 0xFFFFFFFF, 0xFFFFFFFF, false, []⟩),
  (0x15C, ⟨0xFFFFFFFF, 0x0, 0x0, 0x0, 0x0, 0x0, false, 0xFFFFFFFF, 0xFFFFFFFF, false, []⟩),
  (0x160, ⟨0xFFFFFFFF, 0x0, 0x0, 0x0, 0x0, 0x0, false, 0xFFFFFFFF, 0xFFFFFFFF, false, []⟩),
  (0x164, ⟨0xFFFFFFFF, 0x0, 0x0, 0x0, 0x0, 0x0, false, 0xFFFFFFFF, 0xFFFFFFFF, false, []⟩)]

/-- The register rows of the SRV block, part 2 (offset in the block, descriptor), after the field tables of spec/20 and its chapter. -/
def srvRows2 : List (Nat × RegDesc) := [
  (0x168, ⟨0xFFFFFFFF, 0x0, 0x0, 0x0, 0x0, 0x0, false, 0xFFFFFFFF, 0xFFFFFFFF, false, []⟩),
  (0x16C, ⟨0xFFFFFFFF, 0x0, 0x0, 0x0, 0x0, 0x0, false, 0xFFFFFFFF, 0xFFFFFFFF, false, []⟩),
  (0x170, ⟨0xFFFFFFFF, 0x0, 0x0, 0x0, 0x0, 0x0, false, 0xFFFFFFFF, 0xFFFFFFFF, false, []⟩),
  (0x174, ⟨0xF, 0x0, 0x0, 0x0, 0x0, 0x0, false, 0xF, 0xF, false, []⟩),
  (0x178, ⟨0xFFFFFFFF, 0x0, 0x0, 0x0, 0x0, 0x0, false, 0xFFFFFFFF, 0xFFFFFFFF, false, []⟩),
  (0x17C, ⟨0xFFFFFFFF, 0x0, 0x0, 0x0, 0x0, 0x0, false, 0xFFFFFFFF, 0xFFFFFFFF, false, []⟩),
  (0x200, ⟨0xFFFF0007, 0x0, 0x0, 0x0, 0x0, 0x3E80000, true, 0xFFFF0007, 0x0, false, [⟨0, 3, false, 0, 4⟩]⟩),
  (0x204, ⟨0xFFFFFFFF, 0x0, 0x0, 0x0, 0x0, 0x0, true, 0xFFFFFFFF, 0xFFFFFFFF, false, []⟩),
  (0x208, ⟨0xFFFFFFFF, 0x0, 0x0, 0x0, 0x0, 0x0, true, 0xFFFFFFFF, 0xFFFFFFFF, false, []⟩),
  (0x20C, ⟨0xFFFFFFFF, 0x0, 0x0, 0x0, 0x0, 0x0, true, 0xFFFFFFFF, 0xFFFFFFFF, false, []⟩),
  (0x210, ⟨0xFFFFFFFF, 0x0, 0x0, 0x0, 0x0, 0x0, true, 0xFFFFFFFF, 0xFFFFFFFF, false, []⟩),
  (0x214, ⟨0xFFFFFFFF, 0x0, 0x0, 0x0, 0x0, 0x0, true, 0xFFFFFFFF, 0xFFFFFFFF, false, []⟩),
  (0x218, ⟨0xFFFFFFFF, 0x0, 0x0, 0x0, 0x0, 0x0, true, 0xFFFFFFFF, 0xFFFFFFFF, false, []⟩),
  (0x21C, ⟨0xFFFFFFFF, 0x0, 0x0, 0x0, 0x0, 0x0, true, 0xFFFFFFFF, 0xFFFFFFFF, false, []⟩),
  (0x220, ⟨0xFFFFFFFF, 0x0, 0x0, 0x0, 0x0, 0x0, true, 0xFFFFFFFF, 0xFFFFFFFF, false, [⟨0, 32, true, 1, 2147483647⟩]⟩),
  (0x224, ⟨0x0, 0x0, 0x0, 0xFFFFFFFF, 0x0, 0x0, false, 0x0, 0x0, false, []⟩)]

/-- All register rows of the SRV block. -/
def srvRows : List (Nat × RegDesc) := srvRows1 ++ srvRows2

/-- Rows of the axis block that only some roles have (Tables 10-10, 10-11). -/
def srvLgRows : List (Nat × RegDesc) := [
  (0x300, ⟨0x0, 0x0, 0x0, 0x3, 0x0, 0x0, false, 0x0, 0x0, false, []⟩),
  (0x304, ⟨0x0, 0x0, 0x0, 0xFFFFFFFF, 0x0, 0x0, false, 0x0, 0x0, false, []⟩),
  (0x310, ⟨0xFFFFFFFF, 0x0, 0x0, 0x0, 0x0, 0x0, true, 0xFFFFFFFF, 0xFFFFFFFF, false, []⟩),
  (0x320, ⟨0xFFFFFFFF, 0x0, 0x0, 0x0, 0x0, 0x0, true, 0xFFFFFFFF, 0xFFFFFFFF, false, []⟩),
  (0x330, ⟨0xFFFFFFFF, 0x0, 0x0, 0x0, 0x0, 0x0, true, 0xFFFFFFFF, 0xFFFFFFFF, false, []⟩),
  (0x314, ⟨0xFFFFFFFF, 0x0, 0x0, 0x0, 0x0, 0x0, true, 0xFFFFFFFF, 0xFFFFFFFF, false, []⟩),
  (0x324, ⟨0xFFFFFFFF, 0x0, 0x0, 0x0, 0x0, 0x0, true, 0xFFFFFFFF, 0xFFFFFFFF, false, []⟩),
  (0x334, ⟨0xFFFFFFFF, 0x0, 0x0, 0x0, 0x0, 0x0, true, 0xFFFFFFFF, 0xFFFFFFFF, false, []⟩),
  (0x318, ⟨0xFFFFFFFF, 0x0, 0x0, 0x0, 0x0, 0x0, true, 0xFFFFFFFF, 0xFFFFFFFF, false, []⟩),
  (0x328, ⟨0xFFFFFFFF, 0x0, 0x0, 0x0, 0x0, 0x0, true, 0xFFFFFFFF, 0xFFFFFFFF, false, []⟩),
  (0x338, ⟨0xFFFFFFFF, 0x0, 0x0, 0x0, 0x0, 0x0, true, 0xFFFFFFFF, 0xFFFFFFFF, false, []⟩),
  (0x31C, ⟨0xFFFFFFFF, 0x0, 0x0, 0x0, 0x0, 0x0, true, 0xFFFFFFFF, 0xFFFFFFFF, false, []⟩),
  (0x32C, ⟨0xFFFFFFFF, 0x0, 0x0, 0x0, 0x0, 0x0, true, 0xFFFFFFFF, 0xFFFFFFFF, false, []⟩),
  (0x33C, ⟨0xFFFFFFFF, 0x0, 0x0, 0x0, 0x0, 0x0, true, 0xFFFFFFFF, 0xFFFFFFFF, false, []⟩)]

/-- Rows of the axis block that only some roles have (Tables 10-10, 10-11). -/
def srvFocRows : List (Nat × RegDesc) := [
  (0x400, ⟨0xFFFFFFF, 0x0, 0x0, 0x0, 0x0, 0x4320000, true, 0xFFFFFFF, 0xFFFF, false, [⟨16, 8, false, 10, 255⟩, ⟨24, 4, false, 1, 15⟩]⟩),
  (0x404, ⟨0xFFFFFF, 0x0, 0x0, 0x0, 0x0, 0x280000, true, 0xFFFFFF, 0xFFFF, false, [⟨16, 8, false, 1, 255⟩]⟩),
  (0x408, ⟨0xFFFF, 0x0, 0x0, 0x0, 0x0, 0x7D0, true, 0xFFFF, 0x0, false, []⟩),
  (0x410, ⟨0xFFFFFFF, 0x0, 0x0, 0x0, 0x0, 0x400200A, true, 0xFFFFFFF, 0x0, false, [⟨0, 4, false, 4, 14⟩]⟩),
  (0x414, ⟨0xFFFF, 0x0, 0x0, 0x0, 0x0, 0x1F4, false, 0x0, 0x0, false, []⟩)]

/-- Rows of the axis block that only some roles have (Tables 10-10, 10-11). -/
def srvTrkRows : List (Nat × RegDesc) := [
  (0x400, ⟨0xFFFFFFFF, 0x0, 0x0, 0x0, 0x0, 0x0, false, 0x0, 0x0, false, []⟩),
  (0x404, ⟨0xFFFFFFF, 0x0, 0x0, 0x0, 0x0, 0xC80000, true, 0xFFFFFFF, 0xFFFF, false, [⟨16, 12, false, 1, 4095⟩]⟩)]

/-- The register rows of the SRVG block (offset in the block, descriptor), after the field tables of spec/20 and its chapter. -/
def srvgRows : List (Nat × RegDesc) := [
  (0xF00, ⟨0x0, 0x0, 0x0, 0xFFFF0001, 0x0, 0x0, false, 0x0, 0x0, false, []⟩),
  (0xF04, ⟨0x1, 0x0, 0x0, 0x0, 0x0, 0x0, true, 0x1, 0x0, false, []⟩),
  (0xF08, ⟨0x0, 0x0, 0x0, 0xFFFFFFFF, 0x0, 0x0, false, 0x0, 0x0, false, []⟩)]

/-- The register rows of the SPN block (offset in the block, descriptor), after the field tables of spec/20 and its chapter. -/
def spnRows : List (Nat × RegDesc) := [
  (0x000, ⟨0x0, 0x0, 0x0, 0xF073F, 0x0, 0x0, false, 0x0, 0x0, false, []⟩),
  (0x004, ⟨0x0, 0x0, 0x0, 0x0, 0x7, 0x0, false, 0x0, 0x0, false, []⟩),
  (0x008, ⟨0xFFFF0001, 0x0, 0x0, 0x0, 0x0, 0x0, true, 0xFFFF0001, 0x0, false, []⟩),
  (0x010, ⟨0xF, 0x0, 0x0, 0x0, 0x0, 0x0, true, 0xF, 0xF, false, [⟨0, 4, false, 1, 12⟩]⟩),
  (0x014, ⟨0xFFFF, 0x0, 0x0, 0x0, 0x0, 0x0, true, 0xFFFF, 0xFFFF, false, []⟩),
  (0x018, ⟨0xFFFFFF, 0x0, 0x0, 0x0, 0x0, 0x140000, true, 0xFFFFFF, 0xFFFF, false, [⟨16, 8, false, 5, 50⟩]⟩),
  (0x01C, ⟨0xFFFF, 0x0, 0x0, 0x0, 0x0, 0x0, true, 0xFFFF, 0xFFFF, false, []⟩),
  (0x020, ⟨0xFFFFFF, 0x0, 0x0, 0x0, 0x0, 0xF81419, true, 0xFFFFFF, 0x0, false, [⟨0, 8, false, 16, 50⟩, ⟨8, 8, false, 5, 100⟩, ⟨16, 8, false, 128, 250⟩]⟩),
  (0x024, ⟨0xFFFF, 0x0, 0x0, 0x0, 0x0, 0x0, true, 0xFFFF, 0xFFFF, false, []⟩),
  (0x030, ⟨0xFF3FFFF, 0x0, 0x0, 0x0, 0x0, 0xA0C828, true, 0xFF3FFFF, 0x0, false, [⟨0, 8, false, 5, 255⟩, ⟨8, 10, false, 20, 1023⟩, ⟨20, 8, false, 1, 100⟩]⟩),
  (0x034, ⟨0xFFFFFFF, 0x0, 0x0, 0x0, 0x0, 0x203E832, true, 0xFFFFFFF, 0x0, false, [⟨0, 8, false, 10, 100⟩, ⟨8, 16, false, 100, 10000⟩]⟩),
  (0x038, ⟨0xFFFF, 0x0, 0x0, 0x0, 0x0, 0x12C, true, 0xFFFF, 0x0, false, [⟨0, 16, false, 100, 2000⟩]⟩),
  (0x03C, ⟨0xFF0F, 0x0, 0x0, 0x0, 0x0, 0x2400, true, 0xFF0F, 0x0, false, [⟨8, 4, false, 1, 7⟩, ⟨12, 4, false, 0, 8⟩]⟩),
  (0x040, ⟨0xFFFF000F, 0x0, 0x0, 0x0, 0x0, 0x4B00002, true, 0xFFFF000F, 0x0, false, [⟨0, 4, false, 1, 15⟩, ⟨16, 16, false, 300, 6000⟩]⟩),
  (0x044, ⟨0xFFF, 0x0, 0x0, 0x0, 0x0, 0x421, true, 0xFFF, 0x0, false, [⟨0, 4, false, 1, 15⟩, ⟨4, 4, false, 1, 15⟩, ⟨8, 4, false, 1, 15⟩]⟩),
  (0x048, ⟨0xFFFFF, 0x0, 0x0, 0x0, 0x0, 0x30000, true, 0xFFFFF, 0xFFFF, false, [⟨16, 4, false, 1, 15⟩]⟩),
  (0x050, ⟨0x0, 0x0, 0x0, 0xFFFFFFFF, 0x0, 0x0, false, 0x0, 0x0, false, []⟩),
  (0x054, ⟨0x0, 0x0, 0x0, 0xFFFF, 0x0, 0x0, false, 0x0, 0x0, false, []⟩),
  (0x058, ⟨0x0, 0x0, 0x0, 0xFFFFFFFF, 0x0, 0x0, false, 0x0, 0x0, false, []⟩),
  (0x05C, ⟨0x0, 0x0, 0x0, 0xFFFFFFFF, 0x0, 0x0, false, 0x0, 0x0, false, []⟩)]

/-- The register rows of the SLD block (offset in the block, descriptor), after the field tables of spec/20 and its chapter. -/
def sldRows : List (Nat × RegDesc) := [
  (0x000, ⟨0x0, 0x0, 0x30, 0x70F, 0x0, 0x0, false, 0x0, 0x0, false, []⟩),
  (0x004, ⟨0x0, 0x0, 0x0, 0x0, 0x7, 0x0, false, 0x0, 0x0, false, []⟩),
  (0x008, ⟨0xFFFFFFFF, 0x0, 0x0, 0x0, 0x0, 0x0, false, 0x0, 0x0, false, []⟩),
  (0x00C, ⟨0x0, 0x0, 0x0, 0xFFFFFFFF, 0x0, 0x0, false, 0x0, 0x0, false, []⟩),
  (0x010, ⟨0x0, 0x0, 0x0, 0xFFFFFFFF, 0x0, 0x0, false, 0x0, 0x0, false, []⟩),
  (0x014, ⟨0x0, 0x0, 0x0, 0xFFFFFFFF, 0x0, 0x0, false, 0x0, 0x0, false, []⟩),
  (0x018, ⟨0x1, 0x0, 0x0, 0x0, 0x0, 0x0, true, 0x1, 0x0, false, []⟩),
  (0x020, ⟨0x3FFFF, 0x0, 0x0, 0x0, 0x0, 0xFA00, true, 0x3FFFF, 0x0, false, [⟨0, 18, false, 640, 131072⟩]⟩),
  (0x024, ⟨0xFFFFFF, 0x0, 0x0, 0x0, 0x0, 0x1E8480, true, 0xFFFFFF, 0x0, false, [⟨0, 24, false, 10000, 8000000⟩]⟩),
  (0x028, ⟨0xFF0FFF, 0x0, 0x0, 0x0, 0x0, 0x50280, true, 0xFF0FFF, 0x0, false, [⟨0, 12, false, 64, 4095⟩]⟩),
  (0x02C, ⟨0xFFFFFFFF, 0x0, 0x0, 0x0, 0x0, 0x0, true, 0xFFFFFFFF, 0xFFFFFFFF, false, []⟩),
  (0x030, ⟨0xFFFFFFFF, 0x0, 0x0, 0x0, 0x0, 0x0, true, 0xFFFFFFFF, 0xFFFFFFFF, false, []⟩),
  (0x040, ⟨0xFFF0FFF, 0x0, 0x0, 0x0, 0x0, 0x0, true, 0xFFF0FFF, 0xFFF0FFF, false, []⟩),
  (0x044, ⟨0xFFFFFFFF, 0x0, 0x0, 0x0, 0x0, 0x3C320000, true, 0xFFFFFFFF, 0xFFFF, false, [⟨24, 8, false, 1, 255⟩]⟩),
  (0x048, ⟨0xFFFF, 0x0, 0x0, 0x0, 0x0, 0x0, true, 0xFFFF, 0xFFFF, false, []⟩),
  (0x04C, ⟨0xFFFF, 0x0, 0x0, 0x0, 0x0, 0xF819, true, 0xFFFF, 0x0, false, [⟨0, 8, false, 16, 50⟩, ⟨8, 8, false, 128, 250⟩]⟩),
  (0x050, ⟨0xFFF, 0x0, 0x0, 0x0, 0x0, 0x0, true, 0xFFF, 0xFFF, false, []⟩),
  (0x060, ⟨0xFFFFF, 0x0, 0x0, 0x0, 0x0, 0x0, true, 0xFFFFF, 0xFFFFF, false, []⟩),
  (0x064, ⟨0xFFFFFF, 0x0, 0x0, 0x0, 0x0, 0x0, true, 0xFFFFFF, 0xFFFFFF, false, []⟩),
  (0x068, ⟨0xFFFFFFFF, 0x0, 0x0, 0x0, 0x0, 0x0, true, 0xFFFFFFFF, 0xFFFFFFFF, false, []⟩),
  (0x06C, ⟨0xFFFFFFFF, 0x0, 0x0, 0x0, 0x0, 0x0, true, 0xFFFFFFFF, 0xFFFFFFFF, false, []⟩),
  (0x070, ⟨0x1FFFF, 0x0, 0x0, 0x0, 0x0, 0x0, true, 0x1FFFF, 0x1FFFF, false, []⟩),
  (0x074, ⟨0x1FFFF, 0x0, 0x0, 0x0, 0x0, 0x0, true, 0x1FFFF, 0x1FFFF, false, []⟩),
  (0x078, ⟨0xFFFFFFF, 0x0, 0x0, 0x0, 0x0, 0x1900, true, 0xFFFFFFF, 0xFFF0000, false, []⟩),
  (0x07C, ⟨0xFFFFFFF, 0x0, 0x0, 0x0, 0x0, 0x43E8040, true, 0xFFFFFFF, 0x0, false, [⟨0, 12, false, 8, 4095⟩, ⟨12, 12, false, 100, 4095⟩, ⟨24, 4, false, 1, 15⟩]⟩)]

/-- The register rows of the CAL block (offset in the block, descriptor), after the field tables of spec/20 and its chapter. -/
def calRows : List (Nat × RegDesc) := [
  (0x000, ⟨0x0, 0x0, 0xF0000, 0xFF03F01, 0x0, 0x0, false, 0x0, 0x0, false, []⟩),
  (0x004, ⟨0x7FF, 0x0, 0x0, 0x0, 0x0, 0x7FF, true, 0x7FF, 0x0, false, []⟩),
  (0x008, ⟨0x0, 0x0, 0x0, 0x0, 0x33F, 0x0, false, 0x0, 0x0, false, []⟩),
  (0x00C, ⟨0xFFFFFFFF, 0x0, 0x0, 0x0, 0x0, 0x1E1E50, true, 0xFFFFFFFF, 0x0, false, [⟨0, 8, false, 16, 255⟩, ⟨8, 8, false, 5, 115⟩, ⟨16, 16, false, 1, 65535⟩]⟩),
  (0x010, ⟨0xFFFFFF, 0x0, 0x0, 0x0, 0x0, 0x783C, true, 0xFFFFFF, 0x0, false, [⟨0, 8, false, 1, 255⟩, ⟨8, 16, false, 10, 65535⟩]⟩),
  (0x014, ⟨0xFFFF, 0x0, 0x0, 0x0, 0x0, 0x0, false, 0x0, 0x0, false, []⟩),
  (0x020, ⟨0xFFFFFFFF, 0x0, 0x0, 0x0, 0x0, 0xBB8, true, 0xFFFFFFFF, 0xFFFF0000, false, [⟨0, 16, false, 200, 20000⟩]⟩),
  (0x024, ⟨0xFFFFFFFF, 0x0, 0x0, 0x0, 0x0, 0x9C4, true, 0xFFFFFFFF, 0xFFFF0000, false, [⟨0, 16, false, 200, 20000⟩]⟩),
  (0x028, ⟨0xFFFF, 0x0, 0x0, 0x0, 0x0, 0x0, true, 0xFFFF, 0xFFFF, false, []⟩),
  (0x02C, ⟨0xFFFF, 0x0, 0x0, 0x0, 0x0, 0x8010, true, 0xFFFF, 0x0, false, [⟨0, 8, false, 1, 255⟩]⟩),
  (0x030, ⟨0xFFF, 0x0, 0x0, 0x0, 0x0, 0x0, true, 0xFFF, 0xFFF, false, []⟩),
  (0x040, ⟨0x3F, 0x0, 0x0, 0x0, 0x0, 0x0, false, 0x0, 0x0, false, []⟩),
  (0x044, ⟨0x0, 0x0, 0x0, 0xFFFFFFFF, 0x0, 0x0, false, 0xFFFFFFFF, 0xFFFFFFFF, false, []⟩),
  (0x048, ⟨0x0, 0x0, 0x0, 0xFFFFFFFF, 0x0, 0x0, false, 0xFFFFFFFF, 0xFFFFFFFF, false, []⟩),
  (0x04C, ⟨0x0, 0x0, 0x0, 0xFFFFFFFF, 0x0, 0x0, false, 0xFFFFFFFF, 0xFFFFFFFF, false, []⟩),
  (0x050, ⟨0x0, 0x0, 0x0, 0xFFFF, 0x0, 0x0, false, 0xFFFF, 0xFFFF, false, []⟩),
  (0x060, ⟨0x0, 0x0, 0x0, 0xFFFFFFFF, 0x0, 0x0, false, 0x0, 0x0, false, []⟩),
  (0x064, ⟨0x0, 0x0, 0x0, 0xFFFFFFFF, 0x0, 0x0, false, 0x0, 0x0, false, []⟩),
  (0x068, ⟨0x0, 0x0, 0x0, 0xFFFFFFFF, 0x0, 0x0, false, 0x0, 0x0, false, []⟩),
  (0x06C, ⟨0x0, 0x0, 0x0, 0xFFFFFFFF, 0x0, 0x0, false, 0x0, 0x0, false, []⟩),
  (0x070, ⟨0x0, 0x0, 0x0, 0xFFFFFFFF, 0x0, 0x0, false, 0x0, 0x0, false, []⟩),
  (0x074, ⟨0x0, 0x0, 0x0, 0xFFFFFFFF, 0x0, 0x0, false, 0x0, 0x0, false, []⟩),
  (0x078, ⟨0x0, 0x0, 0x0, 0xFFFFFFFF, 0x0, 0x0, false, 0x0, 0x0, false, []⟩),
  (0x07C, ⟨0x0, 0x0, 0x0, 0xFFFFFFFF, 0x0, 0x0, false, 0x0, 0x0, false, []⟩),
  (0x080, ⟨0x0, 0x0, 0x0, 0x7FFFF, 0x0, 0x0, false, 0x1FFFF, 0x1FFFF, false, []⟩),
  (0x084, ⟨0x0, 0x0, 0x0, 0x7FFFF, 0x0, 0x0, false, 0x1FFFF, 0x1FFFF, false, []⟩),
  (0x088, ⟨0x0, 0x0, 0x0, 0x7FFFF, 0x0, 0x0, false, 0x1FFFF, 0x1FFFF, false, []⟩),
  (0x08C, ⟨0x0, 0x0, 0x0, 0x7FFFF, 0x0, 0x0, false, 0x1FFFF, 0x1FFFF, false, []⟩),
  (0x090, ⟨0x0, 0x0, 0x0, 0x7FFFF, 0x0, 0x0, false, 0x1FFFF, 0x1FFFF, false, []⟩)]

/-- The register rows of the HRN block (offset in the block, descriptor), after the field tables of spec/20 and its chapter. -/
def hrnRows : List (Nat × RegDesc) := [
  (0x000, ⟨0x0, 0x0, 0x0, 0x1, 0x0, 0x0, false, 0x0, 0x0, false, []⟩),
  (0x004, ⟨0x0, 0x0, 0x0, 0x3F, 0x0, 0x0, false, 0x0, 0x0, false, []⟩),
  (0x008, ⟨0x0, 0x0, 0x0, 0xFFFFFFFF, 0x0, 0x0, false, 0x0, 0x0, false, []⟩),
  (0x00C, ⟨0x0, 0x0, 0x0, 0xFFFFFFFF, 0x0, 0x0, false, 0x0, 0x0, false, []⟩),
  (0x010, ⟨0x0, 0x0, 0x0, 0xFFFFF, 0x0, 0x0, false, 0x0, 0x0, false, []⟩),
  (0x020, ⟨0x0, 0x0, 0x0, 0xFFFFFFFF, 0x0, 0x0, false, 0x0, 0x0, false, []⟩),
  (0x024, ⟨0x0, 0x0, 0x0, 0xFFFFFFFF, 0x0, 0x0, false, 0x0, 0x0, false, []⟩),
  (0x028, ⟨0x0, 0x0, 0x0, 0xF, 0x0, 0x0, false, 0x0, 0x0, false, []⟩),
  (0x030, ⟨0x0, 0x0, 0x0, 0xFFF, 0x0, 0x0, false, 0x0, 0x0, false, []⟩),
  (0x034, ⟨0x0, 0x0, 0x0, 0xFFF, 0x0, 0x0, false, 0x0, 0x0, false, []⟩),
  (0x038, ⟨0x0, 0x0, 0x0, 0xFFF, 0x0, 0x0, false, 0x0, 0x0, false, []⟩),
  (0x03C, ⟨0x0, 0x0, 0x0, 0xFFF, 0x0, 0x0, false, 0x0, 0x0, false, []⟩),
  (0x040, ⟨0x0, 0x0, 0x0, 0xFFFF, 0x0, 0x0, false, 0x0, 0x0, false, []⟩),
  (0x044, ⟨0x0, 0x0, 0x0, 0xFFFF, 0x0, 0x0, false, 0x0, 0x0, false, []⟩),
  (0x048, ⟨0x0, 0x0, 0x0, 0xFFFF, 0x0, 0x0, false, 0x0, 0x0, false, []⟩),
  (0x04C, ⟨0x0, 0x0, 0x0, 0xFFFF, 0x0, 0x0, false, 0x0, 0x0, false, []⟩),
  (0x050, ⟨0x0, 0x0, 0x0, 0xFFFF, 0x0, 0x0, false, 0x0, 0x0, false, []⟩),
  (0x054, ⟨0x0, 0x0, 0x0, 0xFFFF, 0x0, 0x0, false, 0x0, 0x0, false, []⟩),
  (0x060, ⟨0x0, 0x0, 0x0, 0xFFFF, 0x0, 0x0, false, 0x0, 0x0, false, []⟩),
  (0x064, ⟨0x0, 0x0, 0x0, 0xFFFF, 0x0, 0x0, false, 0x0, 0x0, false, []⟩),
  (0x068, ⟨0x0, 0x0, 0x0, 0xFFFF, 0x0, 0x0, false, 0x0, 0x0, false, []⟩),
  (0x06C, ⟨0x0, 0x0, 0x0, 0xFFFF, 0x0, 0x0, false, 0x0, 0x0, false, []⟩),
  (0x070, ⟨0xFFFFFFFF, 0x0, 0x0, 0x0, 0x0, 0x0, true, 0xFFFFFFFF, 0xFFFFFFFF, false, []⟩),
  (0x074, ⟨0xFFFF, 0x0, 0x0, 0x0, 0x0, 0x7069, true, 0xFFFF, 0x0, false, [⟨0, 8, false, 80, 115⟩, ⟨8, 8, false, 80, 115⟩]⟩),
  (0x080, ⟨0x0, 0x0, 0x0, 0xF0007, 0x0, 0x0, false, 0xF0001, 0xF0001, false, []⟩)]

/-- The register rows of the TIM block (offset in the block, descriptor), after the field tables of spec/20 and its chapter. -/
def timRows : List (Nat × RegDesc) := [
  (0x000, ⟨0x0, 0x0, 0x0, 0xFFFFFFFF, 0x0, 0x0, false, 0x0, 0x0, false, []⟩),
  (0x004, ⟨0x0, 0x0, 0x0, 0xFFFFFFFF, 0x0, 0x0, false, 0x0, 0x0, false, []⟩),
  (0x008, ⟨0x0, 0x0, 0x0, 0x7FFF, 0x0, 0x0, false, 0x0, 0x0, false, []⟩),
  (0x010, ⟨0xFFFFFFFF, 0x0, 0x0, 0x0, 0x0, 0x0, false, 0x0, 0x0, false, []⟩),
  (0x014, ⟨0xFFFFFFFF, 0x0, 0x0, 0x0, 0x0, 0x0, false, 0x0, 0x0, false, []⟩),
  (0x018, ⟨0x7FFF, 0x0, 0x0, 0x0, 0x0, 0x0, false, 0x0, 0x0, false, []⟩),
  (0x01C, ⟨0x0, 0x0, 0x0, 0x0, 0x3, 0x0, false, 0x0, 0x0, false, []⟩),
  (0x020, ⟨0x0, 0x0, 0x4, 0xFFFF0003, 0x0, 0x0, false, 0x0, 0x0, false, []⟩),
  (0x028, ⟨0x0, 0x0, 0x0, 0xFFFFFFFF, 0x0, 0x0, false, 0x0, 0x0, false, []⟩),
  (0x02C, ⟨0x0, 0x0, 0x0, 0xFFFFFFFF, 0x0, 0x0, false, 0x0, 0x0, false, []⟩)]

/-- The register rows of the NVS block (offset in the block, descriptor), after the field tables of spec/20 and its chapter. -/
def nvsRows : List (Nat × RegDesc) := [
  (0x000, ⟨0x0, 0x0, 0x0, 0x3F, 0x0, 0x0, false, 0x0, 0x0, false, []⟩),
  (0x004, ⟨0x0, 0x0, 0x0, 0xFFFFFFFF, 0x0, 0x0, false, 0x0, 0x0, false, []⟩),
  (0x010, ⟨0x1FF, 0x0, 0x0, 0x0, 0x0, 0x0, false, 0x0, 0x0, false, [⟨0, 9, false, 0, 271⟩]⟩),
  (0x014, ⟨0x0, 0x0, 0x0, 0xFFFFFFFF, 0x0, 0x0, false, 0x0, 0x0, false, []⟩),
  (0x018, ⟨0x0, 0x0, 0x0, 0xFFFFFFFF, 0x0, 0x0, false, 0x0, 0x0, false, []⟩),
  (0x01C, ⟨0x0, 0x0, 0x0, 0x1, 0x0, 0x0, false, 0x0, 0x0, false, []⟩),
  (0x020, ⟨0x0, 0x0, 0x0, 0xFFFFFFFF, 0x0, 0x0, false, 0x0, 0x0, false, []⟩)]

/-- The register rows of the LOG block (offset in the block, descriptor), after the field tables of spec/20 and its chapter. -/
def logRows : List (Nat × RegDesc) := [
  (0x000, ⟨0x0, 0x0, 0x0, 0xFFFFFFFF, 0x0, 0x0, false, 0x0, 0x0, false, []⟩),
  (0x004, ⟨0x0, 0x0, 0x0, 0xFFFFFFFF, 0x0, 0x0, false, 0x0, 0x0, false, []⟩),
  (0x008, ⟨0x0, 0x0, 0x0, 0xFFFFFFFF, 0x0, 0x0, false, 0x0, 0x0, false, []⟩),
  (0x00C, ⟨0x0, 0x0, 0x0, 0xFFFF, 0x0, 0x0, false, 0x0, 0x0, false, []⟩),
  (0x010, ⟨0x0, 0x0, 0x3, 0x0, 0x0, 0x0, false, 0x0, 0x0, false, []⟩),
  (0x014, ⟨0x3, 0x0, 0x0, 0x0, 0x0, 0x0, false, 0x0, 0x0, false, []⟩)]

/-- The register rows of the INP block (offset in the block, descriptor), after the field tables of spec/20 and its chapter. -/
def inpRows : List (Nat × RegDesc) := [
  (0x000, ⟨0x0, 0x0, 0x0, 0x1FFF, 0x0, 0x1000, false, 0x0, 0x0, false, []⟩),
  (0x004, ⟨0x0, 0x0, 0x0, 0x1FFF, 0x0, 0x0, false, 0x0, 0x0, false, []⟩),
  (0x008, ⟨0x0, 0x0, 0x0, 0x1FFF, 0x0, 0x0, false, 0x0, 0x0, false, []⟩),
  (0x00C, ⟨0x0, 0x0, 0x0, 0x3FF, 0x0, 0x0, false, 0x0, 0x0, false, []⟩),
  (0x010, ⟨0x0, 0x0, 0xF, 0x0, 0x0, 0x0, false, 0x0, 0x0, false, []⟩),
  (0x014, ⟨0xF, 0x0, 0x0, 0x0, 0x0, 0x0, false, 0x0, 0x0, false, []⟩),
  (0x018, ⟨0x3, 0x0, 0x0, 0x0, 0x0, 0x0, true, 0x3, 0x0, false, []⟩),
  (0x01C, ⟨0x0, 0x0, 0x0, 0x1FFF, 0x0, 0x0, false, 0x0, 0x0, false, []⟩),
  (0x020, ⟨0x0, 0x0, 0x0, 0xFFFFFFFF, 0x0, 0x0, false, 0x0, 0x0, false, []⟩),
  (0x040, ⟨0xFFFFFFFF, 0x0, 0x0, 0x0, 0x0, 0x2080014, true, 0xFFFFFFFF, 0x0, false, [⟨0, 16, false, 5, 1000⟩, ⟨16, 8, false, 2, 64⟩, ⟨24, 8, false, 1, 60⟩]⟩),
  (0x044, ⟨0xFFFFFFFF, 0x0, 0x0, 0x0, 0x0, 0x2080014, true, 0xFFFFFFFF, 0x0, false, [⟨0, 16, false, 5, 1000⟩, ⟨16, 8, false, 2, 64⟩, ⟨24, 8, false, 1, 60⟩]⟩),
  (0x048, ⟨0xFFFFFFFF, 0x0, 0x0, 0x0, 0x0, 0x3E84005, true, 0xFFFFFFFF, 0x0, false, [⟨0, 8, false, 2, 250⟩, ⟨8, 8, false, 8, 255⟩, ⟨16, 16, false, 100, 65535⟩]⟩),
  (0x060, ⟨0x0, 0x0, 0x0, 0xFFF, 0x0, 0x0, false, 0x0, 0x0, false, []⟩),
  (0x064, ⟨0x0, 0x0, 0x0, 0xFFF, 0x0, 0x0, false, 0x0, 0x0, false, []⟩),
  (0x068, ⟨0x0, 0x0, 0x0, 0xFFF, 0x0, 0x0, false, 0x0, 0x0, false, []⟩),
  (0x06C, ⟨0x0, 0x0, 0x0, 0xFFF, 0x0, 0x0, false, 0x0, 0x0, false, []⟩),
  (0x070, ⟨0x0, 0x0, 0x0, 0xFFF, 0x0, 0x0, false, 0x0, 0x0, false, []⟩),
  (0x074, ⟨0x0, 0x0, 0x0, 0xFFF, 0x0, 0x0, false, 0x0, 0x0, false, []⟩),
  (0x078, ⟨0x0, 0x0, 0x0, 0xFFF, 0x0, 0x0, false, 0x0, 0x0, false, []⟩),
  (0x07C, ⟨0x0, 0x0, 0x0, 0xFFF, 0x0, 0x0, false, 0x0, 0x0, false, []⟩),
  (0x080, ⟨0x0, 0x0, 0x0, 0xFFF, 0x0, 0x0, false, 0x0, 0x0, false, []⟩),
  (0x084, ⟨0x0, 0x0, 0x0, 0xFFF, 0x0, 0x0, false, 0x0, 0x0, false, []⟩)]

/-- The register rows of the INST block (offset in the block, descriptor), after the field tables of spec/20 and its chapter. -/
def instRows : List (Nat × RegDesc) := [
  (0x000, ⟨0x0, 0x0, 0x0, 0x7FFFFF7, 0x0, 0x0, false, 0x0, 0x0, false, []⟩),
  (0x004, ⟨0x377F, 0x0, 0x0, 0x0, 0x0, 0x1, true, 0x0, 0x0, false, [⟨0, 7, false, 1, 64⟩, ⟨8, 3, false, 0, 4⟩]⟩),
  (0x008, ⟨0x0, 0x0, 0x0, 0xFFFFFFFF, 0x0, 0x0, false, 0x0, 0x0, false, []⟩),
  (0x00C, ⟨0x0, 0x0, 0x0, 0xFFFFFFFF, 0x0, 0x0, false, 0x0, 0x0, false, []⟩),
  (0x010, ⟨0x0, 0x0, 0x0, 0xFFFFFFFF, 0x0, 0x0, false, 0x0, 0x0, false, []⟩),
  (0x014, ⟨0x0, 0x0, 0x0, 0xFFFFFFFF, 0x0, 0x0, false, 0x0, 0x0, false, []⟩),
  (0x018, ⟨0x0, 0x0, 0x0, 0xFFFFFFFF, 0x0, 0x0, false, 0x0, 0x0, false, []⟩),
  (0x01C, ⟨0x0, 0x0, 0x0, 0xFFFFFFFF, 0x0, 0x0, false, 0x0, 0x0, false, []⟩),
  (0x020, ⟨0x0, 0x0, 0x0, 0x7F01, 0x0, 0x0, false, 0x0, 0x0, false, []⟩),
  (0x024, ⟨0x0, 0x0, 0x0, 0xFFFFFFFF, 0x0, 0x0, false, 0x0, 0x0, false, []⟩),
  (0x028, ⟨0x0, 0x0, 0x0, 0xFFFFFFFF, 0x0, 0x0, false, 0x0, 0x0, false, []⟩),
  (0x02C, ⟨0x0, 0x0, 0x0, 0xFFFFFFFF, 0x0, 0x0, false, 0x0, 0x0, false, []⟩)]

/-- The register rows of the RNGG block (offset in the block, descriptor), after the field tables of spec/20 and its chapter. -/
def rnggRows : List (Nat × RegDesc) := [
  (0x000, ⟨0xFFFFFFFF, 0x0, 0x0, 0x0, 0x0, 0x3E80004, true, 0xFFFFFFFF, 0x0, false, [⟨0, 16, false, 1, 1000⟩, ⟨16, 16, false, 1, 65535⟩]⟩),
  (0x004, ⟨0xFFFF, 0x0, 0x0, 0x0, 0x0, 0x64, true, 0xFFFF, 0x0, false, []⟩),
  (0x008, ⟨0x0, 0x0, 0x0, 0xFFF, 0x0, 0x0, false, 0x0, 0x0, false, []⟩),
  (0x00C, ⟨0x0, 0x0, 0x0, 0xFFFFFFFF, 0x0, 0x0, false, 0x0, 0x0, false, []⟩)]

/-- The register rows of the HST block (offset in the block, descriptor), after the field tables of spec/20 and its chapter. -/
def hstRows : List (Nat × RegDesc) := [
  (0x008, ⟨0x0, 0x0, 0x0, 0x1FFFF03, 0x0, 0x0, false, 0x0, 0x0, false, []⟩),
  (0x00C, ⟨0x0, 0x0, 0x0, 0xFFFFFFFF, 0x0, 0x0, false, 0x0, 0x0, false, []⟩),
  (0x010, ⟨0x0, 0x0, 0x0, 0xFFFFFFFF, 0x0, 0x0, false, 0x0, 0x0, false, []⟩),
  (0x014, ⟨0x0, 0x0, 0x0, 0xFFFFFFFF, 0x0, 0x0, false, 0x0, 0x0, false, []⟩),
  (0x018, ⟨0x0, 0x0, 0x0, 0xFFFFFFFF, 0x0, 0x0, false, 0x0, 0x0, false, []⟩),
  (0x01C, ⟨0x0, 0x0, 0x0, 0xFFFF00FF, 0x0, 0x0, false, 0x0, 0x0, false, []⟩),
  (0x020, ⟨0x0, 0x1, 0x0, 0x2, 0x0, 0x0, false, 0x0, 0x0, true, []⟩),
  (0x024, ⟨0x0, 0x0, 0x0, 0xFFFFFFFF, 0x0, 0x0, false, 0x0, 0x0, false, []⟩),
  (0x028, ⟨0x0, 0x0, 0x0, 0xFFFFFFFF, 0x0, 0x0, false, 0x0, 0x0, false, []⟩),
  (0x02C, ⟨0x0, 0x0, 0x0, 0x0, 0x1, 0x0, false, 0x0, 0x0, false, []⟩)]

/-- The register rows of the BAR0 block, part 1 (offset in the block, descriptor), after the field tables of spec/20 and its chapter. -/
def bar0Rows1 : List (Nat × RegDesc) := [
  (0x000, ⟨0x0, 0x0, 0x0, 0xFF00FFF7, 0x0, 0x0, false, 0x0, 0x0, false, []⟩),
  (0x004, ⟨0x0, 0x0, 0xF, 0x0, 0x0, 0x0, false, 0x0, 0x0, false, []⟩),
  (0x008, ⟨0xF, 0x0, 0x0, 0x0, 0x0, 0x0, false, 0x0, 0x0, false, []⟩),
  (0x00C, ⟨0xFF01, 0x0, 0x0, 0x0, 0x0, 0x0, false, 0x0, 0x0, false, []⟩),
  (0x1400, ⟨0x0, 0x0, 0x0, 0x0, 0xFF, 0x0, false, 0x0, 0x0, false, []⟩),
  (0x1404, ⟨0x0, 0x0, 0x0, 0xFF, 0x0, 0x0, false, 0x0, 0x0, false, []⟩),
  (0x1408, ⟨0x0, 0x0, 0x0, 0xFFFF01FF, 0x0, 0x0, false, 0x0, 0x0, false, []⟩),
  (0x140C, ⟨0x0, 0x0, 0x0, 0x0, 0xFF, 0x0, false, 0x0, 0x0, false, []⟩),
  (0x2000, ⟨0xFFFFFFFF, 0x0, 0x0, 0x0, 0x0, 0x0, false, 0x0, 0x0, false, []⟩),
  (0x2004, ⟨0xFFFFFFFF, 0x0, 0x0, 0x0, 0x0, 0x0, false, 0x0, 0x0, false, []⟩),
  (0x2008, ⟨0xFFFFFFFF, 0x0, 0x0, 0x0, 0x0, 0x0, false, 0x0, 0x0, false, []⟩),
  (0x200C, ⟨0xFFFFFFFF, 0x0, 0x0, 0x0, 0x0, 0x0, false, 0x0, 0x0, false, []⟩),
  (0x2010, ⟨0xFFFFFFFF, 0x0, 0x0, 0x0, 0x0, 0x0, false, 0x0, 0x0, false, []⟩),
  (0x2014, ⟨0xFFFFFFFF, 0x0, 0x0, 0x0, 0x0, 0x0, false, 0x0, 0x0, false, []⟩),
  (0x2018, ⟨0xFFFFFFFF, 0x0, 0x0, 0x0, 0x0, 0x0, false, 0x0, 0x0, false, []⟩),
  (0x201C, ⟨0xFFFFFFFF, 0x0, 0x0, 0x0, 0x0, 0x0, false, 0x0, 0x0, false, []⟩),
  (0x2020, ⟨0xFFFFFFFF, 0x0, 0x0, 0x0, 0x0, 0x0, false, 0x0, 0x0, false, []⟩),
  (0x2024, ⟨0xFFFFFFFF, 0x0, 0x0, 0x0, 0x0, 0x0, false, 0x0, 0x0, false, []⟩),
  (0x2028, ⟨0xFFFFFFFF, 0x0, 0x0, 0x0, 0x0, 0x0, false, 0x0, 0x0, false, []⟩),
  (0x202C, ⟨0xFFFFFFFF, 0x0, 0x0, 0x0, 0x0, 0x0, false, 0x0, 0x0, false, []⟩),
  (0x2030, ⟨0xFFFFFFFF, 0x0, 0x0, 0x0, 0x0, 0x0, false, 0x0, 0x0, false, []⟩),
  (0x2034, ⟨0xFFFFFFFF, 0x0, 0x0, 0x0, 0x0, 0x0, false, 0x0, 0x0, false, []⟩),
  (0x2038, ⟨0xFFFFFFFF, 0x0, 0x0, 0x0, 0x0, 0x0, false, 0x0, 0x0, false, []⟩),
  (0x203C, ⟨0xFFFFFFFF, 0x0, 0x0, 0x0, 0x0, 0x0, false, 0x0, 0x0, false, []⟩),
  (0x2040, ⟨0x0, 0x0, 0x0, 0x0, 0x1, 0x0, false, 0x0, 0x0, false, []⟩),
  (0x2044, ⟨0x0, 0x0, 0x2, 0x1, 0x0, 0x0, false, 0x0, 0x0, false, []⟩),
  (0x2048, ⟨0x0, 0x0, 0x0, 0xFFFFFFFF, 0x0, 0x0, false, 0x0, 0x0, false, []⟩),
  (0x204C, ⟨0x0, 0x0, 0x0, 0xFFFFFFFF, 0x0, 0x0, false, 0x0, 0x0, false, []⟩),
  (0x2050, ⟨0x0, 0x0, 0x0, 0xFFFFFFFF, 0x0, 0x0, false, 0x0, 0x0, false, []⟩),
  (0x2054, ⟨0x0, 0x0, 0x0, 0xFFFFFFFF, 0x0, 0x0, false, 0x0, 0x0, false, []⟩),
  (0x2058, ⟨0x1, 0x0, 0x0, 0x0, 0x0, 0x0, false, 0x0, 0x0, false, []⟩),
  (0x3000, ⟨0xFFFFF000, 0x0, 0x0, 0x0, 0x0, 0x0, false, 0x0, 0x0, false, []⟩),
  (0x3004, ⟨0xFFFFFFFF, 0x0, 0x0, 0x0, 0x0, 0x0, false, 0x0, 0x0, false, []⟩),
  (0x3008, ⟨0x3, 0x0, 0x0, 0x0, 0x0, 0x0, false, 0x0, 0x0, false, []⟩),
  (0x300C, ⟨0x0, 0x0, 0x0, 0x0, 0xFFFFFFFF, 0x0, false, 0x0, 0x0, false, []⟩),
  (0x3010, ⟨0x0, 0x0, 0x0, 0xFFFF7F01, 0x0, 0x0, false, 0x0, 0x0, false, []⟩),
  (0x3014, ⟨0x0, 0x0, 0x1FF, 0x0, 0x0, 0x0, false, 0x0, 0x0, false, []⟩),
  (0x3018, ⟨0x1FF, 0x0, 0x0, 0x0, 0x0, 0x0, false, 0x0, 0x0, false, []⟩),
  (0x3100, ⟨0xFFFFFFFF, 0x0, 0x0, 0x0, 0x0, 0x0, false, 0x0, 0x0, false, []⟩),
  (0x3110, ⟨0xFFFFFFFF, 0x0, 0x0, 0x0, 0x0, 0x0, false, 0x0, 0x0, false, []⟩)]

/-- The register rows of the BAR0 block, part 2 (offset in the block, descriptor), after the field tables of spec/20 and its chapter. -/
def bar0Rows2 : List (Nat × RegDesc) := [
  (0x3120, ⟨0xFFFFFFFF, 0x0, 0x0, 0x0, 0x0, 0x0, false, 0x0, 0x0, false, []⟩),
  (0x3130, ⟨0xFFFFFFFF, 0x0, 0x0, 0x0, 0x0, 0x0, false, 0x0, 0x0, false, []⟩),
  (0x3104, ⟨0xFFFFFFFF, 0x0, 0x0, 0x0, 0x0, 0x0, false, 0x0, 0x0, false, []⟩),
  (0x3114, ⟨0xFFFFFFFF, 0x0, 0x0, 0x0, 0x0, 0x0, false, 0x0, 0x0, false, []⟩),
  (0x3124, ⟨0xFFFFFFFF, 0x0, 0x0, 0x0, 0x0, 0x0, false, 0x0, 0x0, false, []⟩),
  (0x3134, ⟨0xFFFFFFFF, 0x0, 0x0, 0x0, 0x0, 0x0, false, 0x0, 0x0, false, []⟩),
  (0x3108, ⟨0x30F01, 0x0, 0x0, 0x0, 0x0, 0x0, false, 0x0, 0x0, false, []⟩),
  (0x3118, ⟨0x30F01, 0x0, 0x0, 0x0, 0x0, 0x0, false, 0x0, 0x0, false, []⟩),
  (0x3128, ⟨0x30F01, 0x0, 0x0, 0x0, 0x0, 0x0, false, 0x0, 0x0, false, []⟩),
  (0x3138, ⟨0x30F01, 0x0, 0x0, 0x0, 0x0, 0x0, false, 0x0, 0x0, false, []⟩),
  (0x310C, ⟨0x0, 0x0, 0x0, 0x1F0FFF, 0x0, 0x100000, false, 0x0, 0x0, false, []⟩),
  (0x311C, ⟨0x0, 0x0, 0x0, 0x1F0FFF, 0x0, 0x100000, false, 0x0, 0x0, false, []⟩),
  (0x312C, ⟨0x0, 0x0, 0x0, 0x1F0FFF, 0x0, 0x100000, false, 0x0, 0x0, false, []⟩),
  (0x313C, ⟨0x0, 0x0, 0x0, 0x1F0FFF, 0x0, 0x100000, false, 0x0, 0x0, false, []⟩),
  (0x3140, ⟨0xFFFFFFFF, 0x0, 0x0, 0x0, 0x0, 0x0, false, 0x0, 0x0, false, []⟩),
  (0x3150, ⟨0xFFFFFFFF, 0x0, 0x0, 0x0, 0x0, 0x0, false, 0x0, 0x0, false, []⟩),
  (0x3160, ⟨0xFFFFFFFF, 0x0, 0x0, 0x0, 0x0, 0x0, false, 0x0, 0x0, false, []⟩),
  (0x3170, ⟨0xFFFFFFFF, 0x0, 0x0, 0x0, 0x0, 0x0, false, 0x0, 0x0, false, []⟩),
  (0x3144, ⟨0xFFFFFFFF, 0x0, 0x0, 0x0, 0x0, 0x0, false, 0x0, 0x0, false, []⟩),
  (0x3154, ⟨0xFFFFFFFF, 0x0, 0x0, 0x0, 0x0, 0x0, false, 0x0, 0x0, false, []⟩),
  (0x3164, ⟨0xFFFFFFFF, 0x0, 0x0, 0x0, 0x0, 0x0, false, 0x0, 0x0, false, []⟩),
  (0x3174, ⟨0xFFFFFFFF, 0x0, 0x0, 0x0, 0x0, 0x0, false, 0x0, 0x0, false, []⟩),
  (0x3148, ⟨0xF0F01, 0x0, 0x0, 0x0, 0x0, 0x0, false, 0x0, 0x0, false, []⟩),
  (0x3158, ⟨0xF0F01, 0x0, 0x0, 0x0, 0x0, 0x0, false, 0x0, 0x0, false, []⟩),
  (0x3168, ⟨0xF0F01, 0x0, 0x0, 0x0, 0x0, 0x0, false, 0x0, 0x0, false, []⟩),
  (0x3178, ⟨0xF0F01, 0x0, 0x0, 0x0, 0x0, 0x0, false, 0x0, 0x0, false, []⟩),
  (0x314C, ⟨0x0, 0x0, 0x0, 0xF1FFF, 0x0, 0x0, false, 0x0, 0x0, false, []⟩),
  (0x315C, ⟨0x0, 0x0, 0x0, 0xF1FFF, 0x0, 0x0, false, 0x0, 0x0, false, []⟩),
  (0x316C, ⟨0x0, 0x0, 0x0, 0xF1FFF, 0x0, 0x0, false, 0x0, 0x0, false, []⟩),
  (0x317C, ⟨0x0, 0x0, 0x0, 0xF1FFF, 0x0, 0x0, false, 0x0, 0x0, false, []⟩),
  (0x3180, ⟨0xFFFF00FF, 0x0, 0x0, 0x0, 0x0, 0x1, false, 0x0, 0x0, false, []⟩),
  (0x3184, ⟨0xFFFF00FF, 0x0, 0x0, 0x0, 0x0, 0x1, false, 0x0, 0x0, false, []⟩),
  (0x3188, ⟨0xFFFF00FF, 0x0, 0x0, 0x0, 0x0, 0x1, false, 0x0, 0x0, false, []⟩),
  (0x318C, ⟨0xFFFF00FF, 0x0, 0x0, 0x0, 0x0, 0x1, false, 0x0, 0x0, false, []⟩)]

/-- All register rows of the BAR0 block. -/
def bar0Rows : List (Nat × RegDesc) := bar0Rows1 ++ bar0Rows2

/-- Register CFG_ID. -/
def Reg.CFG_ID : Nat := 0x0
/-- Register CFG_REV. -/
def Reg.CFG_REV : Nat := 0x4
/-- Register CFG_DEVID_LO. -/
def Reg.CFG_DEVID_LO : Nat := 0x8
/-- Register CFG_DEVID_HI. -/
def Reg.CFG_DEVID_HI : Nat := 0xC
/-- Register CFG_EPOCH_STS. -/
def Reg.CFG_EPOCH_STS : Nat := 0x100
/-- Register CFG_EPOCH_COMMIT. -/
def Reg.CFG_EPOCH_COMMIT : Nat := 0x104
/-- Register CFG_EPOCH_ADOPT. -/
def Reg.CFG_EPOCH_ADOPT : Nat := 0x108
/-- Register CFG_EPOCH_TMO. -/
def Reg.CFG_EPOCH_TMO : Nat := 0x10C
/-- Register CLK_STS. -/
def Reg.CLK_STS : Nat := 0x10000
/-- Register CLK_SUP_WIN. -/
def Reg.CLK_SUP_WIN : Nat := 0x10004
/-- Register CLK_SUP_CFG. -/
def Reg.CLK_SUP_CFG : Nat := 0x10008
/-- Register CLK_DEV_XP. -/
def Reg.CLK_DEV_XP : Nat := 0x1000C
/-- Register CLK_DEV_XK. -/
def Reg.CLK_DEV_XK : Nat := 0x10010
/-- Register CLK_DEV_PK. -/
def Reg.CLK_DEV_PK : Nat := 0x10014
/-- Register CLK_SW_CNT. -/
def Reg.CLK_SW_CNT : Nat := 0x10018
/-- Register CLK_SEL_REQ. -/
def Reg.CLK_SEL_REQ : Nat := 0x1001C
/-- Register CLK_PM. -/
def Reg.CLK_PM : Nat := 0x10030
/-- Register CLK_GATE_RUN. -/
def Reg.CLK_GATE_RUN : Nat := 0x10034
/-- Register CLK_GATE_SLP. -/
def Reg.CLK_GATE_SLP : Nat := 0x10038
/-- Register CLK_GATE_DEEP. -/
def Reg.CLK_GATE_DEEP : Nat := 0x1003C
/-- Register CLK_SSC_MOT. -/
def Reg.CLK_SSC_MOT : Nat := 0x10040
/-- Register CLK_SSC_NF. -/
def Reg.CLK_SSC_NF : Nat := 0x10044
/-- Register CLK_SSC_CK. -/
def Reg.CLK_SSC_CK : Nat := 0x10048
/-- Register CLK_CKOUT. -/
def Reg.CLK_CKOUT : Nat := 0x1004C
/-- Register CLK_FMC_CTL. -/
def Reg.CLK_FMC_CTL : Nat := 0x10050
/-- Register CLK_FMC_GO. -/
def Reg.CLK_FMC_GO : Nat := 0x10054
/-- Register CLK_FMC_STS. -/
def Reg.CLK_FMC_STS : Nat := 0x10058
/-- Register CLK_FMC_CNT. -/
def Reg.CLK_FMC_CNT : Nat := 0x1005C
/-- Register PWB_STS. -/
def Reg.PWB_STS : Nat := 0x14000
/-- Register PWB_PIN. -/
def Reg.PWB_PIN : Nat := 0x14004
/-- Register PWB_AVAIL. -/
def Reg.PWB_AVAIL : Nat := 0x14008
/-- Register PWB_X. -/
def Reg.PWB_X : Nat := 0x1400C
/-- Register PWB_EST0. -/
def Reg.PWB_EST0 : Nat := 0x14010
/-- Register PWB_EST1. -/
def Reg.PWB_EST1 : Nat := 0x14014
/-- Register PWB_EST2. -/
def Reg.PWB_EST2 : Nat := 0x14018
/-- Register PWB_EST3. -/
def Reg.PWB_EST3 : Nat := 0x1401C
/-- Register PWB_CFG. -/
def Reg.PWB_CFG : Nat := 0x14020
/-- Register PWB_SENSE. -/
def Reg.PWB_SENSE : Nat := 0x14024
/-- Register PWB_VIN. -/
def Reg.PWB_VIN : Nat := 0x14028
/-- Register PWB_VMOT. -/
def Reg.PWB_VMOT : Nat := 0x1402C
/-- Register PWB_FS. -/
def Reg.PWB_FS : Nat := 0x14030
/-- Register PWB_CAP. -/
def Reg.PWB_CAP : Nat := 0x14034
/-- Register PWB_SPINUP. -/
def Reg.PWB_SPINUP : Nat := 0x14038
/-- Register PWB_OVL. -/
def Reg.PWB_OVL : Nat := 0x1403C
/-- Register PWB_BASE. -/
def Reg.PWB_BASE : Nat := 0x14040
/-- Register PWB_DRV. -/
def Reg.PWB_DRV : Nat := 0x14044
/-- Register PWB_CNT. -/
def Reg.PWB_CNT : Nat := 0x14048
/-- Register STL_SPEED. -/
def Reg.STL_SPEED : Nat := 0x18000
/-- Register STL_SITE0. -/
def Reg.STL_SITE0 : Nat := 0x18004
/-- Register STL_SITE1. -/
def Reg.STL_SITE1 : Nat := 0x18008
/-- Register STL_SITE2. -/
def Reg.STL_SITE2 : Nat := 0x1800C
/-- Register STL_SITE3. -/
def Reg.STL_SITE3 : Nat := 0x18010
/-- Register STL_VCORE. -/
def Reg.STL_VCORE : Nat := 0x18014
/-- Register STL_ALM. -/
def Reg.STL_ALM : Nat := 0x18018
/-- Register STL_ALM_CFG. -/
def Reg.STL_ALM_CFG : Nat := 0x1801C
/-- Register STL_TPUT. -/
def Reg.STL_TPUT (i : Nat) : Nat := 0x18020 + i * 0x4
/-- Register STL_TPUT_CLR. -/
def Reg.STL_TPUT_CLR : Nat := 0x18040
/-- Register HLT_RST_CAUSE. -/
def Reg.HLT_RST_CAUSE : Nat := 0x20000
/-- Register HLT_BOOT. -/
def Reg.HLT_BOOT : Nat := 0x20004
/-- Register HLT_BOOT_TIME. -/
def Reg.HLT_BOOT_TIME : Nat := 0x20008
/-- Register HLT_ACC_ERR. -/
def Reg.HLT_ACC_ERR : Nat := 0x20010
/-- Register HLT_ACC_ADDR. -/
def Reg.HLT_ACC_ADDR : Nat := 0x20014
/-- Register HLT_ACC_CLR. -/
def Reg.HLT_ACC_CLR : Nat := 0x20018
/-- Register HLT_SUPPLY. -/
def Reg.HLT_SUPPLY : Nat := 0x20020
/-- Register HLT_RST_CNT. -/
def Reg.HLT_RST_CNT : Nat := 0x20024
/-- Register HLT_HREC_SEL. -/
def Reg.HLT_HREC_SEL : Nat := 0x20040
/-- Register HLT_HREC_STS. -/
def Reg.HLT_HREC_STS : Nat := 0x20044
/-- Register HLT_HREC. -/
def Reg.HLT_HREC (i : Nat) : Nat := 0x20048 + i * 0x4
/-- Register SEA_STS. -/
def Reg.SEA_STS : Nat := 0x30000
/-- Register SEA_SWEEP. -/
def Reg.SEA_SWEEP : Nat := 0x30004
/-- Register SEA_MAC_BASE. -/
def Reg.SEA_MAC_BASE : Nat := 0x30008
/-- Register SEA_MGMT_BASE. -/
def Reg.SEA_MGMT_BASE : Nat := 0x3000C
/-- Register SEA_MGMT_SIZE. -/
def Reg.SEA_MGMT_SIZE : Nat := 0x30010
/-- Register SEA_RETRY_CNT. -/
def Reg.SEA_RETRY_CNT : Nat := 0x30020
/-- Register SEA_REPAIR_CNT. -/
def Reg.SEA_REPAIR_CNT : Nat := 0x30024
/-- Register SEA_RC_VIOL. -/
def Reg.SEA_RC_VIOL : Nat := 0x30030
/-- Register SEA_RC_ADDR_LO. -/
def Reg.SEA_RC_ADDR_LO : Nat := 0x30034
/-- Register SEA_RC_ADDR_HI. -/
def Reg.SEA_RC_ADDR_HI : Nat := 0x30038
/-- Register SEA_RC_BASE. -/
def Reg.SEA_RC_BASE (i : Nat) : Nat := 0x30040 + i * 0x10
/-- Register SEA_RC_LIM. -/
def Reg.SEA_RC_LIM (i : Nat) : Nat := 0x30044 + i * 0x10
/-- Register SEA_RC_CTL. -/
def Reg.SEA_RC_CTL (i : Nat) : Nat := 0x30048 + i * 0x10
/-- Register SEA_CTL. -/
def Reg.SEA_CTL : Nat := 0x30100
/-- Register SEA_QUAR. -/
def Reg.SEA_QUAR : Nat := 0x30104
/-- Register SEA_QUAR_CLR. -/
def Reg.SEA_QUAR_CLR : Nat := 0x30108
/-- Register SEA_KEYS. -/
def Reg.SEA_KEYS : Nat := 0x3010C
/-- Register FSS_STS. -/
def Reg.FSS_STS : Nat := 0x40000
/-- Register FSS_GEOM. -/
def Reg.FSS_GEOM : Nat := 0x40004
/-- Register FSS_GEOM2. -/
def Reg.FSS_GEOM2 : Nat := 0x40008
/-- Register FSS_CAP_LO. -/
def Reg.FSS_CAP_LO : Nat := 0x4000C
/-- Register FSS_CAP_HI. -/
def Reg.FSS_CAP_HI : Nat := 0x40010
/-- Register FSS_NAND_CFG. -/
def Reg.FSS_NAND_CFG : Nat := 0x40014
/-- Register FSS_WL. -/
def Reg.FSS_WL : Nat := 0x40018
/-- Register FSS_CKPT. -/
def Reg.FSS_CKPT : Nat := 0x4001C
/-- Register FSS_LEAF_POOL. -/
def Reg.FSS_LEAF_POOL : Nat := 0x40020
/-- Register FSS_HREG_BASE_LO. -/
def Reg.FSS_HREG_BASE_LO : Nat := 0x40030
/-- Register FSS_HREG_BASE_HI. -/
def Reg.FSS_HREG_BASE_HI : Nat := 0x40034
/-- Register FSS_HREG_SIZE. -/
def Reg.FSS_HREG_SIZE : Nat := 0x40038
/-- Register FSS_HREG_CTL. -/
def Reg.FSS_HREG_CTL : Nat := 0x4003C
/-- Register FSS_ERR0. -/
def Reg.FSS_ERR0 : Nat := 0x40040
/-- Register FSS_ERR1. -/
def Reg.FSS_ERR1 : Nat := 0x40044
/-- Register FSS_DIE_STS. -/
def Reg.FSS_DIE_STS : Nat := 0x40048
/-- Register FSS_WEAR. -/
def Reg.FSS_WEAR : Nat := 0x4004C
/-- Register FSS_CKPT_STS. -/
def Reg.FSS_CKPT_STS : Nat := 0x40050
/-- Register FSS_RB_TIME. -/
def Reg.FSS_RB_TIME : Nat := 0x40054
/-- Register MCH_CTL. -/
def Reg.MCH_CTL : Nat := 0x50000
/-- Register MCH_STS. -/
def Reg.MCH_STS : Nat := 0x50004
/-- Register MCH_LINES. -/
def Reg.MCH_LINES : Nat := 0x50008
/-- Register MCH_OP_ADDR. -/
def Reg.MCH_OP_ADDR : Nat := 0x50010
/-- Register MCH_OP_CNT. -/
def Reg.MCH_OP_CNT : Nat := 0x50014
/-- Register MCH_OP_SW. -/
def Reg.MCH_OP_SW : Nat := 0x50018
/-- Register MCH_OP_CTL. -/
def Reg.MCH_OP_CTL : Nat := 0x5001C
/-- Register MCH_OP_STS. -/
def Reg.MCH_OP_STS : Nat := 0x50020
/-- Register MCH_EVT. -/
def Reg.MCH_EVT : Nat := 0x50024
/-- Register MCH_IEN. -/
def Reg.MCH_IEN : Nat := 0x50028
/-- Register MCH_PAR. -/
def Reg.MCH_PAR : Nat := 0x50030
/-- Register MCH_WAY_STS. -/
def Reg.MCH_WAY_STS : Nat := 0x50034
/-- Register MCH_WAY_EN. -/
def Reg.MCH_WAY_EN : Nat := 0x50038
/-- Register MCH_PAR_CNT. -/
def Reg.MCH_PAR_CNT (i : Nat) : Nat := 0x50040 + i * 0x4
/-- Register MCH_HITS. -/
def Reg.MCH_HITS : Nat := 0x50060
/-- Register MCH_MISSES. -/
def Reg.MCH_MISSES : Nat := 0x50064
/-- Register ARC_STS. -/
def Reg.ARC_STS : Nat := 0x60000
/-- Register ARC_SET_LO. -/
def Reg.ARC_SET_LO : Nat := 0x60004
/-- Register ARC_SET_HI. -/
def Reg.ARC_SET_HI : Nat := 0x60008
/-- Register ARC_POS. -/
def Reg.ARC_POS : Nat := 0x6000C
/-- Register ARC_NEXT. -/
def Reg.ARC_NEXT : Nat := 0x60010
/-- Register ARC_TOTAL. -/
def Reg.ARC_TOTAL : Nat := 0x60014
/-- Register ARC_SESSION. -/
def Reg.ARC_SESSION : Nat := 0x60018
/-- Register ARC_CTL. -/
def Reg.ARC_CTL : Nat := 0x60020
/-- Register ARC_DEG. -/
def Reg.ARC_DEG : Nat := 0x60024
/-- Register ARC_CNT0. -/
def Reg.ARC_CNT0 : Nat := 0x60030
/-- Register ARC_CNT1. -/
def Reg.ARC_CNT1 : Nat := 0x60034
/-- Register ARC_SPARE. -/
def Reg.ARC_SPARE : Nat := 0x60038
/-- Register RDC_STS. -/
def Reg.RDC_STS (d : Nat) : Nat := 0x80000 + d * 0x10000
/-- Register RDC_RATE. -/
def Reg.RDC_RATE (d : Nat) : Nat := 0x80004 + d * 0x10000
/-- Register RDC_EQ0. -/
def Reg.RDC_EQ0 (d : Nat) : Nat := 0x80010 + d * 0x10000
/-- Register RDC_EQ1. -/
def Reg.RDC_EQ1 (d : Nat) : Nat := 0x80014 + d * 0x10000
/-- Register RDC_EQ2. -/
def Reg.RDC_EQ2 (d : Nat) : Nat := 0x80018 + d * 0x10000
/-- Register RDC_EQ3. -/
def Reg.RDC_EQ3 (d : Nat) : Nat := 0x8001C + d * 0x10000
/-- Register RDC_EQ4. -/
def Reg.RDC_EQ4 (d : Nat) : Nat := 0x80020 + d * 0x10000
/-- Register RDC_ADP. -/
def Reg.RDC_ADP (d : Nat) : Nat := 0x80024 + d * 0x10000
/-- Register RDC_AMP. -/
def Reg.RDC_AMP (d : Nat) : Nat := 0x80028 + d * 0x10000
/-- Register RDC_ERS. -/
def Reg.RDC_ERS (d : Nat) : Nat := 0x8002C + d * 0x10000
/-- Register RDC_RTRY. -/
def Reg.RDC_RTRY (d : Nat) : Nat := 0x80030 + d * 0x10000
/-- Register RDC_VFY. -/
def Reg.RDC_VFY (d : Nat) : Nat := 0x80034 + d * 0x10000
/-- Register RDC_CNT0. -/
def Reg.RDC_CNT0 (d : Nat) : Nat := 0x80040 + d * 0x10000
/-- Register RDC_CNT1. -/
def Reg.RDC_CNT1 (d : Nat) : Nat := 0x80044 + d * 0x10000
/-- Register RDC_CNT2. -/
def Reg.RDC_CNT2 (d : Nat) : Nat := 0x80048 + d * 0x10000
/-- Register RDC_CNT3. -/
def Reg.RDC_CNT3 (d : Nat) : Nat := 0x8004C + d * 0x10000
/-- Register RDC_CNT4. -/
def Reg.RDC_CNT4 (d : Nat) : Nat := 0x80050 + d * 0x10000
/-- Register RDC_ZW_A. -/
def Reg.RDC_ZW_A (d : Nat) (i : Nat) : Nat := 0x80100 + d * 0x10000 + i * 0x4
/-- Register RDC_ZW_B. -/
def Reg.RDC_ZW_B (d : Nat) (i : Nat) : Nat := 0x80200 + d * 0x10000 + i * 0x4
/-- Register WST_STS. -/
def Reg.WST_STS (d : Nat) : Nat := 0x84000 + d * 0x10000
/-- Register WST_OPC_CTL. -/
def Reg.WST_OPC_CTL (d : Nat) : Nat := 0x84004 + d * 0x10000
/-- Register WST_DTOP. -/
def Reg.WST_DTOP (d : Nat) (i : Nat) : Nat := 0x84010 + d * 0x10000 + i * 0x4
/-- Register WST_SHAPE. -/
def Reg.WST_SHAPE (d : Nat) (i : Nat) : Nat := 0x84020 + d * 0x10000 + i * 0x4
/-- Register WST_OPC_CFG. -/
def Reg.WST_OPC_CFG (d : Nat) : Nat := 0x84040 + d * 0x10000
/-- Register WST_OPC_RES. -/
def Reg.WST_OPC_RES (d : Nat) (i : Nat) : Nat := 0x84048 + d * 0x10000 + i * 0x4
/-- Register WST_PCA. -/
def Reg.WST_PCA (d : Nat) : Nat := 0x84050 + d * 0x10000
/-- Register WST_LDADDR. -/
def Reg.WST_LDADDR (d : Nat) : Nat := 0x84060 + d * 0x10000
/-- Register SRV_AX_STS. -/
def Reg.SRV_AX_STS (d : Nat) : Nat := 0xC0000 + d * 0x1000
/-- Register SRV_AX_CMD. -/
def Reg.SRV_AX_CMD (d : Nat) : Nat := 0xC0004 + d * 0x1000
/-- Register SRV_AX_TIM. -/
def Reg.SRV_AX_TIM (d : Nat) : Nat := 0xC0008 + d * 0x1000
/-- Register SRV_AX_CTL. -/
def Reg.SRV_AX_CTL (d : Nat) : Nat := 0xC000C + d * 0x1000
/-- Register SRV_LOCK. -/
def Reg.SRV_LOCK (d : Nat) : Nat := 0xC0010 + d * 0x1000
/-- Register SRV_OUT_HI. -/
def Reg.SRV_OUT_HI (d : Nat) : Nat := 0xC0014 + d * 0x1000
/-- Register SRV_OUT_LO. -/
def Reg.SRV_OUT_LO (d : Nat) : Nat := 0xC0018 + d * 0x1000
/-- Register SRV_REST. -/
def Reg.SRV_REST (d : Nat) : Nat := 0xC001C + d * 0x1000
/-- Register SRV_ERR. -/
def Reg.SRV_ERR (d : Nat) : Nat := 0xC0020 + d * 0x1000
/-- Register SRV_OUT. -/
def Reg.SRV_OUT (d : Nat) : Nat := 0xC0024 + d * 0x1000
/-- Register SRV_COMP_T. -/
def Reg.SRV_COMP_T (d : Nat) : Nat := 0xC0028 + d * 0x1000
/-- Register SRV_SWAP. -/
def Reg.SRV_SWAP (d : Nat) : Nat := 0xC002C + d * 0x1000
/-- Register SRV_INJ_AMP. -/
def Reg.SRV_INJ_AMP (d : Nat) : Nat := 0xC0030 + d * 0x1000
/-- Register SRV_INJ_FRQ. -/
def Reg.SRV_INJ_FRQ (d : Nat) : Nat := 0xC0034 + d * 0x1000
/-- Register SRV_B0_BQ1_B0. -/
def Reg.SRV_B0_BQ1_B0 (d : Nat) : Nat := 0xC0100 + d * 0x1000
/-- Register SRV_B0_BQ1_B1. -/
def Reg.SRV_B0_BQ1_B1 (d : Nat) : Nat := 0xC0104 + d * 0x1000
/-- Register SRV_B0_BQ1_B2. -/
def Reg.SRV_B0_BQ1_B2 (d : Nat) : Nat := 0xC0108 + d * 0x1000
/-- Register SRV_B0_BQ1_A1. -/
def Reg.SRV_B0_BQ1_A1 (d : Nat) : Nat := 0xC010C + d * 0x1000
/-- Register SRV_B0_BQ1_A2. -/
def Reg.SRV_B0_BQ1_A2 (d : Nat) : Nat := 0xC0110 + d * 0x1000
/-- Register SRV_B0_BQ2_B0. -/
def Reg.SRV_B0_BQ2_B0 (d : Nat) : Nat := 0xC0114 + d * 0x1000
/-- Register SRV_B0_BQ2_B1. -/
def Reg.SRV_B0_BQ2_B1 (d : Nat) : Nat := 0xC0118 + d * 0x1000
/-- Register SRV_B0_BQ2_B2. -/
def Reg.SRV_B0_BQ2_B2 (d : Nat) : Nat := 0xC011C + d * 0x1000
/-- Register SRV_B0_BQ2_A1. -/
def Reg.SRV_B0_BQ2_A1 (d : Nat) : Nat := 0xC0120 + d * 0x1000
/-- Register SRV_B0_BQ2_A2. -/
def Reg.SRV_B0_BQ2_A2 (d : Nat) : Nat := 0xC0124 + d * 0x1000
/-- Register SRV_B0_KP. -/
def Reg.SRV_B0_KP (d : Nat) : Nat := 0xC0128 + d * 0x1000
/-- Register SRV_B0_KI. -/
def Reg.SRV_B0_KI (d : Nat) : Nat := 0xC012C + d * 0x1000
/-- Register SRV_B0_KD. -/
def Reg.SRV_B0_KD (d : Nat) : Nat := 0xC0130 + d * 0x1000
/-- Register SRV_B0_DSH. -/
def Reg.SRV_B0_DSH (d : Nat) : Nat := 0xC0134 + d * 0x1000
/-- Register SRV_B0_I_LO. -/
def Reg.SRV_B0_I_LO (d : Nat) : Nat := 0xC0138 + d * 0x1000
/-- Register SRV_B0_I_HI. -/
def Reg.SRV_B0_I_HI (d : Nat) : Nat := 0xC013C + d * 0x1000
/-- Register SRV_B1_BQ1_B0. -/
def Reg.SRV_B1_BQ1_B0 (d : Nat) : Nat := 0xC0140 + d * 0x1000
/-- Register SRV_B1_BQ1_B1. -/
def Reg.SRV_B1_BQ1_B1 (d : Nat) : Nat := 0xC0144 + d * 0x1000
/-- Register SRV_B1_BQ1_B2. -/
def Reg.SRV_B1_BQ1_B2 (d : Nat) : Nat := 0xC0148 + d * 0x1000
/-- Register SRV_B1_BQ1_A1. -/
def Reg.SRV_B1_BQ1_A1 (d : Nat) : Nat := 0xC014C + d * 0x1000
/-- Register SRV_B1_BQ1_A2. -/
def Reg.SRV_B1_BQ1_A2 (d : Nat) : Nat := 0xC0150 + d * 0x1000
/-- Register SRV_B1_BQ2_B0. -/
def Reg.SRV_B1_BQ2_B0 (d : Nat) : Nat := 0xC0154 + d * 0x1000
/-- Register SRV_B1_BQ2_B1. -/
def Reg.SRV_B1_BQ2_B1 (d : Nat) : Nat := 0xC0158 + d * 0x1000
/-- Register SRV_B1_BQ2_B2. -/
def Reg.SRV_B1_BQ2_B2 (d : Nat) : Nat := 0xC015C + d * 0x1000
/-- Register SRV_B1_BQ2_A1. -/
def Reg.SRV_B1_BQ2_A1 (d : Nat) : Nat := 0xC0160 + d * 0x1000
/-- Register SRV_B1_BQ2_A2. -/
def Reg.SRV_B1_BQ2_A2 (d : Nat) : Nat := 0xC0164 + d * 0x1000
/-- Register SRV_B1_KP. -/
def Reg.SRV_B1_KP (d : Nat) : Nat := 0xC0168 + d * 0x1000
/-- Register SRV_B1_KI. -/
def Reg.SRV_B1_KI (d : Nat) : Nat := 0xC016C + d * 0x1000
/-- Register SRV_B1_KD. -/
def Reg.SRV_B1_KD (d : Nat) : Nat := 0xC0170 + d * 0x1000
/-- Register SRV_B1_DSH. -/
def Reg.SRV_B1_DSH (d : Nat) : Nat := 0xC0174 + d * 0x1000
/-- Register SRV_B1_I_LO. -/
def Reg.SRV_B1_I_LO (d : Nat) : Nat := 0xC0178 + d * 0x1000
/-- Register SRV_B1_I_HI. -/
def Reg.SRV_B1_I_HI (d : Nat) : Nat := 0xC017C + d * 0x1000
/-- Register SRV_SP_CFG. -/
def Reg.SRV_SP_CFG (d : Nat) : Nat := 0xC0200 + d * 0x1000
/-- Register SRV_SP_FIX. -/
def Reg.SRV_SP_FIX (d : Nat) : Nat := 0xC0204 + d * 0x1000
/-- Register SRV_SP_OFF. -/
def Reg.SRV_SP_OFF (d : Nat) : Nat := 0xC0208 + d * 0x1000
/-- Register SRV_SP_LO. -/
def Reg.SRV_SP_LO (d : Nat) : Nat := 0xC020C + d * 0x1000
/-- Register SRV_SP_HI. -/
def Reg.SRV_SP_HI (d : Nat) : Nat := 0xC0210 + d * 0x1000
/-- Register SRV_SP_FB. -/
def Reg.SRV_SP_FB (d : Nat) : Nat := 0xC0214 + d * 0x1000
/-- Register SRV_SP_RAMP_TGT. -/
def Reg.SRV_SP_RAMP_TGT (d : Nat) : Nat := 0xC0218 + d * 0x1000
/-- Register SRV_SP_GAIN. -/
def Reg.SRV_SP_GAIN (d : Nat) : Nat := 0xC021C + d * 0x1000
/-- Register SRV_SP_SLEW. -/
def Reg.SRV_SP_SLEW (d : Nat) : Nat := 0xC0220 + d * 0x1000
/-- Register SRV_SP_NOW. -/
def Reg.SRV_SP_NOW (d : Nat) : Nat := 0xC0224 + d * 0x1000
/-- Register SRV_LG_STS. -/
def Reg.SRV_LG_STS (d : Nat) : Nat := 0xC0300 + d * 0x1000
/-- Register SRV_LG_OUT. -/
def Reg.SRV_LG_OUT (d : Nat) : Nat := 0xC0304 + d * 0x1000
/-- Register SRV_LG_REF. -/
def Reg.SRV_LG_REF (d : Nat) (i : Nat) : Nat := 0xC0310 + d * 0x1000 + i * 0x10
/-- Register SRV_LG_KP. -/
def Reg.SRV_LG_KP (d : Nat) (i : Nat) : Nat := 0xC0314 + d * 0x1000 + i * 0x10
/-- Register SRV_LG_KI. -/
def Reg.SRV_LG_KI (d : Nat) (i : Nat) : Nat := 0xC0318 + d * 0x1000 + i * 0x10
/-- Register SRV_LG_ILIM. -/
def Reg.SRV_LG_ILIM (d : Nat) (i : Nat) : Nat := 0xC031C + d * 0x1000 + i * 0x10
/-- Register SRV_ACQ. -/
def Reg.SRV_ACQ (d : Nat) : Nat := 0xC0400 + d * 0x1000
/-- Register SRV_JUMP. -/
def Reg.SRV_JUMP (d : Nat) : Nat := 0xC0404 + d * 0x1000
/-- Register SRV_JUMP2. -/
def Reg.SRV_JUMP2 (d : Nat) : Nat := 0xC0408 + d * 0x1000
/-- Register SRV_SEEK. -/
def Reg.SRV_SEEK (d : Nat) : Nat := 0xC0400 + d * 0x1000
/-- Register SRV_SEEK2. -/
def Reg.SRV_SEEK2 (d : Nat) : Nat := 0xC0404 + d * 0x1000
/-- Register SRV_DEF_CFG. -/
def Reg.SRV_DEF_CFG (d : Nat) : Nat := 0xC0410 + d * 0x1000
/-- Register SRV_DEF_TMO. -/
def Reg.SRV_DEF_TMO (d : Nat) : Nat := 0xC0414 + d * 0x1000
/-- Register SRV_G_STS. -/
def Reg.SRV_G_STS : Nat := 0xC0F00
/-- Register SRV_RATE_CFG. -/
def Reg.SRV_RATE_CFG : Nat := 0xC0F04
/-- Register SRV_RATE. -/
def Reg.SRV_RATE : Nat := 0xC0F08
/-- Register SPN_STS. -/
def Reg.SPN_STS (d : Nat) : Nat := 0xD0000 + d * 0x1000
/-- Register SPN_CMD. -/
def Reg.SPN_CMD (d : Nat) : Nat := 0xD0004 + d * 0x1000
/-- Register SPN_CTL. -/
def Reg.SPN_CTL (d : Nat) : Nat := 0xD0008 + d * 0x1000
/-- Register SPN_MOTOR. -/
def Reg.SPN_MOTOR (d : Nat) : Nat := 0xD0010 + d * 0x1000
/-- Register SPN_IFS. -/
def Reg.SPN_IFS (d : Nat) : Nat := 0xD0014 + d * 0x1000
/-- Register SPN_KE. -/
def Reg.SPN_KE (d : Nat) : Nat := 0xD0018 + d * 0x1000
/-- Register SPN_BEMF. -/
def Reg.SPN_BEMF (d : Nat) : Nat := 0xD001C + d * 0x1000
/-- Register SPN_PWM. -/
def Reg.SPN_PWM (d : Nat) : Nat := 0xD0020 + d * 0x1000
/-- Register SPN_CUR. -/
def Reg.SPN_CUR (d : Nat) : Nat := 0xD0024 + d * 0x1000
/-- Register SPN_IPD. -/
def Reg.SPN_IPD (d : Nat) : Nat := 0xD0030 + d * 0x1000
/-- Register SPN_START. -/
def Reg.SPN_START (d : Nat) : Nat := 0xD0034 + d * 0x1000
/-- Register SPN_START2. -/
def Reg.SPN_START2 (d : Nat) : Nat := 0xD0038 + d * 0x1000
/-- Register SPN_COM. -/
def Reg.SPN_COM (d : Nat) : Nat := 0xD003C + d * 0x1000
/-- Register SPN_ZONE. -/
def Reg.SPN_ZONE (d : Nat) : Nat := 0xD0040 + d * 0x1000
/-- Register SPN_LOCK. -/
def Reg.SPN_LOCK (d : Nat) : Nat := 0xD0044 + d * 0x1000
/-- Register SPN_PROT. -/
def Reg.SPN_PROT (d : Nat) : Nat := 0xD0048 + d * 0x1000
/-- Register SPN_SPEED. -/
def Reg.SPN_SPEED (d : Nat) : Nat := 0xD0050 + d * 0x1000
/-- Register SPN_KE_MEAS. -/
def Reg.SPN_KE_MEAS (d : Nat) : Nat := 0xD0054 + d * 0x1000
/-- Register SPN_CNT. -/
def Reg.SPN_CNT (d : Nat) : Nat := 0xD0058 + d * 0x1000
/-- Register SPN_COMCNT. -/
def Reg.SPN_COMCNT (d : Nat) : Nat := 0xD005C + d * 0x1000
/-- Register SLD_STS. -/
def Reg.SLD_STS (d : Nat) : Nat := 0xE0000 + d * 0x1000
/-- Register SLD_CMD. -/
def Reg.SLD_CMD (d : Nat) : Nat := 0xE0004 + d * 0x1000
/-- Register SLD_TGT. -/
def Reg.SLD_TGT (d : Nat) : Nat := 0xE0008 + d * 0x1000
/-- Register SLD_POS. -/
def Reg.SLD_POS (d : Nat) : Nat := 0xE000C + d * 0x1000
/-- Register SLD_ERR. -/
def Reg.SLD_ERR (d : Nat) : Nat := 0xE0010 + d * 0x1000
/-- Register SLD_CNT. -/
def Reg.SLD_CNT (d : Nat) : Nat := 0xE0014 + d * 0x1000
/-- Register SLD_CTL. -/
def Reg.SLD_CTL (d : Nat) : Nat := 0xE0018 + d * 0x1000
/-- Register SLD_MOT. -/
def Reg.SLD_MOT (d : Nat) : Nat := 0xE0020 + d * 0x1000
/-- Register SLD_MOT2. -/
def Reg.SLD_MOT2 (d : Nat) : Nat := 0xE0024 + d * 0x1000
/-- Register SLD_MOT3. -/
def Reg.SLD_MOT3 (d : Nat) : Nat := 0xE0028 + d * 0x1000
/-- Register SLD_LIM_MIN. -/
def Reg.SLD_LIM_MIN (d : Nat) : Nat := 0xE002C + d * 0x1000
/-- Register SLD_LIM_MAX. -/
def Reg.SLD_LIM_MAX (d : Nat) : Nat := 0xE0030 + d * 0x1000
/-- Register SLD_CUR. -/
def Reg.SLD_CUR (d : Nat) : Nat := 0xE0040 + d * 0x1000
/-- Register SLD_CUR2. -/
def Reg.SLD_CUR2 (d : Nat) : Nat := 0xE0044 + d * 0x1000
/-- Register SLD_CUR3. -/
def Reg.SLD_CUR3 (d : Nat) : Nat := 0xE0048 + d * 0x1000
/-- Register SLD_PWM. -/
def Reg.SLD_PWM (d : Nat) : Nat := 0xE004C + d * 0x1000
/-- Register SLD_PROT. -/
def Reg.SLD_PROT (d : Nat) : Nat := 0xE0050 + d * 0x1000
/-- Register SLD_MECH_NM. -/
def Reg.SLD_MECH_NM (d : Nat) : Nat := 0xE0060 + d * 0x1000
/-- Register SLD_MECH_RNG. -/
def Reg.SLD_MECH_RNG (d : Nat) : Nat := 0xE0064 + d * 0x1000
/-- Register SLD_MECH_LEAD. -/
def Reg.SLD_MECH_LEAD (d : Nat) : Nat := 0xE0068 + d * 0x1000
/-- Register SLD_MECH_PARK. -/
def Reg.SLD_MECH_PARK (d : Nat) : Nat := 0xE006C + d * 0x1000
/-- Register SLD_MECH_RREF. -/
def Reg.SLD_MECH_RREF (d : Nat) (i : Nat) : Nat := 0xE0070 + d * 0x1000 + i * 0x4
/-- Register SLD_HOME. -/
def Reg.SLD_HOME (d : Nat) : Nat := 0xE0078 + d * 0x1000
/-- Register SLD_LOST. -/
def Reg.SLD_LOST (d : Nat) : Nat := 0xE007C + d * 0x1000
/-- Register CAL_STS. -/
def Reg.CAL_STS : Nat := 0xF0000
/-- Register CAL_CTL. -/
def Reg.CAL_CTL : Nat := 0xF0004
/-- Register CAL_CMD. -/
def Reg.CAL_CMD : Nat := 0xF0008
/-- Register CAL_CFG. -/
def Reg.CAL_CFG : Nat := 0xF000C
/-- Register CAL_CFG2. -/
def Reg.CAL_CFG2 : Nat := 0xF0010
/-- Register CAL_TSREF. -/
def Reg.CAL_TSREF : Nat := 0xF0014
/-- Register CAL_GN_FOC. -/
def Reg.CAL_GN_FOC : Nat := 0xF0020
/-- Register CAL_GN_TRK. -/
def Reg.CAL_GN_TRK : Nat := 0xF0024
/-- Register CAL_FB. -/
def Reg.CAL_FB : Nat := 0xF0028
/-- Register CAL_ZPW. -/
def Reg.CAL_ZPW : Nat := 0xF002C
/-- Register CAL_LCAP. -/
def Reg.CAL_LCAP : Nat := 0xF0030
/-- Register CAL_ITEM_SEL. -/
def Reg.CAL_ITEM_SEL : Nat := 0xF0040
/-- Register CAL_ITEM_CNT. -/
def Reg.CAL_ITEM_CNT : Nat := 0xF0044
/-- Register CAL_ITEM_TIME_LO. -/
def Reg.CAL_ITEM_TIME_LO : Nat := 0xF0048
/-- Register CAL_ITEM_TIME_HI. -/
def Reg.CAL_ITEM_TIME_HI : Nat := 0xF004C
/-- Register CAL_ITEM_TEMP. -/
def Reg.CAL_ITEM_TEMP : Nat := 0xF0050
/-- Register CAL_TEMP. -/
def Reg.CAL_TEMP (i : Nat) : Nat := 0xF0060 + i * 0x4
/-- Register CAL_DRIFT. -/
def Reg.CAL_DRIFT (i : Nat) : Nat := 0xF0070 + i * 0x4
/-- Register CAL_SET. -/
def Reg.CAL_SET (i : Nat) : Nat := 0xF0080 + i * 0x4
/-- Register HRN_STS. -/
def Reg.HRN_STS : Nat := 0x100000
/-- Register HRN_FW_STS. -/
def Reg.HRN_FW_STS : Nat := 0x100004
/-- Register HRN_FW_VER_A. -/
def Reg.HRN_FW_VER_A : Nat := 0x100008
/-- Register HRN_FW_VER_B. -/
def Reg.HRN_FW_VER_B : Nat := 0x10000C
/-- Register HRN_FW_STAGED. -/
def Reg.HRN_FW_STAGED : Nat := 0x100010
/-- Register HRN_TEMP01. -/
def Reg.HRN_TEMP01 : Nat := 0x100020
/-- Register HRN_TEMP23. -/
def Reg.HRN_TEMP23 : Nat := 0x100024
/-- Register HRN_SITE_STS. -/
def Reg.HRN_SITE_STS : Nat := 0x100028
/-- Register HRN_THM. -/
def Reg.HRN_THM (i : Nat) : Nat := 0x100030 + i * 0x4
/-- Register HRN_SUP. -/
def Reg.HRN_SUP (i : Nat) : Nat := 0x100040 + i * 0x4
/-- Register HRN_LDI. -/
def Reg.HRN_LDI (i : Nat) : Nat := 0x100060 + i * 0x4
/-- Register HRN_LDI_FS. -/
def Reg.HRN_LDI_FS : Nat := 0x100070
/-- Register HRN_THERM. -/
def Reg.HRN_THERM : Nat := 0x100074
/-- Register HRN_CRLW. -/
def Reg.HRN_CRLW : Nat := 0x100080
/-- Register TIM_SEC_LO. -/
def Reg.TIM_SEC_LO : Nat := 0x101000
/-- Register TIM_SEC_HI. -/
def Reg.TIM_SEC_HI : Nat := 0x101004
/-- Register TIM_SUB. -/
def Reg.TIM_SUB : Nat := 0x101008
/-- Register TIM_STG_SEC_LO. -/
def Reg.TIM_STG_SEC_LO : Nat := 0x101010
/-- Register TIM_STG_SEC_HI. -/
def Reg.TIM_STG_SEC_HI : Nat := 0x101014
/-- Register TIM_STG_SUB. -/
def Reg.TIM_STG_SUB : Nat := 0x101018
/-- Register TIM_CMD. -/
def Reg.TIM_CMD : Nat := 0x10101C
/-- Register TIM_STS. -/
def Reg.TIM_STS : Nat := 0x101020
/-- Register TIM_MONO_LO. -/
def Reg.TIM_MONO_LO : Nat := 0x101028
/-- Register TIM_MONO_HI. -/
def Reg.TIM_MONO_HI : Nat := 0x10102C
/-- Register NVS_STS. -/
def Reg.NVS_STS : Nat := 0x102000
/-- Register NVS_SEQ. -/
def Reg.NVS_SEQ : Nat := 0x102004
/-- Register NVS_CNT_SEL. -/
def Reg.NVS_CNT_SEL : Nat := 0x102010
/-- Register NVS_CNT_LO. -/
def Reg.NVS_CNT_LO : Nat := 0x102014
/-- Register NVS_CNT_HI. -/
def Reg.NVS_CNT_HI : Nat := 0x102018
/-- Register NVS_CNT_STS. -/
def Reg.NVS_CNT_STS : Nat := 0x10201C
/-- Register NVS_WRITES. -/
def Reg.NVS_WRITES : Nat := 0x102020
/-- Register LOG_NEXT. -/
def Reg.LOG_NEXT : Nat := 0x103000
/-- Register LOG_OLDEST. -/
def Reg.LOG_OLDEST : Nat := 0x103004
/-- Register LOG_MIRROR. -/
def Reg.LOG_MIRROR : Nat := 0x103008
/-- Register LOG_LOST. -/
def Reg.LOG_LOST : Nat := 0x10300C
/-- Register LOG_EVT. -/
def Reg.LOG_EVT : Nat := 0x103010
/-- Register LOG_IEN. -/
def Reg.LOG_IEN : Nat := 0x103014
/-- Register INP_LVL. -/
def Reg.INP_LVL : Nat := 0x110000
/-- Register INP_STUCK. -/
def Reg.INP_STUCK : Nat := 0x110004
/-- Register INP_CHAT. -/
def Reg.INP_CHAT : Nat := 0x110008
/-- Register INP_RANGE. -/
def Reg.INP_RANGE : Nat := 0x11000C
/-- Register INP_EVT. -/
def Reg.INP_EVT : Nat := 0x110010
/-- Register INP_IEN. -/
def Reg.INP_IEN : Nat := 0x110014
/-- Register INP_DIS. -/
def Reg.INP_DIS : Nat := 0x110018
/-- Register INP_RAW. -/
def Reg.INP_RAW : Nat := 0x11001C
/-- Register INP_CNT. -/
def Reg.INP_CNT : Nat := 0x110020
/-- Register INP_CFG_TRAY. -/
def Reg.INP_CFG_TRAY : Nat := 0x110040
/-- Register INP_CFG_DOOR. -/
def Reg.INP_CFG_DOOR : Nat := 0x110044
/-- Register INP_CFG_RATE. -/
def Reg.INP_CFG_RATE : Nat := 0x110048
/-- Register INP_ACODE. -/
def Reg.INP_ACODE (i : Nat) : Nat := 0x110060 + i * 0x4
/-- Register INS_T_STATE. -/
def Reg.INS_T_STATE (d : Nat) : Nat := 0x120000 + d * 0x100
/-- Register INS_T_LIMITS. -/
def Reg.INS_T_LIMITS (d : Nat) : Nat := 0x120004 + d * 0x100
/-- Register INS_T_NS_LO. -/
def Reg.INS_T_NS_LO (d : Nat) : Nat := 0x120008 + d * 0x100
/-- Register INS_T_NS_HI. -/
def Reg.INS_T_NS_HI (d : Nat) : Nat := 0x12000C + d * 0x100
/-- Register INS_T_QUOTA_LO. -/
def Reg.INS_T_QUOTA_LO (d : Nat) : Nat := 0x120010 + d * 0x100
/-- Register INS_T_QUOTA_HI. -/
def Reg.INS_T_QUOTA_HI (d : Nat) : Nat := 0x120014 + d * 0x100
/-- Register INS_T_USED_LO. -/
def Reg.INS_T_USED_LO (d : Nat) : Nat := 0x120018 + d * 0x100
/-- Register INS_T_USED_HI. -/
def Reg.INS_T_USED_HI (d : Nat) : Nat := 0x12001C + d * 0x100
/-- Register INS_T_RET. -/
def Reg.INS_T_RET (d : Nat) : Nat := 0x120020 + d * 0x100
/-- Register INS_T_HOLD. -/
def Reg.INS_T_HOLD (d : Nat) : Nat := 0x120024 + d * 0x100
/-- Register INS_T_BOUND_LO. -/
def Reg.INS_T_BOUND_LO (d : Nat) : Nat := 0x120028 + d * 0x100
/-- Register INS_T_BOUND_HI. -/
def Reg.INS_T_BOUND_HI (d : Nat) : Nat := 0x12002C + d * 0x100
/-- Register RNG_POLL. -/
def Reg.RNG_POLL : Nat := 0x138000
/-- Register RNG_IDLE. -/
def Reg.RNG_IDLE : Nat := 0x138004
/-- Register RNG_DEV_STS. -/
def Reg.RNG_DEV_STS : Nat := 0x138008
/-- Register RNG_FETCH_ERR. -/
def Reg.RNG_FETCH_ERR : Nat := 0x13800C
/-- Register HST_HALT_STS. -/
def Reg.HST_HALT_STS : Nat := 0x2000408
/-- Register HST_HALT_TIME_LO. -/
def Reg.HST_HALT_TIME_LO : Nat := 0x200040C
/-- Register HST_HALT_TIME_HI. -/
def Reg.HST_HALT_TIME_HI : Nat := 0x2000410
/-- Register HST_HALT_DETAIL_LO. -/
def Reg.HST_HALT_DETAIL_LO : Nat := 0x2000414
/-- Register HST_HALT_DETAIL_HI. -/
def Reg.HST_HALT_DETAIL_HI : Nat := 0x2000418
/-- Register HST_PREV_HALT. -/
def Reg.HST_PREV_HALT : Nat := 0x200041C
/-- Register HST_IDE_CTL. -/
def Reg.HST_IDE_CTL : Nat := 0x2000420
/-- Register HST_LINK_CNT1. -/
def Reg.HST_LINK_CNT1 : Nat := 0x2000424
/-- Register HST_LINK_CNT2. -/
def Reg.HST_LINK_CNT2 : Nat := 0x2000428
/-- Register HST_CNT_CLR. -/
def Reg.HST_CNT_CLR : Nat := 0x200042C
/-- Register F_STS. -/
def Reg.F_STS (d : Nat) : Nat := 0x1000000 + d * 0x8000
/-- Register F_EVT. -/
def Reg.F_EVT (d : Nat) : Nat := 0x1000004 + d * 0x8000
/-- Register F_IEN. -/
def Reg.F_IEN (d : Nat) : Nat := 0x1000008 + d * 0x8000
/-- Register F_SPG_SEL. -/
def Reg.F_SPG_SEL (d : Nat) : Nat := 0x100000C + d * 0x8000
/-- Register F_IN_SLOT. -/
def Reg.F_IN_SLOT (d : Nat) (i : Nat) : Nat := 0x1001000 + d * 0x8000 + i * 0x4
/-- Register F_OUT_SLOT. -/
def Reg.F_OUT_SLOT (d : Nat) (i : Nat) : Nat := 0x1001200 + d * 0x8000 + i * 0x4
/-- Register F_MB_IN_POST. -/
def Reg.F_MB_IN_POST (d : Nat) : Nat := 0x1001400 + d * 0x8000
/-- Register F_MB_IN_STS. -/
def Reg.F_MB_IN_STS (d : Nat) : Nat := 0x1001404 + d * 0x8000
/-- Register F_MB_OUT_STS. -/
def Reg.F_MB_OUT_STS (d : Nat) : Nat := 0x1001408 + d * 0x8000
/-- Register F_MB_OUT_ACK. -/
def Reg.F_MB_OUT_ACK (d : Nat) : Nat := 0x100140C + d * 0x8000
/-- Register F_TSK_ENTRY. -/
def Reg.F_TSK_ENTRY (d : Nat) (i : Nat) : Nat := 0x1002000 + d * 0x8000 + i * 0x4
/-- Register F_TSK_GO. -/
def Reg.F_TSK_GO (d : Nat) : Nat := 0x1002040 + d * 0x8000
/-- Register F_TSK_STS. -/
def Reg.F_TSK_STS (d : Nat) : Nat := 0x1002044 + d * 0x8000
/-- Register F_TSK_CPL. -/
def Reg.F_TSK_CPL (d : Nat) (i : Nat) : Nat := 0x1002048 + d * 0x8000 + i * 0x4
/-- Register F_TSK_CTL. -/
def Reg.F_TSK_CTL (d : Nat) : Nat := 0x1002058 + d * 0x8000
/-- Register F_RNG_DB_LO. -/
def Reg.F_RNG_DB_LO (d : Nat) : Nat := 0x1003000 + d * 0x8000
/-- Register F_RNG_DB_HI. -/
def Reg.F_RNG_DB_HI (d : Nat) : Nat := 0x1003004 + d * 0x8000
/-- Register F_RNG_CTL. -/
def Reg.F_RNG_CTL (d : Nat) : Nat := 0x1003008 + d * 0x8000
/-- Register F_RNG_WAKE. -/
def Reg.F_RNG_WAKE (d : Nat) : Nat := 0x100300C + d * 0x8000
/-- Register F_RNG_STS. -/
def Reg.F_RNG_STS (d : Nat) : Nat := 0x1003010 + d * 0x8000
/-- Register F_RNG_EVT. -/
def Reg.F_RNG_EVT (d : Nat) : Nat := 0x1003014 + d * 0x8000
/-- Register F_RNG_IEN. -/
def Reg.F_RNG_IEN (d : Nat) : Nat := 0x1003018 + d * 0x8000
/-- Register F_SQ_BASE_LO. -/
def Reg.F_SQ_BASE_LO (d : Nat) (i : Nat) : Nat := 0x1003100 + d * 0x8000 + i * 0x10
/-- Register F_SQ_BASE_HI. -/
def Reg.F_SQ_BASE_HI (d : Nat) (i : Nat) : Nat := 0x1003104 + d * 0x8000 + i * 0x10
/-- Register F_SQ_CFG. -/
def Reg.F_SQ_CFG (d : Nat) (i : Nat) : Nat := 0x1003108 + d * 0x8000 + i * 0x10
/-- Register F_SQ_STS. -/
def Reg.F_SQ_STS (d : Nat) (i : Nat) : Nat := 0x100310C + d * 0x8000 + i * 0x10
/-- Register F_CQ_BASE_LO. -/
def Reg.F_CQ_BASE_LO (d : Nat) (i : Nat) : Nat := 0x1003140 + d * 0x8000 + i * 0x10
/-- Register F_CQ_BASE_HI. -/
def Reg.F_CQ_BASE_HI (d : Nat) (i : Nat) : Nat := 0x1003144 + d * 0x8000 + i * 0x10
/-- Register F_CQ_CFG. -/
def Reg.F_CQ_CFG (d : Nat) (i : Nat) : Nat := 0x1003148 + d * 0x8000 + i * 0x10
/-- Register F_CQ_STS. -/
def Reg.F_CQ_STS (d : Nat) (i : Nat) : Nat := 0x100314C + d * 0x8000 + i * 0x10
/-- Register F_CQ_COAL. -/
def Reg.F_CQ_COAL (d : Nat) (i : Nat) : Nat := 0x1003180 + d * 0x8000 + i * 0x4

/-- The row of an offset in a block. -/
def findRow (rows : List (Nat × RegDesc)) (off : Nat) : Option RegDesc :=
  match rows with
  | [] => none
  | (o, r) :: rest => if o = off then some r else findRow rest off

/-- SRV.AX_TIM with the default latency and the range of its role (Table 10-1, Table 10-7). -/
def axTimRow (role : Nat) : RegDesc :=
  if role < 2 then ⟨0xFFFFFFFF, 0, 0, 0, 0, 0x03E800C8, true, 0xFFFFFFFF, 0, false, [⟨0, 16, false, 50, 450⟩, ⟨16, 16, false, 1, 65535⟩]⟩
  else ⟨0xFFFFFFFF, 0, 0, 0, 0, 0x03E807D0, true, 0xFFFFFFFF, 0, false, [⟨0, 16, false, 50, 9950⟩, ⟨16, 16, false, 1, 65535⟩]⟩

/-- The rows of a servo axis block by role (Tables 10-7 to 10-12): the group registers stand in the FOC and SPN blocks, the sequence
registers in the FOC and TRK blocks, the device-wide ones in every block. -/
def srvDesc (axis off : Nat) : Option RegDesc :=
  let role := axis % 4
  if 0xF00 ≤ off then findRow srvgRows off
  else if off = 0x008 then some (axTimRow role)
  else if off < 0x300 then findRow srvRows off
  else if off < 0x400 then (if role = 0 ∨ role = 2 then findRow srvLgRows off else none)
  else if role = 0 then findRow srvFocRows off
  else if role = 1 then findRow srvTrkRows off
  else none

/-- A read-only 32-bit word. -/
def roRow : RegDesc := ⟨0, 0, 0, 0xFFFFFFFF, 0, 0, false, 0, 0, false, []⟩

/-- A read-write 32-bit word. -/
def rwRow : RegDesc := ⟨0xFFFFFFFF, 0, 0, 0, 0, 0, false, 0, 0, false, []⟩

/-- A read-only 16-bit field. -/
def ro16Row : RegDesc := ⟨0, 0, 0, 0xFFFF, 0, 0, false, 0, 0, false, []⟩

/-- Registers of the RDC and WST blocks of one drive (Table 20-7), with the zone table of R309. -/
def rdcDesc (off : Nat) : Option RegDesc :=
  if 0x4000 ≤ off then findRow wstRows (off - 0x4000)
  else if 0x100 ≤ off then
    (if off % 4 = 0 ∧ (off < 0x1A0 ∨ (0x200 ≤ off ∧ off < 0x2A0)) then some ro16Row else none)
  else findRow rdcRows off

/-- The registers of PF BAR2 (Tables 20-3 to 20-12). -/
def bar2Desc (off : Nat) : Option RegDesc :=
  if off < 0x010000 then findRow cfgRows off
  else if off < 0x014000 then findRow clkRows (off - 0x010000)
  else if off < 0x018000 then findRow pwbRows (off - 0x014000)
  else if off < 0x020000 then findRow stlRows (off - 0x018000)
  else if off < 0x030000 then findRow hltRows (off - 0x020000)
  else if off < 0x040000 then findRow seaRows (off - 0x030000)
  else if off < 0x050000 then findRow fssRows (off - 0x040000)
  else if off < 0x060000 then findRow mchRows (off - 0x050000)
  else if off < 0x080000 then findRow arcRows (off - 0x060000)
  else if off < 0x0C0000 then rdcDesc ((off - 0x080000) % 0x10000)
  else if off < 0x0D0000 then srvDesc ((off - 0x0C0000) / 0x1000) (off % 0x1000)
  else if off < 0x0E0000 then (if off < 0x0D4000 then findRow spnRows (off % 0x1000) else none)
  else if off < 0x0F0000 then (if off < 0x0E4000 then findRow sldRows (off % 0x1000) else none)
  else if off < 0x100000 then findRow calRows (off - 0x0F0000)
  else if off < 0x101000 then findRow hrnRows (off - 0x100000)
  else if off < 0x102000 then findRow timRows (off - 0x101000)
  else if off < 0x103000 then findRow nvsRows (off - 0x102000)
  else if off < 0x110000 then findRow logRows (off - 0x103000)
  else if off < 0x120000 then findRow inpRows (off - 0x110000)
  else if off < 0x130000 then findRow instRows (off % 0x100)
  else if off < 0x138000 then (if off % 4 = 0 then some roRow else none)
  else if off < 0x140000 then findRow rnggRows (off - 0x138000)
  else none

/-- The registers of one function's BAR0 (Table 20-1), without the MSI-X table, the pending bits and the shared page window. -/
def bar0Desc (f off : Nat) : Option RegDesc :=
  if 0x1000 ≤ off ∧ off < 0x1200 then (if off % 4 = 0 then some rwRow else none)
  else if 0x1200 ≤ off ∧ off < 0x1400 then (if off % 4 = 0 then some roRow else none)
  else if off = 0x000C then
    (if f = 0 then some ⟨0xFF01, 0, 0, 0, 0, 0, false, 0, 0, false, []⟩
     else some ⟨0x1, 0, 0, 0xFF00, 0, f * 256, false, 0, 0, false, []⟩)
  else findRow bar0Rows off

/-- The first key of the BAR0 registers, and of the HST registers. -/
def bar0Key (f off : Nat) : Nat := 0x1000000 + f * 0x8000 + off

/-- The register that a key names (R582). -/
def regDesc (k : Nat) : Option RegDesc :=
  if k < 0x400000 then bar2Desc k
  else if 0x1000000 ≤ k ∧ k < 0x1800000 then bar0Desc ((k - 0x1000000) / 0x8000) ((k - 0x1000000) % 0x8000)
  else if 0x2000400 ≤ k ∧ k < 0x2000440 then findRow hstRows (k - 0x2000400)
  else none

/-- The reset word of a key; 0 where a field takes a value loaded from the settings store (log entry 9). -/
def regReset (k : Nat) : Word :=
  match regDesc k with
  | some r => BitVec.ofNat 32 r.reset
  | none => 0

/-- The register is epoch-committed (R584). -/
def isEpochReg (k : Nat) : Bool :=
  match regDesc k with
  | some r => r.epoch
  | none => false

/-- The register keeps its value through a warm reset (RWS, R7). -/
def isStickyReg (k : Nat) : Bool :=
  match regDesc k with
  | some r => r.sticky
  | none => false

/-- One range check against a candidate word: the field of the new word, or the old one when it lies outside the range. -/
def rangeKeep (old : Nat) (new : Nat) (c : FieldRange) : Nat :=
  let v := fldN new c.pos c.len
  let i : Int := if c.signed then sext c.len v else (v : Int)
  if c.lo ≤ i ∧ i ≤ c.hi then new else setFldN new c.pos c.len (fldN old c.pos c.len)

/-- The second field of an ordered pair keeps its old value unless it is at least the first. -/
def pairKeep (old new plo plen qlo qlen : Nat) : Nat :=
  if fldN new plo plen ≤ fldN new qlo qlen then new else setFldN new qlo qlen (fldN old qlo qlen)

/-- The ranges that name another field of the same register: RNG.POLL, CLK.SUP_WIN, SPN.LOCK, SLD.CUR, and the fixed bits of
CLK.GATE_RUN (Table 14-5); HRN.THERM is judged as one pair (R498). -/
def pairRules (k old new : Nat) : Nat :=
  if k = 0x138000 then pairKeep old new 0 16 16 16
  else if k = 0x010004 then pairKeep old new 0 16 16 16
  else if 0x0D0000 ≤ k ∧ k < 0x0D4000 ∧ k % 0x1000 = 0x044 then pairKeep old new 0 4 4 4
  else if 0x0E0000 ≤ k ∧ k < 0x0E4000 ∧ k % 0x1000 = 0x040 then pairKeep old new 0 12 16 12
  else if k = 0x010034 then new ||| 0x387
  else if k = 0x100074 then
    (if fldN new 0 8 ≤ fldN new 8 8 then new else old)
  else new

/-- HRN.THERM is taken only when both temperatures are in range and in order (R498). -/
def thermOk (w : Nat) : Bool :=
  decide (80 ≤ fldN w 0 8 ∧ fldN w 0 8 ≤ 115 ∧ 80 ≤ fldN w 8 8 ∧ fldN w 8 8 ≤ 115 ∧ fldN w 0 8 ≤ fldN w 8 8)

/-- The stored word after a host write of `new` to a register that held `old` (R7, R24 and the ranges): only RW and RWS bits
change, and a field out of its range keeps its value. -/
def writeWord (k : Nat) (r : RegDesc) (old new : Word) : Word :=
  let m := r.rw ||| r.rws
  let cand := (new.toNat &&& m) ||| (old.toNat - (old.toNat &&& m))
  if k = 0x100074 then (if thermOk cand then BitVec.ofNat 32 cand else old)
  else BitVec.ofNat 32 (pairRules k old.toNat (r.checks.foldl (rangeKeep old.toNat) cand))

/-- Some field of the write keeps its old value because the new one lies out of its range. -/
def rangeRefused (k : Nat) (r : RegDesc) (old new : Word) : Bool :=
  let m := r.rw ||| r.rws
  decide (writeWord k r old new ≠ BitVec.ofNat 32 ((new.toNat &&& m) ||| (old.toNat - (old.toNat &&& m))))

/-- The write sets a bit that lies in an RSV field (R20). -/
def rsvWritten (r : RegDesc) (new : Word) : Bool :=
  decide (new.toNat &&& (r.rw ||| r.rws ||| r.w1c ||| r.ro ||| r.wo) ≠ new.toNat)

end Sys2Proof.Machine
end

