-- ==== Sys2Proof/Machine/State.lean ====
section
/-!
DEFINITION. The state of the block as plain data: every register, ring, buffer, counter, mode and pin that the spec gives it, the
queue of waiting commands, and State.reset, the block at the release of power-on reset (BOOT.step 0). Fields that are the model's own, not the
spec's: `pending` (the waiting commands), `out` (what the block has sent, newest first) and `free` (the counter of free values).
-/

namespace Sys2Proof.Machine

/-- The block stops with a fault. No meaning of this model raises one. -/
inductive Fault where
  /-- Raised by no command: every command of the table has an effect in every state. Safe. -/
  | none
  deriving DecidableEq, Repr

/-- Why a command has no meaning. -/
inductive Refusal where
  /-- Raised by an arm of exec whose meaning is not written; safe, since the block stops there. -/
  | notModelled (mnemonic : String)
  deriving DecidableEq, Repr

/-! ## Time, reset and halt (spec/15, spec/16) -/

/-- The real-time clock, monotonic time and the count since reset (R518 to R522). -/
structure TimeState where
  /-- 64-bit seconds since 1970-01-01. -/
  sec : Nat
  /-- 15-bit sub-seconds. -/
  sub : Nat
  /-- TIM.STS.valid. -/
  valid : Bool
  /-- TIM.STS.pending: a SET waits for the wrap. -/
  pending : Bool
  /-- The pending SET was written less than one tick before the wrap (R520). -/
  late : Bool
  /-- TIM.STS.regressed. -/
  regressed : Bool
  /-- TIM.STS.commits. -/
  commits : Nat
  /-- Monotonic milliseconds. -/
  mono : Nat
  /-- Remainder of the millisecond accumulation, in 1/32,768 ms. -/
  monoRem : Nat
  /-- Ticks of 1/32,768 s since the last power-on or PERST_N (HST.HALT_TIME counts from there). -/
  ticks : Nat
  /-- The clock has been committed since power-on (R428). -/
  committed : Bool
  deriving DecidableEq, Repr

/-- What the integrity halt holds (R73, R77, Table 15-8). -/
structure HaltInfo where
  cause : Nat
  detail : Nat
  inst : Option Func
  /-- Microseconds since the last power-on or PERST_N. -/
  micros : Nat
  /-- Wall time of the record, 0 if the clock was not valid. -/
  wall : Nat
  /-- Firmware slot running. -/
  slot : Nat
  /-- Identity of the loaded set, for cause 0x07. -/
  setId : Nat
  /-- Failures detected after step 1, saturating. -/
  further : Nat
  /-- The record is in NVM, and its place in the ring with its halt sequence. -/
  nvmOk : Bool
  place : Nat
  hseq : Nat
  /-- What configuration space showed at step 1: the link stream Secure, and requests of the PF outstanding (Table 15-7). -/
  stream : Bool
  waits : Bool
  deriving DecidableEq, Repr

/-- How far start-up has come (Table 15-10, R479). -/
structure BootState where
  /-- HLT.BOOT. -/
  step : Nat
  slot : Nat
  fallback : Bool
  early : Bool
  dramFail : Bool
  /-- HLT.BOOT_TIME. -/
  bootMs : Nat
  rebuildMs : Nat
  /-- Milliseconds of the reference to step 8. -/
  step8Ms : Nat
  /-- Step 11 has ended, though step 10 may not have. -/
  mapDone : Bool
  /-- Step 12 has been reached: the first ready state (R480). -/
  ready : Bool
  deriving DecidableEq, Repr

/-- Reset and halt (Tables 15-9, 15-11 to 15-13). -/
structure HltState where
  /-- HLT.RST_CAUSE. -/
  por : Bool
  brownout : Bool
  perst : Bool
  haltBefore : Bool
  warmLink : Bool
  warmHot : Bool
  /-- A written record of the halt that preceded this start-up is still to be taken into the quarantine list (R204). -/
  quarDue : Bool
  /-- HLT.ACC_ERR and HLT.ACC_ADDR. -/
  accErr : Nat
  accAddr : Word
  /-- HLT.SUPPLY: a rail lies above its falling threshold. -/
  supply : Nat
  /-- HLT.RST_CNT.warm. -/
  warmCnt : Nat
  /-- Power-on reset is held. -/
  porHeld : Bool
  /-- PERST_N is qualified asserted. -/
  perstLow : Bool
  /-- A warm reset is in progress (R484). -/
  warming : Bool
  /-- The integrity halt, once begun. -/
  halt : Option HaltInfo
  deriving DecidableEq, Repr

/-! ## Event log (spec/16) -/

/-- One log entry (Table 16-2). -/
structure LogEntry where
  seq : Nat
  ev : Ev
  inst : Option Func
  wall : Nat
  wallValid : Bool
  early : Bool
  mono : Nat
  reps : Nat
  arg : Nat
  deriving DecidableEq, Repr

/-- A folding window of R503: repeats of one event since its last entry. -/
structure Fold where
  ev : Ev
  inst : Option Func
  count : Nat
  arg : Nat
  /-- Monotonic time at which the second ends. -/
  ends : Nat
  deriving DecidableEq, Repr

/-- The event log (R500 to R505). -/
structure LogState where
  /-- LOG.NEXT. -/
  next : Nat
  /-- The LPDDR ring, newest first, at most 4096 entries. -/
  ring : List LogEntry
  /-- The mirror in the staging store: entries by sequence number, newest first. -/
  mirror : List LogEntry
  /-- LOG.MIRROR: the oldest entry not yet mirrored. -/
  unmirrored : Nat
  /-- LOG.LOST. -/
  lost : Nat
  /-- LOG.EVT. -/
  evt : Nat
  folds : List Fold
  /-- Critical entries not yet in the NVM ring, oldest first, and the slot of the ring that the next one takes. -/
  critical : List LogEntry
  nvmNext : Nat
  deriving DecidableEq, Repr

/-! ## NVM, settings and firmware (spec/16) -/

/-- The firmware store of two slots (R496, R524, R525). -/
structure FwState where
  /-- Bytes held by slots A and B as far as staging wrote them. -/
  imageA : List Byte
  imageB : List Byte
  /-- HRN.FW_STAGED. -/
  staged : Nat
  /-- Version and security version of the running firmware. -/
  version : Nat
  secVersion : Nat
  deriving DecidableEq, Repr

/-- Settings store status (Table 16-11). -/
structure NvsState where
  copy : Nat
  fallback : Bool
  factory : Bool
  seq : Nat
  origin : Nat
  owner : Option (List Byte)
  formatArmed : Bool
  busy : Bool
  recovered : Bool
  writes : Nat
  /-- Content of the copy in force. -/
  content : List Byte
  deriving DecidableEq, Repr

/-! ## What the block sends -/

/-- The write strategy of one class of marks in 1/32 channel bit: dtop by preceding space, ttop, tlast, dtend, tcool (Table 09-9). -/
structure MarkShape where
  dtop2 : Int
  dtop3 : Int
  dtop4 : Int
  ttop : Nat
  tlast : Nat
  dtend : Int
  tcool : Nat
  deriving DecidableEq, Repr

/-- The interface of a NAND channel (R210). -/
inductive NandIf where
  | sdr
  | ddr2
  | ddr3
  deriving DecidableEq, Repr

/-- A channel's interface, timing mode and data rate in MT/s. -/
structure NandMode where
  kind : NandIf
  mode : Nat
  rate : Nat
  deriving DecidableEq, Repr

/-- What GET FEATURES and SET FEATURES name (Table 06-1). -/
inductive NandFeature where
  | timing (m : NandMode)
  | odt
  | drive
  | retry (addr level : Nat)
  deriving DecidableEq, Repr

/-- The ONFI commands of Table 06-1 beside those that the staging store's pages, erases and reads stand for. -/
inductive NandCmd where
  | reset
  | syncReset
  | readId
  | readParameterPage
  | getFeatures (f : NandFeature)
  | setFeatures (f : NandFeature)
  | volumeSelect
  | odtConfigure
  | readStatus
  deriving DecidableEq, Repr

/-- An output of the block: a request on the link, a line on the debug UART, a frame to a laser driver, a medium's operation.
DESIGN CHOICE, log entry 12. -/
inductive Emit where
  /-- An ONFI command to a die (Table 06-1). -/
  | nand (die : Nat) (c : NandCmd)
  /-- MSI-X message of a function's vector. -/
  | msix (f : Func) (v : Nat)
  /-- A DMA write: function, host address, Relaxed Ordering, bytes. -/
  | dmaWrite (f : Func) (addr : Nat) (ro : Bool) (bytes : List Byte)
  /-- A DMA read request. -/
  | dmaRead (f : Func) (tag addr len : Nat) (ro : Bool)
  /-- The bytes that a read of registers or of configuration space returned, in address order. -/
  | readData (f : Func) (off : Nat) (bytes : List Byte)
  /-- An LTR message: the latency tolerance in µs (R64). -/
  | ltr (us : Nat)
  /-- A completion of the halted-state responder or to a configuration request: success with a value, UR, or CRS. -/
  | cplValue (f : Func) (v : Nat)
  | cplUr (f : Func)
  | cplCrs (f : Func)
  /-- An advisory non-fatal error report (R53). -/
  | aer (f : Func)
  /-- Answers on the DOE mailbox: DOE Discovery with an object type and the next index; the SPDM versions, capability flags and
  algorithms; any other SPDM response by its code, an SPDM error, an IDE_KM status. -/
  | doeDiscovery (typ next : Nat)
  | spdmVersions (l : List Nat)
  | spdmCapabilities (version flags : Nat)
  | spdmAlgorithms (asym hash dhe aead : Nat)
  | spdm (code : Nat)
  | spdmUnsupported
  | spdmError
  | measurement (index value : Nat)
  | ideKm (op status : Nat)
  /-- A line on the debug UART (R533). -/
  | uart (line : List Byte)
  /-- The JTAG debug access port's answer. -/
  | jtag (v : Word)
  | jtagError
  /-- ZQ CALIBRATION LONG on a NAND channel (Table 06-1). -/
  | zqCal (channel : Nat)
  /-- A 24-bit frame on a laser serial port (R331). -/
  | laserFrame (d frame : Nat)
  /-- A slot recorded on a drive: PBA, block content, and the write strategy in force by class of mark, from which the pulses on WSP[3:0]
  follow (R279, R282, R328). -/
  | slot (d pba : Nat) (content : List Byte) (shapes : List MarkShape)
  deriving DecidableEq, Repr

/-! ## Link and configuration space (spec/02) -/

/-- A MSI-X table entry (R55). -/
structure MsixEntry where
  addr : Nat
  data : Nat
  masked : Bool
  deriving DecidableEq, Repr

/-- The configuration-space fields of one function that bear on the block (R41 to R63). -/
structure FnCfg where
  mse : Bool
  bme : Bool
  ro : Bool
  /-- Encodings of Max Payload Size and Max Read Request Size. -/
  mps : Nat
  mrrs : Nat
  extTag : Bool
  tag10 : Bool
  /-- Completion Timeout Value and Disable. -/
  cto : Nat
  ctoDis : Bool
  msixEn : Bool
  fmask : Bool
  /-- AER: correctable and uncorrectable error status (R41, R53). -/
  aerCor : Nat
  aerUnc : Nat
  deriving DecidableEq, Repr

/-- PF-only configuration space and link state (R45 to R50, R63). -/
structure LinkState where
  up : Bool
  rate : Nat
  width : Nat
  targetRate : Nat
  aspmL1 : Bool
  /-- The enable bits of L1.2 and L1.1 in L1 PM Substates Control 1. -/
  l1ss : Nat
  /-- LTR Mechanism Enable, and the latency tolerance in µs last reported (R64). -/
  ltrEn : Bool
  ltr : Nat
  d3 : Bool
  vfEnable : Bool
  vfMse : Bool
  ari : Bool
  /-- ARI Capable Hierarchy when VF Enable was last set. -/
  ariInForce : Bool
  numVfs : Nat
  pageSize : Nat
  subsystemId : Nat
  /-- HST.LINK_CNT1 and HST.LINK_CNT2. -/
  linkDown : Nat
  cplTimeout : Nat
  poisoned : Nat
  urCa : Nat
  /-- Stored configuration fields to which the spec gives no effect here, by function and offset. -/
  misc : Bank Word
  deriving DecidableEq, Repr

/-- One direction of one sub-stream of the link stream: key sets 0 and 1 and the set in use (R67, R69). -/
structure IdeDir where
  key0 : Option Nat
  key1 : Option Nat
  /-- The key set in use. -/
  cur : Nat
  /-- Sets started by K_SET_GO and not stopped. -/
  live0 : Bool
  live1 : Bool
  /-- The transmit invocation counter of the set in use reached its limit. -/
  held : Bool
  /-- Sets whose counter reached its limit since they were programmed: a K_SET_GO of one of them lifts no hold. -/
  spent0 : Bool
  spent1 : Bool
  deriving DecidableEq, Repr

/-- SPDM sessions, the DOE mailbox and the link stream (R65 to R72). -/
structure SecState where
  /-- Established or negotiating sessions: number and whether established. -/
  sessions : List (Nat × Bool)
  doeBusy : Bool
  doeError : Bool
  doeIen : Bool
  secure : Bool
  streamEn : Bool
  pcrc : Bool
  /-- Directions: 0 to 2 receive posted, non-posted, completion; 3 to 5 transmit. -/
  dirs : List IdeDir
  /-- The SPDM version negotiated, as its two digits: 0x11 or 0x12; 0 before the first GET_CAPABILITIES. -/
  version : Nat
  /-- Completions that wait for the completion sub-stream, oldest first (R69). -/
  cplWait : List Emit
  deriving DecidableEq, Repr

/-! ## Instances, mailbox, metering (spec/03) -/

/-- Instance states (Table 03-1). -/
inductive IState where
  | idle
  | active
  | resetting
  | removing
  | draining
  deriving DecidableEq, Repr

/-- The counters of Table 03-10. -/
structure Meter where
  bytesWritten : Nat
  bytesRead : Nat
  bytesArchived : Nat
  occupancy : Nat
  bytesArchiveRead : Nat
  verifyBlocks : Nat
  commands : Nat
  deriving DecidableEq, Repr

/-- A billing period (Table 03-11). -/
structure Period where
  index : Nat
  /-- The flags of bytes 4 and 5. -/
  flags : Nat
  wallStart : Nat
  closing : Nat
  /-- Monotonic time at the opening while open, the span once closed. -/
  mono : Nat
  meter : Meter
  deriving DecidableEq, Repr

/-- The commit record of COMMIT_SEGMENT (R162). -/
structure CommitRec where
  rid : Nat
  seg : Nat
  pos : Nat
  archived : Bool
  /-- Set that carries it, once archived. -/
  setId : Nat
  deriving DecidableEq, Repr

/-- An entry of the duplicate window: the 16 bytes of the completion once completed (R160). -/
structure WinEntry where
  rid : Nat
  cmd : Nat
  done : Option (Nat × Nat × Bool)
  deriving DecidableEq, Repr

/-- Why an instance is being reset (Table 03-6, RESET_DONE cause). -/
structure ResetProg where
  /-- 1 INSTANCE_RESET, 2 FLR, 3 warm reset, 4 VF Enable cleared, 5 removal. -/
  cause : Nat
  /-- Last step of Table 03-3 reached: 2, or 5 once acknowledged. -/
  step : Nat
  /-- Manager commands acknowledged at step 5. -/
  acks : List Nat
  /-- The configuration space takes its reset values too (function-level reset). -/
  flr : Bool
  dropped : Nat
  discarded : Nat
  deriving DecidableEq, Repr

/-- An instance record with the live parts that belong to the instance (R85, R105 to R109). -/
structure Instance where
  state : IState
  gen : Nat
  nsSize : Nat
  quota : Nat
  warnPct : Nat
  warnArmed : Bool
  minHold : Nat
  legalHold : Bool
  /-- Units held in the staging store (R105), and reserved (R106). -/
  used : Nat
  reserved : Nat
  /-- A quota refusal is in force (R102). -/
  refusing : Bool
  /-- Newest closed boundary, interval, the open period and the closed ones, newest first. -/
  bc : Nat
  interval : Nat
  opened : Option Period
  closed : List Period
  /-- Serial of the wrapped instance key, and whether it is held unwrapped. -/
  keySerial : Option Nat
  /-- The wrapped key record of 64 bytes (Table 05-2); empty without a key. -/
  wrapped : List Byte
  keyLive : Bool
  keyLost : Bool
  commits : List CommitRec
  window : List WinEntry
  reset : Option ResetProg
  /-- Chain digest that the next archive block carries, none before the first of this life; the sequence number last taken. -/
  chain : Option Nat
  arcSeq : Nat
  arcHigh : Nat
  /-- The chain digest after the last verified block, and that block's sequence number plus one (R37). -/
  chainOk : Option Nat
  seqOk : Nat
  /-- First segment number of the present life (R284). -/
  firstSeg : Nat
  /-- Unit sequence counter and its reserved high-water mark (R191). -/
  unitSeq : Nat
  unitHigh : Nat
  /-- The reserved marks of unit and archive sequences that NAND holds (R191, R194). -/
  unitDur : Nat
  arcDur : Nat
  /-- Bytes 256 to 4095 of the policy page, and the status page. -/
  policy : Bank Byte
  status : Bank Byte
  /-- Bytes 24 to 31 of the policy page: the used field as last updated. -/
  shownUsed : Nat
  /-- The last even policy sequence. -/
  evenSeq : Nat
  /-- The instance has been told of the wait of R35 in this waiting period. -/
  waitLogged : Bool
  deriving DecidableEq, Repr

/-- A mailbox message (Table 03-5): 64 bytes, with what the queue rules need. -/
structure Msg where
  typ : Nat
  gen : Nat
  peer : Nat
  body : List Byte
  seq : Nat
  /-- VF that a RELAY comes from. -/
  relayFrom : Option Func
  deriving DecidableEq, Repr

/-- A submission ring's state (Table 04-17). -/
structure SqState where
  head : Nat
  /-- The tail that the last doorbell fetch read. -/
  tail : Nat
  err : Nat
  /-- Failed entry fetches in a row. -/
  fails : Nat
  /-- An entry fetch failed and waits for the next polling interval (Table 04-11). -/
  hold : Bool
  deriving DecidableEq, Repr

/-- A completion ring's state (Table 04-17, R157). -/
structure CqState where
  tail : Nat
  phase : Bool
  err : Nat
  /-- The cq_head of the last fetch. -/
  head : Nat
  /-- Entries written since the last signal. -/
  unsignalled : Nat
  deriving DecidableEq, Repr

/-- The doorbell page engine of one function (R131 to R138). -/
structure DbState where
  asleep : Bool
  sleepCount : Nat
  /-- Current polling interval in µs. -/
  interval : Nat
  /-- The next fetch is due at once (R133). -/
  dueNow : Bool
  /-- The next fetch is the extra one of sleep entry (R136). -/
  extra : Bool
  fails : Nat
  /-- Monotonic ms of the last fetch that found work or of the last completion. -/
  lastWork : Nat
  /-- The interval starts at poll_min with the next fetch that succeeds (R133). -/
  fresh : Bool
  /-- The device word waits until the function may issue requests (R51, R54, R63). -/
  wordDue : Bool
  deriving DecidableEq, Repr

/-- A function: configuration space, interrupts, mailbox, rings, task port (BAR0). -/
structure Fn where
  cfg : FnCfg
  msix : Bank MsixEntry
  pba : Nat
  /-- Steps 1 to 5 of a function-level reset are in progress (R60). -/
  flr : Bool
  insEvt : Nat
  rngEvt : Nat
  /-- Posted inbound slots, oldest first. -/
  posted : List Nat
  /-- Outbound slots that hold a message. -/
  outSlots : List (Nat × Msg)
  /-- The overflow queue, oldest first. -/
  overflow : List Msg
  nextSeq : Nat
  /-- A message was dropped since the last delivered one. -/
  dropped : Bool
  sq : List SqState
  cq : List CqState
  db : DbState
  spurious : Nat
  /-- SQ of the current turn and entries taken in it (R155). -/
  turnSq : Nat
  turnCnt : Nat
  tskBusy : Bool
  tskDone : Bool
  tskCpl : List Word
  deriving DecidableEq, Repr

/-! ## Commands in flight (spec/04) -/

/-- How far an accepted command has come. -/
inductive Stage where
  /-- Accepted, not started. -/
  | accepted
  /-- Started; its element list and input data are being read. -/
  | started
  /-- Its units are sealed and wait for their pages (WRITE), its media work runs. -/
  | media
  /-- It waits for a journal flush (R228). -/
  | flushing
  /-- A WRITE waits for staging space (R245). -/
  | space
  /-- Its completion is due. -/
  | due
  deriving DecidableEq, Repr

/-- A command in flight (R147). -/
structure Cmd where
  id : Nat
  fn : Func
  /-- Submission ring, or none for the task port. -/
  sq : Option Nat
  /-- The completion ring bound to that submission ring at the fetch. -/
  cq : Nat
  sqHead : Nat
  entry : List Byte
  epoch : Nat
  /-- Generation of the issuing instance at acceptance. -/
  gen : Nat
  stage : Stage
  /-- Units reserved for a WRITE (R106). -/
  reserved : Nat
  /-- Element list once read, as (address, length). -/
  elist : Option (List (Nat × Nat))
  /-- Input data read so far. -/
  data : List Byte
  /-- A policy in force at acceptance (R111): min_hold and legal_hold. -/
  minHold : Nat
  legalHold : Bool
  /-- Units of a WRITE: logical block, PUA, sequence number. -/
  placed : List (Nat × Nat × Nat)
  /-- The journal entry number that a completion waits for, and its status, result and REBUILT flag. -/
  waitSeq : Nat
  result : Nat
  /-- Monotonic time at which a space wait began. -/
  since : Nat
  /-- What a command carries to its completion: the key serial of an INSTANCE_START, the progress of a read of archive blocks. -/
  aux : Nat
  deriving DecidableEq, Repr

/-- A completion that is due (R145, R156). -/
structure Due where
  cmd : Nat
  fn : Func
  sq : Option Nat
  /-- The completion ring bound to that submission ring at the fetch. -/
  cq : Nat
  sqHead : Nat
  rid : Nat
  status : Nat
  dup : Bool
  rebuilt : Bool
  result : Nat
  deriving DecidableEq, Repr

/-- What an outstanding DMA read is for (R51, R53). -/
inductive ReadKind where
  | doorbell
  | entry (sq : Nat)
  | elist (cmd : Nat)
  | data (cmd : Nat)
  | leaf (line : Nat)
  | leafMac (line : Nat)
  /-- An entry fetch of a ring that has been disabled since: its data is dropped (R130). -/
  | void
  deriving DecidableEq, Repr

/-- An outstanding non-posted request. -/
structure DmaRead where
  tag : Nat
  fn : Func
  addr : Nat
  len : Nat
  kind : ReadKind
  deriving DecidableEq, Repr

/-- The configuration epoch (R112 to R115). -/
structure EpochState where
  cur : Nat
  pending : Bool
  late : Bool
  refused : Bool
  /-- CFG.EPOCH_ADOPT. -/
  adopt : Nat
  /-- Drives of RDC and WST, and axes of SRV, that have switched in this commit (bits 6 and 7). -/
  drives : Nat
  axes : Nat
  /-- Adoption timeout of the commit in ms, the monotonic time of the commit, and whether that timeout has ended (R115). -/
  tmo : Nat
  since : Nat
  timedOut : Bool
  deriving DecidableEq, Repr

/-! ## The flash staging store (spec/06) -/

/-- Roles of a band (R214). -/
inductive Band.Role where
  | host
  | system
  | gc
  | cold
  deriving DecidableEq, Repr

/-- A block's place in its life (Table 06-7, block table). -/
inductive BlockUse where
  | free
  | opened
  | closed
  | erasing
  | retired
  deriving DecidableEq, Repr

/-- A row of the block table. -/
structure BlockRec where
  use : BlockUse
  erases : Nat
  band : Nat
  /-- Not erased since a format that found no markers (R236): its erase comes as its band opens. -/
  stale : Bool
  deriving DecidableEq, Repr

/-- A band: its number, role, blocks by die in die order, and how far it is filled (R214). -/
structure Band where
  num : Nat
  role : Band.Role
  /-- (die, block) pairs in die order. -/
  blocks : List (Nat × Nat)
  /-- Dies left out of every later stripe (R244, R245), and those left out of each stripe so far: from which page index on, newest first. -/
  left : List Nat
  hist : List (Nat × List Nat)
  /-- Stripes begun whose parity page has not been programmed, by page index (R216). -/
  bare : List Nat
  /-- Next page index, and the next position among the dies of that stripe. -/
  page : Nat
  pos : Nat
  isOpen : Bool
  /-- Its valid units have been moved; its blocks are erased once the journal has reached this entry number. -/
  eraseAt : Option Nat
  deriving DecidableEq, Repr

/-- A sealed unit in NAND: the tag slot's fields, the serial of the key it is sealed under, and its content (Tables 05-3, 06-5). -/
structure UnitRec where
  kind : Nat
  inst : Nat
  lbn : Nat
  seq : Nat
  mono : Nat
  gen : Nat
  idx : Nat
  cnt : Nat
  group : Nat
  moved : Bool
  key : Nat
  data : List Byte
  deriving DecidableEq, Repr

/-- A page that has been issued to its die, or fills: its first PUA and its units by slot. -/
structure PageProg where
  pua : Nat
  role : Band.Role
  units : List UnitRec
  /-- Commands that wait for it. -/
  cmds : List Nat
  /-- Its issue waits: the store is quiesced (R231). -/
  queued : Bool
  deriving DecidableEq, Repr

/-- Journal entries (Table 06-6). -/
inductive JEntry where
  | map (i lbn pua seq : Nat)
  | discard (i lbn cnt seq : Nat)
  | move (i lbn pua seq old : Nat) (displaced : Bool)
  | leaf (i idx pua : Nat)
  | pin (i lbn cnt rid seg pos : Nat)
  | displace (i lbn pua seg : Nat)
  | unpin (i seg : Nat)
  | band (die : Nat) (role : Band.Role) (reserved : Bool) (num block erases : Nat)
  | retire (die block reason : Nat)
  | record (i gen pua : Nat) (rec : Instance) (lim : Word)
  | frontier (role : Band.Role) (num page : Nat)
  | highwater (i : Nat) (arch : Bool) (v : Nat)
  | lost (i lbn cnt : Nat) (old : Option Nat)
  | dieFail (die : Nat)
  | logMap (blk pua seq : Nat)
  deriving DecidableEq, Repr

/-- A journal unit (R225): its journal sequence, the sequence of the root it follows, where it lies, and its entries. -/
structure JUnit where
  seq : Nat
  root : Nat
  pua : Nat
  entries : List JEntry
  deriving DecidableEq, Repr

/-- A pinned segment in the archive queue (R27, R28, Table 06-7 pin table). -/
structure Segment where
  num : Nat
  inst : Nat
  lbn : Nat
  cnt : Nat
  rid : Nat
  /-- Archive blocks of the segment. -/
  blocks : Nat
  /-- Pinned units that no logical block maps any more: (logical block, PUA). -/
  displaced : List (Nat × Nat)
  /-- Admitted to the formatter (R290). -/
  active : Bool
  /-- The index of the next archive block to format, and the blocks whose stripes are verified. -/
  formatted : Nat
  verified : List Nat
  rebuilt : Bool
  replaced : Bool
  /-- A staging read failed for good: the segment stays pinned (Table 01-3). -/
  broken : Bool
  /-- Unpinned; its ARCHIVE_DONE waits for the flush of this entry number. -/
  unpinAt : Option Nat
  /-- Chain digest of its last block. -/
  chain : Nat
  /-- Set that carries it. -/
  setId : Nat
  deriving DecidableEq, Repr

/-- Where the current copy of a leaf lies (R217). -/
inductive LeafLoc where
  | nowhere
  | pool
  | host
  | nand
  deriving DecidableEq, Repr

/-- A top-level entry of the map (R217). -/
structure LeafRec where
  loc : LeafLoc
  /-- The PUA of its newest NAND copy, and of the one before it (R243). -/
  pua : Nat
  prev : Nat
  version : Nat
  dirty : Bool
  /-- The place of its copy in the host-held region, in leaves. -/
  slot : Nat
  deriving DecidableEq, Repr

/-- A root checkpoint (Table 06-7), held as what it stores. -/
structure RootSnap where
  seq : Nat
  map : Bank Nat
  inst : Bank Instance
  limits : Bank Word
  blocks : Bank BlockRec
  bands : List Band
  leaves : Bank LeafRec
  segs : List Segment
  archived : Bank Nat
  logMap : Bank Nat
  /-- W of each instance (Table 06-7). -/
  watermark : Bank Nat
  stripeSet : Nat
  /-- Dies declared failed, and the blocks retired since format. -/
  failed : List Nat
  retired : Nat
  deriving DecidableEq, Repr

/-- A root checkpoint whose header page has not reported success (R229): the header's PUA, and the root. -/
structure RootWait where
  pua : Nat
  snap : RootSnap
  deriving DecidableEq, Repr

/-- A copy of the anchor (R230): its die, its two blocks, which of them is written, and the next page there. -/
structure AnchorCopy where
  die : Nat
  blocks : Nat × Nat
  second : Bool
  page : Nat
  deriving DecidableEq, Repr

/-- A die (R209, R245). -/
structure Die where
  present : Bool
  failed : Bool
  /-- Busy timeouts in a row after SYNCHRONOUS RESET. -/
  busy : Nat
  /-- Monotonic times of block retirements. -/
  retires : List Nat
  deriving DecidableEq, Repr

/-- The staging store. -/
structure FssState where
  ready : Bool
  formatted : Bool
  rebuild : Bool
  dieRebuild : Bool
  quiesced : Bool
  /-- Geometry: dies, pages per block, blocks per die, overprovision percent. -/
  dies : List Die
  ppb : Nat
  blocksPerDie : Nat
  op : Nat
  /-- FSS.CAP, in units. -/
  cap : Nat
  /-- FSS.NAND_CFG. -/
  nandCfg : Word
  /-- Block table by die × 65,536 + block, and the bands not erased. -/
  blocks : Bank BlockRec
  bands : List Band
  nextBand : Nat
  /-- NAND content by PUA. -/
  units : Bank UnitRec
  /-- The pages that fill, by role, and the pages issued. -/
  fill : List PageProg
  progs : List PageProg
  /-- The map by instance × 2^32 + logical block. -/
  map : Bank Nat
  /-- Leaves by instance × 2^22 + index, and the hot pool, most recent first. -/
  leaves : Bank LeafRec
  pool : List Nat
  /-- Logical blocks whose staged content is archived, by the sequence of the archived unit plus one (R109). -/
  archived : Bank Nat
  /-- The archive queue. -/
  segs : List Segment
  /-- Journal: entries made in all, flushed in all, entries not yet issued, the flush in progress. -/
  jMade : Nat
  jDone : Nat
  jWait : List JEntry
  jFlight : List JUnit
  jFlying : Bool
  /-- Map updates not flushed, and the time of the oldest. -/
  jUpdates : Nat
  jOldest : Nat
  jUnits : Nat
  /-- Blocks listed by the last flush for the allocator: (role code, die, block). -/
  reserved : List (Nat × Nat × Nat)
  /-- On NAND: the newest complete root, the journal entries that follow it, the anchor. -/
  root : Option RootSnap
  jLog : List JUnit
  rootSeq : Nat
  rootTime : Nat
  /-- The journal sequence at the newest root, and the checkpoint-structure sequence (R229). -/
  rootUnits : Nat
  ckptSeq : Nat
  rootWait : Option RootWait
  /-- The wrapped key records of the root before the newest one (R178). -/
  prevKeys : Bank (List Byte)
  anchor : Bool
  anchorSeq : Nat
  anchorKeySlot : Nat
  anchorErased : Bool
  /-- The two copies of the anchor, the unit of their newest pages, and its wear summary: lowest, highest erase count and retired blocks of
  each die (R230). -/
  anchors : List AnchorCopy
  anchorImg : List Byte
  anchorWear : List (Nat × Nat × Nat)
  /-- Log mirror table by mirror block (R504). -/
  logMap : Bank Nat
  /-- Counters of Table 06-12. -/
  retried : Nat
  rebuilt : Nat
  lost : Nat
  retired : Nat
  rbTime : Nat
  /-- Host-held region: FSS.HREG_CTL. -/
  hregEn : Bool
  hregBusy : Bool
  hregErr : Bool
  /-- Blocks taken out of their bands, to be erased once the journal has reached an entry number: (die, block, number). -/
  solo : List (Nat × Nat × Nat)
  /-- The channels' interface modes (R210). -/
  modes : List NandMode
  /-- Garbage collection has begun and not yet reached 12 free bands (R237). -/
  gcOn : Bool
  deriving DecidableEq, Repr

/-! ## The sealing boundary (spec/05) -/

/-- A copy of a root key (R170): the key, and a check word that reads otherwise than the key's own; none where it is the key's own. -/
structure OtpCopy where
  key : List Byte
  check : Option (BitVec 32)
  deriving DecidableEq, Repr

/-- A root key slot of the OTP array: two copies (R170). -/
structure OtpSlot where
  programmed : Bool
  first : OtpCopy
  second : OtpCopy
  deriving DecidableEq, Repr

/-- The keys drawn at boot, 256 bits each (Table 05-1): XTS data and tweak key and MAC key of LPDDR, and of host-held leaves. -/
structure LineKeys where
  kd1 : Nat
  kd2 : Nat
  kdm : Nat
  kh1 : Nat
  kh2 : Nat
  khm : Nat
  deriving DecidableEq, Repr

/-- A quarantined location (R204): a NAND page, or a block of a stripe set. -/
inductive QuarLoc where
  | page (die block page : Nat)
  | disc (set drive pba : Nat)
  deriving DecidableEq, Repr

/-- The sealing block. -/
structure SeaState where
  /-- OTP: root slots 0 to 3 and the revocation field. -/
  otp : List OtpSlot
  revoked : Nat
  /-- SEA.STS. -/
  otpOk : Bool
  slot : Nat
  /-- The second copy of the active slot is the one used. -/
  useSecond : Bool
  copyFail : Bool
  rngOk : Bool
  selftestOk : Bool
  sweepDone : Bool
  /-- Monotonic ms since which the random source is stopped. -/
  rngDown : Nat
  /-- Generate requests since the last reseed, reseeds made, and keys drawn (R176). -/
  drbgCount : Nat
  reseeds : Nat
  drawn : Nat
  /-- LPDDR size in MiB, and the watermark in lines of 64 bytes (R186). -/
  lpddrMib : Nat
  sweepLines : Nat
  /-- KWK, 32 bytes, and the keys drawn at boot; none when zeroised or not yet drawn. -/
  kwk : Option (List Byte)
  kd : Option LineKeys
  /-- SEA.RETRY_CNT, SEA.REPAIR_CNT. -/
  retryDram : Nat
  retryLeaf : Nat
  repairFlash : Nat
  repairArc : Nat
  /-- SEA.RC_VIOL, SEA.RC_ADDR, and the last logged refusal of each initiator. -/
  violCount : Nat
  violInit : Nat
  violAddr : Nat
  violLog : List (Nat × Nat)
  /-- The quarantine list in NVM, newest first, at most 64 (R204). -/
  quar : List QuarLoc
  /-- Monotonic ms of the last known-answer tests. -/
  lastTest : Nat
  deriving DecidableEq, Repr
/-! ## The map cache (spec/07) -/

/-- A valid line of the map cache (R250): its tag, the version of its leaf, its 16 map entries, and its parity bits: bit `k` over data byte
group `k`, bit 8 over tag, version, valid and dirty. -/
structure MLine where
  tag : Nat
  version : Nat
  dirty : Bool
  entries : List Nat
  par : Nat
  deriving DecidableEq, Repr

/-- A way's parity counts (R268, R269): faults in the open window, in all, and the time at which the window opened. -/
structure WayCount where
  inWindow : Nat
  total : Nat
  opened : Nat
  /-- Out of replacement, while its dirty lines wait to be written back. -/
  closing : Bool
  deriving DecidableEq, Repr

/-- A leaf line being fetched from the host-held region (R53): its number, attempts made, whether the last one failed, and the READs
that wait for it. -/
structure LeafFetch where
  line : Nat
  attempts : Nat
  failed : Bool
  /-- The line's check failed once (Table 05-5), and the ciphertext read, while its MAC is read. -/
  bad : Bool
  text : List Byte
  cmds : List Nat
  /-- The line is read for a promotion: the leaf and the version it is checked under (R251). -/
  promo : Option (Nat × Nat)
  /-- The line passed its check; its fill waits for the write-back of its victim (R252, R255). -/
  passed : Bool
  deriving DecidableEq, Repr

/-- The map cache. -/
structure MchState where
  /-- Valid lines by set × 8 + way; an unlisted one is invalid. -/
  lines : Bank (Option MLine)
  /-- The 7-bit pseudo-LRU tree of each set. -/
  plru : Bank Nat
  invOk : Bool
  /-- A maintenance operation in progress: op, mode. -/
  op : Option (Nat × Nat)
  done : Bool
  aborted : Bool
  refused : Bool
  written : Nat
  evt : Nat
  ways : List WayCount
  /-- MCH.WAY_STS. -/
  off : Nat
  auto : Nat
  hits : Nat
  misses : Nat
  deriving DecidableEq, Repr

/-! ## The archive (spec/08) -/

/-- A block of a stripe before recording: kind 1 data or 3 filler, its segment's place, and its body of header and sealed data (R282,
R283, R292). -/
structure ArcBlock where
  kind : Nat
  inst : Nat
  seg : Nat
  idx : Nat
  seq : Nat
  body : List Byte
  deriving DecidableEq, Repr

/-- A stripe formatted or in recording (R293): its number, three data blocks, home and present PBA, the disc positions it is recorded on,
those that started, ended and were verified. -/
structure Stripe where
  num : Nat
  blocks : List ArcBlock
  home : Nat
  pba : Nat
  on : List Nat
  ok : List Nat
  /-- A block failed verification or a gate closed: the stripe is replaced whole once its other drives have ended (R40, R294). -/
  bad : Bool
  /-- Results not yet known: positions. -/
  open_ : List Nat
  deriving DecidableEq, Repr

/-- What the FR says of an instance (Table 08-11). -/
structure FrEntry where
  inst : Nat
  seq : Nat
  digest : Nat
  blocks : Nat
  deriving DecidableEq, Repr

/-- A block of a stripe wanted for a read: its disc position, whether its read has ended, and its content when it was readable. -/
structure ArcPart where
  pos : Nat
  ended : Bool
  content : Option (List Byte)
  deriving DecidableEq, Repr

/-- How the read of an archive block stands (R303). -/
inductive ArcEnd where
  | waits
  | good
  | rebuilt
  | lost
  deriving DecidableEq, Repr

/-- A block that an ARCHIVE_READ or VERIFY reads: the command, the block's index (none for the predecessor of R196), its stripe and
position, the parts wanted, whether its own tag failed, the content found. -/
structure ArcRead where
  cmd : Nat
  idx : Option Nat
  inst : Nat
  seg : Nat
  blk : Nat
  stripe : Nat
  pos : Nat
  parts : List ArcPart
  tagBad : Bool
  fin : ArcEnd
  body : List Byte
  /-- For a predecessor: the commit record names it, so a link that it does not match is broken (R196). -/
  sure : Bool
  deriving DecidableEq, Repr

/-- The stripe set and the formatter. -/
structure ArcState where
  loaded : Bool
  setId : Nat
  layers : Nat
  /-- Disc position by drive, and drives holding a blank disc. -/
  pos : List (Option Nat)
  blank : List Bool
  finalised : Bool
  full : Bool
  total : Nat
  /-- Next stripe to record, and the session number in force. -/
  next : Nat
  /-- The stripe being filled. -/
  form : Nat
  session : Nat
  rebuilding : Bool
  /-- Drives treated as absent for writing until the next load (R305). -/
  absent : List Nat
  /-- Degraded stripes. -/
  degraded : List Nat
  /-- Active segments in rotation order (R291). -/
  active : List Nat
  /-- The partly filled stripe's blocks, and the monotonic time of the last block placed (R292). -/
  part : List ArcBlock
  idle : Nat
  /-- Stripes formatted and waiting, and in recording or verification. -/
  ready : List Stripe
  going : List Stripe
  /-- Runs indexed on the set, runs pending, replacements by home PBA (newest first), pending ones. -/
  index : List SrRun
  pend : List SrRun
  rl : List (Nat × Nat)
  pendRl : List (Nat × Nat)
  /-- Time of the oldest pending entry, stripes completed since the last SR, first stripe that the next SR covers. -/
  pendSince : Nat
  sinceSr : Nat
  covered : Nat
  srSeq : Nat
  rlSeq : Nat
  srUsed : Nat
  rlUsed : Nat
  sidUsed : Nat
  frUsed : Nat
  /-- Spare slots used by layer × 40 + zone. -/
  spare : Bank Nat
  fr : List FrEntry
  replaced : Nat
  rebuilt : Nat
  lost : Nat
  structs : Nat
  /-- The set structures that stand on the discs but for the SID: the newest RL, the SRs, the FR, each with its kind, slot and body. -/
  copies : List (Nat × Nat × List Byte)
  /-- Stripes that the rebuild in progress, or the last one, has recorded. -/
  redone : Nat
  /-- The set named in instance 0's record (R485). -/
  named : Nat
  /-- Admission has stopped for a finalisation (R302). -/
  closing : Bool
  /-- A start-up set reload is due (R485); chain heads come from the set at the next load (R37, R195). -/
  reloadDue : Bool
  chainsDue : Bool
  /-- Archive blocks being read. -/
  reads : List ArcRead
  deriving DecidableEq, Repr

/-! ## The drives (spec/09 to spec/12) -/

/-- Axis states (Table 10-2). -/
inductive AxState where
  | off
  | opened
  | ramp
  | closed
  | seq
  | lateOpen
  | fail
  deriving DecidableEq, Repr

/-- The state variables of one biquad (R346). -/
structure Biquad where
  x1 : Int
  x2 : Int
  y1 : Int
  y2 : Int
  deriving DecidableEq, Repr

/-- One servo axis (R346 to R368). -/
structure Ax where
  st : AxState
  manual : Bool
  /-- Active coefficient bank, and a swap that waits for the next sample. -/
  bank : Nat
  swapPending : Bool
  /-- The swap that waits was made by Avocet, with bumpless = 1 (R431). -/
  bumpless : Bool
  b1 : Biquad
  b2 : Biquad
  i : Int
  d : Int
  vprev : Int
  /-- The next on-time sample is sample 0 of Table 10-3. -/
  fresh : Bool
  /-- Set-point in force, last error, last applied output. -/
  sp : Int
  err : Int
  out : Int
  /-- The last value of a source that was not faulted (R357). -/
  spHeld : Int
  srcFault : Bool
  /-- The hold of R357 has expired. -/
  heldOver : Bool
  faultSince : Nat
  /-- SRV.AX_STS.late_run and late_cnt. -/
  lateRun : Nat
  lateCnt : Nat
  /-- On-time computations in a row in LATE_OPEN (R368). -/
  onTime : Nat
  locked : Bool
  /-- Samples in a row inside the window while unlocked, outside it while locked (R354). -/
  lockCnt : Nat
  /-- A ramp to REST in progress: where it began, samples made, samples in all (Table 10-6). -/
  rampFrom : Int
  rampDone : Nat
  rampLen : Nat
  /-- Injection phase, in 2^-32 turn (R347). -/
  phase : Nat
  /-- SRV.COMP_T. -/
  compLast : Nat
  compMax : Nat
  deriving DecidableEq, Repr

/-- Which step of a layer jump is under way (R361). -/
inductive JumpStep where
  | kick
  | below
  | above
  | brake
  | cross
  deriving DecidableEq, Repr

/-- A sequence that drives FOC or TRK (R360 to R363). -/
inductive Seq where
  | none
  /-- Acquisition of a layer: samples into the sweep, S-curves begun in this rising half, inside an S-curve, rising halves made. -/
  | acquire (layer n curves : Nat) (inside : Bool) (halves : Nat)
  /-- Layer jump: target layer, step, samples in the step, samples in all, output before it. -/
  | jump (layer : Nat) (step : JumpStep) (n all : Nat) (base : Int)
  /-- Short seek: tracks, direction, crossings counted, output before it. -/
  | short (tracks : Nat) (dir : Int) (crossings : Nat) (base : Int)
  /-- Long seek: the sled moves. -/
  | long
  deriving DecidableEq, Repr

/-- A limit group (R358, R359): the winner, the demand, and the integrators of its PI members. -/
structure LimGroup where
  winner : Nat
  demand : Int
  i1 : Int
  i2 : Int
  i3 : Int
  deriving DecidableEq, Repr

/-- Spindle drive states (Table 11-1). -/
inductive SpState where
  | stopped
  | waitGrant
  | detect
  | start
  | run
  | lost
  | brake
  | fault
  deriving DecidableEq, Repr

/-- What follows a BRAKE (R375, R391, R393, Table 11-3). -/
inductive AfterBrake where
  | stop
  | restart
  | fault (code : Nat)
  deriving DecidableEq, Repr

/-- The spindle drive (spec/11). -/
structure Spindle where
  st : SpState
  /-- SPN.STS. -/
  fault : Nat
  keFault : Bool
  locked : Bool
  grant : Bool
  retries : Nat
  /-- The spin-up grant of this start has been returned (R376, R471). -/
  returned : Bool
  /-- SPN.START.i_start as the forced step in progress holds it (corner of spec/11). -/
  iStart : Nat
  /-- Step of Table 11-2, detection runs made, forced speed in 1/1000 rpm, accepted crossings in a row. -/
  step : Nat
  detRuns : Nat
  forced : Nat
  crossRun : Nat
  aligning : Bool
  /-- An accepted crossing or a miss has scheduled the next commutation. -/
  due : Bool
  /-- The 1 s wait after a locked rotor, or a reacquired rotor whose axis is still in LATE_OPEN. -/
  waiting : Bool
  /-- Intervals between accepted commutation events in ns, newest first, at most 72. -/
  intervals : List Nat
  /-- SPN.COMCNT, and events since the last whole revolution. -/
  events : Nat
  inRev : Nat
  misses : Nat
  /-- Duty in 1/256; periods cut in a row; sum of shunt current × duty and number of periods since the last budget sample (R468). -/
  duty : Nat
  cuts : Nat
  pSum : Nat
  pNum : Nat
  /-- Monotonic times of rotor losses; SPN.CNT. -/
  losses : List Nat
  lossCnt : Nat
  lockedCnt : Nat
  /-- Revolutions in a row inside the tolerance (R388). -/
  goodRevs : Nat
  /-- The set-point held at a rotor loss (Table 11-3), Q4.28. -/
  heldSp : Int
  /-- SPN.KE_MEAS; sum and number of samples in this revolution; revolutions in a row outside the tolerance (R391). -/
  ke : Nat
  keSum : Nat
  keNum : Nat
  keBad : Nat
  after : AfterBrake
  /-- Estimates below 60 rpm in a row (R389). -/
  probes : Nat
  /-- Monotonic time of the last work (R397), and the drive was stopped for idling. -/
  lastWork : Nat
  idled : Bool
  deriving DecidableEq, Repr

/-- Sled states (Table 12-1). -/
inductive SlState where
  | off
  | homing
  | hold
  | follow
  | travel
  | seek
  | fault
  deriving DecidableEq, Repr

/-- The sled drive (spec/12). -/
structure Sled where
  st : SlState
  homed : Bool
  /-- homed was cleared by a late planning tick only (R422). -/
  lateOnly : Bool
  clamped : Bool
  refused : Bool
  fault : Nat
  /-- Position, velocity and acceleration per tick, each with 16 fractional bits (R410). -/
  p : Int
  v : Int
  a : Int
  /-- Deceleration in force of the plan. -/
  tgt : Int
  /-- Step of a homing (R406): 2 the inward move, 3 the wait at 0, 4 the travel to the lead-in. -/
  home : Nat
  /-- Ticks of that wait. -/
  wait : Nat
  /-- It brakes to a stop; it parks; a park follows the homing. -/
  stopping : Bool
  parking : Bool
  parkNext : Bool
  boost : Nat
  /-- Monotonic times of declarations, of the last one or of the last decay; SLD.CNT and SLD.ERR. -/
  lostTimes : List Nat
  lastDecl : Nat
  lost : Nat
  late : Nat
  err : Int
  /-- The anchor of R407. -/
  anchored : Bool
  anchorP : Int
  anchorR : Int
  /-- Electrical index of the coils, coil targets of R401 in mA and duties of phases A and B. -/
  elec : Nat
  iA : Int
  iB : Int
  dutyA : Nat
  dutyB : Nat
  /-- Periods cut in a row, and periods of low current in a row, per phase. -/
  cutA : Nat
  cutB : Nat
  openA : Nat
  openB : Nat
  /-- Monotonic time at which an arrival is reported to the servo engine. -/
  report : Option Nat
  deriving DecidableEq, Repr

/-- Status of a frame at the decoder (R322). -/
inductive FrameStatus where
  | synced
  | shifted
  | inferred
  | unsync
  deriving DecidableEq, Repr

/-- The flywheel of a slot being read (R319 to R321). -/
structure Flywheel where
  lock : Bool
  /-- A sync has been accepted in this slot. -/
  seen : Bool
  /-- Position and frame of the base. -/
  base : Nat
  baseFrame : Nat
  /-- Frames in a row without an accepted sync. -/
  missed : Nat
  /-- A candidate of the frame being judged, and one of the frame judged last. -/
  here : Option Nat
  cand : Option Nat
  /-- Frames whose candidate was rejected. -/
  rejected : List Nat
  /-- The frames judged, from frame 0 on: status and position of the sync. -/
  frames : List (FrameStatus × Nat)
  deriving DecidableEq, Repr

/-- The last qualified peak, and what stood before it (R314). -/
structure LastPeak where
  up : Bool
  mag : Nat
  pk : Int
  nk : Int
  phi : Int
  bad : List (Nat × Nat)
  loss : Nat
  deriving DecidableEq, Repr

/-- The buffered slot of a read channel and the state of its filters (R311 to R317, R321). -/
structure Rx where
  /-- PBA of the slot in the buffer. -/
  pba : Option Nat
  /-- Samples taken since channel bit 0 of the slot. -/
  n : Nat
  /-- The last eight samples, newest first, and the last two values after DC restore. -/
  line : List Int
  r1 : Int
  r2 : Int
  /-- The baseline in 10.14 fixed point, the tracked peaks, the grid phase in 1/16 sample. -/
  b : Int
  pk : Int
  nk : Int
  phi : Int
  /-- Samples left in the hold span. -/
  hold : Nat
  /-- Channel bits that are 1 and the times of their peaks in 1/16 sample, newest first. -/
  ones : List (Nat × Int)
  last : Option LastPeak
  /-- Sync bodies whose ID is still to come. -/
  await : List Nat
  /-- Channel bit at which an active defect flag began; ended flags; spans of a wrong spacing. -/
  flagFrom : Option Nat
  defects : List (Nat × Nat)
  bad : List (Nat × Nat)
  /-- RF losses in the slot. -/
  loss : Nat
  fly : Flywheel
  deriving DecidableEq, Repr

/-- What the decode of a buffered slot gave (R288), with the items of Table 09-1. -/
structure Decoded where
  pba : Nat
  ok : Bool
  content : List Byte
  /-- The EDC matched after the first inner and first outer pass. -/
  edcFirst : Bool
  unsync : Nat
  inferred : Nat
  shifted : Nat
  rowsFailed : Nat
  rowMax : Nat
  flagged : Nat
  deriving DecidableEq, Repr

/-- The read channel of a drive (spec/09). -/
structure ReadChannel where
  clkLock : Bool
  /-- Wobble periods in a row within the lock limit, and the last 16 judged against the unlock limit, newest first (R307). -/
  lockRun : Nat
  beyond : List Bool
  started : Bool
  kbps : Nat
  rx : Rx
  decoded : Option Decoded
  /-- Retry in progress of the block being read (R326). -/
  retry : Nat
  inferred : Nat
  shifted : Nat
  unsync : Nat
  realigned : Nat
  readFail : Nat
  vfyFail : Nat
  idErr : Nat
  rfLoss : Nat
  ovr : Nat
  /-- RDC.ZW by layer × 64 + zone. -/
  zw : Bank Nat
  deriving DecidableEq, Repr

/-- The kept OPC result of a layer (R335, R336), and what led to it. -/
structure OpcRes where
  kept : Bool
  popt : Nat
  pind : Nat
  /-- Channel rate of the run in kbit/s. -/
  rate : Nat
  deriving DecidableEq, Repr

/-- The write strategy of a drive (spec/09). -/
structure WriteStrategy where
  gate : Bool
  /-- Stripe whose slot is being recorded. -/
  burst : Option Nat
  opcBusy : Bool
  opcFail : Bool
  pcaFull : Bool
  deferred : Bool
  opc : List OpcRes
  /-- OPC runs that the calibration area still has room for, by layer; layers of which an OPC is due. -/
  pca : List Nat
  opcDue : List Nat
  /-- Drive temperature at the last OPC, and milliseconds of recording since. -/
  opcTemp : Int
  recMs : Nat
  /-- Results of the last 256 recorded blocks, newest first: true is a failure. -/
  last : List Bool
  /-- The power levels last written to the laser driver, as the demand in Q4.28. -/
  sent : Int
  /-- Monotonic time since which the gate has been closed (R305). -/
  shutSince : Nat
  /-- LDEN is high. -/
  lden : Bool
  deriving DecidableEq, Repr

/-- A drive. -/
structure Drive where
  /-- A disc is qualified present. -/
  disc : Bool
  /-- FOC, TRK, SPN and SLD. -/
  ax : List Ax
  /-- Signals of the last FOC and TRK tick (R341, R342): FE, TE, S; FE and TE are valid; the sample is defect-held. -/
  fe : Int
  te : Int
  sum : Int
  valid : Bool
  /-- FE and TE of the tick before. -/
  fePrev : Int
  tePrev : Int
  /-- TE zero crossings seen in this tick. -/
  crossed : Nat
  flagged : Bool
  /-- The defect detector (R344). -/
  g : Int
  flag : Bool
  /-- Defect-held samples in a row, and samples with S below sum_min in a row. -/
  heldRun : Nat
  lowRun : Nat
  /-- The last 20 applied TRK outputs, newest first. -/
  trkOuts : List Int
  seq : Seq
  layer : Nat
  /-- Wobble position last held, target of a seek, confirmations failed. -/
  track : Nat
  target : Nat
  failed : Nat
  /-- A seek awaits its confirmation. -/
  confirm : Bool
  /-- TRK has closed on the nearest track after the sled's arrival; the short seek that follows belongs to the long one (R363). -/
  landed : Bool
  /-- Heron runs the start sequence (R350). -/
  starting : Bool
  spnGroup : LimGroup
  lasGroup : LimGroup
  spin : Spindle
  sled : Sled
  rdc : ReadChannel
  wst : WriteStrategy
  deriving DecidableEq, Repr

/-! ## Clocks, power and the fabric (spec/14) -/

/-- Clock sources, power mode and the frequency-measuring counter. Masks are in the bit order XT25, PE, XT32K. -/
structure ClockState where
  sel : Nat
  ok : Nat
  drift : Nat
  fault : Nat
  unresolved : Bool
  /-- 0 RUN, 1 SLEEP, 2 DEEP. -/
  mode : Nat
  rtcDiv : Bool
  /-- Deviations of the pairs XT25-PE, XT25-XT32K and PE-XT32K, in 1/16 ppm. -/
  devXP : Int
  devXK : Int
  devPK : Int
  switches : Nat
  warnings : Nat
  /-- Gates in a row beyond the inner and the outer window, by pair. -/
  inner : List Nat
  outer : List Nat
  /-- Sources that were faulted and have been qualified anew, and by source the gates in a row in which every present pair that holds it
  lay within the inner window (R459). -/
  renewed : Nat
  agreed : List Nat
  /-- A switchover is decided: the source to take. -/
  goingTo : Option Nat
  /-- Monotonic time since which every condition of R461 has held. -/
  idleSince : Option Nat
  fmcBusy : Bool
  fmcDone : Bool
  fmcRefused : Bool
  fmcGated : Bool
  fmcCount : Nat
  deriving DecidableEq, Repr

/-- The power-budget loop (R465 to R473). -/
structure BudgetState where
  classCode : Nat
  est : Bool
  level : Nat
  granted : Option Nat
  /-- PWB.STS.run. -/
  run : Nat
  pin : Nat
  avail : Nat
  x : Int
  e : List Nat
  /-- Member 2's measure of each spindle group (R469). -/
  share : List Int
  queue : List Nat
  /-- Drives that have asked for the grant since the last budget sample. -/
  asked : List Nat
  /-- Monotonic time at which the last grant was returned; none before the first. -/
  returned : Option Nat
  /-- Samples in a row for which the conditions of levels 2 and 3 and of their end have held. -/
  over2 : Nat
  won2 : Nat
  over3 : Nat
  calm : Nat
  l2 : Nat
  l3 : Nat
  deriving DecidableEq, Repr

/-- Fabric telemetry and the fabric-slow alarm (R447 to R451). -/
structure FabricState where
  idx : List Nat
  minIdx : Nat
  mv : Nat
  minMv : Nat
  alarm : Bool
  cause : Nat
  count : Nat
  /-- Measurements in a row below s_lo, by site. -/
  low : List Nat
  /-- Monotonic time since which every clearing condition has held. -/
  goodSince : Nat
  last : List Nat
  mins : List Nat
  deriving DecidableEq, Repr

/-! ## Inputs (spec/18) -/

/-- The digital inputs of Table 18-7 and the analogue inputs of Table 18-8. -/
structure InputState where
  /-- Qualified and sampled levels, verdicts. -/
  qual : Nat
  raw : Nat
  stuck : Nat
  chat : Nat
  range : Nat
  evt : Nat
  stuckCnt : Nat
  chatCnt : Nat
  codes : List Nat
  /-- Changes of the qualified level (rising edges for RATE_IN): input and time, newest first. -/
  changes : List (Nat × Nat)
  /-- Times of the last change of each input. -/
  since : List Nat
  /-- Time of the last RATE_IN window beyond its limit. -/
  rateBad : Nat
  /-- Times since which each tray reads out while its door reads closed (R559). -/
  pairSince : List (Option Nat)
  deriving DecidableEq, Repr

/-! ## Sensors (spec/16) and calibration (spec/13) -/

/-- A thermistor code that does not move: the code, the monotonic time of its first reading, and the least and greatest die temperature
since then in 1/16 °C (R561). -/
structure ThermHold where
  code : Nat
  since : Nat
  low : Int
  high : Int
  deriving DecidableEq, Repr

/-- What Heron's sensors last showed (R497 to R499). -/
structure SensorState where
  /-- Die sites in 1/16 °C before offsets, excluded sites. -/
  site : List Int
  excl : Nat
  thm : List Nat
  sup : List Nat
  ldi : List Nat
  hot : Bool
  /-- A reading above warn has been logged; monotonic time since which the die has stayed below crit − 5 °C. -/
  warm : Bool
  coolSince : Option Nat
  /-- Monotonic times at which each rail's warning was last logged, VDD_CORE last (R580); laser warnings logged, by drive. -/
  railLogged : List (Option Nat)
  /-- Readings in a row outside it, by rail; 100 µs means in a row above warn_ma, by drive. -/
  railRun : List Nat
  ldiRun : List Nat
  ldiLogged : List (Option Nat)
  /-- By drive, since when its thermistor's code has stayed within ±1 (Table 18-8). -/
  thmHeld : List ThermHold
  deriving DecidableEq, Repr

/-- An item entry (R441) with its failures in a row (R438). -/
structure CalItem where
  count : Nat
  fails : Nat
  temp : Int
  secs : Nat
  inRow : Nat
  deriving DecidableEq, Repr

/-- Avocet (spec/13). -/
structure CalState where
  /-- The five sets: values by set × 65,536 + value number; an unlisted one is not valid. -/
  vals : Bank (Option Int)
  seqs : List Nat
  copies : List Nat
  crcFail : Nat
  /-- Sets 0 to 4 and, bit 5, the metadata record with changes not stored. -/
  dirty : Nat
  metaSeq : Nat
  metaCopy : Nat
  siteOfs : List Int
  driveOfs : List Int
  items : Bank CalItem
  /-- Items due, in order: kind, drive, time at which each fell due; and the one that runs, with the temperature at its start. -/
  due : List (Nat × Nat × Nat)
  running : Option (Nat × Nat × Int)
  /-- Items whose result was discarded because the temperature moved: kind, drive, the temperature now held to, and the time since which it
  has held within 1 °C (corner of spec/13). -/
  moved : List (Nat × Nat × Int × Nat)
  /-- Corrections of FOC and TRK last written to a bank, by 2 × drive + role, and the temperatures of the drives and, last, of the die for
  which the values in force were last computed (R427). -/
  gApplied : List Int
  tApplied : List Int
  /-- A deferred item has waited defer_s (R437). -/
  deferred : Bool
  failMask : Nat
  driftRf : List Int
  driftSvo : List Int
  /-- Drives with a faulted converter (R430). -/
  faulted : Nat
  /-- Readings recorded at step 7: die and drives (R428). -/
  cold : Option (Int × List Int)
  /-- Value of counter 5 and monotonic seconds at power-on, for R428. -/
  alive0 : Nat
  mono0 : Nat
  lastStore : Nat
  /-- Verified slots since the last ZPWR, by drive, layer and zone. -/
  zoneCnt : Bank Nat
  deriving DecidableEq, Repr

/-! ## The Curlew monitor (spec/17) -/

/-- The monitor, its UART and Heron's SRAM as the monitor addresses it. -/
structure MonitorState where
  active : Bool
  entered : Bool
  unlocked : Bool
  /-- The lock as read at this start-up (R540). -/
  locked : Bool
  baud : Nat
  idleS : Nat
  /-- Monotonic time of the last complete command line. -/
  lastLine : Nat
  /-- Events kept until step 8 (R544). -/
  events : List (Ev × Nat)
  sram : Bank Word
  /-- A write of the monitor to PF BAR2 is being carried out as a write of the PF (Table 17-4; the model's own). -/
  acting : Bool
  deriving DecidableEq, Repr

/-- The rate meter (R356). -/
structure RateMeter where
  /-- The last ten bins of 100 ms, newest first, in bytes; the bin being filled. -/
  bins : List Nat
  acc : Nat
  kbs : Nat
  deriving DecidableEq, Repr

/-! ## The whole block -/

/-- The state of the block. -/
structure State where
  /-- The commands that wait, first in, first out (the model's own queue). -/
  pending : List Instr
  /-- What the block has sent, newest first (the model's own). -/
  out : List Emit
  /-- The counter of free values (the model's own). -/
  free : Nat
  /-- Registers as a read of a RW or RWS field returns them: shadows for epoch-committed ones (R10). -/
  regs : Bank Word
  /-- The setting set copied at the last commit, and the one in force (R112, R113). -/
  nextSet : Bank Word
  liveSet : Bank Word
  /-- The setting set of the epoch before the current one, for commands tagged with it (R113). -/
  prevSet : Bank Word
  /-- Upper halves latched by reads of lower halves (R22). -/
  latches : Bank (Option Word)
  epoch : EpochState
  tm : TimeState
  hlt : HltState
  boot : BootState
  log : LogState
  /-- The 256 KiB NVM, erased cells 0xFF (R506). -/
  nvm : Bank Byte
  fw : FwState
  nvs : NvsState
  link : LinkState
  sec : SecState
  inst : Bank Instance
  fn : Bank Fn
  /-- Commands in flight, oldest first, and the number of the next one. -/
  cmds : List Cmd
  nextCmd : Nat
  /-- Started media operations of an ended generation: function and generation (R88, R90). -/
  oldOps : List (Nat × Nat)
  /-- Completions due, oldest first. -/
  due : List Due
  /-- Outstanding DMA reads, and the next tag. -/
  reads : List DmaRead
  nextTag : Nat
  /-- The function whose entry was fetched last, for the round-robin across instances (R155). -/
  lastFn : Nat
  /-- RNG.FETCH_ERR. -/
  dbErr : Nat
  sqErr : Nat
  fss : FssState
  sea : SeaState
  mch : MchState
  /-- Leaf lines being fetched. -/
  fetches : List LeafFetch
  arc : ArcState
  /-- D0 to D3. -/
  drives : List Drive
  clk : ClockState
  pwb : BudgetState
  stl : FabricState
  inp : InputState
  sns : SensorState
  cal : CalState
  mon : MonitorState
  rate : RateMeter
  /-- SRV.G_STS.late_open. -/
  lateOpens : Nat
  /-- NF0_VSEL and NF1_VSEL, read at the release of power-on reset (R550). -/
  vsel : Nat
  deriving DecidableEq, Repr

/-! ## Reset values -/

/-- No step of Table 15-3 has completed. -/
def BootState.reset : BootState :=
  { step := 0, slot := 0, fallback := false, early := false, dramFail := false, bootMs := 0, rebuildMs := 0, step8Ms := 0, mapDone := false,
    ready := false }

/-- A meter at zero. -/
def Meter.zero : Meter := ⟨0, 0, 0, 0, 0, 0, 0⟩

/-- An instance number that has never started (R17). -/
def Instance.fresh : Instance :=
  { state := .idle, gen := 0, nsSize := 0, quota := 0, warnPct := 90, warnArmed := false, minHold := 0, legalHold := false,
    used := 0, reserved := 0, refusing := false, bc := 0, interval := 0, opened := none, closed := [], keySerial := none, wrapped := [],
    keyLive := false, keyLost := false, commits := [], window := [], reset := none, chain := none, arcSeq := 0, arcHigh := 0, chainOk := none, seqOk := 0, firstSeg := 0, unitSeq := 0, unitHigh := 0, unitDur := 0, arcDur := 0, policy := [],
    status := [], shownUsed := 0, evenSeq := 0, waitLogged := false }

/-- Configuration space after reset: Max Read Request Size 512 and Completion Timeout 50 µs to 50 ms are the encodings 2 and 0 of
the PCI Express specification. PRESUMED, log entry 66. -/
def FnCfg.reset : FnCfg :=
  { mse := false, bme := false, ro := true, mps := 0, mrrs := 2, extTag := false, tag10 := false, cto := 0, ctoDis := false,
    msixEn := false, fmask := false, aerCor := 0, aerUnc := 0 }

/-- A MSI-X entry after reset: masked (PCI Express specification). -/
def MsixEntry.reset : MsixEntry := ⟨0, 0, true⟩

/-- Rings after reset (Table 04-17). -/
def SqState.reset : SqState := ⟨0, 0, 0, 0, false⟩
def CqState.reset : CqState := ⟨0, false, 0, 0, 0⟩

/-- The doorbell engine after reset: db_en is 0, so nothing is fetched. -/
def DbState.reset : DbState := ⟨false, 0, 0, false, false, 0, 0, false, false⟩

/-- A function after reset. -/
def Fn.reset : Fn :=
  { cfg := FnCfg.reset, msix := [], pba := 0, flr := false, insEvt := 0, rngEvt := 0, posted := [], outSlots := [], overflow := [],
    nextSeq := 0, dropped := false, sq := List.replicate 4 SqState.reset, cq := List.replicate 4 CqState.reset,
    db := DbState.reset, spurious := 0, turnSq := 0, turnCnt := 0, tskBusy := false, tskDone := false,
    tskCpl := List.replicate 4 0 }

/-- Link state after reset. PRESUMED, log entry 66. -/
def LinkState.reset : LinkState :=
  { up := false, rate := 0, width := 0, targetRate := 4, aspmL1 := false, l1ss := 0, ltrEn := false, ltr := 0, d3 := false, vfEnable := false, vfMse := false,
    ari := false, ariInForce := false, numVfs := 0, pageSize := 1, subsystemId := 0, linkDown := 0, cplTimeout := 0,
    poisoned := 0, urCa := 0, misc := [] }

/-- One direction of a sub-stream without keys. -/
def IdeDir.reset : IdeDir := ⟨none, none, 0, false, false, false, false, false⟩

/-- No session, no key (R61). -/
def SecState.reset : SecState := ⟨[], false, false, false, false, false, false, List.replicate 6 IdeDir.reset, 0, []⟩

/-- The epoch registers after reset (R587). -/
def EpochState.reset : EpochState := ⟨0, false, false, false, 0x3FFF, 0xF, 0xFFFF, 0, 0, false⟩

/-- The defaults of the sparse tables: what an unlisted key reads as. -/
def instDef (_ : Nat) : Instance := Instance.fresh
def fnDef (_ : Nat) : Fn := Fn.reset
def keyDef (_ : Nat) : List Byte := []
def msixDef (_ : Nat) : MsixEntry := MsixEntry.reset
def nvmDef (_ : Nat) : Byte := 0xFF
def zeroByte (_ : Nat) : Byte := 0
def latchDef (_ : Nat) : Option Word := none
def wordDef (_ : Nat) : Word := 0

/-- An unlisted block: free and never erased. -/
def blockDef (_ : Nat) : BlockRec := ⟨.free, 0, 0, false⟩
/-- An unlisted PUA holds no unit; kind 0xFF marks it. DESIGN CHOICE, log entry 9. -/
def unitDef (_ : Nat) : UnitRec := ⟨0xFF, 0, 0, 0, 0, 0, 0, 0, 0, false, 0, []⟩
/-- An unlisted map entry is Empty (R213). -/
def mapDef (_ : Nat) : Nat := 0xFFFFFFFF
/-- An unlisted leaf has every entry Empty. -/
def leafDef (_ : Nat) : LeafRec := ⟨.nowhere, 0xFFFFFFFF, 0xFFFFFFFF, 0, false, 0⟩
/-- An unlisted mirror block is Empty. -/
def logMapDef (_ : Nat) : Nat := 0xFFFFFFFF

/-- A die not yet identified. -/
def Die.reset : Die := ⟨false, false, 0, []⟩

/-- A channel starts in SDR timing mode 0 (R210). -/
def NandMode.reset : NandMode := ⟨.sdr, 0, 0⟩

/-- The staging store before identification, over NAND that is wholly erased (DESIGN CHOICE, log entry 9). -/
def FssState.reset : FssState :=
  { ready := false, formatted := false, rebuild := false, dieRebuild := false, quiesced := false,
    dies := List.replicate 16 Die.reset, ppb := 0, blocksPerDie := 0, op := 7, cap := 0, nandCfg := 0, blocks := [], bands := [],
    nextBand := 1, units := [], fill := [], progs := [], map := [], leaves := [], pool := [], archived := [],
    segs := [], jMade := 0, jDone := 0, jWait := [], jFlight := [], jFlying := false, jUpdates := 0,
    jOldest := 0, jUnits := 0, reserved := [], root := none, jLog := [], rootSeq := 0, rootTime := 0, rootUnits := 0, ckptSeq := 0, rootWait := none, prevKeys := [], anchor := false,
    anchorSeq := 0, anchorKeySlot := 0, anchorErased := true, anchors := [], anchorImg := [], anchorWear := [], logMap := [], retried := 0, rebuilt := 0, lost := 0, retired := 0,
    rbTime := 0, hregEn := false, hregBusy := false, hregErr := false, solo := [], modes := [NandMode.reset, NandMode.reset], gcOn := false }

/-- A blank root slot. -/
def OtpSlot.blank : OtpSlot := ⟨false, ⟨[], none⟩, ⟨[], none⟩⟩
/-- A slot programmed with a key, in both copies. -/
def OtpSlot.made (key : List Byte) : OtpSlot := ⟨true, ⟨key, none⟩, ⟨key, none⟩⟩

/-- The sealing block at reset: slot 0 programmed, no key in use. DESIGN CHOICE, log entry 9. -/
def SeaState.reset : SeaState :=
  { otp := [OtpSlot.made (Config.rootKey 0), OtpSlot.blank, OtpSlot.blank, OtpSlot.blank], revoked := 0, otpOk := false, slot := 0,
    useSecond := false, copyFail := false, rngOk := false, selftestOk := false, sweepDone := false, rngDown := 0, drbgCount := 0, reseeds := 0,
    drawn := 0, lpddrMib := 0, sweepLines := 0, kwk := none, kd := none, retryDram := 0, retryLeaf := 0, repairFlash := 0,
    repairArc := 0, violCount := 0, violInit := 0, violAddr := 0, violLog := [], quar := [], lastTest := 0 }
/-- No line is cached. -/
def lineDef (_ : Nat) : Option MLine := none
def natDef (_ : Nat) : Nat := 0

/-- The map cache at reset: arrays taken as invalid, no way disabled (DEDUCED, log entry 23). -/
def MchState.reset : MchState :=
  { lines := [], plru := [], invOk := false, op := none, done := false, aborted := false, refused := false, written := 0, evt := 0,
    ways := List.replicate 8 ⟨0, 0, 0, false⟩, off := 0, auto := 0, hits := 0, misses := 0 }

/-- No set is loaded. -/
def ArcState.reset : ArcState :=
  { loaded := false, setId := 0, layers := 0, pos := [none, none, none, none], blank := [false, false, false, false],
    finalised := false, full := false, total := 0, next := 0, form := 0, session := 0, rebuilding := false, absent := [], degraded := [],
    active := [], part := [], idle := 0, ready := [], going := [], index := [], pend := [], rl := [], pendRl := [],
    pendSince := 0, sinceSr := 0, covered := 0, srSeq := 0, rlSeq := 0, srUsed := 0, rlUsed := 0, sidUsed := 0, frUsed := 0, spare := [], fr := [],
    replaced := 0, rebuilt := 0, lost := 0, structs := 0, copies := [], redone := 0, named := 0, closing := false, reloadDue := false, chainsDue := false, reads := [] }


/-- Drives at reset: every axis OFF, the spindle STOPPED, the sled OFF, the read channel idle (R310, R370, R395, R419). -/
def Biquad.zero : Biquad := ⟨0, 0, 0, 0⟩
def Ax.reset : Ax :=
  { st := .off, manual := false, bank := 0, swapPending := false, bumpless := false, b1 := Biquad.zero, b2 := Biquad.zero, i := 0, d := 0, vprev := 0,
    fresh := false, sp := 0, err := 0, out := 0, spHeld := 0, srcFault := false, heldOver := false, faultSince := 0, lateRun := 0,
    lateCnt := 0, onTime := 0, locked := false, lockCnt := 0, rampFrom := 0, rampDone := 0, rampLen := 0, phase := 0, compLast := 0,
    compMax := 0 }
def LimGroup.reset : LimGroup := ⟨0, 0, 0, 0, 0⟩
def Spindle.reset : Spindle :=
  { st := .stopped, fault := 0, keFault := false, locked := false, grant := false, retries := 0, returned := false, step := 0,
    iStart := 0, detRuns := 0, forced := 0, crossRun := 0, aligning := false, due := false, waiting := false, intervals := [], events := 0, inRev := 0, misses := 0, duty := 0,
    cuts := 0, pSum := 0, pNum := 0, losses := [], lossCnt := 0, lockedCnt := 0, goodRevs := 0, heldSp := 0, ke := 0, keSum := 0, keNum := 0, keBad := 0,
    after := .stop, probes := 0, lastWork := 0, idled := false }
def Sled.reset : Sled :=
  { st := .off, homed := false, lateOnly := false, clamped := false, refused := false, fault := 0, p := 0, v := 0, a := 0, tgt := 0,
    home := 0, wait := 0, stopping := false, parking := false, parkNext := false, boost := 0, lostTimes := [], lastDecl := 0,
    lost := 0, late := 0, err := 0, anchored := false, anchorP := 0, anchorR := 0, elec := 0, iA := 0, iB := 0, dutyA := 0, dutyB := 0,
    cutA := 0, cutB := 0, openA := 0, openB := 0, report := none }
def Flywheel.reset : Flywheel := ⟨false, false, 0, 0, 0, none, none, [], []⟩
def Rx.reset : Rx :=
  { pba := none, n := 0, line := [], r1 := 0, r2 := 0, b := 0, pk := 0, nk := 0, phi := 0, hold := 0, ones := [], last := none, await := [],
    flagFrom := none, defects := [], bad := [], loss := 0, fly := Flywheel.reset }
def ReadChannel.reset : ReadChannel :=
  { clkLock := false, lockRun := 0, beyond := [], started := false, kbps := 0, rx := Rx.reset, decoded := none, retry := 0, inferred := 0,
    shifted := 0, unsync := 0, realigned := 0, readFail := 0, vfyFail := 0, idErr := 0, rfLoss := 0, ovr := 0, zw := [] }
def OpcRes.reset : OpcRes := ⟨false, 0, 0, 0⟩
def WriteStrategy.reset : WriteStrategy :=
  { gate := false, burst := none, opcBusy := false, opcFail := false, pcaFull := false, deferred := false,
    opc := [OpcRes.reset, OpcRes.reset], pca := [0, 0], opcDue := [], opcTemp := 0, recMs := 0, last := [], sent := 0, shutSince := 0,
    lden := false }
def Drive.reset : Drive :=
  { disc := false, ax := List.replicate 4 Ax.reset, fe := 0, te := 0, sum := 0, valid := false, fePrev := 0, tePrev := 0, crossed := 0, flagged := false, g := 0,
    flag := false, heldRun := 0, lowRun := 0, trkOuts := [], seq := .none, layer := 0, track := 0, target := 0, failed := 0,
    confirm := false, landed := false, starting := false, spnGroup := LimGroup.reset, lasGroup := LimGroup.reset, spin := Spindle.reset,
    sled := Sled.reset, rdc := ReadChannel.reset, wst := WriteStrategy.reset }

/-- Clocks at power-on: nothing is qualified, the real-time clock counts on the divider (Table 14-10). -/
def ClockState.reset : ClockState :=
  { sel := 0, ok := 0, drift := 0, fault := 0, unresolved := false, mode := 0, rtcDiv := true, devXP := 0, devXK := 0, devPK := 0,
    switches := 0, warnings := 0, inner := [0, 0, 0], outer := [0, 0, 0], renewed := 0, agreed := [0, 0, 0],
    goingTo := none, idleSince := none, fmcBusy := false, fmcDone := false, fmcRefused := false, fmcGated := false, fmcCount := 0 }

/-- The budget loop at reset (Table 14-11). -/
def BudgetState.reset : BudgetState :=
  { classCode := 0, est := false, level := 0, granted := none, run := 0, pin := 0, avail := 0, x := 0, e := [0, 0, 0, 0],
    share := [0, 0, 0, 0], queue := [], asked := [], returned := none, over2 := 0, won2 := 0, over3 := 0, calm := 0, l2 := 0, l3 := 0 }

/-- Telemetry at reset (Table 14-12). -/
def FabricState.reset : FabricState :=
  { idx := [0, 0, 0, 0], minIdx := 0xFFFF, mv := 0, minMv := 0xFFFF, alarm := false, cause := 0, count := 0, low := [0, 0, 0, 0],
    goodSince := 0, last := List.replicate 8 0, mins := List.replicate 8 0xFFFF }

/-- Inputs at power-on: every qualified level at its safe default, no verdict (R557). DEDUCED, log entry 67. -/
def InputState.reset : InputState :=
  { qual := 0x1000, raw := 0, stuck := 0, chat := 0, range := 0, evt := 0, stuckCnt := 0, chatCnt := 0,
    codes := List.replicate 10 0, changes := [], since := List.replicate 13 0, rateBad := 0, pairSince := [none, none, none, none] }

/-- No sensor has been read. DEDUCED, log entry 67. -/
def SensorState.reset : SensorState :=
  { site := [0, 0, 0, 0], excl := 0, thm := [0, 0, 0, 0], sup := [0, 0, 0, 0, 0, 0], ldi := [0, 0, 0, 0], hot := false,
    warm := false, coolSince := none, railLogged := List.replicate 7 none, railRun := List.replicate 7 0, ldiRun := [0, 0, 0, 0], ldiLogged := [none, none, none, none], thmHeld := [] }

def CalItem.reset : CalItem := ⟨0, 0, 0, 0, 0⟩
def calItemDef (_ : Nat) : CalItem := CalItem.reset
def calDef (_ : Nat) : Option Int := none

/-- Avocet before its sets are loaded. -/
def CalState.reset : CalState :=
  { vals := [], seqs := [0, 0, 0, 0, 0], copies := [0, 0, 0, 0, 0], crcFail := 0, dirty := 0, metaSeq := 0, metaCopy := 0,
    siteOfs := [0, 0, 0, 0], driveOfs := [0, 0, 0, 0], items := [], due := [], running := none, moved := [], gApplied := List.replicate 8 4096, tApplied := [0, 0, 0, 0, 0], deferred := false, failMask := 0,
    driftRf := [0, 0, 0, 0], driftSvo := [0, 0, 0, 0], faulted := 0, cold := none, alive0 := 0, mono0 := 0, lastStore := 0,
    zoneCnt := [] }

/-- The monitor has not run; its rate and timeout are the defaults of R530 and R531. -/
def MonitorState.reset : MonitorState :=
  { active := false, entered := false, unlocked := false, locked := false, baud := 115200, idleS := 300, lastLine := 0, events := [],
    sram := [], acting := false }

def RateMeter.reset : RateMeter := ⟨List.replicate 10 0, 0, 0⟩


/-- The block at the release of power-on reset, with a blank NVM: no step of Table 15-3 has completed, no output is driven, and
every register reads its reset value; a field that is loaded from the settings store reads 0 until step 6 (DESIGN CHOICE, log entry 9).
DESIGN CHOICE, log entry 10. DEDUCED, log entry 67. -/
def State.reset : State :=
  { pending := [], out := [], free := 0, regs := [], nextSet := [], liveSet := [], prevSet := [], latches := [], epoch := EpochState.reset,
    tm := { sec := 0, sub := 0, valid := false, pending := false, late := false, regressed := false, commits := 0, mono := 0,
            monoRem := 0, ticks := 0, committed := false },
    hlt := { por := true, brownout := false, perst := false, haltBefore := false, warmLink := false, warmHot := false, quarDue := false,
             accErr := 0, accAddr := 0, supply := 0x7F, warmCnt := 0, porHeld := false, perstLow := true, warming := false, halt := none },
    boot := BootState.reset,
    log := { next := 0, ring := [], mirror := [], unmirrored := 0, lost := 0, evt := 0, folds := [], critical := [], nvmNext := 0 },
    nvm := [],
    fw := { imageA := [], imageB := [], staged := 0, version := 0, secVersion := 0 },
    nvs := { copy := 0, fallback := false, factory := false, seq := 0, origin := 0, owner := none, formatArmed := false,
             busy := false, recovered := false, writes := 0, content := [] },
    link := LinkState.reset, sec := SecState.reset, inst := [], fn := [], cmds := [], nextCmd := 0, oldOps := [], due := [], reads := [],
    nextTag := 0, lastFn := 0, dbErr := 0, sqErr := 0, fss := FssState.reset, sea := SeaState.reset, mch := MchState.reset, fetches := [], arc := ArcState.reset,
    drives := List.replicate 4 Drive.reset, clk := ClockState.reset, pwb := BudgetState.reset, stl := FabricState.reset,
    inp := InputState.reset, sns := SensorState.reset, cal := CalState.reset, mon := MonitorState.reset, rate := RateMeter.reset,
    lateOpens := 0, vsel := 0 }

end Sys2Proof.Machine
end

