-- ==== Sys2Proof/Machine/RegFields.lean ====
section
/-!
DEFINITION. Reading the register file: what a RW register returns (the shadow of an epoch-committed one, R10), what is in force
(the adopted set of R113), and one accessor per configuration field of the register map.
-/

namespace Sys2Proof.Machine

/-- What a read of the stored bits of a register returns. -/
def State.reg (s : State) (k : Nat) : Word := Bank.get regReset s.regs k

/-- The value of an epoch-committed register that is in force (R113). -/
def State.live (s : State) (k : Nat) : Word := Bank.get regReset s.liveSet k

/-- The block with a register's stored word replaced. -/
def State.setReg (s : State) (k : Nat) (v : Word) : State := { s with regs := Bank.set regReset s.regs k v }

/-- The block with the value in force of an epoch-committed register replaced, in every setting set (loading, R112). -/
def State.loadReg (s : State) (k : Nat) (v : Word) : State :=
  { s with regs := Bank.set regReset s.regs k v, nextSet := Bank.set regReset s.nextSet k v,
           liveSet := Bank.set regReset s.liveSet k v }

/-- Field CFG_EPOCH_TMO_ms in force. -/
def Cf.CFG_EPOCH_TMO_ms (s : State) : Nat := fldN (s.reg Reg.CFG_EPOCH_TMO).toNat 0 16
/-- Field CLK_SUP_WIN_inner_ppm in force. -/
def Cf.CLK_SUP_WIN_inner_ppm (s : State) : Nat := fldN (s.live Reg.CLK_SUP_WIN).toNat 0 16
/-- Field CLK_SUP_WIN_outer_ppm in force. -/
def Cf.CLK_SUP_WIN_outer_ppm (s : State) : Nat := fldN (s.live Reg.CLK_SUP_WIN).toNat 16 16
/-- Field CLK_SUP_CFG_pe_ofs_ppm in force. -/
def Cf.CLK_SUP_CFG_pe_ofs_ppm (s : State) : Int := sext 16 (fldN (s.live Reg.CLK_SUP_CFG).toNat 0 16)
/-- Field CLK_SUP_CFG_pe_allow in force. -/
def Cf.CLK_SUP_CFG_pe_allow (s : State) : Nat := fldN (s.live Reg.CLK_SUP_CFG).toNat 16 1
/-- Field CLK_SUP_CFG_auto_ret in force. -/
def Cf.CLK_SUP_CFG_auto_ret (s : State) : Nat := fldN (s.live Reg.CLK_SUP_CFG).toNat 17 1
/-- Field CLK_SUP_CFG_return_s in force. -/
def Cf.CLK_SUP_CFG_return_s (s : State) : Nat := fldN (s.live Reg.CLK_SUP_CFG).toNat 24 8
/-- Field CLK_PM_sleep_en in force. -/
def Cf.CLK_PM_sleep_en (s : State) : Nat := fldN (s.live Reg.CLK_PM).toNat 0 1
/-- Field CLK_PM_deep_en in force. -/
def Cf.CLK_PM_deep_en (s : State) : Nat := fldN (s.live Reg.CLK_PM).toNat 1 1
/-- Field CLK_PM_idle_ms in force. -/
def Cf.CLK_PM_idle_ms (s : State) : Nat := fldN (s.live Reg.CLK_PM).toNat 16 16
/-- Field CLK_GATE_RUN_en in force. -/
def Cf.CLK_GATE_RUN_en (s : State) : Nat := fldN (s.live Reg.CLK_GATE_RUN).toNat 0 12
/-- Field CLK_GATE_SLP_en in force. -/
def Cf.CLK_GATE_SLP_en (s : State) : Nat := fldN (s.live Reg.CLK_GATE_SLP).toNat 0 12
/-- Field CLK_GATE_DEEP_en in force. -/
def Cf.CLK_GATE_DEEP_en (s : State) : Nat := fldN (s.live Reg.CLK_GATE_DEEP).toNat 0 12
/-- Field CLK_SSC_MOT_depth in force. -/
def Cf.CLK_SSC_MOT_depth (s : State) : Nat := fldN (s.live Reg.CLK_SSC_MOT).toNat 0 5
/-- Field CLK_SSC_MOT_rate_khz in force. -/
def Cf.CLK_SSC_MOT_rate_khz (s : State) : Nat := fldN (s.live Reg.CLK_SSC_MOT).toNat 8 6
/-- Field CLK_SSC_NF_depth in force. -/
def Cf.CLK_SSC_NF_depth (s : State) : Nat := fldN (s.live Reg.CLK_SSC_NF).toNat 0 5
/-- Field CLK_SSC_NF_rate_khz in force. -/
def Cf.CLK_SSC_NF_rate_khz (s : State) : Nat := fldN (s.live Reg.CLK_SSC_NF).toNat 8 6
/-- Field CLK_SSC_CK_depth in force. -/
def Cf.CLK_SSC_CK_depth (s : State) : Nat := fldN (s.live Reg.CLK_SSC_CK).toNat 0 5
/-- Field CLK_SSC_CK_rate_khz in force. -/
def Cf.CLK_SSC_CK_rate_khz (s : State) : Nat := fldN (s.live Reg.CLK_SSC_CK).toNat 8 6
/-- Field CLK_CKOUT_src in force. -/
def Cf.CLK_CKOUT_src (s : State) : Nat := fldN (s.live Reg.CLK_CKOUT).toNat 0 2
/-- Field CLK_FMC_CTL_clk in force. -/
def Cf.CLK_FMC_CTL_clk (s : State) : Nat := fldN (s.reg Reg.CLK_FMC_CTL).toNat 0 5
/-- Field CLK_FMC_CTL_ref in force. -/
def Cf.CLK_FMC_CTL_ref (s : State) : Nat := fldN (s.reg Reg.CLK_FMC_CTL).toNat 8 2
/-- Field CLK_FMC_CTL_k in force. -/
def Cf.CLK_FMC_CTL_k (s : State) : Nat := fldN (s.reg Reg.CLK_FMC_CTL).toNat 16 5
/-- Field PWB_CFG_margin in force. -/
def Cf.PWB_CFG_margin (s : State) : Nat := fldN (s.live Reg.PWB_CFG).toNat 0 10
/-- Field PWB_CFG_fault_pct in force. -/
def Cf.PWB_CFG_fault_pct (s : State) : Nat := fldN (s.live Reg.PWB_CFG).toNat 16 7
/-- Field PWB_SENSE_ma_fs in force. -/
def Cf.PWB_SENSE_ma_fs (s : State) : Nat := fldN (s.live Reg.PWB_SENSE).toNat 0 16
/-- Field PWB_VIN_mv in force. -/
def Cf.PWB_VIN_mv (s : State) : Nat := fldN (s.live Reg.PWB_VIN).toNat 0 17
/-- Field PWB_VMOT_mv in force. -/
def Cf.PWB_VMOT_mv (s : State) : Nat := fldN (s.live Reg.PWB_VMOT).toNat 0 16
/-- Field PWB_FS_mw in force. -/
def Cf.PWB_FS_mw (s : State) : Nat := fldN (s.live Reg.PWB_FS).toNat 0 17
/-- Field PWB_CAP_mw in force. -/
def Cf.PWB_CAP_mw (s : State) : Nat := fldN (s.live Reg.PWB_CAP).toNat 0 17
/-- Field PWB_SPINUP_mw in force. -/
def Cf.PWB_SPINUP_mw (s : State) : Nat := fldN (s.live Reg.PWB_SPINUP).toNat 0 16
/-- Field PWB_SPINUP_gap_ms in force. -/
def Cf.PWB_SPINUP_gap_ms (s : State) : Nat := fldN (s.live Reg.PWB_SPINUP).toNat 16 16
/-- Field PWB_OVL_l2_mw in force. -/
def Cf.PWB_OVL_l2_mw (s : State) : Nat := fldN (s.live Reg.PWB_OVL).toNat 0 16
/-- Field PWB_OVL_hyst_mw in force. -/
def Cf.PWB_OVL_hyst_mw (s : State) : Nat := fldN (s.live Reg.PWB_OVL).toNat 16 16
/-- Field PWB_BASE_mw in force. -/
def Cf.PWB_BASE_mw (s : State) : Nat := fldN (s.live Reg.PWB_BASE).toNat 0 17
/-- Field PWB_DRV_mw in force. -/
def Cf.PWB_DRV_mw (s : State) : Nat := fldN (s.live Reg.PWB_DRV).toNat 0 16
/-- Field STL_ALM_CFG_v_lo in force. -/
def Cf.STL_ALM_CFG_v_lo (s : State) : Nat := fldN (s.live Reg.STL_ALM_CFG).toNat 0 10
/-- Field STL_ALM_CFG_s_lo in force. -/
def Cf.STL_ALM_CFG_s_lo (s : State) : Nat := fldN (s.live Reg.STL_ALM_CFG).toNat 10 11
/-- Field STL_ALM_CFG_hold_ms in force. -/
def Cf.STL_ALM_CFG_hold_ms (s : State) : Nat := fldN (s.live Reg.STL_ALM_CFG).toNat 24 8
/-- Field HLT_HREC_SEL_index in force. -/
def Cf.HLT_HREC_SEL_index (s : State) : Nat := fldN (s.reg Reg.HLT_HREC_SEL).toNat 0 4
/-- Field SEA_RC_BASE_base in force. -/
def Cf.SEA_RC_BASE_base (s : State) (i : Nat) : Nat := fldN (s.reg (Reg.SEA_RC_BASE i)).toNat 0 28
/-- Field SEA_RC_LIM_limit in force. -/
def Cf.SEA_RC_LIM_limit (s : State) (i : Nat) : Nat := fldN (s.reg (Reg.SEA_RC_LIM i)).toNat 0 28
/-- Field SEA_RC_CTL_en in force. -/
def Cf.SEA_RC_CTL_en (s : State) (i : Nat) : Nat := fldN (s.reg (Reg.SEA_RC_CTL i)).toNat 0 1
/-- Field SEA_RC_CTL_lock in force. -/
def Cf.SEA_RC_CTL_lock (s : State) (i : Nat) : Nat := fldN (s.reg (Reg.SEA_RC_CTL i)).toNat 1 1
/-- Field SEA_RC_CTL_deny in force. -/
def Cf.SEA_RC_CTL_deny (s : State) (i : Nat) : Nat := fldN (s.reg (Reg.SEA_RC_CTL i)).toNat 4 4
/-- Field SEA_RC_CTL_deny_write_only in force. -/
def Cf.SEA_RC_CTL_deny_write_only (s : State) (i : Nat) : Nat := fldN (s.reg (Reg.SEA_RC_CTL i)).toNat 8 1
/-- Field SEA_CTL_selftest_min in force. -/
def Cf.SEA_CTL_selftest_min (s : State) : Nat := fldN (s.live Reg.SEA_CTL).toNat 0 8
/-- Field FSS_WL_spread in force. -/
def Cf.FSS_WL_spread (s : State) : Nat := fldN (s.live Reg.FSS_WL).toNat 0 16
/-- Field FSS_WL_pe_limit in force. -/
def Cf.FSS_WL_pe_limit (s : State) : Nat := fldN (s.live Reg.FSS_WL).toNat 16 16
/-- Field FSS_CKPT_interval in force. -/
def Cf.FSS_CKPT_interval (s : State) : Nat := fldN (s.live Reg.FSS_CKPT).toNat 0 8
/-- Field FSS_LEAF_POOL_mib in force. -/
def Cf.FSS_LEAF_POOL_mib (s : State) : Nat := fldN (s.live Reg.FSS_LEAF_POOL).toNat 0 12
/-- Field FSS_HREG_BASE_LO_addr in force. -/
def Cf.FSS_HREG_BASE_LO_addr (s : State) : Nat := fldN (s.reg Reg.FSS_HREG_BASE_LO).toNat 20 12
/-- Field FSS_HREG_BASE_HI_addr in force. -/
def Cf.FSS_HREG_BASE_HI_addr (s : State) : Nat := fldN (s.reg Reg.FSS_HREG_BASE_HI).toNat 0 32
/-- Field FSS_HREG_SIZE_size in force. -/
def Cf.FSS_HREG_SIZE_size (s : State) : Nat := fldN (s.reg Reg.FSS_HREG_SIZE).toNat 0 7
/-- Field FSS_HREG_CTL_en in force. -/
def Cf.FSS_HREG_CTL_en (s : State) : Nat := fldN (s.reg Reg.FSS_HREG_CTL).toNat 0 1
/-- Field MCH_CTL_en in force. -/
def Cf.MCH_CTL_en (s : State) : Nat := fldN (s.reg Reg.MCH_CTL).toNat 0 1
/-- Field MCH_CTL_wb in force. -/
def Cf.MCH_CTL_wb (s : State) : Nat := fldN (s.reg Reg.MCH_CTL).toNat 1 1
/-- Field MCH_OP_ADDR_addr in force. -/
def Cf.MCH_OP_ADDR_addr (s : State) : Nat := fldN (s.reg Reg.MCH_OP_ADDR).toNat 6 26
/-- Field MCH_OP_CNT_lines in force. -/
def Cf.MCH_OP_CNT_lines (s : State) : Nat := fldN (s.reg Reg.MCH_OP_CNT).toNat 0 17
/-- Field MCH_OP_SW_set in force. -/
def Cf.MCH_OP_SW_set (s : State) : Nat := fldN (s.reg Reg.MCH_OP_SW).toNat 0 10
/-- Field MCH_OP_SW_way in force. -/
def Cf.MCH_OP_SW_way (s : State) : Nat := fldN (s.reg Reg.MCH_OP_SW).toNat 16 3
/-- Field MCH_OP_SW_all in force. -/
def Cf.MCH_OP_SW_all (s : State) : Nat := fldN (s.reg Reg.MCH_OP_SW).toNat 24 1
/-- Field MCH_IEN_en in force. -/
def Cf.MCH_IEN_en (s : State) : Nat := fldN (s.reg Reg.MCH_IEN).toNat 0 4
/-- Field MCH_PAR_thresh in force. -/
def Cf.MCH_PAR_thresh (s : State) : Nat := fldN (s.live Reg.MCH_PAR).toNat 0 8
/-- Field MCH_PAR_window in force. -/
def Cf.MCH_PAR_window (s : State) : Nat := fldN (s.live Reg.MCH_PAR).toNat 16 16
/-- Field ARC_CTL_degraded_ok in force. -/
def Cf.ARC_CTL_degraded_ok (s : State) : Nat := fldN (s.live Reg.ARC_CTL).toNat 0 1
/-- Field ARC_CTL_fill_ms in force. -/
def Cf.ARC_CTL_fill_ms (s : State) : Nat := fldN (s.live Reg.ARC_CTL).toNat 16 16
/-- Field ARC_DEG_tmo_s in force. -/
def Cf.ARC_DEG_tmo_s (s : State) : Nat := fldN (s.live Reg.ARC_DEG).toNat 0 16
/-- Field RDC_EQ0_tap_lo in force. -/
def Cf.RDC_EQ0_tap_lo (s : State) (d : Nat) : Int := sext 12 (fldN (s.live (Reg.RDC_EQ0 d)).toNat 0 12)
/-- Field RDC_EQ0_tap_hi in force. -/
def Cf.RDC_EQ0_tap_hi (s : State) (d : Nat) : Int := sext 12 (fldN (s.live (Reg.RDC_EQ0 d)).toNat 16 12)
/-- Field RDC_EQ1_tap_lo in force. -/
def Cf.RDC_EQ1_tap_lo (s : State) (d : Nat) : Int := sext 12 (fldN (s.live (Reg.RDC_EQ1 d)).toNat 0 12)
/-- Field RDC_EQ1_tap_hi in force. -/
def Cf.RDC_EQ1_tap_hi (s : State) (d : Nat) : Int := sext 12 (fldN (s.live (Reg.RDC_EQ1 d)).toNat 16 12)
/-- Field RDC_EQ2_tap_lo in force. -/
def Cf.RDC_EQ2_tap_lo (s : State) (d : Nat) : Int := sext 12 (fldN (s.live (Reg.RDC_EQ2 d)).toNat 0 12)
/-- Field RDC_EQ2_tap_hi in force. -/
def Cf.RDC_EQ2_tap_hi (s : State) (d : Nat) : Int := sext 12 (fldN (s.live (Reg.RDC_EQ2 d)).toNat 16 12)
/-- Field RDC_EQ3_tap_lo in force. -/
def Cf.RDC_EQ3_tap_lo (s : State) (d : Nat) : Int := sext 12 (fldN (s.live (Reg.RDC_EQ3 d)).toNat 0 12)
/-- Field RDC_EQ3_tap_hi in force. -/
def Cf.RDC_EQ3_tap_hi (s : State) (d : Nat) : Int := sext 12 (fldN (s.live (Reg.RDC_EQ3 d)).toNat 16 12)
/-- Field RDC_EQ4_tap_lo in force. -/
def Cf.RDC_EQ4_tap_lo (s : State) (d : Nat) : Int := sext 12 (fldN (s.live (Reg.RDC_EQ4 d)).toNat 0 12)
/-- Field RDC_ADP_kdc in force. -/
def Cf.RDC_ADP_kdc (s : State) (d : Nat) : Nat := fldN (s.live (Reg.RDC_ADP d)).toNat 0 4
/-- Field RDC_ADP_kthr in force. -/
def Cf.RDC_ADP_kthr (s : State) (d : Nat) : Nat := fldN (s.live (Reg.RDC_ADP d)).toNat 4 4
/-- Field RDC_ADP_qual in force. -/
def Cf.RDC_ADP_qual (s : State) (d : Nat) : Nat := fldN (s.live (Reg.RDC_ADP d)).toNat 8 4
/-- Field RDC_ADP_pg in force. -/
def Cf.RDC_ADP_pg (s : State) (d : Nat) : Nat := fldN (s.live (Reg.RDC_ADP d)).toNat 12 4
/-- Field RDC_ADP_amp0 in force. -/
def Cf.RDC_ADP_amp0 (s : State) (d : Nat) : Nat := fldN (s.live (Reg.RDC_ADP d)).toNat 16 9
/-- Field RDC_ERS_guard in force. -/
def Cf.RDC_ERS_guard (s : State) (d : Nat) : Nat := fldN (s.live (Reg.RDC_ERS d)).toNat 0 8
/-- Field RDC_ERS_hold in force. -/
def Cf.RDC_ERS_hold (s : State) (d : Nat) : Nat := fldN (s.live (Reg.RDC_ERS d)).toNat 8 1
/-- Field RDC_RTRY_n in force. -/
def Cf.RDC_RTRY_n (s : State) (d : Nat) : Nat := fldN (s.live (Reg.RDC_RTRY d)).toNat 0 2
/-- Field RDC_VFY_inferred in force. -/
def Cf.RDC_VFY_inferred (s : State) (d : Nat) : Nat := fldN (s.live (Reg.RDC_VFY d)).toNat 0 4
/-- Field RDC_VFY_shifted in force. -/
def Cf.RDC_VFY_shifted (s : State) (d : Nat) : Nat := fldN (s.live (Reg.RDC_VFY d)).toNat 4 4
/-- Field RDC_VFY_rows in force. -/
def Cf.RDC_VFY_rows (s : State) (d : Nat) : Nat := fldN (s.live (Reg.RDC_VFY d)).toNat 8 6
/-- Field RDC_VFY_row_max in force. -/
def Cf.RDC_VFY_row_max (s : State) (d : Nat) : Nat := fldN (s.live (Reg.RDC_VFY d)).toNat 16 5
/-- Field RDC_VFY_flags in force. -/
def Cf.RDC_VFY_flags (s : State) (d : Nat) : Nat := fldN (s.live (Reg.RDC_VFY d)).toNat 24 8
/-- Field WST_DTOP_s2 in force. -/
def Cf.WST_DTOP_s2 (s : State) (d : Nat) (i : Nat) : Int := sext 7 (fldN (s.live (Reg.WST_DTOP d i)).toNat 0 7)
/-- Field WST_DTOP_s3 in force. -/
def Cf.WST_DTOP_s3 (s : State) (d : Nat) (i : Nat) : Int := sext 7 (fldN (s.live (Reg.WST_DTOP d i)).toNat 8 7)
/-- Field WST_DTOP_s4 in force. -/
def Cf.WST_DTOP_s4 (s : State) (d : Nat) (i : Nat) : Int := sext 7 (fldN (s.live (Reg.WST_DTOP d i)).toNat 16 7)
/-- Field WST_SHAPE_ttop in force. -/
def Cf.WST_SHAPE_ttop (s : State) (d : Nat) (i : Nat) : Nat := fldN (s.live (Reg.WST_SHAPE d i)).toNat 0 7
/-- Field WST_SHAPE_tlast in force. -/
def Cf.WST_SHAPE_tlast (s : State) (d : Nat) (i : Nat) : Nat := fldN (s.live (Reg.WST_SHAPE d i)).toNat 8 7
/-- Field WST_SHAPE_dtend in force. -/
def Cf.WST_SHAPE_dtend (s : State) (d : Nat) (i : Nat) : Int := sext 7 (fldN (s.live (Reg.WST_SHAPE d i)).toNat 16 7)
/-- Field WST_SHAPE_tcool in force. -/
def Cf.WST_SHAPE_tcool (s : State) (d : Nat) (i : Nat) : Nat := fldN (s.live (Reg.WST_SHAPE d i)).toNat 24 7
/-- Field WST_OPC_CFG_beta_t in force. -/
def Cf.WST_OPC_CFG_beta_t (s : State) (d : Nat) : Int := sext 10 (fldN (s.live (Reg.WST_OPC_CFG d)).toNat 0 10)
/-- Field WST_OPC_CFG_rho in force. -/
def Cf.WST_OPC_CFG_rho (s : State) (d : Nat) : Nat := fldN (s.live (Reg.WST_OPC_CFG d)).toNat 10 11
/-- Field WST_OPC_CFG_min_ratio in force. -/
def Cf.WST_OPC_CFG_min_ratio (s : State) (d : Nat) : Nat := fldN (s.live (Reg.WST_OPC_CFG d)).toNat 24 8
/-- Field WST_LDADDR_read in force. -/
def Cf.WST_LDADDR_read (s : State) (d : Nat) : Nat := fldN (s.live (Reg.WST_LDADDR d)).toNat 0 7
/-- Field WST_LDADDR_space in force. -/
def Cf.WST_LDADDR_space (s : State) (d : Nat) : Nat := fldN (s.live (Reg.WST_LDADDR d)).toNat 8 7
/-- Field WST_LDADDR_write in force. -/
def Cf.WST_LDADDR_write (s : State) (d : Nat) : Nat := fldN (s.live (Reg.WST_LDADDR d)).toNat 16 7
/-- Field WST_LDADDR_over in force. -/
def Cf.WST_LDADDR_over (s : State) (d : Nat) : Nat := fldN (s.live (Reg.WST_LDADDR d)).toNat 24 7
/-- Field SRV_AX_TIM_lat in force. -/
def Cf.SRV_AX_TIM_lat (s : State) (d : Nat) : Nat := fldN (s.live (Reg.SRV_AX_TIM d)).toNat 0 16
/-- Field SRV_AX_TIM_ramp_us in force. -/
def Cf.SRV_AX_TIM_ramp_us (s : State) (d : Nat) : Nat := fldN (s.live (Reg.SRV_AX_TIM d)).toNat 16 16
/-- Field SRV_AX_CTL_auto_rc in force. -/
def Cf.SRV_AX_CTL_auto_rc (s : State) (d : Nat) : Nat := fldN (s.live (Reg.SRV_AX_CTL d)).toNat 0 1
/-- Field SRV_AX_CTL_bumpless in force. -/
def Cf.SRV_AX_CTL_bumpless (s : State) (d : Nat) : Nat := fldN (s.live (Reg.SRV_AX_CTL d)).toNat 1 1
/-- Field SRV_AX_CTL_def_hold in force. -/
def Cf.SRV_AX_CTL_def_hold (s : State) (d : Nat) : Nat := fldN (s.live (Reg.SRV_AX_CTL d)).toNat 2 1
/-- Field SRV_AX_CTL_lock_in in force. -/
def Cf.SRV_AX_CTL_lock_in (s : State) (d : Nat) : Nat := fldN (s.live (Reg.SRV_AX_CTL d)).toNat 8 8
/-- Field SRV_AX_CTL_lock_out in force. -/
def Cf.SRV_AX_CTL_lock_out (s : State) (d : Nat) : Nat := fldN (s.live (Reg.SRV_AX_CTL d)).toNat 16 4
/-- Field SRV_AX_CTL_bc in force. -/
def Cf.SRV_AX_CTL_bc (s : State) (d : Nat) : Nat := fldN (s.live (Reg.SRV_AX_CTL d)).toNat 20 9
/-- Field SRV_LOCK_win in force. -/
def Cf.SRV_LOCK_win (s : State) (d : Nat) : Int := sext 32 (fldN (s.live (Reg.SRV_LOCK d)).toNat 0 32)
/-- Field SRV_OUT_HI_limit in force. -/
def Cf.SRV_OUT_HI_limit (s : State) (d : Nat) : Int := sext 32 (fldN (s.live (Reg.SRV_OUT_HI d)).toNat 0 32)
/-- Field SRV_OUT_LO_limit in force. -/
def Cf.SRV_OUT_LO_limit (s : State) (d : Nat) : Int := sext 32 (fldN (s.live (Reg.SRV_OUT_LO d)).toNat 0 32)
/-- Field SRV_REST_rest in force. -/
def Cf.SRV_REST_rest (s : State) (d : Nat) : Int := sext 32 (fldN (s.live (Reg.SRV_REST d)).toNat 0 32)
/-- Field SRV_INJ_AMP_amp in force. -/
def Cf.SRV_INJ_AMP_amp (s : State) (d : Nat) : Int := sext 32 (fldN (s.reg (Reg.SRV_INJ_AMP d)).toNat 0 32)
/-- Field SRV_INJ_FRQ_inc in force. -/
def Cf.SRV_INJ_FRQ_inc (s : State) (d : Nat) : Nat := fldN (s.reg (Reg.SRV_INJ_FRQ d)).toNat 0 32
/-- Field SRV_B0_BQ1_B0_v in force. -/
def Cf.SRV_B0_BQ1_B0_v (s : State) (d : Nat) : Int := sext 32 (fldN (s.reg (Reg.SRV_B0_BQ1_B0 d)).toNat 0 32)
/-- Field SRV_B0_BQ1_B1_v in force. -/
def Cf.SRV_B0_BQ1_B1_v (s : State) (d : Nat) : Int := sext 32 (fldN (s.reg (Reg.SRV_B0_BQ1_B1 d)).toNat 0 32)
/-- Field SRV_B0_BQ1_B2_v in force. -/
def Cf.SRV_B0_BQ1_B2_v (s : State) (d : Nat) : Int := sext 32 (fldN (s.reg (Reg.SRV_B0_BQ1_B2 d)).toNat 0 32)
/-- Field SRV_B0_BQ1_A1_v in force. -/
def Cf.SRV_B0_BQ1_A1_v (s : State) (d : Nat) : Int := sext 32 (fldN (s.reg (Reg.SRV_B0_BQ1_A1 d)).toNat 0 32)
/-- Field SRV_B0_BQ1_A2_v in force. -/
def Cf.SRV_B0_BQ1_A2_v (s : State) (d : Nat) : Int := sext 32 (fldN (s.reg (Reg.SRV_B0_BQ1_A2 d)).toNat 0 32)
/-- Field SRV_B0_BQ2_B0_v in force. -/
def Cf.SRV_B0_BQ2_B0_v (s : State) (d : Nat) : Int := sext 32 (fldN (s.reg (Reg.SRV_B0_BQ2_B0 d)).toNat 0 32)
/-- Field SRV_B0_BQ2_B1_v in force. -/
def Cf.SRV_B0_BQ2_B1_v (s : State) (d : Nat) : Int := sext 32 (fldN (s.reg (Reg.SRV_B0_BQ2_B1 d)).toNat 0 32)
/-- Field SRV_B0_BQ2_B2_v in force. -/
def Cf.SRV_B0_BQ2_B2_v (s : State) (d : Nat) : Int := sext 32 (fldN (s.reg (Reg.SRV_B0_BQ2_B2 d)).toNat 0 32)
/-- Field SRV_B0_BQ2_A1_v in force. -/
def Cf.SRV_B0_BQ2_A1_v (s : State) (d : Nat) : Int := sext 32 (fldN (s.reg (Reg.SRV_B0_BQ2_A1 d)).toNat 0 32)
/-- Field SRV_B0_BQ2_A2_v in force. -/
def Cf.SRV_B0_BQ2_A2_v (s : State) (d : Nat) : Int := sext 32 (fldN (s.reg (Reg.SRV_B0_BQ2_A2 d)).toNat 0 32)
/-- Field SRV_B0_KP_v in force. -/
def Cf.SRV_B0_KP_v (s : State) (d : Nat) : Int := sext 32 (fldN (s.reg (Reg.SRV_B0_KP d)).toNat 0 32)
/-- Field SRV_B0_KI_v in force. -/
def Cf.SRV_B0_KI_v (s : State) (d : Nat) : Int := sext 32 (fldN (s.reg (Reg.SRV_B0_KI d)).toNat 0 32)
/-- Field SRV_B0_KD_v in force. -/
def Cf.SRV_B0_KD_v (s : State) (d : Nat) : Int := sext 32 (fldN (s.reg (Reg.SRV_B0_KD d)).toNat 0 32)
/-- Field SRV_B0_DSH_v in force. -/
def Cf.SRV_B0_DSH_v (s : State) (d : Nat) : Nat := fldN (s.reg (Reg.SRV_B0_DSH d)).toNat 0 4
/-- Field SRV_B0_I_LO_v in force. -/
def Cf.SRV_B0_I_LO_v (s : State) (d : Nat) : Int := sext 32 (fldN (s.reg (Reg.SRV_B0_I_LO d)).toNat 0 32)
/-- Field SRV_B0_I_HI_v in force. -/
def Cf.SRV_B0_I_HI_v (s : State) (d : Nat) : Int := sext 32 (fldN (s.reg (Reg.SRV_B0_I_HI d)).toNat 0 32)
/-- Field SRV_B1_BQ1_B0_v in force. -/
def Cf.SRV_B1_BQ1_B0_v (s : State) (d : Nat) : Int := sext 32 (fldN (s.reg (Reg.SRV_B1_BQ1_B0 d)).toNat 0 32)
/-- Field SRV_B1_BQ1_B1_v in force. -/
def Cf.SRV_B1_BQ1_B1_v (s : State) (d : Nat) : Int := sext 32 (fldN (s.reg (Reg.SRV_B1_BQ1_B1 d)).toNat 0 32)
/-- Field SRV_B1_BQ1_B2_v in force. -/
def Cf.SRV_B1_BQ1_B2_v (s : State) (d : Nat) : Int := sext 32 (fldN (s.reg (Reg.SRV_B1_BQ1_B2 d)).toNat 0 32)
/-- Field SRV_B1_BQ1_A1_v in force. -/
def Cf.SRV_B1_BQ1_A1_v (s : State) (d : Nat) : Int := sext 32 (fldN (s.reg (Reg.SRV_B1_BQ1_A1 d)).toNat 0 32)
/-- Field SRV_B1_BQ1_A2_v in force. -/
def Cf.SRV_B1_BQ1_A2_v (s : State) (d : Nat) : Int := sext 32 (fldN (s.reg (Reg.SRV_B1_BQ1_A2 d)).toNat 0 32)
/-- Field SRV_B1_BQ2_B0_v in force. -/
def Cf.SRV_B1_BQ2_B0_v (s : State) (d : Nat) : Int := sext 32 (fldN (s.reg (Reg.SRV_B1_BQ2_B0 d)).toNat 0 32)
/-- Field SRV_B1_BQ2_B1_v in force. -/
def Cf.SRV_B1_BQ2_B1_v (s : State) (d : Nat) : Int := sext 32 (fldN (s.reg (Reg.SRV_B1_BQ2_B1 d)).toNat 0 32)
/-- Field SRV_B1_BQ2_B2_v in force. -/
def Cf.SRV_B1_BQ2_B2_v (s : State) (d : Nat) : Int := sext 32 (fldN (s.reg (Reg.SRV_B1_BQ2_B2 d)).toNat 0 32)
/-- Field SRV_B1_BQ2_A1_v in force. -/
def Cf.SRV_B1_BQ2_A1_v (s : State) (d : Nat) : Int := sext 32 (fldN (s.reg (Reg.SRV_B1_BQ2_A1 d)).toNat 0 32)
/-- Field SRV_B1_BQ2_A2_v in force. -/
def Cf.SRV_B1_BQ2_A2_v (s : State) (d : Nat) : Int := sext 32 (fldN (s.reg (Reg.SRV_B1_BQ2_A2 d)).toNat 0 32)
/-- Field SRV_B1_KP_v in force. -/
def Cf.SRV_B1_KP_v (s : State) (d : Nat) : Int := sext 32 (fldN (s.reg (Reg.SRV_B1_KP d)).toNat 0 32)
/-- Field SRV_B1_KI_v in force. -/
def Cf.SRV_B1_KI_v (s : State) (d : Nat) : Int := sext 32 (fldN (s.reg (Reg.SRV_B1_KI d)).toNat 0 32)
/-- Field SRV_B1_KD_v in force. -/
def Cf.SRV_B1_KD_v (s : State) (d : Nat) : Int := sext 32 (fldN (s.reg (Reg.SRV_B1_KD d)).toNat 0 32)
/-- Field SRV_B1_DSH_v in force. -/
def Cf.SRV_B1_DSH_v (s : State) (d : Nat) : Nat := fldN (s.reg (Reg.SRV_B1_DSH d)).toNat 0 4
/-- Field SRV_B1_I_LO_v in force. -/
def Cf.SRV_B1_I_LO_v (s : State) (d : Nat) : Int := sext 32 (fldN (s.reg (Reg.SRV_B1_I_LO d)).toNat 0 32)
/-- Field SRV_B1_I_HI_v in force. -/
def Cf.SRV_B1_I_HI_v (s : State) (d : Nat) : Int := sext 32 (fldN (s.reg (Reg.SRV_B1_I_HI d)).toNat 0 32)
/-- Field SRV_SP_CFG_src in force. -/
def Cf.SRV_SP_CFG_src (s : State) (d : Nat) : Nat := fldN (s.live (Reg.SRV_SP_CFG d)).toNat 0 3
/-- Field SRV_SP_CFG_hold_ms in force. -/
def Cf.SRV_SP_CFG_hold_ms (s : State) (d : Nat) : Nat := fldN (s.live (Reg.SRV_SP_CFG d)).toNat 16 16
/-- Field SRV_SP_FIX_v in force. -/
def Cf.SRV_SP_FIX_v (s : State) (d : Nat) : Int := sext 32 (fldN (s.live (Reg.SRV_SP_FIX d)).toNat 0 32)
/-- Field SRV_SP_OFF_v in force. -/
def Cf.SRV_SP_OFF_v (s : State) (d : Nat) : Int := sext 32 (fldN (s.live (Reg.SRV_SP_OFF d)).toNat 0 32)
/-- Field SRV_SP_LO_v in force. -/
def Cf.SRV_SP_LO_v (s : State) (d : Nat) : Int := sext 32 (fldN (s.live (Reg.SRV_SP_LO d)).toNat 0 32)
/-- Field SRV_SP_HI_v in force. -/
def Cf.SRV_SP_HI_v (s : State) (d : Nat) : Int := sext 32 (fldN (s.live (Reg.SRV_SP_HI d)).toNat 0 32)
/-- Field SRV_SP_FB_v in force. -/
def Cf.SRV_SP_FB_v (s : State) (d : Nat) : Int := sext 32 (fldN (s.live (Reg.SRV_SP_FB d)).toNat 0 32)
/-- Field SRV_SP_RAMP_TGT_v in force. -/
def Cf.SRV_SP_RAMP_TGT_v (s : State) (d : Nat) : Int := sext 32 (fldN (s.live (Reg.SRV_SP_RAMP_TGT d)).toNat 0 32)
/-- Field SRV_SP_GAIN_gain in force. -/
def Cf.SRV_SP_GAIN_gain (s : State) (d : Nat) : Int := sext 32 (fldN (s.live (Reg.SRV_SP_GAIN d)).toNat 0 32)
/-- Field SRV_SP_SLEW_slew in force. -/
def Cf.SRV_SP_SLEW_slew (s : State) (d : Nat) : Int := sext 32 (fldN (s.live (Reg.SRV_SP_SLEW d)).toNat 0 32)
/-- Field SRV_LG_REF_ref in force. -/
def Cf.SRV_LG_REF_ref (s : State) (d : Nat) (i : Nat) : Int := sext 32 (fldN (s.live (Reg.SRV_LG_REF d i)).toNat 0 32)
/-- Field SRV_LG_KP_gain in force. -/
def Cf.SRV_LG_KP_gain (s : State) (d : Nat) (i : Nat) : Int := sext 32 (fldN (s.live (Reg.SRV_LG_KP d i)).toNat 0 32)
/-- Field SRV_LG_KI_gain in force. -/
def Cf.SRV_LG_KI_gain (s : State) (d : Nat) (i : Nat) : Int := sext 32 (fldN (s.live (Reg.SRV_LG_KI d i)).toNat 0 32)
/-- Field SRV_LG_ILIM_ihi in force. -/
def Cf.SRV_LG_ILIM_ihi (s : State) (d : Nat) (i : Nat) : Int := sext 32 (fldN (s.live (Reg.SRV_LG_ILIM d i)).toNat 0 32)
/-- Field SRV_ACQ_amp in force. -/
def Cf.SRV_ACQ_amp (s : State) (d : Nat) : Nat := fldN (s.live (Reg.SRV_ACQ d)).toNat 0 16
/-- Field SRV_ACQ_per_ms in force. -/
def Cf.SRV_ACQ_per_ms (s : State) (d : Nat) : Nat := fldN (s.live (Reg.SRV_ACQ d)).toNat 16 8
/-- Field SRV_ACQ_tries in force. -/
def Cf.SRV_ACQ_tries (s : State) (d : Nat) : Nat := fldN (s.live (Reg.SRV_ACQ d)).toNat 24 4
/-- Field SRV_JUMP_jk in force. -/
def Cf.SRV_JUMP_jk (s : State) (d : Nat) : Int := sext 16 (fldN (s.live (Reg.SRV_JUMP d)).toNat 0 16)
/-- Field SRV_JUMP_tk_us in force. -/
def Cf.SRV_JUMP_tk_us (s : State) (d : Nat) : Nat := fldN (s.live (Reg.SRV_JUMP d)).toNat 16 8
/-- Field SRV_JUMP2_tmo_us in force. -/
def Cf.SRV_JUMP2_tmo_us (s : State) (d : Nat) : Nat := fldN (s.live (Reg.SRV_JUMP2 d)).toNat 0 16
/-- Field SRV_SEEK_target in force. -/
def Cf.SRV_SEEK_target (s : State) (d : Nat) : Nat := fldN (s.reg (Reg.SRV_SEEK d)).toNat 0 32
/-- Field SRV_SEEK2_kick in force. -/
def Cf.SRV_SEEK2_kick (s : State) (d : Nat) : Int := sext 16 (fldN (s.live (Reg.SRV_SEEK2 d)).toNat 0 16)
/-- Field SRV_SEEK2_short in force. -/
def Cf.SRV_SEEK2_short (s : State) (d : Nat) : Nat := fldN (s.live (Reg.SRV_SEEK2 d)).toNat 16 12
/-- Field SRV_DEF_CFG_dlev in force. -/
def Cf.SRV_DEF_CFG_dlev (s : State) (d : Nat) : Nat := fldN (s.live (Reg.SRV_DEF_CFG d)).toNat 0 4
/-- Field SRV_DEF_CFG_sum_min in force. -/
def Cf.SRV_DEF_CFG_sum_min (s : State) (d : Nat) : Nat := fldN (s.live (Reg.SRV_DEF_CFG d)).toNat 4 12
/-- Field SRV_DEF_CFG_sum_thr in force. -/
def Cf.SRV_DEF_CFG_sum_thr (s : State) (d : Nat) : Nat := fldN (s.live (Reg.SRV_DEF_CFG d)).toNat 16 12
/-- Field SRV_DEF_TMO_def_max_us in force. -/
def Cf.SRV_DEF_TMO_def_max_us (s : State) (d : Nat) : Nat := fldN (s.reg (Reg.SRV_DEF_TMO d)).toNat 0 16
/-- Field SRV_RATE_CFG_kind in force. -/
def Cf.SRV_RATE_CFG_kind (s : State) : Nat := fldN (s.live Reg.SRV_RATE_CFG).toNat 0 1
/-- Field SPN_CTL_mode in force. -/
def Cf.SPN_CTL_mode (s : State) (d : Nat) : Nat := fldN (s.live (Reg.SPN_CTL d)).toNat 0 1
/-- Field SPN_CTL_idle_s in force. -/
def Cf.SPN_CTL_idle_s (s : State) (d : Nat) : Nat := fldN (s.live (Reg.SPN_CTL d)).toNat 16 16
/-- Field SPN_MOTOR_pp in force. -/
def Cf.SPN_MOTOR_pp (s : State) (d : Nat) : Nat := fldN (s.live (Reg.SPN_MOTOR d)).toNat 0 4
/-- Field SPN_IFS_ma in force. -/
def Cf.SPN_IFS_ma (s : State) (d : Nat) : Nat := fldN (s.live (Reg.SPN_IFS d)).toNat 0 16
/-- Field SPN_KE_nom in force. -/
def Cf.SPN_KE_nom (s : State) (d : Nat) : Nat := fldN (s.live (Reg.SPN_KE d)).toNat 0 16
/-- Field SPN_KE_tol in force. -/
def Cf.SPN_KE_tol (s : State) (d : Nat) : Nat := fldN (s.live (Reg.SPN_KE d)).toNat 16 8
/-- Field SPN_BEMF_div in force. -/
def Cf.SPN_BEMF_div (s : State) (d : Nat) : Nat := fldN (s.live (Reg.SPN_BEMF d)).toNat 0 16
/-- Field SPN_PWM_khz in force. -/
def Cf.SPN_PWM_khz (s : State) (d : Nat) : Nat := fldN (s.live (Reg.SPN_PWM d)).toNat 0 8
/-- Field SPN_PWM_dead in force. -/
def Cf.SPN_PWM_dead (s : State) (d : Nat) : Nat := fldN (s.live (Reg.SPN_PWM d)).toNat 8 8
/-- Field SPN_PWM_dmax in force. -/
def Cf.SPN_PWM_dmax (s : State) (d : Nat) : Nat := fldN (s.live (Reg.SPN_PWM d)).toNat 16 8
/-- Field SPN_CUR_kc in force. -/
def Cf.SPN_CUR_kc (s : State) (d : Nat) : Nat := fldN (s.live (Reg.SPN_CUR d)).toNat 0 16
/-- Field SPN_IPD_t_us in force. -/
def Cf.SPN_IPD_t_us (s : State) (d : Nat) : Nat := fldN (s.live (Reg.SPN_IPD d)).toNat 0 8
/-- Field SPN_IPD_gap_us in force. -/
def Cf.SPN_IPD_gap_us (s : State) (d : Nat) : Nat := fldN (s.live (Reg.SPN_IPD d)).toNat 8 10
/-- Field SPN_IPD_margin in force. -/
def Cf.SPN_IPD_margin (s : State) (d : Nat) : Nat := fldN (s.live (Reg.SPN_IPD d)).toNat 20 8
/-- Field SPN_START_i_start in force. -/
def Cf.SPN_START_i_start (s : State) (d : Nat) : Nat := fldN (s.live (Reg.SPN_START d)).toNat 0 8
/-- Field SPN_START_accel in force. -/
def Cf.SPN_START_accel (s : State) (d : Nat) : Nat := fldN (s.live (Reg.SPN_START d)).toNat 8 16
/-- Field SPN_START_retries in force. -/
def Cf.SPN_START_retries (s : State) (d : Nat) : Nat := fldN (s.live (Reg.SPN_START d)).toNat 24 4
/-- Field SPN_START2_handover in force. -/
def Cf.SPN_START2_handover (s : State) (d : Nat) : Nat := fldN (s.live (Reg.SPN_START2 d)).toNat 0 16
/-- Field SPN_COM_adv in force. -/
def Cf.SPN_COM_adv (s : State) (d : Nat) : Nat := fldN (s.live (Reg.SPN_COM d)).toNat 0 4
/-- Field SPN_COM_win in force. -/
def Cf.SPN_COM_win (s : State) (d : Nat) : Nat := fldN (s.live (Reg.SPN_COM d)).toNat 8 4
/-- Field SPN_COM_blank in force. -/
def Cf.SPN_COM_blank (s : State) (d : Nat) : Nat := fldN (s.live (Reg.SPN_COM d)).toNat 12 4
/-- Field SPN_ZONE_derate in force. -/
def Cf.SPN_ZONE_derate (s : State) (d : Nat) : Nat := fldN (s.live (Reg.SPN_ZONE d)).toNat 0 4
/-- Field SPN_ZONE_floor_rpm in force. -/
def Cf.SPN_ZONE_floor_rpm (s : State) (d : Nat) : Nat := fldN (s.live (Reg.SPN_ZONE d)).toNat 16 16
/-- Field SPN_LOCK_tol in force. -/
def Cf.SPN_LOCK_tol (s : State) (d : Nat) : Nat := fldN (s.live (Reg.SPN_LOCK d)).toNat 0 4
/-- Field SPN_LOCK_tol_out in force. -/
def Cf.SPN_LOCK_tol_out (s : State) (d : Nat) : Nat := fldN (s.live (Reg.SPN_LOCK d)).toNat 4 4
/-- Field SPN_LOCK_rev in force. -/
def Cf.SPN_LOCK_rev (s : State) (d : Nat) : Nat := fldN (s.live (Reg.SPN_LOCK d)).toNat 8 4
/-- Field SPN_PROT_ioc in force. -/
def Cf.SPN_PROT_ioc (s : State) (d : Nat) : Nat := fldN (s.live (Reg.SPN_PROT d)).toNat 0 16
/-- Field SPN_PROT_loss_max in force. -/
def Cf.SPN_PROT_loss_max (s : State) (d : Nat) : Nat := fldN (s.live (Reg.SPN_PROT d)).toNat 16 4
/-- Field SLD_TGT_target in force. -/
def Cf.SLD_TGT_target (s : State) (d : Nat) : Int := sext 32 (fldN (s.reg (Reg.SLD_TGT d)).toNat 0 32)
/-- Field SLD_CTL_hold_off in force. -/
def Cf.SLD_CTL_hold_off (s : State) (d : Nat) : Nat := fldN (s.live (Reg.SLD_CTL d)).toNat 0 1
/-- Field SLD_MOT_v_max in force. -/
def Cf.SLD_MOT_v_max (s : State) (d : Nat) : Nat := fldN (s.live (Reg.SLD_MOT d)).toNat 0 18
/-- Field SLD_MOT2_a in force. -/
def Cf.SLD_MOT2_a (s : State) (d : Nat) : Nat := fldN (s.live (Reg.SLD_MOT2 d)).toNat 0 24
/-- Field SLD_MOT3_v_min in force. -/
def Cf.SLD_MOT3_v_min (s : State) (d : Nat) : Nat := fldN (s.live (Reg.SLD_MOT3 d)).toNat 0 12
/-- Field SLD_MOT3_settle_ms in force. -/
def Cf.SLD_MOT3_settle_ms (s : State) (d : Nat) : Nat := fldN (s.live (Reg.SLD_MOT3 d)).toNat 16 8
/-- Field SLD_LIM_MIN_limit in force. -/
def Cf.SLD_LIM_MIN_limit (s : State) (d : Nat) : Int := sext 32 (fldN (s.live (Reg.SLD_LIM_MIN d)).toNat 0 32)
/-- Field SLD_LIM_MAX_limit in force. -/
def Cf.SLD_LIM_MAX_limit (s : State) (d : Nat) : Int := sext 32 (fldN (s.live (Reg.SLD_LIM_MAX d)).toNat 0 32)
/-- Field SLD_CUR_i_hold in force. -/
def Cf.SLD_CUR_i_hold (s : State) (d : Nat) : Nat := fldN (s.live (Reg.SLD_CUR d)).toNat 0 12
/-- Field SLD_CUR_i_max in force. -/
def Cf.SLD_CUR_i_max (s : State) (d : Nat) : Nat := fldN (s.live (Reg.SLD_CUR d)).toNat 16 12
/-- Field SLD_CUR2_kacc in force. -/
def Cf.SLD_CUR2_kacc (s : State) (d : Nat) : Nat := fldN (s.live (Reg.SLD_CUR2 d)).toNat 0 8
/-- Field SLD_CUR2_kvel in force. -/
def Cf.SLD_CUR2_kvel (s : State) (d : Nat) : Nat := fldN (s.live (Reg.SLD_CUR2 d)).toNat 8 8
/-- Field SLD_CUR2_step in force. -/
def Cf.SLD_CUR2_step (s : State) (d : Nat) : Nat := fldN (s.live (Reg.SLD_CUR2 d)).toNat 16 8
/-- Field SLD_CUR2_decay_s in force. -/
def Cf.SLD_CUR2_decay_s (s : State) (d : Nat) : Nat := fldN (s.live (Reg.SLD_CUR2 d)).toNat 24 8
/-- Field SLD_CUR3_kc in force. -/
def Cf.SLD_CUR3_kc (s : State) (d : Nat) : Nat := fldN (s.live (Reg.SLD_CUR3 d)).toNat 0 16
/-- Field SLD_PWM_khz in force. -/
def Cf.SLD_PWM_khz (s : State) (d : Nat) : Nat := fldN (s.live (Reg.SLD_PWM d)).toNat 0 8
/-- Field SLD_PWM_dmax in force. -/
def Cf.SLD_PWM_dmax (s : State) (d : Nat) : Nat := fldN (s.live (Reg.SLD_PWM d)).toNat 8 8
/-- Field SLD_PROT_ioc in force. -/
def Cf.SLD_PROT_ioc (s : State) (d : Nat) : Nat := fldN (s.live (Reg.SLD_PROT d)).toNat 0 12
/-- Field SLD_MECH_NM_nm16 in force. -/
def Cf.SLD_MECH_NM_nm16 (s : State) (d : Nat) : Nat := fldN (s.live (Reg.SLD_MECH_NM d)).toNat 0 20
/-- Field SLD_MECH_RNG_range in force. -/
def Cf.SLD_MECH_RNG_range (s : State) (d : Nat) : Nat := fldN (s.live (Reg.SLD_MECH_RNG d)).toNat 0 24
/-- Field SLD_MECH_LEAD_pos_lead in force. -/
def Cf.SLD_MECH_LEAD_pos_lead (s : State) (d : Nat) : Int := sext 32 (fldN (s.live (Reg.SLD_MECH_LEAD d)).toNat 0 32)
/-- Field SLD_MECH_PARK_park in force. -/
def Cf.SLD_MECH_PARK_park (s : State) (d : Nat) : Int := sext 32 (fldN (s.live (Reg.SLD_MECH_PARK d)).toNat 0 32)
/-- Field SLD_MECH_RREF_r_ref in force. -/
def Cf.SLD_MECH_RREF_r_ref (s : State) (d : Nat) (i : Nat) : Nat := fldN (s.live (Reg.SLD_MECH_RREF d i)).toNat 0 17
/-- Field SLD_HOME_v_home in force. -/
def Cf.SLD_HOME_v_home (s : State) (d : Nat) : Nat := fldN (s.live (Reg.SLD_HOME d)).toNat 0 16
/-- Field SLD_HOME_i_home in force. -/
def Cf.SLD_HOME_i_home (s : State) (d : Nat) : Nat := fldN (s.live (Reg.SLD_HOME d)).toNat 16 12
/-- Field SLD_LOST_tol in force. -/
def Cf.SLD_LOST_tol (s : State) (d : Nat) : Nat := fldN (s.live (Reg.SLD_LOST d)).toNat 0 12
/-- Field SLD_LOST_period_ms in force. -/
def Cf.SLD_LOST_period_ms (s : State) (d : Nat) : Nat := fldN (s.live (Reg.SLD_LOST d)).toNat 12 12
/-- Field SLD_LOST_max in force. -/
def Cf.SLD_LOST_max (s : State) (d : Nat) : Nat := fldN (s.live (Reg.SLD_LOST d)).toNat 24 4
/-- Field CAL_CTL_auto in force. -/
def Cf.CAL_CTL_auto (s : State) : Nat := fldN (s.live Reg.CAL_CTL).toNat 0 11
/-- Field CAL_CFG_dt in force. -/
def Cf.CAL_CFG_dt (s : State) : Nat := fldN (s.live Reg.CAL_CFG).toNat 0 8
/-- Field CAL_CFG_span in force. -/
def Cf.CAL_CFG_span (s : State) : Nat := fldN (s.live Reg.CAL_CFG).toNat 8 8
/-- Field CAL_CFG_defer_s in force. -/
def Cf.CAL_CFG_defer_s (s : State) : Nat := fldN (s.live Reg.CAL_CFG).toNat 16 16
/-- Field CAL_CFG2_store_min in force. -/
def Cf.CAL_CFG2_store_min (s : State) : Nat := fldN (s.live Reg.CAL_CFG2).toNat 0 8
/-- Field CAL_CFG2_cold_min in force. -/
def Cf.CAL_CFG2_cold_min (s : State) : Nat := fldN (s.live Reg.CAL_CFG2).toNat 8 16
/-- Field CAL_TSREF_temp in force. -/
def Cf.CAL_TSREF_temp (s : State) : Int := sext 16 (fldN (s.reg Reg.CAL_TSREF).toNat 0 16)
/-- Field CAL_GN_FOC_fc_hz in force. -/
def Cf.CAL_GN_FOC_fc_hz (s : State) : Nat := fldN (s.live Reg.CAL_GN_FOC).toNat 0 16
/-- Field CAL_GN_FOC_amp in force. -/
def Cf.CAL_GN_FOC_amp (s : State) : Nat := fldN (s.live Reg.CAL_GN_FOC).toNat 16 16
/-- Field CAL_GN_TRK_fc_hz in force. -/
def Cf.CAL_GN_TRK_fc_hz (s : State) : Nat := fldN (s.live Reg.CAL_GN_TRK).toNat 0 16
/-- Field CAL_GN_TRK_amp in force. -/
def Cf.CAL_GN_TRK_amp (s : State) : Nat := fldN (s.live Reg.CAL_GN_TRK).toNat 16 16
/-- Field CAL_FB_step in force. -/
def Cf.CAL_FB_step (s : State) : Nat := fldN (s.live Reg.CAL_FB).toNat 0 16
/-- Field CAL_ZPW_kz in force. -/
def Cf.CAL_ZPW_kz (s : State) : Nat := fldN (s.live Reg.CAL_ZPW).toNat 0 8
/-- Field CAL_ZPW_gamma in force. -/
def Cf.CAL_ZPW_gamma (s : State) : Nat := fldN (s.live Reg.CAL_ZPW).toNat 8 8
/-- Field CAL_LCAP_ma in force. -/
def Cf.CAL_LCAP_ma (s : State) : Nat := fldN (s.live Reg.CAL_LCAP).toNat 0 12
/-- Field CAL_ITEM_SEL_kind in force. -/
def Cf.CAL_ITEM_SEL_kind (s : State) : Nat := fldN (s.reg Reg.CAL_ITEM_SEL).toNat 0 4
/-- Field CAL_ITEM_SEL_drive in force. -/
def Cf.CAL_ITEM_SEL_drive (s : State) : Nat := fldN (s.reg Reg.CAL_ITEM_SEL).toNat 4 2
/-- Field HRN_LDI_FS_ma_fs in force. -/
def Cf.HRN_LDI_FS_ma_fs (s : State) : Nat := fldN (s.live Reg.HRN_LDI_FS).toNat 0 16
/-- Field HRN_LDI_FS_warn_ma in force. -/
def Cf.HRN_LDI_FS_warn_ma (s : State) : Nat := fldN (s.live Reg.HRN_LDI_FS).toNat 16 16
/-- Field HRN_THERM_warn in force. -/
def Cf.HRN_THERM_warn (s : State) : Nat := fldN (s.live Reg.HRN_THERM).toNat 0 8
/-- Field HRN_THERM_crit in force. -/
def Cf.HRN_THERM_crit (s : State) : Nat := fldN (s.live Reg.HRN_THERM).toNat 8 8
/-- Field TIM_STG_SEC_LO_sec in force. -/
def Cf.TIM_STG_SEC_LO_sec (s : State) : Nat := fldN (s.reg Reg.TIM_STG_SEC_LO).toNat 0 32
/-- Field TIM_STG_SEC_HI_sec in force. -/
def Cf.TIM_STG_SEC_HI_sec (s : State) : Nat := fldN (s.reg Reg.TIM_STG_SEC_HI).toNat 0 32
/-- Field TIM_STG_SUB_sub in force. -/
def Cf.TIM_STG_SUB_sub (s : State) : Nat := fldN (s.reg Reg.TIM_STG_SUB).toNat 0 15
/-- Field NVS_CNT_SEL_num in force. -/
def Cf.NVS_CNT_SEL_num (s : State) : Nat := fldN (s.reg Reg.NVS_CNT_SEL).toNat 0 9
/-- Field LOG_IEN_en in force. -/
def Cf.LOG_IEN_en (s : State) : Nat := fldN (s.reg Reg.LOG_IEN).toNat 0 2
/-- Field INP_IEN_en in force. -/
def Cf.INP_IEN_en (s : State) : Nat := fldN (s.reg Reg.INP_IEN).toNat 0 4
/-- Field INP_DIS_rate_in in force. -/
def Cf.INP_DIS_rate_in (s : State) : Nat := fldN (s.live Reg.INP_DIS).toNat 0 1
/-- Field INP_DIS_setp_ain in force. -/
def Cf.INP_DIS_setp_ain (s : State) : Nat := fldN (s.live Reg.INP_DIS).toNat 1 1
/-- Field INP_CFG_TRAY_close_ms in force. -/
def Cf.INP_CFG_TRAY_close_ms (s : State) : Nat := fldN (s.live Reg.INP_CFG_TRAY).toNat 0 16
/-- Field INP_CFG_TRAY_limit in force. -/
def Cf.INP_CFG_TRAY_limit (s : State) : Nat := fldN (s.live Reg.INP_CFG_TRAY).toNat 16 8
/-- Field INP_CFG_TRAY_pair_s in force. -/
def Cf.INP_CFG_TRAY_pair_s (s : State) : Nat := fldN (s.live Reg.INP_CFG_TRAY).toNat 24 8
/-- Field INP_CFG_DOOR_close_ms in force. -/
def Cf.INP_CFG_DOOR_close_ms (s : State) : Nat := fldN (s.live Reg.INP_CFG_DOOR).toNat 0 16
/-- Field INP_CFG_DOOR_limit in force. -/
def Cf.INP_CFG_DOOR_limit (s : State) : Nat := fldN (s.live Reg.INP_CFG_DOOR).toNat 16 8
/-- Field INP_CFG_DOOR_pair_s in force. -/
def Cf.INP_CFG_DOOR_pair_s (s : State) : Nat := fldN (s.live Reg.INP_CFG_DOOR).toNat 24 8
/-- Field INP_CFG_RATE_glitch in force. -/
def Cf.INP_CFG_RATE_glitch (s : State) : Nat := fldN (s.live Reg.INP_CFG_RATE).toNat 0 8
/-- Field INP_CFG_RATE_limit in force. -/
def Cf.INP_CFG_RATE_limit (s : State) : Nat := fldN (s.live Reg.INP_CFG_RATE).toNat 8 8
/-- Field INP_CFG_RATE_stuck_ms in force. -/
def Cf.INP_CFG_RATE_stuck_ms (s : State) : Nat := fldN (s.live Reg.INP_CFG_RATE).toNat 16 16
/-- Field INS_T_LIMITS_max_inflight in force. -/
def Cf.INS_T_LIMITS_max_inflight (s : State) (d : Nat) : Nat := fldN (s.live (Reg.INS_T_LIMITS d)).toNat 0 7
/-- Field INS_T_LIMITS_rings in force. -/
def Cf.INS_T_LIMITS_rings (s : State) (d : Nat) : Nat := fldN (s.live (Reg.INS_T_LIMITS d)).toNat 8 3
/-- Field INS_T_LIMITS_task_port_en in force. -/
def Cf.INS_T_LIMITS_task_port_en (s : State) (d : Nat) : Nat := fldN (s.live (Reg.INS_T_LIMITS d)).toNat 12 1
/-- Field INS_T_LIMITS_relay_en in force. -/
def Cf.INS_T_LIMITS_relay_en (s : State) (d : Nat) : Nat := fldN (s.live (Reg.INS_T_LIMITS d)).toNat 13 1
/-- Field RNG_POLL_min_us in force. -/
def Cf.RNG_POLL_min_us (s : State) : Nat := fldN (s.live Reg.RNG_POLL).toNat 0 16
/-- Field RNG_POLL_max_us in force. -/
def Cf.RNG_POLL_max_us (s : State) : Nat := fldN (s.live Reg.RNG_POLL).toNat 16 16
/-- Field RNG_IDLE_ms in force. -/
def Cf.RNG_IDLE_ms (s : State) : Nat := fldN (s.live Reg.RNG_IDLE).toNat 0 16
/-- Field HST_IDE_CTL_required in force. -/
def Cf.HST_IDE_CTL_required (s : State) : Nat := fldN (s.reg Reg.HST_IDE_CTL).toNat 0 1
/-- Field F_IEN_en in force. -/
def Cf.F_IEN_en (s : State) (d : Nat) : Nat := fldN (s.reg (Reg.F_IEN d)).toNat 0 4
/-- Field F_SPG_SEL_page in force. -/
def Cf.F_SPG_SEL_page (s : State) (d : Nat) : Nat := fldN (s.reg (Reg.F_SPG_SEL d)).toNat 0 1
/-- Field F_SPG_SEL_instance in force. -/
def Cf.F_SPG_SEL_instance (s : State) (d : Nat) : Nat := fldN (s.reg (Reg.F_SPG_SEL d)).toNat 8 8
/-- Field F_IN_SLOT_word in force. -/
def Cf.F_IN_SLOT_word (s : State) (d : Nat) (i : Nat) : Nat := fldN (s.reg (Reg.F_IN_SLOT d i)).toNat 0 32
/-- Field F_TSK_ENTRY_word in force. -/
def Cf.F_TSK_ENTRY_word (s : State) (d : Nat) (i : Nat) : Nat := fldN (s.reg (Reg.F_TSK_ENTRY d i)).toNat 0 32
/-- Field F_TSK_CTL_irq_en in force. -/
def Cf.F_TSK_CTL_irq_en (s : State) (d : Nat) : Nat := fldN (s.reg (Reg.F_TSK_CTL d)).toNat 0 1
/-- Field F_RNG_DB_LO_addr in force. -/
def Cf.F_RNG_DB_LO_addr (s : State) (d : Nat) : Nat := fldN (s.reg (Reg.F_RNG_DB_LO d)).toNat 12 20
/-- Field F_RNG_DB_HI_addr in force. -/
def Cf.F_RNG_DB_HI_addr (s : State) (d : Nat) : Nat := fldN (s.reg (Reg.F_RNG_DB_HI d)).toNat 0 32
/-- Field F_RNG_CTL_db_en in force. -/
def Cf.F_RNG_CTL_db_en (s : State) (d : Nat) : Nat := fldN (s.reg (Reg.F_RNG_CTL d)).toNat 0 1
/-- Field F_RNG_CTL_sleep_en in force. -/
def Cf.F_RNG_CTL_sleep_en (s : State) (d : Nat) : Nat := fldN (s.reg (Reg.F_RNG_CTL d)).toNat 1 1
/-- Field F_RNG_IEN_en in force. -/
def Cf.F_RNG_IEN_en (s : State) (d : Nat) : Nat := fldN (s.reg (Reg.F_RNG_IEN d)).toNat 0 9
/-- Field F_SQ_BASE_LO_base in force. -/
def Cf.F_SQ_BASE_LO_base (s : State) (d : Nat) (i : Nat) : Nat := fldN (s.reg (Reg.F_SQ_BASE_LO d i)).toNat 0 32
/-- Field F_SQ_BASE_HI_base in force. -/
def Cf.F_SQ_BASE_HI_base (s : State) (d : Nat) (i : Nat) : Nat := fldN (s.reg (Reg.F_SQ_BASE_HI d i)).toNat 0 32
/-- Field F_SQ_CFG_en in force. -/
def Cf.F_SQ_CFG_en (s : State) (d : Nat) (i : Nat) : Nat := fldN (s.reg (Reg.F_SQ_CFG d i)).toNat 0 1
/-- Field F_SQ_CFG_size_log2 in force. -/
def Cf.F_SQ_CFG_size_log2 (s : State) (d : Nat) (i : Nat) : Nat := fldN (s.reg (Reg.F_SQ_CFG d i)).toNat 8 4
/-- Field F_SQ_CFG_cq in force. -/
def Cf.F_SQ_CFG_cq (s : State) (d : Nat) (i : Nat) : Nat := fldN (s.reg (Reg.F_SQ_CFG d i)).toNat 16 2
/-- Field F_CQ_BASE_LO_base in force. -/
def Cf.F_CQ_BASE_LO_base (s : State) (d : Nat) (i : Nat) : Nat := fldN (s.reg (Reg.F_CQ_BASE_LO d i)).toNat 0 32
/-- Field F_CQ_BASE_HI_base in force. -/
def Cf.F_CQ_BASE_HI_base (s : State) (d : Nat) (i : Nat) : Nat := fldN (s.reg (Reg.F_CQ_BASE_HI d i)).toNat 0 32
/-- Field F_CQ_CFG_en in force. -/
def Cf.F_CQ_CFG_en (s : State) (d : Nat) (i : Nat) : Nat := fldN (s.reg (Reg.F_CQ_CFG d i)).toNat 0 1
/-- Field F_CQ_CFG_size_log2 in force. -/
def Cf.F_CQ_CFG_size_log2 (s : State) (d : Nat) (i : Nat) : Nat := fldN (s.reg (Reg.F_CQ_CFG d i)).toNat 8 4
/-- Field F_CQ_CFG_vector in force. -/
def Cf.F_CQ_CFG_vector (s : State) (d : Nat) (i : Nat) : Nat := fldN (s.reg (Reg.F_CQ_CFG d i)).toNat 16 4
/-- Field F_CQ_COAL_count in force. -/
def Cf.F_CQ_COAL_count (s : State) (d : Nat) (i : Nat) : Nat := fldN (s.reg (Reg.F_CQ_COAL d i)).toNat 0 8
/-- Field F_CQ_COAL_time in force. -/
def Cf.F_CQ_COAL_time (s : State) (d : Nat) (i : Nat) : Nat := fldN (s.reg (Reg.F_CQ_COAL d i)).toNat 16 16

end Sys2Proof.Machine
end

