-- ==== Sys2Proof/Machine/Ops.lean ====
section
/-!
DEFINITION. The named operations that every family shares: records by number, outputs, free values, the NVM and its counters, the
event log, interrupts, mailbox messages, access errors.
-/

namespace Sys2Proof.Machine

/-! ### Records by number -/

/-- The record of instance `i`. -/
def State.getInst (s : State) (i : Nat) : Instance := Bank.get instDef s.inst i

/-- The block with the record of instance `i` replaced. -/
def State.setInst (s : State) (i : Nat) (v : Instance) : State := { s with inst := Bank.set instDef s.inst i v }

/-- The block with the record of instance `i` changed by `g`. -/
def State.modInst (s : State) (i : Nat) (g : Instance → Instance) : State := s.setInst i (g (s.getInst i))

/-- Function `f`. -/
def State.getFn (s : State) (f : Nat) : Fn := Bank.get fnDef s.fn f

/-- The block with function `f` replaced. -/
def State.setFn (s : State) (f : Nat) (v : Fn) : State := { s with fn := Bank.set fnDef s.fn f v }

/-- The block with function `f` changed by `g`. -/
def State.modFn (s : State) (f : Nat) (g : Fn → Fn) : State := s.setFn f (g (s.getFn f))

/-- The `i`-th element of a list, or `d`. -/
def nth {α : Type} (d : α) : List α → Nat → α
  | [], _ => d
  | a :: _, 0 => a
  | _ :: r, n + 1 => nth d r n

/-- The list with its `i`-th element changed, where it has one. -/
def modNth {α : Type} (g : α → α) : List α → Nat → List α
  | [], _ => []
  | a :: r, 0 => g a :: r
  | a :: r, n + 1 => a :: modNth g r n

/-- `g` applied for every instance number or index below `n`, in rising order. DESIGN CHOICE, log entry 25. -/
def forBelow (n : Nat) (g : Nat → State → State) (s : State) : State :=
  match n with
  | 0 => s
  | k + 1 => g k (forBelow k g s)

/-- `g` applied for every element in turn. DESIGN CHOICE, log entry 25. -/
def forEach {α : Type} (l : List α) (g : α → State → State) (s : State) : State :=
  l.foldl (fun t a => g a t) s

/-- AES-GCM encryption and decryption of a text: its exclusive-or with the key stream. -/
def gcmText (key nonce : Nat) (text : List Byte) : List Byte := (text.zipIdx).map (fun e => e.1 ^^^ Config.gcmByte key nonce e.2)

/-! ### Running, halted, sending -/

/-- No integrity halt has begun (R489), and power-on reset is not held. -/
def State.running (s : State) : Bool := s.hlt.halt.isNone && !s.hlt.porHeld

/-- The first ready state has been reached, or the monitor writes PF BAR2 in its place (Table 17-4), and neither a halt nor a warm reset
stands in the way (R480, R484). -/
def State.serving (s : State) : Bool := s.running && (s.boot.ready || s.mon.acting) && !s.hlt.warming && !s.hlt.porHeld

/-- `g`, where the block serves commands; otherwise nothing changes. DESIGN CHOICE, log entry 3. -/
def whenServing (s : State) (g : State → State) : State := if s.serving then g s else s

/-- `g`, where the block is not halted. DESIGN CHOICE, log entry 3. -/
def whenRunning (s : State) (g : State → State) : State := if s.running && !s.hlt.porHeld then g s else s

/-- The block after sending `e`. DESIGN CHOICE, log entry 12. -/
def State.emit (s : State) (e : Emit) : State := { s with out := e :: s.out }

/-- The block returns to RUN (R462). -/
def State.wakeUp (s : State) : State := { s with clk := { s.clk with mode := 0, idleSince := none } }

/-- A value the spec leaves open, and the block with the counter of free values advanced (DESIGN CHOICE, log entry 4). -/
def State.freeVal (s : State) : Nat := Config.freeNat s.free
def State.useFree (s : State) : State := { s with free := s.free + 1 }

/-- Wall time: seconds × 32,768 + sub-seconds (R518). -/
def TimeState.wall (t : TimeState) : Nat := t.sec * 32768 + t.sub

/-- Microseconds since the last power-on or PERST_N. -/
def TimeState.micros (t : TimeState) : Nat := t.ticks * 1000000 / 32768

/-! ### NVM (R506) -/

/-- Bytes of the NVM. -/
def State.nvmBytes (s : State) (off len : Nat) : List Byte := Bank.bytes nvmDef s.nvm off len

/-- The rows of 64 bytes that a run of bytes touches. -/
def rowsOf (off len : Nat) : Nat := if len = 0 then 0 else (off + len - 1) / 64 - off / 64 + 1

/-- The block after a write of a run of NVM bytes; NVS.WRITES counts the rows, saturating. -/
def State.nvmWrite (s : State) (off : Nat) (l : List Byte) : State :=
  { s with nvm := Bank.putBytes nvmDef s.nvm off l,
           nvs := { s.nvs with writes := satU 32 (s.nvs.writes + rowsOf off l.length) } }

/-- The 16 bytes of slot A (0) or B (1) of counter `n` (R514). -/
def ctrSlotAddr (n slot : Nat) : Nat := 0x25800 + 32 * n + 16 * slot
def State.ctrSlot (s : State) (n slot : Nat) : List Byte := s.nvmBytes (ctrSlotAddr n slot) 16

/-- A slot is valid when its CRC-32 matches, and erased when every byte is 0xFF (R514). -/
def slotValid (b : List Byte) : Bool := decide (crc32 (slice b 0 12) = leAt b 12 4)
def slotErased (b : List Byte) : Bool := b.all (fun x => x == 0xFF)

/-- The slot that holds the current value of a counter, if one is valid (R514). -/
def State.ctrCur (s : State) (n : Nat) : Option Nat :=
  let a := s.ctrSlot n 0
  let b := s.ctrSlot n 1
  let va := slotValid a && !slotErased a
  let vb := slotValid b && !slotErased b
  if va && vb then (if serialAfter (leAt b 8 4) (leAt a 8 4) then some 1 else some 0)
  else if va then some 0
  else if vb then some 1
  else none

/-- The value of a counter; 0 while both slots are erased (R514). -/
def State.ctr (s : State) (n : Nat) : Nat :=
  match s.ctrCur n with
  | some k => leAt (s.ctrSlot n k) 0 8
  | none => 0

/-- The 16 bytes of a counter slot. -/
def slotImage (v tag : Nat) : List Byte :=
  let b := leBytes 8 v ++ leBytes 4 tag
  b ++ leBytes 4 (crc32 b)

/-- An update writes the slot that does not hold the current value, with the tag plus one (R515). -/
def State.ctrStore (s : State) (n v : Nat) : State :=
  match s.ctrCur n with
  | some k => s.nvmWrite (ctrSlotAddr n (1 - k)) (slotImage v (leAt (s.ctrSlot n k) 8 4 + 1))
  | none => s.nvmWrite (ctrSlotAddr n 0) (slotImage v 1)

/-- The intent cell (R515). -/
def intentAddr : Nat := 0x27A00
def intentImage (n target : Nat) : List Byte :=
  let b := leBytes 2 n ++ [0, 0] ++ leBytes 8 target
  b ++ leBytes 4 (crc32 b)

/-- A monotonic counter is raised to a greater value: intent, slot, intent cleared (R515). -/
def State.ctrRaise (s : State) (n v : Nat) : State :=
  if s.ctr n < v then
    (((s.nvmWrite intentAddr (intentImage n v)).ctrStore n v).nvmWrite intentAddr (intentImage 0xFFFF 0))
  else s

/-- A monotonic counter is incremented by one. -/
def State.ctrInc (s : State) (n : Nat) : State := s.ctrRaise n (s.ctr n + 1)

/-! ### Interrupts (R55, R56) -/

/-- The Pyaris holds its requests: the stream is required and not Secure (R70). -/
def State.ideHold (s : State) : Bool := decide (fld (s.reg Reg.HST_IDE_CTL) 0 1 = 1) && !s.sec.secure

/-- Transmission is held on sub-stream `k` (0 posted, 1 non-posted, 2 completion), whose invocation counter reached its limit (R69). -/
def State.txHold (s : State) (k : Nat) : Bool := s.sec.secure && (nth IdeDir.reset s.sec.dirs (3 + k)).held

/-- A completion leaves, or waits for its sub-stream (R69). -/
def State.emitCpl (s : State) (e : Emit) : State :=
  if s.txHold 2 then { s with sec := { s.sec with cplWait := s.sec.cplWait ++ [e] } } else s.emit e

/-- The completions that waited leave, once their sub-stream is held no more. -/
def State.flushCpl (s : State) : State :=
  if s.txHold 2 then s
  else forEach s.sec.cplWait (fun e t => t.emit e) { s with sec := { s.sec with cplWait := [] } }

/-- A holding condition of R56 applies to vector `v` of function `f`. DESIGN CHOICE, log entry 58. -/
def State.msixHeld (s : State) (f v : Nat) : Bool :=
  let n := s.getFn f
  (Bank.get msixDef n.msix v).masked || n.cfg.fmask || !n.cfg.msixEn || !n.cfg.bme || s.link.d3 || s.ideHold || s.txHold 0

/-- The message of vector `v` leaves as its table entry says. DESIGN CHOICE, log entry 58. -/
def State.sendMsix (s : State) (f v : Nat) : State :=
  let e := Bank.get msixDef (s.getFn f).msix v
  (s.emit (.msix (BitVec.ofNat 8 f) v)).emit (.dmaWrite (BitVec.ofNat 8 f) e.addr false (leBytes 4 e.data))

/-- An interrupt is raised: lost within a reset of the function, pending while held, sent otherwise (R56). -/
def State.raise (s : State) (f v : Nat) : State :=
  if !s.running || s.hlt.warming || (s.getFn f).flr then s
  else if s.msixHeld f v then s.modFn f (fun n => { n with pba := setBitN n.pba v true })
  else s.sendMsix f v

/-- The pending vectors of a function that no condition holds any more send one message each (R56). DESIGN CHOICE, log entry 58. -/
def State.releasePending (s : State) (f : Nat) : State :=
  forBelow 16 (fun v t =>
    if bitN (t.getFn f).pba v && !t.msixHeld f v && t.running then
      (t.modFn f (fun n => { n with pba := setBitN n.pba v false })).sendMsix f v
    else t) s

/-- A bit of INS.EVT becomes 1; vector 0 is signalled when the same bit of INS.IEN is 1 (Table 03-13). -/
def State.setInsEvt (s : State) (f bit : Nat) : State :=
  if bitN (s.getFn f).insEvt bit then s
  else
    let t := s.modFn f (fun n => { n with insEvt := setBitN n.insEvt bit true })
    if bitN (t.reg (Reg.F_IEN f)).toNat bit then t.raise f 0 else t

/-- A bit of RNG.EVT becomes 1 (Table 04-16). -/
def State.setRngEvt (s : State) (f bit : Nat) : State :=
  if bitN (s.getFn f).rngEvt bit then s
  else
    let t := s.modFn f (fun n => { n with rngEvt := setBitN n.rngEvt bit true })
    if bitN (t.reg (Reg.F_RNG_IEN f)).toNat bit then t.raise f 0 else t

/-! ### Input levels in use (R557 to R560, R563) -/

/-- The used level of digital input `i` of Table 18-7. -/
def State.level (s : State) (i : Nat) : Bool :=
  if i = 11 && decide (Cf.INP_DIS_rate_in s = 1) then false
  else if bitN s.inp.chat i then (if i = 11 then bitN s.inp.qual i else false)
  else if bitN s.inp.stuck i then decide (i = 12)
  else bitN s.inp.qual i

/-- The used levels as INP.LVL shows them. -/
def State.levels (s : State) : Nat := maskOf 13 s.level

/-- A drive's tray is in and its door closed; PD_PGOOD reads high. -/
def State.shut (s : State) (d : Nat) : Bool := s.level d && s.level (4 + d)
def State.pgood (s : State) : Bool := s.level 10

/-! ### Event log (R500 to R505) -/

/-- The 32 bytes of an entry (Table 16-2). -/
def LogEntry.bytes (e : LogEntry) : List Byte :=
  let inst : Nat := (match e.inst with
    | some i => i.toNat
    | none => 0)
  leBytes 4 e.seq ++ leBytes 1 e.ev.cls ++ leBytes 1 e.ev.src ++ leBytes 1 inst ++
    leBytes 1 (b2n e.inst.isSome + 2 * b2n e.wallValid + 4 * b2n e.early) ++ leBytes 8 e.wall ++ leBytes 5 e.mono ++
    leBytes 1 e.reps ++ leBytes 2 (Config.evCode e.ev.src e.ev.ctorIdx).toNat ++ leBytes 8 e.arg

/-- The oldest critical entry not yet in the NVM ring is written there (R504). -/
def State.critOne (s : State) : State :=
  match s.log.critical with
  | e :: r =>
    let k := s.log.nvmNext
    let s := s.nvmWrite (0x29000 + 32 * k) e.bytes
    { s with log := { s.log with critical := r, nvmNext := (k + 1) % 64 } }
  | [] => s

/-- One entry takes the next sequence number; the ring keeps the 4096 newest and counts what it loses before mirroring; counter 7 is
raised when the sequence reaches it; while PD_PGOOD is low a critical entry goes to NVM at once (R502, R504, R505). -/
def State.logWrite (s : State) (ev : Ev) (i : Option Func) (reps arg : Nat) : State :=
  let e : LogEntry :=
    { seq := s.log.next, ev := ev, inst := i, wall := s.tm.wall, wallValid := s.tm.valid, early := !s.boot.ready,
      mono := s.tm.mono, reps := satU 8 reps, arg := arg }
  let nx := (s.log.next + 1) % 2 ^ 32
  let full := decide (4096 ≤ s.log.ring.length)
  let oldest := (s.log.next + 2 ^ 32 - 4096) % 2 ^ 32
  let lose := full && decide (s.log.unmirrored = oldest)
  let cls := ev.cls
  let t := { s with log := { s.log with
    next := nx, ring := (e :: s.log.ring).take 4096,
    unmirrored := if lose then (oldest + 1) % 2 ^ 32 else s.log.unmirrored,
    lost := if lose then inc16 s.log.lost else s.log.lost,
    evt := if cls = 2 then setBitN s.log.evt 0 true else if cls = 3 then setBitN s.log.evt 1 true else s.log.evt,
    critical := if cls = 3 then s.log.critical ++ [e] else s.log.critical } }
  let t := if s.log.next = t.ctr 7 % 2 ^ 32 ∨ nx = t.ctr 7 % 2 ^ 32 then t.ctrRaise 7 (t.ctr 7 + 65536) else t
  let t := if cls = 3 && !t.pgood then t.critOne else t
  if 2 ≤ cls && bitN (t.reg Reg.LOG_IEN).toNat (cls - 2) then t.raise 0 0 else t

/-- The folding window of an event and instance that is still open (R503). -/
def Fold.isFor (w : Fold) (ev : Ev) (i : Option Func) : Bool := decide (w.ev = ev ∧ w.inst = i)

/-- An event is logged, or folded into the window its last entry opened (R503); nothing is logged in the halt (R489).
DESIGN CHOICE, log entry 6. -/
def State.logEv (s : State) (ev : Ev) (i : Option Func) (arg : Nat) : State :=
  if !s.running then s
  else if ev.cls = 3 then s.logWrite ev i 0 arg
  else if s.log.folds.any (fun w => w.isFor ev i && decide (s.tm.mono < w.ends)) then
    { s with log := { s.log with folds := s.log.folds.map (fun w =>
        if w.isFor ev i then { w with count := w.count + 1, arg := arg } else w) } }
  else
    let old := s.log.folds.find? (fun w => w.isFor ev i)
    let t := match old with
      | some w => if w.count = 0 then s else s.logWrite ev i w.count w.arg
      | none => s
    let t := t.logWrite ev i 0 arg
    { t with log := { t.log with folds := ⟨ev, i, 0, arg, t.tm.mono + 1000⟩ :: t.log.folds.filter (fun w => !w.isFor ev i) } }

/-- A log entry that names no instance. -/
def State.note (s : State) (ev : Ev) (arg : Nat) : State := s.logEv ev none arg

/-! ### Access errors (R8) -/

/-- A discarded access is counted in HLT.ACC_ERR and named in HLT.ACC_ADDR. -/
def State.accError (s : State) (f bar off : Nat) : State :=
  { s with hlt := { s.hlt with accErr := inc16 s.hlt.accErr,
                               accAddr := BitVec.ofNat 32 (off % 2 ^ 22 + bar * 2 ^ 22 + f * 2 ^ 24) } }

/-! ### Mailbox (R94 to R99) -/

/-- The code of an instance state (Table 03-1). -/
def IState.code : IState → Nat
  | .idle => 0
  | .active => 1
  | .resetting => 2
  | .removing => 3
  | .draining => 4

/-- The 64 bytes of a message as an outbound slot shows them (Table 03-5). -/
def Msg.bytes (m : Msg) (dropped : Bool) : List Byte :=
  padTo 64 ([BitVec.ofNat 8 m.typ, if dropped then 1 else 0] ++ leBytes 2 m.seq ++ leBytes 2 (m.gen % 4096) ++
    [BitVec.ofNat 8 m.peer, BitVec.ofNat 8 (min 56 m.body.length)] ++ m.body.take 56)

/-- The lowest outbound slot that holds no message. -/
def lowestFree (used : List (Nat × Msg)) : Nat → Option Nat
  | 0 => none
  | n + 1 =>
    let k := 8 - (n + 1)
    if used.any (fun e => e.1 = k) then lowestFree used n else some k

/-- A message is placed in the lowest free slot; it carries the dropped flag, which is then clear (R96, R97). -/
def State.placeMsg (s : State) (f k : Nat) (m : Msg) : State :=
  let d := (s.getFn f).dropped
  let t := s.modFn f (fun n => { n with outSlots := n.outSlots ++ [(k, { m with body := m.bytes d })], dropped := false })
  t.setInsEvt f 0

/-- The room of the overflow queue for ARCHIVE_DONE and for other messages (R97). -/
def archiveCap (f : Nat) : Nat := if f = 0 then 16384 else 1024
def otherCap (f : Nat) : Nat := if f = 0 then 1024 else 64
def isArchive (m : Msg) : Bool := m.typ == 1

/-- The list without its first element that satisfies `p`. -/
def dropFirst {α : Type} (p : α → Bool) : List α → List α
  | [] => []
  | a :: r => if p a then r else a :: dropFirst p r

/-- A message takes its number and goes to a slot or to the overflow queue; a full queue drops its oldest other message (R97). -/
def State.postMsg (s : State) (f typ gen peer : Nat) (body : List Byte) (relay : Option Func) : State :=
  let n := s.getFn f
  let m : Msg := ⟨typ, gen, peer, body, n.nextSeq, relay⟩
  let s := s.modFn f (fun n => { n with nextSeq := (n.nextSeq + 1) % 65536 })
  match (if n.overflow.isEmpty then lowestFree n.outSlots 8 else none) with
  | some k => s.placeMsg f k m
  | none =>
    if !isArchive m && decide (otherCap f ≤ (n.overflow.filter (fun x => !isArchive x)).length) then
      (s.modFn f (fun n => { n with overflow := dropFirst (fun x => !isArchive x) n.overflow ++ [m], dropped := true })).setInsEvt f 3
    else s.modFn f (fun n => { n with overflow := n.overflow ++ [m] })

/-- The overflow queue has room for one more ARCHIVE_DONE, or a slot is free (R97). -/
def State.archiveRoom (s : State) (f : Nat) : Bool :=
  let n := s.getFn f
  (n.overflow.isEmpty && (lowestFree n.outSlots 8).isSome) ||
    decide ((n.overflow.filter isArchive).length < archiveCap f)

/-- A message to an instance about itself, and one to the PF about another instance (Table 03-5, gen and peer). -/
def State.postOwn (s : State) (i typ : Nat) (body : List Byte) : State := s.postMsg i typ (s.getInst i).gen 0 body none
def State.postPeer (s : State) (i typ : Nat) (body : List Byte) : State := s.postMsg 0 typ (s.getInst i).gen i body none

/-- The state of an instance changes; INSTANCE_EVENT is posted to the PF for instances 1 to 255 (Table 03-6). -/
def State.setIState (s : State) (i : Nat) (st : IState) : State :=
  let t := s.modInst i (fun r => { r with state := st })
  if i = 0 then t
  else t.postPeer i 8 ([BitVec.ofNat 8 st.code, 0] ++ leBytes 2 (t.getInst i).gen)

/-- Queued messages move into freed slots, in order (R96, R97). -/
def State.fillSlots (s : State) (f : Nat) : State :=
  forBelow 8 (fun _ t =>
    let n := t.getFn f
    match lowestFree n.outSlots 8, n.overflow with
    | some k, m :: r => (t.modFn f (fun n => { n with overflow := r })).placeMsg f k m
    | _, _ => t) s

end Sys2Proof.Machine
end

