-- ==== Sys2Proof/Machine/Access.lean ====
section
/-!
DEFINITION. Which accesses of the host reach a function (R49, R60, R63, R91, R484), and the write of one stored register.
-/

namespace Sys2Proof.Machine

/-- The function exists: the PF, or a VF up to NumVFs while VF Enable is 1 (R49). -/
def State.fnExists (s : State) (f : Nat) : Bool := decide (f = 0) || (s.link.vfEnable && decide (f ≤ s.link.numVfs))

/-- The function's BARs answer: memory space is enabled, the link is up (for the PF, in D0), no reset of the function or of the block is running
(R60, R63, R484), and start-up has reached the first ready state (R44). The monitor's own writes reach PF BAR2 (Table 17-4). -/
def State.barOpen (s : State) (f : Nat) : Bool :=
  (s.mon.acting && decide (f = 0) && s.serving) || s.serving && s.link.up && !(s.link.d3 && decide (f = 0)) && s.fnExists f && (if f = 0 then (s.getFn 0).cfg.mse else s.link.vfMse) && !(s.getFn f).flr

/-- The instance is within steps 1 to 5 of a reset or removal: its BAR0 reads all ones and discards writes (R91). -/
def State.inReset (s : State) (f : Nat) : Bool :=
  match (s.getInst f).reset with
  | some p => decide (p.step < 5)
  | none => false

/-- A write of the host to BAR0 of function `f` has the effect `g` where it reaches the registers. -/
def hostBar0 (f : Nat) (s : State) (g : State → State) : State :=
  if s.barOpen f && !s.inReset f then g s else s

/-- A write of the host to PF BAR2. -/
def hostBar2 (s : State) (g : State → State) : State := if s.barOpen 0 then g s else s

/-- The blocks of PF BAR2 and BAR0 whose chapters do not state what a value out of range does; those of the drives, CAL, CLK, PWB, STL,
HRN, TIM, NVS, LOG and INP say that the field is left unchanged. -/
def unstatedRange (k : Nat) : Bool :=
  decide (k < 0x010000) || (decide (0x020000 ≤ k) && decide (k < 0x080000)) || decide (0x120000 ≤ k)

/-- A stored register takes a written word by its access codes and ranges; reserved bits that were set are dropped and logged, and so is a
value out of range where its chapter states no consequence (R3, R7, R20, R24). DEDUCED, log entry 29. -/
def State.storeReg (s : State) (k : Nat) (v : Word) : State :=
  match regDesc k with
  | some r =>
    let t := s.setReg k (writeWord k r (s.reg k) v)
    let t := if rsvWritten r v then t.note .reservedBits k else t
    if unstatedRange k && rangeRefused k r (s.reg k) v then t.note .valueRefused k else t
  | none => s

/-- Reserved bits that a write sets are logged (R20), where the write itself has an effect of its own. -/
def State.noteRsv (s : State) (k : Nat) (v : Word) : State :=
  match regDesc k with
  | some r => if rsvWritten r v then s.note .reservedBits k else s
  | none => s

end Sys2Proof.Machine
end

