-- ==== Sys2Proof/Machine/Epoch.lean ====
section
/-!
DEFINITION. The configuration epoch (spec/03, R112 to R115; spec/20, R584 to R587): EPOCH_COMMIT, SUBSYSTEM_ADOPT and
EPOCH_ADOPTION_TIMEOUT.
-/

namespace Sys2Proof.Machine

/-- The bit of Table 03-9 of the subsystem that owns a register. -/
def subsystemOf (k : Nat) : Nat :=
  if 0x138000 ≤ k then 0
  else if 0x120000 ≤ k then 1
  else if 0x110000 ≤ k then 12
  else if 0x100000 ≤ k then 13
  else if 0x0F0000 ≤ k then 10
  else if 0x0E0000 ≤ k then 9
  else if 0x0D0000 ≤ k then 8
  else if 0x0C0000 ≤ k then 7
  else if 0x080000 ≤ k then 6
  else if 0x060000 ≤ k then 5
  else if 0x050000 ≤ k then 4
  else if 0x040000 ≤ k then 3
  else if 0x030000 ≤ k then 2
  else if 0x020000 ≤ k then 13
  else 11

/-- The registers that one adoption switches: a whole subsystem, one drive of RDC and WST (bit 6), one axis of SRV (bit 7). The
device-wide SRV registers switch with axis 0. -/
def adopts (bit part k : Nat) : Bool :=
  isEpochReg k && decide (subsystemOf k = bit) &&
    (if bit = 6 then decide ((k - 0x080000) / 0x10000 = part)
     else if bit = 7 then decide ((k - 0x0C0000) / 0x1000 = part)
     else true)

/-- The setting set of the last commit comes into force for the registers of one adoption. -/
def State.adoptRegs (s : State) (bit part : Nat) : State :=
  { s with liveSet := Bank.adopt regReset (adopts bit part) s.nextSet s.liveSet }

/-- The subsystems of Table 03-9 that a command with an opcode code passes through: sealing, staging store and map cache for the commands on
staged data; those and the archive, the drives and their axes for the commands on discs; the staging store for the records of instances;
Heron for settings, firmware and the log. DEDUCED, log entry 74. -/
def usesSubsystem (code bit : Nat) : Bool :=
  let staged := [2, 3, 4].contains bit
  let disc := [2, 3, 5, 6, 7, 8, 9].contains bit
  if code = 0x01 ∨ code = 0x02 ∨ code = 0x03 ∨ code = 0x05 then staged
  else if code = 0x06 ∨ code = 0x07 ∨ code = 0x48 ∨ code = 0x49 ∨ code = 0x4A then disc
  else if code = 0x04 ∨ (0x40 ≤ code ∧ code ≤ 0x45) then decide (bit = 3)
  else if code = 0x09 ∨ code = 0x4C ∨ code = 0x4E ∨ code = 0x4F then decide (bit = 13)
  else false

/-- A command tagged with an old epoch is still to be served in a subsystem, or is being served there (R113). -/
def State.oldEpochWork (s : State) (bit : Nat) : Bool :=
  s.cmds.any (fun c => decide (c.epoch ≠ s.epoch.cur ∧ c.stage ≠ .due) && usesSubsystem (leAt c.entry 0 1) bit)

/-- A subsystem has work of the old epoch to drain before it sets its bit; bits 0 and 1 govern acceptance alone (R113, R169). -/
def State.mustDrain (s : State) (bit : Nat) : Bool := decide (2 ≤ bit) && s.oldEpochWork bit

/-- A subsystem, or one drive of RDC and WST, is at its safe point of Table 03-9: MCH between two maintenance operations, ARC between two
stripes, a drive between two archive blocks, CAL between two items. The others are at theirs between any two commands of the model. -/
def State.safePoint (s : State) (bit part : Nat) : Bool :=
  if bit = 4 then s.mch.op.isNone
  else if bit = 5 then s.drives.all (fun d => d.wst.burst.isNone)
  else if bit = 6 then (let d := nth Drive.reset s.drives part
    d.wst.burst.isNone && d.rdc.rx.pba.isNone)
  else if bit = 10 then s.cal.running.isNone
  else true

/-- Every bit is set: pending clears and EPOCH_ADOPTED is posted (R113). -/
def State.epochDone (s : State) : State :=
  if s.epoch.pending && decide (s.epoch.adopt = 0x3FFF) then
    (({ s with epoch := { s.epoch with pending := false } }).postOwn 0 7
      (leBytes 2 s.epoch.cur ++ [if s.epoch.timedOut then 1 else 0])).note .epochAdopted s.epoch.cur
  else s

/-- The part of a subsystem has switched: the bit is set once every drive or axis has (Table 03-9). -/
def EpochState.switched (e : EpochState) (bit part : Nat) : EpochState :=
  if bit = 6 then
    let d := setBitN e.drives part true
    { e with drives := d, adopt := if d = 0xF then setBitN e.adopt 6 true else e.adopt }
  else if bit = 7 then
    let d := setBitN e.axes part true
    { e with axes := d, adopt := if d = 0xFFFF then setBitN e.adopt 7 true else e.adopt }
  else { e with adopt := setBitN e.adopt bit true }

/-- EPOCH_COMMIT (R112, R114): the shadows are copied as they stand, the epoch advances and new commands carry it; a wrong value or a
pending adoption is refused and logged. -/
def State.commitEpoch (s : State) (v : Nat) : State :=
  if s.epoch.pending || decide (v ≠ wrapInc 65535 s.epoch.cur) then
    ({ s with epoch := { s.epoch with refused := true } }).note .commitRefused v
  else
    { s with prevSet := s.nextSet, nextSet := Bank.keep isEpochReg s.regs,
             epoch := { s.epoch with cur := v, pending := true, adopt := 0, drives := 0, axes := 0,
                                     tmo := Cf.CFG_EPOCH_TMO_ms s, since := s.tm.mono, timedOut := false } }

/-- `g` served with the setting set of the epoch that a command was tagged with (R113). -/
def State.underEpoch (s : State) (c : Cmd) (g : State → State) : State :=
  let t := g { s with liveSet := if c.epoch = s.epoch.cur then s.nextSet else s.prevSet }
  { t with liveSet := s.liveSet }

/-- EPOCH_COMMIT: the host writes CFG.EPOCH_COMMIT. -/
def execEpochCommit (v : Word) (s : State) : Host.Outcome State Fault Refusal :=
  .next (whenServing s (fun s => s.commitEpoch (fld v 0 16)))

/-- EPOCH_ADOPTION_TIMEOUT (R115): with pending still 1 when the commit's timeout ends, late is set and the laggards are logged; nothing is rolled back. -/
def execEpochAdoptionTimeout (s : State) : Host.Outcome State Fault Refusal :=
  .next (whenServing s (fun s =>
    if s.epoch.pending && !s.epoch.timedOut && decide (s.epoch.since + s.epoch.tmo ≤ s.tm.mono) then
      ({ s with epoch := { s.epoch with late := true, timedOut := true } }).note .epochLate (0x3FFF - s.epoch.adopt)
    else s))

end Sys2Proof.Machine
end

