-- ==== Sys2Proof/Machine/HaltCore.lean ====
section
/-!
DEFINITION. The causes of the integrity halt and its entry (spec/15, R486 to R489; Table 02-7), which every family that checks sealed
data can reach.
-/

namespace Sys2Proof.Machine

/-! ### Causes (Table 02-7) -/

/-- The number of a sub-stream in HALT_DETAIL. -/
def subCode : SubStream → Nat
  | .posted => 0
  | .nonPosted => 1
  | .completion => 2

/-- The cause code. -/
def causeCode : HaltCause → Nat
  | .dramMac _ => 0x01
  | .leafMac _ => 0x02
  | .ideMac _ _ => 0x03
  | .idePcrc _ _ => 0x04
  | .ideSequence _ _ _ => 0x05
  | .flashTag _ _ _ _ => 0x06
  | .arcTag _ _ _ => 0x07
  | .bootImage _ => 0x08
  | .otpCells => 0x09
  | .settings _ => 0x0A
  | .hardware _ => 0x0F

/-- HALT_DETAIL. DEDUCED, log entry 34. -/
def causeDetail : HaltCause → Nat
  | .dramMac a => a.toNat
  | .leafMac a => a.toNat
  | .ideMac b k => subCode b + 4 * k.val
  | .idePcrc b k => subCode b + 4 * k.val
  | .ideSequence b k r => subCode b + 4 * k.val + 16 * r.val
  | .flashTag d b p _ => d.val + 16 * b.toNat + 2 ^ 20 * p.toNat
  | .arcTag d p _ => d.val + 256 * p.toNat
  | .bootImage k => k.val
  | .otpCells => 0
  | .settings w => w.toNat
  | .hardware n => n.val

/-- The instance named, for codes 0x06 and 0x07 (R200). -/
def causeInst : HaltCause → Option Func
  | .flashTag _ _ _ i => some i
  | .arcTag _ _ i => some i
  | _ => none

/-! ### Entering the halt (Table 15-6) -/

/-- Keys and the link stream at step 4: the key store is zeroised and the stream falls to Insecure (R72). -/
def State.zeroise (s : State) : State :=
  { s with inst := Bank.mapVals instDef s.inst (fun r => { r with keyLive := false }),
           sea := { s.sea with kwk := none, kd := none },
           sec := { s.sec with secure := false, dirs := List.replicate 6 IdeDir.reset } }

/-- A programmed page's units are in NAND. -/
def State.storeUnits (s : State) (pua : Nat) : List UnitRec → State
  | [] => s
  | u :: r => State.storeUnits { s with fss := { s.fss with units := Bank.set unitDef s.fss.units pua u } } (pua + 1) r

/-- A root whose header page reports success is complete (R229): it takes the place of the one before and of the journal units after that;
the wrapped keys of the older one stay readable (R178). -/
def FssState.rootLanded (f : FssState) : FssState :=
  match f.rootWait with
  | none => f
  | some w =>
    { f with
      root := some w.snap, rootSeq := w.snap.seq, rootWait := none, jLog := [],
      prevKeys := (match f.root with
        | some r => (r.inst.map (fun e => (e.1, e.2.wrapped))).filter (fun e => !e.2.isEmpty)
        | none => []) }

/-- Every program issued has ended well; a flush or a root that still waits for a queued page does not reach NAND. -/
def FssState.landed (f : FssState) : FssState :=
  let cut := f.progs.any (fun p => p.queued && decide (p.role ≠ .host))
  let f := { f with progs := [], jFlying := false, jLog := if cut then f.jLog else f.jLog ++ f.jFlight, jFlight := [],
                    rootWait := if cut then none else f.rootWait }
  f.rootLanded

/-- The units of the pages being programmed are in NAND. -/
def State.landPages (s : State) : State := forEach (s.fss.progs.filter (fun p => !p.queued)) (fun p t => t.storeUnits p.pua p.units) s

/-- Every engine stops and keeps no work (R489); a NAND program already issued, a journal flush's among them, finishes inside its die. -/
def State.stopEngines (s : State) : State :=
  let s := s.landPages
  { s with cmds := [], due := [], reads := [], oldOps := [], fetches := [],
           fss := { s.fss.landed with fill := [] },
           tm := { s.tm with pending := false, late := false } }

/-! ### The halt record (R492, Table 15-8) -/

def haltRingAddr : Nat := 0x28000

/-- The 48 bytes of a record. -/
def haltImage (h : HaltInfo) (seq : Nat) : List Byte :=
  let b := [1, BitVec.ofNat 8 h.cause] ++ (match h.inst with
      | some i => [i, 1]
      | none => [0, 0]) ++
    leBytes 4 seq ++ leBytes 8 h.detail ++ leBytes 8 h.micros ++ leBytes 8 h.wall ++ leBytes 2 h.further ++ leBytes 2 h.slot ++
    leBytes 8 h.setId
  b ++ leBytes 4 (crc32 b)

/-- Failures after the halt has begun are counted, also in a record already written (R77). -/
def State.countFurther (s : State) (n : Nat) : State :=
  match s.hlt.halt with
  | some h =>
    let h := { h with further := satU 16 (h.further + n) }
    let s := { s with hlt := { s.hlt with halt := some h } }
    if h.nvmOk then s.nvmWrite (haltRingAddr + 48 * h.place) (haltImage h h.hseq) else s
  | none => s

/-- A failed check reaches the halt controller: the first one begins the halt, a later one is only counted for the record (R77, R487). -/
def State.haltBy (s : State) (c : HaltCause) : State :=
  match s.hlt.halt with
  | some _ => s.countFurther 1
  | none =>
    let h : HaltInfo :=
      { cause := causeCode c, detail := causeDetail c, inst := causeInst c, micros := s.tm.micros,
        wall := if s.tm.valid then s.tm.wall else 0, slot := s.boot.slot, setId := if causeCode c = 0x07 then s.arc.setId else 0, further := 0, nvmOk := false, place := 0, hseq := 0,
        stream := s.sec.secure, waits := s.reads.any (fun r => decide (r.fn.toNat = 0)) }
    let s := { s with hlt := { s.hlt with halt := some h, warming := false } }
    let shut (r : Drive) : Drive := { r with wst := { r.wst with gate := false, burst := none, opcBusy := false, lden := false } }
    let s := { s with
      drives := s.drives.map shut, pwb := { s.pwb with granted := none, run := 0 }, mon := { s.mon with active := false, acting := false },
      cal := { s.cal with running := none } }
    s.stopEngines.zeroise

end Sys2Proof.Machine
end

