-- ==== Sys2Proof/Machine/Cache.lean ====
section
/-!
DEFINITION. The arrays of the map cache (spec/07, R249 to R256, R268, R269): lines, replacement, write-back, parity, and the leaf writes
of R254. Layout sizes of the host-held region (R181, R187).
-/

namespace Sys2Proof.Machine

/-! ### The host-held region -/

/-- Sizes in MiB: the MAC region of `d` MiB is `d / 9` rounded up, and the protected range lies below it (R181, R187). -/
def macMib (d : Nat) : Nat := (d + 8) / 9
def protMib (d : Nat) : Nat := d - macMib d

/-- The region's base, its size in MiB, and its leaf area Q in bytes. -/
def State.hregBase (s : State) : Nat := (s.reg Reg.FSS_HREG_BASE_LO).toNat + (s.reg Reg.FSS_HREG_BASE_HI).toNat * 2 ^ 32
def State.hregMib (s : State) : Nat := Cf.FSS_HREG_SIZE_size s * 64
def State.hregQ (s : State) : Nat := protMib s.hregMib * 2 ^ 20

/-- The tweak of a host-held line (R188). -/
def leafTweak (b version : Nat) : Nat := b / 64 % 2 ^ 64 + version % 2 ^ 32 * 2 ^ 64 + 2 ^ 127

/-- The 80-byte message of a host-held line's MAC (R188). -/
def leafMsg (cipher : List Byte) (b version : Nat) : List Byte := padTo 64 cipher ++ leBytes 8 b ++ leBytes 4 version ++ leBytes 4 0

/-- The 64 bytes of a line's 16 entries. -/
def entryBytes (l : List Nat) : List Byte := padTo 64 (l.foldl (fun a e => a ++ leBytes 4 e) [])

/-- The keys drawn at boot (Table 05-1). -/
def State.lineKeys (s : State) : LineKeys := s.sea.kd.getD ⟨0, 0, 0, 0, 0, 0⟩

/-- A line goes to the host: the ciphertext, then its MAC, both from the PF (R188, R255). -/
def State.emitLine (s : State) (b version : Nat) (entries : List Nat) : State :=
  let k := s.lineKeys
  let ct := Config.xtsText k.kh1 k.kh2 (leafTweak b version) (entryBytes entries)
  let mac := Config.lineMac k.khm (leafMsg ct b version)
  (s.emit (.dmaWrite 0 (s.hregBase + b) false (padTo 64 ct))).emit
    (.dmaWrite 0 (s.hregBase + s.hregQ + b / 64 * 8) false (leBytes 8 mac))

/-! ### Lines -/

def setOf (b : Nat) : Nat := b / 64 % 1024
def tagOf (b : Nat) : Nat := b / 65536
/-- The offset of a line from its set and tag. -/
def lineOffset (set tag : Nat) : Nat := tag * 65536 + set * 64

/-- The parity bits of a line (R250): one per 8 data bytes, and one over tag, version, valid and dirty. -/
def lineParity (tag version : Nat) (dirty : Bool) (entries : List Nat) : Nat :=
  let odd (bits n : Nat) : Bool := decide (popN bits n % 2 = 1)
  maskOf 8 (fun k => odd 64 (leNat (slice (entryBytes entries) (8 * k) 8))) +
    256 * b2n (odd 50 (tag % 2 ^ 16 + version % 2 ^ 32 * 2 ^ 16 + 2 ^ 48 + b2n dirty * 2 ^ 49))

/-- A valid line with its parity bits. -/
def mkLine (tag version : Nat) (dirty : Bool) (entries : List Nat) : MLine := ⟨tag, version, dirty, entries, lineParity tag version dirty entries⟩

def State.lineAt (s : State) (set way : Nat) : Option MLine := Bank.get lineDef s.mch.lines (set * 8 + way)
def State.setLine (s : State) (set way : Nat) (v : Option MLine) : State :=
  { s with mch := { s.mch with lines := Bank.set lineDef s.mch.lines (set * 8 + way) v } }

def State.way (s : State) (w : Nat) : WayCount := nth ⟨0, 0, 0, false⟩ s.mch.ways w
def State.modWay (s : State) (w : Nat) (g : WayCount → WayCount) : State := { s with mch := { s.mch with ways := modNth g s.mch.ways w } }

/-- The way is in service: neither disabled nor being taken out of replacement (R269). -/
def State.wayOn (s : State) (w : Nat) : Bool := !bitN s.mch.off w && !(s.way w).closing
/-- MCH.CTL.en and wb; the cache serves lookups while en is 1 and a way is in service (R271). -/
def State.mchEn (s : State) : Bool := bitN (s.reg Reg.MCH_CTL).toNat 0
def State.mchWb (s : State) : Bool := bitN (s.reg Reg.MCH_CTL).toNat 1
def State.mchActive (s : State) : Bool := s.mchEn && (List.range 8).any (fun w => s.wayOn w)

/-- The way in service that holds the line of an offset. -/
def State.hitWay (s : State) (b : Nat) : Option Nat :=
  (List.range 8).find? (fun w => s.wayOn w && (match s.lineAt (setOf b) w with
    | some l => decide (l.tag = tagOf b)
    | none => false))

/-- An event bit of the map cache becomes 1 (Table 07-5). -/
def State.setMchEvt (s : State) (bit : Nat) : State :=
  if bitN s.mch.evt bit then s
  else
    let t := { s with mch := { s.mch with evt := setBitN s.mch.evt bit true } }
    if bitN (t.reg Reg.MCH_IEN).toNat bit then t.raise 0 0 else t

/-! ### Pseudo-LRU (R252) -/

/-- The 7-bit tree after a use of way `w`: each node on its path points away from it. -/
def plruTouch (t w : Nat) : Nat :=
  let a := w / 4
  let b := w / 2 % 2
  let c := w % 2
  let t := setBitN t 0 (decide (a = 0))
  let t := setBitN t (1 + a) (decide (b = 0))
  setBitN t (3 + 2 * a + b) (decide (c = 0))

/-- The side a node points to, or the other one when that side has no way in service. -/
def pickSide (on : Nat → Bool) (pref : Bool) (left right : List Nat) : Bool :=
  if pref then right.any on else !left.any on

/-- The victim way by the tree, skipping disabled ways. -/
def plruVictim (t : Nat) (on : Nat → Bool) : Nat :=
  let a := pickSide on (bitN t 0) [0, 1, 2, 3] [4, 5, 6, 7]
  let o := 4 * b2n a
  let b := pickSide on (bitN t (1 + b2n a)) [o, o + 1] [o + 2, o + 3]
  let o2 := o + 2 * b2n b
  o2 + b2n (pickSide on (bitN t (3 + 2 * b2n a + b2n b)) [o2] [o2 + 1])

/-- A line was used. -/
def State.touchLine (s : State) (set way : Nat) : State :=
  { s with mch := { s.mch with plru := Bank.set natDef s.mch.plru set (plruTouch (Bank.get natDef s.mch.plru set) way) } }

/-! ### Write-back and fill -/

/-- The PF may issue writes: its Bus Master Enable is 1, it is in D0, the link is up and nothing is held under R69 or R70 (R54, R255). -/
def State.pfMayWrite (s : State) : Bool := (s.getFn 0).cfg.bme && !s.link.d3 && s.link.up && !s.ideHold && !s.txHold 0

/-- A valid dirty line is written back and becomes clean (R255). -/
def State.writeBack (s : State) (set way : Nat) : State :=
  match s.lineAt set way with
  | some l =>
    if l.dirty then
      let b := lineOffset set l.tag
      (s.emitLine b l.version l.entries).setLine set way (some (mkLine l.tag l.version false l.entries))
    else s
  | none => s

/-- The way a fill takes: the lowest invalid one in service, otherwise the victim of the tree. -/
def State.fillWay (s : State) (set : Nat) : Nat :=
  match (List.range 8).find? (fun w => s.wayOn w && (s.lineAt set w).isNone) with
  | some w => w
  | none => plruVictim (Bank.get natDef s.mch.plru set) s.wayOn

/-- A fill waits: its victim is dirty, and the PF may not write (R252, R255). -/
def State.fillWaits (s : State) (b : Nat) : Bool :=
  match s.lineAt (setOf b) (s.fillWay (setOf b)) with
  | some l => l.dirty && !s.pfMayWrite
  | none => false

/-- A checked line fills the cache, once a dirty victim has been written back (R252). -/
def State.fillLine (s : State) (b version : Nat) (dirty : Bool) (entries : List Nat) : State :=
  let set := setOf b
  let w := s.fillWay set
  if s.fillWaits b then s
  else ((s.writeBack set w).setLine set w (some (mkLine (tagOf b) version dirty entries))).touchLine set w

/-- Every cached line of a leaf slot is made invalid without write-back. -/
def State.dropLeafLines (s : State) (slot : Nat) : State :=
  forBelow 64 (fun i t =>
    let b := slot * 4096 + i * 64
    forBelow 8 (fun w u => (match u.lineAt (setOf b) w with
      | some l => if l.tag = tagOf b then u.setLine (setOf b) w none else u
      | none => u)) t) s

/-- The line of an offset lies dirty in the cache. -/
def State.lineDirty (s : State) (b : Nat) : Bool :=
  (List.range 8).any (fun w => (match s.lineAt (setOf b) w with
    | some l => decide (l.tag = tagOf b) && l.dirty
    | none => false))

/-- A dirty line of an offset is written back. -/
def State.cleanLine (s : State) (b : Nat) : State :=
  forBelow 8 (fun w u => (match u.lineAt (setOf b) w with
    | some l => if l.tag = tagOf b then u.writeBack (setOf b) w else u
    | none => u)) s

/-- A leaf's 1024 entries are written into the host-held region at a slot (R219, R254). -/
def State.writeLeaf (s : State) (slot version : Nat) (entries : List Nat) : State :=
  let s := if s.mchEn then s.dropLeafLines slot else s
  forBelow 64 (fun i t =>
    let b := slot * 4096 + i * 64
    let e := (entries.drop (16 * i)).take 16
    if t.mchActive && t.mchWb then t.fillLine b version true e else t.emitLine b version e) s

/-- Every line is made invalid, dirty data discarded, and an operation in progress ends as aborted (R267). -/
def State.emptyCache (s : State) : State :=
  { s with mch := { s.mch with lines := [], op := none, aborted := s.mch.aborted || s.mch.op.isSome } }

/-! ### Parity and ways (R268 to R270) -/

/-- A leaf held in the region at a slot. -/
def State.leafAtSlot (s : State) (slot : Nat) : Option Nat :=
  (s.fss.leaves.find? (fun e => decide (e.2.loc = .host ∧ e.2.slot = slot))).map (fun e => e.1)

/-- A leaf is dropped to NAND: its top-level entry is NAND only, its lines invalid (R268). DEDUCED, log entry 46. -/
def State.dropLeaf (s : State) (slot : Nat) : State :=
  let s := s.dropLeafLines slot
  match s.leafAtSlot slot with
  | some k => { s with fss := { s.fss with leaves := Bank.set leafDef s.fss.leaves k { Bank.get leafDef s.fss.leaves k with loc := .nand } } }
  | none => s

/-- A dirty line of a way that passes parity waits for its write-back (R255, R269). -/
def State.wayWaits (s : State) (w : Nat) (bad : List Nat) : Bool :=
  !s.pfMayWrite && (List.range 1024).any (fun set => (match s.lineAt set w with
    | some l => l.dirty && !bad.contains (set * 8 + w)
    | none => false))

/-- A parity fault of the line at set × 8 + way is counted in its way's window and in all, and logged (R268, R269). DESIGN CHOICE, log entry
56. -/
def State.countFault (s : State) (k : Nat) : State :=
  let now := s.tm.mono
  let s := s.modWay (k % 8) (fun c =>
    let shut := decide (c.inWindow = 0 ∨ c.opened + Cf.MCH_PAR_window s * 1000 ≤ now)
    { c with inWindow := if shut then 1 else inc16 c.inWindow, total := inc16 c.total, opened := if shut then now else c.opened })
  (s.setMchEvt 2).note .parityFault (k / 8 + 65536 * (k % 8))

/-- Steps 2 to 4 of R269 for a way out of replacement, once the PF may write what they write back; `bad` are the lines that fail parity. -/
def State.finishWay (s : State) (w : Nat) (bad : List Nat) : State :=
  if !(s.way w).closing || s.wayWaits w bad then s
  else
    let n := (s.way w).inWindow
    let s := forBelow 1024 (fun set t => (match t.lineAt set w with
      | some l =>
        let t := if l.dirty then (if bad.contains (set * 8 + w) then (t.dropLeaf (lineOffset set l.tag / 4096)).countFault (set * 8 + w) else t.writeBack set w) else t
        t.setLine set w none
      | none => t)) s
    let s := { s with mch := { s.mch with off := setBitN s.mch.off w true, auto := setBitN s.mch.auto w true } }
    ((s.modWay w (fun c => { c with inWindow := 0, opened := 0, closing := false })).setMchEvt 1).note .wayDisabled (w + 256 * n)

/-- A way is taken out of service (R269): out of replacement at once, the rest when its write-backs may be issued. -/
def State.disableWay (s : State) (w : Nat) (bad : List Nat) : State :=
  (s.modWay w (fun c => { c with closing := true })).finishWay w bad

/-- The ways that wait for the PF go on. -/
def State.finishWays (s : State) : State := forBelow 8 (fun w t => t.finishWay w []) s

/-- A parity fault of a line (R268): a clean line is made invalid, a dirty one drops its leaf; the way's window counts it, and too many
disable the way (R269). -/
def State.parityFault (s : State) (k : Nat) (bad : List Nat) : State :=
  let set := k / 8
  let w := k % 8
  match s.lineAt set w with
  | some l =>
    let s := (if l.dirty then s.dropLeaf (lineOffset set l.tag / 4096) else s.setLine set w none).countFault k
    if Cf.MCH_PAR_thresh s < (s.way w).inWindow && s.wayOn w then s.disableWay w bad else s
  | none => s

/-- A parity fault of the victim is handled before the fill uses its way (R268); `bad` are the lines that fail parity. -/
def State.checkVictim (s : State) (b : Nat) (bad : List Nat) : State :=
  let k := setOf b * 8 + s.fillWay (setOf b)
  if bad.contains k then s.parityFault k bad else s

end Sys2Proof.Machine
end

