-- ==== Sys2Proof/Machine/Metering.lean ====
section
/-!
DEFINITION. Usage, quota warnings, retention, meters and billing periods (spec/03, R105 to R126), and their commands OCCUPANCY_TICK,
PERIOD_BOUNDARY and POLICY_PAGE_USED_UPDATE.
-/

namespace Sys2Proof.Machine

/-! ### Quota (R105 to R108) -/

/-- Usage `used` lies at or above the warning level (R107, R108). -/
def atLevel (r : Instance) (used : Nat) : Bool := decide (r.quota * r.warnPct ≤ 100 * used)

/-- Usage lies at least 5 % of the quota below the level, so the warning is armed again (R108). -/
def rearms (r : Instance) : Bool := decide (100 * r.used + 5 * r.quota ≤ r.quota * r.warnPct)

/-- QUOTA_WARNING to the owner with a copy to the PF; the posting disarms the warning and the used field is shown at once. -/
def State.quotaWarning (s : State) (i : Nat) : State :=
  let r := s.getInst i
  let body := leBytes 8 r.used ++ leBytes 8 r.quota
  let t := s.postOwn i 4 body
  let t := if i = 0 then t else t.postPeer i 4 body
  t.modInst i (fun r => { r with warnArmed := false, shownUsed := r.used })

/-- The warning is armed again, which ends it, and a quota refusal ends once a WRITE adding one unit would be accepted; either is shown in
the used field at once (R102, R108). -/
def State.quotaSettle (s : State) (i : Nat) : State :=
  let s := if rearms (s.getInst i) && !(s.getInst i).warnArmed then
      s.modInst i (fun r => { r with warnArmed := true, shownUsed := r.used }) else s
  let r := s.getInst i
  if r.refusing && decide (r.used + r.reserved < r.quota) then
    s.modInst i (fun r => { r with refusing := false, shownUsed := r.used })
  else s

/-- Usage of an instance changes: a warning is posted when it rises through the armed level (R108). -/
def State.setUsed (s : State) (i used : Nat) : State :=
  let r := s.getInst i
  let s := s.modInst i (fun r => { r with used := used })
  let s := if r.warnArmed && decide (r.used < used) && !atLevel r r.used && atLevel r used then s.quotaWarning i else s
  s.quotaSettle i

/-- The check at the completion of INSTANCE_START or SET_QUOTA: a warning while usage lies at or above the level (R108). -/
def State.quotaCheck (s : State) (i : Nat) : State :=
  let s := s.quotaSettle i
  let r := s.getInst i
  if r.warnArmed && atLevel r r.used then s.quotaWarning i else s

/-- Sum over the instances. -/
def State.sumInst (s : State) (g : Instance → Nat) : Nat := s.inst.foldl (fun a e => a + g e.2) 0

/-- Sum of the quotas of the instances that are not IDLE, with instance `i` taken at `q` (R107). -/
def State.quotaSum (s : State) (i q : Nat) : Nat :=
  s.inst.foldl (fun a e => if e.1 = i ∨ e.2.state = .idle then a else a + e.2.quota) 0 + q

/-! ### Meters (R116) -/

/-- The meter of an instance counts: ACTIVE, RESETTING, or REMOVING up to step 4 (R116). -/
def Instance.counting (r : Instance) : Bool :=
  match r.state with
  | .active => true
  | .resetting => true
  | .removing => (match r.reset with
    | some p => decide (p.step < 4)
    | none => false)
  | _ => false

/-- The counters of the open period change by `g` while the meter counts. -/
def State.count (s : State) (i : Nat) (g : Meter → Meter) : State :=
  if (s.getInst i).counting then
    s.modInst i (fun r => { r with opened := r.opened.map (fun p => { p with meter := g p.meter }) })
  else s

/-! ### Billing periods (R118 to R123) -/

/-- The flags of Table 03-11. -/
def pfOpen : Nat := 1
def pfBoundary : Nat := 2
def pfSkipped : Nat := 4
def pfRemoval : Nat := 8
def pfRegression : Nat := 16
def pfNoTime : Nat := 32
def pfPowerLoss : Nat := 64

/-- A period opens at a wall start with a closing boundary; the no-time flag marks a clock that is not valid (R122). -/
def newPeriod (t : TimeState) (index wall closing : Nat) : Period :=
  { index := index, flags := pfOpen + (if t.valid then 0 else pfNoTime), wallStart := wall, closing := closing, mono := t.mono,
    meter := Meter.zero }

/-- The open period set aside as closed: its span runs to now, and it takes the closing boundary and flag. -/
def closeAs (t : TimeState) (p : Period) (boundary flag : Nat) : Period :=
  { p with flags := (p.flags - p.flags % 2) ||| flag, closing := boundary, mono := t.mono - p.mono }

/-- The closing boundary of the next period; 0 where no boundary exists (R120). -/
def nextClosing (boundary interval : Nat) : Nat := if interval = 0 then 0 else boundary + interval

/-- Period `p` closes at its boundary and the next one opens with that wall start; the seven newest closed ones stay (R119, R123).
DEDUCED, log entry 27. -/
def Instance.closeBoundary (r : Instance) (t : TimeState) (p : Period) : Instance :=
  { r with bc := p.closing, closed := (closeAs t p p.closing pfBoundary :: r.closed).take 7,
           opened := some (newPeriod t (p.index + 1) p.closing (nextClosing p.closing r.interval)) }

/-- An empty period that a jump of the clock closes (R120). -/
def skippedPeriod (index wall closing : Nat) : Period :=
  { index := index, flags := pfBoundary + pfSkipped, wallStart := wall, closing := closing, mono := 0, meter := Meter.zero }

/-- The `k` empty periods after boundary `b`, newest first. -/
def skippedRun (index b interval : Nat) : Nat → List Period
  | 0 => []
  | k + 1 => skippedPeriod (index + k) (b + k * interval) (b + (k + 1) * interval) :: skippedRun index b interval k

/-- A jump past `k` whole intervals closes the open period and `k` empty ones (R120). -/
def Instance.closeJump (r : Instance) (t : TimeState) (p : Period) (k : Nat) : Instance :=
  let b := p.closing
  let top := b + k * r.interval
  { r with bc := top,
           closed := (skippedRun (p.index + 1) b r.interval k ++ closeAs t p b pfBoundary :: r.closed).take 7,
           opened := some (newPeriod t (p.index + 1 + k) top (top + r.interval)) }

/-- The 32-byte bitmap of PERIOD_CLOSED. -/
def bitmap (l : List Nat) : List Byte := leBytes 32 (l.foldl (fun a i => a ||| 2 ^ i) 0)

/-- The tenant form of PERIOD_CLOSED: index and boundary of the newest closed period (Table 03-6). -/
def State.tenantClosed (s : State) (i : Nat) : State :=
  if i = 0 then s
  else
    match (s.getInst i).closed with
    | p :: _ => s.postOwn i 5 (leBytes 4 p.index ++ leBytes 8 p.closing)
    | [] => s

/-- The PF form of PERIOD_CLOSED. -/
def State.pfClosed (s : State) (boundary : Nat) (l : List Nat) : State :=
  s.postOwn 0 5 (leBytes 8 boundary ++ bitmap l)

/-- The open period of an instance has a boundary that wall time has reached, with the clock valid (R119, R122). -/
def State.dueBoundary (s : State) (i : Nat) : Option Nat :=
  match (s.getInst i).opened with
  | some p => if s.tm.valid && decide (p.closing ≠ 0) && decide (p.closing ≤ s.tm.sec) then some p.closing else none
  | none => none

/-- The instance numbers with a record. -/
def State.instIds (s : State) : List Nat := s.inst.map (fun e => e.1)

/-- One instance closes its open period at its boundary, and the tenant is told. -/
def State.closeOne (s : State) (i : Nat) : State :=
  match (s.getInst i).opened with
  | some p => ((s.modInst i (fun r => r.closeBoundary s.tm p)).tenantClosed i).logEv .periodClosed (some (BitVec.ofNat 8 i)) p.closing
  | none => s

/-- The earliest boundary that is due. -/
def State.firstDue (s : State) : Option Nat :=
  s.instIds.foldl (fun a i =>
    match a, s.dueBoundary i with
    | none, d => d
    | some x, some d => some (min x d)
    | some x, none => some x) none

/-- Every period that closes at boundary `b` closes, with one PF message (R119, Table 03-6). -/
def State.takeBoundary (s : State) (b : Nat) : State :=
  let l := s.instIds.filter (fun i => s.dueBoundary i = some b)
  if l.isEmpty then s else (forEach l (fun i t => t.closeOne i) s).pfClosed b l

/-- The number of whole intervals that wall time lies past the closing boundary (R120). -/
def State.jumpCount (s : State) (i : Nat) : Nat :=
  let r := s.getInst i
  match s.dueBoundary i with
  | some b => if r.interval = 0 then 0 else (s.tm.sec - b) / r.interval
  | none => 0

/-- A wall-time jump closes the periods it passed: one PERIOD_CLOSED to each owner, one to the PF (R120). -/
def State.jumpPeriods (s : State) : State :=
  let l := s.instIds.filter (fun i => decide (1 ≤ s.jumpCount i))
  if l.isEmpty then s
  else
    let t := forEach l (fun i t =>
      match (t.getInst i).opened with
      | some p => (t.modInst i (fun r => r.closeJump t.tm p (s.jumpCount i))).tenantClosed i
      | none => t) s
    t.pfClosed (l.foldl (fun a i => max a (t.getInst i).bc) 0) l

/-- The open periods receive a flag (R121); at step 5 of a start-up no record has been restored, so a clock set there flags none.
DESIGN CHOICE, log entry 77. -/
def State.flagPeriods (s : State) (flag : Nat) : State :=
  forEach s.instIds (fun i t => t.modInst i (fun r => { r with opened := r.opened.map (fun p => { p with flags := p.flags ||| flag }) })) s

/-- A 128-byte usage record (Table 03-11); the span of an open period runs to now. -/
def Period.bytes (p : Period) (now : Nat) : List Byte :=
  padTo 128 (leBytes 4 p.index ++ leBytes 2 p.flags ++ [0, 0] ++ leBytes 8 p.wallStart ++ leBytes 8 p.closing ++
    leBytes 8 (if p.flags % 2 = 1 then now - p.mono else p.mono) ++ leBytes 8 p.meter.bytesWritten ++ leBytes 8 p.meter.bytesRead ++
    leBytes 8 p.meter.bytesArchived ++ leBytes 8 p.meter.occupancy ++ leBytes 8 p.meter.bytesArchiveRead ++
    leBytes 8 p.meter.verifyBlocks ++ leBytes 8 p.meter.commands)

/-- The records of an instance, the newest first (R123). -/
def Instance.usage (r : Instance) : List Period :=
  match r.opened with
  | some p => p :: r.closed
  | none => r.closed

/-! ### Retention (R109) -/

/-- Content of age `age` ms is held by a policy (R109). -/
def held (minHold : Nat) (legal : Bool) (age : Nat) : Bool := legal || decide (age < minHold * 1000)

/-! ### Commands -/

/-- OCCUPANCY_TICK (R116): the usage of each counting instance is added to its occupancy. DESIGN CHOICE, log entry 65. -/
def execOccupancyTick (s : State) : Host.Outcome State Fault Refusal :=
  .next (whenServing s (fun s => forEach s.instIds (fun i t =>
    t.count i (fun m => { m with occupancy := m.occupancy + (t.getInst i).used })) s))

/-- PERIOD_BOUNDARY (R119): the earliest boundary that wall time has reached is taken. -/
def execPeriodBoundary (s : State) : Host.Outcome State Fault Refusal :=
  .next (whenServing s (fun s =>
    match s.firstDue with
    | some b => s.takeBoundary b
    | none => s))

/-- POLICY_PAGE_USED_UPDATE (R102): the used field of every policy page takes the present usage. -/
def execPolicyPageUsedUpdate (s : State) : Host.Outcome State Fault Refusal :=
  .next (whenServing s (fun s => forEach s.instIds (fun i t => t.modInst i (fun r => { r with shownUsed := r.used })) s))

end Sys2Proof.Machine
end

