-- ==== Sys2Proof/Machine/Store.lean ====
section
/-!
DEFINITION. The structures of the staging store that several families use (spec/06): the journal, the map with its leaves and hot pool,
bands, stripes and pages, pins and usage.
-/

namespace Sys2Proof.Machine

/-! ### Journal (R225 to R228) -/

/-- The 16 bytes of an entry: type, instance, aux, a, b, c (R226). -/
def entryImage (typ inst aux a b c : Nat) : List Byte :=
  leBytes 1 typ ++ leBytes 1 inst ++ leBytes 2 aux ++ leBytes 4 a ++ leBytes 4 b ++ leBytes 4 c

/-- Codes of the roles (R214, Table 06-6). -/
def Band.Role.code : Band.Role → Nat
  | .host => 0
  | .system => 1
  | .gc => 2
  | .cold => 3

/-- The entries of Table 06-6 that an entry of the model stands for: a pin is a PIN entry and, at once after it, its PIN_ID entry. A seq field
holds the low 32 bits. -/
def JEntry.images : JEntry → List (List Byte)
  | .map i lbn pua q => [entryImage 1 i 0 lbn pua q]
  | .discard i lbn cnt q => [entryImage 2 i 0 lbn cnt q]
  | .move i lbn pua q _ d => [entryImage 3 i (b2n d) lbn pua q]
  | .leaf i idx pua => [entryImage 4 i 0 idx pua 0]
  | .pin i lbn cnt rid seg pos => [entryImage 5 i 0 lbn cnt rid, entryImage 6 i 0 seg pos 0]
  | .displace i lbn pua seg => [entryImage 7 i 0 lbn pua seg]
  | .unpin i seg => [entryImage 8 i 0 seg 0 0]
  | .band d role listed num block erases => [entryImage 9 0 (d + 16 * role.code + 256 * b2n listed) num block erases]
  | .retire d block reason => [entryImage 0x0A 0 d block reason 0]
  | .record i gen pua _ _ => [entryImage 0x0B i 0 gen pua 0]
  | .frontier role num page => [entryImage 0x0C 0 role.code num page 0]
  | .highwater i arch v => [entryImage 0x0D i (b2n arch) v (v / 2 ^ 32) 0]
  | .lost i lbn cnt _ => [entryImage 0x0E i 0 lbn cnt 0]
  | .dieFail d => [entryImage 0x0F 0 d 0 0 0]
  | .logMap blk pua q => [entryImage 0x10 0 0 blk pua q]

/-- A seq field of 32 bits extended with the high half that brings it nearest to a watermark (R226). -/
def extendSeq (mark low : Nat) : Nat :=
  let h := mark / 2 ^ 32 * 2 ^ 32
  let up := h + low % 2 ^ 32
  if mark < up then (if 2 ^ 31 < up - mark ∧ 2 ^ 32 ≤ up then up - 2 ^ 32 else up)
  else if 2 ^ 31 < mark - up then up + 2 ^ 32 else up

/-- An entry joins the journal that is not flushed yet. -/
def State.jAdd (s : State) (e : JEntry) : State :=
  { s with fss := { s.fss with jWait := s.fss.jWait ++ [e], jMade := s.fss.jMade + 1 } }

/-- A map update joins the journal: it counts toward the triggers of R227. -/
def State.jUpdate (s : State) (e : JEntry) : State :=
  let t := s.jAdd e
  { t with fss := { t.fss with jUpdates := t.fss.jUpdates + 1, jOldest := if t.fss.jUpdates = 0 then t.tm.mono else t.fss.jOldest } }

/-- A map entry's two values that are no address (R213). -/
def puaEmpty : Nat := 0xFFFFFFFF
def puaLost : Nat := 0xFFFFFFFE
def isReal (pua : Nat) : Bool := decide (pua < puaLost)

/-- A pinned unit that was lost stands in its segment's displaced list by 2^32 + its PUA, so that each counts once (R105). -/
def lostPinnedPua (pua : Nat) : Nat := 2 ^ 32 + pua
def isLostPinned (pua : Nat) : Bool := decide (2 ^ 32 ≤ pua)

/-- A physical unit address (R213). -/
def mkPua (ppb die block page slot : Nat) : Nat := die * 2 ^ 28 + (block * ppb + page) * 4 + slot
def puaDie (pua : Nat) : Nat := pua / 2 ^ 28
def puaBlock (ppb pua : Nat) : Nat := if ppb = 0 then 0 else (pua / 4 % 2 ^ 26) / ppb
def puaPage (ppb pua : Nat) : Nat := if ppb = 0 then 0 else (pua / 4 % 2 ^ 26) % ppb

/-! ### Pins and usage (R105) -/

/-- The segment holds its content in the staging store. -/
def Segment.holding (g : Segment) : Bool := g.unpinAt.isNone

/-- The segment covers a logical block and still pins the unit that the block maps. -/
def Segment.pins (g : Segment) (i lbn : Nat) : Bool :=
  decide (g.inst = i ∧ g.lbn ≤ lbn ∧ lbn < g.lbn + g.cnt) && g.holding && !g.displaced.any (fun e => e.1 = lbn)

/-- The current unit of a logical block is pinned. -/
def State.pinned (s : State) (i lbn : Nat) : Bool := s.fss.segs.any (fun g => g.pins i lbn)

/-- Segments pinned by an instance, and device-wide. -/
def State.segCount (s : State) (i : Nat) : Nat := (s.fss.segs.filter (fun g => g.inst = i)).length

/-- The displaced lists of an instance's segments: (logical block, PUA); a unit lost while pinned stands by `lostPinnedPua`, and a block that
was Empty or lost when its run was pinned as Empty. -/
def State.displacedList (s : State) (i : Nat) : List (Nat × Nat) :=
  ((s.fss.segs.filter (fun g => g.inst = i && g.holding)).foldl (fun l g => l ++ g.displaced) []).eraseDups

/-- Pinned units of an instance that no logical block maps any more, lost ones included (R105). -/
def State.displacedOf (s : State) (i : Nat) : List Nat :=
  ((s.displacedList i).filter (fun e => isReal e.2)).map (fun e => e.2) |>.eraseDups
def State.lostPinned (s : State) (i : Nat) : Nat := ((s.displacedList i).filter (fun e => isLostPinned e.2)).length

/-- The units that an instance holds (R105). -/
def State.usage (s : State) (i : Nat) : Nat :=
  (s.fss.map.filter (fun e => decide (e.1 / 2 ^ 32 = i) && isReal e.2)).length + (s.displacedOf i).length +
    s.lostPinned i

/-- Usage follows the map and the pins. -/
def State.refreshUsed (s : State) (i : Nat) : State := s.setUsed i (s.usage i)

/-! ### Dies, blocks, bands (R214, R237, R238) -/

def blockKey (die block : Nat) : Nat := die * 65536 + block
def State.block (s : State) (die b : Nat) : BlockRec := Bank.get blockDef s.fss.blocks (blockKey die b)
def State.setBlock (s : State) (die b : Nat) (r : BlockRec) : State :=
  { s with fss := { s.fss with blocks := Bank.set blockDef s.fss.blocks (blockKey die b) r } }

/-- The dies in use. -/
def State.goodDies (s : State) : List Nat :=
  (List.range 16).filter (fun d => match nth Die.reset s.fss.dies d with
    | ⟨p, f, _, _⟩ => p && !f)

/-- The free blocks of a die, in block order. -/
def State.freeBlocks (s : State) (d : Nat) : List Nat :=
  (List.range s.fss.blocksPerDie).filter (fun b => decide ((s.block d b).use = .free))

/-- The bands that could be formed from free blocks: the fewest free blocks of any die in use (R237, DEDUCED, log entry 20). -/
def State.freeBands (s : State) : Nat :=
  match s.goodDies.map (fun d => (s.freeBlocks d).length) with
  | [] => 0
  | a :: r => r.foldl min a

/-- The element with the least key, the first among equals. -/
def leastBy (key : Nat → Nat) : List Nat → Option Nat
  | [] => none
  | a :: r => match leastBy key r with
    | none => some a
    | some b => if key a ≤ key b then some a else some b

/-- The block of a die that the last flush listed for a role: the only one that the allocator opens (R227). -/
def State.listedBlock (s : State) (role : Band.Role) (d : Nat) : Option Nat :=
  (s.fss.reserved.find? (fun e => e.1 = role.code ∧ e.2.1 = d)).map (fun e => e.2.2)

/-- The block of a die that a flush lists for a role: the free block with the lowest erase count, or the highest for a cold band, the lowest
number among equals; a block that `taken` names for another role is passed over for the next (R227, R238, R239).
DESIGN CHOICE, log entry 21. -/
def State.pickBlock (s : State) (taken : List (Nat × Nat × Nat)) (role : Band.Role) (d : Nat) : Option Nat :=
  let l := (s.freeBlocks d).filter (fun b => !taken.any (fun e => e.2.1 = d ∧ e.2.2 = b))
  if role = .cold then leastBy (fun b => 2 ^ 32 - (s.block d b).erases) l else leastBy (fun b => (s.block d b).erases) l

/-- The blocks that the allocator takes next, by role and die. -/
def State.listBlocks (s : State) : State :=
  let l := [Band.Role.host, Band.Role.system, Band.Role.gc, Band.Role.cold].foldl (fun a role =>
    s.goodDies.foldl (fun a d => match s.pickBlock a role d with
      | some b => a ++ [(role.code, d, b)]
      | none => a) a) []
  { s with fss := { s.fss with reserved := l } }

/-! ### The anchor (R230) -/

/-- The 16 words of a band's blocks in an anchor page. -/
def bandWords (b : Option Band) : List Byte :=
  (List.range 16).foldl (fun a d =>
    a ++ leBytes 4 (match (b.map (fun x => x.blocks)).getD [] |>.find? (fun e => e.1 = d) with
      | some e => e.2
      | none => 0xFFFFFFFF)) []

/-- The system bands, newest first. -/
def State.systemBands (s : State) : List Band := (s.fss.bands.filter (fun b => decide (b.role = .system))).reverse

/-- The wear summary of a block table: for each die the lowest and the highest erase count of a good block, and the retired blocks. -/
def wearOf (blocks : Bank BlockRec) (perDie : Nat) : List (Nat × Nat × Nat) :=
  (List.range 16).map (fun d =>
    let l := (List.range perDie).map (fun b => Bank.get blockDef blocks (blockKey d b))
    let good := (l.filter (fun r => decide (r.use ≠ .retired))).map (fun r => r.erases)
    (match good with
     | [] => 0
     | a :: r => r.foldl min a, good.foldl max 0, l.length - good.length))

/-- The unit of an anchor page. -/
def State.anchorUnit (s : State) (seq : Nat) (wear : List (Nat × Nat × Nat)) : List Byte :=
  let num (b : Option Band) : Nat := (match b with
    | some x => x.num
    | none => 0)
  let cur := s.systemBands.head?
  let prev := (s.systemBands.drop 1).head?
  let b := padTo 4092 (leBytes 4 1 ++ leBytes 4 seq ++ leBytes 4 (num cur) ++ leBytes 4 (num prev) ++ bandWords cur ++ bandWords prev ++
    padTo 64 (s.getInst 0).wrapped ++ wear.foldl (fun a e => a ++ leBytes 4 e.1 ++ leBytes 4 e.2.1 ++ leBytes 4 e.2.2) [])
  b ++ leBytes 4 (crc32 b)

/-- A copy moves on by one page; when its block is full the other one is erased and takes the page. -/
def State.advanceAnchor (s : State) (c : AnchorCopy) : State × AnchorCopy :=
  if s.fss.ppb ≤ c.page then
    let b := if c.second then c.blocks.1 else c.blocks.2
    (s.setBlock c.die b { s.block c.die b with erases := (s.block c.die b).erases + 1 }, { c with second := !c.second, page := 1 })
  else (s, { c with page := c.page + 1 })

/-- An anchor page is written in both copies, with the wear summary of the newest complete root. -/
def State.writeAnchor (s : State) : State :=
  let wear := (match s.fss.root with
    | some r => wearOf r.blocks s.fss.blocksPerDie
    | none => s.fss.anchorWear)
  let (s, l) := s.fss.anchors.foldl (fun (e : State × List AnchorCopy) c =>
    let (t, c) := e.1.advanceAnchor c
    (t, e.2 ++ [c])) (s, [])
  let seq := s.fss.anchorSeq + 1
  { s with fss := { s.fss with
      anchor := true, anchorErased := false, anchorSeq := seq, anchorKeySlot := s.sea.slot, anchors := l, anchorWear := wear,
      anchorImg := s.anchorUnit seq wear } }

/-- A band of a role is opened from the listed block of each die, two dies at least so that a stripe has parity; a system band writes the
anchor first (R214, R227, R230, R238). DESIGN CHOICE, log entry 21. -/
def State.openBand (s : State) (role : Band.Role) : State :=
  let bl := s.goodDies.filterMap (fun d => (s.listedBlock role d).map (fun b => (d, b)))
  if bl.length < 2 then s
  else
    let n := s.fss.nextBand
    let s := forEach bl (fun e t =>
      (t.setBlock e.1 e.2 { t.block e.1 e.2 with use := .opened, band := n }).jAdd
        (.band e.1 role false n e.2 (t.block e.1 e.2).erases)) s
    let s := { s with fss := { s.fss with
      nextBand := n + 1,
      reserved := s.fss.reserved.filter (fun e => e.1 ≠ role.code),
      bands := s.fss.bands ++ [⟨n, role, bl, [], [], [], 0, 0, true, none⟩] } }
    if role = .system then s.writeAnchor else s

/-- The dies left out of the stripe of page index `page`, and the dies of that stripe, in die order (R214, R244). -/
def Band.leftAt (b : Band) (page : Nat) : List Nat :=
  match b.hist.find? (fun e => decide (e.1 ≤ page)) with
  | some e => e.2
  | none => []
def Band.diesAt (b : Band) (page : Nat) : List (Nat × Nat) := b.blocks.filter (fun e => !(b.leftAt page).contains e.1)

/-- The position of the parity die in the stripe of page index `page` (R214). DESIGN CHOICE, log entry 21. -/
def Band.parityOf (b : Band) (page : Nat) : Nat := if (b.diesAt page).length = 0 then 0 else page % (b.diesAt page).length

/-- The next position of the present stripe that takes a data page; a die that failed within the stripe takes none. -/
def Band.nextPos (b : Band) : Option Nat :=
  (List.range (b.diesAt b.page).length).find? (fun p =>
    decide (b.pos ≤ p ∧ p ≠ b.parityOf b.page) && !b.left.contains (nth (0, 0) (b.diesAt b.page) p).1)

/-- The band goes on to its next stripe, which leaves out the dies left out so far. -/
def Band.turn (b : Band) : Band :=
  { b with page := b.page + 1, pos := 0, hist := if b.leftAt (b.page + 1) = b.left then b.hist else (b.page + 1, b.left) :: b.hist }

/-- The data page at a position of the present stripe. -/
def Band.pageAt (ppb : Nat) (b : Band) (p : Nat) : Option (Nat × Band) :=
  if ppb ≤ b.page then none
  else
    let e := nth (0, 0) (b.diesAt b.page) p
    some (mkPua ppb e.1 e.2 b.page 0, { b with pos := p + 1, bare := if b.bare.contains b.page then b.bare else b.page :: b.bare })

/-- The next data page of a band, and the band advanced past it; none when the band is full. -/
def Band.take (ppb : Nat) (b : Band) : Option (Nat × Band) :=
  match b.nextPos with
  | some p => b.pageAt ppb p
  | none =>
    match b.turn.nextPos with
    | some p => b.turn.pageAt ppb p
    | none => none

/-- The open band of a role. -/
def State.openOf (s : State) (role : Band.Role) : Option Band := s.fss.bands.find? (fun b => b.isOpen && decide (b.role = role))

def State.setBand (s : State) (b : Band) : State :=
  { s with fss := { s.fss with bands := s.fss.bands.map (fun x => if x.num = b.num then b else x) } }

/-- A full band takes no more pages; its blocks become closed, those of a system band only with the next complete root (R230). -/
def State.closeBand (s : State) (b : Band) : State :=
  if b.role = .system then s.setBand { b with isOpen := false }
  else forEach b.blocks (fun e t => t.setBlock e.1 e.2 { t.block e.1 e.2 with use := if (t.block e.1 e.2).use = .retired then .retired else .closed })
    (s.setBand { b with isOpen := false })

/-- The next page of a role's band, opening a new band when none is open or the open one is full. -/
def State.takePage (s : State) (role : Band.Role) : Option (Nat × State) :=
  match s.openOf role with
  | some b =>
    (match b.take s.fss.ppb with
    | some (p, b) => some (p, s.setBand b)
    | none =>
      let t := (s.closeBand b).openBand role
      (match t.openOf role with
      | some b => (b.take t.fss.ppb).map (fun e => (e.1, t.setBand e.2))
      | none => none))
  | none =>
    let t := s.openBand role
    (match t.openOf role with
    | some b => (b.take t.fss.ppb).map (fun e => (e.1, t.setBand e.2))
    | none => none)

/-- The filling page of a role is issued to its die, or waits while the store is quiesced (R223, R231). -/
def State.issuePage (s : State) (role : Band.Role) : State :=
  { s with fss := { s.fss with progs := s.fss.progs ++ (s.fss.fill.filter (fun p => p.role = role)).map (fun p => { p with queued := s.fss.quiesced }),
                               fill := s.fss.fill.filter (fun p => p.role ≠ role) } }

/-- A unit joins the filling page of a role; a page with four units is issued. The PUA it takes, or none without space. -/
def State.addUnit (s : State) (role : Band.Role) (u : UnitRec) (cmd : Option Nat) : Option (Nat × State) :=
  match s.fss.fill.find? (fun p => p.role = role) with
  | some p =>
    let pua := p.pua + p.units.length
    let p2 := { p with units := p.units ++ [u], cmds := (p.cmds ++ cmd.toList).eraseDups }
    let t := { s with fss := { s.fss with fill := s.fss.fill.map (fun x => if x.role = role then p2 else x) } }
    some (pua, if 4 ≤ p2.units.length then t.issuePage role else t)
  | none =>
    (match s.takePage role with
    | some (pua, t) => some (pua, { t with fss := { t.fss with fill := t.fss.fill ++ [⟨pua, role, [u], cmd.toList, false⟩] } })
    | none => none)

/-- A unit is added to a page of a system, GC or cold band; it is read from there before its page reports success. DESIGN CHOICE, log entry 21. -/
def State.putUnit (s : State) (role : Band.Role) (u : UnitRec) : Option (Nat × State) :=
  match s.addUnit role u none with
  | some (pua, t) => some (pua, { t with fss := { t.fss with units := Bank.set unitDef t.fss.units pua u } })
  | none => none

/-- The next unit sequence number of an instance; a new run of 2^20 values is reserved while 2^19 of the last one are left (R191).
DESIGN CHOICE, log entry 21. -/
def State.takeSeq (s : State) (i : Nat) : Nat × State :=
  let n := (s.getInst i).unitSeq + 1
  let s := s.modInst i (fun r => { r with unitSeq := n })
  if (s.getInst i).unitHigh ≤ n + 2 ^ 19 then
    (n, (s.modInst i (fun r => { r with unitHigh := n + 2 ^ 20 })).jAdd (.highwater i false (n + 2 ^ 20)))
  else (n, s)

/-- The checkpoint-structure sequence advances by one per unit of kind 2 (R229). -/
def State.bumpCkpt (s : State) : State := { s with fss := { s.fss with ckptSeq := s.fss.ckptSeq + 1 } }

/-- A record `r` of instance `i` is written as a record unit and named by a RECORD entry (R228). -/
def State.journalRecordOf (s : State) (i : Nat) (r : Instance) : State :=
  let (q, s) := s.takeSeq 0
  let u : UnitRec := ⟨2, 0, s.fss.ckptSeq, q, s.tm.mono, (s.getInst 0).gen, 0, 1, q % 2 ^ 32, false, ((s.getInst 0).keySerial).getD 0,
    padTo 4096 (Config.ckptBytes s.fss.ckptSeq)⟩
  match s.bumpCkpt.putUnit .system u with
  | some (pua, t) => t.jAdd (.record i r.gen pua r (s.live (Reg.INS_T_LIMITS i)))
  | none => s.jAdd (.record i r.gen puaEmpty r (s.live (Reg.INS_T_LIMITS i)))

/-- The present record of an instance is journaled. -/
def State.journalRecord (s : State) (i : Nat) : State := s.journalRecordOf i (s.getInst i)

/-! ### The map (R217 to R219) -/

def mapKey (i lbn : Nat) : Nat := i * 2 ^ 32 + lbn
def leafKey (i lbn : Nat) : Nat := i * 2 ^ 22 + lbn / 1024

/-- What a logical block maps. -/
def State.mapGet (s : State) (i lbn : Nat) : Nat := Bank.get mapDef s.fss.map (mapKey i lbn)
def State.leaf (s : State) (k : Nat) : LeafRec := Bank.get leafDef s.fss.leaves k
def State.setLeaf (s : State) (k : Nat) (r : LeafRec) : State :=
  { s with fss := { s.fss with leaves := Bank.set leafDef s.fss.leaves k r } }

/-- The hot pool holds FSS.LEAF_POOL MiB of 4 KiB leaves (R218). -/
def State.poolCap (s : State) : Nat := Cf.FSS_LEAF_POOL_mib s * 256

/-- The entries of leaf `k`: what its 1024 logical blocks map. -/
def State.leafEntries (s : State) (k : Nat) : List Nat :=
  (List.range 1024).map (fun n => Bank.get mapDef s.fss.map (mapKey (k / 2 ^ 22) (k % 2 ^ 22 * 1024 + n)))

/-- The lowest place of the host-held region that no leaf holds and no promotion still reads, when one is left. DESIGN CHOICE, log entry 24. -/
def State.freeSlot (s : State) : Option Nat :=
  let used := (s.fss.leaves.filter (fun e => decide (e.2.loc = .host))).map (fun e => e.2.slot) ++
    (s.fetches.filter (fun l => l.promo.isSome)).map (fun l => l.line / 64)
  match (List.range (used.length + 1)).find? (fun n => !used.contains n) with
  | some n => if n < s.hregQ / 4096 then some n else none
  | none => none

/-- The PF may write to the region. -/
def State.regionOpen (s : State) : Bool := s.fss.hregEn && s.pfMayWrite

/-- The 4096 bytes of a leaf. -/
def leafBytes (l : List Nat) : List Byte := padTo 4096 (l.foldl (fun a e => a ++ leBytes 4 e) [])

/-- A dirty leaf is written out to the system band and recorded with a LEAF entry (R218). -/
def State.leafOut (s : State) (k : Nat) : State :=
  let l := s.leaf k
  if l.dirty then
    let (q, s) := s.takeSeq 0
    let u : UnitRec := ⟨2, 0, s.fss.ckptSeq, q, s.tm.mono, (s.getInst 0).gen, 0, 1, q % 2 ^ 32, false, ((s.getInst 0).keySerial).getD 0,
      leafBytes (s.leafEntries k)⟩
    match s.bumpCkpt.putUnit .system u with
    | some (pua, t) => (t.jAdd (.leaf (k / 2 ^ 22) (k % 2 ^ 22) pua)).setLeaf k { l with dirty := false, pua := pua, prev := l.pua }
    | none => s
  else s

/-- The least recently used leaf leaves the pool: a dirty one is written out with a LEAF entry first, and stays while no page takes it;
clean, it goes to a place of the host-held region when that is in use, with its version advanced, and otherwise stays in NAND only (R187,
R218). DESIGN CHOICE, log entry 24. -/
def State.evictLeaf (s : State) : State :=
  match s.fss.pool.reverse with
  | [] => s
  | k :: r =>
    let s := s.leafOut k
    let l := s.leaf k
    if l.dirty then s
    else
      let s := { s with fss := { s.fss with pool := r.reverse } }
      match (if s.regionOpen then s.freeSlot else none) with
      | some n =>
        let v := (l.version + 1) % 2 ^ 32
        (s.setLeaf k { l with loc := .host, version := v, slot := n }).writeLeaf n v (s.leafEntries k)
      | none => s.setLeaf k { l with loc := .nand }

/-- A line is read for the promotion of leaf `k`, to be checked under `version`. -/
def State.addPromo (s : State) (line k version : Nat) : State :=
  if s.fetches.any (fun l => l.line = line) then
    { s with fetches := s.fetches.map (fun l => if l.line = line then { l with promo := some (k, version) } else l) }
  else { s with fetches := s.fetches ++ [⟨line, 0, false, false, [], [], some (k, version), false⟩] }

/-- A leaf is promoted from the host-held region: its 64 lines are read past the cache and checked under its version (R188, R219, R251).
The pool's copy is used meanwhile; a line that fails its check twice begins the halt. DESIGN CHOICE, log entry 24. -/
def State.promoteLeaf (s : State) (k : Nat) : State :=
  let l := s.leaf k
  forBelow 64 (fun i t => t.addPromo (l.slot * 64 + i) k l.version) s

/-- A leaf is used: it is loaded into the pool where it lies elsewhere, and becomes the most recent. -/
def State.touchLeaf (s : State) (k : Nat) : State :=
  let s := if s.fss.pool.contains k then s
    else
      let s := if (s.leaf k).loc = .host then s.promoteLeaf k else s
      if s.poolCap ≤ s.fss.pool.length then s.evictLeaf else s
  let s := { s with fss := { s.fss with pool := k :: s.fss.pool.filter (fun x => x ≠ k) } }
  s.setLeaf k { s.leaf k with loc := .pool }

/-- The leaves of `n` logical blocks are used (R251). -/
def State.touchRun (s : State) (i lbn n : Nat) : State :=
  if n = 0 then s
  else forBelow ((lbn + n - 1) / 1024 - lbn / 1024 + 1) (fun k t => t.touchLeaf (leafKey i (lbn + 1024 * k))) s

/-- A map entry changes in its leaf in the pool, which becomes dirty. -/
def State.mapStore (s : State) (i lbn pua : Nat) : State :=
  let k := leafKey i lbn
  let s := s.touchLeaf k
  let s := s.setLeaf k { s.leaf k with dirty := true }
  { s with fss := { s.fss with map := Bank.set mapDef s.fss.map (mapKey i lbn) pua } }

/-- A map entry changes; a pinned unit that the block mapped joins the displaced lists of its segments, each with a DISPLACE entry
(R34, R246). -/
def State.mapPut (s : State) (i lbn pua : Nat) : State :=
  let old := s.mapGet i lbn
  let s :=
    if isReal old then
      let hit := s.fss.segs.filter (fun g => g.pins i lbn)
      let s := forEach hit (fun g t => t.jAdd (.displace i lbn old g.num)) s
      { s with fss := { s.fss with segs := s.fss.segs.map (fun g =>
          if g.pins i lbn then { g with displaced := g.displaced ++ [(lbn, old)] } else g) } }
    else s
  s.mapStore i lbn pua

/-- What NAND holds at a PUA. -/
def State.unitAt (s : State) (pua : Nat) : UnitRec := Bank.get unitDef s.fss.units pua

/-- A logical block maps content that is not archived and that a policy holds by its age (R109). -/
def State.heldBlock (s : State) (i lbn minHold : Nat) (legal : Bool) : Bool :=
  let pua := s.mapGet i lbn
  isReal pua && decide (Bank.get (fun _ => 0) s.fss.archived (mapKey i lbn) ≠ (s.unitAt pua).seq + 1) &&
    held minHold legal (s.tm.mono - (s.unitAt pua).mono)

/-- The logical blocks that an instance maps. -/
def State.mappedBlocks (s : State) (i : Nat) : List Nat :=
  (s.fss.map.filter (fun e => decide (e.1 / 2 ^ 32 = i))).map (fun e => e.1 % 2 ^ 32)

/-- Leaves of an instance in the pool that are wholly Empty are dropped from the top level (R246); their versions go on (R187). -/
def State.dropEmptyLeaves (s : State) (i : Nat) : State :=
  forEach (s.fss.pool.filter (fun k => decide (k / 2 ^ 22 = i))) (fun k t =>
    if (t.mappedBlocks i).any (fun b => decide (leafKey i b = k)) then t
    else ({ t with fss := { t.fss with pool := t.fss.pool.filter (fun x => x ≠ k) } }).setLeaf k { leafDef k with version := (t.leaf k).version }) s

/-- The store accepts work (FSS.STS.ready). -/
def State.mounted (s : State) : Bool := s.fss.ready

/-- Geometry: FSS.CAP by the formula of spec/06's worked example. -/
def capUnits (goodPages w op ppb : Nat) : Nat :=
  if w = 0 then 0 else goodPages * 4 * (w - 1) * (100 - op) / (w * 100) - 8 * ppb * 4 * (w - 1)

/-- The good blocks of a die: every block that is not retired. -/
def State.goodBlocks (s : State) (d : Nat) : Nat :=
  ((List.range s.fss.blocksPerDie).filter (fun b => decide ((s.block d b).use ≠ .retired))).length

/-- FSS.CAP is computed again from the good pages of the dies in use (R245). -/
def State.recap (s : State) : State :=
  let pages := (s.goodDies.foldl (fun a d => a + s.goodBlocks d) 0) * s.fss.ppb
  { s with fss := { s.fss with cap := capUnits pages s.goodDies.length s.fss.op s.fss.ppb } }

/-! ### Commit records (R162) -/

/-- The commit record keeps every pinned segment and the 1024 archived most recently (R162). -/
def trimCommits (l : List CommitRec) : List CommitRec :=
  let old := l.filter (fun c => c.archived)
  l.filter (fun c => !c.archived || (old.take 1024).contains c)

/-- The commit record of a segment is archived, as the most recent one. -/
def markArchived (l : List CommitRec) (num setId : Nat) : List CommitRec :=
  match l.find? (fun c => c.seg = num) with
  | some c => trimCommits ({ c with archived := true, setId := setId } :: l.filter (fun x => x.seg ≠ num))
  | none => l

/-- The blocks whose staged content is the archived one are no longer held by age (R109). -/
def State.markUnits (s : State) (g : Segment) : State :=
  forBelow g.cnt (fun k t =>
    let lbn := g.lbn + k
    let pua := t.mapGet g.inst lbn
    if isReal pua && !g.displaced.any (fun e => e.1 = lbn) then
      { t with fss := { t.fss with archived := Bank.set natDef t.fss.archived (mapKey g.inst lbn) ((t.unitAt pua).seq + 1) } }
    else t) s

/-- The worked example of spec/06: 3.48 TiB of usable capacity. -/
theorem capUnits_example : capUnits 267943936 16 7 1024 = 933962956 := by decide

end Sys2Proof.Machine
end

