-- ==== Sys2Proof/Machine/Commands.lean ====
section
/-!
DEFINITION. Commands in flight (spec/04): the submission entry and its checks (Tables 04-3, 04-5, 04-10), acceptance with the duplicate
window, ordering, the DMA reads a command needs, and completion.
-/

namespace Sys2Proof.Machine

/-! ### Opcodes and entry fields -/

/-- The opcodes of Table 04-5. -/
inductive Op where
  | write | read | discard | flush | commit | arcRead | verify | identify | getLog | getUsage
  | setPolicy | setQuota | setPeriod | start | reset | remove | load | finalize | rebuild | store | stage | activate
  deriving DecidableEq, Repr

/-- The opcode that a code names. -/
def opOf (n : Nat) : Option Op :=
  match n with
  | 0x01 => some .write
  | 0x02 => some .read
  | 0x03 => some .discard
  | 0x04 => some .flush
  | 0x05 => some .commit
  | 0x06 => some .arcRead
  | 0x07 => some .verify
  | 0x08 => some .identify
  | 0x09 => some .getLog
  | 0x0A => some .getUsage
  | 0x40 => some .setPolicy
  | 0x41 => some .setQuota
  | 0x42 => some .setPeriod
  | 0x43 => some .start
  | 0x44 => some .reset
  | 0x45 => some .remove
  | 0x48 => some .load
  | 0x49 => some .finalize
  | 0x4A => some .rebuild
  | 0x4C => some .store
  | 0x4E => some .stage
  | 0x4F => some .activate
  | _ => none

/-- Manager opcodes are accepted only from the PF. -/
def Op.manager : Op → Bool
  | .write => false
  | .read => false
  | .discard => false
  | .flush => false
  | .commit => false
  | .arcRead => false
  | .verify => false
  | .identify => false
  | .getLog => false
  | .getUsage => false
  | _ => true

/-- Fields of a submission entry (Table 04-3). -/
def eByte (e : List Byte) (k : Nat) : Nat := leAt e k 1
def eOp (e : List Byte) : Option Op := opOf (eByte e 0)
def eFence (e : List Byte) : Bool := decide (eByte e 1 % 2 = 1)
def ePtr (e : List Byte) : Nat := eByte e 2
def eRid (e : List Byte) : Nat := leAt e 4 4
def eArg0 (e : List Byte) : Nat := leAt e 8 8
def eArg1 (e : List Byte) : Nat := leAt e 16 4
def eAddr (e : List Byte) : Nat := leAt e 24 8
def eLen (e : List Byte) : Nat := leAt e 32 4
def eElems (e : List Byte) : Nat := leAt e 36 2
def eTarget (e : List Byte) : Nat := eByte e 40

/-- Status codes (Table 04-9). -/
def stSuccess : Nat := 0x00
def stOpcode : Nat := 0x01
def stField : Nat := 0x02
def stAccess : Nat := 0x03
def stState : Nat := 0x04
def stBusy : Nat := 0x05
def stDupFlight : Nat := 0x06
def stRange : Nat := 0x07
def stQuota : Nat := 0x08
def stRetention : Nat := 0x09
def stCapacity : Nat := 0x0A
def stHost : Nat := 0x0B
def stArcFull : Nat := 0x0C
def stMedia : Nat := 0x0D
def stNotFound : Nat := 0x0E
def stNotArchived : Nat := 0x0F
def stAbsent : Nat := 0x10
def stImage : Nat := 0x11

/-- Result of invalid-field: byte offset of the field, and the list element or 0xFFFF_FFFF. -/
def fieldResult (off elem : Nat) : Nat := off + elem * 2 ^ 32
def noElem : Nat := 0xFFFFFFFF

/-- Result of unrecoverable-media: first lost block and medium. -/
def mediaResult (idx medium : Nat) : Nat := idx + medium * 2 ^ 32

/-! ### Check 4: fields (Table 04-5, R139, R140) -/

/-- The first of `len` bytes from `off` that is not zero. -/
def firstNonzero (e : List Byte) (off : Nat) : Nat → Option Nat
  | 0 => none
  | n + 1 => if eByte e off ≠ 0 then some off else firstNonzero e (off + 1) n

/-- How an opcode uses a data buffer. -/
inductive DataUse where
  | none
  | input
  | output
  deriving DecidableEq, Repr

/-- The data column of Table 04-5; STORE_SETTINGS with no data is a capture. -/
def dataUse (op : Op) (e : List Byte) : DataUse :=
  match op with
  | .write => .input
  | .read => .output
  | .arcRead => .output
  | .identify => .output
  | .getLog => .output
  | .getUsage => .output
  | .store => if ePtr e = 0 then .none else .input
  | .stage => .input
  | _ => .none

/-- The dlen that the entry must carry. -/
def lenOk (op : Op) (e : List Byte) : Bool :=
  match op with
  | .write => decide (eLen e = eArg1 e * 4096)
  | .read => decide (eLen e = eArg1 e * 4096)
  | .arcRead => decide (eLen e = eArg1 e * 32832)
  | .identify => decide (eLen e = 4096)
  | .getLog => decide (4096 ≤ eLen e ∧ eLen e ≤ 1048576 ∧ eLen e % 4096 = 0)
  | .getUsage => decide (eLen e = (eArg1 e / 256) % 256 * 128)
  | .store => if ePtr e = 0 then decide (eLen e = 0) else decide (4096 ≤ eLen e ∧ eLen e ≤ 262144 ∧ eLen e % 4096 = 0)
  | .stage => decide (4096 ≤ eLen e ∧ eLen e ≤ 1048576 ∧ eLen e % 4096 = 0)
  | _ => decide (eLen e = 0)

/-- arg0 breaks the row: the offset of the bad field. -/
def badArg0 (op : Op) (e : List Byte) : Option Nat :=
  match op with
  | .write => none
  | .read => none
  | .discard => none
  | .commit => none
  | .arcRead => none
  | .verify => none
  | .getLog => if leAt e 12 4 = 0 then none else some 12
  | .setQuota => none
  | .setPeriod => none
  | .start => if 16 ≤ eArg0 e ∧ eArg0 e ≤ 2 ^ 32 then none else some 8
  | .load => none
  | .finalize => none
  | .rebuild => none
  | .stage => if eArg0 e % 4096 = 0 then none else some 8
  | _ => if eArg0 e = 0 then none else some 8

/-- arg1 breaks the row. -/
def badArg1 (op : Op) (e : List Byte) : Option Nat :=
  let ok : Bool := match op with
    | .write => decide (1 ≤ eArg1 e ∧ eArg1 e ≤ 256)
    | .read => decide (1 ≤ eArg1 e ∧ eArg1 e ≤ 256)
    | .discard => decide (1 ≤ eArg1 e ∧ eArg1 e ≤ 1048576)
    | .commit => decide (1 ≤ eArg1 e ∧ eArg1 e ≤ 524288)
    | .arcRead => decide (1 ≤ eArg1 e ∧ eArg1 e ≤ 32)
    | .verify => decide (1 ≤ eArg1 e ∧ eArg1 e ≤ 65536)
    | .getUsage => decide (eArg1 e % 256 ≤ 7 ∧ 1 ≤ eArg1 e / 256 % 256 ∧ eArg1 e / 256 % 256 ≤ 8 ∧ eArg1 e < 65536)
    | .setPeriod => decide (eArg1 e = 0 ∨ 3600 ≤ eArg1 e)
    | _ => decide (eArg1 e = 0)
  if ok then none else some 16

/-- The buffer fields break R140: daddr alignment, dlen, nelem. -/
def badData (op : Op) (e : List Byte) : Option Nat :=
  let t := ePtr e
  if t = 0 then (if eAddr e ≠ 0 then some 24 else if !lenOk op e then some 32 else if eElems e ≠ 0 then some 36 else none)
  else if eAddr e % (if t = 1 then 4 else 16) ≠ 0 then some 24
  else if !lenOk op e then some 32
  else if t = 1 then (if eElems e = 0 then none else some 36)
  else if 1 ≤ eElems e ∧ eElems e ≤ 256 then none else some 36

/-- The first of two findings. -/
def orElse (a b : Option Nat) : Option Nat :=
  match a with
  | some x => some x
  | none => b

/-- The bytes 40 to 63 break the row. -/
def badP (op : Op) (f : Nat) (e : List Byte) : Option Nat :=
  let warnBad : Option Nat := if eByte e 44 = 0 ∨ (50 ≤ eByte e 44 ∧ eByte e 44 ≤ 100) then none else some 44
  match op with
  | .identify => orElse (firstNonzero e 40 4) (orElse (if eByte e 44 ≤ 1 then none else some 44) (firstNonzero e 45 19))
  | .getUsage => orElse (if f = 0 ∨ eTarget e = 0 then none else some 40) (firstNonzero e 41 23)
  | .setPolicy => orElse (firstNonzero e 41 3) (orElse (if eByte e 48 ≤ 1 then none else some 48) (firstNonzero e 49 15))
  | .setQuota => orElse (firstNonzero e 41 3) (orElse warnBad (firstNonzero e 45 19))
  | .setPeriod => firstNonzero e 41 23
  | .start => orElse (if eTarget e = 0 then some 40 else none)
      (orElse (firstNonzero e 41 3) (orElse warnBad (orElse (firstNonzero e 45 3) (firstNonzero e 56 8))))
  | .reset => orElse (if eTarget e = 0 then some 40 else none) (firstNonzero e 41 23)
  | .remove => orElse (if eTarget e = 0 then some 40 else none) (firstNonzero e 41 23)
  | .load => orElse (firstNonzero e 40 4) (orElse (if eByte e 44 ≤ 1 then none else some 44) (firstNonzero e 45 19))
  | .rebuild => orElse (firstNonzero e 40 4) (orElse (if eByte e 44 ≤ 3 then none else some 44) (firstNonzero e 45 19))
  | .stage => orElse (firstNonzero e 40 4) (orElse (if eByte e 44 ≤ 1 then none else some 44) (firstNonzero e 45 19))
  | .activate => orElse (firstNonzero e 40 4) (orElse (if eByte e 44 ≤ 1 then none else some 44) (firstNonzero e 45 19))
  | _ => firstNonzero e 40 24

/-- The dptr_type is not one that the row allows. -/
def badPtr (op : Op) (e : List Byte) : Option Nat :=
  let ok : Bool := if dataUse op e = .none then decide (ePtr e = 0) else decide (ePtr e = 1 ∨ ePtr e = 2)
  if ok then none else some 2

/-- The first bad field of an entry, in byte order (Table 04-10, check 4). -/
def badField (op : Op) (f : Nat) (e : List Byte) : Option Nat :=
  orElse (if eByte e 1 < 2 then none else some 1) (orElse (badPtr op e) (orElse (firstNonzero e 3 1)
    (orElse (badArg0 op e) (orElse (badArg1 op e) (orElse (if leAt e 20 4 = 0 then none else some 20)
      (orElse (badData op e) (orElse (if leAt e 38 2 = 0 then none else some 38) (badP op f e))))))))

/-! ### Checks 5 to 7 -/

/-- The command names a target instance other than its issuer. -/
def Op.targets : Op → Bool
  | .setPolicy => true
  | .setQuota => true
  | .setPeriod => true
  | .start => true
  | .reset => true
  | .remove => true
  | _ => false

/-- Whether a command of some opcodes is in flight: its completion has not been written or discarded (R153, R154). -/
def State.opInFlight (s : State) (p : Op → Bool) : Bool :=
  s.cmds.any (fun c => match eOp c.entry with
    | some o => p o
    | none => false)

def Op.stripe : Op → Bool
  | .load => true
  | .finalize => true
  | .rebuild => true
  | _ => false

def Op.firmware : Op → Bool
  | .stage => true
  | .activate => true
  | _ => false

/-- A failed check: status and result. -/
abbrev Fail := Option (Nat × Nat)

/-- Check 5: the state of the issuer and of the target (Table 03-2), and the busy rules of R153, R510 and R525. DEDUCED, log entry 37. -/
def State.checkState (s : State) (op : Op) (f : Nat) (e : List Byte) : Fail :=
  let me := s.getInst f
  if me.state ≠ .active then some (stState, me.state.code)
  else if me.keyLost && (op = .write || op = .commit) then some (stState, me.state.code)
  else if op.targets then
    let t := s.getInst (eTarget e)
    match op, t.state with
    | .start, .idle => none
    | .start, .removing => some (stBusy, 0)
    | .start, .draining => some (stBusy, 0)
    | .start, st => some (stState, st.code)
    | _, .active => none
    | _, .resetting => none
    | _, st => some (stState, st.code)
  else if op.stripe && s.opInFlight Op.stripe then some (stBusy, 0)
  else if op = .store && s.opInFlight (fun o => o = .store) then some (stBusy, 0)
  else if op.firmware && s.opInFlight Op.firmware then some (stBusy, 0)
  else none

/-- The opcode names a run of logical blocks of the issuer. -/
def Op.blocks : Op → Bool
  | .write => true
  | .read => true
  | .discard => true
  | .commit => true
  | _ => false

/-- The blocks of a run for which a WRITE adds a unit: Empty, lost or pinned (R106). -/
def State.wouldAdd (s : State) (i lbn : Nat) : Nat → Nat
  | 0 => 0
  | n + 1 => (if !isReal (s.mapGet i (lbn + n)) || s.pinned i (lbn + n) then 1 else 0) + State.wouldAdd s i lbn n

/-- The first stripe that is not complete. -/
def State.firstOpen (s : State) : Nat := ((s.arc.going ++ s.arc.ready).map (fun t => t.num)).foldl min s.arc.form

/-- The pending runs whose stripes are all complete. -/
def State.runsDone (s : State) : List SrRun := s.arc.pend.filter (fun r => decide (r.slot + r.len ≤ 3 * s.firstOpen))

/-- The runs of a segment that the set and the pending entries show. -/
def State.segRuns (s : State) (seg : Nat) : List SrRun := (s.runsDone ++ s.arc.index).filter (fun r => r.seg = seg)

/-- The archive blocks of an instance's own segment, where the queue or the loaded set shows them. -/
def State.segBlocks (s : State) (i seg : Nat) : Option Nat :=
  match s.fss.segs.find? (fun g => g.num = seg) with
  | some g => if g.inst = i then some g.blocks else none
  | none => ((s.segRuns seg).find? (fun r => r.last && decide (r.inst = i))).map (fun r => r.idx + r.len)

/-- The archive blocks that an ARCHIVE_READ or VERIFY names lie outside the segment (R147, check 6). -/
def State.blocksOutside (s : State) (i : Nat) (e : List Byte) : Bool :=
  let seg := eArg0 e % 2 ^ 32
  decide ((s.getInst i).firstSeg ≠ 0 ∧ (s.getInst i).firstSeg ≤ seg) &&
    (match s.segBlocks i seg with
     | some n => decide (n < eArg0 e / 2 ^ 32 + eArg1 e)
     | none => false)

/-- Checks 6 and 7: the namespace or the segment, and the quota; a WRITE that adds no unit is never refused for it (R106). -/
def State.checkRange (s : State) (op : Op) (f : Nat) (e : List Byte) : Fail :=
  let me := s.getInst f
  let n := s.wouldAdd f (eArg0 e) (eArg1 e)
  if op.blocks && decide (me.nsSize < eArg0 e + eArg1 e) then some (stRange, 0)
  else if (op = .arcRead || op = .verify) && s.blocksOutside f e then some (stRange, 0)
  else if op = .write && decide (n ≠ 0 ∧ me.quota < me.used + me.reserved + n) then some (stQuota, me.used)
  else none

/-- The command needs the staging store or changes an instance record (R236). -/
def Op.needsStore : Op → Bool
  | .write => true
  | .read => true
  | .discard => true
  | .flush => true
  | .commit => true
  | .setPolicy => true
  | .setQuota => true
  | .setPeriod => true
  | .start => true
  | .reset => true
  | .remove => true
  | _ => false

/-- The command needs LPDDR besides (R591). -/
def Op.needsDram : Op → Bool
  | .arcRead => true
  | .verify => true
  | .load => true
  | .finalize => true
  | .rebuild => true
  | o => o.needsStore

/-- The whole examination of Table 04-10 from check 2 to check 7, then the unmounted store. -/
def State.examine (s : State) (f : Nat) (e : List Byte) : Fail :=
  match eOp e with
  | none => some (stOpcode, 0)
  | some op =>
    if f ≠ 0 && (op.manager || (op = .identify && decide (eByte e 44 = 1))) then some (stAccess, 0)
    else
      match badField op f e with
      | some off => some (stField, fieldResult off noElem)
      | none =>
        match s.checkState op f e with
        | some x => some x
        | none =>
          match s.checkRange op f e with
          | some x => some x
          | none =>
            if (!s.mounted && op.needsStore) || (s.boot.dramFail && op.needsDram) then some (stMedia, mediaResult 0 0) else none

/-! ### In flight -/

def State.findCmd (s : State) (id : Nat) : Option Cmd := s.cmds.find? (fun c => c.id = id)
def State.setCmd (s : State) (c : Cmd) : State := { s with cmds := s.cmds.map (fun x => if x.id = c.id then c else x) }
def State.dropCmd (s : State) (id : Nat) : State := { s with cmds := s.cmds.filter (fun c => c.id ≠ id) }

/-- Commands in flight of a function. -/
def State.inflight (s : State) (f : Nat) : Nat := (s.cmds.filter (fun c => c.fn.toNat = f)).length

/-- The window entry of a command. -/
def Instance.addWindow (r : Instance) (rid cmd : Nat) : Instance :=
  let w := if 128 ≤ r.window.length then (dropFirst (fun e => e.done.isSome) r.window.reverse).reverse else r.window
  { r with window := ⟨rid, cmd, none⟩ :: w }

/-- A reservation is given back (R106). -/
def State.unreserve (s : State) (c : Cmd) : State :=
  if c.reserved = 0 then s
  else ((s.modInst c.fn.toNat (fun r => { r with reserved := r.reserved - c.reserved })).setCmd { c with reserved := 0 }).quotaSettle c.fn.toNat

/-- Bytes of the kind that SRV.RATE_CFG selects join the rate meter's bin (R356). -/
def State.rateAdd (s : State) (kind bytes : Nat) : State :=
  if Cf.SRV_RATE_CFG_kind s = kind then { s with rate := { s.rate with acc := s.rate.acc + bytes } } else s

/-- The window entry of a command takes its completion (R160). -/
def State.windowDone (s : State) (i id status result : Nat) (rebuilt : Bool) : State :=
  s.modInst i (fun r => { r with window := r.window.map (fun w =>
    if w.cmd = id then { w with done := some (status, result, rebuilt) } else w) })

/-- A command completes: it counts in the meter and its completion is due (R116, R156). A completion of an older generation is discarded
(Table 03-3, step 6). -/
def State.complete (s : State) (c : Cmd) (status result : Nat) (rebuilt : Bool) : State :=
  let i := c.fn.toNat
  let s := s.unreserve c
  if c.gen ≠ (s.getInst i).gen then s.dropCmd c.id
  else
    let s := s.count i (fun m => { m with commands := m.commands + 1 })
    let s := s.setCmd { c with stage := .due, reserved := 0 }
    let s := { s with due := s.due ++ [⟨c.id, c.fn, c.sq, c.cq, c.sqHead, eRid c.entry, status, false, rebuilt, result⟩] }
    if status = 0 then (if eOp c.entry = some .write then s.rateAdd 0 (eArg1 c.entry * 4096) else s) else s.logEv .commandFailed (some c.fn) (status + 256 * eByte c.entry 0)

/-- A command's completion waits for the flush of everything journaled so far (R228). DEDUCED, log entry 27. -/
def State.completeFlushed (s : State) (c : Cmd) (result : Nat) : State :=
  s.setCmd { c with stage := .flushing, waitSeq := s.fss.jMade, result := result }

/-! ### Acceptance (R147, R160 to R162) -/

/-- The segments ahead of a new one in the device-wide archive queue: those pinned, and those of commands accepted earlier (R151). -/
def State.queueAhead (s : State) : Nat :=
  (s.fss.segs.filter (fun g => g.holding)).length +
    (s.cmds.filter (fun c => decide (eOp c.entry = some .commit) && decide (c.stage = .accepted ∨ c.stage = .started))).length

/-- A new command record. -/
def State.newCmd (s : State) (f : Func) (sq : Option Nat) (head : Nat) (e : List Byte) (stage : Stage) (res : Nat) : Cmd :=
  { id := s.nextCmd, fn := f, sq := sq,
    cq := match sq with
      | some i => fld (s.reg (Reg.F_SQ_CFG f.toNat i)) 16 2
      | none => 0,
    sqHead := head, entry := e, epoch := s.epoch.cur, gen := (s.getInst f.toNat).gen,
    stage := stage, reserved := res, elist := none, data := [], minHold := (s.getInst f.toNat).minHold,
    legalHold := (s.getInst f.toNat).legalHold, placed := [], waitSeq := 0, result := 0, since := s.tm.mono,
    aux := 0 }

def State.pushCmd (s : State) (c : Cmd) : State := { s with cmds := s.cmds ++ [c], nextCmd := s.nextCmd + 1, clk := { s.clk with idleSince := none } }

/-- A stored completion is returned again with DUPLICATE set; nothing executes (R161). -/
def State.returnDup (s : State) (c : Cmd) (status result : Nat) (rebuilt : Bool) : State :=
  { s.pushCmd { c with stage := .due } with
    due := s.due ++ [⟨c.id, c.fn, c.sq, c.cq, c.sqHead, eRid c.entry, status, true, rebuilt, result⟩] }

/-- A quota refusal begins at the first WRITE refused (R102). -/
def State.beginRefusal (s : State) (i : Nat) : State :=
  if (s.getInst i).refusing then s else s.modInst i (fun r => { r with refusing := true, shownUsed := r.used })

/-- An entry is accepted from a ring or the task port: check 1, then the examination; a passing command waits to start. A COMMIT_SEGMENT takes
its segment number, and its place in the queue, here (R151, R284). -/
def State.accept (s : State) (f : Func) (sq : Option Nat) (head : Nat) (e : List Byte) : State :=
  let i := f.toNat
  let r := s.getInst i
  let rid := eRid e
  let c := s.newCmd f sq head e .accepted 0
  match r.window.find? (fun w => w.rid = rid) with
  | some w =>
    (match w.done with
    | some (st, res, rb) => s.returnDup c st res rb
    | none => { s with nextCmd := s.nextCmd + 1, due := s.due ++ [⟨c.id, f, sq, c.cq, head, rid, stDupFlight, false, false, 0⟩] })
  | none =>
    match (if eOp e = some .commit then r.commits.find? (fun k => k.rid = rid) else none) with
    | some k => s.returnDup c stSuccess (k.seg + k.pos * 2 ^ 32) false
    | none =>
      let s := s.modInst i (fun r => r.addWindow rid c.id)
      match s.examine i e with
      | some (st, res) =>
        let s := if st = stQuota then s.beginRefusal i else s
        (s.pushCmd c).complete c st res false
      | none =>
        let n := if eOp e = some .write then s.wouldAdd i (eArg0 e) (eArg1 e) else 0
        if eOp e = some .commit then
          let s := (s.rateAdd 1 (eArg1 e * 4096)).ctrInc 1
          s.pushCmd { c with aux := s.ctr 1 + s.queueAhead * 2 ^ 32 }
        else (s.modInst i (fun r => { r with reserved := r.reserved + n })).pushCmd { c with reserved := n }

/-! ### Ordering (R141, R153, R158) -/

/-- Two runs share a block. -/
def overlaps (a n b m : Nat) : Bool := decide (a < b + m ∧ b < a + n)

/-- Whether an earlier command `a` of the same function holds back `c`; an INSTANCE_RESET joins one in progress (R124). -/
def holdsBack (a c : Cmd) : Bool :=
  if a.stage = .due || a.fn ≠ c.fn then false
  else
    let sameSq := decide (a.sq = c.sq)
    let fence := sameSq && (eFence c.entry || eFence a.entry)
    let clash := match eOp a.entry, eOp c.entry with
      | some x, some y =>
        (x.blocks && y.blocks && overlaps (eArg0 a.entry) (eArg1 a.entry) (eArg0 c.entry) (eArg1 c.entry)) ||
        (x.targets && y.targets && decide (eTarget a.entry = eTarget c.entry) &&
          !(x = .reset && y = .reset && decide (a.stage = .media)))
      | _, _ => false
    fence || clash

/-- The commands accepted before a command. -/
def earlier (id : Nat) : List Cmd → List Cmd
  | [] => []
  | c :: r => if c.id = id then [] else c :: earlier id r

/-- A target in reset holds back SET_POLICY, SET_QUOTA, SET_PERIOD and INSTANCE_REMOVE (Table 03-2). -/
def State.targetWaits (s : State) (c : Cmd) : Bool :=
  match eOp c.entry with
  | some .reset => false
  | some o => o.targets && decide ((s.getInst (eTarget c.entry)).state = .resetting)
  | none => false

def State.canStart (s : State) (c : Cmd) : Bool :=
  decide (c.stage = .accepted) && !(earlier c.id s.cmds).any (fun a => holdsBack a c) && !s.targetWaits c &&
    decide ((s.getInst c.fn.toNat).state = .active)

/-! ### DMA (R51 to R54) -/

/-- The function may issue memory requests (R51, R54, R59, R63, R70). -/
def State.canRequest (s : State) (f : Nat) : Bool :=
  s.serving && (s.getFn f).cfg.bme && !s.link.d3 && !s.ideHold && !(s.getFn f).flr && s.link.up &&
    (match (s.getInst f).state with
     | .active => true
     | _ => decide (f = 0))

/-- It may issue reads, which go on the non-posted sub-stream, and writes, which go on the posted one (R69). -/
def State.canRead (s : State) (f : Nat) : Bool := s.canRequest f && !s.txHold 1
def State.canWrite (s : State) (f : Nat) : Bool := s.canRequest f && !s.txHold 0

/-- Non-posted requests outstanding at most: 256, or 32 without 10-bit or extended tags (R51). -/
def State.readLimit (s : State) : Nat := if (s.getFn 0).cfg.tag10 || (s.getFn 0).cfg.extTag then 256 else 32

/-- The largest read request: Max Read Request Size of the PF, at most 4 KiB (R51). -/
def State.maxRead (s : State) : Nat := min 4096 (128 * 2 ^ (s.getFn 0).cfg.mrrs)

/-- The largest write payload: Max Payload Size of the PF, at most 512 (Table 02-1, R51). -/
def State.maxWrite (s : State) : Nat := min 512 (128 * 2 ^ (s.getFn 0).cfg.mps)

/-- A read request leaves, when the limit allows. -/
def State.issueRead (s : State) (f : Nat) (addr len : Nat) (kind : ReadKind) (ro : Bool) : State :=
  if s.readLimit ≤ s.reads.length then s
  else
    let r : DmaRead := ⟨s.nextTag, BitVec.ofNat 8 f, addr, len, kind⟩
    State.emit { s with reads := s.reads ++ [r], nextTag := s.nextTag + 1 }
      (.dmaRead (BitVec.ofNat 8 f) s.nextTag addr len (ro && (s.getFn 0).cfg.ro))

/-- The buffer of a command as (address, length) pieces. DESIGN CHOICE, log entry 13. -/
def Cmd.pieces (c : Cmd) : List (Nat × Nat) :=
  match c.elist with
  | some l => l
  | none => if ePtr c.entry = 1 then [(eAddr c.entry, eLen c.entry)] else []

/-- The address of byte `off` of a buffer and the bytes left in its piece. -/
def addrAt (off : Nat) : List (Nat × Nat) → Option (Nat × Nat)
  | [] => none
  | (a, n) :: r => if off < n then some (a + off, n - off) else addrAt (off - n) r

/-- The element list is still to be read, or input data is. -/
def Cmd.needsList (c : Cmd) : Bool := decide (ePtr c.entry = 2) && c.elist.isNone
def Cmd.needsData (c : Cmd) : Bool :=
  match eOp c.entry with
  | some o => decide (dataUse o c.entry = .input) && decide (c.data.length < eLen c.entry)
  | none => false

/-- Everything that a started command reads has arrived. -/
def Cmd.ready (c : Cmd) : Bool := decide (c.stage = .started) && !c.needsList && !c.needsData

/-- The next read that a started command needs, one at a time (DESIGN CHOICE, log entry 13). -/
def State.pumpCmd (s : State) (c : Cmd) : State :=
  if c.stage ≠ .started || !s.canRead c.fn.toNat ||
      s.reads.any (fun r => decide (r.kind = .elist c.id ∨ r.kind = .data c.id)) then s
  else if c.needsList then
    s.issueRead c.fn.toNat (eAddr c.entry + c.data.length) (min s.maxRead (eElems c.entry * 16 - c.data.length)) (.elist c.id) false
  else if c.needsData then
    match addrAt c.data.length c.pieces with
    | some (a, n) => s.issueRead c.fn.toNat a (min s.maxRead n) (.data c.id) true
    | none => s
  else s

/-- The limits that govern the acceptance of a command, which is tagged with the current epoch (R113): INS.T_LIMITS. -/
def State.limits (s : State) (f : Nat) : Nat := (Bank.get regReset s.nextSet (Reg.INS_T_LIMITS f)).toNat

/-- Commands in flight allowed to an instance (INS.T_LIMITS.max_inflight). -/
def State.maxInflight (s : State) (f : Nat) : Nat := fldN (s.limits f) 0 7

/-- A submission ring is enabled. -/
def State.sqOn (s : State) (f i : Nat) : Bool := bitN (s.reg (Reg.F_SQ_CFG f i)).toNat 0
def State.cqOn (s : State) (f j : Nat) : Bool := bitN (s.reg (Reg.F_CQ_CFG f j)).toNat 0
def State.sqSize (s : State) (f i : Nat) : Nat := 2 ^ fld (s.reg (Reg.F_SQ_CFG f i)) 8 4
def State.cqSize (s : State) (f j : Nat) : Nat := 2 ^ fld (s.reg (Reg.F_CQ_CFG f j)) 8 4
def State.sqCq (s : State) (f i : Nat) : Nat := fld (s.reg (Reg.F_SQ_CFG f i)) 16 2
def State.sqBase (s : State) (f i : Nat) : Nat := (s.reg (Reg.F_SQ_BASE_LO f i)).toNat + (s.reg (Reg.F_SQ_BASE_HI f i)).toNat * 2 ^ 32
def State.cqBase (s : State) (f j : Nat) : Nat := (s.reg (Reg.F_CQ_BASE_LO f j)).toNat + (s.reg (Reg.F_CQ_BASE_HI f j)).toNat * 2 ^ 32
def State.sq (s : State) (f i : Nat) : SqState := nth SqState.reset (s.getFn f).sq i
def State.cq (s : State) (f j : Nat) : CqState := nth CqState.reset (s.getFn f).cq j

/-- Entries wait in a submission ring, and no failed fetch waits for the next interval. -/
def State.waiting (s : State) (f i : Nat) : Bool := s.sqOn f i && decide ((s.sq f i).head ≠ (s.sq f i).tail) && !(s.sq f i).hold

/-- The ring whose turn it is: the current one for at most 8 entries, then the next with entries, round-robin (R155). -/
def State.turn (s : State) (f : Nat) : Option Nat :=
  let n := s.getFn f
  if s.waiting f n.turnSq && decide (n.turnCnt < 8) then some n.turnSq
  else ([1, 2, 3, 4].map (fun k => (n.turnSq + k) % 4)).find? (fun i => s.waiting f i)

/-- The read is a fetch of an entry. -/
def DmaRead.isEntry (r : DmaRead) : Bool :=
  match r.kind with
  | .entry _ => true
  | _ => false

/-- Entries of a function that are being fetched, and of every function: each will take a place in flight. -/
def State.fetchingEntries (s : State) (f : Nat) : Nat := (s.reads.filter (fun r => r.isEntry && decide (r.fn.toNat = f))).length
def State.allFetchingEntries (s : State) : Nat := (s.reads.filter DmaRead.isEntry).length

/-- The instance may take another command, those whose entries are being fetched counted (R154, R168). -/
def State.roomFor (s : State) (f : Nat) : Bool :=
  decide (s.inflight f + s.fetchingEntries f < s.maxInflight f) && decide (s.cmds.length + s.allFetchingEntries < 2048) &&
    decide ((s.getInst f).state = .active)

/-- A function has an entry waiting that the limits of R154 allow it to take. -/
def State.wantsEntry (s : State) (f : Nat) : Bool :=
  s.canRead f && (s.turn f).isSome && decide (s.inflight f < s.maxInflight f ∧ s.cmds.length < 2048 ∧ (s.getInst f).state = .active)

/-- The fetch of the next entry of a function is issued; the round-robin across instances goes on after it (R155). -/
def State.pumpEntry (s : State) (f : Nat) : State :=
  if !s.canRead f || !s.roomFor f || decide (0 < s.fetchingEntries f) || decide (s.readLimit ≤ s.reads.length) then s
  else
    match s.turn f with
    | some i => State.issueRead { s with lastFn := f } f (s.sqBase f i + (s.sq f i).head * 64) 64 (.entry i) false
    | none => s

/-- The functions with a record, from the one after the function served last (R155). -/
def State.fnOrder (s : State) : List Nat :=
  let l := s.fn.map (fun e => e.1)
  l.filter (fun f => decide (s.lastFn < f)) ++ l.filter (fun f => decide (f ≤ s.lastFn))

/-- The functions whose entries are fetched next: those with fewer than 4 commands in flight, and the others only while none of those has
an entry waiting (R155). -/
def State.entryTurn (s : State) : List Nat :=
  let l := s.fnOrder.filter (fun f => s.wantsEntry f)
  let low := l.filter (fun f => decide (s.inflight f < 4))
  if low.isEmpty then l else low

/-- The next request of a leaf line's fetch is issued: the line, then its MAC (R187, R188); after a disable of the region only a fetch
under way goes on (R221). A promotion reads past the cache, so a newer content that stands dirty there is written back first (R251, R256).
DESIGN CHOICE, log entry 24. -/
def State.pumpLeaf (s : State) (l : LeafFetch) : State :=
  if l.failed || l.passed || !s.canRead 0 || (!s.fss.hregEn && l.text.isEmpty) ||
      s.reads.any (fun r => decide (r.kind = .leaf l.line ∨ r.kind = .leafMac l.line)) then s
  else if l.text.isEmpty then
    if l.promo.isSome && s.mchEn && s.lineDirty (l.line * 64) then
      (if s.pfMayWrite then (s.cleanLine (l.line * 64)).issueRead 0 (s.hregBase + l.line * 64) 64 (.leaf l.line) false else s)
    else s.issueRead 0 (s.hregBase + l.line * 64) 64 (.leaf l.line) false
  else s.issueRead 0 (s.hregBase + s.hregQ + l.line * 8) 8 (.leafMac l.line) false

/-- The doorbell page's address. -/
def State.dbPage (s : State) (f : Nat) : Nat :=
  (s.reg (Reg.F_RNG_DB_LO f)).toNat + (s.reg (Reg.F_RNG_DB_HI f)).toNat * 2 ^ 32

/-- A device word that waits is written once its function may issue requests (R51, R131, R132). -/
def State.pumpWord (s : State) (f : Nat) : State :=
  let d := (s.getFn f).db
  if d.wordDue && s.canWrite f then
    (s.modFn f (fun n => { n with db := { n.db with wordDue := false } })).emit
      (.dmaWrite (BitVec.ofNat 8 f) (s.dbPage f + 0x40) false (leBytes 4 (b2n d.asleep + d.sleepCount * 65536)))
  else s

/-- The function polls its doorbell page. -/
def State.awake (s : State) (f : Nat) : Bool := bitN (s.reg (Reg.F_RNG_CTL f)).toNat 0 && !(s.getFn f).db.asleep

/-- The latency tolerance that LTR reports: the smallest polling interval among the awake functions, at most 1 ms (R64, R134). -/
def State.latency (s : State) : Nat :=
  ((s.fn.map (fun e => e.1)).filter (fun f => s.awake f)).foldl (fun a f => min a (s.getFn f).db.interval) 1000

/-- A change of the latency tolerance is reported while LTR is enabled (R64). DESIGN CHOICE, log entry 72. -/
def State.reportLatency (s : State) : State :=
  if s.link.ltrEn && s.link.up && !s.link.d3 && decide (s.latency ≠ s.link.ltr) then
    State.emit { s with link := { s.link with ltr := s.latency } } (.ltr s.latency)
  else s

/-- Every device word and read that can be issued is issued, and the latency reported. DESIGN CHOICE, log entry 13. -/
def State.pump (s : State) : State :=
  (forEach s.fetches (fun l t => t.pumpLeaf l)
    (forEach s.entryTurn (fun f t => t.pumpEntry f)
      (forEach s.cmds (fun c t => t.pumpCmd c) (forEach s.fnOrder (fun f t => t.pumpWord f) s)))).reportLatency

/-- A run of bytes is cut into pieces of at most `n`. -/
def chunks (n : Nat) (fuel : Nat) (l : List Byte) : List (List Byte) :=
  match fuel with
  | 0 => []
  | k + 1 => if l.isEmpty then [] else l.take n :: chunks n k (l.drop n)

/-- A run of bytes is written to consecutive addresses in payloads of at most Max Payload Size. -/
def State.writeRun (s : State) (f addr : Nat) (ro : Bool) (l : List Byte) : State :=
  let m := s.maxWrite
  ((chunks m (l.length + 1) l).foldl (fun (a : Nat × State) ch =>
    (a.1 + ch.length, a.2.emit (.dmaWrite (BitVec.ofNat 8 f) a.1 ro ch))) (addr, s)).2

/-- Output data is written into the buffer of a command, piece by piece (R52). -/
def State.writeOut (s : State) (c : Cmd) (l : List Byte) : State :=
  (c.pieces.foldl (fun (a : List Byte × State) p =>
    (a.1.drop p.2, a.2.writeRun c.fn.toNat p.1 (s.getFn 0).cfg.ro (a.1.take p.2))) (l, s)).2

/-- The elements of a list as read, or the failing element and the offset of its bad field (R140). -/
def parseList (k : Nat) : List Byte → Except (Nat × Nat) (List (Nat × Nat))
  | b =>
    match k with
    | 0 => .ok []
    | n + 1 =>
      let bad := (if leAt b 0 8 % 4 ≠ 0 then some 0 else if leAt b 8 4 = 0 ∨ leAt b 8 4 % 4 ≠ 0 then some 8
        else if leAt b 12 4 ≠ 0 then some 12 else none)
      match bad with
      | some o => .error (n, o)
      | none =>
        match parseList n (b.drop 16) with
        | .ok r => .ok ((leAt b 0 8, leAt b 8 4) :: r)
        | .error x => .error x

/-- Data arrives for a command: list bytes until the list is whole, then input data (R140, R148). -/
def State.cmdData (s : State) (c : Cmd) (l : List Byte) : State :=
  if c.needsList then
    let d := c.data ++ l
    let n := eElems c.entry
    if d.length < n * 16 then s.setCmd { c with data := d }
    else
      match parseList n d with
      | .error (k, o) => s.complete c stField (fieldResult o (n - 1 - k)) false
      | .ok r =>
        if r.foldl (fun a e => a + e.2) 0 = eLen c.entry then s.setCmd { c with elist := some r, data := [] }
        else s.complete c stField (fieldResult 32 noElem) false
  else s.setCmd { c with data := c.data ++ l }

/-! ### Commands of the table -/

/-- COMMAND_START (R158): a command that nothing holds back starts, and the reads it needs are issued. -/
def execCommandStart (id : Nat) (s : State) : Host.Outcome State Fault Refusal :=
  .next (whenServing s (fun s =>
    match s.findCmd id with
    | some c => if s.canStart c then (s.setCmd { c with stage := .started }).pump else s
    | none => s))

/-- A started command of opcode `op` with everything read, for the meanings below. DESIGN CHOICE, log entry 3. -/
def withCmd (id : Nat) (op : Op) (s : State) (g : Cmd → State → State) : State :=
  whenServing s (fun s =>
    match s.findCmd id with
    | some c => if c.ready && decide (eOp c.entry = some op) then s.underEpoch c (g c) else s
    | none => s)

end Sys2Proof.Machine
end

