-- ==== Sys2Proof/Machine/CfgSpace.lean ====
section
/-!
DEFINITION. Configuration space as reads return it (spec/02, R41 to R49, R63 to R68): identification, BARs, the capabilities of Table 02-3
with their links, and the bits that a write stores without another effect. The places of fields inside a standard capability, and the
masks of stored bits, are those of the PCI Express Base Specification 5.0, to which the spec defers. PRESUMED, log entry 66.
-/

namespace Sys2Proof.Machine

/-- The header of an extended capability: identifier, version, next. -/
def extCap (id ver next : Nat) : Nat := id + ver * 2 ^ 16 + next * 2 ^ 20

/-- The bits of a register of configuration space that a write stores and that have no other effect. PRESUMED, log entry 66. -/
def storedMask (f off : Nat) : Nat :=
  if f ≠ 0 then 0
  else
    match off with
    | 0x04 => 0x0540
    | 0x0C => 0xFF
    | 0x10 => 0xFFFF8000
    | 0x14 => 0xFFFFFFFF
    | 0x18 => 0xFFC00000
    | 0x1C => 0xFFFFFFFF
    | 0x3C => 0xFF
    | 0x78 => 0xF
    | 0x80 => 0x3C8
    | 0xA0 => 0xFFF0
    | 0x108 => 0x5FF030
    | 0x10C => 0x5FF030
    | 0x114 => 0x71C1
    | 0x174 => 0xFFFF8000
    | 0x178 => 0xFFFFFFFF
    | 0x194 => 0x3
    | 0x1E8 => 0xFF7F
    | 0x1EC => 0xFF7F
    | 0x1F0 => 0xFF7F
    | 0x1F4 => 0xFF7F
    | 0x22C => 0xFF000000
    | 0x288 => 0xE3FFFF00
    | 0x28C => 0xFB
    | 0x2A4 => 0x1FFF1FFF
    | _ => 0

/-- What the stored bits of a register hold at reset: the AER severity and correctable mask. PRESUMED, log entry 66. -/
def cfgDef (k : Nat) : Word :=
  match k with
  | 0x10C => 0x462030
  | 0x114 => 0x2000
  | _ => 0

/-- The stored bits of a register. -/
def State.stored (s : State) (f off : Nat) : Nat := (Bank.get cfgDef s.link.misc (f * 4096 + off)).toNat

/-- A write stores them. -/
def State.storeCfg (s : State) (f off v : Nat) : State :=
  let w := BitVec.ofNat 32 (v &&& storedMask f off)
  { s with link := { s.link with misc := Bank.set cfgDef s.link.misc (f * 4096 + off) w } }

/-- First VF Offset: with ARI as it stood when VF Enable was last set, while it is set (R49, Table 02-4). -/
def LinkState.vfOffset (l : LinkState) : Nat := if (if l.vfEnable then l.ariInForce else l.ari) then 1 else 256

/-- MSI-X Message Control of a function, 16 vectors. -/
def FnCfg.msixControl (c : FnCfg) : Nat := 15 + 0x4000 * b2n c.fmask + 0x8000 * b2n c.msixEn

/-- Device Capabilities: 512 bytes of payload, extended tags, role-based error reporting, function-level reset (Table 02-1). -/
def deviceCap : Nat := 2 + 2 ^ 5 + 2 ^ 15 + 2 ^ 28

/-- Device Capabilities 2: timeout ranges A and B with their disable, LTR, 10-bit tags as completer and requester (Table 02-1). -/
def deviceCap2 : Nat := 3 + 2 ^ 4 + 2 ^ 11 + 2 ^ 16 + 2 ^ 17

/-- Link Capabilities: 16.0 GT/s, x4, ASPM L1 and no L0s, CLKREQ_N; Link Capabilities 2: the four rates (Table 02-1). -/
def linkCap : Nat := 4 + 4 * 2 ^ 4 + 2 * 2 ^ 10 + 2 ^ 18 + 2 ^ 22
def linkCap2 : Nat := 0x1E

/-- Device Control and Status: the status shows an advisory error and requests outstanding. -/
def State.deviceControl (s : State) (f : Nat) : Nat :=
  let c := (s.getFn f).cfg
  s.stored f 0x78 + b2n c.ro * 2 ^ 4 + c.mps * 2 ^ 5 + b2n c.extTag * 2 ^ 8 + c.mrrs * 2 ^ 12 + b2n (decide (c.aerCor ≠ 0)) * 2 ^ 16 +
    b2n (match s.hlt.halt with
      | some h => h.waits
      | none => s.reads.any (fun r => r.fn.toNat = f)) * 2 ^ 21

/-- Device Control 2: Completion Timeout Value and Disable, LTR Mechanism Enable of the PF, 10-bit tags. -/
def State.deviceControl2 (s : State) (f : Nat) : Nat :=
  let c := (s.getFn f).cfg
  c.cto + b2n c.ctoDis * 2 ^ 4 + (if f = 0 then b2n s.link.ltrEn * 2 ^ 10 else 0) + b2n c.tag10 * 2 ^ 12

/-- Registers that the PF and every VF show alike: AER, ARI, PCI Express and MSI-X capabilities, class and subsystem. -/
def State.cfgShared (s : State) (f off : Nat) : Nat :=
  let c := (s.getFn f).cfg
  match off with
  | 0x08 => (if Config.steppingB0 then 0x10 else 0x01) + 256 * 0x018000
  | 0x2C => Config.vendorId.toNat + 65536 * s.link.subsystemId
  | 0x50 => 0x11 + 0x70 * 2 ^ 8 + c.msixControl * 2 ^ 16
  | 0x54 => 0x4000
  | 0x58 => 0x6000
  | 0x70 => 0x10 + 2 * 2 ^ 16
  | 0x74 => deviceCap
  | 0x78 => s.deviceControl f
  | 0x94 => deviceCap2
  | 0x98 => s.deviceControl2 f
  | 0x100 => extCap 0x0001 2 0x148
  | 0x104 => c.aerUnc
  | 0x110 => c.aerCor
  | 0x148 => extCap 0x000E 1 (if f = 0 then 0x150 else 0)
  | o => s.stored f o

/-- The link IDE stream's state, in the halt as it was at step 1 (Table 15-7): 2 Secure, 0 Insecure. -/
def State.streamState (s : State) : Nat :=
  2 * b2n (match s.hlt.halt with
    | some h => h.stream
    | none => s.sec.secure)

/-- A register of the PF alone, or one that shows the PF's own bits. -/
def State.cfgPf (s : State) (off : Nat) : Nat :=
  let c := (s.getFn 0).cfg
  let l := s.link
  match off with
  | 0x00 => Config.vendorId.toNat + 65536 * 0xA416
  | 0x04 => s.stored 0 0x04 + 2 * b2n c.mse + 4 * b2n c.bme + 2 ^ 20
  | 0x0C => s.stored 0 0x0C + 65536 * 0x80
  | 0x10 => s.stored 0 0x10 + 4
  | 0x18 => s.stored 0 0x18 + 4
  | 0x34 => 0x40
  | 0x40 => 0x01 + 0x50 * 2 ^ 8 + 3 * 2 ^ 16
  | 0x44 => 3 * b2n l.d3 + 2 ^ 3
  | 0x7C => linkCap
  | 0x80 => s.stored 0 0x80 + 2 * b2n l.aspmL1 + (if l.up then (l.rate + 1) * 2 ^ 16 + l.width * 2 ^ 20 else 0) + 2 ^ 28
  | 0x9C => linkCap2
  | 0xA0 => s.stored 0 0xA0 + l.targetRate
  | 0x150 => extCap 0x0010 1 0x190
  | 0x158 => b2n l.vfEnable + 8 * b2n l.vfMse + 16 * b2n l.ari
  | 0x15C => 255 + 255 * 2 ^ 16
  | 0x160 => l.numVfs
  | 0x164 => l.vfOffset + 2 ^ 16
  | 0x168 => 0xA417 * 2 ^ 16
  | 0x16C => 0xF
  | 0x170 => l.pageSize
  | 0x174 => s.stored 0 0x174 + 4
  | 0x190 => extCap 0x0019 1 0x1B0
  | 0x1B0 => extCap 0x0026 1 0x1E0
  | 0x1E0 => extCap 0x0027 1 0x200
  | 0x200 => extCap 0x002E 1 0x220
  | 0x204 => 1
  | 0x208 => 2 * b2n s.sec.doeIen
  | 0x20C => b2n s.sec.doeBusy + 4 * b2n s.sec.doeError
  | 0x220 => extCap 0x0030 1 0x280
  | 0x224 => 1 + 2 ^ 5 + 2 ^ 6
  | 0x22C => s.stored 0 0x22C + b2n s.sec.streamEn + 2 ^ 8 * b2n s.sec.pcrc
  | 0x230 => s.streamState
  | 0x280 => extCap 0x001E 1 0x2A0
  | 0x284 => 0x1F
  | 0x288 => s.stored 0 0x288 + l.l1ss
  | 0x2A0 => extCap 0x0018 1 0x400
  | o => s.cfgShared 0 o

/-- A register of a VF (Table 02-2). -/
def State.cfgVf (s : State) (f off : Nat) : Nat :=
  match off with
  | 0x00 => 0xFFFFFFFF
  | 0x04 => 4 * b2n (s.getFn f).cfg.bme + 2 ^ 20
  | 0x34 => 0x50
  | o => s.cfgShared f o

/-- A halt before the first ready state presents the reset values of configuration space (Table 15-7). -/
def State.cfgHeld (s : State) : State :=
  if s.boot.ready then s
  else { s with link := { LinkState.reset with up := s.link.up, rate := s.link.rate, width := s.link.width }, fn := [], sec := SecState.reset }

/-- A word of configuration space, the HST capability apart: an offset that no capability lists reads zero (R43). -/
def State.cfgWord (s : State) (f off : Nat) : Word :=
  let s := s.cfgHeld
  BitVec.ofNat 32 (if f = 0 then s.cfgPf off else s.cfgVf f off)

end Sys2Proof.Machine
end

