-- ==== Sys2Proof/Machine/Halt.lean ====
section
/-!
DEFINITION. The integrity halt (spec/15, R487 to R493): failures at one instant, the halt record, and the halted-state responder; the
configuration-space reads that the responder answers.
-/

namespace Sys2Proof.Machine

/-- Of failures detected at one instant, the one with the lowest code is recorded (R77). -/
def lowestCause (c : HaltCause) : List HaltCause → HaltCause
  | [] => c
  | d :: r => lowestCause (if causeCode d < causeCode c then d else c) r

/-! ### The halt record (R492, Table 15-8) -/

/-- Record `k` of the ring, its 48 bytes; whether its CRC-32 matches; its halt sequence. -/
def State.haltRec (s : State) (k : Nat) : List Byte := s.nvmBytes (haltRingAddr + 48 * k) 48
def recValid (b : List Byte) : Bool := decide (crc32 (slice b 0 44) = leAt b 44 4)
def recSeq (b : List Byte) : Nat := leAt b 4 4

/-- A number put into a list that falls by `key`. -/
def insertDown (key : Nat → Nat) (a : Nat) : List Nat → List Nat
  | [] => [a]
  | b :: r => if key b ≤ key a then a :: b :: r else b :: insertDown key a r

/-- A list sorted to fall by `key`. -/
def sortDown (key : Nat → Nat) : List Nat → List Nat
  | [] => []
  | a :: r => insertDown key a (sortDown key r)

/-- The places of the valid records, the newest first. -/
def State.haltOrder (s : State) : List Nat :=
  sortDown (fun k => recSeq (s.haltRec k)) ((List.range 16).filter (fun k => recValid (s.haltRec k)))

/-- HST.PREV_HALT: the cause of the newest valid record, and the halts recorded (Table 02-11). DEDUCED, log entry 35. -/
def State.prevHalt (s : State) : Nat × Nat :=
  match s.haltOrder with
  | k :: _ => (leAt (s.haltRec k) 1 1, satU 16 (recSeq (s.haltRec k)))
  | [] => (0, 0)

/-- The halt record is written after the newest valid one; its sequence is one above. -/
def State.recordHalt (s : State) : State :=
  match s.hlt.halt with
  | some h =>
    if h.nvmOk then s
    else
      let (k, q) : Nat × Nat := (match s.haltOrder with
        | k :: _ => ((k + 1) % 16, recSeq (s.haltRec k) + 1)
        | [] => (0, 1))
      let s := s.nvmWrite (haltRingAddr + 48 * k) (haltImage h q)
      { s with hlt := { s.hlt with halt := some { h with nvmOk := true, place := k, hseq := q } } }
  | none => s

/-- INTEGRITY_HALT (R77, R487): failed checks detected at one instant reach the halt controller; the halt takes the lowest code, and in a
halt that has begun each of them is counted. -/
def execIntegrityHalt (c : HaltCause) (more : List HaltCause) (s : State) : Host.Outcome State Fault Refusal :=
  .next (if s.hlt.porHeld then s
    else if s.hlt.halt.isSome then s.countFurther (1 + more.length)
    else s.haltBy (lowestCause c more))

/-- HALT_RECORD_WRITTEN (R492): the record goes after the newest valid one, and nvm_ok is set. -/
def execHaltRecordWritten (s : State) : Host.Outcome State Fault Refusal := .next s.recordHalt

/-! ### Configuration space reads and the responder (Table 15-7) -/

/-- A word of the HST capability by its offset in the capability (Tables 02-8 to 02-14). -/
def State.hstRead (s : State) (off : Nat) : Word :=
  let h := s.hlt.halt
  let w (n : Nat) : Word := BitVec.ofNat 32 n
  let fldOf (g : HaltInfo → Nat) : Nat := (match h with
    | some x => g x
    | none => 0)
  match off with
  | 0x00 => w (0x000B + 2 ^ 16)
  | 0x04 => w (0x4A16 + 2 ^ 16 + 2 ^ 20 * 0x040)
  | 0x08 => w (fldOf (fun x => 1 + 2 * b2n x.nvmOk + 256 * x.cause + (match x.inst with
      | some i => 65536 * i.toNat + 2 ^ 24
      | none => 0)))
  | 0x0C => w (fldOf (fun x => x.micros))
  | 0x10 => w (fldOf (fun x => x.micros) / 2 ^ 32)
  | 0x14 => w (fldOf (fun x => x.detail))
  | 0x18 => w (fldOf (fun x => x.detail) / 2 ^ 32)
  | 0x1C => w (s.prevHalt.1 + 65536 * s.prevHalt.2)
  | 0x20 => w ((s.reg Reg.HST_IDE_CTL).toNat % 2 + 2 * b2n s.ideHold)
  | 0x24 => w (s.link.linkDown + 65536 * s.link.cplTimeout)
  | 0x28 => w (s.link.poisoned + 65536 * s.link.urCa)
  | _ => 0

/-- A word of configuration space: the HST capability live, every other register as the function holds it. -/
def State.cfgRead (s : State) (f off : Nat) : Word :=
  if f = 0 ∧ 0x400 ≤ off ∧ off < 0x440 then s.hstRead (off - 0x400) else s.cfgWord f off

/-- HALTED_STATE_REQUEST (R490): the responder's answer in the halt; otherwise nothing. -/
def execHaltedStateRequest (r : HaltReq) (s : State) : Host.Outcome State Fault Refusal :=
  .next (if s.running then s
    else
      match r with
      | .memRead f n => s.emit (.cplValue f (2 ^ (8 * n) - 1))
      | .memWrite _ => s
      | .cfgRead f off => s.emit (.cplValue f (if f = 0 then (s.cfgRead 0 (off / 4 * 4)).toNat else 2 ^ 32 - 1))
      | .cfgWrite f _ => s.emit (.cplValue f 0)
      | .message => s
      | .nonPosted => s.emit (.cplUr 0))

end Sys2Proof.Machine
end

