-- ==== Sys2Proof/Machine/LinkSec.lean ====
section
/-!
DEFINITION. SPDM, IDE_KM and the link stream (spec/02, R65 to R72, R75), and the clearing of the link counters.
-/

namespace Sys2Proof.Machine

/-- PF configuration space takes requests: the block serves, the link is up, no function-level reset of the PF runs (R44, R60). -/
def State.cfgOpen (s : State) (f : Nat) : Bool := s.serving && s.link.up && s.fnExists f && !(s.getFn f).flr

/-! ### SPDM (R65, R66) -/

/-- The DOE mailbox has an answer: PF vector 0 when its interrupt is enabled (R55). -/
def State.doeAnswer (s : State) (e : Emit) : State :=
  let s := s.emit e
  if s.sec.doeIen then s.raise 0 0 else s

/-- The number of a request of the subset. -/
def spdmNumber : SpdmReq → Nat
  | .getVersion => 1
  | .getCapabilities _ => 2
  | .negotiateAlgorithms => 3
  | .getDigests => 4
  | .getCertificate _ => 5
  | .challenge _ => 6
  | .getMeasurements _ => 7
  | .keyExchange => 8
  | .finish _ _ => 9
  | .keyUpdate _ => 10
  | .endSession _ => 11
  | .ideKmPlain => 12
  | .discovery _ => 13
  | .outside _ => 14

/-- The lowest session number that is free; two sessions at most (Table 02-6). PRESUMED, log entry 36. -/
def State.freeSession (s : State) : Option Nat := [0, 1].find? (fun n => !s.sec.sessions.any (fun e => e.1 = n))

/-- A session is established. -/
def State.established (s : State) (n : Nat) : Bool := s.sec.sessions.any (fun e => decide (e.1 = n) && e.2)

/-- The measurement blocks of Table 02-6. -/
def State.measure (s : State) (k : Nat) : Option Nat :=
  let copy := 0x10000 * s.nvs.copy
  match k with
  | 1 => some Config.bootRomDigest
  | 2 => some (Config.sha384 (if s.boot.slot = 0 then s.fw.imageA else s.fw.imageB))
  | 3 => some (Config.sha384 (s.nvmBytes (copy + 32) 48))
  | 4 => some (Config.deviceDigest + 2 ^ 128 * (if Config.steppingB0 then 0x10 else 0x01))
  | _ => none

/-- The versions of Table 02-6, as their two digits. -/
def spdmVersions : List Nat := [0x11, 0x12]

/-- The capability flags of Table 02-6: CERT, CHAL, MEAS with signature, ENCRYPT, MAC, KEY_EX, KEY_UPD; none of the absent ones. The places
of the flags and of the algorithms are those of the SPDM specification. PRESUMED, log entry 36. -/
def spdmFlags : Nat := 2 ^ 1 + 2 ^ 2 + 2 ^ 4 + 2 ^ 6 + 2 ^ 7 + 2 ^ 9 + 2 ^ 14

/-- The algorithms of Table 02-6: ECDSA over P-384, SHA-384, ECDHE over secp384r1, AES-256-GCM. PRESUMED, log entry 36. -/
def spdmAlgs : Emit := .spdmAlgorithms (2 ^ 7) (2 ^ 1) (2 ^ 4) (2 ^ 1)

/-- The answer of DOE Discovery to an index: the three object types of R65 in turn, 0 after the last; 0xFF beyond them.
PRESUMED, log entry 36. -/
def discovery (k : Nat) : Emit := if k < 3 then .doeDiscovery k ((k + 1) % 3) else .doeDiscovery 0xFF 0

/-- What the responder does with a request. An empty certificate slot, a measurement index beyond Table 02-6 and a version outside it get
an SPDM error. PRESUMED, log entry 36. -/
def State.spdm (s : State) (secured : Bool) (req : SpdmReq) : State :=
  let ok (s : State) : State := s.doeAnswer (.spdm (Config.spdmResponse (spdmNumber req)))
  let bad (s : State) : State := s.doeAnswer .spdmError
  let drop (n : Nat) (s : State) : State := { s with sec := { s.sec with sessions := s.sec.sessions.filter (fun e => e.1 ≠ n) } }
  match req with
  | .getVersion => s.doeAnswer (.spdmVersions spdmVersions)
  | .getCapabilities v =>
    if spdmVersions.contains v then ({ s with sec := { s.sec with version := v } }).doeAnswer (.spdmCapabilities v spdmFlags) else bad s
  | .negotiateAlgorithms => s.doeAnswer spdmAlgs
  | .getDigests => ok s
  | .discovery k => s.doeAnswer (discovery k)
  | .getCertificate k => if k.val = 0 then ok s else bad s
  | .challenge k => if k.val = 0 then ok s else bad s
  | .getMeasurements k => (match s.measure k with
    | some v => s.doeAnswer (.measurement k v)
    | none => bad s)
  | .keyExchange => (match s.freeSession with
    | some n => ok { s with sec := { s.sec with sessions := s.sec.sessions ++ [(n, false)] } }
    | none => bad s)
  | .finish n good =>
    if good && s.sec.sessions.any (fun e => decide (e.1 = n) && !e.2) then
      ok { s with sec := { s.sec with sessions := s.sec.sessions.map (fun e => if e.1 = n then (n, true) else e) } }
    else bad (drop n s)
  | .keyUpdate n => if secured && s.established n then ok s else bad s
  | .endSession n => if secured && s.established n then drop n (ok s) else bad s
  | .ideKmPlain => if secured then s.doeAnswer .spdmUnsupported else s.note .ideKmPlain 0
  | .outside _ => s.doeAnswer .spdmUnsupported

/-- SPDM_REQUEST (R65, R66): an object above 4 KiB is discarded and sets the error bit; that raises no interrupt, and later objects are
still taken. DESIGN CHOICE, log entry 36. -/
def execSpdmRequest (secured : Bool) (size : Nat) (req : SpdmReq) (s : State) : Host.Outcome State Fault Refusal :=
  .next (if s.cfgOpen 0 then
      (if 4096 < size then { s.wakeUp with sec := { s.sec with doeError := true } } else s.wakeUp.spdm secured req)
    else s)

/-- DOE_ABORT (R65): the exchange in progress ends and the error bit clears. DEDUCED, log entry 63. -/
def execDoeAbort (s : State) : Host.Outcome State Fault Refusal :=
  .next (if s.cfgOpen 0 then { s.wakeUp with sec := { s.sec with doeBusy := false, doeError := false } } else s)

/-! ### IDE_KM (R67, R69) -/

/-- A direction of a sub-stream: 0 to 2 receive, 3 to 5 transmit. -/
def dirIndex (sub : SubStream) (tx : Bool) : Nat := subCode sub + 3 * b2n tx

def IdeDir.key (d : IdeDir) (k : Nat) : Option Nat := if k = 0 then d.key0 else d.key1
def IdeDir.live (d : IdeDir) (k : Nat) : Bool := if k = 0 then d.live0 else d.live1
def IdeDir.setKey (d : IdeDir) (k : Nat) (v : Option Nat) : IdeDir := if k = 0 then { d with key0 := v } else { d with key1 := v }
def IdeDir.setLive (d : IdeDir) (k : Nat) (v : Bool) : IdeDir := if k = 0 then { d with live0 := v } else { d with live1 := v }

def State.dir (s : State) (n : Nat) : IdeDir := nth IdeDir.reset s.sec.dirs n
def State.modDir (s : State) (n : Nat) (g : IdeDir → IdeDir) : State := { s with sec := { s.sec with dirs := modNth g s.sec.dirs n } }

/-- Set `k` of a direction has reached the limit of its counter since it was programmed. -/
def IdeDir.spent (d : IdeDir) (k : Nat) : Bool := if k = 0 then d.spent0 else d.spent1
def IdeDir.setSpent (d : IdeDir) (k : Nat) (v : Bool) : IdeDir := if k = 0 then { d with spent0 := v } else { d with spent1 := v }

/-- Every function's held interrupts and work are looked at again, and held completions leave, once a holding condition of R54, R56, R69 or
R70 has ended. -/
def State.resume (s : State) : State :=
  (forEach (s.fn.map (fun (e : Nat × Fn) => e.1)) (fun f t => t.releasePending f) s.flushCpl).finishWays.pump

/-- The stream is Secure once it is enabled and every sub-stream has a started key set in both directions; held work and interrupts then
go on (R56, R70, R75, DEDUCED, log entry 22). -/
def State.settleStream (s : State) : State :=
  if s.sec.streamEn && s.sec.dirs.all (fun d => d.live d.cur) && !s.sec.secure then
    let s := { s with sec := { s.sec with secure := true } }
    s.resume
  else s

/-- An IDE_KM message is taken only inside an established session; outside one it is dropped without answer or log entry.
DESIGN CHOICE, log entry 36. -/
def ideKm (session : Nat) (s : State) (g : State → State) : State :=
  if s.cfgOpen 0 && s.established session then g s else s

/-- QUERY (R67). -/
def execQuery (session : Nat) (s : State) : Host.Outcome State Fault Refusal :=
  .next (ideKm session s (fun s => s.doeAnswer (.ideKm 1 0)))

/-- KEY_PROG (R67): a key set of a sub-stream and direction is programmed. -/
def execKeyProg (session : Nat) (sub : SubStream) (tx : Bool) (set : Fin 2) (key : Nat) (s : State) : Host.Outcome State Fault Refusal :=
  .next (ideKm session s (fun s => (s.modDir (dirIndex sub tx) (fun d => (d.setKey set.val (some key)).setSpent set.val false)).doeAnswer (.ideKm 3 0)))

/-- K_SET_GO (R69, R75): the named set comes into use, and a fresh one lifts the hold of its sub-stream; for a set not programmed, only the
status answers. DEDUCED, log entry 22. -/
def execKSetGo (session : Nat) (sub : SubStream) (tx : Bool) (set : Fin 2) (s : State) : Host.Outcome State Fault Refusal :=
  .next (ideKm session s (fun s =>
    let n := dirIndex sub tx
    if ((s.dir n).key set.val).isSome then
      let s := s.modDir n (fun d =>
        let d := d.setLive set.val true
        let d := if tx then d.setLive (1 - set.val) false else d
        { d with cur := set.val, held := tx && d.spent set.val })
      ((s.doeAnswer (.ideKm 6 0)).settleStream).resume
    else s.doeAnswer (.ideKm 6 Config.ideKmUnprogrammed)))

/-- K_SET_STOP (R69): the named receive set is retired. DEDUCED, log entry 22. -/
def execKSetStop (session : Nat) (sub : SubStream) (set : Fin 2) (s : State) : Host.Outcome State Fault Refusal :=
  .next (ideKm session s (fun s =>
    (s.modDir (dirIndex sub false) (fun d => (d.setLive set.val false).setKey set.val none)).doeAnswer (.ideKm 6 0)))

/-- The failure of R71 that a received TLP shows, if any. -/
def State.tlpFailure (s : State) (sub : SubStream) (k : Fin 2) (chk : TlpCheck) : Option HaltCause :=
  match chk with
  | .noPrefix => some (.ideSequence sub k 2)
  | .badKeySet => some (.ideSequence sub k 3)
  | .badCounter => some (.ideSequence sub k 1)
  | .macFail => some (.ideMac sub k)
  | .pcrcFail => if s.sec.pcrc then some (.idePcrc sub k) else none
  | .good => if ((s.dir (dirIndex sub false)).key k.val).isSome then none else some (.ideSequence sub k 3)

/-- IDE_TLP_RECEIVED (R71, R74): while the stream is Secure, a failure raises the halt. -/
def execIdeTlpReceived (sub : SubStream) (k : Fin 2) (chk : TlpCheck) (s : State) : Host.Outcome State Fault Refusal :=
  .next (if s.running && s.sec.secure then
      (match s.tlpFailure sub k chk with
      | some c => s.haltBy c
      | none => s)
    else s)

/-- IDE_TX_COUNTER_LIMIT (R69): transmission on the sub-stream is held. -/
def execIdeTxCounterLimit (sub : SubStream) (s : State) : Host.Outcome State Fault Refusal :=
  .next (whenServing s (fun s =>
    if s.sec.secure then (s.modDir (dirIndex sub true) (fun d => { d.setSpent d.cur true with held := true })).note .ideTxHeld (subCode sub) else s))

/-- HST_CNT_CLR (R20, R80): a 1 clears the link counters; reserved bits that were set are logged. -/
def execHstCntClr (v : Word) (s : State) : Host.Outcome State Fault Refusal :=
  .next (if s.cfgOpen 0 then
      (let s := s.noteRsv Reg.HST_CNT_CLR v
       if fld v 0 1 = 1 then { s with link := { s.link with linkDown := 0, cplTimeout := 0, poisoned := 0, urCa := 0 } } else s)
    else s)

end Sys2Proof.Machine
end

