-- ==== Sys2Proof/Machine/Sealing.lean ====
section
/-!
DEFINITION. The sealing boundary (spec/05): the byte layouts that seals are formed over, the LPDDR and host-held layouts, the range
checker, the random source, the known-answer tests and the quarantine list.
-/

namespace Sys2Proof.Machine

/-! ### Layouts of seals (R177, R181, R183, R188, R190, R195) -/

/-- A GCM nonce: a first byte, three zero bytes, a 64-bit number. -/
def nonce (first n : Nat) : List Byte := [BitVec.ofNat 8 first, 0, 0, 0] ++ leBytes 8 n

/-- The AAD of a flash unit (Table 05-3). DESIGN CHOICE, log entry 5. -/
def unitAad (u : UnitRec) : List Byte :=
  [BitVec.ofNat 8 u.inst, BitVec.ofNat 8 u.kind, 0, 0, 0, 0, 0, 0] ++ leBytes 8 u.lbn ++ leBytes 8 u.seq ++ leBytes 8 u.mono

/-- The tag of a flash unit under the key of a serial (R190). -/
def unitTag (u : UnitRec) : Nat := Config.gcmTag u.key (leNat (nonce 1 u.seq)) (unitAad u) u.data

/-- The stored ciphertext of a flash unit. -/
def unitCipher (u : UnitRec) : List Byte := gcmText u.key (leNat (nonce 1 u.seq)) u.data

/-- HMAC-SHA-256 of a key of at most 64 bytes, the PRF of R175. -/
def hmac256 (key msg : List Byte) : List Byte :=
  let k := padTo 64 key
  leBytes 32 (Config.sha256 (k.map (fun c => c ^^^ 0x5C) ++ leBytes 32 (Config.sha256 (k.map (fun c => c ^^^ 0x36) ++ msg))))

/-- `n` blocks of the derivation of R175 from block `i` on: i, label, 0x00, context and the length in bits. -/
def kdfBlocks (key label context : List Byte) (bits : Nat) : Nat → Nat → List Byte
  | 0, _ => []
  | n + 1, i => hmac256 key (beBytes 4 i ++ label ++ [0] ++ context ++ beBytes 4 bits) ++ kdfBlocks key label context bits n (i + 1)

/-- KWK of a root key in its slot: label "KWK", context the slot number, 256 bits (R174, R175). -/
def kwkOf (root : List Byte) (slot : Nat) : List Byte := kdfBlocks root [0x4B, 0x57, 0x4B] [BitVec.ofNat 8 slot] 256 1 1

/-- The check word of a root key: the first 4 bytes of SHA-256 over it, read as they lie, low byte first (R170). DEDUCED, log entry 5. -/
def keyCheck (key : List Byte) : BitVec 32 := BitVec.ofNat 32 (Config.sha256 key)

/-- The check word that a copy holds, and whether it matches (R170). -/
def OtpCopy.word (c : OtpCopy) : BitVec 32 := c.check.getD (keyCheck c.key)
def OtpCopy.fits (c : OtpCopy) : Bool :=
  match c.check with
  | none => true
  | some w => decide (w = keyCheck c.key)

/-- The order of the P-384 group. PRESUMED, log entry 5. -/
def orderP384 : Nat := 0xFFFFFFFFFFFFFFFFFFFFFFFFFFFFFFFFFFFFFFFFFFFFFFFFC7634D81F4372DDF581A0DB248B0A77AECEC196ACCC52973

/-- The private scalar of the SPDM leaf key: label "IDK", no context, 512 bits from the identity seed and nothing else (R172, R175). The
64 bytes are read most significant first: DEDUCED, log entry 5. -/
def spdmScalar : Nat := leNat (kdfBlocks Config.identitySeed [0x49, 0x44, 0x4B] [] 512 2 1).reverse % (orderP384 - 1) + 1

/-- The AAD of a wrapped key record, its bytes 0 to 15 (Table 05-2). -/
def wrapAad (serial inst slot : Nat) : List Byte := padTo 16 (leBytes 8 serial ++ [BitVec.ofNat 8 inst, BitVec.ofNat 8 slot])

/-- The wrapped key record of a serial (Table 05-2): its AAD, the key under KWK, and the tag; the nonce begins with 0x03 (R177). -/
def wrappedKey (kwkBytes : List Byte) (serial inst slot : Nat) : List Byte :=
  let kwk := leNat kwkBytes
  let n := leNat (nonce 3 serial)
  let key := padTo 32 (Config.drbgKey serial)
  wrapAad serial inst slot ++ gcmText kwk n key ++ leBytes 16 (Config.gcmTag kwk n (wrapAad serial inst slot) key)

/-- The record that wraps a serial's key now. -/
def State.wrapFor (s : State) (serial inst : Nat) : List Byte := wrappedKey (s.sea.kwk.getD []) serial inst s.sea.slot

/-- One generate request of the DRBG (R176). -/
def State.drawOne (s : State) : State := { s with sea := { s.sea with drawn := s.sea.drawn + 1, drbgCount := s.sea.drbgCount + 1 } }

/-- A 256-bit key drawn from the random source, as a free value, and the block after the draw (R174, R176). DESIGN CHOICE, log entry 61. -/
def State.draw (s : State) : Nat × State := (s.freeVal % 2 ^ 256, s.useFree.drawOne)

/-- The six keys of a boot (Table 05-1). -/
def State.drawLineKeys (s : State) : State :=
  let (a, s) := s.draw
  let (b, s) := s.draw
  let (c, s) := s.draw
  let (d, s) := s.draw
  let (e, s) := s.draw
  let (f, s) := s.draw
  { s with sea := { s.sea with kd := some ⟨a, b, c, d, e, f⟩ } }

/-- The chain digest that the first block of an instance's life takes: 16 bytes over the genesis record (R195). -/
def genesisDigest (serial inst : Nat) : Nat :=
  Config.sha256 (padTo 64 (leBytes 8 serial ++ [BitVec.ofNat 8 inst])) % 2 ^ 128

/-- The DRAM byte address of the MAC of the line at `a` (R181). -/
def macAddr (d a : Nat) : Nat := protMib d * 2 ^ 20 + a / 64 * 8

/-- The tweak of an LPDDR line (R182). -/
def lineTweak (a : Nat) : Nat := a / 64

/-- The 80-byte message of the MAC of an LPDDR line (R183). -/
def lineMsg (cipher : List Byte) (a : Nat) : List Byte := padTo 64 cipher ++ leBytes 8 a ++ leBytes 8 0

/-- The LPDDR line at `a` in its ciphertext, and its MAC, while the keys of this boot are held (R182, R183). -/
def State.lineCipher (s : State) (a : Nat) : List Byte :=
  padTo 64 (Config.xtsText s.lineKeys.kd1 s.lineKeys.kd2 (lineTweak a) (padTo 64 (Config.lineContent (a / 64) s.free)))
def State.lineTag (s : State) (cipher : List Byte) (a : Nat) : List Byte := leBytes 8 (Config.lineMac s.lineKeys.kdm (lineMsg cipher a))

/-- A line and its MAC as LPDDR returns them, 72 bytes, pass: the MAC is the one recomputed over the ciphertext and the address (R183, R185). -/
def State.linePasses (s : State) (a : Nat) (b : List Byte) : Bool := decide (slice b 64 8 = s.lineTag (b.take 64) a)

/-- A word of the LPDDR raw window (R181 to R186, Table 05-4): ciphertext below the watermark, MACs in the MAC region, and what LPDDR held
before elsewhere. DEDUCED, log entry 52. -/
def State.rawDram (s : State) (off : Nat) : Word :=
  let p := protMib s.sea.lpddrMib * 2 ^ 20
  let word (l : List Byte) (k : Nat) : Word := BitVec.ofNat 32 (leAt l k 4)
  if s.sea.kd.isSome && decide (off < p ∧ off / 64 < s.sea.sweepLines) then word (s.lineCipher (off / 64 * 64)) (off % 64)
  else if s.sea.kd.isSome && decide (p ≤ off ∧ (off - p) / 8 < s.sea.sweepLines) then
    (let a := (off - p) / 8 * 64
     word (s.lineTag (s.lineCipher a) a) ((off - p) % 8))
  else word (Config.rawLpddr (off / 64)) (off % 64)

/-! ### The range checker (R197 to R199, Table 05-4, Table 17-2) -/

/-- The initiators that pass through the range checker, numbered as SEA.RC_VIOL.initiator. -/
inductive Initiator where
  | heron
  | monitor
  | jtag
  | copyEngine
  deriving DecidableEq, Repr

def Initiator.code : Initiator → Nat
  | .heron => 0
  | .monitor => 1
  | .jtag => 2
  | .copyEngine => 3

/-- The ranges of Table 05-4. The first five have no address in the map of Table 17-2, so no access by address reaches them. -/
inductive Region where
  | keys
  | otpPort
  | buffers
  | lpddrMgmt
  | lpddrRest
  | sram
  | bar2
  | nvmGuarded
  | nvm
  | lpddrRaw
  | outside
  deriving DecidableEq, Repr

/-- The NVM words that hold halt records and the key floor table, counters 16 to 271. -/
def nvmGuardedOff (off : Nat) : Bool :=
  decide ((0x28000 ≤ off ∧ off < 0x28300) ∨ (ctrSlotAddr 16 0 ≤ off ∧ off < ctrSlotAddr 272 0))

/-- The region of an internal address. -/
def regionOf (a : Nat) : Region :=
  if a < 0x40000 then .sram
  else if 0x40000000 ≤ a ∧ a < 0x40400000 then .bar2
  else if 0x50000000 ≤ a ∧ a < 0x50040000 then (if nvmGuardedOff (a - 0x50000000) then .nvmGuarded else .nvm)
  else if 0x100000000 ≤ a ∧ a < 0x200000000 then .lpddrRaw
  else .outside

/-- The production lock as the NVM holds it (R539): the copy in force, if any; a locked monitor when neither is valid and the area is not
erased. -/
def monAddr (k : Nat) : Nat := 0x29800 + 128 * k
def State.monCopy (s : State) (k : Nat) : List Byte := s.nvmBytes (monAddr k) 128
def monValid (b : List Byte) : Bool := decide (crc32 (slice b 0 124) = leAt b 124 4)

/-- The monitor settings copy in force. -/
def State.monCur (s : State) : Option Nat :=
  let a := s.monCopy 0
  let b := s.monCopy 1
  if monValid a && monValid b then (if serialAfter (leAt b 8 4) (leAt a 8 4) then some 1 else some 0)
  else if monValid a then some 0
  else if monValid b then some 1
  else none

/-- Both copies are wholly erased. -/
def State.monErased (s : State) : Bool := slotErased (s.monCopy 0) && slotErased (s.monCopy 1)

/-- The lock is set. -/
def State.monLocked (s : State) : Bool :=
  match s.monCur with
  | some k => decide (leAt (s.monCopy k) 12 1 = 1)
  | none => !s.monErased

/-- The fixed rights of Table 05-4; `revoking`: Heron carries out the revocation sequence (R171). -/
def fixedRights (i : Initiator) (r : Region) (write locked revoking : Bool) : Bool :=
  match r, i with
  | .keys, _ => false
  | .otpPort, .heron => revoking
  | .otpPort, _ => false
  | .buffers, _ => false
  | .lpddrMgmt, .jtag => false
  | .lpddrMgmt, .monitor => !write
  | .lpddrMgmt, _ => true
  | .lpddrRest, _ => false
  | .outside, _ => false
  | .lpddrRaw, _ => !write
  | .nvmGuarded, .heron => !write
  | .nvmGuarded, .monitor => !write
  | .nvmGuarded, _ => false
  | .nvm, .jtag => false
  | .nvm, .copyEngine => !write
  | .nvm, _ => true
  | .sram, .jtag => !locked
  | .sram, _ => true
  | .bar2, .jtag => !write && !locked
  | .bar2, .copyEngine => false
  | .bar2, _ => true

/-- The rights outside the revocation sequence. -/
def fixedRight (i : Initiator) (r : Region) (write locked : Bool) : Bool := fixedRights i r write locked false

/-- A programmable range in force denies the access (R199). -/
def State.rangeDenies (s : State) (i : Initiator) (a : Nat) (write : Bool) : Bool :=
  (List.range 8).any (fun k =>
    let c := s.reg (Reg.SEA_RC_CTL k)
    let p := a / 4096
    decide (fld c 0 1 = 1) && bitN (fld c 4 4) i.code && (write || decide (fld c 8 1 = 0)) &&
      decide ((s.reg (Reg.SEA_RC_BASE k)).toNat ≤ p ∧ p ≤ (s.reg (Reg.SEA_RC_LIM k)).toNat))

/-- The range checker admits an access. -/
def State.admits (s : State) (i : Initiator) (a : Nat) (write : Bool) : Bool :=
  fixedRight i (regionOf a) write s.monLocked && !s.rangeDenies i a write

/-- A refusal is counted and latched, and logged once per initiator per second (R198). -/
def State.rcRefuse (s : State) (i : Initiator) (a : Nat) : State :=
  let s := { s with sea := { s.sea with violCount := inc16 s.sea.violCount, violInit := i.code, violAddr := a } }
  match s.sea.violLog.find? (fun e => e.1 = i.code) with
  | some e =>
    if s.tm.mono < e.2 + 1000 then s
    else ({ s with sea := { s.sea with violLog := (i.code, s.tm.mono) :: s.sea.violLog.filter (fun x => x.1 ≠ i.code) } }).note .rangeRefused i.code
  | none => ({ s with sea := { s.sea with violLog := (i.code, s.tm.mono) :: s.sea.violLog } }).note .rangeRefused i.code

/-! ### Commands -/

/-- SELFTEST_PERIOD (R202): the known-answer tests run again; a failing one of the checks 1 to 5 raises the halt.
DESIGN CHOICE, log entry 65. -/
def execSelftestPeriod (bad : Option (Fin 5)) (s : State) : Host.Outcome State Fault Refusal :=
  .next (whenRunning s (fun s =>
    if Cf.SEA_CTL_selftest_min s = 0 then s
    else
      let s := { s with sea := { s.sea with lastTest := s.tm.mono } }
      match bad with
      | some n => ({ s with sea := { s.sea with selftestOk := false } }).haltBy (.hardware ⟨n.val + 1, by omega⟩)
      | none => s))

/-- DRBG_RESEED (R176): after 65,536 generate requests. -/
def execDrbgReseed (s : State) : Host.Outcome State Fault Refusal :=
  .next (whenRunning s (fun s =>
    if 65536 ≤ s.sea.drbgCount then { s with sea := { s.sea with drbgCount := 0, reseeds := s.sea.reseeds + 1 } } else s))

/-- ENTROPY_HEALTH_FAIL (R176): generation stops. -/
def execEntropyHealthFail (s : State) : Host.Outcome State Fault Refusal :=
  .next (whenRunning s (fun s =>
    if s.sea.rngOk then ({ s with sea := { s.sea with rngOk := false, rngDown := s.tm.mono } }).note .entropyFail 0 else s))

/-- ENTROPY_HEALTH_RECOVERY (R176): after 1024 passing samples generation goes on. -/
def execEntropyHealthRecovery (s : State) : Host.Outcome State Fault Refusal :=
  .next (whenRunning s (fun s =>
    if s.sea.rngOk then s else ({ s with sea := { s.sea with rngOk := true } }).note .entropyBack 0))

/-! ### The quarantine list (R204, Table 16-3) -/

/-- An entry of the list in NVM, 16 bytes; Table 16-3 gives the area of two copies of 1 KiB and no layout. DESIGN CHOICE, log entry 34. -/
def QuarLoc.bytes : QuarLoc → List Byte
  | .page d b p => padTo 16 (leBytes 1 6 ++ leBytes 1 d ++ leBytes 2 b ++ leBytes 2 p)
  | .disc set drive pba => leBytes 1 7 ++ leBytes 1 drive ++ [0, 0] ++ leBytes 4 pba ++ leBytes 8 set

def quarEntry (b : List Byte) : Option QuarLoc :=
  if leAt b 0 1 = 6 then some (.page (leAt b 1 1) (leAt b 2 2) (leAt b 4 2))
  else if leAt b 0 1 = 7 then some (.disc (leAt b 8 8) (leAt b 1 1) (leAt b 4 4))
  else none

/-- The 1 KiB of a list of at most 64 entries, unused places erased. -/
def quarImage (l : List QuarLoc) : List Byte :=
  let b := l.flatMap QuarLoc.bytes
  b ++ List.replicate (1024 - b.length) 0xFF

def quarAddr : Nat := 0x28400

/-- The list as copy A holds it (start-up step 3). -/
def State.nvmQuar (s : State) : List QuarLoc :=
  let b := s.nvmBytes quarAddr 1024
  (List.range 64).filterMap (fun k => quarEntry (slice b (16 * k) 16))

/-- The list takes a new content, in both copies of the NVM area. -/
def State.setQuar (s : State) (l : List QuarLoc) : State :=
  (State.nvmWrite { s with sea := { s.sea with quar := l } } quarAddr (quarImage l)).nvmWrite (quarAddr + 1024) (quarImage l)

/-- QUAR_CLR (R204): a 1 empties the quarantine list, and the action is logged. -/
def execQuarClr (v : Word) (s : State) : Host.Outcome State Fault Refusal :=
  .next (hostBar2 s (fun s =>
    if fld v 0 1 = 1 then (s.setQuar []).note .quarantineCleared 0 else s))

/-- A location joins the quarantine list: the 64 most recent stay (R204). DEDUCED, log entry 34. -/
def State.quarantine (s : State) (q : QuarLoc) : State := s.setQuar ((q :: s.sea.quar).take 64)

/-- A NAND page of a PUA, or a disc block, is quarantined. -/
def State.pageQuarantined (s : State) (pua : Nat) : Bool :=
  s.sea.quar.contains (.page (puaDie pua) (puaBlock s.fss.ppb pua) (puaPage s.fss.ppb pua))
def State.discQuarantined (s : State) (set drive pba : Nat) : Bool := s.sea.quar.contains (.disc set drive pba)

end Sys2Proof.Machine
end

