-- ==== Sys2Proof/Machine/Lookup.lean ====
section
/-!
DEFINITION. How a READ finds and fetches its blocks (spec/04, R149; spec/06, R219, R242; spec/07, R249 to R257): lookups through the map
cache, the fetch of a leaf line with its MAC check, and the end of a READ.
-/

namespace Sys2Proof.Machine

/-! ### LPDDR checks (R183 to R186, R200) -/

/-- The LPDDR lines that a step touches are checked. The operand names the line that stands out, with its 72 bytes as first read and as read
again: at or above the watermark the engine waits (R186); a line that passes goes on; one that passes on its re-read is counted and logged;
one that fails twice begins the halt. DESIGN CHOICE, log entry 5. -/
def dramCheck (m : MacCheck) (s : State) (g : State → State) : State :=
  match m with
  | .good => g s
  | .line addr first again =>
    let a := addr.toNat / 64 * 64
    if s.sea.sweepLines ≤ a / 64 then s
    else if s.linePasses a first then g s
    else if s.linePasses a again then (g { s with sea := { s.sea with retryDram := inc16 s.sea.retryDram } }).note .lineRetried 0
    else s.haltBy (.dramMac (BitVec.ofNat 40 a))

/-! ### The blocks of a READ in flight: (logical block, PUA, state) -/

/-- The states of a block: it waits for its leaf line, for its unit, or is settled. -/
def rdLine : Nat := 0
def rdUnit : Nat := 1
def rdGood : Nat := 2
def rdRebuilt : Nat := 4
def rdLost : Nat := 5

/-- The state that a map entry gives a block. -/
def rdState (pua : Nat) : Nat := if pua = puaEmpty then rdGood else if pua = puaLost then rdLost else rdUnit

/-- A PUA is plausible: Empty, lost, or a page of a die in use (R252). -/
def State.plausible (s : State) (pua : Nat) : Bool :=
  !isReal pua || (s.goodDies.contains (puaDie pua) && decide (pua / 4 % 2 ^ 26 < s.fss.blocksPerDie * s.fss.ppb))

/-- Statistics of the map cache. -/
def State.countHit (s : State) : State := { s with mch := { s.mch with hits := satU 32 (s.mch.hits + 1) } }
def State.countMiss (s : State) : State := { s with mch := { s.mch with misses := satU 32 (s.mch.misses + 1) } }

/-- A command waits for a leaf line; the line is fetched once for all that wait. -/
def State.addFetch (s : State) (line id : Nat) : State :=
  if s.fetches.any (fun l => l.line = line) then
    { s with fetches := s.fetches.map (fun l => if l.line = line ∧ !l.cmds.contains id then { l with cmds := l.cmds ++ [id] } else l) }
  else { s with fetches := s.fetches ++ [⟨line, 0, false, false, [], [id], none, false⟩] }

/-- A block whose leaf lies in the pool or in NAND: the leaf is used from the pool (R218). DESIGN CHOICE, log entry 24. -/
def State.lookupPool (s : State) (i lbn : Nat) : Nat × State :=
  (s.mapGet i lbn, if (s.leaf (leafKey i lbn)).loc = .nowhere then s else s.touchLeaf (leafKey i lbn))

/-- A lookup in the host-held region at offset `b` (R252, R257): the entry from the cache, or none while the line is fetched. A parity
fault, also an entry that is not plausible, is handled first; it may leave the leaf in NAND only. -/
def State.lookupHost (s : State) (i lbn b : Nat) (bad : List Nat) (id : Nat) : Option Nat × State :=
  let line := b / 64
  let miss (s : State) : Option Nat × State := (none, (if s.mchActive then s.countMiss else s).addFetch line id)
  match (if s.mchActive then s.hitWay b else none) with
  | none => miss s
  | some w =>
    let set := setOf b
    let pua := nth puaEmpty ((s.lineAt set w).getD (mkLine 0 0 false [])).entries (lbn % 16)
    if bad.contains (set * 8 + w) || !s.plausible pua then
      let s := s.parityFault (set * 8 + w) bad
      if (s.leaf (leafKey i lbn)).loc = .host then miss s
      else let (p, t) := s.lookupPool i lbn; (some p, t)
    else (some pua, (s.touchLine set w).countHit)

/-- A lookup of one block. DESIGN CHOICE, log entry 24. -/
def State.lookup (s : State) (i lbn : Nat) (bad : List Nat) (id : Nat) : Option Nat × State :=
  let l := s.leaf (leafKey i lbn)
  if l.loc = .host then s.lookupHost i lbn (l.slot * 4096 + lbn % 1024 * 4) bad id
  else let (p, t) := s.lookupPool i lbn; (some p, t)

/-- Lookups of `n` blocks from `lbn` on. -/
def State.lookupRun (i id : Nat) (bad : List Nat) : Nat → Nat → State → List (Nat × Nat × Nat) × State
  | 0, _, s => ([], s)
  | n + 1, lbn, s =>
    let (r, s) := s.lookup i lbn bad id
    let e := match r with
      | some p => (lbn, p, rdState p)
      | none => (lbn, puaEmpty, rdLine)
    let (l, s) := State.lookupRun i id bad n (lbn + 1) s
    (e :: l, s)

/-! ### The end of a READ -/

/-- Every block is settled. -/
def Cmd.settled (c : Cmd) : Bool := !c.placed.isEmpty && c.placed.all (fun e => decide (2 ≤ e.2.2))

/-- The data of a settled block: its unit's content, or zeros for an Empty or lost block (R149, R247). -/
def State.blockData (s : State) (e : Nat × Nat × Nat) : List Byte :=
  if isReal e.2.1 && decide (e.2.2 ≠ rdLost) then padTo 4096 (s.unitAt e.2.1).data else List.replicate 4096 0

/-- The index of the first lost block. -/
def firstLost : Nat → List (Nat × Nat × Nat) → Option Nat
  | _, [] => none
  | k, e :: r => if e.2.2 = rdLost then some k else firstLost (k + 1) r

/-- A READ whose blocks are settled writes its buffer and completes, while its function may issue requests (R54, R149).
DEDUCED, log entry 37. -/
def State.endRead (s : State) (c : Cmd) : State :=
  if c.settled && s.canWrite c.fn.toNat then
    let s := s.writeOut c (c.placed.foldl (fun a e => a ++ s.blockData e) [])
    let s := s.count c.fn.toNat (fun m => { m with bytesRead := m.bytesRead + eArg1 c.entry * 4096 })
    let reb := c.placed.any (fun e => decide (e.2.2 = rdRebuilt))
    match firstLost 0 c.placed with
    | some k => s.complete c stMedia (mediaResult k 0) reb
    | none => s.complete c stSuccess 0 reb
  else s

/-- The READs whose blocks are settled end. -/
def State.endReads (s : State) : State :=
  forEach s.cmds (fun c t => if eOp c.entry = some .read && decide (c.stage = .media) then t.endRead c else t) s

/-- The blocks of waiting READs that satisfy `p` take what `g` gives. -/
def State.mapBlocks (s : State) (p : Cmd → Nat × Nat × Nat → Bool) (g : Cmd → Nat × Nat × Nat → Nat × Nat × Nat) : State :=
  { s with cmds := s.cmds.map (fun c =>
      if eOp c.entry = some .read && decide (c.stage = .media) then
        { c with placed := c.placed.map (fun e => if p c e then g c e else e) }
      else c) }

/-! ### Fetching a leaf line (R188, R200, R253) -/

/-- The line of the region that holds a block's map entry. -/
def State.lineOf (s : State) (i lbn : Nat) : Option Nat :=
  let l := s.leaf (leafKey i lbn)
  if l.loc = .host then some (l.slot * 64 + lbn % 1024 / 16) else none

/-- The blocks that wait for a line, or for a leaf no longer in the region, take their entries from the map. -/
def State.settleLine (s : State) (line : Nat) : State :=
  let s' := { s with fetches := s.fetches.filter (fun l => l.line ≠ line) }
  (s'.mapBlocks
    (fun c e => decide (e.2.2 = rdLine) && (match s.lineOf c.fn.toNat e.1 with
      | some x => decide (x = line)
      | none => true))
    (fun c e => let p := s.mapGet c.fn.toNat e.1; (e.1, p, rdState p))).endReads

def State.setFetch (s : State) (l : LeafFetch) : State := { s with fetches := s.fetches.map (fun x => if x.line = l.line then l else x) }

/-- A line that READs wait for has passed its check: it fills the cache, once its victim has been written back, and the READs go on (R252,
R255). A line read for a promotion alone fills nothing (R251). -/
def State.linePassed (s : State) (l : LeafFetch) (bad : List Nat) : State :=
  match s.leafAtSlot (l.line / 64) with
  | none => s.settleLine l.line
  | some k =>
    if l.cmds.isEmpty || !s.mchActive then s.settleLine l.line
    else
      let s := s.checkVictim (l.line * 64) bad
      if decide ((s.leaf k).loc = .host) && s.mchActive then
        if s.fillWaits (l.line * 64) then s.setFetch { l with passed := true }
        else (s.fillLine (l.line * 64) (s.leaf k).version false (((s.leafEntries k).drop (l.line % 64 * 16)).take 16)).settleLine l.line
      else s.settleLine l.line

/-- The leaf and the version that a line is checked under: those of the promotion that reads it, else those of the leaf that lies there. -/
def State.fetchView (s : State) (l : LeafFetch) : Option (Nat × Nat) :=
  match l.promo with
  | some e => some e
  | none => (s.leafAtSlot (l.line / 64)).map (fun k => (k, (s.leaf k).version))

/-- The check of a line against its MAC under a version (R188, R189). -/
def State.lineOk (s : State) (l : LeafFetch) (version : Nat) (mac : List Byte) : Bool :=
  decide (padTo 8 mac = leBytes 8 (Config.lineMac s.lineKeys.khm (leafMsg l.text (l.line * 64) version)))

/-- Data of a leaf fetch arrives: the ciphertext, then the MAC; a line that fails is fetched once more, and a second failure begins the
halt (R200). -/
def State.leafData (s : State) (line : Nat) (mac : Bool) (data : List Byte) (bad : List Nat) : State :=
  match s.fetches.find? (fun l => l.line = line) with
  | none => s
  | some l =>
    if !mac then (s.setFetch { l with text := padTo 64 data }).pump
    else
      match s.fetchView l with
      | none => (s.settleLine line).pump
      | some e =>
        if s.lineOk l e.2 data then
          ((if l.bad then { s with sea := { s.sea with retryLeaf := inc16 s.sea.retryLeaf } } else s).linePassed l bad).pump
        else if l.bad then s.haltBy (.leafMac (BitVec.ofNat 64 (s.hregBase + line * 64)))
        else (s.setFetch { l with bad := true, text := [] }).pump

/-- A fetch of a leaf line fails: after 100 attempts its commands complete with host-access, otherwise it is tried again (R53). -/
def State.leafFail (s : State) (line addr : Nat) : State :=
  match s.fetches.find? (fun l => l.line = line) with
  | none => s
  | some l =>
    if 100 ≤ l.attempts + 1 then
      let s := { s with fetches := s.fetches.filter (fun x => x.line ≠ line) }
      forEach l.cmds (fun id t => match t.findCmd id with
        | some c => if c.stage = .media then t.complete c stHost addr false else t
        | none => t) s
    else s.setFetch { l with attempts := l.attempts + 1, failed := true, text := [] }

/-- LEAF_FETCH_RETRY (R53, R255): 1 ms after a failed attempt the line is fetched again; a line whose fill waits for the write-back of its
victim goes on once the PF may write. DESIGN CHOICE, log entry 2. -/
def execLeafFetchRetry (line : Nat) (s : State) : Host.Outcome State Fault Refusal :=
  .next (whenServing s (fun s =>
    match s.fetches.find? (fun l => l.line = line) with
    | some l =>
      if l.failed then (s.setFetch { l with failed := false }).pump
      else if l.passed && !s.fillWaits (l.line * 64) then (s.linePassed { l with passed := false } []).pump
      else s
    | none => s))

/-! ### READ -/

/-- READ (R149): the lookups of its blocks, then the reads of their units; `bad` are the cache lines that fail parity, `mac` what the
LPDDR checks show. A READ all of whose blocks are settled, held only by its function, ends. -/
def execRead (id : Nat) (mac : MacCheck) (bad : List Nat) (s : State) : Host.Outcome State Fault Refusal :=
  .next (whenServing s (fun s =>
    match s.findCmd id with
    | some c =>
      if eOp c.entry ≠ some .read then s
      else if c.ready then
        dramCheck mac s (fun s => s.underEpoch c (fun s =>
          let (l, s) := State.lookupRun c.fn.toNat id bad (eArg1 c.entry) (eArg0 c.entry) s
          let c := { c with stage := .media, placed := l }
          ((s.setCmd c).endRead c).pump))
      else if c.stage = .media then s.endRead c
      else s
    | none => s))

end Sys2Proof.Machine
end

