-- ==== Sys2Proof/Machine/MapCache.lean ====
section
/-!
DEFINITION. The manager's operations on the map cache and on the host-held region (spec/07, R258 to R271; spec/06, R220 to R222).
-/

namespace Sys2Proof.Machine

/-! ### Enable and ways -/

/-- MCH_ENABLE_WRITE (R258, R259): an enable before an invalidate of the whole cache is refused. -/
def execMchEnableWrite (v : Word) (s : State) : Host.Outcome State Fault Refusal :=
  .next (hostBar2 s (fun s =>
    if fld v 0 1 = 1 && !s.mchEn && !s.mch.invOk then (s.storeReg Reg.MCH_CTL (setFld v 0 1 0)).setMchEvt 3
    else s.storeReg Reg.MCH_CTL v))

/-- Every line of a way is made invalid. -/
def State.invalidateWay (s : State) (w : Nat) : State :=
  { s with mch := { s.mch with lines := s.mch.lines.filter (fun e => e.1 % 8 ≠ w) } }

/-- WAY_EN (R270): the disabled ways named are invalidated and restored. -/
def execWayEn (v : Word) (s : State) : Host.Outcome State Fault Refusal :=
  .next (hostBar2 s (fun s =>
    forBelow 8 (fun w t =>
      if bitN v.toNat w && bitN t.mch.off w then
        let t := t.invalidateWay w
        let t := { t with mch := { t.mch with off := setBitN t.mch.off w false, auto := setBitN t.mch.auto w false } }
        t.modWay w (fun c => { c with inWindow := 0, opened := 0 })
      else t) s))

/-- PARITY_WINDOW_EXPIRY (R269): the window of a way closes once its length has passed. DESIGN CHOICE, log entry 56. -/
def execParityWindowExpiry (way : Fin 8) (s : State) : Host.Outcome State Fault Refusal :=
  .next (whenRunning s (fun s =>
    s.modWay way.val (fun c =>
      if c.inWindow ≠ 0 ∧ !c.closing ∧ c.opened + Cf.MCH_PAR_window s * 1000 ≤ s.tm.mono then { c with inWindow := 0, opened := 0 } else c)))

/-! ### Maintenance operations (R261 to R267) -/

/-- The operation is refused and nothing is visited (R261). -/
def State.refuseOp (s : State) : State := { s with mch := { s.mch with refused := true } }

/-- A go write: an access error while an operation is busy; refused when the line count of mode 0 is not 1 to 65,536 (R262, R265);
otherwise the operation begins. DESIGN CHOICE, log entry 59. -/
def State.beginOp (s : State) (op mode : Nat) : State :=
  let n := Cf.MCH_OP_CNT_lines s
  if s.mch.op.isSome then s.accError 0 1 0x05001C
  else if mode = 0 ∧ (n = 0 ∨ 65536 < n) then s.refuseOp
  else { s with mch := { s.mch with op := some (op, mode), written := 0, done := false } }

/-- CLEAN (R261): MCH.OP_CTL with go = 1 and op 1. -/
def execClean (mode : Fin 2) (s : State) : Host.Outcome State Fault Refusal := .next (hostBar2 s (fun s => s.beginOp 1 mode.val))

/-- INVALIDATE (R261): MCH.OP_CTL with go = 1 and op 2. -/
def execInvalidate (mode : Fin 2) (s : State) : Host.Outcome State Fault Refusal := .next (hostBar2 s (fun s => s.beginOp 2 mode.val))

/-- CLEAN_AND_INVALIDATE (R261): MCH.OP_CTL with go = 1 and op 3. -/
def execCleanAndInvalidate (mode : Fin 2) (s : State) : Host.Outcome State Fault Refusal :=
  .next (hostBar2 s (fun s => s.beginOp 3 mode.val))

/-- The effect of an operation on one line (Table 07-1); a dirty line that fails parity on its write-back is a parity fault (R268). -/
def State.visitLine (s : State) (op k : Nat) (bad : List Nat) : State :=
  match s.lineAt (k / 8) (k % 8) with
  | none => s
  | some l =>
    if op = 2 then s.setLine (k / 8) (k % 8) none
    else if l.dirty && bad.contains k then s.parityFault k bad
    else
      let s := if l.dirty then
          let t := s.writeBack (k / 8) (k % 8)
          { t with mch := { t.mch with written := satU 16 (t.mch.written + 1) } }
        else s
      if op = 3 then s.setLine (k / 8) (k % 8) none else s

/-- The lines that an operation visits, by set × 8 + way (R262, R263). DESIGN CHOICE, log entry 59. -/
def State.visits (s : State) (mode : Nat) : List Nat :=
  let sw := (s.reg Reg.MCH_OP_SW).toNat
  if mode = 1 then (if sw.testBit 24 then s.mch.lines.map (fun e => e.1) else [fldN sw 0 10 * 8 + fldN sw 16 3])
  else
    let a := (s.reg Reg.MCH_OP_ADDR).toNat
    let n := Cf.MCH_OP_CNT_lines s
    let q := s.hregQ
    (s.mch.lines.filter (fun e => match e.2 with
      | some l =>
        let b := lineOffset (e.1 / 8) l.tag
        decide (a ≤ b ∧ b < a + 64 * n ∧ b < q ∧ b < 2 ^ 32)
      | none => false)).map (fun e => e.1)

/-- The write-backs of an operation wait while the PF may not write (R255). -/
def State.opMayEnd (s : State) (op : Nat) : Bool := decide (op = 2) || s.pfMayWrite

/-- MAINTENANCE_OP_DONE (R265): every line has been visited; an invalidate of the whole cache sets inv_ok (R258).
DESIGN CHOICE, log entry 59. -/
def execMaintenanceOpDone (bad : List Nat) (s : State) : Host.Outcome State Fault Refusal :=
  .next (whenRunning s (fun s =>
    match s.mch.op with
    | some (op, mode) =>
      if s.opMayEnd op then
        let s := forEach (s.visits mode) (fun k t => t.visitLine op k bad) s
        let all := decide (mode = 1 ∧ 2 ≤ op) && bitN (s.reg Reg.MCH_OP_SW).toNat 24
        ({ s with mch := { s.mch with op := none, done := true, invOk := s.mch.invOk || all } }).setMchEvt 0
      else s
    | none => s))

/-! ### The host-held region (R220 to R222) -/

/-- Every leaf held in the region is marked NAND only, and the cache is emptied (R221, R267); READs that still wait for a line of the
region read their leaves from NAND. -/
def State.clearRegion (s : State) : State :=
  let s := s.emptyCache
  let s := { s with fss := { s.fss with
      hregEn := false, hregBusy := false,
      leaves := Bank.mapVals leafDef s.fss.leaves (fun l => if l.loc = .host then { l with loc := .nand } else l) } }
  forEach s.fetches (fun l t => t.settleLine l.line) s

/-- HREG_ENABLE (R220): refused with err when the size is not 64 MiB to 4 GiB, or while a disable is busy. DEDUCED, log entry 37. -/
def execHregEnable (s : State) : Host.Outcome State Fault Refusal :=
  .next (hostBar2 s (fun s =>
    if s.fss.hregEn then s
    else if decide (Cf.FSS_HREG_SIZE_size s = 0 ∨ 64 < Cf.FSS_HREG_SIZE_size s) || s.fss.hregBusy then
      ({ s with fss := { s.fss with hregErr := true } }).note .hregRefused 0
    else { s with fss := { s.fss with hregEn := true } }))

/-- HREG_DISABLE (R221, R267): accesses to the region stop, a maintenance operation in progress ends as aborted; busy stays until the
accesses have ended. -/
def execHregDisable (s : State) : Host.Outcome State Fault Refusal :=
  .next (hostBar2 s (fun s => if s.fss.hregEn then { s with
      fss := { s.fss with hregEn := false, hregBusy := true }
      mch := { s.mch with op := none, aborted := s.mch.aborted || s.mch.op.isSome } }
    else s))

/-- A fetch of a leaf line is under way. -/
def State.leafReading (s : State) : Bool :=
  s.reads.any (fun r => match r.kind with
    | .leaf _ => true
    | .leafMac _ => true
    | _ => false) || s.fetches.any (fun l => !l.text.isEmpty)

/-- HREG_DISABLE_DONE (R221, R267): with every fetch ended, the leaves are NAND only and busy clears. -/
def execHregDisableDone (s : State) : Host.Outcome State Fault Refusal :=
  .next (whenRunning s (fun s => if s.fss.hregBusy && !s.leafReading then s.clearRegion else s))

end Sys2Proof.Machine
end

