-- ==== Sys2Proof/Machine/Arc.lean ====
section
/-!
DEFINITION. The stripe set as other families see it (spec/08): positions, whether it may be written, free data slots, the archive queue.
-/

namespace Sys2Proof.Machine

/-- The position that drive `d` holds. -/
def State.posOf (s : State) (d : Nat) : Option Nat := nth none s.arc.pos d

/-- The drives that hold a position, and those among them that take part in writing (R305). -/
def State.setDrives (s : State) : List Nat := (List.range 4).filter (fun d => (s.posOf d).isSome)
def State.writeDrives (s : State) : List Nat := s.setDrives.filter (fun d => !s.arc.absent.contains d)

/-- The drive that holds position `p`. -/
def State.driveAt (s : State) (p : Nat) : Option Nat := (List.range 4).find? (fun d => decide (s.posOf d = some p))

/-- ARC.CTL.degraded_ok in force. -/
def State.degradedOk (s : State) : Bool := decide (Cf.ARC_CTL_degraded_ok s = 1)

/-- The loaded set is writable (R301). -/
def State.setWritable (s : State) : Bool :=
  s.arc.loaded && !s.arc.finalised && !s.arc.full &&
    (decide (s.writeDrives.length = 4) || (decide (s.writeDrives.length = 3) && s.degradedOk))

/-- The segment of a number. -/
def State.findSeg (s : State) (n : Nat) : Option Segment := s.fss.segs.find? (fun g => g.num = n)
def State.modSeg (s : State) (n : Nat) (g : Segment → Segment) : State :=
  { s with fss := { s.fss with segs := s.fss.segs.map (fun x => if x.num = n then g x else x) } }

/-- Segments of the queue that are not admitted; one whose staging read failed for good is passed over (Table 01-3). -/
def State.queued (s : State) : List Segment := s.fss.segs.filter (fun g => g.holding && !g.active && !g.broken)

/-- Archive blocks of a segment still to format. -/
def Segment.left (g : Segment) : Nat :=
  ((List.range (g.blocks - g.formatted)).filter (fun k => !g.verified.contains (g.formatted + k))).length

/-- Data slots still free on the set, less those reserved for active segments (R290). -/
def State.slotsUsed (s : State) : Nat := 3 * s.arc.form + s.arc.part.length
def State.slotsReserved (s : State) : Nat :=
  s.arc.active.foldl (fun a n => a + (match s.findSeg n with
    | some g => g.left
    | none => 0)) 0
def State.slotsFree (s : State) : Nat := 3 * s.arc.total - s.slotsUsed - s.slotsReserved

/-- The queue head waits for a set (R35, R290). -/
def State.queueWaits (s : State) : Bool :=
  match s.queued with
  | g :: _ => !s.setWritable || decide (s.slotsFree < g.left)
  | [] => false

/-- One log event per instance with queued segments for each period of waiting (R35); the period ends when the queue no longer waits. -/
def State.noteWaiting (s : State) : State :=
  if s.queueWaits then
    forEach (s.queued.map (fun g => g.inst)).eraseDups (fun i t =>
      if (t.getInst i).waitLogged then t
      else (t.modInst i (fun r => { r with waitLogged := true })).logEv .queueWaiting (some (BitVec.ofNat 8 i)) 0) s
  else { s with inst := Bank.mapVals instDef s.inst (fun r => { r with waitLogged := false }) }

end Sys2Proof.Machine
end

