-- ==== Sys2Proof/Machine/Format.lean ====
section
/-!
DEFINITION. The archive format (spec/08): zones and addresses (R276 to R278), the (1,7) code and the sync marks (R280, R281), the
block content with its address record and header (R282 to R285), the product code (R286, R287).
-/

namespace Sys2Proof.Machine

/-! ### Layout of a layer (R275 to R278) -/

/-- Slots of a layer, user slots of a layer, wobble periods of a slot. -/
def layerSlots : Nat := 567840
def layerUser : Nat := 524288
def slotWobbles : Nat := 8990

/-- Slots of zone `z`, its user slots, the stripe number of its first user slot, the index of its first slot on layer 0. -/
def zoneSlots (z : Nat) : Nat := 8112 + 312 * z
def zoneUser (z : Nat) : Nat := if z = 0 then 4496 else 7088 + 312 * z
def zoneS (z : Nat) : Nat := if z = 0 then 0 else 4496 + 7088 * (z - 1) + 156 * z * (z - 1)
def zoneZ (z : Nat) : Nat := 8112 * z + 156 * z * (z - 1)

/-- The largest zone below `n` whose first value under `f` does not exceed `v`. -/
def zoneOf (f : Nat → Nat) (v : Nat) : Nat → Nat
  | 0 => 0
  | n + 1 => if f n ≤ v then n else zoneOf f v n

/-- stripe_pba (R278). -/
def stripePba (s : Nat) : Nat :=
  if s < 524288 then
    let z := zoneOf zoneS s 40
    let off := s - zoneS z
    zoneZ z + (if z = 0 then off + 2592 else off)
  else
    let t := s - 524288
    let z := zoneOf zoneS (524287 - t) 40
    2 ^ 20 + (567840 - zoneZ (z + 1)) + (t - (524288 - zoneS (z + 1)))

/-- Layer and slot index of a PBA. -/
def pbaLayer (p : Nat) : Nat := p / 2 ^ 20
def pbaSlot (p : Nat) : Nat := p % 2 ^ 20

/-- Zone of a slot index of a layer: layer 1 runs from zone 39 inward. -/
def slotZone (l k : Nat) : Nat := if l = 0 then zoneOf zoneZ k 40 else zoneOf zoneZ (layerSlots - 1 - k) 40

/-- First slot of a zone on a layer. -/
def zoneFirst (l z : Nat) : Nat := if l = 0 then zoneZ z else layerSlots - zoneZ (z + 1)

/-- First slot of the spare band of a zone on a layer: the band follows the user slots (R276). -/
def spareFirst (l z : Nat) : Nat := zoneFirst l z + (if z = 0 ∧ l = 0 then 2592 else 0) + zoneUser z

/-- First slot of the set area of a layer (R276), and the offsets of its areas (R277). -/
def setArea (l : Nat) : Nat := if l = 0 then 0 else layerSlots - 2592
def areaStart (kind : Nat) : Nat := if kind = 4 then 0 else if kind = 5 then 16 else if kind = 6 then 528 else 2576
def areaSize (kind : Nat) : Nat := if kind = 4 then 16 else if kind = 5 then 512 else if kind = 6 then 2048 else 16

/-- The wobble position of a PBA from the start of its layer's data zone. -/
def pbaWobble (p : Nat) : Nat := slotWobbles * pbaSlot p

/-- Position of the parity of a stripe, and of its data block `j` (R289). -/
def parityPos (s : Nat) : Nat := s % 4
def dataPos (s j : Nat) : Nat := (s % 4 + 1 + j) % 4

/-- What position `p` holds of stripe `s`: data block `j`, or the parity. -/
def blockAt (s p : Nat) : Option Nat :=
  if p = parityPos s then none else some ((p + 4 - (s % 4 + 1)) % 4)

/-! ### The (1,7) code (R280, R281) -/

/-- The bits of a number, most significant first. -/
def bitList (len n : Nat) : List Bool :=
  match len with
  | 0 => []
  | k + 1 => n.testBit k :: bitList k n

/-- The bit pairs of a byte string, most significant first. -/
def pairs : List Bool → List (Bool × Bool)
  | a :: b :: r => (a, b) :: pairs r
  | _ => []

/-- The 3-bit code of a pair coded alone, and the first half of a 6-bit code (Table 08-4). -/
def code3 : Bool × Bool → List Bool
  | (false, false) => [false, true, false]
  | (false, true) => [false, false, true]
  | (true, false) => [true, false, false]
  | (true, true) => [true, false, true]

/-- The first three bits of the 6-bit code of 01 or 11 followed by 10 or 11. -/
def code6 (first second : Bool × Bool) : List Bool :=
  match first.1, second.2 with
  | false, false => [false, true, false]
  | false, true => [false, false, true]
  | true, false => [true, false, false]
  | true, true => [true, false, true]

/-- The code of a unit. -/
def codeUnit : List (Bool × Bool) → List Bool
  | [] => []
  | [p] => code3 p
  | p :: q :: r =>
    if p.2 && q.1 then code6 p q ++ [false, false, false] ++ codeUnit r
    else code3 p ++ codeUnit (q :: r)

/-- The pair of a 3-bit word of the left half of Table 08-4, or none. -/
def decode3 : List Bool → Option (Bool × Bool)
  | [false, true, false] => some (false, false)
  | [false, false, true] => some (false, true)
  | [true, false, false] => some (true, false)
  | [true, false, true] => some (true, true)
  | _ => none

/-- The two pairs of a 6-bit code by its first three bits, or none. -/
def decode6 : List Bool → Option ((Bool × Bool) × (Bool × Bool))
  | [true, false, true] => some ((true, true), (true, true))
  | [true, false, false] => some ((true, true), (true, false))
  | [false, false, true] => some ((false, true), (true, true))
  | [false, true, false] => some ((false, true), (true, false))
  | _ => none

/-- The pairs that a unit's channel bits decode to, each with its erasure flag (R281). -/
def decodeUnit (fuel : Nat) (l : List Bool) : List ((Bool × Bool) × Bool) :=
  match fuel with
  | 0 => []
  | n + 1 =>
    match l with
    | a :: b :: c :: r =>
      if r.take 3 = [false, false, false] then
        (match decode6 [a, b, c] with
         | some (p, q) => (p, false) :: (q, false) :: decodeUnit n (r.drop 3)
         | none => ((false, false), true) :: ((false, false), true) :: decodeUnit n (r.drop 3))
      else
        (match decode3 [a, b, c] with
         | some p => (p, false) :: decodeUnit n r
         | none => ((false, false), true) :: decodeUnit n r)
    | _ => []

/-- The ID word of frame `f`, and its whole sync mark (R280). -/
def syncId (f : Nat) : Nat := f * 0x1100 + (f ^^^ 0xF) * 0x10 + 0x4
def syncBody : List Bool := bitList 24 0x402012
def syncMark (f : Nat) : List Bool := syncBody ++ codeUnit (pairs (bitList 16 (syncId f)))

/-- The frame that an ID word names: h0 is 4 and at least two of h3, h2 and h1 XOR 15 agree (R318). -/
def syncFrame (w : Nat) : Option Nat :=
  let h0 := w % 16
  let h1 := (w / 16 % 16) ^^^ 0xF
  let h2 := w / 256 % 16
  let h3 := w / 4096 % 16
  if h0 ≠ 4 then none
  else if h3 = h2 ∨ h3 = h1 then some h3
  else if h2 = h1 then some h2
  else none

/-- Channel bit at which a frame begins in its slot, and the first coded bit of frame byte `k` (Table 08-3, R281). -/
def frameStart (f : Nat) : Nat := 32836 + 32784 * f
def byteBit (f k : Nat) : Nat := frameStart f + 48 + 12 * k

/-! ### Block content (R282 to R285) -/

/-- The address record (Table 08-7). -/
structure AddrRec where
  setId : Nat
  pos : Nat
  kind : Nat
  pba : Nat
  stripe : Nat
  home : Nat
  session : Nat
  j : Nat
  deriving DecidableEq, Repr

def AddrRec.bytes (a : AddrRec) : List Byte :=
  padTo 64 (leBytes 8 a.setId ++ leBytes 1 a.pos ++ leBytes 1 a.kind ++ leBytes 1 (pbaLayer a.pba) ++
    leBytes 1 (b2n (a.pba ≠ a.home) + 2 * a.j) ++ leBytes 4 a.pba ++ leBytes 4 a.stripe ++ leBytes 4 a.home ++ leBytes 2 a.session)

/-- The address record that a content carries. -/
def addrOf (content : List Byte) : AddrRec :=
  let b := slice content 32832 64
  { setId := leAt b 0 8, pos := leAt b 8 1, kind := leAt b 9 1, pba := leAt b 12 4, stripe := leAt b 16 4, home := leAt b 20 4,
    session := leAt b 24 2, j := leAt b 11 1 / 2 % 4 }

/-- The block content of 33,408 bytes: body, address record, zeros, EDC big-endian (Table 08-5). -/
def blockContent (body : List Byte) (a : AddrRec) : List Byte :=
  let b := padTo 32832 body ++ a.bytes ++ List.replicate 508 0
  b ++ beBytes 4 (crc32 b)

/-- The EDC of a content matches. -/
def edcOk (content : List Byte) : Bool := decide (beBytes 4 (crc32 (content.take 33404)) = content.drop 33404)

/-- The exclusive-or of byte strings, over the longer one. -/
def xorBytes : List Byte → List Byte → List Byte
  | [], r => r
  | l, [] => l
  | a :: l, b :: r => (a ^^^ b) :: xorBytes l r

/-- The parity body of a stripe: the exclusive-or of its data bodies (R289). -/
def parityBody (l : List (List Byte)) : List Byte := l.foldl (fun a b => xorBytes a (padTo 32832 b)) (List.replicate 32832 0)

/-! ### The product code (R286, R287) -/

/-- Doubling in GF(2^8) with the field polynomial x^8 + x^4 + x^3 + x^2 + 1. -/
def gfDouble (a : Nat) : Nat := if a < 128 then 2 * a else (2 * a) ^^^ 0x11D

/-- Multiplication in GF(2^8), by the low `n` bits of `b`. -/
def gfMulN : Nat → Nat → Nat → Nat
  | 0, _, _ => 0
  | n + 1, a, b => (if b % 2 = 1 then a else 0) ^^^ gfMulN n (gfDouble a) (b / 2)
def gfMul (a b : Nat) : Nat := gfMulN 8 a b

/-- The powers of the primitive element α = 2. -/
def gfPow : Nat → Nat
  | 0 => 1
  | n + 1 => gfDouble (gfPow n)

/-- A polynomial, highest degree first, at a point. -/
def gfEval (l : List Nat) (x : Nat) : Nat := l.foldl (fun a c => gfMul a x ^^^ c) 0

/-- A word is a codeword of the code with generator roots α^0 to α^(r − 1). -/
def rsWord (r : Nat) (l : List Nat) : Bool := (List.range r).all (fun i => gfEval l (gfPow i) = 0)

/-- The generator polynomial without its leading 1, highest degree first. -/
def rsGen : Nat → List Nat
  | 0 => []
  | n + 1 =>
    let g := 1 :: rsGen n
    ((g ++ [0]).zipWith (fun a b => a ^^^ b) (0 :: g.map (fun c => gfMul c (gfPow n)))).drop 1

/-- One step of the systematic division by the generator. -/
def rsStep (g reg : List Nat) (c : Nat) : List Nat :=
  let f := c ^^^ reg.headD 0
  (reg.drop 1 ++ [0]).zipWith (fun a b => a ^^^ gfMul f b) g

/-- The `r` parity symbols of the data symbols `l`, in descending degree. -/
def rsParity (r : Nat) (l : List Nat) : List Nat := l.foldl (rsStep (rsGen r)) (List.replicate r 0)

/-- The data array of a content: 144 rows of 232 bytes. -/
def contentRows (content : List Byte) : List (List Nat) :=
  (List.range 144).map (fun r => (slice content (232 * r) 232).map (fun b => b.toNat))

/-- Column `c` of an array. -/
def column (rows : List (List Nat)) (c : Nat) : List Nat := rows.map (fun r => r.getD c 0)

/-- The coded array of 176 rows and 248 columns (R286). -/
def codedArray (content : List Byte) : List (List Nat) :=
  let rows := contentRows content
  let par := (List.range 232).map (fun c => rsParity 32 (column rows c))
  let all := rows ++ (List.range 32).map (fun r => par.map (fun p => p.getD r 0))
  all.map (fun r => r ++ rsParity 16 r)

/-- Row and column of frame byte `k` of frame `f` (R287). -/
def frameByte (f k : Nat) : Nat × Nat := (f + 16 * (k % 11), k / 11)

/-- The bytes of frame `f` of a coded array. -/
def frameBytes (arr : List (List Nat)) (f : Nat) : List Nat :=
  (List.range 2728).map (fun k => (arr.getD (frameByte f k).1 []).getD (frameByte f k).2 0)

/-- The channel bits of frame `f`: its sync mark and its coded data (Table 08-3). -/
def frameBits (arr : List (List Nat)) (f : Nat) : List Bool :=
  syncMark f ++ codeUnit (pairs ((frameBytes arr f).foldl (fun a b => a ++ bitList 8 b) []))

/-! ### Correcting (R288) -/

/-- Errors of a correction outside the flagged places. -/
def errorsIn (got fixed : List Nat) (flags : List Bool) : Nat :=
  ((got.zip fixed).zip flags).foldl (fun a x => if !x.2 && x.1.1 ≠ x.1.2 then a + 1 else a) 0
def flagsIn (flags : List Bool) : Nat := flags.foldl (fun a b => if b then a + 1 else a) 0

/-- A word of `r` parity symbols with flags corrects to `w`: 2e + f ≤ r. -/
def corrects (r : Nat) (got : List Nat) (flags : List Bool) (w : List Nat) : Bool :=
  decide (w.length = got.length) && rsWord r w && decide (2 * errorsIn got w flags + flagsIn flags ≤ r)

/-- The inverse in GF(2^8): a^254. -/
def gfPowN (a : Nat) : Nat → Nat
  | 0 => 1
  | n + 1 => gfMul a (gfPowN a n)
def gfInv (a : Nat) : Nat := gfPowN a 254

/-- Sums, products and values of polynomials, lowest degree first. -/
def polyAdd : List Nat → List Nat → List Nat
  | [], r => r
  | l, [] => l
  | a :: l, b :: r => (a ^^^ b) :: polyAdd l r
def polyScale (c : Nat) (l : List Nat) : List Nat := l.map (gfMul c)
def polyMul : List Nat → List Nat → List Nat
  | [], _ => []
  | a :: l, r => polyAdd (polyScale a r) (0 :: polyMul l r)
def polyAt (l : List Nat) (x : Nat) : Nat := l.foldr (fun c a => gfMul a x ^^^ c) 0

/-- The formal derivative. -/
def polyDiff (l : List Nat) : List Nat := ((l.drop 1).zipIdx).map (fun e => if e.2 % 2 = 0 then e.1 else 0)

/-- The syndromes of a word. -/
def syndromes (r : Nat) (l : List Nat) : List Nat := (List.range r).map (fun i => gfEval l (gfPow i))

/-- The locator of the flagged places of a word of `n` symbols. -/
def erasureLoc (n : Nat) (flags : List Bool) : List Nat :=
  (flags.zipIdx).foldl (fun g e => if e.1 then polyMul g [1, gfPow (n - 1 - e.2)] else g) [1]

/-- The discrepancy of a locator at step `i`. -/
def discrepancy (loc synd : List Nat) (i : Nat) : Nat :=
  (loc.zipIdx).foldl (fun a e => if e.2 ≤ i then a ^^^ gfMul e.1 (synd.getD (i - e.2) 0) else a) 0

/-- The Berlekamp and Massey steps from `i` on: locator, correction polynomial, length; `f` flagged places. -/
def locSteps (synd : List Nat) (f : Nat) : Nat → Nat → List Nat → List Nat → Nat → List Nat
  | 0, _, loc, _, _ => loc
  | n + 1, i, loc, cor, len =>
    let d := discrepancy loc synd i
    if d = 0 then locSteps synd f n (i + 1) loc (0 :: cor) len
    else
      let next := polyAdd loc (polyScale d (0 :: cor))
      if 2 * len ≤ i + f then locSteps synd f n (i + 1) next (polyScale (gfInv d) loc) (i + f + 1 - len)
      else locSteps synd f n (i + 1) next (0 :: cor) len

/-- The word with the error values that a locator names taken out. -/
def applyLoc (r : Nat) (got synd loc : List Nat) : List Nat :=
  let om := (polyMul synd loc).take r
  let df := polyDiff loc
  let n := got.length
  (got.zipIdx).map (fun e =>
    let x := gfPow (n - 1 - e.2)
    let y := gfInv x
    if polyAt loc y = 0 then e.1 ^^^ gfMul x (gfMul (polyAt om y) (gfInv (polyAt df y))) else e.1)

/-- The decoding of a word with `r` parity symbols: the codeword within 2e + f ≤ r, when the steps find it.
DESIGN CHOICE, log entry 44. -/
def rsDecode (r : Nat) (got : List Nat) (flags : List Bool) : Option (List Nat) :=
  let f := flagsIn flags
  if r < f then none
  else
    let synd := syndromes r got
    let w := if synd.all (fun x => x = 0) then got
      else
        let g := erasureLoc got.length flags
        applyLoc r got synd (locSteps synd f (r - f) f g g f)
    if corrects r got flags w then some w else none

end Sys2Proof.Machine
end

