-- ==== Sys2Proof/Machine/Settings.lean ====
section
/-!
DEFINITION. The settings store and the firmware store of Heron (spec/16, R506 to R513, R523 to R527), with the commands
STORE_SETTINGS, STORE_SETTINGS_CAPTURE, FW_STAGE and FW_ACTIVATE.
-/

namespace Sys2Proof.Machine

/-! ### Settings copies (R507, R508) -/

def copyAddr (k : Nat) : Nat := 0x10000 * k
def State.copyHead (s : State) (k : Nat) : List Byte := s.nvmBytes (copyAddr k) 256
def copyLen (h : List Byte) : Nat := leAt h 12 4
def copySeq (h : List Byte) : Nat := leAt h 8 4
def State.copyContent (s : State) (k : Nat) : List Byte := s.nvmBytes (copyAddr k + 256) (min 65280 (copyLen (s.copyHead k)))

/-- A copy whose CRC-32 and SHA-384 both match (R513). -/
def State.copyValid (s : State) (k : Nat) : Bool :=
  let h := s.copyHead k
  decide (copyLen h ≤ 65280) &&
    (let c := s.copyContent k
     decide (crc32 (h.take 252 ++ c) = leAt h 252 4) && decide (Config.sha384 c = leAt h 32 48))

/-- A copy that is wholly erased: no byte of its 64 KiB differs from 0xFF. -/
def State.copyErased (s : State) (k : Nat) : Bool :=
  !s.nvm.any (fun e => decide (copyAddr k ≤ e.1 ∧ e.1 < copyAddr k + 0x10000))

/-- The items of a content: type and value (R508). -/
def parseItems (fuel : Nat) (l : List Byte) : Option (List (Nat × List Byte)) :=
  match fuel with
  | 0 => none
  | n + 1 =>
    if l.isEmpty then some []
    else
      let len := leAt l 2 2
      let pad := (len + 3) / 4 * 4
      if l.length < 4 + pad || (slice l (4 + len) (pad - len)).any (fun b => b != 0) then none
      else (parseItems n (l.drop (4 + pad))).map (fun r => (leAt l 0 2, slice l 4 len) :: r)

def itemsOf (l : List Byte) : Option (List (Nat × List Byte)) := parseItems (l.length + 1) l

/-- One item's bytes, padded to a multiple of 4. -/
def itemBytes (typ : Nat) (v : List Byte) : List Byte :=
  leBytes 2 typ ++ leBytes 2 v.length ++ padTo ((v.length + 3) / 4 * 4) v

/-- The value of the item of a type, if the content has one. -/
def itemOf (items : List (Nat × List Byte)) (typ : Nat) : Option (List Byte) := (items.find? (fun e => e.1 = typ)).map (fun e => e.2)

/-- A register that a settings item may name (Table 16-5). -/
def isStorable (k : Nat) : Bool :=
  (decide (k < 0x120000 ∨ 0x130000 ≤ k) && decide (k < 0x400000)) && (match regDesc k with
    | some r => decide (r.storable ≠ 0)
    | none => false)

/-- The pairs of a register-values item. -/
def itemPairs (fuel : Nat) (v : List Byte) : List (Nat × Nat) :=
  match fuel with
  | 0 => []
  | n + 1 => if v.length < 8 then [] else (leAt v 0 4, leAt v 4 4) :: itemPairs n (v.drop 8)

def pairsOf (v : List Byte) : List (Nat × Nat) := itemPairs (v.length + 1) v

/-- The frames of item 0x0005: a drive, a count, and 24-bit frames. -/
def laserFrames (fuel : Nat) (v : List Byte) : List (Nat × Nat) :=
  match fuel with
  | 0 => []
  | n + 1 =>
    if v.length < 2 then []
    else
      let c := leAt v 1 1
      (List.range c).map (fun i => (leAt v 0 1, leAt v (2 + 3 * i) 3)) ++ laserFrames n (v.drop (2 + 3 * c))

/-- The runs of frames of item 0x0005 fill it exactly, each for a drive that exists. -/
def framesFit (fuel : Nat) (v : List Byte) : Bool :=
  match fuel with
  | 0 => false
  | n + 1 =>
    if v.isEmpty then true
    else decide (leAt v 0 1 < 4 ∧ 2 + 3 * leAt v 1 1 ≤ v.length) && framesFit n (v.drop (2 + 3 * leAt v 1 1))

/-- An item is well formed, of a known type, with storable offsets (Table 16-7, check 22). -/
def itemOk (e : Nat × List Byte) : Bool :=
  match e.1 with
  | 0x0001 => decide (e.2.length % 8 = 0) && (pairsOf e.2).all (fun p => isStorable p.1)
  | 0x0002 => decide (e.2.length = 3)
  | 0x0003 => decide (e.2.length = 16)
  | 0x0004 => decide (e.2.length = 528)
  | 0x0005 => framesFit (e.2.length + 1) e.2
  | 0x0006 => decide (e.2.length = 5)
  | 0x0007 => decide (e.2.length % 21 = 0)
  | 0x0008 => decide (e.2.length = 896)
  | 0x0009 => decide (e.2.length = 0)
  | 0x000A => decide (e.2.length = 7)
  | _ => false

/-- Every type but the register values occurs at most once. -/
def noRepeat : List (Nat × List Byte) → Bool
  | [] => true
  | e :: r => (decide (e.1 = 1) || !r.any (fun x => x.1 = e.1)) && noRepeat r

/-- A content whose items pass check 22. -/
def contentOk (c : List Byte) : Bool :=
  match itemsOf c with
  | some l => l.all itemOk && noRepeat l
  | none => false

/-! ### Storing (R510) -/

/-- The 256-byte header of a copy. -/
def copyHeader (seq origin wall : Nat) (owner : Option (List Byte)) (content : List Byte) : List Byte :=
  let b := padTo 252 (asciiHrnSto ++ leBytes 4 seq ++ leBytes 4 content.length ++
    [BitVec.ofNat 8 origin, if owner.isSome then 1 else 0, 0, 0] ++ leBytes 8 wall ++ leBytes 4 0 ++
    leBytes 48 (Config.sha384 content) ++ (match owner with
      | some k => padTo 97 k
      | none => []))
  b ++ leBytes 4 (crc32 (b ++ content))
where
  /-- "HRNSTO01". -/
  asciiHrnSto : List Byte := [0x48, 0x52, 0x4E, 0x53, 0x54, 0x4F, 0x30, 0x31]

/-- Of the copies that are not wholly erased, the one of higher sequence field, copy A on a tie (R513). -/
def State.firstCopy (s : State) : Nat :=
  if s.copyErased 0 then 1 else if s.copyErased 1 then 0 else if copySeq (s.copyHead 0) < copySeq (s.copyHead 1) then 1 else 0

/-- The copy that R513 takes, and whether it is a fallback. -/
def State.bestCopy (s : State) : Option (Nat × Bool) :=
  let first := s.firstCopy
  let other := 1 - first
  if !s.copyErased first && s.copyValid first then some (first, false)
  else if !s.copyErased other && s.copyValid other then some (other, true)
  else none

/-- A copy becomes the one in force. -/
def State.takeCopy (s : State) (k : Nat) (fallback : Bool) : State :=
  let h := s.copyHead k
  let c := s.copyContent k
  let s := { s with nvs := { s.nvs with
    copy := k, fallback := fallback, factory := false, seq := copySeq h, origin := leAt h 16 1,
    owner := if leAt h 17 1 % 2 = 1 then some (slice h 80 97) else none, content := c,
    formatArmed := (itemOf ((itemsOf c).getD []) 9).isSome } }
  let s := s.ctrRaise 2 (copySeq h)
  if fallback then s.note .settingsFallback (copySeq h) else s

/-- The image stored last takes effect at a warm reset (R512). DEDUCED, log entry 33. -/
def State.reloadSettings (s : State) : State :=
  match s.bestCopy with
  | some (k, fallback) => if k = s.nvs.copy ∧ copySeq (s.copyHead k) = s.nvs.seq ∧ s.nvs.factory = false then s else s.takeCopy k fallback
  | none => s

/-- The copy that a store writes (R510, step 1). -/
def State.storeTarget (s : State) : Nat :=
  let a := s.copyValid 0
  let b := s.copyValid 1
  if a && b then 1 - s.firstCopy
  else if a then 1
  else 0

/-- A content becomes the next settings copy; counter 2 is raised to its sequence, and its owner
key is the one in force (R510). DEDUCED, log entry 27. -/
def State.storeSettings (s : State) (content : List Byte) (seq origin : Nat) (owner : Option (List Byte)) : State :=
  let k := s.storeTarget
  let s := s.nvmWrite (copyAddr k + 256) content
  let s := s.nvmWrite (copyAddr k) (copyHeader seq origin s.tm.sec owner content)
  ({ (s.ctrRaise 2 seq) with nvs := { (s.ctrRaise 2 seq).nvs with owner := owner } }).note .settingsStored seq

/-- The signer key of a package, its content, and the checks 16 to 23 of Table 16-7: the first that fails. -/
def State.settingsCheck (s : State) (d : List Byte) : Option Nat :=
  let len := leAt d 12 4
  let flags := leAt d 16 1
  let key := slice d 256 97
  let content := slice d 512 len
  let zero (a n : Nat) : Bool := (slice d a n).all (fun b => b == 0)
  let magic : List Byte := [0x48, 0x52, 0x4E, 0x53, 0x45, 0x54, 0x30, 0x31]
  let layout := decide (slice d 0 8 = magic) && decide (flags < 4) && zero 17 15 && zero 193 63 && zero 353 31 && zero 480 32 &&
    (decide (flags % 2 = 1) || zero 32 16) && (decide (2 ≤ flags) || zero 96 97)
  let signer := (match s.nvs.owner with
    | some k => decide (key = k)
    | none => decide (Config.sha384 key = Config.settingsKeyDigest))
  if !layout then some 16
  else if 65280 < len ∨ len % 4 ≠ 0 ∨ d.length < (512 + len + 4095) / 4096 * 4096 then some 17
  else if !signer then some 18
  else if !Config.ecdsaOk key (d.take 384) (slice d 384 96) then some 19
  else if Config.sha384 content ≠ leAt d 48 48 then some 20
  else if flags % 2 = 1 ∧ leAt d 32 16 ≠ Config.deviceDigest then some 21
  else if !contentOk content then some 22
  else if leAt d 8 4 ≤ s.ctr 2 then some 23
  else none

/-- STORE_SETTINGS with data (R509, R510). -/
def execStoreSettings (id : Nat) (s : State) : Host.Outcome State Fault Refusal :=
  .next (withCmd id .store s (fun c s =>
    if ePtr c.entry = 0 then s
    else
      let d := c.data
      match s.settingsCheck d with
      | some n => s.complete c stImage n false
      | none =>
        let owner := if 2 ≤ leAt d 16 1 then some (slice d 96 97) else s.nvs.owner
        ((s.storeSettings (slice d 512 (leAt d 12 4)) (leAt d 8 4) 1 owner)).complete c stSuccess 0 false))

/-- The value of a storable register in force for the current epoch (R511). -/
def State.inForce (s : State) (k : Nat) : Word := if isEpochReg k then Bank.get regReset s.nextSet k else s.reg k

/-- The storable registers. -/
def storableKeys : List Nat := ((List.range 0x50000).map (fun n => 4 * n)).filter isStorable

/-- The default of a register: its reset value, and the running firmware's for fields whose reset is "From NVM". -/
def regDefault (k : Nat) : Nat :=
  (regReset k ||| (Config.fwDefault k &&& (match regDesc k with
    | some r => BitVec.ofNat 32 r.fromNvm
    | none => 0))).toNat

/-- The last pair of the content in force that names a register. -/
def State.storedPair (s : State) (k : Nat) : Option Nat :=
  let l := (((itemsOf s.nvs.content).getD []).filter (fun e => e.1 = 1)).foldl (fun a e => a ++ pairsOf e.2) []
  ((l.filter (fun e => e.1 = k)).getLast?).map (fun e => e.2)

/-- The value a pair asks for: bits outside the storable fields are ignored (R508). -/
def storedCand (r : RegDesc) (k v : Nat) : Nat := (v &&& r.storable) ||| (regDefault k - (regDefault k &&& r.storable))

/-- The pair's value with every field that lies outside its range at its default (R508). -/
def storedFit (r : RegDesc) (k v : Nat) : Nat :=
  let d := regDefault k
  if k = 0x100074 then (if thermOk (storedCand r k v) then storedCand r k v else d)
  else pairRules k d (r.checks.foldl (rangeKeep d) (storedCand r k v))

/-- The stored value of a register: that of the last pair that names it in the content in force, or the firmware's default (R508). -/
def State.storedReg (s : State) (k : Nat) : Nat :=
  match s.storedPair k, regDesc k with
  | some v, some r => storedFit r k v
  | _, _ => regDefault k

/-- The stored value of a register holds a field outside its range. -/
def State.storedBad (s : State) (k : Nat) : Bool :=
  match s.storedPair k, regDesc k with
  | some v, some r => decide (storedFit r k v ≠ storedCand r k v)
  | _, _ => false

/-- The bytes of an item of register values. -/
def pairBytes (l : List (Nat × Nat)) : List Byte := l.foldl (fun a p => a ++ leBytes 4 p.1 ++ leBytes 4 p.2) []

/-- The content of a capture: the stored content with one item of register values in place of the others; without the format request
when `disarm` (R511). -/
def State.captureContent (s : State) (disarm : Bool) : List Byte :=
  let stored := (match s.bestCopy with
    | some (k, _) => s.copyContent k
    | none => [])
  let items := (itemsOf stored).getD []
  let keep := items.filter (fun e => decide (e.1 ≠ 1) && !(disarm && decide (e.1 = 9)))
  let regs := storableKeys.map (fun k => (k, (s.inForce k).toNat))
  let tail := keep.foldl (fun a e => a ++ itemBytes e.1 e.2) []
  if disarm then items.foldl (fun a e => if e.1 = 9 then a else a ++ itemBytes e.1 e.2) []
  else itemBytes 1 (pairBytes regs) ++ tail

/-- STORE_SETTINGS with dlen 0 (R511). -/
def execStoreSettingsCapture (id : Nat) (s : State) : Host.Outcome State Fault Refusal :=
  .next (withCmd id .store s (fun c s =>
    if ePtr c.entry = 0 then
      (s.storeSettings (s.captureContent false) (s.ctr 2 + 1) 2 s.nvs.owner).complete c stSuccess 0 false
    else s))

/-! ### The slot record (R524) -/

/-- The slot record. -/
structure SlotRec where
  seq : Nat
  active : Nat
  trial : Nat
  previous : Nat
  valid : Nat
  verA : Nat
  verB : Nat
  secA : Nat
  secB : Nat
  deriving DecidableEq, Repr

def slotAddr (k : Nat) : Nat := 0x27C00 + 64 * k
/-- "HRNSLOT1". -/
def slotMagic : List Byte := [0x48, 0x52, 0x4E, 0x53, 0x4C, 0x4F, 0x54, 0x31]

/-- A copy of the record, if it is valid. -/
def State.slotCopy (s : State) (k : Nat) : Option SlotRec :=
  let b := s.nvmBytes (slotAddr k) 64
  if b.take 8 = slotMagic ∧ crc32 (slice b 0 60) = leAt b 60 4 then
    some ⟨leAt b 8 4, leAt b 12 1, leAt b 13 1, leAt b 14 1, leAt b 15 1, leAt b 16 4, leAt b 20 4, leAt b 24 4, leAt b 28 4⟩
  else none

/-- With no valid copy: active A, previous B, trial 0, both slots valid (R524). -/
def SlotRec.absent : SlotRec := ⟨0, 0, 0, 1, 3, 0, 0, 0, 0⟩

/-- The record in force and the copy that holds it. -/
def State.slotRecord (s : State) : SlotRec × Nat :=
  match s.slotCopy 0, s.slotCopy 1 with
  | some a, some b => if a.seq < b.seq then (b, 1) else (a, 0)
  | some a, none => (a, 0)
  | none, some b => (b, 1)
  | none, none => (SlotRec.absent, 1)

/-- The 64 bytes of a record. -/
def SlotRec.bytes (r : SlotRec) : List Byte :=
  let b := padTo 60 (slotMagic ++ leBytes 4 r.seq ++ leBytes 1 r.active ++ leBytes 1 r.trial ++ leBytes 1 r.previous ++ leBytes 1 r.valid ++
    leBytes 4 r.verA ++ leBytes 4 r.verB ++ leBytes 4 r.secA ++ leBytes 4 r.secB)
  b ++ leBytes 4 (crc32 b)

/-- The record is written to the copy not in force, its sequence one above (R440, R524). -/
def State.writeSlot (s : State) (r : SlotRec) : State :=
  let (old, k) := s.slotRecord
  s.nvmWrite (slotAddr (1 - k)) { r with seq := old.seq + 1 }.bytes

/-- A slot is marked valid with its versions, or not valid. -/
def SlotRec.mark (r : SlotRec) (slot : Nat) (ok : Bool) (ver sec : Nat) : SlotRec :=
  let r := { r with valid := setBitN r.valid slot ok }
  if slot = 0 then { r with verA := ver, secA := sec } else { r with verB := ver, secB := sec }

/-! ### Firmware (R523, R525, R526) -/

/-- The first of the checks 1 to 6 of Table 16-7 that an image fails. -/
def State.firmwareCheck (s : State) (d : List Byte) : Option Nat :=
  let zero (a n : Nat) : Bool := (slice d a n).all (fun b => b == 0)
  let magic : List Byte := [0x48, 0x52, 0x4E, 0x46, 0x57, 0x30, 0x30, 0x31]
  let len := leAt d 16 4
  let key := slice d 128 97
  if !(decide (slice d 0 8 = magic) && zero 21 3 && zero 80 48 && zero 225 159 && zero 480 32) then some 1
  else if 523776 < len ∨ len % 4 ≠ 0 ∨ d.length < 512 + len then some 2
  else if 4 ≤ leAt d 20 1 ∨ Config.sha384 key ≠ Config.bootRomKeyDigest (leAt d 20 1) then some 3
  else if !Config.ecdsaOk key (d.take 384) (slice d 384 96) then some 4
  else if Config.sha384 (slice d 512 len) ≠ leAt d 24 48 then some 5
  else if leAt d 12 4 < s.ctr 3 then some 6
  else none

/-- The image of a slot, and a slot's image replaced. -/
def State.image (s : State) (slot : Nat) : List Byte := if slot = 0 then s.fw.imageA else s.fw.imageB
def State.setImage (s : State) (slot : Nat) (l : List Byte) : State :=
  { s with fw := if slot = 0 then { s.fw with imageA := l } else { s.fw with imageB := l } }

/-- A chunk at offset 0 first marks the slot not valid, cancels an armed trial of it, and erases it (R525). -/
def State.beginStage (s : State) (slot : Nat) : State :=
  let (r, _) := s.slotRecord
  let r := r.mark slot false 0 0
  let r := if r.trial = 1 ∧ r.active = slot then { r with active := s.boot.slot, trial := 0 } else r
  let s := (s.writeSlot r).setImage slot []
  { s with fw := { s.fw with staged := 0 } }

/-- FW_STAGE (R525). -/
def execFwStage (id : Nat) (s : State) : Host.Outcome State Fault Refusal :=
  .next (withCmd id .stage s (fun c s =>
    let slot := 1 - s.boot.slot
    let off := eArg0 c.entry
    let len := eLen c.entry
    if (off ≠ 0 ∧ off ≠ s.fw.staged) ∨ 524288 < off + len then s.complete c stField (fieldResult 8 noElem) false
    else
      let s := if off = 0 then s.beginStage slot else s
      let s := s.setImage slot (s.image slot ++ c.data)
      let s := { s with fw := { s.fw with staged := off + len } }
      if eByte c.entry 44 % 2 = 0 then s.complete c stSuccess s.fw.staged false
      else
        match s.firmwareCheck (s.image slot) with
        | some n => s.complete c stImage n false
        | none =>
          let d := s.image slot
          let s := s.writeSlot (s.slotRecord.1.mark slot true (leAt d 8 4) (leAt d 12 4))
          (s.note .firmwareStaged slot).complete c stSuccess s.fw.staged false))

/-- FW_ACTIVATE (R526). -/
def execFwActivate (id : Nat) (s : State) : Host.Outcome State Fault Refusal :=
  .next (withCmd id .activate s (fun c s =>
    let slot := eByte c.entry 44
    let r := s.slotRecord.1
    if !bitN r.valid slot then s.complete c stState (s.getInst 0).state.code false
    else
      let r := if slot = s.boot.slot then { r with active := slot, trial := 0 }
        else { r with active := slot, previous := s.boot.slot, trial := 1 }
      (s.writeSlot r).complete c stSuccess 0 false))

end Sys2Proof.Machine
end

