-- ==== Sys2Proof/Machine/Drive.lean ====
section
/-!
DEFINITION. What the drive families share: drives and axes by number, input levels in use (R557, R560), the trim values in force
(R425), coverage (R439), and the write gate (R32, Table 01-4).
-/

namespace Sys2Proof.Machine

/-! ### Drives and axes by number -/

def State.drive (s : State) (d : Nat) : Drive := nth Drive.reset s.drives d
def State.modDrive (s : State) (d : Nat) (g : Drive → Drive) : State := { s with drives := modNth g s.drives d }

/-- Axis number of a drive's role, and the parts of an axis number (R16). -/
def axisOf (d role : Nat) : Nat := 4 * d + role
def Drive.axis (r : Drive) (k : Nat) : Ax := nth Ax.reset r.ax k
def State.axis (s : State) (a : Nat) : Ax := (s.drive (a / 4)).axis (a % 4)
def State.modAxis (s : State) (a : Nat) (g : Ax → Ax) : State := s.modDrive (a / 4) (fun r => { r with ax := modNth g r.ax (a % 4) })

/-- Changes of the parts of a drive. -/
def State.modSpin (s : State) (d : Nat) (g : Spindle → Spindle) : State := s.modDrive d (fun r => { r with spin := g r.spin })
def State.modSled (s : State) (d : Nat) (g : Sled → Sled) : State := s.modDrive d (fun r => { r with sled := g r.sled })
def State.modRdc (s : State) (d : Nat) (g : ReadChannel → ReadChannel) : State := s.modDrive d (fun r => { r with rdc := g r.rdc })
def State.modWst (s : State) (d : Nat) (g : WriteStrategy → WriteStrategy) : State := s.modDrive d (fun r => { r with wst := g r.wst })

/-- Time in 1/32,768 ms that never goes back (R522). -/
def State.fine (s : State) : Nat := s.tm.mono * 32768 + s.tm.monoRem

/-! ### Discs present -/

/-- A drive holds a disc: qualified present, tray and door closed, and its RF domain runs (R460). -/
def State.hasDisc (s : State) (d : Nat) : Bool := (s.drive d).disc && s.shut d && bitN (Cf.CLK_GATE_RUN_en s) (3 + d)

/-! ### Temperatures (R424) -/

/-- The die temperature: the mean of the sites not excluded, after their offsets. -/
def State.dieTemp (s : State) : Int :=
  let l := (List.range 4).filter (fun k => !bitN s.sns.excl k)
  if l.isEmpty then 0
  else Int.tdiv (l.foldl (fun a k => a + nth 0 s.sns.site k + nth 0 s.cal.siteOfs k) 0) l.length

/-- The points of a drive's thermistor table (settings item 0x0004): code and temperature. -/
def State.thermTable (s : State) (d : Nat) : Option (List (Nat × Int)) :=
  (itemOf ((itemsOf s.nvs.content).getD []) 4).map (fun c =>
    (List.range 33).map (fun k => (leAt c (132 * d + 4 * k) 2, sext 16 (leAt c (132 * d + 4 * k + 2) 2))))

/-- Linear interpolation of a code between points, clamped at the ends (Table 16-5). -/
def thermAt : List (Nat × Int) → Nat → Int
  | [], _ => 0
  | [p], _ => p.2
  | p :: q :: r, c =>
    if c ≤ p.1 then p.2
    else if c ≤ q.1 then p.2 + Int.tdiv ((q.2 - p.2) * ((c : Int) - p.1)) ((q.1 : Int) - p.1)
    else thermAt (q :: r) c

/-- A drive's thermistor is out of range or stuck (Table 18-8). -/
def State.thermFault (s : State) (d : Nat) : Bool := bitN s.inp.range d

/-- The drive temperature: its thermistor's, or the die's while that is faulted (R424). -/
def State.driveTemp (s : State) (d : Nat) : Int :=
  if s.thermFault d then s.dieTemp
  else
    let c := nth 0 s.sns.thm d
    (match s.thermTable d with
     | some l => thermAt l c
     | none => Config.fwThermistor c) + nth 0 s.cal.driveOfs d

/-! ### Trim values in force (R425) -/

/-- Numbers of the calibration values: the oscillator code; per drive the offsets and gain trims of SVA to SVD and RF, the gains, the
laser characteristic; per layer foc_off, bal, qual, amp0 and the zone factors (Table 13-3). -/
def calOsc : Nat := 0
def calVal (d n : Nat) : Nat := 1000 * (d + 1) + n
def calLayer (d l n : Nat) : Nat := calVal d (100 * (l + 1) + n)
def calGain (role : Nat) : Nat := 10 + role
def calIth : Nat := 12
def calEta : Nat := 13
def calZf (z : Nat) : Nat := 10 + z

/-- The set temperatures in 1/16 °C. -/
def setTemp (k : Nat) : Int := nth 0 [-480, 0, 400, 880, 1360] k

/-- The value of a set, if it is valid. -/
def State.setVal (s : State) (k n : Nat) : Option Int := Bank.get calDef s.cal.vals (k * 65536 + n)

/-- The index of the lower bracketing set: the largest k up to 3 with T_k ≤ T. -/
def lowerSet (t : Int) : Nat := if 880 ≤ t then 3 else if 400 ≤ t then 2 else if 0 ≤ t then 1 else 0

/-- The sets that hold a value, nearest to `t` first; the lower one on a tie. -/
def State.nearSet (s : State) (n : Nat) (t : Int) : Option Nat :=
  ((List.range 5).filter (fun k => (s.setVal k n).isSome)).foldl (fun a k =>
    match a with
    | none => some k
    | some j => if (setTemp k - t).natAbs < (setTemp j - t).natAbs then some k else some j) none

/-- The stored part of settings item 0x0008 for a value, by its place in Table 13-3, or the firmware's default. -/
def State.calFactory (s : State) (n : Nat) : Int :=
  match itemOf ((itemsOf s.nvs.content).getD []) 8 with
  | none => Config.calDefault n
  | some c =>
    if n < 1000 then Config.calDefault n
    else
      let d := n / 1000 - 1
      let k := n % 1000
      let b := 224 * d
      if k < 10 then sext 16 (leAt c (b + 2 * k) 2)
      else if k < 14 then (leAt c (b + 2 * k) 2 : Int)
      else
        let l := b + 32 + 96 * (k / 100 - 1)
        let m := k % 100
        if m = 0 then sext 32 (leAt c l 4)
        else if m = 1 then sext 32 (leAt c (l + 4) 4)
        else if m = 2 then (leAt c (l + 8) 1 : Int)
        else if m = 3 then (leAt c (l + 10) 2 : Int)
        else (leAt c (l + 12 + 2 * (m - 10)) 2 : Int)

/-- value_at (R425): the value in force of number `n` at temperature `t`. -/
def State.calAt (s : State) (n : Nat) (t : Int) : Int :=
  let t := clampI (setTemp 0) (setTemp 4) t
  let k := lowerSet t
  match s.setVal k n, s.setVal (k + 1) n with
  | some a, some b =>
    let w := tdiv ((t - setTemp k) * 4096) (setTemp (k + 1) - setTemp k)
    a + asr ((b - a) * w + 2048) 12
  | some a, none => a
  | none, some b => b
  | none, none =>
    (match s.nearSet n t with
     | some j => (s.setVal j n).getD 0
     | none => s.calFactory n)

/-- The value in force of a drive's value, at the drive temperature for which it was last computed (R427). -/
def State.trimTemp (s : State) (d : Nat) : Int := nth 0 s.cal.tApplied d
/-- The die temperature for which the values that it indexes were last computed (R427). -/
def State.trimDie (s : State) : Int := nth 0 s.cal.tApplied 4
def State.trim (s : State) (d n : Nat) : Int := s.calAt (calVal d n) (s.trimTemp d)
def State.trimLayer (s : State) (d l n : Nat) : Int := s.calAt (calLayer d l n) (s.trimTemp d)

/-- A value draws on a valid set within CAL.CFG.span of the drive temperature (R439). -/
def State.valueCovers (s : State) (d n : Nat) : Bool :=
  match s.nearSet n (s.driveTemp d) with
  | some k => decide ((setTemp k - s.driveTemp d).natAbs ≤ 16 * Cf.CAL_CFG_span s)
  | none => false

/-- A trim set covers a drive for writing on a layer (R439). -/
def State.covers (s : State) (d l : Nat) : Bool :=
  !bitN s.cal.faulted d && s.valueCovers d (calVal d (calGain 0)) && s.valueCovers d (calVal d (calGain 1)) &&
    s.valueCovers d (calVal d calIth) && s.valueCovers d (calVal d calEta) && s.valueCovers d (calLayer d l 0) &&
    s.valueCovers d (calLayer d l 1)

/-! ### Items of Avocet (R423, R436, R438, R441) -/

/-- An item's entry. -/
def State.calItem (s : State) (kind d : Nat) : CalItem := Bank.get calItemDef s.cal.items (4 * kind + d)
def State.modItem (s : State) (kind d : Nat) (g : CalItem → CalItem) : State :=
  { s with cal := { s.cal with items := Bank.set calItemDef s.cal.items (4 * kind + d) (g (s.calItem kind d)), dirty := s.cal.dirty ||| 32 } }

/-- An item becomes due; one that is due or runs is not added again. -/
def State.calDue (s : State) (kind d : Nat) : State :=
  if s.cal.due.any (fun e => decide (e.1 = kind ∧ e.2.1 = d)) || (match s.cal.running with
    | some (k, x, _) => decide (k = kind ∧ x = d)
    | none => false) then s
  else { s with cal := { s.cal with due := s.cal.due ++ [(kind, d, s.tm.mono)] } }

/-- An item falls due by a trigger of Table 13-2, unless its kind runs on command only or it has failed three times in a row (R438). -/
def State.calFallsDue (s : State) (kind d : Nat) : State :=
  if bitN (Cf.CAL_CTL_auto s) kind && decide ((s.calItem kind d).inRow < 3) then s.calDue kind d else s

/-- An item of kinds 4 to 7 uses a drive now (R437). -/
def State.calUses (s : State) (d : Nat) : Bool :=
  match s.cal.running with
  | some (k, e, _) => decide (4 ≤ k ∧ k ≤ 7 ∧ e = d)
  | none => false

/-- An item has been calibrated at a temperature, or has failed (R438, R441). -/
def State.calCount (s : State) (kind d : Nat) (temp : Int) : State :=
  s.modItem kind d (fun x => { count := inc16 x.count, fails := x.fails, temp := temp, secs := s.tm.sec, inRow := 0 })
def State.calFailed (s : State) (kind d : Nat) : State :=
  let s := s.modItem kind d (fun x => { x with fails := inc16 x.fails, inRow := x.inRow + 1 })
  ({ s with cal := { s.cal with failMask := s.cal.failMask ||| 2 ^ d } }).note .calFailed (kind + 16 * d)

/-! ### Replacement of a stripe (R294, R295) -/

/-- Zones in the order in which a spare is sought for a home slot. -/
def spareOrder (layers l z : Nat) : List (Nat × Nat) :=
  ((List.range (40 - z)).map (fun k => (l, z + k))) ++ ((List.range z).map (fun k => (l, z - 1 - k))) ++
    (if layers = 2 then (List.range 40).map (fun k => (1 - l, k)) else [])

/-- The next unused spare for a home PBA: layer, zone, PBA. -/
def State.nextSpare (s : State) (home : Nat) : Option (Nat × Nat × Nat) :=
  let l := pbaLayer home
  ((spareOrder s.arc.layers l (slotZone l (pbaSlot home))).find? (fun e =>
    decide (Bank.get natDef s.arc.spare (e.1 * 40 + e.2) < 1024))).map (fun e =>
      (e.1, e.2, e.1 * 2 ^ 20 + spareFirst e.1 e.2 + Bank.get natDef s.arc.spare (e.1 * 40 + e.2)))

/-- The segments that have a block in a stripe. -/
def Stripe.segs (t : Stripe) : List Nat := ((t.blocks.filter (fun b => b.kind = 1)).map (fun b => b.seg)).eraseDups

/-- The set takes no more: recording stops and the segments not wholly verified go back to the queue, pinned (R295). -/
def State.stopRecording (s : State) : State :=
  { s with
    arc := { s.arc with ready := [], going := [], active := [], part := [], pend := s.runsDone, form := s.firstOpen, next := s.firstOpen },
    fss := { s.fss with segs := s.fss.segs.map (fun (g : Segment) =>
      if g.active ∧ g.verified.length < g.blocks then { g with active := false, formatted := 0, verified := [] } else g) } }

/-- The set has no spare left, or an area of its structures is used up (R295, R298); the queue then waits for another set (R35). -/
def State.setIsFull (s : State) : State :=
  if s.arc.full then s
  else
    let s := s.stopRecording
    (({ s with arc := { s.arc with full := true } }).note .setFull s.arc.setId).noteWaiting

/-- A stripe whose recording failed is to be recorded again whole at the next spare (R40, R294). -/
def State.replaceStripe (s : State) (n : Nat) : State :=
  match s.arc.going.find? (fun t => t.num = n) with
  | none => s
  | some t =>
    match s.nextSpare t.home with
    | none => s.setIsFull
    | some (l, z, pba) =>
      let key := l * 40 + z
      let s := { s with arc := { s.arc with
        going := s.arc.going.filter (fun x => x.num ≠ n),
        ready := { t with pba := pba, on := [], ok := [], bad := false, open_ := [] } :: s.arc.ready,
        spare := Bank.set natDef s.arc.spare key (Bank.get natDef s.arc.spare key + 1),
        replaced := inc16 s.arc.replaced } }
      forEach t.segs (fun g u => u.modSeg g (fun x => { x with replaced := true })) s

/-- A position of a stripe in recording has ended badly; with no other result outstanding the stripe is replaced. -/
def State.stripeBad (s : State) (n p : Nat) : State :=
  let s := { s with arc := { s.arc with going := s.arc.going.map (fun (t : Stripe) =>
    if t.num = n then { t with bad := true, open_ := t.open_.filter (fun x => x ≠ p) } else t) } }
  if s.arc.going.any (fun t => decide (t.num = n) && t.open_.isEmpty) then s.replaceStripe n else s

/-! ### The write gate (R32, Table 01-4) -/

/-- An axis is closed and inside its lock window. -/
def Ax.holds (x : Ax) : Bool := decide (x.st = .closed) && x.locked

/-- Every condition of Table 01-4 holds; coverage is judged at the start of a slot, a faulted converter at once (R439). -/
def State.gateOk (s : State) (d : Nat) : Bool :=
  let r := s.drive d
  s.serving && !s.stl.alarm && bitN s.pwb.run d && (r.axis 0).holds && (r.axis 1).holds && decide ((r.axis 2).st = .closed) &&
    r.spin.locked && decide (r.spin.st = .run) &&
    (if r.wst.burst.isSome then !bitN s.cal.faulted d else s.covers d r.layer) &&
    s.setWritable && (s.posOf d).isSome && s.hasDisc d

/-- A frame of the laser serial port: bit 23 is 0, the driver address lies in bits 22 to 16, the value in bits 15 to 0 (R331). -/
def laserFrame (addr : Nat) (value : BitVec 16) : Nat := (addr % 128) * 2 ^ 16 + value.toNat

/-- The read level is written to a drive's laser driver (R331, R332). -/
def State.laserRead (s : State) (d : Nat) : State := s.emit (.laserFrame d (laserFrame (Cf.WST_LDADDR_read s d) (Config.laserLevel 0 0)))

/-- ΔPs, ΔPw and ΔPo are written for a demand (R330, R331). -/
def State.laserWrite (s : State) (d : Nat) (demand : Int) : State :=
  ((s.emit (.laserFrame d (laserFrame (Cf.WST_LDADDR_space s d) (Config.laserLevel 1 demand)))).emit
    (.laserFrame d (laserFrame (Cf.WST_LDADDR_write s d) (Config.laserLevel 2 demand)))).emit
    (.laserFrame d (laserFrame (Cf.WST_LDADDR_over s d) (Config.laserLevel 3 demand)))

/-- The gate closes: the pulses stop, the driver takes the read level, and a slot in recording is abandoned (R332, R40). -/
def State.closeGate (s : State) (d : Nat) : State :=
  let w := (s.drive d).wst
  let s := (s.modWst d (fun w => { w with gate := false, burst := none, sent := 0, shutSince := s.tm.mono })).laserRead d
  match w.burst, s.posOf d with
  | some n, some p => s.stripeBad n p
  | _, _ => s

/-- The gate of a drive follows its conditions. -/
def State.gate (s : State) (d : Nat) : State :=
  let ok := s.gateOk d
  if (s.drive d).wst.gate then (if ok then s else s.closeGate d)
  else if ok then s.modWst d (fun w => { w with gate := true }) else s

/-- Every gate follows its conditions; a slot that a closing gate abandons can leave the set full, which closes the others too. -/
def State.gatesOnce (s : State) : State := forBelow 4 (fun d t => t.gate d) s
def State.gates (s : State) : State := s.gatesOnce.gatesOnce

/-- LDEN is high while light is wanted of a drive with a disc and both covers shut (R333). -/
def Drive.wantsLight (r : Drive) : Bool :=
  decide ((r.axis 0).st = .ramp ∨ (r.axis 0).st = .closed ∨ (r.axis 0).st = .seq) || r.rdc.started
def State.lights (s : State) : State :=
  forBelow 4 (fun d t => t.modWst d (fun w => { w with lden := (t.drive d).wantsLight && t.hasDisc d && t.running })) s

/-- The read channel runs while FOC and TRK are closed, the channel clock is locked and a trim set covers the drive (R310). -/
def State.channels (s : State) : State :=
  forBelow 4 (fun d t =>
    let r := t.drive d
    let on := t.hasDisc d && decide ((r.axis 0).st = .closed) && decide ((r.axis 1).st = .closed) && r.rdc.clkLock && t.covers d r.layer
    t.modRdc d (fun c => { c with started := on })) s

/-- What follows every change of a drive: the gates, the read channels and the laser enables. -/
def State.settle (s : State) : State := s.gates.channels.lights

end Sys2Proof.Machine
end

