-- ==== Sys2Proof/Machine/Axis.lean ====
section
/-!
DEFINITION. The servo engine's arithmetic (spec/10): signals and the defect detector (R341 to R345), the compensator (R346, R347),
the set-points (R353, R355, R357, R384 to R387), opening and closing an axis (R349 to R354), acquisition, jump and seek (R360 to R364).
-/

namespace Sys2Proof.Machine

/-! ### Arithmetic (R346) -/

/-- rnd(a, s), and sat32. DESIGN CHOICE, log entry 43. -/
def rnd (a : Int) (k : Nat) : Int := asr (a + (2 ^ (k - 1) : Nat)) k
def sat32 (a : Int) : Int := satS 32 a

/-- 1.0 in Q4.28. -/
def q28 : Int := 268435456

/-- A coefficient of a bank of an axis (Table 10-8). -/
def State.coef (s : State) (a bank off : Nat) : Int := sext 32 (s.reg (0x0C0100 + a * 0x1000 + bank * 0x40 + off)).toNat

/-- One biquad: `c` gives b0, b1, b2, a1, a2. -/
def Biquad.run (c : Nat → Int) (q : Biquad) (x : Int) : Int × Biquad :=
  let y := sat32 (rnd (c 0 * x + c 1 * q.x1 - c 3 * q.y1 + c 2 * q.x2 - c 4 * q.y2) 30)
  (y, ⟨x, q.x1, y, q.y1⟩)

/-- A quotient rounded to nearest. -/
def roundDiv (a b : Int) : Int := Int.fdiv (2 * a + b) (2 * b)

/-! ### Signals and the defect detector (R341, R342, R344) -/

/-- The offset of servo converter `k` in codes (R341). -/
def State.adcOfs (s : State) (d k : Nat) : Int := s.calAt (calVal d k) s.trimDie

/-- The four inputs of a sample less their offsets. -/
def State.pick (s : State) (d : Nat) (x : Pickup) : Int × Int × Int × Int :=
  ((x.a.toNat : Int) - s.adcOfs d 0, (x.b.toNat : Int) - s.adcOfs d 1, (x.c.toNat : Int) - s.adcOfs d 2, (x.d.toNat : Int) - s.adcOfs d 3)

/-- One sample of the detector (R344): level, flag, flag seen in this tick. DESIGN CHOICE, log entry 43. -/
def detect (dlev : Nat) (st : Int × Bool × Bool) (v : Int) : Int × Bool × Bool :=
  let (g, flag, seen) := st
  if flag then
    (if asr (g * (dlev + 1)) 4 ≤ v then (g + asr (v - g) 10, false, seen) else (g, true, true))
  else if v < asr (g * dlev) 4 then (g, true, true)
  else (g + asr (v - g) 10, false, seen)

/-- The signals of a tick from its 16 samples, with the TE zero crossings in it; FE and TE are free values while S is below sum_min.
DESIGN CHOICE, log entry 43. -/
def State.latch (s : State) (d : Nat) (l : List Pickup) : State :=
  let r := s.drive d
  let xs := l.map (s.pick d)
  let sum := xs.foldl (fun a x => (a.1 + x.1, a.2.1 + x.2.1, a.2.2.1 + x.2.2.1, a.2.2.2 + x.2.2.2)) ((0, 0, 0, 0) : Int × Int × Int × Int)
  let a := sum.1 * 4096
  let b := sum.2.1 * 4096
  let c := sum.2.2.1 * 4096
  let e := sum.2.2.2 * 4096
  let total := a + b + c + e
  let foc := axisOf d 0
  let ok := decide (0 < total ∧ (Cf.SRV_DEF_CFG_sum_min s foc : Int) * 65536 ≤ total)
  let bal := s.trimLayer d r.layer 1
  let fe := if ok then roundDiv ((a + c - (b + e)) * q28) total - s.trimLayer d r.layer 0 else sext 32 s.freeVal
  let te := if ok then roundDiv ((a + e - (b + c)) * q28 - bal * total) total else sext 32 (Config.freeNat (s.free + 1))
  let det := xs.foldl (fun st x => detect (Cf.SRV_DEF_CFG_dlev s foc) st ((x.1 + x.2.1 + x.2.2.1 + x.2.2.2) * 65536)) (r.g, r.flag, false)
  let tes := xs.map (fun x => (x.1 + x.2.2.2 - (x.2.1 + x.2.2.1)) * q28 - bal * (x.1 + x.2.1 + x.2.2.1 + x.2.2.2))
  let cross := tes.foldl (fun (st : Int × Nat) v => (v, if decide (st.1 < 0) = decide (v < 0) then st.2 else st.2 + 1)) (r.tePrev, 0)
  let s := if ok then s else s.useFree.useFree
  s.modDrive d (fun r =>
    { r with fePrev := r.fe, fe := fe, te := te, sum := total, valid := ok, g := det.1, flag := det.2.1, flagged := det.2.2,
             tePrev := cross.1, crossed := cross.2 })

/-- A sample of an axis is defect-held (R345). -/
def State.defHeld (s : State) (a : Nat) : Bool :=
  (s.drive (a / 4)).flagged && decide (Cf.SRV_AX_CTL_def_hold s a = 1)

/-! ### Set-points (R355 to R357) -/

/-- The source of an axis is faulted (R357). -/
def State.srcFaulted (s : State) (a : Nat) : Bool :=
  match Cf.SRV_SP_CFG_src s a with
  | 2 => bitN s.inp.stuck 11 || bitN s.inp.chat 11 || decide (Cf.INP_DIS_rate_in s = 1)
  | 3 => bitN s.inp.range 5 || decide (Cf.INP_DIS_setp_ain s = 1)
  | _ => false

/-- Rising edges of RATE_IN over the last 100 ms, × 10. -/
def State.rateHz (s : State) : Nat :=
  10 * (s.inp.changes.filter (fun e => decide (e.1 = 11 ∧ s.fine < e.2 + 100 * 32768))).length

/-- The source value (Table 10-4); a source number that the table does not list leaves the set-point where it is. -/
def State.srcValue (s : State) (a : Nat) : Int :=
  let lo := Cf.SRV_SP_LO_v s a
  let hi := Cf.SRV_SP_HI_v s a
  let scaled (raw : Nat) : Int := clampI lo hi (Cf.SRV_SP_OFF_v s a + rnd ((raw : Int) * Cf.SRV_SP_GAIN_gain s a) 20)
  match Cf.SRV_SP_CFG_src s a with
  | 0 => clampI lo hi (Cf.SRV_SP_FIX_v s a)
  | 1 => clampI lo hi (Cf.SRV_SP_RAMP_TGT_v s a)
  | 2 => scaled s.rateHz
  | 3 => scaled (nth 0 s.inp.codes 5)
  | 4 => scaled s.rate.kbs
  | _ => (s.axis a).sp

/-- The value of R355 with the fault rule of R357: the last valid value, then SP_FB once the hold is over. -/
def State.srcInForce (s : State) (a : Nat) : Int :=
  let x := s.axis a
  if s.srcFaulted a then (if x.heldOver then Cf.SRV_SP_FB_v s a else x.spHeld) else s.srcValue a

/-- The fault of a source is noticed or over. -/
def State.judgeSource (s : State) (a : Nat) : State :=
  let x := s.axis a
  if s.srcFaulted a then
    (if x.srcFault then s
     else (s.modAxis a (fun x => { x with srcFault := true, heldOver := false, faultSince := s.tm.mono })).note .sourceFault a)
  else s.modAxis a (fun x => { x with srcFault := false, heldOver := false, spHeld := s.srcValue a })

/-! ### The spindle's set-point (R382, R384 to R387) -/

/-- Mean interval between commutation events over one revolution, in ns; the intervals known where fewer are. -/
def Spindle.tau6 (p : Spindle) (pp : Nat) : Nat :=
  let l := p.intervals.take (6 * pp)
  if l.isEmpty then 0 else l.foldl (fun a b => a + b) 0 / l.length

/-- Speed in Q4.28 with 1.0 equal to 6000 rpm; `since` is the time since the last event (R382). -/
def speedQ (pp tau since : Nat) : Int :=
  let t := max tau since
  if tau = 0 ∨ pp = 0 then 0 else ((10 ^ 10 * 2 ^ 28 / (pp * t * 6000) : Nat) : Int)

/-- Speed in rpm of a Q4.28 speed. -/
def rpmOf (q : Int) : Nat := (asr (q * 6000) 28).toNat

def State.pp (s : State) (d : Nat) : Nat := Cf.SPN_MOTOR_pp s d
def State.speed (s : State) (d : Nat) : Int := speedQ (s.pp d) ((s.drive d).spin.tau6 (s.pp d)) 0

/-- W of a zone of a layer as measured (R309). -/
def State.zoneW (s : State) (d l z : Nat) : Nat := Bank.get natDef (s.drive d).rdc.zw (l * 64 + z)

/-- The zone in use: that of the slot under the spot or sought (R384). -/
def Drive.slot (r : Drive) : Nat := (match r.seq with
  | .long => r.target
  | .short _ _ _ _ => r.target
  | _ => r.track) / slotWobbles
def Drive.zone (r : Drive) : Nat := slotZone r.layer r.slot

/-- F(z, l) in Q4.28 of 6000 rpm; 6000 rpm before W is measured. -/
def zoneF (w : Nat) : Nat := if w = 0 then 2 ^ 28 else 250 * 10 ^ 6 * 60 * 2 ^ 28 / (62 * w * 6000)

/-- The cap of the zone in use (R384). -/
def State.spinCap (s : State) (d : Nat) : Int :=
  let r := s.drive d
  ((min (2 ^ 28) (zoneF (s.zoneW d r.layer r.zone)) * (1024 - Cf.SPN_ZONE_derate s d) / 1024 : Nat) : Int)

/-- Work on a drive that needs the cap (R387): archive reads, verifies, loads, rebuilds, OPC. -/
def State.needsCap (s : State) (d : Nat) : Bool :=
  (s.drive d).wst.opcBusy || s.arc.rebuilding ||
    s.cmds.any (fun c => decide (c.stage = .media) && (eOp c.entry = some .arcRead || eOp c.entry = some .verify || eOp c.entry = some .load || eOp c.entry = some .rebuild))

/-- The set-point of Dn.SPN in Q4.28 of 6000 rpm (R385, R386). -/
def State.spinTarget (s : State) (d : Nat) : Int :=
  let cap := s.spinCap d
  let r := s.drive d
  if Cf.SPN_CTL_mode s d = 0 || s.needsCap d then cap
  else
    let f : Int := (zoneF (s.zoneW d r.layer r.zone) : Nat)
    let low : Int := ((max (Cf.SPN_ZONE_floor_rpm s d * 2 ^ 28 / 6000)
      (zoneF (s.zoneW d r.layer r.zone) * 20 * (1024 + Cf.SPN_ZONE_derate s d) / (250 * 1024)) : Nat) : Int)
    min cap (max low (asr (s.srcInForce (axisOf d 2) * 4 * f) 28))

/-- The set-point that an axis moves toward. -/
def State.spTarget (s : State) (a : Nat) : Int :=
  if a % 4 = 2 then s.spinTarget (a / 4) else if a % 4 = 3 then 0 else s.srcInForce a

/-- One slew step toward the target (R353). -/
def slewTo (sp tgt slew : Int) : Int :=
  if (tgt - sp).natAbs ≤ slew.toNat then tgt else if sp < tgt then sp + slew else sp - slew

/-! ### One computed sample (R346, R347, R348, R352 to R354) -/

/-- The lock count of FOC and TRK (R354). -/
def Ax.judgeLock (x : Ax) (win : Int) (lockIn lockOut : Nat) : Ax :=
  if x.st ≠ .closed then { x with locked := false, lockCnt := 0 }
  else if (x.err.natAbs : Int) ≤ win then
    (if x.locked then { x with lockCnt := 0 }
     else if lockIn ≤ x.lockCnt + 1 then { x with locked := true, lockCnt := 0 } else { x with lockCnt := x.lockCnt + 1 })
  else if x.locked then
    (if lockOut ≤ x.lockCnt + 1 then { x with locked := false, lockCnt := 0 } else { x with lockCnt := x.lockCnt + 1 })
  else { x with lockCnt := 0 }

/-- The compensator on a measured input; the second result is what the preload's clamp cut (corner of R352).
DESIGN CHOICE, log entry 43. -/
def State.compensate (s : State) (a : Nat) (m : Int) : Ax × Int :=
  let x := s.axis a
  let bank := if x.swapPending then 1 - x.bank else x.bank
  let c := s.coef a bank
  let tgt := s.spTarget a
  let sp := if x.fresh then m else slewTo x.sp tgt (Cf.SRV_SP_SLEW_slew s a)
  let e := sp - m
  let (v1, b1) := (if x.fresh then Biquad.zero else x.b1).run (fun k => c (4 * k)) e
  let (v, b2) := (if x.fresh then Biquad.zero else x.b2).run (fun k => c (0x14 + 4 * k)) v1
  let p := sat32 (rnd (c 0x28 * v) 24)
  let lo := c 0x38
  let hi := c 0x3C
  let dd := sat32 (rnd (c 0x30 * (v - x.vprev)) 24)
  let d := if x.fresh then 0 else x.d + asr (dd - x.d) ((c 0x34).toNat % 16)
  let i :=
    if x.fresh then clampI lo hi (x.out - p)
    else if x.swapPending && (x.bumpless || decide (Cf.SRV_AX_CTL_bumpless s a = 1)) then clampI lo hi (x.out - p - d)
    else clampI lo hi (x.i + rnd (c 0x2C * v) 24)
  let u := sat32 (p + i + d)
  let olo := Cf.SRV_OUT_LO_limit s a
  let ohi := Cf.SRV_OUT_HI_limit s a
  let ua := clampI olo ohi u
  let i := clampI lo hi (i + asr ((ua - u) * (Cf.SRV_AX_CTL_bc s a : Nat)) 8)
  let inj := if a % 4 < 2 ∧ Cf.SRV_INJ_AMP_amp s a ≠ 0 then clampI olo ohi (ua + Config.injSine (Cf.SRV_INJ_AMP_amp s a) x.phase) else ua
  let st := if x.st = .ramp ∧ sp = tgt then AxState.closed else x.st
  let x' : Ax :=
    { x with bank := bank, swapPending := false, bumpless := false, b1 := b1, b2 := b2, i := i, d := d, vprev := v, fresh := false, sp := sp, err := e,
             out := inj, st := st, phase := (x.phase + Cf.SRV_INJ_FRQ_inc s a) % 2 ^ 32 }
  (if a % 4 < 2 then x'.judgeLock (Cf.SRV_LOCK_win s a) (Cf.SRV_AX_CTL_lock_in s a) (Cf.SRV_AX_CTL_lock_out s a) else x',
   if x.fresh then (x.out - p) - clampI lo hi (x.out - p) else 0)

/-- A computed sample takes effect; a step at the preload is logged. -/
def State.sampleAxis (s : State) (a : Nat) (m : Int) : State :=
  let r := s.compensate a m
  let s := s.modAxis a (fun _ => r.1)
  if r.2 = 0 then s else s.note .clampStep a

/-! ### Opening and closing (R351, R352, Table 10-6) -/

/-- Samples of the ramp to REST of FOC and TRK. -/
def State.rampLen (s : State) (a : Nat) : Nat := max 1 (Cf.SRV_AX_TIM_ramp_us s a / 5)

/-- FOC or TRK leaves its loop for `st` and ramps to REST. -/
def State.rampOpen (s : State) (a : Nat) (st : AxState) : State :=
  let x := s.axis a
  if x.st = .off then s
  else s.modAxis a (fun x => { x with st := st, locked := false, lockCnt := 0, fresh := false, rampFrom := x.out, rampDone := 0,
                                      rampLen := s.rampLen a, onTime := 0 })

/-- The sled of a drive brakes and holds when its axis opens (R351, R409). -/
def State.sledHold (s : State) (d : Nat) : State :=
  s.modSled d (fun l => if l.st = .follow then { l with stopping := true } else l)

/-- SLD opens with the sled held. -/
def State.openSled (s : State) (d : Nat) (st : AxState) : State :=
  let a := axisOf d 3
  if (s.axis a).st = .off then s
  else (s.modAxis a (fun x => { x with st := st, fresh := false, out := 0, onTime := 0 })).sledHold d

/-- TRK opens, SLD with it. -/
def State.openTrk (s : State) (d : Nat) (st : AxState) : State :=
  ((s.rampOpen (axisOf d 1) st).modDrive d (fun r => { r with seq := (match r.seq with
    | .short _ _ _ _ => .none
    | .long => .none
    | q => q) })).openSled d .opened

/-- FOC opens, TRK and SLD with it; a sequence on it ends. -/
def State.openFoc (s : State) (d : Nat) (st : AxState) : State :=
  (((s.rampOpen (axisOf d 0) st).modDrive d (fun r => { r with seq := .none, lowRun := 0, heldRun := 0 })).openTrk d .opened)

/-- SPN opens with torque demand 0. -/
def State.openSpn (s : State) (d : Nat) (st : AxState) : State :=
  (s.modAxis (axisOf d 2) (fun x => if x.st = .off ∧ st = .lateOpen then x else { x with st := st, fresh := false, out := 0, onTime := 0 })).modSpin d
    (fun p => { p with locked := false, goodRevs := 0, keBad := 0 })

/-- An axis opens. -/
def State.openAxis (s : State) (a : Nat) (st : AxState) : State :=
  match a % 4 with
  | 0 => s.openFoc (a / 4) st
  | 1 => s.openTrk (a / 4) st
  | 2 => s.openSpn (a / 4) st
  | _ => s.openSled (a / 4) st

/-- An axis closes: sample 0 of Table 10-3 comes next, from the output now applied. -/
def State.closeAxis (s : State) (a : Nat) : State :=
  s.modAxis a (fun x => { x with st := .ramp, fresh := true, rampLen := 0, locked := false, lockCnt := 0, lateRun := 0, onTime := 0 })

/-- Resync: a closed axis takes sample 0 next; its lock flag stands (R352, corner of R458). -/
def State.resync (s : State) (a : Nat) : State :=
  s.modAxis a (fun x => if x.st = .ramp ∨ x.st = .closed then { x with fresh := true } else x)

/-- The ramp to REST moves by one sample. -/
def State.rampStep (s : State) (a : Nat) : State :=
  s.modAxis a (fun x =>
    if x.rampLen = 0 then { x with out := Cf.SRV_REST_rest s a }
    else
      let n := x.rampDone + 1
      { x with rampDone := if x.rampLen ≤ n then 0 else n, rampLen := if x.rampLen ≤ n then 0 else x.rampLen,
               out := x.rampFrom + tdiv ((Cf.SRV_REST_rest s a - x.rampFrom) * (min n x.rampLen : Nat)) (x.rampLen : Nat) })

/-! ### Acquisition, jump, seek (R360 to R364) -/

/-- Acquisition of a layer begins once the output rests. -/
def State.acquire (s : State) (d layer : Nat) : State :=
  let a := axisOf d 0
  (s.modDrive d (fun r => { r with seq := .acquire layer 0 0 false 0 })).modAxis a (fun x =>
    if x.rampLen = 0 then { x with st := .seq, locked := false, lockCnt := 0 } else { x with st := .opened })

/-- The sweep: a triangle about REST that starts at REST and rises, `n` samples into a period of `len` (R360). -/
def sweep (amp : Int) (n len : Nat) : Int :=
  let q : Int := (len / 4 : Nat)
  let k : Int := (n % len : Nat)
  if q ≤ 0 then 0
  else if k < q then tdiv (amp * k) q
  else if k < 3 * q then tdiv (amp * (2 * q - k)) q
  else tdiv (amp * (k - 4 * q)) q

/-- The sweep rises in its first and last quarters. -/
def sweepRises (n len : Nat) : Bool := decide (4 * (n % len) < len ∨ 3 * len ≤ 4 * (n % len))

/-- FE changes from positive to negative in this tick. -/
def Drive.feFalls (r : Drive) : Bool := r.valid && decide (0 < r.fePrev ∧ r.fe < 0)

/-- The layer that the spot is on after a close. -/
def State.closeFoc (s : State) (d layer : Nat) : State :=
  (s.modDrive d (fun r => { r with seq := .none, layer := layer, lowRun := 0, heldRun := 0 })).closeAxis (axisOf d 0)

/-- One sample of an acquisition. -/
def State.acqStep (s : State) (d layer n curves : Nat) (inside : Bool) (halves : Nat) : State :=
  let a := axisOf d 0
  let r := s.drive d
  let len := max 4 (Cf.SRV_ACQ_per_ms s a * 200)
  let up := sweepRises n len
  let begins := up && decide (4 * (n % len) = 3 * len ∨ n = 0)
  let thr : Int := (Cf.SRV_DEF_CFG_sum_thr s a : Nat) * 65536
  let curves0 := if up && !begins then curves else 0
  let above := decide (thr ≤ r.sum)
  let curves := if up && above && !inside then curves0 + 1 else curves0
  let want := if s.arc.layers = 2 ∧ layer = 0 then 2 else 1
  let halves := if begins then halves + 1 else halves
  if up && above && decide (curves = want) && r.feFalls then s.closeFoc d layer
  else if Cf.SRV_ACQ_tries s a < halves then
    ((s.openFoc d .fail)).note .acquireFailed a
  else
    (s.modDrive d (fun r => { r with seq := .acquire layer (n + 1) curves above halves })).modAxis a (fun x =>
      { x with out := clampI (Cf.SRV_OUT_LO_limit s a) (Cf.SRV_OUT_HI_limit s a)
                 (Cf.SRV_REST_rest s a + sweep ((Cf.SRV_ACQ_amp s a : Nat) * 65536) n len) })

/-- One sample of a layer jump: kick, S falls, S rises, brake, FE sign change (R361). -/
def State.jumpStep (s : State) (d layer : Nat) (st : JumpStep) (n all : Nat) (base : Int) : State :=
  let a := axisOf d 0
  let r := s.drive d
  let thr : Int := (Cf.SRV_DEF_CFG_sum_thr s a : Nat) * 65536
  let tk := Cf.SRV_JUMP_tk_us s a
  let dir : Int := if layer = 0 then 1 else -1
  let kick := Cf.SRV_JUMP_jk s a * 65536 * dir
  let go (st : JumpStep) (n : Nat) (out : Int) : State :=
    (s.modDrive d (fun r => { r with seq := .jump layer st n (all + 1) base })).modAxis a (fun x =>
      { x with out := clampI (Cf.SRV_OUT_LO_limit s a) (Cf.SRV_OUT_HI_limit s a) out })
  match st with
  | .kick => if tk ≤ 5 * n then (if r.sum < thr then go .above 0 base else go .below 0 base) else go .kick (n + 1) (base + kick)
  | .below => if r.sum < thr then go .above 0 base else go .below 0 base
  | .above => if thr ≤ r.sum then go .brake 1 (base - kick) else go .above 0 base
  | .brake => if tk ≤ 10 * n then go .cross 0 base else go .brake (n + 1) (base - kick)
  | .cross => if r.feFalls then s.closeFoc d layer else go .cross 0 base

/-- Track distance between two wobble positions (R362): round((w_target − w_now) / W); 0 before W is measured, so that the address read
after the close leads on. DESIGN CHOICE, log entry 43. -/
def trackDist (now target w : Nat) : Int := if w = 0 then 0 else roundDiv ((target : Int) - (now : Int)) (w : Nat)

/-- A short seek begins: TRK opens onto its kick, SLD with the sled held. -/
def State.shortSeek (s : State) (d : Nat) (dist : Int) : State :=
  let a := axisOf d 1
  let base := (s.axis a).out
  (((s.modDrive d (fun r => { r with seq := .short dist.natAbs (if dist < 0 then -1 else 1) 0 base, confirm := false, landed := false })).modAxis a (fun x =>
    { x with st := .seq, locked := false, lockCnt := 0, fresh := false, rampLen := 0 })).openSled d .opened)

/-- One sample of a short seek: the kick, its reverse after |Δ| crossings, the close at 2|Δ|. -/
def State.seekStep (s : State) (d tracks : Nat) (dir : Int) (crossings : Nat) (base : Int) : State :=
  let a := axisOf d 1
  let n := crossings + (s.drive d).crossed
  if 2 * tracks ≤ n then
    let s := ((s.modDrive d (fun r => { r with seq := .none, confirm := true, track := r.target })).closeAxis a)
    if (s.axis (axisOf d 3)).manual then s else s.closeAxis (axisOf d 3)
  else
    let kick := Cf.SRV_SEEK2_kick s a * 65536 * dir
    (s.modDrive d (fun r => { r with seq := .short tracks dir n base })).modAxis a (fun x =>
      { x with out := clampI (Cf.SRV_OUT_LO_limit s a) (Cf.SRV_OUT_HI_limit s a) (if n < tracks then base + kick else base - kick) })

/-- A focus loss opens FOC, TRK and SLD; FOC is acquired again or fails (R351). -/
def State.focusLoss (s : State) (d : Nat) : State :=
  let layer := (s.drive d).layer
  let s := (s.openFoc d .opened).note .axisOpened (axisOf d 0)
  if Cf.SRV_AX_CTL_auto_rc s (axisOf d 0) = 1 then s.acquire d layer
  else s.modAxis (axisOf d 0) (fun x => { x with st := .fail })

end Sys2Proof.Machine
end

