-- ==== Sys2Proof/Machine/Servo.lean ====
section
/-!
DEFINITION. The commands of the servo engine (spec/10): samples and their deadlines, limit groups, bank swaps, the commands of
SRV.AX_CMD, the sequences of Heron, the rate meter and the source-fault hold.
-/

namespace Sys2Proof.Machine

/-! ### The fabric-slow alarm (R449, R450) -/

/-- The alarm rises, or takes one more cause while active: bit 0 voltage, 1 speed, 2 deadline. -/
def State.alarmRise (s : State) (cause : Nat) : State :=
  let s := { s with stl := { s.stl with goodSince := s.tm.mono } }
  if s.stl.alarm then { s with stl := { s.stl with cause := s.stl.cause ||| cause } }
  else
    (({ s with stl := { s.stl with alarm := true, cause := cause, count := inc16 s.stl.count } }).note .alarmRose
      (cause + s.stl.minMv * 2 ^ 16 + s.stl.minIdx * 2 ^ 32)).gates

/-! ### Steps of the start sequence (R350) -/

/-- SPN is within 10 % of its set-point. -/
def State.spinNear (s : State) (d : Nat) : Bool :=
  let m := s.speed d
  let t := s.spinTarget d
  decide ((s.drive d).spin.st = .run ∧ 10 * ((m - t).natAbs : Int) ≤ t)

/-- The sled does not stand in the way of focus acquisition: no homing runs (R406), and the sled is not in FAULT (R417). -/
def State.sledReady (s : State) (d : Nat) : Bool :=
  let l := (s.drive d).sled
  decide (l.st ≠ .homing ∧ l.st ≠ .fault)

/-- An axis of the start sequence may be closed by Heron. -/
def Ax.free (x : Ax) : Bool := !x.manual && decide (x.st = .off ∨ x.st = .opened)

/-- Step 2: FOC is acquired; steps 3 and 4: TRK closes at the first on-track point once FOC is locked, SLD once TRK is. -/
def State.startFoc (s : State) (d : Nat) : State :=
  let r := s.drive d
  if r.starting && (r.axis 0).free && decide (r.seq = .none) && s.spinNear d && s.sledReady d then s.acquire d r.layer else s
def State.startTrk (s : State) (d : Nat) : State :=
  let r := s.drive d
  if r.starting && (r.axis 0).holds && (r.axis 1).free && decide (r.seq = .none) && decide (0 < r.crossed) then s.closeAxis (axisOf d 1) else s
def State.startSld (s : State) (d : Nat) : State :=
  let r := s.drive d
  if r.starting && (r.axis 1).holds && (r.axis 3).free && decide (r.seq = .none) && r.sled.homed then s.closeAxis (axisOf d 3) else s

/-! ### Samples (R339, R365, R368) -/

/-- An on-time computation in LATE_OPEN: after 64 with the alarm inactive the axis closes again (R368); TRK closes where it stands, and the
address then read leads it back to the track last held (R364). -/
def State.lateStep (s : State) (a : Nat) : State :=
  let d := a / 4
  let x := s.axis a
  let s := if a % 4 < 2 then s.rampStep a else s
  if Cf.SRV_AX_CTL_auto_rc s a = 0 then s
  else if s.stl.alarm then s.modAxis a (fun x => { x with onTime := 0 })
  else if x.onTime < 63 then s.modAxis a (fun x => { x with onTime := x.onTime + 1 })
  else
    match a % 4 with
    | 0 => s.acquire d (s.drive d).layer
    | 1 => if ((s.drive d).axis 0).holds then (s.modDrive d (fun r => { r with target := r.track, failed := 0 })).shortSeek d 0 else s
    | 2 => if (s.drive d).spin.st = .run then s.closeAxis a else s
    | _ => if ((s.drive d).axis 1).holds then s.closeAxis a else s

/-- One FOC sample that is not held. -/
def State.focSample (s : State) (d : Nat) : State :=
  let a := axisOf d 0
  let r := s.drive d
  match (r.axis 0).st with
  | .off => s.startFoc d
  | .opened =>
    (match r.seq with
     | .acquire l _ _ _ _ => let s := s.rampStep a; if (s.axis a).rampLen = 0 then s.acquire d l else s
     | _ => (s.rampStep a).startFoc d)
  | .fail => s.rampStep a
  | .lateOpen => s.lateStep a
  | .seq =>
    (match r.seq with
     | .acquire l n c i h => s.acqStep d l n c i h
     | .jump l st n k b => s.jumpStep d l st n k b
     | _ => s)
  | _ => if 4 ≤ r.lowRun then s.focusLoss d else s.sampleAxis a r.fe

/-- One TRK sample that is not held; the applied output enters the mean of R343. -/
def State.trkSample (s : State) (d : Nat) : State :=
  let a := axisOf d 1
  let r := s.drive d
  let s := match (r.axis 1).st with
    | .off => s.startTrk d
    | .opened => (s.rampStep a).startTrk d
    | .fail => s.rampStep a
    | .lateOpen => s.lateStep a
    | .seq =>
      (match r.seq with
       | .short t dir n b => s.seekStep d t dir n b
       | .long => s.rampStep a
       | _ => s)
    | _ => s.sampleAxis a r.te
  s.modDrive d (fun r => { r with trkOuts := ((r.axis 1).out :: r.trkOuts).take 20 })

/-- A set-point that moves by more than tol/1024 clears the spindle's lock at the sample that applies it (R388). -/
def State.lockSetpoint (s : State) (d : Nat) : State :=
  let x := (s.drive d).axis 2
  if (Cf.SPN_LOCK_tol s d : Int) * x.sp.natAbs < 1024 * (s.spinTarget d - x.sp).natAbs then
    s.modSpin d (fun p => { p with locked := false, goodRevs := 0, keBad := 0, keSum := 0, keNum := 0 })
  else s

/-- One SPN sample: the measured speed is the input (R343, R382). -/
def State.spnSample (s : State) (d since : Nat) : State :=
  let a := axisOf d 2
  let m := speedQ (s.pp d) ((s.drive d).spin.tau6 (s.pp d)) since
  match (s.axis a).st with
  | .lateOpen => s.lateStep a
  | .ramp => (s.lockSetpoint d).sampleAxis a m
  | .closed => (s.lockSetpoint d).sampleAxis a m
  | _ => s

/-- The mean of the last 20 applied TRK outputs. -/
def Drive.meanTrk (r : Drive) : Int := if r.trkOuts.isEmpty then 0 else tdiv (r.trkOuts.foldl (fun a b => a + b) 0) (r.trkOuts.length : Nat)

/-- One SLD sample. -/
def State.sldSample (s : State) (d : Nat) : State :=
  let a := axisOf d 3
  match (s.axis a).st with
  | .off => s.startSld d
  | .opened => s.startSld d
  | .lateOpen => s.lateStep a
  | .ramp => s.sampleAxis a (s.drive d).meanTrk
  | .closed => s.sampleAxis a (s.drive d).meanTrk
  | _ => s

/-- A FOC or TRK tick: the samples are latched on the FOC tick and judged for defect hold and focus loss (R345, R351). -/
def State.focTick (s : State) (d : Nat) (adc : List Pickup) : State :=
  let s := s.latch d adc
  let a := axisOf d 0
  let on := decide ((s.axis a).st = .ramp ∨ (s.axis a).st = .closed)
  if s.defHeld a && decide ((s.axis a).st ≠ .off) then
    let s := s.modDrive d (fun r => { r with heldRun := r.heldRun + 1 })
    if on && decide (Cf.SRV_DEF_TMO_def_max_us s a < 5 * (s.drive d).heldRun) then s.focusLoss d else s
  else
    let low := decide ((s.drive d).sum < (Cf.SRV_DEF_CFG_sum_min s a : Nat) * 65536)
    (s.modDrive d (fun r => { r with heldRun := 0, lowRun := if low then r.lowRun + 1 else 0 })).focSample d

/-- A computation is on time when it ended by its tick plus lat (R365); its time is shown in SRV.COMP_T. -/
def State.onTimeBy (s : State) (a ns : Nat) : Bool := decide (ns ≤ 10 * Cf.SRV_AX_TIM_lat s a)
def State.noteTime (s : State) (a ns : Nat) : State :=
  s.modAxis a (fun x => { x with compLast := satU 16 ns, compMax := max x.compMax (satU 16 ns) })

/-- Which computations count for late_run: those of an axis that computes samples (Table 10-2). -/
def Ax.computes (x : Ax) : Bool := decide (x.st = .ramp ∨ x.st = .closed ∨ x.st = .seq ∨ x.st = .lateOpen)

/-- SERVO_SAMPLE (R339): an axis tick whose sample is computed in `ns` nanoseconds; FOC brings the 16 samples of the interval, SPN the
time since the last commutation event. A sample that is not on time has no effect here (R365).
DESIGN CHOICE, log entry 43. DESIGN CHOICE, log entry 65. -/
def execServoSample (a : Axis) (adc : List Pickup) (since : Nat) (ns : BitVec 16) (s : State) : Host.Outcome State Fault Refusal :=
  .next (whenServing s (fun s =>
    if !s.onTimeBy a.val ns.toNat then s
    else
      let d := a.val / 4
      let s := s.judgeSource a.val
      let held := decide (a.val % 4 < 2) && s.defHeld a.val
      let t := (match a.val % 4 with
        | 0 => s.focTick d adc
        | 1 => if held then s else s.trkSample d
        | 2 => s.spnSample d since
        | _ => s.sldSample d)
      let t := t.noteTime a.val ns.toNat
      let t := if held then t else t.modAxis a.val (fun x => { x with lateRun := 0 })
      t.settle))

/-- The third late sample in a row opens the axis safely (R366, Table 10-6). -/
def State.lateOpen (s : State) (a ns : Nat) : State :=
  let d := a / 4
  let s := s.openAxis a .lateOpen
  let s := if a % 4 = 0 then s.modDrive d (fun r => { r with lasGroup := { r.lasGroup with demand := 0 } }) else s
  ({ s with lateOpens := inc16 s.lateOpens }).note .axisOpened (a + ns * 256)

/-- SERVO_SAMPLE_DEADLINE (R365, R366): a sample that is not finished by tick plus lat is late; its output and its states stand. -/
def execServoSampleDeadline (a : Axis) (ns : BitVec 16) (s : State) : Host.Outcome State Fault Refusal :=
  .next (whenServing s (fun s =>
    let x := s.axis a.val
    if !x.computes then s
    else
      let s := s.modAxis a.val (fun x => { x with lateRun := min 3 (x.lateRun + 1), lateCnt := inc16 x.lateCnt, onTime := 0 })
      let s := s.alarmRise 4
      let s := if decide (a.val % 4 < 2) && (s.drive (a.val / 4)).wst.gate then s.closeGate (a.val / 4) else s
      let s := if 2 ≤ x.lateRun ∧ x.st ≠ .lateOpen then s.lateOpen a.val ns.toNat else s
      s.settle))

/-! ### Limit groups (R358, R359) -/

/-- A PI member: its output before the minimum and its integrator after the sample. -/
def piMember (ref kp ki lim i m : Int) : Int × Int :=
  let e := ref - m
  (rnd (kp * e) 24 + i, clampI (-lim) lim (i + rnd (ki * e) 24))

/-- The lowest of the outputs, the lowest member number among equal ones. -/
def lowestOf (l : List (Nat × Int)) : Nat × Int :=
  l.foldl (fun b e => if e.2 < b.2 then e else b) (l.headD (0, 0))

/-- Back-calculation of an integrator. -/
def backCalc (lim bc i win u : Int) : Int := clampI (-lim) lim (i + asr ((win - u) * bc) 8)

/-- One sample of a group held in the block of axis `a`: member outputs, then the winner and the back-calculated integrators. -/
def State.groupPi (s : State) (a m : Nat) (i meas : Int) : Int × Int :=
  piMember (Cf.SRV_LG_REF_ref s a (m - 1)) (Cf.SRV_LG_KP_gain s a (m - 1)) (Cf.SRV_LG_KI_gain s a (m - 1)) (Cf.SRV_LG_ILIM_ihi s a (m - 1)) i meas

/-- A current in mA as a share of full scale, Q4.28. -/
def State.currentQ (s : State) (d ma : Nat) : Int := if Cf.SPN_IFS_ma s d = 0 then 0 else ((ma * 2 ^ 28 / Cf.SPN_IFS_ma s d : Nat) : Int)

/-- The spindle group: speed, current limit, power budget, thermal. DESIGN CHOICE, log entry 43. -/
def State.spinGroup (s : State) (d ma : Nat) : State :=
  let a := axisOf d 2
  let r := s.drive d
  let g := r.spnGroup
  let bc : Int := (Cf.SRV_AX_CTL_bc s a : Nat)
  let u0 := (r.axis 2).out
  let (u1, i1) := s.groupPi a 1 g.i1 (s.currentQ d ma)
  let (u2, i2) := s.groupPi a 2 g.i2 (nth 0 s.pwb.share d)
  let (u3, i3) := s.groupPi a 3 g.i3 (Config.tempQ (s.driveTemp d))
  let w := lowestOf [(0, u0), (1, u1), (2, u2), (3, u3)]
  let win := clampI (Cf.SRV_OUT_LO_limit s a) (Cf.SRV_OUT_HI_limit s a) w.2
  let lim (m : Nat) : Int := Cf.SRV_LG_ILIM_ihi s a (m - 1)
  let cf := s.coef a (r.axis 2).bank
  let live := decide ((r.axis 2).st = .ramp ∨ (r.axis 2).st = .closed)
  let s := s.modDrive d (fun r => { r with spnGroup := ⟨w.1, win, backCalc (lim 1) bc i1 win u1, backCalc (lim 2) bc i2 win u2, backCalc (lim 3) bc i3 win u3⟩ })
  if live ∧ w.1 ≠ 0 then s.modAxis a (fun x => { x with i := clampI (cf 0x38) (cf 0x3C) (x.i + asr ((win - u0) * bc) 8) }) else s

/-- The per-zone laser target in 0.01 mW (R435), and the current cap as a power in 0.01 mW (R434). -/
def State.zoneFactor (s : State) (d l z : Nat) : Int := if (s.nearSet (calLayer d l (calZf z)) (s.driveTemp d)).isSome then s.trimLayer d l (calZf z) else 1024
def State.laserTarget (s : State) (d : Nat) : Nat :=
  let r := s.drive d
  let o := nth OpcRes.reset r.wst.opc r.layer
  o.popt * (s.zoneFactor d r.layer r.zone).toNat / 1024 * Config.rateTerm r.rdc.kbps o.rate (Cf.CAL_ZPW_gamma s) / 65536
def State.laserCap (s : State) (d : Nat) : Int :=
  tdiv (s.trim d calEta * ((Cf.CAL_LCAP_ma s : Nat) * 100 - s.trim d calIth)) 1000

/-- The laser group: target, current cap, thermal; rises wait for the gap between slots, falls are written at once, changes below 1 %
are not written (R330). -/
def State.laserGroup (s : State) (d : Nat) : State :=
  let a := axisOf d 0
  let r := s.drive d
  let g := r.lasGroup
  let bc : Int := (Cf.SRV_AX_CTL_bc s a : Nat)
  let target := Config.powerQ (s.laserTarget d)
  let u1 := Config.powerQ (s.laserCap d)
  let (u2, i2) := s.groupPi a 2 g.i2 (Config.tempQ (s.driveTemp d))
  let w := lowestOf [(0, target), (1, u1), (2, u2)]
  let win := clampI (Cf.SRV_OUT_LO_limit s a) (Cf.SRV_OUT_HI_limit s a) w.2
  let short := decide (win * 256 < target * (Cf.WST_OPC_CFG_min_ratio s d : Nat))
  let s := s.modDrive d (fun r => { r with
    lasGroup := ⟨w.1, win, 0, backCalc (Cf.SRV_LG_ILIM_ihi s a 1) bc i2 win u2, 0⟩, wst := { r.wst with deferred := short } })
  let sent := r.wst.sent
  let write := r.wst.gate && decide (win ≠ sent) && decide (sent = 0 ∨ (sent.natAbs : Int) ≤ 100 * (win - sent).natAbs) &&
    (decide (win < sent) || r.wst.burst.isNone)
  if write then (s.modWst d (fun w => { w with sent := win })).laserWrite d win else s

/-- LIMIT_GROUP_SAMPLE (R359): the spindle or the laser group of a drive, computed on time; `ma` is the motor current.
DESIGN CHOICE, log entry 65. -/
def execLimitGroupSample (d : Fin 4) (laser : Bool) (ma : BitVec 16) (s : State) : Host.Outcome State Fault Refusal :=
  .next (whenServing s (fun s => if laser then s.laserGroup d.val else s.spinGroup d.val ma.toNat))

/-! ### Commands of SRV.AX_CMD and SRV.SWAP -/

/-- The manager takes an axis out of Heron's sequence (R350). -/
def State.take (s : State) (a : Nat) : State := s.modAxis a (fun x => { x with manual := true })

/-- SWAP (R348): the banks exchange at the next sample; a swap written while one is pending changes nothing. -/
def execSwap (a : Axis) (v : Word) (s : State) : Host.Outcome State Fault Refusal :=
  .next (whenServing s (fun s => if fld v 0 1 = 1 then s.modAxis a.val (fun x => { x with swapPending := true }) else s))

/-- OPEN (R351). -/
def execOpenAxis (a : Axis) (s : State) : Host.Outcome State Fault Refusal :=
  .next (whenServing s (fun s => ((s.take a.val).openAxis a.val .opened).settle))

/-- CLOSE (R352): an axis that is not already closed takes sample 0 next; SPN only on a running spindle (Table 11-1). -/
def execCloseAxis (a : Axis) (s : State) : Host.Outcome State Fault Refusal :=
  .next (whenServing s (fun s =>
    let s := s.take a.val
    let x := s.axis a.val
    if x.st = .ramp ∨ x.st = .closed ∨ (a.val % 4 = 2 ∧ (s.drive (a.val / 4)).spin.st ≠ .run) then s
    else ((if a.val % 4 = 0 then s.closeFoc (a.val / 4) (s.drive (a.val / 4)).layer else s.closeAxis a.val)).settle))

/-- ACQUIRE (R360). -/
def execAcquire (d : Fin 4) (layer : Fin 2) (s : State) : Host.Outcome State Fault Refusal :=
  .next (whenServing s (fun s =>
    let s := s.take (axisOf d.val 0)
    let s := if ((s.drive d.val).axis 0).st = .ramp ∨ ((s.drive d.val).axis 0).st = .closed then s.openFoc d.val .opened else s
    (s.acquire d.val layer.val).settle))

/-- LAYER_JUMP (R361). -/
def execLayerJump (d : Fin 4) (layer : Fin 2) (s : State) : Host.Outcome State Fault Refusal :=
  .next (whenServing s (fun s =>
    let a := axisOf d.val 0
    let s := s.take a
    if (s.axis a).st = .ramp ∨ (s.axis a).st = .closed then
      let base := (s.axis a).out
      let s := s.openTrk d.val .opened
      ((s.modDrive d.val (fun r => { r with seq := .jump layer.val .kick 0 0 base })).modAxis a (fun x =>
        { x with st := .seq, locked := false, lockCnt := 0 })).settle
    else s))

/-- LAYER_JUMP_TIMEOUT (R361): no close within tmo_us, so the target layer is acquired. -/
def execLayerJumpTimeout (d : Fin 4) (s : State) : Host.Outcome State Fault Refusal :=
  .next (whenServing s (fun s =>
    match (s.drive d.val).seq with
    | .jump layer _ _ all _ =>
      if Cf.SRV_JUMP2_tmo_us s (axisOf d.val 0) ≤ 5 * all then (s.acquire d.val layer).settle else s
    | _ => s))

/-- RELEASE_TO_HERON (R350). -/
def execReleaseToHeron (a : Axis) (s : State) : Host.Outcome State Fault Refusal :=
  .next (whenServing s (fun s => s.modAxis a.val (fun x => { x with manual := false })))

/-! ### Heron's timers -/

/-- RATE_METER_BIN (R356): a bin of 100 ms ends, and the value is the sum of ten bins. DESIGN CHOICE, log entry 65. -/
def execRateMeterBin (s : State) : Host.Outcome State Fault Refusal :=
  .next (whenServing s (fun s =>
    let bins := (s.rate.acc :: s.rate.bins).take 10
    { s with rate := ⟨bins, 0, bins.foldl (fun a b => a + b) 0 / 1000⟩ }))

/-- SOURCE_FAULT_HOLD_EXPIRY (R357). -/
def execSourceFaultHoldExpiry (a : Axis) (s : State) : Host.Outcome State Fault Refusal :=
  .next (whenServing s (fun s =>
    let x := s.axis a.val
    if x.srcFault && decide (x.faultSince + Cf.SRV_SP_CFG_hold_ms s a.val ≤ s.tm.mono) then s.modAxis a.val (fun x => { x with heldOver := true }) else s))

/-! ### Adoption of an epoch (R113, R352) -/

/-- An axis whose latency has changed from that of `old` is resynchronised (R352). -/
def State.latChanged (s old : State) (bit part : Nat) : State :=
  if bit = 7 ∧ Cf.SRV_AX_TIM_lat s part ≠ Cf.SRV_AX_TIM_lat old part then s.resync part else s

/-- SUBSYSTEM_ADOPT (R113): at its safe point a subsystem, or one drive or axis of it, switches to the committed set; its bit is set
once no command of an old epoch is left in it, and the last bit ends the adoption. -/
def execSubsystemAdopt (bit : Fin 14) (part : Fin 16) (s : State) : Host.Outcome State Fault Refusal :=
  .next (whenServing s (fun s =>
    if !s.epoch.pending || bitN s.epoch.adopt bit.val || (decide (bit.val = 6) && decide (4 ≤ part.val)) ||
        !s.safePoint bit.val part.val then s
    else
      let t := (s.adoptRegs bit.val part.val).latChanged s bit.val part.val
      if t.mustDrain bit.val then t
      else ({ t with epoch := t.epoch.switched bit.val part.val }).epochDone))

end Sys2Proof.Machine
end

