-- ==== Sys2Proof/Machine/SledDrive.lean ====
section
/-!
DEFINITION. The sled drive (spec/12): coil currents (R401 to R403), homing, planning (R410 to R413), positions from addresses (R407),
lost steps (R414, R415), faults, commands (Table 12-2).
-/

namespace Sys2Proof.Machine

/-! ### Units and currents (R401, R403, R410) -/

/-- Velocities and accelerations per tick of 100 µs, with 16 fractional bits. -/
def perTick (v : Nat) : Int := ((v * 65536 / 10000 : Nat) : Int)
def perTick2 (a : Nat) : Int := ((a * 65536 / 10 ^ 8 : Nat) : Int)
def State.sldA (s : State) (d : Nat) : Int := perTick2 (Cf.SLD_MOT2_a s d)

/-- The quarter-wave table q(k) = round(255 × sin(π k / 128)), k from 0 to 64. -/
def quarterWave : List Int := [0, 6, 13, 19, 25, 31, 37, 44, 50, 56, 62, 68, 74, 80, 86, 92, 98, 103, 109, 115, 120, 126, 131, 136, 142, 147, 152, 157, 162, 167, 171, 176, 180, 185, 189, 193, 197, 201, 205, 208, 212, 215, 219, 222, 225, 228, 231, 233, 236, 238, 240, 242, 244, 246, 247, 249, 250, 251, 252, 253, 254, 254, 255, 255, 255]

/-- s(m). -/
def waveAt (m : Nat) : Int :=
  let h (k : Nat) : Int := if k ≤ 64 then nth 0 quarterWave k else nth 0 quarterWave (128 - k)
  if m ≤ 128 then h m else -(h (m - 128))

/-- The coil current in mA (R403); I_home while homing (R406), I_hold while PD_PGOOD is low (R421). -/
def State.coilCurrent (s : State) (d : Nat) : Nat :=
  let l := (s.drive d).sled
  let hold := Cf.SLD_CUR_i_hold s d
  match l.st with
  | .off => 0
  | .fault => 0
  | .homing => Cf.SLD_HOME_i_home s d
  | _ =>
    if l.st = .hold ∧ !s.pgood then hold
    else min (Cf.SLD_CUR_i_max s d) (hold + Cf.SLD_CUR2_kacc s d * (l.a.natAbs * 10 ^ 8 / 65536) / 10 ^ 6 +
      Cf.SLD_CUR2_kvel s d * (l.v.natAbs * 10000 / 65536) / 10 ^ 5 + l.boost)

/-- The integer part of a position, and its electrical index (R401). -/
def Sled.pos (l : Sled) : Int := asr l.p 16
def elecOf (p : Int) : Nat := (p % 256).toNat

/-- The coil targets follow the electrical index; it follows p at each microstep (R401, R402). -/
def State.coils (s : State) (d : Nat) (old : Int) : State :=
  let i : Int := (s.coilCurrent d : Nat)
  s.modSled d (fun l =>
    let e := if l.pos = old then l.elec else elecOf l.pos
    { l with elec := e, iB := tdiv (i * waveAt e) 255, iA := tdiv (i * waveAt ((e + 64) % 256)) 255 })

/-! ### Faults and refusals (R405, R416, R417) -/

/-- A refused command is ignored, shown and logged. -/
def State.sledRefuse (s : State) (d : Nat) : State := (s.modSled d (fun l => { l with refused := true })).note .sledRefused d

/-- Entering FAULT: the bridges go low, homed clears, SLD fails and FOC and TRK open. -/
def State.sledFault (s : State) (d code : Nat) : State :=
  let s := s.modSled d (fun l => { l with st := .fault, fault := code, homed := false, lateOnly := false, v := 0, a := 0, iA := 0, iB := 0,
                                          dutyA := 0, dutyB := 0, stopping := false, parking := false, parkNext := false, report := none })
  let s := s.openFoc d .opened
  ((s.modAxis (axisOf d 3) (fun x => { x with st := .fail, out := 0 })).note .sledFault (d + 16 * code)).settle

/-! ### Moves -/

/-- A target clamped to the soft limits, outside homing (R413). -/
def State.sledTarget (s : State) (d : Nat) (t : Int) : State :=
  let c := clampI (Cf.SLD_LIM_MIN_limit s d) (Cf.SLD_LIM_MAX_limit s d) t
  s.modSled d (fun l => { l with tgt := c, clamped := l.clamped || decide (c ≠ t) })

/-- A move begins in a mode. -/
def State.sledMove (s : State) (d : Nat) (st : SlState) (t : Int) : State :=
  (s.sledTarget d t).modSled d (fun l => { l with st := st, stopping := false, report := none })

/-- Homing begins: inward by 1.1 times the range (R406); no new move begins while PD_PGOOD is low (R421). -/
def State.sledHome (s : State) (d : Nat) : State :=
  let l := (s.drive d).sled
  if l.st = .fault ∨ l.st = .homing ∨ !s.pgood then s
  else s.modSled d (fun l => { l with st := .homing, home := 2, homed := false, lateOnly := false, boost := l.boost, stopping := false, parking := false,
                                      report := none, tgt := l.pos - ((Cf.SLD_MECH_RNG_range s d * 11 / 10 : Nat) : Int) })

/-- A park: TRAVEL to SLD.MECH.park; a homing ends first (R418, R420, corner). -/
def State.sledPark (s : State) (d : Nat) : State :=
  let l := (s.drive d).sled
  if l.st = .homing then s.modSled d (fun l => { l with parkNext := true })
  else if l.st = .fault ∨ l.st = .off then s
  else if !l.homed then s.modSled d (fun l => if l.st = .hold then l else { l with stopping := true })
  else (s.sledMove d .travel (Cf.SLD_MECH_PARK_park s d)).modSled d (fun l => { l with parking := true })

/-! ### plan_tick (R410) -/

/-- One tick of the plan: position, velocity, acceleration applied, arrived. All with 16 fractional bits. -/
def planTick (travel : Bool) (p v tgt a vmax vmin : Int) : Int × Int × Int × Bool :=
  let d := tgt - p
  let ad : Int := (d.natAbs : Nat)
  let av : Int := (v.natAbs : Nat)
  if ad ≤ vmin ∧ av ≤ a then (tgt, 0, -v, true)
  else
    let dir : Int := if d < 0 then -1 else if d = 0 then 0 else 1
    let aDec := if travel ∧ 0 < v * dir ∧ 2 * a * ad < v * v then tdiv (v * v) (2 * ad) else a
    let v' :=
      if v * dir < 0 then v + dir * aDec
      else if 2 * aDec * ad ≤ v * v then
        (let w := v - dir * aDec
         if w * dir < vmin then dir * vmin else w)
      else if av < vmax then dir * min (av + a) vmax
      else dir * max (av - a) vmax
    let p' := p + v'
    if travel ∧ (tgt - p') * dir < 0 then (tgt, 0, -v, true) else (p', v', v' - v, false)

/-- Velocity moves toward a demand by at most `a`. -/
def approach (v w a : Int) : Int := clampI (v - a) (v + a) w

/-- A move has arrived: HOLD and the report, the next step of a homing, or OFF after a park with hold_off (R406, R410, R420). -/
def State.sledArrived (s : State) (d : Nat) : State :=
  let l := (s.drive d).sled
  if l.st = .homing then
    (if l.home = 2 then s.modSled d (fun l => { l with p := 0, home := 3, wait := 200, boost := 0 })
     else
       let s := s.modSled d (fun l => { l with st := .hold, home := 0, homed := true, boost := 0, lastDecl := s.tm.mono })
       if l.parkNext then (s.modSled d (fun l => { l with parkNext := false })).sledPark d else s)
  else if l.parking && decide (Cf.SLD_CTL_hold_off s d = 1) then
    s.modSled d (fun l => { l with st := .off, parking := false, report := none })
  else s.modSled d (fun l => { l with st := .hold, parking := false, report := some (s.tm.mono + Cf.SLD_MOT3_settle_ms s d) })

/-- FOLLOW: the velocity demand of the axis, held at the soft limits (R409, R413). -/
def State.followTick (s : State) (d : Nat) : State :=
  let l := (s.drive d).sled
  let a := s.sldA d
  let want := asr (((s.drive d).axis 3).out * perTick (Cf.SLD_MOT_v_max s d)) 28
  let lo := Cf.SLD_LIM_MIN_limit s d * 65536
  let hi := Cf.SLD_LIM_MAX_limit s d * 65536
  let want := if (l.p ≤ lo ∧ want < 0) ∨ (hi ≤ l.p ∧ 0 < want) then 0 else want
  let v := approach l.v want a
  let p := l.p + v
  if p < lo ∧ v < 0 then s.modSled d (fun l => { l with p := max lo (min l.p p), v := 0, a := -l.v, clamped := true })
  else if hi < p ∧ 0 < v then s.modSled d (fun l => { l with p := min hi (max l.p p), v := 0, a := -l.v, clamped := true })
  else s.modSled d (fun l => { l with p := p, a := v - l.v, v := v })

/-- Braking at a to a stop, then HOLD. -/
def State.brakeTick (s : State) (d : Nat) : State :=
  let l := (s.drive d).sled
  let v := approach l.v 0 (s.sldA d)
  s.modSled d (fun l => { l with p := l.p + v, a := v - l.v, v := v, stopping := decide (v ≠ 0),
                                 st := if v = 0 then .hold else l.st, home := if v = 0 then 0 else l.home,
                                 parking := l.parking && decide (v ≠ 0) })

/-- SLED_PLAN_TICK (R410): each on-time tick of 100 µs. DESIGN CHOICE, log entry 65. -/
def execSledPlanTick (d : Fin 4) (s : State) : Host.Outcome State Fault Refusal :=
  .next (whenServing s (fun s =>
    let d := d.val
    let l := (s.drive d).sled
    let closed := decide (((s.drive d).axis 3).st = .closed)
    let a := s.sldA d
    let vmax := perTick (Cf.SLD_MOT_v_max s d)
    let vmin := perTick (Cf.SLD_MOT3_v_min s d)
    let run (travel : Bool) (vmax : Int) : State :=
      let (p, v, an, arrived) := planTick travel l.p l.v (l.tgt * 65536) a vmax vmin
      let s := s.modSled d (fun l => { l with p := p, v := v, a := an })
      if arrived then s.sledArrived d else s
    let t := (match l.st with
      | .off => if closed && l.homed && s.pgood then s.modSled d (fun l => { l with st := .follow, a := 0 }) else s
      | .fault => s
      | .hold => if closed && l.homed && s.pgood then s.modSled d (fun l => { l with st := .follow, a := 0 }) else s.modSled d (fun l => { l with v := 0, a := 0 })
      | .follow => if l.stopping || !closed || !s.pgood then s.brakeTick d else s.followTick d
      | .homing =>
        if l.stopping then s.brakeTick d
        else if l.home = 3 then
          (if l.wait ≤ 1 then s.modSled d (fun l => { l with home := 4, wait := 0, tgt := Cf.SLD_MECH_LEAD_pos_lead s d })
           else s.modSled d (fun l => { l with wait := l.wait - 1 }))
        else run true (if l.home = 2 then perTick (Cf.SLD_HOME_v_home s d) else vmax)
      | .travel => if l.stopping then s.brakeTick d else run true vmax
      | .seek => if l.stopping then s.brakeTick d else run false vmax)
    (t.coils d l.pos).settle))

/-- SLED_TICK_LATE (R422): the step timer stops at its next microstep; homed clears if the sled moved faster than vmin. -/
def execSledTickLate (d : Fin 4) (s : State) : Host.Outcome State Fault Refusal :=
  .next (whenServing s (fun s =>
    let d := d.val
    let l := (s.drive d).sled
    let moving := decide (l.st = .homing ∨ l.st = .follow ∨ l.st = .travel ∨ l.st = .seek)
    let fast := moving && decide (perTick (Cf.SLD_MOT3_v_min s d) < (l.v.natAbs : Int))
    let s := s.modSled d (fun l => { l with late := inc16 l.late, v := 0, a := 0, homed := l.homed && !fast,
                                            lateOnly := l.lateOnly || (l.homed && fast) })
    s.alarmRise 4))

/-- SLED_ARRIVAL_REPORT (R410, R363): settle_ms after ARRIVED; in a long seek TRK closes on the nearest track. -/
def execSledArrivalReport (d : Fin 4) (s : State) : Host.Outcome State Fault Refusal :=
  .next (whenServing s (fun s =>
    let d := d.val
    match (s.drive d).sled.report with
    | none => s
    | some t =>
      if s.tm.mono < t then s
      else
        let s := s.modSled d (fun l => { l with report := none })
        match (s.drive d).seq with
        | .long =>
          ((s.modDrive d (fun r => { r with seq := .none, confirm := true, landed := true, track := r.target })).closeAxis (axisOf d 1)).settle
        | _ => s))

/-! ### Positions from addresses, lost steps (R407, R408, R414, R415) -/

/-- W at a slot, by interpolation toward the next zone in address order, extrapolated after the last. -/
def State.slotW (s : State) (d l k : Nat) : Int :=
  let z := slotZone l k
  let w : Int := (s.zoneW d l z : Nat)
  let step : Int :=
    if l = 0 then (if z = 39 then w - (s.zoneW d l 38 : Nat) else (s.zoneW d l (z + 1) : Nat) - w)
    else (if z = 0 then w - (s.zoneW d l 1 : Nat) else (s.zoneW d l (z - 1) : Nat) - w)
  w + tdiv (step * ((k - zoneFirst l z : Nat) : Int)) (zoneSlots z : Nat)

/-- The radius of a slot in µm, and the sled position expected for it. -/
def State.slotRadius (s : State) (d l k : Nat) : Int :=
  tdiv ((Cf.SLD_MECH_RREF_r_ref s d l : Nat) * s.slotW d l k) (s.zoneW d l 0 : Nat)
def State.slotPos (s : State) (d l k : Nat) : Int :=
  let a := (s.drive d).sled
  a.anchorP + tdiv ((s.slotRadius d l k - a.anchorR) * 16000) (Cf.SLD_MECH_NM_nm16 s d : Nat)

/-- A long seek sends the sled to the slot sought (R408, R412). -/
def State.sledSeekTo (s : State) (d : Nat) : State :=
  let r := s.drive d
  if r.sled.st = .hold ∨ r.sled.st = .follow ∨ r.sled.st = .seek ∨ r.sled.st = .off then
    (if r.sled.homed && s.pgood then s.sledMove d .seek (s.slotPos d r.layer (r.target / slotWobbles)) else s)
  else s

/-- SLED_REREFERENCE (R414): an ADIP address shows slot `k`. The first one after a load sets the anchor; homed that a late tick cleared
is set again (R422). -/
def execSledRereference (d : Fin 4) (k : Fin 567840) (s : State) : Host.Outcome State Fault Refusal :=
  .next (whenServing s (fun s =>
    let d := d.val
    let r := s.drive d
    let l := r.sled
    if !(l.st = .hold ∨ l.st = .follow) ∨ s.zoneW d r.layer 0 = 0 ∨ Cf.SLD_MECH_NM_nm16 s d = 0 then s
    else
      let rk := s.slotRadius d r.layer k.val
      if !l.anchored then
        s.modSled d (fun l => { l with anchored := true, anchorP := l.pos, anchorR := rk, homed := l.homed || l.lateOnly, lateOnly := false })
      else
        let pe := s.slotPos d r.layer k.val
        let diff := l.pos - pe
        let s := if l.lateOnly then s.modSled d (fun l => { l with homed := true, lateOnly := false }) else s
        if diff.natAbs ≤ Cf.SLD_LOST_tol s d then s.modSled d (fun l => { l with anchorP := l.pos, anchorR := rk })
        else
          let times := (s.tm.mono :: l.lostTimes).filter (fun t => s.tm.mono < t + 600000)
          let top := Cf.SLD_CUR_i_max s d - Cf.SLD_CUR_i_hold s d
          let s := (s.modSled d (fun l =>
            { l with p := pe * 65536, anchorP := pe, anchorR := rk, boost := min top (l.boost + Cf.SLD_CUR2_step s d), lost := inc16 l.lost,
                     err := diff, lostTimes := times, lastDecl := s.tm.mono })).note .stepsLost d
          if Cf.SLD_LOST_max s d < times.length then s.sledFault d 4 else s))

/-- BOOST_DECAY (R403): decay_s seconds without a declaration lower boost by one step. -/
def execBoostDecay (d : Fin 4) (s : State) : Host.Outcome State Fault Refusal :=
  .next (whenServing s (fun s =>
    let l := (s.drive d.val).sled
    if l.lastDecl + 1000 * Cf.SLD_CUR2_decay_s s d.val ≤ s.tm.mono then
      s.modSled d.val (fun l => { l with boost := l.boost - Cf.SLD_CUR2_step s d.val, lastDecl := s.tm.mono })
    else s))

/-! ### Coil protection (R400, R416) -/

/-- A sample above ioc cuts the phase for its period; the 1000th in a row is fault 3. -/
def State.sledOver (s : State) (d : Nat) (phaseB : Bool) : State :=
  let l := (s.drive d).sled
  if l.st = .off ∨ l.st = .fault then s
  else
    let n := (if phaseB then l.cutB else l.cutA) + 1
    let s := s.modSled d (fun l => if phaseB then { l with cutB := n } else { l with cutA := n })
    if 1000 ≤ n then s.sledFault d 3 else s

/-- SLED_OVERCURRENT (R416). -/
def execSledOvercurrent (d : Fin 4) (phaseB : Bool) (s : State) : Host.Outcome State Fault Refusal :=
  .next (whenServing s (fun s => s.sledOver d.val phaseB))

/-- OPEN_COIL (R416): 100 periods in a row below 10 % of the target; overcurrent takes precedence. -/
def execOpenCoil (d : Fin 4) (phaseB : Bool) (s : State) : Host.Outcome State Fault Refusal :=
  .next (whenServing s (fun s =>
    let l := (s.drive d.val).sled
    if l.st = .off ∨ l.st = .fault then s
    else if 100 ≤ (if phaseB then l.openB else l.openA) then s.sledFault d.val (if phaseB then 2 else 1) else s))

/-- Duty and open-coil count of one phase in a carrier period (R400, R416). -/
def coilPeriod (kc dmax imax duty low : Nat) (i meas : Int) : Nat × Nat :=
  let t : Int := (i.natAbs : Nat)
  let duty' := if i = 0 then duty else (clampI 0 dmax ((duty : Int) + rnd ((t - meas) * (kc : Int)) 16)).toNat
  let weak := decide ((imax : Int) ≤ 4 * t ∧ 10 * meas < t)
  (duty', if weak then low + 1 else 0)

/-- The sled's part of a carrier period; a sample above ioc is an overcurrent and counts for no open coil. -/
def State.sledPeriod (s : State) (d : Nat) (ma mb : Nat) : State :=
  let l := (s.drive d).sled
  if l.st = .off ∨ l.st = .fault then s
  else
    let kc := Cf.SLD_CUR3_kc s d
    let dmax := Cf.SLD_PWM_dmax s d
    let imax := Cf.SLD_CUR_i_max s d
    let ioc := Cf.SLD_PROT_ioc s d
    let a := coilPeriod kc dmax imax l.dutyA l.openA l.iA ma
    let b := coilPeriod kc dmax imax l.dutyB l.openB l.iB mb
    let s := if ma ≤ ioc then s.modSled d (fun l => { l with dutyA := a.1, openA := a.2, cutA := 0 }) else s.sledOver d false
    if mb ≤ ioc then s.modSled d (fun l => { l with dutyB := b.1, openB := b.2, cutB := 0 }) else s.sledOver d true

/-! ### Commands (Table 12-2) -/

/-- A movement command is refused while homed is 0, in a travel, a homing or a fault, while PD_PGOOD is low, and unless the manager
holds the axis (R405, R411, R418, R421). -/
def State.sledMayMove (s : State) (d : Nat) : Bool :=
  let l := (s.drive d).sled
  ((s.drive d).axis 3).manual && l.homed && s.pgood && decide (l.st ≠ .travel ∧ l.st ≠ .homing ∧ l.st ≠ .fault)

/-- TRAVEL (R418): a move to SLD.TGT; a sled that was released to OFF with homed kept is driven again by it. -/
def execTravel (d : Fin 4) (s : State) : Host.Outcome State Fault Refusal :=
  .next (whenServing s (fun s =>
    if s.sledMayMove d.val then (s.sledMove d.val .travel (Cf.SLD_TGT_target s d.val)).settle else s.sledRefuse d.val))

/-- SLED_SEEK (R418): the same move as a seek. -/
def execSledSeek (d : Fin 4) (s : State) : Host.Outcome State Fault Refusal :=
  .next (whenServing s (fun s =>
    if s.sledMayMove d.val then (s.sledMove d.val .seek (Cf.SLD_TGT_target s d.val)).settle else s.sledRefuse d.val))

/-- PARK (R418). -/
def execPark (d : Fin 4) (s : State) : Host.Outcome State Fault Refusal :=
  .next (whenServing s (fun s =>
    if s.sledMayMove d.val then
      ((s.sledMove d.val .travel (Cf.SLD_MECH_PARK_park s d.val)).modSled d.val (fun l => { l with parking := true })).settle
    else s.sledRefuse d.val))

/-- HOME (R406): refused in a fault, while a homing or a travel runs, and while PD_PGOOD is low (R411, R421). DEDUCED, log entry 64. -/
def execHome (d : Fin 4) (s : State) : Host.Outcome State Fault Refusal :=
  .next (whenServing s (fun s =>
    let l := (s.drive d.val).sled
    if l.st = .fault ∨ l.st = .homing ∨ l.st = .travel ∨ !s.pgood then s.sledRefuse d.val else (s.sledHome d.val).settle))

/-- SLED_STOP (R418): brake at a and hold. -/
def execSledStop (d : Fin 4) (s : State) : Host.Outcome State Fault Refusal :=
  .next (whenServing s (fun s => s.modSled d.val (fun l =>
    if l.st = .homing ∨ l.st = .follow ∨ l.st = .travel ∨ l.st = .seek then { l with stopping := true } else l)))

/-- RELEASE (R418): bridges off, OFF, homed cleared. -/
def execSledRelease (d : Fin 4) (s : State) : Host.Outcome State Fault Refusal :=
  .next (whenServing s (fun s =>
    if ((s.drive d.val).axis 3).manual && decide ((s.drive d.val).sled.st ≠ .fault) then
      s.modSled d.val (fun l => { l with st := .off, homed := false, lateOnly := false, v := 0, a := 0, iA := 0, iB := 0, stopping := false,
                                         parking := false, parkNext := false, report := none })
    else s.sledRefuse d.val))

/-- SLED_CLEAR (R417): FAULT to OFF. -/
def execSledClear (d : Fin 4) (s : State) : Host.Outcome State Fault Refusal :=
  .next (whenServing s (fun s => s.modSled d.val (fun l =>
    if l.st = .fault then { l with st := .off, fault := 0, cutA := 0, cutB := 0, openA := 0, openB := 0 } else l)))

end Sys2Proof.Machine
end

