-- ==== Sys2Proof/Machine/Spindle.lean ====
section
/-!
DEFINITION. The spindle drive (spec/11): states of Table 11-1, start and stop requests (R375, R397), finding the rotor (R377, R378),
start and hand-over (R379), commutation and speed (R380 to R383), lock and back-EMF constant (R388, R391), braking (R389), faults
(R390 to R393) and rotor loss (R394, R398).
-/

namespace Sys2Proof.Machine

/-! ### Leaving and entering states (Table 11-1, R376) -/

/-- A returned spin-up grant is free from now on (R376, R470). -/
def State.returnGrant (s : State) (d : Nat) : State :=
  if (s.drive d).spin.grant then
    let s := s.modSpin d (fun p => { p with grant := false, returned := true })
    { s with pwb := { s.pwb with granted := none, returned := some s.tm.mono } }
  else s

/-- Leaving the states that need power: the grant, the place in the queue and the running share go back. -/
def State.spinLeave (s : State) (d : Nat) : State :=
  let s := s.returnGrant d
  { s with pwb := { s.pwb with queue := s.pwb.queue.filter (fun k => k ≠ d), asked := s.pwb.asked.filter (fun k => k ≠ d), run := setBitN s.pwb.run d false } }

/-- The axis of a spindle goes to a state with torque demand 0. -/
def State.spinAxis (s : State) (d : Nat) (st : AxState) : State :=
  (s.modAxis (axisOf d 2) (fun x => { x with st := st, fresh := false, out := 0, onTime := 0 })).modSpin d
    (fun p => { p with locked := false, goodRevs := 0, keBad := 0, keSum := 0, keNum := 0, duty := 0, due := false, waiting := false,
                       aligning := false, misses := 0, cuts := 0, crossRun := 0 })

/-- STOPPED: every gate low. -/
def State.spinStopped (s : State) (d : Nat) : State :=
  ((s.spinLeave d).spinAxis d .off).modSpin d (fun p => { p with st := .stopped, probes := 0, intervals := [], inRev := 0 })

/-- FAULT: every gate low, the axis FAIL. -/
def State.spinFault (s : State) (d code : Nat) : State :=
  (((s.spinLeave d).spinAxis d .fail).modSpin d (fun p =>
    { p with st := .fault, fault := code, probes := 0, intervals := [], inRev := 0 })).note .spindleFault (d + 16 * code)

/-- BRAKE, and what follows it (R389). -/
def State.spinBrake (s : State) (d : Nat) (after : AfterBrake) : State :=
  ((s.spinLeave d).spinAxis d .opened).modSpin d (fun p => { p with st := .brake, after := after, probes := 0, intervals := [], inRev := 0 })

/-- WAIT_GRANT: the drive asks for the grant; the next budget sample queues it behind those that wait (R376, R470). -/
def State.spinWait (s : State) (d : Nat) : State :=
  let s := (s.spinAxis d .off).modSpin d (fun p => { p with st := .waitGrant, grant := false, returned := false })
  { s with pwb := { s.pwb with asked := s.pwb.asked ++ [d] } }

/-- A start request (R375); the sled homes with it while it is not homed (R406). -/
def State.spinRequest (s : State) (d : Nat) : State :=
  let s := (s.modSpin d (fun p => { p with idled := false, lastWork := s.tm.mono })).spinWait d
  if (s.drive d).sled.homed then s else s.sledHome d

/-- A stop request (R375): from a reacquisition at once (R398); a fault that a braking leads to stands. -/
def State.spinStopReq (s : State) (d : Nat) : State :=
  match (s.drive d).spin.st with
  | .stopped => s.modSpin d (fun p => { p with waiting := false })
  | .fault => s
  | .brake => s.modSpin d (fun p => { p with after := (match p.after with
      | .fault c => .fault c
      | _ => .stop) })
  | _ => s.spinBrake d .stop

/-- Work for a drive: it restarts the idle time and a drive stopped for idling (R397). -/
def State.touchDrive (s : State) (d : Nat) : State :=
  let p := (s.drive d).spin
  if p.idled && decide (p.st = .stopped) then s.spinRequest d else s.modSpin d (fun p => { p with lastWork := s.tm.mono })

/-- A command not listed for the present state is ignored and logged. -/
def State.spinIgnore (s : State) (d cmd : Nat) : State := s.note .spinIgnored (d + 16 * cmd)

/-! ### Commands of SPN.CMD (R375) -/

/-- START. -/
def execSpinStart (d : Fin 4) (s : State) : Host.Outcome State Fault Refusal :=
  .next (whenServing s (fun s =>
    if (s.drive d.val).spin.st = .stopped then (s.spinRequest d.val).settle else s.spinIgnore d.val 1))

/-- STOP. -/
def execSpinStop (d : Fin 4) (s : State) : Host.Outcome State Fault Refusal :=
  .next (whenServing s (fun s =>
    let st := (s.drive d.val).spin.st
    if st = .stopped ∨ st = .fault then s.spinIgnore d.val 2 else (s.spinStopReq d.val).settle))

/-- COAST. -/
def execCoast (d : Fin 4) (s : State) : Host.Outcome State Fault Refusal :=
  .next (whenServing s (fun s =>
    if (s.drive d.val).spin.st = .fault then s.spinIgnore d.val 3 else (s.spinStopped d.val).settle))

/-- CLEAR_FAULT. -/
def execClearFault (d : Fin 4) (s : State) : Host.Outcome State Fault Refusal :=
  .next (whenServing s (fun s =>
    if (s.drive d.val).spin.st = .fault then
      ((s.spinStopped d.val).modSpin d.val (fun p => { p with fault := 0, keFault := false, retries := 0 })).settle
    else s.spinIgnore d.val 4))

/-- DRIVE_START_SEQUENCE (R350): a disc is qualified present with door and tray closed; the spindle starts first. -/
def execDriveStartSequence (d : Fin 4) (s : State) : Host.Outcome State Fault Refusal :=
  .next (whenServing s (fun s =>
    if !s.shut d.val || s.boot.dramFail then s
    else
      let s := s.modDrive d.val (fun r => { r with disc := true, starting := true })
      (if ((s.drive d.val).axis 2).manual || decide ((s.drive d.val).spin.st ≠ .stopped) then
         (if (s.drive d.val).sled.homed then s else s.sledHome d.val)
       else s.spinRequest d.val).settle))

/-! ### Finding the rotor, open-loop start (R377 to R379) -/

/-- Forced start at a step: 20 ms for the first, and looking for crossings from the first step on. -/
def State.spinStart (s : State) (d step : Nat) : State :=
  let pp := s.pp d
  (s.spinAxis d .opened).modSpin d (fun p =>
    { p with st := .start, iStart := Cf.SPN_START_i_start s d, step := step, forced := if pp = 0 then 0 else 500000 / pp, intervals := [], inRev := 0, detRuns := 0 })

/-- Index and value of the largest of a list; the first one among equals. -/
def largest (l : List Nat) : Nat × Nat :=
  (l.zipIdx.foldl (fun (b : Nat × Nat) e => if b.2 < e.1 then (e.2, e.1) else b) (0, l.headD 0))

/-- ROTOR_DETECT_DONE (R377, R378): the six currents of one run; ambiguous up to the third run, and then the rotor is aligned.
DESIGN CHOICE, log entry 64. -/
def execRotorDetectDone (d : Fin 4) (currents : List Nat) (s : State) : Host.Outcome State Fault Refusal :=
  .next (whenServing s (fun s =>
    let d := d.val
    let p := (s.drive d).spin
    if p.st ≠ .detect ∨ p.aligning ∨ currents.length ≠ 6 then s
    else
      let (k, top) := largest currents
      let second := (largest (currents.eraseIdx k)).2
      if top * 100 < second * (100 + Cf.SPN_IPD_margin s d) then
        (if 2 ≤ p.detRuns then (s.modSpin d (fun p => { p with aligning := true, detRuns := 3, step := 0 })).note .rotorAligned d
         else s.modSpin d (fun p => { p with detRuns := p.detRuns + 1 }))
      else s.spinStart d ((k + 2) % 6)))

/-- ALIGNMENT_DONE (R378). -/
def execAlignmentDone (d : Fin 4) (s : State) : Host.Outcome State Fault Refusal :=
  .next (whenServing s (fun s =>
    let p := (s.drive d.val).spin
    if p.st = .detect ∧ p.aligning then s.spinStart d.val 2 else s))

/-- Step time of a forced speed, in ns. -/
def forcedTau (pp forced : Nat) : Nat := if pp = 0 ∨ forced = 0 then 0 else 10 ^ 13 / (pp * forced)

/-- FORCED_COMMUTATION (R379): the next step, with the start current now in force (corner), and a shorter step time; a step without an
accepted crossing ends their run.
DESIGN CHOICE, log entry 64. -/
def execForcedCommutation (d : Fin 4) (s : State) : Host.Outcome State Fault Refusal :=
  .next (whenServing s (fun s =>
    let pp := s.pp d.val
    if (s.drive d.val).spin.st ≠ .start then s
    else
      s.modSpin d.val (fun p =>
        { p with step := (p.step + 1) % 6, iStart := Cf.SPN_START_i_start s d.val, due := false, crossRun := if p.due then p.crossRun else 0,
                 forced := p.forced + (if pp = 0 ∨ p.forced = 0 then 0 else Cf.SPN_START_accel s d.val * 10 ^ 7 / (pp * p.forced)) })))

/-! ### Commutation (R380 to R382) -/

/-- τ: the mean of the last two intervals, in START the forced step time. -/
def Spindle.tau (p : Spindle) (pp : Nat) : Nat :=
  if p.st = .start then forcedTau pp p.forced
  else
    match p.intervals with
    | a :: b :: _ => (a + b) / 2
    | [a] => a
    | [] => 0

/-- A crossing `dt` after the last one lies in the window, after the edge and the blanking (R381); after a miss it is expected one τ
later (R394). DESIGN CHOICE, log entry 64. -/
def State.crossOk (s : State) (d dt : Nat) : Bool :=
  let p := (s.drive d).spin
  let tau := p.tau (s.pp d)
  let edge := tau * (30 - Cf.SPN_COM_adv s d) / 60 + tau / 8 + tau * Cf.SPN_COM_blank s d / 16
  let off := p.misses * tau
  decide (0 < tau ∧ ((dt : Int) - (tau + off : Nat)).natAbs * 16 ≤ tau * Cf.SPN_COM_win s d ∧ edge + off ≤ dt)

/-- A commutation event: it counts, and its interval enters the speed. -/
def State.commEvent (s : State) (d dt : Nat) : State :=
  s.modSpin d (fun p => { p with intervals := (dt :: p.intervals).take 72, events := (p.events + 1) % 2 ^ 32, inRev := p.inRev + 1,
                                 due := true, misses := 0, crossRun := p.crossRun + 1, waiting := false })

/-- The spin-up grant goes back once the speed is within 10 % of the set-point (R376). -/
def State.spinReach (s : State) (d : Nat) : State :=
  if (s.drive d).spin.grant && s.spinNear d then s.returnGrant d else s

/-- Lock at the end of a revolution (R388). -/
def State.judgeSpin (s : State) (d : Nat) : State :=
  let x := (s.drive d).axis 2
  let off : Nat := 1024 * (s.speed d - x.sp).natAbs
  let within (t : Nat) : Bool := decide (off ≤ t * x.sp.natAbs)
  if x.st ≠ .closed then s.modSpin d (fun p => { p with locked := false, goodRevs := 0 })
  else if (s.drive d).spin.locked then
    (if within (Cf.SPN_LOCK_tol_out s d) then s else s.modSpin d (fun p => { p with locked := false, goodRevs := 0, keBad := 0 }))
  else if within (Cf.SPN_LOCK_tol s d) then
    s.modSpin d (fun p => { p with goodRevs := p.goodRevs + 1, locked := decide (Cf.SPN_LOCK_rev s d ≤ p.goodRevs + 1) })
  else s.modSpin d (fun p => { p with goodRevs := 0 })

/-- The constant measured over a revolution above 1500 rpm, and its eight revolutions (R391). -/
def State.judgeKe (s : State) (d : Nat) : State :=
  let p := (s.drive d).spin
  let rpm := rpmOf (s.speed d)
  let nom := Cf.SPN_KE_nom s d
  let tol := Cf.SPN_KE_tol s d
  let clear (s : State) : State := s.modSpin d (fun p => { p with keSum := 0, keNum := 0 })
  if p.keNum = 0 ∨ rpm ≤ 1500 then clear s
  else
    let ke := p.keSum / p.keNum / rpm
    let low := decide (100 * ke < nom * (100 - tol))
    let high := decide (nom * (100 + tol) < 100 * ke)
    let s := clear (s.modSpin d (fun p => { p with ke := satU 16 ke, keBad := if low || high then p.keBad + 1 else 0 }))
    if 8 ≤ (s.drive d).spin.keBad then
      (s.spinBrake d (.fault (if low then 2 else 3))).modSpin d (fun p => { p with keFault := true })
    else s

/-- The end of a revolution of 6 × pp events. -/
def State.revolution (s : State) (d : Nat) : State :=
  if (s.drive d).spin.inRev < 6 * s.pp d then s
  else ((s.modSpin d (fun p => { p with inRev := 0 })).judgeSpin d).judgeKe d

/-- Hand-over to RUN (R379): Dn.SPN closes with i_start as its last output. DESIGN CHOICE, log entry 64. -/
def State.handOver (s : State) (d : Nat) : State :=
  let s := s.modSpin d (fun p => { p with st := .run, retries := 0, misses := 0, lastWork := s.tm.mono })
  let u : Int := ((s.drive d).spin.iStart * 2 ^ 28 / 100 : Nat)
  ((s.modAxis (axisOf d 2) (fun x => { x with out := u })).closeAxis (axisOf d 2))

/-- ZERO_CROSSING (R381, R379, R388, R391): a crossing `dt` ns after the last one, its slope, and the back-EMF sample 15° after it in
µV at the ball. -/
def execZeroCrossing (d : Fin 4) (dt : Nat) (rising : Bool) (sample : Int) (s : State) : Host.Outcome State Fault Refusal :=
  .next (whenServing s (fun s =>
    let d := d.val
    let p := (s.drive d).spin
    if (p.st ≠ .start ∧ p.st ≠ .run) ∨ rising ≠ decide (p.step % 2 = 1) ∨ !s.crossOk d dt then s
    else
      let s := s.commEvent d dt
      (if p.st = .start then
         (if 6 ≤ p.crossRun + 1 ∧ 1000 * Cf.SPN_START2_handover s d ≤ p.forced then s.handOver d else s)
       else
         let measured := p.locked && decide (0 ≤ (s.drive d).spnGroup.demand)
         let s := if measured then
           s.modSpin d (fun p => { p with keSum := p.keSum + sample.natAbs * Cf.SPN_BEMF_div s d / 256, keNum := p.keNum + 1 }) else s
         (s.revolution d).spinReach d).settle))

/-- COMMUTATION (R380, R381): at the scheduled instant the drive advances one step. -/
def execCommutation (d : Fin 4) (s : State) : Host.Outcome State Fault Refusal :=
  .next (whenServing s (fun s =>
    let p := (s.drive d.val).spin
    if p.st = .run ∧ p.due then s.modSpin d.val (fun p => { p with step := (p.step + 1) % 6, due := false }) else s))

/-! ### Current (R383, R392) -/

/-- The torque demand in force: i_start in START; 0 while PD_PGOOD is low or the axis is open (R379, R383, R396). -/
def State.torque (s : State) (d : Nat) : Int :=
  let r := s.drive d
  match r.spin.st with
  | .start => if s.pgood then ((r.spin.iStart * 2 ^ 28 / 100 : Nat) : Int) else 0
  | .run => if s.pgood ∧ ((r.axis 2).st = .ramp ∨ (r.axis 2).st = .closed) then r.spnGroup.demand else 0
  | _ => 0

/-- The duty of the next period (R383). -/
def State.nextDuty (s : State) (d ma : Nat) : Nat :=
  let q := s.torque d
  let dmax := Cf.SPN_PWM_dmax s d
  if q = 0 then 0
  else if q < 0 then min (q.natAbs * 256 / 2 ^ 28) dmax
  else
    let want : Int := asr (q * (Cf.SPN_IFS_ma s d : Nat)) 28
    (clampI 0 (dmax : Nat) (((s.drive d).spin.duty : Int) + rnd ((want - (ma : Nat)) * (Cf.SPN_CUR_kc s d : Nat)) 16)).toNat

/-- A sample above ioc turns every gate low for the rest of the period; 1000 in a row are fault 4, never in BRAKE (R392, corner). -/
def State.spinOver (s : State) (d : Nat) : State :=
  let p := (s.drive d).spin
  if p.st = .detect ∨ p.st = .start ∨ p.st = .run then
    (if 999 ≤ p.cuts then s.spinFault d 4 else s.modSpin d (fun p => { p with cuts := p.cuts + 1 }))
  else s

/-- SPINDLE_OVERCURRENT (R392). -/
def execSpindleOvercurrent (d : Fin 4) (s : State) : Host.Outcome State Fault Refusal :=
  .next (whenServing s (fun s => (s.spinOver d.val).settle))

/-- CARRIER_PERIOD (R383, R373, R400): a spindle or a sled period, with the current sampled at the on-time centre, of the sled per phase;
full scale is an overcurrent too (R562).
DESIGN CHOICE, log entry 65. -/
def execCarrierPeriod (d : Fin 4) (sled : Bool) (ma mb : BitVec 16) (s : State) : Host.Outcome State Fault Refusal :=
  .next (whenServing s (fun s =>
    let d := d.val
    if sled then s.sledPeriod d ma.toNat mb.toNat
    else
      let i := ma.toNat
      let s := s.modSpin d (fun p => { p with pSum := p.pSum + i * p.duty, pNum := p.pNum + 1 })
      if Cf.SPN_PROT_ioc s d < i ∨ (Cf.SPN_IFS_ma s d ≠ 0 ∧ Cf.SPN_IFS_ma s d ≤ i) then (s.spinOver d).settle
      else s.modSpin d (fun p => { p with duty := s.nextDuty d i, cuts := 0 })))

/-! ### Braking (R389) -/

/-- A braking ends. -/
def State.brakeEnds (s : State) (d : Nat) : State :=
  match (s.drive d).spin.after with
  | .stop => s.spinStopped d
  | .restart => (s.spinStopped d).spinWait d
  | .fault c => s.spinFault d c

/-- BRAKE_PROBE (R389): the speed estimate from the line-to-line amplitude at the balls, in µV. -/
def execBrakeProbe (d : Fin 4) (uv : Nat) (s : State) : Host.Outcome State Fault Refusal :=
  .next (whenServing s (fun s =>
    let d := d.val
    let p := (s.drive d).spin
    if p.st ≠ .brake then s
    else
      let slow := decide (uv * Cf.SPN_BEMF_div s d / 256 < 60 * Cf.SPN_KE_nom s d)
      if slow ∧ 1 ≤ p.probes then (s.brakeEnds d).settle
      else s.modSpin d (fun p => { p with probes := if slow then p.probes + 1 else 0 })))

/-- BRAKE_TIMEOUT (R389): 5 s in BRAKE. DESIGN CHOICE, log entry 2. -/
def execBrakeTimeout (d : Fin 4) (s : State) : Host.Outcome State Fault Refusal :=
  .next (whenServing s (fun s =>
    if (s.drive d.val).spin.st = .brake then ((s.brakeEnds d.val).note .brakeTimeout d.val).settle else s))

/-! ### Locked rotor (R390) -/

/-- LOCKED_ROTOR_TIMEOUT: 250 ms without a commutation event; every gate low, and 1 s of waiting. DESIGN CHOICE, log entry 2. -/
def execLockedRotorTimeout (d : Fin 4) (s : State) : Host.Outcome State Fault Refusal :=
  .next (whenServing s (fun s =>
    let d := d.val
    let st := (s.drive d).spin.st
    if st = .start ∨ st = .run then
      (((s.spinStopped d).modSpin d (fun p => { p with waiting := true, lockedCnt := inc16 p.lockedCnt })).note .rotorLocked d).settle
    else s))

/-- LOCKED_ROTOR_RETRY: after 1 s back to WAIT_GRANT, up to retries times in a row, and then fault 1. DESIGN CHOICE, log entry 2. -/
def execLockedRotorRetry (d : Fin 4) (s : State) : Host.Outcome State Fault Refusal :=
  .next (whenServing s (fun s =>
    let d := d.val
    let p := (s.drive d).spin
    if p.st = .stopped ∧ p.waiting then
      (if p.retries < Cf.SPN_START_retries s d then
         (s.modSpin d (fun p => { p with retries := p.retries + 1 })).spinWait d
       else s.spinFault d 1).settle
    else s))

/-! ### Rotor loss (R393, R394, Table 11-3) -/

/-- Rotor loss is declared. -/
def State.rotorLoss (s : State) (d : Nat) : State :=
  let x := (s.drive d).axis 2
  let times := (s.tm.mono :: (s.drive d).spin.losses).filter (fun t => s.tm.mono < t + 600000)
  let s := (s.modSpin d (fun p => { p with losses := times, lossCnt := inc16 p.lossCnt, heldSp := x.sp })).note .rotorLost d
  if Cf.SPN_PROT_loss_max s d < times.length then s.spinBrake d (.fault 5)
  else
    let late := decide (x.st = .lateOpen)
    ((s.spinLeave d).spinAxis d (if late then .lateOpen else .opened)).modSpin d (fun p => { p with st := .lost, intervals := [], inRev := 0 })

/-- CROSSING_WINDOW_MISS (R394): commutation goes on at the predicted time; the second miss in a row is a loss. -/
def execCrossingWindowMiss (d : Fin 4) (s : State) : Host.Outcome State Fault Refusal :=
  .next (whenServing s (fun s =>
    let p := (s.drive d.val).spin
    if p.st ≠ .run then s
    else if p.misses = 0 then s.modSpin d.val (fun p => { p with misses := 1, due := true })
    else (s.rotorLoss d.val).settle))

/-- Each interval lies within ±25 % of the one before. -/
def steady : List Nat → Bool
  | a :: b :: r => decide (4 * ((b : Int) - a).natAbs ≤ a) && steady (b :: r)
  | _ => true

/-- ROTOR_REACQUIRED (Table 11-3, steps 4 to 6): the step reached and the five intervals of six crossings, oldest first. The close waits
while Dn.SPN is in LATE_OPEN. -/
def execRotorReacquired (d : Fin 4) (step : Fin 6) (intervals : List Nat) (s : State) : Host.Outcome State Fault Refusal :=
  .next (whenServing s (fun s =>
    let d := d.val
    if (s.drive d).spin.st ≠ .lost ∨ intervals.length ≠ 5 ∨ !steady intervals then s
    else
      let m := speedQ (s.pp d) (intervals.foldl (fun a b => a + b) 0 / 5) 0
      (if 2 * m < (s.drive d).spin.heldSp then s.spinBrake d .restart
       else
         let late := decide (((s.drive d).axis 2).st = .lateOpen)
         let s := s.modSpin d (fun p => { p with st := .run, step := step.val, intervals := intervals.reverse, misses := 0, waiting := late })
         if late then s else s.closeAxis (axisOf d 2)).settle))

/-- REACQUISITION_TIMEOUT (Table 11-3, step 6): 50 ms without a reacquisition, or without the close that waits for LATE_OPEN to end.
DESIGN CHOICE, log entry 2. -/
def execReacquisitionTimeout (d : Fin 4) (s : State) : Host.Outcome State Fault Refusal :=
  .next (whenServing s (fun s =>
    let p := (s.drive d.val).spin
    if p.st = .lost ∨ (p.st = .run ∧ p.waiting ∧ ((s.drive d.val).axis 2).st = .lateOpen) then (s.spinBrake d.val .restart).settle else s))

/-! ### Idling (R397) -/

/-- Work is under way on a drive. -/
def State.driveBusy (s : State) (d : Nat) : Bool :=
  let r := s.drive d
  s.needsCap d || r.wst.burst.isSome || decide (r.seq ≠ .none) || r.confirm

/-- SPINDLE_IDLE_TIMEOUT (R397). -/
def execSpindleIdleTimeout (d : Fin 4) (s : State) : Host.Outcome State Fault Refusal :=
  .next (whenServing s (fun s =>
    let d := d.val
    let p := (s.drive d).spin
    let idle := Cf.SPN_CTL_idle_s s d
    if p.st = .run ∧ idle ≠ 0 ∧ !s.driveBusy d ∧ p.lastWork + 1000 * idle ≤ s.tm.mono then
      ((s.spinBrake d .stop).modSpin d (fun p => { p with idled := true })).settle
    else s))

end Sys2Proof.Machine
end

