-- ==== Sys2Proof/Machine/Seek.lean ====
section
/-!
DEFINITION. Track seeks (R362 to R364): SEEK and SEEK_CONFIRM, over the servo engine and the sled.
-/

namespace Sys2Proof.Machine

/-- A seek of a drive to its target from where the spot is (R362, R363); `force` runs a long one. -/
def State.seek (s : State) (d : Nat) (force : Bool) : State :=
  let a := axisOf d 1
  let r := s.drive d
  let dist := trackDist r.track r.target (s.zoneW d r.layer (slotZone r.layer (r.track / slotWobbles)))
  if !force && decide (dist.natAbs ≤ Cf.SRV_SEEK2_short s a) then s.shortSeek d dist
  else
    ((((s.modDrive d (fun r => { r with seq := .long, confirm := false, landed := false })).rampOpen a .seq).openSled d .opened).sledSeekTo d)

/-- SEEK (R362): `now` is the wobble position that the ADIP shows. A target written while a seek runs replaces it at the next close, in
the long phase at once (R364). -/
def execSeek (d : Fin 4) (now : Nat) (s : State) : Host.Outcome State Fault Refusal :=
  .next (whenServing s (fun s =>
    let a := axisOf d.val 1
    let s := (s.take a).touchDrive d.val
    let target := pbaWobble (Cf.SRV_SEEK_target s a)
    let s := s.modDrive d.val (fun r => { r with target := target, failed := 0 })
    match (s.drive d.val).seq with
    | .short _ _ _ _ => s
    | .long => s.sledSeekTo d.val
    | .none => ((s.modDrive d.val (fun r => { r with track := now })).seek d.val false).settle
    | _ => s))

/-- SEEK_CONFIRM (R363, R364): the ADIP read after a close confirms the target track, or the seek is tried again: twice more, then one long
seek and three short ones, and then TRK fails. After the arrival of a long seek a short seek follows, which belongs to it. -/
def execSeekConfirm (d : Fin 4) (now : Nat) (s : State) : Host.Outcome State Fault Refusal :=
  .next (whenServing s (fun s =>
    let r := s.drive d.val
    if !r.confirm then s
    else
      let dist := trackDist now r.target (s.zoneW d.val r.layer (slotZone r.layer (now / slotWobbles)))
      let s := s.modDrive d.val (fun x => { x with confirm := false, landed := false, track := now })
      if dist ≠ 0 ∧ r.landed then (s.shortSeek d.val dist).settle
      else if dist = 0 then s.modDrive d.val (fun r => { r with failed := 0 })
      else
        let n := r.failed + 1
        let s := s.modDrive d.val (fun r => { r with failed := n })
        (if n < 3 then s.seek d.val false
         else if n = 3 then s.seek d.val true
         else if n ≤ 6 then s.shortSeek d.val dist
         else (s.openTrk d.val .fail).note .seekFailed (axisOf d.val 1)).settle))

end Sys2Proof.Machine
end

