-- ==== Sys2Proof/Machine/RfChannel.lean ====
section
/-!
DEFINITION. The read channel (spec/09): the channel clock and zone rates (R307 to R309), conversion to channel bits (R311 to R316), the
sync-triggered reset (R317), frame sync and the flywheel (R318 to R322).
-/

namespace Sys2Proof.Machine

/-! ### Channel clock and zone rates (R307 to R309) -/

/-- One wobble period's phase error, in 1/64 period: 64 periods in a row within 1/16 lock the loop, 4 of any 16 beyond 1/4 unlock it. -/
def ReadChannel.wobble (c : ReadChannel) (e : BitVec 8) : ReadChannel :=
  let m := e.toInt.natAbs
  let run := if m ≤ 4 then min 64 (c.lockRun + 1) else 0
  let far := (decide (16 < m) :: c.beyond).take 16
  let out := decide (4 ≤ (far.filter (fun b => b)).length)
  if c.clkLock then
    (if out then { c with clkLock := false, lockRun := 0, beyond := [] } else { c with lockRun := run, beyond := far })
  else if run = 64 then { c with clkLock := true, lockRun := 64, beyond := [] }
  else { c with lockRun := run, beyond := far }

/-- The channel rate is one at which the drive works (R308). -/
def State.rateOk (s : State) (d : Nat) : Bool := decide (20000 ≤ (s.drive d).rdc.kbps ∧ (s.drive d).rdc.kbps ≤ 250000)

/-- A slot in recording is abandoned, and its stripe replaced (R332). -/
def State.abandonSlot (s : State) (d : Nat) : State :=
  match (s.drive d).wst.burst, s.posOf d with
  | some n, some p => (s.modWst d (fun w => { w with burst := none })).stripeBad n p
  | _, _ => s

/-- CHANNEL_CLOCK_LOCK_CHANGE (R307, R308, R332): phase errors of wobble periods in 1/64 period, and the channel rate in kbit/s; a slot
recorded without lock or outside the range of rates is abandoned. -/
def execChannelClockLockChange (d : Fin 4) (errs : List (BitVec 8)) (kbps : BitVec 18) (s : State) : Host.Outcome State Fault Refusal :=
  .next (whenServing s (fun s =>
    let d := d.val
    if !s.hasDisc d then s
    else
      let s := s.modRdc d (fun c => { errs.foldl ReadChannel.wobble c with kbps := kbps.toNat })
      (if (s.drive d).rdc.clkLock && s.rateOk d then s else s.abandonSlot d).settle))

/-- ZONE_WOBBLE_MEASURE (R309): wobble periods counted over 8 revolutions at the first slot of a zone, rounded to the nearest whole
period per revolution. -/
def execZoneWobbleMeasure (d : Fin 4) (layer : Fin 2) (zone : Fin 40) (periods : BitVec 24) (s : State) : Host.Outcome State Fault Refusal :=
  .next (whenServing s (fun s =>
    if s.hasDisc d.val then
      s.modRdc d.val (fun c => { c with zw := Bank.set natDef c.zw (layer.val * 64 + zone.val) ((periods.toNat + 4) / 8) })
    else s))

/-- The rate ceiling of a zone in bit/s. -/
def zoneCeiling (w : Nat) : Nat := min (250 * 10 ^ 6) (100 * 62 * w)

/-! ### Settings of a read (R312 to R316, R326) -/

/-- The values in force while a slot is read. -/
structure RxCfg where
  taps : List Int
  kdc : Nat
  kthr : Nat
  qual : Int
  pg : Int
  amp0 : Int
  hold : Bool
  guard : Nat
  deriving DecidableEq, Repr

/-- The values of the channel with the change of a retry, clamped to their ranges; qual and amp0 are those of the THR item while it holds a
valid value (R433). -/
def State.rxCfg (s : State) (d : Nat) : RxCfg :=
  let n := (s.drive d).rdc.retry
  let l := (s.drive d).layer
  let thr := (s.nearSet (calLayer d l 2) (s.trimTemp d)).isSome
  let q := if thr then (s.trimLayer d l 2).toNat else Cf.RDC_ADP_qual s d
  let k := Cf.RDC_ADP_kthr s d
  let g := Cf.RDC_ERS_guard s d
  { taps := [Cf.RDC_EQ0_tap_lo s d, Cf.RDC_EQ0_tap_hi s d, Cf.RDC_EQ1_tap_lo s d, Cf.RDC_EQ1_tap_hi s d, Cf.RDC_EQ2_tap_lo s d,
             Cf.RDC_EQ2_tap_hi s d, Cf.RDC_EQ3_tap_lo s d, Cf.RDC_EQ3_tap_hi s d, Cf.RDC_EQ4_tap_lo s d],
    kdc := Cf.RDC_ADP_kdc s d, kthr := if n = 3 then min 8 (k + 2) else k,
    qual := ((if n = 1 then max 1 (q - 2) else if n = 2 then min 15 (q + 2) else q : Nat) : Int), pg := (Cf.RDC_ADP_pg s d : Nat),
    amp0 := if thr then s.trimLayer d l 3 else (Cf.RDC_ADP_amp0 s d : Nat), hold := decide (Cf.RDC_ERS_hold s d = 1), guard := if n = 3 then min 255 (2 * g) else g }

/-- The sum of products of two lists. -/
def dot : List Int → List Int → Int
  | a :: l, b :: r => a * b + dot l r
  | _, _ => 0

/-! ### The flywheel (R319 to R321) -/

/-- The frame to be judged next, and the predicted position of its sync. -/
def Flywheel.frame (w : Flywheel) : Nat := w.frames.length
def Flywheel.predicted (w : Flywheel) : Nat := w.base + 32784 * (w.frame - w.baseFrame)

/-- Two positions within `n` channel bits. -/
def near (n a b : Nat) : Bool := decide (((a : Int) - b).natAbs ≤ n)

/-- The next frame is judged with an accepted sync. -/
def Flywheel.accept (w : Flywheel) (pos : Nat) : Flywheel :=
  { w with frames := w.frames ++ [(.synced, pos)], base := pos, baseFrame := w.frame, missed := 0, here := none, cand := none, lock := true,
           seen := true }

/-- A candidate that the next sync does not confirm is rejected. -/
def Flywheel.reject (w : Flywheel) : Flywheel :=
  match w.cand with
  | some _ => { w with cand := none, rejected := (w.frame - 1) :: w.rejected }
  | none => w

/-- The frames before an accepted one that have not been judged: at the first sync of a slot, two inferred and the rest unsynchronised;
after a loss of lock, all unsynchronised. -/
def Flywheel.back (w : Flywheel) (f pos : Nat) : List (FrameStatus × Nat) :=
  (List.range (f - w.frame)).map (fun k =>
    let g := w.frame + k
    if !w.seen && decide (f ≤ g + 2) then (.inferred, pos - 32784 * (f - g)) else (.unsync, 0))

/-- A body found at a position with its ID; with it whether the reset of R317 follows, and whether an ID error counts. Two bodies never lie
within one window of ±2, since the spacing of 3 that ends each of them follows one of 8 to 10. -/
def Flywheel.body (w : Flywheel) (pos : Nat) (id : Option Nat) : Flywheel × Bool × Bool :=
  let f := w.frame
  if 16 ≤ f then (w, false, false)
  else if w.lock then
    match w.cand with
    | some c =>
      if near 2 pos (c + 32784) && decide (id = some f) then
        (({ w with frames := w.frames.dropLast ++ [(FrameStatus.shifted, c)], cand := none }).accept pos, true, false)
      else if near 2 pos w.predicted then (w.reject.accept pos, false, decide (id ≠ some f))
      else if near 64 pos w.predicted && decide (id = some f) && w.here.isNone then ({ w with here := some pos }, false, false)
      else (w, false, false)
    | none =>
      if near 2 pos w.predicted then (w.accept pos, false, decide (id ≠ some f))
      else if near 64 pos w.predicted && decide (id = some f) && w.here.isNone then ({ w with here := some pos }, false, false)
      else (w, false, false)
  else
    match id with
    | some g =>
      if decide (f ≤ g) && near 64 pos (frameStart g) then (({ w with frames := w.frames ++ w.back g pos }).accept pos, true, false)
      else (w, false, false)
    | none => (w, false, false)

/-- The window of the next frame closes without an accepted sync. -/
def Flywheel.close (w : Flywheel) : Flywheel :=
  let p := w.predicted
  let w := w.reject
  if 3 ≤ w.missed + 1 then { w with frames := w.frames ++ [(.unsync, 0)], missed := w.missed + 1, lock := false, here := none, cand := none }
  else { w with frames := w.frames ++ [(.inferred, p)], missed := w.missed + 1, cand := w.here, here := none }

/-- Every window that ends before channel bit `now` closes. -/
def Flywheel.until (w : Flywheel) (now : Int) : Nat → Flywheel
  | 0 => w
  | n + 1 => if w.lock && decide (w.frame < 16) && decide ((w.predicted : Int) + 112 < now) then (w.close).until now n else w

/-- The slot ends: frames not reached are judged, and a candidate of frame 15 is rejected (R320). -/
def Flywheel.finish (w : Flywheel) : Flywheel :=
  let w := w.until (2 ^ 32) 16
  let w := { w with frames := w.frames ++ List.replicate (16 - w.frame) (FrameStatus.unsync, 0) }
  match w.cand with
  | some _ => { w with cand := none, rejected := 15 :: w.rejected }
  | none => w

/-! ### Samples to channel bits (R311 to R318) -/

/-- The channel bit that the grid has reached. -/
def Rx.now (x : Rx) : Int := Int.fdiv (16 * (x.n : Int) - x.phi) 64

/-- The channel bits of a stretch, from the 1s in ascending order. -/
def bitsFrom : List Nat → Nat → Nat → List Bool
  | _, _, 0 => []
  | [], p, n + 1 => false :: bitsFrom [] (p + 1) n
  | o :: r, p, n + 1 =>
    if o = p then true :: bitsFrom r (p + 1) n else false :: bitsFrom (o :: r) (p + 1) n
def Rx.bits (x : Rx) (start len : Nat) : List Bool :=
  bitsFrom (((x.ones.map (fun e => e.1)).filter (fun o => decide (start ≤ o ∧ o < start + len))).reverse) start len

/-- A byte or word of bit pairs, most significant first. -/
def pairsVal (l : List (Bool × Bool)) : Nat := l.foldl (fun a p => 4 * a + 2 * b2n p.1 + b2n p.2) 0

/-- The frame that the ID after a body names. -/
def Rx.bodyId (x : Rx) (pos : Nat) : Option Nat := syncFrame (pairsVal ((decodeUnit 8 (x.bits (pos + 24) 24)).map (fun e => e.1)))

/-- A body ends with a transition (R318): two spacings of 8 to 10 that add to 17, 18 or 19, and one of 3. -/
def bodyAt : List (Nat × Int) → Option Nat
  | a :: b :: c :: d :: _ =>
    let s1 : Int := (c.1 : Int) - d.1
    let s2 : Int := (b.1 : Int) - c.1
    if (a.1 : Int) - b.1 = 3 ∧ 8 ≤ s1 ∧ s1 ≤ 10 ∧ 8 ≤ s2 ∧ s2 ≤ 10 ∧ 17 ≤ s1 + s2 ∧ s1 + s2 ≤ 19 ∧ 22 ≤ a.1 then some (a.1 - 22) else none
  | _ => none

/-- A defect flag is active or ended within a stretch. -/
def Rx.inDefect (x : Rx) (a b : Nat) : Bool :=
  (match x.flagFrom with
   | some f => decide (f ≤ b)
   | none => false) || x.defects.any (fun e => decide (e.1 ≤ b ∧ a ≤ e.2))

/-- A qualified peak becomes a channel-bit 1 on the grid (R316) and moves the thresholds where it counts (R315). -/
def Rx.place (k : RxCfg) (x : Rx) (frozen up : Bool) (v t : Int) : Rx :=
  let i := roundDiv (t - x.phi) 64
  let e := t - x.phi - 64 * i
  let idx := i.toNat
  let counts := x.hold = 0 && !frozen
  let span : Option Nat := x.ones.head?.map (fun o => o.1)
  let wrong := match span with
    | some o => decide (idx < o + 2 ∨ o + 8 < idx)
    | none => false
  let lost := match span with
    | some o => decide (o + 16 < idx) && !x.inDefect o idx
    | none => false
  let ones := (idx, t) :: x.ones
  { x with
    last := some ⟨up, v.natAbs, x.pk, x.nk, x.phi, x.bad, x.loss⟩,
    phi := x.phi + asr (e * k.pg) 4,
    pk := if counts && up then x.pk + asr (v - x.pk) k.kthr else x.pk,
    nk := if counts && !up then x.nk + asr (v - x.nk) k.kthr else x.nk,
    bad := if wrong then (span.getD 0, idx) :: x.bad else x.bad,
    loss := if lost then x.loss + 1 else x.loss,
    ones := ones,
    await := (match bodyAt ones with
      | some p => x.await ++ [p]
      | none => x.await) }

/-- A replaced peak leaves nothing behind (R314). -/
def Rx.withdraw (x : Rx) (l : LastPeak) : Rx :=
  { x with pk := l.pk, nk := l.nk, phi := l.phi, bad := l.bad, loss := l.loss, ones := x.ones.drop 1,
           await := (match bodyAt x.ones with
             | some p => x.await.filter (fun q => q ≠ p)
             | none => x.await) }

/-- A qualified peak: it must alternate in sign; a larger one of the same sign replaces the last, a smaller one is discarded. -/
def Rx.qualify (k : RxCfg) (x : Rx) (frozen up : Bool) (v t : Int) : Rx :=
  match x.last with
  | some l =>
    if l.up = up then (if l.mag < v.natAbs then (x.withdraw l).place k frozen up v t else x) else x.place k frozen up v t
  | none => x.place k frozen up v t

/-- Whether the middle one of three values is a qualified peak (R314, R315); its time is the middle sample's plus δ. -/
def Rx.peak (k : RxCfg) (x : Rx) (frozen : Bool) (r0 r1 r2 : Int) : Rx :=
  let m := asr (x.pk + x.nk) 1
  let up := decide (r0 < r1 ∧ r2 ≤ r1 ∧ m + asr (k.qual * (x.pk - m)) 4 ≤ r1)
  let down := decide (r1 < r0 ∧ r1 ≤ r2 ∧ r1 ≤ m - asr (k.qual * (m - x.nk)) 4)
  if up || down then
    let delta := clampI (-8) 8 (roundDiv (16 * (r0 - r2)) (2 * (r0 - 2 * r1 + r2)))
    x.qualify k frozen up r1 (16 * ((x.n : Int) - 2) + delta)
  else x

/-- The sync-triggered reset (R317). -/
def Rx.syncReset (x : Rx) (pos : Nat) : Rx :=
  let m := asr (x.pk + x.nk) 1
  let phi := match x.ones.find? (fun o => decide (o.1 < pos + 48)) with
    | some o => o.2 - 64 * (o.1 : Int)
    | none => x.phi
  { x with b := x.b + m * 2 ^ 14, pk := x.pk - m, nk := x.nk - m, phi := phi, hold := 32 }

/-- A body whose ID is complete is judged; the count is of ID errors. -/
def Rx.judge (x : Rx) (pos : Nat) : Rx × Nat :=
  let (w, reset, err) := x.fly.body pos (x.bodyId pos)
  let x := { x with fly := w }
  (if reset then x.syncReset pos else x, b2n err)

/-- The syncs that are complete at this sample, then the windows that have passed. -/
def Rx.syncs (x : Rx) : Rx × Nat :=
  let ready := x.await.filter (fun (p : Nat) => decide ((p : Int) + 48 ≤ x.now))
  let r := ready.foldl (fun (a : Rx × Nat) p => let j := a.1.judge p; (j.1, a.2 + j.2))
    ({ x with await := x.await.filter (fun (p : Nat) => !decide ((p : Int) + 48 ≤ x.now)) }, 0)
  ({ r.1 with fly := r.1.fly.until r.1.now 16 }, r.2)

/-- One sample of the converter (R311 to R313): the filter, DC restore, the peak test on the sample before, the syncs.
DESIGN CHOICE, log entry 44. -/
def Rx.step (k : RxCfg) (a : Rx × Nat) (smp : RfSample) : Rx × Nat :=
  let x := a.1
  let v : Int := (smp.code.toNat : Int) - 128
  let w := v :: x.line
  let y := satS 10 (asr (dot k.taps w) 8)
  let frozen := smp.defect && k.hold
  let r := satS 10 (y - asr x.b 14)
  let b := if x.hold ≠ 0 || frozen then x.b else x.b + asr (y * 2 ^ 14 - x.b) k.kdc
  let at_ := x.now.toNat
  let x1 := { x with n := x.n + 1, line := w.take 8, b := b,
                     flagFrom := if smp.defect then (match x.flagFrom with
                       | some f => some f
                       | none => some at_) else none,
                     defects := (match x.flagFrom with
                       | some f => if smp.defect then x.defects else (f, at_) :: x.defects
                       | none => x.defects) }
  let x2 := if 2 ≤ x.n then x1.peak k frozen x.r2 x.r1 r else x1
  let x3 := { x2 with r1 := r, r2 := x.r1, hold := x2.hold - 1 }
  let j := x3.syncs
  (j.1, a.2 + j.2)

/-- A slot begins at a PBA (R315): P and N take amp0, the buffer is empty; the filters keep what they hold. -/
def Rx.begin (k : RxCfg) (x : Rx) (pba : Nat) : Rx :=
  { x with pba := some pba, n := 0, pk := k.amp0, nk := -k.amp0, phi := 0, hold := 0, ones := [], last := none, await := [],
           flagFrom := none, defects := [], bad := [], loss := 0, fly := Flywheel.reset }

/-- Codes 0 and 255 are overrange (R311). -/
def overrange (l : List RfSample) : Nat := (l.filter (fun x => decide (x.code = 0 ∨ x.code = 255))).length

/-- FRAME_SYNC (R311 to R322): samples of the slot being read; `start` names the PBA of a slot that begins with the first of them. The
flywheel judges every frame whose sync they complete. An idle channel samples nothing (R310). DESIGN CHOICE, log entry 44. -/
def execFrameSync (d : Fin 4) (start : Option (BitVec 21)) (rf : List RfSample) (s : State) : Host.Outcome State Fault Refusal :=
  .next (whenServing s (fun s =>
    let d := d.val
    let c := (s.drive d).rdc
    if !c.started || !s.rateOk d then s
    else
      let k := s.rxCfg d
      let x := match start with
        | some p => c.rx.begin k p.toNat
        | none => c.rx
      if x.pba.isNone then s
      else
        let r := rf.foldl (Rx.step k) (x, 0)
        let s := match start with
          | some p => s.modDrive d (fun r => { r with track := pbaWobble p.toNat })
          | none => s
        s.modRdc d (fun c => { c with
          rx := r.1, decoded := if start.isSome then none else c.decoded, idErr := satU 16 (c.idErr + r.2),
          rfLoss := satU 16 (c.rfLoss + (r.1.loss - x.loss)), ovr := satU 16 (c.ovr + overrange rf) })))

end Sys2Proof.Machine
end

