-- ==== Sys2Proof/Machine/Decoder.lean ====
section
/-!
DEFINITION. Decoding a buffered slot (R281, R287, R288; spec/09, R322 to R326): erasure flags, inner and outer passes, realignment, and
the verification criteria of Table 09-1.
-/

namespace Sys2Proof.Machine

/-! ### Bytes of a frame and their flags (R281, R323) -/

/-- A channel bit lies in one of some spans, widened on each side. -/
def inSpans (l : List (Nat × Nat)) (guard a b : Nat) : Bool := l.any (fun e => decide (e.1 ≤ b + guard ∧ a ≤ e.2 + guard))

/-- Bytes and flags from decoded pairs, byte `k` first. -/
def pairsToBytes : Nat → List ((Bool × Bool) × Bool) → List (Nat × Bool)
  | _, [] => []
  | 0, _ => []
  | n + 1, l => (pairsVal ((l.take 4).map (fun e => e.1)), (l.take 4).any (fun e => e.2)) :: pairsToBytes n (l.drop 4)

/-- The spans that flag bytes: defect flags widened by the guard, wrong spacings and RF losses as they are. -/
def Rx.allDefects (x : Rx) : List (Nat × Nat) :=
  match x.flagFrom with
  | some f => (f, x.now.toNat) :: x.defects
  | none => x.defects

/-- The 2728 bytes of a frame whose sync mark starts at `start`. -/
def Rx.frameBytes (x : Rx) (guard start : Nat) : List (Nat × Bool) :=
  let l := pairsToBytes 2728 (decodeUnit 10912 (x.bits (start + 48) 32736))
  (l.zipIdx).map (fun e =>
    let a := start + 48 + 12 * e.2
    (e.1.1, e.1.2 || inSpans x.allDefects guard a (a + 11) || inSpans x.bad 0 a (a + 11)))

/-- Pieces of `n`. -/
def pieces {α : Type} (n : Nat) : Nat → List α → List (List α)
  | 0, _ => []
  | k + 1, l => if l.isEmpty then [] else l.take n :: pieces n k (l.drop n)

/-- Rows to columns. -/
def transpose {α : Type} : List (List α) → List (List α)
  | [] => []
  | [r] => r.map (fun a => [a])
  | r :: l => List.zipWith (fun a c => a :: c) r (transpose l)

/-- The eleven rows of a frame (R287). -/
def frameRows (l : List (Nat × Bool)) : List (List (Nat × Bool)) := transpose (pieces 11 248 l)

/-! ### Inner decoding and realignment (R288 step 1, R324, R325) -/

/-- A row: what was received with its flags, and its first inner decoding. -/
structure RowDec where
  got : List Nat
  flags : List Bool
  fixed : Option (List Nat)
  deriving DecidableEq, Repr

/-- The first inner decoding of a row; one with more than 16 flags is erased. -/
def rowDec (l : List (Nat × Bool)) : RowDec :=
  let got := l.map (fun e => e.1)
  let flags := l.map (fun e => e.2)
  ⟨got, flags, rsDecode 16 got flags⟩

/-- Rows that failed. -/
def failedRows (l : List RowDec) : Nat := (l.filter (fun r => r.fixed.isNone)).length

/-- A row of an unsynchronised frame. -/
def erasedRow : RowDec := ⟨List.replicate 248 0, List.replicate 248 true, none⟩

/-- The hypotheses of R325, in order. -/
def hypotheses : List Int := [1, -1, 2, -2, 3, -3]

/-- The first hypothesis with the fewest failed rows, where that is fewer than the original's. -/
def bestOf (orig : List RowDec) (l : List (List RowDec)) : List RowDec :=
  l.foldl (fun a h => if failedRows h < failedRows a then h else a) orig

/-- A frame at the decoder: its rows, and whether it was realigned. -/
def Rx.frameDec (x : Rx) (guard f : Nat) : List RowDec × Bool :=
  match nth (FrameStatus.unsync, 0) x.fly.frames f with
  | (.unsync, _) => (List.replicate 11 erasedRow, false)
  | (st, p) =>
    let orig := (frameRows (x.frameBytes guard p)).map rowDec
    let after := decide (0 < f) && x.fly.rejected.contains (f - 1)
    if (st = .shifted || st = .inferred || after) && decide (0 < failedRows orig) then
      let best := bestOf orig (hypotheses.map (fun h => (frameRows (x.frameBytes guard ((p : Int) + h).toNat)).map rowDec))
      (best, decide (failedRows best < failedRows orig))
    else (orig, false)

/-! ### The product code (R288) -/

/-- The rows as they enter the outer code. -/
structure ArrRow where
  word : List Nat
  erased : Bool
  deriving DecidableEq, Repr

/-- One outer pass: the columns' decodings, none where a column fails. -/
def outerPass (rows : List ArrRow) : List (Option (List Nat)) :=
  let flags := rows.map (fun r => r.erased)
  (transpose (rows.map (fun r => r.word))).map (fun c => rsDecode 32 c flags)

/-- The rows after an outer pass; a column that failed keeps its bytes. -/
def afterOuter (rows : List ArrRow) (cols : List (Option (List Nat))) : List (List Nat) :=
  transpose (List.zipWith (fun c o => match o with
    | some w => w
    | none => c) (transpose (rows.map (fun r => r.word))) cols)

/-- The second inner pass on a row that the outer pass changed: bytes of failed columns keep their flags. -/
def innerAgain (old : RowDec) (was : ArrRow) (now : List Nat) (cols : List (Option (List Nat))) : ArrRow :=
  if was.word = now then was
  else
    let flags := List.zipWith (fun (c : Option (List Nat)) (b : Bool) => c.isNone && b) cols (if was.erased then old.flags else List.replicate 248 false)
    match rsDecode 16 now flags with
    | some w => ⟨w, false⟩
    | none => ⟨now, true⟩

/-- The content of an array: rows 0 to 143, columns 0 to 231. -/
def arrayContent (rows : List (List Nat)) : List Byte :=
  (rows.take 144).foldl (fun a r => a ++ (r.take 232).map (fun v => BitVec.ofNat 8 v)) []

/-- Errors and flags of a row's first decoding: 2e + f. -/
def RowDec.weight (r : RowDec) : Nat :=
  match r.fixed with
  | some w => 2 * errorsIn r.got w r.flags + flagsIn r.flags
  | none => 17

/-- The decode of the buffered slot of PBA `pba` (R288), with the frames realigned. DESIGN CHOICE, log entry 44. -/
def Rx.decode (x : Rx) (guard pba : Nat) : Decoded × Nat :=
  let x := { x with fly := x.fly.finish }
  let frames := (List.range 16).map (x.frameDec guard)
  let rows := (List.range 176).map (fun r => nth erasedRow (nth ([], false) frames (r % 16)).1 (r / 16))
  let first := rows.map (fun r => match r.fixed with
    | some w => ArrRow.mk w false
    | none => ArrRow.mk r.got true)
  let cols := outerPass first
  let one := afterOuter first cols
  let edc1 := cols.all (fun c => c.isSome) && edcOk (arrayContent one)
  let second := (List.zip (List.zip rows first) one).map (fun e => innerAgain e.1.1 e.1.2 e.2 cols)
  let cols2 := outerPass second
  let content := arrayContent (afterOuter second cols2)
  let sts := x.fly.frames.map (fun e => e.1)
  let live := rows.filter (fun r => r.fixed.isSome)
  ({ pba := pba, ok := cols2.all (fun c => c.isSome) && edcOk content, content := content, edcFirst := edc1,
     unsync := (sts.filter (fun t => t = .unsync)).length, inferred := (sts.filter (fun t => t = .inferred)).length,
     shifted := (sts.filter (fun t => t = .shifted)).length, rowsFailed := failedRows rows,
     rowMax := (live.map RowDec.weight).foldl max 0,
     flagged := rows.foldl (fun a r => a + flagsIn r.flags) 0 },
   (frames.filter (fun e => e.2)).length)

/-- BLOCK_DECODE (R288, R322): the buffered slot is decoded; frames count by their status. What waits for the block takes it. -/
def State.decodeSlot (s : State) (d : Nat) : State :=
  let c := (s.drive d).rdc
  match c.rx.pba with
  | none => s
  | some pba =>
    let (r, re) := c.rx.decode (s.rxCfg d).guard pba
    s.modRdc d (fun c => { c with
      rx := { c.rx with pba := none }, decoded := some r, inferred := satU 16 (c.inferred + r.inferred), shifted := satU 16 (c.shifted + r.shifted),
      unsync := satU 16 (c.unsync + r.unsync), realigned := satU 16 (c.realigned + re) })

/-- Table 09-1: the criteria besides the address record. -/
def State.verifies (s : State) (d : Nat) (r : Decoded) : Bool :=
  r.edcFirst && decide (r.unsync = 0 ∧ r.inferred ≤ Cf.RDC_VFY_inferred s d ∧ r.shifted ≤ Cf.RDC_VFY_shifted s d ∧
    r.rowsFailed ≤ Cf.RDC_VFY_rows s d ∧ r.rowMax ≤ Cf.RDC_VFY_row_max s d ∧ r.flagged ≤ 4 * Cf.RDC_VFY_flags s d)

end Sys2Proof.Machine
end

