-- ==== Sys2Proof/Machine/Rings.lean ====
section
/-!
DEFINITION. Rings, the doorbell page and completions (spec/04, R127 to R138, R154 to R157, R167), the task port (R164 to R166).
-/

namespace Sys2Proof.Machine

/-! ### Ring contexts -/

def State.modSq (s : State) (f i : Nat) (g : SqState → SqState) : State := s.modFn f (fun n => { n with sq := modNth g n.sq i })
def State.modCq (s : State) (f j : Nat) (g : CqState → CqState) : State := s.modFn f (fun n => { n with cq := modNth g n.cq j })
def State.modDb (s : State) (f : Nat) (g : DbState → DbState) : State := s.modFn f (fun n => { n with db := g n.db })

def State.dbEn (s : State) (f : Nat) : Bool := bitN (s.reg (Reg.F_RNG_CTL f)).toNat 0
def State.sleepEn (s : State) (f : Nat) : Bool := bitN (s.reg (Reg.F_RNG_CTL f)).toNat 1
/-- Ring pairs an instance may use. -/
def State.ringPairs (s : State) (f : Nat) : Nat := Cf.INS_T_LIMITS_rings s f

/-- Any ring of the function is enabled (R131). -/
def State.anyRing (s : State) (f : Nat) : Bool := (List.range 4).any (fun i => s.sqOn f i || s.cqOn f i)

/-- A ring's enable bit is cleared; an entry of it that is still being fetched will be dropped (R130). -/
def State.sqOff (s : State) (f i : Nat) : State :=
  State.setReg { s with reads := s.reads.map (fun r =>
      if r.kind = .entry i ∧ r.fn.toNat = f then { r with kind := .void } else r) }
    (Reg.F_SQ_CFG f i) (setFld (s.reg (Reg.F_SQ_CFG f i)) 0 1 0)
def State.cqOff (s : State) (f j : Nat) : State := s.setReg (Reg.F_CQ_CFG f j) (setFld (s.reg (Reg.F_CQ_CFG f j)) 0 1 0)

/-! ### Sleep and wake (R136 to R138) -/

/-- The device word of the doorbell page is written, at once or when the function may issue requests (R51, R54, R63, R131, R132). -/
def State.deviceWord (s : State) (f : Nat) : State := (s.modDb f (fun d => { d with wordDue := true })).pumpWord f

/-- The next fetch is due at once, and the interval then starts at poll_min (R133). -/
def State.fetchSoon (s : State) (f : Nat) : State :=
  s.modDb f (fun d => { d with dueNow := true, fresh := true, interval := Cf.RNG_POLL_min_us s })

/-- A sleeping function is woken (R137, R138). -/
def State.wakeFn (s : State) (f : Nat) : State :=
  if (s.getFn f).db.asleep then
    ((s.modDb f (fun d => { d with asleep := false, extra := false })).deviceWord f).fetchSoon f
  else s

/-! ### Enabling and disabling (R128 to R131) -/

/-- The first condition of Table 04-1 that an enable write breaks, for the word the context would hold. DESIGN CHOICE, log entry 25. -/
def State.enableErr (s : State) (f : Nat) (cq : Bool) (i : Nat) (w : Word) : Option Nat :=
  let base := if cq then s.cqBase f i else s.sqBase f i
  if s.ringPairs f ≤ i then some 1
  else if fld w 8 4 < 4 ∨ 12 < fld w 8 4 then some 2
  else if base % 4096 ≠ 0 then some 3
  else if (if cq then decide (fld w 16 4 = 0) else !s.cqOn f (fld w 16 2)) then some 4
  else if !s.dbEn f then some 8
  else if (s.getInst f).state ≠ .active then some 9
  else none

/-- The err field of a ring. -/
def State.setRingErr (s : State) (f : Nat) (cq : Bool) (i err : Nat) : State :=
  if cq then s.modCq f i (fun c => { c with err := err }) else s.modSq f i (fun q => { q with err := err })

def cfgKey (f : Nat) (cq : Bool) (i : Nat) : Nat := if cq then Reg.F_CQ_CFG f i else Reg.F_SQ_CFG f i

/-- RING_ENABLE (R128, R129): the other fields keep the value written; a broken condition leaves en at 0 and sets err. A write to an
enabled ring changes nothing (R130). DESIGN CHOICE, log entry 25. DEDUCED, log entry 26. -/
def execRingEnable (f : Func) (cq : Bool) (i : Fin 4) (v : Word) (s : State) : Host.Outcome State Fault Refusal :=
  .next (hostBar0 f.toNat s (fun s =>
    let n := f.toNat
    let k := cfgKey n cq i.val
    if bitN (s.reg k).toNat 0 then s.noteRsv k v
    else
      let s := s.storeReg k (setFld v 0 1 0)
      let w := s.reg k
      match s.enableErr n cq i.val w with
      | some e => (s.setRingErr n cq i.val e).logEv .ringRefused (some f) (e + 16 * i.val + 256 * b2n cq)
      | none =>
        let s := s.setReg k (setFld w 0 1 1)
        let s := if cq then s.modCq n i.val (fun _ => ⟨0, true, 0, 0, 0⟩) else s.modSq n i.val (fun _ => ⟨0, 0, 0, 0, false⟩)
        ((s.wakeFn n).fetchSoon n).pump))

/-- A CQ is still needed: an enabled SQ is bound to it, or a command in flight will complete to it (R130). -/
def State.cqNeeded (s : State) (f j : Nat) : Bool :=
  (List.range 4).any (fun i => s.sqOn f i && decide (s.sqCq f i = j)) ||
    s.cmds.any (fun c => decide (c.fn.toNat = f ∧ c.cq = j) && c.sq.isSome)

/-- RING_DISABLE (R130): fetching stops at once; a CQ still needed is refused with err 7. On a ring that is not enabled the word's
other fields are stored. -/
def execRingDisable (f : Func) (cq : Bool) (i : Fin 4) (v : Word) (s : State) : Host.Outcome State Fault Refusal :=
  .next (hostBar0 f.toNat s (fun s =>
    let n := f.toNat
    let k := cfgKey n cq i.val
    if bitN (s.reg k).toNat 0 then
      let s := s.noteRsv k v
      if cq && s.cqNeeded n i.val then
        (s.setRingErr n true i.val 7).logEv .ringRefused (some f) (7 + 16 * i.val + 256)
      else if cq then s.cqOff n i.val else s.sqOff n i.val
    else s.storeReg k (setFld v 0 1 0)))

/-- DB_EN_WRITE (R131, R133, R138): db_en is held while a ring is enabled; the write wakes the function. -/
def execDbEnWrite (f : Func) (v : Word) (s : State) : Host.Outcome State Fault Refusal :=
  .next (hostBar0 f.toNat s (fun s =>
    let n := f.toNat
    let k := Reg.F_RNG_CTL n
    let old := s.reg k
    let s := s.storeReg k (if s.anyRing n then setFld v 0 1 (fld old 0 1) else v)
    let s := s.wakeFn n
    (if !bitN old.toNat 0 && s.dbEn n then s.fetchSoon n else s).pump))

/-- WAKE (R137): a sleeping function wakes; a write while awake is counted. -/
def execWake (f : Func) (s : State) : Host.Outcome State Fault Refusal :=
  .next (hostBar0 f.toNat s (fun s =>
    if (s.getFn f.toNat).db.asleep then (s.wakeFn f.toNat).pump
    else s.modFn f.toNat (fun n => { n with spurious := inc16 n.spurious })))

/-! ### Doorbell fetches (R132 to R136) -/

/-- A doorbell fetch of the function is outstanding. -/
def State.fetching (s : State) (f : Nat) : Bool := s.reads.any (fun (r : DmaRead) => decide (r.kind = .doorbell ∧ r.fn.toNat = f))

/-- One fetch of bytes 0x00 to 0x1F of the page is issued. -/
def State.issueFetch (s : State) (f : Nat) : State :=
  (s.modDb f (fun d => { d with dueNow := false })).issueRead f (s.dbPage f) 32 .doorbell false

/-- The failed entry fetches of a function may be tried again: its polling interval has come (Table 04-11). -/
def State.retryEntries (s : State) (f : Nat) : State :=
  s.modFn f (fun n => { n with sq := n.sq.map (fun q => { q with hold := false }) })

/-- DOORBELL_FETCH (R133): the interval of a function expires. Of fetches due at one moment, the order is that of the commands.
DESIGN CHOICE, log entry 72. -/
def execDoorbellFetch (f : Func) (s : State) : Host.Outcome State Fault Refusal :=
  .next (whenServing s (fun s =>
    let n := f.toNat
    let d := (s.getFn n).db
    if s.dbEn n && s.canRead n && (!d.asleep || d.extra) then
      (let s := s.retryEntries n
       (if s.fetching n then s else s.issueFetch n).pump)
    else s))

/-- The next interval (R133). -/
def nextInterval (pollMin pollMax : Nat) (found : Bool) (cur : Nat) : Nat :=
  if found then pollMin else if pollMax < cur * 2 then pollMax else cur * 2

/-- A ring fault stops an SQ (R167). -/
def State.faultSq (s : State) (f i err : Nat) : State :=
  (((s.sqOff f i).modSq f i (fun q => { q with err := err })).setRngEvt f i).logEv .ringFault (some (BitVec.ofNat 8 f)) (err + 16 * i)

/-- A ring fault stops a CQ and every SQ bound to it (R167). -/
def State.faultCq (s : State) (f j err : Nat) : State :=
  let s := (((s.cqOff f j).modCq f j (fun c => { c with err := err })).setRngEvt f (4 + j)).logEv .ringFault
    (some (BitVec.ofNat 8 f)) (err + 16 * j + 256)
  forBelow 4 (fun i t => if t.sqOn f i && decide (t.sqCq f i = j) then t.faultSq f i err else t) s

/-- A tail word is malformed (Table 04-11). -/
def badTail (size w : Nat) : Bool := decide (w / 4096 ≠ 0 ∨ size ≤ w % 4096)

/-- A head word is malformed, or lies outside the span from the last head read to the CQ tail (Table 04-11). -/
def badHead (size last tail w : Nat) : Bool :=
  decide (size ≤ w ∨ (tail + size - last) % size < (w + size - last) % size)

/-- The words of the page are taken: faults stop rings, tails and heads move; whether the fetch found work. -/
def State.takeDoorbell (s : State) (f : Nat) (data : List Byte) : Bool × State :=
  let heads := (List.range 4).foldl (fun (a : Bool × State) j =>
    if a.2.cqOn f j then
      let w := leAt data (16 + 4 * j) 4
      let c := a.2.cq f j
      if badHead (a.2.cqSize f j) c.head c.tail w then (a.1, a.2.faultCq f j 5)
      else (a.1 || decide (w ≠ c.head), a.2.modCq f j (fun c => { c with head := w }))
    else a) (false, s)
  (List.range 4).foldl (fun (a : Bool × State) i =>
    if a.2.sqOn f i then
      let w := leAt data (4 * i) 4
      if badTail (a.2.sqSize f i) w then (a.1, a.2.faultSq f i 5)
      else (a.1 || decide (w ≠ (a.2.sq f i).head), a.2.modSq f i (fun q => { q with tail := w }))
    else a) heads

/-- The conditions of R136 under which a function enters sleep, with a fetch that found no work; one that may issue no request writes no
device word and stays awake (R51). DEDUCED, log entry 72. -/
def State.maySleep (s : State) (f : Nat) : Bool :=
  let idle := Cf.RNG_IDLE_ms s
  s.canRead f && s.canWrite f && s.sleepEn f && decide (idle ≠ 0) && decide (s.inflight f = 0) && !s.due.any (fun d => d.fn.toNat = f) &&
    decide ((s.getFn f).db.lastWork + idle ≤ s.tm.mono)

/-- Sleep entry: the device word, then one more fetch (R136). -/
def State.enterSleep (s : State) (f : Nat) : State :=
  ((s.modDb f (fun d => { d with asleep := true, extra := true, sleepCount := (d.sleepCount + 1) % 65536 })).deviceWord f).issueFetch f

/-- The data of a doorbell fetch (R133, R136). -/
def State.doorbellData (s : State) (f : Nat) (data : List Byte) : State :=
  if !s.dbEn f then s
  else
    let (found, s) := s.takeDoorbell f (padTo 32 data)
    let s := s.modDb f (fun d => { d with
      fails := 0, fresh := false,
      interval := nextInterval (Cf.RNG_POLL_min_us s) (Cf.RNG_POLL_max_us s) (found || d.fresh) d.interval,
      lastWork := if found then s.tm.mono else d.lastWork })
    let d := (s.getFn f).db
    let s :=
      if d.asleep then
        if found then
          (s.modDb f (fun d => { d with asleep := false, extra := false, interval := Cf.RNG_POLL_min_us s })).deviceWord f
        else s.modDb f (fun d => { d with extra := false })
      else if !found && s.maySleep f then s.enterSleep f
      else s
    s.pump

/-- A doorbell fetch fails (R135). -/
def State.doorbellFail (s : State) (f : Nat) : State :=
  let s := { s with dbErr := inc16 s.dbErr }
  let s := s.modDb f (fun d => { d with fails := d.fails + 1 })
  if 16 ≤ (s.getFn f).db.fails then
    ((s.modDb f (fun d => { d with fails := 0 })).setRngEvt f 8).logEv .doorbellFailed (some (BitVec.ofNat 8 f)) 16
  else s

/-- DOORBELL_FETCH_COMPLETE (R133): the outstanding fetch of the function returns its 32 bytes. -/
def execDoorbellFetchComplete (f : Func) (data : List Byte) (s : State) : Host.Outcome State Fault Refusal :=
  .next (whenServing s (fun s =>
    if s.fetching f.toNat then
      ({ s with reads := dropFirst (fun (r : DmaRead) => decide (r.kind = ReadKind.doorbell ∧ r.fn = f)) s.reads }).doorbellData f.toNat data
    else s))

/-! ### Entries (R147, R154, R155, R167) -/

/-- An entry fetch of a function is outstanding for an SQ. -/
def State.entryRead (s : State) (f i : Nat) : Bool := s.reads.any (fun r => decide (r.kind = .entry i ∧ r.fn.toNat = f))

/-- The turn moves with an entry taken from ring `i`: at most 8 in a row (R155). -/
def Fn.taken (n : Fn) (i : Nat) : Fn := if n.turnSq = i ∧ n.turnCnt < 8 then { n with turnCnt := n.turnCnt + 1 } else { n with turnSq := i, turnCnt := 1 }

/-- An entry arrives: the head advances and the command is accepted as the fetch read it, also where the limit has been lowered since
(R168, R169); an SQ stopped meanwhile, or an instance no longer accepting, takes nothing. -/
def State.takeEntry (s : State) (f : Func) (i : Nat) (entry : List Byte) : State :=
  let n := f.toNat
  if s.sqOn n i && decide ((s.getInst n).state = .active) then
    let h := ((s.sq n i).head + 1) % s.sqSize n i
    let s := s.modSq n i (fun q => { q with head := h, fails := 0, hold := false })
    let s := s.modFn n (fun x => x.taken i)
    (s.accept f (some i) h (padTo 64 entry)).pump
  else s

/-- A fetch of an entry fails: it is tried again at the next interval, and 16 in a row stop the ring (R167). -/
def State.entryFail (s : State) (f i : Nat) : State :=
  let s := ({ s with sqErr := inc16 s.sqErr }).modSq f i (fun q => { q with fails := q.fails + 1, hold := true })
  if 16 ≤ (s.sq f i).fails && s.sqOn f i then s.faultSq f i 6 else s

/-- COMMAND_ACCEPT (R147): the outstanding entry fetch of an SQ returns, and the entry is taken. -/
def execCommandAccept (f : Func) (sq : Fin 4) (entry : List Byte) (s : State) : Host.Outcome State Fault Refusal :=
  .next (whenServing s (fun s =>
    if s.entryRead f.toNat sq.val then
      ({ s with reads := dropFirst (fun (r : DmaRead) => decide (r.kind = ReadKind.entry sq.val ∧ r.fn = f)) s.reads }).takeEntry f sq.val entry
    else s))

/-! ### Completions (R145, R156, R157) -/

/-- The status half-word of a completion entry (Table 04-8). -/
def Due.statusWord (d : Due) (phase : Bool) : Nat := d.status % 256 + 256 * b2n d.dup + 512 * b2n d.rebuilt + 32768 * b2n phase

/-- The 16 bytes of a completion entry; sq_head, sq_id and phase are zero on the task port (R164). -/
def Due.bytes (d : Due) (phase : Bool) : List Byte :=
  let q := match d.sq with
    | some i => d.sqHead % 4096 + i % 4 * 4096
    | none => 0
  leBytes 4 d.rid ++ leBytes 2 q ++ leBytes 2 (d.statusWord phase) ++ leBytes 8 d.result

/-- A CQ is full by the head last read (R156). -/
def State.cqFull (s : State) (f j : Nat) : Bool := decide (((s.cq f j).tail + 1) % s.cqSize f j = (s.cq f j).head)

/-- A due completion leaves the list, its command is no longer in flight, and its window entry takes the completion (R154, R160). -/
def State.settleDue (s : State) (d : Due) : State :=
  let s := if d.dup then s else s.windowDone d.fn.toNat d.cmd d.status d.result d.rebuilt
  ({ s with due := s.due.filter (fun x => x.cmd ≠ d.cmd) }).dropCmd d.cmd

/-- The vector of a CQ is signalled (R157). -/
def State.signalCq (s : State) (f j : Nat) : State :=
  (s.modCq f j (fun c => { c with unsignalled := 0 })).raise f (fld (s.reg (Reg.F_CQ_CFG f j)) 16 4)
def State.coalCount (s : State) (f j : Nat) : Nat := fld (s.reg (Reg.F_CQ_COAL f j)) 0 8
def State.coalTime (s : State) (f j : Nat) : Nat := fld (s.reg (Reg.F_CQ_COAL f j)) 16 16

/-- The entry is written at the tail with the pass's phase, and coalescing decides the interrupt. -/
def State.writeCq (s : State) (d : Due) : State :=
  let f := d.fn.toNat
  let j := d.cq
  let c := s.cq f j
  let size := s.cqSize f j
  let s := s.emit (.dmaWrite d.fn (s.cqBase f j + 16 * c.tail) false (d.bytes c.phase))
  let s := s.modCq f j (fun c => { c with
    tail := (c.tail + 1) % size, phase := if c.tail + 1 = size then !c.phase else c.phase, unsignalled := c.unsignalled + 1 })
  let s := s.modDb f (fun x => { x with lastWork := s.tm.mono })
  let s := s.settleDue d
  if 1 ≤ s.coalCount f j && decide (s.coalCount f j ≤ (s.cq f j).unsignalled) then s.signalCq f j else s

/-- A completion to a CQ that has stopped is discarded and logged (R167). -/
def State.discardDue (s : State) (d : Due) : State :=
  (s.settleDue d).logEv .completionDiscarded (some d.fn) d.rid

/-- The first due completion of a CQ. -/
def State.firstDueOf (s : State) (f j : Nat) : Option Due :=
  s.due.find? (fun d => decide (d.fn.toNat = f ∧ d.cq = j) && d.sq.isSome)

/-- COMPLETION_WRITE (R156): the completion of a command is written when it is the oldest due of its CQ and there is room. -/
def execCompletionWrite (id : Nat) (s : State) : Host.Outcome State Fault Refusal :=
  .next (whenServing s (fun s =>
    match s.due.find? (fun d => d.cmd = id) with
    | some d =>
      let f := d.fn.toNat
      if d.sq.isNone || !s.canWrite f || decide (s.firstDueOf f d.cq ≠ some d) then s
      else if !s.cqOn f d.cq then (s.discardDue d).pump
      else if s.cqFull f d.cq then s
      else (s.writeCq d).pump
    | none => s))

/-- COALESCING_TIMEOUT (R157): the coalescing time has passed for the oldest entry not signalled. DESIGN CHOICE, log entry 2. -/
def execCoalescingTimeout (f : Func) (cq : Fin 4) (s : State) : Host.Outcome State Fault Refusal :=
  .next (whenServing s (fun s =>
    let n := f.toNat
    if s.cqOn n cq.val && decide (1 ≤ s.coalCount n cq.val ∧ s.coalTime n cq.val ≠ 0 ∧ 1 ≤ (s.cq n cq.val).unsignalled) then
      s.signalCq n cq.val
    else s))

/-! ### The task port (R164 to R166) -/

/-- The entry image. -/
def State.taskImage (s : State) (f : Nat) : List Byte :=
  (List.range 16).foldl (fun l i => l ++ leBytes 4 (s.reg (Reg.F_TSK_ENTRY f i)).toNat) []

/-- GO (R164, R165): the image is taken and accepted; GO while busy, or on a VF without a task port, is an access error. A GO clears a
done bit left at 1. DESIGN CHOICE, log entry 73. -/
def execGoTask (f : Func) (v : Word) (s : State) : Host.Outcome State Fault Refusal :=
  .next (hostBar0 f.toNat s (fun s =>
    let n := f.toNat
    if fld v 0 1 = 0 then s
    else if (s.getFn n).tskBusy || (decide (n ≠ 0) && decide (fldN (s.limits n) 12 1 = 0)) then s.accError n 0 0x2040
    else
      let s := s.modFn n (fun x => { x with tskBusy := true, tskDone := false })
      (s.accept f none 0 (s.taskImage n)).pump))

/-- The four words of a completion image. -/
def cplWords (l : List Byte) : List Word := (List.range 4).map (fun i => BitVec.ofNat 32 (leAt l (4 * i) 4))

/-- TASK_PORT_COMPLETION (R164): the image is shown, done is set, busy clears, vector 0 is signalled if enabled. -/
def execTaskPortCompletion (id : Nat) (s : State) : Host.Outcome State Fault Refusal :=
  .next (whenServing s (fun s =>
    match s.due.find? (fun d => d.cmd = id) with
    | some d =>
      if d.sq.isSome then s
      else
        let f := d.fn.toNat
        let s := s.modFn f (fun n => { n with tskBusy := false, tskDone := true, tskCpl := cplWords (d.bytes false) })
        let s := s.modDb f (fun x => { x with lastWork := s.tm.mono })
        let s := s.settleDue d
        (if bitN (s.reg (Reg.F_TSK_CTL f)).toNat 0 then s.raise f 0 else s).pump
    | none => s))

end Sys2Proof.Machine
end

