-- ==== Sys2Proof/Machine/Instances.lean ====
section
/-!
DEFINITION. Starting, resetting and removing instances, and the settings of an instance (spec/03, R82 to R93, R107 to R111, R118, R124 to
R126; spec/05, R177 to R179).
-/

namespace Sys2Proof.Machine

/-! ### Keys (R177, R179) -/

/-- A key is drawn: the serial is the next value of counter 0 (R177, R515), one generate request of the DRBG (R176).
DESIGN CHOICE, log entry 61. -/
def State.drawKey (s : State) : Nat × State :=
  let s := s.ctrInc 0
  (s.ctr 0, s.drawOne)

/-- Destruction of an instance key: the floor first, then the unwrapped key, then the record (R179). DESIGN CHOICE, log entry 61. -/
def State.destroyKey (s : State) (i : Nat) : State :=
  match (s.getInst i).keySerial with
  | some k => (s.ctrRaise (16 + i) (k + 1)).modInst i (fun r => { r with keySerial := none, wrapped := [], keyLive := false, keyLost := false })
  | none => s

/-! ### Beginning a reset (Table 03-2, Table 03-3 steps 1 and 2) -/

/-- The state and the programme of a reset or removal that begins now. DESIGN CHOICE, log entry 60. -/
def State.beginReset (s : State) (i cause : Nat) (flr : Bool) (acks : List Nat) : State :=
  (s.modInst i (fun r => { r with reset := some ⟨cause, 2, acks, flr, 0, 0⟩ })).setIState i
    (if cause = 5 then .removing else .resetting)

/-- A further reset joins the one in progress (R124). DESIGN CHOICE, log entry 60. -/
def State.joinReset (s : State) (i : Nat) (flr : Bool) (acks : List Nat) : State :=
  s.modInst i (fun r => { r with reset := r.reset.map (fun p => { p with acks := p.acks ++ acks, flr := p.flr || flr }) })

/-- A reset of an instance for a cause other than a manager command: ACTIVE begins it, RESETTING joins it, otherwise only the function's
configuration is reset (Table 03-2). -/
def State.resetFor (s : State) (i cause : Nat) : State :=
  match (s.getInst i).state with
  | .active => s.beginReset i cause true []
  | .resetting => s.joinReset i true []
  | _ => s

/-! ### Billing at a setting -/

/-- Every boundary that wall time has reached is taken, and skipped periods are closed (R118 to R120); once those are closed, each
instance has at most one boundary due. -/
def State.settleBoundaries (s : State) : State :=
  forBelow s.inst.length (fun _ t => match t.firstDue with
    | some b => t.takeBoundary b
    | none => t) s.jumpPeriods

/-! ### Records after a manager command -/

/-- The record that INSTANCE_START gives an instance, with its wrapped key (R86, R177); its sequences are reserved with it (R191, R194). The
manager's bytes of the policy page and the last even sequence are cleared, which the spec leaves open: DESIGN CHOICE, log entry 76. -/
def startRecord (t : TimeState) (e : List Byte) (serial : Nat) (wrapped : List Byte) (r : Instance) : Instance :=
  { r with state := .active, gen := wrapInc 4095 r.gen, nsSize := eArg0 e, quota := leAt e 48 8,
           warnPct := if eByte e 44 = 0 then 90 else eByte e 44, warnArmed := true, minHold := 0, legalHold := false,
           used := 0, reserved := 0, refusing := false, bc := 0, interval := 0,
           opened := some (newPeriod t 0 t.sec 0), closed := [], keySerial := some serial, wrapped := wrapped, keyLive := true, keyLost := false,
           commits := [], window := [], chain := none, arcSeq := 0, arcHigh := 2 ^ 20, unitHigh := max r.unitHigh (r.unitSeq + 2 ^ 20), chainOk := none, seqOk := 0, firstSeg := 0, shownUsed := 0, evenSeq := 0, policy := [], status := [] }

def policyRecord (e : List Byte) (r : Instance) : Instance :=
  { r with minHold := leAt e 44 4, legalHold := decide (eByte e 48 % 2 = 1) }

def quotaRecord (e : List Byte) (r : Instance) : Instance :=
  { r with quota := eArg0 e, warnPct := if eByte e 44 = 0 then r.warnPct else eByte e 44 }

def periodRecord (e : List Byte) (r : Instance) : Instance :=
  { r with interval := eArg1 e, opened := r.opened.map (fun p => { p with closing := eArg0 e }) }

/-- The boundary of a SET_PERIOD is not later than the newest closed one (R118). -/
def State.periodLate (s : State) (e : List Byte) : Bool := decide (eArg0 e ≤ (s.getInst (eTarget e)).bc)

/-- The effect that a manager command on an instance takes at its completion (R86, R111). A SET_PERIOD whose boundary a closing one has
overtaken since it was journaled changes nothing: the record as it stands is journaled again before it completes (R126).
DEDUCED, log entry 27. -/
def State.finishManager (s : State) (c : Cmd) : State :=
  let e := c.entry
  let i := eTarget e
  match eOp e with
  | some .start =>
    let g := wrapInc 4095 (s.getInst i).gen
    let s := s.modInst i (startRecord s.tm e c.aux (s.wrapFor c.aux i))
    let s := s.postPeer i 8 ([1, 0] ++ leBytes 2 g)
    let s := s.logEv .instanceState (some (BitVec.ofNat 8 i)) 1
    (s.quotaCheck i).complete c stSuccess g false
  | some .setPolicy => (s.modInst i (policyRecord e)).complete c stSuccess 0 false
  | some .setQuota => ((s.modInst i (quotaRecord e)).quotaCheck i).complete c stSuccess 0 false
  | some .setPeriod =>
    let s := s.settleBoundaries
    if c.aux = 1 then s.complete c stField (fieldResult 8 noElem) false
    else if s.periodLate e then (s.journalRecord i).completeFlushed { c with aux := 1 } 0
    else ((s.modInst i (periodRecord e)).settleBoundaries).complete c stSuccess 0 false
  | _ => s.complete c stSuccess c.result false

/-- A manager command on an instance: its target's state is judged again when it executes, since earlier commands on the target may have
changed it (R153); the new record is then journaled and the completion waits for the flush (R228). -/
def State.manage (s : State) (c : Cmd) (g : State → State) : State :=
  match eOp c.entry with
  | some op =>
    (match s.checkState op c.fn.toNat c.entry with
    | some (st, res) => s.complete c st res false
    | none => g s)
  | none => s

/-! ### Commands -/

/-- INSTANCE_START (R86, R177, R208): a key is drawn, the new record is journaled; its effects come with the completion. -/
def execInstanceStart (id : Nat) (s : State) : Host.Outcome State Fault Refusal :=
  .next (withCmd id .start s (fun c s => s.manage c (fun s =>
    if s.sea.rngOk then
      let i := eTarget c.entry
      let (k, s) := s.drawKey
      let c := { c with aux := k }
      (s.journalRecordOf i (startRecord s.tm c.entry k (s.wrapFor k i) (s.getInst i))).completeFlushed c (wrapInc 4095 (s.getInst i).gen)
    else if s.sea.rngDown + 100 ≤ s.tm.mono then s.complete c stBusy 0 false
    else s)))

/-- INSTANCE_RESET (R87, R124): the reset begins or is joined; the completion follows step 5. -/
def execInstanceReset (id : Nat) (s : State) : Host.Outcome State Fault Refusal :=
  .next (withCmd id .reset s (fun c s => s.manage c (fun s =>
    let i := eTarget c.entry
    let s := s.setCmd { c with stage := .media }
    if (s.getInst i).state = .active then s.beginReset i 1 false [c.id] else s.joinReset i false [c.id])))

/-- The first logical block of an instance that its policy holds (R93). -/
def State.firstHeld (s : State) (i : Nat) : Option Nat :=
  (s.mappedBlocks i).find? (fun b => s.heldBlock i b (s.getInst i).minHold (s.getInst i).legalHold)

/-- INSTANCE_REMOVE (R92, R93): refused while a block is held; otherwise the removal begins. -/
def execInstanceRemove (id : Nat) (s : State) : Host.Outcome State Fault Refusal :=
  .next (withCmd id .remove s (fun c s => s.manage c (fun s =>
    let i := eTarget c.entry
    let s := forEach ((s.mappedBlocks i).map (fun b => leafKey i b)).eraseDups (fun k t => t.touchLeaf k) s
    match s.firstHeld i with
    | some b => s.complete c stRetention b false
    | none =>
      if (s.getInst i).state = .active then (s.setCmd { c with stage := .media }).beginReset i 5 false [c.id] else s)))

/-- SET_POLICY (R109, R111). -/
def execSetPolicy (id : Nat) (s : State) : Host.Outcome State Fault Refusal :=
  .next (withCmd id .setPolicy s (fun c s => s.manage c (fun s =>
    let i := eTarget c.entry
    (s.journalRecordOf i (policyRecord c.entry (s.getInst i))).completeFlushed c 0)))

/-- SET_QUOTA (R107): capacity status when the sum of the quotas would exceed the usable capacity. -/
def execSetQuota (id : Nat) (s : State) : Host.Outcome State Fault Refusal :=
  .next (withCmd id .setQuota s (fun c s => s.manage c (fun s =>
    let i := eTarget c.entry
    if s.fss.cap < s.quotaSum i (eArg0 c.entry) then s.complete c stCapacity 0 false
    else (s.journalRecordOf i (quotaRecord c.entry (s.getInst i))).completeFlushed c 0)))

/-- SET_PERIOD (R118, R126): a boundary reached now is taken first; an early one is an invalid field. -/
def execSetPeriod (id : Nat) (s : State) : Host.Outcome State Fault Refusal :=
  .next (withCmd id .setPeriod s (fun c s => s.manage c (fun s =>
    let i := eTarget c.entry
    let s := s.settleBoundaries
    if s.periodLate c.entry then s.complete c stField (fieldResult 8 noElem) false
    else (s.journalRecordOf i (periodRecord c.entry (s.getInst i))).completeFlushed c 0)))

/-! ### Step 4 (Table 03-4) -/

/-- A finalisation or a rebuild that ends without a completion: admission goes on, and the drive named holds no position.
DESIGN CHOICE, log entry 75. -/
def State.leaveSetCmd (s : State) (op : Option Op) : State :=
  if op = some .finalize then { s with arc := { s.arc with closing := false } }
  else if op = some .rebuild then { s with arc := { s.arc with rebuilding := false } }
  else s

/-- What becomes of a command of the instance at step 4: dropped, taken effect, or ended with a media operation left over; the window keeps
the identifiers of those that took effect, with their completions (R88, R125). DEDUCED, log entry 75. -/
def State.endCmd (s : State) (i : Nat) (c : Cmd) : State :=
  let bump (d e : Nat) (s : State) : State :=
    s.modInst i (fun r => { r with reset := r.reset.map (fun p => { p with dropped := p.dropped + d, discarded := p.discarded + e }) })
  let forget (s : State) : State := s.modInst i (fun r => { r with window := r.window.filter (fun w => w.cmd ≠ c.id) })
  let s := s.unreserve c
  match c.stage with
  | .due =>
    (match s.due.find? (fun d => d.cmd = c.id) with
    | some d =>
      if d.status = stSuccess then (bump 0 1 (s.windowDone i c.id d.status d.result d.rebuilt)).dropCmd c.id
      else (bump 0 1 (forget s)).dropCmd c.id
    | none => (bump 0 1 s).dropCmd c.id)
  | .flushing =>
    if eOp c.entry = some .flush then (bump 1 0 (forget s)).dropCmd c.id
    else
      let s := (if c.fn = 0 then s.finishManager c else s.complete c stSuccess c.result false)
      (match s.due.find? (fun d => d.cmd = c.id) with
      | some d => (bump 0 1 (State.windowDone { s with due := s.due.filter (fun d => d.cmd ≠ c.id) } i c.id d.status d.result d.rebuilt)).dropCmd c.id
      | none => (bump 0 1 s).dropCmd c.id)
  | .media =>
    let op := (match eOp c.entry with
      | some o => !o.targets
      | none => false)
    let s := if op then { s with oldOps := s.oldOps ++ [(i, c.gen)] } else s
    (bump 1 0 (forget (s.leaveSetCmd (eOp c.entry)))).dropCmd c.id
  | _ => (bump 1 0 (forget s)).dropCmd c.id

/-- The rings, posted slots, task port and status page of a function are cleared (step 4, R166). -/
def State.clearFnWork (s : State) (i : Nat) : State :=
  let s := forBelow 4 (fun k t => (t.sqOff i k).cqOff i k) s
  let s := s.modFn i (fun n => { n with posted := [], tskBusy := false, tskDone := false, sq := List.replicate 4 SqState.reset,
                                        cq := List.replicate 4 CqState.reset, turnSq := 0, turnCnt := 0 })
  let s := s.modInst i (fun r => { r with status := [] })
  { s with due := s.due.filter (fun d => d.fn.toNat ≠ i), reads := s.reads.filter (fun r => r.fn.toNat ≠ i) }

/-- The configuration space and BAR0 registers of a function take their reset values; unfreed outbound messages stay (R57).
DEDUCED, log entry 32. -/
def State.clearFnConfig (s : State) (i : Nat) : State :=
  let lo := 0x1000000 + i * 0x8000
  let inFn (k : Nat) : Bool := decide (lo ≤ k ∧ k < lo + 0x8000)
  let view (k : Nat) : Bool := decide (0x130000 + 0x80 * i ≤ k ∧ k < 0x130080 + 0x80 * i)
  let s := { s with regs := s.regs.filter (fun e => !inFn e.1), latches := s.latches.filter (fun e => !inFn e.1 && !view e.1),
                    link := { s.link with misc := s.link.misc.filter (fun e => decide (e.1 / 4096 ≠ i)) } }
  let s := if i = 0 then
      { s with sec := { s.sec with doeIen := false },
               link := { s.link with numVfs := 0, pageSize := 1, ari := false, vfMse := false, aspmL1 := false, l1ss := 0, ltrEn := false, ltr := 0, d3 := false } }
    else s
  s.modFn i (fun n => { Fn.reset with outSlots := n.outSlots, overflow := n.overflow, nextSeq := n.nextSeq, dropped := n.dropped })

/-- The configuration reset alone, of a function whose instance is not ACTIVE: INS.EVT.out_msg is set while a kept slot holds a message
(R57, Table 03-2). -/
def State.resetFnOnly (s : State) (i : Nat) : State :=
  let s := s.clearFnConfig i
  if (s.getFn i).outSlots.isEmpty then s else s.setInsEvt i 0

/-- A removal's own part of step 4: every block is unmapped, and the queued ARCHIVE_DONE messages move into the slots freed (R92, R97);
the open period closes even while the clock is not valid. DESIGN CHOICE, log entry 77. -/
def State.removeStep4 (s : State) (i : Nat) : State :=
  let s := forEach (s.mappedBlocks i) (fun b t => t.mapPut i b puaEmpty) s
  let s := { s with fss := { s.fss with archived := s.fss.archived.filter (fun e => decide (e.1 / 2 ^ 32 ≠ i)) } }
  let s := s.modInst i (fun r => { r with
    opened := none, window := [], commits := [],
    closed := (match r.opened with
      | some p => (closeAs s.tm p 0 pfRemoval :: r.closed).take 7
      | none => r.closed) })
  let s := s.modFn i (fun n => { n with outSlots := n.outSlots.filter (fun e => isArchive e.2), overflow := n.overflow.filter isArchive })
  ((s.fillSlots i).dropEmptyLeaves i).refreshUsed i

/-- Step 4 of Table 03-3: generation, work, rings, mailbox, status page, record. -/
def State.resetStep4 (s : State) (i : Nat) (p : ResetProg) : State :=
  let s := forEach (s.cmds.filter (fun c => c.fn.toNat = i)) (fun c t => t.endCmd i c) s
  let s := s.clearFnWork i
  let s := if p.cause = 5 then s.removeStep4 i else s
  let s := s.modInst i (fun r => { r with gen := wrapInc 4095 r.gen })
  let s := s.journalRecord i
  if p.flr then s.clearFnConfig i else s

/-! ### Step 5 -/

/-- The payload of RESET_DONE (Table 03-6). -/
def resetDoneBody (old new : Nat) (p : ResetProg) : List Byte :=
  leBytes 2 old ++ leBytes 2 new ++ [BitVec.ofNat 8 p.cause, 0, 0, 0] ++ leBytes 2 p.dropped ++ leBytes 2 p.discarded

/-- The manager commands that wait for an acknowledgement complete once everything journaled so far is in NAND. -/
def State.ackAll (s : State) (l : List Nat) (result : Nat) : State :=
  forEach l (fun id t => match t.findCmd id with
    | some c => t.completeFlushed c result
    | none => t) s

/-- Step 5: acknowledgement, messages, INS.EVT, wake (R92, R99, R138). -/
def State.resetStep5 (s : State) (i old : Nat) : State :=
  match (s.getInst i).reset with
  | none => s
  | some p =>
    let new := (s.getInst i).gen
    let body := resetDoneBody old new p
    let s := s.modInst i (fun r => { r with reset := some { p with step := 5 } })
    let s :=
      if p.cause = 5 then
        (s.postPeer i 2 body).postOwn 0 5 (leBytes 8 0 ++ bitmap [i])
      else
        let s := s.setIState i .active
        let s := s.postOwn i 2 body
        let s := if i = 0 then s else s.postPeer i 2 body
        s.ackAll p.acks new
    let s := s.modFn i (fun n => { n with flr := false })
    let s := s.setInsEvt i 2
    let s := if (s.getFn i).outSlots.isEmpty || !p.flr then s else s.setInsEvt i 0
    ((s.wakeFn i).fetchSoon i).logEv .instanceState (some (BitVec.ofNat 8 i)) (s.getInst i).state.code

/-- Started operations of the instance carry a generation other than the present one, which the step would make older than the
previous (R90). DESIGN CHOICE, log entry 60. -/
def State.ackHeld (s : State) (i : Nat) : Bool := s.oldOps.any (fun o => decide (o.1 = i ∧ o.2 ≠ (s.getInst i).gen))

/-- The DMA reads of an instance have ended, or are abandoned by a reset of its function (Table 03-3 step 3, R53). -/
def State.drained (s : State) (i : Nat) (flr : Bool) : Bool := flr || !s.reads.any (fun r => r.fn.toNat = i)

/-- RESET_DRAIN_DONE (R87, R88): steps 3 to 5 of a reset or removal; of a function-level reset without an instance reset, only the
configuration is reset. DESIGN CHOICE, log entry 60. -/
def execResetDrainDone (i : Func) (s : State) : Host.Outcome State Fault Refusal :=
  .next (whenRunning s (fun s =>
    let n := i.toNat
    match (s.getInst n).reset with
    | some p =>
      if p.step < 5 && s.drained n p.flr && !s.ackHeld n then
        ((s.resetStep4 n p).resetStep5 n (s.getInst n).gen).pump
      else if decide (5 ≤ p.step) && (s.getFn n).flr then s.resetFnOnly n
      else s
    | none => if (s.getFn n).flr then s.resetFnOnly n else s))

/-- OLD_GENERATION_MEDIA_ENDED (R87 step 6, R92): the old operations of the instance end; a removal reaches DRAINING or IDLE, its key is
destroyed on reaching IDLE, and INSTANCE_REMOVE completes after a flush. DESIGN CHOICE, log entry 60. -/
def execOldGenerationMediaEnded (i : Func) (s : State) : Host.Outcome State Fault Refusal :=
  .next (whenRunning s (fun s =>
    let n := i.toNat
    let s := { s with oldOps := s.oldOps.filter (fun o => o.1 ≠ n) }
    match (s.getInst n).reset with
    | some p =>
      if p.step < 5 then s
      else
        let s := s.modInst n (fun r => { r with reset := none })
        if p.cause = 5 then
          let s := if s.segCount n = 0 then (s.destroyKey n).setIState n .idle else s.setIState n .draining
          let s := s.journalRecord n
          s.ackAll p.acks 0
        else s
    | none => s))

end Sys2Proof.Machine
end

