-- ==== Sys2Proof/Machine/Tenant.lean ====
section
/-!
DEFINITION. The tenants' commands on staged data (spec/04, R149 to R151, R162; spec/01, R26 to R36; spec/06, R223, R246): WRITE, DISCARD,
FLUSH, COMMIT_SEGMENT, and the reports GET_LOG and GET_USAGE.
-/

namespace Sys2Proof.Machine

/-! ### WRITE -/

/-- The index of the first block of a run that the policy at acceptance holds (R110, R111). -/
def State.heldIndex (s : State) (c : Cmd) : Option Nat :=
  (List.range (eArg1 c.entry)).find? (fun k => s.heldBlock c.fn.toNat (eArg0 c.entry + k) c.minHold c.legalHold)

/-- `n` units of a WRITE from block index `k` on are sealed and join the host band's pages (R190, R191, R215, R223): logical block, PUA and
sequence number of each; none when a page is missing. -/
def sealRun (c : Cmd) (key cnt group : Nat) : Nat → Nat → List Byte → State → Option (List (Nat × Nat × Nat) × State)
  | 0, _, _, s => some ([], s)
  | n + 1, k, data, s =>
    let i := c.fn.toNat
    let (q, s) := s.takeSeq i
    let g := if k = 0 then q % 2 ^ 32 else group
    let u : UnitRec := ⟨0, i, eArg0 c.entry + k, q, s.tm.mono, c.gen, k, cnt, g, false, key, data.take 4096⟩
    match s.addUnit .host u (some c.id) with
    | some (pua, s) =>
      (match sealRun c key cnt g n (k + 1) (data.drop 4096) s with
      | some (l, s) => some ((eArg0 c.entry + k, pua, q) :: l, s)
      | none => none)
    | none => none

/-- A WRITE waits in flight for space (R237). -/
def State.waitSpace (s : State) (c : Cmd) : State :=
  s.setCmd { c with stage := .space, since := if c.stage = .space then c.since else s.tm.mono }

/-- A WRITE executes: retention first, then space, then its units are sealed; sequence numbers past the mark that NAND holds wait for it
(R191). DEDUCED, log entry 37. -/
def State.startWrite (s : State) (c : Cmd) : State :=
  let s := s.touchRun c.fn.toNat (eArg0 c.entry) (eArg1 c.entry)
  match s.heldIndex c with
  | some k => s.complete c stRetention k false
  | none =>
    if s.freeBands < 3 ∨ (s.getInst c.fn.toNat).unitDur < (s.getInst c.fn.toNat).unitSeq + eArg1 c.entry then s.waitSpace c
    else
      match sealRun c ((s.getInst c.fn.toNat).keySerial.getD 0) (eArg1 c.entry) 0 (eArg1 c.entry) 0 c.data s with
      | some (l, t) => t.setCmd { c with stage := .media, placed := l }
      | none => s.waitSpace c

/-- WRITE (R149, R223): its units are sealed and wait for their pages; a WRITE that waited for space is tried again.
DEDUCED, log entry 37. -/
def execWrite (id : Nat) (mac : MacCheck) (s : State) : Host.Outcome State Fault Refusal :=
  .next (whenServing s (fun s =>
    match s.findCmd id with
    | some c =>
      if decide (eOp c.entry = some .write) && (c.ready || decide (c.stage = .space)) && !s.fss.quiesced then
        dramCheck mac s (fun s => s.underEpoch c (fun s => s.startWrite c))
      else s
    | none => s))

/-- A PUA lies in a page that has not reported success. -/
def State.programming (s : State) (pua : Nat) : Bool :=
  s.fss.fill.any (fun p => decide (p.pua / 4 = pua / 4)) || s.fss.progs.any (fun p => decide (p.pua / 4 = pua / 4))

/-- The map updates of a WRITE apply in one step, and it completes with the units it added (R89, R106, R149). -/
def State.applyWrite (s : State) (c : Cmd) : State :=
  let i := c.fn.toNat
  let n := s.wouldAdd i (eArg0 c.entry) (eArg1 c.entry)
  let s := forEach c.placed (fun e t => (t.mapPut i e.1 e.2.1).jUpdate (.map i e.1 e.2.1 e.2.2)) s
  let s := s.refreshUsed i
  let s := s.count i (fun m => { m with bytesWritten := m.bytesWritten + eArg1 c.entry * 4096 })
  s.complete c stSuccess n false

/-- A WRITE all of whose pages have reported success is applied (R26). -/
def State.endWrite (s : State) (id : Nat) : State :=
  match s.findCmd id with
  | some c =>
    if decide (eOp c.entry = some .write ∧ c.stage = .media) && !c.placed.any (fun e => s.programming e.2.1) then s.applyWrite c else s
  | none => s

/-- WRITE_SPACE_WAIT_TIMEOUT (R245): a WRITE that has waited 10 s for space completes with busy. -/
def execWriteSpaceWaitTimeout (id : Nat) (s : State) : Host.Outcome State Fault Refusal :=
  .next (whenServing s (fun s =>
    match s.findCmd id with
    | some c =>
      if c.stage = .space ∧ c.since + 10000 ≤ s.tm.mono then
        (s.complete c stBusy 0 false).logEv .spaceTimeout (some c.fn) 0
      else s
    | none => s))

/-! ### DISCARD -/

/-- The mapped blocks of a run. -/
def State.mappedRun (s : State) (i lbn n : Nat) : List Nat :=
  (s.mappedBlocks i).filter (fun b => decide (lbn ≤ b ∧ b < lbn + n))

/-- DISCARD (R246): retention, then every named block becomes Empty in one step; the result counts the units freed at once. -/
def execDiscard (id : Nat) (s : State) : Host.Outcome State Fault Refusal :=
  .next (withCmd id .discard s (fun c s =>
    let s := s.touchRun c.fn.toNat (eArg0 c.entry) (eArg1 c.entry)
    match s.heldIndex c with
    | some k => s.complete c stRetention k false
    | none =>
      let i := c.fn.toNat
      let l := s.mappedRun i (eArg0 c.entry) (eArg1 c.entry)
      let freed := (l.filter (fun b => isReal (s.mapGet i b) && !s.pinned i b)).length
      let s := forEach l (fun b t => t.mapPut i b puaEmpty) s
      let s := s.jUpdate (.discard i (eArg0 c.entry) (eArg1 c.entry) (s.getInst i).unitSeq)
      ((s.dropEmptyLeaves i).refreshUsed i).complete c stSuccess freed false))

/-! ### FLUSH -/

/-- FLUSH (R150): once every earlier command of the instance has completed, it waits for the journal. -/
def execFlush (id : Nat) (s : State) : Host.Outcome State Fault Refusal :=
  .next (withCmd id .flush s (fun c s =>
    if (earlier c.id s.cmds).any (fun a => decide (a.fn = c.fn ∧ a.stage ≠ .due)) then s else s.completeFlushed c 0))

/-! ### COMMIT_SEGMENT -/

/-- The blocks of a run that were Empty or lost when it was pinned: no unit of theirs is pinned (R105, R151). -/
def State.unpinnable (s : State) (i lbn n : Nat) : List (Nat × Nat) :=
  (List.range n).filterMap (fun k => if isReal (s.mapGet i (lbn + k)) then none else some (lbn + k, puaEmpty))

/-- A block of a run is lost: the segment can never be formatted (Table 01-3). DEDUCED, log entry 38. -/
def State.lostIn (s : State) (i lbn n : Nat) : Bool := (List.range n).any (fun k => decide (s.mapGet i (lbn + k) = puaLost))

/-- COMMIT_SEGMENT (R27, R35, R151, R284): the run is pinned at the end of the archive queue, and the completion waits for the flush. -/
def execCommitSegment (id : Nat) (s : State) : Host.Outcome State Fault Refusal :=
  .next (withCmd id .commit s (fun c s =>
    let i := c.fn.toNat
    let lbn := eArg0 c.entry
    let n := eArg1 c.entry
    if 1024 ≤ s.segCount i ∨ 16384 ≤ s.fss.segs.length then s.complete c stArcFull 0 false
    else
      let num := c.aux % 2 ^ 32
      let pos := c.aux / 2 ^ 32
      let s := s.touchRun i lbn n
      let gone := s.unpinnable i lbn n
      let g : Segment :=
        { num := num, inst := i, lbn := lbn, cnt := n, rid := eRid c.entry, blocks := (n + 7) / 8, displaced := gone, active := false,
          formatted := 0, verified := [], rebuilt := false, replaced := false, broken := s.lostIn i lbn n,
          unpinAt := none, chain := 0, setId := 0 }
      let s := { s with fss := { s.fss with segs := s.fss.segs ++ [g] } }
      let s := s.modInst i (fun r => { r with
        commits := ⟨eRid c.entry, num, pos, false, 0⟩ :: r.commits,
        firstSeg := if r.firstSeg = 0 then num else r.firstSeg })
      let s := ((s.jAdd (.pin i lbn n (eRid c.entry) num pos)).refreshUsed i).noteWaiting
      s.completeFlushed c (num + pos * 2 ^ 32)))

/-! ### GET_LOG and GET_USAGE -/

/-- The log as one: the LPDDR ring and the mirror, oldest first (R505). -/
def State.wholeLog (s : State) : List LogEntry :=
  (s.log.ring ++ s.log.mirror.filter (fun e => !s.log.ring.any (fun x => x.seq = e.seq))).reverse

/-- The entries a function may see. -/
def logShown (f : Nat) (e : LogEntry) : Bool := decide (f = 0) || decide (e.inst = some (BitVec.ofNat 8 f))

/-- At most `room` entries shown to function `f`, and the number after the last one examined (R144). -/
def logTake (f : Nat) : Nat → Nat → List LogEntry → List LogEntry × Nat
  | _, nx, [] => ([], nx)
  | 0, nx, _ => ([], nx)
  | room + 1, _, e :: r =>
    let nx := (e.seq + 1) % 2 ^ 32
    if logShown f e then let (l, m) := logTake f room nx r; (e :: l, m) else logTake f (room + 1) nx r

/-- An output command writes its buffer and completes, while its function may issue requests (R54). -/
def State.report (s : State) (c : Cmd) (data : List Byte) (result : Nat) : State :=
  if s.canWrite c.fn.toNat then (s.writeOut c (padTo (eLen c.entry) data)).complete c stSuccess result false else s

/-- GET_LOG (R144). -/
def execGetLog (id : Nat) (s : State) : Host.Outcome State Fault Refusal :=
  .next (withCmd id .getLog s (fun c s =>
    let q := eArg0 c.entry % 2 ^ 32
    let old := s.wholeLog.filter (fun e => !serialAfter q e.seq)
    let l := if serialAfter s.log.next q then old else []
    let r := logTake c.fn.toNat (eLen c.entry / 32) s.log.next l
    s.report c (r.1.foldl (fun a e => a ++ e.bytes) []) (r.1.length + r.2 * 2 ^ 32)))

/-- GET_USAGE (R123): records of the target, the newest first. -/
def execGetUsage (id : Nat) (s : State) : Host.Outcome State Fault Refusal :=
  .next (withCmd id .getUsage s (fun c s =>
    let i := if c.fn = 0 then eTarget c.entry else c.fn.toNat
    let l := (((s.getInst i).usage).drop (eArg1 c.entry % 256)).take (eArg1 c.entry / 256 % 256)
    s.report c (l.foldl (fun a p => a ++ p.bytes s.tm.mono) []) l.length))

end Sys2Proof.Machine
end

