-- ==== Sys2Proof/Machine/Log.lean ====
section
/-!
DEFINITION. The event log in its three places (spec/16, R500 to R505): entry bytes, the end of a folding second, the mirror in the
staging store, the NVM ring; and the monotonic floor and last-alive counters (R521, R522).
-/

namespace Sys2Proof.Machine

/-- LOG_FOLD_FLUSH (R503): the folding seconds that have ended write their entry of repeats, if any occurred. -/
def execLogFoldFlush (s : State) : Host.Outcome State Fault Refusal :=
  .next (whenRunning s (fun s =>
    let ended := s.log.folds.filter (fun w => decide (w.ends ≤ s.tm.mono))
    let s := { s with log := { s.log with folds := s.log.folds.filter (fun w => !decide (w.ends ≤ s.tm.mono)) } }
    forEach ended.reverse (fun w t => if w.count = 0 then t else t.logWrite w.ev w.inst w.count w.arg) s))

/-- The mirror block and slot of a sequence number (R504). DEDUCED, log entry 55. -/
def mirrorBlock (seq : Nat) : Nat := seq / 128 % 1024

/-- The entries of a mirror block that the ring holds, by rising sequence, from the block's first sequence number on. -/
def State.blockEntries (s : State) (first : Nat) : List LogEntry :=
  (s.log.ring.filter (fun e => decide (e.seq / 128 = first / 128))).reverse

/-- One mirror block is written as a log mirror unit in the system band, with a LOG_MAP entry (R504). DEDUCED, log entry 55. -/
def State.mirrorOne (s : State) : State :=
  let q := s.log.unmirrored
  let l := s.blockEntries q
  let nx := (q / 128 + 1) * 128
  let upTo := if nx ≤ s.log.next then nx % 2 ^ 32 else s.log.next
  let (seq, s) := s.takeSeq 0
  let u : UnitRec := ⟨4, 0, mirrorBlock q, seq, s.tm.mono, (s.getInst 0).gen, 0, 1, seq % 2 ^ 32, false, ((s.getInst 0).keySerial).getD 0,
    padTo 4096 (l.foldl (fun a e => a ++ e.bytes) [])⟩
  match s.putUnit .system u with
  | some (pua, t) =>
    let t := t.jAdd (.logMap (mirrorBlock q) pua seq)
    { t with
      fss := { t.fss with logMap := Bank.set logMapDef t.fss.logMap (mirrorBlock q) pua },
      log := { t.log with unmirrored := upTo,
                          mirror := l.reverse ++ t.log.mirror.filter (fun e => mirrorBlock e.seq ≠ mirrorBlock q || (decide (e.seq / 128 = q / 128) && !l.any (fun x => x.seq = e.seq))) } }
  | none => s

/-- LOG_MIRROR_WRITE (R504): the oldest block with entries not yet mirrored is written, while the store is ready. -/
def execLogMirrorWrite (s : State) : Host.Outcome State Fault Refusal :=
  .next (whenRunning s (fun s => if s.mounted && decide (s.log.unmirrored ≠ s.log.next) then s.mirrorOne else s))

/-- LOG_NVM_WRITE (R504). DEDUCED, log entry 16. -/
def execLogNvmWrite (s : State) : Host.Outcome State Fault Refusal := .next (whenRunning s State.critOne)

/-- LAST_ALIVE_WRITE (R521): while the clock is valid, counter 5 takes the wall seconds. DEDUCED, log entry 50. -/
def execLastAliveWrite (s : State) : Host.Outcome State Fault Refusal :=
  .next (whenRunning s (fun s => if s.tm.valid then s.ctrStore 5 s.tm.sec else s))

/-- MONO_FLOOR_WRITE (R522): counter 4 is moved on when monotonic time has reached it. DEDUCED, log entry 50. -/
def execMonoFloorWrite (s : State) : Host.Outcome State Fault Refusal :=
  .next (whenRunning s (fun s => if s.ctr 4 ≤ s.tm.mono then s.ctrStore 4 (s.tm.mono + 600000) else s))

end Sys2Proof.Machine
end

