-- ==== Sys2Proof/Machine/Staging.lean ====
section
/-!
DEFINITION. The staging store at work (spec/06, R223 to R245): page programs, erases and reads, unit moves and losses, journal flushes and
root checkpoints, garbage collection, wear levelling, refresh, failed dies.
-/

namespace Sys2Proof.Machine

/-- New programs and erases may be issued (R231). -/
def State.nandOpen (s : State) : Bool := s.mounted && !s.fss.quiesced

/-- Every segment, band, page in programming or command changed by `g`. -/
def State.mapSegs (s : State) (g : Segment → Segment) : State := { s with fss := { s.fss with segs := s.fss.segs.map g } }
def State.mapBands (s : State) (g : Band → Band) : State := { s with fss := { s.fss with bands := s.fss.bands.map g } }
def State.mapPages (s : State) (g : PageProg → PageProg) : State :=
  { s with fss := { s.fss with fill := s.fss.fill.map g, progs := s.fss.progs.map g } }
def State.mapCmds (s : State) (g : Cmd → Cmd) : State := { s with cmds := s.cmds.map g }

/-! ### Live units and their moves (R192, R237, R248) -/

/-- A data unit is the one its logical block maps, or one that a segment still pins. -/
def State.isMapped (s : State) (pua : Nat) : Bool :=
  decide ((s.unitAt pua).kind = 0 ∧ s.mapGet (s.unitAt pua).inst (s.unitAt pua).lbn = pua)
def State.isDisplaced (s : State) (pua : Nat) : Bool :=
  s.fss.segs.any (fun g => g.holding && decide (g.inst = (s.unitAt pua).inst) && g.displaced.contains ((s.unitAt pua).lbn, pua))

/-- The leaf whose newest NAND copy lies at a PUA. -/
def State.leafFrom (s : State) (pua : Nat) : Option Nat := (s.fss.leaves.find? (fun e => decide (e.2.pua = pua))).map (fun e => e.1)

/-- The unit is valid: something still refers to it. -/
def State.isLive (s : State) (pua : Nat) : Bool :=
  let u := s.unitAt pua
  if u.kind = 0 then s.isMapped pua || s.isDisplaced pua
  else if u.kind = 4 then decide (Bank.get logMapDef s.fss.logMap u.lbn = pua)
  else if u.kind = 2 then (s.leafFrom pua).isSome
  else false

/-- The valid units of a set of blocks. -/
def State.liveIn (s : State) (blocks : List (Nat × Nat)) : List Nat :=
  (s.fss.units.map (fun e => e.1)).filter (fun p => blocks.contains (puaDie p, puaBlock s.fss.ppb p) && s.isLive p)

/-- The references of segments to a displaced unit follow it. -/
def State.retarget (s : State) (i lbn old new : Nat) : State :=
  s.mapSegs (fun g =>
    if g.inst = i then { g with displaced := g.displaced.map (fun e => if e = (lbn, old) then (lbn, new) else e) } else g)

/-- A unit copied, or written again, after a read of it: what refers to it follows (R192, R248). -/
def State.moveLive (s : State) (role : Band.Role) (pua : Nat) : State :=
  if !s.isLive pua then s
  else
    let u := s.unitAt pua
    match s.putUnit role { u with idx := 0, cnt := 1, group := u.seq % 2 ^ 32, moved := true } with
    | none => s
    | some (new, s) =>
      if u.kind = 0 then
        if s.isMapped pua then (s.mapStore u.inst u.lbn new).jUpdate (.move u.inst u.lbn new u.seq pua false)
        else (s.retarget u.inst u.lbn pua new).jUpdate (.move u.inst u.lbn new u.seq pua true)
      else if u.kind = 4 then
        State.jAdd { s with fss := { s.fss with logMap := Bank.set logMapDef s.fss.logMap u.lbn new } } (.logMap u.lbn new u.seq)
      else
        match s.leafFrom pua with
        | some k => (s.setLeaf k { s.leaf k with pua := new }).jAdd (.leaf (k / 2 ^ 22) (k % 2 ^ 22) new)
        | none => s

/-- The journal entries and the root that name a unit of the system band follow it. -/
def retargetEntry (old new : Nat) : JEntry → JEntry
  | .record i gen pua r lim => .record i gen (if pua = old then new else pua) r lim
  | .leaf i idx pua => .leaf i idx (if pua = old then new else pua)
  | e => e
def State.retargetUnit (s : State) (old new : Nat) : State :=
  { s with fss := { s.fss with
      jWait := s.fss.jWait.map (retargetEntry old new),
      jFlight := s.fss.jFlight.map (fun u => { u with pua := if u.pua = old then new else u.pua }),
      rootWait := s.fss.rootWait.map (fun w => { w with pua := if w.pua = old then new else w.pua }) } }

/-- One unit of a failed page is written again: what refers to it, or the WRITE that waits for it, follows. -/
def State.rewrite (s : State) (p : PageProg) (k : Nat) (u : UnitRec) : State :=
  let old := p.pua + k
  if s.isLive old then s.moveLive p.role old
  else if u.kind ≠ 0 then
    match s.putUnit p.role u with
    | some (new, t) => t.retargetUnit old new
    | none => s
  else
    match s.addUnit p.role u none with
    | some (new, t) =>
      let t := t.mapCmds (fun c =>
        if p.cmds.contains c.id then { c with placed := c.placed.map (fun e => if e.2.1 = old then (e.1, new, e.2.2) else e) } else c)
      t.mapPages (fun x => if x.pua / 4 = new / 4 then { x with cmds := (x.cmds ++ p.cmds).eraseDups } else x)
    | none => s

def State.rewriteAll (s : State) (p : PageProg) : Nat → List UnitRec → State
  | _, [] => s
  | k, u :: r => State.rewriteAll (s.rewrite p k u) p (k + 1) r

/-- The pages that fill on dies or blocks `p` names are given up, and their units go to other pages. -/
def State.refill (s : State) (p : Nat → Bool) : State :=
  forEach (s.fss.fill.filter (fun x => p x.pua)) (fun x t => t.rewriteAll x 0 x.units)
    { s with fss := { s.fss with fill := s.fss.fill.filter (fun x => !p x.pua) } }

/-! ### Losses, retired blocks, failed dies (R240, R243, R245) -/

/-- The logical blocks of a leaf that no copy gives any more are lost, each with a LOST entry (R243). -/
def State.loseLeaf (s : State) (k : Nat) : State :=
  let i := k / 2 ^ 22
  let l := (s.mappedBlocks i).filter (fun b => decide (leafKey i b = k) && isReal (s.mapGet i b))
  (forEach l (fun b t =>
    let pua := t.mapGet i b
    ((t.mapSegs (fun g =>
      if g.pins i b then { g with displaced := g.displaced ++ [(b, lostPinnedPua pua)], broken := true } else g)).mapStore i b puaLost).jAdd
        (.lost i b 1 none)) s).refreshUsed i

/-- A unit is lost: its map entry reads lost, a segment that pins it stays pinned. A leaf is used where it stands in LPDDR or in the region,
and otherwise comes from its previous copy and the journal; with neither, its blocks are lost (R243). DESIGN CHOICE, log entry 21. -/
def State.loseUnit (s : State) (pua : Nat) : State :=
  let u := s.unitAt pua
  if u.kind = 0 then
    let s :=
      if s.isMapped pua then
        let t := s.mapSegs (fun g =>
          if g.pins u.inst u.lbn then { g with displaced := g.displaced ++ [(u.lbn, lostPinnedPua pua)], broken := true } else g)
        (t.mapStore u.inst u.lbn puaLost).jAdd (.lost u.inst u.lbn 1 none)
      else
        (s.mapSegs (fun g =>
          if g.inst = u.inst ∧ g.displaced.contains (u.lbn, pua) then
            { g with displaced := g.displaced.map (fun e => if e = (u.lbn, pua) then (u.lbn, lostPinnedPua pua) else e), broken := true }
          else g)).jAdd (.lost u.inst u.lbn 1 (some pua))
    ({ s with fss := { s.fss with lost := inc16 s.fss.lost } }.refreshUsed u.inst).logEv .unitLost (some (BitVec.ofNat 8 u.inst)) pua
  else
    match s.leafFrom pua with
    | some k =>
      let l := s.leaf k
      if l.loc = .nand ∧ (s.unitAt l.prev).kind ≠ 2 then s.loseLeaf k
      else let t := s.touchLeaf k; t.setLeaf k { t.leaf k with dirty := true }
    | none => s

def State.die (s : State) (d : Nat) : Die := nth Die.reset s.fss.dies d
def State.modDie (s : State) (d : Nat) (g : Die → Die) : State := { s with fss := { s.fss with dies := modNth g s.fss.dies d } }

/-- An operation of a die ended: it is not busy beyond its limit. -/
def State.dieOk (s : State) (d : Nat) : State := s.modDie d (fun x => { x with busy := 0 })

/-- A die is declared failed: later stripes and bands leave it out, the pages that fill on it are given up, its units are to be rebuilt
(R245). -/
def State.dieFail (s : State) (d : Nat) : State :=
  if (s.die d).failed || !(s.die d).present then s
  else
    let s := (s.modDie d (fun x => { x with failed := true })).jAdd (.dieFail d)
    let s := State.mapBands { s with fss := { s.fss with dieRebuild := true } }
      (fun b => { b with left := if b.blocks.any (fun e => e.1 = d) then (d :: b.left).eraseDups else b.left })
    ((s.refill (fun p => decide (puaDie p = d))).recap).note .dieFailed d

/-- A block is retired: the die is left out of the later stripes of an open band that holds it, and a page that fills on it is given up; the
eighth of a die within 24 h fails the die (R240, R245). Reasons: 1 program, 2 erase, 3 limit, 4 refresh. -/
def State.retireBlock (s : State) (d b reason : Nat) : State :=
  if (s.block d b).use = .retired then s
  else
    let s := (s.setBlock d b { s.block d b with use := .retired }).jAdd (.retire d b reason)
    let s := State.mapBands { s with fss := { s.fss with retired := inc16 s.fss.retired } }
      (fun x => if x.isOpen && x.blocks.contains (d, b) then { x with left := (d :: x.left).eraseDups } else x)
    let s := s.refill (fun p => decide (puaDie p = d ∧ puaBlock s.fss.ppb p = b))
    let now := s.tm.mono
    let s := s.modDie d (fun x => { x with retires := now :: x.retires.filter (fun t => decide (now < t + 86400000)) })
    let s := s.note .blockRetired (d + 16 * b + 2 ^ 20 * reason)
    if 8 ≤ (s.die d).retires.length then s.dieFail d else s

/-! ### What a read of a unit shows (R192, R204, R206, R242) -/

/-- What the rebuilds of the units of a failed die show; a unit not listed reads clean. -/
def seenRead (l : List (Nat × NandRead)) (pua : Nat) : NandRead := ((l.find? (fun e => e.1 = pua)).map (fun e => e.2)).getD .clean

/-- A READ waits for this PUA under a view that the unit's tag does not carry (R192). -/
def State.viewFails (s : State) (pua : Nat) : Bool :=
  let u := s.unitAt pua
  s.cmds.any (fun c => decide (eOp c.entry = some .read ∧ c.stage = .media) &&
    c.placed.any (fun e => decide (e.2.1 = pua ∧ e.2.2 = rdUnit ∧ ¬ (u.kind = 0 ∧ u.inst = c.fn.toNat ∧ u.lbn = e.1))))

/-- A quarantined location is not read: its data comes from parity or is lost. -/
def quarRead (q : Bool) (r : NandRead) : NandRead :=
  if q then (match r with
    | .lost => .lost
    | _ => .rebuilt)
  else r

/-- Without its parity page a stripe rebuilds nothing: a page that does not decode, or a unit that fails its tag, is lost (R206, R216). -/
def bareRead (bare : Bool) (r : NandRead) : NandRead :=
  if bare then (match r with
    | .rebuilt => .lost
    | .tagRebuilt => .lost
    | .tagFailed => .lost
    | r => r)
  else r

/-- The stripe of a page has no parity page yet. -/
def State.stripeBare (s : State) (pua : Nat) : Bool :=
  s.fss.bands.any (fun b => b.blocks.contains (puaDie pua, puaBlock s.fss.ppb pua) && b.bare.contains (puaPage s.fss.ppb pua))

/-- What a read shows once the view, the quarantine, the stripe and FSS.NAND_CFG.rr_levels are taken into account: with no retry levels a
decode failure goes straight to the rebuild (R242). -/
def State.readResult (s : State) (pua : Nat) (r : NandRead) : NandRead :=
  let r := if r = .retried ∧ fld s.fss.nandCfg 24 4 = 0 then .rebuilt else r
  let r := quarRead (s.pageQuarantined pua) r
  let r := if s.viewFails pua then (match r with
    | .lost => .lost
    | _ => .tagFailed)
  else r
  bareRead (s.stripeBare pua) r

/-- What follows a read that was not clean: a recovered unit is moved and counted, a unit that fails its tag after the rebuild begins the halt,
and one that nothing recovers is lost (Table 05-5, R242, R243). -/
def State.recoverUnit (s : State) (role : Band.Role) (pua : Nat) (r : NandRead) : State :=
  match r with
  | .clean => s
  | .weak => s
  | .retried => ({ s with fss := { s.fss with retried := inc16 s.fss.retried } }).moveLive role pua
  | .rebuilt => (({ s with fss := { s.fss with rebuilt := inc16 s.fss.rebuilt } }).moveLive role pua).note .unitRebuilt pua
  | .tagRebuilt => (({ s with sea := { s.sea with repairFlash := inc16 s.sea.repairFlash } }).moveLive role pua).note .unitRepaired pua
  | .tagFailed =>
    s.haltBy (.flashTag ⟨puaDie pua % 16, Nat.mod_lt _ (by decide)⟩ (BitVec.ofNat 16 (puaBlock s.fss.ppb pua))
      (BitVec.ofNat 12 (puaPage s.fss.ppb pua)) (BitVec.ofNat 8 (s.unitAt pua).inst))
  | .lost => s.loseUnit pua

/-- A valid unit is read, checked and copied unchanged into a band of a role, as a group of one (R192). A read that NAND_READ_DONE has not
reported otherwise before shows a clean page. DESIGN CHOICE, log entry 21. -/
def State.moveRead (s : State) (role : Band.Role) (pua : Nat) : State :=
  match s.readResult pua .clean with
  | .clean => s.moveLive role pua
  | .weak => s.moveLive role pua
  | r => s.recoverUnit role pua r

/-- Every valid unit of some blocks is read and moved. DESIGN CHOICE, log entry 21. -/
def State.moveAll (s : State) (role : Band.Role) (blocks : List (Nat × Nat)) : State :=
  forEach (s.liveIn blocks) (fun p t => if t.running then t.moveRead role p else t) s

/-- A block is taken out of its band and its valid units are moved; it is erased once the journal holds the moves (R237, R241). An open GC
band that holds it is closed first, so that nothing is moved into it. -/
def State.emptyBlock (s : State) (d b : Nat) : State :=
  let s := match s.openOf .gc with
    | some x => if x.blocks.contains (d, b) then s.closeBand x else s
    | none => s
  let s := State.mapBands s (fun x => if x.isOpen && x.blocks.contains (d, b) then { x with left := (d :: x.left).eraseDups } else x)
  let s := s.refill (fun p => decide (puaDie p = d ∧ puaBlock s.fss.ppb p = b))
  let s := s.moveAll .gc [(d, b)]
  if (s.block d b).use = .retired ∨ s.fss.solo.any (fun e => e.1 = d ∧ e.2.1 = b) then s
  else
    State.mapBands { s with fss := { s.fss with solo := s.fss.solo ++ [(d, b, s.fss.jMade)] } }
      (fun x => if x.blocks.contains (d, b) then { x with left := (d :: x.left).eraseDups } else x)

/-! ### Page programs -/

/-- A stripe has taken its last data page, and all of them report success. -/
def State.stripeEnded (s : State) (b : Band) (page : Nat) : Bool :=
  (decide (page < b.page) || b.nextPos.isNone || !b.isOpen) &&
    !(s.fss.fill ++ s.fss.progs).any (fun p =>
      b.blocks.contains (puaDie p.pua, puaBlock s.fss.ppb p.pua) && decide (puaPage s.fss.ppb p.pua = page))

/-- The parity pages of the stripes whose other pages are all programmed are issued (R216); a stripe whose parity die has failed keeps
none. -/
def State.issueParity (s : State) : State :=
  forEach s.fss.bands (fun b t =>
    forEach (b.bare.filter (fun page => t.stripeEnded b page)) (fun page u =>
      let e := nth (0, 0) (b.diesAt page) (b.parityOf page)
      if b.left.contains e.1 then u
      else { u with fss := { u.fss with
        progs := u.fss.progs ++ [⟨mkPua u.fss.ppb e.1 e.2 page 0, b.role, [], [], u.fss.quiesced⟩] } }) t) s

/-- The stripe of a parity page has its parity. -/
def State.parityDone (s : State) (pua : Nat) : State :=
  s.mapBands (fun b =>
    if b.blocks.contains (puaDie pua, puaBlock s.fss.ppb pua) then { b with bare := b.bare.filter (fun x => x ≠ puaPage s.fss.ppb pua) } else b)

/-- The reserved marks that journal entries or a root bring to NAND (R191, R194). -/
def State.durMark (s : State) (i unit arc : Nat) : State :=
  s.modInst i (fun r => { r with unitDur := max r.unitDur unit, arcDur := max r.arcDur arc })

/-- The root whose header page reports success is complete (R229): older system bands close (R230), and its reserved marks stand. -/
def State.rootLanded (s : State) : State :=
  match s.fss.rootWait with
  | none => s
  | some w =>
    let s := forEach (s.fss.bands.filter (fun b => decide (b.role = .system) && !b.isOpen)) (fun b t =>
      forEach b.blocks (fun e u => if (u.block e.1 e.2).use = .opened then u.setBlock e.1 e.2 { u.block e.1 e.2 with use := .closed } else u) t) s
    let s := forEach w.snap.inst (fun e t => t.durMark e.1 e.2.unitHigh e.2.arcHigh) s
    { s with fss := s.fss.rootLanded }

/-- A page reports success: its units are in NAND, a parity page completes its stripe, the header page of a root completes the root, and the
WRITEs whose last page it was are applied and complete. -/
def State.pageDone (s : State) (p : PageProg) : State :=
  let s := { s with fss := { s.fss with progs := s.fss.progs.filter (fun x => x.pua ≠ p.pua) } }
  let s := (s.storeUnits p.pua p.units).dieOk (puaDie p.pua)
  let s := if p.units.isEmpty then s.parityDone p.pua else s
  let s := if s.fss.rootWait.any (fun w => decide (w.pua / 4 = p.pua / 4)) then s.rootLanded else s
  (forEach p.cmds (fun id t => t.endWrite id) s).issueParity

/-- A page that its die is programming; a page queued while the store is quiesced is not (R231). -/
def State.programOf (s : State) (pua : Nat) : Option PageProg := s.fss.progs.find? (fun p => decide (p.pua = pua) && !p.queued)

/-- NAND_PAGE_PROGRAM_DONE (R216, R223, R229): a page reports success. -/
def execNandPageProgramDone (pua : Nat) (s : State) : Host.Outcome State Fault Refusal :=
  .next (whenRunning s (fun s =>
    match s.programOf pua with
    | some p => (s.pageDone p).pump
    | none => s))

/-- A role's number. -/
def roleOf (n : Fin 4) : Band.Role :=
  match n.val with
  | 0 => .host
  | 1 => .system
  | 2 => .gc
  | _ => .cold

/-- PAGE_WAIT_TIMEOUT (R223): the filling page of a role is programmed, its unused slots invalid. DESIGN CHOICE, log entry 2. -/
def execPageWaitTimeout (role : Fin 4) (s : State) : Host.Outcome State Fault Refusal :=
  .next (whenRunning s (fun s => if s.nandOpen then s.issuePage (roleOf role) else s))

/-- The rest of the present stripe of a band is left, with a die left out of every later one (R244). -/
def Band.skipDie (b : Band) (d : Nat) : Band := Band.turn { b with left := (d :: b.left).eraseDups }

/-- NAND_PROGRAM_FAIL (R240, R244): the page's units go to the next stripe of the band without that die, the page that fills is issued as it
is, and the block is retired. -/
def execNandProgramFail (pua : Nat) (s : State) : Host.Outcome State Fault Refusal :=
  .next (whenRunning s (fun s =>
    match s.programOf pua with
    | some p =>
      let d := puaDie pua
      let b := puaBlock s.fss.ppb pua
      let s := State.mapBands { s with fss := { s.fss with progs := s.fss.progs.filter (fun x => x.pua ≠ pua) } }
        (fun x => if x.blocks.contains (d, b) && x.isOpen then x.skipDie d else x)
      let s := if s.fss.fill.any (fun x => decide (x.role = p.role ∧ puaDie x.pua ≠ d)) then s.issuePage p.role else s
      ((s.retireBlock d b 1).rewriteAll p 0 p.units).issueParity
    | none => s))

/-! ### Erases -/

/-- A READ still needs a unit of a block. -/
def State.readsBlock (s : State) (d b : Nat) : Bool :=
  s.cmds.any (fun c => decide (eOp c.entry = some .read ∧ c.stage = .media) &&
    c.placed.any (fun e => isReal e.2.1 && decide (puaDie e.2.1 = d ∧ puaBlock s.fss.ppb e.2.1 = b)))

/-- A block leaves its band; a band without blocks is gone. -/
def State.unband (s : State) (d b : Nat) : State :=
  let l := s.fss.bands.map (fun x => { x with blocks := x.blocks.filter (fun e => e ≠ (d, b)) })
  { s with fss := { s.fss with bands := l.filter (fun x => !x.blocks.isEmpty) } }

/-- A block that a format left unerased ends its erase as its band opens (R236, R240). -/
def State.staleErased (s : State) (d b : Nat) (ok : Bool) : State :=
  let s := s.setBlock d b { s.block d b with erases := (s.block d b).erases + 1, stale := false }
  if ok then s else s.retireBlock d b 2

/-- NAND_ERASE_DONE (R236, R240): a block being erased becomes free, or is retired on a failure or at its erase limit. -/
def execNandEraseDone (die : Fin 16) (block : BitVec 16) (ok : Bool) (s : State) : Host.Outcome State Fault Refusal :=
  .next (whenRunning s (fun s =>
    let d := die.val
    let b := block.toNat
    if s.fss.quiesced then s
    else if (s.block d b).use = .opened ∧ (s.block d b).stale then (s.dieOk d).staleErased d b ok
    else if (s.block d b).use ≠ .erasing || s.readsBlock d b then s
    else
      let s := (s.unband d b).dieOk d
      let s := { s with fss := { s.fss with
        units := s.fss.units.filter (fun e => !decide (puaDie e.1 = d ∧ puaBlock s.fss.ppb e.1 = b)) } }
      let n := (s.block d b).erases + 1
      let s := s.setBlock d b ⟨.free, n, 0, false⟩
      if !ok then s.retireBlock d b 2
      else if Cf.FSS_WL_pe_limit s * 10 ≤ n then s.retireBlock d b 3
      else s))

/-! ### Unit reads (R206, R241, R242) -/

/-- The READs that wait for a unit go on. -/
def State.settleUnit (s : State) (pua st : Nat) : State :=
  (s.mapBlocks (fun _ e => decide (e.2.1 = pua ∧ e.2.2 = rdUnit)) (fun _ e => (e.1, e.2.1, st))).endReads

/-- The effects of one read of a unit: the READs that wait for it go on, REBUILT set for a unit rebuilt after a decode failure alone, and
a weak block is emptied (R241, R242). -/
def State.unitRead (s : State) (pua : Nat) (r : NandRead) : State :=
  match r with
  | .clean => s.settleUnit pua rdGood
  | .weak => (s.settleUnit pua rdGood).emptyBlock (puaDie pua) (puaBlock s.fss.ppb pua)
  | .retried => (s.settleUnit pua rdGood).recoverUnit .gc pua .retried
  | .rebuilt => (s.settleUnit pua rdRebuilt).recoverUnit .gc pua .rebuilt
  | .tagRebuilt => (s.settleUnit pua rdGood).recoverUnit .gc pua .tagRebuilt
  | .tagFailed => s.recoverUnit .gc pua .tagFailed
  | .lost => (s.recoverUnit .gc pua .lost).settleUnit pua rdLost

/-- NAND_READ_DONE (R242): a unit read for any purpose ends: for a READ, the formatter or a relocation (R192). -/
def execNandReadDone (pua : Nat) (r : NandRead) (s : State) : Host.Outcome State Fault Refusal :=
  .next (whenRunning s (fun s =>
    if !s.mounted || decide ((s.unitAt pua).kind = 0xFF) then s
    else (s.dieOk (puaDie pua)).unitRead pua (s.readResult pua r)))

/-- The units of a page. -/
def State.pageUnits (s : State) (d b p : Nat) : List Nat :=
  let base := mkPua s.fss.ppb d b p 0
  [base, base + 1, base + 2, base + 3].filter (fun x => decide ((s.unitAt x).kind ≠ 0xFF))

/-- A refresh failed: the page did not decode, even by read retry (R240). -/
def readFails : NandRead → Bool
  | .rebuilt => true
  | .lost => true
  | _ => false

/-- REFRESH_READ (R241): a programmed page is read; a weak block is emptied, a failed refresh retires the block.
DESIGN CHOICE, log entry 21. -/
def execRefreshRead (die : Fin 16) (block : BitVec 16) (page : BitVec 12) (r : NandRead) (s : State) :
    Host.Outcome State Fault Refusal :=
  .next (whenRunning s (fun s =>
    let d := die.val
    let b := block.toNat
    let l := s.pageUnits d b page.toNat
    if !s.mounted || l.isEmpty then s
    else
      let s := forEach l (fun pua t => if t.running then t.unitRead pua (t.readResult pua r) else t) s
      if readFails r && s.running then (s.moveAll .gc [(d, b)]).retireBlock d b 4 else s))

/-! ### What a flush ends with (R227) -/

def roleOfCode (c : Nat) : Band.Role := if c = 0 then .host else if c = 1 then .system else if c = 2 then .gc else .cold

/-- The units of WRITEs whose map updates are not applied. -/
def State.unapplied (s : State) : List Nat :=
  (s.cmds.filter (fun c => decide (eOp c.entry = some .write ∧ c.stage = .media))).flatMap (fun c => c.placed.map (fun e => e.2.1))

/-- The page index at which a scan of an open band must start: the lowest that holds a unit whose map update is not in the flush (R227). -/
def State.frontier (s : State) (b : Band) : Nat :=
  let inBand (pua : Nat) : Bool := b.blocks.contains (puaDie pua, puaBlock s.fss.ppb pua)
  (((s.fss.fill ++ s.fss.progs).map (fun p => p.pua) ++ s.unapplied).filter inBand |>.map (fun p => puaPage s.fss.ppb p)).foldl min b.page

/-- A flush ends with the frontier of every open band and the blocks that the allocator takes next (R227). -/
def State.flushTail (s : State) : State :=
  let s := forEach (s.fss.bands.filter (fun b => b.isOpen)) (fun b t => t.jAdd (.frontier b.role b.num (t.frontier b))) s
  let s := s.listBlocks
  forEach s.fss.reserved (fun e t => t.jAdd (.band e.2.1 (roleOfCode e.1) true t.fss.nextBand e.2.2 (t.block e.2.1 e.2.2).erases)) s

/-! ### Journal flushes (R225 to R228) -/

/-- A role has no listed block left: it can open no band before the next flush (R227). DEDUCED, log entry 45. -/
def State.unlisted (s : State) : Bool := (List.range 4).any (fun c => !s.fss.reserved.any (fun e => decide (e.1 = c)))

/-- Something waits for a flush, or a trigger of R227 has come. -/
def State.flushDue (s : State) : Bool :=
  decide (1024 ≤ s.fss.jUpdates) || decide (1 ≤ s.fss.jUpdates ∧ s.fss.jOldest + 64 ≤ s.tm.mono) ||
    s.cmds.any (fun c => decide (c.stage = .flushing)) || s.fss.segs.any (fun g => g.unpinAt.isSome) ||
    s.fss.bands.any (fun b => b.eraseAt.isSome) || !s.fss.solo.isEmpty || s.unlisted

/-- Entries in runs of at most 254 of 16 bytes each, a PIN and its PIN_ID in one run (R225, R226). -/
def journalRuns (l : List JEntry) : List (List JEntry) :=
  let size (c : List JEntry) : Nat := c.foldl (fun a e => a + e.images.length) 0
  (l.foldl (fun (acc : List (List JEntry)) e => match acc with
    | c :: r => if size c + e.images.length ≤ 254 then (c ++ [e]) :: r else [e] :: acc
    | [] => [[e]]) []).reverse

/-- The 4 KiB of a journal unit: version, entry count, journal sequence, root sequence, zeros, entries (R225). -/
def journalBytes (seq root : Nat) (l : List JEntry) : List Byte :=
  let e := l.flatMap JEntry.images
  padTo 4096 (leBytes 4 1 ++ leBytes 4 e.length ++ leBytes 8 seq ++ leBytes 8 root ++ leBytes 8 0 ++ e.foldl (fun a c => a ++ c) [])

/-- One journal unit is written in the system band (R225); none without a page. -/
def State.journalUnit (s : State) (l : List JEntry) : Option State :=
  let (q, s) := s.takeSeq 0
  let u : UnitRec := ⟨1, 0, s.fss.jUnits, q, s.tm.mono, (s.getInst 0).gen, 0, 1, q % 2 ^ 32, false, ((s.getInst 0).keySerial).getD 0,
    journalBytes s.fss.jUnits s.fss.rootSeq l⟩
  match s.putUnit .system u with
  | some (pua, t) =>
    some { t with fss := { t.fss with jUnits := t.fss.jUnits + 1, jFlight := t.fss.jFlight ++ [⟨s.fss.jUnits, s.fss.rootSeq, pua, l⟩] } }
  | none => none

def State.journalRun : List (List JEntry) → State → Option State
  | [], s => some s
  | l :: r, s => match s.journalUnit l with
    | some t => State.journalRun r t
    | none => none

/-- The entries not yet flushed are written, and the pages that they name or lie in are issued (R227, DEDUCED, log entry 45); without a page
for them no flush begins. -/
def State.flushOut (s : State) : State :=
  let t := s.flushTail
  match State.journalRun (journalRuns t.fss.jWait) { t with fss := { t.fss with jWait := [], jFlight := [] } } with
  | none => s
  | some t =>
    let t := ((t.issuePage .gc).issuePage .cold).issuePage .system
    { t with fss := { t.fss with jFlying := true, jUpdates := 0 } }

/-- JOURNAL_FLUSH (R227): a flush begins, while no root is being written, so that every unit follows the root that it names. -/
def execJournalFlush (s : State) : Host.Outcome State Fault Refusal :=
  .next (whenRunning s (fun s => if !s.nandOpen || s.fss.jFlying || s.fss.rootWait.isSome || !s.flushDue then s else s.flushOut))

/-- The pages of the system, GC and cold bands that their dies program. -/
def State.flushPages (s : State) : List PageProg := s.fss.progs.filter (fun p => decide (p.role ≠ .host) && !p.queued)

/-- A mark that an entry brings to NAND. -/
def State.landEntry (s : State) : JEntry → State
  | .highwater i arch v => if arch then s.durMark i 0 v else s.durMark i v 0
  | .record i _ _ r _ => s.durMark i r.unitHigh r.arcHigh
  | _ => s

/-- Every entry of the flush is in NAND. -/
def State.flushLanded (s : State) : State :=
  let l := s.fss.jFlight.flatMap (fun u => u.entries)
  forEach l (fun e t => t.landEntry e)
    { s with fss := { s.fss with
        jFlying := false, jDone := s.fss.jDone + l.length, jLog := s.fss.jLog ++ s.fss.jFlight, jFlight := [] } }

/-- The blocks whose moves are all in the journal begin their erase (R237); a single block that still takes a page, or has valid units again,
waits, and those units move. DESIGN CHOICE, log entry 21. -/
def State.beginErases (s : State) : State :=
  let done (n : Nat) : Bool := decide (n ≤ s.fss.jDone)
  let ended := s.fss.bands.filter (fun b => match b.eraseAt with
    | some n => done n
    | none => false)
  let busy (d b : Nat) : Bool := !(s.liveIn [(d, b)]).isEmpty || (s.fss.fill ++ s.fss.progs).any (fun p => decide (puaDie p.pua = d ∧ puaBlock s.fss.ppb p.pua = b))
  let clear (e : Nat × Nat × Nat) : Bool := done e.2.2 && !busy e.1 e.2.1
  let solo := s.fss.solo.filter clear
  let s := { s with fss := { s.fss with
    bands := s.fss.bands.map (fun b => if ended.any (fun x => x.num = b.num) then { b with eraseAt := none } else b),
    solo := s.fss.solo.filter (fun e => !clear e) } }
  let s := forEach s.fss.solo (fun e t => if done e.2.2 then t.moveAll .gc [(e.1, e.2.1)] else t) s
  forEach (ended.foldl (fun a b => a ++ b.blocks) [] ++ solo.map (fun e => (e.1, e.2.1))) (fun e t =>
    if (t.block e.1 e.2).use = .retired then t.unband e.1 e.2
    else t.setBlock e.1 e.2 { t.block e.1 e.2 with use := .erasing }) s

/-- The commands whose entries are all in NAND complete (R150, R228). -/
def State.finishFlushed (s : State) : State :=
  forEach s.cmds (fun c t => if c.stage = .flushing ∧ c.waitSeq ≤ t.fss.jDone then t.finishManager c else t) s

/-- JOURNAL_FLUSH_COMPLETE (R227, R228): the last page of the flush reports success, and with it every page that the flush issued. -/
def execJournalFlushComplete (s : State) : Host.Outcome State Fault Refusal :=
  .next (whenRunning s (fun s =>
    if !s.fss.jFlying || s.fss.progs.any (fun p => decide (p.role ≠ .host) && p.queued) then s
    else (forEach s.flushPages (fun p t => t.pageDone p) s).flushLanded.finishFlushed.beginErases.pump))

/-! ### Root checkpoints (R229, R230) -/

/-- W of an instance: the lowest unit sequence of any group whose map update is not applied (Table 06-7). -/
def State.lowMark (s : State) (i : Nat) : Nat :=
  let l := (s.cmds.filter (fun c => decide (c.fn.toNat = i ∧ eOp c.entry = some .write ∧ c.stage = .media))).foldl
    (fun a c => a ++ c.placed.map (fun e => e.2.2)) []
  l.foldl min ((s.getInst i).unitSeq + 1)

/-- What a root checkpoint stores (Table 06-7); a segment whose UNPIN entry is in NAND is pinned no more. -/
def State.rootSnap (s : State) : RootSnap :=
  let unpinned (g : Segment) : Bool := (match g.unpinAt with
    | some n => decide (n ≤ s.fss.jDone)
    | none => false)
  let gone := s.fss.segs.filter unpinned
  let mark (b : Bank Instance) (g : Segment) : Bank Instance :=
    let r := Bank.get instDef b g.inst
    Bank.set instDef b g.inst { r with commits := markArchived r.commits g.num g.setId }
  { seq := s.fss.rootSeq + 1, map := s.fss.map, inst := gone.foldl mark s.inst,
    limits := s.liveSet.filter (fun e => decide (0x120000 ≤ e.1 ∧ e.1 < 0x130000)),
    blocks := s.fss.blocks, bands := s.fss.bands, leaves := s.fss.leaves, segs := s.fss.segs.filter (fun g => !unpinned g), archived := s.fss.archived,
    logMap := s.fss.logMap,
    watermark := s.instIds.foldl (fun b i => Bank.set natDef b i (s.lowMark i)) [], stripeSet := s.arc.named,
    failed := (List.range 16).filter (fun d => (nth Die.reset s.fss.dies d).failed), retired := s.fss.retired }

/-- Each checkpoint reserves the next 2^20 values of every unit and archive sequence (R191, R194). -/
def State.reserveSeqs (s : State) : State :=
  { s with inst := Bank.mapVals instDef s.inst (fun r =>
      { r with unitHigh := max r.unitHigh (r.unitSeq + 2 ^ 20), arcHigh := max r.arcHigh (r.arcSeq + 2 ^ 20) }) }

/-- A unit of kind 2 joins the system band; its PUA, or none without a page. -/
def State.putCkpt (s : State) : Option (Nat × State) :=
  let (q, s) := s.takeSeq 0
  let u : UnitRec := ⟨2, 0, s.fss.ckptSeq, q, s.tm.mono, (s.getInst 0).gen, 0, 1, q % 2 ^ 32, false, ((s.getInst 0).keySerial).getD 0,
    padTo 4096 (Config.ckptBytes s.fss.ckptSeq)⟩
  s.bumpCkpt.putUnit .system u

/-- `n` section units, then the header unit: its PUA (R229). -/
def State.putRoot : Nat → State → Option (Nat × State)
  | 0, s => s.putCkpt
  | n + 1, s => match s.putCkpt with
    | some (_, t) => State.putRoot n t
    | none => none

/-- The section units of a root: one for each 128 rows of each of the seven sections, one at least; the spec gives the sections no layout.
DESIGN CHOICE, log entry 69. -/
def RootSnap.sectionUnits (r : RootSnap) : Nat :=
  [r.leaves.length, r.inst.length, r.blocks.length, r.segs.length, r.watermark.length, r.bands.length, r.logMap.length].foldl
    (fun a n => a + max 1 ((n + 127) / 128)) 0

/-- A root is written in the system band: its section units, and last its header unit, whose page's success completes it (R229). Without
pages nothing is written. -/
def State.writeRoot (s : State) : State :=
  let t := s.reserveSeqs
  match State.putRoot t.rootSnap.sectionUnits t with
  | some (pua, u) =>
    let v := u.issuePage .system
    { v with fss := { v.fss with rootWait := some ⟨pua, u.rootSnap⟩, rootTime := v.tm.mono, rootUnits := v.fss.jUnits } }
  | none => s

/-- ROOT_CHECKPOINT (R229): at its interval, or after 8192 journal units. -/
def execRootCheckpoint (s : State) : Host.Outcome State Fault Refusal :=
  .next (whenRunning s (fun s =>
    if s.nandOpen && !s.fss.jFlying && s.fss.rootWait.isNone && (decide (s.fss.rootTime + Cf.FSS_CKPT_interval s * 1000 ≤ s.tm.mono) ||
        decide (s.fss.rootUnits + 8192 ≤ s.fss.jUnits)) then s.writeRoot
    else s))

/-! ### Garbage collection and wear levelling (R237 to R239) -/

/-- A band may be emptied: closed, not already waiting for its erase, none of its pages still being programmed. -/
def State.mayEmpty (s : State) (b : Band) : Bool :=
  !b.isOpen && b.eraseAt.isNone &&
    b.blocks.all (fun e => decide ((s.block e.1 e.2).use = .closed ∨ (s.block e.1 e.2).use = .retired)) &&
    !(s.fss.fill ++ s.fss.progs).any (fun p => b.blocks.contains (puaDie p.pua, puaBlock s.fss.ppb p.pua))

/-- The band with the least key, the lowest number among equals. -/
def leastBand (key : Band → Nat) : List Band → Option Band
  | [] => none
  | b :: r => match leastBand key r with
    | none => some b
    | some x => if key b < key x ∨ (key b = key x ∧ b.num ≤ x.num) then some b else some x

/-- A band's valid units move to a role's band; its blocks wait for the flush of those entries, once every unit has moved. -/
def State.emptyBand (s : State) (b : Band) (role : Band.Role) : State :=
  let s := s.moveAll role b.blocks
  if !(s.liveIn b.blocks).isEmpty then s
  else { s with fss := { s.fss with bands := s.fss.bands.map (fun x => if x.num = b.num then { x with eraseAt := some s.fss.jMade } else x) } }

/-- GARBAGE_COLLECTION (R237): from fewer than 8 free bands until 12, the closed band with the fewest valid units is emptied.
DESIGN CHOICE, log entry 21. -/
def execGarbageCollection (s : State) : Host.Outcome State Fault Refusal :=
  .next (whenRunning s (fun s =>
    if !s.nandOpen then s
    else
      let n := s.freeBands
      if n < 8 ∨ (s.fss.gcOn ∧ n < 12) then
        let s := { s with fss := { s.fss with gcOn := true } }
        match leastBand (fun b => (s.liveIn b.blocks).length) (s.fss.bands.filter s.mayEmpty) with
        | some b => s.emptyBand b .gc
        | none => s
      else { s with fss := { s.fss with gcOn := false } }))

/-- The good blocks of a die, its anchor blocks apart (R238, R239). -/
def State.wearBlocks (s : State) (d : Nat) : List Nat :=
  (List.range s.fss.blocksPerDie).filter (fun b => decide ((s.block d b).use ≠ .retired) &&
    !s.fss.anchors.any (fun c => decide (c.die = d ∧ (c.blocks.1 = b ∨ c.blocks.2 = b))))

/-- The spread of their erase counts. -/
def State.eraseSpread (s : State) (d : Nat) : Nat :=
  let l := (s.wearBlocks d).map (fun b => (s.block d b).erases)
  match l with
  | [] => 0
  | a :: r => r.foldl max a - r.foldl min a

/-- STATIC_WEAR_LEVELLING (R239): the closed band holding a die's least-erased block moves to the cold band.
DESIGN CHOICE, log entry 21. -/
def execStaticWearLevelling (die : Fin 16) (s : State) : Host.Outcome State Fault Refusal :=
  .next (whenRunning s (fun s =>
    let d := die.val
    if s.nandOpen && s.goodDies.contains d && decide (Cf.FSS_WL_spread s < s.eraseSpread d) then
      match leastBy (fun b => (s.block d b).erases) (s.wearBlocks d) with
      | some b =>
        (match s.fss.bands.find? (fun x => x.blocks.contains (d, b) && s.mayEmpty x) with
        | some x => s.emptyBand x .cold
        | none => s)
      | none => s
    else s))

/-! ### Dies (R209, R245) -/

/-- DIE_BUSY_TIMEOUT (R209, R245): a die that stays busy takes a SYNCHRONOUS RESET, and is declared failed the second time in a row. -/
def execDieBusyTimeout (die : Fin 16) (s : State) : Host.Outcome State Fault Refusal :=
  .next (whenRunning s (fun s =>
    let d := die.val
    if !(s.die d).present || (s.die d).failed then s
    else
      let s := s.modDie d (fun x => { x with busy := x.busy + 1 })
      if 2 ≤ (s.die d).busy then s.dieFail d else s.emit (.nand d .syncReset)))

/-- The PUAs that lie on failed dies and are valid. -/
def State.onFailed (s : State) : List Nat :=
  (s.fss.units.map (fun e => e.1)).filter (fun p => (s.die (puaDie p)).failed && s.isLive p)

/-- A unit of a failed die is rebuilt from parity into the GC band and checked; it stays where it is while no page takes it (R192, R245). -/
def State.rebuildUnit (s : State) (seen : List (Nat × NandRead)) (pua : Nat) : State :=
  match seenRead seen pua with
  | .lost => s.loseUnit pua
  | .tagFailed => s.recoverUnit .gc pua .tagFailed
  | _ =>
    if s.stripeBare pua && decide (seenRead seen pua ≠ .clean) then s.loseUnit pua
    else
      let t := s.moveLive .gc pua
      if t.isLive pua then t else { t with fss := { t.fss with rebuilt := inc16 t.fss.rebuilt } }

/-- DIE_REBUILD_DONE (R245): every valid unit of a failed die is in the GC band, or lost; FSS.STS.die_rebuild clears once none is left.
`seen` is what their rebuilds show. -/
def execDieRebuildDone (seen : List (Nat × NandRead)) (s : State) : Host.Outcome State Fault Refusal :=
  .next (whenRunning s (fun s =>
    if !s.fss.dieRebuild || !s.nandOpen then s
    else
      let s := forEach s.onFailed (fun p t => if t.running then t.rebuildUnit seen p else t) s
      { s with fss := { s.fss with dieRebuild := !s.onFailed.isEmpty } }))

/-- ZQ_CALIBRATION (R209): every NV-DDR3 channel takes ZQ CALIBRATION LONG. -/
def execZqCalibration (s : State) : Host.Outcome State Fault Refusal :=
  .next (whenRunning s (fun s =>
    forBelow 2 (fun c t => if (nth NandMode.reset t.fss.modes c).kind = .ddr3 then t.emit (.zqCal c) else t) s))

end Sys2Proof.Machine
end

