-- ==== Sys2Proof/Machine/Waveform.lean ====
section
/-!
DEFINITION. The write strategy (spec/09, R327 to R329; R576): the channel bits of a recorded slot, its marks, and the times at which the
lines WSP0 to WSP3 are high, in 1/32 channel bit from the start of the slot.
-/

namespace Sys2Proof.Machine

/-- The write strategy in force on drive `d`, by class (Table 09-9). -/
def State.shapes (s : State) (d : Nat) : List MarkShape :=
  (List.range 4).map (fun c =>
    { dtop2 := Cf.WST_DTOP_s2 s d c, dtop3 := Cf.WST_DTOP_s3 s d c, dtop4 := Cf.WST_DTOP_s4 s d c, ttop := Cf.WST_SHAPE_ttop s d c,
      tlast := Cf.WST_SHAPE_tlast s d c, dtend := Cf.WST_SHAPE_dtend s d c, tcool := Cf.WST_SHAPE_tcool s d c })

/-- The recorded channel bits of a slot from bit 1588 on: the VFO and the 16 frames (Table 08-3). -/
def slotBits (content : List Byte) : List Bool :=
  let arr := codedArray content
  (List.replicate 10416 [true, false, false]).flatten ++ (List.range 16).foldl (fun a f => a ++ frameBits arr f) []

/-- The channel bits, counted from `n`, at which a transition lies. DEDUCED, log entry 40. -/
def transitions (n : Nat) : List Bool → List Nat
  | [] => []
  | b :: r => if b then n :: transitions (n + 1) r else transitions (n + 1) r

/-- The marks of a burst that ends at channel bit `fin`: first bit, length, and the space before it. Transitions begin marks and spaces in
turn, a mark first (DEDUCED, log entry 40). -/
def marksOf (fin : Nat) (prev : Nat) : List Nat → List (Nat × Nat × Nat)
  | [] => []
  | [a] => [(a, fin - a, a - prev)]
  | a :: b :: r => (a, b - a, a - prev) :: marksOf fin b r

/-- The class of a mark, and the class of the space before it (R328). -/
def markClass (n : Nat) : Nat := if n ≤ 2 then 0 else if n = 3 then 1 else if n = 4 then 2 else 3
def spaceClass (n : Nat) : Nat := if n ≤ 2 then 0 else if n = 3 then 1 else 2

def MarkShape.dtop (m : MarkShape) (sp : Nat) : Int :=
  match spaceClass sp with
  | 0 => m.dtop2
  | 1 => m.dtop3
  | _ => m.dtop4

def shapeDef : MarkShape := ⟨0, 0, 0, 0, 0, 0, 0⟩

/-- Two intervals of one line, which merge when the second starts before the first ends (R328). -/
def mergePulses (a b : Int × Int) : List (Int × Int) := if b.1 < a.2 then [(a.1, max a.2 b.2)] else [a, b]

/-- WSP1 and WSP2 of a mark of `n` bits that begins at channel bit `pos`: the times at which each is high (R328). -/
def MarkShape.writePulse (m : MarkShape) (pos n sp : Nat) : Int × Int := (32 * (pos : Int) + m.dtop sp, 32 * ((pos : Int) + n) - m.dtend)
def MarkShape.overPulses (m : MarkShape) (pos n sp : Nat) : List (Int × Int) :=
  let first := (32 * (pos : Int) + m.dtop sp, 32 * (pos : Int) + m.dtop sp + m.ttop)
  let fin := 32 * ((pos : Int) + n) - m.dtend
  if 2 ≤ markClass n ∧ 0 < m.tlast then mergePulses first (fin - m.tlast, fin) else [first]

/-- The cooling gap after a mark, cut where the next mark's dtop begins: WSP0 is low in it (R328). -/
def MarkShape.coolGap (m : MarkShape) (pos n : Nat) (next : Option Int) : Int × Int :=
  let from_ := 32 * ((pos : Int) + n) - m.dtend
  let til := from_ + m.tcool
  (from_, match next with
    | some t => if t < til then t else til
    | none => til)

/-- The shape of a mark. -/
def shapeOf (shapes : List MarkShape) (n : Nat) : MarkShape := nth shapeDef shapes (markClass n)

/-- WSP1, WSP2 and the cooling gaps of the marks of a burst. -/
def markWave (shapes : List MarkShape) : List (Nat × Nat × Nat) → List (Int × Int) × List (Int × Int) × List (Int × Int)
  | [] => ([], [], [])
  | (a, n, sp) :: r =>
    let m := shapeOf shapes n
    let next := r.head?.map (fun e => 32 * (e.1 : Int) + (shapeOf shapes e.2.1).dtop e.2.2)
    let (w1, w2, g) := markWave shapes r
    (m.writePulse a n sp :: w1, m.overPulses a n sp ++ w2, m.coolGap a n next :: g)

/-- The lines of a slot: when WSP1 and WSP2 are high, when WSP0 is low within the burst, and the burst itself, in which WSP3 and, but for
the gaps, WSP0 are high; it ends 2 channel bits after the last mark or cooling gap (R327, R329). -/
structure SlotWave where
  burst : Int × Int
  wsp1 : List (Int × Int)
  wsp2 : List (Int × Int)
  gaps : List (Int × Int)
  deriving DecidableEq, Repr

/-- The waveform of a slot whose content is recorded with a write strategy (R328, R329). -/
def slotWave (content : List Byte) (shapes : List MarkShape) : SlotWave :=
  let fin := frameStart 16
  let marks := marksOf fin 0 (transitions 1588 (slotBits content))
  let w := markWave shapes marks
  let last := (w.2.2.map (fun g => g.2) ++ marks.map (fun m => 32 * ((m.1 : Int) + m.2.1))).foldl max 0
  { burst := (32 * 1588, last + 64), wsp1 := w.1, wsp2 := w.2.1, gaps := w.2.2 }

/-! ### The lines as the balls carry them (R576)

One unit is 10^-9 of 1/32 channel bit, so that 0.5 ns is 16 units for each bit/s of the channel rate. -/

/-- High times no shorter than 0.5 ns. -/
def longEnough (rate : Nat) (l : List (Int × Int)) : List (Int × Int) :=
  l.map (fun p => (p.1 * 1000000000, max (p.2 * 1000000000) (p.1 * 1000000000 + 16 * (rate : Int))))

/-- Two pulses of a line with a low time shorter than 0.5 ns between them are one. -/
def joinClose (rate : Nat) : List (Int × Int) → List (Int × Int)
  | [] => []
  | a :: r =>
    match joinClose rate r with
    | b :: q => if b.1 - a.2 < 16 * (rate : Int) then (a.1, max a.2 b.2) :: q else a :: b :: q
    | [] => [a]

/-- A line at its ball. -/
def lineAtBall (rate : Nat) (l : List (Int × Int)) : List (Int × Int) := joinClose rate (longEnough rate l)

/-- The times at which WSP0 is high: the burst but for the gaps. -/
def outsideGaps (from_ til : Int) : List (Int × Int) → List (Int × Int)
  | [] => [(from_, til)]
  | g :: r => if from_ < g.1 ∧ g.1 < g.2 then (from_, g.1) :: outsideGaps g.2 til r else outsideGaps (max from_ g.2) til r

/-- WSP0 to WSP3 of a slot at a channel rate in bit/s. -/
def SlotWave.atBalls (w : SlotWave) (rate : Nat) : List (List (Int × Int)) :=
  [outsideGaps w.burst.1 w.burst.2 w.gaps, w.wsp1, w.wsp2, [w.burst]].map (lineAtBall rate)

end Sys2Proof.Machine
end

