-- ==== Sys2Proof/Machine/Archive.lean ====
section
/-!
DEFINITION. Archiving (spec/08; spec/01, R26 to R40; spec/05, R193 to R195): admission and formatting of segments, stripes, recording
and verification, set structures, ARCHIVE_DONE, drives treated as absent.
-/

namespace Sys2Proof.Machine

/-! ### Admission (R290) -/

/-- The segment that may be admitted: the first queued one, when its instance has no segment in the rotation, 32 are not active, and it
fits. DEDUCED, log entry 38. -/
def State.admissible (s : State) : Option Segment :=
  match s.queued with
  | g :: _ =>
    if s.setWritable && !s.arc.closing && !s.arc.rebuilding && decide (s.arc.active.length < 32) &&
        !s.arc.active.any (fun n => decide ((s.findSeg n).map (fun x => x.inst) = some g.inst)) && decide (g.left ≤ s.slotsFree) then some g
    else none
  | [] => none

/-- SEGMENT_ADMIT (R290): the queue head is admitted, or waits for a set (R35). -/
def execSegmentAdmit (s : State) : Host.Outcome State Fault Refusal :=
  .next (whenServing s (fun s =>
    match s.admissible with
    | some g =>
      let s := s.modSeg g.num (fun x => { x with active := true })
      { s with arc := { s.arc with active := s.arc.active ++ [g.num], idle := s.tm.mono } }
    | none => s.noteWaiting))

/-! ### Formatting (R282 to R284, R193 to R195, R291) -/

/-- The next archive sequence number of an instance, reserved like unit sequence numbers (R194). -/
def State.takeArcSeq (s : State) (i : Nat) : Nat × State :=
  let n := (s.getInst i).arcSeq + 1
  let s := s.modInst i (fun r => { r with arcSeq := n })
  if (s.getInst i).arcHigh ≤ n + 2 ^ 19 then
    (n, (s.modInst i (fun r => { r with arcHigh := n + 2 ^ 20 })).jAdd (.highwater i true (n + 2 ^ 20)))
  else (n, s)

/-- The chain digest that an instance's next block carries (R195). -/
def State.chainHead (s : State) (i : Nat) : Nat :=
  let r := s.getInst i
  r.chain.getD (genesisDigest (r.keySerial.getD 0) i)

/-- The PUA of the content pinned for a logical block of a segment. -/
def State.pinnedPua (s : State) (g : Segment) (lbn : Nat) : Nat :=
  match g.displaced.find? (fun e => e.1 = lbn) with
  | some e => e.2
  | none => s.mapGet g.inst lbn

/-- The pinned units of a block are read in order; the results of the reads come first in `rs`. None when a unit is lost or the block is
halted (Table 01-3). -/
def readPinned (g : Segment) : Nat → Nat → List NandRead → State → Option (List Byte × List NandRead) × State
  | 0, _, rs, s => (some ([], rs), s)
  | n + 1, lbn, rs, s =>
    let pua := s.pinnedPua g lbn
    if pua = puaEmpty then
      (match readPinned g n (lbn + 1) rs s with
       | (some (l, rs), s) => (some (List.replicate 4096 0 ++ l, rs), s)
       | (none, s) => (none, s))
    else if !isReal pua then (none, s)
    else
      let r := s.readResult pua (rs.headD .clean)
      let data := padTo 4096 (s.unitAt pua).data
      let s := s.unitRead pua r
      if r = .lost || !s.running then (none, s)
      else
        match readPinned g n (lbn + 1) (rs.drop 1) s with
        | (some (l, rs), s) => (some (data ++ l, rs), s)
        | (none, s) => (none, s)

/-- Bytes 0 to 47 of a header (Table 08-6). -/
def headerBytes (g : Segment) (idx units seq wall mono digest : Nat) : List Byte :=
  [1, BitVec.ofNat 8 g.inst, BitVec.ofNat 8 (b2n (idx = 0) + 2 * b2n (idx + 1 = g.blocks)), BitVec.ofNat 8 units] ++ leBytes 4 g.num ++
    leBytes 8 seq ++ leBytes 8 wall ++ leBytes 6 mono ++ leBytes 2 idx ++ leBytes 16 digest

/-- The body of a data block: the header with its tag, and the sealed user data (R193, R282). -/
def sealBlock (key seq : Nat) (head data : List Byte) : List Byte :=
  let n := leNat (nonce 2 seq)
  let d := padTo 32768 data
  head ++ leBytes 16 (Config.gcmTag key n head d) ++ gcmText key n d

/-- The chain digest over a 64-byte header. -/
def headerDigest (body : List Byte) : Nat := Config.sha256 (body.take 64) % 2 ^ 128

/-- Block `idx` of a segment is formatted; none when a pinned unit is lost. -/
def State.formatBlock (s : State) (g : Segment) (idx : Nat) (rs : List NandRead) : Option (ArcBlock × List NandRead) × State :=
  let units := min 8 (g.cnt - 8 * idx)
  let s := s.touchRun g.inst (g.lbn + 8 * idx) units
  match readPinned g units (g.lbn + 8 * idx) rs s with
  | (none, s) => (none, s)
  | (some (data, rs), s) =>
    let (seq, s) := s.takeArcSeq g.inst
    let digest := s.chainHead g.inst
    let body := sealBlock ((s.getInst g.inst).keySerial.getD 0) seq
      (headerBytes g idx units seq s.tm.wall s.tm.mono digest) data
    let s := s.modInst g.inst (fun r => { r with chain := some (headerDigest body) })
    let s := s.modSeg g.num (fun x => { x with formatted := max x.formatted (idx + 1), chain := if idx + 1 = g.blocks then digest else x.chain })
    (some (⟨1, g.inst, g.num, idx, seq, body⟩, rs), s)

/-- A block takes the next data slot; a stripe whose three data slots are filled is ready (R289). -/
def State.placeBlock (s : State) (b : ArcBlock) : State :=
  let part := s.arc.part ++ [b]
  let s := { s with arc := { s.arc with idle := s.tm.mono } }
  if part.length < 3 then { s with arc := { s.arc with part := part } }
  else
    let n := s.arc.form
    let t : Stripe := { num := n, blocks := part, home := stripePba n, pba := stripePba n, on := [], ok := [], bad := false, open_ := [] }
    { s with arc := { s.arc with part := [], form := n + 1, ready := s.arc.ready ++ [t] } }

/-- The next blocks of a segment to format: the first one not verified, and how many follow each other. -/
def Segment.todo (g : Segment) : Nat × Nat :=
  let l := (List.range (g.blocks - g.formatted)).map (fun k => g.formatted + k)
  let l := l.dropWhile (fun k => g.verified.contains k)
  ((l.head?).getD g.blocks, (l.takeWhile (fun k => !g.verified.contains k)).length)

/-- Up to `n` blocks from `idx` on are formatted and placed; the count placed. DESIGN CHOICE, log entry 39. -/
def State.formatRun (s : State) (num : Nat) (rs : List NandRead) (idx : Nat) : Nat → Nat × State
  | 0 => (0, s)
  | n + 1 =>
    match s.findSeg num with
    | none => (0, s)
    | some g =>
      match s.formatBlock g idx rs with
      | (none, s) => (0, s)
      | (some (b, rs), s) =>
        let r := State.formatRun (s.placeBlock b) num rs (idx + 1) n
        (r.1 + 1, r.2)

/-- A run joins the pending SR entries (R298). -/
def State.pendRun (s : State) (r : SrRun) : State :=
  { s with arc := { s.arc with
    pend := s.arc.pend ++ [r],
    pendSince := if s.arc.pend.isEmpty && s.arc.pendRl.isEmpty then s.tm.mono else s.arc.pendSince } }

/-- ARCHIVE_BLOCK_FORMAT (R291): the active segment whose turn it is places up to 96 blocks; a segment whose staging read fails for good
leaves the rotation and stays pinned (Table 01-3). Archive sequence numbers past the mark that NAND holds wait for it (R194). -/
def execArchiveBlockFormat (reads : List NandRead) (s : State) : Host.Outcome State Fault Refusal :=
  .next (whenServing s (fun s =>
    match s.arc.active with
    | [] => s
    | num :: rest =>
      if !s.setWritable || s.arc.rebuilding then s
      else
        match s.findSeg num with
        | none => { s with arc := { s.arc with active := rest } }
        | some g =>
          let slot := s.slotsUsed
          let (first, run) := g.todo
          let want := min 96 run
          if (s.getInst g.inst).arcDur < (s.getInst g.inst).arcSeq + want then s
          else
          let (n, s) := s.formatRun num reads first want
          let s := if n = 0 then s else s.pendRun ⟨g.inst, first = 0, first + n = g.blocks, n, num, first, slot⟩
          if n < want then
            (({ s with arc := { s.arc with active := rest } }).modSeg num (fun x => { x with broken := true, active := false })).note
              .segmentHeld num
          else if (List.range (g.blocks - (first + n))).all (fun k => g.verified.contains (first + n + k)) then { s with arc := { s.arc with active := rest } }
          else { s with arc := { s.arc with active := rest ++ [num] } }))

/-- A filler block (R292). -/
def fillerBlock : ArcBlock := ⟨3, 0, 0, 0, 0, List.replicate 32832 0⟩

/-- The stripe in hand is completed with filler. -/
def State.fillStripe (s : State) : State :=
  match s.arc.part.length with
  | 1 => (s.placeBlock fillerBlock).placeBlock fillerBlock
  | 2 => s.placeBlock fillerBlock
  | _ => s

/-- FILLER_TIMEOUT (R292). -/
def execFillerTimeout (s : State) : Host.Outcome State Fault Refusal :=
  .next (whenServing s (fun s =>
    if s.arc.active.isEmpty && !s.arc.part.isEmpty && decide (s.arc.idle + Cf.ARC_CTL_fill_ms s ≤ s.tm.mono) then s.fillStripe else s))

/-! ### Recording (R279, R289, R293, R294) -/

/-- What position `p` records of a stripe: kind, data index and body. -/
def Stripe.at (t : Stripe) (p : Nat) : Nat × Nat × List Byte :=
  match blockAt t.num p with
  | some j =>
    let b := nth fillerBlock t.blocks j
    (b.kind, if b.kind = 1 then j else 0, b.body)
  | none => (2, 0, parityBody (t.blocks.map (fun b => b.body)))

/-- The address record of a position of a stripe. -/
def State.stripeAddr (s : State) (t : Stripe) (p : Nat) : AddrRec :=
  let k := t.at p
  { setId := s.arc.setId, pos := p, kind := k.1, pba := t.pba, stripe := t.num, home := t.home, session := s.arc.session, j := k.2.1 }

/-- An OPC is due or runs somewhere: no stripe starts (R334). -/
def State.opcHolds (s : State) : Bool := s.drives.any (fun r => r.wst.opcBusy || !r.wst.opcDue.isEmpty)

/-- A calibration item that uses a drive runs, or has waited its time (R437). -/
def State.calHolds (s : State) : Bool :=
  s.cal.deferred || (match s.cal.running with
    | some (k, _, _) => decide (4 ≤ k ∧ k ≤ 7)
    | none => false)

/-- A drive can take the next slot of a layer: its gate is open, it has a kept OPC result, its laser demand is not cut, it does not seek,
and the rate is in range (R308, R330, R336). -/
def State.canBurst (s : State) (d l : Nat) : Bool :=
  let r := s.drive d
  r.wst.gate && !r.wst.deferred && (nth OpcRes.reset r.wst.opc l).kept && decide (r.seq = .none) && !r.confirm && decide (r.layer = l) &&
    s.rateOk d && r.rdc.clkLock && s.covers d l

/-- The ready stripe with the lowest number. -/
def lowestStripe : List Stripe → Option Stripe
  | [] => none
  | t :: l => match lowestStripe l with
    | some u => if u.num < t.num then some u else some t
    | none => some t

/-- A drive begins a slot; after 24 h of recording an OPC is due (R334). -/
def State.beginSlot (s : State) (d n pba : Nat) : State :=
  let ms := 557380 / max 1 (s.drive d).rdc.kbps
  ((s.modWst d (fun w => { w with
      burst := some n, recMs := w.recMs + ms, opcDue := if 86400000 ≤ w.recMs + ms then List.range s.arc.layers else w.opcDue })).modSpin d (fun p => { p with lastWork := s.tm.mono })).modDrive d
    (fun r => { r with track := pbaWobble pba })

/-- STRIPE_RECORD_START (R293): the next stripe begins on every drive that takes part. -/
def execStripeRecordStart (s : State) : Host.Outcome State Fault Refusal :=
  .next (whenServing s (fun s =>
    match lowestStripe s.arc.ready with
    | none => s
    | some t =>
      let ds := s.writeDrives
      if !s.setWritable || s.arc.rebuilding || s.sns.hot || s.opcHolds || s.calHolds || decide (8 ≤ s.arc.going.length) ||
          !ds.all (fun d => s.canBurst d (pbaLayer t.pba)) then s
      else
        let ps := ds.filterMap (fun d => s.posOf d)
        let s := { s with arc := { s.arc with
          ready := s.arc.ready.filter (fun x => x.num ≠ t.num), next := max s.arc.next (t.num + 1),
          going := s.arc.going ++ [{ t with on := ps, ok := [], bad := false, open_ := ps }] } }
        forEach ds (fun d u =>
          match u.posOf d with
          | some p => (u.beginSlot d t.num t.pba).emit (.slot d t.pba (blockContent (t.at p).2.2 (u.stripeAddr t p)) (u.shapes d))
          | none => u) s))

/-! ### Verification (R337, R293) -/

/-- What a completed stripe adds to the entries of the FR (Table 08-11). -/
def frAdd (l : List FrEntry) (b : ArcBlock) : List FrEntry :=
  if b.kind ≠ 1 then l
  else
    let digest := leNat (slice b.body 32 16)
    match l.find? (fun e => e.inst = b.inst) with
    | some _ => l.map (fun e => if e.inst = b.inst then
        (if e.seq < b.seq then { e with seq := b.seq, digest := digest, blocks := e.blocks + 1 } else { e with blocks := e.blocks + 1 }) else e)
    | none => l ++ [⟨b.inst, b.seq, digest, 1⟩]

/-- A verified slot counts for its zone; 256 of them make ZPWR due (R436). -/
def State.zoneCount (s : State) (d pba : Nat) : State :=
  let k := d * 128 + pbaLayer pba * 64 + slotZone (pbaLayer pba) (pbaSlot pba)
  let n := Bank.get natDef s.cal.zoneCnt k + 1
  let s := { s with cal := { s.cal with zoneCnt := Bank.set natDef s.cal.zoneCnt k n } }
  if 256 ≤ n then s.calFallsDue 9 d else s

/-- A replacement of a home PBA enters the list, newest first (R296). -/
def addRl (l : List (Nat × Nat)) (home pba : Nat) : List (Nat × Nat) := (home, pba) :: l.filter (fun e => e.1 ≠ home)

/-- The chain after a verified block: the newest one counts (R37). -/
def State.verifiedTo (s : State) (i seq digest : Nat) : State :=
  s.modInst i (fun r => if r.seqOk ≤ seq then { r with chainOk := some digest, seqOk := seq + 1 } else r)

/-- A stripe is complete (R293): its segments count the blocks; its replacement and its entries are indexed. -/
def State.stripeDone (s : State) (n : Nat) : State :=
  match s.arc.going.find? (fun t => t.num = n) with
  | none => s
  | some t =>
    let moved := decide (t.pba ≠ t.home)
    let s := { s with arc := { s.arc with
      going := s.arc.going.filter (fun x => x.num ≠ n), sinceSr := s.arc.sinceSr + 1, fr := t.blocks.foldl frAdd s.arc.fr,
      rl := if moved then addRl s.arc.rl t.home t.pba else s.arc.rl,
      pendRl := if moved then addRl s.arc.pendRl t.home t.pba else s.arc.pendRl,
      pendSince := if moved && s.arc.pend.isEmpty && s.arc.pendRl.isEmpty then s.tm.mono else s.arc.pendSince,
      degraded := if t.on.length < 4 then (n :: s.arc.degraded).eraseDups else s.arc.degraded } }
    let s := forEach (t.blocks.filter (fun b => b.kind = 1)) (fun b u =>
      (u.modSeg b.seg (fun g => { g with
        verified := if g.verified.contains b.idx then g.verified else b.idx :: g.verified, setId := u.arc.setId })).verifiedTo
        b.inst b.seq (headerDigest b.body)) s
    forEach s.setDrives (fun d u => match u.posOf d with
      | some p => if t.on.contains p then u.zoneCount d t.pba else u
      | none => u) s

/-- A position of a stripe has verified. -/
def State.stripeGood (s : State) (n p : Nat) : State :=
  let s := { s with arc := { s.arc with going := s.arc.going.map (fun (t : Stripe) =>
    if t.num = n then { t with ok := p :: t.ok, open_ := t.open_.filter (fun x => x ≠ p) } else t) } }
  match s.arc.going.find? (fun t => decide (t.num = n) && t.open_.isEmpty) with
  | some t => if t.bad then s.replaceStripe n else s.stripeDone n
  | none => s

/-- The OPC trigger of failed verifications: 4 within the last 256 recorded blocks (R334). -/
def WriteStrategy.judged (w : WriteStrategy) (bad : Bool) (l : Nat) : WriteStrategy :=
  let last := (bad :: w.last).take 256
  let due := decide (4 ≤ (last.filter (fun b => b)).length)
  { w with last := last, opcDue := if due && !w.opcDue.contains l then w.opcDue ++ [l] else w.opcDue }

/-- SLOT_VERIFY_RESULT (R337, R338): the read-after-write decode of a recorded slot is judged; a failure replaces the stripe whole. -/
def execSlotVerifyResult (d : Fin 4) (num : Nat) (s : State) : Host.Outcome State Fault Refusal :=
  .next (whenServing s (fun s =>
    let d := d.val
    match s.arc.going.find? (fun t => t.num = num), s.posOf d, (s.drive d).rdc.decoded with
    | some t, some p, some r =>
      if !t.open_.contains p || decide (r.pba ≠ t.pba) then s
      else
        let good := s.verifies d r && decide (slice r.content 32832 64 = (s.stripeAddr t p).bytes)
        let s := s.modDrive d (fun x => { x with
          rdc := { x.rdc with decoded := none, vfyFail := if good then x.rdc.vfyFail else inc16 x.rdc.vfyFail },
          wst := { (x.wst.judged (!good) (pbaLayer t.pba)) with burst := if x.wst.burst = some num then none else x.wst.burst } })
        (if good then s.stripeGood num p else s.stripeBad num p).settle
    | _, _, _ => s))

/-! ### Set structures (R297, R298) -/

/-- The drives that carry the set, with their positions. -/
def State.setPlaces (s : State) : List (Nat × Nat) := s.setDrives.filterMap (fun d => (s.posOf d).map (fun p => (d, p)))

/-- Slots used of the area of a kind, and one more. -/
def ArcState.usedOf (a : ArcState) (kind : Nat) : Nat :=
  if kind = 4 then a.sidUsed else if kind = 5 then a.rlUsed else if kind = 6 then a.srUsed else a.frUsed
def ArcState.useSlot (a : ArcState) (kind : Nat) : ArcState :=
  if kind = 4 then { a with sidUsed := a.sidUsed + 1 }
  else if kind = 5 then { a with rlUsed := a.rlUsed + 1 }
  else if kind = 6 then { a with srUsed := a.srUsed + 1 } else { a with frUsed := a.frUsed + 1 }

/-- One structure is recorded at slot `k` of its area, on every disc and layer; `body` gives each position's body. -/
def State.putStruct (s : State) (kind k : Nat) (body : Nat → List Byte) : State :=
  forEach s.setPlaces (fun e t => forBelow s.arc.layers (fun l u =>
    let pba := l * 2 ^ 20 + setArea l + areaStart kind + k
    u.emit (.slot e.1 pba (blockContent (body e.2)
      { setId := u.arc.setId, pos := e.2, kind := kind, pba := pba, stripe := 0xFFFFFFFF, home := pba, session := u.arc.session, j := 0 }) (u.shapes e.1))) t) s

/-- A counter that saturates at 65,535, raised by `n`. -/
def add16 (x n : Nat) : Nat := satU 16 (x + n)

/-- The next slot of an area is used on every disc and layer: each block counts (Table 08-16). -/
def State.useStruct (s : State) (kind : Nat) : State :=
  { s with arc := { s.arc.useSlot kind with structs := add16 s.arc.structs (s.setPlaces.length * s.arc.layers) } }

/-- The structures on the discs with one more; an RL replaces the one before it. -/
def ArcState.withCopy (a : ArcState) (kind k : Nat) (body : List Byte) : ArcState :=
  { a with copies := (if kind = 5 then a.copies.filter (fun c => c.1 ≠ 5) else a.copies) ++ [(kind, k, body)] }

/-- A structure is written; `fails` attempts fail verification, each followed by the next slot. None when its area has no slot left. -/
def State.writeStruct (s : State) (kind : Nat) (body : Nat → List Byte) : Nat → Option State
  | 0 =>
    if areaSize kind ≤ s.arc.usedOf kind then none
    else
      let k := s.arc.usedOf kind
      let t := (s.putStruct kind k body).useStruct kind
      some (if kind = 4 then t else { t with arc := t.arc.withCopy kind k (body 0) })
  | n + 1 =>
    if areaSize kind ≤ s.arc.usedOf kind then none
    else State.writeStruct ((s.putStruct kind (s.arc.usedOf kind) body).useStruct kind) kind body n

/-- An ASCII name. -/
def ascii (t : String) : List Byte := t.toList.map (fun c => BitVec.ofNat 8 c.toNat)

/-- The bodies of Tables 08-8 to 08-11. -/
def State.sidBody (s : State) (rebuilds : Nat) (p : Nat) : List Byte :=
  ascii "ABRGSID1" ++ leBytes 8 s.arc.setId ++ [BitVec.ofNat 8 p, BitVec.ofNat 8 s.arc.layers, BitVec.ofNat 8 s.sea.slot, BitVec.ofNat 8 rebuilds] ++
    leBytes 4 s.arc.total ++ leBytes 8 s.tm.wall ++ leBytes 16 Config.deviceDigest
def State.rlBody (s : State) : List Byte :=
  let l := s.arc.rl.take 4092
  padTo 64 (ascii "ABRGRL01" ++ leBytes 8 s.arc.setId ++ leBytes 4 s.arc.rlSeq ++ leBytes 4 l.length ++ leBytes 8 s.tm.wall) ++
    l.foldl (fun a e => a ++ leBytes 4 e.1 ++ leBytes 4 e.2) []
def runBytes (r : SrRun) : List Byte :=
  [BitVec.ofNat 8 r.inst, BitVec.ofNat 8 (b2n r.first + 2 * b2n r.last)] ++ leBytes 2 r.len ++ leBytes 4 r.seg ++ leBytes 4 r.idx ++ leBytes 4 r.slot
def State.srBody (s : State) (l : List SrRun) (after : Nat) : List Byte :=
  padTo 64 (ascii "ABRGSR01" ++ leBytes 8 s.arc.setId ++ leBytes 4 s.arc.srSeq ++ leBytes 2 s.arc.session ++ leBytes 2 l.length ++
    leBytes 4 s.arc.covered ++ leBytes 4 after ++ leBytes 8 s.tm.wall) ++ l.foldl (fun a r => a ++ runBytes r) []
def FrEntry.bytes (e : FrEntry) : List Byte :=
  padTo 8 [BitVec.ofNat 8 e.inst] ++ leBytes 8 e.seq ++ leBytes 16 e.digest ++ leBytes 8 e.blocks
def State.frBody (s : State) : List Byte :=
  padTo 64 (ascii "ABRGFR01" ++ leBytes 8 s.arc.setId ++ leBytes 4 s.arc.form ++ leBytes 4 (s.arc.srSeq - 1) ++
    leBytes 4 (if s.arc.rlUsed = 0 then 0xFFFFFFFF else s.arc.rlSeq - 1) ++ leBytes 8 s.tm.wall ++ leBytes 2 s.arc.fr.length) ++
    s.arc.fr.foldl (fun a e => a ++ e.bytes) []


/-- The stripe after the last one that the runs done cover: the one where the first run not written begins. -/
def State.coverEnd (s : State) : Nat :=
  ((s.arc.pend.filter (fun r => !decide (r.slot + r.len ≤ 3 * s.firstOpen))).map (fun r => r.slot / 3)).foldl min s.firstOpen

/-- A set whose SR or RL area is full is full (R298). -/
def State.areasFill (s : State) : State :=
  if areaSize 5 ≤ s.arc.rlUsed ∨ areaSize 6 ≤ s.arc.srUsed then s.setIsFull else s

/-- One SR with up to 2046 of the runs done. -/
def State.writeSr (s : State) (fails : Nat) : State :=
  let l := s.runsDone.take 2046
  let after := if s.runsDone.length ≤ 2046 then s.coverEnd
    else match s.runsDone.drop 2046 with
      | r :: _ => r.slot / 3
      | [] => s.coverEnd
  let body := s.srBody l after
  match s.writeStruct 6 (fun _ => body) fails with
  | none => s.setIsFull
  | some s =>
    ({ s with arc := { s.arc with
      index := s.arc.index ++ l, pend := s.arc.pend.filter (fun r => !l.contains r), srSeq := s.arc.srSeq + 1, covered := after,
      sinceSr := 0, pendSince := s.tm.mono } }).areasFill

/-- The pending entries are written: RL first, then as many SRs as the runs done need (R298); `fails` attempts of the first structure fail
verification. -/
def State.writePending (s : State) (fails : Nat) : State :=
  let none_ := s.arc.pendRl.isEmpty
  let s :=
    if none_ then s
    else
      let body := s.rlBody
      match s.writeStruct 5 (fun _ => body) fails with
      | none => s.setIsFull
      | some s => ({ s with arc := { s.arc with pendRl := [], rlSeq := s.arc.rlSeq + 1 } }).areasFill
  forBelow ((s.runsDone.length + 2045) / 2046) (fun k t => t.writeSr (if none_ && decide (k = 0) then fails else 0)) s

/-- A trigger of R298 has come; the 24 h one is not used while 16 or fewer SR slots remain. -/
def State.pendingDue (s : State) : Bool :=
  let some_ := !s.arc.pend.isEmpty || !s.arc.pendRl.isEmpty
  decide (2046 ≤ s.runsDone.length) || decide (4092 ≤ s.arc.pendRl.length) || decide (16384 ≤ s.arc.sinceSr) ||
    (some_ && decide (s.arc.pendSince + 86400000 ≤ s.tm.mono) && decide (s.arc.srUsed + 16 < areaSize 6))

/-- PENDING_ENTRIES_WRITE (R298). -/
def execPendingEntriesWrite (fails : Nat) (s : State) : Host.Outcome State Fault Refusal :=
  .next (whenServing s (fun s => if s.setWritable && s.pendingDue then (s.writePending fails).settle else s))

/-! ### ARCHIVE_DONE (R29, R97, R228) -/

/-- The stripes of a segment. -/
def State.segStripes (s : State) (num : Nat) : List Nat :=
  (((s.arc.index ++ s.arc.pend).filter (fun r => r.seg = num)).foldl (fun a r =>
    a ++ (List.range ((r.slot + r.len - 1) / 3 - r.slot / 3 + 1)).map (fun k => r.slot / 3 + k)) []).eraseDups

/-- Every stripe of the segment is recorded and verified on all four discs. -/
def State.segVerified (s : State) (g : Segment) : Bool :=
  !g.broken && (List.range g.blocks).all (fun k => g.verified.contains k) && !(s.segStripes g.num).any (fun n => s.arc.degraded.contains n)

/-- The function whose mailbox takes the message: the owner's, or the PF's for a removed instance. -/
def State.doneTo (s : State) (i : Nat) : Nat :=
  match (s.getInst i).state with
  | .active => i
  | .resetting => i
  | _ => 0

/-- There is room for the messages of every segment already unpinned, and for one more. -/
def State.doneRoom (s : State) (i : Nat) : Bool :=
  let f := s.doneTo i
  let waits := (s.fss.segs.filter (fun g => g.unpinAt.isSome && decide (s.doneTo g.inst = f))).length
  s.archiveRoom f && decide (((s.getFn f).overflow.filter isArchive).length + waits < archiveCap f)

/-- The payload of ARCHIVE_DONE (Table 03-6). -/
def State.doneBody (s : State) (g : Segment) : List Byte :=
  leBytes 4 g.num ++ leBytes 4 g.rid ++ leBytes 4 g.blocks ++ leBytes 4 (b2n g.rebuilt + 2 * b2n g.replaced) ++ leBytes 8 g.setId ++
    leBytes 8 s.tm.wall ++ leBytes 16 g.chain

/-- A removed instance whose last segment is archived becomes IDLE, and its key is destroyed (R38, R92). -/
def State.drainEnds (s : State) (i : Nat) : State :=
  if (s.getInst i).state = .draining ∧ s.segCount i = 0 then ((s.destroyKey i).setIState i .idle).journalRecord i else s

/-- The message of a segment whose UNPIN entry is in NAND. -/
def State.postDone (s : State) (g : Segment) : State :=
  let body := s.doneBody g
  let f := s.doneTo g.inst
  let s := if f = g.inst then s.postOwn g.inst 1 body else s.postPeer g.inst 1 body
  let s := s.count g.inst (fun m => { m with bytesArchived := m.bytesArchived + g.cnt * 4096 })
  let s := s.modInst g.inst (fun r => { r with commits := markArchived r.commits g.num g.setId })
  let s := { s with fss := { s.fss with segs := s.fss.segs.filter (fun x => x.num ≠ g.num) } }
  (s.refreshUsed g.inst).drainEnds g.inst

/-- ARCHIVE_DONE (R29, R97, R228): a verified segment with room for its message is unpinned; the message follows the flush of the UNPIN
entry. -/
def execArchiveDone (num : Nat) (s : State) : Host.Outcome State Fault Refusal :=
  .next (whenServing s (fun s =>
    match s.findSeg num with
    | none => s
    | some g =>
      match g.unpinAt with
      | some n => if n ≤ s.fss.jDone then s.postDone g else s
      | none =>
        if s.segVerified g && s.doneRoom g.inst then
          let s := s.markUnits g
          let s := s.jAdd (.unpin g.inst num)
          (s.modSeg num (fun x => { x with unpinAt := some s.fss.jMade, active := false })).refreshUsed g.inst
        else s))

/-! ### Drives treated as absent (R305) -/

/-- DEGRADED_DRIVE_TIMEOUT (R305): the write gate of one drive has stayed closed for ARC.DEG.tmo_s while the other three can open. -/
def execDegradedDriveTimeout (d : Fin 4) (s : State) : Host.Outcome State Fault Refusal :=
  .next (whenServing s (fun s =>
    let d := d.val
    let w := (s.drive d).wst
    let others := s.writeDrives.filter (fun k => k ≠ d)
    if s.setWritable && s.writeDrives.contains d && !w.gate && decide (w.shutSince + 1000 * Cf.ARC_DEG_tmo_s s ≤ s.tm.mono) &&
        decide (others.length = 3) && others.all (fun k => s.gateOk k) then
      (({ s with arc := { s.arc with absent := d :: s.arc.absent } }).note .driveAbsent d).settle
    else s))

end Sys2Proof.Machine
end

