-- ==== Sys2Proof/Machine/Opc.lean ====
section
/-!
DEFINITION. Optimum power calibration (spec/09, R334 to R336): OPC_GO and OPC_RUN.
-/

namespace Sys2Proof.Machine

/-- OPC_GO (R334): an OPC of every layer of the disc is due. -/
def execOpcGo (d : Fin 4) (s : State) : Host.Outcome State Fault Refusal :=
  .next (whenServing s (fun s => s.modWst d.val (fun w =>
    { w with opcDue := w.opcDue ++ (List.range (max 1 s.arc.layers)).filter (fun l => !w.opcDue.contains l) })))

/-- The asymmetry of a field as a quotient (R335): (P + N) / (P − N). -/
def asymmetry (f : Int × Int) : Int × Int := (f.1 + f.2, f.1 - f.2)

/-- The least-squares line through the 16 fields at powers Pind × (70 + 4k) / 100, over the common denominator D of the asymmetries: D,
the sum B of the asymmetries × D, and G, the sum of (4k − 30) × asymmetry × D. -/
def opcSums (l : List (Int × Int)) : Int × Int × Int :=
  let q := l.map asymmetry
  let dn := q.foldl (fun a e => a * e.2) 1
  let b := q.map (fun e => if e.2 = 0 then 0 else e.1 * (dn / e.2))
  (dn, b.foldl (fun a v => a + v) 0, (b.zipIdx).foldl (fun a e => a + (4 * (e.2 : Int) - 30) * e.1) 0)

/-- Popt as an exact quotient in the unit of Pind: ((βt − a) / g) × rho / 1024; none unless g > 0. -/
def opcQuotient (l : List (Int × Int)) (pind rho : Nat) (bt : Int) : Option (Int × Int) :=
  let (dn, b, g) := opcSums l
  if dn = 0 then none
  else
    let sign : Int := if dn < 0 then -1 else 1
    let g := sign * g
    let k := sign * (16 * bt * dn - 1000 * b)
    if g ≤ 0 then none else some ((pind : Int) * rho * (5000 * g + 17 * k), 5120000 * g)

/-- The result is kept: 0.70 to 1.30 of Pind and within the laser-current cap (R336). -/
def opcKept (q : Int × Int) (pind : Nat) (cap : Int) : Bool :=
  decide (70 * (pind : Int) * q.2 ≤ 100 * q.1 ∧ 100 * q.1 ≤ 130 * (pind : Int) * q.2 ∧ q.1 ≤ cap * q.2)

/-- A run's result is not kept: the previous one stands (R336); the failure is counted (R441). -/
def State.opcFails (s : State) (d l : Nat) : State :=
  let s := s.modItem 10 d (fun x => { x with fails := inc16 x.fails })
  (s.modWst d (fun w => { w with opcFail := true })).note .opcFailed (d + 16 * l)

/-- An OPC of a drive's layer ends with the peak means of its 16 fields (R335, R336). -/
def State.endOpc (s : State) (d l : Nat) (fields : List (Int × Int)) : State :=
  let r := s.drive d
  let old := nth OpcRes.reset r.wst.opc l
  let q := if fields.length = 16 then opcQuotient fields old.pind (Cf.WST_OPC_CFG_rho s d) (Cf.WST_OPC_CFG_beta_t s d) else none
  let s := s.modWst d (fun w => { w with
    opcBusy := false, opcDue := w.opcDue.filter (fun x => x ≠ l), pca := modNth (fun n => n - 1) w.pca l, last := [], recMs := 0,
    opcTemp := s.driveTemp d })
  let s := s.calFallsDue 8 d
  match q with
  | some q =>
    if opcKept q old.pind (s.laserCap d) then
      (s.calCount 10 d (s.driveTemp d)).modWst d (fun w => { w with opc := modNth (fun o =>
        { o with kept := true, popt := Config.opcRound q.1 q.2, rate := r.rdc.kbps }) w.opc l })
    else s.opcFails d l
  | none => s.opcFails d l

/-- An OPC may begin: no stripe is in recording and the gate of the drive is open (R334, corner). -/
def State.mayOpc (s : State) (d l : Nat) : Bool :=
  let r := s.drive d
  r.wst.opcDue.contains l && !r.wst.opcBusy && !s.sns.hot && !s.calHolds && s.arc.going.isEmpty && r.wst.gate && decide (r.layer = l) && s.rateOk d

/-- OPC_RUN (R334 to R336): an OPC that is due begins, or ends with the means of its test fields; without room in the calibration area
the previous result stands without a test. -/
def execOpcRun (d : Fin 4) (layer : Fin 2) (fields : Option (List (Int × Int))) (s : State) : Host.Outcome State Fault Refusal :=
  .next (whenServing s (fun s =>
    let d := d.val
    let l := layer.val
    match fields with
    | none =>
      if !s.mayOpc d l then s
      else if nth 0 (s.drive d).wst.pca l = 0 then
        s.modWst d (fun w => { w with pcaFull := true, opcDue := w.opcDue.filter (fun x => x ≠ l), last := [], recMs := 0,
                                      opcTemp := s.driveTemp d })
      else (s.touchDrive d).modWst d (fun w => { w with opcBusy := true })
    | some f => if (s.drive d).wst.opcBusy && decide ((s.drive d).layer = l) then (s.endOpc d l f).settle else s))

end Sys2Proof.Machine
end

