-- ==== Sys2Proof/Machine/Calibration.lean ====
section
/-!
DEFINITION. Avocet (spec/13): the temperature sets and their update (R425, R426), the methods of the items (R428 to R435), triggers and
failures (R436 to R438), and the records in NVM (R440 to R443).
-/

namespace Sys2Proof.Machine

/-! ### The sets (R426) -/

/-- The set nearest a temperature, the lower one on a tie, and the other set that brackets the temperature. -/
def nearestSet (t : Int) : Nat :=
  (List.range 5).foldl (fun a k => if (setTemp k - t).natAbs < (setTemp a - t).natAbs then k else a) 0
def otherSet (t : Int) : Nat := let k := lowerSet t; if nearestSet t = k then k + 1 else k

/-- What a result measured at a temperature writes into its set. -/
def State.setUpdate (s : State) (n : Nat) (t v : Int) : Int :=
  let k := nearestSet t
  let j := otherSet t
  if t < setTemp 0 ∨ setTemp 4 < t ∨ t = setTemp k then v
  else
    match s.setVal j n with
    | none => v
    | some w => w + tdiv ((v - w) * (setTemp k - setTemp j)) (t - setTemp j)

/-- A result of value `n` enters the sets, clamped to its range. -/
def State.putVal (s : State) (n : Nat) (t lo hi v : Int) : State :=
  let k := nearestSet t
  { s with cal := { s.cal with
    vals := Bank.set calDef s.cal.vals (k * 65536 + n) (some (clampI lo hi (s.setUpdate n t v))), dirty := s.cal.dirty ||| 2 ^ k } }

/-- A signed 16-bit value. -/
def State.putS16 (s : State) (n : Nat) (t v : Int) : State := s.putVal n t (-32768) 32767 v

/-! ### Applying a servo gain (R427, R431) -/

/-- Key of a coefficient of a bank. -/
def coefKey (a bank off : Nat) : Nat := 0x0C0100 + a * 0x1000 + bank * 0x40 + off

/-- Avocet writes the gains of the inactive bank, copies its other fields from the active one, and swaps with bumpless = 1; a swap that
waits stands, with its gains re-scaled. DEDUCED, log entry 48. -/
def State.applyGain (s : State) (d role : Nat) (g : Int) : State :=
  let a := axisOf d role
  let b := (s.axis a).bank
  let pend := (s.axis a).swapPending
  let scale (v : Int) : Word := BitVec.ofInt 32 (satS 32 (tdiv (v * g) 4096))
  let s := if pend then s else forBelow 16 (fun k t => t.setReg (coefKey a (1 - b) (4 * k)) (t.reg (coefKey a b (4 * k)))) s
  let s := [0x28, 0x2C, 0x30].foldl (fun (t : State) off =>
    t.setReg (coefKey a (1 - b) off)
      (scale (if pend then t.coef a (1 - b) off else sext 32 (t.storedReg (coefKey a 0 off))))) s
  { s.modAxis a (fun x => { x with swapPending := true, bumpless := true }) with
    cal := { s.cal with gApplied := modNth (fun _ => g) s.cal.gApplied (2 * d + role) } }

/-- The values in force of a drive are computed anew; a servo gain that has not changed is not applied (R427). -/
def State.recompute (s : State) (d : Nat) : State :=
  let s := { s with cal := { s.cal with tApplied := modNth (fun _ => s.driveTemp d) s.cal.tApplied d } }
  forBelow 2 (fun role t =>
    let g := t.trim d (calGain role)
    if g = nth 4096 t.cal.gApplied (2 * d + role) then t else t.applyGain d role g) s

/-- The values that the die temperature indexes are computed anew, once it has moved by 1/4 °C (R427). -/
def State.recomputeDie (s : State) : State := { s with cal := { s.cal with tApplied := modNth (fun _ => s.dieTemp) s.cal.tApplied 4 } }
def State.followDie (s : State) : State := if 4 ≤ (s.dieTemp - s.trimDie).natAbs then s.recomputeDie else s

/-- A drive whose temperature has moved by 1/4 °C takes new values. -/
def State.followTemp (s : State) (d : Nat) : State :=
  if 4 ≤ (s.driveTemp d - s.trimTemp d).natAbs then s.recompute d else s

/-! ### The methods (R428 to R435) -/

/-- OSC (R429): the code moves one step at a time until a count lies within 0.25 % of 104,858, over at most 32 steps.
DEDUCED, log entry 48. -/
def oscSteps : Nat → Int → List Nat → Option Int
  | _, _, [] => none
  | 0, code, c :: _ => if (104596 ≤ c ∧ c ≤ 105120) then some code else none
  | n + 1, code, c :: l =>
    if 104596 ≤ c ∧ c ≤ 105120 then some code
    else oscSteps n (clampI 0 255 (if 104858 < c then code - 1 else code + 1)) l

/-- Expected code of a converter's reference input, 3/4 of full scale: 12 bits from 0, or 8 bits about 128 (R311, R341).
DEDUCED, log entry 48. -/
def refCode (k : Nat) : Int := if k = 4 then 96 else 3072

/-- Gain error in 0.01 % from the sum of 256 conversions less 256 offsets (R430). -/
def gainError (k : Nat) (ofs sum : Int) : Int := tdiv ((sum - 256 * (ofs + refCode k)) * 10000) (256 * refCode k)

/-- The errors of a drive's five converters. -/
def State.gainErrors (s : State) (d : Nat) (sums : List Int) : List Int :=
  (sums.zipIdx).map (fun e => gainError e.2 (s.calAt (calVal d e.2) s.trimDie) e.1)

/-- CREF (R430): trims within 4 % are stored; a drift over 1.5 % is logged; a converter over 4 % is faulted until a run passes. -/
def State.endRef (s : State) (d : Nat) (t : Int) (sums : List Int) : Bool × State :=
  let errs := s.gainErrors d sums
  let bad := errs.any (fun e => decide (400 < e.natAbs))
  let svo := (errs.take 4).foldl (fun a e => if a.natAbs < e.natAbs then e else a) 0
  let s := { s with cal := { s.cal with
    driftRf := modNth (fun _ => nth 0 errs 4) s.cal.driftRf d, driftSvo := modNth (fun _ => svo) s.cal.driftSvo d,
    faulted := if bad then s.cal.faulted ||| 2 ^ d else setBitN s.cal.faulted d false } }
  (!bad, forEach (errs.zipIdx) (fun e u =>
    if 400 < e.1.natAbs then u.note .converterFault (d + 16 * e.2)
    else
      let u := u.putS16 (calVal d (5 + e.2)) t (Config.gainTrim (decide (e.2 = 4)) (nth 0 sums e.2))
      if 150 < e.1.natAbs then u.note .converterDrift (d + 16 * e.2) else u) s)

/-- The minimum of the least-squares parabola through seven points, in steps × `step` from the centre: none unless the curvature is
positive and the minimum lies inside the span (R432). -/
def parabola (step : Int) (ys : List Nat) : Option Int :=
  let ks : List (Int × Int) := (ys.zipIdx).map (fun e => ((e.2 : Int) - 3, (e.1 : Int)))
  let s0 : Int := ks.foldl (fun a e => a + e.2) 0
  let s1 : Int := ks.foldl (fun a e => a + e.1 * e.2) 0
  let c : Int := ks.foldl (fun a e => a + e.1 * e.1 * e.2) 0 - 4 * s0
  if ys.length = 7 ∧ 0 < c ∧ 3 * s1.natAbs < 6 * c.natAbs then some (roundDiv (-(3 * s1 * step)) (2 * c)) else none

/-- The place of the best point of a sweep. -/
def bestPoint (better : Nat → Nat → Bool) (ys : List Nat) : Int :=
  ((ys.zipIdx).foldl (fun (a : Option (Nat × Nat)) e =>
    match a with
    | none => some e
    | some b => if better e.1 b.1 then some e else a) none).elim 0 (fun e => (e.2 : Int) - 3)

/-- A sweep, repeated once about its best point. -/
def fbSweep (centre step : Int) (first again : List Nat) : Option Int :=
  match parabola step first with
  | some x => some (centre + x)
  | none => (parabola step again).map (fun x => centre + step * bestPoint (fun a b => decide (a < b)) first + x)

/-- Slots of a layer that were verified (R432, R433). -/
def State.verifiedOn (s : State) (l : Nat) : Nat := if l = 0 then min s.firstOpen 524288 else s.firstOpen - 524288

/-- FOCBAL of one layer. -/
def State.endBal (s : State) (d l : Nat) (t : Int) (m : BalMeas) : Bool × State :=
  let step : Int := (Cf.CAL_FB_step s : Nat) * 4096
  let f0 := s.trimLayer d l 0
  let b0 := s.trimLayer d l 1
  let lim : Int := 2147483647
  if 64 ≤ s.verifiedOn l then
    match fbSweep f0 step m.foc m.focAgain, fbSweep b0 step m.bal m.balAgain with
    | some f, some b => (true, (s.putVal (calLayer d l 0) t (-lim - 1) lim f).putVal (calLayer d l 1) t (-lim - 1) lim b)
    | some f, none => (false, s.putVal (calLayer d l 0) t (-lim - 1) lim f)
    | none, _ => (false, s)
  else
    (decide (m.te.length = 7),
     if m.te.length = 7 then
       (s.putVal (calLayer d l 0) t (-lim - 1) lim (f0 + step * bestPoint (fun a b => decide (b < a)) m.te)).putVal
         (calLayer d l 1) t (-lim - 1) lim (b0 + tdiv (m.teHi + m.teLo) 2)
     else s)

/-- THR of one layer: the lowest score wins, the lower qual on a tie; a layer with few verified slots is skipped (R433). -/
def State.endThr (s : State) (d l : Nat) (t : Int) (m : ThrMeas) : Bool × State :=
  if s.verifiedOn l < 64 then (true, s)
  else if m.scores.length ≠ 5 ∨ m.num = 0 then (false, s)
  else
    let k := bestPoint (fun a b => decide (a < b)) (m.scores.map (fun e => e.1 + 16 * e.2))
    (true, (s.putVal (calLayer d l 2) t 1 15 (4 + 2 * (k + 3))).putVal (calLayer d l 3) t 1 511 (roundDiv m.sum (m.num : Nat)))

/-- Some layers in turn; the item fails when one of them does. -/
def layersEach {α : Type} (g : Nat → α → State → Bool × State) (l : List α) (s : State) : Bool × State :=
  (l.zipIdx).foldl (fun a e => let r := g e.2 e.1 a.2; (a.1 && r.1, r.2)) (true, s)

/-- The method of an item on its measurement: whether it passed, and the block with its results. -/
def State.method (s : State) (kind d : Nat) (t : Int) (m : CalMeas) : Bool × State :=
  match kind, m with
  | 0, .soak =>
    (true, { s with cal := { s.cal with dirty := s.cal.dirty ||| 32, siteOfs := (List.range 4).map (fun k => clampI (-128) 128 (Cf.CAL_TSREF_temp s - nth 0 s.sns.site k)) } })
  | 1, .osc counts =>
    (match oscSteps 32 (s.calAt calOsc t) counts with
     | some c => (true, s.putVal calOsc t 0 255 c)
     | none => (false, s))
  | 2, .ref sums => if sums.length = 5 then s.endRef d t sums else (false, s)
  | 3, .zero sums =>
    if sums.length = 5 then (true, forEach (sums.zipIdx) (fun e u => u.putS16 (calVal d e.2) t (tdiv e.1 256)) s) else (false, s)
  | 4, .gain x w =>
    let lq := x * 4096 / w
    if 2048 ≤ lq ∧ lq ≤ 8192 then (true, s.putVal (calVal d (calGain 0)) t 1 65535 (((s.trim d (calGain 0)) * 4096 + (lq / 2 : Nat)) / (lq : Int)))
    else (false, s)
  | 5, .gain x w =>
    let lq := x * 4096 / w
    if 2048 ≤ lq ∧ lq ≤ 8192 then (true, s.putVal (calVal d (calGain 1)) t 1 65535 (((s.trim d (calGain 1)) * 4096 + (lq / 2 : Nat)) / (lq : Int)))
    else (false, s)
  | 6, .bal l => layersEach (fun k x u => u.endBal d k t x) (l.take s.arc.layers) s
  | 7, .thr l => layersEach (fun k x u => u.endThr d k t x) (l.take s.arc.layers) s
  | 8, .laser p1 i1 p2 i2 =>
    if i1 < i2 ∧ p1 < p2 ∧ bitN s.inp.range (6 + d) = false then
      let eta := tdiv ((p2 - p1) * 100) (i2 - i1)
      if 200 ≤ eta ∧ eta ≤ 2000 then
        (true, (s.putVal (calVal d calEta) t 200 2000 eta).putVal (calVal d calIth) t 0 65535 (i1 - tdiv (p1 * 100) eta))
      else (false, s)
    else (false, s)
  | 9, .zone l z beta =>
    let key := d * 128 + l.val * 64 + z.val
    let n := Bank.get natDef s.cal.zoneCnt key
    if n < 256 then (false, s)
    else
      let f := s.zoneFactor d l.val z.val
      let step := clampI (-8) 8 (tdiv (((Cf.WST_OPC_CFG_beta_t s d : Int) - beta) * (Cf.CAL_ZPW_kz s : Nat)) 1000)
      (true, { s.putVal (calLayer d l.val (calZf z.val)) t 768 1536 (clampI 768 1536 (f + step)) with
        cal := { (s.putVal (calLayer d l.val (calZf z.val)) t 768 1536 (clampI 768 1536 (f + step))).cal with
          zoneCnt := Bank.set natDef s.cal.zoneCnt key (n - 256) } })
  | _, _ => (false, s)

/-! ### Running an item (R436 to R438) -/

/-- The temperature that indexes an item's sets: the die's up to kind 3, the drive's above. -/
def State.itemTemp (s : State) (kind d : Nat) : Int := if kind ≤ 3 then s.dieTemp else s.driveTemp d

/-- The crystal and the PCIe reference agree within the supervisor's inner window (R429, R457); deviations are in 1/16 ppm. -/
def State.clocksAgree (s : State) : Bool := bitN s.clk.ok 1 && decide (s.clk.devXP.natAbs ≤ 16 * Cf.CLK_SUP_WIN_inner_ppm s)

/-- An item whose result was discarded waits until the temperature has held within 1 °C for 10 s (corner). -/
def State.unsteady (s : State) (kind d : Nat) : Bool :=
  s.cal.moved.any (fun e => decide (e.1 = kind ∧ e.2.1 = d ∧ s.tm.mono < e.2.2.2 + 10000))

/-- A temperature that has left the 1 °C about the one held to starts its 10 s anew. -/
def State.holdTemps (s : State) : State :=
  { s with cal := { s.cal with moved := s.cal.moved.map (fun e =>
    if 16 < (s.itemTemp e.1 e.2.1 - e.2.2.1).natAbs then (e.1, e.2.1, s.itemTemp e.1 e.2.1, s.tm.mono) else e) } }

/-- An axis is OFF or OPEN. -/
def Ax.isOpen (x : Ax) : Bool := decide (x.st = .off ∨ x.st = .opened)

/-- An item may run now. -/
def State.mayCal (s : State) (kind d : Nat) : Bool :=
  let r := s.drive d
  let between := s.drives.all (fun x => x.wst.burst.isNone && !x.wst.opcBusy)
  !s.sns.hot && s.cal.running.isNone && !s.unsteady kind d &&
  (match kind with
   | 1 => s.clocksAgree
   | 2 => (r.axis 0).isOpen && (r.axis 1).isOpen && !r.rdc.started
   | 3 => (r.axis 0).isOpen && (r.axis 1).isOpen && !r.rdc.started
   | 4 => between && decide ((r.axis 0).st = .closed) && !(r.axis 0).manual
   | 5 => between && decide ((r.axis 1).st = .closed) && !(r.axis 1).manual
   | 6 => between && decide ((r.axis 0).st = .closed ∧ (r.axis 1).st = .closed)
   | 7 => between && decide ((r.axis 0).st = .closed ∧ (r.axis 1).st = .closed) && r.wst.opcDue.isEmpty
   | _ => true)

/-- Order of due items: device items first, then by drive, then by kind. -/
def calOrder (e : Nat × Nat × Nat) : Nat := if e.1 ≤ 1 then e.1 else 16 * (e.2.1 + 1) + e.1

/-- The due item that runs next. -/
def State.nextItem (s : State) : Option (Nat × Nat × Nat) :=
  (s.cal.due.filter (fun e => s.mayCal e.1 e.2.1)).foldl (fun a e =>
    match a with
    | none => some e
    | some b => if calOrder e < calOrder b then some e else a) none

/-- The injection of a gain item: its frequency at 200 kHz samples, and its amplitude (R431). -/
def State.inject (s : State) (kind d : Nat) (on : Bool) : State :=
  let a := axisOf d (kind - 4)
  let fc := if kind = 4 then Cf.CAL_GN_FOC_fc_hz s else Cf.CAL_GN_TRK_fc_hz s
  let amp := if kind = 4 then Cf.CAL_GN_FOC_amp s else Cf.CAL_GN_TRK_amp s
  if on then (s.setReg (Reg.SRV_INJ_FRQ a) (BitVec.ofNat 32 (fc * 2 ^ 32 / 200000))).setReg (Reg.SRV_INJ_AMP a) (BitVec.ofNat 32 (amp * 65536))
  else s.setReg (Reg.SRV_INJ_AMP a) 0

/-- The first due item that may run begins; one whose converter is faulted fails at once (R438). -/
def State.beginItem (s : State) : State :=
  match s.nextItem with
  | none => s
  | some (k, d, _) =>
    let s := { s with cal := { s.cal with
      due := s.cal.due.filter (fun e => ¬(e.1 = k ∧ e.2.1 = d)), deferred := false,
      moved := s.cal.moved.filter (fun e => ¬(e.1 = k ∧ e.2.1 = d)) } }
    if bitN s.cal.faulted d && decide (4 ≤ k ∧ k ≠ 8) then s.calFailed k d
    else
      let s := { s with cal := { s.cal with running := some (k, d, s.itemTemp k d) } }
      let s := if k = 4 ∨ k = 5 then s.inject k d true else s
      if 4 ≤ k ∧ k ≤ 7 then s.touchDrive d else s

/-- The running item ends: its result is written at the mean of the temperatures at its start and end; over 2 °C apart, it is discarded
and due again once the temperature has held. DEDUCED, log entry 48. -/
def State.endItem (s : State) (k d : Nat) (t0 : Int) (m : CalMeas) : State :=
  let s := { s with cal := { s.cal with running := none } }
  let s := if k = 4 ∨ k = 5 then s.inject k d false else s
  let t1 := s.itemTemp k d
  if 32 < (t1 - t0).natAbs then ({ s with cal := { s.cal with moved := s.cal.moved ++ [(k, d, t1, s.tm.mono)] } }).calDue k d
  else
    let t := tdiv (t0 + t1) 2
    let (ok, s) := s.method k d t m
    let s := if ok then s.calCount k d t else s.calFailed k d
    let s := if k = 4 ∨ k = 5 then (if ok then s.applyGain d (k - 4) (s.trim d (calGain (k - 4))) else s) else s
    let s := if k = 9 ∧ s.cal.zoneCnt.any (fun e => decide (e.1 / 128 = d ∧ 256 ≤ e.2)) then s.calFallsDue 9 d else s
    s.settle

/-- CAL_ITEM_RUN (R436): a due item begins, or the running one ends with what its method measured. DEDUCED, log entry 48. -/
def execCalItemRun (m : Option CalMeas) (s : State) : Host.Outcome State Fault Refusal :=
  .next (whenServing s (fun s =>
    match m, s.cal.running with
    | none, none => s.beginItem
    | some m, some (k, d, t0) => s.endItem k d t0 m
    | _, _ => s))

/-- The named item is queued by a write of CAL.CMD, whatever CAL.CTL.auto and its failures say; the OPC item makes an OPC due. -/
def State.calGo (s : State) (kind d : Nat) : State :=
  if 10 < kind then s
  else if kind = 10 then s.modWst d (fun w => { w with opcDue := List.range s.arc.layers })
  else
    let d := if kind ≤ 1 then 0 else d
    (s.modItem kind d (fun x => { x with inRow := 0 })).calDue kind d

/-- CAL_ITEM_GO (R436). -/
def execCalItemGo (kind : Fin 16) (d : Fin 4) (s : State) : Host.Outcome State Fault Refusal :=
  .next (whenServing s (fun s => s.calGo kind.val d.val))

/-- CAL_DEFER_TIMEOUT (R437): a drive item has waited CAL.CFG.defer_s seconds for the stripes. -/
def execCalDeferTimeout (s : State) : Host.Outcome State Fault Refusal :=
  .next (whenServing s (fun s =>
    if s.cal.due.any (fun e => decide (4 ≤ e.1 ∧ e.1 ≤ 7 ∧ e.2.2 + 1000 * Cf.CAL_CFG_defer_s s ≤ s.tm.mono)) then
      { s with cal := { s.cal with deferred := true } }
    else s))

/-- CONVERTER_CHECK_PERIOD (R430): CREF and ADCOFS of every drive are due again. -/
def execConverterCheckPeriod (s : State) : Host.Outcome State Fault Refusal :=
  .next (whenServing s (fun s => forBelow 4 (fun d t => (t.calFallsDue 2 d).calFallsDue 3 d) s))

/-- The cold-start decision at the first clock commit after power-on (R428). DEDUCED, log entry 49. -/
def State.coldDecision (s : State) : State :=
  match s.cal.cold with
  | none => s
  | some (die, drives) =>
    let s := { s with cal := { s.cal with cold := none } }
    let off : Int := (s.tm.sec : Int) - ((s.tm.mono - s.cal.mono0) / 1000 : Nat) - (s.cal.alive0 : Int) - 3600
    if off < (Cf.CAL_CFG2_cold_min s * 60 : Nat) then s
    else
      forBelow 4 (fun d t =>
        let v := nth 0 t.cal.driveOfs d + (die - nth 0 drives d)
        if 48 < v.natAbs then t.note .thermSuspect d
        else ({ t with cal := { t.cal with driveOfs := modNth (fun _ => v) t.cal.driveOfs d, dirty := t.cal.dirty ||| 32 } }).followTemp d) s

/-! ### Records in NVM (R440 to R443) -/

/-- A field of a set record: the value's number, its place, its length, its valid bit. -/
structure CalField where
  num : Nat
  off : Nat
  len : Nat
  bit : Nat
  signed : Bool
  deriving DecidableEq, Repr

/-- The fields of a drive; valid bits count from byte 960 of the record. -/
def driveFields (d : Nat) : List CalField :=
  let b := 64 + 224 * d
  let v := 128 * d
  (List.range 5).map (fun k => ⟨calVal d k, b + 2 * k, 2, v + k, true⟩) ++
  (List.range 5).map (fun k => ⟨calVal d (5 + k), b + 10 + 2 * k, 2, v + 5 + k, true⟩) ++
  [⟨calVal d (calGain 0), b + 20, 2, v + 10, false⟩, ⟨calVal d (calGain 1), b + 22, 2, v + 11, false⟩,
   ⟨calVal d calIth, b + 24, 2, v + 12, false⟩, ⟨calVal d calEta, b + 26, 2, v + 12, false⟩] ++
  (List.range 2).foldl (fun a l =>
    let c := b + 32 + 96 * l
    let w := v + 16 + 48 * l
    a ++ [⟨calLayer d l 0, c, 4, w, true⟩, ⟨calLayer d l 1, c + 4, 4, w + 1, true⟩, ⟨calLayer d l 2, c + 8, 1, w + 2, false⟩,
          ⟨calLayer d l 3, c + 10, 2, w + 2, false⟩] ++
      (List.range 40).map (fun z => ⟨calLayer d l (calZf z), c + 12 + 2 * z, 2, w + 3 + z, false⟩)) []

/-- Every field of a set record (Table 13-3). -/
def calFields : List CalField := ⟨calOsc, 24, 2, 0, false⟩ :: (driveFields 0 ++ driveFields 1 ++ driveFields 2 ++ driveFields 3)

/-- Byte and mask of a field's valid bit: OSC has bit 0 of byte 26. -/
def CalField.validAt (f : CalField) : Nat × Nat := if f.num = calOsc then (26, 1) else (960 + f.bit / 8, 2 ^ (f.bit % 8))

/-- A signed number as `n` bytes. -/
def leInt (n : Nat) (v : Int) : List Byte := leBytes n (v % (256 ^ n : Nat)).toNat

/-- The 2048 bytes of a set, without its check word. -/
def State.setBody (s : State) (k seq : Nat) : List Byte :=
  let base := putAt (putAt (putAt (List.replicate 2044 0) 0 ([0x41, 0x56, 0x43, 0x31, BitVec.ofNat 8 k, 1])) 8 (leBytes 4 seq)) 16 (leBytes 8 s.tm.sec)
  calFields.foldl (fun b f =>
    match s.setVal k f.num with
    | some v =>
      let (a, m) := f.validAt
      let b := putAt b f.off (leInt f.len v)
      putAt b a [BitVec.ofNat 8 (leAt b a 1 ||| m)]
    | none => b) base

/-- A record with its CRC-32. -/
def withCrc (b : List Byte) : List Byte := b ++ leBytes 4 (crc32 b)
def crcOk (b : List Byte) (n : Nat) : Bool := decide (crc32 (b.take n) = leAt b n 4)

/-- Places of the copies of set `k` and of the metadata record in NVM. DEDUCED, log entry 48. -/
def setAddr (k copy : Nat) : Nat := 0x20000 + 4096 * k + 2048 * copy
def metaAddr (copy : Nat) : Nat := 0x25000 + 1024 * copy

/-- Set `k` is stored in the copy not in force. -/
def State.storeSet (s : State) (k : Nat) : State :=
  let seq := nth 0 s.cal.seqs k + 1
  let copy := 1 - nth 0 s.cal.copies k
  let s := s.nvmWrite (setAddr k copy) (withCrc (s.setBody k seq))
  { s with cal := { s.cal with
    seqs := modNth (fun _ => seq) s.cal.seqs k, copies := modNth (fun _ => copy) s.cal.copies k,
    crcFail := setBitN s.cal.crcFail k false, dirty := setBitN s.cal.dirty k false } }

/-- The 1020 bytes of the metadata record: its sequence lies in bytes 4 to 7. -/
def State.metaBody (s : State) (seq : Nat) : List Byte :=
  let b := putAt (List.replicate 1020 0) 0 ([0x41, 0x56, 0x4D, 0x31] ++ leBytes 4 seq)
  let b := putAt b 8 (s.cal.siteOfs.foldl (fun a v => a ++ leInt 2 v) [] ++ s.cal.driveOfs.foldl (fun a v => a ++ leInt 2 v) [])
  s.cal.items.foldl (fun b e =>
    putAt b (32 + 16 * e.1) (leBytes 2 e.2.count ++ leBytes 2 e.2.fails ++ leInt 2 e.2.temp ++ [0, 0] ++ leBytes 8 e.2.secs)) b

def State.storeMeta (s : State) : State :=
  let seq := s.cal.metaSeq + 1
  let copy := 1 - s.cal.metaCopy
  let s := s.nvmWrite (metaAddr copy) (withCrc (s.metaBody seq))
  { s with cal := { s.cal with metaSeq := seq, metaCopy := copy, dirty := setBitN s.cal.dirty 5 false } }

/-- Every changed record is stored. -/
def State.calStore (s : State) : State :=
  let s := forBelow 5 (fun k t => if bitN t.cal.dirty k then t.storeSet k else t) s
  let s := if bitN s.cal.dirty 5 then s.storeMeta else s
  { s with cal := { s.cal with lastStore := s.tm.mono } }

/-- CAL_STORE (R442). -/
def execCalStore (s : State) : Host.Outcome State Fault Refusal := .next (whenServing s (fun s => s.calStore))

/-- CAL_PERIODIC_STORE (R442): at most once per CAL.CFG2.store_min minutes. -/
def execCalPeriodicStore (s : State) : Host.Outcome State Fault Refusal :=
  .next (whenServing s (fun s =>
    if s.cal.dirty ≠ 0 ∧ s.cal.lastStore + 60000 * Cf.CAL_CFG2_store_min s ≤ s.tm.mono then s.calStore else s))

/-- The copy of a record that is loaded: the valid one of higher sequence, A on a tie. -/
def pickCopy (a b : Option (Nat × List Byte)) : Option (Nat × Nat × List Byte) :=
  match a, b with
  | some x, some y => if x.1 < y.1 then some (1, y.1, y.2) else some (0, x.1, x.2)
  | some x, none => some (0, x.1, x.2)
  | none, some y => some (1, y.1, y.2)
  | none, none => none

def State.setCopy (s : State) (k copy : Nat) : Option (Nat × List Byte) :=
  let b := s.nvmBytes (setAddr k copy) 2048
  if crcOk b 2044 then some (leAt b 8 4, b) else none
def State.metaRec (s : State) (copy : Nat) : Option (Nat × List Byte) :=
  let b := s.nvmBytes (metaAddr copy) 1024
  if crcOk b 1020 then some (leAt b 4 4, b) else none

/-- The values a stored copy of set `k` marks valid, over the values held of the other sets (R440). -/
def loadedVals (k : Nat) (b : List Byte) (clear : Bank (Option Int)) : Bank (Option Int) :=
  calFields.foldl (fun (t : Bank (Option Int)) f =>
    let (a, m) := f.validAt
    if (leAt b a 1) / m % 2 = 1 then
      Bank.set calDef t (k * 65536 + f.num) (some (if f.signed then sext (8 * f.len) (leAt b f.off f.len) else (leAt b f.off f.len : Int)))
    else t) clear

/-- The 44 item records of a metadata record (R444). -/
def loadedItems (b : List Byte) : Bank CalItem :=
  (List.range 44).foldl (fun (t : Bank CalItem) e =>
    let o := 32 + 16 * e
    Bank.set calItemDef t e ⟨leAt b o 2, leAt b (o + 2) 2, sext 16 (leAt b (o + 4) 2), leAt b (o + 8) 8, 0⟩) []

/-- Set `k` is loaded from the copy chosen, or has no valid value (R440, R443). -/
def State.setFrom (s : State) (k : Nat) (o : Option (Nat × Nat × List Byte)) : State :=
  let clear := s.cal.vals.filter (fun e => e.1 / 65536 ≠ k)
  match o with
  | none => { s with cal := { s.cal with vals := clear, crcFail := setBitN s.cal.crcFail k true } }
  | some (copy, seq, b) =>
    { s with cal := { s.cal with
      vals := loadedVals k b clear, seqs := modNth (fun _ => seq) s.cal.seqs k, copies := modNth (fun _ => copy) s.cal.copies k } }

def State.loadSet1 (s : State) (k : Nat) : State := s.setFrom k (pickCopy (s.setCopy k 0) (s.setCopy k 1))

/-- The metadata record is loaded from the copy chosen (R444). -/
def State.metaFrom (s : State) (o : Option (Nat × Nat × List Byte)) : State :=
  match o with
  | none => s
  | some (copy, seq, b) =>
    { s with cal := { s.cal with
      metaSeq := seq, metaCopy := copy, items := loadedItems b, siteOfs := (List.range 4).map (fun k => sext 16 (leAt b (8 + 2 * k) 2)),
      driveOfs := (List.range 4).map (fun k => sext 16 (leAt b (16 + 2 * k) 2)) } }

/-- The sets and the metadata record are loaded (R440, R441, R444). -/
def State.loadCal (s : State) : State :=
  let s := forBelow 5 (fun k t => t.loadSet1 k) s
  s.metaFrom (pickCopy (s.metaRec 0) (s.metaRec 1))

end Sys2Proof.Machine
end

