-- ==== Sys2Proof/Machine/Clocks.lean ====
section
/-!
DEFINITION. Clock sources, their supervisor, switchover, power modes and the frequency-measuring counter (spec/14, R452 to R464). In masks
bit 0 is XT25, 1 PE and 2 XT32K; as a source of ref25, 2 is RC40.
-/

namespace Sys2Proof.Machine

/-- `g`, where power-on reset is not held: clocks and supervisor run in the halt too (R474, R489). DESIGN CHOICE, log entry 3. -/
def whenPowered (s : State) (g : State → State) : State := if s.hlt.porHeld then s else g s

/-! ### Selection of ref25 (R455) -/

/-- A source may drive ref25. -/
def State.clkUsable (s : State) (k : Nat) : Bool :=
  if k = 2 then true
  else bitN s.clk.ok k && !bitN s.clk.fault k && !bitN s.clk.drift k && (decide (k = 0) || decide (Cf.CLK_SUP_CFG_pe_allow s = 1))

/-- The first usable source of R455. -/
def State.bestSource (s : State) : Nat := if s.clkUsable 0 then 0 else if s.clkUsable 1 then 1 else 2

/-- A selected source that is no longer usable is to be replaced. -/
def State.leaveSource (s : State) : State :=
  if s.clkUsable s.clk.sel then s else { s with clk := { s.clk with goingTo := some s.bestSource } }

/-- A better source is to be taken, where the return is automatic (R459). DEDUCED, log entry 47. -/
def State.betterSource (s : State) : State :=
  if s.bestSource < s.clk.sel ∧ Cf.CLK_SUP_CFG_auto_ret s = 1 then { s with clk := { s.clk with goingTo := some s.bestSource } } else s

/-- A source has become usable: it is taken where it stands before the one in use (R455). DEDUCED, log entry 47. -/
def State.sourceUp (s : State) (k : Nat) : State :=
  if k < s.clk.sel ∧ s.clkUsable k then { s with clk := { s.clk with goingTo := some k } } else s

/-- A faulted source: it must be qualified anew; a faulted XT32K leaves the real-time clock on the divider (R453, R457, R459). -/
def State.clkFault (s : State) (k : Nat) : State :=
  if bitN s.clk.fault k then s
  else
    let s := { s with clk := { s.clk with
      fault := setBitN s.clk.fault k true, renewed := setBitN s.clk.renewed k false, agreed := modNth (fun _ => 0) s.clk.agreed k,
      ok := if k = 1 then s.clk.ok else setBitN s.clk.ok k false, rtcDiv := s.clk.rtcDiv || decide (k = 2) } }
    (s.note .clockFault k).leaveSource

/-- A crystal is qualified, or is not (R453). -/
def State.clkQualify (s : State) (k : Nat) (good : Bool) : State :=
  if good then
    let s := { s with clk := { s.clk with ok := setBitN s.clk.ok k true, rtcDiv := if k = 2 ∧ !bitN s.clk.fault 2 then false else s.clk.rtcDiv } }
    if bitN s.clk.fault k then { s with clk := { s.clk with renewed := setBitN s.clk.renewed k true, agreed := modNth (fun _ => 0) s.clk.agreed k } }
    else s.sourceUp k
  else (({ s with clk := { s.clk with ok := setBitN s.clk.ok k false } }).note .clockUnqualified k).leaveSource

/-- CRYSTAL_QUALIFIED (R453): XT25, or XT32K. -/
def execCrystalQualified (xt32k good : Bool) (s : State) : Host.Outcome State Fault Refusal :=
  .next (whenPowered s (fun s => s.clkQualify (if xt32k then 2 else 0) good))

/-- XT25_REQUALIFY (R453): tried again while XT25 is not selected. -/
def execXt25Requalify (good : Bool) (s : State) : Host.Outcome State Fault Refusal :=
  .next (whenPowered s (fun s => if s.clk.sel = 0 then s else s.clkQualify 0 good))

/-- CLOCK_SOURCE_FAULT (R454): a source that is qualified or present. DEDUCED, log entry 17. -/
def execClockSourceFault (k : Fin 3) (s : State) : Host.Outcome State Fault Refusal :=
  .next (whenPowered s (fun s => if bitN s.clk.ok k.val then s.clkFault k.val else s))

/-! ### The supervisor (R456, R457) -/

/-- What a gate finds: the odd source of two pairs beyond while the third lies inside, or nothing that can be named. -/
inductive Verdict where
  | agree
  | odd (k : Nat)
  | unresolved
  deriving DecidableEq, Repr

/-- Table 14-3 for pairs XT25-PE, XT25-XT32K and PE-XT32K beyond a window; `inside` says which lie within the inner window. -/
def verdictOf (all : Bool) (xp xk pk : Bool) (inXP inXK inPK : Bool) : Verdict :=
  if !xp && !xk && !pk then .agree
  else if !all then .unresolved
  else if xp && xk && !pk && inPK then .odd 0
  else if xp && pk && !xk && inXK then .odd 1
  else if xk && pk && !xp && inXP then .odd 2
  else .unresolved

/-- Gates in a row beyond a window. -/
def beyondRun (l : List Nat) (win : Nat) (ds : List (Bool × Int)) : List Nat :=
  (ds.zipIdx).map (fun e => if e.1.1 && decide (16 * win < e.1.2.natAbs) then nth 0 l e.2 + 1 else 0)

/-- SUPERVISOR_GATE (R456, R457): the deviations of the three pairs before the expected offset of PE is removed, in 1/16 ppm.
DEDUCED, log entry 47. DESIGN CHOICE, log entry 65. -/
def execSupervisorGate (xp xk pk : Int) (s : State) : Host.Outcome State Fault Refusal :=
  .next (whenPowered s (fun s =>
    let c := s.clk
    let ofs := 16 * Cf.CLK_SUP_CFG_pe_ofs_ppm s
    let on (a b : Nat) : Bool := bitN c.ok a && bitN c.ok b
    let ds : List (Bool × Int) := [(on 0 1, xp + ofs), (on 0 2, xk), (on 1 2, pk - ofs)]
    let inner := beyondRun c.inner (Cf.CLK_SUP_WIN_inner_ppm s) ds
    let outer := beyondRun c.outer (Cf.CLK_SUP_WIN_outer_ppm s) ds
    let dev (i : Nat) : Int := if (nth (false, 0) ds i).1 then (nth (false, 0) ds i).2 else 0
    let inside (i : Nat) : Bool := (nth (false, 0) ds i).1 && decide ((dev i).natAbs ≤ 16 * Cf.CLK_SUP_WIN_inner_ppm s)
    let present (i : Nat) : Bool := (nth (false, 0) ds i).1
    let near (i j : Nat) : Bool := (present i || present j) && (!present i || inside i) && (!present j || inside j)
    let far (l : List Nat) (i : Nat) : Bool := decide (4 ≤ nth 0 l i)
    let all := on 0 1 && on 0 2
    let s := { s with clk := { c with
      devXP := dev 0, devXK := dev 1, devPK := dev 2, inner := inner, outer := outer, agreed := [if near 0 1 then nth 0 c.agreed 0 + 1 else 0, if near 0 2 then nth 0 c.agreed 1 + 1 else 0,
                 if near 1 2 then nth 0 c.agreed 2 + 1 else 0],
      renewed := if bitN c.fault 1 && inside 0 then setBitN c.renewed 1 true else c.renewed } }
    let cry (s : State) : State := ({ s with clk := { s.clk with unresolved := true } }).note .clockUnresolved 0
    match verdictOf all (far outer 0) (far outer 1) (far outer 2) (inside 0) (inside 1) (inside 2) with
    | .odd k => s.clkFault k
    | .unresolved => cry s
    | .agree =>
      match verdictOf all (far inner 0) (far inner 1) (far inner 2) (inside 0) (inside 1) (inside 2) with
      | .odd k =>
        if bitN s.clk.drift k then s
        else (({ s with clk := { s.clk with drift := setBitN s.clk.drift k true, warnings := inc16 s.clk.warnings } }).note .clockDrift k).leaveSource
      | .unresolved => cry s
      | .agree =>
        let was := s.clk.drift
        let s := { s with clk := { s.clk with drift := 0 } }
        let s := if bitN was 1 then s.sourceUp 1 else s
        if bitN was 0 then s.sourceUp 0 else s))

/-! ### Switchover and return (R458, R459) -/

/-- Every axis takes its next tick as a resync. -/
def State.resyncAll (s : State) : State := forBelow 16 (fun a t => t.resync a) s

/-- REF25_SWITCHOVER (Table 14-4). -/
def execRef25Switchover (s : State) : Host.Outcome State Fault Refusal :=
  .next (whenPowered s (fun s =>
    match s.clk.goingTo with
    | none => s
    | some k =>
      let s := { s with clk := { s.clk with goingTo := none } }
      if k = s.clk.sel then s
      else ({ s with clk := { s.clk with sel := k, switches := inc16 s.clk.switches } }).resyncAll))

/-- SOURCE_RETURN (R459): every source qualified anew that has agreed for return_s, at eight gates a second. DEDUCED, log entry 47. -/
def execSourceReturn (s : State) : Host.Outcome State Fault Refusal :=
  .next (whenPowered s (fun s =>
    let back := maskOf 3 (fun k => bitN s.clk.fault k && bitN s.clk.renewed k && decide (8 * Cf.CLK_SUP_CFG_return_s s ≤ nth 0 s.clk.agreed k))
    if back = 0 then s
    else
      let s := { s with clk := { s.clk with
        fault := s.clk.fault - back, renewed := s.clk.renewed - back, rtcDiv := if bitN back 2 then false else s.clk.rtcDiv } }
      s.betterSource))

/-- SEL_REQ (R459): a usable source of higher priority is taken. -/
def execSelReq (v : Word) (s : State) : Host.Outcome State Fault Refusal :=
  .next (whenServing s (fun s =>
    let k := fld v 0 2
    if k < s.clk.sel ∧ s.clkUsable k then { s with clk := { s.clk with goingTo := some k } } else s))

/-! ### Power modes (R460 to R462) -/

/-- Garbage collection, a refresh move or a checkpoint is due in the staging store. -/
def State.storeBusy (s : State) : Bool := s.fss.gcOn || s.fss.jFlying || !s.fss.solo.isEmpty || !s.fss.jWait.isEmpty

/-- Every condition of R461 holds. -/
def State.idle (s : State) : Bool :=
  s.cmds.isEmpty &&
  (List.range 256).all (fun f => !(bitN (s.reg (Reg.F_RNG_CTL f)).toNat 0) || (s.getFn f).db.asleep) &&
  s.drives.all (fun r => decide (r.spin.st = .stopped) && decide (r.sled.st = .off ∨ r.sled.st = .hold) && !r.wst.opcBusy && r.wst.opcDue.isEmpty) &&
  s.arc.ready.isEmpty && s.arc.going.isEmpty && s.cal.due.isEmpty && s.cal.running.isNone && !s.storeBusy

/-- The idle time begins or ends. -/
def State.trackIdle (s : State) : State :=
  if s.idle then (if s.clk.idleSince.isNone then { s with clk := { s.clk with idleSince := some s.tm.mono } } else s)
  else { s with clk := { s.clk with idleSince := none } }

/-- SLEEP_MODE_ENTRY (R461): SLEEP, or DEEP; a sled in HOLD whose domain stops goes to OFF with homed kept. -/
def execSleepModeEntry (s : State) : Host.Outcome State Fault Refusal :=
  .next (whenServing s (fun s =>
    let s := s.trackIdle
    match s.clk.idleSince with
    | some t =>
      if Cf.CLK_PM_sleep_en s = 1 ∧ s.clk.mode = 0 ∧ t + Cf.CLK_PM_idle_ms s ≤ s.tm.mono then
        let deep := decide (Cf.CLK_PM_deep_en s = 1) && s.link.d3
        let gate := if deep then Cf.CLK_GATE_DEEP_en s else Cf.CLK_GATE_SLP_en s
        let s := { s with clk := { s.clk with mode := if deep then 2 else 1 } }
        if bitN gate 9 then s
        else forBelow 4 (fun d t => t.modSled d (fun l => if l.st = .hold then { l with st := .off, dutyA := 0, dutyB := 0, report := none } else l)) s
      else s
    | none => s))

/-- POWER_MODE_WAKE (R462). -/
def execPowerModeWake (s : State) : Host.Outcome State Fault Refusal := .next (whenRunning s (fun s => s.wakeUp))

/-! ### The frequency-measuring counter (R464) -/

/-- FMC_GO (R464). -/
def execFmcGo (v : Word) (s : State) : Host.Outcome State Fault Refusal :=
  .next (whenServing s (fun s =>
    if fld v 0 1 = 0 then s
    else if s.clk.fmcBusy then { s with clk := { s.clk with fmcRefused := true } }
    else { s with clk := { s.clk with fmcBusy := true } }))

/-- The domain of Table 14-5 that a clock of Table 14-6 belongs to. -/
def fmcDomain (k : Nat) : Option Nat :=
  if k = 5 then some 0
  else if k = 6 then some 1
  else if k = 7 then some 2
  else if 8 ≤ k ∧ k ≤ 11 then some (k - 5)
  else if 12 ≤ k ∧ k ≤ 15 then some 8
  else if 16 ≤ k ∧ k ≤ 19 then some 9
  else if k = 20 then some 11
  else if k = 21 then some 10
  else none

/-- The domain bits of the present mode. -/
def State.domains (s : State) : Nat :=
  if s.clk.mode = 0 then Cf.CLK_GATE_RUN_en s else if s.clk.mode = 1 then Cf.CLK_GATE_SLP_en s else Cf.CLK_GATE_DEEP_en s

/-- FMC_DONE (R464): the gate ends with the edges counted; a gated clock or an absent reference counts 0. DEDUCED, log entry 47. -/
def execFmcDone (count : Word) (s : State) : Host.Outcome State Fault Refusal :=
  .next (whenServing s (fun s =>
    if !s.clk.fmcBusy then s
    else
      let stopped := (match fmcDomain (Cf.CLK_FMC_CTL_clk s) with
        | some b => !bitN s.domains b
        | none => false) || (decide (Cf.CLK_FMC_CTL_ref s < 3) && !bitN s.clk.ok (Cf.CLK_FMC_CTL_ref s))
      { s with clk := { s.clk with
        fmcBusy := false, fmcDone := true, fmcGated := s.clk.fmcGated || stopped, fmcCount := if stopped then 0 else count.toNat } }))

end Sys2Proof.Machine
end

