-- ==== Sys2Proof/Machine/Clock.lean ====
section
/-!
DEFINITION. Time (spec/16, R518 to R522): the tick of 1/32,768 s, setting the clock, and the coherent read. A tick is what a step does
on an empty queue (DESIGN CHOICE, log entry 1).
-/

namespace Sys2Proof.Machine

/-- Monotonic time and the count since reset move on by `n` ticks (R522). DESIGN CHOICE, log entry 1. -/
def TimeState.pass (t : TimeState) (n : Nat) : TimeState :=
  { t with ticks := t.ticks + n, mono := t.mono + (t.monoRem + 1000 * n) / 32768, monoRem := (t.monoRem + 1000 * n) % 32768 }

/-- The staged seconds and sub-seconds. -/
def State.stagedSec (s : State) : Nat := (s.reg Reg.TIM_STG_SEC_LO).toNat + (s.reg Reg.TIM_STG_SEC_HI).toNat * 2 ^ 32
def State.stagedSub (s : State) : Nat := (s.reg Reg.TIM_STG_SUB).toNat % 32768

/-- The clock takes the staged time in place of `was`, the seconds of the wrap: it is valid from now on, a regression is reported, a jump
closes the periods it passed, and after power-on Avocet decides (R120, R121, R428, R520). DEDUCED, log entry 49. -/
def State.commitClock (s : State) (was : Nat) : State :=
  let sec := s.stagedSec
  let back := decide (sec * 32768 + s.stagedSub < was * 32768)
  let first := !s.tm.committed
  let s := { s with tm := { s.tm with
    sec := sec, sub := s.stagedSub, pending := false, late := false, valid := true, commits := inc16 s.tm.commits,
    regressed := s.tm.regressed || back, committed := true } }
  let s := s.note .clockSet (was % 2 ^ 32 + sec % 2 ^ 32 * 2 ^ 32)
  let s :=
    if back then
      let t := (s.flagPeriods pfRegression).note .timeRegressed (was % 2 ^ 32 + sec % 2 ^ 32 * 2 ^ 32)
      t.postOwn 0 6 (leBytes 8 was ++ leBytes 8 sec ++ leBytes 8 t.tm.mono)
    else s.jumpPeriods
  if first then s.coldDecision else s

/-- The wrap of the sub-seconds: a pending SET commits, except that one written less than a tick before the wrap may wait for the next, as
a free value says (R520). -/
def State.wrap (s : State) : State :=
  let was := (s.tm.sec + 1) % 2 ^ 64
  let go := s.tm.pending && (!s.tm.late || decide (s.freeVal % 2 = 1))
  let s := if s.tm.late then s.useFree else s
  if go then s.commitClock was else { s with tm := { s.tm with sec := was, sub := 0, late := false } }

/-- One tick. Time stands still only while power-on reset is held. DESIGN CHOICE, log entry 1. -/
def tick (s : State) : State :=
  if s.hlt.porHeld then s
  else
    let s := { s with tm := s.tm.pass 1 }
    (if s.tm.sub = 32767 then s.wrap else { s with tm := { s.tm with sub := s.tm.sub + 1 } }).trackIdle

/-- TIM_SEC_LO_READ (R519): the live low seconds; the high seconds and the sub-seconds of the same tick are latched for PF BAR2. -/
def execTimSecLoRead (s : State) : Host.Outcome State Fault Refusal :=
  .next (whenServing s (fun s =>
    let hi : Word := BitVec.ofNat 32 (s.tm.sec / 2 ^ 32)
    let sub : Word := BitVec.ofNat 32 s.tm.sub
    ({ s with latches := Bank.set latchDef (Bank.set latchDef s.latches Reg.TIM_SEC_HI (some hi)) Reg.TIM_SUB (some sub) }).emitCpl
      (.readData 0 Reg.TIM_SEC_LO (leBytes 4 s.tm.sec))))

/-- SET (R520): one that finds another pending is discarded and counted. -/
def execSetClock (s : State) : Host.Outcome State Fault Refusal :=
  .next (whenServing s (fun s =>
    if s.tm.pending then s.accError 0 1 Reg.TIM_CMD
    else { s with tm := { s.tm with pending := true, late := decide (s.tm.sub = 32767) } }))

/-- A pending SET is cancelled. -/
def State.cancelSet (s : State) : State := { s with tm := { s.tm with pending := false, late := false } }

/-- CANCEL (R520). -/
def execCancel (s : State) : Host.Outcome State Fault Refusal := .next (whenServing s (fun s => s.cancelSet))

/-- CLOCK_COMMIT (R520): the rest of the second passes, and at its wrap the staged time is taken. DESIGN CHOICE, log entry 1. -/
def execClockCommit (s : State) : Host.Outcome State Fault Refusal :=
  .next (whenRunning s (fun s =>
    if s.tm.pending then
      let s := { s with tm := s.tm.pass (32768 - s.tm.sub) }
      s.commitClock ((s.tm.sec + 1) % 2 ^ 64)
    else s))

end Sys2Proof.Machine
end

