-- ==== Sys2Proof/Machine/Sets.lean ====
section
/-!
DEFINITION. Stripe sets (spec/08, R299 to R306): STRIPE_LOAD with the load scan, STRIPE_FINALIZE and STRIPE_REBUILD.
-/

namespace Sys2Proof.Machine

/-! ### Loading (R299 to R301) -/

/-- What a drive shows at a load: its examination where it holds a disc with its covers shut and the disc is write-once of 1 or 2 layers. -/
def State.examined (s : State) (discs : List (Option DiscExam)) (d : Nat) : Option DiscExam :=
  if s.hasDisc d then
    (match nth none discs d with
     | some e => if e.writeOnce && decide (1 ≤ e.layers ∧ e.layers ≤ 2) then some e else none
     | none => none)
  else none

/-- The set identity that at least three discs name. -/
def State.foundSet (s : State) (discs : List (Option DiscExam)) : Option SidBody :=
  let l := (List.range 4).filterMap (fun d => match s.examined discs d with
    | some e => e.sid
    | none => none)
  l.find? (fun a => decide (3 ≤ (l.filter (fun b => b.setId = a.setId)).length))

/-- Four blank discs of the same layer count, each long enough (Table 08-12). -/
def State.fourBlank (s : State) (discs : List (Option DiscExam)) : Option Nat :=
  match s.examined discs 0 with
  | some e0 =>
    if (List.range 4).all (fun d => match s.examined discs d with
      | some e => e.blank && e.long && decide (e.layers = e0.layers)
      | none => false) then some e0.layers else none
  | none => none

/-- A set is loaded and has an active segment or a stripe in recording. -/
def State.setBusy (s : State) : Bool :=
  s.arc.loaded && (!s.arc.active.isEmpty || !s.arc.part.isEmpty || !s.arc.ready.isEmpty || !s.arc.going.isEmpty)

/-- The parts of every drive that a load sets: counters of Table 09-6, axes back with Heron and out of FAIL (R350, Table 10-2), the anchor of the sled (R407), the
OPC that falls due (R334). -/
def State.loadDrives (s : State) (discs : List (Option DiscExam)) (layers : Nat) (same : Bool) : State :=
  forBelow 4 (fun d t =>
    let e := t.examined discs d
    let due := if t.setWritable && (t.posOf d).isSome then List.range layers else []
    t.modDrive d (fun r => { r with
      ax := r.ax.map (fun x => { x with manual := false, st := if x.st = .fail then .opened else x.st }),
      sled := { r.sled with anchored := false },
      rdc := { r.rdc with inferred := 0, shifted := 0, unsync := 0, realigned := 0, readFail := 0, vfyFail := 0, idErr := 0, rfLoss := 0,
                          ovr := 0, decoded := none, retry := 0, rx := { r.rdc.rx with pba := none } },
      wst := (match e with
        | some e => { r.wst with
            pca := e.pca, pcaFull := false, opcDue := due, last := [],
            opc := r.wst.opc.map (fun o => { o with kept := o.kept && same, pind := e.pind }) }
        | none => { r.wst with opcDue := [], last := [] }) })) s

/-- A load lets items that failed be tried again, and makes the items of a media load due for every drive of the set (Table 13-2, R438). -/
def State.loadItems (s : State) : State :=
  let s := { s with cal := { s.cal with items := Bank.mapVals calItemDef s.cal.items (fun x => { x with inRow := 0 }) } }
  forEach s.setDrives (fun d t => (((t.calFallsDue 4 d).calFallsDue 5 d).calFallsDue 6 d).calFallsDue 7 d) s

/-- The old set's pending entries are written while its discs are present, and otherwise discarded. -/
def State.leaveSet (s : State) (discs : List (Option DiscExam)) : State :=
  let here := s.setDrives.all (fun d => match s.examined discs d with
    | some e => (match e.sid with
      | some x => decide (x.setId = s.arc.setId)
      | none => false)
    | none => false)
  if s.arc.loaded && here && !s.arc.finalised && !s.setDrives.isEmpty then s.writePending 0 else s

/-- Drives that hold blank discs. -/
def State.blanks (s : State) (discs : List (Option DiscExam)) : List Bool :=
  (List.range 4).map (fun d => match s.examined discs d with
    | some e => e.blank
    | none => false)

/-- A new set on four blank discs: its SIDs are written, each position equal to the drive number. DESIGN CHOICE, log entry 39. -/
def State.initSet (s : State) (discs : List (Option DiscExam)) (layers fails : Nat) : State :=
  let id := 1 + s.freeVal % (2 ^ 64 - 1)
  let s := s.useFree
  let keep := s.arc
  let s := { s with arc := { ArcState.reset with
    loaded := true, setId := id, layers := layers, pos := [some 0, some 1, some 2, some 3], total := 524288 * layers, named := id,
    reads := keep.reads } }
  let body := s.sidBody 0
  let s := (s.writeStruct 4 body fails).getD s.setIsFull
  ((s.loadDrives discs layers false).loadItems.journalRecord 0).noteWaiting

/-- The runs of a scanned stripe's verified blocks. -/
def scanRuns (t : ScanStripe) : List SrRun :=
  (t.blocks.zipIdx).filterMap (fun e =>
    if e.1.kind = 1 then some ⟨e.1.inst, e.1.idx = 0, e.1.last, 1, e.1.seg, e.1.idx, 3 * t.num + e.2⟩ else none)

/-- Runs that follow each other in one segment and in the data slots are one run of at most 96. -/
def joinRuns : List SrRun → List SrRun
  | [] => []
  | r :: l =>
    match joinRuns l with
    | x :: rest =>
      if r.seg = x.seg ∧ r.idx + r.len = x.idx ∧ r.slot + r.len = x.slot ∧ r.len + x.len ≤ 96 then
        { r with len := r.len + x.len, last := x.last } :: rest
      else r :: x :: rest
    | [] => [r]

/-- The block belongs to the present life of its instance (R284). -/
def State.presentLife (s : State) (i seg : Nat) : Bool := decide ((s.getInst i).firstSeg ≠ 0 ∧ (s.getInst i).firstSeg ≤ seg)

/-- What a whole scanned stripe adds (R300 step 3). -/
def State.scanWhole (s : State) (t : ScanStripe) : State :=
  let moved := decide (t.pba ≠ stripePba t.num)
  let s := { s with arc := { s.arc with
    pend := s.arc.pend ++ scanRuns t,
    rl := if moved then addRl s.arc.rl (stripePba t.num) t.pba else s.arc.rl,
    pendRl := if moved then addRl s.arc.pendRl (stripePba t.num) t.pba else s.arc.pendRl,
    degraded := if t.on.length < 4 then t.num :: s.arc.degraded else s.arc.degraded,
    sinceSr := s.arc.sinceSr + 1, pendSince := s.tm.mono } }
  forEach (t.blocks.filter (fun b => b.kind = 1)) (fun b u =>
    let u := { u with arc := { u.arc with fr := frAdd u.arc.fr ⟨1, b.inst, b.seg, b.idx, b.seq, List.replicate 32 0 ++ leBytes 16 b.digest⟩ } }
    let u := if b.last then u.modSeg b.seg (fun g => { g with chain := b.digest, setId := u.arc.setId }) else u
    if u.presentLife b.inst b.seg then u.verifiedTo b.inst b.seq b.next else u) s

/-- A block of a partly recorded stripe is formatted again from its pinned segment, with a new sequence number (R37, R194).
DESIGN CHOICE, log entry 39. -/
def State.reformat (s : State) (b : BlockId) : ArcBlock × State :=
  match (if b.kind = 1 then s.findSeg b.seg else none) with
  | some g =>
    (match s.formatBlock g b.idx [] with
     | (some (x, _), s) => (x, s)
     | (none, s) => (fillerBlock, s))
  | none => (fillerBlock, s)

/-- A stripe found partly recorded or unverified is recorded again whole at a spare (R294, R300). DESIGN CHOICE, log entry 39. -/
def State.scanPart (s : State) (t : ScanStripe) : State :=
  let (bs, s) := t.blocks.foldl (fun (a : List ArcBlock × State) b => let r := a.2.reformat b; (a.1 ++ [r.1], r.2)) ([], s)
  let home := stripePba t.num
  match s.nextSpare home with
  | none => s.setIsFull
  | some (l, z, pba) =>
    let key := l * 40 + z
    let x : Stripe := { num := t.num, blocks := bs, home := home, pba := pba, on := [], ok := [], bad := false, open_ := [] }
    let runs := (bs.zipIdx).filterMap (fun e =>
      if e.1.kind = 1 then
        some (⟨e.1.inst, e.1.idx = 0, decide ((s.findSeg e.1.seg).map (fun g => g.blocks) = some (e.1.idx + 1)), 1, e.1.seg, e.1.idx,
               3 * t.num + e.2⟩ : SrRun)
      else none)
    { s with arc := { s.arc with
      ready := s.arc.ready ++ [x], pend := s.arc.pend ++ runs, replaced := inc16 s.arc.replaced,
      spare := Bank.set natDef s.arc.spare key (Bank.get natDef s.arc.spare key + 1) } }

/-- Blocks of a segment in complete stripes of the set. -/
def State.blocksOn (s : State) (num : Nat) : List Nat :=
  (((s.arc.index ++ s.runsDone).filter (fun r => r.seg = num)).foldl (fun a r =>
    a ++ (List.range r.len).map (fun k => r.idx + k)) []).eraseDups

/-- The last blocks that the SR covers continue the chain of their instances, where the set carries blocks of the present life (R37). -/
def State.coveredChains (s : State) (fr : List (Nat × Nat × Nat × Nat × Nat)) : State :=
  forEach fr (fun e t =>
    if t.arc.index.any (fun r => decide (r.inst = e.1) && t.presentLife e.1 r.seg) then t.verifiedTo e.1 e.2.1 e.2.2.2.2 else t) s

/-- At the first load after a start-up, each chain goes on from the last verified block (R37, R39). -/
def State.resumeChains (s : State) : State :=
  if s.arc.chainsDue then { s with inst := Bank.mapVals instDef s.inst (fun r => { r with chain := r.chainOk }) } else s

/-- The queued segments take up where the set shows them: blocks verified and formatted; one wholly verified leaves the queue.
DEDUCED, log entry 38. -/
def State.resumeSegs (s : State) : State :=
  s.mapSegs (fun g =>
    if g.holding then
      let l := s.blocksOn g.num
      { g with verified := l, formatted := 0, active := decide (l.length = g.blocks ∧ l ≠ []),
               setId := if l.isEmpty then g.setId else s.arc.setId }
    else g)

/-- A set that three or four discs name is taken over (R300). -/
def State.takeSet (s : State) (discs : List (Option DiscExam)) (sid : SidBody) (e : SetExam) : State :=
  let same := decide (s.arc.setId = sid.setId)
  let keep := s.arc
  let pos := (List.range 4).map (fun d => match s.examined discs d with
    | some x => (match x.sid with
      | some b => if b.setId = sid.setId then some b.pos.val else none
      | none => none)
    | none => none)
  let lastOne := (e.scan.map (fun t => t.num + 1)).foldl max e.covered
  let s : State := { s with arc := { ArcState.reset with
    loaded := true, setId := sid.setId, layers := sid.layers, pos := pos, blank := s.blanks discs, finalised := e.finalised,
    total := sid.stripes, next := lastOne, form := lastOne, session := (e.session + 1) % 65536, index := e.runs, rl := e.rl,
    covered := e.covered, srSeq := e.srSeq, rlSeq := e.rlSeq, srUsed := e.srUsed, rlUsed := e.rlUsed, sidUsed := e.sidUsed,
    spare := e.spare.foldl (fun b x => Bank.set natDef b x.1 x.2) [], named := sid.setId, chainsDue := keep.chainsDue,
    fr := e.fr.map (fun x => ⟨x.1, x.2.1, x.2.2.1, x.2.2.2.1⟩), copies := e.copies, reads := keep.reads } }
  let s : State := s.areasFill
  let s := forEach (e.scan.filter (fun t => t.whole)) (fun t u => u.scanWhole t) s
  let s := (s.coveredChains e.fr).resumeChains
  let s := { s with arc := { s.arc with pend := joinRuns s.arc.pend, chainsDue := false } }
  let s := s.resumeSegs
  let s := if s.setWritable then forEach (e.scan.filter (fun t => !t.whole)) (fun t u => if u.arc.full then u else u.scanPart t) s else s
  ((s.loadDrives discs sid.layers same).loadItems.journalRecord 0).noteWaiting

/-- The outcomes of Table 08-12 in order: the status and result, and the block after. -/
def State.loadSet (s : State) (arg0 : Nat) (init : Bool) (discs : List (Option DiscExam)) (e : SetExam) (fails : Nat) : Nat × Nat × State :=
  if s.setBusy then (stBusy, 0, s)
  else if init then
    match s.fourBlank discs with
    | some l =>
      let t := (s.leaveSet discs).initSet discs l fails
      (stSuccess, t.arc.setId, t)
    | none => (stState, (s.getInst 0).state.code, s)
  else
    match s.foundSet discs with
    | none => (stAbsent, arg0, s)
    | some sid =>
      if arg0 ≠ 0 ∧ arg0 ≠ sid.setId then (stAbsent, arg0, s)
      else if sid.digest ≠ Config.deviceDigest ∨ sid.rootSlot ≠ s.sea.slot then (stMedia, mediaResult 0 1, s.note .foreignSet sid.setId)
      else (stSuccess, sid.setId, (s.leaveSet discs).takeSet discs sid e)

/-- STRIPE_LOAD (R299, R300): what the drives show and, for an existing set, what its structures and the scan show. -/
def execStripeLoad (id : Nat) (discs : List (Option DiscExam)) (set : SetExam) (fails : Nat) (s : State) : Host.Outcome State Fault Refusal :=
  .next (withCmd id .load s (fun c s =>
    let r := s.loadSet (eArg0 c.entry) (decide (eByte c.entry 44 = 1)) discs set fails
    (r.2.2.complete c r.1 r.2.1 false).settle))

/-- Every drive with a disc qualified present holds spindle lock (R485). -/
def State.drivesLocked (s : State) : Bool := (List.range 4).all (fun d => !s.hasDisc d || (s.drive d).spin.locked)

/-- STARTUP_SET_RELOAD (R485): once the drives hold spindle lock, the set named in instance 0's record is loaded as STRIPE_LOAD would;
another outcome is logged. A record that names no set asks for no load. DEDUCED, log entry 38. -/
def execStartupSetReload (discs : List (Option DiscExam)) (set : SetExam) (s : State) : Host.Outcome State Fault Refusal :=
  .next (whenServing s (fun s =>
    if !s.arc.reloadDue || !s.drivesLocked then s
    else if s.arc.named = 0 then { s with arc := { s.arc with reloadDue := false } }
    else
      let s := { s with arc := { s.arc with reloadDue := false } }
      let r := s.loadSet s.arc.named false discs set 0
      (if r.1 = stSuccess then r.2.2 else (r.2.2.note .setLoadFailed r.1).noteWaiting).settle))

/-! ### Finalisation (R302) -/

/-- The last step: pending entries, then the FR. -/
def State.writeFr (s : State) (c : Cmd) (fails : Nat) : State :=
  let s := s.writePending 0
  let body := s.frBody
  match s.writeStruct 7 (fun _ => body) fails with
  | some s => { s with arc := { s.arc with finalised := true, closing := false } }.complete c stSuccess 0 false
  | none => { s with arc := { s.arc with closing := false } }.complete c stMedia (mediaResult 0 1) false

/-- A finalisation goes on: active segments first, then the last stripe is filled, then the structures. -/
def State.goFinalize (s : State) (c : Cmd) (fails : Nat) : State :=
  if s.arc.full && decide (c.aux = 0) then { s with arc := { s.arc with closing := false } }.complete c stMedia (mediaResult 0 1) false
  else if !s.arc.active.isEmpty then s
  else if !s.arc.part.isEmpty then s.fillStripe
  else if !s.arc.ready.isEmpty || !s.arc.going.isEmpty then s
  else s.writeFr c fails

/-- STRIPE_FINALIZE (R302): it stops admission, and is tried again until every active segment is recorded. -/
def execStripeFinalize (id fails : Nat) (s : State) : Host.Outcome State Fault Refusal :=
  .next (whenServing s (fun s =>
    match s.findCmd id with
    | none => s
    | some c =>
      if eOp c.entry ≠ some .finalize then s
      else if c.stage = .media then ((s.goFinalize c fails).noteWaiting).settle
      else if !c.ready then s
      else if !s.arc.loaded || decide (s.arc.setId ≠ eArg0 c.entry) then s.complete c stAbsent (eArg0 c.entry) false
      else if s.arc.finalised || (!s.setWritable && !s.arc.full) then s.complete c stState (s.getInst 0).state.code false
      else
        let c := { c with stage := .media, aux := b2n s.arc.full }
        (((({ s with arc := { s.arc with closing := true } }).setCmd c).goFinalize c fails).noteWaiting).settle))

/-! ### Rebuild (R306) -/

/-- The position that no drive holds. -/
def State.missingPos (s : State) : Nat := ((List.range 4).find? (fun p => (s.driveAt p).isNone)).getD 0

/-- The PBA at which a stripe stands: its newest replacement's, or its home (R296). -/
def State.stripeAt (s : State) (n : Nat) : Nat :=
  match s.arc.rl.find? (fun e => e.1 = stripePba n) with
  | some e => e.2
  | none => stripePba n

/-- One structure is written on drive `d` alone, at slot `k` of its area on every layer. -/
def State.structOn (s : State) (d p kind k : Nat) (body : List Byte) : State :=
  forBelow s.arc.layers (fun l u =>
    let pba := l * 2 ^ 20 + setArea l + areaStart kind + k
    let u := u.emit (.slot d pba (blockContent body
      { setId := u.arc.setId, pos := p, kind := kind, pba := pba, stripe := 0xFFFFFFFF, home := pba, session := u.arc.session, j := 0 }) (u.shapes d))
    { u with arc := { u.arc with structs := add16 u.arc.structs 1 } }) s

/-- The structures of the new disc: the SID of the missing position, then those of the other discs, each at its slot (R297, R306). -/
def State.rebuildStructs (s : State) (d p rebuilds : Nat) : State :=
  let s := s.structOn d p 4 (s.arc.sidUsed - 1) (s.sidBody rebuilds p)
  forEach s.arc.copies (fun c t => t.structOn d p c.1 c.2.1 c.2.2) s

/-- The blank disc that the command names is usable: layers and length as the set's (R275). -/
def State.rebuildOk (s : State) (id d : Nat) (disc : Option DiscExam) : Bool :=
  s.arc.loaded && decide (s.arc.setId = id) && decide (s.setDrives.length = 3) && (s.posOf d).isNone && s.hasDisc d &&
    (match disc with
     | some e => e.writeOnce && e.blank && e.long && decide (e.layers = s.arc.layers)
     | none => false)

/-- One stripe of the rebuild: the missing block from the three present ones, or a lost stripe. DESIGN CHOICE, log entry 39. -/
def State.rebuildStripe (s : State) (d p n : Nat) (l : List (Option (List Byte))) : State :=
  let bodies := l.filterMap (fun b => b)
  if bodies.length < 3 then { s with arc := { s.arc with lost := inc16 s.arc.lost, degraded := if s.arc.degraded.contains n then s.arc.degraded else n :: s.arc.degraded } }.note .stripeLost n
  else
    let body := parityBody bodies
    let pba := s.stripeAt n
    let kind := match blockAt n p with
      | none => 2
      | some _ => if leAt body 0 1 = 1 then 1 else 3
    let j := if kind = 1 then (blockAt n p).getD 0 else 0
    let s := s.emit (.slot d pba (blockContent body
      { setId := s.arc.setId, pos := p, kind := kind, pba := pba, stripe := n, home := stripePba n, session := s.arc.session, j := j }) (s.shapes d))
    { s with arc := { s.arc with degraded := s.arc.degraded.filter (fun x => x ≠ n), redone := s.arc.redone + 1 } }

/-- The first stripe from `n` on that does not wait to be recorded. -/
def State.pastReady (s : State) (n : Nat) : Nat :=
  ((List.range (s.arc.ready.length + 1)).find? (fun k => !s.arc.ready.any (fun t => t.num = n + k))).getD 0 + n

/-- Recorded stripes are rebuilt in ascending order from `n` on, while reads are at hand; a stripe in recording is waited for. The next
stripe, and the block after. -/
def State.rebuildStripes (d p : Nat) : List (List (Option (List Byte))) → Nat → State → Nat × State
  | [], n, s => (s.pastReady n, s)
  | l :: r, n, s =>
    let n := s.pastReady n
    if s.arc.form ≤ n ∨ s.arc.going.any (fun t => t.num = n) then (n, s)
    else State.rebuildStripes d p r (n + 1) (s.rebuildStripe d p n l)

/-- The rebuild ends: the drive holds the position; segments with a lost stripe are logged and stay pinned. -/
def State.endRebuild (s : State) (c : Cmd) (d p : Nat) : State :=
  let s := { s with arc := { s.arc with rebuilding := false, pos := modNth (fun _ => some p) s.arc.pos d, blank := modNth (fun _ => false) s.arc.blank d } }
  let s := forEach (s.fss.segs.filter (fun g => g.holding && (List.range g.blocks).all (fun k => g.verified.contains k) && !s.segVerified g)) (fun g t => t.note .segmentHeld g.num) s
  s.complete c stSuccess (s.arc.redone + s.arc.lost * 2 ^ 32) false

/-- STRIPE_REBUILD (R306): the first time the disc is examined and the structures are written; then stripes follow in ascending order,
each with the three present bodies as they were read, until the last recorded one. Archiving waits: no stripe begins, and one in
recording ends first. -/
def execStripeRebuild (id : Nat) (disc : Option DiscExam) (rebuilds : Nat) (reads : List (List (Option (List Byte)))) (s : State) :
    Host.Outcome State Fault Refusal :=
  .next (whenServing s (fun s =>
    match s.findCmd id with
    | none => s
    | some c =>
      let d := eByte c.entry 44
      if eOp c.entry ≠ some .rebuild then s
      else if c.stage = .media then
        let p := s.missingPos
        let (n, s) := State.rebuildStripes d p reads c.aux s
        let c := { c with aux := n }
        if s.arc.form ≤ n ∧ s.arc.going.isEmpty then ((s.setCmd c).endRebuild c d p).noteWaiting.settle else s.setCmd c
      else if !c.ready then s
      else if !s.rebuildOk (eArg0 c.entry) d disc then s.complete c stState (s.getInst 0).state.code false
      else
        let s := { s with arc := { s.arc with rebuilding := true, lost := 0, redone := 0 } }
        (s.rebuildStructs d s.missingPos (rebuilds + 1)).setCmd { c with stage := .media, aux := 0 }))

end Sys2Proof.Machine
end

