-- ==== Sys2Proof/Machine/ArcRead.lean ====
section
/-!
DEFINITION. Reading archive blocks back (spec/01, R30; spec/04, R143, R152; spec/05, R196, R204, R206; spec/08, R303, R304; spec/09,
R326): ARCHIVE_READ and VERIFY, the decode of a wanted slot, its retries, the rebuild from the stripe, and IDENTIFY.
-/

namespace Sys2Proof.Machine

/-! ### Locating (R303, R304) -/

/-- The data slot of a block. -/
def State.slotOf (s : State) (seg blk : Nat) : Option Nat :=
  ((s.segRuns seg).find? (fun r => decide (r.idx ≤ blk ∧ blk < r.idx + r.len))).map (fun r => r.slot + (blk - r.idx))

/-- The status from the runs that the loaded set shows of a segment. -/
def State.runStatus (s : State) (i seg first n : Nat) : Option (Nat × Nat) :=
  let l := s.segRuns seg
  if l.any (fun r => r.inst ≠ i) then some (stNotFound, 0)
  else if l.any (fun r => r.last && decide (r.idx + r.len < first + n)) then some (stRange, 0)
  else if (List.range n).any (fun k => (s.slotOf seg (first + k)).isNone) then some (stNotFound, 0)
  else none

/-- The commit record of an instance no longer reaches back to a segment: it keeps 1024 archived ones (R162), all numbered higher. -/
def State.olderThanRecord (s : State) (i seg : Nat) : Bool :=
  let l := (s.getInst i).commits
  decide (1024 ≤ (l.filter (fun c => c.archived)).length) && l.all (fun c => decide (seg < c.seg))

/-- The status of Table 04-9 that a read of `n` blocks from `first` on meets before any block is read, with its result (R152, R304). The set of a
segment that no record names is a free value. DEDUCED, log entry 37. DESIGN CHOICE, log entry 4. -/
def State.arcStatus (s : State) (i seg first n : Nat) : Option (Nat × Nat) :=
  let own := (s.getInst i).firstSeg
  if own = 0 ∨ seg < own then some (stNotFound, 0)
  else
    match s.findSeg seg with
    | some g =>
      if g.inst ≠ i then some (stNotFound, 0)
      else if g.holding then some (stNotArchived, 0)
      else if s.arc.loaded && decide (g.setId = s.arc.setId) then s.runStatus i seg first n
      else some (stAbsent, g.setId)
    | none =>
      if s.arc.loaded && !(s.segRuns seg).isEmpty then s.runStatus i seg first n
      else
        match (s.getInst i).commits.find? (fun c => c.seg = seg ∧ c.archived) with
        | some c => if s.arc.loaded && decide (c.setId = s.arc.setId) then some (stNotFound, 0) else some (stAbsent, c.setId)
        | none => if s.olderThanRecord i seg || !s.arc.loaded then some (stAbsent, s.freeVal) else some (stNotFound, 0)

/-- The drive that can give a position of a stripe, unless its FOC is in FAIL (R360) or the location is quarantined (R204). -/
def State.readDrive (s : State) (stripe pos : Nat) : Option Nat :=
  match s.driveAt pos with
  | some d => if s.hasDisc d && decide ((s.axis (axisOf d 0)).st ≠ .fail) && !s.discQuarantined s.arc.setId d (s.stripeAt stripe) then some d else none
  | none => none

/-- The greatest of some numbers. -/
def greatest : List Nat → Option Nat
  | [] => none
  | a :: r => some (r.foldl max a)

/-- The predecessor of block `first` of a segment in the chain of its instance: segment, block, and whether the commit record names it;
else the instance's greatest lower segment on the loaded set (R195, R196). DESIGN CHOICE, log entry 39. -/
def State.predecessor (s : State) (i seg first : Nat) : Option (Nat × Nat × Bool) :=
  let mine (n : Nat) : Bool := decide (n < seg ∧ (s.getInst i).firstSeg ≤ n)
  let last (p : Nat) : Nat := ((s.segRuns p).map (fun r => r.idx + r.len)).foldl max 1 - 1
  if 0 < first then some (seg, first - 1, true)
  else
    match greatest (((s.getInst i).commits.map (fun c => c.seg)).filter mine) with
    | some p => some (p, last p, true)
    | none =>
      (greatest (((s.runsDone ++ s.arc.index).filter (fun r => decide (r.inst = i) && mine r.seg)).map (fun r => r.seg))).map
        (fun p => (p, last p, false))

/-- A block wanted by a command, at a data slot. -/
def wantBlock (cmd : Nat) (idx : Option Nat) (i seg blk slot : Nat) (sure : Bool) : ArcRead :=
  let stripe := slot / 3
  let pos := dataPos stripe (slot % 3)
  { cmd := cmd, idx := idx, inst := i, seg := seg, blk := blk, stripe := stripe, pos := pos, parts := [⟨pos, false, none⟩],
    tagBad := false, fin := .waits, body := [], sure := sure }

/-- Heron brings a drive that stands free, and that no calibration item uses, to a slot of its layer (R362, R397, R437). -/
def State.approach (s : State) (d pba : Nat) : State :=
  let s := s.touchDrive d
  let r := s.drive d
  if !s.calUses d ∧ (r.axis 1).st = .closed ∧ (r.axis 1).manual = false ∧ r.seq = .none ∧ r.layer = pbaLayer pba ∧ r.wst.burst = none then
    (s.modDrive d (fun r => { r with target := pbaWobble pba, failed := 0 })).seek d false
  else s

/-- The drives that parts wait for are brought to them. -/
def State.approachAll (s : State) : State :=
  forBelow 4 (fun d t =>
    match t.arc.reads.find? (fun r => r.parts.any (fun p => !p.ended && decide (t.readDrive r.stripe p.pos = some d))) with
    | some r => t.approach d (t.stripeAt r.stripe)
    | none => t) s

/-! ### Judging a block (R196, R206, R303, Table 05-5) -/

/-- The header that a body carries names the wanted block. -/
def headerNames (body : List Byte) (r : ArcRead) : Bool :=
  decide (leAt body 0 1 = 1 ∧ leAt body 1 1 = r.inst ∧ leAt body 4 4 = r.seg ∧ leAt body 30 2 = r.blk)

/-- User data of a body, and the check of its tag under an instance key (R193). -/
def openBlock (key : Nat) (body : List Byte) : List Byte := gcmText key (leNat (nonce 2 (leAt body 8 8))) (slice body 64 32768)
def tagPasses (key : Nat) (body : List Byte) : Bool :=
  decide (leAt body 48 16 = Config.gcmTag key (leNat (nonce 2 (leAt body 8 8))) (body.take 48) (openBlock key body) % 2 ^ 128)

/-- Serial of an instance's key. -/
def State.keyOf (s : State) (i : Nat) : Nat := (s.getInst i).keySerial.getD 0

/-- A part that no drive can give has ended. -/
def State.endPart (s : State) (stripe : Nat) (p : ArcPart) : ArcPart :=
  if !p.ended && (s.readDrive stripe p.pos).isNone then { p with ended := true } else p

/-- The read after its own block failed: the three others are wanted. -/
def State.wantOthers (s : State) (r : ArcRead) (tagBad : Bool) : ArcRead :=
  { r with tagBad := tagBad,
           parts := r.parts ++ (((List.range 4).filter (fun p => p ≠ r.pos)).map (fun p => s.endPart r.stripe ⟨p, false, none⟩)) }

/-- A read whose parts have all ended is judged; `s` is the block before, the halt and the counters are in the answer. -/
def State.judge (s : State) (r : ArcRead) : ArcRead × State :=
  let r := { r with parts := r.parts.map (s.endPart r.stripe) }
  if r.fin ≠ .waits ∨ r.parts.any (fun p => !p.ended) then (r, s)
  else
    match r.parts with
    | [p] =>
      (match p.content with
       | some c =>
         let body := c.take 32832
         if !headerNames body r then (s.wantOthers r false, s)
         else if tagPasses (s.keyOf r.inst) body then ({ r with fin := .good, body := body }, s)
         else (s.wantOthers r true, s)
       | none => (s.wantOthers r false, s))
    | l =>
      let others := (l.drop 1).filterMap (fun p => p.content)
      if others.length < 3 then ({ r with fin := .lost }, s)
      else
        let body := parityBody (others.map (fun c => c.take 32832))
        if headerNames body r && tagPasses (s.keyOf r.inst) body then
          let s := if r.tagBad then { s with sea := { s.sea with repairArc := inc16 s.sea.repairArc } } else s
          ({ r with fin := .rebuilt, body := body },
           ({ s with arc := { s.arc with rebuilt := inc16 s.arc.rebuilt } }).logEv .blockRebuilt (some (BitVec.ofNat 8 r.inst)) (s.stripeAt r.stripe))
        else if r.tagBad then
          let d := (s.driveAt r.pos).getD 0
          ({ r with fin := .lost },
           s.haltBy (.arcTag ⟨d % 4, Nat.mod_lt _ (by decide)⟩ (BitVec.ofNat 56 (s.stripeAt r.stripe)) (BitVec.ofNat 8 r.inst)))
        else ({ r with fin := .lost }, s)

/-- Every read is judged once. -/
def State.judgeAll (s : State) : State :=
  let (l, t) := s.arc.reads.foldl (fun (a : List ArcRead × State) r => let x := a.2.judge r; (a.1 ++ [x.1], x.2)) ([], s)
  { t with arc := { t.arc with reads := l } }

/-! ### The chain and the end of a command -/

/-- The first read in order whose link does not match the block before it among the blocks read: the later block of the broken link is the one
that the halt names (R200, R204). DESIGN CHOICE, log entry 39. -/
def brokenLink : List ArcRead → Option ArcRead
  | [] => none
  | [_] => none
  | a :: b :: l =>
    let known (r : ArcRead) : Bool := decide (r.fin = .good ∨ r.fin = .rebuilt)
    if known a && known b && decide (leAt b.body 32 16 ≠ headerDigest a.body) then some b else brokenLink (b :: l)

/-- The bytes that ARCHIVE_READ gives for a block: its header and its user data. -/
def State.blockOut (s : State) (r : ArcRead) : List Byte :=
  if r.fin = .lost then List.replicate 32832 0 else r.body.take 64 ++ openBlock (s.keyOf r.inst) r.body

/-- Units that the header of a block counts. -/
def unitsOf (r : ArcRead) : Nat := if r.fin = .lost then 0 else leAt r.body 3 1

/-- A block read as the predecessor, which no record names and whose header the first block's link does not match, is not its predecessor:
that lies elsewhere (R196). DESIGN CHOICE, log entry 39. -/
def strayPredecessor (l : List ArcRead) : Bool :=
  match l with
  | a :: b :: _ => !a.sure && (brokenLink [a, b]).isSome
  | _ => false

/-- A command whose blocks are all settled ends. -/
def State.endArc (s : State) (c : Cmd) : State :=
  let l := s.arc.reads.filter (fun r => r.cmd = c.id)
  let drop (t : State) : State := { t with arc := { t.arc with reads := t.arc.reads.filter (fun r => r.cmd ≠ c.id) } }
  if !s.arc.loaded || decide (s.arc.setId ≠ c.aux) then (drop s).complete c stAbsent c.aux false
  else if l.any (fun r => r.fin = .waits) then s
  else
    let stray := strayPredecessor l
    let s := if stray then s.logEv .linkUnchecked (some c.fn) (eArg0 c.entry % 2 ^ 32) else s
    match brokenLink (if stray then l.drop 1 else l) with
    | some r =>
      let d := (s.driveAt r.pos).getD 0
      s.haltBy (.arcTag ⟨d % 4, Nat.mod_lt _ (by decide)⟩ (BitVec.ofNat 56 (s.stripeAt r.stripe)) c.fn)
    | none =>
      let own := l.filter (fun r => r.idx.isSome)
      let reb := (own.filter (fun r => r.fin = .rebuilt)).length
      let lost := own.find? (fun r => r.fin = .lost)
      let n := own.foldl (fun a r => a + unitsOf r) 0
      if eOp c.entry = some .verify then
        let s := (drop s).count c.fn.toNat (fun m => { m with verifyBlocks := m.verifyBlocks + own.length })
        (match lost with
         | some r => s.complete c stMedia (mediaResult (r.idx.getD 0) 1) (decide (0 < reb))
         | none => s.complete c stSuccess (reb + own.length * 2 ^ 32) (decide (0 < reb)))
      else if !s.canWrite c.fn.toNat then s
      else
        let s := s.writeOut c (own.foldl (fun a r => a ++ s.blockOut r) [])
        let s := (drop s).count c.fn.toNat (fun m => { m with bytesArchiveRead := m.bytesArchiveRead + n * 4096 })
        (match lost with
         | some r => s.complete c stMedia (mediaResult (r.idx.getD 0) 1) (decide (0 < reb))
         | none => s.complete c stSuccess reb (decide (0 < reb)))

/-- Reads of commands that are gone are dropped; what can be settled is settled, twice since a failed block wants three more. -/
def State.settleArc (s : State) : State :=
  let s := { s with arc := { s.arc with reads := s.arc.reads.filter (fun r => s.cmds.any (fun c => decide (c.id = r.cmd ∧ c.stage = Stage.media))) } }
  let s := s.judgeAll.judgeAll
  forEach (s.cmds.filter (fun c => decide ((eOp c.entry = some .arcRead ∨ eOp c.entry = some .verify) ∧ c.stage = Stage.media)))
    (fun c t => if t.running then t.endArc c else t) s

/-! ### The commands -/

/-- The blocks that a started command wants: for VERIFY the predecessor first, when the set holds it. -/
def State.planArc (s : State) (c : Cmd) : State :=
  let i := c.fn.toNat
  let seg := eArg0 c.entry % 2 ^ 32
  let first := eArg0 c.entry / 2 ^ 32
  let n := eArg1 c.entry
  match s.arcStatus i seg first n with
  | some (st, res) => (if st = stAbsent then s.useFree else s).complete c st res false
  | none =>
    let own := (List.range n).filterMap (fun k => (s.slotOf seg (first + k)).map (fun q => wantBlock c.id (some k) i seg (first + k) q true))
    let unchecked (s : State) : State := s.logEv .linkUnchecked (some c.fn) seg
    let (before, s) : List ArcRead × State :=
      if eOp c.entry ≠ some .verify then ([], s)
      else
        match s.predecessor i seg first with
        | some (g, b, sure) =>
          (match s.slotOf g b with
           | some q => ([wantBlock c.id none i g b q sure], s)
           | none => ([], unchecked s))
        | none => ([], if seg = (s.getInst i).firstSeg then s else unchecked s)
    let s := { s with arc := { s.arc with reads := s.arc.reads ++ before ++ own } }
    (s.setCmd { c with stage := .media, aux := s.arc.setId }).settleArc.approachAll

/-- ARCHIVE_READ and VERIFY alike. -/
def State.archiveCmd (s : State) (id : Nat) (op : Op) : State :=
  whenServing s (fun s =>
    match s.findCmd id with
    | none => s
    | some c =>
      if eOp c.entry ≠ some op then s
      else if c.stage = .media then s.settleArc.approachAll
      else if c.ready then s.underEpoch c (fun s => s.planArc c) else s)

/-- ARCHIVE_READ (R152, R303). -/
def execArchiveRead (id : Nat) (s : State) : Host.Outcome State Fault Refusal := .next (s.archiveCmd id .arcRead)

/-- VERIFY (R152, R196). -/
def execVerify (id : Nat) (s : State) : Host.Outcome State Fault Refusal := .next (s.archiveCmd id .verify)

/-! ### Slots (R288, R303, R326) -/

/-- A part is one that drive `d` gives at `pba`; it waits while a calibration item uses the drive (R437). -/
def State.partAt (s : State) (d pba : Nat) (r : ArcRead) (p : ArcPart) : Bool :=
  !p.ended && !s.calUses d && decide (s.readDrive r.stripe p.pos = some d ∧ s.stripeAt r.stripe = pba)

/-- Some read wants the slot. -/
def State.wanted (s : State) (d pba : Nat) : Bool := s.arc.reads.any (fun r => r.parts.any (s.partAt d pba r))

/-- The parts that want a slot take what its decode gave; a record that names another set, position or stripe makes it unreadable. -/
def State.giveSlot (s : State) (d pba : Nat) (content : Option (List Byte)) : State :=
  let give (r : ArcRead) (p : ArcPart) : ArcPart :=
    if s.partAt d pba r p then
      let c := content.filter (fun x =>
        let a := addrOf x
        decide (a.setId = s.arc.setId ∧ a.pos = p.pos ∧ a.stripe = r.stripe))
      { p with ended := true, content := c }
    else p
  { s with arc := { s.arc with reads := s.arc.reads.map (fun r => { r with parts := r.parts.map (give r) }) } }

/-- BLOCK_DECODE (R288): the buffered slot is decoded. A slot that a read wants is given to it, unless it failed and a retry is left. -/
def execBlockDecode (d : Fin 4) (s : State) : Host.Outcome State Fault Refusal :=
  .next (whenServing s (fun s =>
    let d := d.val
    match (s.drive d).rdc.rx.pba with
    | none => s
    | some pba =>
      let s := s.decodeSlot d
      match (s.drive d).rdc.decoded with
      | none => s
      | some r =>
        if !s.wanted d pba then s
        else if r.ok then (((s.modRdc d (fun c => { c with retry := 0, decoded := none })).giveSlot d pba (some r.content)).settleArc).approachAll
        else if (s.drive d).rdc.retry < Cf.RDC_RTRY_n s d then s
        else
          (((s.modRdc d (fun c => { c with retry := 0, decoded := none, readFail := inc16 c.readFail })).giveSlot d pba none).settleArc).approachAll))

/-- READ_RETRY (R326): a wanted block whose decode failed is read again with the next retry's settings. -/
def execReadRetry (d : Fin 4) (s : State) : Host.Outcome State Fault Refusal :=
  .next (whenServing s (fun s =>
    let d := d.val
    let c := (s.drive d).rdc
    match c.decoded with
    | some r =>
      if !r.ok && s.wanted d r.pba && decide (c.retry < Cf.RDC_RTRY_n s d) then
        s.modRdc d (fun c => { c with retry := c.retry + 1, decoded := none })
      else s
    | none => s))

/-! ### IDENTIFY (R143, Table 04-7) -/

/-- Selector 0: the issuer's own data. -/
def State.identSelf (s : State) (i : Nat) : List Byte :=
  let r := s.getInst i
  let pins := (s.fss.segs.filter (fun g => g.holding && decide (g.inst = i))).length
  leBytes 4 1 ++ leBytes 2 i ++ leBytes 2 r.gen ++ leBytes 8 r.nsSize ++ leBytes 8 r.quota ++ leBytes 8 r.used ++
    leBytes 2 (s.maxInflight i) ++ leBytes 1 (Cf.INS_T_LIMITS_rings s i) ++ leBytes 1 (Cf.INS_T_LIMITS_task_port_en s i) ++ leBytes 2 256 ++
    leBytes 2 32 ++ leBytes 4 1048576 ++ leBytes 4 524288 ++ leBytes 2 128 ++ leBytes 2 pins ++ leBytes 2 1024 ++ leBytes 2 s.epoch.cur

/-- Selector 1: the device. -/
def State.identDevice (s : State) : List Byte :=
  let left := if s.arc.loaded then s.arc.total - s.arc.form else 0
  leBytes 4 1 ++ leBytes 2 0xA416 ++ leBytes 2 (if Config.steppingB0 then 0x10 else 0x01) ++ leBytes 8 s.fss.cap ++
    leBytes 8 (s.quotaSum 256 0) ++ leBytes 2 (s.inst.filter (fun e => e.2.state ≠ .idle)).length ++ leBytes 2 s.cmds.length ++ leBytes 2 2048 ++
    leBytes 2 0 ++ leBytes 8 (if s.arc.loaded then s.arc.setId else 0) ++ leBytes 4 left ++
    leBytes 4 (maskOf 4 (fun d => (s.drive d).disc)) ++ leBytes 4 s.boot.slot ++ leBytes 4 s.fw.version

/-- IDENTIFY. -/
def execIdentify (id : Nat) (s : State) : Host.Outcome State Fault Refusal :=
  .next (withCmd id .identify s (fun c s =>
    s.report c (if eByte c.entry 44 = 1 then s.identDevice else s.identSelf c.fn.toNat) 0))

end Sys2Proof.Machine
end

