-- ==== Sys2Proof/Machine/Fabric.lean ====
section
/-!
DEFINITION. Telemetry of the self-timed fabric and the end of the fabric-slow alarm (spec/14, R447 to R451).
-/

namespace Sys2Proof.Machine

/-- A reading of rail `n`, 6 for VDD_CORE: out of its range for `k` readings in a row, which is 10 ms, it is logged, at most once a minute
(R580). -/
def State.railReading (s : State) (n : Nat) (out : Bool) (k : Nat) : State :=
  let run := if out then nth 0 s.sns.railRun n + 1 else 0
  let s := { s with sns := { s.sns with railRun := modNth (fun _ => run) s.sns.railRun n } }
  let due := match nth none s.sns.railLogged n with
    | some t => decide (t + 60000 ≤ s.tm.mono)
    | none => true
  if decide (k ≤ run) && due then
    ({ s with sns := { s.sns with railLogged := modNth (fun _ => some s.tm.mono) s.sns.railLogged n } }).note .railOut n
  else s

/-- VCORE_LOW (R449): the comparator saw VDD_CORE below v_lo for 500 ns. -/
def execVcoreLow (s : State) : Host.Outcome State Fault Refusal := .next (whenRunning s (fun s => s.alarmRise 1))

/-- The lowest of a list. -/
def lowest (d : Nat) (l : List Nat) : Nat := l.foldl min d

/-- SPEED_INDEX_MEASURE (R447 to R449, R451): the four indices and VDD_CORE; a site low twice in a row raises the alarm, and whatever
keeps the alarm from clearing restarts its hold. VDD_CORE above 920 mV for 10 ms is logged (R580). -/
def execSpeedIndexMeasure (idx : List (BitVec 16)) (mv : BitVec 16) (s : State) : Host.Outcome State Fault Refusal :=
  .next (whenRunning s (fun s =>
    let l := (List.range 4).map (fun k => (nth 0 idx k).toNat)
    let low := (List.range 4).map (fun k => if nth 0 l k < Cf.STL_ALM_CFG_s_lo s then nth 0 s.stl.low k + 1 else 0)
    let bad := low.any (fun n => decide (0 < n)) || decide (mv.toNat < Cf.STL_ALM_CFG_v_lo s + 10)
    let s := { s with stl := { s.stl with
      idx := l, minIdx := lowest s.stl.minIdx l, mv := mv.toNat, minMv := min s.stl.minMv mv.toNat, low := low,
      goodSince := if bad then s.tm.mono else s.stl.goodSince } }
    let s := s.railReading 6 (decide (920 < mv.toNat)) 100
    if low.any (fun n => decide (2 ≤ n)) then s.alarmRise 2 else s))

/-- FABRIC_SLOW_ALARM_CLEAR (R451). -/
def execFabricSlowAlarmClear (s : State) : Host.Outcome State Fault Refusal :=
  .next (whenRunning s (fun s =>
    if s.stl.alarm && decide (Cf.STL_ALM_CFG_v_lo s + 10 ≤ s.stl.mv) && s.stl.idx.all (fun n => decide (Cf.STL_ALM_CFG_s_lo s ≤ n)) &&
        decide (s.stl.goodSince + Cf.STL_ALM_CFG_hold_ms s ≤ s.tm.mono) then
      ({ s with stl := { s.stl with alarm := false } }).settle
    else s))

/-- TPUT_WINDOW (R448): the counts of the window that ended, by engine. DESIGN CHOICE, log entry 65. -/
def execTputWindow (counts : List Nat) (s : State) : Host.Outcome State Fault Refusal :=
  .next (whenRunning s (fun s =>
    let l := (List.range 8).map (fun k => satU 16 (nth 0 counts k))
    { s with stl := { s.stl with last := l, mins := (List.range 8).map (fun k => min (nth 0xFFFF s.stl.mins k) (nth 0 l k)) } }))

/-- TPUT_CLR (R448). -/
def execTputClr (v : Word) (s : State) : Host.Outcome State Fault Refusal :=
  .next (whenRunning s (fun s => if fld v 0 1 = 1 then { s with stl := { s.stl with mins := List.replicate 8 0xFFFF } } else s))

end Sys2Proof.Machine
end

