-- ==== Sys2Proof/Machine/Mailbox.lean ====
section
/-!
DEFINITION. Mailbox messages from the owner, the slots it frees, and the shared pages (spec/03, R94 to R104).
-/

namespace Sys2Proof.Machine

/-- The bits of a byte, ascending. -/
def bitsOf (n : Nat) : List Nat := (List.range 8).filter (fun k => n.testBit k)

/-- MB_IN_POST (R95): the free slots named are posted in ascending order; naming a busy one is one access error. -/
def execMbInPost (f : Func) (post : Byte) (s : State) : Host.Outcome State Fault Refusal :=
  .next (hostBar0 f.toNat s (fun s =>
    let n := f.toNat
    let busy := (s.getFn n).posted
    let l := bitsOf post.toNat
    let s := s.modFn n (fun x => { x with posted := x.posted ++ l.filter (fun k => !busy.contains k) })
    if l.any (fun k => busy.contains k) then s.accError n 0 0x1400 else s))

/-- The 64 bytes of an inbound slot. -/
def State.inSlot (s : State) (f k : Nat) : List Byte :=
  (List.range 16).foldl (fun l w => l ++ leBytes 4 (s.reg (Reg.F_IN_SLOT f (16 * k + w))).toNat) []

/-- RELAYs of a VF that wait in the PF's overflow queue (R100). -/
def State.relaysWaiting (s : State) (f : Func) : Nat := ((s.getFn 0).overflow.filter (fun m => m.relayFrom = some f)).length

/-- A RELAY is delivered, or discarded under the limits of R100. DEDUCED, log entry 28. -/
def State.relay (s : State) (f : Func) (m : List Byte) : State :=
  let n := f.toNat
  let body := slice m 8 (min 48 (leAt m 7 1))
  if n = 0 then
    let p := leAt m 6 1
    if (s.getInst p).state = .active then s.postMsg p 9 (s.getInst p).gen 0 body none
    else s.logEv .relayDiscarded (some (BitVec.ofNat 8 p)) p
  else if Cf.INS_T_LIMITS_relay_en s n = 0 then s.logEv .relayDiscarded (some f) n
  else if 4 ≤ s.relaysWaiting f then s.setInsEvt n 3
  else s.postMsg 0 9 (s.getInst n).gen n body (some f)

/-- MAILBOX_CONSUME (R95, R99, R100): the oldest posted slot is consumed and freed, and in_free is set. DEDUCED, log entry 28. -/
def execMailboxConsume (f : Func) (s : State) : Host.Outcome State Fault Refusal :=
  .next (whenServing s (fun s =>
    let n := f.toNat
    match (s.getFn n).posted with
    | k :: r =>
      if s.inReset n then s
      else
        let m := s.inSlot n k
        let s := s.modFn n (fun x => { x with posted := r })
        let s := if leAt m 0 1 = 0x81 then s.relay f m else s.logEv .inboundUnknown (some f) (leAt m 0 1)
        s.setInsEvt n 1
    | [] => s))

/-- MB_OUT_ACK (R96, R97): the slots named are freed and queued messages move in. -/
def execMbOutAck (f : Func) (ack : Byte) (s : State) : Host.Outcome State Fault Refusal :=
  .next (hostBar0 f.toNat s (fun s =>
    (s.modFn f.toNat (fun x => { x with outSlots := x.outSlots.filter (fun e => !ack.toNat.testBit e.1) })).fillSlots f.toNat))

/-! ### Shared pages (R101 to R104) -/

/-- The page that the window of a function shows: whether the status page, and whose. -/
def State.pageSel (s : State) (f : Nat) : Bool × Nat :=
  let w := (s.reg (Reg.F_SPG_SEL f)).toNat
  (w.testBit 0, if f = 0 then fldN w 8 8 else f)

/-- The bytes that the Pyaris keeps at the start of a policy page (Table 03-7). DESIGN CHOICE, log entry 19. -/
def State.policyHead (s : State) (i : Nat) : List Byte :=
  let r := s.getInst i
  let p := r.opened
  padTo 256 (leBytes 4 1 ++ leBytes 2 i ++ leBytes 2 r.gen ++ leBytes 8 r.nsSize ++ leBytes 8 r.quota ++ leBytes 8 r.shownUsed ++
    leBytes 4 r.minHold ++ leBytes 4 (b2n r.legalHold) ++ leBytes 8 (match p with
      | some x => x.closing
      | none => 0) ++ leBytes 4 r.interval ++ leBytes 4 (match p with
      | some x => x.index
      | none => 0) ++ leBytes 2 s.epoch.cur)

/-- Bytes of the page that a window shows; zero without LPDDR (R591). -/
def State.pageBytes (s : State) (f off len : Nat) : List Byte :=
  let (st, i) := s.pageSel f
  if s.boot.dramFail then List.replicate len 0
  else if st then Bank.bytes zeroByte (s.getInst i).status off len
  else slice (s.policyHead i ++ Bank.bytes zeroByte (s.getInst i).policy 256 3840) off len

/-- The policy sequence of an instance changes: a new even value posts POLICY_CHANGED to the tenant (R103). -/
def State.policySeq (s : State) (i : Nat) : State :=
  let v := leNat (Bank.bytes zeroByte (s.getInst i).policy 256 4)
  if v % 2 = 0 ∧ v ≠ (s.getInst i).evenSeq then
    let s := s.modInst i (fun r => { r with evenSeq := v })
    if i = 0 then s else s.postOwn i 3 (leBytes 4 v)
  else s

/-- One aligned word of the window is written, within the access rules of R101; discarded without LPDDR (R591). -/
def State.pageWord (s : State) (f off : Nat) (w : List Byte) : State :=
  let (st, i) := s.pageSel f
  if s.boot.dramFail then s
  else if st then
    if i = f then s.modInst i (fun r => { r with status := Bank.putBytes zeroByte r.status off w })
    else s.accError f 0 (0x7000 + off)
  else if f = 0 ∧ 256 ≤ off then
    let s := s.modInst i (fun r => { r with policy := Bank.putBytes zeroByte r.policy off w })
    if off = 256 then s.policySeq i else s
  else s.accError f 0 (0x7000 + off)

/-- SHARED_PAGE_WRITE (R8, R101): aligned words are written one by one, a narrow or unaligned write is an access error.
DEDUCED, log entry 28. -/
def execSharedPageWrite (f : Func) (off : BitVec 12) (data : List Byte) (s : State) : Host.Outcome State Fault Refusal :=
  .next (hostBar0 f.toNat s (fun s =>
    let n := f.toNat
    let o := off.toNat
    if o % 4 = 0 ∧ data.length = 4 then s.pageWord n o data
    else if o % 4 = 0 ∧ data.length = 8 then
      let s := s.pageWord n o (data.take 4)
      if o + 4 < 4096 then s.pageWord n (o + 4) (data.drop 4) else s
    else s.accError n 0 (0x7000 + o)))

end Sys2Proof.Machine
end

