-- ==== Sys2Proof/Machine/Inputs.lean ====
section
/-!
DEFINITION. The input filters (spec/18, R557 to R566): qualified levels, the verdicts chattering and stuck, analogue ranges, and what the
used levels do: doors and trays, PD_PGOOD (R466), PSE_CLASS (R465).
-/

namespace Sys2Proof.Machine

/-! ### Effects of used levels -/

/-- A drive's door or tray opens: the spindle stops, the loops open, the sled parks, the disc leaves the set, the manager holds no axis of it
any more, and a slot in recording is abandoned (R40, R294, R333, R350, R370, R375, R420). -/
def State.driveOpened (s : State) (d : Nat) : State :=
  let s := s.closeGate d
  let s := s.modDrive d (fun r => { r with
    disc := false, starting := false, confirm := false, landed := false, seq := .none,
    ax := r.ax.map (fun x => { x with manual := false }),
    rdc := { r.rdc with clkLock := false, started := false, retry := 0, decoded := none, rx := { r.rdc.rx with pba := none } },
    wst := { r.wst with opcBusy := false, opcDue := [] } })
  let s := ((s.spinStopReq d).openFoc d .opened).sledPark d
  let s := match s.posOf d with
    | some p =>
      let s := { s with arc := { s.arc with pos := modNth (fun _ => none) s.arc.pos d, blank := modNth (fun _ => false) s.arc.blank d } }
      forEach (s.arc.going.filter (fun (t : Stripe) => t.open_.contains p)) (fun t u => u.stripeBad t.num p) s
    | none => { s with arc := { s.arc with blank := modNth (fun _ => false) s.arc.blank d } }
  (if s.arc.loaded && !s.setWritable then s.stopRecording else s).noteWaiting.settle

/-- The class code in use. -/
def State.classUsed (s : State) : Nat := b2n (s.level 8) + 2 * b2n (s.level 9)

/-- Every critical entry not yet in NVM is written at once (R504, PD_PGOOD low). -/
def State.critAll (s : State) : State := forEach s.log.critical (fun _ t => t.critOne) s

/-- PD_PGOOD falls: the store quiesces, running shares are withdrawn, sleds hold, and Heron writes the time counters and the critical
entries (R231, R396, R421, R466, R504, R521, R522). DEDUCED, log entry 50. -/
def State.pgoodFalls (s : State) : State :=
  let s := { s with fss := { s.fss with quiesced := true }, pwb := { s.pwb with run := 0 } }
  let s := ((if s.tm.valid then s.ctrStore 5 s.tm.sec else s).ctrStore 4 (s.tm.mono + 10)).critAll
  (forBelow 4 (fun d t => t.modSled d (fun l =>
    if l.st = .homing ∨ l.st = .follow ∨ l.st = .travel ∨ l.st = .seek then { l with stopping := true } else l)) s).settle

/-- PD_PGOOD returns: normal work resumes, and the class code is read (R231, R465, R466). -/
def State.pgoodRises (s : State) : State :=
  let c := s.classUsed
  let l := s.fss.progs.map (fun p => { p with queued := false })
  let s := { s with fss := { s.fss with quiesced := false, progs := l }, pwb := { s.pwb with classCode := c } }
  s.settle.pump

/-- What the changes of used levels do; a change of a tray, a door, PSE_CLASS or PD_PGOOD wakes the block (R462). -/
def State.levelsChanged (s : State) (was : Nat) : State :=
  let s := if was % 2048 = s.levels % 2048 then s else s.wakeUp
  let s := forBelow 4 (fun d t =>
    if (bitN was d && !t.level d) || (bitN was (4 + d) && !t.level (4 + d)) then t.driveOpened d else t) s
  let s := if bitN was 10 && !s.pgood then s.pgoodFalls else if !bitN was 10 && s.pgood then s.pgoodRises else s
  if s.pgood && decide (was / 256 % 4 ≠ s.classUsed) then { s with pwb := { s.pwb with classCode := s.classUsed } } else s

/-- `g`, with what it does to the used levels. -/
def State.overLevels (s : State) (g : State → State) : State :=
  let was := s.levels
  (g s).levelsChanged was

/-! ### Verdicts (R558 to R560) -/

/-- A bit of INP.EVT becomes 1: 0 stuck, 1 chattering, 2 range, 3 cleared (Table 18-9). -/
def State.inpEvt (s : State) (bit : Nat) : State :=
  if bitN s.inp.evt bit then s
  else
    let s := { s with inp := { s.inp with evt := setBitN s.inp.evt bit true } }
    if bitN (Cf.INP_IEN_en s) bit then s.raise 0 0 else s

/-- One second, and 500 µs, of `State.fine`. -/
def fineSec : Nat := 32768000
def fineWindow : Nat := 16384

/-- Rate limit and window of an input (Table 18-7); none for DBG_RX. -/
def State.rateLimit (s : State) (i : Nat) : Option (Nat × Nat) :=
  if i < 4 then some (Cf.INP_CFG_TRAY_limit s, fineSec)
  else if i < 8 then some (Cf.INP_CFG_DOOR_limit s, fineSec)
  else if i < 10 then some (8, fineSec)
  else if i = 10 then some (16, fineSec)
  else if i = 11 then some (Cf.INP_CFG_RATE_limit s, fineWindow)
  else none

/-- Changes of an input in the window that ends at a time. -/
def State.changesIn (s : State) (i endT win : Nat) : Nat :=
  (s.inp.changes.filter (fun e => decide (e.1 = i ∧ e.2 ≤ endT ∧ endT < e.2 + win))).length

/-- RATE_IN is judged while INP.DIS does not disable it, every other input always (R563). -/
def State.judged (s : State) (i : Nat) : Bool := !(decide (i = 11) && decide (Cf.INP_DIS_rate_in s = 1))

/-- An input that changed too often is declared chattering. -/
def State.judgeChatter (s : State) (i : Nat) : State :=
  match s.rateLimit i with
  | none => s
  | some (lim, win) =>
    if !s.judged i || decide (s.changesIn i s.fine win ≤ lim) then s
    else
      let s := { s with inp := { s.inp with rateBad := if i = 11 then s.fine else s.inp.rateBad } }
      if bitN s.inp.chat i then s
      else
        let s := { s with inp := { s.inp with chat := setBitN s.inp.chat i true, chatCnt := inc16 s.inp.chatCnt } }
        (s.inpEvt 1).note .inputVerdict i

/-- The pair of a drive reads tray out and door closed, and since when. -/
def State.judgePairs (s : State) : State :=
  { s with inp := { s.inp with pairSince := (List.range 4).map (fun d =>
    if !bitN s.inp.qual d && bitN s.inp.qual (4 + d) then
      (match nth none s.inp.pairSince d with
       | some t => some t
       | none => some s.fine)
    else none) } }

/-- An input is qualified at a level (R557). -/
def State.qualify (s : State) (i : Nat) (v : Bool) : State :=
  if bitN s.inp.qual i = v then s
  else
    s.overLevels (fun s =>
      let now := s.fine
      let counts := decide (i ≠ 11) || v
      let s := { s with inp := { s.inp with
        qual := setBitN s.inp.qual i v, raw := setBitN s.inp.raw i v, since := modNth (fun _ => now) s.inp.since i,
        changes := (if counts then [(i, now)] else []) ++ s.inp.changes.filter (fun (e : Nat × Nat) => decide (now < e.2 + 3 * fineSec)) } }
      (s.judgeChatter i).judgePairs)

/-- INPUT_QUALIFIED (R557, R558). DESIGN CHOICE, log entry 54. -/
def execInputQualified (i : Fin 13) (v : Bool) (s : State) : Host.Outcome State Fault Refusal :=
  .next (whenRunning s (fun s => s.qualify i.val v))

/-- A verdict was cleared. -/
def State.cleared (s : State) (i : Nat) : State := (s.inpEvt 3).note .inputCleared i

/-- The verdict chattering ends; the stuck timers of the input start afresh (R565). -/
def State.endChatter (s : State) (i : Nat) : State :=
  let now := s.fine
  { s with inp := { s.inp with
    chat := setBitN s.inp.chat i false, since := modNth (fun _ => now) s.inp.since i,
    pairSince := if i < 8 then modNth (fun o => o.map (fun _ => now)) s.inp.pairSince (i % 4) else s.inp.pairSince } }

/-- CHATTER_CLEAR (R558, R565): a window within the limit and then a level held for 1 s; for RATE_IN 200 windows within it. -/
def execChatterClear (i : Fin 13) (s : State) : Host.Outcome State Fault Refusal :=
  .next (whenRunning s (fun s =>
    let i := i.val
    let t := nth 0 s.inp.since i
    let quiet := match s.rateLimit i with
      | none => true
      | some (lim, _) =>
        if i = 11 then decide (s.inp.rateBad + 200 * fineWindow ≤ s.fine)
        else decide (t + fineSec ≤ s.fine) && decide (s.changesIn i t fineSec ≤ lim)
    if s.judged i && bitN s.inp.chat i && quiet then
      (s.overLevels (fun s => s.endChatter i)).cleared i
    else s))

/-- Stuck level of an input outside the pairs, and its timeout in ms. -/
def State.stuckRule (s : State) (i : Nat) : Option (Bool × Nat) :=
  if i = 11 then some (true, Cf.INP_CFG_RATE_stuck_ms s) else if i = 12 then some (false, 60000) else none

/-- Inputs become stuck together. -/
def State.declareStuck (s : State) (l : List Nat) : State :=
  s.overLevels (fun s => forEach l (fun i t =>
    if bitN t.inp.stuck i then t
    else
      let t := { t with inp := { t.inp with stuck := setBitN t.inp.stuck i true, stuckCnt := inc16 t.inp.stuckCnt } }
      (t.inpEvt 0).note .inputVerdict (i + 256)) s)

/-- INPUT_STUCK (R559, R563, R565). -/
def execInputStuck (i : Fin 13) (s : State) : Host.Outcome State Fault Refusal :=
  .next (whenRunning s (fun s =>
    let i := i.val
    if i < 8 then
      match nth none s.inp.pairSince (i % 4) with
      | some t =>
        if t + Cf.INP_CFG_TRAY_pair_s s * fineSec < s.fine && !bitN s.inp.chat (i % 4) && !bitN s.inp.chat (4 + i % 4) then
          s.declareStuck [i % 4, 4 + i % 4] else s
      | none => s
    else
      match s.stuckRule i with
      | some (v, ms) =>
        if bitN s.inp.qual i = v ∧ nth 0 s.inp.since i + ms * 32768 < s.fine ∧ bitN s.inp.chat i = false ∧
            s.judged i = true then s.declareStuck [i] else s
      | none => s))

/-- The tray of drive `d` has read in, or its door open, for 1 s (R559). -/
def State.pairApart (s : State) (d : Nat) : Bool :=
  let held (i : Nat) : Bool := decide (nth 0 s.inp.since i + fineSec ≤ s.fine)
  (bitN s.inp.qual d && held d) || (!bitN s.inp.qual (4 + d) && held (4 + d))

/-- STUCK_CLEAR (R559): 1 s away from the stuck level, or for a pair 1 s of a tray that reads in or a door that reads open. -/
def execStuckClear (i : Fin 13) (s : State) : Host.Outcome State Fault Refusal :=
  .next (whenRunning s (fun s =>
    let i := i.val
    let clear (l : List Nat) : State :=
      let t := s.overLevels (fun s => { s with inp := { s.inp with stuck := l.foldl (fun a k => setBitN a k false) s.inp.stuck } })
      forEach l (fun k u => u.cleared k) t
    if !bitN s.inp.stuck i then s
    else if i < 8 then
      (if s.pairApart (i % 4) then clear [i % 4, 4 + i % 4] else s)
    else
      match s.stuckRule i with
      | some (v, _) =>
        if s.judged i && decide (bitN s.inp.qual i ≠ v) && decide (nth 0 s.inp.since i + fineSec ≤ s.fine) then clear [i] else s
      | none => s))

/-! ### PD_PGOOD and PSE_CLASS by name (R465, R466) -/

/-- PD_PGOOD_FALL (R466). -/
def execPdPgoodFall (s : State) : Host.Outcome State Fault Refusal := .next (whenRunning s (fun s => s.qualify 10 false))

/-- PD_PGOOD_RISE (R466). -/
def execPdPgoodRise (s : State) : Host.Outcome State Fault Refusal := .next (whenRunning s (fun s => s.qualify 10 true))

/-- PSE_CLASS_CHANGE (R465): a code that has been stable for 100 ms. DEDUCED, log entry 53. -/
def execPseClassChange (code : BitVec 2) (s : State) : Host.Outcome State Fault Refusal :=
  .next (whenRunning s (fun s => (s.qualify 8 (bitN code.toNat 0)).qualify 9 (bitN code.toNat 1)))

/-! ### Analogue ranges (R561, Table 18-8) -/

/-- A thermistor's code has stayed within ±1 for 600 s while the die temperature moved 4 °C or more (Table 18-8). -/
def State.thermStuck (s : State) (d : Nat) : Bool :=
  match s.sns.thmHeld[d]? with
  | some h => decide (h.since + 600000 ≤ s.tm.mono ∧ 64 ≤ h.high - h.low)
  | none => false

/-- A code lies outside an input's range, or a thermistor is stuck within it. -/
def State.codeOut (s : State) (i code : Nat) : Bool :=
  if i < 4 then decide (code < 100 ∨ 3995 < code) || s.thermStuck i
  else if i = 4 then decide (4080 ≤ code) || (decide (code ≤ 81) && s.pgood)
  else if i = 5 then (decide (code ≤ 40 ∨ 4055 ≤ code)) && decide (Cf.INP_DIS_setp_ain s = 0)
  else decide (4080 ≤ code)

/-- A code lies in an input's return band; a thermistor that is stuck does not return, and SETP_AIN is not judged while disabled (R563). -/
def State.codeBack (s : State) (i code : Nat) : Bool :=
  if i < 4 then decide (140 ≤ code ∧ code ≤ 3955) && !s.thermStuck i
  else if i = 4 then decide (100 ≤ code ∧ code ≤ 4060)
  else if i = 5 then decide (60 ≤ code ∧ code ≤ 4035) && decide (Cf.INP_DIS_setp_ain s = 0)
  else decide (code ≤ 4040)

/-- A range verdict changes; a thermistor's changes the drive temperature in use (R424). -/
def State.setRange (s : State) (i code : Nat) (out : Bool) : State :=
  let s := { s with inp := { s.inp with range := setBitN s.inp.range i out, codes := modNth (fun _ => code) s.inp.codes i } }
  if i < 4 then (s.followTemp i).settle else s

/-- ANALOGUE_OUT_OF_RANGE (R561). -/
def execAnalogueOutOfRange (i : Fin 10) (code : BitVec 12) (s : State) : Host.Outcome State Fault Refusal :=
  .next (whenRunning s (fun s =>
    if bitN s.inp.range i.val || !s.codeOut i.val code.toNat then s
    else ((s.setRange i.val code.toNat true).inpEvt 2).note .rangeVerdict i.val))

/-- ANALOGUE_RETURN (R561). -/
def execAnalogueReturn (i : Fin 10) (code : BitVec 12) (s : State) : Host.Outcome State Fault Refusal :=
  .next (whenRunning s (fun s =>
    if bitN s.inp.range i.val && s.codeBack i.val code.toNat then
      ((s.setRange i.val code.toNat false).inpEvt 3).note .rangeBack i.val
    else s))

end Sys2Proof.Machine
end

