-- ==== Sys2Proof/Machine/Power.lean ====
section
/-!
DEFINITION. The power-budget loop (spec/14, R465 to R473): excess and shares, spin-up and running grants, overload levels.
-/

namespace Sys2Proof.Machine

/-- P_class in mW (Table 14-7). DEDUCED, log entry 53. -/
def classPower (c : Nat) : Nat := nth 25500 [25500, 51000, 62000, 71300] c

/-- P_avail in mW; a faulted current sense scales it further (R468, R473). -/
def State.availPower (s : State) (est : Bool) : Nat :=
  let p := classPower s.pwb.classCode * (1024 - Cf.PWB_CFG_margin s) / 1024
  let p := if Cf.PWB_CAP_mw s = 0 then p else min p (Cf.PWB_CAP_mw s)
  if est then p * Cf.PWB_CFG_fault_pct s / 100 else p

/-- E_n in mW: the mean of current × duty since the last sample, for a spindle in START or RUN (R468). -/
def State.drivePower (s : State) (d : Nat) : Nat :=
  let p := (s.drive d).spin
  if (p.st = .start ∨ p.st = .run) ∧ 0 < p.pNum then p.pSum * Cf.PWB_VMOT_mv s / (p.pNum * 256 * 1000) else 0

/-- A drive whose disc spins. -/
def State.spins (s : State) (d : Nat) : Bool :=
  let p := (s.drive d).spin
  decide (p.st = .start ∨ p.st = .run ∨ p.st = .lost)

/-- meas_n of R469 in Q4.28. -/
def shareOf (x : Int) (e sum fs : Nat) : Int :=
  if fs = 0 then 0
  else if sum = 0 then tdiv (x * (2 ^ 28 : Nat)) (fs : Nat)
  else tdiv (x * (e : Nat) * (2 ^ 28 : Nat)) (sum * fs : Nat)

/-- The overload level of this sample (R472, Table 14-8), from the counts of samples. -/
def levelOf (old : Nat) (x : Int) (two three : Bool) (calm : Nat) : Nat :=
  if three then 3
  else if two then max 2 old
  else if 2 ≤ old then (if 1000 ≤ calm then 0 else old)
  else if 0 < x then 1 else 0

/-- The drives that asked since the last sample join the queue by drive number (R470). -/
def State.queueAsked (s : State) : State :=
  { s with pwb := { s.pwb with queue := s.pwb.queue ++ (List.range 4).filter (fun d => s.pwb.asked.contains d), asked := [] } }

/-- The spin-up grant goes to the head of the queue (R470). -/
def State.giveGrant (s : State) : State :=
  match s.pwb.queue with
  | d :: l =>
    let gap := match s.pwb.returned with
      | some t => decide (t + Cf.PWB_SPINUP_gap_ms s ≤ s.tm.mono)
      | none => true
    if s.pwb.granted.isNone && s.pgood && decide (s.pwb.x ≤ -(Cf.PWB_SPINUP_mw s : Int)) && gap && decide (s.pwb.level = 0) then
      ({ s with pwb := { s.pwb with queue := l, granted := some d } }).modSpin d
        (fun p => { p with st := .detect, grant := true, returned := false, detRuns := 0, aligning := false })
    else s
  | [] => s

/-- The running grants of this sample (R471). -/
def State.runGrants (s : State) : State :=
  let run := maskOf 4 (fun d => decide ((s.drive d).spin.st = .run) && (s.drive d).spin.returned && s.pgood && decide (s.pwb.level < 2))
  { s with pwb := { s.pwb with run := run } }

/-- The spinning drive with the highest number is coasted (Table 14-8, R375). -/
def State.coastOne (s : State) : State :=
  match (List.range 4).reverse.find? (fun d => s.spins d) with
  | some d => s.spinStopped d
  | none => s

/-- The measured part of a sample: input power, excess, shares, and the counts the levels need. DEDUCED, log entry 53. -/
def State.budget (s : State) (code : Nat) : State :=
  let es := (List.range 4).map (fun d => s.drivePower d)
  let sum := es.foldl (fun a b => a + b) 0
  let est := bitN s.inp.range 4
  let pin := if est then Cf.PWB_BASE_mw s + sum + Cf.PWB_DRV_mw s * ((List.range 4).filter (fun d => s.spins d && (s.drive d).disc)).length
    else code * Cf.PWB_SENSE_ma_fs s / 4095 * Cf.PWB_VIN_mv s / 1000
  let avail := s.availPower est
  let x : Int := (pin : Int) - (avail : Int)
  let running := (List.range 4).filter (fun d => decide ((s.drive d).spin.st = .run))
  let won := !running.isEmpty && running.all (fun d => decide ((s.drive d).spnGroup.winner = 2)) && decide (0 < x)
  let count (b : Bool) (n : Nat) : Nat := if b then n + 1 else 0
  let s := if est && !s.pwb.est then s.note .pinSense 0 else s
  let s := { s with pwb := { s.pwb with
    est := est, pin := pin, avail := avail, x := x, e := es, share := es.map (fun e => shareOf x e sum (Cf.PWB_FS_mw s)),
    over2 := count (decide ((Cf.PWB_OVL_l2_mw s : Int) < x)) s.pwb.over2, won2 := count won s.pwb.won2,
    over3 := count (decide (classPower s.pwb.classCode < pin)) s.pwb.over3,
    calm := count (decide (x ≤ -(Cf.PWB_OVL_hyst_mw s : Int))) s.pwb.calm } }
  { s with drives := s.drives.map (fun r => { r with spin := { r.spin with pSum := 0, pNum := 0 } }) }

/-- The level is judged; entries to 2 and 3 are counted and logged; level 3 coasts a drive every 50 samples. -/
def State.judgeLevel (s : State) : State :=
  let b := s.pwb
  let three := decide (50 ≤ b.over3)
  let new := levelOf b.level b.x (decide (20 ≤ b.over2) || decide (100 ≤ b.won2)) three b.calm
  let s := { s with pwb := { b with level := new, l2 := if b.level < 2 ∧ new = 2 then inc16 b.l2 else b.l2,
                                    l3 := if b.level < 3 ∧ new = 3 then inc16 b.l3 else b.l3 } }
  let s := if b.level < new ∧ 2 ≤ new then s.note .overload new else s
  if three && decide (b.over3 % 50 = 0) then s.coastOne else s

/-- BUDGET_SAMPLE (R468 to R473): the mean PIN_SENSE code of the last millisecond. DESIGN CHOICE, log entry 65. -/
def execBudgetSample (code : BitVec 12) (s : State) : Host.Outcome State Fault Refusal :=
  .next (whenRunning s (fun s => (((((s.budget code.toNat).judgeLevel).queueAsked).giveGrant).runGrants).settle))

end Sys2Proof.Machine
end

