-- ==== Sys2Proof/Machine/Sensors.lean ====
section
/-!
DEFINITION. Heron's sensors and what it does at their limits (spec/16, R497 to R499), with the temperature triggers of Table 13-2 and R334.
-/

namespace Sys2Proof.Machine

/-- The reading of a site after its offset. -/
def State.siteTemp (s : State) (k : Nat) : Int := nth 0 s.sns.site k + nth 0 s.cal.siteOfs k

/-- A site reads outside −55 to +140 °C, or 15 °C away from the mean of the other three (R498). -/
def State.siteBad (s : State) (k : Nat) : Bool :=
  let t := s.siteTemp k
  let others := ((List.range 4).filter (fun j => j ≠ k)).foldl (fun a j => a + s.siteTemp j) 0
  decide (t < -880 ∨ 2240 < t) || decide (720 < (3 * t - others).natAbs)

/-- The temperature of an item has moved by CAL.CFG.dt or more since its last calibration. -/
def State.itemMoved (s : State) (kind d : Nat) : Bool :=
  let i := s.calItem kind d
  decide (0 < i.count ∧ Cf.CAL_CFG_dt s ≤ (s.itemTemp kind d - i.temp).natAbs)

/-- Items that a temperature change makes due (Table 13-2), and an OPC after 5 °C (R334). -/
def State.tempTriggers (s : State) : State :=
  let s := s.holdTemps.followDie
  let s := if s.itemMoved 1 0 then s.calFallsDue 1 0 else s
  forBelow 4 (fun d t =>
    let t := [2, 3, 4, 5, 6, 7].foldl (fun (u : State) k => if u.itemMoved k d then u.calFallsDue k d else u) t
    let w := (t.drive d).wst
    let moved := decide (80 ≤ (t.driveTemp d - w.opcTemp).natAbs)
    let t := if moved && t.setWritable && (t.posOf d).isSome && w.opc.any (fun o => o.kept) then
      t.modWst d (fun w => { w with opcDue := List.range t.arc.layers }) else t
    t.followTemp d) s

/-- A reading of drive `d`'s thermistor, or of the die, goes into the span for which the code has not moved (R561). DEDUCED, log entry 54. -/
def State.holdTherm (s : State) (d : Nat) : State :=
  let c := nth 0 s.sns.thm d
  let t := s.dieTemp
  let fresh : ThermHold := ⟨c, s.tm.mono, t, t⟩
  let h : ThermHold := (match s.sns.thmHeld[d]? with
    | some h => if c ≤ h.code + 1 ∧ h.code ≤ c + 1 then { h with low := min h.low t, high := max h.high t } else fresh
    | none => fresh)
  { s with sns := { s.sns with thmHeld := (s.sns.thmHeld.take d) ++ [h] ++ s.sns.thmHeld.drop (d + 1) } }

/-- Whole degrees as 1/16 °C. -/
def degrees (n : Nat) : Int := 16 * (n : Int)

/-- The thresholds of the die temperature (R498): entries at their crossings, `hot`, and the time since which the die has stayed cool. -/
def State.judgeDie (s : State) : State :=
  let t := s.dieTemp
  let ended := decide (degrees (Cf.HRN_THERM_warn s) ≤ t)
  let s := if ended && !s.sns.warm then s.note .dieWarm 0 else s
  let s := { s with sns := { s.sns with warm := ended } }
  let s := if degrees (Cf.HRN_THERM_crit s) ≤ t ∧ s.sns.hot = false then ({ s with sns := { s.sns with hot := true } }).note .dieCritical 0 else s
  let cool := decide (t < degrees (Cf.HRN_THERM_crit s) - 80)
  { s with sns := { s.sns with coolSince := if !cool then none else (match s.sns.coolSince with
    | some m => some m
    | none => some s.tm.mono) } }

/-- The four die sites. -/
def State.readDie (s : State) (l : List Int) : State :=
  let s := { s with sns := { s.sns with site := (List.range 4).map (fun k => nth 0 l k) } }
  let bad := maskOf 4 s.siteBad
  let s := forBelow 4 (fun k t => if bitN bad k && !bitN t.sns.excl k then t.note .siteExcluded k else t) s
  (forBelow 4 (fun d t => t.holdTherm d) ({ s with sns := { s.sns with excl := bad } }).judgeDie).tempTriggers.settle

/-- Operating ranges of VDD_IO18, VDD_IO33, VDD_DDQ, VDD_DDQX, VDD_AFE and VDD_PCIE in mV (spec/19). -/
def railRange (n : Nat) : Nat × Nat :=
  nth (0, 0) [(1710, 1890), (3135, 3465), (1060, 1170), (570, 650), (1710, 1890), (870, 930)] n

/-- The six rails at 1 ms: one outside its range for 10 ms is logged. -/
def State.readRails (s : State) (l : List Nat) : State :=
  let out (n : Nat) : Bool := let v := nth 0 l n; decide (v < (railRange n).1 ∨ (railRange n).2 < v)
  let s := { s with sns := { s.sns with sup := (List.range 6).map (fun n => nth 0 l n) } }
  forBelow 6 (fun n t => t.railReading n (out n) 10) s

/-- The laser current in 0.01 mA (R499). -/
def State.laserCurrent (s : State) (code : Nat) : Nat := code * Cf.HRN_LDI_FS_ma_fs s * 100 / 4095

/-- A mean of a laser's current: one above warn_ma for 1 ms is logged, at most once a minute. -/
def State.readLaser (s : State) (d code : Nat) : State :=
  let i := s.laserCurrent code
  let n := if Cf.HRN_LDI_FS_warn_ma s * 100 < i then nth 0 s.sns.ldiRun d + 1 else 0
  let s := { s with sns := { s.sns with ldi := modNth (fun _ => i) s.sns.ldi d, ldiRun := modNth (fun _ => n) s.sns.ldiRun d } }
  let free := match nth none s.sns.ldiLogged d with
    | some t => decide (t + 60000 ≤ s.tm.mono)
    | none => true
  if decide (10 ≤ n) && free then
    ({ s with sns := { s.sns with ldiLogged := modNth (fun _ => some s.tm.mono) s.sns.ldiLogged d } }).note .laserCurrent d
  else s

/-- SENSOR_SAMPLE (R497 to R499). DESIGN CHOICE, log entry 54. -/
def execSensorSample (r : SensorRead) (s : State) : Host.Outcome State Fault Refusal :=
  .next (whenRunning s (fun s =>
    match r with
    | .die l => s.readDie l
    | .therm l =>
      (forBelow 4 (fun d t => t.holdTherm d) { s with sns := { s.sns with thm := (List.range 4).map (fun d => (nth 0 l d).toNat) } }).tempTriggers.settle
    | .rails l => s.readRails (l.map (fun v => v.toNat))
    | .laser d code => s.readLaser d.val code.toNat))

/-- HOT_CLEAR (R498): 10 s below crit − 5 °C. -/
def execHotClear (s : State) : Host.Outcome State Fault Refusal :=
  .next (whenRunning s (fun s =>
    match s.sns.coolSince with
    | some t => if t + 10000 ≤ s.tm.mono then { s with sns := { s.sns with hot := false } } else s
    | none => s))

/-- THERM_WRITE (R498): both temperatures are taken, or neither; the register is epoch-committed. -/
def execThermWrite (v : Word) (s : State) : Host.Outcome State Fault Refusal :=
  .next (whenServing s (fun s => s.storeReg Reg.HRN_THERM v))

end Sys2Proof.Machine
end

