-- ==== Sys2Proof/Machine/View.lean ====
section
/-!
DEFINITION. What a read of each register of spec/20 returns (R7, R10, R582): RW and RWS fields as stored, RO and W1C fields as the
device state gives them, WO fields as zero; the pairs that latch their upper halves (R22).
-/

namespace Sys2Proof.Machine

/-- A word made of fields: value and position. -/
def packW (l : List (Nat × Nat)) : Word := BitVec.ofNat 32 (l.foldl (fun a e => a + e.1 * 2 ^ e.2) 0)

/-- The low and high words of a number. -/
def loW (n : Nat) : Word := BitVec.ofNat 32 n
def hiW (n : Nat) : Word := BitVec.ofNat 32 (n / 2 ^ 32)

/-! ### Codes of states -/

def AxState.code : AxState → Nat
  | .off => 0
  | .opened => 1
  | .ramp => 2
  | .closed => 3
  | .seq => 4
  | .lateOpen => 5
  | .fail => 6

def SpState.code : SpState → Nat
  | .stopped => 0
  | .waitGrant => 1
  | .detect => 2
  | .start => 3
  | .run => 4
  | .lost => 5
  | .brake => 6
  | .fault => 7

def SlState.code : SlState → Nat
  | .off => 0
  | .homing => 1
  | .hold => 2
  | .follow => 3
  | .travel => 4
  | .seek => 5
  | .fault => 6

/-! ### CFG, CLK, PWB, STL, HLT (spec/20, spec/14, spec/15) -/

def State.viewCfg (s : State) (off : Nat) : Word :=
  match off with
  | 0x000 => packW [(Config.vendorId.toNat, 0), (0xA416, 16)]
  | 0x004 => packW [(if Config.steppingB0 then 0x10 else 0x01, 0), (b2n Config.steppingB0, 8)]
  | 0x008 => loW (Config.deviceDigest % 2 ^ 32)
  | 0x00C => hiW (Config.deviceDigest % 2 ^ 64)
  | 0x100 => packW [(s.epoch.cur, 0), (b2n s.epoch.pending, 16), (b2n s.epoch.late, 17), (b2n s.epoch.refused, 18)]
  | 0x108 => loW s.epoch.adopt
  | o => s.reg o

def State.viewClk (s : State) (off : Nat) : Word :=
  let c := s.clk
  match off with
  | 0x000 => packW [(c.sel, 0), (c.ok, 4), (c.drift, 8), (c.fault, 12), (b2n c.unresolved, 15), (c.mode, 16), (b2n c.rtcDiv, 18)]
  | 0x00C => wordOfInt c.devXP
  | 0x010 => wordOfInt c.devXK
  | 0x014 => wordOfInt c.devPK
  | 0x018 => packW [(c.switches, 0), (c.warnings, 16)]
  | 0x058 => packW [(b2n c.fmcBusy, 0), (b2n c.fmcDone, 1), (b2n c.fmcRefused, 2), (b2n c.fmcGated, 3)]
  | 0x05C => loW c.fmcCount
  | o => s.reg (0x010000 + o)

def State.viewPwb (s : State) (off : Nat) : Word :=
  let p := s.pwb
  match off with
  | 0x000 => packW [(p.classCode, 0), (b2n s.pgood, 2), (b2n p.est, 3), (p.level, 4), (p.granted.getD 4, 8), (p.run, 12)]
  | 0x004 => loW p.pin
  | 0x008 => loW p.avail
  | 0x00C => wordOfInt p.x
  | 0x010 => loW (nth 0 p.e 0)
  | 0x014 => loW (nth 0 p.e 1)
  | 0x018 => loW (nth 0 p.e 2)
  | 0x01C => loW (nth 0 p.e 3)
  | 0x048 => packW [(p.l2, 0), (p.l3, 16)]
  | o => s.reg (0x014000 + o)

def State.viewStl (s : State) (off : Nat) : Word :=
  let t := s.stl
  if 0x020 ≤ off ∧ off < 0x040 then packW [(nth 0 t.last (off / 4 - 8), 0), (nth 0xFFFF t.mins (off / 4 - 8), 16)]
  else
    match off with
    | 0x000 => packW [((match t.idx with
        | a :: r => r.foldl min a
        | [] => 0), 0), (t.minIdx, 16)]
    | 0x004 => loW (nth 0 t.idx 0)
    | 0x008 => loW (nth 0 t.idx 1)
    | 0x00C => loW (nth 0 t.idx 2)
    | 0x010 => loW (nth 0 t.idx 3)
    | 0x014 => packW [(t.mv, 0), (t.minMv, 16)]
    | 0x018 => packW [(b2n t.alarm, 0), (t.cause, 1), (t.count, 16)]
    | o => s.reg (0x018000 + o)

/-- A word of the halt record that HLT.HREC_SEL names, 0 for the newest; zero where the ring holds fewer (Table 15-13). -/
def State.hrecWord (s : State) (i : Nat) : Word :=
  let sel := (s.reg Reg.HLT_HREC_SEL).toNat % 16
  if sel < s.haltOrder.length then loW (leAt (s.haltRec (nth 0 s.haltOrder sel)) (4 * i) 4) else 0

def State.viewHlt (s : State) (off : Nat) : Word :=
  let h := s.hlt
  if 0x048 ≤ off ∧ off < 0x078 then s.hrecWord (off / 4 - 18)
  else
    match off with
    | 0x000 => packW [(b2n h.por, 0), (b2n h.brownout, 1), (b2n h.perst, 2), (b2n h.haltBefore, 3), (b2n h.warmLink, 8), (b2n h.warmHot, 9)]
    | 0x004 => packW [(s.boot.step, 0), (s.boot.slot, 8), (b2n s.boot.fallback, 9), (b2n s.boot.early, 10), (b2n s.boot.dramFail, 11)]
    | 0x008 => packW [(s.boot.bootMs, 0), (s.boot.rebuildMs, 16)]
    | 0x010 => loW h.accErr
    | 0x014 => h.accAddr
    | 0x020 => loW h.supply
    | 0x024 => packW [(satU 16 (s.ctr 6), 0), (h.warmCnt, 16)]
    | 0x044 => loW s.haltOrder.length
    | o => s.reg (0x020000 + o)

/-! ### SEA, FSS, MCH, ARC (spec/05 to spec/08) -/

def State.viewSea (s : State) (off : Nat) : Word :=
  let e := s.sea
  match off with
  | 0x000 => packW [(b2n e.otpOk, 0), (e.slot, 1), (b2n e.copyFail, 3), (e.revoked, 4), (b2n e.rngOk, 8), (b2n e.selftestOk, 9),
      (b2n e.sweepDone, 10)]
  | 0x004 => loW (e.sweepLines / 16384)
  | 0x008 => loW (protMib e.lpddrMib)
  | 0x00C => if e.lpddrMib = 0 then 0 else Config.mgmtBase
  | 0x010 => if e.lpddrMib = 0 then 0 else Config.mgmtSize
  | 0x020 => packW [(e.retryDram, 0), (e.retryLeaf, 16)]
  | 0x024 => packW [(e.repairFlash, 0), (e.repairArc, 16)]
  | 0x030 => packW [(e.violCount, 0), (e.violInit, 16)]
  | 0x034 => loW e.violAddr
  | 0x038 => hiW e.violAddr
  | 0x104 => loW e.quar.length
  | 0x10C => packW [((s.inst.filter (fun e => e.2.keyLive)).length, 0), (b2n (s.inst.any (fun e => e.2.keyLost)), 16)]
  | o => s.reg (0x030000 + o)

/-- The least and greatest erase counts of the good blocks (FSS.WEAR). -/
def State.wear (s : State) : Nat × Nat :=
  let l := s.goodDies.foldl (fun a d =>
    a ++ ((List.range s.fss.blocksPerDie).filter (fun b => decide ((s.block d b).use ≠ .retired))).map (fun b => (s.block d b).erases)) []
  match l with
  | [] => (0, 0)
  | a :: r => (satU 16 (r.foldl min a), satU 16 (r.foldl max a))

def State.fewestGood (s : State) : Nat :=
  match s.goodDies.map s.goodBlocks with
  | [] => 0
  | a :: r => r.foldl min a

def State.viewFss (s : State) (off : Nat) : Word :=
  let f := s.fss
  match off with
  | 0x000 => packW [(b2n f.ready, 0), (b2n f.formatted, 1), (b2n f.rebuild, 2), (b2n f.dieRebuild, 3), (b2n (f.dies.any (fun d => d.failed)), 4),
      (b2n (f.quiesced && f.progs.all (fun p => p.queued)), 5)]
  | 0x004 => packW [(s.goodDies.length, 0), (f.ppb, 16)]
  | 0x008 => packW [(f.blocksPerDie, 0), (s.fewestGood, 16)]
  | 0x00C => loW f.cap
  | 0x010 => hiW f.cap
  | 0x014 => f.nandCfg
  | 0x03C => packW [(b2n f.hregEn, 0), (b2n f.hregBusy, 1), (b2n f.hregErr, 2)]
  | 0x040 => packW [(f.retried, 0), (f.rebuilt, 16)]
  | 0x044 => packW [(f.lost, 0), (f.retired, 16)]
  | 0x048 => packW [(maskOf 16 (fun d => s.goodDies.contains d), 0), (maskOf 16 (fun d => (nth Die.reset f.dies d).failed), 16)]
  | 0x04C => packW [(s.wear.1, 0), (s.wear.2, 16)]
  | 0x050 => loW f.rootSeq
  | 0x054 => loW f.rbTime
  | o => s.reg (0x040000 + o)

/-- Lines valid and dirty in the map cache (MCH.LINES); before the arrays have been invalidated the counts mean nothing. -/
def State.lineCount (s : State) (dirty : Bool) : Nat :=
  (s.mch.lines.filter (fun e => match e.2 with
    | some l => !dirty || l.dirty
    | none => false)).length

def State.viewMch (s : State) (off : Nat) : Word :=
  let m := s.mch
  if 0x040 ≤ off ∧ off < 0x060 then packW [((s.way (off / 4 - 16)).inWindow, 0), ((s.way (off / 4 - 16)).total, 16)]
  else
    match off with
    | 0x004 => packW [(b2n s.mchActive, 0), (b2n m.invOk, 1), (b2n (decide (m.off % 256 = 255)), 2)]
    | 0x008 => packW [(s.lineCount false, 0), (s.lineCount true, 16)]
    | 0x020 => packW [(b2n m.op.isSome, 0), (b2n m.done, 1), (b2n m.aborted, 2), (b2n m.refused, 3), (m.written, 16)]
    | 0x024 => loW m.evt
    | 0x034 => packW [(m.off, 0), (m.auto, 8)]
    | 0x060 => loW m.hits
    | 0x064 => loW m.misses
    | o => s.reg (0x050000 + o)

/-- ARC.POS. -/
def State.arcPosWord (s : State) : Word :=
  packW ((List.range 4).foldl (fun l d => l ++ [((match nth none s.arc.pos d with
    | some p => p
    | none => 7), 4 * d), (b2n (nth false s.arc.blank d), 4 * d + 3)]) [])

def State.viewArc (s : State) (off : Nat) : Word :=
  let a := s.arc
  match off with
  | 0x000 => packW [(b2n a.loaded, 0), (b2n s.setWritable, 1), (b2n a.finalised, 2), (b2n (s.setWritable && decide (s.writeDrives.length = 3)), 3), (b2n a.rebuilding, 4),
      (b2n a.full, 5), (b2n s.queueWaits, 6), (if a.loaded then a.layers else 0, 8), (a.active.length, 16)]
  | 0x004 => loW a.setId
  | 0x008 => hiW a.setId
  | 0x00C => s.arcPosWord
  | 0x010 => loW a.next
  | 0x014 => loW a.total
  | 0x018 => loW a.session
  | 0x030 => packW [(a.replaced, 0), (a.rebuilt, 16)]
  | 0x034 => packW [(a.lost, 0), (a.structs, 16)]
  | 0x038 => loW ((a.spare.map (fun e => e.2)).foldl (fun x y => x + y) 0)
  | o => s.reg (0x060000 + o)

/-! ### The drives: RDC, WST, SRV, SPN, SLD (spec/09 to spec/12) -/

/-- Verification results of a drive are outstanding. -/
def State.verifying (s : State) (d : Nat) : Bool :=
  match s.posOf d with
  | some p => s.arc.going.any (fun (t : Stripe) => t.open_.contains p && !decide ((s.drive d).wst.burst = some t.num))
  | none => false

def State.viewRdc (s : State) (d off : Nat) : Word :=
  let c := (s.drive d).rdc
  let w := (s.drive d).wst
  if 0x100 ≤ off ∧ off < 0x1A0 then loW (s.zoneW d 0 (off / 4 - 64))
  else if 0x200 ≤ off ∧ off < 0x2A0 then loW (s.zoneW d 1 (off / 4 - 128))
  else
    match off with
    | 0x000 => packW [(b2n c.clkLock, 0), (b2n c.rx.fly.lock, 1), (b2n c.started, 2), (b2n (s.verifying d), 3)]
    | 0x004 => loW c.kbps
    | 0x028 => packW [(wrapN 10 c.rx.pk, 0), (wrapN 10 c.rx.nk, 16)]
    | 0x040 => packW [(c.inferred, 0), (c.shifted, 16)]
    | 0x044 => packW [(c.unsync, 0), (c.realigned, 16)]
    | 0x048 => packW [(c.readFail, 0), (c.vfyFail, 16)]
    | 0x04C => packW [(c.idErr, 0), (c.rfLoss, 16)]
    | 0x050 => loW c.ovr
    | 0x4000 => packW [(b2n w.gate, 0), (b2n w.burst.isSome, 1), (b2n w.opcBusy, 2), (b2n w.opcFail, 3), (b2n w.pcaFull, 4), (b2n w.deferred, 5)]
    | 0x4048 => packW [((nth ⟨false, 0, 0, 0⟩ w.opc 0).popt, 0), ((nth ⟨false, 0, 0, 0⟩ w.opc 0).pind, 16)]
    | 0x404C => packW [((nth ⟨false, 0, 0, 0⟩ w.opc 1).popt, 0), ((nth ⟨false, 0, 0, 0⟩ w.opc 1).pind, 16)]
    | 0x4050 => loW (match w.pca with
        | a :: r => r.foldl min a
        | [] => 0)
    | o => s.reg (0x080000 + d * 0x10000 + o)

def State.viewSrv (s : State) (a off : Nat) : Word :=
  let x := s.axis a
  let g := if a % 4 = 0 then (s.drive (a / 4)).lasGroup else (s.drive (a / 4)).spnGroup
  match off with
  | 0x000 => packW [(x.st.code, 0), (b2n x.locked, 3), (x.bank, 4), (b2n x.swapPending, 5), (b2n x.srcFault, 6), (b2n x.manual, 7),
      (x.lateRun, 8), (x.lateCnt, 16)]
  | 0x020 => wordOfInt x.err
  | 0x024 => wordOfInt x.out
  | 0x028 => packW [(x.compLast, 0), (x.compMax, 16)]
  | 0x224 => wordOfInt x.sp
  | 0x300 => loW g.winner
  | 0x304 => wordOfInt g.demand
  | 0xF00 => packW [(b2n s.stl.alarm, 0), (s.lateOpens, 16)]
  | 0xF08 => loW s.rate.kbs
  | 0xF04 => s.reg Reg.SRV_RATE_CFG
  | o => s.reg (0x0C0000 + a * 0x1000 + o)

def State.viewSpn (s : State) (d off : Nat) : Word :=
  let p := (s.drive d).spin
  match off with
  | 0x000 => packW [(p.st.code, 0), (b2n p.locked, 3), (b2n p.grant, 4), (b2n p.keFault, 5), (p.fault, 8), (p.retries, 16)]
  | 0x050 => packW [(satU 16 (rpmOf (s.speed d)), 0), (satU 16 (rpmOf (s.axis (axisOf d 2)).sp), 16)]
  | 0x054 => loW p.ke
  | 0x058 => packW [(p.lossCnt, 0), (p.lockedCnt, 16)]
  | 0x05C => loW p.events
  | o => s.reg (0x0D0000 + d * 0x1000 + o)

def State.viewSld (s : State) (d off : Nat) : Word :=
  let l := (s.drive d).sled
  match off with
  | 0x000 => packW [(l.st.code, 0), (b2n l.homed, 3), (b2n l.clamped, 4), (b2n l.refused, 5), (l.fault, 8)]
  | 0x00C => wordOfInt l.pos
  | 0x010 => wordOfInt l.err
  | 0x014 => packW [(l.lost, 0), (l.late, 16)]
  | o => s.reg (0x0E0000 + d * 0x1000 + o)

/-! ### CAL, HRN, TIM, NVS, LOG, INP (spec/13, spec/16, spec/18) -/

/-- The item entry that CAL.ITEM_SEL names. -/
def State.selItem (s : State) : CalItem := s.calItem (Cf.CAL_ITEM_SEL_kind s) (Cf.CAL_ITEM_SEL_drive s)

def State.viewCal (s : State) (off : Nat) : Word :=
  let c := s.cal
  if 0x060 ≤ off ∧ off < 0x070 then packW [(wrapN 16 (s.driveTemp (off / 4 - 24)), 0), (wrapN 16 s.dieTemp, 16)]
  else if 0x070 ≤ off ∧ off < 0x080 then
    packW [(wrapN 16 (nth 0 c.driftRf (off / 4 - 28)), 0), (wrapN 16 (nth 0 c.driftSvo (off / 4 - 28)), 16)]
  else if 0x080 ≤ off ∧ off < 0x094 then
    (let k := off / 4 - 32
     packW [(nth 0 c.seqs k % 65536, 0), (nth 0 c.copies k, 16), (b2n (bitN c.crcFail k), 17), (b2n (bitN c.dirty k), 18)])
  else
    match off with
    | 0x000 => packW [(b2n c.running.isSome, 0), ((match c.running with
        | some (k, _, _) => k
        | none => 0), 8), ((match c.running with
        | some (_, d, _) => d
        | none => 0), 12), (c.failMask, 16), (maskOf 4 s.thermFault, 20), (maskOf 4 (fun d => s.covers d (s.drive d).layer), 24)]
    | 0x044 => packW [(s.selItem.count, 0), (s.selItem.fails, 16)]
    | 0x048 => loW s.selItem.secs
    | 0x04C => hiW s.selItem.secs
    | 0x050 => loW (wrapN 16 s.selItem.temp)
    | o => s.reg (0x0F0000 + o)

/-- The rates of R530, in the order of HRN.CRLW.baud. -/
def baudRates : List Nat := [9600, 19200, 38400, 57600, 115200, 230400, 460800, 921600]

/-- The baud rate and the idle timeout of the monitor settings in force; out of range, the defaults (R539). -/
def State.monBaud (s : State) : Nat :=
  match s.monCur with
  | some k => (let b := leAt (s.monCopy k) 16 4
     if baudRates.contains b then b else 115200)
  | none => 115200

def State.monIdle (s : State) : Nat :=
  match s.monCur with
  | some k => (let b := leAt (s.monCopy k) 20 2
     if 30 ≤ b ∧ b ≤ 3600 then b else 300)
  | none => 300

def State.viewHrn (s : State) (off : Nat) : Word :=
  let r := s.slotRecord.1
  if 0x030 ≤ off ∧ off < 0x040 then loW (nth 0 s.sns.thm (off / 4 - 12))
  else if 0x040 ≤ off ∧ off < 0x058 then loW (nth 0 s.sns.sup (off / 4 - 16))
  else if 0x060 ≤ off ∧ off < 0x070 then loW (nth 0 s.sns.ldi (off / 4 - 24))
  else
    match off with
    | 0x000 => loW (b2n s.sns.hot)
    | 0x004 => packW [(s.boot.slot, 0), (r.valid % 4, 1), (r.active % 2, 3), (r.trial % 4, 4)]
    | 0x008 => loW r.verA
    | 0x00C => loW r.verB
    | 0x010 => loW s.fw.staged
    | 0x020 => packW [(wrapN 16 (s.siteTemp 0), 0), (wrapN 16 (s.siteTemp 1), 16)]
    | 0x024 => packW [(wrapN 16 (s.siteTemp 2), 0), (wrapN 16 (s.siteTemp 3), 16)]
    | 0x028 => loW s.sns.excl
    | 0x080 => packW [(b2n s.monLocked, 0), (b2n s.mon.entered, 1), (b2n s.mon.unlocked, 2), (baudRates.idxOf s.monBaud, 16)]
    | o => s.reg (0x100000 + o)

/-- The real-time clock's upper registers return what the last read of TIM.SEC_LO latched (R22, R519). -/
def State.viewTim (s : State) (off : Nat) : Word :=
  let t := s.tm
  match off with
  | 0x000 => loW t.sec
  | 0x004 => hiW t.sec
  | 0x008 => (Bank.get latchDef s.latches Reg.TIM_SUB).getD (loW t.sub)
  | 0x020 => packW [(b2n t.valid, 0), (b2n t.pending, 1), (b2n t.regressed, 2), (t.commits, 16)]
  | 0x028 => loW t.mono
  | 0x02C => hiW t.mono
  | o => s.reg (0x101000 + o)

/-- The counter that NVS.CNT_SEL names. -/
def State.selCtr (s : State) : Nat := s.ctr (Cf.NVS_CNT_SEL_num s)

def State.viewNvs (s : State) (off : Nat) : Word :=
  let n := s.nvs
  match off with
  | 0x000 => packW [(n.copy, 0), (b2n n.fallback, 1), (b2n n.factory, 2), (b2n n.owner.isSome, 3), (b2n n.formatArmed, 4), (b2n n.busy, 5)]
  | 0x004 => loW n.seq
  | 0x014 => loW s.selCtr
  | 0x018 => hiW s.selCtr
  | 0x01C => loW (b2n n.recovered)
  | 0x020 => loW n.writes
  | o => s.reg (0x102000 + o)

def State.viewLog (s : State) (off : Nat) : Word :=
  let l := s.log
  match off with
  | 0x000 => loW l.next
  | 0x004 => loW (match l.ring.getLast? with
      | some e => e.seq
      | none => 0)
  | 0x008 => loW l.unmirrored
  | 0x00C => loW l.lost
  | 0x010 => loW l.evt
  | o => s.reg (0x103000 + o)

def State.viewInp (s : State) (off : Nat) : Word :=
  let p := s.inp
  if 0x060 ≤ off ∧ off < 0x088 then loW (nth 0 p.codes (off / 4 - 24))
  else
    match off with
    | 0x000 => loW s.levels
    | 0x004 => loW p.stuck
    | 0x008 => loW p.chat
    | 0x00C => loW p.range
    | 0x010 => loW p.evt
    | 0x01C => loW p.raw
    | 0x020 => packW [(p.stuckCnt, 0), (p.chatCnt, 16)]
    | o => s.reg (0x110000 + o)

/-! ### The instance table and the rings (spec/03, spec/04) -/

def State.viewInst (s : State) (i off : Nat) : Word :=
  let r := s.getInst i
  match off with
  | 0x00 => packW [(r.state.code, 0), (r.gen, 4), (s.segCount i, 16)]
  | 0x08 => loW r.nsSize
  | 0x0C => hiW r.nsSize
  | 0x10 => loW r.quota
  | 0x14 => hiW r.quota
  | 0x18 => loW r.used
  | 0x1C => hiW r.used
  | 0x20 => packW [(b2n r.legalHold, 0), (r.warnPct, 8)]
  | 0x24 => loW r.minHold
  | 0x28 => loW (match r.opened with
      | some p => p.closing
      | none => 0)
  | 0x2C => hiW (match r.opened with
      | some p => p.closing
      | none => 0)
  | o => s.reg (0x120000 + i * 0x100 + o)

/-- RNG.SQ_STS and RNG.CQ_STS. -/
def State.sqSts (s : State) (f i : Nat) : Word :=
  packW [((s.sq f i).head, 0), ((s.sq f i).err, 16), (b2n (!s.cmds.any (fun (c : Cmd) => decide (c.fn.toNat = f ∧ c.sq = some i))), 20)]
def State.cqSts (s : State) (f j : Nat) : Word :=
  packW [((s.cq f j).tail, 0), (b2n (s.cq f j).phase, 12), ((s.cq f j).err, 16)]

/-- A word of one function's BAR0. -/
def State.viewBar0 (s : State) (f off : Nat) : Word :=
  let n := s.getFn f
  if 0x1200 ≤ off ∧ off < 0x1400 then
    (match n.outSlots.find? (fun e => decide (e.1 = (off - 0x1200) / 64)) with
    | some e => loW (leAt e.2.body (off % 64) 4)
    | none => 0)
  else if 0x3100 ≤ off ∧ off < 0x3140 ∧ off % 16 = 12 then s.sqSts f ((off - 0x3100) / 16)
  else if 0x3140 ≤ off ∧ off < 0x3180 ∧ off % 16 = 12 then s.cqSts f ((off - 0x3140) / 16)
  else if 0x2048 ≤ off ∧ off < 0x2058 then nth 0 n.tskCpl ((off - 0x2048) / 4)
  else if 0x4000 ≤ off ∧ off < 0x4100 then
    (let e := Bank.get msixDef n.msix ((off - 0x4000) / 16)
     match off % 16 with
     | 0 => loW e.addr
     | 4 => hiW e.addr
     | 8 => loW e.data
     | _ => loW (b2n e.masked))
  else if 0x7000 ≤ off ∧ off < 0x8000 then loW (leNat (s.pageBytes f (off - 0x7000) 4))
  else
    match off with
    | 0x0000 => packW [((s.getInst f).state.code, 0), ((s.getInst f).gen, 4), (f, 24)]
    | 0x0004 => loW n.insEvt
    | 0x1404 => loW (maskOf 8 (fun k => n.posted.contains k))
    | 0x1408 => packW [(maskOf 8 (fun k => n.outSlots.any (fun e => decide (e.1 = k))), 0), (b2n (!n.overflow.isEmpty), 8), (n.nextSeq, 16)]
    | 0x2044 => packW [(b2n n.tskBusy, 0), (b2n n.tskDone, 1)]
    | 0x3010 => packW [(b2n n.db.asleep, 0), (s.inflight f, 8), (n.spurious, 16)]
    | 0x3014 => loW n.rngEvt
    | 0x6000 => loW n.pba
    | o => if (bar0Desc f o).isSome then s.reg (bar0Key f o) else 0

/-- A word of the context view: SQ i at 16 i, CQ j at 64 + 16 j, each a copy of its four registers (Table 04-20). -/
def State.viewRings (s : State) (off : Nat) : Word :=
  let o := off % 0x80
  if 256 ≤ off / 0x80 then 0 else s.viewBar0 (off / 0x80) (0x3100 + o)

def State.viewRngg (s : State) (off : Nat) : Word :=
  match off with
  | 0x008 => loW s.cmds.length
  | 0x00C => packW [(s.dbErr, 0), (s.sqErr, 16)]
  | o => s.reg (0x138000 + o)

/-! ### One word -/

/-- The bits of a register that a read can return: all but the WO and RSV ones (R7). -/
def readMask (k : Nat) (w : Word) : Word :=
  match regDesc k with
  | some r => w &&& BitVec.ofNat 32 (r.rw ||| r.rws ||| r.w1c ||| r.ro)
  | none => 0

/-- A word of PF BAR2 before the mask. -/
def State.viewBar2 (s : State) (off : Nat) : Word :=
  if off < 0x010000 then s.viewCfg off
  else if off < 0x014000 then s.viewClk (off - 0x010000)
  else if off < 0x018000 then s.viewPwb (off - 0x014000)
  else if off < 0x020000 then s.viewStl (off - 0x018000)
  else if off < 0x030000 then s.viewHlt (off - 0x020000)
  else if off < 0x040000 then s.viewSea (off - 0x030000)
  else if off < 0x050000 then s.viewFss (off - 0x040000)
  else if off < 0x060000 then s.viewMch (off - 0x050000)
  else if off < 0x080000 then s.viewArc (off - 0x060000)
  else if off < 0x0C0000 then s.viewRdc ((off - 0x080000) / 0x10000) ((off - 0x080000) % 0x10000)
  else if off < 0x0D0000 then s.viewSrv ((off - 0x0C0000) / 0x1000) (off % 0x1000)
  else if off < 0x0E0000 then s.viewSpn ((off - 0x0D0000) / 0x1000) (off % 0x1000)
  else if off < 0x0F0000 then s.viewSld ((off - 0x0E0000) / 0x1000) (off % 0x1000)
  else if off < 0x100000 then s.viewCal (off - 0x0F0000)
  else if off < 0x101000 then s.viewHrn (off - 0x100000)
  else if off < 0x102000 then s.viewTim (off - 0x101000)
  else if off < 0x103000 then s.viewNvs (off - 0x102000)
  else if off < 0x110000 then s.viewLog (off - 0x103000)
  else if off < 0x120000 then s.viewInp (off - 0x110000)
  else if off < 0x130000 then s.viewInst ((off - 0x120000) / 0x100) (off % 0x100)
  else if off < 0x138000 then s.viewRings (off - 0x130000)
  else s.viewRngg (off - 0x138000)

/-- PF BAR2 word, as a read with an empty latch returns it. -/
def State.bar2Word (s : State) (off : Nat) : Word :=
  if 0x130000 ≤ off ∧ off < 0x138000 then s.viewRings (off - 0x130000) else readMask off (s.viewBar2 off)

/-- BAR0 word of function `f`: the MSI-X structures and the page window have no access codes of R7. -/
def State.bar0Word (s : State) (f off : Nat) : Word :=
  if (0x4000 ≤ off ∧ off < 0x4100) ∨ (0x6000 ≤ off ∧ off < 0x6008) ∨ 0x7000 ≤ off then s.viewBar0 f off
  else readMask (bar0Key f off) (s.viewBar0 f off)

/-! ### Latched pairs (R22) -/

/-- The registers whose reading latches the next one: the lower halves of 64-bit quantities. -/
def isLowHalf (k : Nat) : Bool :=
  if k < 0x400000 then
    (if 0x120000 ≤ k ∧ k < 0x130000 then [0x08, 0x10, 0x18, 0x28].contains (k % 0x100)
     else if 0x130000 ≤ k ∧ k < 0x138000 then decide (k % 16 = 0)
     else [0x000008, 0x030034, 0x04000C, 0x040030, 0x060004, 0x0F0048, 0x101010, 0x101028, 0x102014].contains k)
  else if k < 0x2000000 then
    (let o := k % 0x8000
     o = 0x3000 || (decide (0x3100 ≤ o ∧ o < 0x3180) && decide (o % 16 = 0)))
  else [0x200040C, 0x2000414].contains k

/-- The registers that a read of register `k` latches. -/
def latchedBy (k : Nat) : List Nat :=
  if k = 0x020048 then (List.range 11).map (fun i => 0x02004C + 4 * i)
  else if k = 0x101000 then [0x101004, 0x101008]
  else if isLowHalf k then [k + 4]
  else []

end Sys2Proof.Machine
end

