-- ==== Sys2Proof/Machine/HostAccess.lean ====
section
/-!
DEFINITION. The host's register accesses (spec/00, R7 to R10, R20 to R24; spec/20, R582, R584): reads with their latches, writes by
access code, width and alignment, and the commands REGISTER_WRITE, LATCHED_PAIR_READ, ACC_CLR and RST_CNT_CLEAR. A write of a register
whose effect is a row of its own takes that row's meaning.
-/

namespace Sys2Proof.Machine

def fin4 (n : Nat) : Fin 4 := ⟨n % 4, Nat.mod_lt n (by decide)⟩
def fin16 (n : Nat) : Fin 16 := ⟨n % 16, Nat.mod_lt n (by decide)⟩
def fin2 (n : Nat) : Fin 2 := ⟨n % 2, Nat.mod_lt n (by decide)⟩

/-- The state that a row leaves; the present one where the row stops. -/
def runRow (o : Host.Outcome State Fault Refusal) (s : State) : State :=
  match o with
  | .next t => t
  | _ => s

/-! ### Reads (R7, R8, R9, R22) -/

/-- What a register holds for a reader. -/
def State.liveWord (s : State) (k : Nat) : Word :=
  if k < 0x400000 then s.bar2Word k
  else if k < 0x2000000 then s.bar0Word ((k - 0x1000000) / 0x8000) (k % 0x8000)
  else s.hstRead (k - 0x2000400)

/-- One register is read: an upper half from its latch unless the latch is empty; a lower half fills the latches of its pair. -/
def State.readWord (s : State) (k : Nat) : Word × State :=
  ((Bank.get latchDef s.latches k).getD (s.liveWord k),
   forEach (latchedBy k) (fun j t => { t with latches := Bank.set latchDef t.latches j (some (s.liveWord j)) }) s)

/-- The words that an access touches, read in address order, the first at offset `off`. -/
def readWords (rd : Nat → State → Word × State) : Nat → Nat → State → List Byte × State
  | 0, _, s => ([], s)
  | n + 1, off, s =>
    let (v, s) := rd off s
    let (l, s) := readWords rd n (off + 4) s
    (leBytes 4 v.toNat ++ l, s)

/-- A read of `len` bytes at any offset: the addressed bytes of each register it touches, in address order (R8). -/
def readSpan (rd : Nat → State → Word × State) (off len : Nat) (s : State) : List Byte × State :=
  let (l, s) := readWords rd ((off % 4 + len + 3) / 4) (off / 4 * 4) s
  (slice l (off % 4) len, s)

/-- A word of a BAR0: past its end zero (R9); under an instance reset all ones, INS.STS apart (R91). -/
def State.readBar0 (f o : Nat) (s : State) : Word × State :=
  if 0x8000 ≤ o then (0, s) else if s.inReset f && decide (o ≠ 0) then (0xFFFFFFFF, s) else s.readWord (bar0Key f o)

/-- A word of PF BAR2. -/
def State.readBar2 (o : Nat) (s : State) : Word × State := if 0x400000 ≤ o then (0, s) else s.readWord o

/-- A word of configuration space: the HST capability latches its pairs (R22). -/
def State.readCfg (f o : Nat) (s : State) : Word × State :=
  if f = 0 ∧ 0x400 ≤ o ∧ o < 0x440 then s.readWord (0x2000000 + o) else (s.cfgRead f o, s)

/-- The answer to a read, by the words that `rd` reads. -/
def State.answerRead (s : State) (rd : Nat → State → Word × State) (f : Func) (off len : Nat) : State :=
  let (l, t) := readSpan rd off len s
  t.emitCpl (.readData f off l)

/-- All ones. -/
def onesRead (_ : Nat) (s : State) : Word × State := (0xFFFFFFFF, s)

/-- A configuration read: Retry Status before the first ready state, in a warm reset and within a function-level reset, Unsupported
Request of a function that does not exist; in the halt the responder answers (R44, R49, R60, R490). DEDUCED, log entry 32. -/
def State.configRead (s : State) (f : Func) (off len : Nat) : State :=
  if s.hlt.halt.isSome then s.answerRead (if f = 0 then State.readCfg 0 else onesRead) f off len
  else if !s.link.up then s
  else if !s.serving then s.emitCpl (.cplCrs f)
  else if !s.fnExists f.toNat then s.emitCpl (.cplUr f)
  else if (s.getFn f.toNat).flr then s.emitCpl (.cplCrs f)
  else s.answerRead (State.readCfg f.toNat) f off len

/-- LATCHED_PAIR_READ (R8, R22, R23, R91): registers are read and their bytes returned; all ones in the halt. DEDUCED, log entry 31. -/
def execLatchedPairRead (sp : Space) (r : RegSpan) (s : State) : Host.Outcome State Fault Refusal :=
  let o := r.off.toNat
  .next (if s.hlt.porHeld || s.hlt.perstLow then s else match sp with
    | .bar0 f =>
      if s.hlt.halt.isSome then s.answerRead onesRead f o r.w.bytes
      else if !s.barOpen f.toNat || decide (0x8000 ≤ o) then s.emitCpl (.cplUr f)
      else s.wakeUp.answerRead (State.readBar0 f.toNat) f o r.w.bytes
    | .bar2 =>
      if s.hlt.halt.isSome then s.answerRead onesRead 0 o r.w.bytes
      else if s.barOpen 0 then s.wakeUp.answerRead State.readBar2 0 o r.w.bytes
      else s.emitCpl (.cplUr 0)
    | .hst => if 0x400 ≤ o ∧ o < 0x440 then s.configRead 0 o r.w.bytes else s
    | .cfg f => if o < 4096 then s.configRead f o r.w.bytes else s)

/-! ### Effects of a write -/

/-- A mask without the bits written as one (W1C). -/
def w1c (n : Nat) (v : Word) (lo len : Nat) : Nat := n &&& ((2 ^ len - 1) ^^^ fld v lo len)
def keeps (b : Bool) (v : Word) (i : Nat) : Bool := b && !bitN v.toNat i

/-- The commands of one servo axis (Table 10-7); a number that the axis has no command for does nothing (R24). -/
def State.axisCmd (s : State) (a : Nat) (v : Word) : State :=
  let d := fin4 (a / 4)
  let l := fin2 (fld v 8 1)
  match fld v 0 3 with
  | 1 => runRow (execOpenAxis (fin16 a) s) s
  | 2 => runRow (execCloseAxis (fin16 a) s) s
  | 3 => if a % 4 = 0 then runRow (execAcquire d l s) s else s
  | 4 => if a % 4 = 1 then runRow (execSeek d (s.drive (a / 4)).track s) s else s
  | 5 => if a % 4 = 0 then runRow (execLayerJump d l s) s else s
  | 7 => runRow (execReleaseToHeron (fin16 a) s) s
  | _ => s

def State.spinCmd (s : State) (d : Nat) (v : Word) : State :=
  match fld v 0 3 with
  | 1 => runRow (execSpinStart (fin4 d) s) s
  | 2 => runRow (execSpinStop (fin4 d) s) s
  | 3 => runRow (execCoast (fin4 d) s) s
  | 4 => runRow (execClearFault (fin4 d) s) s
  | _ => s

def State.sledCmd (s : State) (d : Nat) (v : Word) : State :=
  match fld v 0 3 with
  | 1 => runRow (execTravel (fin4 d) s) s
  | 2 => runRow (execSledSeek (fin4 d) s) s
  | 3 => runRow (execHome (fin4 d) s) s
  | 4 => runRow (execPark (fin4 d) s) s
  | 5 => runRow (execSledStop (fin4 d) s) s
  | 6 => runRow (execSledRelease (fin4 d) s) s
  | 7 => runRow (execSledClear (fin4 d) s) s
  | _ => s

/-- The three registers of a programmable range keep their values once locked (R199). DEDUCED, log entry 30. -/
def State.rcLocked (s : State) (k : Nat) : Bool := decide (fld (s.reg (Reg.SEA_RC_CTL ((k - 0x030040) / 0x10))) 1 1 = 1)

/-- A write to an axis block: the active bank is closed to writes (R348). -/
def State.writeSrv (s : State) (k : Nat) (v : Word) : State :=
  let a := (k - 0x0C0000) / 0x1000
  let o := k % 0x1000
  if o = 0x004 then (s.noteRsv k v).axisCmd a v
  else if o = 0x02C then runRow (execSwap (fin16 a) v (s.noteRsv k v)) s
  else if 0x100 ≤ o ∧ o < 0x180 then (if (o - 0x100) / 0x40 = (s.axis a).bank then s.accError 0 1 k else s.storeReg k v)
  else if o = 0xF04 then s.storeReg Reg.SRV_RATE_CFG v
  else s.storeReg k v

/-- A write to a sled block: a target is refused during a travel (R411). -/
def State.writeSld (s : State) (k : Nat) (v : Word) : State :=
  let d := (k - 0x0E0000) / 0x1000
  let o := k % 0x1000
  if o = 0x000 then
    (s.storeReg k v).modSled d (fun l => { l with clamped := keeps l.clamped v 4, refused := keeps l.refused v 5 })
  else if o = 0x004 then (s.noteRsv k v).sledCmd d v
  else if o = 0x008 ∧ (s.drive d).sled.st = .travel then s.sledRefuse d
  else s.storeReg k v

/-- A write to an RDC or WST block. -/
def State.writeRdc (s : State) (k : Nat) (v : Word) : State :=
  let d := (k - 0x080000) / 0x10000
  let o := (k - 0x080000) % 0x10000
  if o = 0x4000 then (s.storeReg k v).modWst d (fun w => { w with opcFail := keeps w.opcFail v 3 })
  else if o = 0x4004 then
    (if fld v 0 1 = 1 then runRow (execOpcGo (fin4 d) (s.noteRsv k v)) s else s.noteRsv k v)
  else s.storeReg k v

/-- MCH.OP_CTL: an operation of Table 07-1 starts; op 0 is refused (R261). -/
def State.mchOp (s : State) (v : Word) : State :=
  let m := fin2 (fld v 4 1)
  if fld v 8 1 = 0 then s
  else
    match fld v 0 2 with
    | 1 => runRow (execClean m s) s
    | 2 => runRow (execInvalidate m s) s
    | 3 => runRow (execCleanAndInvalidate m s) s
    | _ => s.refuseOp

/-- FSS.HREG_CTL. -/
def State.hregCtl (s : State) (v : Word) : State :=
  let s := (s.noteRsv Reg.FSS_HREG_CTL v)
  let s := { s with fss := { s.fss with hregErr := keeps s.fss.hregErr v 2 } }
  if fld v 0 1 = 1 then runRow (execHregEnable s) s else runRow (execHregDisable s) s

/-- ACC_CLR (R8). -/
def State.accClear (s : State) : State := { s with hlt := { s.hlt with accErr := 0, accAddr := 0 } }

/-- RST_CNT_CLEAR (R517). -/
def State.brownClear (s : State) : State := s.ctrStore 6 0

/-- A write to a register with an effect of its own below 0x080000; the base and size of the host-held region
are closed while it is in use (R221), MCH.OP_* while an operation is busy (R265). -/
def State.writeLow (s : State) (k : Nat) (v : Word) : State :=
  if 0x030040 ≤ k ∧ k < 0x0300C0 then (if s.rcLocked k then s else s.storeReg k v)
  else if 0x040030 ≤ k ∧ k < 0x04003C ∧ (s.fss.hregEn ∨ s.fss.hregBusy) then s
  else if 0x050010 ≤ k ∧ k < 0x050024 ∧ s.mch.op.isSome then s.accError 0 1 k
  else
    match k with
    | 0x000100 => { s.storeReg k v with epoch := { s.epoch with late := keeps s.epoch.late v 17, refused := keeps s.epoch.refused v 18 } }
    | 0x000104 => runRow (execEpochCommit v (s.noteRsv k v)) s
    | 0x010000 => { s.storeReg k v with clk := { s.clk with unresolved := keeps s.clk.unresolved v 15 } }
    | 0x01001C => runRow (execSelReq v (s.noteRsv k v)) s
    | 0x010054 => runRow (execFmcGo v (s.noteRsv k v)) s
    | 0x010058 => { s.storeReg k v with clk := { s.clk with
        fmcDone := keeps s.clk.fmcDone v 1, fmcRefused := keeps s.clk.fmcRefused v 2, fmcGated := keeps s.clk.fmcGated v 3 } }
    | 0x018040 => runRow (execTputClr v (s.noteRsv k v)) s
    | 0x020018 => if fld v 0 1 = 1 then (s.noteRsv k v).accClear else s.noteRsv k v
    | 0x020024 => if fld v 0 16 = 0 then (s.noteRsv k v).brownClear else s.noteRsv k v
    | 0x030108 => runRow (execQuarClr v (s.noteRsv k v)) s
    | 0x04003C => s.hregCtl v
    | 0x050000 => runRow (execMchEnableWrite v s) s
    | 0x05001C => (s.noteRsv k v).mchOp v
    | 0x050020 => { s.storeReg k v with mch := { s.mch with
        done := keeps s.mch.done v 1, aborted := keeps s.mch.aborted v 2, refused := keeps s.mch.refused v 3 } }
    | 0x050024 => { s.storeReg k v with mch := { s.mch with evt := w1c s.mch.evt v 0 4 } }
    | 0x050038 => runRow (execWayEn v (s.noteRsv k v)) s
    | _ => s.storeReg k v

/-- A write to a register with an effect of its own from 0x0F0000 on. -/
def State.writeHigh (s : State) (k : Nat) (v : Word) : State :=
  match k with
  | 0x0F0000 => { s.storeReg k v with cal := { s.cal with failMask := w1c s.cal.failMask v 16 4 } }
  | 0x0F0008 =>
    let s := s.noteRsv k v
    let s := if fld v 8 1 = 1 then runRow (execCalItemGo (fin16 (fld v 0 4)) (fin4 (fld v 4 2)) s) s else s
    if fld v 9 1 = 1 then runRow (execCalStore s) s else s
  | 0x100074 => runRow (execThermWrite v (s.noteRsv k v)) s
  | 0x101010 => if s.tm.pending then s.accError 0 1 k else s.storeReg k v
  | 0x101014 => if s.tm.pending then s.accError 0 1 k else s.storeReg k v
  | 0x101018 => if s.tm.pending then s.accError 0 1 k else s.storeReg k v
  | 0x10101C =>
    let s := s.noteRsv k v
    if fld v 0 2 = 1 then runRow (execSetClock s) s else if fld v 0 2 = 2 then runRow (execCancel s) s else s
  | 0x101020 => { s.storeReg k v with tm := { s.tm with regressed := keeps s.tm.regressed v 2 } }
  | 0x103010 =>
    let s := s.storeReg k v
    { s with log := { s.log with evt := w1c s.log.evt v 0 2 } }
  | 0x110010 => { s.storeReg k v with inp := { s.inp with evt := w1c s.inp.evt v 0 4 } }
  | _ => s.storeReg k v

/-- One word written to PF BAR2. DEDUCED, log entry 30. -/
def State.writeBar2 (s : State) (k : Nat) (v : Word) : State :=
  if (bar2Desc k).isNone then s
  else if k < 0x080000 then s.writeLow k v
  else if k < 0x0C0000 then s.writeRdc k v
  else if k < 0x0D0000 then s.writeSrv k v
  else if k < 0x0E0000 then (if k % 0x1000 = 4 then (s.noteRsv k v).spinCmd ((k - 0x0D0000) / 0x1000) v else s.storeReg k v)
  else if k < 0x0F0000 then s.writeSld k v
  else s.writeHigh k v

/-- One word written to the MSI-X table: address, data, or the mask, whose clearing sends what is pending (R55, R56). -/
def State.writeMsix (s : State) (f off : Nat) (v : Word) : State :=
  let i := (off - 0x4000) / 16
  let set (g : MsixEntry → MsixEntry) : State :=
    s.modFn f (fun n => { n with msix := Bank.set msixDef n.msix i (g (Bank.get msixDef n.msix i)) })
  match off % 16 with
  | 0 => set (fun e => { e with addr := e.addr / 2 ^ 32 * 2 ^ 32 + v.toNat / 4 * 4 })
  | 4 => set (fun e => { e with addr := e.addr % 2 ^ 32 + v.toNat * 2 ^ 32 })
  | 8 => set (fun e => { e with data := v.toNat })
  | _ => (set (fun e => { e with masked := bitN v.toNat 0 })).releasePending f

/-- SQ and CQ contexts: the CFG write enables or disables its ring; the base of an enabled ring is closed to writes (R130).
DEDUCED, log entry 26. -/
def State.writeRing (s : State) (f off : Nat) (v : Word) : State :=
  let cq := decide (0x3140 ≤ off)
  let i := fin4 (off / 16)
  let g : Func := BitVec.ofNat 8 f
  if off % 16 = 8 then
    (if fld v 0 1 = 1 then runRow (execRingEnable g cq i v s) s else runRow (execRingDisable g cq i v s) s)
  else if off % 16 < 8 ∧ (if cq then s.cqOn f i.val else s.sqOn f i.val) then s
  else s.storeReg (bar0Key f off) v

/-- One word written to BAR0 of function `f`. -/
def State.writeBar0 (s : State) (f off : Nat) (v : Word) : State :=
  let k := bar0Key f off
  let g : Func := BitVec.ofNat 8 f
  if 0x4000 ≤ off ∧ off < 0x4100 then s.writeMsix f off v
  else if 0x7000 ≤ off ∧ off < 0x8000 then
    runRow (execSharedPageWrite g (BitVec.ofNat 12 (off - 0x7000)) (leBytes 4 v.toNat) s) s
  else if (bar0Desc f off).isNone then s
  else if 0x1000 ≤ off ∧ off < 0x1200 then
    (if (s.getFn f).posted.contains ((off - 0x1000) / 64) then s.accError f 0 off else s.storeReg k v)
  else if 0x2000 ≤ off ∧ off < 0x2040 then (if (s.getFn f).tskBusy then s.accError f 0 off else s.storeReg k v)
  else if 0x3100 ≤ off ∧ off < 0x3180 then s.writeRing f off v
  else
    match off with
    | 0x3000 => if s.anyRing f then s else s.storeReg k v
    | 0x3004 => if s.anyRing f then s else s.storeReg k v
    | 0x0004 => (s.storeReg k v).modFn f (fun n => { n with insEvt := w1c n.insEvt v 0 4 })
    | 0x1400 => runRow (execMbInPost g (BitVec.ofNat 8 (fld v 0 8)) (s.noteRsv k v)) s
    | 0x140C => runRow (execMbOutAck g (BitVec.ofNat 8 (fld v 0 8)) (s.noteRsv k v)) s
    | 0x2040 => runRow (execGoTask g v (s.noteRsv k v)) s
    | 0x2044 => (s.storeReg k v).modFn f (fun n => { n with tskDone := keeps n.tskDone v 1 })
    | 0x3008 => runRow (execDbEnWrite g v s) s
    | 0x300C => runRow (execWake g s) s
    | 0x3014 => (s.storeReg k v).modFn f (fun n => { n with rngEvt := w1c n.rngEvt v 0 9 })
    | _ => s.storeReg k v

/-- One word written to the HST capability (Tables 02-12, 02-15). DEDUCED, log entry 30. -/
def State.writeHst (s : State) (k : Nat) (v : Word) : State :=
  if k = Reg.HST_CNT_CLR then runRow (execHstCntClr v s) s
  else if k = Reg.HST_IDE_CTL then (s.storeReg k v).resume
  else s

/-! ### Width and alignment (R8, R9) -/

/-- The bytes of an access touch a register of a space. -/
def touchesReg (desc : Nat → Option RegDesc) (off len : Nat) : Bool := (List.range len).any (fun i => (desc ((off + i) / 4 * 4)).isSome)

/-- A run of aligned words written in rising order. -/
def writeWords (w : Nat → Word → State → State) (fuel off : Nat) (data : List Byte) (s : State) : State :=
  match fuel with
  | 0 => s
  | n + 1 => if data.length < 4 then s else writeWords w n (off + 4) (data.drop 4) (w off (BitVec.ofNat 32 (leAt data 0 4)) s)

/-- A write of some bytes: aligned words one by one; a narrow or unaligned write is discarded and, where it touches a register, counted.
DEDUCED, log entry 30. -/
def State.writeBytes (s : State) (w : Nat → Word → State → State) (err : State → State) (desc : Nat → Option RegDesc) (off : Nat)
    (data : List Byte) : State :=
  if off % 4 = 0 ∧ data.length % 4 = 0 then writeWords w data.length off data s
  else if touchesReg desc off data.length then err s
  else s

/-- Shared-page and MSI-X bytes of BAR0 count as registers for the access errors of the window alone (R8, R101). -/
def bar0Touch (f off : Nat) : Option RegDesc := if 0x7000 ≤ off ∧ off < 0x8000 then some rwRow else bar0Desc f off

/-- ACC_CLR (R8): HLT.ACC_ERR and HLT.ACC_ADDR read zero. -/
def execAccClr (s : State) : Host.Outcome State Fault Refusal := .next (hostBar2 s (fun s => s.accClear))

/-- RST_CNT_CLEAR (R517): HLT.RST_CNT.brownout and counter 6 become zero. -/
def execRstCntClear (s : State) : Host.Outcome State Fault Refusal := .next (hostBar2 s (fun s => s.brownClear))

end Sys2Proof.Machine
end

