-- ==== Sys2Proof/Machine/HostRead.lean ====
section
/-!
DEFINITION. The ends of the block's DMA reads (spec/02, R51 to R54; spec/04, R135, R167): data, an error completion, a timeout.
-/

namespace Sys2Proof.Machine

def State.findRead (s : State) (tag : Nat) : Option DmaRead := s.reads.find? (fun r => r.tag = tag)
def State.dropRead (s : State) (tag : Nat) : State := { s with reads := s.reads.filter (fun r => r.tag ≠ tag) }

/-- The data of a read goes to what asked for it (R51, R148). -/
def State.readData (s : State) (r : DmaRead) (data : List Byte) (bad : List Nat) : State :=
  let d := padTo r.len data
  match r.kind with
  | .doorbell => s.doorbellData r.fn.toNat d
  | .entry i => s.takeEntry r.fn i d
  | .elist id => (match s.findCmd id with
    | some c => (s.cmdData c d).pump
    | none => s)
  | .data id => (match s.findCmd id with
    | some c => (s.cmdData c d).pump
    | none => s)
  | .void => s
  | .leaf line => s.leafData line false d bad
  | .leafMac line => s.leafData line true d bad

/-- HOST_READ_COMPLETION (R51): the completion of a read request returns its data; `bad` are the lines of the map cache that fail parity
when a fill evicts them (R268). -/
def execHostReadCompletion (tag : Nat) (data : List Byte) (bad : List Nat) (s : State) : Host.Outcome State Fault Refusal :=
  .next (whenServing s (fun s =>
    match s.findRead tag with
    | some r => (s.dropRead tag).readData r data bad
    | none => s))

/-- A command whose read failed completes with host-access and the address that failed (Table 04-9). -/
def State.cmdReadFail (s : State) (id addr : Nat) : State :=
  match s.findCmd id with
  | some c => if c.stage = .started then s.complete c stHost addr false else s
  | none => s

/-- What a failed read means to what asked for it (R53, R135, R167). -/
def State.readFail (s : State) (r : DmaRead) : State :=
  match r.kind with
  | .doorbell => s.doorbellFail r.fn.toNat
  | .entry i => s.entryFail r.fn.toNat i
  | .elist id => s.cmdReadFail id r.addr
  | .data id => s.cmdReadFail id r.addr
  | .void => s
  | .leaf line => s.leafFail line r.addr
  | .leafMac line => s.leafFail line r.addr

/-- A non-fatal error is reported through AER: the advisory bit of the correctable status and the error's bit of the uncorrectable status
(R41, R53). PRESUMED, log entry 66. -/
def State.aerReport (s : State) (f : Func) (bit : Nat) : State :=
  (s.modFn f.toNat (fun n => { n with cfg := { n.cfg with
    aerCor := setBitN n.cfg.aerCor 13 true, aerUnc := setBitN n.cfg.aerUnc bit true } })).emit (.aer f)

/-- The bit of a failed completion in the uncorrectable status: poisoned data, Unsupported Request, Completer Abort. -/
def aerBit : ReadFail → Nat
  | .poisoned => 12
  | .unsupported => 20
  | .abort => 15

/-- The failure is reported through AER, counted and logged (R53). -/
def State.countReadFail (s : State) (r : DmaRead) (why : ReadFail) : State :=
  let t := s.aerReport r.fn (aerBit why)
  match why with
  | .poisoned => (State.logEv { t with link := { t.link with poisoned := inc16 t.link.poisoned } } .readPoisoned (some r.fn) r.addr)
  | _ => (State.logEv { t with link := { t.link with urCa := inc16 t.link.urCa } } .readRefused (some r.fn) r.addr)

/-- HOST_READ_ERROR_COMPLETION (R53): Unsupported Request, Completer Abort or poisoned data. -/
def execHostReadErrorCompletion (tag : Nat) (why : ReadFail) (s : State) : Host.Outcome State Fault Refusal :=
  .next (whenServing s (fun s =>
    match s.findRead tag with
    | some r => (((s.dropRead tag).countReadFail r why).readFail r).pump
    | none => s))

/-- COMPLETION_TIMEOUT (R53): a read has waited its function's timeout, unless the function disables it. DESIGN CHOICE, log entry 2. -/
def execCompletionTimeout (tag : Nat) (s : State) : Host.Outcome State Fault Refusal :=
  .next (whenServing s (fun s =>
    match s.findRead tag with
    | some r =>
      if (s.getFn r.fn.toNat).cfg.ctoDis then s
      else
        let t := (s.dropRead tag).aerReport r.fn 14
        let t := { t with link := { t.link with cplTimeout := inc16 t.link.cplTimeout } }
        ((t.logEv .readTimeout (some r.fn) r.addr).readFail r).pump
    | none => s))

end Sys2Proof.Machine
end

