-- ==== Sys2Proof/Machine/Monitor.lean ====
section
/-!
DEFINITION. The Curlew monitor (spec/17): its commands, its settings and lock, and the JTAG debug access port (spec/05, R197, R198).
-/

namespace Sys2Proof.Machine

/-! ### Lines (R532, R533) -/

/-- A hexadecimal digit, and a number in a fixed count of digits. -/
def hexDigit (n : Nat) : Byte := BitVec.ofNat 8 (if n % 16 < 10 then 48 + n % 16 else 55 + n % 16)
def hexOf : Nat → Nat → List Byte
  | 0, _ => []
  | k + 1, n => hexOf k (n / 16) ++ [hexDigit n]

/-- Text without spaces at its end, as bytes; a space; the end of a line. -/
def sp : Byte := 32
def crlf : List Byte := [13, 10]
def State.line (s : State) (l : List Byte) : State := s.emit (.uart (l ++ crlf))

/-- The status line and the prompt. -/
def State.status (s : State) (n : Nat) : State := (s.line (46 :: hexOf 2 n)).emit (.uart [62, 32])

/-- The monitor keeps an event until step 8 (R544). -/
def State.monEvent (s : State) (ev : Ev) (arg : Nat) : State := { s with mon := { s.mon with events := s.mon.events ++ [(ev, arg)] } }

/-- A command is refused with a status. DEDUCED, log entry 51. -/
def State.monRefuse (s : State) (n : Nat) : State := (s.monEvent .monitorRefusal n).status n

/-- A complete command line reaches the running monitor; while locked only I, UNLOCK and GO are taken (R541). DEDUCED, log entry 51. -/
def atMonitor (open_ : Bool) (s : State) (g : State → State) : Host.Outcome State Fault Refusal :=
  .next (if s.mon.active && s.running && !s.hlt.porHeld then
    (let s := { s with mon := { s.mon with lastLine := s.tm.mono } }
     if s.mon.locked && !open_ then s.monRefuse 7 else g s)
  else s)

/-- The ID value: bytes 0 to 3 of the device identity digest, as a number whose digits stand in byte order. -/
def idValue : Nat := leNat (leBytes 4 Config.deviceDigest).reverse

/-- The word I's letters. -/
def wStep : List Byte := [83, 84, 69, 80]
def wSlot : List Byte := [83, 76, 79, 84]
def wRev : List Byte := [82, 69, 86]
def wId : List Byte := [73, 68]
def wLock : List Byte := [76, 79, 67, 75]
def wBoot : List Byte := [66, 79, 79, 84]
def wCurlew : List Byte := [67, 85, 82, 76, 69, 87]

/-- I (R535, R541). -/
def execMonI (s : State) : Host.Outcome State Fault Refusal :=
  atMonitor true s (fun s =>
    let r := s.slotRecord.1
    let t := if s.mon.locked then s else s.line (wStep ++ [sp] ++ hexOf 1 s.boot.step)
    let t := t.line (wSlot ++ [sp] ++ hexOf 1 s.sea.slot ++ [sp] ++ wRev ++ [sp] ++ hexOf 1 s.sea.revoked)
    let t := t.line (wId ++ [sp] ++ hexOf 8 idValue)
    let t := t.line (wLock ++ [sp] ++ hexOf 1 (b2n s.monLocked))
    let t := if s.mon.locked then t
      else t.line (wBoot ++ [sp] ++ hexOf 1 r.active ++ [sp] ++ hexOf 1 r.valid ++ [sp] ++ hexOf 1 r.trial)
    t.status 0)

/-! ### RD (R536) -/

/-- One word is read, or the status that refuses it. DEDUCED, log entry 52. -/
def State.monWord (s : State) (a : Nat) : Except Nat (Word × State) :=
  if a % 4 ≠ 0 then .error 2
  else if !s.admits .monitor a false then .error 3
  else
    match regionOf a with
    | .sram => .ok (Bank.get wordDef s.mon.sram a, s)
    | .bar2 => .ok (s.readWord (a - 0x40000000))
    | .lpddrRaw => .error 5
    | .outside => .error 3
    | _ => .ok (BitVec.ofNat 32 (leNat (s.nvmBytes (a - 0x50000000) 4)), s)

/-- Up to `n` words from `a` on, the state they leave, and the status that ended them. -/
def State.monWords (s : State) (a : Nat) : Nat → List Word × State × Nat
  | 0 => ([], s, 0)
  | n + 1 =>
    match s.monWord a with
    | .ok (w, t) =>
      let (l, u, e) := State.monWords t (a + 4) n
      (w :: l, u, e)
    | .error e => ([], if e = 3 then s.rcRefuse .monitor a else s, e)

/-- The data lines of a read, eight words to a line. -/
def State.dataLines (s : State) (a : Nat) (fuel : Nat) (l : List Word) : State :=
  match fuel with
  | 0 => s
  | n + 1 =>
    if l.isEmpty then s
    else
      let body := (l.take 8).foldl (fun b w => b ++ [sp] ++ hexOf 8 w.toNat) []
      State.dataLines (s.line (hexOf 10 a ++ [58] ++ body)) (a + 32) n (l.drop 8)

/-- RD: the words before the first refusal, and the status. DEDUCED, log entry 51. -/
def execMonRd (addr n : BitVec 64) (s : State) : Host.Outcome State Fault Refusal :=
  atMonitor false s (fun s =>
    if n.toNat = 0 ∨ 64 < n.toNat then s.status 2
    else
      let (l, t, e) := s.monWords addr.toNat n.toNat
      let t := t.dataLines addr.toNat 8 l
      if 3 ≤ e then t.monRefuse e else t.status e)

/-! ### WR (R536, R537) -/

/-- NVM words that a WR may not change (Table 17-4): counters, intent cell, slot record, critical log ring, monitor settings.
DEDUCED, log entry 51. -/
def nvmFixed (off : Nat) : Bool :=
  decide ((0x25800 ≤ off ∧ off < 0x27A10) ∨ (0x27C00 ≤ off ∧ off < 0x27C80) ∨ (0x29000 ≤ off ∧ off < 0x29900))

/-- The row that holds a word is rewritten and read back; a mismatch leaves a free value in the word and gives status 06. -/
def State.rowWrite (s : State) (off : Nat) (v : Word) (good : Bool) : State × Nat :=
  let row := off / 64 * 64
  let w := if good then v.toNat else s.freeVal
  let s := if good then s else s.useFree
  let t := s.nvmWrite row (putAt (s.nvmBytes row 64) (off % 64) (leBytes 4 w))
  (t.monEvent .monitorRow (row / 64), if good then 0 else 6)

/-- A write to PF BAR2 acts as the same write of the PF would. -/
def State.asPf (s : State) (off : Nat) (v : Word) : State :=
  let t := ({ s with mon := { s.mon with acting := true } }).writeBar2 off v
  { t with mon := { t.mon with acting := false } }

/-- WR: one word, judged by the range checker and then by Table 17-4. DEDUCED, log entry 51. -/
def execMonWr (addr value : BitVec 64) (good : Bool) (s : State) : Host.Outcome State Fault Refusal :=
  atMonitor false s (fun s =>
    let a := addr.toNat
    let v : Word := BitVec.ofNat 32 value.toNat
    if a % 4 ≠ 0 ∨ 2 ^ 32 ≤ value.toNat then s.status 2
    else if !s.admits .monitor a true then (s.rcRefuse .monitor a).monRefuse 3
    else
      match regionOf a with
      | .sram =>
        if 0x3C000 ≤ a then s.monRefuse 4
        else ({ s with mon := { s.mon with sram := Bank.set wordDef s.mon.sram a v } }).status 0
      | .bar2 => (s.asPf (a - 0x40000000) v).status 0
      | .nvm =>
        if nvmFixed (a - 0x50000000) then s.monRefuse 4
        else
          let (t, e) := s.rowWrite (a - 0x50000000) v good
          t.status e
      | _ => (s.rcRefuse .monitor a).monRefuse 3)

/-- BAUD: the rate changes after the status line; the settings stay (R535). DEDUCED, log entry 51. -/
def execBaud (rate : BitVec 64) (s : State) : Host.Outcome State Fault Refusal :=
  atMonitor false s (fun s =>
    if baudRates.contains rate.toNat then
      (let t := s.status 0
       { t with mon := { t.mon with baud := rate.toNat } })
    else s.monRefuse 4)

/-! ### The production lock (R539 to R543) -/

/-- The 128 bytes of a settings copy. -/
def monImage (seq lock armed baud idle : Nat) : List Byte :=
  let b := padTo 124 (magic ++ leBytes 4 seq ++ leBytes 1 lock ++ leBytes 1 armed ++ [0, 0] ++ leBytes 4 baud ++ leBytes 2 idle)
  b ++ leBytes 4 (crc32 b)
where
  /-- "CRLWSET1". -/
  magic : List Byte := [67, 82, 76, 87, 83, 69, 84, 49]

/-- Unlock armed, in the copy in force. -/
def State.monArmed (s : State) : Bool :=
  match s.monCur with
  | some k => decide (leAt (s.monCopy k) 13 1 = 1)
  | none => false

/-- The monitor settings are written to the copy not in force. -/
def State.monStore (s : State) (lock armed : Bool) (baud idle : Nat) : State :=
  let (k, seq) : Nat × Nat := (match s.monCur with
    | some k => (1 - k, leAt (s.monCopy k) 8 4 + 1)
    | none => (0, 1))
  s.nvmWrite (monAddr k) (monImage seq (b2n lock) (b2n armed) baud idle)

/-- The monitor itself writes its settings: each row written is an event (R544). -/
def State.monSave (s : State) (lock armed : Bool) : State :=
  let k := (match s.monCur with
    | some k => 1 - k
    | none => 0)
  let row := monAddr k / 64
  ((s.monStore lock armed s.monBaud s.monIdle).monEvent .monitorRow row).monEvent .monitorRow (row + 1)

/-- LOCK (R540): the lock is set for the next start-up; the JTAG port loses its rights at once, since they follow the settings. -/
def execLock (s : State) : Host.Outcome State Fault Refusal :=
  atMonitor false s (fun s => ((s.monSave true s.monArmed).monEvent .monitorLock 0).status 0)

/-- UNLOCK (R542): on a locked monitor, the right code with slot 0, 1 or 2 active arms the unlock. -/
def execUnlock (code : BitVec 64) (s : State) : Host.Outcome State Fault Refusal :=
  atMonitor true s (fun s =>
    if s.mon.locked && decide (code.toNat = idValue) && decide (s.sea.slot < 3) then
      ((s.monSave true true).monEvent .monitorArmed 0).status 0
    else s.monRefuse 4)

/-- The monitor ends; step 5 goes on at slot choice (R531). -/
def State.endMonitor (s : State) : State := { s with mon := { s.mon with active := false } }

/-- MONITOR_GO. -/
def execMonitorGo (s : State) : Host.Outcome State Fault Refusal :=
  atMonitor true s (fun s => (s.line (46 :: hexOf 2 0)).endMonitor)

/-- MONITOR_IDLE_TIMEOUT: no complete line for the idle timeout acts as GO. -/
def execMonitorIdleTimeout (s : State) : Host.Outcome State Fault Refusal :=
  .next (if s.mon.active && s.running && decide (s.mon.lastLine + 1000 * s.mon.idleS ≤ s.tm.mono) then s.endMonitor else s)

/-- UNKNOWN_COMMAND (R532, R533): status 02 for a line that breaks the syntax or is too long, 01 for an unknown name; such a line names no
command that a locked monitor accepts, so it is answered with 07 there (R541). A discarded line is no complete command line.
DEDUCED, log entry 51. -/
def execUnknownCommand (syn : Bool) (s : State) : Host.Outcome State Fault Refusal :=
  .next (if s.mon.active && s.running && !s.hlt.porHeld then
    (if s.mon.locked && !syn then s.monRefuse 7 else s.status (if syn then 2 else 1))
  else s)

/-! ### The JTAG debug access port (R197, R198) -/

/-- JTAG_ACCESS: a word read or written where Table 05-4 and the programmable ranges allow it; refused, a read returns zero and the port
gets its sticky error response. DEDUCED, log entry 52. -/
def execJtagAccess (write : Bool) (addr : BitVec 40) (v : Word) (s : State) : Host.Outcome State Fault Refusal :=
  .next (if s.hlt.porHeld then s
    else
      let a := addr.toNat / 4 * 4
      if s.admits .jtag a write then
        (match regionOf a with
        | .sram =>
          if write then { s with mon := { s.mon with sram := Bank.set wordDef s.mon.sram a v } }
          else s.emit (.jtag (Bank.get wordDef s.mon.sram a))
        | .bar2 =>
          let (w, t) := s.readWord (a - 0x40000000)
          t.emit (.jtag w)
        | _ => s.emit (.jtag (s.rawDram (a - 0x100000000))))
      else
        let t := s.rcRefuse .jtag a
        (if write then t else t.emit (.jtag 0)).emit .jtagError)

end Sys2Proof.Machine
end

