-- ==== Sys2Proof/Machine/Pcie.lean ====
section
/-!
DEFINITION. Configuration space, functions and the link (spec/02, R41 to R64): configuration writes, SR-IOV, function-level resets, power
states, MSI-X masks, link training; and the warm reset of spec/15 (R61, R483, R484).
-/

namespace Sys2Proof.Machine

/-! ### Configuration writes -/

/-- A configuration write to function `f` has the effect `g` where the function answers. Before the first ready state, in a warm reset
and within a function-level reset it completes with Configuration Request Retry Status, to a function that does not exist with
Unsupported Request; the halted-state responder changes nothing (R44, R49, R60, R80, R484). DEDUCED, log entry 32. -/
def cfgTo (f : Nat) (s : State) (g : State → State) : State :=
  if !s.running || s.hlt.porHeld || s.hlt.perstLow || !s.link.up then s
  else if !s.serving then s.emitCpl (.cplCrs (BitVec.ofNat 8 f))
  else if !s.fnExists f then s.emitCpl (.cplUr (BitVec.ofNat 8 f))
  else if (s.getFn f).flr then s.emitCpl (.cplCrs (BitVec.ofNat 8 f))
  else g s

def State.modCfg (s : State) (f : Nat) (g : FnCfg → FnCfg) : State := s.modFn f (fun n => { n with cfg := g n.cfg })

/-- One field takes a value. DEDUCED, log entry 32. -/
def State.setCfgField (s : State) (f : Nat) (field : CfgField) (v : Nat) : State :=
  let b := bitN v 0
  let pf (g : State → State) : State := if f = 0 then g s else s
  match field with
  | .memorySpaceEnable => pf (fun s => s.modCfg 0 (fun c => { c with mse := b }))
  | .relaxedOrdering => s.modCfg f (fun c => { c with ro := b })
  | .maxPayload => s.modCfg f (fun c => { c with mps := v % 8 })
  | .maxReadRequest => s.modCfg f (fun c => { c with mrrs := v % 8 })
  | .extendedTags => s.modCfg f (fun c => { c with extTag := b })
  | .timeoutDisable => s.modCfg f (fun c => { c with ctoDis := b })
  | .tag10 => s.modCfg f (fun c => { c with tag10 := b })
  | .msixEnable => (s.modCfg f (fun c => { c with msixEn := b })).releasePending f
  | .functionMask => (s.modCfg f (fun c => { c with fmask := b })).releasePending f
  | .vfMemorySpaceEnable => pf (fun s => { s with link := { s.link with vfMse := b } })
  | .ariHierarchy => pf (fun s => if s.link.vfEnable then s else { s with link := { s.link with ari := b } })
  | .targetLinkSpeed => pf (fun s => { s with link := { s.link with targetRate := v % 16 } })
  | .aspmL1 => pf (fun s => { s with link := { s.link with aspmL1 := b } })
  | .l1Substates => pf (fun s => { s with link := { s.link with l1ss := v % 16 } })
  | .ltrEnable => pf (fun s => ({ s with link := { s.link with ltrEn := b } }).pump)
  | .aerCorrectable => s.modCfg f (fun c => { c with aerCor := c.aerCor &&& (2 ^ 32 - 1 - v % 2 ^ 32) })
  | .aerUncorrectable => s.modCfg f (fun c => { c with aerUnc := c.aerUnc &&& (2 ^ 32 - 1 - v % 2 ^ 32) })
  | .ideRequired => pf (fun s => s.writeHst Reg.HST_IDE_CTL (BitVec.ofNat 32 (b2n b)))
  | .doeInterruptEnable => pf (fun s => { s with sec := { s.sec with doeIen := b } })
  | .ideStreamEnable => pf (fun s =>
      let s := { s with sec := { s.sec with streamEn := b, secure := s.sec.secure && b } }
      s.settleStream.flushCpl)
  | .pcrcEnable => pf (fun s => { s with sec := { s.sec with pcrc := b } })
  | .other off =>
    if 0x400 ≤ off ∧ off < 0x440 then pf (fun s => s.writeHst (0x2000000 + off) (BitVec.ofNat 32 v))
    else if off < 4096 then s.storeCfg f (off / 4 * 4) v
    else s

/-- CONFIG_WRITE (R41). -/
def execConfigWrite (f : Func) (field : CfgField) (v : Word) (s : State) : Host.Outcome State Fault Refusal :=
  .next (cfgTo f.toNat s (fun s => s.setCfgField f.toNat field v.toNat))

/-- SYSTEM_PAGE_SIZE_WRITE (R48): one bit of the four supported sizes. -/
def execSystemPageSizeWrite (v : Word) (s : State) : Host.Outcome State Fault Refusal :=
  .next (cfgTo 0 s (fun s =>
    if [1, 2, 4, 8].contains v.toNat then { s with link := { s.link with pageSize := v.toNat } } else s))

/-- NUMVFS_WRITE (R49). -/
def execNumvfsWrite (v : BitVec 16) (s : State) : Host.Outcome State Fault Refusal :=
  .next (cfgTo 0 s (fun s =>
    if s.link.vfEnable || decide (255 < v.toNat) then s else { s with link := { s.link with numVfs := v.toNat } }))

/-- BUS_MASTER_ENABLE_WRITE (R54, R138, R169): work is held; or it resumes, and a function whose enable was 0 wakes and fetches. -/
def execBusMasterEnableWrite (f : Func) (en : Bool) (s : State) : Host.Outcome State Fault Refusal :=
  .next (cfgTo f.toNat s (fun s =>
    let was := (s.getFn f.toNat).cfg.bme
    let s := s.modCfg f.toNat (fun c => { c with bme := en })
    if !en then s else ((if was then s else (s.wakeFn f.toNat).fetchSoon f.toNat).releasePending f.toNat).pump))

/-- COMPLETION_TIMEOUT_VALUE_WRITE (R53): ranges A and B are the encodings 1, 2, 5 and 6 of the PCI Express specification.
DEDUCED, log entry 32. -/
def execCompletionTimeoutValueWrite (f : Func) (v : BitVec 4) (s : State) : Host.Outcome State Fault Refusal :=
  .next (cfgTo f.toNat s (fun s =>
    if [1, 2, 5, 6].contains v.toNat then s.modCfg f.toNat (fun c => { c with cto := v.toNat }) else s))

/-- MSIX_VECTOR_UNMASK (R56). -/
def execMsixVectorUnmask (f : Func) (what : Unmask) (s : State) : Host.Outcome State Fault Refusal :=
  let n := f.toNat
  .next (match what with
    | .vector v => hostBar0 n s (fun s =>
        (s.modFn n (fun x =>
          let e := { Bank.get msixDef x.msix v.val with masked := false }
          { x with msix := Bank.set msixDef x.msix v.val e })).releasePending n)
    | .functionMask => cfgTo n s (fun s => s.setCfgField n .functionMask 0)
    | .enable => cfgTo n s (fun s => s.setCfgField n .msixEnable 1))

/-! ### SR-IOV (R49, R50) -/

/-- VF_ENABLE_SET (R46, R50): the VFs up to NumVFs appear with fresh configuration space. -/
def execVfEnableSet (s : State) : Host.Outcome State Fault Refusal :=
  .next (cfgTo 0 s (fun s =>
    if s.link.vfEnable then s
    else
      let s := forBelow s.link.numVfs (fun k t => t.modFn (k + 1) (fun n => { n with cfg := FnCfg.reset, msix := [], pba := 0 })) s
      let s := { s with link := { s.link with misc := s.link.misc.filter (fun e => decide (e.1 / 4096 = 0)) } }
      { s with link := { s.link with vfEnable := true, ariInForce := s.link.ari } }))

/-- Steps 1 and 2 of Table 02-5 for function `f`, and the reset of its instance; a removal in progress goes on and resets the
configuration too. -/
def State.beginFlr (s : State) (f cause : Nat) : State :=
  let s := s.modFn f (fun n => { n with flr := true })
  if (s.getInst f).state = .removing then s.joinReset f true [] else s.resetFor f cause

/-- VF Enable is cleared: every VF that exists is reset (R50). -/
def State.vfsOff (s : State) : State :=
  if s.link.vfEnable then
    (let s := forBelow s.link.numVfs (fun k t => t.beginFlr (k + 1) 4) s
     { s with link := { s.link with vfEnable := false } })
  else s

/-- VF_ENABLE_CLEAR. -/
def execVfEnableClear (s : State) : Host.Outcome State Fault Refusal := .next (cfgTo 0 s (fun s => s.vfsOff))

/-- Every SPDM session and DOE exchange ends (R58, R61). DEDUCED, log entry 63. -/
def State.endSessions (s : State) : State := { s with sec := { s.sec with sessions := [], doeBusy := false, doeError := false } }

/-- The host-held region is disabled at once and the map cache emptied (R222, R267): accesses under way are abandoned, and commands
that wait for a leaf line look it up again. -/
def State.dropRegion (s : State) : State :=
  let leaf (r : DmaRead) : Bool := (match r.kind with
    | .leaf _ => true
    | .leafMac _ => true
    | _ => false)
  ({ s with reads := s.reads.filter (fun r => !leaf r), fetches := [],
            fss := { s.fss with hregEn := false, hregBusy := false } }).clearRegion

/-- INITIATE_FUNCTION_LEVEL_RESET (R57 to R59). -/
def execInitiateFunctionLevelReset (f : Func) (s : State) : Host.Outcome State Fault Refusal :=
  .next (cfgTo f.toNat s (fun s =>
    let s := s.beginFlr f.toNat 2
    if f = 0 then s.vfsOff.endSessions.dropRegion else s))

/-! ### Power states (R63) -/

/-- POWER_STATE_D3HOT. -/
def execPowerStateD3hot (s : State) : Host.Outcome State Fault Refusal :=
  .next (cfgTo 0 s (fun s => { s with link := { s.link with d3 := true } }))

/-- POWER_STATE_D0: state is kept, held work and interrupts resume. -/
def execPowerStateD0 (s : State) : Host.Outcome State Fault Refusal :=
  .next (cfgTo 0 s (fun s => ({ s with link := { s.link with d3 := false } }).wakeUp.resume))

/-! ### Writes of whole registers -/

/-- A whole register of configuration space is written: each of its fields as the command of that field does, from the lowest bit up; a
register without such a field stores what it can (R41 to R65). The places of the fields are those of the PCI Express specification.
PRESUMED, log entry 66. -/
def State.writeCfg (s : State) (f : Func) (off v : Nat) : State :=
  let run (g : State → Host.Outcome State Fault Refusal) (s : State) : State := runRow (g s) s
  let set (field : CfgField) (pos len : Nat) : State → State := run (execConfigWrite f field (BitVec.ofNat 32 (fldN v pos len)))
  let pf (g : State → State) : State → State := if f = 0 then g else fun s => s
  let other : State → State := set (.other off) 0 32
  match off with
  | 0x04 => run (execBusMasterEnableWrite f (bitN v 2)) (set .memorySpaceEnable 1 1 (other s))
  | 0x44 => pf (fun s => if fldN v 0 2 = 3 then run execPowerStateD3hot s else if fldN v 0 2 = 0 then run execPowerStateD0 s else s) s
  | 0x50 => set .msixEnable 31 1 (set .functionMask 30 1 s)
  | 0x78 =>
    let s := set .maxReadRequest 12 3 (set .extendedTags 8 1 (set .maxPayload 5 3 (set .relaxedOrdering 4 1 (other s))))
    if bitN v 15 then run (execInitiateFunctionLevelReset f) s else s
  | 0x80 => set .aspmL1 1 1 (other s)
  | 0x98 => set .tag10 12 1 (set .ltrEnable 10 1 (set .timeoutDisable 4 1 (run (execCompletionTimeoutValueWrite f (BitVec.ofNat 4 v)) s)))
  | 0xA0 => set .targetLinkSpeed 0 4 (other s)
  | 0x104 => set .aerUncorrectable 0 32 s
  | 0x110 => set .aerCorrectable 0 32 s
  | 0x158 =>
    pf (fun s =>
      let s := if bitN v 0 then s else run execVfEnableClear s
      let s := set .ariHierarchy 4 1 (set .vfMemorySpaceEnable 3 1 s)
      if bitN v 0 then run execVfEnableSet s else s) s
  | 0x160 => pf (run (execNumvfsWrite (BitVec.ofNat 16 v))) s
  | 0x170 => pf (run (execSystemPageSizeWrite (BitVec.ofNat 32 v))) s
  | 0x208 => pf (fun s => set .doeInterruptEnable 1 1 (if bitN v 0 then run execDoeAbort s else s)) s
  | 0x22C => set .ideStreamEnable 0 1 (set .pcrcEnable 8 1 (other s))
  | 0x288 => set .l1Substates 0 4 (other s)
  | _ => other s

/-- REGISTER_WRITE (R7, R8, R9). DEDUCED, log entry 30. -/
def execRegisterWrite (sp : Space) (off : BitVec 22) (data : List Byte) (s : State) : Host.Outcome State Fault Refusal :=
  let o := off.toNat
  .next (match sp with
    | .bar0 f => hostBar0 f.toNat s (fun s =>
        let n := f.toNat
        s.wakeUp.writeBytes (fun a v t => if a < 0x8000 then t.writeBar0 n a v else t) (fun t => t.accError n 0 o) (bar0Touch n) o data)
    | .bar2 => hostBar2 s (fun s => s.wakeUp.writeBytes (fun a v t => t.writeBar2 a v) (fun t => t.accError 0 1 o) bar2Desc o data)
    | .cfg f => if off.toNat % 4 = 0 ∧ data.length = 4 ∧ o < 4096 then s.writeCfg f o (leAt data 0 4) else s
    | .hst => if s.cfgOpen 0 then s.writeBytes (fun a v t => t.writeHst (0x2000000 + a) v) (fun t => t) (fun _ => none) o data else s)

/-! ### The link (R44, R45) -/

/-- LINK_UP: the highest rate and width of both ends that the target speed allows; 0 to 3 for 2.5 to 16.0 GT/s, and x1, x2, x4. In the
halt a link that is up retrains and keeps its rate and width (R490). -/
def execLinkUp (rate : Fin 4) (width : Fin 3) (s : State) : Host.Outcome State Fault Refusal :=
  .next (if s.hlt.porHeld || s.hlt.perstLow || s.hlt.warming || (!s.running && s.link.up) then s
    else
      let r := min rate.val (max 1 s.link.targetRate - 1)
      let s := { s with link := { s.link with up := true, rate := r, width := 2 ^ width.val } }
      s.note .linkUp (r + 16 * 2 ^ width.val))

/-! ### Warm reset (R61, Table 15-4) -/

/-- Stored values of the storable registers put over a table of registers. -/
def State.storedOver (s : State) (p : Nat → Bool) (b : Bank Word) : Bank Word :=
  (storableKeys.filter p).foldl (fun b k => Bank.set regReset b k (BitVec.ofNat 32 (s.storedReg k))) b

/-- The limits of the instance table, which a warm reset keeps with the records (R85). -/
def isLimit (k : Nat) : Bool := decide (0x120000 ≤ k) && decide (k < 0x130000)

/-- Registers that a warm reset keeps: RWS ones, the instance table's restored limits, and HST. -/
def warmKept (k : Nat) : Bool := isStickyReg k || isLimit k

/-- A warm reset keeps the quantity that the latch of register `k` belongs to: not a pair of BAR0, of the ring contexts or of RW fields. -/
def warmLatch (k : Nat) : Bool :=
  if k < 0x1000000 then
    !(decide (0x130000 ≤ k) && decide (k < 0x138000)) &&
      (warmKept k || (match regDesc k with
        | some r => decide (r.rw = 0)
        | none => true))
  else decide (0x2000000 ≤ k)

/-- The RW fields of PF BAR2 and every BAR0 take their reset or stored values, as epoch 0; shadow writes not committed are lost, the limits
in force stay, and a pair that takes its reset value loses its latch (R22, R483, R587). DEDUCED, log entry 33. -/
def State.warmRegs (s : State) : State :=
  let kept := s.regs.filter (fun e => isStickyReg e.1)
  let kept := (s.liveSet.filter (fun e => isLimit e.1)).foldl (fun b e => Bank.set regReset b e.1 e.2) kept
  let b := s.storedOver (fun k => !warmKept k) kept
  let e := b.filter (fun e => isEpochReg e.1)
  { s with regs := b, nextSet := e, liveSet := e, prevSet := e, epoch := EpochState.reset,
           latches := s.latches.filter (fun e => warmLatch e.1) }

/-- Axes OFF, spindles STOPPED, sleds OFF; what counts since power-on stays (R370, R395, R419). -/
def Drive.stopped (r : Drive) : Drive :=
  { r with
    ax := r.ax.map (fun x => { Ax.reset with bank := x.bank, lateCnt := x.lateCnt, compLast := x.compLast, compMax := x.compMax }),
    seq := .none, starting := false, confirm := false, valid := false, flagged := false, flag := false, heldRun := 0, lowRun := 0,
    trkOuts := [], failed := 0, landed := false, spnGroup := LimGroup.reset, lasGroup := LimGroup.reset,
    spin := { Spindle.reset with lossCnt := r.spin.lossCnt, lockedCnt := r.spin.lockedCnt, events := r.spin.events, ke := r.spin.ke },
    sled := { Sled.reset with p := r.sled.p, lost := r.sled.lost, late := r.sled.late, err := r.sled.err },
    rdc := { r.rdc with clkLock := false, lockRun := 0, beyond := [], started := false, rx := Rx.reset, decoded := none, retry := 0 },
    wst := { r.wst with opcBusy := false, opcFail := false, deferred := false } }

/-- Axes of a drive rest at SRV.REST. -/
def State.restAxes (s : State) (d : Nat) : State :=
  forBelow 4 (fun k t => t.modAxis (axisOf d k) (fun x => { x with out := sext 32 (t.reg (Reg.SRV_REST (axisOf d k))).toNat })) s

/-- Stripes being recorded or verified are replaced (R294). -/
def State.breakStripes (s : State) : State :=
  forEach s.arc.going (fun g t => forEach g.open_ (fun p u => u.stripeBad g.num p) t) s

/-- Every drive stops as a reset leaves it. -/
def State.stopDrives (s : State) : State :=
  let s := forBelow 4 (fun d t => if (t.drive d).wst.gate then t.closeGate d else t) s
  let s := s.breakStripes
  let s := { s with drives := s.drives.map Drive.stopped }
  (forBelow 4 (fun d t => t.restAxes d) s).settle

/-- Grants and overload level are cleared (R474). -/
def BudgetState.cleared (p : BudgetState) : BudgetState :=
  { p with level := 0, granted := none, run := 0, queue := [], asked := [], over2 := 0, won2 := 0, over3 := 0, calm := 0 }

/-- Configuration space of every function takes its reset values when the reset ends; what the link itself holds stays. -/
def LinkState.warm (l : LinkState) : LinkState :=
  { LinkState.reset with subsystemId := l.subsystemId, linkDown := l.linkDown, cplTimeout := l.cplTimeout, poisoned := l.poisoned, urCa := l.urCa }

/-- The function numbers that hold anything but the reset state. -/
def State.liveFns (s : State) : List Nat := (s.fn.map (fun (e : Nat × Fn) => e.1) ++ s.instIds).eraseDups

/-- A warm reset begins: DMA stops, instances and functions are reset, the link stream and the sessions end, the registers and the drives
take their reset values. DEDUCED, log entry 32. DEDUCED, log entry 33. DEDUCED, log entry 63. -/
def State.warmReset (s : State) : State :=
  let s := { s with hlt := { s.hlt with warming := true, warmCnt := inc16 s.hlt.warmCnt }, reads := [],
                    tm := { s.tm with pending := false, late := false },
                    sec := SecState.reset }
  let s := forEach s.liveFns (fun f t => t.beginFlr f 3) s
  let s := s.dropRegion
  let s := { s.reloadSettings.warmRegs with link := s.link.warm, pwb := s.pwb.cleared, cal := { s.cal with running := none } }
  s.stopDrives

/-- The upstream port leaves L0: in the halt the link alone retrains (R491), as it does before the first ready state. -/
def State.linkLost (s : State) : State :=
  if s.hlt.porHeld then s
  else if !s.running then s
  else
    let s := { s with link := { s.link with up := false } }
    if s.boot.ready && !s.hlt.warming then s.warmReset else s

/-- DL_DOWN (R61, R484): the link loss is counted and logged. -/
def execDlDown (s : State) : Host.Outcome State Fault Refusal :=
  .next (if s.link.up && s.running && !s.hlt.porHeld then
      (let s := { s with link := { s.link with linkDown := inc16 s.link.linkDown } }
       let s := s.note .linkDown 0
       let s := if s.boot.ready then { s with hlt := { s.hlt with warmLink := true } } else s
       s.linkLost)
    else s)

/-- HOT_RESET_RECEIVED: it counts as one link loss with the DL_Down that accompanies it (Table 02-13). -/
def execHotResetReceived (s : State) : Host.Outcome State Fault Refusal :=
  .next (if s.link.up && s.running && !s.hlt.porHeld then
      (let s := { s with link := { s.link with linkDown := inc16 s.link.linkDown } }
       let s := s.note .linkDown 1
       let s := if s.boot.ready then { s with hlt := { s.hlt with warmHot := true } } else s
       s.linkLost)
    else s)

/-- WARM_RESET_COMPLETE (R484): functions whose instance has no reset left to end take their reset values; the others with step 5 of
theirs. DEDUCED, log entry 32. -/
def execWarmResetComplete (s : State) : Host.Outcome State Fault Refusal :=
  .next (if s.hlt.warming && s.running then
      (let s := { s with hlt := { s.hlt with warming := false } }
       forEach s.liveFns (fun f t => if (t.getInst f).reset.isNone then t.resetFnOnly f else t) s)
    else s)

end Sys2Proof.Machine
end

