-- ==== Sys2Proof/Machine/Rebuild.lean ====
section
/-!
DEFINITION. The rebuild of the map at a start-up (spec/06, R233 to R236), the identification of the dies (R209 to R211), and the restoring
of the instances (spec/03, R83 to R85; spec/05, R178).
-/

namespace Sys2Proof.Machine

/-! ### Settings items used here (Table 16-5) -/

/-- An item of the content in force. -/
def State.item (s : State) (typ : Nat) : Option (List Byte) := itemOf ((itemsOf s.nvs.content).getD []) typ

/-- Namespace size and quota of instance 0 (item 0x0003). -/
def State.inst0Sizes (s : State) : Nat × Nat :=
  match s.item 3 with
  | some v => (leAt v 0 8, leAt v 8 8)
  | none => Config.fwInstance0

/-- max_mts, rr_addr, rr_levels and the overprovision percent (item 0x0006). -/
def State.nandItem (s : State) : Nat × Nat × Nat × Nat :=
  match s.item 6 with
  | some v => (leAt v 0 2, leAt v 2 1, leAt v 3 1, leAt v 4 1)
  | none => Config.fwNand

/-- The records that a format uses (item 0x0007): number, namespace size, quota, limits. -/
def formatRecords (fuel : Nat) (v : List Byte) : List (Nat × Nat × Nat × Nat) :=
  match fuel with
  | 0 => []
  | n + 1 => if v.length < 21 then [] else (leAt v 0 1, leAt v 1 8, leAt v 9 8, leAt v 17 4) :: formatRecords n (v.drop 21)

/-! ### Dies (R209 to R211) -/

/-- A die meets Table 06-2. -/
def dieFits (d : DieIdent) : Bool :=
  decide (d.data.toNat = 16384 ∧ 1952 ≤ d.spare.toNat ∧ 64 ≤ d.ppb.toNat ∧ d.ppb.toNat ≤ 4096 ∧ d.blocks.toNat ≤ 65535 ∧
    d.blocks.toNat * d.ppb.toNat ≤ 16777216 ∧ d.tprog.toNat ≤ 3000 ∧ d.tbers.toNat ≤ 15000) && d.marking

/-- Parameter of a die that is not there. -/
def dieNone : DieIdent := ⟨false, false, 0, 0, 0, 0, 0, 0, false, 0, 0⟩

/-- The fastest timing mode of a list, as bits. -/
def topMode (mask : Nat) : Option Nat := (List.range 16).reverse.find? (fun k => bitN mask k)

/-- The interface of a channel with these dies: the fastest NV-DDR3 timing mode that every one lists, else the fastest common NV-DDR2 one;
1.8 V signalling leaves NV-DDR3 out; the data rate stays within max_mts and 533 MT/s (R210, R550). -/
def channelMode (dies : List DieIdent) (low : Bool) (maxMts : Nat) : NandMode :=
  let common (f : DieIdent → BitVec 16) : Nat := if dies.isEmpty then 0 else (dies.foldl (fun a d => a &&& f d) 0xFFFF).toNat
  let cap (r : Nat) : Nat := min r (min maxMts 533)
  match topMode (if low then common (fun d => d.ddr3) else 0), topMode (common (fun d => d.ddr2)) with
  | some m, _ => ⟨.ddr3, m, cap (Config.nandRate true m)⟩
  | none, some m => ⟨.ddr2, m, cap (Config.nandRate false m)⟩
  | none, none => NandMode.reset

/-- The commands of the identification of one die, and those that bring it to its channel's mode (Table 06-1); the order among them is not
given: DESIGN CHOICE, log entry 20. -/
def State.dieCommands (s : State) (d : Nat) (ready shared : Bool) (m : NandMode) : State :=
  let first : List NandCmd := [.reset, .readStatus]
  let ident : List NandCmd := [.readId, .readParameterPage]
  let share : List NandCmd := if shared then [.volumeSelect, .odtConfigure] else []
  let mode : List NandCmd := [.setFeatures .drive, .setFeatures .odt, .setFeatures (.timing m), .getFeatures (.timing m)]
  forEach (if ready then first ++ ident ++ share ++ mode else first) (fun c t => t.emit (.nand d c)) s

/-- Step 9: the dies are identified, and each channel takes its timing mode (R209, R210, R550). A die that fails a row of Table 06-2 is
excluded and logged. -/
def State.identify (s : State) (dies : List DieIdent) : State :=
  let at_ (d : Nat) : DieIdent := nth dieNone dies d
  let used (d : Nat) : Bool := (at_ d).present && (!(at_ d).ready || dieFits (at_ d))
  let half := ((List.range 16).filter (fun d => (at_ d).present)).length / 2
  let onCh (c : Nat) : List Nat := (List.range 16).filter (fun d => used d && decide (if c = 0 then d < half else half ≤ d))
  let (mts, addr, levels, op) := s.nandItem
  let mode (c : Nat) : NandMode := channelMode ((onCh c).map at_) (bitN s.vsel c) mts
  let first := ((List.range 16).filter (fun d => (at_ d).ready && used d)).head?
  let geo : Nat × Nat := (match first with
    | some d => ((at_ d).ppb.toNat, (at_ d).blocks.toNat)
    | none => (0, 0))
  let s := { s with fss := { s.fss with
    dies := (List.range 16).map (fun d => ⟨used d, false, 0, []⟩), ppb := geo.1, blocksPerDie := geo.2, op := op,
    nandCfg := BitVec.ofNat 32 (mts % 1024 + addr % 256 * 2 ^ 16 + levels % 16 * 2 ^ 24), modes := [mode 0, mode 1] } }
  let s := forBelow 16 (fun d t =>
    if (at_ d).present then
      t.dieCommands d (at_ d).ready (decide (2 ≤ half)) (mode (if d < half then 0 else 1))
    else t) s
  forBelow 16 (fun d t => if (at_ d).present && (at_ d).ready && !dieFits (at_ d) then t.note .dieExcluded d else t) s

/-- At least four dies qualify, and those that do have one geometry (R211). -/
def diesOk (dies : List DieIdent) : Bool :=
  let l := (dies.take 16).filter (fun d => d.present && d.ready && dieFits d)
  decide (4 ≤ l.length) && l.all (fun d => l.all (fun e => decide (d.ppb = e.ppb ∧ d.blocks = e.blocks)))

/-! ### Replay (R233) -/

/-- A map entry takes a value in the pool, without the rules of a live update. -/
def State.rawMap (s : State) (i lbn pua : Nat) : State :=
  let k := leafKey i lbn
  let s := { s with fss := { s.fss with
    map := Bank.set mapDef s.fss.map (mapKey i lbn) pua, pool := k :: s.fss.pool.filter (fun x => x ≠ k) } }
  s.setLeaf k { s.leaf k with loc := .pool, dirty := true }

/-- A segment changes. -/
def State.replaySeg (s : State) (num : Nat) (g : Segment → Segment) : State :=
  s.mapSegs (fun x => if x.num = num then g x else x)

/-- The newest sequence known for a logical block, or for a mirror block, plus one. -/
abbrev JSeq := Bank Nat

/-- Key of a mirror block in the table of sequences. -/
def mirrorKey (blk : Nat) : Nat := 2 ^ 41 + blk

/-- The blocks that an entry names, with its sequence and the instance whose watermark extends it. -/
def JEntry.names : JEntry → List (Nat × Nat × Nat)
  | .map i lbn _ q => [(mapKey i lbn, q, i)]
  | .discard i lbn cnt q => (List.range cnt).map (fun k => (mapKey i (lbn + k), q, i))
  | .move i lbn _ q _ _ => [(mapKey i lbn, q, i)]
  | .logMap blk _ q => [(mirrorKey blk, q, 0)]
  | _ => []

/-- The table of sequences after the journal; an entry holds the low 32 bits, extended by the instance's watermark (R226). -/
def jseqOf (marks : Bank Nat) (l : List JEntry) : JSeq :=
  l.foldl (fun b e => e.names.foldl (fun (c : JSeq) x =>
    Bank.set natDef c x.1 (extendSeq (Bank.get natDef marks x.2.2) (x.2.1 % 2 ^ 32) + 1)) b) []

/-- The journal units that replay reads: up to the first that is not valid or follows another root (R233). -/
def State.replayUnits (s : State) (bad : List Nat) (root : Nat) : List JUnit :=
  s.fss.jLog.takeWhile (fun u => decide (u.root = root ∧ (s.unitAt u.pua).kind = 1) && !bad.contains u.pua)

/-- A block joins the band that an entry names. -/
def joinBand (l : List Band) (role : Band.Role) (num die block : Nat) : List Band :=
  let l := l.map (fun b => if b.num = num then b else { b with blocks := b.blocks.filter (fun e => e ≠ (die, block)) })
  if l.any (fun b => b.num = num) then
    l.map (fun b => if b.num = num ∧ !b.blocks.contains (die, block) then { b with blocks := b.blocks ++ [(die, block)] } else b)
  else l ++ [⟨num, role, [(die, block)], [], [], [], 0, 0, true, none⟩]

/-- INS.T_LIMITS takes the value of a record (R85): the register and every live set hold it. -/
def State.takeLimits (s : State) (k : Nat) (w : Word) : State :=
  let s := s.setReg k w
  { s with nextSet := Bank.set regReset s.nextSet k w, liveSet := Bank.set regReset s.liveSet k w,
           prevSet := Bank.set regReset s.prevSet k w }

/-- A replayed record: that of a removed instance discards the blocks it mapped (R86, R92). -/
def State.replayRecord (s : State) (i : Nat) (r : Instance) : State :=
  let s := s.setInst i r
  if r.state = .removing then
    (forEach (s.mappedBlocks i) (fun b t => t.rawMap i b puaEmpty)
      { s with fss := { s.fss with archived := s.fss.archived.filter (fun e => decide (e.1 / 2 ^ 32 ≠ i)) } }).dropEmptyLeaves i
  else s

/-- One journal entry takes effect again. DEDUCED, log entry 18. -/
def State.replay (s : State) (e : JEntry) : State :=
  match e with
  | .map i lbn pua _ => s.rawMap i lbn pua
  | .discard i lbn cnt _ => forBelow cnt (fun k t => t.rawMap i (lbn + k) puaEmpty) s
  | .move i lbn pua _ old displaced => if displaced then s.retarget i lbn old pua else s.rawMap i lbn pua
  | .leaf i idx pua =>
    let k := i * 2 ^ 22 + idx
    let s := { s with fss := { s.fss with pool := s.fss.pool.filter (fun x => x ≠ k) } }
    s.setLeaf k { s.leaf k with loc := .nand, dirty := false, pua := pua }
  | .pin i lbn cnt rid seg pos =>
    if s.fss.segs.any (fun g => g.num = seg) then s
    else
      let g : Segment :=
        { num := seg, inst := i, lbn := lbn, cnt := cnt, rid := rid, blocks := (cnt + 7) / 8, displaced := s.unpinnable i lbn cnt,
          active := false, formatted := 0, verified := [], rebuilt := false, replaced := false, broken := s.lostIn i lbn cnt,
          unpinAt := none, chain := 0, setId := 0 }
      let s := { s with fss := { s.fss with segs := s.fss.segs ++ [g] } }
      s.modInst i (fun r => { r with
        commits := if r.commits.any (fun c => c.seg = seg) then r.commits else ⟨rid, seg, pos, false, 0⟩ :: r.commits,
        firstSeg := if r.firstSeg = 0 then seg else r.firstSeg })
  | .displace _ lbn pua seg =>
    s.replaySeg seg (fun g => if g.displaced.contains (lbn, pua) then g else { g with displaced := g.displaced ++ [(lbn, pua)] })
  | .unpin i seg =>
    match s.fss.segs.find? (fun g => g.num = seg) with
    | some g =>
      let s := s.markUnits g
      let s := { s with fss := { s.fss with segs := s.fss.segs.filter (fun x => x.num ≠ seg) } }
      s.modInst i (fun r => { r with commits := markArchived r.commits seg s.arc.named })
    | none => s
  | .band die role listed num block erases =>
    if listed then
      { s with fss := { s.fss with
          reserved := s.fss.reserved.filter (fun e => !decide (e.1 = role.code ∧ e.2.1 = die)) ++ [(role.code, die, block)] } }
    else
      let s := s.setBlock die block ⟨.opened, erases, num, (s.block die block).stale⟩
      { s with fss := { s.fss with
          bands := joinBand s.fss.bands role num die block, nextBand := max s.fss.nextBand (num + 1),
          reserved := s.fss.reserved.filter (fun e => !decide (e.2.1 = die ∧ e.2.2 = block)) } }
  | .retire die block _ =>
    if (s.block die block).use = .retired then s
    else State.setBlock { s with fss := { s.fss with retired := inc16 s.fss.retired } } die block { s.block die block with use := .retired }
  | .record i _ _ r lim => (s.replayRecord i r).takeLimits (Reg.INS_T_LIMITS i) lim
  | .frontier _ _ _ => s
  | .highwater i arch v =>
    s.modInst i (fun r => if arch then { r with arcHigh := max r.arcHigh v } else { r with unitHigh := max r.unitHigh v })
  | .lost i lbn _ (some pua) => s.mapSegs (fun g =>
      if g.inst = i ∧ g.displaced.contains (lbn, pua) then
        { g with displaced := g.displaced.map (fun e => if e = (lbn, pua) then (lbn, lostPinnedPua pua) else e), broken := true }
      else g)
  | .lost i lbn cnt none =>
    forBelow cnt (fun k t =>
      let pua := t.mapGet i (lbn + k)
      (t.mapSegs (fun g =>
        if g.pins i (lbn + k) then { g with displaced := g.displaced ++ [(lbn + k, lostPinnedPua pua)], broken := true } else g)).rawMap
        i (lbn + k) puaLost) s
  | .dieFail die => s.modDie die (fun x => { x with failed := true })
  | .logMap blk pua _ => { s with fss := { s.fss with logMap := Bank.set logMapDef s.fss.logMap blk pua } }

/-! ### Loading the root -/

/-- A record as a start-up takes it up: nothing that lived in LPDDR or in the key store is left (R85, R123, R163);
the open period's flags look at the clock as it stands at step 11. DESIGN CHOICE, log entry 77. -/
def restored (t : TimeState) (r : Instance) : Instance :=
  let flag := pfPowerLoss ||| (if t.valid then 0 else pfNoTime)
  { r with reserved := 0, refusing := false, keyLive := false, keyLost := false, window := [], reset := none, policy := [], status := [],
           unitDur := r.unitHigh, arcDur := r.arcHigh, chain := r.chainOk, shownUsed := 0, evenSeq := 0, waitLogged := false,
           opened := r.opened.map (fun p => { p with flags := p.flags ||| flag }) }

/-- A leaf after a start-up lies in NAND or nowhere; one that the root held in LPDDR or in host memory is loaded from its entries. -/
def bootLeaf (l : LeafRec) : LeafRec := { l with loc := if isReal l.pua then .nand else .nowhere, dirty := false, slot := 0 }

/-- The sections of a root checkpoint (Table 06-7). -/
def State.loadRoot (s : State) (r : RootSnap) : State :=
  let s := { s with
    inst := r.inst,
    arc := { s.arc with named := r.stripeSet },
    fss := { s.fss with
      map := r.map, blocks := r.blocks, bands := r.bands.map (fun b => { b with eraseAt := none }),
      leaves := Bank.mapVals leafDef r.leaves bootLeaf,
      segs := r.segs.map (fun g => { g with active := false, formatted := 0, verified := [], rebuilt := false, replaced := false, unpinAt := none }),
      archived := r.archived, logMap := r.logMap, retired := r.retired,
      dies := (List.range 16).map (fun d =>
        let x := nth Die.reset s.fss.dies d
        { x with failed := x.failed || r.failed.contains d }) } }
  r.limits.foldl (fun (t : State) e => t.takeLimits e.1 e.2) s

/-! ### Keys (R178) -/

/-- The wrapped records of an instance: the present one, and that of the checkpoint before it, where one held one. -/
def State.keyCopies (s : State) (i : Nat) : List (List Byte) :=
  (s.getInst i).wrapped :: (match Bank.get keyDef s.fss.prevKeys i with
    | [] => []
    | l => [l])

/-- A record may be unwrapped: its byte 9 names the active slot and its serial stands at or above the floor (R178). -/
def State.keyFits (s : State) (i : Nat) (w : List Byte) : Bool := decide (leAt w 9 1 = s.sea.slot ∧ s.ctr (16 + i) ≤ leAt w 0 8)

/-- The key of an instance is unwrapped from the first of its records that fits and whose tag matches, or marked lost and logged; `bad` names
an instance once for each of its records, from the newest on, that fails the tag (R178). DESIGN CHOICE, log entry 61. -/
def State.unwrapKey (s : State) (bad : List Func) (i : Nat) : State :=
  let r := s.getInst i
  if r.state = .idle then s
  else
    match r.keySerial with
    | some k =>
      (match ((s.keyCopies i).drop (bad.filter (fun f => f.toNat = i)).length).find? (fun w => s.keyFits i w) with
      | some w => s.modInst i (fun r => { r with keySerial := some (leAt w 0 8), wrapped := w, keyLive := true })
      | none => (s.modInst i (fun r => { r with keyLost := true })).logEv .keyLost (some (BitVec.ofNat 8 i)) k)
    | none => s

/-! ### The tag scan (R233) -/

/-- The frontier that the journal gives for a band last; 0 where it gives none. DEDUCED, log entry 18. -/
def frontierOf (l : List JEntry) (num : Nat) : Nat :=
  l.foldl (fun a e => match e with
    | .frontier _ n page => if n = num then page else a
    | _ => a) 0

/-- The PUA lies in a page that the scan reads: in an open band at or after its frontier, or in a block that the last flush listed. -/
def State.scanned (s : State) (log : List JEntry) (pua : Nat) : Bool :=
  let d := puaDie pua
  let b := puaBlock s.fss.ppb pua
  s.fss.bands.any (fun x => x.isOpen && x.blocks.contains (d, b) && decide (frontierOf log x.num ≤ puaPage s.fss.ppb pua)) ||
    s.fss.reserved.any (fun e => decide (e.2.1 = d ∧ e.2.2 = b))

/-- The unit was found and passed its decode and its tag check (R233). -/
def State.sound (s : State) (bad : List Nat) (pua : Nat) : Bool :=
  let u := s.unitAt pua
  let r := s.getInst u.inst
  !bad.contains pua && !s.pageQuarantined pua && (decide (r.state ≠ .idle ∧ u.gen = r.gen) && r.keyLive) &&
    decide (r.keySerial = some u.key)

/-- The units that the scan finds sound, kinds 0 and 4. -/
def State.found (s : State) (log : List JEntry) (bad : List Nat) : List Nat :=
  (s.fss.units.filter (fun e => (decide (e.2.kind = 0) || decide (e.2.kind = 4)) && s.scanned log e.1 && s.sound bad e.1)).map (fun e => e.1)

/-- Every unit of the group of `pua` was found. -/
def State.wholeGroup (s : State) (l : List Nat) (pua : Nat) : Bool :=
  let u := s.unitAt pua
  u.moved || (List.range u.cnt).all (fun k => l.any (fun p =>
    let v := s.unitAt p
    !v.moved && decide (v.inst = u.inst ∧ v.kind = u.kind ∧ v.group = u.group ∧ v.gen = u.gen ∧ v.idx = k)))

/-- The procedure place_if_newer; a pinned unit that is replaced joins its segment's displaced list. -/
def placeIfNewer (marks : Bank Nat) (pua : Nat) (e : State × JSeq) : State × JSeq :=
  let (s, js) := e
  let u := s.unitAt pua
  let key := if u.kind = 4 then mirrorKey u.lbn else mapKey u.inst u.lbn
  if u.seq < Bank.get natDef marks u.inst ∨ u.seq + 1 ≤ Bank.get natDef js key then (s, js)
  else
    let js := Bank.set natDef js key (u.seq + 1)
    if u.kind = 4 then ({ s with fss := { s.fss with logMap := Bank.set logMapDef s.fss.logMap u.lbn pua } }, js)
    else
      let old := s.mapGet u.inst u.lbn
      let s := if isReal old ∧ old ≠ pua then
          s.mapSegs (fun g => if g.pins u.inst u.lbn then { g with displaced := g.displaced ++ [(u.lbn, old)] } else g)
        else s
      (s.rawMap u.inst u.lbn pua, js)

/-- Order of the scan: groups by identifier, then the index in the group. -/
def State.scanKey (s : State) (pua : Nat) : Nat := (s.unitAt pua).group * 65536 + (s.unitAt pua).idx

/-- A number put into a list that rises by `key`. -/
def insertUp (key : Nat → Nat) (a : Nat) : List Nat → List Nat
  | [] => [a]
  | b :: r => if key a ≤ key b then a :: b :: r else b :: insertUp key a r

def sortUp (key : Nat → Nat) (l : List Nat) : List Nat := l.foldl (fun a x => insertUp key x a) []

/-- The open bands close, their missing stripe pages filled and their parity programmed, and listed blocks that took pages form closed bands; blocks of system bands wait for the next complete root
(R230, R233). -/
def State.closeOpenBands (s : State) : State :=
  let held (d b : Nat) : Bool := s.fss.units.any (fun e => decide (puaDie e.1 = d ∧ puaBlock s.fss.ppb e.1 = b))
  let s := forBelow 4 (fun c t =>
    let l := (t.fss.reserved.filter (fun e => decide (e.1 = c) && held e.2.1 e.2.2)).map (fun e => e.2)
    if l.isEmpty then t
    else
      let n := t.fss.nextBand
      let t := forEach l (fun e u => u.setBlock e.1 e.2 { u.block e.1 e.2 with use := .opened, band := n }) t
      { t with fss := { t.fss with nextBand := n + 1, bands := t.fss.bands ++ [⟨n, roleOfCode c, l, [], [], [], 0, 0, true, none⟩] } }) s
  let s := { s with fss := { s.fss with reserved := [], bands := s.fss.bands.map (fun b => { b with bare := [] }) } }
  forEach (s.fss.bands.filter (fun b => b.isOpen)) (fun b t => t.closeBand b) s

/-- Leaves beyond the pool's size leave it (R218). DESIGN CHOICE, log entry 24. -/
def State.trimPool (s : State) : State :=
  forBelow (s.fss.pool.length - s.poolCap) (fun _ t => t.evictLeaf) s

/-- The unit and archive sequences resume at their reserved marks (R191, R194). -/
def State.resumeCounters (s : State) : State :=
  forEach s.instIds (fun i t => t.modInst i (fun r => { r with unitSeq := r.unitHigh, arcSeq := r.arcHigh })) s

/-! ### Instances at start-up (R83 to R85, R92, R178) -/

/-- A restored instance enters its state of this start-up. -/
def State.startInstance (s : State) (i : Nat) : State :=
  let r := s.getInst i
  match r.state with
  | .active | .resetting =>
    let new := wrapInc 4095 r.gen
    let s := s.modInst i (fun r => { r with gen := new })
    let s := if r.state = .resetting then s.setIState i .active else s
    let body := resetDoneBody r.gen new ⟨6, 5, [], false, 0, 0⟩
    let s := s.postOwn i 2 body
    let s := if i = 0 then s else s.postPeer i 2 body
    s.setInsEvt i 2
  | .removing =>
    let s := s.removeStep4 i
    if s.segCount i = 0 then (s.destroyKey i).setIState i .idle else s.setIState i .draining
  | .draining => if s.segCount i = 0 then (s.destroyKey i).setIState i .idle else s
  | .idle => s.destroyKey i

/-- Instance 0 takes its sizes from the settings store and is never other than ACTIVE (R84). -/
def State.instance0 (s : State) : State :=
  let (ns, q) := s.inst0Sizes
  s.modInst 0 (fun r => { r with
    state := if r.state = .resetting then .resetting else .active, nsSize := ns, quota := q,
    opened := (match r.opened with
      | some p => some p
      | none => some (newPeriod s.tm 0 s.tm.sec 0)) })

/-! ### Formatting (R236) -/

/-- A record that a format makes: ACTIVE with a fresh key. -/
def State.formatInstance (s : State) (i ns q : Nat) : State :=
  let (k, s) := s.drawKey
  s.setInst i { Instance.fresh with
    state := .active, nsSize := ns, quota := q, warnArmed := true, keySerial := some k, wrapped := s.wrapFor k i, keyLive := true,
    opened := some (newPeriod s.tm 0 s.tm.sec 0) }

/-- The anchor blocks of a die: its first two good ones (R230). DEDUCED, log entry 18. -/
def State.anchorBlocks (s : State) (d : Nat) : List Nat :=
  ((List.range s.fss.blocksPerDie).filter (fun b => decide ((s.block d b).use ≠ .retired))).take 2

/-- The dies that hold the anchor: the first good one of each channel, die 0 and the first of NF1 where they are good (R230).
DEDUCED, log entry 18. -/
def State.anchorDies (s : State) : List Nat :=
  let half := ((List.range 16).filter (fun d => (s.die d).present)).length / 2
  (s.goodDies.find? (fun d => decide (d < half))).toList ++ (s.goodDies.find? (fun d => decide (half ≤ d))).toList

/-- The block table of a format: bad blocks by their factory markers, or, after a revocation, every block free, not erased, with its die's
highest count from the anchor's wear summary; the anchor blocks take no part (R230, R236). -/
def State.formatBlocks (s : State) (markers : List (Fin 16 × BitVec 16)) (revoked : Bool) : State :=
  let keep := Bank.mapVals blockDef s.fss.blocks (fun e => { e with use := BlockUse.free, band := 0, stale := false })
  let s :=
    if revoked then
      forEach s.goodDies (fun d t =>
        forBelow s.fss.blocksPerDie (fun b u => u.setBlock d b ⟨.free, (nth (0, 0, 0) s.fss.anchorWear d).2.1, 0, true⟩) t)
        { s with fss := { s.fss with blocks := [] } }
    else
      let t := forEach markers (fun e t => t.setBlock e.1.val e.2.toNat { t.block e.1.val e.2.toNat with use := .retired })
        { s with fss := { s.fss with blocks := keep } }
      let l := t.anchorDies.filterMap (fun d => match t.anchorBlocks d with
        | a :: b :: _ => some ⟨d, (a, b), false, 0⟩
        | _ => none)
      { t with fss := { t.fss with anchors := l } }
  forEach s.fss.anchors (fun c t =>
    forEach [c.blocks.1, c.blocks.2] (fun b u => u.setBlock c.die b { u.block c.die b with use := .closed, stale := false }) t) s

/-- The limits that item 0x0007 names for an instance: a field outside its range keeps its default, and a notice names the register (R508). -/
def State.giveLimits (s : State) (i v : Nat) : State :=
  let k := Reg.INS_T_LIMITS i
  let w := match regDesc k with
    | some r => writeWord k r (regReset k) (BitVec.ofNat 32 v)
    | none => regReset k
  let bad := match regDesc k with
    | some r => decide (w.toNat ≠ v % 2 ^ 32 &&& r.rw)
    | none => false
  let t := s.takeLimits k w
  if bad then t.note .settingsValue k else t

/-- One record of item 0x0007: instance 0 has its sizes from item 0x0003 and takes its limits here. DEDUCED, log entry 71. -/
def State.formatRecord (s : State) (e : Nat × Nat × Nat × Nat) : State :=
  if e.1 = 0 then s.giveLimits e.1 e.2.2.2 else (s.formatInstance e.1 e.2.1 e.2.2.1).giveLimits e.1 e.2.2.2

/-- The store is formatted. DEDUCED, log entry 18. -/
def State.format (s : State) (markers : List (Fin 16 × BitVec 16)) (revoked : Bool) : State :=
  let s := s.formatBlocks markers revoked
  let s := { s with
    inst := [],
    fss := { s.fss with
      units := [], bands := [], map := [], leaves := [], pool := [], archived := [], segs := [], logMap := [], root := none, jLog := [],
      prevKeys := [], retired := 0, formatted := true } }
  let (ns, q) := s.inst0Sizes
  let s := s.formatInstance 0 ns q
  let recs := (match s.item 7 with
    | some v => formatRecords (v.length + 1) v
    | none => [])
  let s := (forEach recs (fun e t => t.formatRecord e) s).writeAnchor
  let s := if s.nvs.formatArmed then
      (let t := s.storeSettings (s.captureContent true) (s.ctr 2 + 1) 2 s.nvs.owner
       { t with nvs := { t.nvs with formatArmed := false } })
    else s
  s.note (if revoked then .storeFormatRevoked else .storeFormatted) 0

/-! ### The whole of step 11 -/

/-- The store is not mounted: instance 0 alone is ACTIVE (R236, R591). DEDUCED, log entry 18. -/
def State.unmounted (s : State) : State :=
  let s := { s with inst := [], fss := { s.fss with ready := false, map := [], leaves := [], pool := [], segs := [], bands := [] } }
  ((s.setInst 0 { Instance.fresh with gen := 1, warnArmed := true }).instance0).modInst 0 (fun r => { r with
    opened := r.opened.map (fun p => { p with flags := p.flags ||| pfPowerLoss }) })

/-- The pages of the system band report success. -/
def State.landSystem (s : State) : State := forEach s.flushPages (fun p t => t.pageDone p) s

/-- The first flush of a start-up lists the blocks that the allocator may open (R227; DEDUCED, log entry 45). -/
def State.firstFlush (s : State) : State := s.flushOut.landSystem.flushLanded

/-- The store is ready; a complete root is written after the generations have advanced, from blocks that the table gives, and a flush lists
the next ones. -/
def State.mount (s : State) : State :=
  let s := { s with fss := { s.fss with ready := true } }
  let s := forEach (s.instIds) (fun i t => t.startInstance i) s
  let s := forEach (s.instIds) (fun i t => t.refreshUsed i) s
  s.recap.listBlocks.writeRoot.landSystem.firstFlush

/-- Rebuilding from the newest complete root and the journal that follows it. DEDUCED, log entry 18. -/
def State.rebuildMap (s : State) (env : StartEnv) (r : RootSnap) : State :=
  let log := (s.replayUnits env.badUnits r.seq).flatMap (fun u => u.entries)
  let s := State.loadRoot { s with fss := { s.fss with formatted := true } } r
  let s := forEach log (fun e t => t.replay e) s
  let s := { s with inst := Bank.mapVals instDef s.inst (restored s.tm) }
  let s := s.instance0
  let s := forEach s.instIds (fun i t => t.unwrapKey env.badKeys i) s
  let l := s.found log env.badUnits
  let ok := sortUp s.scanKey (l.filter (fun p => s.wholeGroup l p))
  let s := (ok.foldl (fun e p => placeIfNewer r.watermark p e) (s, jseqOf r.watermark log)).1
  s.closeOpenBands.resumeCounters.trimPool

/-- Dies that do not become ready after RESET are declared failed once the map stands (R245). -/
def State.failDies (s : State) (dies : List DieIdent) : State :=
  forBelow 16 (fun d t =>
    let x := nth dieNone dies d
    if x.present && !x.ready && !(t.die d).failed then t.dieFail d else t) s

/-- Step 11: mounted from its root, formatted in the three cases of R236, or not mounted. -/
def State.mapStep (s : State) (env : StartEnv) : State :=
  let revoked := s.fss.anchor && decide (s.fss.anchorKeySlot ≠ s.sea.slot)
  if !diesOk env.dies then (s.note .storeUnmountable 0).unmounted
  else if s.fss.anchorErased || s.nvs.formatArmed || (env.anchor && revoked) then
    ((s.format env.markers (!s.fss.anchorErased && !s.nvs.formatArmed)).mount).failDies env.dies
  else
    match (if env.anchor then s.fss.root else none) with
    | some r => ((s.rebuildMap env r).mount).failDies env.dies
    | none => (s.note .storeUnmountable 1).unmounted

end Sys2Proof.Machine
end

