-- ==== Sys2Proof/Machine/Startup.lean ====
section
/-!
DEFINITION. Power-on and PERST_N resets and the start-up sequence (spec/15, R475 to R485, R591; spec/16, R513, R516, R527; spec/17, R529,
R543, R544): what each reset leaves, steps 1 to 12 of Table 15-3, and the sweep of R186.
-/

namespace Sys2Proof.Machine

/-! ### Resets (R475 to R478, R483, Table 15-4) -/

/-- NAND programs already issued finish inside their dies, the pages of a journal flush among them. DEDUCED, log entry 15. -/
def State.finishPrograms (s : State) : State :=
  let s := s.landPages
  { s with fss := s.fss.landed }

/-- What NAND keeps: no unit of a page that had not been programmed. -/
def FssState.durable (f : FssState) : FssState :=
  { FssState.reset with
    units := f.units.filter (fun e => !(f.fill ++ f.progs).any (fun p => decide (p.pua / 4 = e.1 / 4))), blocks := f.blocks, nextBand := f.nextBand, root := f.root, jLog := f.jLog, rootSeq := f.rootSeq,
    rootUnits := f.rootUnits, jUnits := f.jUnits, ckptSeq := f.ckptSeq, anchor := f.anchor, anchorSeq := f.anchorSeq,
    anchorKeySlot := f.anchorKeySlot, anchorErased := f.anchorErased,
    anchors := f.anchors, anchorImg := f.anchorImg, anchorWear := f.anchorWear, prevKeys := f.prevKeys }

/-- What OTP keeps of the sealing block. -/
def SeaState.durable (e : SeaState) : SeaState := { SeaState.reset with otp := e.otp, revoked := e.revoked, drawn := e.drawn }

/-- The log at a reset: the mirror and the NVM ring stay; the sequence resumes at counter 7 (R502, R505). DEDUCED, log entry 16. -/
def State.logReset (s : State) : LogState :=
  let n := s.ctr 7 % 2 ^ 32
  { State.reset.log with next := n, unmirrored := n, mirror := s.log.mirror, nvmNext := s.log.nvmNext }

/-- The filters after a PERST_N reset: kept; one that ends the halt restarts every timer (R564). DEDUCED, log entry 15. -/
def InputState.kept (i : InputState) (now : Nat) (halted : Bool) : InputState :=
  if halted then
    { i with changes := [], since := i.since.map (fun _ => now), rateBad := now, pairSince := i.pairSince.map (fun o => o.map (fun _ => now)),
             evt := 0 }
  else { i with evt := 0 }

/-- A drive after a PERST_N reset: what counts since power-on, and the disc sensed. DEDUCED, log entry 15. -/
def Drive.kept (r : Drive) : Drive :=
  let ax := r.ax.map (fun x => { Ax.reset with lateCnt := x.lateCnt, compMax := x.compMax })
  { Drive.reset with
    disc := r.disc, ax := ax,
    spin := { Spindle.reset with lossCnt := r.spin.lossCnt, lockedCnt := r.spin.lockedCnt },
    sled := { Sled.reset with lost := r.sled.lost } }

/-- The part of every power-on and PERST_N reset: State.reset with the queue, the model's own fields, and what NVM, OTP, NAND and the
firmware store keep. DEDUCED, log entry 15. DESIGN CHOICE, log entry 19. -/
def State.rebooted (s : State) : State :=
  let before := s.hlt.halt.isSome || (s.hlt.porHeld && s.hlt.haltBefore)
  let due := (match s.hlt.halt with
    | some h => h.nvmOk
    | none => s.hlt.porHeld && s.hlt.quarDue)
  { State.reset with
    pending := s.pending, out := s.out, free := s.free, nvm := s.nvm, fw := { s.fw with staged := 0, version := 0, secVersion := 0 },
    log := s.logReset, fss := s.fss.durable, sea := s.sea.durable,
    arc := { ArcState.reset with reloadDue := true, chainsDue := true },
    hlt := { State.reset.hlt with por := false, haltBefore := before, quarDue := due, perstLow := s.hlt.perstLow, supply := s.hlt.supply },
    nvs := { State.reset.nvs with writes := s.nvs.writes },
    vsel := s.vsel }

/-- A power-on reset, held or released: time resumes from counters 4 and 5 (R521, R522). DEDUCED, log entry 15. DEDUCED, log entry 50. -/
def State.powerReset (s : State) : State :=
  let sec := s.ctr 5
  let mono := s.ctr 4
  let t := s.rebooted
  { t with
    tm := { State.reset.tm with sec := sec, mono := mono }, nvs := { t.nvs with writes := 0 },
    cal := { t.cal with alive0 := sec, mono0 := mono } }

/-- A PERST_N reset: the clock, monotonic time, the input filters and what counts since power-on stay (R521, R522, R528, R564).
DEDUCED, log entry 15. -/
def State.perstReset (s : State) : State :=
  let s := s.recordHalt.finishPrograms
  let halted := s.hlt.halt.isSome
  let t := s.rebooted
  let ways := s.mch.ways.map (fun w => { w with inWindow := 0, opened := 0 })
  { t with
    hlt := { t.hlt with perst := true, perstLow := true },
    tm := { s.tm with pending := false, late := false, regressed := false, ticks := 0 },
    inp := s.inp.kept s.fine halted,
    link := { t.link with linkDown := s.link.linkDown },
    sea := { t.sea with violCount := s.sea.violCount },
    mch := { t.mch with ways := ways },
    drives := s.drives.map Drive.kept,
    stl := { t.stl with minIdx := s.stl.minIdx, minMv := s.stl.minMv, count := s.stl.count },
    cal := { t.cal with alive0 := s.cal.alive0, mono0 := s.cal.mono0 },
    lateOpens := s.lateOpens }

/-- POWER_ON_RESET (R476, R550): power-on reset is released, after power-up or a brown-out; the straps are read. Programs that power-up
cuts short are torn. DEDUCED, log entry 17. -/
def execPowerOnReset (vsel : BitVec 2) (s : State) : Host.Outcome State Fault Refusal :=
  let brown := s.hlt.porHeld && s.hlt.brownout
  let t := s.powerReset
  .next { t with
    vsel := vsel.toNat, clk := { t.clk with ok := setBitN t.clk.ok 1 (!t.hlt.perstLow) }, hlt := { t.hlt with por := !brown, brownout := brown, supply := 0x7F } }

/-- BROWN_OUT (R476, R477): the reset begins and is held; a rail, in the row order of Table 15-2, lies below its falling threshold. -/
def execBrownOut (rail : Fin 7) (s : State) : Host.Outcome State Fault Refusal :=
  let t := s.powerReset
  .next { t with hlt := { t.hlt with porHeld := true, brownout := true, supply := setBitN s.hlt.supply rail.val false } }

/-- PERST_N_ASSERT (R477, R478, R494): with the supplies in range, the reset; while power-on reset is held, only the level. -/
def execPerstNAssert (s : State) : Host.Outcome State Fault Refusal :=
  .next (if s.hlt.porHeld then { s with hlt := { s.hlt with perstLow := true } } else s.perstReset)

/-- PERST_N_DEASSERT (R454, R478, R481): the port leaves reset and the PCIe reference is present; before step 12 this is early.
DEDUCED, log entry 17. -/
def execPerstNDeassert (s : State) : Host.Outcome State Fault Refusal :=
  .next (if !s.hlt.perstLow then s
    else
      let s := { s with hlt := { s.hlt with perstLow := false } }
      if s.hlt.porHeld then s
      else
        let s := { s with clk := { s.clk with ok := setBitN s.clk.ok 1 true } }
        if s.running && !s.boot.ready then ({ s with boot := { s.boot with early := true } }).note .earlyRelease s.boot.step else s)

/-! ### Step 2 (R453, R455) -/

/-- ref25 is taken from the best source. -/
def State.stepClocks (s : State) : State := { s with clk := { s.clk with sel := s.bestSource } }

/-! ### Step 3: OTP, counters, quarantine list (R170, R171, R204, R516, R543) -/

/-- The OTP array as it reads at this start-up: a copy of a programmed slot may read otherwise than before (R170). -/
def State.readCells (s : State) (l : List OtpRead) : State :=
  let put (r : OtpRead) (c : OtpSlot) : OtpSlot :=
    if !c.programmed then c
    else if r.second then { c with second := ⟨r.key, some r.check⟩ } else { c with first := ⟨r.key, some r.check⟩ }
  { s with sea := { s.sea with otp := l.foldl (fun o r => modNth (put r) o r.slot.val) s.sea.otp } }

/-- A slot of the OTP array may be used. -/
def State.slotFit (s : State) (k : Nat) : Bool :=
  let c := nth OtpSlot.blank s.sea.otp k
  c.programmed && !bitN s.sea.revoked k && (c.first.fits || c.second.fits)

/-- The active slot: the lowest that is fit. -/
def State.activeSlot (s : State) : Option Nat := (List.range 4).find? (fun k => s.slotFit k)

/-- An armed unlock revokes the active slot and programs the next one; with slot 3 active it is refused; a revocation cut short goes on
(R171, R543). The random source has its start-up test only at step 4, so nothing has stopped it here. -/
def State.revoke (s : State) : State :=
  let next : Option Nat := (match s.activeSlot with
    | some 3 => none
    | some k => some (k + 1)
    | none => (List.range 4).find? (fun k => !(nth OtpSlot.blank s.sea.otp k).programmed))
  match next with
  | none => s
  | some k =>
    let rev := (match s.activeSlot with
      | some a => setBitN s.sea.revoked a true
      | none => s.sea.revoked)
    let (key, s) := s.draw
    let s := { s with sea := { s.sea with revoked := rev, otp := modNth (fun _ => OtpSlot.made (leBytes 32 key)) s.sea.otp k } }
    let s := s.monStore false false s.monBaud s.monIdle
    let s := { s with mon := { s.mon with unlocked := true } }
    s.monEvent .monitorUnlocked k

/-- The slot choice of R170: the first copy that matches is used, and KWK is derived from it. -/
def State.chooseRoot (s : State) : State :=
  match s.activeSlot with
  | none => s.haltBy .otpCells
  | some k =>
    let c := nth OtpSlot.blank s.sea.otp k
    let bad := !(c.first.fits && c.second.fits)
    let key := if c.first.fits then c.first.key else c.second.key
    let s := { s with sea := { s.sea with otpOk := true, slot := k, useSecond := !c.first.fits, copyFail := bad, kwk := some (kwkOf key k) } }
    if bad then s.note .otpCopyFail k else s

/-- The intent cell's counter number and target, when its CRC-32 matches. -/
def State.intent (s : State) : Option (Nat × Nat) :=
  let b := s.nvmBytes intentAddr 16
  if crc32 (b.take 12) = leAt b 12 4 ∧ leAt b 0 2 < 272 then some (leAt b 0 2, leAt b 4 8) else none

/-- The first counter of which neither slot is valid or erased. -/
def State.tornCounter (s : State) : Option Nat :=
  let bad (b : List Byte) : Bool := !slotValid b && !slotErased b
  (List.range 272).find? (fun n => (decide (n < 8) || decide (16 ≤ n)) && bad (s.ctrSlot n 0) && bad (s.ctrSlot n 1))

/-- The counter unit's work of step 3 (R516); counter 6 counts a brown-out. -/
def State.checkCounters (s : State) : State :=
  let s := (match s.intent with
    | some (n, v) =>
      let s := if s.ctr n < v then s.ctrStore n v else s
      let s := s.nvmWrite intentAddr (intentImage 0xFFFF 0)
      ({ s with nvs := { s.nvs with recovered := true } }).note .counterRecovered n
    | none => s)
  match s.tornCounter with
  | some n => s.haltBy (.settings (BitVec.ofNat 16 (ctrSlotAddr n 0 / 4)))
  | none => if s.hlt.brownout then s.ctrStore 6 (s.ctr 6 + 1) else s

/-- The quarantine list is read from NVM, and the failing location of the halt that preceded this start-up joins it (R204).
DEDUCED, log entry 34. -/
def State.quarantineStep (s : State) : State :=
  let s1 := { s with hlt := { s.hlt with quarDue := false }, sea := { s.sea with quar := s.nvmQuar } }
  if s.hlt.quarDue then
    match s.haltOrder with
    | k :: _ =>
      let r := s.haltRec k
      let d := leAt r 8 8
      if leAt r 1 1 = 6 then s1.quarantine (.page (d % 16) (d / 16 % 65536) (d / 2 ^ 20 % 4096))
      else if leAt r 1 1 = 7 then s1.quarantine (.disc (leAt r 36 8) (d % 4) (d / 256))
      else s1
    | [] => s1
  else s1

/-! ### Step 4 (R202, Table 05-6) -/

/-- The entropy start-up test and the known-answer tests. -/
def State.stepTests (s : State) (check : Option (Fin 10)) : State :=
  match check with
  | some n => s.haltBy (.hardware n)
  | none => { s with sea := { s.sea with rngOk := true, selftestOk := true, lastTest := s.tm.mono } }

/-! ### Step 5: the monitor, then a firmware slot (R482, R523, R527, R529) -/

/-- The monitor is entered when DBG_RX is low (R529 to R531). -/
def State.enterMonitor (s : State) : State :=
  let s := { s with mon := { s.mon with
    active := true, entered := true, locked := s.monLocked, baud := s.monBaud, idleS := s.monIdle, lastLine := s.tm.mono } }
  let s := s.monEvent .monitorEntered 0
  (s.emit (.uart (wCurlew ++ crlf))).emit (.uart [62, 32])

/-- A slot passes checks 1 to 6 of Table 16-7; an image not staged by the block is judged by `made`. DEDUCED, log entry 35. -/
def State.slotPasses (s : State) (made : Bool) (slot : Nat) : Bool :=
  if (s.image slot).isEmpty then made else (s.firmwareCheck (s.image slot)).isNone

/-- A firmware slot is started. DEDUCED, log entry 35. -/
def State.startSlot (s : State) (slot : Nat) (fallback : Bool) : State :=
  let r := s.slotRecord.1
  let img := s.image slot
  let ver := if img.isEmpty then (if slot = 0 then r.verA else r.verB) else leAt img 8 4
  let sec := if img.isEmpty then (if slot = 0 then r.secA else r.secB) else leAt img 12 4
  { s with boot := { s.boot with slot := slot, fallback := fallback }, fw := { s.fw with version := ver, secVersion := sec } }

/-- The slot choice; trial 2 goes back to the previous slot, trial 1 becomes 2 (R527). DEDUCED, log entry 35. -/
def State.chooseSlot (s : State) (made : Nat → Bool) : State :=
  let r := s.slotRecord.1
  let reverted := decide (r.trial = 2)
  let s := if reverted then s.writeSlot { r with active := r.previous, trial := 0 }
    else if r.trial = 1 then s.writeSlot { r with trial := 2 }
    else s
  let a := (if reverted then r.previous else r.active) % 2
  let s :=
    if s.slotPasses (made a) a then s.startSlot a false
    else if s.slotPasses (made (1 - a)) (1 - a) then (s.startSlot (1 - a) true).note .slotFailed a
    else s.haltBy (.bootImage (fin2 a))
  if reverted then s.note .trialReverted r.active else s

/-! ### Step 6: settings (R112, R331, R508, R513, R540) -/

/-- The choice of R513 at step 6. -/
def State.loadSettings (s : State) : State :=
  let ea := s.copyErased 0
  let eb := s.copyErased 1
  if ea && eb then
    ({ s with nvs := { s.nvs with factory := true, origin := 3, content := [] } }).note .settingsFactory 0
  else
    match s.bestCopy with
    | some (k, fallback) => s.takeCopy k fallback
    | none => s.haltBy (.settings (BitVec.ofNat 16 (copyAddr s.firstCopy / 4)))

/-- The stored values stand as epoch 0; what lay outside a range is logged; a register that is not storable keeps what the monitor wrote
(R112, R508, R536, R587). -/
def State.applySettings (s : State) : State :=
  let b := s.storedOver (fun _ => true) s.regs
  let e := b.filter (fun e => isEpochReg e.1 && !isLimit e.1)
  let s := { s with regs := b, nextSet := e, liveSet := e, prevSet := e, epoch := EpochState.reset }
  let (sub, req) : Nat × Nat := (match s.item 2 with
    | some v => (leAt v 0 2, leAt v 2 1)
    | none => (0, Config.fwIdeRequired))
  let s := { s.setReg Reg.HST_IDE_CTL (BitVec.ofNat 32 (req % 2)) with link := { s.link with subsystemId := sub } }
  forEach ((storableKeys.filter (fun k => s.storedBad k))) (fun k t => t.note .settingsValue k) s

/-- The monitor settings take item 0x000A where it differs; the lock is never cleared (R540). -/
def State.monitorItem (s : State) : State :=
  match s.item 10 with
  | some v =>
    let lock := s.monLocked || decide (leAt v 0 1 = 1)
    if lock = s.monLocked ∧ leAt v 1 4 = s.monBaud ∧ leAt v 5 2 = s.monIdle then s
    else s.monStore lock s.monArmed (leAt v 1 4) (leAt v 5 2)
  | none => s

/-- Heron sends the stored driver frames, then the read level (R331). -/
def State.laserStart (s : State) : State :=
  let l := (match s.item 5 with
    | some v => laserFrames (v.length + 1) v
    | none => [])
  forBelow 4 (fun d t =>
    (forEach (l.filter (fun e => decide (e.1 = d))) (fun e u => u.emit (.laserFrame d e.2)) t).laserRead d) s

/-! ### Step 7: Avocet (R428, R436, R444) -/

/-- The start-up items of Table 13-2 in their order: OSC, then CREF and ADCOFS of every drive, where they run by themselves.
DEDUCED, log entry 53. -/
def State.startItems (s : State) : List (Nat × Nat) :=
  ([(1, 0)] ++ (List.range 4).flatMap (fun d => [(2, d), (3, d)])).filter (fun e => bitN (Cf.CAL_CTL_auto s) e.1)

/-- One of them runs. -/
def State.startItem (s : State) (e : Nat × Nat) (m : Option CalMeas) : State :=
  match m with
  | some m => s.endItem e.1 e.2 (s.itemTemp e.1 e.2) m
  | none => s.calFailed e.1 e.2

/-- Step 7: the sets are loaded, the readings of the cold-start step are recorded until the first commit after power-on, the values in force
are computed and the items run. -/
def State.stepCal (s : State) (ms : List (Option CalMeas)) : State :=
  let s := s.loadCal
  let s := if s.tm.committed then s else
    { s with cal := { s.cal with cold := some (s.dieTemp, (List.range 4).map (fun d => s.driveTemp d)) } }
  let s := forBelow 4 (fun d t => t.recompute d) s.recomputeDie
  forEach s.startItems.zipIdx (fun e t => t.startItem e.1 (nth none ms e.2)) s

/-! ### Step 8: LPDDR (R174, R186, R505, R544, R591) -/

/-- A log entry read back from the NVM ring: 32 bytes that name an event. -/
def entryOf (b : List Byte) : Option LogEntry :=
  match Ev.all.find? (fun e => decide (e.src = leAt b 5 1 ∧ (Config.evCode e.src e.ctorIdx).toNat = leAt b 22 2)) with
  | none => none
  | some ev =>
    let f := leAt b 7 1
    some { seq := leAt b 0 4, ev := ev, inst := if bitN f 0 then some (BitVec.ofNat 8 (leAt b 6 1)) else none, wall := leAt b 8 8,
           wallValid := bitN f 1, early := bitN f 2, mono := leAt b 16 5, reps := leAt b 21 1, arg := leAt b 24 8 }

/-- The entries of the NVM ring. -/
def State.nvmLog (s : State) : List LogEntry :=
  (List.range 64).filterMap (fun k =>
    let b := s.nvmBytes (0x29000 + 32 * k) 32
    if b.all (fun x => x == 0xFF) then none else entryOf b)

/-- An entry put into a ring, newest first, by its distance behind the next sequence number. -/
def insertEntry (next : Nat) (e : LogEntry) : List LogEntry → List LogEntry
  | [] => [e]
  | x :: r =>
    let age (q : Nat) : Nat := (next + 2 ^ 32 - q) % 2 ^ 32
    if age e.seq ≤ age x.seq then e :: x :: r else x :: insertEntry next e r

/-- The LPDDR ring is refilled from the mirror and the NVM ring (R505); without LPDDR from the NVM ring alone (R591). -/
def State.refillLog (s : State) (mirror : Bool) : State :=
  let old := if mirror then s.log.mirror else []
  let lacking := s.nvmLog.filter (fun e => !old.any (fun x => x.seq = e.seq) && !s.log.ring.any (fun x => x.seq = e.seq))
  let l := lacking.foldl (fun a e => insertEntry s.log.next e a) (s.log.ring ++ old.filter (fun e => !s.log.ring.any (fun x => x.seq = e.seq)))
  { s with log := { s.log with ring := l.take 4096 } }

/-- The events that the monitor kept enter the log (R544). -/
def State.monitorEvents (s : State) : State :=
  let l := s.mon.events
  forEach l (fun e t => t.note e.1 e.2) { s with mon := { s.mon with events := [] } }

/-- Milliseconds since the reference of Table 15-3. -/
def State.bootClock (s : State) : Nat := s.tm.micros / 1000

/-- A step of the start-up that draws keys waits while the random source is stopped; after 10 s the halt begins (R176, Table 05-6). -/
def State.withRandom (s : State) (g : State → State) : State :=
  if s.sea.rngOk then g s
  else if s.sea.rngDown + 10000 ≤ s.tm.mono then s.haltBy (.hardware ⟨9, by decide⟩)
  else s

/-- Step 8: LPDDR training; the keys are drawn and the sweep begins, or nothing of LPDDR is put to use. -/
def State.stepDram (s : State) (size : Option (BitVec 16)) : State :=
  match size with
  | some m =>
    s.withRandom (fun s =>
      let s := s.monitorEvents
      let s := { s with boot := { s.boot with step := 8, step8Ms := s.bootClock } }
      State.drawLineKeys { s with sea := { s.sea with lpddrMib := m.toNat, sweepLines := 0 } })
  | none =>
    let s := s.monitorEvents
    let s := { s with boot := { s.boot with step := 8, step8Ms := s.bootClock } }
    (({ s with boot := { s.boot with dramFail := true }, arc := { s.arc with reloadDue := false } }).note .dramFail 0).refillLog false

/-- Lines of the protected range (R181): the MAC region is a ninth of the device, rounded up to a whole MiB. -/
def State.sweepTotal (s : State) : Nat := (s.sea.lpddrMib - (s.sea.lpddrMib + 8) / 9) * 16384

/-! ### The sequence -/

/-- Steps 1 to 4. DESIGN CHOICE, log entry 14. -/
def State.bootFirst (s : State) (env : StartEnv) : State :=
  let s := s.stepClocks.readCells env.cells
  let s := { s with boot := { s.boot with step := 2 } }
  let s := if s.monArmed then s.revoke else s
  let s := s.chooseRoot
  let s := if s.running then s.checkCounters.quarantineStep else s
  if !s.running then s
  else
    let s := ({ s with boot := { s.boot with step := 3 } }).stepTests env.check
    if s.running then { s with boot := { s.boot with step := 4 } } else s

/-- Steps 5 to 8, the monitor apart. DESIGN CHOICE, log entry 14. -/
def State.bootSecond (s : State) (env : StartEnv) : State :=
  let s := s.chooseSlot (fun k => if k = 0 then env.slotA else env.slotB)
  if !s.running then s
  else
    let s := ({ s with boot := { s.boot with step := 5 } }).loadSettings
    if !s.running then s
    else
      let s := s.applySettings.monitorItem.laserStart
      let s := { s with pwb := { s.pwb with classCode := s.classUsed }, boot := { s.boot with step := 6 } }
      let s := s.stepCal env.cal
      ({ s with boot := { s.boot with step := 7 } }).stepDram env.lpddr

/-- Steps 9 to 11: NAND identified, the map rebuilt; passed over without LPDDR (R591). Step 11 shows once step 10 has ended (R479).
DESIGN CHOICE, log entry 14. -/
def State.bootThird (s : State) (env : StartEnv) : State :=
  let s := s.identify env.dies
  let s := if s.boot.dramFail then s.unmounted
    else (({ s with boot := { s.boot with step := 9 } }).refillLog true).mapStep env
  let took := s.bootClock - s.boot.step8Ms
  { s with boot := { s.boot with mapDone := true, rebuildMs := satU 16 took, step := if s.boot.dramFail || s.sea.sweepDone then 11 else 9 },
           fss := { s.fss with rbTime := if s.boot.dramFail then 0 else satU 16 took } }

/-- Step 11 will format the store, which draws keys (R236). -/
def State.formatDue (s : State) (env : StartEnv) : Bool :=
  !s.boot.dramFail && (s.fss.anchorErased || s.nvs.formatArmed || (env.anchor && s.fss.anchor && decide (s.fss.anchorKeySlot ≠ s.sea.slot)))

/-- STARTUP_SEQUENCE (R479): start-up goes on as far as it can: through the monitor check of step 5, to step 8, and from there to the end of
step 11 once the first 64 MiB are sealed. DESIGN CHOICE, log entry 14. -/
def execStartupSequence (env : StartEnv) (s : State) : Host.Outcome State Fault Refusal :=
  .next (whenRunning s (fun s =>
    if s.boot.ready || s.mon.active then s
    else if s.boot.step < 4 then
      let s := s.bootFirst env
      if !s.running then s
      else if !s.level 12 then s.enterMonitor
      else s.bootSecond env
    else if s.boot.step < 7 then s.bootSecond env
    else if s.boot.step = 7 then s.stepDram env.lpddr
    else if s.boot.step = 8 && (s.boot.dramFail || decide (min 1048576 s.sweepTotal ≤ s.sea.sweepLines)) then
      (if s.formatDue env then s.withRandom (fun s => s.bootThird env) else s.bootThird env)
    else s))

/-- The sweep runs: LPDDR is trained and the range is not all sealed. -/
def State.sweeping (s : State) : Bool := s.sea.kd.isSome && !s.sea.sweepDone && decide (8 ≤ s.boot.step)

/-- SWEEP_WATERMARK (R186): the next lines are sealed. -/
def execSweepWatermark (n : BitVec 27) (s : State) : Host.Outcome State Fault Refusal :=
  .next (whenRunning s (fun s =>
    if s.sweeping then { s with sea := { s.sea with sweepLines := min s.sweepTotal (s.sea.sweepLines + n.toNat) } } else s))

/-- SWEEP_COMPLETE (R186): the whole range is sealed; step 10 ends, and with it step 11 if the map stands. -/
def execSweepComplete (s : State) : Host.Outcome State Fault Refusal :=
  .next (whenRunning s (fun s =>
    if s.sweeping then
      { s with sea := { s.sea with sweepDone := true, sweepLines := s.sweepTotal },
               boot := { s.boot with step := if s.boot.step < 9 then s.boot.step else if s.boot.mapDone then 11 else 10 } }
    else s))

/-- A firmware that runs on trial has reached the first ready state (R527). DESIGN CHOICE, log entry 56. -/
def State.endTrial (s : State) : State :=
  let r := s.slotRecord.1
  if r.trial = 2 then (s.writeSlot { r with trial := 0 }).ctrRaise 3 s.fw.secVersion else s

/-- FIRST_READY_STATE (R480, R527): step 12. DEDUCED, log entry 55. -/
def execFirstReadyState (s : State) : Host.Outcome State Fault Refusal :=
  .next (whenRunning s (fun s =>
    if s.boot.ready || decide (s.boot.step ≠ 11) then s
    else
      let s := s.endTrial
      let cause := b2n s.hlt.por + 2 * b2n s.hlt.brownout + 4 * b2n s.hlt.perst + 8 * b2n s.hlt.haltBefore
      let ms := satU 16 s.bootClock
      let s := s.note .startUp (cause + ms * 2 ^ 32)
      ({ s with boot := { s.boot with step := 12, ready := true, bootMs := ms } }).settle))

end Sys2Proof.Machine
end

