-- ==== Sys2Proof/Machine/Dispatch.lean ====
section
/-!
DEFINITION. The meaning of every command, one arm per constructor.
-/

namespace Sys2Proof.Machine

/-- What a command does to everything but the queue. -/
def exec (i : Instr) (s : State) : Host.Outcome State Fault Refusal :=
  match i with
  | .registerWrite sp off data => Sys2Proof.Machine.execRegisterWrite sp off data s
  | .latchedPairRead sp r => Sys2Proof.Machine.execLatchedPairRead sp r s
  | .configWrite f field v => Sys2Proof.Machine.execConfigWrite f field v s
  | .systemPageSizeWrite v => Sys2Proof.Machine.execSystemPageSizeWrite v s
  | .numvfsWrite v => Sys2Proof.Machine.execNumvfsWrite v s
  | .vfEnableSet => Sys2Proof.Machine.execVfEnableSet s
  | .vfEnableClear => Sys2Proof.Machine.execVfEnableClear s
  | .busMasterEnableWrite f en => Sys2Proof.Machine.execBusMasterEnableWrite f en s
  | .completionTimeoutValueWrite f v => Sys2Proof.Machine.execCompletionTimeoutValueWrite f v s
  | .initiateFunctionLevelReset f => Sys2Proof.Machine.execInitiateFunctionLevelReset f s
  | .powerStateD3hot => Sys2Proof.Machine.execPowerStateD3hot s
  | .powerStateD0 => Sys2Proof.Machine.execPowerStateD0 s
  | .msixVectorUnmask f what => Sys2Proof.Machine.execMsixVectorUnmask f what s
  | .hostReadCompletion tag data bad => Sys2Proof.Machine.execHostReadCompletion tag data bad s
  | .hostReadErrorCompletion tag why => Sys2Proof.Machine.execHostReadErrorCompletion tag why s
  | .completionTimeout tag => Sys2Proof.Machine.execCompletionTimeout tag s
  | .leafFetchRetry line => Sys2Proof.Machine.execLeafFetchRetry line s
  | .linkUp rate width => Sys2Proof.Machine.execLinkUp rate width s
  | .dlDown => Sys2Proof.Machine.execDlDown s
  | .hotResetReceived => Sys2Proof.Machine.execHotResetReceived s
  | .warmResetComplete => Sys2Proof.Machine.execWarmResetComplete s
  | .spdmRequest secured size req => Sys2Proof.Machine.execSpdmRequest secured size req s
  | .doeAbort => Sys2Proof.Machine.execDoeAbort s
  | .query session => Sys2Proof.Machine.execQuery session s
  | .keyProg session sub tx set key => Sys2Proof.Machine.execKeyProg session sub tx set key s
  | .kSetGo session sub tx set => Sys2Proof.Machine.execKSetGo session sub tx set s
  | .kSetStop session sub set => Sys2Proof.Machine.execKSetStop session sub set s
  | .ideTlpReceived sub k chk => Sys2Proof.Machine.execIdeTlpReceived sub k chk s
  | .ideTxCounterLimit sub => Sys2Proof.Machine.execIdeTxCounterLimit sub s
  | .hstCntClr v => Sys2Proof.Machine.execHstCntClr v s
  | .instanceStart id => Sys2Proof.Machine.execInstanceStart id s
  | .instanceReset id => Sys2Proof.Machine.execInstanceReset id s
  | .instanceRemove id => Sys2Proof.Machine.execInstanceRemove id s
  | .setPolicy id => Sys2Proof.Machine.execSetPolicy id s
  | .setQuota id => Sys2Proof.Machine.execSetQuota id s
  | .setPeriod id => Sys2Proof.Machine.execSetPeriod id s
  | .resetDrainDone f => Sys2Proof.Machine.execResetDrainDone f s
  | .oldGenerationMediaEnded f => Sys2Proof.Machine.execOldGenerationMediaEnded f s
  | .mbInPost f post => Sys2Proof.Machine.execMbInPost f post s
  | .mailboxConsume f => Sys2Proof.Machine.execMailboxConsume f s
  | .mbOutAck f ack => Sys2Proof.Machine.execMbOutAck f ack s
  | .sharedPageWrite f off data => Sys2Proof.Machine.execSharedPageWrite f off data s
  | .policyPageUsedUpdate => Sys2Proof.Machine.execPolicyPageUsedUpdate s
  | .epochCommit v => Sys2Proof.Machine.execEpochCommit v s
  | .subsystemAdopt bit part => Sys2Proof.Machine.execSubsystemAdopt bit part s
  | .epochAdoptionTimeout => Sys2Proof.Machine.execEpochAdoptionTimeout s
  | .occupancyTick => Sys2Proof.Machine.execOccupancyTick s
  | .periodBoundary => Sys2Proof.Machine.execPeriodBoundary s
  | .ringEnable f cq k v => Sys2Proof.Machine.execRingEnable f cq k v s
  | .ringDisable f cq k v => Sys2Proof.Machine.execRingDisable f cq k v s
  | .dbEnWrite f v => Sys2Proof.Machine.execDbEnWrite f v s
  | .doorbellFetch f => Sys2Proof.Machine.execDoorbellFetch f s
  | .doorbellFetchComplete f data => Sys2Proof.Machine.execDoorbellFetchComplete f data s
  | .wake f => Sys2Proof.Machine.execWake f s
  | .commandAccept f sq entry => Sys2Proof.Machine.execCommandAccept f sq entry s
  | .commandStart id => Sys2Proof.Machine.execCommandStart id s
  | .write id mac => Sys2Proof.Machine.execWrite id mac s
  | .read id mac bad => Sys2Proof.Machine.execRead id mac bad s
  | .discard id => Sys2Proof.Machine.execDiscard id s
  | .flush id => Sys2Proof.Machine.execFlush id s
  | .commitSegment id => Sys2Proof.Machine.execCommitSegment id s
  | .archiveRead id => Sys2Proof.Machine.execArchiveRead id s
  | .verify id => Sys2Proof.Machine.execVerify id s
  | .identify id => Sys2Proof.Machine.execIdentify id s
  | .getLog id => Sys2Proof.Machine.execGetLog id s
  | .getUsage id => Sys2Proof.Machine.execGetUsage id s
  | .stripeLoad id discs set fails => Sys2Proof.Machine.execStripeLoad id discs set fails s
  | .stripeFinalize id fails => Sys2Proof.Machine.execStripeFinalize id fails s
  | .stripeRebuild id disc rebuilds reads => Sys2Proof.Machine.execStripeRebuild id disc rebuilds reads s
  | .storeSettings id => Sys2Proof.Machine.execStoreSettings id s
  | .storeSettingsCapture id => Sys2Proof.Machine.execStoreSettingsCapture id s
  | .fwStage id => Sys2Proof.Machine.execFwStage id s
  | .fwActivate id => Sys2Proof.Machine.execFwActivate id s
  | .completionWrite id => Sys2Proof.Machine.execCompletionWrite id s
  | .coalescingTimeout f cq => Sys2Proof.Machine.execCoalescingTimeout f cq s
  | .goTask f v => Sys2Proof.Machine.execGoTask f v s
  | .taskPortCompletion id => Sys2Proof.Machine.execTaskPortCompletion id s
  | .integrityHalt c more => Sys2Proof.Machine.execIntegrityHalt c more s
  | .haltRecordWritten => Sys2Proof.Machine.execHaltRecordWritten s
  | .haltedStateRequest r => Sys2Proof.Machine.execHaltedStateRequest r s
  | .selftestPeriod bad => Sys2Proof.Machine.execSelftestPeriod bad s
  | .drbgReseed => Sys2Proof.Machine.execDrbgReseed s
  | .entropyHealthFail => Sys2Proof.Machine.execEntropyHealthFail s
  | .jtagAccess write addr v => Sys2Proof.Machine.execJtagAccess write addr v s
  | .quarClr v => Sys2Proof.Machine.execQuarClr v s
  | .nandPageProgramDone pua => Sys2Proof.Machine.execNandPageProgramDone pua s
  | .pageWaitTimeout role => Sys2Proof.Machine.execPageWaitTimeout role s
  | .nandProgramFail pua => Sys2Proof.Machine.execNandProgramFail pua s
  | .nandEraseDone die block ok => Sys2Proof.Machine.execNandEraseDone die block ok s
  | .nandReadDone pua r => Sys2Proof.Machine.execNandReadDone pua r s
  | .journalFlush => Sys2Proof.Machine.execJournalFlush s
  | .journalFlushComplete => Sys2Proof.Machine.execJournalFlushComplete s
  | .rootCheckpoint => Sys2Proof.Machine.execRootCheckpoint s
  | .garbageCollection => Sys2Proof.Machine.execGarbageCollection s
  | .staticWearLevelling die => Sys2Proof.Machine.execStaticWearLevelling die s
  | .refreshRead die block page r => Sys2Proof.Machine.execRefreshRead die block page r s
  | .dieBusyTimeout die => Sys2Proof.Machine.execDieBusyTimeout die s
  | .dieRebuildDone seen => Sys2Proof.Machine.execDieRebuildDone seen s
  | .writeSpaceWaitTimeout id => Sys2Proof.Machine.execWriteSpaceWaitTimeout id s
  | .zqCalibration => Sys2Proof.Machine.execZqCalibration s
  | .hregEnable => Sys2Proof.Machine.execHregEnable s
  | .hregDisable => Sys2Proof.Machine.execHregDisable s
  | .hregDisableDone => Sys2Proof.Machine.execHregDisableDone s
  | .pdPgoodFall => Sys2Proof.Machine.execPdPgoodFall s
  | .pdPgoodRise => Sys2Proof.Machine.execPdPgoodRise s
  | .mchEnableWrite v => Sys2Proof.Machine.execMchEnableWrite v s
  | .clean mode => Sys2Proof.Machine.execClean mode s
  | .invalidate mode => Sys2Proof.Machine.execInvalidate mode s
  | .cleanAndInvalidate mode => Sys2Proof.Machine.execCleanAndInvalidate mode s
  | .maintenanceOpDone bad => Sys2Proof.Machine.execMaintenanceOpDone bad s
  | .parityWindowExpiry way => Sys2Proof.Machine.execParityWindowExpiry way s
  | .wayEn v => Sys2Proof.Machine.execWayEn v s
  | .segmentAdmit => Sys2Proof.Machine.execSegmentAdmit s
  | .archiveBlockFormat reads => Sys2Proof.Machine.execArchiveBlockFormat reads s
  | .fillerTimeout => Sys2Proof.Machine.execFillerTimeout s
  | .stripeRecordStart => Sys2Proof.Machine.execStripeRecordStart s
  | .slotVerifyResult d num => Sys2Proof.Machine.execSlotVerifyResult d num s
  | .archiveDone num => Sys2Proof.Machine.execArchiveDone num s
  | .pendingEntriesWrite fails => Sys2Proof.Machine.execPendingEntriesWrite fails s
  | .degradedDriveTimeout d => Sys2Proof.Machine.execDegradedDriveTimeout d s
  | .zoneWobbleMeasure d layer zone periods => Sys2Proof.Machine.execZoneWobbleMeasure d layer zone periods s
  | .channelClockLockChange d errs kbps => Sys2Proof.Machine.execChannelClockLockChange d errs kbps s
  | .frameSync d start rf => Sys2Proof.Machine.execFrameSync d start rf s
  | .blockDecode d => Sys2Proof.Machine.execBlockDecode d s
  | .readRetry d => Sys2Proof.Machine.execReadRetry d s
  | .opcRun d layer fields => Sys2Proof.Machine.execOpcRun d layer fields s
  | .opcGo d => Sys2Proof.Machine.execOpcGo d s
  | .servoSample a adc since ns => Sys2Proof.Machine.execServoSample a adc since ns s
  | .servoSampleDeadline a ns => Sys2Proof.Machine.execServoSampleDeadline a ns s
  | .limitGroupSample d laser ma => Sys2Proof.Machine.execLimitGroupSample d laser ma s
  | .swap a v => Sys2Proof.Machine.execSwap a v s
  | .openAxis a => Sys2Proof.Machine.execOpenAxis a s
  | .closeAxis a => Sys2Proof.Machine.execCloseAxis a s
  | .acquire d layer => Sys2Proof.Machine.execAcquire d layer s
  | .seek d now => Sys2Proof.Machine.execSeek d now s
  | .layerJump d layer => Sys2Proof.Machine.execLayerJump d layer s
  | .releaseToHeron a => Sys2Proof.Machine.execReleaseToHeron a s
  | .layerJumpTimeout d => Sys2Proof.Machine.execLayerJumpTimeout d s
  | .seekConfirm d now => Sys2Proof.Machine.execSeekConfirm d now s
  | .driveStartSequence d => Sys2Proof.Machine.execDriveStartSequence d s
  | .rateMeterBin => Sys2Proof.Machine.execRateMeterBin s
  | .sourceFaultHoldExpiry a => Sys2Proof.Machine.execSourceFaultHoldExpiry a s
  | .spinStart d => Sys2Proof.Machine.execSpinStart d s
  | .spinStop d => Sys2Proof.Machine.execSpinStop d s
  | .coast d => Sys2Proof.Machine.execCoast d s
  | .clearFault d => Sys2Proof.Machine.execClearFault d s
  | .rotorDetectDone d currents => Sys2Proof.Machine.execRotorDetectDone d currents s
  | .alignmentDone d => Sys2Proof.Machine.execAlignmentDone d s
  | .forcedCommutation d => Sys2Proof.Machine.execForcedCommutation d s
  | .zeroCrossing d dt rising sample => Sys2Proof.Machine.execZeroCrossing d dt rising sample s
  | .crossingWindowMiss d => Sys2Proof.Machine.execCrossingWindowMiss d s
  | .rotorReacquired d step intervals => Sys2Proof.Machine.execRotorReacquired d step intervals s
  | .reacquisitionTimeout d => Sys2Proof.Machine.execReacquisitionTimeout d s
  | .lockedRotorTimeout d => Sys2Proof.Machine.execLockedRotorTimeout d s
  | .lockedRotorRetry d => Sys2Proof.Machine.execLockedRotorRetry d s
  | .spindleOvercurrent d => Sys2Proof.Machine.execSpindleOvercurrent d s
  | .brakeProbe d uv => Sys2Proof.Machine.execBrakeProbe d uv s
  | .brakeTimeout d => Sys2Proof.Machine.execBrakeTimeout d s
  | .spindleIdleTimeout d => Sys2Proof.Machine.execSpindleIdleTimeout d s
  | .travel d => Sys2Proof.Machine.execTravel d s
  | .sledSeek d => Sys2Proof.Machine.execSledSeek d s
  | .home d => Sys2Proof.Machine.execHome d s
  | .park d => Sys2Proof.Machine.execPark d s
  | .sledStop d => Sys2Proof.Machine.execSledStop d s
  | .sledRelease d => Sys2Proof.Machine.execSledRelease d s
  | .sledClear d => Sys2Proof.Machine.execSledClear d s
  | .sledPlanTick d => Sys2Proof.Machine.execSledPlanTick d s
  | .sledTickLate d => Sys2Proof.Machine.execSledTickLate d s
  | .sledArrivalReport d => Sys2Proof.Machine.execSledArrivalReport d s
  | .sledRereference d k => Sys2Proof.Machine.execSledRereference d k s
  | .boostDecay d => Sys2Proof.Machine.execBoostDecay d s
  | .sledOvercurrent d phaseB => Sys2Proof.Machine.execSledOvercurrent d phaseB s
  | .openCoil d phaseB => Sys2Proof.Machine.execOpenCoil d phaseB s
  | .calItemGo kind d => Sys2Proof.Machine.execCalItemGo kind d s
  | .calStore => Sys2Proof.Machine.execCalStore s
  | .calItemRun m => Sys2Proof.Machine.execCalItemRun m s
  | .calDeferTimeout => Sys2Proof.Machine.execCalDeferTimeout s
  | .calPeriodicStore => Sys2Proof.Machine.execCalPeriodicStore s
  | .converterCheckPeriod => Sys2Proof.Machine.execConverterCheckPeriod s
  | .vcoreLow => Sys2Proof.Machine.execVcoreLow s
  | .speedIndexMeasure idx mv => Sys2Proof.Machine.execSpeedIndexMeasure idx mv s
  | .fabricSlowAlarmClear => Sys2Proof.Machine.execFabricSlowAlarmClear s
  | .tputWindow counts => Sys2Proof.Machine.execTputWindow counts s
  | .tputClr v => Sys2Proof.Machine.execTputClr v s
  | .crystalQualified xt32k good => Sys2Proof.Machine.execCrystalQualified xt32k good s
  | .xt25Requalify good => Sys2Proof.Machine.execXt25Requalify good s
  | .clockSourceFault k => Sys2Proof.Machine.execClockSourceFault k s
  | .supervisorGate xp xk pk => Sys2Proof.Machine.execSupervisorGate xp xk pk s
  | .ref25Switchover => Sys2Proof.Machine.execRef25Switchover s
  | .sourceReturn => Sys2Proof.Machine.execSourceReturn s
  | .selReq v => Sys2Proof.Machine.execSelReq v s
  | .sleepModeEntry => Sys2Proof.Machine.execSleepModeEntry s
  | .powerModeWake => Sys2Proof.Machine.execPowerModeWake s
  | .fmcGo v => Sys2Proof.Machine.execFmcGo v s
  | .fmcDone count => Sys2Proof.Machine.execFmcDone count s
  | .pseClassChange code => Sys2Proof.Machine.execPseClassChange code s
  | .budgetSample code => Sys2Proof.Machine.execBudgetSample code s
  | .powerOnReset vsel => Sys2Proof.Machine.execPowerOnReset vsel s
  | .brownOut rail => Sys2Proof.Machine.execBrownOut rail s
  | .perstNAssert => Sys2Proof.Machine.execPerstNAssert s
  | .perstNDeassert => Sys2Proof.Machine.execPerstNDeassert s
  | .startupSequence env => Sys2Proof.Machine.execStartupSequence env s
  | .sweepComplete => Sys2Proof.Machine.execSweepComplete s
  | .firstReadyState => Sys2Proof.Machine.execFirstReadyState s
  | .startupSetReload discs set => Sys2Proof.Machine.execStartupSetReload discs set s
  | .accClr => Sys2Proof.Machine.execAccClr s
  | .rstCntClear => Sys2Proof.Machine.execRstCntClear s
  | .sensorSample r => Sys2Proof.Machine.execSensorSample r s
  | .hotClear => Sys2Proof.Machine.execHotClear s
  | .thermWrite v => Sys2Proof.Machine.execThermWrite v s
  | .logFoldFlush => Sys2Proof.Machine.execLogFoldFlush s
  | .logMirrorWrite => Sys2Proof.Machine.execLogMirrorWrite s
  | .logNvmWrite => Sys2Proof.Machine.execLogNvmWrite s
  | .timSecLoRead => Sys2Proof.Machine.execTimSecLoRead s
  | .setClock => Sys2Proof.Machine.execSetClock s
  | .cancel => Sys2Proof.Machine.execCancel s
  | .clockCommit => Sys2Proof.Machine.execClockCommit s
  | .lastAliveWrite => Sys2Proof.Machine.execLastAliveWrite s
  | .monoFloorWrite => Sys2Proof.Machine.execMonoFloorWrite s
  | .monI => Sys2Proof.Machine.execMonI s
  | .monRd addr n => Sys2Proof.Machine.execMonRd addr n s
  | .monWr addr value good => Sys2Proof.Machine.execMonWr addr value good s
  | .baud rate => Sys2Proof.Machine.execBaud rate s
  | .lock => Sys2Proof.Machine.execLock s
  | .unlock code => Sys2Proof.Machine.execUnlock code s
  | .monitorGo => Sys2Proof.Machine.execMonitorGo s
  | .monitorIdleTimeout => Sys2Proof.Machine.execMonitorIdleTimeout s
  | .inputQualified n v => Sys2Proof.Machine.execInputQualified n v s
  | .chatterClear n => Sys2Proof.Machine.execChatterClear n s
  | .inputStuck n => Sys2Proof.Machine.execInputStuck n s
  | .stuckClear n => Sys2Proof.Machine.execStuckClear n s
  | .analogueOutOfRange n code => Sys2Proof.Machine.execAnalogueOutOfRange n code s
  | .analogueReturn n code => Sys2Proof.Machine.execAnalogueReturn n code s
  | .entropyHealthRecovery => Sys2Proof.Machine.execEntropyHealthRecovery s
  | .carrierPeriod d sled ma mb => Sys2Proof.Machine.execCarrierPeriod d sled ma mb s
  | .commutation d => Sys2Proof.Machine.execCommutation d s
  | .sweepWatermark n => Sys2Proof.Machine.execSweepWatermark n s
  | .unknownCommand syn => Sys2Proof.Machine.execUnknownCommand syn s

end Sys2Proof.Machine
end

