-- ==== Sys2Proof/Machine/Step.lean ====
section
/-!
DEFINITION. One step: the command at the front of the queue takes its effect; on an empty queue one tick of 1/32,768 s passes (log
entry 1).
-/

namespace Sys2Proof.Machine

/-- The front command is taken off the queue and executed; with nothing waiting, time passes by one tick.
DESIGN CHOICE, log entry 1. DESIGN CHOICE, log entry 57. -/
def step (s : State) : Host.Outcome State Fault Refusal :=
  match s.pending with
  | [] => .next (tick s)
  | c :: r => exec c { s with pending := r }

/-- The block with the command that a word spells put at the front of its queue; unchanged where the word spells none.
DESIGN CHOICE, log entry 57. -/
def State.withFetchWord (s : State) (nbits w : Nat) : State :=
  match Sys2Proof.decodeTableWord nbits w with
  | some c => { s with pending := c :: s.pending }
  | none => s

end Sys2Proof.Machine
end

