-- ==== Sys2Proof/Safety.lean ====
section
/-!
DEFINITION. The terms of the statements: which fields of State two states share, and what a state of the block is called: serving, halted.
-/

namespace Sys2Proof.Machine

/-- The fields of State, by name. -/
inductive StateField where
  | pending | out | free | regs | nextSet | liveSet | prevSet | latches | epoch | tm | hlt | boot | log | nvm | fw | nvs | link
  | sec | inst | fn | cmds | nextCmd | oldOps | due | reads | nextTag | lastFn | dbErr | sqErr | fss | sea | mch | fetches | arc | drives
  | clk | pwb | stl | inp | sns | cal | mon | rate | lateOpens | vsel
  deriving DecidableEq, Repr

/-- Two states hold the same in a field. -/
def State.agree (s t : State) : StateField → Prop
  | .pending => t.pending = s.pending
  | .out => t.out = s.out
  | .free => t.free = s.free
  | .regs => t.regs = s.regs
  | .nextSet => t.nextSet = s.nextSet
  | .liveSet => t.liveSet = s.liveSet
  | .prevSet => t.prevSet = s.prevSet
  | .latches => t.latches = s.latches
  | .epoch => t.epoch = s.epoch
  | .tm => t.tm = s.tm
  | .hlt => t.hlt = s.hlt
  | .boot => t.boot = s.boot
  | .log => t.log = s.log
  | .nvm => t.nvm = s.nvm
  | .fw => t.fw = s.fw
  | .nvs => t.nvs = s.nvs
  | .link => t.link = s.link
  | .sec => t.sec = s.sec
  | .inst => t.inst = s.inst
  | .fn => t.fn = s.fn
  | .cmds => t.cmds = s.cmds
  | .nextCmd => t.nextCmd = s.nextCmd
  | .oldOps => t.oldOps = s.oldOps
  | .due => t.due = s.due
  | .reads => t.reads = s.reads
  | .nextTag => t.nextTag = s.nextTag
  | .lastFn => t.lastFn = s.lastFn
  | .dbErr => t.dbErr = s.dbErr
  | .sqErr => t.sqErr = s.sqErr
  | .fss => t.fss = s.fss
  | .sea => t.sea = s.sea
  | .mch => t.mch = s.mch
  | .fetches => t.fetches = s.fetches
  | .arc => t.arc = s.arc
  | .drives => t.drives = s.drives
  | .clk => t.clk = s.clk
  | .pwb => t.pwb = s.pwb
  | .stl => t.stl = s.stl
  | .inp => t.inp = s.inp
  | .sns => t.sns = s.sns
  | .cal => t.cal = s.cal
  | .mon => t.mon = s.mon
  | .rate => t.rate = s.rate
  | .lateOpens => t.lateOpens = s.lateOpens
  | .vsel => t.vsel = s.vsel

/-- The frame of an effect: `t` holds what `s` holds in every field of State but those listed. -/
def Only (l : List StateField) (s t : State) : Prop := ∀ f, f ∉ l → s.agree t f

/-- Command `c` completes on `s`: it answers a next state that satisfies `P` and changes no field of State outside `l`. -/
def Answers (c : Sys2Proof.Instr) (s : State) (l : List StateField) (P : State → Prop) : Prop :=
  ∃ t, exec c s = .next t ∧ P t ∧ Only l s t

/-- Every table of State that holds memory or records is in the one canonical form of its kind: the NVM, the monitor's SRAM, the units
in NAND, the instance records and those of the root and of one being written, the functions, and the registers. -/
structure State.Canon (s : State) : Prop where
  nvm : Bank.wf nvmDef s.nvm = true
  sram : Bank.wf wordDef s.mon.sram = true
  units : Bank.wf unitDef s.fss.units = true
  root : ∀ r, s.fss.root = some r → Bank.wf instDef r.inst = true
  nextRoot : ∀ w, s.fss.rootWait = some w → Bank.wf instDef w.snap.inst = true
  inst : Bank.wf instDef s.inst = true
  fn : Bank.wf fnDef s.fn = true
  regs : Bank.wf regReset s.regs = true

/-- Command `id` of a host is being served as operation `op`: the block serves commands, the command `c` was accepted under that number,
nothing holds its execution back and its entry names the operation (R147, R158). -/
structure State.Runs (s : State) (id : Nat) (op : Op) (c : Cmd) : Prop where
  serving : s.serving = true
  found : s.findCmd id = some c
  ready : c.ready = true
  op : eOp c.entry = some op

/-- The state that a command is served on: the setting set in force is that of the epoch the command was tagged with (R113). -/
def State.setFor (s : State) (c : Cmd) : State :=
  { s with liveSet := if c.epoch = s.epoch.cur then s.nextSet else s.prevSet }

/-- The state after a command was served: the block's own setting set is in force again. -/
def State.setBack (t s : State) : State := { t with liveSet := s.liveSet }

/-- The frame of each command: the fields of State that it may change; every other field stays as it is. No command changes
the queue of those that wait. -/
def mayChange : Sys2Proof.Instr → List StateField
  | .registerWrite _ _ _ => [.out, .regs, .nextSet, .prevSet, .epoch, .tm, .hlt, .log, .nvm, .nvs, .link, .sec, .inst, .fn, .cmds,
      .nextCmd, .due, .reads, .nextTag, .lastFn, .fss, .sea, .mch, .fetches, .arc, .drives, .clk, .pwb, .stl, .inp, .cal, .rate]
  | .latchedPairRead _ _ => [.out, .latches, .sec, .clk]
  | .configWrite _ _ _ => [.out, .regs, .log, .nvm, .nvs, .link, .sec, .fn, .reads, .nextTag, .lastFn, .fss, .mch]
  | .systemPageSizeWrite _ => [.out, .link, .sec]
  | .numvfsWrite _ => [.out, .link, .sec]
  | .vfEnableSet => [.out, .link, .sec, .fn]
  | .vfEnableClear => [.out, .link, .sec, .inst, .fn]
  | .busMasterEnableWrite _ _ => [.out, .link, .sec, .fn, .reads, .nextTag, .lastFn, .mch]
  | .completionTimeoutValueWrite _ _ => [.out, .sec, .fn]
  | .initiateFunctionLevelReset _ => [.out, .log, .nvm, .nvs, .link, .sec, .inst, .fn, .cmds, .due, .reads, .fss, .mch, .fetches,
      .rate]
  | .powerStateD3hot => [.out, .link, .sec]
  | .powerStateD0 => [.out, .log, .nvm, .nvs, .link, .sec, .fn, .reads, .nextTag, .lastFn, .fss, .mch, .clk]
  | .msixVectorUnmask _ _ => [.out, .regs, .log, .nvm, .nvs, .link, .sec, .fn, .reads, .nextTag, .lastFn, .fss, .mch]
  | .hostReadCompletion _ _ _ => [.out, .regs, .tm, .hlt, .log, .nvm, .nvs, .link, .sec, .inst, .fn, .cmds, .nextCmd, .oldOps, .due,
      .reads, .nextTag, .lastFn, .fss, .sea, .mch, .fetches, .drives, .clk, .pwb, .cal, .mon, .rate]
  | .hostReadErrorCompletion _ _ => [.out, .regs, .log, .nvm, .nvs, .link, .inst, .fn, .cmds, .due, .reads, .nextTag, .lastFn,
      .dbErr, .sqErr, .mch, .fetches, .rate]
  | .completionTimeout _ => [.out, .regs, .log, .nvm, .nvs, .link, .inst, .fn, .cmds, .due, .reads, .nextTag, .lastFn, .dbErr,
      .sqErr, .mch, .fetches, .rate]
  | .leafFetchRetry _ => [.out, .log, .nvm, .nvs, .link, .inst, .fn, .cmds, .due, .reads, .nextTag, .lastFn, .fss, .mch, .fetches,
      .rate]
  | .linkUp _ _ => [.out, .log, .nvm, .nvs, .link, .fn]
  | .dlDown => [.out, .regs, .nextSet, .liveSet, .prevSet, .latches, .epoch, .tm, .hlt, .log, .nvm, .nvs, .link, .sec, .inst, .fn,
      .cmds, .due, .reads, .fss, .mch, .fetches, .arc, .drives, .pwb, .cal, .rate]
  | .hotResetReceived => [.out, .regs, .nextSet, .liveSet, .prevSet, .latches, .epoch, .tm, .hlt, .log, .nvm, .nvs, .link, .sec,
      .inst, .fn, .cmds, .due, .reads, .fss, .mch, .fetches, .arc, .drives, .pwb, .cal, .rate]
  | .warmResetComplete => [.out, .regs, .latches, .hlt, .link, .sec, .fn]
  | .spdmRequest _ _ _ => [.out, .log, .nvm, .nvs, .sec, .fn, .clk]
  | .doeAbort => [.sec, .clk]
  | .query _ => [.out, .fn]
  | .keyProg _ _ _ _ _ => [.out, .sec, .fn]
  | .kSetGo _ _ _ _ => [.out, .log, .nvm, .nvs, .link, .sec, .fn, .reads, .nextTag, .lastFn, .fss, .mch]
  | .kSetStop _ _ _ => [.out, .sec, .fn]
  | .ideTlpReceived _ _ _ => [.tm, .hlt, .nvm, .nvs, .sec, .inst, .cmds, .oldOps, .due, .reads, .fss, .sea, .fetches, .drives, .pwb,
      .cal, .mon]
  | .ideTxCounterLimit _ => [.out, .log, .nvm, .nvs, .sec, .fn]
  | .hstCntClr _ => [.out, .log, .nvm, .nvs, .link, .fn]
  | .instanceStart _ => [.out, .log, .nvm, .nvs, .inst, .fn, .cmds, .due, .fss, .sea, .rate]
  | .instanceReset _ => [.out, .log, .nvm, .nvs, .inst, .fn, .cmds, .due, .rate]
  | .instanceRemove _ => [.out, .log, .nvm, .nvs, .inst, .fn, .cmds, .due, .fss, .mch, .fetches, .rate]
  | .setPolicy _ => [.out, .log, .nvm, .nvs, .inst, .fn, .cmds, .due, .fss, .rate]
  | .setQuota _ => [.out, .log, .nvm, .nvs, .inst, .fn, .cmds, .due, .fss, .rate]
  | .setPeriod _ => [.out, .log, .nvm, .nvs, .inst, .fn, .cmds, .due, .fss, .rate]
  | .resetDrainDone _ => [.out, .regs, .latches, .log, .nvm, .nvs, .link, .sec, .inst, .fn, .cmds, .oldOps, .due, .reads, .nextTag,
      .lastFn, .fss, .mch, .fetches, .arc, .rate]
  | .oldGenerationMediaEnded _ => [.out, .nvm, .nvs, .inst, .fn, .cmds, .oldOps, .fss]
  | .mbInPost _ _ => [.hlt, .fn]
  | .mailboxConsume _ => [.out, .log, .nvm, .nvs, .fn]
  | .mbOutAck _ _ => [.out, .fn]
  | .sharedPageWrite _ _ _ => [.out, .hlt, .inst, .fn]
  | .policyPageUsedUpdate => [.inst]
  | .epochCommit _ => [.out, .nextSet, .prevSet, .epoch, .log, .nvm, .nvs, .fn]
  | .subsystemAdopt _ _ => [.out, .liveSet, .epoch, .log, .nvm, .nvs, .fn, .drives]
  | .epochAdoptionTimeout => [.out, .epoch, .log, .nvm, .nvs, .fn]
  | .occupancyTick => [.inst]
  | .periodBoundary => [.out, .log, .nvm, .nvs, .inst, .fn]
  | .ringEnable _ _ _ _ => [.out, .regs, .log, .nvm, .nvs, .link, .fn, .reads, .nextTag, .lastFn, .mch]
  | .ringDisable _ _ _ _ => [.out, .regs, .log, .nvm, .nvs, .fn, .reads]
  | .dbEnWrite _ _ => [.out, .regs, .log, .nvm, .nvs, .link, .fn, .reads, .nextTag, .lastFn, .mch]
  | .doorbellFetch _ => [.out, .link, .fn, .reads, .nextTag, .lastFn, .mch]
  | .doorbellFetchComplete _ _ => [.out, .regs, .log, .nvm, .nvs, .link, .fn, .reads, .nextTag, .lastFn, .mch]
  | .wake _ => [.out, .link, .fn, .reads, .nextTag, .lastFn, .mch]
  | .commandAccept _ _ _ => [.out, .log, .nvm, .nvs, .link, .inst, .fn, .cmds, .nextCmd, .due, .reads, .nextTag, .lastFn, .mch,
      .clk, .rate]
  | .commandStart _ => [.out, .link, .fn, .cmds, .reads, .nextTag, .lastFn, .mch]
  | .write _ _ => [.out, .tm, .hlt, .log, .nvm, .nvs, .sec, .inst, .fn, .cmds, .oldOps, .due, .reads, .fss, .sea, .mch, .fetches,
      .drives, .pwb, .cal, .mon, .rate]
  | .read _ _ _ => [.out, .tm, .hlt, .log, .nvm, .nvs, .link, .sec, .inst, .fn, .cmds, .oldOps, .due, .reads, .nextTag, .lastFn,
      .fss, .sea, .mch, .fetches, .drives, .pwb, .cal, .mon, .rate]
  | .discard _ => [.out, .log, .nvm, .nvs, .inst, .fn, .cmds, .due, .fss, .mch, .fetches, .rate]
  | .flush _ => [.cmds]
  | .commitSegment _ => [.out, .log, .nvm, .nvs, .inst, .fn, .cmds, .due, .fss, .mch, .fetches, .rate]
  | .archiveRead _ => [.out, .free, .tm, .hlt, .log, .nvm, .nvs, .sec, .inst, .fn, .cmds, .oldOps, .due, .reads, .fss, .sea,
      .fetches, .arc, .drives, .pwb, .cal, .mon, .rate]
  | .verify _ => [.out, .free, .tm, .hlt, .log, .nvm, .nvs, .sec, .inst, .fn, .cmds, .oldOps, .due, .reads, .fss, .sea, .fetches,
      .arc, .drives, .pwb, .cal, .mon, .rate]
  | .identify _ => [.out, .log, .nvm, .nvs, .inst, .fn, .cmds, .due, .rate]
  | .getLog _ => [.out, .log, .nvm, .nvs, .inst, .fn, .cmds, .due, .rate]
  | .getUsage _ => [.out, .log, .nvm, .nvs, .inst, .fn, .cmds, .due, .rate]
  | .stripeLoad _ _ _ _ => [.out, .free, .tm, .hlt, .log, .nvm, .nvs, .sec, .inst, .fn, .cmds, .oldOps, .due, .reads, .fss, .sea,
      .mch, .fetches, .arc, .drives, .pwb, .cal, .mon, .rate]
  | .stripeFinalize _ _ => [.out, .log, .nvm, .nvs, .inst, .fn, .cmds, .due, .fss, .arc, .drives, .rate]
  | .stripeRebuild _ _ _ _ => [.out, .log, .nvm, .nvs, .inst, .fn, .cmds, .due, .fss, .arc, .drives, .rate]
  | .storeSettings _ => [.out, .log, .nvm, .nvs, .inst, .fn, .cmds, .due, .rate]
  | .storeSettingsCapture _ => [.out, .log, .nvm, .nvs, .inst, .fn, .cmds, .due, .rate]
  | .fwStage _ => [.out, .log, .nvm, .fw, .nvs, .inst, .fn, .cmds, .due, .rate]
  | .fwActivate _ => [.out, .log, .nvm, .nvs, .inst, .fn, .cmds, .due, .rate]
  | .completionWrite _ => [.out, .log, .nvm, .nvs, .link, .inst, .fn, .cmds, .due, .reads, .nextTag, .lastFn, .mch]
  | .coalescingTimeout _ _ => [.out, .fn]
  | .goTask _ _ => [.out, .hlt, .log, .nvm, .nvs, .link, .inst, .fn, .cmds, .nextCmd, .due, .reads, .nextTag, .lastFn, .mch, .clk,
      .rate]
  | .taskPortCompletion _ => [.out, .link, .inst, .fn, .cmds, .due, .reads, .nextTag, .lastFn, .mch]
  | .integrityHalt _ _ => [.tm, .hlt, .nvm, .nvs, .sec, .inst, .cmds, .oldOps, .due, .reads, .fss, .sea, .fetches, .drives, .pwb,
      .cal, .mon]
  | .haltRecordWritten => [.hlt, .nvm, .nvs]
  | .haltedStateRequest _ => [.out]
  | .selftestPeriod _ => [.tm, .hlt, .nvm, .nvs, .sec, .inst, .cmds, .oldOps, .due, .reads, .fss, .sea, .fetches, .drives, .pwb,
      .cal, .mon]
  | .drbgReseed => [.sea]
  | .entropyHealthFail => [.out, .log, .nvm, .nvs, .fn, .sea]
  | .jtagAccess _ _ _ => [.out, .latches, .log, .nvm, .nvs, .fn, .sea, .mon]
  | .quarClr _ => [.out, .log, .nvm, .nvs, .fn, .sea]
  | .nandPageProgramDone _ => [.out, .log, .nvm, .nvs, .link, .inst, .fn, .cmds, .due, .reads, .nextTag, .lastFn, .fss, .mch,
      .fetches, .rate]
  | .pageWaitTimeout _ => [.fss]
  | .nandProgramFail _ => [.out, .log, .nvm, .nvs, .inst, .fn, .cmds, .fss, .mch, .fetches]
  | .nandEraseDone _ _ _ => [.out, .log, .nvm, .nvs, .inst, .fn, .cmds, .fss, .mch, .fetches]
  | .nandReadDone _ _ => [.out, .tm, .hlt, .log, .nvm, .nvs, .sec, .inst, .fn, .cmds, .oldOps, .due, .reads, .fss, .sea, .mch,
      .fetches, .drives, .pwb, .cal, .mon, .rate]
  | .journalFlush => [.inst, .fss]
  | .journalFlushComplete => [.out, .tm, .hlt, .log, .nvm, .nvs, .link, .sec, .inst, .fn, .cmds, .oldOps, .due, .reads, .nextTag,
      .lastFn, .fss, .sea, .mch, .fetches, .drives, .pwb, .cal, .mon, .rate]
  | .rootCheckpoint => [.inst, .fss]
  | .garbageCollection => [.out, .tm, .hlt, .log, .nvm, .nvs, .sec, .inst, .fn, .cmds, .oldOps, .due, .reads, .fss, .sea, .mch,
      .fetches, .drives, .pwb, .cal, .mon]
  | .staticWearLevelling _ => [.out, .tm, .hlt, .log, .nvm, .nvs, .sec, .inst, .fn, .cmds, .oldOps, .due, .reads, .fss, .sea, .mch,
      .fetches, .drives, .pwb, .cal, .mon]
  | .refreshRead _ _ _ _ => [.out, .tm, .hlt, .log, .nvm, .nvs, .sec, .inst, .fn, .cmds, .oldOps, .due, .reads, .fss, .sea, .mch,
      .fetches, .drives, .pwb, .cal, .mon, .rate]
  | .dieBusyTimeout _ => [.out, .log, .nvm, .nvs, .inst, .fn, .cmds, .fss, .mch, .fetches]
  | .dieRebuildDone _ => [.out, .tm, .hlt, .log, .nvm, .nvs, .sec, .inst, .fn, .cmds, .oldOps, .due, .reads, .fss, .sea, .mch,
      .fetches, .drives, .pwb, .cal, .mon]
  | .writeSpaceWaitTimeout _ => [.out, .log, .nvm, .nvs, .inst, .fn, .cmds, .due, .rate]
  | .zqCalibration => [.out]
  | .hregEnable => [.out, .log, .nvm, .nvs, .fn, .fss]
  | .hregDisable => [.fss, .mch]
  | .hregDisableDone => [.out, .log, .nvm, .nvs, .inst, .fn, .cmds, .due, .fss, .mch, .fetches, .rate]
  | .pdPgoodFall => [.out, .log, .nvm, .nvs, .link, .inst, .fn, .reads, .nextTag, .lastFn, .fss, .mch, .arc, .drives, .clk, .pwb,
      .inp]
  | .pdPgoodRise => [.out, .log, .nvm, .nvs, .link, .inst, .fn, .reads, .nextTag, .lastFn, .fss, .mch, .arc, .drives, .clk, .pwb,
      .inp]
  | .mchEnableWrite _ => [.out, .regs, .log, .nvm, .nvs, .fn, .mch]
  | .clean _ => [.hlt, .mch]
  | .invalidate _ => [.hlt, .mch]
  | .cleanAndInvalidate _ => [.hlt, .mch]
  | .maintenanceOpDone _ => [.out, .log, .nvm, .nvs, .fn, .fss, .mch]
  | .parityWindowExpiry _ => [.mch]
  | .wayEn _ => [.mch]
  | .segmentAdmit => [.out, .log, .nvm, .nvs, .inst, .fn, .fss, .arc]
  | .archiveBlockFormat _ => [.out, .tm, .hlt, .log, .nvm, .nvs, .sec, .inst, .fn, .cmds, .oldOps, .due, .reads, .fss, .sea, .mch,
      .fetches, .arc, .drives, .pwb, .cal, .mon, .rate]
  | .fillerTimeout => [.arc]
  | .stripeRecordStart => [.out, .arc, .drives]
  | .slotVerifyResult _ _ => [.out, .log, .nvm, .nvs, .inst, .fn, .fss, .arc, .drives, .cal]
  | .archiveDone _ => [.out, .nvm, .nvs, .inst, .fn, .fss]
  | .pendingEntriesWrite _ => [.out, .log, .nvm, .nvs, .inst, .fn, .fss, .arc, .drives]
  | .degradedDriveTimeout _ => [.out, .log, .nvm, .nvs, .inst, .fn, .fss, .arc, .drives]
  | .zoneWobbleMeasure _ _ _ _ => [.drives]
  | .channelClockLockChange _ _ _ => [.out, .log, .nvm, .nvs, .inst, .fn, .fss, .arc, .drives]
  | .frameSync _ _ _ => [.drives]
  | .blockDecode _ => [.out, .tm, .hlt, .log, .nvm, .nvs, .sec, .inst, .fn, .cmds, .oldOps, .due, .reads, .fss, .sea, .fetches,
      .arc, .drives, .pwb, .cal, .mon, .rate]
  | .readRetry _ => [.drives]
  | .opcRun _ _ _ => [.out, .log, .nvm, .nvs, .inst, .fn, .fss, .arc, .drives, .pwb, .cal]
  | .opcGo _ => [.drives]
  | .servoSample _ _ _ _ => [.out, .free, .log, .nvm, .nvs, .inst, .fn, .fss, .arc, .drives]
  | .servoSampleDeadline _ _ => [.out, .log, .nvm, .nvs, .inst, .fn, .fss, .arc, .drives, .stl, .lateOpens]
  | .limitGroupSample _ _ _ => [.out, .drives]
  | .swap _ _ => [.drives]
  | .openAxis _ => [.out, .log, .nvm, .nvs, .inst, .fn, .fss, .arc, .drives]
  | .closeAxis _ => [.out, .log, .nvm, .nvs, .inst, .fn, .fss, .arc, .drives]
  | .acquire _ _ => [.out, .log, .nvm, .nvs, .inst, .fn, .fss, .arc, .drives]
  | .seek _ _ => [.out, .log, .nvm, .nvs, .inst, .fn, .fss, .arc, .drives, .pwb]
  | .layerJump _ _ => [.out, .log, .nvm, .nvs, .inst, .fn, .fss, .arc, .drives]
  | .releaseToHeron _ => [.drives]
  | .layerJumpTimeout _ => [.out, .log, .nvm, .nvs, .inst, .fn, .fss, .arc, .drives]
  | .seekConfirm _ _ => [.out, .log, .nvm, .nvs, .inst, .fn, .fss, .arc, .drives]
  | .driveStartSequence _ => [.out, .log, .nvm, .nvs, .inst, .fn, .fss, .arc, .drives, .pwb]
  | .rateMeterBin => [.rate]
  | .sourceFaultHoldExpiry _ => [.drives]
  | .spinStart _ => [.out, .log, .nvm, .nvs, .inst, .fn, .fss, .arc, .drives, .pwb]
  | .spinStop _ => [.out, .log, .nvm, .nvs, .inst, .fn, .fss, .arc, .drives, .pwb]
  | .coast _ => [.out, .log, .nvm, .nvs, .inst, .fn, .fss, .arc, .drives, .pwb]
  | .clearFault _ => [.out, .log, .nvm, .nvs, .inst, .fn, .fss, .arc, .drives, .pwb]
  | .rotorDetectDone _ _ => [.out, .log, .nvm, .nvs, .fn, .drives]
  | .alignmentDone _ => [.drives]
  | .forcedCommutation _ => [.drives]
  | .zeroCrossing _ _ _ _ => [.out, .log, .nvm, .nvs, .inst, .fn, .fss, .arc, .drives, .pwb]
  | .crossingWindowMiss _ => [.out, .log, .nvm, .nvs, .inst, .fn, .fss, .arc, .drives, .pwb]
  | .rotorReacquired _ _ _ => [.out, .log, .nvm, .nvs, .inst, .fn, .fss, .arc, .drives, .pwb]
  | .reacquisitionTimeout _ => [.out, .log, .nvm, .nvs, .inst, .fn, .fss, .arc, .drives, .pwb]
  | .lockedRotorTimeout _ => [.out, .log, .nvm, .nvs, .inst, .fn, .fss, .arc, .drives, .pwb]
  | .lockedRotorRetry _ => [.out, .log, .nvm, .nvs, .inst, .fn, .fss, .arc, .drives, .pwb]
  | .spindleOvercurrent _ => [.out, .log, .nvm, .nvs, .inst, .fn, .fss, .arc, .drives, .pwb]
  | .brakeProbe _ _ => [.out, .log, .nvm, .nvs, .inst, .fn, .fss, .arc, .drives, .pwb]
  | .brakeTimeout _ => [.out, .log, .nvm, .nvs, .inst, .fn, .fss, .arc, .drives, .pwb]
  | .spindleIdleTimeout _ => [.out, .log, .nvm, .nvs, .inst, .fn, .fss, .arc, .drives, .pwb]
  | .travel _ => [.out, .log, .nvm, .nvs, .inst, .fn, .fss, .arc, .drives]
  | .sledSeek _ => [.out, .log, .nvm, .nvs, .inst, .fn, .fss, .arc, .drives]
  | .home _ => [.out, .log, .nvm, .nvs, .inst, .fn, .fss, .arc, .drives]
  | .park _ => [.out, .log, .nvm, .nvs, .inst, .fn, .fss, .arc, .drives]
  | .sledStop _ => [.drives]
  | .sledRelease _ => [.out, .log, .nvm, .nvs, .fn, .drives]
  | .sledClear _ => [.drives]
  | .sledPlanTick _ => [.out, .log, .nvm, .nvs, .inst, .fn, .fss, .arc, .drives]
  | .sledTickLate _ => [.out, .log, .nvm, .nvs, .inst, .fn, .fss, .arc, .drives, .stl]
  | .sledArrivalReport _ => [.out, .log, .nvm, .nvs, .inst, .fn, .fss, .arc, .drives]
  | .sledRereference _ _ => [.out, .log, .nvm, .nvs, .inst, .fn, .fss, .arc, .drives]
  | .boostDecay _ => [.drives]
  | .sledOvercurrent _ _ => [.out, .log, .nvm, .nvs, .inst, .fn, .fss, .arc, .drives]
  | .openCoil _ _ => [.out, .log, .nvm, .nvs, .inst, .fn, .fss, .arc, .drives]
  | .calItemGo _ _ => [.drives, .cal]
  | .calStore => [.nvm, .nvs, .cal]
  | .calItemRun _ => [.out, .regs, .log, .nvm, .nvs, .inst, .fn, .fss, .arc, .drives, .pwb, .cal]
  | .calDeferTimeout => [.cal]
  | .calPeriodicStore => [.nvm, .nvs, .cal]
  | .converterCheckPeriod => [.cal]
  | .vcoreLow => [.out, .log, .nvm, .nvs, .inst, .fn, .fss, .arc, .drives, .stl]
  | .speedIndexMeasure _ _ => [.out, .log, .nvm, .nvs, .inst, .fn, .fss, .arc, .drives, .stl, .sns]
  | .fabricSlowAlarmClear => [.out, .log, .nvm, .nvs, .inst, .fn, .fss, .arc, .drives, .stl]
  | .tputWindow _ => [.stl]
  | .tputClr _ => [.stl]
  | .crystalQualified _ _ => [.out, .log, .nvm, .nvs, .fn, .clk]
  | .xt25Requalify _ => [.out, .log, .nvm, .nvs, .fn, .clk]
  | .clockSourceFault _ => [.out, .log, .nvm, .nvs, .fn, .clk]
  | .supervisorGate _ _ _ => [.out, .log, .nvm, .nvs, .fn, .clk]
  | .ref25Switchover => [.drives, .clk]
  | .sourceReturn => [.clk]
  | .selReq _ => [.clk]
  | .sleepModeEntry => [.drives, .clk]
  | .powerModeWake => [.clk]
  | .fmcGo _ => [.clk]
  | .fmcDone _ => [.clk]
  | .pseClassChange _ => [.out, .log, .nvm, .nvs, .link, .inst, .fn, .reads, .nextTag, .lastFn, .fss, .mch, .arc, .drives, .clk,
      .pwb, .inp]
  | .budgetSample _ => [.out, .log, .nvm, .nvs, .inst, .fn, .fss, .arc, .drives, .pwb]
  | .powerOnReset _ => [.out, .free, .regs, .nextSet, .liveSet, .prevSet, .latches, .epoch, .tm, .hlt, .boot, .log, .nvm, .fw, .nvs,
      .link, .sec, .inst, .fn, .cmds, .nextCmd, .oldOps, .due, .reads, .nextTag, .lastFn, .dbErr, .sqErr, .fss, .sea, .mch,
      .fetches, .arc, .drives, .clk, .pwb, .stl, .inp, .sns, .cal, .mon, .rate, .lateOpens, .vsel]
  | .brownOut _ => [.out, .free, .regs, .nextSet, .liveSet, .prevSet, .latches, .epoch, .tm, .hlt, .boot, .log, .nvm, .fw, .nvs,
      .link, .sec, .inst, .fn, .cmds, .nextCmd, .oldOps, .due, .reads, .nextTag, .lastFn, .dbErr, .sqErr, .fss, .sea, .mch,
      .fetches, .arc, .drives, .clk, .pwb, .stl, .inp, .sns, .cal, .mon, .rate, .lateOpens, .vsel]
  | .perstNAssert => [.out, .free, .regs, .nextSet, .liveSet, .prevSet, .latches, .epoch, .tm, .hlt, .boot, .log, .nvm, .fw, .nvs,
      .link, .sec, .inst, .fn, .cmds, .nextCmd, .oldOps, .due, .reads, .nextTag, .lastFn, .dbErr, .sqErr, .fss, .sea, .mch,
      .fetches, .arc, .drives, .clk, .pwb, .stl, .inp, .sns, .cal, .mon, .rate, .lateOpens, .vsel]
  | .perstNDeassert => [.out, .hlt, .boot, .log, .nvm, .nvs, .fn, .clk]
  | .startupSequence _ => [.out, .free, .regs, .nextSet, .liveSet, .prevSet, .epoch, .tm, .hlt, .boot, .log, .nvm, .fw, .nvs, .link,
      .sec, .inst, .fn, .cmds, .oldOps, .due, .reads, .fss, .sea, .mch, .fetches, .arc, .drives, .clk, .pwb, .cal, .mon, .rate]
  | .sweepComplete => [.boot, .sea]
  | .firstReadyState => [.out, .boot, .log, .nvm, .nvs, .inst, .fn, .fss, .arc, .drives]
  | .startupSetReload _ _ => [.out, .free, .tm, .hlt, .log, .nvm, .nvs, .sec, .inst, .fn, .cmds, .oldOps, .due, .reads, .fss, .sea,
      .mch, .fetches, .arc, .drives, .pwb, .cal, .mon, .rate]
  | .accClr => [.hlt]
  | .rstCntClear => [.nvm, .nvs]
  | .sensorSample _ => [.out, .regs, .log, .nvm, .nvs, .inst, .fn, .fss, .arc, .drives, .sns, .cal]
  | .hotClear => [.sns]
  | .thermWrite _ => [.out, .regs, .log, .nvm, .nvs, .fn]
  | .logFoldFlush => [.out, .log, .nvm, .nvs, .fn]
  | .logMirrorWrite => [.log, .inst, .fss]
  | .logNvmWrite => [.log, .nvm, .nvs]
  | .timSecLoRead => [.out, .latches, .sec]
  | .setClock => [.tm, .hlt]
  | .cancel => [.tm]
  | .clockCommit => [.out, .regs, .tm, .log, .nvm, .nvs, .inst, .fn, .drives, .cal]
  | .lastAliveWrite => [.nvm, .nvs]
  | .monoFloorWrite => [.nvm, .nvs]
  | .monI => [.out, .mon]
  | .monRd _ _ => [.out, .latches, .log, .nvm, .nvs, .fn, .sea, .mon]
  | .monWr _ _ _ => [.out, .free, .regs, .nextSet, .prevSet, .epoch, .tm, .hlt, .log, .nvm, .nvs, .inst, .fn, .fss, .sea, .mch,
      .arc, .drives, .clk, .pwb, .stl, .inp, .cal, .mon]
  | .baud _ => [.out, .mon]
  | .lock => [.out, .nvm, .nvs, .mon]
  | .unlock _ => [.out, .nvm, .nvs, .mon]
  | .monitorGo => [.out, .mon]
  | .monitorIdleTimeout => [.mon]
  | .inputQualified _ _ => [.out, .log, .nvm, .nvs, .link, .inst, .fn, .reads, .nextTag, .lastFn, .fss, .mch, .arc, .drives, .clk,
      .pwb, .inp]
  | .chatterClear _ => [.out, .log, .nvm, .nvs, .link, .inst, .fn, .reads, .nextTag, .lastFn, .fss, .mch, .arc, .drives, .clk, .pwb,
      .inp]
  | .inputStuck _ => [.out, .log, .nvm, .nvs, .link, .inst, .fn, .reads, .nextTag, .lastFn, .fss, .mch, .arc, .drives, .clk, .pwb,
      .inp]
  | .stuckClear _ => [.out, .log, .nvm, .nvs, .link, .inst, .fn, .reads, .nextTag, .lastFn, .fss, .mch, .arc, .drives, .clk, .pwb,
      .inp]
  | .analogueOutOfRange _ _ => [.out, .regs, .log, .nvm, .nvs, .inst, .fn, .fss, .arc, .drives, .inp, .cal]
  | .analogueReturn _ _ => [.out, .regs, .log, .nvm, .nvs, .inst, .fn, .fss, .arc, .drives, .inp, .cal]
  | .entropyHealthRecovery => [.out, .log, .nvm, .nvs, .fn, .sea]
  | .carrierPeriod _ _ _ _ => [.out, .log, .nvm, .nvs, .inst, .fn, .fss, .arc, .drives, .pwb]
  | .commutation _ => [.drives]
  | .sweepWatermark _ => [.sea]
  | .unknownCommand _ => [.out, .mon]

/-- The commands that still have an effect in the integrity halt: resets, the halted-state responder and the halt record, the level of
PERST_N, the link, the read latches, the clock sources and the JTAG port (R457, R475, R488, R489, R490). -/
def answersInHalt : Sys2Proof.Instr → Bool
  | .registerWrite _ _ _ => false
  | .latchedPairRead _ _ => true
  | .configWrite _ _ _ => false
  | .systemPageSizeWrite _ => false
  | .numvfsWrite _ => false
  | .vfEnableSet => false
  | .vfEnableClear => false
  | .busMasterEnableWrite _ _ => false
  | .completionTimeoutValueWrite _ _ => false
  | .initiateFunctionLevelReset _ => false
  | .powerStateD3hot => false
  | .powerStateD0 => false
  | .msixVectorUnmask _ _ => false
  | .hostReadCompletion _ _ _ => false
  | .hostReadErrorCompletion _ _ => false
  | .completionTimeout _ => false
  | .leafFetchRetry _ => false
  | .linkUp _ _ => true
  | .dlDown => false
  | .hotResetReceived => false
  | .warmResetComplete => false
  | .spdmRequest _ _ _ => false
  | .doeAbort => false
  | .query _ => false
  | .keyProg _ _ _ _ _ => false
  | .kSetGo _ _ _ _ => false
  | .kSetStop _ _ _ => false
  | .ideTlpReceived _ _ _ => false
  | .ideTxCounterLimit _ => false
  | .hstCntClr _ => false
  | .instanceStart _ => false
  | .instanceReset _ => false
  | .instanceRemove _ => false
  | .setPolicy _ => false
  | .setQuota _ => false
  | .setPeriod _ => false
  | .resetDrainDone _ => false
  | .oldGenerationMediaEnded _ => false
  | .mbInPost _ _ => false
  | .mailboxConsume _ => false
  | .mbOutAck _ _ => false
  | .sharedPageWrite _ _ _ => false
  | .policyPageUsedUpdate => false
  | .epochCommit _ => false
  | .subsystemAdopt _ _ => false
  | .epochAdoptionTimeout => false
  | .occupancyTick => false
  | .periodBoundary => false
  | .ringEnable _ _ _ _ => false
  | .ringDisable _ _ _ _ => false
  | .dbEnWrite _ _ => false
  | .doorbellFetch _ => false
  | .doorbellFetchComplete _ _ => false
  | .wake _ => false
  | .commandAccept _ _ _ => false
  | .commandStart _ => false
  | .write _ _ => false
  | .read _ _ _ => false
  | .discard _ => false
  | .flush _ => false
  | .commitSegment _ => false
  | .archiveRead _ => false
  | .verify _ => false
  | .identify _ => false
  | .getLog _ => false
  | .getUsage _ => false
  | .stripeLoad _ _ _ _ => false
  | .stripeFinalize _ _ => false
  | .stripeRebuild _ _ _ _ => false
  | .storeSettings _ => false
  | .storeSettingsCapture _ => false
  | .fwStage _ => false
  | .fwActivate _ => false
  | .completionWrite _ => false
  | .coalescingTimeout _ _ => false
  | .goTask _ _ => false
  | .taskPortCompletion _ => false
  | .integrityHalt _ _ => true
  | .haltRecordWritten => true
  | .haltedStateRequest _ => true
  | .selftestPeriod _ => false
  | .drbgReseed => false
  | .entropyHealthFail => false
  | .jtagAccess _ _ _ => true
  | .quarClr _ => false
  | .nandPageProgramDone _ => false
  | .pageWaitTimeout _ => false
  | .nandProgramFail _ => false
  | .nandEraseDone _ _ _ => false
  | .nandReadDone _ _ => false
  | .journalFlush => false
  | .journalFlushComplete => false
  | .rootCheckpoint => false
  | .garbageCollection => false
  | .staticWearLevelling _ => false
  | .refreshRead _ _ _ _ => false
  | .dieBusyTimeout _ => false
  | .dieRebuildDone _ => false
  | .writeSpaceWaitTimeout _ => false
  | .zqCalibration => false
  | .hregEnable => false
  | .hregDisable => false
  | .hregDisableDone => false
  | .pdPgoodFall => false
  | .pdPgoodRise => false
  | .mchEnableWrite _ => false
  | .clean _ => false
  | .invalidate _ => false
  | .cleanAndInvalidate _ => false
  | .maintenanceOpDone _ => false
  | .parityWindowExpiry _ => false
  | .wayEn _ => false
  | .segmentAdmit => false
  | .archiveBlockFormat _ => false
  | .fillerTimeout => false
  | .stripeRecordStart => false
  | .slotVerifyResult _ _ => false
  | .archiveDone _ => false
  | .pendingEntriesWrite _ => false
  | .degradedDriveTimeout _ => false
  | .zoneWobbleMeasure _ _ _ _ => false
  | .channelClockLockChange _ _ _ => false
  | .frameSync _ _ _ => false
  | .blockDecode _ => false
  | .readRetry _ => false
  | .opcRun _ _ _ => false
  | .opcGo _ => false
  | .servoSample _ _ _ _ => false
  | .servoSampleDeadline _ _ => false
  | .limitGroupSample _ _ _ => false
  | .swap _ _ => false
  | .openAxis _ => false
  | .closeAxis _ => false
  | .acquire _ _ => false
  | .seek _ _ => false
  | .layerJump _ _ => false
  | .releaseToHeron _ => false
  | .layerJumpTimeout _ => false
  | .seekConfirm _ _ => false
  | .driveStartSequence _ => false
  | .rateMeterBin => false
  | .sourceFaultHoldExpiry _ => false
  | .spinStart _ => false
  | .spinStop _ => false
  | .coast _ => false
  | .clearFault _ => false
  | .rotorDetectDone _ _ => false
  | .alignmentDone _ => false
  | .forcedCommutation _ => false
  | .zeroCrossing _ _ _ _ => false
  | .crossingWindowMiss _ => false
  | .rotorReacquired _ _ _ => false
  | .reacquisitionTimeout _ => false
  | .lockedRotorTimeout _ => false
  | .lockedRotorRetry _ => false
  | .spindleOvercurrent _ => false
  | .brakeProbe _ _ => false
  | .brakeTimeout _ => false
  | .spindleIdleTimeout _ => false
  | .travel _ => false
  | .sledSeek _ => false
  | .home _ => false
  | .park _ => false
  | .sledStop _ => false
  | .sledRelease _ => false
  | .sledClear _ => false
  | .sledPlanTick _ => false
  | .sledTickLate _ => false
  | .sledArrivalReport _ => false
  | .sledRereference _ _ => false
  | .boostDecay _ => false
  | .sledOvercurrent _ _ => false
  | .openCoil _ _ => false
  | .calItemGo _ _ => false
  | .calStore => false
  | .calItemRun _ => false
  | .calDeferTimeout => false
  | .calPeriodicStore => false
  | .converterCheckPeriod => false
  | .vcoreLow => false
  | .speedIndexMeasure _ _ => false
  | .fabricSlowAlarmClear => false
  | .tputWindow _ => false
  | .tputClr _ => false
  | .crystalQualified _ _ => true
  | .xt25Requalify _ => true
  | .clockSourceFault _ => true
  | .supervisorGate _ _ _ => true
  | .ref25Switchover => true
  | .sourceReturn => true
  | .selReq _ => false
  | .sleepModeEntry => false
  | .powerModeWake => false
  | .fmcGo _ => false
  | .fmcDone _ => false
  | .pseClassChange _ => false
  | .budgetSample _ => false
  | .powerOnReset _ => true
  | .brownOut _ => true
  | .perstNAssert => true
  | .perstNDeassert => true
  | .startupSequence _ => false
  | .sweepComplete => false
  | .firstReadyState => false
  | .startupSetReload _ _ => false
  | .accClr => false
  | .rstCntClear => false
  | .sensorSample _ => false
  | .hotClear => false
  | .thermWrite _ => false
  | .logFoldFlush => false
  | .logMirrorWrite => false
  | .logNvmWrite => false
  | .timSecLoRead => false
  | .setClock => false
  | .cancel => false
  | .clockCommit => false
  | .lastAliveWrite => false
  | .monoFloorWrite => false
  | .monI => false
  | .monRd _ _ => false
  | .monWr _ _ _ => false
  | .baud _ => false
  | .lock => false
  | .unlock _ => false
  | .monitorGo => false
  | .monitorIdleTimeout => false
  | .inputQualified _ _ => false
  | .chatterClear _ => false
  | .inputStuck _ => false
  | .stuckClear _ => false
  | .analogueOutOfRange _ _ => false
  | .analogueReturn _ _ => false
  | .entropyHealthRecovery => false
  | .carrierPeriod _ _ _ _ => false
  | .commutation _ => false
  | .sweepWatermark _ => false
  | .unknownCommand _ => false

/-- The commands that begin a power-on reset or a PERST_N reset (R475, R476, R477). -/
def beginsReset : Sys2Proof.Instr → Bool
  | .registerWrite _ _ _ => false
  | .latchedPairRead _ _ => false
  | .configWrite _ _ _ => false
  | .systemPageSizeWrite _ => false
  | .numvfsWrite _ => false
  | .vfEnableSet => false
  | .vfEnableClear => false
  | .busMasterEnableWrite _ _ => false
  | .completionTimeoutValueWrite _ _ => false
  | .initiateFunctionLevelReset _ => false
  | .powerStateD3hot => false
  | .powerStateD0 => false
  | .msixVectorUnmask _ _ => false
  | .hostReadCompletion _ _ _ => false
  | .hostReadErrorCompletion _ _ => false
  | .completionTimeout _ => false
  | .leafFetchRetry _ => false
  | .linkUp _ _ => false
  | .dlDown => false
  | .hotResetReceived => false
  | .warmResetComplete => false
  | .spdmRequest _ _ _ => false
  | .doeAbort => false
  | .query _ => false
  | .keyProg _ _ _ _ _ => false
  | .kSetGo _ _ _ _ => false
  | .kSetStop _ _ _ => false
  | .ideTlpReceived _ _ _ => false
  | .ideTxCounterLimit _ => false
  | .hstCntClr _ => false
  | .instanceStart _ => false
  | .instanceReset _ => false
  | .instanceRemove _ => false
  | .setPolicy _ => false
  | .setQuota _ => false
  | .setPeriod _ => false
  | .resetDrainDone _ => false
  | .oldGenerationMediaEnded _ => false
  | .mbInPost _ _ => false
  | .mailboxConsume _ => false
  | .mbOutAck _ _ => false
  | .sharedPageWrite _ _ _ => false
  | .policyPageUsedUpdate => false
  | .epochCommit _ => false
  | .subsystemAdopt _ _ => false
  | .epochAdoptionTimeout => false
  | .occupancyTick => false
  | .periodBoundary => false
  | .ringEnable _ _ _ _ => false
  | .ringDisable _ _ _ _ => false
  | .dbEnWrite _ _ => false
  | .doorbellFetch _ => false
  | .doorbellFetchComplete _ _ => false
  | .wake _ => false
  | .commandAccept _ _ _ => false
  | .commandStart _ => false
  | .write _ _ => false
  | .read _ _ _ => false
  | .discard _ => false
  | .flush _ => false
  | .commitSegment _ => false
  | .archiveRead _ => false
  | .verify _ => false
  | .identify _ => false
  | .getLog _ => false
  | .getUsage _ => false
  | .stripeLoad _ _ _ _ => false
  | .stripeFinalize _ _ => false
  | .stripeRebuild _ _ _ _ => false
  | .storeSettings _ => false
  | .storeSettingsCapture _ => false
  | .fwStage _ => false
  | .fwActivate _ => false
  | .completionWrite _ => false
  | .coalescingTimeout _ _ => false
  | .goTask _ _ => false
  | .taskPortCompletion _ => false
  | .integrityHalt _ _ => false
  | .haltRecordWritten => false
  | .haltedStateRequest _ => false
  | .selftestPeriod _ => false
  | .drbgReseed => false
  | .entropyHealthFail => false
  | .jtagAccess _ _ _ => false
  | .quarClr _ => false
  | .nandPageProgramDone _ => false
  | .pageWaitTimeout _ => false
  | .nandProgramFail _ => false
  | .nandEraseDone _ _ _ => false
  | .nandReadDone _ _ => false
  | .journalFlush => false
  | .journalFlushComplete => false
  | .rootCheckpoint => false
  | .garbageCollection => false
  | .staticWearLevelling _ => false
  | .refreshRead _ _ _ _ => false
  | .dieBusyTimeout _ => false
  | .dieRebuildDone _ => false
  | .writeSpaceWaitTimeout _ => false
  | .zqCalibration => false
  | .hregEnable => false
  | .hregDisable => false
  | .hregDisableDone => false
  | .pdPgoodFall => false
  | .pdPgoodRise => false
  | .mchEnableWrite _ => false
  | .clean _ => false
  | .invalidate _ => false
  | .cleanAndInvalidate _ => false
  | .maintenanceOpDone _ => false
  | .parityWindowExpiry _ => false
  | .wayEn _ => false
  | .segmentAdmit => false
  | .archiveBlockFormat _ => false
  | .fillerTimeout => false
  | .stripeRecordStart => false
  | .slotVerifyResult _ _ => false
  | .archiveDone _ => false
  | .pendingEntriesWrite _ => false
  | .degradedDriveTimeout _ => false
  | .zoneWobbleMeasure _ _ _ _ => false
  | .channelClockLockChange _ _ _ => false
  | .frameSync _ _ _ => false
  | .blockDecode _ => false
  | .readRetry _ => false
  | .opcRun _ _ _ => false
  | .opcGo _ => false
  | .servoSample _ _ _ _ => false
  | .servoSampleDeadline _ _ => false
  | .limitGroupSample _ _ _ => false
  | .swap _ _ => false
  | .openAxis _ => false
  | .closeAxis _ => false
  | .acquire _ _ => false
  | .seek _ _ => false
  | .layerJump _ _ => false
  | .releaseToHeron _ => false
  | .layerJumpTimeout _ => false
  | .seekConfirm _ _ => false
  | .driveStartSequence _ => false
  | .rateMeterBin => false
  | .sourceFaultHoldExpiry _ => false
  | .spinStart _ => false
  | .spinStop _ => false
  | .coast _ => false
  | .clearFault _ => false
  | .rotorDetectDone _ _ => false
  | .alignmentDone _ => false
  | .forcedCommutation _ => false
  | .zeroCrossing _ _ _ _ => false
  | .crossingWindowMiss _ => false
  | .rotorReacquired _ _ _ => false
  | .reacquisitionTimeout _ => false
  | .lockedRotorTimeout _ => false
  | .lockedRotorRetry _ => false
  | .spindleOvercurrent _ => false
  | .brakeProbe _ _ => false
  | .brakeTimeout _ => false
  | .spindleIdleTimeout _ => false
  | .travel _ => false
  | .sledSeek _ => false
  | .home _ => false
  | .park _ => false
  | .sledStop _ => false
  | .sledRelease _ => false
  | .sledClear _ => false
  | .sledPlanTick _ => false
  | .sledTickLate _ => false
  | .sledArrivalReport _ => false
  | .sledRereference _ _ => false
  | .boostDecay _ => false
  | .sledOvercurrent _ _ => false
  | .openCoil _ _ => false
  | .calItemGo _ _ => false
  | .calStore => false
  | .calItemRun _ => false
  | .calDeferTimeout => false
  | .calPeriodicStore => false
  | .converterCheckPeriod => false
  | .vcoreLow => false
  | .speedIndexMeasure _ _ => false
  | .fabricSlowAlarmClear => false
  | .tputWindow _ => false
  | .tputClr _ => false
  | .crystalQualified _ _ => false
  | .xt25Requalify _ => false
  | .clockSourceFault _ => false
  | .supervisorGate _ _ _ => false
  | .ref25Switchover => false
  | .sourceReturn => false
  | .selReq _ => false
  | .sleepModeEntry => false
  | .powerModeWake => false
  | .fmcGo _ => false
  | .fmcDone _ => false
  | .pseClassChange _ => false
  | .budgetSample _ => false
  | .powerOnReset _ => true
  | .brownOut _ => true
  | .perstNAssert => true
  | .perstNDeassert => false
  | .startupSequence _ => false
  | .sweepComplete => false
  | .firstReadyState => false
  | .startupSetReload _ _ => false
  | .accClr => false
  | .rstCntClear => false
  | .sensorSample _ => false
  | .hotClear => false
  | .thermWrite _ => false
  | .logFoldFlush => false
  | .logMirrorWrite => false
  | .logNvmWrite => false
  | .timSecLoRead => false
  | .setClock => false
  | .cancel => false
  | .clockCommit => false
  | .lastAliveWrite => false
  | .monoFloorWrite => false
  | .monI => false
  | .monRd _ _ => false
  | .monWr _ _ _ => false
  | .baud _ => false
  | .lock => false
  | .unlock _ => false
  | .monitorGo => false
  | .monitorIdleTimeout => false
  | .inputQualified _ _ => false
  | .chatterClear _ => false
  | .inputStuck _ => false
  | .stuckClear _ => false
  | .analogueOutOfRange _ _ => false
  | .analogueReturn _ _ => false
  | .entropyHealthRecovery => false
  | .carrierPeriod _ _ _ _ => false
  | .commutation _ => false
  | .sweepWatermark _ => false
  | .unknownCommand _ => false

end Sys2Proof.Machine
end

