-- ==== Sys2Proof/Certificates/Slice0/Obligations.lean ====
section
/-! DEFINITION. The statements for the provers: what each family of commands does, what it leaves alone, and what holds of every step. -/

open Sys2Proof Sys2Proof.Machine

/-- A step executes the command at the front of the queue. A step takes the command at the front of the queue and executes it with
the rest of the queue waiting. With no command waiting, one tick of 1/32,768 s passes: the model runs time in place of idling (log
entry 1, the model's choice). Its clauses that rest on a choice or deduction of the model do so by log entries 1 and 57. Rests on
INDEX.md. -/
def Obligations.StepTakesTheFront : Prop :=
  (∀ (c : Instr) (r : List Instr) (s : State), s.pending = c :: r → step s = exec c { s with pending := r }) ∧
  (∀ s : State, s.pending = [] → step s = .next (tick s))

/-- Every command stays inside its frame. No command changes a field of State outside its list in mayChange; none changes the queue
of waiting commands. A tick changes time, and what time alone moves: registers and drives never but by the first clock setting of a
power-on. Its clauses that rest on a choice or deduction of the model do so by log entry 1. Rests on
03_instances_manager_and_metering.md, 15_start_reset_and_halt.md. -/
def Obligations.FramesHold : Prop :=
  (∀ (c : Instr) (s t : State), exec c s = .next t → Only (mayChange c) s t ∧ t.pending = s.pending) ∧
  (∀ s t : State, s.pending = [] → step s = .next t →
    Only [.out, .free, .regs, .tm, .log, .nvm, .nvs, .inst, .fn, .drives, .clk, .cal] s t)

/-- Every step keeps every table of State in its one canonical form. If the NVM, the SRAM, the units in NAND, the instance records,
those of the root page and of a root page still waiting to be programmed, the functions and the registers are in canonical form,
rising keys and no entry equal to what an unlisted key reads, they are after any step, so that equal contents are equal data. Its
clauses that rest on a choice or deduction of the model do so by log entry 1. Rests on 16_heron_time_settings_log.md R506,
06_flash_staging_store.md R213, 17_curlew_monitor.md R534. -/
def Obligations.CanonKept : Prop :=
  ∀ s t : State, s.Canon → step s = .next t → t.Canon

/-- The tables are in canonical form at reset. The state at the release of power-on reset has every table in its canonical form.
Rests on 16_heron_time_settings_log.md R506, 06_flash_staging_store.md R213, 17_curlew_monitor.md R534. -/
def Obligations.CanonAtReset : Prop := State.reset.Canon

/-- The integrity halt is left only by a power-on reset or a PERST_N reset. In the integrity halt, with power-on reset released, a
command that is not among the ones of R489 changes nothing at all, and no step but one that begins a reset ends the halt. Its
clauses that rest on a choice or deduction of the model do so by log entry 3. Rests on 15_start_reset_and_halt.md R475,
15_start_reset_and_halt.md R487, 15_start_reset_and_halt.md R489. -/
def Obligations.HaltLeftOnlyByReset : Prop :=
  (∀ (c : Instr) (s : State), s.hlt.halt.isSome = true → s.hlt.porHeld = false → answersInHalt c = false → exec c s = .next s) ∧
  (∀ (s t : State), s.hlt.halt.isSome = true → s.hlt.porHeld = false → (∀ c r, s.pending = c :: r → beginsReset c = false) →
    step s = .next t → t.hlt.halt.isSome = true ∧ t.hlt.porHeld = false) ∧
  (∀ (c : Instr) (s : State), beginsReset c = true → s.hlt.porHeld = false → ∃ t, exec c s = .next t ∧ t.hlt.halt = none)

/-- What a power-on reset leaves. Every register of the map reads its reset value; nothing has started, no halt is in force, the
link is down, no command is in flight, every ring and message slot is empty, every instance is IDLE, no drive moves and the clock is
not valid. The values of fields that only NVM gives are 0 by the choice of log entry 9. Its clauses that rest on a choice or
deduction of the model do so by log entries 9, 10, 66 and 67. Rests on 20_register_index.md R582, 15_start_reset_and_halt.md R476,
04_rings_doorbells_task_port.md R163, 03_instances_manager_and_metering.md R81. -/
def Obligations.ResetValues : Prop :=
  (∀ (k : Nat) (r : RegDesc), regDesc k = some r → State.reset.reg k = BitVec.ofNat 32 r.reset) ∧
  State.reset.boot.step = 0 ∧ State.reset.boot.ready = false ∧ State.reset.hlt.halt = none ∧ State.reset.hlt.por = true ∧
  State.reset.hlt.porHeld = false ∧ State.reset.link.up = false ∧ State.reset.tm.valid = false ∧ State.reset.cmds = [] ∧
  State.reset.due = [] ∧ State.reset.reads = [] ∧ State.reset.pending = [] ∧ State.reset.sec.sessions = [] ∧ State.reset.sea.kwk = none ∧
  State.reset.fss.ready = false ∧ State.reset.mon.active = false ∧
  (∀ i, (State.reset.getInst i).state = .idle ∧ (State.reset.getInst i).keyLive = false) ∧
  (∀ f, (State.reset.getFn f).outSlots = []) ∧
  (∀ d : Fin 4, (State.reset.drive d.val).spin.st = .stopped ∧ (State.reset.drive d.val).sled.st = .off ∧
    (State.reset.drive d.val).wst.gate = false ∧ ∀ r : Fin 4, ((State.reset.drive d.val).axis r.val).st = .off)

/-- Occupancy, billing boundaries and the used fields. While the block serves commands, OCCUPANCY_TICK adds the usage of every
counting instance to the occupancy of its open period and changes no other instance; PERIOD_BOUNDARY closes, at the earliest
boundary that wall time has reached, the open period of exactly the instances due there, and without one changes nothing;
POLICY_PAGE_USED_UPDATE makes every shown used field the present usage. Nothing outside the named fields of State changes. Its
clauses that rest on a choice or deduction of the model do so by log entries 3 and 65. Rests on 03_instances_manager_and_metering.md
R102, 03_instances_manager_and_metering.md R116, 03_instances_manager_and_metering.md R119. -/
def Obligations.MeteringTicks : Prop :=
  (∀ s : State, s.Canon → s.serving = true → Answers .occupancyTick s [.inst] (fun t => ∀ i, t.getInst i =
      if (s.getInst i).counting then
        { s.getInst i with opened := (s.getInst i).opened.map (fun p => { p with meter :=
            { p.meter with occupancy := p.meter.occupancy + (s.getInst i).used } }) }
      else s.getInst i)) ∧
  (∀ (s : State) (b : Nat), s.Canon → s.serving = true → s.firstDue = some b →
    Answers .periodBoundary s [.out, .log, .nvm, .nvs, .inst, .fn] (fun t =>
      (∀ i p, s.dueBoundary i = some b → (s.getInst i).opened = some p → t.getInst i = (s.getInst i).closeBoundary s.tm p) ∧
      (∀ i, s.dueBoundary i ≠ some b → t.getInst i = s.getInst i))) ∧
  (∀ s : State, s.serving = true → s.firstDue = none → exec .periodBoundary s = .next s) ∧
  (∀ s : State, s.Canon → s.serving = true → Answers .policyPageUsedUpdate s [.inst] (fun t =>
      ∀ i, t.getInst i = { s.getInst i with shownUsed := (s.getInst i).used }))

/-- Entering the integrity halt, its record and its responder. With power-on reset released and no halt in force, INTEGRITY_HALT
records the cause of the lowest code among those given, with its detail, instance and time, drops every unwrapped key, leaves
Secure, stops every engine and closes every laser gate; in a halt it only counts the failures given, also in a record already
written. HALT_RECORD_WRITTEN puts the 48-byte record after the newest valid one, changes no other byte of NVM and sets nvm_ok once.
HALTED_STATE_REQUEST answers each kind of request as Table 15-7 gives. Its clauses that rest on a choice or deduction of the model
do so by log entry 3. Rests on 15_start_reset_and_halt.md R487, 15_start_reset_and_halt.md R489, 15_start_reset_and_halt.md R490,
15_start_reset_and_halt.md R492, 02_host_link_and_functions.md R77. -/
def Obligations.HaltEntry : Prop :=
  (∀ (c : HaltCause) (more : List HaltCause) (s : State), s.Canon → s.hlt.porHeld = false → s.hlt.halt = none →
    Answers (.integrityHalt c more) s [.tm, .hlt, .nvm, .nvs, .sec, .inst, .cmds, .oldOps, .due, .reads, .fss, .sea, .fetches, .drives, .pwb, .cal, .mon] (fun t =>
      (∃ h, t.hlt.halt = some h ∧ h.cause = causeCode (lowestCause c more) ∧ h.detail = causeDetail (lowestCause c more) ∧
        h.inst = causeInst (lowestCause c more) ∧ h.micros = s.tm.micros ∧ h.wall = (if s.tm.valid then s.tm.wall else 0) ∧
        h.further = 0 ∧ h.nvmOk = false) ∧
      (∀ i, (t.getInst i).keyLive = false) ∧ t.sea.kwk = none ∧ t.sea.kd = none ∧ t.sec.secure = false ∧
      t.cmds = [] ∧ t.due = [] ∧ t.reads = [] ∧ t.fetches = [] ∧ t.oldOps = [] ∧
      (∀ r ∈ t.drives, r.wst.gate = false ∧ r.wst.lden = false ∧ r.wst.burst = none))) ∧
  (∀ (c : HaltCause) (more : List HaltCause) (s : State) (h g : HaltInfo), s.Canon → s.hlt.porHeld = false → s.hlt.halt = some h →
    g = { h with further := satU 16 (h.further + (1 + more.length)) } →
    Answers (.integrityHalt c more) s [.hlt, .nvm, .nvs] (fun t =>
      t.hlt = { s.hlt with halt := some g } ∧ (h.nvmOk = false → t.nvm = s.nvm) ∧
      (h.nvmOk = true → t.haltRec h.place = haltImage g h.hseq ∧ ∀ a, a < haltRingAddr + 48 * h.place ∨
        haltRingAddr + 48 * h.place + 48 ≤ a → Bank.get nvmDef t.nvm a = Bank.get nvmDef s.nvm a))) ∧
  (∀ (s : State) (h : HaltInfo), s.Canon → s.hlt.halt = some h → h.nvmOk = false →
    Answers .haltRecordWritten s [.hlt, .nvm, .nvs] (fun t =>
      ∃ k q, t.hlt = { s.hlt with halt := some { h with nvmOk := true, place := k, hseq := q } } ∧ (s.haltOrder = [] → k = 0 ∧ q = 1) ∧
        (∀ j r, s.haltOrder = j :: r → k = (j + 1) % 16 ∧ q = recSeq (s.haltRec j) + 1) ∧
        t.haltRec k = haltImage h q ∧
        ∀ a, a < haltRingAddr + 48 * k ∨ haltRingAddr + 48 * k + 48 ≤ a → Bank.get nvmDef t.nvm a = Bank.get nvmDef s.nvm a)) ∧
  (∀ (s : State) (h : HaltInfo), s.hlt.halt = some h → h.nvmOk = true → exec .haltRecordWritten s = .next s) ∧
  (∀ s : State, s.running = false →
    (∀ f n, exec (.haltedStateRequest (.memRead f n)) s = .next (s.emit (.cplValue f (2 ^ (8 * n) - 1)))) ∧
    (∀ f, exec (.haltedStateRequest (.memWrite f)) s = .next s) ∧
    (∀ f off, exec (.haltedStateRequest (.cfgRead f off)) s =
      .next (s.emit (.cplValue f (if f = 0 then (s.cfgRead 0 (off / 4 * 4)).toNat else 2 ^ 32 - 1)))) ∧
    (∀ f off, exec (.haltedStateRequest (.cfgWrite f off)) s = .next (s.emit (.cplValue f 0))) ∧
    exec (.haltedStateRequest .message) s = .next s ∧
    exec (.haltedStateRequest .nonPosted) s = .next (s.emit (.cplUr 0)))

/-- Enabling the map cache, restoring ways and maintenance. Through an open PF BAR2: an enable of the map cache before an invalidate
of the whole cache stores the word with en at 0 and sets en_refused; any other MCH.CTL write stores the word and sets no event.
WAY_EN puts every disabled way that is named back in service with no valid line, and leaves the other ways disabled as they were.
PARITY_WINDOW_EXPIRY closes the window of a way that is not being taken out once its length has passed, not before. Through an open
PF BAR2, CLEAN, INVALIDATE and CLEAN_AND_INVALIDATE begin an operation where none is busy and the operands allow it, are refused for
a line count outside 1 to 65,536 in mode 0, and are an access error while one is busy. MAINTENANCE_OP_DONE ends an operation that
may end: it is no longer busy, done is set, and inv_ok is set when the whole cache was invalidated. Its clauses that rest on a
choice or deduction of the model do so by log entries 3 and 59. Rests on 07_map_cache.md R258, 07_map_cache.md R259, 07_map_cache.md
R269, 07_map_cache.md R270, 07_map_cache.md R261, 07_map_cache.md R262, 07_map_cache.md R265. -/
def Obligations.MapCacheControlAndMaintenance : Prop :=
  ((∀ (v : Word) (s : State), s.barOpen 0 = true → fld v 0 1 = 1 → s.mchEn = false → s.mch.invOk = false →
     exec (.mchEnableWrite v) s = .next ((s.storeReg Reg.MCH_CTL (setFld v 0 1 0)).setMchEvt 3)) ∧
   (∀ (v : Word) (s : State), s.barOpen 0 = true → (fld v 0 1 = 0 ∨ s.mchEn = true ∨ s.mch.invOk = true) →
     exec (.mchEnableWrite v) s = .next (s.storeReg Reg.MCH_CTL v)) ∧
   (∀ (v : Word) (s : State), s.barOpen 0 = true → Answers (.wayEn v) s [.mch] (fun t => ∀ w, w < 8 →
       (bitN t.mch.off w = (bitN s.mch.off w && !bitN v.toNat w)) ∧
       (bitN v.toNat w = true → bitN s.mch.off w = true → ∀ e ∈ t.mch.lines, e.1 % 8 ≠ w))) ∧
   (∀ (way : Fin 8) (s : State), s.running = true → Answers (.parityWindowExpiry way) s [.mch] (fun t =>
       ∃ g : WayCount → WayCount, t.mch = { s.mch with ways := modNth g s.mch.ways way.val } ∧ ∀ c, g c =
         if c.inWindow ≠ 0 ∧ c.closing = false ∧ c.opened + Cf.MCH_PAR_window s * 1000 ≤ s.tm.mono then { c with inWindow := 0, opened := 0 } else c))) ∧
  ((∀ (c : Fin 2 → Instr) (op : Nat), (c, op) ∈ [(Instr.clean, 1), (Instr.invalidate, 2), (Instr.cleanAndInvalidate, 3)] →
     ∀ (mode : Fin 2) (s : State), s.barOpen 0 = true →
     (s.mch.op = none → (mode.val ≠ 0 ∨ (Cf.MCH_OP_CNT_lines s ≠ 0 ∧ Cf.MCH_OP_CNT_lines s ≤ 65536)) →
       exec (c mode) s = .next { s with mch := { s.mch with op := some (op, mode.val), written := 0, done := false } }) ∧
     (s.mch.op = none → mode.val = 0 → (Cf.MCH_OP_CNT_lines s = 0 ∨ 65536 < Cf.MCH_OP_CNT_lines s) →
       exec (c mode) s = .next { s with mch := { s.mch with refused := true } }) ∧
     (s.mch.op.isSome = true → exec (c mode) s = .next (s.accError 0 1 0x05001C))) ∧
   (∀ (bad : List Nat) (s : State) (op mode : Nat), s.running = true → s.mch.op = some (op, mode) → s.opMayEnd op = true →
     Answers (.maintenanceOpDone bad) s [.out, .log, .nvm, .nvs, .fn, .fss, .mch] (fun t =>
       t.mch.op = none ∧ t.mch.done = true ∧
       (mode = 1 → 2 ≤ op → bitN (s.reg Reg.MCH_OP_SW).toNat 24 = true → t.mch.invOk = true))) ∧
   (∀ (bad : List Nat) (s : State), s.mch.op = none → exec (.maintenanceOpDone bad) s = .next s))

/-- Enabling and taking back the host-held region. Through an open PF BAR2, HREG_ENABLE enables the region where its size is in
range and no disable is busy, is refused with err otherwise, and changes nothing where the region is enabled. HREG_DISABLE of an
enabled region makes it busy and ends a maintenance operation in progress as aborted. HREG_DISABLE_DONE, with every fetch of a leaf
line ended, clears busy and en, empties the map cache, and marks every leaf of the region NAND only. Its clauses that rest on a
choice or deduction of the model do so by log entry 3. Rests on 06_flash_staging_store.md R220, 06_flash_staging_store.md R221,
07_map_cache.md R267. -/
def Obligations.HostHeldRegion : Prop :=
  (∀ s : State, s.barOpen 0 = true → s.fss.hregEn = false → Cf.FSS_HREG_SIZE_size s ≠ 0 → Cf.FSS_HREG_SIZE_size s ≤ 64 →
    s.fss.hregBusy = false → exec .hregEnable s = .next { s with fss := { s.fss with hregEn := true } }) ∧
  (∀ s : State, s.barOpen 0 = true → s.fss.hregEn = false →
    (Cf.FSS_HREG_SIZE_size s = 0 ∨ 64 < Cf.FSS_HREG_SIZE_size s ∨ s.fss.hregBusy = true) →
    Answers .hregEnable s [.out, .log, .nvm, .nvs, .fn, .fss] (fun t => t.fss = { s.fss with hregErr := true })) ∧
  (∀ s : State, s.fss.hregEn = true → exec .hregEnable s = .next s) ∧
  (∀ s : State, s.barOpen 0 = true → s.fss.hregEn = true →
    exec .hregDisable s = .next { s with
      fss := { s.fss with hregEn := false, hregBusy := true }
      mch := { s.mch with op := none, aborted := s.mch.aborted || s.mch.op.isSome } }) ∧
  (∀ s : State, s.fss.hregEn = false → exec .hregDisable s = .next s) ∧
  (∀ s : State, s.running = true → s.fss.hregBusy = true → s.leafReading = false → Answers .hregDisableDone s [.out, .log, .nvm, .nvs, .inst, .fn, .cmds, .due, .fss, .mch, .fetches, .rate] (fun t =>
      t.mch = s.emptyCache.mch ∧ ∃ g : LeafRec → LeafRec,
        t.fss = { s.fss with hregEn := false, hregBusy := false, leaves := Bank.mapVals leafDef s.fss.leaves g } ∧
        ∀ l, g l = if l.loc = .host then { l with loc := .nand } else l)) ∧
  (∀ s : State, s.fss.hregBusy = false ∨ s.leafReading = true → exec .hregDisableDone s = .next s)

/-- Committing and adopting a configuration epoch. While the block serves commands, EPOCH_COMMIT of the next epoch with no adoption
pending copies the shadow registers as the next setting set and makes the adoption pending; any other value, or a commit while one
is pending, is refused with no change to the epoch or the setting sets. SUBSYSTEM_ADOPT of a part that has nothing of the old epoch
to drain and is at its safe point adopts: the bits of the drives and of the servo axes are set when their last drive or axis has
adopted, the others at once, and pending clears once every bit is set. EPOCH_ADOPTION_TIMEOUT sets late once the adoption time of
the commit has passed, and rolls nothing back. Its clauses that rest on a choice or deduction of the model do so by log entries 3
and 74. Rests on 03_instances_manager_and_metering.md R112, 03_instances_manager_and_metering.md R113,
03_instances_manager_and_metering.md R114, 03_instances_manager_and_metering.md R115, 20_register_index.md R587. -/
def Obligations.EpochCommitAndAdoption : Prop :=
  (∀ (v : Word) (s : State), s.serving = true → s.epoch.pending = false → fld v 0 16 = wrapInc 65535 s.epoch.cur →
    exec (.epochCommit v) s = .next { s with
      prevSet := s.nextSet, nextSet := Bank.keep isEpochReg s.regs,
      epoch := { s.epoch with cur := fld v 0 16, pending := true, adopt := 0, drives := 0, axes := 0,
                              tmo := Cf.CFG_EPOCH_TMO_ms s, since := s.tm.mono, timedOut := false } }) ∧
  (∀ (v : Word) (s : State), s.serving = true → (s.epoch.pending = true ∨ fld v 0 16 ≠ wrapInc 65535 s.epoch.cur) →
    Answers (.epochCommit v) s [.out, .epoch, .log, .nvm, .nvs, .fn] (fun t => t.epoch = { s.epoch with refused := true })) ∧
  (∀ (bit : Fin 14) (part : Fin 16) (s : State), s.serving = true → s.epoch.pending = true → bitN s.epoch.adopt bit.val = false →
    bit.val ≠ 6 → bit.val ≠ 7 → (bit.val < 2 ∨ s.oldEpochWork bit.val = false) → s.safePoint bit.val part.val = true →
    Answers (.subsystemAdopt bit part) s [.out, .liveSet, .epoch, .log, .nvm, .nvs, .fn, .drives] (fun t =>
      t.epoch.adopt = setBitN s.epoch.adopt bit.val true ∧ t.epoch.cur = s.epoch.cur ∧
      (t.epoch.pending = false ↔ setBitN s.epoch.adopt bit.val true = 0x3FFF))) ∧
  (∀ (bit : Fin 14) (part : Fin 16) (s : State) (d : Nat), s.serving = true → s.epoch.pending = true → bitN s.epoch.adopt bit.val = false →
    s.oldEpochWork bit.val = false → s.safePoint bit.val part.val = true →
    (bit.val = 6 → part.val < 4 → d = setBitN s.epoch.drives part.val true → Answers (.subsystemAdopt bit part) s [.out, .liveSet, .epoch, .log, .nvm, .nvs, .fn, .drives] (fun t =>
      t.epoch.drives = d ∧ t.epoch.adopt = (if d = 0xF then setBitN s.epoch.adopt 6 true else s.epoch.adopt) ∧
      (t.epoch.pending = false ↔ t.epoch.adopt = 0x3FFF))) ∧
    (bit.val = 7 → d = setBitN s.epoch.axes part.val true → Answers (.subsystemAdopt bit part) s [.out, .liveSet, .epoch, .log, .nvm, .nvs, .fn, .drives] (fun t =>
      t.epoch.axes = d ∧ t.epoch.adopt = (if d = 0xFFFF then setBitN s.epoch.adopt 7 true else s.epoch.adopt) ∧
      (t.epoch.pending = false ↔ t.epoch.adopt = 0x3FFF)))) ∧
  (∀ s : State, s.serving = true → s.epoch.pending = true → s.epoch.timedOut = false → s.epoch.since + s.epoch.tmo ≤ s.tm.mono →
    Answers .epochAdoptionTimeout s [.out, .epoch, .log, .nvm, .nvs, .fn] (fun t => t.epoch = { s.epoch with late := true, timedOut := true })) ∧
  (∀ s : State, s.epoch.pending = false ∨ s.epoch.timedOut = true ∨ s.tm.mono < s.epoch.since + s.epoch.tmo →
    exec .epochAdoptionTimeout s = .next s)

/-- Enabling, disabling and waking rings. Through an open BAR0: RING_ENABLE of a ring that breaks no condition of Table 04-1 stores
the word, sets en, starts the context empty and makes a fetch due; with a broken condition en stays 0 and err takes its number; on
an enabled ring it changes no field, and only a reserved bit written as 1 is noted. RING_DISABLE clears en (the outstanding entry
reads of a submission ring then find no ring), refuses a completion ring still needed with error 7, and stores the word of a ring
not enabled. DB_EN_WRITE holds db_en while a ring is enabled. WAKE wakes a sleeping function and counts a write while awake. Its
clauses that rest on a choice or deduction of the model do so by log entries 25 and 26. Rests on 04_rings_doorbells_task_port.md
R128, 04_rings_doorbells_task_port.md R129, 04_rings_doorbells_task_port.md R130, 04_rings_doorbells_task_port.md R131,
04_rings_doorbells_task_port.md R137, 04_rings_doorbells_task_port.md R138. -/
def Obligations.RingControl : Prop :=
  (∀ (f : Func) (cq : Bool) (i : Fin 4) (v : Word) (s : State), s.barOpen f.toNat = true → s.inReset f.toNat = false →
    (bitN (s.reg (cfgKey f.toNat cq i.val)).toNat 0 = true → exec (.ringEnable f cq i v) s = .next (s.noteRsv (cfgKey f.toNat cq i.val) v)) ∧
    (bitN (s.reg (cfgKey f.toNat cq i.val)).toNat 0 = false → ∀ u w, u = s.storeReg (cfgKey f.toNat cq i.val) (setFld v 0 1 0) →
      w = u.reg (cfgKey f.toNat cq i.val) →
      (∀ e, u.enableErr f.toNat cq i.val w = some e → exec (.ringEnable f cq i v) s =
        .next ((u.setRingErr f.toNat cq i.val e).logEv .ringRefused (some f) (e + 16 * i.val + 256 * b2n cq))) ∧
      (u.enableErr f.toNat cq i.val w = none → ∀ x, x = u.setReg (cfgKey f.toNat cq i.val) (setFld w 0 1 1) →
        exec (.ringEnable f cq i v) s = .next ((((if cq then x.modCq f.toNat i.val (fun _ => ⟨0, true, 0, 0, 0⟩)
          else x.modSq f.toNat i.val (fun _ => ⟨0, 0, 0, 0, false⟩)).wakeFn f.toNat).fetchSoon f.toNat).pump)))) ∧
  (∀ (f : Func) (cq : Bool) (i : Fin 4) (v : Word) (s u : State), s.barOpen f.toNat = true → s.inReset f.toNat = false →
    u = s.noteRsv (cfgKey f.toNat cq i.val) v →
    (bitN (s.reg (cfgKey f.toNat cq i.val)).toNat 0 = false →
      exec (.ringDisable f cq i v) s = .next (s.storeReg (cfgKey f.toNat cq i.val) (setFld v 0 1 0))) ∧
    (bitN (s.reg (cfgKey f.toNat cq i.val)).toNat 0 = true → cq = true → u.cqNeeded f.toNat i.val = true →
      exec (.ringDisable f cq i v) s = .next ((u.setRingErr f.toNat true i.val 7).logEv .ringRefused (some f) (7 + 16 * i.val + 256))) ∧
    (bitN (s.reg (cfgKey f.toNat cq i.val)).toNat 0 = true → (cq = false ∨ u.cqNeeded f.toNat i.val = false) →
      exec (.ringDisable f cq i v) s = .next (State.setReg
        (if cq then u else { u with reads := u.reads.map (fun r =>
          if r.kind = .entry i.val ∧ r.fn.toNat = f.toNat then { r with kind := .void } else r) })
        (cfgKey f.toNat cq i.val) (setFld (u.reg (cfgKey f.toNat cq i.val)) 0 1 0)))) ∧
  (∀ (f : Func) (v : Word) (s : State), s.barOpen f.toNat = true → s.inReset f.toNat = false →
    Answers (.dbEnWrite f v) s [.out, .regs, .log, .nvm, .nvs, .link, .fn, .reads, .nextTag, .lastFn, .mch] (fun t =>
      t.regs = (s.storeReg (Reg.F_RNG_CTL f.toNat) (if s.anyRing f.toNat then setFld v 0 1 (fld (s.reg (Reg.F_RNG_CTL f.toNat)) 0 1)
        else v)).regs)) ∧
  (∀ (f : Func) (s : State), s.barOpen f.toNat = true → s.inReset f.toNat = false →
    ((s.getFn f.toNat).db.asleep = true → exec (.wake f) s = .next (s.wakeFn f.toNat).pump) ∧
    ((s.getFn f.toNat).db.asleep = false →
      exec (.wake f) s = .next (s.modFn f.toNat (fun n => { n with spurious := inc16 n.spurious }))))

/-- Doorbell fetches, accepted entries and started commands. While the block serves commands: DOORBELL_FETCH of a function that
polls lets its failed entry fetches be tried again and, with no fetch outstanding, asks for bytes 0 to 31 of its page;
DOORBELL_FETCH_COMPLETE takes the outstanding read off and takes the words; COMMAND_ACCEPT of an entry that was fetched, on a ring
still enabled of an ACTIVE instance, advances the head, takes the turn and accepts the command; COMMAND_START of a command that
nothing holds back makes it started. Without such a fetch or command nothing changes. Its clauses that rest on a choice or deduction
of the model do so by log entries 3, 13, 62 and 72. Rests on 04_rings_doorbells_task_port.md R133, 04_rings_doorbells_task_port.md
R136, 04_rings_doorbells_task_port.md R147, 04_rings_doorbells_task_port.md R154, 04_rings_doorbells_task_port.md R155,
04_rings_doorbells_task_port.md R158. -/
def Obligations.FetchesAndAcceptance : Prop :=
  (∀ (f : Func) (s u : State), s.serving = true → s.dbEn f.toNat = true → s.canRead f.toNat = true →
    ((s.getFn f.toNat).db.asleep = false ∨ (s.getFn f.toNat).db.extra = true) →
    u = s.modFn f.toNat (fun n => { n with sq := n.sq.map (fun q => { q with hold := false }) }) →
    (s.fetching f.toNat = false → exec (.doorbellFetch f) s =
      .next ((u.modDb f.toNat (fun d => { d with dueNow := false })).issueRead f.toNat
        (u.dbPage f.toNat) 32 .doorbell false).pump) ∧
    (s.fetching f.toNat = true → exec (.doorbellFetch f) s = .next u.pump)) ∧
  (∀ (f : Func) (s : State), s.dbEn f.toNat = false ∨ s.canRead f.toNat = false → exec (.doorbellFetch f) s = .next s) ∧
  (∀ (f : Func) (data : List Byte) (s : State), s.serving = true → s.fetching f.toNat = true →
    exec (.doorbellFetchComplete f data) s =
      .next (({ s with reads := dropFirst (fun (r : DmaRead) => decide (r.kind = ReadKind.doorbell ∧ r.fn = f)) s.reads }).doorbellData
        f.toNat data)) ∧
  (∀ (f : Func) (data : List Byte) (s : State), s.fetching f.toNat = false → exec (.doorbellFetchComplete f data) s = .next s) ∧
  (∀ (f : Func) (i : Fin 4) (entry : List Byte) (s u : State), s.serving = true → s.entryRead f.toNat i.val = true →
    u = { s with reads := dropFirst (fun (r : DmaRead) => decide (r.kind = ReadKind.entry i.val ∧ r.fn = f)) s.reads } →
    u.sqOn f.toNat i.val = true → (u.getInst f.toNat).state = .active → ∀ h, h = ((u.sq f.toNat i.val).head + 1) % u.sqSize f.toNat i.val →
    exec (.commandAccept f i entry) s = .next
      ((((u.modSq f.toNat i.val (fun q => { q with head := h, fails := 0, hold := false })).modFn f.toNat (fun x => x.taken i.val)).accept f
        (some i.val) h (padTo 64 entry)).pump)) ∧
  (∀ (f : Func) (i : Fin 4) (entry : List Byte) (s : State), s.entryRead f.toNat i.val = false →
    exec (.commandAccept f i entry) s = .next s) ∧
  (∀ (id : Nat) (s : State) (c : Cmd), s.serving = true → s.findCmd id = some c → s.canStart c = true →
    exec (.commandStart id) s = .next ((s.setCmd { c with stage := .started }).pump)) ∧
  (∀ (id : Nat) (s : State), s.findCmd id = none → exec (.commandStart id) s = .next s)

/-- Completion entries, coalescing and the task port. While the block serves commands, COMPLETION_WRITE of the oldest completion due
of an enabled ring with room writes its entry at the tail; with no room it waits; of a ring that has stopped it is discarded and
logged. COALESCING_TIMEOUT signals the vector of a ring with entries not yet signalled. GO on an idle task port takes the entry
image with busy set and done cleared, and is an access error while busy. TASK_PORT_COMPLETION shows the completion, sets done and
clears busy. Its clauses that rest on a choice or deduction of the model do so by log entries 2, 3, 62 and 73. Rests on
04_rings_doorbells_task_port.md R156, 04_rings_doorbells_task_port.md R157, 04_rings_doorbells_task_port.md R164,
04_rings_doorbells_task_port.md R165, 04_rings_doorbells_task_port.md R167. -/
def Obligations.CompletionsAndTaskPort : Prop :=
  (∀ (id : Nat) (s : State) (d : Due), s.serving = true → s.due.find? (fun d => d.cmd = id) = some d → d.sq.isSome = true →
    s.canWrite d.fn.toNat = true → s.firstDueOf d.fn.toNat d.cq = some d →
    (s.cqOn d.fn.toNat d.cq = true → s.cqFull d.fn.toNat d.cq = false → exec (.completionWrite id) s = .next ((s.writeCq d).pump)) ∧
    (s.cqOn d.fn.toNat d.cq = true → s.cqFull d.fn.toNat d.cq = true → exec (.completionWrite id) s = .next s) ∧
    (s.cqOn d.fn.toNat d.cq = false → exec (.completionWrite id) s = .next ((s.discardDue d).pump))) ∧
  (∀ (f : Func) (j : Fin 4) (s : State), s.serving = true → s.cqOn f.toNat j.val = true → 1 ≤ s.coalCount f.toNat j.val →
    s.coalTime f.toNat j.val ≠ 0 → 1 ≤ (s.cq f.toNat j.val).unsignalled →
    exec (.coalescingTimeout f j) s = .next (s.signalCq f.toNat j.val)) ∧
  (∀ (f : Func) (j : Fin 4) (s : State), (s.cq f.toNat j.val).unsignalled = 0 → exec (.coalescingTimeout f j) s = .next s) ∧
  (∀ (f : Func) (v : Word) (s : State), s.barOpen f.toNat = true → s.inReset f.toNat = false → fld v 0 1 = 1 →
    ((s.getFn f.toNat).tskBusy = false → (f = 0 ∨ fldN (s.limits f.toNat) 12 1 ≠ 0) →
      exec (.goTask f v) s = .next (((s.modFn f.toNat (fun x => { x with tskBusy := true, tskDone := false })).accept f none 0
        ((s.modFn f.toNat (fun x => { x with tskBusy := true, tskDone := false })).taskImage f.toNat)).pump)) ∧
    ((s.getFn f.toNat).tskBusy = true → exec (.goTask f v) s = .next (s.accError f.toNat 0 0x2040))) ∧
  (∀ (id : Nat) (s : State) (d : Due), s.serving = true → s.due.find? (fun d => d.cmd = id) = some d → d.sq = none →
    ∀ u, u = (((s.modFn d.fn.toNat (fun n => { n with tskBusy := false, tskDone := true, tskCpl := cplWords (d.bytes false) })).modDb
      d.fn.toNat (fun x => { x with lastWork := s.tm.mono })).settleDue d) →
    exec (.taskPortCompletion id) s =
      .next ((if bitN (u.reg (Reg.F_TSK_CTL d.fn.toNat)).toNat 0 then u.raise d.fn.toNat 0 else u).pump)) ∧
  (∀ (id : Nat) (s : State), s.due.find? (fun d => d.cmd = id) = none →
    exec (.taskPortCompletion id) s = .next s ∧ exec (.completionWrite id) s = .next s)

/-- Mailbox slots and shared pages. Through an open BAR0, MB_IN_POST of free slots only appends them in ascending order to the
posted slots of that function; a named busy slot is not posted again and makes one access error. MAILBOX_CONSUME frees the oldest
posted slot, relays a RELAY message and logs any other, and sets in_free; with no slot posted it changes nothing. MB_OUT_ACK frees
the outbound slots named and lets queued messages move in. Through an open BAR0 with DRAM in use: a write of an aligned word changes
exactly those four bytes of the status page that the function itself owns, where its own status page is the one selected; the PF
writes bytes 256 to 4095 of the policy page it selected, byte 256 with the news of the new sequence; an aligned 64-bit write is its
two words one after the other; a write to another page that the function may not write, and a write that is narrow or unaligned,
change no page and are counted as one access error. Its clauses that rest on a choice or deduction of the model do so by log entries
3, 19 and 28. Rests on 03_instances_manager_and_metering.md R95, 03_instances_manager_and_metering.md R96,
03_instances_manager_and_metering.md R97, 03_instances_manager_and_metering.md R99, 00_scope.md R8,
03_instances_manager_and_metering.md R101. -/
def Obligations.MailboxAndSharedPages : Prop :=
  ((∀ (f : Func) (post : Byte) (s : State), s.Canon → s.barOpen f.toNat = true → s.inReset f.toNat = false →
     Answers (.mbInPost f post) s [.hlt, .fn] (fun t =>
       (∀ l, l = (bitsOf post.toNat).filter (fun k => !(s.getFn f.toNat).posted.contains k) →
         t.getFn f.toNat = { s.getFn f.toNat with posted := (s.getFn f.toNat).posted ++ l }) ∧
       (∀ g, g ≠ f.toNat → t.getFn g = s.getFn g) ∧
       t.hlt = (if (bitsOf post.toNat).any (fun k => (s.getFn f.toNat).posted.contains k) then (s.accError f.toNat 0 0x1400).hlt else s.hlt))) ∧
   (∀ (f : Func) (s : State) (k : Nat) (r : List Nat), s.serving = true → (s.getFn f.toNat).posted = k :: r → s.inReset f.toNat = false →
     ∀ u, u = s.modFn f.toNat (fun x => { x with posted := r }) →
     (leAt (s.inSlot f.toNat k) 0 1 = 0x81 → exec (.mailboxConsume f) s = .next ((u.relay f (s.inSlot f.toNat k)).setInsEvt f.toNat 1)) ∧
     (leAt (s.inSlot f.toNat k) 0 1 ≠ 0x81 → exec (.mailboxConsume f) s =
       .next ((u.logEv .inboundUnknown (some f) (leAt (s.inSlot f.toNat k) 0 1)).setInsEvt f.toNat 1))) ∧
   (∀ (f : Func) (s : State), (s.getFn f.toNat).posted = [] ∨ s.inReset f.toNat = true → exec (.mailboxConsume f) s = .next s) ∧
   (∀ (f : Func) (ack : Byte) (s : State), s.barOpen f.toNat = true → s.inReset f.toNat = false →
     exec (.mbOutAck f ack) s = .next
       ((s.modFn f.toNat (fun x => { x with outSlots := x.outSlots.filter (fun e => !ack.toNat.testBit e.1) })).fillSlots f.toNat))) ∧
  ((∀ (f : Func) (off : BitVec 12) (data : List Byte) (s : State), s.Canon → s.barOpen f.toNat = true → s.inReset f.toNat = false →
     s.boot.dramFail = false → off.toNat % 4 = 0 → data.length = 4 → s.pageSel f.toNat = (true, f.toNat) →
     Answers (.sharedPageWrite f off data) s [.out, .hlt, .inst, .fn] (fun t =>
       t.getInst f.toNat = { s.getInst f.toNat with status := Bank.putBytes zeroByte (s.getInst f.toNat).status off.toNat data } ∧
       (∀ i, i ≠ f.toNat → t.getInst i = s.getInst i) ∧ t.hlt = s.hlt)) ∧
   (∀ (f : Func) (off : BitVec 12) (data : List Byte) (s : State) (i : Nat), s.barOpen f.toNat = true → s.inReset f.toNat = false →
     s.boot.dramFail = false → off.toNat % 4 = 0 → data.length = 4 → s.pageSel f.toNat = (true, i) → i ≠ f.toNat →
     exec (.sharedPageWrite f off data) s = .next (s.accError f.toNat 0 (0x7000 + off.toNat))) ∧
   (∀ (f : Func) (off : BitVec 12) (data : List Byte) (s : State), s.barOpen f.toNat = true → s.inReset f.toNat = false →
     (off.toNat % 4 ≠ 0 ∨ (data.length ≠ 4 ∧ data.length ≠ 8)) →
     exec (.sharedPageWrite f off data) s = .next (s.accError f.toNat 0 (0x7000 + off.toNat))) ∧
   (∀ (off : BitVec 12) (data : List Byte) (s u : State) (i : Nat), s.barOpen 0 = true → s.inReset 0 = false →
     s.boot.dramFail = false → off.toNat % 4 = 0 → data.length = 4 → s.pageSel 0 = (false, i) → 256 ≤ off.toNat →
     u = s.modInst i (fun r => { r with policy := Bank.putBytes zeroByte r.policy off.toNat data }) →
     exec (.sharedPageWrite 0 off data) s = .next (if off.toNat = 256 then u.policySeq i else u)) ∧
   (∀ (f : Func) (off : BitVec 12) (data : List Byte) (s : State) (i : Nat), s.barOpen f.toNat = true → s.inReset f.toNat = false →
     s.boot.dramFail = false → off.toNat % 4 = 0 → data.length = 4 → s.pageSel f.toNat = (false, i) → (f.toNat ≠ 0 ∨ off.toNat < 256) →
     exec (.sharedPageWrite f off data) s = .next (s.accError f.toNat 0 (0x7000 + off.toNat))) ∧
   (∀ (f : Func) (off : BitVec 12) (a b : List Byte) (s : State), s.barOpen f.toNat = true → s.inReset f.toNat = false →
     off.toNat % 4 = 0 → off.toNat + 4 < 4096 → a.length = 4 → b.length = 4 →
     exec (.sharedPageWrite f off (a ++ b)) s = .next ((s.pageWord f.toNat off.toNat a).pageWord f.toNat (off.toNat + 4) b)))

/-- Manager commands on an instance. For a manager command that is being served and whose target is in a state it allows:
INSTANCE_START draws a key and journals the new record, waits while key generation is stopped and completes as busy after 100 ms;
INSTANCE_RESET of an ACTIVE instance begins the reset, of another joins the one in progress; INSTANCE_REMOVE brings the leaves of
the instance in and completes with the retention status while a block is held and begins the removal otherwise; SET_POLICY,
SET_QUOTA and SET_PERIOD journal the new record and wait for its flush, a quota sum above the capacity and a boundary not later than
the newest one are refused. A target in another state completes with the status of that state. Its clauses that rest on a choice or
deduction of the model do so by log entries 25, 27, 61 and 76. Rests on 03_instances_manager_and_metering.md R86,
03_instances_manager_and_metering.md R87, 03_instances_manager_and_metering.md R92, 03_instances_manager_and_metering.md R93,
03_instances_manager_and_metering.md R107, 03_instances_manager_and_metering.md R118, 05_sealing_boundary.md R177. -/
def Obligations.InstanceManagement : Prop :=
  (∀ (c : Nat → Instr) (op : Op), (c, op) ∈ [(Instr.instanceStart, Op.start), (Instr.instanceReset, Op.reset), (Instr.instanceRemove, Op.remove),
      (Instr.setPolicy, Op.setPolicy), (Instr.setQuota, Op.setQuota), (Instr.setPeriod, Op.setPeriod)] →
    ∀ (id : Nat) (s : State) (d : Cmd) (st res : Nat), s.Runs id op d → (s.setFor d).checkState op d.fn.toNat d.entry = some (st, res) →
      exec (c id) s = .next (((s.setFor d).complete d st res false).setBack s)) ∧
  (∀ (id : Nat) (s : State) (d : Cmd), s.Runs id .start d → (s.setFor d).checkState .start d.fn.toNat d.entry = none → ∀ u k, 
    (s.sea.rngOk = true → (s.setFor d).drawKey = (k, u) → exec (.instanceStart id) s = .next
      (((u.journalRecordOf (eTarget d.entry) (startRecord u.tm d.entry k (u.wrapFor k (eTarget d.entry)) (u.getInst (eTarget d.entry)))).completeFlushed { d with aux := k }
        (wrapInc 4095 (u.getInst (eTarget d.entry)).gen)).setBack s)) ∧
    (s.sea.rngOk = false → s.sea.rngDown + 100 ≤ s.tm.mono →
      exec (.instanceStart id) s = .next (((s.setFor d).complete d stBusy 0 false).setBack s)) ∧
    (s.sea.rngOk = false → s.tm.mono < s.sea.rngDown + 100 → exec (.instanceStart id) s = .next s)) ∧
  (∀ (id : Nat) (s : State) (d : Cmd) (i : Nat), s.Runs id .reset d → (s.setFor d).checkState .reset d.fn.toNat d.entry = none →
    i = eTarget d.entry → ∀ u, u = (s.setFor d).setCmd { d with stage := .media } →
    ((s.getInst i).state = .active → exec (.instanceReset id) s = .next ((u.beginReset i 1 false [d.id]).setBack s)) ∧
    ((s.getInst i).state ≠ .active → exec (.instanceReset id) s = .next ((u.joinReset i false [d.id]).setBack s))) ∧
  (∀ (id : Nat) (s u : State) (d : Cmd) (i : Nat), s.Runs id .remove d → (s.setFor d).checkState .remove d.fn.toNat d.entry = none →
    i = eTarget d.entry → u = forEach (((s.setFor d).mappedBlocks i).map (fun b => leafKey i b)).eraseDups (fun k t => t.touchLeaf k) (s.setFor d) →
    (∀ b, u.firstHeld i = some b → exec (.instanceRemove id) s = .next ((u.complete d stRetention b false).setBack s)) ∧
    (u.firstHeld i = none → (u.getInst i).state = .active → exec (.instanceRemove id) s =
      .next (((u.setCmd { d with stage := .media }).beginReset i 5 false [d.id]).setBack s))) ∧
  (∀ (id : Nat) (s : State) (d : Cmd) (i : Nat), s.Runs id .setPolicy d → (s.setFor d).checkState .setPolicy d.fn.toNat d.entry = none →
    i = eTarget d.entry → exec (.setPolicy id) s =
      .next ((((s.setFor d).journalRecordOf i (policyRecord d.entry (s.getInst i))).completeFlushed d 0).setBack s)) ∧
  (∀ (id : Nat) (s : State) (d : Cmd) (i : Nat), s.Runs id .setQuota d → (s.setFor d).checkState .setQuota d.fn.toNat d.entry = none →
    i = eTarget d.entry →
    ((s.setFor d).fss.cap < (s.setFor d).quotaSum i (eArg0 d.entry) →
      exec (.setQuota id) s = .next (((s.setFor d).complete d stCapacity 0 false).setBack s)) ∧
    ((s.setFor d).quotaSum i (eArg0 d.entry) ≤ (s.setFor d).fss.cap → exec (.setQuota id) s =
      .next ((((s.setFor d).journalRecordOf i (quotaRecord d.entry (s.getInst i))).completeFlushed d 0).setBack s))) ∧
  (∀ (id : Nat) (s : State) (d : Cmd) (i : Nat) (u : State), s.Runs id .setPeriod d →
    (s.setFor d).checkState .setPeriod d.fn.toNat d.entry = none → i = eTarget d.entry → u = (s.setFor d).settleBoundaries →
    (u.periodLate d.entry = true →
      exec (.setPeriod id) s = .next ((u.complete d stField (fieldResult 8 noElem) false).setBack s)) ∧
    (u.periodLate d.entry = false → exec (.setPeriod id) s =
      .next (((u.journalRecordOf i (periodRecord d.entry (u.getInst i))).completeFlushed d 0).setBack s)))

/-- The steps of an instance reset after its beginning. RESET_DRAIN_DONE takes the steps 3 to 5 of a reset whose reads have drained
and whose archive acknowledgement is not held back, and changes nothing of one that has not drained. OLD_GENERATION_MEDIA_ENDED
takes the old operations of the instance off, and ends a reset that is past step 5 with every other field of the instance as it was,
a removal with the instance IDLE and its key destroyed when no segment of it is left, DRAINING otherwise; of a reset that has not
come to step 5 and with none in progress it only takes the operations off. Its clauses that rest on a choice or deduction of the
model do so by log entries 3, 60, 75 and 77. Rests on 03_instances_manager_and_metering.md R87, 03_instances_manager_and_metering.md
R88, 03_instances_manager_and_metering.md R92. -/
def Obligations.ResetProgramme : Prop :=
  (∀ (i : Func) (s : State) (p : ResetProg), s.running = true → (s.getInst i.toNat).reset = some p → p.step < 5 →
    (s.drained i.toNat p.flr = true → s.ackHeld i.toNat = false → exec (.resetDrainDone i) s =
      .next (((s.resetStep4 i.toNat p).resetStep5 i.toNat (s.getInst i.toNat).gen).pump)) ∧
    (s.drained i.toNat p.flr = false ∨ s.ackHeld i.toNat = true → exec (.resetDrainDone i) s = .next s)) ∧
  (∀ (i : Func) (s : State), s.running = true → (s.getInst i.toNat).reset = none →
    ((s.getFn i.toNat).flr = true → ((s.clearFnConfig i.toNat).getFn i.toNat).outSlots = [] →
      exec (.resetDrainDone i) s = .next (s.clearFnConfig i.toNat)) ∧
    ((s.getFn i.toNat).flr = true → ((s.clearFnConfig i.toNat).getFn i.toNat).outSlots ≠ [] →
      exec (.resetDrainDone i) s = .next ((s.clearFnConfig i.toNat).setInsEvt i.toNat 0)) ∧
    ((s.getFn i.toNat).flr = false → exec (.resetDrainDone i) s = .next s)) ∧
  (∀ (i : Func) (s : State), s.Canon → s.running = true →
    Answers (.oldGenerationMediaEnded i) s [.out, .nvm, .nvs, .inst, .fn, .cmds, .oldOps, .fss] (fun t =>
      t.oldOps = s.oldOps.filter (fun o => o.1 ≠ i.toNat) ∧
      (∀ p, (s.getInst i.toNat).reset = some p → 5 ≤ p.step → p.cause ≠ 5 →
        t.getInst i.toNat = { s.getInst i.toNat with reset := none } ∧ (∀ j, j ≠ i.toNat → t.getInst j = s.getInst j)) ∧
      ((s.getInst i.toNat).reset = none ∨ (∃ p, (s.getInst i.toNat).reset = some p ∧ p.step < 5) →
        t = { s with oldOps := s.oldOps.filter (fun o => o.1 ≠ i.toNat) }))) ∧
  (∀ (i : Func) (s v : State) (p : ResetProg), s.running = true → (s.getInst i.toNat).reset = some p → 5 ≤ p.step → p.cause = 5 →
    v = ({ s with oldOps := s.oldOps.filter (fun o => o.1 ≠ i.toNat) } : State).modInst i.toNat (fun r => { r with reset := none }) →
    exec (.oldGenerationMediaEnded i) s = .next (((if v.segCount i.toNat = 0 then (v.destroyKey i.toNat).setIState i.toNat .idle
      else v.setIState i.toNat .draining).journalRecord i.toNat).ackAll p.acks 0))

/-- The SPDM responder and IDE key management. With the configuration space of the physical function open, each request wakes the
block, and: an object above 4 KiB sets the error bit and answers nothing; versions 1.1 and 1.2, the capabilities, the algorithms,
the three object types and the measurements are answered as Table 02-6 has them; a request of a slot other than 0 and a message
outside the subset answer an error and change nothing else; KEY_EXCHANGE opens the lowest free session not yet established; FINISH
establishes it or drops it; END_SESSION of an established session ends it; an IDE_KM message in plain text is logged only. DOE_ABORT
ends the exchange and clears the error bit. With configuration space closed both change nothing. Inside an established session with
configuration space open: QUERY answers and changes no key; KEY_PROG programs the named key set of the named direction, fresh, and
no other; K_SET_GO of a programmed set puts it into use, retires the other transmit set at once and releases held transmission
unless that set is itself spent; of a set not programmed it only answers; K_SET_STOP retires and forgets the named receive set.
Outside an established session a message changes nothing. Its clauses that rest on a choice or deduction of the model do so by log
entries 3, 8, 22 and 63. Rests on 02_host_link_and_functions.md R65, 02_host_link_and_functions.md R66,
02_host_link_and_functions.md R67, 02_host_link_and_functions.md R69, 02_host_link_and_functions.md R75. -/
def Obligations.SpdmAndIdeKeyManagement : Prop :=
  ((∀ (sec : Bool) (size : Nat) (req : SpdmReq) (s : State), s.cfgOpen 0 = true → 4096 < size →
     exec (.spdmRequest sec size req) s = .next { s.wakeUp with sec := { s.sec with doeError := true } }) ∧
   (∀ (sec : Bool) (size : Nat) (s : State), s.cfgOpen 0 = true → size ≤ 4096 →
     exec (.spdmRequest sec size .getVersion) s = .next (s.wakeUp.doeAnswer (.spdmVersions [0x11, 0x12])) ∧
     (∀ v, (v = 0x11 ∨ v = 0x12 → exec (.spdmRequest sec size (.getCapabilities v)) s =
         .next (({ s.wakeUp with sec := { s.sec with version := v } } : State).doeAnswer (.spdmCapabilities v spdmFlags))) ∧
       (v ≠ 0x11 → v ≠ 0x12 → exec (.spdmRequest sec size (.getCapabilities v)) s = .next (s.wakeUp.doeAnswer .spdmError))) ∧
     exec (.spdmRequest sec size .negotiateAlgorithms) s = .next (s.wakeUp.doeAnswer (.spdmAlgorithms (2 ^ 7) (2 ^ 1) (2 ^ 4) (2 ^ 1))) ∧
     (∀ k, (k < 3 → exec (.spdmRequest sec size (.discovery k)) s = .next (s.wakeUp.doeAnswer (.doeDiscovery k ((k + 1) % 3)))) ∧
       (3 ≤ k → exec (.spdmRequest sec size (.discovery k)) s = .next (s.wakeUp.doeAnswer (.doeDiscovery 0xFF 0)))) ∧
     (∀ req ∈ [SpdmReq.getDigests, .getCertificate 0, .challenge 0],
       exec (.spdmRequest sec size req) s = .next (s.wakeUp.doeAnswer (.spdm (Config.spdmResponse (spdmNumber req))))) ∧
     (∀ k, exec (.spdmRequest sec size (.getMeasurements k)) s =
       .next (s.wakeUp.doeAnswer (match s.measure k with | some v => .measurement k v | none => .spdmError))) ∧
     (∀ k : Fin 8, k ≠ 0 → exec (.spdmRequest sec size (.getCertificate k)) s = .next (s.wakeUp.doeAnswer .spdmError) ∧
       exec (.spdmRequest sec size (.challenge k)) s = .next (s.wakeUp.doeAnswer .spdmError)) ∧
     (∀ n, s.freeSession = some n → Answers (.spdmRequest sec size .keyExchange) s [.out, .log, .nvm, .nvs, .sec, .fn, .clk] (fun t =>
       t.sec = { s.sec with sessions := s.sec.sessions ++ [(n, false)] })) ∧
     (s.freeSession = none → exec (.spdmRequest sec size .keyExchange) s = .next (s.wakeUp.doeAnswer .spdmError)) ∧
     (∀ n, (n, false) ∈ s.sec.sessions → Answers (.spdmRequest sec size (.finish n true)) s [.out, .log, .nvm, .nvs, .sec, .fn, .clk] (fun t =>
       t.sec = { s.sec with sessions := s.sec.sessions.map (fun e => if e.1 = n then (n, true) else e) })) ∧
     (∀ n, Answers (.spdmRequest sec size (.finish n false)) s [.out, .log, .nvm, .nvs, .sec, .fn, .clk] (fun t =>
       t.sec = { s.sec with sessions := s.sec.sessions.filter (fun e => e.1 ≠ n) })) ∧
     (∀ n, sec = true → s.established n = true → Answers (.spdmRequest sec size (.endSession n)) s [.out, .log, .nvm, .nvs, .sec, .fn, .clk] (fun t =>
       t.sec = { s.sec with sessions := s.sec.sessions.filter (fun e => e.1 ≠ n) })) ∧
     (∀ n, (sec = false ∨ s.established n = false) →
       exec (.spdmRequest sec size (.endSession n)) s = .next (s.wakeUp.doeAnswer .spdmError)) ∧
     (∀ n, exec (.spdmRequest sec size (.outside n)) s = .next (s.wakeUp.doeAnswer .spdmUnsupported)) ∧
     exec (.spdmRequest false size .ideKmPlain) s = .next (s.wakeUp.note .ideKmPlain 0)) ∧
   (∀ s : State, s.cfgOpen 0 = true → exec .doeAbort s = .next { s.wakeUp with sec := { s.sec with doeBusy := false, doeError := false } }) ∧
   (∀ (s : State), s.cfgOpen 0 = false → exec .doeAbort s = .next s ∧ ∀ sec size req, exec (.spdmRequest sec size req) s = .next s)) ∧
  ((∀ (session : Nat) (s : State), s.cfgOpen 0 = true → s.established session = true →
     exec (.query session) s = .next (s.doeAnswer (.ideKm 1 0)) ∧
     (∀ (sub : SubStream) (tx : Bool) (set : Fin 2) (key : Nat), 
       Answers (.keyProg session sub tx set key) s [.out, .sec, .fn] (fun t =>
         t.sec = { s.sec with dirs := modNth (fun d => (d.setKey set.val (some key)).setSpent set.val false) s.sec.dirs (dirIndex sub tx) })) ∧
     (∀ (sub : SubStream) (tx : Bool) (set : Fin 2), ((s.dir (dirIndex sub tx)).key set.val).isSome = true →
       ∀ d : IdeDir, d = (s.dir (dirIndex sub tx)).setLive set.val true → dirIndex sub tx < s.sec.dirs.length →
       Answers (.kSetGo session sub tx set) s [.out, .log, .nvm, .nvs, .link, .sec, .fn, .reads, .nextTag, .lastFn, .fss, .mch] (fun t =>
         t.dir (dirIndex sub tx) = { (if tx then d.setLive (1 - set.val) false else d) with cur := set.val, held := tx && d.spent set.val } ∧
         (∀ n, n ≠ dirIndex sub tx → t.dir n = s.dir n) ∧
         (t.sec.secure = true ↔ s.sec.secure = true ∨ (s.sec.streamEn = true ∧ t.sec.dirs.all (fun d => d.live d.cur) = true)))) ∧
     (∀ (sub : SubStream) (tx : Bool) (set : Fin 2), ((s.dir (dirIndex sub tx)).key set.val).isSome = false →
       exec (.kSetGo session sub tx set) s = .next (s.doeAnswer (.ideKm 6 Config.ideKmUnprogrammed))) ∧
     (∀ (sub : SubStream) (set : Fin 2), Answers (.kSetStop session sub set) s [.out, .sec, .fn] (fun t =>
         t.sec = { s.sec with dirs := modNth (fun d => (d.setLive set.val false).setKey set.val none) s.sec.dirs (dirIndex sub false) }))) ∧
   (∀ (session : Nat) (s : State), (s.cfgOpen 0 = false ∨ s.established session = false) →
     exec (.query session) s = .next s ∧ (∀ sub tx set key, exec (.keyProg session sub tx set key) s = .next s) ∧
     (∀ sub tx set, exec (.kSetGo session sub tx set) s = .next s) ∧ (∀ sub set, exec (.kSetStop session sub set) s = .next s)))

/-- Received TLPs, transmit counters and the link counters. While the stream is Secure, a received TLP that passes its checks
changes nothing and one that fails raises the integrity halt of its failure; while it is not Secure neither does anything.
IDE_TX_COUNTER_LIMIT holds the transmit direction of the sub-stream and marks its key set spent; while the stream is not Secure it
changes nothing. HST_CNT_CLR with its bit 1 clears the four link counters and with the bit 0 none; reserved bits set are logged, and
nothing else changes. Its clauses that rest on a choice or deduction of the model do so by log entries 3 and 22. Rests on
02_host_link_and_functions.md R69, 02_host_link_and_functions.md R71, 02_host_link_and_functions.md R74,
02_host_link_and_functions.md R80. -/
def Obligations.IdeTraffic : Prop :=
  (∀ (sub : SubStream) (k : Fin 2) (chk : TlpCheck) (s : State), s.running = true → s.sec.secure = true →
    (s.tlpFailure sub k chk = none → exec (.ideTlpReceived sub k chk) s = .next s) ∧
    (∀ c, s.tlpFailure sub k chk = some c → exec (.ideTlpReceived sub k chk) s = .next (s.haltBy c))) ∧
  (∀ (sub : SubStream) (k : Fin 2) (chk : TlpCheck) (s : State), s.sec.secure = false → exec (.ideTlpReceived sub k chk) s = .next s) ∧
  (∀ (sub : SubStream) (s : State), s.serving = true → s.sec.secure = true → Answers (.ideTxCounterLimit sub) s [.out, .log, .nvm, .nvs, .sec, .fn] (fun t =>
      t.sec = { s.sec with dirs := modNth (fun d => { d.setSpent d.cur true with held := true }) s.sec.dirs (dirIndex sub true) })) ∧
  (∀ (sub : SubStream) (s : State), s.sec.secure = false → exec (.ideTxCounterLimit sub) s = .next s) ∧
  (∀ (v : Word) (s : State), s.cfgOpen 0 = true → fld v 0 1 = 1 →
    exec (.hstCntClr v) s = .next { s.noteRsv Reg.HST_CNT_CLR v with link := { s.link with linkDown := 0, cplTimeout := 0, poisoned := 0, urCa := 0 } }) ∧
  (∀ (v : Word) (s : State), (s.cfgOpen 0 = true → fld v 0 1 = 0 → exec (.hstCntClr v) s = .next (s.noteRsv Reg.HST_CNT_CLR v)) ∧
    (s.cfgOpen 0 = false → exec (.hstCntClr v) s = .next s))

/-- Self-tests, the random bit generator and the quarantine list. SELFTEST_PERIOD with a period of 0 changes nothing; otherwise it
notes the time of the tests, and a failing test raises the halt of its check. DRBG_RESEED takes effect after 65,536 generate
requests only. ENTROPY_HEALTH_FAIL stops generation and notes the time, ENTROPY_HEALTH_RECOVERY lets it go on; neither acts twice.
QUAR_CLR with its bit 1 empties the quarantine list, and with the bit 0 changes nothing. Its clauses that rest on a choice or
deduction of the model do so by log entries 3 and 65. Rests on 05_sealing_boundary.md R176, 05_sealing_boundary.md R202,
05_sealing_boundary.md R204. -/
def Obligations.SealingHealth : Prop :=
  (∀ (bad : Option (Fin 5)) (s : State), s.running = true → Cf.SEA_CTL_selftest_min s = 0 → exec (.selftestPeriod bad) s = .next s) ∧
  (∀ (s : State), s.running = true → Cf.SEA_CTL_selftest_min s ≠ 0 →
    exec (.selftestPeriod none) s = .next { s with sea := { s.sea with lastTest := s.tm.mono } } ∧
    ∀ n : Fin 5, ∃ m : Fin 10, m.val = n.val + 1 ∧ exec (.selftestPeriod (some n)) s =
      .next (({ s with sea := { s.sea with lastTest := s.tm.mono, selftestOk := false } } : State).haltBy (.hardware m))) ∧
  (∀ s : State, s.running = true → 65536 ≤ s.sea.drbgCount →
    exec .drbgReseed s = .next { s with sea := { s.sea with drbgCount := 0, reseeds := s.sea.reseeds + 1 } }) ∧
  (∀ s : State, s.sea.drbgCount < 65536 → exec .drbgReseed s = .next s) ∧
  (∀ s : State, s.running = true → s.sea.rngOk = true → Answers .entropyHealthFail s [.out, .log, .nvm, .nvs, .fn, .sea] (fun t =>
      t.sea = { s.sea with rngOk := false, rngDown := s.tm.mono } ∧ exec .entropyHealthRecovery s = .next s)) ∧
  (∀ s : State, s.running = true → s.sea.rngOk = false → Answers .entropyHealthRecovery s [.out, .log, .nvm, .nvs, .fn, .sea] (fun t =>
      t.sea = { s.sea with rngOk := true } ∧ exec .entropyHealthFail s = .next s)) ∧
  (∀ (v : Word) (s : State), s.barOpen 0 = true → fld v 0 1 = 1 → Answers (.quarClr v) s [.out, .log, .nvm, .nvs, .fn, .sea] (fun t => t.sea = { s.sea with quar := [] })) ∧
  (∀ (v : Word) (s : State), fld v 0 1 = 0 → exec (.quarClr v) s = .next s)

/-- Storing settings and staging firmware. For a command that is being served: STORE_SETTINGS with data that fails a check completes
with the image status and the number of the check, and stores nothing; with data that passes it stores the content and completes;
without data it stores the settings in force under the next counter value. FW_STAGE at a wrong offset or past 512 KiB is an invalid
field and stages nothing; a piece extends the image of the slot not running; the last one is checked, completes with the image
status and the number of the check that fails, and otherwise marks the slot valid with the version of the image. FW_ACTIVATE of a
slot with no valid image completes with the state status; of another slot than the running one it makes that slot active on trial
with the running one as previous, of the running slot it ends a trial. Its clauses that rest on a choice or deduction of the model
do so by log entries 5 and 27. Rests on 16_heron_time_settings_log.md R509, 16_heron_time_settings_log.md R510,
16_heron_time_settings_log.md R511, 16_heron_time_settings_log.md R525, 16_heron_time_settings_log.md R526. -/
def Obligations.SettingsAndFirmware : Prop :=
  (∀ (id : Nat) (s : State) (c : Cmd), s.Runs id .store c → ePtr c.entry ≠ 0 →
    exec (.storeSettings id) s = .next ((match (s.setFor c).settingsCheck c.data with
      | some n => (s.setFor c).complete c stImage n false
      | none => ((s.setFor c).storeSettings (slice c.data 512 (leAt c.data 12 4)) (leAt c.data 8 4) 1
        (if 2 ≤ leAt c.data 16 1 then some (slice c.data 96 97) else s.nvs.owner)).complete c stSuccess 0 false).setBack s)) ∧
  (∀ (id : Nat) (s : State) (c : Cmd), s.Runs id .store c → ePtr c.entry = 0 → exec (.storeSettingsCapture id) s =
      .next ((((s.setFor c).storeSettings ((s.setFor c).captureContent false) ((s.setFor c).ctr 2 + 1) 2 s.nvs.owner).complete c stSuccess 0
        false).setBack s)) ∧
  (∀ (id : Nat) (s : State) (c : Cmd), s.Runs id .stage c →
    (eArg0 c.entry ≠ 0 ∧ eArg0 c.entry ≠ s.fw.staged) ∨ 524288 < eArg0 c.entry + eLen c.entry →
    exec (.fwStage id) s = .next (((s.setFor c).complete c stField (fieldResult 8 noElem) false).setBack s)) ∧
  (∀ (id : Nat) (s : State) (c : Cmd) (u : State), s.Runs id .stage c →
    (eArg0 c.entry = 0 ∨ eArg0 c.entry = s.fw.staged) → eArg0 c.entry + eLen c.entry ≤ 524288 → eByte c.entry 44 % 2 = 0 →
    u = (if eArg0 c.entry = 0 then (s.setFor c).beginStage (1 - s.boot.slot) else s.setFor c) →
    Answers (.fwStage id) s [.out, .log, .nvm, .fw, .nvs, .inst, .fn, .cmds, .due, .rate] (fun t => t.fw.staged = eArg0 c.entry + eLen c.entry ∧
      t.image (1 - s.boot.slot) = u.image (1 - s.boot.slot) ++ c.data ∧ t.image s.boot.slot = u.image s.boot.slot)) ∧
  (∀ (id : Nat) (s : State) (c : Cmd) (u v : State) (k : Nat), s.Runs id .stage c → k = 1 - s.boot.slot →
    (eArg0 c.entry = 0 ∨ eArg0 c.entry = s.fw.staged) → eArg0 c.entry + eLen c.entry ≤ 524288 → eByte c.entry 44 % 2 = 1 →
    u = (if eArg0 c.entry = 0 then (s.setFor c).beginStage k else s.setFor c).setImage k
      ((if eArg0 c.entry = 0 then (s.setFor c).beginStage k else s.setFor c).image k ++ c.data) →
    v = { u with fw := { u.fw with staged := eArg0 c.entry + eLen c.entry } } →
    exec (.fwStage id) s = .next (match v.firmwareCheck (v.image k) with
      | some n => (v.complete c stImage n false).setBack s
      | none => (((v.writeSlot (v.slotRecord.1.mark k true (leAt (v.image k) 8 4) (leAt (v.image k) 12 4))).note .firmwareStaged k).complete c stSuccess
          (eArg0 c.entry + eLen c.entry) false).setBack s)) ∧
  (∀ (id : Nat) (s : State) (c : Cmd) (r : SlotRec) (slot : Nat), s.Runs id .activate c → r = s.slotRecord.1 → slot = eByte c.entry 44 →
    (bitN r.valid slot = false →
      exec (.fwActivate id) s = .next (((s.setFor c).complete c stState (s.getInst 0).state.code false).setBack s)) ∧
    (bitN r.valid slot = true → slot = s.boot.slot → exec (.fwActivate id) s =
      .next ((((s.setFor c).writeSlot { r with active := slot, trial := 0 }).complete c stSuccess 0 false).setBack s)) ∧
    (bitN r.valid slot = true → slot ≠ s.boot.slot → exec (.fwActivate id) s =
      .next ((((s.setFor c).writeSlot { r with active := slot, previous := s.boot.slot, trial := 1 }).complete c stSuccess 0 false).setBack s)))

/-- READ, the retry of a leaf fetch, and the ends of host reads. A READ that is ready looks its blocks up under its own setting set
and goes on with their reads; a DRAM line at or above the sweep watermark makes it wait, one whose MAC passes changes nothing, one
that passes when read again is counted and logged, and one that fails twice raises the halt in its place. A READ whose blocks are
all settled ends when served again. Another command and an unknown number change nothing. LEAF_FETCH_RETRY fetches a failed line
again, fills the cache with a line that passed and whose victim no longer waits for its write-back, and changes nothing otherwise.
HOST_READ_COMPLETION of a tag in use takes the read off and takes its data. HOST_READ_ERROR_COMPLETION takes it off, counts the
failure and fails the read. COMPLETION_TIMEOUT takes it off, reports it through AER, counts and logs the timeout and fails the read,
unless the function has disabled its timeouts: then it changes nothing. A tag not in use changes nothing. Its clauses that rest on a
choice or deduction of the model do so by log entries 2, 3, 5, 13 and 62. Rests on 04_rings_doorbells_task_port.md R149,
06_flash_staging_store.md R220, 02_host_link_and_functions.md R53, 05_sealing_boundary.md R200, 02_host_link_and_functions.md R51.
-/
def Obligations.ReadCommandAndHostReads : Prop :=
  ((∀ (id : Nat) (bad : List Nat) (s : State) (c : Cmd), s.Runs id .read c →
     (∀ l u, State.lookupRun c.fn.toNat id bad (eArg1 c.entry) (eArg0 c.entry) (s.setFor c) = (l, u) → ∀ d, d = { c with stage := .media, placed := l } →
       exec (.read id .good bad) s = .next ((((u.setCmd d).endRead d).pump).setBack s)) ∧
     (∀ (addr : BitVec 40) (first again : List Byte) (a : Nat), a = addr.toNat / 64 * 64 →
       (s.sea.sweepLines ≤ a / 64 → exec (.read id (.line addr first again) bad) s = .next s) ∧
       (a / 64 < s.sea.sweepLines → s.linePasses a first = true →
         exec (.read id (.line addr first again) bad) s = exec (.read id .good bad) s) ∧
       (a / 64 < s.sea.sweepLines → s.linePasses a first = false → s.linePasses a again = true →
         ∃ t, exec (.read id .good bad) { s with sea := { s.sea with retryDram := inc16 s.sea.retryDram } } = .next t ∧
           exec (.read id (.line addr first again) bad) s = .next (t.note .lineRetried 0)) ∧
       (a / 64 < s.sea.sweepLines → s.linePasses a first = false → s.linePasses a again = false →
         exec (.read id (.line addr first again) bad) s = .next (s.haltBy (.dramMac (BitVec.ofNat 40 a)))))) ∧
   (∀ (id : Nat) (mac : MacCheck) (bad : List Nat) (s : State) (c : Cmd), s.serving = true → s.findCmd id = some c →
     eOp c.entry = some .read → c.stage = .media → exec (.read id mac bad) s = .next (s.endRead c)) ∧
   (∀ (id : Nat) (mac : MacCheck) (bad : List Nat) (s : State), (s.findCmd id = none ∨ ∃ c, s.findCmd id = some c ∧ eOp c.entry ≠ some .read) →
     exec (.read id mac bad) s = .next s) ∧
   (∀ (line : Nat) (s : State) (l : LeafFetch), s.serving = true → s.fetches.find? (fun l => l.line = line) = some l →
     (l.failed = true → exec (.leafFetchRetry line) s = .next (s.setFetch { l with failed := false }).pump) ∧
     (l.failed = false → l.passed = true → s.fillWaits (l.line * 64) = false →
       exec (.leafFetchRetry line) s = .next (s.linePassed { l with passed := false } []).pump) ∧
     (l.failed = false → (l.passed = false ∨ s.fillWaits (l.line * 64) = true) → exec (.leafFetchRetry line) s = .next s)) ∧
   (∀ (line : Nat) (s : State), s.fetches.find? (fun l => l.line = line) = none → exec (.leafFetchRetry line) s = .next s)) ∧
  ((∀ (tag : Nat) (data : List Byte) (bad : List Nat) (s : State) (r : DmaRead), s.serving = true → s.findRead tag = some r →
     exec (.hostReadCompletion tag data bad) s = .next ((s.dropRead tag).readData r data bad)) ∧
   (∀ (tag : Nat) (why : ReadFail) (s : State) (r : DmaRead), s.serving = true → s.findRead tag = some r →
     exec (.hostReadErrorCompletion tag why) s = .next (((s.dropRead tag).countReadFail r why).readFail r).pump) ∧
   (∀ (tag : Nat) (s : State) (r : DmaRead), s.serving = true → s.findRead tag = some r →
     ((s.getFn r.fn.toNat).cfg.ctoDis = true → exec (.completionTimeout tag) s = .next s) ∧
     ((s.getFn r.fn.toNat).cfg.ctoDis = false → ∀ u, u = (s.dropRead tag).aerReport r.fn 14 →
       exec (.completionTimeout tag) s = .next
         (((({ u with link := { u.link with cplTimeout := inc16 u.link.cplTimeout } } : State).logEv .readTimeout (some r.fn) r.addr).readFail
           r).pump))) ∧
   (∀ (tag : Nat) (s : State), s.findRead tag = none → (∀ data bad, exec (.hostReadCompletion tag data bad) s = .next s) ∧
     (∀ why, exec (.hostReadErrorCompletion tag why) s = .next s) ∧ exec (.completionTimeout tag) s = .next s))

/-- WRITE, its retention refusal and its wait for space. A WRITE that is ready, or waits for space, while the store is not quiesced:
over a held block it completes with the retention status and the index of that block; with fewer than 3 free bands, or with too few
sequence numbers below the mark that NAND holds, or without a page for its units, it waits; otherwise its units are sealed and it
waits for their pages. A DRAM line at or above the sweep watermark makes it wait, one that passes changes nothing, one that passes
when read again is counted and logged, and one that fails twice raises the halt in its place. While the store is quiesced it changes
nothing. WRITE_SPACE_WAIT_TIMEOUT completes a WRITE that has waited 10 s as busy, not before. Its clauses that rest on a choice or
deduction of the model do so by log entries 3, 5 and 20. Rests on 04_rings_doorbells_task_port.md R149, 06_flash_staging_store.md
R223, 06_flash_staging_store.md R245, 05_sealing_boundary.md R200. -/
def Obligations.WriteCommand : Prop :=
  (∀ (id : Nat) (s u : State) (c : Cmd) (r : Instance), s.serving = true → s.findCmd id = some c → eOp c.entry = some .write →
    (c.ready = true ∨ c.stage = .space) → s.fss.quiesced = false →
    u = (s.setFor c).touchRun c.fn.toNat (eArg0 c.entry) (eArg1 c.entry) → r = u.getInst c.fn.toNat →
    (∀ k, u.heldIndex c = some k → exec (.write id .good) s = .next ((u.complete c stRetention k false).setBack s)) ∧
    (u.heldIndex c = none → (u.freeBands < 3 ∨ r.unitDur < r.unitSeq + eArg1 c.entry) →
      exec (.write id .good) s = .next ((u.waitSpace c).setBack s)) ∧
    (∀ l v, u.heldIndex c = none → 3 ≤ u.freeBands → r.unitSeq + eArg1 c.entry ≤ r.unitDur →
      sealRun c (r.keySerial.getD 0) (eArg1 c.entry) 0 (eArg1 c.entry) 0 c.data u = some (l, v) →
      exec (.write id .good) s = .next ((v.setCmd { c with stage := .media, placed := l }).setBack s)) ∧
    (u.heldIndex c = none → 3 ≤ u.freeBands → r.unitSeq + eArg1 c.entry ≤ r.unitDur →
      sealRun c (r.keySerial.getD 0) (eArg1 c.entry) 0 (eArg1 c.entry) 0 c.data u = none →
      exec (.write id .good) s = .next ((u.waitSpace c).setBack s)) ∧
    (∀ (addr : BitVec 40) (first again : List Byte) (a : Nat), a = addr.toNat / 64 * 64 → s.sea.sweepLines ≤ a / 64 →
      exec (.write id (.line addr first again)) s = .next s) ∧
    (∀ (addr : BitVec 40) (first again : List Byte) (a : Nat), a = addr.toNat / 64 * 64 → a / 64 < s.sea.sweepLines →
      (s.linePasses a first = false → s.linePasses a again = true →
        ∃ t, exec (.write id .good) { s with sea := { s.sea with retryDram := inc16 s.sea.retryDram } } = .next t ∧
          exec (.write id (.line addr first again)) s = .next (t.note .lineRetried 0)) ∧
      (s.linePasses a first = true → exec (.write id (.line addr first again)) s = exec (.write id .good) s) ∧
      (s.linePasses a first = false → s.linePasses a again = false →
        exec (.write id (.line addr first again)) s = .next (s.haltBy (.dramMac (BitVec.ofNat 40 a)))))) ∧
  (∀ (id : Nat) (mac : MacCheck) (s : State), (s.fss.quiesced = true ∨ s.findCmd id = none) → exec (.write id mac) s = .next s) ∧
  (∀ (id : Nat) (s : State) (c : Cmd), s.serving = true → s.findCmd id = some c →
    (c.stage = .space → c.since + 10000 ≤ s.tm.mono →
      exec (.writeSpaceWaitTimeout id) s = .next ((s.complete c stBusy 0 false).logEv .spaceTimeout (some c.fn) 0)) ∧
    (c.stage ≠ .space ∨ s.tm.mono < c.since + 10000 → exec (.writeSpaceWaitTimeout id) s = .next s))

/-- DISCARD, FLUSH, GET_LOG and GET_USAGE. A DISCARD over a held block completes with the retention status and its index once the
leaves of its blocks are in; otherwise every mapped block it names becomes Empty, the change is journaled and the result counts the
units freed at once. A FLUSH waits while an earlier command of its instance has not completed, and then for the journal. A GET_LOG
writes, from the sequence number asked on, the entries its function may see that fit, and its result holds their number and the
sequence number to ask for next; from a number past the newest entry it writes none. A GET_USAGE writes the usage records of its
target in the range asked, and its result is their number. Only the completion and the data written out change. Its clauses that
rest on a choice or deduction of the model do so by log entries 3 and 62. Rests on 04_rings_doorbells_task_port.md R150,
06_flash_staging_store.md R246, 03_instances_manager_and_metering.md R123, 04_rings_doorbells_task_port.md R144. -/
def Obligations.DiscardFlushAndReports : Prop :=
  ((∀ (id : Nat) (s u : State) (c : Cmd) (i : Nat) (l : List Nat), s.Runs id .discard c → i = c.fn.toNat →
     u = (s.setFor c).touchRun i (eArg0 c.entry) (eArg1 c.entry) → l = u.mappedRun i (eArg0 c.entry) (eArg1 c.entry) →
     (∀ k, u.heldIndex c = some k → exec (.discard id) s = .next ((u.complete c stRetention k false).setBack s)) ∧
     (u.heldIndex c = none → ∀ w x, w = forEach l (fun b t => t.mapPut i b puaEmpty) u →
       x = w.jUpdate (.discard i (eArg0 c.entry) (eArg1 c.entry) (w.getInst i).unitSeq) →
       exec (.discard id) s = .next ((((x.dropEmptyLeaves i).refreshUsed i).complete c stSuccess
         (l.filter (fun b => isReal (u.mapGet i b) && !u.pinned i b)).length false).setBack s))) ∧
   (∀ (id : Nat) (s : State) (c : Cmd), s.Runs id .flush c →
     ((earlier c.id s.cmds).any (fun a => decide (a.fn = c.fn ∧ a.stage ≠ .due)) = true → exec (.flush id) s = .next s) ∧
     ((earlier c.id s.cmds).any (fun a => decide (a.fn = c.fn ∧ a.stage ≠ .due)) = false →
       Answers (.flush id) s [.cmds] (fun t => t.cmds = (s.setCmd { c with stage := .flushing, waitSeq := s.fss.jMade, result := 0 }).cmds))) ∧
   (∀ (id : Nat) (s : State), s.findCmd id = none → exec (.discard id) s = .next s ∧ exec (.flush id) s = .next s)) ∧
  ((∀ (id : Nat) (s : State) (c : Cmd) (q : Nat) (r : List LogEntry × Nat), s.Runs id .getLog c → q = eArg0 c.entry % 2 ^ 32 →
     r = logTake c.fn.toNat (eLen c.entry / 32) s.log.next
       (if serialAfter s.log.next q then s.wholeLog.filter (fun e => !serialAfter q e.seq) else []) →
     exec (.getLog id) s =
       .next (((s.setFor c).report c (r.1.foldl (fun a e => a ++ e.bytes) []) (r.1.length + r.2 * 2 ^ 32)).setBack s)) ∧
   (∀ (id : Nat) (s : State) (c : Cmd) (i : Nat) (l : List Period), s.Runs id .getUsage c →
     i = (if c.fn = 0 then eTarget c.entry else c.fn.toNat) →
     l = (((s.getInst i).usage).drop (eArg1 c.entry % 256)).take (eArg1 c.entry / 256 % 256) →
     exec (.getUsage id) s = .next (((s.setFor c).report c (l.foldl (fun a p => a ++ p.bytes s.tm.mono) []) l.length).setBack s)) ∧
   (∀ (id : Nat) (s : State), s.findCmd id = none → exec (.getLog id) s = .next s ∧ exec (.getUsage id) s = .next s))

/-- COMMIT_SEGMENT. A COMMIT_SEGMENT with 1,024 segments of its instance or 16,384 in all is refused with the archive-full status
and makes no segment. Otherwise the leaves of its run are brought in, and a new segment with the number taken at acceptance, the run
of blocks named and the number of blocks it needs joins the end of the queue behind all others, the instance remembers the commit,
and the completion waits for the flush. Rests on 01_vault_and_evidence_path.md R27, 01_vault_and_evidence_path.md R35,
04_rings_doorbells_task_port.md R151, 08_archive_format_and_stripes.md R284. -/
def Obligations.CommitSegment : Prop :=
  (∀ (id : Nat) (s : State) (c : Cmd), s.Runs id .commit c → (1024 ≤ s.segCount c.fn.toNat ∨ 16384 ≤ s.fss.segs.length) →
    exec (.commitSegment id) s = .next (((s.setFor c).complete c stArcFull 0 false).setBack s)) ∧
  (∀ (id : Nat) (s : State) (c : Cmd), s.Runs id .commit c → s.segCount c.fn.toNat < 1024 → s.fss.segs.length < 16384 →
    s.Canon → Answers (.commitSegment id) s [.out, .log, .nvm, .nvs, .inst, .fn, .cmds, .due, .fss, .mch, .fetches, .rate] (fun t =>
      (t.getInst c.fn.toNat).commits = ⟨eRid c.entry, c.aux % 2 ^ 32, c.aux / 2 ^ 32, false, 0⟩ :: (s.getInst c.fn.toNat).commits ∧
      (∃ q, t.cmds = (s.setCmd { c with stage := .flushing, waitSeq := q, result := c.aux }).cmds) ∧ ∃ g : Segment, t.fss.segs = ((s.setFor c).touchRun c.fn.toNat (eArg0 c.entry) (eArg1 c.entry)).fss.segs ++ [g] ∧
      g.num = c.aux % 2 ^ 32 ∧ g.inst = c.fn.toNat ∧ g.lbn = eArg0 c.entry ∧ g.cnt = eArg1 c.entry ∧ g.rid = eRid c.entry ∧
      g.blocks = (eArg1 c.entry + 7) / 8 ∧ g.active = false ∧ g.formatted = 0 ∧ g.verified = [] ∧ g.unpinAt = none))

/-- Folding, mirroring and the NVM copies of the log and the clock. LOG_FOLD_FLUSH takes off exactly the folds whose second has
ended and writes an entry for each that stands for a further event. LOG_MIRROR_WRITE with the store mounted and entries not yet
mirrored writes the oldest block, otherwise changes nothing. LOG_NVM_WRITE writes the oldest waiting critical entry at the next of
the 64 places of the NVM copy and moves on by one place. LAST_ALIVE_WRITE stores the wall seconds in counter 5 while the clock is
valid. MONO_FLOOR_WRITE moves counter 4 to 600 s ahead once monotonic time has reached it. Its clauses that rest on a choice or
deduction of the model do so by log entries 3, 6 and 55. Rests on 16_heron_time_settings_log.md R503, 16_heron_time_settings_log.md
R504, 16_heron_time_settings_log.md R521, 16_heron_time_settings_log.md R522. -/
def Obligations.EventLogKeeping : Prop :=
  (∀ s : State, s.running = true → (∀ w ∈ s.log.folds, w.ends ≤ s.tm.mono → w.count = 0) →
    exec .logFoldFlush s = .next { s with log := { s.log with folds := s.log.folds.filter (fun w => !decide (w.ends ≤ s.tm.mono)) } }) ∧
  (∀ (s : State) (w : Fold), s.running = true → s.log.folds = [w] → w.ends ≤ s.tm.mono → w.count ≠ 0 →
    exec .logFoldFlush s = .next (({ s with log := { s.log with folds := [] } } : State).logWrite w.ev w.inst w.count w.arg)) ∧
  (∀ (s : State) (l : List Fold), s.running = true → l = s.log.folds.filter (fun w => decide (w.ends ≤ s.tm.mono)) →
    exec .logFoldFlush s = .next (forEach l.reverse (fun w t => if w.count = 0 then t else t.logWrite w.ev w.inst w.count w.arg)
      { s with log := { s.log with folds := s.log.folds.filter (fun w => !decide (w.ends ≤ s.tm.mono)) } })) ∧
  (∀ s : State, s.running = true → s.mounted = true → s.log.unmirrored ≠ s.log.next → exec .logMirrorWrite s = .next s.mirrorOne) ∧
  (∀ s : State, (s.mounted = false ∨ s.log.unmirrored = s.log.next) → exec .logMirrorWrite s = .next s) ∧
  (∀ (s : State) (e : LogEntry) (r : List LogEntry), s.Canon → s.running = true → s.log.critical = e :: r →
    Answers .logNvmWrite s [.log, .nvm, .nvs] (fun t => t.log = { s.log with critical := r, nvmNext := (s.log.nvmNext + 1) % 64 } ∧
      t.nvmBytes (0x29000 + 32 * s.log.nvmNext) e.bytes.length = e.bytes ∧
      ∀ a, a < 0x29000 + 32 * s.log.nvmNext ∨ 0x29000 + 32 * s.log.nvmNext + e.bytes.length ≤ a →
        Bank.get nvmDef t.nvm a = Bank.get nvmDef s.nvm a)) ∧
  (∀ s : State, s.log.critical = [] → exec .logNvmWrite s = .next s) ∧
  (∀ s : State, s.running = true → s.tm.valid = true → exec .lastAliveWrite s = .next (s.ctrStore 5 s.tm.sec)) ∧
  (∀ s : State, s.tm.valid = false → exec .lastAliveWrite s = .next s) ∧
  (∀ s : State, s.running = true → s.ctr 4 ≤ s.tm.mono → exec .monoFloorWrite s = .next (s.ctrStore 4 (s.tm.mono + 600000))) ∧
  (∀ s : State, s.tm.mono < s.ctr 4 → exec .monoFloorWrite s = .next s)

/-- Page programs, their failure and the page wait. While the block runs: NAND_PAGE_PROGRAM_DONE of a page in programming takes it
off, stores its units, clears the busy count of its die, completes its stripe where it is the parity page and the root whose header
it holds, ends the WRITEs whose last page it was and issues the parity that is then due; NAND_PROGRAM_FAIL takes the page off,
leaves the die out of the band that holds the block, issues the page that fills on another die, retires the block for a program
failure and rewrites the units; for a page not in programming neither changes anything. PAGE_WAIT_TIMEOUT moves the filling page of
the role into programming while NAND may be written. Its clauses that rest on a choice or deduction of the model do so by log
entries 2 and 3. Rests on 06_flash_staging_store.md R223, 06_flash_staging_store.md R240, 06_flash_staging_store.md R244. -/
def Obligations.NandPrograms : Prop :=
  (∀ (pua : Nat) (s : State) (p : PageProg), s.running = true → s.programOf pua = some p →
    ∀ u v w, u = ((({ s with fss := { s.fss with progs := s.fss.progs.filter (fun x => x.pua ≠ p.pua) } } : State).storeUnits p.pua p.units).dieOk
      (puaDie p.pua)) →
    v = (if p.units = [] then u.parityDone p.pua else u) →
    w = (if v.fss.rootWait.any (fun r => decide (r.pua / 4 = p.pua / 4)) then v.rootLanded else v) →
    exec (.nandPageProgramDone pua) s = .next ((forEach p.cmds (fun id t => t.endWrite id) w).issueParity).pump) ∧
  (∀ (s : State) (w : RootWait), s.fss.rootWait = some w →
    s.rootLanded.fss.root = some w.snap ∧ s.rootLanded.fss.rootSeq = w.snap.seq ∧ s.rootLanded.fss.rootWait = none) ∧
  (∀ (pua : Nat) (s : State) (p : PageProg), s.running = true → s.programOf pua = some p →
    ∀ d b u, d = puaDie pua → b = puaBlock s.fss.ppb pua →
    u = ({ s with fss := { s.fss with progs := s.fss.progs.filter (fun x => x.pua ≠ pua) } } : State).mapBands
        (fun x => if x.blocks.contains (d, b) && x.isOpen then x.skipDie d else x) →
    (u.fss.fill.any (fun x => decide (x.role = p.role ∧ puaDie x.pua ≠ d)) = true →
      exec (.nandProgramFail pua) s = .next ((((u.issuePage p.role).retireBlock d b 1).rewriteAll p 0 p.units).issueParity)) ∧
    (u.fss.fill.any (fun x => decide (x.role = p.role ∧ puaDie x.pua ≠ d)) = false →
      exec (.nandProgramFail pua) s = .next (((u.retireBlock d b 1).rewriteAll p 0 p.units).issueParity))) ∧
  (∀ (pua : Nat) (s : State), s.programOf pua = none →
    exec (.nandPageProgramDone pua) s = .next s ∧ exec (.nandProgramFail pua) s = .next s) ∧
  (∀ (role : Fin 4) (s : State), s.running = true → s.nandOpen = true →
    exec (.pageWaitTimeout role) s = .next { s with fss := { s.fss with
      progs := s.fss.progs ++ (s.fss.fill.filter (fun p => p.role = roleOf role)).map (fun p => { p with queued := false }),
      fill := s.fss.fill.filter (fun p => p.role ≠ roleOf role) } }) ∧
  (∀ (role : Fin 4) (s : State), s.nandOpen = false → exec (.pageWaitTimeout role) s = .next s)

/-- Erases and unit reads. NAND_ERASE_DONE of a block being erased, not read and with the store not quiesced removes exactly its
units, counts the erase and makes it free, or retires it on a failure or at its erase limit; it ends the erase of an opened block
that a format left unerased; of another block it changes nothing. NAND_READ_DONE of a unit stored clears the busy count of its die
and settles the read; of a place that holds no unit it changes nothing. REFRESH_READ of a page with no unit changes nothing, and of
a page that fails empties its block and retires it. Its clauses that rest on a choice or deduction of the model do so by log entries
3 and 21. Rests on 06_flash_staging_store.md R240, 06_flash_staging_store.md R241, 06_flash_staging_store.md R242. -/
def Obligations.NandErasesAndReads : Prop :=
  (∀ (die : Fin 16) (block : BitVec 16) (ok : Bool) (s : State), s.running = true → (s.block die.val block.toNat).use = .erasing →
    s.fss.quiesced = false → s.readsBlock die.val block.toNat = false →
    ∀ u n, n = (s.block die.val block.toNat).erases + 1 → u = ((s.unband die.val block.toNat).dieOk die.val) →
      ∀ w, w = ({ u with fss := { u.fss with
          units := u.fss.units.filter (fun e => !decide (puaDie e.1 = die.val ∧ puaBlock u.fss.ppb e.1 = block.toNat)) } } : State).setBlock
          die.val block.toNat ⟨.free, n, 0, false⟩ →
      (ok = true → n < Cf.FSS_WL_pe_limit s * 10 → exec (.nandEraseDone die block ok) s = .next w ∧
        Answers (.nandEraseDone die block ok) s [.out, .log, .nvm, .nvs, .inst, .fn, .cmds, .fss, .mch, .fetches] (fun t =>
          t.fss.units = s.fss.units.filter (fun e => !decide (puaDie e.1 = die.val ∧ puaBlock s.fss.ppb e.1 = block.toNat)))) ∧
      (ok = true → Cf.FSS_WL_pe_limit s * 10 ≤ n → exec (.nandEraseDone die block ok) s = .next (w.retireBlock die.val block.toNat 3)) ∧
      (ok = false → exec (.nandEraseDone die block ok) s = .next (w.retireBlock die.val block.toNat 2))) ∧
  (∀ (die : Fin 16) (block : BitVec 16) (ok : Bool) (s u : State) (r : BlockRec), s.running = true → s.fss.quiesced = false →
    r = s.block die.val block.toNat → r.use = .opened → r.stale = true →
    u = (s.dieOk die.val).setBlock die.val block.toNat { r with erases := r.erases + 1, stale := false } →
    exec (.nandEraseDone die block ok) s = .next (if ok then u else u.retireBlock die.val block.toNat 2)) ∧
  (∀ (die : Fin 16) (block : BitVec 16) (ok : Bool) (s : State), (((s.block die.val block.toNat).use ≠ .erasing ∧
      ((s.block die.val block.toNat).use ≠ .opened ∨ (s.block die.val block.toNat).stale = false)) ∨ s.fss.quiesced = true ∨
    ((s.block die.val block.toNat).use = .erasing ∧ s.readsBlock die.val block.toNat = true)) → exec (.nandEraseDone die block ok) s = .next s) ∧
  (∀ (pua : Nat) (r : NandRead) (s : State), s.running = true → s.mounted = true → (s.unitAt pua).kind ≠ 0xFF →
    exec (.nandReadDone pua r) s =
      .next ((s.dieOk (puaDie pua)).unitRead pua (s.readResult pua r))) ∧
  (∀ (pua : Nat) (r : NandRead) (s : State), (s.mounted = false ∨ (s.unitAt pua).kind = 0xFF) →
    exec (.nandReadDone pua r) s = .next s) ∧
  (∀ (die : Fin 16) (block : BitVec 16) (page : BitVec 12) (r : NandRead) (s u : State), s.running = true →
    s.mounted = true → s.pageUnits die.val block.toNat page.toNat ≠ [] →
    u = forEach (s.pageUnits die.val block.toNat page.toNat) (fun pua t => if t.running then t.unitRead pua (t.readResult pua r) else t) s →
    (readFails r = true → u.running = true → exec (.refreshRead die block page r) s =
      .next ((u.moveAll .gc [(die.val, block.toNat)]).retireBlock die.val block.toNat 4)) ∧
    (readFails r = false ∨ u.running = false → exec (.refreshRead die block page r) s = .next u)) ∧
  (∀ (die : Fin 16) (block : BitVec 16) (page : BitVec 12) (r : NandRead) (s : State),
    (s.mounted = false ∨ s.pageUnits die.val block.toNat page.toNat = []) → exec (.refreshRead die block page r) s = .next s)

/-- Journal, root checkpoints, garbage collection, wear and die failures. JOURNAL_FLUSH that is due, with no flush flying, no root
being written and NAND open for writes, writes everything that waits as journal units and flies; without pages for them, or
otherwise, it changes nothing. JOURNAL_FLUSH_COMPLETE ends the programs and the flush that flies, adds its units to the journal,
finishes the commands that waited for it and begins the erases it allows; with none flying, or with its pages still queued, it
changes nothing. ROOT_CHECKPOINT at its interval, or after 8192 journal units, reserves sequence numbers, writes the section units
and the header unit of the next root and waits for the page of the header; before that, or while a flush flies or a root is written,
or without pages, it changes nothing. GARBAGE_COLLECTION with fewer than 8 free bands, or fewer than 12 once it runs, empties into
the GC band the closed band with the fewest valid units; otherwise it stops. STATIC_WEAR_LEVELLING of a good die whose spread
exceeds the limit moves the closed band with the least-erased block to the cold band. DIE_BUSY_TIMEOUT counts a busy die and resets
it, and fails it at the second in a row. DIE_REBUILD_DONE rebuilds or loses the units of failed dies and ends the rebuild once none
is left. ZQ_CALIBRATION calibrates every NV-DDR3 channel. Outside these conditions none of the first four changes anything. Its
clauses that rest on a choice or deduction of the model do so by log entries 2, 3, 20, 21 and 45. Rests on 06_flash_staging_store.md
R225, 06_flash_staging_store.md R227, 06_flash_staging_store.md R228, 06_flash_staging_store.md R229, 06_flash_staging_store.md
R209, 06_flash_staging_store.md R237, 06_flash_staging_store.md R239, 06_flash_staging_store.md R245. -/
def Obligations.JournalRootAndStoreUpkeep : Prop :=
  ((∀ s u : State, s.running = true → s.nandOpen = true → s.fss.jFlying = false → s.fss.rootWait = none → s.flushDue = true →
     u = s.flushTail → ∀ r, r = State.journalRun (journalRuns u.fss.jWait) { u with fss := { u.fss with jWait := [], jFlight := [] } } →
     (r = none → exec .journalFlush s = .next s) ∧
     (∀ t x, r = some t → x = ((t.issuePage .gc).issuePage .cold).issuePage .system →
       exec .journalFlush s = .next { x with fss := { x.fss with jFlying := true, jUpdates := 0 } } ∧
       x.fss.jWait = t.fss.jWait ∧ x.fss.jFlight = t.fss.jFlight)) ∧
   (∀ s : State, (s.nandOpen = false ∨ s.fss.jFlying = true ∨ s.fss.rootWait.isSome = true ∨ s.flushDue = false) →
     exec .journalFlush s = .next s) ∧
   (∀ s : State, s.running = true → s.fss.jFlying = true → s.fss.progs.any (fun p => decide (p.role ≠ .host) && p.queued) = false →
     exec .journalFlushComplete s =
       .next ((forEach s.flushPages (fun p t => t.pageDone p) s).flushLanded.finishFlushed.beginErases.pump)) ∧
   (∀ s : State, (s.fss.jFlying = false ∨ s.fss.progs.any (fun p => decide (p.role ≠ .host) && p.queued) = true) →
     exec .journalFlushComplete s = .next s) ∧
   (∀ s : State, s.flushLanded.fss.jFlying = false ∧ s.flushLanded.fss.jFlight = [] ∧
     s.flushLanded.fss.jLog = s.fss.jLog ++ s.fss.jFlight ∧ s.flushLanded.fss.jDone = s.fss.jDone + (s.fss.jFlight.flatMap (fun u => u.entries)).length) ∧
   (∀ s : State, s.running = true → s.nandOpen = true → s.fss.jFlying = false → s.fss.rootWait = none →
     (s.fss.rootTime + Cf.FSS_CKPT_interval s * 1000 ≤ s.tm.mono ∨ s.fss.rootUnits + 8192 ≤ s.fss.jUnits) →
     ∀ r, r = State.putRoot s.reserveSeqs.rootSnap.sectionUnits s.reserveSeqs →
     (r = none → exec .rootCheckpoint s = .next s) ∧
     (∀ pua u v, r = some (pua, u) → v = u.issuePage .system →
       exec .rootCheckpoint s = .next { v with fss := { v.fss with
         rootWait := some ⟨pua, u.rootSnap⟩, rootTime := v.tm.mono, rootUnits := v.fss.jUnits } })) ∧
   (∀ s : State, (s.nandOpen = false ∨ s.fss.jFlying = true ∨ s.fss.rootWait.isSome = true ∨
     (s.tm.mono < s.fss.rootTime + Cf.FSS_CKPT_interval s * 1000 ∧ s.fss.jUnits < s.fss.rootUnits + 8192)) → exec .rootCheckpoint s = .next s)) ∧
  ((∀ (s u : State), s.running = true → s.nandOpen = true → (s.freeBands < 8 ∨ (s.fss.gcOn = true ∧ s.freeBands < 12)) →
     u = { s with fss := { s.fss with gcOn := true } } →
     (∀ b, leastBand (fun b => (u.liveIn b.blocks).length) (u.fss.bands.filter u.mayEmpty) = some b →
       exec .garbageCollection s = .next (u.emptyBand b .gc)) ∧
     (leastBand (fun b => (u.liveIn b.blocks).length) (u.fss.bands.filter u.mayEmpty) = none → exec .garbageCollection s = .next u)) ∧
   (∀ (s : State), s.running = true → s.nandOpen = true → 8 ≤ s.freeBands → (s.fss.gcOn = false ∨ 12 ≤ s.freeBands) →
     exec .garbageCollection s = .next { s with fss := { s.fss with gcOn := false } }) ∧
   (∀ (s : State), (s.running = false ∨ s.nandOpen = false) → exec .garbageCollection s = .next s) ∧
   (∀ (die : Fin 16) (s : State), (leastBy (fun b => (s.block die.val b).erases) (s.wearBlocks die.val) = none ∨
     ∃ b, leastBy (fun b => (s.block die.val b).erases) (s.wearBlocks die.val) = some b ∧
       s.fss.bands.find? (fun x => x.blocks.contains (die.val, b) && s.mayEmpty x) = none) → exec (.staticWearLevelling die) s = .next s) ∧
   (∀ (die : Fin 16) (s : State) (b : Nat) (x : Band), s.running = true → s.nandOpen = true → s.goodDies.contains die.val = true →
     Cf.FSS_WL_spread s < s.eraseSpread die.val → leastBy (fun b => (s.block die.val b).erases) (s.wearBlocks die.val) = some b →
     s.fss.bands.find? (fun x => x.blocks.contains (die.val, b) && s.mayEmpty x) = some x →
     exec (.staticWearLevelling die) s = .next (s.emptyBand x .cold)) ∧
   (∀ (die : Fin 16) (s : State), (s.nandOpen = false ∨ s.goodDies.contains die.val = false ∨ s.eraseSpread die.val ≤ Cf.FSS_WL_spread s) →
     exec (.staticWearLevelling die) s = .next s) ∧
   (∀ (die : Fin 16) (s u : State), s.running = true → (s.die die.val).present = true → (s.die die.val).failed = false →
     u = s.modDie die.val (fun x => { x with busy := x.busy + 1 }) →
     (2 ≤ (u.die die.val).busy → exec (.dieBusyTimeout die) s = .next (u.dieFail die.val)) ∧
     ((u.die die.val).busy < 2 → exec (.dieBusyTimeout die) s = .next (u.emit (.nand die.val .syncReset)))) ∧
   (∀ (die : Fin 16) (s : State), ((s.die die.val).present = false ∨ (s.die die.val).failed = true) → exec (.dieBusyTimeout die) s = .next s) ∧
   (∀ (seen : List (Nat × NandRead)) (s u : State), s.running = true → s.fss.dieRebuild = true → s.nandOpen = true →
     u = forEach s.onFailed (fun p t => if t.running then t.rebuildUnit seen p else t) s →
     exec (.dieRebuildDone seen) s = .next { u with fss := { u.fss with dieRebuild := !u.onFailed.isEmpty } }) ∧
   (∀ (seen : List (Nat × NandRead)) (s : State) (p : Nat),
     (seenRead seen p = .lost → s.rebuildUnit seen p = s.loseUnit p) ∧
     (seenRead seen p = .clean → (s.moveLive .gc p).isLive p = false → s.rebuildUnit seen p =
       { s.moveLive .gc p with fss := { (s.moveLive .gc p).fss with rebuilt := inc16 (s.moveLive .gc p).fss.rebuilt } })) ∧
   (∀ (seen : List (Nat × NandRead)) (s : State), (s.fss.dieRebuild = false ∨ s.nandOpen = false) → exec (.dieRebuildDone seen) s = .next s) ∧
   (∀ s : State, s.running = true → exec .zqCalibration s =
     .next { s with out := ((List.range 2).filter (fun c => decide ((nth NandMode.reset s.fss.modes c).kind = .ddr3))).reverse.map Emit.zqCal ++ s.out }))

/-- Servo samples and the timers of the servo and the sled. SERVO_SAMPLE on time judges the source, computes the tick of its axis
and notes its time; a focus or tracking axis whose source fault is held neither ends its run of late samples nor, tracking,
computes; a sample not on time changes nothing. SERVO_SAMPLE_DEADLINE of an axis that computes counts the late sample with its
alarm, closes the gate that a late focus or tracking sample leaves open, and opens the axis at the third in a row; of one that does
not compute it changes nothing. LIMIT_GROUP_SAMPLE computes the group named. RATE_METER_BIN puts the bytes counted in front of the
last nine bins, shows a thousandth of their sum and counts from 0 again. SOURCE_FAULT_HOLD_EXPIRY ends the hold of a source fault
whose hold time has passed. BOOST_DECAY lowers the boost by one step after decay_s seconds without a declaration.
SLED_ARRIVAL_REPORT takes off a report whose time has come and, in a long seek, closes tracking. Before those times nothing changes.
Its clauses that rest on a choice or deduction of the model do so by log entries 3, 43 and 65. Rests on 10_servo_engine.md R339,
10_servo_engine.md R359, 10_servo_engine.md R365, 10_servo_engine.md R366, 10_servo_engine.md R356, 10_servo_engine.md R357,
10_servo_engine.md R363, 12_sled_drive.md R403, 12_sled_drive.md R410. -/
def Obligations.ServoSamplesAndTimers : Prop :=
  ((∀ (a : Axis) (adc : List Pickup) (since : Nat) (ns : BitVec 16) (s u t : State) (held : Bool), s.serving = true →
     s.onTimeBy a.val ns.toNat = true → u = s.judgeSource a.val → held = (decide (a.val % 4 < 2) && u.defHeld a.val) →
     t = (if a.val % 4 = 0 then u.focTick (a.val / 4) adc else if a.val % 4 = 1 then (if held then u else u.trkSample (a.val / 4))
       else if a.val % 4 = 2 then u.spnSample (a.val / 4) since else u.sldSample (a.val / 4)).noteTime a.val ns.toNat →
     (held = true → exec (.servoSample a adc since ns) s = .next t.settle) ∧
     (held = false → exec (.servoSample a adc since ns) s = .next (t.modAxis a.val (fun x => { x with lateRun := 0 })).settle)) ∧
   (∀ (a : Axis) (adc : List Pickup) (since : Nat) (ns : BitVec 16) (s : State), s.onTimeBy a.val ns.toNat = false →
     exec (.servoSample a adc since ns) s = .next s) ∧
   (∀ (a : Axis) (ns : BitVec 16) (s u w : State), s.serving = true → (s.axis a.val).computes = true →
     u = (s.modAxis a.val (fun x => { x with lateRun := min 3 (x.lateRun + 1), lateCnt := inc16 x.lateCnt, onTime := 0 })).alarmRise 4 →
     w = (if decide (a.val % 4 < 2) && (u.drive (a.val / 4)).wst.gate then u.closeGate (a.val / 4) else u) →
     (2 ≤ (s.axis a.val).lateRun → (s.axis a.val).st ≠ .lateOpen →
       exec (.servoSampleDeadline a ns) s = .next ((w.lateOpen a.val ns.toNat).settle)) ∧
     ((s.axis a.val).lateRun < 2 ∨ (s.axis a.val).st = .lateOpen → exec (.servoSampleDeadline a ns) s = .next w.settle)) ∧
   (∀ (a : Axis) (ns : BitVec 16) (s : State), (s.axis a.val).computes = false → exec (.servoSampleDeadline a ns) s = .next s) ∧
   (∀ (d : Fin 4) (ma : BitVec 16) (s : State), s.serving = true →
     exec (.limitGroupSample d true ma) s = .next (s.laserGroup d.val) ∧
     exec (.limitGroupSample d false ma) s = .next (s.spinGroup d.val ma.toNat))) ∧
  ((∀ s : State, s.serving = true → Answers .rateMeterBin s [.rate] (fun t =>
       t.rate.acc = 0 ∧ t.rate.bins = (s.rate.acc :: s.rate.bins).take 10 ∧ t.rate.bins.length ≤ 10 ∧
       t.rate.kbs = ((s.rate.acc :: s.rate.bins).take 10).foldl (fun a b => a + b) 0 / 1000)) ∧
   (∀ (a : Axis) (s : State), s.serving = true →
     ((s.axis a.val).srcFault = true → (s.axis a.val).faultSince + Cf.SRV_SP_CFG_hold_ms s a.val ≤ s.tm.mono →
       exec (.sourceFaultHoldExpiry a) s = .next (s.modAxis a.val (fun x => { x with heldOver := true }))) ∧
     ((s.axis a.val).srcFault = false ∨ s.tm.mono < (s.axis a.val).faultSince + Cf.SRV_SP_CFG_hold_ms s a.val →
       exec (.sourceFaultHoldExpiry a) s = .next s)) ∧
   (∀ (d : Fin 4) (s : State), s.serving = true →
     ((s.drive d.val).sled.lastDecl + 1000 * Cf.SLD_CUR2_decay_s s d.val ≤ s.tm.mono → Answers (.boostDecay d) s [.drives] (fun t =>
       ∃ g : Sled → Sled, t = s.modSled d.val g ∧
         ∀ l, g l = { l with boost := l.boost - Cf.SLD_CUR2_step s d.val, lastDecl := s.tm.mono })) ∧
     (s.tm.mono < (s.drive d.val).sled.lastDecl + 1000 * Cf.SLD_CUR2_decay_s s d.val → exec (.boostDecay d) s = .next s)) ∧
   (∀ (d : Fin 4) (s : State), s.serving = true →
     (∀ t u, (s.drive d.val).sled.report = some t → t ≤ s.tm.mono → u = s.modSled d.val (fun l => { l with report := none }) →
       ((u.drive d.val).seq ≠ .long → exec (.sledArrivalReport d) s = .next u) ∧
       ((u.drive d.val).seq = .long → exec (.sledArrivalReport d) s = .next
         (((u.modDrive d.val (fun r => { r with seq := .none, confirm := true, landed := true, track := r.target })).closeAxis (axisOf d.val 1)).settle))) ∧
     ((s.drive d.val).sled.report = none ∨ (∃ t, (s.drive d.val).sled.report = some t ∧ s.tm.mono < t) →
       exec (.sledArrivalReport d) s = .next s)))

/-- Commands on a servo axis. While the block serves commands: SWAP with its bit 1 makes the exchange of banks pending for that
axis; OPEN takes the axis under host control and opens it; CLOSE takes it and closes it, but changes nothing more of an axis that
ramps or is closed and of a spindle axis whose spindle does not run; ACQUIRE opens a closed focus axis and acquires the layer;
LAYER_JUMP of a focus axis that ramps or is closed opens tracking and begins the kick from the present output; LAYER_JUMP_TIMEOUT
acquires the target layer once the limit has passed; RELEASE_TO_HERON ends host control of that axis. Its clauses that rest on a
choice or deduction of the model do so by log entries 2 and 43. Rests on 10_servo_engine.md R348, 10_servo_engine.md R350,
10_servo_engine.md R351, 10_servo_engine.md R352, 10_servo_engine.md R360, 10_servo_engine.md R361. -/
def Obligations.AxisCommands : Prop :=
  (∀ (a : Axis) (v : Word) (s : State), s.serving = true →
    (fld v 0 1 = 1 → exec (.swap a v) s = .next (s.modAxis a.val (fun x => { x with swapPending := true }))) ∧
    (fld v 0 1 = 0 → exec (.swap a v) s = .next s)) ∧
  (∀ (a : Axis) (s : State), s.serving = true → exec (.openAxis a) s = .next (((s.take a.val).openAxis a.val .opened).settle)) ∧
  (∀ (a : Axis) (s u : State), s.serving = true → u = s.take a.val →
    ((u.axis a.val).st = .ramp ∨ (u.axis a.val).st = .closed ∨ (a.val % 4 = 2 ∧ (u.drive (a.val / 4)).spin.st ≠ .run) →
      exec (.closeAxis a) s = .next u) ∧
    ((u.axis a.val).st ≠ .ramp → (u.axis a.val).st ≠ .closed → (a.val % 4 = 2 → (u.drive (a.val / 4)).spin.st = .run) →
      (a.val % 4 = 0 → exec (.closeAxis a) s = .next (u.closeFoc (a.val / 4) (u.drive (a.val / 4)).layer).settle) ∧
      (a.val % 4 ≠ 0 → exec (.closeAxis a) s = .next (u.closeAxis a.val).settle))) ∧
  (∀ (d : Fin 4) (layer : Fin 2) (s u : State), s.serving = true → u = s.take (axisOf d.val 0) →
    (((u.drive d.val).axis 0).st = .ramp ∨ ((u.drive d.val).axis 0).st = .closed →
      exec (.acquire d layer) s = .next ((u.openFoc d.val .opened).acquire d.val layer.val).settle) ∧
    (((u.drive d.val).axis 0).st ≠ .ramp → ((u.drive d.val).axis 0).st ≠ .closed →
      exec (.acquire d layer) s = .next (u.acquire d.val layer.val).settle)) ∧
  (∀ (d : Fin 4) (layer : Fin 2) (s u : State), s.serving = true → u = s.take (axisOf d.val 0) →
    ((u.axis (axisOf d.val 0)).st = .ramp ∨ (u.axis (axisOf d.val 0)).st = .closed → exec (.layerJump d layer) s =
      .next ((((u.openTrk d.val .opened).modDrive d.val (fun r => { r with seq := .jump layer.val .kick 0 0 (u.axis (axisOf d.val 0)).out })).modAxis
        (axisOf d.val 0) (fun x => { x with st := .seq, locked := false, lockCnt := 0 })).settle)) ∧
    ((u.axis (axisOf d.val 0)).st ≠ .ramp → (u.axis (axisOf d.val 0)).st ≠ .closed → exec (.layerJump d layer) s = .next u)) ∧
  (∀ (d : Fin 4) (s : State) (layer : Nat) (ph : JumpStep) (t all : Nat) (base : Int), s.serving = true →
    (s.drive d.val).seq = .jump layer ph t all base →
    (Cf.SRV_JUMP2_tmo_us s (axisOf d.val 0) ≤ 5 * all → exec (.layerJumpTimeout d) s = .next (s.acquire d.val layer).settle) ∧
    (5 * all < Cf.SRV_JUMP2_tmo_us s (axisOf d.val 0) → exec (.layerJumpTimeout d) s = .next s)) ∧
  (∀ (a : Axis) (s : State), s.serving = true → exec (.releaseToHeron a) s = .next (s.modAxis a.val (fun x => { x with manual := false })))

/-- Motion, coil protection and commands of the sled. SLED_PLAN_TICK of a faulted sled drives only the coils; an unpowered or
holding one begins to follow where the axis is closed, homed stands and power is good; of a following one it takes the following
tick; of a homing, travelling or seeking one it takes the next position and speed of the plan and notes an arrival, and of one that
stops it brakes. SLED_TICK_LATE stops the plan, counts the tick and clears homed of a sled that moved faster than v_min.
SLED_REREFERENCE with no anchor sets it, within the tolerance it moves it, and outside the tolerance it declares lost steps and
faults the sled past the allowed number; after a late tick alone it also sets homed again; of a sled neither holding nor following,
or with no calibration, it changes nothing. SLED_OVERCURRENT cuts the phase; OPEN_COIL faults a driven sled after 100 low periods in
a row. TRAVEL and SEEK of a sled that may move begin the move to the target register, PARK to the park position, and are refused
otherwise. HOME is refused in FAULT, while homing or travelling and without power, and begins otherwise. STOP makes a moving sled
brake and changes no other. RELEASE under host control of a sled not in FAULT turns the bridges off, clears homed and ends every
move, and is refused otherwise. CLEAR takes FAULT to OFF with its causes cleared and changes no other state. Its clauses that rest
on a choice or deduction of the model do so by log entries 3 and 65. Rests on 12_sled_drive.md R407, 12_sled_drive.md R410,
12_sled_drive.md R414, 12_sled_drive.md R416, 12_sled_drive.md R422, 12_sled_drive.md R406, 12_sled_drive.md R417, 12_sled_drive.md
R418. -/
def Obligations.SledMotionAndCommands : Prop :=
  ((∀ (d : Fin 4) (s : State), s.serving = true → (s.drive d.val).sled.st = .fault →
     exec (.sledPlanTick d) s = .next (s.coils d.val (s.drive d.val).sled.pos).settle) ∧
   (∀ (d : Fin 4) (s : State) (l : Sled) (p v an : Int) (arr : Bool), s.serving = true → l = (s.drive d.val).sled →
     (l.st = .travel ∨ l.st = .seek) → l.stopping = false →
     planTick (decide (l.st = .travel)) l.p l.v (l.tgt * 65536) (s.sldA d.val) (perTick (Cf.SLD_MOT_v_max s d.val))
       (perTick (Cf.SLD_MOT3_v_min s d.val)) = (p, v, an, arr) → ∀ u, u = s.modSled d.val (fun l => { l with p := p, v := v, a := an }) →
     exec (.sledPlanTick d) s = .next (((if arr then u.sledArrived d.val else u).coils d.val l.pos).settle)) ∧
   (∀ (d : Fin 4) (s : State) (l : Sled) (cl : Bool), s.serving = true → l = (s.drive d.val).sled → cl = decide (((s.drive d.val).axis 3).st = .closed) →
     (l.st = .off → exec (.sledPlanTick d) s = .next ((if cl && l.homed && s.pgood then s.modSled d.val (fun l => { l with st := .follow, a := 0 })
       else s).coils d.val l.pos).settle) ∧
     (l.st = .hold → exec (.sledPlanTick d) s = .next ((if cl && l.homed && s.pgood then s.modSled d.val (fun l => { l with st := .follow, a := 0 })
       else s.modSled d.val (fun l => { l with v := 0, a := 0 })).coils d.val l.pos).settle) ∧
     (l.st = .follow → exec (.sledPlanTick d) s =
       .next ((if l.stopping || !cl || !s.pgood then s.brakeTick d.val else s.followTick d.val).coils d.val l.pos).settle) ∧
     ((l.st = .homing ∨ l.st = .travel ∨ l.st = .seek) → l.stopping = true →
       exec (.sledPlanTick d) s = .next ((s.brakeTick d.val).coils d.val l.pos).settle) ∧
     (l.st = .homing → l.stopping = false → l.home = 3 → exec (.sledPlanTick d) s =
       .next ((if l.wait ≤ 1 then s.modSled d.val (fun l => { l with home := 4, wait := 0, tgt := Cf.SLD_MECH_LEAD_pos_lead s d.val })
         else s.modSled d.val (fun l => { l with wait := l.wait - 1 })).coils d.val l.pos).settle) ∧
     (l.st = .homing → l.stopping = false → l.home ≠ 3 → ∀ p v an arr u,
       planTick true l.p l.v (l.tgt * 65536) (s.sldA d.val) (if l.home = 2 then perTick (Cf.SLD_HOME_v_home s d.val) else perTick (Cf.SLD_MOT_v_max s d.val))
         (perTick (Cf.SLD_MOT3_v_min s d.val)) = (p, v, an, arr) → u = s.modSled d.val (fun l => { l with p := p, v := v, a := an }) →
       exec (.sledPlanTick d) s = .next (((if arr then u.sledArrived d.val else u).coils d.val l.pos).settle))) ∧
   (∀ (d : Fin 4) (s : State), s.serving = true → ∀ fast l, l = (s.drive d.val).sled →
     fast = ((l.st = .homing ∨ l.st = .follow ∨ l.st = .travel ∨ l.st = .seek) ∧ perTick (Cf.SLD_MOT3_v_min s d.val) < (l.v.natAbs : Int)) →
     Answers (.sledTickLate d) s [.out, .log, .nvm, .nvs, .inst, .fn, .fss, .arc, .drives, .stl] (fun t => ∃ g : Sled → Sled, t = (s.modSled d.val g).alarmRise 4 ∧
       ∀ k, (g k).v = 0 ∧ (g k).a = 0 ∧ (g k).late = inc16 k.late ∧ (fast → (g k).homed = false) ∧ (¬ fast → (g k).homed = k.homed))) ∧
   (∀ (d : Fin 4) (k : Fin 567840) (s : State) (r : Machine.Drive) (rk : Int), s.serving = true → r = s.drive d.val →
     rk = s.slotRadius d.val r.layer k.val →
     ((r.sled.st ≠ .hold ∧ r.sled.st ≠ .follow) ∨ s.zoneW d.val r.layer 0 = 0 ∨ Cf.SLD_MECH_NM_nm16 s d.val = 0 → exec (.sledRereference d k) s = .next s) ∧
     ((r.sled.st = .hold ∨ r.sled.st = .follow) → s.zoneW d.val r.layer 0 ≠ 0 → Cf.SLD_MECH_NM_nm16 s d.val ≠ 0 →
       (r.sled.anchored = false → exec (.sledRereference d k) s = .next (s.modSled d.val (fun l =>
           { l with anchored := true, anchorP := l.pos, anchorR := rk, homed := l.homed || l.lateOnly, lateOnly := false }))) ∧
       (∀ (u : State) (pe : Int), u = (if r.sled.lateOnly then s.modSled d.val (fun l => { l with homed := true, lateOnly := false }) else s) →
         pe = s.slotPos d.val r.layer k.val → r.sled.anchored = true →
         ((r.sled.pos - pe).natAbs ≤ Cf.SLD_LOST_tol u d.val →
           exec (.sledRereference d k) s = .next (u.modSled d.val (fun l => { l with anchorP := l.pos, anchorR := rk }))) ∧
         (∀ times v, Cf.SLD_LOST_tol u d.val < (r.sled.pos - pe).natAbs →
           times = (u.tm.mono :: r.sled.lostTimes).filter (fun t => u.tm.mono < t + 600000) →
           v = (u.modSled d.val (fun l =>
             { l with p := pe * 65536, anchorP := pe, anchorR := rk, lost := inc16 l.lost, err := r.sled.pos - pe, lostTimes := times, lastDecl := u.tm.mono,
                      boost := min (Cf.SLD_CUR_i_max u d.val - Cf.SLD_CUR_i_hold u d.val) (l.boost + Cf.SLD_CUR2_step u d.val) })).note .stepsLost d.val →
           exec (.sledRereference d k) s = .next (if Cf.SLD_LOST_max v d.val < times.length then v.sledFault d.val 4 else v))))) ∧
   (∀ (d : Fin 4) (b : Bool) (s : State), s.serving = true → exec (.sledOvercurrent d b) s = .next (s.sledOver d.val b)) ∧
   (∀ (d : Fin 4) (b : Bool) (s : State) (l : Sled), s.serving = true → l = (s.drive d.val).sled →
     (l.st ≠ .off → l.st ≠ .fault → 100 ≤ (if b then l.openB else l.openA) →
       exec (.openCoil d b) s = .next (s.sledFault d.val (if b then 2 else 1))) ∧
     (l.st = .off ∨ l.st = .fault ∨ (if b then l.openB else l.openA) < 100 → exec (.openCoil d b) s = .next s))) ∧
  ((∀ (d : Fin 4) (s : State), s.serving = true →
     (s.sledMayMove d.val = true →
       exec (.travel d) s = .next (s.sledMove d.val .travel (Cf.SLD_TGT_target s d.val)).settle ∧
       exec (.sledSeek d) s = .next (s.sledMove d.val .seek (Cf.SLD_TGT_target s d.val)).settle ∧
       exec (.park d) s = .next ((s.sledMove d.val .travel (Cf.SLD_MECH_PARK_park s d.val)).modSled d.val (fun l => { l with parking := true })).settle) ∧
     (s.sledMayMove d.val = false → exec (.travel d) s = .next (s.sledRefuse d.val) ∧ exec (.sledSeek d) s = .next (s.sledRefuse d.val) ∧
       exec (.park d) s = .next (s.sledRefuse d.val))) ∧
   (∀ (d : Fin 4) (s : State) (l : Sled), s.serving = true → l = (s.drive d.val).sled →
     ((l.st = .fault ∨ l.st = .homing ∨ l.st = .travel ∨ s.pgood = false) → exec (.home d) s = .next (s.sledRefuse d.val)) ∧
     (l.st ≠ .fault → l.st ≠ .homing → l.st ≠ .travel → s.pgood = true → exec (.home d) s = .next (s.sledHome d.val).settle)) ∧
   (∀ (d : Fin 4) (s : State), s.serving = true → Answers (.sledStop d) s [.drives] (fun t => ∃ g : Sled → Sled, t = s.modSled d.val g ∧
       ∀ l, g l = if l.st = .homing ∨ l.st = .follow ∨ l.st = .travel ∨ l.st = .seek then { l with stopping := true } else l)) ∧
   (∀ (d : Fin 4) (s : State), s.serving = true →
     (((s.drive d.val).axis 3).manual = true → (s.drive d.val).sled.st ≠ .fault → Answers (.sledRelease d) s [.out, .log, .nvm, .nvs, .fn, .drives] (fun t =>
       ∃ g : Sled → Sled, t = s.modSled d.val g ∧ ∀ l, (g l).st = .off ∧ (g l).homed = false ∧ (g l).v = 0 ∧ (g l).a = 0 ∧ (g l).iA = 0 ∧
         (g l).iB = 0 ∧ (g l).stopping = false ∧ (g l).parking = false ∧ (g l).report = none ∧ (g l).p = l.p)) ∧
     (((s.drive d.val).axis 3).manual = false ∨ (s.drive d.val).sled.st = .fault → exec (.sledRelease d) s = .next (s.sledRefuse d.val))) ∧
   (∀ (d : Fin 4) (s : State), s.serving = true → Answers (.sledClear d) s [.drives] (fun t => ∃ g : Sled → Sled, t = s.modSled d.val g ∧
       ∀ l, (l.st ≠ .fault → g l = l) ∧ (l.st = .fault → (g l).st = .off ∧ (g l).fault = 0 ∧ (g l).cutA = 0 ∧ (g l).cutB = 0 ∧ (g l).p = l.p ∧
         (g l).homed = l.homed))))

/-- Commands to the spindle. START of a stopped spindle requests the start and is ignored and logged in any other state. STOP is
ignored of a stopped or faulted spindle and requests the stop of another. COAST is ignored in FAULT and stops any other. CLEAR_FAULT
ends a fault with its codes and retries cleared and is ignored otherwise, with a log entry as every ignored command.
DRIVE_START_SEQUENCE with door and tray closed and DRAM usable notes the disc and requests the spindle; under host control of the
spindle or with one not stopped it homes a sled that is not homed; otherwise it changes nothing. Its clauses that rest on a choice
or deduction of the model do so by log entry 3. Rests on 11_spindle_drive.md R375, 11_spindle_drive.md R376, 12_sled_drive.md R406,
10_servo_engine.md R350. -/
def Obligations.SpindleCommands : Prop :=
  (∀ (d : Fin 4) (s : State), s.serving = true →
    ((s.drive d.val).spin.st = .stopped → exec (.spinStart d) s = .next (s.spinRequest d.val).settle ∧
      exec (.spinStop d) s = .next (s.spinIgnore d.val 2) ∧ exec (.coast d) s = .next (s.spinStopped d.val).settle ∧
      exec (.clearFault d) s = .next (s.spinIgnore d.val 4)) ∧
    ((s.drive d.val).spin.st ≠ .stopped → exec (.spinStart d) s = .next (s.spinIgnore d.val 1)) ∧
    ((s.drive d.val).spin.st ≠ .stopped → (s.drive d.val).spin.st ≠ .fault →
      exec (.spinStop d) s = .next (s.spinStopReq d.val).settle ∧ exec (.coast d) s = .next (s.spinStopped d.val).settle ∧
      exec (.clearFault d) s = .next (s.spinIgnore d.val 4)) ∧
    ((s.drive d.val).spin.st = .fault → exec (.spinStop d) s = .next (s.spinIgnore d.val 2) ∧
      exec (.coast d) s = .next (s.spinIgnore d.val 3) ∧ exec (.clearFault d) s =
        .next ((s.spinStopped d.val).modSpin d.val (fun p => { p with fault := 0, keFault := false, retries := 0 })).settle)) ∧
  (∀ (d : Fin 4) (s u : State), s.serving = true → s.shut d.val = true → s.boot.dramFail = false →
    u = s.modDrive d.val (fun r => { r with disc := true, starting := true }) →
    (((u.drive d.val).axis 2).manual = false → (u.drive d.val).spin.st = .stopped →
      exec (.driveStartSequence d) s = .next (u.spinRequest d.val).settle) ∧
    (((u.drive d.val).axis 2).manual = true ∨ (u.drive d.val).spin.st ≠ .stopped → exec (.driveStartSequence d) s =
      .next (if (u.drive d.val).sled.homed then u else u.sledHome d.val).settle)) ∧
  (∀ (d : Fin 4) (s : State), (s.shut d.val = false ∨ s.boot.dramFail = true) → exec (.driveStartSequence d) s = .next s)

/-- Finding the rotor, forced commutation and crossings. In DETECT with six currents: a largest current above the second by the
margin starts the rotor two steps on from it; an ambiguous run is counted, and the third aligns the rotor. ALIGNMENT_DONE starts an
aligned rotor at step 2. FORCED_COMMUTATION in START advances one step, with the start current now in force. An accepted
ZERO_CROSSING is a commutation event and, in START with the sixth in a row at the handover speed, hands over to RUN; in RUN it
counts towards the revolution, and locked also towards the speed constant; a crossing of the wrong slope, outside its window or in
another state changes nothing. COMMUTATION in RUN advances a step that is due. Its clauses that rest on a choice or deduction of the
model do so by log entries 2, 3 and 64. Rests on 11_spindle_drive.md R377, 11_spindle_drive.md R378, 11_spindle_drive.md R379,
11_spindle_drive.md R380, 11_spindle_drive.md R381. -/
def Obligations.SpindleStart : Prop :=
  (∀ (d : Fin 4) (currents : List Nat) (s : State) (k top : Nat), s.serving = true → (s.drive d.val).spin.st = .detect →
    (s.drive d.val).spin.aligning = false → currents.length = 6 → largest currents = (k, top) →
    ((largest (currents.eraseIdx k)).2 * (100 + Cf.SPN_IPD_margin s d.val) ≤ top * 100 →
      exec (.rotorDetectDone d currents) s = .next (s.spinStart d.val ((k + 2) % 6))) ∧
    (top * 100 < (largest (currents.eraseIdx k)).2 * (100 + Cf.SPN_IPD_margin s d.val) → (s.drive d.val).spin.detRuns < 2 →
      exec (.rotorDetectDone d currents) s = .next (s.modSpin d.val (fun p => { p with detRuns := p.detRuns + 1 }))) ∧
    (top * 100 < (largest (currents.eraseIdx k)).2 * (100 + Cf.SPN_IPD_margin s d.val) → 2 ≤ (s.drive d.val).spin.detRuns →
      exec (.rotorDetectDone d currents) s =
        .next ((s.modSpin d.val (fun p => { p with aligning := true, detRuns := 3, step := 0 })).note .rotorAligned d.val))) ∧
  (∀ (d : Fin 4) (s : State), s.serving = true →
    ((s.drive d.val).spin.st = .detect → (s.drive d.val).spin.aligning = true → exec (.alignmentDone d) s = .next (s.spinStart d.val 2)) ∧
    ((s.drive d.val).spin.st ≠ .detect → exec (.alignmentDone d) s = .next s ∧ ∀ l, exec (.rotorDetectDone d l) s = .next s) ∧
    ((s.drive d.val).spin.st = .start → ∃ g : Spindle → Spindle, exec (.forcedCommutation d) s = .next (s.modSpin d.val g) ∧
      ∀ p, (g p).step = (p.step + 1) % 6 ∧ (g p).iStart = Cf.SPN_START_i_start s d.val ∧ (g p).due = false ∧ (g p).crossRun = (if p.due then p.crossRun else 0) ∧ p.forced ≤ (g p).forced ∧
        (g p).st = p.st) ∧
    ((s.drive d.val).spin.st ≠ .start → exec (.forcedCommutation d) s = .next s) ∧
    ((s.drive d.val).spin.st = .run → (s.drive d.val).spin.due = true →
      exec (.commutation d) s = .next (s.modSpin d.val (fun p => { p with step := (p.step + 1) % 6, due := false }))) ∧
    ((s.drive d.val).spin.st ≠ .run ∨ (s.drive d.val).spin.due = false → exec (.commutation d) s = .next s)) ∧
  (∀ (d : Fin 4) (dt : Nat) (rising : Bool) (sample : Int) (s : State) (p : Spindle), s.serving = true → p = (s.drive d.val).spin →
    rising = decide (p.step % 2 = 1) → s.crossOk d.val dt = true →
    (p.st = .start → 6 ≤ p.crossRun + 1 → 1000 * Cf.SPN_START2_handover (s.commEvent d.val dt) d.val ≤ p.forced →
      exec (.zeroCrossing d dt rising sample) s = .next ((s.commEvent d.val dt).handOver d.val).settle) ∧
    (p.st = .start → (p.crossRun + 1 < 6 ∨ p.forced < 1000 * Cf.SPN_START2_handover (s.commEvent d.val dt) d.val) → exec (.zeroCrossing d dt rising sample) s = .next (s.commEvent d.val dt).settle) ∧
    (p.st = .run → p.locked = false →
      exec (.zeroCrossing d dt rising sample) s = .next (((s.commEvent d.val dt).revolution d.val).spinReach d.val).settle) ∧
    (p.st = .run → p.locked = true → ∀ u v, u = s.commEvent d.val dt →
      v = (if 0 ≤ (u.drive d.val).spnGroup.demand then u.modSpin d.val (fun p =>
        { p with keSum := p.keSum + sample.natAbs * Cf.SPN_BEMF_div u d.val / 256, keNum := p.keNum + 1 }) else u) →
      exec (.zeroCrossing d dt rising sample) s = .next ((v.revolution d.val).spinReach d.val).settle)) ∧
  (∀ (d : Fin 4) (dt : Nat) (rising : Bool) (sample : Int) (s : State), (s.crossOk d.val dt = false ∨
      rising ≠ decide ((s.drive d.val).spin.step % 2 = 1) ∨ ((s.drive d.val).spin.st ≠ .start ∧ (s.drive d.val).spin.st ≠ .run)) → exec (.zeroCrossing d dt rising sample) s = .next s)

/-- Current, braking, locked rotor, rotor loss and idling of the spindle. SPINDLE_OVERCURRENT cuts the drive. CARRIER_PERIOD of the
spindle adds to the power sums, cuts at the overcurrent limit and at full scale and otherwise takes the next duty; of the sled it
takes the currents of its phases. BRAKE_PROBE in BRAKE ends the braking at the second slow estimate in a row and forgets a slow one
after a fast one. BRAKE_TIMEOUT ends the braking with a log entry. LOCKED_ROTOR_TIMEOUT stops a starting or running spindle and
waits; LOCKED_ROTOR_RETRY starts it again while retries are left, and faults it with code 1 after them. SPINDLE_IDLE_TIMEOUT brakes
an idle spindle after its time. In RUN the first crossing missed is counted with commutation going on, and the second in a row is a
loss of the rotor; in another state a miss changes nothing. ROTOR_REACQUIRED with five steady intervals of a lost rotor brakes for a
restart below half the held speed, and otherwise goes on in RUN with the step and the intervals found. REACQUISITION_TIMEOUT of a
lost rotor, or of one found again whose axis is still open for late samples, brakes for a restart. Its clauses that rest on a choice
or deduction of the model do so by log entries 2, 3, 64 and 65. Rests on 11_spindle_drive.md R383, 11_spindle_drive.md R389,
11_spindle_drive.md R390, 11_spindle_drive.md R392, 11_spindle_drive.md R397, 11_spindle_drive.md R393, 11_spindle_drive.md R394,
11_spindle_drive.md R398. -/
def Obligations.SpindleCurrentBrakeAndLoss : Prop :=
  ((∀ (d : Fin 4) (s : State), s.serving = true → exec (.spindleOvercurrent d) s = .next (s.spinOver d.val).settle) ∧
   (∀ (d : Fin 4) (ma mb : BitVec 16) (s u : State), s.serving = true →
     u = s.modSpin d.val (fun p => { p with pSum := p.pSum + ma.toNat * p.duty, pNum := p.pNum + 1 }) →
     exec (.carrierPeriod d true ma mb) s = .next (s.sledPeriod d.val ma.toNat mb.toNat) ∧
     (Cf.SPN_PROT_ioc u d.val < ma.toNat ∨ (Cf.SPN_IFS_ma u d.val ≠ 0 ∧ Cf.SPN_IFS_ma u d.val ≤ ma.toNat) → exec (.carrierPeriod d false ma mb) s = .next (u.spinOver d.val).settle) ∧
     (ma.toNat ≤ Cf.SPN_PROT_ioc u d.val → (Cf.SPN_IFS_ma u d.val = 0 ∨ ma.toNat < Cf.SPN_IFS_ma u d.val) → exec (.carrierPeriod d false ma mb) s =
       .next (u.modSpin d.val (fun p => { p with duty := u.nextDuty d.val ma.toNat, cuts := 0 })))) ∧
   (∀ (d : Fin 4) (uv : Nat) (s : State) (slow : Prop), s.serving = true → (s.drive d.val).spin.st = .brake →
     slow = (uv * Cf.SPN_BEMF_div s d.val / 256 < 60 * Cf.SPN_KE_nom s d.val) →
     (slow → 1 ≤ (s.drive d.val).spin.probes → exec (.brakeProbe d uv) s = .next (s.brakeEnds d.val).settle) ∧
     (slow → (s.drive d.val).spin.probes = 0 → exec (.brakeProbe d uv) s = .next (s.modSpin d.val (fun p => { p with probes := p.probes + 1 }))) ∧
     (¬ slow → exec (.brakeProbe d uv) s = .next (s.modSpin d.val (fun p => { p with probes := 0 }))) ∧
     exec (.brakeTimeout d) s = .next ((s.brakeEnds d.val).note .brakeTimeout d.val).settle) ∧
   (∀ (d : Fin 4) (s : State), (s.drive d.val).spin.st ≠ .brake → exec (.brakeTimeout d) s = .next s ∧
     ∀ uv, exec (.brakeProbe d uv) s = .next s) ∧
   (∀ (d : Fin 4) (s : State), s.serving = true →
     ((s.drive d.val).spin.st = .start ∨ (s.drive d.val).spin.st = .run → exec (.lockedRotorTimeout d) s =
       .next (((s.spinStopped d.val).modSpin d.val (fun p => { p with waiting := true, lockedCnt := inc16 p.lockedCnt })).note .rotorLocked
         d.val).settle) ∧
     ((s.drive d.val).spin.st ≠ .start → (s.drive d.val).spin.st ≠ .run → exec (.lockedRotorTimeout d) s = .next s) ∧
     ((s.drive d.val).spin.st = .stopped → (s.drive d.val).spin.waiting = true →
       ((s.drive d.val).spin.retries < Cf.SPN_START_retries s d.val → exec (.lockedRotorRetry d) s =
         .next ((s.modSpin d.val (fun p => { p with retries := p.retries + 1 })).spinWait d.val).settle) ∧
       (Cf.SPN_START_retries s d.val ≤ (s.drive d.val).spin.retries → exec (.lockedRotorRetry d) s = .next (s.spinFault d.val 1).settle)) ∧
     ((s.drive d.val).spin.st ≠ .stopped ∨ (s.drive d.val).spin.waiting = false → exec (.lockedRotorRetry d) s = .next s)) ∧
   (∀ (d : Fin 4) (s : State), s.serving = true →
     ((s.drive d.val).spin.st = .run → Cf.SPN_CTL_idle_s s d.val ≠ 0 → s.driveBusy d.val = false →
       (s.drive d.val).spin.lastWork + 1000 * Cf.SPN_CTL_idle_s s d.val ≤ s.tm.mono → exec (.spindleIdleTimeout d) s =
         .next ((s.spinBrake d.val .stop).modSpin d.val (fun p => { p with idled := true })).settle) ∧
     (Cf.SPN_CTL_idle_s s d.val = 0 ∨ s.driveBusy d.val = true ∨ (s.drive d.val).spin.st ≠ .run ∨
       s.tm.mono < (s.drive d.val).spin.lastWork + 1000 * Cf.SPN_CTL_idle_s s d.val → exec (.spindleIdleTimeout d) s = .next s))) ∧
  ((∀ (d : Fin 4) (s : State), s.serving = true →
     ((s.drive d.val).spin.st = .run → (s.drive d.val).spin.misses = 0 →
       exec (.crossingWindowMiss d) s = .next (s.modSpin d.val (fun p => { p with misses := 1, due := true }))) ∧
     ((s.drive d.val).spin.st = .run → (s.drive d.val).spin.misses ≠ 0 → exec (.crossingWindowMiss d) s = .next (s.rotorLoss d.val).settle) ∧
     ((s.drive d.val).spin.st ≠ .run → exec (.crossingWindowMiss d) s = .next s)) ∧
   (∀ (d : Fin 4) (step : Fin 6) (l : List Nat) (s : State) (m : Int), s.serving = true → (s.drive d.val).spin.st = .lost → l.length = 5 →
     steady l = true → m = speedQ (s.pp d.val) (l.foldl (fun a b => a + b) 0 / 5) 0 →
     (2 * m < (s.drive d.val).spin.heldSp → exec (.rotorReacquired d step l) s = .next (s.spinBrake d.val .restart).settle) ∧
     ((s.drive d.val).spin.heldSp ≤ 2 * m → ((s.drive d.val).axis 2).st ≠ .lateOpen → exec (.rotorReacquired d step l) s =
       .next ((s.modSpin d.val (fun p => { p with st := .run, step := step.val, intervals := l.reverse, misses := 0, waiting := false })).closeAxis
         (axisOf d.val 2)).settle) ∧
     ((s.drive d.val).spin.heldSp ≤ 2 * m → ((s.drive d.val).axis 2).st = .lateOpen → exec (.rotorReacquired d step l) s =
       .next (s.modSpin d.val (fun p => { p with st := .run, step := step.val, intervals := l.reverse, misses := 0, waiting := true })).settle)) ∧
   (∀ (d : Fin 4) (step : Fin 6) (l : List Nat) (s : State), ((s.drive d.val).spin.st ≠ .lost ∨ l.length ≠ 5 ∨ steady l = false) →
     exec (.rotorReacquired d step l) s = .next s) ∧
   (∀ (d : Fin 4) (s : State), s.serving = true →
     ((s.drive d.val).spin.st = .lost → exec (.reacquisitionTimeout d) s = .next (s.spinBrake d.val .restart).settle) ∧
     ((s.drive d.val).spin.st = .run → (s.drive d.val).spin.waiting = true → ((s.drive d.val).axis 2).st = .lateOpen →
       exec (.reacquisitionTimeout d) s = .next (s.spinBrake d.val .restart).settle) ∧
     ((s.drive d.val).spin.st ≠ .lost → ((s.drive d.val).axis 2).st ≠ .lateOpen → exec (.reacquisitionTimeout d) s = .next s)))

/-- Seeks, the channel clock, zone measurements and frames. SEEK takes tracking under host control and notes the target; with no
sequence running it seeks from the track shown, in a short seek it only notes the target. SEEK_CONFIRM with no confirmation due
changes nothing; at distance 0 the seek is done; after the arrival of a long seek a short seek follows, which is no miss; else the
first two misses seek again, the third by a long seek, three more by short ones and then tracking fails. CHANNEL_CLOCK_LOCK_CHANGE
takes the phase errors and the rate and abandons the slot without lock; ZONE_WOBBLE_MEASURE keeps the rounded count per revolution
of its zone; without a disc neither does anything. FRAME_SYNC of a started channel at a rate it can take begins the frame of the
address given, or goes on with the one it has, and takes its samples one by one; while the channel is idle, and before a first
address, it does nothing. Its clauses that rest on a choice or deduction of the model do so by log entries 3 and 44. Rests on
10_servo_engine.md R362, 10_servo_engine.md R364, 09_read_channel_and_write_strategy.md R307, 09_read_channel_and_write_strategy.md
R309, 09_read_channel_and_write_strategy.md R310, 09_read_channel_and_write_strategy.md R311. -/
def Obligations.SeekAndReadChannel : Prop :=
  (∀ (d : Fin 4) (now : Nat) (s u : State), s.serving = true → u = ((s.take (axisOf d.val 1)).touchDrive d.val).modDrive d.val
      (fun r => { r with target := pbaWobble (Cf.SRV_SEEK_target ((s.take (axisOf d.val 1)).touchDrive d.val) (axisOf d.val 1)), failed := 0 }) →
    ((u.drive d.val).seq = .none → exec (.seek d now) s = .next ((u.modDrive d.val (fun r => { r with track := now })).seek d.val false).settle) ∧
    ((u.drive d.val).seq = .long → exec (.seek d now) s = .next (u.sledSeekTo d.val)) ∧
    (∀ a b c e, (u.drive d.val).seq = .short a b c e → exec (.seek d now) s = .next u)) ∧
  (∀ (d : Fin 4) (now : Nat) (s u v : State) (r : Machine.Drive) (dist : Int) (n : Nat), s.serving = true → r = s.drive d.val → r.confirm = true →
    dist = trackDist now r.target (s.zoneW d.val r.layer (slotZone r.layer (now / slotWobbles))) → n = r.failed + 1 →
    v = s.modDrive d.val (fun r => { r with confirm := false, landed := false, track := now }) →
    u = v.modDrive d.val (fun r => { r with failed := n }) →
    (dist = 0 → exec (.seekConfirm d now) s =
      .next (v.modDrive d.val (fun r => { r with failed := 0 }))) ∧
    (dist ≠ 0 → r.landed = true → exec (.seekConfirm d now) s = .next (v.shortSeek d.val dist).settle) ∧
    (dist ≠ 0 → r.landed = false → n < 3 → exec (.seekConfirm d now) s = .next (u.seek d.val false).settle) ∧
    (dist ≠ 0 → r.landed = false → n = 3 → exec (.seekConfirm d now) s = .next (u.seek d.val true).settle) ∧
    (dist ≠ 0 → r.landed = false → 3 < n → n ≤ 6 → exec (.seekConfirm d now) s = .next (u.shortSeek d.val dist).settle) ∧
    (dist ≠ 0 → r.landed = false → 6 < n → exec (.seekConfirm d now) s = .next ((u.openTrk d.val .fail).note .seekFailed (axisOf d.val 1)).settle)) ∧
  (∀ (d : Fin 4) (now : Nat) (s : State), (s.drive d.val).confirm = false → exec (.seekConfirm d now) s = .next s) ∧
  (∀ (d : Fin 4) (errs : List (BitVec 8)) (kbps : BitVec 18) (s u : State), s.serving = true → s.hasDisc d.val = true →
    u = s.modRdc d.val (fun c => { errs.foldl ReadChannel.wobble c with kbps := kbps.toNat }) →
    ((u.drive d.val).rdc.clkLock = true → u.rateOk d.val = true → exec (.channelClockLockChange d errs kbps) s = .next u.settle) ∧
    ((u.drive d.val).rdc.clkLock = false ∨ u.rateOk d.val = false →
      exec (.channelClockLockChange d errs kbps) s = .next (u.abandonSlot d.val).settle)) ∧
  (∀ (d : Fin 4) (layer : Fin 2) (zone : Fin 40) (periods : BitVec 24) (s : State), s.serving = true → s.hasDisc d.val = true →
    exec (.zoneWobbleMeasure d layer zone periods) s = .next (s.modRdc d.val (fun c =>
      { c with zw := Bank.set natDef c.zw (layer.val * 64 + zone.val) ((periods.toNat + 4) / 8) }))) ∧
  (∀ (d : Fin 4) (s : State), s.hasDisc d.val = false → (∀ errs kbps, exec (.channelClockLockChange d errs kbps) s = .next s) ∧
    ∀ layer zone periods, exec (.zoneWobbleMeasure d layer zone periods) s = .next s) ∧
  (∀ (d : Fin 4) (start : Option (BitVec 21)) (rf : List RfSample) (s : State),
    ((s.drive d.val).rdc.started = false ∨ s.rateOk d.val = false) → exec (.frameSync d start rf) s = .next s) ∧
  (∀ (d : Fin 4) (start : Option (BitVec 21)) (rf : List RfSample) (s : State) (c : ReadChannel) (x : Rx), s.serving = true →
    c = (s.drive d.val).rdc → c.started = true → s.rateOk d.val = true →
    x = (match start with | some p => c.rx.begin (s.rxCfg d.val) p.toNat | none => c.rx) →
    (x.pba.isSome = true → Answers (.frameSync d start rf) s [.drives] (fun t => ∃ g : ReadChannel → ReadChannel,
      t = (match start with | some p => s.modDrive d.val (fun r => { r with track := pbaWobble p.toNat }) | none => s).modRdc d.val g ∧
      ∀ k, (g k).rx = (rf.foldl (Rx.step (s.rxCfg d.val)) (x, 0)).1 ∧ (g k).decoded = (if start.isSome then none else k.decoded) ∧
        (g k).idErr = satU 16 (k.idErr + (rf.foldl (Rx.step (s.rxCfg d.val)) (x, 0)).2) ∧
        (g k).rfLoss = satU 16 (k.rfLoss + ((rf.foldl (Rx.step (s.rxCfg d.val)) (x, 0)).1.loss - x.loss)) ∧
        (g k).ovr = satU 16 (k.ovr + overrange rf))) ∧
    (x.pba.isSome = false → exec (.frameSync d start rf) s = .next s))

/-- Admitting segments, formatting blocks, filling a stripe, and archive-done. SEGMENT_ADMIT makes the admissible segment active and
puts it last in the rotation; with none it notes the wait. ARCHIVE_BLOCK_FORMAT places up to 96 blocks of the segment in turn, as
far as the archive sequence numbers reserved in NAND allow: a run read in full sends it to the end of the rotation, or out of it
once all its blocks are placed or verified; a run that fails leaves the segment pinned, broken and out of the rotation.
FILLER_TIMEOUT fills a started stripe after fill_ms with no active segment. A number in the rotation that no segment has leaves it.
With nothing to do, or without a writable set, nothing changes. ARCHIVE_DONE of a verified segment whose owner has room for the
message marks its units archived, journals the UNPIN entry and leaves the message until that entry is flushed; the segment stays in
the list with the number of that journal entry. Of a segment not verified, or without room, it changes nothing. With the entry
flushed it posts the message; before that it changes nothing. An unknown segment changes nothing. Its clauses that rest on a choice
or deduction of the model do so by log entry 3. Rests on 08_archive_format_and_stripes.md R284, 08_archive_format_and_stripes.md
R290, 08_archive_format_and_stripes.md R291, 08_archive_format_and_stripes.md R292, 01_vault_and_evidence_path.md R29,
03_instances_manager_and_metering.md R97, 06_flash_staging_store.md R228. -/
def Obligations.ArchiveIntakeAndDone : Prop :=
  ((∀ s : State, s.serving = true →
     (∀ g, s.admissible = some g → Answers .segmentAdmit s [.out, .log, .nvm, .nvs, .inst, .fn, .fss, .arc] (fun t =>
       t.arc.active = s.arc.active ++ [g.num] ∧ t.fss.segs = s.fss.segs.map (fun x => if x.num = g.num then { x with active := true } else x))) ∧
     (s.admissible = none → exec .segmentAdmit s = .next s.noteWaiting)) ∧
   (∀ (reads : List NandRead) (s u : State) (num n want first run : Nat) (rest : List Nat) (g : Segment), s.serving = true →
     s.arc.active = num :: rest → s.setWritable = true → s.arc.rebuilding = false → s.findSeg num = some g → g.todo = (first, run) →
     want = min 96 run →
     ((s.getInst g.inst).arcDur < (s.getInst g.inst).arcSeq + want → exec (.archiveBlockFormat reads) s = .next s) ∧
     ((s.getInst g.inst).arcSeq + want ≤ (s.getInst g.inst).arcDur → s.formatRun num reads first want = (n, u) → ∀ w, w = (if n = 0 then u else
         u.pendRun ⟨g.inst, first = 0, first + n = g.blocks, n, num, first, s.slotsUsed⟩) →
       (want ≤ n → (∃ k, first + n + k < g.blocks ∧ first + n + k ∉ g.verified) →
         exec (.archiveBlockFormat reads) s = .next { w with arc := { w.arc with active := rest ++ [num] } }) ∧
       (want ≤ n → (∀ k, first + n + k < g.blocks → first + n + k ∈ g.verified) →
         exec (.archiveBlockFormat reads) s = .next { w with arc := { w.arc with active := rest } }) ∧
       (n < want → exec (.archiveBlockFormat reads) s = .next ((({ w with arc := { w.arc with active := rest } } : State).modSeg num
         (fun x => { x with broken := true, active := false })).note .segmentHeld num)))) ∧
   (∀ (reads : List NandRead) (s : State) (num : Nat) (rest : List Nat), s.serving = true → s.arc.active = num :: rest → s.setWritable = true →
     s.arc.rebuilding = false → s.findSeg num = none →
     exec (.archiveBlockFormat reads) s = .next { s with arc := { s.arc with active := rest } }) ∧
   (∀ (reads : List NandRead) (s : State), (s.arc.active = [] ∨ s.setWritable = false ∨ s.arc.rebuilding = true) →
     exec (.archiveBlockFormat reads) s = .next s) ∧
   (∀ s : State, s.serving = true → s.arc.active = [] → s.arc.part ≠ [] → s.arc.idle + Cf.ARC_CTL_fill_ms s ≤ s.tm.mono →
     exec .fillerTimeout s = .next s.fillStripe) ∧
   (∀ s : State, (s.arc.active ≠ [] ∨ s.arc.part = [] ∨ s.tm.mono < s.arc.idle + Cf.ARC_CTL_fill_ms s) → exec .fillerTimeout s = .next s)) ∧
  ((∀ (num : Nat) (s u : State) (g : Segment), s.serving = true → s.findSeg num = some g → g.unpinAt = none →
     (s.segVerified g = true → s.doneRoom g.inst = true → u = (s.markUnits g).jAdd (.unpin g.inst num) →
       exec (.archiveDone num) s = .next ((u.modSeg num (fun x => { x with unpinAt := some u.fss.jMade, active := false })).refreshUsed g.inst) ∧
       u.fss.jMade = s.fss.jMade + 1) ∧
     (s.segVerified g = false ∨ s.doneRoom g.inst = false → exec (.archiveDone num) s = .next s)) ∧
   (∀ (num : Nat) (s : State) (g : Segment) (n : Nat), s.serving = true → s.findSeg num = some g → g.unpinAt = some n →
     (n ≤ s.fss.jDone → exec (.archiveDone num) s = .next (s.postDone g)) ∧
     (s.fss.jDone < n → exec (.archiveDone num) s = .next s)) ∧
   (∀ (num : Nat) (s : State), s.findSeg num = none → exec (.archiveDone num) s = .next s))

/-- Recording stripes and optimum power calibration. STRIPE_RECORD_START of the lowest stripe ready, with the set writable, no drive
hot, no calibration holding it, fewer than eight stripes going and every write drive able to burst, begins it on every write drive;
otherwise it changes nothing. SLOT_VERIFY_RESULT of an open slot of a stripe going judges the decode of its address and counts the
slot good, or replaces the stripe; without one it changes nothing. PENDING_ENTRIES_WRITE writes the pending entries that are due.
DEGRADED_DRIVE_TIMEOUT treats a write drive as absent once its gate has stayed closed for tmo_s while the other three can open.
OPC_GO makes a calibration due on every layer of the disc, once each, and changes nothing else of the drive. OPC_RUN that may begin
begins one, or without room in the calibration area ends it with the previous result and sets the full bit; where none may begin it
changes nothing. With the means of its test fields, of the layer the drive is on, it ends the calibration that runs. Its clauses
that rest on a choice or deduction of the model do so by log entries 3 and 48. Rests on 08_archive_format_and_stripes.md R279,
08_archive_format_and_stripes.md R293, 08_archive_format_and_stripes.md R298, 08_archive_format_and_stripes.md R305,
09_read_channel_and_write_strategy.md R337, 09_read_channel_and_write_strategy.md R334, 09_read_channel_and_write_strategy.md R335,
09_read_channel_and_write_strategy.md R336. -/
def Obligations.ArchiveRecordingAndPowerCalibration : Prop :=
  ((∀ (s u : State) (t : Stripe), s.serving = true → lowestStripe s.arc.ready = some t → s.setWritable = true → s.arc.rebuilding = false →
     s.sns.hot = false → s.opcHolds = false → s.calHolds = false → s.arc.going.length < 8 →
     s.writeDrives.all (fun d => s.canBurst d (pbaLayer t.pba)) = true →
     (∃ ps, ps = s.writeDrives.filterMap (fun d => s.posOf d) ∧ u = { s with arc := { s.arc with
           ready := s.arc.ready.filter (fun x => x.num ≠ t.num), next := max s.arc.next (t.num + 1),
           going := s.arc.going ++ [{ t with on := ps, ok := [], bad := false, open_ := ps }] } }) →
     exec .stripeRecordStart s = .next (forEach s.writeDrives (fun d u => match u.posOf d with
       | some p => (u.beginSlot d t.num t.pba).emit (.slot d t.pba (blockContent (t.at p).2.2 (u.stripeAddr t p)) (u.shapes d))
       | none => u) u)) ∧
   (∀ s : State, (lowestStripe s.arc.ready = none ∨ s.setWritable = false ∨ s.arc.rebuilding = true ∨ s.sns.hot = true ∨ s.opcHolds = true ∨
     s.calHolds = true ∨ 8 ≤ s.arc.going.length ∨
     (∀ t, lowestStripe s.arc.ready = some t → s.writeDrives.all (fun d => s.canBurst d (pbaLayer t.pba)) = false)) →
     exec .stripeRecordStart s = .next s) ∧
   (∀ (d : Fin 4) (num : Nat) (s u : State) (t : Stripe) (p : Nat) (r : Decoded) (good : Bool), s.serving = true →
     s.arc.going.find? (fun t => t.num = num) = some t → s.posOf d.val = some p → (s.drive d.val).rdc.decoded = some r →
     t.open_.contains p = true → r.pba = t.pba → good = (s.verifies d.val r && decide (slice r.content 32832 64 = (s.stripeAddr t p).bytes)) →
     u = s.modDrive d.val (fun x => { x with
           rdc := { x.rdc with decoded := none, vfyFail := if good then x.rdc.vfyFail else inc16 x.rdc.vfyFail },
           wst := { (x.wst.judged (!good) (pbaLayer t.pba)) with burst := if x.wst.burst = some num then none else x.wst.burst } }) →
     exec (.slotVerifyResult d num) s = .next (if good then u.stripeGood num p else u.stripeBad num p).settle) ∧
   (∀ (d : Fin 4) (num : Nat) (s : State), (s.arc.going.find? (fun t => t.num = num) = none ∨ (s.drive d.val).rdc.decoded = none ∨
       s.posOf d.val = none ∨ (∃ t p r, s.arc.going.find? (fun t => t.num = num) = some t ∧ s.posOf d.val = some p ∧
         (s.drive d.val).rdc.decoded = some r ∧ (t.open_.contains p = false ∨ r.pba ≠ t.pba))) →
     exec (.slotVerifyResult d num) s = .next s) ∧
   (∀ (fails : Nat) (s : State), s.serving = true →
     (s.setWritable = true → s.pendingDue = true → exec (.pendingEntriesWrite fails) s = .next (s.writePending fails).settle) ∧
     (s.setWritable = false ∨ s.pendingDue = false → exec (.pendingEntriesWrite fails) s = .next s)) ∧
   (∀ (d : Fin 4) (s : State) (others : List Nat), s.serving = true → others = s.writeDrives.filter (fun k => k ≠ d.val) →
     (s.setWritable = true → s.writeDrives.contains d.val = true → (s.drive d.val).wst.gate = false →
       (s.drive d.val).wst.shutSince + 1000 * Cf.ARC_DEG_tmo_s s ≤ s.tm.mono → others.length = 3 → others.all (fun k => s.gateOk k) = true →
       exec (.degradedDriveTimeout d) s =
         .next (({ s with arc := { s.arc with absent := d.val :: s.arc.absent } } : State).note .driveAbsent d.val).settle) ∧
     (s.setWritable = false ∨ (s.drive d.val).wst.gate = true ∨ others.length ≠ 3 ∨ s.writeDrives.contains d.val = false ∨
       s.tm.mono < (s.drive d.val).wst.shutSince + 1000 * Cf.ARC_DEG_tmo_s s ∨ others.all (fun k => s.gateOk k) = false → exec (.degradedDriveTimeout d) s = .next s))) ∧
  ((∀ (d : Fin 4) (s : State), s.serving = true → Answers (.opcGo d) s [.drives] (fun t => ∃ g : WriteStrategy → WriteStrategy, t = s.modWst d.val g ∧
       ∀ w, (∃ l, g w = { w with opcDue := l }) ∧ (∀ k, k < max 1 s.arc.layers → k ∈ (g w).opcDue) ∧ (w.opcDue.Nodup → (g w).opcDue.Nodup) ∧
         (∀ k ∈ w.opcDue, k ∈ (g w).opcDue))) ∧
   (∀ (d : Fin 4) (layer : Fin 2) (s : State), s.serving = true →
     (s.mayOpc d.val layer.val = false → exec (.opcRun d layer none) s = .next s) ∧
     (s.mayOpc d.val layer.val = true → nth 0 (s.drive d.val).wst.pca layer.val ≠ 0 →
       exec (.opcRun d layer none) s = .next ((s.touchDrive d.val).modWst d.val (fun w => { w with opcBusy := true }))) ∧
     (s.mayOpc d.val layer.val = true → nth 0 (s.drive d.val).wst.pca layer.val = 0 → Answers (.opcRun d layer none) s [.out, .log, .nvm, .nvs, .inst, .fn, .fss, .arc, .drives, .pwb, .cal] (fun t =>
       ∃ g : WriteStrategy → WriteStrategy, t = s.modWst d.val g ∧
         ∀ w, (g w).pcaFull = true ∧ (g w).opcDue = w.opcDue.filter (fun x => x ≠ layer.val) ∧ (g w).opcBusy = w.opcBusy)) ∧
     (∀ f, (s.drive d.val).wst.opcBusy = true → (s.drive d.val).layer = layer.val →
       exec (.opcRun d layer (some f)) s = .next (s.endOpc d.val layer.val f).settle) ∧
     (∀ f, ((s.drive d.val).wst.opcBusy = false ∨ (s.drive d.val).layer ≠ layer.val) → exec (.opcRun d layer (some f)) s = .next s)))

/-- Loading, reloading, finalising and rebuilding a set. STRIPE_LOAD completes with the status and result of loading the set it
names. STARTUP_SET_RELOAD that is due, once every drive with a disc holds spindle lock, loads the set of the record; a failure is
logged and the wait noted; a record that names no set ends it (log entry 38); when it is not due, or a drive is not locked, nothing
changes. STRIPE_FINALIZE of a set not loaded is absent, of one that cannot take it a state error, otherwise it stops admission and
goes on until every active segment is recorded. STRIPE_REBUILD that may not begin is a state error; otherwise it writes the
structures; served again, it rebuilds the stripes next in ascending order from the reads given, and ends after the last of the form,
with no stripe still in recording. Its clauses that rest on a choice or deduction of the model do so by log entries 3 and 39. Rests
on 08_archive_format_and_stripes.md R299, 08_archive_format_and_stripes.md R300, 08_archive_format_and_stripes.md R302,
08_archive_format_and_stripes.md R306, 15_start_reset_and_halt.md R485. -/
def Obligations.SetCommands : Prop :=
  (∀ (id : Nat) (discs : List (Option DiscExam)) (set : SetExam) (fails : Nat) (s : State) (c : Cmd), s.Runs id .load c →
    ∀ st res u, (s.setFor c).loadSet (eArg0 c.entry) (decide (eByte c.entry 44 = 1)) discs set fails = (st, res, u) →
    exec (.stripeLoad id discs set fails) s = .next (((u.complete c st res false).settle).setBack s)) ∧
  (∀ (discs : List (Option DiscExam)) (set : SetExam) (s : State), s.serving = true →
    ((s.arc.reloadDue = false ∨ s.drivesLocked = false) → exec (.startupSetReload discs set) s = .next s) ∧
    (s.arc.reloadDue = true → s.drivesLocked = true → s.arc.named = 0 →
      exec (.startupSetReload discs set) s = .next { s with arc := { s.arc with reloadDue := false } }) ∧
    (s.arc.reloadDue = true → s.drivesLocked = true → s.arc.named ≠ 0 → ∀ st res u, ({ s with arc := { s.arc with reloadDue := false } } : State).loadSet s.arc.named false discs set 0 =
        (st, res, u) →
      (st = stSuccess → exec (.startupSetReload discs set) s = .next u.settle) ∧
      (st ≠ stSuccess → exec (.startupSetReload discs set) s = .next ((u.note .setLoadFailed st).noteWaiting).settle))) ∧
  (∀ (id fails : Nat) (s : State) (c : Cmd), s.serving = true → s.findCmd id = some c → eOp c.entry = some .finalize →
    (c.stage = .media → exec (.stripeFinalize id fails) s = .next (s.goFinalize c fails).noteWaiting.settle) ∧
    (c.ready = true → c.stage ≠ .media →
      ((s.arc.loaded = false ∨ s.arc.setId ≠ eArg0 c.entry) →
        exec (.stripeFinalize id fails) s = .next (s.complete c stAbsent (eArg0 c.entry) false)) ∧
      (s.arc.loaded = true → s.arc.setId = eArg0 c.entry → (s.arc.finalised = true ∨ (s.setWritable = false ∧ s.arc.full = false)) →
        exec (.stripeFinalize id fails) s = .next (s.complete c stState (s.getInst 0).state.code false)) ∧
      (s.arc.loaded = true → s.arc.setId = eArg0 c.entry → s.arc.finalised = false → (s.setWritable = true ∨ s.arc.full = true) →
        ∀ k, k = { c with stage := .media, aux := b2n s.arc.full } → exec (.stripeFinalize id fails) s =
          .next ((({ s with arc := { s.arc with closing := true } } : State).setCmd k).goFinalize k fails).noteWaiting.settle))) ∧
  (∀ (id : Nat) (disc : Option DiscExam) (rebuilds : Nat) (reads : List (List (Option (List Byte)))) (s u : State) (c : Cmd) (d : Nat),
    s.serving = true → s.findCmd id = some c → eOp c.entry = some .rebuild → c.ready = true → c.stage ≠ .media → d = eByte c.entry 44 →
    (s.rebuildOk (eArg0 c.entry) d disc = false →
      exec (.stripeRebuild id disc rebuilds reads) s = .next (s.complete c stState (s.getInst 0).state.code false)) ∧
    (s.rebuildOk (eArg0 c.entry) d disc = true → u = { s with arc := { s.arc with rebuilding := true, lost := 0, redone := 0 } } →
      exec (.stripeRebuild id disc rebuilds reads) s =
        .next ((u.rebuildStructs d u.missingPos (rebuilds + 1)).setCmd { c with stage := .media, aux := 0 }))) ∧
  (∀ (id : Nat) (disc : Option DiscExam) (rebuilds : Nat) (reads : List (List (Option (List Byte)))) (s u v : State) (c k : Cmd) (d p n : Nat),
    s.serving = true → s.findCmd id = some c → eOp c.entry = some .rebuild → c.stage = .media → d = eByte c.entry 44 → p = s.missingPos →
    (n, u) = State.rebuildStripes d p reads c.aux s →
    k = { c with aux := n } → v = u.setCmd k →
    (u.arc.form ≤ n → u.arc.going = [] → exec (.stripeRebuild id disc rebuilds reads) s = .next (v.endRebuild k d p).noteWaiting.settle) ∧
    (n < u.arc.form ∨ u.arc.going ≠ [] → exec (.stripeRebuild id disc rebuilds reads) s = .next v)) ∧
  (∀ (id : Nat) (s : State), s.findCmd id = none → (∀ f, exec (.stripeFinalize id f) s = .next s) ∧
    (∀ a b c, exec (.stripeRebuild id a b c) s = .next s) ∧ ∀ a b c, exec (.stripeLoad id a b c) s = .next s)

/-- Reading back, decoding slots, retries and IDENTIFY. ARCHIVE_READ and VERIFY are served as archive commands. BLOCK_DECODE of a
buffered slot decodes it; a slot that no read wants keeps its result, one that decodes is given to the read that wants it, one that
fails waits while a retry is left and is given as lost after the last. READ_RETRY of a wanted failed slot with a retry left counts
it and reads again. IDENTIFY reports the identity of the device or of its own function. Without a slot, a result or such a command
nothing changes. Its clauses that rest on a choice or deduction of the model do so by log entries 3 and 44. Rests on
04_rings_doorbells_task_port.md R143, 04_rings_doorbells_task_port.md R152, 08_archive_format_and_stripes.md R303,
08_archive_format_and_stripes.md R288, 09_read_channel_and_write_strategy.md R326. -/
def Obligations.ArchiveReads : Prop :=
  (∀ (id : Nat) (s : State), exec (.archiveRead id) s = .next (s.archiveCmd id .arcRead) ∧ exec (.verify id) s = .next (s.archiveCmd id .verify)) ∧
  (∀ (d : Fin 4) (s u : State) (pba : Nat) (r : Decoded), s.serving = true → (s.drive d.val).rdc.rx.pba = some pba →
    u = s.decodeSlot d.val → (u.drive d.val).rdc.decoded = some r →
    (u.wanted d.val pba = false → exec (.blockDecode d) s = .next u) ∧
    (u.wanted d.val pba = true → exec (.blockDecode d) s = .next (
      if r.ok then (((u.modRdc d.val (fun c => { c with retry := 0, decoded := none })).giveSlot d.val pba (some r.content)).settleArc).approachAll
      else if (u.drive d.val).rdc.retry < Cf.RDC_RTRY_n u d.val then u
      else (((u.modRdc d.val (fun c => { c with
        retry := 0, decoded := none, readFail := inc16 c.readFail })).giveSlot d.val pba none).settleArc).approachAll))) ∧
  (∀ (d : Fin 4) (s : State), (s.drive d.val).rdc.rx.pba = none → exec (.blockDecode d) s = .next s) ∧
  (∀ (d : Fin 4) (s : State) (r : Decoded), s.serving = true → (s.drive d.val).rdc.decoded = some r →
    (r.ok = false → s.wanted d.val r.pba = true → (s.drive d.val).rdc.retry < Cf.RDC_RTRY_n s d.val →
      exec (.readRetry d) s = .next (s.modRdc d.val (fun c => { c with retry := c.retry + 1, decoded := none }))) ∧
    (r.ok = true ∨ s.wanted d.val r.pba = false ∨ Cf.RDC_RTRY_n s d.val ≤ (s.drive d.val).rdc.retry → exec (.readRetry d) s = .next s)) ∧
  (∀ (d : Fin 4) (s : State), (s.drive d.val).rdc.decoded = none → exec (.readRetry d) s = .next s) ∧
  (∀ (id : Nat) (s : State) (c : Cmd), s.Runs id .identify c → exec (.identify id) s = .next
    (((s.setFor c).report c (if eByte c.entry 44 = 1 then (s.setFor c).identDevice else (s.setFor c).identSelf c.fn.toNat) 0).setBack s))

/-- Calibration items and their storage. CAL_ITEM_RUN without a measurement begins the next due item while none runs, and with one
ends the item that runs; otherwise it changes nothing. CAL_ITEM_GO makes the item due with its failures in a row forgotten, of kind
10 it makes a power calibration due, above 10 it changes nothing. CAL_DEFER_TIMEOUT sets deferred once a drive item has waited
defer_s. CONVERTER_CHECK_PERIOD makes the converter items of the four drives due. CAL_STORE stores; CAL_PERIODIC_STORE stores what
is dirty at most once per store_min minutes. Its clauses that rest on a choice or deduction of the model do so by log entries 3, 48
and 65. Rests on 13_calibration_and_trim_sets.md R430, 13_calibration_and_trim_sets.md R436, 13_calibration_and_trim_sets.md R437,
13_calibration_and_trim_sets.md R442. -/
def Obligations.CalibrationItems : Prop :=
  (∀ s : State, s.serving = true →
    (s.cal.running = none → exec (.calItemRun none) s = .next s.beginItem ∧ ∀ m, exec (.calItemRun (some m)) s = .next s) ∧
    (∀ k d t, s.cal.running = some (k, d, t) → exec (.calItemRun none) s = .next s ∧
      ∀ m, exec (.calItemRun (some m)) s = .next (s.endItem k d t m))) ∧
  (∀ (kind : Fin 16) (d : Fin 4) (s : State), s.serving = true →
    (10 < kind.val → exec (.calItemGo kind d) s = .next s) ∧
    (kind.val = 10 → exec (.calItemGo kind d) s = .next (s.modWst d.val (fun w => { w with opcDue := List.range s.arc.layers }))) ∧
    (kind.val < 10 → ∀ e, e = (if kind.val ≤ 1 then 0 else d.val) →
      exec (.calItemGo kind d) s = .next ((s.modItem kind.val e (fun x => { x with inRow := 0 })).calDue kind.val e))) ∧
  (∀ s : State, s.serving = true →
    ((∃ e ∈ s.cal.due, 4 ≤ e.1 ∧ e.1 ≤ 7 ∧ e.2.2 + 1000 * Cf.CAL_CFG_defer_s s ≤ s.tm.mono) →
      exec .calDeferTimeout s = .next { s with cal := { s.cal with deferred := true } }) ∧
    ((∀ e ∈ s.cal.due, 4 ≤ e.1 → e.1 ≤ 7 → s.tm.mono < e.2.2 + 1000 * Cf.CAL_CFG_defer_s s) → exec .calDeferTimeout s = .next s)) ∧
  (∀ s : State, s.serving = true →
    exec .converterCheckPeriod s = .next (forBelow 4 (fun d t => (t.calFallsDue 2 d).calFallsDue 3 d) s) ∧
    exec .calStore s = .next s.calStore ∧
    (s.cal.dirty ≠ 0 → s.cal.lastStore + 60000 * Cf.CAL_CFG2_store_min s ≤ s.tm.mono → exec .calPeriodicStore s = .next s.calStore) ∧
    (s.cal.dirty = 0 ∨ s.tm.mono < s.cal.lastStore + 60000 * Cf.CAL_CFG2_store_min s → exec .calPeriodicStore s = .next s))

/-- The fabric-slow alarm, throughput, sleep and the frequency counter. VCORE_LOW raises the alarm with cause 1: with an alarm up it
adds the cause, otherwise the alarm rises, is counted and is logged. SPEED_INDEX_MEASURE keeps the four indices, the voltage and
their minima; with an index or the voltage low it restarts the hold. FABRIC_SLOW_ALARM_CLEAR clears an alarm whose indices and
voltage have been good for the hold time, and nothing else. TPUT_WINDOW keeps the counts of the window and their minima; TPUT_CLR
with its bit 1 sets the minima to 65,535. SLEEP_MODE_ENTRY of a block idle for idle_ms with sleep_en set enters SLEEP, or DEEP when
deep_en is set in D3hot; before that, or with sleep_en 0, the mode stays. POWER_MODE_WAKE goes to RUN. FMC_GO begins a measurement,
is refused while one runs and with its bit 0 changes nothing. FMC_DONE ends the measurement that runs with the count, or with 0 and
gated set where the clock is stopped or the reference absent. Its clauses that rest on a choice or deduction of the model do so by
log entries 2, 3, 47 and 65. Rests on 14_stilt_power_and_clocks.md R447, 14_stilt_power_and_clocks.md R448,
14_stilt_power_and_clocks.md R449, 14_stilt_power_and_clocks.md R451, 14_stilt_power_and_clocks.md R461,
14_stilt_power_and_clocks.md R462, 14_stilt_power_and_clocks.md R464. -/
def Obligations.FabricMonitorPowerModesAndCounter : Prop :=
  ((∀ s : State, s.running = true → exec .vcoreLow s = .next (s.alarmRise 1) ∧
     (s.stl.alarm = true → exec .vcoreLow s = .next { s with stl := { s.stl with goodSince := s.tm.mono, cause := s.stl.cause ||| 1 } }) ∧
     (s.stl.alarm = false → Answers .vcoreLow s [.out, .log, .nvm, .nvs, .inst, .fn, .fss, .arc, .drives, .stl] (fun t => t.stl.alarm = true ∧ t.stl.cause = 1 ∧ t.stl.count = inc16 s.stl.count))) ∧
   (∀ (idx : List (BitVec 16)) (mv : BitVec 16) (s : State), s.running = true → Answers (.speedIndexMeasure idx mv) s [.out, .log, .nvm, .nvs, .inst, .fn, .fss, .arc, .drives, .stl, .sns] (fun t =>
       t.stl.idx = (List.range 4).map (fun k => (nth 0 idx k).toNat) ∧ t.stl.mv = mv.toNat ∧ t.stl.minMv = min s.stl.minMv mv.toNat ∧
       t.stl.minIdx = lowest s.stl.minIdx ((List.range 4).map (fun k => (nth 0 idx k).toNat)) ∧
       (mv.toNat < Cf.STL_ALM_CFG_v_lo s + 10 → t.stl.goodSince = s.tm.mono) ∧
       (∀ k, k < 4 → (nth 0 idx k).toNat < Cf.STL_ALM_CFG_s_lo s → t.stl.goodSince = s.tm.mono))) ∧
   (∀ s : State, s.running = true →
     (s.stl.alarm = true → Cf.STL_ALM_CFG_v_lo s + 10 ≤ s.stl.mv → (∀ n ∈ s.stl.idx, Cf.STL_ALM_CFG_s_lo s ≤ n) →
       s.stl.goodSince + Cf.STL_ALM_CFG_hold_ms s ≤ s.tm.mono →
       exec .fabricSlowAlarmClear s = .next ({ s with stl := { s.stl with alarm := false } } : State).settle) ∧
     (s.stl.alarm = false ∨ s.stl.mv < Cf.STL_ALM_CFG_v_lo s + 10 ∨ (∃ n ∈ s.stl.idx, n < Cf.STL_ALM_CFG_s_lo s) ∨
       s.tm.mono < s.stl.goodSince + Cf.STL_ALM_CFG_hold_ms s → exec .fabricSlowAlarmClear s = .next s)) ∧
   (∀ (counts : List Nat) (s : State), s.running = true → Answers (.tputWindow counts) s [.stl] (fun t =>
       t.stl.last = (List.range 8).map (fun k => satU 16 (nth 0 counts k)) ∧
       t.stl.mins = (List.range 8).map (fun k => min (nth 0xFFFF s.stl.mins k) (satU 16 (nth 0 counts k))))) ∧
   (∀ (v : Word) (s : State), s.running = true →
     (fld v 0 1 = 1 → exec (.tputClr v) s = .next { s with stl := { s.stl with mins := List.replicate 8 0xFFFF } }) ∧
     (fld v 0 1 = 0 → exec (.tputClr v) s = .next s))) ∧
  ((∀ (s : State) (t0 : Nat), s.serving = true → s.trackIdle.clk.idleSince = some t0 → Cf.CLK_PM_sleep_en s = 1 → s.clk.mode = 0 →
     t0 + Cf.CLK_PM_idle_ms s ≤ s.tm.mono → Answers .sleepModeEntry s [.drives, .clk] (fun t =>
       t.clk = { s.trackIdle.clk with mode := if Cf.CLK_PM_deep_en s = 1 ∧ s.link.d3 = true then 2 else 1 })) ∧
   (∀ s : State, s.serving = true → (s.trackIdle.clk.idleSince = none ∨ Cf.CLK_PM_sleep_en s = 0 ∨ s.clk.mode ≠ 0) →
     exec .sleepModeEntry s = .next s.trackIdle) ∧
   (∀ (s : State) (t0 : Nat), s.serving = true → s.trackIdle.clk.idleSince = some t0 → s.tm.mono < t0 + Cf.CLK_PM_idle_ms s →
     exec .sleepModeEntry s = .next s.trackIdle) ∧
   (∀ s : State, s.running = true → exec .powerModeWake s = .next { s with clk := { s.clk with mode := 0, idleSince := none } }) ∧
   (∀ (v : Word) (s : State), s.serving = true →
     (fld v 0 1 = 0 → exec (.fmcGo v) s = .next s) ∧
     (fld v 0 1 = 1 → s.clk.fmcBusy = true → exec (.fmcGo v) s = .next { s with clk := { s.clk with fmcRefused := true } }) ∧
     (fld v 0 1 = 1 → s.clk.fmcBusy = false → exec (.fmcGo v) s = .next { s with clk := { s.clk with fmcBusy := true } })) ∧
   (∀ (count : Word) (s : State), s.serving = true →
     (s.clk.fmcBusy = false → exec (.fmcDone count) s = .next s) ∧
     (s.clk.fmcBusy = true → ∃ stopped : Bool, stopped = ((match fmcDomain (Cf.CLK_FMC_CTL_clk s) with
         | some b => !bitN s.domains b
         | none => false) || (decide (Cf.CLK_FMC_CTL_ref s < 3) && !bitN s.clk.ok (Cf.CLK_FMC_CTL_ref s))) ∧
       exec (.fmcDone count) s = .next { s with clk := { s.clk with
         fmcBusy := false, fmcDone := true, fmcGated := s.clk.fmcGated || stopped, fmcCount := if stopped then 0 else count.toNat } })))

/-- Qualifying, supervising and switching the clock sources. With power-on reset released: CRYSTAL_QUALIFIED judges XT25 or XT32K,
XT25_REQUALIFY judges XT25 while it is not selected; CLOCK_SOURCE_FAULT of a source that is up faults it, of another it changes
nothing. SUPERVISOR_GATE shows the deviation of every pair whose sources are both up, with the expected offset of PE removed, and 0
of the others. REF25_SWITCHOVER takes the source it is going to, counted, and resynchronises; without one it changes nothing.
SOURCE_RETURN brings back the renewed sources that have agreed for return_s. SEL_REQ of a usable source of higher priority begins
the switch. Its clauses that rest on a choice or deduction of the model do so by log entries 3, 17, 47 and 65. Rests on
14_stilt_power_and_clocks.md R453, 14_stilt_power_and_clocks.md R454, 14_stilt_power_and_clocks.md R455,
14_stilt_power_and_clocks.md R456, 14_stilt_power_and_clocks.md R457, 14_stilt_power_and_clocks.md R458,
14_stilt_power_and_clocks.md R459. -/
def Obligations.ClockSources : Prop :=
  (∀ (xt good : Bool) (s : State), s.hlt.porHeld = false →
    exec (.crystalQualified xt good) s = .next (s.clkQualify (if xt then 2 else 0) good) ∧
    (s.clk.sel ≠ 0 → exec (.xt25Requalify good) s = .next (s.clkQualify 0 good)) ∧
    (s.clk.sel = 0 → exec (.xt25Requalify good) s = .next s)) ∧
  (∀ (k : Fin 3) (s : State), s.hlt.porHeld = false →
    (bitN s.clk.ok k.val = true → exec (.clockSourceFault k) s = .next (s.clkFault k.val)) ∧
    (bitN s.clk.ok k.val = false → exec (.clockSourceFault k) s = .next s)) ∧
  (∀ (xp xk pk : Int) (s : State), s.hlt.porHeld = false → Answers (.supervisorGate xp xk pk) s [.out, .log, .nvm, .nvs, .fn, .clk] (fun t =>
      t.clk.devXP = (if bitN s.clk.ok 0 && bitN s.clk.ok 1 then xp + 16 * Cf.CLK_SUP_CFG_pe_ofs_ppm s else 0) ∧
      t.clk.devXK = (if bitN s.clk.ok 0 && bitN s.clk.ok 2 then xk else 0) ∧
      t.clk.devPK = (if bitN s.clk.ok 1 && bitN s.clk.ok 2 then pk - 16 * Cf.CLK_SUP_CFG_pe_ofs_ppm s else 0))) ∧
  (∀ s : State, s.hlt.porHeld = false →
    (s.clk.goingTo = none → exec .ref25Switchover s = .next s) ∧
    (∀ k, s.clk.goingTo = some k → k = s.clk.sel → exec .ref25Switchover s = .next { s with clk := { s.clk with goingTo := none } }) ∧
    (∀ k, s.clk.goingTo = some k → k ≠ s.clk.sel → exec .ref25Switchover s =
      .next ({ s with clk := { s.clk with goingTo := none, sel := k, switches := inc16 s.clk.switches } } : State).resyncAll)) ∧
  (∀ (s : State) (back : Nat), s.hlt.porHeld = false → back = maskOf 3 (fun k => bitN s.clk.fault k && bitN s.clk.renewed k &&
      decide (8 * Cf.CLK_SUP_CFG_return_s s ≤ nth 0 s.clk.agreed k)) →
    (back = 0 → exec .sourceReturn s = .next s) ∧
    (back ≠ 0 → exec .sourceReturn s = .next ({ s with clk := { s.clk with
        fault := s.clk.fault - back, renewed := s.clk.renewed - back, rtcDiv := if bitN back 2 then false else s.clk.rtcDiv } } : State).betterSource)) ∧
  (∀ (v : Word) (s : State), s.serving = true →
    (fld v 0 2 < s.clk.sel → s.clkUsable (fld v 0 2) = true →
      exec (.selReq v) s = .next { s with clk := { s.clk with goingTo := some (fld v 0 2) } }) ∧
    (s.clk.sel ≤ fld v 0 2 ∨ s.clkUsable (fld v 0 2) = false → exec (.selReq v) s = .next s))

/-- Qualified inputs and their verdicts. INPUT_QUALIFIED, PD_PGOOD_FALL, PD_PGOOD_RISE and PSE_CLASS_CHANGE take the qualified level
of their inputs; a level that stands already changes nothing. CHATTER_CLEAR clears the chatter of an input that is judged (RATE_IN
not disabled) and has been quiet for its time, and changes nothing of another; INPUT_STUCK declares both sensors of a tray pair that
has conflicted for longer than pair_s, and an input held at its stuck level for longer than its rule allows. before that, or for one
that chatters, it changes nothing. STUCK_CLEAR ends the verdict of inputs that have left it for a second (of a pair: one sensor of
it) and changes nothing of others. ANALOGUE_OUT_OF_RANGE of a code out of range sets the bit of that input, keeps the code and is
logged; ANALOGUE_RETURN clears it once the code is back. Its clauses that rest on a choice or deduction of the model do so by log
entries 3 and 54. Rests on 14_stilt_power_and_clocks.md R465, 14_stilt_power_and_clocks.md R466, 18_balls_pads_and_resting_states.md
R557, 18_balls_pads_and_resting_states.md R558, 18_balls_pads_and_resting_states.md R559, 18_balls_pads_and_resting_states.md R561.
-/
def Obligations.Inputs : Prop :=
  (∀ (s : State), s.running = true →
    (∀ (i : Fin 13) (v : Bool), exec (.inputQualified i v) s = .next (s.qualify i.val v) ∧
      (bitN s.inp.qual i.val = v → exec (.inputQualified i v) s = .next s)) ∧
    exec .pdPgoodFall s = .next (s.qualify 10 false) ∧ exec .pdPgoodRise s = .next (s.qualify 10 true) ∧
    (∀ code : BitVec 2, exec (.pseClassChange code) s = .next ((s.qualify 8 (bitN code.toNat 0)).qualify 9 (bitN code.toNat 1)))) ∧
  (∀ (i : Fin 13) (s : State), s.running = true → bitN s.inp.chat i.val = true → s.rateLimit i.val = none → s.judged i.val = true →
    exec (.chatterClear i) s = .next ((s.overLevels (fun s => s.endChatter i.val)).cleared i.val)) ∧
  (∀ (i : Fin 13) (s : State) (lim w : Nat), s.running = true → bitN s.inp.chat i.val = true → i.val ≠ 11 → s.rateLimit i.val = some (lim, w) →
    (nth 0 s.inp.since i.val + fineSec ≤ s.fine → s.changesIn i.val (nth 0 s.inp.since i.val) fineSec ≤ lim →
      exec (.chatterClear i) s = .next ((s.overLevels (fun s => s.endChatter i.val)).cleared i.val)) ∧
    (s.fine < nth 0 s.inp.since i.val + fineSec ∨ lim < s.changesIn i.val (nth 0 s.inp.since i.val) fineSec →
      exec (.chatterClear i) s = .next s)) ∧
  (∀ s : State, s.running = true → bitN s.inp.chat 11 = true →
    (s.judged 11 = true → s.inp.rateBad + 200 * fineWindow ≤ s.fine → exec (.chatterClear 11) s = .next ((s.overLevels (fun s => s.endChatter 11)).cleared 11)) ∧
    (s.fine < s.inp.rateBad + 200 * fineWindow → exec (.chatterClear 11) s = .next s)) ∧
  (∀ (i : Fin 13) (s : State), (bitN s.inp.chat i.val = false → exec (.chatterClear i) s = .next s) ∧
    (bitN s.inp.stuck i.val = false → exec (.stuckClear i) s = .next s) ∧
    (s.judged i.val = false → exec (.chatterClear i) s = .next s ∧ exec (.inputStuck i) s = .next s ∧ exec (.stuckClear i) s = .next s)) ∧
  (∀ (i : Fin 13) (s : State), s.running = true →
    (∀ t, i.val < 8 → nth none s.inp.pairSince (i.val % 4) = some t → t + Cf.INP_CFG_TRAY_pair_s s * fineSec < s.fine →
      bitN s.inp.chat (i.val % 4) = false → bitN s.inp.chat (4 + i.val % 4) = false →
      exec (.inputStuck i) s = .next (s.declareStuck [i.val % 4, 4 + i.val % 4])) ∧
    (i.val < 8 → nth none s.inp.pairSince (i.val % 4) = none → exec (.inputStuck i) s = .next s) ∧
    (∀ t, i.val < 8 → nth none s.inp.pairSince (i.val % 4) = some t → (s.fine ≤ t + Cf.INP_CFG_TRAY_pair_s s * fineSec ∨
      bitN s.inp.chat (i.val % 4) = true ∨ bitN s.inp.chat (4 + i.val % 4) = true) → exec (.inputStuck i) s = .next s) ∧
    (8 ≤ i.val → s.stuckRule i.val = none → exec (.inputStuck i) s = .next s) ∧
    (∀ v ms, 8 ≤ i.val → s.stuckRule i.val = some (v, ms) → (bitN s.inp.qual i.val ≠ v ∨ s.fine ≤ nth 0 s.inp.since i.val + ms * 32768 ∨
      bitN s.inp.chat i.val = true ∨ s.judged i.val = false) → exec (.inputStuck i) s = .next s) ∧
    (∀ v ms, 8 ≤ i.val → s.judged i.val = true → s.stuckRule i.val = some (v, ms) → bitN s.inp.qual i.val = v → bitN s.inp.chat i.val = false →
      nth 0 s.inp.since i.val + ms * 32768 < s.fine → exec (.inputStuck i) s = .next (s.declareStuck [i.val]))) ∧
  (∀ (i : Fin 13) (s : State) (v : Bool) (ms : Nat), s.running = true → bitN s.inp.stuck i.val = true → 8 ≤ i.val → s.judged i.val = true →
    s.stuckRule i.val = some (v, ms) → bitN s.inp.qual i.val ≠ v → nth 0 s.inp.since i.val + fineSec ≤ s.fine →
    exec (.stuckClear i) s = .next ((s.overLevels (fun s => { s with inp := { s.inp with stuck := setBitN s.inp.stuck i.val false } })).cleared i.val)) ∧
  (∀ (i : Fin 13) (s : State) (l : List Nat), s.running = true → bitN s.inp.stuck i.val = true → i.val < 8 →
    l = [i.val % 4, 4 + i.val % 4] →
    (s.pairApart (i.val % 4) = true → exec (.stuckClear i) s = .next (forEach l (fun k u => u.cleared k)
      (s.overLevels (fun s => { s with inp := { s.inp with stuck := l.foldl (fun a k => setBitN a k false) s.inp.stuck } })))) ∧
    (s.pairApart (i.val % 4) = false → exec (.stuckClear i) s = .next s)) ∧
  (∀ (i : Fin 13) (s : State) (v : Bool) (ms : Nat), s.running = true → 8 ≤ i.val → s.stuckRule i.val = some (v, ms) →
    (bitN s.inp.qual i.val = v ∨ s.fine < nth 0 s.inp.since i.val + fineSec) → exec (.stuckClear i) s = .next s) ∧
  (∀ (i : Fin 10) (code : BitVec 12) (s : State), s.running = true →
    (bitN s.inp.range i.val = false → s.codeOut i.val code.toNat = true →
      exec (.analogueOutOfRange i code) s = .next (((s.setRange i.val code.toNat true).inpEvt 2).note .rangeVerdict i.val)) ∧
    (bitN s.inp.range i.val = true ∨ s.codeOut i.val code.toNat = false → exec (.analogueOutOfRange i code) s = .next s) ∧
    (bitN s.inp.range i.val = true → s.codeBack i.val code.toNat = true →
      exec (.analogueReturn i code) s = .next (((s.setRange i.val code.toNat false).inpEvt 3).note .rangeBack i.val)) ∧
    (bitN s.inp.range i.val = false ∨ s.codeBack i.val code.toNat = false → exec (.analogueReturn i code) s = .next s))

/-- Budget samples, sensors and the real-time clock. BUDGET_SAMPLE judges the mean code, queues the drives that asked, and gives or
takes grants. SENSOR_SAMPLE takes the readings of its kind. HOT_CLEAR ends the hot state 10 s after the reading that began the
cooling, not before. THERM_WRITE stores both temperatures or, out of range, keeps them; a reserved bit that it sets is logged.
TIM_SEC_LO_READ answers the low seconds and latches the high seconds and the sub-seconds of the same tick. SET stages the time, and
is an access error while one is pending; CANCEL takes it back; CLOCK_COMMIT makes the staged time the wall time at the next second
and the clock valid, and without one changes nothing. Its clauses that rest on a choice or deduction of the model do so by log
entries 3, 53, 54 and 65. Rests on 14_stilt_power_and_clocks.md R468, 16_heron_time_settings_log.md R497,
16_heron_time_settings_log.md R498, 16_heron_time_settings_log.md R519, 16_heron_time_settings_log.md R520. -/
def Obligations.BudgetSensorsAndClock : Prop :=
  (∀ (code : BitVec 12) (s : State), s.running = true →
    exec (.budgetSample code) s = .next (((((s.budget code.toNat).judgeLevel).queueAsked).giveGrant).runGrants).settle) ∧
  (∀ s : State, s.running = true → (∀ l, exec (.sensorSample (.die l)) s = .next (s.readDie l)) ∧
    (∀ l, exec (.sensorSample (.therm l)) s = .next
      ((forBelow 4 (fun d t => t.holdTherm d) { s with sns := { s.sns with thm := (List.range 4).map (fun d => (nth 0 l d).toNat) } }).tempTriggers).settle) ∧
    (∀ l, exec (.sensorSample (.rails l)) s = .next (s.readRails (l.map (fun v => v.toNat)))) ∧
    (∀ d code, exec (.sensorSample (.laser d code)) s = .next (s.readLaser d.val code.toNat))) ∧
  (∀ (s : State), s.running = true →
    (∀ t, s.sns.coolSince = some t → t + 10000 ≤ s.tm.mono → exec .hotClear s = .next { s with sns := { s.sns with hot := false } }) ∧
    (s.sns.coolSince = none ∨ (∃ t, s.sns.coolSince = some t ∧ s.tm.mono < t + 10000) → exec .hotClear s = .next s)) ∧
  (∀ (v : Word) (s : State), s.serving = true →
    (∀ t, t = s.setReg Reg.HRN_THERM (if thermOk v.toNat then BitVec.ofNat 32 (v.toNat % 65536 + (s.reg Reg.HRN_THERM).toNat / 65536 * 65536) else s.reg Reg.HRN_THERM) →
      exec (.thermWrite v) s = .next (if v.toNat < 65536 then t else t.note .reservedBits Reg.HRN_THERM))) ∧
  (∀ s : State, s.serving = true → Answers .timSecLoRead s [.out, .latches, .sec] (fun t =>
      (s.txHold 2 = false → t.out = .readData 0 Reg.TIM_SEC_LO (leBytes 4 s.tm.sec) :: s.out) ∧
      Bank.get latchDef t.latches Reg.TIM_SEC_HI = some (BitVec.ofNat 32 (s.tm.sec / 2 ^ 32)) ∧
      Bank.get latchDef t.latches Reg.TIM_SUB = some (BitVec.ofNat 32 s.tm.sub))) ∧
  (∀ s : State, s.serving = true →
    (s.tm.pending = true → exec .setClock s = .next (s.accError 0 1 Reg.TIM_CMD)) ∧
    (s.tm.pending = false → exec .setClock s = .next { s with tm := { s.tm with pending := true, late := decide (s.tm.sub = 32767) } }) ∧
    exec .cancel s = .next { s with tm := { s.tm with pending := false, late := false } }) ∧
  (∀ s : State, s.running = true → s.tm.pending = true → Answers .clockCommit s [.out, .regs, .tm, .log, .nvm, .nvs, .inst, .fn, .drives, .cal] (fun t =>
      t.tm.sec = s.stagedSec ∧ t.tm.sub = s.stagedSub ∧ t.tm.pending = false ∧ t.tm.valid = true ∧ t.tm.commits = inc16 s.tm.commits)) ∧
  (∀ s : State, s.tm.pending = false → exec .clockCommit s = .next s)

/-- Register reads and writes of the host. LATCHED_PAIR_READ, of 1, 2, 4 or 8 bytes, answers all ones in the integrity halt and, but
for INS.STS, from BAR0 of an instance under reset; Unsupported Request from a closed BAR or past its end, and from the configuration
space of a function that does not exist; Retry Status while the block does not serve; otherwise the bytes read, waking the block.
REGISTER_WRITE through a closed BAR changes nothing; an aligned word of configuration space is written by its fields; an aligned
word to a stored register of the spindle block is stored by its access codes; a narrow or unaligned write that touches a register is
one access error and changes no register. ACC_CLR clears the access error record; RST_CNT_CLEAR clears counter 6. Its clauses that
rest on a choice or deduction of the model do so by log entries 30 and 31. Rests on 00_scope.md R8, 00_scope.md R22, 00_scope.md
R23, 03_instances_manager_and_metering.md R91, 16_heron_time_settings_log.md R517. -/
def Obligations.RegisterAccess : Prop :=
  (∀ (off : BitVec 22) (w : Width) (s : State), s.hlt.porHeld = false → s.hlt.perstLow = false →
    (∀ f, s.hlt.halt.isSome = true → exec (.latchedPairRead (.bar0 f) ⟨off, w⟩) s =
      .next (s.emitCpl (.readData f off.toNat (List.replicate w.bytes 0xFF)))) ∧
    (s.hlt.halt.isSome = true → exec (.latchedPairRead .bar2 ⟨off, w⟩) s =
      .next (s.emitCpl (.readData 0 off.toNat (List.replicate w.bytes 0xFF)))) ∧
    (∀ f, s.hlt.halt = none → (s.barOpen f.toNat = false ∨ 0x8000 ≤ off.toNat) →
      exec (.latchedPairRead (.bar0 f) ⟨off, w⟩) s = .next (s.emitCpl (.cplUr f))) ∧
    (∀ f, s.hlt.halt = none → s.barOpen f.toNat = true → s.wakeUp.inReset f.toNat = true → 4 ≤ off.toNat → off.toNat + w.bytes ≤ 0x8000 →
      exec (.latchedPairRead (.bar0 f) ⟨off, w⟩) s = .next (s.wakeUp.emitCpl (.readData f off.toNat (List.replicate w.bytes 0xFF)))) ∧
    (s.hlt.halt = none → s.barOpen 0 = true →
      (∀ l t, readSpan State.readBar2 off.toNat w.bytes s.wakeUp = (l, t) →
        exec (.latchedPairRead .bar2 ⟨off, w⟩) s = .next (t.emitCpl (.readData 0 off.toNat l))) ∧
      (∀ v t, off.toNat % 4 = 0 → s.wakeUp.readWord off.toNat = (v, t) →
        exec (.latchedPairRead .bar2 ⟨off, .w32⟩) s = .next (t.emitCpl (.readData 0 off.toNat (leBytes 4 v.toNat))))) ∧
    (∀ f, s.hlt.halt = none → s.barOpen f.toNat = true → off.toNat < 0x8000 → ∀ l t,
      readSpan (State.readBar0 f.toNat) off.toNat w.bytes s.wakeUp = (l, t) →
      exec (.latchedPairRead (.bar0 f) ⟨off, w⟩) s = .next (t.emitCpl (.readData f off.toNat l))) ∧
    (∀ f, off.toNat < 4096 → exec (.latchedPairRead (.cfg f) ⟨off, w⟩) s = .next (s.configRead f off.toNat w.bytes)) ∧
    (0x400 ≤ off.toNat → off.toNat < 0x440 → exec (.latchedPairRead .hst ⟨off, w⟩) s = .next (s.configRead 0 off.toNat w.bytes)) ∧
    (∀ f, s.hlt.halt = none → s.link.up = true → off.toNat < 4096 →
      (s.serving = true → s.fnExists f.toNat = false → exec (.latchedPairRead (.cfg f) ⟨off, w⟩) s = .next (s.emitCpl (.cplUr f))) ∧
      (s.serving = false → exec (.latchedPairRead (.cfg f) ⟨off, w⟩) s = .next (s.emitCpl (.cplCrs f))))) ∧
  (∀ (off : BitVec 22) (data : List Byte) (s : State),
    (∀ f, (s.barOpen f.toNat = false ∨ s.inReset f.toNat = true) → exec (.registerWrite (.bar0 f) off data) s = .next s) ∧
    (s.barOpen 0 = false → exec (.registerWrite .bar2 off data) s = .next s) ∧
    (s.cfgOpen 0 = false → exec (.registerWrite .hst off data) s = .next s) ∧
    (∀ f, off.toNat % 4 = 0 → data.length = 4 → off.toNat < 4096 →
      exec (.registerWrite (.cfg f) off data) s = .next (s.writeCfg f off.toNat (leAt data 0 4)))) ∧
  (∀ (off : BitVec 22) (data : List Byte) (s : State), s.barOpen 0 = true → 0x0D0000 ≤ off.toNat → off.toNat < 0x0E0000 →
    (bar2Desc off.toNat).isSome = true → off.toNat % 4 = 0 → off.toNat % 0x1000 ≠ 4 → data.length = 4 →
    exec (.registerWrite .bar2 off data) s = .next (s.wakeUp.storeReg off.toNat (BitVec.ofNat 32 (leAt data 0 4)))) ∧
  (∀ (off : BitVec 22) (data : List Byte) (s : State), s.barOpen 0 = true → (off.toNat % 4 ≠ 0 ∨ data.length % 4 ≠ 0) →
    (touchesReg bar2Desc off.toNat data.length = true → exec (.registerWrite .bar2 off data) s = .next (s.wakeUp.accError 0 1 off.toNat)) ∧
    (touchesReg bar2Desc off.toNat data.length = false → exec (.registerWrite .bar2 off data) s = .next s.wakeUp)) ∧
  (∀ s : State, s.barOpen 0 = true → exec .accClr s = .next { s with hlt := { s.hlt with accErr := 0, accAddr := 0 } } ∧
    exec .rstCntClear s = .next (s.ctrStore 6 0)) ∧
  (∀ s : State, s.barOpen 0 = false → exec .accClr s = .next s ∧ exec .rstCntClear s = .next s)

/-- A write of a stored register changes only its writable bits. For every register of the map but CLK.GATE_RUN, whose fixed bits
read 1: a write leaves every bit outside its RW and RWS bits as it was, so an RO bit, a reserved bit and a bit of another code keep
their value. No other register changes. A write that sets a reserved bit logs one notice, and so does a value out of its range where
the chapter states no consequence; any other write logs nothing. Its clauses that rest on a choice or deduction of the model do so
by log entries 6 and 29. Rests on 00_scope.md R7, 00_scope.md R20, 00_scope.md R24. -/
def Obligations.WritableBits : Prop :=
  (∀ (k : Nat) (r : RegDesc) (v : Word) (s : State), s.Canon → regDesc k = some r → k ≠ 0x010034 →
    (∀ i, i < 32 → r.rw.testBit i = false → r.rws.testBit i = false →
      ((s.storeReg k v).reg k).toNat.testBit i = (s.reg k).toNat.testBit i) ∧
    (∀ j, j ≠ k → (s.storeReg k v).reg j = s.reg j) ∧
    (rsvWritten r v = false → (unstatedRange k && rangeRefused k r (s.reg k) v) = false → Only [.regs] s (s.storeReg k v)) ∧
    (rsvWritten r v = true → (unstatedRange k && rangeRefused k r (s.reg k) v) = false →
      s.storeReg k v = (s.setReg k (writeWord k r (s.reg k) v)).note .reservedBits k) ∧
    (rsvWritten r v = false → (unstatedRange k && rangeRefused k r (s.reg k) v) = true →
      s.storeReg k v = (s.setReg k (writeWord k r (s.reg k) v)).note .valueRefused k))

/-- The serial monitor and the JTAG port. With the monitor running every complete line restarts the idle time. On a locked monitor
RD, WR, BAUD and LOCK are refused with 07. RD outside 1 to 64 words is refused with 02; WR of a misaligned address with 02, of an
address that is not admitted with 03; into SRAM it stores the word below the own area of the monitor, into the register window it
writes as the PF, and into NVM it writes a row, but the fixed areas with 04; BAUD of an allowed rate changes the rate after the
status; LOCK stores the lock, and each row stored is an event; UNLOCK with the right code arms the unlock and is refused otherwise;
GO, and the idle timeout, end the monitor. I answers and changes only what was sent. A JTAG access not admitted is counted and
answered with the error. Its clauses that rest on a choice or deduction of the model do so by log entries 3 and 51. Rests on
17_curlew_monitor.md R535, 17_curlew_monitor.md R536, 17_curlew_monitor.md R537, 17_curlew_monitor.md R540, 17_curlew_monitor.md
R541, 17_curlew_monitor.md R542, 17_curlew_monitor.md R544, 05_sealing_boundary.md R198. -/
def Obligations.MonitorSession : Prop :=
  (∀ s u : State, s.mon.active = true → s.running = true → u = { s with mon := { s.mon with lastLine := s.tm.mono } } →
    (s.mon.locked = true → (∀ a n, exec (.monRd a n) s = .next (u.monRefuse 7)) ∧ (∀ a v g, exec (.monWr a v g) s = .next (u.monRefuse 7)) ∧
      (∀ r, exec (.baud r) s = .next (u.monRefuse 7)) ∧ exec .lock s = .next (u.monRefuse 7) ∧
      (∀ c, c.toNat = idValue → s.sea.slot < 3 →
        exec (.unlock c) s = .next (((u.monSave true true).monEvent .monitorArmed 0).status 0)) ∧
      (∀ c, (c.toNat ≠ idValue ∨ 3 ≤ s.sea.slot) → exec (.unlock c) s = .next (u.monRefuse 4)) ∧
      exec (.unknownCommand false) s = .next (s.monRefuse 7)) ∧
    (s.mon.locked = false →
      (∀ a n, (n.toNat = 0 ∨ 64 < n.toNat) → exec (.monRd a n) s = .next (u.status 2)) ∧
      (∀ a n l t e, n.toNat ≠ 0 → n.toNat ≤ 64 → u.monWords a.toNat n.toNat = (l, t, e) →
        exec (.monRd a n) s = .next (if 3 ≤ e then (t.dataLines a.toNat 8 l).monRefuse e else (t.dataLines a.toNat 8 l).status e)) ∧
      (∀ a v g, (a.toNat % 4 ≠ 0 ∨ 2 ^ 32 ≤ v.toNat) → exec (.monWr a v g) s = .next (u.status 2)) ∧
      (∀ a v g, a.toNat % 4 = 0 → v.toNat < 2 ^ 32 → u.admits .monitor a.toNat true = false →
        exec (.monWr a v g) s = .next ((u.rcRefuse .monitor a.toNat).monRefuse 3)) ∧
      (∀ a v g, a.toNat % 4 = 0 → v.toNat < 2 ^ 32 → u.admits .monitor a.toNat true = true → regionOf a.toNat = .sram → a.toNat < 0x3C000 →
        exec (.monWr a v g) s = .next (({ u with mon := { u.mon with
          sram := Bank.set wordDef u.mon.sram a.toNat (BitVec.ofNat 32 v.toNat) } } : State).status 0)) ∧
      (∀ a v g, a.toNat % 4 = 0 → v.toNat < 2 ^ 32 → u.admits .monitor a.toNat true = true → regionOf a.toNat = .sram → 0x3C000 ≤ a.toNat →
        exec (.monWr a v g) s = .next (u.monRefuse 4)) ∧
      (∀ a v g, a.toNat % 4 = 0 → v.toNat < 2 ^ 32 → u.admits .monitor a.toNat true = true → regionOf a.toNat = .bar2 →
        exec (.monWr a v g) s = .next ((u.asPf (a.toNat - 0x40000000) (BitVec.ofNat 32 v.toNat)).status 0)) ∧
      (∀ a v g, a.toNat % 4 = 0 → v.toNat < 2 ^ 32 → u.admits .monitor a.toNat true = true → regionOf a.toNat = .nvm →
        (nvmFixed (a.toNat - 0x50000000) = true → exec (.monWr a v g) s = .next (u.monRefuse 4)) ∧
        (nvmFixed (a.toNat - 0x50000000) = false → ∀ t e, u.rowWrite (a.toNat - 0x50000000) (BitVec.ofNat 32 v.toNat) g = (t, e) →
          exec (.monWr a v g) s = .next (t.status e))) ∧
      (∀ r, baudRates.contains r.toNat = true → Answers (.baud r) s [.out, .mon] (fun t => t.mon = { s.mon with lastLine := s.tm.mono, baud := r.toNat })) ∧
      (∀ r, baudRates.contains r.toNat = false → exec (.baud r) s = .next (u.monRefuse 4)) ∧
      exec .lock s = .next (((u.monSave true u.monArmed).monEvent .monitorLock 0).status 0) ∧
      (∀ c, exec (.unlock c) s = .next (u.monRefuse 4)) ∧
      exec (.unknownCommand false) s = .next (s.status 1)) ∧
    Answers .monI s [.out, .mon] (fun t => t.mon = { s.mon with lastLine := s.tm.mono }) ∧
    Answers .monitorGo s [.out, .mon] (fun t => t.mon = { s.mon with lastLine := s.tm.mono, active := false }) ∧
    exec (.unknownCommand true) s = .next (s.status 2) ∧
    (s.mon.lastLine + 1000 * s.mon.idleS ≤ s.tm.mono → exec .monitorIdleTimeout s = .next s.endMonitor) ∧
    (s.tm.mono < s.mon.lastLine + 1000 * s.mon.idleS → exec .monitorIdleTimeout s = .next s)) ∧
  (∀ s : State, s.mon.active = false → exec .monI s = .next s ∧ (∀ a n, exec (.monRd a n) s = .next s) ∧
    (∀ a v g, exec (.monWr a v g) s = .next s) ∧ (∀ r, exec (.baud r) s = .next s) ∧ exec .lock s = .next s ∧ (∀ c, exec (.unlock c) s = .next s) ∧
    exec .monitorGo s = .next s ∧ exec .monitorIdleTimeout s = .next s ∧ ∀ b, exec (.unknownCommand b) s = .next s) ∧
  (∀ (addr : BitVec 40) (v : Word) (s : State) (a : Nat), s.hlt.porHeld = false → a = addr.toNat / 4 * 4 →
    (∀ w, s.admits .jtag a w = false → exec (.jtagAccess w addr v) s =
      .next ((if w then s.rcRefuse .jtag a else (s.rcRefuse .jtag a).emit (.jtag 0)).emit .jtagError)) ∧
    (s.admits .jtag a true = true → regionOf a = .sram →
      exec (.jtagAccess true addr v) s = .next { s with mon := { s.mon with sram := Bank.set wordDef s.mon.sram a v } }) ∧
    (s.admits .jtag a false = true → regionOf a = .sram →
      exec (.jtagAccess false addr v) s = .next (s.emit (.jtag (Bank.get wordDef s.mon.sram a)))))

/-- Configuration writes with an effect of their own. With the configuration space of the function open and PERST_N high:
CONFIG_WRITE sets its field; SYSTEM_PAGE_SIZE_WRITE, NUMVFS_WRITE and COMPLETION_TIMEOUT_VALUE_WRITE take an allowed value and
ignore any other; VF_ENABLE_SET makes the VFs appear with fresh configuration space, VF_ENABLE_CLEAR resets them;
BUS_MASTER_ENABLE_WRITE sets the bit and, set, lets held work go on, waking a function whose bit was 0; MSIX_VECTOR_UNMASK clears
the mask and sends what is pending; INITIATE_FUNCTION_LEVEL_RESET begins the reset of the function. A write to a function that does
not exist is Unsupported, to one in its reset is Retry Status. Its clauses that rest on a choice or deduction of the model do so by
log entries 32, 66 and 72. Rests on 02_host_link_and_functions.md R41, 02_host_link_and_functions.md R48,
02_host_link_and_functions.md R49, 02_host_link_and_functions.md R50, 02_host_link_and_functions.md R53,
02_host_link_and_functions.md R54, 02_host_link_and_functions.md R56, 02_host_link_and_functions.md R58,
02_host_link_and_functions.md R60. -/
def Obligations.ConfigurationWrites : Prop :=
  (∀ (f : Func) (field : CfgField) (v : Word) (s : State), s.cfgOpen f.toNat = true → s.hlt.perstLow = false →
    exec (.configWrite f field v) s = .next (s.setCfgField f.toNat field v.toNat)) ∧
  (∀ (s : State), s.cfgOpen 0 = true → s.hlt.perstLow = false →
    (∀ v : Word, v ∈ [1#32, 2#32, 4#32, 8#32] → exec (.systemPageSizeWrite v) s = .next { s with link := { s.link with pageSize := v.toNat } }) ∧
    (∀ v : Word, v ∉ [1#32, 2#32, 4#32, 8#32] → exec (.systemPageSizeWrite v) s = .next s) ∧
    (∀ v : BitVec 16, s.link.vfEnable = false → v.toNat ≤ 255 → exec (.numvfsWrite v) s = .next { s with link := { s.link with numVfs := v.toNat } }) ∧
    (∀ v : BitVec 16, (s.link.vfEnable = true ∨ 255 < v.toNat) → exec (.numvfsWrite v) s = .next s) ∧
    (s.link.vfEnable = true → exec .vfEnableSet s = .next s) ∧
    (s.link.vfEnable = false → s.Canon → Answers .vfEnableSet s [.out, .link, .sec, .fn] (fun t =>
      t.link = { s.link with vfEnable := true, ariInForce := s.link.ari, misc := s.link.misc.filter (fun e => decide (e.1 / 4096 = 0)) } ∧
      (∀ k, 1 ≤ k → k ≤ s.link.numVfs → t.getFn k = { s.getFn k with cfg := FnCfg.reset, msix := [], pba := 0 }) ∧
      (∀ k, (k = 0 ∨ s.link.numVfs < k) → t.getFn k = s.getFn k))) ∧
    exec .vfEnableClear s = .next s.vfsOff ∧
    exec (.initiateFunctionLevelReset 0) s = .next ((s.beginFlr 0 2).vfsOff.endSessions.dropRegion)) ∧
  (∀ (f : Func) (s : State), s.cfgOpen f.toNat = true → s.hlt.perstLow = false →
    exec (.busMasterEnableWrite f false) s = .next (s.modCfg f.toNat (fun c => { c with bme := false })) ∧
    ((s.getFn f.toNat).cfg.bme = true → exec (.busMasterEnableWrite f true) s =
      .next (((s.modCfg f.toNat (fun c => { c with bme := true })).releasePending f.toNat).pump)) ∧
    ((s.getFn f.toNat).cfg.bme = false → exec (.busMasterEnableWrite f true) s =
      .next ((((((s.modCfg f.toNat (fun c => { c with bme := true })).wakeFn f.toNat).fetchSoon f.toNat)).releasePending f.toNat).pump)) ∧
    (∀ v : BitVec 4, v ∈ [1#4, 2#4, 5#4, 6#4] →
      exec (.completionTimeoutValueWrite f v) s = .next (s.modCfg f.toNat (fun c => { c with cto := v.toNat }))) ∧
    (∀ v : BitVec 4, v ∉ [1#4, 2#4, 5#4, 6#4] → exec (.completionTimeoutValueWrite f v) s = .next s) ∧
    (f ≠ 0 → exec (.initiateFunctionLevelReset f) s = .next (s.beginFlr f.toNat 2)) ∧
    exec (.msixVectorUnmask f .functionMask) s = .next (s.setCfgField f.toNat .functionMask 0) ∧
    exec (.msixVectorUnmask f .enable) s = .next (s.setCfgField f.toNat .msixEnable 1)) ∧
  (∀ (f : Func) (v : Fin 16) (s : State), s.barOpen f.toNat = true → s.inReset f.toNat = false → ∃ g : Fn → Fn,
    exec (.msixVectorUnmask f (.vector v)) s = .next ((s.modFn f.toNat g).releasePending f.toNat) ∧
    ∀ x, g x = { x with msix := Bank.set msixDef x.msix v.val { Bank.get msixDef x.msix v.val with masked := false } }) ∧
  (∀ (f : Func) (field : CfgField) (v : Word) (s : State), s.serving = true → s.link.up = true → s.hlt.perstLow = false →
    (s.fnExists f.toNat = false → exec (.configWrite f field v) s = .next (s.emitCpl (.cplUr f))) ∧
    (s.fnExists f.toNat = true → (s.getFn f.toNat).flr = true → exec (.configWrite f field v) s = .next (s.emitCpl (.cplCrs f))))

/-- Power states, the link and the warm reset. POWER_STATE_D3HOT of the open physical function sets D3hot and changes nothing else;
POWER_STATE_D0 clears it, wakes the block and lets held work go on. LINK_UP, with power and PERST_N in order and no warm reset
running, notes the lower of the rates of both ends and the width; in the integrity halt a link that is up is left as it is. DL_DOWN
and HOT_RESET_RECEIVED with the link up count one link loss, take the link down and, after the first ready state, begin the warm
reset with their cause; without a link they change nothing. WARM_RESET_COMPLETE ends it and gives the functions whose instance has
no reset left their reset values; with no warm reset running it changes nothing. Its clauses that rest on a choice or deduction of
the model do so by log entries 3, 22, 32 and 33. Rests on 02_host_link_and_functions.md R44, 02_host_link_and_functions.md R61,
02_host_link_and_functions.md R63, 14_stilt_power_and_clocks.md R462, 15_start_reset_and_halt.md R484. -/
def Obligations.LinkAndPowerStates : Prop :=
  (∀ s : State, s.cfgOpen 0 = true → s.hlt.perstLow = false →
    exec .powerStateD3hot s = .next { s with link := { s.link with d3 := true } } ∧
    exec .powerStateD0 s = .next (({ s with link := { s.link with d3 := false } } : State).wakeUp.resume)) ∧
  (∀ (rate : Fin 4) (width : Fin 3) (s : State), s.hlt.porHeld = false → s.hlt.perstLow = false → s.hlt.warming = false →
    (s.running = true ∨ s.link.up = false) → Answers (.linkUp rate width) s [.out, .log, .nvm, .nvs, .link, .fn] (fun t =>
      t.link = { s.link with up := true, rate := min rate.val (max 1 s.link.targetRate - 1), width := 2 ^ width.val })) ∧
  (∀ (rate : Fin 4) (width : Fin 3) (s : State), (s.hlt.porHeld = true ∨ s.hlt.perstLow = true ∨ s.hlt.warming = true ∨
      (s.running = false ∧ s.link.up = true)) → exec (.linkUp rate width) s = .next s) ∧
  (∀ s : State, s.link.up = true → s.running = true → s.boot.ready = false →
    Answers .dlDown s [.out, .regs, .nextSet, .liveSet, .prevSet, .latches, .epoch, .tm, .hlt, .log, .nvm, .nvs, .link, .sec, .inst, .fn, .cmds, .due, .reads, .fss, .mch, .fetches, .arc, .drives, .pwb, .cal, .rate] (fun t => t.link = { s.link with up := false, linkDown := inc16 s.link.linkDown } ∧ t.hlt = s.hlt) ∧
    Answers .hotResetReceived s [.out, .regs, .nextSet, .liveSet, .prevSet, .latches, .epoch, .tm, .hlt, .log, .nvm, .nvs, .link, .sec, .inst, .fn, .cmds, .due, .reads, .fss, .mch, .fetches, .arc, .drives, .pwb, .cal, .rate] (fun t =>
      t.link = { s.link with up := false, linkDown := inc16 s.link.linkDown } ∧ t.hlt = s.hlt)) ∧
  (∀ s u : State, s.link.up = true → s.running = true → s.boot.ready = true →
    u = { s with link := { s.link with linkDown := inc16 s.link.linkDown } } →
    (∀ w, w = u.note .linkDown 0 → exec .dlDown s = .next (({ w with hlt := { w.hlt with warmLink := true } } : State).linkLost)) ∧
    (∀ w, w = u.note .linkDown 1 → exec .hotResetReceived s = .next (({ w with hlt := { w.hlt with warmHot := true } } : State).linkLost))) ∧
  (∀ s : State, (s.link.up = false ∨ s.running = false) → exec .dlDown s = .next s ∧ exec .hotResetReceived s = .next s) ∧
  (∀ s : State, s.running = true → s.hlt.warming = true → Answers .warmResetComplete s [.out, .regs, .latches, .hlt, .link, .sec, .fn] (fun t =>
    t.hlt = { s.hlt with warming := false } ∧ ∀ u, u = { s with hlt := { s.hlt with warming := false } } →
      t = forEach u.liveFns (fun f t => if (t.getInst f).reset.isNone then t.resetFnOnly f else t) u)) ∧
  (∀ s : State, (s.running = false ∨ s.hlt.warming = false) → exec .warmResetComplete s = .next s)

/-- Power-on reset, brown-out and PERST_N. POWER_ON_RESET releases power-on reset, leaves any halt, and begins start-up anew with
the straps taken; BROWN_OUT begins the same reset and holds it, with the bit of the failed rail cleared; PERST_N_ASSERT with the
supplies in range resets the block and keeps the clock running, while power-on reset is held it only takes the level. All of them
keep the commands waiting and NAND, but for the pages whose program a loss of power cuts short, discard every command in flight and
the link, and leave no key in use. PERST_N_DEASSERT takes the level and the PCIe reference as present; with PERST_N high it changes
nothing. Its clauses that rest on a choice or deduction of the model do so by log entries 15, 16 and 17. Rests on
15_start_reset_and_halt.md R475, 15_start_reset_and_halt.md R476, 15_start_reset_and_halt.md R477, 15_start_reset_and_halt.md R478,
15_start_reset_and_halt.md R481, 15_start_reset_and_halt.md R483. -/
def Obligations.ResetsOfTheBlock : Prop :=
  (∀ (vsel : BitVec 2) (s : State), ∃ t, exec (.powerOnReset vsel) s = .next t ∧ t.pending = s.pending ∧ t.hlt.porHeld = false ∧
    t.hlt.halt = none ∧ t.vsel = vsel.toNat ∧ t.boot = State.reset.boot ∧ t.cmds = [] ∧ t.due = [] ∧ t.reads = [] ∧ t.link = State.reset.link ∧
    t.sec = State.reset.sec ∧ t.regs = [] ∧ t.inst = [] ∧ t.fn = [] ∧ t.nvm = s.nvm ∧ 
    t.fss.units = s.fss.units.filter (fun e => !(s.fss.fill ++ s.fss.progs).any (fun p => decide (p.pua / 4 = e.1 / 4))) ∧ t.hlt.por = !(s.hlt.porHeld && s.hlt.brownout) ∧ t.hlt.brownout = (s.hlt.porHeld && s.hlt.brownout) ∧ t.sea.kwk = none ∧ t.sea.kd = none) ∧
  (∀ (rail : Fin 7) (s : State), ∃ t, exec (.brownOut rail) s = .next t ∧ t.pending = s.pending ∧ t.hlt.porHeld = true ∧ t.hlt.brownout = true ∧
    t.hlt.halt = none ∧ t.hlt.supply = setBitN s.hlt.supply rail.val false ∧ t.boot = State.reset.boot ∧ t.cmds = [] ∧ t.link = State.reset.link ∧
    t.regs = [] ∧ t.nvm = s.nvm ∧
    t.fss.units = s.fss.units.filter (fun e => !(s.fss.fill ++ s.fss.progs).any (fun p => decide (p.pua / 4 = e.1 / 4))) ∧ t.sea.kwk = none ∧ t.sea.kd = none) ∧
  (∀ s : State, s.hlt.porHeld = true → exec .perstNAssert s = .next { s with hlt := { s.hlt with perstLow := true } }) ∧
  (∀ s : State, s.hlt.porHeld = false → ∃ t, exec .perstNAssert s = .next t ∧ t.pending = s.pending ∧ t.hlt.halt = none ∧ t.hlt.perst = true ∧
    t.hlt.perstLow = true ∧ t.hlt.porHeld = false ∧ t.boot = State.reset.boot ∧ t.cmds = [] ∧ t.due = [] ∧ t.reads = [] ∧ t.link.up = false ∧
    t.regs = [] ∧ t.inst = [] ∧ t.fn = [] ∧ t.tm.mono = s.tm.mono ∧ t.tm.sec = s.tm.sec ∧ t.tm.sub = s.tm.sub ∧ t.tm.pending = false ∧
    t.lateOpens = s.lateOpens ∧ t.sea.kwk = none ∧ t.sea.kd = none) ∧
  (∀ s : State, s.hlt.perstLow = false → exec .perstNDeassert s = .next s) ∧
  (∀ s : State, s.hlt.perstLow = true → s.hlt.porHeld = true → exec .perstNDeassert s = .next { s with hlt := { s.hlt with perstLow := false } }) ∧
  (∀ s : State, s.hlt.perstLow = true → s.hlt.porHeld = false → Answers .perstNDeassert s [.out, .hlt, .boot, .log, .nvm, .nvs, .fn, .clk] (fun t =>
      t.hlt = { s.hlt with perstLow := false } ∧ t.clk = { s.clk with ok := setBitN s.clk.ok 1 true } ∧
      t.boot.early = (s.boot.early || (s.running && !s.boot.ready)) ∧ t.boot.ready = s.boot.ready ∧ t.boot.step = s.boot.step))

/-- Start-up and the first ready state. STARTUP_SEQUENCE goes on with the steps that its point of start-up allows; a format that
draws keys waits while the random source is stopped, and after 10 s of that the halt begins; after the first ready state, or while
the monitor runs, it changes nothing. SWEEP_WATERMARK seals the next lines, never more than the whole range; SWEEP_COMPLETE ends the
sweep; with no sweep running neither changes anything. FIRST_READY_STATE at the end of step 11 makes the block ready at step 12 and
notes the time it took; before that, and afterwards, it changes nothing. Its clauses that rest on a choice or deduction of the model
do so by log entries 3 and 14. Rests on 15_start_reset_and_halt.md R479, 15_start_reset_and_halt.md R480, 05_sealing_boundary.md
R186, 16_heron_time_settings_log.md R527. -/
def Obligations.StartUp : Prop :=
  (∀ (env : StartEnv) (s : State), (s.boot.ready = true ∨ s.mon.active = true) → exec (.startupSequence env) s = .next s) ∧
  (∀ (env : StartEnv) (s : State), s.running = true → s.boot.ready = false → s.mon.active = false →
    (s.boot.step < 4 → (s.bootFirst env).running = false → exec (.startupSequence env) s = .next (s.bootFirst env)) ∧
    (s.boot.step < 4 → (s.bootFirst env).running = true → (s.bootFirst env).level 12 = false →
      exec (.startupSequence env) s = .next (s.bootFirst env).enterMonitor) ∧
    (s.boot.step < 4 → (s.bootFirst env).running = true → (s.bootFirst env).level 12 = true →
      exec (.startupSequence env) s = .next ((s.bootFirst env).bootSecond env)) ∧
    (4 ≤ s.boot.step → s.boot.step < 7 → exec (.startupSequence env) s = .next (s.bootSecond env)) ∧
    (s.boot.step = 7 → exec (.startupSequence env) s = .next (s.stepDram env.lpddr)) ∧
    (s.boot.step = 8 → (s.boot.dramFail = true ∨ min 1048576 s.sweepTotal ≤ s.sea.sweepLines) →
      ((s.formatDue env = false ∨ s.sea.rngOk = true) → exec (.startupSequence env) s = .next (s.bootThird env)) ∧
      (s.formatDue env = true → s.sea.rngOk = false → s.sea.rngDown + 10000 ≤ s.tm.mono →
        ∃ n : Fin 10, n.val = 9 ∧ exec (.startupSequence env) s = .next (s.haltBy (.hardware n))) ∧
      (s.formatDue env = true → s.sea.rngOk = false → s.tm.mono < s.sea.rngDown + 10000 → exec (.startupSequence env) s = .next s)) ∧
    (s.boot.step = 8 → s.boot.dramFail = false → s.sea.sweepLines < min 1048576 s.sweepTotal → exec (.startupSequence env) s = .next s) ∧
    (8 < s.boot.step → exec (.startupSequence env) s = .next s)) ∧
  (∀ (n : BitVec 27) (s : State), s.running = true → s.sweeping = true → Answers (.sweepWatermark n) s [.sea] (fun t =>
      t.sea.sweepLines = min s.sweepTotal (s.sea.sweepLines + n.toNat) ∧ t.sea.sweepLines ≤ s.sweepTotal)) ∧
  (∀ s : State, s.running = true → s.sweeping = true → Answers .sweepComplete s [.boot, .sea] (fun t =>
      t.sea.sweepDone = true ∧ t.sea.sweepLines = s.sweepTotal ∧ (9 ≤ s.boot.step → t.boot.step = if s.boot.mapDone then 11 else 10))) ∧
  (∀ s : State, s.sweeping = false → exec .sweepComplete s = .next s ∧ ∀ n, exec (.sweepWatermark n) s = .next s) ∧
  (∀ s : State, s.running = true → s.boot.ready = false → s.boot.step = 11 → Answers .firstReadyState s [.out, .boot, .log, .nvm, .nvs, .inst, .fn, .fss, .arc, .drives] (fun t =>
      t.boot.ready = true ∧ t.boot.step = 12 ∧ t.boot.bootMs = satU 16 s.bootClock)) ∧
  (∀ s : State, (s.boot.ready = true ∨ s.boot.step ≠ 11) → exec .firstReadyState s = .next s)

/-- A WRITE or DISCARD over a held block is refused whole. A WRITE or DISCARD being served of which some block is held completes
with the retention status. The command brings the map leaves of its blocks into the pool and does nothing else to the store: no
entry of the map, so no block of the command, changes. u is the state once the leaves are in; v is the state the check of the
WRITE's line leaves, which counts a second read. Formalises 03_instances_manager_and_metering.md R110. -/
def Obligations.HeldBlocksRefuseWrites : Prop :=
  (∀ (id : Nat) (s u : State) (c : Cmd), s.Canon → s.Runs id .discard c →
    u = (s.setFor c).touchRun c.fn.toNat (eArg0 c.entry) (eArg1 c.entry) →
    (∃ k, k < eArg1 c.entry ∧ u.heldBlock c.fn.toNat (eArg0 c.entry + k) c.minHold c.legalHold = true) →
    ∃ k, Answers (.discard id) s [.out, .log, .nvm, .nvs, .inst, .fn, .cmds, .due, .fss, .mch, .fetches] (fun t =>
      t.fss = u.fss ∧ t.fss.map = s.fss.map ∧ t.fss.archived = s.fss.archived ∧ (c.gen = (s.getInst c.fn.toNat).gen →
        t.due = s.due ++ [⟨c.id, c.fn, c.sq, c.cq, c.sqHead, eRid c.entry, stRetention, false, false, k⟩]))) ∧
  (∀ (id : Nat) (s u v : State) (c : Cmd) (mac : MacCheck), s.Canon → s.Runs id .write c → s.fss.quiesced = false →
    (mac = .good ∧ v = s ∨ ∃ addr first again, mac = .line addr first again ∧ addr.toNat / 64 * 64 / 64 < s.sea.sweepLines ∧
      (s.linePasses (addr.toNat / 64 * 64) first = true ∧ v = s ∨
       s.linePasses (addr.toNat / 64 * 64) first = false ∧ s.linePasses (addr.toNat / 64 * 64) again = true ∧
         v = { s with sea := { s.sea with retryDram := inc16 s.sea.retryDram } })) →
    u = (v.setFor c).touchRun c.fn.toNat (eArg0 c.entry) (eArg1 c.entry) →
    (∃ k, k < eArg1 c.entry ∧ u.heldBlock c.fn.toNat (eArg0 c.entry + k) c.minHold c.legalHold = true) →
    ∃ k, Answers (.write id mac) s [.out, .log, .nvm, .nvs, .inst, .fn, .cmds, .due, .sea, .fss, .mch, .fetches] (fun t =>
      t.fss = u.fss ∧ t.fss.map = s.fss.map ∧ t.fss.archived = s.fss.archived ∧ (c.gen = (s.getInst c.fn.toNat).gen →
        t.due = s.due ++ [⟨c.id, c.fn, c.sq, c.cq, c.sqHead, eRid c.entry, stRetention, false, false, k⟩])))

/-- INSTANCE_REMOVE of an instance with a held block. INSTANCE_REMOVE being served, whose target allows it, completes with the
retention status while any block its target maps is held: it brings the leaves of the target into the pool and changes no map entry,
and of no instance anything but the counters of the one that sent it and the unit sequence of the PF. Once no block is held the same
command begins the removal. u is the state once the leaves are in. Formalises 03_instances_manager_and_metering.md R93. -/
def Obligations.HeldInstanceNotRemoved : Prop :=
  ∀ (id : Nat) (s u : State) (c : Cmd) (i : Nat), s.Canon → s.Runs id .remove c → (s.setFor c).checkState .remove c.fn.toNat c.entry = none → i = eTarget c.entry →
    u = forEach ((s.mappedBlocks i).map (fun b => leafKey i b)).eraseDups (fun k t => t.touchLeaf k) (s.setFor c) →
    ((∃ b, b ∈ s.mappedBlocks i ∧ u.heldBlock i b (u.getInst i).minHold (u.getInst i).legalHold = true) →
      ∃ b, Answers (.instanceRemove id) s [.out, .log, .nvm, .nvs, .inst, .fn, .cmds, .due, .fss, .mch, .fetches] (fun t => t.fss = u.fss ∧
        t.fss.map = s.fss.map ∧ (∀ j, j ≠ c.fn.toNat → j ≠ 0 → t.getInst j = s.getInst j) ∧ (t.getInst i).state = (s.getInst i).state ∧
        (c.gen = (s.getInst c.fn.toNat).gen →
          t.due = s.due ++ [⟨c.id, c.fn, c.sq, c.cq, c.sqHead, eRid c.entry, stRetention, false, false, b⟩]))) ∧
    ((∀ b, b ∈ s.mappedBlocks i → u.heldBlock i b (u.getInst i).minHold (u.getInst i).legalHold = false) → (s.getInst i).state = .active →
      exec (.instanceRemove id) s = .next (((u.setCmd { c with stage := .media }).beginReset i 5 false [c.id]).setBack s))

/-- INSTANCE_START while key generation is stopped. INSTANCE_START being served, whose target allows it, completes with the busy
status once rng_ok has been 0 for 100 ms: no key is drawn, nothing is journaled, and no instance but the counters of the sender
changes. Formalises 05_sealing_boundary.md R208. -/
def Obligations.StartWithoutEntropyIsBusy : Prop :=
  ∀ (id : Nat) (s : State) (c : Cmd), s.Canon → s.Runs id .start c → (s.setFor c).checkState .start c.fn.toNat c.entry = none →
    s.sea.rngOk = false → s.sea.rngDown + 100 ≤ s.tm.mono →
    Answers (.instanceStart id) s [.out, .log, .nvm, .nvs, .inst, .fn, .cmds, .due] (fun t => t.fss = s.fss ∧ t.sea = s.sea ∧
      (∀ j, j ≠ c.fn.toNat → t.getInst j = s.getInst j) ∧ (t.getInst c.fn.toNat).state = (s.getInst c.fn.toNat).state ∧
      (c.gen = (s.getInst c.fn.toNat).gen →
        t.due = s.due ++ [⟨c.id, c.fn, c.sq, c.cq, c.sqHead, eRid c.entry, stBusy, false, false, 0⟩]))

/-- Too many lost-step declarations fault the sled. An ADIP address that shows the held or following sled off its count by more than
tol declares lost steps. When the declarations of the last 600 s, this one among them, are more than SLD.LOST.max, the sled is in
FAULT with fault code 4. Formalises 12_sled_drive.md R415. -/
def Obligations.LostStepsFault : Prop :=
  ∀ (d : Fin 4) (k : Fin 567840) (s : State) (l : Sled) (r : Machine.Drive), s.serving = true → s.drives.length = 4 → r = s.drive d.val → l = r.sled →
    (l.st = .hold ∨ l.st = .follow) → s.zoneW d.val r.layer 0 ≠ 0 → Cf.SLD_MECH_NM_nm16 s d.val ≠ 0 → l.anchored = true →
    Cf.SLD_LOST_tol s d.val < (l.pos - s.slotPos d.val r.layer k.val).natAbs →
    Cf.SLD_LOST_max s d.val < ((s.tm.mono :: l.lostTimes).filter (fun t => s.tm.mono < t + 600000)).length →
    Answers (.sledRereference d k) s [.out, .log, .nvm, .nvs, .inst, .fn, .fss, .arc, .drives] (fun t =>
      (t.drive d.val).sled.st = .fault ∧ (t.drive d.val).sled.fault = 4 ∧ (t.drive d.val).sled.lost = inc16 l.lost)
end

