-- ==== Sys2Proof/Laws/Bank.lean ====
section
/-! SUPPORT. The laws of the sparse tables: a read after a write, and that every operation keeps the canonical form. -/

namespace Sys2Proof.Machine

variable {α : Type}

theorem Bank.above_le {m n : Nat} (h : m ≤ n) {b : Bank α} (hb : Bank.above n b = true) : Bank.above m b = true := by
  induction b with
  | nil => rfl
  | cons e r ih =>
    simp only [Bank.above, Bool.and_eq_true, decide_eq_true_eq] at hb ⊢
    exact ⟨by omega, ih hb.2⟩

theorem Bank.get_of_above {d : Nat → α} {k : Nat} {b : Bank α} (hb : Bank.above k b = true) : Bank.get d b k = d k := by
  induction b with
  | nil => rfl
  | cons e r ih =>
    simp only [Bank.above, Bool.and_eq_true, decide_eq_true_eq] at hb
    rw [Bank.get, if_neg (by omega)]
    exact ih hb.2

theorem Bank.get_insert_same (d : Nat → α) (b : Bank α) (k : Nat) (v : α) : Bank.get d (b.insert k v) k = v := by
  induction b with
  | nil => simp [Bank.insert, Bank.get]
  | cons e r ih =>
    unfold Bank.insert
    split
    · simp [Bank.get]
    · split
      · simp [Bank.get]
      · rw [Bank.get, if_neg (by omega)]
        exact ih

theorem Bank.get_insert_other (d : Nat → α) (b : Bank α) {j k : Nat} (v : α) (h : j ≠ k) :
    Bank.get d (b.insert k v) j = Bank.get d b j := by
  induction b with
  | nil => simp [Bank.insert, Bank.get, Ne.symm h]
  | cons e r ih =>
    unfold Bank.insert
    split
    · simp [Bank.get, Ne.symm h]
    · split
      · subst k
        simp [Bank.get, Ne.symm h]
      · simp only [Bank.get]
        rw [ih]

theorem Bank.get_erase_other (d : Nat → α) (b : Bank α) {j k : Nat} (h : j ≠ k) : Bank.get d (b.erase k) j = Bank.get d b j := by
  induction b with
  | nil => rfl
  | cons e r ih =>
    unfold Bank.erase
    split
    · subst k
      simp [Bank.get, Ne.symm h]
    · simp only [Bank.get]
      rw [ih]

theorem Bank.above_erase {n k : Nat} {b : Bank α} (h : Bank.above n b = true) : Bank.above n (b.erase k) = true := by
  induction b with
  | nil => rfl
  | cons e r ih =>
    simp only [Bank.above, Bool.and_eq_true, decide_eq_true_eq] at h
    unfold Bank.erase
    split
    · exact h.2
    · simp only [Bank.above, Bool.and_eq_true, decide_eq_true_eq]
      exact ⟨h.1, ih h.2⟩

theorem Bank.above_insert {n k : Nat} {v : α} {b : Bank α} (hk : n < k) (h : Bank.above n b = true) :
    Bank.above n (b.insert k v) = true := by
  induction b with
  | nil => simp [Bank.insert, Bank.above, hk]
  | cons e r ih =>
    simp only [Bank.above, Bool.and_eq_true, decide_eq_true_eq] at h
    unfold Bank.insert
    split
    · simp [Bank.above, hk, h.1, h.2]
    · split
      · simp [Bank.above, hk, h.2]
      · simp [Bank.above, h.1, ih h.2]

theorem Bank.above_filter {n : Nat} {p : Nat × α → Bool} {b : Bank α} (h : Bank.above n b = true) :
    Bank.above n (b.filter p) = true := by
  induction b with
  | nil => rfl
  | cons e r ih =>
    simp only [Bank.above, Bool.and_eq_true, decide_eq_true_eq] at h
    rw [List.filter_cons]
    split
    · simp [Bank.above, h.1, ih h.2]
    · exact ih h.2

variable [DecidableEq α]

theorem Bank.wf_above {d : Nat → α} {e : Nat × α} {r : Bank α} (h : Bank.wf d (e :: r) = true) : Bank.above e.1 r = true := by
  simp only [Bank.wf, Bool.and_eq_true] at h
  exact h.1.1

theorem Bank.wf_tail {d : Nat → α} {e : Nat × α} {r : Bank α} (h : Bank.wf d (e :: r) = true) : Bank.wf d r = true := by
  simp only [Bank.wf, Bool.and_eq_true] at h
  exact h.2

theorem Bank.get_erase_same {d : Nat → α} {b : Bank α} (hb : Bank.wf d b = true) (k : Nat) : Bank.get d (b.erase k) k = d k := by
  induction b with
  | nil => rfl
  | cons e r ih =>
    unfold Bank.erase
    split
    · subst k
      exact Bank.get_of_above (Bank.wf_above hb)
    · rw [Bank.get, if_neg (by assumption)]
      exact ih (Bank.wf_tail hb)

/-- A read of the key written gives the value written. -/
theorem Bank.get_set_same {d : Nat → α} {b : Bank α} (hb : Bank.wf d b = true) (k : Nat) (v : α) :
    Bank.get d (Bank.set d b k v) k = v := by
  unfold Bank.set
  split
  · rw [Bank.get_erase_same hb]
    exact Eq.symm ‹_›
  · exact Bank.get_insert_same d b k v

/-- A write leaves every other key alone. -/
theorem Bank.get_set_other (d : Nat → α) (b : Bank α) {j k : Nat} (v : α) (h : j ≠ k) :
    Bank.get d (Bank.set d b k v) j = Bank.get d b j := by
  unfold Bank.set
  split
  · exact Bank.get_erase_other d b h
  · exact Bank.get_insert_other d b v h

theorem Bank.wf_erase {d : Nat → α} {b : Bank α} (hb : Bank.wf d b = true) (k : Nat) : Bank.wf d (b.erase k) = true := by
  induction b with
  | nil => rfl
  | cons e r ih =>
    have ha := Bank.wf_above hb
    have ht := Bank.wf_tail hb
    unfold Bank.erase
    split
    · exact ht
    · simp only [Bank.wf, Bool.and_eq_true] at hb ⊢
      exact ⟨⟨Bank.above_erase ha, hb.1.2⟩, ih ht⟩

theorem Bank.wf_insert {d : Nat → α} {b : Bank α} (hb : Bank.wf d b = true) (k : Nat) {v : α} (hv : v ≠ d k) :
    Bank.wf d (b.insert k v) = true := by
  induction b with
  | nil => simp [Bank.insert, Bank.wf, Bank.above, hv]
  | cons e r ih =>
    have ha := Bank.wf_above hb
    have ht := Bank.wf_tail hb
    unfold Bank.insert
    split
    · rename_i h
      simp only [Bank.wf, Bool.and_eq_true, decide_eq_true_eq, Bank.above] at hb ⊢
      exact ⟨⟨⟨h, Bank.above_le (by omega) ha⟩, hv⟩, hb⟩
    · split
      · subst k
        simp only [Bank.wf, Bool.and_eq_true, decide_eq_true_eq]
        exact ⟨⟨ha, hv⟩, ht⟩
      · simp only [Bank.wf, Bool.and_eq_true, decide_eq_true_eq] at hb ⊢
        exact ⟨⟨Bank.above_insert (by omega) ha, hb.1.2⟩, ih ht⟩

/-- A write keeps the canonical form. -/
theorem Bank.wf_set {d : Nat → α} {b : Bank α} (hb : Bank.wf d b = true) (k : Nat) (v : α) : Bank.wf d (Bank.set d b k v) = true := by
  unfold Bank.set
  split
  · exact Bank.wf_erase hb k
  · exact Bank.wf_insert hb k ‹_›

/-- Dropping entries keeps the canonical form. -/
theorem Bank.wf_filter {d : Nat → α} {p : Nat × α → Bool} {b : Bank α} (hb : Bank.wf d b = true) :
    Bank.wf d (b.filter p) = true := by
  induction b with
  | nil => rfl
  | cons e r ih =>
    have ha := Bank.wf_above hb
    have ht := Bank.wf_tail hb
    rw [List.filter_cons]
    split
    · simp only [Bank.wf, Bool.and_eq_true] at hb ⊢
      exact ⟨⟨Bank.above_filter ha, hb.1.2⟩, ih ht⟩
    · exact ih ht

theorem Bank.above_mapVals {d : Nat → α} {n : Nat} {g : α → α} {b : Bank α} (h : Bank.above n b = true) :
    Bank.above n (Bank.mapVals d b g) = true := by
  induction b with
  | nil => rfl
  | cons e r ih =>
    simp only [Bank.above, Bool.and_eq_true, decide_eq_true_eq] at h
    unfold Bank.mapVals
    rw [List.foldr_cons]
    split
    · exact ih h.2
    · simp only [Bank.above, Bool.and_eq_true, decide_eq_true_eq]
      exact ⟨h.1, ih h.2⟩

/-- A change of every value keeps the canonical form. -/
theorem Bank.wf_mapVals {d : Nat → α} {g : α → α} {b : Bank α} (hb : Bank.wf d b = true) : Bank.wf d (Bank.mapVals d b g) = true := by
  induction b with
  | nil => rfl
  | cons e r ih =>
    have ha := Bank.wf_above hb
    have ht := Bank.wf_tail hb
    unfold Bank.mapVals
    rw [List.foldr_cons]
    split
    · exact ih ht
    · simp only [Bank.wf, Bool.and_eq_true, decide_eq_true_eq]
      exact ⟨⟨Bank.above_mapVals ha, ‹_›⟩, ih ht⟩

theorem Bank.get_mapVals {d : Nat → α} {g : α → α} {b : Bank α} (hb : Bank.wf d b = true) (hg : ∀ k, g (d k) = d k) (k : Nat) :
    Bank.get d (Bank.mapVals d b g) k = g (Bank.get d b k) := by
  induction b with
  | nil => exact (hg k).symm
  | cons e r ih =>
    have ha := Bank.wf_above hb
    have ht := Bank.wf_tail hb
    have he : Bank.mapVals d (e :: r) g = if g e.2 = d e.1 then Bank.mapVals d r g else (e.1, g e.2) :: Bank.mapVals d r g := rfl
    rw [he]
    split
    · rename_i h
      rw [Bank.get]
      split
      · rename_i hk
        rw [h, hk]
        exact Bank.get_of_above (Bank.above_mapVals (hk ▸ ha))
      · exact ih ht
    · simp only [Bank.get]
      split
      · rfl
      · exact ih ht

/-- Taking another table's entries keeps the canonical form. -/
theorem Bank.wf_adopt {d : Nat → α} {p : Nat → Bool} {src dst : Bank α} (hb : Bank.wf d dst = true) :
    Bank.wf d (Bank.adopt d p src dst) = true := by
  unfold Bank.adopt
  have h := Bank.wf_filter (p := fun e => !p e.1) hb
  generalize dst.filter (fun e => !p e.1) = b at h
  generalize src.filter (fun e => p e.1) = l
  induction l generalizing b with
  | nil => exact h
  | cons e r ih => exact ih _ (Bank.wf_set h e.1 e.2)

/-- A run of bytes keeps the canonical form. -/
theorem Bank.wf_putBytes {d : Nat → Byte} {b : Bank Byte} (hb : Bank.wf d b = true) (off : Nat) (l : List Byte) :
    Bank.wf d (Bank.putBytes d b off l) = true := by
  induction l generalizing b off with
  | nil => exact hb
  | cons v r ih => exact ih (Bank.wf_set hb off v) (off + 1)

/-- A run of bytes leaves every key outside it alone. -/
theorem Bank.get_putBytes_other (d : Nat → Byte) (b : Bank Byte) {off j : Nat} (l : List Byte) (h : j < off ∨ off + l.length ≤ j) :
    Bank.get d (Bank.putBytes d b off l) j = Bank.get d b j := by
  induction l generalizing b off with
  | nil => rfl
  | cons v r ih =>
    rw [List.length_cons] at h
    rw [Bank.putBytes, ih (Bank.set d b off v) (by omega), Bank.get_set_other d b v (by omega)]

/-- A read inside a run of bytes just written gives the byte written there. -/
theorem Bank.get_putBytes_inside {d : Nat → Byte} {b : Bank Byte} (hb : Bank.wf d b = true) (off k : Nat) (l : List Byte)
    (h : k < l.length) : Bank.get d (Bank.putBytes d b off l) (off + k) = l[k] := by
  induction l generalizing b off k with
  | nil => exact absurd h (Nat.not_lt_zero _)
  | cons v r ih =>
    cases k with
    | zero =>
      rw [Bank.putBytes, Bank.get_putBytes_other d _ r (Or.inl (by omega))]
      exact Bank.get_set_same hb off v
    | succ n =>
      rw [Bank.putBytes, show off + (n + 1) = off + 1 + n by omega,
        ih (Bank.wf_set hb off v) (off + 1) n (by rw [List.length_cons] at h; omega)]
      rfl

theorem Bank.bytes_length (d : Nat → Byte) (b : Bank Byte) (off len : Nat) : (Bank.bytes d b off len).length = len := by
  induction len generalizing off with
  | zero => rfl
  | succ n ih => rw [Bank.bytes, List.length_cons, ih]

theorem Bank.bytes_get (d : Nat → Byte) (b : Bank Byte) (off len k : Nat) (h : k < (Bank.bytes d b off len).length) :
    (Bank.bytes d b off len)[k] = Bank.get d b (off + k) := by
  induction len generalizing off k with
  | zero => exact absurd h (Nat.not_lt_zero _)
  | succ n ih =>
    cases k with
    | zero => rfl
    | succ j =>
      have e := ih (off + 1) j (by rw [Bank.bytes, List.length_cons] at h; omega)
      rw [show off + (j + 1) = off + 1 + j by omega]
      exact e

/-- A run of bytes reads back as it was written. -/
theorem Bank.bytes_putBytes {d : Nat → Byte} {b : Bank Byte} (hb : Bank.wf d b = true) (off : Nat) (l : List Byte) :
    Bank.bytes d (Bank.putBytes d b off l) off l.length = l := by
  apply List.ext_getElem
  · rw [Bank.bytes_length]
  · intro k h1 h2
    rw [Bank.bytes_get, Bank.get_putBytes_inside hb off k l h2]

end Sys2Proof.Machine
end

