-- ==== Sys2Proof/Laws/Bits.lean ====
section
/-! SUPPORT. The laws of bit masks and fields: what a bit or a field reads as after one is replaced. -/

namespace Sys2Proof.Machine

theorem setFldN_eq (n lo len v : Nat) :
    setFldN n lo len v = 2 ^ lo * (2 ^ len * (n / 2 ^ (lo + len)) + v % 2 ^ len) + n % 2 ^ lo := by
  have h1 : n = 2 ^ lo * (n / 2 ^ lo) + n % 2 ^ lo := (Nat.div_add_mod n (2 ^ lo)).symm
  have h2 : n / 2 ^ lo = 2 ^ len * (n / 2 ^ lo / 2 ^ len) + n / 2 ^ lo % 2 ^ len := (Nat.div_add_mod _ _).symm
  have h3 : n / 2 ^ lo / 2 ^ len = n / 2 ^ (lo + len) := by rw [Nat.div_div_eq_div_mul, ← Nat.pow_add]
  rw [h3] at h2
  unfold setFldN fldN
  rw [Nat.shiftRight_eq_div_pow]
  generalize n / 2 ^ (lo + len) = q at *
  generalize n / 2 ^ lo % 2 ^ len = b at *
  generalize n % 2 ^ lo = r at *
  rw [h2] at h1
  rw [h1, Nat.mul_add, Nat.mul_add, Nat.mul_comm b, Nat.mul_comm (v % _)]
  omega

/-- The field replaced reads as the low bits of the new value. -/
theorem fldN_setFldN_same (n lo len v : Nat) : fldN (setFldN n lo len v) lo len = v % 2 ^ len := by
  rw [setFldN_eq, fldN, Nat.shiftRight_eq_div_pow, Nat.mul_add_div (Nat.two_pow_pos lo),
    Nat.div_eq_of_lt (Nat.mod_lt _ (Nat.two_pow_pos lo)), Nat.add_zero, Nat.mul_add_mod, Nat.mod_mod]

/-- A bit outside the field replaced stays. -/
theorem testBit_setFldN_other (n lo len v j : Nat) (h : j < lo ∨ lo + len ≤ j) : (setFldN n lo len v).testBit j = n.testBit j := by
  rw [setFldN_eq, Nat.testBit_two_pow_mul_add _ (Nat.mod_lt _ (Nat.two_pow_pos lo))]
  split
  · rename_i h1
    simp [Nat.testBit_mod_two_pow, h1]
  · rename_i h1
    rw [Nat.testBit_two_pow_mul_add _ (Nat.mod_lt _ (Nat.two_pow_pos len)), if_neg (by omega), Nat.testBit_div_two_pow]
    congr 1
    omega

/-- A bit inside the field replaced is the bit of the new value. -/
theorem testBit_setFldN_inside (n lo len v j : Nat) (h : lo ≤ j) (h2 : j < lo + len) :
    (setFldN n lo len v).testBit j = v.testBit (j - lo) := by
  rw [setFldN_eq, Nat.testBit_two_pow_mul_add _ (Nat.mod_lt _ (Nat.two_pow_pos lo)), if_neg (by omega),
    Nat.testBit_two_pow_mul_add _ (Nat.mod_lt _ (Nat.two_pow_pos len)), if_pos (by omega), Nat.testBit_mod_two_pow]
  simp
  omega

theorem bitN_setBitN_same (n i : Nat) (v : Bool) : bitN (setBitN n i v) i = v := by
  unfold bitN setBitN
  rw [testBit_setFldN_inside _ _ _ _ _ (Nat.le_refl _) (by omega), Nat.sub_self]
  cases v <;> rfl

theorem bitN_setBitN_other (n : Nat) {i j : Nat} (v : Bool) (h : j ≠ i) : bitN (setBitN n i v) j = bitN n j := by
  unfold bitN setBitN
  exact testBit_setFldN_other _ _ _ _ _ (by omega)

theorem bitN_setBitN (n i j : Nat) (v : Bool) : bitN (setBitN n i v) j = if j = i then v else bitN n j := by
  split
  · subst j
    exact bitN_setBitN_same n i v
  · exact bitN_setBitN_other n v ‹_›

/-- What stays of a word where a mask lets new bits in. -/
theorem testBit_sub_land (n m j : Nat) : (n - (n &&& m)).testBit j = (n.testBit j && !m.testBit j) := by
  have hd : ∀ a b : Nat, (a &&& b) / 2 = a / 2 &&& b / 2 := fun a b => Nat.and_div_two
  have hm : ∀ a b : Nat, (a &&& b) % 2 = if a % 2 = 1 ∧ b % 2 = 1 then 1 else 0 := by
    intro a b
    have h := Nat.testBit_and a b 0
    simp only [Nat.testBit_zero] at h
    have h1 : (a &&& b) % 2 = 0 ∨ (a &&& b) % 2 = 1 := by omega
    rcases h1 with h1 | h1 <;> rw [h1] at h ⊢ <;> simp at h ⊢ <;> exact h
  induction j generalizing n m with
  | zero =>
    have h1 := hm n m
    have h2 : n &&& m ≤ n := Nat.and_le_left
    simp only [Nat.testBit_zero]
    split at h1
    · rename_i hab
      have h3 : (n - (n &&& m)) % 2 = 0 := by omega
      rw [h3, hab.1, hab.2]
      rfl
    · rename_i hab
      have h3 : (n - (n &&& m)) % 2 = n % 2 := by omega
      rw [h3]
      have h4 : m % 2 = 0 ∨ m % 2 = 1 := by omega
      have h5 : n % 2 = 0 ∨ n % 2 = 1 := by omega
      rcases h4 with h4 | h4 <;> rcases h5 with h5 | h5 <;> simp [h4, h5] at hab ⊢
  | succ k ih =>
    have h1 : (n - (n &&& m)) / 2 = n / 2 - (n / 2 &&& m / 2) := by
      have := hd n m
      have := hm n m
      have h3 : n / 2 &&& m / 2 ≤ n / 2 := Nat.and_le_left
      have h4 : n &&& m ≤ n := Nat.and_le_left
      split at this <;> omega
    rw [Nat.testBit_succ, h1, ih, Nat.testBit_succ, Nat.testBit_succ]

theorem leBytes_length (len n : Nat) : (leBytes len n).length = len := by
  induction len generalizing n with
  | zero => rfl
  | succ k ih => rw [leBytes, List.length_cons, ih]

end Sys2Proof.Machine
end

