-- ==== Sys2Proof/Laws/Only.lean ====
section
/-! SUPPORT. The rules of frames: how `Only` passes through the combinators of the model, and one lemma for each group of fields
that a record update writes. -/

namespace Sys2Proof.Machine

/-- Every field of `l` is in `m`. -/
def StateField.within (l m : List StateField) : Bool := l.all (fun f => m.elem f)

theorem StateField.within_sub {l m : List StateField} (h : StateField.within l m = true) : l ⊆ m := fun f hf =>
  List.elem_iff.mp (List.all_eq_true.mp h f hf)

theorem StateField.within_of {k l m : List StateField} (h : StateField.within l m = true) (hk : StateField.within k l = true) :
    StateField.within k m = true := List.all_eq_true.mpr (fun f hf =>
  List.elem_iff.mpr (StateField.within_sub h (StateField.within_sub hk hf)))

theorem Only.refl (l : List StateField) (s : State) : Only l s s := by
  intro f _
  cases f <;> rfl

theorem Only.trans {l : List StateField} {s t u : State} (h : Only l s t) (k : Only l t u) : Only l s u := by
  intro f hf
  have a := h f hf
  have b := k f hf
  cases f <;> exact b.trans a

theorem Only.mono {l m : List StateField} {s t : State} (h : Only l s t) (hl : StateField.within l m = true) : Only m s t := fun f hf =>
  h f (fun hm => hf (StateField.within_sub hl hm))

/-- An effect of frame `m` after one of frame `l`, where `l` holds all of `m`. -/
theorem Only.via {l m : List StateField} {s t u : State} (h : Only m t u) (hl : StateField.within m l = true) (h0 : Only l s t) :
    Only l s u := h0.trans (h.mono hl)

theorem Only.cut {l : List StateField} {s t u : State} (h : Only l s t) (k : Only l s t → Only l s u) : Only l s u := k h

theorem Only.ite {l : List StateField} {s a b : State} {c : Prop} [Decidable c] (ha : c → Only l s a) (hb : ¬c → Only l s b) :
    Only l s (if c then a else b) := by
  split
  · exact ha ‹_›
  · exact hb ‹_›

theorem Only.ofPair {α : Type} {l : List StateField} {s t : State} {a : α} {p : α × State} (e : p = (a, t)) (h : Only l s p.2) :
    Only l s t := by
  subst e
  exact h

theorem Only.forEach {α : Type} {l : List StateField} {s X : State} {xs : List α} {g : α → State → State}
    (hg : ∀ a t, Only l s t → Only l s (g a t)) (h : Only l s X) : Only l s (forEach xs g X) := by
  unfold Sys2Proof.Machine.forEach
  induction xs generalizing X with
  | nil => exact h
  | cons a r ih => exact ih (hg a X h)

theorem Only.forBelow {l : List StateField} {s X : State} {n : Nat} {g : Nat → State → State}
    (hg : ∀ a t, Only l s t → Only l s (g a t)) (h : Only l s X) : Only l s (forBelow n g X) := by
  induction n with
  | zero => exact h
  | succ k ih => exact hg k _ ih

theorem Only.foldl {α : Type} {l : List StateField} {s X : State} {xs : List α} {g : State → α → State}
    (hg : ∀ t a, Only l s t → Only l s (g t a)) (h : Only l s X) : Only l s (xs.foldl g X) := by
  induction xs generalizing X with
  | nil => exact h
  | cons a r ih => exact ih (hg X a h)

theorem Only.foldlSnd {α β : Type} {l : List StateField} {s : State} {p : β × State} {xs : List α} {g : β × State → α → β × State}
    (hg : ∀ t a, Only l s t.2 → Only l s (g t a).2) (h : Only l s p.2) : Only l s (xs.foldl g p).2 := by
  induction xs generalizing p with
  | nil => exact h
  | cons a r ih => exact ih (hg p a h)

theorem Only.foldlFst {α β : Type} {l : List StateField} {s : State} {p : State × β} {xs : List α} {g : State × β → α → State × β}
    (hg : ∀ t a, Only l s t.1 → Only l s (g t a).1) (h : Only l s p.1) : Only l s (xs.foldl g p).1 := by
  induction xs generalizing p with
  | nil => exact h
  | cons a r ih => exact ih (hg p a h)

theorem Only.ofPair2 {α β : Type} {l : List StateField} {s t : State} {a : α} {b : β} {p : α × β × State} (e : p = (a, b, t))
    (h : Only l s p.2.2) : Only l s t := by
  subst e
  exact h

theorem Only.ofSome {α : Type} {l m : List StateField} {s X t : State} {a : α} {o : Option (α × State)} (e : o = some (a, t))
    (h : ∀ r, o = some r → Only m X r.2) (hl : StateField.within m l = true) (h0 : Only l s X) : Only l s t :=
  Only.via (h (a, t) e) hl h0

theorem Only.ofPairFst {α : Type} {l : List StateField} {s t : State} {a : α} {p : State × α} (e : p = (t, a)) (h : Only l s p.1) :
    Only l s t := by
  subst e
  exact h

theorem Only.ofPairMid {α β : Type} {l : List StateField} {s t : State} {a : α} {b : β} {p : α × State × β} (e : p = (a, t, b))
    (h : Only l s p.2.1) : Only l s t := by
  subst e
  exact h

theorem Only.ofOk {α ε : Type} {l m : List StateField} {s X t : State} {a : α} {o : Except ε (α × State)} (e : o = .ok (a, t))
    (h : ∀ r, o = .ok r → Only m X r.2) (hl : StateField.within m l = true) (h0 : Only l s X) : Only l s t :=
  Only.via (h (a, t) e) hl h0

theorem Only.getD {l m : List StateField} {s X d : State} {o : Option State} (h : ∀ r, o = some r → Only m X r)
    (hl : StateField.within m l = true) (h0 : Only l s X) (hd : Only l s d) : Only l s (o.getD d) := by
  cases o with
  | none => exact hd
  | some r => exact Only.via (h r rfl) hl h0

theorem Only.layersEach {α : Type} {l : List StateField} {s X : State} {xs : List α} {g : Nat → α → State → Bool × State}
    (hg : ∀ k a t, Only l s t → Only l s (g k a t).2) (h : Only l s X) : Only l s (layersEach g xs X).2 := by
  unfold Sys2Proof.Machine.layersEach
  exact Only.foldlSnd (fun p e hp => hg e.2 e.1 p.2 hp) h

theorem Only.writeWords {l : List StateField} {s : State} {w : Nat → Word → State → State}
    (hw : ∀ a v t, Only l s t → Only l s (w a v t)) : ∀ (n off : Nat) (data : List Byte) (X : State), Only l s X →
    Only l s (writeWords w n off data X) := by
  intro n
  induction n with
  | zero => exact fun _ _ _ h => h
  | succ n ih =>
    intro off data X h
    unfold Sys2Proof.Machine.writeWords
    split
    · exact h
    · exact ih _ _ _ (hw _ _ _ h)

theorem Only.writeBytes {l : List StateField} {s X : State} {w : Nat → Word → State → State} {err : State → State}
    {desc : Nat → Option RegDesc} {off : Nat} {data : List Byte} (hw : ∀ a v t, Only l s t → Only l s (w a v t))
    (he : ∀ t, Only l s t → Only l s (err t)) (h : Only l s X) : Only l s (X.writeBytes w err desc off data) := by
  unfold State.writeBytes
  split
  · exact Only.writeWords hw _ _ _ _ h
  · split
    · exact he _ h
    · exact h

theorem runRow_next (t z : State) : runRow (.next t) z = t := rfl

theorem Only.ofOpt {l m : List StateField} {s X t : State} {o : Option State} (e : o = some t)
    (h : ∀ r, o = some r → Only m X r) (hl : StateField.within m l = true) (h0 : Only l s X) : Only l s t :=
  Only.via (h t e) hl h0

theorem Only.whenServing {l : List StateField} {s X : State} {g : State → State} (hg : ∀ t, Only l s t → Only l s (g t)) (h : Only l s X) :
    Only l s (whenServing X g) := by
  unfold Sys2Proof.Machine.whenServing
  split
  · exact hg X h
  · exact h

theorem Only.whenRunning {l : List StateField} {s X : State} {g : State → State} (hg : ∀ t, Only l s t → Only l s (g t)) (h : Only l s X) :
    Only l s (whenRunning X g) := by
  unfold Sys2Proof.Machine.whenRunning
  split
  · exact hg X h
  · exact h

theorem Only.whenPowered {l : List StateField} {s X : State} {g : State → State} (hg : ∀ t, Only l s t → Only l s (g t)) (h : Only l s X) :
    Only l s (whenPowered X g) := by
  unfold Sys2Proof.Machine.whenPowered
  split
  · exact h
  · exact hg X h

theorem Only.hostBar0 {l : List StateField} {s X : State} {n : Nat} {g : State → State} (hg : ∀ t, Only l s t → Only l s (g t))
    (h : Only l s X) : Only l s (hostBar0 n X g) := by
  unfold Sys2Proof.Machine.hostBar0
  split
  · exact hg X h
  · exact h

theorem Only.hostBar2 {l : List StateField} {s X : State} {g : State → State} (hg : ∀ t, Only l s t → Only l s (g t)) (h : Only l s X) :
    Only l s (hostBar2 X g) := by
  unfold Sys2Proof.Machine.hostBar2
  split
  · exact hg X h
  · exact h

theorem Only.underEpoch {l : List StateField} {s X : State} {c : Cmd} {g : State → State}
    (hg : ∀ t, Only (.liveSet :: l) s t → Only (.liveSet :: l) s (g t)) (h : Only l s X) : Only l s (X.underEpoch c g) := by
  intro f hf
  have h1 : Only (.liveSet :: l) s { X with liveSet := if c.epoch = X.epoch.cur then X.nextSet else X.prevSet } := by
    intro f hf
    have a := h f (fun hm => hf (List.mem_cons_of_mem _ hm))
    cases f <;> first | exact a | exact absurd (.head _) hf
  have k := hg _ h1 f
  cases f <;> first
    | exact h .liveSet hf
    | exact k (fun hm => by cases hm with | tail _ hm => exact hf hm)

theorem Only.withCmd {l : List StateField} {s X : State} {n : Nat} {op : Op} {g : Cmd → State → State}
    (hg : ∀ c t, Only (.liveSet :: l) s t → Only (.liveSet :: l) s (g c t)) (h : Only l s X) : Only l s (withCmd n op X g) := by
  unfold Sys2Proof.Machine.withCmd
  refine Only.whenServing (fun t ht => ?_) h
  split
  · split
    · exact Only.underEpoch (hg _) ht
    · exact ht
  · exact ht

theorem Only.set_arc (t : State) (v0) : Only [.arc] t { t with arc := v0 } := by

  intro f hf

  cases f <;> first | rfl | exact absurd (List.elem_iff.mp rfl) hf

theorem Only.set_boot (t : State) (v0) : Only [.boot] t { t with boot := v0 } := by

  intro f hf

  cases f <;> first | rfl | exact absurd (List.elem_iff.mp rfl) hf

theorem Only.set_boot_arc (t : State) (v0) (v1) : Only [.boot, .arc] t { t with boot := v0, arc := v1 } := by

  intro f hf

  cases f <;> first | rfl | exact absurd (List.elem_iff.mp rfl) hf

theorem Only.set_boot_fss (t : State) (v0) (v1) : Only [.boot, .fss] t { t with boot := v0, fss := v1 } := by

  intro f hf

  cases f <;> first | rfl | exact absurd (List.elem_iff.mp rfl) hf

theorem Only.set_boot_fw (t : State) (v0) (v1) : Only [.boot, .fw] t { t with boot := v0, fw := v1 } := by

  intro f hf

  cases f <;> first | rfl | exact absurd (List.elem_iff.mp rfl) hf

theorem Only.set_boot_pwb (t : State) (v0) (v1) : Only [.boot, .pwb] t { t with boot := v0, pwb := v1 } := by

  intro f hf

  cases f <;> first | rfl | exact absurd (List.elem_iff.mp rfl) hf

theorem Only.set_boot_sea (t : State) (v0) (v1) : Only [.boot, .sea] t { t with boot := v0, sea := v1 } := by

  intro f hf

  cases f <;> first | rfl | exact absurd (List.elem_iff.mp rfl) hf

theorem Only.set_cal (t : State) (v0) : Only [.cal] t { t with cal := v0 } := by

  intro f hf

  cases f <;> first | rfl | exact absurd (List.elem_iff.mp rfl) hf

theorem Only.set_clk (t : State) (v0) : Only [.clk] t { t with clk := v0 } := by

  intro f hf

  cases f <;> first | rfl | exact absurd (List.elem_iff.mp rfl) hf

theorem Only.set_cmds (t : State) (v0) : Only [.cmds] t { t with cmds := v0 } := by

  intro f hf

  cases f <;> first | rfl | exact absurd (List.elem_iff.mp rfl) hf

theorem Only.set_cmds_nextCmd_clk (t : State) (v0) (v1) (v2) : Only [.cmds, .nextCmd, .clk] t { t with cmds := v0, nextCmd := v1, clk := v2 } := by

  intro f hf

  cases f <;> first | rfl | exact absurd (List.elem_iff.mp rfl) hf

theorem Only.set_dbErr (t : State) (v0) : Only [.dbErr] t { t with dbErr := v0 } := by

  intro f hf

  cases f <;> first | rfl | exact absurd (List.elem_iff.mp rfl) hf

theorem Only.set_drives (t : State) (v0) : Only [.drives] t { t with drives := v0 } := by

  intro f hf

  cases f <;> first | rfl | exact absurd (List.elem_iff.mp rfl) hf

theorem Only.set_drives_pwb_cal_mon (t : State) (v0) (v1) (v2) (v3) : Only [.drives, .pwb, .cal, .mon] t { t with drives := v0, pwb := v1, cal := v2, mon := v3 } := by

  intro f hf

  cases f <;> first | rfl | exact absurd (List.elem_iff.mp rfl) hf

theorem Only.set_due (t : State) (v0) : Only [.due] t { t with due := v0 } := by

  intro f hf

  cases f <;> first | rfl | exact absurd (List.elem_iff.mp rfl) hf

theorem Only.set_due_reads (t : State) (v0) (v1) : Only [.due, .reads] t { t with due := v0, reads := v1 } := by

  intro f hf

  cases f <;> first | rfl | exact absurd (List.elem_iff.mp rfl) hf

theorem Only.set_epoch (t : State) (v0) : Only [.epoch] t { t with epoch := v0 } := by

  intro f hf

  cases f <;> first | rfl | exact absurd (List.elem_iff.mp rfl) hf

theorem Only.set_fetches (t : State) (v0) : Only [.fetches] t { t with fetches := v0 } := by

  intro f hf

  cases f <;> first | rfl | exact absurd (List.elem_iff.mp rfl) hf

theorem Only.set_fn (t : State) (v0) : Only [.fn] t { t with fn := v0 } := by

  intro f hf

  cases f <;> first | rfl | exact absurd (List.elem_iff.mp rfl) hf

theorem Only.set_free (t : State) (v0) : Only [.free] t { t with free := v0 } := by

  intro f hf

  cases f <;> first | rfl | exact absurd (List.elem_iff.mp rfl) hf

theorem Only.set_fss (t : State) (v0) : Only [.fss] t { t with fss := v0 } := by

  intro f hf

  cases f <;> first | rfl | exact absurd (List.elem_iff.mp rfl) hf

theorem Only.set_fss_arc (t : State) (v0) (v1) : Only [.fss, .arc] t { t with fss := v0, arc := v1 } := by

  intro f hf

  cases f <;> first | rfl | exact absurd (List.elem_iff.mp rfl) hf

theorem Only.set_fss_mch (t : State) (v0) (v1) : Only [.fss, .mch] t { t with fss := v0, mch := v1 } := by

  intro f hf

  cases f <;> first | rfl | exact absurd (List.elem_iff.mp rfl) hf

theorem Only.set_fss_pwb (t : State) (v0) (v1) : Only [.fss, .pwb] t { t with fss := v0, pwb := v1 } := by

  intro f hf

  cases f <;> first | rfl | exact absurd (List.elem_iff.mp rfl) hf

theorem Only.set_fw (t : State) (v0) : Only [.fw] t { t with fw := v0 } := by

  intro f hf

  cases f <;> first | rfl | exact absurd (List.elem_iff.mp rfl) hf

theorem Only.set_hlt (t : State) (v0) : Only [.hlt] t { t with hlt := v0 } := by

  intro f hf

  cases f <;> first | rfl | exact absurd (List.elem_iff.mp rfl) hf

theorem Only.set_hlt_clk_vsel (t : State) (v0) (v1) (v2) : Only [.hlt, .clk, .vsel] t { t with hlt := v0, clk := v1, vsel := v2 } := by

  intro f hf

  cases f <;> first | rfl | exact absurd (List.elem_iff.mp rfl) hf

theorem Only.set_hlt_log_fw_nvs_fss_sea_arc (t : State) (v0) (v1) (v2) (v3) (v4) (v5) (v6) : Only [.hlt, .log, .fw, .nvs, .fss, .sea, .arc] t { t with hlt := v0, log := v1, fw := v2, nvs := v3, fss := v4, sea := v5, arc := v6 } := by

  intro f hf

  cases f <;> first | rfl | exact absurd (List.elem_iff.mp rfl) hf

theorem Only.set_hlt_sea (t : State) (v0) (v1) : Only [.hlt, .sea] t { t with hlt := v0, sea := v1 } := by

  intro f hf

  cases f <;> first | rfl | exact absurd (List.elem_iff.mp rfl) hf

theorem Only.set_inp (t : State) (v0) : Only [.inp] t { t with inp := v0 } := by

  intro f hf

  cases f <;> first | rfl | exact absurd (List.elem_iff.mp rfl) hf

theorem Only.set_inst (t : State) (v0) : Only [.inst] t { t with inst := v0 } := by

  intro f hf

  cases f <;> first | rfl | exact absurd (List.elem_iff.mp rfl) hf

theorem Only.set_inst_fss (t : State) (v0) (v1) : Only [.inst, .fss] t { t with inst := v0, fss := v1 } := by

  intro f hf

  cases f <;> first | rfl | exact absurd (List.elem_iff.mp rfl) hf

theorem Only.set_inst_fss_arc (t : State) (v0) (v1) (v2) : Only [.inst, .fss, .arc] t { t with inst := v0, fss := v1, arc := v2 } := by

  intro f hf

  cases f <;> first | rfl | exact absurd (List.elem_iff.mp rfl) hf

theorem Only.set_lastFn (t : State) (v0) : Only [.lastFn] t { t with lastFn := v0 } := by

  intro f hf

  cases f <;> first | rfl | exact absurd (List.elem_iff.mp rfl) hf

theorem Only.set_latches (t : State) (v0) : Only [.latches] t { t with latches := v0 } := by

  intro f hf

  cases f <;> first | rfl | exact absurd (List.elem_iff.mp rfl) hf

theorem Only.set_lateOpens (t : State) (v0) : Only [.lateOpens] t { t with lateOpens := v0 } := by

  intro f hf

  cases f <;> first | rfl | exact absurd (List.elem_iff.mp rfl) hf

theorem Only.set_link (t : State) (v0) : Only [.link] t { t with link := v0 } := by

  intro f hf

  cases f <;> first | rfl | exact absurd (List.elem_iff.mp rfl) hf

theorem Only.set_link_pwb_cal (t : State) (v0) (v1) (v2) : Only [.link, .pwb, .cal] t { t with link := v0, pwb := v1, cal := v2 } := by

  intro f hf

  cases f <;> first | rfl | exact absurd (List.elem_iff.mp rfl) hf

theorem Only.set_link_sec (t : State) (v0) (v1) : Only [.link, .sec] t { t with link := v0, sec := v1 } := by

  intro f hf

  cases f <;> first | rfl | exact absurd (List.elem_iff.mp rfl) hf

theorem Only.set_link_sec_fn (t : State) (v0) (v1) (v2) : Only [.link, .sec, .fn] t { t with link := v0, sec := v1, fn := v2 } := by

  intro f hf

  cases f <;> first | rfl | exact absurd (List.elem_iff.mp rfl) hf

theorem Only.set_liveSet (t : State) (v0) : Only [.liveSet] t { t with liveSet := v0 } := by

  intro f hf

  cases f <;> first | rfl | exact absurd (List.elem_iff.mp rfl) hf

theorem Only.set_log (t : State) (v0) : Only [.log] t { t with log := v0 } := by

  intro f hf

  cases f <;> first | rfl | exact absurd (List.elem_iff.mp rfl) hf

theorem Only.set_log_fss (t : State) (v0) (v1) : Only [.log, .fss] t { t with log := v0, fss := v1 } := by

  intro f hf

  cases f <;> first | rfl | exact absurd (List.elem_iff.mp rfl) hf

theorem Only.set_mch (t : State) (v0) : Only [.mch] t { t with mch := v0 } := by

  intro f hf

  cases f <;> first | rfl | exact absurd (List.elem_iff.mp rfl) hf

theorem Only.set_mon (t : State) (v0) : Only [.mon] t { t with mon := v0 } := by

  intro f hf

  cases f <;> first | rfl | exact absurd (List.elem_iff.mp rfl) hf

theorem Only.set_nextCmd_due (t : State) (v0) (v1) : Only [.nextCmd, .due] t { t with nextCmd := v0, due := v1 } := by

  intro f hf

  cases f <;> first | rfl | exact absurd (List.elem_iff.mp rfl) hf

theorem Only.set_nextSet_liveSet_prevSet (t : State) (v0) (v1) (v2) : Only [.nextSet, .liveSet, .prevSet] t { t with nextSet := v0, liveSet := v1, prevSet := v2 } := by

  intro f hf

  cases f <;> first | rfl | exact absurd (List.elem_iff.mp rfl) hf

theorem Only.set_nextSet_prevSet_epoch (t : State) (v0) (v1) (v2) : Only [.nextSet, .prevSet, .epoch] t { t with nextSet := v0, prevSet := v1, epoch := v2 } := by

  intro f hf

  cases f <;> first | rfl | exact absurd (List.elem_iff.mp rfl) hf

theorem Only.set_nvm_nvs (t : State) (v0) (v1) : Only [.nvm, .nvs] t { t with nvm := v0, nvs := v1 } := by

  intro f hf

  cases f <;> first | rfl | exact absurd (List.elem_iff.mp rfl) hf

theorem Only.set_nvs (t : State) (v0) : Only [.nvs] t { t with nvs := v0 } := by

  intro f hf

  cases f <;> first | rfl | exact absurd (List.elem_iff.mp rfl) hf

theorem Only.set_oldOps (t : State) (v0) : Only [.oldOps] t { t with oldOps := v0 } := by

  intro f hf

  cases f <;> first | rfl | exact absurd (List.elem_iff.mp rfl) hf

theorem Only.set_out (t : State) (v0) : Only [.out] t { t with out := v0 } := by

  intro f hf

  cases f <;> first | rfl | exact absurd (List.elem_iff.mp rfl) hf

theorem Only.set_pending (t : State) (v0) : Only [.pending] t { t with pending := v0 } := by

  intro f hf

  cases f <;> first | rfl | exact absurd (List.elem_iff.mp rfl) hf

theorem Only.set_pwb (t : State) (v0) : Only [.pwb] t { t with pwb := v0 } := by

  intro f hf

  cases f <;> first | rfl | exact absurd (List.elem_iff.mp rfl) hf

theorem Only.set_rate (t : State) (v0) : Only [.rate] t { t with rate := v0 } := by

  intro f hf

  cases f <;> first | rfl | exact absurd (List.elem_iff.mp rfl) hf

theorem Only.set_reads (t : State) (v0) : Only [.reads] t { t with reads := v0 } := by

  intro f hf

  cases f <;> first | rfl | exact absurd (List.elem_iff.mp rfl) hf

theorem Only.set_reads_fss_fetches (t : State) (v0) (v1) (v2) : Only [.reads, .fss, .fetches] t { t with reads := v0, fss := v1, fetches := v2 } := by

  intro f hf

  cases f <;> first | rfl | exact absurd (List.elem_iff.mp rfl) hf

theorem Only.set_reads_nextTag (t : State) (v0) (v1) : Only [.reads, .nextTag] t { t with reads := v0, nextTag := v1 } := by

  intro f hf

  cases f <;> first | rfl | exact absurd (List.elem_iff.mp rfl) hf

theorem Only.set_regs (t : State) (v0) : Only [.regs] t { t with regs := v0 } := by

  intro f hf

  cases f <;> first | rfl | exact absurd (List.elem_iff.mp rfl) hf

theorem Only.set_regs_latches_link (t : State) (v0) (v1) (v2) : Only [.regs, .latches, .link] t { t with regs := v0, latches := v1, link := v2 } := by

  intro f hf

  cases f <;> first | rfl | exact absurd (List.elem_iff.mp rfl) hf

theorem Only.set_regs_nextSet_liveSet (t : State) (v0) (v1) (v2) : Only [.regs, .nextSet, .liveSet] t { t with regs := v0, nextSet := v1, liveSet := v2 } := by

  intro f hf

  cases f <;> first | rfl | exact absurd (List.elem_iff.mp rfl) hf

theorem Only.set_regs_nextSet_liveSet_prevSet_epoch (t : State) (v0) (v1) (v2) (v3) (v4) : Only [.regs, .nextSet, .liveSet, .prevSet, .epoch] t { t with regs := v0, nextSet := v1, liveSet := v2, prevSet := v3, epoch := v4 } := by

  intro f hf

  cases f <;> first | rfl | exact absurd (List.elem_iff.mp rfl) hf

theorem Only.set_regs_nextSet_liveSet_prevSet_latches_epoch (t : State) (v0) (v1) (v2) (v3) (v4) (v5) : Only [.regs, .nextSet, .liveSet, .prevSet, .latches, .epoch] t { t with regs := v0, nextSet := v1, liveSet := v2, prevSet := v3, latches := v4, epoch := v5 } := by

  intro f hf

  cases f <;> first | rfl | exact absurd (List.elem_iff.mp rfl) hf

theorem Only.set_sea (t : State) (v0) : Only [.sea] t { t with sea := v0 } := by

  intro f hf

  cases f <;> first | rfl | exact absurd (List.elem_iff.mp rfl) hf

theorem Only.set_sec (t : State) (v0) : Only [.sec] t { t with sec := v0 } := by

  intro f hf

  cases f <;> first | rfl | exact absurd (List.elem_iff.mp rfl) hf

theorem Only.set_sec_inst_sea (t : State) (v0) (v1) (v2) : Only [.sec, .inst, .sea] t { t with sec := v0, inst := v1, sea := v2 } := by

  intro f hf

  cases f <;> first | rfl | exact absurd (List.elem_iff.mp rfl) hf

theorem Only.set_sns (t : State) (v0) : Only [.sns] t { t with sns := v0 } := by

  intro f hf

  cases f <;> first | rfl | exact absurd (List.elem_iff.mp rfl) hf

theorem Only.set_sqErr (t : State) (v0) : Only [.sqErr] t { t with sqErr := v0 } := by

  intro f hf

  cases f <;> first | rfl | exact absurd (List.elem_iff.mp rfl) hf

theorem Only.set_stl (t : State) (v0) : Only [.stl] t { t with stl := v0 } := by

  intro f hf

  cases f <;> first | rfl | exact absurd (List.elem_iff.mp rfl) hf

theorem Only.set_tm (t : State) (v0) : Only [.tm] t { t with tm := v0 } := by

  intro f hf

  cases f <;> first | rfl | exact absurd (List.elem_iff.mp rfl) hf

theorem Only.set_tm_cmds_oldOps_due_reads_fss_fetches (t : State) (v0) (v1) (v2) (v3) (v4) (v5) (v6) : Only [.tm, .cmds, .oldOps, .due, .reads, .fss, .fetches] t { t with tm := v0, cmds := v1, oldOps := v2, due := v3, reads := v4, fss := v5, fetches := v6 } := by

  intro f hf

  cases f <;> first | rfl | exact absurd (List.elem_iff.mp rfl) hf

theorem Only.set_tm_hlt_link_sea_mch_drives_stl_inp_cal (t : State) (v0) (v1) (v2) (v3) (v4) (v5) (v6) (v7) (v8) : Only [.tm, .hlt, .link, .sea, .mch, .drives, .stl, .inp, .cal] t { t with tm := v0, hlt := v1, link := v2, sea := v3, mch := v4, drives := v5, stl := v6, inp := v7, cal := v8 } := by

  intro f hf

  cases f <;> first | rfl | exact absurd (List.elem_iff.mp rfl) hf

theorem Only.set_tm_hlt_sec_reads (t : State) (v0) (v1) (v2) (v3) : Only [.tm, .hlt, .sec, .reads] t { t with tm := v0, hlt := v1, sec := v2, reads := v3 } := by

  intro f hf

  cases f <;> first | rfl | exact absurd (List.elem_iff.mp rfl) hf

theorem Only.set_tm_nvs_cal (t : State) (v0) (v1) (v2) : Only [.tm, .nvs, .cal] t { t with tm := v0, nvs := v1, cal := v2 } := by

  intro f hf

  cases f <;> first | rfl | exact absurd (List.elem_iff.mp rfl) hf

end Sys2Proof.Machine
end

