-- ==== Sys2Proof/Laws/FrameCore.lean ====
section
/-! SUPPORT. The frames of the shared operations, metering, the halt, the store, commands and epochs: the fields of State that each function can write. -/

namespace Sys2Proof.Machine

theorem State.setReg_only : ∀ s a1 a2, Only [.regs] s (State.setReg s a1 a2) := by
  intro s a1 a2
  unfold State.setReg
  refine Only.via (Only.set_regs _ _) rfl ?_
  exact Only.refl _ _

theorem Only.ideKm {l : List StateField} {s X : State} {n : Nat} {g : State → State} (hg : ∀ t, Only l s t → Only l s (g t))
    (h : Only l s X) : Only l s (ideKm n X g) := by
  unfold Sys2Proof.Machine.ideKm
  split
  · exact hg X h
  · exact h

theorem State.loadReg_only : ∀ s a1 a2, Only [.regs, .nextSet, .liveSet] s (State.loadReg s a1 a2) := by
  intro s a1 a2
  unfold State.loadReg
  refine Only.via (Only.set_regs_nextSet_liveSet _ _ _ _) rfl ?_
  exact Only.refl _ _

theorem State.setInst_only : ∀ s a1 a2, Only [.inst] s (State.setInst s a1 a2) := by
  intro s a1 a2
  unfold State.setInst
  refine Only.via (Only.set_inst _ _) rfl ?_
  exact Only.refl _ _

theorem State.modInst_only : ∀ s a1 a2, Only [.inst] s (State.modInst s a1 a2) := by
  intro s a1 a2
  unfold State.modInst
  refine Only.via (State.setInst_only _ _ _) rfl ?_
  exact Only.refl _ _

theorem State.setFn_only : ∀ s a1 a2, Only [.fn] s (State.setFn s a1 a2) := by
  intro s a1 a2
  unfold State.setFn
  refine Only.via (Only.set_fn _ _) rfl ?_
  exact Only.refl _ _

theorem State.modFn_only : ∀ s a1 a2, Only [.fn] s (State.modFn s a1 a2) := by
  intro s a1 a2
  unfold State.modFn
  refine Only.via (State.setFn_only _ _ _) rfl ?_
  exact Only.refl _ _

theorem State.emit_only : ∀ s a1, Only [.out] s (State.emit s a1) := by
  intro s a1
  unfold State.emit
  refine Only.via (Only.set_out _ _) rfl ?_
  exact Only.refl _ _

theorem State.wakeUp_only : ∀ s, Only [.clk] s (State.wakeUp s) := by
  intro s
  unfold State.wakeUp
  refine Only.via (Only.set_clk _ _) rfl ?_
  exact Only.refl _ _

theorem State.useFree_only : ∀ s, Only [.free] s (State.useFree s) := by
  intro s
  unfold State.useFree
  refine Only.via (Only.set_free _ _) rfl ?_
  exact Only.refl _ _

theorem State.nvmWrite_only : ∀ s a1 a2, Only [.nvm, .nvs] s (State.nvmWrite s a1 a2) := by
  intro s a1 a2
  unfold State.nvmWrite
  refine Only.via (Only.set_nvm_nvs _ _ _) rfl ?_
  exact Only.refl _ _

theorem State.ctrStore_only : ∀ s a1 a2, Only [.nvm, .nvs] s (State.ctrStore s a1 a2) := by
  intro s a1 a2
  unfold State.ctrStore
  split
  · rename_i y1 y2 y3
    refine Only.via (State.nvmWrite_only _ _ _) rfl ?_
    exact Only.refl _ _
  · rename_i y4 y5
    refine Only.via (State.nvmWrite_only _ _ _) rfl ?_
    exact Only.refl _ _

theorem State.ctrRaise_only : ∀ s a1 a2, Only [.nvm, .nvs] s (State.ctrRaise s a1 a2) := by
  intro s a1 a2
  unfold State.ctrRaise
  refine Only.ite (fun _ => ?_) (fun _ => ?_)
  · refine Only.via (State.nvmWrite_only _ _ _) rfl ?_
    refine Only.via (State.ctrStore_only _ _ _) rfl ?_
    refine Only.via (State.nvmWrite_only _ _ _) rfl ?_
    exact Only.refl _ _
  · exact Only.refl _ _

theorem State.ctrInc_only : ∀ s a1, Only [.nvm, .nvs] s (State.ctrInc s a1) := by
  intro s a1
  unfold State.ctrInc
  refine Only.via (State.ctrRaise_only _ _ _) rfl ?_
  exact Only.refl _ _

theorem State.emitCpl_only : ∀ s a1, Only [.out, .sec] s (State.emitCpl s a1) := by
  intro s a1
  unfold State.emitCpl
  refine Only.ite (fun _ => ?_) (fun _ => ?_)
  · refine Only.via (Only.set_sec _ _) rfl ?_
    exact Only.refl _ _
  · refine Only.via (State.emit_only _ _) rfl ?_
    exact Only.refl _ _

theorem Only.cfgTo {l : List StateField} {s X : State} {n : Nat} {g : State → State} (hg : ∀ t, Only l s t → Only l s (g t))
    (hl : StateField.within [.out, .sec] l = true) (h : Only l s X) : Only l s (cfgTo n X g) := by
  unfold Sys2Proof.Machine.cfgTo
  split
  · exact h
  · split
    · exact Only.via (State.emitCpl_only _ _) hl h
    · split
      · exact Only.via (State.emitCpl_only _ _) hl h
      · split
        · exact Only.via (State.emitCpl_only _ _) hl h
        · exact hg X h

theorem State.flushCpl_only : ∀ s, Only [.out, .sec] s (State.flushCpl s) := by
  intro s
  unfold State.flushCpl
  refine Only.ite (fun _ => ?_) (fun _ => ?_)
  · exact Only.refl _ _
  · refine Only.forEach (fun a1 t2 h3 => ?_) ?_
    · refine Only.via (State.emit_only _ _) rfl ?_
      exact h3
    · refine Only.via (Only.set_sec _ _) rfl ?_
      exact Only.refl _ _

theorem State.sendMsix_only : ∀ s a1 a2, Only [.out] s (State.sendMsix s a1 a2) := by
  intro s a1 a2
  unfold State.sendMsix
  extract_lets x1
  refine Only.via (State.emit_only _ _) rfl ?_
  refine Only.via (State.emit_only _ _) rfl ?_
  exact Only.refl _ _

theorem State.raise_only : ∀ s a1 a2, Only [.out, .fn] s (State.raise s a1 a2) := by
  intro s a1 a2
  unfold State.raise
  refine Only.ite (fun _ => ?_) (fun _ => ?_)
  · exact Only.refl _ _
  · refine Only.ite (fun _ => ?_) (fun _ => ?_)
    · refine Only.via (State.modFn_only _ _ _) rfl ?_
      exact Only.refl _ _
    · refine Only.via (State.sendMsix_only _ _ _) rfl ?_
      exact Only.refl _ _

theorem State.releasePending_only : ∀ s a1, Only [.out, .fn] s (State.releasePending s a1) := by
  intro s a1
  unfold State.releasePending
  refine Only.forBelow (fun a1 t2 h3 => ?_) ?_
  · refine Only.ite (fun _ => ?_) (fun _ => ?_)
    · refine Only.via (State.sendMsix_only _ _ _) rfl ?_
      refine Only.via (State.modFn_only _ _ _) rfl ?_
      exact h3
    · exact h3
  · exact Only.refl _ _

theorem State.setInsEvt_only : ∀ s a1 a2, Only [.out, .fn] s (State.setInsEvt s a1 a2) := by
  intro s a1 a2
  unfold State.setInsEvt
  refine Only.ite (fun _ => ?_) (fun _ => ?_)
  · exact Only.refl _ _
  · extract_lets x1
    refine Only.cut (t := x1) ?_ (fun h2 => ?_)
    · unfold x1
      refine Only.via (State.modFn_only _ _ _) rfl ?_
      exact Only.refl _ _
    refine Only.ite (fun _ => ?_) (fun _ => ?_)
    · refine Only.via (State.raise_only _ _ _) rfl ?_
      exact h2
    · exact h2

theorem State.setRngEvt_only : ∀ s a1 a2, Only [.out, .fn] s (State.setRngEvt s a1 a2) := by
  intro s a1 a2
  unfold State.setRngEvt
  refine Only.ite (fun _ => ?_) (fun _ => ?_)
  · exact Only.refl _ _
  · extract_lets x1
    refine Only.cut (t := x1) ?_ (fun h2 => ?_)
    · unfold x1
      refine Only.via (State.modFn_only _ _ _) rfl ?_
      exact Only.refl _ _
    refine Only.ite (fun _ => ?_) (fun _ => ?_)
    · refine Only.via (State.raise_only _ _ _) rfl ?_
      exact h2
    · exact h2

theorem State.critOne_only : ∀ s, Only [.log, .nvm, .nvs] s (State.critOne s) := by
  intro s
  unfold State.critOne
  split
  · rename_i y1 y2 y3 y4
    extract_lets x5 x6 x7
    refine Only.cut (t := x6) ?_ (fun h8 => ?_)
    · unfold x6
      refine Only.via (State.nvmWrite_only _ _ _) rfl ?_
      exact Only.refl _ _
    refine Only.via (Only.set_log _ _) rfl ?_
    exact h8
  · rename_i y9 y10
    exact Only.refl _ _

theorem State.logWrite_only : ∀ s a1 a2 a3 a4, Only [.out, .log, .nvm, .nvs, .fn] s (State.logWrite s a1 a2 a3 a4) := by
  intro s a1 a2 a3 a4
  unfold State.logWrite
  extract_lets x1 x2 x3 x4 x5 x6 x7 x8 x9 x10
  refine Only.cut (t := x8) ?_ (fun h11 => ?_)
  · unfold x8
    refine Only.via (Only.set_log _ _) rfl ?_
    exact Only.refl _ _
  refine Only.cut (t := x9) ?_ (fun h12 => ?_)
  · unfold x9
    refine Only.ite (fun _ => ?_) (fun _ => ?_)
    · refine Only.via (State.ctrRaise_only _ _ _) rfl ?_
      exact h11
    · exact h11
  refine Only.cut (t := x10) ?_ (fun h13 => ?_)
  · unfold x10
    refine Only.ite (fun _ => ?_) (fun _ => ?_)
    · refine Only.via (State.critOne_only _) rfl ?_
      exact h12
    · exact h12
  refine Only.ite (fun _ => ?_) (fun _ => ?_)
  · refine Only.via (State.raise_only _ _ _) rfl ?_
    exact h13
  · exact h13

theorem State.logEv_only : ∀ s a1 a2 a3, Only [.out, .log, .nvm, .nvs, .fn] s (State.logEv s a1 a2 a3) := by
  intro s a1 a2 a3
  unfold State.logEv
  refine Only.ite (fun _ => ?_) (fun _ => ?_)
  · exact Only.refl _ _
  · refine Only.ite (fun _ => ?_) (fun _ => ?_)
    · refine Only.via (State.logWrite_only _ _ _ _ _) rfl ?_
      exact Only.refl _ _
    · refine Only.ite (fun _ => ?_) (fun _ => ?_)
      · refine Only.via (Only.set_log _ _) rfl ?_
        exact Only.refl _ _
      · extract_lets x1 x2 x3 x4
        clear_value x1
        refine Only.cut (t := x2) ?_ (fun h5 => ?_)
        · unfold x2
          split
          · rename_i y6 y7 y8 y9 y10
            refine Only.ite (fun _ => ?_) (fun _ => ?_)
            · exact Only.refl _ _
            · refine Only.via (State.logWrite_only _ _ _ _ _) rfl ?_
              exact Only.refl _ _
          · rename_i y11 y12 y13 y14
            exact Only.refl _ _
        refine Only.cut (t := x3) ?_ (fun h15 => ?_)
        · unfold x3
          refine Only.via (State.logWrite_only _ _ _ _ _) rfl ?_
          exact h5
        refine Only.via (Only.set_log _ _) rfl ?_
        exact h15

theorem State.note_only : ∀ s a1 a2, Only [.out, .log, .nvm, .nvs, .fn] s (State.note s a1 a2) := by
  intro s a1 a2
  unfold State.note
  refine Only.via (State.logEv_only _ _ _ _) rfl ?_
  exact Only.refl _ _

theorem State.accError_only : ∀ s a1 a2 a3, Only [.hlt] s (State.accError s a1 a2 a3) := by
  intro s a1 a2 a3
  unfold State.accError
  refine Only.via (Only.set_hlt _ _) rfl ?_
  exact Only.refl _ _

theorem State.placeMsg_only : ∀ s a1 a2 a3, Only [.out, .fn] s (State.placeMsg s a1 a2 a3) := by
  intro s a1 a2 a3
  unfold State.placeMsg
  extract_lets x1 x2
  refine Only.cut (t := x2) ?_ (fun h3 => ?_)
  · unfold x2
    refine Only.via (State.modFn_only _ _ _) rfl ?_
    exact Only.refl _ _
  refine Only.via (State.setInsEvt_only _ _ _) rfl ?_
  exact h3

theorem State.postMsg_only : ∀ s a1 a2 a3 a4 a5 a6, Only [.out, .fn] s (State.postMsg s a1 a2 a3 a4 a5 a6) := by
  intro s a1 a2 a3 a4 a5 a6
  unfold State.postMsg
  extract_lets x1 x2 x3
  refine Only.cut (t := x3) ?_ (fun h4 => ?_)
  · unfold x3
    refine Only.via (State.modFn_only _ _ _) rfl ?_
    exact Only.refl _ _
  split
  · rename_i y5 y6 y7
    refine Only.via (State.placeMsg_only _ _ _ _) rfl ?_
    exact h4
  · rename_i y8 y9
    refine Only.ite (fun _ => ?_) (fun _ => ?_)
    · refine Only.via (State.setInsEvt_only _ _ _) rfl ?_
      refine Only.via (State.modFn_only _ _ _) rfl ?_
      exact h4
    · refine Only.via (State.modFn_only _ _ _) rfl ?_
      exact h4

theorem State.postOwn_only : ∀ s a1 a2 a3, Only [.out, .fn] s (State.postOwn s a1 a2 a3) := by
  intro s a1 a2 a3
  unfold State.postOwn
  refine Only.via (State.postMsg_only _ _ _ _ _ _ _) rfl ?_
  exact Only.refl _ _

theorem State.postPeer_only : ∀ s a1 a2 a3, Only [.out, .fn] s (State.postPeer s a1 a2 a3) := by
  intro s a1 a2 a3
  unfold State.postPeer
  refine Only.via (State.postMsg_only _ _ _ _ _ _ _) rfl ?_
  exact Only.refl _ _

theorem State.setIState_only : ∀ s a1 a2, Only [.out, .inst, .fn] s (State.setIState s a1 a2) := by
  intro s a1 a2
  unfold State.setIState
  extract_lets x1
  refine Only.cut (t := x1) ?_ (fun h2 => ?_)
  · unfold x1
    refine Only.via (State.modInst_only _ _ _) rfl ?_
    exact Only.refl _ _
  refine Only.ite (fun _ => ?_) (fun _ => ?_)
  · exact h2
  · refine Only.via (State.postPeer_only _ _ _ _) rfl ?_
    exact h2

theorem State.fillSlots_only : ∀ s a1, Only [.out, .fn] s (State.fillSlots s a1) := by
  intro s a1
  unfold State.fillSlots
  refine Only.forBelow (fun a1 t2 h3 => ?_) ?_
  · extract_lets x4
    split
    · rename_i y5 y6 y7 y8 y9 y10 y11
      refine Only.via (State.placeMsg_only _ _ _ _) rfl ?_
      refine Only.via (State.modFn_only _ _ _) rfl ?_
      exact h3
    · rename_i y12 y13 y14
      exact h3
  · exact Only.refl _ _

theorem State.quotaWarning_only : ∀ s a1, Only [.out, .inst, .fn] s (State.quotaWarning s a1) := by
  intro s a1
  unfold State.quotaWarning
  extract_lets x1 x2 x3 x4
  refine Only.cut (t := x3) ?_ (fun h5 => ?_)
  · unfold x3
    refine Only.via (State.postOwn_only _ _ _ _) rfl ?_
    exact Only.refl _ _
  refine Only.cut (t := x4) ?_ (fun h6 => ?_)
  · unfold x4
    refine Only.ite (fun _ => ?_) (fun _ => ?_)
    · exact h5
    · refine Only.via (State.postPeer_only _ _ _ _) rfl ?_
      exact h5
  refine Only.via (State.modInst_only _ _ _) rfl ?_
  exact h6

theorem State.quotaSettle_only : ∀ s a1, Only [.inst] s (State.quotaSettle s a1) := by
  intro s a1
  unfold State.quotaSettle
  extract_lets x1 x2
  refine Only.cut (t := x1) ?_ (fun h3 => ?_)
  · unfold x1
    refine Only.ite (fun _ => ?_) (fun _ => ?_)
    · refine Only.via (State.modInst_only _ _ _) rfl ?_
      exact Only.refl _ _
    · exact Only.refl _ _
  refine Only.ite (fun _ => ?_) (fun _ => ?_)
  · refine Only.via (State.modInst_only _ _ _) rfl ?_
    exact h3
  · exact h3

theorem State.setUsed_only : ∀ s a1 a2, Only [.out, .inst, .fn] s (State.setUsed s a1 a2) := by
  intro s a1 a2
  unfold State.setUsed
  extract_lets x1 x2 x3
  refine Only.cut (t := x2) ?_ (fun h4 => ?_)
  · unfold x2
    refine Only.via (State.modInst_only _ _ _) rfl ?_
    exact Only.refl _ _
  refine Only.cut (t := x3) ?_ (fun h5 => ?_)
  · unfold x3
    refine Only.ite (fun _ => ?_) (fun _ => ?_)
    · refine Only.via (State.quotaWarning_only _ _) rfl ?_
      exact h4
    · exact h4
  refine Only.via (State.quotaSettle_only _ _) rfl ?_
  exact h5

theorem State.quotaCheck_only : ∀ s a1, Only [.out, .inst, .fn] s (State.quotaCheck s a1) := by
  intro s a1
  unfold State.quotaCheck
  extract_lets x1 x2
  refine Only.cut (t := x1) ?_ (fun h3 => ?_)
  · unfold x1
    refine Only.via (State.quotaSettle_only _ _) rfl ?_
    exact Only.refl _ _
  refine Only.ite (fun _ => ?_) (fun _ => ?_)
  · refine Only.via (State.quotaWarning_only _ _) rfl ?_
    exact h3
  · exact h3

theorem State.count_only : ∀ s a1 a2, Only [.inst] s (State.count s a1 a2) := by
  intro s a1 a2
  unfold State.count
  refine Only.ite (fun _ => ?_) (fun _ => ?_)
  · refine Only.via (State.modInst_only _ _ _) rfl ?_
    exact Only.refl _ _
  · exact Only.refl _ _

theorem State.tenantClosed_only : ∀ s a1, Only [.out, .fn] s (State.tenantClosed s a1) := by
  intro s a1
  unfold State.tenantClosed
  refine Only.ite (fun _ => ?_) (fun _ => ?_)
  · exact Only.refl _ _
  · split
    · rename_i y1 y2 y3 y4 y5
      refine Only.via (State.postOwn_only _ _ _ _) rfl ?_
      exact Only.refl _ _
    · rename_i y6 y7 y8
      exact Only.refl _ _

theorem State.pfClosed_only : ∀ s a1 a2, Only [.out, .fn] s (State.pfClosed s a1 a2) := by
  intro s a1 a2
  unfold State.pfClosed
  refine Only.via (State.postOwn_only _ _ _ _) rfl ?_
  exact Only.refl _ _

theorem State.closeOne_only : ∀ s a1, Only [.out, .log, .nvm, .nvs, .inst, .fn] s (State.closeOne s a1) := by
  intro s a1
  unfold State.closeOne
  split
  · rename_i y1 y2 y3
    refine Only.via (State.logEv_only _ _ _ _) rfl ?_
    refine Only.via (State.tenantClosed_only _ _) rfl ?_
    refine Only.via (State.modInst_only _ _ _) rfl ?_
    exact Only.refl _ _
  · rename_i y4 y5
    exact Only.refl _ _

theorem State.takeBoundary_only : ∀ s a1, Only [.out, .log, .nvm, .nvs, .inst, .fn] s (State.takeBoundary s a1) := by
  intro s a1
  unfold State.takeBoundary
  extract_lets x1
  refine Only.ite (fun _ => ?_) (fun _ => ?_)
  · exact Only.refl _ _
  · refine Only.via (State.pfClosed_only _ _ _) rfl ?_
    refine Only.forEach (fun a2 t3 h4 => ?_) ?_
    · refine Only.via (State.closeOne_only _ _) rfl ?_
      exact h4
    · exact Only.refl _ _

theorem State.jumpPeriods_only : ∀ s, Only [.out, .inst, .fn] s (State.jumpPeriods s) := by
  intro s
  unfold State.jumpPeriods
  extract_lets x1 x2
  refine Only.cut (t := x2) ?_ (fun h3 => ?_)
  · unfold x2
    refine Only.forEach (fun a4 t5 h6 => ?_) ?_
    · split
      · rename_i y7 y8 y9
        refine Only.via (State.tenantClosed_only _ _) rfl ?_
        refine Only.via (State.modInst_only _ _ _) rfl ?_
        exact h6
      · rename_i y10 y11
        exact h6
    · exact Only.refl _ _
  refine Only.ite (fun _ => ?_) (fun _ => ?_)
  · exact Only.refl _ _
  · refine Only.via (State.pfClosed_only _ _ _) rfl ?_
    exact h3

theorem State.flagPeriods_only : ∀ s a1, Only [.inst] s (State.flagPeriods s a1) := by
  intro s a1
  unfold State.flagPeriods
  refine Only.forEach (fun a1 t2 h3 => ?_) ?_
  · refine Only.via (State.modInst_only _ _ _) rfl ?_
    exact h3
  · exact Only.refl _ _

theorem execOccupancyTick_only : ∀ s z, Only [.inst] s (runRow (execOccupancyTick s) z) := by
  intro s z
  unfold execOccupancyTick
  rw [runRow_next]
  refine Only.whenServing (fun t1 h2 => ?_) ?_
  · refine Only.forEach (fun a3 t4 h5 => ?_) ?_
    · refine Only.via (State.count_only _ _ _) rfl ?_
      exact h5
    · exact h2
  · exact Only.refl _ _

theorem execPeriodBoundary_only : ∀ s z, Only [.out, .log, .nvm, .nvs, .inst, .fn] s (runRow (execPeriodBoundary s) z) := by
  intro s z
  unfold execPeriodBoundary
  rw [runRow_next]
  refine Only.whenServing (fun t1 h2 => ?_) ?_
  · split
    · rename_i y3 y4 y5
      refine Only.via (State.takeBoundary_only _ _) rfl ?_
      exact h2
    · rename_i y6 y7
      exact h2
  · exact Only.refl _ _

theorem execPolicyPageUsedUpdate_only : ∀ s z, Only [.inst] s (runRow (execPolicyPageUsedUpdate s) z) := by
  intro s z
  unfold execPolicyPageUsedUpdate
  rw [runRow_next]
  refine Only.whenServing (fun t1 h2 => ?_) ?_
  · refine Only.forEach (fun a3 t4 h5 => ?_) ?_
    · refine Only.via (State.modInst_only _ _ _) rfl ?_
      exact h5
    · exact h2
  · exact Only.refl _ _

theorem State.zeroise_only : ∀ s, Only [.sec, .inst, .sea] s (State.zeroise s) := by
  intro s
  unfold State.zeroise
  refine Only.via (Only.set_sec_inst_sea _ _ _ _) rfl ?_
  exact Only.refl _ _

theorem State.storeUnits_only : ∀ s a1 a2, Only [.fss] s (State.storeUnits s a1 a2) := by
  intro s a1 a2
  induction a2 generalizing s a1 with
  | nil =>
    rw [State.storeUnits]
    exact Only.refl _ _
  | cons b r ih =>
    rw [State.storeUnits]
    refine Only.via (ih _ _) rfl ?_
    refine Only.via (Only.set_fss _ _) rfl ?_
    exact Only.refl _ _

theorem State.landPages_only : ∀ s, Only [.fss] s (State.landPages s) := by
  intro s
  unfold State.landPages
  refine Only.forEach (fun a1 t2 h3 => ?_) ?_
  · refine Only.via (State.storeUnits_only _ _ _) rfl ?_
    exact h3
  · exact Only.refl _ _

theorem State.stopEngines_only : ∀ s, Only [.tm, .cmds, .oldOps, .due, .reads, .fss, .fetches] s (State.stopEngines s) := by
  intro s
  unfold State.stopEngines
  extract_lets x1 x2 x3
  refine Only.cut (t := x1) ?_ (fun h4 => ?_)
  · unfold x1
    refine Only.via (State.landPages_only _) rfl ?_
    exact Only.refl _ _
  refine Only.via (Only.set_tm_cmds_oldOps_due_reads_fss_fetches _ _ _ _ _ _ _ _) rfl ?_
  exact h4

theorem State.countFurther_only : ∀ s a1, Only [.hlt, .nvm, .nvs] s (State.countFurther s a1) := by
  intro s a1
  unfold State.countFurther
  split
  · rename_i y1 y2 y3
    extract_lets x4 x5 x6
    refine Only.cut (t := x6) ?_ (fun h7 => ?_)
    · unfold x6
      refine Only.via (Only.set_hlt _ _) rfl ?_
      exact Only.refl _ _
    refine Only.ite (fun _ => ?_) (fun _ => ?_)
    · refine Only.via (State.nvmWrite_only _ _ _) rfl ?_
      exact h7
    · exact h7
  · rename_i y8 y9
    exact Only.refl _ _

theorem State.haltBy_only : ∀ s a1, Only [.tm, .hlt, .nvm, .nvs, .sec, .inst, .cmds, .oldOps, .due, .reads, .fss, .sea, .fetches, .drives, .pwb, .cal, .mon] s (State.haltBy s a1) := by
  intro s a1
  unfold State.haltBy
  split
  · rename_i y1 y2 y3
    refine Only.via (State.countFurther_only _ _) rfl ?_
    exact Only.refl _ _
  · rename_i y4 y5
    extract_lets x6 x7 x8 x9 x10 x11 x12 x13
    refine Only.cut (t := x8) ?_ (fun h14 => ?_)
    · unfold x8
      refine Only.via (Only.set_hlt _ _) rfl ?_
      exact Only.refl _ _
    refine Only.cut (t := x13) ?_ (fun h15 => ?_)
    · unfold x13
      refine Only.via (Only.set_drives_pwb_cal_mon _ _ _ _ _) rfl ?_
      exact h14
    refine Only.via (State.zeroise_only _) rfl ?_
    refine Only.via (State.stopEngines_only _) rfl ?_
    exact h15

theorem Only.dramCheck {l : List StateField} {s X : State} {m : MacCheck} {g : State → State}
    (hg : ∀ t, Only l s t → Only l s (g t))
    (hl : StateField.within [.out, .tm, .hlt, .log, .nvm, .nvs, .sec, .inst, .fn, .cmds, .oldOps, .due, .reads, .fss, .sea, .fetches, .drives,
      .pwb, .cal, .mon] l = true) (h : Only l s X) : Only l s (dramCheck m X g) := by
  have hs : Only l s { X with sea := { X.sea with retryDram := inc16 X.sea.retryDram } } :=
    Only.via (Only.set_sea _ _) (StateField.within_of hl rfl) h
  unfold Sys2Proof.Machine.dramCheck
  split
  · exact hg X h
  · dsimp only
    split
    · exact h
    · split
      · exact hg X h
      · split
        · exact Only.via (State.note_only _ _ _) (StateField.within_of hl rfl) (hg _ hs)
        · exact Only.via (State.haltBy_only _ _) (StateField.within_of hl rfl) h

theorem Only.withRandom {l : List StateField} {s X : State} {g : State → State} (hg : ∀ t, Only l s t → Only l s (g t))
    (hl : StateField.within [.tm, .hlt, .nvm, .nvs, .sec, .inst, .cmds, .oldOps, .due, .reads, .fss, .sea, .fetches, .drives, .pwb, .cal, .mon] l = true) (h : Only l s X) : Only l s (X.withRandom g) := by
  unfold State.withRandom
  split
  · exact hg X h
  · split
    · exact Only.via (State.haltBy_only _ _) hl h
    · exact h

theorem State.emitLine_only : ∀ s a1 a2 a3, Only [.out] s (State.emitLine s a1 a2 a3) := by
  intro s a1 a2 a3
  unfold State.emitLine
  extract_lets x1 x2 x3
  refine Only.via (State.emit_only _ _) rfl ?_
  refine Only.via (State.emit_only _ _) rfl ?_
  exact Only.refl _ _

theorem State.setLine_only : ∀ s a1 a2 a3, Only [.mch] s (State.setLine s a1 a2 a3) := by
  intro s a1 a2 a3
  unfold State.setLine
  refine Only.via (Only.set_mch _ _) rfl ?_
  exact Only.refl _ _

theorem State.modWay_only : ∀ s a1 a2, Only [.mch] s (State.modWay s a1 a2) := by
  intro s a1 a2
  unfold State.modWay
  refine Only.via (Only.set_mch _ _) rfl ?_
  exact Only.refl _ _

theorem State.setMchEvt_only : ∀ s a1, Only [.out, .fn, .mch] s (State.setMchEvt s a1) := by
  intro s a1
  unfold State.setMchEvt
  refine Only.ite (fun _ => ?_) (fun _ => ?_)
  · exact Only.refl _ _
  · extract_lets x1 x2
    refine Only.cut (t := x2) ?_ (fun h3 => ?_)
    · unfold x2
      refine Only.via (Only.set_mch _ _) rfl ?_
      exact Only.refl _ _
    refine Only.ite (fun _ => ?_) (fun _ => ?_)
    · refine Only.via (State.raise_only _ _ _) rfl ?_
      exact h3
    · exact h3

theorem State.touchLine_only : ∀ s a1 a2, Only [.mch] s (State.touchLine s a1 a2) := by
  intro s a1 a2
  unfold State.touchLine
  refine Only.via (Only.set_mch _ _) rfl ?_
  exact Only.refl _ _

theorem State.writeBack_only : ∀ s a1 a2, Only [.out, .mch] s (State.writeBack s a1 a2) := by
  intro s a1 a2
  unfold State.writeBack
  split
  · rename_i y1 y2 y3
    refine Only.ite (fun _ => ?_) (fun _ => ?_)
    · extract_lets x4
      refine Only.via (State.setLine_only _ _ _ _) rfl ?_
      refine Only.via (State.emitLine_only _ _ _ _) rfl ?_
      exact Only.refl _ _
    · exact Only.refl _ _
  · rename_i y5 y6
    exact Only.refl _ _

theorem State.fillLine_only : ∀ s a1 a2 a3 a4, Only [.out, .mch] s (State.fillLine s a1 a2 a3 a4) := by
  intro s a1 a2 a3 a4
  unfold State.fillLine
  extract_lets x1 x2
  refine Only.ite (fun _ => ?_) (fun _ => ?_)
  · exact Only.refl _ _
  · refine Only.via (State.touchLine_only _ _ _) rfl ?_
    refine Only.via (State.setLine_only _ _ _ _) rfl ?_
    refine Only.via (State.writeBack_only _ _ _) rfl ?_
    exact Only.refl _ _

theorem State.dropLeafLines_only : ∀ s a1, Only [.mch] s (State.dropLeafLines s a1) := by
  intro s a1
  unfold State.dropLeafLines
  refine Only.forBelow (fun a1 t2 h3 => ?_) ?_
  · extract_lets x4
    refine Only.forBelow (fun a5 t6 h7 => ?_) ?_
    · split
      · rename_i y8 y9 y10
        refine Only.ite (fun _ => ?_) (fun _ => ?_)
        · refine Only.via (State.setLine_only _ _ _ _) rfl ?_
          exact h7
        · exact h7
      · rename_i y11 y12
        exact h7
    · exact h3
  · exact Only.refl _ _

theorem State.cleanLine_only : ∀ s a1, Only [.out, .mch] s (State.cleanLine s a1) := by
  intro s a1
  unfold State.cleanLine
  refine Only.forBelow (fun a1 t2 h3 => ?_) ?_
  · split
    · rename_i y4 y5 y6
      refine Only.ite (fun _ => ?_) (fun _ => ?_)
      · refine Only.via (State.writeBack_only _ _ _) rfl ?_
        exact h3
      · exact h3
    · rename_i y7 y8
      exact h3
  · exact Only.refl _ _

theorem State.writeLeaf_only : ∀ s a1 a2 a3, Only [.out, .mch] s (State.writeLeaf s a1 a2 a3) := by
  intro s a1 a2 a3
  unfold State.writeLeaf
  extract_lets x1
  refine Only.cut (t := x1) ?_ (fun h2 => ?_)
  · unfold x1
    refine Only.ite (fun _ => ?_) (fun _ => ?_)
    · refine Only.via (State.dropLeafLines_only _ _) rfl ?_
      exact Only.refl _ _
    · exact Only.refl _ _
  refine Only.forBelow (fun a3 t4 h5 => ?_) ?_
  · extract_lets x6 x7
    refine Only.ite (fun _ => ?_) (fun _ => ?_)
    · refine Only.via (State.fillLine_only _ _ _ _ _) rfl ?_
      exact h5
    · refine Only.via (State.emitLine_only _ _ _ _) rfl ?_
      exact h5
  · exact h2

theorem State.emptyCache_only : ∀ s, Only [.mch] s (State.emptyCache s) := by
  intro s
  unfold State.emptyCache
  refine Only.via (Only.set_mch _ _) rfl ?_
  exact Only.refl _ _

theorem State.dropLeaf_only : ∀ s a1, Only [.fss, .mch] s (State.dropLeaf s a1) := by
  intro s a1
  unfold State.dropLeaf
  extract_lets x1 x2
  refine Only.cut (t := x1) ?_ (fun h3 => ?_)
  · unfold x1
    refine Only.via (State.dropLeafLines_only _ _) rfl ?_
    exact Only.refl _ _
  split
  · rename_i y4 y5 y6
    refine Only.via (Only.set_fss _ _) rfl ?_
    exact h3
  · rename_i y7 y8
    exact h3

theorem State.countFault_only : ∀ s a1, Only [.out, .log, .nvm, .nvs, .fn, .mch] s (State.countFault s a1) := by
  intro s a1
  unfold State.countFault
  extract_lets x1 x2
  refine Only.cut (t := x2) ?_ (fun h3 => ?_)
  · unfold x2
    refine Only.via (State.modWay_only _ _ _) rfl ?_
    exact Only.refl _ _
  refine Only.via (State.note_only _ _ _) rfl ?_
  refine Only.via (State.setMchEvt_only _ _) rfl ?_
  exact h3

theorem State.finishWay_only : ∀ s a1 a2, Only [.out, .log, .nvm, .nvs, .fn, .fss, .mch] s (State.finishWay s a1 a2) := by
  intro s a1 a2
  unfold State.finishWay
  refine Only.ite (fun _ => ?_) (fun _ => ?_)
  · exact Only.refl _ _
  · extract_lets x1 x2 x3 x4
    refine Only.cut (t := x2) ?_ (fun h5 => ?_)
    · unfold x2
      refine Only.forBelow (fun a6 t7 h8 => ?_) ?_
      · split
        · rename_i y9 y10 y11 y12
          extract_lets x13
          refine Only.cut (t := x13) ?_ (fun h14 => ?_)
          · unfold x13
            refine Only.ite (fun _ => ?_) (fun _ => ?_)
            · refine Only.ite (fun _ => ?_) (fun _ => ?_)
              · refine Only.via (State.countFault_only _ _) rfl ?_
                refine Only.via (State.dropLeaf_only _ _) rfl ?_
                exact h8
              · refine Only.via (State.writeBack_only _ _ _) rfl ?_
                exact h8
            · exact h8
          refine Only.via (State.setLine_only _ _ _ _) rfl ?_
          exact h14
        · rename_i y15 y16 y17
          exact h8
      · exact Only.refl _ _
    refine Only.cut (t := x4) ?_ (fun h18 => ?_)
    · unfold x4
      refine Only.via (Only.set_mch _ _) rfl ?_
      exact h5
    refine Only.via (State.note_only _ _ _) rfl ?_
    refine Only.via (State.setMchEvt_only _ _) rfl ?_
    refine Only.via (State.modWay_only _ _ _) rfl ?_
    exact h18

theorem State.disableWay_only : ∀ s a1 a2, Only [.out, .log, .nvm, .nvs, .fn, .fss, .mch] s (State.disableWay s a1 a2) := by
  intro s a1 a2
  unfold State.disableWay
  refine Only.via (State.finishWay_only _ _ _) rfl ?_
  refine Only.via (State.modWay_only _ _ _) rfl ?_
  exact Only.refl _ _

theorem State.finishWays_only : ∀ s, Only [.out, .log, .nvm, .nvs, .fn, .fss, .mch] s (State.finishWays s) := by
  intro s
  unfold State.finishWays
  refine Only.forBelow (fun a1 t2 h3 => ?_) ?_
  · refine Only.via (State.finishWay_only _ _ _) rfl ?_
    exact h3
  · exact Only.refl _ _

theorem State.parityFault_only : ∀ s a1 a2, Only [.out, .log, .nvm, .nvs, .fn, .fss, .mch] s (State.parityFault s a1 a2) := by
  intro s a1 a2
  unfold State.parityFault
  extract_lets x1 x2
  split
  · rename_i y3 y4 y5
    extract_lets x6
    refine Only.cut (t := x6) ?_ (fun h7 => ?_)
    · unfold x6
      refine Only.via (State.countFault_only _ _) rfl ?_
      refine Only.ite (fun _ => ?_) (fun _ => ?_)
      · refine Only.via (State.dropLeaf_only _ _) rfl ?_
        exact Only.refl _ _
      · refine Only.via (State.setLine_only _ _ _ _) rfl ?_
        exact Only.refl _ _
    refine Only.ite (fun _ => ?_) (fun _ => ?_)
    · refine Only.via (State.disableWay_only _ _ _) rfl ?_
      exact h7
    · exact h7
  · rename_i y8 y9
    exact Only.refl _ _

theorem State.checkVictim_only : ∀ s a1 a2, Only [.out, .log, .nvm, .nvs, .fn, .fss, .mch] s (State.checkVictim s a1 a2) := by
  intro s a1 a2
  unfold State.checkVictim
  extract_lets x1
  refine Only.ite (fun _ => ?_) (fun _ => ?_)
  · refine Only.via (State.parityFault_only _ _ _) rfl ?_
    exact Only.refl _ _
  · exact Only.refl _ _

theorem State.jAdd_only : ∀ s a1, Only [.fss] s (State.jAdd s a1) := by
  intro s a1
  unfold State.jAdd
  refine Only.via (Only.set_fss _ _) rfl ?_
  exact Only.refl _ _

theorem State.jUpdate_only : ∀ s a1, Only [.fss] s (State.jUpdate s a1) := by
  intro s a1
  unfold State.jUpdate
  extract_lets x1 x2
  refine Only.cut (t := x1) ?_ (fun h3 => ?_)
  · unfold x1
    refine Only.via (State.jAdd_only _ _) rfl ?_
    exact Only.refl _ _
  refine Only.via (Only.set_fss _ _) rfl ?_
  exact h3

theorem State.refreshUsed_only : ∀ s a1, Only [.out, .inst, .fn] s (State.refreshUsed s a1) := by
  intro s a1
  unfold State.refreshUsed
  refine Only.via (State.setUsed_only _ _ _) rfl ?_
  exact Only.refl _ _

theorem State.setBlock_only : ∀ s a1 a2 a3, Only [.fss] s (State.setBlock s a1 a2 a3) := by
  intro s a1 a2 a3
  unfold State.setBlock
  refine Only.via (Only.set_fss _ _) rfl ?_
  exact Only.refl _ _

theorem State.listBlocks_only : ∀ s, Only [.fss] s (State.listBlocks s) := by
  intro s
  unfold State.listBlocks
  extract_lets x1 x2
  refine Only.via (Only.set_fss _ _) rfl ?_
  exact Only.refl _ _

theorem State.advanceAnchor_only : ∀ s c, Only [.fss] s (State.advanceAnchor s c).1 := by
  intro s c
  unfold State.advanceAnchor
  split
  · exact State.setBlock_only _ _ _ _
  · exact Only.refl _ _

theorem State.writeAnchor_only : ∀ s, Only [.fss] s (State.writeAnchor s) := by
  intro s
  unfold State.writeAnchor
  extract_lets wear
  split
  rename_i t l heq
  refine Only.via (Only.set_fss _ _) rfl (Only.ofPairFst heq ?_)
  refine Only.foldlFst (fun e c h => ?_) (Only.refl _ _)
  exact Only.via (State.advanceAnchor_only _ _) rfl h

theorem State.openBand_only : ∀ s a1, Only [.fss] s (State.openBand s a1) := by
  intro s a1
  unfold State.openBand
  extract_lets x1 x2 x3 x4 x5
  refine Only.cut (t := x3) ?_ (fun h6 => ?_)
  · unfold x3
    refine Only.forEach (fun a7 t8 h9 => ?_) ?_
    · refine Only.via (State.jAdd_only _ _) rfl ?_
      refine Only.via (State.setBlock_only _ _ _ _) rfl ?_
      exact h9
    · exact Only.refl _ _
  refine Only.cut (t := x5) ?_ (fun h10 => ?_)
  · unfold x5
    refine Only.via (Only.set_fss _ _) rfl ?_
    exact h6
  refine Only.ite (fun _ => ?_) (fun _ => ?_)
  · exact Only.refl _ _
  · refine Only.ite (fun _ => ?_) (fun _ => ?_)
    · refine Only.via (State.writeAnchor_only _) rfl ?_
      exact h10
    · exact h10

theorem State.setBand_only : ∀ s a1, Only [.fss] s (State.setBand s a1) := by
  intro s a1
  unfold State.setBand
  refine Only.via (Only.set_fss _ _) rfl ?_
  exact Only.refl _ _

theorem State.closeBand_only : ∀ s a1, Only [.fss] s (State.closeBand s a1) := by
  intro s a1
  unfold State.closeBand
  refine Only.ite (fun _ => ?_) (fun _ => ?_)
  · refine Only.via (State.setBand_only _ _) rfl ?_
    exact Only.refl _ _
  · refine Only.forEach (fun a1 t2 h3 => ?_) ?_
    · refine Only.via (State.setBlock_only _ _ _ _) rfl ?_
      exact h3
    · refine Only.via (State.setBand_only _ _) rfl ?_
      exact Only.refl _ _

theorem State.takePage_only : ∀ s a1, ∀ r, State.takePage s a1 = some r → Only [.fss] s r.2 := by
  intro s a1 r hr
  unfold State.takePage at hr
  split at hr
  · split at hr
    · cases hr
      exact State.setBand_only _ _
    · dsimp only at hr
      split at hr
      · obtain ⟨e, _, rfl⟩ := Option.map_eq_some_iff.mp hr
        exact Only.via (State.setBand_only _ _) rfl (Only.via (State.openBand_only _ _) rfl (State.closeBand_only _ _))
      · cases hr
  · dsimp only at hr
    split at hr
    · obtain ⟨e, _, rfl⟩ := Option.map_eq_some_iff.mp hr
      exact Only.via (State.setBand_only _ _) rfl (State.openBand_only _ _)
    · cases hr

theorem State.issuePage_only : ∀ s a1, Only [.fss] s (State.issuePage s a1) := by
  intro s a1
  unfold State.issuePage
  refine Only.via (Only.set_fss _ _) rfl ?_
  exact Only.refl _ _

theorem State.addUnit_only : ∀ s a1 a2 a3, ∀ r, State.addUnit s a1 a2 a3 = some r → Only [.fss] s r.2 := by
  intro s a1 a2 a3 r hr
  unfold State.addUnit at hr
  split at hr
  · cases hr
    refine Only.ite (fun _ => ?_) (fun _ => Only.set_fss _ _)
    exact Only.via (State.issuePage_only _ _) rfl (Only.set_fss _ _)
  · split at hr
    · cases hr
      rename_i heq
      exact Only.via (Only.set_fss _ _) rfl (State.takePage_only _ _ _ heq)
    · cases hr

theorem State.putUnit_only : ∀ s a1 a2, ∀ r, State.putUnit s a1 a2 = some r → Only [.fss] s r.2 := by
  intro s a1 a2 r hr
  unfold State.putUnit at hr
  split at hr
  · cases hr
    rename_i heq
    exact Only.via (Only.set_fss _ _) rfl (State.addUnit_only _ _ _ _ _ heq)
  · cases hr

theorem State.takeSeq_only : ∀ s a1, Only [.inst, .fss] s (State.takeSeq s a1).2 := by
  intro s a1
  unfold State.takeSeq
  extract_lets x1 x2
  refine Only.cut (t := x2) ?_ (fun h3 => ?_)
  · unfold x2
    refine Only.via (State.modInst_only _ _ _) rfl ?_
    exact Only.refl _ _
  split
  · rename_i y4
    refine Only.via (State.jAdd_only _ _) rfl ?_
    refine Only.via (State.modInst_only _ _ _) rfl ?_
    exact h3
  · rename_i y5
    exact h3

theorem State.bumpCkpt_only : ∀ s, Only [.fss] s (State.bumpCkpt s) := by
  intro s
  unfold State.bumpCkpt
  refine Only.via (Only.set_fss _ _) rfl ?_
  exact Only.refl _ _

theorem State.journalRecordOf_only : ∀ s a1 a2, Only [.inst, .fss] s (State.journalRecordOf s a1 a2) := by
  intro s a1 a2
  unfold State.journalRecordOf
  split
  rename_i y1 y2 y3 y4
  extract_lets x5
  split
  · rename_i y6 y7 y8 y9
    refine Only.via (State.jAdd_only _ _) rfl ?_
    refine Only.ofSome y9 (State.putUnit_only _ _ _) rfl ?_
    refine Only.via (State.bumpCkpt_only _) rfl ?_
    refine Only.ofPair y4 ?_
    refine Only.via (State.takeSeq_only _ _) rfl ?_
    exact Only.refl _ _
  · rename_i y10 y11
    refine Only.via (State.jAdd_only _ _) rfl ?_
    refine Only.ofPair y4 ?_
    refine Only.via (State.takeSeq_only _ _) rfl ?_
    exact Only.refl _ _

theorem State.journalRecord_only : ∀ s a1, Only [.inst, .fss] s (State.journalRecord s a1) := by
  intro s a1
  unfold State.journalRecord
  refine Only.via (State.journalRecordOf_only _ _ _) rfl ?_
  exact Only.refl _ _

theorem State.setLeaf_only : ∀ s a1 a2, Only [.fss] s (State.setLeaf s a1 a2) := by
  intro s a1 a2
  unfold State.setLeaf
  refine Only.via (Only.set_fss _ _) rfl ?_
  exact Only.refl _ _

theorem State.leafOut_only : ∀ s a1, Only [.inst, .fss] s (State.leafOut s a1) := by
  intro s a1
  unfold State.leafOut
  extract_lets x1
  refine Only.ite (fun _ => ?_) (fun _ => ?_)
  · split
    rename_i y2 y3 y4 y5 y6
    extract_lets x7
    split
    · rename_i y8 y9 y10 y11
      refine Only.via (State.setLeaf_only _ _ _) rfl ?_
      refine Only.via (State.jAdd_only _ _) rfl ?_
      refine Only.ofSome y11 (State.putUnit_only _ _ _) rfl ?_
      refine Only.via (State.bumpCkpt_only _) rfl ?_
      refine Only.ofPair y6 ?_
      refine Only.via (State.takeSeq_only _ _) rfl ?_
      exact Only.refl _ _
    · rename_i y12 y13
      refine Only.ofPair y6 ?_
      refine Only.via (State.takeSeq_only _ _) rfl ?_
      exact Only.refl _ _
  · exact Only.refl _ _

theorem State.evictLeaf_only : ∀ s, Only [.out, .inst, .fss, .mch] s (State.evictLeaf s) := by
  intro s
  unfold State.evictLeaf
  split
  · rename_i y1 y2
    exact Only.refl _ _
  · rename_i y3 y4 y5 y6
    extract_lets x7 x8 x9 x10 x11
    refine Only.cut (t := x7) ?_ (fun h12 => ?_)
    · unfold x7
      refine Only.via (State.leafOut_only _ _) rfl ?_
      exact Only.refl _ _
    refine Only.cut (t := x10) ?_ (fun h13 => ?_)
    · unfold x10
      refine Only.via (Only.set_fss _ _) rfl ?_
      exact h12
    refine Only.ite (fun _ => ?_) (fun _ => ?_)
    · exact h12
    · split
      · rename_i y14 y15 y16 y17
        refine Only.via (State.writeLeaf_only _ _ _ _) rfl ?_
        refine Only.via (State.setLeaf_only _ _ _) rfl ?_
        exact h13
      · rename_i y18 y19 y20
        refine Only.via (State.setLeaf_only _ _ _) rfl ?_
        exact h13

theorem State.addPromo_only : ∀ s a1 a2 a3, Only [.fetches] s (State.addPromo s a1 a2 a3) := by
  intro s a1 a2 a3
  unfold State.addPromo
  refine Only.ite (fun _ => ?_) (fun _ => ?_)
  · refine Only.via (Only.set_fetches _ _) rfl ?_
    exact Only.refl _ _
  · refine Only.via (Only.set_fetches _ _) rfl ?_
    exact Only.refl _ _

theorem State.promoteLeaf_only : ∀ s a1, Only [.fetches] s (State.promoteLeaf s a1) := by
  intro s a1
  unfold State.promoteLeaf
  extract_lets x1
  refine Only.forBelow (fun a2 t3 h4 => ?_) ?_
  · refine Only.via (State.addPromo_only _ _ _ _) rfl ?_
    exact h4
  · exact Only.refl _ _

theorem State.touchLeaf_only : ∀ s a1, Only [.out, .inst, .fss, .mch, .fetches] s (State.touchLeaf s a1) := by
  intro s a1
  unfold State.touchLeaf
  extract_lets x1 x2 x3 x4 x5
  refine Only.cut (t := x1) ?_ (fun h6 => ?_)
  · unfold x1
    refine Only.ite (fun _ => ?_) (fun _ => ?_)
    · refine Only.via (State.promoteLeaf_only _ _) rfl ?_
      exact Only.refl _ _
    · exact Only.refl _ _
  refine Only.cut (t := x2) ?_ (fun h7 => ?_)
  · unfold x2
    refine Only.ite (fun _ => ?_) (fun _ => ?_)
    · exact Only.refl _ _
    · refine Only.ite (fun _ => ?_) (fun _ => ?_)
      · refine Only.via (State.evictLeaf_only _) rfl ?_
        exact h6
      · exact h6
  refine Only.cut (t := x4) ?_ (fun h8 => ?_)
  · unfold x4
    refine Only.via (Only.set_fss _ _) rfl ?_
    exact h7
  refine Only.via (State.setLeaf_only _ _ _) rfl ?_
  exact h8

theorem State.touchRun_only : ∀ s a1 a2 a3, Only [.out, .inst, .fss, .mch, .fetches] s (State.touchRun s a1 a2 a3) := by
  intro s a1 a2 a3
  unfold State.touchRun
  refine Only.ite (fun _ => ?_) (fun _ => ?_)
  · exact Only.refl _ _
  · refine Only.forBelow (fun a1 t2 h3 => ?_) ?_
    · refine Only.via (State.touchLeaf_only _ _) rfl ?_
      exact h3
    · exact Only.refl _ _

theorem State.mapStore_only : ∀ s a1 a2 a3, Only [.out, .inst, .fss, .mch, .fetches] s (State.mapStore s a1 a2 a3) := by
  intro s a1 a2 a3
  unfold State.mapStore
  extract_lets x1 x2 x3 x4 x5
  refine Only.cut (t := x2) ?_ (fun h6 => ?_)
  · unfold x2
    refine Only.via (State.touchLeaf_only _ _) rfl ?_
    exact Only.refl _ _
  refine Only.cut (t := x4) ?_ (fun h7 => ?_)
  · unfold x4
    refine Only.via (State.setLeaf_only _ _ _) rfl ?_
    exact h6
  refine Only.via (Only.set_fss _ _) rfl ?_
  exact h7

theorem State.mapPut_only : ∀ s a1 a2 a3, Only [.out, .inst, .fss, .mch, .fetches] s (State.mapPut s a1 a2 a3) := by
  intro s a1 a2 a3
  unfold State.mapPut
  extract_lets x1 x2 x3 x4 x5
  refine Only.cut (t := x3) ?_ (fun h6 => ?_)
  · unfold x3
    refine Only.forEach (fun a7 t8 h9 => ?_) ?_
    · refine Only.via (State.jAdd_only _ _) rfl ?_
      exact h9
    · exact Only.refl _ _
  refine Only.cut (t := x5) ?_ (fun h10 => ?_)
  · unfold x5
    refine Only.ite (fun _ => ?_) (fun _ => ?_)
    · refine Only.via (Only.set_fss _ _) rfl ?_
      exact h6
    · exact Only.refl _ _
  refine Only.via (State.mapStore_only _ _ _ _) rfl ?_
  exact h10

theorem State.dropEmptyLeaves_only : ∀ s a1, Only [.fss] s (State.dropEmptyLeaves s a1) := by
  intro s a1
  unfold State.dropEmptyLeaves
  refine Only.forEach (fun a1 t2 h3 => ?_) ?_
  · refine Only.ite (fun _ => ?_) (fun _ => ?_)
    · exact h3
    · refine Only.via (State.setLeaf_only _ _ _) rfl ?_
      refine Only.via (Only.set_fss _ _) rfl ?_
      exact h3
  · exact Only.refl _ _

theorem State.recap_only : ∀ s, Only [.fss] s (State.recap s) := by
  intro s
  unfold State.recap
  extract_lets x1 x2
  refine Only.via (Only.set_fss _ _) rfl ?_
  exact Only.refl _ _

theorem State.markUnits_only : ∀ s a1, Only [.fss] s (State.markUnits s a1) := by
  intro s a1
  unfold State.markUnits
  refine Only.forBelow (fun a1 t2 h3 => ?_) ?_
  · extract_lets x4 x5 x6
    refine Only.ite (fun _ => ?_) (fun _ => ?_)
    · refine Only.via (Only.set_fss _ _) rfl ?_
      exact h3
    · exact h3
  · exact Only.refl _ _

theorem State.storeCfg_only : ∀ s a1 a2 a3, Only [.link] s (State.storeCfg s a1 a2 a3) := by
  intro s a1 a2 a3
  unfold State.storeCfg
  extract_lets x1 x2
  refine Only.via (Only.set_link _ _) rfl ?_
  exact Only.refl _ _

theorem State.cfgHeld_only : ∀ s, Only [.link, .sec, .fn] s (State.cfgHeld s) := by
  intro s
  unfold State.cfgHeld
  refine Only.ite (fun _ => ?_) (fun _ => ?_)
  · exact Only.refl _ _
  · refine Only.via (Only.set_link_sec_fn _ _ _ _) rfl ?_
    exact Only.refl _ _

theorem State.recordHalt_only : ∀ s, Only [.hlt, .nvm, .nvs] s (State.recordHalt s) := by
  intro s
  unfold State.recordHalt
  split
  · rename_i y1 y2 y3
    refine Only.ite (fun _ => ?_) (fun _ => ?_)
    · exact Only.refl _ _
    · split
      rename_i y4 y5 y6 y7 y8
      extract_lets x9 x10
      refine Only.cut (t := x9) ?_ (fun h11 => ?_)
      · unfold x9
        refine Only.via (State.nvmWrite_only _ _ _) rfl ?_
        exact Only.refl _ _
      refine Only.via (Only.set_hlt _ _) rfl ?_
      exact h11
  · rename_i y12 y13
    exact Only.refl _ _

theorem execIntegrityHalt_only : ∀ a0 a1 s z, Only [.tm, .hlt, .nvm, .nvs, .sec, .inst, .cmds, .oldOps, .due, .reads, .fss, .sea, .fetches, .drives, .pwb, .cal, .mon] s (runRow (execIntegrityHalt a0 a1 s) z) := by
  intro a0 a1 s z
  unfold execIntegrityHalt
  rw [runRow_next]
  refine Only.ite (fun _ => ?_) (fun _ => ?_)
  · exact Only.refl _ _
  · refine Only.ite (fun _ => ?_) (fun _ => ?_)
    · refine Only.via (State.countFurther_only _ _) rfl ?_
      exact Only.refl _ _
    · refine Only.via (State.haltBy_only _ _) rfl ?_
      exact Only.refl _ _

theorem execHaltRecordWritten_only : ∀ s z, Only [.hlt, .nvm, .nvs] s (runRow (execHaltRecordWritten s) z) := by
  intro s z
  unfold execHaltRecordWritten
  rw [runRow_next]
  refine Only.via (State.recordHalt_only _) rfl ?_
  exact Only.refl _ _

theorem execHaltedStateRequest_only : ∀ a0 s z, Only [.out] s (runRow (execHaltedStateRequest a0 s) z) := by
  intro a0 s z
  unfold execHaltedStateRequest
  rw [runRow_next]
  refine Only.ite (fun _ => ?_) (fun _ => ?_)
  · exact Only.refl _ _
  · split
    · rename_i y1 y2 y3 y4
      refine Only.via (State.emit_only _ _) rfl ?_
      exact Only.refl _ _
    · rename_i y5 y6 y7
      exact Only.refl _ _
    · rename_i y8 y9 y10 y11
      refine Only.via (State.emit_only _ _) rfl ?_
      exact Only.refl _ _
    · rename_i y12 y13 y14 y15
      refine Only.via (State.emit_only _ _) rfl ?_
      exact Only.refl _ _
    · rename_i y16 y17
      exact Only.refl _ _
    · rename_i y18 y19
      refine Only.via (State.emit_only _ _) rfl ?_
      exact Only.refl _ _

theorem State.adoptRegs_only : ∀ s a1 a2, Only [.liveSet] s (State.adoptRegs s a1 a2) := by
  intro s a1 a2
  unfold State.adoptRegs
  refine Only.via (Only.set_liveSet _ _) rfl ?_
  exact Only.refl _ _

theorem State.epochDone_only : ∀ s, Only [.out, .epoch, .log, .nvm, .nvs, .fn] s (State.epochDone s) := by
  intro s
  unfold State.epochDone
  refine Only.ite (fun _ => ?_) (fun _ => ?_)
  · refine Only.via (State.note_only _ _ _) rfl ?_
    refine Only.via (State.postOwn_only _ _ _ _) rfl ?_
    refine Only.via (Only.set_epoch _ _) rfl ?_
    exact Only.refl _ _
  · exact Only.refl _ _

theorem State.commitEpoch_only : ∀ s a1, Only [.out, .nextSet, .prevSet, .epoch, .log, .nvm, .nvs, .fn] s (State.commitEpoch s a1) := by
  intro s a1
  unfold State.commitEpoch
  refine Only.ite (fun _ => ?_) (fun _ => ?_)
  · refine Only.via (State.note_only _ _ _) rfl ?_
    refine Only.via (Only.set_epoch _ _) rfl ?_
    exact Only.refl _ _
  · refine Only.via (Only.set_nextSet_prevSet_epoch _ _ _ _) rfl ?_
    exact Only.refl _ _

theorem execEpochCommit_only : ∀ a0 s z, Only [.out, .nextSet, .prevSet, .epoch, .log, .nvm, .nvs, .fn] s (runRow (execEpochCommit a0 s) z) := by
  intro a0 s z
  unfold execEpochCommit
  rw [runRow_next]
  refine Only.whenServing (fun t1 h2 => ?_) ?_
  · refine Only.via (State.commitEpoch_only _ _) rfl ?_
    exact h2
  · exact Only.refl _ _

theorem execEpochAdoptionTimeout_only : ∀ s z, Only [.out, .epoch, .log, .nvm, .nvs, .fn] s (runRow (execEpochAdoptionTimeout s) z) := by
  intro s z
  unfold execEpochAdoptionTimeout
  rw [runRow_next]
  refine Only.whenServing (fun t1 h2 => ?_) ?_
  · refine Only.ite (fun _ => ?_) (fun _ => ?_)
    · refine Only.via (State.note_only _ _ _) rfl ?_
      refine Only.via (Only.set_epoch _ _) rfl ?_
      exact h2
    · exact h2
  · exact Only.refl _ _

theorem State.setCmd_only : ∀ s a1, Only [.cmds] s (State.setCmd s a1) := by
  intro s a1
  unfold State.setCmd
  refine Only.via (Only.set_cmds _ _) rfl ?_
  exact Only.refl _ _

theorem State.dropCmd_only : ∀ s a1, Only [.cmds] s (State.dropCmd s a1) := by
  intro s a1
  unfold State.dropCmd
  refine Only.via (Only.set_cmds _ _) rfl ?_
  exact Only.refl _ _

theorem State.unreserve_only : ∀ s a1, Only [.inst, .cmds] s (State.unreserve s a1) := by
  intro s a1
  unfold State.unreserve
  refine Only.ite (fun _ => ?_) (fun _ => ?_)
  · exact Only.refl _ _
  · refine Only.via (State.quotaSettle_only _ _) rfl ?_
    refine Only.via (State.setCmd_only _ _) rfl ?_
    refine Only.via (State.modInst_only _ _ _) rfl ?_
    exact Only.refl _ _

theorem State.rateAdd_only : ∀ s a1 a2, Only [.rate] s (State.rateAdd s a1 a2) := by
  intro s a1 a2
  unfold State.rateAdd
  refine Only.ite (fun _ => ?_) (fun _ => ?_)
  · refine Only.via (Only.set_rate _ _) rfl ?_
    exact Only.refl _ _
  · exact Only.refl _ _

theorem State.windowDone_only : ∀ s a1 a2 a3 a4 a5, Only [.inst] s (State.windowDone s a1 a2 a3 a4 a5) := by
  intro s a1 a2 a3 a4 a5
  unfold State.windowDone
  refine Only.via (State.modInst_only _ _ _) rfl ?_
  exact Only.refl _ _

theorem State.complete_only : ∀ s a1 a2 a3 a4, Only [.out, .log, .nvm, .nvs, .inst, .fn, .cmds, .due, .rate] s (State.complete s a1 a2 a3 a4) := by
  intro s a1 a2 a3 a4
  unfold State.complete
  extract_lets x1 x2 x3 x4 x5
  refine Only.cut (t := x2) ?_ (fun h6 => ?_)
  · unfold x2
    refine Only.via (State.unreserve_only _ _) rfl ?_
    exact Only.refl _ _
  refine Only.cut (t := x3) ?_ (fun h7 => ?_)
  · unfold x3
    refine Only.via (State.count_only _ _ _) rfl ?_
    exact h6
  refine Only.cut (t := x4) ?_ (fun h8 => ?_)
  · unfold x4
    refine Only.via (State.setCmd_only _ _) rfl ?_
    exact h7
  refine Only.cut (t := x5) ?_ (fun h9 => ?_)
  · unfold x5
    refine Only.via (Only.set_due _ _) rfl ?_
    exact h8
  refine Only.ite (fun _ => ?_) (fun _ => ?_)
  · refine Only.via (State.dropCmd_only _ _) rfl ?_
    exact h6
  · refine Only.ite (fun _ => ?_) (fun _ => ?_)
    · refine Only.ite (fun _ => ?_) (fun _ => ?_)
      · refine Only.via (State.rateAdd_only _ _ _) rfl ?_
        exact h9
      · exact h9
    · refine Only.via (State.logEv_only _ _ _ _) rfl ?_
      exact h9

theorem Only.manage {l : List StateField} {s X : State} {c : Cmd} {g : State → State} (hg : ∀ t, Only l s t → Only l s (g t))
    (hl : StateField.within [.out, .log, .nvm, .nvs, .inst, .fn, .cmds, .due, .rate] l = true) (h : Only l s X) :
    Only l s (X.manage c g) := by
  unfold State.manage
  split
  · split
    · exact Only.via (State.complete_only _ _ _ _ _) hl h
    · exact hg X h
  · exact h

theorem State.completeFlushed_only : ∀ s a1 a2, Only [.cmds] s (State.completeFlushed s a1 a2) := by
  intro s a1 a2
  unfold State.completeFlushed
  refine Only.via (State.setCmd_only _ _) rfl ?_
  exact Only.refl _ _

theorem State.pushCmd_only : ∀ s a1, Only [.cmds, .nextCmd, .clk] s (State.pushCmd s a1) := by
  intro s a1
  unfold State.pushCmd
  refine Only.via (Only.set_cmds_nextCmd_clk _ _ _ _) rfl ?_
  exact Only.refl _ _

theorem State.returnDup_only : ∀ s a1 a2 a3 a4, Only [.cmds, .nextCmd, .due, .clk] s (State.returnDup s a1 a2 a3 a4) := by
  intro s a1 a2 a3 a4
  unfold State.returnDup
  extract_lets x1
  refine Only.cut (t := x1) ?_ (fun h2 => ?_)
  · unfold x1
    refine Only.via (State.pushCmd_only _ _) rfl ?_
    exact Only.refl _ _
  refine Only.via (Only.set_due _ _) rfl ?_
  exact h2

theorem State.beginRefusal_only : ∀ s a1, Only [.inst] s (State.beginRefusal s a1) := by
  intro s a1
  unfold State.beginRefusal
  refine Only.ite (fun _ => ?_) (fun _ => ?_)
  · exact Only.refl _ _
  · refine Only.via (State.modInst_only _ _ _) rfl ?_
    exact Only.refl _ _

theorem State.accept_only : ∀ s a1 a2 a3 a4, Only [.out, .log, .nvm, .nvs, .inst, .fn, .cmds, .nextCmd, .due, .clk, .rate] s (State.accept s a1 a2 a3 a4) := by
  intro s a1 a2 a3 a4
  unfold State.accept
  extract_lets x1 x2 x3 x4 x5 x6 x7
  refine Only.cut (t := x5) ?_ (fun h8 => ?_)
  · unfold x5
    refine Only.via (State.modInst_only _ _ _) rfl ?_
    exact Only.refl _ _
  refine Only.cut (t := x7) ?_ (fun h9 => ?_)
  · unfold x7
    refine Only.via (State.ctrInc_only _ _) rfl ?_
    refine Only.via (State.rateAdd_only _ _ _) rfl ?_
    exact h8
  split
  · rename_i y10 y11 y12
    split
    · rename_i y13 y14 y15 y16 y17
      refine Only.via (State.returnDup_only _ _ _ _ _) rfl ?_
      exact Only.refl _ _
    · rename_i y18 y19
      refine Only.via (Only.set_nextCmd_due _ _ _) rfl ?_
      exact Only.refl _ _
  · rename_i y20 y21
    split
    · rename_i y22 y23 y24
      refine Only.via (State.returnDup_only _ _ _ _ _) rfl ?_
      exact Only.refl _ _
    · rename_i y25 y26
      split
      · rename_i y27 y28 y29 y30
        extract_lets x31
        refine Only.cut (t := x31) ?_ (fun h32 => ?_)
        · unfold x31
          refine Only.ite (fun _ => ?_) (fun _ => ?_)
          · refine Only.via (State.beginRefusal_only _ _) rfl ?_
            exact h8
          · exact h8
        refine Only.via (State.complete_only _ _ _ _ _) rfl ?_
        refine Only.via (State.pushCmd_only _ _) rfl ?_
        exact h32
      · rename_i y33 y34
        refine Only.ite (fun _ => ?_) (fun _ => ?_)
        · refine Only.via (State.pushCmd_only _ _) rfl ?_
          exact h9
        · refine Only.via (State.pushCmd_only _ _) rfl ?_
          refine Only.via (State.modInst_only _ _ _) rfl ?_
          exact h8

theorem State.issueRead_only : ∀ s a1 a2 a3 a4 a5, Only [.out, .reads, .nextTag] s (State.issueRead s a1 a2 a3 a4 a5) := by
  intro s a1 a2 a3 a4 a5
  unfold State.issueRead
  refine Only.ite (fun _ => ?_) (fun _ => ?_)
  · exact Only.refl _ _
  · extract_lets x1
    refine Only.via (State.emit_only _ _) rfl ?_
    refine Only.via (Only.set_reads_nextTag _ _ _) rfl ?_
    exact Only.refl _ _

theorem State.pumpCmd_only : ∀ s a1, Only [.out, .reads, .nextTag] s (State.pumpCmd s a1) := by
  intro s a1
  unfold State.pumpCmd
  refine Only.ite (fun _ => ?_) (fun _ => ?_)
  · exact Only.refl _ _
  · refine Only.ite (fun _ => ?_) (fun _ => ?_)
    · refine Only.via (State.issueRead_only _ _ _ _ _ _) rfl ?_
      exact Only.refl _ _
    · refine Only.ite (fun _ => ?_) (fun _ => ?_)
      · split
        · rename_i y1 y2 y3 y4 y5 y6 y7
          refine Only.via (State.issueRead_only _ _ _ _ _ _) rfl ?_
          exact Only.refl _ _
        · rename_i y8 y9 y10 y11 y12
          exact Only.refl _ _
      · exact Only.refl _ _

theorem State.pumpEntry_only : ∀ s a1, Only [.out, .reads, .nextTag, .lastFn] s (State.pumpEntry s a1) := by
  intro s a1
  unfold State.pumpEntry
  refine Only.ite (fun _ => ?_) (fun _ => ?_)
  · exact Only.refl _ _
  · split
    · rename_i y1 y2 y3 y4
      refine Only.via (State.issueRead_only _ _ _ _ _ _) rfl ?_
      refine Only.via (Only.set_lastFn _ _) rfl ?_
      exact Only.refl _ _
    · rename_i y5 y6 y7
      exact Only.refl _ _

theorem State.pumpLeaf_only : ∀ s a1, Only [.out, .reads, .nextTag, .mch] s (State.pumpLeaf s a1) := by
  intro s a1
  unfold State.pumpLeaf
  refine Only.ite (fun _ => ?_) (fun _ => ?_)
  · exact Only.refl _ _
  · refine Only.ite (fun _ => ?_) (fun _ => ?_)
    · refine Only.ite (fun _ => ?_) (fun _ => ?_)
      · refine Only.ite (fun _ => ?_) (fun _ => ?_)
        · refine Only.via (State.issueRead_only _ _ _ _ _ _) rfl ?_
          refine Only.via (State.cleanLine_only _ _) rfl ?_
          exact Only.refl _ _
        · exact Only.refl _ _
      · refine Only.via (State.issueRead_only _ _ _ _ _ _) rfl ?_
        exact Only.refl _ _
    · refine Only.via (State.issueRead_only _ _ _ _ _ _) rfl ?_
      exact Only.refl _ _

theorem State.pumpWord_only : ∀ s a1, Only [.out, .fn] s (State.pumpWord s a1) := by
  intro s a1
  unfold State.pumpWord
  extract_lets x1
  refine Only.ite (fun _ => ?_) (fun _ => ?_)
  · refine Only.via (State.emit_only _ _) rfl ?_
    refine Only.via (State.modFn_only _ _ _) rfl ?_
    exact Only.refl _ _
  · exact Only.refl _ _

theorem State.reportLatency_only : ∀ s, Only [.out, .link] s (State.reportLatency s) := by
  intro s
  unfold State.reportLatency
  refine Only.ite (fun _ => ?_) (fun _ => ?_)
  · refine Only.via (State.emit_only _ _) rfl ?_
    refine Only.via (Only.set_link _ _) rfl ?_
    exact Only.refl _ _
  · exact Only.refl _ _

theorem State.pump_only : ∀ s, Only [.out, .link, .fn, .reads, .nextTag, .lastFn, .mch] s (State.pump s) := by
  intro s
  unfold State.pump
  refine Only.via (State.reportLatency_only _) rfl ?_
  refine Only.forEach (fun a1 t2 h3 => ?_) ?_
  · refine Only.via (State.pumpLeaf_only _ _) rfl ?_
    exact h3
  · refine Only.forEach (fun a4 t5 h6 => ?_) ?_
    · refine Only.via (State.pumpEntry_only _ _) rfl ?_
      exact h6
    · refine Only.forEach (fun a7 t8 h9 => ?_) ?_
      · refine Only.via (State.pumpCmd_only _ _) rfl ?_
        exact h9
      · refine Only.forEach (fun a10 t11 h12 => ?_) ?_
        · refine Only.via (State.pumpWord_only _ _) rfl ?_
          exact h12
        · exact Only.refl _ _

theorem State.writeRun_only : ∀ s a1 a2 a3 a4, Only [.out] s (State.writeRun s a1 a2 a3 a4) := by
  intro s a1 a2 a3 a4
  unfold State.writeRun
  extract_lets x1
  refine Only.foldlSnd (fun t3 a2 h4 => ?_) ?_
  · refine Only.via (State.emit_only _ _) rfl ?_
    exact h4
  · exact Only.refl _ _

theorem State.writeOut_only : ∀ s a1 a2, Only [.out] s (State.writeOut s a1 a2) := by
  intro s a1 a2
  unfold State.writeOut
  refine Only.foldlSnd (fun t2 a1 h3 => ?_) ?_
  · refine Only.via (State.writeRun_only _ _ _ _ _) rfl ?_
    exact h3
  · exact Only.refl _ _

theorem State.cmdData_only : ∀ s a1 a2, Only [.out, .log, .nvm, .nvs, .inst, .fn, .cmds, .due, .rate] s (State.cmdData s a1 a2) := by
  intro s a1 a2
  unfold State.cmdData
  refine Only.ite (fun _ => ?_) (fun _ => ?_)
  · extract_lets x1 x2
    refine Only.ite (fun _ => ?_) (fun _ => ?_)
    · refine Only.via (State.setCmd_only _ _) rfl ?_
      exact Only.refl _ _
    · split
      · rename_i y3 y4 y5 y6 y7 y8
        refine Only.via (State.complete_only _ _ _ _ _) rfl ?_
        exact Only.refl _ _
      · rename_i y9 y10 y11 y12 y13
        refine Only.ite (fun _ => ?_) (fun _ => ?_)
        · refine Only.via (State.setCmd_only _ _) rfl ?_
          exact Only.refl _ _
        · refine Only.via (State.complete_only _ _ _ _ _) rfl ?_
          exact Only.refl _ _
  · refine Only.via (State.setCmd_only _ _) rfl ?_
    exact Only.refl _ _

theorem execCommandStart_only : ∀ a0 s z, Only [.out, .link, .fn, .cmds, .reads, .nextTag, .lastFn, .mch] s (runRow (execCommandStart a0 s) z) := by
  intro a0 s z
  unfold execCommandStart
  rw [runRow_next]
  refine Only.whenServing (fun t1 h2 => ?_) ?_
  · split
    · rename_i y3 y4 y5
      refine Only.ite (fun _ => ?_) (fun _ => ?_)
      · refine Only.via (State.pump_only _) rfl ?_
        refine Only.via (State.setCmd_only _ _) rfl ?_
        exact h2
      · exact h2
    · rename_i y6 y7
      exact h2
  · exact Only.refl _ _

theorem State.storeReg_only : ∀ s a1 a2, Only [.out, .regs, .log, .nvm, .nvs, .fn] s (State.storeReg s a1 a2) := by
  intro s a1 a2
  unfold State.storeReg
  split
  · rename_i y1 y2 y3
    extract_lets x4 x5
    refine Only.cut (t := x4) ?_ (fun h6 => ?_)
    · unfold x4
      refine Only.via (State.setReg_only _ _ _) rfl ?_
      exact Only.refl _ _
    refine Only.cut (t := x5) ?_ (fun h7 => ?_)
    · unfold x5
      refine Only.ite (fun _ => ?_) (fun _ => ?_)
      · refine Only.via (State.note_only _ _ _) rfl ?_
        exact h6
      · exact h6
    refine Only.ite (fun _ => ?_) (fun _ => ?_)
    · refine Only.via (State.note_only _ _ _) rfl ?_
      exact h7
    · exact h7
  · rename_i y8 y9
    exact Only.refl _ _

theorem State.noteRsv_only : ∀ s a1 a2, Only [.out, .log, .nvm, .nvs, .fn] s (State.noteRsv s a1 a2) := by
  intro s a1 a2
  unfold State.noteRsv
  split
  · rename_i y1 y2 y3
    refine Only.ite (fun _ => ?_) (fun _ => ?_)
    · refine Only.via (State.note_only _ _ _) rfl ?_
      exact Only.refl _ _
    · exact Only.refl _ _
  · rename_i y4 y5
    exact Only.refl _ _

end Sys2Proof.Machine
end

