-- ==== Sys2Proof/Laws/FrameSecurity.lean ====
section
/-! SUPPORT. The frames of link security, sealing, lookup, the map cache, the rings, the mailbox, instances and the settings store: the fields of State that each function can write. -/

namespace Sys2Proof.Machine

theorem State.doeAnswer_only : ∀ s a1, Only [.out, .fn] s (State.doeAnswer s a1) := by
  intro s a1
  unfold State.doeAnswer
  extract_lets x1
  refine Only.cut (t := x1) ?_ (fun h2 => ?_)
  · unfold x1
    refine Only.via (State.emit_only _ _) rfl ?_
    exact Only.refl _ _
  refine Only.ite (fun _ => ?_) (fun _ => ?_)
  · refine Only.via (State.raise_only _ _ _) rfl ?_
    exact h2
  · exact h2

theorem State.spdm_only : ∀ s a1 a2, Only [.out, .log, .nvm, .nvs, .sec, .fn] s (State.spdm s a1 a2) := by
  intro s a1 a2
  unfold State.spdm
  extract_lets x1 x2 x3 x4
  split
  · rename_i y5
    refine Only.via (State.doeAnswer_only _ _) rfl ?_
    exact Only.refl _ _
  · rename_i y6 y7
    refine Only.ite (fun _ => ?_) (fun _ => ?_)
    · refine Only.via (State.doeAnswer_only _ _) rfl ?_
      refine Only.via (Only.set_sec _ _) rfl ?_
      exact Only.refl _ _
    · unfold x2
      refine Only.via (State.doeAnswer_only _ _) rfl ?_
      exact Only.refl _ _
  · rename_i y8
    refine Only.via (State.doeAnswer_only _ _) rfl ?_
    exact Only.refl _ _
  · rename_i y9
    unfold x1
    refine Only.via (State.doeAnswer_only _ _) rfl ?_
    exact Only.refl _ _
  · rename_i y10 y11
    refine Only.via (State.doeAnswer_only _ _) rfl ?_
    exact Only.refl _ _
  · rename_i y12 y13
    refine Only.ite (fun _ => ?_) (fun _ => ?_)
    · unfold x1
      refine Only.via (State.doeAnswer_only _ _) rfl ?_
      exact Only.refl _ _
    · unfold x2
      refine Only.via (State.doeAnswer_only _ _) rfl ?_
      exact Only.refl _ _
  · rename_i y14 y15
    refine Only.ite (fun _ => ?_) (fun _ => ?_)
    · unfold x1
      refine Only.via (State.doeAnswer_only _ _) rfl ?_
      exact Only.refl _ _
    · unfold x2
      refine Only.via (State.doeAnswer_only _ _) rfl ?_
      exact Only.refl _ _
  · rename_i y16 y17
    split
    · rename_i y18 y19 y20
      refine Only.via (State.doeAnswer_only _ _) rfl ?_
      exact Only.refl _ _
    · rename_i y21 y22
      unfold x2
      refine Only.via (State.doeAnswer_only _ _) rfl ?_
      exact Only.refl _ _
  · rename_i y23
    split
    · rename_i y24 y25 y26
      unfold x1
      refine Only.via (State.doeAnswer_only _ _) rfl ?_
      refine Only.via (Only.set_sec _ _) rfl ?_
      exact Only.refl _ _
    · rename_i y27 y28
      unfold x2
      refine Only.via (State.doeAnswer_only _ _) rfl ?_
      exact Only.refl _ _
  · rename_i y29 y30 y31
    refine Only.ite (fun _ => ?_) (fun _ => ?_)
    · unfold x1
      refine Only.via (State.doeAnswer_only _ _) rfl ?_
      refine Only.via (Only.set_sec _ _) rfl ?_
      exact Only.refl _ _
    · unfold x2
      refine Only.via (State.doeAnswer_only _ _) rfl ?_
      unfold x3
      refine Only.via (Only.set_sec _ _) rfl ?_
      exact Only.refl _ _
  · rename_i y32 y33
    refine Only.ite (fun _ => ?_) (fun _ => ?_)
    · unfold x1
      refine Only.via (State.doeAnswer_only _ _) rfl ?_
      exact Only.refl _ _
    · unfold x2
      refine Only.via (State.doeAnswer_only _ _) rfl ?_
      exact Only.refl _ _
  · rename_i y34 y35
    refine Only.ite (fun _ => ?_) (fun _ => ?_)
    · unfold x3
      refine Only.via (Only.set_sec _ _) rfl ?_
      unfold x1
      refine Only.via (State.doeAnswer_only _ _) rfl ?_
      exact Only.refl _ _
    · unfold x2
      refine Only.via (State.doeAnswer_only _ _) rfl ?_
      exact Only.refl _ _
  · rename_i y36
    refine Only.ite (fun _ => ?_) (fun _ => ?_)
    · refine Only.via (State.doeAnswer_only _ _) rfl ?_
      exact Only.refl _ _
    · refine Only.via (State.note_only _ _ _) rfl ?_
      exact Only.refl _ _
  · rename_i y37 y38
    refine Only.via (State.doeAnswer_only _ _) rfl ?_
    exact Only.refl _ _

theorem execSpdmRequest_only : ∀ a0 a1 a2 s z, Only [.out, .log, .nvm, .nvs, .sec, .fn, .clk] s (runRow (execSpdmRequest a0 a1 a2 s) z) := by
  intro a0 a1 a2 s z
  unfold execSpdmRequest
  rw [runRow_next]
  refine Only.ite (fun _ => ?_) (fun _ => ?_)
  · refine Only.ite (fun _ => ?_) (fun _ => ?_)
    · extract_lets x1 x2
      refine Only.cut (t := x1) ?_ (fun h3 => ?_)
      · unfold x1
        refine Only.via (State.wakeUp_only _) rfl ?_
        exact Only.refl _ _
      refine Only.via (Only.set_sec _ _) rfl ?_
      exact h3
    · refine Only.via (State.spdm_only _ _ _) rfl ?_
      refine Only.via (State.wakeUp_only _) rfl ?_
      exact Only.refl _ _
  · exact Only.refl _ _

theorem execDoeAbort_only : ∀ s z, Only [.sec, .clk] s (runRow (execDoeAbort s) z) := by
  intro s z
  unfold execDoeAbort
  rw [runRow_next]
  refine Only.ite (fun _ => ?_) (fun _ => ?_)
  · extract_lets x1 x2
    refine Only.cut (t := x1) ?_ (fun h3 => ?_)
    · unfold x1
      refine Only.via (State.wakeUp_only _) rfl ?_
      exact Only.refl _ _
    refine Only.via (Only.set_sec _ _) rfl ?_
    exact h3
  · exact Only.refl _ _

theorem State.modDir_only : ∀ s a1 a2, Only [.sec] s (State.modDir s a1 a2) := by
  intro s a1 a2
  unfold State.modDir
  refine Only.via (Only.set_sec _ _) rfl ?_
  exact Only.refl _ _

theorem State.resume_only : ∀ s, Only [.out, .log, .nvm, .nvs, .link, .sec, .fn, .reads, .nextTag, .lastFn, .fss, .mch] s (State.resume s) := by
  intro s
  unfold State.resume
  refine Only.via (State.pump_only _) rfl ?_
  refine Only.via (State.finishWays_only _) rfl ?_
  refine Only.forEach (fun a1 t2 h3 => ?_) ?_
  · refine Only.via (State.releasePending_only _ _) rfl ?_
    exact h3
  · refine Only.via (State.flushCpl_only _) rfl ?_
    exact Only.refl _ _

theorem State.settleStream_only : ∀ s, Only [.out, .log, .nvm, .nvs, .link, .sec, .fn, .reads, .nextTag, .lastFn, .fss, .mch] s (State.settleStream s) := by
  intro s
  unfold State.settleStream
  refine Only.ite (fun _ => ?_) (fun _ => ?_)
  · extract_lets x1 x2
    refine Only.cut (t := x2) ?_ (fun h3 => ?_)
    · unfold x2
      refine Only.via (Only.set_sec _ _) rfl ?_
      exact Only.refl _ _
    refine Only.via (State.resume_only _) rfl ?_
    exact h3
  · exact Only.refl _ _

theorem execQuery_only : ∀ a0 s z, Only [.out, .fn] s (runRow (execQuery a0 s) z) := by
  intro a0 s z
  unfold execQuery
  rw [runRow_next]
  refine Only.ideKm (fun t1 h2 => ?_) ?_
  · refine Only.via (State.doeAnswer_only _ _) rfl ?_
    exact h2
  · exact Only.refl _ _

theorem execKeyProg_only : ∀ a0 a1 a2 a3 a4 s z, Only [.out, .sec, .fn] s (runRow (execKeyProg a0 a1 a2 a3 a4 s) z) := by
  intro a0 a1 a2 a3 a4 s z
  unfold execKeyProg
  rw [runRow_next]
  refine Only.ideKm (fun t1 h2 => ?_) ?_
  · refine Only.via (State.doeAnswer_only _ _) rfl ?_
    refine Only.via (State.modDir_only _ _ _) rfl ?_
    exact h2
  · exact Only.refl _ _

theorem execKSetGo_only : ∀ a0 a1 a2 a3 s z, Only [.out, .log, .nvm, .nvs, .link, .sec, .fn, .reads, .nextTag, .lastFn, .fss, .mch] s (runRow (execKSetGo a0 a1 a2 a3 s) z) := by
  intro a0 a1 a2 a3 s z
  unfold execKSetGo
  rw [runRow_next]
  refine Only.ideKm (fun t1 h2 => ?_) ?_
  · extract_lets x3 x4
    refine Only.cut (t := x4) ?_ (fun h5 => ?_)
    · unfold x4
      refine Only.via (State.modDir_only _ _ _) rfl ?_
      exact h2
    refine Only.ite (fun _ => ?_) (fun _ => ?_)
    · refine Only.via (State.resume_only _) rfl ?_
      refine Only.via (State.settleStream_only _) rfl ?_
      refine Only.via (State.doeAnswer_only _ _) rfl ?_
      exact h5
    · refine Only.via (State.doeAnswer_only _ _) rfl ?_
      exact h2
  · exact Only.refl _ _

theorem execKSetStop_only : ∀ a0 a1 a2 s z, Only [.out, .sec, .fn] s (runRow (execKSetStop a0 a1 a2 s) z) := by
  intro a0 a1 a2 s z
  unfold execKSetStop
  rw [runRow_next]
  refine Only.ideKm (fun t1 h2 => ?_) ?_
  · refine Only.via (State.doeAnswer_only _ _) rfl ?_
    refine Only.via (State.modDir_only _ _ _) rfl ?_
    exact h2
  · exact Only.refl _ _

theorem execIdeTlpReceived_only : ∀ a0 a1 a2 s z, Only [.tm, .hlt, .nvm, .nvs, .sec, .inst, .cmds, .oldOps, .due, .reads, .fss, .sea, .fetches, .drives, .pwb, .cal, .mon] s (runRow (execIdeTlpReceived a0 a1 a2 s) z) := by
  intro a0 a1 a2 s z
  unfold execIdeTlpReceived
  rw [runRow_next]
  refine Only.ite (fun _ => ?_) (fun _ => ?_)
  · split
    · rename_i y1 y2 y3 y4
      refine Only.via (State.haltBy_only _ _) rfl ?_
      exact Only.refl _ _
    · rename_i y5 y6 y7
      exact Only.refl _ _
  · exact Only.refl _ _

theorem execIdeTxCounterLimit_only : ∀ a0 s z, Only [.out, .log, .nvm, .nvs, .sec, .fn] s (runRow (execIdeTxCounterLimit a0 s) z) := by
  intro a0 s z
  unfold execIdeTxCounterLimit
  rw [runRow_next]
  refine Only.whenServing (fun t1 h2 => ?_) ?_
  · refine Only.ite (fun _ => ?_) (fun _ => ?_)
    · refine Only.via (State.note_only _ _ _) rfl ?_
      refine Only.via (State.modDir_only _ _ _) rfl ?_
      exact h2
    · exact h2
  · exact Only.refl _ _

theorem execHstCntClr_only : ∀ a0 s z, Only [.out, .log, .nvm, .nvs, .link, .fn] s (runRow (execHstCntClr a0 s) z) := by
  intro a0 s z
  unfold execHstCntClr
  rw [runRow_next]
  refine Only.ite (fun _ => ?_) (fun _ => ?_)
  · extract_lets x1 x2
    refine Only.cut (t := x1) ?_ (fun h3 => ?_)
    · unfold x1
      refine Only.via (State.noteRsv_only _ _ _) rfl ?_
      exact Only.refl _ _
    refine Only.ite (fun _ => ?_) (fun _ => ?_)
    · refine Only.via (Only.set_link _ _) rfl ?_
      exact h3
    · exact h3
  · exact Only.refl _ _

theorem State.drawOne_only : ∀ s, Only [.sea] s (State.drawOne s) := by
  intro s
  unfold State.drawOne
  refine Only.via (Only.set_sea _ _) rfl ?_
  exact Only.refl _ _

theorem State.draw_only : ∀ s, Only [.free, .sea] s (State.draw s).2 := by
  intro s
  unfold State.draw
  refine Only.via (State.drawOne_only _) rfl ?_
  refine Only.via (State.useFree_only _) rfl ?_
  exact Only.refl _ _

theorem State.drawLineKeys_only : ∀ s, Only [.free, .sea] s (State.drawLineKeys s) := by
  intro s
  unfold State.drawLineKeys
  split
  rename_i y1 y2 y3 y4
  split
  rename_i y5 y6 y7 y8
  split
  rename_i y9 y10 y11 y12
  split
  rename_i y13 y14 y15 y16
  split
  rename_i y17 y18 y19 y20
  split
  rename_i y21 y22 y23 y24
  refine Only.via (Only.set_sea _ _) rfl ?_
  refine Only.ofPair y24 ?_
  refine Only.via (State.draw_only _) rfl ?_
  refine Only.ofPair y20 ?_
  refine Only.via (State.draw_only _) rfl ?_
  refine Only.ofPair y16 ?_
  refine Only.via (State.draw_only _) rfl ?_
  refine Only.ofPair y12 ?_
  refine Only.via (State.draw_only _) rfl ?_
  refine Only.ofPair y8 ?_
  refine Only.via (State.draw_only _) rfl ?_
  refine Only.ofPair y4 ?_
  refine Only.via (State.draw_only _) rfl ?_
  exact Only.refl _ _

theorem State.rcRefuse_only : ∀ s a1 a2, Only [.out, .log, .nvm, .nvs, .fn, .sea] s (State.rcRefuse s a1 a2) := by
  intro s a1 a2
  unfold State.rcRefuse
  extract_lets x1 x2 x3
  refine Only.cut (t := x2) ?_ (fun h4 => ?_)
  · unfold x2
    refine Only.via (Only.set_sea _ _) rfl ?_
    exact Only.refl _ _
  split
  · rename_i y5 y6 y7
    refine Only.ite (fun _ => ?_) (fun _ => ?_)
    · exact h4
    · refine Only.via (State.note_only _ _ _) rfl ?_
      refine Only.via (Only.set_sea _ _) rfl ?_
      exact h4
  · rename_i y8 y9
    refine Only.via (State.note_only _ _ _) rfl ?_
    refine Only.via (Only.set_sea _ _) rfl ?_
    exact h4

theorem execSelftestPeriod_only : ∀ a0 s z, Only [.tm, .hlt, .nvm, .nvs, .sec, .inst, .cmds, .oldOps, .due, .reads, .fss, .sea, .fetches, .drives, .pwb, .cal, .mon] s (runRow (execSelftestPeriod a0 s) z) := by
  intro a0 s z
  unfold execSelftestPeriod
  rw [runRow_next]
  refine Only.whenRunning (fun t1 h2 => ?_) ?_
  · refine Only.ite (fun _ => ?_) (fun _ => ?_)
    · exact h2
    · extract_lets x3 x4 x5
      refine Only.cut (t := x4) ?_ (fun h6 => ?_)
      · unfold x4
        refine Only.via (Only.set_sea _ _) rfl ?_
        exact h2
      split
      · rename_i y7 y8 y9
        refine Only.via (State.haltBy_only _ _) rfl ?_
        refine Only.via (Only.set_sea _ _) rfl ?_
        exact h6
      · rename_i y10 y11
        exact h6
  · exact Only.refl _ _

theorem execDrbgReseed_only : ∀ s z, Only [.sea] s (runRow (execDrbgReseed s) z) := by
  intro s z
  unfold execDrbgReseed
  rw [runRow_next]
  refine Only.whenRunning (fun t1 h2 => ?_) ?_
  · refine Only.ite (fun _ => ?_) (fun _ => ?_)
    · refine Only.via (Only.set_sea _ _) rfl ?_
      exact h2
    · exact h2
  · exact Only.refl _ _

theorem execEntropyHealthFail_only : ∀ s z, Only [.out, .log, .nvm, .nvs, .fn, .sea] s (runRow (execEntropyHealthFail s) z) := by
  intro s z
  unfold execEntropyHealthFail
  rw [runRow_next]
  refine Only.whenRunning (fun t1 h2 => ?_) ?_
  · refine Only.ite (fun _ => ?_) (fun _ => ?_)
    · refine Only.via (State.note_only _ _ _) rfl ?_
      refine Only.via (Only.set_sea _ _) rfl ?_
      exact h2
    · exact h2
  · exact Only.refl _ _

theorem execEntropyHealthRecovery_only : ∀ s z, Only [.out, .log, .nvm, .nvs, .fn, .sea] s (runRow (execEntropyHealthRecovery s) z) := by
  intro s z
  unfold execEntropyHealthRecovery
  rw [runRow_next]
  refine Only.whenRunning (fun t1 h2 => ?_) ?_
  · refine Only.ite (fun _ => ?_) (fun _ => ?_)
    · exact h2
    · refine Only.via (State.note_only _ _ _) rfl ?_
      refine Only.via (Only.set_sea _ _) rfl ?_
      exact h2
  · exact Only.refl _ _

theorem State.setQuar_only : ∀ s a1, Only [.nvm, .nvs, .sea] s (State.setQuar s a1) := by
  intro s a1
  unfold State.setQuar
  refine Only.via (State.nvmWrite_only _ _ _) rfl ?_
  refine Only.via (State.nvmWrite_only _ _ _) rfl ?_
  refine Only.via (Only.set_sea _ _) rfl ?_
  exact Only.refl _ _

theorem execQuarClr_only : ∀ a0 s z, Only [.out, .log, .nvm, .nvs, .fn, .sea] s (runRow (execQuarClr a0 s) z) := by
  intro a0 s z
  unfold execQuarClr
  rw [runRow_next]
  refine Only.hostBar2 (fun t1 h2 => ?_) ?_
  · refine Only.ite (fun _ => ?_) (fun _ => ?_)
    · refine Only.via (State.note_only _ _ _) rfl ?_
      refine Only.via (State.setQuar_only _ _) rfl ?_
      exact h2
    · exact h2
  · exact Only.refl _ _

theorem State.quarantine_only : ∀ s a1, Only [.nvm, .nvs, .sea] s (State.quarantine s a1) := by
  intro s a1
  unfold State.quarantine
  refine Only.via (State.setQuar_only _ _) rfl ?_
  exact Only.refl _ _

theorem State.countHit_only : ∀ s, Only [.mch] s (State.countHit s) := by
  intro s
  unfold State.countHit
  refine Only.via (Only.set_mch _ _) rfl ?_
  exact Only.refl _ _

theorem State.countMiss_only : ∀ s, Only [.mch] s (State.countMiss s) := by
  intro s
  unfold State.countMiss
  refine Only.via (Only.set_mch _ _) rfl ?_
  exact Only.refl _ _

theorem State.addFetch_only : ∀ s a1 a2, Only [.fetches] s (State.addFetch s a1 a2) := by
  intro s a1 a2
  unfold State.addFetch
  refine Only.ite (fun _ => ?_) (fun _ => ?_)
  · refine Only.via (Only.set_fetches _ _) rfl ?_
    exact Only.refl _ _
  · refine Only.via (Only.set_fetches _ _) rfl ?_
    exact Only.refl _ _

theorem State.lookupPool_only : ∀ s a1 a2, Only [.out, .inst, .fss, .mch, .fetches] s (State.lookupPool s a1 a2).2 := by
  intro s a1 a2
  unfold State.lookupPool
  refine Only.ite (fun _ => ?_) (fun _ => ?_)
  · exact Only.refl _ _
  · refine Only.via (State.touchLeaf_only _ _) rfl ?_
    exact Only.refl _ _

theorem State.lookupHost_only : ∀ s a1 a2 a3 a4 a5, Only [.out, .log, .nvm, .nvs, .inst, .fn, .fss, .mch, .fetches] s (State.lookupHost s a1 a2 a3 a4 a5).2 := by
  intro s a1 a2 a3 a4 a5
  unfold State.lookupHost
  extract_lets x1 x2 x3
  split
  · rename_i y4 y5
    unfold x2
    refine Only.via (State.addFetch_only _ _ _) rfl ?_
    refine Only.ite (fun _ => ?_) (fun _ => ?_)
    · refine Only.via (State.countMiss_only _) rfl ?_
      exact Only.refl _ _
    · exact Only.refl _ _
  · rename_i y6 y7 y8
    extract_lets x9 x10
    refine Only.cut (t := x10) ?_ (fun h11 => ?_)
    · unfold x10
      refine Only.via (State.parityFault_only _ _ _) rfl ?_
      exact Only.refl _ _
    split
    · rename_i y12
      split
      · rename_i y13
        unfold x2
        refine Only.via (State.addFetch_only _ _ _) rfl ?_
        refine Only.ite (fun _ => ?_) (fun _ => ?_)
        · refine Only.via (State.countMiss_only _) rfl ?_
          exact h11
        · exact h11
      · rename_i y14
        split
        rename_i y15 y16 y17 y18
        refine Only.ofPair y18 ?_
        refine Only.via (State.lookupPool_only _ _ _) rfl ?_
        exact h11
    · rename_i y19
      refine Only.via (State.countHit_only _) rfl ?_
      refine Only.via (State.touchLine_only _ _ _) rfl ?_
      exact Only.refl _ _

theorem State.lookup_only : ∀ s a1 a2 a3 a4, Only [.out, .log, .nvm, .nvs, .inst, .fn, .fss, .mch, .fetches] s (State.lookup s a1 a2 a3 a4).2 := by
  intro s a1 a2 a3 a4
  unfold State.lookup
  extract_lets x1
  split
  · rename_i y2
    refine Only.via (State.lookupHost_only _ _ _ _ _ _) rfl ?_
    exact Only.refl _ _
  · rename_i y3
    split
    rename_i y4 y5 y6 y7
    refine Only.ofPair y7 ?_
    refine Only.via (State.lookupPool_only _ _ _) rfl ?_
    exact Only.refl _ _

theorem State.lookupRun_only : ∀ a0 a1 a2 a3 a4 s, Only [.out, .log, .nvm, .nvs, .inst, .fn, .fss, .mch, .fetches] s (State.lookupRun a0 a1 a2 a3 a4 s).2 := by
  intro a0 a1 a2 a3 a4 s
  induction a3 generalizing a0 a1 a2 a4 s with
  | zero =>
    rw [State.lookupRun]
    exact Only.refl _ _
  | succ n ih =>
    rw [State.lookupRun]
    split
    rename_i y1 y2 y3 y4
    extract_lets x5
    split
    rename_i y6 y7 y8 y9
    refine Only.ofPair y9 ?_
    refine Only.via (ih _ _ _ _ _) rfl ?_
    refine Only.ofPair y4 ?_
    refine Only.via (State.lookup_only _ _ _ _ _) rfl ?_
    exact Only.refl _ _

theorem State.endRead_only : ∀ s a1, Only [.out, .log, .nvm, .nvs, .inst, .fn, .cmds, .due, .rate] s (State.endRead s a1) := by
  intro s a1
  unfold State.endRead
  refine Only.ite (fun _ => ?_) (fun _ => ?_)
  · extract_lets x1 x2 x3
    refine Only.cut (t := x1) ?_ (fun h4 => ?_)
    · unfold x1
      refine Only.via (State.writeOut_only _ _ _) rfl ?_
      exact Only.refl _ _
    refine Only.cut (t := x2) ?_ (fun h5 => ?_)
    · unfold x2
      refine Only.via (State.count_only _ _ _) rfl ?_
      exact h4
    split
    · rename_i y6 y7 y8 y9
      refine Only.via (State.complete_only _ _ _ _ _) rfl ?_
      exact h5
    · rename_i y10 y11 y12
      refine Only.via (State.complete_only _ _ _ _ _) rfl ?_
      exact h5
  · exact Only.refl _ _

theorem State.endReads_only : ∀ s, Only [.out, .log, .nvm, .nvs, .inst, .fn, .cmds, .due, .rate] s (State.endReads s) := by
  intro s
  unfold State.endReads
  refine Only.forEach (fun a1 t2 h3 => ?_) ?_
  · refine Only.ite (fun _ => ?_) (fun _ => ?_)
    · refine Only.via (State.endRead_only _ _) rfl ?_
      exact h3
    · exact h3
  · exact Only.refl _ _

theorem State.mapBlocks_only : ∀ s a1 a2, Only [.cmds] s (State.mapBlocks s a1 a2) := by
  intro s a1 a2
  unfold State.mapBlocks
  refine Only.via (Only.set_cmds _ _) rfl ?_
  exact Only.refl _ _

theorem State.settleLine_only : ∀ s a1, Only [.out, .log, .nvm, .nvs, .inst, .fn, .cmds, .due, .fetches, .rate] s (State.settleLine s a1) := by
  intro s a1
  unfold State.settleLine
  extract_lets x1
  refine Only.cut (t := x1) ?_ (fun h2 => ?_)
  · unfold x1
    refine Only.via (Only.set_fetches _ _) rfl ?_
    exact Only.refl _ _
  refine Only.via (State.endReads_only _) rfl ?_
  refine Only.via (State.mapBlocks_only _ _ _) rfl ?_
  exact h2

theorem State.setFetch_only : ∀ s a1, Only [.fetches] s (State.setFetch s a1) := by
  intro s a1
  unfold State.setFetch
  refine Only.via (Only.set_fetches _ _) rfl ?_
  exact Only.refl _ _

theorem State.linePassed_only : ∀ s a1 a2, Only [.out, .log, .nvm, .nvs, .inst, .fn, .cmds, .due, .fss, .mch, .fetches, .rate] s (State.linePassed s a1 a2) := by
  intro s a1 a2
  unfold State.linePassed
  split
  · rename_i y1 y2
    refine Only.via (State.settleLine_only _ _) rfl ?_
    exact Only.refl _ _
  · rename_i y3 y4 y5
    refine Only.ite (fun _ => ?_) (fun _ => ?_)
    · refine Only.via (State.settleLine_only _ _) rfl ?_
      exact Only.refl _ _
    · extract_lets x6
      refine Only.cut (t := x6) ?_ (fun h7 => ?_)
      · unfold x6
        refine Only.via (State.checkVictim_only _ _ _) rfl ?_
        exact Only.refl _ _
      refine Only.ite (fun _ => ?_) (fun _ => ?_)
      · refine Only.ite (fun _ => ?_) (fun _ => ?_)
        · refine Only.via (State.setFetch_only _ _) rfl ?_
          exact h7
        · refine Only.via (State.settleLine_only _ _) rfl ?_
          refine Only.via (State.fillLine_only _ _ _ _ _) rfl ?_
          exact h7
      · refine Only.via (State.settleLine_only _ _) rfl ?_
        exact h7

theorem State.leafData_only : ∀ s a1 a2 a3 a4, Only [.out, .tm, .hlt, .log, .nvm, .nvs, .link, .sec, .inst, .fn, .cmds, .oldOps, .due, .reads, .nextTag, .lastFn, .fss, .sea, .mch, .fetches, .drives, .pwb, .cal, .mon, .rate] s (State.leafData s a1 a2 a3 a4) := by
  intro s a1 a2 a3 a4
  unfold State.leafData
  split
  · rename_i y1 y2
    exact Only.refl _ _
  · rename_i y3 y4 y5
    refine Only.ite (fun _ => ?_) (fun _ => ?_)
    · refine Only.via (State.pump_only _) rfl ?_
      refine Only.via (State.setFetch_only _ _) rfl ?_
      exact Only.refl _ _
    · split
      · rename_i y6 y7 y8
        refine Only.via (State.pump_only _) rfl ?_
        refine Only.via (State.settleLine_only _ _) rfl ?_
        exact Only.refl _ _
      · rename_i y9 y10 y11 y12
        refine Only.ite (fun _ => ?_) (fun _ => ?_)
        · refine Only.via (State.pump_only _) rfl ?_
          refine Only.via (State.linePassed_only _ _ _) rfl ?_
          refine Only.ite (fun _ => ?_) (fun _ => ?_)
          · refine Only.via (Only.set_sea _ _) rfl ?_
            exact Only.refl _ _
          · exact Only.refl _ _
        · refine Only.ite (fun _ => ?_) (fun _ => ?_)
          · refine Only.via (State.haltBy_only _ _) rfl ?_
            exact Only.refl _ _
          · refine Only.via (State.pump_only _) rfl ?_
            refine Only.via (State.setFetch_only _ _) rfl ?_
            exact Only.refl _ _

theorem State.leafFail_only : ∀ s a1 a2, Only [.out, .log, .nvm, .nvs, .inst, .fn, .cmds, .due, .fetches, .rate] s (State.leafFail s a1 a2) := by
  intro s a1 a2
  unfold State.leafFail
  split
  · rename_i y1 y2
    exact Only.refl _ _
  · rename_i y3 y4 y5
    refine Only.ite (fun _ => ?_) (fun _ => ?_)
    · extract_lets x6
      refine Only.cut (t := x6) ?_ (fun h7 => ?_)
      · unfold x6
        refine Only.via (Only.set_fetches _ _) rfl ?_
        exact Only.refl _ _
      refine Only.forEach (fun a8 t9 h10 => ?_) ?_
      · split
        · rename_i y11 y12 y13 y14
          refine Only.ite (fun _ => ?_) (fun _ => ?_)
          · refine Only.via (State.complete_only _ _ _ _ _) rfl ?_
            exact h10
          · exact h10
        · rename_i y15 y16 y17
          exact h10
      · exact h7
    · refine Only.via (State.setFetch_only _ _) rfl ?_
      exact Only.refl _ _

theorem execLeafFetchRetry_only : ∀ a0 s z, Only [.out, .log, .nvm, .nvs, .link, .inst, .fn, .cmds, .due, .reads, .nextTag, .lastFn, .fss, .mch, .fetches, .rate] s (runRow (execLeafFetchRetry a0 s) z) := by
  intro a0 s z
  unfold execLeafFetchRetry
  rw [runRow_next]
  refine Only.whenServing (fun t1 h2 => ?_) ?_
  · split
    · rename_i y3 y4 y5
      refine Only.ite (fun _ => ?_) (fun _ => ?_)
      · refine Only.via (State.pump_only _) rfl ?_
        refine Only.via (State.setFetch_only _ _) rfl ?_
        exact h2
      · refine Only.ite (fun _ => ?_) (fun _ => ?_)
        · refine Only.via (State.pump_only _) rfl ?_
          refine Only.via (State.linePassed_only _ _ _) rfl ?_
          exact h2
        · exact h2
    · rename_i y6 y7
      exact h2
  · exact Only.refl _ _

theorem execRead_only : ∀ a0 a1 a2 s z, Only [.out, .tm, .hlt, .log, .nvm, .nvs, .link, .sec, .inst, .fn, .cmds, .oldOps, .due, .reads, .nextTag, .lastFn, .fss, .sea, .mch, .fetches, .drives, .pwb, .cal, .mon, .rate] s (runRow (execRead a0 a1 a2 s) z) := by
  intro a0 a1 a2 s z
  unfold execRead
  rw [runRow_next]
  refine Only.whenServing (fun t1 h2 => ?_) ?_
  · split
    · rename_i y3 y4 y5
      refine Only.ite (fun _ => ?_) (fun _ => ?_)
      · exact h2
      · refine Only.ite (fun _ => ?_) (fun _ => ?_)
        · refine Only.dramCheck (fun t6 h7 => ?_) rfl ?_
          · refine Only.underEpoch (fun t8 h9 => ?_) ?_
            · split
              rename_i y10 y11 y12 y13 y14 y15
              extract_lets x16
              refine Only.via (State.pump_only _) rfl ?_
              refine Only.via (State.endRead_only _ _) rfl ?_
              refine Only.via (State.setCmd_only _ _) rfl ?_
              refine Only.ofPair y15 ?_
              refine Only.via (State.lookupRun_only _ _ _ _ _ _) rfl ?_
              exact h9
            · exact h7
          · exact h2
        · refine Only.ite (fun _ => ?_) (fun _ => ?_)
          · refine Only.via (State.endRead_only _ _) rfl ?_
            exact h2
          · exact h2
    · rename_i y17 y18
      exact h2
  · exact Only.refl _ _

theorem execMchEnableWrite_only : ∀ a0 s z, Only [.out, .regs, .log, .nvm, .nvs, .fn, .mch] s (runRow (execMchEnableWrite a0 s) z) := by
  intro a0 s z
  unfold execMchEnableWrite
  rw [runRow_next]
  refine Only.hostBar2 (fun t1 h2 => ?_) ?_
  · refine Only.ite (fun _ => ?_) (fun _ => ?_)
    · refine Only.via (State.setMchEvt_only _ _) rfl ?_
      refine Only.via (State.storeReg_only _ _ _) rfl ?_
      exact h2
    · refine Only.via (State.storeReg_only _ _ _) rfl ?_
      exact h2
  · exact Only.refl _ _

theorem State.invalidateWay_only : ∀ s a1, Only [.mch] s (State.invalidateWay s a1) := by
  intro s a1
  unfold State.invalidateWay
  refine Only.via (Only.set_mch _ _) rfl ?_
  exact Only.refl _ _

theorem execWayEn_only : ∀ a0 s z, Only [.mch] s (runRow (execWayEn a0 s) z) := by
  intro a0 s z
  unfold execWayEn
  rw [runRow_next]
  refine Only.hostBar2 (fun t1 h2 => ?_) ?_
  · refine Only.forBelow (fun a3 t4 h5 => ?_) ?_
    · refine Only.ite (fun _ => ?_) (fun _ => ?_)
      · extract_lets x6 x7 x8
        refine Only.cut (t := x6) ?_ (fun h9 => ?_)
        · unfold x6
          refine Only.via (State.invalidateWay_only _ _) rfl ?_
          exact h5
        refine Only.cut (t := x8) ?_ (fun h10 => ?_)
        · unfold x8
          refine Only.via (Only.set_mch _ _) rfl ?_
          exact h9
        refine Only.via (State.modWay_only _ _ _) rfl ?_
        exact h10
      · exact h5
    · exact h2
  · exact Only.refl _ _

theorem execParityWindowExpiry_only : ∀ a0 s z, Only [.mch] s (runRow (execParityWindowExpiry a0 s) z) := by
  intro a0 s z
  unfold execParityWindowExpiry
  rw [runRow_next]
  refine Only.whenRunning (fun t1 h2 => ?_) ?_
  · refine Only.via (State.modWay_only _ _ _) rfl ?_
    exact h2
  · exact Only.refl _ _

theorem State.refuseOp_only : ∀ s, Only [.mch] s (State.refuseOp s) := by
  intro s
  unfold State.refuseOp
  refine Only.via (Only.set_mch _ _) rfl ?_
  exact Only.refl _ _

theorem State.beginOp_only : ∀ s a1 a2, Only [.hlt, .mch] s (State.beginOp s a1 a2) := by
  intro s a1 a2
  unfold State.beginOp
  extract_lets x1 x2
  refine Only.ite (fun _ => ?_) (fun _ => ?_)
  · refine Only.via (State.accError_only _ _ _ _) rfl ?_
    exact Only.refl _ _
  · refine Only.ite (fun _ => ?_) (fun _ => ?_)
    · refine Only.via (State.refuseOp_only _) rfl ?_
      exact Only.refl _ _
    · refine Only.via (Only.set_mch _ _) rfl ?_
      exact Only.refl _ _

theorem execClean_only : ∀ a0 s z, Only [.hlt, .mch] s (runRow (execClean a0 s) z) := by
  intro a0 s z
  unfold execClean
  rw [runRow_next]
  refine Only.hostBar2 (fun t1 h2 => ?_) ?_
  · refine Only.via (State.beginOp_only _ _ _) rfl ?_
    exact h2
  · exact Only.refl _ _

theorem execInvalidate_only : ∀ a0 s z, Only [.hlt, .mch] s (runRow (execInvalidate a0 s) z) := by
  intro a0 s z
  unfold execInvalidate
  rw [runRow_next]
  refine Only.hostBar2 (fun t1 h2 => ?_) ?_
  · refine Only.via (State.beginOp_only _ _ _) rfl ?_
    exact h2
  · exact Only.refl _ _

theorem execCleanAndInvalidate_only : ∀ a0 s z, Only [.hlt, .mch] s (runRow (execCleanAndInvalidate a0 s) z) := by
  intro a0 s z
  unfold execCleanAndInvalidate
  rw [runRow_next]
  refine Only.hostBar2 (fun t1 h2 => ?_) ?_
  · refine Only.via (State.beginOp_only _ _ _) rfl ?_
    exact h2
  · exact Only.refl _ _

theorem State.visitLine_only : ∀ s a1 a2 a3, Only [.out, .log, .nvm, .nvs, .fn, .fss, .mch] s (State.visitLine s a1 a2 a3) := by
  intro s a1 a2 a3
  unfold State.visitLine
  split
  · rename_i y1 y2
    exact Only.refl _ _
  · rename_i y3 y4 y5
    refine Only.ite (fun _ => ?_) (fun _ => ?_)
    · refine Only.via (State.setLine_only _ _ _ _) rfl ?_
      exact Only.refl _ _
    · refine Only.ite (fun _ => ?_) (fun _ => ?_)
      · refine Only.via (State.parityFault_only _ _ _) rfl ?_
        exact Only.refl _ _
      · extract_lets x6 x7 x8
        refine Only.cut (t := x6) ?_ (fun h9 => ?_)
        · unfold x6
          refine Only.via (State.writeBack_only _ _ _) rfl ?_
          exact Only.refl _ _
        refine Only.cut (t := x8) ?_ (fun h10 => ?_)
        · unfold x8
          refine Only.ite (fun _ => ?_) (fun _ => ?_)
          · refine Only.via (Only.set_mch _ _) rfl ?_
            exact h9
          · exact Only.refl _ _
        refine Only.ite (fun _ => ?_) (fun _ => ?_)
        · refine Only.via (State.setLine_only _ _ _ _) rfl ?_
          exact h10
        · exact h10

theorem execMaintenanceOpDone_only : ∀ a0 s z, Only [.out, .log, .nvm, .nvs, .fn, .fss, .mch] s (runRow (execMaintenanceOpDone a0 s) z) := by
  intro a0 s z
  unfold execMaintenanceOpDone
  rw [runRow_next]
  refine Only.whenRunning (fun t1 h2 => ?_) ?_
  · split
    · rename_i y3 y4 y5 y6
      refine Only.ite (fun _ => ?_) (fun _ => ?_)
      · extract_lets x7 x8 x9
        refine Only.cut (t := x7) ?_ (fun h10 => ?_)
        · unfold x7
          refine Only.forEach (fun a11 t12 h13 => ?_) ?_
          · refine Only.via (State.visitLine_only _ _ _ _) rfl ?_
            exact h13
          · exact h2
        refine Only.via (State.setMchEvt_only _ _) rfl ?_
        refine Only.via (Only.set_mch _ _) rfl ?_
        exact h10
      · exact h2
    · rename_i y14 y15
      exact h2
  · exact Only.refl _ _

theorem State.clearRegion_only : ∀ s, Only [.out, .log, .nvm, .nvs, .inst, .fn, .cmds, .due, .fss, .mch, .fetches, .rate] s (State.clearRegion s) := by
  intro s
  unfold State.clearRegion
  extract_lets x1 x2 x3
  refine Only.cut (t := x1) ?_ (fun h4 => ?_)
  · unfold x1
    refine Only.via (State.emptyCache_only _) rfl ?_
    exact Only.refl _ _
  refine Only.cut (t := x3) ?_ (fun h5 => ?_)
  · unfold x3
    refine Only.via (Only.set_fss _ _) rfl ?_
    exact h4
  refine Only.forEach (fun a6 t7 h8 => ?_) ?_
  · refine Only.via (State.settleLine_only _ _) rfl ?_
    exact h8
  · exact h5

theorem execHregEnable_only : ∀ s z, Only [.out, .log, .nvm, .nvs, .fn, .fss] s (runRow (execHregEnable s) z) := by
  intro s z
  unfold execHregEnable
  rw [runRow_next]
  refine Only.hostBar2 (fun t1 h2 => ?_) ?_
  · refine Only.ite (fun _ => ?_) (fun _ => ?_)
    · exact h2
    · refine Only.ite (fun _ => ?_) (fun _ => ?_)
      · refine Only.via (State.note_only _ _ _) rfl ?_
        refine Only.via (Only.set_fss _ _) rfl ?_
        exact h2
      · refine Only.via (Only.set_fss _ _) rfl ?_
        exact h2
  · exact Only.refl _ _

theorem execHregDisable_only : ∀ s z, Only [.fss, .mch] s (runRow (execHregDisable s) z) := by
  intro s z
  unfold execHregDisable
  rw [runRow_next]
  refine Only.hostBar2 (fun t1 h2 => ?_) ?_
  · refine Only.ite (fun _ => ?_) (fun _ => ?_)
    · refine Only.via (Only.set_fss_mch _ _ _) rfl ?_
      exact h2
    · exact h2
  · exact Only.refl _ _

theorem execHregDisableDone_only : ∀ s z, Only [.out, .log, .nvm, .nvs, .inst, .fn, .cmds, .due, .fss, .mch, .fetches, .rate] s (runRow (execHregDisableDone s) z) := by
  intro s z
  unfold execHregDisableDone
  rw [runRow_next]
  refine Only.whenRunning (fun t1 h2 => ?_) ?_
  · refine Only.ite (fun _ => ?_) (fun _ => ?_)
    · refine Only.via (State.clearRegion_only _) rfl ?_
      exact h2
    · exact h2
  · exact Only.refl _ _

theorem State.modSq_only : ∀ s a1 a2 a3, Only [.fn] s (State.modSq s a1 a2 a3) := by
  intro s a1 a2 a3
  unfold State.modSq
  refine Only.via (State.modFn_only _ _ _) rfl ?_
  exact Only.refl _ _

theorem State.modCq_only : ∀ s a1 a2 a3, Only [.fn] s (State.modCq s a1 a2 a3) := by
  intro s a1 a2 a3
  unfold State.modCq
  refine Only.via (State.modFn_only _ _ _) rfl ?_
  exact Only.refl _ _

theorem State.modDb_only : ∀ s a1 a2, Only [.fn] s (State.modDb s a1 a2) := by
  intro s a1 a2
  unfold State.modDb
  refine Only.via (State.modFn_only _ _ _) rfl ?_
  exact Only.refl _ _

theorem State.sqOff_only : ∀ s a1 a2, Only [.regs, .reads] s (State.sqOff s a1 a2) := by
  intro s a1 a2
  unfold State.sqOff
  refine Only.via (State.setReg_only _ _ _) rfl ?_
  refine Only.via (Only.set_reads _ _) rfl ?_
  exact Only.refl _ _

theorem State.cqOff_only : ∀ s a1 a2, Only [.regs] s (State.cqOff s a1 a2) := by
  intro s a1 a2
  unfold State.cqOff
  refine Only.via (State.setReg_only _ _ _) rfl ?_
  exact Only.refl _ _

theorem State.deviceWord_only : ∀ s a1, Only [.out, .fn] s (State.deviceWord s a1) := by
  intro s a1
  unfold State.deviceWord
  refine Only.via (State.pumpWord_only _ _) rfl ?_
  refine Only.via (State.modDb_only _ _ _) rfl ?_
  exact Only.refl _ _

theorem State.fetchSoon_only : ∀ s a1, Only [.fn] s (State.fetchSoon s a1) := by
  intro s a1
  unfold State.fetchSoon
  refine Only.via (State.modDb_only _ _ _) rfl ?_
  exact Only.refl _ _

theorem State.wakeFn_only : ∀ s a1, Only [.out, .fn] s (State.wakeFn s a1) := by
  intro s a1
  unfold State.wakeFn
  refine Only.ite (fun _ => ?_) (fun _ => ?_)
  · refine Only.via (State.fetchSoon_only _ _) rfl ?_
    refine Only.via (State.deviceWord_only _ _) rfl ?_
    refine Only.via (State.modDb_only _ _ _) rfl ?_
    exact Only.refl _ _
  · exact Only.refl _ _

theorem State.setRingErr_only : ∀ s a1 a2 a3 a4, Only [.fn] s (State.setRingErr s a1 a2 a3 a4) := by
  intro s a1 a2 a3 a4
  unfold State.setRingErr
  refine Only.ite (fun _ => ?_) (fun _ => ?_)
  · refine Only.via (State.modCq_only _ _ _ _) rfl ?_
    exact Only.refl _ _
  · refine Only.via (State.modSq_only _ _ _ _) rfl ?_
    exact Only.refl _ _

theorem execRingEnable_only : ∀ a0 a1 a2 a3 s z, Only [.out, .regs, .log, .nvm, .nvs, .link, .fn, .reads, .nextTag, .lastFn, .mch] s (runRow (execRingEnable a0 a1 a2 a3 s) z) := by
  intro a0 a1 a2 a3 s z
  unfold execRingEnable
  rw [runRow_next]
  refine Only.hostBar0 (fun t1 h2 => ?_) ?_
  · extract_lets x3 x4 x5 x6 x7 x8
    refine Only.cut (t := x5) ?_ (fun h9 => ?_)
    · unfold x5
      refine Only.via (State.storeReg_only _ _ _) rfl ?_
      exact h2
    refine Only.cut (t := x7) ?_ (fun h10 => ?_)
    · unfold x7
      refine Only.via (State.setReg_only _ _ _) rfl ?_
      exact h9
    refine Only.cut (t := x8) ?_ (fun h11 => ?_)
    · unfold x8
      refine Only.ite (fun _ => ?_) (fun _ => ?_)
      · refine Only.via (State.modCq_only _ _ _ _) rfl ?_
        exact h10
      · refine Only.via (State.modSq_only _ _ _ _) rfl ?_
        exact h10
    refine Only.ite (fun _ => ?_) (fun _ => ?_)
    · refine Only.via (State.noteRsv_only _ _ _) rfl ?_
      exact h2
    · split
      · rename_i y12 y13 y14 y15
        refine Only.via (State.logEv_only _ _ _ _) rfl ?_
        refine Only.via (State.setRingErr_only _ _ _ _ _) rfl ?_
        exact h9
      · rename_i y16 y17 y18
        refine Only.via (State.pump_only _) rfl ?_
        refine Only.via (State.fetchSoon_only _ _) rfl ?_
        refine Only.via (State.wakeFn_only _ _) rfl ?_
        exact h11
  · exact Only.refl _ _

theorem execRingDisable_only : ∀ a0 a1 a2 a3 s z, Only [.out, .regs, .log, .nvm, .nvs, .fn, .reads] s (runRow (execRingDisable a0 a1 a2 a3 s) z) := by
  intro a0 a1 a2 a3 s z
  unfold execRingDisable
  rw [runRow_next]
  refine Only.hostBar0 (fun t1 h2 => ?_) ?_
  · extract_lets x3 x4 x5
    refine Only.cut (t := x5) ?_ (fun h6 => ?_)
    · unfold x5
      refine Only.via (State.noteRsv_only _ _ _) rfl ?_
      exact h2
    refine Only.ite (fun _ => ?_) (fun _ => ?_)
    · refine Only.ite (fun _ => ?_) (fun _ => ?_)
      · refine Only.via (State.logEv_only _ _ _ _) rfl ?_
        refine Only.via (State.setRingErr_only _ _ _ _ _) rfl ?_
        exact h6
      · refine Only.ite (fun _ => ?_) (fun _ => ?_)
        · refine Only.via (State.cqOff_only _ _ _) rfl ?_
          exact h6
        · refine Only.via (State.sqOff_only _ _ _) rfl ?_
          exact h6
    · refine Only.via (State.storeReg_only _ _ _) rfl ?_
      exact h2
  · exact Only.refl _ _

theorem execDbEnWrite_only : ∀ a0 a1 s z, Only [.out, .regs, .log, .nvm, .nvs, .link, .fn, .reads, .nextTag, .lastFn, .mch] s (runRow (execDbEnWrite a0 a1 s) z) := by
  intro a0 a1 s z
  unfold execDbEnWrite
  rw [runRow_next]
  refine Only.hostBar0 (fun t1 h2 => ?_) ?_
  · extract_lets x3 x4 x5 x6 x7
    refine Only.cut (t := x6) ?_ (fun h8 => ?_)
    · unfold x6
      refine Only.via (State.storeReg_only _ _ _) rfl ?_
      exact h2
    refine Only.cut (t := x7) ?_ (fun h9 => ?_)
    · unfold x7
      refine Only.via (State.wakeFn_only _ _) rfl ?_
      exact h8
    refine Only.via (State.pump_only _) rfl ?_
    refine Only.ite (fun _ => ?_) (fun _ => ?_)
    · refine Only.via (State.fetchSoon_only _ _) rfl ?_
      exact h9
    · exact h9
  · exact Only.refl _ _

theorem execWake_only : ∀ a0 s z, Only [.out, .link, .fn, .reads, .nextTag, .lastFn, .mch] s (runRow (execWake a0 s) z) := by
  intro a0 s z
  unfold execWake
  rw [runRow_next]
  refine Only.hostBar0 (fun t1 h2 => ?_) ?_
  · refine Only.ite (fun _ => ?_) (fun _ => ?_)
    · refine Only.via (State.pump_only _) rfl ?_
      refine Only.via (State.wakeFn_only _ _) rfl ?_
      exact h2
    · refine Only.via (State.modFn_only _ _ _) rfl ?_
      exact h2
  · exact Only.refl _ _

theorem State.issueFetch_only : ∀ s a1, Only [.out, .fn, .reads, .nextTag] s (State.issueFetch s a1) := by
  intro s a1
  unfold State.issueFetch
  refine Only.via (State.issueRead_only _ _ _ _ _ _) rfl ?_
  refine Only.via (State.modDb_only _ _ _) rfl ?_
  exact Only.refl _ _

theorem State.retryEntries_only : ∀ s a1, Only [.fn] s (State.retryEntries s a1) := by
  intro s a1
  unfold State.retryEntries
  refine Only.via (State.modFn_only _ _ _) rfl ?_
  exact Only.refl _ _

theorem execDoorbellFetch_only : ∀ a0 s z, Only [.out, .link, .fn, .reads, .nextTag, .lastFn, .mch] s (runRow (execDoorbellFetch a0 s) z) := by
  intro a0 s z
  unfold execDoorbellFetch
  rw [runRow_next]
  refine Only.whenServing (fun t1 h2 => ?_) ?_
  · extract_lets x3 x4 x5
    refine Only.cut (t := x5) ?_ (fun h6 => ?_)
    · unfold x5
      refine Only.via (State.retryEntries_only _ _) rfl ?_
      exact h2
    refine Only.ite (fun _ => ?_) (fun _ => ?_)
    · refine Only.via (State.pump_only _) rfl ?_
      refine Only.ite (fun _ => ?_) (fun _ => ?_)
      · exact h6
      · refine Only.via (State.issueFetch_only _ _) rfl ?_
        exact h6
    · exact h2
  · exact Only.refl _ _

theorem State.faultSq_only : ∀ s a1 a2 a3, Only [.out, .regs, .log, .nvm, .nvs, .fn, .reads] s (State.faultSq s a1 a2 a3) := by
  intro s a1 a2 a3
  unfold State.faultSq
  refine Only.via (State.logEv_only _ _ _ _) rfl ?_
  refine Only.via (State.setRngEvt_only _ _ _) rfl ?_
  refine Only.via (State.modSq_only _ _ _ _) rfl ?_
  refine Only.via (State.sqOff_only _ _ _) rfl ?_
  exact Only.refl _ _

theorem State.faultCq_only : ∀ s a1 a2 a3, Only [.out, .regs, .log, .nvm, .nvs, .fn, .reads] s (State.faultCq s a1 a2 a3) := by
  intro s a1 a2 a3
  unfold State.faultCq
  extract_lets x1
  refine Only.cut (t := x1) ?_ (fun h2 => ?_)
  · unfold x1
    refine Only.via (State.logEv_only _ _ _ _) rfl ?_
    refine Only.via (State.setRngEvt_only _ _ _) rfl ?_
    refine Only.via (State.modCq_only _ _ _ _) rfl ?_
    refine Only.via (State.cqOff_only _ _ _) rfl ?_
    exact Only.refl _ _
  refine Only.forBelow (fun a3 t4 h5 => ?_) ?_
  · refine Only.ite (fun _ => ?_) (fun _ => ?_)
    · refine Only.via (State.faultSq_only _ _ _ _) rfl ?_
      exact h5
    · exact h5
  · exact h2

theorem State.takeDoorbell_only : ∀ s a1 a2, Only [.out, .regs, .log, .nvm, .nvs, .fn, .reads] s (State.takeDoorbell s a1 a2).2 := by
  intro s a1 a2
  unfold State.takeDoorbell
  extract_lets x1
  refine Only.cut (t := x1.2) ?_ (fun h2 => ?_)
  · unfold x1
    refine Only.foldlSnd (fun t4 a3 h5 => ?_) ?_
    · split
      · rename_i y6
        extract_lets x7 x8
        split
        · rename_i y9
          refine Only.via (State.faultCq_only _ _ _ _) rfl ?_
          exact h5
        · rename_i y10
          refine Only.via (State.modCq_only _ _ _ _) rfl ?_
          exact h5
      · rename_i y11
        exact h5
    · exact Only.refl _ _
  refine Only.foldlSnd (fun t13 a12 h14 => ?_) ?_
  · split
    · rename_i y15
      extract_lets x16
      split
      · rename_i y17
        refine Only.via (State.faultSq_only _ _ _ _) rfl ?_
        exact h14
      · rename_i y18
        refine Only.via (State.modSq_only _ _ _ _) rfl ?_
        exact h14
    · rename_i y19
      exact h14
  · exact h2

theorem State.enterSleep_only : ∀ s a1, Only [.out, .fn, .reads, .nextTag] s (State.enterSleep s a1) := by
  intro s a1
  unfold State.enterSleep
  refine Only.via (State.issueFetch_only _ _) rfl ?_
  refine Only.via (State.deviceWord_only _ _) rfl ?_
  refine Only.via (State.modDb_only _ _ _) rfl ?_
  exact Only.refl _ _

theorem State.doorbellData_only : ∀ s a1 a2, Only [.out, .regs, .log, .nvm, .nvs, .link, .fn, .reads, .nextTag, .lastFn, .mch] s (State.doorbellData s a1 a2) := by
  intro s a1 a2
  unfold State.doorbellData
  refine Only.ite (fun _ => ?_) (fun _ => ?_)
  · exact Only.refl _ _
  · split
    rename_i y1 y2 y3 y4 y5
    extract_lets x6 x7 x8
    refine Only.cut (t := x6) ?_ (fun h9 => ?_)
    · unfold x6
      refine Only.via (State.modDb_only _ _ _) rfl ?_
      refine Only.ofPair y5 ?_
      refine Only.via (State.takeDoorbell_only _ _ _) rfl ?_
      exact Only.refl _ _
    refine Only.cut (t := x8) ?_ (fun h10 => ?_)
    · unfold x8
      refine Only.ite (fun _ => ?_) (fun _ => ?_)
      · refine Only.ite (fun _ => ?_) (fun _ => ?_)
        · refine Only.via (State.deviceWord_only _ _) rfl ?_
          refine Only.via (State.modDb_only _ _ _) rfl ?_
          exact h9
        · refine Only.via (State.modDb_only _ _ _) rfl ?_
          exact h9
      · refine Only.ite (fun _ => ?_) (fun _ => ?_)
        · refine Only.via (State.enterSleep_only _ _) rfl ?_
          exact h9
        · exact h9
    refine Only.via (State.pump_only _) rfl ?_
    exact h10

theorem State.doorbellFail_only : ∀ s a1, Only [.out, .log, .nvm, .nvs, .fn, .dbErr] s (State.doorbellFail s a1) := by
  intro s a1
  unfold State.doorbellFail
  extract_lets x1 x2
  refine Only.cut (t := x1) ?_ (fun h3 => ?_)
  · unfold x1
    refine Only.via (Only.set_dbErr _ _) rfl ?_
    exact Only.refl _ _
  refine Only.cut (t := x2) ?_ (fun h4 => ?_)
  · unfold x2
    refine Only.via (State.modDb_only _ _ _) rfl ?_
    exact h3
  refine Only.ite (fun _ => ?_) (fun _ => ?_)
  · refine Only.via (State.logEv_only _ _ _ _) rfl ?_
    refine Only.via (State.setRngEvt_only _ _ _) rfl ?_
    refine Only.via (State.modDb_only _ _ _) rfl ?_
    exact h4
  · exact h4

theorem execDoorbellFetchComplete_only : ∀ a0 a1 s z, Only [.out, .regs, .log, .nvm, .nvs, .link, .fn, .reads, .nextTag, .lastFn, .mch] s (runRow (execDoorbellFetchComplete a0 a1 s) z) := by
  intro a0 a1 s z
  unfold execDoorbellFetchComplete
  rw [runRow_next]
  refine Only.whenServing (fun t1 h2 => ?_) ?_
  · refine Only.ite (fun _ => ?_) (fun _ => ?_)
    · refine Only.via (State.doorbellData_only _ _ _) rfl ?_
      refine Only.via (Only.set_reads _ _) rfl ?_
      exact h2
    · exact h2
  · exact Only.refl _ _

theorem State.takeEntry_only : ∀ s a1 a2 a3, Only [.out, .log, .nvm, .nvs, .link, .inst, .fn, .cmds, .nextCmd, .due, .reads, .nextTag, .lastFn, .mch, .clk, .rate] s (State.takeEntry s a1 a2 a3) := by
  intro s a1 a2 a3
  unfold State.takeEntry
  extract_lets x1 x2 x3 x4
  refine Only.cut (t := x3) ?_ (fun h5 => ?_)
  · unfold x3
    refine Only.via (State.modSq_only _ _ _ _) rfl ?_
    exact Only.refl _ _
  refine Only.cut (t := x4) ?_ (fun h6 => ?_)
  · unfold x4
    refine Only.via (State.modFn_only _ _ _) rfl ?_
    exact h5
  refine Only.ite (fun _ => ?_) (fun _ => ?_)
  · refine Only.via (State.pump_only _) rfl ?_
    refine Only.via (State.accept_only _ _ _ _ _) rfl ?_
    exact h6
  · exact Only.refl _ _

theorem State.entryFail_only : ∀ s a1 a2, Only [.out, .regs, .log, .nvm, .nvs, .fn, .reads, .sqErr] s (State.entryFail s a1 a2) := by
  intro s a1 a2
  unfold State.entryFail
  extract_lets x1
  refine Only.cut (t := x1) ?_ (fun h2 => ?_)
  · unfold x1
    refine Only.via (State.modSq_only _ _ _ _) rfl ?_
    refine Only.via (Only.set_sqErr _ _) rfl ?_
    exact Only.refl _ _
  refine Only.ite (fun _ => ?_) (fun _ => ?_)
  · refine Only.via (State.faultSq_only _ _ _ _) rfl ?_
    exact h2
  · exact h2

theorem execCommandAccept_only : ∀ a0 a1 a2 s z, Only [.out, .log, .nvm, .nvs, .link, .inst, .fn, .cmds, .nextCmd, .due, .reads, .nextTag, .lastFn, .mch, .clk, .rate] s (runRow (execCommandAccept a0 a1 a2 s) z) := by
  intro a0 a1 a2 s z
  unfold execCommandAccept
  rw [runRow_next]
  refine Only.whenServing (fun t1 h2 => ?_) ?_
  · refine Only.ite (fun _ => ?_) (fun _ => ?_)
    · refine Only.via (State.takeEntry_only _ _ _ _) rfl ?_
      refine Only.via (Only.set_reads _ _) rfl ?_
      exact h2
    · exact h2
  · exact Only.refl _ _

theorem State.settleDue_only : ∀ s a1, Only [.inst, .cmds, .due] s (State.settleDue s a1) := by
  intro s a1
  unfold State.settleDue
  extract_lets x1
  refine Only.cut (t := x1) ?_ (fun h2 => ?_)
  · unfold x1
    refine Only.ite (fun _ => ?_) (fun _ => ?_)
    · exact Only.refl _ _
    · refine Only.via (State.windowDone_only _ _ _ _ _ _) rfl ?_
      exact Only.refl _ _
  refine Only.via (State.dropCmd_only _ _) rfl ?_
  refine Only.via (Only.set_due _ _) rfl ?_
  exact h2

theorem State.signalCq_only : ∀ s a1 a2, Only [.out, .fn] s (State.signalCq s a1 a2) := by
  intro s a1 a2
  unfold State.signalCq
  refine Only.via (State.raise_only _ _ _) rfl ?_
  refine Only.via (State.modCq_only _ _ _ _) rfl ?_
  exact Only.refl _ _

theorem State.writeCq_only : ∀ s a1, Only [.out, .inst, .fn, .cmds, .due] s (State.writeCq s a1) := by
  intro s a1
  unfold State.writeCq
  extract_lets x1 x2 x3 x4 x5 x6 x7 x8
  refine Only.cut (t := x5) ?_ (fun h9 => ?_)
  · unfold x5
    refine Only.via (State.emit_only _ _) rfl ?_
    exact Only.refl _ _
  refine Only.cut (t := x6) ?_ (fun h10 => ?_)
  · unfold x6
    refine Only.via (State.modCq_only _ _ _ _) rfl ?_
    exact h9
  refine Only.cut (t := x7) ?_ (fun h11 => ?_)
  · unfold x7
    refine Only.via (State.modDb_only _ _ _) rfl ?_
    exact h10
  refine Only.cut (t := x8) ?_ (fun h12 => ?_)
  · unfold x8
    refine Only.via (State.settleDue_only _ _) rfl ?_
    exact h11
  refine Only.ite (fun _ => ?_) (fun _ => ?_)
  · refine Only.via (State.signalCq_only _ _ _) rfl ?_
    exact h12
  · exact h12

theorem State.discardDue_only : ∀ s a1, Only [.out, .log, .nvm, .nvs, .inst, .fn, .cmds, .due] s (State.discardDue s a1) := by
  intro s a1
  unfold State.discardDue
  refine Only.via (State.logEv_only _ _ _ _) rfl ?_
  refine Only.via (State.settleDue_only _ _) rfl ?_
  exact Only.refl _ _

theorem execCompletionWrite_only : ∀ a0 s z, Only [.out, .log, .nvm, .nvs, .link, .inst, .fn, .cmds, .due, .reads, .nextTag, .lastFn, .mch] s (runRow (execCompletionWrite a0 s) z) := by
  intro a0 s z
  unfold execCompletionWrite
  rw [runRow_next]
  refine Only.whenServing (fun t1 h2 => ?_) ?_
  · split
    · rename_i y3 y4 y5
      extract_lets x6
      refine Only.ite (fun _ => ?_) (fun _ => ?_)
      · exact h2
      · refine Only.ite (fun _ => ?_) (fun _ => ?_)
        · refine Only.via (State.pump_only _) rfl ?_
          refine Only.via (State.discardDue_only _ _) rfl ?_
          exact h2
        · refine Only.ite (fun _ => ?_) (fun _ => ?_)
          · exact h2
          · refine Only.via (State.pump_only _) rfl ?_
            refine Only.via (State.writeCq_only _ _) rfl ?_
            exact h2
    · rename_i y7 y8
      exact h2
  · exact Only.refl _ _

theorem execCoalescingTimeout_only : ∀ a0 a1 s z, Only [.out, .fn] s (runRow (execCoalescingTimeout a0 a1 s) z) := by
  intro a0 a1 s z
  unfold execCoalescingTimeout
  rw [runRow_next]
  refine Only.whenServing (fun t1 h2 => ?_) ?_
  · extract_lets x3
    refine Only.ite (fun _ => ?_) (fun _ => ?_)
    · refine Only.via (State.signalCq_only _ _ _) rfl ?_
      exact h2
    · exact h2
  · exact Only.refl _ _

theorem execGoTask_only : ∀ a0 a1 s z, Only [.out, .hlt, .log, .nvm, .nvs, .link, .inst, .fn, .cmds, .nextCmd, .due, .reads, .nextTag, .lastFn, .mch, .clk, .rate] s (runRow (execGoTask a0 a1 s) z) := by
  intro a0 a1 s z
  unfold execGoTask
  rw [runRow_next]
  refine Only.hostBar0 (fun t1 h2 => ?_) ?_
  · extract_lets x3 x4
    refine Only.cut (t := x4) ?_ (fun h5 => ?_)
    · unfold x4
      refine Only.via (State.modFn_only _ _ _) rfl ?_
      exact h2
    refine Only.ite (fun _ => ?_) (fun _ => ?_)
    · exact h2
    · refine Only.ite (fun _ => ?_) (fun _ => ?_)
      · refine Only.via (State.accError_only _ _ _ _) rfl ?_
        exact h2
      · refine Only.via (State.pump_only _) rfl ?_
        refine Only.via (State.accept_only _ _ _ _ _) rfl ?_
        exact h5
  · exact Only.refl _ _

theorem execTaskPortCompletion_only : ∀ a0 s z, Only [.out, .link, .inst, .fn, .cmds, .due, .reads, .nextTag, .lastFn, .mch] s (runRow (execTaskPortCompletion a0 s) z) := by
  intro a0 s z
  unfold execTaskPortCompletion
  rw [runRow_next]
  refine Only.whenServing (fun t1 h2 => ?_) ?_
  · split
    · rename_i y3 y4 y5
      refine Only.ite (fun _ => ?_) (fun _ => ?_)
      · exact h2
      · extract_lets x6 x7 x8 x9
        refine Only.cut (t := x7) ?_ (fun h10 => ?_)
        · unfold x7
          refine Only.via (State.modFn_only _ _ _) rfl ?_
          exact h2
        refine Only.cut (t := x8) ?_ (fun h11 => ?_)
        · unfold x8
          refine Only.via (State.modDb_only _ _ _) rfl ?_
          exact h10
        refine Only.cut (t := x9) ?_ (fun h12 => ?_)
        · unfold x9
          refine Only.via (State.settleDue_only _ _) rfl ?_
          exact h11
        refine Only.via (State.pump_only _) rfl ?_
        refine Only.ite (fun _ => ?_) (fun _ => ?_)
        · refine Only.via (State.raise_only _ _ _) rfl ?_
          exact h12
        · exact h12
    · rename_i y13 y14
      exact h2
  · exact Only.refl _ _

theorem execMbInPost_only : ∀ a0 a1 s z, Only [.hlt, .fn] s (runRow (execMbInPost a0 a1 s) z) := by
  intro a0 a1 s z
  unfold execMbInPost
  rw [runRow_next]
  refine Only.hostBar0 (fun t1 h2 => ?_) ?_
  · extract_lets x3 x4 x5 x6
    refine Only.cut (t := x6) ?_ (fun h7 => ?_)
    · unfold x6
      refine Only.via (State.modFn_only _ _ _) rfl ?_
      exact h2
    refine Only.ite (fun _ => ?_) (fun _ => ?_)
    · refine Only.via (State.accError_only _ _ _ _) rfl ?_
      exact h7
    · exact h7
  · exact Only.refl _ _

theorem State.relay_only : ∀ s a1 a2, Only [.out, .log, .nvm, .nvs, .fn] s (State.relay s a1 a2) := by
  intro s a1 a2
  unfold State.relay
  extract_lets x1 x2 x3
  refine Only.ite (fun _ => ?_) (fun _ => ?_)
  · refine Only.ite (fun _ => ?_) (fun _ => ?_)
    · refine Only.via (State.postMsg_only _ _ _ _ _ _ _) rfl ?_
      exact Only.refl _ _
    · refine Only.via (State.logEv_only _ _ _ _) rfl ?_
      exact Only.refl _ _
  · refine Only.ite (fun _ => ?_) (fun _ => ?_)
    · refine Only.via (State.logEv_only _ _ _ _) rfl ?_
      exact Only.refl _ _
    · refine Only.ite (fun _ => ?_) (fun _ => ?_)
      · refine Only.via (State.setInsEvt_only _ _ _) rfl ?_
        exact Only.refl _ _
      · refine Only.via (State.postMsg_only _ _ _ _ _ _ _) rfl ?_
        exact Only.refl _ _

theorem execMailboxConsume_only : ∀ a0 s z, Only [.out, .log, .nvm, .nvs, .fn] s (runRow (execMailboxConsume a0 s) z) := by
  intro a0 s z
  unfold execMailboxConsume
  rw [runRow_next]
  refine Only.whenServing (fun t1 h2 => ?_) ?_
  · extract_lets x3
    split
    · rename_i y4 y5 y6 y7
      refine Only.ite (fun _ => ?_) (fun _ => ?_)
      · exact h2
      · extract_lets x8 x9 x10
        refine Only.cut (t := x9) ?_ (fun h11 => ?_)
        · unfold x9
          refine Only.via (State.modFn_only _ _ _) rfl ?_
          exact h2
        refine Only.cut (t := x10) ?_ (fun h12 => ?_)
        · unfold x10
          refine Only.ite (fun _ => ?_) (fun _ => ?_)
          · refine Only.via (State.relay_only _ _ _) rfl ?_
            exact h11
          · refine Only.via (State.logEv_only _ _ _ _) rfl ?_
            exact h11
        refine Only.via (State.setInsEvt_only _ _ _) rfl ?_
        exact h12
    · rename_i y13 y14
      exact h2
  · exact Only.refl _ _

theorem execMbOutAck_only : ∀ a0 a1 s z, Only [.out, .fn] s (runRow (execMbOutAck a0 a1 s) z) := by
  intro a0 a1 s z
  unfold execMbOutAck
  rw [runRow_next]
  refine Only.hostBar0 (fun t1 h2 => ?_) ?_
  · refine Only.via (State.fillSlots_only _ _) rfl ?_
    refine Only.via (State.modFn_only _ _ _) rfl ?_
    exact h2
  · exact Only.refl _ _

theorem State.policySeq_only : ∀ s a1, Only [.out, .inst, .fn] s (State.policySeq s a1) := by
  intro s a1
  unfold State.policySeq
  extract_lets x1 x2
  refine Only.cut (t := x2) ?_ (fun h3 => ?_)
  · unfold x2
    refine Only.via (State.modInst_only _ _ _) rfl ?_
    exact Only.refl _ _
  refine Only.ite (fun _ => ?_) (fun _ => ?_)
  · refine Only.ite (fun _ => ?_) (fun _ => ?_)
    · exact h3
    · refine Only.via (State.postOwn_only _ _ _ _) rfl ?_
      exact h3
  · exact Only.refl _ _

theorem State.pageWord_only : ∀ s a1 a2 a3, Only [.out, .hlt, .inst, .fn] s (State.pageWord s a1 a2 a3) := by
  intro s a1 a2 a3
  unfold State.pageWord
  split
  rename_i y1 y2 y3 y4
  refine Only.ite (fun _ => ?_) (fun _ => ?_)
  · exact Only.refl _ _
  · refine Only.ite (fun _ => ?_) (fun _ => ?_)
    · refine Only.ite (fun _ => ?_) (fun _ => ?_)
      · refine Only.via (State.modInst_only _ _ _) rfl ?_
        exact Only.refl _ _
      · refine Only.via (State.accError_only _ _ _ _) rfl ?_
        exact Only.refl _ _
    · refine Only.ite (fun _ => ?_) (fun _ => ?_)
      · extract_lets x5
        refine Only.cut (t := x5) ?_ (fun h6 => ?_)
        · unfold x5
          refine Only.via (State.modInst_only _ _ _) rfl ?_
          exact Only.refl _ _
        refine Only.ite (fun _ => ?_) (fun _ => ?_)
        · refine Only.via (State.policySeq_only _ _) rfl ?_
          exact h6
        · exact h6
      · refine Only.via (State.accError_only _ _ _ _) rfl ?_
        exact Only.refl _ _

theorem execSharedPageWrite_only : ∀ a0 a1 a2 s z, Only [.out, .hlt, .inst, .fn] s (runRow (execSharedPageWrite a0 a1 a2 s) z) := by
  intro a0 a1 a2 s z
  unfold execSharedPageWrite
  rw [runRow_next]
  refine Only.hostBar0 (fun t1 h2 => ?_) ?_
  · extract_lets x3 x4 x5
    refine Only.cut (t := x5) ?_ (fun h6 => ?_)
    · unfold x5
      refine Only.via (State.pageWord_only _ _ _ _) rfl ?_
      exact h2
    refine Only.ite (fun _ => ?_) (fun _ => ?_)
    · refine Only.via (State.pageWord_only _ _ _ _) rfl ?_
      exact h2
    · refine Only.ite (fun _ => ?_) (fun _ => ?_)
      · refine Only.ite (fun _ => ?_) (fun _ => ?_)
        · refine Only.via (State.pageWord_only _ _ _ _) rfl ?_
          exact h6
        · exact h6
      · refine Only.via (State.accError_only _ _ _ _) rfl ?_
        exact h2
  · exact Only.refl _ _

theorem State.drawKey_only : ∀ s, Only [.nvm, .nvs, .sea] s (State.drawKey s).2 := by
  intro s
  unfold State.drawKey
  extract_lets x1
  refine Only.cut (t := x1) ?_ (fun h2 => ?_)
  · unfold x1
    refine Only.via (State.ctrInc_only _ _) rfl ?_
    exact Only.refl _ _
  refine Only.via (State.drawOne_only _) rfl ?_
  exact h2

theorem State.destroyKey_only : ∀ s a1, Only [.nvm, .nvs, .inst] s (State.destroyKey s a1) := by
  intro s a1
  unfold State.destroyKey
  split
  · rename_i y1 y2 y3
    refine Only.via (State.modInst_only _ _ _) rfl ?_
    refine Only.via (State.ctrRaise_only _ _ _) rfl ?_
    exact Only.refl _ _
  · rename_i y4 y5
    exact Only.refl _ _

theorem State.beginReset_only : ∀ s a1 a2 a3 a4, Only [.out, .inst, .fn] s (State.beginReset s a1 a2 a3 a4) := by
  intro s a1 a2 a3 a4
  unfold State.beginReset
  refine Only.via (State.setIState_only _ _ _) rfl ?_
  refine Only.via (State.modInst_only _ _ _) rfl ?_
  exact Only.refl _ _

theorem State.joinReset_only : ∀ s a1 a2 a3, Only [.inst] s (State.joinReset s a1 a2 a3) := by
  intro s a1 a2 a3
  unfold State.joinReset
  refine Only.via (State.modInst_only _ _ _) rfl ?_
  exact Only.refl _ _

theorem State.resetFor_only : ∀ s a1 a2, Only [.out, .inst, .fn] s (State.resetFor s a1 a2) := by
  intro s a1 a2
  unfold State.resetFor
  split
  · rename_i y1 y2
    refine Only.via (State.beginReset_only _ _ _ _ _) rfl ?_
    exact Only.refl _ _
  · rename_i y3 y4
    refine Only.via (State.joinReset_only _ _ _ _) rfl ?_
    exact Only.refl _ _
  · rename_i y5 y6 y7
    exact Only.refl _ _

theorem State.settleBoundaries_only : ∀ s, Only [.out, .log, .nvm, .nvs, .inst, .fn] s (State.settleBoundaries s) := by
  intro s
  unfold State.settleBoundaries
  refine Only.forBelow (fun a1 t2 h3 => ?_) ?_
  · split
    · rename_i y4 y5 y6
      refine Only.via (State.takeBoundary_only _ _) rfl ?_
      exact h3
    · rename_i y7 y8
      exact h3
  · refine Only.via (State.jumpPeriods_only _) rfl ?_
    exact Only.refl _ _

theorem State.finishManager_only : ∀ s a1, Only [.out, .log, .nvm, .nvs, .inst, .fn, .cmds, .due, .fss, .rate] s (State.finishManager s a1) := by
  intro s a1
  unfold State.finishManager
  extract_lets x1 x2 x3 x4 x5 x6 x7
  refine Only.cut (t := x4) ?_ (fun h8 => ?_)
  · unfold x4
    refine Only.via (State.modInst_only _ _ _) rfl ?_
    exact Only.refl _ _
  refine Only.cut (t := x5) ?_ (fun h9 => ?_)
  · unfold x5
    refine Only.via (State.postPeer_only _ _ _ _) rfl ?_
    exact h8
  refine Only.cut (t := x6) ?_ (fun h10 => ?_)
  · unfold x6
    refine Only.via (State.logEv_only _ _ _ _) rfl ?_
    exact h9
  refine Only.cut (t := x7) ?_ (fun h11 => ?_)
  · unfold x7
    refine Only.via (State.settleBoundaries_only _) rfl ?_
    exact Only.refl _ _
  split
  · rename_i y12 y13
    refine Only.via (State.complete_only _ _ _ _ _) rfl ?_
    refine Only.via (State.quotaCheck_only _ _) rfl ?_
    exact h10
  · rename_i y14 y15
    refine Only.via (State.complete_only _ _ _ _ _) rfl ?_
    refine Only.via (State.modInst_only _ _ _) rfl ?_
    exact Only.refl _ _
  · rename_i y16 y17
    refine Only.via (State.complete_only _ _ _ _ _) rfl ?_
    refine Only.via (State.quotaCheck_only _ _) rfl ?_
    refine Only.via (State.modInst_only _ _ _) rfl ?_
    exact Only.refl _ _
  · rename_i y18 y19
    refine Only.ite (fun _ => ?_) (fun _ => ?_)
    · refine Only.via (State.complete_only _ _ _ _ _) rfl ?_
      exact h11
    · refine Only.ite (fun _ => ?_) (fun _ => ?_)
      · refine Only.via (State.completeFlushed_only _ _ _) rfl ?_
        refine Only.via (State.journalRecord_only _ _) rfl ?_
        exact h11
      · refine Only.via (State.complete_only _ _ _ _ _) rfl ?_
        refine Only.via (State.settleBoundaries_only _) rfl ?_
        refine Only.via (State.modInst_only _ _ _) rfl ?_
        exact h11
  · rename_i y20 y21 y22 y23 y24
    refine Only.via (State.complete_only _ _ _ _ _) rfl ?_
    exact Only.refl _ _

theorem execInstanceStart_only : ∀ a0 s z, Only [.out, .log, .nvm, .nvs, .inst, .fn, .cmds, .due, .fss, .sea, .rate] s (runRow (execInstanceStart a0 s) z) := by
  intro a0 s z
  unfold execInstanceStart
  rw [runRow_next]
  refine Only.withCmd (fun c1 t2 h3 => ?_) ?_
  · refine Only.manage (fun t4 h5 => ?_) rfl ?_
    · refine Only.ite (fun _ => ?_) (fun _ => ?_)
      · extract_lets x6
        split
        rename_i y7 y8 y9 y10 y11
        extract_lets x12
        refine Only.via (State.completeFlushed_only _ _ _) rfl ?_
        refine Only.via (State.journalRecordOf_only _ _ _) rfl ?_
        refine Only.ofPair y11 ?_
        refine Only.via (State.drawKey_only _) rfl ?_
        exact h5
      · refine Only.ite (fun _ => ?_) (fun _ => ?_)
        · refine Only.via (State.complete_only _ _ _ _ _) rfl ?_
          exact h5
        · exact h5
    · exact h3
  · exact Only.refl _ _

theorem execInstanceReset_only : ∀ a0 s z, Only [.out, .log, .nvm, .nvs, .inst, .fn, .cmds, .due, .rate] s (runRow (execInstanceReset a0 s) z) := by
  intro a0 s z
  unfold execInstanceReset
  rw [runRow_next]
  refine Only.withCmd (fun c1 t2 h3 => ?_) ?_
  · refine Only.manage (fun t4 h5 => ?_) rfl ?_
    · extract_lets x6 x7
      refine Only.cut (t := x7) ?_ (fun h8 => ?_)
      · unfold x7
        refine Only.via (State.setCmd_only _ _) rfl ?_
        exact h5
      refine Only.ite (fun _ => ?_) (fun _ => ?_)
      · refine Only.via (State.beginReset_only _ _ _ _ _) rfl ?_
        exact h8
      · refine Only.via (State.joinReset_only _ _ _ _) rfl ?_
        exact h8
    · exact h3
  · exact Only.refl _ _

theorem execInstanceRemove_only : ∀ a0 s z, Only [.out, .log, .nvm, .nvs, .inst, .fn, .cmds, .due, .fss, .mch, .fetches, .rate] s (runRow (execInstanceRemove a0 s) z) := by
  intro a0 s z
  unfold execInstanceRemove
  rw [runRow_next]
  refine Only.withCmd (fun c1 t2 h3 => ?_) ?_
  · refine Only.manage (fun t4 h5 => ?_) rfl ?_
    · extract_lets x6 x7
      refine Only.cut (t := x7) ?_ (fun h8 => ?_)
      · unfold x7
        refine Only.forEach (fun a9 t10 h11 => ?_) ?_
        · refine Only.via (State.touchLeaf_only _ _) rfl ?_
          exact h11
        · exact h5
      split
      · rename_i y12 y13 y14
        refine Only.via (State.complete_only _ _ _ _ _) rfl ?_
        exact h8
      · rename_i y15 y16
        refine Only.ite (fun _ => ?_) (fun _ => ?_)
        · refine Only.via (State.beginReset_only _ _ _ _ _) rfl ?_
          refine Only.via (State.setCmd_only _ _) rfl ?_
          exact h8
        · exact h8
    · exact h3
  · exact Only.refl _ _

theorem execSetPolicy_only : ∀ a0 s z, Only [.out, .log, .nvm, .nvs, .inst, .fn, .cmds, .due, .fss, .rate] s (runRow (execSetPolicy a0 s) z) := by
  intro a0 s z
  unfold execSetPolicy
  rw [runRow_next]
  refine Only.withCmd (fun c1 t2 h3 => ?_) ?_
  · refine Only.manage (fun t4 h5 => ?_) rfl ?_
    · extract_lets x6
      refine Only.via (State.completeFlushed_only _ _ _) rfl ?_
      refine Only.via (State.journalRecordOf_only _ _ _) rfl ?_
      exact h5
    · exact h3
  · exact Only.refl _ _

theorem execSetQuota_only : ∀ a0 s z, Only [.out, .log, .nvm, .nvs, .inst, .fn, .cmds, .due, .fss, .rate] s (runRow (execSetQuota a0 s) z) := by
  intro a0 s z
  unfold execSetQuota
  rw [runRow_next]
  refine Only.withCmd (fun c1 t2 h3 => ?_) ?_
  · refine Only.manage (fun t4 h5 => ?_) rfl ?_
    · extract_lets x6
      refine Only.ite (fun _ => ?_) (fun _ => ?_)
      · refine Only.via (State.complete_only _ _ _ _ _) rfl ?_
        exact h5
      · refine Only.via (State.completeFlushed_only _ _ _) rfl ?_
        refine Only.via (State.journalRecordOf_only _ _ _) rfl ?_
        exact h5
    · exact h3
  · exact Only.refl _ _

theorem execSetPeriod_only : ∀ a0 s z, Only [.out, .log, .nvm, .nvs, .inst, .fn, .cmds, .due, .fss, .rate] s (runRow (execSetPeriod a0 s) z) := by
  intro a0 s z
  unfold execSetPeriod
  rw [runRow_next]
  refine Only.withCmd (fun c1 t2 h3 => ?_) ?_
  · refine Only.manage (fun t4 h5 => ?_) rfl ?_
    · extract_lets x6 x7
      refine Only.cut (t := x7) ?_ (fun h8 => ?_)
      · unfold x7
        refine Only.via (State.settleBoundaries_only _) rfl ?_
        exact h5
      refine Only.ite (fun _ => ?_) (fun _ => ?_)
      · refine Only.via (State.complete_only _ _ _ _ _) rfl ?_
        exact h8
      · refine Only.via (State.completeFlushed_only _ _ _) rfl ?_
        refine Only.via (State.journalRecordOf_only _ _ _) rfl ?_
        exact h8
    · exact h3
  · exact Only.refl _ _

theorem State.leaveSetCmd_only : ∀ s a1, Only [.arc] s (State.leaveSetCmd s a1) := by
  intro s a1
  unfold State.leaveSetCmd
  refine Only.ite (fun _ => ?_) (fun _ => ?_)
  · refine Only.via (Only.set_arc _ _) rfl ?_
    exact Only.refl _ _
  · refine Only.ite (fun _ => ?_) (fun _ => ?_)
    · refine Only.via (Only.set_arc _ _) rfl ?_
      exact Only.refl _ _
    · exact Only.refl _ _

theorem State.endCmd_only : ∀ s a1 a2, Only [.out, .log, .nvm, .nvs, .inst, .fn, .cmds, .oldOps, .due, .fss, .arc, .rate] s (State.endCmd s a1 a2) := by
  intro s a1 a2
  unfold State.endCmd
  extract_lets x1 x2 x3 x4 x5 x6
  refine Only.cut (t := x3) ?_ (fun h7 => ?_)
  · unfold x3
    refine Only.via (State.unreserve_only _ _) rfl ?_
    exact Only.refl _ _
  refine Only.cut (t := x4) ?_ (fun h8 => ?_)
  · unfold x4
    refine Only.ite (fun _ => ?_) (fun _ => ?_)
    · refine Only.via (State.finishManager_only _ _) rfl ?_
      exact h7
    · refine Only.via (State.complete_only _ _ _ _ _) rfl ?_
      exact h7
  refine Only.cut (t := x6) ?_ (fun h9 => ?_)
  · unfold x6
    refine Only.ite (fun _ => ?_) (fun _ => ?_)
    · refine Only.via (Only.set_oldOps _ _) rfl ?_
      exact h7
    · exact h7
  split
  · rename_i y10 y11
    split
    · rename_i y12 y13 y14
      refine Only.ite (fun _ => ?_) (fun _ => ?_)
      · refine Only.via (State.dropCmd_only _ _) rfl ?_
        unfold x1
        refine Only.via (State.modInst_only _ _ _) rfl ?_
        refine Only.via (State.windowDone_only _ _ _ _ _ _) rfl ?_
        exact h7
      · refine Only.via (State.dropCmd_only _ _) rfl ?_
        unfold x1
        refine Only.via (State.modInst_only _ _ _) rfl ?_
        unfold x2
        refine Only.via (State.modInst_only _ _ _) rfl ?_
        exact h7
    · rename_i y15 y16
      refine Only.via (State.dropCmd_only _ _) rfl ?_
      unfold x1
      refine Only.via (State.modInst_only _ _ _) rfl ?_
      exact h7
  · rename_i y17 y18
    refine Only.ite (fun _ => ?_) (fun _ => ?_)
    · refine Only.via (State.dropCmd_only _ _) rfl ?_
      unfold x1
      refine Only.via (State.modInst_only _ _ _) rfl ?_
      unfold x2
      refine Only.via (State.modInst_only _ _ _) rfl ?_
      exact h7
    · split
      · rename_i y19 y20 y21 y22
        refine Only.via (State.dropCmd_only _ _) rfl ?_
        unfold x1
        refine Only.via (State.modInst_only _ _ _) rfl ?_
        refine Only.via (State.windowDone_only _ _ _ _ _ _) rfl ?_
        refine Only.via (Only.set_due _ _) rfl ?_
        exact h8
      · rename_i y23 y24 y25
        refine Only.via (State.dropCmd_only _ _) rfl ?_
        unfold x1
        refine Only.via (State.modInst_only _ _ _) rfl ?_
        exact h8
  · rename_i y26 y27
    refine Only.via (State.dropCmd_only _ _) rfl ?_
    unfold x1
    refine Only.via (State.modInst_only _ _ _) rfl ?_
    unfold x2
    refine Only.via (State.modInst_only _ _ _) rfl ?_
    refine Only.via (State.leaveSetCmd_only _ _) rfl ?_
    exact h9
  · rename_i y28 y29 y30 y31
    refine Only.via (State.dropCmd_only _ _) rfl ?_
    unfold x1
    refine Only.via (State.modInst_only _ _ _) rfl ?_
    unfold x2
    refine Only.via (State.modInst_only _ _ _) rfl ?_
    exact h7

theorem State.clearFnWork_only : ∀ s a1, Only [.regs, .inst, .fn, .due, .reads] s (State.clearFnWork s a1) := by
  intro s a1
  unfold State.clearFnWork
  extract_lets x1 x2 x3
  refine Only.cut (t := x1) ?_ (fun h4 => ?_)
  · unfold x1
    refine Only.forBelow (fun a5 t6 h7 => ?_) ?_
    · refine Only.via (State.cqOff_only _ _ _) rfl ?_
      refine Only.via (State.sqOff_only _ _ _) rfl ?_
      exact h7
    · exact Only.refl _ _
  refine Only.cut (t := x2) ?_ (fun h8 => ?_)
  · unfold x2
    refine Only.via (State.modFn_only _ _ _) rfl ?_
    exact h4
  refine Only.cut (t := x3) ?_ (fun h9 => ?_)
  · unfold x3
    refine Only.via (State.modInst_only _ _ _) rfl ?_
    exact h8
  refine Only.via (Only.set_due_reads _ _ _) rfl ?_
  exact h9

theorem State.clearFnConfig_only : ∀ s a1, Only [.regs, .latches, .link, .sec, .fn] s (State.clearFnConfig s a1) := by
  intro s a1
  unfold State.clearFnConfig
  extract_lets x1 x2 x3 x4 x5 x6 x7 x8 x9
  refine Only.cut (t := x5) ?_ (fun h10 => ?_)
  · unfold x5
    refine Only.via (Only.set_regs_latches_link _ _ _ _) rfl ?_
    exact Only.refl _ _
  refine Only.cut (t := x8) ?_ (fun h11 => ?_)
  · unfold x8
    refine Only.ite (fun _ => ?_) (fun _ => ?_)
    · refine Only.via (Only.set_link_sec _ _ _) rfl ?_
      exact h10
    · exact h10
  refine Only.via (State.modFn_only _ _ _) rfl ?_
  exact h11

theorem State.resetFnOnly_only : ∀ s a1, Only [.out, .regs, .latches, .link, .sec, .fn] s (State.resetFnOnly s a1) := by
  intro s a1
  unfold State.resetFnOnly
  extract_lets x1
  refine Only.cut (t := x1) ?_ (fun h2 => ?_)
  · unfold x1
    refine Only.via (State.clearFnConfig_only _ _) rfl ?_
    exact Only.refl _ _
  refine Only.ite (fun _ => ?_) (fun _ => ?_)
  · exact h2
  · refine Only.via (State.setInsEvt_only _ _ _) rfl ?_
    exact h2

theorem State.removeStep4_only : ∀ s a1, Only [.out, .inst, .fn, .fss, .mch, .fetches] s (State.removeStep4 s a1) := by
  intro s a1
  unfold State.removeStep4
  extract_lets x1 x2 x3 x4 x5
  refine Only.cut (t := x1) ?_ (fun h6 => ?_)
  · unfold x1
    refine Only.forEach (fun a7 t8 h9 => ?_) ?_
    · refine Only.via (State.mapPut_only _ _ _ _) rfl ?_
      exact h9
    · exact Only.refl _ _
  refine Only.cut (t := x3) ?_ (fun h10 => ?_)
  · unfold x3
    refine Only.via (Only.set_fss _ _) rfl ?_
    exact h6
  refine Only.cut (t := x4) ?_ (fun h11 => ?_)
  · unfold x4
    refine Only.via (State.modInst_only _ _ _) rfl ?_
    exact h10
  refine Only.cut (t := x5) ?_ (fun h12 => ?_)
  · unfold x5
    refine Only.via (State.modFn_only _ _ _) rfl ?_
    exact h11
  refine Only.via (State.refreshUsed_only _ _) rfl ?_
  refine Only.via (State.dropEmptyLeaves_only _ _) rfl ?_
  refine Only.via (State.fillSlots_only _ _) rfl ?_
  exact h12

theorem State.resetStep4_only : ∀ s a1 a2, Only [.out, .regs, .latches, .log, .nvm, .nvs, .link, .sec, .inst, .fn, .cmds, .oldOps, .due, .reads, .fss, .mch, .fetches, .arc, .rate] s (State.resetStep4 s a1 a2) := by
  intro s a1 a2
  unfold State.resetStep4
  extract_lets x1 x2 x3 x4 x5
  refine Only.cut (t := x1) ?_ (fun h6 => ?_)
  · unfold x1
    refine Only.forEach (fun a7 t8 h9 => ?_) ?_
    · refine Only.via (State.endCmd_only _ _ _) rfl ?_
      exact h9
    · exact Only.refl _ _
  refine Only.cut (t := x2) ?_ (fun h10 => ?_)
  · unfold x2
    refine Only.via (State.clearFnWork_only _ _) rfl ?_
    exact h6
  refine Only.cut (t := x3) ?_ (fun h11 => ?_)
  · unfold x3
    refine Only.ite (fun _ => ?_) (fun _ => ?_)
    · refine Only.via (State.removeStep4_only _ _) rfl ?_
      exact h10
    · exact h10
  refine Only.cut (t := x4) ?_ (fun h12 => ?_)
  · unfold x4
    refine Only.via (State.modInst_only _ _ _) rfl ?_
    exact h11
  refine Only.cut (t := x5) ?_ (fun h13 => ?_)
  · unfold x5
    refine Only.via (State.journalRecord_only _ _) rfl ?_
    exact h12
  refine Only.ite (fun _ => ?_) (fun _ => ?_)
  · refine Only.via (State.clearFnConfig_only _ _) rfl ?_
    exact h13
  · exact h13

theorem State.ackAll_only : ∀ s a1 a2, Only [.cmds] s (State.ackAll s a1 a2) := by
  intro s a1 a2
  unfold State.ackAll
  refine Only.forEach (fun a1 t2 h3 => ?_) ?_
  · split
    · rename_i y4 y5 y6
      refine Only.via (State.completeFlushed_only _ _ _) rfl ?_
      exact h3
    · rename_i y7 y8
      exact h3
  · exact Only.refl _ _

theorem State.resetStep5_only : ∀ s a1 a2, Only [.out, .log, .nvm, .nvs, .inst, .fn, .cmds] s (State.resetStep5 s a1 a2) := by
  intro s a1 a2
  unfold State.resetStep5
  split
  · rename_i y1 y2
    exact Only.refl _ _
  · rename_i y3 y4 y5
    extract_lets x6 x7 x8 x9 x10 x11 x12 x13 x14 x15
    refine Only.cut (t := x8) ?_ (fun h16 => ?_)
    · unfold x8
      refine Only.via (State.modInst_only _ _ _) rfl ?_
      exact Only.refl _ _
    refine Only.cut (t := x9) ?_ (fun h17 => ?_)
    · unfold x9
      refine Only.via (State.setIState_only _ _ _) rfl ?_
      exact h16
    refine Only.cut (t := x10) ?_ (fun h18 => ?_)
    · unfold x10
      refine Only.via (State.postOwn_only _ _ _ _) rfl ?_
      exact h17
    refine Only.cut (t := x11) ?_ (fun h19 => ?_)
    · unfold x11
      refine Only.ite (fun _ => ?_) (fun _ => ?_)
      · exact h18
      · refine Only.via (State.postPeer_only _ _ _ _) rfl ?_
        exact h18
    refine Only.cut (t := x12) ?_ (fun h20 => ?_)
    · unfold x12
      refine Only.ite (fun _ => ?_) (fun _ => ?_)
      · refine Only.via (State.postOwn_only _ _ _ _) rfl ?_
        refine Only.via (State.postPeer_only _ _ _ _) rfl ?_
        exact h16
      · refine Only.via (State.ackAll_only _ _ _) rfl ?_
        exact h19
    refine Only.cut (t := x13) ?_ (fun h21 => ?_)
    · unfold x13
      refine Only.via (State.modFn_only _ _ _) rfl ?_
      exact h20
    refine Only.cut (t := x14) ?_ (fun h22 => ?_)
    · unfold x14
      refine Only.via (State.setInsEvt_only _ _ _) rfl ?_
      exact h21
    refine Only.cut (t := x15) ?_ (fun h23 => ?_)
    · unfold x15
      refine Only.ite (fun _ => ?_) (fun _ => ?_)
      · exact h22
      · refine Only.via (State.setInsEvt_only _ _ _) rfl ?_
        exact h22
    refine Only.via (State.logEv_only _ _ _ _) rfl ?_
    refine Only.via (State.fetchSoon_only _ _) rfl ?_
    refine Only.via (State.wakeFn_only _ _) rfl ?_
    exact h23

theorem execResetDrainDone_only : ∀ a0 s z, Only [.out, .regs, .latches, .log, .nvm, .nvs, .link, .sec, .inst, .fn, .cmds, .oldOps, .due, .reads, .nextTag, .lastFn, .fss, .mch, .fetches, .arc, .rate] s (runRow (execResetDrainDone a0 s) z) := by
  intro a0 s z
  unfold execResetDrainDone
  rw [runRow_next]
  refine Only.whenRunning (fun t1 h2 => ?_) ?_
  · extract_lets x3
    split
    · rename_i y4 y5 y6
      refine Only.ite (fun _ => ?_) (fun _ => ?_)
      · refine Only.via (State.pump_only _) rfl ?_
        refine Only.via (State.resetStep5_only _ _ _) rfl ?_
        refine Only.via (State.resetStep4_only _ _ _) rfl ?_
        exact h2
      · refine Only.ite (fun _ => ?_) (fun _ => ?_)
        · refine Only.via (State.resetFnOnly_only _ _) rfl ?_
          exact h2
        · exact h2
    · rename_i y7 y8
      refine Only.ite (fun _ => ?_) (fun _ => ?_)
      · refine Only.via (State.resetFnOnly_only _ _) rfl ?_
        exact h2
      · exact h2
  · exact Only.refl _ _

theorem execOldGenerationMediaEnded_only : ∀ a0 s z, Only [.out, .nvm, .nvs, .inst, .fn, .cmds, .oldOps, .fss] s (runRow (execOldGenerationMediaEnded a0 s) z) := by
  intro a0 s z
  unfold execOldGenerationMediaEnded
  rw [runRow_next]
  refine Only.whenRunning (fun t1 h2 => ?_) ?_
  · extract_lets x3 x4 x5 x6 x7
    refine Only.cut (t := x4) ?_ (fun h8 => ?_)
    · unfold x4
      refine Only.via (Only.set_oldOps _ _) rfl ?_
      exact h2
    refine Only.cut (t := x5) ?_ (fun h9 => ?_)
    · unfold x5
      refine Only.via (State.modInst_only _ _ _) rfl ?_
      exact h8
    refine Only.cut (t := x6) ?_ (fun h10 => ?_)
    · unfold x6
      refine Only.ite (fun _ => ?_) (fun _ => ?_)
      · refine Only.via (State.setIState_only _ _ _) rfl ?_
        refine Only.via (State.destroyKey_only _ _) rfl ?_
        exact h9
      · refine Only.via (State.setIState_only _ _ _) rfl ?_
        exact h9
    refine Only.cut (t := x7) ?_ (fun h11 => ?_)
    · unfold x7
      refine Only.via (State.journalRecord_only _ _) rfl ?_
      exact h10
    split
    · rename_i y12 y13 y14
      refine Only.ite (fun _ => ?_) (fun _ => ?_)
      · exact h8
      · refine Only.ite (fun _ => ?_) (fun _ => ?_)
        · refine Only.via (State.ackAll_only _ _ _) rfl ?_
          exact h11
        · exact h9
    · rename_i y15 y16
      exact h8
  · exact Only.refl _ _

theorem State.takeCopy_only : ∀ s a1 a2, Only [.out, .log, .nvm, .nvs, .fn] s (State.takeCopy s a1 a2) := by
  intro s a1 a2
  unfold State.takeCopy
  extract_lets x1 x2 x3 x4 x5
  refine Only.cut (t := x4) ?_ (fun h6 => ?_)
  · unfold x4
    refine Only.via (Only.set_nvs _ _) rfl ?_
    exact Only.refl _ _
  refine Only.cut (t := x5) ?_ (fun h7 => ?_)
  · unfold x5
    refine Only.via (State.ctrRaise_only _ _ _) rfl ?_
    exact h6
  refine Only.ite (fun _ => ?_) (fun _ => ?_)
  · refine Only.via (State.note_only _ _ _) rfl ?_
    exact h7
  · exact h7

theorem State.reloadSettings_only : ∀ s, Only [.out, .log, .nvm, .nvs, .fn] s (State.reloadSettings s) := by
  intro s
  unfold State.reloadSettings
  split
  · rename_i y1 y2 y3 y4
    refine Only.ite (fun _ => ?_) (fun _ => ?_)
    · exact Only.refl _ _
    · refine Only.via (State.takeCopy_only _ _ _) rfl ?_
      exact Only.refl _ _
  · rename_i y5 y6
    exact Only.refl _ _

theorem State.storeSettings_only : ∀ s a1 a2 a3 a4, Only [.out, .log, .nvm, .nvs, .fn] s (State.storeSettings s a1 a2 a3 a4) := by
  intro s a1 a2 a3 a4
  unfold State.storeSettings
  extract_lets x1 x2 x3 x4 x5
  refine Only.cut (t := x2) ?_ (fun h6 => ?_)
  · unfold x2
    refine Only.via (State.nvmWrite_only _ _ _) rfl ?_
    exact Only.refl _ _
  refine Only.cut (t := x3) ?_ (fun h7 => ?_)
  · unfold x3
    refine Only.via (State.nvmWrite_only _ _ _) rfl ?_
    exact h6
  refine Only.cut (t := x4) ?_ (fun h8 => ?_)
  · unfold x4
    refine Only.via (State.ctrRaise_only _ _ _) rfl ?_
    exact h7
  refine Only.via (State.note_only _ _ _) rfl ?_
  refine Only.via (Only.set_nvs _ _) rfl ?_
  exact h8

theorem execStoreSettings_only : ∀ a0 s z, Only [.out, .log, .nvm, .nvs, .inst, .fn, .cmds, .due, .rate] s (runRow (execStoreSettings a0 s) z) := by
  intro a0 s z
  unfold execStoreSettings
  rw [runRow_next]
  refine Only.withCmd (fun c1 t2 h3 => ?_) ?_
  · refine Only.ite (fun _ => ?_) (fun _ => ?_)
    · exact h3
    · extract_lets x4 x5
      clear_value x5
      split
      · rename_i y6 y7 y8 y9
        refine Only.via (State.complete_only _ _ _ _ _) rfl ?_
        exact h3
      · rename_i y10 y11 y12
        refine Only.via (State.complete_only _ _ _ _ _) rfl ?_
        refine Only.via (State.storeSettings_only _ _ _ _ _) rfl ?_
        exact h3
  · exact Only.refl _ _

theorem execStoreSettingsCapture_only : ∀ a0 s z, Only [.out, .log, .nvm, .nvs, .inst, .fn, .cmds, .due, .rate] s (runRow (execStoreSettingsCapture a0 s) z) := by
  intro a0 s z
  unfold execStoreSettingsCapture
  rw [runRow_next]
  refine Only.withCmd (fun c1 t2 h3 => ?_) ?_
  · refine Only.ite (fun _ => ?_) (fun _ => ?_)
    · refine Only.via (State.complete_only _ _ _ _ _) rfl ?_
      refine Only.via (State.storeSettings_only _ _ _ _ _) rfl ?_
      exact h3
    · exact h3
  · exact Only.refl _ _

theorem State.writeSlot_only : ∀ s a1, Only [.nvm, .nvs] s (State.writeSlot s a1) := by
  intro s a1
  unfold State.writeSlot
  split
  rename_i y1 y2 y3 y4
  refine Only.via (State.nvmWrite_only _ _ _) rfl ?_
  exact Only.refl _ _

theorem State.setImage_only : ∀ s a1 a2, Only [.fw] s (State.setImage s a1 a2) := by
  intro s a1 a2
  unfold State.setImage
  refine Only.via (Only.set_fw _ _) rfl ?_
  exact Only.refl _ _

theorem State.beginStage_only : ∀ s a1, Only [.nvm, .fw, .nvs] s (State.beginStage s a1) := by
  intro s a1
  unfold State.beginStage
  split
  rename_i y1 y2 y3 y4
  extract_lets x5 x6 x7 x8
  refine Only.cut (t := x7) ?_ (fun h9 => ?_)
  · unfold x7
    refine Only.via (State.setImage_only _ _ _) rfl ?_
    refine Only.via (State.writeSlot_only _ _) rfl ?_
    exact Only.refl _ _
  refine Only.via (Only.set_fw _ _) rfl ?_
  exact h9

theorem execFwStage_only : ∀ a0 s z, Only [.out, .log, .nvm, .fw, .nvs, .inst, .fn, .cmds, .due, .rate] s (runRow (execFwStage a0 s) z) := by
  intro a0 s z
  unfold execFwStage
  rw [runRow_next]
  refine Only.withCmd (fun c1 t2 h3 => ?_) ?_
  · extract_lets x4 x5 x6 x7 x8 x9 x10 x11 x12
    refine Only.cut (t := x7) ?_ (fun h13 => ?_)
    · unfold x7
      refine Only.ite (fun _ => ?_) (fun _ => ?_)
      · refine Only.via (State.beginStage_only _ _) rfl ?_
        exact h3
      · exact h3
    refine Only.cut (t := x8) ?_ (fun h14 => ?_)
    · unfold x8
      refine Only.via (State.setImage_only _ _ _) rfl ?_
      exact h13
    refine Only.cut (t := x10) ?_ (fun h15 => ?_)
    · unfold x10
      refine Only.via (Only.set_fw _ _) rfl ?_
      exact h14
    refine Only.cut (t := x12) ?_ (fun h16 => ?_)
    · unfold x12
      refine Only.via (State.writeSlot_only _ _) rfl ?_
      exact h15
    refine Only.ite (fun _ => ?_) (fun _ => ?_)
    · refine Only.via (State.complete_only _ _ _ _ _) rfl ?_
      exact h3
    · refine Only.ite (fun _ => ?_) (fun _ => ?_)
      · refine Only.via (State.complete_only _ _ _ _ _) rfl ?_
        exact h15
      · split
        · rename_i y17 y18 y19 y20 y21
          refine Only.via (State.complete_only _ _ _ _ _) rfl ?_
          exact h15
        · rename_i y22 y23 y24 y25
          refine Only.via (State.complete_only _ _ _ _ _) rfl ?_
          refine Only.via (State.note_only _ _ _) rfl ?_
          exact h16
  · exact Only.refl _ _

theorem execFwActivate_only : ∀ a0 s z, Only [.out, .log, .nvm, .nvs, .inst, .fn, .cmds, .due, .rate] s (runRow (execFwActivate a0 s) z) := by
  intro a0 s z
  unfold execFwActivate
  rw [runRow_next]
  refine Only.withCmd (fun c1 t2 h3 => ?_) ?_
  · extract_lets x4 x5 x6
    refine Only.ite (fun _ => ?_) (fun _ => ?_)
    · refine Only.via (State.complete_only _ _ _ _ _) rfl ?_
      exact h3
    · refine Only.via (State.complete_only _ _ _ _ _) rfl ?_
      refine Only.via (State.writeSlot_only _ _) rfl ?_
      exact h3
  · exact Only.refl _ _

end Sys2Proof.Machine
end

