-- ==== Sys2Proof/Laws/FrameStorage.lean ====
section
/-! SUPPORT. The frames of the tenant commands, the log, staging and host reads: the fields of State that each function can write. -/

namespace Sys2Proof.Machine

theorem State.modSeg_only : ∀ s a1 a2, Only [.fss] s (State.modSeg s a1 a2) := by
  intro s a1 a2
  unfold State.modSeg
  refine Only.via (Only.set_fss _ _) rfl ?_
  exact Only.refl _ _

theorem State.noteWaiting_only : ∀ s, Only [.out, .log, .nvm, .nvs, .inst, .fn] s (State.noteWaiting s) := by
  intro s
  unfold State.noteWaiting
  refine Only.ite (fun _ => ?_) (fun _ => ?_)
  · refine Only.forEach (fun a1 t2 h3 => ?_) ?_
    · refine Only.ite (fun _ => ?_) (fun _ => ?_)
      · exact h3
      · refine Only.via (State.logEv_only _ _ _ _) rfl ?_
        refine Only.via (State.modInst_only _ _ _) rfl ?_
        exact h3
    · exact Only.refl _ _
  · refine Only.via (Only.set_inst _ _) rfl ?_
    exact Only.refl _ _

theorem sealRun_only : ∀ a0 a1 a2 a3 a4 a5 a6 s, ∀ r, sealRun a0 a1 a2 a3 a4 a5 a6 s = some r → Only [.inst, .fss] s r.2 := by
  intro a0 a1 a2 a3 a4
  induction a4 generalizing a3 with
  | zero =>
    intro a5 a6 s r hr
    cases hr
    exact Only.refl _ _
  | succ n ih =>
    intro a5 a6 s r hr
    unfold sealRun at hr
    dsimp only at hr
    split at hr
    · rename_i p t h1
      have h : Only [.inst, .fss] s t :=
        Only.via (State.addUnit_only _ _ _ _ (p, t) h1) rfl (Only.mono (State.takeSeq_only _ _) rfl)
      split at hr
      · rename_i l u h2
        cases hr
        exact Only.trans h (ih _ _ _ _ (l, u) h2)
      · cases hr
    · cases hr

theorem State.waitSpace_only : ∀ s a1, Only [.cmds] s (State.waitSpace s a1) := by
  intro s a1
  unfold State.waitSpace
  refine Only.via (State.setCmd_only _ _) rfl ?_
  exact Only.refl _ _

theorem State.startWrite_only : ∀ s a1, Only [.out, .log, .nvm, .nvs, .inst, .fn, .cmds, .due, .fss, .mch, .fetches, .rate] s (State.startWrite s a1) := by
  intro s a1
  unfold State.startWrite
  extract_lets x1
  refine Only.cut (t := x1) ?_ (fun h2 => ?_)
  · unfold x1
    refine Only.via (State.touchRun_only _ _ _ _) rfl ?_
    exact Only.refl _ _
  split
  · rename_i y3 y4 y5
    refine Only.via (State.complete_only _ _ _ _ _) rfl ?_
    exact h2
  · rename_i y6 y7
    refine Only.ite (fun _ => ?_) (fun _ => ?_)
    · refine Only.via (State.waitSpace_only _ _) rfl ?_
      exact h2
    · split
      · rename_i y8 y9 y10 y11 y12
        refine Only.via (State.setCmd_only _ _) rfl ?_
        refine Only.ofSome y12 (sealRun_only _ _ _ _ _ _ _ _) rfl ?_
        exact h2
      · rename_i y13 y14 y15
        refine Only.via (State.waitSpace_only _ _) rfl ?_
        exact h2

theorem execWrite_only : ∀ a0 a1 s z, Only [.out, .tm, .hlt, .log, .nvm, .nvs, .sec, .inst, .fn, .cmds, .oldOps, .due, .reads, .fss, .sea, .mch, .fetches, .drives, .pwb, .cal, .mon, .rate] s (runRow (execWrite a0 a1 s) z) := by
  intro a0 a1 s z
  unfold execWrite
  rw [runRow_next]
  refine Only.whenServing (fun t1 h2 => ?_) ?_
  · split
    · rename_i y3 y4 y5
      refine Only.ite (fun _ => ?_) (fun _ => ?_)
      · refine Only.dramCheck (fun t6 h7 => ?_) rfl ?_
        · refine Only.underEpoch (fun t8 h9 => ?_) ?_
          · refine Only.via (State.startWrite_only _ _) rfl ?_
            exact h9
          · exact h7
        · exact h2
      · exact h2
    · rename_i y10 y11
      exact h2
  · exact Only.refl _ _

theorem State.applyWrite_only : ∀ s a1, Only [.out, .log, .nvm, .nvs, .inst, .fn, .cmds, .due, .fss, .mch, .fetches, .rate] s (State.applyWrite s a1) := by
  intro s a1
  unfold State.applyWrite
  extract_lets x1 x2 x3 x4 x5
  refine Only.cut (t := x3) ?_ (fun h6 => ?_)
  · unfold x3
    refine Only.forEach (fun a7 t8 h9 => ?_) ?_
    · refine Only.via (State.jUpdate_only _ _) rfl ?_
      refine Only.via (State.mapPut_only _ _ _ _) rfl ?_
      exact h9
    · exact Only.refl _ _
  refine Only.cut (t := x4) ?_ (fun h10 => ?_)
  · unfold x4
    refine Only.via (State.refreshUsed_only _ _) rfl ?_
    exact h6
  refine Only.cut (t := x5) ?_ (fun h11 => ?_)
  · unfold x5
    refine Only.via (State.count_only _ _ _) rfl ?_
    exact h10
  refine Only.via (State.complete_only _ _ _ _ _) rfl ?_
  exact h11

theorem State.endWrite_only : ∀ s a1, Only [.out, .log, .nvm, .nvs, .inst, .fn, .cmds, .due, .fss, .mch, .fetches, .rate] s (State.endWrite s a1) := by
  intro s a1
  unfold State.endWrite
  split
  · rename_i y1 y2 y3
    refine Only.ite (fun _ => ?_) (fun _ => ?_)
    · refine Only.via (State.applyWrite_only _ _) rfl ?_
      exact Only.refl _ _
    · exact Only.refl _ _
  · rename_i y4 y5
    exact Only.refl _ _

theorem execWriteSpaceWaitTimeout_only : ∀ a0 s z, Only [.out, .log, .nvm, .nvs, .inst, .fn, .cmds, .due, .rate] s (runRow (execWriteSpaceWaitTimeout a0 s) z) := by
  intro a0 s z
  unfold execWriteSpaceWaitTimeout
  rw [runRow_next]
  refine Only.whenServing (fun t1 h2 => ?_) ?_
  · split
    · rename_i y3 y4 y5
      refine Only.ite (fun _ => ?_) (fun _ => ?_)
      · refine Only.via (State.logEv_only _ _ _ _) rfl ?_
        refine Only.via (State.complete_only _ _ _ _ _) rfl ?_
        exact h2
      · exact h2
    · rename_i y6 y7
      exact h2
  · exact Only.refl _ _

theorem execDiscard_only : ∀ a0 s z, Only [.out, .log, .nvm, .nvs, .inst, .fn, .cmds, .due, .fss, .mch, .fetches, .rate] s (runRow (execDiscard a0 s) z) := by
  intro a0 s z
  unfold execDiscard
  rw [runRow_next]
  refine Only.withCmd (fun c1 t2 h3 => ?_) ?_
  · extract_lets x4 x5 x6 x7 x8 x9
    refine Only.cut (t := x4) ?_ (fun h10 => ?_)
    · unfold x4
      refine Only.via (State.touchRun_only _ _ _ _) rfl ?_
      exact h3
    refine Only.cut (t := x8) ?_ (fun h11 => ?_)
    · unfold x8
      refine Only.forEach (fun a12 t13 h14 => ?_) ?_
      · refine Only.via (State.mapPut_only _ _ _ _) rfl ?_
        exact h14
      · exact h10
    refine Only.cut (t := x9) ?_ (fun h15 => ?_)
    · unfold x9
      refine Only.via (State.jUpdate_only _ _) rfl ?_
      exact h11
    split
    · rename_i y16 y17 y18
      refine Only.via (State.complete_only _ _ _ _ _) rfl ?_
      exact h10
    · rename_i y19 y20
      refine Only.via (State.complete_only _ _ _ _ _) rfl ?_
      refine Only.via (State.refreshUsed_only _ _) rfl ?_
      refine Only.via (State.dropEmptyLeaves_only _ _) rfl ?_
      exact h15
  · exact Only.refl _ _

theorem execFlush_only : ∀ a0 s z, Only [.cmds] s (runRow (execFlush a0 s) z) := by
  intro a0 s z
  unfold execFlush
  rw [runRow_next]
  refine Only.withCmd (fun c1 t2 h3 => ?_) ?_
  · refine Only.ite (fun _ => ?_) (fun _ => ?_)
    · exact h3
    · refine Only.via (State.completeFlushed_only _ _ _) rfl ?_
      exact h3
  · exact Only.refl _ _

theorem execCommitSegment_only : ∀ a0 s z, Only [.out, .log, .nvm, .nvs, .inst, .fn, .cmds, .due, .fss, .mch, .fetches, .rate] s (runRow (execCommitSegment a0 s) z) := by
  intro a0 s z
  unfold execCommitSegment
  rw [runRow_next]
  refine Only.withCmd (fun c1 t2 h3 => ?_) ?_
  · extract_lets x4 x5 x6 x7 x8 x9 x10 x11 x12 x13 x14 x15
    refine Only.cut (t := x9) ?_ (fun h16 => ?_)
    · unfold x9
      refine Only.via (State.touchRun_only _ _ _ _) rfl ?_
      exact h3
    refine Only.cut (t := x13) ?_ (fun h17 => ?_)
    · unfold x13
      refine Only.via (Only.set_fss _ _) rfl ?_
      exact h16
    refine Only.cut (t := x14) ?_ (fun h18 => ?_)
    · unfold x14
      refine Only.via (State.modInst_only _ _ _) rfl ?_
      exact h17
    refine Only.cut (t := x15) ?_ (fun h19 => ?_)
    · unfold x15
      refine Only.via (State.noteWaiting_only _) rfl ?_
      refine Only.via (State.refreshUsed_only _ _) rfl ?_
      refine Only.via (State.jAdd_only _ _) rfl ?_
      exact h18
    refine Only.ite (fun _ => ?_) (fun _ => ?_)
    · refine Only.via (State.complete_only _ _ _ _ _) rfl ?_
      exact h3
    · refine Only.via (State.completeFlushed_only _ _ _) rfl ?_
      exact h19
  · exact Only.refl _ _

theorem State.report_only : ∀ s a1 a2 a3, Only [.out, .log, .nvm, .nvs, .inst, .fn, .cmds, .due, .rate] s (State.report s a1 a2 a3) := by
  intro s a1 a2 a3
  unfold State.report
  refine Only.ite (fun _ => ?_) (fun _ => ?_)
  · refine Only.via (State.complete_only _ _ _ _ _) rfl ?_
    refine Only.via (State.writeOut_only _ _ _) rfl ?_
    exact Only.refl _ _
  · exact Only.refl _ _

theorem execGetLog_only : ∀ a0 s z, Only [.out, .log, .nvm, .nvs, .inst, .fn, .cmds, .due, .rate] s (runRow (execGetLog a0 s) z) := by
  intro a0 s z
  unfold execGetLog
  rw [runRow_next]
  refine Only.withCmd (fun c1 t2 h3 => ?_) ?_
  · extract_lets x4 x5 x6 x7
    refine Only.via (State.report_only _ _ _ _) rfl ?_
    exact h3
  · exact Only.refl _ _

theorem execGetUsage_only : ∀ a0 s z, Only [.out, .log, .nvm, .nvs, .inst, .fn, .cmds, .due, .rate] s (runRow (execGetUsage a0 s) z) := by
  intro a0 s z
  unfold execGetUsage
  rw [runRow_next]
  refine Only.withCmd (fun c1 t2 h3 => ?_) ?_
  · extract_lets x4 x5
    refine Only.via (State.report_only _ _ _ _) rfl ?_
    exact h3
  · exact Only.refl _ _

theorem execLogFoldFlush_only : ∀ s z, Only [.out, .log, .nvm, .nvs, .fn] s (runRow (execLogFoldFlush s) z) := by
  intro s z
  unfold execLogFoldFlush
  rw [runRow_next]
  refine Only.whenRunning (fun t1 h2 => ?_) ?_
  · extract_lets x3 x4 x5
    refine Only.cut (t := x5) ?_ (fun h6 => ?_)
    · unfold x5
      refine Only.via (Only.set_log _ _) rfl ?_
      exact h2
    refine Only.forEach (fun a7 t8 h9 => ?_) ?_
    · refine Only.ite (fun _ => ?_) (fun _ => ?_)
      · exact h9
      · refine Only.via (State.logWrite_only _ _ _ _ _) rfl ?_
        exact h9
    · exact h6
  · exact Only.refl _ _

theorem State.mirrorOne_only : ∀ s, Only [.log, .inst, .fss] s (State.mirrorOne s) := by
  intro s
  unfold State.mirrorOne
  extract_lets x1 x2 x3 x4
  split
  rename_i y5 y6 y7 y8
  extract_lets x9
  split
  · rename_i y10 y11 y12 y13
    extract_lets x14 x15 x16
    refine Only.cut (t := x14) ?_ (fun h17 => ?_)
    · unfold x14
      refine Only.via (State.jAdd_only _ _) rfl ?_
      refine Only.ofSome y13 (State.putUnit_only _ _ _) rfl ?_
      refine Only.ofPair y8 ?_
      refine Only.via (State.takeSeq_only _ _) rfl ?_
      exact Only.refl _ _
    refine Only.via (Only.set_log_fss _ _ _) rfl ?_
    exact h17
  · rename_i y18 y19
    refine Only.ofPair y8 ?_
    refine Only.via (State.takeSeq_only _ _) rfl ?_
    exact Only.refl _ _

theorem execLogMirrorWrite_only : ∀ s z, Only [.log, .inst, .fss] s (runRow (execLogMirrorWrite s) z) := by
  intro s z
  unfold execLogMirrorWrite
  rw [runRow_next]
  refine Only.whenRunning (fun t1 h2 => ?_) ?_
  · refine Only.ite (fun _ => ?_) (fun _ => ?_)
    · refine Only.via (State.mirrorOne_only _) rfl ?_
      exact h2
    · exact h2
  · exact Only.refl _ _

theorem execLogNvmWrite_only : ∀ s z, Only [.log, .nvm, .nvs] s (runRow (execLogNvmWrite s) z) := by
  intro s z
  unfold execLogNvmWrite
  rw [runRow_next]
  refine Only.whenRunning (fun t1 h2 => ?_) ?_
  · refine Only.via (State.critOne_only _) rfl ?_
    exact h2
  · exact Only.refl _ _

theorem execLastAliveWrite_only : ∀ s z, Only [.nvm, .nvs] s (runRow (execLastAliveWrite s) z) := by
  intro s z
  unfold execLastAliveWrite
  rw [runRow_next]
  refine Only.whenRunning (fun t1 h2 => ?_) ?_
  · refine Only.ite (fun _ => ?_) (fun _ => ?_)
    · refine Only.via (State.ctrStore_only _ _ _) rfl ?_
      exact h2
    · exact h2
  · exact Only.refl _ _

theorem execMonoFloorWrite_only : ∀ s z, Only [.nvm, .nvs] s (runRow (execMonoFloorWrite s) z) := by
  intro s z
  unfold execMonoFloorWrite
  rw [runRow_next]
  refine Only.whenRunning (fun t1 h2 => ?_) ?_
  · refine Only.ite (fun _ => ?_) (fun _ => ?_)
    · refine Only.via (State.ctrStore_only _ _ _) rfl ?_
      exact h2
    · exact h2
  · exact Only.refl _ _

theorem State.mapSegs_only : ∀ s a1, Only [.fss] s (State.mapSegs s a1) := by
  intro s a1
  unfold State.mapSegs
  refine Only.via (Only.set_fss _ _) rfl ?_
  exact Only.refl _ _

theorem State.mapBands_only : ∀ s a1, Only [.fss] s (State.mapBands s a1) := by
  intro s a1
  unfold State.mapBands
  refine Only.via (Only.set_fss _ _) rfl ?_
  exact Only.refl _ _

theorem State.mapPages_only : ∀ s a1, Only [.fss] s (State.mapPages s a1) := by
  intro s a1
  unfold State.mapPages
  refine Only.via (Only.set_fss _ _) rfl ?_
  exact Only.refl _ _

theorem State.mapCmds_only : ∀ s a1, Only [.cmds] s (State.mapCmds s a1) := by
  intro s a1
  unfold State.mapCmds
  refine Only.via (Only.set_cmds _ _) rfl ?_
  exact Only.refl _ _

theorem State.retarget_only : ∀ s a1 a2 a3 a4, Only [.fss] s (State.retarget s a1 a2 a3 a4) := by
  intro s a1 a2 a3 a4
  unfold State.retarget
  refine Only.via (State.mapSegs_only _ _) rfl ?_
  exact Only.refl _ _

theorem State.moveLive_only : ∀ s a1 a2, Only [.out, .inst, .fss, .mch, .fetches] s (State.moveLive s a1 a2) := by
  intro s a1 a2
  unfold State.moveLive
  refine Only.ite (fun _ => ?_) (fun _ => ?_)
  · exact Only.refl _ _
  · extract_lets x1
    split
    · rename_i y2 y3 y4
      exact Only.refl _ _
    · rename_i y5 y6 y7 y8 y9
      refine Only.ite (fun _ => ?_) (fun _ => ?_)
      · refine Only.ite (fun _ => ?_) (fun _ => ?_)
        · refine Only.via (State.jUpdate_only _ _) rfl ?_
          refine Only.via (State.mapStore_only _ _ _ _) rfl ?_
          refine Only.ofSome y9 (State.putUnit_only _ _ _) rfl ?_
          exact Only.refl _ _
        · refine Only.via (State.jUpdate_only _ _) rfl ?_
          refine Only.via (State.retarget_only _ _ _ _ _) rfl ?_
          refine Only.ofSome y9 (State.putUnit_only _ _ _) rfl ?_
          exact Only.refl _ _
      · refine Only.ite (fun _ => ?_) (fun _ => ?_)
        · refine Only.via (State.jAdd_only _ _) rfl ?_
          refine Only.via (Only.set_fss _ _) rfl ?_
          refine Only.ofSome y9 (State.putUnit_only _ _ _) rfl ?_
          exact Only.refl _ _
        · split
          · rename_i y10 y11 y12 y13 y14
            refine Only.via (State.jAdd_only _ _) rfl ?_
            refine Only.via (State.setLeaf_only _ _ _) rfl ?_
            refine Only.ofSome y9 (State.putUnit_only _ _ _) rfl ?_
            exact Only.refl _ _
          · rename_i y15 y16 y17 y18
            refine Only.ofSome y9 (State.putUnit_only _ _ _) rfl ?_
            exact Only.refl _ _

theorem State.retargetUnit_only : ∀ s a1 a2, Only [.fss] s (State.retargetUnit s a1 a2) := by
  intro s a1 a2
  unfold State.retargetUnit
  refine Only.via (Only.set_fss _ _) rfl ?_
  exact Only.refl _ _

theorem State.rewrite_only : ∀ s a1 a2 a3, Only [.out, .inst, .cmds, .fss, .mch, .fetches] s (State.rewrite s a1 a2 a3) := by
  intro s a1 a2 a3
  unfold State.rewrite
  extract_lets x1
  refine Only.ite (fun _ => ?_) (fun _ => ?_)
  · refine Only.via (State.moveLive_only _ _ _) rfl ?_
    exact Only.refl _ _
  · refine Only.ite (fun _ => ?_) (fun _ => ?_)
    · split
      · rename_i y2 y3 y4 y5 y6 y7
        refine Only.via (State.retargetUnit_only _ _ _) rfl ?_
        refine Only.ofSome y7 (State.putUnit_only _ _ _) rfl ?_
        exact Only.refl _ _
      · rename_i y8 y9 y10 y11
        exact Only.refl _ _
    · split
      · rename_i y12 y13 y14 y15 y16 y17
        extract_lets x18
        refine Only.cut (t := x18) ?_ (fun h19 => ?_)
        · unfold x18
          refine Only.via (State.mapCmds_only _ _) rfl ?_
          refine Only.ofSome y17 (State.addUnit_only _ _ _ _) rfl ?_
          exact Only.refl _ _
        refine Only.via (State.mapPages_only _ _) rfl ?_
        exact h19
      · rename_i y20 y21 y22 y23
        exact Only.refl _ _

theorem State.rewriteAll_only : ∀ s a1 a2 a3, Only [.out, .inst, .cmds, .fss, .mch, .fetches] s (State.rewriteAll s a1 a2 a3) := by
  intro s a1 a2 a3
  induction a3 generalizing s a1 a2 with
  | nil =>
    rw [State.rewriteAll]
    exact Only.refl _ _
  | cons b r ih =>
    rw [State.rewriteAll]
    refine Only.via (ih _ _ _) rfl ?_
    refine Only.via (State.rewrite_only _ _ _ _) rfl ?_
    exact Only.refl _ _

theorem State.refill_only : ∀ s a1, Only [.out, .inst, .cmds, .fss, .mch, .fetches] s (State.refill s a1) := by
  intro s a1
  unfold State.refill
  refine Only.forEach (fun a1 t2 h3 => ?_) ?_
  · refine Only.via (State.rewriteAll_only _ _ _ _) rfl ?_
    exact h3
  · refine Only.via (Only.set_fss _ _) rfl ?_
    exact Only.refl _ _

theorem State.loseLeaf_only : ∀ s a1, Only [.out, .inst, .fn, .fss, .mch, .fetches] s (State.loseLeaf s a1) := by
  intro s a1
  unfold State.loseLeaf
  extract_lets x1 x2
  refine Only.via (State.refreshUsed_only _ _) rfl ?_
  refine Only.forEach (fun a3 t4 h5 => ?_) ?_
  · extract_lets x6
    refine Only.via (State.jAdd_only _ _) rfl ?_
    refine Only.via (State.mapStore_only _ _ _ _) rfl ?_
    refine Only.via (State.mapSegs_only _ _) rfl ?_
    exact h5
  · exact Only.refl _ _

theorem State.loseUnit_only : ∀ s a1, Only [.out, .log, .nvm, .nvs, .inst, .fn, .fss, .mch, .fetches] s (State.loseUnit s a1) := by
  intro s a1
  unfold State.loseUnit
  extract_lets x1 x2 x3 x4
  refine Only.cut (t := x2) ?_ (fun h5 => ?_)
  · unfold x2
    refine Only.via (State.mapSegs_only _ _) rfl ?_
    exact Only.refl _ _
  refine Only.cut (t := x3) ?_ (fun h6 => ?_)
  · unfold x3
    refine Only.ite (fun _ => ?_) (fun _ => ?_)
    · refine Only.via (State.jAdd_only _ _) rfl ?_
      refine Only.via (State.mapStore_only _ _ _ _) rfl ?_
      exact h5
    · refine Only.via (State.jAdd_only _ _) rfl ?_
      refine Only.via (State.mapSegs_only _ _) rfl ?_
      exact Only.refl _ _
  refine Only.ite (fun _ => ?_) (fun _ => ?_)
  · refine Only.via (State.logEv_only _ _ _ _) rfl ?_
    refine Only.via (State.refreshUsed_only _ _) rfl ?_
    refine Only.via (Only.set_fss _ _) rfl ?_
    exact h6
  · split
    · rename_i y7 y8 y9 y10
      extract_lets x11 x12 x13
      refine Only.cut (t := x12) ?_ (fun h14 => ?_)
      · unfold x12
        refine Only.via (State.touchLeaf_only _ _) rfl ?_
        exact Only.refl _ _
      refine Only.ite (fun _ => ?_) (fun _ => ?_)
      · refine Only.via (State.loseLeaf_only _ _) rfl ?_
        exact Only.refl _ _
      · refine Only.via (State.setLeaf_only _ _ _) rfl ?_
        exact h14
    · rename_i y15 y16 y17
      exact Only.refl _ _

theorem State.modDie_only : ∀ s a1 a2, Only [.fss] s (State.modDie s a1 a2) := by
  intro s a1 a2
  unfold State.modDie
  refine Only.via (Only.set_fss _ _) rfl ?_
  exact Only.refl _ _

theorem State.dieOk_only : ∀ s a1, Only [.fss] s (State.dieOk s a1) := by
  intro s a1
  unfold State.dieOk
  refine Only.via (State.modDie_only _ _ _) rfl ?_
  exact Only.refl _ _

theorem State.dieFail_only : ∀ s a1, Only [.out, .log, .nvm, .nvs, .inst, .fn, .cmds, .fss, .mch, .fetches] s (State.dieFail s a1) := by
  intro s a1
  unfold State.dieFail
  refine Only.ite (fun _ => ?_) (fun _ => ?_)
  · exact Only.refl _ _
  · extract_lets x1 x2 x3
    refine Only.cut (t := x1) ?_ (fun h4 => ?_)
    · unfold x1
      refine Only.via (State.jAdd_only _ _) rfl ?_
      refine Only.via (State.modDie_only _ _ _) rfl ?_
      exact Only.refl _ _
    refine Only.cut (t := x3) ?_ (fun h5 => ?_)
    · unfold x3
      refine Only.via (State.mapBands_only _ _) rfl ?_
      refine Only.via (Only.set_fss _ _) rfl ?_
      exact h4
    refine Only.via (State.note_only _ _ _) rfl ?_
    refine Only.via (State.recap_only _) rfl ?_
    refine Only.via (State.refill_only _ _) rfl ?_
    exact h5

theorem State.retireBlock_only : ∀ s a1 a2 a3, Only [.out, .log, .nvm, .nvs, .inst, .fn, .cmds, .fss, .mch, .fetches] s (State.retireBlock s a1 a2 a3) := by
  intro s a1 a2 a3
  unfold State.retireBlock
  refine Only.ite (fun _ => ?_) (fun _ => ?_)
  · exact Only.refl _ _
  · extract_lets x1 x2 x3 x4 x5 x6 x7 x8
    refine Only.cut (t := x2) ?_ (fun h9 => ?_)
    · unfold x2
      refine Only.via (State.jAdd_only _ _) rfl ?_
      refine Only.via (State.setBlock_only _ _ _ _) rfl ?_
      exact Only.refl _ _
    refine Only.cut (t := x4) ?_ (fun h10 => ?_)
    · unfold x4
      refine Only.via (State.mapBands_only _ _) rfl ?_
      refine Only.via (Only.set_fss _ _) rfl ?_
      exact h9
    refine Only.cut (t := x5) ?_ (fun h11 => ?_)
    · unfold x5
      refine Only.via (State.refill_only _ _) rfl ?_
      exact h10
    refine Only.cut (t := x7) ?_ (fun h12 => ?_)
    · unfold x7
      refine Only.via (State.modDie_only _ _ _) rfl ?_
      exact h11
    refine Only.cut (t := x8) ?_ (fun h13 => ?_)
    · unfold x8
      refine Only.via (State.note_only _ _ _) rfl ?_
      exact h12
    refine Only.ite (fun _ => ?_) (fun _ => ?_)
    · refine Only.via (State.dieFail_only _ _) rfl ?_
      exact h13
    · exact h13

theorem State.recoverUnit_only : ∀ s a1 a2 a3, Only [.out, .tm, .hlt, .log, .nvm, .nvs, .sec, .inst, .fn, .cmds, .oldOps, .due, .reads, .fss, .sea, .mch, .fetches, .drives, .pwb, .cal, .mon] s (State.recoverUnit s a1 a2 a3) := by
  intro s a1 a2 a3
  unfold State.recoverUnit
  split
  · rename_i y1
    exact Only.refl _ _
  · rename_i y2
    exact Only.refl _ _
  · rename_i y3
    refine Only.via (State.moveLive_only _ _ _) rfl ?_
    refine Only.via (Only.set_fss _ _) rfl ?_
    exact Only.refl _ _
  · rename_i y4
    refine Only.via (State.note_only _ _ _) rfl ?_
    refine Only.via (State.moveLive_only _ _ _) rfl ?_
    refine Only.via (Only.set_fss _ _) rfl ?_
    exact Only.refl _ _
  · rename_i y5
    refine Only.via (State.note_only _ _ _) rfl ?_
    refine Only.via (State.moveLive_only _ _ _) rfl ?_
    refine Only.via (Only.set_sea _ _) rfl ?_
    exact Only.refl _ _
  · rename_i y6
    refine Only.via (State.haltBy_only _ _) rfl ?_
    exact Only.refl _ _
  · rename_i y7
    refine Only.via (State.loseUnit_only _ _) rfl ?_
    exact Only.refl _ _

theorem State.moveRead_only : ∀ s a1 a2, Only [.out, .tm, .hlt, .log, .nvm, .nvs, .sec, .inst, .fn, .cmds, .oldOps, .due, .reads, .fss, .sea, .mch, .fetches, .drives, .pwb, .cal, .mon] s (State.moveRead s a1 a2) := by
  intro s a1 a2
  unfold State.moveRead
  split
  · rename_i y1 y2
    refine Only.via (State.moveLive_only _ _ _) rfl ?_
    exact Only.refl _ _
  · rename_i y3 y4
    refine Only.via (State.moveLive_only _ _ _) rfl ?_
    exact Only.refl _ _
  · rename_i y5 y6 y7
    refine Only.via (State.recoverUnit_only _ _ _ _) rfl ?_
    exact Only.refl _ _

theorem State.moveAll_only : ∀ s a1 a2, Only [.out, .tm, .hlt, .log, .nvm, .nvs, .sec, .inst, .fn, .cmds, .oldOps, .due, .reads, .fss, .sea, .mch, .fetches, .drives, .pwb, .cal, .mon] s (State.moveAll s a1 a2) := by
  intro s a1 a2
  unfold State.moveAll
  refine Only.forEach (fun a1 t2 h3 => ?_) ?_
  · refine Only.ite (fun _ => ?_) (fun _ => ?_)
    · refine Only.via (State.moveRead_only _ _ _) rfl ?_
      exact h3
    · exact h3
  · exact Only.refl _ _

theorem State.emptyBlock_only : ∀ s a1 a2, Only [.out, .tm, .hlt, .log, .nvm, .nvs, .sec, .inst, .fn, .cmds, .oldOps, .due, .reads, .fss, .sea, .mch, .fetches, .drives, .pwb, .cal, .mon] s (State.emptyBlock s a1 a2) := by
  intro s a1 a2
  unfold State.emptyBlock
  extract_lets x1 x2 x3 x4 x5
  refine Only.cut (t := x1) ?_ (fun h6 => ?_)
  · unfold x1
    split
    · rename_i y7 y8 y9
      refine Only.ite (fun _ => ?_) (fun _ => ?_)
      · refine Only.via (State.closeBand_only _ _) rfl ?_
        exact Only.refl _ _
      · exact Only.refl _ _
    · rename_i y10 y11
      exact Only.refl _ _
  refine Only.cut (t := x2) ?_ (fun h12 => ?_)
  · unfold x2
    refine Only.via (State.mapBands_only _ _) rfl ?_
    exact h6
  refine Only.cut (t := x3) ?_ (fun h13 => ?_)
  · unfold x3
    refine Only.via (State.refill_only _ _) rfl ?_
    exact h12
  refine Only.cut (t := x4) ?_ (fun h14 => ?_)
  · unfold x4
    refine Only.via (State.moveAll_only _ _ _) rfl ?_
    exact h13
  refine Only.ite (fun _ => ?_) (fun _ => ?_)
  · exact h14
  · refine Only.via (State.mapBands_only _ _) rfl ?_
    refine Only.via (Only.set_fss _ _) rfl ?_
    exact h14

theorem State.issueParity_only : ∀ s, Only [.fss] s (State.issueParity s) := by
  intro s
  unfold State.issueParity
  refine Only.forEach (fun a1 t2 h3 => ?_) ?_
  · refine Only.forEach (fun a4 t5 h6 => ?_) ?_
    · extract_lets x7 x8
      refine Only.ite (fun _ => ?_) (fun _ => ?_)
      · exact h6
      · refine Only.via (Only.set_fss _ _) rfl ?_
        exact h6
    · exact h3
  · exact Only.refl _ _

theorem State.parityDone_only : ∀ s a1, Only [.fss] s (State.parityDone s a1) := by
  intro s a1
  unfold State.parityDone
  refine Only.via (State.mapBands_only _ _) rfl ?_
  exact Only.refl _ _

theorem State.durMark_only : ∀ s a1 a2 a3, Only [.inst] s (State.durMark s a1 a2 a3) := by
  intro s a1 a2 a3
  unfold State.durMark
  refine Only.via (State.modInst_only _ _ _) rfl ?_
  exact Only.refl _ _

theorem State.rootLanded_only : ∀ s, Only [.inst, .fss] s (State.rootLanded s) := by
  intro s
  unfold State.rootLanded
  split
  · rename_i y1 y2
    exact Only.refl _ _
  · rename_i y3 y4 y5
    extract_lets x6 x7
    refine Only.cut (t := x6) ?_ (fun h8 => ?_)
    · unfold x6
      refine Only.forEach (fun a9 t10 h11 => ?_) ?_
      · refine Only.forEach (fun a12 t13 h14 => ?_) ?_
        · refine Only.ite (fun _ => ?_) (fun _ => ?_)
          · refine Only.via (State.setBlock_only _ _ _ _) rfl ?_
            exact h14
          · exact h14
        · exact h11
      · exact Only.refl _ _
    refine Only.cut (t := x7) ?_ (fun h15 => ?_)
    · unfold x7
      refine Only.forEach (fun a16 t17 h18 => ?_) ?_
      · refine Only.via (State.durMark_only _ _ _ _) rfl ?_
        exact h18
      · exact h8
    refine Only.via (Only.set_fss _ _) rfl ?_
    exact h15

theorem State.pageDone_only : ∀ s a1, Only [.out, .log, .nvm, .nvs, .inst, .fn, .cmds, .due, .fss, .mch, .fetches, .rate] s (State.pageDone s a1) := by
  intro s a1
  unfold State.pageDone
  extract_lets x1 x2 x3 x4 x5
  refine Only.cut (t := x2) ?_ (fun h6 => ?_)
  · unfold x2
    refine Only.via (Only.set_fss _ _) rfl ?_
    exact Only.refl _ _
  refine Only.cut (t := x3) ?_ (fun h7 => ?_)
  · unfold x3
    refine Only.via (State.dieOk_only _ _) rfl ?_
    refine Only.via (State.storeUnits_only _ _ _) rfl ?_
    exact h6
  refine Only.cut (t := x4) ?_ (fun h8 => ?_)
  · unfold x4
    refine Only.ite (fun _ => ?_) (fun _ => ?_)
    · refine Only.via (State.parityDone_only _ _) rfl ?_
      exact h7
    · exact h7
  refine Only.cut (t := x5) ?_ (fun h9 => ?_)
  · unfold x5
    refine Only.ite (fun _ => ?_) (fun _ => ?_)
    · refine Only.via (State.rootLanded_only _) rfl ?_
      exact h8
    · exact h8
  refine Only.via (State.issueParity_only _) rfl ?_
  refine Only.forEach (fun a10 t11 h12 => ?_) ?_
  · refine Only.via (State.endWrite_only _ _) rfl ?_
    exact h12
  · exact h9

theorem execNandPageProgramDone_only : ∀ a0 s z, Only [.out, .log, .nvm, .nvs, .link, .inst, .fn, .cmds, .due, .reads, .nextTag, .lastFn, .fss, .mch, .fetches, .rate] s (runRow (execNandPageProgramDone a0 s) z) := by
  intro a0 s z
  unfold execNandPageProgramDone
  rw [runRow_next]
  refine Only.whenRunning (fun t1 h2 => ?_) ?_
  · split
    · rename_i y3 y4 y5
      refine Only.via (State.pump_only _) rfl ?_
      refine Only.via (State.pageDone_only _ _) rfl ?_
      exact h2
    · rename_i y6 y7
      exact h2
  · exact Only.refl _ _

theorem execPageWaitTimeout_only : ∀ a0 s z, Only [.fss] s (runRow (execPageWaitTimeout a0 s) z) := by
  intro a0 s z
  unfold execPageWaitTimeout
  rw [runRow_next]
  refine Only.whenRunning (fun t1 h2 => ?_) ?_
  · refine Only.ite (fun _ => ?_) (fun _ => ?_)
    · refine Only.via (State.issuePage_only _ _) rfl ?_
      exact h2
    · exact h2
  · exact Only.refl _ _

theorem execNandProgramFail_only : ∀ a0 s z, Only [.out, .log, .nvm, .nvs, .inst, .fn, .cmds, .fss, .mch, .fetches] s (runRow (execNandProgramFail a0 s) z) := by
  intro a0 s z
  unfold execNandProgramFail
  rw [runRow_next]
  refine Only.whenRunning (fun t1 h2 => ?_) ?_
  · split
    · rename_i y3 y4 y5
      extract_lets x6 x7 x8 x9 x10
      refine Only.cut (t := x9) ?_ (fun h11 => ?_)
      · unfold x9
        refine Only.via (State.mapBands_only _ _) rfl ?_
        refine Only.via (Only.set_fss _ _) rfl ?_
        exact h2
      refine Only.cut (t := x10) ?_ (fun h12 => ?_)
      · unfold x10
        refine Only.ite (fun _ => ?_) (fun _ => ?_)
        · refine Only.via (State.issuePage_only _ _) rfl ?_
          exact h11
        · exact h11
      refine Only.via (State.issueParity_only _) rfl ?_
      refine Only.via (State.rewriteAll_only _ _ _ _) rfl ?_
      refine Only.via (State.retireBlock_only _ _ _ _) rfl ?_
      exact h12
    · rename_i y13 y14
      exact h2
  · exact Only.refl _ _

theorem State.unband_only : ∀ s a1 a2, Only [.fss] s (State.unband s a1 a2) := by
  intro s a1 a2
  unfold State.unband
  extract_lets x1 x2
  refine Only.via (Only.set_fss _ _) rfl ?_
  exact Only.refl _ _

theorem State.staleErased_only : ∀ s a1 a2 a3, Only [.out, .log, .nvm, .nvs, .inst, .fn, .cmds, .fss, .mch, .fetches] s (State.staleErased s a1 a2 a3) := by
  intro s a1 a2 a3
  unfold State.staleErased
  extract_lets x1 x2
  refine Only.cut (t := x2) ?_ (fun h3 => ?_)
  · unfold x2
    refine Only.via (State.setBlock_only _ _ _ _) rfl ?_
    exact Only.refl _ _
  refine Only.ite (fun _ => ?_) (fun _ => ?_)
  · exact h3
  · refine Only.via (State.retireBlock_only _ _ _ _) rfl ?_
    exact h3

theorem execNandEraseDone_only : ∀ a0 a1 a2 s z, Only [.out, .log, .nvm, .nvs, .inst, .fn, .cmds, .fss, .mch, .fetches] s (runRow (execNandEraseDone a0 a1 a2 s) z) := by
  intro a0 a1 a2 s z
  unfold execNandEraseDone
  rw [runRow_next]
  refine Only.whenRunning (fun t1 h2 => ?_) ?_
  · extract_lets x3 x4 x5 x6 x7 x8 x9
    refine Only.cut (t := x5) ?_ (fun h10 => ?_)
    · unfold x5
      refine Only.via (State.dieOk_only _ _) rfl ?_
      refine Only.via (State.unband_only _ _ _) rfl ?_
      exact h2
    refine Only.cut (t := x7) ?_ (fun h11 => ?_)
    · unfold x7
      refine Only.via (Only.set_fss _ _) rfl ?_
      exact h10
    refine Only.cut (t := x9) ?_ (fun h12 => ?_)
    · unfold x9
      refine Only.via (State.setBlock_only _ _ _ _) rfl ?_
      exact h11
    refine Only.ite (fun _ => ?_) (fun _ => ?_)
    · exact h2
    · refine Only.ite (fun _ => ?_) (fun _ => ?_)
      · refine Only.via (State.staleErased_only _ _ _ _) rfl ?_
        refine Only.via (State.dieOk_only _ _) rfl ?_
        exact h2
      · refine Only.ite (fun _ => ?_) (fun _ => ?_)
        · exact h2
        · refine Only.ite (fun _ => ?_) (fun _ => ?_)
          · refine Only.via (State.retireBlock_only _ _ _ _) rfl ?_
            exact h12
          · refine Only.ite (fun _ => ?_) (fun _ => ?_)
            · refine Only.via (State.retireBlock_only _ _ _ _) rfl ?_
              exact h12
            · exact h12
  · exact Only.refl _ _

theorem State.settleUnit_only : ∀ s a1 a2, Only [.out, .log, .nvm, .nvs, .inst, .fn, .cmds, .due, .rate] s (State.settleUnit s a1 a2) := by
  intro s a1 a2
  unfold State.settleUnit
  refine Only.via (State.endReads_only _) rfl ?_
  refine Only.via (State.mapBlocks_only _ _ _) rfl ?_
  exact Only.refl _ _

theorem State.unitRead_only : ∀ s a1 a2, Only [.out, .tm, .hlt, .log, .nvm, .nvs, .sec, .inst, .fn, .cmds, .oldOps, .due, .reads, .fss, .sea, .mch, .fetches, .drives, .pwb, .cal, .mon, .rate] s (State.unitRead s a1 a2) := by
  intro s a1 a2
  unfold State.unitRead
  split
  · rename_i y1
    refine Only.via (State.settleUnit_only _ _ _) rfl ?_
    exact Only.refl _ _
  · rename_i y2
    refine Only.via (State.emptyBlock_only _ _ _) rfl ?_
    refine Only.via (State.settleUnit_only _ _ _) rfl ?_
    exact Only.refl _ _
  · rename_i y3
    refine Only.via (State.recoverUnit_only _ _ _ _) rfl ?_
    refine Only.via (State.settleUnit_only _ _ _) rfl ?_
    exact Only.refl _ _
  · rename_i y4
    refine Only.via (State.recoverUnit_only _ _ _ _) rfl ?_
    refine Only.via (State.settleUnit_only _ _ _) rfl ?_
    exact Only.refl _ _
  · rename_i y5
    refine Only.via (State.recoverUnit_only _ _ _ _) rfl ?_
    refine Only.via (State.settleUnit_only _ _ _) rfl ?_
    exact Only.refl _ _
  · rename_i y6
    refine Only.via (State.recoverUnit_only _ _ _ _) rfl ?_
    exact Only.refl _ _
  · rename_i y7
    refine Only.via (State.settleUnit_only _ _ _) rfl ?_
    refine Only.via (State.recoverUnit_only _ _ _ _) rfl ?_
    exact Only.refl _ _

theorem execNandReadDone_only : ∀ a0 a1 s z, Only [.out, .tm, .hlt, .log, .nvm, .nvs, .sec, .inst, .fn, .cmds, .oldOps, .due, .reads, .fss, .sea, .mch, .fetches, .drives, .pwb, .cal, .mon, .rate] s (runRow (execNandReadDone a0 a1 s) z) := by
  intro a0 a1 s z
  unfold execNandReadDone
  rw [runRow_next]
  refine Only.whenRunning (fun t1 h2 => ?_) ?_
  · refine Only.ite (fun _ => ?_) (fun _ => ?_)
    · exact h2
    · refine Only.via (State.unitRead_only _ _ _) rfl ?_
      refine Only.via (State.dieOk_only _ _) rfl ?_
      exact h2
  · exact Only.refl _ _

theorem execRefreshRead_only : ∀ a0 a1 a2 a3 s z, Only [.out, .tm, .hlt, .log, .nvm, .nvs, .sec, .inst, .fn, .cmds, .oldOps, .due, .reads, .fss, .sea, .mch, .fetches, .drives, .pwb, .cal, .mon, .rate] s (runRow (execRefreshRead a0 a1 a2 a3 s) z) := by
  intro a0 a1 a2 a3 s z
  unfold execRefreshRead
  rw [runRow_next]
  refine Only.whenRunning (fun t1 h2 => ?_) ?_
  · extract_lets x3 x4 x5 x6
    refine Only.cut (t := x6) ?_ (fun h7 => ?_)
    · unfold x6
      refine Only.forEach (fun a8 t9 h10 => ?_) ?_
      · refine Only.ite (fun _ => ?_) (fun _ => ?_)
        · refine Only.via (State.unitRead_only _ _ _) rfl ?_
          exact h10
        · exact h10
      · exact h2
    refine Only.ite (fun _ => ?_) (fun _ => ?_)
    · exact h2
    · refine Only.ite (fun _ => ?_) (fun _ => ?_)
      · refine Only.via (State.retireBlock_only _ _ _ _) rfl ?_
        refine Only.via (State.moveAll_only _ _ _) rfl ?_
        exact h7
      · exact h7
  · exact Only.refl _ _

theorem State.flushTail_only : ∀ s, Only [.fss] s (State.flushTail s) := by
  intro s
  unfold State.flushTail
  extract_lets x1 x2
  refine Only.cut (t := x1) ?_ (fun h3 => ?_)
  · unfold x1
    refine Only.forEach (fun a4 t5 h6 => ?_) ?_
    · refine Only.via (State.jAdd_only _ _) rfl ?_
      exact h6
    · exact Only.refl _ _
  refine Only.cut (t := x2) ?_ (fun h7 => ?_)
  · unfold x2
    refine Only.via (State.listBlocks_only _) rfl ?_
    exact h3
  refine Only.forEach (fun a8 t9 h10 => ?_) ?_
  · refine Only.via (State.jAdd_only _ _) rfl ?_
    exact h10
  · exact h7

theorem State.journalUnit_only : ∀ s a1, ∀ r, State.journalUnit s a1 = some r → Only [.inst, .fss] s r := by
  intro s a1 r hr
  unfold State.journalUnit at hr
  dsimp only at hr
  split at hr
  · cases hr
    rename_i heq
    exact Only.via (Only.set_fss _ _) rfl (Only.via (State.putUnit_only _ _ _ _ heq) rfl (Only.mono (State.takeSeq_only _ _) rfl))
  · cases hr

theorem State.journalRun_only : ∀ a0 s, ∀ r, State.journalRun a0 s = some r → Only [.inst, .fss] s r := by
  intro a0
  induction a0 with
  | nil =>
    intro s r hr
    cases hr
    exact Only.refl _ _
  | cons l rest ih =>
    intro s r hr
    rw [State.journalRun] at hr
    split at hr
    · rename_i t heq
      exact Only.trans (State.journalUnit_only _ _ _ heq) (ih _ _ hr)
    · cases hr

theorem State.flushOut_only : ∀ s, Only [.inst, .fss] s (State.flushOut s) := by
  intro s
  unfold State.flushOut
  extract_lets x1 x2
  refine Only.cut (t := x1) ?_ (fun h3 => ?_)
  · unfold x1
    refine Only.via (State.flushTail_only _) rfl ?_
    exact Only.refl _ _
  split
  · rename_i y4 y5
    exact Only.refl _ _
  · rename_i y6 y7 y8
    extract_lets x9 x10
    refine Only.cut (t := x9) ?_ (fun h11 => ?_)
    · unfold x9
      refine Only.via (State.issuePage_only _ _) rfl ?_
      refine Only.via (State.issuePage_only _ _) rfl ?_
      refine Only.via (State.issuePage_only _ _) rfl ?_
      refine Only.ofOpt y8 (State.journalRun_only _ _) rfl ?_
      refine Only.via (Only.set_fss _ _) rfl ?_
      exact h3
    refine Only.via (Only.set_fss _ _) rfl ?_
    exact h11

theorem execJournalFlush_only : ∀ s z, Only [.inst, .fss] s (runRow (execJournalFlush s) z) := by
  intro s z
  unfold execJournalFlush
  rw [runRow_next]
  refine Only.whenRunning (fun t1 h2 => ?_) ?_
  · refine Only.ite (fun _ => ?_) (fun _ => ?_)
    · exact h2
    · refine Only.via (State.flushOut_only _) rfl ?_
      exact h2
  · exact Only.refl _ _

theorem State.landEntry_only : ∀ s a1, Only [.inst] s (State.landEntry s a1) := by
  intro s a1
  unfold State.landEntry
  split
  · rename_i y1 y2 y3 y4
    refine Only.ite (fun _ => ?_) (fun _ => ?_)
    · refine Only.via (State.durMark_only _ _ _ _) rfl ?_
      exact Only.refl _ _
    · refine Only.via (State.durMark_only _ _ _ _) rfl ?_
      exact Only.refl _ _
  · rename_i y5 y6 y7 y8 y9 y10
    refine Only.via (State.durMark_only _ _ _ _) rfl ?_
    exact Only.refl _ _
  · rename_i y11 y12 y13
    exact Only.refl _ _

theorem State.flushLanded_only : ∀ s, Only [.inst, .fss] s (State.flushLanded s) := by
  intro s
  unfold State.flushLanded
  extract_lets x1 x2
  refine Only.forEach (fun a3 t4 h5 => ?_) ?_
  · refine Only.via (State.landEntry_only _ _) rfl ?_
    exact h5
  · refine Only.via (Only.set_fss _ _) rfl ?_
    exact Only.refl _ _

theorem State.beginErases_only : ∀ s, Only [.out, .tm, .hlt, .log, .nvm, .nvs, .sec, .inst, .fn, .cmds, .oldOps, .due, .reads, .fss, .sea, .mch, .fetches, .drives, .pwb, .cal, .mon] s (State.beginErases s) := by
  intro s
  unfold State.beginErases
  extract_lets x1 x2 x3 x4 x5 x6 x7 x8
  refine Only.cut (t := x7) ?_ (fun h9 => ?_)
  · unfold x7
    refine Only.via (Only.set_fss _ _) rfl ?_
    exact Only.refl _ _
  refine Only.cut (t := x8) ?_ (fun h10 => ?_)
  · unfold x8
    refine Only.forEach (fun a11 t12 h13 => ?_) ?_
    · refine Only.ite (fun _ => ?_) (fun _ => ?_)
      · refine Only.via (State.moveAll_only _ _ _) rfl ?_
        exact h13
      · exact h13
    · exact h9
  refine Only.forEach (fun a14 t15 h16 => ?_) ?_
  · refine Only.ite (fun _ => ?_) (fun _ => ?_)
    · refine Only.via (State.unband_only _ _ _) rfl ?_
      exact h16
    · refine Only.via (State.setBlock_only _ _ _ _) rfl ?_
      exact h16
  · exact h10

theorem State.finishFlushed_only : ∀ s, Only [.out, .log, .nvm, .nvs, .inst, .fn, .cmds, .due, .fss, .rate] s (State.finishFlushed s) := by
  intro s
  unfold State.finishFlushed
  refine Only.forEach (fun a1 t2 h3 => ?_) ?_
  · refine Only.ite (fun _ => ?_) (fun _ => ?_)
    · refine Only.via (State.finishManager_only _ _) rfl ?_
      exact h3
    · exact h3
  · exact Only.refl _ _

theorem execJournalFlushComplete_only : ∀ s z, Only [.out, .tm, .hlt, .log, .nvm, .nvs, .link, .sec, .inst, .fn, .cmds, .oldOps, .due, .reads, .nextTag, .lastFn, .fss, .sea, .mch, .fetches, .drives, .pwb, .cal, .mon, .rate] s (runRow (execJournalFlushComplete s) z) := by
  intro s z
  unfold execJournalFlushComplete
  rw [runRow_next]
  refine Only.whenRunning (fun t1 h2 => ?_) ?_
  · refine Only.ite (fun _ => ?_) (fun _ => ?_)
    · exact h2
    · refine Only.via (State.pump_only _) rfl ?_
      refine Only.via (State.beginErases_only _) rfl ?_
      refine Only.via (State.finishFlushed_only _) rfl ?_
      refine Only.via (State.flushLanded_only _) rfl ?_
      refine Only.forEach (fun a3 t4 h5 => ?_) ?_
      · refine Only.via (State.pageDone_only _ _) rfl ?_
        exact h5
      · exact h2
  · exact Only.refl _ _

theorem State.reserveSeqs_only : ∀ s, Only [.inst] s (State.reserveSeqs s) := by
  intro s
  unfold State.reserveSeqs
  refine Only.via (Only.set_inst _ _) rfl ?_
  exact Only.refl _ _

theorem State.putCkpt_only : ∀ s, ∀ r, State.putCkpt s = some r → Only [.inst, .fss] s r.2 := by
  intro s r hr
  unfold State.putCkpt at hr
  dsimp only at hr
  exact Only.via (State.putUnit_only _ _ _ _ hr) rfl (Only.via (State.bumpCkpt_only _) rfl (Only.mono (State.takeSeq_only _ _) rfl))

theorem State.putRoot_only : ∀ a0 s, ∀ r, State.putRoot a0 s = some r → Only [.inst, .fss] s r.2 := by
  intro a0
  induction a0 with
  | zero =>
    intro s r hr
    rw [State.putRoot] at hr
    exact State.putCkpt_only _ _ hr
  | succ n ih =>
    intro s r hr
    rw [State.putRoot] at hr
    split at hr
    · rename_i p t heq
      exact Only.trans (State.putCkpt_only _ _ heq) (ih _ _ hr)
    · cases hr

theorem State.writeRoot_only : ∀ s, Only [.inst, .fss] s (State.writeRoot s) := by
  intro s
  unfold State.writeRoot
  extract_lets x1
  refine Only.cut (t := x1) ?_ (fun h2 => ?_)
  · unfold x1
    refine Only.via (State.reserveSeqs_only _) rfl ?_
    exact Only.refl _ _
  split
  · rename_i y3 y4 y5 y6
    extract_lets x7 x8
    refine Only.cut (t := x7) ?_ (fun h9 => ?_)
    · unfold x7
      refine Only.via (State.issuePage_only _ _) rfl ?_
      refine Only.ofSome y6 (State.putRoot_only _ _) rfl ?_
      exact h2
    refine Only.via (Only.set_fss _ _) rfl ?_
    exact h9
  · rename_i y10 y11
    exact Only.refl _ _

theorem execRootCheckpoint_only : ∀ s z, Only [.inst, .fss] s (runRow (execRootCheckpoint s) z) := by
  intro s z
  unfold execRootCheckpoint
  rw [runRow_next]
  refine Only.whenRunning (fun t1 h2 => ?_) ?_
  · refine Only.ite (fun _ => ?_) (fun _ => ?_)
    · refine Only.via (State.writeRoot_only _) rfl ?_
      exact h2
    · exact h2
  · exact Only.refl _ _

theorem State.emptyBand_only : ∀ s a1 a2, Only [.out, .tm, .hlt, .log, .nvm, .nvs, .sec, .inst, .fn, .cmds, .oldOps, .due, .reads, .fss, .sea, .mch, .fetches, .drives, .pwb, .cal, .mon] s (State.emptyBand s a1 a2) := by
  intro s a1 a2
  unfold State.emptyBand
  extract_lets x1 x2
  refine Only.cut (t := x1) ?_ (fun h3 => ?_)
  · unfold x1
    refine Only.via (State.moveAll_only _ _ _) rfl ?_
    exact Only.refl _ _
  refine Only.ite (fun _ => ?_) (fun _ => ?_)
  · exact h3
  · refine Only.via (Only.set_fss _ _) rfl ?_
    exact h3

theorem execGarbageCollection_only : ∀ s z, Only [.out, .tm, .hlt, .log, .nvm, .nvs, .sec, .inst, .fn, .cmds, .oldOps, .due, .reads, .fss, .sea, .mch, .fetches, .drives, .pwb, .cal, .mon] s (runRow (execGarbageCollection s) z) := by
  intro s z
  unfold execGarbageCollection
  rw [runRow_next]
  refine Only.whenRunning (fun t1 h2 => ?_) ?_
  · refine Only.ite (fun _ => ?_) (fun _ => ?_)
    · exact h2
    · extract_lets x3 x4 x5
      refine Only.cut (t := x5) ?_ (fun h6 => ?_)
      · unfold x5
        refine Only.via (Only.set_fss _ _) rfl ?_
        exact h2
      refine Only.ite (fun _ => ?_) (fun _ => ?_)
      · split
        · rename_i y7 y8 y9 y10 y11
          refine Only.via (State.emptyBand_only _ _ _) rfl ?_
          exact h6
        · rename_i y12 y13 y14 y15
          exact h6
      · refine Only.via (Only.set_fss _ _) rfl ?_
        exact h2
  · exact Only.refl _ _

theorem execStaticWearLevelling_only : ∀ a0 s z, Only [.out, .tm, .hlt, .log, .nvm, .nvs, .sec, .inst, .fn, .cmds, .oldOps, .due, .reads, .fss, .sea, .mch, .fetches, .drives, .pwb, .cal, .mon] s (runRow (execStaticWearLevelling a0 s) z) := by
  intro a0 s z
  unfold execStaticWearLevelling
  rw [runRow_next]
  refine Only.whenRunning (fun t1 h2 => ?_) ?_
  · extract_lets x3
    refine Only.ite (fun _ => ?_) (fun _ => ?_)
    · split
      · rename_i y4 y5 y6 y7
        split
        · rename_i y8 y9 y10
          refine Only.via (State.emptyBand_only _ _ _) rfl ?_
          exact h2
        · rename_i y11 y12
          exact h2
      · rename_i y13 y14 y15
        exact h2
    · exact h2
  · exact Only.refl _ _

theorem execDieBusyTimeout_only : ∀ a0 s z, Only [.out, .log, .nvm, .nvs, .inst, .fn, .cmds, .fss, .mch, .fetches] s (runRow (execDieBusyTimeout a0 s) z) := by
  intro a0 s z
  unfold execDieBusyTimeout
  rw [runRow_next]
  refine Only.whenRunning (fun t1 h2 => ?_) ?_
  · extract_lets x3 x4
    refine Only.cut (t := x4) ?_ (fun h5 => ?_)
    · unfold x4
      refine Only.via (State.modDie_only _ _ _) rfl ?_
      exact h2
    refine Only.ite (fun _ => ?_) (fun _ => ?_)
    · exact h2
    · refine Only.ite (fun _ => ?_) (fun _ => ?_)
      · refine Only.via (State.dieFail_only _ _) rfl ?_
        exact h5
      · refine Only.via (State.emit_only _ _) rfl ?_
        exact h5
  · exact Only.refl _ _

theorem State.rebuildUnit_only : ∀ s a1 a2, Only [.out, .tm, .hlt, .log, .nvm, .nvs, .sec, .inst, .fn, .cmds, .oldOps, .due, .reads, .fss, .sea, .mch, .fetches, .drives, .pwb, .cal, .mon] s (State.rebuildUnit s a1 a2) := by
  intro s a1 a2
  unfold State.rebuildUnit
  split
  · rename_i y1 y2
    refine Only.via (State.loseUnit_only _ _) rfl ?_
    exact Only.refl _ _
  · rename_i y3 y4
    refine Only.via (State.recoverUnit_only _ _ _ _) rfl ?_
    exact Only.refl _ _
  · rename_i y5 y6 y7
    refine Only.ite (fun _ => ?_) (fun _ => ?_)
    · refine Only.via (State.loseUnit_only _ _) rfl ?_
      exact Only.refl _ _
    · extract_lets x8 x9
      refine Only.cut (t := x8) ?_ (fun h10 => ?_)
      · unfold x8
        refine Only.via (State.moveLive_only _ _ _) rfl ?_
        exact Only.refl _ _
      refine Only.ite (fun _ => ?_) (fun _ => ?_)
      · exact h10
      · refine Only.via (Only.set_fss _ _) rfl ?_
        exact h10

theorem execDieRebuildDone_only : ∀ a0 s z, Only [.out, .tm, .hlt, .log, .nvm, .nvs, .sec, .inst, .fn, .cmds, .oldOps, .due, .reads, .fss, .sea, .mch, .fetches, .drives, .pwb, .cal, .mon] s (runRow (execDieRebuildDone a0 s) z) := by
  intro a0 s z
  unfold execDieRebuildDone
  rw [runRow_next]
  refine Only.whenRunning (fun t1 h2 => ?_) ?_
  · refine Only.ite (fun _ => ?_) (fun _ => ?_)
    · exact h2
    · extract_lets x3 x4
      refine Only.cut (t := x3) ?_ (fun h5 => ?_)
      · unfold x3
        refine Only.forEach (fun a6 t7 h8 => ?_) ?_
        · refine Only.ite (fun _ => ?_) (fun _ => ?_)
          · refine Only.via (State.rebuildUnit_only _ _ _) rfl ?_
            exact h8
          · exact h8
        · exact h2
      refine Only.via (Only.set_fss _ _) rfl ?_
      exact h5
  · exact Only.refl _ _

theorem execZqCalibration_only : ∀ s z, Only [.out] s (runRow (execZqCalibration s) z) := by
  intro s z
  unfold execZqCalibration
  rw [runRow_next]
  refine Only.whenRunning (fun t1 h2 => ?_) ?_
  · refine Only.forBelow (fun a3 t4 h5 => ?_) ?_
    · refine Only.ite (fun _ => ?_) (fun _ => ?_)
      · refine Only.via (State.emit_only _ _) rfl ?_
        exact h5
      · exact h5
    · exact h2
  · exact Only.refl _ _

theorem State.dropRead_only : ∀ s a1, Only [.reads] s (State.dropRead s a1) := by
  intro s a1
  unfold State.dropRead
  refine Only.via (Only.set_reads _ _) rfl ?_
  exact Only.refl _ _

theorem State.readData_only : ∀ s a1 a2 a3, Only [.out, .regs, .tm, .hlt, .log, .nvm, .nvs, .link, .sec, .inst, .fn, .cmds, .nextCmd, .oldOps, .due, .reads, .nextTag, .lastFn, .fss, .sea, .mch, .fetches, .drives, .clk, .pwb, .cal, .mon, .rate] s (State.readData s a1 a2 a3) := by
  intro s a1 a2 a3
  unfold State.readData
  extract_lets x1
  split
  · rename_i y2 y3
    refine Only.via (State.doorbellData_only _ _ _) rfl ?_
    exact Only.refl _ _
  · rename_i y4 y5 y6
    refine Only.via (State.takeEntry_only _ _ _ _) rfl ?_
    exact Only.refl _ _
  · rename_i y7 y8 y9
    split
    · rename_i y10 y11 y12
      refine Only.via (State.pump_only _) rfl ?_
      refine Only.via (State.cmdData_only _ _ _) rfl ?_
      exact Only.refl _ _
    · rename_i y13 y14
      exact Only.refl _ _
  · rename_i y15 y16 y17
    split
    · rename_i y18 y19 y20
      refine Only.via (State.pump_only _) rfl ?_
      refine Only.via (State.cmdData_only _ _ _) rfl ?_
      exact Only.refl _ _
    · rename_i y21 y22
      exact Only.refl _ _
  · rename_i y23 y24
    exact Only.refl _ _
  · rename_i y25 y26 y27
    refine Only.via (State.leafData_only _ _ _ _ _) rfl ?_
    exact Only.refl _ _
  · rename_i y28 y29 y30
    refine Only.via (State.leafData_only _ _ _ _ _) rfl ?_
    exact Only.refl _ _

theorem execHostReadCompletion_only : ∀ a0 a1 a2 s z, Only [.out, .regs, .tm, .hlt, .log, .nvm, .nvs, .link, .sec, .inst, .fn, .cmds, .nextCmd, .oldOps, .due, .reads, .nextTag, .lastFn, .fss, .sea, .mch, .fetches, .drives, .clk, .pwb, .cal, .mon, .rate] s (runRow (execHostReadCompletion a0 a1 a2 s) z) := by
  intro a0 a1 a2 s z
  unfold execHostReadCompletion
  rw [runRow_next]
  refine Only.whenServing (fun t1 h2 => ?_) ?_
  · split
    · rename_i y3 y4 y5
      refine Only.via (State.readData_only _ _ _ _) rfl ?_
      refine Only.via (State.dropRead_only _ _) rfl ?_
      exact h2
    · rename_i y6 y7
      exact h2
  · exact Only.refl _ _

theorem State.cmdReadFail_only : ∀ s a1 a2, Only [.out, .log, .nvm, .nvs, .inst, .fn, .cmds, .due, .rate] s (State.cmdReadFail s a1 a2) := by
  intro s a1 a2
  unfold State.cmdReadFail
  split
  · rename_i y1 y2 y3
    refine Only.ite (fun _ => ?_) (fun _ => ?_)
    · refine Only.via (State.complete_only _ _ _ _ _) rfl ?_
      exact Only.refl _ _
    · exact Only.refl _ _
  · rename_i y4 y5
    exact Only.refl _ _

theorem State.readFail_only : ∀ s a1, Only [.out, .regs, .log, .nvm, .nvs, .inst, .fn, .cmds, .due, .reads, .dbErr, .sqErr, .fetches, .rate] s (State.readFail s a1) := by
  intro s a1
  unfold State.readFail
  split
  · rename_i y1 y2
    refine Only.via (State.doorbellFail_only _ _) rfl ?_
    exact Only.refl _ _
  · rename_i y3 y4 y5
    refine Only.via (State.entryFail_only _ _ _) rfl ?_
    exact Only.refl _ _
  · rename_i y6 y7 y8
    refine Only.via (State.cmdReadFail_only _ _ _) rfl ?_
    exact Only.refl _ _
  · rename_i y9 y10 y11
    refine Only.via (State.cmdReadFail_only _ _ _) rfl ?_
    exact Only.refl _ _
  · rename_i y12 y13
    exact Only.refl _ _
  · rename_i y14 y15 y16
    refine Only.via (State.leafFail_only _ _ _) rfl ?_
    exact Only.refl _ _
  · rename_i y17 y18 y19
    refine Only.via (State.leafFail_only _ _ _) rfl ?_
    exact Only.refl _ _

theorem State.aerReport_only : ∀ s a1 a2, Only [.out, .fn] s (State.aerReport s a1 a2) := by
  intro s a1 a2
  unfold State.aerReport
  refine Only.via (State.emit_only _ _) rfl ?_
  refine Only.via (State.modFn_only _ _ _) rfl ?_
  exact Only.refl _ _

theorem State.countReadFail_only : ∀ s a1 a2, Only [.out, .log, .nvm, .nvs, .link, .fn] s (State.countReadFail s a1 a2) := by
  intro s a1 a2
  unfold State.countReadFail
  extract_lets x1 x2
  refine Only.cut (t := x1) ?_ (fun h3 => ?_)
  · unfold x1
    refine Only.via (State.aerReport_only _ _ _) rfl ?_
    exact Only.refl _ _
  split
  · rename_i y4
    refine Only.via (State.logEv_only _ _ _ _) rfl ?_
    refine Only.via (Only.set_link _ _) rfl ?_
    exact h3
  · rename_i y5 y6
    refine Only.via (State.logEv_only _ _ _ _) rfl ?_
    refine Only.via (Only.set_link _ _) rfl ?_
    exact h3

theorem execHostReadErrorCompletion_only : ∀ a0 a1 s z, Only [.out, .regs, .log, .nvm, .nvs, .link, .inst, .fn, .cmds, .due, .reads, .nextTag, .lastFn, .dbErr, .sqErr, .mch, .fetches, .rate] s (runRow (execHostReadErrorCompletion a0 a1 s) z) := by
  intro a0 a1 s z
  unfold execHostReadErrorCompletion
  rw [runRow_next]
  refine Only.whenServing (fun t1 h2 => ?_) ?_
  · split
    · rename_i y3 y4 y5
      refine Only.via (State.pump_only _) rfl ?_
      refine Only.via (State.readFail_only _ _) rfl ?_
      refine Only.via (State.countReadFail_only _ _ _) rfl ?_
      refine Only.via (State.dropRead_only _ _) rfl ?_
      exact h2
    · rename_i y6 y7
      exact h2
  · exact Only.refl _ _

theorem execCompletionTimeout_only : ∀ a0 s z, Only [.out, .regs, .log, .nvm, .nvs, .link, .inst, .fn, .cmds, .due, .reads, .nextTag, .lastFn, .dbErr, .sqErr, .mch, .fetches, .rate] s (runRow (execCompletionTimeout a0 s) z) := by
  intro a0 s z
  unfold execCompletionTimeout
  rw [runRow_next]
  refine Only.whenServing (fun t1 h2 => ?_) ?_
  · split
    · rename_i y3 y4 y5
      refine Only.ite (fun _ => ?_) (fun _ => ?_)
      · exact h2
      · extract_lets x6 x7 x8
        refine Only.cut (t := x6) ?_ (fun h9 => ?_)
        · unfold x6
          refine Only.via (State.aerReport_only _ _ _) rfl ?_
          refine Only.via (State.dropRead_only _ _) rfl ?_
          exact h2
        refine Only.cut (t := x8) ?_ (fun h10 => ?_)
        · unfold x8
          refine Only.via (Only.set_link _ _) rfl ?_
          exact h9
        refine Only.via (State.pump_only _) rfl ?_
        refine Only.via (State.readFail_only _ _) rfl ?_
        refine Only.via (State.logEv_only _ _ _ _) rfl ?_
        exact h10
    · rename_i y11 y12
      exact h2
  · exact Only.refl _ _

end Sys2Proof.Machine
end

