-- ==== Sys2Proof/Laws/FrameDrives.lean ====
section
/-! SUPPORT. The frames of the optical drives: servo, sled, spindle, seek, RF channel and decoder: the fields of State that each function can write. -/

namespace Sys2Proof.Machine

theorem State.modDrive_only : ∀ s a1 a2, Only [.drives] s (State.modDrive s a1 a2) := by
  intro s a1 a2
  unfold State.modDrive
  refine Only.via (Only.set_drives _ _) rfl ?_
  exact Only.refl _ _

theorem State.modAxis_only : ∀ s a1 a2, Only [.drives] s (State.modAxis s a1 a2) := by
  intro s a1 a2
  unfold State.modAxis
  refine Only.via (State.modDrive_only _ _ _) rfl ?_
  exact Only.refl _ _

theorem State.modSpin_only : ∀ s a1 a2, Only [.drives] s (State.modSpin s a1 a2) := by
  intro s a1 a2
  unfold State.modSpin
  refine Only.via (State.modDrive_only _ _ _) rfl ?_
  exact Only.refl _ _

theorem State.modSled_only : ∀ s a1 a2, Only [.drives] s (State.modSled s a1 a2) := by
  intro s a1 a2
  unfold State.modSled
  refine Only.via (State.modDrive_only _ _ _) rfl ?_
  exact Only.refl _ _

theorem State.modRdc_only : ∀ s a1 a2, Only [.drives] s (State.modRdc s a1 a2) := by
  intro s a1 a2
  unfold State.modRdc
  refine Only.via (State.modDrive_only _ _ _) rfl ?_
  exact Only.refl _ _

theorem State.modWst_only : ∀ s a1 a2, Only [.drives] s (State.modWst s a1 a2) := by
  intro s a1 a2
  unfold State.modWst
  refine Only.via (State.modDrive_only _ _ _) rfl ?_
  exact Only.refl _ _

theorem State.modItem_only : ∀ s a1 a2 a3, Only [.cal] s (State.modItem s a1 a2 a3) := by
  intro s a1 a2 a3
  unfold State.modItem
  refine Only.via (Only.set_cal _ _) rfl ?_
  exact Only.refl _ _

theorem State.calDue_only : ∀ s a1 a2, Only [.cal] s (State.calDue s a1 a2) := by
  intro s a1 a2
  unfold State.calDue
  refine Only.ite (fun _ => ?_) (fun _ => ?_)
  · exact Only.refl _ _
  · refine Only.via (Only.set_cal _ _) rfl ?_
    exact Only.refl _ _

theorem State.calFallsDue_only : ∀ s a1 a2, Only [.cal] s (State.calFallsDue s a1 a2) := by
  intro s a1 a2
  unfold State.calFallsDue
  refine Only.ite (fun _ => ?_) (fun _ => ?_)
  · refine Only.via (State.calDue_only _ _ _) rfl ?_
    exact Only.refl _ _
  · exact Only.refl _ _

theorem State.calCount_only : ∀ s a1 a2 a3, Only [.cal] s (State.calCount s a1 a2 a3) := by
  intro s a1 a2 a3
  unfold State.calCount
  refine Only.via (State.modItem_only _ _ _ _) rfl ?_
  exact Only.refl _ _

theorem State.calFailed_only : ∀ s a1 a2, Only [.out, .log, .nvm, .nvs, .fn, .cal] s (State.calFailed s a1 a2) := by
  intro s a1 a2
  unfold State.calFailed
  extract_lets x1 x2
  refine Only.cut (t := x1) ?_ (fun h3 => ?_)
  · unfold x1
    refine Only.via (State.modItem_only _ _ _ _) rfl ?_
    exact Only.refl _ _
  refine Only.via (State.note_only _ _ _) rfl ?_
  refine Only.via (Only.set_cal _ _) rfl ?_
  exact h3

theorem State.stopRecording_only : ∀ s, Only [.fss, .arc] s (State.stopRecording s) := by
  intro s
  unfold State.stopRecording
  refine Only.via (Only.set_fss_arc _ _ _) rfl ?_
  exact Only.refl _ _

theorem State.setIsFull_only : ∀ s, Only [.out, .log, .nvm, .nvs, .inst, .fn, .fss, .arc] s (State.setIsFull s) := by
  intro s
  unfold State.setIsFull
  refine Only.ite (fun _ => ?_) (fun _ => ?_)
  · exact Only.refl _ _
  · extract_lets x1 x2
    refine Only.cut (t := x1) ?_ (fun h3 => ?_)
    · unfold x1
      refine Only.via (State.stopRecording_only _) rfl ?_
      exact Only.refl _ _
    refine Only.via (State.noteWaiting_only _) rfl ?_
    refine Only.via (State.note_only _ _ _) rfl ?_
    refine Only.via (Only.set_arc _ _) rfl ?_
    exact h3

theorem State.replaceStripe_only : ∀ s a1, Only [.out, .log, .nvm, .nvs, .inst, .fn, .fss, .arc] s (State.replaceStripe s a1) := by
  intro s a1
  unfold State.replaceStripe
  split
  · rename_i y1 y2
    exact Only.refl _ _
  · rename_i y3 y4 y5
    split
    · rename_i y6 y7
      refine Only.via (State.setIsFull_only _) rfl ?_
      exact Only.refl _ _
    · rename_i y8 y9 y10 y11 y12
      extract_lets x13 x14 x15
      refine Only.cut (t := x15) ?_ (fun h16 => ?_)
      · unfold x15
        refine Only.via (Only.set_arc _ _) rfl ?_
        exact Only.refl _ _
      refine Only.forEach (fun a17 t18 h19 => ?_) ?_
      · refine Only.via (State.modSeg_only _ _ _) rfl ?_
        exact h19
      · exact h16

theorem State.stripeBad_only : ∀ s a1 a2, Only [.out, .log, .nvm, .nvs, .inst, .fn, .fss, .arc] s (State.stripeBad s a1 a2) := by
  intro s a1 a2
  unfold State.stripeBad
  extract_lets x1 x2
  refine Only.cut (t := x2) ?_ (fun h3 => ?_)
  · unfold x2
    refine Only.via (Only.set_arc _ _) rfl ?_
    exact Only.refl _ _
  refine Only.ite (fun _ => ?_) (fun _ => ?_)
  · refine Only.via (State.replaceStripe_only _ _) rfl ?_
    exact h3
  · exact h3

theorem State.laserRead_only : ∀ s a1, Only [.out] s (State.laserRead s a1) := by
  intro s a1
  unfold State.laserRead
  refine Only.via (State.emit_only _ _) rfl ?_
  exact Only.refl _ _

theorem State.laserWrite_only : ∀ s a1 a2, Only [.out] s (State.laserWrite s a1 a2) := by
  intro s a1 a2
  unfold State.laserWrite
  refine Only.via (State.emit_only _ _) rfl ?_
  refine Only.via (State.emit_only _ _) rfl ?_
  refine Only.via (State.emit_only _ _) rfl ?_
  exact Only.refl _ _

theorem State.closeGate_only : ∀ s a1, Only [.out, .log, .nvm, .nvs, .inst, .fn, .fss, .arc, .drives] s (State.closeGate s a1) := by
  intro s a1
  unfold State.closeGate
  extract_lets x1 x2
  refine Only.cut (t := x2) ?_ (fun h3 => ?_)
  · unfold x2
    refine Only.via (State.laserRead_only _ _) rfl ?_
    refine Only.via (State.modWst_only _ _ _) rfl ?_
    exact Only.refl _ _
  split
  · rename_i y4 y5 y6 y7 y8 y9
    refine Only.via (State.stripeBad_only _ _ _) rfl ?_
    exact h3
  · rename_i y10 y11 y12
    exact h3

theorem State.gate_only : ∀ s a1, Only [.out, .log, .nvm, .nvs, .inst, .fn, .fss, .arc, .drives] s (State.gate s a1) := by
  intro s a1
  unfold State.gate
  extract_lets x1
  refine Only.ite (fun _ => ?_) (fun _ => ?_)
  · refine Only.ite (fun _ => ?_) (fun _ => ?_)
    · exact Only.refl _ _
    · refine Only.via (State.closeGate_only _ _) rfl ?_
      exact Only.refl _ _
  · refine Only.ite (fun _ => ?_) (fun _ => ?_)
    · refine Only.via (State.modWst_only _ _ _) rfl ?_
      exact Only.refl _ _
    · exact Only.refl _ _

theorem State.gatesOnce_only : ∀ s, Only [.out, .log, .nvm, .nvs, .inst, .fn, .fss, .arc, .drives] s (State.gatesOnce s) := by
  intro s
  unfold State.gatesOnce
  refine Only.forBelow (fun a1 t2 h3 => ?_) ?_
  · refine Only.via (State.gate_only _ _) rfl ?_
    exact h3
  · exact Only.refl _ _

theorem State.gates_only : ∀ s, Only [.out, .log, .nvm, .nvs, .inst, .fn, .fss, .arc, .drives] s (State.gates s) := by
  intro s
  unfold State.gates
  refine Only.via (State.gatesOnce_only _) rfl ?_
  refine Only.via (State.gatesOnce_only _) rfl ?_
  exact Only.refl _ _

theorem State.lights_only : ∀ s, Only [.drives] s (State.lights s) := by
  intro s
  unfold State.lights
  refine Only.forBelow (fun a1 t2 h3 => ?_) ?_
  · refine Only.via (State.modWst_only _ _ _) rfl ?_
    exact h3
  · exact Only.refl _ _

theorem State.channels_only : ∀ s, Only [.drives] s (State.channels s) := by
  intro s
  unfold State.channels
  refine Only.forBelow (fun a1 t2 h3 => ?_) ?_
  · extract_lets x4 x5
    refine Only.via (State.modRdc_only _ _ _) rfl ?_
    exact h3
  · exact Only.refl _ _

theorem State.settle_only : ∀ s, Only [.out, .log, .nvm, .nvs, .inst, .fn, .fss, .arc, .drives] s (State.settle s) := by
  intro s
  unfold State.settle
  refine Only.via (State.lights_only _) rfl ?_
  refine Only.via (State.channels_only _) rfl ?_
  refine Only.via (State.gates_only _) rfl ?_
  exact Only.refl _ _

theorem State.latch_only : ∀ s a1 a2, Only [.free, .drives] s (State.latch s a1 a2) := by
  intro s a1 a2
  unfold State.latch
  extract_lets x1 x2 x3 x4 x5 x6 x7 x8 x9 x10 x11 x12 x13 x14 x15 x16 x17
  refine Only.cut (t := x17) ?_ (fun h18 => ?_)
  · unfold x17
    refine Only.ite (fun _ => ?_) (fun _ => ?_)
    · exact Only.refl _ _
    · refine Only.via (State.useFree_only _) rfl ?_
      refine Only.via (State.useFree_only _) rfl ?_
      exact Only.refl _ _
  refine Only.via (State.modDrive_only _ _ _) rfl ?_
  exact h18

theorem State.judgeSource_only : ∀ s a1, Only [.out, .log, .nvm, .nvs, .fn, .drives] s (State.judgeSource s a1) := by
  intro s a1
  unfold State.judgeSource
  extract_lets x1
  refine Only.ite (fun _ => ?_) (fun _ => ?_)
  · refine Only.ite (fun _ => ?_) (fun _ => ?_)
    · exact Only.refl _ _
    · refine Only.via (State.note_only _ _ _) rfl ?_
      refine Only.via (State.modAxis_only _ _ _) rfl ?_
      exact Only.refl _ _
  · refine Only.via (State.modAxis_only _ _ _) rfl ?_
    exact Only.refl _ _

theorem State.sampleAxis_only : ∀ s a1 a2, Only [.out, .log, .nvm, .nvs, .fn, .drives] s (State.sampleAxis s a1 a2) := by
  intro s a1 a2
  unfold State.sampleAxis
  extract_lets x1 x2
  refine Only.cut (t := x2) ?_ (fun h3 => ?_)
  · unfold x2
    refine Only.via (State.modAxis_only _ _ _) rfl ?_
    exact Only.refl _ _
  refine Only.ite (fun _ => ?_) (fun _ => ?_)
  · exact h3
  · refine Only.via (State.note_only _ _ _) rfl ?_
    exact h3

theorem State.rampOpen_only : ∀ s a1 a2, Only [.drives] s (State.rampOpen s a1 a2) := by
  intro s a1 a2
  unfold State.rampOpen
  extract_lets x1
  refine Only.ite (fun _ => ?_) (fun _ => ?_)
  · exact Only.refl _ _
  · refine Only.via (State.modAxis_only _ _ _) rfl ?_
    exact Only.refl _ _

theorem State.sledHold_only : ∀ s a1, Only [.drives] s (State.sledHold s a1) := by
  intro s a1
  unfold State.sledHold
  refine Only.via (State.modSled_only _ _ _) rfl ?_
  exact Only.refl _ _

theorem State.openSled_only : ∀ s a1 a2, Only [.drives] s (State.openSled s a1 a2) := by
  intro s a1 a2
  unfold State.openSled
  extract_lets x1
  refine Only.ite (fun _ => ?_) (fun _ => ?_)
  · exact Only.refl _ _
  · refine Only.via (State.sledHold_only _ _) rfl ?_
    refine Only.via (State.modAxis_only _ _ _) rfl ?_
    exact Only.refl _ _

theorem State.openTrk_only : ∀ s a1 a2, Only [.drives] s (State.openTrk s a1 a2) := by
  intro s a1 a2
  unfold State.openTrk
  refine Only.via (State.openSled_only _ _ _) rfl ?_
  refine Only.via (State.modDrive_only _ _ _) rfl ?_
  refine Only.via (State.rampOpen_only _ _ _) rfl ?_
  exact Only.refl _ _

theorem State.openFoc_only : ∀ s a1 a2, Only [.drives] s (State.openFoc s a1 a2) := by
  intro s a1 a2
  unfold State.openFoc
  refine Only.via (State.openTrk_only _ _ _) rfl ?_
  refine Only.via (State.modDrive_only _ _ _) rfl ?_
  refine Only.via (State.rampOpen_only _ _ _) rfl ?_
  exact Only.refl _ _

theorem State.openSpn_only : ∀ s a1 a2, Only [.drives] s (State.openSpn s a1 a2) := by
  intro s a1 a2
  unfold State.openSpn
  refine Only.via (State.modSpin_only _ _ _) rfl ?_
  refine Only.via (State.modAxis_only _ _ _) rfl ?_
  exact Only.refl _ _

theorem State.openAxis_only : ∀ s a1 a2, Only [.drives] s (State.openAxis s a1 a2) := by
  intro s a1 a2
  unfold State.openAxis
  split
  · rename_i y1 y2
    refine Only.via (State.openFoc_only _ _ _) rfl ?_
    exact Only.refl _ _
  · rename_i y3 y4
    refine Only.via (State.openTrk_only _ _ _) rfl ?_
    exact Only.refl _ _
  · rename_i y5 y6
    refine Only.via (State.openSpn_only _ _ _) rfl ?_
    exact Only.refl _ _
  · rename_i y7 y8 y9 y10
    refine Only.via (State.openSled_only _ _ _) rfl ?_
    exact Only.refl _ _

theorem State.closeAxis_only : ∀ s a1, Only [.drives] s (State.closeAxis s a1) := by
  intro s a1
  unfold State.closeAxis
  refine Only.via (State.modAxis_only _ _ _) rfl ?_
  exact Only.refl _ _

theorem State.resync_only : ∀ s a1, Only [.drives] s (State.resync s a1) := by
  intro s a1
  unfold State.resync
  refine Only.via (State.modAxis_only _ _ _) rfl ?_
  exact Only.refl _ _

theorem State.rampStep_only : ∀ s a1, Only [.drives] s (State.rampStep s a1) := by
  intro s a1
  unfold State.rampStep
  refine Only.via (State.modAxis_only _ _ _) rfl ?_
  exact Only.refl _ _

theorem State.acquire_only : ∀ s a1 a2, Only [.drives] s (State.acquire s a1 a2) := by
  intro s a1 a2
  unfold State.acquire
  extract_lets x1
  refine Only.via (State.modAxis_only _ _ _) rfl ?_
  refine Only.via (State.modDrive_only _ _ _) rfl ?_
  exact Only.refl _ _

theorem State.closeFoc_only : ∀ s a1 a2, Only [.drives] s (State.closeFoc s a1 a2) := by
  intro s a1 a2
  unfold State.closeFoc
  refine Only.via (State.closeAxis_only _ _) rfl ?_
  refine Only.via (State.modDrive_only _ _ _) rfl ?_
  exact Only.refl _ _

theorem State.acqStep_only : ∀ s a1 a2 a3 a4 a5 a6, Only [.out, .log, .nvm, .nvs, .fn, .drives] s (State.acqStep s a1 a2 a3 a4 a5 a6) := by
  intro s a1 a2 a3 a4 a5 a6
  unfold State.acqStep
  extract_lets x1 x2 x3 x4 x5 x6 x7 x8 x9 x10 x11
  refine Only.ite (fun _ => ?_) (fun _ => ?_)
  · refine Only.via (State.closeFoc_only _ _ _) rfl ?_
    exact Only.refl _ _
  · refine Only.ite (fun _ => ?_) (fun _ => ?_)
    · refine Only.via (State.note_only _ _ _) rfl ?_
      refine Only.via (State.openFoc_only _ _ _) rfl ?_
      exact Only.refl _ _
    · refine Only.via (State.modAxis_only _ _ _) rfl ?_
      refine Only.via (State.modDrive_only _ _ _) rfl ?_
      exact Only.refl _ _

theorem State.jumpStep_only : ∀ s a1 a2 a3 a4 a5 a6, Only [.drives] s (State.jumpStep s a1 a2 a3 a4 a5 a6) := by
  intro s a1 a2 a3 a4 a5 a6
  unfold State.jumpStep
  extract_lets x1 x2 x3 x4 x5 x6 x7
  split
  · rename_i y8
    refine Only.ite (fun _ => ?_) (fun _ => ?_)
    · refine Only.ite (fun _ => ?_) (fun _ => ?_)
      · unfold x7
        refine Only.via (State.modAxis_only _ _ _) rfl ?_
        refine Only.via (State.modDrive_only _ _ _) rfl ?_
        exact Only.refl _ _
      · unfold x7
        refine Only.via (State.modAxis_only _ _ _) rfl ?_
        refine Only.via (State.modDrive_only _ _ _) rfl ?_
        exact Only.refl _ _
    · unfold x7
      refine Only.via (State.modAxis_only _ _ _) rfl ?_
      refine Only.via (State.modDrive_only _ _ _) rfl ?_
      exact Only.refl _ _
  · rename_i y9
    refine Only.ite (fun _ => ?_) (fun _ => ?_)
    · unfold x7
      refine Only.via (State.modAxis_only _ _ _) rfl ?_
      refine Only.via (State.modDrive_only _ _ _) rfl ?_
      exact Only.refl _ _
    · unfold x7
      refine Only.via (State.modAxis_only _ _ _) rfl ?_
      refine Only.via (State.modDrive_only _ _ _) rfl ?_
      exact Only.refl _ _
  · rename_i y10
    refine Only.ite (fun _ => ?_) (fun _ => ?_)
    · unfold x7
      refine Only.via (State.modAxis_only _ _ _) rfl ?_
      refine Only.via (State.modDrive_only _ _ _) rfl ?_
      exact Only.refl _ _
    · unfold x7
      refine Only.via (State.modAxis_only _ _ _) rfl ?_
      refine Only.via (State.modDrive_only _ _ _) rfl ?_
      exact Only.refl _ _
  · rename_i y11
    refine Only.ite (fun _ => ?_) (fun _ => ?_)
    · unfold x7
      refine Only.via (State.modAxis_only _ _ _) rfl ?_
      refine Only.via (State.modDrive_only _ _ _) rfl ?_
      exact Only.refl _ _
    · unfold x7
      refine Only.via (State.modAxis_only _ _ _) rfl ?_
      refine Only.via (State.modDrive_only _ _ _) rfl ?_
      exact Only.refl _ _
  · rename_i y12
    refine Only.ite (fun _ => ?_) (fun _ => ?_)
    · refine Only.via (State.closeFoc_only _ _ _) rfl ?_
      exact Only.refl _ _
    · unfold x7
      refine Only.via (State.modAxis_only _ _ _) rfl ?_
      refine Only.via (State.modDrive_only _ _ _) rfl ?_
      exact Only.refl _ _

theorem State.shortSeek_only : ∀ s a1 a2, Only [.drives] s (State.shortSeek s a1 a2) := by
  intro s a1 a2
  unfold State.shortSeek
  extract_lets x1 x2
  refine Only.via (State.openSled_only _ _ _) rfl ?_
  refine Only.via (State.modAxis_only _ _ _) rfl ?_
  refine Only.via (State.modDrive_only _ _ _) rfl ?_
  exact Only.refl _ _

theorem State.seekStep_only : ∀ s a1 a2 a3 a4 a5, Only [.drives] s (State.seekStep s a1 a2 a3 a4 a5) := by
  intro s a1 a2 a3 a4 a5
  unfold State.seekStep
  extract_lets x1 x2 x3 x4
  refine Only.cut (t := x3) ?_ (fun h5 => ?_)
  · unfold x3
    refine Only.via (State.closeAxis_only _ _) rfl ?_
    refine Only.via (State.modDrive_only _ _ _) rfl ?_
    exact Only.refl _ _
  refine Only.ite (fun _ => ?_) (fun _ => ?_)
  · refine Only.ite (fun _ => ?_) (fun _ => ?_)
    · exact h5
    · refine Only.via (State.closeAxis_only _ _) rfl ?_
      exact h5
  · refine Only.via (State.modAxis_only _ _ _) rfl ?_
    refine Only.via (State.modDrive_only _ _ _) rfl ?_
    exact Only.refl _ _

theorem State.focusLoss_only : ∀ s a1, Only [.out, .log, .nvm, .nvs, .fn, .drives] s (State.focusLoss s a1) := by
  intro s a1
  unfold State.focusLoss
  extract_lets x1 x2
  refine Only.cut (t := x2) ?_ (fun h3 => ?_)
  · unfold x2
    refine Only.via (State.note_only _ _ _) rfl ?_
    refine Only.via (State.openFoc_only _ _ _) rfl ?_
    exact Only.refl _ _
  refine Only.ite (fun _ => ?_) (fun _ => ?_)
  · refine Only.via (State.acquire_only _ _ _) rfl ?_
    exact h3
  · refine Only.via (State.modAxis_only _ _ _) rfl ?_
    exact h3

theorem State.alarmRise_only : ∀ s a1, Only [.out, .log, .nvm, .nvs, .inst, .fn, .fss, .arc, .drives, .stl] s (State.alarmRise s a1) := by
  intro s a1
  unfold State.alarmRise
  extract_lets x1 x2 x3
  refine Only.cut (t := x2) ?_ (fun h4 => ?_)
  · unfold x2
    refine Only.via (Only.set_stl _ _) rfl ?_
    exact Only.refl _ _
  refine Only.ite (fun _ => ?_) (fun _ => ?_)
  · refine Only.via (Only.set_stl _ _) rfl ?_
    exact h4
  · refine Only.via (State.gates_only _) rfl ?_
    refine Only.via (State.note_only _ _ _) rfl ?_
    refine Only.via (Only.set_stl _ _) rfl ?_
    exact h4

theorem State.startFoc_only : ∀ s a1, Only [.drives] s (State.startFoc s a1) := by
  intro s a1
  unfold State.startFoc
  extract_lets x1
  refine Only.ite (fun _ => ?_) (fun _ => ?_)
  · refine Only.via (State.acquire_only _ _ _) rfl ?_
    exact Only.refl _ _
  · exact Only.refl _ _

theorem State.startTrk_only : ∀ s a1, Only [.drives] s (State.startTrk s a1) := by
  intro s a1
  unfold State.startTrk
  extract_lets x1
  refine Only.ite (fun _ => ?_) (fun _ => ?_)
  · refine Only.via (State.closeAxis_only _ _) rfl ?_
    exact Only.refl _ _
  · exact Only.refl _ _

theorem State.startSld_only : ∀ s a1, Only [.drives] s (State.startSld s a1) := by
  intro s a1
  unfold State.startSld
  extract_lets x1
  refine Only.ite (fun _ => ?_) (fun _ => ?_)
  · refine Only.via (State.closeAxis_only _ _) rfl ?_
    exact Only.refl _ _
  · exact Only.refl _ _

theorem State.lateStep_only : ∀ s a1, Only [.drives] s (State.lateStep s a1) := by
  intro s a1
  unfold State.lateStep
  extract_lets x1 x2 x3
  refine Only.cut (t := x3) ?_ (fun h4 => ?_)
  · unfold x3
    refine Only.ite (fun _ => ?_) (fun _ => ?_)
    · refine Only.via (State.rampStep_only _ _) rfl ?_
      exact Only.refl _ _
    · exact Only.refl _ _
  refine Only.ite (fun _ => ?_) (fun _ => ?_)
  · exact h4
  · refine Only.ite (fun _ => ?_) (fun _ => ?_)
    · refine Only.via (State.modAxis_only _ _ _) rfl ?_
      exact h4
    · refine Only.ite (fun _ => ?_) (fun _ => ?_)
      · refine Only.via (State.modAxis_only _ _ _) rfl ?_
        exact h4
      · split
        · rename_i y5 y6 y7 y8 y9
          refine Only.via (State.acquire_only _ _ _) rfl ?_
          exact h4
        · rename_i y10 y11 y12 y13 y14
          refine Only.ite (fun _ => ?_) (fun _ => ?_)
          · refine Only.via (State.shortSeek_only _ _ _) rfl ?_
            refine Only.via (State.modDrive_only _ _ _) rfl ?_
            exact h4
          · exact h4
        · rename_i y15 y16 y17 y18 y19
          refine Only.ite (fun _ => ?_) (fun _ => ?_)
          · refine Only.via (State.closeAxis_only _ _) rfl ?_
            exact h4
          · exact h4
        · rename_i y20 y21 y22 y23 y24 y25 y26
          refine Only.ite (fun _ => ?_) (fun _ => ?_)
          · refine Only.via (State.closeAxis_only _ _) rfl ?_
            exact h4
          · exact h4

theorem State.focSample_only : ∀ s a1, Only [.out, .log, .nvm, .nvs, .fn, .drives] s (State.focSample s a1) := by
  intro s a1
  unfold State.focSample
  extract_lets x1 x2 x3
  refine Only.cut (t := x3) ?_ (fun h4 => ?_)
  · unfold x3
    refine Only.via (State.rampStep_only _ _) rfl ?_
    exact Only.refl _ _
  split
  · rename_i y5 y6
    refine Only.via (State.startFoc_only _ _) rfl ?_
    exact Only.refl _ _
  · rename_i y7 y8
    split
    · rename_i y9 y10 y11 y12 y13 y14 y15
      refine Only.ite (fun _ => ?_) (fun _ => ?_)
      · refine Only.via (State.acquire_only _ _ _) rfl ?_
        exact h4
      · exact h4
    · rename_i y16 y17
      refine Only.via (State.startFoc_only _ _) rfl ?_
      refine Only.via (State.rampStep_only _ _) rfl ?_
      exact Only.refl _ _
  · rename_i y18 y19
    refine Only.via (State.rampStep_only _ _) rfl ?_
    exact Only.refl _ _
  · rename_i y20 y21
    refine Only.via (State.lateStep_only _ _) rfl ?_
    exact Only.refl _ _
  · rename_i y22 y23
    split
    · rename_i y24 y25 y26 y27 y28 y29 y30
      refine Only.via (State.acqStep_only _ _ _ _ _ _ _) rfl ?_
      exact Only.refl _ _
    · rename_i y31 y32 y33 y34 y35 y36 y37
      refine Only.via (State.jumpStep_only _ _ _ _ _ _ _) rfl ?_
      exact Only.refl _ _
    · rename_i y38 y39 y40
      exact Only.refl _ _
  · rename_i y41 y42 y43 y44 y45 y46
    refine Only.ite (fun _ => ?_) (fun _ => ?_)
    · refine Only.via (State.focusLoss_only _ _) rfl ?_
      exact Only.refl _ _
    · refine Only.via (State.sampleAxis_only _ _ _) rfl ?_
      exact Only.refl _ _

theorem State.trkSample_only : ∀ s a1, Only [.out, .log, .nvm, .nvs, .fn, .drives] s (State.trkSample s a1) := by
  intro s a1
  unfold State.trkSample
  extract_lets x1 x2 x3
  refine Only.cut (t := x3) ?_ (fun h4 => ?_)
  · unfold x3
    split
    · rename_i y5 y6
      refine Only.via (State.startTrk_only _ _) rfl ?_
      exact Only.refl _ _
    · rename_i y7 y8
      refine Only.via (State.startTrk_only _ _) rfl ?_
      refine Only.via (State.rampStep_only _ _) rfl ?_
      exact Only.refl _ _
    · rename_i y9 y10
      refine Only.via (State.rampStep_only _ _) rfl ?_
      exact Only.refl _ _
    · rename_i y11 y12
      refine Only.via (State.lateStep_only _ _) rfl ?_
      exact Only.refl _ _
    · rename_i y13 y14
      split
      · rename_i y15 y16 y17 y18 y19 y20
        refine Only.via (State.seekStep_only _ _ _ _ _ _) rfl ?_
        exact Only.refl _ _
      · rename_i y21 y22
        refine Only.via (State.rampStep_only _ _) rfl ?_
        exact Only.refl _ _
      · rename_i y23 y24 y25
        exact Only.refl _ _
    · rename_i y26 y27 y28 y29 y30 y31
      refine Only.via (State.sampleAxis_only _ _ _) rfl ?_
      exact Only.refl _ _
  refine Only.via (State.modDrive_only _ _ _) rfl ?_
  exact h4

theorem State.lockSetpoint_only : ∀ s a1, Only [.drives] s (State.lockSetpoint s a1) := by
  intro s a1
  unfold State.lockSetpoint
  extract_lets x1
  refine Only.ite (fun _ => ?_) (fun _ => ?_)
  · refine Only.via (State.modSpin_only _ _ _) rfl ?_
    exact Only.refl _ _
  · exact Only.refl _ _

theorem State.spnSample_only : ∀ s a1 a2, Only [.out, .log, .nvm, .nvs, .fn, .drives] s (State.spnSample s a1 a2) := by
  intro s a1 a2
  unfold State.spnSample
  extract_lets x1 x2
  split
  · rename_i y3 y4
    refine Only.via (State.lateStep_only _ _) rfl ?_
    exact Only.refl _ _
  · rename_i y5 y6
    refine Only.via (State.sampleAxis_only _ _ _) rfl ?_
    refine Only.via (State.lockSetpoint_only _ _) rfl ?_
    exact Only.refl _ _
  · rename_i y7 y8
    refine Only.via (State.sampleAxis_only _ _ _) rfl ?_
    refine Only.via (State.lockSetpoint_only _ _) rfl ?_
    exact Only.refl _ _
  · rename_i y9 y10 y11 y12
    exact Only.refl _ _

theorem State.sldSample_only : ∀ s a1, Only [.out, .log, .nvm, .nvs, .fn, .drives] s (State.sldSample s a1) := by
  intro s a1
  unfold State.sldSample
  extract_lets x1
  split
  · rename_i y2 y3
    refine Only.via (State.startSld_only _ _) rfl ?_
    exact Only.refl _ _
  · rename_i y4 y5
    refine Only.via (State.startSld_only _ _) rfl ?_
    exact Only.refl _ _
  · rename_i y6 y7
    refine Only.via (State.lateStep_only _ _) rfl ?_
    exact Only.refl _ _
  · rename_i y8 y9
    refine Only.via (State.sampleAxis_only _ _ _) rfl ?_
    exact Only.refl _ _
  · rename_i y10 y11
    refine Only.via (State.sampleAxis_only _ _ _) rfl ?_
    exact Only.refl _ _
  · rename_i y12 y13 y14 y15 y16 y17
    exact Only.refl _ _

theorem State.focTick_only : ∀ s a1 a2, Only [.out, .free, .log, .nvm, .nvs, .fn, .drives] s (State.focTick s a1 a2) := by
  intro s a1 a2
  unfold State.focTick
  extract_lets x1 x2 x3 x4 x5
  refine Only.cut (t := x1) ?_ (fun h6 => ?_)
  · unfold x1
    refine Only.via (State.latch_only _ _ _) rfl ?_
    exact Only.refl _ _
  refine Only.cut (t := x4) ?_ (fun h7 => ?_)
  · unfold x4
    refine Only.via (State.modDrive_only _ _ _) rfl ?_
    exact h6
  refine Only.ite (fun _ => ?_) (fun _ => ?_)
  · refine Only.ite (fun _ => ?_) (fun _ => ?_)
    · refine Only.via (State.focusLoss_only _ _) rfl ?_
      exact h7
    · exact h7
  · refine Only.via (State.focSample_only _ _) rfl ?_
    refine Only.via (State.modDrive_only _ _ _) rfl ?_
    exact h6

theorem State.noteTime_only : ∀ s a1 a2, Only [.drives] s (State.noteTime s a1 a2) := by
  intro s a1 a2
  unfold State.noteTime
  refine Only.via (State.modAxis_only _ _ _) rfl ?_
  exact Only.refl _ _

theorem execServoSample_only : ∀ a0 a1 a2 a3 s z, Only [.out, .free, .log, .nvm, .nvs, .inst, .fn, .fss, .arc, .drives] s (runRow (execServoSample a0 a1 a2 a3 s) z) := by
  intro a0 a1 a2 a3 s z
  unfold execServoSample
  rw [runRow_next]
  refine Only.whenServing (fun t1 h2 => ?_) ?_
  · refine Only.ite (fun _ => ?_) (fun _ => ?_)
    · exact h2
    · extract_lets x3 x4 x5 x6 x7 x8
      refine Only.cut (t := x4) ?_ (fun h9 => ?_)
      · unfold x4
        refine Only.via (State.judgeSource_only _ _) rfl ?_
        exact h2
      refine Only.cut (t := x6) ?_ (fun h10 => ?_)
      · unfold x6
        split
        · rename_i y11 y12 y13
          refine Only.via (State.focTick_only _ _ _) rfl ?_
          exact h9
        · rename_i y14 y15 y16
          refine Only.ite (fun _ => ?_) (fun _ => ?_)
          · exact h9
          · refine Only.via (State.trkSample_only _ _) rfl ?_
            exact h9
        · rename_i y17 y18 y19
          refine Only.via (State.spnSample_only _ _ _) rfl ?_
          exact h9
        · rename_i y20 y21 y22 y23 y24
          refine Only.via (State.sldSample_only _ _) rfl ?_
          exact h9
      refine Only.cut (t := x7) ?_ (fun h25 => ?_)
      · unfold x7
        refine Only.via (State.noteTime_only _ _ _) rfl ?_
        exact h10
      refine Only.cut (t := x8) ?_ (fun h26 => ?_)
      · unfold x8
        refine Only.ite (fun _ => ?_) (fun _ => ?_)
        · exact h25
        · refine Only.via (State.modAxis_only _ _ _) rfl ?_
          exact h25
      refine Only.via (State.settle_only _) rfl ?_
      exact h26
  · exact Only.refl _ _

theorem State.lateOpen_only : ∀ s a1 a2, Only [.out, .log, .nvm, .nvs, .fn, .drives, .lateOpens] s (State.lateOpen s a1 a2) := by
  intro s a1 a2
  unfold State.lateOpen
  extract_lets x1 x2 x3
  refine Only.cut (t := x2) ?_ (fun h4 => ?_)
  · unfold x2
    refine Only.via (State.openAxis_only _ _ _) rfl ?_
    exact Only.refl _ _
  refine Only.cut (t := x3) ?_ (fun h5 => ?_)
  · unfold x3
    refine Only.ite (fun _ => ?_) (fun _ => ?_)
    · refine Only.via (State.modDrive_only _ _ _) rfl ?_
      exact h4
    · exact h4
  refine Only.via (State.note_only _ _ _) rfl ?_
  refine Only.via (Only.set_lateOpens _ _) rfl ?_
  exact h5

theorem execServoSampleDeadline_only : ∀ a0 a1 s z, Only [.out, .log, .nvm, .nvs, .inst, .fn, .fss, .arc, .drives, .stl, .lateOpens] s (runRow (execServoSampleDeadline a0 a1 s) z) := by
  intro a0 a1 s z
  unfold execServoSampleDeadline
  rw [runRow_next]
  refine Only.whenServing (fun t1 h2 => ?_) ?_
  · extract_lets x3 x4 x5 x6 x7
    refine Only.cut (t := x4) ?_ (fun h8 => ?_)
    · unfold x4
      refine Only.via (State.modAxis_only _ _ _) rfl ?_
      exact h2
    refine Only.cut (t := x5) ?_ (fun h9 => ?_)
    · unfold x5
      refine Only.via (State.alarmRise_only _ _) rfl ?_
      exact h8
    refine Only.cut (t := x6) ?_ (fun h10 => ?_)
    · unfold x6
      refine Only.ite (fun _ => ?_) (fun _ => ?_)
      · refine Only.via (State.closeGate_only _ _) rfl ?_
        exact h9
      · exact h9
    refine Only.cut (t := x7) ?_ (fun h11 => ?_)
    · unfold x7
      refine Only.ite (fun _ => ?_) (fun _ => ?_)
      · refine Only.via (State.lateOpen_only _ _ _) rfl ?_
        exact h10
      · exact h10
    refine Only.ite (fun _ => ?_) (fun _ => ?_)
    · exact h2
    · refine Only.via (State.settle_only _) rfl ?_
      exact h11
  · exact Only.refl _ _

theorem State.spinGroup_only : ∀ s a1 a2, Only [.drives] s (State.spinGroup s a1 a2) := by
  intro s a1 a2
  unfold State.spinGroup
  extract_lets x1 x2 x3 x4 x5 x6 x7 x8
  split
  rename_i y9 y10 y11 y12
  split
  rename_i y13 y14 y15 y16
  split
  rename_i y17 y18 y19 y20
  extract_lets x21 x22 x23
  refine Only.cut (t := x23) ?_ (fun h24 => ?_)
  · unfold x23
    refine Only.via (State.modDrive_only _ _ _) rfl ?_
    exact Only.refl _ _
  refine Only.ite (fun _ => ?_) (fun _ => ?_)
  · refine Only.via (State.modAxis_only _ _ _) rfl ?_
    exact h24
  · exact h24

theorem State.laserGroup_only : ∀ s a1, Only [.out, .drives] s (State.laserGroup s a1) := by
  intro s a1
  unfold State.laserGroup
  extract_lets x1 x2 x3 x4 x5 x6 x7
  split
  rename_i y8 y9 y10 y11
  extract_lets x12 x13 x14 x15 x16
  refine Only.cut (t := x15) ?_ (fun h17 => ?_)
  · unfold x15
    refine Only.via (State.modDrive_only _ _ _) rfl ?_
    exact Only.refl _ _
  refine Only.ite (fun _ => ?_) (fun _ => ?_)
  · refine Only.via (State.laserWrite_only _ _ _) rfl ?_
    refine Only.via (State.modWst_only _ _ _) rfl ?_
    exact h17
  · exact h17

theorem execLimitGroupSample_only : ∀ a0 a1 a2 s z, Only [.out, .drives] s (runRow (execLimitGroupSample a0 a1 a2 s) z) := by
  intro a0 a1 a2 s z
  unfold execLimitGroupSample
  rw [runRow_next]
  refine Only.whenServing (fun t1 h2 => ?_) ?_
  · refine Only.ite (fun _ => ?_) (fun _ => ?_)
    · refine Only.via (State.laserGroup_only _ _) rfl ?_
      exact h2
    · refine Only.via (State.spinGroup_only _ _ _) rfl ?_
      exact h2
  · exact Only.refl _ _

theorem State.take_only : ∀ s a1, Only [.drives] s (State.take s a1) := by
  intro s a1
  unfold State.take
  refine Only.via (State.modAxis_only _ _ _) rfl ?_
  exact Only.refl _ _

theorem execSwap_only : ∀ a0 a1 s z, Only [.drives] s (runRow (execSwap a0 a1 s) z) := by
  intro a0 a1 s z
  unfold execSwap
  rw [runRow_next]
  refine Only.whenServing (fun t1 h2 => ?_) ?_
  · refine Only.ite (fun _ => ?_) (fun _ => ?_)
    · refine Only.via (State.modAxis_only _ _ _) rfl ?_
      exact h2
    · exact h2
  · exact Only.refl _ _

theorem execOpenAxis_only : ∀ a0 s z, Only [.out, .log, .nvm, .nvs, .inst, .fn, .fss, .arc, .drives] s (runRow (execOpenAxis a0 s) z) := by
  intro a0 s z
  unfold execOpenAxis
  rw [runRow_next]
  refine Only.whenServing (fun t1 h2 => ?_) ?_
  · refine Only.via (State.settle_only _) rfl ?_
    refine Only.via (State.openAxis_only _ _ _) rfl ?_
    refine Only.via (State.take_only _ _) rfl ?_
    exact h2
  · exact Only.refl _ _

theorem execCloseAxis_only : ∀ a0 s z, Only [.out, .log, .nvm, .nvs, .inst, .fn, .fss, .arc, .drives] s (runRow (execCloseAxis a0 s) z) := by
  intro a0 s z
  unfold execCloseAxis
  rw [runRow_next]
  refine Only.whenServing (fun t1 h2 => ?_) ?_
  · extract_lets x3 x4
    refine Only.cut (t := x3) ?_ (fun h5 => ?_)
    · unfold x3
      refine Only.via (State.take_only _ _) rfl ?_
      exact h2
    refine Only.ite (fun _ => ?_) (fun _ => ?_)
    · exact h5
    · refine Only.via (State.settle_only _) rfl ?_
      refine Only.ite (fun _ => ?_) (fun _ => ?_)
      · refine Only.via (State.closeFoc_only _ _ _) rfl ?_
        exact h5
      · refine Only.via (State.closeAxis_only _ _) rfl ?_
        exact h5
  · exact Only.refl _ _

theorem execAcquire_only : ∀ a0 a1 s z, Only [.out, .log, .nvm, .nvs, .inst, .fn, .fss, .arc, .drives] s (runRow (execAcquire a0 a1 s) z) := by
  intro a0 a1 s z
  unfold execAcquire
  rw [runRow_next]
  refine Only.whenServing (fun t1 h2 => ?_) ?_
  · extract_lets x3 x4
    refine Only.cut (t := x3) ?_ (fun h5 => ?_)
    · unfold x3
      refine Only.via (State.take_only _ _) rfl ?_
      exact h2
    refine Only.cut (t := x4) ?_ (fun h6 => ?_)
    · unfold x4
      refine Only.ite (fun _ => ?_) (fun _ => ?_)
      · refine Only.via (State.openFoc_only _ _ _) rfl ?_
        exact h5
      · exact h5
    refine Only.via (State.settle_only _) rfl ?_
    refine Only.via (State.acquire_only _ _ _) rfl ?_
    exact h6
  · exact Only.refl _ _

theorem execLayerJump_only : ∀ a0 a1 s z, Only [.out, .log, .nvm, .nvs, .inst, .fn, .fss, .arc, .drives] s (runRow (execLayerJump a0 a1 s) z) := by
  intro a0 a1 s z
  unfold execLayerJump
  rw [runRow_next]
  refine Only.whenServing (fun t1 h2 => ?_) ?_
  · extract_lets x3 x4 x5 x6
    refine Only.cut (t := x4) ?_ (fun h7 => ?_)
    · unfold x4
      refine Only.via (State.take_only _ _) rfl ?_
      exact h2
    refine Only.cut (t := x6) ?_ (fun h8 => ?_)
    · unfold x6
      refine Only.via (State.openTrk_only _ _ _) rfl ?_
      exact h7
    refine Only.ite (fun _ => ?_) (fun _ => ?_)
    · refine Only.via (State.settle_only _) rfl ?_
      refine Only.via (State.modAxis_only _ _ _) rfl ?_
      refine Only.via (State.modDrive_only _ _ _) rfl ?_
      exact h8
    · exact h7
  · exact Only.refl _ _

theorem execLayerJumpTimeout_only : ∀ a0 s z, Only [.out, .log, .nvm, .nvs, .inst, .fn, .fss, .arc, .drives] s (runRow (execLayerJumpTimeout a0 s) z) := by
  intro a0 s z
  unfold execLayerJumpTimeout
  rw [runRow_next]
  refine Only.whenServing (fun t1 h2 => ?_) ?_
  · split
    · rename_i y3 y4 y5 y6 y7 y8 y9
      refine Only.ite (fun _ => ?_) (fun _ => ?_)
      · refine Only.via (State.settle_only _) rfl ?_
        refine Only.via (State.acquire_only _ _ _) rfl ?_
        exact h2
      · exact h2
    · rename_i y10 y11
      exact h2
  · exact Only.refl _ _

theorem execReleaseToHeron_only : ∀ a0 s z, Only [.drives] s (runRow (execReleaseToHeron a0 s) z) := by
  intro a0 s z
  unfold execReleaseToHeron
  rw [runRow_next]
  refine Only.whenServing (fun t1 h2 => ?_) ?_
  · refine Only.via (State.modAxis_only _ _ _) rfl ?_
    exact h2
  · exact Only.refl _ _

theorem execRateMeterBin_only : ∀ s z, Only [.rate] s (runRow (execRateMeterBin s) z) := by
  intro s z
  unfold execRateMeterBin
  rw [runRow_next]
  refine Only.whenServing (fun t1 h2 => ?_) ?_
  · extract_lets x3
    refine Only.via (Only.set_rate _ _) rfl ?_
    exact h2
  · exact Only.refl _ _

theorem execSourceFaultHoldExpiry_only : ∀ a0 s z, Only [.drives] s (runRow (execSourceFaultHoldExpiry a0 s) z) := by
  intro a0 s z
  unfold execSourceFaultHoldExpiry
  rw [runRow_next]
  refine Only.whenServing (fun t1 h2 => ?_) ?_
  · extract_lets x3
    refine Only.ite (fun _ => ?_) (fun _ => ?_)
    · refine Only.via (State.modAxis_only _ _ _) rfl ?_
      exact h2
    · exact h2
  · exact Only.refl _ _

theorem State.latChanged_only : ∀ s a1 a2 a3, Only [.drives] s (State.latChanged s a1 a2 a3) := by
  intro s a1 a2 a3
  unfold State.latChanged
  refine Only.ite (fun _ => ?_) (fun _ => ?_)
  · refine Only.via (State.resync_only _ _) rfl ?_
    exact Only.refl _ _
  · exact Only.refl _ _

theorem execSubsystemAdopt_only : ∀ a0 a1 s z, Only [.out, .liveSet, .epoch, .log, .nvm, .nvs, .fn, .drives] s (runRow (execSubsystemAdopt a0 a1 s) z) := by
  intro a0 a1 s z
  unfold execSubsystemAdopt
  rw [runRow_next]
  refine Only.whenServing (fun t1 h2 => ?_) ?_
  · refine Only.ite (fun _ => ?_) (fun _ => ?_)
    · exact h2
    · extract_lets x3
      refine Only.cut (t := x3) ?_ (fun h4 => ?_)
      · unfold x3
        refine Only.via (State.latChanged_only _ _ _ _) rfl ?_
        refine Only.via (State.adoptRegs_only _ _ _) rfl ?_
        exact h2
      refine Only.ite (fun _ => ?_) (fun _ => ?_)
      · exact h4
      · refine Only.via (State.epochDone_only _) rfl ?_
        refine Only.via (Only.set_epoch _ _) rfl ?_
        exact h4
  · exact Only.refl _ _

theorem State.coils_only : ∀ s a1 a2, Only [.drives] s (State.coils s a1 a2) := by
  intro s a1 a2
  unfold State.coils
  extract_lets x1
  refine Only.via (State.modSled_only _ _ _) rfl ?_
  exact Only.refl _ _

theorem State.sledRefuse_only : ∀ s a1, Only [.out, .log, .nvm, .nvs, .fn, .drives] s (State.sledRefuse s a1) := by
  intro s a1
  unfold State.sledRefuse
  refine Only.via (State.note_only _ _ _) rfl ?_
  refine Only.via (State.modSled_only _ _ _) rfl ?_
  exact Only.refl _ _

theorem State.sledFault_only : ∀ s a1 a2, Only [.out, .log, .nvm, .nvs, .inst, .fn, .fss, .arc, .drives] s (State.sledFault s a1 a2) := by
  intro s a1 a2
  unfold State.sledFault
  extract_lets x1 x2
  refine Only.cut (t := x1) ?_ (fun h3 => ?_)
  · unfold x1
    refine Only.via (State.modSled_only _ _ _) rfl ?_
    exact Only.refl _ _
  refine Only.cut (t := x2) ?_ (fun h4 => ?_)
  · unfold x2
    refine Only.via (State.openFoc_only _ _ _) rfl ?_
    exact h3
  refine Only.via (State.settle_only _) rfl ?_
  refine Only.via (State.note_only _ _ _) rfl ?_
  refine Only.via (State.modAxis_only _ _ _) rfl ?_
  exact h4

theorem State.sledTarget_only : ∀ s a1 a2, Only [.drives] s (State.sledTarget s a1 a2) := by
  intro s a1 a2
  unfold State.sledTarget
  extract_lets x1
  refine Only.via (State.modSled_only _ _ _) rfl ?_
  exact Only.refl _ _

theorem State.sledMove_only : ∀ s a1 a2 a3, Only [.drives] s (State.sledMove s a1 a2 a3) := by
  intro s a1 a2 a3
  unfold State.sledMove
  refine Only.via (State.modSled_only _ _ _) rfl ?_
  refine Only.via (State.sledTarget_only _ _ _) rfl ?_
  exact Only.refl _ _

theorem State.sledHome_only : ∀ s a1, Only [.drives] s (State.sledHome s a1) := by
  intro s a1
  unfold State.sledHome
  extract_lets x1
  refine Only.ite (fun _ => ?_) (fun _ => ?_)
  · exact Only.refl _ _
  · refine Only.via (State.modSled_only _ _ _) rfl ?_
    exact Only.refl _ _

theorem State.sledPark_only : ∀ s a1, Only [.drives] s (State.sledPark s a1) := by
  intro s a1
  unfold State.sledPark
  extract_lets x1
  refine Only.ite (fun _ => ?_) (fun _ => ?_)
  · refine Only.via (State.modSled_only _ _ _) rfl ?_
    exact Only.refl _ _
  · refine Only.ite (fun _ => ?_) (fun _ => ?_)
    · exact Only.refl _ _
    · refine Only.ite (fun _ => ?_) (fun _ => ?_)
      · refine Only.via (State.modSled_only _ _ _) rfl ?_
        exact Only.refl _ _
      · refine Only.via (State.modSled_only _ _ _) rfl ?_
        refine Only.via (State.sledMove_only _ _ _ _) rfl ?_
        exact Only.refl _ _

theorem State.sledArrived_only : ∀ s a1, Only [.drives] s (State.sledArrived s a1) := by
  intro s a1
  unfold State.sledArrived
  extract_lets x1 x2
  refine Only.cut (t := x2) ?_ (fun h3 => ?_)
  · unfold x2
    refine Only.via (State.modSled_only _ _ _) rfl ?_
    exact Only.refl _ _
  refine Only.ite (fun _ => ?_) (fun _ => ?_)
  · refine Only.ite (fun _ => ?_) (fun _ => ?_)
    · refine Only.via (State.modSled_only _ _ _) rfl ?_
      exact Only.refl _ _
    · refine Only.ite (fun _ => ?_) (fun _ => ?_)
      · refine Only.via (State.sledPark_only _ _) rfl ?_
        refine Only.via (State.modSled_only _ _ _) rfl ?_
        exact h3
      · exact h3
  · refine Only.ite (fun _ => ?_) (fun _ => ?_)
    · refine Only.via (State.modSled_only _ _ _) rfl ?_
      exact Only.refl _ _
    · refine Only.via (State.modSled_only _ _ _) rfl ?_
      exact Only.refl _ _

theorem State.followTick_only : ∀ s a1, Only [.drives] s (State.followTick s a1) := by
  intro s a1
  unfold State.followTick
  extract_lets x1 x2 x3 x4 x5 x6 x7 x8
  refine Only.ite (fun _ => ?_) (fun _ => ?_)
  · refine Only.via (State.modSled_only _ _ _) rfl ?_
    exact Only.refl _ _
  · refine Only.ite (fun _ => ?_) (fun _ => ?_)
    · refine Only.via (State.modSled_only _ _ _) rfl ?_
      exact Only.refl _ _
    · refine Only.via (State.modSled_only _ _ _) rfl ?_
      exact Only.refl _ _

theorem State.brakeTick_only : ∀ s a1, Only [.drives] s (State.brakeTick s a1) := by
  intro s a1
  unfold State.brakeTick
  extract_lets x1 x2
  refine Only.via (State.modSled_only _ _ _) rfl ?_
  exact Only.refl _ _

theorem execSledPlanTick_only : ∀ a0 s z, Only [.out, .log, .nvm, .nvs, .inst, .fn, .fss, .arc, .drives] s (runRow (execSledPlanTick a0 s) z) := by
  intro a0 s z
  unfold execSledPlanTick
  rw [runRow_next]
  refine Only.whenServing (fun t1 h2 => ?_) ?_
  · extract_lets x3 x4 x5 x6 x7 x8 x9 x10
    refine Only.cut (t := x10) ?_ (fun h11 => ?_)
    · unfold x10
      split
      · rename_i y12 y13
        refine Only.ite (fun _ => ?_) (fun _ => ?_)
        · refine Only.via (State.modSled_only _ _ _) rfl ?_
          exact h2
        · exact h2
      · rename_i y14 y15
        exact h2
      · rename_i y16 y17
        refine Only.ite (fun _ => ?_) (fun _ => ?_)
        · refine Only.via (State.modSled_only _ _ _) rfl ?_
          exact h2
        · refine Only.via (State.modSled_only _ _ _) rfl ?_
          exact h2
      · rename_i y18 y19
        refine Only.ite (fun _ => ?_) (fun _ => ?_)
        · refine Only.via (State.brakeTick_only _ _) rfl ?_
          exact h2
        · refine Only.via (State.followTick_only _ _) rfl ?_
          exact h2
      · rename_i y20 y21
        refine Only.ite (fun _ => ?_) (fun _ => ?_)
        · refine Only.via (State.brakeTick_only _ _) rfl ?_
          exact h2
        · refine Only.ite (fun _ => ?_) (fun _ => ?_)
          · refine Only.ite (fun _ => ?_) (fun _ => ?_)
            · refine Only.via (State.modSled_only _ _ _) rfl ?_
              exact h2
            · refine Only.via (State.modSled_only _ _ _) rfl ?_
              exact h2
          · unfold x9
            split
            rename_i y22 y23 y24 y25 y26 y27 y28 y29
            extract_lets x30
            refine Only.cut (t := x30) ?_ (fun h31 => ?_)
            · unfold x30
              refine Only.via (State.modSled_only _ _ _) rfl ?_
              exact h2
            refine Only.ite (fun _ => ?_) (fun _ => ?_)
            · refine Only.via (State.sledArrived_only _ _) rfl ?_
              exact h31
            · exact h31
      · rename_i y32 y33
        refine Only.ite (fun _ => ?_) (fun _ => ?_)
        · refine Only.via (State.brakeTick_only _ _) rfl ?_
          exact h2
        · unfold x9
          split
          rename_i y34 y35 y36 y37 y38 y39 y40
          extract_lets x41
          refine Only.cut (t := x41) ?_ (fun h42 => ?_)
          · unfold x41
            refine Only.via (State.modSled_only _ _ _) rfl ?_
            exact h2
          refine Only.ite (fun _ => ?_) (fun _ => ?_)
          · refine Only.via (State.sledArrived_only _ _) rfl ?_
            exact h42
          · exact h42
      · rename_i y43 y44
        refine Only.ite (fun _ => ?_) (fun _ => ?_)
        · refine Only.via (State.brakeTick_only _ _) rfl ?_
          exact h2
        · unfold x9
          split
          rename_i y45 y46 y47 y48 y49 y50 y51
          extract_lets x52
          refine Only.cut (t := x52) ?_ (fun h53 => ?_)
          · unfold x52
            refine Only.via (State.modSled_only _ _ _) rfl ?_
            exact h2
          refine Only.ite (fun _ => ?_) (fun _ => ?_)
          · refine Only.via (State.sledArrived_only _ _) rfl ?_
            exact h53
          · exact h53
    refine Only.via (State.settle_only _) rfl ?_
    refine Only.via (State.coils_only _ _ _) rfl ?_
    exact h11
  · exact Only.refl _ _

theorem execSledTickLate_only : ∀ a0 s z, Only [.out, .log, .nvm, .nvs, .inst, .fn, .fss, .arc, .drives, .stl] s (runRow (execSledTickLate a0 s) z) := by
  intro a0 s z
  unfold execSledTickLate
  rw [runRow_next]
  refine Only.whenServing (fun t1 h2 => ?_) ?_
  · extract_lets x3 x4 x5 x6 x7
    refine Only.cut (t := x7) ?_ (fun h8 => ?_)
    · unfold x7
      refine Only.via (State.modSled_only _ _ _) rfl ?_
      exact h2
    refine Only.via (State.alarmRise_only _ _) rfl ?_
    exact h8
  · exact Only.refl _ _

theorem execSledArrivalReport_only : ∀ a0 s z, Only [.out, .log, .nvm, .nvs, .inst, .fn, .fss, .arc, .drives] s (runRow (execSledArrivalReport a0 s) z) := by
  intro a0 s z
  unfold execSledArrivalReport
  rw [runRow_next]
  refine Only.whenServing (fun t1 h2 => ?_) ?_
  · extract_lets x3 x4
    refine Only.cut (t := x4) ?_ (fun h5 => ?_)
    · unfold x4
      refine Only.via (State.modSled_only _ _ _) rfl ?_
      exact h2
    split
    · rename_i y6 y7
      exact h2
    · rename_i y8 y9 y10
      refine Only.ite (fun _ => ?_) (fun _ => ?_)
      · exact h2
      · split
        · rename_i y11 y12 y13
          refine Only.via (State.settle_only _) rfl ?_
          refine Only.via (State.closeAxis_only _ _) rfl ?_
          refine Only.via (State.modDrive_only _ _ _) rfl ?_
          exact h5
        · rename_i y14 y15 y16
          exact h5
  · exact Only.refl _ _

theorem State.sledSeekTo_only : ∀ s a1, Only [.drives] s (State.sledSeekTo s a1) := by
  intro s a1
  unfold State.sledSeekTo
  extract_lets x1
  refine Only.ite (fun _ => ?_) (fun _ => ?_)
  · refine Only.ite (fun _ => ?_) (fun _ => ?_)
    · refine Only.via (State.sledMove_only _ _ _ _) rfl ?_
      exact Only.refl _ _
    · exact Only.refl _ _
  · exact Only.refl _ _

theorem execSledRereference_only : ∀ a0 a1 s z, Only [.out, .log, .nvm, .nvs, .inst, .fn, .fss, .arc, .drives] s (runRow (execSledRereference a0 a1 s) z) := by
  intro a0 a1 s z
  unfold execSledRereference
  rw [runRow_next]
  refine Only.whenServing (fun t1 h2 => ?_) ?_
  · extract_lets x3 x4 x5 x6 x7 x8 x9 x10 x11 x12
    refine Only.cut (t := x9) ?_ (fun h13 => ?_)
    · unfold x9
      refine Only.ite (fun _ => ?_) (fun _ => ?_)
      · refine Only.via (State.modSled_only _ _ _) rfl ?_
        exact h2
      · exact h2
    refine Only.cut (t := x12) ?_ (fun h14 => ?_)
    · unfold x12
      refine Only.via (State.note_only _ _ _) rfl ?_
      refine Only.via (State.modSled_only _ _ _) rfl ?_
      exact h13
    refine Only.ite (fun _ => ?_) (fun _ => ?_)
    · exact h2
    · refine Only.ite (fun _ => ?_) (fun _ => ?_)
      · refine Only.via (State.modSled_only _ _ _) rfl ?_
        exact h2
      · refine Only.ite (fun _ => ?_) (fun _ => ?_)
        · refine Only.via (State.modSled_only _ _ _) rfl ?_
          exact h13
        · refine Only.ite (fun _ => ?_) (fun _ => ?_)
          · refine Only.via (State.sledFault_only _ _ _) rfl ?_
            exact h14
          · exact h14
  · exact Only.refl _ _

theorem execBoostDecay_only : ∀ a0 s z, Only [.drives] s (runRow (execBoostDecay a0 s) z) := by
  intro a0 s z
  unfold execBoostDecay
  rw [runRow_next]
  refine Only.whenServing (fun t1 h2 => ?_) ?_
  · extract_lets x3
    refine Only.ite (fun _ => ?_) (fun _ => ?_)
    · refine Only.via (State.modSled_only _ _ _) rfl ?_
      exact h2
    · exact h2
  · exact Only.refl _ _

theorem State.sledOver_only : ∀ s a1 a2, Only [.out, .log, .nvm, .nvs, .inst, .fn, .fss, .arc, .drives] s (State.sledOver s a1 a2) := by
  intro s a1 a2
  unfold State.sledOver
  extract_lets x1 x2 x3
  refine Only.cut (t := x3) ?_ (fun h4 => ?_)
  · unfold x3
    refine Only.via (State.modSled_only _ _ _) rfl ?_
    exact Only.refl _ _
  refine Only.ite (fun _ => ?_) (fun _ => ?_)
  · exact Only.refl _ _
  · refine Only.ite (fun _ => ?_) (fun _ => ?_)
    · refine Only.via (State.sledFault_only _ _ _) rfl ?_
      exact h4
    · exact h4

theorem execSledOvercurrent_only : ∀ a0 a1 s z, Only [.out, .log, .nvm, .nvs, .inst, .fn, .fss, .arc, .drives] s (runRow (execSledOvercurrent a0 a1 s) z) := by
  intro a0 a1 s z
  unfold execSledOvercurrent
  rw [runRow_next]
  refine Only.whenServing (fun t1 h2 => ?_) ?_
  · refine Only.via (State.sledOver_only _ _ _) rfl ?_
    exact h2
  · exact Only.refl _ _

theorem execOpenCoil_only : ∀ a0 a1 s z, Only [.out, .log, .nvm, .nvs, .inst, .fn, .fss, .arc, .drives] s (runRow (execOpenCoil a0 a1 s) z) := by
  intro a0 a1 s z
  unfold execOpenCoil
  rw [runRow_next]
  refine Only.whenServing (fun t1 h2 => ?_) ?_
  · extract_lets x3
    refine Only.ite (fun _ => ?_) (fun _ => ?_)
    · exact h2
    · refine Only.ite (fun _ => ?_) (fun _ => ?_)
      · refine Only.via (State.sledFault_only _ _ _) rfl ?_
        exact h2
      · exact h2
  · exact Only.refl _ _

theorem State.sledPeriod_only : ∀ s a1 a2 a3, Only [.out, .log, .nvm, .nvs, .inst, .fn, .fss, .arc, .drives] s (State.sledPeriod s a1 a2 a3) := by
  intro s a1 a2 a3
  unfold State.sledPeriod
  extract_lets x1 x2 x3 x4 x5 x6 x7 x8
  refine Only.cut (t := x8) ?_ (fun h9 => ?_)
  · unfold x8
    refine Only.ite (fun _ => ?_) (fun _ => ?_)
    · refine Only.via (State.modSled_only _ _ _) rfl ?_
      exact Only.refl _ _
    · refine Only.via (State.sledOver_only _ _ _) rfl ?_
      exact Only.refl _ _
  refine Only.ite (fun _ => ?_) (fun _ => ?_)
  · exact Only.refl _ _
  · refine Only.ite (fun _ => ?_) (fun _ => ?_)
    · refine Only.via (State.modSled_only _ _ _) rfl ?_
      exact h9
    · refine Only.via (State.sledOver_only _ _ _) rfl ?_
      exact h9

theorem execTravel_only : ∀ a0 s z, Only [.out, .log, .nvm, .nvs, .inst, .fn, .fss, .arc, .drives] s (runRow (execTravel a0 s) z) := by
  intro a0 s z
  unfold execTravel
  rw [runRow_next]
  refine Only.whenServing (fun t1 h2 => ?_) ?_
  · refine Only.ite (fun _ => ?_) (fun _ => ?_)
    · refine Only.via (State.settle_only _) rfl ?_
      refine Only.via (State.sledMove_only _ _ _ _) rfl ?_
      exact h2
    · refine Only.via (State.sledRefuse_only _ _) rfl ?_
      exact h2
  · exact Only.refl _ _

theorem execSledSeek_only : ∀ a0 s z, Only [.out, .log, .nvm, .nvs, .inst, .fn, .fss, .arc, .drives] s (runRow (execSledSeek a0 s) z) := by
  intro a0 s z
  unfold execSledSeek
  rw [runRow_next]
  refine Only.whenServing (fun t1 h2 => ?_) ?_
  · refine Only.ite (fun _ => ?_) (fun _ => ?_)
    · refine Only.via (State.settle_only _) rfl ?_
      refine Only.via (State.sledMove_only _ _ _ _) rfl ?_
      exact h2
    · refine Only.via (State.sledRefuse_only _ _) rfl ?_
      exact h2
  · exact Only.refl _ _

theorem execPark_only : ∀ a0 s z, Only [.out, .log, .nvm, .nvs, .inst, .fn, .fss, .arc, .drives] s (runRow (execPark a0 s) z) := by
  intro a0 s z
  unfold execPark
  rw [runRow_next]
  refine Only.whenServing (fun t1 h2 => ?_) ?_
  · refine Only.ite (fun _ => ?_) (fun _ => ?_)
    · refine Only.via (State.settle_only _) rfl ?_
      refine Only.via (State.modSled_only _ _ _) rfl ?_
      refine Only.via (State.sledMove_only _ _ _ _) rfl ?_
      exact h2
    · refine Only.via (State.sledRefuse_only _ _) rfl ?_
      exact h2
  · exact Only.refl _ _

theorem execHome_only : ∀ a0 s z, Only [.out, .log, .nvm, .nvs, .inst, .fn, .fss, .arc, .drives] s (runRow (execHome a0 s) z) := by
  intro a0 s z
  unfold execHome
  rw [runRow_next]
  refine Only.whenServing (fun t1 h2 => ?_) ?_
  · extract_lets x3
    refine Only.ite (fun _ => ?_) (fun _ => ?_)
    · refine Only.via (State.sledRefuse_only _ _) rfl ?_
      exact h2
    · refine Only.via (State.settle_only _) rfl ?_
      refine Only.via (State.sledHome_only _ _) rfl ?_
      exact h2
  · exact Only.refl _ _

theorem execSledStop_only : ∀ a0 s z, Only [.drives] s (runRow (execSledStop a0 s) z) := by
  intro a0 s z
  unfold execSledStop
  rw [runRow_next]
  refine Only.whenServing (fun t1 h2 => ?_) ?_
  · refine Only.via (State.modSled_only _ _ _) rfl ?_
    exact h2
  · exact Only.refl _ _

theorem execSledRelease_only : ∀ a0 s z, Only [.out, .log, .nvm, .nvs, .fn, .drives] s (runRow (execSledRelease a0 s) z) := by
  intro a0 s z
  unfold execSledRelease
  rw [runRow_next]
  refine Only.whenServing (fun t1 h2 => ?_) ?_
  · refine Only.ite (fun _ => ?_) (fun _ => ?_)
    · refine Only.via (State.modSled_only _ _ _) rfl ?_
      exact h2
    · refine Only.via (State.sledRefuse_only _ _) rfl ?_
      exact h2
  · exact Only.refl _ _

theorem execSledClear_only : ∀ a0 s z, Only [.drives] s (runRow (execSledClear a0 s) z) := by
  intro a0 s z
  unfold execSledClear
  rw [runRow_next]
  refine Only.whenServing (fun t1 h2 => ?_) ?_
  · refine Only.via (State.modSled_only _ _ _) rfl ?_
    exact h2
  · exact Only.refl _ _

theorem State.returnGrant_only : ∀ s a1, Only [.drives, .pwb] s (State.returnGrant s a1) := by
  intro s a1
  unfold State.returnGrant
  refine Only.ite (fun _ => ?_) (fun _ => ?_)
  · extract_lets x1 x2
    refine Only.cut (t := x1) ?_ (fun h3 => ?_)
    · unfold x1
      refine Only.via (State.modSpin_only _ _ _) rfl ?_
      exact Only.refl _ _
    refine Only.via (Only.set_pwb _ _) rfl ?_
    exact h3
  · exact Only.refl _ _

theorem State.spinLeave_only : ∀ s a1, Only [.drives, .pwb] s (State.spinLeave s a1) := by
  intro s a1
  unfold State.spinLeave
  extract_lets x1 x2
  refine Only.cut (t := x1) ?_ (fun h3 => ?_)
  · unfold x1
    refine Only.via (State.returnGrant_only _ _) rfl ?_
    exact Only.refl _ _
  refine Only.via (Only.set_pwb _ _) rfl ?_
  exact h3

theorem State.spinAxis_only : ∀ s a1 a2, Only [.drives] s (State.spinAxis s a1 a2) := by
  intro s a1 a2
  unfold State.spinAxis
  refine Only.via (State.modSpin_only _ _ _) rfl ?_
  refine Only.via (State.modAxis_only _ _ _) rfl ?_
  exact Only.refl _ _

theorem State.spinStopped_only : ∀ s a1, Only [.drives, .pwb] s (State.spinStopped s a1) := by
  intro s a1
  unfold State.spinStopped
  refine Only.via (State.modSpin_only _ _ _) rfl ?_
  refine Only.via (State.spinAxis_only _ _ _) rfl ?_
  refine Only.via (State.spinLeave_only _ _) rfl ?_
  exact Only.refl _ _

theorem State.spinFault_only : ∀ s a1 a2, Only [.out, .log, .nvm, .nvs, .fn, .drives, .pwb] s (State.spinFault s a1 a2) := by
  intro s a1 a2
  unfold State.spinFault
  refine Only.via (State.note_only _ _ _) rfl ?_
  refine Only.via (State.modSpin_only _ _ _) rfl ?_
  refine Only.via (State.spinAxis_only _ _ _) rfl ?_
  refine Only.via (State.spinLeave_only _ _) rfl ?_
  exact Only.refl _ _

theorem State.spinBrake_only : ∀ s a1 a2, Only [.drives, .pwb] s (State.spinBrake s a1 a2) := by
  intro s a1 a2
  unfold State.spinBrake
  refine Only.via (State.modSpin_only _ _ _) rfl ?_
  refine Only.via (State.spinAxis_only _ _ _) rfl ?_
  refine Only.via (State.spinLeave_only _ _) rfl ?_
  exact Only.refl _ _

theorem State.spinWait_only : ∀ s a1, Only [.drives, .pwb] s (State.spinWait s a1) := by
  intro s a1
  unfold State.spinWait
  extract_lets x1 x2
  refine Only.cut (t := x1) ?_ (fun h3 => ?_)
  · unfold x1
    refine Only.via (State.modSpin_only _ _ _) rfl ?_
    refine Only.via (State.spinAxis_only _ _ _) rfl ?_
    exact Only.refl _ _
  refine Only.via (Only.set_pwb _ _) rfl ?_
  exact h3

theorem State.spinRequest_only : ∀ s a1, Only [.drives, .pwb] s (State.spinRequest s a1) := by
  intro s a1
  unfold State.spinRequest
  extract_lets x1
  refine Only.cut (t := x1) ?_ (fun h2 => ?_)
  · unfold x1
    refine Only.via (State.spinWait_only _ _) rfl ?_
    refine Only.via (State.modSpin_only _ _ _) rfl ?_
    exact Only.refl _ _
  refine Only.ite (fun _ => ?_) (fun _ => ?_)
  · exact h2
  · refine Only.via (State.sledHome_only _ _) rfl ?_
    exact h2

theorem State.spinStopReq_only : ∀ s a1, Only [.drives, .pwb] s (State.spinStopReq s a1) := by
  intro s a1
  unfold State.spinStopReq
  split
  · rename_i y1 y2
    refine Only.via (State.modSpin_only _ _ _) rfl ?_
    exact Only.refl _ _
  · rename_i y3 y4
    exact Only.refl _ _
  · rename_i y5 y6
    refine Only.via (State.modSpin_only _ _ _) rfl ?_
    exact Only.refl _ _
  · rename_i y7 y8 y9 y10
    refine Only.via (State.spinBrake_only _ _ _) rfl ?_
    exact Only.refl _ _

theorem State.touchDrive_only : ∀ s a1, Only [.drives, .pwb] s (State.touchDrive s a1) := by
  intro s a1
  unfold State.touchDrive
  extract_lets x1
  refine Only.ite (fun _ => ?_) (fun _ => ?_)
  · refine Only.via (State.spinRequest_only _ _) rfl ?_
    exact Only.refl _ _
  · refine Only.via (State.modSpin_only _ _ _) rfl ?_
    exact Only.refl _ _

theorem State.spinIgnore_only : ∀ s a1 a2, Only [.out, .log, .nvm, .nvs, .fn] s (State.spinIgnore s a1 a2) := by
  intro s a1 a2
  unfold State.spinIgnore
  refine Only.via (State.note_only _ _ _) rfl ?_
  exact Only.refl _ _

theorem execSpinStart_only : ∀ a0 s z, Only [.out, .log, .nvm, .nvs, .inst, .fn, .fss, .arc, .drives, .pwb] s (runRow (execSpinStart a0 s) z) := by
  intro a0 s z
  unfold execSpinStart
  rw [runRow_next]
  refine Only.whenServing (fun t1 h2 => ?_) ?_
  · refine Only.ite (fun _ => ?_) (fun _ => ?_)
    · refine Only.via (State.settle_only _) rfl ?_
      refine Only.via (State.spinRequest_only _ _) rfl ?_
      exact h2
    · refine Only.via (State.spinIgnore_only _ _ _) rfl ?_
      exact h2
  · exact Only.refl _ _

theorem execSpinStop_only : ∀ a0 s z, Only [.out, .log, .nvm, .nvs, .inst, .fn, .fss, .arc, .drives, .pwb] s (runRow (execSpinStop a0 s) z) := by
  intro a0 s z
  unfold execSpinStop
  rw [runRow_next]
  refine Only.whenServing (fun t1 h2 => ?_) ?_
  · extract_lets x3
    refine Only.ite (fun _ => ?_) (fun _ => ?_)
    · refine Only.via (State.spinIgnore_only _ _ _) rfl ?_
      exact h2
    · refine Only.via (State.settle_only _) rfl ?_
      refine Only.via (State.spinStopReq_only _ _) rfl ?_
      exact h2
  · exact Only.refl _ _

theorem execCoast_only : ∀ a0 s z, Only [.out, .log, .nvm, .nvs, .inst, .fn, .fss, .arc, .drives, .pwb] s (runRow (execCoast a0 s) z) := by
  intro a0 s z
  unfold execCoast
  rw [runRow_next]
  refine Only.whenServing (fun t1 h2 => ?_) ?_
  · refine Only.ite (fun _ => ?_) (fun _ => ?_)
    · refine Only.via (State.spinIgnore_only _ _ _) rfl ?_
      exact h2
    · refine Only.via (State.settle_only _) rfl ?_
      refine Only.via (State.spinStopped_only _ _) rfl ?_
      exact h2
  · exact Only.refl _ _

theorem execClearFault_only : ∀ a0 s z, Only [.out, .log, .nvm, .nvs, .inst, .fn, .fss, .arc, .drives, .pwb] s (runRow (execClearFault a0 s) z) := by
  intro a0 s z
  unfold execClearFault
  rw [runRow_next]
  refine Only.whenServing (fun t1 h2 => ?_) ?_
  · refine Only.ite (fun _ => ?_) (fun _ => ?_)
    · refine Only.via (State.settle_only _) rfl ?_
      refine Only.via (State.modSpin_only _ _ _) rfl ?_
      refine Only.via (State.spinStopped_only _ _) rfl ?_
      exact h2
    · refine Only.via (State.spinIgnore_only _ _ _) rfl ?_
      exact h2
  · exact Only.refl _ _

theorem execDriveStartSequence_only : ∀ a0 s z, Only [.out, .log, .nvm, .nvs, .inst, .fn, .fss, .arc, .drives, .pwb] s (runRow (execDriveStartSequence a0 s) z) := by
  intro a0 s z
  unfold execDriveStartSequence
  rw [runRow_next]
  refine Only.whenServing (fun t1 h2 => ?_) ?_
  · refine Only.ite (fun _ => ?_) (fun _ => ?_)
    · exact h2
    · extract_lets x3
      refine Only.cut (t := x3) ?_ (fun h4 => ?_)
      · unfold x3
        refine Only.via (State.modDrive_only _ _ _) rfl ?_
        exact h2
      refine Only.via (State.settle_only _) rfl ?_
      refine Only.ite (fun _ => ?_) (fun _ => ?_)
      · refine Only.ite (fun _ => ?_) (fun _ => ?_)
        · exact h4
        · refine Only.via (State.sledHome_only _ _) rfl ?_
          exact h4
      · refine Only.via (State.spinRequest_only _ _) rfl ?_
        exact h4
  · exact Only.refl _ _

theorem State.spinStart_only : ∀ s a1 a2, Only [.drives] s (State.spinStart s a1 a2) := by
  intro s a1 a2
  unfold State.spinStart
  extract_lets x1
  refine Only.via (State.modSpin_only _ _ _) rfl ?_
  refine Only.via (State.spinAxis_only _ _ _) rfl ?_
  exact Only.refl _ _

theorem execRotorDetectDone_only : ∀ a0 a1 s z, Only [.out, .log, .nvm, .nvs, .fn, .drives] s (runRow (execRotorDetectDone a0 a1 s) z) := by
  intro a0 a1 s z
  unfold execRotorDetectDone
  rw [runRow_next]
  refine Only.whenServing (fun t1 h2 => ?_) ?_
  · extract_lets x3 x4
    refine Only.ite (fun _ => ?_) (fun _ => ?_)
    · exact h2
    · split
      rename_i y5 y6 y7 y8 y9
      extract_lets x10
      refine Only.ite (fun _ => ?_) (fun _ => ?_)
      · refine Only.ite (fun _ => ?_) (fun _ => ?_)
        · refine Only.via (State.note_only _ _ _) rfl ?_
          refine Only.via (State.modSpin_only _ _ _) rfl ?_
          exact h2
        · refine Only.via (State.modSpin_only _ _ _) rfl ?_
          exact h2
      · refine Only.via (State.spinStart_only _ _ _) rfl ?_
        exact h2
  · exact Only.refl _ _

theorem execAlignmentDone_only : ∀ a0 s z, Only [.drives] s (runRow (execAlignmentDone a0 s) z) := by
  intro a0 s z
  unfold execAlignmentDone
  rw [runRow_next]
  refine Only.whenServing (fun t1 h2 => ?_) ?_
  · extract_lets x3
    refine Only.ite (fun _ => ?_) (fun _ => ?_)
    · refine Only.via (State.spinStart_only _ _ _) rfl ?_
      exact h2
    · exact h2
  · exact Only.refl _ _

theorem execForcedCommutation_only : ∀ a0 s z, Only [.drives] s (runRow (execForcedCommutation a0 s) z) := by
  intro a0 s z
  unfold execForcedCommutation
  rw [runRow_next]
  refine Only.whenServing (fun t1 h2 => ?_) ?_
  · extract_lets x3
    refine Only.ite (fun _ => ?_) (fun _ => ?_)
    · exact h2
    · refine Only.via (State.modSpin_only _ _ _) rfl ?_
      exact h2
  · exact Only.refl _ _

theorem State.commEvent_only : ∀ s a1 a2, Only [.drives] s (State.commEvent s a1 a2) := by
  intro s a1 a2
  unfold State.commEvent
  refine Only.via (State.modSpin_only _ _ _) rfl ?_
  exact Only.refl _ _

theorem State.spinReach_only : ∀ s a1, Only [.drives, .pwb] s (State.spinReach s a1) := by
  intro s a1
  unfold State.spinReach
  refine Only.ite (fun _ => ?_) (fun _ => ?_)
  · refine Only.via (State.returnGrant_only _ _) rfl ?_
    exact Only.refl _ _
  · exact Only.refl _ _

theorem State.judgeSpin_only : ∀ s a1, Only [.drives] s (State.judgeSpin s a1) := by
  intro s a1
  unfold State.judgeSpin
  extract_lets x1 x2 x3
  refine Only.ite (fun _ => ?_) (fun _ => ?_)
  · refine Only.via (State.modSpin_only _ _ _) rfl ?_
    exact Only.refl _ _
  · refine Only.ite (fun _ => ?_) (fun _ => ?_)
    · refine Only.ite (fun _ => ?_) (fun _ => ?_)
      · exact Only.refl _ _
      · refine Only.via (State.modSpin_only _ _ _) rfl ?_
        exact Only.refl _ _
    · refine Only.ite (fun _ => ?_) (fun _ => ?_)
      · refine Only.via (State.modSpin_only _ _ _) rfl ?_
        exact Only.refl _ _
      · refine Only.via (State.modSpin_only _ _ _) rfl ?_
        exact Only.refl _ _

theorem State.judgeKe_only : ∀ s a1, Only [.drives, .pwb] s (State.judgeKe s a1) := by
  intro s a1
  unfold State.judgeKe
  extract_lets x1 x2 x3 x4 x5 x6 x7 x8 x9
  refine Only.cut (t := x9) ?_ (fun h10 => ?_)
  · unfold x9
    unfold x5
    refine Only.via (State.modSpin_only _ _ _) rfl ?_
    refine Only.via (State.modSpin_only _ _ _) rfl ?_
    exact Only.refl _ _
  refine Only.ite (fun _ => ?_) (fun _ => ?_)
  · unfold x5
    refine Only.via (State.modSpin_only _ _ _) rfl ?_
    exact Only.refl _ _
  · refine Only.ite (fun _ => ?_) (fun _ => ?_)
    · refine Only.via (State.modSpin_only _ _ _) rfl ?_
      refine Only.via (State.spinBrake_only _ _ _) rfl ?_
      exact h10
    · exact h10

theorem State.revolution_only : ∀ s a1, Only [.drives, .pwb] s (State.revolution s a1) := by
  intro s a1
  unfold State.revolution
  refine Only.ite (fun _ => ?_) (fun _ => ?_)
  · exact Only.refl _ _
  · refine Only.via (State.judgeKe_only _ _) rfl ?_
    refine Only.via (State.judgeSpin_only _ _) rfl ?_
    refine Only.via (State.modSpin_only _ _ _) rfl ?_
    exact Only.refl _ _

theorem State.handOver_only : ∀ s a1, Only [.drives] s (State.handOver s a1) := by
  intro s a1
  unfold State.handOver
  extract_lets x1 x2
  refine Only.cut (t := x1) ?_ (fun h3 => ?_)
  · unfold x1
    refine Only.via (State.modSpin_only _ _ _) rfl ?_
    exact Only.refl _ _
  refine Only.via (State.closeAxis_only _ _) rfl ?_
  refine Only.via (State.modAxis_only _ _ _) rfl ?_
  exact h3

theorem execZeroCrossing_only : ∀ a0 a1 a2 a3 s z, Only [.out, .log, .nvm, .nvs, .inst, .fn, .fss, .arc, .drives, .pwb] s (runRow (execZeroCrossing a0 a1 a2 a3 s) z) := by
  intro a0 a1 a2 a3 s z
  unfold execZeroCrossing
  rw [runRow_next]
  refine Only.whenServing (fun t1 h2 => ?_) ?_
  · extract_lets x3 x4 x5 x6 x7
    refine Only.cut (t := x5) ?_ (fun h8 => ?_)
    · unfold x5
      refine Only.via (State.commEvent_only _ _ _) rfl ?_
      exact h2
    refine Only.cut (t := x7) ?_ (fun h9 => ?_)
    · unfold x7
      refine Only.ite (fun _ => ?_) (fun _ => ?_)
      · refine Only.via (State.modSpin_only _ _ _) rfl ?_
        exact h8
      · exact h8
    refine Only.ite (fun _ => ?_) (fun _ => ?_)
    · exact h2
    · refine Only.via (State.settle_only _) rfl ?_
      refine Only.ite (fun _ => ?_) (fun _ => ?_)
      · refine Only.ite (fun _ => ?_) (fun _ => ?_)
        · refine Only.via (State.handOver_only _ _) rfl ?_
          exact h8
        · exact h8
      · refine Only.via (State.spinReach_only _ _) rfl ?_
        refine Only.via (State.revolution_only _ _) rfl ?_
        exact h9
  · exact Only.refl _ _

theorem execCommutation_only : ∀ a0 s z, Only [.drives] s (runRow (execCommutation a0 s) z) := by
  intro a0 s z
  unfold execCommutation
  rw [runRow_next]
  refine Only.whenServing (fun t1 h2 => ?_) ?_
  · extract_lets x3
    refine Only.ite (fun _ => ?_) (fun _ => ?_)
    · refine Only.via (State.modSpin_only _ _ _) rfl ?_
      exact h2
    · exact h2
  · exact Only.refl _ _

theorem State.spinOver_only : ∀ s a1, Only [.out, .log, .nvm, .nvs, .fn, .drives, .pwb] s (State.spinOver s a1) := by
  intro s a1
  unfold State.spinOver
  extract_lets x1
  refine Only.ite (fun _ => ?_) (fun _ => ?_)
  · refine Only.ite (fun _ => ?_) (fun _ => ?_)
    · refine Only.via (State.spinFault_only _ _ _) rfl ?_
      exact Only.refl _ _
    · refine Only.via (State.modSpin_only _ _ _) rfl ?_
      exact Only.refl _ _
  · exact Only.refl _ _

theorem execSpindleOvercurrent_only : ∀ a0 s z, Only [.out, .log, .nvm, .nvs, .inst, .fn, .fss, .arc, .drives, .pwb] s (runRow (execSpindleOvercurrent a0 s) z) := by
  intro a0 s z
  unfold execSpindleOvercurrent
  rw [runRow_next]
  refine Only.whenServing (fun t1 h2 => ?_) ?_
  · refine Only.via (State.settle_only _) rfl ?_
    refine Only.via (State.spinOver_only _ _) rfl ?_
    exact h2
  · exact Only.refl _ _

theorem execCarrierPeriod_only : ∀ a0 a1 a2 a3 s z, Only [.out, .log, .nvm, .nvs, .inst, .fn, .fss, .arc, .drives, .pwb] s (runRow (execCarrierPeriod a0 a1 a2 a3 s) z) := by
  intro a0 a1 a2 a3 s z
  unfold execCarrierPeriod
  rw [runRow_next]
  refine Only.whenServing (fun t1 h2 => ?_) ?_
  · extract_lets x3 x4 x5
    refine Only.cut (t := x5) ?_ (fun h6 => ?_)
    · unfold x5
      refine Only.via (State.modSpin_only _ _ _) rfl ?_
      exact h2
    refine Only.ite (fun _ => ?_) (fun _ => ?_)
    · refine Only.via (State.sledPeriod_only _ _ _ _) rfl ?_
      exact h2
    · refine Only.ite (fun _ => ?_) (fun _ => ?_)
      · refine Only.via (State.settle_only _) rfl ?_
        refine Only.via (State.spinOver_only _ _) rfl ?_
        exact h6
      · refine Only.via (State.modSpin_only _ _ _) rfl ?_
        exact h6
  · exact Only.refl _ _

theorem State.brakeEnds_only : ∀ s a1, Only [.out, .log, .nvm, .nvs, .fn, .drives, .pwb] s (State.brakeEnds s a1) := by
  intro s a1
  unfold State.brakeEnds
  split
  · rename_i y1 y2
    refine Only.via (State.spinStopped_only _ _) rfl ?_
    exact Only.refl _ _
  · rename_i y3 y4
    refine Only.via (State.spinWait_only _ _) rfl ?_
    refine Only.via (State.spinStopped_only _ _) rfl ?_
    exact Only.refl _ _
  · rename_i y5 y6 y7
    refine Only.via (State.spinFault_only _ _ _) rfl ?_
    exact Only.refl _ _

theorem execBrakeProbe_only : ∀ a0 a1 s z, Only [.out, .log, .nvm, .nvs, .inst, .fn, .fss, .arc, .drives, .pwb] s (runRow (execBrakeProbe a0 a1 s) z) := by
  intro a0 a1 s z
  unfold execBrakeProbe
  rw [runRow_next]
  refine Only.whenServing (fun t1 h2 => ?_) ?_
  · extract_lets x3 x4 x5
    refine Only.ite (fun _ => ?_) (fun _ => ?_)
    · exact h2
    · refine Only.ite (fun _ => ?_) (fun _ => ?_)
      · refine Only.via (State.settle_only _) rfl ?_
        refine Only.via (State.brakeEnds_only _ _) rfl ?_
        exact h2
      · refine Only.via (State.modSpin_only _ _ _) rfl ?_
        exact h2
  · exact Only.refl _ _

theorem execBrakeTimeout_only : ∀ a0 s z, Only [.out, .log, .nvm, .nvs, .inst, .fn, .fss, .arc, .drives, .pwb] s (runRow (execBrakeTimeout a0 s) z) := by
  intro a0 s z
  unfold execBrakeTimeout
  rw [runRow_next]
  refine Only.whenServing (fun t1 h2 => ?_) ?_
  · refine Only.ite (fun _ => ?_) (fun _ => ?_)
    · refine Only.via (State.settle_only _) rfl ?_
      refine Only.via (State.note_only _ _ _) rfl ?_
      refine Only.via (State.brakeEnds_only _ _) rfl ?_
      exact h2
    · exact h2
  · exact Only.refl _ _

theorem execLockedRotorTimeout_only : ∀ a0 s z, Only [.out, .log, .nvm, .nvs, .inst, .fn, .fss, .arc, .drives, .pwb] s (runRow (execLockedRotorTimeout a0 s) z) := by
  intro a0 s z
  unfold execLockedRotorTimeout
  rw [runRow_next]
  refine Only.whenServing (fun t1 h2 => ?_) ?_
  · extract_lets x3 x4
    refine Only.ite (fun _ => ?_) (fun _ => ?_)
    · refine Only.via (State.settle_only _) rfl ?_
      refine Only.via (State.note_only _ _ _) rfl ?_
      refine Only.via (State.modSpin_only _ _ _) rfl ?_
      refine Only.via (State.spinStopped_only _ _) rfl ?_
      exact h2
    · exact h2
  · exact Only.refl _ _

theorem execLockedRotorRetry_only : ∀ a0 s z, Only [.out, .log, .nvm, .nvs, .inst, .fn, .fss, .arc, .drives, .pwb] s (runRow (execLockedRotorRetry a0 s) z) := by
  intro a0 s z
  unfold execLockedRotorRetry
  rw [runRow_next]
  refine Only.whenServing (fun t1 h2 => ?_) ?_
  · extract_lets x3 x4
    refine Only.ite (fun _ => ?_) (fun _ => ?_)
    · refine Only.via (State.settle_only _) rfl ?_
      refine Only.ite (fun _ => ?_) (fun _ => ?_)
      · refine Only.via (State.spinWait_only _ _) rfl ?_
        refine Only.via (State.modSpin_only _ _ _) rfl ?_
        exact h2
      · refine Only.via (State.spinFault_only _ _ _) rfl ?_
        exact h2
    · exact h2
  · exact Only.refl _ _

theorem State.rotorLoss_only : ∀ s a1, Only [.out, .log, .nvm, .nvs, .fn, .drives, .pwb] s (State.rotorLoss s a1) := by
  intro s a1
  unfold State.rotorLoss
  extract_lets x1 x2 x3 x4
  refine Only.cut (t := x3) ?_ (fun h5 => ?_)
  · unfold x3
    refine Only.via (State.note_only _ _ _) rfl ?_
    refine Only.via (State.modSpin_only _ _ _) rfl ?_
    exact Only.refl _ _
  refine Only.ite (fun _ => ?_) (fun _ => ?_)
  · refine Only.via (State.spinBrake_only _ _ _) rfl ?_
    exact h5
  · refine Only.via (State.modSpin_only _ _ _) rfl ?_
    refine Only.via (State.spinAxis_only _ _ _) rfl ?_
    refine Only.via (State.spinLeave_only _ _) rfl ?_
    exact h5

theorem execCrossingWindowMiss_only : ∀ a0 s z, Only [.out, .log, .nvm, .nvs, .inst, .fn, .fss, .arc, .drives, .pwb] s (runRow (execCrossingWindowMiss a0 s) z) := by
  intro a0 s z
  unfold execCrossingWindowMiss
  rw [runRow_next]
  refine Only.whenServing (fun t1 h2 => ?_) ?_
  · extract_lets x3
    refine Only.ite (fun _ => ?_) (fun _ => ?_)
    · exact h2
    · refine Only.ite (fun _ => ?_) (fun _ => ?_)
      · refine Only.via (State.modSpin_only _ _ _) rfl ?_
        exact h2
      · refine Only.via (State.settle_only _) rfl ?_
        refine Only.via (State.rotorLoss_only _ _) rfl ?_
        exact h2
  · exact Only.refl _ _

theorem execRotorReacquired_only : ∀ a0 a1 a2 s z, Only [.out, .log, .nvm, .nvs, .inst, .fn, .fss, .arc, .drives, .pwb] s (runRow (execRotorReacquired a0 a1 a2 s) z) := by
  intro a0 a1 a2 s z
  unfold execRotorReacquired
  rw [runRow_next]
  refine Only.whenServing (fun t1 h2 => ?_) ?_
  · extract_lets x3 x4 x5 x6
    refine Only.cut (t := x6) ?_ (fun h7 => ?_)
    · unfold x6
      refine Only.via (State.modSpin_only _ _ _) rfl ?_
      exact h2
    refine Only.ite (fun _ => ?_) (fun _ => ?_)
    · exact h2
    · refine Only.via (State.settle_only _) rfl ?_
      refine Only.ite (fun _ => ?_) (fun _ => ?_)
      · refine Only.via (State.spinBrake_only _ _ _) rfl ?_
        exact h2
      · refine Only.ite (fun _ => ?_) (fun _ => ?_)
        · exact h7
        · refine Only.via (State.closeAxis_only _ _) rfl ?_
          exact h7
  · exact Only.refl _ _

theorem execReacquisitionTimeout_only : ∀ a0 s z, Only [.out, .log, .nvm, .nvs, .inst, .fn, .fss, .arc, .drives, .pwb] s (runRow (execReacquisitionTimeout a0 s) z) := by
  intro a0 s z
  unfold execReacquisitionTimeout
  rw [runRow_next]
  refine Only.whenServing (fun t1 h2 => ?_) ?_
  · extract_lets x3
    refine Only.ite (fun _ => ?_) (fun _ => ?_)
    · refine Only.via (State.settle_only _) rfl ?_
      refine Only.via (State.spinBrake_only _ _ _) rfl ?_
      exact h2
    · exact h2
  · exact Only.refl _ _

theorem execSpindleIdleTimeout_only : ∀ a0 s z, Only [.out, .log, .nvm, .nvs, .inst, .fn, .fss, .arc, .drives, .pwb] s (runRow (execSpindleIdleTimeout a0 s) z) := by
  intro a0 s z
  unfold execSpindleIdleTimeout
  rw [runRow_next]
  refine Only.whenServing (fun t1 h2 => ?_) ?_
  · extract_lets x3 x4 x5
    refine Only.ite (fun _ => ?_) (fun _ => ?_)
    · refine Only.via (State.settle_only _) rfl ?_
      refine Only.via (State.modSpin_only _ _ _) rfl ?_
      refine Only.via (State.spinBrake_only _ _ _) rfl ?_
      exact h2
    · exact h2
  · exact Only.refl _ _

theorem State.seek_only : ∀ s a1 a2, Only [.drives] s (State.seek s a1 a2) := by
  intro s a1 a2
  unfold State.seek
  extract_lets x1 x2 x3
  refine Only.ite (fun _ => ?_) (fun _ => ?_)
  · refine Only.via (State.shortSeek_only _ _ _) rfl ?_
    exact Only.refl _ _
  · refine Only.via (State.sledSeekTo_only _ _) rfl ?_
    refine Only.via (State.openSled_only _ _ _) rfl ?_
    refine Only.via (State.rampOpen_only _ _ _) rfl ?_
    refine Only.via (State.modDrive_only _ _ _) rfl ?_
    exact Only.refl _ _

theorem execSeek_only : ∀ a0 a1 s z, Only [.out, .log, .nvm, .nvs, .inst, .fn, .fss, .arc, .drives, .pwb] s (runRow (execSeek a0 a1 s) z) := by
  intro a0 a1 s z
  unfold execSeek
  rw [runRow_next]
  refine Only.whenServing (fun t1 h2 => ?_) ?_
  · extract_lets x3 x4 x5 x6
    refine Only.cut (t := x4) ?_ (fun h7 => ?_)
    · unfold x4
      refine Only.via (State.touchDrive_only _ _) rfl ?_
      refine Only.via (State.take_only _ _) rfl ?_
      exact h2
    refine Only.cut (t := x6) ?_ (fun h8 => ?_)
    · unfold x6
      refine Only.via (State.modDrive_only _ _ _) rfl ?_
      exact h7
    split
    · rename_i y9 y10 y11 y12 y13 y14
      exact h8
    · rename_i y15 y16
      refine Only.via (State.sledSeekTo_only _ _) rfl ?_
      exact h8
    · rename_i y17 y18
      refine Only.via (State.settle_only _) rfl ?_
      refine Only.via (State.seek_only _ _ _) rfl ?_
      refine Only.via (State.modDrive_only _ _ _) rfl ?_
      exact h8
    · rename_i y19 y20 y21 y22
      exact h8
  · exact Only.refl _ _

theorem execSeekConfirm_only : ∀ a0 a1 s z, Only [.out, .log, .nvm, .nvs, .inst, .fn, .fss, .arc, .drives] s (runRow (execSeekConfirm a0 a1 s) z) := by
  intro a0 a1 s z
  unfold execSeekConfirm
  rw [runRow_next]
  refine Only.whenServing (fun t1 h2 => ?_) ?_
  · extract_lets x3 x4 x5 x6 x7
    refine Only.cut (t := x5) ?_ (fun h8 => ?_)
    · unfold x5
      refine Only.via (State.modDrive_only _ _ _) rfl ?_
      exact h2
    refine Only.cut (t := x7) ?_ (fun h9 => ?_)
    · unfold x7
      refine Only.via (State.modDrive_only _ _ _) rfl ?_
      exact h8
    refine Only.ite (fun _ => ?_) (fun _ => ?_)
    · exact h2
    · refine Only.ite (fun _ => ?_) (fun _ => ?_)
      · refine Only.via (State.settle_only _) rfl ?_
        refine Only.via (State.shortSeek_only _ _ _) rfl ?_
        exact h8
      · refine Only.ite (fun _ => ?_) (fun _ => ?_)
        · refine Only.via (State.modDrive_only _ _ _) rfl ?_
          exact h8
        · refine Only.via (State.settle_only _) rfl ?_
          refine Only.ite (fun _ => ?_) (fun _ => ?_)
          · refine Only.via (State.seek_only _ _ _) rfl ?_
            exact h9
          · refine Only.ite (fun _ => ?_) (fun _ => ?_)
            · refine Only.via (State.seek_only _ _ _) rfl ?_
              exact h9
            · refine Only.ite (fun _ => ?_) (fun _ => ?_)
              · refine Only.via (State.shortSeek_only _ _ _) rfl ?_
                exact h9
              · refine Only.via (State.note_only _ _ _) rfl ?_
                refine Only.via (State.openTrk_only _ _ _) rfl ?_
                exact h9
  · exact Only.refl _ _

theorem State.abandonSlot_only : ∀ s a1, Only [.out, .log, .nvm, .nvs, .inst, .fn, .fss, .arc, .drives] s (State.abandonSlot s a1) := by
  intro s a1
  unfold State.abandonSlot
  split
  · rename_i y1 y2 y3 y4 y5 y6
    refine Only.via (State.stripeBad_only _ _ _) rfl ?_
    refine Only.via (State.modWst_only _ _ _) rfl ?_
    exact Only.refl _ _
  · rename_i y7 y8 y9
    exact Only.refl _ _

theorem execChannelClockLockChange_only : ∀ a0 a1 a2 s z, Only [.out, .log, .nvm, .nvs, .inst, .fn, .fss, .arc, .drives] s (runRow (execChannelClockLockChange a0 a1 a2 s) z) := by
  intro a0 a1 a2 s z
  unfold execChannelClockLockChange
  rw [runRow_next]
  refine Only.whenServing (fun t1 h2 => ?_) ?_
  · extract_lets x3 x4
    refine Only.cut (t := x4) ?_ (fun h5 => ?_)
    · unfold x4
      refine Only.via (State.modRdc_only _ _ _) rfl ?_
      exact h2
    refine Only.ite (fun _ => ?_) (fun _ => ?_)
    · exact h2
    · refine Only.via (State.settle_only _) rfl ?_
      refine Only.ite (fun _ => ?_) (fun _ => ?_)
      · exact h5
      · refine Only.via (State.abandonSlot_only _ _) rfl ?_
        exact h5
  · exact Only.refl _ _

theorem execZoneWobbleMeasure_only : ∀ a0 a1 a2 a3 s z, Only [.drives] s (runRow (execZoneWobbleMeasure a0 a1 a2 a3 s) z) := by
  intro a0 a1 a2 a3 s z
  unfold execZoneWobbleMeasure
  rw [runRow_next]
  refine Only.whenServing (fun t1 h2 => ?_) ?_
  · refine Only.ite (fun _ => ?_) (fun _ => ?_)
    · refine Only.via (State.modRdc_only _ _ _) rfl ?_
      exact h2
    · exact h2
  · exact Only.refl _ _

theorem execFrameSync_only : ∀ a0 a1 a2 s z, Only [.drives] s (runRow (execFrameSync a0 a1 a2 s) z) := by
  intro a0 a1 a2 s z
  unfold execFrameSync
  rw [runRow_next]
  refine Only.whenServing (fun t1 h2 => ?_) ?_
  · extract_lets x3 x4 x5 x6 x7 x8
    refine Only.cut (t := x8) ?_ (fun h9 => ?_)
    · unfold x8
      split
      · rename_i y10 y11
        refine Only.via (State.modDrive_only _ _ _) rfl ?_
        exact h2
      · rename_i y12
        exact h2
    refine Only.ite (fun _ => ?_) (fun _ => ?_)
    · exact h2
    · refine Only.ite (fun _ => ?_) (fun _ => ?_)
      · exact h2
      · refine Only.via (State.modRdc_only _ _ _) rfl ?_
        exact h9
  · exact Only.refl _ _

theorem State.decodeSlot_only : ∀ s a1, Only [.drives] s (State.decodeSlot s a1) := by
  intro s a1
  unfold State.decodeSlot
  extract_lets x1
  split
  · rename_i y2 y3
    exact Only.refl _ _
  · rename_i y4 y5 y6
    split
    rename_i y7 y8 y9 y10
    refine Only.via (State.modRdc_only _ _ _) rfl ?_
    exact Only.refl _ _

end Sys2Proof.Machine
end

