-- ==== Sys2Proof/Laws/FrameArchive.lean ====
section
/-! SUPPORT. The frames of the archive, power calibration, disc sets, archive reads and calibration: the fields of State that each function can write. -/

namespace Sys2Proof.Machine

theorem execSegmentAdmit_only : ∀ s z, Only [.out, .log, .nvm, .nvs, .inst, .fn, .fss, .arc] s (runRow (execSegmentAdmit s) z) := by
  intro s z
  unfold execSegmentAdmit
  rw [runRow_next]
  refine Only.whenServing (fun t1 h2 => ?_) ?_
  · split
    · rename_i y3 y4 y5
      extract_lets x6 x7
      refine Only.cut (t := x6) ?_ (fun h8 => ?_)
      · unfold x6
        refine Only.via (State.modSeg_only _ _ _) rfl ?_
        exact h2
      refine Only.via (Only.set_arc _ _) rfl ?_
      exact h8
    · rename_i y9 y10
      refine Only.via (State.noteWaiting_only _) rfl ?_
      exact h2
  · exact Only.refl _ _

theorem State.takeArcSeq_only : ∀ s a1, Only [.inst, .fss] s (State.takeArcSeq s a1).2 := by
  intro s a1
  unfold State.takeArcSeq
  extract_lets x1 x2
  refine Only.cut (t := x2) ?_ (fun h3 => ?_)
  · unfold x2
    refine Only.via (State.modInst_only _ _ _) rfl ?_
    exact Only.refl _ _
  split
  · rename_i y4
    refine Only.via (State.jAdd_only _ _) rfl ?_
    refine Only.via (State.modInst_only _ _ _) rfl ?_
    exact h3
  · rename_i y5
    exact h3

theorem readPinned_only : ∀ a0 a1 a2 a3 s, Only [.out, .tm, .hlt, .log, .nvm, .nvs, .sec, .inst, .fn, .cmds, .oldOps, .due, .reads, .fss, .sea, .mch, .fetches, .drives, .pwb, .cal, .mon, .rate] s (readPinned a0 a1 a2 a3 s).2 := by
  intro a0 a1 a2 a3 s
  induction a1 generalizing a0 a2 a3 s with
  | zero =>
    rw [readPinned]
    exact Only.refl _ _
  | succ n ih =>
    rw [readPinned]
    split
    · rename_i y1
      split
      · rename_i y2 y3 y4 y5 y6
        refine Only.ofPair y6 ?_
        refine Only.via (ih _ _ _ _) rfl ?_
        exact Only.refl _ _
      · rename_i y7 y8 y9
        refine Only.ofPair y9 ?_
        refine Only.via (ih _ _ _ _) rfl ?_
        exact Only.refl _ _
    · rename_i y10
      split
      · rename_i y11
        exact Only.refl _ _
      · rename_i y12
        extract_lets x13 x14 x15
        refine Only.cut (t := x15) ?_ (fun h16 => ?_)
        · unfold x15
          refine Only.via (State.unitRead_only _ _ _) rfl ?_
          exact Only.refl _ _
        split
        · rename_i y17
          exact h16
        · rename_i y18
          split
          · rename_i y19 y20 y21 y22 y23
            refine Only.ofPair y23 ?_
            refine Only.via (ih _ _ _ _) rfl ?_
            exact h16
          · rename_i y24 y25 y26
            refine Only.ofPair y26 ?_
            refine Only.via (ih _ _ _ _) rfl ?_
            exact h16

theorem State.formatBlock_only : ∀ s a1 a2 a3, Only [.out, .tm, .hlt, .log, .nvm, .nvs, .sec, .inst, .fn, .cmds, .oldOps, .due, .reads, .fss, .sea, .mch, .fetches, .drives, .pwb, .cal, .mon, .rate] s (State.formatBlock s a1 a2 a3).2 := by
  intro s a1 a2 a3
  unfold State.formatBlock
  extract_lets x1 x2
  refine Only.cut (t := x2) ?_ (fun h3 => ?_)
  · unfold x2
    refine Only.via (State.touchRun_only _ _ _ _) rfl ?_
    exact Only.refl _ _
  split
  · rename_i y4 y5 y6
    refine Only.ofPair y6 ?_
    refine Only.via (readPinned_only _ _ _ _ _) rfl ?_
    exact h3
  · rename_i y7 y8 y9 y10 y11
    split
    rename_i y12 y13 y14 y15
    extract_lets x16 x17 x18 x19
    refine Only.cut (t := x18) ?_ (fun h20 => ?_)
    · unfold x18
      refine Only.via (State.modInst_only _ _ _) rfl ?_
      refine Only.ofPair y15 ?_
      refine Only.via (State.takeArcSeq_only _ _) rfl ?_
      refine Only.ofPair y11 ?_
      refine Only.via (readPinned_only _ _ _ _ _) rfl ?_
      exact h3
    refine Only.cut (t := x19) ?_ (fun h21 => ?_)
    · unfold x19
      refine Only.via (State.modSeg_only _ _ _) rfl ?_
      exact h20
    exact h21

theorem State.placeBlock_only : ∀ s a1, Only [.arc] s (State.placeBlock s a1) := by
  intro s a1
  unfold State.placeBlock
  extract_lets x1 x2 x3 x4 x5 x6
  refine Only.cut (t := x3) ?_ (fun h7 => ?_)
  · unfold x3
    refine Only.via (Only.set_arc _ _) rfl ?_
    exact Only.refl _ _
  refine Only.ite (fun _ => ?_) (fun _ => ?_)
  · refine Only.via (Only.set_arc _ _) rfl ?_
    exact h7
  · refine Only.via (Only.set_arc _ _) rfl ?_
    exact h7

theorem State.formatRun_only : ∀ s a1 a2 a3 a4, Only [.out, .tm, .hlt, .log, .nvm, .nvs, .sec, .inst, .fn, .cmds, .oldOps, .due, .reads, .fss, .sea, .mch, .fetches, .arc, .drives, .pwb, .cal, .mon, .rate] s (State.formatRun s a1 a2 a3 a4).2 := by
  intro s a1 a2 a3 a4
  induction a4 generalizing s a1 a2 a3 with
  | zero =>
    rw [State.formatRun]
    exact Only.refl _ _
  | succ n ih =>
    rw [State.formatRun]
    split
    · rename_i y1 y2
      exact Only.refl _ _
    · rename_i y3 y4 y5
      split
      · rename_i y6 y7 y8
        refine Only.ofPair y8 ?_
        refine Only.via (State.formatBlock_only _ _ _ _) rfl ?_
        exact Only.refl _ _
      · rename_i y9 y10 y11 y12 y13
        extract_lets x14
        refine Only.cut (t := x14.2) ?_ (fun h15 => ?_)
        · unfold x14
          refine Only.via (ih _ _ _ _) rfl ?_
          refine Only.via (State.placeBlock_only _ _) rfl ?_
          refine Only.ofPair y13 ?_
          refine Only.via (State.formatBlock_only _ _ _ _) rfl ?_
          exact Only.refl _ _
        unfold x14
        refine Only.via (ih _ _ _ _) rfl ?_
        refine Only.via (State.placeBlock_only _ _) rfl ?_
        refine Only.ofPair y13 ?_
        refine Only.via (State.formatBlock_only _ _ _ _) rfl ?_
        exact Only.refl _ _

theorem State.pendRun_only : ∀ s a1, Only [.arc] s (State.pendRun s a1) := by
  intro s a1
  unfold State.pendRun
  refine Only.via (Only.set_arc _ _) rfl ?_
  exact Only.refl _ _

theorem execArchiveBlockFormat_only : ∀ a0 s z, Only [.out, .tm, .hlt, .log, .nvm, .nvs, .sec, .inst, .fn, .cmds, .oldOps, .due, .reads, .fss, .sea, .mch, .fetches, .arc, .drives, .pwb, .cal, .mon, .rate] s (runRow (execArchiveBlockFormat a0 s) z) := by
  intro a0 s z
  unfold execArchiveBlockFormat
  rw [runRow_next]
  refine Only.whenServing (fun t1 h2 => ?_) ?_
  · split
    · rename_i y3 y4
      exact h2
    · rename_i y5 y6 y7 y8
      refine Only.ite (fun _ => ?_) (fun _ => ?_)
      · exact h2
      · split
        · rename_i y9 y10 y11
          refine Only.via (Only.set_arc _ _) rfl ?_
          exact h2
        · rename_i y12 y13 y14 y15
          extract_lets x16
          split
          rename_i y17 y18 y19 y20
          extract_lets x21
          refine Only.ite (fun _ => ?_) (fun _ => ?_)
          · exact h2
          · split
            rename_i y22 y23 y24 y25 y26
            extract_lets x27 x28
            refine Only.cut (t := x27) ?_ (fun h29 => ?_)
            · unfold x27
              refine Only.ite (fun _ => ?_) (fun _ => ?_)
              · refine Only.ofPair y26 ?_
                refine Only.via (State.formatRun_only _ _ _ _ _) rfl ?_
                exact h2
              · refine Only.via (State.pendRun_only _ _) rfl ?_
                refine Only.ofPair y26 ?_
                refine Only.via (State.formatRun_only _ _ _ _ _) rfl ?_
                exact h2
            refine Only.ite (fun _ => ?_) (fun _ => ?_)
            · refine Only.via (State.note_only _ _ _) rfl ?_
              refine Only.via (State.modSeg_only _ _ _) rfl ?_
              refine Only.via (Only.set_arc _ _) rfl ?_
              exact h29
            · refine Only.ite (fun _ => ?_) (fun _ => ?_)
              · refine Only.via (Only.set_arc _ _) rfl ?_
                exact h29
              · refine Only.via (Only.set_arc _ _) rfl ?_
                exact h29
  · exact Only.refl _ _

theorem State.fillStripe_only : ∀ s, Only [.arc] s (State.fillStripe s) := by
  intro s
  unfold State.fillStripe
  split
  · rename_i y1 y2
    refine Only.via (State.placeBlock_only _ _) rfl ?_
    refine Only.via (State.placeBlock_only _ _) rfl ?_
    exact Only.refl _ _
  · rename_i y3 y4
    refine Only.via (State.placeBlock_only _ _) rfl ?_
    exact Only.refl _ _
  · rename_i y5 y6 y7
    exact Only.refl _ _

theorem execFillerTimeout_only : ∀ s z, Only [.arc] s (runRow (execFillerTimeout s) z) := by
  intro s z
  unfold execFillerTimeout
  rw [runRow_next]
  refine Only.whenServing (fun t1 h2 => ?_) ?_
  · refine Only.ite (fun _ => ?_) (fun _ => ?_)
    · refine Only.via (State.fillStripe_only _) rfl ?_
      exact h2
    · exact h2
  · exact Only.refl _ _

theorem State.beginSlot_only : ∀ s a1 a2 a3, Only [.drives] s (State.beginSlot s a1 a2 a3) := by
  intro s a1 a2 a3
  unfold State.beginSlot
  extract_lets x1
  refine Only.via (State.modDrive_only _ _ _) rfl ?_
  refine Only.via (State.modSpin_only _ _ _) rfl ?_
  refine Only.via (State.modWst_only _ _ _) rfl ?_
  exact Only.refl _ _

theorem execStripeRecordStart_only : ∀ s z, Only [.out, .arc, .drives] s (runRow (execStripeRecordStart s) z) := by
  intro s z
  unfold execStripeRecordStart
  rw [runRow_next]
  refine Only.whenServing (fun t1 h2 => ?_) ?_
  · split
    · rename_i y3 y4
      exact h2
    · rename_i y5 y6 y7
      extract_lets x8 x9 x10 x11
      refine Only.cut (t := x11) ?_ (fun h12 => ?_)
      · unfold x11
        refine Only.via (Only.set_arc _ _) rfl ?_
        exact h2
      refine Only.ite (fun _ => ?_) (fun _ => ?_)
      · exact h2
      · refine Only.forEach (fun a13 t14 h15 => ?_) ?_
        · split
          · rename_i y16 y17 y18 y19
            refine Only.via (State.emit_only _ _) rfl ?_
            refine Only.via (State.beginSlot_only _ _ _ _) rfl ?_
            exact h15
          · rename_i y20 y21 y22
            exact h15
        · exact h12
  · exact Only.refl _ _

theorem State.zoneCount_only : ∀ s a1 a2, Only [.cal] s (State.zoneCount s a1 a2) := by
  intro s a1 a2
  unfold State.zoneCount
  extract_lets x1 x2 x3 x4
  refine Only.cut (t := x4) ?_ (fun h5 => ?_)
  · unfold x4
    refine Only.via (Only.set_cal _ _) rfl ?_
    exact Only.refl _ _
  refine Only.ite (fun _ => ?_) (fun _ => ?_)
  · refine Only.via (State.calFallsDue_only _ _ _) rfl ?_
    exact h5
  · exact h5

theorem State.verifiedTo_only : ∀ s a1 a2 a3, Only [.inst] s (State.verifiedTo s a1 a2 a3) := by
  intro s a1 a2 a3
  unfold State.verifiedTo
  refine Only.via (State.modInst_only _ _ _) rfl ?_
  exact Only.refl _ _

theorem State.stripeDone_only : ∀ s a1, Only [.inst, .fss, .arc, .cal] s (State.stripeDone s a1) := by
  intro s a1
  unfold State.stripeDone
  split
  · rename_i y1 y2
    exact Only.refl _ _
  · rename_i y3 y4 y5
    extract_lets x6 x7 x8 x9
    refine Only.cut (t := x8) ?_ (fun h10 => ?_)
    · unfold x8
      refine Only.via (Only.set_arc _ _) rfl ?_
      exact Only.refl _ _
    refine Only.cut (t := x9) ?_ (fun h11 => ?_)
    · unfold x9
      refine Only.forEach (fun a12 t13 h14 => ?_) ?_
      · refine Only.via (State.verifiedTo_only _ _ _ _) rfl ?_
        refine Only.via (State.modSeg_only _ _ _) rfl ?_
        exact h14
      · exact h10
    refine Only.forEach (fun a15 t16 h17 => ?_) ?_
    · split
      · rename_i y18 y19 y20
        refine Only.ite (fun _ => ?_) (fun _ => ?_)
        · refine Only.via (State.zoneCount_only _ _ _) rfl ?_
          exact h17
        · exact h17
      · rename_i y21 y22
        exact h17
    · exact h11

theorem State.stripeGood_only : ∀ s a1 a2, Only [.out, .log, .nvm, .nvs, .inst, .fn, .fss, .arc, .cal] s (State.stripeGood s a1 a2) := by
  intro s a1 a2
  unfold State.stripeGood
  extract_lets x1 x2
  refine Only.cut (t := x2) ?_ (fun h3 => ?_)
  · unfold x2
    refine Only.via (Only.set_arc _ _) rfl ?_
    exact Only.refl _ _
  split
  · rename_i y4 y5 y6
    refine Only.ite (fun _ => ?_) (fun _ => ?_)
    · refine Only.via (State.replaceStripe_only _ _) rfl ?_
      exact h3
    · refine Only.via (State.stripeDone_only _ _) rfl ?_
      exact h3
  · rename_i y7 y8
    exact h3

theorem execSlotVerifyResult_only : ∀ a0 a1 s z, Only [.out, .log, .nvm, .nvs, .inst, .fn, .fss, .arc, .drives, .cal] s (runRow (execSlotVerifyResult a0 a1 s) z) := by
  intro a0 a1 s z
  unfold execSlotVerifyResult
  rw [runRow_next]
  refine Only.whenServing (fun t1 h2 => ?_) ?_
  · extract_lets x3
    split
    · rename_i y4 y5 y6 y7 y8 y9 y10 y11 y12
      refine Only.ite (fun _ => ?_) (fun _ => ?_)
      · exact h2
      · extract_lets x13 x14
        refine Only.cut (t := x14) ?_ (fun h15 => ?_)
        · unfold x14
          refine Only.via (State.modDrive_only _ _ _) rfl ?_
          exact h2
        refine Only.via (State.settle_only _) rfl ?_
        refine Only.ite (fun _ => ?_) (fun _ => ?_)
        · refine Only.via (State.stripeGood_only _ _ _) rfl ?_
          exact h15
        · refine Only.via (State.stripeBad_only _ _ _) rfl ?_
          exact h15
    · rename_i y16 y17 y18 y19
      exact h2
  · exact Only.refl _ _

theorem State.putStruct_only : ∀ s a1 a2 a3, Only [.out] s (State.putStruct s a1 a2 a3) := by
  intro s a1 a2 a3
  unfold State.putStruct
  refine Only.forEach (fun a1 t2 h3 => ?_) ?_
  · refine Only.forBelow (fun a4 t5 h6 => ?_) ?_
    · extract_lets x7
      refine Only.via (State.emit_only _ _) rfl ?_
      exact h6
    · exact h3
  · exact Only.refl _ _

theorem State.useStruct_only : ∀ s a1, Only [.arc] s (State.useStruct s a1) := by
  intro s a1
  unfold State.useStruct
  refine Only.via (Only.set_arc _ _) rfl ?_
  exact Only.refl _ _

theorem State.writeStruct_only : ∀ s a1 a2 a3, ∀ r, State.writeStruct s a1 a2 a3 = some r → Only [.out, .arc] s r := by
  intro s a1 a2 a3
  induction a3 generalizing s with
  | zero =>
    intro r hr
    have h : Only [.out, .arc] s ((s.putStruct a1 (s.arc.usedOf a1) a2).useStruct a1) :=
      Only.via (State.useStruct_only _ _) rfl (Only.mono (State.putStruct_only _ _ _ _) rfl)
    unfold State.writeStruct at hr
    split at hr
    · cases hr
    · cases hr
      split
      · exact h
      · exact Only.via (Only.set_arc _ _) rfl h
  | succ n ih =>
    intro r hr
    unfold State.writeStruct at hr
    split at hr
    · cases hr
    · exact Only.trans (Only.via (State.useStruct_only _ _) rfl (Only.mono (State.putStruct_only _ _ _ _) rfl)) (ih _ _ hr)

theorem State.areasFill_only : ∀ s, Only [.out, .log, .nvm, .nvs, .inst, .fn, .fss, .arc] s (State.areasFill s) := by
  intro s
  unfold State.areasFill
  refine Only.ite (fun _ => ?_) (fun _ => ?_)
  · refine Only.via (State.setIsFull_only _) rfl ?_
    exact Only.refl _ _
  · exact Only.refl _ _

theorem State.writeSr_only : ∀ s a1, Only [.out, .log, .nvm, .nvs, .inst, .fn, .fss, .arc] s (State.writeSr s a1) := by
  intro s a1
  unfold State.writeSr
  extract_lets x1 x2 x3
  split
  · rename_i y4 y5
    refine Only.via (State.setIsFull_only _) rfl ?_
    exact Only.refl _ _
  · rename_i y6 y7 y8
    refine Only.via (State.areasFill_only _) rfl ?_
    refine Only.via (Only.set_arc _ _) rfl ?_
    refine Only.ofOpt y8 (State.writeStruct_only _ _ _ _) rfl ?_
    exact Only.refl _ _

theorem State.writePending_only : ∀ s a1, Only [.out, .log, .nvm, .nvs, .inst, .fn, .fss, .arc] s (State.writePending s a1) := by
  intro s a1
  unfold State.writePending
  extract_lets x1 x2 x3
  refine Only.cut (t := x3) ?_ (fun h4 => ?_)
  · unfold x3
    refine Only.ite (fun _ => ?_) (fun _ => ?_)
    · exact Only.refl _ _
    · split
      · rename_i y5 y6 y7
        refine Only.via (State.setIsFull_only _) rfl ?_
        exact Only.refl _ _
      · rename_i y8 y9 y10 y11
        refine Only.via (State.areasFill_only _) rfl ?_
        refine Only.via (Only.set_arc _ _) rfl ?_
        refine Only.ofOpt y11 (State.writeStruct_only _ _ _ _) rfl ?_
        exact Only.refl _ _
  refine Only.forBelow (fun a12 t13 h14 => ?_) ?_
  · refine Only.via (State.writeSr_only _ _) rfl ?_
    exact h14
  · exact h4

theorem execPendingEntriesWrite_only : ∀ a0 s z, Only [.out, .log, .nvm, .nvs, .inst, .fn, .fss, .arc, .drives] s (runRow (execPendingEntriesWrite a0 s) z) := by
  intro a0 s z
  unfold execPendingEntriesWrite
  rw [runRow_next]
  refine Only.whenServing (fun t1 h2 => ?_) ?_
  · refine Only.ite (fun _ => ?_) (fun _ => ?_)
    · refine Only.via (State.settle_only _) rfl ?_
      refine Only.via (State.writePending_only _ _) rfl ?_
      exact h2
    · exact h2
  · exact Only.refl _ _

theorem State.drainEnds_only : ∀ s a1, Only [.out, .nvm, .nvs, .inst, .fn, .fss] s (State.drainEnds s a1) := by
  intro s a1
  unfold State.drainEnds
  refine Only.ite (fun _ => ?_) (fun _ => ?_)
  · refine Only.via (State.journalRecord_only _ _) rfl ?_
    refine Only.via (State.setIState_only _ _ _) rfl ?_
    refine Only.via (State.destroyKey_only _ _) rfl ?_
    exact Only.refl _ _
  · exact Only.refl _ _

theorem State.postDone_only : ∀ s a1, Only [.out, .nvm, .nvs, .inst, .fn, .fss] s (State.postDone s a1) := by
  intro s a1
  unfold State.postDone
  extract_lets x1 x2 x3 x4 x5 x6 x7
  refine Only.cut (t := x3) ?_ (fun h8 => ?_)
  · unfold x3
    refine Only.ite (fun _ => ?_) (fun _ => ?_)
    · refine Only.via (State.postOwn_only _ _ _ _) rfl ?_
      exact Only.refl _ _
    · refine Only.via (State.postPeer_only _ _ _ _) rfl ?_
      exact Only.refl _ _
  refine Only.cut (t := x4) ?_ (fun h9 => ?_)
  · unfold x4
    refine Only.via (State.count_only _ _ _) rfl ?_
    exact h8
  refine Only.cut (t := x5) ?_ (fun h10 => ?_)
  · unfold x5
    refine Only.via (State.modInst_only _ _ _) rfl ?_
    exact h9
  refine Only.cut (t := x7) ?_ (fun h11 => ?_)
  · unfold x7
    refine Only.via (Only.set_fss _ _) rfl ?_
    exact h10
  refine Only.via (State.drainEnds_only _ _) rfl ?_
  refine Only.via (State.refreshUsed_only _ _) rfl ?_
  exact h11

theorem execArchiveDone_only : ∀ a0 s z, Only [.out, .nvm, .nvs, .inst, .fn, .fss] s (runRow (execArchiveDone a0 s) z) := by
  intro a0 s z
  unfold execArchiveDone
  rw [runRow_next]
  refine Only.whenServing (fun t1 h2 => ?_) ?_
  · split
    · rename_i y3 y4
      exact h2
    · rename_i y5 y6 y7
      split
      · rename_i y8 y9 y10
        refine Only.ite (fun _ => ?_) (fun _ => ?_)
        · refine Only.via (State.postDone_only _ _) rfl ?_
          exact h2
        · exact h2
      · rename_i y11 y12
        refine Only.ite (fun _ => ?_) (fun _ => ?_)
        · extract_lets x13 x14
          refine Only.cut (t := x13) ?_ (fun h15 => ?_)
          · unfold x13
            refine Only.via (State.markUnits_only _ _) rfl ?_
            exact h2
          refine Only.cut (t := x14) ?_ (fun h16 => ?_)
          · unfold x14
            refine Only.via (State.jAdd_only _ _) rfl ?_
            exact h15
          refine Only.via (State.refreshUsed_only _ _) rfl ?_
          refine Only.via (State.modSeg_only _ _ _) rfl ?_
          exact h16
        · exact h2
  · exact Only.refl _ _

theorem execDegradedDriveTimeout_only : ∀ a0 s z, Only [.out, .log, .nvm, .nvs, .inst, .fn, .fss, .arc, .drives] s (runRow (execDegradedDriveTimeout a0 s) z) := by
  intro a0 s z
  unfold execDegradedDriveTimeout
  rw [runRow_next]
  refine Only.whenServing (fun t1 h2 => ?_) ?_
  · extract_lets x3 x4 x5 x6
    refine Only.ite (fun _ => ?_) (fun _ => ?_)
    · refine Only.via (State.settle_only _) rfl ?_
      refine Only.via (State.note_only _ _ _) rfl ?_
      refine Only.via (Only.set_arc _ _) rfl ?_
      exact h2
    · exact h2
  · exact Only.refl _ _

theorem execOpcGo_only : ∀ a0 s z, Only [.drives] s (runRow (execOpcGo a0 s) z) := by
  intro a0 s z
  unfold execOpcGo
  rw [runRow_next]
  refine Only.whenServing (fun t1 h2 => ?_) ?_
  · refine Only.via (State.modWst_only _ _ _) rfl ?_
    exact h2
  · exact Only.refl _ _

theorem State.opcFails_only : ∀ s a1 a2, Only [.out, .log, .nvm, .nvs, .fn, .drives, .cal] s (State.opcFails s a1 a2) := by
  intro s a1 a2
  unfold State.opcFails
  extract_lets x1
  refine Only.cut (t := x1) ?_ (fun h2 => ?_)
  · unfold x1
    refine Only.via (State.modItem_only _ _ _ _) rfl ?_
    exact Only.refl _ _
  refine Only.via (State.note_only _ _ _) rfl ?_
  refine Only.via (State.modWst_only _ _ _) rfl ?_
  exact h2

theorem State.endOpc_only : ∀ s a1 a2 a3, Only [.out, .log, .nvm, .nvs, .fn, .drives, .cal] s (State.endOpc s a1 a2 a3) := by
  intro s a1 a2 a3
  unfold State.endOpc
  extract_lets x1 x2 x3 x4 x5
  clear_value x3
  refine Only.cut (t := x4) ?_ (fun h6 => ?_)
  · unfold x4
    refine Only.via (State.modWst_only _ _ _) rfl ?_
    exact Only.refl _ _
  refine Only.cut (t := x5) ?_ (fun h7 => ?_)
  · unfold x5
    refine Only.via (State.calFallsDue_only _ _ _) rfl ?_
    exact h6
  split
  · rename_i y8 y9
    refine Only.ite (fun _ => ?_) (fun _ => ?_)
    · refine Only.via (State.modWst_only _ _ _) rfl ?_
      refine Only.via (State.calCount_only _ _ _ _) rfl ?_
      exact h7
    · refine Only.via (State.opcFails_only _ _ _) rfl ?_
      exact h7
  · rename_i y10
    refine Only.via (State.opcFails_only _ _ _) rfl ?_
    exact h7

theorem execOpcRun_only : ∀ a0 a1 a2 s z, Only [.out, .log, .nvm, .nvs, .inst, .fn, .fss, .arc, .drives, .pwb, .cal] s (runRow (execOpcRun a0 a1 a2 s) z) := by
  intro a0 a1 a2 s z
  unfold execOpcRun
  rw [runRow_next]
  refine Only.whenServing (fun t1 h2 => ?_) ?_
  · extract_lets x3 x4
    split
    · rename_i y5
      refine Only.ite (fun _ => ?_) (fun _ => ?_)
      · exact h2
      · refine Only.ite (fun _ => ?_) (fun _ => ?_)
        · refine Only.via (State.modWst_only _ _ _) rfl ?_
          exact h2
        · refine Only.via (State.modWst_only _ _ _) rfl ?_
          refine Only.via (State.touchDrive_only _ _) rfl ?_
          exact h2
    · rename_i y6 y7
      refine Only.ite (fun _ => ?_) (fun _ => ?_)
      · refine Only.via (State.settle_only _) rfl ?_
        refine Only.via (State.endOpc_only _ _ _ _) rfl ?_
        exact h2
      · exact h2
  · exact Only.refl _ _

theorem State.loadDrives_only : ∀ s a1 a2 a3, Only [.drives] s (State.loadDrives s a1 a2 a3) := by
  intro s a1 a2 a3
  unfold State.loadDrives
  refine Only.forBelow (fun a1 t2 h3 => ?_) ?_
  · extract_lets x4 x5
    clear_value x4
    refine Only.via (State.modDrive_only _ _ _) rfl ?_
    exact h3
  · exact Only.refl _ _

theorem State.loadItems_only : ∀ s, Only [.cal] s (State.loadItems s) := by
  intro s
  unfold State.loadItems
  extract_lets x1 x2
  refine Only.cut (t := x2) ?_ (fun h3 => ?_)
  · unfold x2
    refine Only.via (Only.set_cal _ _) rfl ?_
    exact Only.refl _ _
  refine Only.forEach (fun a4 t5 h6 => ?_) ?_
  · refine Only.via (State.calFallsDue_only _ _ _) rfl ?_
    refine Only.via (State.calFallsDue_only _ _ _) rfl ?_
    refine Only.via (State.calFallsDue_only _ _ _) rfl ?_
    refine Only.via (State.calFallsDue_only _ _ _) rfl ?_
    exact h6
  · exact h3

theorem State.leaveSet_only : ∀ s a1, Only [.out, .log, .nvm, .nvs, .inst, .fn, .fss, .arc] s (State.leaveSet s a1) := by
  intro s a1
  unfold State.leaveSet
  extract_lets x1
  refine Only.ite (fun _ => ?_) (fun _ => ?_)
  · refine Only.via (State.writePending_only _ _) rfl ?_
    exact Only.refl _ _
  · exact Only.refl _ _

theorem State.initSet_only : ∀ s a1 a2 a3, Only [.out, .free, .log, .nvm, .nvs, .inst, .fn, .fss, .arc, .drives, .cal] s (State.initSet s a1 a2 a3) := by
  intro s a1 a2 a3
  unfold State.initSet
  extract_lets x1 x2 x3 x4 x5 x6 x7
  refine Only.cut (t := x2) ?_ (fun h8 => ?_)
  · unfold x2
    refine Only.via (State.useFree_only _) rfl ?_
    exact Only.refl _ _
  refine Only.cut (t := x5) ?_ (fun h9 => ?_)
  · unfold x5
    refine Only.via (Only.set_arc _ _) rfl ?_
    exact h8
  refine Only.cut (t := x7) ?_ (fun h10 => ?_)
  · unfold x7
    refine Only.getD (State.writeStruct_only _ _ _ _) rfl ?_ ?_
    · exact h9
    · refine Only.via (State.setIsFull_only _) rfl ?_
      exact h9
  refine Only.via (State.noteWaiting_only _) rfl ?_
  refine Only.via (State.journalRecord_only _ _) rfl ?_
  refine Only.via (State.loadItems_only _) rfl ?_
  refine Only.via (State.loadDrives_only _ _ _ _) rfl ?_
  exact h10

theorem State.scanWhole_only : ∀ s a1, Only [.inst, .fss, .arc] s (State.scanWhole s a1) := by
  intro s a1
  unfold State.scanWhole
  extract_lets x1 x2 x3
  refine Only.cut (t := x3) ?_ (fun h4 => ?_)
  · unfold x3
    refine Only.via (Only.set_arc _ _) rfl ?_
    exact Only.refl _ _
  refine Only.forEach (fun a5 t6 h7 => ?_) ?_
  · extract_lets x8 x9 x10
    refine Only.cut (t := x9) ?_ (fun h11 => ?_)
    · unfold x9
      refine Only.via (Only.set_arc _ _) rfl ?_
      exact h7
    refine Only.cut (t := x10) ?_ (fun h12 => ?_)
    · unfold x10
      refine Only.ite (fun _ => ?_) (fun _ => ?_)
      · refine Only.via (State.modSeg_only _ _ _) rfl ?_
        exact h11
      · exact h11
    refine Only.ite (fun _ => ?_) (fun _ => ?_)
    · refine Only.via (State.verifiedTo_only _ _ _ _) rfl ?_
      exact h12
    · exact h12
  · exact h4

theorem State.reformat_only : ∀ s a1, Only [.out, .tm, .hlt, .log, .nvm, .nvs, .sec, .inst, .fn, .cmds, .oldOps, .due, .reads, .fss, .sea, .mch, .fetches, .drives, .pwb, .cal, .mon, .rate] s (State.reformat s a1).2 := by
  intro s a1
  unfold State.reformat
  split
  · rename_i y1 y2 y3
    split
    · rename_i y4 y5 y6 y7 y8
      refine Only.ofPair y8 ?_
      refine Only.via (State.formatBlock_only _ _ _ _) rfl ?_
      exact Only.refl _ _
    · rename_i y9 y10 y11
      refine Only.ofPair y11 ?_
      refine Only.via (State.formatBlock_only _ _ _ _) rfl ?_
      exact Only.refl _ _
  · rename_i y12 y13
    exact Only.refl _ _

theorem State.scanPart_only : ∀ s a1, Only [.out, .tm, .hlt, .log, .nvm, .nvs, .sec, .inst, .fn, .cmds, .oldOps, .due, .reads, .fss, .sea, .mch, .fetches, .arc, .drives, .pwb, .cal, .mon, .rate] s (State.scanPart s a1) := by
  intro s a1
  unfold State.scanPart
  split
  rename_i y1 y2 y3 y4
  extract_lets x5 x6 x7
  split
  · rename_i y8 y9
    refine Only.via (State.setIsFull_only _) rfl ?_
    refine Only.ofPair y4 ?_
    refine Only.foldlSnd (fun t11 a10 h12 => ?_) ?_
    · extract_lets x13
      refine Only.cut (t := x13.2) ?_ (fun h14 => ?_)
      · unfold x13
        refine Only.via (State.reformat_only _ _) rfl ?_
        exact h12
      unfold x13
      refine Only.via (State.reformat_only _ _) rfl ?_
      exact h12
    · exact Only.refl _ _
  · rename_i y15 y16 y17 y18 y19
    extract_lets x20 x21
    refine Only.via (Only.set_arc _ _) rfl ?_
    refine Only.ofPair y4 ?_
    refine Only.foldlSnd (fun t23 a22 h24 => ?_) ?_
    · extract_lets x25
      refine Only.cut (t := x25.2) ?_ (fun h26 => ?_)
      · unfold x25
        refine Only.via (State.reformat_only _ _) rfl ?_
        exact h24
      unfold x25
      refine Only.via (State.reformat_only _ _) rfl ?_
      exact h24
    · exact Only.refl _ _

theorem State.coveredChains_only : ∀ s a1, Only [.inst] s (State.coveredChains s a1) := by
  intro s a1
  unfold State.coveredChains
  refine Only.forEach (fun a1 t2 h3 => ?_) ?_
  · refine Only.ite (fun _ => ?_) (fun _ => ?_)
    · refine Only.via (State.verifiedTo_only _ _ _ _) rfl ?_
      exact h3
    · exact h3
  · exact Only.refl _ _

theorem State.resumeChains_only : ∀ s, Only [.inst] s (State.resumeChains s) := by
  intro s
  unfold State.resumeChains
  refine Only.ite (fun _ => ?_) (fun _ => ?_)
  · refine Only.via (Only.set_inst _ _) rfl ?_
    exact Only.refl _ _
  · exact Only.refl _ _

theorem State.resumeSegs_only : ∀ s, Only [.fss] s (State.resumeSegs s) := by
  intro s
  unfold State.resumeSegs
  refine Only.via (State.mapSegs_only _ _) rfl ?_
  exact Only.refl _ _

theorem State.takeSet_only : ∀ s a1 a2 a3, Only [.out, .tm, .hlt, .log, .nvm, .nvs, .sec, .inst, .fn, .cmds, .oldOps, .due, .reads, .fss, .sea, .mch, .fetches, .arc, .drives, .pwb, .cal, .mon, .rate] s (State.takeSet s a1 a2 a3) := by
  intro s a1 a2 a3
  unfold State.takeSet
  extract_lets x1 x2 x3 x4 x5 x6 x7 x8 x9 x10 x11 x12 x13
  refine Only.cut (t := x6) ?_ (fun h14 => ?_)
  · unfold x6
    refine Only.via (Only.set_arc _ _) rfl ?_
    exact Only.refl _ _
  refine Only.cut (t := x7) ?_ (fun h15 => ?_)
  · unfold x7
    refine Only.via (State.areasFill_only _) rfl ?_
    exact h14
  refine Only.cut (t := x8) ?_ (fun h16 => ?_)
  · unfold x8
    refine Only.forEach (fun a17 t18 h19 => ?_) ?_
    · refine Only.via (State.scanWhole_only _ _) rfl ?_
      exact h19
    · exact h15
  refine Only.cut (t := x9) ?_ (fun h20 => ?_)
  · unfold x9
    refine Only.via (State.resumeChains_only _) rfl ?_
    refine Only.via (State.coveredChains_only _ _) rfl ?_
    exact h16
  refine Only.cut (t := x11) ?_ (fun h21 => ?_)
  · unfold x11
    refine Only.via (Only.set_arc _ _) rfl ?_
    exact h20
  refine Only.cut (t := x12) ?_ (fun h22 => ?_)
  · unfold x12
    refine Only.via (State.resumeSegs_only _) rfl ?_
    exact h21
  refine Only.cut (t := x13) ?_ (fun h23 => ?_)
  · unfold x13
    refine Only.ite (fun _ => ?_) (fun _ => ?_)
    · refine Only.forEach (fun a24 t25 h26 => ?_) ?_
      · refine Only.ite (fun _ => ?_) (fun _ => ?_)
        · exact h26
        · refine Only.via (State.scanPart_only _ _) rfl ?_
          exact h26
      · exact h22
    · exact h22
  refine Only.via (State.noteWaiting_only _) rfl ?_
  refine Only.via (State.journalRecord_only _ _) rfl ?_
  refine Only.via (State.loadItems_only _) rfl ?_
  refine Only.via (State.loadDrives_only _ _ _ _) rfl ?_
  exact h23

theorem State.loadSet_only : ∀ s a1 a2 a3 a4 a5, Only [.out, .free, .tm, .hlt, .log, .nvm, .nvs, .sec, .inst, .fn, .cmds, .oldOps, .due, .reads, .fss, .sea, .mch, .fetches, .arc, .drives, .pwb, .cal, .mon, .rate] s (State.loadSet s a1 a2 a3 a4 a5).2.2 := by
  intro s a1 a2 a3 a4 a5
  unfold State.loadSet
  split
  · exact Only.refl _ _
  · split
    · split
      · dsimp only
        exact Only.via (State.initSet_only _ _ _ _) rfl (Only.mono (State.leaveSet_only _ _) rfl)
      · exact Only.refl _ _
    · split
      · exact Only.refl _ _
      · split
        · exact Only.refl _ _
        · split
          · dsimp only
            exact Only.mono (State.note_only _ _ _) rfl
          · dsimp only
            exact Only.via (State.takeSet_only _ _ _ _) rfl (Only.mono (State.leaveSet_only _ _) rfl)

theorem execStripeLoad_only : ∀ a0 a1 a2 a3 s z, Only [.out, .free, .tm, .hlt, .log, .nvm, .nvs, .sec, .inst, .fn, .cmds, .oldOps, .due, .reads, .fss, .sea, .mch, .fetches, .arc, .drives, .pwb, .cal, .mon, .rate] s (runRow (execStripeLoad a0 a1 a2 a3 s) z) := by
  intro a0 a1 a2 a3 s z
  unfold execStripeLoad
  rw [runRow_next]
  refine Only.withCmd (fun c1 t2 h3 => ?_) ?_
  · extract_lets x4
    refine Only.cut (t := x4.2.2) ?_ (fun h5 => ?_)
    · unfold x4
      refine Only.via (State.loadSet_only _ _ _ _ _ _) rfl ?_
      exact h3
    refine Only.via (State.settle_only _) rfl ?_
    refine Only.via (State.complete_only _ _ _ _ _) rfl ?_
    exact h5
  · exact Only.refl _ _

theorem execStartupSetReload_only : ∀ a0 a1 s z, Only [.out, .free, .tm, .hlt, .log, .nvm, .nvs, .sec, .inst, .fn, .cmds, .oldOps, .due, .reads, .fss, .sea, .mch, .fetches, .arc, .drives, .pwb, .cal, .mon, .rate] s (runRow (execStartupSetReload a0 a1 s) z) := by
  intro a0 a1 s z
  unfold execStartupSetReload
  rw [runRow_next]
  refine Only.whenServing (fun t1 h2 => ?_) ?_
  · refine Only.ite (fun _ => ?_) (fun _ => ?_)
    · exact h2
    · refine Only.ite (fun _ => ?_) (fun _ => ?_)
      · refine Only.via (Only.set_arc _ _) rfl ?_
        exact h2
      · extract_lets x3 x4 x5
        refine Only.cut (t := x4) ?_ (fun h6 => ?_)
        · unfold x4
          refine Only.via (Only.set_arc _ _) rfl ?_
          exact h2
        refine Only.cut (t := x5.2.2) ?_ (fun h7 => ?_)
        · unfold x5
          refine Only.via (State.loadSet_only _ _ _ _ _ _) rfl ?_
          exact h6
        refine Only.via (State.settle_only _) rfl ?_
        refine Only.ite (fun _ => ?_) (fun _ => ?_)
        · exact h7
        · refine Only.via (State.noteWaiting_only _) rfl ?_
          refine Only.via (State.note_only _ _ _) rfl ?_
          exact h7
  · exact Only.refl _ _

theorem State.writeFr_only : ∀ s a1 a2, Only [.out, .log, .nvm, .nvs, .inst, .fn, .cmds, .due, .fss, .arc, .rate] s (State.writeFr s a1 a2) := by
  intro s a1 a2
  unfold State.writeFr
  extract_lets x1 x2 x3
  refine Only.cut (t := x1) ?_ (fun h4 => ?_)
  · unfold x1
    refine Only.via (State.writePending_only _ _) rfl ?_
    exact Only.refl _ _
  split
  · rename_i y5 y6 y7
    refine Only.via (State.complete_only _ _ _ _ _) rfl ?_
    refine Only.via (Only.set_arc _ _) rfl ?_
    refine Only.ofOpt y7 (State.writeStruct_only _ _ _ _) rfl ?_
    exact h4
  · rename_i y8 y9
    refine Only.via (State.complete_only _ _ _ _ _) rfl ?_
    refine Only.via (Only.set_arc _ _) rfl ?_
    exact h4

theorem State.goFinalize_only : ∀ s a1 a2, Only [.out, .log, .nvm, .nvs, .inst, .fn, .cmds, .due, .fss, .arc, .rate] s (State.goFinalize s a1 a2) := by
  intro s a1 a2
  unfold State.goFinalize
  refine Only.ite (fun _ => ?_) (fun _ => ?_)
  · refine Only.via (State.complete_only _ _ _ _ _) rfl ?_
    refine Only.via (Only.set_arc _ _) rfl ?_
    exact Only.refl _ _
  · refine Only.ite (fun _ => ?_) (fun _ => ?_)
    · exact Only.refl _ _
    · refine Only.ite (fun _ => ?_) (fun _ => ?_)
      · refine Only.via (State.fillStripe_only _) rfl ?_
        exact Only.refl _ _
      · refine Only.ite (fun _ => ?_) (fun _ => ?_)
        · exact Only.refl _ _
        · refine Only.via (State.writeFr_only _ _ _) rfl ?_
          exact Only.refl _ _

theorem execStripeFinalize_only : ∀ a0 a1 s z, Only [.out, .log, .nvm, .nvs, .inst, .fn, .cmds, .due, .fss, .arc, .drives, .rate] s (runRow (execStripeFinalize a0 a1 s) z) := by
  intro a0 a1 s z
  unfold execStripeFinalize
  rw [runRow_next]
  refine Only.whenServing (fun t1 h2 => ?_) ?_
  · split
    · rename_i y3 y4
      exact h2
    · rename_i y5 y6 y7
      refine Only.ite (fun _ => ?_) (fun _ => ?_)
      · exact h2
      · refine Only.ite (fun _ => ?_) (fun _ => ?_)
        · refine Only.via (State.settle_only _) rfl ?_
          refine Only.via (State.noteWaiting_only _) rfl ?_
          refine Only.via (State.goFinalize_only _ _ _) rfl ?_
          exact h2
        · refine Only.ite (fun _ => ?_) (fun _ => ?_)
          · exact h2
          · refine Only.ite (fun _ => ?_) (fun _ => ?_)
            · refine Only.via (State.complete_only _ _ _ _ _) rfl ?_
              exact h2
            · refine Only.ite (fun _ => ?_) (fun _ => ?_)
              · refine Only.via (State.complete_only _ _ _ _ _) rfl ?_
                exact h2
              · extract_lets x8 x9
                refine Only.via (State.settle_only _) rfl ?_
                refine Only.via (State.noteWaiting_only _) rfl ?_
                refine Only.via (State.goFinalize_only _ _ _) rfl ?_
                refine Only.via (State.setCmd_only _ _) rfl ?_
                refine Only.via (Only.set_arc _ _) rfl ?_
                exact h2
  · exact Only.refl _ _

theorem State.structOn_only : ∀ s a1 a2 a3 a4 a5, Only [.out, .arc] s (State.structOn s a1 a2 a3 a4 a5) := by
  intro s a1 a2 a3 a4 a5
  unfold State.structOn
  refine Only.forBelow (fun a1 t2 h3 => ?_) ?_
  · extract_lets x4 x5 x6
    refine Only.cut (t := x5) ?_ (fun h7 => ?_)
    · unfold x5
      refine Only.via (State.emit_only _ _) rfl ?_
      exact h3
    refine Only.via (Only.set_arc _ _) rfl ?_
    exact h7
  · exact Only.refl _ _

theorem State.rebuildStructs_only : ∀ s a1 a2 a3, Only [.out, .arc] s (State.rebuildStructs s a1 a2 a3) := by
  intro s a1 a2 a3
  unfold State.rebuildStructs
  extract_lets x1
  refine Only.cut (t := x1) ?_ (fun h2 => ?_)
  · unfold x1
    refine Only.via (State.structOn_only _ _ _ _ _ _) rfl ?_
    exact Only.refl _ _
  refine Only.forEach (fun a3 t4 h5 => ?_) ?_
  · refine Only.via (State.structOn_only _ _ _ _ _ _) rfl ?_
    exact h5
  · exact h2

theorem State.rebuildStripe_only : ∀ s a1 a2 a3 a4, Only [.out, .log, .nvm, .nvs, .fn, .arc] s (State.rebuildStripe s a1 a2 a3 a4) := by
  intro s a1 a2 a3 a4
  unfold State.rebuildStripe
  extract_lets x1 x2 x3 x4 x5 x6 x7 x8
  refine Only.cut (t := x7) ?_ (fun h9 => ?_)
  · unfold x7
    refine Only.via (State.emit_only _ _) rfl ?_
    exact Only.refl _ _
  refine Only.ite (fun _ => ?_) (fun _ => ?_)
  · refine Only.via (State.note_only _ _ _) rfl ?_
    refine Only.via (Only.set_arc _ _) rfl ?_
    exact Only.refl _ _
  · refine Only.via (Only.set_arc _ _) rfl ?_
    exact h9

theorem State.rebuildStripes_only : ∀ a0 a1 a2 a3 s, Only [.out, .log, .nvm, .nvs, .fn, .arc] s (State.rebuildStripes a0 a1 a2 a3 s).2 := by
  intro a0 a1 a2 a3 s
  induction a2 generalizing a0 a1 a3 s with
  | nil =>
    rw [State.rebuildStripes]
    exact Only.refl _ _
  | cons b r ih =>
    rw [State.rebuildStripes]
    split
    · rename_i y1
      exact Only.refl _ _
    · rename_i y2
      refine Only.via (ih _ _ _ _) rfl ?_
      refine Only.via (State.rebuildStripe_only _ _ _ _ _) rfl ?_
      exact Only.refl _ _

theorem State.endRebuild_only : ∀ s a1 a2 a3, Only [.out, .log, .nvm, .nvs, .inst, .fn, .cmds, .due, .arc, .rate] s (State.endRebuild s a1 a2 a3) := by
  intro s a1 a2 a3
  unfold State.endRebuild
  extract_lets x1 x2 x3
  refine Only.cut (t := x2) ?_ (fun h4 => ?_)
  · unfold x2
    refine Only.via (Only.set_arc _ _) rfl ?_
    exact Only.refl _ _
  refine Only.cut (t := x3) ?_ (fun h5 => ?_)
  · unfold x3
    refine Only.forEach (fun a6 t7 h8 => ?_) ?_
    · refine Only.via (State.note_only _ _ _) rfl ?_
      exact h8
    · exact h4
  refine Only.via (State.complete_only _ _ _ _ _) rfl ?_
  exact h5

theorem execStripeRebuild_only : ∀ a0 a1 a2 a3 s z, Only [.out, .log, .nvm, .nvs, .inst, .fn, .cmds, .due, .fss, .arc, .drives, .rate] s (runRow (execStripeRebuild a0 a1 a2 a3 s) z) := by
  intro a0 a1 a2 a3 s z
  unfold execStripeRebuild
  rw [runRow_next]
  refine Only.whenServing (fun t1 h2 => ?_) ?_
  · split
    · rename_i y3 y4
      exact h2
    · rename_i y5 y6 y7
      extract_lets x8 x9 x10 x11
      refine Only.cut (t := x11) ?_ (fun h12 => ?_)
      · unfold x11
        refine Only.via (Only.set_arc _ _) rfl ?_
        exact h2
      refine Only.ite (fun _ => ?_) (fun _ => ?_)
      · exact h2
      · refine Only.ite (fun _ => ?_) (fun _ => ?_)
        · split
          rename_i y13 y14 y15 y16 y17 y18
          extract_lets x19
          refine Only.ite (fun _ => ?_) (fun _ => ?_)
          · refine Only.via (State.settle_only _) rfl ?_
            refine Only.via (State.noteWaiting_only _) rfl ?_
            refine Only.via (State.endRebuild_only _ _ _ _) rfl ?_
            refine Only.via (State.setCmd_only _ _) rfl ?_
            refine Only.ofPair y18 ?_
            refine Only.via (State.rebuildStripes_only _ _ _ _ _) rfl ?_
            exact h2
          · refine Only.via (State.setCmd_only _ _) rfl ?_
            refine Only.ofPair y18 ?_
            refine Only.via (State.rebuildStripes_only _ _ _ _ _) rfl ?_
            exact h2
        · refine Only.ite (fun _ => ?_) (fun _ => ?_)
          · exact h2
          · refine Only.ite (fun _ => ?_) (fun _ => ?_)
            · refine Only.via (State.complete_only _ _ _ _ _) rfl ?_
              exact h2
            · refine Only.via (State.setCmd_only _ _) rfl ?_
              refine Only.via (State.rebuildStructs_only _ _ _ _) rfl ?_
              exact h12
  · exact Only.refl _ _

theorem State.approach_only : ∀ s a1 a2, Only [.drives, .pwb] s (State.approach s a1 a2) := by
  intro s a1 a2
  unfold State.approach
  extract_lets x1 x2
  refine Only.cut (t := x1) ?_ (fun h3 => ?_)
  · unfold x1
    refine Only.via (State.touchDrive_only _ _) rfl ?_
    exact Only.refl _ _
  refine Only.ite (fun _ => ?_) (fun _ => ?_)
  · refine Only.via (State.seek_only _ _ _) rfl ?_
    refine Only.via (State.modDrive_only _ _ _) rfl ?_
    exact h3
  · exact h3

theorem State.approachAll_only : ∀ s, Only [.drives, .pwb] s (State.approachAll s) := by
  intro s
  unfold State.approachAll
  refine Only.forBelow (fun a1 t2 h3 => ?_) ?_
  · split
    · rename_i y4 y5 y6
      refine Only.via (State.approach_only _ _ _) rfl ?_
      exact h3
    · rename_i y7 y8
      exact h3
  · exact Only.refl _ _

theorem State.judge_only : ∀ s a1, Only [.out, .tm, .hlt, .log, .nvm, .nvs, .sec, .inst, .fn, .cmds, .oldOps, .due, .reads, .fss, .sea, .fetches, .arc, .drives, .pwb, .cal, .mon] s (State.judge s a1).2 := by
  intro s a1
  unfold State.judge
  extract_lets x1 x2 x3 x4 x5
  refine Only.cut (t := x3) ?_ (fun h6 => ?_)
  · unfold x3
    refine Only.ite (fun _ => ?_) (fun _ => ?_)
    · refine Only.via (Only.set_sea _ _) rfl ?_
      exact Only.refl _ _
    · exact Only.refl _ _
  split
  · rename_i y7
    exact Only.refl _ _
  · rename_i y8
    split
    · rename_i y9 y10 y11
      split
      · rename_i y12 y13 y14
        extract_lets x15
        split
        · rename_i y16
          exact Only.refl _ _
        · rename_i y17
          split
          · rename_i y18
            exact Only.refl _ _
          · rename_i y19
            exact Only.refl _ _
      · rename_i y20 y21
        exact Only.refl _ _
    · rename_i y22 y23
      extract_lets x24 x25
      split
      · rename_i y26
        exact Only.refl _ _
      · rename_i y27
        split
        · rename_i y28
          refine Only.via (State.logEv_only _ _ _ _) rfl ?_
          refine Only.via (Only.set_arc _ _) rfl ?_
          exact h6
        · rename_i y29
          split
          · rename_i y30
            refine Only.via (State.haltBy_only _ _) rfl ?_
            exact Only.refl _ _
          · rename_i y31
            exact Only.refl _ _

theorem State.judgeAll_only : ∀ s, Only [.out, .tm, .hlt, .log, .nvm, .nvs, .sec, .inst, .fn, .cmds, .oldOps, .due, .reads, .fss, .sea, .fetches, .arc, .drives, .pwb, .cal, .mon] s (State.judgeAll s) := by
  intro s
  unfold State.judgeAll
  split
  rename_i y1 y2 y3 y4
  refine Only.via (Only.set_arc _ _) rfl ?_
  refine Only.ofPair y4 ?_
  refine Only.foldlSnd (fun t6 a5 h7 => ?_) ?_
  · extract_lets x8
    refine Only.cut (t := x8.2) ?_ (fun h9 => ?_)
    · unfold x8
      refine Only.via (State.judge_only _ _) rfl ?_
      exact h7
    unfold x8
    refine Only.via (State.judge_only _ _) rfl ?_
    exact h7
  · exact Only.refl _ _

theorem State.endArc_only : ∀ s a1, Only [.out, .tm, .hlt, .log, .nvm, .nvs, .sec, .inst, .fn, .cmds, .oldOps, .due, .reads, .fss, .sea, .fetches, .arc, .drives, .pwb, .cal, .mon, .rate] s (State.endArc s a1) := by
  intro s a1
  unfold State.endArc
  extract_lets x1 x2 x3 x4 x5 x6 x7 x8 x9 x10 x11
  refine Only.cut (t := x4) ?_ (fun h12 => ?_)
  · unfold x4
    refine Only.ite (fun _ => ?_) (fun _ => ?_)
    · refine Only.via (State.logEv_only _ _ _ _) rfl ?_
      exact Only.refl _ _
    · exact Only.refl _ _
  clear_value x7
  refine Only.cut (t := x9) ?_ (fun h13 => ?_)
  · unfold x9
    refine Only.via (State.count_only _ _ _) rfl ?_
    unfold x2
    refine Only.via (Only.set_arc _ _) rfl ?_
    exact h12
  refine Only.cut (t := x10) ?_ (fun h14 => ?_)
  · unfold x10
    refine Only.via (State.writeOut_only _ _ _) rfl ?_
    exact h12
  refine Only.cut (t := x11) ?_ (fun h15 => ?_)
  · unfold x11
    refine Only.via (State.count_only _ _ _) rfl ?_
    unfold x2
    refine Only.via (Only.set_arc _ _) rfl ?_
    exact h14
  refine Only.ite (fun _ => ?_) (fun _ => ?_)
  · refine Only.via (State.complete_only _ _ _ _ _) rfl ?_
    unfold x2
    refine Only.via (Only.set_arc _ _) rfl ?_
    exact Only.refl _ _
  · refine Only.ite (fun _ => ?_) (fun _ => ?_)
    · exact Only.refl _ _
    · split
      · rename_i y16 y17 y18 y19 y20
        extract_lets x21
        refine Only.via (State.haltBy_only _ _) rfl ?_
        exact h12
      · rename_i y22 y23 y24 y25
        refine Only.ite (fun _ => ?_) (fun _ => ?_)
        · split
          · rename_i y26 y27 y28
            refine Only.via (State.complete_only _ _ _ _ _) rfl ?_
            exact h13
          · rename_i y29 y30
            refine Only.via (State.complete_only _ _ _ _ _) rfl ?_
            exact h13
        · refine Only.ite (fun _ => ?_) (fun _ => ?_)
          · exact h12
          · split
            · rename_i y31 y32 y33 y34
              refine Only.via (State.complete_only _ _ _ _ _) rfl ?_
              exact h15
            · rename_i y35 y36 y37
              refine Only.via (State.complete_only _ _ _ _ _) rfl ?_
              exact h15

theorem State.settleArc_only : ∀ s, Only [.out, .tm, .hlt, .log, .nvm, .nvs, .sec, .inst, .fn, .cmds, .oldOps, .due, .reads, .fss, .sea, .fetches, .arc, .drives, .pwb, .cal, .mon, .rate] s (State.settleArc s) := by
  intro s
  unfold State.settleArc
  extract_lets x1 x2 x3
  refine Only.cut (t := x2) ?_ (fun h4 => ?_)
  · unfold x2
    refine Only.via (Only.set_arc _ _) rfl ?_
    exact Only.refl _ _
  refine Only.cut (t := x3) ?_ (fun h5 => ?_)
  · unfold x3
    refine Only.via (State.judgeAll_only _) rfl ?_
    refine Only.via (State.judgeAll_only _) rfl ?_
    exact h4
  refine Only.forEach (fun a6 t7 h8 => ?_) ?_
  · refine Only.ite (fun _ => ?_) (fun _ => ?_)
    · refine Only.via (State.endArc_only _ _) rfl ?_
      exact h8
    · exact h8
  · exact h5

theorem State.planArc_only : ∀ s a1, Only [.out, .free, .tm, .hlt, .log, .nvm, .nvs, .sec, .inst, .fn, .cmds, .oldOps, .due, .reads, .fss, .sea, .fetches, .arc, .drives, .pwb, .cal, .mon, .rate] s (State.planArc s a1) := by
  intro s a1
  unfold State.planArc
  extract_lets x1 x2 x3 x4 x5 x6
  split
  · rename_i y7 y8 y9 y10
    refine Only.via (State.complete_only _ _ _ _ _) rfl ?_
    refine Only.ite (fun _ => ?_) (fun _ => ?_)
    · refine Only.via (State.useFree_only _) rfl ?_
      exact Only.refl _ _
    · exact Only.refl _ _
  · rename_i y11 y12
    split
    rename_i y13 y14 y15 y16
    extract_lets x17 x18
    refine Only.cut (t := x18) ?_ (fun h19 => ?_)
    · unfold x18
      refine Only.via (Only.set_arc _ _) rfl ?_
      refine Only.ofPair y16 ?_
      split
      · rename_i y20
        exact Only.refl _ _
      · rename_i y21
        split
        · rename_i y22 y23 y24 y25 y26
          split
          · rename_i y27 y28 y29
            exact Only.refl _ _
          · rename_i y30 y31
            unfold x6
            refine Only.via (State.logEv_only _ _ _ _) rfl ?_
            exact Only.refl _ _
        · rename_i y32 y33
          refine Only.ite (fun _ => ?_) (fun _ => ?_)
          · exact Only.refl _ _
          · refine Only.via (State.logEv_only _ _ _ _) rfl ?_
            exact Only.refl _ _
    refine Only.via (State.approachAll_only _) rfl ?_
    refine Only.via (State.settleArc_only _) rfl ?_
    refine Only.via (State.setCmd_only _ _) rfl ?_
    exact h19

theorem State.archiveCmd_only : ∀ s a1 a2, Only [.out, .free, .tm, .hlt, .log, .nvm, .nvs, .sec, .inst, .fn, .cmds, .oldOps, .due, .reads, .fss, .sea, .fetches, .arc, .drives, .pwb, .cal, .mon, .rate] s (State.archiveCmd s a1 a2) := by
  intro s a1 a2
  unfold State.archiveCmd
  refine Only.whenServing (fun t1 h2 => ?_) ?_
  · split
    · rename_i y3 y4
      exact h2
    · rename_i y5 y6 y7
      refine Only.ite (fun _ => ?_) (fun _ => ?_)
      · exact h2
      · refine Only.ite (fun _ => ?_) (fun _ => ?_)
        · refine Only.via (State.approachAll_only _) rfl ?_
          refine Only.via (State.settleArc_only _) rfl ?_
          exact h2
        · refine Only.ite (fun _ => ?_) (fun _ => ?_)
          · refine Only.underEpoch (fun t8 h9 => ?_) ?_
            · refine Only.via (State.planArc_only _ _) rfl ?_
              exact h9
            · exact h2
          · exact h2
  · exact Only.refl _ _

theorem execArchiveRead_only : ∀ a0 s z, Only [.out, .free, .tm, .hlt, .log, .nvm, .nvs, .sec, .inst, .fn, .cmds, .oldOps, .due, .reads, .fss, .sea, .fetches, .arc, .drives, .pwb, .cal, .mon, .rate] s (runRow (execArchiveRead a0 s) z) := by
  intro a0 s z
  unfold execArchiveRead
  rw [runRow_next]
  refine Only.via (State.archiveCmd_only _ _ _) rfl ?_
  exact Only.refl _ _

theorem execVerify_only : ∀ a0 s z, Only [.out, .free, .tm, .hlt, .log, .nvm, .nvs, .sec, .inst, .fn, .cmds, .oldOps, .due, .reads, .fss, .sea, .fetches, .arc, .drives, .pwb, .cal, .mon, .rate] s (runRow (execVerify a0 s) z) := by
  intro a0 s z
  unfold execVerify
  rw [runRow_next]
  refine Only.via (State.archiveCmd_only _ _ _) rfl ?_
  exact Only.refl _ _

theorem State.giveSlot_only : ∀ s a1 a2 a3, Only [.arc] s (State.giveSlot s a1 a2 a3) := by
  intro s a1 a2 a3
  unfold State.giveSlot
  extract_lets x1 x2
  refine Only.via (Only.set_arc _ _) rfl ?_
  exact Only.refl _ _

theorem execBlockDecode_only : ∀ a0 s z, Only [.out, .tm, .hlt, .log, .nvm, .nvs, .sec, .inst, .fn, .cmds, .oldOps, .due, .reads, .fss, .sea, .fetches, .arc, .drives, .pwb, .cal, .mon, .rate] s (runRow (execBlockDecode a0 s) z) := by
  intro a0 s z
  unfold execBlockDecode
  rw [runRow_next]
  refine Only.whenServing (fun t1 h2 => ?_) ?_
  · extract_lets x3 x4
    refine Only.cut (t := x4) ?_ (fun h5 => ?_)
    · unfold x4
      refine Only.via (State.decodeSlot_only _ _) rfl ?_
      exact h2
    split
    · rename_i y6 y7
      exact h2
    · rename_i y8 y9 y10
      split
      · rename_i y11 y12
        exact h5
      · rename_i y13 y14 y15
        refine Only.ite (fun _ => ?_) (fun _ => ?_)
        · exact h5
        · refine Only.ite (fun _ => ?_) (fun _ => ?_)
          · refine Only.via (State.approachAll_only _) rfl ?_
            refine Only.via (State.settleArc_only _) rfl ?_
            refine Only.via (State.giveSlot_only _ _ _ _) rfl ?_
            refine Only.via (State.modRdc_only _ _ _) rfl ?_
            exact h5
          · refine Only.ite (fun _ => ?_) (fun _ => ?_)
            · exact h5
            · refine Only.via (State.approachAll_only _) rfl ?_
              refine Only.via (State.settleArc_only _) rfl ?_
              refine Only.via (State.giveSlot_only _ _ _ _) rfl ?_
              refine Only.via (State.modRdc_only _ _ _) rfl ?_
              exact h5
  · exact Only.refl _ _

theorem execReadRetry_only : ∀ a0 s z, Only [.drives] s (runRow (execReadRetry a0 s) z) := by
  intro a0 s z
  unfold execReadRetry
  rw [runRow_next]
  refine Only.whenServing (fun t1 h2 => ?_) ?_
  · extract_lets x3 x4
    split
    · rename_i y5 y6 y7
      refine Only.ite (fun _ => ?_) (fun _ => ?_)
      · refine Only.via (State.modRdc_only _ _ _) rfl ?_
        exact h2
      · exact h2
    · rename_i y8 y9
      exact h2
  · exact Only.refl _ _

theorem execIdentify_only : ∀ a0 s z, Only [.out, .log, .nvm, .nvs, .inst, .fn, .cmds, .due, .rate] s (runRow (execIdentify a0 s) z) := by
  intro a0 s z
  unfold execIdentify
  rw [runRow_next]
  refine Only.withCmd (fun c1 t2 h3 => ?_) ?_
  · refine Only.via (State.report_only _ _ _ _) rfl ?_
    exact h3
  · exact Only.refl _ _

theorem State.putVal_only : ∀ s a1 a2 a3 a4 a5, Only [.cal] s (State.putVal s a1 a2 a3 a4 a5) := by
  intro s a1 a2 a3 a4 a5
  unfold State.putVal
  extract_lets x1 x2
  refine Only.via (Only.set_cal _ _) rfl ?_
  exact Only.refl _ _

theorem State.putS16_only : ∀ s a1 a2 a3, Only [.cal] s (State.putS16 s a1 a2 a3) := by
  intro s a1 a2 a3
  unfold State.putS16
  refine Only.via (State.putVal_only _ _ _ _ _ _) rfl ?_
  exact Only.refl _ _

theorem State.applyGain_only : ∀ s a1 a2 a3, Only [.regs, .drives, .cal] s (State.applyGain s a1 a2 a3) := by
  intro s a1 a2 a3
  unfold State.applyGain
  extract_lets x1 x2 x3 x4 x5 x6 x7 x8
  refine Only.cut (t := x5) ?_ (fun h9 => ?_)
  · unfold x5
    refine Only.ite (fun _ => ?_) (fun _ => ?_)
    · exact Only.refl _ _
    · refine Only.forBelow (fun a10 t11 h12 => ?_) ?_
      · refine Only.via (State.setReg_only _ _ _) rfl ?_
        exact h12
      · exact Only.refl _ _
  refine Only.cut (t := x6) ?_ (fun h13 => ?_)
  · unfold x6
    refine Only.foldl (fun t15 a14 h16 => ?_) ?_
    · refine Only.via (State.setReg_only _ _ _) rfl ?_
      exact h16
    · exact h9
  refine Only.cut (t := x7) ?_ (fun h17 => ?_)
  · unfold x7
    refine Only.via (State.modAxis_only _ _ _) rfl ?_
    exact h13
  refine Only.via (Only.set_cal _ _) rfl ?_
  exact h17

theorem State.recompute_only : ∀ s a1, Only [.regs, .drives, .cal] s (State.recompute s a1) := by
  intro s a1
  unfold State.recompute
  extract_lets x1 x2
  refine Only.cut (t := x2) ?_ (fun h3 => ?_)
  · unfold x2
    refine Only.via (Only.set_cal _ _) rfl ?_
    exact Only.refl _ _
  refine Only.forBelow (fun a4 t5 h6 => ?_) ?_
  · extract_lets x7
    refine Only.ite (fun _ => ?_) (fun _ => ?_)
    · exact h6
    · refine Only.via (State.applyGain_only _ _ _ _) rfl ?_
      exact h6
  · exact h3

theorem State.recomputeDie_only : ∀ s, Only [.cal] s (State.recomputeDie s) := by
  intro s
  unfold State.recomputeDie
  refine Only.via (Only.set_cal _ _) rfl ?_
  exact Only.refl _ _

theorem State.followDie_only : ∀ s, Only [.cal] s (State.followDie s) := by
  intro s
  unfold State.followDie
  refine Only.ite (fun _ => ?_) (fun _ => ?_)
  · refine Only.via (State.recomputeDie_only _) rfl ?_
    exact Only.refl _ _
  · exact Only.refl _ _

theorem State.followTemp_only : ∀ s a1, Only [.regs, .drives, .cal] s (State.followTemp s a1) := by
  intro s a1
  unfold State.followTemp
  refine Only.ite (fun _ => ?_) (fun _ => ?_)
  · refine Only.via (State.recompute_only _ _) rfl ?_
    exact Only.refl _ _
  · exact Only.refl _ _

theorem State.endRef_only : ∀ s a1 a2 a3, Only [.out, .log, .nvm, .nvs, .fn, .cal] s (State.endRef s a1 a2 a3).2 := by
  intro s a1 a2 a3
  unfold State.endRef
  extract_lets x1 x2 x3 x4 x5
  refine Only.cut (t := x5) ?_ (fun h6 => ?_)
  · unfold x5
    refine Only.via (Only.set_cal _ _) rfl ?_
    exact Only.refl _ _
  refine Only.forEach (fun a7 t8 h9 => ?_) ?_
  · refine Only.ite (fun _ => ?_) (fun _ => ?_)
    · refine Only.via (State.note_only _ _ _) rfl ?_
      exact h9
    · extract_lets x10
      refine Only.cut (t := x10) ?_ (fun h11 => ?_)
      · unfold x10
        refine Only.via (State.putS16_only _ _ _ _) rfl ?_
        exact h9
      refine Only.ite (fun _ => ?_) (fun _ => ?_)
      · refine Only.via (State.note_only _ _ _) rfl ?_
        exact h11
      · exact h11
  · exact h6

theorem State.endBal_only : ∀ s a1 a2 a3 a4, Only [.cal] s (State.endBal s a1 a2 a3 a4).2 := by
  intro s a1 a2 a3 a4
  unfold State.endBal
  extract_lets x1 x2 x3 x4
  split
  · rename_i y5
    split
    · rename_i y6 y7 y8 y9 y10 y11
      refine Only.via (State.putVal_only _ _ _ _ _ _) rfl ?_
      refine Only.via (State.putVal_only _ _ _ _ _ _) rfl ?_
      exact Only.refl _ _
    · rename_i y12 y13 y14 y15 y16
      refine Only.via (State.putVal_only _ _ _ _ _ _) rfl ?_
      exact Only.refl _ _
    · rename_i y17 y18 y19
      exact Only.refl _ _
  · rename_i y20
    refine Only.ite (fun _ => ?_) (fun _ => ?_)
    · refine Only.via (State.putVal_only _ _ _ _ _ _) rfl ?_
      refine Only.via (State.putVal_only _ _ _ _ _ _) rfl ?_
      exact Only.refl _ _
    · exact Only.refl _ _

theorem State.endThr_only : ∀ s a1 a2 a3 a4, Only [.cal] s (State.endThr s a1 a2 a3 a4).2 := by
  intro s a1 a2 a3 a4
  unfold State.endThr
  split
  · rename_i y1
    exact Only.refl _ _
  · rename_i y2
    split
    · rename_i y3
      exact Only.refl _ _
    · rename_i y4
      extract_lets x5
      refine Only.via (State.putVal_only _ _ _ _ _ _) rfl ?_
      refine Only.via (State.putVal_only _ _ _ _ _ _) rfl ?_
      exact Only.refl _ _

theorem State.method_only : ∀ s a1 a2 a3 a4, Only [.out, .log, .nvm, .nvs, .fn, .cal] s (State.method s a1 a2 a3 a4).2 := by
  intro s a1 a2 a3 a4
  unfold State.method
  split
  · rename_i y1 y2
    refine Only.via (Only.set_cal _ _) rfl ?_
    exact Only.refl _ _
  · rename_i y3 y4 y5
    split
    · rename_i y6 y7 y8
      refine Only.via (State.putVal_only _ _ _ _ _ _) rfl ?_
      exact Only.refl _ _
    · rename_i y9 y10
      exact Only.refl _ _
  · rename_i y11 y12 y13
    split
    · rename_i y14
      refine Only.via (State.endRef_only _ _ _ _) rfl ?_
      exact Only.refl _ _
    · rename_i y15
      exact Only.refl _ _
  · rename_i y16 y17 y18
    split
    · rename_i y19
      refine Only.forEach (fun a20 t21 h22 => ?_) ?_
      · refine Only.via (State.putS16_only _ _ _ _) rfl ?_
        exact h22
      · exact Only.refl _ _
    · rename_i y23
      exact Only.refl _ _
  · rename_i y24 y25 y26 y27
    extract_lets x28
    split
    · rename_i y29
      refine Only.via (State.putVal_only _ _ _ _ _ _) rfl ?_
      exact Only.refl _ _
    · rename_i y30
      exact Only.refl _ _
  · rename_i y31 y32 y33 y34
    extract_lets x35
    split
    · rename_i y36
      refine Only.via (State.putVal_only _ _ _ _ _ _) rfl ?_
      exact Only.refl _ _
    · rename_i y37
      exact Only.refl _ _
  · rename_i y38 y39 y40
    refine Only.layersEach (fun k41 a42 t43 h44 => ?_) ?_
    · refine Only.via (State.endBal_only _ _ _ _ _) rfl ?_
      exact h44
    · exact Only.refl _ _
  · rename_i y45 y46 y47
    refine Only.layersEach (fun k48 a49 t50 h51 => ?_) ?_
    · refine Only.via (State.endThr_only _ _ _ _ _) rfl ?_
      exact h51
    · exact Only.refl _ _
  · rename_i y52 y53 y54 y55 y56 y57
    split
    · rename_i y58
      extract_lets x59
      split
      · rename_i y60
        refine Only.via (State.putVal_only _ _ _ _ _ _) rfl ?_
        refine Only.via (State.putVal_only _ _ _ _ _ _) rfl ?_
        exact Only.refl _ _
      · rename_i y61
        exact Only.refl _ _
    · rename_i y62
      exact Only.refl _ _
  · rename_i y63 y64 y65 y66 y67
    extract_lets x68 x69 x70 x71 x72 x73
    refine Only.cut (t := x72) ?_ (fun h74 => ?_)
    · unfold x72
      refine Only.via (State.putVal_only _ _ _ _ _ _) rfl ?_
      exact Only.refl _ _
    split
    · rename_i y75
      exact Only.refl _ _
    · rename_i y76
      refine Only.via (Only.set_cal _ _) rfl ?_
      exact h74
  · rename_i y77 y78 y79 y80 y81 y82 y83 y84 y85 y86 y87 y88
    exact Only.refl _ _

theorem State.holdTemps_only : ∀ s, Only [.cal] s (State.holdTemps s) := by
  intro s
  unfold State.holdTemps
  refine Only.via (Only.set_cal _ _) rfl ?_
  exact Only.refl _ _

theorem State.inject_only : ∀ s a1 a2 a3, Only [.regs] s (State.inject s a1 a2 a3) := by
  intro s a1 a2 a3
  unfold State.inject
  extract_lets x1 x2 x3
  refine Only.ite (fun _ => ?_) (fun _ => ?_)
  · refine Only.via (State.setReg_only _ _ _) rfl ?_
    refine Only.via (State.setReg_only _ _ _) rfl ?_
    exact Only.refl _ _
  · refine Only.via (State.setReg_only _ _ _) rfl ?_
    exact Only.refl _ _

theorem State.beginItem_only : ∀ s, Only [.out, .regs, .log, .nvm, .nvs, .fn, .drives, .pwb, .cal] s (State.beginItem s) := by
  intro s
  unfold State.beginItem
  split
  · rename_i y1 y2
    exact Only.refl _ _
  · rename_i y3 y4 y5 y6 y7
    extract_lets x8 x9 x10 x11 x12
    refine Only.cut (t := x9) ?_ (fun h13 => ?_)
    · unfold x9
      refine Only.via (Only.set_cal _ _) rfl ?_
      exact Only.refl _ _
    refine Only.cut (t := x11) ?_ (fun h14 => ?_)
    · unfold x11
      refine Only.via (Only.set_cal _ _) rfl ?_
      exact h13
    refine Only.cut (t := x12) ?_ (fun h15 => ?_)
    · unfold x12
      refine Only.ite (fun _ => ?_) (fun _ => ?_)
      · refine Only.via (State.inject_only _ _ _ _) rfl ?_
        exact h14
      · exact h14
    refine Only.ite (fun _ => ?_) (fun _ => ?_)
    · refine Only.via (State.calFailed_only _ _ _) rfl ?_
      exact h13
    · refine Only.ite (fun _ => ?_) (fun _ => ?_)
      · refine Only.via (State.touchDrive_only _ _) rfl ?_
        exact h15
      · exact h15

theorem State.endItem_only : ∀ s a1 a2 a3 a4, Only [.out, .regs, .log, .nvm, .nvs, .inst, .fn, .fss, .arc, .drives, .cal] s (State.endItem s a1 a2 a3 a4) := by
  intro s a1 a2 a3 a4
  unfold State.endItem
  extract_lets x1 x2 x3 x4 x5 x6
  refine Only.cut (t := x2) ?_ (fun h7 => ?_)
  · unfold x2
    refine Only.via (Only.set_cal _ _) rfl ?_
    exact Only.refl _ _
  refine Only.cut (t := x3) ?_ (fun h8 => ?_)
  · unfold x3
    refine Only.ite (fun _ => ?_) (fun _ => ?_)
    · refine Only.via (State.inject_only _ _ _ _) rfl ?_
      exact h7
    · exact h7
  refine Only.ite (fun _ => ?_) (fun _ => ?_)
  · refine Only.via (State.calDue_only _ _ _) rfl ?_
    refine Only.via (Only.set_cal _ _) rfl ?_
    exact h8
  · split
    rename_i y9 y10 y11 y12 y13
    extract_lets x14 x15 x16
    refine Only.cut (t := x14) ?_ (fun h17 => ?_)
    · unfold x14
      refine Only.ite (fun _ => ?_) (fun _ => ?_)
      · refine Only.via (State.calCount_only _ _ _ _) rfl ?_
        refine Only.ofPair y13 ?_
        refine Only.via (State.method_only _ _ _ _ _) rfl ?_
        exact h8
      · refine Only.via (State.calFailed_only _ _ _) rfl ?_
        refine Only.ofPair y13 ?_
        refine Only.via (State.method_only _ _ _ _ _) rfl ?_
        exact h8
    refine Only.cut (t := x15) ?_ (fun h18 => ?_)
    · unfold x15
      refine Only.ite (fun _ => ?_) (fun _ => ?_)
      · refine Only.ite (fun _ => ?_) (fun _ => ?_)
        · refine Only.via (State.applyGain_only _ _ _ _) rfl ?_
          exact h17
        · exact h17
      · exact h17
    refine Only.cut (t := x16) ?_ (fun h19 => ?_)
    · unfold x16
      refine Only.ite (fun _ => ?_) (fun _ => ?_)
      · refine Only.via (State.calFallsDue_only _ _ _) rfl ?_
        exact h18
      · exact h18
    refine Only.via (State.settle_only _) rfl ?_
    exact h19

theorem execCalItemRun_only : ∀ a0 s z, Only [.out, .regs, .log, .nvm, .nvs, .inst, .fn, .fss, .arc, .drives, .pwb, .cal] s (runRow (execCalItemRun a0 s) z) := by
  intro a0 s z
  unfold execCalItemRun
  rw [runRow_next]
  refine Only.whenServing (fun t1 h2 => ?_) ?_
  · split
    · rename_i y3 y4 y5
      refine Only.via (State.beginItem_only _) rfl ?_
      exact h2
    · rename_i y6 y7 y8 y9 y10 y11 y12
      refine Only.via (State.endItem_only _ _ _ _ _) rfl ?_
      exact h2
    · rename_i y13 y14 y15 y16 y17
      exact h2
  · exact Only.refl _ _

theorem State.calGo_only : ∀ s a1 a2, Only [.drives, .cal] s (State.calGo s a1 a2) := by
  intro s a1 a2
  unfold State.calGo
  refine Only.ite (fun _ => ?_) (fun _ => ?_)
  · exact Only.refl _ _
  · refine Only.ite (fun _ => ?_) (fun _ => ?_)
    · refine Only.via (State.modWst_only _ _ _) rfl ?_
      exact Only.refl _ _
    · extract_lets x1
      refine Only.via (State.calDue_only _ _ _) rfl ?_
      refine Only.via (State.modItem_only _ _ _ _) rfl ?_
      exact Only.refl _ _

theorem execCalItemGo_only : ∀ a0 a1 s z, Only [.drives, .cal] s (runRow (execCalItemGo a0 a1 s) z) := by
  intro a0 a1 s z
  unfold execCalItemGo
  rw [runRow_next]
  refine Only.whenServing (fun t1 h2 => ?_) ?_
  · refine Only.via (State.calGo_only _ _ _) rfl ?_
    exact h2
  · exact Only.refl _ _

theorem execCalDeferTimeout_only : ∀ s z, Only [.cal] s (runRow (execCalDeferTimeout s) z) := by
  intro s z
  unfold execCalDeferTimeout
  rw [runRow_next]
  refine Only.whenServing (fun t1 h2 => ?_) ?_
  · refine Only.ite (fun _ => ?_) (fun _ => ?_)
    · refine Only.via (Only.set_cal _ _) rfl ?_
      exact h2
    · exact h2
  · exact Only.refl _ _

theorem execConverterCheckPeriod_only : ∀ s z, Only [.cal] s (runRow (execConverterCheckPeriod s) z) := by
  intro s z
  unfold execConverterCheckPeriod
  rw [runRow_next]
  refine Only.whenServing (fun t1 h2 => ?_) ?_
  · refine Only.forBelow (fun a3 t4 h5 => ?_) ?_
    · refine Only.via (State.calFallsDue_only _ _ _) rfl ?_
      refine Only.via (State.calFallsDue_only _ _ _) rfl ?_
      exact h5
    · exact h2
  · exact Only.refl _ _

theorem State.coldDecision_only : ∀ s, Only [.out, .regs, .log, .nvm, .nvs, .fn, .drives, .cal] s (State.coldDecision s) := by
  intro s
  unfold State.coldDecision
  split
  · rename_i y1 y2
    exact Only.refl _ _
  · rename_i y3 y4 y5 y6
    extract_lets x7 x8 x9
    refine Only.cut (t := x8) ?_ (fun h10 => ?_)
    · unfold x8
      refine Only.via (Only.set_cal _ _) rfl ?_
      exact Only.refl _ _
    refine Only.ite (fun _ => ?_) (fun _ => ?_)
    · exact h10
    · refine Only.forBelow (fun a11 t12 h13 => ?_) ?_
      · extract_lets x14 x15
        refine Only.ite (fun _ => ?_) (fun _ => ?_)
        · refine Only.via (State.note_only _ _ _) rfl ?_
          exact h13
        · refine Only.via (State.followTemp_only _ _) rfl ?_
          refine Only.via (Only.set_cal _ _) rfl ?_
          exact h13
      · exact h10

theorem State.storeSet_only : ∀ s a1, Only [.nvm, .nvs, .cal] s (State.storeSet s a1) := by
  intro s a1
  unfold State.storeSet
  extract_lets x1 x2 x3 x4
  refine Only.cut (t := x3) ?_ (fun h5 => ?_)
  · unfold x3
    refine Only.via (State.nvmWrite_only _ _ _) rfl ?_
    exact Only.refl _ _
  refine Only.via (Only.set_cal _ _) rfl ?_
  exact h5

theorem State.storeMeta_only : ∀ s, Only [.nvm, .nvs, .cal] s (State.storeMeta s) := by
  intro s
  unfold State.storeMeta
  extract_lets x1 x2 x3 x4
  refine Only.cut (t := x3) ?_ (fun h5 => ?_)
  · unfold x3
    refine Only.via (State.nvmWrite_only _ _ _) rfl ?_
    exact Only.refl _ _
  refine Only.via (Only.set_cal _ _) rfl ?_
  exact h5

theorem State.calStore_only : ∀ s, Only [.nvm, .nvs, .cal] s (State.calStore s) := by
  intro s
  unfold State.calStore
  extract_lets x1 x2 x3
  refine Only.cut (t := x1) ?_ (fun h4 => ?_)
  · unfold x1
    refine Only.forBelow (fun a5 t6 h7 => ?_) ?_
    · refine Only.ite (fun _ => ?_) (fun _ => ?_)
      · refine Only.via (State.storeSet_only _ _) rfl ?_
        exact h7
      · exact h7
    · exact Only.refl _ _
  refine Only.cut (t := x2) ?_ (fun h8 => ?_)
  · unfold x2
    refine Only.ite (fun _ => ?_) (fun _ => ?_)
    · refine Only.via (State.storeMeta_only _) rfl ?_
      exact h4
    · exact h4
  refine Only.via (Only.set_cal _ _) rfl ?_
  exact h8

theorem execCalStore_only : ∀ s z, Only [.nvm, .nvs, .cal] s (runRow (execCalStore s) z) := by
  intro s z
  unfold execCalStore
  rw [runRow_next]
  refine Only.whenServing (fun t1 h2 => ?_) ?_
  · refine Only.via (State.calStore_only _) rfl ?_
    exact h2
  · exact Only.refl _ _

theorem execCalPeriodicStore_only : ∀ s z, Only [.nvm, .nvs, .cal] s (runRow (execCalPeriodicStore s) z) := by
  intro s z
  unfold execCalPeriodicStore
  rw [runRow_next]
  refine Only.whenServing (fun t1 h2 => ?_) ?_
  · refine Only.ite (fun _ => ?_) (fun _ => ?_)
    · refine Only.via (State.calStore_only _) rfl ?_
      exact h2
    · exact h2
  · exact Only.refl _ _

theorem State.setFrom_only : ∀ s a1 a2, Only [.cal] s (State.setFrom s a1 a2) := by
  intro s a1 a2
  unfold State.setFrom
  dsimp only
  split <;> exact Only.set_cal _ _

theorem State.loadSet1_only : ∀ s a1, Only [.cal] s (State.loadSet1 s a1) := by
  intro s a1
  exact State.setFrom_only _ _ _

theorem State.metaFrom_only : ∀ s a1, Only [.cal] s (State.metaFrom s a1) := by
  intro s a1
  unfold State.metaFrom
  split
  · exact Only.refl _ _
  · exact Only.set_cal _ _

theorem State.loadCal_only : ∀ s, Only [.cal] s (State.loadCal s) := by
  intro s
  exact Only.via (State.metaFrom_only _ _) rfl
    (Only.forBelow (fun k t ht => Only.via (State.loadSet1_only _ _) rfl ht) (Only.refl _ _))

end Sys2Proof.Machine
end

