-- ==== Sys2Proof/Laws/FrameBoard.lean ====
section
/-! SUPPORT. The frames of the board: fabric, clocks, inputs, power, sensors and the clock: the fields of State that each function can write. -/

namespace Sys2Proof.Machine

theorem State.railReading_only : ∀ s a1 a2 a3, Only [.out, .log, .nvm, .nvs, .fn, .sns] s (State.railReading s a1 a2 a3) := by
  intro s a1 a2 a3
  unfold State.railReading
  extract_lets x1 x2 x3 x4 x5
  refine Only.cut (t := x3) ?_ (fun h6 => ?_)
  · unfold x3
    refine Only.via (Only.set_sns _ _) rfl ?_
    exact Only.refl _ _
  refine Only.ite (fun _ => ?_) (fun _ => ?_)
  · refine Only.via (State.note_only _ _ _) rfl ?_
    refine Only.via (Only.set_sns _ _) rfl ?_
    exact h6
  · exact h6

theorem execVcoreLow_only : ∀ s z, Only [.out, .log, .nvm, .nvs, .inst, .fn, .fss, .arc, .drives, .stl] s (runRow (execVcoreLow s) z) := by
  intro s z
  unfold execVcoreLow
  rw [runRow_next]
  refine Only.whenRunning (fun t1 h2 => ?_) ?_
  · refine Only.via (State.alarmRise_only _ _) rfl ?_
    exact h2
  · exact Only.refl _ _

theorem execSpeedIndexMeasure_only : ∀ a0 a1 s z, Only [.out, .log, .nvm, .nvs, .inst, .fn, .fss, .arc, .drives, .stl, .sns] s (runRow (execSpeedIndexMeasure a0 a1 s) z) := by
  intro a0 a1 s z
  unfold execSpeedIndexMeasure
  rw [runRow_next]
  refine Only.whenRunning (fun t1 h2 => ?_) ?_
  · extract_lets x3 x4 x5 x6 x7 x8
    refine Only.cut (t := x7) ?_ (fun h9 => ?_)
    · unfold x7
      refine Only.via (Only.set_stl _ _) rfl ?_
      exact h2
    refine Only.cut (t := x8) ?_ (fun h10 => ?_)
    · unfold x8
      refine Only.via (State.railReading_only _ _ _ _) rfl ?_
      exact h9
    refine Only.ite (fun _ => ?_) (fun _ => ?_)
    · refine Only.via (State.alarmRise_only _ _) rfl ?_
      exact h10
    · exact h10
  · exact Only.refl _ _

theorem execFabricSlowAlarmClear_only : ∀ s z, Only [.out, .log, .nvm, .nvs, .inst, .fn, .fss, .arc, .drives, .stl] s (runRow (execFabricSlowAlarmClear s) z) := by
  intro s z
  unfold execFabricSlowAlarmClear
  rw [runRow_next]
  refine Only.whenRunning (fun t1 h2 => ?_) ?_
  · refine Only.ite (fun _ => ?_) (fun _ => ?_)
    · refine Only.via (State.settle_only _) rfl ?_
      refine Only.via (Only.set_stl _ _) rfl ?_
      exact h2
    · exact h2
  · exact Only.refl _ _

theorem execTputWindow_only : ∀ a0 s z, Only [.stl] s (runRow (execTputWindow a0 s) z) := by
  intro a0 s z
  unfold execTputWindow
  rw [runRow_next]
  refine Only.whenRunning (fun t1 h2 => ?_) ?_
  · extract_lets x3 x4
    refine Only.via (Only.set_stl _ _) rfl ?_
    exact h2
  · exact Only.refl _ _

theorem execTputClr_only : ∀ a0 s z, Only [.stl] s (runRow (execTputClr a0 s) z) := by
  intro a0 s z
  unfold execTputClr
  rw [runRow_next]
  refine Only.whenRunning (fun t1 h2 => ?_) ?_
  · refine Only.ite (fun _ => ?_) (fun _ => ?_)
    · refine Only.via (Only.set_stl _ _) rfl ?_
      exact h2
    · exact h2
  · exact Only.refl _ _

theorem State.leaveSource_only : ∀ s, Only [.clk] s (State.leaveSource s) := by
  intro s
  unfold State.leaveSource
  refine Only.ite (fun _ => ?_) (fun _ => ?_)
  · exact Only.refl _ _
  · refine Only.via (Only.set_clk _ _) rfl ?_
    exact Only.refl _ _

theorem State.betterSource_only : ∀ s, Only [.clk] s (State.betterSource s) := by
  intro s
  unfold State.betterSource
  refine Only.ite (fun _ => ?_) (fun _ => ?_)
  · refine Only.via (Only.set_clk _ _) rfl ?_
    exact Only.refl _ _
  · exact Only.refl _ _

theorem State.sourceUp_only : ∀ s a1, Only [.clk] s (State.sourceUp s a1) := by
  intro s a1
  unfold State.sourceUp
  refine Only.ite (fun _ => ?_) (fun _ => ?_)
  · refine Only.via (Only.set_clk _ _) rfl ?_
    exact Only.refl _ _
  · exact Only.refl _ _

theorem State.clkFault_only : ∀ s a1, Only [.out, .log, .nvm, .nvs, .fn, .clk] s (State.clkFault s a1) := by
  intro s a1
  unfold State.clkFault
  refine Only.ite (fun _ => ?_) (fun _ => ?_)
  · exact Only.refl _ _
  · extract_lets x1 x2
    refine Only.cut (t := x2) ?_ (fun h3 => ?_)
    · unfold x2
      refine Only.via (Only.set_clk _ _) rfl ?_
      exact Only.refl _ _
    refine Only.via (State.leaveSource_only _) rfl ?_
    refine Only.via (State.note_only _ _ _) rfl ?_
    exact h3

theorem State.clkQualify_only : ∀ s a1 a2, Only [.out, .log, .nvm, .nvs, .fn, .clk] s (State.clkQualify s a1 a2) := by
  intro s a1 a2
  unfold State.clkQualify
  refine Only.ite (fun _ => ?_) (fun _ => ?_)
  · extract_lets x1 x2 x3
    refine Only.cut (t := x2) ?_ (fun h4 => ?_)
    · unfold x2
      refine Only.via (Only.set_clk _ _) rfl ?_
      exact Only.refl _ _
    refine Only.ite (fun _ => ?_) (fun _ => ?_)
    · refine Only.via (Only.set_clk _ _) rfl ?_
      exact h4
    · refine Only.via (State.sourceUp_only _ _) rfl ?_
      exact h4
  · refine Only.via (State.leaveSource_only _) rfl ?_
    refine Only.via (State.note_only _ _ _) rfl ?_
    refine Only.via (Only.set_clk _ _) rfl ?_
    exact Only.refl _ _

theorem execCrystalQualified_only : ∀ a0 a1 s z, Only [.out, .log, .nvm, .nvs, .fn, .clk] s (runRow (execCrystalQualified a0 a1 s) z) := by
  intro a0 a1 s z
  unfold execCrystalQualified
  rw [runRow_next]
  refine Only.whenPowered (fun t1 h2 => ?_) ?_
  · refine Only.via (State.clkQualify_only _ _ _) rfl ?_
    exact h2
  · exact Only.refl _ _

theorem execXt25Requalify_only : ∀ a0 s z, Only [.out, .log, .nvm, .nvs, .fn, .clk] s (runRow (execXt25Requalify a0 s) z) := by
  intro a0 s z
  unfold execXt25Requalify
  rw [runRow_next]
  refine Only.whenPowered (fun t1 h2 => ?_) ?_
  · refine Only.ite (fun _ => ?_) (fun _ => ?_)
    · exact h2
    · refine Only.via (State.clkQualify_only _ _ _) rfl ?_
      exact h2
  · exact Only.refl _ _

theorem execClockSourceFault_only : ∀ a0 s z, Only [.out, .log, .nvm, .nvs, .fn, .clk] s (runRow (execClockSourceFault a0 s) z) := by
  intro a0 s z
  unfold execClockSourceFault
  rw [runRow_next]
  refine Only.whenPowered (fun t1 h2 => ?_) ?_
  · refine Only.ite (fun _ => ?_) (fun _ => ?_)
    · refine Only.via (State.clkFault_only _ _) rfl ?_
      exact h2
    · exact h2
  · exact Only.refl _ _

theorem execSupervisorGate_only : ∀ a0 a1 a2 s z, Only [.out, .log, .nvm, .nvs, .fn, .clk] s (runRow (execSupervisorGate a0 a1 a2 s) z) := by
  intro a0 a1 a2 s z
  unfold execSupervisorGate
  rw [runRow_next]
  refine Only.whenPowered (fun t1 h2 => ?_) ?_
  · extract_lets x3 x4 x5 x6 x7 x8 x9 x10 x11 x12 x13 x14 x15 x16 x17 x18 x19 x20
    refine Only.cut (t := x15) ?_ (fun h21 => ?_)
    · unfold x15
      refine Only.via (Only.set_clk _ _) rfl ?_
      exact h2
    refine Only.cut (t := x19) ?_ (fun h22 => ?_)
    · unfold x19
      refine Only.via (Only.set_clk _ _) rfl ?_
      exact h21
    refine Only.cut (t := x20) ?_ (fun h23 => ?_)
    · unfold x20
      refine Only.ite (fun _ => ?_) (fun _ => ?_)
      · refine Only.via (State.sourceUp_only _ _) rfl ?_
        exact h22
      · exact h22
    split
    · rename_i y24 y25 y26
      refine Only.via (State.clkFault_only _ _) rfl ?_
      exact h21
    · rename_i y27 y28
      unfold x16
      refine Only.via (State.note_only _ _ _) rfl ?_
      refine Only.via (Only.set_clk _ _) rfl ?_
      exact h21
    · rename_i y29 y30
      split
      · rename_i y31 y32 y33
        refine Only.ite (fun _ => ?_) (fun _ => ?_)
        · exact h21
        · refine Only.via (State.leaveSource_only _) rfl ?_
          refine Only.via (State.note_only _ _ _) rfl ?_
          refine Only.via (Only.set_clk _ _) rfl ?_
          exact h21
      · rename_i y34 y35
        unfold x16
        refine Only.via (State.note_only _ _ _) rfl ?_
        refine Only.via (Only.set_clk _ _) rfl ?_
        exact h21
      · rename_i y36 y37
        refine Only.ite (fun _ => ?_) (fun _ => ?_)
        · refine Only.via (State.sourceUp_only _ _) rfl ?_
          exact h23
        · exact h23
  · exact Only.refl _ _

theorem State.resyncAll_only : ∀ s, Only [.drives] s (State.resyncAll s) := by
  intro s
  unfold State.resyncAll
  refine Only.forBelow (fun a1 t2 h3 => ?_) ?_
  · refine Only.via (State.resync_only _ _) rfl ?_
    exact h3
  · exact Only.refl _ _

theorem execRef25Switchover_only : ∀ s z, Only [.drives, .clk] s (runRow (execRef25Switchover s) z) := by
  intro s z
  unfold execRef25Switchover
  rw [runRow_next]
  refine Only.whenPowered (fun t1 h2 => ?_) ?_
  · split
    · rename_i y3 y4
      exact h2
    · rename_i y5 y6 y7
      extract_lets x8 x9 x10
      refine Only.cut (t := x9) ?_ (fun h11 => ?_)
      · unfold x9
        refine Only.via (Only.set_clk _ _) rfl ?_
        exact h2
      refine Only.ite (fun _ => ?_) (fun _ => ?_)
      · exact h11
      · refine Only.via (State.resyncAll_only _) rfl ?_
        refine Only.via (Only.set_clk _ _) rfl ?_
        exact h11
  · exact Only.refl _ _

theorem execSourceReturn_only : ∀ s z, Only [.clk] s (runRow (execSourceReturn s) z) := by
  intro s z
  unfold execSourceReturn
  rw [runRow_next]
  refine Only.whenPowered (fun t1 h2 => ?_) ?_
  · extract_lets x3 x4 x5
    refine Only.cut (t := x5) ?_ (fun h6 => ?_)
    · unfold x5
      refine Only.via (Only.set_clk _ _) rfl ?_
      exact h2
    refine Only.ite (fun _ => ?_) (fun _ => ?_)
    · exact h2
    · refine Only.via (State.betterSource_only _) rfl ?_
      exact h6
  · exact Only.refl _ _

theorem execSelReq_only : ∀ a0 s z, Only [.clk] s (runRow (execSelReq a0 s) z) := by
  intro a0 s z
  unfold execSelReq
  rw [runRow_next]
  refine Only.whenServing (fun t1 h2 => ?_) ?_
  · extract_lets x3 x4
    refine Only.ite (fun _ => ?_) (fun _ => ?_)
    · refine Only.via (Only.set_clk _ _) rfl ?_
      exact h2
    · exact h2
  · exact Only.refl _ _

theorem State.trackIdle_only : ∀ s, Only [.clk] s (State.trackIdle s) := by
  intro s
  unfold State.trackIdle
  refine Only.ite (fun _ => ?_) (fun _ => ?_)
  · refine Only.ite (fun _ => ?_) (fun _ => ?_)
    · refine Only.via (Only.set_clk _ _) rfl ?_
      exact Only.refl _ _
    · exact Only.refl _ _
  · refine Only.via (Only.set_clk _ _) rfl ?_
    exact Only.refl _ _

theorem execSleepModeEntry_only : ∀ s z, Only [.drives, .clk] s (runRow (execSleepModeEntry s) z) := by
  intro s z
  unfold execSleepModeEntry
  rw [runRow_next]
  refine Only.whenServing (fun t1 h2 => ?_) ?_
  · extract_lets x3 x4 x5 x6 x7
    refine Only.cut (t := x3) ?_ (fun h8 => ?_)
    · unfold x3
      refine Only.via (State.trackIdle_only _) rfl ?_
      exact h2
    refine Only.cut (t := x7) ?_ (fun h9 => ?_)
    · unfold x7
      refine Only.via (Only.set_clk _ _) rfl ?_
      exact h8
    split
    · rename_i y10 y11 y12
      refine Only.ite (fun _ => ?_) (fun _ => ?_)
      · refine Only.ite (fun _ => ?_) (fun _ => ?_)
        · exact h9
        · refine Only.forBelow (fun a13 t14 h15 => ?_) ?_
          · refine Only.via (State.modSled_only _ _ _) rfl ?_
            exact h15
          · exact h9
      · exact h8
    · rename_i y16 y17
      exact h8
  · exact Only.refl _ _

theorem execPowerModeWake_only : ∀ s z, Only [.clk] s (runRow (execPowerModeWake s) z) := by
  intro s z
  unfold execPowerModeWake
  rw [runRow_next]
  refine Only.whenRunning (fun t1 h2 => ?_) ?_
  · refine Only.via (State.wakeUp_only _) rfl ?_
    exact h2
  · exact Only.refl _ _

theorem execFmcGo_only : ∀ a0 s z, Only [.clk] s (runRow (execFmcGo a0 s) z) := by
  intro a0 s z
  unfold execFmcGo
  rw [runRow_next]
  refine Only.whenServing (fun t1 h2 => ?_) ?_
  · refine Only.ite (fun _ => ?_) (fun _ => ?_)
    · exact h2
    · refine Only.ite (fun _ => ?_) (fun _ => ?_)
      · refine Only.via (Only.set_clk _ _) rfl ?_
        exact h2
      · refine Only.via (Only.set_clk _ _) rfl ?_
        exact h2
  · exact Only.refl _ _

theorem execFmcDone_only : ∀ a0 s z, Only [.clk] s (runRow (execFmcDone a0 s) z) := by
  intro a0 s z
  unfold execFmcDone
  rw [runRow_next]
  refine Only.whenServing (fun t1 h2 => ?_) ?_
  · refine Only.ite (fun _ => ?_) (fun _ => ?_)
    · exact h2
    · extract_lets x3 x4
      refine Only.via (Only.set_clk _ _) rfl ?_
      exact h2
  · exact Only.refl _ _

theorem State.driveOpened_only : ∀ s a1, Only [.out, .log, .nvm, .nvs, .inst, .fn, .fss, .arc, .drives, .pwb] s (State.driveOpened s a1) := by
  intro s a1
  unfold State.driveOpened
  extract_lets x1 x2 x3 x4 x5 x6
  refine Only.cut (t := x1) ?_ (fun h7 => ?_)
  · unfold x1
    refine Only.via (State.closeGate_only _ _) rfl ?_
    exact Only.refl _ _
  refine Only.cut (t := x2) ?_ (fun h8 => ?_)
  · unfold x2
    refine Only.via (State.modDrive_only _ _ _) rfl ?_
    exact h7
  refine Only.cut (t := x3) ?_ (fun h9 => ?_)
  · unfold x3
    refine Only.via (State.sledPark_only _ _) rfl ?_
    refine Only.via (State.openFoc_only _ _ _) rfl ?_
    refine Only.via (State.spinStopReq_only _ _) rfl ?_
    exact h8
  refine Only.cut (t := x5) ?_ (fun h10 => ?_)
  · unfold x5
    refine Only.via (Only.set_arc _ _) rfl ?_
    exact h9
  refine Only.cut (t := x6) ?_ (fun h11 => ?_)
  · unfold x6
    split
    · rename_i y12 y13 y14
      refine Only.forEach (fun a15 t16 h17 => ?_) ?_
      · refine Only.via (State.stripeBad_only _ _ _) rfl ?_
        exact h17
      · exact h10
    · rename_i y18 y19
      refine Only.via (Only.set_arc _ _) rfl ?_
      exact h9
  refine Only.via (State.settle_only _) rfl ?_
  refine Only.via (State.noteWaiting_only _) rfl ?_
  refine Only.ite (fun _ => ?_) (fun _ => ?_)
  · refine Only.via (State.stopRecording_only _) rfl ?_
    exact h11
  · exact h11

theorem State.critAll_only : ∀ s, Only [.log, .nvm, .nvs] s (State.critAll s) := by
  intro s
  unfold State.critAll
  refine Only.forEach (fun a1 t2 h3 => ?_) ?_
  · refine Only.via (State.critOne_only _) rfl ?_
    exact h3
  · exact Only.refl _ _

theorem State.pgoodFalls_only : ∀ s, Only [.out, .log, .nvm, .nvs, .inst, .fn, .fss, .arc, .drives, .pwb] s (State.pgoodFalls s) := by
  intro s
  unfold State.pgoodFalls
  extract_lets x1 x2 x3 x4
  refine Only.cut (t := x3) ?_ (fun h5 => ?_)
  · unfold x3
    refine Only.via (Only.set_fss_pwb _ _ _) rfl ?_
    exact Only.refl _ _
  refine Only.cut (t := x4) ?_ (fun h6 => ?_)
  · unfold x4
    refine Only.via (State.critAll_only _) rfl ?_
    refine Only.via (State.ctrStore_only _ _ _) rfl ?_
    refine Only.ite (fun _ => ?_) (fun _ => ?_)
    · refine Only.via (State.ctrStore_only _ _ _) rfl ?_
      exact h5
    · exact h5
  refine Only.via (State.settle_only _) rfl ?_
  refine Only.forBelow (fun a7 t8 h9 => ?_) ?_
  · refine Only.via (State.modSled_only _ _ _) rfl ?_
    exact h9
  · exact h6

theorem State.pgoodRises_only : ∀ s, Only [.out, .log, .nvm, .nvs, .link, .inst, .fn, .reads, .nextTag, .lastFn, .fss, .mch, .arc, .drives, .pwb] s (State.pgoodRises s) := by
  intro s
  unfold State.pgoodRises
  extract_lets x1 x2 x3 x4 x5
  refine Only.cut (t := x5) ?_ (fun h6 => ?_)
  · unfold x5
    refine Only.via (Only.set_fss_pwb _ _ _) rfl ?_
    exact Only.refl _ _
  refine Only.via (State.pump_only _) rfl ?_
  refine Only.via (State.settle_only _) rfl ?_
  exact h6

theorem State.levelsChanged_only : ∀ s a1, Only [.out, .log, .nvm, .nvs, .link, .inst, .fn, .reads, .nextTag, .lastFn, .fss, .mch, .arc, .drives, .clk, .pwb] s (State.levelsChanged s a1) := by
  intro s a1
  unfold State.levelsChanged
  extract_lets x1 x2 x3 x4
  refine Only.cut (t := x1) ?_ (fun h5 => ?_)
  · unfold x1
    refine Only.ite (fun _ => ?_) (fun _ => ?_)
    · exact Only.refl _ _
    · refine Only.via (State.wakeUp_only _) rfl ?_
      exact Only.refl _ _
  refine Only.cut (t := x2) ?_ (fun h6 => ?_)
  · unfold x2
    refine Only.forBelow (fun a7 t8 h9 => ?_) ?_
    · refine Only.ite (fun _ => ?_) (fun _ => ?_)
      · refine Only.via (State.driveOpened_only _ _) rfl ?_
        exact h9
      · exact h9
    · exact h5
  refine Only.cut (t := x3) ?_ (fun h10 => ?_)
  · unfold x3
    refine Only.ite (fun _ => ?_) (fun _ => ?_)
    · refine Only.via (State.pgoodFalls_only _) rfl ?_
      exact h6
    · refine Only.ite (fun _ => ?_) (fun _ => ?_)
      · refine Only.via (State.pgoodRises_only _) rfl ?_
        exact h6
      · exact h6
  refine Only.ite (fun _ => ?_) (fun _ => ?_)
  · refine Only.via (Only.set_pwb _ _) rfl ?_
    exact h10
  · exact h10

theorem Only.overLevels {l : List StateField} {s X : State} {g : State → State} (hg : ∀ t, Only l s t → Only l s (g t))
    (hl : StateField.within [.out, .log, .nvm, .nvs, .link, .inst, .fn, .reads, .nextTag, .lastFn, .fss, .mch, .arc, .drives, .clk, .pwb] l = true)
    (h : Only l s X) : Only l s (X.overLevels g) := by
  unfold State.overLevels
  exact Only.via (State.levelsChanged_only _ _) hl (hg X h)

theorem State.inpEvt_only : ∀ s a1, Only [.out, .fn, .inp] s (State.inpEvt s a1) := by
  intro s a1
  unfold State.inpEvt
  refine Only.ite (fun _ => ?_) (fun _ => ?_)
  · exact Only.refl _ _
  · extract_lets x1 x2
    refine Only.cut (t := x2) ?_ (fun h3 => ?_)
    · unfold x2
      refine Only.via (Only.set_inp _ _) rfl ?_
      exact Only.refl _ _
    refine Only.ite (fun _ => ?_) (fun _ => ?_)
    · refine Only.via (State.raise_only _ _ _) rfl ?_
      exact h3
    · exact h3

theorem State.judgeChatter_only : ∀ s a1, Only [.out, .log, .nvm, .nvs, .fn, .inp] s (State.judgeChatter s a1) := by
  intro s a1
  unfold State.judgeChatter
  split
  · rename_i y1 y2
    exact Only.refl _ _
  · rename_i y3 y4 y5 y6
    refine Only.ite (fun _ => ?_) (fun _ => ?_)
    · exact Only.refl _ _
    · extract_lets x7 x8 x9 x10
      refine Only.cut (t := x8) ?_ (fun h11 => ?_)
      · unfold x8
        refine Only.via (Only.set_inp _ _) rfl ?_
        exact Only.refl _ _
      refine Only.cut (t := x10) ?_ (fun h12 => ?_)
      · unfold x10
        refine Only.via (Only.set_inp _ _) rfl ?_
        exact h11
      refine Only.ite (fun _ => ?_) (fun _ => ?_)
      · exact h11
      · refine Only.via (State.note_only _ _ _) rfl ?_
        refine Only.via (State.inpEvt_only _ _) rfl ?_
        exact h12

theorem State.judgePairs_only : ∀ s, Only [.inp] s (State.judgePairs s) := by
  intro s
  unfold State.judgePairs
  refine Only.via (Only.set_inp _ _) rfl ?_
  exact Only.refl _ _

theorem State.qualify_only : ∀ s a1 a2, Only [.out, .log, .nvm, .nvs, .link, .inst, .fn, .reads, .nextTag, .lastFn, .fss, .mch, .arc, .drives, .clk, .pwb, .inp] s (State.qualify s a1 a2) := by
  intro s a1 a2
  unfold State.qualify
  refine Only.ite (fun _ => ?_) (fun _ => ?_)
  · exact Only.refl _ _
  · refine Only.overLevels (fun t1 h2 => ?_) rfl ?_
    · extract_lets x3 x4 x5 x6
      refine Only.cut (t := x6) ?_ (fun h7 => ?_)
      · unfold x6
        refine Only.via (Only.set_inp _ _) rfl ?_
        exact h2
      refine Only.via (State.judgePairs_only _) rfl ?_
      refine Only.via (State.judgeChatter_only _ _) rfl ?_
      exact h7
    · exact Only.refl _ _

theorem execInputQualified_only : ∀ a0 a1 s z, Only [.out, .log, .nvm, .nvs, .link, .inst, .fn, .reads, .nextTag, .lastFn, .fss, .mch, .arc, .drives, .clk, .pwb, .inp] s (runRow (execInputQualified a0 a1 s) z) := by
  intro a0 a1 s z
  unfold execInputQualified
  rw [runRow_next]
  refine Only.whenRunning (fun t1 h2 => ?_) ?_
  · refine Only.via (State.qualify_only _ _ _) rfl ?_
    exact h2
  · exact Only.refl _ _

theorem State.cleared_only : ∀ s a1, Only [.out, .log, .nvm, .nvs, .fn, .inp] s (State.cleared s a1) := by
  intro s a1
  unfold State.cleared
  refine Only.via (State.note_only _ _ _) rfl ?_
  refine Only.via (State.inpEvt_only _ _) rfl ?_
  exact Only.refl _ _

theorem State.endChatter_only : ∀ s a1, Only [.inp] s (State.endChatter s a1) := by
  intro s a1
  unfold State.endChatter
  extract_lets x1 x2
  refine Only.via (Only.set_inp _ _) rfl ?_
  exact Only.refl _ _

theorem execChatterClear_only : ∀ a0 s z, Only [.out, .log, .nvm, .nvs, .link, .inst, .fn, .reads, .nextTag, .lastFn, .fss, .mch, .arc, .drives, .clk, .pwb, .inp] s (runRow (execChatterClear a0 s) z) := by
  intro a0 s z
  unfold execChatterClear
  rw [runRow_next]
  refine Only.whenRunning (fun t1 h2 => ?_) ?_
  · extract_lets x3 x4 x5
    refine Only.ite (fun _ => ?_) (fun _ => ?_)
    · refine Only.via (State.cleared_only _ _) rfl ?_
      refine Only.overLevels (fun t6 h7 => ?_) rfl ?_
      · refine Only.via (State.endChatter_only _ _) rfl ?_
        exact h7
      · exact h2
    · exact h2
  · exact Only.refl _ _

theorem State.declareStuck_only : ∀ s a1, Only [.out, .log, .nvm, .nvs, .link, .inst, .fn, .reads, .nextTag, .lastFn, .fss, .mch, .arc, .drives, .clk, .pwb, .inp] s (State.declareStuck s a1) := by
  intro s a1
  unfold State.declareStuck
  refine Only.overLevels (fun t1 h2 => ?_) rfl ?_
  · refine Only.forEach (fun a3 t4 h5 => ?_) ?_
    · refine Only.ite (fun _ => ?_) (fun _ => ?_)
      · exact h5
      · extract_lets x6 x7
        refine Only.cut (t := x7) ?_ (fun h8 => ?_)
        · unfold x7
          refine Only.via (Only.set_inp _ _) rfl ?_
          exact h5
        refine Only.via (State.note_only _ _ _) rfl ?_
        refine Only.via (State.inpEvt_only _ _) rfl ?_
        exact h8
    · exact h2
  · exact Only.refl _ _

theorem execInputStuck_only : ∀ a0 s z, Only [.out, .log, .nvm, .nvs, .link, .inst, .fn, .reads, .nextTag, .lastFn, .fss, .mch, .arc, .drives, .clk, .pwb, .inp] s (runRow (execInputStuck a0 s) z) := by
  intro a0 s z
  unfold execInputStuck
  rw [runRow_next]
  refine Only.whenRunning (fun t1 h2 => ?_) ?_
  · extract_lets x3
    refine Only.ite (fun _ => ?_) (fun _ => ?_)
    · split
      · rename_i y4 y5 y6 y7
        refine Only.ite (fun _ => ?_) (fun _ => ?_)
        · refine Only.via (State.declareStuck_only _ _) rfl ?_
          exact h2
        · exact h2
      · rename_i y8 y9 y10
        exact h2
    · split
      · rename_i y11 y12 y13 y14 y15
        refine Only.ite (fun _ => ?_) (fun _ => ?_)
        · refine Only.via (State.declareStuck_only _ _) rfl ?_
          exact h2
        · exact h2
      · rename_i y16 y17 y18
        exact h2
  · exact Only.refl _ _

theorem execStuckClear_only : ∀ a0 s z, Only [.out, .log, .nvm, .nvs, .link, .inst, .fn, .reads, .nextTag, .lastFn, .fss, .mch, .arc, .drives, .clk, .pwb, .inp] s (runRow (execStuckClear a0 s) z) := by
  intro a0 s z
  unfold execStuckClear
  rw [runRow_next]
  refine Only.whenRunning (fun t1 h2 => ?_) ?_
  · extract_lets x3 x4
    refine Only.ite (fun _ => ?_) (fun _ => ?_)
    · exact h2
    · refine Only.ite (fun _ => ?_) (fun _ => ?_)
      · refine Only.ite (fun _ => ?_) (fun _ => ?_)
        · unfold x4
          extract_lets x5
          refine Only.cut (t := x5) ?_ (fun h6 => ?_)
          · unfold x5
            refine Only.overLevels (fun t7 h8 => ?_) rfl ?_
            · refine Only.via (Only.set_inp _ _) rfl ?_
              exact h8
            · exact h2
          refine Only.forEach (fun a9 t10 h11 => ?_) ?_
          · refine Only.via (State.cleared_only _ _) rfl ?_
            exact h11
          · exact h6
        · exact h2
      · split
        · rename_i y12 y13 y14 y15 y16 y17
          refine Only.ite (fun _ => ?_) (fun _ => ?_)
          · unfold x4
            extract_lets x18
            refine Only.cut (t := x18) ?_ (fun h19 => ?_)
            · unfold x18
              refine Only.overLevels (fun t20 h21 => ?_) rfl ?_
              · refine Only.via (Only.set_inp _ _) rfl ?_
                exact h21
              · exact h2
            refine Only.forEach (fun a22 t23 h24 => ?_) ?_
            · refine Only.via (State.cleared_only _ _) rfl ?_
              exact h24
            · exact h19
          · exact h2
        · rename_i y25 y26 y27 y28
          exact h2
  · exact Only.refl _ _

theorem execPdPgoodFall_only : ∀ s z, Only [.out, .log, .nvm, .nvs, .link, .inst, .fn, .reads, .nextTag, .lastFn, .fss, .mch, .arc, .drives, .clk, .pwb, .inp] s (runRow (execPdPgoodFall s) z) := by
  intro s z
  unfold execPdPgoodFall
  rw [runRow_next]
  refine Only.whenRunning (fun t1 h2 => ?_) ?_
  · refine Only.via (State.qualify_only _ _ _) rfl ?_
    exact h2
  · exact Only.refl _ _

theorem execPdPgoodRise_only : ∀ s z, Only [.out, .log, .nvm, .nvs, .link, .inst, .fn, .reads, .nextTag, .lastFn, .fss, .mch, .arc, .drives, .clk, .pwb, .inp] s (runRow (execPdPgoodRise s) z) := by
  intro s z
  unfold execPdPgoodRise
  rw [runRow_next]
  refine Only.whenRunning (fun t1 h2 => ?_) ?_
  · refine Only.via (State.qualify_only _ _ _) rfl ?_
    exact h2
  · exact Only.refl _ _

theorem execPseClassChange_only : ∀ a0 s z, Only [.out, .log, .nvm, .nvs, .link, .inst, .fn, .reads, .nextTag, .lastFn, .fss, .mch, .arc, .drives, .clk, .pwb, .inp] s (runRow (execPseClassChange a0 s) z) := by
  intro a0 s z
  unfold execPseClassChange
  rw [runRow_next]
  refine Only.whenRunning (fun t1 h2 => ?_) ?_
  · refine Only.via (State.qualify_only _ _ _) rfl ?_
    refine Only.via (State.qualify_only _ _ _) rfl ?_
    exact h2
  · exact Only.refl _ _

theorem State.setRange_only : ∀ s a1 a2 a3, Only [.out, .regs, .log, .nvm, .nvs, .inst, .fn, .fss, .arc, .drives, .inp, .cal] s (State.setRange s a1 a2 a3) := by
  intro s a1 a2 a3
  unfold State.setRange
  extract_lets x1 x2
  refine Only.cut (t := x2) ?_ (fun h3 => ?_)
  · unfold x2
    refine Only.via (Only.set_inp _ _) rfl ?_
    exact Only.refl _ _
  refine Only.ite (fun _ => ?_) (fun _ => ?_)
  · refine Only.via (State.settle_only _) rfl ?_
    refine Only.via (State.followTemp_only _ _) rfl ?_
    exact h3
  · exact h3

theorem execAnalogueOutOfRange_only : ∀ a0 a1 s z, Only [.out, .regs, .log, .nvm, .nvs, .inst, .fn, .fss, .arc, .drives, .inp, .cal] s (runRow (execAnalogueOutOfRange a0 a1 s) z) := by
  intro a0 a1 s z
  unfold execAnalogueOutOfRange
  rw [runRow_next]
  refine Only.whenRunning (fun t1 h2 => ?_) ?_
  · refine Only.ite (fun _ => ?_) (fun _ => ?_)
    · exact h2
    · refine Only.via (State.note_only _ _ _) rfl ?_
      refine Only.via (State.inpEvt_only _ _) rfl ?_
      refine Only.via (State.setRange_only _ _ _ _) rfl ?_
      exact h2
  · exact Only.refl _ _

theorem execAnalogueReturn_only : ∀ a0 a1 s z, Only [.out, .regs, .log, .nvm, .nvs, .inst, .fn, .fss, .arc, .drives, .inp, .cal] s (runRow (execAnalogueReturn a0 a1 s) z) := by
  intro a0 a1 s z
  unfold execAnalogueReturn
  rw [runRow_next]
  refine Only.whenRunning (fun t1 h2 => ?_) ?_
  · refine Only.ite (fun _ => ?_) (fun _ => ?_)
    · refine Only.via (State.note_only _ _ _) rfl ?_
      refine Only.via (State.inpEvt_only _ _) rfl ?_
      refine Only.via (State.setRange_only _ _ _ _) rfl ?_
      exact h2
    · exact h2
  · exact Only.refl _ _

theorem State.queueAsked_only : ∀ s, Only [.pwb] s (State.queueAsked s) := by
  intro s
  unfold State.queueAsked
  refine Only.via (Only.set_pwb _ _) rfl ?_
  exact Only.refl _ _

theorem State.giveGrant_only : ∀ s, Only [.drives, .pwb] s (State.giveGrant s) := by
  intro s
  unfold State.giveGrant
  split
  · rename_i y1 y2 y3 y4
    extract_lets x5 x6
    refine Only.ite (fun _ => ?_) (fun _ => ?_)
    · refine Only.via (State.modSpin_only _ _ _) rfl ?_
      refine Only.via (Only.set_pwb _ _) rfl ?_
      exact Only.refl _ _
    · exact Only.refl _ _
  · rename_i y7 y8
    exact Only.refl _ _

theorem State.runGrants_only : ∀ s, Only [.pwb] s (State.runGrants s) := by
  intro s
  unfold State.runGrants
  extract_lets x1 x2
  refine Only.via (Only.set_pwb _ _) rfl ?_
  exact Only.refl _ _

theorem State.coastOne_only : ∀ s, Only [.drives, .pwb] s (State.coastOne s) := by
  intro s
  unfold State.coastOne
  split
  · rename_i y1 y2 y3
    refine Only.via (State.spinStopped_only _ _) rfl ?_
    exact Only.refl _ _
  · rename_i y4 y5
    exact Only.refl _ _

theorem State.budget_only : ∀ s a1, Only [.out, .log, .nvm, .nvs, .fn, .drives, .pwb] s (State.budget s a1) := by
  intro s a1
  unfold State.budget
  extract_lets x1 x2 x3 x4 x5 x6 x7 x8 x9 x10 x11 x12
  refine Only.cut (t := x10) ?_ (fun h13 => ?_)
  · unfold x10
    refine Only.ite (fun _ => ?_) (fun _ => ?_)
    · refine Only.via (State.note_only _ _ _) rfl ?_
      exact Only.refl _ _
    · exact Only.refl _ _
  refine Only.cut (t := x12) ?_ (fun h14 => ?_)
  · unfold x12
    refine Only.via (Only.set_pwb _ _) rfl ?_
    exact h13
  refine Only.via (Only.set_drives _ _) rfl ?_
  exact h14

theorem State.judgeLevel_only : ∀ s, Only [.out, .log, .nvm, .nvs, .fn, .drives, .pwb] s (State.judgeLevel s) := by
  intro s
  unfold State.judgeLevel
  extract_lets x1 x2 x3 x4 x5
  refine Only.cut (t := x4) ?_ (fun h6 => ?_)
  · unfold x4
    refine Only.via (Only.set_pwb _ _) rfl ?_
    exact Only.refl _ _
  refine Only.cut (t := x5) ?_ (fun h7 => ?_)
  · unfold x5
    refine Only.ite (fun _ => ?_) (fun _ => ?_)
    · refine Only.via (State.note_only _ _ _) rfl ?_
      exact h6
    · exact h6
  refine Only.ite (fun _ => ?_) (fun _ => ?_)
  · refine Only.via (State.coastOne_only _) rfl ?_
    exact h7
  · exact h7

theorem execBudgetSample_only : ∀ a0 s z, Only [.out, .log, .nvm, .nvs, .inst, .fn, .fss, .arc, .drives, .pwb] s (runRow (execBudgetSample a0 s) z) := by
  intro a0 s z
  unfold execBudgetSample
  rw [runRow_next]
  refine Only.whenRunning (fun t1 h2 => ?_) ?_
  · refine Only.via (State.settle_only _) rfl ?_
    refine Only.via (State.runGrants_only _) rfl ?_
    refine Only.via (State.giveGrant_only _) rfl ?_
    refine Only.via (State.queueAsked_only _) rfl ?_
    refine Only.via (State.judgeLevel_only _) rfl ?_
    refine Only.via (State.budget_only _ _) rfl ?_
    exact h2
  · exact Only.refl _ _

theorem State.tempTriggers_only : ∀ s, Only [.regs, .drives, .cal] s (State.tempTriggers s) := by
  intro s
  unfold State.tempTriggers
  extract_lets x1 x2
  refine Only.cut (t := x1) ?_ (fun h3 => ?_)
  · unfold x1
    refine Only.via (State.followDie_only _) rfl ?_
    refine Only.via (State.holdTemps_only _) rfl ?_
    exact Only.refl _ _
  refine Only.cut (t := x2) ?_ (fun h4 => ?_)
  · unfold x2
    refine Only.ite (fun _ => ?_) (fun _ => ?_)
    · refine Only.via (State.calFallsDue_only _ _ _) rfl ?_
      exact h3
    · exact h3
  refine Only.forBelow (fun a5 t6 h7 => ?_) ?_
  · extract_lets x8 x9 x10 x11
    refine Only.cut (t := x8) ?_ (fun h12 => ?_)
    · unfold x8
      refine Only.foldl (fun t14 a13 h15 => ?_) ?_
      · refine Only.ite (fun _ => ?_) (fun _ => ?_)
        · refine Only.via (State.calFallsDue_only _ _ _) rfl ?_
          exact h15
        · exact h15
      · exact h7
    refine Only.cut (t := x11) ?_ (fun h16 => ?_)
    · unfold x11
      refine Only.ite (fun _ => ?_) (fun _ => ?_)
      · refine Only.via (State.modWst_only _ _ _) rfl ?_
        exact h12
      · exact h12
    refine Only.via (State.followTemp_only _ _) rfl ?_
    exact h16
  · exact h4

theorem State.holdTherm_only : ∀ s a1, Only [.sns] s (State.holdTherm s a1) := by
  intro s a1
  unfold State.holdTherm
  extract_lets x1 x2 x3 x4 x5
  refine Only.via (Only.set_sns _ _) rfl ?_
  exact Only.refl _ _

theorem State.judgeDie_only : ∀ s, Only [.out, .log, .nvm, .nvs, .fn, .sns] s (State.judgeDie s) := by
  intro s
  unfold State.judgeDie
  extract_lets x1 x2 x3 x4 x5 x6 x7 x8 x9
  refine Only.cut (t := x3) ?_ (fun h10 => ?_)
  · unfold x3
    refine Only.ite (fun _ => ?_) (fun _ => ?_)
    · refine Only.via (State.note_only _ _ _) rfl ?_
      exact Only.refl _ _
    · exact Only.refl _ _
  refine Only.cut (t := x5) ?_ (fun h11 => ?_)
  · unfold x5
    refine Only.via (Only.set_sns _ _) rfl ?_
    exact h10
  refine Only.cut (t := x7) ?_ (fun h12 => ?_)
  · unfold x7
    refine Only.ite (fun _ => ?_) (fun _ => ?_)
    · refine Only.via (State.note_only _ _ _) rfl ?_
      refine Only.via (Only.set_sns _ _) rfl ?_
      exact h11
    · exact h11
  refine Only.via (Only.set_sns _ _) rfl ?_
  exact h12

theorem State.readDie_only : ∀ s a1, Only [.out, .regs, .log, .nvm, .nvs, .inst, .fn, .fss, .arc, .drives, .sns, .cal] s (State.readDie s a1) := by
  intro s a1
  unfold State.readDie
  extract_lets x1 x2 x3 x4 x5
  refine Only.cut (t := x2) ?_ (fun h6 => ?_)
  · unfold x2
    refine Only.via (Only.set_sns _ _) rfl ?_
    exact Only.refl _ _
  refine Only.cut (t := x4) ?_ (fun h7 => ?_)
  · unfold x4
    refine Only.forBelow (fun a8 t9 h10 => ?_) ?_
    · refine Only.ite (fun _ => ?_) (fun _ => ?_)
      · refine Only.via (State.note_only _ _ _) rfl ?_
        exact h10
      · exact h10
    · exact h6
  refine Only.via (State.settle_only _) rfl ?_
  refine Only.via (State.tempTriggers_only _) rfl ?_
  refine Only.forBelow (fun a11 t12 h13 => ?_) ?_
  · refine Only.via (State.holdTherm_only _ _) rfl ?_
    exact h13
  · refine Only.via (State.judgeDie_only _) rfl ?_
    refine Only.via (Only.set_sns _ _) rfl ?_
    exact h7

theorem State.readRails_only : ∀ s a1, Only [.out, .log, .nvm, .nvs, .fn, .sns] s (State.readRails s a1) := by
  intro s a1
  unfold State.readRails
  extract_lets x1 x2 x3
  refine Only.cut (t := x3) ?_ (fun h4 => ?_)
  · unfold x3
    refine Only.via (Only.set_sns _ _) rfl ?_
    exact Only.refl _ _
  refine Only.forBelow (fun a5 t6 h7 => ?_) ?_
  · refine Only.via (State.railReading_only _ _ _ _) rfl ?_
    exact h7
  · exact h4

theorem State.readLaser_only : ∀ s a1 a2, Only [.out, .log, .nvm, .nvs, .fn, .sns] s (State.readLaser s a1 a2) := by
  intro s a1 a2
  unfold State.readLaser
  extract_lets x1 x2 x3 x4 x5 x6
  refine Only.cut (t := x4) ?_ (fun h7 => ?_)
  · unfold x4
    refine Only.via (Only.set_sns _ _) rfl ?_
    exact Only.refl _ _
  refine Only.ite (fun _ => ?_) (fun _ => ?_)
  · refine Only.via (State.note_only _ _ _) rfl ?_
    refine Only.via (Only.set_sns _ _) rfl ?_
    exact h7
  · exact h7

theorem execSensorSample_only : ∀ a0 s z, Only [.out, .regs, .log, .nvm, .nvs, .inst, .fn, .fss, .arc, .drives, .sns, .cal] s (runRow (execSensorSample a0 s) z) := by
  intro a0 s z
  unfold execSensorSample
  rw [runRow_next]
  refine Only.whenRunning (fun t1 h2 => ?_) ?_
  · split
    · rename_i y3 y4
      refine Only.via (State.readDie_only _ _) rfl ?_
      exact h2
    · rename_i y5 y6
      refine Only.via (State.settle_only _) rfl ?_
      refine Only.via (State.tempTriggers_only _) rfl ?_
      refine Only.forBelow (fun a7 t8 h9 => ?_) ?_
      · refine Only.via (State.holdTherm_only _ _) rfl ?_
        exact h9
      · refine Only.via (Only.set_sns _ _) rfl ?_
        exact h2
    · rename_i y10 y11
      refine Only.via (State.readRails_only _ _) rfl ?_
      exact h2
    · rename_i y12 y13 y14
      refine Only.via (State.readLaser_only _ _ _) rfl ?_
      exact h2
  · exact Only.refl _ _

theorem execHotClear_only : ∀ s z, Only [.sns] s (runRow (execHotClear s) z) := by
  intro s z
  unfold execHotClear
  rw [runRow_next]
  refine Only.whenRunning (fun t1 h2 => ?_) ?_
  · split
    · rename_i y3 y4 y5
      refine Only.ite (fun _ => ?_) (fun _ => ?_)
      · refine Only.via (Only.set_sns _ _) rfl ?_
        exact h2
      · exact h2
    · rename_i y6 y7
      exact h2
  · exact Only.refl _ _

theorem execThermWrite_only : ∀ a0 s z, Only [.out, .regs, .log, .nvm, .nvs, .fn] s (runRow (execThermWrite a0 s) z) := by
  intro a0 s z
  unfold execThermWrite
  rw [runRow_next]
  refine Only.whenServing (fun t1 h2 => ?_) ?_
  · refine Only.via (State.storeReg_only _ _ _) rfl ?_
    exact h2
  · exact Only.refl _ _

theorem State.commitClock_only : ∀ s a1, Only [.out, .regs, .tm, .log, .nvm, .nvs, .inst, .fn, .drives, .cal] s (State.commitClock s a1) := by
  intro s a1
  unfold State.commitClock
  extract_lets x1 x2 x3 x4 x5 x6 x7 x8
  refine Only.cut (t := x5) ?_ (fun h9 => ?_)
  · unfold x5
    refine Only.via (Only.set_tm _ _) rfl ?_
    exact Only.refl _ _
  refine Only.cut (t := x6) ?_ (fun h10 => ?_)
  · unfold x6
    refine Only.via (State.note_only _ _ _) rfl ?_
    exact h9
  refine Only.cut (t := x7) ?_ (fun h11 => ?_)
  · unfold x7
    refine Only.via (State.note_only _ _ _) rfl ?_
    refine Only.via (State.flagPeriods_only _ _) rfl ?_
    exact h10
  refine Only.cut (t := x8) ?_ (fun h12 => ?_)
  · unfold x8
    refine Only.ite (fun _ => ?_) (fun _ => ?_)
    · refine Only.via (State.postOwn_only _ _ _ _) rfl ?_
      exact h11
    · refine Only.via (State.jumpPeriods_only _) rfl ?_
      exact h10
  refine Only.ite (fun _ => ?_) (fun _ => ?_)
  · refine Only.via (State.coldDecision_only _) rfl ?_
    exact h12
  · exact h12

theorem State.wrap_only : ∀ s, Only [.out, .free, .regs, .tm, .log, .nvm, .nvs, .inst, .fn, .drives, .cal] s (State.wrap s) := by
  intro s
  unfold State.wrap
  extract_lets x1 x2 x3 x4
  refine Only.cut (t := x3) ?_ (fun h5 => ?_)
  · unfold x3
    refine Only.ite (fun _ => ?_) (fun _ => ?_)
    · refine Only.via (State.useFree_only _) rfl ?_
      exact Only.refl _ _
    · exact Only.refl _ _
  refine Only.ite (fun _ => ?_) (fun _ => ?_)
  · refine Only.via (State.commitClock_only _ _) rfl ?_
    exact h5
  · refine Only.via (Only.set_tm _ _) rfl ?_
    exact h5

theorem tick_only : ∀ s, Only [.out, .free, .regs, .tm, .log, .nvm, .nvs, .inst, .fn, .drives, .clk, .cal] s (tick s) := by
  intro s
  unfold tick
  refine Only.ite (fun _ => ?_) (fun _ => ?_)
  · exact Only.refl _ _
  · extract_lets x1 x2
    refine Only.cut (t := x1) ?_ (fun h3 => ?_)
    · unfold x1
      refine Only.via (Only.set_tm _ _) rfl ?_
      exact Only.refl _ _
    refine Only.via (State.trackIdle_only _) rfl ?_
    refine Only.ite (fun _ => ?_) (fun _ => ?_)
    · refine Only.via (State.wrap_only _) rfl ?_
      exact h3
    · refine Only.via (Only.set_tm _ _) rfl ?_
      exact h3

theorem execTimSecLoRead_only : ∀ s z, Only [.out, .latches, .sec] s (runRow (execTimSecLoRead s) z) := by
  intro s z
  unfold execTimSecLoRead
  rw [runRow_next]
  refine Only.whenServing (fun t1 h2 => ?_) ?_
  · extract_lets x3 x4
    refine Only.via (State.emitCpl_only _ _) rfl ?_
    refine Only.via (Only.set_latches _ _) rfl ?_
    exact h2
  · exact Only.refl _ _

theorem execSetClock_only : ∀ s z, Only [.tm, .hlt] s (runRow (execSetClock s) z) := by
  intro s z
  unfold execSetClock
  rw [runRow_next]
  refine Only.whenServing (fun t1 h2 => ?_) ?_
  · refine Only.ite (fun _ => ?_) (fun _ => ?_)
    · refine Only.via (State.accError_only _ _ _ _) rfl ?_
      exact h2
    · refine Only.via (Only.set_tm _ _) rfl ?_
      exact h2
  · exact Only.refl _ _

theorem State.cancelSet_only : ∀ s, Only [.tm] s (State.cancelSet s) := by
  intro s
  unfold State.cancelSet
  refine Only.via (Only.set_tm _ _) rfl ?_
  exact Only.refl _ _

theorem execCancel_only : ∀ s z, Only [.tm] s (runRow (execCancel s) z) := by
  intro s z
  unfold execCancel
  rw [runRow_next]
  refine Only.whenServing (fun t1 h2 => ?_) ?_
  · refine Only.via (State.cancelSet_only _) rfl ?_
    exact h2
  · exact Only.refl _ _

theorem execClockCommit_only : ∀ s z, Only [.out, .regs, .tm, .log, .nvm, .nvs, .inst, .fn, .drives, .cal] s (runRow (execClockCommit s) z) := by
  intro s z
  unfold execClockCommit
  rw [runRow_next]
  refine Only.whenRunning (fun t1 h2 => ?_) ?_
  · refine Only.ite (fun _ => ?_) (fun _ => ?_)
    · extract_lets x3
      refine Only.cut (t := x3) ?_ (fun h4 => ?_)
      · unfold x3
        refine Only.via (Only.set_tm _ _) rfl ?_
        exact h2
      refine Only.via (State.commitClock_only _ _) rfl ?_
      exact h4
    · exact h2
  · exact Only.refl _ _

end Sys2Proof.Machine
end

