-- ==== Sys2Proof/Laws/FrameHost.lean ====
section
/-! SUPPORT. The frames of host access, the monitor and the PCIe port: the fields of State that each function can write. -/

namespace Sys2Proof.Machine

theorem State.readWord_only : ∀ s a1, Only [.latches] s (State.readWord s a1).2 := by
  intro s a1
  unfold State.readWord
  refine Only.forEach (fun a1 t2 h3 => ?_) ?_
  · refine Only.via (Only.set_latches _ _) rfl ?_
    exact h3
  · exact Only.refl _ _

theorem State.readBar0_only : ∀ a0 a1 s, Only [.latches] s (State.readBar0 a0 a1 s).2 := by
  intro a0 a1 s
  unfold State.readBar0
  split
  · rename_i y1
    exact Only.refl _ _
  · rename_i y2
    split
    · rename_i y3
      exact Only.refl _ _
    · rename_i y4
      refine Only.via (State.readWord_only _ _) rfl ?_
      exact Only.refl _ _

theorem State.readBar2_only : ∀ a0 s, Only [.latches] s (State.readBar2 a0 s).2 := by
  intro a0 s
  unfold State.readBar2
  split
  · rename_i y1
    exact Only.refl _ _
  · rename_i y2
    refine Only.via (State.readWord_only _ _) rfl ?_
    exact Only.refl _ _

theorem State.readCfg_only : ∀ a0 a1 s, Only [.latches] s (State.readCfg a0 a1 s).2 := by
  intro a0 a1 s
  unfold State.readCfg
  split
  · rename_i y1
    refine Only.via (State.readWord_only _ _) rfl ?_
    exact Only.refl _ _
  · rename_i y2
    exact Only.refl _ _

theorem onesRead_only : ∀ a0 s, Only [] s (onesRead a0 s).2 := by
  intro a0 s
  unfold onesRead
  exact Only.refl _ _

theorem readWords_only (l : List StateField) (rd : Nat → State → Word × State) (h : ∀ k t, Only l t (rd k t).2) :
    ∀ n off s, Only l s (readWords rd n off s).2 := by
  intro n
  induction n with
  | zero => exact fun _ s => Only.refl l s
  | succ n ih => exact fun off s => Only.trans (h off s) (ih _ _)

theorem answerRead_only (l : List StateField) (rd : Nat → State → Word × State) (h : ∀ k t, Only l t (rd k t).2) :
    ∀ s f off n, Only (.out :: .sec :: l) s (State.answerRead s rd f off n) := by
  intro s f off n
  unfold State.answerRead readSpan
  refine Only.via (State.emitCpl_only _ _) ?_ (Only.mono (readWords_only l rd h _ _ s) ?_) <;>
    simp +contextual [StateField.within, List.all_eq_true]

theorem State.configRead_only : ∀ s a1 a2 a3, Only [.out, .latches, .sec] s (State.configRead s a1 a2 a3) := by
  intro s a1 a2 a3
  have hr : ∀ rd : Nat → State → Word × State, (∀ k t, Only [.latches] t (rd k t).2) →
      Only [.out, .latches, .sec] s (s.answerRead rd a1 a2 a3) := fun rd h =>
    Only.mono (answerRead_only [.latches] rd h s a1 a2 a3) rfl
  have hones : ∀ k t, Only [.latches] t (onesRead k t).2 := fun _ t => Only.refl _ t
  unfold State.configRead
  refine Only.ite (fun _ => hr _ ?_) (fun _ => ?_)
  · split
    · exact fun k t => State.readCfg_only 0 k t
    · exact hones
  · refine Only.ite (fun _ => Only.refl _ _) (fun _ => ?_)
    refine Only.ite (fun _ => Only.mono (State.emitCpl_only _ _) rfl) (fun _ => ?_)
    refine Only.ite (fun _ => Only.mono (State.emitCpl_only _ _) rfl) (fun _ => ?_)
    refine Only.ite (fun _ => Only.mono (State.emitCpl_only _ _) rfl) (fun _ => ?_)
    exact hr _ (fun k t => State.readCfg_only _ k t)

theorem execLatchedPairRead_only : ∀ a0 a1 s z, Only [.out, .latches, .sec, .clk] s (runRow (execLatchedPairRead a0 a1 s) z) := by
  intro a0 a1 s z
  have hr : ∀ (t : State) (rd : Nat → State → Word × State) (f : Func) (o n : Nat), (∀ k t, Only [.latches] t (rd k t).2) →
      Only [.out, .latches, .sec, .clk] t (t.answerRead rd f o n) := fun t rd f o n h =>
    Only.mono (answerRead_only [.latches] rd h t f o n) rfl
  have hones : ∀ k t, Only [.latches] t (onesRead k t).2 := fun _ t => Only.refl _ t
  have hw : Only [.out, .latches, .sec, .clk] s s.wakeUp := Only.mono (State.wakeUp_only _) rfl
  unfold execLatchedPairRead
  extract_lets o
  rw [runRow_next]
  refine Only.ite (fun _ => Only.refl _ _) (fun _ => ?_)
  split
  · refine Only.ite (fun _ => hr _ _ _ _ _ hones) (fun _ => ?_)
    refine Only.ite (fun _ => Only.mono (State.emitCpl_only _ _) rfl) (fun _ => ?_)
    exact Only.trans hw (hr _ _ _ _ _ (fun k t => State.readBar0_only _ k t))
  · refine Only.ite (fun _ => hr _ _ _ _ _ hones) (fun _ => ?_)
    refine Only.ite (fun _ => ?_) (fun _ => Only.mono (State.emitCpl_only _ _) rfl)
    exact Only.trans hw (hr _ _ _ _ _ (fun k t => State.readBar2_only k t))
  · exact Only.ite (fun _ => Only.mono (State.configRead_only _ _ _ _) rfl) (fun _ => Only.refl _ _)
  · exact Only.ite (fun _ => Only.mono (State.configRead_only _ _ _ _) rfl) (fun _ => Only.refl _ _)

theorem State.axisCmd_only : ∀ s a1 a2, Only [.out, .log, .nvm, .nvs, .inst, .fn, .fss, .arc, .drives, .pwb] s (State.axisCmd s a1 a2) := by
  intro s a1 a2
  unfold State.axisCmd
  extract_lets x1 x2
  split
  · rename_i y3 y4
    refine Only.via (execOpenAxis_only _ _ _) rfl ?_
    exact Only.refl _ _
  · rename_i y5 y6
    refine Only.via (execCloseAxis_only _ _ _) rfl ?_
    exact Only.refl _ _
  · rename_i y7 y8
    refine Only.ite (fun _ => ?_) (fun _ => ?_)
    · refine Only.via (execAcquire_only _ _ _ _) rfl ?_
      exact Only.refl _ _
    · exact Only.refl _ _
  · rename_i y9 y10
    refine Only.ite (fun _ => ?_) (fun _ => ?_)
    · refine Only.via (execSeek_only _ _ _ _) rfl ?_
      exact Only.refl _ _
    · exact Only.refl _ _
  · rename_i y11 y12
    refine Only.ite (fun _ => ?_) (fun _ => ?_)
    · refine Only.via (execLayerJump_only _ _ _ _) rfl ?_
      exact Only.refl _ _
    · exact Only.refl _ _
  · rename_i y13 y14
    refine Only.via (execReleaseToHeron_only _ _ _) rfl ?_
    exact Only.refl _ _
  · rename_i y15 y16 y17 y18 y19 y20 y21
    exact Only.refl _ _

theorem State.spinCmd_only : ∀ s a1 a2, Only [.out, .log, .nvm, .nvs, .inst, .fn, .fss, .arc, .drives, .pwb] s (State.spinCmd s a1 a2) := by
  intro s a1 a2
  unfold State.spinCmd
  split
  · rename_i y1 y2
    refine Only.via (execSpinStart_only _ _ _) rfl ?_
    exact Only.refl _ _
  · rename_i y3 y4
    refine Only.via (execSpinStop_only _ _ _) rfl ?_
    exact Only.refl _ _
  · rename_i y5 y6
    refine Only.via (execCoast_only _ _ _) rfl ?_
    exact Only.refl _ _
  · rename_i y7 y8
    refine Only.via (execClearFault_only _ _ _) rfl ?_
    exact Only.refl _ _
  · rename_i y9 y10 y11 y12 y13
    exact Only.refl _ _

theorem State.sledCmd_only : ∀ s a1 a2, Only [.out, .log, .nvm, .nvs, .inst, .fn, .fss, .arc, .drives] s (State.sledCmd s a1 a2) := by
  intro s a1 a2
  unfold State.sledCmd
  split
  · rename_i y1 y2
    refine Only.via (execTravel_only _ _ _) rfl ?_
    exact Only.refl _ _
  · rename_i y3 y4
    refine Only.via (execSledSeek_only _ _ _) rfl ?_
    exact Only.refl _ _
  · rename_i y5 y6
    refine Only.via (execHome_only _ _ _) rfl ?_
    exact Only.refl _ _
  · rename_i y7 y8
    refine Only.via (execPark_only _ _ _) rfl ?_
    exact Only.refl _ _
  · rename_i y9 y10
    refine Only.via (execSledStop_only _ _ _) rfl ?_
    exact Only.refl _ _
  · rename_i y11 y12
    refine Only.via (execSledRelease_only _ _ _) rfl ?_
    exact Only.refl _ _
  · rename_i y13 y14
    refine Only.via (execSledClear_only _ _ _) rfl ?_
    exact Only.refl _ _
  · rename_i y15 y16 y17 y18 y19 y20 y21 y22
    exact Only.refl _ _

theorem State.writeSrv_only : ∀ s a1 a2, Only [.out, .regs, .hlt, .log, .nvm, .nvs, .inst, .fn, .fss, .arc, .drives, .pwb] s (State.writeSrv s a1 a2) := by
  intro s a1 a2
  unfold State.writeSrv
  extract_lets x1 x2
  refine Only.ite (fun _ => ?_) (fun _ => ?_)
  · refine Only.via (State.axisCmd_only _ _ _) rfl ?_
    refine Only.via (State.noteRsv_only _ _ _) rfl ?_
    exact Only.refl _ _
  · refine Only.ite (fun _ => ?_) (fun _ => ?_)
    · refine Only.via (execSwap_only _ _ _ _) rfl ?_
      refine Only.via (State.noteRsv_only _ _ _) rfl ?_
      exact Only.refl _ _
    · refine Only.ite (fun _ => ?_) (fun _ => ?_)
      · refine Only.ite (fun _ => ?_) (fun _ => ?_)
        · refine Only.via (State.accError_only _ _ _ _) rfl ?_
          exact Only.refl _ _
        · refine Only.via (State.storeReg_only _ _ _) rfl ?_
          exact Only.refl _ _
      · refine Only.ite (fun _ => ?_) (fun _ => ?_)
        · refine Only.via (State.storeReg_only _ _ _) rfl ?_
          exact Only.refl _ _
        · refine Only.via (State.storeReg_only _ _ _) rfl ?_
          exact Only.refl _ _

theorem State.writeSld_only : ∀ s a1 a2, Only [.out, .regs, .log, .nvm, .nvs, .inst, .fn, .fss, .arc, .drives] s (State.writeSld s a1 a2) := by
  intro s a1 a2
  unfold State.writeSld
  extract_lets x1 x2
  refine Only.ite (fun _ => ?_) (fun _ => ?_)
  · refine Only.via (State.modSled_only _ _ _) rfl ?_
    refine Only.via (State.storeReg_only _ _ _) rfl ?_
    exact Only.refl _ _
  · refine Only.ite (fun _ => ?_) (fun _ => ?_)
    · refine Only.via (State.sledCmd_only _ _ _) rfl ?_
      refine Only.via (State.noteRsv_only _ _ _) rfl ?_
      exact Only.refl _ _
    · refine Only.ite (fun _ => ?_) (fun _ => ?_)
      · refine Only.via (State.sledRefuse_only _ _) rfl ?_
        exact Only.refl _ _
      · refine Only.via (State.storeReg_only _ _ _) rfl ?_
        exact Only.refl _ _

theorem State.writeRdc_only : ∀ s a1 a2, Only [.out, .regs, .log, .nvm, .nvs, .fn, .drives] s (State.writeRdc s a1 a2) := by
  intro s a1 a2
  unfold State.writeRdc
  extract_lets x1 x2
  refine Only.ite (fun _ => ?_) (fun _ => ?_)
  · refine Only.via (State.modWst_only _ _ _) rfl ?_
    refine Only.via (State.storeReg_only _ _ _) rfl ?_
    exact Only.refl _ _
  · refine Only.ite (fun _ => ?_) (fun _ => ?_)
    · refine Only.ite (fun _ => ?_) (fun _ => ?_)
      · refine Only.via (execOpcGo_only _ _ _) rfl ?_
        refine Only.via (State.noteRsv_only _ _ _) rfl ?_
        exact Only.refl _ _
      · refine Only.via (State.noteRsv_only _ _ _) rfl ?_
        exact Only.refl _ _
    · refine Only.via (State.storeReg_only _ _ _) rfl ?_
      exact Only.refl _ _

theorem State.mchOp_only : ∀ s a1, Only [.hlt, .mch] s (State.mchOp s a1) := by
  intro s a1
  unfold State.mchOp
  extract_lets x1
  refine Only.ite (fun _ => ?_) (fun _ => ?_)
  · exact Only.refl _ _
  · split
    · rename_i y2 y3 y4
      refine Only.via (execClean_only _ _ _) rfl ?_
      exact Only.refl _ _
    · rename_i y5 y6 y7
      refine Only.via (execInvalidate_only _ _ _) rfl ?_
      exact Only.refl _ _
    · rename_i y8 y9 y10
      refine Only.via (execCleanAndInvalidate_only _ _ _) rfl ?_
      exact Only.refl _ _
    · rename_i y11 y12 y13 y14 y15
      refine Only.via (State.refuseOp_only _) rfl ?_
      exact Only.refl _ _

theorem State.hregCtl_only : ∀ s a1, Only [.out, .log, .nvm, .nvs, .fn, .fss, .mch] s (State.hregCtl s a1) := by
  intro s a1
  unfold State.hregCtl
  extract_lets x1 x2 x3
  refine Only.cut (t := x1) ?_ (fun h4 => ?_)
  · unfold x1
    refine Only.via (State.noteRsv_only _ _ _) rfl ?_
    exact Only.refl _ _
  refine Only.cut (t := x3) ?_ (fun h5 => ?_)
  · unfold x3
    refine Only.via (Only.set_fss _ _) rfl ?_
    exact h4
  refine Only.ite (fun _ => ?_) (fun _ => ?_)
  · refine Only.via (execHregEnable_only _ _) rfl ?_
    exact h5
  · refine Only.via (execHregDisable_only _ _) rfl ?_
    exact h5

theorem State.accClear_only : ∀ s, Only [.hlt] s (State.accClear s) := by
  intro s
  unfold State.accClear
  refine Only.via (Only.set_hlt _ _) rfl ?_
  exact Only.refl _ _

theorem State.brownClear_only : ∀ s, Only [.nvm, .nvs] s (State.brownClear s) := by
  intro s
  unfold State.brownClear
  refine Only.via (State.ctrStore_only _ _ _) rfl ?_
  exact Only.refl _ _

theorem State.writeLow_only : ∀ s a1 a2, Only [.out, .regs, .nextSet, .prevSet, .epoch, .hlt, .log, .nvm, .nvs, .fn, .fss, .sea, .mch, .clk, .stl] s (State.writeLow s a1 a2) := by
  intro s a1 a2
  unfold State.writeLow
  refine Only.ite (fun _ => ?_) (fun _ => ?_)
  · refine Only.ite (fun _ => ?_) (fun _ => ?_)
    · exact Only.refl _ _
    · refine Only.via (State.storeReg_only _ _ _) rfl ?_
      exact Only.refl _ _
  · refine Only.ite (fun _ => ?_) (fun _ => ?_)
    · exact Only.refl _ _
    · refine Only.ite (fun _ => ?_) (fun _ => ?_)
      · refine Only.via (State.accError_only _ _ _ _) rfl ?_
        exact Only.refl _ _
      · split
        · rename_i y1 y2 y3 y4
          extract_lets x5 x6
          refine Only.cut (t := x5) ?_ (fun h7 => ?_)
          · unfold x5
            refine Only.via (State.storeReg_only _ _ _) rfl ?_
            exact Only.refl _ _
          refine Only.via (Only.set_epoch _ _) rfl ?_
          exact h7
        · rename_i y8 y9 y10 y11
          refine Only.via (execEpochCommit_only _ _ _) rfl ?_
          refine Only.via (State.noteRsv_only _ _ _) rfl ?_
          exact Only.refl _ _
        · rename_i y12 y13 y14 y15
          extract_lets x16 x17
          refine Only.cut (t := x16) ?_ (fun h18 => ?_)
          · unfold x16
            refine Only.via (State.storeReg_only _ _ _) rfl ?_
            exact Only.refl _ _
          refine Only.via (Only.set_clk _ _) rfl ?_
          exact h18
        · rename_i y19 y20 y21 y22
          refine Only.via (execSelReq_only _ _ _) rfl ?_
          refine Only.via (State.noteRsv_only _ _ _) rfl ?_
          exact Only.refl _ _
        · rename_i y23 y24 y25 y26
          refine Only.via (execFmcGo_only _ _ _) rfl ?_
          refine Only.via (State.noteRsv_only _ _ _) rfl ?_
          exact Only.refl _ _
        · rename_i y27 y28 y29 y30
          extract_lets x31 x32
          refine Only.cut (t := x31) ?_ (fun h33 => ?_)
          · unfold x31
            refine Only.via (State.storeReg_only _ _ _) rfl ?_
            exact Only.refl _ _
          refine Only.via (Only.set_clk _ _) rfl ?_
          exact h33
        · rename_i y34 y35 y36 y37
          refine Only.via (execTputClr_only _ _ _) rfl ?_
          refine Only.via (State.noteRsv_only _ _ _) rfl ?_
          exact Only.refl _ _
        · rename_i y38 y39 y40 y41
          refine Only.ite (fun _ => ?_) (fun _ => ?_)
          · refine Only.via (State.accClear_only _) rfl ?_
            refine Only.via (State.noteRsv_only _ _ _) rfl ?_
            exact Only.refl _ _
          · refine Only.via (State.noteRsv_only _ _ _) rfl ?_
            exact Only.refl _ _
        · rename_i y42 y43 y44 y45
          refine Only.ite (fun _ => ?_) (fun _ => ?_)
          · refine Only.via (State.brownClear_only _) rfl ?_
            refine Only.via (State.noteRsv_only _ _ _) rfl ?_
            exact Only.refl _ _
          · refine Only.via (State.noteRsv_only _ _ _) rfl ?_
            exact Only.refl _ _
        · rename_i y46 y47 y48 y49
          refine Only.via (execQuarClr_only _ _ _) rfl ?_
          refine Only.via (State.noteRsv_only _ _ _) rfl ?_
          exact Only.refl _ _
        · rename_i y50 y51 y52 y53
          refine Only.via (State.hregCtl_only _ _) rfl ?_
          exact Only.refl _ _
        · rename_i y54 y55 y56 y57
          refine Only.via (execMchEnableWrite_only _ _ _) rfl ?_
          exact Only.refl _ _
        · rename_i y58 y59 y60 y61
          refine Only.via (State.mchOp_only _ _) rfl ?_
          refine Only.via (State.noteRsv_only _ _ _) rfl ?_
          exact Only.refl _ _
        · rename_i y62 y63 y64 y65
          extract_lets x66 x67
          refine Only.cut (t := x66) ?_ (fun h68 => ?_)
          · unfold x66
            refine Only.via (State.storeReg_only _ _ _) rfl ?_
            exact Only.refl _ _
          refine Only.via (Only.set_mch _ _) rfl ?_
          exact h68
        · rename_i y69 y70 y71 y72
          extract_lets x73 x74
          refine Only.cut (t := x73) ?_ (fun h75 => ?_)
          · unfold x73
            refine Only.via (State.storeReg_only _ _ _) rfl ?_
            exact Only.refl _ _
          refine Only.via (Only.set_mch _ _) rfl ?_
          exact h75
        · rename_i y76 y77 y78 y79
          refine Only.via (execWayEn_only _ _ _) rfl ?_
          refine Only.via (State.noteRsv_only _ _ _) rfl ?_
          exact Only.refl _ _
        · rename_i y80 y81 y82 y83 y84 y85 y86 y87 y88 y89 y90 y91 y92 y93 y94 y95 y96 y97 y98 y99
          refine Only.via (State.storeReg_only _ _ _) rfl ?_
          exact Only.refl _ _

theorem State.writeHigh_only : ∀ s a1 a2, Only [.out, .regs, .tm, .hlt, .log, .nvm, .nvs, .fn, .drives, .inp, .cal] s (State.writeHigh s a1 a2) := by
  intro s a1 a2
  unfold State.writeHigh
  split
  · rename_i y1
    extract_lets x2 x3
    refine Only.cut (t := x2) ?_ (fun h4 => ?_)
    · unfold x2
      refine Only.via (State.storeReg_only _ _ _) rfl ?_
      exact Only.refl _ _
    refine Only.via (Only.set_cal _ _) rfl ?_
    exact h4
  · rename_i y5
    extract_lets x6 x7
    refine Only.cut (t := x6) ?_ (fun h8 => ?_)
    · unfold x6
      refine Only.via (State.noteRsv_only _ _ _) rfl ?_
      exact Only.refl _ _
    refine Only.cut (t := x7) ?_ (fun h9 => ?_)
    · unfold x7
      refine Only.ite (fun _ => ?_) (fun _ => ?_)
      · refine Only.via (execCalItemGo_only _ _ _ _) rfl ?_
        exact h8
      · exact h8
    refine Only.ite (fun _ => ?_) (fun _ => ?_)
    · refine Only.via (execCalStore_only _ _) rfl ?_
      exact h9
    · exact h9
  · rename_i y10
    refine Only.via (execThermWrite_only _ _ _) rfl ?_
    refine Only.via (State.noteRsv_only _ _ _) rfl ?_
    exact Only.refl _ _
  · rename_i y11
    refine Only.ite (fun _ => ?_) (fun _ => ?_)
    · refine Only.via (State.accError_only _ _ _ _) rfl ?_
      exact Only.refl _ _
    · refine Only.via (State.storeReg_only _ _ _) rfl ?_
      exact Only.refl _ _
  · rename_i y12
    refine Only.ite (fun _ => ?_) (fun _ => ?_)
    · refine Only.via (State.accError_only _ _ _ _) rfl ?_
      exact Only.refl _ _
    · refine Only.via (State.storeReg_only _ _ _) rfl ?_
      exact Only.refl _ _
  · rename_i y13
    refine Only.ite (fun _ => ?_) (fun _ => ?_)
    · refine Only.via (State.accError_only _ _ _ _) rfl ?_
      exact Only.refl _ _
    · refine Only.via (State.storeReg_only _ _ _) rfl ?_
      exact Only.refl _ _
  · rename_i y14
    extract_lets x15
    refine Only.cut (t := x15) ?_ (fun h16 => ?_)
    · unfold x15
      refine Only.via (State.noteRsv_only _ _ _) rfl ?_
      exact Only.refl _ _
    refine Only.ite (fun _ => ?_) (fun _ => ?_)
    · refine Only.via (execSetClock_only _ _) rfl ?_
      exact h16
    · refine Only.ite (fun _ => ?_) (fun _ => ?_)
      · refine Only.via (execCancel_only _ _) rfl ?_
        exact h16
      · exact h16
  · rename_i y17
    extract_lets x18 x19
    refine Only.cut (t := x18) ?_ (fun h20 => ?_)
    · unfold x18
      refine Only.via (State.storeReg_only _ _ _) rfl ?_
      exact Only.refl _ _
    refine Only.via (Only.set_tm _ _) rfl ?_
    exact h20
  · rename_i y21
    extract_lets x22 x23
    refine Only.cut (t := x22) ?_ (fun h24 => ?_)
    · unfold x22
      refine Only.via (State.storeReg_only _ _ _) rfl ?_
      exact Only.refl _ _
    refine Only.via (Only.set_log _ _) rfl ?_
    exact h24
  · rename_i y25
    extract_lets x26 x27
    refine Only.cut (t := x26) ?_ (fun h28 => ?_)
    · unfold x26
      refine Only.via (State.storeReg_only _ _ _) rfl ?_
      exact Only.refl _ _
    refine Only.via (Only.set_inp _ _) rfl ?_
    exact h28
  · rename_i y29 y30 y31 y32 y33 y34 y35 y36 y37 y38 y39
    refine Only.via (State.storeReg_only _ _ _) rfl ?_
    exact Only.refl _ _

theorem State.writeBar2_only : ∀ s a1 a2, Only [.out, .regs, .nextSet, .prevSet, .epoch, .tm, .hlt, .log, .nvm, .nvs, .inst, .fn, .fss, .sea, .mch, .arc, .drives, .clk, .pwb, .stl, .inp, .cal] s (State.writeBar2 s a1 a2) := by
  intro s a1 a2
  unfold State.writeBar2
  refine Only.ite (fun _ => ?_) (fun _ => ?_)
  · exact Only.refl _ _
  · refine Only.ite (fun _ => ?_) (fun _ => ?_)
    · refine Only.via (State.writeLow_only _ _ _) rfl ?_
      exact Only.refl _ _
    · refine Only.ite (fun _ => ?_) (fun _ => ?_)
      · refine Only.via (State.writeRdc_only _ _ _) rfl ?_
        exact Only.refl _ _
      · refine Only.ite (fun _ => ?_) (fun _ => ?_)
        · refine Only.via (State.writeSrv_only _ _ _) rfl ?_
          exact Only.refl _ _
        · refine Only.ite (fun _ => ?_) (fun _ => ?_)
          · refine Only.ite (fun _ => ?_) (fun _ => ?_)
            · refine Only.via (State.spinCmd_only _ _ _) rfl ?_
              refine Only.via (State.noteRsv_only _ _ _) rfl ?_
              exact Only.refl _ _
            · refine Only.via (State.storeReg_only _ _ _) rfl ?_
              exact Only.refl _ _
          · refine Only.ite (fun _ => ?_) (fun _ => ?_)
            · refine Only.via (State.writeSld_only _ _ _) rfl ?_
              exact Only.refl _ _
            · refine Only.via (State.writeHigh_only _ _ _) rfl ?_
              exact Only.refl _ _

theorem State.writeMsix_only : ∀ s a1 a2 a3, Only [.out, .fn] s (State.writeMsix s a1 a2 a3) := by
  intro s a1 a2 a3
  unfold State.writeMsix
  extract_lets x1 x2
  split
  · rename_i y3 y4
    unfold x2
    refine Only.via (State.modFn_only _ _ _) rfl ?_
    exact Only.refl _ _
  · rename_i y5 y6
    unfold x2
    refine Only.via (State.modFn_only _ _ _) rfl ?_
    exact Only.refl _ _
  · rename_i y7 y8
    unfold x2
    refine Only.via (State.modFn_only _ _ _) rfl ?_
    exact Only.refl _ _
  · rename_i y9 y10 y11 y12
    refine Only.via (State.releasePending_only _ _) rfl ?_
    unfold x2
    refine Only.via (State.modFn_only _ _ _) rfl ?_
    exact Only.refl _ _

theorem State.writeRing_only : ∀ s a1 a2 a3, Only [.out, .regs, .log, .nvm, .nvs, .link, .fn, .reads, .nextTag, .lastFn, .mch] s (State.writeRing s a1 a2 a3) := by
  intro s a1 a2 a3
  unfold State.writeRing
  extract_lets x1 x2 x3
  refine Only.ite (fun _ => ?_) (fun _ => ?_)
  · refine Only.ite (fun _ => ?_) (fun _ => ?_)
    · refine Only.via (execRingEnable_only _ _ _ _ _ _) rfl ?_
      exact Only.refl _ _
    · refine Only.via (execRingDisable_only _ _ _ _ _ _) rfl ?_
      exact Only.refl _ _
  · refine Only.ite (fun _ => ?_) (fun _ => ?_)
    · exact Only.refl _ _
    · refine Only.via (State.storeReg_only _ _ _) rfl ?_
      exact Only.refl _ _

theorem State.writeBar0_only : ∀ s a1 a2 a3, Only [.out, .regs, .hlt, .log, .nvm, .nvs, .link, .inst, .fn, .cmds, .nextCmd, .due, .reads, .nextTag, .lastFn, .mch, .clk, .rate] s (State.writeBar0 s a1 a2 a3) := by
  intro s a1 a2 a3
  unfold State.writeBar0
  extract_lets x1 x2
  refine Only.ite (fun _ => ?_) (fun _ => ?_)
  · refine Only.via (State.writeMsix_only _ _ _ _) rfl ?_
    exact Only.refl _ _
  · refine Only.ite (fun _ => ?_) (fun _ => ?_)
    · refine Only.via (execSharedPageWrite_only _ _ _ _ _) rfl ?_
      exact Only.refl _ _
    · refine Only.ite (fun _ => ?_) (fun _ => ?_)
      · exact Only.refl _ _
      · refine Only.ite (fun _ => ?_) (fun _ => ?_)
        · refine Only.ite (fun _ => ?_) (fun _ => ?_)
          · refine Only.via (State.accError_only _ _ _ _) rfl ?_
            exact Only.refl _ _
          · refine Only.via (State.storeReg_only _ _ _) rfl ?_
            exact Only.refl _ _
        · refine Only.ite (fun _ => ?_) (fun _ => ?_)
          · refine Only.ite (fun _ => ?_) (fun _ => ?_)
            · refine Only.via (State.accError_only _ _ _ _) rfl ?_
              exact Only.refl _ _
            · refine Only.via (State.storeReg_only _ _ _) rfl ?_
              exact Only.refl _ _
          · refine Only.ite (fun _ => ?_) (fun _ => ?_)
            · refine Only.via (State.writeRing_only _ _ _ _) rfl ?_
              exact Only.refl _ _
            · split
              · rename_i y3 y4 y5 y6 y7 y8 y9
                refine Only.ite (fun _ => ?_) (fun _ => ?_)
                · exact Only.refl _ _
                · refine Only.via (State.storeReg_only _ _ _) rfl ?_
                  exact Only.refl _ _
              · rename_i y10 y11 y12 y13 y14 y15 y16
                refine Only.ite (fun _ => ?_) (fun _ => ?_)
                · exact Only.refl _ _
                · refine Only.via (State.storeReg_only _ _ _) rfl ?_
                  exact Only.refl _ _
              · rename_i y17 y18 y19 y20 y21 y22 y23
                refine Only.via (State.modFn_only _ _ _) rfl ?_
                refine Only.via (State.storeReg_only _ _ _) rfl ?_
                exact Only.refl _ _
              · rename_i y24 y25 y26 y27 y28 y29 y30
                refine Only.via (execMbInPost_only _ _ _ _) rfl ?_
                refine Only.via (State.noteRsv_only _ _ _) rfl ?_
                exact Only.refl _ _
              · rename_i y31 y32 y33 y34 y35 y36 y37
                refine Only.via (execMbOutAck_only _ _ _ _) rfl ?_
                refine Only.via (State.noteRsv_only _ _ _) rfl ?_
                exact Only.refl _ _
              · rename_i y38 y39 y40 y41 y42 y43 y44
                refine Only.via (execGoTask_only _ _ _ _) rfl ?_
                refine Only.via (State.noteRsv_only _ _ _) rfl ?_
                exact Only.refl _ _
              · rename_i y45 y46 y47 y48 y49 y50 y51
                refine Only.via (State.modFn_only _ _ _) rfl ?_
                refine Only.via (State.storeReg_only _ _ _) rfl ?_
                exact Only.refl _ _
              · rename_i y52 y53 y54 y55 y56 y57 y58
                refine Only.via (execDbEnWrite_only _ _ _ _) rfl ?_
                exact Only.refl _ _
              · rename_i y59 y60 y61 y62 y63 y64 y65
                refine Only.via (execWake_only _ _ _) rfl ?_
                exact Only.refl _ _
              · rename_i y66 y67 y68 y69 y70 y71 y72
                refine Only.via (State.modFn_only _ _ _) rfl ?_
                refine Only.via (State.storeReg_only _ _ _) rfl ?_
                exact Only.refl _ _
              · rename_i y73 y74 y75 y76 y77 y78 y79 y80 y81 y82 y83 y84 y85 y86 y87 y88 y89
                refine Only.via (State.storeReg_only _ _ _) rfl ?_
                exact Only.refl _ _

theorem State.writeHst_only : ∀ s a1 a2, Only [.out, .regs, .log, .nvm, .nvs, .link, .sec, .fn, .reads, .nextTag, .lastFn, .fss, .mch] s (State.writeHst s a1 a2) := by
  intro s a1 a2
  unfold State.writeHst
  refine Only.ite (fun _ => ?_) (fun _ => ?_)
  · refine Only.via (execHstCntClr_only _ _ _) rfl ?_
    exact Only.refl _ _
  · refine Only.ite (fun _ => ?_) (fun _ => ?_)
    · refine Only.via (State.resume_only _) rfl ?_
      refine Only.via (State.storeReg_only _ _ _) rfl ?_
      exact Only.refl _ _
    · exact Only.refl _ _

theorem execAccClr_only : ∀ s z, Only [.hlt] s (runRow (execAccClr s) z) := by
  intro s z
  unfold execAccClr
  rw [runRow_next]
  refine Only.hostBar2 (fun t1 h2 => ?_) ?_
  · refine Only.via (State.accClear_only _) rfl ?_
    exact h2
  · exact Only.refl _ _

theorem execRstCntClear_only : ∀ s z, Only [.nvm, .nvs] s (runRow (execRstCntClear s) z) := by
  intro s z
  unfold execRstCntClear
  rw [runRow_next]
  refine Only.hostBar2 (fun t1 h2 => ?_) ?_
  · refine Only.via (State.brownClear_only _) rfl ?_
    exact h2
  · exact Only.refl _ _

theorem State.line_only : ∀ s a1, Only [.out] s (State.line s a1) := by
  intro s a1
  unfold State.line
  refine Only.via (State.emit_only _ _) rfl ?_
  exact Only.refl _ _

theorem State.status_only : ∀ s a1, Only [.out] s (State.status s a1) := by
  intro s a1
  unfold State.status
  refine Only.via (State.emit_only _ _) rfl ?_
  refine Only.via (State.line_only _ _) rfl ?_
  exact Only.refl _ _

theorem State.monEvent_only : ∀ s a1 a2, Only [.mon] s (State.monEvent s a1 a2) := by
  intro s a1 a2
  unfold State.monEvent
  refine Only.via (Only.set_mon _ _) rfl ?_
  exact Only.refl _ _

theorem State.monRefuse_only : ∀ s a1, Only [.out, .mon] s (State.monRefuse s a1) := by
  intro s a1
  unfold State.monRefuse
  refine Only.via (State.status_only _ _) rfl ?_
  refine Only.via (State.monEvent_only _ _ _) rfl ?_
  exact Only.refl _ _

theorem Only.atMonitor {l : List StateField} {s X z : State} {b : Bool} {g : State → State} (hg : ∀ t, Only l s t → Only l s (g t))
    (hl : StateField.within [.out, .mon] l = true) (h : Only l s X) : Only l s (runRow (atMonitor b X g) z) := by
  have hs : Only l s { X with mon := { X.mon with lastLine := X.tm.mono } } :=
    Only.via (Only.set_mon _ _) (StateField.within_of hl rfl) h
  unfold Sys2Proof.Machine.atMonitor
  rw [runRow_next]
  refine Only.ite (fun _ => ?_) (fun _ => h)
  exact Only.ite (fun _ => Only.via (State.monRefuse_only _ _) hl hs) (fun _ => hg _ hs)

theorem execMonI_only : ∀ s z, Only [.out, .mon] s (runRow (execMonI s) z) := by
  intro s z
  unfold execMonI
  refine Only.atMonitor (fun t1 h2 => ?_) rfl ?_
  · extract_lets x3 x4 x5 x6 x7 x8
    refine Only.cut (t := x4) ?_ (fun h9 => ?_)
    · unfold x4
      refine Only.ite (fun _ => ?_) (fun _ => ?_)
      · exact h2
      · refine Only.via (State.line_only _ _) rfl ?_
        exact h2
    refine Only.cut (t := x5) ?_ (fun h10 => ?_)
    · unfold x5
      refine Only.via (State.line_only _ _) rfl ?_
      exact h9
    refine Only.cut (t := x6) ?_ (fun h11 => ?_)
    · unfold x6
      refine Only.via (State.line_only _ _) rfl ?_
      exact h10
    refine Only.cut (t := x7) ?_ (fun h12 => ?_)
    · unfold x7
      refine Only.via (State.line_only _ _) rfl ?_
      exact h11
    refine Only.cut (t := x8) ?_ (fun h13 => ?_)
    · unfold x8
      refine Only.ite (fun _ => ?_) (fun _ => ?_)
      · exact h12
      · refine Only.via (State.line_only _ _) rfl ?_
        exact h12
    refine Only.via (State.status_only _ _) rfl ?_
    exact h13
  · exact Only.refl _ _

theorem State.monWord_only : ∀ s a1, ∀ r, State.monWord s a1 = .ok r → Only [.latches] s r.2 := by
  intro s a1 r hr
  unfold State.monWord at hr
  split at hr
  · cases hr
  · split at hr
    · cases hr
    · split at hr
      · cases hr
        exact Only.refl _ _
      · cases hr
        exact State.readWord_only _ _
      · cases hr
      · cases hr
      · cases hr
        exact Only.refl _ _

theorem State.monWords_only : ∀ s a1 a2, Only [.out, .latches, .log, .nvm, .nvs, .fn, .sea] s (State.monWords s a1 a2).2.1 := by
  intro s a1 a2
  induction a2 generalizing s a1 with
  | zero =>
    rw [State.monWords]
    exact Only.refl _ _
  | succ n ih =>
    rw [State.monWords]
    split
    · rename_i y1 y2 y3 y4
      split
      rename_i y5 y6 y7 y8 y9
      refine Only.ofPairMid y9 ?_
      refine Only.via (ih _ _) rfl ?_
      refine Only.ofOk y4 (State.monWord_only _ _) rfl ?_
      exact Only.refl _ _
    · rename_i y10 y11 y12
      refine Only.ite (fun _ => ?_) (fun _ => ?_)
      · refine Only.via (State.rcRefuse_only _ _ _) rfl ?_
        exact Only.refl _ _
      · exact Only.refl _ _

theorem State.dataLines_only : ∀ s a1 a2 a3, Only [.out] s (State.dataLines s a1 a2 a3) := by
  intro s a1 a2 a3
  induction a2 generalizing s a1 a3 with
  | zero =>
    rw [State.dataLines]
    exact Only.refl _ _
  | succ n ih =>
    rw [State.dataLines]
    refine Only.ite (fun _ => ?_) (fun _ => ?_)
    · exact Only.refl _ _
    · extract_lets x1
      refine Only.via (ih _ _ _) rfl ?_
      refine Only.via (State.line_only _ _) rfl ?_
      exact Only.refl _ _

theorem execMonRd_only : ∀ a0 a1 s z, Only [.out, .latches, .log, .nvm, .nvs, .fn, .sea, .mon] s (runRow (execMonRd a0 a1 s) z) := by
  intro a0 a1 s z
  unfold execMonRd
  refine Only.atMonitor (fun t1 h2 => ?_) rfl ?_
  · refine Only.ite (fun _ => ?_) (fun _ => ?_)
    · refine Only.via (State.status_only _ _) rfl ?_
      exact h2
    · split
      rename_i y3 y4 y5 y6 y7 y8
      extract_lets x9
      refine Only.cut (t := x9) ?_ (fun h10 => ?_)
      · unfold x9
        refine Only.via (State.dataLines_only _ _ _ _) rfl ?_
        refine Only.ofPairMid y8 ?_
        refine Only.via (State.monWords_only _ _ _) rfl ?_
        exact h2
      refine Only.ite (fun _ => ?_) (fun _ => ?_)
      · refine Only.via (State.monRefuse_only _ _) rfl ?_
        exact h10
      · refine Only.via (State.status_only _ _) rfl ?_
        exact h10
  · exact Only.refl _ _

theorem State.rowWrite_only : ∀ s a1 a2 a3, Only [.free, .nvm, .nvs, .mon] s (State.rowWrite s a1 a2 a3).1 := by
  intro s a1 a2 a3
  unfold State.rowWrite
  extract_lets x1 x2 x3 x4
  refine Only.cut (t := x3) ?_ (fun h5 => ?_)
  · unfold x3
    refine Only.ite (fun _ => ?_) (fun _ => ?_)
    · exact Only.refl _ _
    · refine Only.via (State.useFree_only _) rfl ?_
      exact Only.refl _ _
  refine Only.cut (t := x4) ?_ (fun h6 => ?_)
  · unfold x4
    refine Only.via (State.nvmWrite_only _ _ _) rfl ?_
    exact h5
  refine Only.via (State.monEvent_only _ _ _) rfl ?_
  exact h6

theorem State.asPf_only : ∀ s a1 a2, Only [.out, .regs, .nextSet, .prevSet, .epoch, .tm, .hlt, .log, .nvm, .nvs, .inst, .fn, .fss, .sea, .mch, .arc, .drives, .clk, .pwb, .stl, .inp, .cal, .mon] s (State.asPf s a1 a2) := by
  intro s a1 a2
  unfold State.asPf
  extract_lets x1 x2 x3
  refine Only.cut (t := x2) ?_ (fun h4 => ?_)
  · unfold x2
    refine Only.via (State.writeBar2_only _ _ _) rfl ?_
    refine Only.via (Only.set_mon _ _) rfl ?_
    exact Only.refl _ _
  refine Only.via (Only.set_mon _ _) rfl ?_
  exact h4

theorem execMonWr_only : ∀ a0 a1 a2 s z, Only [.out, .free, .regs, .nextSet, .prevSet, .epoch, .tm, .hlt, .log, .nvm, .nvs, .inst, .fn, .fss, .sea, .mch, .arc, .drives, .clk, .pwb, .stl, .inp, .cal, .mon] s (runRow (execMonWr a0 a1 a2 s) z) := by
  intro a0 a1 a2 s z
  unfold execMonWr
  refine Only.atMonitor (fun t1 h2 => ?_) rfl ?_
  · extract_lets x3 x4 x5
    refine Only.ite (fun _ => ?_) (fun _ => ?_)
    · refine Only.via (State.status_only _ _) rfl ?_
      exact h2
    · refine Only.ite (fun _ => ?_) (fun _ => ?_)
      · refine Only.via (State.monRefuse_only _ _) rfl ?_
        refine Only.via (State.rcRefuse_only _ _ _) rfl ?_
        exact h2
      · split
        · rename_i y6 y7 y8 y9
          refine Only.ite (fun _ => ?_) (fun _ => ?_)
          · refine Only.via (State.monRefuse_only _ _) rfl ?_
            exact h2
          · refine Only.via (State.status_only _ _) rfl ?_
            refine Only.via (Only.set_mon _ _) rfl ?_
            exact h2
        · rename_i y10 y11 y12 y13
          refine Only.via (State.status_only _ _) rfl ?_
          refine Only.via (State.asPf_only _ _ _) rfl ?_
          exact h2
        · rename_i y14 y15 y16 y17
          refine Only.ite (fun _ => ?_) (fun _ => ?_)
          · refine Only.via (State.monRefuse_only _ _) rfl ?_
            exact h2
          · split
            rename_i y18 y19 y20 y21 y22
            refine Only.via (State.status_only _ _) rfl ?_
            refine Only.ofPairFst y22 ?_
            refine Only.via (State.rowWrite_only _ _ _ _) rfl ?_
            exact h2
        · rename_i y23 y24 y25 y26 y27 y28
          refine Only.via (State.monRefuse_only _ _) rfl ?_
          refine Only.via (State.rcRefuse_only _ _ _) rfl ?_
          exact h2
  · exact Only.refl _ _

theorem execBaud_only : ∀ a0 s z, Only [.out, .mon] s (runRow (execBaud a0 s) z) := by
  intro a0 s z
  unfold execBaud
  refine Only.atMonitor (fun t1 h2 => ?_) rfl ?_
  · refine Only.ite (fun _ => ?_) (fun _ => ?_)
    · extract_lets x3 x4
      refine Only.cut (t := x3) ?_ (fun h5 => ?_)
      · unfold x3
        refine Only.via (State.status_only _ _) rfl ?_
        exact h2
      refine Only.via (Only.set_mon _ _) rfl ?_
      exact h5
    · refine Only.via (State.monRefuse_only _ _) rfl ?_
      exact h2
  · exact Only.refl _ _

theorem State.monStore_only : ∀ s a1 a2 a3 a4, Only [.nvm, .nvs] s (State.monStore s a1 a2 a3 a4) := by
  intro s a1 a2 a3 a4
  unfold State.monStore
  split
  rename_i y1 y2 y3 y4
  refine Only.via (State.nvmWrite_only _ _ _) rfl ?_
  exact Only.refl _ _

theorem State.monSave_only : ∀ s a1 a2, Only [.nvm, .nvs, .mon] s (State.monSave s a1 a2) := by
  intro s a1 a2
  unfold State.monSave
  extract_lets x1 x2
  refine Only.via (State.monEvent_only _ _ _) rfl ?_
  refine Only.via (State.monEvent_only _ _ _) rfl ?_
  refine Only.via (State.monStore_only _ _ _ _ _) rfl ?_
  exact Only.refl _ _

theorem execLock_only : ∀ s z, Only [.out, .nvm, .nvs, .mon] s (runRow (execLock s) z) := by
  intro s z
  unfold execLock
  refine Only.atMonitor (fun t1 h2 => ?_) rfl ?_
  · refine Only.via (State.status_only _ _) rfl ?_
    refine Only.via (State.monEvent_only _ _ _) rfl ?_
    refine Only.via (State.monSave_only _ _ _) rfl ?_
    exact h2
  · exact Only.refl _ _

theorem execUnlock_only : ∀ a0 s z, Only [.out, .nvm, .nvs, .mon] s (runRow (execUnlock a0 s) z) := by
  intro a0 s z
  unfold execUnlock
  refine Only.atMonitor (fun t1 h2 => ?_) rfl ?_
  · refine Only.ite (fun _ => ?_) (fun _ => ?_)
    · refine Only.via (State.status_only _ _) rfl ?_
      refine Only.via (State.monEvent_only _ _ _) rfl ?_
      refine Only.via (State.monSave_only _ _ _) rfl ?_
      exact h2
    · refine Only.via (State.monRefuse_only _ _) rfl ?_
      exact h2
  · exact Only.refl _ _

theorem State.endMonitor_only : ∀ s, Only [.mon] s (State.endMonitor s) := by
  intro s
  unfold State.endMonitor
  refine Only.via (Only.set_mon _ _) rfl ?_
  exact Only.refl _ _

theorem execMonitorGo_only : ∀ s z, Only [.out, .mon] s (runRow (execMonitorGo s) z) := by
  intro s z
  unfold execMonitorGo
  refine Only.atMonitor (fun t1 h2 => ?_) rfl ?_
  · refine Only.via (State.endMonitor_only _) rfl ?_
    refine Only.via (State.line_only _ _) rfl ?_
    exact h2
  · exact Only.refl _ _

theorem execMonitorIdleTimeout_only : ∀ s z, Only [.mon] s (runRow (execMonitorIdleTimeout s) z) := by
  intro s z
  unfold execMonitorIdleTimeout
  rw [runRow_next]
  refine Only.ite (fun _ => ?_) (fun _ => ?_)
  · refine Only.via (State.endMonitor_only _) rfl ?_
    exact Only.refl _ _
  · exact Only.refl _ _

theorem execUnknownCommand_only : ∀ a0 s z, Only [.out, .mon] s (runRow (execUnknownCommand a0 s) z) := by
  intro a0 s z
  unfold execUnknownCommand
  rw [runRow_next]
  refine Only.ite (fun _ => ?_) (fun _ => ?_)
  · refine Only.ite (fun _ => ?_) (fun _ => ?_)
    · refine Only.via (State.monRefuse_only _ _) rfl ?_
      exact Only.refl _ _
    · refine Only.via (State.status_only _ _) rfl ?_
      exact Only.refl _ _
  · exact Only.refl _ _

theorem execJtagAccess_only : ∀ a0 a1 a2 s z, Only [.out, .latches, .log, .nvm, .nvs, .fn, .sea, .mon] s (runRow (execJtagAccess a0 a1 a2 s) z) := by
  intro a0 a1 a2 s z
  unfold execJtagAccess
  rw [runRow_next]
  refine Only.ite (fun _ => ?_) (fun _ => ?_)
  · exact Only.refl _ _
  · extract_lets x1 x2 x3
    refine Only.cut (t := x3) ?_ (fun h4 => ?_)
    · unfold x3
      refine Only.via (State.rcRefuse_only _ _ _) rfl ?_
      exact Only.refl _ _
    refine Only.ite (fun _ => ?_) (fun _ => ?_)
    · split
      · rename_i y5 y6 y7 y8
        refine Only.ite (fun _ => ?_) (fun _ => ?_)
        · refine Only.via (Only.set_mon _ _) rfl ?_
          exact Only.refl _ _
        · refine Only.via (State.emit_only _ _) rfl ?_
          exact Only.refl _ _
      · rename_i y9 y10 y11 y12
        split
        rename_i y13 y14 y15 y16
        refine Only.via (State.emit_only _ _) rfl ?_
        refine Only.ofPair y16 ?_
        refine Only.via (State.readWord_only _ _) rfl ?_
        exact Only.refl _ _
      · rename_i y17 y18 y19 y20 y21
        refine Only.via (State.emit_only _ _) rfl ?_
        exact Only.refl _ _
    · refine Only.via (State.emit_only _ _) rfl ?_
      refine Only.ite (fun _ => ?_) (fun _ => ?_)
      · exact h4
      · refine Only.via (State.emit_only _ _) rfl ?_
        exact h4

theorem State.modCfg_only : ∀ s a1 a2, Only [.fn] s (State.modCfg s a1 a2) := by
  intro s a1 a2
  unfold State.modCfg
  refine Only.via (State.modFn_only _ _ _) rfl ?_
  exact Only.refl _ _

theorem State.setCfgField_only : ∀ s a1 a2 a3, Only [.out, .regs, .log, .nvm, .nvs, .link, .sec, .fn, .reads, .nextTag, .lastFn, .fss, .mch] s (State.setCfgField s a1 a2 a3) := by
  intro s a1 a2 a3
  unfold State.setCfgField
  extract_lets x1 x2
  split
  · rename_i y3
    unfold x2
    refine Only.ite (fun _ => ?_) (fun _ => ?_)
    · dsimp only
      refine Only.via (State.modCfg_only _ _ _) rfl ?_
      exact Only.refl _ _
    · exact Only.refl _ _
  · rename_i y4
    refine Only.via (State.modCfg_only _ _ _) rfl ?_
    exact Only.refl _ _
  · rename_i y5
    refine Only.via (State.modCfg_only _ _ _) rfl ?_
    exact Only.refl _ _
  · rename_i y6
    refine Only.via (State.modCfg_only _ _ _) rfl ?_
    exact Only.refl _ _
  · rename_i y7
    refine Only.via (State.modCfg_only _ _ _) rfl ?_
    exact Only.refl _ _
  · rename_i y8
    refine Only.via (State.modCfg_only _ _ _) rfl ?_
    exact Only.refl _ _
  · rename_i y9
    refine Only.via (State.modCfg_only _ _ _) rfl ?_
    exact Only.refl _ _
  · rename_i y10
    refine Only.via (State.releasePending_only _ _) rfl ?_
    refine Only.via (State.modCfg_only _ _ _) rfl ?_
    exact Only.refl _ _
  · rename_i y11
    refine Only.via (State.releasePending_only _ _) rfl ?_
    refine Only.via (State.modCfg_only _ _ _) rfl ?_
    exact Only.refl _ _
  · rename_i y12
    unfold x2
    refine Only.ite (fun _ => ?_) (fun _ => ?_)
    · dsimp only
      refine Only.via (Only.set_link _ _) rfl ?_
      exact Only.refl _ _
    · exact Only.refl _ _
  · rename_i y13
    unfold x2
    refine Only.ite (fun _ => ?_) (fun _ => ?_)
    · dsimp only
      refine Only.ite (fun _ => ?_) (fun _ => ?_)
      · exact Only.refl _ _
      · refine Only.via (Only.set_link _ _) rfl ?_
        exact Only.refl _ _
    · exact Only.refl _ _
  · rename_i y14
    unfold x2
    refine Only.ite (fun _ => ?_) (fun _ => ?_)
    · dsimp only
      refine Only.via (Only.set_link _ _) rfl ?_
      exact Only.refl _ _
    · exact Only.refl _ _
  · rename_i y15
    unfold x2
    refine Only.ite (fun _ => ?_) (fun _ => ?_)
    · dsimp only
      refine Only.via (Only.set_link _ _) rfl ?_
      exact Only.refl _ _
    · exact Only.refl _ _
  · rename_i y16
    unfold x2
    refine Only.ite (fun _ => ?_) (fun _ => ?_)
    · dsimp only
      refine Only.via (Only.set_link _ _) rfl ?_
      exact Only.refl _ _
    · exact Only.refl _ _
  · rename_i y17
    unfold x2
    refine Only.ite (fun _ => ?_) (fun _ => ?_)
    · dsimp only
      refine Only.via (State.pump_only _) rfl ?_
      refine Only.via (Only.set_link _ _) rfl ?_
      exact Only.refl _ _
    · exact Only.refl _ _
  · rename_i y18
    refine Only.via (State.modCfg_only _ _ _) rfl ?_
    exact Only.refl _ _
  · rename_i y19
    refine Only.via (State.modCfg_only _ _ _) rfl ?_
    exact Only.refl _ _
  · rename_i y20
    unfold x2
    refine Only.ite (fun _ => ?_) (fun _ => ?_)
    · dsimp only
      refine Only.via (State.writeHst_only _ _ _) rfl ?_
      exact Only.refl _ _
    · exact Only.refl _ _
  · rename_i y21
    unfold x2
    refine Only.ite (fun _ => ?_) (fun _ => ?_)
    · dsimp only
      refine Only.via (Only.set_sec _ _) rfl ?_
      exact Only.refl _ _
    · exact Only.refl _ _
  · rename_i y22
    unfold x2
    refine Only.ite (fun _ => ?_) (fun _ => ?_)
    · dsimp only
      refine Only.via (State.flushCpl_only _) rfl ?_
      refine Only.via (State.settleStream_only _) rfl ?_
      refine Only.via (Only.set_sec _ _) rfl ?_
      exact Only.refl _ _
    · exact Only.refl _ _
  · rename_i y23
    unfold x2
    refine Only.ite (fun _ => ?_) (fun _ => ?_)
    · dsimp only
      refine Only.via (Only.set_sec _ _) rfl ?_
      exact Only.refl _ _
    · exact Only.refl _ _
  · rename_i y24 y25
    refine Only.ite (fun _ => ?_) (fun _ => ?_)
    · unfold x2
      refine Only.ite (fun _ => ?_) (fun _ => ?_)
      · dsimp only
        refine Only.via (State.writeHst_only _ _ _) rfl ?_
        exact Only.refl _ _
      · exact Only.refl _ _
    · refine Only.ite (fun _ => ?_) (fun _ => ?_)
      · refine Only.via (State.storeCfg_only _ _ _ _) rfl ?_
        exact Only.refl _ _
      · exact Only.refl _ _

theorem execConfigWrite_only : ∀ a0 a1 a2 s z, Only [.out, .regs, .log, .nvm, .nvs, .link, .sec, .fn, .reads, .nextTag, .lastFn, .fss, .mch] s (runRow (execConfigWrite a0 a1 a2 s) z) := by
  intro a0 a1 a2 s z
  unfold execConfigWrite
  rw [runRow_next]
  refine Only.cfgTo (fun t1 h2 => ?_) rfl ?_
  · refine Only.via (State.setCfgField_only _ _ _ _) rfl ?_
    exact h2
  · exact Only.refl _ _

theorem execSystemPageSizeWrite_only : ∀ a0 s z, Only [.out, .link, .sec] s (runRow (execSystemPageSizeWrite a0 s) z) := by
  intro a0 s z
  unfold execSystemPageSizeWrite
  rw [runRow_next]
  refine Only.cfgTo (fun t1 h2 => ?_) rfl ?_
  · refine Only.ite (fun _ => ?_) (fun _ => ?_)
    · refine Only.via (Only.set_link _ _) rfl ?_
      exact h2
    · exact h2
  · exact Only.refl _ _

theorem execNumvfsWrite_only : ∀ a0 s z, Only [.out, .link, .sec] s (runRow (execNumvfsWrite a0 s) z) := by
  intro a0 s z
  unfold execNumvfsWrite
  rw [runRow_next]
  refine Only.cfgTo (fun t1 h2 => ?_) rfl ?_
  · refine Only.ite (fun _ => ?_) (fun _ => ?_)
    · exact h2
    · refine Only.via (Only.set_link _ _) rfl ?_
      exact h2
  · exact Only.refl _ _

theorem execBusMasterEnableWrite_only : ∀ a0 a1 s z, Only [.out, .link, .sec, .fn, .reads, .nextTag, .lastFn, .mch] s (runRow (execBusMasterEnableWrite a0 a1 s) z) := by
  intro a0 a1 s z
  unfold execBusMasterEnableWrite
  rw [runRow_next]
  refine Only.cfgTo (fun t1 h2 => ?_) rfl ?_
  · extract_lets x3 x4
    refine Only.cut (t := x4) ?_ (fun h5 => ?_)
    · unfold x4
      refine Only.via (State.modCfg_only _ _ _) rfl ?_
      exact h2
    refine Only.ite (fun _ => ?_) (fun _ => ?_)
    · exact h5
    · refine Only.via (State.pump_only _) rfl ?_
      refine Only.via (State.releasePending_only _ _) rfl ?_
      refine Only.ite (fun _ => ?_) (fun _ => ?_)
      · exact h5
      · refine Only.via (State.fetchSoon_only _ _) rfl ?_
        refine Only.via (State.wakeFn_only _ _) rfl ?_
        exact h5
  · exact Only.refl _ _

theorem execCompletionTimeoutValueWrite_only : ∀ a0 a1 s z, Only [.out, .sec, .fn] s (runRow (execCompletionTimeoutValueWrite a0 a1 s) z) := by
  intro a0 a1 s z
  unfold execCompletionTimeoutValueWrite
  rw [runRow_next]
  refine Only.cfgTo (fun t1 h2 => ?_) rfl ?_
  · refine Only.ite (fun _ => ?_) (fun _ => ?_)
    · refine Only.via (State.modCfg_only _ _ _) rfl ?_
      exact h2
    · exact h2
  · exact Only.refl _ _

theorem execMsixVectorUnmask_only : ∀ a0 a1 s z, Only [.out, .regs, .log, .nvm, .nvs, .link, .sec, .fn, .reads, .nextTag, .lastFn, .fss, .mch] s (runRow (execMsixVectorUnmask a0 a1 s) z) := by
  intro a0 a1 s z
  unfold execMsixVectorUnmask
  extract_lets x1
  rw [runRow_next]
  split
  · rename_i y2 y3
    refine Only.hostBar0 (fun t4 h5 => ?_) ?_
    · refine Only.via (State.releasePending_only _ _) rfl ?_
      refine Only.via (State.modFn_only _ _ _) rfl ?_
      exact h5
    · exact Only.refl _ _
  · rename_i y6
    refine Only.cfgTo (fun t7 h8 => ?_) rfl ?_
    · refine Only.via (State.setCfgField_only _ _ _ _) rfl ?_
      exact h8
    · exact Only.refl _ _
  · rename_i y9
    refine Only.cfgTo (fun t10 h11 => ?_) rfl ?_
    · refine Only.via (State.setCfgField_only _ _ _ _) rfl ?_
      exact h11
    · exact Only.refl _ _

theorem execVfEnableSet_only : ∀ s z, Only [.out, .link, .sec, .fn] s (runRow (execVfEnableSet s) z) := by
  intro s z
  unfold execVfEnableSet
  rw [runRow_next]
  refine Only.cfgTo (fun t1 h2 => ?_) rfl ?_
  · refine Only.ite (fun _ => ?_) (fun _ => ?_)
    · exact h2
    · extract_lets x3 x4 x5 x6
      refine Only.cut (t := x3) ?_ (fun h7 => ?_)
      · unfold x3
        refine Only.forBelow (fun a8 t9 h10 => ?_) ?_
        · refine Only.via (State.modFn_only _ _ _) rfl ?_
          exact h10
        · exact h2
      refine Only.cut (t := x5) ?_ (fun h11 => ?_)
      · unfold x5
        refine Only.via (Only.set_link _ _) rfl ?_
        exact h7
      refine Only.via (Only.set_link _ _) rfl ?_
      exact h11
  · exact Only.refl _ _

theorem State.beginFlr_only : ∀ s a1 a2, Only [.out, .inst, .fn] s (State.beginFlr s a1 a2) := by
  intro s a1 a2
  unfold State.beginFlr
  extract_lets x1
  refine Only.cut (t := x1) ?_ (fun h2 => ?_)
  · unfold x1
    refine Only.via (State.modFn_only _ _ _) rfl ?_
    exact Only.refl _ _
  refine Only.ite (fun _ => ?_) (fun _ => ?_)
  · refine Only.via (State.joinReset_only _ _ _ _) rfl ?_
    exact h2
  · refine Only.via (State.resetFor_only _ _ _) rfl ?_
    exact h2

theorem State.vfsOff_only : ∀ s, Only [.out, .link, .inst, .fn] s (State.vfsOff s) := by
  intro s
  unfold State.vfsOff
  refine Only.ite (fun _ => ?_) (fun _ => ?_)
  · extract_lets x1 x2
    refine Only.cut (t := x1) ?_ (fun h3 => ?_)
    · unfold x1
      refine Only.forBelow (fun a4 t5 h6 => ?_) ?_
      · refine Only.via (State.beginFlr_only _ _ _) rfl ?_
        exact h6
      · exact Only.refl _ _
    refine Only.via (Only.set_link _ _) rfl ?_
    exact h3
  · exact Only.refl _ _

theorem execVfEnableClear_only : ∀ s z, Only [.out, .link, .sec, .inst, .fn] s (runRow (execVfEnableClear s) z) := by
  intro s z
  unfold execVfEnableClear
  rw [runRow_next]
  refine Only.cfgTo (fun t1 h2 => ?_) rfl ?_
  · refine Only.via (State.vfsOff_only _) rfl ?_
    exact h2
  · exact Only.refl _ _

theorem State.endSessions_only : ∀ s, Only [.sec] s (State.endSessions s) := by
  intro s
  unfold State.endSessions
  refine Only.via (Only.set_sec _ _) rfl ?_
  exact Only.refl _ _

theorem State.dropRegion_only : ∀ s, Only [.out, .log, .nvm, .nvs, .inst, .fn, .cmds, .due, .reads, .fss, .mch, .fetches, .rate] s (State.dropRegion s) := by
  intro s
  unfold State.dropRegion
  extract_lets x1 x2
  refine Only.via (State.clearRegion_only _) rfl ?_
  refine Only.via (Only.set_reads_fss_fetches _ _ _ _) rfl ?_
  exact Only.refl _ _

theorem execInitiateFunctionLevelReset_only : ∀ a0 s z, Only [.out, .log, .nvm, .nvs, .link, .sec, .inst, .fn, .cmds, .due, .reads, .fss, .mch, .fetches, .rate] s (runRow (execInitiateFunctionLevelReset a0 s) z) := by
  intro a0 s z
  unfold execInitiateFunctionLevelReset
  rw [runRow_next]
  refine Only.cfgTo (fun t1 h2 => ?_) rfl ?_
  · extract_lets x3
    refine Only.cut (t := x3) ?_ (fun h4 => ?_)
    · unfold x3
      refine Only.via (State.beginFlr_only _ _ _) rfl ?_
      exact h2
    refine Only.ite (fun _ => ?_) (fun _ => ?_)
    · refine Only.via (State.dropRegion_only _) rfl ?_
      refine Only.via (State.endSessions_only _) rfl ?_
      refine Only.via (State.vfsOff_only _) rfl ?_
      exact h4
    · exact h4
  · exact Only.refl _ _

theorem execPowerStateD3hot_only : ∀ s z, Only [.out, .link, .sec] s (runRow (execPowerStateD3hot s) z) := by
  intro s z
  unfold execPowerStateD3hot
  rw [runRow_next]
  refine Only.cfgTo (fun t1 h2 => ?_) rfl ?_
  · refine Only.via (Only.set_link _ _) rfl ?_
    exact h2
  · exact Only.refl _ _

theorem execPowerStateD0_only : ∀ s z, Only [.out, .log, .nvm, .nvs, .link, .sec, .fn, .reads, .nextTag, .lastFn, .fss, .mch, .clk] s (runRow (execPowerStateD0 s) z) := by
  intro s z
  unfold execPowerStateD0
  rw [runRow_next]
  refine Only.cfgTo (fun t1 h2 => ?_) rfl ?_
  · refine Only.via (State.resume_only _) rfl ?_
    refine Only.via (State.wakeUp_only _) rfl ?_
    refine Only.via (Only.set_link _ _) rfl ?_
    exact h2
  · exact Only.refl _ _

theorem State.writeCfg_only : ∀ s a1 a2 a3, Only [.out, .regs, .log, .nvm, .nvs, .link, .sec, .inst, .fn, .cmds, .due, .reads, .nextTag, .lastFn, .fss, .mch, .fetches, .clk, .rate] s (State.writeCfg s a1 a2 a3) := by
  intro s a1 a2 a3
  have hw : ∀ {l : List StateField} {t u : State}, Only l t u →
      StateField.within l [.out, .regs, .log, .nvm, .nvs, .link, .sec, .inst, .fn, .cmds, .due, .reads, .nextTag, .lastFn, .fss, .mch, .fetches, .clk,
      .rate] = true → Only [.out, .regs, .log, .nvm, .nvs, .link, .sec, .inst, .fn, .cmds, .due, .reads, .nextTag, .lastFn, .fss, .mch, .fetches, .clk,
      .rate] s t →
      Only [.out, .regs, .log, .nvm, .nvs, .link, .sec, .inst, .fn, .cmds, .due, .reads, .nextTag, .lastFn, .fss, .mch, .fetches, .clk,
      .rate] s u := fun h hl h0 => Only.via h hl h0
  unfold State.writeCfg
  extract_lets run set pf other
  have h0 : Only [.out, .regs, .log, .nvm, .nvs, .link, .sec, .inst, .fn, .cmds, .due, .reads, .nextTag, .lastFn, .fss, .mch, .fetches, .clk,
      .rate] s s := Only.refl _ _
  have hs : ∀ fd p n t, Only [.out, .regs, .log, .nvm, .nvs, .link, .sec, .inst, .fn, .cmds, .due, .reads, .nextTag, .lastFn, .fss, .mch, .fetches, .clk,
      .rate] s t → Only [.out, .regs, .log, .nvm, .nvs, .link, .sec, .inst, .fn, .cmds, .due, .reads, .nextTag, .lastFn, .fss, .mch, .fetches, .clk,
      .rate] s (set fd p n t) := fun _ _ _ t h =>
    hw (execConfigWrite_only _ _ _ t t) rfl h
  have ho : ∀ t, Only [.out, .regs, .log, .nvm, .nvs, .link, .sec, .inst, .fn, .cmds, .due, .reads, .nextTag, .lastFn, .fss, .mch, .fetches, .clk,
      .rate] s t → Only [.out, .regs, .log, .nvm, .nvs, .link, .sec, .inst, .fn, .cmds, .due, .reads, .nextTag, .lastFn, .fss, .mch, .fetches, .clk,
      .rate] s (other t) := fun t h => hs _ _ _ t h
  have hpf : ∀ g : State → State, (∀ t, Only [.out, .regs, .log, .nvm, .nvs, .link, .sec, .inst, .fn, .cmds, .due, .reads, .nextTag, .lastFn, .fss, .mch, .fetches, .clk,
      .rate] s t → Only [.out, .regs, .log, .nvm, .nvs, .link, .sec, .inst, .fn, .cmds, .due, .reads, .nextTag, .lastFn, .fss, .mch, .fetches, .clk,
      .rate] s (g t)) → Only [.out, .regs, .log, .nvm, .nvs, .link, .sec, .inst, .fn, .cmds, .due, .reads, .nextTag, .lastFn, .fss, .mch, .fetches, .clk,
      .rate] s (pf g s) := by
    intro g hg
    change Only _ _ ((if a1 = 0 then g else fun s => s) s)
    split
    · exact hg s h0
    · exact h0
  split
  · exact hw (execBusMasterEnableWrite_only _ _ _ _) rfl (hs _ _ _ _ (ho _ h0))
  · refine hpf _ (fun t h => ?_)
    exact Only.ite (fun _ => hw (execPowerStateD3hot_only _ _) rfl h)
      (fun _ => Only.ite (fun _ => hw (execPowerStateD0_only _ _) rfl h) (fun _ => h))
  · exact hs _ _ _ _ (hs _ _ _ _ h0)
  · have h1 := hs .maxReadRequest 12 3 _ (hs .extendedTags 8 1 _ (hs .maxPayload 5 3 _ (hs .relaxedOrdering 4 1 _ (ho _ h0))))
    exact Only.ite (fun _ => hw (execInitiateFunctionLevelReset_only _ _ _) rfl h1) (fun _ => h1)
  · exact hs _ _ _ _ (ho _ h0)
  · exact hs _ _ _ _ (hs _ _ _ _ (hs _ _ _ _ (hw (execCompletionTimeoutValueWrite_only _ _ _ _) rfl h0)))
  · exact hs _ _ _ _ (ho _ h0)
  · exact hs _ _ _ _ h0
  · exact hs _ _ _ _ h0
  · refine hpf _ (fun t h => ?_)
    have h1 : Only [.out, .regs, .log, .nvm, .nvs, .link, .sec, .inst, .fn, .cmds, .due, .reads, .nextTag, .lastFn, .fss, .mch, .fetches, .clk,
      .rate] s (if bitN a3 0 then t else run execVfEnableClear t) :=
      Only.ite (fun _ => h) (fun _ => hw (execVfEnableClear_only _ _) rfl h)
    have h2 := hs .ariHierarchy 4 1 _ (hs .vfMemorySpaceEnable 3 1 _ h1)
    exact Only.ite (fun _ => hw (execVfEnableSet_only _ _) rfl h2) (fun _ => h2)
  · exact hpf _ (fun t h => hw (execNumvfsWrite_only _ _ _) rfl h)
  · exact hpf _ (fun t h => hw (execSystemPageSizeWrite_only _ _ _) rfl h)
  · refine hpf _ (fun t h => hs _ _ _ _ ?_)
    exact Only.ite (fun _ => hw (execDoeAbort_only _ _) rfl h) (fun _ => h)
  · exact hs _ _ _ _ (hs _ _ _ _ (ho _ h0))
  · exact hs _ _ _ _ (ho _ h0)
  · exact ho _ h0

theorem execRegisterWrite_only : ∀ a0 a1 a2 s z, Only [.out, .regs, .nextSet, .prevSet, .epoch, .tm, .hlt, .log, .nvm, .nvs, .link, .sec, .inst, .fn, .cmds, .nextCmd, .due, .reads, .nextTag, .lastFn, .fss, .sea, .mch, .fetches, .arc, .drives, .clk, .pwb, .stl, .inp, .cal, .rate] s (runRow (execRegisterWrite a0 a1 a2 s) z) := by
  intro a0 a1 a2 s z
  unfold execRegisterWrite
  extract_lets x1
  rw [runRow_next]
  split
  · rename_i y2 y3
    refine Only.hostBar0 (fun t4 h5 => ?_) ?_
    · extract_lets x6
      refine Only.writeBytes (fun k7 a8 t9 h10 => ?_) (fun t9 h10 => ?_) ?_
      · refine Only.ite (fun _ => ?_) (fun _ => ?_)
        · refine Only.via (State.writeBar0_only _ _ _ _) rfl ?_
          exact h10
        · exact h10
      · refine Only.via (State.accError_only _ _ _ _) rfl ?_
        exact h10
      · refine Only.via (State.wakeUp_only _) rfl ?_
        exact h5
    · exact Only.refl _ _
  · rename_i y11
    refine Only.hostBar2 (fun t12 h13 => ?_) ?_
    · refine Only.writeBytes (fun k14 a15 t16 h17 => ?_) (fun t16 h17 => ?_) ?_
      · refine Only.via (State.writeBar2_only _ _ _) rfl ?_
        exact h17
      · refine Only.via (State.accError_only _ _ _ _) rfl ?_
        exact h17
      · refine Only.via (State.wakeUp_only _) rfl ?_
        exact h13
    · exact Only.refl _ _
  · rename_i y18 y19
    refine Only.ite (fun _ => ?_) (fun _ => ?_)
    · refine Only.via (State.writeCfg_only _ _ _ _) rfl ?_
      exact Only.refl _ _
    · exact Only.refl _ _
  · rename_i y20
    refine Only.ite (fun _ => ?_) (fun _ => ?_)
    · refine Only.writeBytes (fun k21 a22 t23 h24 => ?_) (fun t23 h24 => ?_) ?_
      · refine Only.via (State.writeHst_only _ _ _) rfl ?_
        exact h24
      · exact h24
      · exact Only.refl _ _
    · exact Only.refl _ _

theorem execLinkUp_only : ∀ a0 a1 s z, Only [.out, .log, .nvm, .nvs, .link, .fn] s (runRow (execLinkUp a0 a1 s) z) := by
  intro a0 a1 s z
  unfold execLinkUp
  rw [runRow_next]
  refine Only.ite (fun _ => ?_) (fun _ => ?_)
  · exact Only.refl _ _
  · extract_lets x1 x2 x3
    refine Only.cut (t := x3) ?_ (fun h4 => ?_)
    · unfold x3
      refine Only.via (Only.set_link _ _) rfl ?_
      exact Only.refl _ _
    refine Only.via (State.note_only _ _ _) rfl ?_
    exact h4

theorem State.warmRegs_only : ∀ s, Only [.regs, .nextSet, .liveSet, .prevSet, .latches, .epoch] s (State.warmRegs s) := by
  intro s
  unfold State.warmRegs
  extract_lets x1 x2 x3 x4
  refine Only.via (Only.set_regs_nextSet_liveSet_prevSet_latches_epoch _ _ _ _ _ _ _) rfl ?_
  exact Only.refl _ _

theorem State.restAxes_only : ∀ s a1, Only [.drives] s (State.restAxes s a1) := by
  intro s a1
  unfold State.restAxes
  refine Only.forBelow (fun a1 t2 h3 => ?_) ?_
  · refine Only.via (State.modAxis_only _ _ _) rfl ?_
    exact h3
  · exact Only.refl _ _

theorem State.breakStripes_only : ∀ s, Only [.out, .log, .nvm, .nvs, .inst, .fn, .fss, .arc] s (State.breakStripes s) := by
  intro s
  unfold State.breakStripes
  refine Only.forEach (fun a1 t2 h3 => ?_) ?_
  · refine Only.forEach (fun a4 t5 h6 => ?_) ?_
    · refine Only.via (State.stripeBad_only _ _ _) rfl ?_
      exact h6
    · exact h3
  · exact Only.refl _ _

theorem State.stopDrives_only : ∀ s, Only [.out, .log, .nvm, .nvs, .inst, .fn, .fss, .arc, .drives] s (State.stopDrives s) := by
  intro s
  unfold State.stopDrives
  extract_lets x1 x2 x3
  refine Only.cut (t := x1) ?_ (fun h4 => ?_)
  · unfold x1
    refine Only.forBelow (fun a5 t6 h7 => ?_) ?_
    · refine Only.ite (fun _ => ?_) (fun _ => ?_)
      · refine Only.via (State.closeGate_only _ _) rfl ?_
        exact h7
      · exact h7
    · exact Only.refl _ _
  refine Only.cut (t := x2) ?_ (fun h8 => ?_)
  · unfold x2
    refine Only.via (State.breakStripes_only _) rfl ?_
    exact h4
  refine Only.cut (t := x3) ?_ (fun h9 => ?_)
  · unfold x3
    refine Only.via (Only.set_drives _ _) rfl ?_
    exact h8
  refine Only.via (State.settle_only _) rfl ?_
  refine Only.forBelow (fun a10 t11 h12 => ?_) ?_
  · refine Only.via (State.restAxes_only _ _) rfl ?_
    exact h12
  · exact h9

theorem State.warmReset_only : ∀ s, Only [.out, .regs, .nextSet, .liveSet, .prevSet, .latches, .epoch, .tm, .hlt, .log, .nvm, .nvs, .link, .sec, .inst, .fn, .cmds, .due, .reads, .fss, .mch, .fetches, .arc, .drives, .pwb, .cal, .rate] s (State.warmReset s) := by
  intro s
  unfold State.warmReset
  extract_lets x1 x2 x3 x4 x5 x6 x7 x8
  refine Only.cut (t := x3) ?_ (fun h9 => ?_)
  · unfold x3
    refine Only.via (Only.set_tm_hlt_sec_reads _ _ _ _ _) rfl ?_
    exact Only.refl _ _
  refine Only.cut (t := x4) ?_ (fun h10 => ?_)
  · unfold x4
    refine Only.forEach (fun a11 t12 h13 => ?_) ?_
    · refine Only.via (State.beginFlr_only _ _ _) rfl ?_
      exact h13
    · exact h9
  refine Only.cut (t := x5) ?_ (fun h14 => ?_)
  · unfold x5
    refine Only.via (State.dropRegion_only _) rfl ?_
    exact h10
  refine Only.cut (t := x6) ?_ (fun h15 => ?_)
  · unfold x6
    refine Only.via (State.warmRegs_only _) rfl ?_
    refine Only.via (State.reloadSettings_only _) rfl ?_
    exact h14
  refine Only.cut (t := x8) ?_ (fun h16 => ?_)
  · unfold x8
    refine Only.via (Only.set_link_pwb_cal _ _ _ _) rfl ?_
    exact h15
  refine Only.via (State.stopDrives_only _) rfl ?_
  exact h16

theorem State.linkLost_only : ∀ s, Only [.out, .regs, .nextSet, .liveSet, .prevSet, .latches, .epoch, .tm, .hlt, .log, .nvm, .nvs, .link, .sec, .inst, .fn, .cmds, .due, .reads, .fss, .mch, .fetches, .arc, .drives, .pwb, .cal, .rate] s (State.linkLost s) := by
  intro s
  unfold State.linkLost
  refine Only.ite (fun _ => ?_) (fun _ => ?_)
  · exact Only.refl _ _
  · refine Only.ite (fun _ => ?_) (fun _ => ?_)
    · exact Only.refl _ _
    · extract_lets x1 x2
      refine Only.cut (t := x2) ?_ (fun h3 => ?_)
      · unfold x2
        refine Only.via (Only.set_link _ _) rfl ?_
        exact Only.refl _ _
      refine Only.ite (fun _ => ?_) (fun _ => ?_)
      · refine Only.via (State.warmReset_only _) rfl ?_
        exact h3
      · exact h3

theorem execDlDown_only : ∀ s z, Only [.out, .regs, .nextSet, .liveSet, .prevSet, .latches, .epoch, .tm, .hlt, .log, .nvm, .nvs, .link, .sec, .inst, .fn, .cmds, .due, .reads, .fss, .mch, .fetches, .arc, .drives, .pwb, .cal, .rate] s (runRow (execDlDown s) z) := by
  intro s z
  unfold execDlDown
  rw [runRow_next]
  refine Only.ite (fun _ => ?_) (fun _ => ?_)
  · extract_lets x1 x2 x3 x4 x5
    refine Only.cut (t := x2) ?_ (fun h6 => ?_)
    · unfold x2
      refine Only.via (Only.set_link _ _) rfl ?_
      exact Only.refl _ _
    refine Only.cut (t := x3) ?_ (fun h7 => ?_)
    · unfold x3
      refine Only.via (State.note_only _ _ _) rfl ?_
      exact h6
    refine Only.cut (t := x5) ?_ (fun h8 => ?_)
    · unfold x5
      refine Only.ite (fun _ => ?_) (fun _ => ?_)
      · refine Only.via (Only.set_hlt _ _) rfl ?_
        exact h7
      · exact h7
    refine Only.via (State.linkLost_only _) rfl ?_
    exact h8
  · exact Only.refl _ _

theorem execHotResetReceived_only : ∀ s z, Only [.out, .regs, .nextSet, .liveSet, .prevSet, .latches, .epoch, .tm, .hlt, .log, .nvm, .nvs, .link, .sec, .inst, .fn, .cmds, .due, .reads, .fss, .mch, .fetches, .arc, .drives, .pwb, .cal, .rate] s (runRow (execHotResetReceived s) z) := by
  intro s z
  unfold execHotResetReceived
  rw [runRow_next]
  refine Only.ite (fun _ => ?_) (fun _ => ?_)
  · extract_lets x1 x2 x3 x4 x5
    refine Only.cut (t := x2) ?_ (fun h6 => ?_)
    · unfold x2
      refine Only.via (Only.set_link _ _) rfl ?_
      exact Only.refl _ _
    refine Only.cut (t := x3) ?_ (fun h7 => ?_)
    · unfold x3
      refine Only.via (State.note_only _ _ _) rfl ?_
      exact h6
    refine Only.cut (t := x5) ?_ (fun h8 => ?_)
    · unfold x5
      refine Only.ite (fun _ => ?_) (fun _ => ?_)
      · refine Only.via (Only.set_hlt _ _) rfl ?_
        exact h7
      · exact h7
    refine Only.via (State.linkLost_only _) rfl ?_
    exact h8
  · exact Only.refl _ _

theorem execWarmResetComplete_only : ∀ s z, Only [.out, .regs, .latches, .hlt, .link, .sec, .fn] s (runRow (execWarmResetComplete s) z) := by
  intro s z
  unfold execWarmResetComplete
  rw [runRow_next]
  refine Only.ite (fun _ => ?_) (fun _ => ?_)
  · extract_lets x1 x2
    refine Only.cut (t := x2) ?_ (fun h3 => ?_)
    · unfold x2
      refine Only.via (Only.set_hlt _ _) rfl ?_
      exact Only.refl _ _
    refine Only.forEach (fun a4 t5 h6 => ?_) ?_
    · refine Only.ite (fun _ => ?_) (fun _ => ?_)
      · refine Only.via (State.resetFnOnly_only _ _) rfl ?_
        exact h6
      · exact h6
    · exact h3
  · exact Only.refl _ _

end Sys2Proof.Machine
end

