-- ==== Sys2Proof/Laws/FrameStartup.lean ====
section
/-! SUPPORT. The frames of the rebuild, start-up and the step: the fields of State that each function can write. -/

namespace Sys2Proof.Machine

theorem State.dieCommands_only : ∀ s a1 a2 a3 a4, Only [.out] s (State.dieCommands s a1 a2 a3 a4) := by
  intro s a1 a2 a3 a4
  unfold State.dieCommands
  extract_lets x1 x2 x3 x4
  refine Only.forEach (fun a5 t6 h7 => ?_) ?_
  · refine Only.via (State.emit_only _ _) rfl ?_
    exact h7
  · exact Only.refl _ _

theorem State.identify_only : ∀ s a1, Only [.out, .log, .nvm, .nvs, .fn, .fss] s (State.identify s a1) := by
  intro s a1
  unfold State.identify
  extract_lets x1 x2 x3 x4 x5 x6 x7
  clear_value x5
  split
  rename_i y8 y9 y10 y11 y12 y13
  extract_lets x14 x15 x16
  refine Only.cut (t := x15) ?_ (fun h17 => ?_)
  · unfold x15
    refine Only.via (Only.set_fss _ _) rfl ?_
    exact Only.refl _ _
  refine Only.cut (t := x16) ?_ (fun h18 => ?_)
  · unfold x16
    refine Only.forBelow (fun a19 t20 h21 => ?_) ?_
    · refine Only.ite (fun _ => ?_) (fun _ => ?_)
      · refine Only.via (State.dieCommands_only _ _ _ _ _) rfl ?_
        exact h21
      · exact h21
    · exact h17
  refine Only.forBelow (fun a22 t23 h24 => ?_) ?_
  · refine Only.ite (fun _ => ?_) (fun _ => ?_)
    · refine Only.via (State.note_only _ _ _) rfl ?_
      exact h24
    · exact h24
  · exact h18

theorem State.rawMap_only : ∀ s a1 a2 a3, Only [.fss] s (State.rawMap s a1 a2 a3) := by
  intro s a1 a2 a3
  unfold State.rawMap
  extract_lets x1 x2 x3 x4
  refine Only.cut (t := x3) ?_ (fun h5 => ?_)
  · unfold x3
    refine Only.via (Only.set_fss _ _) rfl ?_
    exact Only.refl _ _
  refine Only.via (State.setLeaf_only _ _ _) rfl ?_
  exact h5

theorem State.replaySeg_only : ∀ s a1 a2, Only [.fss] s (State.replaySeg s a1 a2) := by
  intro s a1 a2
  unfold State.replaySeg
  refine Only.via (State.mapSegs_only _ _) rfl ?_
  exact Only.refl _ _

theorem State.takeLimits_only : ∀ s a1 a2, Only [.regs, .nextSet, .liveSet, .prevSet] s (State.takeLimits s a1 a2) := by
  intro s a1 a2
  unfold State.takeLimits
  extract_lets x1
  refine Only.cut (t := x1) ?_ (fun h2 => ?_)
  · unfold x1
    refine Only.via (State.setReg_only _ _ _) rfl ?_
    exact Only.refl _ _
  refine Only.via (Only.set_nextSet_liveSet_prevSet _ _ _ _) rfl ?_
  exact h2

theorem State.replayRecord_only : ∀ s a1 a2, Only [.inst, .fss] s (State.replayRecord s a1 a2) := by
  intro s a1 a2
  unfold State.replayRecord
  extract_lets x1 x2
  refine Only.cut (t := x1) ?_ (fun h3 => ?_)
  · unfold x1
    refine Only.via (State.setInst_only _ _ _) rfl ?_
    exact Only.refl _ _
  refine Only.ite (fun _ => ?_) (fun _ => ?_)
  · refine Only.via (State.dropEmptyLeaves_only _ _) rfl ?_
    refine Only.forEach (fun a4 t5 h6 => ?_) ?_
    · refine Only.via (State.rawMap_only _ _ _ _) rfl ?_
      exact h6
    · refine Only.via (Only.set_fss _ _) rfl ?_
      exact h3
  · exact h3

theorem State.replay_only : ∀ s a1, Only [.regs, .nextSet, .liveSet, .prevSet, .inst, .fss] s (State.replay s a1) := by
  intro s a1
  unfold State.replay
  split
  · rename_i y1 y2 y3 y4 y5
    refine Only.via (State.rawMap_only _ _ _ _) rfl ?_
    exact Only.refl _ _
  · rename_i y6 y7 y8 y9 y10
    refine Only.forBelow (fun a11 t12 h13 => ?_) ?_
    · refine Only.via (State.rawMap_only _ _ _ _) rfl ?_
      exact h13
    · exact Only.refl _ _
  · rename_i y14 y15 y16 y17 y18 y19 y20
    refine Only.ite (fun _ => ?_) (fun _ => ?_)
    · refine Only.via (State.retarget_only _ _ _ _ _) rfl ?_
      exact Only.refl _ _
    · refine Only.via (State.rawMap_only _ _ _ _) rfl ?_
      exact Only.refl _ _
  · rename_i y21 y22 y23 y24
    extract_lets x25 x26 x27 x28
    refine Only.cut (t := x27) ?_ (fun h29 => ?_)
    · unfold x27
      refine Only.via (Only.set_fss _ _) rfl ?_
      exact Only.refl _ _
    refine Only.via (State.setLeaf_only _ _ _) rfl ?_
    exact h29
  · rename_i y30 y31 y32 y33 y34 y35 y36
    refine Only.ite (fun _ => ?_) (fun _ => ?_)
    · exact Only.refl _ _
    · extract_lets x37 x38 x39
      refine Only.cut (t := x39) ?_ (fun h40 => ?_)
      · unfold x39
        refine Only.via (Only.set_fss _ _) rfl ?_
        exact Only.refl _ _
      refine Only.via (State.modInst_only _ _ _) rfl ?_
      exact h40
  · rename_i y41 y42 y43 y44 y45
    refine Only.via (State.replaySeg_only _ _ _) rfl ?_
    exact Only.refl _ _
  · rename_i y46 y47 y48
    split
    · rename_i y49 y50 y51
      extract_lets x52 x53 x54
      refine Only.cut (t := x52) ?_ (fun h55 => ?_)
      · unfold x52
        refine Only.via (State.markUnits_only _ _) rfl ?_
        exact Only.refl _ _
      refine Only.cut (t := x54) ?_ (fun h56 => ?_)
      · unfold x54
        refine Only.via (Only.set_fss _ _) rfl ?_
        exact h55
      refine Only.via (State.modInst_only _ _ _) rfl ?_
      exact h56
    · rename_i y57 y58
      exact Only.refl _ _
  · rename_i y59 y60 y61 y62 y63 y64 y65
    refine Only.ite (fun _ => ?_) (fun _ => ?_)
    · refine Only.via (Only.set_fss _ _) rfl ?_
      exact Only.refl _ _
    · extract_lets x66 x67
      refine Only.cut (t := x66) ?_ (fun h68 => ?_)
      · unfold x66
        refine Only.via (State.setBlock_only _ _ _ _) rfl ?_
        exact Only.refl _ _
      refine Only.via (Only.set_fss _ _) rfl ?_
      exact h68
  · rename_i y69 y70 y71 y72
    refine Only.ite (fun _ => ?_) (fun _ => ?_)
    · exact Only.refl _ _
    · refine Only.via (State.setBlock_only _ _ _ _) rfl ?_
      refine Only.via (Only.set_fss _ _) rfl ?_
      exact Only.refl _ _
  · rename_i y73 y74 y75 y76 y77 y78
    refine Only.via (State.takeLimits_only _ _ _) rfl ?_
    refine Only.via (State.replayRecord_only _ _ _) rfl ?_
    exact Only.refl _ _
  · rename_i y79 y80 y81 y82
    exact Only.refl _ _
  · rename_i y83 y84 y85 y86
    refine Only.via (State.modInst_only _ _ _) rfl ?_
    exact Only.refl _ _
  · rename_i y87 y88 y89 y90 y91
    refine Only.via (State.mapSegs_only _ _) rfl ?_
    exact Only.refl _ _
  · rename_i y92 y93 y94 y95
    refine Only.forBelow (fun a96 t97 h98 => ?_) ?_
    · extract_lets x99
      refine Only.via (State.rawMap_only _ _ _ _) rfl ?_
      refine Only.via (State.mapSegs_only _ _) rfl ?_
      exact h98
    · exact Only.refl _ _
  · rename_i y100 y101
    refine Only.via (State.modDie_only _ _ _) rfl ?_
    exact Only.refl _ _
  · rename_i y102 y103 y104 y105
    refine Only.via (Only.set_fss _ _) rfl ?_
    exact Only.refl _ _

theorem State.loadRoot_only : ∀ s a1, Only [.regs, .nextSet, .liveSet, .prevSet, .inst, .fss, .arc] s (State.loadRoot s a1) := by
  intro s a1
  unfold State.loadRoot
  extract_lets x1 x2 x3
  refine Only.cut (t := x3) ?_ (fun h4 => ?_)
  · unfold x3
    refine Only.via (Only.set_inst_fss_arc _ _ _ _) rfl ?_
    exact Only.refl _ _
  refine Only.foldl (fun t6 a5 h7 => ?_) ?_
  · refine Only.via (State.takeLimits_only _ _ _) rfl ?_
    exact h7
  · exact h4

theorem State.unwrapKey_only : ∀ s a1 a2, Only [.out, .log, .nvm, .nvs, .inst, .fn] s (State.unwrapKey s a1 a2) := by
  intro s a1 a2
  unfold State.unwrapKey
  extract_lets x1
  refine Only.ite (fun _ => ?_) (fun _ => ?_)
  · exact Only.refl _ _
  · split
    · rename_i y2 y3 y4 y5
      split
      · rename_i y6 y7 y8
        refine Only.via (State.modInst_only _ _ _) rfl ?_
        exact Only.refl _ _
      · rename_i y9 y10
        refine Only.via (State.logEv_only _ _ _ _) rfl ?_
        refine Only.via (State.modInst_only _ _ _) rfl ?_
        exact Only.refl _ _
    · rename_i y11 y12 y13
      exact Only.refl _ _

theorem State.closeOpenBands_only : ∀ s, Only [.fss] s (State.closeOpenBands s) := by
  intro s
  unfold State.closeOpenBands
  extract_lets x1 x2 x3 x4
  refine Only.cut (t := x2) ?_ (fun h5 => ?_)
  · unfold x2
    refine Only.forBelow (fun a6 t7 h8 => ?_) ?_
    · extract_lets x9 x10 x11 x12
      refine Only.cut (t := x11) ?_ (fun h13 => ?_)
      · unfold x11
        refine Only.forEach (fun a14 t15 h16 => ?_) ?_
        · refine Only.via (State.setBlock_only _ _ _ _) rfl ?_
          exact h16
        · exact h8
      refine Only.ite (fun _ => ?_) (fun _ => ?_)
      · exact h8
      · refine Only.via (Only.set_fss _ _) rfl ?_
        exact h13
    · exact Only.refl _ _
  refine Only.cut (t := x4) ?_ (fun h17 => ?_)
  · unfold x4
    refine Only.via (Only.set_fss _ _) rfl ?_
    exact h5
  refine Only.forEach (fun a18 t19 h20 => ?_) ?_
  · refine Only.via (State.closeBand_only _ _) rfl ?_
    exact h20
  · exact h17

theorem State.trimPool_only : ∀ s, Only [.out, .inst, .fss, .mch] s (State.trimPool s) := by
  intro s
  unfold State.trimPool
  refine Only.forBelow (fun a1 t2 h3 => ?_) ?_
  · refine Only.via (State.evictLeaf_only _) rfl ?_
    exact h3
  · exact Only.refl _ _

theorem State.resumeCounters_only : ∀ s, Only [.inst] s (State.resumeCounters s) := by
  intro s
  unfold State.resumeCounters
  refine Only.forEach (fun a1 t2 h3 => ?_) ?_
  · refine Only.via (State.modInst_only _ _ _) rfl ?_
    exact h3
  · exact Only.refl _ _

theorem State.startInstance_only : ∀ s a1, Only [.out, .nvm, .nvs, .inst, .fn, .fss, .mch, .fetches] s (State.startInstance s a1) := by
  intro s a1
  unfold State.startInstance
  extract_lets x1 x2 x3 x4 x5 x6 x7 x8
  refine Only.cut (t := x3) ?_ (fun h9 => ?_)
  · unfold x3
    refine Only.via (State.modInst_only _ _ _) rfl ?_
    exact Only.refl _ _
  refine Only.cut (t := x4) ?_ (fun h10 => ?_)
  · unfold x4
    refine Only.ite (fun _ => ?_) (fun _ => ?_)
    · refine Only.via (State.setIState_only _ _ _) rfl ?_
      exact h9
    · exact h9
  refine Only.cut (t := x6) ?_ (fun h11 => ?_)
  · unfold x6
    refine Only.via (State.postOwn_only _ _ _ _) rfl ?_
    exact h10
  refine Only.cut (t := x7) ?_ (fun h12 => ?_)
  · unfold x7
    refine Only.ite (fun _ => ?_) (fun _ => ?_)
    · exact h11
    · refine Only.via (State.postPeer_only _ _ _ _) rfl ?_
      exact h11
  refine Only.cut (t := x8) ?_ (fun h13 => ?_)
  · unfold x8
    refine Only.via (State.removeStep4_only _ _) rfl ?_
    exact Only.refl _ _
  split
  · rename_i y14 y15
    refine Only.via (State.setInsEvt_only _ _ _) rfl ?_
    exact h12
  · rename_i y16 y17
    refine Only.via (State.setInsEvt_only _ _ _) rfl ?_
    exact h12
  · rename_i y18 y19
    refine Only.ite (fun _ => ?_) (fun _ => ?_)
    · refine Only.via (State.setIState_only _ _ _) rfl ?_
      refine Only.via (State.destroyKey_only _ _) rfl ?_
      exact h13
    · refine Only.via (State.setIState_only _ _ _) rfl ?_
      exact h13
  · rename_i y20 y21
    refine Only.ite (fun _ => ?_) (fun _ => ?_)
    · refine Only.via (State.setIState_only _ _ _) rfl ?_
      refine Only.via (State.destroyKey_only _ _) rfl ?_
      exact Only.refl _ _
    · exact Only.refl _ _
  · rename_i y22 y23
    refine Only.via (State.destroyKey_only _ _) rfl ?_
    exact Only.refl _ _

theorem State.instance0_only : ∀ s, Only [.inst] s (State.instance0 s) := by
  intro s
  unfold State.instance0
  split
  rename_i y1 y2 y3 y4
  refine Only.via (State.modInst_only _ _ _) rfl ?_
  exact Only.refl _ _

theorem State.formatInstance_only : ∀ s a1 a2 a3, Only [.nvm, .nvs, .inst, .sea] s (State.formatInstance s a1 a2 a3) := by
  intro s a1 a2 a3
  unfold State.formatInstance
  split
  rename_i y1 y2 y3 y4
  refine Only.via (State.setInst_only _ _ _) rfl ?_
  refine Only.ofPair y4 ?_
  refine Only.via (State.drawKey_only _) rfl ?_
  exact Only.refl _ _

theorem State.formatBlocks_only : ∀ s a1 a2, Only [.fss] s (State.formatBlocks s a1 a2) := by
  intro s a1 a2
  unfold State.formatBlocks
  extract_lets x1 x2 x3 x4 x5 x6
  refine Only.cut (t := x3) ?_ (fun h7 => ?_)
  · unfold x3
    refine Only.forEach (fun a8 t9 h10 => ?_) ?_
    · refine Only.via (State.setBlock_only _ _ _ _) rfl ?_
      exact h10
    · refine Only.via (Only.set_fss _ _) rfl ?_
      exact Only.refl _ _
  refine Only.cut (t := x6) ?_ (fun h11 => ?_)
  · unfold x6
    refine Only.ite (fun _ => ?_) (fun _ => ?_)
    · refine Only.forEach (fun a12 t13 h14 => ?_) ?_
      · refine Only.forBelow (fun a15 t16 h17 => ?_) ?_
        · refine Only.via (State.setBlock_only _ _ _ _) rfl ?_
          exact h17
        · exact h14
      · refine Only.via (Only.set_fss _ _) rfl ?_
        exact Only.refl _ _
    · refine Only.via (Only.set_fss _ _) rfl ?_
      exact h7
  refine Only.forEach (fun a18 t19 h20 => ?_) ?_
  · refine Only.forEach (fun a21 t22 h23 => ?_) ?_
    · refine Only.via (State.setBlock_only _ _ _ _) rfl ?_
      exact h23
    · exact h20
  · exact h11

theorem State.giveLimits_only : ∀ s a1 a2, Only [.out, .regs, .nextSet, .liveSet, .prevSet, .log, .nvm, .nvs, .fn] s (State.giveLimits s a1 a2) := by
  intro s a1 a2
  unfold State.giveLimits
  extract_lets x1 x2 x3 x4
  refine Only.cut (t := x4) ?_ (fun h5 => ?_)
  · unfold x4
    refine Only.via (State.takeLimits_only _ _ _) rfl ?_
    exact Only.refl _ _
  refine Only.ite (fun _ => ?_) (fun _ => ?_)
  · refine Only.via (State.note_only _ _ _) rfl ?_
    exact h5
  · exact h5

theorem State.formatRecord_only : ∀ s a1, Only [.out, .regs, .nextSet, .liveSet, .prevSet, .log, .nvm, .nvs, .inst, .fn, .sea] s (State.formatRecord s a1) := by
  intro s a1
  unfold State.formatRecord
  refine Only.ite (fun _ => ?_) (fun _ => ?_)
  · refine Only.via (State.giveLimits_only _ _ _) rfl ?_
    exact Only.refl _ _
  · refine Only.via (State.giveLimits_only _ _ _) rfl ?_
    refine Only.via (State.formatInstance_only _ _ _ _) rfl ?_
    exact Only.refl _ _

theorem State.format_only : ∀ s a1 a2, Only [.out, .regs, .nextSet, .liveSet, .prevSet, .log, .nvm, .nvs, .inst, .fn, .fss, .sea] s (State.format s a1 a2) := by
  intro s a1 a2
  unfold State.format
  extract_lets x1 x2 x3
  refine Only.cut (t := x1) ?_ (fun h4 => ?_)
  · unfold x1
    refine Only.via (State.formatBlocks_only _ _ _) rfl ?_
    exact Only.refl _ _
  refine Only.cut (t := x3) ?_ (fun h5 => ?_)
  · unfold x3
    refine Only.via (Only.set_inst_fss _ _ _) rfl ?_
    exact h4
  split
  rename_i y6 y7 y8 y9
  extract_lets x10 x11 x12 x13 x14 x15
  refine Only.cut (t := x10) ?_ (fun h16 => ?_)
  · unfold x10
    refine Only.via (State.formatInstance_only _ _ _ _) rfl ?_
    exact h5
  refine Only.cut (t := x12) ?_ (fun h17 => ?_)
  · unfold x12
    refine Only.via (State.writeAnchor_only _) rfl ?_
    refine Only.forEach (fun a18 t19 h20 => ?_) ?_
    · refine Only.via (State.formatRecord_only _ _) rfl ?_
      exact h20
    · exact h16
  refine Only.cut (t := x13) ?_ (fun h21 => ?_)
  · unfold x13
    refine Only.via (State.storeSettings_only _ _ _ _ _) rfl ?_
    exact h17
  refine Only.cut (t := x15) ?_ (fun h22 => ?_)
  · unfold x15
    refine Only.ite (fun _ => ?_) (fun _ => ?_)
    · refine Only.via (Only.set_nvs _ _) rfl ?_
      exact h21
    · exact h17
  refine Only.via (State.note_only _ _ _) rfl ?_
  exact h22

theorem State.unmounted_only : ∀ s, Only [.inst, .fss] s (State.unmounted s) := by
  intro s
  unfold State.unmounted
  extract_lets x1 x2 x3
  refine Only.cut (t := x2) ?_ (fun h4 => ?_)
  · unfold x2
    refine Only.via (Only.set_inst_fss _ _ _) rfl ?_
    exact Only.refl _ _
  refine Only.via (State.modInst_only _ _ _) rfl ?_
  refine Only.via (State.instance0_only _) rfl ?_
  refine Only.via (State.setInst_only _ _ _) rfl ?_
  exact h4

theorem State.landSystem_only : ∀ s, Only [.out, .log, .nvm, .nvs, .inst, .fn, .cmds, .due, .fss, .mch, .fetches, .rate] s (State.landSystem s) := by
  intro s
  unfold State.landSystem
  refine Only.forEach (fun a1 t2 h3 => ?_) ?_
  · refine Only.via (State.pageDone_only _ _) rfl ?_
    exact h3
  · exact Only.refl _ _

theorem State.firstFlush_only : ∀ s, Only [.out, .log, .nvm, .nvs, .inst, .fn, .cmds, .due, .fss, .mch, .fetches, .rate] s (State.firstFlush s) := by
  intro s
  unfold State.firstFlush
  refine Only.via (State.flushLanded_only _) rfl ?_
  refine Only.via (State.landSystem_only _) rfl ?_
  refine Only.via (State.flushOut_only _) rfl ?_
  exact Only.refl _ _

theorem State.mount_only : ∀ s, Only [.out, .log, .nvm, .nvs, .inst, .fn, .cmds, .due, .fss, .mch, .fetches, .rate] s (State.mount s) := by
  intro s
  unfold State.mount
  extract_lets x1 x2 x3 x4
  refine Only.cut (t := x2) ?_ (fun h5 => ?_)
  · unfold x2
    refine Only.via (Only.set_fss _ _) rfl ?_
    exact Only.refl _ _
  refine Only.cut (t := x3) ?_ (fun h6 => ?_)
  · unfold x3
    refine Only.forEach (fun a7 t8 h9 => ?_) ?_
    · refine Only.via (State.startInstance_only _ _) rfl ?_
      exact h9
    · exact h5
  refine Only.cut (t := x4) ?_ (fun h10 => ?_)
  · unfold x4
    refine Only.forEach (fun a11 t12 h13 => ?_) ?_
    · refine Only.via (State.refreshUsed_only _ _) rfl ?_
      exact h13
    · exact h6
  refine Only.via (State.firstFlush_only _) rfl ?_
  refine Only.via (State.landSystem_only _) rfl ?_
  refine Only.via (State.writeRoot_only _) rfl ?_
  refine Only.via (State.listBlocks_only _) rfl ?_
  refine Only.via (State.recap_only _) rfl ?_
  exact h10

theorem placeIfNewer_only : ∀ marks pua e, Only [.fss] e.1 (placeIfNewer marks pua e).1 := by
  intro marks pua e
  obtain ⟨s, js⟩ := e
  unfold placeIfNewer
  dsimp only
  split <;> split
  · exact Only.refl _ _
  · exact Only.set_fss _ _
  · exact Only.refl _ _
  · refine Only.via (State.rawMap_only _ _ _ _) rfl ?_
    exact Only.ite (fun _ => State.mapSegs_only _ _) (fun _ => Only.refl _ _)

theorem State.rebuildMap_only : ∀ s a1 a2, Only [.out, .regs, .nextSet, .liveSet, .prevSet, .log, .nvm, .nvs, .inst, .fn, .fss, .mch, .arc] s (State.rebuildMap s a1 a2) := by
  intro s a1 a2
  have hp : ∀ (t : State) (xs : List Nat) (j : JSeq), Only [.out, .regs, .nextSet, .liveSet, .prevSet, .log, .nvm, .nvs, .inst, .fn, .fss, .mch, .arc] s t →
      Only [.out, .regs, .nextSet, .liveSet, .prevSet, .log, .nvm, .nvs, .inst, .fn, .fss, .mch, .arc] s (xs.foldl (fun e p => placeIfNewer a2.watermark p e) (t, j)).1 := by
    intro t xs
    induction xs generalizing t with
    | nil => exact fun _ h => h
    | cons p r ih =>
      intro j h
      exact ih _ _ (Only.via (placeIfNewer_only a2.watermark p (t, j)) rfl h)
  unfold State.rebuildMap
  refine Only.via (State.trimPool_only _) rfl (Only.via (State.resumeCounters_only _) rfl
    (Only.via (State.closeOpenBands_only _) rfl (hp _ _ _ ?_)))
  refine Only.forEach (fun i t h => Only.via (State.unwrapKey_only _ _ _) rfl h) ?_
  refine Only.via (State.instance0_only _) rfl (Only.via (Only.set_inst _ _) rfl ?_)
  exact Only.forEach (fun e t h => Only.via (State.replay_only _ _) rfl h)
    (Only.via (State.loadRoot_only _ _) rfl (Only.mono (Only.set_fss _ _) rfl))

theorem State.failDies_only : ∀ s a1, Only [.out, .log, .nvm, .nvs, .inst, .fn, .cmds, .fss, .mch, .fetches] s (State.failDies s a1) := by
  intro s a1
  unfold State.failDies
  refine Only.forBelow (fun a1 t2 h3 => ?_) ?_
  · extract_lets x4
    refine Only.ite (fun _ => ?_) (fun _ => ?_)
    · refine Only.via (State.dieFail_only _ _) rfl ?_
      exact h3
    · exact h3
  · exact Only.refl _ _

theorem State.mapStep_only : ∀ s a1, Only [.out, .regs, .nextSet, .liveSet, .prevSet, .log, .nvm, .nvs, .inst, .fn, .cmds, .due, .fss, .sea, .mch, .fetches, .arc, .rate] s (State.mapStep s a1) := by
  intro s a1
  unfold State.mapStep
  extract_lets x1
  refine Only.ite (fun _ => ?_) (fun _ => ?_)
  · refine Only.via (State.unmounted_only _) rfl ?_
    refine Only.via (State.note_only _ _ _) rfl ?_
    exact Only.refl _ _
  · refine Only.ite (fun _ => ?_) (fun _ => ?_)
    · refine Only.via (State.failDies_only _ _) rfl ?_
      refine Only.via (State.mount_only _) rfl ?_
      refine Only.via (State.format_only _ _ _) rfl ?_
      exact Only.refl _ _
    · split
      · rename_i y2 y3 y4 y5 y6
        refine Only.via (State.failDies_only _ _) rfl ?_
        refine Only.via (State.mount_only _) rfl ?_
        refine Only.via (State.rebuildMap_only _ _ _) rfl ?_
        exact Only.refl _ _
      · rename_i y7 y8 y9 y10
        refine Only.via (State.unmounted_only _) rfl ?_
        refine Only.via (State.note_only _ _ _) rfl ?_
        exact Only.refl _ _

theorem State.finishPrograms_only : ∀ s, Only [.fss] s (State.finishPrograms s) := by
  intro s
  unfold State.finishPrograms
  extract_lets x1
  refine Only.cut (t := x1) ?_ (fun h2 => ?_)
  · unfold x1
    refine Only.via (State.landPages_only _) rfl ?_
    exact Only.refl _ _
  refine Only.via (Only.set_fss _ _) rfl ?_
  exact h2

theorem execPerstNDeassert_only : ∀ s z, Only [.out, .hlt, .boot, .log, .nvm, .nvs, .fn, .clk] s (runRow (execPerstNDeassert s) z) := by
  intro s z
  unfold execPerstNDeassert
  rw [runRow_next]
  refine Only.ite (fun _ => ?_) (fun _ => ?_)
  · exact Only.refl _ _
  · extract_lets x1 x2 x3 x4 x5
    refine Only.cut (t := x2) ?_ (fun h6 => ?_)
    · unfold x2
      refine Only.via (Only.set_hlt _ _) rfl ?_
      exact Only.refl _ _
    refine Only.cut (t := x4) ?_ (fun h7 => ?_)
    · unfold x4
      refine Only.via (Only.set_clk _ _) rfl ?_
      exact h6
    refine Only.ite (fun _ => ?_) (fun _ => ?_)
    · exact h6
    · refine Only.ite (fun _ => ?_) (fun _ => ?_)
      · refine Only.via (State.note_only _ _ _) rfl ?_
        refine Only.via (Only.set_boot _ _) rfl ?_
        exact h7
      · exact h7

theorem State.stepClocks_only : ∀ s, Only [.clk] s (State.stepClocks s) := by
  intro s
  unfold State.stepClocks
  refine Only.via (Only.set_clk _ _) rfl ?_
  exact Only.refl _ _

theorem State.readCells_only : ∀ s a1, Only [.sea] s (State.readCells s a1) := by
  intro s a1
  unfold State.readCells
  extract_lets x1 x2
  refine Only.via (Only.set_sea _ _) rfl ?_
  exact Only.refl _ _

theorem State.revoke_only : ∀ s, Only [.free, .nvm, .nvs, .sea, .mon] s (State.revoke s) := by
  intro s
  unfold State.revoke
  extract_lets x1 x2
  clear_value x1
  split
  · rename_i y3
    exact Only.refl _ _
  · rename_i y4 y5
    split
    rename_i y6 y7 y8 y9
    extract_lets x10 x11 x12 x13 x14
    refine Only.cut (t := x11) ?_ (fun h15 => ?_)
    · unfold x11
      refine Only.via (Only.set_sea _ _) rfl ?_
      refine Only.ofPair y9 ?_
      refine Only.via (State.draw_only _) rfl ?_
      exact Only.refl _ _
    refine Only.cut (t := x12) ?_ (fun h16 => ?_)
    · unfold x12
      refine Only.via (State.monStore_only _ _ _ _ _) rfl ?_
      exact h15
    refine Only.cut (t := x14) ?_ (fun h17 => ?_)
    · unfold x14
      refine Only.via (Only.set_mon _ _) rfl ?_
      exact h16
    refine Only.via (State.monEvent_only _ _ _) rfl ?_
    exact h17

theorem State.chooseRoot_only : ∀ s, Only [.out, .tm, .hlt, .log, .nvm, .nvs, .sec, .inst, .fn, .cmds, .oldOps, .due, .reads, .fss, .sea, .fetches, .drives, .pwb, .cal, .mon] s (State.chooseRoot s) := by
  intro s
  unfold State.chooseRoot
  split
  · rename_i y1 y2
    refine Only.via (State.haltBy_only _ _) rfl ?_
    exact Only.refl _ _
  · rename_i y3 y4 y5
    extract_lets x6 x7 x8 x9 x10
    refine Only.cut (t := x10) ?_ (fun h11 => ?_)
    · unfold x10
      refine Only.via (Only.set_sea _ _) rfl ?_
      exact Only.refl _ _
    refine Only.ite (fun _ => ?_) (fun _ => ?_)
    · refine Only.via (State.note_only _ _ _) rfl ?_
      exact h11
    · exact h11

theorem State.checkCounters_only : ∀ s, Only [.out, .tm, .hlt, .log, .nvm, .nvs, .sec, .inst, .fn, .cmds, .oldOps, .due, .reads, .fss, .sea, .fetches, .drives, .pwb, .cal, .mon] s (State.checkCounters s) := by
  intro s
  unfold State.checkCounters
  extract_lets x1
  refine Only.cut (t := x1) ?_ (fun h2 => ?_)
  · unfold x1
    split
    · rename_i y3 y4 y5 y6
      extract_lets x7 x8 x9
      refine Only.cut (t := x7) ?_ (fun h10 => ?_)
      · unfold x7
        refine Only.ite (fun _ => ?_) (fun _ => ?_)
        · refine Only.via (State.ctrStore_only _ _ _) rfl ?_
          exact Only.refl _ _
        · exact Only.refl _ _
      refine Only.cut (t := x8) ?_ (fun h11 => ?_)
      · unfold x8
        refine Only.via (State.nvmWrite_only _ _ _) rfl ?_
        exact h10
      refine Only.via (State.note_only _ _ _) rfl ?_
      refine Only.via (Only.set_nvs _ _) rfl ?_
      exact h11
    · rename_i y12 y13
      exact Only.refl _ _
  split
  · rename_i y14 y15 y16
    refine Only.via (State.haltBy_only _ _) rfl ?_
    exact h2
  · rename_i y17 y18
    refine Only.ite (fun _ => ?_) (fun _ => ?_)
    · refine Only.via (State.ctrStore_only _ _ _) rfl ?_
      exact h2
    · exact h2

theorem State.quarantineStep_only : ∀ s, Only [.hlt, .nvm, .nvs, .sea] s (State.quarantineStep s) := by
  intro s
  unfold State.quarantineStep
  extract_lets x1 x2 x3
  refine Only.cut (t := x3) ?_ (fun h4 => ?_)
  · unfold x3
    refine Only.via (Only.set_hlt_sea _ _ _) rfl ?_
    exact Only.refl _ _
  refine Only.ite (fun _ => ?_) (fun _ => ?_)
  · split
    · rename_i y5 y6 y7 y8 y9
      extract_lets x10 x11
      refine Only.ite (fun _ => ?_) (fun _ => ?_)
      · refine Only.via (State.quarantine_only _ _) rfl ?_
        exact h4
      · refine Only.ite (fun _ => ?_) (fun _ => ?_)
        · refine Only.via (State.quarantine_only _ _) rfl ?_
          exact h4
        · exact h4
    · rename_i y12 y13 y14
      exact h4
  · exact h4

theorem State.stepTests_only : ∀ s a1, Only [.tm, .hlt, .nvm, .nvs, .sec, .inst, .cmds, .oldOps, .due, .reads, .fss, .sea, .fetches, .drives, .pwb, .cal, .mon] s (State.stepTests s a1) := by
  intro s a1
  unfold State.stepTests
  split
  · rename_i y1 y2
    refine Only.via (State.haltBy_only _ _) rfl ?_
    exact Only.refl _ _
  · rename_i y3
    refine Only.via (Only.set_sea _ _) rfl ?_
    exact Only.refl _ _

theorem State.enterMonitor_only : ∀ s, Only [.out, .mon] s (State.enterMonitor s) := by
  intro s
  unfold State.enterMonitor
  extract_lets x1 x2 x3
  refine Only.cut (t := x2) ?_ (fun h4 => ?_)
  · unfold x2
    refine Only.via (Only.set_mon _ _) rfl ?_
    exact Only.refl _ _
  refine Only.cut (t := x3) ?_ (fun h5 => ?_)
  · unfold x3
    refine Only.via (State.monEvent_only _ _ _) rfl ?_
    exact h4
  refine Only.via (State.emit_only _ _) rfl ?_
  refine Only.via (State.emit_only _ _) rfl ?_
  exact h5

theorem State.startSlot_only : ∀ s a1 a2, Only [.boot, .fw] s (State.startSlot s a1 a2) := by
  intro s a1 a2
  unfold State.startSlot
  extract_lets x1 x2 x3 x4 x5 x6
  refine Only.via (Only.set_boot_fw _ _ _) rfl ?_
  exact Only.refl _ _

theorem State.chooseSlot_only : ∀ s a1, Only [.out, .tm, .hlt, .boot, .log, .nvm, .fw, .nvs, .sec, .inst, .fn, .cmds, .oldOps, .due, .reads, .fss, .sea, .fetches, .drives, .pwb, .cal, .mon] s (State.chooseSlot s a1) := by
  intro s a1
  unfold State.chooseSlot
  extract_lets x1 x2 x3 x4 x5
  refine Only.cut (t := x3) ?_ (fun h6 => ?_)
  · unfold x3
    refine Only.ite (fun _ => ?_) (fun _ => ?_)
    · refine Only.via (State.writeSlot_only _ _) rfl ?_
      exact Only.refl _ _
    · refine Only.ite (fun _ => ?_) (fun _ => ?_)
      · refine Only.via (State.writeSlot_only _ _) rfl ?_
        exact Only.refl _ _
      · exact Only.refl _ _
  refine Only.cut (t := x5) ?_ (fun h7 => ?_)
  · unfold x5
    refine Only.ite (fun _ => ?_) (fun _ => ?_)
    · refine Only.via (State.startSlot_only _ _ _) rfl ?_
      exact h6
    · refine Only.ite (fun _ => ?_) (fun _ => ?_)
      · refine Only.via (State.note_only _ _ _) rfl ?_
        refine Only.via (State.startSlot_only _ _ _) rfl ?_
        exact h6
      · refine Only.via (State.haltBy_only _ _) rfl ?_
        exact h6
  refine Only.ite (fun _ => ?_) (fun _ => ?_)
  · refine Only.via (State.note_only _ _ _) rfl ?_
    exact h7
  · exact h7

theorem State.loadSettings_only : ∀ s, Only [.out, .tm, .hlt, .log, .nvm, .nvs, .sec, .inst, .fn, .cmds, .oldOps, .due, .reads, .fss, .sea, .fetches, .drives, .pwb, .cal, .mon] s (State.loadSettings s) := by
  intro s
  unfold State.loadSettings
  extract_lets x1 x2 x3
  refine Only.ite (fun _ => ?_) (fun _ => ?_)
  · refine Only.via (State.note_only _ _ _) rfl ?_
    refine Only.via (Only.set_nvs _ _) rfl ?_
    exact Only.refl _ _
  · split
    · rename_i y4 y5 y6 y7 y8
      refine Only.via (State.takeCopy_only _ _ _) rfl ?_
      exact Only.refl _ _
    · rename_i y9 y10 y11
      refine Only.via (State.haltBy_only _ _) rfl ?_
      exact Only.refl _ _

theorem State.applySettings_only : ∀ s, Only [.out, .regs, .nextSet, .liveSet, .prevSet, .epoch, .log, .nvm, .nvs, .link, .fn] s (State.applySettings s) := by
  intro s
  unfold State.applySettings
  extract_lets x1 x2 x3 x4
  refine Only.cut (t := x3) ?_ (fun h5 => ?_)
  · unfold x3
    refine Only.via (Only.set_regs_nextSet_liveSet_prevSet_epoch _ _ _ _ _ _) rfl ?_
    exact Only.refl _ _
  split
  rename_i y6 y7 y8 y9
  extract_lets x10 x11
  refine Only.cut (t := x10) ?_ (fun h12 => ?_)
  · unfold x10
    refine Only.via (State.setReg_only _ _ _) rfl ?_
    exact h5
  refine Only.cut (t := x11) ?_ (fun h13 => ?_)
  · unfold x11
    refine Only.via (Only.set_link _ _) rfl ?_
    exact h12
  refine Only.forEach (fun a14 t15 h16 => ?_) ?_
  · refine Only.via (State.note_only _ _ _) rfl ?_
    exact h16
  · exact h13

theorem State.monitorItem_only : ∀ s, Only [.nvm, .nvs] s (State.monitorItem s) := by
  intro s
  unfold State.monitorItem
  split
  · rename_i y1 y2 y3
    extract_lets x4
    refine Only.ite (fun _ => ?_) (fun _ => ?_)
    · exact Only.refl _ _
    · refine Only.via (State.monStore_only _ _ _ _ _) rfl ?_
      exact Only.refl _ _
  · rename_i y5 y6
    exact Only.refl _ _

theorem State.laserStart_only : ∀ s, Only [.out] s (State.laserStart s) := by
  intro s
  unfold State.laserStart
  extract_lets x1
  refine Only.forBelow (fun a2 t3 h4 => ?_) ?_
  · refine Only.via (State.laserRead_only _ _) rfl ?_
    refine Only.forEach (fun a5 t6 h7 => ?_) ?_
    · refine Only.via (State.emit_only _ _) rfl ?_
      exact h7
    · exact h4
  · exact Only.refl _ _

theorem State.startItem_only : ∀ s a1 a2, Only [.out, .regs, .log, .nvm, .nvs, .inst, .fn, .fss, .arc, .drives, .cal] s (State.startItem s a1 a2) := by
  intro s a1 a2
  unfold State.startItem
  split
  · rename_i y1 y2
    refine Only.via (State.endItem_only _ _ _ _ _) rfl ?_
    exact Only.refl _ _
  · rename_i y3
    refine Only.via (State.calFailed_only _ _ _) rfl ?_
    exact Only.refl _ _

theorem State.stepCal_only : ∀ s a1, Only [.out, .regs, .log, .nvm, .nvs, .inst, .fn, .fss, .arc, .drives, .cal] s (State.stepCal s a1) := by
  intro s a1
  unfold State.stepCal
  extract_lets x1 x2 x3 x4
  refine Only.cut (t := x1) ?_ (fun h5 => ?_)
  · unfold x1
    refine Only.via (State.loadCal_only _) rfl ?_
    exact Only.refl _ _
  refine Only.cut (t := x3) ?_ (fun h6 => ?_)
  · unfold x3
    refine Only.ite (fun _ => ?_) (fun _ => ?_)
    · exact h5
    · refine Only.via (Only.set_cal _ _) rfl ?_
      exact h5
  refine Only.cut (t := x4) ?_ (fun h7 => ?_)
  · unfold x4
    refine Only.forBelow (fun a8 t9 h10 => ?_) ?_
    · refine Only.via (State.recompute_only _ _) rfl ?_
      exact h10
    · refine Only.via (State.recomputeDie_only _) rfl ?_
      exact h6
  refine Only.forEach (fun a11 t12 h13 => ?_) ?_
  · refine Only.via (State.startItem_only _ _ _) rfl ?_
    exact h13
  · exact h7

theorem State.refillLog_only : ∀ s a1, Only [.log] s (State.refillLog s a1) := by
  intro s a1
  unfold State.refillLog
  extract_lets x1 x2 x3 x4
  refine Only.via (Only.set_log _ _) rfl ?_
  exact Only.refl _ _

theorem State.monitorEvents_only : ∀ s, Only [.out, .log, .nvm, .nvs, .fn, .mon] s (State.monitorEvents s) := by
  intro s
  unfold State.monitorEvents
  extract_lets x1 x2
  refine Only.forEach (fun a3 t4 h5 => ?_) ?_
  · refine Only.via (State.note_only _ _ _) rfl ?_
    exact h5
  · refine Only.via (Only.set_mon _ _) rfl ?_
    exact Only.refl _ _

theorem State.stepDram_only : ∀ s a1, Only [.out, .free, .tm, .hlt, .boot, .log, .nvm, .nvs, .sec, .inst, .fn, .cmds, .oldOps, .due, .reads, .fss, .sea, .fetches, .arc, .drives, .pwb, .cal, .mon] s (State.stepDram s a1) := by
  intro s a1
  unfold State.stepDram
  split
  · rename_i y1 y2
    refine Only.withRandom (fun t3 h4 => ?_) rfl ?_
    · extract_lets x5 x6 x7 x8
      refine Only.cut (t := x5) ?_ (fun h9 => ?_)
      · unfold x5
        refine Only.via (State.monitorEvents_only _) rfl ?_
        exact h4
      refine Only.cut (t := x7) ?_ (fun h10 => ?_)
      · unfold x7
        refine Only.via (Only.set_boot _ _) rfl ?_
        exact h9
      refine Only.via (State.drawLineKeys_only _) rfl ?_
      refine Only.via (Only.set_sea _ _) rfl ?_
      exact h10
    · exact Only.refl _ _
  · rename_i y11
    extract_lets x12 x13 x14 x15 x16
    refine Only.cut (t := x12) ?_ (fun h17 => ?_)
    · unfold x12
      refine Only.via (State.monitorEvents_only _) rfl ?_
      exact Only.refl _ _
    refine Only.cut (t := x14) ?_ (fun h18 => ?_)
    · unfold x14
      refine Only.via (Only.set_boot _ _) rfl ?_
      exact h17
    refine Only.via (State.refillLog_only _ _) rfl ?_
    refine Only.via (State.note_only _ _ _) rfl ?_
    refine Only.via (Only.set_boot_arc _ _ _) rfl ?_
    exact h18

theorem State.bootFirst_only : ∀ s a1, Only [.out, .free, .tm, .hlt, .boot, .log, .nvm, .nvs, .sec, .inst, .fn, .cmds, .oldOps, .due, .reads, .fss, .sea, .fetches, .drives, .clk, .pwb, .cal, .mon] s (State.bootFirst s a1) := by
  intro s a1
  unfold State.bootFirst
  extract_lets x1 x2 x3 x4 x5 x6 x7 x8 x9
  refine Only.cut (t := x1) ?_ (fun h10 => ?_)
  · unfold x1
    refine Only.via (State.readCells_only _ _) rfl ?_
    refine Only.via (State.stepClocks_only _) rfl ?_
    exact Only.refl _ _
  refine Only.cut (t := x3) ?_ (fun h11 => ?_)
  · unfold x3
    refine Only.via (Only.set_boot _ _) rfl ?_
    exact h10
  refine Only.cut (t := x4) ?_ (fun h12 => ?_)
  · unfold x4
    refine Only.ite (fun _ => ?_) (fun _ => ?_)
    · refine Only.via (State.revoke_only _) rfl ?_
      exact h11
    · exact h11
  refine Only.cut (t := x5) ?_ (fun h13 => ?_)
  · unfold x5
    refine Only.via (State.chooseRoot_only _) rfl ?_
    exact h12
  refine Only.cut (t := x6) ?_ (fun h14 => ?_)
  · unfold x6
    refine Only.ite (fun _ => ?_) (fun _ => ?_)
    · refine Only.via (State.quarantineStep_only _) rfl ?_
      refine Only.via (State.checkCounters_only _) rfl ?_
      exact h13
    · exact h13
  refine Only.cut (t := x8) ?_ (fun h15 => ?_)
  · unfold x8
    refine Only.via (State.stepTests_only _ _) rfl ?_
    refine Only.via (Only.set_boot _ _) rfl ?_
    exact h14
  refine Only.ite (fun _ => ?_) (fun _ => ?_)
  · exact h14
  · refine Only.ite (fun _ => ?_) (fun _ => ?_)
    · refine Only.via (Only.set_boot _ _) rfl ?_
      exact h15
    · exact h15

theorem State.bootSecond_only : ∀ s a1, Only [.out, .free, .regs, .nextSet, .liveSet, .prevSet, .epoch, .tm, .hlt, .boot, .log, .nvm, .fw, .nvs, .link, .sec, .inst, .fn, .cmds, .oldOps, .due, .reads, .fss, .sea, .fetches, .arc, .drives, .pwb, .cal, .mon] s (State.bootSecond s a1) := by
  intro s a1
  unfold State.bootSecond
  extract_lets x1 x2 x3 x4 x5 x6 x7 x8 x9
  refine Only.cut (t := x1) ?_ (fun h10 => ?_)
  · unfold x1
    refine Only.via (State.chooseSlot_only _ _) rfl ?_
    exact Only.refl _ _
  refine Only.cut (t := x3) ?_ (fun h11 => ?_)
  · unfold x3
    refine Only.via (State.loadSettings_only _) rfl ?_
    refine Only.via (Only.set_boot _ _) rfl ?_
    exact h10
  refine Only.cut (t := x4) ?_ (fun h12 => ?_)
  · unfold x4
    refine Only.via (State.laserStart_only _) rfl ?_
    refine Only.via (State.monitorItem_only _) rfl ?_
    refine Only.via (State.applySettings_only _) rfl ?_
    exact h11
  refine Only.cut (t := x7) ?_ (fun h13 => ?_)
  · unfold x7
    refine Only.via (Only.set_boot_pwb _ _ _) rfl ?_
    exact h12
  refine Only.cut (t := x8) ?_ (fun h14 => ?_)
  · unfold x8
    refine Only.via (State.stepCal_only _ _) rfl ?_
    exact h13
  refine Only.ite (fun _ => ?_) (fun _ => ?_)
  · exact h10
  · refine Only.ite (fun _ => ?_) (fun _ => ?_)
    · exact h11
    · refine Only.via (State.stepDram_only _ _) rfl ?_
      refine Only.via (Only.set_boot _ _) rfl ?_
      exact h14

theorem State.bootThird_only : ∀ s a1, Only [.out, .regs, .nextSet, .liveSet, .prevSet, .boot, .log, .nvm, .nvs, .inst, .fn, .cmds, .due, .fss, .sea, .mch, .fetches, .arc, .rate] s (State.bootThird s a1) := by
  intro s a1
  unfold State.bootThird
  extract_lets x1 x2 x3 x4 x5 x6
  refine Only.cut (t := x1) ?_ (fun h7 => ?_)
  · unfold x1
    refine Only.via (State.identify_only _ _) rfl ?_
    exact Only.refl _ _
  refine Only.cut (t := x3) ?_ (fun h8 => ?_)
  · unfold x3
    refine Only.ite (fun _ => ?_) (fun _ => ?_)
    · refine Only.via (State.unmounted_only _) rfl ?_
      exact h7
    · refine Only.via (State.mapStep_only _ _) rfl ?_
      refine Only.via (State.refillLog_only _ _) rfl ?_
      refine Only.via (Only.set_boot _ _) rfl ?_
      exact h7
  refine Only.via (Only.set_boot_fss _ _ _) rfl ?_
  exact h8

theorem execStartupSequence_only : ∀ a0 s z, Only [.out, .free, .regs, .nextSet, .liveSet, .prevSet, .epoch, .tm, .hlt, .boot, .log, .nvm, .fw, .nvs, .link, .sec, .inst, .fn, .cmds, .oldOps, .due, .reads, .fss, .sea, .mch, .fetches, .arc, .drives, .clk, .pwb, .cal, .mon, .rate] s (runRow (execStartupSequence a0 s) z) := by
  intro a0 s z
  unfold execStartupSequence
  rw [runRow_next]
  refine Only.whenRunning (fun t1 h2 => ?_) ?_
  · refine Only.ite (fun _ => ?_) (fun _ => ?_)
    · exact h2
    · refine Only.ite (fun _ => ?_) (fun _ => ?_)
      · extract_lets x3 x4 x5 x6 x7 x8 x9 x10
        refine Only.cut (t := x10) ?_ (fun h11 => ?_)
        · unfold x10
          refine Only.via (State.bootFirst_only _ _) rfl ?_
          exact h2
        refine Only.ite (fun _ => ?_) (fun _ => ?_)
        · exact h11
        · refine Only.ite (fun _ => ?_) (fun _ => ?_)
          · refine Only.via (State.enterMonitor_only _) rfl ?_
            exact h11
          · refine Only.via (State.bootSecond_only _ _) rfl ?_
            exact h11
      · refine Only.ite (fun _ => ?_) (fun _ => ?_)
        · refine Only.via (State.bootSecond_only _ _) rfl ?_
          exact h2
        · refine Only.ite (fun _ => ?_) (fun _ => ?_)
          · refine Only.via (State.stepDram_only _ _) rfl ?_
            exact h2
          · refine Only.ite (fun _ => ?_) (fun _ => ?_)
            · refine Only.ite (fun _ => ?_) (fun _ => ?_)
              · refine Only.withRandom (fun t12 h13 => ?_) rfl ?_
                · refine Only.via (State.bootThird_only _ _) rfl ?_
                  exact h13
                · exact h2
              · refine Only.via (State.bootThird_only _ _) rfl ?_
                exact h2
            · exact h2
  · exact Only.refl _ _

theorem execSweepWatermark_only : ∀ a0 s z, Only [.sea] s (runRow (execSweepWatermark a0 s) z) := by
  intro a0 s z
  unfold execSweepWatermark
  rw [runRow_next]
  refine Only.whenRunning (fun t1 h2 => ?_) ?_
  · refine Only.ite (fun _ => ?_) (fun _ => ?_)
    · refine Only.via (Only.set_sea _ _) rfl ?_
      exact h2
    · exact h2
  · exact Only.refl _ _

theorem execSweepComplete_only : ∀ s z, Only [.boot, .sea] s (runRow (execSweepComplete s) z) := by
  intro s z
  unfold execSweepComplete
  rw [runRow_next]
  refine Only.whenRunning (fun t1 h2 => ?_) ?_
  · refine Only.ite (fun _ => ?_) (fun _ => ?_)
    · refine Only.via (Only.set_boot_sea _ _ _) rfl ?_
      exact h2
    · exact h2
  · exact Only.refl _ _

theorem State.endTrial_only : ∀ s, Only [.nvm, .nvs] s (State.endTrial s) := by
  intro s
  unfold State.endTrial
  extract_lets x1
  refine Only.ite (fun _ => ?_) (fun _ => ?_)
  · refine Only.via (State.ctrRaise_only _ _ _) rfl ?_
    refine Only.via (State.writeSlot_only _ _) rfl ?_
    exact Only.refl _ _
  · exact Only.refl _ _

theorem execFirstReadyState_only : ∀ s z, Only [.out, .boot, .log, .nvm, .nvs, .inst, .fn, .fss, .arc, .drives] s (runRow (execFirstReadyState s) z) := by
  intro s z
  unfold execFirstReadyState
  rw [runRow_next]
  refine Only.whenRunning (fun t1 h2 => ?_) ?_
  · refine Only.ite (fun _ => ?_) (fun _ => ?_)
    · exact h2
    · extract_lets x3 x4 x5 x6 x7
      refine Only.cut (t := x3) ?_ (fun h8 => ?_)
      · unfold x3
        refine Only.via (State.endTrial_only _) rfl ?_
        exact h2
      refine Only.cut (t := x6) ?_ (fun h9 => ?_)
      · unfold x6
        refine Only.via (State.note_only _ _ _) rfl ?_
        exact h8
      refine Only.via (State.settle_only _) rfl ?_
      refine Only.via (Only.set_boot _ _) rfl ?_
      exact h9
  · exact Only.refl _ _

theorem State.withFetchWord_only : ∀ s a1 a2, Only [.pending] s (State.withFetchWord s a1 a2) := by
  intro s a1 a2
  unfold State.withFetchWord
  split
  · rename_i y1 y2 y3
    refine Only.via (Only.set_pending _ _) rfl ?_
    exact Only.refl _ _
  · rename_i y4 y5
    exact Only.refl _ _

end Sys2Proof.Machine
end

