-- ==== Sys2Proof/Laws/Canon.lean ====
section
/-! SUPPORT. The canonical form of the tables is kept: the rules of `Keeps`, by the shape of a definition. -/

namespace Sys2Proof.Machine

/-- An effect that keeps the canonical form. -/
def Keeps (s t : State) : Prop := s.Canon → t.Canon

theorem Keeps.refl (s : State) : Keeps s s := fun h => h

theorem Keeps.via {s t u : State} (h : Keeps t u) (h0 : Keeps s t) : Keeps s u := fun c => h (h0 c)

theorem Keeps.trans {s t u : State} (h : Keeps s t) (k : Keeps t u) : Keeps s u := fun c => k (h c)

theorem Keeps.cut {s t u : State} (h : Keeps s t) (k : Keeps s t → Keeps s u) : Keeps s u := k h

/-- A field outside the frame of an effect holds what it held. -/
theorem Only.at {l : List StateField} {s t : State} (h : Only l s t) (f : StateField) (hf : l.elem f = false) : s.agree t f :=
  h f (fun hm => by rw [List.elem_eq_contains, List.contains_iff_mem.mpr hm] at hf; cases hf)

/-- An effect whose frame holds none of the tables. -/
theorem Keeps.ofOnly {l : List StateField} {s t : State} (h : Only l s t)
    (hl : ([.nvm, .mon, .fss, .inst, .fn, .regs].any (fun f => l.elem f)) = false) : Keeps s t := by
  simp only [List.any_cons, List.any_nil, Bool.or_false, Bool.or_eq_false_iff] at hl
  obtain ⟨h1, h2, h3, h4, h5, h6⟩ := hl
  have e1 : t.nvm = s.nvm := h.at .nvm h1
  have e2 : t.mon = s.mon := h.at .mon h2
  have e3 : t.fss = s.fss := h.at .fss h3
  have e4 : t.inst = s.inst := h.at .inst h4
  have e5 : t.fn = s.fn := h.at .fn h5
  have e6 : t.regs = s.regs := h.at .regs h6
  intro c
  exact ⟨e1 ▸ c.nvm, e2 ▸ c.sram, e3 ▸ c.units, e3 ▸ c.root, e3 ▸ c.nextRoot, e4 ▸ c.inst, e5 ▸ c.fn, e6 ▸ c.regs⟩

theorem Keeps.set_arc (t : State) (v0) :
    Keeps t { t with arc := v0 } := fun c => ⟨c.nvm, c.sram, c.units, c.root, c.nextRoot, c.inst, c.fn, c.regs⟩

theorem Keeps.set_boot (t : State) (v0) :
    Keeps t { t with boot := v0 } := fun c => ⟨c.nvm, c.sram, c.units, c.root, c.nextRoot, c.inst, c.fn, c.regs⟩

theorem Keeps.set_boot_arc (t : State) (v0) (v1) :
    Keeps t { t with boot := v0, arc := v1 } := fun c => ⟨c.nvm, c.sram, c.units, c.root, c.nextRoot, c.inst, c.fn, c.regs⟩

theorem Keeps.set_boot_fss (t : State) (v0) (v1) (hu : v1.units = t.fss.units) (hr : v1.root = t.fss.root) (hw : v1.rootWait = t.fss.rootWait) :
    Keeps t { t with boot := v0, fss := v1 } := fun c => ⟨c.nvm, c.sram, show Bank.wf unitDef v1.units = true from hu ▸ c.units, fun r e => c.root r (hr ▸ e), fun w e => c.nextRoot w (hw ▸ e), c.inst, c.fn, c.regs⟩

theorem Keeps.set_boot_fw (t : State) (v0) (v1) :
    Keeps t { t with boot := v0, fw := v1 } := fun c => ⟨c.nvm, c.sram, c.units, c.root, c.nextRoot, c.inst, c.fn, c.regs⟩

theorem Keeps.set_boot_pwb (t : State) (v0) (v1) :
    Keeps t { t with boot := v0, pwb := v1 } := fun c => ⟨c.nvm, c.sram, c.units, c.root, c.nextRoot, c.inst, c.fn, c.regs⟩

theorem Keeps.set_boot_sea (t : State) (v0) (v1) :
    Keeps t { t with boot := v0, sea := v1 } := fun c => ⟨c.nvm, c.sram, c.units, c.root, c.nextRoot, c.inst, c.fn, c.regs⟩

theorem Keeps.set_cal (t : State) (v0) :
    Keeps t { t with cal := v0 } := fun c => ⟨c.nvm, c.sram, c.units, c.root, c.nextRoot, c.inst, c.fn, c.regs⟩

theorem Keeps.set_clk (t : State) (v0) :
    Keeps t { t with clk := v0 } := fun c => ⟨c.nvm, c.sram, c.units, c.root, c.nextRoot, c.inst, c.fn, c.regs⟩

theorem Keeps.set_cmds (t : State) (v0) :
    Keeps t { t with cmds := v0 } := fun c => ⟨c.nvm, c.sram, c.units, c.root, c.nextRoot, c.inst, c.fn, c.regs⟩

theorem Keeps.set_cmds_nextCmd_clk (t : State) (v0) (v1) (v2) :
    Keeps t { t with cmds := v0, nextCmd := v1, clk := v2 } := fun c => ⟨c.nvm, c.sram, c.units, c.root, c.nextRoot, c.inst, c.fn, c.regs⟩

theorem Keeps.set_dbErr (t : State) (v0) :
    Keeps t { t with dbErr := v0 } := fun c => ⟨c.nvm, c.sram, c.units, c.root, c.nextRoot, c.inst, c.fn, c.regs⟩

theorem Keeps.set_drives (t : State) (v0) :
    Keeps t { t with drives := v0 } := fun c => ⟨c.nvm, c.sram, c.units, c.root, c.nextRoot, c.inst, c.fn, c.regs⟩

theorem Keeps.set_drives_pwb_cal_mon (t : State) (v0) (v1) (v2) (v3) (hm : v3.sram = t.mon.sram) :
    Keeps t { t with drives := v0, pwb := v1, cal := v2, mon := v3 } := fun c => ⟨c.nvm, show Bank.wf wordDef v3.sram = true from hm ▸ c.sram, c.units, c.root, c.nextRoot, c.inst, c.fn, c.regs⟩

theorem Keeps.set_due (t : State) (v0) :
    Keeps t { t with due := v0 } := fun c => ⟨c.nvm, c.sram, c.units, c.root, c.nextRoot, c.inst, c.fn, c.regs⟩

theorem Keeps.set_due_reads (t : State) (v0) (v1) :
    Keeps t { t with due := v0, reads := v1 } := fun c => ⟨c.nvm, c.sram, c.units, c.root, c.nextRoot, c.inst, c.fn, c.regs⟩

theorem Keeps.set_epoch (t : State) (v0) :
    Keeps t { t with epoch := v0 } := fun c => ⟨c.nvm, c.sram, c.units, c.root, c.nextRoot, c.inst, c.fn, c.regs⟩

theorem Keeps.set_fetches (t : State) (v0) :
    Keeps t { t with fetches := v0 } := fun c => ⟨c.nvm, c.sram, c.units, c.root, c.nextRoot, c.inst, c.fn, c.regs⟩

theorem Keeps.set_fn (t : State) (v0) (hfn : t.Canon → Bank.wf fnDef v0 = true) :
    Keeps t { t with fn := v0 } := fun c => ⟨c.nvm, c.sram, c.units, c.root, c.nextRoot, c.inst, hfn c, c.regs⟩

theorem Keeps.set_free (t : State) (v0) :
    Keeps t { t with free := v0 } := fun c => ⟨c.nvm, c.sram, c.units, c.root, c.nextRoot, c.inst, c.fn, c.regs⟩

theorem Keeps.set_fss (t : State) (v0) (hu : v0.units = t.fss.units) (hr : v0.root = t.fss.root) (hw : v0.rootWait = t.fss.rootWait) :
    Keeps t { t with fss := v0 } := fun c => ⟨c.nvm, c.sram, show Bank.wf unitDef v0.units = true from hu ▸ c.units, fun r e => c.root r (hr ▸ e), fun w e => c.nextRoot w (hw ▸ e), c.inst, c.fn, c.regs⟩

theorem Keeps.set_fss_arc (t : State) (v0) (v1) (hu : v0.units = t.fss.units) (hr : v0.root = t.fss.root) (hw : v0.rootWait = t.fss.rootWait) :
    Keeps t { t with fss := v0, arc := v1 } := fun c => ⟨c.nvm, c.sram, show Bank.wf unitDef v0.units = true from hu ▸ c.units, fun r e => c.root r (hr ▸ e), fun w e => c.nextRoot w (hw ▸ e), c.inst, c.fn, c.regs⟩

theorem Keeps.set_fss_mch (t : State) (v0) (v1) (hu : v0.units = t.fss.units) (hr : v0.root = t.fss.root) (hw : v0.rootWait = t.fss.rootWait) :
    Keeps t { t with fss := v0, mch := v1 } := fun c => ⟨c.nvm, c.sram, show Bank.wf unitDef v0.units = true from hu ▸ c.units, fun r e => c.root r (hr ▸ e), fun w e => c.nextRoot w (hw ▸ e), c.inst, c.fn, c.regs⟩

theorem Keeps.set_fss_pwb (t : State) (v0) (v1) (hu : v0.units = t.fss.units) (hr : v0.root = t.fss.root) (hw : v0.rootWait = t.fss.rootWait) :
    Keeps t { t with fss := v0, pwb := v1 } := fun c => ⟨c.nvm, c.sram, show Bank.wf unitDef v0.units = true from hu ▸ c.units, fun r e => c.root r (hr ▸ e), fun w e => c.nextRoot w (hw ▸ e), c.inst, c.fn, c.regs⟩

theorem Keeps.set_fw (t : State) (v0) :
    Keeps t { t with fw := v0 } := fun c => ⟨c.nvm, c.sram, c.units, c.root, c.nextRoot, c.inst, c.fn, c.regs⟩

theorem Keeps.set_hlt (t : State) (v0) :
    Keeps t { t with hlt := v0 } := fun c => ⟨c.nvm, c.sram, c.units, c.root, c.nextRoot, c.inst, c.fn, c.regs⟩

theorem Keeps.set_hlt_clk_vsel (t : State) (v0) (v1) (v2) :
    Keeps t { t with hlt := v0, clk := v1, vsel := v2 } := fun c => ⟨c.nvm, c.sram, c.units, c.root, c.nextRoot, c.inst, c.fn, c.regs⟩

theorem Keeps.set_hlt_log_fw_nvs_fss_sea_arc (t : State) (v0) (v1) (v2) (v3) (v4) (v5) (v6) (hu : v4.units = t.fss.units) (hr : v4.root = t.fss.root) (hw : v4.rootWait = t.fss.rootWait) :
    Keeps t { t with hlt := v0, log := v1, fw := v2, nvs := v3, fss := v4, sea := v5, arc := v6 } := fun c => ⟨c.nvm, c.sram, show Bank.wf unitDef v4.units = true from hu ▸ c.units, fun r e => c.root r (hr ▸ e), fun w e => c.nextRoot w (hw ▸ e), c.inst, c.fn, c.regs⟩

theorem Keeps.set_hlt_sea (t : State) (v0) (v1) :
    Keeps t { t with hlt := v0, sea := v1 } := fun c => ⟨c.nvm, c.sram, c.units, c.root, c.nextRoot, c.inst, c.fn, c.regs⟩

theorem Keeps.set_inp (t : State) (v0) :
    Keeps t { t with inp := v0 } := fun c => ⟨c.nvm, c.sram, c.units, c.root, c.nextRoot, c.inst, c.fn, c.regs⟩

theorem Keeps.set_inst (t : State) (v0) (hinst : t.Canon → Bank.wf instDef v0 = true) :
    Keeps t { t with inst := v0 } := fun c => ⟨c.nvm, c.sram, c.units, c.root, c.nextRoot, hinst c, c.fn, c.regs⟩

theorem Keeps.set_inst_fss (t : State) (v0) (v1) (hinst : t.Canon → Bank.wf instDef v0 = true) (hu : v1.units = t.fss.units) (hr : v1.root = t.fss.root) (hw : v1.rootWait = t.fss.rootWait) :
    Keeps t { t with inst := v0, fss := v1 } := fun c => ⟨c.nvm, c.sram, show Bank.wf unitDef v1.units = true from hu ▸ c.units, fun r e => c.root r (hr ▸ e), fun w e => c.nextRoot w (hw ▸ e), hinst c, c.fn, c.regs⟩

theorem Keeps.set_inst_fss_arc (t : State) (v0) (v1) (v2) (hinst : t.Canon → Bank.wf instDef v0 = true) (hu : v1.units = t.fss.units) (hr : v1.root = t.fss.root) (hw : v1.rootWait = t.fss.rootWait) :
    Keeps t { t with inst := v0, fss := v1, arc := v2 } := fun c => ⟨c.nvm, c.sram, show Bank.wf unitDef v1.units = true from hu ▸ c.units, fun r e => c.root r (hr ▸ e), fun w e => c.nextRoot w (hw ▸ e), hinst c, c.fn, c.regs⟩

theorem Keeps.set_lastFn (t : State) (v0) :
    Keeps t { t with lastFn := v0 } := fun c => ⟨c.nvm, c.sram, c.units, c.root, c.nextRoot, c.inst, c.fn, c.regs⟩

theorem Keeps.set_latches (t : State) (v0) :
    Keeps t { t with latches := v0 } := fun c => ⟨c.nvm, c.sram, c.units, c.root, c.nextRoot, c.inst, c.fn, c.regs⟩

theorem Keeps.set_lateOpens (t : State) (v0) :
    Keeps t { t with lateOpens := v0 } := fun c => ⟨c.nvm, c.sram, c.units, c.root, c.nextRoot, c.inst, c.fn, c.regs⟩

theorem Keeps.set_link (t : State) (v0) :
    Keeps t { t with link := v0 } := fun c => ⟨c.nvm, c.sram, c.units, c.root, c.nextRoot, c.inst, c.fn, c.regs⟩

theorem Keeps.set_link_pwb_cal (t : State) (v0) (v1) (v2) :
    Keeps t { t with link := v0, pwb := v1, cal := v2 } := fun c => ⟨c.nvm, c.sram, c.units, c.root, c.nextRoot, c.inst, c.fn, c.regs⟩

theorem Keeps.set_link_sec (t : State) (v0) (v1) :
    Keeps t { t with link := v0, sec := v1 } := fun c => ⟨c.nvm, c.sram, c.units, c.root, c.nextRoot, c.inst, c.fn, c.regs⟩

theorem Keeps.set_link_sec_fn (t : State) (v0) (v1) (v2) (hfn : t.Canon → Bank.wf fnDef v2 = true) :
    Keeps t { t with link := v0, sec := v1, fn := v2 } := fun c => ⟨c.nvm, c.sram, c.units, c.root, c.nextRoot, c.inst, hfn c, c.regs⟩

theorem Keeps.set_liveSet (t : State) (v0) :
    Keeps t { t with liveSet := v0 } := fun c => ⟨c.nvm, c.sram, c.units, c.root, c.nextRoot, c.inst, c.fn, c.regs⟩

theorem Keeps.set_log (t : State) (v0) :
    Keeps t { t with log := v0 } := fun c => ⟨c.nvm, c.sram, c.units, c.root, c.nextRoot, c.inst, c.fn, c.regs⟩

theorem Keeps.set_log_fss (t : State) (v0) (v1) (hu : v1.units = t.fss.units) (hr : v1.root = t.fss.root) (hw : v1.rootWait = t.fss.rootWait) :
    Keeps t { t with log := v0, fss := v1 } := fun c => ⟨c.nvm, c.sram, show Bank.wf unitDef v1.units = true from hu ▸ c.units, fun r e => c.root r (hr ▸ e), fun w e => c.nextRoot w (hw ▸ e), c.inst, c.fn, c.regs⟩

theorem Keeps.set_mch (t : State) (v0) :
    Keeps t { t with mch := v0 } := fun c => ⟨c.nvm, c.sram, c.units, c.root, c.nextRoot, c.inst, c.fn, c.regs⟩

theorem Keeps.set_mon (t : State) (v0) (hm : v0.sram = t.mon.sram) :
    Keeps t { t with mon := v0 } := fun c => ⟨c.nvm, show Bank.wf wordDef v0.sram = true from hm ▸ c.sram, c.units, c.root, c.nextRoot, c.inst, c.fn, c.regs⟩

theorem Keeps.set_nextCmd_due (t : State) (v0) (v1) :
    Keeps t { t with nextCmd := v0, due := v1 } := fun c => ⟨c.nvm, c.sram, c.units, c.root, c.nextRoot, c.inst, c.fn, c.regs⟩

theorem Keeps.set_nextSet_liveSet_prevSet (t : State) (v0) (v1) (v2) :
    Keeps t { t with nextSet := v0, liveSet := v1, prevSet := v2 } := fun c => ⟨c.nvm, c.sram, c.units, c.root, c.nextRoot, c.inst, c.fn, c.regs⟩

theorem Keeps.set_nextSet_prevSet_epoch (t : State) (v0) (v1) (v2) :
    Keeps t { t with nextSet := v0, prevSet := v1, epoch := v2 } := fun c => ⟨c.nvm, c.sram, c.units, c.root, c.nextRoot, c.inst, c.fn, c.regs⟩

theorem Keeps.set_nvm_nvs (t : State) (v0) (v1) (hnvm : t.Canon → Bank.wf nvmDef v0 = true) :
    Keeps t { t with nvm := v0, nvs := v1 } := fun c => ⟨hnvm c, c.sram, c.units, c.root, c.nextRoot, c.inst, c.fn, c.regs⟩

theorem Keeps.set_nvs (t : State) (v0) :
    Keeps t { t with nvs := v0 } := fun c => ⟨c.nvm, c.sram, c.units, c.root, c.nextRoot, c.inst, c.fn, c.regs⟩

theorem Keeps.set_oldOps (t : State) (v0) :
    Keeps t { t with oldOps := v0 } := fun c => ⟨c.nvm, c.sram, c.units, c.root, c.nextRoot, c.inst, c.fn, c.regs⟩

theorem Keeps.set_out (t : State) (v0) :
    Keeps t { t with out := v0 } := fun c => ⟨c.nvm, c.sram, c.units, c.root, c.nextRoot, c.inst, c.fn, c.regs⟩

theorem Keeps.set_pending (t : State) (v0) :
    Keeps t { t with pending := v0 } := fun c => ⟨c.nvm, c.sram, c.units, c.root, c.nextRoot, c.inst, c.fn, c.regs⟩

theorem Keeps.set_pwb (t : State) (v0) :
    Keeps t { t with pwb := v0 } := fun c => ⟨c.nvm, c.sram, c.units, c.root, c.nextRoot, c.inst, c.fn, c.regs⟩

theorem Keeps.set_rate (t : State) (v0) :
    Keeps t { t with rate := v0 } := fun c => ⟨c.nvm, c.sram, c.units, c.root, c.nextRoot, c.inst, c.fn, c.regs⟩

theorem Keeps.set_reads (t : State) (v0) :
    Keeps t { t with reads := v0 } := fun c => ⟨c.nvm, c.sram, c.units, c.root, c.nextRoot, c.inst, c.fn, c.regs⟩

theorem Keeps.set_reads_fss_fetches (t : State) (v0) (v1) (v2) (hu : v1.units = t.fss.units) (hr : v1.root = t.fss.root) (hw : v1.rootWait = t.fss.rootWait) :
    Keeps t { t with reads := v0, fss := v1, fetches := v2 } := fun c => ⟨c.nvm, c.sram, show Bank.wf unitDef v1.units = true from hu ▸ c.units, fun r e => c.root r (hr ▸ e), fun w e => c.nextRoot w (hw ▸ e), c.inst, c.fn, c.regs⟩

theorem Keeps.set_reads_nextTag (t : State) (v0) (v1) :
    Keeps t { t with reads := v0, nextTag := v1 } := fun c => ⟨c.nvm, c.sram, c.units, c.root, c.nextRoot, c.inst, c.fn, c.regs⟩

theorem Keeps.set_regs (t : State) (v0) (hregs : t.Canon → Bank.wf regReset v0 = true) :
    Keeps t { t with regs := v0 } := fun c => ⟨c.nvm, c.sram, c.units, c.root, c.nextRoot, c.inst, c.fn, hregs c⟩

theorem Keeps.set_regs_latches_link (t : State) (v0) (v1) (v2) (hregs : t.Canon → Bank.wf regReset v0 = true) :
    Keeps t { t with regs := v0, latches := v1, link := v2 } := fun c => ⟨c.nvm, c.sram, c.units, c.root, c.nextRoot, c.inst, c.fn, hregs c⟩

theorem Keeps.set_regs_nextSet_liveSet (t : State) (v0) (v1) (v2) (hregs : t.Canon → Bank.wf regReset v0 = true) :
    Keeps t { t with regs := v0, nextSet := v1, liveSet := v2 } := fun c => ⟨c.nvm, c.sram, c.units, c.root, c.nextRoot, c.inst, c.fn, hregs c⟩

theorem Keeps.set_regs_nextSet_liveSet_prevSet_epoch (t : State) (v0) (v1) (v2) (v3) (v4) (hregs : t.Canon → Bank.wf regReset v0 = true) :
    Keeps t { t with regs := v0, nextSet := v1, liveSet := v2, prevSet := v3, epoch := v4 } := fun c => ⟨c.nvm, c.sram, c.units, c.root, c.nextRoot, c.inst, c.fn, hregs c⟩

theorem Keeps.set_regs_nextSet_liveSet_prevSet_latches_epoch (t : State) (v0) (v1) (v2) (v3) (v4) (v5) (hregs : t.Canon → Bank.wf regReset v0 = true) :
    Keeps t { t with regs := v0, nextSet := v1, liveSet := v2, prevSet := v3, latches := v4, epoch := v5 } := fun c => ⟨c.nvm, c.sram, c.units, c.root, c.nextRoot, c.inst, c.fn, hregs c⟩

theorem Keeps.set_sea (t : State) (v0) :
    Keeps t { t with sea := v0 } := fun c => ⟨c.nvm, c.sram, c.units, c.root, c.nextRoot, c.inst, c.fn, c.regs⟩

theorem Keeps.set_sec (t : State) (v0) :
    Keeps t { t with sec := v0 } := fun c => ⟨c.nvm, c.sram, c.units, c.root, c.nextRoot, c.inst, c.fn, c.regs⟩

theorem Keeps.set_sec_inst_sea (t : State) (v0) (v1) (v2) (hinst : t.Canon → Bank.wf instDef v1 = true) :
    Keeps t { t with sec := v0, inst := v1, sea := v2 } := fun c => ⟨c.nvm, c.sram, c.units, c.root, c.nextRoot, hinst c, c.fn, c.regs⟩

theorem Keeps.set_sns (t : State) (v0) :
    Keeps t { t with sns := v0 } := fun c => ⟨c.nvm, c.sram, c.units, c.root, c.nextRoot, c.inst, c.fn, c.regs⟩

theorem Keeps.set_sqErr (t : State) (v0) :
    Keeps t { t with sqErr := v0 } := fun c => ⟨c.nvm, c.sram, c.units, c.root, c.nextRoot, c.inst, c.fn, c.regs⟩

theorem Keeps.set_stl (t : State) (v0) :
    Keeps t { t with stl := v0 } := fun c => ⟨c.nvm, c.sram, c.units, c.root, c.nextRoot, c.inst, c.fn, c.regs⟩

theorem Keeps.set_tm (t : State) (v0) :
    Keeps t { t with tm := v0 } := fun c => ⟨c.nvm, c.sram, c.units, c.root, c.nextRoot, c.inst, c.fn, c.regs⟩

theorem Keeps.set_tm_cmds_oldOps_due_reads_fss_fetches (t : State) (v0) (v1) (v2) (v3) (v4) (v5) (v6) (hu : v5.units = t.fss.units) (hr : v5.root = t.fss.root) (hw : v5.rootWait = t.fss.rootWait) :
    Keeps t { t with tm := v0, cmds := v1, oldOps := v2, due := v3, reads := v4, fss := v5, fetches := v6 } := fun c => ⟨c.nvm, c.sram, show Bank.wf unitDef v5.units = true from hu ▸ c.units, fun r e => c.root r (hr ▸ e), fun w e => c.nextRoot w (hw ▸ e), c.inst, c.fn, c.regs⟩

theorem Keeps.set_tm_hlt_link_sea_mch_drives_stl_inp_cal (t : State) (v0) (v1) (v2) (v3) (v4) (v5) (v6) (v7) (v8) :
    Keeps t { t with tm := v0, hlt := v1, link := v2, sea := v3, mch := v4, drives := v5, stl := v6, inp := v7, cal := v8 } := fun c => ⟨c.nvm, c.sram, c.units, c.root, c.nextRoot, c.inst, c.fn, c.regs⟩

theorem Keeps.set_tm_hlt_sec_reads (t : State) (v0) (v1) (v2) (v3) :
    Keeps t { t with tm := v0, hlt := v1, sec := v2, reads := v3 } := fun c => ⟨c.nvm, c.sram, c.units, c.root, c.nextRoot, c.inst, c.fn, c.regs⟩

theorem Keeps.set_tm_nvs_cal (t : State) (v0) (v1) (v2) :
    Keeps t { t with tm := v0, nvs := v1, cal := v2 } := fun c => ⟨c.nvm, c.sram, c.units, c.root, c.nextRoot, c.inst, c.fn, c.regs⟩

theorem Keeps.ite {s a b : State} {c : Prop} [Decidable c] (ha : c → Keeps s a) (hb : ¬c → Keeps s b) :
    Keeps s (if c then a else b) := by
  split
  · exact ha ‹_›
  · exact hb ‹_›

theorem Keeps.ofPair {α : Type} {s t : State} {a : α} {p : α × State} (e : p = (a, t)) (h : Keeps s p.2) :
    Keeps s t := by
  subst e
  exact h

theorem Keeps.forEach {α : Type} {s X : State} {xs : List α} {g : α → State → State}
    (hg : ∀ a t, Keeps s t → Keeps s (g a t)) (h : Keeps s X) : Keeps s (forEach xs g X) := by
  unfold Sys2Proof.Machine.forEach
  induction xs generalizing X with
  | nil => exact h
  | cons a r ih => exact ih (hg a X h)

theorem Keeps.forBelow {s X : State} {n : Nat} {g : Nat → State → State}
    (hg : ∀ a t, Keeps s t → Keeps s (g a t)) (h : Keeps s X) : Keeps s (forBelow n g X) := by
  induction n with
  | zero => exact h
  | succ k ih => exact hg k _ ih

theorem Keeps.foldl {α : Type} {s X : State} {xs : List α} {g : State → α → State}
    (hg : ∀ t a, Keeps s t → Keeps s (g t a)) (h : Keeps s X) : Keeps s (xs.foldl g X) := by
  induction xs generalizing X with
  | nil => exact h
  | cons a r ih => exact ih (hg X a h)

theorem Keeps.foldlSnd {α β : Type} {s : State} {p : β × State} {xs : List α} {g : β × State → α → β × State}
    (hg : ∀ t a, Keeps s t.2 → Keeps s (g t a).2) (h : Keeps s p.2) : Keeps s (xs.foldl g p).2 := by
  induction xs generalizing p with
  | nil => exact h
  | cons a r ih => exact ih (hg p a h)

theorem Keeps.foldlFst {α β : Type} {s : State} {p : State × β} {xs : List α} {g : State × β → α → State × β}
    (hg : ∀ t a, Keeps s t.1 → Keeps s (g t a).1) (h : Keeps s p.1) : Keeps s (xs.foldl g p).1 := by
  induction xs generalizing p with
  | nil => exact h
  | cons a r ih => exact ih (hg p a h)

theorem Keeps.ofPair2 {α β : Type} {s t : State} {a : α} {b : β} {p : α × β × State} (e : p = (a, b, t))
    (h : Keeps s p.2.2) : Keeps s t := by
  subst e
  exact h

theorem Keeps.ofPairFst {α : Type} {s t : State} {a : α} {p : State × α} (e : p = (t, a)) (h : Keeps s p.1) :
    Keeps s t := by
  subst e
  exact h

theorem Keeps.ofPairMid {α β : Type} {s t : State} {a : α} {b : β} {p : α × State × β} (e : p = (a, t, b))
    (h : Keeps s p.2.1) : Keeps s t := by
  subst e
  exact h

theorem Keeps.layersEach {α : Type} {s X : State} {xs : List α} {g : Nat → α → State → Bool × State}
    (hg : ∀ k a t, Keeps s t → Keeps s (g k a t).2) (h : Keeps s X) : Keeps s (layersEach g xs X).2 := by
  unfold Sys2Proof.Machine.layersEach
  exact Keeps.foldlSnd (fun p e hp => hg e.2 e.1 p.2 hp) h

theorem Keeps.writeWords {s : State} {w : Nat → Word → State → State}
    (hw : ∀ a v t, Keeps s t → Keeps s (w a v t)) : ∀ (n off : Nat) (data : List Byte) (X : State), Keeps s X →
    Keeps s (writeWords w n off data X) := by
  intro n
  induction n with
  | zero => exact fun _ _ _ h => h
  | succ n ih =>
    intro off data X h
    unfold Sys2Proof.Machine.writeWords
    split
    · exact h
    · exact ih _ _ _ (hw _ _ _ h)

theorem Keeps.writeBytes {s X : State} {w : Nat → Word → State → State} {err : State → State}
    {desc : Nat → Option RegDesc} {off : Nat} {data : List Byte} (hw : ∀ a v t, Keeps s t → Keeps s (w a v t))
    (he : ∀ t, Keeps s t → Keeps s (err t)) (h : Keeps s X) : Keeps s (X.writeBytes w err desc off data) := by
  unfold State.writeBytes
  split
  · exact Keeps.writeWords hw _ _ _ _ h
  · split
    · exact he _ h
    · exact h

theorem Keeps.whenServing {s X : State} {g : State → State} (hg : ∀ t, Keeps s t → Keeps s (g t)) (h : Keeps s X) :
    Keeps s (whenServing X g) := by
  unfold Sys2Proof.Machine.whenServing
  split
  · exact hg X h
  · exact h

theorem Keeps.whenRunning {s X : State} {g : State → State} (hg : ∀ t, Keeps s t → Keeps s (g t)) (h : Keeps s X) :
    Keeps s (whenRunning X g) := by
  unfold Sys2Proof.Machine.whenRunning
  split
  · exact hg X h
  · exact h

theorem Keeps.whenPowered {s X : State} {g : State → State} (hg : ∀ t, Keeps s t → Keeps s (g t)) (h : Keeps s X) :
    Keeps s (whenPowered X g) := by
  unfold Sys2Proof.Machine.whenPowered
  split
  · exact h
  · exact hg X h

theorem Keeps.hostBar0 {s X : State} {n : Nat} {g : State → State} (hg : ∀ t, Keeps s t → Keeps s (g t))
    (h : Keeps s X) : Keeps s (hostBar0 n X g) := by
  unfold Sys2Proof.Machine.hostBar0
  split
  · exact hg X h
  · exact h

theorem Keeps.hostBar2 {s X : State} {g : State → State} (hg : ∀ t, Keeps s t → Keeps s (g t)) (h : Keeps s X) :
    Keeps s (hostBar2 X g) := by
  unfold Sys2Proof.Machine.hostBar2
  split
  · exact hg X h
  · exact h

theorem Keeps.ofSome {α : Type} {s X t : State} {a : α} {o : Option (α × State)} (e : o = some (a, t))
    (h : ∀ r, o = some r → Keeps X r.2) (h0 : Keeps s X) : Keeps s t := Keeps.via (h (a, t) e) h0

theorem Keeps.ofOk {α ε : Type} {s X t : State} {a : α} {o : Except ε (α × State)} (e : o = .ok (a, t))
    (h : ∀ r, o = .ok r → Keeps X r.2) (h0 : Keeps s X) : Keeps s t := Keeps.via (h (a, t) e) h0

theorem Keeps.ofOpt {s X t : State} {o : Option State} (e : o = some t) (h : ∀ r, o = some r → Keeps X r) (h0 : Keeps s X) :
    Keeps s t := Keeps.via (h t e) h0

theorem Keeps.getD {s X d : State} {o : Option State} (h : ∀ r, o = some r → Keeps X r) (h0 : Keeps s X) (hd : Keeps s d) :
    Keeps s (o.getD d) := by
  cases o with
  | none => exact hd
  | some r => exact Keeps.via (h r rfl) h0

theorem Keeps.underEpoch {s X : State} {c : Cmd} {g : State → State} (hg : ∀ t, Keeps s t → Keeps s (g t)) (h : Keeps s X) :
    Keeps s (X.underEpoch c g) :=
  Keeps.via (Keeps.set_liveSet _ _) (hg _ (Keeps.via (Keeps.set_liveSet _ _) h))

theorem Keeps.withCmd {s X : State} {n : Nat} {op : Op} {g : Cmd → State → State} (hg : ∀ c t, Keeps s t → Keeps s (g c t))
    (h : Keeps s X) : Keeps s (withCmd n op X g) := by
  unfold Sys2Proof.Machine.withCmd
  refine Keeps.whenServing (fun t ht => ?_) h
  split
  · split
    · exact Keeps.underEpoch (hg _) ht
    · exact ht
  · exact ht

/-- The units in NAND and the root change as said. -/
theorem Keeps.set_store (t : State) (v : FssState) (hu : t.Canon → Bank.wf unitDef v.units = true)
    (hr : t.Canon → ∀ r, v.root = some r → Bank.wf instDef r.inst = true)
    (hw : t.Canon → ∀ w, v.rootWait = some w → Bank.wf instDef w.snap.inst = true) : Keeps t { t with fss := v } :=
  fun c => ⟨c.nvm, c.sram, hu c, hr c, hw c, c.inst, c.fn, c.regs⟩

theorem Keeps.set_sram (t : State) (k : Nat) (v : Word) :
    Keeps t { t with mon := { t.mon with sram := Bank.set wordDef t.mon.sram k v } } :=
  fun c => ⟨c.nvm, Bank.wf_set c.sram _ _, c.units, c.root, c.nextRoot, c.inst, c.fn, c.regs⟩

end Sys2Proof.Machine
end

