-- ==== Sys2Proof/Laws/CanonCore.lean ====
section
/-! SUPPORT. The canonical form of the tables is kept by the shared operations, metering, the halt, the store, commands, epochs and security. -/

namespace Sys2Proof.Machine

theorem State.setReg_keeps : ∀ s a1 a2, Keeps s (State.setReg s a1 a2) := by
  intro s a1 a2
  unfold State.setReg
  refine Keeps.via (Keeps.set_regs _ _ (fun c => Bank.wf_set c.regs _ _)) ?_
  exact Keeps.refl _

theorem Keeps.ideKm {s X : State} {n : Nat} {g : State → State} (hg : ∀ t, Keeps s t → Keeps s (g t))
    (h : Keeps s X) : Keeps s (ideKm n X g) := by
  unfold Sys2Proof.Machine.ideKm
  split
  · exact hg X h
  · exact h

theorem State.loadReg_keeps : ∀ s a1 a2, Keeps s (State.loadReg s a1 a2) := by
  intro s a1 a2
  unfold State.loadReg
  refine Keeps.via (Keeps.set_regs_nextSet_liveSet _ _ _ _ (fun c => Bank.wf_set c.regs _ _)) ?_
  exact Keeps.refl _

theorem State.setInst_keeps : ∀ s a1 a2, Keeps s (State.setInst s a1 a2) := by
  intro s a1 a2
  unfold State.setInst
  refine Keeps.via (Keeps.set_inst _ _ (fun c => Bank.wf_set c.inst _ _)) ?_
  exact Keeps.refl _

theorem State.modInst_keeps : ∀ s a1 a2, Keeps s (State.modInst s a1 a2) := by
  intro s a1 a2
  unfold State.modInst
  refine Keeps.via (State.setInst_keeps _ _ _) ?_
  exact Keeps.refl _

theorem State.setFn_keeps : ∀ s a1 a2, Keeps s (State.setFn s a1 a2) := by
  intro s a1 a2
  unfold State.setFn
  refine Keeps.via (Keeps.set_fn _ _ (fun c => Bank.wf_set c.fn _ _)) ?_
  exact Keeps.refl _

theorem State.modFn_keeps : ∀ s a1 a2, Keeps s (State.modFn s a1 a2) := by
  intro s a1 a2
  unfold State.modFn
  refine Keeps.via (State.setFn_keeps _ _ _) ?_
  exact Keeps.refl _

theorem State.emit_keeps : ∀ s a1, Keeps s (State.emit s a1) := fun _ _ =>
  Keeps.ofOnly (State.emit_only _ _) rfl

theorem State.wakeUp_keeps : ∀ s, Keeps s (State.wakeUp s) := fun _ =>
  Keeps.ofOnly (State.wakeUp_only _) rfl

theorem State.useFree_keeps : ∀ s, Keeps s (State.useFree s) := fun _ =>
  Keeps.ofOnly (State.useFree_only _) rfl

theorem State.nvmWrite_keeps : ∀ s a1 a2, Keeps s (State.nvmWrite s a1 a2) := by
  intro s a1 a2
  unfold State.nvmWrite
  refine Keeps.via (Keeps.set_nvm_nvs _ _ _ (fun c => Bank.wf_putBytes c.nvm _ _)) ?_
  exact Keeps.refl _

theorem State.ctrStore_keeps : ∀ s a1 a2, Keeps s (State.ctrStore s a1 a2) := by
  intro s a1 a2
  unfold State.ctrStore
  split
  · rename_i y1 y2 y3
    refine Keeps.via (State.nvmWrite_keeps _ _ _) ?_
    exact Keeps.refl _
  · rename_i y4 y5
    refine Keeps.via (State.nvmWrite_keeps _ _ _) ?_
    exact Keeps.refl _

theorem State.ctrRaise_keeps : ∀ s a1 a2, Keeps s (State.ctrRaise s a1 a2) := by
  intro s a1 a2
  unfold State.ctrRaise
  refine Keeps.ite (fun _ => ?_) (fun _ => ?_)
  · refine Keeps.via (State.nvmWrite_keeps _ _ _) ?_
    refine Keeps.via (State.ctrStore_keeps _ _ _) ?_
    refine Keeps.via (State.nvmWrite_keeps _ _ _) ?_
    exact Keeps.refl _
  · exact Keeps.refl _

theorem State.ctrInc_keeps : ∀ s a1, Keeps s (State.ctrInc s a1) := by
  intro s a1
  unfold State.ctrInc
  refine Keeps.via (State.ctrRaise_keeps _ _ _) ?_
  exact Keeps.refl _

theorem State.emitCpl_keeps : ∀ s a1, Keeps s (State.emitCpl s a1) := fun _ _ =>
  Keeps.ofOnly (State.emitCpl_only _ _) rfl

theorem Keeps.cfgTo {s X : State} {n : Nat} {g : State → State} (hg : ∀ t, Keeps s t → Keeps s (g t))
    (h : Keeps s X) : Keeps s (cfgTo n X g) := by
  unfold Sys2Proof.Machine.cfgTo
  split
  · exact h
  · split
    · exact Keeps.via (State.emitCpl_keeps _ _) h
    · split
      · exact Keeps.via (State.emitCpl_keeps _ _) h
      · split
        · exact Keeps.via (State.emitCpl_keeps _ _) h
        · exact hg X h

theorem State.flushCpl_keeps : ∀ s, Keeps s (State.flushCpl s) := fun _ =>
  Keeps.ofOnly (State.flushCpl_only _) rfl

theorem State.sendMsix_keeps : ∀ s a1 a2, Keeps s (State.sendMsix s a1 a2) := fun _ _ _ =>
  Keeps.ofOnly (State.sendMsix_only _ _ _) rfl

theorem State.raise_keeps : ∀ s a1 a2, Keeps s (State.raise s a1 a2) := by
  intro s a1 a2
  unfold State.raise
  refine Keeps.ite (fun _ => ?_) (fun _ => ?_)
  · exact Keeps.refl _
  · refine Keeps.ite (fun _ => ?_) (fun _ => ?_)
    · refine Keeps.via (State.modFn_keeps _ _ _) ?_
      exact Keeps.refl _
    · refine Keeps.via (State.sendMsix_keeps _ _ _) ?_
      exact Keeps.refl _

theorem State.releasePending_keeps : ∀ s a1, Keeps s (State.releasePending s a1) := by
  intro s a1
  unfold State.releasePending
  refine Keeps.forBelow (fun a1 t2 h3 => ?_) ?_
  · refine Keeps.ite (fun _ => ?_) (fun _ => ?_)
    · refine Keeps.via (State.sendMsix_keeps _ _ _) ?_
      refine Keeps.via (State.modFn_keeps _ _ _) ?_
      exact h3
    · exact h3
  · exact Keeps.refl _

theorem State.setInsEvt_keeps : ∀ s a1 a2, Keeps s (State.setInsEvt s a1 a2) := by
  intro s a1 a2
  unfold State.setInsEvt
  refine Keeps.ite (fun _ => ?_) (fun _ => ?_)
  · exact Keeps.refl _
  · extract_lets x1
    refine Keeps.cut (t := x1) ?_ (fun h2 => ?_)
    · unfold x1
      refine Keeps.via (State.modFn_keeps _ _ _) ?_
      exact Keeps.refl _
    refine Keeps.ite (fun _ => ?_) (fun _ => ?_)
    · refine Keeps.via (State.raise_keeps _ _ _) ?_
      exact h2
    · exact h2

theorem State.setRngEvt_keeps : ∀ s a1 a2, Keeps s (State.setRngEvt s a1 a2) := by
  intro s a1 a2
  unfold State.setRngEvt
  refine Keeps.ite (fun _ => ?_) (fun _ => ?_)
  · exact Keeps.refl _
  · extract_lets x1
    refine Keeps.cut (t := x1) ?_ (fun h2 => ?_)
    · unfold x1
      refine Keeps.via (State.modFn_keeps _ _ _) ?_
      exact Keeps.refl _
    refine Keeps.ite (fun _ => ?_) (fun _ => ?_)
    · refine Keeps.via (State.raise_keeps _ _ _) ?_
      exact h2
    · exact h2

theorem State.critOne_keeps : ∀ s, Keeps s (State.critOne s) := by
  intro s
  unfold State.critOne
  split
  · rename_i y1 y2 y3 y4
    extract_lets x5 x6 x7
    refine Keeps.cut (t := x6) ?_ (fun h8 => ?_)
    · unfold x6
      refine Keeps.via (State.nvmWrite_keeps _ _ _) ?_
      exact Keeps.refl _
    refine Keeps.via (Keeps.set_log _ _) ?_
    exact h8
  · rename_i y9 y10
    exact Keeps.refl _

theorem State.logWrite_keeps : ∀ s a1 a2 a3 a4, Keeps s (State.logWrite s a1 a2 a3 a4) := by
  intro s a1 a2 a3 a4
  unfold State.logWrite
  extract_lets x1 x2 x3 x4 x5 x6 x7 x8 x9 x10
  refine Keeps.cut (t := x8) ?_ (fun h11 => ?_)
  · unfold x8
    refine Keeps.via (Keeps.set_log _ _) ?_
    exact Keeps.refl _
  refine Keeps.cut (t := x9) ?_ (fun h12 => ?_)
  · unfold x9
    refine Keeps.ite (fun _ => ?_) (fun _ => ?_)
    · refine Keeps.via (State.ctrRaise_keeps _ _ _) ?_
      exact h11
    · exact h11
  refine Keeps.cut (t := x10) ?_ (fun h13 => ?_)
  · unfold x10
    refine Keeps.ite (fun _ => ?_) (fun _ => ?_)
    · refine Keeps.via (State.critOne_keeps _) ?_
      exact h12
    · exact h12
  refine Keeps.ite (fun _ => ?_) (fun _ => ?_)
  · refine Keeps.via (State.raise_keeps _ _ _) ?_
    exact h13
  · exact h13

theorem State.logEv_keeps : ∀ s a1 a2 a3, Keeps s (State.logEv s a1 a2 a3) := by
  intro s a1 a2 a3
  unfold State.logEv
  refine Keeps.ite (fun _ => ?_) (fun _ => ?_)
  · exact Keeps.refl _
  · refine Keeps.ite (fun _ => ?_) (fun _ => ?_)
    · refine Keeps.via (State.logWrite_keeps _ _ _ _ _) ?_
      exact Keeps.refl _
    · refine Keeps.ite (fun _ => ?_) (fun _ => ?_)
      · refine Keeps.via (Keeps.set_log _ _) ?_
        exact Keeps.refl _
      · extract_lets x1 x2 x3 x4
        clear_value x1
        refine Keeps.cut (t := x2) ?_ (fun h5 => ?_)
        · unfold x2
          split
          · rename_i y6 y7 y8 y9 y10
            refine Keeps.ite (fun _ => ?_) (fun _ => ?_)
            · exact Keeps.refl _
            · refine Keeps.via (State.logWrite_keeps _ _ _ _ _) ?_
              exact Keeps.refl _
          · rename_i y11 y12 y13 y14
            exact Keeps.refl _
        refine Keeps.cut (t := x3) ?_ (fun h15 => ?_)
        · unfold x3
          refine Keeps.via (State.logWrite_keeps _ _ _ _ _) ?_
          exact h5
        refine Keeps.via (Keeps.set_log _ _) ?_
        exact h15

theorem State.note_keeps : ∀ s a1 a2, Keeps s (State.note s a1 a2) := by
  intro s a1 a2
  unfold State.note
  refine Keeps.via (State.logEv_keeps _ _ _ _) ?_
  exact Keeps.refl _

theorem State.accError_keeps : ∀ s a1 a2 a3, Keeps s (State.accError s a1 a2 a3) := fun _ _ _ _ =>
  Keeps.ofOnly (State.accError_only _ _ _ _) rfl

theorem State.placeMsg_keeps : ∀ s a1 a2 a3, Keeps s (State.placeMsg s a1 a2 a3) := by
  intro s a1 a2 a3
  unfold State.placeMsg
  extract_lets x1 x2
  refine Keeps.cut (t := x2) ?_ (fun h3 => ?_)
  · unfold x2
    refine Keeps.via (State.modFn_keeps _ _ _) ?_
    exact Keeps.refl _
  refine Keeps.via (State.setInsEvt_keeps _ _ _) ?_
  exact h3

theorem State.postMsg_keeps : ∀ s a1 a2 a3 a4 a5 a6, Keeps s (State.postMsg s a1 a2 a3 a4 a5 a6) := by
  intro s a1 a2 a3 a4 a5 a6
  unfold State.postMsg
  extract_lets x1 x2 x3
  refine Keeps.cut (t := x3) ?_ (fun h4 => ?_)
  · unfold x3
    refine Keeps.via (State.modFn_keeps _ _ _) ?_
    exact Keeps.refl _
  split
  · rename_i y5 y6 y7
    refine Keeps.via (State.placeMsg_keeps _ _ _ _) ?_
    exact h4
  · rename_i y8 y9
    refine Keeps.ite (fun _ => ?_) (fun _ => ?_)
    · refine Keeps.via (State.setInsEvt_keeps _ _ _) ?_
      refine Keeps.via (State.modFn_keeps _ _ _) ?_
      exact h4
    · refine Keeps.via (State.modFn_keeps _ _ _) ?_
      exact h4

theorem State.postOwn_keeps : ∀ s a1 a2 a3, Keeps s (State.postOwn s a1 a2 a3) := by
  intro s a1 a2 a3
  unfold State.postOwn
  refine Keeps.via (State.postMsg_keeps _ _ _ _ _ _ _) ?_
  exact Keeps.refl _

theorem State.postPeer_keeps : ∀ s a1 a2 a3, Keeps s (State.postPeer s a1 a2 a3) := by
  intro s a1 a2 a3
  unfold State.postPeer
  refine Keeps.via (State.postMsg_keeps _ _ _ _ _ _ _) ?_
  exact Keeps.refl _

theorem State.setIState_keeps : ∀ s a1 a2, Keeps s (State.setIState s a1 a2) := by
  intro s a1 a2
  unfold State.setIState
  extract_lets x1
  refine Keeps.cut (t := x1) ?_ (fun h2 => ?_)
  · unfold x1
    refine Keeps.via (State.modInst_keeps _ _ _) ?_
    exact Keeps.refl _
  refine Keeps.ite (fun _ => ?_) (fun _ => ?_)
  · exact h2
  · refine Keeps.via (State.postPeer_keeps _ _ _ _) ?_
    exact h2

theorem State.fillSlots_keeps : ∀ s a1, Keeps s (State.fillSlots s a1) := by
  intro s a1
  unfold State.fillSlots
  refine Keeps.forBelow (fun a1 t2 h3 => ?_) ?_
  · extract_lets x4
    split
    · rename_i y5 y6 y7 y8 y9 y10 y11
      refine Keeps.via (State.placeMsg_keeps _ _ _ _) ?_
      refine Keeps.via (State.modFn_keeps _ _ _) ?_
      exact h3
    · rename_i y12 y13 y14
      exact h3
  · exact Keeps.refl _

theorem State.quotaWarning_keeps : ∀ s a1, Keeps s (State.quotaWarning s a1) := by
  intro s a1
  unfold State.quotaWarning
  extract_lets x1 x2 x3 x4
  refine Keeps.cut (t := x3) ?_ (fun h5 => ?_)
  · unfold x3
    refine Keeps.via (State.postOwn_keeps _ _ _ _) ?_
    exact Keeps.refl _
  refine Keeps.cut (t := x4) ?_ (fun h6 => ?_)
  · unfold x4
    refine Keeps.ite (fun _ => ?_) (fun _ => ?_)
    · exact h5
    · refine Keeps.via (State.postPeer_keeps _ _ _ _) ?_
      exact h5
  refine Keeps.via (State.modInst_keeps _ _ _) ?_
  exact h6

theorem State.quotaSettle_keeps : ∀ s a1, Keeps s (State.quotaSettle s a1) := by
  intro s a1
  unfold State.quotaSettle
  extract_lets x1 x2
  refine Keeps.cut (t := x1) ?_ (fun h3 => ?_)
  · unfold x1
    refine Keeps.ite (fun _ => ?_) (fun _ => ?_)
    · refine Keeps.via (State.modInst_keeps _ _ _) ?_
      exact Keeps.refl _
    · exact Keeps.refl _
  refine Keeps.ite (fun _ => ?_) (fun _ => ?_)
  · refine Keeps.via (State.modInst_keeps _ _ _) ?_
    exact h3
  · exact h3

theorem State.setUsed_keeps : ∀ s a1 a2, Keeps s (State.setUsed s a1 a2) := by
  intro s a1 a2
  unfold State.setUsed
  extract_lets x1 x2 x3
  refine Keeps.cut (t := x2) ?_ (fun h4 => ?_)
  · unfold x2
    refine Keeps.via (State.modInst_keeps _ _ _) ?_
    exact Keeps.refl _
  refine Keeps.cut (t := x3) ?_ (fun h5 => ?_)
  · unfold x3
    refine Keeps.ite (fun _ => ?_) (fun _ => ?_)
    · refine Keeps.via (State.quotaWarning_keeps _ _) ?_
      exact h4
    · exact h4
  refine Keeps.via (State.quotaSettle_keeps _ _) ?_
  exact h5

theorem State.quotaCheck_keeps : ∀ s a1, Keeps s (State.quotaCheck s a1) := by
  intro s a1
  unfold State.quotaCheck
  extract_lets x1 x2
  refine Keeps.cut (t := x1) ?_ (fun h3 => ?_)
  · unfold x1
    refine Keeps.via (State.quotaSettle_keeps _ _) ?_
    exact Keeps.refl _
  refine Keeps.ite (fun _ => ?_) (fun _ => ?_)
  · refine Keeps.via (State.quotaWarning_keeps _ _) ?_
    exact h3
  · exact h3

theorem State.count_keeps : ∀ s a1 a2, Keeps s (State.count s a1 a2) := by
  intro s a1 a2
  unfold State.count
  refine Keeps.ite (fun _ => ?_) (fun _ => ?_)
  · refine Keeps.via (State.modInst_keeps _ _ _) ?_
    exact Keeps.refl _
  · exact Keeps.refl _

theorem State.tenantClosed_keeps : ∀ s a1, Keeps s (State.tenantClosed s a1) := by
  intro s a1
  unfold State.tenantClosed
  refine Keeps.ite (fun _ => ?_) (fun _ => ?_)
  · exact Keeps.refl _
  · split
    · rename_i y1 y2 y3 y4 y5
      refine Keeps.via (State.postOwn_keeps _ _ _ _) ?_
      exact Keeps.refl _
    · rename_i y6 y7 y8
      exact Keeps.refl _

theorem State.pfClosed_keeps : ∀ s a1 a2, Keeps s (State.pfClosed s a1 a2) := by
  intro s a1 a2
  unfold State.pfClosed
  refine Keeps.via (State.postOwn_keeps _ _ _ _) ?_
  exact Keeps.refl _

theorem State.closeOne_keeps : ∀ s a1, Keeps s (State.closeOne s a1) := by
  intro s a1
  unfold State.closeOne
  split
  · rename_i y1 y2 y3
    refine Keeps.via (State.logEv_keeps _ _ _ _) ?_
    refine Keeps.via (State.tenantClosed_keeps _ _) ?_
    refine Keeps.via (State.modInst_keeps _ _ _) ?_
    exact Keeps.refl _
  · rename_i y4 y5
    exact Keeps.refl _

theorem State.takeBoundary_keeps : ∀ s a1, Keeps s (State.takeBoundary s a1) := by
  intro s a1
  unfold State.takeBoundary
  extract_lets x1
  refine Keeps.ite (fun _ => ?_) (fun _ => ?_)
  · exact Keeps.refl _
  · refine Keeps.via (State.pfClosed_keeps _ _ _) ?_
    refine Keeps.forEach (fun a2 t3 h4 => ?_) ?_
    · refine Keeps.via (State.closeOne_keeps _ _) ?_
      exact h4
    · exact Keeps.refl _

theorem State.jumpPeriods_keeps : ∀ s, Keeps s (State.jumpPeriods s) := by
  intro s
  unfold State.jumpPeriods
  extract_lets x1 x2
  refine Keeps.cut (t := x2) ?_ (fun h3 => ?_)
  · unfold x2
    refine Keeps.forEach (fun a4 t5 h6 => ?_) ?_
    · split
      · rename_i y7 y8 y9
        refine Keeps.via (State.tenantClosed_keeps _ _) ?_
        refine Keeps.via (State.modInst_keeps _ _ _) ?_
        exact h6
      · rename_i y10 y11
        exact h6
    · exact Keeps.refl _
  refine Keeps.ite (fun _ => ?_) (fun _ => ?_)
  · exact Keeps.refl _
  · refine Keeps.via (State.pfClosed_keeps _ _ _) ?_
    exact h3

theorem State.flagPeriods_keeps : ∀ s a1, Keeps s (State.flagPeriods s a1) := by
  intro s a1
  unfold State.flagPeriods
  refine Keeps.forEach (fun a1 t2 h3 => ?_) ?_
  · refine Keeps.via (State.modInst_keeps _ _ _) ?_
    exact h3
  · exact Keeps.refl _

theorem execOccupancyTick_keeps : ∀ s z, Keeps s (runRow (execOccupancyTick s) z) := by
  intro s z
  unfold execOccupancyTick
  rw [runRow_next]
  refine Keeps.whenServing (fun t1 h2 => ?_) ?_
  · refine Keeps.forEach (fun a3 t4 h5 => ?_) ?_
    · refine Keeps.via (State.count_keeps _ _ _) ?_
      exact h5
    · exact h2
  · exact Keeps.refl _

theorem execPeriodBoundary_keeps : ∀ s z, Keeps s (runRow (execPeriodBoundary s) z) := by
  intro s z
  unfold execPeriodBoundary
  rw [runRow_next]
  refine Keeps.whenServing (fun t1 h2 => ?_) ?_
  · split
    · rename_i y3 y4 y5
      refine Keeps.via (State.takeBoundary_keeps _ _) ?_
      exact h2
    · rename_i y6 y7
      exact h2
  · exact Keeps.refl _

theorem execPolicyPageUsedUpdate_keeps : ∀ s z, Keeps s (runRow (execPolicyPageUsedUpdate s) z) := by
  intro s z
  unfold execPolicyPageUsedUpdate
  rw [runRow_next]
  refine Keeps.whenServing (fun t1 h2 => ?_) ?_
  · refine Keeps.forEach (fun a3 t4 h5 => ?_) ?_
    · refine Keeps.via (State.modInst_keeps _ _ _) ?_
      exact h5
    · exact h2
  · exact Keeps.refl _

theorem State.zeroise_keeps : ∀ s, Keeps s (State.zeroise s) := by
  intro s
  unfold State.zeroise
  refine Keeps.via (Keeps.set_sec_inst_sea _ _ _ _ (fun c => Bank.wf_mapVals c.inst)) ?_
  exact Keeps.refl _

theorem State.storeUnits_keeps : ∀ s a1 a2, Keeps s (State.storeUnits s a1 a2) := by
  intro s a1 a2
  induction a2 generalizing s a1 with
  | nil =>
    rw [State.storeUnits]
    exact Keeps.refl _
  | cons b r ih =>
    rw [State.storeUnits]
    refine Keeps.via (ih _ _) ?_
    refine Keeps.via (Keeps.set_store _ _ (fun c => Bank.wf_set c.units _ _) (fun c => c.root) (fun c => c.nextRoot)) ?_
    exact Keeps.refl _

theorem State.landPages_keeps : ∀ s, Keeps s (State.landPages s) := by
  intro s
  unfold State.landPages
  refine Keeps.forEach (fun a1 t2 h3 => ?_) ?_
  · refine Keeps.via (State.storeUnits_keeps _ _ _) ?_
    exact h3
  · exact Keeps.refl _

theorem FssState.rootLanded_root {f : FssState} (hr : ∀ r, f.root = some r → Bank.wf instDef r.inst = true)
    (hw : ∀ w, f.rootWait = some w → Bank.wf instDef w.snap.inst = true) :
    ∀ r, f.rootLanded.root = some r → Bank.wf instDef r.inst = true := by
  intro r
  unfold FssState.rootLanded
  split
  · exact hr r
  · rename_i w h
    intro e
    cases e
    exact hw w h

theorem FssState.rootLanded_units (f : FssState) : f.rootLanded.units = f.units := by
  unfold FssState.rootLanded
  split <;> rfl

theorem FssState.rootLanded_wait (f : FssState) : f.rootLanded.rootWait = none := by
  unfold FssState.rootLanded
  split
  · assumption
  · rfl

theorem FssState.landed_root {f : FssState} (hr : ∀ r, f.root = some r → Bank.wf instDef r.inst = true)
    (hw : ∀ w, f.rootWait = some w → Bank.wf instDef w.snap.inst = true) :
    ∀ r, f.landed.root = some r → Bank.wf instDef r.inst = true := by
  unfold FssState.landed
  refine FssState.rootLanded_root hr (fun w h => ?_)
  dsimp only at h
  split at h
  · cases h
  · exact hw w h

theorem FssState.landed_units (f : FssState) : f.landed.units = f.units := by
  unfold FssState.landed
  exact FssState.rootLanded_units _

theorem FssState.landed_wait (f : FssState) : f.landed.rootWait = none := by
  unfold FssState.landed
  exact FssState.rootLanded_wait _

theorem Keeps.landed (t : State) : Keeps t { t with fss := t.fss.landed } :=
  Keeps.set_store _ _ (fun c => by rw [FssState.landed_units]; exact c.units)
    (fun c => FssState.landed_root c.root c.nextRoot) (fun _ w e => by rw [FssState.landed_wait] at e; cases e)

theorem State.stopEngines_keeps : ∀ s, Keeps s (State.stopEngines s) := by
  intro s c
  have h := State.landPages_keeps s c
  unfold State.stopEngines
  generalize s.landPages = t at h ⊢
  have k := Keeps.landed t h
  exact ⟨k.nvm, k.sram, k.units, k.root, k.nextRoot, k.inst, k.fn, k.regs⟩

theorem State.countFurther_keeps : ∀ s a1, Keeps s (State.countFurther s a1) := by
  intro s a1
  unfold State.countFurther
  split
  · rename_i y1 y2 y3
    extract_lets x4 x5 x6
    refine Keeps.cut (t := x6) ?_ (fun h7 => ?_)
    · unfold x6
      refine Keeps.via (Keeps.set_hlt _ _) ?_
      exact Keeps.refl _
    refine Keeps.ite (fun _ => ?_) (fun _ => ?_)
    · refine Keeps.via (State.nvmWrite_keeps _ _ _) ?_
      exact h7
    · exact h7
  · rename_i y8 y9
    exact Keeps.refl _

theorem State.haltBy_keeps : ∀ s a1, Keeps s (State.haltBy s a1) := by
  intro s a1
  unfold State.haltBy
  split
  · rename_i y1 y2 y3
    refine Keeps.via (State.countFurther_keeps _ _) ?_
    exact Keeps.refl _
  · rename_i y4 y5
    extract_lets x6 x7 x8 x9 x10 x11 x12 x13
    refine Keeps.cut (t := x8) ?_ (fun h14 => ?_)
    · unfold x8
      refine Keeps.via (Keeps.set_hlt _ _) ?_
      exact Keeps.refl _
    refine Keeps.cut (t := x13) ?_ (fun h15 => ?_)
    · unfold x13
      refine Keeps.via (Keeps.set_drives_pwb_cal_mon _ _ _ _ _ (by rfl)) ?_
      exact h14
    refine Keeps.via (State.zeroise_keeps _) ?_
    refine Keeps.via (State.stopEngines_keeps _) ?_
    exact h15

theorem Keeps.dramCheck {s X : State} {m : MacCheck} {g : State → State}
    (hg : ∀ t, Keeps s t → Keeps s (g t))
    (h : Keeps s X) : Keeps s (dramCheck m X g) := by
  have hs : Keeps s { X with sea := { X.sea with retryDram := inc16 X.sea.retryDram } } :=
    Keeps.via (Keeps.set_sea _ _) h
  unfold Sys2Proof.Machine.dramCheck
  split
  · exact hg X h
  · dsimp only
    split
    · exact h
    · split
      · exact hg X h
      · split
        · exact Keeps.via (State.note_keeps _ _ _) (hg _ hs)
        · exact Keeps.via (State.haltBy_keeps _ _) h

theorem Keeps.withRandom {s X : State} {g : State → State} (hg : ∀ t, Keeps s t → Keeps s (g t))
    (h : Keeps s X) : Keeps s (X.withRandom g) := by
  unfold State.withRandom
  split
  · exact hg X h
  · split
    · exact Keeps.via (State.haltBy_keeps _ _) h
    · exact h

theorem State.emitLine_keeps : ∀ s a1 a2 a3, Keeps s (State.emitLine s a1 a2 a3) := fun _ _ _ _ =>
  Keeps.ofOnly (State.emitLine_only _ _ _ _) rfl

theorem State.setLine_keeps : ∀ s a1 a2 a3, Keeps s (State.setLine s a1 a2 a3) := fun _ _ _ _ =>
  Keeps.ofOnly (State.setLine_only _ _ _ _) rfl

theorem State.modWay_keeps : ∀ s a1 a2, Keeps s (State.modWay s a1 a2) := fun _ _ _ =>
  Keeps.ofOnly (State.modWay_only _ _ _) rfl

theorem State.setMchEvt_keeps : ∀ s a1, Keeps s (State.setMchEvt s a1) := by
  intro s a1
  unfold State.setMchEvt
  refine Keeps.ite (fun _ => ?_) (fun _ => ?_)
  · exact Keeps.refl _
  · extract_lets x1 x2
    refine Keeps.cut (t := x2) ?_ (fun h3 => ?_)
    · unfold x2
      refine Keeps.via (Keeps.set_mch _ _) ?_
      exact Keeps.refl _
    refine Keeps.ite (fun _ => ?_) (fun _ => ?_)
    · refine Keeps.via (State.raise_keeps _ _ _) ?_
      exact h3
    · exact h3

theorem State.touchLine_keeps : ∀ s a1 a2, Keeps s (State.touchLine s a1 a2) := fun _ _ _ =>
  Keeps.ofOnly (State.touchLine_only _ _ _) rfl

theorem State.writeBack_keeps : ∀ s a1 a2, Keeps s (State.writeBack s a1 a2) := fun _ _ _ =>
  Keeps.ofOnly (State.writeBack_only _ _ _) rfl

theorem State.fillLine_keeps : ∀ s a1 a2 a3 a4, Keeps s (State.fillLine s a1 a2 a3 a4) := fun _ _ _ _ _ =>
  Keeps.ofOnly (State.fillLine_only _ _ _ _ _) rfl

theorem State.dropLeafLines_keeps : ∀ s a1, Keeps s (State.dropLeafLines s a1) := fun _ _ =>
  Keeps.ofOnly (State.dropLeafLines_only _ _) rfl

theorem State.cleanLine_keeps : ∀ s a1, Keeps s (State.cleanLine s a1) := fun _ _ =>
  Keeps.ofOnly (State.cleanLine_only _ _) rfl

theorem State.writeLeaf_keeps : ∀ s a1 a2 a3, Keeps s (State.writeLeaf s a1 a2 a3) := fun _ _ _ _ =>
  Keeps.ofOnly (State.writeLeaf_only _ _ _ _) rfl

theorem State.emptyCache_keeps : ∀ s, Keeps s (State.emptyCache s) := fun _ =>
  Keeps.ofOnly (State.emptyCache_only _) rfl

theorem State.dropLeaf_keeps : ∀ s a1, Keeps s (State.dropLeaf s a1) := by
  intro s a1
  unfold State.dropLeaf
  dsimp only
  have h := State.dropLeafLines_keeps s a1
  generalize s.dropLeafLines a1 = t at h ⊢
  split
  · exact Keeps.via (Keeps.set_fss t _ rfl rfl rfl) h
  · exact h

theorem State.countFault_keeps : ∀ s a1, Keeps s (State.countFault s a1) := by
  intro s a1
  unfold State.countFault
  extract_lets x1 x2
  refine Keeps.cut (t := x2) ?_ (fun h3 => ?_)
  · unfold x2
    refine Keeps.via (State.modWay_keeps _ _ _) ?_
    exact Keeps.refl _
  refine Keeps.via (State.note_keeps _ _ _) ?_
  refine Keeps.via (State.setMchEvt_keeps _ _) ?_
  exact h3

theorem State.finishWay_keeps : ∀ s a1 a2, Keeps s (State.finishWay s a1 a2) := by
  intro s a1 a2
  unfold State.finishWay
  refine Keeps.ite (fun _ => ?_) (fun _ => ?_)
  · exact Keeps.refl _
  · extract_lets x1 x2 x3 x4
    refine Keeps.cut (t := x2) ?_ (fun h5 => ?_)
    · unfold x2
      refine Keeps.forBelow (fun a6 t7 h8 => ?_) ?_
      · split
        · rename_i y9 y10 y11 y12
          extract_lets x13
          refine Keeps.cut (t := x13) ?_ (fun h14 => ?_)
          · unfold x13
            refine Keeps.ite (fun _ => ?_) (fun _ => ?_)
            · refine Keeps.ite (fun _ => ?_) (fun _ => ?_)
              · refine Keeps.via (State.countFault_keeps _ _) ?_
                refine Keeps.via (State.dropLeaf_keeps _ _) ?_
                exact h8
              · refine Keeps.via (State.writeBack_keeps _ _ _) ?_
                exact h8
            · exact h8
          refine Keeps.via (State.setLine_keeps _ _ _ _) ?_
          exact h14
        · rename_i y15 y16 y17
          exact h8
      · exact Keeps.refl _
    refine Keeps.cut (t := x4) ?_ (fun h18 => ?_)
    · unfold x4
      refine Keeps.via (Keeps.set_mch _ _) ?_
      exact h5
    refine Keeps.via (State.note_keeps _ _ _) ?_
    refine Keeps.via (State.setMchEvt_keeps _ _) ?_
    refine Keeps.via (State.modWay_keeps _ _ _) ?_
    exact h18

theorem State.disableWay_keeps : ∀ s a1 a2, Keeps s (State.disableWay s a1 a2) := by
  intro s a1 a2
  unfold State.disableWay
  refine Keeps.via (State.finishWay_keeps _ _ _) ?_
  refine Keeps.via (State.modWay_keeps _ _ _) ?_
  exact Keeps.refl _

theorem State.finishWays_keeps : ∀ s, Keeps s (State.finishWays s) := by
  intro s
  unfold State.finishWays
  refine Keeps.forBelow (fun a1 t2 h3 => ?_) ?_
  · refine Keeps.via (State.finishWay_keeps _ _ _) ?_
    exact h3
  · exact Keeps.refl _

theorem State.parityFault_keeps : ∀ s a1 a2, Keeps s (State.parityFault s a1 a2) := by
  intro s a1 a2
  unfold State.parityFault
  extract_lets x1 x2
  split
  · rename_i y3 y4 y5
    extract_lets x6
    refine Keeps.cut (t := x6) ?_ (fun h7 => ?_)
    · unfold x6
      refine Keeps.via (State.countFault_keeps _ _) ?_
      refine Keeps.ite (fun _ => ?_) (fun _ => ?_)
      · refine Keeps.via (State.dropLeaf_keeps _ _) ?_
        exact Keeps.refl _
      · refine Keeps.via (State.setLine_keeps _ _ _ _) ?_
        exact Keeps.refl _
    refine Keeps.ite (fun _ => ?_) (fun _ => ?_)
    · refine Keeps.via (State.disableWay_keeps _ _ _) ?_
      exact h7
    · exact h7
  · rename_i y8 y9
    exact Keeps.refl _

theorem State.checkVictim_keeps : ∀ s a1 a2, Keeps s (State.checkVictim s a1 a2) := by
  intro s a1 a2
  unfold State.checkVictim
  extract_lets x1
  refine Keeps.ite (fun _ => ?_) (fun _ => ?_)
  · refine Keeps.via (State.parityFault_keeps _ _ _) ?_
    exact Keeps.refl _
  · exact Keeps.refl _

theorem State.jAdd_keeps : ∀ s a1, Keeps s (State.jAdd s a1) := by
  intro s a1
  unfold State.jAdd
  refine Keeps.via (Keeps.set_fss _ _ (by rfl) (by rfl) (by rfl)) ?_
  exact Keeps.refl _

theorem State.jUpdate_keeps : ∀ s a1, Keeps s (State.jUpdate s a1) := by
  intro s a1
  unfold State.jUpdate
  extract_lets x1 x2
  refine Keeps.cut (t := x1) ?_ (fun h3 => ?_)
  · unfold x1
    refine Keeps.via (State.jAdd_keeps _ _) ?_
    exact Keeps.refl _
  refine Keeps.via (Keeps.set_fss _ _ (by rfl) (by rfl) (by rfl)) ?_
  exact h3

theorem State.refreshUsed_keeps : ∀ s a1, Keeps s (State.refreshUsed s a1) := by
  intro s a1
  unfold State.refreshUsed
  refine Keeps.via (State.setUsed_keeps _ _ _) ?_
  exact Keeps.refl _

theorem State.setBlock_keeps : ∀ s a1 a2 a3, Keeps s (State.setBlock s a1 a2 a3) := by
  intro s a1 a2 a3
  unfold State.setBlock
  refine Keeps.via (Keeps.set_fss _ _ (by rfl) (by rfl) (by rfl)) ?_
  exact Keeps.refl _

theorem State.listBlocks_keeps : ∀ s, Keeps s (State.listBlocks s) := by
  intro s
  unfold State.listBlocks
  extract_lets x1 x2
  refine Keeps.via (Keeps.set_fss _ _ (by rfl) (by rfl) (by rfl)) ?_
  exact Keeps.refl _

theorem State.advanceAnchor_keeps : ∀ s c, Keeps s (State.advanceAnchor s c).1 := by
  intro s c
  unfold State.advanceAnchor
  split
  · exact State.setBlock_keeps _ _ _ _
  · exact Keeps.refl _

theorem State.writeAnchor_keeps : ∀ s, Keeps s (State.writeAnchor s) := by
  intro s
  unfold State.writeAnchor
  extract_lets wear
  split
  rename_i t l heq
  refine Keeps.via (Keeps.set_fss _ _ (by rfl) (by rfl) (by rfl)) (Keeps.ofPairFst heq ?_)
  refine Keeps.foldlFst (fun e c h => ?_) (Keeps.refl _)
  exact Keeps.via (State.advanceAnchor_keeps _ _) h

theorem State.openBand_keeps : ∀ s a1, Keeps s (State.openBand s a1) := by
  intro s a1
  unfold State.openBand
  extract_lets x1 x2 x3 x4 x5
  refine Keeps.cut (t := x3) ?_ (fun h6 => ?_)
  · unfold x3
    refine Keeps.forEach (fun a7 t8 h9 => ?_) ?_
    · refine Keeps.via (State.jAdd_keeps _ _) ?_
      refine Keeps.via (State.setBlock_keeps _ _ _ _) ?_
      exact h9
    · exact Keeps.refl _
  refine Keeps.cut (t := x5) ?_ (fun h10 => ?_)
  · unfold x5
    refine Keeps.via (Keeps.set_fss _ _ (by rfl) (by rfl) (by rfl)) ?_
    exact h6
  refine Keeps.ite (fun _ => ?_) (fun _ => ?_)
  · exact Keeps.refl _
  · refine Keeps.ite (fun _ => ?_) (fun _ => ?_)
    · refine Keeps.via (State.writeAnchor_keeps _) ?_
      exact h10
    · exact h10

theorem State.setBand_keeps : ∀ s a1, Keeps s (State.setBand s a1) := by
  intro s a1
  unfold State.setBand
  refine Keeps.via (Keeps.set_fss _ _ (by rfl) (by rfl) (by rfl)) ?_
  exact Keeps.refl _

theorem State.closeBand_keeps : ∀ s a1, Keeps s (State.closeBand s a1) := by
  intro s a1
  unfold State.closeBand
  refine Keeps.ite (fun _ => ?_) (fun _ => ?_)
  · refine Keeps.via (State.setBand_keeps _ _) ?_
    exact Keeps.refl _
  · refine Keeps.forEach (fun a1 t2 h3 => ?_) ?_
    · refine Keeps.via (State.setBlock_keeps _ _ _ _) ?_
      exact h3
    · refine Keeps.via (State.setBand_keeps _ _) ?_
      exact Keeps.refl _

theorem State.takePage_keeps : ∀ s a1, ∀ r, State.takePage s a1 = some r → Keeps s r.2 := by
  intro s a1 r hr
  unfold State.takePage at hr
  split at hr
  · split at hr
    · cases hr
      exact State.setBand_keeps _ _
    · dsimp only at hr
      split at hr
      · obtain ⟨e, _, rfl⟩ := Option.map_eq_some_iff.mp hr
        exact Keeps.via (State.setBand_keeps _ _) (Keeps.via (State.openBand_keeps _ _) (State.closeBand_keeps _ _))
      · cases hr
  · dsimp only at hr
    split at hr
    · obtain ⟨e, _, rfl⟩ := Option.map_eq_some_iff.mp hr
      exact Keeps.via (State.setBand_keeps _ _) (State.openBand_keeps _ _)
    · cases hr

theorem State.issuePage_keeps : ∀ s a1, Keeps s (State.issuePage s a1) := by
  intro s a1
  unfold State.issuePage
  refine Keeps.via (Keeps.set_fss _ _ (by rfl) (by rfl) (by rfl)) ?_
  exact Keeps.refl _

theorem State.addUnit_keeps : ∀ s a1 a2 a3, ∀ r, State.addUnit s a1 a2 a3 = some r → Keeps s r.2 := by
  intro s a1 a2 a3 r hr
  unfold State.addUnit at hr
  split at hr
  · cases hr
    refine Keeps.ite (fun _ => ?_) (fun _ => Keeps.set_fss _ _ (by rfl) (by rfl) (by rfl))
    exact Keeps.via (State.issuePage_keeps _ _) (Keeps.set_fss _ _ (by rfl) (by rfl) (by rfl))
  · split at hr
    · cases hr
      rename_i heq
      exact Keeps.via (Keeps.set_fss _ _ (by rfl) (by rfl) (by rfl)) (State.takePage_keeps _ _ _ heq)
    · cases hr

theorem State.putUnit_keeps : ∀ s a1 a2, ∀ r, State.putUnit s a1 a2 = some r → Keeps s r.2 := by
  intro s a1 a2 r hr
  unfold State.putUnit at hr
  split at hr
  · cases hr
    rename_i heq
    exact Keeps.via (Keeps.set_store _ _ (fun c => Bank.wf_set c.units _ _) (fun c => c.root) (fun c => c.nextRoot)) (State.addUnit_keeps _ _ _ _ _ heq)
  · cases hr

theorem State.takeSeq_keeps : ∀ s a1, Keeps s (State.takeSeq s a1).2 := by
  intro s a1
  unfold State.takeSeq
  extract_lets x1 x2
  refine Keeps.cut (t := x2) ?_ (fun h3 => ?_)
  · unfold x2
    refine Keeps.via (State.modInst_keeps _ _ _) ?_
    exact Keeps.refl _
  split
  · rename_i y4
    refine Keeps.via (State.jAdd_keeps _ _) ?_
    refine Keeps.via (State.modInst_keeps _ _ _) ?_
    exact h3
  · rename_i y5
    exact h3

theorem State.bumpCkpt_keeps : ∀ s, Keeps s (State.bumpCkpt s) := by
  intro s
  unfold State.bumpCkpt
  refine Keeps.via (Keeps.set_fss _ _ (by rfl) (by rfl) (by rfl)) ?_
  exact Keeps.refl _

theorem State.journalRecordOf_keeps : ∀ s a1 a2, Keeps s (State.journalRecordOf s a1 a2) := by
  intro s a1 a2
  unfold State.journalRecordOf
  split
  rename_i y1 y2 y3 y4
  extract_lets x5
  split
  · rename_i y6 y7 y8 y9
    refine Keeps.via (State.jAdd_keeps _ _) ?_
    refine Keeps.ofSome y9 (State.putUnit_keeps _ _ _) ?_
    refine Keeps.via (State.bumpCkpt_keeps _) ?_
    refine Keeps.ofPair y4 ?_
    refine Keeps.via (State.takeSeq_keeps _ _) ?_
    exact Keeps.refl _
  · rename_i y10 y11
    refine Keeps.via (State.jAdd_keeps _ _) ?_
    refine Keeps.ofPair y4 ?_
    refine Keeps.via (State.takeSeq_keeps _ _) ?_
    exact Keeps.refl _

theorem State.journalRecord_keeps : ∀ s a1, Keeps s (State.journalRecord s a1) := by
  intro s a1
  unfold State.journalRecord
  refine Keeps.via (State.journalRecordOf_keeps _ _ _) ?_
  exact Keeps.refl _

theorem State.setLeaf_keeps : ∀ s a1 a2, Keeps s (State.setLeaf s a1 a2) := by
  intro s a1 a2
  unfold State.setLeaf
  refine Keeps.via (Keeps.set_fss _ _ (by rfl) (by rfl) (by rfl)) ?_
  exact Keeps.refl _

theorem State.leafOut_keeps : ∀ s a1, Keeps s (State.leafOut s a1) := by
  intro s a1
  unfold State.leafOut
  extract_lets x1
  refine Keeps.ite (fun _ => ?_) (fun _ => ?_)
  · split
    rename_i y2 y3 y4 y5 y6
    extract_lets x7
    split
    · rename_i y8 y9 y10 y11
      refine Keeps.via (State.setLeaf_keeps _ _ _) ?_
      refine Keeps.via (State.jAdd_keeps _ _) ?_
      refine Keeps.ofSome y11 (State.putUnit_keeps _ _ _) ?_
      refine Keeps.via (State.bumpCkpt_keeps _) ?_
      refine Keeps.ofPair y6 ?_
      refine Keeps.via (State.takeSeq_keeps _ _) ?_
      exact Keeps.refl _
    · rename_i y12 y13
      refine Keeps.ofPair y6 ?_
      refine Keeps.via (State.takeSeq_keeps _ _) ?_
      exact Keeps.refl _
  · exact Keeps.refl _

theorem State.evictLeaf_keeps : ∀ s, Keeps s (State.evictLeaf s) := by
  intro s
  unfold State.evictLeaf
  split
  · rename_i y1 y2
    exact Keeps.refl _
  · rename_i y3 y4 y5 y6
    extract_lets x7 x8 x9 x10 x11
    refine Keeps.cut (t := x7) ?_ (fun h12 => ?_)
    · unfold x7
      refine Keeps.via (State.leafOut_keeps _ _) ?_
      exact Keeps.refl _
    refine Keeps.cut (t := x10) ?_ (fun h13 => ?_)
    · unfold x10
      refine Keeps.via (Keeps.set_fss _ _ (by rfl) (by rfl) (by rfl)) ?_
      exact h12
    refine Keeps.ite (fun _ => ?_) (fun _ => ?_)
    · exact h12
    · split
      · rename_i y14 y15 y16 y17
        refine Keeps.via (State.writeLeaf_keeps _ _ _ _) ?_
        refine Keeps.via (State.setLeaf_keeps _ _ _) ?_
        exact h13
      · rename_i y18 y19 y20
        refine Keeps.via (State.setLeaf_keeps _ _ _) ?_
        exact h13

theorem State.addPromo_keeps : ∀ s a1 a2 a3, Keeps s (State.addPromo s a1 a2 a3) := fun _ _ _ _ =>
  Keeps.ofOnly (State.addPromo_only _ _ _ _) rfl

theorem State.promoteLeaf_keeps : ∀ s a1, Keeps s (State.promoteLeaf s a1) := fun _ _ =>
  Keeps.ofOnly (State.promoteLeaf_only _ _) rfl

theorem State.touchLeaf_keeps : ∀ s a1, Keeps s (State.touchLeaf s a1) := by
  intro s a1
  unfold State.touchLeaf
  extract_lets x1 x2 x3 x4 x5
  refine Keeps.cut (t := x1) ?_ (fun h6 => ?_)
  · unfold x1
    refine Keeps.ite (fun _ => ?_) (fun _ => ?_)
    · refine Keeps.via (State.promoteLeaf_keeps _ _) ?_
      exact Keeps.refl _
    · exact Keeps.refl _
  refine Keeps.cut (t := x2) ?_ (fun h7 => ?_)
  · unfold x2
    refine Keeps.ite (fun _ => ?_) (fun _ => ?_)
    · exact Keeps.refl _
    · refine Keeps.ite (fun _ => ?_) (fun _ => ?_)
      · refine Keeps.via (State.evictLeaf_keeps _) ?_
        exact h6
      · exact h6
  refine Keeps.cut (t := x4) ?_ (fun h8 => ?_)
  · unfold x4
    refine Keeps.via (Keeps.set_fss _ _ (by rfl) (by rfl) (by rfl)) ?_
    exact h7
  refine Keeps.via (State.setLeaf_keeps _ _ _) ?_
  exact h8

theorem State.touchRun_keeps : ∀ s a1 a2 a3, Keeps s (State.touchRun s a1 a2 a3) := by
  intro s a1 a2 a3
  unfold State.touchRun
  refine Keeps.ite (fun _ => ?_) (fun _ => ?_)
  · exact Keeps.refl _
  · refine Keeps.forBelow (fun a1 t2 h3 => ?_) ?_
    · refine Keeps.via (State.touchLeaf_keeps _ _) ?_
      exact h3
    · exact Keeps.refl _

theorem State.mapStore_keeps : ∀ s a1 a2 a3, Keeps s (State.mapStore s a1 a2 a3) := by
  intro s a1 a2 a3
  unfold State.mapStore
  extract_lets x1 x2 x3 x4 x5
  refine Keeps.cut (t := x2) ?_ (fun h6 => ?_)
  · unfold x2
    refine Keeps.via (State.touchLeaf_keeps _ _) ?_
    exact Keeps.refl _
  refine Keeps.cut (t := x4) ?_ (fun h7 => ?_)
  · unfold x4
    refine Keeps.via (State.setLeaf_keeps _ _ _) ?_
    exact h6
  refine Keeps.via (Keeps.set_fss _ _ (by rfl) (by rfl) (by rfl)) ?_
  exact h7

theorem State.mapPut_keeps : ∀ s a1 a2 a3, Keeps s (State.mapPut s a1 a2 a3) := by
  intro s a1 a2 a3
  unfold State.mapPut
  extract_lets x1 x2 x3 x4 x5
  refine Keeps.cut (t := x3) ?_ (fun h6 => ?_)
  · unfold x3
    refine Keeps.forEach (fun a7 t8 h9 => ?_) ?_
    · refine Keeps.via (State.jAdd_keeps _ _) ?_
      exact h9
    · exact Keeps.refl _
  refine Keeps.cut (t := x5) ?_ (fun h10 => ?_)
  · unfold x5
    refine Keeps.ite (fun _ => ?_) (fun _ => ?_)
    · refine Keeps.via (Keeps.set_fss _ _ (by rfl) (by rfl) (by rfl)) ?_
      exact h6
    · exact Keeps.refl _
  refine Keeps.via (State.mapStore_keeps _ _ _ _) ?_
  exact h10

theorem State.dropEmptyLeaves_keeps : ∀ s a1, Keeps s (State.dropEmptyLeaves s a1) := by
  intro s a1
  unfold State.dropEmptyLeaves
  refine Keeps.forEach (fun a1 t2 h3 => ?_) ?_
  · refine Keeps.ite (fun _ => ?_) (fun _ => ?_)
    · exact h3
    · refine Keeps.via (State.setLeaf_keeps _ _ _) ?_
      refine Keeps.via (Keeps.set_fss _ _ (by rfl) (by rfl) (by rfl)) ?_
      exact h3
  · exact Keeps.refl _

theorem State.recap_keeps : ∀ s, Keeps s (State.recap s) := by
  intro s
  unfold State.recap
  extract_lets x1 x2
  refine Keeps.via (Keeps.set_fss _ _ (by rfl) (by rfl) (by rfl)) ?_
  exact Keeps.refl _

theorem State.markUnits_keeps : ∀ s a1, Keeps s (State.markUnits s a1) := by
  intro s a1
  unfold State.markUnits
  refine Keeps.forBelow (fun a1 t2 h3 => ?_) ?_
  · extract_lets x4 x5 x6
    refine Keeps.ite (fun _ => ?_) (fun _ => ?_)
    · refine Keeps.via (Keeps.set_fss _ _ (by rfl) (by rfl) (by rfl)) ?_
      exact h3
    · exact h3
  · exact Keeps.refl _

theorem State.storeCfg_keeps : ∀ s a1 a2 a3, Keeps s (State.storeCfg s a1 a2 a3) := fun _ _ _ _ =>
  Keeps.ofOnly (State.storeCfg_only _ _ _ _) rfl

theorem State.cfgHeld_keeps : ∀ s, Keeps s (State.cfgHeld s) := by
  intro s
  unfold State.cfgHeld
  refine Keeps.ite (fun _ => ?_) (fun _ => ?_)
  · exact Keeps.refl _
  · refine Keeps.via (Keeps.set_link_sec_fn _ _ _ _ (fun c => rfl)) ?_
    exact Keeps.refl _

theorem State.recordHalt_keeps : ∀ s, Keeps s (State.recordHalt s) := by
  intro s
  unfold State.recordHalt
  split
  · rename_i y1 y2 y3
    refine Keeps.ite (fun _ => ?_) (fun _ => ?_)
    · exact Keeps.refl _
    · split
      rename_i y4 y5 y6 y7 y8
      extract_lets x9 x10
      refine Keeps.cut (t := x9) ?_ (fun h11 => ?_)
      · unfold x9
        refine Keeps.via (State.nvmWrite_keeps _ _ _) ?_
        exact Keeps.refl _
      refine Keeps.via (Keeps.set_hlt _ _) ?_
      exact h11
  · rename_i y12 y13
    exact Keeps.refl _

theorem execIntegrityHalt_keeps : ∀ a0 a1 s z, Keeps s (runRow (execIntegrityHalt a0 a1 s) z) := by
  intro a0 a1 s z
  unfold execIntegrityHalt
  rw [runRow_next]
  refine Keeps.ite (fun _ => ?_) (fun _ => ?_)
  · exact Keeps.refl _
  · refine Keeps.ite (fun _ => ?_) (fun _ => ?_)
    · refine Keeps.via (State.countFurther_keeps _ _) ?_
      exact Keeps.refl _
    · refine Keeps.via (State.haltBy_keeps _ _) ?_
      exact Keeps.refl _

theorem execHaltRecordWritten_keeps : ∀ s z, Keeps s (runRow (execHaltRecordWritten s) z) := by
  intro s z
  unfold execHaltRecordWritten
  rw [runRow_next]
  refine Keeps.via (State.recordHalt_keeps _) ?_
  exact Keeps.refl _

theorem execHaltedStateRequest_keeps : ∀ a0 s z, Keeps s (runRow (execHaltedStateRequest a0 s) z) := fun _ _ _ =>
  Keeps.ofOnly (execHaltedStateRequest_only _ _ _) rfl

theorem State.adoptRegs_keeps : ∀ s a1 a2, Keeps s (State.adoptRegs s a1 a2) := fun _ _ _ =>
  Keeps.ofOnly (State.adoptRegs_only _ _ _) rfl

theorem State.epochDone_keeps : ∀ s, Keeps s (State.epochDone s) := by
  intro s
  unfold State.epochDone
  refine Keeps.ite (fun _ => ?_) (fun _ => ?_)
  · refine Keeps.via (State.note_keeps _ _ _) ?_
    refine Keeps.via (State.postOwn_keeps _ _ _ _) ?_
    refine Keeps.via (Keeps.set_epoch _ _) ?_
    exact Keeps.refl _
  · exact Keeps.refl _

theorem State.commitEpoch_keeps : ∀ s a1, Keeps s (State.commitEpoch s a1) := by
  intro s a1
  unfold State.commitEpoch
  refine Keeps.ite (fun _ => ?_) (fun _ => ?_)
  · refine Keeps.via (State.note_keeps _ _ _) ?_
    refine Keeps.via (Keeps.set_epoch _ _) ?_
    exact Keeps.refl _
  · refine Keeps.via (Keeps.set_nextSet_prevSet_epoch _ _ _ _) ?_
    exact Keeps.refl _

theorem execEpochCommit_keeps : ∀ a0 s z, Keeps s (runRow (execEpochCommit a0 s) z) := by
  intro a0 s z
  unfold execEpochCommit
  rw [runRow_next]
  refine Keeps.whenServing (fun t1 h2 => ?_) ?_
  · refine Keeps.via (State.commitEpoch_keeps _ _) ?_
    exact h2
  · exact Keeps.refl _

theorem execEpochAdoptionTimeout_keeps : ∀ s z, Keeps s (runRow (execEpochAdoptionTimeout s) z) := by
  intro s z
  unfold execEpochAdoptionTimeout
  rw [runRow_next]
  refine Keeps.whenServing (fun t1 h2 => ?_) ?_
  · refine Keeps.ite (fun _ => ?_) (fun _ => ?_)
    · refine Keeps.via (State.note_keeps _ _ _) ?_
      refine Keeps.via (Keeps.set_epoch _ _) ?_
      exact h2
    · exact h2
  · exact Keeps.refl _

theorem State.setCmd_keeps : ∀ s a1, Keeps s (State.setCmd s a1) := fun _ _ =>
  Keeps.ofOnly (State.setCmd_only _ _) rfl

theorem State.dropCmd_keeps : ∀ s a1, Keeps s (State.dropCmd s a1) := fun _ _ =>
  Keeps.ofOnly (State.dropCmd_only _ _) rfl

theorem State.unreserve_keeps : ∀ s a1, Keeps s (State.unreserve s a1) := by
  intro s a1
  unfold State.unreserve
  refine Keeps.ite (fun _ => ?_) (fun _ => ?_)
  · exact Keeps.refl _
  · refine Keeps.via (State.quotaSettle_keeps _ _) ?_
    refine Keeps.via (State.setCmd_keeps _ _) ?_
    refine Keeps.via (State.modInst_keeps _ _ _) ?_
    exact Keeps.refl _

theorem State.rateAdd_keeps : ∀ s a1 a2, Keeps s (State.rateAdd s a1 a2) := fun _ _ _ =>
  Keeps.ofOnly (State.rateAdd_only _ _ _) rfl

theorem State.windowDone_keeps : ∀ s a1 a2 a3 a4 a5, Keeps s (State.windowDone s a1 a2 a3 a4 a5) := by
  intro s a1 a2 a3 a4 a5
  unfold State.windowDone
  refine Keeps.via (State.modInst_keeps _ _ _) ?_
  exact Keeps.refl _

theorem State.complete_keeps : ∀ s a1 a2 a3 a4, Keeps s (State.complete s a1 a2 a3 a4) := by
  intro s a1 a2 a3 a4
  unfold State.complete
  extract_lets x1 x2 x3 x4 x5
  refine Keeps.cut (t := x2) ?_ (fun h6 => ?_)
  · unfold x2
    refine Keeps.via (State.unreserve_keeps _ _) ?_
    exact Keeps.refl _
  refine Keeps.cut (t := x3) ?_ (fun h7 => ?_)
  · unfold x3
    refine Keeps.via (State.count_keeps _ _ _) ?_
    exact h6
  refine Keeps.cut (t := x4) ?_ (fun h8 => ?_)
  · unfold x4
    refine Keeps.via (State.setCmd_keeps _ _) ?_
    exact h7
  refine Keeps.cut (t := x5) ?_ (fun h9 => ?_)
  · unfold x5
    refine Keeps.via (Keeps.set_due _ _) ?_
    exact h8
  refine Keeps.ite (fun _ => ?_) (fun _ => ?_)
  · refine Keeps.via (State.dropCmd_keeps _ _) ?_
    exact h6
  · refine Keeps.ite (fun _ => ?_) (fun _ => ?_)
    · refine Keeps.ite (fun _ => ?_) (fun _ => ?_)
      · refine Keeps.via (State.rateAdd_keeps _ _ _) ?_
        exact h9
      · exact h9
    · refine Keeps.via (State.logEv_keeps _ _ _ _) ?_
      exact h9

theorem Keeps.manage {s X : State} {c : Cmd} {g : State → State} (hg : ∀ t, Keeps s t → Keeps s (g t))
    (h : Keeps s X) :
    Keeps s (X.manage c g) := by
  unfold State.manage
  split
  · split
    · exact Keeps.via (State.complete_keeps _ _ _ _ _) h
    · exact hg X h
  · exact h

theorem State.completeFlushed_keeps : ∀ s a1 a2, Keeps s (State.completeFlushed s a1 a2) := fun _ _ _ =>
  Keeps.ofOnly (State.completeFlushed_only _ _ _) rfl

theorem State.pushCmd_keeps : ∀ s a1, Keeps s (State.pushCmd s a1) := fun _ _ =>
  Keeps.ofOnly (State.pushCmd_only _ _) rfl

theorem State.returnDup_keeps : ∀ s a1 a2 a3 a4, Keeps s (State.returnDup s a1 a2 a3 a4) := fun _ _ _ _ _ =>
  Keeps.ofOnly (State.returnDup_only _ _ _ _ _) rfl

theorem State.beginRefusal_keeps : ∀ s a1, Keeps s (State.beginRefusal s a1) := by
  intro s a1
  unfold State.beginRefusal
  refine Keeps.ite (fun _ => ?_) (fun _ => ?_)
  · exact Keeps.refl _
  · refine Keeps.via (State.modInst_keeps _ _ _) ?_
    exact Keeps.refl _

theorem State.accept_keeps : ∀ s a1 a2 a3 a4, Keeps s (State.accept s a1 a2 a3 a4) := by
  intro s a1 a2 a3 a4
  unfold State.accept
  extract_lets x1 x2 x3 x4 x5 x6 x7
  refine Keeps.cut (t := x5) ?_ (fun h8 => ?_)
  · unfold x5
    refine Keeps.via (State.modInst_keeps _ _ _) ?_
    exact Keeps.refl _
  refine Keeps.cut (t := x7) ?_ (fun h9 => ?_)
  · unfold x7
    refine Keeps.via (State.ctrInc_keeps _ _) ?_
    refine Keeps.via (State.rateAdd_keeps _ _ _) ?_
    exact h8
  split
  · rename_i y10 y11 y12
    split
    · rename_i y13 y14 y15 y16 y17
      refine Keeps.via (State.returnDup_keeps _ _ _ _ _) ?_
      exact Keeps.refl _
    · rename_i y18 y19
      refine Keeps.via (Keeps.set_nextCmd_due _ _ _) ?_
      exact Keeps.refl _
  · rename_i y20 y21
    split
    · rename_i y22 y23 y24
      refine Keeps.via (State.returnDup_keeps _ _ _ _ _) ?_
      exact Keeps.refl _
    · rename_i y25 y26
      split
      · rename_i y27 y28 y29 y30
        extract_lets x31
        refine Keeps.cut (t := x31) ?_ (fun h32 => ?_)
        · unfold x31
          refine Keeps.ite (fun _ => ?_) (fun _ => ?_)
          · refine Keeps.via (State.beginRefusal_keeps _ _) ?_
            exact h8
          · exact h8
        refine Keeps.via (State.complete_keeps _ _ _ _ _) ?_
        refine Keeps.via (State.pushCmd_keeps _ _) ?_
        exact h32
      · rename_i y33 y34
        refine Keeps.ite (fun _ => ?_) (fun _ => ?_)
        · refine Keeps.via (State.pushCmd_keeps _ _) ?_
          exact h9
        · refine Keeps.via (State.pushCmd_keeps _ _) ?_
          refine Keeps.via (State.modInst_keeps _ _ _) ?_
          exact h8

theorem State.issueRead_keeps : ∀ s a1 a2 a3 a4 a5, Keeps s (State.issueRead s a1 a2 a3 a4 a5) := fun _ _ _ _ _ _ =>
  Keeps.ofOnly (State.issueRead_only _ _ _ _ _ _) rfl

theorem State.pumpCmd_keeps : ∀ s a1, Keeps s (State.pumpCmd s a1) := fun _ _ =>
  Keeps.ofOnly (State.pumpCmd_only _ _) rfl

theorem State.pumpEntry_keeps : ∀ s a1, Keeps s (State.pumpEntry s a1) := fun _ _ =>
  Keeps.ofOnly (State.pumpEntry_only _ _) rfl

theorem State.pumpLeaf_keeps : ∀ s a1, Keeps s (State.pumpLeaf s a1) := fun _ _ =>
  Keeps.ofOnly (State.pumpLeaf_only _ _) rfl

theorem State.pumpWord_keeps : ∀ s a1, Keeps s (State.pumpWord s a1) := by
  intro s a1
  unfold State.pumpWord
  extract_lets x1
  refine Keeps.ite (fun _ => ?_) (fun _ => ?_)
  · refine Keeps.via (State.emit_keeps _ _) ?_
    refine Keeps.via (State.modFn_keeps _ _ _) ?_
    exact Keeps.refl _
  · exact Keeps.refl _

theorem State.reportLatency_keeps : ∀ s, Keeps s (State.reportLatency s) := fun _ =>
  Keeps.ofOnly (State.reportLatency_only _) rfl

theorem State.pump_keeps : ∀ s, Keeps s (State.pump s) := by
  intro s
  unfold State.pump
  refine Keeps.via (State.reportLatency_keeps _) ?_
  refine Keeps.forEach (fun a1 t2 h3 => ?_) ?_
  · refine Keeps.via (State.pumpLeaf_keeps _ _) ?_
    exact h3
  · refine Keeps.forEach (fun a4 t5 h6 => ?_) ?_
    · refine Keeps.via (State.pumpEntry_keeps _ _) ?_
      exact h6
    · refine Keeps.forEach (fun a7 t8 h9 => ?_) ?_
      · refine Keeps.via (State.pumpCmd_keeps _ _) ?_
        exact h9
      · refine Keeps.forEach (fun a10 t11 h12 => ?_) ?_
        · refine Keeps.via (State.pumpWord_keeps _ _) ?_
          exact h12
        · exact Keeps.refl _

theorem State.writeRun_keeps : ∀ s a1 a2 a3 a4, Keeps s (State.writeRun s a1 a2 a3 a4) := fun _ _ _ _ _ =>
  Keeps.ofOnly (State.writeRun_only _ _ _ _ _) rfl

theorem State.writeOut_keeps : ∀ s a1 a2, Keeps s (State.writeOut s a1 a2) := fun _ _ _ =>
  Keeps.ofOnly (State.writeOut_only _ _ _) rfl

theorem State.cmdData_keeps : ∀ s a1 a2, Keeps s (State.cmdData s a1 a2) := by
  intro s a1 a2
  unfold State.cmdData
  refine Keeps.ite (fun _ => ?_) (fun _ => ?_)
  · extract_lets x1 x2
    refine Keeps.ite (fun _ => ?_) (fun _ => ?_)
    · refine Keeps.via (State.setCmd_keeps _ _) ?_
      exact Keeps.refl _
    · split
      · rename_i y3 y4 y5 y6 y7 y8
        refine Keeps.via (State.complete_keeps _ _ _ _ _) ?_
        exact Keeps.refl _
      · rename_i y9 y10 y11 y12 y13
        refine Keeps.ite (fun _ => ?_) (fun _ => ?_)
        · refine Keeps.via (State.setCmd_keeps _ _) ?_
          exact Keeps.refl _
        · refine Keeps.via (State.complete_keeps _ _ _ _ _) ?_
          exact Keeps.refl _
  · refine Keeps.via (State.setCmd_keeps _ _) ?_
    exact Keeps.refl _

theorem execCommandStart_keeps : ∀ a0 s z, Keeps s (runRow (execCommandStart a0 s) z) := by
  intro a0 s z
  unfold execCommandStart
  rw [runRow_next]
  refine Keeps.whenServing (fun t1 h2 => ?_) ?_
  · split
    · rename_i y3 y4 y5
      refine Keeps.ite (fun _ => ?_) (fun _ => ?_)
      · refine Keeps.via (State.pump_keeps _) ?_
        refine Keeps.via (State.setCmd_keeps _ _) ?_
        exact h2
      · exact h2
    · rename_i y6 y7
      exact h2
  · exact Keeps.refl _

theorem State.storeReg_keeps : ∀ s a1 a2, Keeps s (State.storeReg s a1 a2) := by
  intro s a1 a2
  unfold State.storeReg
  split
  · rename_i y1 y2 y3
    extract_lets x4 x5
    refine Keeps.cut (t := x4) ?_ (fun h6 => ?_)
    · unfold x4
      refine Keeps.via (State.setReg_keeps _ _ _) ?_
      exact Keeps.refl _
    refine Keeps.cut (t := x5) ?_ (fun h7 => ?_)
    · unfold x5
      refine Keeps.ite (fun _ => ?_) (fun _ => ?_)
      · refine Keeps.via (State.note_keeps _ _ _) ?_
        exact h6
      · exact h6
    refine Keeps.ite (fun _ => ?_) (fun _ => ?_)
    · refine Keeps.via (State.note_keeps _ _ _) ?_
      exact h7
    · exact h7
  · rename_i y8 y9
    exact Keeps.refl _

theorem State.noteRsv_keeps : ∀ s a1 a2, Keeps s (State.noteRsv s a1 a2) := by
  intro s a1 a2
  unfold State.noteRsv
  split
  · rename_i y1 y2 y3
    refine Keeps.ite (fun _ => ?_) (fun _ => ?_)
    · refine Keeps.via (State.note_keeps _ _ _) ?_
      exact Keeps.refl _
    · exact Keeps.refl _
  · rename_i y4 y5
    exact Keeps.refl _

theorem State.doeAnswer_keeps : ∀ s a1, Keeps s (State.doeAnswer s a1) := by
  intro s a1
  unfold State.doeAnswer
  extract_lets x1
  refine Keeps.cut (t := x1) ?_ (fun h2 => ?_)
  · unfold x1
    refine Keeps.via (State.emit_keeps _ _) ?_
    exact Keeps.refl _
  refine Keeps.ite (fun _ => ?_) (fun _ => ?_)
  · refine Keeps.via (State.raise_keeps _ _ _) ?_
    exact h2
  · exact h2

theorem State.spdm_keeps : ∀ s a1 a2, Keeps s (State.spdm s a1 a2) := by
  intro s a1 a2
  unfold State.spdm
  extract_lets x1 x2 x3 x4
  split
  · rename_i y5
    refine Keeps.via (State.doeAnswer_keeps _ _) ?_
    exact Keeps.refl _
  · rename_i y6 y7
    refine Keeps.ite (fun _ => ?_) (fun _ => ?_)
    · refine Keeps.via (State.doeAnswer_keeps _ _) ?_
      refine Keeps.via (Keeps.set_sec _ _) ?_
      exact Keeps.refl _
    · unfold x2
      refine Keeps.via (State.doeAnswer_keeps _ _) ?_
      exact Keeps.refl _
  · rename_i y8
    refine Keeps.via (State.doeAnswer_keeps _ _) ?_
    exact Keeps.refl _
  · rename_i y9
    unfold x1
    refine Keeps.via (State.doeAnswer_keeps _ _) ?_
    exact Keeps.refl _
  · rename_i y10 y11
    refine Keeps.via (State.doeAnswer_keeps _ _) ?_
    exact Keeps.refl _
  · rename_i y12 y13
    refine Keeps.ite (fun _ => ?_) (fun _ => ?_)
    · unfold x1
      refine Keeps.via (State.doeAnswer_keeps _ _) ?_
      exact Keeps.refl _
    · unfold x2
      refine Keeps.via (State.doeAnswer_keeps _ _) ?_
      exact Keeps.refl _
  · rename_i y14 y15
    refine Keeps.ite (fun _ => ?_) (fun _ => ?_)
    · unfold x1
      refine Keeps.via (State.doeAnswer_keeps _ _) ?_
      exact Keeps.refl _
    · unfold x2
      refine Keeps.via (State.doeAnswer_keeps _ _) ?_
      exact Keeps.refl _
  · rename_i y16 y17
    split
    · rename_i y18 y19 y20
      refine Keeps.via (State.doeAnswer_keeps _ _) ?_
      exact Keeps.refl _
    · rename_i y21 y22
      unfold x2
      refine Keeps.via (State.doeAnswer_keeps _ _) ?_
      exact Keeps.refl _
  · rename_i y23
    split
    · rename_i y24 y25 y26
      unfold x1
      refine Keeps.via (State.doeAnswer_keeps _ _) ?_
      refine Keeps.via (Keeps.set_sec _ _) ?_
      exact Keeps.refl _
    · rename_i y27 y28
      unfold x2
      refine Keeps.via (State.doeAnswer_keeps _ _) ?_
      exact Keeps.refl _
  · rename_i y29 y30 y31
    refine Keeps.ite (fun _ => ?_) (fun _ => ?_)
    · unfold x1
      refine Keeps.via (State.doeAnswer_keeps _ _) ?_
      refine Keeps.via (Keeps.set_sec _ _) ?_
      exact Keeps.refl _
    · unfold x2
      refine Keeps.via (State.doeAnswer_keeps _ _) ?_
      unfold x3
      refine Keeps.via (Keeps.set_sec _ _) ?_
      exact Keeps.refl _
  · rename_i y32 y33
    refine Keeps.ite (fun _ => ?_) (fun _ => ?_)
    · unfold x1
      refine Keeps.via (State.doeAnswer_keeps _ _) ?_
      exact Keeps.refl _
    · unfold x2
      refine Keeps.via (State.doeAnswer_keeps _ _) ?_
      exact Keeps.refl _
  · rename_i y34 y35
    refine Keeps.ite (fun _ => ?_) (fun _ => ?_)
    · unfold x3
      refine Keeps.via (Keeps.set_sec _ _) ?_
      unfold x1
      refine Keeps.via (State.doeAnswer_keeps _ _) ?_
      exact Keeps.refl _
    · unfold x2
      refine Keeps.via (State.doeAnswer_keeps _ _) ?_
      exact Keeps.refl _
  · rename_i y36
    refine Keeps.ite (fun _ => ?_) (fun _ => ?_)
    · refine Keeps.via (State.doeAnswer_keeps _ _) ?_
      exact Keeps.refl _
    · refine Keeps.via (State.note_keeps _ _ _) ?_
      exact Keeps.refl _
  · rename_i y37 y38
    refine Keeps.via (State.doeAnswer_keeps _ _) ?_
    exact Keeps.refl _

theorem execSpdmRequest_keeps : ∀ a0 a1 a2 s z, Keeps s (runRow (execSpdmRequest a0 a1 a2 s) z) := by
  intro a0 a1 a2 s z
  unfold execSpdmRequest
  rw [runRow_next]
  refine Keeps.ite (fun _ => ?_) (fun _ => ?_)
  · refine Keeps.ite (fun _ => ?_) (fun _ => ?_)
    · extract_lets x1 x2
      refine Keeps.cut (t := x1) ?_ (fun h3 => ?_)
      · unfold x1
        refine Keeps.via (State.wakeUp_keeps _) ?_
        exact Keeps.refl _
      refine Keeps.via (Keeps.set_sec _ _) ?_
      exact h3
    · refine Keeps.via (State.spdm_keeps _ _ _) ?_
      refine Keeps.via (State.wakeUp_keeps _) ?_
      exact Keeps.refl _
  · exact Keeps.refl _

theorem execDoeAbort_keeps : ∀ s z, Keeps s (runRow (execDoeAbort s) z) := fun _ _ =>
  Keeps.ofOnly (execDoeAbort_only _ _) rfl

theorem State.modDir_keeps : ∀ s a1 a2, Keeps s (State.modDir s a1 a2) := fun _ _ _ =>
  Keeps.ofOnly (State.modDir_only _ _ _) rfl

theorem State.resume_keeps : ∀ s, Keeps s (State.resume s) := by
  intro s
  unfold State.resume
  refine Keeps.via (State.pump_keeps _) ?_
  refine Keeps.via (State.finishWays_keeps _) ?_
  refine Keeps.forEach (fun a1 t2 h3 => ?_) ?_
  · refine Keeps.via (State.releasePending_keeps _ _) ?_
    exact h3
  · refine Keeps.via (State.flushCpl_keeps _) ?_
    exact Keeps.refl _

theorem State.settleStream_keeps : ∀ s, Keeps s (State.settleStream s) := by
  intro s
  unfold State.settleStream
  refine Keeps.ite (fun _ => ?_) (fun _ => ?_)
  · extract_lets x1 x2
    refine Keeps.cut (t := x2) ?_ (fun h3 => ?_)
    · unfold x2
      refine Keeps.via (Keeps.set_sec _ _) ?_
      exact Keeps.refl _
    refine Keeps.via (State.resume_keeps _) ?_
    exact h3
  · exact Keeps.refl _

theorem execQuery_keeps : ∀ a0 s z, Keeps s (runRow (execQuery a0 s) z) := by
  intro a0 s z
  unfold execQuery
  rw [runRow_next]
  refine Keeps.ideKm (fun t1 h2 => ?_) ?_
  · refine Keeps.via (State.doeAnswer_keeps _ _) ?_
    exact h2
  · exact Keeps.refl _

theorem execKeyProg_keeps : ∀ a0 a1 a2 a3 a4 s z, Keeps s (runRow (execKeyProg a0 a1 a2 a3 a4 s) z) := by
  intro a0 a1 a2 a3 a4 s z
  unfold execKeyProg
  rw [runRow_next]
  refine Keeps.ideKm (fun t1 h2 => ?_) ?_
  · refine Keeps.via (State.doeAnswer_keeps _ _) ?_
    refine Keeps.via (State.modDir_keeps _ _ _) ?_
    exact h2
  · exact Keeps.refl _

theorem execKSetGo_keeps : ∀ a0 a1 a2 a3 s z, Keeps s (runRow (execKSetGo a0 a1 a2 a3 s) z) := by
  intro a0 a1 a2 a3 s z
  unfold execKSetGo
  rw [runRow_next]
  refine Keeps.ideKm (fun t1 h2 => ?_) ?_
  · extract_lets x3 x4
    refine Keeps.cut (t := x4) ?_ (fun h5 => ?_)
    · unfold x4
      refine Keeps.via (State.modDir_keeps _ _ _) ?_
      exact h2
    refine Keeps.ite (fun _ => ?_) (fun _ => ?_)
    · refine Keeps.via (State.resume_keeps _) ?_
      refine Keeps.via (State.settleStream_keeps _) ?_
      refine Keeps.via (State.doeAnswer_keeps _ _) ?_
      exact h5
    · refine Keeps.via (State.doeAnswer_keeps _ _) ?_
      exact h2
  · exact Keeps.refl _

theorem execKSetStop_keeps : ∀ a0 a1 a2 s z, Keeps s (runRow (execKSetStop a0 a1 a2 s) z) := by
  intro a0 a1 a2 s z
  unfold execKSetStop
  rw [runRow_next]
  refine Keeps.ideKm (fun t1 h2 => ?_) ?_
  · refine Keeps.via (State.doeAnswer_keeps _ _) ?_
    refine Keeps.via (State.modDir_keeps _ _ _) ?_
    exact h2
  · exact Keeps.refl _

theorem execIdeTlpReceived_keeps : ∀ a0 a1 a2 s z, Keeps s (runRow (execIdeTlpReceived a0 a1 a2 s) z) := by
  intro a0 a1 a2 s z
  unfold execIdeTlpReceived
  rw [runRow_next]
  refine Keeps.ite (fun _ => ?_) (fun _ => ?_)
  · split
    · rename_i y1 y2 y3 y4
      refine Keeps.via (State.haltBy_keeps _ _) ?_
      exact Keeps.refl _
    · rename_i y5 y6 y7
      exact Keeps.refl _
  · exact Keeps.refl _

theorem execIdeTxCounterLimit_keeps : ∀ a0 s z, Keeps s (runRow (execIdeTxCounterLimit a0 s) z) := by
  intro a0 s z
  unfold execIdeTxCounterLimit
  rw [runRow_next]
  refine Keeps.whenServing (fun t1 h2 => ?_) ?_
  · refine Keeps.ite (fun _ => ?_) (fun _ => ?_)
    · refine Keeps.via (State.note_keeps _ _ _) ?_
      refine Keeps.via (State.modDir_keeps _ _ _) ?_
      exact h2
    · exact h2
  · exact Keeps.refl _

theorem execHstCntClr_keeps : ∀ a0 s z, Keeps s (runRow (execHstCntClr a0 s) z) := by
  intro a0 s z
  unfold execHstCntClr
  rw [runRow_next]
  refine Keeps.ite (fun _ => ?_) (fun _ => ?_)
  · extract_lets x1 x2
    refine Keeps.cut (t := x1) ?_ (fun h3 => ?_)
    · unfold x1
      refine Keeps.via (State.noteRsv_keeps _ _ _) ?_
      exact Keeps.refl _
    refine Keeps.ite (fun _ => ?_) (fun _ => ?_)
    · refine Keeps.via (Keeps.set_link _ _) ?_
      exact h3
    · exact h3
  · exact Keeps.refl _

theorem State.drawOne_keeps : ∀ s, Keeps s (State.drawOne s) := fun _ =>
  Keeps.ofOnly (State.drawOne_only _) rfl

theorem State.draw_keeps : ∀ s, Keeps s (State.draw s).2 := fun _ =>
  Keeps.ofOnly (State.draw_only _) rfl

theorem State.drawLineKeys_keeps : ∀ s, Keeps s (State.drawLineKeys s) := fun _ =>
  Keeps.ofOnly (State.drawLineKeys_only _) rfl

theorem State.rcRefuse_keeps : ∀ s a1 a2, Keeps s (State.rcRefuse s a1 a2) := by
  intro s a1 a2
  unfold State.rcRefuse
  extract_lets x1 x2 x3
  refine Keeps.cut (t := x2) ?_ (fun h4 => ?_)
  · unfold x2
    refine Keeps.via (Keeps.set_sea _ _) ?_
    exact Keeps.refl _
  split
  · rename_i y5 y6 y7
    refine Keeps.ite (fun _ => ?_) (fun _ => ?_)
    · exact h4
    · refine Keeps.via (State.note_keeps _ _ _) ?_
      refine Keeps.via (Keeps.set_sea _ _) ?_
      exact h4
  · rename_i y8 y9
    refine Keeps.via (State.note_keeps _ _ _) ?_
    refine Keeps.via (Keeps.set_sea _ _) ?_
    exact h4

theorem execSelftestPeriod_keeps : ∀ a0 s z, Keeps s (runRow (execSelftestPeriod a0 s) z) := by
  intro a0 s z
  unfold execSelftestPeriod
  rw [runRow_next]
  refine Keeps.whenRunning (fun t1 h2 => ?_) ?_
  · refine Keeps.ite (fun _ => ?_) (fun _ => ?_)
    · exact h2
    · extract_lets x3 x4 x5
      refine Keeps.cut (t := x4) ?_ (fun h6 => ?_)
      · unfold x4
        refine Keeps.via (Keeps.set_sea _ _) ?_
        exact h2
      split
      · rename_i y7 y8 y9
        refine Keeps.via (State.haltBy_keeps _ _) ?_
        refine Keeps.via (Keeps.set_sea _ _) ?_
        exact h6
      · rename_i y10 y11
        exact h6
  · exact Keeps.refl _

theorem execDrbgReseed_keeps : ∀ s z, Keeps s (runRow (execDrbgReseed s) z) := fun _ _ =>
  Keeps.ofOnly (execDrbgReseed_only _ _) rfl

theorem execEntropyHealthFail_keeps : ∀ s z, Keeps s (runRow (execEntropyHealthFail s) z) := by
  intro s z
  unfold execEntropyHealthFail
  rw [runRow_next]
  refine Keeps.whenRunning (fun t1 h2 => ?_) ?_
  · refine Keeps.ite (fun _ => ?_) (fun _ => ?_)
    · refine Keeps.via (State.note_keeps _ _ _) ?_
      refine Keeps.via (Keeps.set_sea _ _) ?_
      exact h2
    · exact h2
  · exact Keeps.refl _

theorem execEntropyHealthRecovery_keeps : ∀ s z, Keeps s (runRow (execEntropyHealthRecovery s) z) := by
  intro s z
  unfold execEntropyHealthRecovery
  rw [runRow_next]
  refine Keeps.whenRunning (fun t1 h2 => ?_) ?_
  · refine Keeps.ite (fun _ => ?_) (fun _ => ?_)
    · exact h2
    · refine Keeps.via (State.note_keeps _ _ _) ?_
      refine Keeps.via (Keeps.set_sea _ _) ?_
      exact h2
  · exact Keeps.refl _

theorem State.setQuar_keeps : ∀ s a1, Keeps s (State.setQuar s a1) := by
  intro s a1
  unfold State.setQuar
  refine Keeps.via (State.nvmWrite_keeps _ _ _) ?_
  refine Keeps.via (State.nvmWrite_keeps _ _ _) ?_
  refine Keeps.via (Keeps.set_sea _ _) ?_
  exact Keeps.refl _

theorem execQuarClr_keeps : ∀ a0 s z, Keeps s (runRow (execQuarClr a0 s) z) := by
  intro a0 s z
  unfold execQuarClr
  rw [runRow_next]
  refine Keeps.hostBar2 (fun t1 h2 => ?_) ?_
  · refine Keeps.ite (fun _ => ?_) (fun _ => ?_)
    · refine Keeps.via (State.note_keeps _ _ _) ?_
      refine Keeps.via (State.setQuar_keeps _ _) ?_
      exact h2
    · exact h2
  · exact Keeps.refl _

theorem State.quarantine_keeps : ∀ s a1, Keeps s (State.quarantine s a1) := by
  intro s a1
  unfold State.quarantine
  refine Keeps.via (State.setQuar_keeps _ _) ?_
  exact Keeps.refl _

theorem State.countHit_keeps : ∀ s, Keeps s (State.countHit s) := fun _ =>
  Keeps.ofOnly (State.countHit_only _) rfl

theorem State.countMiss_keeps : ∀ s, Keeps s (State.countMiss s) := fun _ =>
  Keeps.ofOnly (State.countMiss_only _) rfl

theorem State.addFetch_keeps : ∀ s a1 a2, Keeps s (State.addFetch s a1 a2) := fun _ _ _ =>
  Keeps.ofOnly (State.addFetch_only _ _ _) rfl

theorem State.lookupPool_keeps : ∀ s a1 a2, Keeps s (State.lookupPool s a1 a2).2 := by
  intro s a1 a2
  unfold State.lookupPool
  refine Keeps.ite (fun _ => ?_) (fun _ => ?_)
  · exact Keeps.refl _
  · refine Keeps.via (State.touchLeaf_keeps _ _) ?_
    exact Keeps.refl _

theorem State.lookupHost_keeps : ∀ s a1 a2 a3 a4 a5, Keeps s (State.lookupHost s a1 a2 a3 a4 a5).2 := by
  intro s a1 a2 a3 a4 a5
  unfold State.lookupHost
  extract_lets x1 x2 x3
  split
  · rename_i y4 y5
    unfold x2
    refine Keeps.via (State.addFetch_keeps _ _ _) ?_
    refine Keeps.ite (fun _ => ?_) (fun _ => ?_)
    · refine Keeps.via (State.countMiss_keeps _) ?_
      exact Keeps.refl _
    · exact Keeps.refl _
  · rename_i y6 y7 y8
    extract_lets x9 x10
    refine Keeps.cut (t := x10) ?_ (fun h11 => ?_)
    · unfold x10
      refine Keeps.via (State.parityFault_keeps _ _ _) ?_
      exact Keeps.refl _
    split
    · rename_i y12
      split
      · rename_i y13
        unfold x2
        refine Keeps.via (State.addFetch_keeps _ _ _) ?_
        refine Keeps.ite (fun _ => ?_) (fun _ => ?_)
        · refine Keeps.via (State.countMiss_keeps _) ?_
          exact h11
        · exact h11
      · rename_i y14
        split
        rename_i y15 y16 y17 y18
        refine Keeps.ofPair y18 ?_
        refine Keeps.via (State.lookupPool_keeps _ _ _) ?_
        exact h11
    · rename_i y19
      refine Keeps.via (State.countHit_keeps _) ?_
      refine Keeps.via (State.touchLine_keeps _ _ _) ?_
      exact Keeps.refl _

theorem State.lookup_keeps : ∀ s a1 a2 a3 a4, Keeps s (State.lookup s a1 a2 a3 a4).2 := by
  intro s a1 a2 a3 a4
  unfold State.lookup
  extract_lets x1
  split
  · rename_i y2
    refine Keeps.via (State.lookupHost_keeps _ _ _ _ _ _) ?_
    exact Keeps.refl _
  · rename_i y3
    split
    rename_i y4 y5 y6 y7
    refine Keeps.ofPair y7 ?_
    refine Keeps.via (State.lookupPool_keeps _ _ _) ?_
    exact Keeps.refl _

theorem State.lookupRun_keeps : ∀ a0 a1 a2 a3 a4 s, Keeps s (State.lookupRun a0 a1 a2 a3 a4 s).2 := by
  intro a0 a1 a2 a3 a4 s
  induction a3 generalizing a0 a1 a2 a4 s with
  | zero =>
    rw [State.lookupRun]
    exact Keeps.refl _
  | succ n ih =>
    rw [State.lookupRun]
    split
    rename_i y1 y2 y3 y4
    extract_lets x5
    split
    rename_i y6 y7 y8 y9
    refine Keeps.ofPair y9 ?_
    refine Keeps.via (ih _ _ _ _ _) ?_
    refine Keeps.ofPair y4 ?_
    refine Keeps.via (State.lookup_keeps _ _ _ _ _) ?_
    exact Keeps.refl _

theorem State.endRead_keeps : ∀ s a1, Keeps s (State.endRead s a1) := by
  intro s a1
  unfold State.endRead
  refine Keeps.ite (fun _ => ?_) (fun _ => ?_)
  · extract_lets x1 x2 x3
    refine Keeps.cut (t := x1) ?_ (fun h4 => ?_)
    · unfold x1
      refine Keeps.via (State.writeOut_keeps _ _ _) ?_
      exact Keeps.refl _
    refine Keeps.cut (t := x2) ?_ (fun h5 => ?_)
    · unfold x2
      refine Keeps.via (State.count_keeps _ _ _) ?_
      exact h4
    split
    · rename_i y6 y7 y8 y9
      refine Keeps.via (State.complete_keeps _ _ _ _ _) ?_
      exact h5
    · rename_i y10 y11 y12
      refine Keeps.via (State.complete_keeps _ _ _ _ _) ?_
      exact h5
  · exact Keeps.refl _

theorem State.endReads_keeps : ∀ s, Keeps s (State.endReads s) := by
  intro s
  unfold State.endReads
  refine Keeps.forEach (fun a1 t2 h3 => ?_) ?_
  · refine Keeps.ite (fun _ => ?_) (fun _ => ?_)
    · refine Keeps.via (State.endRead_keeps _ _) ?_
      exact h3
    · exact h3
  · exact Keeps.refl _

theorem State.mapBlocks_keeps : ∀ s a1 a2, Keeps s (State.mapBlocks s a1 a2) := fun _ _ _ =>
  Keeps.ofOnly (State.mapBlocks_only _ _ _) rfl

theorem State.settleLine_keeps : ∀ s a1, Keeps s (State.settleLine s a1) := by
  intro s a1
  unfold State.settleLine
  extract_lets x1
  refine Keeps.cut (t := x1) ?_ (fun h2 => ?_)
  · unfold x1
    refine Keeps.via (Keeps.set_fetches _ _) ?_
    exact Keeps.refl _
  refine Keeps.via (State.endReads_keeps _) ?_
  refine Keeps.via (State.mapBlocks_keeps _ _ _) ?_
  exact h2

theorem State.setFetch_keeps : ∀ s a1, Keeps s (State.setFetch s a1) := fun _ _ =>
  Keeps.ofOnly (State.setFetch_only _ _) rfl

theorem State.linePassed_keeps : ∀ s a1 a2, Keeps s (State.linePassed s a1 a2) := by
  intro s a1 a2
  unfold State.linePassed
  split
  · rename_i y1 y2
    refine Keeps.via (State.settleLine_keeps _ _) ?_
    exact Keeps.refl _
  · rename_i y3 y4 y5
    refine Keeps.ite (fun _ => ?_) (fun _ => ?_)
    · refine Keeps.via (State.settleLine_keeps _ _) ?_
      exact Keeps.refl _
    · extract_lets x6
      refine Keeps.cut (t := x6) ?_ (fun h7 => ?_)
      · unfold x6
        refine Keeps.via (State.checkVictim_keeps _ _ _) ?_
        exact Keeps.refl _
      refine Keeps.ite (fun _ => ?_) (fun _ => ?_)
      · refine Keeps.ite (fun _ => ?_) (fun _ => ?_)
        · refine Keeps.via (State.setFetch_keeps _ _) ?_
          exact h7
        · refine Keeps.via (State.settleLine_keeps _ _) ?_
          refine Keeps.via (State.fillLine_keeps _ _ _ _ _) ?_
          exact h7
      · refine Keeps.via (State.settleLine_keeps _ _) ?_
        exact h7

theorem State.leafData_keeps : ∀ s a1 a2 a3 a4, Keeps s (State.leafData s a1 a2 a3 a4) := by
  intro s a1 a2 a3 a4
  unfold State.leafData
  split
  · rename_i y1 y2
    exact Keeps.refl _
  · rename_i y3 y4 y5
    refine Keeps.ite (fun _ => ?_) (fun _ => ?_)
    · refine Keeps.via (State.pump_keeps _) ?_
      refine Keeps.via (State.setFetch_keeps _ _) ?_
      exact Keeps.refl _
    · split
      · rename_i y6 y7 y8
        refine Keeps.via (State.pump_keeps _) ?_
        refine Keeps.via (State.settleLine_keeps _ _) ?_
        exact Keeps.refl _
      · rename_i y9 y10 y11 y12
        refine Keeps.ite (fun _ => ?_) (fun _ => ?_)
        · refine Keeps.via (State.pump_keeps _) ?_
          refine Keeps.via (State.linePassed_keeps _ _ _) ?_
          refine Keeps.ite (fun _ => ?_) (fun _ => ?_)
          · refine Keeps.via (Keeps.set_sea _ _) ?_
            exact Keeps.refl _
          · exact Keeps.refl _
        · refine Keeps.ite (fun _ => ?_) (fun _ => ?_)
          · refine Keeps.via (State.haltBy_keeps _ _) ?_
            exact Keeps.refl _
          · refine Keeps.via (State.pump_keeps _) ?_
            refine Keeps.via (State.setFetch_keeps _ _) ?_
            exact Keeps.refl _

theorem State.leafFail_keeps : ∀ s a1 a2, Keeps s (State.leafFail s a1 a2) := by
  intro s a1 a2
  unfold State.leafFail
  split
  · rename_i y1 y2
    exact Keeps.refl _
  · rename_i y3 y4 y5
    refine Keeps.ite (fun _ => ?_) (fun _ => ?_)
    · extract_lets x6
      refine Keeps.cut (t := x6) ?_ (fun h7 => ?_)
      · unfold x6
        refine Keeps.via (Keeps.set_fetches _ _) ?_
        exact Keeps.refl _
      refine Keeps.forEach (fun a8 t9 h10 => ?_) ?_
      · split
        · rename_i y11 y12 y13 y14
          refine Keeps.ite (fun _ => ?_) (fun _ => ?_)
          · refine Keeps.via (State.complete_keeps _ _ _ _ _) ?_
            exact h10
          · exact h10
        · rename_i y15 y16 y17
          exact h10
      · exact h7
    · refine Keeps.via (State.setFetch_keeps _ _) ?_
      exact Keeps.refl _

theorem execLeafFetchRetry_keeps : ∀ a0 s z, Keeps s (runRow (execLeafFetchRetry a0 s) z) := by
  intro a0 s z
  unfold execLeafFetchRetry
  rw [runRow_next]
  refine Keeps.whenServing (fun t1 h2 => ?_) ?_
  · split
    · rename_i y3 y4 y5
      refine Keeps.ite (fun _ => ?_) (fun _ => ?_)
      · refine Keeps.via (State.pump_keeps _) ?_
        refine Keeps.via (State.setFetch_keeps _ _) ?_
        exact h2
      · refine Keeps.ite (fun _ => ?_) (fun _ => ?_)
        · refine Keeps.via (State.pump_keeps _) ?_
          refine Keeps.via (State.linePassed_keeps _ _ _) ?_
          exact h2
        · exact h2
    · rename_i y6 y7
      exact h2
  · exact Keeps.refl _

theorem execRead_keeps : ∀ a0 a1 a2 s z, Keeps s (runRow (execRead a0 a1 a2 s) z) := by
  intro a0 a1 a2 s z
  unfold execRead
  rw [runRow_next]
  refine Keeps.whenServing (fun t1 h2 => ?_) ?_
  · split
    · rename_i y3 y4 y5
      refine Keeps.ite (fun _ => ?_) (fun _ => ?_)
      · exact h2
      · refine Keeps.ite (fun _ => ?_) (fun _ => ?_)
        · refine Keeps.dramCheck (fun t6 h7 => ?_) ?_
          · refine Keeps.underEpoch (fun t8 h9 => ?_) ?_
            · split
              rename_i y10 y11 y12 y13 y14 y15
              extract_lets x16
              refine Keeps.via (State.pump_keeps _) ?_
              refine Keeps.via (State.endRead_keeps _ _) ?_
              refine Keeps.via (State.setCmd_keeps _ _) ?_
              refine Keeps.ofPair y15 ?_
              refine Keeps.via (State.lookupRun_keeps _ _ _ _ _ _) ?_
              exact h9
            · exact h7
          · exact h2
        · refine Keeps.ite (fun _ => ?_) (fun _ => ?_)
          · refine Keeps.via (State.endRead_keeps _ _) ?_
            exact h2
          · exact h2
    · rename_i y17 y18
      exact h2
  · exact Keeps.refl _

theorem execMchEnableWrite_keeps : ∀ a0 s z, Keeps s (runRow (execMchEnableWrite a0 s) z) := by
  intro a0 s z
  unfold execMchEnableWrite
  rw [runRow_next]
  refine Keeps.hostBar2 (fun t1 h2 => ?_) ?_
  · refine Keeps.ite (fun _ => ?_) (fun _ => ?_)
    · refine Keeps.via (State.setMchEvt_keeps _ _) ?_
      refine Keeps.via (State.storeReg_keeps _ _ _) ?_
      exact h2
    · refine Keeps.via (State.storeReg_keeps _ _ _) ?_
      exact h2
  · exact Keeps.refl _

theorem State.invalidateWay_keeps : ∀ s a1, Keeps s (State.invalidateWay s a1) := fun _ _ =>
  Keeps.ofOnly (State.invalidateWay_only _ _) rfl

theorem execWayEn_keeps : ∀ a0 s z, Keeps s (runRow (execWayEn a0 s) z) := fun _ _ _ =>
  Keeps.ofOnly (execWayEn_only _ _ _) rfl

theorem execParityWindowExpiry_keeps : ∀ a0 s z, Keeps s (runRow (execParityWindowExpiry a0 s) z) := fun _ _ _ =>
  Keeps.ofOnly (execParityWindowExpiry_only _ _ _) rfl

theorem State.refuseOp_keeps : ∀ s, Keeps s (State.refuseOp s) := fun _ =>
  Keeps.ofOnly (State.refuseOp_only _) rfl

theorem State.beginOp_keeps : ∀ s a1 a2, Keeps s (State.beginOp s a1 a2) := fun _ _ _ =>
  Keeps.ofOnly (State.beginOp_only _ _ _) rfl

theorem execClean_keeps : ∀ a0 s z, Keeps s (runRow (execClean a0 s) z) := fun _ _ _ =>
  Keeps.ofOnly (execClean_only _ _ _) rfl

theorem execInvalidate_keeps : ∀ a0 s z, Keeps s (runRow (execInvalidate a0 s) z) := fun _ _ _ =>
  Keeps.ofOnly (execInvalidate_only _ _ _) rfl

theorem execCleanAndInvalidate_keeps : ∀ a0 s z, Keeps s (runRow (execCleanAndInvalidate a0 s) z) := fun _ _ _ =>
  Keeps.ofOnly (execCleanAndInvalidate_only _ _ _) rfl

theorem State.visitLine_keeps : ∀ s a1 a2 a3, Keeps s (State.visitLine s a1 a2 a3) := by
  intro s a1 a2 a3
  unfold State.visitLine
  split
  · rename_i y1 y2
    exact Keeps.refl _
  · rename_i y3 y4 y5
    refine Keeps.ite (fun _ => ?_) (fun _ => ?_)
    · refine Keeps.via (State.setLine_keeps _ _ _ _) ?_
      exact Keeps.refl _
    · refine Keeps.ite (fun _ => ?_) (fun _ => ?_)
      · refine Keeps.via (State.parityFault_keeps _ _ _) ?_
        exact Keeps.refl _
      · extract_lets x6 x7 x8
        refine Keeps.cut (t := x6) ?_ (fun h9 => ?_)
        · unfold x6
          refine Keeps.via (State.writeBack_keeps _ _ _) ?_
          exact Keeps.refl _
        refine Keeps.cut (t := x8) ?_ (fun h10 => ?_)
        · unfold x8
          refine Keeps.ite (fun _ => ?_) (fun _ => ?_)
          · refine Keeps.via (Keeps.set_mch _ _) ?_
            exact h9
          · exact Keeps.refl _
        refine Keeps.ite (fun _ => ?_) (fun _ => ?_)
        · refine Keeps.via (State.setLine_keeps _ _ _ _) ?_
          exact h10
        · exact h10

theorem execMaintenanceOpDone_keeps : ∀ a0 s z, Keeps s (runRow (execMaintenanceOpDone a0 s) z) := by
  intro a0 s z
  unfold execMaintenanceOpDone
  rw [runRow_next]
  refine Keeps.whenRunning (fun t1 h2 => ?_) ?_
  · split
    · rename_i y3 y4 y5 y6
      refine Keeps.ite (fun _ => ?_) (fun _ => ?_)
      · extract_lets x7 x8 x9
        refine Keeps.cut (t := x7) ?_ (fun h10 => ?_)
        · unfold x7
          refine Keeps.forEach (fun a11 t12 h13 => ?_) ?_
          · refine Keeps.via (State.visitLine_keeps _ _ _ _) ?_
            exact h13
          · exact h2
        refine Keeps.via (State.setMchEvt_keeps _ _) ?_
        refine Keeps.via (Keeps.set_mch _ _) ?_
        exact h10
      · exact h2
    · rename_i y14 y15
      exact h2
  · exact Keeps.refl _

theorem State.clearRegion_keeps : ∀ s, Keeps s (State.clearRegion s) := by
  intro s
  unfold State.clearRegion
  extract_lets x1 x2 x3
  refine Keeps.cut (t := x1) ?_ (fun h4 => ?_)
  · unfold x1
    refine Keeps.via (State.emptyCache_keeps _) ?_
    exact Keeps.refl _
  refine Keeps.cut (t := x3) ?_ (fun h5 => ?_)
  · unfold x3
    refine Keeps.via (Keeps.set_fss _ _ (by rfl) (by rfl) (by rfl)) ?_
    exact h4
  refine Keeps.forEach (fun a6 t7 h8 => ?_) ?_
  · refine Keeps.via (State.settleLine_keeps _ _) ?_
    exact h8
  · exact h5

theorem execHregEnable_keeps : ∀ s z, Keeps s (runRow (execHregEnable s) z) := by
  intro s z
  unfold execHregEnable
  rw [runRow_next]
  refine Keeps.hostBar2 (fun t1 h2 => ?_) ?_
  · refine Keeps.ite (fun _ => ?_) (fun _ => ?_)
    · exact h2
    · refine Keeps.ite (fun _ => ?_) (fun _ => ?_)
      · refine Keeps.via (State.note_keeps _ _ _) ?_
        refine Keeps.via (Keeps.set_fss _ _ (by rfl) (by rfl) (by rfl)) ?_
        exact h2
      · refine Keeps.via (Keeps.set_fss _ _ (by rfl) (by rfl) (by rfl)) ?_
        exact h2
  · exact Keeps.refl _

theorem execHregDisable_keeps : ∀ s z, Keeps s (runRow (execHregDisable s) z) := by
  intro s z
  unfold execHregDisable
  rw [runRow_next]
  refine Keeps.hostBar2 (fun t1 h2 => ?_) ?_
  · refine Keeps.ite (fun _ => ?_) (fun _ => ?_)
    · refine Keeps.via (Keeps.set_fss_mch _ _ _ (by rfl) (by rfl) (by rfl)) ?_
      exact h2
    · exact h2
  · exact Keeps.refl _

theorem execHregDisableDone_keeps : ∀ s z, Keeps s (runRow (execHregDisableDone s) z) := by
  intro s z
  unfold execHregDisableDone
  rw [runRow_next]
  refine Keeps.whenRunning (fun t1 h2 => ?_) ?_
  · refine Keeps.ite (fun _ => ?_) (fun _ => ?_)
    · refine Keeps.via (State.clearRegion_keeps _) ?_
      exact h2
    · exact h2
  · exact Keeps.refl _

theorem State.modSq_keeps : ∀ s a1 a2 a3, Keeps s (State.modSq s a1 a2 a3) := by
  intro s a1 a2 a3
  unfold State.modSq
  refine Keeps.via (State.modFn_keeps _ _ _) ?_
  exact Keeps.refl _

theorem State.modCq_keeps : ∀ s a1 a2 a3, Keeps s (State.modCq s a1 a2 a3) := by
  intro s a1 a2 a3
  unfold State.modCq
  refine Keeps.via (State.modFn_keeps _ _ _) ?_
  exact Keeps.refl _

theorem State.modDb_keeps : ∀ s a1 a2, Keeps s (State.modDb s a1 a2) := by
  intro s a1 a2
  unfold State.modDb
  refine Keeps.via (State.modFn_keeps _ _ _) ?_
  exact Keeps.refl _

theorem State.sqOff_keeps : ∀ s a1 a2, Keeps s (State.sqOff s a1 a2) := by
  intro s a1 a2
  unfold State.sqOff
  refine Keeps.via (State.setReg_keeps _ _ _) ?_
  refine Keeps.via (Keeps.set_reads _ _) ?_
  exact Keeps.refl _

theorem State.cqOff_keeps : ∀ s a1 a2, Keeps s (State.cqOff s a1 a2) := by
  intro s a1 a2
  unfold State.cqOff
  refine Keeps.via (State.setReg_keeps _ _ _) ?_
  exact Keeps.refl _

theorem State.deviceWord_keeps : ∀ s a1, Keeps s (State.deviceWord s a1) := by
  intro s a1
  unfold State.deviceWord
  refine Keeps.via (State.pumpWord_keeps _ _) ?_
  refine Keeps.via (State.modDb_keeps _ _ _) ?_
  exact Keeps.refl _

theorem State.fetchSoon_keeps : ∀ s a1, Keeps s (State.fetchSoon s a1) := by
  intro s a1
  unfold State.fetchSoon
  refine Keeps.via (State.modDb_keeps _ _ _) ?_
  exact Keeps.refl _

theorem State.wakeFn_keeps : ∀ s a1, Keeps s (State.wakeFn s a1) := by
  intro s a1
  unfold State.wakeFn
  refine Keeps.ite (fun _ => ?_) (fun _ => ?_)
  · refine Keeps.via (State.fetchSoon_keeps _ _) ?_
    refine Keeps.via (State.deviceWord_keeps _ _) ?_
    refine Keeps.via (State.modDb_keeps _ _ _) ?_
    exact Keeps.refl _
  · exact Keeps.refl _

theorem State.setRingErr_keeps : ∀ s a1 a2 a3 a4, Keeps s (State.setRingErr s a1 a2 a3 a4) := by
  intro s a1 a2 a3 a4
  unfold State.setRingErr
  refine Keeps.ite (fun _ => ?_) (fun _ => ?_)
  · refine Keeps.via (State.modCq_keeps _ _ _ _) ?_
    exact Keeps.refl _
  · refine Keeps.via (State.modSq_keeps _ _ _ _) ?_
    exact Keeps.refl _

theorem execRingEnable_keeps : ∀ a0 a1 a2 a3 s z, Keeps s (runRow (execRingEnable a0 a1 a2 a3 s) z) := by
  intro a0 a1 a2 a3 s z
  unfold execRingEnable
  rw [runRow_next]
  refine Keeps.hostBar0 (fun t1 h2 => ?_) ?_
  · extract_lets x3 x4 x5 x6 x7 x8
    refine Keeps.cut (t := x5) ?_ (fun h9 => ?_)
    · unfold x5
      refine Keeps.via (State.storeReg_keeps _ _ _) ?_
      exact h2
    refine Keeps.cut (t := x7) ?_ (fun h10 => ?_)
    · unfold x7
      refine Keeps.via (State.setReg_keeps _ _ _) ?_
      exact h9
    refine Keeps.cut (t := x8) ?_ (fun h11 => ?_)
    · unfold x8
      refine Keeps.ite (fun _ => ?_) (fun _ => ?_)
      · refine Keeps.via (State.modCq_keeps _ _ _ _) ?_
        exact h10
      · refine Keeps.via (State.modSq_keeps _ _ _ _) ?_
        exact h10
    refine Keeps.ite (fun _ => ?_) (fun _ => ?_)
    · refine Keeps.via (State.noteRsv_keeps _ _ _) ?_
      exact h2
    · split
      · rename_i y12 y13 y14 y15
        refine Keeps.via (State.logEv_keeps _ _ _ _) ?_
        refine Keeps.via (State.setRingErr_keeps _ _ _ _ _) ?_
        exact h9
      · rename_i y16 y17 y18
        refine Keeps.via (State.pump_keeps _) ?_
        refine Keeps.via (State.fetchSoon_keeps _ _) ?_
        refine Keeps.via (State.wakeFn_keeps _ _) ?_
        exact h11
  · exact Keeps.refl _

theorem execRingDisable_keeps : ∀ a0 a1 a2 a3 s z, Keeps s (runRow (execRingDisable a0 a1 a2 a3 s) z) := by
  intro a0 a1 a2 a3 s z
  unfold execRingDisable
  rw [runRow_next]
  refine Keeps.hostBar0 (fun t1 h2 => ?_) ?_
  · extract_lets x3 x4 x5
    refine Keeps.cut (t := x5) ?_ (fun h6 => ?_)
    · unfold x5
      refine Keeps.via (State.noteRsv_keeps _ _ _) ?_
      exact h2
    refine Keeps.ite (fun _ => ?_) (fun _ => ?_)
    · refine Keeps.ite (fun _ => ?_) (fun _ => ?_)
      · refine Keeps.via (State.logEv_keeps _ _ _ _) ?_
        refine Keeps.via (State.setRingErr_keeps _ _ _ _ _) ?_
        exact h6
      · refine Keeps.ite (fun _ => ?_) (fun _ => ?_)
        · refine Keeps.via (State.cqOff_keeps _ _ _) ?_
          exact h6
        · refine Keeps.via (State.sqOff_keeps _ _ _) ?_
          exact h6
    · refine Keeps.via (State.storeReg_keeps _ _ _) ?_
      exact h2
  · exact Keeps.refl _

theorem execDbEnWrite_keeps : ∀ a0 a1 s z, Keeps s (runRow (execDbEnWrite a0 a1 s) z) := by
  intro a0 a1 s z
  unfold execDbEnWrite
  rw [runRow_next]
  refine Keeps.hostBar0 (fun t1 h2 => ?_) ?_
  · extract_lets x3 x4 x5 x6 x7
    refine Keeps.cut (t := x6) ?_ (fun h8 => ?_)
    · unfold x6
      refine Keeps.via (State.storeReg_keeps _ _ _) ?_
      exact h2
    refine Keeps.cut (t := x7) ?_ (fun h9 => ?_)
    · unfold x7
      refine Keeps.via (State.wakeFn_keeps _ _) ?_
      exact h8
    refine Keeps.via (State.pump_keeps _) ?_
    refine Keeps.ite (fun _ => ?_) (fun _ => ?_)
    · refine Keeps.via (State.fetchSoon_keeps _ _) ?_
      exact h9
    · exact h9
  · exact Keeps.refl _

theorem execWake_keeps : ∀ a0 s z, Keeps s (runRow (execWake a0 s) z) := by
  intro a0 s z
  unfold execWake
  rw [runRow_next]
  refine Keeps.hostBar0 (fun t1 h2 => ?_) ?_
  · refine Keeps.ite (fun _ => ?_) (fun _ => ?_)
    · refine Keeps.via (State.pump_keeps _) ?_
      refine Keeps.via (State.wakeFn_keeps _ _) ?_
      exact h2
    · refine Keeps.via (State.modFn_keeps _ _ _) ?_
      exact h2
  · exact Keeps.refl _

theorem State.issueFetch_keeps : ∀ s a1, Keeps s (State.issueFetch s a1) := by
  intro s a1
  unfold State.issueFetch
  refine Keeps.via (State.issueRead_keeps _ _ _ _ _ _) ?_
  refine Keeps.via (State.modDb_keeps _ _ _) ?_
  exact Keeps.refl _

theorem State.retryEntries_keeps : ∀ s a1, Keeps s (State.retryEntries s a1) := by
  intro s a1
  unfold State.retryEntries
  refine Keeps.via (State.modFn_keeps _ _ _) ?_
  exact Keeps.refl _

theorem execDoorbellFetch_keeps : ∀ a0 s z, Keeps s (runRow (execDoorbellFetch a0 s) z) := by
  intro a0 s z
  unfold execDoorbellFetch
  rw [runRow_next]
  refine Keeps.whenServing (fun t1 h2 => ?_) ?_
  · extract_lets x3 x4 x5
    refine Keeps.cut (t := x5) ?_ (fun h6 => ?_)
    · unfold x5
      refine Keeps.via (State.retryEntries_keeps _ _) ?_
      exact h2
    refine Keeps.ite (fun _ => ?_) (fun _ => ?_)
    · refine Keeps.via (State.pump_keeps _) ?_
      refine Keeps.ite (fun _ => ?_) (fun _ => ?_)
      · exact h6
      · refine Keeps.via (State.issueFetch_keeps _ _) ?_
        exact h6
    · exact h2
  · exact Keeps.refl _

theorem State.faultSq_keeps : ∀ s a1 a2 a3, Keeps s (State.faultSq s a1 a2 a3) := by
  intro s a1 a2 a3
  unfold State.faultSq
  refine Keeps.via (State.logEv_keeps _ _ _ _) ?_
  refine Keeps.via (State.setRngEvt_keeps _ _ _) ?_
  refine Keeps.via (State.modSq_keeps _ _ _ _) ?_
  refine Keeps.via (State.sqOff_keeps _ _ _) ?_
  exact Keeps.refl _

theorem State.faultCq_keeps : ∀ s a1 a2 a3, Keeps s (State.faultCq s a1 a2 a3) := by
  intro s a1 a2 a3
  unfold State.faultCq
  extract_lets x1
  refine Keeps.cut (t := x1) ?_ (fun h2 => ?_)
  · unfold x1
    refine Keeps.via (State.logEv_keeps _ _ _ _) ?_
    refine Keeps.via (State.setRngEvt_keeps _ _ _) ?_
    refine Keeps.via (State.modCq_keeps _ _ _ _) ?_
    refine Keeps.via (State.cqOff_keeps _ _ _) ?_
    exact Keeps.refl _
  refine Keeps.forBelow (fun a3 t4 h5 => ?_) ?_
  · refine Keeps.ite (fun _ => ?_) (fun _ => ?_)
    · refine Keeps.via (State.faultSq_keeps _ _ _ _) ?_
      exact h5
    · exact h5
  · exact h2

theorem State.takeDoorbell_keeps : ∀ s a1 a2, Keeps s (State.takeDoorbell s a1 a2).2 := by
  intro s a1 a2
  unfold State.takeDoorbell
  extract_lets x1
  refine Keeps.cut (t := x1.2) ?_ (fun h2 => ?_)
  · unfold x1
    refine Keeps.foldlSnd (fun t4 a3 h5 => ?_) ?_
    · split
      · rename_i y6
        extract_lets x7 x8
        split
        · rename_i y9
          refine Keeps.via (State.faultCq_keeps _ _ _ _) ?_
          exact h5
        · rename_i y10
          refine Keeps.via (State.modCq_keeps _ _ _ _) ?_
          exact h5
      · rename_i y11
        exact h5
    · exact Keeps.refl _
  refine Keeps.foldlSnd (fun t13 a12 h14 => ?_) ?_
  · split
    · rename_i y15
      extract_lets x16
      split
      · rename_i y17
        refine Keeps.via (State.faultSq_keeps _ _ _ _) ?_
        exact h14
      · rename_i y18
        refine Keeps.via (State.modSq_keeps _ _ _ _) ?_
        exact h14
    · rename_i y19
      exact h14
  · exact h2

theorem State.enterSleep_keeps : ∀ s a1, Keeps s (State.enterSleep s a1) := by
  intro s a1
  unfold State.enterSleep
  refine Keeps.via (State.issueFetch_keeps _ _) ?_
  refine Keeps.via (State.deviceWord_keeps _ _) ?_
  refine Keeps.via (State.modDb_keeps _ _ _) ?_
  exact Keeps.refl _

theorem State.doorbellData_keeps : ∀ s a1 a2, Keeps s (State.doorbellData s a1 a2) := by
  intro s a1 a2
  unfold State.doorbellData
  refine Keeps.ite (fun _ => ?_) (fun _ => ?_)
  · exact Keeps.refl _
  · split
    rename_i y1 y2 y3 y4 y5
    extract_lets x6 x7 x8
    refine Keeps.cut (t := x6) ?_ (fun h9 => ?_)
    · unfold x6
      refine Keeps.via (State.modDb_keeps _ _ _) ?_
      refine Keeps.ofPair y5 ?_
      refine Keeps.via (State.takeDoorbell_keeps _ _ _) ?_
      exact Keeps.refl _
    refine Keeps.cut (t := x8) ?_ (fun h10 => ?_)
    · unfold x8
      refine Keeps.ite (fun _ => ?_) (fun _ => ?_)
      · refine Keeps.ite (fun _ => ?_) (fun _ => ?_)
        · refine Keeps.via (State.deviceWord_keeps _ _) ?_
          refine Keeps.via (State.modDb_keeps _ _ _) ?_
          exact h9
        · refine Keeps.via (State.modDb_keeps _ _ _) ?_
          exact h9
      · refine Keeps.ite (fun _ => ?_) (fun _ => ?_)
        · refine Keeps.via (State.enterSleep_keeps _ _) ?_
          exact h9
        · exact h9
    refine Keeps.via (State.pump_keeps _) ?_
    exact h10

theorem State.doorbellFail_keeps : ∀ s a1, Keeps s (State.doorbellFail s a1) := by
  intro s a1
  unfold State.doorbellFail
  extract_lets x1 x2
  refine Keeps.cut (t := x1) ?_ (fun h3 => ?_)
  · unfold x1
    refine Keeps.via (Keeps.set_dbErr _ _) ?_
    exact Keeps.refl _
  refine Keeps.cut (t := x2) ?_ (fun h4 => ?_)
  · unfold x2
    refine Keeps.via (State.modDb_keeps _ _ _) ?_
    exact h3
  refine Keeps.ite (fun _ => ?_) (fun _ => ?_)
  · refine Keeps.via (State.logEv_keeps _ _ _ _) ?_
    refine Keeps.via (State.setRngEvt_keeps _ _ _) ?_
    refine Keeps.via (State.modDb_keeps _ _ _) ?_
    exact h4
  · exact h4

theorem execDoorbellFetchComplete_keeps : ∀ a0 a1 s z, Keeps s (runRow (execDoorbellFetchComplete a0 a1 s) z) := by
  intro a0 a1 s z
  unfold execDoorbellFetchComplete
  rw [runRow_next]
  refine Keeps.whenServing (fun t1 h2 => ?_) ?_
  · refine Keeps.ite (fun _ => ?_) (fun _ => ?_)
    · refine Keeps.via (State.doorbellData_keeps _ _ _) ?_
      refine Keeps.via (Keeps.set_reads _ _) ?_
      exact h2
    · exact h2
  · exact Keeps.refl _

theorem State.takeEntry_keeps : ∀ s a1 a2 a3, Keeps s (State.takeEntry s a1 a2 a3) := by
  intro s a1 a2 a3
  unfold State.takeEntry
  extract_lets x1 x2 x3 x4
  refine Keeps.cut (t := x3) ?_ (fun h5 => ?_)
  · unfold x3
    refine Keeps.via (State.modSq_keeps _ _ _ _) ?_
    exact Keeps.refl _
  refine Keeps.cut (t := x4) ?_ (fun h6 => ?_)
  · unfold x4
    refine Keeps.via (State.modFn_keeps _ _ _) ?_
    exact h5
  refine Keeps.ite (fun _ => ?_) (fun _ => ?_)
  · refine Keeps.via (State.pump_keeps _) ?_
    refine Keeps.via (State.accept_keeps _ _ _ _ _) ?_
    exact h6
  · exact Keeps.refl _

theorem State.entryFail_keeps : ∀ s a1 a2, Keeps s (State.entryFail s a1 a2) := by
  intro s a1 a2
  unfold State.entryFail
  extract_lets x1
  refine Keeps.cut (t := x1) ?_ (fun h2 => ?_)
  · unfold x1
    refine Keeps.via (State.modSq_keeps _ _ _ _) ?_
    refine Keeps.via (Keeps.set_sqErr _ _) ?_
    exact Keeps.refl _
  refine Keeps.ite (fun _ => ?_) (fun _ => ?_)
  · refine Keeps.via (State.faultSq_keeps _ _ _ _) ?_
    exact h2
  · exact h2

theorem execCommandAccept_keeps : ∀ a0 a1 a2 s z, Keeps s (runRow (execCommandAccept a0 a1 a2 s) z) := by
  intro a0 a1 a2 s z
  unfold execCommandAccept
  rw [runRow_next]
  refine Keeps.whenServing (fun t1 h2 => ?_) ?_
  · refine Keeps.ite (fun _ => ?_) (fun _ => ?_)
    · refine Keeps.via (State.takeEntry_keeps _ _ _ _) ?_
      refine Keeps.via (Keeps.set_reads _ _) ?_
      exact h2
    · exact h2
  · exact Keeps.refl _

theorem State.settleDue_keeps : ∀ s a1, Keeps s (State.settleDue s a1) := by
  intro s a1
  unfold State.settleDue
  extract_lets x1
  refine Keeps.cut (t := x1) ?_ (fun h2 => ?_)
  · unfold x1
    refine Keeps.ite (fun _ => ?_) (fun _ => ?_)
    · exact Keeps.refl _
    · refine Keeps.via (State.windowDone_keeps _ _ _ _ _ _) ?_
      exact Keeps.refl _
  refine Keeps.via (State.dropCmd_keeps _ _) ?_
  refine Keeps.via (Keeps.set_due _ _) ?_
  exact h2

theorem State.signalCq_keeps : ∀ s a1 a2, Keeps s (State.signalCq s a1 a2) := by
  intro s a1 a2
  unfold State.signalCq
  refine Keeps.via (State.raise_keeps _ _ _) ?_
  refine Keeps.via (State.modCq_keeps _ _ _ _) ?_
  exact Keeps.refl _

theorem State.writeCq_keeps : ∀ s a1, Keeps s (State.writeCq s a1) := by
  intro s a1
  unfold State.writeCq
  extract_lets x1 x2 x3 x4 x5 x6 x7 x8
  refine Keeps.cut (t := x5) ?_ (fun h9 => ?_)
  · unfold x5
    refine Keeps.via (State.emit_keeps _ _) ?_
    exact Keeps.refl _
  refine Keeps.cut (t := x6) ?_ (fun h10 => ?_)
  · unfold x6
    refine Keeps.via (State.modCq_keeps _ _ _ _) ?_
    exact h9
  refine Keeps.cut (t := x7) ?_ (fun h11 => ?_)
  · unfold x7
    refine Keeps.via (State.modDb_keeps _ _ _) ?_
    exact h10
  refine Keeps.cut (t := x8) ?_ (fun h12 => ?_)
  · unfold x8
    refine Keeps.via (State.settleDue_keeps _ _) ?_
    exact h11
  refine Keeps.ite (fun _ => ?_) (fun _ => ?_)
  · refine Keeps.via (State.signalCq_keeps _ _ _) ?_
    exact h12
  · exact h12

theorem State.discardDue_keeps : ∀ s a1, Keeps s (State.discardDue s a1) := by
  intro s a1
  unfold State.discardDue
  refine Keeps.via (State.logEv_keeps _ _ _ _) ?_
  refine Keeps.via (State.settleDue_keeps _ _) ?_
  exact Keeps.refl _

theorem execCompletionWrite_keeps : ∀ a0 s z, Keeps s (runRow (execCompletionWrite a0 s) z) := by
  intro a0 s z
  unfold execCompletionWrite
  rw [runRow_next]
  refine Keeps.whenServing (fun t1 h2 => ?_) ?_
  · split
    · rename_i y3 y4 y5
      extract_lets x6
      refine Keeps.ite (fun _ => ?_) (fun _ => ?_)
      · exact h2
      · refine Keeps.ite (fun _ => ?_) (fun _ => ?_)
        · refine Keeps.via (State.pump_keeps _) ?_
          refine Keeps.via (State.discardDue_keeps _ _) ?_
          exact h2
        · refine Keeps.ite (fun _ => ?_) (fun _ => ?_)
          · exact h2
          · refine Keeps.via (State.pump_keeps _) ?_
            refine Keeps.via (State.writeCq_keeps _ _) ?_
            exact h2
    · rename_i y7 y8
      exact h2
  · exact Keeps.refl _

theorem execCoalescingTimeout_keeps : ∀ a0 a1 s z, Keeps s (runRow (execCoalescingTimeout a0 a1 s) z) := by
  intro a0 a1 s z
  unfold execCoalescingTimeout
  rw [runRow_next]
  refine Keeps.whenServing (fun t1 h2 => ?_) ?_
  · extract_lets x3
    refine Keeps.ite (fun _ => ?_) (fun _ => ?_)
    · refine Keeps.via (State.signalCq_keeps _ _ _) ?_
      exact h2
    · exact h2
  · exact Keeps.refl _

theorem execGoTask_keeps : ∀ a0 a1 s z, Keeps s (runRow (execGoTask a0 a1 s) z) := by
  intro a0 a1 s z
  unfold execGoTask
  rw [runRow_next]
  refine Keeps.hostBar0 (fun t1 h2 => ?_) ?_
  · extract_lets x3 x4
    refine Keeps.cut (t := x4) ?_ (fun h5 => ?_)
    · unfold x4
      refine Keeps.via (State.modFn_keeps _ _ _) ?_
      exact h2
    refine Keeps.ite (fun _ => ?_) (fun _ => ?_)
    · exact h2
    · refine Keeps.ite (fun _ => ?_) (fun _ => ?_)
      · refine Keeps.via (State.accError_keeps _ _ _ _) ?_
        exact h2
      · refine Keeps.via (State.pump_keeps _) ?_
        refine Keeps.via (State.accept_keeps _ _ _ _ _) ?_
        exact h5
  · exact Keeps.refl _

theorem execTaskPortCompletion_keeps : ∀ a0 s z, Keeps s (runRow (execTaskPortCompletion a0 s) z) := by
  intro a0 s z
  unfold execTaskPortCompletion
  rw [runRow_next]
  refine Keeps.whenServing (fun t1 h2 => ?_) ?_
  · split
    · rename_i y3 y4 y5
      refine Keeps.ite (fun _ => ?_) (fun _ => ?_)
      · exact h2
      · extract_lets x6 x7 x8 x9
        refine Keeps.cut (t := x7) ?_ (fun h10 => ?_)
        · unfold x7
          refine Keeps.via (State.modFn_keeps _ _ _) ?_
          exact h2
        refine Keeps.cut (t := x8) ?_ (fun h11 => ?_)
        · unfold x8
          refine Keeps.via (State.modDb_keeps _ _ _) ?_
          exact h10
        refine Keeps.cut (t := x9) ?_ (fun h12 => ?_)
        · unfold x9
          refine Keeps.via (State.settleDue_keeps _ _) ?_
          exact h11
        refine Keeps.via (State.pump_keeps _) ?_
        refine Keeps.ite (fun _ => ?_) (fun _ => ?_)
        · refine Keeps.via (State.raise_keeps _ _ _) ?_
          exact h12
        · exact h12
    · rename_i y13 y14
      exact h2
  · exact Keeps.refl _

theorem execMbInPost_keeps : ∀ a0 a1 s z, Keeps s (runRow (execMbInPost a0 a1 s) z) := by
  intro a0 a1 s z
  unfold execMbInPost
  rw [runRow_next]
  refine Keeps.hostBar0 (fun t1 h2 => ?_) ?_
  · extract_lets x3 x4 x5 x6
    refine Keeps.cut (t := x6) ?_ (fun h7 => ?_)
    · unfold x6
      refine Keeps.via (State.modFn_keeps _ _ _) ?_
      exact h2
    refine Keeps.ite (fun _ => ?_) (fun _ => ?_)
    · refine Keeps.via (State.accError_keeps _ _ _ _) ?_
      exact h7
    · exact h7
  · exact Keeps.refl _

theorem State.relay_keeps : ∀ s a1 a2, Keeps s (State.relay s a1 a2) := by
  intro s a1 a2
  unfold State.relay
  extract_lets x1 x2 x3
  refine Keeps.ite (fun _ => ?_) (fun _ => ?_)
  · refine Keeps.ite (fun _ => ?_) (fun _ => ?_)
    · refine Keeps.via (State.postMsg_keeps _ _ _ _ _ _ _) ?_
      exact Keeps.refl _
    · refine Keeps.via (State.logEv_keeps _ _ _ _) ?_
      exact Keeps.refl _
  · refine Keeps.ite (fun _ => ?_) (fun _ => ?_)
    · refine Keeps.via (State.logEv_keeps _ _ _ _) ?_
      exact Keeps.refl _
    · refine Keeps.ite (fun _ => ?_) (fun _ => ?_)
      · refine Keeps.via (State.setInsEvt_keeps _ _ _) ?_
        exact Keeps.refl _
      · refine Keeps.via (State.postMsg_keeps _ _ _ _ _ _ _) ?_
        exact Keeps.refl _

theorem execMailboxConsume_keeps : ∀ a0 s z, Keeps s (runRow (execMailboxConsume a0 s) z) := by
  intro a0 s z
  unfold execMailboxConsume
  rw [runRow_next]
  refine Keeps.whenServing (fun t1 h2 => ?_) ?_
  · extract_lets x3
    split
    · rename_i y4 y5 y6 y7
      refine Keeps.ite (fun _ => ?_) (fun _ => ?_)
      · exact h2
      · extract_lets x8 x9 x10
        refine Keeps.cut (t := x9) ?_ (fun h11 => ?_)
        · unfold x9
          refine Keeps.via (State.modFn_keeps _ _ _) ?_
          exact h2
        refine Keeps.cut (t := x10) ?_ (fun h12 => ?_)
        · unfold x10
          refine Keeps.ite (fun _ => ?_) (fun _ => ?_)
          · refine Keeps.via (State.relay_keeps _ _ _) ?_
            exact h11
          · refine Keeps.via (State.logEv_keeps _ _ _ _) ?_
            exact h11
        refine Keeps.via (State.setInsEvt_keeps _ _ _) ?_
        exact h12
    · rename_i y13 y14
      exact h2
  · exact Keeps.refl _

theorem execMbOutAck_keeps : ∀ a0 a1 s z, Keeps s (runRow (execMbOutAck a0 a1 s) z) := by
  intro a0 a1 s z
  unfold execMbOutAck
  rw [runRow_next]
  refine Keeps.hostBar0 (fun t1 h2 => ?_) ?_
  · refine Keeps.via (State.fillSlots_keeps _ _) ?_
    refine Keeps.via (State.modFn_keeps _ _ _) ?_
    exact h2
  · exact Keeps.refl _

theorem State.policySeq_keeps : ∀ s a1, Keeps s (State.policySeq s a1) := by
  intro s a1
  unfold State.policySeq
  extract_lets x1 x2
  refine Keeps.cut (t := x2) ?_ (fun h3 => ?_)
  · unfold x2
    refine Keeps.via (State.modInst_keeps _ _ _) ?_
    exact Keeps.refl _
  refine Keeps.ite (fun _ => ?_) (fun _ => ?_)
  · refine Keeps.ite (fun _ => ?_) (fun _ => ?_)
    · exact h3
    · refine Keeps.via (State.postOwn_keeps _ _ _ _) ?_
      exact h3
  · exact Keeps.refl _

theorem State.pageWord_keeps : ∀ s a1 a2 a3, Keeps s (State.pageWord s a1 a2 a3) := by
  intro s a1 a2 a3
  unfold State.pageWord
  split
  rename_i y1 y2 y3 y4
  refine Keeps.ite (fun _ => ?_) (fun _ => ?_)
  · exact Keeps.refl _
  · refine Keeps.ite (fun _ => ?_) (fun _ => ?_)
    · refine Keeps.ite (fun _ => ?_) (fun _ => ?_)
      · refine Keeps.via (State.modInst_keeps _ _ _) ?_
        exact Keeps.refl _
      · refine Keeps.via (State.accError_keeps _ _ _ _) ?_
        exact Keeps.refl _
    · refine Keeps.ite (fun _ => ?_) (fun _ => ?_)
      · extract_lets x5
        refine Keeps.cut (t := x5) ?_ (fun h6 => ?_)
        · unfold x5
          refine Keeps.via (State.modInst_keeps _ _ _) ?_
          exact Keeps.refl _
        refine Keeps.ite (fun _ => ?_) (fun _ => ?_)
        · refine Keeps.via (State.policySeq_keeps _ _) ?_
          exact h6
        · exact h6
      · refine Keeps.via (State.accError_keeps _ _ _ _) ?_
        exact Keeps.refl _

theorem execSharedPageWrite_keeps : ∀ a0 a1 a2 s z, Keeps s (runRow (execSharedPageWrite a0 a1 a2 s) z) := by
  intro a0 a1 a2 s z
  unfold execSharedPageWrite
  rw [runRow_next]
  refine Keeps.hostBar0 (fun t1 h2 => ?_) ?_
  · extract_lets x3 x4 x5
    refine Keeps.cut (t := x5) ?_ (fun h6 => ?_)
    · unfold x5
      refine Keeps.via (State.pageWord_keeps _ _ _ _) ?_
      exact h2
    refine Keeps.ite (fun _ => ?_) (fun _ => ?_)
    · refine Keeps.via (State.pageWord_keeps _ _ _ _) ?_
      exact h2
    · refine Keeps.ite (fun _ => ?_) (fun _ => ?_)
      · refine Keeps.ite (fun _ => ?_) (fun _ => ?_)
        · refine Keeps.via (State.pageWord_keeps _ _ _ _) ?_
          exact h6
        · exact h6
      · refine Keeps.via (State.accError_keeps _ _ _ _) ?_
        exact h2
  · exact Keeps.refl _

theorem State.drawKey_keeps : ∀ s, Keeps s (State.drawKey s).2 := by
  intro s
  unfold State.drawKey
  extract_lets x1
  refine Keeps.cut (t := x1) ?_ (fun h2 => ?_)
  · unfold x1
    refine Keeps.via (State.ctrInc_keeps _ _) ?_
    exact Keeps.refl _
  refine Keeps.via (State.drawOne_keeps _) ?_
  exact h2

theorem State.destroyKey_keeps : ∀ s a1, Keeps s (State.destroyKey s a1) := by
  intro s a1
  unfold State.destroyKey
  split
  · rename_i y1 y2 y3
    refine Keeps.via (State.modInst_keeps _ _ _) ?_
    refine Keeps.via (State.ctrRaise_keeps _ _ _) ?_
    exact Keeps.refl _
  · rename_i y4 y5
    exact Keeps.refl _

theorem State.beginReset_keeps : ∀ s a1 a2 a3 a4, Keeps s (State.beginReset s a1 a2 a3 a4) := by
  intro s a1 a2 a3 a4
  unfold State.beginReset
  refine Keeps.via (State.setIState_keeps _ _ _) ?_
  refine Keeps.via (State.modInst_keeps _ _ _) ?_
  exact Keeps.refl _

theorem State.joinReset_keeps : ∀ s a1 a2 a3, Keeps s (State.joinReset s a1 a2 a3) := by
  intro s a1 a2 a3
  unfold State.joinReset
  refine Keeps.via (State.modInst_keeps _ _ _) ?_
  exact Keeps.refl _

theorem State.resetFor_keeps : ∀ s a1 a2, Keeps s (State.resetFor s a1 a2) := by
  intro s a1 a2
  unfold State.resetFor
  split
  · rename_i y1 y2
    refine Keeps.via (State.beginReset_keeps _ _ _ _ _) ?_
    exact Keeps.refl _
  · rename_i y3 y4
    refine Keeps.via (State.joinReset_keeps _ _ _ _) ?_
    exact Keeps.refl _
  · rename_i y5 y6 y7
    exact Keeps.refl _

theorem State.settleBoundaries_keeps : ∀ s, Keeps s (State.settleBoundaries s) := by
  intro s
  unfold State.settleBoundaries
  refine Keeps.forBelow (fun a1 t2 h3 => ?_) ?_
  · split
    · rename_i y4 y5 y6
      refine Keeps.via (State.takeBoundary_keeps _ _) ?_
      exact h3
    · rename_i y7 y8
      exact h3
  · refine Keeps.via (State.jumpPeriods_keeps _) ?_
    exact Keeps.refl _

theorem State.finishManager_keeps : ∀ s a1, Keeps s (State.finishManager s a1) := by
  intro s a1
  unfold State.finishManager
  extract_lets x1 x2 x3 x4 x5 x6 x7
  refine Keeps.cut (t := x4) ?_ (fun h8 => ?_)
  · unfold x4
    refine Keeps.via (State.modInst_keeps _ _ _) ?_
    exact Keeps.refl _
  refine Keeps.cut (t := x5) ?_ (fun h9 => ?_)
  · unfold x5
    refine Keeps.via (State.postPeer_keeps _ _ _ _) ?_
    exact h8
  refine Keeps.cut (t := x6) ?_ (fun h10 => ?_)
  · unfold x6
    refine Keeps.via (State.logEv_keeps _ _ _ _) ?_
    exact h9
  refine Keeps.cut (t := x7) ?_ (fun h11 => ?_)
  · unfold x7
    refine Keeps.via (State.settleBoundaries_keeps _) ?_
    exact Keeps.refl _
  split
  · rename_i y12 y13
    refine Keeps.via (State.complete_keeps _ _ _ _ _) ?_
    refine Keeps.via (State.quotaCheck_keeps _ _) ?_
    exact h10
  · rename_i y14 y15
    refine Keeps.via (State.complete_keeps _ _ _ _ _) ?_
    refine Keeps.via (State.modInst_keeps _ _ _) ?_
    exact Keeps.refl _
  · rename_i y16 y17
    refine Keeps.via (State.complete_keeps _ _ _ _ _) ?_
    refine Keeps.via (State.quotaCheck_keeps _ _) ?_
    refine Keeps.via (State.modInst_keeps _ _ _) ?_
    exact Keeps.refl _
  · rename_i y18 y19
    refine Keeps.ite (fun _ => ?_) (fun _ => ?_)
    · refine Keeps.via (State.complete_keeps _ _ _ _ _) ?_
      exact h11
    · refine Keeps.ite (fun _ => ?_) (fun _ => ?_)
      · refine Keeps.via (State.completeFlushed_keeps _ _ _) ?_
        refine Keeps.via (State.journalRecord_keeps _ _) ?_
        exact h11
      · refine Keeps.via (State.complete_keeps _ _ _ _ _) ?_
        refine Keeps.via (State.settleBoundaries_keeps _) ?_
        refine Keeps.via (State.modInst_keeps _ _ _) ?_
        exact h11
  · rename_i y20 y21 y22 y23 y24
    refine Keeps.via (State.complete_keeps _ _ _ _ _) ?_
    exact Keeps.refl _

theorem execInstanceStart_keeps : ∀ a0 s z, Keeps s (runRow (execInstanceStart a0 s) z) := by
  intro a0 s z
  unfold execInstanceStart
  rw [runRow_next]
  refine Keeps.withCmd (fun c1 t2 h3 => ?_) ?_
  · refine Keeps.manage (fun t4 h5 => ?_) ?_
    · refine Keeps.ite (fun _ => ?_) (fun _ => ?_)
      · extract_lets x6
        split
        rename_i y7 y8 y9 y10 y11
        extract_lets x12
        refine Keeps.via (State.completeFlushed_keeps _ _ _) ?_
        refine Keeps.via (State.journalRecordOf_keeps _ _ _) ?_
        refine Keeps.ofPair y11 ?_
        refine Keeps.via (State.drawKey_keeps _) ?_
        exact h5
      · refine Keeps.ite (fun _ => ?_) (fun _ => ?_)
        · refine Keeps.via (State.complete_keeps _ _ _ _ _) ?_
          exact h5
        · exact h5
    · exact h3
  · exact Keeps.refl _

theorem execInstanceReset_keeps : ∀ a0 s z, Keeps s (runRow (execInstanceReset a0 s) z) := by
  intro a0 s z
  unfold execInstanceReset
  rw [runRow_next]
  refine Keeps.withCmd (fun c1 t2 h3 => ?_) ?_
  · refine Keeps.manage (fun t4 h5 => ?_) ?_
    · extract_lets x6 x7
      refine Keeps.cut (t := x7) ?_ (fun h8 => ?_)
      · unfold x7
        refine Keeps.via (State.setCmd_keeps _ _) ?_
        exact h5
      refine Keeps.ite (fun _ => ?_) (fun _ => ?_)
      · refine Keeps.via (State.beginReset_keeps _ _ _ _ _) ?_
        exact h8
      · refine Keeps.via (State.joinReset_keeps _ _ _ _) ?_
        exact h8
    · exact h3
  · exact Keeps.refl _

theorem execInstanceRemove_keeps : ∀ a0 s z, Keeps s (runRow (execInstanceRemove a0 s) z) := by
  intro a0 s z
  unfold execInstanceRemove
  rw [runRow_next]
  refine Keeps.withCmd (fun c1 t2 h3 => ?_) ?_
  · refine Keeps.manage (fun t4 h5 => ?_) ?_
    · extract_lets x6 x7
      refine Keeps.cut (t := x7) ?_ (fun h8 => ?_)
      · unfold x7
        refine Keeps.forEach (fun a9 t10 h11 => ?_) ?_
        · refine Keeps.via (State.touchLeaf_keeps _ _) ?_
          exact h11
        · exact h5
      split
      · rename_i y12 y13 y14
        refine Keeps.via (State.complete_keeps _ _ _ _ _) ?_
        exact h8
      · rename_i y15 y16
        refine Keeps.ite (fun _ => ?_) (fun _ => ?_)
        · refine Keeps.via (State.beginReset_keeps _ _ _ _ _) ?_
          refine Keeps.via (State.setCmd_keeps _ _) ?_
          exact h8
        · exact h8
    · exact h3
  · exact Keeps.refl _

theorem execSetPolicy_keeps : ∀ a0 s z, Keeps s (runRow (execSetPolicy a0 s) z) := by
  intro a0 s z
  unfold execSetPolicy
  rw [runRow_next]
  refine Keeps.withCmd (fun c1 t2 h3 => ?_) ?_
  · refine Keeps.manage (fun t4 h5 => ?_) ?_
    · extract_lets x6
      refine Keeps.via (State.completeFlushed_keeps _ _ _) ?_
      refine Keeps.via (State.journalRecordOf_keeps _ _ _) ?_
      exact h5
    · exact h3
  · exact Keeps.refl _

theorem execSetQuota_keeps : ∀ a0 s z, Keeps s (runRow (execSetQuota a0 s) z) := by
  intro a0 s z
  unfold execSetQuota
  rw [runRow_next]
  refine Keeps.withCmd (fun c1 t2 h3 => ?_) ?_
  · refine Keeps.manage (fun t4 h5 => ?_) ?_
    · extract_lets x6
      refine Keeps.ite (fun _ => ?_) (fun _ => ?_)
      · refine Keeps.via (State.complete_keeps _ _ _ _ _) ?_
        exact h5
      · refine Keeps.via (State.completeFlushed_keeps _ _ _) ?_
        refine Keeps.via (State.journalRecordOf_keeps _ _ _) ?_
        exact h5
    · exact h3
  · exact Keeps.refl _

theorem execSetPeriod_keeps : ∀ a0 s z, Keeps s (runRow (execSetPeriod a0 s) z) := by
  intro a0 s z
  unfold execSetPeriod
  rw [runRow_next]
  refine Keeps.withCmd (fun c1 t2 h3 => ?_) ?_
  · refine Keeps.manage (fun t4 h5 => ?_) ?_
    · extract_lets x6 x7
      refine Keeps.cut (t := x7) ?_ (fun h8 => ?_)
      · unfold x7
        refine Keeps.via (State.settleBoundaries_keeps _) ?_
        exact h5
      refine Keeps.ite (fun _ => ?_) (fun _ => ?_)
      · refine Keeps.via (State.complete_keeps _ _ _ _ _) ?_
        exact h8
      · refine Keeps.via (State.completeFlushed_keeps _ _ _) ?_
        refine Keeps.via (State.journalRecordOf_keeps _ _ _) ?_
        exact h8
    · exact h3
  · exact Keeps.refl _

theorem State.leaveSetCmd_keeps : ∀ s a1, Keeps s (State.leaveSetCmd s a1) := fun _ _ =>
  Keeps.ofOnly (State.leaveSetCmd_only _ _) rfl

theorem State.endCmd_keeps : ∀ s a1 a2, Keeps s (State.endCmd s a1 a2) := by
  intro s a1 a2
  unfold State.endCmd
  extract_lets x1 x2 x3 x4 x5 x6
  refine Keeps.cut (t := x3) ?_ (fun h7 => ?_)
  · unfold x3
    refine Keeps.via (State.unreserve_keeps _ _) ?_
    exact Keeps.refl _
  refine Keeps.cut (t := x4) ?_ (fun h8 => ?_)
  · unfold x4
    refine Keeps.ite (fun _ => ?_) (fun _ => ?_)
    · refine Keeps.via (State.finishManager_keeps _ _) ?_
      exact h7
    · refine Keeps.via (State.complete_keeps _ _ _ _ _) ?_
      exact h7
  refine Keeps.cut (t := x6) ?_ (fun h9 => ?_)
  · unfold x6
    refine Keeps.ite (fun _ => ?_) (fun _ => ?_)
    · refine Keeps.via (Keeps.set_oldOps _ _) ?_
      exact h7
    · exact h7
  split
  · rename_i y10 y11
    split
    · rename_i y12 y13 y14
      refine Keeps.ite (fun _ => ?_) (fun _ => ?_)
      · refine Keeps.via (State.dropCmd_keeps _ _) ?_
        unfold x1
        refine Keeps.via (State.modInst_keeps _ _ _) ?_
        refine Keeps.via (State.windowDone_keeps _ _ _ _ _ _) ?_
        exact h7
      · refine Keeps.via (State.dropCmd_keeps _ _) ?_
        unfold x1
        refine Keeps.via (State.modInst_keeps _ _ _) ?_
        unfold x2
        refine Keeps.via (State.modInst_keeps _ _ _) ?_
        exact h7
    · rename_i y15 y16
      refine Keeps.via (State.dropCmd_keeps _ _) ?_
      unfold x1
      refine Keeps.via (State.modInst_keeps _ _ _) ?_
      exact h7
  · rename_i y17 y18
    refine Keeps.ite (fun _ => ?_) (fun _ => ?_)
    · refine Keeps.via (State.dropCmd_keeps _ _) ?_
      unfold x1
      refine Keeps.via (State.modInst_keeps _ _ _) ?_
      unfold x2
      refine Keeps.via (State.modInst_keeps _ _ _) ?_
      exact h7
    · split
      · rename_i y19 y20 y21 y22
        refine Keeps.via (State.dropCmd_keeps _ _) ?_
        unfold x1
        refine Keeps.via (State.modInst_keeps _ _ _) ?_
        refine Keeps.via (State.windowDone_keeps _ _ _ _ _ _) ?_
        refine Keeps.via (Keeps.set_due _ _) ?_
        exact h8
      · rename_i y23 y24 y25
        refine Keeps.via (State.dropCmd_keeps _ _) ?_
        unfold x1
        refine Keeps.via (State.modInst_keeps _ _ _) ?_
        exact h8
  · rename_i y26 y27
    refine Keeps.via (State.dropCmd_keeps _ _) ?_
    unfold x1
    refine Keeps.via (State.modInst_keeps _ _ _) ?_
    unfold x2
    refine Keeps.via (State.modInst_keeps _ _ _) ?_
    refine Keeps.via (State.leaveSetCmd_keeps _ _) ?_
    exact h9
  · rename_i y28 y29 y30 y31
    refine Keeps.via (State.dropCmd_keeps _ _) ?_
    unfold x1
    refine Keeps.via (State.modInst_keeps _ _ _) ?_
    unfold x2
    refine Keeps.via (State.modInst_keeps _ _ _) ?_
    exact h7

theorem State.clearFnWork_keeps : ∀ s a1, Keeps s (State.clearFnWork s a1) := by
  intro s a1
  unfold State.clearFnWork
  extract_lets x1 x2 x3
  refine Keeps.cut (t := x1) ?_ (fun h4 => ?_)
  · unfold x1
    refine Keeps.forBelow (fun a5 t6 h7 => ?_) ?_
    · refine Keeps.via (State.cqOff_keeps _ _ _) ?_
      refine Keeps.via (State.sqOff_keeps _ _ _) ?_
      exact h7
    · exact Keeps.refl _
  refine Keeps.cut (t := x2) ?_ (fun h8 => ?_)
  · unfold x2
    refine Keeps.via (State.modFn_keeps _ _ _) ?_
    exact h4
  refine Keeps.cut (t := x3) ?_ (fun h9 => ?_)
  · unfold x3
    refine Keeps.via (State.modInst_keeps _ _ _) ?_
    exact h8
  refine Keeps.via (Keeps.set_due_reads _ _ _) ?_
  exact h9

theorem State.clearFnConfig_keeps : ∀ s a1, Keeps s (State.clearFnConfig s a1) := by
  intro s a1
  unfold State.clearFnConfig
  extract_lets x1 x2 x3 x4 x5 x6 x7 x8 x9
  refine Keeps.cut (t := x5) ?_ (fun h10 => ?_)
  · unfold x5
    refine Keeps.via (Keeps.set_regs_latches_link _ _ _ _ (fun c => Bank.wf_filter c.regs)) ?_
    exact Keeps.refl _
  refine Keeps.cut (t := x8) ?_ (fun h11 => ?_)
  · unfold x8
    refine Keeps.ite (fun _ => ?_) (fun _ => ?_)
    · refine Keeps.via (Keeps.set_link_sec _ _ _) ?_
      exact h10
    · exact h10
  refine Keeps.via (State.modFn_keeps _ _ _) ?_
  exact h11

theorem State.resetFnOnly_keeps : ∀ s a1, Keeps s (State.resetFnOnly s a1) := by
  intro s a1
  unfold State.resetFnOnly
  extract_lets x1
  refine Keeps.cut (t := x1) ?_ (fun h2 => ?_)
  · unfold x1
    refine Keeps.via (State.clearFnConfig_keeps _ _) ?_
    exact Keeps.refl _
  refine Keeps.ite (fun _ => ?_) (fun _ => ?_)
  · exact h2
  · refine Keeps.via (State.setInsEvt_keeps _ _ _) ?_
    exact h2

theorem State.removeStep4_keeps : ∀ s a1, Keeps s (State.removeStep4 s a1) := by
  intro s a1
  unfold State.removeStep4
  extract_lets x1 x2 x3 x4 x5
  refine Keeps.cut (t := x1) ?_ (fun h6 => ?_)
  · unfold x1
    refine Keeps.forEach (fun a7 t8 h9 => ?_) ?_
    · refine Keeps.via (State.mapPut_keeps _ _ _ _) ?_
      exact h9
    · exact Keeps.refl _
  refine Keeps.cut (t := x3) ?_ (fun h10 => ?_)
  · unfold x3
    refine Keeps.via (Keeps.set_fss _ _ (by rfl) (by rfl) (by rfl)) ?_
    exact h6
  refine Keeps.cut (t := x4) ?_ (fun h11 => ?_)
  · unfold x4
    refine Keeps.via (State.modInst_keeps _ _ _) ?_
    exact h10
  refine Keeps.cut (t := x5) ?_ (fun h12 => ?_)
  · unfold x5
    refine Keeps.via (State.modFn_keeps _ _ _) ?_
    exact h11
  refine Keeps.via (State.refreshUsed_keeps _ _) ?_
  refine Keeps.via (State.dropEmptyLeaves_keeps _ _) ?_
  refine Keeps.via (State.fillSlots_keeps _ _) ?_
  exact h12

theorem State.resetStep4_keeps : ∀ s a1 a2, Keeps s (State.resetStep4 s a1 a2) := by
  intro s a1 a2
  unfold State.resetStep4
  extract_lets x1 x2 x3 x4 x5
  refine Keeps.cut (t := x1) ?_ (fun h6 => ?_)
  · unfold x1
    refine Keeps.forEach (fun a7 t8 h9 => ?_) ?_
    · refine Keeps.via (State.endCmd_keeps _ _ _) ?_
      exact h9
    · exact Keeps.refl _
  refine Keeps.cut (t := x2) ?_ (fun h10 => ?_)
  · unfold x2
    refine Keeps.via (State.clearFnWork_keeps _ _) ?_
    exact h6
  refine Keeps.cut (t := x3) ?_ (fun h11 => ?_)
  · unfold x3
    refine Keeps.ite (fun _ => ?_) (fun _ => ?_)
    · refine Keeps.via (State.removeStep4_keeps _ _) ?_
      exact h10
    · exact h10
  refine Keeps.cut (t := x4) ?_ (fun h12 => ?_)
  · unfold x4
    refine Keeps.via (State.modInst_keeps _ _ _) ?_
    exact h11
  refine Keeps.cut (t := x5) ?_ (fun h13 => ?_)
  · unfold x5
    refine Keeps.via (State.journalRecord_keeps _ _) ?_
    exact h12
  refine Keeps.ite (fun _ => ?_) (fun _ => ?_)
  · refine Keeps.via (State.clearFnConfig_keeps _ _) ?_
    exact h13
  · exact h13

theorem State.ackAll_keeps : ∀ s a1 a2, Keeps s (State.ackAll s a1 a2) := fun _ _ _ =>
  Keeps.ofOnly (State.ackAll_only _ _ _) rfl

theorem State.resetStep5_keeps : ∀ s a1 a2, Keeps s (State.resetStep5 s a1 a2) := by
  intro s a1 a2
  unfold State.resetStep5
  split
  · rename_i y1 y2
    exact Keeps.refl _
  · rename_i y3 y4 y5
    extract_lets x6 x7 x8 x9 x10 x11 x12 x13 x14 x15
    refine Keeps.cut (t := x8) ?_ (fun h16 => ?_)
    · unfold x8
      refine Keeps.via (State.modInst_keeps _ _ _) ?_
      exact Keeps.refl _
    refine Keeps.cut (t := x9) ?_ (fun h17 => ?_)
    · unfold x9
      refine Keeps.via (State.setIState_keeps _ _ _) ?_
      exact h16
    refine Keeps.cut (t := x10) ?_ (fun h18 => ?_)
    · unfold x10
      refine Keeps.via (State.postOwn_keeps _ _ _ _) ?_
      exact h17
    refine Keeps.cut (t := x11) ?_ (fun h19 => ?_)
    · unfold x11
      refine Keeps.ite (fun _ => ?_) (fun _ => ?_)
      · exact h18
      · refine Keeps.via (State.postPeer_keeps _ _ _ _) ?_
        exact h18
    refine Keeps.cut (t := x12) ?_ (fun h20 => ?_)
    · unfold x12
      refine Keeps.ite (fun _ => ?_) (fun _ => ?_)
      · refine Keeps.via (State.postOwn_keeps _ _ _ _) ?_
        refine Keeps.via (State.postPeer_keeps _ _ _ _) ?_
        exact h16
      · refine Keeps.via (State.ackAll_keeps _ _ _) ?_
        exact h19
    refine Keeps.cut (t := x13) ?_ (fun h21 => ?_)
    · unfold x13
      refine Keeps.via (State.modFn_keeps _ _ _) ?_
      exact h20
    refine Keeps.cut (t := x14) ?_ (fun h22 => ?_)
    · unfold x14
      refine Keeps.via (State.setInsEvt_keeps _ _ _) ?_
      exact h21
    refine Keeps.cut (t := x15) ?_ (fun h23 => ?_)
    · unfold x15
      refine Keeps.ite (fun _ => ?_) (fun _ => ?_)
      · exact h22
      · refine Keeps.via (State.setInsEvt_keeps _ _ _) ?_
        exact h22
    refine Keeps.via (State.logEv_keeps _ _ _ _) ?_
    refine Keeps.via (State.fetchSoon_keeps _ _) ?_
    refine Keeps.via (State.wakeFn_keeps _ _) ?_
    exact h23

theorem execResetDrainDone_keeps : ∀ a0 s z, Keeps s (runRow (execResetDrainDone a0 s) z) := by
  intro a0 s z
  unfold execResetDrainDone
  rw [runRow_next]
  refine Keeps.whenRunning (fun t1 h2 => ?_) ?_
  · extract_lets x3
    split
    · rename_i y4 y5 y6
      refine Keeps.ite (fun _ => ?_) (fun _ => ?_)
      · refine Keeps.via (State.pump_keeps _) ?_
        refine Keeps.via (State.resetStep5_keeps _ _ _) ?_
        refine Keeps.via (State.resetStep4_keeps _ _ _) ?_
        exact h2
      · refine Keeps.ite (fun _ => ?_) (fun _ => ?_)
        · refine Keeps.via (State.resetFnOnly_keeps _ _) ?_
          exact h2
        · exact h2
    · rename_i y7 y8
      refine Keeps.ite (fun _ => ?_) (fun _ => ?_)
      · refine Keeps.via (State.resetFnOnly_keeps _ _) ?_
        exact h2
      · exact h2
  · exact Keeps.refl _

theorem execOldGenerationMediaEnded_keeps : ∀ a0 s z, Keeps s (runRow (execOldGenerationMediaEnded a0 s) z) := by
  intro a0 s z
  unfold execOldGenerationMediaEnded
  rw [runRow_next]
  refine Keeps.whenRunning (fun t1 h2 => ?_) ?_
  · extract_lets x3 x4 x5 x6 x7
    refine Keeps.cut (t := x4) ?_ (fun h8 => ?_)
    · unfold x4
      refine Keeps.via (Keeps.set_oldOps _ _) ?_
      exact h2
    refine Keeps.cut (t := x5) ?_ (fun h9 => ?_)
    · unfold x5
      refine Keeps.via (State.modInst_keeps _ _ _) ?_
      exact h8
    refine Keeps.cut (t := x6) ?_ (fun h10 => ?_)
    · unfold x6
      refine Keeps.ite (fun _ => ?_) (fun _ => ?_)
      · refine Keeps.via (State.setIState_keeps _ _ _) ?_
        refine Keeps.via (State.destroyKey_keeps _ _) ?_
        exact h9
      · refine Keeps.via (State.setIState_keeps _ _ _) ?_
        exact h9
    refine Keeps.cut (t := x7) ?_ (fun h11 => ?_)
    · unfold x7
      refine Keeps.via (State.journalRecord_keeps _ _) ?_
      exact h10
    split
    · rename_i y12 y13 y14
      refine Keeps.ite (fun _ => ?_) (fun _ => ?_)
      · exact h8
      · refine Keeps.ite (fun _ => ?_) (fun _ => ?_)
        · refine Keeps.via (State.ackAll_keeps _ _ _) ?_
          exact h11
        · exact h9
    · rename_i y15 y16
      exact h8
  · exact Keeps.refl _

theorem State.takeCopy_keeps : ∀ s a1 a2, Keeps s (State.takeCopy s a1 a2) := by
  intro s a1 a2
  unfold State.takeCopy
  extract_lets x1 x2 x3 x4 x5
  refine Keeps.cut (t := x4) ?_ (fun h6 => ?_)
  · unfold x4
    refine Keeps.via (Keeps.set_nvs _ _) ?_
    exact Keeps.refl _
  refine Keeps.cut (t := x5) ?_ (fun h7 => ?_)
  · unfold x5
    refine Keeps.via (State.ctrRaise_keeps _ _ _) ?_
    exact h6
  refine Keeps.ite (fun _ => ?_) (fun _ => ?_)
  · refine Keeps.via (State.note_keeps _ _ _) ?_
    exact h7
  · exact h7

theorem State.reloadSettings_keeps : ∀ s, Keeps s (State.reloadSettings s) := by
  intro s
  unfold State.reloadSettings
  split
  · rename_i y1 y2 y3 y4
    refine Keeps.ite (fun _ => ?_) (fun _ => ?_)
    · exact Keeps.refl _
    · refine Keeps.via (State.takeCopy_keeps _ _ _) ?_
      exact Keeps.refl _
  · rename_i y5 y6
    exact Keeps.refl _

theorem State.storeSettings_keeps : ∀ s a1 a2 a3 a4, Keeps s (State.storeSettings s a1 a2 a3 a4) := by
  intro s a1 a2 a3 a4
  unfold State.storeSettings
  extract_lets x1 x2 x3 x4 x5
  refine Keeps.cut (t := x2) ?_ (fun h6 => ?_)
  · unfold x2
    refine Keeps.via (State.nvmWrite_keeps _ _ _) ?_
    exact Keeps.refl _
  refine Keeps.cut (t := x3) ?_ (fun h7 => ?_)
  · unfold x3
    refine Keeps.via (State.nvmWrite_keeps _ _ _) ?_
    exact h6
  refine Keeps.cut (t := x4) ?_ (fun h8 => ?_)
  · unfold x4
    refine Keeps.via (State.ctrRaise_keeps _ _ _) ?_
    exact h7
  refine Keeps.via (State.note_keeps _ _ _) ?_
  refine Keeps.via (Keeps.set_nvs _ _) ?_
  exact h8

theorem execStoreSettings_keeps : ∀ a0 s z, Keeps s (runRow (execStoreSettings a0 s) z) := by
  intro a0 s z
  unfold execStoreSettings
  rw [runRow_next]
  refine Keeps.withCmd (fun c1 t2 h3 => ?_) ?_
  · refine Keeps.ite (fun _ => ?_) (fun _ => ?_)
    · exact h3
    · extract_lets x4 x5
      clear_value x5
      split
      · rename_i y6 y7 y8 y9
        refine Keeps.via (State.complete_keeps _ _ _ _ _) ?_
        exact h3
      · rename_i y10 y11 y12
        refine Keeps.via (State.complete_keeps _ _ _ _ _) ?_
        refine Keeps.via (State.storeSettings_keeps _ _ _ _ _) ?_
        exact h3
  · exact Keeps.refl _

theorem execStoreSettingsCapture_keeps : ∀ a0 s z, Keeps s (runRow (execStoreSettingsCapture a0 s) z) := by
  intro a0 s z
  unfold execStoreSettingsCapture
  rw [runRow_next]
  refine Keeps.withCmd (fun c1 t2 h3 => ?_) ?_
  · refine Keeps.ite (fun _ => ?_) (fun _ => ?_)
    · refine Keeps.via (State.complete_keeps _ _ _ _ _) ?_
      refine Keeps.via (State.storeSettings_keeps _ _ _ _ _) ?_
      exact h3
    · exact h3
  · exact Keeps.refl _

theorem State.writeSlot_keeps : ∀ s a1, Keeps s (State.writeSlot s a1) := by
  intro s a1
  unfold State.writeSlot
  split
  rename_i y1 y2 y3 y4
  refine Keeps.via (State.nvmWrite_keeps _ _ _) ?_
  exact Keeps.refl _

theorem State.setImage_keeps : ∀ s a1 a2, Keeps s (State.setImage s a1 a2) := fun _ _ _ =>
  Keeps.ofOnly (State.setImage_only _ _ _) rfl

theorem State.beginStage_keeps : ∀ s a1, Keeps s (State.beginStage s a1) := by
  intro s a1
  unfold State.beginStage
  split
  rename_i y1 y2 y3 y4
  extract_lets x5 x6 x7 x8
  refine Keeps.cut (t := x7) ?_ (fun h9 => ?_)
  · unfold x7
    refine Keeps.via (State.setImage_keeps _ _ _) ?_
    refine Keeps.via (State.writeSlot_keeps _ _) ?_
    exact Keeps.refl _
  refine Keeps.via (Keeps.set_fw _ _) ?_
  exact h9

theorem execFwStage_keeps : ∀ a0 s z, Keeps s (runRow (execFwStage a0 s) z) := by
  intro a0 s z
  unfold execFwStage
  rw [runRow_next]
  refine Keeps.withCmd (fun c1 t2 h3 => ?_) ?_
  · extract_lets x4 x5 x6 x7 x8 x9 x10 x11 x12
    refine Keeps.cut (t := x7) ?_ (fun h13 => ?_)
    · unfold x7
      refine Keeps.ite (fun _ => ?_) (fun _ => ?_)
      · refine Keeps.via (State.beginStage_keeps _ _) ?_
        exact h3
      · exact h3
    refine Keeps.cut (t := x8) ?_ (fun h14 => ?_)
    · unfold x8
      refine Keeps.via (State.setImage_keeps _ _ _) ?_
      exact h13
    refine Keeps.cut (t := x10) ?_ (fun h15 => ?_)
    · unfold x10
      refine Keeps.via (Keeps.set_fw _ _) ?_
      exact h14
    refine Keeps.cut (t := x12) ?_ (fun h16 => ?_)
    · unfold x12
      refine Keeps.via (State.writeSlot_keeps _ _) ?_
      exact h15
    refine Keeps.ite (fun _ => ?_) (fun _ => ?_)
    · refine Keeps.via (State.complete_keeps _ _ _ _ _) ?_
      exact h3
    · refine Keeps.ite (fun _ => ?_) (fun _ => ?_)
      · refine Keeps.via (State.complete_keeps _ _ _ _ _) ?_
        exact h15
      · split
        · rename_i y17 y18 y19 y20 y21
          refine Keeps.via (State.complete_keeps _ _ _ _ _) ?_
          exact h15
        · rename_i y22 y23 y24 y25
          refine Keeps.via (State.complete_keeps _ _ _ _ _) ?_
          refine Keeps.via (State.note_keeps _ _ _) ?_
          exact h16
  · exact Keeps.refl _

theorem execFwActivate_keeps : ∀ a0 s z, Keeps s (runRow (execFwActivate a0 s) z) := by
  intro a0 s z
  unfold execFwActivate
  rw [runRow_next]
  refine Keeps.withCmd (fun c1 t2 h3 => ?_) ?_
  · extract_lets x4 x5 x6
    refine Keeps.ite (fun _ => ?_) (fun _ => ?_)
    · refine Keeps.via (State.complete_keeps _ _ _ _ _) ?_
      exact h3
    · refine Keeps.via (State.complete_keeps _ _ _ _ _) ?_
      refine Keeps.via (State.writeSlot_keeps _ _) ?_
      exact h3
  · exact Keeps.refl _

end Sys2Proof.Machine
end

