-- ==== Sys2Proof/Laws/CanonStorage.lean ====
section
/-! SUPPORT. The canonical form of the tables is kept by the tenant commands, staging, the drives and the archive. -/

namespace Sys2Proof.Machine

theorem State.modSeg_keeps : ∀ s a1 a2, Keeps s (State.modSeg s a1 a2) := by
  intro s a1 a2
  unfold State.modSeg
  refine Keeps.via (Keeps.set_fss _ _ (by rfl) (by rfl) (by rfl)) ?_
  exact Keeps.refl _

theorem State.noteWaiting_keeps : ∀ s, Keeps s (State.noteWaiting s) := by
  intro s
  unfold State.noteWaiting
  refine Keeps.ite (fun _ => ?_) (fun _ => ?_)
  · refine Keeps.forEach (fun a1 t2 h3 => ?_) ?_
    · refine Keeps.ite (fun _ => ?_) (fun _ => ?_)
      · exact h3
      · refine Keeps.via (State.logEv_keeps _ _ _ _) ?_
        refine Keeps.via (State.modInst_keeps _ _ _) ?_
        exact h3
    · exact Keeps.refl _
  · refine Keeps.via (Keeps.set_inst _ _ (fun c => Bank.wf_mapVals c.inst)) ?_
    exact Keeps.refl _

theorem sealRun_keeps : ∀ a0 a1 a2 a3 a4 a5 a6 s, ∀ r, sealRun a0 a1 a2 a3 a4 a5 a6 s = some r → Keeps s r.2 := by
  intro a0 a1 a2 a3 a4
  induction a4 generalizing a3 with
  | zero =>
    intro a5 a6 s r hr
    cases hr
    exact Keeps.refl _
  | succ n ih =>
    intro a5 a6 s r hr
    unfold sealRun at hr
    dsimp only at hr
    split at hr
    · rename_i p t h1
      have h : Keeps s t := Keeps.via (State.addUnit_keeps _ _ _ _ (p, t) h1) (State.takeSeq_keeps _ _)
      split at hr
      · rename_i l u h2
        cases hr
        exact Keeps.via (ih _ _ _ _ (l, u) h2) h
      · cases hr
    · cases hr

theorem State.waitSpace_keeps : ∀ s a1, Keeps s (State.waitSpace s a1) := fun _ _ =>
  Keeps.ofOnly (State.waitSpace_only _ _) rfl

theorem State.startWrite_keeps : ∀ s a1, Keeps s (State.startWrite s a1) := by
  intro s a1
  unfold State.startWrite
  extract_lets x1
  refine Keeps.cut (t := x1) ?_ (fun h2 => ?_)
  · unfold x1
    refine Keeps.via (State.touchRun_keeps _ _ _ _) ?_
    exact Keeps.refl _
  split
  · rename_i y3 y4 y5
    refine Keeps.via (State.complete_keeps _ _ _ _ _) ?_
    exact h2
  · rename_i y6 y7
    refine Keeps.ite (fun _ => ?_) (fun _ => ?_)
    · refine Keeps.via (State.waitSpace_keeps _ _) ?_
      exact h2
    · split
      · rename_i y8 y9 y10 y11 y12
        refine Keeps.via (State.setCmd_keeps _ _) ?_
        refine Keeps.ofSome y12 (sealRun_keeps _ _ _ _ _ _ _ _) ?_
        exact h2
      · rename_i y13 y14 y15
        refine Keeps.via (State.waitSpace_keeps _ _) ?_
        exact h2

theorem execWrite_keeps : ∀ a0 a1 s z, Keeps s (runRow (execWrite a0 a1 s) z) := by
  intro a0 a1 s z
  unfold execWrite
  rw [runRow_next]
  refine Keeps.whenServing (fun t1 h2 => ?_) ?_
  · split
    · rename_i y3 y4 y5
      refine Keeps.ite (fun _ => ?_) (fun _ => ?_)
      · refine Keeps.dramCheck (fun t6 h7 => ?_) ?_
        · refine Keeps.underEpoch (fun t8 h9 => ?_) ?_
          · refine Keeps.via (State.startWrite_keeps _ _) ?_
            exact h9
          · exact h7
        · exact h2
      · exact h2
    · rename_i y10 y11
      exact h2
  · exact Keeps.refl _

theorem State.applyWrite_keeps : ∀ s a1, Keeps s (State.applyWrite s a1) := by
  intro s a1
  unfold State.applyWrite
  extract_lets x1 x2 x3 x4 x5
  refine Keeps.cut (t := x3) ?_ (fun h6 => ?_)
  · unfold x3
    refine Keeps.forEach (fun a7 t8 h9 => ?_) ?_
    · refine Keeps.via (State.jUpdate_keeps _ _) ?_
      refine Keeps.via (State.mapPut_keeps _ _ _ _) ?_
      exact h9
    · exact Keeps.refl _
  refine Keeps.cut (t := x4) ?_ (fun h10 => ?_)
  · unfold x4
    refine Keeps.via (State.refreshUsed_keeps _ _) ?_
    exact h6
  refine Keeps.cut (t := x5) ?_ (fun h11 => ?_)
  · unfold x5
    refine Keeps.via (State.count_keeps _ _ _) ?_
    exact h10
  refine Keeps.via (State.complete_keeps _ _ _ _ _) ?_
  exact h11

theorem State.endWrite_keeps : ∀ s a1, Keeps s (State.endWrite s a1) := by
  intro s a1
  unfold State.endWrite
  split
  · rename_i y1 y2 y3
    refine Keeps.ite (fun _ => ?_) (fun _ => ?_)
    · refine Keeps.via (State.applyWrite_keeps _ _) ?_
      exact Keeps.refl _
    · exact Keeps.refl _
  · rename_i y4 y5
    exact Keeps.refl _

theorem execWriteSpaceWaitTimeout_keeps : ∀ a0 s z, Keeps s (runRow (execWriteSpaceWaitTimeout a0 s) z) := by
  intro a0 s z
  unfold execWriteSpaceWaitTimeout
  rw [runRow_next]
  refine Keeps.whenServing (fun t1 h2 => ?_) ?_
  · split
    · rename_i y3 y4 y5
      refine Keeps.ite (fun _ => ?_) (fun _ => ?_)
      · refine Keeps.via (State.logEv_keeps _ _ _ _) ?_
        refine Keeps.via (State.complete_keeps _ _ _ _ _) ?_
        exact h2
      · exact h2
    · rename_i y6 y7
      exact h2
  · exact Keeps.refl _

theorem execDiscard_keeps : ∀ a0 s z, Keeps s (runRow (execDiscard a0 s) z) := by
  intro a0 s z
  unfold execDiscard
  rw [runRow_next]
  refine Keeps.withCmd (fun c1 t2 h3 => ?_) ?_
  · extract_lets x4 x5 x6 x7 x8 x9
    refine Keeps.cut (t := x4) ?_ (fun h10 => ?_)
    · unfold x4
      refine Keeps.via (State.touchRun_keeps _ _ _ _) ?_
      exact h3
    refine Keeps.cut (t := x8) ?_ (fun h11 => ?_)
    · unfold x8
      refine Keeps.forEach (fun a12 t13 h14 => ?_) ?_
      · refine Keeps.via (State.mapPut_keeps _ _ _ _) ?_
        exact h14
      · exact h10
    refine Keeps.cut (t := x9) ?_ (fun h15 => ?_)
    · unfold x9
      refine Keeps.via (State.jUpdate_keeps _ _) ?_
      exact h11
    split
    · rename_i y16 y17 y18
      refine Keeps.via (State.complete_keeps _ _ _ _ _) ?_
      exact h10
    · rename_i y19 y20
      refine Keeps.via (State.complete_keeps _ _ _ _ _) ?_
      refine Keeps.via (State.refreshUsed_keeps _ _) ?_
      refine Keeps.via (State.dropEmptyLeaves_keeps _ _) ?_
      exact h15
  · exact Keeps.refl _

theorem execFlush_keeps : ∀ a0 s z, Keeps s (runRow (execFlush a0 s) z) := fun _ _ _ =>
  Keeps.ofOnly (execFlush_only _ _ _) rfl

theorem execCommitSegment_keeps : ∀ a0 s z, Keeps s (runRow (execCommitSegment a0 s) z) := by
  intro a0 s z
  unfold execCommitSegment
  rw [runRow_next]
  refine Keeps.withCmd (fun c1 t2 h3 => ?_) ?_
  · extract_lets x4 x5 x6 x7 x8 x9 x10 x11 x12 x13 x14 x15
    refine Keeps.cut (t := x9) ?_ (fun h16 => ?_)
    · unfold x9
      refine Keeps.via (State.touchRun_keeps _ _ _ _) ?_
      exact h3
    refine Keeps.cut (t := x13) ?_ (fun h17 => ?_)
    · unfold x13
      refine Keeps.via (Keeps.set_fss _ _ (by rfl) (by rfl) (by rfl)) ?_
      exact h16
    refine Keeps.cut (t := x14) ?_ (fun h18 => ?_)
    · unfold x14
      refine Keeps.via (State.modInst_keeps _ _ _) ?_
      exact h17
    refine Keeps.cut (t := x15) ?_ (fun h19 => ?_)
    · unfold x15
      refine Keeps.via (State.noteWaiting_keeps _) ?_
      refine Keeps.via (State.refreshUsed_keeps _ _) ?_
      refine Keeps.via (State.jAdd_keeps _ _) ?_
      exact h18
    refine Keeps.ite (fun _ => ?_) (fun _ => ?_)
    · refine Keeps.via (State.complete_keeps _ _ _ _ _) ?_
      exact h3
    · refine Keeps.via (State.completeFlushed_keeps _ _ _) ?_
      exact h19
  · exact Keeps.refl _

theorem State.report_keeps : ∀ s a1 a2 a3, Keeps s (State.report s a1 a2 a3) := by
  intro s a1 a2 a3
  unfold State.report
  refine Keeps.ite (fun _ => ?_) (fun _ => ?_)
  · refine Keeps.via (State.complete_keeps _ _ _ _ _) ?_
    refine Keeps.via (State.writeOut_keeps _ _ _) ?_
    exact Keeps.refl _
  · exact Keeps.refl _

theorem execGetLog_keeps : ∀ a0 s z, Keeps s (runRow (execGetLog a0 s) z) := by
  intro a0 s z
  unfold execGetLog
  rw [runRow_next]
  refine Keeps.withCmd (fun c1 t2 h3 => ?_) ?_
  · extract_lets x4 x5 x6 x7
    refine Keeps.via (State.report_keeps _ _ _ _) ?_
    exact h3
  · exact Keeps.refl _

theorem execGetUsage_keeps : ∀ a0 s z, Keeps s (runRow (execGetUsage a0 s) z) := by
  intro a0 s z
  unfold execGetUsage
  rw [runRow_next]
  refine Keeps.withCmd (fun c1 t2 h3 => ?_) ?_
  · extract_lets x4 x5
    refine Keeps.via (State.report_keeps _ _ _ _) ?_
    exact h3
  · exact Keeps.refl _

theorem execLogFoldFlush_keeps : ∀ s z, Keeps s (runRow (execLogFoldFlush s) z) := by
  intro s z
  unfold execLogFoldFlush
  rw [runRow_next]
  refine Keeps.whenRunning (fun t1 h2 => ?_) ?_
  · extract_lets x3 x4 x5
    refine Keeps.cut (t := x5) ?_ (fun h6 => ?_)
    · unfold x5
      refine Keeps.via (Keeps.set_log _ _) ?_
      exact h2
    refine Keeps.forEach (fun a7 t8 h9 => ?_) ?_
    · refine Keeps.ite (fun _ => ?_) (fun _ => ?_)
      · exact h9
      · refine Keeps.via (State.logWrite_keeps _ _ _ _ _) ?_
        exact h9
    · exact h6
  · exact Keeps.refl _

theorem State.mirrorOne_keeps : ∀ s, Keeps s (State.mirrorOne s) := by
  intro s
  unfold State.mirrorOne
  extract_lets x1 x2 x3 x4
  split
  rename_i y5 y6 y7 y8
  extract_lets x9
  split
  · rename_i y10 y11 y12 y13
    extract_lets x14 x15 x16
    refine Keeps.cut (t := x14) ?_ (fun h17 => ?_)
    · unfold x14
      refine Keeps.via (State.jAdd_keeps _ _) ?_
      refine Keeps.ofSome y13 (State.putUnit_keeps _ _ _) ?_
      refine Keeps.ofPair y8 ?_
      refine Keeps.via (State.takeSeq_keeps _ _) ?_
      exact Keeps.refl _
    refine Keeps.via (Keeps.set_log_fss _ _ _ (by rfl) (by rfl) (by rfl)) ?_
    exact h17
  · rename_i y18 y19
    refine Keeps.ofPair y8 ?_
    refine Keeps.via (State.takeSeq_keeps _ _) ?_
    exact Keeps.refl _

theorem execLogMirrorWrite_keeps : ∀ s z, Keeps s (runRow (execLogMirrorWrite s) z) := by
  intro s z
  unfold execLogMirrorWrite
  rw [runRow_next]
  refine Keeps.whenRunning (fun t1 h2 => ?_) ?_
  · refine Keeps.ite (fun _ => ?_) (fun _ => ?_)
    · refine Keeps.via (State.mirrorOne_keeps _) ?_
      exact h2
    · exact h2
  · exact Keeps.refl _

theorem execLogNvmWrite_keeps : ∀ s z, Keeps s (runRow (execLogNvmWrite s) z) := by
  intro s z
  unfold execLogNvmWrite
  rw [runRow_next]
  refine Keeps.whenRunning (fun t1 h2 => ?_) ?_
  · refine Keeps.via (State.critOne_keeps _) ?_
    exact h2
  · exact Keeps.refl _

theorem execLastAliveWrite_keeps : ∀ s z, Keeps s (runRow (execLastAliveWrite s) z) := by
  intro s z
  unfold execLastAliveWrite
  rw [runRow_next]
  refine Keeps.whenRunning (fun t1 h2 => ?_) ?_
  · refine Keeps.ite (fun _ => ?_) (fun _ => ?_)
    · refine Keeps.via (State.ctrStore_keeps _ _ _) ?_
      exact h2
    · exact h2
  · exact Keeps.refl _

theorem execMonoFloorWrite_keeps : ∀ s z, Keeps s (runRow (execMonoFloorWrite s) z) := by
  intro s z
  unfold execMonoFloorWrite
  rw [runRow_next]
  refine Keeps.whenRunning (fun t1 h2 => ?_) ?_
  · refine Keeps.ite (fun _ => ?_) (fun _ => ?_)
    · refine Keeps.via (State.ctrStore_keeps _ _ _) ?_
      exact h2
    · exact h2
  · exact Keeps.refl _

theorem State.mapSegs_keeps : ∀ s a1, Keeps s (State.mapSegs s a1) := by
  intro s a1
  unfold State.mapSegs
  refine Keeps.via (Keeps.set_fss _ _ (by rfl) (by rfl) (by rfl)) ?_
  exact Keeps.refl _

theorem State.mapBands_keeps : ∀ s a1, Keeps s (State.mapBands s a1) := by
  intro s a1
  unfold State.mapBands
  refine Keeps.via (Keeps.set_fss _ _ (by rfl) (by rfl) (by rfl)) ?_
  exact Keeps.refl _

theorem State.mapPages_keeps : ∀ s a1, Keeps s (State.mapPages s a1) := by
  intro s a1
  unfold State.mapPages
  refine Keeps.via (Keeps.set_fss _ _ (by rfl) (by rfl) (by rfl)) ?_
  exact Keeps.refl _

theorem State.mapCmds_keeps : ∀ s a1, Keeps s (State.mapCmds s a1) := fun _ _ =>
  Keeps.ofOnly (State.mapCmds_only _ _) rfl

theorem State.retarget_keeps : ∀ s a1 a2 a3 a4, Keeps s (State.retarget s a1 a2 a3 a4) := by
  intro s a1 a2 a3 a4
  unfold State.retarget
  refine Keeps.via (State.mapSegs_keeps _ _) ?_
  exact Keeps.refl _

theorem State.moveLive_keeps : ∀ s a1 a2, Keeps s (State.moveLive s a1 a2) := by
  intro s a1 a2
  unfold State.moveLive
  refine Keeps.ite (fun _ => ?_) (fun _ => ?_)
  · exact Keeps.refl _
  · extract_lets x1
    split
    · rename_i y2 y3 y4
      exact Keeps.refl _
    · rename_i y5 y6 y7 y8 y9
      refine Keeps.ite (fun _ => ?_) (fun _ => ?_)
      · refine Keeps.ite (fun _ => ?_) (fun _ => ?_)
        · refine Keeps.via (State.jUpdate_keeps _ _) ?_
          refine Keeps.via (State.mapStore_keeps _ _ _ _) ?_
          refine Keeps.ofSome y9 (State.putUnit_keeps _ _ _) ?_
          exact Keeps.refl _
        · refine Keeps.via (State.jUpdate_keeps _ _) ?_
          refine Keeps.via (State.retarget_keeps _ _ _ _ _) ?_
          refine Keeps.ofSome y9 (State.putUnit_keeps _ _ _) ?_
          exact Keeps.refl _
      · refine Keeps.ite (fun _ => ?_) (fun _ => ?_)
        · refine Keeps.via (State.jAdd_keeps _ _) ?_
          refine Keeps.via (Keeps.set_fss _ _ (by rfl) (by rfl) (by rfl)) ?_
          refine Keeps.ofSome y9 (State.putUnit_keeps _ _ _) ?_
          exact Keeps.refl _
        · split
          · rename_i y10 y11 y12 y13 y14
            refine Keeps.via (State.jAdd_keeps _ _) ?_
            refine Keeps.via (State.setLeaf_keeps _ _ _) ?_
            refine Keeps.ofSome y9 (State.putUnit_keeps _ _ _) ?_
            exact Keeps.refl _
          · rename_i y15 y16 y17 y18
            refine Keeps.ofSome y9 (State.putUnit_keeps _ _ _) ?_
            exact Keeps.refl _

theorem State.retargetUnit_keeps : ∀ s a1 a2, Keeps s (State.retargetUnit s a1 a2) := by
  intro s a1 a2
  unfold State.retargetUnit
  refine Keeps.via (Keeps.set_store _ _ (fun c => c.units) (fun c => c.root) (fun c w e => by
    obtain ⟨v, hv, rfl⟩ := Option.map_eq_some_iff.mp e
    exact c.nextRoot v hv)) ?_
  exact Keeps.refl _

theorem State.rewrite_keeps : ∀ s a1 a2 a3, Keeps s (State.rewrite s a1 a2 a3) := by
  intro s a1 a2 a3
  unfold State.rewrite
  extract_lets x1
  refine Keeps.ite (fun _ => ?_) (fun _ => ?_)
  · refine Keeps.via (State.moveLive_keeps _ _ _) ?_
    exact Keeps.refl _
  · refine Keeps.ite (fun _ => ?_) (fun _ => ?_)
    · split
      · rename_i y2 y3 y4 y5 y6 y7
        refine Keeps.via (State.retargetUnit_keeps _ _ _) ?_
        refine Keeps.ofSome y7 (State.putUnit_keeps _ _ _) ?_
        exact Keeps.refl _
      · rename_i y8 y9 y10 y11
        exact Keeps.refl _
    · split
      · rename_i y12 y13 y14 y15 y16 y17
        extract_lets x18
        refine Keeps.cut (t := x18) ?_ (fun h19 => ?_)
        · unfold x18
          refine Keeps.via (State.mapCmds_keeps _ _) ?_
          refine Keeps.ofSome y17 (State.addUnit_keeps _ _ _ _) ?_
          exact Keeps.refl _
        refine Keeps.via (State.mapPages_keeps _ _) ?_
        exact h19
      · rename_i y20 y21 y22 y23
        exact Keeps.refl _

theorem State.rewriteAll_keeps : ∀ s a1 a2 a3, Keeps s (State.rewriteAll s a1 a2 a3) := by
  intro s a1 a2 a3
  induction a3 generalizing s a1 a2 with
  | nil =>
    rw [State.rewriteAll]
    exact Keeps.refl _
  | cons b r ih =>
    rw [State.rewriteAll]
    refine Keeps.via (ih _ _ _) ?_
    refine Keeps.via (State.rewrite_keeps _ _ _ _) ?_
    exact Keeps.refl _

theorem State.refill_keeps : ∀ s a1, Keeps s (State.refill s a1) := by
  intro s a1
  unfold State.refill
  refine Keeps.forEach (fun a1 t2 h3 => ?_) ?_
  · refine Keeps.via (State.rewriteAll_keeps _ _ _ _) ?_
    exact h3
  · refine Keeps.via (Keeps.set_fss _ _ (by rfl) (by rfl) (by rfl)) ?_
    exact Keeps.refl _

theorem State.loseLeaf_keeps : ∀ s a1, Keeps s (State.loseLeaf s a1) := by
  intro s a1
  unfold State.loseLeaf
  extract_lets x1 x2
  refine Keeps.via (State.refreshUsed_keeps _ _) ?_
  refine Keeps.forEach (fun a3 t4 h5 => ?_) ?_
  · extract_lets x6
    refine Keeps.via (State.jAdd_keeps _ _) ?_
    refine Keeps.via (State.mapStore_keeps _ _ _ _) ?_
    refine Keeps.via (State.mapSegs_keeps _ _) ?_
    exact h5
  · exact Keeps.refl _

theorem State.loseUnit_keeps : ∀ s a1, Keeps s (State.loseUnit s a1) := by
  intro s a1
  unfold State.loseUnit
  extract_lets x1 x2 x3 x4
  refine Keeps.cut (t := x2) ?_ (fun h5 => ?_)
  · unfold x2
    refine Keeps.via (State.mapSegs_keeps _ _) ?_
    exact Keeps.refl _
  refine Keeps.cut (t := x3) ?_ (fun h6 => ?_)
  · unfold x3
    refine Keeps.ite (fun _ => ?_) (fun _ => ?_)
    · refine Keeps.via (State.jAdd_keeps _ _) ?_
      refine Keeps.via (State.mapStore_keeps _ _ _ _) ?_
      exact h5
    · refine Keeps.via (State.jAdd_keeps _ _) ?_
      refine Keeps.via (State.mapSegs_keeps _ _) ?_
      exact Keeps.refl _
  refine Keeps.ite (fun _ => ?_) (fun _ => ?_)
  · refine Keeps.via (State.logEv_keeps _ _ _ _) ?_
    refine Keeps.via (State.refreshUsed_keeps _ _) ?_
    refine Keeps.via (Keeps.set_fss _ _ (by rfl) (by rfl) (by rfl)) ?_
    exact h6
  · split
    · rename_i y7 y8 y9 y10
      extract_lets x11 x12 x13
      refine Keeps.cut (t := x12) ?_ (fun h14 => ?_)
      · unfold x12
        refine Keeps.via (State.touchLeaf_keeps _ _) ?_
        exact Keeps.refl _
      refine Keeps.ite (fun _ => ?_) (fun _ => ?_)
      · refine Keeps.via (State.loseLeaf_keeps _ _) ?_
        exact Keeps.refl _
      · refine Keeps.via (State.setLeaf_keeps _ _ _) ?_
        exact h14
    · rename_i y15 y16 y17
      exact Keeps.refl _

theorem State.modDie_keeps : ∀ s a1 a2, Keeps s (State.modDie s a1 a2) := by
  intro s a1 a2
  unfold State.modDie
  refine Keeps.via (Keeps.set_fss _ _ (by rfl) (by rfl) (by rfl)) ?_
  exact Keeps.refl _

theorem State.dieOk_keeps : ∀ s a1, Keeps s (State.dieOk s a1) := by
  intro s a1
  unfold State.dieOk
  refine Keeps.via (State.modDie_keeps _ _ _) ?_
  exact Keeps.refl _

theorem State.dieFail_keeps : ∀ s a1, Keeps s (State.dieFail s a1) := by
  intro s a1
  unfold State.dieFail
  refine Keeps.ite (fun _ => ?_) (fun _ => ?_)
  · exact Keeps.refl _
  · extract_lets x1 x2 x3
    refine Keeps.cut (t := x1) ?_ (fun h4 => ?_)
    · unfold x1
      refine Keeps.via (State.jAdd_keeps _ _) ?_
      refine Keeps.via (State.modDie_keeps _ _ _) ?_
      exact Keeps.refl _
    refine Keeps.cut (t := x3) ?_ (fun h5 => ?_)
    · unfold x3
      refine Keeps.via (State.mapBands_keeps _ _) ?_
      refine Keeps.via (Keeps.set_fss _ _ (by rfl) (by rfl) (by rfl)) ?_
      exact h4
    refine Keeps.via (State.note_keeps _ _ _) ?_
    refine Keeps.via (State.recap_keeps _) ?_
    refine Keeps.via (State.refill_keeps _ _) ?_
    exact h5

theorem State.retireBlock_keeps : ∀ s a1 a2 a3, Keeps s (State.retireBlock s a1 a2 a3) := by
  intro s a1 a2 a3
  unfold State.retireBlock
  refine Keeps.ite (fun _ => ?_) (fun _ => ?_)
  · exact Keeps.refl _
  · extract_lets x1 x2 x3 x4 x5 x6 x7 x8
    refine Keeps.cut (t := x2) ?_ (fun h9 => ?_)
    · unfold x2
      refine Keeps.via (State.jAdd_keeps _ _) ?_
      refine Keeps.via (State.setBlock_keeps _ _ _ _) ?_
      exact Keeps.refl _
    refine Keeps.cut (t := x4) ?_ (fun h10 => ?_)
    · unfold x4
      refine Keeps.via (State.mapBands_keeps _ _) ?_
      refine Keeps.via (Keeps.set_fss _ _ (by rfl) (by rfl) (by rfl)) ?_
      exact h9
    refine Keeps.cut (t := x5) ?_ (fun h11 => ?_)
    · unfold x5
      refine Keeps.via (State.refill_keeps _ _) ?_
      exact h10
    refine Keeps.cut (t := x7) ?_ (fun h12 => ?_)
    · unfold x7
      refine Keeps.via (State.modDie_keeps _ _ _) ?_
      exact h11
    refine Keeps.cut (t := x8) ?_ (fun h13 => ?_)
    · unfold x8
      refine Keeps.via (State.note_keeps _ _ _) ?_
      exact h12
    refine Keeps.ite (fun _ => ?_) (fun _ => ?_)
    · refine Keeps.via (State.dieFail_keeps _ _) ?_
      exact h13
    · exact h13

theorem State.recoverUnit_keeps : ∀ s a1 a2 a3, Keeps s (State.recoverUnit s a1 a2 a3) := by
  intro s a1 a2 a3
  unfold State.recoverUnit
  split
  · rename_i y1
    exact Keeps.refl _
  · rename_i y2
    exact Keeps.refl _
  · rename_i y3
    refine Keeps.via (State.moveLive_keeps _ _ _) ?_
    refine Keeps.via (Keeps.set_fss _ _ (by rfl) (by rfl) (by rfl)) ?_
    exact Keeps.refl _
  · rename_i y4
    refine Keeps.via (State.note_keeps _ _ _) ?_
    refine Keeps.via (State.moveLive_keeps _ _ _) ?_
    refine Keeps.via (Keeps.set_fss _ _ (by rfl) (by rfl) (by rfl)) ?_
    exact Keeps.refl _
  · rename_i y5
    refine Keeps.via (State.note_keeps _ _ _) ?_
    refine Keeps.via (State.moveLive_keeps _ _ _) ?_
    refine Keeps.via (Keeps.set_sea _ _) ?_
    exact Keeps.refl _
  · rename_i y6
    refine Keeps.via (State.haltBy_keeps _ _) ?_
    exact Keeps.refl _
  · rename_i y7
    refine Keeps.via (State.loseUnit_keeps _ _) ?_
    exact Keeps.refl _

theorem State.moveRead_keeps : ∀ s a1 a2, Keeps s (State.moveRead s a1 a2) := by
  intro s a1 a2
  unfold State.moveRead
  split
  · rename_i y1 y2
    refine Keeps.via (State.moveLive_keeps _ _ _) ?_
    exact Keeps.refl _
  · rename_i y3 y4
    refine Keeps.via (State.moveLive_keeps _ _ _) ?_
    exact Keeps.refl _
  · rename_i y5 y6 y7
    refine Keeps.via (State.recoverUnit_keeps _ _ _ _) ?_
    exact Keeps.refl _

theorem State.moveAll_keeps : ∀ s a1 a2, Keeps s (State.moveAll s a1 a2) := by
  intro s a1 a2
  unfold State.moveAll
  refine Keeps.forEach (fun a1 t2 h3 => ?_) ?_
  · refine Keeps.ite (fun _ => ?_) (fun _ => ?_)
    · refine Keeps.via (State.moveRead_keeps _ _ _) ?_
      exact h3
    · exact h3
  · exact Keeps.refl _

theorem State.emptyBlock_keeps : ∀ s a1 a2, Keeps s (State.emptyBlock s a1 a2) := by
  intro s a1 a2
  unfold State.emptyBlock
  extract_lets x1 x2 x3 x4 x5
  refine Keeps.cut (t := x1) ?_ (fun h6 => ?_)
  · unfold x1
    split
    · rename_i y7 y8 y9
      refine Keeps.ite (fun _ => ?_) (fun _ => ?_)
      · refine Keeps.via (State.closeBand_keeps _ _) ?_
        exact Keeps.refl _
      · exact Keeps.refl _
    · rename_i y10 y11
      exact Keeps.refl _
  refine Keeps.cut (t := x2) ?_ (fun h12 => ?_)
  · unfold x2
    refine Keeps.via (State.mapBands_keeps _ _) ?_
    exact h6
  refine Keeps.cut (t := x3) ?_ (fun h13 => ?_)
  · unfold x3
    refine Keeps.via (State.refill_keeps _ _) ?_
    exact h12
  refine Keeps.cut (t := x4) ?_ (fun h14 => ?_)
  · unfold x4
    refine Keeps.via (State.moveAll_keeps _ _ _) ?_
    exact h13
  refine Keeps.ite (fun _ => ?_) (fun _ => ?_)
  · exact h14
  · refine Keeps.via (State.mapBands_keeps _ _) ?_
    refine Keeps.via (Keeps.set_fss _ _ (by rfl) (by rfl) (by rfl)) ?_
    exact h14

theorem State.issueParity_keeps : ∀ s, Keeps s (State.issueParity s) := by
  intro s
  unfold State.issueParity
  refine Keeps.forEach (fun a1 t2 h3 => ?_) ?_
  · refine Keeps.forEach (fun a4 t5 h6 => ?_) ?_
    · extract_lets x7 x8
      refine Keeps.ite (fun _ => ?_) (fun _ => ?_)
      · exact h6
      · refine Keeps.via (Keeps.set_fss _ _ (by rfl) (by rfl) (by rfl)) ?_
        exact h6
    · exact h3
  · exact Keeps.refl _

theorem State.parityDone_keeps : ∀ s a1, Keeps s (State.parityDone s a1) := by
  intro s a1
  unfold State.parityDone
  refine Keeps.via (State.mapBands_keeps _ _) ?_
  exact Keeps.refl _

theorem State.durMark_keeps : ∀ s a1 a2 a3, Keeps s (State.durMark s a1 a2 a3) := by
  intro s a1 a2 a3
  unfold State.durMark
  refine Keeps.via (State.modInst_keeps _ _ _) ?_
  exact Keeps.refl _

theorem State.rootLanded_keeps : ∀ s, Keeps s (State.rootLanded s) := by
  intro s
  unfold State.rootLanded
  split
  · rename_i y1 y2
    exact Keeps.refl _
  · rename_i y3 y4 y5
    extract_lets x6 x7
    refine Keeps.cut (t := x6) ?_ (fun h8 => ?_)
    · unfold x6
      refine Keeps.forEach (fun a9 t10 h11 => ?_) ?_
      · refine Keeps.forEach (fun a12 t13 h14 => ?_) ?_
        · refine Keeps.ite (fun _ => ?_) (fun _ => ?_)
          · refine Keeps.via (State.setBlock_keeps _ _ _ _) ?_
            exact h14
          · exact h14
        · exact h11
      · exact Keeps.refl _
    refine Keeps.cut (t := x7) ?_ (fun h15 => ?_)
    · unfold x7
      refine Keeps.forEach (fun a16 t17 h18 => ?_) ?_
      · refine Keeps.via (State.durMark_keeps _ _ _ _) ?_
        exact h18
      · exact h8
    refine Keeps.via (Keeps.set_store _ _ (fun c => by rw [FssState.rootLanded_units]; exact c.units)
      (fun c => FssState.rootLanded_root c.root c.nextRoot) (fun _ w e => by rw [FssState.rootLanded_wait] at e; cases e)) ?_
    exact h15

theorem State.pageDone_keeps : ∀ s a1, Keeps s (State.pageDone s a1) := by
  intro s a1
  unfold State.pageDone
  extract_lets x1 x2 x3 x4 x5
  refine Keeps.cut (t := x2) ?_ (fun h6 => ?_)
  · unfold x2
    refine Keeps.via (Keeps.set_fss _ _ (by rfl) (by rfl) (by rfl)) ?_
    exact Keeps.refl _
  refine Keeps.cut (t := x3) ?_ (fun h7 => ?_)
  · unfold x3
    refine Keeps.via (State.dieOk_keeps _ _) ?_
    refine Keeps.via (State.storeUnits_keeps _ _ _) ?_
    exact h6
  refine Keeps.cut (t := x4) ?_ (fun h8 => ?_)
  · unfold x4
    refine Keeps.ite (fun _ => ?_) (fun _ => ?_)
    · refine Keeps.via (State.parityDone_keeps _ _) ?_
      exact h7
    · exact h7
  refine Keeps.cut (t := x5) ?_ (fun h9 => ?_)
  · unfold x5
    refine Keeps.ite (fun _ => ?_) (fun _ => ?_)
    · refine Keeps.via (State.rootLanded_keeps _) ?_
      exact h8
    · exact h8
  refine Keeps.via (State.issueParity_keeps _) ?_
  refine Keeps.forEach (fun a10 t11 h12 => ?_) ?_
  · refine Keeps.via (State.endWrite_keeps _ _) ?_
    exact h12
  · exact h9

theorem execNandPageProgramDone_keeps : ∀ a0 s z, Keeps s (runRow (execNandPageProgramDone a0 s) z) := by
  intro a0 s z
  unfold execNandPageProgramDone
  rw [runRow_next]
  refine Keeps.whenRunning (fun t1 h2 => ?_) ?_
  · split
    · rename_i y3 y4 y5
      refine Keeps.via (State.pump_keeps _) ?_
      refine Keeps.via (State.pageDone_keeps _ _) ?_
      exact h2
    · rename_i y6 y7
      exact h2
  · exact Keeps.refl _

theorem execPageWaitTimeout_keeps : ∀ a0 s z, Keeps s (runRow (execPageWaitTimeout a0 s) z) := by
  intro a0 s z
  unfold execPageWaitTimeout
  rw [runRow_next]
  refine Keeps.whenRunning (fun t1 h2 => ?_) ?_
  · refine Keeps.ite (fun _ => ?_) (fun _ => ?_)
    · refine Keeps.via (State.issuePage_keeps _ _) ?_
      exact h2
    · exact h2
  · exact Keeps.refl _

theorem execNandProgramFail_keeps : ∀ a0 s z, Keeps s (runRow (execNandProgramFail a0 s) z) := by
  intro a0 s z
  unfold execNandProgramFail
  rw [runRow_next]
  refine Keeps.whenRunning (fun t1 h2 => ?_) ?_
  · split
    · rename_i y3 y4 y5
      extract_lets x6 x7 x8 x9 x10
      refine Keeps.cut (t := x9) ?_ (fun h11 => ?_)
      · unfold x9
        refine Keeps.via (State.mapBands_keeps _ _) ?_
        refine Keeps.via (Keeps.set_fss _ _ (by rfl) (by rfl) (by rfl)) ?_
        exact h2
      refine Keeps.cut (t := x10) ?_ (fun h12 => ?_)
      · unfold x10
        refine Keeps.ite (fun _ => ?_) (fun _ => ?_)
        · refine Keeps.via (State.issuePage_keeps _ _) ?_
          exact h11
        · exact h11
      refine Keeps.via (State.issueParity_keeps _) ?_
      refine Keeps.via (State.rewriteAll_keeps _ _ _ _) ?_
      refine Keeps.via (State.retireBlock_keeps _ _ _ _) ?_
      exact h12
    · rename_i y13 y14
      exact h2
  · exact Keeps.refl _

theorem State.unband_keeps : ∀ s a1 a2, Keeps s (State.unband s a1 a2) := by
  intro s a1 a2
  unfold State.unband
  extract_lets x1 x2
  refine Keeps.via (Keeps.set_fss _ _ (by rfl) (by rfl) (by rfl)) ?_
  exact Keeps.refl _

theorem State.staleErased_keeps : ∀ s a1 a2 a3, Keeps s (State.staleErased s a1 a2 a3) := by
  intro s a1 a2 a3
  unfold State.staleErased
  extract_lets x1 x2
  refine Keeps.cut (t := x2) ?_ (fun h3 => ?_)
  · unfold x2
    refine Keeps.via (State.setBlock_keeps _ _ _ _) ?_
    exact Keeps.refl _
  refine Keeps.ite (fun _ => ?_) (fun _ => ?_)
  · exact h3
  · refine Keeps.via (State.retireBlock_keeps _ _ _ _) ?_
    exact h3

theorem execNandEraseDone_keeps : ∀ a0 a1 a2 s z, Keeps s (runRow (execNandEraseDone a0 a1 a2 s) z) := by
  intro a0 a1 a2 s z
  unfold execNandEraseDone
  rw [runRow_next]
  refine Keeps.whenRunning (fun t1 h2 => ?_) ?_
  · extract_lets x3 x4 x5 x6 x7 x8 x9
    refine Keeps.cut (t := x5) ?_ (fun h10 => ?_)
    · unfold x5
      refine Keeps.via (State.dieOk_keeps _ _) ?_
      refine Keeps.via (State.unband_keeps _ _ _) ?_
      exact h2
    refine Keeps.cut (t := x7) ?_ (fun h11 => ?_)
    · unfold x7
      refine Keeps.via (Keeps.set_store _ _ (fun c => Bank.wf_filter c.units) (fun c => c.root) (fun c => c.nextRoot)) ?_
      exact h10
    refine Keeps.cut (t := x9) ?_ (fun h12 => ?_)
    · unfold x9
      refine Keeps.via (State.setBlock_keeps _ _ _ _) ?_
      exact h11
    refine Keeps.ite (fun _ => ?_) (fun _ => ?_)
    · exact h2
    · refine Keeps.ite (fun _ => ?_) (fun _ => ?_)
      · refine Keeps.via (State.staleErased_keeps _ _ _ _) ?_
        refine Keeps.via (State.dieOk_keeps _ _) ?_
        exact h2
      · refine Keeps.ite (fun _ => ?_) (fun _ => ?_)
        · exact h2
        · refine Keeps.ite (fun _ => ?_) (fun _ => ?_)
          · refine Keeps.via (State.retireBlock_keeps _ _ _ _) ?_
            exact h12
          · refine Keeps.ite (fun _ => ?_) (fun _ => ?_)
            · refine Keeps.via (State.retireBlock_keeps _ _ _ _) ?_
              exact h12
            · exact h12
  · exact Keeps.refl _

theorem State.settleUnit_keeps : ∀ s a1 a2, Keeps s (State.settleUnit s a1 a2) := by
  intro s a1 a2
  unfold State.settleUnit
  refine Keeps.via (State.endReads_keeps _) ?_
  refine Keeps.via (State.mapBlocks_keeps _ _ _) ?_
  exact Keeps.refl _

theorem State.unitRead_keeps : ∀ s a1 a2, Keeps s (State.unitRead s a1 a2) := by
  intro s a1 a2
  unfold State.unitRead
  split
  · rename_i y1
    refine Keeps.via (State.settleUnit_keeps _ _ _) ?_
    exact Keeps.refl _
  · rename_i y2
    refine Keeps.via (State.emptyBlock_keeps _ _ _) ?_
    refine Keeps.via (State.settleUnit_keeps _ _ _) ?_
    exact Keeps.refl _
  · rename_i y3
    refine Keeps.via (State.recoverUnit_keeps _ _ _ _) ?_
    refine Keeps.via (State.settleUnit_keeps _ _ _) ?_
    exact Keeps.refl _
  · rename_i y4
    refine Keeps.via (State.recoverUnit_keeps _ _ _ _) ?_
    refine Keeps.via (State.settleUnit_keeps _ _ _) ?_
    exact Keeps.refl _
  · rename_i y5
    refine Keeps.via (State.recoverUnit_keeps _ _ _ _) ?_
    refine Keeps.via (State.settleUnit_keeps _ _ _) ?_
    exact Keeps.refl _
  · rename_i y6
    refine Keeps.via (State.recoverUnit_keeps _ _ _ _) ?_
    exact Keeps.refl _
  · rename_i y7
    refine Keeps.via (State.settleUnit_keeps _ _ _) ?_
    refine Keeps.via (State.recoverUnit_keeps _ _ _ _) ?_
    exact Keeps.refl _

theorem execNandReadDone_keeps : ∀ a0 a1 s z, Keeps s (runRow (execNandReadDone a0 a1 s) z) := by
  intro a0 a1 s z
  unfold execNandReadDone
  rw [runRow_next]
  refine Keeps.whenRunning (fun t1 h2 => ?_) ?_
  · refine Keeps.ite (fun _ => ?_) (fun _ => ?_)
    · exact h2
    · refine Keeps.via (State.unitRead_keeps _ _ _) ?_
      refine Keeps.via (State.dieOk_keeps _ _) ?_
      exact h2
  · exact Keeps.refl _

theorem execRefreshRead_keeps : ∀ a0 a1 a2 a3 s z, Keeps s (runRow (execRefreshRead a0 a1 a2 a3 s) z) := by
  intro a0 a1 a2 a3 s z
  unfold execRefreshRead
  rw [runRow_next]
  refine Keeps.whenRunning (fun t1 h2 => ?_) ?_
  · extract_lets x3 x4 x5 x6
    refine Keeps.cut (t := x6) ?_ (fun h7 => ?_)
    · unfold x6
      refine Keeps.forEach (fun a8 t9 h10 => ?_) ?_
      · refine Keeps.ite (fun _ => ?_) (fun _ => ?_)
        · refine Keeps.via (State.unitRead_keeps _ _ _) ?_
          exact h10
        · exact h10
      · exact h2
    refine Keeps.ite (fun _ => ?_) (fun _ => ?_)
    · exact h2
    · refine Keeps.ite (fun _ => ?_) (fun _ => ?_)
      · refine Keeps.via (State.retireBlock_keeps _ _ _ _) ?_
        refine Keeps.via (State.moveAll_keeps _ _ _) ?_
        exact h7
      · exact h7
  · exact Keeps.refl _

theorem State.flushTail_keeps : ∀ s, Keeps s (State.flushTail s) := by
  intro s
  unfold State.flushTail
  extract_lets x1 x2
  refine Keeps.cut (t := x1) ?_ (fun h3 => ?_)
  · unfold x1
    refine Keeps.forEach (fun a4 t5 h6 => ?_) ?_
    · refine Keeps.via (State.jAdd_keeps _ _) ?_
      exact h6
    · exact Keeps.refl _
  refine Keeps.cut (t := x2) ?_ (fun h7 => ?_)
  · unfold x2
    refine Keeps.via (State.listBlocks_keeps _) ?_
    exact h3
  refine Keeps.forEach (fun a8 t9 h10 => ?_) ?_
  · refine Keeps.via (State.jAdd_keeps _ _) ?_
    exact h10
  · exact h7

theorem State.journalUnit_keeps : ∀ s a1, ∀ r, State.journalUnit s a1 = some r → Keeps s r := by
  intro s a1 r hr
  unfold State.journalUnit at hr
  dsimp only at hr
  split at hr
  · cases hr
    rename_i heq
    exact Keeps.via (Keeps.set_fss _ _ (by rfl) (by rfl) (by rfl)) (Keeps.via (State.putUnit_keeps _ _ _ _ heq) (State.takeSeq_keeps _ _))
  · cases hr

theorem State.journalRun_keeps : ∀ a0 s, ∀ r, State.journalRun a0 s = some r → Keeps s r := by
  intro a0
  induction a0 with
  | nil =>
    intro s r hr
    cases hr
    exact Keeps.refl _
  | cons l rest ih =>
    intro s r hr
    rw [State.journalRun] at hr
    split at hr
    · rename_i t heq
      exact Keeps.trans (State.journalUnit_keeps _ _ _ heq) (ih _ _ hr)
    · cases hr

theorem State.flushOut_keeps : ∀ s, Keeps s (State.flushOut s) := by
  intro s
  unfold State.flushOut
  extract_lets x1 x2
  refine Keeps.cut (t := x1) ?_ (fun h3 => ?_)
  · unfold x1
    refine Keeps.via (State.flushTail_keeps _) ?_
    exact Keeps.refl _
  split
  · rename_i y4 y5
    exact Keeps.refl _
  · rename_i y6 y7 y8
    extract_lets x9 x10
    refine Keeps.cut (t := x9) ?_ (fun h11 => ?_)
    · unfold x9
      refine Keeps.via (State.issuePage_keeps _ _) ?_
      refine Keeps.via (State.issuePage_keeps _ _) ?_
      refine Keeps.via (State.issuePage_keeps _ _) ?_
      refine Keeps.ofOpt y8 (State.journalRun_keeps _ _) ?_
      refine Keeps.via (Keeps.set_fss _ _ (by rfl) (by rfl) (by rfl)) ?_
      exact h3
    refine Keeps.via (Keeps.set_fss _ _ (by rfl) (by rfl) (by rfl)) ?_
    exact h11

theorem execJournalFlush_keeps : ∀ s z, Keeps s (runRow (execJournalFlush s) z) := by
  intro s z
  unfold execJournalFlush
  rw [runRow_next]
  refine Keeps.whenRunning (fun t1 h2 => ?_) ?_
  · refine Keeps.ite (fun _ => ?_) (fun _ => ?_)
    · exact h2
    · refine Keeps.via (State.flushOut_keeps _) ?_
      exact h2
  · exact Keeps.refl _

theorem State.landEntry_keeps : ∀ s a1, Keeps s (State.landEntry s a1) := by
  intro s a1
  unfold State.landEntry
  split
  · rename_i y1 y2 y3 y4
    refine Keeps.ite (fun _ => ?_) (fun _ => ?_)
    · refine Keeps.via (State.durMark_keeps _ _ _ _) ?_
      exact Keeps.refl _
    · refine Keeps.via (State.durMark_keeps _ _ _ _) ?_
      exact Keeps.refl _
  · rename_i y5 y6 y7 y8 y9 y10
    refine Keeps.via (State.durMark_keeps _ _ _ _) ?_
    exact Keeps.refl _
  · rename_i y11 y12 y13
    exact Keeps.refl _

theorem State.flushLanded_keeps : ∀ s, Keeps s (State.flushLanded s) := by
  intro s
  unfold State.flushLanded
  extract_lets x1 x2
  refine Keeps.forEach (fun a3 t4 h5 => ?_) ?_
  · refine Keeps.via (State.landEntry_keeps _ _) ?_
    exact h5
  · refine Keeps.via (Keeps.set_fss _ _ (by rfl) (by rfl) (by rfl)) ?_
    exact Keeps.refl _

theorem State.beginErases_keeps : ∀ s, Keeps s (State.beginErases s) := by
  intro s
  unfold State.beginErases
  extract_lets x1 x2 x3 x4 x5 x6 x7 x8
  refine Keeps.cut (t := x7) ?_ (fun h9 => ?_)
  · unfold x7
    refine Keeps.via (Keeps.set_fss _ _ (by rfl) (by rfl) (by rfl)) ?_
    exact Keeps.refl _
  refine Keeps.cut (t := x8) ?_ (fun h10 => ?_)
  · unfold x8
    refine Keeps.forEach (fun a11 t12 h13 => ?_) ?_
    · refine Keeps.ite (fun _ => ?_) (fun _ => ?_)
      · refine Keeps.via (State.moveAll_keeps _ _ _) ?_
        exact h13
      · exact h13
    · exact h9
  refine Keeps.forEach (fun a14 t15 h16 => ?_) ?_
  · refine Keeps.ite (fun _ => ?_) (fun _ => ?_)
    · refine Keeps.via (State.unband_keeps _ _ _) ?_
      exact h16
    · refine Keeps.via (State.setBlock_keeps _ _ _ _) ?_
      exact h16
  · exact h10

theorem State.finishFlushed_keeps : ∀ s, Keeps s (State.finishFlushed s) := by
  intro s
  unfold State.finishFlushed
  refine Keeps.forEach (fun a1 t2 h3 => ?_) ?_
  · refine Keeps.ite (fun _ => ?_) (fun _ => ?_)
    · refine Keeps.via (State.finishManager_keeps _ _) ?_
      exact h3
    · exact h3
  · exact Keeps.refl _

theorem execJournalFlushComplete_keeps : ∀ s z, Keeps s (runRow (execJournalFlushComplete s) z) := by
  intro s z
  unfold execJournalFlushComplete
  rw [runRow_next]
  refine Keeps.whenRunning (fun t1 h2 => ?_) ?_
  · refine Keeps.ite (fun _ => ?_) (fun _ => ?_)
    · exact h2
    · refine Keeps.via (State.pump_keeps _) ?_
      refine Keeps.via (State.beginErases_keeps _) ?_
      refine Keeps.via (State.finishFlushed_keeps _) ?_
      refine Keeps.via (State.flushLanded_keeps _) ?_
      refine Keeps.forEach (fun a3 t4 h5 => ?_) ?_
      · refine Keeps.via (State.pageDone_keeps _ _) ?_
        exact h5
      · exact h2
  · exact Keeps.refl _

theorem State.reserveSeqs_keeps : ∀ s, Keeps s (State.reserveSeqs s) := by
  intro s
  unfold State.reserveSeqs
  refine Keeps.via (Keeps.set_inst _ _ (fun c => Bank.wf_mapVals c.inst)) ?_
  exact Keeps.refl _

theorem State.putCkpt_keeps : ∀ s, ∀ r, State.putCkpt s = some r → Keeps s r.2 := by
  intro s r hr
  unfold State.putCkpt at hr
  dsimp only at hr
  exact Keeps.via (State.putUnit_keeps _ _ _ _ hr) (Keeps.via (State.bumpCkpt_keeps _) (State.takeSeq_keeps _ _))

theorem State.putRoot_keeps : ∀ a0 s, ∀ r, State.putRoot a0 s = some r → Keeps s r.2 := by
  intro a0
  induction a0 with
  | zero =>
    intro s r hr
    rw [State.putRoot] at hr
    exact State.putCkpt_keeps _ _ hr
  | succ n ih =>
    intro s r hr
    rw [State.putRoot] at hr
    split at hr
    · rename_i p t heq
      exact Keeps.trans (State.putCkpt_keeps _ _ heq) (ih _ _ hr)
    · cases hr

/-- The records a root holds are those of the instances, with commit records marked archived. -/
theorem State.rootSnap_inst {s : State} (c : s.Canon) : Bank.wf instDef s.rootSnap.inst = true := by
  unfold State.rootSnap
  dsimp only
  generalize s.fss.segs.filter _ = l
  have h := c.inst
  generalize s.inst = b at h
  induction l generalizing b with
  | nil => exact h
  | cons g r ih => exact ih _ (Bank.wf_set h _ _)

theorem State.writeRoot_keeps : ∀ s, Keeps s (State.writeRoot s) := by
  intro s c
  unfold State.writeRoot
  dsimp only
  have h := State.reserveSeqs_keeps s c
  generalize s.reserveSeqs = t at h ⊢
  split
  · rename_i pua u hu
    have h2 := State.putRoot_keeps _ _ _ hu h
    have h3 := State.issuePage_keeps u .system h2
    refine Keeps.set_store (u.issuePage .system) _ (fun c => c.units) (fun c => c.root) (fun _ w e => ?_) h3
    cases e
    exact State.rootSnap_inst h2
  · exact c

theorem execRootCheckpoint_keeps : ∀ s z, Keeps s (runRow (execRootCheckpoint s) z) := by
  intro s z
  unfold execRootCheckpoint
  rw [runRow_next]
  refine Keeps.whenRunning (fun t1 h2 => ?_) ?_
  · refine Keeps.ite (fun _ => ?_) (fun _ => ?_)
    · refine Keeps.via (State.writeRoot_keeps _) ?_
      exact h2
    · exact h2
  · exact Keeps.refl _

theorem State.emptyBand_keeps : ∀ s a1 a2, Keeps s (State.emptyBand s a1 a2) := by
  intro s a1 a2
  unfold State.emptyBand
  extract_lets x1 x2
  refine Keeps.cut (t := x1) ?_ (fun h3 => ?_)
  · unfold x1
    refine Keeps.via (State.moveAll_keeps _ _ _) ?_
    exact Keeps.refl _
  refine Keeps.ite (fun _ => ?_) (fun _ => ?_)
  · exact h3
  · refine Keeps.via (Keeps.set_fss _ _ (by rfl) (by rfl) (by rfl)) ?_
    exact h3

theorem execGarbageCollection_keeps : ∀ s z, Keeps s (runRow (execGarbageCollection s) z) := by
  intro s z
  unfold execGarbageCollection
  rw [runRow_next]
  refine Keeps.whenRunning (fun t1 h2 => ?_) ?_
  · refine Keeps.ite (fun _ => ?_) (fun _ => ?_)
    · exact h2
    · extract_lets x3 x4 x5
      refine Keeps.cut (t := x5) ?_ (fun h6 => ?_)
      · unfold x5
        refine Keeps.via (Keeps.set_fss _ _ (by rfl) (by rfl) (by rfl)) ?_
        exact h2
      refine Keeps.ite (fun _ => ?_) (fun _ => ?_)
      · split
        · rename_i y7 y8 y9 y10 y11
          refine Keeps.via (State.emptyBand_keeps _ _ _) ?_
          exact h6
        · rename_i y12 y13 y14 y15
          exact h6
      · refine Keeps.via (Keeps.set_fss _ _ (by rfl) (by rfl) (by rfl)) ?_
        exact h2
  · exact Keeps.refl _

theorem execStaticWearLevelling_keeps : ∀ a0 s z, Keeps s (runRow (execStaticWearLevelling a0 s) z) := by
  intro a0 s z
  unfold execStaticWearLevelling
  rw [runRow_next]
  refine Keeps.whenRunning (fun t1 h2 => ?_) ?_
  · extract_lets x3
    refine Keeps.ite (fun _ => ?_) (fun _ => ?_)
    · split
      · rename_i y4 y5 y6 y7
        split
        · rename_i y8 y9 y10
          refine Keeps.via (State.emptyBand_keeps _ _ _) ?_
          exact h2
        · rename_i y11 y12
          exact h2
      · rename_i y13 y14 y15
        exact h2
    · exact h2
  · exact Keeps.refl _

theorem execDieBusyTimeout_keeps : ∀ a0 s z, Keeps s (runRow (execDieBusyTimeout a0 s) z) := by
  intro a0 s z
  unfold execDieBusyTimeout
  rw [runRow_next]
  refine Keeps.whenRunning (fun t1 h2 => ?_) ?_
  · extract_lets x3 x4
    refine Keeps.cut (t := x4) ?_ (fun h5 => ?_)
    · unfold x4
      refine Keeps.via (State.modDie_keeps _ _ _) ?_
      exact h2
    refine Keeps.ite (fun _ => ?_) (fun _ => ?_)
    · exact h2
    · refine Keeps.ite (fun _ => ?_) (fun _ => ?_)
      · refine Keeps.via (State.dieFail_keeps _ _) ?_
        exact h5
      · refine Keeps.via (State.emit_keeps _ _) ?_
        exact h5
  · exact Keeps.refl _

theorem State.rebuildUnit_keeps : ∀ s a1 a2, Keeps s (State.rebuildUnit s a1 a2) := by
  intro s a1 a2
  unfold State.rebuildUnit
  split
  · rename_i y1 y2
    refine Keeps.via (State.loseUnit_keeps _ _) ?_
    exact Keeps.refl _
  · rename_i y3 y4
    refine Keeps.via (State.recoverUnit_keeps _ _ _ _) ?_
    exact Keeps.refl _
  · rename_i y5 y6 y7
    refine Keeps.ite (fun _ => ?_) (fun _ => ?_)
    · refine Keeps.via (State.loseUnit_keeps _ _) ?_
      exact Keeps.refl _
    · extract_lets x8 x9
      refine Keeps.cut (t := x8) ?_ (fun h10 => ?_)
      · unfold x8
        refine Keeps.via (State.moveLive_keeps _ _ _) ?_
        exact Keeps.refl _
      refine Keeps.ite (fun _ => ?_) (fun _ => ?_)
      · exact h10
      · refine Keeps.via (Keeps.set_fss _ _ (by rfl) (by rfl) (by rfl)) ?_
        exact h10

theorem execDieRebuildDone_keeps : ∀ a0 s z, Keeps s (runRow (execDieRebuildDone a0 s) z) := by
  intro a0 s z
  unfold execDieRebuildDone
  rw [runRow_next]
  refine Keeps.whenRunning (fun t1 h2 => ?_) ?_
  · refine Keeps.ite (fun _ => ?_) (fun _ => ?_)
    · exact h2
    · extract_lets x3 x4
      refine Keeps.cut (t := x3) ?_ (fun h5 => ?_)
      · unfold x3
        refine Keeps.forEach (fun a6 t7 h8 => ?_) ?_
        · refine Keeps.ite (fun _ => ?_) (fun _ => ?_)
          · refine Keeps.via (State.rebuildUnit_keeps _ _ _) ?_
            exact h8
          · exact h8
        · exact h2
      refine Keeps.via (Keeps.set_fss _ _ (by rfl) (by rfl) (by rfl)) ?_
      exact h5
  · exact Keeps.refl _

theorem execZqCalibration_keeps : ∀ s z, Keeps s (runRow (execZqCalibration s) z) := fun _ _ =>
  Keeps.ofOnly (execZqCalibration_only _ _) rfl

theorem State.dropRead_keeps : ∀ s a1, Keeps s (State.dropRead s a1) := fun _ _ =>
  Keeps.ofOnly (State.dropRead_only _ _) rfl

theorem State.readData_keeps : ∀ s a1 a2 a3, Keeps s (State.readData s a1 a2 a3) := by
  intro s a1 a2 a3
  unfold State.readData
  extract_lets x1
  split
  · rename_i y2 y3
    refine Keeps.via (State.doorbellData_keeps _ _ _) ?_
    exact Keeps.refl _
  · rename_i y4 y5 y6
    refine Keeps.via (State.takeEntry_keeps _ _ _ _) ?_
    exact Keeps.refl _
  · rename_i y7 y8 y9
    split
    · rename_i y10 y11 y12
      refine Keeps.via (State.pump_keeps _) ?_
      refine Keeps.via (State.cmdData_keeps _ _ _) ?_
      exact Keeps.refl _
    · rename_i y13 y14
      exact Keeps.refl _
  · rename_i y15 y16 y17
    split
    · rename_i y18 y19 y20
      refine Keeps.via (State.pump_keeps _) ?_
      refine Keeps.via (State.cmdData_keeps _ _ _) ?_
      exact Keeps.refl _
    · rename_i y21 y22
      exact Keeps.refl _
  · rename_i y23 y24
    exact Keeps.refl _
  · rename_i y25 y26 y27
    refine Keeps.via (State.leafData_keeps _ _ _ _ _) ?_
    exact Keeps.refl _
  · rename_i y28 y29 y30
    refine Keeps.via (State.leafData_keeps _ _ _ _ _) ?_
    exact Keeps.refl _

theorem execHostReadCompletion_keeps : ∀ a0 a1 a2 s z, Keeps s (runRow (execHostReadCompletion a0 a1 a2 s) z) := by
  intro a0 a1 a2 s z
  unfold execHostReadCompletion
  rw [runRow_next]
  refine Keeps.whenServing (fun t1 h2 => ?_) ?_
  · split
    · rename_i y3 y4 y5
      refine Keeps.via (State.readData_keeps _ _ _ _) ?_
      refine Keeps.via (State.dropRead_keeps _ _) ?_
      exact h2
    · rename_i y6 y7
      exact h2
  · exact Keeps.refl _

theorem State.cmdReadFail_keeps : ∀ s a1 a2, Keeps s (State.cmdReadFail s a1 a2) := by
  intro s a1 a2
  unfold State.cmdReadFail
  split
  · rename_i y1 y2 y3
    refine Keeps.ite (fun _ => ?_) (fun _ => ?_)
    · refine Keeps.via (State.complete_keeps _ _ _ _ _) ?_
      exact Keeps.refl _
    · exact Keeps.refl _
  · rename_i y4 y5
    exact Keeps.refl _

theorem State.readFail_keeps : ∀ s a1, Keeps s (State.readFail s a1) := by
  intro s a1
  unfold State.readFail
  split
  · rename_i y1 y2
    refine Keeps.via (State.doorbellFail_keeps _ _) ?_
    exact Keeps.refl _
  · rename_i y3 y4 y5
    refine Keeps.via (State.entryFail_keeps _ _ _) ?_
    exact Keeps.refl _
  · rename_i y6 y7 y8
    refine Keeps.via (State.cmdReadFail_keeps _ _ _) ?_
    exact Keeps.refl _
  · rename_i y9 y10 y11
    refine Keeps.via (State.cmdReadFail_keeps _ _ _) ?_
    exact Keeps.refl _
  · rename_i y12 y13
    exact Keeps.refl _
  · rename_i y14 y15 y16
    refine Keeps.via (State.leafFail_keeps _ _ _) ?_
    exact Keeps.refl _
  · rename_i y17 y18 y19
    refine Keeps.via (State.leafFail_keeps _ _ _) ?_
    exact Keeps.refl _

theorem State.aerReport_keeps : ∀ s a1 a2, Keeps s (State.aerReport s a1 a2) := by
  intro s a1 a2
  unfold State.aerReport
  refine Keeps.via (State.emit_keeps _ _) ?_
  refine Keeps.via (State.modFn_keeps _ _ _) ?_
  exact Keeps.refl _

theorem State.countReadFail_keeps : ∀ s a1 a2, Keeps s (State.countReadFail s a1 a2) := by
  intro s a1 a2
  unfold State.countReadFail
  extract_lets x1 x2
  refine Keeps.cut (t := x1) ?_ (fun h3 => ?_)
  · unfold x1
    refine Keeps.via (State.aerReport_keeps _ _ _) ?_
    exact Keeps.refl _
  split
  · rename_i y4
    refine Keeps.via (State.logEv_keeps _ _ _ _) ?_
    refine Keeps.via (Keeps.set_link _ _) ?_
    exact h3
  · rename_i y5 y6
    refine Keeps.via (State.logEv_keeps _ _ _ _) ?_
    refine Keeps.via (Keeps.set_link _ _) ?_
    exact h3

theorem execHostReadErrorCompletion_keeps : ∀ a0 a1 s z, Keeps s (runRow (execHostReadErrorCompletion a0 a1 s) z) := by
  intro a0 a1 s z
  unfold execHostReadErrorCompletion
  rw [runRow_next]
  refine Keeps.whenServing (fun t1 h2 => ?_) ?_
  · split
    · rename_i y3 y4 y5
      refine Keeps.via (State.pump_keeps _) ?_
      refine Keeps.via (State.readFail_keeps _ _) ?_
      refine Keeps.via (State.countReadFail_keeps _ _ _) ?_
      refine Keeps.via (State.dropRead_keeps _ _) ?_
      exact h2
    · rename_i y6 y7
      exact h2
  · exact Keeps.refl _

theorem execCompletionTimeout_keeps : ∀ a0 s z, Keeps s (runRow (execCompletionTimeout a0 s) z) := by
  intro a0 s z
  unfold execCompletionTimeout
  rw [runRow_next]
  refine Keeps.whenServing (fun t1 h2 => ?_) ?_
  · split
    · rename_i y3 y4 y5
      refine Keeps.ite (fun _ => ?_) (fun _ => ?_)
      · exact h2
      · extract_lets x6 x7 x8
        refine Keeps.cut (t := x6) ?_ (fun h9 => ?_)
        · unfold x6
          refine Keeps.via (State.aerReport_keeps _ _ _) ?_
          refine Keeps.via (State.dropRead_keeps _ _) ?_
          exact h2
        refine Keeps.cut (t := x8) ?_ (fun h10 => ?_)
        · unfold x8
          refine Keeps.via (Keeps.set_link _ _) ?_
          exact h9
        refine Keeps.via (State.pump_keeps _) ?_
        refine Keeps.via (State.readFail_keeps _ _) ?_
        refine Keeps.via (State.logEv_keeps _ _ _ _) ?_
        exact h10
    · rename_i y11 y12
      exact h2
  · exact Keeps.refl _

theorem State.modDrive_keeps : ∀ s a1 a2, Keeps s (State.modDrive s a1 a2) := fun _ _ _ =>
  Keeps.ofOnly (State.modDrive_only _ _ _) rfl

theorem State.modAxis_keeps : ∀ s a1 a2, Keeps s (State.modAxis s a1 a2) := fun _ _ _ =>
  Keeps.ofOnly (State.modAxis_only _ _ _) rfl

theorem State.modSpin_keeps : ∀ s a1 a2, Keeps s (State.modSpin s a1 a2) := fun _ _ _ =>
  Keeps.ofOnly (State.modSpin_only _ _ _) rfl

theorem State.modSled_keeps : ∀ s a1 a2, Keeps s (State.modSled s a1 a2) := fun _ _ _ =>
  Keeps.ofOnly (State.modSled_only _ _ _) rfl

theorem State.modRdc_keeps : ∀ s a1 a2, Keeps s (State.modRdc s a1 a2) := fun _ _ _ =>
  Keeps.ofOnly (State.modRdc_only _ _ _) rfl

theorem State.modWst_keeps : ∀ s a1 a2, Keeps s (State.modWst s a1 a2) := fun _ _ _ =>
  Keeps.ofOnly (State.modWst_only _ _ _) rfl

theorem State.modItem_keeps : ∀ s a1 a2 a3, Keeps s (State.modItem s a1 a2 a3) := fun _ _ _ _ =>
  Keeps.ofOnly (State.modItem_only _ _ _ _) rfl

theorem State.calDue_keeps : ∀ s a1 a2, Keeps s (State.calDue s a1 a2) := fun _ _ _ =>
  Keeps.ofOnly (State.calDue_only _ _ _) rfl

theorem State.calFallsDue_keeps : ∀ s a1 a2, Keeps s (State.calFallsDue s a1 a2) := fun _ _ _ =>
  Keeps.ofOnly (State.calFallsDue_only _ _ _) rfl

theorem State.calCount_keeps : ∀ s a1 a2 a3, Keeps s (State.calCount s a1 a2 a3) := fun _ _ _ _ =>
  Keeps.ofOnly (State.calCount_only _ _ _ _) rfl

theorem State.calFailed_keeps : ∀ s a1 a2, Keeps s (State.calFailed s a1 a2) := by
  intro s a1 a2
  unfold State.calFailed
  extract_lets x1 x2
  refine Keeps.cut (t := x1) ?_ (fun h3 => ?_)
  · unfold x1
    refine Keeps.via (State.modItem_keeps _ _ _ _) ?_
    exact Keeps.refl _
  refine Keeps.via (State.note_keeps _ _ _) ?_
  refine Keeps.via (Keeps.set_cal _ _) ?_
  exact h3

theorem State.stopRecording_keeps : ∀ s, Keeps s (State.stopRecording s) := by
  intro s
  unfold State.stopRecording
  refine Keeps.via (Keeps.set_fss_arc _ _ _ (by rfl) (by rfl) (by rfl)) ?_
  exact Keeps.refl _

theorem State.setIsFull_keeps : ∀ s, Keeps s (State.setIsFull s) := by
  intro s
  unfold State.setIsFull
  refine Keeps.ite (fun _ => ?_) (fun _ => ?_)
  · exact Keeps.refl _
  · extract_lets x1 x2
    refine Keeps.cut (t := x1) ?_ (fun h3 => ?_)
    · unfold x1
      refine Keeps.via (State.stopRecording_keeps _) ?_
      exact Keeps.refl _
    refine Keeps.via (State.noteWaiting_keeps _) ?_
    refine Keeps.via (State.note_keeps _ _ _) ?_
    refine Keeps.via (Keeps.set_arc _ _) ?_
    exact h3

theorem State.replaceStripe_keeps : ∀ s a1, Keeps s (State.replaceStripe s a1) := by
  intro s a1
  unfold State.replaceStripe
  split
  · rename_i y1 y2
    exact Keeps.refl _
  · rename_i y3 y4 y5
    split
    · rename_i y6 y7
      refine Keeps.via (State.setIsFull_keeps _) ?_
      exact Keeps.refl _
    · rename_i y8 y9 y10 y11 y12
      extract_lets x13 x14 x15
      refine Keeps.cut (t := x15) ?_ (fun h16 => ?_)
      · unfold x15
        refine Keeps.via (Keeps.set_arc _ _) ?_
        exact Keeps.refl _
      refine Keeps.forEach (fun a17 t18 h19 => ?_) ?_
      · refine Keeps.via (State.modSeg_keeps _ _ _) ?_
        exact h19
      · exact h16

theorem State.stripeBad_keeps : ∀ s a1 a2, Keeps s (State.stripeBad s a1 a2) := by
  intro s a1 a2
  unfold State.stripeBad
  extract_lets x1 x2
  refine Keeps.cut (t := x2) ?_ (fun h3 => ?_)
  · unfold x2
    refine Keeps.via (Keeps.set_arc _ _) ?_
    exact Keeps.refl _
  refine Keeps.ite (fun _ => ?_) (fun _ => ?_)
  · refine Keeps.via (State.replaceStripe_keeps _ _) ?_
    exact h3
  · exact h3

theorem State.laserRead_keeps : ∀ s a1, Keeps s (State.laserRead s a1) := fun _ _ =>
  Keeps.ofOnly (State.laserRead_only _ _) rfl

theorem State.laserWrite_keeps : ∀ s a1 a2, Keeps s (State.laserWrite s a1 a2) := fun _ _ _ =>
  Keeps.ofOnly (State.laserWrite_only _ _ _) rfl

theorem State.closeGate_keeps : ∀ s a1, Keeps s (State.closeGate s a1) := by
  intro s a1
  unfold State.closeGate
  extract_lets x1 x2
  refine Keeps.cut (t := x2) ?_ (fun h3 => ?_)
  · unfold x2
    refine Keeps.via (State.laserRead_keeps _ _) ?_
    refine Keeps.via (State.modWst_keeps _ _ _) ?_
    exact Keeps.refl _
  split
  · rename_i y4 y5 y6 y7 y8 y9
    refine Keeps.via (State.stripeBad_keeps _ _ _) ?_
    exact h3
  · rename_i y10 y11 y12
    exact h3

theorem State.gate_keeps : ∀ s a1, Keeps s (State.gate s a1) := by
  intro s a1
  unfold State.gate
  extract_lets x1
  refine Keeps.ite (fun _ => ?_) (fun _ => ?_)
  · refine Keeps.ite (fun _ => ?_) (fun _ => ?_)
    · exact Keeps.refl _
    · refine Keeps.via (State.closeGate_keeps _ _) ?_
      exact Keeps.refl _
  · refine Keeps.ite (fun _ => ?_) (fun _ => ?_)
    · refine Keeps.via (State.modWst_keeps _ _ _) ?_
      exact Keeps.refl _
    · exact Keeps.refl _

theorem State.gatesOnce_keeps : ∀ s, Keeps s (State.gatesOnce s) := by
  intro s
  unfold State.gatesOnce
  refine Keeps.forBelow (fun a1 t2 h3 => ?_) ?_
  · refine Keeps.via (State.gate_keeps _ _) ?_
    exact h3
  · exact Keeps.refl _

theorem State.gates_keeps : ∀ s, Keeps s (State.gates s) := by
  intro s
  unfold State.gates
  refine Keeps.via (State.gatesOnce_keeps _) ?_
  refine Keeps.via (State.gatesOnce_keeps _) ?_
  exact Keeps.refl _

theorem State.lights_keeps : ∀ s, Keeps s (State.lights s) := fun _ =>
  Keeps.ofOnly (State.lights_only _) rfl

theorem State.channels_keeps : ∀ s, Keeps s (State.channels s) := fun _ =>
  Keeps.ofOnly (State.channels_only _) rfl

theorem State.settle_keeps : ∀ s, Keeps s (State.settle s) := by
  intro s
  unfold State.settle
  refine Keeps.via (State.lights_keeps _) ?_
  refine Keeps.via (State.channels_keeps _) ?_
  refine Keeps.via (State.gates_keeps _) ?_
  exact Keeps.refl _

theorem State.latch_keeps : ∀ s a1 a2, Keeps s (State.latch s a1 a2) := fun _ _ _ =>
  Keeps.ofOnly (State.latch_only _ _ _) rfl

theorem State.judgeSource_keeps : ∀ s a1, Keeps s (State.judgeSource s a1) := by
  intro s a1
  unfold State.judgeSource
  extract_lets x1
  refine Keeps.ite (fun _ => ?_) (fun _ => ?_)
  · refine Keeps.ite (fun _ => ?_) (fun _ => ?_)
    · exact Keeps.refl _
    · refine Keeps.via (State.note_keeps _ _ _) ?_
      refine Keeps.via (State.modAxis_keeps _ _ _) ?_
      exact Keeps.refl _
  · refine Keeps.via (State.modAxis_keeps _ _ _) ?_
    exact Keeps.refl _

theorem State.sampleAxis_keeps : ∀ s a1 a2, Keeps s (State.sampleAxis s a1 a2) := by
  intro s a1 a2
  unfold State.sampleAxis
  extract_lets x1 x2
  refine Keeps.cut (t := x2) ?_ (fun h3 => ?_)
  · unfold x2
    refine Keeps.via (State.modAxis_keeps _ _ _) ?_
    exact Keeps.refl _
  refine Keeps.ite (fun _ => ?_) (fun _ => ?_)
  · exact h3
  · refine Keeps.via (State.note_keeps _ _ _) ?_
    exact h3

theorem State.rampOpen_keeps : ∀ s a1 a2, Keeps s (State.rampOpen s a1 a2) := fun _ _ _ =>
  Keeps.ofOnly (State.rampOpen_only _ _ _) rfl

theorem State.sledHold_keeps : ∀ s a1, Keeps s (State.sledHold s a1) := fun _ _ =>
  Keeps.ofOnly (State.sledHold_only _ _) rfl

theorem State.openSled_keeps : ∀ s a1 a2, Keeps s (State.openSled s a1 a2) := fun _ _ _ =>
  Keeps.ofOnly (State.openSled_only _ _ _) rfl

theorem State.openTrk_keeps : ∀ s a1 a2, Keeps s (State.openTrk s a1 a2) := fun _ _ _ =>
  Keeps.ofOnly (State.openTrk_only _ _ _) rfl

theorem State.openFoc_keeps : ∀ s a1 a2, Keeps s (State.openFoc s a1 a2) := fun _ _ _ =>
  Keeps.ofOnly (State.openFoc_only _ _ _) rfl

theorem State.openSpn_keeps : ∀ s a1 a2, Keeps s (State.openSpn s a1 a2) := fun _ _ _ =>
  Keeps.ofOnly (State.openSpn_only _ _ _) rfl

theorem State.openAxis_keeps : ∀ s a1 a2, Keeps s (State.openAxis s a1 a2) := fun _ _ _ =>
  Keeps.ofOnly (State.openAxis_only _ _ _) rfl

theorem State.closeAxis_keeps : ∀ s a1, Keeps s (State.closeAxis s a1) := fun _ _ =>
  Keeps.ofOnly (State.closeAxis_only _ _) rfl

theorem State.resync_keeps : ∀ s a1, Keeps s (State.resync s a1) := fun _ _ =>
  Keeps.ofOnly (State.resync_only _ _) rfl

theorem State.rampStep_keeps : ∀ s a1, Keeps s (State.rampStep s a1) := fun _ _ =>
  Keeps.ofOnly (State.rampStep_only _ _) rfl

theorem State.acquire_keeps : ∀ s a1 a2, Keeps s (State.acquire s a1 a2) := fun _ _ _ =>
  Keeps.ofOnly (State.acquire_only _ _ _) rfl

theorem State.closeFoc_keeps : ∀ s a1 a2, Keeps s (State.closeFoc s a1 a2) := fun _ _ _ =>
  Keeps.ofOnly (State.closeFoc_only _ _ _) rfl

theorem State.acqStep_keeps : ∀ s a1 a2 a3 a4 a5 a6, Keeps s (State.acqStep s a1 a2 a3 a4 a5 a6) := by
  intro s a1 a2 a3 a4 a5 a6
  unfold State.acqStep
  extract_lets x1 x2 x3 x4 x5 x6 x7 x8 x9 x10 x11
  refine Keeps.ite (fun _ => ?_) (fun _ => ?_)
  · refine Keeps.via (State.closeFoc_keeps _ _ _) ?_
    exact Keeps.refl _
  · refine Keeps.ite (fun _ => ?_) (fun _ => ?_)
    · refine Keeps.via (State.note_keeps _ _ _) ?_
      refine Keeps.via (State.openFoc_keeps _ _ _) ?_
      exact Keeps.refl _
    · refine Keeps.via (State.modAxis_keeps _ _ _) ?_
      refine Keeps.via (State.modDrive_keeps _ _ _) ?_
      exact Keeps.refl _

theorem State.jumpStep_keeps : ∀ s a1 a2 a3 a4 a5 a6, Keeps s (State.jumpStep s a1 a2 a3 a4 a5 a6) := fun _ _ _ _ _ _ _ =>
  Keeps.ofOnly (State.jumpStep_only _ _ _ _ _ _ _) rfl

theorem State.shortSeek_keeps : ∀ s a1 a2, Keeps s (State.shortSeek s a1 a2) := fun _ _ _ =>
  Keeps.ofOnly (State.shortSeek_only _ _ _) rfl

theorem State.seekStep_keeps : ∀ s a1 a2 a3 a4 a5, Keeps s (State.seekStep s a1 a2 a3 a4 a5) := fun _ _ _ _ _ _ =>
  Keeps.ofOnly (State.seekStep_only _ _ _ _ _ _) rfl

theorem State.focusLoss_keeps : ∀ s a1, Keeps s (State.focusLoss s a1) := by
  intro s a1
  unfold State.focusLoss
  extract_lets x1 x2
  refine Keeps.cut (t := x2) ?_ (fun h3 => ?_)
  · unfold x2
    refine Keeps.via (State.note_keeps _ _ _) ?_
    refine Keeps.via (State.openFoc_keeps _ _ _) ?_
    exact Keeps.refl _
  refine Keeps.ite (fun _ => ?_) (fun _ => ?_)
  · refine Keeps.via (State.acquire_keeps _ _ _) ?_
    exact h3
  · refine Keeps.via (State.modAxis_keeps _ _ _) ?_
    exact h3

theorem State.alarmRise_keeps : ∀ s a1, Keeps s (State.alarmRise s a1) := by
  intro s a1
  unfold State.alarmRise
  extract_lets x1 x2 x3
  refine Keeps.cut (t := x2) ?_ (fun h4 => ?_)
  · unfold x2
    refine Keeps.via (Keeps.set_stl _ _) ?_
    exact Keeps.refl _
  refine Keeps.ite (fun _ => ?_) (fun _ => ?_)
  · refine Keeps.via (Keeps.set_stl _ _) ?_
    exact h4
  · refine Keeps.via (State.gates_keeps _) ?_
    refine Keeps.via (State.note_keeps _ _ _) ?_
    refine Keeps.via (Keeps.set_stl _ _) ?_
    exact h4

theorem State.startFoc_keeps : ∀ s a1, Keeps s (State.startFoc s a1) := fun _ _ =>
  Keeps.ofOnly (State.startFoc_only _ _) rfl

theorem State.startTrk_keeps : ∀ s a1, Keeps s (State.startTrk s a1) := fun _ _ =>
  Keeps.ofOnly (State.startTrk_only _ _) rfl

theorem State.startSld_keeps : ∀ s a1, Keeps s (State.startSld s a1) := fun _ _ =>
  Keeps.ofOnly (State.startSld_only _ _) rfl

theorem State.lateStep_keeps : ∀ s a1, Keeps s (State.lateStep s a1) := fun _ _ =>
  Keeps.ofOnly (State.lateStep_only _ _) rfl

theorem State.focSample_keeps : ∀ s a1, Keeps s (State.focSample s a1) := by
  intro s a1
  unfold State.focSample
  extract_lets x1 x2 x3
  refine Keeps.cut (t := x3) ?_ (fun h4 => ?_)
  · unfold x3
    refine Keeps.via (State.rampStep_keeps _ _) ?_
    exact Keeps.refl _
  split
  · rename_i y5 y6
    refine Keeps.via (State.startFoc_keeps _ _) ?_
    exact Keeps.refl _
  · rename_i y7 y8
    split
    · rename_i y9 y10 y11 y12 y13 y14 y15
      refine Keeps.ite (fun _ => ?_) (fun _ => ?_)
      · refine Keeps.via (State.acquire_keeps _ _ _) ?_
        exact h4
      · exact h4
    · rename_i y16 y17
      refine Keeps.via (State.startFoc_keeps _ _) ?_
      refine Keeps.via (State.rampStep_keeps _ _) ?_
      exact Keeps.refl _
  · rename_i y18 y19
    refine Keeps.via (State.rampStep_keeps _ _) ?_
    exact Keeps.refl _
  · rename_i y20 y21
    refine Keeps.via (State.lateStep_keeps _ _) ?_
    exact Keeps.refl _
  · rename_i y22 y23
    split
    · rename_i y24 y25 y26 y27 y28 y29 y30
      refine Keeps.via (State.acqStep_keeps _ _ _ _ _ _ _) ?_
      exact Keeps.refl _
    · rename_i y31 y32 y33 y34 y35 y36 y37
      refine Keeps.via (State.jumpStep_keeps _ _ _ _ _ _ _) ?_
      exact Keeps.refl _
    · rename_i y38 y39 y40
      exact Keeps.refl _
  · rename_i y41 y42 y43 y44 y45 y46
    refine Keeps.ite (fun _ => ?_) (fun _ => ?_)
    · refine Keeps.via (State.focusLoss_keeps _ _) ?_
      exact Keeps.refl _
    · refine Keeps.via (State.sampleAxis_keeps _ _ _) ?_
      exact Keeps.refl _

theorem State.trkSample_keeps : ∀ s a1, Keeps s (State.trkSample s a1) := by
  intro s a1
  unfold State.trkSample
  extract_lets x1 x2 x3
  refine Keeps.cut (t := x3) ?_ (fun h4 => ?_)
  · unfold x3
    split
    · rename_i y5 y6
      refine Keeps.via (State.startTrk_keeps _ _) ?_
      exact Keeps.refl _
    · rename_i y7 y8
      refine Keeps.via (State.startTrk_keeps _ _) ?_
      refine Keeps.via (State.rampStep_keeps _ _) ?_
      exact Keeps.refl _
    · rename_i y9 y10
      refine Keeps.via (State.rampStep_keeps _ _) ?_
      exact Keeps.refl _
    · rename_i y11 y12
      refine Keeps.via (State.lateStep_keeps _ _) ?_
      exact Keeps.refl _
    · rename_i y13 y14
      split
      · rename_i y15 y16 y17 y18 y19 y20
        refine Keeps.via (State.seekStep_keeps _ _ _ _ _ _) ?_
        exact Keeps.refl _
      · rename_i y21 y22
        refine Keeps.via (State.rampStep_keeps _ _) ?_
        exact Keeps.refl _
      · rename_i y23 y24 y25
        exact Keeps.refl _
    · rename_i y26 y27 y28 y29 y30 y31
      refine Keeps.via (State.sampleAxis_keeps _ _ _) ?_
      exact Keeps.refl _
  refine Keeps.via (State.modDrive_keeps _ _ _) ?_
  exact h4

theorem State.lockSetpoint_keeps : ∀ s a1, Keeps s (State.lockSetpoint s a1) := fun _ _ =>
  Keeps.ofOnly (State.lockSetpoint_only _ _) rfl

theorem State.spnSample_keeps : ∀ s a1 a2, Keeps s (State.spnSample s a1 a2) := by
  intro s a1 a2
  unfold State.spnSample
  extract_lets x1 x2
  split
  · rename_i y3 y4
    refine Keeps.via (State.lateStep_keeps _ _) ?_
    exact Keeps.refl _
  · rename_i y5 y6
    refine Keeps.via (State.sampleAxis_keeps _ _ _) ?_
    refine Keeps.via (State.lockSetpoint_keeps _ _) ?_
    exact Keeps.refl _
  · rename_i y7 y8
    refine Keeps.via (State.sampleAxis_keeps _ _ _) ?_
    refine Keeps.via (State.lockSetpoint_keeps _ _) ?_
    exact Keeps.refl _
  · rename_i y9 y10 y11 y12
    exact Keeps.refl _

theorem State.sldSample_keeps : ∀ s a1, Keeps s (State.sldSample s a1) := by
  intro s a1
  unfold State.sldSample
  extract_lets x1
  split
  · rename_i y2 y3
    refine Keeps.via (State.startSld_keeps _ _) ?_
    exact Keeps.refl _
  · rename_i y4 y5
    refine Keeps.via (State.startSld_keeps _ _) ?_
    exact Keeps.refl _
  · rename_i y6 y7
    refine Keeps.via (State.lateStep_keeps _ _) ?_
    exact Keeps.refl _
  · rename_i y8 y9
    refine Keeps.via (State.sampleAxis_keeps _ _ _) ?_
    exact Keeps.refl _
  · rename_i y10 y11
    refine Keeps.via (State.sampleAxis_keeps _ _ _) ?_
    exact Keeps.refl _
  · rename_i y12 y13 y14 y15 y16 y17
    exact Keeps.refl _

theorem State.focTick_keeps : ∀ s a1 a2, Keeps s (State.focTick s a1 a2) := by
  intro s a1 a2
  unfold State.focTick
  extract_lets x1 x2 x3 x4 x5
  refine Keeps.cut (t := x1) ?_ (fun h6 => ?_)
  · unfold x1
    refine Keeps.via (State.latch_keeps _ _ _) ?_
    exact Keeps.refl _
  refine Keeps.cut (t := x4) ?_ (fun h7 => ?_)
  · unfold x4
    refine Keeps.via (State.modDrive_keeps _ _ _) ?_
    exact h6
  refine Keeps.ite (fun _ => ?_) (fun _ => ?_)
  · refine Keeps.ite (fun _ => ?_) (fun _ => ?_)
    · refine Keeps.via (State.focusLoss_keeps _ _) ?_
      exact h7
    · exact h7
  · refine Keeps.via (State.focSample_keeps _ _) ?_
    refine Keeps.via (State.modDrive_keeps _ _ _) ?_
    exact h6

theorem State.noteTime_keeps : ∀ s a1 a2, Keeps s (State.noteTime s a1 a2) := fun _ _ _ =>
  Keeps.ofOnly (State.noteTime_only _ _ _) rfl

theorem execServoSample_keeps : ∀ a0 a1 a2 a3 s z, Keeps s (runRow (execServoSample a0 a1 a2 a3 s) z) := by
  intro a0 a1 a2 a3 s z
  unfold execServoSample
  rw [runRow_next]
  refine Keeps.whenServing (fun t1 h2 => ?_) ?_
  · refine Keeps.ite (fun _ => ?_) (fun _ => ?_)
    · exact h2
    · extract_lets x3 x4 x5 x6 x7 x8
      refine Keeps.cut (t := x4) ?_ (fun h9 => ?_)
      · unfold x4
        refine Keeps.via (State.judgeSource_keeps _ _) ?_
        exact h2
      refine Keeps.cut (t := x6) ?_ (fun h10 => ?_)
      · unfold x6
        split
        · rename_i y11 y12 y13
          refine Keeps.via (State.focTick_keeps _ _ _) ?_
          exact h9
        · rename_i y14 y15 y16
          refine Keeps.ite (fun _ => ?_) (fun _ => ?_)
          · exact h9
          · refine Keeps.via (State.trkSample_keeps _ _) ?_
            exact h9
        · rename_i y17 y18 y19
          refine Keeps.via (State.spnSample_keeps _ _ _) ?_
          exact h9
        · rename_i y20 y21 y22 y23 y24
          refine Keeps.via (State.sldSample_keeps _ _) ?_
          exact h9
      refine Keeps.cut (t := x7) ?_ (fun h25 => ?_)
      · unfold x7
        refine Keeps.via (State.noteTime_keeps _ _ _) ?_
        exact h10
      refine Keeps.cut (t := x8) ?_ (fun h26 => ?_)
      · unfold x8
        refine Keeps.ite (fun _ => ?_) (fun _ => ?_)
        · exact h25
        · refine Keeps.via (State.modAxis_keeps _ _ _) ?_
          exact h25
      refine Keeps.via (State.settle_keeps _) ?_
      exact h26
  · exact Keeps.refl _

theorem State.lateOpen_keeps : ∀ s a1 a2, Keeps s (State.lateOpen s a1 a2) := by
  intro s a1 a2
  unfold State.lateOpen
  extract_lets x1 x2 x3
  refine Keeps.cut (t := x2) ?_ (fun h4 => ?_)
  · unfold x2
    refine Keeps.via (State.openAxis_keeps _ _ _) ?_
    exact Keeps.refl _
  refine Keeps.cut (t := x3) ?_ (fun h5 => ?_)
  · unfold x3
    refine Keeps.ite (fun _ => ?_) (fun _ => ?_)
    · refine Keeps.via (State.modDrive_keeps _ _ _) ?_
      exact h4
    · exact h4
  refine Keeps.via (State.note_keeps _ _ _) ?_
  refine Keeps.via (Keeps.set_lateOpens _ _) ?_
  exact h5

theorem execServoSampleDeadline_keeps : ∀ a0 a1 s z, Keeps s (runRow (execServoSampleDeadline a0 a1 s) z) := by
  intro a0 a1 s z
  unfold execServoSampleDeadline
  rw [runRow_next]
  refine Keeps.whenServing (fun t1 h2 => ?_) ?_
  · extract_lets x3 x4 x5 x6 x7
    refine Keeps.cut (t := x4) ?_ (fun h8 => ?_)
    · unfold x4
      refine Keeps.via (State.modAxis_keeps _ _ _) ?_
      exact h2
    refine Keeps.cut (t := x5) ?_ (fun h9 => ?_)
    · unfold x5
      refine Keeps.via (State.alarmRise_keeps _ _) ?_
      exact h8
    refine Keeps.cut (t := x6) ?_ (fun h10 => ?_)
    · unfold x6
      refine Keeps.ite (fun _ => ?_) (fun _ => ?_)
      · refine Keeps.via (State.closeGate_keeps _ _) ?_
        exact h9
      · exact h9
    refine Keeps.cut (t := x7) ?_ (fun h11 => ?_)
    · unfold x7
      refine Keeps.ite (fun _ => ?_) (fun _ => ?_)
      · refine Keeps.via (State.lateOpen_keeps _ _ _) ?_
        exact h10
      · exact h10
    refine Keeps.ite (fun _ => ?_) (fun _ => ?_)
    · exact h2
    · refine Keeps.via (State.settle_keeps _) ?_
      exact h11
  · exact Keeps.refl _

theorem State.spinGroup_keeps : ∀ s a1 a2, Keeps s (State.spinGroup s a1 a2) := fun _ _ _ =>
  Keeps.ofOnly (State.spinGroup_only _ _ _) rfl

theorem State.laserGroup_keeps : ∀ s a1, Keeps s (State.laserGroup s a1) := fun _ _ =>
  Keeps.ofOnly (State.laserGroup_only _ _) rfl

theorem execLimitGroupSample_keeps : ∀ a0 a1 a2 s z, Keeps s (runRow (execLimitGroupSample a0 a1 a2 s) z) := fun _ _ _ _ _ =>
  Keeps.ofOnly (execLimitGroupSample_only _ _ _ _ _) rfl

theorem State.take_keeps : ∀ s a1, Keeps s (State.take s a1) := fun _ _ =>
  Keeps.ofOnly (State.take_only _ _) rfl

theorem execSwap_keeps : ∀ a0 a1 s z, Keeps s (runRow (execSwap a0 a1 s) z) := fun _ _ _ _ =>
  Keeps.ofOnly (execSwap_only _ _ _ _) rfl

theorem execOpenAxis_keeps : ∀ a0 s z, Keeps s (runRow (execOpenAxis a0 s) z) := by
  intro a0 s z
  unfold execOpenAxis
  rw [runRow_next]
  refine Keeps.whenServing (fun t1 h2 => ?_) ?_
  · refine Keeps.via (State.settle_keeps _) ?_
    refine Keeps.via (State.openAxis_keeps _ _ _) ?_
    refine Keeps.via (State.take_keeps _ _) ?_
    exact h2
  · exact Keeps.refl _

theorem execCloseAxis_keeps : ∀ a0 s z, Keeps s (runRow (execCloseAxis a0 s) z) := by
  intro a0 s z
  unfold execCloseAxis
  rw [runRow_next]
  refine Keeps.whenServing (fun t1 h2 => ?_) ?_
  · extract_lets x3 x4
    refine Keeps.cut (t := x3) ?_ (fun h5 => ?_)
    · unfold x3
      refine Keeps.via (State.take_keeps _ _) ?_
      exact h2
    refine Keeps.ite (fun _ => ?_) (fun _ => ?_)
    · exact h5
    · refine Keeps.via (State.settle_keeps _) ?_
      refine Keeps.ite (fun _ => ?_) (fun _ => ?_)
      · refine Keeps.via (State.closeFoc_keeps _ _ _) ?_
        exact h5
      · refine Keeps.via (State.closeAxis_keeps _ _) ?_
        exact h5
  · exact Keeps.refl _

theorem execAcquire_keeps : ∀ a0 a1 s z, Keeps s (runRow (execAcquire a0 a1 s) z) := by
  intro a0 a1 s z
  unfold execAcquire
  rw [runRow_next]
  refine Keeps.whenServing (fun t1 h2 => ?_) ?_
  · extract_lets x3 x4
    refine Keeps.cut (t := x3) ?_ (fun h5 => ?_)
    · unfold x3
      refine Keeps.via (State.take_keeps _ _) ?_
      exact h2
    refine Keeps.cut (t := x4) ?_ (fun h6 => ?_)
    · unfold x4
      refine Keeps.ite (fun _ => ?_) (fun _ => ?_)
      · refine Keeps.via (State.openFoc_keeps _ _ _) ?_
        exact h5
      · exact h5
    refine Keeps.via (State.settle_keeps _) ?_
    refine Keeps.via (State.acquire_keeps _ _ _) ?_
    exact h6
  · exact Keeps.refl _

theorem execLayerJump_keeps : ∀ a0 a1 s z, Keeps s (runRow (execLayerJump a0 a1 s) z) := by
  intro a0 a1 s z
  unfold execLayerJump
  rw [runRow_next]
  refine Keeps.whenServing (fun t1 h2 => ?_) ?_
  · extract_lets x3 x4 x5 x6
    refine Keeps.cut (t := x4) ?_ (fun h7 => ?_)
    · unfold x4
      refine Keeps.via (State.take_keeps _ _) ?_
      exact h2
    refine Keeps.cut (t := x6) ?_ (fun h8 => ?_)
    · unfold x6
      refine Keeps.via (State.openTrk_keeps _ _ _) ?_
      exact h7
    refine Keeps.ite (fun _ => ?_) (fun _ => ?_)
    · refine Keeps.via (State.settle_keeps _) ?_
      refine Keeps.via (State.modAxis_keeps _ _ _) ?_
      refine Keeps.via (State.modDrive_keeps _ _ _) ?_
      exact h8
    · exact h7
  · exact Keeps.refl _

theorem execLayerJumpTimeout_keeps : ∀ a0 s z, Keeps s (runRow (execLayerJumpTimeout a0 s) z) := by
  intro a0 s z
  unfold execLayerJumpTimeout
  rw [runRow_next]
  refine Keeps.whenServing (fun t1 h2 => ?_) ?_
  · split
    · rename_i y3 y4 y5 y6 y7 y8 y9
      refine Keeps.ite (fun _ => ?_) (fun _ => ?_)
      · refine Keeps.via (State.settle_keeps _) ?_
        refine Keeps.via (State.acquire_keeps _ _ _) ?_
        exact h2
      · exact h2
    · rename_i y10 y11
      exact h2
  · exact Keeps.refl _

theorem execReleaseToHeron_keeps : ∀ a0 s z, Keeps s (runRow (execReleaseToHeron a0 s) z) := fun _ _ _ =>
  Keeps.ofOnly (execReleaseToHeron_only _ _ _) rfl

theorem execRateMeterBin_keeps : ∀ s z, Keeps s (runRow (execRateMeterBin s) z) := fun _ _ =>
  Keeps.ofOnly (execRateMeterBin_only _ _) rfl

theorem execSourceFaultHoldExpiry_keeps : ∀ a0 s z, Keeps s (runRow (execSourceFaultHoldExpiry a0 s) z) := fun _ _ _ =>
  Keeps.ofOnly (execSourceFaultHoldExpiry_only _ _ _) rfl

theorem State.latChanged_keeps : ∀ s a1 a2 a3, Keeps s (State.latChanged s a1 a2 a3) := fun _ _ _ _ =>
  Keeps.ofOnly (State.latChanged_only _ _ _ _) rfl

theorem execSubsystemAdopt_keeps : ∀ a0 a1 s z, Keeps s (runRow (execSubsystemAdopt a0 a1 s) z) := by
  intro a0 a1 s z
  unfold execSubsystemAdopt
  rw [runRow_next]
  refine Keeps.whenServing (fun t1 h2 => ?_) ?_
  · refine Keeps.ite (fun _ => ?_) (fun _ => ?_)
    · exact h2
    · extract_lets x3
      refine Keeps.cut (t := x3) ?_ (fun h4 => ?_)
      · unfold x3
        refine Keeps.via (State.latChanged_keeps _ _ _ _) ?_
        refine Keeps.via (State.adoptRegs_keeps _ _ _) ?_
        exact h2
      refine Keeps.ite (fun _ => ?_) (fun _ => ?_)
      · exact h4
      · refine Keeps.via (State.epochDone_keeps _) ?_
        refine Keeps.via (Keeps.set_epoch _ _) ?_
        exact h4
  · exact Keeps.refl _

theorem State.coils_keeps : ∀ s a1 a2, Keeps s (State.coils s a1 a2) := fun _ _ _ =>
  Keeps.ofOnly (State.coils_only _ _ _) rfl

theorem State.sledRefuse_keeps : ∀ s a1, Keeps s (State.sledRefuse s a1) := by
  intro s a1
  unfold State.sledRefuse
  refine Keeps.via (State.note_keeps _ _ _) ?_
  refine Keeps.via (State.modSled_keeps _ _ _) ?_
  exact Keeps.refl _

theorem State.sledFault_keeps : ∀ s a1 a2, Keeps s (State.sledFault s a1 a2) := by
  intro s a1 a2
  unfold State.sledFault
  extract_lets x1 x2
  refine Keeps.cut (t := x1) ?_ (fun h3 => ?_)
  · unfold x1
    refine Keeps.via (State.modSled_keeps _ _ _) ?_
    exact Keeps.refl _
  refine Keeps.cut (t := x2) ?_ (fun h4 => ?_)
  · unfold x2
    refine Keeps.via (State.openFoc_keeps _ _ _) ?_
    exact h3
  refine Keeps.via (State.settle_keeps _) ?_
  refine Keeps.via (State.note_keeps _ _ _) ?_
  refine Keeps.via (State.modAxis_keeps _ _ _) ?_
  exact h4

theorem State.sledTarget_keeps : ∀ s a1 a2, Keeps s (State.sledTarget s a1 a2) := fun _ _ _ =>
  Keeps.ofOnly (State.sledTarget_only _ _ _) rfl

theorem State.sledMove_keeps : ∀ s a1 a2 a3, Keeps s (State.sledMove s a1 a2 a3) := fun _ _ _ _ =>
  Keeps.ofOnly (State.sledMove_only _ _ _ _) rfl

theorem State.sledHome_keeps : ∀ s a1, Keeps s (State.sledHome s a1) := fun _ _ =>
  Keeps.ofOnly (State.sledHome_only _ _) rfl

theorem State.sledPark_keeps : ∀ s a1, Keeps s (State.sledPark s a1) := fun _ _ =>
  Keeps.ofOnly (State.sledPark_only _ _) rfl

theorem State.sledArrived_keeps : ∀ s a1, Keeps s (State.sledArrived s a1) := fun _ _ =>
  Keeps.ofOnly (State.sledArrived_only _ _) rfl

theorem State.followTick_keeps : ∀ s a1, Keeps s (State.followTick s a1) := fun _ _ =>
  Keeps.ofOnly (State.followTick_only _ _) rfl

theorem State.brakeTick_keeps : ∀ s a1, Keeps s (State.brakeTick s a1) := fun _ _ =>
  Keeps.ofOnly (State.brakeTick_only _ _) rfl

theorem execSledPlanTick_keeps : ∀ a0 s z, Keeps s (runRow (execSledPlanTick a0 s) z) := by
  intro a0 s z
  unfold execSledPlanTick
  rw [runRow_next]
  refine Keeps.whenServing (fun t1 h2 => ?_) ?_
  · extract_lets x3 x4 x5 x6 x7 x8 x9 x10
    refine Keeps.cut (t := x10) ?_ (fun h11 => ?_)
    · unfold x10
      split
      · rename_i y12 y13
        refine Keeps.ite (fun _ => ?_) (fun _ => ?_)
        · refine Keeps.via (State.modSled_keeps _ _ _) ?_
          exact h2
        · exact h2
      · rename_i y14 y15
        exact h2
      · rename_i y16 y17
        refine Keeps.ite (fun _ => ?_) (fun _ => ?_)
        · refine Keeps.via (State.modSled_keeps _ _ _) ?_
          exact h2
        · refine Keeps.via (State.modSled_keeps _ _ _) ?_
          exact h2
      · rename_i y18 y19
        refine Keeps.ite (fun _ => ?_) (fun _ => ?_)
        · refine Keeps.via (State.brakeTick_keeps _ _) ?_
          exact h2
        · refine Keeps.via (State.followTick_keeps _ _) ?_
          exact h2
      · rename_i y20 y21
        refine Keeps.ite (fun _ => ?_) (fun _ => ?_)
        · refine Keeps.via (State.brakeTick_keeps _ _) ?_
          exact h2
        · refine Keeps.ite (fun _ => ?_) (fun _ => ?_)
          · refine Keeps.ite (fun _ => ?_) (fun _ => ?_)
            · refine Keeps.via (State.modSled_keeps _ _ _) ?_
              exact h2
            · refine Keeps.via (State.modSled_keeps _ _ _) ?_
              exact h2
          · unfold x9
            split
            rename_i y22 y23 y24 y25 y26 y27 y28 y29
            extract_lets x30
            refine Keeps.cut (t := x30) ?_ (fun h31 => ?_)
            · unfold x30
              refine Keeps.via (State.modSled_keeps _ _ _) ?_
              exact h2
            refine Keeps.ite (fun _ => ?_) (fun _ => ?_)
            · refine Keeps.via (State.sledArrived_keeps _ _) ?_
              exact h31
            · exact h31
      · rename_i y32 y33
        refine Keeps.ite (fun _ => ?_) (fun _ => ?_)
        · refine Keeps.via (State.brakeTick_keeps _ _) ?_
          exact h2
        · unfold x9
          split
          rename_i y34 y35 y36 y37 y38 y39 y40
          extract_lets x41
          refine Keeps.cut (t := x41) ?_ (fun h42 => ?_)
          · unfold x41
            refine Keeps.via (State.modSled_keeps _ _ _) ?_
            exact h2
          refine Keeps.ite (fun _ => ?_) (fun _ => ?_)
          · refine Keeps.via (State.sledArrived_keeps _ _) ?_
            exact h42
          · exact h42
      · rename_i y43 y44
        refine Keeps.ite (fun _ => ?_) (fun _ => ?_)
        · refine Keeps.via (State.brakeTick_keeps _ _) ?_
          exact h2
        · unfold x9
          split
          rename_i y45 y46 y47 y48 y49 y50 y51
          extract_lets x52
          refine Keeps.cut (t := x52) ?_ (fun h53 => ?_)
          · unfold x52
            refine Keeps.via (State.modSled_keeps _ _ _) ?_
            exact h2
          refine Keeps.ite (fun _ => ?_) (fun _ => ?_)
          · refine Keeps.via (State.sledArrived_keeps _ _) ?_
            exact h53
          · exact h53
    refine Keeps.via (State.settle_keeps _) ?_
    refine Keeps.via (State.coils_keeps _ _ _) ?_
    exact h11
  · exact Keeps.refl _

theorem execSledTickLate_keeps : ∀ a0 s z, Keeps s (runRow (execSledTickLate a0 s) z) := by
  intro a0 s z
  unfold execSledTickLate
  rw [runRow_next]
  refine Keeps.whenServing (fun t1 h2 => ?_) ?_
  · extract_lets x3 x4 x5 x6 x7
    refine Keeps.cut (t := x7) ?_ (fun h8 => ?_)
    · unfold x7
      refine Keeps.via (State.modSled_keeps _ _ _) ?_
      exact h2
    refine Keeps.via (State.alarmRise_keeps _ _) ?_
    exact h8
  · exact Keeps.refl _

theorem execSledArrivalReport_keeps : ∀ a0 s z, Keeps s (runRow (execSledArrivalReport a0 s) z) := by
  intro a0 s z
  unfold execSledArrivalReport
  rw [runRow_next]
  refine Keeps.whenServing (fun t1 h2 => ?_) ?_
  · extract_lets x3 x4
    refine Keeps.cut (t := x4) ?_ (fun h5 => ?_)
    · unfold x4
      refine Keeps.via (State.modSled_keeps _ _ _) ?_
      exact h2
    split
    · rename_i y6 y7
      exact h2
    · rename_i y8 y9 y10
      refine Keeps.ite (fun _ => ?_) (fun _ => ?_)
      · exact h2
      · split
        · rename_i y11 y12 y13
          refine Keeps.via (State.settle_keeps _) ?_
          refine Keeps.via (State.closeAxis_keeps _ _) ?_
          refine Keeps.via (State.modDrive_keeps _ _ _) ?_
          exact h5
        · rename_i y14 y15 y16
          exact h5
  · exact Keeps.refl _

theorem State.sledSeekTo_keeps : ∀ s a1, Keeps s (State.sledSeekTo s a1) := fun _ _ =>
  Keeps.ofOnly (State.sledSeekTo_only _ _) rfl

theorem execSledRereference_keeps : ∀ a0 a1 s z, Keeps s (runRow (execSledRereference a0 a1 s) z) := by
  intro a0 a1 s z
  unfold execSledRereference
  rw [runRow_next]
  refine Keeps.whenServing (fun t1 h2 => ?_) ?_
  · extract_lets x3 x4 x5 x6 x7 x8 x9 x10 x11 x12
    refine Keeps.cut (t := x9) ?_ (fun h13 => ?_)
    · unfold x9
      refine Keeps.ite (fun _ => ?_) (fun _ => ?_)
      · refine Keeps.via (State.modSled_keeps _ _ _) ?_
        exact h2
      · exact h2
    refine Keeps.cut (t := x12) ?_ (fun h14 => ?_)
    · unfold x12
      refine Keeps.via (State.note_keeps _ _ _) ?_
      refine Keeps.via (State.modSled_keeps _ _ _) ?_
      exact h13
    refine Keeps.ite (fun _ => ?_) (fun _ => ?_)
    · exact h2
    · refine Keeps.ite (fun _ => ?_) (fun _ => ?_)
      · refine Keeps.via (State.modSled_keeps _ _ _) ?_
        exact h2
      · refine Keeps.ite (fun _ => ?_) (fun _ => ?_)
        · refine Keeps.via (State.modSled_keeps _ _ _) ?_
          exact h13
        · refine Keeps.ite (fun _ => ?_) (fun _ => ?_)
          · refine Keeps.via (State.sledFault_keeps _ _ _) ?_
            exact h14
          · exact h14
  · exact Keeps.refl _

theorem execBoostDecay_keeps : ∀ a0 s z, Keeps s (runRow (execBoostDecay a0 s) z) := fun _ _ _ =>
  Keeps.ofOnly (execBoostDecay_only _ _ _) rfl

theorem State.sledOver_keeps : ∀ s a1 a2, Keeps s (State.sledOver s a1 a2) := by
  intro s a1 a2
  unfold State.sledOver
  extract_lets x1 x2 x3
  refine Keeps.cut (t := x3) ?_ (fun h4 => ?_)
  · unfold x3
    refine Keeps.via (State.modSled_keeps _ _ _) ?_
    exact Keeps.refl _
  refine Keeps.ite (fun _ => ?_) (fun _ => ?_)
  · exact Keeps.refl _
  · refine Keeps.ite (fun _ => ?_) (fun _ => ?_)
    · refine Keeps.via (State.sledFault_keeps _ _ _) ?_
      exact h4
    · exact h4

theorem execSledOvercurrent_keeps : ∀ a0 a1 s z, Keeps s (runRow (execSledOvercurrent a0 a1 s) z) := by
  intro a0 a1 s z
  unfold execSledOvercurrent
  rw [runRow_next]
  refine Keeps.whenServing (fun t1 h2 => ?_) ?_
  · refine Keeps.via (State.sledOver_keeps _ _ _) ?_
    exact h2
  · exact Keeps.refl _

theorem execOpenCoil_keeps : ∀ a0 a1 s z, Keeps s (runRow (execOpenCoil a0 a1 s) z) := by
  intro a0 a1 s z
  unfold execOpenCoil
  rw [runRow_next]
  refine Keeps.whenServing (fun t1 h2 => ?_) ?_
  · extract_lets x3
    refine Keeps.ite (fun _ => ?_) (fun _ => ?_)
    · exact h2
    · refine Keeps.ite (fun _ => ?_) (fun _ => ?_)
      · refine Keeps.via (State.sledFault_keeps _ _ _) ?_
        exact h2
      · exact h2
  · exact Keeps.refl _

theorem State.sledPeriod_keeps : ∀ s a1 a2 a3, Keeps s (State.sledPeriod s a1 a2 a3) := by
  intro s a1 a2 a3
  unfold State.sledPeriod
  extract_lets x1 x2 x3 x4 x5 x6 x7 x8
  refine Keeps.cut (t := x8) ?_ (fun h9 => ?_)
  · unfold x8
    refine Keeps.ite (fun _ => ?_) (fun _ => ?_)
    · refine Keeps.via (State.modSled_keeps _ _ _) ?_
      exact Keeps.refl _
    · refine Keeps.via (State.sledOver_keeps _ _ _) ?_
      exact Keeps.refl _
  refine Keeps.ite (fun _ => ?_) (fun _ => ?_)
  · exact Keeps.refl _
  · refine Keeps.ite (fun _ => ?_) (fun _ => ?_)
    · refine Keeps.via (State.modSled_keeps _ _ _) ?_
      exact h9
    · refine Keeps.via (State.sledOver_keeps _ _ _) ?_
      exact h9

theorem execTravel_keeps : ∀ a0 s z, Keeps s (runRow (execTravel a0 s) z) := by
  intro a0 s z
  unfold execTravel
  rw [runRow_next]
  refine Keeps.whenServing (fun t1 h2 => ?_) ?_
  · refine Keeps.ite (fun _ => ?_) (fun _ => ?_)
    · refine Keeps.via (State.settle_keeps _) ?_
      refine Keeps.via (State.sledMove_keeps _ _ _ _) ?_
      exact h2
    · refine Keeps.via (State.sledRefuse_keeps _ _) ?_
      exact h2
  · exact Keeps.refl _

theorem execSledSeek_keeps : ∀ a0 s z, Keeps s (runRow (execSledSeek a0 s) z) := by
  intro a0 s z
  unfold execSledSeek
  rw [runRow_next]
  refine Keeps.whenServing (fun t1 h2 => ?_) ?_
  · refine Keeps.ite (fun _ => ?_) (fun _ => ?_)
    · refine Keeps.via (State.settle_keeps _) ?_
      refine Keeps.via (State.sledMove_keeps _ _ _ _) ?_
      exact h2
    · refine Keeps.via (State.sledRefuse_keeps _ _) ?_
      exact h2
  · exact Keeps.refl _

theorem execPark_keeps : ∀ a0 s z, Keeps s (runRow (execPark a0 s) z) := by
  intro a0 s z
  unfold execPark
  rw [runRow_next]
  refine Keeps.whenServing (fun t1 h2 => ?_) ?_
  · refine Keeps.ite (fun _ => ?_) (fun _ => ?_)
    · refine Keeps.via (State.settle_keeps _) ?_
      refine Keeps.via (State.modSled_keeps _ _ _) ?_
      refine Keeps.via (State.sledMove_keeps _ _ _ _) ?_
      exact h2
    · refine Keeps.via (State.sledRefuse_keeps _ _) ?_
      exact h2
  · exact Keeps.refl _

theorem execHome_keeps : ∀ a0 s z, Keeps s (runRow (execHome a0 s) z) := by
  intro a0 s z
  unfold execHome
  rw [runRow_next]
  refine Keeps.whenServing (fun t1 h2 => ?_) ?_
  · extract_lets x3
    refine Keeps.ite (fun _ => ?_) (fun _ => ?_)
    · refine Keeps.via (State.sledRefuse_keeps _ _) ?_
      exact h2
    · refine Keeps.via (State.settle_keeps _) ?_
      refine Keeps.via (State.sledHome_keeps _ _) ?_
      exact h2
  · exact Keeps.refl _

theorem execSledStop_keeps : ∀ a0 s z, Keeps s (runRow (execSledStop a0 s) z) := fun _ _ _ =>
  Keeps.ofOnly (execSledStop_only _ _ _) rfl

theorem execSledRelease_keeps : ∀ a0 s z, Keeps s (runRow (execSledRelease a0 s) z) := by
  intro a0 s z
  unfold execSledRelease
  rw [runRow_next]
  refine Keeps.whenServing (fun t1 h2 => ?_) ?_
  · refine Keeps.ite (fun _ => ?_) (fun _ => ?_)
    · refine Keeps.via (State.modSled_keeps _ _ _) ?_
      exact h2
    · refine Keeps.via (State.sledRefuse_keeps _ _) ?_
      exact h2
  · exact Keeps.refl _

theorem execSledClear_keeps : ∀ a0 s z, Keeps s (runRow (execSledClear a0 s) z) := fun _ _ _ =>
  Keeps.ofOnly (execSledClear_only _ _ _) rfl

theorem State.returnGrant_keeps : ∀ s a1, Keeps s (State.returnGrant s a1) := fun _ _ =>
  Keeps.ofOnly (State.returnGrant_only _ _) rfl

theorem State.spinLeave_keeps : ∀ s a1, Keeps s (State.spinLeave s a1) := fun _ _ =>
  Keeps.ofOnly (State.spinLeave_only _ _) rfl

theorem State.spinAxis_keeps : ∀ s a1 a2, Keeps s (State.spinAxis s a1 a2) := fun _ _ _ =>
  Keeps.ofOnly (State.spinAxis_only _ _ _) rfl

theorem State.spinStopped_keeps : ∀ s a1, Keeps s (State.spinStopped s a1) := fun _ _ =>
  Keeps.ofOnly (State.spinStopped_only _ _) rfl

theorem State.spinFault_keeps : ∀ s a1 a2, Keeps s (State.spinFault s a1 a2) := by
  intro s a1 a2
  unfold State.spinFault
  refine Keeps.via (State.note_keeps _ _ _) ?_
  refine Keeps.via (State.modSpin_keeps _ _ _) ?_
  refine Keeps.via (State.spinAxis_keeps _ _ _) ?_
  refine Keeps.via (State.spinLeave_keeps _ _) ?_
  exact Keeps.refl _

theorem State.spinBrake_keeps : ∀ s a1 a2, Keeps s (State.spinBrake s a1 a2) := fun _ _ _ =>
  Keeps.ofOnly (State.spinBrake_only _ _ _) rfl

theorem State.spinWait_keeps : ∀ s a1, Keeps s (State.spinWait s a1) := fun _ _ =>
  Keeps.ofOnly (State.spinWait_only _ _) rfl

theorem State.spinRequest_keeps : ∀ s a1, Keeps s (State.spinRequest s a1) := fun _ _ =>
  Keeps.ofOnly (State.spinRequest_only _ _) rfl

theorem State.spinStopReq_keeps : ∀ s a1, Keeps s (State.spinStopReq s a1) := fun _ _ =>
  Keeps.ofOnly (State.spinStopReq_only _ _) rfl

theorem State.touchDrive_keeps : ∀ s a1, Keeps s (State.touchDrive s a1) := fun _ _ =>
  Keeps.ofOnly (State.touchDrive_only _ _) rfl

theorem State.spinIgnore_keeps : ∀ s a1 a2, Keeps s (State.spinIgnore s a1 a2) := by
  intro s a1 a2
  unfold State.spinIgnore
  refine Keeps.via (State.note_keeps _ _ _) ?_
  exact Keeps.refl _

theorem execSpinStart_keeps : ∀ a0 s z, Keeps s (runRow (execSpinStart a0 s) z) := by
  intro a0 s z
  unfold execSpinStart
  rw [runRow_next]
  refine Keeps.whenServing (fun t1 h2 => ?_) ?_
  · refine Keeps.ite (fun _ => ?_) (fun _ => ?_)
    · refine Keeps.via (State.settle_keeps _) ?_
      refine Keeps.via (State.spinRequest_keeps _ _) ?_
      exact h2
    · refine Keeps.via (State.spinIgnore_keeps _ _ _) ?_
      exact h2
  · exact Keeps.refl _

theorem execSpinStop_keeps : ∀ a0 s z, Keeps s (runRow (execSpinStop a0 s) z) := by
  intro a0 s z
  unfold execSpinStop
  rw [runRow_next]
  refine Keeps.whenServing (fun t1 h2 => ?_) ?_
  · extract_lets x3
    refine Keeps.ite (fun _ => ?_) (fun _ => ?_)
    · refine Keeps.via (State.spinIgnore_keeps _ _ _) ?_
      exact h2
    · refine Keeps.via (State.settle_keeps _) ?_
      refine Keeps.via (State.spinStopReq_keeps _ _) ?_
      exact h2
  · exact Keeps.refl _

theorem execCoast_keeps : ∀ a0 s z, Keeps s (runRow (execCoast a0 s) z) := by
  intro a0 s z
  unfold execCoast
  rw [runRow_next]
  refine Keeps.whenServing (fun t1 h2 => ?_) ?_
  · refine Keeps.ite (fun _ => ?_) (fun _ => ?_)
    · refine Keeps.via (State.spinIgnore_keeps _ _ _) ?_
      exact h2
    · refine Keeps.via (State.settle_keeps _) ?_
      refine Keeps.via (State.spinStopped_keeps _ _) ?_
      exact h2
  · exact Keeps.refl _

theorem execClearFault_keeps : ∀ a0 s z, Keeps s (runRow (execClearFault a0 s) z) := by
  intro a0 s z
  unfold execClearFault
  rw [runRow_next]
  refine Keeps.whenServing (fun t1 h2 => ?_) ?_
  · refine Keeps.ite (fun _ => ?_) (fun _ => ?_)
    · refine Keeps.via (State.settle_keeps _) ?_
      refine Keeps.via (State.modSpin_keeps _ _ _) ?_
      refine Keeps.via (State.spinStopped_keeps _ _) ?_
      exact h2
    · refine Keeps.via (State.spinIgnore_keeps _ _ _) ?_
      exact h2
  · exact Keeps.refl _

theorem execDriveStartSequence_keeps : ∀ a0 s z, Keeps s (runRow (execDriveStartSequence a0 s) z) := by
  intro a0 s z
  unfold execDriveStartSequence
  rw [runRow_next]
  refine Keeps.whenServing (fun t1 h2 => ?_) ?_
  · refine Keeps.ite (fun _ => ?_) (fun _ => ?_)
    · exact h2
    · extract_lets x3
      refine Keeps.cut (t := x3) ?_ (fun h4 => ?_)
      · unfold x3
        refine Keeps.via (State.modDrive_keeps _ _ _) ?_
        exact h2
      refine Keeps.via (State.settle_keeps _) ?_
      refine Keeps.ite (fun _ => ?_) (fun _ => ?_)
      · refine Keeps.ite (fun _ => ?_) (fun _ => ?_)
        · exact h4
        · refine Keeps.via (State.sledHome_keeps _ _) ?_
          exact h4
      · refine Keeps.via (State.spinRequest_keeps _ _) ?_
        exact h4
  · exact Keeps.refl _

theorem State.spinStart_keeps : ∀ s a1 a2, Keeps s (State.spinStart s a1 a2) := fun _ _ _ =>
  Keeps.ofOnly (State.spinStart_only _ _ _) rfl

theorem execRotorDetectDone_keeps : ∀ a0 a1 s z, Keeps s (runRow (execRotorDetectDone a0 a1 s) z) := by
  intro a0 a1 s z
  unfold execRotorDetectDone
  rw [runRow_next]
  refine Keeps.whenServing (fun t1 h2 => ?_) ?_
  · extract_lets x3 x4
    refine Keeps.ite (fun _ => ?_) (fun _ => ?_)
    · exact h2
    · split
      rename_i y5 y6 y7 y8 y9
      extract_lets x10
      refine Keeps.ite (fun _ => ?_) (fun _ => ?_)
      · refine Keeps.ite (fun _ => ?_) (fun _ => ?_)
        · refine Keeps.via (State.note_keeps _ _ _) ?_
          refine Keeps.via (State.modSpin_keeps _ _ _) ?_
          exact h2
        · refine Keeps.via (State.modSpin_keeps _ _ _) ?_
          exact h2
      · refine Keeps.via (State.spinStart_keeps _ _ _) ?_
        exact h2
  · exact Keeps.refl _

theorem execAlignmentDone_keeps : ∀ a0 s z, Keeps s (runRow (execAlignmentDone a0 s) z) := fun _ _ _ =>
  Keeps.ofOnly (execAlignmentDone_only _ _ _) rfl

theorem execForcedCommutation_keeps : ∀ a0 s z, Keeps s (runRow (execForcedCommutation a0 s) z) := fun _ _ _ =>
  Keeps.ofOnly (execForcedCommutation_only _ _ _) rfl

theorem State.commEvent_keeps : ∀ s a1 a2, Keeps s (State.commEvent s a1 a2) := fun _ _ _ =>
  Keeps.ofOnly (State.commEvent_only _ _ _) rfl

theorem State.spinReach_keeps : ∀ s a1, Keeps s (State.spinReach s a1) := fun _ _ =>
  Keeps.ofOnly (State.spinReach_only _ _) rfl

theorem State.judgeSpin_keeps : ∀ s a1, Keeps s (State.judgeSpin s a1) := fun _ _ =>
  Keeps.ofOnly (State.judgeSpin_only _ _) rfl

theorem State.judgeKe_keeps : ∀ s a1, Keeps s (State.judgeKe s a1) := fun _ _ =>
  Keeps.ofOnly (State.judgeKe_only _ _) rfl

theorem State.revolution_keeps : ∀ s a1, Keeps s (State.revolution s a1) := fun _ _ =>
  Keeps.ofOnly (State.revolution_only _ _) rfl

theorem State.handOver_keeps : ∀ s a1, Keeps s (State.handOver s a1) := fun _ _ =>
  Keeps.ofOnly (State.handOver_only _ _) rfl

theorem execZeroCrossing_keeps : ∀ a0 a1 a2 a3 s z, Keeps s (runRow (execZeroCrossing a0 a1 a2 a3 s) z) := by
  intro a0 a1 a2 a3 s z
  unfold execZeroCrossing
  rw [runRow_next]
  refine Keeps.whenServing (fun t1 h2 => ?_) ?_
  · extract_lets x3 x4 x5 x6 x7
    refine Keeps.cut (t := x5) ?_ (fun h8 => ?_)
    · unfold x5
      refine Keeps.via (State.commEvent_keeps _ _ _) ?_
      exact h2
    refine Keeps.cut (t := x7) ?_ (fun h9 => ?_)
    · unfold x7
      refine Keeps.ite (fun _ => ?_) (fun _ => ?_)
      · refine Keeps.via (State.modSpin_keeps _ _ _) ?_
        exact h8
      · exact h8
    refine Keeps.ite (fun _ => ?_) (fun _ => ?_)
    · exact h2
    · refine Keeps.via (State.settle_keeps _) ?_
      refine Keeps.ite (fun _ => ?_) (fun _ => ?_)
      · refine Keeps.ite (fun _ => ?_) (fun _ => ?_)
        · refine Keeps.via (State.handOver_keeps _ _) ?_
          exact h8
        · exact h8
      · refine Keeps.via (State.spinReach_keeps _ _) ?_
        refine Keeps.via (State.revolution_keeps _ _) ?_
        exact h9
  · exact Keeps.refl _

theorem execCommutation_keeps : ∀ a0 s z, Keeps s (runRow (execCommutation a0 s) z) := fun _ _ _ =>
  Keeps.ofOnly (execCommutation_only _ _ _) rfl

theorem State.spinOver_keeps : ∀ s a1, Keeps s (State.spinOver s a1) := by
  intro s a1
  unfold State.spinOver
  extract_lets x1
  refine Keeps.ite (fun _ => ?_) (fun _ => ?_)
  · refine Keeps.ite (fun _ => ?_) (fun _ => ?_)
    · refine Keeps.via (State.spinFault_keeps _ _ _) ?_
      exact Keeps.refl _
    · refine Keeps.via (State.modSpin_keeps _ _ _) ?_
      exact Keeps.refl _
  · exact Keeps.refl _

theorem execSpindleOvercurrent_keeps : ∀ a0 s z, Keeps s (runRow (execSpindleOvercurrent a0 s) z) := by
  intro a0 s z
  unfold execSpindleOvercurrent
  rw [runRow_next]
  refine Keeps.whenServing (fun t1 h2 => ?_) ?_
  · refine Keeps.via (State.settle_keeps _) ?_
    refine Keeps.via (State.spinOver_keeps _ _) ?_
    exact h2
  · exact Keeps.refl _

theorem execCarrierPeriod_keeps : ∀ a0 a1 a2 a3 s z, Keeps s (runRow (execCarrierPeriod a0 a1 a2 a3 s) z) := by
  intro a0 a1 a2 a3 s z
  unfold execCarrierPeriod
  rw [runRow_next]
  refine Keeps.whenServing (fun t1 h2 => ?_) ?_
  · extract_lets x3 x4 x5
    refine Keeps.cut (t := x5) ?_ (fun h6 => ?_)
    · unfold x5
      refine Keeps.via (State.modSpin_keeps _ _ _) ?_
      exact h2
    refine Keeps.ite (fun _ => ?_) (fun _ => ?_)
    · refine Keeps.via (State.sledPeriod_keeps _ _ _ _) ?_
      exact h2
    · refine Keeps.ite (fun _ => ?_) (fun _ => ?_)
      · refine Keeps.via (State.settle_keeps _) ?_
        refine Keeps.via (State.spinOver_keeps _ _) ?_
        exact h6
      · refine Keeps.via (State.modSpin_keeps _ _ _) ?_
        exact h6
  · exact Keeps.refl _

theorem State.brakeEnds_keeps : ∀ s a1, Keeps s (State.brakeEnds s a1) := by
  intro s a1
  unfold State.brakeEnds
  split
  · rename_i y1 y2
    refine Keeps.via (State.spinStopped_keeps _ _) ?_
    exact Keeps.refl _
  · rename_i y3 y4
    refine Keeps.via (State.spinWait_keeps _ _) ?_
    refine Keeps.via (State.spinStopped_keeps _ _) ?_
    exact Keeps.refl _
  · rename_i y5 y6 y7
    refine Keeps.via (State.spinFault_keeps _ _ _) ?_
    exact Keeps.refl _

theorem execBrakeProbe_keeps : ∀ a0 a1 s z, Keeps s (runRow (execBrakeProbe a0 a1 s) z) := by
  intro a0 a1 s z
  unfold execBrakeProbe
  rw [runRow_next]
  refine Keeps.whenServing (fun t1 h2 => ?_) ?_
  · extract_lets x3 x4 x5
    refine Keeps.ite (fun _ => ?_) (fun _ => ?_)
    · exact h2
    · refine Keeps.ite (fun _ => ?_) (fun _ => ?_)
      · refine Keeps.via (State.settle_keeps _) ?_
        refine Keeps.via (State.brakeEnds_keeps _ _) ?_
        exact h2
      · refine Keeps.via (State.modSpin_keeps _ _ _) ?_
        exact h2
  · exact Keeps.refl _

theorem execBrakeTimeout_keeps : ∀ a0 s z, Keeps s (runRow (execBrakeTimeout a0 s) z) := by
  intro a0 s z
  unfold execBrakeTimeout
  rw [runRow_next]
  refine Keeps.whenServing (fun t1 h2 => ?_) ?_
  · refine Keeps.ite (fun _ => ?_) (fun _ => ?_)
    · refine Keeps.via (State.settle_keeps _) ?_
      refine Keeps.via (State.note_keeps _ _ _) ?_
      refine Keeps.via (State.brakeEnds_keeps _ _) ?_
      exact h2
    · exact h2
  · exact Keeps.refl _

theorem execLockedRotorTimeout_keeps : ∀ a0 s z, Keeps s (runRow (execLockedRotorTimeout a0 s) z) := by
  intro a0 s z
  unfold execLockedRotorTimeout
  rw [runRow_next]
  refine Keeps.whenServing (fun t1 h2 => ?_) ?_
  · extract_lets x3 x4
    refine Keeps.ite (fun _ => ?_) (fun _ => ?_)
    · refine Keeps.via (State.settle_keeps _) ?_
      refine Keeps.via (State.note_keeps _ _ _) ?_
      refine Keeps.via (State.modSpin_keeps _ _ _) ?_
      refine Keeps.via (State.spinStopped_keeps _ _) ?_
      exact h2
    · exact h2
  · exact Keeps.refl _

theorem execLockedRotorRetry_keeps : ∀ a0 s z, Keeps s (runRow (execLockedRotorRetry a0 s) z) := by
  intro a0 s z
  unfold execLockedRotorRetry
  rw [runRow_next]
  refine Keeps.whenServing (fun t1 h2 => ?_) ?_
  · extract_lets x3 x4
    refine Keeps.ite (fun _ => ?_) (fun _ => ?_)
    · refine Keeps.via (State.settle_keeps _) ?_
      refine Keeps.ite (fun _ => ?_) (fun _ => ?_)
      · refine Keeps.via (State.spinWait_keeps _ _) ?_
        refine Keeps.via (State.modSpin_keeps _ _ _) ?_
        exact h2
      · refine Keeps.via (State.spinFault_keeps _ _ _) ?_
        exact h2
    · exact h2
  · exact Keeps.refl _

theorem State.rotorLoss_keeps : ∀ s a1, Keeps s (State.rotorLoss s a1) := by
  intro s a1
  unfold State.rotorLoss
  extract_lets x1 x2 x3 x4
  refine Keeps.cut (t := x3) ?_ (fun h5 => ?_)
  · unfold x3
    refine Keeps.via (State.note_keeps _ _ _) ?_
    refine Keeps.via (State.modSpin_keeps _ _ _) ?_
    exact Keeps.refl _
  refine Keeps.ite (fun _ => ?_) (fun _ => ?_)
  · refine Keeps.via (State.spinBrake_keeps _ _ _) ?_
    exact h5
  · refine Keeps.via (State.modSpin_keeps _ _ _) ?_
    refine Keeps.via (State.spinAxis_keeps _ _ _) ?_
    refine Keeps.via (State.spinLeave_keeps _ _) ?_
    exact h5

theorem execCrossingWindowMiss_keeps : ∀ a0 s z, Keeps s (runRow (execCrossingWindowMiss a0 s) z) := by
  intro a0 s z
  unfold execCrossingWindowMiss
  rw [runRow_next]
  refine Keeps.whenServing (fun t1 h2 => ?_) ?_
  · extract_lets x3
    refine Keeps.ite (fun _ => ?_) (fun _ => ?_)
    · exact h2
    · refine Keeps.ite (fun _ => ?_) (fun _ => ?_)
      · refine Keeps.via (State.modSpin_keeps _ _ _) ?_
        exact h2
      · refine Keeps.via (State.settle_keeps _) ?_
        refine Keeps.via (State.rotorLoss_keeps _ _) ?_
        exact h2
  · exact Keeps.refl _

theorem execRotorReacquired_keeps : ∀ a0 a1 a2 s z, Keeps s (runRow (execRotorReacquired a0 a1 a2 s) z) := by
  intro a0 a1 a2 s z
  unfold execRotorReacquired
  rw [runRow_next]
  refine Keeps.whenServing (fun t1 h2 => ?_) ?_
  · extract_lets x3 x4 x5 x6
    refine Keeps.cut (t := x6) ?_ (fun h7 => ?_)
    · unfold x6
      refine Keeps.via (State.modSpin_keeps _ _ _) ?_
      exact h2
    refine Keeps.ite (fun _ => ?_) (fun _ => ?_)
    · exact h2
    · refine Keeps.via (State.settle_keeps _) ?_
      refine Keeps.ite (fun _ => ?_) (fun _ => ?_)
      · refine Keeps.via (State.spinBrake_keeps _ _ _) ?_
        exact h2
      · refine Keeps.ite (fun _ => ?_) (fun _ => ?_)
        · exact h7
        · refine Keeps.via (State.closeAxis_keeps _ _) ?_
          exact h7
  · exact Keeps.refl _

theorem execReacquisitionTimeout_keeps : ∀ a0 s z, Keeps s (runRow (execReacquisitionTimeout a0 s) z) := by
  intro a0 s z
  unfold execReacquisitionTimeout
  rw [runRow_next]
  refine Keeps.whenServing (fun t1 h2 => ?_) ?_
  · extract_lets x3
    refine Keeps.ite (fun _ => ?_) (fun _ => ?_)
    · refine Keeps.via (State.settle_keeps _) ?_
      refine Keeps.via (State.spinBrake_keeps _ _ _) ?_
      exact h2
    · exact h2
  · exact Keeps.refl _

theorem execSpindleIdleTimeout_keeps : ∀ a0 s z, Keeps s (runRow (execSpindleIdleTimeout a0 s) z) := by
  intro a0 s z
  unfold execSpindleIdleTimeout
  rw [runRow_next]
  refine Keeps.whenServing (fun t1 h2 => ?_) ?_
  · extract_lets x3 x4 x5
    refine Keeps.ite (fun _ => ?_) (fun _ => ?_)
    · refine Keeps.via (State.settle_keeps _) ?_
      refine Keeps.via (State.modSpin_keeps _ _ _) ?_
      refine Keeps.via (State.spinBrake_keeps _ _ _) ?_
      exact h2
    · exact h2
  · exact Keeps.refl _

theorem State.seek_keeps : ∀ s a1 a2, Keeps s (State.seek s a1 a2) := fun _ _ _ =>
  Keeps.ofOnly (State.seek_only _ _ _) rfl

theorem execSeek_keeps : ∀ a0 a1 s z, Keeps s (runRow (execSeek a0 a1 s) z) := by
  intro a0 a1 s z
  unfold execSeek
  rw [runRow_next]
  refine Keeps.whenServing (fun t1 h2 => ?_) ?_
  · extract_lets x3 x4 x5 x6
    refine Keeps.cut (t := x4) ?_ (fun h7 => ?_)
    · unfold x4
      refine Keeps.via (State.touchDrive_keeps _ _) ?_
      refine Keeps.via (State.take_keeps _ _) ?_
      exact h2
    refine Keeps.cut (t := x6) ?_ (fun h8 => ?_)
    · unfold x6
      refine Keeps.via (State.modDrive_keeps _ _ _) ?_
      exact h7
    split
    · rename_i y9 y10 y11 y12 y13 y14
      exact h8
    · rename_i y15 y16
      refine Keeps.via (State.sledSeekTo_keeps _ _) ?_
      exact h8
    · rename_i y17 y18
      refine Keeps.via (State.settle_keeps _) ?_
      refine Keeps.via (State.seek_keeps _ _ _) ?_
      refine Keeps.via (State.modDrive_keeps _ _ _) ?_
      exact h8
    · rename_i y19 y20 y21 y22
      exact h8
  · exact Keeps.refl _

theorem execSeekConfirm_keeps : ∀ a0 a1 s z, Keeps s (runRow (execSeekConfirm a0 a1 s) z) := by
  intro a0 a1 s z
  unfold execSeekConfirm
  rw [runRow_next]
  refine Keeps.whenServing (fun t1 h2 => ?_) ?_
  · extract_lets x3 x4 x5 x6 x7
    refine Keeps.cut (t := x5) ?_ (fun h8 => ?_)
    · unfold x5
      refine Keeps.via (State.modDrive_keeps _ _ _) ?_
      exact h2
    refine Keeps.cut (t := x7) ?_ (fun h9 => ?_)
    · unfold x7
      refine Keeps.via (State.modDrive_keeps _ _ _) ?_
      exact h8
    refine Keeps.ite (fun _ => ?_) (fun _ => ?_)
    · exact h2
    · refine Keeps.ite (fun _ => ?_) (fun _ => ?_)
      · refine Keeps.via (State.settle_keeps _) ?_
        refine Keeps.via (State.shortSeek_keeps _ _ _) ?_
        exact h8
      · refine Keeps.ite (fun _ => ?_) (fun _ => ?_)
        · refine Keeps.via (State.modDrive_keeps _ _ _) ?_
          exact h8
        · refine Keeps.via (State.settle_keeps _) ?_
          refine Keeps.ite (fun _ => ?_) (fun _ => ?_)
          · refine Keeps.via (State.seek_keeps _ _ _) ?_
            exact h9
          · refine Keeps.ite (fun _ => ?_) (fun _ => ?_)
            · refine Keeps.via (State.seek_keeps _ _ _) ?_
              exact h9
            · refine Keeps.ite (fun _ => ?_) (fun _ => ?_)
              · refine Keeps.via (State.shortSeek_keeps _ _ _) ?_
                exact h9
              · refine Keeps.via (State.note_keeps _ _ _) ?_
                refine Keeps.via (State.openTrk_keeps _ _ _) ?_
                exact h9
  · exact Keeps.refl _

theorem State.abandonSlot_keeps : ∀ s a1, Keeps s (State.abandonSlot s a1) := by
  intro s a1
  unfold State.abandonSlot
  split
  · rename_i y1 y2 y3 y4 y5 y6
    refine Keeps.via (State.stripeBad_keeps _ _ _) ?_
    refine Keeps.via (State.modWst_keeps _ _ _) ?_
    exact Keeps.refl _
  · rename_i y7 y8 y9
    exact Keeps.refl _

theorem execChannelClockLockChange_keeps : ∀ a0 a1 a2 s z, Keeps s (runRow (execChannelClockLockChange a0 a1 a2 s) z) := by
  intro a0 a1 a2 s z
  unfold execChannelClockLockChange
  rw [runRow_next]
  refine Keeps.whenServing (fun t1 h2 => ?_) ?_
  · extract_lets x3 x4
    refine Keeps.cut (t := x4) ?_ (fun h5 => ?_)
    · unfold x4
      refine Keeps.via (State.modRdc_keeps _ _ _) ?_
      exact h2
    refine Keeps.ite (fun _ => ?_) (fun _ => ?_)
    · exact h2
    · refine Keeps.via (State.settle_keeps _) ?_
      refine Keeps.ite (fun _ => ?_) (fun _ => ?_)
      · exact h5
      · refine Keeps.via (State.abandonSlot_keeps _ _) ?_
        exact h5
  · exact Keeps.refl _

theorem execZoneWobbleMeasure_keeps : ∀ a0 a1 a2 a3 s z, Keeps s (runRow (execZoneWobbleMeasure a0 a1 a2 a3 s) z) := fun _ _ _ _ _ _ =>
  Keeps.ofOnly (execZoneWobbleMeasure_only _ _ _ _ _ _) rfl

theorem execFrameSync_keeps : ∀ a0 a1 a2 s z, Keeps s (runRow (execFrameSync a0 a1 a2 s) z) := fun _ _ _ _ _ =>
  Keeps.ofOnly (execFrameSync_only _ _ _ _ _) rfl

theorem State.decodeSlot_keeps : ∀ s a1, Keeps s (State.decodeSlot s a1) := fun _ _ =>
  Keeps.ofOnly (State.decodeSlot_only _ _) rfl

theorem execSegmentAdmit_keeps : ∀ s z, Keeps s (runRow (execSegmentAdmit s) z) := by
  intro s z
  unfold execSegmentAdmit
  rw [runRow_next]
  refine Keeps.whenServing (fun t1 h2 => ?_) ?_
  · split
    · rename_i y3 y4 y5
      extract_lets x6 x7
      refine Keeps.cut (t := x6) ?_ (fun h8 => ?_)
      · unfold x6
        refine Keeps.via (State.modSeg_keeps _ _ _) ?_
        exact h2
      refine Keeps.via (Keeps.set_arc _ _) ?_
      exact h8
    · rename_i y9 y10
      refine Keeps.via (State.noteWaiting_keeps _) ?_
      exact h2
  · exact Keeps.refl _

theorem State.takeArcSeq_keeps : ∀ s a1, Keeps s (State.takeArcSeq s a1).2 := by
  intro s a1
  unfold State.takeArcSeq
  extract_lets x1 x2
  refine Keeps.cut (t := x2) ?_ (fun h3 => ?_)
  · unfold x2
    refine Keeps.via (State.modInst_keeps _ _ _) ?_
    exact Keeps.refl _
  split
  · rename_i y4
    refine Keeps.via (State.jAdd_keeps _ _) ?_
    refine Keeps.via (State.modInst_keeps _ _ _) ?_
    exact h3
  · rename_i y5
    exact h3

theorem readPinned_keeps : ∀ a0 a1 a2 a3 s, Keeps s (readPinned a0 a1 a2 a3 s).2 := by
  intro a0 a1 a2 a3 s
  induction a1 generalizing a0 a2 a3 s with
  | zero =>
    rw [readPinned]
    exact Keeps.refl _
  | succ n ih =>
    rw [readPinned]
    split
    · rename_i y1
      split
      · rename_i y2 y3 y4 y5 y6
        refine Keeps.ofPair y6 ?_
        refine Keeps.via (ih _ _ _ _) ?_
        exact Keeps.refl _
      · rename_i y7 y8 y9
        refine Keeps.ofPair y9 ?_
        refine Keeps.via (ih _ _ _ _) ?_
        exact Keeps.refl _
    · rename_i y10
      split
      · rename_i y11
        exact Keeps.refl _
      · rename_i y12
        extract_lets x13 x14 x15
        refine Keeps.cut (t := x15) ?_ (fun h16 => ?_)
        · unfold x15
          refine Keeps.via (State.unitRead_keeps _ _ _) ?_
          exact Keeps.refl _
        split
        · rename_i y17
          exact h16
        · rename_i y18
          split
          · rename_i y19 y20 y21 y22 y23
            refine Keeps.ofPair y23 ?_
            refine Keeps.via (ih _ _ _ _) ?_
            exact h16
          · rename_i y24 y25 y26
            refine Keeps.ofPair y26 ?_
            refine Keeps.via (ih _ _ _ _) ?_
            exact h16

theorem State.formatBlock_keeps : ∀ s a1 a2 a3, Keeps s (State.formatBlock s a1 a2 a3).2 := by
  intro s a1 a2 a3
  unfold State.formatBlock
  extract_lets x1 x2
  refine Keeps.cut (t := x2) ?_ (fun h3 => ?_)
  · unfold x2
    refine Keeps.via (State.touchRun_keeps _ _ _ _) ?_
    exact Keeps.refl _
  split
  · rename_i y4 y5 y6
    refine Keeps.ofPair y6 ?_
    refine Keeps.via (readPinned_keeps _ _ _ _ _) ?_
    exact h3
  · rename_i y7 y8 y9 y10 y11
    split
    rename_i y12 y13 y14 y15
    extract_lets x16 x17 x18 x19
    refine Keeps.cut (t := x18) ?_ (fun h20 => ?_)
    · unfold x18
      refine Keeps.via (State.modInst_keeps _ _ _) ?_
      refine Keeps.ofPair y15 ?_
      refine Keeps.via (State.takeArcSeq_keeps _ _) ?_
      refine Keeps.ofPair y11 ?_
      refine Keeps.via (readPinned_keeps _ _ _ _ _) ?_
      exact h3
    refine Keeps.cut (t := x19) ?_ (fun h21 => ?_)
    · unfold x19
      refine Keeps.via (State.modSeg_keeps _ _ _) ?_
      exact h20
    exact h21

theorem State.placeBlock_keeps : ∀ s a1, Keeps s (State.placeBlock s a1) := fun _ _ =>
  Keeps.ofOnly (State.placeBlock_only _ _) rfl

theorem State.formatRun_keeps : ∀ s a1 a2 a3 a4, Keeps s (State.formatRun s a1 a2 a3 a4).2 := by
  intro s a1 a2 a3 a4
  induction a4 generalizing s a1 a2 a3 with
  | zero =>
    rw [State.formatRun]
    exact Keeps.refl _
  | succ n ih =>
    rw [State.formatRun]
    split
    · rename_i y1 y2
      exact Keeps.refl _
    · rename_i y3 y4 y5
      split
      · rename_i y6 y7 y8
        refine Keeps.ofPair y8 ?_
        refine Keeps.via (State.formatBlock_keeps _ _ _ _) ?_
        exact Keeps.refl _
      · rename_i y9 y10 y11 y12 y13
        extract_lets x14
        refine Keeps.cut (t := x14.2) ?_ (fun h15 => ?_)
        · unfold x14
          refine Keeps.via (ih _ _ _ _) ?_
          refine Keeps.via (State.placeBlock_keeps _ _) ?_
          refine Keeps.ofPair y13 ?_
          refine Keeps.via (State.formatBlock_keeps _ _ _ _) ?_
          exact Keeps.refl _
        unfold x14
        refine Keeps.via (ih _ _ _ _) ?_
        refine Keeps.via (State.placeBlock_keeps _ _) ?_
        refine Keeps.ofPair y13 ?_
        refine Keeps.via (State.formatBlock_keeps _ _ _ _) ?_
        exact Keeps.refl _

theorem State.pendRun_keeps : ∀ s a1, Keeps s (State.pendRun s a1) := fun _ _ =>
  Keeps.ofOnly (State.pendRun_only _ _) rfl

theorem execArchiveBlockFormat_keeps : ∀ a0 s z, Keeps s (runRow (execArchiveBlockFormat a0 s) z) := by
  intro a0 s z
  unfold execArchiveBlockFormat
  rw [runRow_next]
  refine Keeps.whenServing (fun t1 h2 => ?_) ?_
  · split
    · rename_i y3 y4
      exact h2
    · rename_i y5 y6 y7 y8
      refine Keeps.ite (fun _ => ?_) (fun _ => ?_)
      · exact h2
      · split
        · rename_i y9 y10 y11
          refine Keeps.via (Keeps.set_arc _ _) ?_
          exact h2
        · rename_i y12 y13 y14 y15
          extract_lets x16
          split
          rename_i y17 y18 y19 y20
          extract_lets x21
          refine Keeps.ite (fun _ => ?_) (fun _ => ?_)
          · exact h2
          · split
            rename_i y22 y23 y24 y25 y26
            extract_lets x27 x28
            refine Keeps.cut (t := x27) ?_ (fun h29 => ?_)
            · unfold x27
              refine Keeps.ite (fun _ => ?_) (fun _ => ?_)
              · refine Keeps.ofPair y26 ?_
                refine Keeps.via (State.formatRun_keeps _ _ _ _ _) ?_
                exact h2
              · refine Keeps.via (State.pendRun_keeps _ _) ?_
                refine Keeps.ofPair y26 ?_
                refine Keeps.via (State.formatRun_keeps _ _ _ _ _) ?_
                exact h2
            refine Keeps.ite (fun _ => ?_) (fun _ => ?_)
            · refine Keeps.via (State.note_keeps _ _ _) ?_
              refine Keeps.via (State.modSeg_keeps _ _ _) ?_
              refine Keeps.via (Keeps.set_arc _ _) ?_
              exact h29
            · refine Keeps.ite (fun _ => ?_) (fun _ => ?_)
              · refine Keeps.via (Keeps.set_arc _ _) ?_
                exact h29
              · refine Keeps.via (Keeps.set_arc _ _) ?_
                exact h29
  · exact Keeps.refl _

theorem State.fillStripe_keeps : ∀ s, Keeps s (State.fillStripe s) := fun _ =>
  Keeps.ofOnly (State.fillStripe_only _) rfl

theorem execFillerTimeout_keeps : ∀ s z, Keeps s (runRow (execFillerTimeout s) z) := fun _ _ =>
  Keeps.ofOnly (execFillerTimeout_only _ _) rfl

theorem State.beginSlot_keeps : ∀ s a1 a2 a3, Keeps s (State.beginSlot s a1 a2 a3) := fun _ _ _ _ =>
  Keeps.ofOnly (State.beginSlot_only _ _ _ _) rfl

theorem execStripeRecordStart_keeps : ∀ s z, Keeps s (runRow (execStripeRecordStart s) z) := fun _ _ =>
  Keeps.ofOnly (execStripeRecordStart_only _ _) rfl

theorem State.zoneCount_keeps : ∀ s a1 a2, Keeps s (State.zoneCount s a1 a2) := fun _ _ _ =>
  Keeps.ofOnly (State.zoneCount_only _ _ _) rfl

theorem State.verifiedTo_keeps : ∀ s a1 a2 a3, Keeps s (State.verifiedTo s a1 a2 a3) := by
  intro s a1 a2 a3
  unfold State.verifiedTo
  refine Keeps.via (State.modInst_keeps _ _ _) ?_
  exact Keeps.refl _

theorem State.stripeDone_keeps : ∀ s a1, Keeps s (State.stripeDone s a1) := by
  intro s a1
  unfold State.stripeDone
  split
  · rename_i y1 y2
    exact Keeps.refl _
  · rename_i y3 y4 y5
    extract_lets x6 x7 x8 x9
    refine Keeps.cut (t := x8) ?_ (fun h10 => ?_)
    · unfold x8
      refine Keeps.via (Keeps.set_arc _ _) ?_
      exact Keeps.refl _
    refine Keeps.cut (t := x9) ?_ (fun h11 => ?_)
    · unfold x9
      refine Keeps.forEach (fun a12 t13 h14 => ?_) ?_
      · refine Keeps.via (State.verifiedTo_keeps _ _ _ _) ?_
        refine Keeps.via (State.modSeg_keeps _ _ _) ?_
        exact h14
      · exact h10
    refine Keeps.forEach (fun a15 t16 h17 => ?_) ?_
    · split
      · rename_i y18 y19 y20
        refine Keeps.ite (fun _ => ?_) (fun _ => ?_)
        · refine Keeps.via (State.zoneCount_keeps _ _ _) ?_
          exact h17
        · exact h17
      · rename_i y21 y22
        exact h17
    · exact h11

theorem State.stripeGood_keeps : ∀ s a1 a2, Keeps s (State.stripeGood s a1 a2) := by
  intro s a1 a2
  unfold State.stripeGood
  extract_lets x1 x2
  refine Keeps.cut (t := x2) ?_ (fun h3 => ?_)
  · unfold x2
    refine Keeps.via (Keeps.set_arc _ _) ?_
    exact Keeps.refl _
  split
  · rename_i y4 y5 y6
    refine Keeps.ite (fun _ => ?_) (fun _ => ?_)
    · refine Keeps.via (State.replaceStripe_keeps _ _) ?_
      exact h3
    · refine Keeps.via (State.stripeDone_keeps _ _) ?_
      exact h3
  · rename_i y7 y8
    exact h3

theorem execSlotVerifyResult_keeps : ∀ a0 a1 s z, Keeps s (runRow (execSlotVerifyResult a0 a1 s) z) := by
  intro a0 a1 s z
  unfold execSlotVerifyResult
  rw [runRow_next]
  refine Keeps.whenServing (fun t1 h2 => ?_) ?_
  · extract_lets x3
    split
    · rename_i y4 y5 y6 y7 y8 y9 y10 y11 y12
      refine Keeps.ite (fun _ => ?_) (fun _ => ?_)
      · exact h2
      · extract_lets x13 x14
        refine Keeps.cut (t := x14) ?_ (fun h15 => ?_)
        · unfold x14
          refine Keeps.via (State.modDrive_keeps _ _ _) ?_
          exact h2
        refine Keeps.via (State.settle_keeps _) ?_
        refine Keeps.ite (fun _ => ?_) (fun _ => ?_)
        · refine Keeps.via (State.stripeGood_keeps _ _ _) ?_
          exact h15
        · refine Keeps.via (State.stripeBad_keeps _ _ _) ?_
          exact h15
    · rename_i y16 y17 y18 y19
      exact h2
  · exact Keeps.refl _

theorem State.putStruct_keeps : ∀ s a1 a2 a3, Keeps s (State.putStruct s a1 a2 a3) := fun _ _ _ _ =>
  Keeps.ofOnly (State.putStruct_only _ _ _ _) rfl

theorem State.useStruct_keeps : ∀ s a1, Keeps s (State.useStruct s a1) := fun _ _ =>
  Keeps.ofOnly (State.useStruct_only _ _) rfl

theorem State.writeStruct_keeps : ∀ s a1 a2 a3, ∀ r, State.writeStruct s a1 a2 a3 = some r → Keeps s r := fun _ _ _ _ r e =>
  Keeps.ofOnly (State.writeStruct_only _ _ _ _ r e) rfl

theorem State.areasFill_keeps : ∀ s, Keeps s (State.areasFill s) := by
  intro s
  unfold State.areasFill
  refine Keeps.ite (fun _ => ?_) (fun _ => ?_)
  · refine Keeps.via (State.setIsFull_keeps _) ?_
    exact Keeps.refl _
  · exact Keeps.refl _

theorem State.writeSr_keeps : ∀ s a1, Keeps s (State.writeSr s a1) := by
  intro s a1
  unfold State.writeSr
  extract_lets x1 x2 x3
  split
  · rename_i y4 y5
    refine Keeps.via (State.setIsFull_keeps _) ?_
    exact Keeps.refl _
  · rename_i y6 y7 y8
    refine Keeps.via (State.areasFill_keeps _) ?_
    refine Keeps.via (Keeps.set_arc _ _) ?_
    refine Keeps.ofOpt y8 (State.writeStruct_keeps _ _ _ _) ?_
    exact Keeps.refl _

theorem State.writePending_keeps : ∀ s a1, Keeps s (State.writePending s a1) := by
  intro s a1
  unfold State.writePending
  extract_lets x1 x2 x3
  refine Keeps.cut (t := x3) ?_ (fun h4 => ?_)
  · unfold x3
    refine Keeps.ite (fun _ => ?_) (fun _ => ?_)
    · exact Keeps.refl _
    · split
      · rename_i y5 y6 y7
        refine Keeps.via (State.setIsFull_keeps _) ?_
        exact Keeps.refl _
      · rename_i y8 y9 y10 y11
        refine Keeps.via (State.areasFill_keeps _) ?_
        refine Keeps.via (Keeps.set_arc _ _) ?_
        refine Keeps.ofOpt y11 (State.writeStruct_keeps _ _ _ _) ?_
        exact Keeps.refl _
  refine Keeps.forBelow (fun a12 t13 h14 => ?_) ?_
  · refine Keeps.via (State.writeSr_keeps _ _) ?_
    exact h14
  · exact h4

theorem execPendingEntriesWrite_keeps : ∀ a0 s z, Keeps s (runRow (execPendingEntriesWrite a0 s) z) := by
  intro a0 s z
  unfold execPendingEntriesWrite
  rw [runRow_next]
  refine Keeps.whenServing (fun t1 h2 => ?_) ?_
  · refine Keeps.ite (fun _ => ?_) (fun _ => ?_)
    · refine Keeps.via (State.settle_keeps _) ?_
      refine Keeps.via (State.writePending_keeps _ _) ?_
      exact h2
    · exact h2
  · exact Keeps.refl _

theorem State.drainEnds_keeps : ∀ s a1, Keeps s (State.drainEnds s a1) := by
  intro s a1
  unfold State.drainEnds
  refine Keeps.ite (fun _ => ?_) (fun _ => ?_)
  · refine Keeps.via (State.journalRecord_keeps _ _) ?_
    refine Keeps.via (State.setIState_keeps _ _ _) ?_
    refine Keeps.via (State.destroyKey_keeps _ _) ?_
    exact Keeps.refl _
  · exact Keeps.refl _

theorem State.postDone_keeps : ∀ s a1, Keeps s (State.postDone s a1) := by
  intro s a1
  unfold State.postDone
  extract_lets x1 x2 x3 x4 x5 x6 x7
  refine Keeps.cut (t := x3) ?_ (fun h8 => ?_)
  · unfold x3
    refine Keeps.ite (fun _ => ?_) (fun _ => ?_)
    · refine Keeps.via (State.postOwn_keeps _ _ _ _) ?_
      exact Keeps.refl _
    · refine Keeps.via (State.postPeer_keeps _ _ _ _) ?_
      exact Keeps.refl _
  refine Keeps.cut (t := x4) ?_ (fun h9 => ?_)
  · unfold x4
    refine Keeps.via (State.count_keeps _ _ _) ?_
    exact h8
  refine Keeps.cut (t := x5) ?_ (fun h10 => ?_)
  · unfold x5
    refine Keeps.via (State.modInst_keeps _ _ _) ?_
    exact h9
  refine Keeps.cut (t := x7) ?_ (fun h11 => ?_)
  · unfold x7
    refine Keeps.via (Keeps.set_fss _ _ (by rfl) (by rfl) (by rfl)) ?_
    exact h10
  refine Keeps.via (State.drainEnds_keeps _ _) ?_
  refine Keeps.via (State.refreshUsed_keeps _ _) ?_
  exact h11

theorem execArchiveDone_keeps : ∀ a0 s z, Keeps s (runRow (execArchiveDone a0 s) z) := by
  intro a0 s z
  unfold execArchiveDone
  rw [runRow_next]
  refine Keeps.whenServing (fun t1 h2 => ?_) ?_
  · split
    · rename_i y3 y4
      exact h2
    · rename_i y5 y6 y7
      split
      · rename_i y8 y9 y10
        refine Keeps.ite (fun _ => ?_) (fun _ => ?_)
        · refine Keeps.via (State.postDone_keeps _ _) ?_
          exact h2
        · exact h2
      · rename_i y11 y12
        refine Keeps.ite (fun _ => ?_) (fun _ => ?_)
        · extract_lets x13 x14
          refine Keeps.cut (t := x13) ?_ (fun h15 => ?_)
          · unfold x13
            refine Keeps.via (State.markUnits_keeps _ _) ?_
            exact h2
          refine Keeps.cut (t := x14) ?_ (fun h16 => ?_)
          · unfold x14
            refine Keeps.via (State.jAdd_keeps _ _) ?_
            exact h15
          refine Keeps.via (State.refreshUsed_keeps _ _) ?_
          refine Keeps.via (State.modSeg_keeps _ _ _) ?_
          exact h16
        · exact h2
  · exact Keeps.refl _

theorem execDegradedDriveTimeout_keeps : ∀ a0 s z, Keeps s (runRow (execDegradedDriveTimeout a0 s) z) := by
  intro a0 s z
  unfold execDegradedDriveTimeout
  rw [runRow_next]
  refine Keeps.whenServing (fun t1 h2 => ?_) ?_
  · extract_lets x3 x4 x5 x6
    refine Keeps.ite (fun _ => ?_) (fun _ => ?_)
    · refine Keeps.via (State.settle_keeps _) ?_
      refine Keeps.via (State.note_keeps _ _ _) ?_
      refine Keeps.via (Keeps.set_arc _ _) ?_
      exact h2
    · exact h2
  · exact Keeps.refl _

theorem execOpcGo_keeps : ∀ a0 s z, Keeps s (runRow (execOpcGo a0 s) z) := fun _ _ _ =>
  Keeps.ofOnly (execOpcGo_only _ _ _) rfl

theorem State.opcFails_keeps : ∀ s a1 a2, Keeps s (State.opcFails s a1 a2) := by
  intro s a1 a2
  unfold State.opcFails
  extract_lets x1
  refine Keeps.cut (t := x1) ?_ (fun h2 => ?_)
  · unfold x1
    refine Keeps.via (State.modItem_keeps _ _ _ _) ?_
    exact Keeps.refl _
  refine Keeps.via (State.note_keeps _ _ _) ?_
  refine Keeps.via (State.modWst_keeps _ _ _) ?_
  exact h2

theorem State.endOpc_keeps : ∀ s a1 a2 a3, Keeps s (State.endOpc s a1 a2 a3) := by
  intro s a1 a2 a3
  unfold State.endOpc
  extract_lets x1 x2 x3 x4 x5
  clear_value x3
  refine Keeps.cut (t := x4) ?_ (fun h6 => ?_)
  · unfold x4
    refine Keeps.via (State.modWst_keeps _ _ _) ?_
    exact Keeps.refl _
  refine Keeps.cut (t := x5) ?_ (fun h7 => ?_)
  · unfold x5
    refine Keeps.via (State.calFallsDue_keeps _ _ _) ?_
    exact h6
  split
  · rename_i y8 y9
    refine Keeps.ite (fun _ => ?_) (fun _ => ?_)
    · refine Keeps.via (State.modWst_keeps _ _ _) ?_
      refine Keeps.via (State.calCount_keeps _ _ _ _) ?_
      exact h7
    · refine Keeps.via (State.opcFails_keeps _ _ _) ?_
      exact h7
  · rename_i y10
    refine Keeps.via (State.opcFails_keeps _ _ _) ?_
    exact h7

theorem execOpcRun_keeps : ∀ a0 a1 a2 s z, Keeps s (runRow (execOpcRun a0 a1 a2 s) z) := by
  intro a0 a1 a2 s z
  unfold execOpcRun
  rw [runRow_next]
  refine Keeps.whenServing (fun t1 h2 => ?_) ?_
  · extract_lets x3 x4
    split
    · rename_i y5
      refine Keeps.ite (fun _ => ?_) (fun _ => ?_)
      · exact h2
      · refine Keeps.ite (fun _ => ?_) (fun _ => ?_)
        · refine Keeps.via (State.modWst_keeps _ _ _) ?_
          exact h2
        · refine Keeps.via (State.modWst_keeps _ _ _) ?_
          refine Keeps.via (State.touchDrive_keeps _ _) ?_
          exact h2
    · rename_i y6 y7
      refine Keeps.ite (fun _ => ?_) (fun _ => ?_)
      · refine Keeps.via (State.settle_keeps _) ?_
        refine Keeps.via (State.endOpc_keeps _ _ _ _) ?_
        exact h2
      · exact h2
  · exact Keeps.refl _

theorem State.loadDrives_keeps : ∀ s a1 a2 a3, Keeps s (State.loadDrives s a1 a2 a3) := fun _ _ _ _ =>
  Keeps.ofOnly (State.loadDrives_only _ _ _ _) rfl

theorem State.loadItems_keeps : ∀ s, Keeps s (State.loadItems s) := fun _ =>
  Keeps.ofOnly (State.loadItems_only _) rfl

theorem State.leaveSet_keeps : ∀ s a1, Keeps s (State.leaveSet s a1) := by
  intro s a1
  unfold State.leaveSet
  extract_lets x1
  refine Keeps.ite (fun _ => ?_) (fun _ => ?_)
  · refine Keeps.via (State.writePending_keeps _ _) ?_
    exact Keeps.refl _
  · exact Keeps.refl _

theorem State.initSet_keeps : ∀ s a1 a2 a3, Keeps s (State.initSet s a1 a2 a3) := by
  intro s a1 a2 a3
  unfold State.initSet
  extract_lets x1 x2 x3 x4 x5 x6 x7
  refine Keeps.cut (t := x2) ?_ (fun h8 => ?_)
  · unfold x2
    refine Keeps.via (State.useFree_keeps _) ?_
    exact Keeps.refl _
  refine Keeps.cut (t := x5) ?_ (fun h9 => ?_)
  · unfold x5
    refine Keeps.via (Keeps.set_arc _ _) ?_
    exact h8
  refine Keeps.cut (t := x7) ?_ (fun h10 => ?_)
  · unfold x7
    refine Keeps.getD (State.writeStruct_keeps _ _ _ _) ?_ ?_
    · exact h9
    · refine Keeps.via (State.setIsFull_keeps _) ?_
      exact h9
  refine Keeps.via (State.noteWaiting_keeps _) ?_
  refine Keeps.via (State.journalRecord_keeps _ _) ?_
  refine Keeps.via (State.loadItems_keeps _) ?_
  refine Keeps.via (State.loadDrives_keeps _ _ _ _) ?_
  exact h10

theorem State.scanWhole_keeps : ∀ s a1, Keeps s (State.scanWhole s a1) := by
  intro s a1
  unfold State.scanWhole
  extract_lets x1 x2 x3
  refine Keeps.cut (t := x3) ?_ (fun h4 => ?_)
  · unfold x3
    refine Keeps.via (Keeps.set_arc _ _) ?_
    exact Keeps.refl _
  refine Keeps.forEach (fun a5 t6 h7 => ?_) ?_
  · extract_lets x8 x9 x10
    refine Keeps.cut (t := x9) ?_ (fun h11 => ?_)
    · unfold x9
      refine Keeps.via (Keeps.set_arc _ _) ?_
      exact h7
    refine Keeps.cut (t := x10) ?_ (fun h12 => ?_)
    · unfold x10
      refine Keeps.ite (fun _ => ?_) (fun _ => ?_)
      · refine Keeps.via (State.modSeg_keeps _ _ _) ?_
        exact h11
      · exact h11
    refine Keeps.ite (fun _ => ?_) (fun _ => ?_)
    · refine Keeps.via (State.verifiedTo_keeps _ _ _ _) ?_
      exact h12
    · exact h12
  · exact h4

theorem State.reformat_keeps : ∀ s a1, Keeps s (State.reformat s a1).2 := by
  intro s a1
  unfold State.reformat
  split
  · rename_i y1 y2 y3
    split
    · rename_i y4 y5 y6 y7 y8
      refine Keeps.ofPair y8 ?_
      refine Keeps.via (State.formatBlock_keeps _ _ _ _) ?_
      exact Keeps.refl _
    · rename_i y9 y10 y11
      refine Keeps.ofPair y11 ?_
      refine Keeps.via (State.formatBlock_keeps _ _ _ _) ?_
      exact Keeps.refl _
  · rename_i y12 y13
    exact Keeps.refl _

theorem State.scanPart_keeps : ∀ s a1, Keeps s (State.scanPart s a1) := by
  intro s a1
  unfold State.scanPart
  split
  rename_i y1 y2 y3 y4
  extract_lets x5 x6 x7
  split
  · rename_i y8 y9
    refine Keeps.via (State.setIsFull_keeps _) ?_
    refine Keeps.ofPair y4 ?_
    refine Keeps.foldlSnd (fun t11 a10 h12 => ?_) ?_
    · extract_lets x13
      refine Keeps.cut (t := x13.2) ?_ (fun h14 => ?_)
      · unfold x13
        refine Keeps.via (State.reformat_keeps _ _) ?_
        exact h12
      unfold x13
      refine Keeps.via (State.reformat_keeps _ _) ?_
      exact h12
    · exact Keeps.refl _
  · rename_i y15 y16 y17 y18 y19
    extract_lets x20 x21
    refine Keeps.via (Keeps.set_arc _ _) ?_
    refine Keeps.ofPair y4 ?_
    refine Keeps.foldlSnd (fun t23 a22 h24 => ?_) ?_
    · extract_lets x25
      refine Keeps.cut (t := x25.2) ?_ (fun h26 => ?_)
      · unfold x25
        refine Keeps.via (State.reformat_keeps _ _) ?_
        exact h24
      unfold x25
      refine Keeps.via (State.reformat_keeps _ _) ?_
      exact h24
    · exact Keeps.refl _

theorem State.coveredChains_keeps : ∀ s a1, Keeps s (State.coveredChains s a1) := by
  intro s a1
  unfold State.coveredChains
  refine Keeps.forEach (fun a1 t2 h3 => ?_) ?_
  · refine Keeps.ite (fun _ => ?_) (fun _ => ?_)
    · refine Keeps.via (State.verifiedTo_keeps _ _ _ _) ?_
      exact h3
    · exact h3
  · exact Keeps.refl _

theorem State.resumeChains_keeps : ∀ s, Keeps s (State.resumeChains s) := by
  intro s
  unfold State.resumeChains
  refine Keeps.ite (fun _ => ?_) (fun _ => ?_)
  · refine Keeps.via (Keeps.set_inst _ _ (fun c => Bank.wf_mapVals c.inst)) ?_
    exact Keeps.refl _
  · exact Keeps.refl _

theorem State.resumeSegs_keeps : ∀ s, Keeps s (State.resumeSegs s) := by
  intro s
  unfold State.resumeSegs
  refine Keeps.via (State.mapSegs_keeps _ _) ?_
  exact Keeps.refl _

theorem State.takeSet_keeps : ∀ s a1 a2 a3, Keeps s (State.takeSet s a1 a2 a3) := by
  intro s a1 a2 a3
  unfold State.takeSet
  extract_lets x1 x2 x3 x4 x5 x6 x7 x8 x9 x10 x11 x12 x13
  refine Keeps.cut (t := x6) ?_ (fun h14 => ?_)
  · unfold x6
    refine Keeps.via (Keeps.set_arc _ _) ?_
    exact Keeps.refl _
  refine Keeps.cut (t := x7) ?_ (fun h15 => ?_)
  · unfold x7
    refine Keeps.via (State.areasFill_keeps _) ?_
    exact h14
  refine Keeps.cut (t := x8) ?_ (fun h16 => ?_)
  · unfold x8
    refine Keeps.forEach (fun a17 t18 h19 => ?_) ?_
    · refine Keeps.via (State.scanWhole_keeps _ _) ?_
      exact h19
    · exact h15
  refine Keeps.cut (t := x9) ?_ (fun h20 => ?_)
  · unfold x9
    refine Keeps.via (State.resumeChains_keeps _) ?_
    refine Keeps.via (State.coveredChains_keeps _ _) ?_
    exact h16
  refine Keeps.cut (t := x11) ?_ (fun h21 => ?_)
  · unfold x11
    refine Keeps.via (Keeps.set_arc _ _) ?_
    exact h20
  refine Keeps.cut (t := x12) ?_ (fun h22 => ?_)
  · unfold x12
    refine Keeps.via (State.resumeSegs_keeps _) ?_
    exact h21
  refine Keeps.cut (t := x13) ?_ (fun h23 => ?_)
  · unfold x13
    refine Keeps.ite (fun _ => ?_) (fun _ => ?_)
    · refine Keeps.forEach (fun a24 t25 h26 => ?_) ?_
      · refine Keeps.ite (fun _ => ?_) (fun _ => ?_)
        · exact h26
        · refine Keeps.via (State.scanPart_keeps _ _) ?_
          exact h26
      · exact h22
    · exact h22
  refine Keeps.via (State.noteWaiting_keeps _) ?_
  refine Keeps.via (State.journalRecord_keeps _ _) ?_
  refine Keeps.via (State.loadItems_keeps _) ?_
  refine Keeps.via (State.loadDrives_keeps _ _ _ _) ?_
  exact h23

theorem State.loadSet_keeps : ∀ s a1 a2 a3 a4 a5, Keeps s (State.loadSet s a1 a2 a3 a4 a5).2.2 := by
  intro s a1 a2 a3 a4 a5
  unfold State.loadSet
  split
  · exact Keeps.refl _
  · split
    · split
      · dsimp only
        exact Keeps.via (State.initSet_keeps _ _ _ _) (State.leaveSet_keeps _ _)
      · exact Keeps.refl _
    · split
      · exact Keeps.refl _
      · split
        · exact Keeps.refl _
        · split
          · dsimp only
            exact State.note_keeps _ _ _
          · dsimp only
            exact Keeps.via (State.takeSet_keeps _ _ _ _) (State.leaveSet_keeps _ _)

theorem execStripeLoad_keeps : ∀ a0 a1 a2 a3 s z, Keeps s (runRow (execStripeLoad a0 a1 a2 a3 s) z) := by
  intro a0 a1 a2 a3 s z
  unfold execStripeLoad
  rw [runRow_next]
  refine Keeps.withCmd (fun c1 t2 h3 => ?_) ?_
  · extract_lets x4
    refine Keeps.cut (t := x4.2.2) ?_ (fun h5 => ?_)
    · unfold x4
      refine Keeps.via (State.loadSet_keeps _ _ _ _ _ _) ?_
      exact h3
    refine Keeps.via (State.settle_keeps _) ?_
    refine Keeps.via (State.complete_keeps _ _ _ _ _) ?_
    exact h5
  · exact Keeps.refl _

theorem execStartupSetReload_keeps : ∀ a0 a1 s z, Keeps s (runRow (execStartupSetReload a0 a1 s) z) := by
  intro a0 a1 s z
  unfold execStartupSetReload
  rw [runRow_next]
  refine Keeps.whenServing (fun t1 h2 => ?_) ?_
  · refine Keeps.ite (fun _ => ?_) (fun _ => ?_)
    · exact h2
    · refine Keeps.ite (fun _ => ?_) (fun _ => ?_)
      · refine Keeps.via (Keeps.set_arc _ _) ?_
        exact h2
      · extract_lets x3 x4 x5
        refine Keeps.cut (t := x4) ?_ (fun h6 => ?_)
        · unfold x4
          refine Keeps.via (Keeps.set_arc _ _) ?_
          exact h2
        refine Keeps.cut (t := x5.2.2) ?_ (fun h7 => ?_)
        · unfold x5
          refine Keeps.via (State.loadSet_keeps _ _ _ _ _ _) ?_
          exact h6
        refine Keeps.via (State.settle_keeps _) ?_
        refine Keeps.ite (fun _ => ?_) (fun _ => ?_)
        · exact h7
        · refine Keeps.via (State.noteWaiting_keeps _) ?_
          refine Keeps.via (State.note_keeps _ _ _) ?_
          exact h7
  · exact Keeps.refl _

theorem State.writeFr_keeps : ∀ s a1 a2, Keeps s (State.writeFr s a1 a2) := by
  intro s a1 a2
  unfold State.writeFr
  extract_lets x1 x2 x3
  refine Keeps.cut (t := x1) ?_ (fun h4 => ?_)
  · unfold x1
    refine Keeps.via (State.writePending_keeps _ _) ?_
    exact Keeps.refl _
  split
  · rename_i y5 y6 y7
    refine Keeps.via (State.complete_keeps _ _ _ _ _) ?_
    refine Keeps.via (Keeps.set_arc _ _) ?_
    refine Keeps.ofOpt y7 (State.writeStruct_keeps _ _ _ _) ?_
    exact h4
  · rename_i y8 y9
    refine Keeps.via (State.complete_keeps _ _ _ _ _) ?_
    refine Keeps.via (Keeps.set_arc _ _) ?_
    exact h4

theorem State.goFinalize_keeps : ∀ s a1 a2, Keeps s (State.goFinalize s a1 a2) := by
  intro s a1 a2
  unfold State.goFinalize
  refine Keeps.ite (fun _ => ?_) (fun _ => ?_)
  · refine Keeps.via (State.complete_keeps _ _ _ _ _) ?_
    refine Keeps.via (Keeps.set_arc _ _) ?_
    exact Keeps.refl _
  · refine Keeps.ite (fun _ => ?_) (fun _ => ?_)
    · exact Keeps.refl _
    · refine Keeps.ite (fun _ => ?_) (fun _ => ?_)
      · refine Keeps.via (State.fillStripe_keeps _) ?_
        exact Keeps.refl _
      · refine Keeps.ite (fun _ => ?_) (fun _ => ?_)
        · exact Keeps.refl _
        · refine Keeps.via (State.writeFr_keeps _ _ _) ?_
          exact Keeps.refl _

theorem execStripeFinalize_keeps : ∀ a0 a1 s z, Keeps s (runRow (execStripeFinalize a0 a1 s) z) := by
  intro a0 a1 s z
  unfold execStripeFinalize
  rw [runRow_next]
  refine Keeps.whenServing (fun t1 h2 => ?_) ?_
  · split
    · rename_i y3 y4
      exact h2
    · rename_i y5 y6 y7
      refine Keeps.ite (fun _ => ?_) (fun _ => ?_)
      · exact h2
      · refine Keeps.ite (fun _ => ?_) (fun _ => ?_)
        · refine Keeps.via (State.settle_keeps _) ?_
          refine Keeps.via (State.noteWaiting_keeps _) ?_
          refine Keeps.via (State.goFinalize_keeps _ _ _) ?_
          exact h2
        · refine Keeps.ite (fun _ => ?_) (fun _ => ?_)
          · exact h2
          · refine Keeps.ite (fun _ => ?_) (fun _ => ?_)
            · refine Keeps.via (State.complete_keeps _ _ _ _ _) ?_
              exact h2
            · refine Keeps.ite (fun _ => ?_) (fun _ => ?_)
              · refine Keeps.via (State.complete_keeps _ _ _ _ _) ?_
                exact h2
              · extract_lets x8 x9
                refine Keeps.via (State.settle_keeps _) ?_
                refine Keeps.via (State.noteWaiting_keeps _) ?_
                refine Keeps.via (State.goFinalize_keeps _ _ _) ?_
                refine Keeps.via (State.setCmd_keeps _ _) ?_
                refine Keeps.via (Keeps.set_arc _ _) ?_
                exact h2
  · exact Keeps.refl _

theorem State.structOn_keeps : ∀ s a1 a2 a3 a4 a5, Keeps s (State.structOn s a1 a2 a3 a4 a5) := fun _ _ _ _ _ _ =>
  Keeps.ofOnly (State.structOn_only _ _ _ _ _ _) rfl

theorem State.rebuildStructs_keeps : ∀ s a1 a2 a3, Keeps s (State.rebuildStructs s a1 a2 a3) := fun _ _ _ _ =>
  Keeps.ofOnly (State.rebuildStructs_only _ _ _ _) rfl

theorem State.rebuildStripe_keeps : ∀ s a1 a2 a3 a4, Keeps s (State.rebuildStripe s a1 a2 a3 a4) := by
  intro s a1 a2 a3 a4
  unfold State.rebuildStripe
  extract_lets x1 x2 x3 x4 x5 x6 x7 x8
  refine Keeps.cut (t := x7) ?_ (fun h9 => ?_)
  · unfold x7
    refine Keeps.via (State.emit_keeps _ _) ?_
    exact Keeps.refl _
  refine Keeps.ite (fun _ => ?_) (fun _ => ?_)
  · refine Keeps.via (State.note_keeps _ _ _) ?_
    refine Keeps.via (Keeps.set_arc _ _) ?_
    exact Keeps.refl _
  · refine Keeps.via (Keeps.set_arc _ _) ?_
    exact h9

theorem State.rebuildStripes_keeps : ∀ a0 a1 a2 a3 s, Keeps s (State.rebuildStripes a0 a1 a2 a3 s).2 := by
  intro a0 a1 a2 a3 s
  induction a2 generalizing a0 a1 a3 s with
  | nil =>
    rw [State.rebuildStripes]
    exact Keeps.refl _
  | cons b r ih =>
    rw [State.rebuildStripes]
    split
    · rename_i y1
      exact Keeps.refl _
    · rename_i y2
      refine Keeps.via (ih _ _ _ _) ?_
      refine Keeps.via (State.rebuildStripe_keeps _ _ _ _ _) ?_
      exact Keeps.refl _

theorem State.endRebuild_keeps : ∀ s a1 a2 a3, Keeps s (State.endRebuild s a1 a2 a3) := by
  intro s a1 a2 a3
  unfold State.endRebuild
  extract_lets x1 x2 x3
  refine Keeps.cut (t := x2) ?_ (fun h4 => ?_)
  · unfold x2
    refine Keeps.via (Keeps.set_arc _ _) ?_
    exact Keeps.refl _
  refine Keeps.cut (t := x3) ?_ (fun h5 => ?_)
  · unfold x3
    refine Keeps.forEach (fun a6 t7 h8 => ?_) ?_
    · refine Keeps.via (State.note_keeps _ _ _) ?_
      exact h8
    · exact h4
  refine Keeps.via (State.complete_keeps _ _ _ _ _) ?_
  exact h5

theorem execStripeRebuild_keeps : ∀ a0 a1 a2 a3 s z, Keeps s (runRow (execStripeRebuild a0 a1 a2 a3 s) z) := by
  intro a0 a1 a2 a3 s z
  unfold execStripeRebuild
  rw [runRow_next]
  refine Keeps.whenServing (fun t1 h2 => ?_) ?_
  · split
    · rename_i y3 y4
      exact h2
    · rename_i y5 y6 y7
      extract_lets x8 x9 x10 x11
      refine Keeps.cut (t := x11) ?_ (fun h12 => ?_)
      · unfold x11
        refine Keeps.via (Keeps.set_arc _ _) ?_
        exact h2
      refine Keeps.ite (fun _ => ?_) (fun _ => ?_)
      · exact h2
      · refine Keeps.ite (fun _ => ?_) (fun _ => ?_)
        · split
          rename_i y13 y14 y15 y16 y17 y18
          extract_lets x19
          refine Keeps.ite (fun _ => ?_) (fun _ => ?_)
          · refine Keeps.via (State.settle_keeps _) ?_
            refine Keeps.via (State.noteWaiting_keeps _) ?_
            refine Keeps.via (State.endRebuild_keeps _ _ _ _) ?_
            refine Keeps.via (State.setCmd_keeps _ _) ?_
            refine Keeps.ofPair y18 ?_
            refine Keeps.via (State.rebuildStripes_keeps _ _ _ _ _) ?_
            exact h2
          · refine Keeps.via (State.setCmd_keeps _ _) ?_
            refine Keeps.ofPair y18 ?_
            refine Keeps.via (State.rebuildStripes_keeps _ _ _ _ _) ?_
            exact h2
        · refine Keeps.ite (fun _ => ?_) (fun _ => ?_)
          · exact h2
          · refine Keeps.ite (fun _ => ?_) (fun _ => ?_)
            · refine Keeps.via (State.complete_keeps _ _ _ _ _) ?_
              exact h2
            · refine Keeps.via (State.setCmd_keeps _ _) ?_
              refine Keeps.via (State.rebuildStructs_keeps _ _ _ _) ?_
              exact h12
  · exact Keeps.refl _

theorem State.approach_keeps : ∀ s a1 a2, Keeps s (State.approach s a1 a2) := fun _ _ _ =>
  Keeps.ofOnly (State.approach_only _ _ _) rfl

theorem State.approachAll_keeps : ∀ s, Keeps s (State.approachAll s) := fun _ =>
  Keeps.ofOnly (State.approachAll_only _) rfl

theorem State.judge_keeps : ∀ s a1, Keeps s (State.judge s a1).2 := by
  intro s a1
  unfold State.judge
  extract_lets x1 x2 x3 x4 x5
  refine Keeps.cut (t := x3) ?_ (fun h6 => ?_)
  · unfold x3
    refine Keeps.ite (fun _ => ?_) (fun _ => ?_)
    · refine Keeps.via (Keeps.set_sea _ _) ?_
      exact Keeps.refl _
    · exact Keeps.refl _
  split
  · rename_i y7
    exact Keeps.refl _
  · rename_i y8
    split
    · rename_i y9 y10 y11
      split
      · rename_i y12 y13 y14
        extract_lets x15
        split
        · rename_i y16
          exact Keeps.refl _
        · rename_i y17
          split
          · rename_i y18
            exact Keeps.refl _
          · rename_i y19
            exact Keeps.refl _
      · rename_i y20 y21
        exact Keeps.refl _
    · rename_i y22 y23
      extract_lets x24 x25
      split
      · rename_i y26
        exact Keeps.refl _
      · rename_i y27
        split
        · rename_i y28
          refine Keeps.via (State.logEv_keeps _ _ _ _) ?_
          refine Keeps.via (Keeps.set_arc _ _) ?_
          exact h6
        · rename_i y29
          split
          · rename_i y30
            refine Keeps.via (State.haltBy_keeps _ _) ?_
            exact Keeps.refl _
          · rename_i y31
            exact Keeps.refl _

theorem State.judgeAll_keeps : ∀ s, Keeps s (State.judgeAll s) := by
  intro s
  unfold State.judgeAll
  split
  rename_i y1 y2 y3 y4
  refine Keeps.via (Keeps.set_arc _ _) ?_
  refine Keeps.ofPair y4 ?_
  refine Keeps.foldlSnd (fun t6 a5 h7 => ?_) ?_
  · extract_lets x8
    refine Keeps.cut (t := x8.2) ?_ (fun h9 => ?_)
    · unfold x8
      refine Keeps.via (State.judge_keeps _ _) ?_
      exact h7
    unfold x8
    refine Keeps.via (State.judge_keeps _ _) ?_
    exact h7
  · exact Keeps.refl _

theorem State.endArc_keeps : ∀ s a1, Keeps s (State.endArc s a1) := by
  intro s a1
  unfold State.endArc
  extract_lets x1 x2 x3 x4 x5 x6 x7 x8 x9 x10 x11
  refine Keeps.cut (t := x4) ?_ (fun h12 => ?_)
  · unfold x4
    refine Keeps.ite (fun _ => ?_) (fun _ => ?_)
    · refine Keeps.via (State.logEv_keeps _ _ _ _) ?_
      exact Keeps.refl _
    · exact Keeps.refl _
  clear_value x7
  refine Keeps.cut (t := x9) ?_ (fun h13 => ?_)
  · unfold x9
    refine Keeps.via (State.count_keeps _ _ _) ?_
    unfold x2
    refine Keeps.via (Keeps.set_arc _ _) ?_
    exact h12
  refine Keeps.cut (t := x10) ?_ (fun h14 => ?_)
  · unfold x10
    refine Keeps.via (State.writeOut_keeps _ _ _) ?_
    exact h12
  refine Keeps.cut (t := x11) ?_ (fun h15 => ?_)
  · unfold x11
    refine Keeps.via (State.count_keeps _ _ _) ?_
    unfold x2
    refine Keeps.via (Keeps.set_arc _ _) ?_
    exact h14
  refine Keeps.ite (fun _ => ?_) (fun _ => ?_)
  · refine Keeps.via (State.complete_keeps _ _ _ _ _) ?_
    unfold x2
    refine Keeps.via (Keeps.set_arc _ _) ?_
    exact Keeps.refl _
  · refine Keeps.ite (fun _ => ?_) (fun _ => ?_)
    · exact Keeps.refl _
    · split
      · rename_i y16 y17 y18 y19 y20
        extract_lets x21
        refine Keeps.via (State.haltBy_keeps _ _) ?_
        exact h12
      · rename_i y22 y23 y24 y25
        refine Keeps.ite (fun _ => ?_) (fun _ => ?_)
        · split
          · rename_i y26 y27 y28
            refine Keeps.via (State.complete_keeps _ _ _ _ _) ?_
            exact h13
          · rename_i y29 y30
            refine Keeps.via (State.complete_keeps _ _ _ _ _) ?_
            exact h13
        · refine Keeps.ite (fun _ => ?_) (fun _ => ?_)
          · exact h12
          · split
            · rename_i y31 y32 y33 y34
              refine Keeps.via (State.complete_keeps _ _ _ _ _) ?_
              exact h15
            · rename_i y35 y36 y37
              refine Keeps.via (State.complete_keeps _ _ _ _ _) ?_
              exact h15

theorem State.settleArc_keeps : ∀ s, Keeps s (State.settleArc s) := by
  intro s
  unfold State.settleArc
  extract_lets x1 x2 x3
  refine Keeps.cut (t := x2) ?_ (fun h4 => ?_)
  · unfold x2
    refine Keeps.via (Keeps.set_arc _ _) ?_
    exact Keeps.refl _
  refine Keeps.cut (t := x3) ?_ (fun h5 => ?_)
  · unfold x3
    refine Keeps.via (State.judgeAll_keeps _) ?_
    refine Keeps.via (State.judgeAll_keeps _) ?_
    exact h4
  refine Keeps.forEach (fun a6 t7 h8 => ?_) ?_
  · refine Keeps.ite (fun _ => ?_) (fun _ => ?_)
    · refine Keeps.via (State.endArc_keeps _ _) ?_
      exact h8
    · exact h8
  · exact h5

theorem State.planArc_keeps : ∀ s a1, Keeps s (State.planArc s a1) := by
  intro s a1
  unfold State.planArc
  extract_lets x1 x2 x3 x4 x5 x6
  split
  · rename_i y7 y8 y9 y10
    refine Keeps.via (State.complete_keeps _ _ _ _ _) ?_
    refine Keeps.ite (fun _ => ?_) (fun _ => ?_)
    · refine Keeps.via (State.useFree_keeps _) ?_
      exact Keeps.refl _
    · exact Keeps.refl _
  · rename_i y11 y12
    split
    rename_i y13 y14 y15 y16
    extract_lets x17 x18
    refine Keeps.cut (t := x18) ?_ (fun h19 => ?_)
    · unfold x18
      refine Keeps.via (Keeps.set_arc _ _) ?_
      refine Keeps.ofPair y16 ?_
      split
      · rename_i y20
        exact Keeps.refl _
      · rename_i y21
        split
        · rename_i y22 y23 y24 y25 y26
          split
          · rename_i y27 y28 y29
            exact Keeps.refl _
          · rename_i y30 y31
            unfold x6
            refine Keeps.via (State.logEv_keeps _ _ _ _) ?_
            exact Keeps.refl _
        · rename_i y32 y33
          refine Keeps.ite (fun _ => ?_) (fun _ => ?_)
          · exact Keeps.refl _
          · refine Keeps.via (State.logEv_keeps _ _ _ _) ?_
            exact Keeps.refl _
    refine Keeps.via (State.approachAll_keeps _) ?_
    refine Keeps.via (State.settleArc_keeps _) ?_
    refine Keeps.via (State.setCmd_keeps _ _) ?_
    exact h19

theorem State.archiveCmd_keeps : ∀ s a1 a2, Keeps s (State.archiveCmd s a1 a2) := by
  intro s a1 a2
  unfold State.archiveCmd
  refine Keeps.whenServing (fun t1 h2 => ?_) ?_
  · split
    · rename_i y3 y4
      exact h2
    · rename_i y5 y6 y7
      refine Keeps.ite (fun _ => ?_) (fun _ => ?_)
      · exact h2
      · refine Keeps.ite (fun _ => ?_) (fun _ => ?_)
        · refine Keeps.via (State.approachAll_keeps _) ?_
          refine Keeps.via (State.settleArc_keeps _) ?_
          exact h2
        · refine Keeps.ite (fun _ => ?_) (fun _ => ?_)
          · refine Keeps.underEpoch (fun t8 h9 => ?_) ?_
            · refine Keeps.via (State.planArc_keeps _ _) ?_
              exact h9
            · exact h2
          · exact h2
  · exact Keeps.refl _

theorem execArchiveRead_keeps : ∀ a0 s z, Keeps s (runRow (execArchiveRead a0 s) z) := by
  intro a0 s z
  unfold execArchiveRead
  rw [runRow_next]
  refine Keeps.via (State.archiveCmd_keeps _ _ _) ?_
  exact Keeps.refl _

theorem execVerify_keeps : ∀ a0 s z, Keeps s (runRow (execVerify a0 s) z) := by
  intro a0 s z
  unfold execVerify
  rw [runRow_next]
  refine Keeps.via (State.archiveCmd_keeps _ _ _) ?_
  exact Keeps.refl _

theorem State.giveSlot_keeps : ∀ s a1 a2 a3, Keeps s (State.giveSlot s a1 a2 a3) := fun _ _ _ _ =>
  Keeps.ofOnly (State.giveSlot_only _ _ _ _) rfl

theorem execBlockDecode_keeps : ∀ a0 s z, Keeps s (runRow (execBlockDecode a0 s) z) := by
  intro a0 s z
  unfold execBlockDecode
  rw [runRow_next]
  refine Keeps.whenServing (fun t1 h2 => ?_) ?_
  · extract_lets x3 x4
    refine Keeps.cut (t := x4) ?_ (fun h5 => ?_)
    · unfold x4
      refine Keeps.via (State.decodeSlot_keeps _ _) ?_
      exact h2
    split
    · rename_i y6 y7
      exact h2
    · rename_i y8 y9 y10
      split
      · rename_i y11 y12
        exact h5
      · rename_i y13 y14 y15
        refine Keeps.ite (fun _ => ?_) (fun _ => ?_)
        · exact h5
        · refine Keeps.ite (fun _ => ?_) (fun _ => ?_)
          · refine Keeps.via (State.approachAll_keeps _) ?_
            refine Keeps.via (State.settleArc_keeps _) ?_
            refine Keeps.via (State.giveSlot_keeps _ _ _ _) ?_
            refine Keeps.via (State.modRdc_keeps _ _ _) ?_
            exact h5
          · refine Keeps.ite (fun _ => ?_) (fun _ => ?_)
            · exact h5
            · refine Keeps.via (State.approachAll_keeps _) ?_
              refine Keeps.via (State.settleArc_keeps _) ?_
              refine Keeps.via (State.giveSlot_keeps _ _ _ _) ?_
              refine Keeps.via (State.modRdc_keeps _ _ _) ?_
              exact h5
  · exact Keeps.refl _

theorem execReadRetry_keeps : ∀ a0 s z, Keeps s (runRow (execReadRetry a0 s) z) := fun _ _ _ =>
  Keeps.ofOnly (execReadRetry_only _ _ _) rfl

theorem execIdentify_keeps : ∀ a0 s z, Keeps s (runRow (execIdentify a0 s) z) := by
  intro a0 s z
  unfold execIdentify
  rw [runRow_next]
  refine Keeps.withCmd (fun c1 t2 h3 => ?_) ?_
  · refine Keeps.via (State.report_keeps _ _ _ _) ?_
    exact h3
  · exact Keeps.refl _

theorem State.putVal_keeps : ∀ s a1 a2 a3 a4 a5, Keeps s (State.putVal s a1 a2 a3 a4 a5) := fun _ _ _ _ _ _ =>
  Keeps.ofOnly (State.putVal_only _ _ _ _ _ _) rfl

theorem State.putS16_keeps : ∀ s a1 a2 a3, Keeps s (State.putS16 s a1 a2 a3) := fun _ _ _ _ =>
  Keeps.ofOnly (State.putS16_only _ _ _ _) rfl

theorem State.applyGain_keeps : ∀ s a1 a2 a3, Keeps s (State.applyGain s a1 a2 a3) := by
  intro s a1 a2 a3
  unfold State.applyGain
  extract_lets x1 x2 x3 x4 x5 x6 x7 x8
  refine Keeps.cut (t := x5) ?_ (fun h9 => ?_)
  · unfold x5
    refine Keeps.ite (fun _ => ?_) (fun _ => ?_)
    · exact Keeps.refl _
    · refine Keeps.forBelow (fun a10 t11 h12 => ?_) ?_
      · refine Keeps.via (State.setReg_keeps _ _ _) ?_
        exact h12
      · exact Keeps.refl _
  refine Keeps.cut (t := x6) ?_ (fun h13 => ?_)
  · unfold x6
    refine Keeps.foldl (fun t15 a14 h16 => ?_) ?_
    · refine Keeps.via (State.setReg_keeps _ _ _) ?_
      exact h16
    · exact h9
  refine Keeps.cut (t := x7) ?_ (fun h17 => ?_)
  · unfold x7
    refine Keeps.via (State.modAxis_keeps _ _ _) ?_
    exact h13
  refine Keeps.via (Keeps.set_cal _ _) ?_
  exact h17

theorem State.recompute_keeps : ∀ s a1, Keeps s (State.recompute s a1) := by
  intro s a1
  unfold State.recompute
  extract_lets x1 x2
  refine Keeps.cut (t := x2) ?_ (fun h3 => ?_)
  · unfold x2
    refine Keeps.via (Keeps.set_cal _ _) ?_
    exact Keeps.refl _
  refine Keeps.forBelow (fun a4 t5 h6 => ?_) ?_
  · extract_lets x7
    refine Keeps.ite (fun _ => ?_) (fun _ => ?_)
    · exact h6
    · refine Keeps.via (State.applyGain_keeps _ _ _ _) ?_
      exact h6
  · exact h3

theorem State.recomputeDie_keeps : ∀ s, Keeps s (State.recomputeDie s) := fun _ =>
  Keeps.ofOnly (State.recomputeDie_only _) rfl

theorem State.followDie_keeps : ∀ s, Keeps s (State.followDie s) := fun _ =>
  Keeps.ofOnly (State.followDie_only _) rfl

theorem State.followTemp_keeps : ∀ s a1, Keeps s (State.followTemp s a1) := by
  intro s a1
  unfold State.followTemp
  refine Keeps.ite (fun _ => ?_) (fun _ => ?_)
  · refine Keeps.via (State.recompute_keeps _ _) ?_
    exact Keeps.refl _
  · exact Keeps.refl _

theorem State.endRef_keeps : ∀ s a1 a2 a3, Keeps s (State.endRef s a1 a2 a3).2 := by
  intro s a1 a2 a3
  unfold State.endRef
  extract_lets x1 x2 x3 x4 x5
  refine Keeps.cut (t := x5) ?_ (fun h6 => ?_)
  · unfold x5
    refine Keeps.via (Keeps.set_cal _ _) ?_
    exact Keeps.refl _
  refine Keeps.forEach (fun a7 t8 h9 => ?_) ?_
  · refine Keeps.ite (fun _ => ?_) (fun _ => ?_)
    · refine Keeps.via (State.note_keeps _ _ _) ?_
      exact h9
    · extract_lets x10
      refine Keeps.cut (t := x10) ?_ (fun h11 => ?_)
      · unfold x10
        refine Keeps.via (State.putS16_keeps _ _ _ _) ?_
        exact h9
      refine Keeps.ite (fun _ => ?_) (fun _ => ?_)
      · refine Keeps.via (State.note_keeps _ _ _) ?_
        exact h11
      · exact h11
  · exact h6

theorem State.endBal_keeps : ∀ s a1 a2 a3 a4, Keeps s (State.endBal s a1 a2 a3 a4).2 := fun _ _ _ _ _ =>
  Keeps.ofOnly (State.endBal_only _ _ _ _ _) rfl

theorem State.endThr_keeps : ∀ s a1 a2 a3 a4, Keeps s (State.endThr s a1 a2 a3 a4).2 := fun _ _ _ _ _ =>
  Keeps.ofOnly (State.endThr_only _ _ _ _ _) rfl

theorem State.method_keeps : ∀ s a1 a2 a3 a4, Keeps s (State.method s a1 a2 a3 a4).2 := by
  intro s a1 a2 a3 a4
  unfold State.method
  split
  · rename_i y1 y2
    refine Keeps.via (Keeps.set_cal _ _) ?_
    exact Keeps.refl _
  · rename_i y3 y4 y5
    split
    · rename_i y6 y7 y8
      refine Keeps.via (State.putVal_keeps _ _ _ _ _ _) ?_
      exact Keeps.refl _
    · rename_i y9 y10
      exact Keeps.refl _
  · rename_i y11 y12 y13
    split
    · rename_i y14
      refine Keeps.via (State.endRef_keeps _ _ _ _) ?_
      exact Keeps.refl _
    · rename_i y15
      exact Keeps.refl _
  · rename_i y16 y17 y18
    split
    · rename_i y19
      refine Keeps.forEach (fun a20 t21 h22 => ?_) ?_
      · refine Keeps.via (State.putS16_keeps _ _ _ _) ?_
        exact h22
      · exact Keeps.refl _
    · rename_i y23
      exact Keeps.refl _
  · rename_i y24 y25 y26 y27
    extract_lets x28
    split
    · rename_i y29
      refine Keeps.via (State.putVal_keeps _ _ _ _ _ _) ?_
      exact Keeps.refl _
    · rename_i y30
      exact Keeps.refl _
  · rename_i y31 y32 y33 y34
    extract_lets x35
    split
    · rename_i y36
      refine Keeps.via (State.putVal_keeps _ _ _ _ _ _) ?_
      exact Keeps.refl _
    · rename_i y37
      exact Keeps.refl _
  · rename_i y38 y39 y40
    refine Keeps.layersEach (fun k41 a42 t43 h44 => ?_) ?_
    · refine Keeps.via (State.endBal_keeps _ _ _ _ _) ?_
      exact h44
    · exact Keeps.refl _
  · rename_i y45 y46 y47
    refine Keeps.layersEach (fun k48 a49 t50 h51 => ?_) ?_
    · refine Keeps.via (State.endThr_keeps _ _ _ _ _) ?_
      exact h51
    · exact Keeps.refl _
  · rename_i y52 y53 y54 y55 y56 y57
    split
    · rename_i y58
      extract_lets x59
      split
      · rename_i y60
        refine Keeps.via (State.putVal_keeps _ _ _ _ _ _) ?_
        refine Keeps.via (State.putVal_keeps _ _ _ _ _ _) ?_
        exact Keeps.refl _
      · rename_i y61
        exact Keeps.refl _
    · rename_i y62
      exact Keeps.refl _
  · rename_i y63 y64 y65 y66 y67
    extract_lets x68 x69 x70 x71 x72 x73
    refine Keeps.cut (t := x72) ?_ (fun h74 => ?_)
    · unfold x72
      refine Keeps.via (State.putVal_keeps _ _ _ _ _ _) ?_
      exact Keeps.refl _
    split
    · rename_i y75
      exact Keeps.refl _
    · rename_i y76
      refine Keeps.via (Keeps.set_cal _ _) ?_
      exact h74
  · rename_i y77 y78 y79 y80 y81 y82 y83 y84 y85 y86 y87 y88
    exact Keeps.refl _

theorem State.holdTemps_keeps : ∀ s, Keeps s (State.holdTemps s) := fun _ =>
  Keeps.ofOnly (State.holdTemps_only _) rfl

theorem State.inject_keeps : ∀ s a1 a2 a3, Keeps s (State.inject s a1 a2 a3) := by
  intro s a1 a2 a3
  unfold State.inject
  extract_lets x1 x2 x3
  refine Keeps.ite (fun _ => ?_) (fun _ => ?_)
  · refine Keeps.via (State.setReg_keeps _ _ _) ?_
    refine Keeps.via (State.setReg_keeps _ _ _) ?_
    exact Keeps.refl _
  · refine Keeps.via (State.setReg_keeps _ _ _) ?_
    exact Keeps.refl _

theorem State.beginItem_keeps : ∀ s, Keeps s (State.beginItem s) := by
  intro s
  unfold State.beginItem
  split
  · rename_i y1 y2
    exact Keeps.refl _
  · rename_i y3 y4 y5 y6 y7
    extract_lets x8 x9 x10 x11 x12
    refine Keeps.cut (t := x9) ?_ (fun h13 => ?_)
    · unfold x9
      refine Keeps.via (Keeps.set_cal _ _) ?_
      exact Keeps.refl _
    refine Keeps.cut (t := x11) ?_ (fun h14 => ?_)
    · unfold x11
      refine Keeps.via (Keeps.set_cal _ _) ?_
      exact h13
    refine Keeps.cut (t := x12) ?_ (fun h15 => ?_)
    · unfold x12
      refine Keeps.ite (fun _ => ?_) (fun _ => ?_)
      · refine Keeps.via (State.inject_keeps _ _ _ _) ?_
        exact h14
      · exact h14
    refine Keeps.ite (fun _ => ?_) (fun _ => ?_)
    · refine Keeps.via (State.calFailed_keeps _ _ _) ?_
      exact h13
    · refine Keeps.ite (fun _ => ?_) (fun _ => ?_)
      · refine Keeps.via (State.touchDrive_keeps _ _) ?_
        exact h15
      · exact h15

theorem State.endItem_keeps : ∀ s a1 a2 a3 a4, Keeps s (State.endItem s a1 a2 a3 a4) := by
  intro s a1 a2 a3 a4
  unfold State.endItem
  extract_lets x1 x2 x3 x4 x5 x6
  refine Keeps.cut (t := x2) ?_ (fun h7 => ?_)
  · unfold x2
    refine Keeps.via (Keeps.set_cal _ _) ?_
    exact Keeps.refl _
  refine Keeps.cut (t := x3) ?_ (fun h8 => ?_)
  · unfold x3
    refine Keeps.ite (fun _ => ?_) (fun _ => ?_)
    · refine Keeps.via (State.inject_keeps _ _ _ _) ?_
      exact h7
    · exact h7
  refine Keeps.ite (fun _ => ?_) (fun _ => ?_)
  · refine Keeps.via (State.calDue_keeps _ _ _) ?_
    refine Keeps.via (Keeps.set_cal _ _) ?_
    exact h8
  · split
    rename_i y9 y10 y11 y12 y13
    extract_lets x14 x15 x16
    refine Keeps.cut (t := x14) ?_ (fun h17 => ?_)
    · unfold x14
      refine Keeps.ite (fun _ => ?_) (fun _ => ?_)
      · refine Keeps.via (State.calCount_keeps _ _ _ _) ?_
        refine Keeps.ofPair y13 ?_
        refine Keeps.via (State.method_keeps _ _ _ _ _) ?_
        exact h8
      · refine Keeps.via (State.calFailed_keeps _ _ _) ?_
        refine Keeps.ofPair y13 ?_
        refine Keeps.via (State.method_keeps _ _ _ _ _) ?_
        exact h8
    refine Keeps.cut (t := x15) ?_ (fun h18 => ?_)
    · unfold x15
      refine Keeps.ite (fun _ => ?_) (fun _ => ?_)
      · refine Keeps.ite (fun _ => ?_) (fun _ => ?_)
        · refine Keeps.via (State.applyGain_keeps _ _ _ _) ?_
          exact h17
        · exact h17
      · exact h17
    refine Keeps.cut (t := x16) ?_ (fun h19 => ?_)
    · unfold x16
      refine Keeps.ite (fun _ => ?_) (fun _ => ?_)
      · refine Keeps.via (State.calFallsDue_keeps _ _ _) ?_
        exact h18
      · exact h18
    refine Keeps.via (State.settle_keeps _) ?_
    exact h19

theorem execCalItemRun_keeps : ∀ a0 s z, Keeps s (runRow (execCalItemRun a0 s) z) := by
  intro a0 s z
  unfold execCalItemRun
  rw [runRow_next]
  refine Keeps.whenServing (fun t1 h2 => ?_) ?_
  · split
    · rename_i y3 y4 y5
      refine Keeps.via (State.beginItem_keeps _) ?_
      exact h2
    · rename_i y6 y7 y8 y9 y10 y11 y12
      refine Keeps.via (State.endItem_keeps _ _ _ _ _) ?_
      exact h2
    · rename_i y13 y14 y15 y16 y17
      exact h2
  · exact Keeps.refl _

theorem State.calGo_keeps : ∀ s a1 a2, Keeps s (State.calGo s a1 a2) := fun _ _ _ =>
  Keeps.ofOnly (State.calGo_only _ _ _) rfl

theorem execCalItemGo_keeps : ∀ a0 a1 s z, Keeps s (runRow (execCalItemGo a0 a1 s) z) := fun _ _ _ _ =>
  Keeps.ofOnly (execCalItemGo_only _ _ _ _) rfl

theorem execCalDeferTimeout_keeps : ∀ s z, Keeps s (runRow (execCalDeferTimeout s) z) := fun _ _ =>
  Keeps.ofOnly (execCalDeferTimeout_only _ _) rfl

theorem execConverterCheckPeriod_keeps : ∀ s z, Keeps s (runRow (execConverterCheckPeriod s) z) := fun _ _ =>
  Keeps.ofOnly (execConverterCheckPeriod_only _ _) rfl

theorem State.coldDecision_keeps : ∀ s, Keeps s (State.coldDecision s) := by
  intro s
  unfold State.coldDecision
  split
  · rename_i y1 y2
    exact Keeps.refl _
  · rename_i y3 y4 y5 y6
    extract_lets x7 x8 x9
    refine Keeps.cut (t := x8) ?_ (fun h10 => ?_)
    · unfold x8
      refine Keeps.via (Keeps.set_cal _ _) ?_
      exact Keeps.refl _
    refine Keeps.ite (fun _ => ?_) (fun _ => ?_)
    · exact h10
    · refine Keeps.forBelow (fun a11 t12 h13 => ?_) ?_
      · extract_lets x14 x15
        refine Keeps.ite (fun _ => ?_) (fun _ => ?_)
        · refine Keeps.via (State.note_keeps _ _ _) ?_
          exact h13
        · refine Keeps.via (State.followTemp_keeps _ _) ?_
          refine Keeps.via (Keeps.set_cal _ _) ?_
          exact h13
      · exact h10

theorem State.storeSet_keeps : ∀ s a1, Keeps s (State.storeSet s a1) := by
  intro s a1
  unfold State.storeSet
  extract_lets x1 x2 x3 x4
  refine Keeps.cut (t := x3) ?_ (fun h5 => ?_)
  · unfold x3
    refine Keeps.via (State.nvmWrite_keeps _ _ _) ?_
    exact Keeps.refl _
  refine Keeps.via (Keeps.set_cal _ _) ?_
  exact h5

theorem State.storeMeta_keeps : ∀ s, Keeps s (State.storeMeta s) := by
  intro s
  unfold State.storeMeta
  extract_lets x1 x2 x3 x4
  refine Keeps.cut (t := x3) ?_ (fun h5 => ?_)
  · unfold x3
    refine Keeps.via (State.nvmWrite_keeps _ _ _) ?_
    exact Keeps.refl _
  refine Keeps.via (Keeps.set_cal _ _) ?_
  exact h5

theorem State.calStore_keeps : ∀ s, Keeps s (State.calStore s) := by
  intro s
  unfold State.calStore
  extract_lets x1 x2 x3
  refine Keeps.cut (t := x1) ?_ (fun h4 => ?_)
  · unfold x1
    refine Keeps.forBelow (fun a5 t6 h7 => ?_) ?_
    · refine Keeps.ite (fun _ => ?_) (fun _ => ?_)
      · refine Keeps.via (State.storeSet_keeps _ _) ?_
        exact h7
      · exact h7
    · exact Keeps.refl _
  refine Keeps.cut (t := x2) ?_ (fun h8 => ?_)
  · unfold x2
    refine Keeps.ite (fun _ => ?_) (fun _ => ?_)
    · refine Keeps.via (State.storeMeta_keeps _) ?_
      exact h4
    · exact h4
  refine Keeps.via (Keeps.set_cal _ _) ?_
  exact h8

theorem execCalStore_keeps : ∀ s z, Keeps s (runRow (execCalStore s) z) := by
  intro s z
  unfold execCalStore
  rw [runRow_next]
  refine Keeps.whenServing (fun t1 h2 => ?_) ?_
  · refine Keeps.via (State.calStore_keeps _) ?_
    exact h2
  · exact Keeps.refl _

theorem execCalPeriodicStore_keeps : ∀ s z, Keeps s (runRow (execCalPeriodicStore s) z) := by
  intro s z
  unfold execCalPeriodicStore
  rw [runRow_next]
  refine Keeps.whenServing (fun t1 h2 => ?_) ?_
  · refine Keeps.ite (fun _ => ?_) (fun _ => ?_)
    · refine Keeps.via (State.calStore_keeps _) ?_
      exact h2
    · exact h2
  · exact Keeps.refl _

theorem State.setFrom_keeps : ∀ s a1 a2, Keeps s (State.setFrom s a1 a2) := fun _ _ _ =>
  Keeps.ofOnly (State.setFrom_only _ _ _) rfl

theorem State.loadSet1_keeps : ∀ s a1, Keeps s (State.loadSet1 s a1) := fun _ _ =>
  Keeps.ofOnly (State.loadSet1_only _ _) rfl

theorem State.metaFrom_keeps : ∀ s a1, Keeps s (State.metaFrom s a1) := fun _ _ =>
  Keeps.ofOnly (State.metaFrom_only _ _) rfl

theorem State.loadCal_keeps : ∀ s, Keeps s (State.loadCal s) := fun _ =>
  Keeps.ofOnly (State.loadCal_only _) rfl

end Sys2Proof.Machine
end

