-- ==== Sys2Proof/Laws/CanonBoard.lean ====
section
/-! SUPPORT. The canonical form of the tables is kept by the board, host access, the resets and start-up. -/

namespace Sys2Proof.Machine

theorem State.railReading_keeps : ∀ s a1 a2 a3, Keeps s (State.railReading s a1 a2 a3) := by
  intro s a1 a2 a3
  unfold State.railReading
  extract_lets x1 x2 x3 x4 x5
  refine Keeps.cut (t := x3) ?_ (fun h6 => ?_)
  · unfold x3
    refine Keeps.via (Keeps.set_sns _ _) ?_
    exact Keeps.refl _
  refine Keeps.ite (fun _ => ?_) (fun _ => ?_)
  · refine Keeps.via (State.note_keeps _ _ _) ?_
    refine Keeps.via (Keeps.set_sns _ _) ?_
    exact h6
  · exact h6

theorem execVcoreLow_keeps : ∀ s z, Keeps s (runRow (execVcoreLow s) z) := by
  intro s z
  unfold execVcoreLow
  rw [runRow_next]
  refine Keeps.whenRunning (fun t1 h2 => ?_) ?_
  · refine Keeps.via (State.alarmRise_keeps _ _) ?_
    exact h2
  · exact Keeps.refl _

theorem execSpeedIndexMeasure_keeps : ∀ a0 a1 s z, Keeps s (runRow (execSpeedIndexMeasure a0 a1 s) z) := by
  intro a0 a1 s z
  unfold execSpeedIndexMeasure
  rw [runRow_next]
  refine Keeps.whenRunning (fun t1 h2 => ?_) ?_
  · extract_lets x3 x4 x5 x6 x7 x8
    refine Keeps.cut (t := x7) ?_ (fun h9 => ?_)
    · unfold x7
      refine Keeps.via (Keeps.set_stl _ _) ?_
      exact h2
    refine Keeps.cut (t := x8) ?_ (fun h10 => ?_)
    · unfold x8
      refine Keeps.via (State.railReading_keeps _ _ _ _) ?_
      exact h9
    refine Keeps.ite (fun _ => ?_) (fun _ => ?_)
    · refine Keeps.via (State.alarmRise_keeps _ _) ?_
      exact h10
    · exact h10
  · exact Keeps.refl _

theorem execFabricSlowAlarmClear_keeps : ∀ s z, Keeps s (runRow (execFabricSlowAlarmClear s) z) := by
  intro s z
  unfold execFabricSlowAlarmClear
  rw [runRow_next]
  refine Keeps.whenRunning (fun t1 h2 => ?_) ?_
  · refine Keeps.ite (fun _ => ?_) (fun _ => ?_)
    · refine Keeps.via (State.settle_keeps _) ?_
      refine Keeps.via (Keeps.set_stl _ _) ?_
      exact h2
    · exact h2
  · exact Keeps.refl _

theorem execTputWindow_keeps : ∀ a0 s z, Keeps s (runRow (execTputWindow a0 s) z) := fun _ _ _ =>
  Keeps.ofOnly (execTputWindow_only _ _ _) rfl

theorem execTputClr_keeps : ∀ a0 s z, Keeps s (runRow (execTputClr a0 s) z) := fun _ _ _ =>
  Keeps.ofOnly (execTputClr_only _ _ _) rfl

theorem State.leaveSource_keeps : ∀ s, Keeps s (State.leaveSource s) := fun _ =>
  Keeps.ofOnly (State.leaveSource_only _) rfl

theorem State.betterSource_keeps : ∀ s, Keeps s (State.betterSource s) := fun _ =>
  Keeps.ofOnly (State.betterSource_only _) rfl

theorem State.sourceUp_keeps : ∀ s a1, Keeps s (State.sourceUp s a1) := fun _ _ =>
  Keeps.ofOnly (State.sourceUp_only _ _) rfl

theorem State.clkFault_keeps : ∀ s a1, Keeps s (State.clkFault s a1) := by
  intro s a1
  unfold State.clkFault
  refine Keeps.ite (fun _ => ?_) (fun _ => ?_)
  · exact Keeps.refl _
  · extract_lets x1 x2
    refine Keeps.cut (t := x2) ?_ (fun h3 => ?_)
    · unfold x2
      refine Keeps.via (Keeps.set_clk _ _) ?_
      exact Keeps.refl _
    refine Keeps.via (State.leaveSource_keeps _) ?_
    refine Keeps.via (State.note_keeps _ _ _) ?_
    exact h3

theorem State.clkQualify_keeps : ∀ s a1 a2, Keeps s (State.clkQualify s a1 a2) := by
  intro s a1 a2
  unfold State.clkQualify
  refine Keeps.ite (fun _ => ?_) (fun _ => ?_)
  · extract_lets x1 x2 x3
    refine Keeps.cut (t := x2) ?_ (fun h4 => ?_)
    · unfold x2
      refine Keeps.via (Keeps.set_clk _ _) ?_
      exact Keeps.refl _
    refine Keeps.ite (fun _ => ?_) (fun _ => ?_)
    · refine Keeps.via (Keeps.set_clk _ _) ?_
      exact h4
    · refine Keeps.via (State.sourceUp_keeps _ _) ?_
      exact h4
  · refine Keeps.via (State.leaveSource_keeps _) ?_
    refine Keeps.via (State.note_keeps _ _ _) ?_
    refine Keeps.via (Keeps.set_clk _ _) ?_
    exact Keeps.refl _

theorem execCrystalQualified_keeps : ∀ a0 a1 s z, Keeps s (runRow (execCrystalQualified a0 a1 s) z) := by
  intro a0 a1 s z
  unfold execCrystalQualified
  rw [runRow_next]
  refine Keeps.whenPowered (fun t1 h2 => ?_) ?_
  · refine Keeps.via (State.clkQualify_keeps _ _ _) ?_
    exact h2
  · exact Keeps.refl _

theorem execXt25Requalify_keeps : ∀ a0 s z, Keeps s (runRow (execXt25Requalify a0 s) z) := by
  intro a0 s z
  unfold execXt25Requalify
  rw [runRow_next]
  refine Keeps.whenPowered (fun t1 h2 => ?_) ?_
  · refine Keeps.ite (fun _ => ?_) (fun _ => ?_)
    · exact h2
    · refine Keeps.via (State.clkQualify_keeps _ _ _) ?_
      exact h2
  · exact Keeps.refl _

theorem execClockSourceFault_keeps : ∀ a0 s z, Keeps s (runRow (execClockSourceFault a0 s) z) := by
  intro a0 s z
  unfold execClockSourceFault
  rw [runRow_next]
  refine Keeps.whenPowered (fun t1 h2 => ?_) ?_
  · refine Keeps.ite (fun _ => ?_) (fun _ => ?_)
    · refine Keeps.via (State.clkFault_keeps _ _) ?_
      exact h2
    · exact h2
  · exact Keeps.refl _

theorem execSupervisorGate_keeps : ∀ a0 a1 a2 s z, Keeps s (runRow (execSupervisorGate a0 a1 a2 s) z) := by
  intro a0 a1 a2 s z
  unfold execSupervisorGate
  rw [runRow_next]
  refine Keeps.whenPowered (fun t1 h2 => ?_) ?_
  · extract_lets x3 x4 x5 x6 x7 x8 x9 x10 x11 x12 x13 x14 x15 x16 x17 x18 x19 x20
    refine Keeps.cut (t := x15) ?_ (fun h21 => ?_)
    · unfold x15
      refine Keeps.via (Keeps.set_clk _ _) ?_
      exact h2
    refine Keeps.cut (t := x19) ?_ (fun h22 => ?_)
    · unfold x19
      refine Keeps.via (Keeps.set_clk _ _) ?_
      exact h21
    refine Keeps.cut (t := x20) ?_ (fun h23 => ?_)
    · unfold x20
      refine Keeps.ite (fun _ => ?_) (fun _ => ?_)
      · refine Keeps.via (State.sourceUp_keeps _ _) ?_
        exact h22
      · exact h22
    split
    · rename_i y24 y25 y26
      refine Keeps.via (State.clkFault_keeps _ _) ?_
      exact h21
    · rename_i y27 y28
      unfold x16
      refine Keeps.via (State.note_keeps _ _ _) ?_
      refine Keeps.via (Keeps.set_clk _ _) ?_
      exact h21
    · rename_i y29 y30
      split
      · rename_i y31 y32 y33
        refine Keeps.ite (fun _ => ?_) (fun _ => ?_)
        · exact h21
        · refine Keeps.via (State.leaveSource_keeps _) ?_
          refine Keeps.via (State.note_keeps _ _ _) ?_
          refine Keeps.via (Keeps.set_clk _ _) ?_
          exact h21
      · rename_i y34 y35
        unfold x16
        refine Keeps.via (State.note_keeps _ _ _) ?_
        refine Keeps.via (Keeps.set_clk _ _) ?_
        exact h21
      · rename_i y36 y37
        refine Keeps.ite (fun _ => ?_) (fun _ => ?_)
        · refine Keeps.via (State.sourceUp_keeps _ _) ?_
          exact h23
        · exact h23
  · exact Keeps.refl _

theorem State.resyncAll_keeps : ∀ s, Keeps s (State.resyncAll s) := fun _ =>
  Keeps.ofOnly (State.resyncAll_only _) rfl

theorem execRef25Switchover_keeps : ∀ s z, Keeps s (runRow (execRef25Switchover s) z) := fun _ _ =>
  Keeps.ofOnly (execRef25Switchover_only _ _) rfl

theorem execSourceReturn_keeps : ∀ s z, Keeps s (runRow (execSourceReturn s) z) := fun _ _ =>
  Keeps.ofOnly (execSourceReturn_only _ _) rfl

theorem execSelReq_keeps : ∀ a0 s z, Keeps s (runRow (execSelReq a0 s) z) := fun _ _ _ =>
  Keeps.ofOnly (execSelReq_only _ _ _) rfl

theorem State.trackIdle_keeps : ∀ s, Keeps s (State.trackIdle s) := fun _ =>
  Keeps.ofOnly (State.trackIdle_only _) rfl

theorem execSleepModeEntry_keeps : ∀ s z, Keeps s (runRow (execSleepModeEntry s) z) := fun _ _ =>
  Keeps.ofOnly (execSleepModeEntry_only _ _) rfl

theorem execPowerModeWake_keeps : ∀ s z, Keeps s (runRow (execPowerModeWake s) z) := fun _ _ =>
  Keeps.ofOnly (execPowerModeWake_only _ _) rfl

theorem execFmcGo_keeps : ∀ a0 s z, Keeps s (runRow (execFmcGo a0 s) z) := fun _ _ _ =>
  Keeps.ofOnly (execFmcGo_only _ _ _) rfl

theorem execFmcDone_keeps : ∀ a0 s z, Keeps s (runRow (execFmcDone a0 s) z) := fun _ _ _ =>
  Keeps.ofOnly (execFmcDone_only _ _ _) rfl

theorem State.driveOpened_keeps : ∀ s a1, Keeps s (State.driveOpened s a1) := by
  intro s a1
  unfold State.driveOpened
  extract_lets x1 x2 x3 x4 x5 x6
  refine Keeps.cut (t := x1) ?_ (fun h7 => ?_)
  · unfold x1
    refine Keeps.via (State.closeGate_keeps _ _) ?_
    exact Keeps.refl _
  refine Keeps.cut (t := x2) ?_ (fun h8 => ?_)
  · unfold x2
    refine Keeps.via (State.modDrive_keeps _ _ _) ?_
    exact h7
  refine Keeps.cut (t := x3) ?_ (fun h9 => ?_)
  · unfold x3
    refine Keeps.via (State.sledPark_keeps _ _) ?_
    refine Keeps.via (State.openFoc_keeps _ _ _) ?_
    refine Keeps.via (State.spinStopReq_keeps _ _) ?_
    exact h8
  refine Keeps.cut (t := x5) ?_ (fun h10 => ?_)
  · unfold x5
    refine Keeps.via (Keeps.set_arc _ _) ?_
    exact h9
  refine Keeps.cut (t := x6) ?_ (fun h11 => ?_)
  · unfold x6
    split
    · rename_i y12 y13 y14
      refine Keeps.forEach (fun a15 t16 h17 => ?_) ?_
      · refine Keeps.via (State.stripeBad_keeps _ _ _) ?_
        exact h17
      · exact h10
    · rename_i y18 y19
      refine Keeps.via (Keeps.set_arc _ _) ?_
      exact h9
  refine Keeps.via (State.settle_keeps _) ?_
  refine Keeps.via (State.noteWaiting_keeps _) ?_
  refine Keeps.ite (fun _ => ?_) (fun _ => ?_)
  · refine Keeps.via (State.stopRecording_keeps _) ?_
    exact h11
  · exact h11

theorem State.critAll_keeps : ∀ s, Keeps s (State.critAll s) := by
  intro s
  unfold State.critAll
  refine Keeps.forEach (fun a1 t2 h3 => ?_) ?_
  · refine Keeps.via (State.critOne_keeps _) ?_
    exact h3
  · exact Keeps.refl _

theorem State.pgoodFalls_keeps : ∀ s, Keeps s (State.pgoodFalls s) := by
  intro s
  unfold State.pgoodFalls
  extract_lets x1 x2 x3 x4
  refine Keeps.cut (t := x3) ?_ (fun h5 => ?_)
  · unfold x3
    refine Keeps.via (Keeps.set_fss_pwb _ _ _ (by rfl) (by rfl) (by rfl)) ?_
    exact Keeps.refl _
  refine Keeps.cut (t := x4) ?_ (fun h6 => ?_)
  · unfold x4
    refine Keeps.via (State.critAll_keeps _) ?_
    refine Keeps.via (State.ctrStore_keeps _ _ _) ?_
    refine Keeps.ite (fun _ => ?_) (fun _ => ?_)
    · refine Keeps.via (State.ctrStore_keeps _ _ _) ?_
      exact h5
    · exact h5
  refine Keeps.via (State.settle_keeps _) ?_
  refine Keeps.forBelow (fun a7 t8 h9 => ?_) ?_
  · refine Keeps.via (State.modSled_keeps _ _ _) ?_
    exact h9
  · exact h6

theorem State.pgoodRises_keeps : ∀ s, Keeps s (State.pgoodRises s) := by
  intro s
  unfold State.pgoodRises
  extract_lets x1 x2 x3 x4 x5
  refine Keeps.cut (t := x5) ?_ (fun h6 => ?_)
  · unfold x5
    refine Keeps.via (Keeps.set_fss_pwb _ _ _ (by rfl) (by rfl) (by rfl)) ?_
    exact Keeps.refl _
  refine Keeps.via (State.pump_keeps _) ?_
  refine Keeps.via (State.settle_keeps _) ?_
  exact h6

theorem State.levelsChanged_keeps : ∀ s a1, Keeps s (State.levelsChanged s a1) := by
  intro s a1
  unfold State.levelsChanged
  extract_lets x1 x2 x3 x4
  refine Keeps.cut (t := x1) ?_ (fun h5 => ?_)
  · unfold x1
    refine Keeps.ite (fun _ => ?_) (fun _ => ?_)
    · exact Keeps.refl _
    · refine Keeps.via (State.wakeUp_keeps _) ?_
      exact Keeps.refl _
  refine Keeps.cut (t := x2) ?_ (fun h6 => ?_)
  · unfold x2
    refine Keeps.forBelow (fun a7 t8 h9 => ?_) ?_
    · refine Keeps.ite (fun _ => ?_) (fun _ => ?_)
      · refine Keeps.via (State.driveOpened_keeps _ _) ?_
        exact h9
      · exact h9
    · exact h5
  refine Keeps.cut (t := x3) ?_ (fun h10 => ?_)
  · unfold x3
    refine Keeps.ite (fun _ => ?_) (fun _ => ?_)
    · refine Keeps.via (State.pgoodFalls_keeps _) ?_
      exact h6
    · refine Keeps.ite (fun _ => ?_) (fun _ => ?_)
      · refine Keeps.via (State.pgoodRises_keeps _) ?_
        exact h6
      · exact h6
  refine Keeps.ite (fun _ => ?_) (fun _ => ?_)
  · refine Keeps.via (Keeps.set_pwb _ _) ?_
    exact h10
  · exact h10

theorem Keeps.overLevels {s X : State} {g : State → State} (hg : ∀ t, Keeps s t → Keeps s (g t))
    (h : Keeps s X) : Keeps s (X.overLevels g) := by
  unfold State.overLevels
  exact Keeps.via (State.levelsChanged_keeps _ _) (hg X h)

theorem State.inpEvt_keeps : ∀ s a1, Keeps s (State.inpEvt s a1) := by
  intro s a1
  unfold State.inpEvt
  refine Keeps.ite (fun _ => ?_) (fun _ => ?_)
  · exact Keeps.refl _
  · extract_lets x1 x2
    refine Keeps.cut (t := x2) ?_ (fun h3 => ?_)
    · unfold x2
      refine Keeps.via (Keeps.set_inp _ _) ?_
      exact Keeps.refl _
    refine Keeps.ite (fun _ => ?_) (fun _ => ?_)
    · refine Keeps.via (State.raise_keeps _ _ _) ?_
      exact h3
    · exact h3

theorem State.judgeChatter_keeps : ∀ s a1, Keeps s (State.judgeChatter s a1) := by
  intro s a1
  unfold State.judgeChatter
  split
  · rename_i y1 y2
    exact Keeps.refl _
  · rename_i y3 y4 y5 y6
    refine Keeps.ite (fun _ => ?_) (fun _ => ?_)
    · exact Keeps.refl _
    · extract_lets x7 x8 x9 x10
      refine Keeps.cut (t := x8) ?_ (fun h11 => ?_)
      · unfold x8
        refine Keeps.via (Keeps.set_inp _ _) ?_
        exact Keeps.refl _
      refine Keeps.cut (t := x10) ?_ (fun h12 => ?_)
      · unfold x10
        refine Keeps.via (Keeps.set_inp _ _) ?_
        exact h11
      refine Keeps.ite (fun _ => ?_) (fun _ => ?_)
      · exact h11
      · refine Keeps.via (State.note_keeps _ _ _) ?_
        refine Keeps.via (State.inpEvt_keeps _ _) ?_
        exact h12

theorem State.judgePairs_keeps : ∀ s, Keeps s (State.judgePairs s) := fun _ =>
  Keeps.ofOnly (State.judgePairs_only _) rfl

theorem State.qualify_keeps : ∀ s a1 a2, Keeps s (State.qualify s a1 a2) := by
  intro s a1 a2
  unfold State.qualify
  refine Keeps.ite (fun _ => ?_) (fun _ => ?_)
  · exact Keeps.refl _
  · refine Keeps.overLevels (fun t1 h2 => ?_) ?_
    · extract_lets x3 x4 x5 x6
      refine Keeps.cut (t := x6) ?_ (fun h7 => ?_)
      · unfold x6
        refine Keeps.via (Keeps.set_inp _ _) ?_
        exact h2
      refine Keeps.via (State.judgePairs_keeps _) ?_
      refine Keeps.via (State.judgeChatter_keeps _ _) ?_
      exact h7
    · exact Keeps.refl _

theorem execInputQualified_keeps : ∀ a0 a1 s z, Keeps s (runRow (execInputQualified a0 a1 s) z) := by
  intro a0 a1 s z
  unfold execInputQualified
  rw [runRow_next]
  refine Keeps.whenRunning (fun t1 h2 => ?_) ?_
  · refine Keeps.via (State.qualify_keeps _ _ _) ?_
    exact h2
  · exact Keeps.refl _

theorem State.cleared_keeps : ∀ s a1, Keeps s (State.cleared s a1) := by
  intro s a1
  unfold State.cleared
  refine Keeps.via (State.note_keeps _ _ _) ?_
  refine Keeps.via (State.inpEvt_keeps _ _) ?_
  exact Keeps.refl _

theorem State.endChatter_keeps : ∀ s a1, Keeps s (State.endChatter s a1) := fun _ _ =>
  Keeps.ofOnly (State.endChatter_only _ _) rfl

theorem execChatterClear_keeps : ∀ a0 s z, Keeps s (runRow (execChatterClear a0 s) z) := by
  intro a0 s z
  unfold execChatterClear
  rw [runRow_next]
  refine Keeps.whenRunning (fun t1 h2 => ?_) ?_
  · extract_lets x3 x4 x5
    refine Keeps.ite (fun _ => ?_) (fun _ => ?_)
    · refine Keeps.via (State.cleared_keeps _ _) ?_
      refine Keeps.overLevels (fun t6 h7 => ?_) ?_
      · refine Keeps.via (State.endChatter_keeps _ _) ?_
        exact h7
      · exact h2
    · exact h2
  · exact Keeps.refl _

theorem State.declareStuck_keeps : ∀ s a1, Keeps s (State.declareStuck s a1) := by
  intro s a1
  unfold State.declareStuck
  refine Keeps.overLevels (fun t1 h2 => ?_) ?_
  · refine Keeps.forEach (fun a3 t4 h5 => ?_) ?_
    · refine Keeps.ite (fun _ => ?_) (fun _ => ?_)
      · exact h5
      · extract_lets x6 x7
        refine Keeps.cut (t := x7) ?_ (fun h8 => ?_)
        · unfold x7
          refine Keeps.via (Keeps.set_inp _ _) ?_
          exact h5
        refine Keeps.via (State.note_keeps _ _ _) ?_
        refine Keeps.via (State.inpEvt_keeps _ _) ?_
        exact h8
    · exact h2
  · exact Keeps.refl _

theorem execInputStuck_keeps : ∀ a0 s z, Keeps s (runRow (execInputStuck a0 s) z) := by
  intro a0 s z
  unfold execInputStuck
  rw [runRow_next]
  refine Keeps.whenRunning (fun t1 h2 => ?_) ?_
  · extract_lets x3
    refine Keeps.ite (fun _ => ?_) (fun _ => ?_)
    · split
      · rename_i y4 y5 y6 y7
        refine Keeps.ite (fun _ => ?_) (fun _ => ?_)
        · refine Keeps.via (State.declareStuck_keeps _ _) ?_
          exact h2
        · exact h2
      · rename_i y8 y9 y10
        exact h2
    · split
      · rename_i y11 y12 y13 y14 y15
        refine Keeps.ite (fun _ => ?_) (fun _ => ?_)
        · refine Keeps.via (State.declareStuck_keeps _ _) ?_
          exact h2
        · exact h2
      · rename_i y16 y17 y18
        exact h2
  · exact Keeps.refl _

theorem execStuckClear_keeps : ∀ a0 s z, Keeps s (runRow (execStuckClear a0 s) z) := by
  intro a0 s z
  unfold execStuckClear
  rw [runRow_next]
  refine Keeps.whenRunning (fun t1 h2 => ?_) ?_
  · extract_lets x3 x4
    refine Keeps.ite (fun _ => ?_) (fun _ => ?_)
    · exact h2
    · refine Keeps.ite (fun _ => ?_) (fun _ => ?_)
      · refine Keeps.ite (fun _ => ?_) (fun _ => ?_)
        · unfold x4
          extract_lets x5
          refine Keeps.cut (t := x5) ?_ (fun h6 => ?_)
          · unfold x5
            refine Keeps.overLevels (fun t7 h8 => ?_) ?_
            · refine Keeps.via (Keeps.set_inp _ _) ?_
              exact h8
            · exact h2
          refine Keeps.forEach (fun a9 t10 h11 => ?_) ?_
          · refine Keeps.via (State.cleared_keeps _ _) ?_
            exact h11
          · exact h6
        · exact h2
      · split
        · rename_i y12 y13 y14 y15 y16 y17
          refine Keeps.ite (fun _ => ?_) (fun _ => ?_)
          · unfold x4
            extract_lets x18
            refine Keeps.cut (t := x18) ?_ (fun h19 => ?_)
            · unfold x18
              refine Keeps.overLevels (fun t20 h21 => ?_) ?_
              · refine Keeps.via (Keeps.set_inp _ _) ?_
                exact h21
              · exact h2
            refine Keeps.forEach (fun a22 t23 h24 => ?_) ?_
            · refine Keeps.via (State.cleared_keeps _ _) ?_
              exact h24
            · exact h19
          · exact h2
        · rename_i y25 y26 y27 y28
          exact h2
  · exact Keeps.refl _

theorem execPdPgoodFall_keeps : ∀ s z, Keeps s (runRow (execPdPgoodFall s) z) := by
  intro s z
  unfold execPdPgoodFall
  rw [runRow_next]
  refine Keeps.whenRunning (fun t1 h2 => ?_) ?_
  · refine Keeps.via (State.qualify_keeps _ _ _) ?_
    exact h2
  · exact Keeps.refl _

theorem execPdPgoodRise_keeps : ∀ s z, Keeps s (runRow (execPdPgoodRise s) z) := by
  intro s z
  unfold execPdPgoodRise
  rw [runRow_next]
  refine Keeps.whenRunning (fun t1 h2 => ?_) ?_
  · refine Keeps.via (State.qualify_keeps _ _ _) ?_
    exact h2
  · exact Keeps.refl _

theorem execPseClassChange_keeps : ∀ a0 s z, Keeps s (runRow (execPseClassChange a0 s) z) := by
  intro a0 s z
  unfold execPseClassChange
  rw [runRow_next]
  refine Keeps.whenRunning (fun t1 h2 => ?_) ?_
  · refine Keeps.via (State.qualify_keeps _ _ _) ?_
    refine Keeps.via (State.qualify_keeps _ _ _) ?_
    exact h2
  · exact Keeps.refl _

theorem State.setRange_keeps : ∀ s a1 a2 a3, Keeps s (State.setRange s a1 a2 a3) := by
  intro s a1 a2 a3
  unfold State.setRange
  extract_lets x1 x2
  refine Keeps.cut (t := x2) ?_ (fun h3 => ?_)
  · unfold x2
    refine Keeps.via (Keeps.set_inp _ _) ?_
    exact Keeps.refl _
  refine Keeps.ite (fun _ => ?_) (fun _ => ?_)
  · refine Keeps.via (State.settle_keeps _) ?_
    refine Keeps.via (State.followTemp_keeps _ _) ?_
    exact h3
  · exact h3

theorem execAnalogueOutOfRange_keeps : ∀ a0 a1 s z, Keeps s (runRow (execAnalogueOutOfRange a0 a1 s) z) := by
  intro a0 a1 s z
  unfold execAnalogueOutOfRange
  rw [runRow_next]
  refine Keeps.whenRunning (fun t1 h2 => ?_) ?_
  · refine Keeps.ite (fun _ => ?_) (fun _ => ?_)
    · exact h2
    · refine Keeps.via (State.note_keeps _ _ _) ?_
      refine Keeps.via (State.inpEvt_keeps _ _) ?_
      refine Keeps.via (State.setRange_keeps _ _ _ _) ?_
      exact h2
  · exact Keeps.refl _

theorem execAnalogueReturn_keeps : ∀ a0 a1 s z, Keeps s (runRow (execAnalogueReturn a0 a1 s) z) := by
  intro a0 a1 s z
  unfold execAnalogueReturn
  rw [runRow_next]
  refine Keeps.whenRunning (fun t1 h2 => ?_) ?_
  · refine Keeps.ite (fun _ => ?_) (fun _ => ?_)
    · refine Keeps.via (State.note_keeps _ _ _) ?_
      refine Keeps.via (State.inpEvt_keeps _ _) ?_
      refine Keeps.via (State.setRange_keeps _ _ _ _) ?_
      exact h2
    · exact h2
  · exact Keeps.refl _

theorem State.queueAsked_keeps : ∀ s, Keeps s (State.queueAsked s) := fun _ =>
  Keeps.ofOnly (State.queueAsked_only _) rfl

theorem State.giveGrant_keeps : ∀ s, Keeps s (State.giveGrant s) := fun _ =>
  Keeps.ofOnly (State.giveGrant_only _) rfl

theorem State.runGrants_keeps : ∀ s, Keeps s (State.runGrants s) := fun _ =>
  Keeps.ofOnly (State.runGrants_only _) rfl

theorem State.coastOne_keeps : ∀ s, Keeps s (State.coastOne s) := fun _ =>
  Keeps.ofOnly (State.coastOne_only _) rfl

theorem State.budget_keeps : ∀ s a1, Keeps s (State.budget s a1) := by
  intro s a1
  unfold State.budget
  extract_lets x1 x2 x3 x4 x5 x6 x7 x8 x9 x10 x11 x12
  refine Keeps.cut (t := x10) ?_ (fun h13 => ?_)
  · unfold x10
    refine Keeps.ite (fun _ => ?_) (fun _ => ?_)
    · refine Keeps.via (State.note_keeps _ _ _) ?_
      exact Keeps.refl _
    · exact Keeps.refl _
  refine Keeps.cut (t := x12) ?_ (fun h14 => ?_)
  · unfold x12
    refine Keeps.via (Keeps.set_pwb _ _) ?_
    exact h13
  refine Keeps.via (Keeps.set_drives _ _) ?_
  exact h14

theorem State.judgeLevel_keeps : ∀ s, Keeps s (State.judgeLevel s) := by
  intro s
  unfold State.judgeLevel
  extract_lets x1 x2 x3 x4 x5
  refine Keeps.cut (t := x4) ?_ (fun h6 => ?_)
  · unfold x4
    refine Keeps.via (Keeps.set_pwb _ _) ?_
    exact Keeps.refl _
  refine Keeps.cut (t := x5) ?_ (fun h7 => ?_)
  · unfold x5
    refine Keeps.ite (fun _ => ?_) (fun _ => ?_)
    · refine Keeps.via (State.note_keeps _ _ _) ?_
      exact h6
    · exact h6
  refine Keeps.ite (fun _ => ?_) (fun _ => ?_)
  · refine Keeps.via (State.coastOne_keeps _) ?_
    exact h7
  · exact h7

theorem execBudgetSample_keeps : ∀ a0 s z, Keeps s (runRow (execBudgetSample a0 s) z) := by
  intro a0 s z
  unfold execBudgetSample
  rw [runRow_next]
  refine Keeps.whenRunning (fun t1 h2 => ?_) ?_
  · refine Keeps.via (State.settle_keeps _) ?_
    refine Keeps.via (State.runGrants_keeps _) ?_
    refine Keeps.via (State.giveGrant_keeps _) ?_
    refine Keeps.via (State.queueAsked_keeps _) ?_
    refine Keeps.via (State.judgeLevel_keeps _) ?_
    refine Keeps.via (State.budget_keeps _ _) ?_
    exact h2
  · exact Keeps.refl _

theorem State.tempTriggers_keeps : ∀ s, Keeps s (State.tempTriggers s) := by
  intro s
  unfold State.tempTriggers
  extract_lets x1 x2
  refine Keeps.cut (t := x1) ?_ (fun h3 => ?_)
  · unfold x1
    refine Keeps.via (State.followDie_keeps _) ?_
    refine Keeps.via (State.holdTemps_keeps _) ?_
    exact Keeps.refl _
  refine Keeps.cut (t := x2) ?_ (fun h4 => ?_)
  · unfold x2
    refine Keeps.ite (fun _ => ?_) (fun _ => ?_)
    · refine Keeps.via (State.calFallsDue_keeps _ _ _) ?_
      exact h3
    · exact h3
  refine Keeps.forBelow (fun a5 t6 h7 => ?_) ?_
  · extract_lets x8 x9 x10 x11
    refine Keeps.cut (t := x8) ?_ (fun h12 => ?_)
    · unfold x8
      refine Keeps.foldl (fun t14 a13 h15 => ?_) ?_
      · refine Keeps.ite (fun _ => ?_) (fun _ => ?_)
        · refine Keeps.via (State.calFallsDue_keeps _ _ _) ?_
          exact h15
        · exact h15
      · exact h7
    refine Keeps.cut (t := x11) ?_ (fun h16 => ?_)
    · unfold x11
      refine Keeps.ite (fun _ => ?_) (fun _ => ?_)
      · refine Keeps.via (State.modWst_keeps _ _ _) ?_
        exact h12
      · exact h12
    refine Keeps.via (State.followTemp_keeps _ _) ?_
    exact h16
  · exact h4

theorem State.holdTherm_keeps : ∀ s a1, Keeps s (State.holdTherm s a1) := fun _ _ =>
  Keeps.ofOnly (State.holdTherm_only _ _) rfl

theorem State.judgeDie_keeps : ∀ s, Keeps s (State.judgeDie s) := by
  intro s
  unfold State.judgeDie
  extract_lets x1 x2 x3 x4 x5 x6 x7 x8 x9
  refine Keeps.cut (t := x3) ?_ (fun h10 => ?_)
  · unfold x3
    refine Keeps.ite (fun _ => ?_) (fun _ => ?_)
    · refine Keeps.via (State.note_keeps _ _ _) ?_
      exact Keeps.refl _
    · exact Keeps.refl _
  refine Keeps.cut (t := x5) ?_ (fun h11 => ?_)
  · unfold x5
    refine Keeps.via (Keeps.set_sns _ _) ?_
    exact h10
  refine Keeps.cut (t := x7) ?_ (fun h12 => ?_)
  · unfold x7
    refine Keeps.ite (fun _ => ?_) (fun _ => ?_)
    · refine Keeps.via (State.note_keeps _ _ _) ?_
      refine Keeps.via (Keeps.set_sns _ _) ?_
      exact h11
    · exact h11
  refine Keeps.via (Keeps.set_sns _ _) ?_
  exact h12

theorem State.readDie_keeps : ∀ s a1, Keeps s (State.readDie s a1) := by
  intro s a1
  unfold State.readDie
  extract_lets x1 x2 x3 x4 x5
  refine Keeps.cut (t := x2) ?_ (fun h6 => ?_)
  · unfold x2
    refine Keeps.via (Keeps.set_sns _ _) ?_
    exact Keeps.refl _
  refine Keeps.cut (t := x4) ?_ (fun h7 => ?_)
  · unfold x4
    refine Keeps.forBelow (fun a8 t9 h10 => ?_) ?_
    · refine Keeps.ite (fun _ => ?_) (fun _ => ?_)
      · refine Keeps.via (State.note_keeps _ _ _) ?_
        exact h10
      · exact h10
    · exact h6
  refine Keeps.via (State.settle_keeps _) ?_
  refine Keeps.via (State.tempTriggers_keeps _) ?_
  refine Keeps.forBelow (fun a11 t12 h13 => ?_) ?_
  · refine Keeps.via (State.holdTherm_keeps _ _) ?_
    exact h13
  · refine Keeps.via (State.judgeDie_keeps _) ?_
    refine Keeps.via (Keeps.set_sns _ _) ?_
    exact h7

theorem State.readRails_keeps : ∀ s a1, Keeps s (State.readRails s a1) := by
  intro s a1
  unfold State.readRails
  extract_lets x1 x2 x3
  refine Keeps.cut (t := x3) ?_ (fun h4 => ?_)
  · unfold x3
    refine Keeps.via (Keeps.set_sns _ _) ?_
    exact Keeps.refl _
  refine Keeps.forBelow (fun a5 t6 h7 => ?_) ?_
  · refine Keeps.via (State.railReading_keeps _ _ _ _) ?_
    exact h7
  · exact h4

theorem State.readLaser_keeps : ∀ s a1 a2, Keeps s (State.readLaser s a1 a2) := by
  intro s a1 a2
  unfold State.readLaser
  extract_lets x1 x2 x3 x4 x5 x6
  refine Keeps.cut (t := x4) ?_ (fun h7 => ?_)
  · unfold x4
    refine Keeps.via (Keeps.set_sns _ _) ?_
    exact Keeps.refl _
  refine Keeps.ite (fun _ => ?_) (fun _ => ?_)
  · refine Keeps.via (State.note_keeps _ _ _) ?_
    refine Keeps.via (Keeps.set_sns _ _) ?_
    exact h7
  · exact h7

theorem execSensorSample_keeps : ∀ a0 s z, Keeps s (runRow (execSensorSample a0 s) z) := by
  intro a0 s z
  unfold execSensorSample
  rw [runRow_next]
  refine Keeps.whenRunning (fun t1 h2 => ?_) ?_
  · split
    · rename_i y3 y4
      refine Keeps.via (State.readDie_keeps _ _) ?_
      exact h2
    · rename_i y5 y6
      refine Keeps.via (State.settle_keeps _) ?_
      refine Keeps.via (State.tempTriggers_keeps _) ?_
      refine Keeps.forBelow (fun a7 t8 h9 => ?_) ?_
      · refine Keeps.via (State.holdTherm_keeps _ _) ?_
        exact h9
      · refine Keeps.via (Keeps.set_sns _ _) ?_
        exact h2
    · rename_i y10 y11
      refine Keeps.via (State.readRails_keeps _ _) ?_
      exact h2
    · rename_i y12 y13 y14
      refine Keeps.via (State.readLaser_keeps _ _ _) ?_
      exact h2
  · exact Keeps.refl _

theorem execHotClear_keeps : ∀ s z, Keeps s (runRow (execHotClear s) z) := fun _ _ =>
  Keeps.ofOnly (execHotClear_only _ _) rfl

theorem execThermWrite_keeps : ∀ a0 s z, Keeps s (runRow (execThermWrite a0 s) z) := by
  intro a0 s z
  unfold execThermWrite
  rw [runRow_next]
  refine Keeps.whenServing (fun t1 h2 => ?_) ?_
  · refine Keeps.via (State.storeReg_keeps _ _ _) ?_
    exact h2
  · exact Keeps.refl _

theorem State.commitClock_keeps : ∀ s a1, Keeps s (State.commitClock s a1) := by
  intro s a1
  unfold State.commitClock
  extract_lets x1 x2 x3 x4 x5 x6 x7 x8
  refine Keeps.cut (t := x5) ?_ (fun h9 => ?_)
  · unfold x5
    refine Keeps.via (Keeps.set_tm _ _) ?_
    exact Keeps.refl _
  refine Keeps.cut (t := x6) ?_ (fun h10 => ?_)
  · unfold x6
    refine Keeps.via (State.note_keeps _ _ _) ?_
    exact h9
  refine Keeps.cut (t := x7) ?_ (fun h11 => ?_)
  · unfold x7
    refine Keeps.via (State.note_keeps _ _ _) ?_
    refine Keeps.via (State.flagPeriods_keeps _ _) ?_
    exact h10
  refine Keeps.cut (t := x8) ?_ (fun h12 => ?_)
  · unfold x8
    refine Keeps.ite (fun _ => ?_) (fun _ => ?_)
    · refine Keeps.via (State.postOwn_keeps _ _ _ _) ?_
      exact h11
    · refine Keeps.via (State.jumpPeriods_keeps _) ?_
      exact h10
  refine Keeps.ite (fun _ => ?_) (fun _ => ?_)
  · refine Keeps.via (State.coldDecision_keeps _) ?_
    exact h12
  · exact h12

theorem State.wrap_keeps : ∀ s, Keeps s (State.wrap s) := by
  intro s
  unfold State.wrap
  extract_lets x1 x2 x3 x4
  refine Keeps.cut (t := x3) ?_ (fun h5 => ?_)
  · unfold x3
    refine Keeps.ite (fun _ => ?_) (fun _ => ?_)
    · refine Keeps.via (State.useFree_keeps _) ?_
      exact Keeps.refl _
    · exact Keeps.refl _
  refine Keeps.ite (fun _ => ?_) (fun _ => ?_)
  · refine Keeps.via (State.commitClock_keeps _ _) ?_
    exact h5
  · refine Keeps.via (Keeps.set_tm _ _) ?_
    exact h5

theorem tick_keeps : ∀ s, Keeps s (tick s) := by
  intro s
  unfold tick
  refine Keeps.ite (fun _ => ?_) (fun _ => ?_)
  · exact Keeps.refl _
  · extract_lets x1 x2
    refine Keeps.cut (t := x1) ?_ (fun h3 => ?_)
    · unfold x1
      refine Keeps.via (Keeps.set_tm _ _) ?_
      exact Keeps.refl _
    refine Keeps.via (State.trackIdle_keeps _) ?_
    refine Keeps.ite (fun _ => ?_) (fun _ => ?_)
    · refine Keeps.via (State.wrap_keeps _) ?_
      exact h3
    · refine Keeps.via (Keeps.set_tm _ _) ?_
      exact h3

theorem execTimSecLoRead_keeps : ∀ s z, Keeps s (runRow (execTimSecLoRead s) z) := fun _ _ =>
  Keeps.ofOnly (execTimSecLoRead_only _ _) rfl

theorem execSetClock_keeps : ∀ s z, Keeps s (runRow (execSetClock s) z) := fun _ _ =>
  Keeps.ofOnly (execSetClock_only _ _) rfl

theorem State.cancelSet_keeps : ∀ s, Keeps s (State.cancelSet s) := fun _ =>
  Keeps.ofOnly (State.cancelSet_only _) rfl

theorem execCancel_keeps : ∀ s z, Keeps s (runRow (execCancel s) z) := fun _ _ =>
  Keeps.ofOnly (execCancel_only _ _) rfl

theorem execClockCommit_keeps : ∀ s z, Keeps s (runRow (execClockCommit s) z) := by
  intro s z
  unfold execClockCommit
  rw [runRow_next]
  refine Keeps.whenRunning (fun t1 h2 => ?_) ?_
  · refine Keeps.ite (fun _ => ?_) (fun _ => ?_)
    · extract_lets x3
      refine Keeps.cut (t := x3) ?_ (fun h4 => ?_)
      · unfold x3
        refine Keeps.via (Keeps.set_tm _ _) ?_
        exact h2
      refine Keeps.via (State.commitClock_keeps _ _) ?_
      exact h4
    · exact h2
  · exact Keeps.refl _

theorem State.readWord_keeps : ∀ s a1, Keeps s (State.readWord s a1).2 := fun _ _ =>
  Keeps.ofOnly (State.readWord_only _ _) rfl

theorem State.readBar0_keeps : ∀ a0 a1 s, Keeps s (State.readBar0 a0 a1 s).2 := fun _ _ _ =>
  Keeps.ofOnly (State.readBar0_only _ _ _) rfl

theorem State.readBar2_keeps : ∀ a0 s, Keeps s (State.readBar2 a0 s).2 := fun _ _ =>
  Keeps.ofOnly (State.readBar2_only _ _) rfl

theorem State.readCfg_keeps : ∀ a0 a1 s, Keeps s (State.readCfg a0 a1 s).2 := fun _ _ _ =>
  Keeps.ofOnly (State.readCfg_only _ _ _) rfl

theorem onesRead_keeps : ∀ a0 s, Keeps s (onesRead a0 s).2 := fun _ _ =>
  Keeps.ofOnly (onesRead_only _ _) rfl

theorem State.configRead_keeps : ∀ s a1 a2 a3, Keeps s (State.configRead s a1 a2 a3) := fun _ _ _ _ =>
  Keeps.ofOnly (State.configRead_only _ _ _ _) rfl

theorem execLatchedPairRead_keeps : ∀ a0 a1 s z, Keeps s (runRow (execLatchedPairRead a0 a1 s) z) := fun _ _ _ _ =>
  Keeps.ofOnly (execLatchedPairRead_only _ _ _ _) rfl

theorem State.axisCmd_keeps : ∀ s a1 a2, Keeps s (State.axisCmd s a1 a2) := by
  intro s a1 a2
  unfold State.axisCmd
  extract_lets x1 x2
  split
  · rename_i y3 y4
    refine Keeps.via (execOpenAxis_keeps _ _ _) ?_
    exact Keeps.refl _
  · rename_i y5 y6
    refine Keeps.via (execCloseAxis_keeps _ _ _) ?_
    exact Keeps.refl _
  · rename_i y7 y8
    refine Keeps.ite (fun _ => ?_) (fun _ => ?_)
    · refine Keeps.via (execAcquire_keeps _ _ _ _) ?_
      exact Keeps.refl _
    · exact Keeps.refl _
  · rename_i y9 y10
    refine Keeps.ite (fun _ => ?_) (fun _ => ?_)
    · refine Keeps.via (execSeek_keeps _ _ _ _) ?_
      exact Keeps.refl _
    · exact Keeps.refl _
  · rename_i y11 y12
    refine Keeps.ite (fun _ => ?_) (fun _ => ?_)
    · refine Keeps.via (execLayerJump_keeps _ _ _ _) ?_
      exact Keeps.refl _
    · exact Keeps.refl _
  · rename_i y13 y14
    refine Keeps.via (execReleaseToHeron_keeps _ _ _) ?_
    exact Keeps.refl _
  · rename_i y15 y16 y17 y18 y19 y20 y21
    exact Keeps.refl _

theorem State.spinCmd_keeps : ∀ s a1 a2, Keeps s (State.spinCmd s a1 a2) := by
  intro s a1 a2
  unfold State.spinCmd
  split
  · rename_i y1 y2
    refine Keeps.via (execSpinStart_keeps _ _ _) ?_
    exact Keeps.refl _
  · rename_i y3 y4
    refine Keeps.via (execSpinStop_keeps _ _ _) ?_
    exact Keeps.refl _
  · rename_i y5 y6
    refine Keeps.via (execCoast_keeps _ _ _) ?_
    exact Keeps.refl _
  · rename_i y7 y8
    refine Keeps.via (execClearFault_keeps _ _ _) ?_
    exact Keeps.refl _
  · rename_i y9 y10 y11 y12 y13
    exact Keeps.refl _

theorem State.sledCmd_keeps : ∀ s a1 a2, Keeps s (State.sledCmd s a1 a2) := by
  intro s a1 a2
  unfold State.sledCmd
  split
  · rename_i y1 y2
    refine Keeps.via (execTravel_keeps _ _ _) ?_
    exact Keeps.refl _
  · rename_i y3 y4
    refine Keeps.via (execSledSeek_keeps _ _ _) ?_
    exact Keeps.refl _
  · rename_i y5 y6
    refine Keeps.via (execHome_keeps _ _ _) ?_
    exact Keeps.refl _
  · rename_i y7 y8
    refine Keeps.via (execPark_keeps _ _ _) ?_
    exact Keeps.refl _
  · rename_i y9 y10
    refine Keeps.via (execSledStop_keeps _ _ _) ?_
    exact Keeps.refl _
  · rename_i y11 y12
    refine Keeps.via (execSledRelease_keeps _ _ _) ?_
    exact Keeps.refl _
  · rename_i y13 y14
    refine Keeps.via (execSledClear_keeps _ _ _) ?_
    exact Keeps.refl _
  · rename_i y15 y16 y17 y18 y19 y20 y21 y22
    exact Keeps.refl _

theorem State.writeSrv_keeps : ∀ s a1 a2, Keeps s (State.writeSrv s a1 a2) := by
  intro s a1 a2
  unfold State.writeSrv
  extract_lets x1 x2
  refine Keeps.ite (fun _ => ?_) (fun _ => ?_)
  · refine Keeps.via (State.axisCmd_keeps _ _ _) ?_
    refine Keeps.via (State.noteRsv_keeps _ _ _) ?_
    exact Keeps.refl _
  · refine Keeps.ite (fun _ => ?_) (fun _ => ?_)
    · refine Keeps.via (execSwap_keeps _ _ _ _) ?_
      refine Keeps.via (State.noteRsv_keeps _ _ _) ?_
      exact Keeps.refl _
    · refine Keeps.ite (fun _ => ?_) (fun _ => ?_)
      · refine Keeps.ite (fun _ => ?_) (fun _ => ?_)
        · refine Keeps.via (State.accError_keeps _ _ _ _) ?_
          exact Keeps.refl _
        · refine Keeps.via (State.storeReg_keeps _ _ _) ?_
          exact Keeps.refl _
      · refine Keeps.ite (fun _ => ?_) (fun _ => ?_)
        · refine Keeps.via (State.storeReg_keeps _ _ _) ?_
          exact Keeps.refl _
        · refine Keeps.via (State.storeReg_keeps _ _ _) ?_
          exact Keeps.refl _

theorem State.writeSld_keeps : ∀ s a1 a2, Keeps s (State.writeSld s a1 a2) := by
  intro s a1 a2
  unfold State.writeSld
  extract_lets x1 x2
  refine Keeps.ite (fun _ => ?_) (fun _ => ?_)
  · refine Keeps.via (State.modSled_keeps _ _ _) ?_
    refine Keeps.via (State.storeReg_keeps _ _ _) ?_
    exact Keeps.refl _
  · refine Keeps.ite (fun _ => ?_) (fun _ => ?_)
    · refine Keeps.via (State.sledCmd_keeps _ _ _) ?_
      refine Keeps.via (State.noteRsv_keeps _ _ _) ?_
      exact Keeps.refl _
    · refine Keeps.ite (fun _ => ?_) (fun _ => ?_)
      · refine Keeps.via (State.sledRefuse_keeps _ _) ?_
        exact Keeps.refl _
      · refine Keeps.via (State.storeReg_keeps _ _ _) ?_
        exact Keeps.refl _

theorem State.writeRdc_keeps : ∀ s a1 a2, Keeps s (State.writeRdc s a1 a2) := by
  intro s a1 a2
  unfold State.writeRdc
  extract_lets x1 x2
  refine Keeps.ite (fun _ => ?_) (fun _ => ?_)
  · refine Keeps.via (State.modWst_keeps _ _ _) ?_
    refine Keeps.via (State.storeReg_keeps _ _ _) ?_
    exact Keeps.refl _
  · refine Keeps.ite (fun _ => ?_) (fun _ => ?_)
    · refine Keeps.ite (fun _ => ?_) (fun _ => ?_)
      · refine Keeps.via (execOpcGo_keeps _ _ _) ?_
        refine Keeps.via (State.noteRsv_keeps _ _ _) ?_
        exact Keeps.refl _
      · refine Keeps.via (State.noteRsv_keeps _ _ _) ?_
        exact Keeps.refl _
    · refine Keeps.via (State.storeReg_keeps _ _ _) ?_
      exact Keeps.refl _

theorem State.mchOp_keeps : ∀ s a1, Keeps s (State.mchOp s a1) := fun _ _ =>
  Keeps.ofOnly (State.mchOp_only _ _) rfl

theorem State.hregCtl_keeps : ∀ s a1, Keeps s (State.hregCtl s a1) := by
  intro s a1
  unfold State.hregCtl
  extract_lets x1 x2 x3
  refine Keeps.cut (t := x1) ?_ (fun h4 => ?_)
  · unfold x1
    refine Keeps.via (State.noteRsv_keeps _ _ _) ?_
    exact Keeps.refl _
  refine Keeps.cut (t := x3) ?_ (fun h5 => ?_)
  · unfold x3
    refine Keeps.via (Keeps.set_fss _ _ (by rfl) (by rfl) (by rfl)) ?_
    exact h4
  refine Keeps.ite (fun _ => ?_) (fun _ => ?_)
  · refine Keeps.via (execHregEnable_keeps _ _) ?_
    exact h5
  · refine Keeps.via (execHregDisable_keeps _ _) ?_
    exact h5

theorem State.accClear_keeps : ∀ s, Keeps s (State.accClear s) := fun _ =>
  Keeps.ofOnly (State.accClear_only _) rfl

theorem State.brownClear_keeps : ∀ s, Keeps s (State.brownClear s) := by
  intro s
  unfold State.brownClear
  refine Keeps.via (State.ctrStore_keeps _ _ _) ?_
  exact Keeps.refl _

theorem State.writeLow_keeps : ∀ s a1 a2, Keeps s (State.writeLow s a1 a2) := by
  intro s a1 a2
  unfold State.writeLow
  refine Keeps.ite (fun _ => ?_) (fun _ => ?_)
  · refine Keeps.ite (fun _ => ?_) (fun _ => ?_)
    · exact Keeps.refl _
    · refine Keeps.via (State.storeReg_keeps _ _ _) ?_
      exact Keeps.refl _
  · refine Keeps.ite (fun _ => ?_) (fun _ => ?_)
    · exact Keeps.refl _
    · refine Keeps.ite (fun _ => ?_) (fun _ => ?_)
      · refine Keeps.via (State.accError_keeps _ _ _ _) ?_
        exact Keeps.refl _
      · split
        · rename_i y1 y2 y3 y4
          extract_lets x5 x6
          refine Keeps.cut (t := x5) ?_ (fun h7 => ?_)
          · unfold x5
            refine Keeps.via (State.storeReg_keeps _ _ _) ?_
            exact Keeps.refl _
          refine Keeps.via (Keeps.set_epoch _ _) ?_
          exact h7
        · rename_i y8 y9 y10 y11
          refine Keeps.via (execEpochCommit_keeps _ _ _) ?_
          refine Keeps.via (State.noteRsv_keeps _ _ _) ?_
          exact Keeps.refl _
        · rename_i y12 y13 y14 y15
          extract_lets x16 x17
          refine Keeps.cut (t := x16) ?_ (fun h18 => ?_)
          · unfold x16
            refine Keeps.via (State.storeReg_keeps _ _ _) ?_
            exact Keeps.refl _
          refine Keeps.via (Keeps.set_clk _ _) ?_
          exact h18
        · rename_i y19 y20 y21 y22
          refine Keeps.via (execSelReq_keeps _ _ _) ?_
          refine Keeps.via (State.noteRsv_keeps _ _ _) ?_
          exact Keeps.refl _
        · rename_i y23 y24 y25 y26
          refine Keeps.via (execFmcGo_keeps _ _ _) ?_
          refine Keeps.via (State.noteRsv_keeps _ _ _) ?_
          exact Keeps.refl _
        · rename_i y27 y28 y29 y30
          extract_lets x31 x32
          refine Keeps.cut (t := x31) ?_ (fun h33 => ?_)
          · unfold x31
            refine Keeps.via (State.storeReg_keeps _ _ _) ?_
            exact Keeps.refl _
          refine Keeps.via (Keeps.set_clk _ _) ?_
          exact h33
        · rename_i y34 y35 y36 y37
          refine Keeps.via (execTputClr_keeps _ _ _) ?_
          refine Keeps.via (State.noteRsv_keeps _ _ _) ?_
          exact Keeps.refl _
        · rename_i y38 y39 y40 y41
          refine Keeps.ite (fun _ => ?_) (fun _ => ?_)
          · refine Keeps.via (State.accClear_keeps _) ?_
            refine Keeps.via (State.noteRsv_keeps _ _ _) ?_
            exact Keeps.refl _
          · refine Keeps.via (State.noteRsv_keeps _ _ _) ?_
            exact Keeps.refl _
        · rename_i y42 y43 y44 y45
          refine Keeps.ite (fun _ => ?_) (fun _ => ?_)
          · refine Keeps.via (State.brownClear_keeps _) ?_
            refine Keeps.via (State.noteRsv_keeps _ _ _) ?_
            exact Keeps.refl _
          · refine Keeps.via (State.noteRsv_keeps _ _ _) ?_
            exact Keeps.refl _
        · rename_i y46 y47 y48 y49
          refine Keeps.via (execQuarClr_keeps _ _ _) ?_
          refine Keeps.via (State.noteRsv_keeps _ _ _) ?_
          exact Keeps.refl _
        · rename_i y50 y51 y52 y53
          refine Keeps.via (State.hregCtl_keeps _ _) ?_
          exact Keeps.refl _
        · rename_i y54 y55 y56 y57
          refine Keeps.via (execMchEnableWrite_keeps _ _ _) ?_
          exact Keeps.refl _
        · rename_i y58 y59 y60 y61
          refine Keeps.via (State.mchOp_keeps _ _) ?_
          refine Keeps.via (State.noteRsv_keeps _ _ _) ?_
          exact Keeps.refl _
        · rename_i y62 y63 y64 y65
          extract_lets x66 x67
          refine Keeps.cut (t := x66) ?_ (fun h68 => ?_)
          · unfold x66
            refine Keeps.via (State.storeReg_keeps _ _ _) ?_
            exact Keeps.refl _
          refine Keeps.via (Keeps.set_mch _ _) ?_
          exact h68
        · rename_i y69 y70 y71 y72
          extract_lets x73 x74
          refine Keeps.cut (t := x73) ?_ (fun h75 => ?_)
          · unfold x73
            refine Keeps.via (State.storeReg_keeps _ _ _) ?_
            exact Keeps.refl _
          refine Keeps.via (Keeps.set_mch _ _) ?_
          exact h75
        · rename_i y76 y77 y78 y79
          refine Keeps.via (execWayEn_keeps _ _ _) ?_
          refine Keeps.via (State.noteRsv_keeps _ _ _) ?_
          exact Keeps.refl _
        · rename_i y80 y81 y82 y83 y84 y85 y86 y87 y88 y89 y90 y91 y92 y93 y94 y95 y96 y97 y98 y99
          refine Keeps.via (State.storeReg_keeps _ _ _) ?_
          exact Keeps.refl _

theorem State.writeHigh_keeps : ∀ s a1 a2, Keeps s (State.writeHigh s a1 a2) := by
  intro s a1 a2
  unfold State.writeHigh
  split
  · rename_i y1
    extract_lets x2 x3
    refine Keeps.cut (t := x2) ?_ (fun h4 => ?_)
    · unfold x2
      refine Keeps.via (State.storeReg_keeps _ _ _) ?_
      exact Keeps.refl _
    refine Keeps.via (Keeps.set_cal _ _) ?_
    exact h4
  · rename_i y5
    extract_lets x6 x7
    refine Keeps.cut (t := x6) ?_ (fun h8 => ?_)
    · unfold x6
      refine Keeps.via (State.noteRsv_keeps _ _ _) ?_
      exact Keeps.refl _
    refine Keeps.cut (t := x7) ?_ (fun h9 => ?_)
    · unfold x7
      refine Keeps.ite (fun _ => ?_) (fun _ => ?_)
      · refine Keeps.via (execCalItemGo_keeps _ _ _ _) ?_
        exact h8
      · exact h8
    refine Keeps.ite (fun _ => ?_) (fun _ => ?_)
    · refine Keeps.via (execCalStore_keeps _ _) ?_
      exact h9
    · exact h9
  · rename_i y10
    refine Keeps.via (execThermWrite_keeps _ _ _) ?_
    refine Keeps.via (State.noteRsv_keeps _ _ _) ?_
    exact Keeps.refl _
  · rename_i y11
    refine Keeps.ite (fun _ => ?_) (fun _ => ?_)
    · refine Keeps.via (State.accError_keeps _ _ _ _) ?_
      exact Keeps.refl _
    · refine Keeps.via (State.storeReg_keeps _ _ _) ?_
      exact Keeps.refl _
  · rename_i y12
    refine Keeps.ite (fun _ => ?_) (fun _ => ?_)
    · refine Keeps.via (State.accError_keeps _ _ _ _) ?_
      exact Keeps.refl _
    · refine Keeps.via (State.storeReg_keeps _ _ _) ?_
      exact Keeps.refl _
  · rename_i y13
    refine Keeps.ite (fun _ => ?_) (fun _ => ?_)
    · refine Keeps.via (State.accError_keeps _ _ _ _) ?_
      exact Keeps.refl _
    · refine Keeps.via (State.storeReg_keeps _ _ _) ?_
      exact Keeps.refl _
  · rename_i y14
    extract_lets x15
    refine Keeps.cut (t := x15) ?_ (fun h16 => ?_)
    · unfold x15
      refine Keeps.via (State.noteRsv_keeps _ _ _) ?_
      exact Keeps.refl _
    refine Keeps.ite (fun _ => ?_) (fun _ => ?_)
    · refine Keeps.via (execSetClock_keeps _ _) ?_
      exact h16
    · refine Keeps.ite (fun _ => ?_) (fun _ => ?_)
      · refine Keeps.via (execCancel_keeps _ _) ?_
        exact h16
      · exact h16
  · rename_i y17
    extract_lets x18 x19
    refine Keeps.cut (t := x18) ?_ (fun h20 => ?_)
    · unfold x18
      refine Keeps.via (State.storeReg_keeps _ _ _) ?_
      exact Keeps.refl _
    refine Keeps.via (Keeps.set_tm _ _) ?_
    exact h20
  · rename_i y21
    extract_lets x22 x23
    refine Keeps.cut (t := x22) ?_ (fun h24 => ?_)
    · unfold x22
      refine Keeps.via (State.storeReg_keeps _ _ _) ?_
      exact Keeps.refl _
    refine Keeps.via (Keeps.set_log _ _) ?_
    exact h24
  · rename_i y25
    extract_lets x26 x27
    refine Keeps.cut (t := x26) ?_ (fun h28 => ?_)
    · unfold x26
      refine Keeps.via (State.storeReg_keeps _ _ _) ?_
      exact Keeps.refl _
    refine Keeps.via (Keeps.set_inp _ _) ?_
    exact h28
  · rename_i y29 y30 y31 y32 y33 y34 y35 y36 y37 y38 y39
    refine Keeps.via (State.storeReg_keeps _ _ _) ?_
    exact Keeps.refl _

theorem State.writeBar2_keeps : ∀ s a1 a2, Keeps s (State.writeBar2 s a1 a2) := by
  intro s a1 a2
  unfold State.writeBar2
  refine Keeps.ite (fun _ => ?_) (fun _ => ?_)
  · exact Keeps.refl _
  · refine Keeps.ite (fun _ => ?_) (fun _ => ?_)
    · refine Keeps.via (State.writeLow_keeps _ _ _) ?_
      exact Keeps.refl _
    · refine Keeps.ite (fun _ => ?_) (fun _ => ?_)
      · refine Keeps.via (State.writeRdc_keeps _ _ _) ?_
        exact Keeps.refl _
      · refine Keeps.ite (fun _ => ?_) (fun _ => ?_)
        · refine Keeps.via (State.writeSrv_keeps _ _ _) ?_
          exact Keeps.refl _
        · refine Keeps.ite (fun _ => ?_) (fun _ => ?_)
          · refine Keeps.ite (fun _ => ?_) (fun _ => ?_)
            · refine Keeps.via (State.spinCmd_keeps _ _ _) ?_
              refine Keeps.via (State.noteRsv_keeps _ _ _) ?_
              exact Keeps.refl _
            · refine Keeps.via (State.storeReg_keeps _ _ _) ?_
              exact Keeps.refl _
          · refine Keeps.ite (fun _ => ?_) (fun _ => ?_)
            · refine Keeps.via (State.writeSld_keeps _ _ _) ?_
              exact Keeps.refl _
            · refine Keeps.via (State.writeHigh_keeps _ _ _) ?_
              exact Keeps.refl _

theorem State.writeMsix_keeps : ∀ s a1 a2 a3, Keeps s (State.writeMsix s a1 a2 a3) := by
  intro s a1 a2 a3
  unfold State.writeMsix
  extract_lets x1 x2
  split
  · rename_i y3 y4
    unfold x2
    refine Keeps.via (State.modFn_keeps _ _ _) ?_
    exact Keeps.refl _
  · rename_i y5 y6
    unfold x2
    refine Keeps.via (State.modFn_keeps _ _ _) ?_
    exact Keeps.refl _
  · rename_i y7 y8
    unfold x2
    refine Keeps.via (State.modFn_keeps _ _ _) ?_
    exact Keeps.refl _
  · rename_i y9 y10 y11 y12
    refine Keeps.via (State.releasePending_keeps _ _) ?_
    unfold x2
    refine Keeps.via (State.modFn_keeps _ _ _) ?_
    exact Keeps.refl _

theorem State.writeRing_keeps : ∀ s a1 a2 a3, Keeps s (State.writeRing s a1 a2 a3) := by
  intro s a1 a2 a3
  unfold State.writeRing
  extract_lets x1 x2 x3
  refine Keeps.ite (fun _ => ?_) (fun _ => ?_)
  · refine Keeps.ite (fun _ => ?_) (fun _ => ?_)
    · refine Keeps.via (execRingEnable_keeps _ _ _ _ _ _) ?_
      exact Keeps.refl _
    · refine Keeps.via (execRingDisable_keeps _ _ _ _ _ _) ?_
      exact Keeps.refl _
  · refine Keeps.ite (fun _ => ?_) (fun _ => ?_)
    · exact Keeps.refl _
    · refine Keeps.via (State.storeReg_keeps _ _ _) ?_
      exact Keeps.refl _

theorem State.writeBar0_keeps : ∀ s a1 a2 a3, Keeps s (State.writeBar0 s a1 a2 a3) := by
  intro s a1 a2 a3
  unfold State.writeBar0
  extract_lets x1 x2
  refine Keeps.ite (fun _ => ?_) (fun _ => ?_)
  · refine Keeps.via (State.writeMsix_keeps _ _ _ _) ?_
    exact Keeps.refl _
  · refine Keeps.ite (fun _ => ?_) (fun _ => ?_)
    · refine Keeps.via (execSharedPageWrite_keeps _ _ _ _ _) ?_
      exact Keeps.refl _
    · refine Keeps.ite (fun _ => ?_) (fun _ => ?_)
      · exact Keeps.refl _
      · refine Keeps.ite (fun _ => ?_) (fun _ => ?_)
        · refine Keeps.ite (fun _ => ?_) (fun _ => ?_)
          · refine Keeps.via (State.accError_keeps _ _ _ _) ?_
            exact Keeps.refl _
          · refine Keeps.via (State.storeReg_keeps _ _ _) ?_
            exact Keeps.refl _
        · refine Keeps.ite (fun _ => ?_) (fun _ => ?_)
          · refine Keeps.ite (fun _ => ?_) (fun _ => ?_)
            · refine Keeps.via (State.accError_keeps _ _ _ _) ?_
              exact Keeps.refl _
            · refine Keeps.via (State.storeReg_keeps _ _ _) ?_
              exact Keeps.refl _
          · refine Keeps.ite (fun _ => ?_) (fun _ => ?_)
            · refine Keeps.via (State.writeRing_keeps _ _ _ _) ?_
              exact Keeps.refl _
            · split
              · rename_i y3 y4 y5 y6 y7 y8 y9
                refine Keeps.ite (fun _ => ?_) (fun _ => ?_)
                · exact Keeps.refl _
                · refine Keeps.via (State.storeReg_keeps _ _ _) ?_
                  exact Keeps.refl _
              · rename_i y10 y11 y12 y13 y14 y15 y16
                refine Keeps.ite (fun _ => ?_) (fun _ => ?_)
                · exact Keeps.refl _
                · refine Keeps.via (State.storeReg_keeps _ _ _) ?_
                  exact Keeps.refl _
              · rename_i y17 y18 y19 y20 y21 y22 y23
                refine Keeps.via (State.modFn_keeps _ _ _) ?_
                refine Keeps.via (State.storeReg_keeps _ _ _) ?_
                exact Keeps.refl _
              · rename_i y24 y25 y26 y27 y28 y29 y30
                refine Keeps.via (execMbInPost_keeps _ _ _ _) ?_
                refine Keeps.via (State.noteRsv_keeps _ _ _) ?_
                exact Keeps.refl _
              · rename_i y31 y32 y33 y34 y35 y36 y37
                refine Keeps.via (execMbOutAck_keeps _ _ _ _) ?_
                refine Keeps.via (State.noteRsv_keeps _ _ _) ?_
                exact Keeps.refl _
              · rename_i y38 y39 y40 y41 y42 y43 y44
                refine Keeps.via (execGoTask_keeps _ _ _ _) ?_
                refine Keeps.via (State.noteRsv_keeps _ _ _) ?_
                exact Keeps.refl _
              · rename_i y45 y46 y47 y48 y49 y50 y51
                refine Keeps.via (State.modFn_keeps _ _ _) ?_
                refine Keeps.via (State.storeReg_keeps _ _ _) ?_
                exact Keeps.refl _
              · rename_i y52 y53 y54 y55 y56 y57 y58
                refine Keeps.via (execDbEnWrite_keeps _ _ _ _) ?_
                exact Keeps.refl _
              · rename_i y59 y60 y61 y62 y63 y64 y65
                refine Keeps.via (execWake_keeps _ _ _) ?_
                exact Keeps.refl _
              · rename_i y66 y67 y68 y69 y70 y71 y72
                refine Keeps.via (State.modFn_keeps _ _ _) ?_
                refine Keeps.via (State.storeReg_keeps _ _ _) ?_
                exact Keeps.refl _
              · rename_i y73 y74 y75 y76 y77 y78 y79 y80 y81 y82 y83 y84 y85 y86 y87 y88 y89
                refine Keeps.via (State.storeReg_keeps _ _ _) ?_
                exact Keeps.refl _

theorem State.writeHst_keeps : ∀ s a1 a2, Keeps s (State.writeHst s a1 a2) := by
  intro s a1 a2
  unfold State.writeHst
  refine Keeps.ite (fun _ => ?_) (fun _ => ?_)
  · refine Keeps.via (execHstCntClr_keeps _ _ _) ?_
    exact Keeps.refl _
  · refine Keeps.ite (fun _ => ?_) (fun _ => ?_)
    · refine Keeps.via (State.resume_keeps _) ?_
      refine Keeps.via (State.storeReg_keeps _ _ _) ?_
      exact Keeps.refl _
    · exact Keeps.refl _

theorem execAccClr_keeps : ∀ s z, Keeps s (runRow (execAccClr s) z) := fun _ _ =>
  Keeps.ofOnly (execAccClr_only _ _) rfl

theorem execRstCntClear_keeps : ∀ s z, Keeps s (runRow (execRstCntClear s) z) := by
  intro s z
  unfold execRstCntClear
  rw [runRow_next]
  refine Keeps.hostBar2 (fun t1 h2 => ?_) ?_
  · refine Keeps.via (State.brownClear_keeps _) ?_
    exact h2
  · exact Keeps.refl _

theorem State.line_keeps : ∀ s a1, Keeps s (State.line s a1) := fun _ _ =>
  Keeps.ofOnly (State.line_only _ _) rfl

theorem State.status_keeps : ∀ s a1, Keeps s (State.status s a1) := fun _ _ =>
  Keeps.ofOnly (State.status_only _ _) rfl

theorem State.monEvent_keeps : ∀ s a1 a2, Keeps s (State.monEvent s a1 a2) := by
  intro s a1 a2
  unfold State.monEvent
  refine Keeps.via (Keeps.set_mon _ _ (by rfl)) ?_
  exact Keeps.refl _

theorem State.monRefuse_keeps : ∀ s a1, Keeps s (State.monRefuse s a1) := by
  intro s a1
  unfold State.monRefuse
  refine Keeps.via (State.status_keeps _ _) ?_
  refine Keeps.via (State.monEvent_keeps _ _ _) ?_
  exact Keeps.refl _

theorem Keeps.atMonitor {s X z : State} {b : Bool} {g : State → State} (hg : ∀ t, Keeps s t → Keeps s (g t))
    (h : Keeps s X) : Keeps s (runRow (atMonitor b X g) z) := by
  have hs : Keeps s { X with mon := { X.mon with lastLine := X.tm.mono } } :=
    Keeps.via (Keeps.set_mon _ _ (by rfl)) h
  unfold Sys2Proof.Machine.atMonitor
  rw [runRow_next]
  refine Keeps.ite (fun _ => ?_) (fun _ => h)
  exact Keeps.ite (fun _ => Keeps.via (State.monRefuse_keeps _ _) hs) (fun _ => hg _ hs)

theorem execMonI_keeps : ∀ s z, Keeps s (runRow (execMonI s) z) := by
  intro s z
  unfold execMonI
  refine Keeps.atMonitor (fun t1 h2 => ?_) ?_
  · extract_lets x3 x4 x5 x6 x7 x8
    refine Keeps.cut (t := x4) ?_ (fun h9 => ?_)
    · unfold x4
      refine Keeps.ite (fun _ => ?_) (fun _ => ?_)
      · exact h2
      · refine Keeps.via (State.line_keeps _ _) ?_
        exact h2
    refine Keeps.cut (t := x5) ?_ (fun h10 => ?_)
    · unfold x5
      refine Keeps.via (State.line_keeps _ _) ?_
      exact h9
    refine Keeps.cut (t := x6) ?_ (fun h11 => ?_)
    · unfold x6
      refine Keeps.via (State.line_keeps _ _) ?_
      exact h10
    refine Keeps.cut (t := x7) ?_ (fun h12 => ?_)
    · unfold x7
      refine Keeps.via (State.line_keeps _ _) ?_
      exact h11
    refine Keeps.cut (t := x8) ?_ (fun h13 => ?_)
    · unfold x8
      refine Keeps.ite (fun _ => ?_) (fun _ => ?_)
      · exact h12
      · refine Keeps.via (State.line_keeps _ _) ?_
        exact h12
    refine Keeps.via (State.status_keeps _ _) ?_
    exact h13
  · exact Keeps.refl _

theorem State.monWord_keeps : ∀ s a1, ∀ r, State.monWord s a1 = .ok r → Keeps s r.2 := fun _ _ r e =>
  Keeps.ofOnly (State.monWord_only _ _ r e) rfl

theorem State.monWords_keeps : ∀ s a1 a2, Keeps s (State.monWords s a1 a2).2.1 := by
  intro s a1 a2
  induction a2 generalizing s a1 with
  | zero =>
    rw [State.monWords]
    exact Keeps.refl _
  | succ n ih =>
    rw [State.monWords]
    split
    · rename_i y1 y2 y3 y4
      split
      rename_i y5 y6 y7 y8 y9
      refine Keeps.ofPairMid y9 ?_
      refine Keeps.via (ih _ _) ?_
      refine Keeps.ofOk y4 (State.monWord_keeps _ _) ?_
      exact Keeps.refl _
    · rename_i y10 y11 y12
      refine Keeps.ite (fun _ => ?_) (fun _ => ?_)
      · refine Keeps.via (State.rcRefuse_keeps _ _ _) ?_
        exact Keeps.refl _
      · exact Keeps.refl _

theorem State.dataLines_keeps : ∀ s a1 a2 a3, Keeps s (State.dataLines s a1 a2 a3) := fun _ _ _ _ =>
  Keeps.ofOnly (State.dataLines_only _ _ _ _) rfl

theorem execMonRd_keeps : ∀ a0 a1 s z, Keeps s (runRow (execMonRd a0 a1 s) z) := by
  intro a0 a1 s z
  unfold execMonRd
  refine Keeps.atMonitor (fun t1 h2 => ?_) ?_
  · refine Keeps.ite (fun _ => ?_) (fun _ => ?_)
    · refine Keeps.via (State.status_keeps _ _) ?_
      exact h2
    · split
      rename_i y3 y4 y5 y6 y7 y8
      extract_lets x9
      refine Keeps.cut (t := x9) ?_ (fun h10 => ?_)
      · unfold x9
        refine Keeps.via (State.dataLines_keeps _ _ _ _) ?_
        refine Keeps.ofPairMid y8 ?_
        refine Keeps.via (State.monWords_keeps _ _ _) ?_
        exact h2
      refine Keeps.ite (fun _ => ?_) (fun _ => ?_)
      · refine Keeps.via (State.monRefuse_keeps _ _) ?_
        exact h10
      · refine Keeps.via (State.status_keeps _ _) ?_
        exact h10
  · exact Keeps.refl _

theorem State.rowWrite_keeps : ∀ s a1 a2 a3, Keeps s (State.rowWrite s a1 a2 a3).1 := by
  intro s a1 a2 a3
  unfold State.rowWrite
  extract_lets x1 x2 x3 x4
  refine Keeps.cut (t := x3) ?_ (fun h5 => ?_)
  · unfold x3
    refine Keeps.ite (fun _ => ?_) (fun _ => ?_)
    · exact Keeps.refl _
    · refine Keeps.via (State.useFree_keeps _) ?_
      exact Keeps.refl _
  refine Keeps.cut (t := x4) ?_ (fun h6 => ?_)
  · unfold x4
    refine Keeps.via (State.nvmWrite_keeps _ _ _) ?_
    exact h5
  refine Keeps.via (State.monEvent_keeps _ _ _) ?_
  exact h6

theorem State.asPf_keeps : ∀ s a1 a2, Keeps s (State.asPf s a1 a2) := by
  intro s a1 a2
  unfold State.asPf
  extract_lets x1 x2 x3
  refine Keeps.cut (t := x2) ?_ (fun h4 => ?_)
  · unfold x2
    refine Keeps.via (State.writeBar2_keeps _ _ _) ?_
    refine Keeps.via (Keeps.set_mon _ _ (by rfl)) ?_
    exact Keeps.refl _
  refine Keeps.via (Keeps.set_mon _ _ (by rfl)) ?_
  exact h4

theorem execMonWr_keeps : ∀ a0 a1 a2 s z, Keeps s (runRow (execMonWr a0 a1 a2 s) z) := by
  intro a0 a1 a2 s z
  unfold execMonWr
  refine Keeps.atMonitor (fun t1 h2 => ?_) ?_
  · extract_lets x3 x4 x5
    refine Keeps.ite (fun _ => ?_) (fun _ => ?_)
    · refine Keeps.via (State.status_keeps _ _) ?_
      exact h2
    · refine Keeps.ite (fun _ => ?_) (fun _ => ?_)
      · refine Keeps.via (State.monRefuse_keeps _ _) ?_
        refine Keeps.via (State.rcRefuse_keeps _ _ _) ?_
        exact h2
      · split
        · rename_i y6 y7 y8 y9
          refine Keeps.ite (fun _ => ?_) (fun _ => ?_)
          · refine Keeps.via (State.monRefuse_keeps _ _) ?_
            exact h2
          · refine Keeps.via (State.status_keeps _ _) ?_
            refine Keeps.via (Keeps.set_sram _ _ _) ?_
            exact h2
        · rename_i y10 y11 y12 y13
          refine Keeps.via (State.status_keeps _ _) ?_
          refine Keeps.via (State.asPf_keeps _ _ _) ?_
          exact h2
        · rename_i y14 y15 y16 y17
          refine Keeps.ite (fun _ => ?_) (fun _ => ?_)
          · refine Keeps.via (State.monRefuse_keeps _ _) ?_
            exact h2
          · split
            rename_i y18 y19 y20 y21 y22
            refine Keeps.via (State.status_keeps _ _) ?_
            refine Keeps.ofPairFst y22 ?_
            refine Keeps.via (State.rowWrite_keeps _ _ _ _) ?_
            exact h2
        · rename_i y23 y24 y25 y26 y27 y28
          refine Keeps.via (State.monRefuse_keeps _ _) ?_
          refine Keeps.via (State.rcRefuse_keeps _ _ _) ?_
          exact h2
  · exact Keeps.refl _

theorem execBaud_keeps : ∀ a0 s z, Keeps s (runRow (execBaud a0 s) z) := by
  intro a0 s z
  unfold execBaud
  refine Keeps.atMonitor (fun t1 h2 => ?_) ?_
  · refine Keeps.ite (fun _ => ?_) (fun _ => ?_)
    · extract_lets x3 x4
      refine Keeps.cut (t := x3) ?_ (fun h5 => ?_)
      · unfold x3
        refine Keeps.via (State.status_keeps _ _) ?_
        exact h2
      refine Keeps.via (Keeps.set_mon _ _ (by rfl)) ?_
      exact h5
    · refine Keeps.via (State.monRefuse_keeps _ _) ?_
      exact h2
  · exact Keeps.refl _

theorem State.monStore_keeps : ∀ s a1 a2 a3 a4, Keeps s (State.monStore s a1 a2 a3 a4) := by
  intro s a1 a2 a3 a4
  unfold State.monStore
  split
  rename_i y1 y2 y3 y4
  refine Keeps.via (State.nvmWrite_keeps _ _ _) ?_
  exact Keeps.refl _

theorem State.monSave_keeps : ∀ s a1 a2, Keeps s (State.monSave s a1 a2) := by
  intro s a1 a2
  unfold State.monSave
  extract_lets x1 x2
  refine Keeps.via (State.monEvent_keeps _ _ _) ?_
  refine Keeps.via (State.monEvent_keeps _ _ _) ?_
  refine Keeps.via (State.monStore_keeps _ _ _ _ _) ?_
  exact Keeps.refl _

theorem execLock_keeps : ∀ s z, Keeps s (runRow (execLock s) z) := by
  intro s z
  unfold execLock
  refine Keeps.atMonitor (fun t1 h2 => ?_) ?_
  · refine Keeps.via (State.status_keeps _ _) ?_
    refine Keeps.via (State.monEvent_keeps _ _ _) ?_
    refine Keeps.via (State.monSave_keeps _ _ _) ?_
    exact h2
  · exact Keeps.refl _

theorem execUnlock_keeps : ∀ a0 s z, Keeps s (runRow (execUnlock a0 s) z) := by
  intro a0 s z
  unfold execUnlock
  refine Keeps.atMonitor (fun t1 h2 => ?_) ?_
  · refine Keeps.ite (fun _ => ?_) (fun _ => ?_)
    · refine Keeps.via (State.status_keeps _ _) ?_
      refine Keeps.via (State.monEvent_keeps _ _ _) ?_
      refine Keeps.via (State.monSave_keeps _ _ _) ?_
      exact h2
    · refine Keeps.via (State.monRefuse_keeps _ _) ?_
      exact h2
  · exact Keeps.refl _

theorem State.endMonitor_keeps : ∀ s, Keeps s (State.endMonitor s) := by
  intro s
  unfold State.endMonitor
  refine Keeps.via (Keeps.set_mon _ _ (by rfl)) ?_
  exact Keeps.refl _

theorem execMonitorGo_keeps : ∀ s z, Keeps s (runRow (execMonitorGo s) z) := by
  intro s z
  unfold execMonitorGo
  refine Keeps.atMonitor (fun t1 h2 => ?_) ?_
  · refine Keeps.via (State.endMonitor_keeps _) ?_
    refine Keeps.via (State.line_keeps _ _) ?_
    exact h2
  · exact Keeps.refl _

theorem execMonitorIdleTimeout_keeps : ∀ s z, Keeps s (runRow (execMonitorIdleTimeout s) z) := by
  intro s z
  unfold execMonitorIdleTimeout
  rw [runRow_next]
  refine Keeps.ite (fun _ => ?_) (fun _ => ?_)
  · refine Keeps.via (State.endMonitor_keeps _) ?_
    exact Keeps.refl _
  · exact Keeps.refl _

theorem execUnknownCommand_keeps : ∀ a0 s z, Keeps s (runRow (execUnknownCommand a0 s) z) := by
  intro a0 s z
  unfold execUnknownCommand
  rw [runRow_next]
  refine Keeps.ite (fun _ => ?_) (fun _ => ?_)
  · refine Keeps.ite (fun _ => ?_) (fun _ => ?_)
    · refine Keeps.via (State.monRefuse_keeps _ _) ?_
      exact Keeps.refl _
    · refine Keeps.via (State.status_keeps _ _) ?_
      exact Keeps.refl _
  · exact Keeps.refl _

theorem execJtagAccess_keeps : ∀ a0 a1 a2 s z, Keeps s (runRow (execJtagAccess a0 a1 a2 s) z) := by
  intro a0 a1 a2 s z
  unfold execJtagAccess
  rw [runRow_next]
  refine Keeps.ite (fun _ => ?_) (fun _ => ?_)
  · exact Keeps.refl _
  · extract_lets x1 x2 x3
    refine Keeps.cut (t := x3) ?_ (fun h4 => ?_)
    · unfold x3
      refine Keeps.via (State.rcRefuse_keeps _ _ _) ?_
      exact Keeps.refl _
    refine Keeps.ite (fun _ => ?_) (fun _ => ?_)
    · split
      · rename_i y5 y6 y7 y8
        refine Keeps.ite (fun _ => ?_) (fun _ => ?_)
        · refine Keeps.via (Keeps.set_sram _ _ _) ?_
          exact Keeps.refl _
        · refine Keeps.via (State.emit_keeps _ _) ?_
          exact Keeps.refl _
      · rename_i y9 y10 y11 y12
        split
        rename_i y13 y14 y15 y16
        refine Keeps.via (State.emit_keeps _ _) ?_
        refine Keeps.ofPair y16 ?_
        refine Keeps.via (State.readWord_keeps _ _) ?_
        exact Keeps.refl _
      · rename_i y17 y18 y19 y20 y21
        refine Keeps.via (State.emit_keeps _ _) ?_
        exact Keeps.refl _
    · refine Keeps.via (State.emit_keeps _ _) ?_
      refine Keeps.ite (fun _ => ?_) (fun _ => ?_)
      · exact h4
      · refine Keeps.via (State.emit_keeps _ _) ?_
        exact h4

theorem State.modCfg_keeps : ∀ s a1 a2, Keeps s (State.modCfg s a1 a2) := by
  intro s a1 a2
  unfold State.modCfg
  refine Keeps.via (State.modFn_keeps _ _ _) ?_
  exact Keeps.refl _

theorem State.setCfgField_keeps : ∀ s a1 a2 a3, Keeps s (State.setCfgField s a1 a2 a3) := by
  intro s a1 a2 a3
  unfold State.setCfgField
  extract_lets x1 x2
  split
  · rename_i y3
    unfold x2
    refine Keeps.ite (fun _ => ?_) (fun _ => ?_)
    · dsimp only
      refine Keeps.via (State.modCfg_keeps _ _ _) ?_
      exact Keeps.refl _
    · exact Keeps.refl _
  · rename_i y4
    refine Keeps.via (State.modCfg_keeps _ _ _) ?_
    exact Keeps.refl _
  · rename_i y5
    refine Keeps.via (State.modCfg_keeps _ _ _) ?_
    exact Keeps.refl _
  · rename_i y6
    refine Keeps.via (State.modCfg_keeps _ _ _) ?_
    exact Keeps.refl _
  · rename_i y7
    refine Keeps.via (State.modCfg_keeps _ _ _) ?_
    exact Keeps.refl _
  · rename_i y8
    refine Keeps.via (State.modCfg_keeps _ _ _) ?_
    exact Keeps.refl _
  · rename_i y9
    refine Keeps.via (State.modCfg_keeps _ _ _) ?_
    exact Keeps.refl _
  · rename_i y10
    refine Keeps.via (State.releasePending_keeps _ _) ?_
    refine Keeps.via (State.modCfg_keeps _ _ _) ?_
    exact Keeps.refl _
  · rename_i y11
    refine Keeps.via (State.releasePending_keeps _ _) ?_
    refine Keeps.via (State.modCfg_keeps _ _ _) ?_
    exact Keeps.refl _
  · rename_i y12
    unfold x2
    refine Keeps.ite (fun _ => ?_) (fun _ => ?_)
    · dsimp only
      refine Keeps.via (Keeps.set_link _ _) ?_
      exact Keeps.refl _
    · exact Keeps.refl _
  · rename_i y13
    unfold x2
    refine Keeps.ite (fun _ => ?_) (fun _ => ?_)
    · dsimp only
      refine Keeps.ite (fun _ => ?_) (fun _ => ?_)
      · exact Keeps.refl _
      · refine Keeps.via (Keeps.set_link _ _) ?_
        exact Keeps.refl _
    · exact Keeps.refl _
  · rename_i y14
    unfold x2
    refine Keeps.ite (fun _ => ?_) (fun _ => ?_)
    · dsimp only
      refine Keeps.via (Keeps.set_link _ _) ?_
      exact Keeps.refl _
    · exact Keeps.refl _
  · rename_i y15
    unfold x2
    refine Keeps.ite (fun _ => ?_) (fun _ => ?_)
    · dsimp only
      refine Keeps.via (Keeps.set_link _ _) ?_
      exact Keeps.refl _
    · exact Keeps.refl _
  · rename_i y16
    unfold x2
    refine Keeps.ite (fun _ => ?_) (fun _ => ?_)
    · dsimp only
      refine Keeps.via (Keeps.set_link _ _) ?_
      exact Keeps.refl _
    · exact Keeps.refl _
  · rename_i y17
    unfold x2
    refine Keeps.ite (fun _ => ?_) (fun _ => ?_)
    · dsimp only
      refine Keeps.via (State.pump_keeps _) ?_
      refine Keeps.via (Keeps.set_link _ _) ?_
      exact Keeps.refl _
    · exact Keeps.refl _
  · rename_i y18
    refine Keeps.via (State.modCfg_keeps _ _ _) ?_
    exact Keeps.refl _
  · rename_i y19
    refine Keeps.via (State.modCfg_keeps _ _ _) ?_
    exact Keeps.refl _
  · rename_i y20
    unfold x2
    refine Keeps.ite (fun _ => ?_) (fun _ => ?_)
    · dsimp only
      refine Keeps.via (State.writeHst_keeps _ _ _) ?_
      exact Keeps.refl _
    · exact Keeps.refl _
  · rename_i y21
    unfold x2
    refine Keeps.ite (fun _ => ?_) (fun _ => ?_)
    · dsimp only
      refine Keeps.via (Keeps.set_sec _ _) ?_
      exact Keeps.refl _
    · exact Keeps.refl _
  · rename_i y22
    unfold x2
    refine Keeps.ite (fun _ => ?_) (fun _ => ?_)
    · dsimp only
      refine Keeps.via (State.flushCpl_keeps _) ?_
      refine Keeps.via (State.settleStream_keeps _) ?_
      refine Keeps.via (Keeps.set_sec _ _) ?_
      exact Keeps.refl _
    · exact Keeps.refl _
  · rename_i y23
    unfold x2
    refine Keeps.ite (fun _ => ?_) (fun _ => ?_)
    · dsimp only
      refine Keeps.via (Keeps.set_sec _ _) ?_
      exact Keeps.refl _
    · exact Keeps.refl _
  · rename_i y24 y25
    refine Keeps.ite (fun _ => ?_) (fun _ => ?_)
    · unfold x2
      refine Keeps.ite (fun _ => ?_) (fun _ => ?_)
      · dsimp only
        refine Keeps.via (State.writeHst_keeps _ _ _) ?_
        exact Keeps.refl _
      · exact Keeps.refl _
    · refine Keeps.ite (fun _ => ?_) (fun _ => ?_)
      · refine Keeps.via (State.storeCfg_keeps _ _ _ _) ?_
        exact Keeps.refl _
      · exact Keeps.refl _

theorem execConfigWrite_keeps : ∀ a0 a1 a2 s z, Keeps s (runRow (execConfigWrite a0 a1 a2 s) z) := by
  intro a0 a1 a2 s z
  unfold execConfigWrite
  rw [runRow_next]
  refine Keeps.cfgTo (fun t1 h2 => ?_) ?_
  · refine Keeps.via (State.setCfgField_keeps _ _ _ _) ?_
    exact h2
  · exact Keeps.refl _

theorem execSystemPageSizeWrite_keeps : ∀ a0 s z, Keeps s (runRow (execSystemPageSizeWrite a0 s) z) := fun _ _ _ =>
  Keeps.ofOnly (execSystemPageSizeWrite_only _ _ _) rfl

theorem execNumvfsWrite_keeps : ∀ a0 s z, Keeps s (runRow (execNumvfsWrite a0 s) z) := fun _ _ _ =>
  Keeps.ofOnly (execNumvfsWrite_only _ _ _) rfl

theorem execBusMasterEnableWrite_keeps : ∀ a0 a1 s z, Keeps s (runRow (execBusMasterEnableWrite a0 a1 s) z) := by
  intro a0 a1 s z
  unfold execBusMasterEnableWrite
  rw [runRow_next]
  refine Keeps.cfgTo (fun t1 h2 => ?_) ?_
  · extract_lets x3 x4
    refine Keeps.cut (t := x4) ?_ (fun h5 => ?_)
    · unfold x4
      refine Keeps.via (State.modCfg_keeps _ _ _) ?_
      exact h2
    refine Keeps.ite (fun _ => ?_) (fun _ => ?_)
    · exact h5
    · refine Keeps.via (State.pump_keeps _) ?_
      refine Keeps.via (State.releasePending_keeps _ _) ?_
      refine Keeps.ite (fun _ => ?_) (fun _ => ?_)
      · exact h5
      · refine Keeps.via (State.fetchSoon_keeps _ _) ?_
        refine Keeps.via (State.wakeFn_keeps _ _) ?_
        exact h5
  · exact Keeps.refl _

theorem execCompletionTimeoutValueWrite_keeps : ∀ a0 a1 s z, Keeps s (runRow (execCompletionTimeoutValueWrite a0 a1 s) z) := by
  intro a0 a1 s z
  unfold execCompletionTimeoutValueWrite
  rw [runRow_next]
  refine Keeps.cfgTo (fun t1 h2 => ?_) ?_
  · refine Keeps.ite (fun _ => ?_) (fun _ => ?_)
    · refine Keeps.via (State.modCfg_keeps _ _ _) ?_
      exact h2
    · exact h2
  · exact Keeps.refl _

theorem execMsixVectorUnmask_keeps : ∀ a0 a1 s z, Keeps s (runRow (execMsixVectorUnmask a0 a1 s) z) := by
  intro a0 a1 s z
  unfold execMsixVectorUnmask
  extract_lets x1
  rw [runRow_next]
  split
  · rename_i y2 y3
    refine Keeps.hostBar0 (fun t4 h5 => ?_) ?_
    · refine Keeps.via (State.releasePending_keeps _ _) ?_
      refine Keeps.via (State.modFn_keeps _ _ _) ?_
      exact h5
    · exact Keeps.refl _
  · rename_i y6
    refine Keeps.cfgTo (fun t7 h8 => ?_) ?_
    · refine Keeps.via (State.setCfgField_keeps _ _ _ _) ?_
      exact h8
    · exact Keeps.refl _
  · rename_i y9
    refine Keeps.cfgTo (fun t10 h11 => ?_) ?_
    · refine Keeps.via (State.setCfgField_keeps _ _ _ _) ?_
      exact h11
    · exact Keeps.refl _

theorem execVfEnableSet_keeps : ∀ s z, Keeps s (runRow (execVfEnableSet s) z) := by
  intro s z
  unfold execVfEnableSet
  rw [runRow_next]
  refine Keeps.cfgTo (fun t1 h2 => ?_) ?_
  · refine Keeps.ite (fun _ => ?_) (fun _ => ?_)
    · exact h2
    · extract_lets x3 x4 x5 x6
      refine Keeps.cut (t := x3) ?_ (fun h7 => ?_)
      · unfold x3
        refine Keeps.forBelow (fun a8 t9 h10 => ?_) ?_
        · refine Keeps.via (State.modFn_keeps _ _ _) ?_
          exact h10
        · exact h2
      refine Keeps.cut (t := x5) ?_ (fun h11 => ?_)
      · unfold x5
        refine Keeps.via (Keeps.set_link _ _) ?_
        exact h7
      refine Keeps.via (Keeps.set_link _ _) ?_
      exact h11
  · exact Keeps.refl _

theorem State.beginFlr_keeps : ∀ s a1 a2, Keeps s (State.beginFlr s a1 a2) := by
  intro s a1 a2
  unfold State.beginFlr
  extract_lets x1
  refine Keeps.cut (t := x1) ?_ (fun h2 => ?_)
  · unfold x1
    refine Keeps.via (State.modFn_keeps _ _ _) ?_
    exact Keeps.refl _
  refine Keeps.ite (fun _ => ?_) (fun _ => ?_)
  · refine Keeps.via (State.joinReset_keeps _ _ _ _) ?_
    exact h2
  · refine Keeps.via (State.resetFor_keeps _ _ _) ?_
    exact h2

theorem State.vfsOff_keeps : ∀ s, Keeps s (State.vfsOff s) := by
  intro s
  unfold State.vfsOff
  refine Keeps.ite (fun _ => ?_) (fun _ => ?_)
  · extract_lets x1 x2
    refine Keeps.cut (t := x1) ?_ (fun h3 => ?_)
    · unfold x1
      refine Keeps.forBelow (fun a4 t5 h6 => ?_) ?_
      · refine Keeps.via (State.beginFlr_keeps _ _ _) ?_
        exact h6
      · exact Keeps.refl _
    refine Keeps.via (Keeps.set_link _ _) ?_
    exact h3
  · exact Keeps.refl _

theorem execVfEnableClear_keeps : ∀ s z, Keeps s (runRow (execVfEnableClear s) z) := by
  intro s z
  unfold execVfEnableClear
  rw [runRow_next]
  refine Keeps.cfgTo (fun t1 h2 => ?_) ?_
  · refine Keeps.via (State.vfsOff_keeps _) ?_
    exact h2
  · exact Keeps.refl _

theorem State.endSessions_keeps : ∀ s, Keeps s (State.endSessions s) := fun _ =>
  Keeps.ofOnly (State.endSessions_only _) rfl

theorem State.dropRegion_keeps : ∀ s, Keeps s (State.dropRegion s) := by
  intro s
  unfold State.dropRegion
  extract_lets x1 x2
  refine Keeps.via (State.clearRegion_keeps _) ?_
  refine Keeps.via (Keeps.set_reads_fss_fetches _ _ _ _ (by rfl) (by rfl) (by rfl)) ?_
  exact Keeps.refl _

theorem execInitiateFunctionLevelReset_keeps : ∀ a0 s z, Keeps s (runRow (execInitiateFunctionLevelReset a0 s) z) := by
  intro a0 s z
  unfold execInitiateFunctionLevelReset
  rw [runRow_next]
  refine Keeps.cfgTo (fun t1 h2 => ?_) ?_
  · extract_lets x3
    refine Keeps.cut (t := x3) ?_ (fun h4 => ?_)
    · unfold x3
      refine Keeps.via (State.beginFlr_keeps _ _ _) ?_
      exact h2
    refine Keeps.ite (fun _ => ?_) (fun _ => ?_)
    · refine Keeps.via (State.dropRegion_keeps _) ?_
      refine Keeps.via (State.endSessions_keeps _) ?_
      refine Keeps.via (State.vfsOff_keeps _) ?_
      exact h4
    · exact h4
  · exact Keeps.refl _

theorem execPowerStateD3hot_keeps : ∀ s z, Keeps s (runRow (execPowerStateD3hot s) z) := fun _ _ =>
  Keeps.ofOnly (execPowerStateD3hot_only _ _) rfl

theorem execPowerStateD0_keeps : ∀ s z, Keeps s (runRow (execPowerStateD0 s) z) := by
  intro s z
  unfold execPowerStateD0
  rw [runRow_next]
  refine Keeps.cfgTo (fun t1 h2 => ?_) ?_
  · refine Keeps.via (State.resume_keeps _) ?_
    refine Keeps.via (State.wakeUp_keeps _) ?_
    refine Keeps.via (Keeps.set_link _ _) ?_
    exact h2
  · exact Keeps.refl _

theorem State.writeCfg_keeps : ∀ s a1 a2 a3, Keeps s (State.writeCfg s a1 a2 a3) := by
  intro s a1 a2 a3
  have hw : ∀ {t u : State}, Keeps t u → Keeps s t → Keeps s u := fun h h0 => Keeps.via h h0
  unfold State.writeCfg
  extract_lets run set pf other
  have h0 : Keeps s s := Keeps.refl _
  have hs : ∀ fd p n t, Keeps s t → Keeps s (set fd p n t) := fun _ _ _ t h =>
    hw (execConfigWrite_keeps _ _ _ t t) h
  have ho : ∀ t, Keeps s t → Keeps s (other t) := fun t h => hs _ _ _ t h
  have hpf : ∀ g : State → State, (∀ t, Keeps s t → Keeps s (g t)) → Keeps s (pf g s) := by
    intro g hg
    change Keeps _ ((if a1 = 0 then g else fun s => s) s)
    split
    · exact hg s h0
    · exact h0
  split
  · exact hw (execBusMasterEnableWrite_keeps _ _ _ _) (hs _ _ _ _ (ho _ h0))
  · refine hpf _ (fun t h => ?_)
    exact Keeps.ite (fun _ => hw (execPowerStateD3hot_keeps _ _) h)
      (fun _ => Keeps.ite (fun _ => hw (execPowerStateD0_keeps _ _) h) (fun _ => h))
  · exact hs _ _ _ _ (hs _ _ _ _ h0)
  · have h1 := hs .maxReadRequest 12 3 _ (hs .extendedTags 8 1 _ (hs .maxPayload 5 3 _ (hs .relaxedOrdering 4 1 _ (ho _ h0))))
    exact Keeps.ite (fun _ => hw (execInitiateFunctionLevelReset_keeps _ _ _) h1) (fun _ => h1)
  · exact hs _ _ _ _ (ho _ h0)
  · exact hs _ _ _ _ (hs _ _ _ _ (hs _ _ _ _ (hw (execCompletionTimeoutValueWrite_keeps _ _ _ _) h0)))
  · exact hs _ _ _ _ (ho _ h0)
  · exact hs _ _ _ _ h0
  · exact hs _ _ _ _ h0
  · refine hpf _ (fun t h => ?_)
    have h1 : Keeps s (if bitN a3 0 then t else run execVfEnableClear t) :=
      Keeps.ite (fun _ => h) (fun _ => hw (execVfEnableClear_keeps _ _) h)
    have h2 := hs .ariHierarchy 4 1 _ (hs .vfMemorySpaceEnable 3 1 _ h1)
    exact Keeps.ite (fun _ => hw (execVfEnableSet_keeps _ _) h2) (fun _ => h2)
  · exact hpf _ (fun t h => hw (execNumvfsWrite_keeps _ _ _) h)
  · exact hpf _ (fun t h => hw (execSystemPageSizeWrite_keeps _ _ _) h)
  · refine hpf _ (fun t h => hs _ _ _ _ ?_)
    exact Keeps.ite (fun _ => hw (execDoeAbort_keeps _ _) h) (fun _ => h)
  · exact hs _ _ _ _ (hs _ _ _ _ (ho _ h0))
  · exact hs _ _ _ _ (ho _ h0)
  · exact ho _ h0

theorem execRegisterWrite_keeps : ∀ a0 a1 a2 s z, Keeps s (runRow (execRegisterWrite a0 a1 a2 s) z) := by
  intro a0 a1 a2 s z
  unfold execRegisterWrite
  extract_lets x1
  rw [runRow_next]
  split
  · rename_i y2 y3
    refine Keeps.hostBar0 (fun t4 h5 => ?_) ?_
    · extract_lets x6
      refine Keeps.writeBytes (fun k7 a8 t9 h10 => ?_) (fun t9 h10 => ?_) ?_
      · refine Keeps.ite (fun _ => ?_) (fun _ => ?_)
        · refine Keeps.via (State.writeBar0_keeps _ _ _ _) ?_
          exact h10
        · exact h10
      · refine Keeps.via (State.accError_keeps _ _ _ _) ?_
        exact h10
      · refine Keeps.via (State.wakeUp_keeps _) ?_
        exact h5
    · exact Keeps.refl _
  · rename_i y11
    refine Keeps.hostBar2 (fun t12 h13 => ?_) ?_
    · refine Keeps.writeBytes (fun k14 a15 t16 h17 => ?_) (fun t16 h17 => ?_) ?_
      · refine Keeps.via (State.writeBar2_keeps _ _ _) ?_
        exact h17
      · refine Keeps.via (State.accError_keeps _ _ _ _) ?_
        exact h17
      · refine Keeps.via (State.wakeUp_keeps _) ?_
        exact h13
    · exact Keeps.refl _
  · rename_i y18 y19
    refine Keeps.ite (fun _ => ?_) (fun _ => ?_)
    · refine Keeps.via (State.writeCfg_keeps _ _ _ _) ?_
      exact Keeps.refl _
    · exact Keeps.refl _
  · rename_i y20
    refine Keeps.ite (fun _ => ?_) (fun _ => ?_)
    · refine Keeps.writeBytes (fun k21 a22 t23 h24 => ?_) (fun t23 h24 => ?_) ?_
      · refine Keeps.via (State.writeHst_keeps _ _ _) ?_
        exact h24
      · exact h24
      · exact Keeps.refl _
    · exact Keeps.refl _

theorem execLinkUp_keeps : ∀ a0 a1 s z, Keeps s (runRow (execLinkUp a0 a1 s) z) := by
  intro a0 a1 s z
  unfold execLinkUp
  rw [runRow_next]
  refine Keeps.ite (fun _ => ?_) (fun _ => ?_)
  · exact Keeps.refl _
  · extract_lets x1 x2 x3
    refine Keeps.cut (t := x3) ?_ (fun h4 => ?_)
    · unfold x3
      refine Keeps.via (Keeps.set_link _ _) ?_
      exact Keeps.refl _
    refine Keeps.via (State.note_keeps _ _ _) ?_
    exact h4

theorem State.wf_storedOver (s : State) {p : Nat → Bool} {b : Bank Word} (h : Bank.wf regReset b = true) :
    Bank.wf regReset (s.storedOver p b) = true := by
  unfold State.storedOver
  generalize storableKeys.filter p = l
  induction l generalizing b with
  | nil => exact h
  | cons k r ih => exact ih (Bank.wf_set h _ _)

theorem State.warmRegs_keeps : ∀ s, Keeps s (State.warmRegs s) := by
  intro s c
  have hl : ∀ (l : List (Nat × Word)) (b : Bank Word), Bank.wf regReset b = true →
      Bank.wf regReset (l.foldl (fun b e => Bank.set regReset b e.1 e.2) b) = true := by
    intro l
    induction l with
    | nil => exact fun _ h => h
    | cons e r ih => exact fun b h => ih _ (Bank.wf_set h _ _)
  unfold State.warmRegs
  have h := State.wf_storedOver s (p := fun k => !warmKept k)
    (hl (s.liveSet.filter (fun e => isLimit e.1)) _ (Bank.wf_filter (p := fun e => isStickyReg e.1) c.regs))
  dsimp only
  generalize s.storedOver (fun k => !warmKept k) _ = b at h ⊢
  exact ⟨c.nvm, c.sram, c.units, c.root, c.nextRoot, c.inst, c.fn, h⟩

theorem State.restAxes_keeps : ∀ s a1, Keeps s (State.restAxes s a1) := fun _ _ =>
  Keeps.ofOnly (State.restAxes_only _ _) rfl

theorem State.breakStripes_keeps : ∀ s, Keeps s (State.breakStripes s) := by
  intro s
  unfold State.breakStripes
  refine Keeps.forEach (fun a1 t2 h3 => ?_) ?_
  · refine Keeps.forEach (fun a4 t5 h6 => ?_) ?_
    · refine Keeps.via (State.stripeBad_keeps _ _ _) ?_
      exact h6
    · exact h3
  · exact Keeps.refl _

theorem State.stopDrives_keeps : ∀ s, Keeps s (State.stopDrives s) := by
  intro s
  unfold State.stopDrives
  extract_lets x1 x2 x3
  refine Keeps.cut (t := x1) ?_ (fun h4 => ?_)
  · unfold x1
    refine Keeps.forBelow (fun a5 t6 h7 => ?_) ?_
    · refine Keeps.ite (fun _ => ?_) (fun _ => ?_)
      · refine Keeps.via (State.closeGate_keeps _ _) ?_
        exact h7
      · exact h7
    · exact Keeps.refl _
  refine Keeps.cut (t := x2) ?_ (fun h8 => ?_)
  · unfold x2
    refine Keeps.via (State.breakStripes_keeps _) ?_
    exact h4
  refine Keeps.cut (t := x3) ?_ (fun h9 => ?_)
  · unfold x3
    refine Keeps.via (Keeps.set_drives _ _) ?_
    exact h8
  refine Keeps.via (State.settle_keeps _) ?_
  refine Keeps.forBelow (fun a10 t11 h12 => ?_) ?_
  · refine Keeps.via (State.restAxes_keeps _ _) ?_
    exact h12
  · exact h9

theorem State.warmReset_keeps : ∀ s, Keeps s (State.warmReset s) := by
  intro s
  unfold State.warmReset
  extract_lets x1 x2 x3 x4 x5 x6 x7 x8
  refine Keeps.cut (t := x3) ?_ (fun h9 => ?_)
  · unfold x3
    refine Keeps.via (Keeps.set_tm_hlt_sec_reads _ _ _ _ _) ?_
    exact Keeps.refl _
  refine Keeps.cut (t := x4) ?_ (fun h10 => ?_)
  · unfold x4
    refine Keeps.forEach (fun a11 t12 h13 => ?_) ?_
    · refine Keeps.via (State.beginFlr_keeps _ _ _) ?_
      exact h13
    · exact h9
  refine Keeps.cut (t := x5) ?_ (fun h14 => ?_)
  · unfold x5
    refine Keeps.via (State.dropRegion_keeps _) ?_
    exact h10
  refine Keeps.cut (t := x6) ?_ (fun h15 => ?_)
  · unfold x6
    refine Keeps.via (State.warmRegs_keeps _) ?_
    refine Keeps.via (State.reloadSettings_keeps _) ?_
    exact h14
  refine Keeps.cut (t := x8) ?_ (fun h16 => ?_)
  · unfold x8
    refine Keeps.via (Keeps.set_link_pwb_cal _ _ _ _) ?_
    exact h15
  refine Keeps.via (State.stopDrives_keeps _) ?_
  exact h16

theorem State.linkLost_keeps : ∀ s, Keeps s (State.linkLost s) := by
  intro s
  unfold State.linkLost
  refine Keeps.ite (fun _ => ?_) (fun _ => ?_)
  · exact Keeps.refl _
  · refine Keeps.ite (fun _ => ?_) (fun _ => ?_)
    · exact Keeps.refl _
    · extract_lets x1 x2
      refine Keeps.cut (t := x2) ?_ (fun h3 => ?_)
      · unfold x2
        refine Keeps.via (Keeps.set_link _ _) ?_
        exact Keeps.refl _
      refine Keeps.ite (fun _ => ?_) (fun _ => ?_)
      · refine Keeps.via (State.warmReset_keeps _) ?_
        exact h3
      · exact h3

theorem execDlDown_keeps : ∀ s z, Keeps s (runRow (execDlDown s) z) := by
  intro s z
  unfold execDlDown
  rw [runRow_next]
  refine Keeps.ite (fun _ => ?_) (fun _ => ?_)
  · extract_lets x1 x2 x3 x4 x5
    refine Keeps.cut (t := x2) ?_ (fun h6 => ?_)
    · unfold x2
      refine Keeps.via (Keeps.set_link _ _) ?_
      exact Keeps.refl _
    refine Keeps.cut (t := x3) ?_ (fun h7 => ?_)
    · unfold x3
      refine Keeps.via (State.note_keeps _ _ _) ?_
      exact h6
    refine Keeps.cut (t := x5) ?_ (fun h8 => ?_)
    · unfold x5
      refine Keeps.ite (fun _ => ?_) (fun _ => ?_)
      · refine Keeps.via (Keeps.set_hlt _ _) ?_
        exact h7
      · exact h7
    refine Keeps.via (State.linkLost_keeps _) ?_
    exact h8
  · exact Keeps.refl _

theorem execHotResetReceived_keeps : ∀ s z, Keeps s (runRow (execHotResetReceived s) z) := by
  intro s z
  unfold execHotResetReceived
  rw [runRow_next]
  refine Keeps.ite (fun _ => ?_) (fun _ => ?_)
  · extract_lets x1 x2 x3 x4 x5
    refine Keeps.cut (t := x2) ?_ (fun h6 => ?_)
    · unfold x2
      refine Keeps.via (Keeps.set_link _ _) ?_
      exact Keeps.refl _
    refine Keeps.cut (t := x3) ?_ (fun h7 => ?_)
    · unfold x3
      refine Keeps.via (State.note_keeps _ _ _) ?_
      exact h6
    refine Keeps.cut (t := x5) ?_ (fun h8 => ?_)
    · unfold x5
      refine Keeps.ite (fun _ => ?_) (fun _ => ?_)
      · refine Keeps.via (Keeps.set_hlt _ _) ?_
        exact h7
      · exact h7
    refine Keeps.via (State.linkLost_keeps _) ?_
    exact h8
  · exact Keeps.refl _

theorem execWarmResetComplete_keeps : ∀ s z, Keeps s (runRow (execWarmResetComplete s) z) := by
  intro s z
  unfold execWarmResetComplete
  rw [runRow_next]
  refine Keeps.ite (fun _ => ?_) (fun _ => ?_)
  · extract_lets x1 x2
    refine Keeps.cut (t := x2) ?_ (fun h3 => ?_)
    · unfold x2
      refine Keeps.via (Keeps.set_hlt _ _) ?_
      exact Keeps.refl _
    refine Keeps.forEach (fun a4 t5 h6 => ?_) ?_
    · refine Keeps.ite (fun _ => ?_) (fun _ => ?_)
      · refine Keeps.via (State.resetFnOnly_keeps _ _) ?_
        exact h6
      · exact h6
    · exact h3
  · exact Keeps.refl _

theorem State.dieCommands_keeps : ∀ s a1 a2 a3 a4, Keeps s (State.dieCommands s a1 a2 a3 a4) := fun _ _ _ _ _ =>
  Keeps.ofOnly (State.dieCommands_only _ _ _ _ _) rfl

theorem State.identify_keeps : ∀ s a1, Keeps s (State.identify s a1) := by
  intro s a1
  unfold State.identify
  extract_lets x1 x2 x3 x4 x5 x6 x7
  clear_value x5
  split
  rename_i y8 y9 y10 y11 y12 y13
  extract_lets x14 x15 x16
  refine Keeps.cut (t := x15) ?_ (fun h17 => ?_)
  · unfold x15
    refine Keeps.via (Keeps.set_fss _ _ (by rfl) (by rfl) (by rfl)) ?_
    exact Keeps.refl _
  refine Keeps.cut (t := x16) ?_ (fun h18 => ?_)
  · unfold x16
    refine Keeps.forBelow (fun a19 t20 h21 => ?_) ?_
    · refine Keeps.ite (fun _ => ?_) (fun _ => ?_)
      · refine Keeps.via (State.dieCommands_keeps _ _ _ _ _) ?_
        exact h21
      · exact h21
    · exact h17
  refine Keeps.forBelow (fun a22 t23 h24 => ?_) ?_
  · refine Keeps.ite (fun _ => ?_) (fun _ => ?_)
    · refine Keeps.via (State.note_keeps _ _ _) ?_
      exact h24
    · exact h24
  · exact h18

theorem State.rawMap_keeps : ∀ s a1 a2 a3, Keeps s (State.rawMap s a1 a2 a3) := by
  intro s a1 a2 a3
  unfold State.rawMap
  extract_lets x1 x2 x3 x4
  refine Keeps.cut (t := x3) ?_ (fun h5 => ?_)
  · unfold x3
    refine Keeps.via (Keeps.set_fss _ _ (by rfl) (by rfl) (by rfl)) ?_
    exact Keeps.refl _
  refine Keeps.via (State.setLeaf_keeps _ _ _) ?_
  exact h5

theorem State.replaySeg_keeps : ∀ s a1 a2, Keeps s (State.replaySeg s a1 a2) := by
  intro s a1 a2
  unfold State.replaySeg
  refine Keeps.via (State.mapSegs_keeps _ _) ?_
  exact Keeps.refl _

theorem State.takeLimits_keeps : ∀ s a1 a2, Keeps s (State.takeLimits s a1 a2) := by
  intro s a1 a2
  unfold State.takeLimits
  extract_lets x1
  refine Keeps.cut (t := x1) ?_ (fun h2 => ?_)
  · unfold x1
    refine Keeps.via (State.setReg_keeps _ _ _) ?_
    exact Keeps.refl _
  refine Keeps.via (Keeps.set_nextSet_liveSet_prevSet _ _ _ _) ?_
  exact h2

theorem State.replayRecord_keeps : ∀ s a1 a2, Keeps s (State.replayRecord s a1 a2) := by
  intro s a1 a2
  unfold State.replayRecord
  extract_lets x1 x2
  refine Keeps.cut (t := x1) ?_ (fun h3 => ?_)
  · unfold x1
    refine Keeps.via (State.setInst_keeps _ _ _) ?_
    exact Keeps.refl _
  refine Keeps.ite (fun _ => ?_) (fun _ => ?_)
  · refine Keeps.via (State.dropEmptyLeaves_keeps _ _) ?_
    refine Keeps.forEach (fun a4 t5 h6 => ?_) ?_
    · refine Keeps.via (State.rawMap_keeps _ _ _ _) ?_
      exact h6
    · refine Keeps.via (Keeps.set_fss _ _ (by rfl) (by rfl) (by rfl)) ?_
      exact h3
  · exact h3

theorem State.replay_keeps : ∀ s a1, Keeps s (State.replay s a1) := by
  intro s a1
  unfold State.replay
  split
  · rename_i y1 y2 y3 y4 y5
    refine Keeps.via (State.rawMap_keeps _ _ _ _) ?_
    exact Keeps.refl _
  · rename_i y6 y7 y8 y9 y10
    refine Keeps.forBelow (fun a11 t12 h13 => ?_) ?_
    · refine Keeps.via (State.rawMap_keeps _ _ _ _) ?_
      exact h13
    · exact Keeps.refl _
  · rename_i y14 y15 y16 y17 y18 y19 y20
    refine Keeps.ite (fun _ => ?_) (fun _ => ?_)
    · refine Keeps.via (State.retarget_keeps _ _ _ _ _) ?_
      exact Keeps.refl _
    · refine Keeps.via (State.rawMap_keeps _ _ _ _) ?_
      exact Keeps.refl _
  · rename_i y21 y22 y23 y24
    extract_lets x25 x26 x27 x28
    refine Keeps.cut (t := x27) ?_ (fun h29 => ?_)
    · unfold x27
      refine Keeps.via (Keeps.set_fss _ _ (by rfl) (by rfl) (by rfl)) ?_
      exact Keeps.refl _
    refine Keeps.via (State.setLeaf_keeps _ _ _) ?_
    exact h29
  · rename_i y30 y31 y32 y33 y34 y35 y36
    refine Keeps.ite (fun _ => ?_) (fun _ => ?_)
    · exact Keeps.refl _
    · extract_lets x37 x38 x39
      refine Keeps.cut (t := x39) ?_ (fun h40 => ?_)
      · unfold x39
        refine Keeps.via (Keeps.set_fss _ _ (by rfl) (by rfl) (by rfl)) ?_
        exact Keeps.refl _
      refine Keeps.via (State.modInst_keeps _ _ _) ?_
      exact h40
  · rename_i y41 y42 y43 y44 y45
    refine Keeps.via (State.replaySeg_keeps _ _ _) ?_
    exact Keeps.refl _
  · rename_i y46 y47 y48
    split
    · rename_i y49 y50 y51
      extract_lets x52 x53 x54
      refine Keeps.cut (t := x52) ?_ (fun h55 => ?_)
      · unfold x52
        refine Keeps.via (State.markUnits_keeps _ _) ?_
        exact Keeps.refl _
      refine Keeps.cut (t := x54) ?_ (fun h56 => ?_)
      · unfold x54
        refine Keeps.via (Keeps.set_fss _ _ (by rfl) (by rfl) (by rfl)) ?_
        exact h55
      refine Keeps.via (State.modInst_keeps _ _ _) ?_
      exact h56
    · rename_i y57 y58
      exact Keeps.refl _
  · rename_i y59 y60 y61 y62 y63 y64 y65
    refine Keeps.ite (fun _ => ?_) (fun _ => ?_)
    · refine Keeps.via (Keeps.set_fss _ _ (by rfl) (by rfl) (by rfl)) ?_
      exact Keeps.refl _
    · extract_lets x66 x67
      refine Keeps.cut (t := x66) ?_ (fun h68 => ?_)
      · unfold x66
        refine Keeps.via (State.setBlock_keeps _ _ _ _) ?_
        exact Keeps.refl _
      refine Keeps.via (Keeps.set_fss _ _ (by rfl) (by rfl) (by rfl)) ?_
      exact h68
  · rename_i y69 y70 y71 y72
    refine Keeps.ite (fun _ => ?_) (fun _ => ?_)
    · exact Keeps.refl _
    · refine Keeps.via (State.setBlock_keeps _ _ _ _) ?_
      refine Keeps.via (Keeps.set_fss _ _ (by rfl) (by rfl) (by rfl)) ?_
      exact Keeps.refl _
  · rename_i y73 y74 y75 y76 y77 y78
    refine Keeps.via (State.takeLimits_keeps _ _ _) ?_
    refine Keeps.via (State.replayRecord_keeps _ _ _) ?_
    exact Keeps.refl _
  · rename_i y79 y80 y81 y82
    exact Keeps.refl _
  · rename_i y83 y84 y85 y86
    refine Keeps.via (State.modInst_keeps _ _ _) ?_
    exact Keeps.refl _
  · rename_i y87 y88 y89 y90 y91
    refine Keeps.via (State.mapSegs_keeps _ _) ?_
    exact Keeps.refl _
  · rename_i y92 y93 y94 y95
    refine Keeps.forBelow (fun a96 t97 h98 => ?_) ?_
    · extract_lets x99
      refine Keeps.via (State.rawMap_keeps _ _ _ _) ?_
      refine Keeps.via (State.mapSegs_keeps _ _) ?_
      exact h98
    · exact Keeps.refl _
  · rename_i y100 y101
    refine Keeps.via (State.modDie_keeps _ _ _) ?_
    exact Keeps.refl _
  · rename_i y102 y103 y104 y105
    refine Keeps.via (Keeps.set_fss _ _ (by rfl) (by rfl) (by rfl)) ?_
    exact Keeps.refl _

theorem State.loadRoot_keeps : ∀ s a1, Bank.wf instDef a1.inst = true → Keeps s (State.loadRoot s a1) := by
  intro s a1 hw
  unfold State.loadRoot
  dsimp only
  refine Keeps.foldl (fun t e h => ?_) (fun c => ⟨c.nvm, c.sram, c.units, c.root, c.nextRoot, hw, c.fn, c.regs⟩)
  refine Keeps.via (Keeps.set_nextSet_liveSet_prevSet _ _ _ _) ?_
  exact Keeps.via (State.setReg_keeps _ _ _) h

theorem State.unwrapKey_keeps : ∀ s a1 a2, Keeps s (State.unwrapKey s a1 a2) := by
  intro s a1 a2
  unfold State.unwrapKey
  extract_lets x1
  refine Keeps.ite (fun _ => ?_) (fun _ => ?_)
  · exact Keeps.refl _
  · split
    · rename_i y2 y3 y4 y5
      split
      · rename_i y6 y7 y8
        refine Keeps.via (State.modInst_keeps _ _ _) ?_
        exact Keeps.refl _
      · rename_i y9 y10
        refine Keeps.via (State.logEv_keeps _ _ _ _) ?_
        refine Keeps.via (State.modInst_keeps _ _ _) ?_
        exact Keeps.refl _
    · rename_i y11 y12 y13
      exact Keeps.refl _

theorem State.closeOpenBands_keeps : ∀ s, Keeps s (State.closeOpenBands s) := by
  intro s
  unfold State.closeOpenBands
  extract_lets x1 x2 x3 x4
  refine Keeps.cut (t := x2) ?_ (fun h5 => ?_)
  · unfold x2
    refine Keeps.forBelow (fun a6 t7 h8 => ?_) ?_
    · extract_lets x9 x10 x11 x12
      refine Keeps.cut (t := x11) ?_ (fun h13 => ?_)
      · unfold x11
        refine Keeps.forEach (fun a14 t15 h16 => ?_) ?_
        · refine Keeps.via (State.setBlock_keeps _ _ _ _) ?_
          exact h16
        · exact h8
      refine Keeps.ite (fun _ => ?_) (fun _ => ?_)
      · exact h8
      · refine Keeps.via (Keeps.set_fss _ _ (by rfl) (by rfl) (by rfl)) ?_
        exact h13
    · exact Keeps.refl _
  refine Keeps.cut (t := x4) ?_ (fun h17 => ?_)
  · unfold x4
    refine Keeps.via (Keeps.set_fss _ _ (by rfl) (by rfl) (by rfl)) ?_
    exact h5
  refine Keeps.forEach (fun a18 t19 h20 => ?_) ?_
  · refine Keeps.via (State.closeBand_keeps _ _) ?_
    exact h20
  · exact h17

theorem State.trimPool_keeps : ∀ s, Keeps s (State.trimPool s) := by
  intro s
  unfold State.trimPool
  refine Keeps.forBelow (fun a1 t2 h3 => ?_) ?_
  · refine Keeps.via (State.evictLeaf_keeps _) ?_
    exact h3
  · exact Keeps.refl _

theorem State.resumeCounters_keeps : ∀ s, Keeps s (State.resumeCounters s) := by
  intro s
  unfold State.resumeCounters
  refine Keeps.forEach (fun a1 t2 h3 => ?_) ?_
  · refine Keeps.via (State.modInst_keeps _ _ _) ?_
    exact h3
  · exact Keeps.refl _

theorem State.startInstance_keeps : ∀ s a1, Keeps s (State.startInstance s a1) := by
  intro s a1
  unfold State.startInstance
  extract_lets x1 x2 x3 x4 x5 x6 x7 x8
  refine Keeps.cut (t := x3) ?_ (fun h9 => ?_)
  · unfold x3
    refine Keeps.via (State.modInst_keeps _ _ _) ?_
    exact Keeps.refl _
  refine Keeps.cut (t := x4) ?_ (fun h10 => ?_)
  · unfold x4
    refine Keeps.ite (fun _ => ?_) (fun _ => ?_)
    · refine Keeps.via (State.setIState_keeps _ _ _) ?_
      exact h9
    · exact h9
  refine Keeps.cut (t := x6) ?_ (fun h11 => ?_)
  · unfold x6
    refine Keeps.via (State.postOwn_keeps _ _ _ _) ?_
    exact h10
  refine Keeps.cut (t := x7) ?_ (fun h12 => ?_)
  · unfold x7
    refine Keeps.ite (fun _ => ?_) (fun _ => ?_)
    · exact h11
    · refine Keeps.via (State.postPeer_keeps _ _ _ _) ?_
      exact h11
  refine Keeps.cut (t := x8) ?_ (fun h13 => ?_)
  · unfold x8
    refine Keeps.via (State.removeStep4_keeps _ _) ?_
    exact Keeps.refl _
  split
  · rename_i y14 y15
    refine Keeps.via (State.setInsEvt_keeps _ _ _) ?_
    exact h12
  · rename_i y16 y17
    refine Keeps.via (State.setInsEvt_keeps _ _ _) ?_
    exact h12
  · rename_i y18 y19
    refine Keeps.ite (fun _ => ?_) (fun _ => ?_)
    · refine Keeps.via (State.setIState_keeps _ _ _) ?_
      refine Keeps.via (State.destroyKey_keeps _ _) ?_
      exact h13
    · refine Keeps.via (State.setIState_keeps _ _ _) ?_
      exact h13
  · rename_i y20 y21
    refine Keeps.ite (fun _ => ?_) (fun _ => ?_)
    · refine Keeps.via (State.setIState_keeps _ _ _) ?_
      refine Keeps.via (State.destroyKey_keeps _ _) ?_
      exact Keeps.refl _
    · exact Keeps.refl _
  · rename_i y22 y23
    refine Keeps.via (State.destroyKey_keeps _ _) ?_
    exact Keeps.refl _

theorem State.instance0_keeps : ∀ s, Keeps s (State.instance0 s) := by
  intro s
  unfold State.instance0
  split
  rename_i y1 y2 y3 y4
  refine Keeps.via (State.modInst_keeps _ _ _) ?_
  exact Keeps.refl _

theorem State.formatInstance_keeps : ∀ s a1 a2 a3, Keeps s (State.formatInstance s a1 a2 a3) := by
  intro s a1 a2 a3
  unfold State.formatInstance
  split
  rename_i y1 y2 y3 y4
  refine Keeps.via (State.setInst_keeps _ _ _) ?_
  refine Keeps.ofPair y4 ?_
  refine Keeps.via (State.drawKey_keeps _) ?_
  exact Keeps.refl _

theorem State.formatBlocks_keeps : ∀ s a1 a2, Keeps s (State.formatBlocks s a1 a2) := by
  intro s a1 a2
  unfold State.formatBlocks
  extract_lets x1 x2 x3 x4 x5 x6
  refine Keeps.cut (t := x3) ?_ (fun h7 => ?_)
  · unfold x3
    refine Keeps.forEach (fun a8 t9 h10 => ?_) ?_
    · refine Keeps.via (State.setBlock_keeps _ _ _ _) ?_
      exact h10
    · refine Keeps.via (Keeps.set_fss _ _ (by rfl) (by rfl) (by rfl)) ?_
      exact Keeps.refl _
  refine Keeps.cut (t := x6) ?_ (fun h11 => ?_)
  · unfold x6
    refine Keeps.ite (fun _ => ?_) (fun _ => ?_)
    · refine Keeps.forEach (fun a12 t13 h14 => ?_) ?_
      · refine Keeps.forBelow (fun a15 t16 h17 => ?_) ?_
        · refine Keeps.via (State.setBlock_keeps _ _ _ _) ?_
          exact h17
        · exact h14
      · refine Keeps.via (Keeps.set_fss _ _ (by rfl) (by rfl) (by rfl)) ?_
        exact Keeps.refl _
    · refine Keeps.via (Keeps.set_fss _ _ (by rfl) (by rfl) (by rfl)) ?_
      exact h7
  refine Keeps.forEach (fun a18 t19 h20 => ?_) ?_
  · refine Keeps.forEach (fun a21 t22 h23 => ?_) ?_
    · refine Keeps.via (State.setBlock_keeps _ _ _ _) ?_
      exact h23
    · exact h20
  · exact h11

theorem State.giveLimits_keeps : ∀ s a1 a2, Keeps s (State.giveLimits s a1 a2) := by
  intro s a1 a2
  unfold State.giveLimits
  extract_lets x1 x2 x3 x4
  refine Keeps.cut (t := x4) ?_ (fun h5 => ?_)
  · unfold x4
    refine Keeps.via (State.takeLimits_keeps _ _ _) ?_
    exact Keeps.refl _
  refine Keeps.ite (fun _ => ?_) (fun _ => ?_)
  · refine Keeps.via (State.note_keeps _ _ _) ?_
    exact h5
  · exact h5

theorem State.formatRecord_keeps : ∀ s a1, Keeps s (State.formatRecord s a1) := by
  intro s a1
  unfold State.formatRecord
  refine Keeps.ite (fun _ => ?_) (fun _ => ?_)
  · refine Keeps.via (State.giveLimits_keeps _ _ _) ?_
    exact Keeps.refl _
  · refine Keeps.via (State.giveLimits_keeps _ _ _) ?_
    refine Keeps.via (State.formatInstance_keeps _ _ _ _) ?_
    exact Keeps.refl _

theorem State.format_keeps : ∀ s a1 a2, Keeps s (State.format s a1 a2) := by
  intro s a1 a2
  unfold State.format
  extract_lets x1 x2 x3
  refine Keeps.cut (t := x1) ?_ (fun h4 => ?_)
  · unfold x1
    refine Keeps.via (State.formatBlocks_keeps _ _ _) ?_
    exact Keeps.refl _
  refine Keeps.cut (t := x3) ?_ (fun h5 => ?_)
  · unfold x3
    refine Keeps.via (t := x1) (fun c => ⟨c.nvm, c.sram, rfl, (fun r e => by cases e), c.nextRoot, rfl, c.fn, c.regs⟩) ?_
    exact h4
  split
  rename_i y6 y7 y8 y9
  extract_lets x10 x11 x12 x13 x14 x15
  refine Keeps.cut (t := x10) ?_ (fun h16 => ?_)
  · unfold x10
    refine Keeps.via (State.formatInstance_keeps _ _ _ _) ?_
    exact h5
  refine Keeps.cut (t := x12) ?_ (fun h17 => ?_)
  · unfold x12
    refine Keeps.via (State.writeAnchor_keeps _) ?_
    refine Keeps.forEach (fun a18 t19 h20 => ?_) ?_
    · refine Keeps.via (State.formatRecord_keeps _ _) ?_
      exact h20
    · exact h16
  refine Keeps.cut (t := x13) ?_ (fun h21 => ?_)
  · unfold x13
    refine Keeps.via (State.storeSettings_keeps _ _ _ _ _) ?_
    exact h17
  refine Keeps.cut (t := x15) ?_ (fun h22 => ?_)
  · unfold x15
    refine Keeps.ite (fun _ => ?_) (fun _ => ?_)
    · refine Keeps.via (Keeps.set_nvs _ _) ?_
      exact h21
    · exact h17
  refine Keeps.via (State.note_keeps _ _ _) ?_
  exact h22

theorem State.unmounted_keeps : ∀ s, Keeps s (State.unmounted s) := by
  intro s
  unfold State.unmounted
  extract_lets x1 x2 x3
  refine Keeps.cut (t := x2) ?_ (fun h4 => ?_)
  · unfold x2
    refine Keeps.via (Keeps.set_inst_fss _ _ _ (fun c => rfl) (by rfl) (by rfl) (by rfl)) ?_
    exact Keeps.refl _
  refine Keeps.via (State.modInst_keeps _ _ _) ?_
  refine Keeps.via (State.instance0_keeps _) ?_
  refine Keeps.via (State.setInst_keeps _ _ _) ?_
  exact h4

theorem State.landSystem_keeps : ∀ s, Keeps s (State.landSystem s) := by
  intro s
  unfold State.landSystem
  refine Keeps.forEach (fun a1 t2 h3 => ?_) ?_
  · refine Keeps.via (State.pageDone_keeps _ _) ?_
    exact h3
  · exact Keeps.refl _

theorem State.firstFlush_keeps : ∀ s, Keeps s (State.firstFlush s) := by
  intro s
  unfold State.firstFlush
  refine Keeps.via (State.flushLanded_keeps _) ?_
  refine Keeps.via (State.landSystem_keeps _) ?_
  refine Keeps.via (State.flushOut_keeps _) ?_
  exact Keeps.refl _

theorem State.mount_keeps : ∀ s, Keeps s (State.mount s) := by
  intro s
  unfold State.mount
  extract_lets x1 x2 x3 x4
  refine Keeps.cut (t := x2) ?_ (fun h5 => ?_)
  · unfold x2
    refine Keeps.via (Keeps.set_fss _ _ (by rfl) (by rfl) (by rfl)) ?_
    exact Keeps.refl _
  refine Keeps.cut (t := x3) ?_ (fun h6 => ?_)
  · unfold x3
    refine Keeps.forEach (fun a7 t8 h9 => ?_) ?_
    · refine Keeps.via (State.startInstance_keeps _ _) ?_
      exact h9
    · exact h5
  refine Keeps.cut (t := x4) ?_ (fun h10 => ?_)
  · unfold x4
    refine Keeps.forEach (fun a11 t12 h13 => ?_) ?_
    · refine Keeps.via (State.refreshUsed_keeps _ _) ?_
      exact h13
    · exact h6
  refine Keeps.via (State.firstFlush_keeps _) ?_
  refine Keeps.via (State.landSystem_keeps _) ?_
  refine Keeps.via (State.writeRoot_keeps _) ?_
  refine Keeps.via (State.listBlocks_keeps _) ?_
  refine Keeps.via (State.recap_keeps _) ?_
  exact h10

theorem placeIfNewer_keeps : ∀ marks pua e, Keeps e.1 (placeIfNewer marks pua e).1 := by
  intro marks pua e
  obtain ⟨s, js⟩ := e
  unfold placeIfNewer
  dsimp only
  split <;> split
  · exact Keeps.refl _
  · exact Keeps.set_fss _ _ (by rfl) (by rfl) (by rfl)
  · exact Keeps.refl _
  · refine Keeps.via (State.rawMap_keeps _ _ _ _) ?_
    exact Keeps.ite (fun _ => State.mapSegs_keeps _ _) (fun _ => Keeps.refl _)

theorem State.rebuildMap_keeps : ∀ s a1 a2, Bank.wf instDef a2.inst = true → Keeps s (State.rebuildMap s a1 a2) := by
  intro s a1 a2 hw
  have hp : ∀ (t : State) (xs : List Nat) (j : JSeq), Keeps s t →
      Keeps s (xs.foldl (fun e p => placeIfNewer a2.watermark p e) (t, j)).1 := by
    intro t xs
    induction xs generalizing t with
    | nil => exact fun _ h => h
    | cons p r ih =>
      intro j h
      exact ih _ _ (Keeps.via (placeIfNewer_keeps a2.watermark p (t, j)) h)
  unfold State.rebuildMap
  refine Keeps.via (State.trimPool_keeps _) (Keeps.via (State.resumeCounters_keeps _)
    (Keeps.via (State.closeOpenBands_keeps _) (hp _ _ _ ?_)))
  refine Keeps.forEach (fun i t h => Keeps.via (State.unwrapKey_keeps _ _ _) h) ?_
  refine Keeps.via (State.instance0_keeps _) (Keeps.via (Keeps.set_inst _ _ (fun c => Bank.wf_mapVals c.inst)) ?_)
  exact Keeps.forEach (fun e t h => Keeps.via (State.replay_keeps _ _) h)
    (Keeps.via (State.loadRoot_keeps _ _ hw) (Keeps.set_fss _ _ (by rfl) (by rfl) (by rfl)))

theorem State.failDies_keeps : ∀ s a1, Keeps s (State.failDies s a1) := by
  intro s a1
  unfold State.failDies
  refine Keeps.forBelow (fun a1 t2 h3 => ?_) ?_
  · extract_lets x4
    refine Keeps.ite (fun _ => ?_) (fun _ => ?_)
    · refine Keeps.via (State.dieFail_keeps _ _) ?_
      exact h3
    · exact h3
  · exact Keeps.refl _

theorem State.mapStep_keeps : ∀ s a1, Keeps s (State.mapStep s a1) := by
  intro s a1 c
  unfold State.mapStep
  dsimp only
  split
  · exact State.unmounted_keeps _ (State.note_keeps _ _ _ c)
  · split
    · exact State.failDies_keeps _ _ (State.mount_keeps _ (State.format_keeps _ _ _ c))
    · split
      · rename_i r hr
        have hw : Bank.wf instDef r.inst = true := by
          split at hr
          · exact c.root r hr
          · cases hr
        exact State.failDies_keeps _ _ (State.mount_keeps _ (State.rebuildMap_keeps _ _ _ hw c))
      · exact State.unmounted_keeps _ (State.note_keeps _ _ _ c)

theorem State.finishPrograms_keeps : ∀ s, Keeps s (State.finishPrograms s) := by
  intro s
  unfold State.finishPrograms
  extract_lets x1
  refine Keeps.cut (t := x1) ?_ (fun h2 => ?_)
  · unfold x1
    refine Keeps.via (State.landPages_keeps _) ?_
    exact Keeps.refl _
  refine Keeps.via (Keeps.landed _) ?_
  exact h2

theorem execPerstNDeassert_keeps : ∀ s z, Keeps s (runRow (execPerstNDeassert s) z) := by
  intro s z
  unfold execPerstNDeassert
  rw [runRow_next]
  refine Keeps.ite (fun _ => ?_) (fun _ => ?_)
  · exact Keeps.refl _
  · extract_lets x1 x2 x3 x4 x5
    refine Keeps.cut (t := x2) ?_ (fun h6 => ?_)
    · unfold x2
      refine Keeps.via (Keeps.set_hlt _ _) ?_
      exact Keeps.refl _
    refine Keeps.cut (t := x4) ?_ (fun h7 => ?_)
    · unfold x4
      refine Keeps.via (Keeps.set_clk _ _) ?_
      exact h6
    refine Keeps.ite (fun _ => ?_) (fun _ => ?_)
    · exact h6
    · refine Keeps.ite (fun _ => ?_) (fun _ => ?_)
      · refine Keeps.via (State.note_keeps _ _ _) ?_
        refine Keeps.via (Keeps.set_boot _ _) ?_
        exact h7
      · exact h7

theorem State.stepClocks_keeps : ∀ s, Keeps s (State.stepClocks s) := fun _ =>
  Keeps.ofOnly (State.stepClocks_only _) rfl

theorem State.readCells_keeps : ∀ s a1, Keeps s (State.readCells s a1) := fun _ _ =>
  Keeps.ofOnly (State.readCells_only _ _) rfl

theorem State.revoke_keeps : ∀ s, Keeps s (State.revoke s) := by
  intro s
  unfold State.revoke
  extract_lets x1 x2
  clear_value x1
  split
  · rename_i y3
    exact Keeps.refl _
  · rename_i y4 y5
    split
    rename_i y6 y7 y8 y9
    extract_lets x10 x11 x12 x13 x14
    refine Keeps.cut (t := x11) ?_ (fun h15 => ?_)
    · unfold x11
      refine Keeps.via (Keeps.set_sea _ _) ?_
      refine Keeps.ofPair y9 ?_
      refine Keeps.via (State.draw_keeps _) ?_
      exact Keeps.refl _
    refine Keeps.cut (t := x12) ?_ (fun h16 => ?_)
    · unfold x12
      refine Keeps.via (State.monStore_keeps _ _ _ _ _) ?_
      exact h15
    refine Keeps.cut (t := x14) ?_ (fun h17 => ?_)
    · unfold x14
      refine Keeps.via (Keeps.set_mon _ _ (by rfl)) ?_
      exact h16
    refine Keeps.via (State.monEvent_keeps _ _ _) ?_
    exact h17

theorem State.chooseRoot_keeps : ∀ s, Keeps s (State.chooseRoot s) := by
  intro s
  unfold State.chooseRoot
  split
  · rename_i y1 y2
    refine Keeps.via (State.haltBy_keeps _ _) ?_
    exact Keeps.refl _
  · rename_i y3 y4 y5
    extract_lets x6 x7 x8 x9 x10
    refine Keeps.cut (t := x10) ?_ (fun h11 => ?_)
    · unfold x10
      refine Keeps.via (Keeps.set_sea _ _) ?_
      exact Keeps.refl _
    refine Keeps.ite (fun _ => ?_) (fun _ => ?_)
    · refine Keeps.via (State.note_keeps _ _ _) ?_
      exact h11
    · exact h11

theorem State.checkCounters_keeps : ∀ s, Keeps s (State.checkCounters s) := by
  intro s
  unfold State.checkCounters
  extract_lets x1
  refine Keeps.cut (t := x1) ?_ (fun h2 => ?_)
  · unfold x1
    split
    · rename_i y3 y4 y5 y6
      extract_lets x7 x8 x9
      refine Keeps.cut (t := x7) ?_ (fun h10 => ?_)
      · unfold x7
        refine Keeps.ite (fun _ => ?_) (fun _ => ?_)
        · refine Keeps.via (State.ctrStore_keeps _ _ _) ?_
          exact Keeps.refl _
        · exact Keeps.refl _
      refine Keeps.cut (t := x8) ?_ (fun h11 => ?_)
      · unfold x8
        refine Keeps.via (State.nvmWrite_keeps _ _ _) ?_
        exact h10
      refine Keeps.via (State.note_keeps _ _ _) ?_
      refine Keeps.via (Keeps.set_nvs _ _) ?_
      exact h11
    · rename_i y12 y13
      exact Keeps.refl _
  split
  · rename_i y14 y15 y16
    refine Keeps.via (State.haltBy_keeps _ _) ?_
    exact h2
  · rename_i y17 y18
    refine Keeps.ite (fun _ => ?_) (fun _ => ?_)
    · refine Keeps.via (State.ctrStore_keeps _ _ _) ?_
      exact h2
    · exact h2

theorem State.quarantineStep_keeps : ∀ s, Keeps s (State.quarantineStep s) := by
  intro s
  unfold State.quarantineStep
  extract_lets x1 x2 x3
  refine Keeps.cut (t := x3) ?_ (fun h4 => ?_)
  · unfold x3
    refine Keeps.via (Keeps.set_hlt_sea _ _ _) ?_
    exact Keeps.refl _
  refine Keeps.ite (fun _ => ?_) (fun _ => ?_)
  · split
    · rename_i y5 y6 y7 y8 y9
      extract_lets x10 x11
      refine Keeps.ite (fun _ => ?_) (fun _ => ?_)
      · refine Keeps.via (State.quarantine_keeps _ _) ?_
        exact h4
      · refine Keeps.ite (fun _ => ?_) (fun _ => ?_)
        · refine Keeps.via (State.quarantine_keeps _ _) ?_
          exact h4
        · exact h4
    · rename_i y12 y13 y14
      exact h4
  · exact h4

theorem State.stepTests_keeps : ∀ s a1, Keeps s (State.stepTests s a1) := by
  intro s a1
  unfold State.stepTests
  split
  · rename_i y1 y2
    refine Keeps.via (State.haltBy_keeps _ _) ?_
    exact Keeps.refl _
  · rename_i y3
    refine Keeps.via (Keeps.set_sea _ _) ?_
    exact Keeps.refl _

theorem State.enterMonitor_keeps : ∀ s, Keeps s (State.enterMonitor s) := by
  intro s
  unfold State.enterMonitor
  extract_lets x1 x2 x3
  refine Keeps.cut (t := x2) ?_ (fun h4 => ?_)
  · unfold x2
    refine Keeps.via (Keeps.set_mon _ _ (by rfl)) ?_
    exact Keeps.refl _
  refine Keeps.cut (t := x3) ?_ (fun h5 => ?_)
  · unfold x3
    refine Keeps.via (State.monEvent_keeps _ _ _) ?_
    exact h4
  refine Keeps.via (State.emit_keeps _ _) ?_
  refine Keeps.via (State.emit_keeps _ _) ?_
  exact h5

theorem State.startSlot_keeps : ∀ s a1 a2, Keeps s (State.startSlot s a1 a2) := fun _ _ _ =>
  Keeps.ofOnly (State.startSlot_only _ _ _) rfl

theorem State.chooseSlot_keeps : ∀ s a1, Keeps s (State.chooseSlot s a1) := by
  intro s a1
  unfold State.chooseSlot
  extract_lets x1 x2 x3 x4 x5
  refine Keeps.cut (t := x3) ?_ (fun h6 => ?_)
  · unfold x3
    refine Keeps.ite (fun _ => ?_) (fun _ => ?_)
    · refine Keeps.via (State.writeSlot_keeps _ _) ?_
      exact Keeps.refl _
    · refine Keeps.ite (fun _ => ?_) (fun _ => ?_)
      · refine Keeps.via (State.writeSlot_keeps _ _) ?_
        exact Keeps.refl _
      · exact Keeps.refl _
  refine Keeps.cut (t := x5) ?_ (fun h7 => ?_)
  · unfold x5
    refine Keeps.ite (fun _ => ?_) (fun _ => ?_)
    · refine Keeps.via (State.startSlot_keeps _ _ _) ?_
      exact h6
    · refine Keeps.ite (fun _ => ?_) (fun _ => ?_)
      · refine Keeps.via (State.note_keeps _ _ _) ?_
        refine Keeps.via (State.startSlot_keeps _ _ _) ?_
        exact h6
      · refine Keeps.via (State.haltBy_keeps _ _) ?_
        exact h6
  refine Keeps.ite (fun _ => ?_) (fun _ => ?_)
  · refine Keeps.via (State.note_keeps _ _ _) ?_
    exact h7
  · exact h7

theorem State.loadSettings_keeps : ∀ s, Keeps s (State.loadSettings s) := by
  intro s
  unfold State.loadSettings
  extract_lets x1 x2 x3
  refine Keeps.ite (fun _ => ?_) (fun _ => ?_)
  · refine Keeps.via (State.note_keeps _ _ _) ?_
    refine Keeps.via (Keeps.set_nvs _ _) ?_
    exact Keeps.refl _
  · split
    · rename_i y4 y5 y6 y7 y8
      refine Keeps.via (State.takeCopy_keeps _ _ _) ?_
      exact Keeps.refl _
    · rename_i y9 y10 y11
      refine Keeps.via (State.haltBy_keeps _ _) ?_
      exact Keeps.refl _

theorem State.applySettings_keeps : ∀ s, Keeps s (State.applySettings s) := by
  intro s
  unfold State.applySettings
  have h : s.Canon → Bank.wf regReset (s.storedOver (fun _ => true) s.regs) = true := fun c => State.wf_storedOver s c.regs
  generalize s.storedOver (fun _ => true) s.regs = b at h ⊢
  extract_lets x e t
  have ht : Keeps s t := fun c => ⟨c.nvm, c.sram, c.units, c.root, c.nextRoot, c.inst, c.fn, h c⟩
  clear_value t
  split
  dsimp only
  refine Keeps.forEach (fun k u hu => Keeps.via (State.note_keeps _ _ _) hu) ?_
  exact Keeps.via (Keeps.set_link _ _) (Keeps.via (State.setReg_keeps _ _ _) ht)

theorem State.monitorItem_keeps : ∀ s, Keeps s (State.monitorItem s) := by
  intro s
  unfold State.monitorItem
  split
  · rename_i y1 y2 y3
    extract_lets x4
    refine Keeps.ite (fun _ => ?_) (fun _ => ?_)
    · exact Keeps.refl _
    · refine Keeps.via (State.monStore_keeps _ _ _ _ _) ?_
      exact Keeps.refl _
  · rename_i y5 y6
    exact Keeps.refl _

theorem State.laserStart_keeps : ∀ s, Keeps s (State.laserStart s) := fun _ =>
  Keeps.ofOnly (State.laserStart_only _) rfl

theorem State.startItem_keeps : ∀ s a1 a2, Keeps s (State.startItem s a1 a2) := by
  intro s a1 a2
  unfold State.startItem
  split
  · rename_i y1 y2
    refine Keeps.via (State.endItem_keeps _ _ _ _ _) ?_
    exact Keeps.refl _
  · rename_i y3
    refine Keeps.via (State.calFailed_keeps _ _ _) ?_
    exact Keeps.refl _

theorem State.stepCal_keeps : ∀ s a1, Keeps s (State.stepCal s a1) := by
  intro s a1
  unfold State.stepCal
  extract_lets x1 x2 x3 x4
  refine Keeps.cut (t := x1) ?_ (fun h5 => ?_)
  · unfold x1
    refine Keeps.via (State.loadCal_keeps _) ?_
    exact Keeps.refl _
  refine Keeps.cut (t := x3) ?_ (fun h6 => ?_)
  · unfold x3
    refine Keeps.ite (fun _ => ?_) (fun _ => ?_)
    · exact h5
    · refine Keeps.via (Keeps.set_cal _ _) ?_
      exact h5
  refine Keeps.cut (t := x4) ?_ (fun h7 => ?_)
  · unfold x4
    refine Keeps.forBelow (fun a8 t9 h10 => ?_) ?_
    · refine Keeps.via (State.recompute_keeps _ _) ?_
      exact h10
    · refine Keeps.via (State.recomputeDie_keeps _) ?_
      exact h6
  refine Keeps.forEach (fun a11 t12 h13 => ?_) ?_
  · refine Keeps.via (State.startItem_keeps _ _ _) ?_
    exact h13
  · exact h7

theorem State.refillLog_keeps : ∀ s a1, Keeps s (State.refillLog s a1) := fun _ _ =>
  Keeps.ofOnly (State.refillLog_only _ _) rfl

theorem State.monitorEvents_keeps : ∀ s, Keeps s (State.monitorEvents s) := by
  intro s
  unfold State.monitorEvents
  extract_lets x1 x2
  refine Keeps.forEach (fun a3 t4 h5 => ?_) ?_
  · refine Keeps.via (State.note_keeps _ _ _) ?_
    exact h5
  · refine Keeps.via (Keeps.set_mon _ _ (by rfl)) ?_
    exact Keeps.refl _

theorem State.stepDram_keeps : ∀ s a1, Keeps s (State.stepDram s a1) := by
  intro s a1
  unfold State.stepDram
  split
  · rename_i y1 y2
    refine Keeps.withRandom (fun t3 h4 => ?_) ?_
    · extract_lets x5 x6 x7 x8
      refine Keeps.cut (t := x5) ?_ (fun h9 => ?_)
      · unfold x5
        refine Keeps.via (State.monitorEvents_keeps _) ?_
        exact h4
      refine Keeps.cut (t := x7) ?_ (fun h10 => ?_)
      · unfold x7
        refine Keeps.via (Keeps.set_boot _ _) ?_
        exact h9
      refine Keeps.via (State.drawLineKeys_keeps _) ?_
      refine Keeps.via (Keeps.set_sea _ _) ?_
      exact h10
    · exact Keeps.refl _
  · rename_i y11
    extract_lets x12 x13 x14 x15 x16
    refine Keeps.cut (t := x12) ?_ (fun h17 => ?_)
    · unfold x12
      refine Keeps.via (State.monitorEvents_keeps _) ?_
      exact Keeps.refl _
    refine Keeps.cut (t := x14) ?_ (fun h18 => ?_)
    · unfold x14
      refine Keeps.via (Keeps.set_boot _ _) ?_
      exact h17
    refine Keeps.via (State.refillLog_keeps _ _) ?_
    refine Keeps.via (State.note_keeps _ _ _) ?_
    refine Keeps.via (Keeps.set_boot_arc _ _ _) ?_
    exact h18

theorem State.bootFirst_keeps : ∀ s a1, Keeps s (State.bootFirst s a1) := by
  intro s a1
  unfold State.bootFirst
  extract_lets x1 x2 x3 x4 x5 x6 x7 x8 x9
  refine Keeps.cut (t := x1) ?_ (fun h10 => ?_)
  · unfold x1
    refine Keeps.via (State.readCells_keeps _ _) ?_
    refine Keeps.via (State.stepClocks_keeps _) ?_
    exact Keeps.refl _
  refine Keeps.cut (t := x3) ?_ (fun h11 => ?_)
  · unfold x3
    refine Keeps.via (Keeps.set_boot _ _) ?_
    exact h10
  refine Keeps.cut (t := x4) ?_ (fun h12 => ?_)
  · unfold x4
    refine Keeps.ite (fun _ => ?_) (fun _ => ?_)
    · refine Keeps.via (State.revoke_keeps _) ?_
      exact h11
    · exact h11
  refine Keeps.cut (t := x5) ?_ (fun h13 => ?_)
  · unfold x5
    refine Keeps.via (State.chooseRoot_keeps _) ?_
    exact h12
  refine Keeps.cut (t := x6) ?_ (fun h14 => ?_)
  · unfold x6
    refine Keeps.ite (fun _ => ?_) (fun _ => ?_)
    · refine Keeps.via (State.quarantineStep_keeps _) ?_
      refine Keeps.via (State.checkCounters_keeps _) ?_
      exact h13
    · exact h13
  refine Keeps.cut (t := x8) ?_ (fun h15 => ?_)
  · unfold x8
    refine Keeps.via (State.stepTests_keeps _ _) ?_
    refine Keeps.via (Keeps.set_boot _ _) ?_
    exact h14
  refine Keeps.ite (fun _ => ?_) (fun _ => ?_)
  · exact h14
  · refine Keeps.ite (fun _ => ?_) (fun _ => ?_)
    · refine Keeps.via (Keeps.set_boot _ _) ?_
      exact h15
    · exact h15

theorem State.bootSecond_keeps : ∀ s a1, Keeps s (State.bootSecond s a1) := by
  intro s a1
  unfold State.bootSecond
  extract_lets x1 x2 x3 x4 x5 x6 x7 x8 x9
  refine Keeps.cut (t := x1) ?_ (fun h10 => ?_)
  · unfold x1
    refine Keeps.via (State.chooseSlot_keeps _ _) ?_
    exact Keeps.refl _
  refine Keeps.cut (t := x3) ?_ (fun h11 => ?_)
  · unfold x3
    refine Keeps.via (State.loadSettings_keeps _) ?_
    refine Keeps.via (Keeps.set_boot _ _) ?_
    exact h10
  refine Keeps.cut (t := x4) ?_ (fun h12 => ?_)
  · unfold x4
    refine Keeps.via (State.laserStart_keeps _) ?_
    refine Keeps.via (State.monitorItem_keeps _) ?_
    refine Keeps.via (State.applySettings_keeps _) ?_
    exact h11
  refine Keeps.cut (t := x7) ?_ (fun h13 => ?_)
  · unfold x7
    refine Keeps.via (Keeps.set_boot_pwb _ _ _) ?_
    exact h12
  refine Keeps.cut (t := x8) ?_ (fun h14 => ?_)
  · unfold x8
    refine Keeps.via (State.stepCal_keeps _ _) ?_
    exact h13
  refine Keeps.ite (fun _ => ?_) (fun _ => ?_)
  · exact h10
  · refine Keeps.ite (fun _ => ?_) (fun _ => ?_)
    · exact h11
    · refine Keeps.via (State.stepDram_keeps _ _) ?_
      refine Keeps.via (Keeps.set_boot _ _) ?_
      exact h14

theorem State.bootThird_keeps : ∀ s a1, Keeps s (State.bootThird s a1) := by
  intro s a1
  unfold State.bootThird
  extract_lets x1 x2 x3 x4 x5 x6
  refine Keeps.cut (t := x1) ?_ (fun h7 => ?_)
  · unfold x1
    refine Keeps.via (State.identify_keeps _ _) ?_
    exact Keeps.refl _
  refine Keeps.cut (t := x3) ?_ (fun h8 => ?_)
  · unfold x3
    refine Keeps.ite (fun _ => ?_) (fun _ => ?_)
    · refine Keeps.via (State.unmounted_keeps _) ?_
      exact h7
    · refine Keeps.via (State.mapStep_keeps _ _) ?_
      refine Keeps.via (State.refillLog_keeps _ _) ?_
      refine Keeps.via (Keeps.set_boot _ _) ?_
      exact h7
  refine Keeps.via (Keeps.set_boot_fss _ _ _ (by rfl) (by rfl) (by rfl)) ?_
  exact h8

theorem execStartupSequence_keeps : ∀ a0 s z, Keeps s (runRow (execStartupSequence a0 s) z) := by
  intro a0 s z
  unfold execStartupSequence
  rw [runRow_next]
  refine Keeps.whenRunning (fun t h => ?_) (Keeps.refl _)
  refine Keeps.ite (fun _ => h) (fun _ => ?_)
  refine Keeps.ite (fun _ => ?_) (fun _ => ?_)
  · have hb := Keeps.via (State.bootFirst_keeps t a0) h
    dsimp only
    refine Keeps.ite (fun _ => hb) (fun _ => ?_)
    exact Keeps.ite (fun _ => Keeps.via (State.enterMonitor_keeps _) hb) (fun _ => Keeps.via (State.bootSecond_keeps _ _) hb)
  · refine Keeps.ite (fun _ => Keeps.via (State.bootSecond_keeps _ _) h) (fun _ => ?_)
    refine Keeps.ite (fun _ => Keeps.via (State.stepDram_keeps _ _) h) (fun _ => ?_)
    refine Keeps.ite (fun _ => ?_) (fun _ => h)
    refine Keeps.ite (fun _ => ?_) (fun _ => Keeps.via (State.bootThird_keeps _ _) h)
    exact Keeps.withRandom (fun u hu => Keeps.via (State.bootThird_keeps _ _) hu) h

theorem execSweepWatermark_keeps : ∀ a0 s z, Keeps s (runRow (execSweepWatermark a0 s) z) := fun _ _ _ =>
  Keeps.ofOnly (execSweepWatermark_only _ _ _) rfl

theorem execSweepComplete_keeps : ∀ s z, Keeps s (runRow (execSweepComplete s) z) := fun _ _ =>
  Keeps.ofOnly (execSweepComplete_only _ _) rfl

theorem State.endTrial_keeps : ∀ s, Keeps s (State.endTrial s) := by
  intro s
  unfold State.endTrial
  extract_lets x1
  refine Keeps.ite (fun _ => ?_) (fun _ => ?_)
  · refine Keeps.via (State.ctrRaise_keeps _ _ _) ?_
    refine Keeps.via (State.writeSlot_keeps _ _) ?_
    exact Keeps.refl _
  · exact Keeps.refl _

theorem execFirstReadyState_keeps : ∀ s z, Keeps s (runRow (execFirstReadyState s) z) := by
  intro s z
  unfold execFirstReadyState
  rw [runRow_next]
  refine Keeps.whenRunning (fun t1 h2 => ?_) ?_
  · refine Keeps.ite (fun _ => ?_) (fun _ => ?_)
    · exact h2
    · extract_lets x3 x4 x5 x6 x7
      refine Keeps.cut (t := x3) ?_ (fun h8 => ?_)
      · unfold x3
        refine Keeps.via (State.endTrial_keeps _) ?_
        exact h2
      refine Keeps.cut (t := x6) ?_ (fun h9 => ?_)
      · unfold x6
        refine Keeps.via (State.note_keeps _ _ _) ?_
        exact h8
      refine Keeps.via (State.settle_keeps _) ?_
      refine Keeps.via (Keeps.set_boot _ _) ?_
      exact h9
  · exact Keeps.refl _

theorem State.withFetchWord_keeps : ∀ s a1 a2, Keeps s (State.withFetchWord s a1 a2) := fun _ _ _ =>
  Keeps.ofOnly (State.withFetchWord_only _ _ _) rfl

theorem State.rebooted_keeps : ∀ s, Keeps s (State.rebooted s) := fun _ c =>
  ⟨c.nvm, rfl, Bank.wf_filter c.units, c.root, (fun w e => nomatch e), rfl, rfl, rfl⟩

theorem State.powerReset_keeps : ∀ s, Keeps s (State.powerReset s) := fun _ c =>
  ⟨c.nvm, rfl, Bank.wf_filter c.units, c.root, (fun w e => nomatch e), rfl, rfl, rfl⟩

theorem State.perstReset_keeps : ∀ s, Keeps s (State.perstReset s) := by
  intro s c
  have h := State.finishPrograms_keeps _ (State.recordHalt_keeps _ c)
  unfold State.perstReset
  generalize s.recordHalt.finishPrograms = t at h ⊢
  exact ⟨h.nvm, rfl, Bank.wf_filter h.units, h.root, (fun w e => nomatch e), rfl, rfl, rfl⟩

theorem execPowerOnReset_keeps : ∀ a0 s z, Keeps s (runRow (execPowerOnReset a0 s) z) := fun _ _ _ c =>
  ⟨c.nvm, rfl, Bank.wf_filter c.units, c.root, (fun w e => nomatch e), rfl, rfl, rfl⟩

theorem execBrownOut_keeps : ∀ a0 s z, Keeps s (runRow (execBrownOut a0 s) z) := fun _ _ _ c =>
  ⟨c.nvm, rfl, Bank.wf_filter c.units, c.root, (fun w e => nomatch e), rfl, rfl, rfl⟩

theorem execPerstNAssert_keeps : ∀ s z, Keeps s (runRow (execPerstNAssert s) z) := by
  intro s z
  unfold execPerstNAssert
  rw [runRow_next]
  refine Keeps.ite (fun _ => Keeps.set_hlt _ _) (fun _ => State.perstReset_keeps _)

end Sys2Proof.Machine
end

