-- ==== Sys2Proof/Laws/State.lean ====
section
/-! SUPPORT. What each field of State holds after each basic update, true by unfolding; and what a register, an instance or a function
reads as after it is written. -/

namespace Sys2Proof.Machine

variable (s : State)

@[simp] theorem State.emit_pending (e : Emit) : (s.emit e).pending = s.pending := rfl
@[simp] theorem State.emit_out (e : Emit) : (s.emit e).out = e :: s.out := rfl
@[simp] theorem State.emit_free (e : Emit) : (s.emit e).free = s.free := rfl
@[simp] theorem State.emit_regs (e : Emit) : (s.emit e).regs = s.regs := rfl
@[simp] theorem State.emit_nextSet (e : Emit) : (s.emit e).nextSet = s.nextSet := rfl
@[simp] theorem State.emit_liveSet (e : Emit) : (s.emit e).liveSet = s.liveSet := rfl
@[simp] theorem State.emit_prevSet (e : Emit) : (s.emit e).prevSet = s.prevSet := rfl
@[simp] theorem State.emit_latches (e : Emit) : (s.emit e).latches = s.latches := rfl
@[simp] theorem State.emit_epoch (e : Emit) : (s.emit e).epoch = s.epoch := rfl
@[simp] theorem State.emit_tm (e : Emit) : (s.emit e).tm = s.tm := rfl
@[simp] theorem State.emit_hlt (e : Emit) : (s.emit e).hlt = s.hlt := rfl
@[simp] theorem State.emit_boot (e : Emit) : (s.emit e).boot = s.boot := rfl
@[simp] theorem State.emit_log (e : Emit) : (s.emit e).log = s.log := rfl
@[simp] theorem State.emit_nvm (e : Emit) : (s.emit e).nvm = s.nvm := rfl
@[simp] theorem State.emit_fw (e : Emit) : (s.emit e).fw = s.fw := rfl
@[simp] theorem State.emit_nvs (e : Emit) : (s.emit e).nvs = s.nvs := rfl
@[simp] theorem State.emit_link (e : Emit) : (s.emit e).link = s.link := rfl
@[simp] theorem State.emit_sec (e : Emit) : (s.emit e).sec = s.sec := rfl
@[simp] theorem State.emit_inst (e : Emit) : (s.emit e).inst = s.inst := rfl
@[simp] theorem State.emit_fn (e : Emit) : (s.emit e).fn = s.fn := rfl
@[simp] theorem State.emit_cmds (e : Emit) : (s.emit e).cmds = s.cmds := rfl
@[simp] theorem State.emit_nextCmd (e : Emit) : (s.emit e).nextCmd = s.nextCmd := rfl
@[simp] theorem State.emit_oldOps (e : Emit) : (s.emit e).oldOps = s.oldOps := rfl
@[simp] theorem State.emit_due (e : Emit) : (s.emit e).due = s.due := rfl
@[simp] theorem State.emit_reads (e : Emit) : (s.emit e).reads = s.reads := rfl
@[simp] theorem State.emit_nextTag (e : Emit) : (s.emit e).nextTag = s.nextTag := rfl
@[simp] theorem State.emit_lastFn (e : Emit) : (s.emit e).lastFn = s.lastFn := rfl
@[simp] theorem State.emit_dbErr (e : Emit) : (s.emit e).dbErr = s.dbErr := rfl
@[simp] theorem State.emit_sqErr (e : Emit) : (s.emit e).sqErr = s.sqErr := rfl
@[simp] theorem State.emit_fss (e : Emit) : (s.emit e).fss = s.fss := rfl
@[simp] theorem State.emit_sea (e : Emit) : (s.emit e).sea = s.sea := rfl
@[simp] theorem State.emit_mch (e : Emit) : (s.emit e).mch = s.mch := rfl
@[simp] theorem State.emit_fetches (e : Emit) : (s.emit e).fetches = s.fetches := rfl
@[simp] theorem State.emit_arc (e : Emit) : (s.emit e).arc = s.arc := rfl
@[simp] theorem State.emit_drives (e : Emit) : (s.emit e).drives = s.drives := rfl
@[simp] theorem State.emit_clk (e : Emit) : (s.emit e).clk = s.clk := rfl
@[simp] theorem State.emit_pwb (e : Emit) : (s.emit e).pwb = s.pwb := rfl
@[simp] theorem State.emit_stl (e : Emit) : (s.emit e).stl = s.stl := rfl
@[simp] theorem State.emit_inp (e : Emit) : (s.emit e).inp = s.inp := rfl
@[simp] theorem State.emit_sns (e : Emit) : (s.emit e).sns = s.sns := rfl
@[simp] theorem State.emit_cal (e : Emit) : (s.emit e).cal = s.cal := rfl
@[simp] theorem State.emit_mon (e : Emit) : (s.emit e).mon = s.mon := rfl
@[simp] theorem State.emit_rate (e : Emit) : (s.emit e).rate = s.rate := rfl
@[simp] theorem State.emit_lateOpens (e : Emit) : (s.emit e).lateOpens = s.lateOpens := rfl
@[simp] theorem State.emit_vsel (e : Emit) : (s.emit e).vsel = s.vsel := rfl

@[simp] theorem State.useFree_pending : (s.useFree).pending = s.pending := rfl
@[simp] theorem State.useFree_out : (s.useFree).out = s.out := rfl
@[simp] theorem State.useFree_free : (s.useFree).free = s.free + 1 := rfl
@[simp] theorem State.useFree_regs : (s.useFree).regs = s.regs := rfl
@[simp] theorem State.useFree_nextSet : (s.useFree).nextSet = s.nextSet := rfl
@[simp] theorem State.useFree_liveSet : (s.useFree).liveSet = s.liveSet := rfl
@[simp] theorem State.useFree_prevSet : (s.useFree).prevSet = s.prevSet := rfl
@[simp] theorem State.useFree_latches : (s.useFree).latches = s.latches := rfl
@[simp] theorem State.useFree_epoch : (s.useFree).epoch = s.epoch := rfl
@[simp] theorem State.useFree_tm : (s.useFree).tm = s.tm := rfl
@[simp] theorem State.useFree_hlt : (s.useFree).hlt = s.hlt := rfl
@[simp] theorem State.useFree_boot : (s.useFree).boot = s.boot := rfl
@[simp] theorem State.useFree_log : (s.useFree).log = s.log := rfl
@[simp] theorem State.useFree_nvm : (s.useFree).nvm = s.nvm := rfl
@[simp] theorem State.useFree_fw : (s.useFree).fw = s.fw := rfl
@[simp] theorem State.useFree_nvs : (s.useFree).nvs = s.nvs := rfl
@[simp] theorem State.useFree_link : (s.useFree).link = s.link := rfl
@[simp] theorem State.useFree_sec : (s.useFree).sec = s.sec := rfl
@[simp] theorem State.useFree_inst : (s.useFree).inst = s.inst := rfl
@[simp] theorem State.useFree_fn : (s.useFree).fn = s.fn := rfl
@[simp] theorem State.useFree_cmds : (s.useFree).cmds = s.cmds := rfl
@[simp] theorem State.useFree_nextCmd : (s.useFree).nextCmd = s.nextCmd := rfl
@[simp] theorem State.useFree_oldOps : (s.useFree).oldOps = s.oldOps := rfl
@[simp] theorem State.useFree_due : (s.useFree).due = s.due := rfl
@[simp] theorem State.useFree_reads : (s.useFree).reads = s.reads := rfl
@[simp] theorem State.useFree_nextTag : (s.useFree).nextTag = s.nextTag := rfl
@[simp] theorem State.useFree_lastFn : (s.useFree).lastFn = s.lastFn := rfl
@[simp] theorem State.useFree_dbErr : (s.useFree).dbErr = s.dbErr := rfl
@[simp] theorem State.useFree_sqErr : (s.useFree).sqErr = s.sqErr := rfl
@[simp] theorem State.useFree_fss : (s.useFree).fss = s.fss := rfl
@[simp] theorem State.useFree_sea : (s.useFree).sea = s.sea := rfl
@[simp] theorem State.useFree_mch : (s.useFree).mch = s.mch := rfl
@[simp] theorem State.useFree_fetches : (s.useFree).fetches = s.fetches := rfl
@[simp] theorem State.useFree_arc : (s.useFree).arc = s.arc := rfl
@[simp] theorem State.useFree_drives : (s.useFree).drives = s.drives := rfl
@[simp] theorem State.useFree_clk : (s.useFree).clk = s.clk := rfl
@[simp] theorem State.useFree_pwb : (s.useFree).pwb = s.pwb := rfl
@[simp] theorem State.useFree_stl : (s.useFree).stl = s.stl := rfl
@[simp] theorem State.useFree_inp : (s.useFree).inp = s.inp := rfl
@[simp] theorem State.useFree_sns : (s.useFree).sns = s.sns := rfl
@[simp] theorem State.useFree_cal : (s.useFree).cal = s.cal := rfl
@[simp] theorem State.useFree_mon : (s.useFree).mon = s.mon := rfl
@[simp] theorem State.useFree_rate : (s.useFree).rate = s.rate := rfl
@[simp] theorem State.useFree_lateOpens : (s.useFree).lateOpens = s.lateOpens := rfl
@[simp] theorem State.useFree_vsel : (s.useFree).vsel = s.vsel := rfl

@[simp] theorem State.setReg_pending (k : Nat) (v : Word) : (s.setReg k v).pending = s.pending := rfl
@[simp] theorem State.setReg_out (k : Nat) (v : Word) : (s.setReg k v).out = s.out := rfl
@[simp] theorem State.setReg_free (k : Nat) (v : Word) : (s.setReg k v).free = s.free := rfl
@[simp] theorem State.setReg_regs (k : Nat) (v : Word) : (s.setReg k v).regs = Bank.set regReset s.regs k v := rfl
@[simp] theorem State.setReg_nextSet (k : Nat) (v : Word) : (s.setReg k v).nextSet = s.nextSet := rfl
@[simp] theorem State.setReg_liveSet (k : Nat) (v : Word) : (s.setReg k v).liveSet = s.liveSet := rfl
@[simp] theorem State.setReg_prevSet (k : Nat) (v : Word) : (s.setReg k v).prevSet = s.prevSet := rfl
@[simp] theorem State.setReg_latches (k : Nat) (v : Word) : (s.setReg k v).latches = s.latches := rfl
@[simp] theorem State.setReg_epoch (k : Nat) (v : Word) : (s.setReg k v).epoch = s.epoch := rfl
@[simp] theorem State.setReg_tm (k : Nat) (v : Word) : (s.setReg k v).tm = s.tm := rfl
@[simp] theorem State.setReg_hlt (k : Nat) (v : Word) : (s.setReg k v).hlt = s.hlt := rfl
@[simp] theorem State.setReg_boot (k : Nat) (v : Word) : (s.setReg k v).boot = s.boot := rfl
@[simp] theorem State.setReg_log (k : Nat) (v : Word) : (s.setReg k v).log = s.log := rfl
@[simp] theorem State.setReg_nvm (k : Nat) (v : Word) : (s.setReg k v).nvm = s.nvm := rfl
@[simp] theorem State.setReg_fw (k : Nat) (v : Word) : (s.setReg k v).fw = s.fw := rfl
@[simp] theorem State.setReg_nvs (k : Nat) (v : Word) : (s.setReg k v).nvs = s.nvs := rfl
@[simp] theorem State.setReg_link (k : Nat) (v : Word) : (s.setReg k v).link = s.link := rfl
@[simp] theorem State.setReg_sec (k : Nat) (v : Word) : (s.setReg k v).sec = s.sec := rfl
@[simp] theorem State.setReg_inst (k : Nat) (v : Word) : (s.setReg k v).inst = s.inst := rfl
@[simp] theorem State.setReg_fn (k : Nat) (v : Word) : (s.setReg k v).fn = s.fn := rfl
@[simp] theorem State.setReg_cmds (k : Nat) (v : Word) : (s.setReg k v).cmds = s.cmds := rfl
@[simp] theorem State.setReg_nextCmd (k : Nat) (v : Word) : (s.setReg k v).nextCmd = s.nextCmd := rfl
@[simp] theorem State.setReg_oldOps (k : Nat) (v : Word) : (s.setReg k v).oldOps = s.oldOps := rfl
@[simp] theorem State.setReg_due (k : Nat) (v : Word) : (s.setReg k v).due = s.due := rfl
@[simp] theorem State.setReg_reads (k : Nat) (v : Word) : (s.setReg k v).reads = s.reads := rfl
@[simp] theorem State.setReg_nextTag (k : Nat) (v : Word) : (s.setReg k v).nextTag = s.nextTag := rfl
@[simp] theorem State.setReg_lastFn (k : Nat) (v : Word) : (s.setReg k v).lastFn = s.lastFn := rfl
@[simp] theorem State.setReg_dbErr (k : Nat) (v : Word) : (s.setReg k v).dbErr = s.dbErr := rfl
@[simp] theorem State.setReg_sqErr (k : Nat) (v : Word) : (s.setReg k v).sqErr = s.sqErr := rfl
@[simp] theorem State.setReg_fss (k : Nat) (v : Word) : (s.setReg k v).fss = s.fss := rfl
@[simp] theorem State.setReg_sea (k : Nat) (v : Word) : (s.setReg k v).sea = s.sea := rfl
@[simp] theorem State.setReg_mch (k : Nat) (v : Word) : (s.setReg k v).mch = s.mch := rfl
@[simp] theorem State.setReg_fetches (k : Nat) (v : Word) : (s.setReg k v).fetches = s.fetches := rfl
@[simp] theorem State.setReg_arc (k : Nat) (v : Word) : (s.setReg k v).arc = s.arc := rfl
@[simp] theorem State.setReg_drives (k : Nat) (v : Word) : (s.setReg k v).drives = s.drives := rfl
@[simp] theorem State.setReg_clk (k : Nat) (v : Word) : (s.setReg k v).clk = s.clk := rfl
@[simp] theorem State.setReg_pwb (k : Nat) (v : Word) : (s.setReg k v).pwb = s.pwb := rfl
@[simp] theorem State.setReg_stl (k : Nat) (v : Word) : (s.setReg k v).stl = s.stl := rfl
@[simp] theorem State.setReg_inp (k : Nat) (v : Word) : (s.setReg k v).inp = s.inp := rfl
@[simp] theorem State.setReg_sns (k : Nat) (v : Word) : (s.setReg k v).sns = s.sns := rfl
@[simp] theorem State.setReg_cal (k : Nat) (v : Word) : (s.setReg k v).cal = s.cal := rfl
@[simp] theorem State.setReg_mon (k : Nat) (v : Word) : (s.setReg k v).mon = s.mon := rfl
@[simp] theorem State.setReg_rate (k : Nat) (v : Word) : (s.setReg k v).rate = s.rate := rfl
@[simp] theorem State.setReg_lateOpens (k : Nat) (v : Word) : (s.setReg k v).lateOpens = s.lateOpens := rfl
@[simp] theorem State.setReg_vsel (k : Nat) (v : Word) : (s.setReg k v).vsel = s.vsel := rfl

@[simp] theorem State.setInst_pending (i : Nat) (v : Instance) : (s.setInst i v).pending = s.pending := rfl
@[simp] theorem State.setInst_out (i : Nat) (v : Instance) : (s.setInst i v).out = s.out := rfl
@[simp] theorem State.setInst_free (i : Nat) (v : Instance) : (s.setInst i v).free = s.free := rfl
@[simp] theorem State.setInst_regs (i : Nat) (v : Instance) : (s.setInst i v).regs = s.regs := rfl
@[simp] theorem State.setInst_nextSet (i : Nat) (v : Instance) : (s.setInst i v).nextSet = s.nextSet := rfl
@[simp] theorem State.setInst_liveSet (i : Nat) (v : Instance) : (s.setInst i v).liveSet = s.liveSet := rfl
@[simp] theorem State.setInst_prevSet (i : Nat) (v : Instance) : (s.setInst i v).prevSet = s.prevSet := rfl
@[simp] theorem State.setInst_latches (i : Nat) (v : Instance) : (s.setInst i v).latches = s.latches := rfl
@[simp] theorem State.setInst_epoch (i : Nat) (v : Instance) : (s.setInst i v).epoch = s.epoch := rfl
@[simp] theorem State.setInst_tm (i : Nat) (v : Instance) : (s.setInst i v).tm = s.tm := rfl
@[simp] theorem State.setInst_hlt (i : Nat) (v : Instance) : (s.setInst i v).hlt = s.hlt := rfl
@[simp] theorem State.setInst_boot (i : Nat) (v : Instance) : (s.setInst i v).boot = s.boot := rfl
@[simp] theorem State.setInst_log (i : Nat) (v : Instance) : (s.setInst i v).log = s.log := rfl
@[simp] theorem State.setInst_nvm (i : Nat) (v : Instance) : (s.setInst i v).nvm = s.nvm := rfl
@[simp] theorem State.setInst_fw (i : Nat) (v : Instance) : (s.setInst i v).fw = s.fw := rfl
@[simp] theorem State.setInst_nvs (i : Nat) (v : Instance) : (s.setInst i v).nvs = s.nvs := rfl
@[simp] theorem State.setInst_link (i : Nat) (v : Instance) : (s.setInst i v).link = s.link := rfl
@[simp] theorem State.setInst_sec (i : Nat) (v : Instance) : (s.setInst i v).sec = s.sec := rfl
@[simp] theorem State.setInst_inst (i : Nat) (v : Instance) : (s.setInst i v).inst = Bank.set instDef s.inst i v := rfl
@[simp] theorem State.setInst_fn (i : Nat) (v : Instance) : (s.setInst i v).fn = s.fn := rfl
@[simp] theorem State.setInst_cmds (i : Nat) (v : Instance) : (s.setInst i v).cmds = s.cmds := rfl
@[simp] theorem State.setInst_nextCmd (i : Nat) (v : Instance) : (s.setInst i v).nextCmd = s.nextCmd := rfl
@[simp] theorem State.setInst_oldOps (i : Nat) (v : Instance) : (s.setInst i v).oldOps = s.oldOps := rfl
@[simp] theorem State.setInst_due (i : Nat) (v : Instance) : (s.setInst i v).due = s.due := rfl
@[simp] theorem State.setInst_reads (i : Nat) (v : Instance) : (s.setInst i v).reads = s.reads := rfl
@[simp] theorem State.setInst_nextTag (i : Nat) (v : Instance) : (s.setInst i v).nextTag = s.nextTag := rfl
@[simp] theorem State.setInst_lastFn (i : Nat) (v : Instance) : (s.setInst i v).lastFn = s.lastFn := rfl
@[simp] theorem State.setInst_dbErr (i : Nat) (v : Instance) : (s.setInst i v).dbErr = s.dbErr := rfl
@[simp] theorem State.setInst_sqErr (i : Nat) (v : Instance) : (s.setInst i v).sqErr = s.sqErr := rfl
@[simp] theorem State.setInst_fss (i : Nat) (v : Instance) : (s.setInst i v).fss = s.fss := rfl
@[simp] theorem State.setInst_sea (i : Nat) (v : Instance) : (s.setInst i v).sea = s.sea := rfl
@[simp] theorem State.setInst_mch (i : Nat) (v : Instance) : (s.setInst i v).mch = s.mch := rfl
@[simp] theorem State.setInst_fetches (i : Nat) (v : Instance) : (s.setInst i v).fetches = s.fetches := rfl
@[simp] theorem State.setInst_arc (i : Nat) (v : Instance) : (s.setInst i v).arc = s.arc := rfl
@[simp] theorem State.setInst_drives (i : Nat) (v : Instance) : (s.setInst i v).drives = s.drives := rfl
@[simp] theorem State.setInst_clk (i : Nat) (v : Instance) : (s.setInst i v).clk = s.clk := rfl
@[simp] theorem State.setInst_pwb (i : Nat) (v : Instance) : (s.setInst i v).pwb = s.pwb := rfl
@[simp] theorem State.setInst_stl (i : Nat) (v : Instance) : (s.setInst i v).stl = s.stl := rfl
@[simp] theorem State.setInst_inp (i : Nat) (v : Instance) : (s.setInst i v).inp = s.inp := rfl
@[simp] theorem State.setInst_sns (i : Nat) (v : Instance) : (s.setInst i v).sns = s.sns := rfl
@[simp] theorem State.setInst_cal (i : Nat) (v : Instance) : (s.setInst i v).cal = s.cal := rfl
@[simp] theorem State.setInst_mon (i : Nat) (v : Instance) : (s.setInst i v).mon = s.mon := rfl
@[simp] theorem State.setInst_rate (i : Nat) (v : Instance) : (s.setInst i v).rate = s.rate := rfl
@[simp] theorem State.setInst_lateOpens (i : Nat) (v : Instance) : (s.setInst i v).lateOpens = s.lateOpens := rfl
@[simp] theorem State.setInst_vsel (i : Nat) (v : Instance) : (s.setInst i v).vsel = s.vsel := rfl

@[simp] theorem State.modInst_pending (i : Nat) (g : Instance → Instance) : (s.modInst i g).pending = s.pending := rfl
@[simp] theorem State.modInst_out (i : Nat) (g : Instance → Instance) : (s.modInst i g).out = s.out := rfl
@[simp] theorem State.modInst_free (i : Nat) (g : Instance → Instance) : (s.modInst i g).free = s.free := rfl
@[simp] theorem State.modInst_regs (i : Nat) (g : Instance → Instance) : (s.modInst i g).regs = s.regs := rfl
@[simp] theorem State.modInst_nextSet (i : Nat) (g : Instance → Instance) : (s.modInst i g).nextSet = s.nextSet := rfl
@[simp] theorem State.modInst_liveSet (i : Nat) (g : Instance → Instance) : (s.modInst i g).liveSet = s.liveSet := rfl
@[simp] theorem State.modInst_prevSet (i : Nat) (g : Instance → Instance) : (s.modInst i g).prevSet = s.prevSet := rfl
@[simp] theorem State.modInst_latches (i : Nat) (g : Instance → Instance) : (s.modInst i g).latches = s.latches := rfl
@[simp] theorem State.modInst_epoch (i : Nat) (g : Instance → Instance) : (s.modInst i g).epoch = s.epoch := rfl
@[simp] theorem State.modInst_tm (i : Nat) (g : Instance → Instance) : (s.modInst i g).tm = s.tm := rfl
@[simp] theorem State.modInst_hlt (i : Nat) (g : Instance → Instance) : (s.modInst i g).hlt = s.hlt := rfl
@[simp] theorem State.modInst_boot (i : Nat) (g : Instance → Instance) : (s.modInst i g).boot = s.boot := rfl
@[simp] theorem State.modInst_log (i : Nat) (g : Instance → Instance) : (s.modInst i g).log = s.log := rfl
@[simp] theorem State.modInst_nvm (i : Nat) (g : Instance → Instance) : (s.modInst i g).nvm = s.nvm := rfl
@[simp] theorem State.modInst_fw (i : Nat) (g : Instance → Instance) : (s.modInst i g).fw = s.fw := rfl
@[simp] theorem State.modInst_nvs (i : Nat) (g : Instance → Instance) : (s.modInst i g).nvs = s.nvs := rfl
@[simp] theorem State.modInst_link (i : Nat) (g : Instance → Instance) : (s.modInst i g).link = s.link := rfl
@[simp] theorem State.modInst_sec (i : Nat) (g : Instance → Instance) : (s.modInst i g).sec = s.sec := rfl
@[simp] theorem State.modInst_inst (i : Nat) (g : Instance → Instance) : (s.modInst i g).inst = Bank.set instDef s.inst i (g (s.getInst i)) := rfl
@[simp] theorem State.modInst_fn (i : Nat) (g : Instance → Instance) : (s.modInst i g).fn = s.fn := rfl
@[simp] theorem State.modInst_cmds (i : Nat) (g : Instance → Instance) : (s.modInst i g).cmds = s.cmds := rfl
@[simp] theorem State.modInst_nextCmd (i : Nat) (g : Instance → Instance) : (s.modInst i g).nextCmd = s.nextCmd := rfl
@[simp] theorem State.modInst_oldOps (i : Nat) (g : Instance → Instance) : (s.modInst i g).oldOps = s.oldOps := rfl
@[simp] theorem State.modInst_due (i : Nat) (g : Instance → Instance) : (s.modInst i g).due = s.due := rfl
@[simp] theorem State.modInst_reads (i : Nat) (g : Instance → Instance) : (s.modInst i g).reads = s.reads := rfl
@[simp] theorem State.modInst_nextTag (i : Nat) (g : Instance → Instance) : (s.modInst i g).nextTag = s.nextTag := rfl
@[simp] theorem State.modInst_lastFn (i : Nat) (g : Instance → Instance) : (s.modInst i g).lastFn = s.lastFn := rfl
@[simp] theorem State.modInst_dbErr (i : Nat) (g : Instance → Instance) : (s.modInst i g).dbErr = s.dbErr := rfl
@[simp] theorem State.modInst_sqErr (i : Nat) (g : Instance → Instance) : (s.modInst i g).sqErr = s.sqErr := rfl
@[simp] theorem State.modInst_fss (i : Nat) (g : Instance → Instance) : (s.modInst i g).fss = s.fss := rfl
@[simp] theorem State.modInst_sea (i : Nat) (g : Instance → Instance) : (s.modInst i g).sea = s.sea := rfl
@[simp] theorem State.modInst_mch (i : Nat) (g : Instance → Instance) : (s.modInst i g).mch = s.mch := rfl
@[simp] theorem State.modInst_fetches (i : Nat) (g : Instance → Instance) : (s.modInst i g).fetches = s.fetches := rfl
@[simp] theorem State.modInst_arc (i : Nat) (g : Instance → Instance) : (s.modInst i g).arc = s.arc := rfl
@[simp] theorem State.modInst_drives (i : Nat) (g : Instance → Instance) : (s.modInst i g).drives = s.drives := rfl
@[simp] theorem State.modInst_clk (i : Nat) (g : Instance → Instance) : (s.modInst i g).clk = s.clk := rfl
@[simp] theorem State.modInst_pwb (i : Nat) (g : Instance → Instance) : (s.modInst i g).pwb = s.pwb := rfl
@[simp] theorem State.modInst_stl (i : Nat) (g : Instance → Instance) : (s.modInst i g).stl = s.stl := rfl
@[simp] theorem State.modInst_inp (i : Nat) (g : Instance → Instance) : (s.modInst i g).inp = s.inp := rfl
@[simp] theorem State.modInst_sns (i : Nat) (g : Instance → Instance) : (s.modInst i g).sns = s.sns := rfl
@[simp] theorem State.modInst_cal (i : Nat) (g : Instance → Instance) : (s.modInst i g).cal = s.cal := rfl
@[simp] theorem State.modInst_mon (i : Nat) (g : Instance → Instance) : (s.modInst i g).mon = s.mon := rfl
@[simp] theorem State.modInst_rate (i : Nat) (g : Instance → Instance) : (s.modInst i g).rate = s.rate := rfl
@[simp] theorem State.modInst_lateOpens (i : Nat) (g : Instance → Instance) : (s.modInst i g).lateOpens = s.lateOpens := rfl
@[simp] theorem State.modInst_vsel (i : Nat) (g : Instance → Instance) : (s.modInst i g).vsel = s.vsel := rfl

@[simp] theorem State.setFn_pending (f : Nat) (v : Fn) : (s.setFn f v).pending = s.pending := rfl
@[simp] theorem State.setFn_out (f : Nat) (v : Fn) : (s.setFn f v).out = s.out := rfl
@[simp] theorem State.setFn_free (f : Nat) (v : Fn) : (s.setFn f v).free = s.free := rfl
@[simp] theorem State.setFn_regs (f : Nat) (v : Fn) : (s.setFn f v).regs = s.regs := rfl
@[simp] theorem State.setFn_nextSet (f : Nat) (v : Fn) : (s.setFn f v).nextSet = s.nextSet := rfl
@[simp] theorem State.setFn_liveSet (f : Nat) (v : Fn) : (s.setFn f v).liveSet = s.liveSet := rfl
@[simp] theorem State.setFn_prevSet (f : Nat) (v : Fn) : (s.setFn f v).prevSet = s.prevSet := rfl
@[simp] theorem State.setFn_latches (f : Nat) (v : Fn) : (s.setFn f v).latches = s.latches := rfl
@[simp] theorem State.setFn_epoch (f : Nat) (v : Fn) : (s.setFn f v).epoch = s.epoch := rfl
@[simp] theorem State.setFn_tm (f : Nat) (v : Fn) : (s.setFn f v).tm = s.tm := rfl
@[simp] theorem State.setFn_hlt (f : Nat) (v : Fn) : (s.setFn f v).hlt = s.hlt := rfl
@[simp] theorem State.setFn_boot (f : Nat) (v : Fn) : (s.setFn f v).boot = s.boot := rfl
@[simp] theorem State.setFn_log (f : Nat) (v : Fn) : (s.setFn f v).log = s.log := rfl
@[simp] theorem State.setFn_nvm (f : Nat) (v : Fn) : (s.setFn f v).nvm = s.nvm := rfl
@[simp] theorem State.setFn_fw (f : Nat) (v : Fn) : (s.setFn f v).fw = s.fw := rfl
@[simp] theorem State.setFn_nvs (f : Nat) (v : Fn) : (s.setFn f v).nvs = s.nvs := rfl
@[simp] theorem State.setFn_link (f : Nat) (v : Fn) : (s.setFn f v).link = s.link := rfl
@[simp] theorem State.setFn_sec (f : Nat) (v : Fn) : (s.setFn f v).sec = s.sec := rfl
@[simp] theorem State.setFn_inst (f : Nat) (v : Fn) : (s.setFn f v).inst = s.inst := rfl
@[simp] theorem State.setFn_fn (f : Nat) (v : Fn) : (s.setFn f v).fn = Bank.set fnDef s.fn f v := rfl
@[simp] theorem State.setFn_cmds (f : Nat) (v : Fn) : (s.setFn f v).cmds = s.cmds := rfl
@[simp] theorem State.setFn_nextCmd (f : Nat) (v : Fn) : (s.setFn f v).nextCmd = s.nextCmd := rfl
@[simp] theorem State.setFn_oldOps (f : Nat) (v : Fn) : (s.setFn f v).oldOps = s.oldOps := rfl
@[simp] theorem State.setFn_due (f : Nat) (v : Fn) : (s.setFn f v).due = s.due := rfl
@[simp] theorem State.setFn_reads (f : Nat) (v : Fn) : (s.setFn f v).reads = s.reads := rfl
@[simp] theorem State.setFn_nextTag (f : Nat) (v : Fn) : (s.setFn f v).nextTag = s.nextTag := rfl
@[simp] theorem State.setFn_lastFn (f : Nat) (v : Fn) : (s.setFn f v).lastFn = s.lastFn := rfl
@[simp] theorem State.setFn_dbErr (f : Nat) (v : Fn) : (s.setFn f v).dbErr = s.dbErr := rfl
@[simp] theorem State.setFn_sqErr (f : Nat) (v : Fn) : (s.setFn f v).sqErr = s.sqErr := rfl
@[simp] theorem State.setFn_fss (f : Nat) (v : Fn) : (s.setFn f v).fss = s.fss := rfl
@[simp] theorem State.setFn_sea (f : Nat) (v : Fn) : (s.setFn f v).sea = s.sea := rfl
@[simp] theorem State.setFn_mch (f : Nat) (v : Fn) : (s.setFn f v).mch = s.mch := rfl
@[simp] theorem State.setFn_fetches (f : Nat) (v : Fn) : (s.setFn f v).fetches = s.fetches := rfl
@[simp] theorem State.setFn_arc (f : Nat) (v : Fn) : (s.setFn f v).arc = s.arc := rfl
@[simp] theorem State.setFn_drives (f : Nat) (v : Fn) : (s.setFn f v).drives = s.drives := rfl
@[simp] theorem State.setFn_clk (f : Nat) (v : Fn) : (s.setFn f v).clk = s.clk := rfl
@[simp] theorem State.setFn_pwb (f : Nat) (v : Fn) : (s.setFn f v).pwb = s.pwb := rfl
@[simp] theorem State.setFn_stl (f : Nat) (v : Fn) : (s.setFn f v).stl = s.stl := rfl
@[simp] theorem State.setFn_inp (f : Nat) (v : Fn) : (s.setFn f v).inp = s.inp := rfl
@[simp] theorem State.setFn_sns (f : Nat) (v : Fn) : (s.setFn f v).sns = s.sns := rfl
@[simp] theorem State.setFn_cal (f : Nat) (v : Fn) : (s.setFn f v).cal = s.cal := rfl
@[simp] theorem State.setFn_mon (f : Nat) (v : Fn) : (s.setFn f v).mon = s.mon := rfl
@[simp] theorem State.setFn_rate (f : Nat) (v : Fn) : (s.setFn f v).rate = s.rate := rfl
@[simp] theorem State.setFn_lateOpens (f : Nat) (v : Fn) : (s.setFn f v).lateOpens = s.lateOpens := rfl
@[simp] theorem State.setFn_vsel (f : Nat) (v : Fn) : (s.setFn f v).vsel = s.vsel := rfl

@[simp] theorem State.modFn_pending (f : Nat) (g : Fn → Fn) : (s.modFn f g).pending = s.pending := rfl
@[simp] theorem State.modFn_out (f : Nat) (g : Fn → Fn) : (s.modFn f g).out = s.out := rfl
@[simp] theorem State.modFn_free (f : Nat) (g : Fn → Fn) : (s.modFn f g).free = s.free := rfl
@[simp] theorem State.modFn_regs (f : Nat) (g : Fn → Fn) : (s.modFn f g).regs = s.regs := rfl
@[simp] theorem State.modFn_nextSet (f : Nat) (g : Fn → Fn) : (s.modFn f g).nextSet = s.nextSet := rfl
@[simp] theorem State.modFn_liveSet (f : Nat) (g : Fn → Fn) : (s.modFn f g).liveSet = s.liveSet := rfl
@[simp] theorem State.modFn_prevSet (f : Nat) (g : Fn → Fn) : (s.modFn f g).prevSet = s.prevSet := rfl
@[simp] theorem State.modFn_latches (f : Nat) (g : Fn → Fn) : (s.modFn f g).latches = s.latches := rfl
@[simp] theorem State.modFn_epoch (f : Nat) (g : Fn → Fn) : (s.modFn f g).epoch = s.epoch := rfl
@[simp] theorem State.modFn_tm (f : Nat) (g : Fn → Fn) : (s.modFn f g).tm = s.tm := rfl
@[simp] theorem State.modFn_hlt (f : Nat) (g : Fn → Fn) : (s.modFn f g).hlt = s.hlt := rfl
@[simp] theorem State.modFn_boot (f : Nat) (g : Fn → Fn) : (s.modFn f g).boot = s.boot := rfl
@[simp] theorem State.modFn_log (f : Nat) (g : Fn → Fn) : (s.modFn f g).log = s.log := rfl
@[simp] theorem State.modFn_nvm (f : Nat) (g : Fn → Fn) : (s.modFn f g).nvm = s.nvm := rfl
@[simp] theorem State.modFn_fw (f : Nat) (g : Fn → Fn) : (s.modFn f g).fw = s.fw := rfl
@[simp] theorem State.modFn_nvs (f : Nat) (g : Fn → Fn) : (s.modFn f g).nvs = s.nvs := rfl
@[simp] theorem State.modFn_link (f : Nat) (g : Fn → Fn) : (s.modFn f g).link = s.link := rfl
@[simp] theorem State.modFn_sec (f : Nat) (g : Fn → Fn) : (s.modFn f g).sec = s.sec := rfl
@[simp] theorem State.modFn_inst (f : Nat) (g : Fn → Fn) : (s.modFn f g).inst = s.inst := rfl
@[simp] theorem State.modFn_fn (f : Nat) (g : Fn → Fn) : (s.modFn f g).fn = Bank.set fnDef s.fn f (g (s.getFn f)) := rfl
@[simp] theorem State.modFn_cmds (f : Nat) (g : Fn → Fn) : (s.modFn f g).cmds = s.cmds := rfl
@[simp] theorem State.modFn_nextCmd (f : Nat) (g : Fn → Fn) : (s.modFn f g).nextCmd = s.nextCmd := rfl
@[simp] theorem State.modFn_oldOps (f : Nat) (g : Fn → Fn) : (s.modFn f g).oldOps = s.oldOps := rfl
@[simp] theorem State.modFn_due (f : Nat) (g : Fn → Fn) : (s.modFn f g).due = s.due := rfl
@[simp] theorem State.modFn_reads (f : Nat) (g : Fn → Fn) : (s.modFn f g).reads = s.reads := rfl
@[simp] theorem State.modFn_nextTag (f : Nat) (g : Fn → Fn) : (s.modFn f g).nextTag = s.nextTag := rfl
@[simp] theorem State.modFn_lastFn (f : Nat) (g : Fn → Fn) : (s.modFn f g).lastFn = s.lastFn := rfl
@[simp] theorem State.modFn_dbErr (f : Nat) (g : Fn → Fn) : (s.modFn f g).dbErr = s.dbErr := rfl
@[simp] theorem State.modFn_sqErr (f : Nat) (g : Fn → Fn) : (s.modFn f g).sqErr = s.sqErr := rfl
@[simp] theorem State.modFn_fss (f : Nat) (g : Fn → Fn) : (s.modFn f g).fss = s.fss := rfl
@[simp] theorem State.modFn_sea (f : Nat) (g : Fn → Fn) : (s.modFn f g).sea = s.sea := rfl
@[simp] theorem State.modFn_mch (f : Nat) (g : Fn → Fn) : (s.modFn f g).mch = s.mch := rfl
@[simp] theorem State.modFn_fetches (f : Nat) (g : Fn → Fn) : (s.modFn f g).fetches = s.fetches := rfl
@[simp] theorem State.modFn_arc (f : Nat) (g : Fn → Fn) : (s.modFn f g).arc = s.arc := rfl
@[simp] theorem State.modFn_drives (f : Nat) (g : Fn → Fn) : (s.modFn f g).drives = s.drives := rfl
@[simp] theorem State.modFn_clk (f : Nat) (g : Fn → Fn) : (s.modFn f g).clk = s.clk := rfl
@[simp] theorem State.modFn_pwb (f : Nat) (g : Fn → Fn) : (s.modFn f g).pwb = s.pwb := rfl
@[simp] theorem State.modFn_stl (f : Nat) (g : Fn → Fn) : (s.modFn f g).stl = s.stl := rfl
@[simp] theorem State.modFn_inp (f : Nat) (g : Fn → Fn) : (s.modFn f g).inp = s.inp := rfl
@[simp] theorem State.modFn_sns (f : Nat) (g : Fn → Fn) : (s.modFn f g).sns = s.sns := rfl
@[simp] theorem State.modFn_cal (f : Nat) (g : Fn → Fn) : (s.modFn f g).cal = s.cal := rfl
@[simp] theorem State.modFn_mon (f : Nat) (g : Fn → Fn) : (s.modFn f g).mon = s.mon := rfl
@[simp] theorem State.modFn_rate (f : Nat) (g : Fn → Fn) : (s.modFn f g).rate = s.rate := rfl
@[simp] theorem State.modFn_lateOpens (f : Nat) (g : Fn → Fn) : (s.modFn f g).lateOpens = s.lateOpens := rfl
@[simp] theorem State.modFn_vsel (f : Nat) (g : Fn → Fn) : (s.modFn f g).vsel = s.vsel := rfl

@[simp] theorem State.nvmWrite_pending (off : Nat) (l : List Byte) : (s.nvmWrite off l).pending = s.pending := rfl
@[simp] theorem State.nvmWrite_out (off : Nat) (l : List Byte) : (s.nvmWrite off l).out = s.out := rfl
@[simp] theorem State.nvmWrite_free (off : Nat) (l : List Byte) : (s.nvmWrite off l).free = s.free := rfl
@[simp] theorem State.nvmWrite_regs (off : Nat) (l : List Byte) : (s.nvmWrite off l).regs = s.regs := rfl
@[simp] theorem State.nvmWrite_nextSet (off : Nat) (l : List Byte) : (s.nvmWrite off l).nextSet = s.nextSet := rfl
@[simp] theorem State.nvmWrite_liveSet (off : Nat) (l : List Byte) : (s.nvmWrite off l).liveSet = s.liveSet := rfl
@[simp] theorem State.nvmWrite_prevSet (off : Nat) (l : List Byte) : (s.nvmWrite off l).prevSet = s.prevSet := rfl
@[simp] theorem State.nvmWrite_latches (off : Nat) (l : List Byte) : (s.nvmWrite off l).latches = s.latches := rfl
@[simp] theorem State.nvmWrite_epoch (off : Nat) (l : List Byte) : (s.nvmWrite off l).epoch = s.epoch := rfl
@[simp] theorem State.nvmWrite_tm (off : Nat) (l : List Byte) : (s.nvmWrite off l).tm = s.tm := rfl
@[simp] theorem State.nvmWrite_hlt (off : Nat) (l : List Byte) : (s.nvmWrite off l).hlt = s.hlt := rfl
@[simp] theorem State.nvmWrite_boot (off : Nat) (l : List Byte) : (s.nvmWrite off l).boot = s.boot := rfl
@[simp] theorem State.nvmWrite_log (off : Nat) (l : List Byte) : (s.nvmWrite off l).log = s.log := rfl
@[simp] theorem State.nvmWrite_nvm (off : Nat) (l : List Byte) : (s.nvmWrite off l).nvm = Bank.putBytes nvmDef s.nvm off l := rfl
@[simp] theorem State.nvmWrite_fw (off : Nat) (l : List Byte) : (s.nvmWrite off l).fw = s.fw := rfl
@[simp] theorem State.nvmWrite_nvs (off : Nat) (l : List Byte) : (s.nvmWrite off l).nvs = { s.nvs with writes := satU 32 (s.nvs.writes + rowsOf off l.length) } := rfl
@[simp] theorem State.nvmWrite_link (off : Nat) (l : List Byte) : (s.nvmWrite off l).link = s.link := rfl
@[simp] theorem State.nvmWrite_sec (off : Nat) (l : List Byte) : (s.nvmWrite off l).sec = s.sec := rfl
@[simp] theorem State.nvmWrite_inst (off : Nat) (l : List Byte) : (s.nvmWrite off l).inst = s.inst := rfl
@[simp] theorem State.nvmWrite_fn (off : Nat) (l : List Byte) : (s.nvmWrite off l).fn = s.fn := rfl
@[simp] theorem State.nvmWrite_cmds (off : Nat) (l : List Byte) : (s.nvmWrite off l).cmds = s.cmds := rfl
@[simp] theorem State.nvmWrite_nextCmd (off : Nat) (l : List Byte) : (s.nvmWrite off l).nextCmd = s.nextCmd := rfl
@[simp] theorem State.nvmWrite_oldOps (off : Nat) (l : List Byte) : (s.nvmWrite off l).oldOps = s.oldOps := rfl
@[simp] theorem State.nvmWrite_due (off : Nat) (l : List Byte) : (s.nvmWrite off l).due = s.due := rfl
@[simp] theorem State.nvmWrite_reads (off : Nat) (l : List Byte) : (s.nvmWrite off l).reads = s.reads := rfl
@[simp] theorem State.nvmWrite_nextTag (off : Nat) (l : List Byte) : (s.nvmWrite off l).nextTag = s.nextTag := rfl
@[simp] theorem State.nvmWrite_lastFn (off : Nat) (l : List Byte) : (s.nvmWrite off l).lastFn = s.lastFn := rfl
@[simp] theorem State.nvmWrite_dbErr (off : Nat) (l : List Byte) : (s.nvmWrite off l).dbErr = s.dbErr := rfl
@[simp] theorem State.nvmWrite_sqErr (off : Nat) (l : List Byte) : (s.nvmWrite off l).sqErr = s.sqErr := rfl
@[simp] theorem State.nvmWrite_fss (off : Nat) (l : List Byte) : (s.nvmWrite off l).fss = s.fss := rfl
@[simp] theorem State.nvmWrite_sea (off : Nat) (l : List Byte) : (s.nvmWrite off l).sea = s.sea := rfl
@[simp] theorem State.nvmWrite_mch (off : Nat) (l : List Byte) : (s.nvmWrite off l).mch = s.mch := rfl
@[simp] theorem State.nvmWrite_fetches (off : Nat) (l : List Byte) : (s.nvmWrite off l).fetches = s.fetches := rfl
@[simp] theorem State.nvmWrite_arc (off : Nat) (l : List Byte) : (s.nvmWrite off l).arc = s.arc := rfl
@[simp] theorem State.nvmWrite_drives (off : Nat) (l : List Byte) : (s.nvmWrite off l).drives = s.drives := rfl
@[simp] theorem State.nvmWrite_clk (off : Nat) (l : List Byte) : (s.nvmWrite off l).clk = s.clk := rfl
@[simp] theorem State.nvmWrite_pwb (off : Nat) (l : List Byte) : (s.nvmWrite off l).pwb = s.pwb := rfl
@[simp] theorem State.nvmWrite_stl (off : Nat) (l : List Byte) : (s.nvmWrite off l).stl = s.stl := rfl
@[simp] theorem State.nvmWrite_inp (off : Nat) (l : List Byte) : (s.nvmWrite off l).inp = s.inp := rfl
@[simp] theorem State.nvmWrite_sns (off : Nat) (l : List Byte) : (s.nvmWrite off l).sns = s.sns := rfl
@[simp] theorem State.nvmWrite_cal (off : Nat) (l : List Byte) : (s.nvmWrite off l).cal = s.cal := rfl
@[simp] theorem State.nvmWrite_mon (off : Nat) (l : List Byte) : (s.nvmWrite off l).mon = s.mon := rfl
@[simp] theorem State.nvmWrite_rate (off : Nat) (l : List Byte) : (s.nvmWrite off l).rate = s.rate := rfl
@[simp] theorem State.nvmWrite_lateOpens (off : Nat) (l : List Byte) : (s.nvmWrite off l).lateOpens = s.lateOpens := rfl
@[simp] theorem State.nvmWrite_vsel (off : Nat) (l : List Byte) : (s.nvmWrite off l).vsel = s.vsel := rfl

@[simp] theorem State.modDrive_pending (d : Nat) (g : Drive → Drive) : (s.modDrive d g).pending = s.pending := rfl
@[simp] theorem State.modDrive_out (d : Nat) (g : Drive → Drive) : (s.modDrive d g).out = s.out := rfl
@[simp] theorem State.modDrive_free (d : Nat) (g : Drive → Drive) : (s.modDrive d g).free = s.free := rfl
@[simp] theorem State.modDrive_regs (d : Nat) (g : Drive → Drive) : (s.modDrive d g).regs = s.regs := rfl
@[simp] theorem State.modDrive_nextSet (d : Nat) (g : Drive → Drive) : (s.modDrive d g).nextSet = s.nextSet := rfl
@[simp] theorem State.modDrive_liveSet (d : Nat) (g : Drive → Drive) : (s.modDrive d g).liveSet = s.liveSet := rfl
@[simp] theorem State.modDrive_prevSet (d : Nat) (g : Drive → Drive) : (s.modDrive d g).prevSet = s.prevSet := rfl
@[simp] theorem State.modDrive_latches (d : Nat) (g : Drive → Drive) : (s.modDrive d g).latches = s.latches := rfl
@[simp] theorem State.modDrive_epoch (d : Nat) (g : Drive → Drive) : (s.modDrive d g).epoch = s.epoch := rfl
@[simp] theorem State.modDrive_tm (d : Nat) (g : Drive → Drive) : (s.modDrive d g).tm = s.tm := rfl
@[simp] theorem State.modDrive_hlt (d : Nat) (g : Drive → Drive) : (s.modDrive d g).hlt = s.hlt := rfl
@[simp] theorem State.modDrive_boot (d : Nat) (g : Drive → Drive) : (s.modDrive d g).boot = s.boot := rfl
@[simp] theorem State.modDrive_log (d : Nat) (g : Drive → Drive) : (s.modDrive d g).log = s.log := rfl
@[simp] theorem State.modDrive_nvm (d : Nat) (g : Drive → Drive) : (s.modDrive d g).nvm = s.nvm := rfl
@[simp] theorem State.modDrive_fw (d : Nat) (g : Drive → Drive) : (s.modDrive d g).fw = s.fw := rfl
@[simp] theorem State.modDrive_nvs (d : Nat) (g : Drive → Drive) : (s.modDrive d g).nvs = s.nvs := rfl
@[simp] theorem State.modDrive_link (d : Nat) (g : Drive → Drive) : (s.modDrive d g).link = s.link := rfl
@[simp] theorem State.modDrive_sec (d : Nat) (g : Drive → Drive) : (s.modDrive d g).sec = s.sec := rfl
@[simp] theorem State.modDrive_inst (d : Nat) (g : Drive → Drive) : (s.modDrive d g).inst = s.inst := rfl
@[simp] theorem State.modDrive_fn (d : Nat) (g : Drive → Drive) : (s.modDrive d g).fn = s.fn := rfl
@[simp] theorem State.modDrive_cmds (d : Nat) (g : Drive → Drive) : (s.modDrive d g).cmds = s.cmds := rfl
@[simp] theorem State.modDrive_nextCmd (d : Nat) (g : Drive → Drive) : (s.modDrive d g).nextCmd = s.nextCmd := rfl
@[simp] theorem State.modDrive_oldOps (d : Nat) (g : Drive → Drive) : (s.modDrive d g).oldOps = s.oldOps := rfl
@[simp] theorem State.modDrive_due (d : Nat) (g : Drive → Drive) : (s.modDrive d g).due = s.due := rfl
@[simp] theorem State.modDrive_reads (d : Nat) (g : Drive → Drive) : (s.modDrive d g).reads = s.reads := rfl
@[simp] theorem State.modDrive_nextTag (d : Nat) (g : Drive → Drive) : (s.modDrive d g).nextTag = s.nextTag := rfl
@[simp] theorem State.modDrive_lastFn (d : Nat) (g : Drive → Drive) : (s.modDrive d g).lastFn = s.lastFn := rfl
@[simp] theorem State.modDrive_dbErr (d : Nat) (g : Drive → Drive) : (s.modDrive d g).dbErr = s.dbErr := rfl
@[simp] theorem State.modDrive_sqErr (d : Nat) (g : Drive → Drive) : (s.modDrive d g).sqErr = s.sqErr := rfl
@[simp] theorem State.modDrive_fss (d : Nat) (g : Drive → Drive) : (s.modDrive d g).fss = s.fss := rfl
@[simp] theorem State.modDrive_sea (d : Nat) (g : Drive → Drive) : (s.modDrive d g).sea = s.sea := rfl
@[simp] theorem State.modDrive_mch (d : Nat) (g : Drive → Drive) : (s.modDrive d g).mch = s.mch := rfl
@[simp] theorem State.modDrive_fetches (d : Nat) (g : Drive → Drive) : (s.modDrive d g).fetches = s.fetches := rfl
@[simp] theorem State.modDrive_arc (d : Nat) (g : Drive → Drive) : (s.modDrive d g).arc = s.arc := rfl
@[simp] theorem State.modDrive_drives (d : Nat) (g : Drive → Drive) : (s.modDrive d g).drives = modNth g s.drives d := rfl
@[simp] theorem State.modDrive_clk (d : Nat) (g : Drive → Drive) : (s.modDrive d g).clk = s.clk := rfl
@[simp] theorem State.modDrive_pwb (d : Nat) (g : Drive → Drive) : (s.modDrive d g).pwb = s.pwb := rfl
@[simp] theorem State.modDrive_stl (d : Nat) (g : Drive → Drive) : (s.modDrive d g).stl = s.stl := rfl
@[simp] theorem State.modDrive_inp (d : Nat) (g : Drive → Drive) : (s.modDrive d g).inp = s.inp := rfl
@[simp] theorem State.modDrive_sns (d : Nat) (g : Drive → Drive) : (s.modDrive d g).sns = s.sns := rfl
@[simp] theorem State.modDrive_cal (d : Nat) (g : Drive → Drive) : (s.modDrive d g).cal = s.cal := rfl
@[simp] theorem State.modDrive_mon (d : Nat) (g : Drive → Drive) : (s.modDrive d g).mon = s.mon := rfl
@[simp] theorem State.modDrive_rate (d : Nat) (g : Drive → Drive) : (s.modDrive d g).rate = s.rate := rfl
@[simp] theorem State.modDrive_lateOpens (d : Nat) (g : Drive → Drive) : (s.modDrive d g).lateOpens = s.lateOpens := rfl
@[simp] theorem State.modDrive_vsel (d : Nat) (g : Drive → Drive) : (s.modDrive d g).vsel = s.vsel := rfl

@[simp] theorem State.modAxis_pending (a : Nat) (g : Ax → Ax) : (s.modAxis a g).pending = s.pending := rfl
@[simp] theorem State.modAxis_out (a : Nat) (g : Ax → Ax) : (s.modAxis a g).out = s.out := rfl
@[simp] theorem State.modAxis_free (a : Nat) (g : Ax → Ax) : (s.modAxis a g).free = s.free := rfl
@[simp] theorem State.modAxis_regs (a : Nat) (g : Ax → Ax) : (s.modAxis a g).regs = s.regs := rfl
@[simp] theorem State.modAxis_nextSet (a : Nat) (g : Ax → Ax) : (s.modAxis a g).nextSet = s.nextSet := rfl
@[simp] theorem State.modAxis_liveSet (a : Nat) (g : Ax → Ax) : (s.modAxis a g).liveSet = s.liveSet := rfl
@[simp] theorem State.modAxis_prevSet (a : Nat) (g : Ax → Ax) : (s.modAxis a g).prevSet = s.prevSet := rfl
@[simp] theorem State.modAxis_latches (a : Nat) (g : Ax → Ax) : (s.modAxis a g).latches = s.latches := rfl
@[simp] theorem State.modAxis_epoch (a : Nat) (g : Ax → Ax) : (s.modAxis a g).epoch = s.epoch := rfl
@[simp] theorem State.modAxis_tm (a : Nat) (g : Ax → Ax) : (s.modAxis a g).tm = s.tm := rfl
@[simp] theorem State.modAxis_hlt (a : Nat) (g : Ax → Ax) : (s.modAxis a g).hlt = s.hlt := rfl
@[simp] theorem State.modAxis_boot (a : Nat) (g : Ax → Ax) : (s.modAxis a g).boot = s.boot := rfl
@[simp] theorem State.modAxis_log (a : Nat) (g : Ax → Ax) : (s.modAxis a g).log = s.log := rfl
@[simp] theorem State.modAxis_nvm (a : Nat) (g : Ax → Ax) : (s.modAxis a g).nvm = s.nvm := rfl
@[simp] theorem State.modAxis_fw (a : Nat) (g : Ax → Ax) : (s.modAxis a g).fw = s.fw := rfl
@[simp] theorem State.modAxis_nvs (a : Nat) (g : Ax → Ax) : (s.modAxis a g).nvs = s.nvs := rfl
@[simp] theorem State.modAxis_link (a : Nat) (g : Ax → Ax) : (s.modAxis a g).link = s.link := rfl
@[simp] theorem State.modAxis_sec (a : Nat) (g : Ax → Ax) : (s.modAxis a g).sec = s.sec := rfl
@[simp] theorem State.modAxis_inst (a : Nat) (g : Ax → Ax) : (s.modAxis a g).inst = s.inst := rfl
@[simp] theorem State.modAxis_fn (a : Nat) (g : Ax → Ax) : (s.modAxis a g).fn = s.fn := rfl
@[simp] theorem State.modAxis_cmds (a : Nat) (g : Ax → Ax) : (s.modAxis a g).cmds = s.cmds := rfl
@[simp] theorem State.modAxis_nextCmd (a : Nat) (g : Ax → Ax) : (s.modAxis a g).nextCmd = s.nextCmd := rfl
@[simp] theorem State.modAxis_oldOps (a : Nat) (g : Ax → Ax) : (s.modAxis a g).oldOps = s.oldOps := rfl
@[simp] theorem State.modAxis_due (a : Nat) (g : Ax → Ax) : (s.modAxis a g).due = s.due := rfl
@[simp] theorem State.modAxis_reads (a : Nat) (g : Ax → Ax) : (s.modAxis a g).reads = s.reads := rfl
@[simp] theorem State.modAxis_nextTag (a : Nat) (g : Ax → Ax) : (s.modAxis a g).nextTag = s.nextTag := rfl
@[simp] theorem State.modAxis_lastFn (a : Nat) (g : Ax → Ax) : (s.modAxis a g).lastFn = s.lastFn := rfl
@[simp] theorem State.modAxis_dbErr (a : Nat) (g : Ax → Ax) : (s.modAxis a g).dbErr = s.dbErr := rfl
@[simp] theorem State.modAxis_sqErr (a : Nat) (g : Ax → Ax) : (s.modAxis a g).sqErr = s.sqErr := rfl
@[simp] theorem State.modAxis_fss (a : Nat) (g : Ax → Ax) : (s.modAxis a g).fss = s.fss := rfl
@[simp] theorem State.modAxis_sea (a : Nat) (g : Ax → Ax) : (s.modAxis a g).sea = s.sea := rfl
@[simp] theorem State.modAxis_mch (a : Nat) (g : Ax → Ax) : (s.modAxis a g).mch = s.mch := rfl
@[simp] theorem State.modAxis_fetches (a : Nat) (g : Ax → Ax) : (s.modAxis a g).fetches = s.fetches := rfl
@[simp] theorem State.modAxis_arc (a : Nat) (g : Ax → Ax) : (s.modAxis a g).arc = s.arc := rfl
@[simp] theorem State.modAxis_drives (a : Nat) (g : Ax → Ax) : (s.modAxis a g).drives = modNth (fun r => { r with ax := modNth g r.ax (a % 4) }) s.drives (a / 4) := rfl
@[simp] theorem State.modAxis_clk (a : Nat) (g : Ax → Ax) : (s.modAxis a g).clk = s.clk := rfl
@[simp] theorem State.modAxis_pwb (a : Nat) (g : Ax → Ax) : (s.modAxis a g).pwb = s.pwb := rfl
@[simp] theorem State.modAxis_stl (a : Nat) (g : Ax → Ax) : (s.modAxis a g).stl = s.stl := rfl
@[simp] theorem State.modAxis_inp (a : Nat) (g : Ax → Ax) : (s.modAxis a g).inp = s.inp := rfl
@[simp] theorem State.modAxis_sns (a : Nat) (g : Ax → Ax) : (s.modAxis a g).sns = s.sns := rfl
@[simp] theorem State.modAxis_cal (a : Nat) (g : Ax → Ax) : (s.modAxis a g).cal = s.cal := rfl
@[simp] theorem State.modAxis_mon (a : Nat) (g : Ax → Ax) : (s.modAxis a g).mon = s.mon := rfl
@[simp] theorem State.modAxis_rate (a : Nat) (g : Ax → Ax) : (s.modAxis a g).rate = s.rate := rfl
@[simp] theorem State.modAxis_lateOpens (a : Nat) (g : Ax → Ax) : (s.modAxis a g).lateOpens = s.lateOpens := rfl
@[simp] theorem State.modAxis_vsel (a : Nat) (g : Ax → Ax) : (s.modAxis a g).vsel = s.vsel := rfl

@[simp] theorem State.setCmd_pending (c : Cmd) : (s.setCmd c).pending = s.pending := rfl
@[simp] theorem State.setCmd_out (c : Cmd) : (s.setCmd c).out = s.out := rfl
@[simp] theorem State.setCmd_free (c : Cmd) : (s.setCmd c).free = s.free := rfl
@[simp] theorem State.setCmd_regs (c : Cmd) : (s.setCmd c).regs = s.regs := rfl
@[simp] theorem State.setCmd_nextSet (c : Cmd) : (s.setCmd c).nextSet = s.nextSet := rfl
@[simp] theorem State.setCmd_liveSet (c : Cmd) : (s.setCmd c).liveSet = s.liveSet := rfl
@[simp] theorem State.setCmd_prevSet (c : Cmd) : (s.setCmd c).prevSet = s.prevSet := rfl
@[simp] theorem State.setCmd_latches (c : Cmd) : (s.setCmd c).latches = s.latches := rfl
@[simp] theorem State.setCmd_epoch (c : Cmd) : (s.setCmd c).epoch = s.epoch := rfl
@[simp] theorem State.setCmd_tm (c : Cmd) : (s.setCmd c).tm = s.tm := rfl
@[simp] theorem State.setCmd_hlt (c : Cmd) : (s.setCmd c).hlt = s.hlt := rfl
@[simp] theorem State.setCmd_boot (c : Cmd) : (s.setCmd c).boot = s.boot := rfl
@[simp] theorem State.setCmd_log (c : Cmd) : (s.setCmd c).log = s.log := rfl
@[simp] theorem State.setCmd_nvm (c : Cmd) : (s.setCmd c).nvm = s.nvm := rfl
@[simp] theorem State.setCmd_fw (c : Cmd) : (s.setCmd c).fw = s.fw := rfl
@[simp] theorem State.setCmd_nvs (c : Cmd) : (s.setCmd c).nvs = s.nvs := rfl
@[simp] theorem State.setCmd_link (c : Cmd) : (s.setCmd c).link = s.link := rfl
@[simp] theorem State.setCmd_sec (c : Cmd) : (s.setCmd c).sec = s.sec := rfl
@[simp] theorem State.setCmd_inst (c : Cmd) : (s.setCmd c).inst = s.inst := rfl
@[simp] theorem State.setCmd_fn (c : Cmd) : (s.setCmd c).fn = s.fn := rfl
@[simp] theorem State.setCmd_cmds (c : Cmd) : (s.setCmd c).cmds = s.cmds.map (fun x => if x.id = c.id then c else x) := rfl
@[simp] theorem State.setCmd_nextCmd (c : Cmd) : (s.setCmd c).nextCmd = s.nextCmd := rfl
@[simp] theorem State.setCmd_oldOps (c : Cmd) : (s.setCmd c).oldOps = s.oldOps := rfl
@[simp] theorem State.setCmd_due (c : Cmd) : (s.setCmd c).due = s.due := rfl
@[simp] theorem State.setCmd_reads (c : Cmd) : (s.setCmd c).reads = s.reads := rfl
@[simp] theorem State.setCmd_nextTag (c : Cmd) : (s.setCmd c).nextTag = s.nextTag := rfl
@[simp] theorem State.setCmd_lastFn (c : Cmd) : (s.setCmd c).lastFn = s.lastFn := rfl
@[simp] theorem State.setCmd_dbErr (c : Cmd) : (s.setCmd c).dbErr = s.dbErr := rfl
@[simp] theorem State.setCmd_sqErr (c : Cmd) : (s.setCmd c).sqErr = s.sqErr := rfl
@[simp] theorem State.setCmd_fss (c : Cmd) : (s.setCmd c).fss = s.fss := rfl
@[simp] theorem State.setCmd_sea (c : Cmd) : (s.setCmd c).sea = s.sea := rfl
@[simp] theorem State.setCmd_mch (c : Cmd) : (s.setCmd c).mch = s.mch := rfl
@[simp] theorem State.setCmd_fetches (c : Cmd) : (s.setCmd c).fetches = s.fetches := rfl
@[simp] theorem State.setCmd_arc (c : Cmd) : (s.setCmd c).arc = s.arc := rfl
@[simp] theorem State.setCmd_drives (c : Cmd) : (s.setCmd c).drives = s.drives := rfl
@[simp] theorem State.setCmd_clk (c : Cmd) : (s.setCmd c).clk = s.clk := rfl
@[simp] theorem State.setCmd_pwb (c : Cmd) : (s.setCmd c).pwb = s.pwb := rfl
@[simp] theorem State.setCmd_stl (c : Cmd) : (s.setCmd c).stl = s.stl := rfl
@[simp] theorem State.setCmd_inp (c : Cmd) : (s.setCmd c).inp = s.inp := rfl
@[simp] theorem State.setCmd_sns (c : Cmd) : (s.setCmd c).sns = s.sns := rfl
@[simp] theorem State.setCmd_cal (c : Cmd) : (s.setCmd c).cal = s.cal := rfl
@[simp] theorem State.setCmd_mon (c : Cmd) : (s.setCmd c).mon = s.mon := rfl
@[simp] theorem State.setCmd_rate (c : Cmd) : (s.setCmd c).rate = s.rate := rfl
@[simp] theorem State.setCmd_lateOpens (c : Cmd) : (s.setCmd c).lateOpens = s.lateOpens := rfl
@[simp] theorem State.setCmd_vsel (c : Cmd) : (s.setCmd c).vsel = s.vsel := rfl

@[simp] theorem State.dropCmd_pending (n : Nat) : (s.dropCmd n).pending = s.pending := rfl
@[simp] theorem State.dropCmd_out (n : Nat) : (s.dropCmd n).out = s.out := rfl
@[simp] theorem State.dropCmd_free (n : Nat) : (s.dropCmd n).free = s.free := rfl
@[simp] theorem State.dropCmd_regs (n : Nat) : (s.dropCmd n).regs = s.regs := rfl
@[simp] theorem State.dropCmd_nextSet (n : Nat) : (s.dropCmd n).nextSet = s.nextSet := rfl
@[simp] theorem State.dropCmd_liveSet (n : Nat) : (s.dropCmd n).liveSet = s.liveSet := rfl
@[simp] theorem State.dropCmd_prevSet (n : Nat) : (s.dropCmd n).prevSet = s.prevSet := rfl
@[simp] theorem State.dropCmd_latches (n : Nat) : (s.dropCmd n).latches = s.latches := rfl
@[simp] theorem State.dropCmd_epoch (n : Nat) : (s.dropCmd n).epoch = s.epoch := rfl
@[simp] theorem State.dropCmd_tm (n : Nat) : (s.dropCmd n).tm = s.tm := rfl
@[simp] theorem State.dropCmd_hlt (n : Nat) : (s.dropCmd n).hlt = s.hlt := rfl
@[simp] theorem State.dropCmd_boot (n : Nat) : (s.dropCmd n).boot = s.boot := rfl
@[simp] theorem State.dropCmd_log (n : Nat) : (s.dropCmd n).log = s.log := rfl
@[simp] theorem State.dropCmd_nvm (n : Nat) : (s.dropCmd n).nvm = s.nvm := rfl
@[simp] theorem State.dropCmd_fw (n : Nat) : (s.dropCmd n).fw = s.fw := rfl
@[simp] theorem State.dropCmd_nvs (n : Nat) : (s.dropCmd n).nvs = s.nvs := rfl
@[simp] theorem State.dropCmd_link (n : Nat) : (s.dropCmd n).link = s.link := rfl
@[simp] theorem State.dropCmd_sec (n : Nat) : (s.dropCmd n).sec = s.sec := rfl
@[simp] theorem State.dropCmd_inst (n : Nat) : (s.dropCmd n).inst = s.inst := rfl
@[simp] theorem State.dropCmd_fn (n : Nat) : (s.dropCmd n).fn = s.fn := rfl
@[simp] theorem State.dropCmd_cmds (n : Nat) : (s.dropCmd n).cmds = s.cmds.filter (fun c => c.id ≠ n) := rfl
@[simp] theorem State.dropCmd_nextCmd (n : Nat) : (s.dropCmd n).nextCmd = s.nextCmd := rfl
@[simp] theorem State.dropCmd_oldOps (n : Nat) : (s.dropCmd n).oldOps = s.oldOps := rfl
@[simp] theorem State.dropCmd_due (n : Nat) : (s.dropCmd n).due = s.due := rfl
@[simp] theorem State.dropCmd_reads (n : Nat) : (s.dropCmd n).reads = s.reads := rfl
@[simp] theorem State.dropCmd_nextTag (n : Nat) : (s.dropCmd n).nextTag = s.nextTag := rfl
@[simp] theorem State.dropCmd_lastFn (n : Nat) : (s.dropCmd n).lastFn = s.lastFn := rfl
@[simp] theorem State.dropCmd_dbErr (n : Nat) : (s.dropCmd n).dbErr = s.dbErr := rfl
@[simp] theorem State.dropCmd_sqErr (n : Nat) : (s.dropCmd n).sqErr = s.sqErr := rfl
@[simp] theorem State.dropCmd_fss (n : Nat) : (s.dropCmd n).fss = s.fss := rfl
@[simp] theorem State.dropCmd_sea (n : Nat) : (s.dropCmd n).sea = s.sea := rfl
@[simp] theorem State.dropCmd_mch (n : Nat) : (s.dropCmd n).mch = s.mch := rfl
@[simp] theorem State.dropCmd_fetches (n : Nat) : (s.dropCmd n).fetches = s.fetches := rfl
@[simp] theorem State.dropCmd_arc (n : Nat) : (s.dropCmd n).arc = s.arc := rfl
@[simp] theorem State.dropCmd_drives (n : Nat) : (s.dropCmd n).drives = s.drives := rfl
@[simp] theorem State.dropCmd_clk (n : Nat) : (s.dropCmd n).clk = s.clk := rfl
@[simp] theorem State.dropCmd_pwb (n : Nat) : (s.dropCmd n).pwb = s.pwb := rfl
@[simp] theorem State.dropCmd_stl (n : Nat) : (s.dropCmd n).stl = s.stl := rfl
@[simp] theorem State.dropCmd_inp (n : Nat) : (s.dropCmd n).inp = s.inp := rfl
@[simp] theorem State.dropCmd_sns (n : Nat) : (s.dropCmd n).sns = s.sns := rfl
@[simp] theorem State.dropCmd_cal (n : Nat) : (s.dropCmd n).cal = s.cal := rfl
@[simp] theorem State.dropCmd_mon (n : Nat) : (s.dropCmd n).mon = s.mon := rfl
@[simp] theorem State.dropCmd_rate (n : Nat) : (s.dropCmd n).rate = s.rate := rfl
@[simp] theorem State.dropCmd_lateOpens (n : Nat) : (s.dropCmd n).lateOpens = s.lateOpens := rfl
@[simp] theorem State.dropCmd_vsel (n : Nat) : (s.dropCmd n).vsel = s.vsel := rfl

@[simp] theorem State.bumpCkpt_pending : (s.bumpCkpt).pending = s.pending := rfl
@[simp] theorem State.bumpCkpt_out : (s.bumpCkpt).out = s.out := rfl
@[simp] theorem State.bumpCkpt_free : (s.bumpCkpt).free = s.free := rfl
@[simp] theorem State.bumpCkpt_regs : (s.bumpCkpt).regs = s.regs := rfl
@[simp] theorem State.bumpCkpt_nextSet : (s.bumpCkpt).nextSet = s.nextSet := rfl
@[simp] theorem State.bumpCkpt_liveSet : (s.bumpCkpt).liveSet = s.liveSet := rfl
@[simp] theorem State.bumpCkpt_prevSet : (s.bumpCkpt).prevSet = s.prevSet := rfl
@[simp] theorem State.bumpCkpt_latches : (s.bumpCkpt).latches = s.latches := rfl
@[simp] theorem State.bumpCkpt_epoch : (s.bumpCkpt).epoch = s.epoch := rfl
@[simp] theorem State.bumpCkpt_tm : (s.bumpCkpt).tm = s.tm := rfl
@[simp] theorem State.bumpCkpt_hlt : (s.bumpCkpt).hlt = s.hlt := rfl
@[simp] theorem State.bumpCkpt_boot : (s.bumpCkpt).boot = s.boot := rfl
@[simp] theorem State.bumpCkpt_log : (s.bumpCkpt).log = s.log := rfl
@[simp] theorem State.bumpCkpt_nvm : (s.bumpCkpt).nvm = s.nvm := rfl
@[simp] theorem State.bumpCkpt_fw : (s.bumpCkpt).fw = s.fw := rfl
@[simp] theorem State.bumpCkpt_nvs : (s.bumpCkpt).nvs = s.nvs := rfl
@[simp] theorem State.bumpCkpt_link : (s.bumpCkpt).link = s.link := rfl
@[simp] theorem State.bumpCkpt_sec : (s.bumpCkpt).sec = s.sec := rfl
@[simp] theorem State.bumpCkpt_inst : (s.bumpCkpt).inst = s.inst := rfl
@[simp] theorem State.bumpCkpt_fn : (s.bumpCkpt).fn = s.fn := rfl
@[simp] theorem State.bumpCkpt_cmds : (s.bumpCkpt).cmds = s.cmds := rfl
@[simp] theorem State.bumpCkpt_nextCmd : (s.bumpCkpt).nextCmd = s.nextCmd := rfl
@[simp] theorem State.bumpCkpt_oldOps : (s.bumpCkpt).oldOps = s.oldOps := rfl
@[simp] theorem State.bumpCkpt_due : (s.bumpCkpt).due = s.due := rfl
@[simp] theorem State.bumpCkpt_reads : (s.bumpCkpt).reads = s.reads := rfl
@[simp] theorem State.bumpCkpt_nextTag : (s.bumpCkpt).nextTag = s.nextTag := rfl
@[simp] theorem State.bumpCkpt_lastFn : (s.bumpCkpt).lastFn = s.lastFn := rfl
@[simp] theorem State.bumpCkpt_dbErr : (s.bumpCkpt).dbErr = s.dbErr := rfl
@[simp] theorem State.bumpCkpt_sqErr : (s.bumpCkpt).sqErr = s.sqErr := rfl
@[simp] theorem State.bumpCkpt_fss : (s.bumpCkpt).fss = { s.fss with ckptSeq := s.fss.ckptSeq + 1 } := rfl
@[simp] theorem State.bumpCkpt_sea : (s.bumpCkpt).sea = s.sea := rfl
@[simp] theorem State.bumpCkpt_mch : (s.bumpCkpt).mch = s.mch := rfl
@[simp] theorem State.bumpCkpt_fetches : (s.bumpCkpt).fetches = s.fetches := rfl
@[simp] theorem State.bumpCkpt_arc : (s.bumpCkpt).arc = s.arc := rfl
@[simp] theorem State.bumpCkpt_drives : (s.bumpCkpt).drives = s.drives := rfl
@[simp] theorem State.bumpCkpt_clk : (s.bumpCkpt).clk = s.clk := rfl
@[simp] theorem State.bumpCkpt_pwb : (s.bumpCkpt).pwb = s.pwb := rfl
@[simp] theorem State.bumpCkpt_stl : (s.bumpCkpt).stl = s.stl := rfl
@[simp] theorem State.bumpCkpt_inp : (s.bumpCkpt).inp = s.inp := rfl
@[simp] theorem State.bumpCkpt_sns : (s.bumpCkpt).sns = s.sns := rfl
@[simp] theorem State.bumpCkpt_cal : (s.bumpCkpt).cal = s.cal := rfl
@[simp] theorem State.bumpCkpt_mon : (s.bumpCkpt).mon = s.mon := rfl
@[simp] theorem State.bumpCkpt_rate : (s.bumpCkpt).rate = s.rate := rfl
@[simp] theorem State.bumpCkpt_lateOpens : (s.bumpCkpt).lateOpens = s.lateOpens := rfl
@[simp] theorem State.bumpCkpt_vsel : (s.bumpCkpt).vsel = s.vsel := rfl

@[simp] theorem State.drawOne_pending : (s.drawOne).pending = s.pending := rfl
@[simp] theorem State.drawOne_out : (s.drawOne).out = s.out := rfl
@[simp] theorem State.drawOne_free : (s.drawOne).free = s.free := rfl
@[simp] theorem State.drawOne_regs : (s.drawOne).regs = s.regs := rfl
@[simp] theorem State.drawOne_nextSet : (s.drawOne).nextSet = s.nextSet := rfl
@[simp] theorem State.drawOne_liveSet : (s.drawOne).liveSet = s.liveSet := rfl
@[simp] theorem State.drawOne_prevSet : (s.drawOne).prevSet = s.prevSet := rfl
@[simp] theorem State.drawOne_latches : (s.drawOne).latches = s.latches := rfl
@[simp] theorem State.drawOne_epoch : (s.drawOne).epoch = s.epoch := rfl
@[simp] theorem State.drawOne_tm : (s.drawOne).tm = s.tm := rfl
@[simp] theorem State.drawOne_hlt : (s.drawOne).hlt = s.hlt := rfl
@[simp] theorem State.drawOne_boot : (s.drawOne).boot = s.boot := rfl
@[simp] theorem State.drawOne_log : (s.drawOne).log = s.log := rfl
@[simp] theorem State.drawOne_nvm : (s.drawOne).nvm = s.nvm := rfl
@[simp] theorem State.drawOne_fw : (s.drawOne).fw = s.fw := rfl
@[simp] theorem State.drawOne_nvs : (s.drawOne).nvs = s.nvs := rfl
@[simp] theorem State.drawOne_link : (s.drawOne).link = s.link := rfl
@[simp] theorem State.drawOne_sec : (s.drawOne).sec = s.sec := rfl
@[simp] theorem State.drawOne_inst : (s.drawOne).inst = s.inst := rfl
@[simp] theorem State.drawOne_fn : (s.drawOne).fn = s.fn := rfl
@[simp] theorem State.drawOne_cmds : (s.drawOne).cmds = s.cmds := rfl
@[simp] theorem State.drawOne_nextCmd : (s.drawOne).nextCmd = s.nextCmd := rfl
@[simp] theorem State.drawOne_oldOps : (s.drawOne).oldOps = s.oldOps := rfl
@[simp] theorem State.drawOne_due : (s.drawOne).due = s.due := rfl
@[simp] theorem State.drawOne_reads : (s.drawOne).reads = s.reads := rfl
@[simp] theorem State.drawOne_nextTag : (s.drawOne).nextTag = s.nextTag := rfl
@[simp] theorem State.drawOne_lastFn : (s.drawOne).lastFn = s.lastFn := rfl
@[simp] theorem State.drawOne_dbErr : (s.drawOne).dbErr = s.dbErr := rfl
@[simp] theorem State.drawOne_sqErr : (s.drawOne).sqErr = s.sqErr := rfl
@[simp] theorem State.drawOne_fss : (s.drawOne).fss = s.fss := rfl
@[simp] theorem State.drawOne_sea : (s.drawOne).sea = { s.sea with drawn := s.sea.drawn + 1, drbgCount := s.sea.drbgCount + 1 } := rfl
@[simp] theorem State.drawOne_mch : (s.drawOne).mch = s.mch := rfl
@[simp] theorem State.drawOne_fetches : (s.drawOne).fetches = s.fetches := rfl
@[simp] theorem State.drawOne_arc : (s.drawOne).arc = s.arc := rfl
@[simp] theorem State.drawOne_drives : (s.drawOne).drives = s.drives := rfl
@[simp] theorem State.drawOne_clk : (s.drawOne).clk = s.clk := rfl
@[simp] theorem State.drawOne_pwb : (s.drawOne).pwb = s.pwb := rfl
@[simp] theorem State.drawOne_stl : (s.drawOne).stl = s.stl := rfl
@[simp] theorem State.drawOne_inp : (s.drawOne).inp = s.inp := rfl
@[simp] theorem State.drawOne_sns : (s.drawOne).sns = s.sns := rfl
@[simp] theorem State.drawOne_cal : (s.drawOne).cal = s.cal := rfl
@[simp] theorem State.drawOne_mon : (s.drawOne).mon = s.mon := rfl
@[simp] theorem State.drawOne_rate : (s.drawOne).rate = s.rate := rfl
@[simp] theorem State.drawOne_lateOpens : (s.drawOne).lateOpens = s.lateOpens := rfl
@[simp] theorem State.drawOne_vsel : (s.drawOne).vsel = s.vsel := rfl

@[simp] theorem State.mapBands_pending (g : Band → Band) : (s.mapBands g).pending = s.pending := rfl
@[simp] theorem State.mapBands_out (g : Band → Band) : (s.mapBands g).out = s.out := rfl
@[simp] theorem State.mapBands_free (g : Band → Band) : (s.mapBands g).free = s.free := rfl
@[simp] theorem State.mapBands_regs (g : Band → Band) : (s.mapBands g).regs = s.regs := rfl
@[simp] theorem State.mapBands_nextSet (g : Band → Band) : (s.mapBands g).nextSet = s.nextSet := rfl
@[simp] theorem State.mapBands_liveSet (g : Band → Band) : (s.mapBands g).liveSet = s.liveSet := rfl
@[simp] theorem State.mapBands_prevSet (g : Band → Band) : (s.mapBands g).prevSet = s.prevSet := rfl
@[simp] theorem State.mapBands_latches (g : Band → Band) : (s.mapBands g).latches = s.latches := rfl
@[simp] theorem State.mapBands_epoch (g : Band → Band) : (s.mapBands g).epoch = s.epoch := rfl
@[simp] theorem State.mapBands_tm (g : Band → Band) : (s.mapBands g).tm = s.tm := rfl
@[simp] theorem State.mapBands_hlt (g : Band → Band) : (s.mapBands g).hlt = s.hlt := rfl
@[simp] theorem State.mapBands_boot (g : Band → Band) : (s.mapBands g).boot = s.boot := rfl
@[simp] theorem State.mapBands_log (g : Band → Band) : (s.mapBands g).log = s.log := rfl
@[simp] theorem State.mapBands_nvm (g : Band → Band) : (s.mapBands g).nvm = s.nvm := rfl
@[simp] theorem State.mapBands_fw (g : Band → Band) : (s.mapBands g).fw = s.fw := rfl
@[simp] theorem State.mapBands_nvs (g : Band → Band) : (s.mapBands g).nvs = s.nvs := rfl
@[simp] theorem State.mapBands_link (g : Band → Band) : (s.mapBands g).link = s.link := rfl
@[simp] theorem State.mapBands_sec (g : Band → Band) : (s.mapBands g).sec = s.sec := rfl
@[simp] theorem State.mapBands_inst (g : Band → Band) : (s.mapBands g).inst = s.inst := rfl
@[simp] theorem State.mapBands_fn (g : Band → Band) : (s.mapBands g).fn = s.fn := rfl
@[simp] theorem State.mapBands_cmds (g : Band → Band) : (s.mapBands g).cmds = s.cmds := rfl
@[simp] theorem State.mapBands_nextCmd (g : Band → Band) : (s.mapBands g).nextCmd = s.nextCmd := rfl
@[simp] theorem State.mapBands_oldOps (g : Band → Band) : (s.mapBands g).oldOps = s.oldOps := rfl
@[simp] theorem State.mapBands_due (g : Band → Band) : (s.mapBands g).due = s.due := rfl
@[simp] theorem State.mapBands_reads (g : Band → Band) : (s.mapBands g).reads = s.reads := rfl
@[simp] theorem State.mapBands_nextTag (g : Band → Band) : (s.mapBands g).nextTag = s.nextTag := rfl
@[simp] theorem State.mapBands_lastFn (g : Band → Band) : (s.mapBands g).lastFn = s.lastFn := rfl
@[simp] theorem State.mapBands_dbErr (g : Band → Band) : (s.mapBands g).dbErr = s.dbErr := rfl
@[simp] theorem State.mapBands_sqErr (g : Band → Band) : (s.mapBands g).sqErr = s.sqErr := rfl
@[simp] theorem State.mapBands_fss (g : Band → Band) : (s.mapBands g).fss = { s.fss with bands := s.fss.bands.map g } := rfl
@[simp] theorem State.mapBands_sea (g : Band → Band) : (s.mapBands g).sea = s.sea := rfl
@[simp] theorem State.mapBands_mch (g : Band → Band) : (s.mapBands g).mch = s.mch := rfl
@[simp] theorem State.mapBands_fetches (g : Band → Band) : (s.mapBands g).fetches = s.fetches := rfl
@[simp] theorem State.mapBands_arc (g : Band → Band) : (s.mapBands g).arc = s.arc := rfl
@[simp] theorem State.mapBands_drives (g : Band → Band) : (s.mapBands g).drives = s.drives := rfl
@[simp] theorem State.mapBands_clk (g : Band → Band) : (s.mapBands g).clk = s.clk := rfl
@[simp] theorem State.mapBands_pwb (g : Band → Band) : (s.mapBands g).pwb = s.pwb := rfl
@[simp] theorem State.mapBands_stl (g : Band → Band) : (s.mapBands g).stl = s.stl := rfl
@[simp] theorem State.mapBands_inp (g : Band → Band) : (s.mapBands g).inp = s.inp := rfl
@[simp] theorem State.mapBands_sns (g : Band → Band) : (s.mapBands g).sns = s.sns := rfl
@[simp] theorem State.mapBands_cal (g : Band → Band) : (s.mapBands g).cal = s.cal := rfl
@[simp] theorem State.mapBands_mon (g : Band → Band) : (s.mapBands g).mon = s.mon := rfl
@[simp] theorem State.mapBands_rate (g : Band → Band) : (s.mapBands g).rate = s.rate := rfl
@[simp] theorem State.mapBands_lateOpens (g : Band → Band) : (s.mapBands g).lateOpens = s.lateOpens := rfl
@[simp] theorem State.mapBands_vsel (g : Band → Band) : (s.mapBands g).vsel = s.vsel := rfl

@[simp] theorem State.mapSegs_pending (g : Segment → Segment) : (s.mapSegs g).pending = s.pending := rfl
@[simp] theorem State.mapSegs_out (g : Segment → Segment) : (s.mapSegs g).out = s.out := rfl
@[simp] theorem State.mapSegs_free (g : Segment → Segment) : (s.mapSegs g).free = s.free := rfl
@[simp] theorem State.mapSegs_regs (g : Segment → Segment) : (s.mapSegs g).regs = s.regs := rfl
@[simp] theorem State.mapSegs_nextSet (g : Segment → Segment) : (s.mapSegs g).nextSet = s.nextSet := rfl
@[simp] theorem State.mapSegs_liveSet (g : Segment → Segment) : (s.mapSegs g).liveSet = s.liveSet := rfl
@[simp] theorem State.mapSegs_prevSet (g : Segment → Segment) : (s.mapSegs g).prevSet = s.prevSet := rfl
@[simp] theorem State.mapSegs_latches (g : Segment → Segment) : (s.mapSegs g).latches = s.latches := rfl
@[simp] theorem State.mapSegs_epoch (g : Segment → Segment) : (s.mapSegs g).epoch = s.epoch := rfl
@[simp] theorem State.mapSegs_tm (g : Segment → Segment) : (s.mapSegs g).tm = s.tm := rfl
@[simp] theorem State.mapSegs_hlt (g : Segment → Segment) : (s.mapSegs g).hlt = s.hlt := rfl
@[simp] theorem State.mapSegs_boot (g : Segment → Segment) : (s.mapSegs g).boot = s.boot := rfl
@[simp] theorem State.mapSegs_log (g : Segment → Segment) : (s.mapSegs g).log = s.log := rfl
@[simp] theorem State.mapSegs_nvm (g : Segment → Segment) : (s.mapSegs g).nvm = s.nvm := rfl
@[simp] theorem State.mapSegs_fw (g : Segment → Segment) : (s.mapSegs g).fw = s.fw := rfl
@[simp] theorem State.mapSegs_nvs (g : Segment → Segment) : (s.mapSegs g).nvs = s.nvs := rfl
@[simp] theorem State.mapSegs_link (g : Segment → Segment) : (s.mapSegs g).link = s.link := rfl
@[simp] theorem State.mapSegs_sec (g : Segment → Segment) : (s.mapSegs g).sec = s.sec := rfl
@[simp] theorem State.mapSegs_inst (g : Segment → Segment) : (s.mapSegs g).inst = s.inst := rfl
@[simp] theorem State.mapSegs_fn (g : Segment → Segment) : (s.mapSegs g).fn = s.fn := rfl
@[simp] theorem State.mapSegs_cmds (g : Segment → Segment) : (s.mapSegs g).cmds = s.cmds := rfl
@[simp] theorem State.mapSegs_nextCmd (g : Segment → Segment) : (s.mapSegs g).nextCmd = s.nextCmd := rfl
@[simp] theorem State.mapSegs_oldOps (g : Segment → Segment) : (s.mapSegs g).oldOps = s.oldOps := rfl
@[simp] theorem State.mapSegs_due (g : Segment → Segment) : (s.mapSegs g).due = s.due := rfl
@[simp] theorem State.mapSegs_reads (g : Segment → Segment) : (s.mapSegs g).reads = s.reads := rfl
@[simp] theorem State.mapSegs_nextTag (g : Segment → Segment) : (s.mapSegs g).nextTag = s.nextTag := rfl
@[simp] theorem State.mapSegs_lastFn (g : Segment → Segment) : (s.mapSegs g).lastFn = s.lastFn := rfl
@[simp] theorem State.mapSegs_dbErr (g : Segment → Segment) : (s.mapSegs g).dbErr = s.dbErr := rfl
@[simp] theorem State.mapSegs_sqErr (g : Segment → Segment) : (s.mapSegs g).sqErr = s.sqErr := rfl
@[simp] theorem State.mapSegs_fss (g : Segment → Segment) : (s.mapSegs g).fss = { s.fss with segs := s.fss.segs.map g } := rfl
@[simp] theorem State.mapSegs_sea (g : Segment → Segment) : (s.mapSegs g).sea = s.sea := rfl
@[simp] theorem State.mapSegs_mch (g : Segment → Segment) : (s.mapSegs g).mch = s.mch := rfl
@[simp] theorem State.mapSegs_fetches (g : Segment → Segment) : (s.mapSegs g).fetches = s.fetches := rfl
@[simp] theorem State.mapSegs_arc (g : Segment → Segment) : (s.mapSegs g).arc = s.arc := rfl
@[simp] theorem State.mapSegs_drives (g : Segment → Segment) : (s.mapSegs g).drives = s.drives := rfl
@[simp] theorem State.mapSegs_clk (g : Segment → Segment) : (s.mapSegs g).clk = s.clk := rfl
@[simp] theorem State.mapSegs_pwb (g : Segment → Segment) : (s.mapSegs g).pwb = s.pwb := rfl
@[simp] theorem State.mapSegs_stl (g : Segment → Segment) : (s.mapSegs g).stl = s.stl := rfl
@[simp] theorem State.mapSegs_inp (g : Segment → Segment) : (s.mapSegs g).inp = s.inp := rfl
@[simp] theorem State.mapSegs_sns (g : Segment → Segment) : (s.mapSegs g).sns = s.sns := rfl
@[simp] theorem State.mapSegs_cal (g : Segment → Segment) : (s.mapSegs g).cal = s.cal := rfl
@[simp] theorem State.mapSegs_mon (g : Segment → Segment) : (s.mapSegs g).mon = s.mon := rfl
@[simp] theorem State.mapSegs_rate (g : Segment → Segment) : (s.mapSegs g).rate = s.rate := rfl
@[simp] theorem State.mapSegs_lateOpens (g : Segment → Segment) : (s.mapSegs g).lateOpens = s.lateOpens := rfl
@[simp] theorem State.mapSegs_vsel (g : Segment → Segment) : (s.mapSegs g).vsel = s.vsel := rfl

@[simp] theorem State.jAdd_pending (e : JEntry) : (s.jAdd e).pending = s.pending := rfl
@[simp] theorem State.jAdd_out (e : JEntry) : (s.jAdd e).out = s.out := rfl
@[simp] theorem State.jAdd_free (e : JEntry) : (s.jAdd e).free = s.free := rfl
@[simp] theorem State.jAdd_regs (e : JEntry) : (s.jAdd e).regs = s.regs := rfl
@[simp] theorem State.jAdd_nextSet (e : JEntry) : (s.jAdd e).nextSet = s.nextSet := rfl
@[simp] theorem State.jAdd_liveSet (e : JEntry) : (s.jAdd e).liveSet = s.liveSet := rfl
@[simp] theorem State.jAdd_prevSet (e : JEntry) : (s.jAdd e).prevSet = s.prevSet := rfl
@[simp] theorem State.jAdd_latches (e : JEntry) : (s.jAdd e).latches = s.latches := rfl
@[simp] theorem State.jAdd_epoch (e : JEntry) : (s.jAdd e).epoch = s.epoch := rfl
@[simp] theorem State.jAdd_tm (e : JEntry) : (s.jAdd e).tm = s.tm := rfl
@[simp] theorem State.jAdd_hlt (e : JEntry) : (s.jAdd e).hlt = s.hlt := rfl
@[simp] theorem State.jAdd_boot (e : JEntry) : (s.jAdd e).boot = s.boot := rfl
@[simp] theorem State.jAdd_log (e : JEntry) : (s.jAdd e).log = s.log := rfl
@[simp] theorem State.jAdd_nvm (e : JEntry) : (s.jAdd e).nvm = s.nvm := rfl
@[simp] theorem State.jAdd_fw (e : JEntry) : (s.jAdd e).fw = s.fw := rfl
@[simp] theorem State.jAdd_nvs (e : JEntry) : (s.jAdd e).nvs = s.nvs := rfl
@[simp] theorem State.jAdd_link (e : JEntry) : (s.jAdd e).link = s.link := rfl
@[simp] theorem State.jAdd_sec (e : JEntry) : (s.jAdd e).sec = s.sec := rfl
@[simp] theorem State.jAdd_inst (e : JEntry) : (s.jAdd e).inst = s.inst := rfl
@[simp] theorem State.jAdd_fn (e : JEntry) : (s.jAdd e).fn = s.fn := rfl
@[simp] theorem State.jAdd_cmds (e : JEntry) : (s.jAdd e).cmds = s.cmds := rfl
@[simp] theorem State.jAdd_nextCmd (e : JEntry) : (s.jAdd e).nextCmd = s.nextCmd := rfl
@[simp] theorem State.jAdd_oldOps (e : JEntry) : (s.jAdd e).oldOps = s.oldOps := rfl
@[simp] theorem State.jAdd_due (e : JEntry) : (s.jAdd e).due = s.due := rfl
@[simp] theorem State.jAdd_reads (e : JEntry) : (s.jAdd e).reads = s.reads := rfl
@[simp] theorem State.jAdd_nextTag (e : JEntry) : (s.jAdd e).nextTag = s.nextTag := rfl
@[simp] theorem State.jAdd_lastFn (e : JEntry) : (s.jAdd e).lastFn = s.lastFn := rfl
@[simp] theorem State.jAdd_dbErr (e : JEntry) : (s.jAdd e).dbErr = s.dbErr := rfl
@[simp] theorem State.jAdd_sqErr (e : JEntry) : (s.jAdd e).sqErr = s.sqErr := rfl
@[simp] theorem State.jAdd_fss (e : JEntry) : (s.jAdd e).fss = { s.fss with jWait := s.fss.jWait ++ [e], jMade := s.fss.jMade + 1 } := rfl
@[simp] theorem State.jAdd_sea (e : JEntry) : (s.jAdd e).sea = s.sea := rfl
@[simp] theorem State.jAdd_mch (e : JEntry) : (s.jAdd e).mch = s.mch := rfl
@[simp] theorem State.jAdd_fetches (e : JEntry) : (s.jAdd e).fetches = s.fetches := rfl
@[simp] theorem State.jAdd_arc (e : JEntry) : (s.jAdd e).arc = s.arc := rfl
@[simp] theorem State.jAdd_drives (e : JEntry) : (s.jAdd e).drives = s.drives := rfl
@[simp] theorem State.jAdd_clk (e : JEntry) : (s.jAdd e).clk = s.clk := rfl
@[simp] theorem State.jAdd_pwb (e : JEntry) : (s.jAdd e).pwb = s.pwb := rfl
@[simp] theorem State.jAdd_stl (e : JEntry) : (s.jAdd e).stl = s.stl := rfl
@[simp] theorem State.jAdd_inp (e : JEntry) : (s.jAdd e).inp = s.inp := rfl
@[simp] theorem State.jAdd_sns (e : JEntry) : (s.jAdd e).sns = s.sns := rfl
@[simp] theorem State.jAdd_cal (e : JEntry) : (s.jAdd e).cal = s.cal := rfl
@[simp] theorem State.jAdd_mon (e : JEntry) : (s.jAdd e).mon = s.mon := rfl
@[simp] theorem State.jAdd_rate (e : JEntry) : (s.jAdd e).rate = s.rate := rfl
@[simp] theorem State.jAdd_lateOpens (e : JEntry) : (s.jAdd e).lateOpens = s.lateOpens := rfl
@[simp] theorem State.jAdd_vsel (e : JEntry) : (s.jAdd e).vsel = s.vsel := rfl

end Sys2Proof.Machine
end

