-- ==== Sys2Proof/Laws/Registers.lean ====
section
/-! SUPPORT. Reads after writes: registers, instance records, functions, elements of a list. -/

namespace Sys2Proof.Machine

theorem State.reg_setReg {s : State} (c : Bank.wf regReset s.regs = true) (j k : Nat) (v : Word) :
    (s.setReg k v).reg j = if j = k then v else s.reg j := by
  unfold State.reg
  rw [State.setReg_regs]
  split
  · subst j
    exact Bank.get_set_same c k v
  · exact Bank.get_set_other _ _ _ ‹_›

theorem State.getInst_modInst {s : State} (c : Bank.wf instDef s.inst = true) (i j : Nat) (g : Instance → Instance) :
    (s.modInst i g).getInst j = if j = i then g (s.getInst i) else s.getInst j := by
  unfold State.getInst
  rw [State.modInst_inst]
  split
  · subst j
    exact Bank.get_set_same c i _
  · exact Bank.get_set_other _ _ _ ‹_›

theorem State.getFn_modFn {s : State} (c : Bank.wf fnDef s.fn = true) (i j : Nat) (g : Fn → Fn) :
    (s.modFn i g).getFn j = if j = i then g (s.getFn i) else s.getFn j := by
  unfold State.getFn
  rw [State.modFn_fn]
  split
  · subst j
    exact Bank.get_set_same c i _
  · exact Bank.get_set_other _ _ _ ‹_›

theorem Bank.not_mem_of_above {α : Type} {k : Nat} {b : Bank α} (h : Bank.above k b = true) : ∀ e ∈ b, k < e.1 := by
  induction b with
  | nil => exact fun _ he => nomatch he
  | cons e r ih =>
    simp only [Bank.above, Bool.and_eq_true, decide_eq_true_eq] at h
    intro x hx
    cases hx with
    | head => exact h.1
    | tail _ hx => exact ih h.2 x hx

/-- The keys of a table in canonical form are distinct. -/
theorem Bank.keys_nodup {α : Type} [DecidableEq α] {d : Nat → α} {b : Bank α} (h : Bank.wf d b = true) :
    (b.map (fun e => e.1)).Nodup := by
  induction b with
  | nil => exact List.nodup_nil
  | cons e r ih =>
    rw [List.map_cons, List.nodup_cons]
    refine ⟨fun hm => ?_, ih (Bank.wf_tail h)⟩
    obtain ⟨x, hx, he⟩ := List.mem_map.mp hm
    have := Bank.not_mem_of_above (Bank.wf_above h) x hx
    omega

/-- A key without an entry reads as the default. -/
theorem Bank.get_of_not_mem {α : Type} {d : Nat → α} {b : Bank α} {k : Nat} (h : k ∉ b.map (fun e => e.1)) : Bank.get d b k = d k := by
  induction b with
  | nil => rfl
  | cons e r ih =>
    rw [List.map_cons, List.mem_cons, not_or] at h
    rw [Bank.get, if_neg (fun he => h.1 he.symm)]
    exact ih h.2

/-- One effect on each of a list of distinct instances: each takes it once, the others none. `I` is what holds on the way. -/
theorem getInst_forEach {I : State → Prop} {f : Nat → State → State} {g : Nat → Instance → Instance} (hk : ∀ i t, I t → I (f i t))
    (hf : ∀ i t, I t → ∀ j, (f i t).getInst j = if j = i then g i (t.getInst i) else t.getInst j) {l : List Nat} (hl : l.Nodup)
    {s : State} (c : I s) (j : Nat) : (forEach l f s).getInst j = if j ∈ l then g j (s.getInst j) else s.getInst j := by
  unfold forEach
  induction l generalizing s with
  | nil => rfl
  | cons i r ih =>
    rw [List.nodup_cons] at hl
    have h := ih hl.2 (hk i s c)
    rw [List.foldl_cons, h, hf i s c]
    by_cases e : j = i
    · subst j
      rw [if_neg hl.1, if_pos rfl, if_pos (List.mem_cons_self ..)]
    · rw [if_neg e]
      by_cases m : j ∈ r
      · rw [if_pos m, if_pos (List.mem_cons_of_mem _ m)]
      · rw [if_neg m, if_neg (fun h => (List.mem_cons.mp h).elim e m)]

theorem modNth_length {α : Type} (g : α → α) (l : List α) (n : Nat) : (modNth g l n).length = l.length := by
  induction l generalizing n with
  | nil => rfl
  | cons a r ih =>
    cases n with
    | zero => rfl
    | succ k => simp [modNth, ih]

theorem nth_modNth_same {α : Type} (d : α) (g : α → α) (l : List α) (n : Nat) (h : n < l.length) :
    nth d (modNth g l n) n = g (nth d l n) := by
  induction l generalizing n with
  | nil => exact absurd h (Nat.not_lt_zero _)
  | cons a r ih =>
    cases n with
    | zero => rfl
    | succ k => exact ih k (Nat.lt_of_succ_lt_succ h)

theorem nth_modNth_other {α : Type} (d : α) (g : α → α) (l : List α) {m n : Nat} (h : m ≠ n) :
    nth d (modNth g l n) m = nth d l m := by
  induction l generalizing m n with
  | nil => rfl
  | cons a r ih =>
    cases n with
    | zero =>
      cases m with
      | zero => exact absurd rfl h
      | succ j => rfl
    | succ k =>
      cases m with
      | zero => rfl
      | succ j => exact ih (fun e => h (congrArg Nat.succ e))

/-- A guard that is open lets its effect through. -/
theorem whenServing_of {s : State} {g : State → State} (h : s.serving = true) : whenServing s g = g s := if_pos h

theorem whenServing_not {s : State} {g : State → State} (h : s.serving = false) : whenServing s g = s :=
  if_neg (by rw [h]; exact Bool.false_ne_true)

theorem State.porHeld_of_running {s : State} (h : s.running = true) : s.hlt.porHeld = false := by
  unfold State.running at h
  rw [Bool.and_eq_true] at h
  cases hp : s.hlt.porHeld with
  | false => rfl
  | true => rw [hp] at h; exact absurd h.2 Bool.false_ne_true

theorem whenRunning_of {s : State} {g : State → State} (h : s.running = true) : whenRunning s g = g s := by
  unfold whenRunning
  rw [h, State.porHeld_of_running h]
  rfl

theorem whenRunning_not {s : State} {g : State → State} (h : s.running = false) : whenRunning s g = s := by
  unfold whenRunning
  rw [h]
  rfl

theorem hostBar2_of {s : State} {g : State → State} (h : s.barOpen 0 = true) : hostBar2 s g = g s := if_pos h

theorem hostBar0_of {s : State} {f : Nat} {g : State → State} (h : s.barOpen f = true) (hr : s.inReset f = false) :
    hostBar0 f s g = g s := by
  unfold hostBar0
  rw [h, hr]
  rfl

/-- A command that is being served runs its meaning on the state with its own setting set in force. -/
theorem withCmd_of {id : Nat} {op : Op} {c : Cmd} {s : State} {g : Cmd → State → State} (h : s.Runs id op c) :
    withCmd id op s g = (g c (s.setFor c)).setBack s := by
  simp [withCmd, whenServing, h.serving, h.found, h.ready, h.op, State.underEpoch, State.setFor, State.setBack]

/-- A number that no accepted command has changes nothing. -/
theorem withCmd_of_none {id : Nat} {op : Op} {s : State} {g : Cmd → State → State} (h : s.findCmd id = none) :
    withCmd id op s g = s := by
  simp [withCmd, whenServing, h]

end Sys2Proof.Machine
end

