-- ==== Sys2Proof/Laws/Commands.lean ====
section
/-! SUPPORT. What the completion of a command does: to the instances, to the completions that are due, and its frame for a status that
reports a failure. -/

namespace Sys2Proof.Machine

/-- Every instance but `i` is as it was, and the state and the generation of every instance are. -/
structure Stands (i : Nat) (s t : State) : Prop where
  wf : Bank.wf instDef t.inst = true
  others : ∀ j, j ≠ i → t.getInst j = s.getInst j
  gen : ∀ j, (t.getInst j).gen = (s.getInst j).gen
  state : ∀ j, (t.getInst j).state = (s.getInst j).state

theorem Stands.refl {i : Nat} {s : State} (h : Bank.wf instDef s.inst = true) : Stands i s s :=
  ⟨h, fun _ _ => rfl, fun _ => rfl, fun _ => rfl⟩

theorem Stands.modInst {i : Nat} {s t : State} {g : Instance → Instance} (h : Stands i s t) (hg : ∀ r, (g r).gen = r.gen)
    (hs : ∀ r, (g r).state = r.state) : Stands i s (t.modInst i g) := by
  have e := fun j => State.getInst_modInst h.wf i j g
  refine ⟨Bank.wf_set h.wf _ _, fun j hj => ?_, fun j => ?_, fun j => ?_⟩
  · rw [e, if_neg hj, h.others j hj]
  · rw [e]
    split
    · subst j
      rw [hg, h.gen]
    · exact h.gen j
  · rw [e]
    split
    · subst j
      rw [hs, h.state]
    · exact h.state j

theorem Stands.of_inst {i : Nat} {s t u : State} (h : Stands i s t) (e : u.inst = t.inst) : Stands i s u := by
  have g : ∀ j, u.getInst j = t.getInst j := fun j => by simp only [State.getInst, e]
  exact ⟨by rw [e]; exact h.wf, fun j hj => by rw [g, h.others j hj], fun j => by rw [g, h.gen], fun j => by rw [g, h.state]⟩

theorem Stands.quotaSettle {i : Nat} {s t : State} (h : Stands i s t) : Stands i s (t.quotaSettle i) := by
  have h1 : Stands i s (if rearms (t.getInst i) && !(t.getInst i).warnArmed then
      t.modInst i (fun r => { r with warnArmed := true, shownUsed := r.used }) else t) := by
    split
    · exact h.modInst (fun _ => rfl) (fun _ => rfl)
    · exact h
  unfold State.quotaSettle
  extract_lets x y
  have h2 : Stands i s x := h1
  split
  · exact h2.modInst (fun _ => rfl) (fun _ => rfl)
  · exact h2

theorem Stands.unreserve {s t : State} {c : Cmd} (h : Stands c.fn.toNat s t) : Stands c.fn.toNat s (t.unreserve c) := by
  simp only [State.unreserve]
  split
  · exact h
  · exact Stands.quotaSettle (Stands.of_inst
      (h.modInst (g := fun r => { r with reserved := r.reserved - c.reserved }) (fun _ => rfl) (fun _ => rfl)) rfl)

/-- A command that ends with a failure changes no instance but the counters of its own. -/
theorem State.complete_stands {s : State} (h : Bank.wf instDef s.inst = true) (c : Cmd) {st res : Nat} {rb : Bool} (hst : st ≠ 0) :
    Stands c.fn.toNat s (s.complete c st res rb) := by
  have h1 : Stands c.fn.toNat s (s.unreserve c) := (Stands.refl h).unreserve
  simp only [State.complete, if_neg hst]
  split
  · exact h1.of_inst rfl
  · refine Stands.of_inst (t := (s.unreserve c).count c.fn.toNat (fun m => { m with commands := m.commands + 1 })) ?_
      ((State.logEv_only _ _ _ _ .inst (by decide)).trans rfl)
    simp only [State.count]
    split
    · exact h1.modInst (fun _ => rfl) (fun _ => rfl)
    · exact h1

/-- The completion of a command of its instance's generation joins the end of those that are due. -/
theorem State.complete_due {s : State} (h : Bank.wf instDef s.inst = true) {c : Cmd} {st res : Nat} {rb : Bool} (hst : st ≠ 0)
    (hg : c.gen = (s.getInst c.fn.toNat).gen) :
    (s.complete c st res rb).due = s.due ++ [⟨c.id, c.fn, c.sq, c.cq, c.sqHead, eRid c.entry, st, false, rb, res⟩] := by
  have h1 := ((Stands.refl (i := c.fn.toNat) h).unreserve).gen c.fn.toNat
  have d1 : (s.unreserve c).due = s.due := State.unreserve_only s c .due (by decide)
  simp only [State.complete, if_neg hst]
  rw [if_neg (by rw [h1]; exact fun e => e hg)]
  refine (State.logEv_only _ _ _ _ .due (by decide)).trans ?_
  show State.due (State.count _ _ _) ++ _ = _
  rw [State.count_only _ _ _ .due (by decide)]
  exact congrArg (· ++ _) d1

/-- The frame of a completion with a failure: the rate meter stays as well. -/
theorem State.complete_fail_only (s : State) (c : Cmd) {st res : Nat} {rb : Bool} (hst : st ≠ 0) :
    Only [.out, .log, .nvm, .nvs, .inst, .fn, .cmds, .due] s (s.complete c st res rb) := by
  simp only [State.complete, if_neg hst]
  have h1 : Only [.out, .log, .nvm, .nvs, .inst, .fn, .cmds, .due] s (s.unreserve c) := Only.mono (State.unreserve_only _ _) rfl
  split
  · exact Only.via (State.dropCmd_only _ _) rfl h1
  · refine Only.via (State.logEv_only _ _ _ _) rfl ?_
    refine Only.via (Only.set_due _ _) rfl ?_
    refine Only.via (State.setCmd_only _ _) rfl ?_
    exact Only.via (State.count_only _ _ _) rfl h1

end Sys2Proof.Machine
end

