-- ==== Sys2Proof/Laws/Drives.lean ====
section
/-! SUPPORT. What opening an axis and settling the drives leave of each sled, and the state of a sled after a fault. -/

namespace Sys2Proof.Machine

/-- Every sled is as it was, and there are as many drives. -/
structure Sleds (s t : State) : Prop where
  len : t.drives.length = s.drives.length
  sled : ∀ d, (t.drive d).sled = (s.drive d).sled

theorem Sleds.refl (s : State) : Sleds s s := ⟨rfl, fun _ => rfl⟩

theorem Sleds.trans {s t u : State} (h : Sleds s t) (k : Sleds t u) : Sleds s u :=
  ⟨k.len.trans h.len, fun d => (k.sled d).trans (h.sled d)⟩

theorem Sleds.via {s t u : State} (k : Sleds t u) (h : Sleds s t) : Sleds s u := h.trans k

theorem Sleds.of_drives {s t : State} (e : t.drives = s.drives) : Sleds s t := ⟨by rw [e], fun d => by simp only [State.drive, e]⟩

theorem nth_modNth {α : Type} (d : α) (g : α → α) (l : List α) (m n : Nat) :
    nth d (modNth g l n) m = nth d l m ∨ nth d (modNth g l n) m = g (nth d l m) ∧ m = n := by
  by_cases h : m = n
  · subst h
    by_cases k : m < l.length
    · exact Or.inr ⟨nth_modNth_same d g l m k, rfl⟩
    · refine Or.inl ?_
      induction l generalizing m with
      | nil => rfl
      | cons a r ih =>
        cases m with
        | zero => simp at k
        | succ j => exact ih j (by simpa using k)
  · exact Or.inl (nth_modNth_other d g l h)

theorem Sleds.modDrive (s : State) (d : Nat) {g : Drive → Drive} (hg : ∀ r, (g r).sled = r.sled) : Sleds s (s.modDrive d g) := by
  refine ⟨modNth_length g s.drives d, fun e => ?_⟩
  show (nth Drive.reset (modNth g s.drives d) e).sled = (nth Drive.reset s.drives e).sled
  rcases nth_modNth Drive.reset g s.drives e d with h | ⟨h, -⟩
  · rw [h]
  · rw [h, hg]

theorem Sleds.modAxis (s : State) (a : Nat) (g : Ax → Ax) : Sleds s (s.modAxis a g) := Sleds.modDrive s (a / 4) (fun _ => rfl)

theorem Sleds.modWst (s : State) (d : Nat) (g : WriteStrategy → WriteStrategy) : Sleds s (s.modWst d g) := Sleds.modDrive s d (fun _ => rfl)

theorem Sleds.modRdc (s : State) (d : Nat) (g : ReadChannel → ReadChannel) : Sleds s (s.modRdc d g) := Sleds.modDrive s d (fun _ => rfl)

theorem Sleds.forBelow {n : Nat} {g : Nat → State → State} (hg : ∀ k t, Sleds t (g k t)) (s : State) : Sleds s (forBelow n g s) := by
  induction n with
  | zero => exact Sleds.refl s
  | succ k ih => exact ih.trans (hg k _)

theorem Sleds.closeGate (s : State) (d : Nat) : Sleds s (s.closeGate d) := by
  unfold State.closeGate
  extract_lets w t
  have h : Sleds s t := Sleds.trans (t := s.modWst d (fun w => { w with gate := false, burst := none, sent := 0, shutSince := s.tm.mono }))
    (Sleds.modWst s d _) (Sleds.of_drives rfl)
  split
  · exact h.trans (Sleds.of_drives (State.stripeBad_only _ _ _ .drives (by decide)))
  · exact h

theorem Sleds.gate (s : State) (d : Nat) : Sleds s (s.gate d) := by
  unfold State.gate
  extract_lets ok
  split
  · split
    · exact Sleds.refl s
    · exact Sleds.closeGate s d
  · split
    · exact Sleds.modWst s d _
    · exact Sleds.refl s

/-- What follows every change of a drive leaves the sleds alone. -/
theorem Sleds.settle (s : State) : Sleds s s.settle := by
  have h0 : ∀ u : State, Sleds u u.gatesOnce := fun u => Sleds.forBelow (fun k t => Sleds.gate t k) u
  have h1 : Sleds s s.gates := (h0 s).trans (h0 _)
  have h2 : Sleds s.gates s.gates.channels := Sleds.forBelow (fun k t => Sleds.modRdc t k _) _
  have h3 : Sleds s.gates.channels s.gates.channels.lights := Sleds.forBelow (fun k t => Sleds.modWst t k _) _
  exact (h1.trans h2).trans h3

theorem Sleds.rampOpen (s : State) (a : Nat) (st : AxState) : Sleds s (s.rampOpen a st) := by
  unfold State.rampOpen
  extract_lets x
  split
  · exact Sleds.refl s
  · exact Sleds.modAxis s a _

/-- An axis that opens leaves a sled that is not following as it is. -/
theorem State.sledHold_sled {s : State} {d : Nat} (h : (s.drive d).sled.st ≠ .follow) : ((s.sledHold d).drive d).sled = (s.drive d).sled ∧
    (s.sledHold d).drives.length = s.drives.length := by
  refine ⟨?_, modNth_length _ _ _⟩
  show (nth Drive.reset (modNth _ s.drives d) d).sled = (nth Drive.reset s.drives d).sled
  rcases nth_modNth Drive.reset (fun r => { r with sled := if r.sled.st = .follow then { r.sled with stopping := true } else r.sled })
    s.drives d d with k | ⟨k, -⟩
  · rw [k]
  · rw [k]
    exact if_neg h

theorem State.openSled_sled {s : State} {d : Nat} {st : AxState} (h : (s.drive d).sled.st ≠ .follow) :
    ((s.openSled d st).drive d).sled = (s.drive d).sled ∧ (s.openSled d st).drives.length = s.drives.length := by
  unfold State.openSled
  extract_lets a
  split
  · exact ⟨rfl, rfl⟩
  · have h2 : Sleds s (s.modAxis a (fun x => { x with st := st, fresh := false, out := 0, onTime := 0 })) := Sleds.modAxis s a _
    have h3 := State.sledHold_sled (d := d) (by rw [h2.sled d]; exact h)
    exact ⟨h3.1.trans (h2.sled d), h3.2.trans h2.len⟩

/-- FOC opens, and TRK and SLD with it; a sled that is not following stays as it is. -/
theorem State.openFoc_sled {s : State} {d : Nat} {st : AxState} (h : (s.drive d).sled.st ≠ .follow) :
    ((s.openFoc d st).drive d).sled = (s.drive d).sled ∧ (s.openFoc d st).drives.length = s.drives.length := by
  unfold State.openFoc State.openTrk
  generalize hb : (State.modDrive (State.rampOpen _ (axisOf d 1) AxState.opened) d _) = b
  have h1 : Sleds s b := by
    rw [← hb]
    refine Sleds.via (Sleds.modDrive _ d ?_) (Sleds.via (Sleds.rampOpen _ _ _) (Sleds.via (Sleds.modDrive _ d ?_) (Sleds.rampOpen _ _ _)))
    · exact fun _ => rfl
    · exact fun _ => rfl
  have h3 := State.openSled_sled (s := b) (d := d) (st := .opened) (by rw [h1.sled d]; exact h)
  exact ⟨h3.1.trans (h1.sled d), h3.2.trans h1.len⟩

/-- The sled of a drive after a fault: FAULT with its code, not homed, at rest; its position and its counts stay. -/
theorem State.sledFault_sled {s : State} {d code : Nat} (h : d < s.drives.length) :
    ((s.sledFault d code).drive d).sled = { (s.drive d).sled with
      st := .fault, fault := code, homed := false, lateOnly := false, v := 0, a := 0, iA := 0, iB := 0, dutyA := 0, dutyB := 0,
      stopping := false, parking := false, parkNext := false, report := none } := by
  unfold State.sledFault
  extract_lets t u
  have ht : (t.drive d).sled = { (s.drive d).sled with
      st := .fault, fault := code, homed := false, lateOnly := false, v := 0, a := 0, iA := 0, iB := 0, dutyA := 0, dutyB := 0,
      stopping := false, parking := false, parkNext := false, report := none } := congrArg Drive.sled (nth_modNth_same Drive.reset _ s.drives d h)
  have hu := State.openFoc_sled (s := t) (d := d) (st := .opened) (by rw [ht]; exact fun e => nomatch e)
  refine ((Sleds.settle _).sled d).trans ?_
  refine ((Sleds.of_drives (State.note_only _ _ _ .drives (by decide))).sled d).trans ?_
  refine ((Sleds.modAxis u _ _).sled d).trans ?_
  exact hu.1.trans ht

end Sys2Proof.Machine
end

