-- ==== Sys2Proof/Laws/Leaves.lean ====
section
/-! SUPPORT. What bringing the leaves of a run of logical blocks in does to the map and to the instances (R218, R251): no map entry, no
archive mark and no segment changes, and of the instances only the sequence numbers of the PF. -/

namespace Sys2Proof.Machine

/-- The map, the archive marks, the segments and the instances are as they were, but for the unit sequence of the PF. -/
structure Brought (s t : State) : Prop where
  map : t.fss.map = s.fss.map
  archived : t.fss.archived = s.fss.archived
  segs : t.fss.segs = s.fss.segs
  inst : Bank.wf instDef s.inst = true → Bank.wf instDef t.inst = true ∧
    (∀ j, j ≠ 0 → t.getInst j = s.getInst j) ∧ ∃ a b, t.getInst 0 = { s.getInst 0 with unitSeq := a, unitHigh := b }

theorem Brought.same {s t : State} (hi : t.inst = s.inst) (hm : t.fss.map = s.fss.map) (ha : t.fss.archived = s.fss.archived)
    (hs : t.fss.segs = s.fss.segs) : Brought s t :=
  ⟨hm, ha, hs, fun h => by
    have e : ∀ j, t.getInst j = s.getInst j := fun j => by unfold State.getInst; rw [hi]
    exact ⟨by rw [hi]; exact h, fun j _ => e j, _, _, e 0⟩⟩

theorem Brought.refl (s : State) : Brought s s := Brought.same rfl rfl rfl rfl

theorem Brought.trans {s t u : State} (h : Brought s t) (k : Brought t u) : Brought s u := by
  refine ⟨k.map.trans h.map, k.archived.trans h.archived, k.segs.trans h.segs, fun w => ?_⟩
  obtain ⟨w1, o1, a, b, e1⟩ := h.inst w
  obtain ⟨w2, o2, c, d, e2⟩ := k.inst w1
  exact ⟨w2, fun j hj => (o2 j hj).trans (o1 j hj), c, d, by rw [e2, e1]⟩

theorem Brought.forEach {α : Type} {xs : List α} {g : α → State → State} (hg : ∀ a t, Brought t (g a t)) :
    ∀ s : State, Brought s (forEach xs g s) := by
  unfold Sys2Proof.Machine.forEach
  induction xs with
  | nil => exact Brought.refl
  | cons a r ih => exact fun s => (hg a s).trans (ih (g a s))

theorem Brought.forBelow {n : Nat} {g : Nat → State → State} (hg : ∀ a t, Brought t (g a t)) (s : State) : Brought s (forBelow n g s) := by
  induction n with
  | zero => exact Brought.refl s
  | succ k ih => exact ih.trans (hg k _)

/-- A step that leaves the store and the instances alone. -/
theorem Brought.ofOnly {l : List StateField} {s t : State} (h : Only l s t) (hf : l.elem .fss = false) (hi : l.elem .inst = false) :
    Brought s t := by
  have e : t.fss = s.fss := h .fss (by simpa using hf)
  exact Brought.same (h .inst (by simpa using hi)) (by rw [e]) (by rw [e]) (by rw [e])

theorem State.setBlock_brought (s : State) (d b : Nat) (r : BlockRec) : Brought s (s.setBlock d b r) := Brought.same rfl rfl rfl rfl

theorem State.advanceAnchor_brought (s : State) (c : AnchorCopy) : Brought s (s.advanceAnchor c).1 := by
  unfold State.advanceAnchor
  split
  · exact s.setBlock_brought _ _ _
  · exact Brought.refl s

theorem State.writeAnchor_brought (s : State) : Brought s s.writeAnchor := by
  have k : ∀ (l : List AnchorCopy) (e : State × List AnchorCopy), Brought e.1 (l.foldl (fun (e : State × List AnchorCopy) c =>
      ((e.1.advanceAnchor c).1, e.2 ++ [(e.1.advanceAnchor c).2])) e).1 := by
    intro l
    induction l with
    | nil => exact fun e => Brought.refl _
    | cons a r ih => exact fun e => (e.1.advanceAnchor_brought a).trans (ih ((e.1.advanceAnchor a).1, e.2 ++ [(e.1.advanceAnchor a).2]))
  exact (k s.fss.anchors (s, [])).trans (Brought.same rfl rfl rfl rfl)

theorem State.openBand_brought (s : State) (role : Band.Role) : Brought s (s.openBand role) := by
  unfold State.openBand
  extract_lets bl n t f u
  have h : Brought s t := by
    refine Brought.forEach (fun e t => ?_) s
    exact Brought.same rfl rfl rfl rfl
  split
  · exact Brought.refl s
  · have hu : Brought s u := h.trans (Brought.same rfl rfl rfl rfl)
    split
    · exact hu.trans u.writeAnchor_brought
    · exact hu

theorem State.closeBand_brought (s : State) (b : Band) : Brought s (s.closeBand b) := by
  unfold State.closeBand
  split
  · exact Brought.same rfl rfl rfl rfl
  · have h : Brought s (s.setBand { b with isOpen := false }) := Brought.same rfl rfl rfl rfl
    refine h.trans (Brought.forEach (fun e t => ?_) _)
    exact t.setBlock_brought _ _ _

theorem State.takePage_brought {s t : State} {role : Band.Role} {pua : Nat} (h : s.takePage role = some (pua, t)) : Brought s t := by
  have opened : ∀ {u : State}, Brought s u → (match u.openOf role with
      | some b => (b.take u.fss.ppb).map (fun e => (e.1, u.setBand e.2))
      | none => none) = some (pua, t) → Brought s t := by
    intro u hu e
    split at e
    · obtain ⟨x, -, hx⟩ := Option.map_eq_some_iff.mp e
      rw [← (Prod.mk.inj hx).2]
      exact hu.trans (Brought.same rfl rfl rfl rfl)
    · cases e
  unfold State.takePage at h
  split at h
  · rename_i b _
    split at h
    · rw [← (Prod.mk.inj (Option.some.inj h)).2]
      exact Brought.same rfl rfl rfl rfl
    · exact opened ((s.closeBand_brought b).trans (State.openBand_brought _ role)) h
  · exact opened (s.openBand_brought role) h

theorem State.addUnit_brought {s t : State} {role : Band.Role} {r : UnitRec} {cmd : Option Nat} {pua : Nat}
    (h : s.addUnit role r cmd = some (pua, t)) : Brought s t := by
  unfold State.addUnit at h
  split at h
  · extract_lets p p2 u at h
    rw [← (Prod.mk.inj (Option.some.inj h)).2]
    split <;> exact Brought.same rfl rfl rfl rfl
  · split at h
    · rename_i e
      rw [← (Prod.mk.inj (Option.some.inj h)).2]
      exact (State.takePage_brought e).trans (Brought.same rfl rfl rfl rfl)
    · cases h

theorem State.putUnit_brought {s t : State} {role : Band.Role} {r : UnitRec} {pua : Nat} (h : s.putUnit role r = some (pua, t)) :
    Brought s t := by
  unfold State.putUnit at h
  split at h
  · rename_i e
    rw [← (Prod.mk.inj (Option.some.inj h)).2]
    exact (State.addUnit_brought e).trans (Brought.same rfl rfl rfl rfl)
  · cases h

theorem State.modInst0_brought (s : State) {g : Instance → Instance} (hg : ∀ r, ∃ a b, g r = { r with unitSeq := a, unitHigh := b }) :
    Brought s (s.modInst 0 g) :=
  ⟨rfl, rfl, rfl, fun w => ⟨by rw [State.modInst_inst]; exact Bank.wf_set w _ _,
    fun j hj => by rw [State.getInst_modInst w, if_neg hj], by rw [State.getInst_modInst w, if_pos rfl]; exact hg _⟩⟩

theorem State.takeSeq_brought (s : State) : Brought s (s.takeSeq 0).2 := by
  unfold State.takeSeq
  extract_lets n t
  have h : Brought s t := s.modInst0_brought (fun r => ⟨_, _, rfl⟩)
  split
  · exact h.trans ((t.modInst0_brought (g := fun r => { r with unitHigh := n + 2 ^ 20 }) (fun r => ⟨_, _, rfl⟩)).trans
      (Brought.same rfl rfl rfl rfl))
  · exact h

theorem State.leafOut_brought (s : State) (k : Nat) : Brought s (s.leafOut k) := by
  unfold State.leafOut
  extract_lets l
  split
  · split
    rename_i q t e
    have h : Brought s t := by have := s.takeSeq_brought; rw [e] at this; exact this
    extract_lets u
    split
    · rename_i x e2
      have hb : Brought t t.bumpCkpt := Brought.same rfl rfl rfl rfl
      exact ((h.trans hb).trans (State.putUnit_brought e2)).trans (Brought.same rfl rfl rfl rfl)
    · exact h
  · exact Brought.refl s

theorem State.evictLeaf_brought (s : State) : Brought s s.evictLeaf := by
  unfold State.evictLeaf
  split
  · exact Brought.refl s
  · rename_i k r _
    extract_lets t l f u
    have h : Brought s t := s.leafOut_brought k
    split
    · exact h
    · have hu : Brought s u := h.trans (Brought.same rfl rfl rfl rfl)
      split
      · refine Brought.trans ?_ (Brought.ofOnly (State.writeLeaf_only _ _ _ _) rfl rfl)
        exact hu.trans (Brought.same rfl rfl rfl rfl)
      · exact hu.trans (Brought.same rfl rfl rfl rfl)

theorem State.touchLeaf_brought (s : State) (k : Nat) : Brought s (s.touchLeaf k) := by
  unfold State.touchLeaf
  extract_lets t u f w
  have ht : Brought s t := by
    unfold t
    split
    · exact Brought.ofOnly (State.promoteLeaf_only _ _) rfl rfl
    · exact Brought.refl s
  have hu : Brought s u := by
    unfold u
    split
    · exact Brought.refl s
    · split
      · exact ht.trans t.evictLeaf_brought
      · exact ht
  have hw : Brought s w := hu.trans (Brought.same rfl rfl rfl rfl)
  exact hw.trans (Brought.same rfl rfl rfl rfl)

/-- Bringing the leaves of a run in changes no map entry. -/
theorem State.touchRun_brought (s : State) (i lbn n : Nat) : Brought s (s.touchRun i lbn n) := by
  unfold State.touchRun
  split
  · exact Brought.refl s
  · exact Brought.forBelow (fun k t => t.touchLeaf_brought _) s

end Sys2Proof.Machine
end

