-- ==== Sys2Proof/Laws/PerInstr.lean ====
section
/-!
SUPPORT. What well-formedness says of each command, one lemma per constructor: the byte string that a command carries is not empty and
holds at most 4,096 bytes (the largest host read, R51).
-/

namespace Sys2Proof.Laws.Carries

/-- The byte string a command carries, if it carries one. -/
def bytes : Instr → Option (List Byte)
  | .registerWrite _ _ data => some data
  | .hostReadCompletion _ data _ => some data
  | .sharedPageWrite _ _ data => some data
  | .doorbellFetchComplete _ data => some data
  | .commandAccept _ _ entry => some entry
  | _ => none

/-- A well-formed command's byte string holds 1 to 4,096 bytes. -/
def Statement (i : Instr) : Prop := ∀ data, i.wellFormed = true → bytes i = some data → 1 ≤ data.length ∧ data.length ≤ 4096

theorem registerWrite (sp : Space) (off : BitVec 22) (data : List Byte) : Statement (.registerWrite sp off data) := by
  intro l h hl
  simp only [Instr.wellFormed, decide_eq_true_eq] at h
  cases hl
  omega
theorem latchedPairRead (sp : Space) (r : RegSpan) : Statement (.latchedPairRead sp r) :=
  fun _ _ h => nomatch h
theorem configWrite (f : Func) (field : CfgField) (v : Word) : Statement (.configWrite f field v) :=
  fun _ _ h => nomatch h
theorem systemPageSizeWrite (v : Word) : Statement (.systemPageSizeWrite v) :=
  fun _ _ h => nomatch h
theorem numvfsWrite (v : BitVec 16) : Statement (.numvfsWrite v) :=
  fun _ _ h => nomatch h
theorem vfEnableSet : Statement (.vfEnableSet) :=
  fun _ _ h => nomatch h
theorem vfEnableClear : Statement (.vfEnableClear) :=
  fun _ _ h => nomatch h
theorem busMasterEnableWrite (f : Func) (en : Bool) : Statement (.busMasterEnableWrite f en) :=
  fun _ _ h => nomatch h
theorem completionTimeoutValueWrite (f : Func) (v : BitVec 4) : Statement (.completionTimeoutValueWrite f v) :=
  fun _ _ h => nomatch h
theorem initiateFunctionLevelReset (f : Func) : Statement (.initiateFunctionLevelReset f) :=
  fun _ _ h => nomatch h
theorem powerStateD3hot : Statement (.powerStateD3hot) :=
  fun _ _ h => nomatch h
theorem powerStateD0 : Statement (.powerStateD0) :=
  fun _ _ h => nomatch h
theorem msixVectorUnmask (f : Func) (what : Unmask) : Statement (.msixVectorUnmask f what) :=
  fun _ _ h => nomatch h
theorem hostReadCompletion (tag : Nat) (data : List Byte) (bad : List Nat) : Statement (.hostReadCompletion tag data bad) := by
  intro l h hl
  simp only [Instr.wellFormed, decide_eq_true_eq] at h
  cases hl
  omega
theorem hostReadErrorCompletion (tag : Nat) (why : ReadFail) : Statement (.hostReadErrorCompletion tag why) :=
  fun _ _ h => nomatch h
theorem completionTimeout (tag : Nat) : Statement (.completionTimeout tag) :=
  fun _ _ h => nomatch h
theorem leafFetchRetry (line : Nat) : Statement (.leafFetchRetry line) :=
  fun _ _ h => nomatch h
theorem linkUp (rate : Fin 4) (width : Fin 3) : Statement (.linkUp rate width) :=
  fun _ _ h => nomatch h
theorem dlDown : Statement (.dlDown) :=
  fun _ _ h => nomatch h
theorem hotResetReceived : Statement (.hotResetReceived) :=
  fun _ _ h => nomatch h
theorem warmResetComplete : Statement (.warmResetComplete) :=
  fun _ _ h => nomatch h
theorem spdmRequest (secured : Bool) (size : Nat) (req : SpdmReq) : Statement (.spdmRequest secured size req) :=
  fun _ _ h => nomatch h
theorem doeAbort : Statement (.doeAbort) :=
  fun _ _ h => nomatch h
theorem query (session : Nat) : Statement (.query session) :=
  fun _ _ h => nomatch h
theorem keyProg (session : Nat) (sub : SubStream) (tx : Bool) (set : Fin 2) (key : Nat) : Statement (.keyProg session sub tx set key) :=
  fun _ _ h => nomatch h
theorem kSetGo (session : Nat) (sub : SubStream) (tx : Bool) (set : Fin 2) : Statement (.kSetGo session sub tx set) :=
  fun _ _ h => nomatch h
theorem kSetStop (session : Nat) (sub : SubStream) (set : Fin 2) : Statement (.kSetStop session sub set) :=
  fun _ _ h => nomatch h
theorem ideTlpReceived (sub : SubStream) (k : Fin 2) (chk : TlpCheck) : Statement (.ideTlpReceived sub k chk) :=
  fun _ _ h => nomatch h
theorem ideTxCounterLimit (sub : SubStream) : Statement (.ideTxCounterLimit sub) :=
  fun _ _ h => nomatch h
theorem hstCntClr (v : Word) : Statement (.hstCntClr v) :=
  fun _ _ h => nomatch h
theorem instanceStart (id : Nat) : Statement (.instanceStart id) :=
  fun _ _ h => nomatch h
theorem instanceReset (id : Nat) : Statement (.instanceReset id) :=
  fun _ _ h => nomatch h
theorem instanceRemove (id : Nat) : Statement (.instanceRemove id) :=
  fun _ _ h => nomatch h
theorem setPolicy (id : Nat) : Statement (.setPolicy id) :=
  fun _ _ h => nomatch h
theorem setQuota (id : Nat) : Statement (.setQuota id) :=
  fun _ _ h => nomatch h
theorem setPeriod (id : Nat) : Statement (.setPeriod id) :=
  fun _ _ h => nomatch h
theorem resetDrainDone (f : Func) : Statement (.resetDrainDone f) :=
  fun _ _ h => nomatch h
theorem oldGenerationMediaEnded (f : Func) : Statement (.oldGenerationMediaEnded f) :=
  fun _ _ h => nomatch h
theorem mbInPost (f : Func) (post : Byte) : Statement (.mbInPost f post) :=
  fun _ _ h => nomatch h
theorem mailboxConsume (f : Func) : Statement (.mailboxConsume f) :=
  fun _ _ h => nomatch h
theorem mbOutAck (f : Func) (ack : Byte) : Statement (.mbOutAck f ack) :=
  fun _ _ h => nomatch h
theorem sharedPageWrite (f : Func) (off : BitVec 12) (data : List Byte) : Statement (.sharedPageWrite f off data) := by
  intro l h hl
  simp only [Instr.wellFormed, decide_eq_true_eq] at h
  cases hl
  omega
theorem policyPageUsedUpdate : Statement (.policyPageUsedUpdate) :=
  fun _ _ h => nomatch h
theorem epochCommit (v : Word) : Statement (.epochCommit v) :=
  fun _ _ h => nomatch h
theorem subsystemAdopt (bit : Fin 14) (part : Fin 16) : Statement (.subsystemAdopt bit part) :=
  fun _ _ h => nomatch h
theorem epochAdoptionTimeout : Statement (.epochAdoptionTimeout) :=
  fun _ _ h => nomatch h
theorem occupancyTick : Statement (.occupancyTick) :=
  fun _ _ h => nomatch h
theorem periodBoundary : Statement (.periodBoundary) :=
  fun _ _ h => nomatch h
theorem ringEnable (f : Func) (cq : Bool) (k : Fin 4) (v : Word) : Statement (.ringEnable f cq k v) :=
  fun _ _ h => nomatch h
theorem ringDisable (f : Func) (cq : Bool) (k : Fin 4) (v : Word) : Statement (.ringDisable f cq k v) :=
  fun _ _ h => nomatch h
theorem dbEnWrite (f : Func) (v : Word) : Statement (.dbEnWrite f v) :=
  fun _ _ h => nomatch h
theorem doorbellFetch (f : Func) : Statement (.doorbellFetch f) :=
  fun _ _ h => nomatch h
theorem doorbellFetchComplete (f : Func) (data : List Byte) : Statement (.doorbellFetchComplete f data) := by
  intro l h hl
  simp only [Instr.wellFormed, decide_eq_true_eq] at h
  cases hl
  omega
theorem wake (f : Func) : Statement (.wake f) :=
  fun _ _ h => nomatch h
theorem commandAccept (f : Func) (sq : Fin 4) (entry : List Byte) : Statement (.commandAccept f sq entry) := by
  intro l h hl
  simp only [Instr.wellFormed, decide_eq_true_eq] at h
  cases hl
  omega
theorem commandStart (id : Nat) : Statement (.commandStart id) :=
  fun _ _ h => nomatch h
theorem write (id : Nat) (mac : MacCheck) : Statement (.write id mac) :=
  fun _ _ h => nomatch h
theorem read (id : Nat) (mac : MacCheck) (bad : List Nat) : Statement (.read id mac bad) :=
  fun _ _ h => nomatch h
theorem discard (id : Nat) : Statement (.discard id) :=
  fun _ _ h => nomatch h
theorem flush (id : Nat) : Statement (.flush id) :=
  fun _ _ h => nomatch h
theorem commitSegment (id : Nat) : Statement (.commitSegment id) :=
  fun _ _ h => nomatch h
theorem archiveRead (id : Nat) : Statement (.archiveRead id) :=
  fun _ _ h => nomatch h
theorem verify (id : Nat) : Statement (.verify id) :=
  fun _ _ h => nomatch h
theorem identify (id : Nat) : Statement (.identify id) :=
  fun _ _ h => nomatch h
theorem getLog (id : Nat) : Statement (.getLog id) :=
  fun _ _ h => nomatch h
theorem getUsage (id : Nat) : Statement (.getUsage id) :=
  fun _ _ h => nomatch h
theorem stripeLoad (id : Nat) (discs : List (Option DiscExam)) (set : SetExam) (fails : Nat) : Statement (.stripeLoad id discs set fails) :=
  fun _ _ h => nomatch h
theorem stripeFinalize (id fails : Nat) : Statement (.stripeFinalize id fails) :=
  fun _ _ h => nomatch h
theorem stripeRebuild (id : Nat) (disc : Option DiscExam) (rebuilds : Nat) (reads : List (List (Option (List Byte)))) : Statement (.stripeRebuild id disc rebuilds reads) :=
  fun _ _ h => nomatch h
theorem storeSettings (id : Nat) : Statement (.storeSettings id) :=
  fun _ _ h => nomatch h
theorem storeSettingsCapture (id : Nat) : Statement (.storeSettingsCapture id) :=
  fun _ _ h => nomatch h
theorem fwStage (id : Nat) : Statement (.fwStage id) :=
  fun _ _ h => nomatch h
theorem fwActivate (id : Nat) : Statement (.fwActivate id) :=
  fun _ _ h => nomatch h
theorem completionWrite (id : Nat) : Statement (.completionWrite id) :=
  fun _ _ h => nomatch h
theorem coalescingTimeout (f : Func) (cq : Fin 4) : Statement (.coalescingTimeout f cq) :=
  fun _ _ h => nomatch h
theorem goTask (f : Func) (v : Word) : Statement (.goTask f v) :=
  fun _ _ h => nomatch h
theorem taskPortCompletion (id : Nat) : Statement (.taskPortCompletion id) :=
  fun _ _ h => nomatch h
theorem integrityHalt (c : HaltCause) (more : List HaltCause) : Statement (.integrityHalt c more) :=
  fun _ _ h => nomatch h
theorem haltRecordWritten : Statement (.haltRecordWritten) :=
  fun _ _ h => nomatch h
theorem haltedStateRequest (r : HaltReq) : Statement (.haltedStateRequest r) :=
  fun _ _ h => nomatch h
theorem selftestPeriod (bad : Option (Fin 5)) : Statement (.selftestPeriod bad) :=
  fun _ _ h => nomatch h
theorem drbgReseed : Statement (.drbgReseed) :=
  fun _ _ h => nomatch h
theorem entropyHealthFail : Statement (.entropyHealthFail) :=
  fun _ _ h => nomatch h
theorem jtagAccess (write : Bool) (addr : BitVec 40) (v : Word) : Statement (.jtagAccess write addr v) :=
  fun _ _ h => nomatch h
theorem quarClr (v : Word) : Statement (.quarClr v) :=
  fun _ _ h => nomatch h
theorem nandPageProgramDone (pua : Nat) : Statement (.nandPageProgramDone pua) :=
  fun _ _ h => nomatch h
theorem pageWaitTimeout (role : Fin 4) : Statement (.pageWaitTimeout role) :=
  fun _ _ h => nomatch h
theorem nandProgramFail (pua : Nat) : Statement (.nandProgramFail pua) :=
  fun _ _ h => nomatch h
theorem nandEraseDone (die : Fin 16) (block : BitVec 16) (ok : Bool) : Statement (.nandEraseDone die block ok) :=
  fun _ _ h => nomatch h
theorem nandReadDone (pua : Nat) (r : NandRead) : Statement (.nandReadDone pua r) :=
  fun _ _ h => nomatch h
theorem journalFlush : Statement (.journalFlush) :=
  fun _ _ h => nomatch h
theorem journalFlushComplete : Statement (.journalFlushComplete) :=
  fun _ _ h => nomatch h
theorem rootCheckpoint : Statement (.rootCheckpoint) :=
  fun _ _ h => nomatch h
theorem garbageCollection : Statement .garbageCollection :=
  fun _ _ h => nomatch h
theorem staticWearLevelling (die : Fin 16) : Statement (.staticWearLevelling die) :=
  fun _ _ h => nomatch h
theorem refreshRead (die : Fin 16) (block : BitVec 16) (page : BitVec 12) (r : NandRead) : Statement (.refreshRead die block page r) :=
  fun _ _ h => nomatch h
theorem dieBusyTimeout (die : Fin 16) : Statement (.dieBusyTimeout die) :=
  fun _ _ h => nomatch h
theorem dieRebuildDone (seen : List (Nat × NandRead)) : Statement (.dieRebuildDone seen) :=
  fun _ _ h => nomatch h
theorem writeSpaceWaitTimeout (id : Nat) : Statement (.writeSpaceWaitTimeout id) :=
  fun _ _ h => nomatch h
theorem zqCalibration : Statement (.zqCalibration) :=
  fun _ _ h => nomatch h
theorem hregEnable : Statement (.hregEnable) :=
  fun _ _ h => nomatch h
theorem hregDisable : Statement (.hregDisable) :=
  fun _ _ h => nomatch h
theorem hregDisableDone : Statement (.hregDisableDone) :=
  fun _ _ h => nomatch h
theorem pdPgoodFall : Statement (.pdPgoodFall) :=
  fun _ _ h => nomatch h
theorem pdPgoodRise : Statement (.pdPgoodRise) :=
  fun _ _ h => nomatch h
theorem mchEnableWrite (v : Word) : Statement (.mchEnableWrite v) :=
  fun _ _ h => nomatch h
theorem clean (mode : Fin 2) : Statement (.clean mode) :=
  fun _ _ h => nomatch h
theorem invalidate (mode : Fin 2) : Statement (.invalidate mode) :=
  fun _ _ h => nomatch h
theorem cleanAndInvalidate (mode : Fin 2) : Statement (.cleanAndInvalidate mode) :=
  fun _ _ h => nomatch h
theorem maintenanceOpDone (bad : List Nat) : Statement (.maintenanceOpDone bad) :=
  fun _ _ h => nomatch h
theorem parityWindowExpiry (way : Fin 8) : Statement (.parityWindowExpiry way) :=
  fun _ _ h => nomatch h
theorem wayEn (v : Word) : Statement (.wayEn v) :=
  fun _ _ h => nomatch h
theorem segmentAdmit : Statement (.segmentAdmit) :=
  fun _ _ h => nomatch h
theorem archiveBlockFormat (reads : List NandRead) : Statement (.archiveBlockFormat reads) :=
  fun _ _ h => nomatch h
theorem fillerTimeout : Statement (.fillerTimeout) :=
  fun _ _ h => nomatch h
theorem stripeRecordStart : Statement (.stripeRecordStart) :=
  fun _ _ h => nomatch h
theorem slotVerifyResult (d : Fin 4) (num : Nat) : Statement (.slotVerifyResult d num) :=
  fun _ _ h => nomatch h
theorem archiveDone (num : Nat) : Statement (.archiveDone num) :=
  fun _ _ h => nomatch h
theorem pendingEntriesWrite (fails : Nat) : Statement (.pendingEntriesWrite fails) :=
  fun _ _ h => nomatch h
theorem degradedDriveTimeout (d : Fin 4) : Statement (.degradedDriveTimeout d) :=
  fun _ _ h => nomatch h
theorem zoneWobbleMeasure (d : Fin 4) (layer : Fin 2) (zone : Fin 40) (periods : BitVec 24) : Statement (.zoneWobbleMeasure d layer zone periods) :=
  fun _ _ h => nomatch h
theorem channelClockLockChange (d : Fin 4) (errs : List (BitVec 8)) (kbps : BitVec 18) : Statement (.channelClockLockChange d errs kbps) :=
  fun _ _ h => nomatch h
theorem frameSync (d : Fin 4) (start : Option (BitVec 21)) (rf : List RfSample) : Statement (.frameSync d start rf) :=
  fun _ _ h => nomatch h
theorem blockDecode (d : Fin 4) : Statement (.blockDecode d) :=
  fun _ _ h => nomatch h
theorem readRetry (d : Fin 4) : Statement (.readRetry d) :=
  fun _ _ h => nomatch h
theorem opcRun (d : Fin 4) (layer : Fin 2) (fields : Option (List (Int × Int))) : Statement (.opcRun d layer fields) :=
  fun _ _ h => nomatch h
theorem opcGo (d : Fin 4) : Statement (.opcGo d) :=
  fun _ _ h => nomatch h
theorem servoSample (a : Axis) (adc : List Pickup) (since : Nat) (ns : BitVec 16) : Statement (.servoSample a adc since ns) :=
  fun _ _ h => nomatch h
theorem servoSampleDeadline (a : Axis) (ns : BitVec 16) : Statement (.servoSampleDeadline a ns) :=
  fun _ _ h => nomatch h
theorem limitGroupSample (d : Fin 4) (laser : Bool) (ma : BitVec 16) : Statement (.limitGroupSample d laser ma) :=
  fun _ _ h => nomatch h
theorem swap (a : Axis) (v : Word) : Statement (.swap a v) :=
  fun _ _ h => nomatch h
theorem openAxis (a : Axis) : Statement (.openAxis a) :=
  fun _ _ h => nomatch h
theorem closeAxis (a : Axis) : Statement (.closeAxis a) :=
  fun _ _ h => nomatch h
theorem acquire (d : Fin 4) (layer : Fin 2) : Statement (.acquire d layer) :=
  fun _ _ h => nomatch h
theorem seek (d : Fin 4) (now : Nat) : Statement (.seek d now) :=
  fun _ _ h => nomatch h
theorem layerJump (d : Fin 4) (layer : Fin 2) : Statement (.layerJump d layer) :=
  fun _ _ h => nomatch h
theorem releaseToHeron (a : Axis) : Statement (.releaseToHeron a) :=
  fun _ _ h => nomatch h
theorem layerJumpTimeout (d : Fin 4) : Statement (.layerJumpTimeout d) :=
  fun _ _ h => nomatch h
theorem seekConfirm (d : Fin 4) (now : Nat) : Statement (.seekConfirm d now) :=
  fun _ _ h => nomatch h
theorem driveStartSequence (d : Fin 4) : Statement (.driveStartSequence d) :=
  fun _ _ h => nomatch h
theorem rateMeterBin : Statement (.rateMeterBin) :=
  fun _ _ h => nomatch h
theorem sourceFaultHoldExpiry (a : Axis) : Statement (.sourceFaultHoldExpiry a) :=
  fun _ _ h => nomatch h
theorem spinStart (d : Fin 4) : Statement (.spinStart d) :=
  fun _ _ h => nomatch h
theorem spinStop (d : Fin 4) : Statement (.spinStop d) :=
  fun _ _ h => nomatch h
theorem coast (d : Fin 4) : Statement (.coast d) :=
  fun _ _ h => nomatch h
theorem clearFault (d : Fin 4) : Statement (.clearFault d) :=
  fun _ _ h => nomatch h
theorem rotorDetectDone (d : Fin 4) (currents : List Nat) : Statement (.rotorDetectDone d currents) :=
  fun _ _ h => nomatch h
theorem alignmentDone (d : Fin 4) : Statement (.alignmentDone d) :=
  fun _ _ h => nomatch h
theorem forcedCommutation (d : Fin 4) : Statement (.forcedCommutation d) :=
  fun _ _ h => nomatch h
theorem zeroCrossing (d : Fin 4) (dt : Nat) (rising : Bool) (sample : Int) : Statement (.zeroCrossing d dt rising sample) :=
  fun _ _ h => nomatch h
theorem crossingWindowMiss (d : Fin 4) : Statement (.crossingWindowMiss d) :=
  fun _ _ h => nomatch h
theorem rotorReacquired (d : Fin 4) (step : Fin 6) (intervals : List Nat) : Statement (.rotorReacquired d step intervals) :=
  fun _ _ h => nomatch h
theorem reacquisitionTimeout (d : Fin 4) : Statement (.reacquisitionTimeout d) :=
  fun _ _ h => nomatch h
theorem lockedRotorTimeout (d : Fin 4) : Statement (.lockedRotorTimeout d) :=
  fun _ _ h => nomatch h
theorem lockedRotorRetry (d : Fin 4) : Statement (.lockedRotorRetry d) :=
  fun _ _ h => nomatch h
theorem spindleOvercurrent (d : Fin 4) : Statement (.spindleOvercurrent d) :=
  fun _ _ h => nomatch h
theorem brakeProbe (d : Fin 4) (uv : Nat) : Statement (.brakeProbe d uv) :=
  fun _ _ h => nomatch h
theorem brakeTimeout (d : Fin 4) : Statement (.brakeTimeout d) :=
  fun _ _ h => nomatch h
theorem spindleIdleTimeout (d : Fin 4) : Statement (.spindleIdleTimeout d) :=
  fun _ _ h => nomatch h
theorem travel (d : Fin 4) : Statement (.travel d) :=
  fun _ _ h => nomatch h
theorem sledSeek (d : Fin 4) : Statement (.sledSeek d) :=
  fun _ _ h => nomatch h
theorem home (d : Fin 4) : Statement (.home d) :=
  fun _ _ h => nomatch h
theorem park (d : Fin 4) : Statement (.park d) :=
  fun _ _ h => nomatch h
theorem sledStop (d : Fin 4) : Statement (.sledStop d) :=
  fun _ _ h => nomatch h
theorem sledRelease (d : Fin 4) : Statement (.sledRelease d) :=
  fun _ _ h => nomatch h
theorem sledClear (d : Fin 4) : Statement (.sledClear d) :=
  fun _ _ h => nomatch h
theorem sledPlanTick (d : Fin 4) : Statement (.sledPlanTick d) :=
  fun _ _ h => nomatch h
theorem sledTickLate (d : Fin 4) : Statement (.sledTickLate d) :=
  fun _ _ h => nomatch h
theorem sledArrivalReport (d : Fin 4) : Statement (.sledArrivalReport d) :=
  fun _ _ h => nomatch h
theorem sledRereference (d : Fin 4) (k : Fin 567840) : Statement (.sledRereference d k) :=
  fun _ _ h => nomatch h
theorem boostDecay (d : Fin 4) : Statement (.boostDecay d) :=
  fun _ _ h => nomatch h
theorem sledOvercurrent (d : Fin 4) (phaseB : Bool) : Statement (.sledOvercurrent d phaseB) :=
  fun _ _ h => nomatch h
theorem openCoil (d : Fin 4) (phaseB : Bool) : Statement (.openCoil d phaseB) :=
  fun _ _ h => nomatch h
theorem calItemGo (kind : Fin 16) (d : Fin 4) : Statement (.calItemGo kind d) :=
  fun _ _ h => nomatch h
theorem calStore : Statement (.calStore) :=
  fun _ _ h => nomatch h
theorem calItemRun (m : Option CalMeas) : Statement (.calItemRun m) :=
  fun _ _ h => nomatch h
theorem calDeferTimeout : Statement (.calDeferTimeout) :=
  fun _ _ h => nomatch h
theorem calPeriodicStore : Statement (.calPeriodicStore) :=
  fun _ _ h => nomatch h
theorem converterCheckPeriod : Statement (.converterCheckPeriod) :=
  fun _ _ h => nomatch h
theorem vcoreLow : Statement (.vcoreLow) :=
  fun _ _ h => nomatch h
theorem speedIndexMeasure (idx : List (BitVec 16)) (mv : BitVec 16) : Statement (.speedIndexMeasure idx mv) :=
  fun _ _ h => nomatch h
theorem fabricSlowAlarmClear : Statement (.fabricSlowAlarmClear) :=
  fun _ _ h => nomatch h
theorem tputWindow (counts : List Nat) : Statement (.tputWindow counts) :=
  fun _ _ h => nomatch h
theorem tputClr (v : Word) : Statement (.tputClr v) :=
  fun _ _ h => nomatch h
theorem crystalQualified (xt32k good : Bool) : Statement (.crystalQualified xt32k good) :=
  fun _ _ h => nomatch h
theorem xt25Requalify (good : Bool) : Statement (.xt25Requalify good) :=
  fun _ _ h => nomatch h
theorem clockSourceFault (k : Fin 3) : Statement (.clockSourceFault k) :=
  fun _ _ h => nomatch h
theorem supervisorGate (xp xk pk : Int) : Statement (.supervisorGate xp xk pk) :=
  fun _ _ h => nomatch h
theorem ref25Switchover : Statement (.ref25Switchover) :=
  fun _ _ h => nomatch h
theorem sourceReturn : Statement (.sourceReturn) :=
  fun _ _ h => nomatch h
theorem selReq (v : Word) : Statement (.selReq v) :=
  fun _ _ h => nomatch h
theorem sleepModeEntry : Statement (.sleepModeEntry) :=
  fun _ _ h => nomatch h
theorem powerModeWake : Statement (.powerModeWake) :=
  fun _ _ h => nomatch h
theorem fmcGo (v : Word) : Statement (.fmcGo v) :=
  fun _ _ h => nomatch h
theorem fmcDone (count : Word) : Statement (.fmcDone count) :=
  fun _ _ h => nomatch h
theorem pseClassChange (code : BitVec 2) : Statement (.pseClassChange code) :=
  fun _ _ h => nomatch h
theorem budgetSample (code : BitVec 12) : Statement (.budgetSample code) :=
  fun _ _ h => nomatch h
theorem powerOnReset (vsel : BitVec 2) : Statement (.powerOnReset vsel) :=
  fun _ _ h => nomatch h
theorem brownOut (rail : Fin 7) : Statement (.brownOut rail) :=
  fun _ _ h => nomatch h
theorem perstNAssert : Statement (.perstNAssert) :=
  fun _ _ h => nomatch h
theorem perstNDeassert : Statement (.perstNDeassert) :=
  fun _ _ h => nomatch h
theorem startupSequence (env : StartEnv) : Statement (.startupSequence env) :=
  fun _ _ h => nomatch h
theorem sweepComplete : Statement (.sweepComplete) :=
  fun _ _ h => nomatch h
theorem firstReadyState : Statement (.firstReadyState) :=
  fun _ _ h => nomatch h
theorem startupSetReload (discs : List (Option DiscExam)) (set : SetExam) : Statement (.startupSetReload discs set) :=
  fun _ _ h => nomatch h
theorem accClr : Statement (.accClr) :=
  fun _ _ h => nomatch h
theorem rstCntClear : Statement (.rstCntClear) :=
  fun _ _ h => nomatch h
theorem sensorSample (r : SensorRead) : Statement (.sensorSample r) :=
  fun _ _ h => nomatch h
theorem hotClear : Statement (.hotClear) :=
  fun _ _ h => nomatch h
theorem thermWrite (v : Word) : Statement (.thermWrite v) :=
  fun _ _ h => nomatch h
theorem logFoldFlush : Statement (.logFoldFlush) :=
  fun _ _ h => nomatch h
theorem logMirrorWrite : Statement (.logMirrorWrite) :=
  fun _ _ h => nomatch h
theorem logNvmWrite : Statement (.logNvmWrite) :=
  fun _ _ h => nomatch h
theorem timSecLoRead : Statement (.timSecLoRead) :=
  fun _ _ h => nomatch h
theorem setClock : Statement (.setClock) :=
  fun _ _ h => nomatch h
theorem cancel : Statement (.cancel) :=
  fun _ _ h => nomatch h
theorem clockCommit : Statement (.clockCommit) :=
  fun _ _ h => nomatch h
theorem lastAliveWrite : Statement (.lastAliveWrite) :=
  fun _ _ h => nomatch h
theorem monoFloorWrite : Statement (.monoFloorWrite) :=
  fun _ _ h => nomatch h
theorem monI : Statement (.monI) :=
  fun _ _ h => nomatch h
theorem monRd (addr n : BitVec 64) : Statement (.monRd addr n) :=
  fun _ _ h => nomatch h
theorem monWr (addr value : BitVec 64) (good : Bool) : Statement (.monWr addr value good) :=
  fun _ _ h => nomatch h
theorem baud (rate : BitVec 64) : Statement (.baud rate) :=
  fun _ _ h => nomatch h
theorem lock : Statement (.lock) :=
  fun _ _ h => nomatch h
theorem unlock (code : BitVec 64) : Statement (.unlock code) :=
  fun _ _ h => nomatch h
theorem monitorGo : Statement (.monitorGo) :=
  fun _ _ h => nomatch h
theorem monitorIdleTimeout : Statement (.monitorIdleTimeout) :=
  fun _ _ h => nomatch h
theorem inputQualified (n : Fin 13) (v : Bool) : Statement (.inputQualified n v) :=
  fun _ _ h => nomatch h
theorem chatterClear (n : Fin 13) : Statement (.chatterClear n) :=
  fun _ _ h => nomatch h
theorem inputStuck (n : Fin 13) : Statement (.inputStuck n) :=
  fun _ _ h => nomatch h
theorem stuckClear (n : Fin 13) : Statement (.stuckClear n) :=
  fun _ _ h => nomatch h
theorem analogueOutOfRange (n : Fin 10) (code : BitVec 12) : Statement (.analogueOutOfRange n code) :=
  fun _ _ h => nomatch h
theorem analogueReturn (n : Fin 10) (code : BitVec 12) : Statement (.analogueReturn n code) :=
  fun _ _ h => nomatch h
theorem entropyHealthRecovery : Statement (.entropyHealthRecovery) :=
  fun _ _ h => nomatch h
theorem carrierPeriod (d : Fin 4) (sled : Bool) (ma mb : BitVec 16) : Statement (.carrierPeriod d sled ma mb) :=
  fun _ _ h => nomatch h
theorem commutation (d : Fin 4) : Statement (.commutation d) :=
  fun _ _ h => nomatch h
theorem sweepWatermark (n : BitVec 27) : Statement (.sweepWatermark n) :=
  fun _ _ h => nomatch h
theorem unknownCommand (syn : Bool) : Statement (.unknownCommand syn) :=
  fun _ _ h => nomatch h

end Sys2Proof.Laws.Carries
end

