-- ==== Sys2Proof/Machine/NandPage.lean ====
section
/-!
DEFINITION. A NAND page as it lies in a die (spec/06, R212, R215, R216): the payload of Tables 06-3 to 06-5, the parity page of a flash
stripe, and the sixteen BCH codewords that protect a page. Log entry 69 says what of it the commands carry.
-/

namespace Sys2Proof.Machine

/-! ### The payload (R215, R216) -/

/-- A tag slot: the AAD, the GCM tag, the generation, the place within the group, and the relocated mark (Table 06-5). -/
def tagSlot (u : UnitRec) : List Byte :=
  padTo 64 (padTo 32 (unitAad u) ++ leBytes 16 (unitTag u) ++ leBytes 2 (u.gen % 2 ^ 12) ++ leBytes 2 u.idx ++ leBytes 2 u.cnt ++
    leBytes 2 (b2n u.moved) ++ leBytes 4 u.group)

/-- A slot of a page and its tag slot; one that is not valid holds zero bytes. -/
def slotBytes (u : Option UnitRec) : List Byte := padTo 4096 ((u.map unitCipher).getD [])
def tagBytes (u : Option UnitRec) : List Byte := padTo 64 ((u.map tagSlot).getD [])

/-- A page header (Table 06-4): page kind, valid mask, position of the parity die, band number and the dies of the stripe. -/
def pageHeader (kind valid parity band dies : Nat) : List Byte :=
  padTo 16 (leBytes 1 1 ++ leBytes 1 kind ++ leBytes 1 (valid % 16) ++ leBytes 1 parity ++ leBytes 4 band ++ leBytes 2 dies)

/-- The page kind of a data page of a role's band (Table 06-4). -/
def Band.Role.pageKind : Band.Role → Nat
  | .host => 0
  | .system => 1
  | .gc => 2
  | .cold => 5

/-- The unit in a slot, where one is stored. -/
def State.slotUnit (s : State) (pua : Nat) : Option UnitRec :=
  if s.unitAt pua = unitDef pua then none else some (s.unitAt pua)

/-- The mask of the valid slots of a page, and of the dies of the stripe of page index `page` of a band. -/
def State.validMask (s : State) (pua : Nat) : Nat := maskOf 4 (fun k => (s.slotUnit (pua + k)).isSome)
def Band.dieMask (b : Band) (page : Nat) : Nat := maskOf 16 (fun d => (b.diesAt page).any (fun e => decide (e.1 = d)))

/-- Four slots from a PUA on, and their tag slots. -/
def State.slots (s : State) (pua : Nat) : List Byte := (List.range 4).foldl (fun a k => a ++ slotBytes (s.slotUnit (pua + k))) []
def State.tags (s : State) (pua : Nat) : List Byte := (List.range 4).foldl (fun a k => a ++ tagBytes (s.slotUnit (pua + k))) []

/-- The payload of a data page of a band (Table 06-3). -/
def State.dataPayload (s : State) (b : Band) (pua : Nat) : List Byte :=
  let page := puaPage s.fss.ppb pua
  s.slots pua ++ pageHeader b.role.pageKind (s.validMask pua) (b.parityOf page) b.num (b.dieMask page) ++ s.tags pua

/-- The first PUAs of the data pages of the stripe of page index `page`, in die order. -/
def State.stripePages (s : State) (b : Band) (page : Nat) : List Nat :=
  (((b.diesAt page).zipIdx).filter (fun e => e.2 ≠ b.parityOf page)).map (fun e => mkPua s.fss.ppb e.1.1 e.1.2 page 0)

/-- The exclusive-or of byte strings of `n` bytes. -/
def xorAll (n : Nat) (l : List (List Byte)) : List Byte := l.foldl (fun a c => xorBytes a (padTo n c)) (List.replicate n 0)

/-- The valid mask of a parity page: a slot is valid where one of the stripe is. DEDUCED from R216, log entry 69. -/
def State.parityMask (s : State) (l : List Nat) : Nat := maskOf 4 (fun k => l.any (fun p => (s.validMask p).testBit k))

/-- The payload of the parity page of a stripe: slots and tag slots are exclusive-ors, and the header is its own (R216). -/
def State.parityPayload (s : State) (b : Band) (page : Nat) : List Byte :=
  let l := s.stripePages b page
  xorAll 16384 (l.map (fun p => s.slots p)) ++ pageHeader 3 (s.parityMask l) (b.parityOf page) b.num (b.dieMask page) ++
    xorAll 256 (l.map (fun p => s.tags p))

/-- A page rebuilt from the others of its stripe: `others` are the payloads of the pages that could be read, the parity page among them, and
the header comes from the band record (R216). -/
def rebuiltPayload (header : List Byte) (others : List (List Byte)) : List Byte :=
  xorAll 16384 (others.map (fun p => slice p 0 16384)) ++ padTo 16 header ++ xorAll 256 (others.map (fun p => slice p 16400 256))

/-! ### The BCH code over GF(2^14) (R212): a polynomial over GF(2) is the number whose bit `k` is the coefficient of `x^k` -/

/-- An element of GF(2^14) times x, modulo 1 + x + x^6 + x^10 + x^14. -/
def bchDouble (a : Nat) : Nat := if a < 8192 then 2 * a else (2 * a) ^^^ 0x4443

/-- The product of two elements, over `n` bits of the second. -/
def bchMulN : Nat → Nat → Nat → Nat
  | 0, _, _ => 0
  | n + 1, a, b => (if b % 2 = 1 then a else 0) ^^^ bchMulN n (bchDouble a) (b / 2)

def bchMul (a b : Nat) : Nat := bchMulN 14 a b

/-- The powers of α by doubling. -/
def bchPow : Nat → Nat
  | 0 => 1
  | k + 1 => bchDouble (bchPow k)

/-- A polynomial over GF(2^14), lowest coefficient first, times x + r. -/
def bchTimesRoot (r : Nat) (p : List Nat) : List Nat :=
  List.zipWith (fun a c => a ^^^ c) (0 :: p) (p.map (fun c => bchMul r c) ++ [0])

/-- The product of x + r over the conjugates of r: its square, and so on, `n` of them. -/
def bchConjugates : Nat → Nat → List Nat → List Nat
  | 0, _, p => p
  | n + 1, r, p => bchConjugates n (bchMul r r) (bchTimesRoot r p)

/-- The minimal polynomial of α^k, for a `k` whose conjugates are fourteen. -/
def bchMinimal (k : Nat) : Nat := (bchConjugates 14 (bchPow k) [1]).foldr (fun c a => 2 * a + c) 0

/-- The product of two polynomials over GF(2), over `n` coefficients of the second. -/
def bchPolyMul : Nat → Nat → Nat → Nat
  | 0, _, _ => 0
  | n + 1, a, b => (if b % 2 = 1 then a else 0) ^^^ bchPolyMul n (2 * a) (b / 2)

/-- The remainder of a polynomial by `g` of degree `d`, over the `n` coefficients above the degree. -/
def bchPolyMod (g d : Nat) : Nat → Nat → Nat
  | 0, a => a
  | n + 1, a => bchPolyMod g d n (if a.testBit (d + n) then a ^^^ (g <<< n) else a)

/-- The generator: the least common multiple of the minimal polynomials of α to α^120. Even powers are conjugates of odd ones, so it is the
product over the sixty odd powers. -/
def bchGenerator : Nat := (List.range 60).foldl (fun g k => bchPolyMul 15 g (bchMinimal (2 * k + 1))) 1

/-- The number a byte string spells, first byte and high bit first: the highest-degree coefficient comes first. DEDUCED for the data bits from
what R212 says of the parity, log entry 69. -/
def bchPolyOf (l : List Byte) : Nat := l.foldl (fun a c => 256 * a + c.toNat) 0

/-- The 105 parity bytes of a piece of 1041 data bytes. -/
def bchParity (piece : List Byte) : List Byte := beBytes 105 (bchPolyMod bchGenerator 840 8328 (bchPolyOf (padTo 1041 piece) <<< 840))

/-- A codeword: piece and parity, 1146 bytes. -/
def bchWord (piece : List Byte) : List Byte := padTo 1041 piece ++ bchParity piece

/-- The page as it is written: sixteen codewords, and then bytes 0xFF up to the size of the die's page. -/
def pageImage (size : Nat) (payload : List Byte) : List Byte :=
  let w := (List.range 16).foldl (fun a k => a ++ bchWord (slice payload (1041 * k) 1041)) []
  w ++ List.replicate (size - w.length) 0xFF

/-- The bits in which two byte strings differ. -/
def bitsApart (l m : List Byte) : Nat := (List.zipWith (fun a c => popN 8 ((a ^^^ c : Byte).toNat)) l m).foldl (fun a c => a + c) 0

/-- A codeword that differs from all-0xFF in at most 16 bits reads as erased. -/
def wordErased (w : List Byte) : Bool := decide (bitsApart w (List.replicate w.length 0xFF) ≤ 16)

/-- A codeword is corrected where it differs from the one that was written in at most 60 bits. -/
def wordCorrected (sent got : List Byte) : Bool := decide (bitsApart sent got ≤ 60)

end Sys2Proof.Machine
end

