-- ==== Sys2Proof/Machine/Pins.lean ====
section
/-!
DEFINITION. The balls (spec/18, R545 to R556; spec/15, R477, R488; spec/19, R573): what each ball carries, its pad type, the step of
Table 15-3 from which an output is driven, its idle level and its board resistor, the bias of an input, and the level that each output has in a state.
-/

namespace Sys2Proof.Machine

/-- The signals of the package. A `Bool` is the true side of a pair, the second NAND channel or LPDDR channel, or the high gate. -/
inductive Signal where
  | ddrDq (n : Fin 32)
  | ddrDqs (byte : Fin 4) (t : Bool)
  | ddrDmi (byte : Fin 4)
  | ddrCa (b : Bool) (n : Fin 6)
  | ddrCk (b t : Bool)
  | ddrCke (b : Bool)
  | ddrCs (b : Bool)
  | ddrResetN
  | ddrZq
  | peTx (lane : Fin 4) (p : Bool)
  | peRx (lane : Fin 4) (p : Bool)
  | peRefclk (p : Bool)
  | perstN
  | clkreqN
  | xt25In
  | xt25Out
  | xt32kIn
  | xt32kOut
  | ckout
  | jtagTck
  | jtagTms
  | jtagTdi
  | jtagTdo
  | jtagTrstN
  | dbgTx
  | dbgRx
  | pseClass (n : Fin 2)
  | pdPgood
  | pinSense
  | rateIn
  | setpAin
  | nfVsel (c : Bool)
  | nfDq (c : Bool) (n : Fin 8)
  | nfDqs (c t : Bool)
  | nfRe (c t : Bool)
  | nfWeN (c : Bool)
  | nfAle (c : Bool)
  | nfCle (c : Bool)
  | nfWpN (c : Bool)
  | nfCeN (c : Bool) (n : Fin 4)
  | nfRbN (c : Bool) (n : Fin 4)
  | nfVrefq (c : Bool)
  | nfZq (c : Bool)
  | rf (d : Fin 4) (p : Bool)
  | sv (d k : Fin 4)
  | focDac (d : Fin 4)
  | trkDac (d : Fin 4)
  | acten (d : Fin 4)
  | thm (d : Fin 4)
  | ldi (d : Fin 4)
  | lden (d : Fin 4)
  | wsp (d k : Fin 4)
  | lsck (d : Fin 4)
  | lsda (d : Fin 4)
  | lcsN (d : Fin 4)
  | tray (d : Fin 4)
  | door (d : Fin 4)
  | isns (d : Fin 4)
  | spg (d : Fin 4) (phase : Fin 3) (high : Bool)
  | bemf (d : Fin 4) (phase : Fin 3)
  | stis (d : Fin 4) (b : Bool)
  | st (d : Fin 4) (b second : Bool)
  | sten (d : Fin 4)
  deriving DecidableEq, Repr

/-- The supply rails of the package. -/
inductive Rail where
  | ddq
  | ddqx
  | pcie
  | io33
  | io18
  | afe
  | core
  deriving DecidableEq, Repr

/-- What a ball carries. -/
inductive Ball where
  | signal (x : Signal)
  | rail (r : Rail)
  | vss
  | nc
  deriving DecidableEq, Repr

/-! ### The ball map (R545 to R547) -/

/-- One byte of the LPDDR data bus, and one command channel (Table 18-2, region 1). -/
def ddrByte (b : Fin 4) : List Signal :=
  (List.range 8).map (fun n => Signal.ddrDq ⟨(8 * b.val + n) % 32, Nat.mod_lt _ (by decide)⟩) ++ [.ddrDqs b true, .ddrDqs b false, .ddrDmi b]
def ddrChannel (b : Bool) : List Signal :=
  [.ddrCa b 0, .ddrCa b 1, .ddrCa b 2, .ddrCa b 3, .ddrCa b 4, .ddrCa b 5, .ddrCk b true, .ddrCk b false, .ddrCke b, .ddrCs b]

/-- The signals of regions 1 and 2 and of one NAND channel in their order (Table 18-2). -/
def region1 : List Signal :=
  ddrByte 0 ++ ddrByte 1 ++ ddrChannel false ++ ddrByte 2 ++ ddrByte 3 ++ ddrChannel true ++ [.ddrResetN, .ddrZq]
def region2 : List Signal :=
  ([0, 1, 2, 3].map (fun (l : Fin 4) => [Signal.peTx l true, Signal.peTx l false])).flatten ++
  ([0, 1, 2, 3].map (fun (l : Fin 4) => [Signal.peRx l true, Signal.peRx l false])).flatten ++
  [.peRefclk true, .peRefclk false, .perstN, .clkreqN, .xt25In, .xt25Out, .xt32kIn, .xt32kOut, .ckout, .jtagTck, .jtagTms, .jtagTdi,
   .jtagTdo, .jtagTrstN, .dbgTx, .dbgRx, .pseClass 0, .pseClass 1, .pdPgood, .pinSense, .rateIn, .setpAin, .nfVsel false, .nfVsel true]
def region3 (c : Bool) : List Signal :=
  [0, 1, 2, 3, 4, 5, 6, 7].map (Signal.nfDq c) ++ [.nfDqs c true, .nfDqs c false, .nfRe c true, .nfRe c false, .nfWeN c, .nfAle c, .nfCle c, .nfWpN c] ++
  [0, 1, 2, 3].map (Signal.nfCeN c) ++ [0, 1, 2, 3].map (Signal.nfRbN c) ++ [.nfVrefq c, .nfZq c]

/-- What a supply column of regions 1 to 3 carries, in row index `r` (Table 18-1); none for a signal position. -/
def supplyAt (r c : Nat) : Option Ball :=
  if r ≤ 6 then
    (if c ≤ 16 then
      (if c = 4 then some (.rail .ddq) else if c = 8 ∨ c = 16 then some .vss
       else if c = 12 then some (.rail (if r % 2 = 1 then .ddqx else .ddq)) else none)
     else if c = 20 then some (.rail .pcie) else if c = 24 then some .vss
     else if c = 28 then some (.rail (if r % 2 = 1 then .io33 else .io18)) else none)
  else if c = 4 ∨ c = 12 ∨ c = 18 ∨ c = 26 then some (.rail .io18)
  else if c = 8 ∨ c = 22 then some .vss
  else none

/-- A position of a region: the signal of that number, or no connection. -/
def fillAt (l : List Signal) (n : Nat) : Ball :=
  match l[n]? with
  | some x => .signal x
  | none => .nc

/-- The signal positions of row `r` before column `c`, from column `c0` on. -/
def positionsBefore (r c0 : Nat) (c : Nat) : Nat :=
  ((List.range (c - c0)).filter (fun k => (supplyAt r (c0 + k)).isNone)).length

/-- The layout of a drive's block, row by row from AC (Table 18-3). -/
def driveBlock (d : Fin 4) : List (List Ball) :=
  [[.signal (.rf d true), .signal (.rf d false), .vss, .signal (.sv d 0), .signal (.sv d 1), .signal (.sv d 2), .signal (.sv d 3)],
   [.rail .afe, .vss, .signal (.focDac d), .signal (.trkDac d), .signal (.acten d), .signal (.thm d), .signal (.ldi d)],
   [.signal (.lden d), .signal (.wsp d 0), .signal (.wsp d 1), .signal (.wsp d 2), .signal (.wsp d 3), .vss, .rail .io18],
   [.signal (.lsck d), .signal (.lsda d), .signal (.lcsN d), .signal (.tray d), .signal (.door d), .signal (.isns d), .vss],
   [.signal (.spg d 0 true), .signal (.spg d 0 false), .signal (.spg d 1 true), .signal (.spg d 1 false), .signal (.spg d 2 true),
    .signal (.spg d 2 false), .rail .io33],
   [.signal (.bemf d 0), .signal (.bemf d 1), .signal (.bemf d 2), .vss, .signal (.stis d false), .signal (.stis d true), .rail .afe],
   [.signal (.st d false false), .signal (.st d false true), .signal (.st d true false), .signal (.st d true true), .signal (.sten d), .vss,
    .rail .io33]]

/-- The ball in row index `r` (1 for A, 28 for AJ) and column `c`, from 1 to 28 (R545 to R547). -/
def ballAt (r c : Nat) : Ball :=
  if r = 0 ∨ 28 < r ∨ c = 0 ∨ 28 < c then .nc
  else if r ≤ 6 then
    (match supplyAt r c with
     | some b => b
     | none => if c ≤ 16 then fillAt region1 (12 * (r - 1) + positionsBefore r 1 c) else fillAt region2 (9 * (r - 1) + positionsBefore r 17 c))
  else if r ≤ 9 then
    (match supplyAt r c with
     | some b => b
     | none => if c ≤ 14 then fillAt (region3 false) (11 * (r - 7) + positionsBefore r 1 c)
               else fillAt (region3 true) (11 * (r - 7) + positionsBefore r 15 c))
  else if r ≤ 21 then
    (if c = 1 ∨ c = 28 then .rail .afe else if c = 2 ∨ c = 27 then .vss else if (r + c) % 2 = 0 then .rail .core else .vss)
  else
    (let d : Fin 4 := ⟨(c - 1) / 7 % 4, Nat.mod_lt _ (by decide)⟩
     nth .nc (nth [] (driveBlock d) (r - 22)) ((c - 1) % 7))

/-! ### Pads and board resistors (R549, R554) -/

/-- The pad types of Table 18-4. -/
inductive Pad where
  | pcie
  | lpddr
  | onfi
  | fastOut
  | out33
  | in33
  | openDrain
  | analogIn
  | analogOut
  | crystal
  | calResistor
  deriving DecidableEq, Repr

/-- The pad of a signal (Table 18-4). -/
def Signal.pad : Signal → Pad
  | .ddrZq => .calResistor
  | .nfZq _ => .calResistor
  | .ddrDq _ | .ddrDqs _ _ | .ddrDmi _ | .ddrCa _ _ | .ddrCk _ _ | .ddrCke _ | .ddrCs _ | .ddrResetN => .lpddr
  | .peTx _ _ | .peRx _ _ | .peRefclk _ => .pcie
  | .clkreqN => .openDrain
  | .xt25In | .xt25Out | .xt32kIn | .xt32kOut => .crystal
  | .perstN | .jtagTck | .jtagTms | .jtagTdi | .jtagTrstN | .dbgRx | .pseClass _ | .pdPgood | .rateIn | .nfVsel _ | .tray _ | .door _ => .in33
  | .ckout | .jtagTdo | .dbgTx | .acten _ | .lsck _ | .lsda _ | .lcsN _ | .spg _ _ _ | .st _ _ _ | .sten _ => .out33
  | .lden _ | .wsp _ _ => .fastOut
  | .focDac _ | .trkDac _ => .analogOut
  | .pinSense | .setpAin | .rf _ _ | .sv _ _ | .thm _ | .ldi _ | .isns _ | .bemf _ _ | .stis _ _ => .analogIn
  | .nfDq _ _ | .nfDqs _ _ | .nfRe _ _ | .nfWeN _ | .nfAle _ | .nfCle _ | .nfWpN _ | .nfCeN _ _ | .nfRbN _ _ | .nfVrefq _ => .onfi

/-- The resistor that sets an output's resting level: up or down, and whether it must be fitted (Table 18-5); for the low-side gates the
board designer chooses (R555). -/
inductive Pull where
  | up (must : Bool)
  | down (must : Bool)
  | choice
  | none
  deriving DecidableEq, Repr

def Signal.pull : Signal → Pull
  | .lden _ | .wsp _ _ | .acten _ | .spg _ _ true | .st _ _ _ | .sten _ | .ddrResetN | .ddrCke _ => .down true
  | .lcsN _ | .nfCeN _ _ | .nfWpN _ => .up true
  | .lsck _ | .lsda _ | .nfRe _ false | .nfAle _ | .nfCle _ | .ckout => .down false
  | .nfWeN _ | .nfRe _ true | .dbgTx | .jtagTdo => .up false
  | .spg _ _ false => .choice
  | _ => .none

/-- The bias of an input on the board, which also says what a broken line reads (Table 18-6): down as low, up as high. -/
def Signal.bias : Signal → Pull
  | .tray _ | .door _ | .pdPgood | .pseClass _ | .perstN | .jtagTrstN => .down true
  | .dbgRx | .nfRbN _ _ => .up true
  | .rateIn | .setpAin | .jtagTck => .down false
  | .jtagTms | .jtagTdi => .up false
  | _ => .none

/-! ### Levels of the outputs -/

/-- The level of an output: released, low, high, high for a part of each carrier period in 1/256, a DAC code, or whatever its interface
drives at the moment. -/
inductive PinLevel where
  | released
  | low
  | high
  | pwm (duty : Nat)
  | code (v : Int)
  | live
  deriving DecidableEq, Repr

/-- The outputs, bidirectional signals of the two memory interfaces among them. -/
def Signal.isOutput (x : Signal) : Bool :=
  match x.pad with
  | .in33 | .analogIn | .calResistor => false
  | _ => (match x with
    | .peRx _ _ | .peRefclk _ | .xt25In | .xt32kIn | .nfRbN _ _ | .nfVrefq _ => false
    | _ => true)

/-- The step of Table 15-3 from which an output is driven (R553); none for those that no step drives. DEDUCED, log entry 41. -/
def Signal.drivenFrom (x : Signal) : Option Nat :=
  match x with
  | .xt25Out | .xt32kOut | .clkreqN => some 1
  | .dbgTx => some 5
  | .peTx _ _ | .jtagTdo => none
  | _ => (match x.pad with
    | .lpddr => some 8
    | .onfi => some 9
    | _ => some 6)

/-- Step `k` of Table 15-3 has been reached: the step that follows the last one completed has begun (DEDUCED, log entry 41). -/
def State.stepBegun (s : State) (k : Nat) : Bool := !s.hlt.porHeld && decide (k ≤ s.boot.step + 1)

/-- A released output floats: in power-on reset, after a reset before the output's step, while PERST_N is low too, and in the halt but for
the balls of R488 (R477, R552, R553).
DEDUCED, log entry 41. -/
def State.released (s : State) (x : Signal) : Bool :=
  match x with
  | .jtagTdo => s.hlt.porHeld
  | .peTx _ _ => s.hlt.porHeld || (s.hlt.halt.isNone && !s.link.up)
  | _ =>
    s.hlt.porHeld || (match x with
      | .xt25Out | .xt32kOut => false
      | _ => s.hlt.halt.isSome) ||
    (match x.drivenFrom with
     | some k => !s.stepBegun k
     | none => false)

/-- The code of a focus or tracking DAC: the applied output rounded (R347). -/
def dacCode (out : Int) : Int := clampI (-32768) 32767 (rnd out 13)

/-- The code at the DAC of a FOC or TRK axis: REST in OFF and FAIL, else the output last applied (Table 10-2). -/
def State.dacOf (s : State) (a : Nat) : Int :=
  match (s.axis a).st with
  | .off | .fail => dacCode (Cf.SRV_REST_rest s a)
  | _ => dacCode (s.axis a).out

/-- The voltage of a DAC code in nV: 0.9 V + 0.8 V × code / 32,768 (R573), truncated. DESIGN CHOICE, log entry 42. -/
def dacNanovolt (code : Int) : Int := 900000000 + tdiv (800000000 * code) 32768

/-- The phases of Table 11-2: the high gate and the low gate of a step (A 0, B 1, C 2). -/
def stepHigh (k : Nat) : Nat := k % 6 / 2
def stepLow (k : Nat) : Nat := nth 0 [1, 2, 2, 0, 0, 1] (k % 6)

/-- The gates of a spindle bridge by state (R372, R377, R380, R383, R389): all low but for the step's two, the low ones in BRAKE and under
a negative demand; DETECT applies its vectors by itself. -/
def State.gateLevel (s : State) (d phase : Nat) (high : Bool) : PinLevel :=
  let p := (s.drive d).spin
  let q := s.torque d
  match p.st with
  | .brake => if high then .low else .high
  | .detect => .live
  | .start | .run =>
    if q = 0 then .low
    else if q < 0 then (if high then .low else .pwm p.duty)
    else if high then (if phase = stepHigh p.step then .pwm p.duty else .low)
    else if phase = stepLow p.step then .high else .low
  | _ => .low

/-- The inputs of a stepper bridge: the one that the sign of the coil target selects is switched, the other low (R400). -/
def State.coilLevel (s : State) (d : Nat) (b second : Bool) : PinLevel :=
  let l := (s.drive d).sled
  let i := if b then l.iB else l.iA
  let duty := if b then l.dutyB else l.dutyA
  if l.st = .off ∨ l.st = .fault ∨ i = 0 then .low
  else if decide (i < 0) = second then .pwm duty else .low

/-- The level of an output that is driven (R551, Table 18-5). DESIGN CHOICE, log entry 42. -/
def State.drivenLevel (s : State) (x : Signal) : PinLevel :=
  match x with
  | .lden d => if (s.drive d.val).wst.lden then .high else .low
  | .wsp d k =>
    let w := (s.drive d.val).wst
    if w.gate && w.burst.isSome then (if k.val = 3 then .high else .live) else .low
  | .lsck _ | .lsda _ => .low
  | .lcsN _ => .high
  | .acten d => if ((s.drive d.val).axis 0).st ≠ .off ∨ ((s.drive d.val).axis 1).st ≠ .off then .high else .low
  | .focDac d => .code (s.dacOf (axisOf d.val 0))
  | .trkDac d => .code (s.dacOf (axisOf d.val 1))
  | .spg d ph hi => s.gateLevel d.val ph.val hi
  | .st d b second => s.coilLevel d.val b second
  | .sten d =>
    (match (s.drive d.val).sled.st with
     | .off | .fault => .low
     | _ => .high)
  | .nfCeN _ _ | .nfWpN _ | .nfWeN _ | .nfRe _ true | .dbgTx => .high
  | .nfRe _ false | .nfAle _ | .nfCle _ => .low
  | .ckout => if Cf.CLK_CKOUT_src s = 0 then .low else .live
  | _ => .live

/-- The level of a signal's ball as the Pyaris drives it: an input is never driven. DESIGN CHOICE, log entry 42. -/
def State.pinLevel (s : State) (x : Signal) : PinLevel :=
  if !x.isOutput || s.released x then .released else s.drivenLevel x

end Sys2Proof.Machine
end

