-- ==== Sys2Proof/Tests/Slice0.lean ====
section
/-! SUPPORT. The model's own tests: states and operands that meet the hypotheses of each statement, the commands that well-formedness
refuses, and a few values that the spec gives. -/

open Sys2Proof Sys2Proof.Machine

namespace Sys2Proof.Tests

/-- A function whose memory space and bus mastering are enabled. -/
def wFn : Fn := { Fn.reset with cfg := { FnCfg.reset with mse := true, bme := true } }

/-- An ACTIVE instance at generation 1. -/
def wInst : Instance :=
  { Instance.fresh with state := .active, gen := 1, unitHigh := 2097152, unitDur := 2097152, arcHigh := 2097152, arcDur := 2097152 }

/-- A block that serves commands 1,000,000 s after power-on, with the link up, 255 VFs, and instances 0, 1 and 255 ACTIVE. -/
def wS : State :=
  { State.reset with
    hlt := { State.reset.hlt with perstLow := false }
    boot := { BootState.reset with step := 12, ready := true }
    tm := { State.reset.tm with valid := true, mono := 1000000000, sec := 1800000000, sub := 32767 }
    link := { LinkState.reset with up := true, rate := 3, width := 4, vfEnable := true, vfMse := true, numVfs := 255 }
    fn := [(0, wFn), (1, wFn), (255, wFn)]
    inst := [(0, wInst), (1, wInst), (255, wInst)]
    fss := { FssState.reset with ready := true, ppb := 4, blocksPerDie := 8, cap := 1000000, dies := ⟨true, false, 0, []⟩ :: List.replicate 15 Die.reset }
    inp := { InputState.reset with qual := 0x17FF }
    sea := { SeaState.reset with rngOk := true, selftestOk := true, sweepDone := true } }

/-- Every table of the block is in its canonical form, as a Boolean. -/
def canonB (s : State) : Bool :=
  Bank.wf nvmDef s.nvm && Bank.wf wordDef s.mon.sram && Bank.wf unitDef s.fss.units && Bank.wf instDef s.inst && Bank.wf fnDef s.fn &&
  Bank.wf regReset s.regs && ((match s.fss.root with
    | none => true
    | some r => Bank.wf instDef r.inst) && match s.fss.rootWait with
    | none => true
    | some w => Bank.wf instDef w.snap.inst)

theorem canon_of {s : State} (h : canonB s = true) : s.Canon := by
  simp only [canonB, Bool.and_eq_true] at h
  obtain ⟨⟨⟨⟨⟨⟨h1, h2⟩, h3⟩, h4⟩, h5⟩, h6⟩, h7, h8⟩ := h
  exact ⟨h1, h2, h3, fun r hr => by rw [hr] at h7; exact h7, fun w hw => by rw [hw] at h8; exact h8, h4, h5, h6⟩

/-- A submission entry: opcode, pointer kind, argument 0, argument 1, data length, target, and byte 44. -/
def wEntry (op ptr a0 a1 len tgt sub : Byte) : List Byte :=
  [op, 0, ptr, 0, 7, 0, 0, 0, a0, 0, 0, 0, 0, 0, 0, 0, a1, 0, 0, 0, 0, 0, 0, 0, 0, 0, 0, 0, 0, 0, 0, 0, len, 0, 0, 0, 0, 0, 0, 0,
   tgt, 0, 0, 0, sub, 0, 0, 0, 0, 0, 0, 0, 0, 0, 0, 0, 0, 0, 0, 0, 0, 0, 0, 0]

/-- A started command of instance 0 with everything that it reads arrived. -/
def wCmd (e : List Byte) : Cmd :=
  { id := 1, fn := 0, sq := some 3, cq := 3, sqHead := 1, entry := e, epoch := 0, gen := 1, stage := .started, reserved := 0, elist := none,
    data := [], minHold := 0, legalHold := false, placed := [], waitSeq := 0, result := 0, since := 999990000, aux := 0 }

/-- The serving block with that command in flight. -/
def wRun (op ptr a0 a1 len tgt sub : Byte) : State := { wS with cmds := [wCmd (wEntry op ptr a0 a1 len tgt sub)] }

/-- Keys of one boot, all zero. -/
def wKeys : LineKeys := ⟨0, 0, 0, 0, 0, 0⟩

/-- Start-up in which every test passes and nothing is identified. -/
def wEnv : StartEnv :=
  { cells := [], check := none, slotA := true, slotB := true, cal := [], lpddr := some 4, dies := [], anchor := false, badUnits := [], badKeys := [], markers := [] }

/-- The examination of an empty set. -/
def wSet : SetExam :=
  { rl := [], runs := [], finalised := false, sidUsed := 0, rlUsed := 0, srUsed := 0, rlSeq := 0, srSeq := 0, covered := 0, session := 0, scan := [],
    spare := [], fr := [], copies := [] }

/-- The serving block with a given drive 3. -/
def wD (r : Machine.Drive) : State := { wS with drives := [Drive.reset, Drive.reset, Drive.reset, r] }

/-- The serving block with a given axis of drive 3: 0 focus, 1 tracking, 2 spindle, 3 sled. -/
def wAx (k : Nat) (a : Ax) : State := wD { Drive.reset with ax := modNth (fun _ => a) Drive.reset.ax k }

def wSpin (p : Spindle) : State := wD { Drive.reset with spin := p }
def wSled (l : Sled) : State := wD { Drive.reset with sled := l }
def wRdc (c : ReadChannel) : State := wD { Drive.reset with disc := true, rdc := c }
def wWst (w : WriteStrategy) : State := wD { Drive.reset with wst := w }

/-- The serving block with a given instance 255, and with a given function 255. -/
def wI (r : Instance) : State := { wS with inst := [(0, wInst), (1, wInst), (255, r)] }
def wF (n : Fn) : State := { wS with fn := [(0, wFn), (1, wFn), (255, n)] }

/-- The block with register words replaced, as stored and as in force. -/
def wReg (s : State) (l : Bank Word) : State := { s with regs := l, nextSet := l, liveSet := l }

/-- A segment of instance 0. -/
def wSeg : Segment :=
  { num := 1, inst := 0, lbn := 0, cnt := 8, rid := 7, blocks := 1, displaced := [], active := false, formatted := 0, verified := [], rebuilt := false,
    replaced := false, broken := false, unpinAt := none, chain := 0, setId := 0 }

/-- A drive that records: axes closed and locked, spindle at speed, channel clock locked, gate open, an OPC result for each layer. -/
def wRecDrive : Machine.Drive :=
  { Drive.reset with
    disc := true
    ax := [{ Ax.reset with st := .closed, locked := true }, { Ax.reset with st := .closed, locked := true }, { Ax.reset with st := .closed },
      Ax.reset]
    spin := { Spindle.reset with st := .run, locked := true }
    rdc := { ReadChannel.reset with clkLock := true, started := true, kbps := 100000 }
    wst := { WriteStrategy.reset with gate := true, opc := [⟨true, 0, 0, 100000⟩, ⟨true, 0, 0, 100000⟩], pca := [1, 0] } }

/-- The serving block with a writable set of two layers in four recording drives, calibrated at 0 °C. -/
def wRec : State :=
  { wS with
    arc := { ArcState.reset with loaded := true, setId := 5, layers := 2, pos := [some 0, some 1, some 2, some 3], total := 100 }
    drives := List.replicate 4 wRecDrive
    liveSet := [(Reg.CLK_GATE_RUN, 0x78#32)]
    pwb := { wS.pwb with run := 15 }
    inp := { wS.inp with range := 15 }
    cal := { wS.cal with vals := (List.range 4).flatMap (fun d => [10, 11, 12, 13, 100, 101, 200, 201].map (fun n => (66536 + 1000 * d + n, some 0))) } }

/-- A disc that names set 5 of this device. -/
def wDisc (p : Fin 4) : DiscExam :=
  { writeOnce := true, layers := 2, long := true, blank := false, sid := some ⟨5, p, 2, 0, 0, 100, Config.deviceDigest⟩, pca := [1, 1], pind := 0 }

theorem pair_eta {α β : Type} (p : α × β) : p = (p.1, p.2) := rfl
theorem triple_eta {α β γ : Type} (p : α × β × γ) : p = (p.1, p.2.1, p.2.2) := rfl

theorem loadSet_named {s : State} {arg0 fails : Nat} {discs : List (Option DiscExam)} {e : SetExam} {sid : SidBody} (hb : s.setBusy = false)
    (hf : s.foundSet discs = some sid) (ha : arg0 = 0 ∨ arg0 = sid.setId) (hd : sid.digest = Config.deviceDigest) (hr : sid.rootSlot = s.sea.slot) :
    s.loadSet arg0 false discs e fails = (stSuccess, sid.setId, (s.leaveSet discs).takeSet discs sid e) := by
  have hn : ¬ (arg0 ≠ 0 ∧ arg0 ≠ sid.setId) := by omega
  have hm : ¬ (sid.digest ≠ Config.deviceDigest ∨ sid.rootSlot ≠ s.sea.slot) := by simp [hd, hr]
  simp only [State.loadSet, hb, hf, if_neg hn, if_neg hm]
  rfl

theorem leNat_lt (l : List Byte) : leNat l < 256 ^ l.length := by
  induction l with
  | nil => simp [leNat]
  | cons b r ih =>
    have := b.isLt
    simp only [leNat, List.length_cons, Nat.pow_succ]
    omega

theorem idValue_fits : (BitVec.ofNat 64 idValue).toNat = idValue := by
  have h := leNat_lt (leBytes 4 Config.deviceDigest).reverse
  simp only [List.length_reverse, leBytes_length] at h
  rw [BitVec.toNat_ofNat]
  exact Nat.mod_eq_of_lt (Nat.lt_trans h (by decide))

/-- The block with the monitor active. -/
def wMon (locked : Bool) : State := { wS with mon := { wS.mon with active := true, locked := locked, idleS := 300, lastLine := 999700000 } }

/-- A start that passes the first steps with DBG_RX low, and one with DBG_RX high. -/
theorem wBootLow : ((({ State.reset with inp := { State.reset.inp with qual := 0 } } : State).bootFirst wEnv).running,
    (({ State.reset with inp := { State.reset.inp with qual := 0 } } : State).bootFirst wEnv).level 12) = (true, false) := by
  decide +kernel
theorem wBootHigh : ((State.reset.bootFirst wEnv).running, (State.reset.bootFirst wEnv).level 12) = (true, true) := by decide +kernel

/-- A line of zeros and its MAC as LPDDR would return them, and the two readings of a line that the check tells apart. -/
def wLine (s : State) (a : Nat) : List Byte := List.replicate 64 0 ++ s.lineTag (List.replicate 64 0) a

theorem wLine_passes (s : State) (a : Nat) : s.linePasses a (wLine s a) = true := by
  have h : (s.lineTag (List.replicate 64 0) a).length = 8 := leBytes_length 8 _
  have e : (wLine s a).take 64 = List.replicate 64 0 := List.take_left' (by simp)
  refine decide_eq_true ?_
  rw [e]
  exact (congrArg (List.take 8) (List.drop_left' (by simp))).trans (List.take_of_length_le (by omega))

theorem nil_fails (s : State) (a : Nat) : s.linePasses a [] = false := by
  have h : (s.lineTag ([].take 64) a).length = 8 := leBytes_length 8 _
  simp only [State.linePasses, decide_eq_false_iff_not]
  intro e
  rw [← e] at h
  exact absurd h (by decide)

theorem witness_StepTakesTheFront :
    (∃ (c : Instr) (r : List Instr) (s : State), s.pending = c :: r) ∧
    (∃ (s : State), s.pending = []) :=
  ⟨⟨_, _, { wS with pending := [.flush 1] }, rfl⟩,
   ⟨wS, by decide⟩⟩

theorem witness_FramesHold :
    (∃ (c : Instr) (s : State) (t : State), exec c s = Host.Outcome.next t) ∧
    (∃ (s : State) (t : State), s.pending = [] ∧ step s = Host.Outcome.next t) :=
  ⟨⟨(.flush 1), wS, _, rfl⟩,
   ⟨wS, _, by decide, rfl⟩⟩

theorem witness_CanonKept :
    (∃ (s : State) (t : State), s.Canon ∧ step s = Host.Outcome.next t) :=
  ⟨wS, _, canon_of (by decide), rfl⟩

theorem witness_HaltLeftOnlyByReset :
    (∃ (c : Instr) (s : State), s.hlt.halt.isSome = true ∧ s.hlt.porHeld = false ∧ answersInHalt c = false) ∧
    (∃ (s : State) (t : State), s.hlt.halt.isSome = true ∧ s.hlt.porHeld = false ∧ (∀ (c : Instr) (r : List Instr),
      s.pending = c :: r → beginsReset c = false) ∧ step s = Host.Outcome.next t) ∧
    (∃ (c : Instr) (s : State), beginsReset c = true ∧ s.hlt.porHeld = false) :=
  ⟨⟨(.flush 1), { wS with hlt := { wS.hlt with halt := some ⟨1, 0, none, 0, 0, 0, 0, 65535, false, 0, 0, false, false⟩ } }, by decide, by decide,
      by decide⟩,
   ⟨{ wS with hlt := { wS.hlt with halt := some ⟨1, 0, none, 0, 0, 0, 0, 65535, false, 0, 0, false, false⟩ } }, _, by decide, by decide,
      (fun _ _ h => nomatch h), rfl⟩,
   ⟨(.powerOnReset 0), wS, by decide, by decide⟩⟩

theorem witness_ResetValues :
    (∃ (k : Nat) (r : RegDesc), regDesc k = some r) :=
  ⟨Reg.CLK_PM, _, rfl⟩

theorem witness_MeteringTicks :
    (∃ (s : State), s.Canon ∧ s.serving = true) ∧
    (∃ (s : State) (b : Nat), s.Canon ∧ s.serving = true ∧ s.firstDue = some b) ∧
    (∃ (s : State), s.serving = true ∧ s.firstDue = none) :=
  ⟨⟨(wI { wInst with opened := some ⟨0, 0, 0, 1800000000, 0, Meter.zero⟩ }), canon_of (by decide), by decide⟩,
   ⟨(wI { wInst with opened := some ⟨0, 0, 0, 1800000000, 0, Meter.zero⟩ }), _, canon_of (by decide), by decide, rfl⟩,
   ⟨wS, by decide, by decide⟩⟩

theorem witness_HaltEntry :
    (∃ (s : State), s.Canon ∧ s.hlt.porHeld = false ∧ s.hlt.halt = none) ∧
    (∃ (more : List HaltCause) (s : State) (h : HaltInfo) (g : HaltInfo), s.Canon ∧ s.hlt.porHeld = false ∧ s.hlt.halt = some h ∧
      g = { h with further := satU 16 (h.further + (1 + more.length)) }) ∧
    (∃ (s : State) (h : HaltInfo), s.Canon ∧ s.hlt.halt = some h ∧ h.nvmOk = false) ∧
    (∃ (s : State) (h : HaltInfo), s.hlt.halt = some h ∧ h.nvmOk = true) ∧
    (∃ (s : State), s.running = false) :=
  ⟨⟨wS, canon_of (by decide), by decide, by decide⟩,
   ⟨[], { wS with hlt := { wS.hlt with halt := some ⟨1, 0, none, 0, 0, 0, 0, 65535, false, 0, 0, false, false⟩ } }, _, _, canon_of (by decide),
      by decide, rfl, rfl⟩,
   ⟨{ wS with hlt := { wS.hlt with halt := some ⟨1, 0, none, 0, 0, 0, 0, 65535, false, 0, 0, false, false⟩ } }, _, canon_of (by decide), rfl,
      by decide⟩,
   ⟨{ wS with hlt := { wS.hlt with halt := some ⟨1, 0, none, 0, 0, 0, 0, 65535, true, 0, 0, false, false⟩ } }, _, rfl, by decide⟩,
   ⟨{ wS with hlt := { wS.hlt with halt := some ⟨1, 0, none, 0, 0, 0, 0, 65535, false, 0, 0, false, false⟩ } }, by decide⟩⟩

theorem witness_MapCacheControlAndMaintenance :
    (∃ (v : Word) (s : State), s.barOpen 0 = true ∧ fld v 0 1 = 1 ∧ s.mchEn = false ∧ s.mch.invOk = false) ∧
    (∃ (v : Word) (s : State), s.barOpen 0 = true ∧ (fld v 0 1 = 0 ∨ s.mchEn = true ∨ s.mch.invOk = true)) ∧
    (∃ (s : State), s.barOpen 0 = true) ∧
    (∃ (s : State), s.running = true) ∧
    (∃ (c : Fin 2 → Instr) (op : Nat) (mode : Fin 2) (s : State), (c, op) ∈ [(Instr.clean, 1), (Instr.invalidate, 2), (Instr.cleanAndInvalidate,
      3)] ∧ s.barOpen 0 = true ∧ s.mch.op = none ∧ (mode.val ≠ 0 ∨ Cf.MCH_OP_CNT_lines s ≠ 0 ∧ Cf.MCH_OP_CNT_lines s ≤ 65536)) ∧
    (∃ (c : Fin 2 → Instr) (op : Nat) (mode : Fin 2) (s : State), (c, op) ∈ [(Instr.clean, 1), (Instr.invalidate, 2), (Instr.cleanAndInvalidate,
      3)] ∧ s.barOpen 0 = true ∧ s.mch.op = none ∧ mode.val = 0 ∧ (Cf.MCH_OP_CNT_lines s = 0 ∨ 65536 < Cf.MCH_OP_CNT_lines s)) ∧
    (∃ (c : Fin 2 → Instr) (op : Nat) (s : State), (c, op) ∈ [(Instr.clean, 1), (Instr.invalidate, 2), (Instr.cleanAndInvalidate, 3)] ∧
      s.barOpen 0 = true ∧ s.mch.op.isSome = true) ∧
    (∃ (s : State) (op : Nat) (mode : Nat), s.running = true ∧ s.mch.op = some (op, mode) ∧ s.opMayEnd op = true) ∧
    (∃ (s : State), s.mch.op = none) :=
  ⟨⟨1, { wS with regs := [(Reg.MCH_OP_CNT, 65536#32)] }, by decide, by decide, by decide, by decide⟩,
   ⟨0, { wS with regs := [(Reg.MCH_OP_CNT, 65536#32)] }, by decide, by decide⟩,
   ⟨{ wS with regs := [(Reg.MCH_OP_CNT, 65536#32)] }, by decide⟩,
   ⟨{ wS with regs := [(Reg.MCH_OP_CNT, 65536#32)] }, by decide⟩,
   ⟨Instr.clean, 1, 0, { wS with regs := [(Reg.MCH_OP_CNT, 65536#32)] }, by simp, by decide, by decide, by decide⟩,
   ⟨Instr.cleanAndInvalidate, 3, 0, { wS with regs := [(Reg.MCH_OP_CNT, 65537#32)] }, by simp, by decide, by decide, by decide, by decide⟩,
   ⟨Instr.invalidate, 2, { wS with mch := { wS.mch with op := some (1, 0) } }, by simp, by decide, by decide⟩,
   ⟨{ wS with mch := { wS.mch with op := some (1, 0) } }, 1, 0, by decide, by decide, by decide⟩,
   ⟨{ wS with regs := [(Reg.MCH_OP_CNT, 65536#32)] }, by decide⟩⟩

theorem witness_HostHeldRegion :
    (∃ (s : State), s.barOpen 0 = true ∧ s.fss.hregEn = false ∧ Cf.FSS_HREG_SIZE_size s ≠ 0 ∧ Cf.FSS_HREG_SIZE_size s ≤ 64 ∧ s.fss.hregBusy = false) ∧
    (∃ (s : State), s.barOpen 0 = true ∧ s.fss.hregEn = false ∧
      (Cf.FSS_HREG_SIZE_size s = 0 ∨ 64 < Cf.FSS_HREG_SIZE_size s ∨ s.fss.hregBusy = true)) ∧
    (∃ (s : State), s.fss.hregEn = true) ∧
    (∃ (s : State), s.barOpen 0 = true ∧ s.fss.hregEn = true) ∧
    (∃ (s : State), s.fss.hregEn = false) ∧
    (∃ (s : State), s.running = true ∧ s.fss.hregBusy = true ∧ s.leafReading = false) ∧
    (∃ (s : State), (s.fss.hregBusy = false ∨ s.leafReading = true)) :=
  ⟨⟨{ wS with regs := [(Reg.FSS_HREG_SIZE, 64#32)] }, by decide, by decide, by decide, by decide, by decide⟩,
   ⟨wS, by decide, by decide, by decide⟩,
   ⟨{ wS with fss := { wS.fss with hregEn := true } }, by decide⟩,
   ⟨{ wS with fss := { wS.fss with hregEn := true } }, by decide, by decide⟩,
   ⟨{ wS with regs := [(Reg.FSS_HREG_SIZE, 64#32)] }, by decide⟩,
   ⟨{ wS with fss := { wS.fss with hregBusy := true } }, by decide, by decide, by decide⟩,
   ⟨{ wS with regs := [(Reg.FSS_HREG_SIZE, 64#32)] }, by decide⟩⟩

theorem witness_EpochCommitAndAdoption :
    (∃ (v : Word) (s : State), s.serving = true ∧ s.epoch.pending = false ∧ fld v 0 16 = wrapInc 65535 s.epoch.cur) ∧
    (∃ (v : Word) (s : State), s.serving = true ∧ (s.epoch.pending = true ∨ fld v 0 16 ≠ wrapInc 65535 s.epoch.cur)) ∧
    (∃ (bit : Fin 14) (part : Fin 16) (s : State), s.serving = true ∧ s.epoch.pending = true ∧ bitN s.epoch.adopt bit.val = false ∧ bit.val ≠ 6 ∧
      bit.val ≠ 7 ∧ (bit.val < 2 ∨ s.oldEpochWork bit.val = false) ∧ s.safePoint bit.val part.val = true) ∧
    (∃ (bit : Fin 14) (part : Fin 16) (s : State) (d : Nat), s.serving = true ∧ s.epoch.pending = true ∧ bitN s.epoch.adopt bit.val = false ∧
      s.oldEpochWork bit.val = false ∧ s.safePoint bit.val part.val = true ∧ bit.val = 6 ∧ part.val < 4 ∧
      d = setBitN s.epoch.drives (part.val) true) ∧
    (∃ (bit : Fin 14) (part : Fin 16) (s : State) (d : Nat), s.serving = true ∧ s.epoch.pending = true ∧ bitN s.epoch.adopt bit.val = false ∧
      s.oldEpochWork bit.val = false ∧ s.safePoint bit.val part.val = true ∧ bit.val = 7 ∧ d = setBitN s.epoch.axes (part.val) true) ∧
    (∃ (s : State), s.serving = true ∧ s.epoch.pending = true ∧ s.epoch.timedOut = false ∧ s.epoch.since + s.epoch.tmo ≤ s.tm.mono) ∧
    (∃ (s : State), (s.epoch.pending = false ∨ s.epoch.timedOut = true ∨ s.tm.mono < s.epoch.since + s.epoch.tmo)) :=
  ⟨⟨1, wS, by decide, by decide, by decide⟩,
   ⟨0, wS, by decide, by decide⟩,
   ⟨13, 0, { wS with epoch := { wS.epoch with pending := true, adopt := 0x1FFF } }, by decide, by decide, by decide, by decide, by decide,
      by decide, by decide⟩,
   ⟨6, 3, { wS with epoch := { wS.epoch with pending := true, adopt := 0 } }, _, by decide, by decide, by decide, by decide, by decide, by decide,
      by decide, rfl⟩,
   ⟨7, 15, { wS with epoch := { wS.epoch with pending := true, adopt := 0 } }, _, by decide, by decide, by decide, by decide, by decide, by decide,
      rfl⟩,
   ⟨{ wS with epoch := { wS.epoch with pending := true, adopt := 0x3F3F } }, by decide, by decide, by decide, by decide⟩,
   ⟨wS, by decide⟩⟩

theorem witness_RingControl :
    (∃ (f : Func) (cq : Bool) (i : Fin 4) (s : State), s.barOpen (BitVec.toNat f) = true ∧ s.inReset (BitVec.toNat f) = false ∧
      bitN (BitVec.toNat (s.reg (cfgKey (BitVec.toNat f) cq i.val))) 0 = true) ∧
    (∃ (f : Func) (cq : Bool) (i : Fin 4) (v : Word) (s : State) (u : State) (w : Word) (e : Nat), s.barOpen (BitVec.toNat f) = true ∧
      s.inReset (BitVec.toNat f) = false ∧ bitN (BitVec.toNat (s.reg (cfgKey (BitVec.toNat f) cq i.val))) 0 = false ∧
      u = s.storeReg (cfgKey (BitVec.toNat f) cq i.val) (setFld v 0 1 0) ∧ w = u.reg (cfgKey (BitVec.toNat f) cq i.val) ∧
      u.enableErr (BitVec.toNat f) cq (i.val) w = some e) ∧
    (∃ (f : Func) (cq : Bool) (i : Fin 4) (v : Word) (s : State) (u : State) (w : Word) (x : State), s.barOpen (BitVec.toNat f) = true ∧
      s.inReset (BitVec.toNat f) = false ∧ bitN (BitVec.toNat (s.reg (cfgKey (BitVec.toNat f) cq i.val))) 0 = false ∧
      u = s.storeReg (cfgKey (BitVec.toNat f) cq i.val) (setFld v 0 1 0) ∧ w = u.reg (cfgKey (BitVec.toNat f) cq i.val) ∧
      u.enableErr (BitVec.toNat f) cq (i.val) w = none ∧ x = u.setReg (cfgKey (BitVec.toNat f) cq i.val) (setFld w 0 1 1)) ∧
    (∃ (f : Func) (cq : Bool) (i : Fin 4) (v : Word) (s : State) (u : State), s.barOpen (BitVec.toNat f) = true ∧
      s.inReset (BitVec.toNat f) = false ∧ u = s.noteRsv (cfgKey (BitVec.toNat f) cq i.val) v ∧
      bitN (BitVec.toNat (s.reg (cfgKey (BitVec.toNat f) cq i.val))) 0 = false) ∧
    (∃ (f : Func) (cq : Bool) (i : Fin 4) (v : Word) (s : State) (u : State), s.barOpen (BitVec.toNat f) = true ∧
      s.inReset (BitVec.toNat f) = false ∧ u = s.noteRsv (cfgKey (BitVec.toNat f) cq i.val) v ∧
      bitN (BitVec.toNat (s.reg (cfgKey (BitVec.toNat f) cq i.val))) 0 = true ∧ cq = true ∧ u.cqNeeded (BitVec.toNat f) i.val = true) ∧
    (∃ (f : Func) (cq : Bool) (i : Fin 4) (v : Word) (s : State) (u : State), s.barOpen (BitVec.toNat f) = true ∧
      s.inReset (BitVec.toNat f) = false ∧ u = s.noteRsv (cfgKey (BitVec.toNat f) cq i.val) v ∧
      bitN (BitVec.toNat (s.reg (cfgKey (BitVec.toNat f) cq i.val))) 0 = true ∧ (cq = false ∨ u.cqNeeded (BitVec.toNat f) i.val = false)) ∧
    (∃ (f : Func) (s : State), s.barOpen (BitVec.toNat f) = true ∧ s.inReset (BitVec.toNat f) = false) ∧
    (∃ (f : Func) (s : State), s.barOpen (BitVec.toNat f) = true ∧ s.inReset (BitVec.toNat f) = false ∧ (s.getFn (BitVec.toNat f)).db.asleep = true) ∧
    (∃ (f : Func) (s : State), s.barOpen (BitVec.toNat f) = true ∧ s.inReset (BitVec.toNat f) = false ∧
      (s.getFn (BitVec.toNat f)).db.asleep = false) :=
  ⟨⟨255, false, 3, { wS with regs := [(Reg.F_SQ_CFG 255 3, 1#32)] }, by decide, by decide, by decide⟩,
   ⟨255, false, 0, 0, { wS with regs := [(Reg.F_SQ_CFG 255 3, 1#32)] }, _, _, _, by decide, by decide, by decide, rfl, rfl, rfl⟩,
   ⟨255, true, 3, 0x10C00, { wS with regs := [(Reg.F_RNG_CTL 255, 1#32)], liveSet := [(Reg.INS_T_LIMITS 255, 0x47F#32)] }, _, _, _, by decide,
      by decide, by decide, rfl, rfl, by decide, rfl⟩,
   ⟨255, false, 0, 0, { wS with regs := [(Reg.F_SQ_CFG 255 3, 1#32)] }, _, by decide, by decide, rfl, by decide⟩,
   ⟨255, true, 3, 0, { wS with regs := [(Reg.F_SQ_CFG 255 0, 0x30001#32), (Reg.F_CQ_CFG 255 3, 1#32)] }, _, by decide, by decide, rfl, by decide,
      by decide, by decide⟩,
   ⟨255, false, 3, 0, { wS with regs := [(Reg.F_SQ_CFG 255 3, 1#32)] }, _, by decide, by decide, rfl, by decide, by decide⟩,
   ⟨255, { wS with regs := [(Reg.F_SQ_CFG 255 3, 1#32)] }, by decide, by decide⟩,
   ⟨255, (wF { wFn with db := { DbState.reset with asleep := true } }), by decide, by decide, by decide⟩,
   ⟨255, { wS with regs := [(Reg.F_SQ_CFG 255 3, 1#32)] }, by decide, by decide, by decide⟩⟩

theorem witness_FetchesAndAcceptance :
    (∃ (f : Func) (s : State) (u : State), s.serving = true ∧ s.dbEn (BitVec.toNat f) = true ∧ s.canRead (BitVec.toNat f) = true ∧
      ((s.getFn (BitVec.toNat f)).db.asleep = false ∨ (s.getFn (BitVec.toNat f)).db.extra = true) ∧
      (u = s.modFn (BitVec.toNat f) fun n => { n with sq := List.map (fun q => { q with hold := false }) n.sq }) ∧
      s.fetching (BitVec.toNat f) = false) ∧
    (∃ (f : Func) (s : State) (u : State), s.serving = true ∧ s.dbEn (BitVec.toNat f) = true ∧ s.canRead (BitVec.toNat f) = true ∧
      ((s.getFn (BitVec.toNat f)).db.asleep = false ∨ (s.getFn (BitVec.toNat f)).db.extra = true) ∧
      (u = s.modFn (BitVec.toNat f) fun n => { n with sq := List.map (fun q => { q with hold := false }) n.sq }) ∧
      s.fetching (BitVec.toNat f) = true) ∧
    (∃ (f : Func) (s : State), (s.dbEn (BitVec.toNat f) = false ∨ s.canRead (BitVec.toNat f) = false)) ∧
    (∃ (f : Func) (s : State), s.serving = true ∧ s.fetching (BitVec.toNat f) = true) ∧
    (∃ (f : Func) (s : State), s.fetching (BitVec.toNat f) = false) ∧
    (∃ (f : Func) (i : Fin 4) (s : State) (u : State) (h : Nat), s.serving = true ∧ s.entryRead (BitVec.toNat f) i.val = true ∧
      (u = { s with reads := dropFirst (fun r => decide (r.kind = ReadKind.entry i.val ∧ r.fn = f)) s.reads }) ∧
      u.sqOn (BitVec.toNat f) i.val = true ∧ (u.getInst (BitVec.toNat f)).state = IState.active ∧
      h = ((u.sq (BitVec.toNat f) i.val).head + 1) % u.sqSize (BitVec.toNat f) i.val) ∧
    (∃ (f : Func) (i : Fin 4) (s : State), s.entryRead (BitVec.toNat f) i.val = false) ∧
    (∃ (id : Nat) (s : State) (c : Cmd), s.serving = true ∧ s.findCmd id = some c ∧ s.canStart c = true) ∧
    (∃ (id : Nat) (s : State), s.findCmd id = none) :=
  ⟨⟨255, { wS with regs := [(Reg.F_RNG_CTL 255, 1#32)] }, _, by decide, by decide, by decide, by decide, rfl, by decide⟩,
   ⟨255, { wS with reads := [⟨0, 255, 0, 32, .doorbell⟩], regs := [(Reg.F_RNG_CTL 255, 1#32)] }, _, by decide, by decide, by decide, by decide, rfl,
      by decide⟩,
   ⟨0, { wS with regs := [(Reg.F_RNG_CTL 255, 1#32)] }, by decide⟩,
   ⟨255, { wS with reads := [⟨0, 255, 0, 32, .doorbell⟩] }, by decide, by decide⟩,
   ⟨255, { wS with regs := [(Reg.F_RNG_CTL 255, 1#32)] }, by decide⟩,
   ⟨255, 3, { wS with reads := [⟨0, 255, 0, 64, .entry 3⟩], regs := [(Reg.F_SQ_CFG 255 3, 0x401#32)], liveSet := [(Reg.INS_T_LIMITS 255, 0x401#32)] }, _, _, by decide, by decide, rfl, by decide, by decide, rfl⟩,
   ⟨255, 3, { wS with regs := [(Reg.F_RNG_CTL 255, 1#32)] }, by decide⟩,
   ⟨1, { wS with cmds := [{ wCmd (wEntry 4 0 0 0 0 0 0) with stage := .accepted }] }, _, by decide, rfl, by decide⟩,
   ⟨1, { wS with regs := [(Reg.F_RNG_CTL 255, 1#32)] }, by decide⟩⟩

theorem witness_CompletionsAndTaskPort :
    (∃ (id : Nat) (s : State) (d : Due), s.serving = true ∧ (List.find? (fun d => decide (d.cmd = id)) s.due = some d) ∧ d.sq.isSome = true ∧
      s.canWrite (BitVec.toNat d.fn) = true ∧ s.firstDueOf (BitVec.toNat d.fn) d.cq = some d ∧ s.cqOn (BitVec.toNat d.fn) d.cq = true ∧
      s.cqFull (BitVec.toNat d.fn) d.cq = false) ∧
    (∃ (id : Nat) (s : State) (d : Due), s.serving = true ∧ (List.find? (fun d => decide (d.cmd = id)) s.due = some d) ∧ d.sq.isSome = true ∧
      s.canWrite (BitVec.toNat d.fn) = true ∧ s.firstDueOf (BitVec.toNat d.fn) d.cq = some d ∧ s.cqOn (BitVec.toNat d.fn) d.cq = true ∧
      s.cqFull (BitVec.toNat d.fn) d.cq = true) ∧
    (∃ (id : Nat) (s : State) (d : Due), s.serving = true ∧ (List.find? (fun d => decide (d.cmd = id)) s.due = some d) ∧ d.sq.isSome = true ∧
      s.canWrite (BitVec.toNat d.fn) = true ∧ s.firstDueOf (BitVec.toNat d.fn) d.cq = some d ∧ s.cqOn (BitVec.toNat d.fn) d.cq = false) ∧
    (∃ (f : Func) (j : Fin 4) (s : State), s.serving = true ∧ s.cqOn (BitVec.toNat f) j.val = true ∧ 1 ≤ s.coalCount (BitVec.toNat f) j.val ∧
      s.coalTime (BitVec.toNat f) j.val ≠ 0 ∧ 1 ≤ (s.cq (BitVec.toNat f) j.val).unsignalled) ∧
    (∃ (f : Func) (j : Fin 4) (s : State), (s.cq (BitVec.toNat f) j.val).unsignalled = 0) ∧
    (∃ (f : Func) (v : Word) (s : State), s.barOpen (BitVec.toNat f) = true ∧ s.inReset (BitVec.toNat f) = false ∧ fld v 0 1 = 1 ∧
      (s.getFn (BitVec.toNat f)).tskBusy = false ∧ (f = 0 ∨ fldN (s.limits (BitVec.toNat f)) 12 1 ≠ 0)) ∧
    (∃ (f : Func) (v : Word) (s : State), s.barOpen (BitVec.toNat f) = true ∧ s.inReset (BitVec.toNat f) = false ∧ fld v 0 1 = 1 ∧
      (s.getFn (BitVec.toNat f)).tskBusy = true) ∧
    (∃ (id : Nat) (s : State) (d : Due) (u : State), s.serving = true ∧ (List.find? (fun d => decide (d.cmd = id)) s.due = some d) ∧ d.sq = none ∧
      (u = ((s.modFn (BitVec.toNat d.fn) fun n => { n with tskBusy := false, tskDone := true, tskCpl := cplWords (d.bytes false) }).modDb (BitVec.toNat d.fn) fun x => { x with lastWork := s.tm.mono }).settleDue d)) ∧
    (∃ (id : Nat) (s : State), (List.find? (fun d => decide (d.cmd = id)) s.due = none)) :=
  ⟨⟨1, { wS with due := [⟨1, 255, some 3, 3, 0, 7, 0, false, false, 0⟩], regs := [(Reg.F_CQ_CFG 255 3, 0x401#32)] }, _, by decide, rfl, by decide,
      by decide, by decide, by decide, by decide⟩,
   ⟨1, { wF { wFn with cq := [CqState.reset, CqState.reset, CqState.reset, ⟨15, false, 0, 0, 0⟩] } with due := [⟨1, 255, some 3, 3, 0, 7, 0, false, false, 0⟩], regs := [(Reg.F_CQ_CFG 255 3, 0x401#32)] }, _, by decide, rfl, by decide, by decide, by decide, by decide, by decide⟩,
   ⟨1, { wS with due := [⟨1, 255, some 3, 3, 0, 7, 0, false, false, 0⟩] }, _, by decide, rfl, by decide, by decide, by decide, by decide⟩,
   ⟨255, 3, { wF { wFn with cq := [CqState.reset, CqState.reset, CqState.reset, ⟨1, false, 0, 0, 1⟩] } with regs := [(Reg.F_CQ_CFG 255 3, 0x401#32), (Reg.F_CQ_COAL 255 3, 0x10001#32)] }, by decide, by decide, by decide, by decide, by decide⟩,
   ⟨255, 3, { wS with due := [⟨1, 255, some 3, 3, 0, 7, 0, false, false, 0⟩], regs := [(Reg.F_CQ_CFG 255 3, 0x401#32)] }, by decide⟩,
   ⟨0, 1, { wS with due := [⟨1, 255, some 3, 3, 0, 7, 0, false, false, 0⟩], regs := [(Reg.F_CQ_CFG 255 3, 0x401#32)] }, by decide, by decide,
      by decide, by decide, by decide⟩,
   ⟨255, 1, (wF { wFn with tskBusy := true }), by decide, by decide, by decide, by decide⟩,
   ⟨1, { wS with due := [⟨1, 255, none, 0, 0, 7, 0, false, false, 0⟩] }, _, _, by decide, rfl, by decide, rfl⟩,
   ⟨0, { wS with due := [⟨1, 255, some 3, 3, 0, 7, 0, false, false, 0⟩], regs := [(Reg.F_CQ_CFG 255 3, 0x401#32)] }, by decide⟩⟩

theorem witness_MailboxAndSharedPages :
    (∃ (f : Func) (s : State), s.Canon ∧ s.barOpen (BitVec.toNat f) = true ∧ s.inReset (BitVec.toNat f) = false) ∧
    (∃ (f : Func) (s : State) (k : Nat) (r : List Nat) (u : State), s.serving = true ∧ (s.getFn (BitVec.toNat f)).posted = k :: r ∧
      s.inReset (BitVec.toNat f) = false ∧ (u = s.modFn (BitVec.toNat f) fun x => { x with posted := r }) ∧
      leAt (s.inSlot (BitVec.toNat f) k) 0 1 = 129) ∧
    (∃ (f : Func) (s : State) (k : Nat) (r : List Nat) (u : State), s.serving = true ∧ (s.getFn (BitVec.toNat f)).posted = k :: r ∧
      s.inReset (BitVec.toNat f) = false ∧ (u = s.modFn (BitVec.toNat f) fun x => { x with posted := r }) ∧
      leAt (s.inSlot (BitVec.toNat f) k) 0 1 ≠ 129) ∧
    (∃ (f : Func) (s : State), ((s.getFn (BitVec.toNat f)).posted = [] ∨ s.inReset (BitVec.toNat f) = true)) ∧
    (∃ (f : Func) (s : State), s.barOpen (BitVec.toNat f) = true ∧ s.inReset (BitVec.toNat f) = false) ∧
    (∃ (f : Func) (off : BitVec 12) (data : List Byte) (s : State), s.Canon ∧ s.barOpen (BitVec.toNat f) = true ∧
      s.inReset (BitVec.toNat f) = false ∧ s.boot.dramFail = false ∧ off.toNat % 4 = 0 ∧ data.length = 4 ∧ s.pageSel (BitVec.toNat f) = (true,
      BitVec.toNat f)) ∧
    (∃ (f : Func) (off : BitVec 12) (data : List Byte) (s : State) (i : Nat), s.barOpen (BitVec.toNat f) = true ∧
      s.inReset (BitVec.toNat f) = false ∧ s.boot.dramFail = false ∧ off.toNat % 4 = 0 ∧ data.length = 4 ∧ s.pageSel (BitVec.toNat f) = (true, i) ∧
      i ≠ BitVec.toNat f) ∧
    (∃ (f : Func) (off : BitVec 12) (data : List Byte) (s : State), s.barOpen (BitVec.toNat f) = true ∧ s.inReset (BitVec.toNat f) = false ∧
      (off.toNat % 4 ≠ 0 ∨ data.length ≠ 4 ∧ data.length ≠ 8)) ∧
    (∃ (off : BitVec 12) (data : List Byte) (s : State) (u : State) (i : Nat), s.barOpen 0 = true ∧ s.inReset 0 = false ∧ s.boot.dramFail = false ∧
      off.toNat % 4 = 0 ∧ data.length = 4 ∧ s.pageSel 0 = (false, i) ∧ 256 ≤ off.toNat ∧
      (u = s.modInst i fun r => { r with policy := Bank.putBytes zeroByte r.policy off.toNat data })) ∧
    (∃ (f : Func) (off : BitVec 12) (data : List Byte) (s : State) (i : Nat), s.barOpen (BitVec.toNat f) = true ∧
      s.inReset (BitVec.toNat f) = false ∧ s.boot.dramFail = false ∧ off.toNat % 4 = 0 ∧ data.length = 4 ∧ s.pageSel (BitVec.toNat f) = (false, i) ∧
      (BitVec.toNat f ≠ 0 ∨ off.toNat < 256)) ∧
    (∃ (f : Func) (off : BitVec 12) (a : List Byte) (b : List Byte) (s : State), s.barOpen (BitVec.toNat f) = true ∧
      s.inReset (BitVec.toNat f) = false ∧ off.toNat % 4 = 0 ∧ off.toNat + 4 < 4096 ∧ a.length = 4 ∧ b.length = 4) :=
  ⟨⟨255, { wF { wFn with posted := [7, 0] } with regs := [(Reg.F_IN_SLOT 255 112, 0x81#32)] }, canon_of (by decide), by decide, by decide⟩,
   ⟨255, { wF { wFn with posted := [7, 0] } with regs := [(Reg.F_IN_SLOT 255 112, 0x81#32)] }, _, _, _, by decide, rfl, by decide, rfl, by decide⟩,
   ⟨255, (wF { wFn with posted := [7, 0] }), _, _, _, by decide, rfl, by decide, rfl, by decide⟩,
   ⟨0, { wF { wFn with posted := [7, 0] } with regs := [(Reg.F_IN_SLOT 255 112, 0x81#32)] }, by decide⟩,
   ⟨255, { wF { wFn with posted := [7, 0] } with regs := [(Reg.F_IN_SLOT 255 112, 0x81#32)] }, by decide, by decide⟩,
   ⟨255, 0xFFC, [1, 2, 3, 4], { wS with regs := [(Reg.F_SPG_SEL 255, 1#32)] }, canon_of (by decide), by decide, by decide, by decide, by decide,
      by decide, by decide⟩,
   ⟨0, 0xFFC, [1, 2, 3, 4], { wS with regs := [(Reg.F_SPG_SEL 0, 0xFF01#32)] }, 255, by decide, by decide, by decide, by decide, by decide,
      by decide, by decide⟩,
   ⟨255, 0xFFC, [], { wF { wFn with posted := [7, 0] } with regs := [(Reg.F_IN_SLOT 255 112, 0x81#32)] }, by decide, by decide, by decide⟩,
   ⟨0xFFC, [1, 2, 3, 4], { wF { wFn with posted := [7, 0] } with regs := [(Reg.F_IN_SLOT 255 112, 0x81#32)] }, _, 0, by decide, by decide,
      by decide, by decide, by decide, by decide, by decide, rfl⟩,
   ⟨255, 0xFFC, [1, 2, 3, 4], { wF { wFn with posted := [7, 0] } with regs := [(Reg.F_IN_SLOT 255 112, 0x81#32)] }, 255, by decide, by decide,
      by decide, by decide, by decide, by decide, by decide⟩,
   ⟨255, 0, [0, 0, 0, 0], [0, 0, 0, 0], { wF { wFn with posted := [7, 0] } with regs := [(Reg.F_IN_SLOT 255 112, 0x81#32)] }, by decide, by decide,
      by decide, by decide, by decide, by decide⟩⟩

theorem witness_InstanceManagement :
    (∃ (c : Nat → Instr) (op : Op) (id : Nat) (s : State) (d : Cmd) (st : Nat) (res : Nat), (c, op) ∈ [(Instr.instanceStart, Op.start),
      (Instr.instanceReset, Op.reset), (Instr.instanceRemove, Op.remove), (Instr.setPolicy, Op.setPolicy), (Instr.setQuota, Op.setQuota),
      (Instr.setPeriod, Op.setPeriod)] ∧ s.Runs id op d ∧ (s.setFor d).checkState op (BitVec.toNat d.fn) d.entry = some (st, res)) ∧
    (∃ (id : Nat) (s : State) (d : Cmd) (u : State) (k : Nat), s.Runs id Op.start d ∧
      (s.setFor d).checkState Op.start (BitVec.toNat d.fn) d.entry = none ∧ s.sea.rngOk = true ∧ (s.setFor d).drawKey = (k, u)) ∧
    (∃ (id : Nat) (s : State) (d : Cmd), s.Runs id Op.start d ∧ (s.setFor d).checkState Op.start (BitVec.toNat d.fn) d.entry = none ∧
      s.sea.rngOk = false ∧ s.sea.rngDown + 100 ≤ s.tm.mono) ∧
    (∃ (id : Nat) (s : State) (d : Cmd), s.Runs id Op.start d ∧ (s.setFor d).checkState Op.start (BitVec.toNat d.fn) d.entry = none ∧
      s.sea.rngOk = false ∧ s.tm.mono < s.sea.rngDown + 100) ∧
    (∃ (id : Nat) (s : State) (d : Cmd) (i : Nat) (u : State), s.Runs id Op.reset d ∧
      (s.setFor d).checkState Op.reset (BitVec.toNat d.fn) d.entry = none ∧ i = eTarget d.entry ∧
      u = (s.setFor d).setCmd { d with stage := Stage.media } ∧ (s.getInst i).state = IState.active) ∧
    (∃ (id : Nat) (s : State) (d : Cmd) (i : Nat) (u : State), s.Runs id Op.reset d ∧
      (s.setFor d).checkState Op.reset (BitVec.toNat d.fn) d.entry = none ∧ i = eTarget d.entry ∧
      u = (s.setFor d).setCmd { d with stage := Stage.media } ∧ (s.getInst i).state ≠ IState.active) ∧
    (∃ (id : Nat) (s : State) (u : State) (d : Cmd) (i : Nat) (b : Nat), s.Runs id Op.remove d ∧
      (s.setFor d).checkState Op.remove (BitVec.toNat d.fn) d.entry = none ∧ i = eTarget d.entry ∧
      (u = forEach (List.map (fun b => leafKey i b) ((s.setFor d).mappedBlocks i)).eraseDups (fun k t => t.touchLeaf k) (s.setFor d)) ∧
      u.firstHeld i = some b) ∧
    (∃ (id : Nat) (s : State) (u : State) (d : Cmd) (i : Nat), s.Runs id Op.remove d ∧
      (s.setFor d).checkState Op.remove (BitVec.toNat d.fn) d.entry = none ∧ i = eTarget d.entry ∧
      (u = forEach (List.map (fun b => leafKey i b) ((s.setFor d).mappedBlocks i)).eraseDups (fun k t => t.touchLeaf k) (s.setFor d)) ∧
      u.firstHeld i = none ∧ (u.getInst i).state = IState.active) ∧
    (∃ (id : Nat) (s : State) (d : Cmd) (i : Nat), s.Runs id Op.setPolicy d ∧
      (s.setFor d).checkState Op.setPolicy (BitVec.toNat d.fn) d.entry = none ∧ i = eTarget d.entry) ∧
    (∃ (id : Nat) (s : State) (d : Cmd) (i : Nat), s.Runs id Op.setQuota d ∧ (s.setFor d).checkState Op.setQuota (BitVec.toNat d.fn) d.entry = none ∧
      i = eTarget d.entry ∧ (s.setFor d).fss.cap < (s.setFor d).quotaSum i (eArg0 d.entry)) ∧
    (∃ (id : Nat) (s : State) (d : Cmd) (i : Nat), s.Runs id Op.setQuota d ∧ (s.setFor d).checkState Op.setQuota (BitVec.toNat d.fn) d.entry = none ∧
      i = eTarget d.entry ∧ (s.setFor d).quotaSum i (eArg0 d.entry) ≤ (s.setFor d).fss.cap) ∧
    (∃ (id : Nat) (s : State) (d : Cmd) (i : Nat) (u : State), s.Runs id Op.setPeriod d ∧
      (s.setFor d).checkState Op.setPeriod (BitVec.toNat d.fn) d.entry = none ∧ i = eTarget d.entry ∧ u = (s.setFor d).settleBoundaries ∧
      u.periodLate d.entry = true) ∧
    (∃ (id : Nat) (s : State) (d : Cmd) (i : Nat) (u : State), s.Runs id Op.setPeriod d ∧
      (s.setFor d).checkState Op.setPeriod (BitVec.toNat d.fn) d.entry = none ∧ i = eTarget d.entry ∧ u = (s.setFor d).settleBoundaries ∧
      u.periodLate d.entry = false) :=
  ⟨⟨Instr.instanceStart, .start, 1, (wRun 0x43 0 0 0 0 1 0), _, _, _, by simp, ⟨by decide, rfl, by decide, by decide⟩, rfl⟩,
   ⟨1, (wRun 0x43 0 0 0 0 254 0), _, _, _, ⟨by decide, rfl, by decide, by decide⟩, by decide, by decide, rfl⟩,
   ⟨1, { (wRun 0x43 0 0 0 0 254 0) with sea := { (wRun 0x43 0 0 0 0 254 0).sea with rngOk := false, rngDown := 999999900 } }, _, ⟨by decide, rfl,
      by decide, by decide⟩, by decide, by decide, by decide⟩,
   ⟨1, { (wRun 0x43 0 0 0 0 254 0) with sea := { (wRun 0x43 0 0 0 0 254 0).sea with rngOk := false, rngDown := 999999901 } }, _, ⟨by decide, rfl,
      by decide, by decide⟩, by decide, by decide, by decide⟩,
   ⟨1, (wRun 0x44 0 0 0 0 255 0), _, _, _, ⟨by decide, rfl, by decide, by decide⟩, by decide, rfl, rfl, by decide⟩,
   ⟨1, { wI { wInst with state := .resetting } with cmds := [wCmd (wEntry 0x44 0 0 0 0 255 0)] }, _, _, _, ⟨by decide, rfl, by decide, by decide⟩,
      by decide, rfl, rfl, by decide⟩,
   ⟨1, { wI { wInst with minHold := 1000001 } with cmds := [wCmd (wEntry 0x45 0 0 0 0 255 0)], fss := { wS.fss with map := [(mapKey 255 9, 5)] } },
      _, _, _, _, ⟨by decide, rfl, by decide, by decide⟩, by decide, rfl, rfl, rfl⟩,
   ⟨1, { wI { wInst with minHold := 1000000 } with cmds := [wCmd (wEntry 0x45 0 0 0 0 255 0)], fss := { wS.fss with map := [(mapKey 255 9, 5)] } },
      _, _, _, ⟨by decide, rfl, by decide, by decide⟩, by decide, rfl, rfl, by decide, by decide⟩,
   ⟨1, (wRun 0x40 0 0 0 0 255 0), _, _, ⟨by decide, rfl, by decide, by decide⟩, by decide, rfl⟩,
   ⟨1, { (wRun 0x41 0 255 0 0 255 0) with fss := { (wRun 0x41 0 255 0 0 255 0).fss with cap := 254 } }, _, _, ⟨by decide, rfl, by decide,
      by decide⟩, by decide, rfl, by decide⟩,
   ⟨1, { (wRun 0x41 0 255 0 0 255 0) with fss := { (wRun 0x41 0 255 0 0 255 0).fss with cap := 255 } }, _, _, ⟨by decide, rfl, by decide,
      by decide⟩, by decide, rfl, by decide⟩,
   ⟨1, { wI { wInst with bc := 9 } with cmds := [wCmd (wEntry 0x42 0 9 0 0 255 0)] }, _, _, _, ⟨by decide, rfl, by decide, by decide⟩, by decide,
      rfl, rfl, by decide⟩,
   ⟨1, { wI { wInst with bc := 9 } with cmds := [wCmd (wEntry 0x42 0 10 0 0 255 0)] }, _, _, _, ⟨by decide, rfl, by decide, by decide⟩, by decide,
      rfl, rfl, by decide⟩⟩

theorem witness_ResetProgramme :
    (∃ (i : Func) (s : State) (p : ResetProg), s.running = true ∧ (s.getInst (BitVec.toNat i)).reset = some p ∧ p.step < 5 ∧
      s.drained (BitVec.toNat i) p.flr = true ∧ s.ackHeld (BitVec.toNat i) = false) ∧
    (∃ (i : Func) (s : State) (p : ResetProg), s.running = true ∧ (s.getInst (BitVec.toNat i)).reset = some p ∧ p.step < 5 ∧
      (s.drained (BitVec.toNat i) p.flr = false ∨ s.ackHeld (BitVec.toNat i) = true)) ∧
    (∃ (i : Func) (s : State), s.running = true ∧ (s.getInst (BitVec.toNat i)).reset = none ∧ (s.getFn (BitVec.toNat i)).flr = true ∧
      ((s.clearFnConfig (BitVec.toNat i)).getFn (BitVec.toNat i)).outSlots = []) ∧
    (∃ (i : Func) (s : State), s.running = true ∧ (s.getInst (BitVec.toNat i)).reset = none ∧ (s.getFn (BitVec.toNat i)).flr = true ∧
      ((s.clearFnConfig (BitVec.toNat i)).getFn (BitVec.toNat i)).outSlots ≠ []) ∧
    (∃ (i : Func) (s : State), s.running = true ∧ (s.getInst (BitVec.toNat i)).reset = none ∧ (s.getFn (BitVec.toNat i)).flr = false) ∧
    (∃ (s : State), s.Canon ∧ s.running = true) ∧
    (∃ (i : Func) (s : State) (v : State) (p : ResetProg), s.running = true ∧ (s.getInst (BitVec.toNat i)).reset = some p ∧ 5 ≤ p.step ∧
      p.cause = 5 ∧ (v = ({ s with oldOps := List.filter (fun o => decide (o.fst ≠ BitVec.toNat i)) s.oldOps } : State).modInst (BitVec.toNat i) fun r => { r with reset := none })) :=
  ⟨⟨255, (wI { wInst with state := .resetting, reset := some ⟨1, 4, [], false, 0, 0⟩ }), _, by decide, rfl, by decide, by decide, by decide⟩,
   ⟨255, { wI { wInst with state := .resetting, reset := some ⟨1, 2, [], false, 0, 0⟩ } with reads := [⟨0, 255, 0, 32, .doorbell⟩] }, _, by decide,
      rfl, by decide, by decide⟩,
   ⟨255, (wF { wFn with flr := true }), by decide, by decide, by decide, by decide⟩,
   ⟨255, (wF { wFn with flr := true, outSlots := [(0, ⟨1, 1, 0, [], 1, none⟩)] }), by decide, by decide, by decide, by decide⟩,
   ⟨0, (wI { wInst with state := .resetting, reset := some ⟨1, 4, [], false, 0, 0⟩ }), by decide, by decide, by decide⟩,
   ⟨(wI { wInst with state := .resetting, reset := some ⟨1, 4, [], false, 0, 0⟩ }), canon_of (by decide), by decide⟩,
   ⟨255, (wI { wInst with state := .draining, reset := some ⟨5, 5, [], false, 0, 0⟩ }), _, _, by decide, rfl, by decide, by decide, rfl⟩⟩

theorem witness_SpdmAndIdeKeyManagement :
    (∃ (size : Nat) (s : State), s.cfgOpen 0 = true ∧ 4096 < size) ∧
    (∃ (size : Nat) (s : State) (v : Nat), s.cfgOpen 0 = true ∧ size ≤ 4096 ∧ (v = 17 ∨ v = 18)) ∧
    (∃ (size : Nat) (s : State) (v : Nat), s.cfgOpen 0 = true ∧ size ≤ 4096 ∧ v ≠ 17 ∧ v ≠ 18) ∧
    (∃ (size : Nat) (s : State) (k : Nat), s.cfgOpen 0 = true ∧ size ≤ 4096 ∧ k < 3) ∧
    (∃ (size : Nat) (s : State) (k : Nat), s.cfgOpen 0 = true ∧ size ≤ 4096 ∧ 3 ≤ k) ∧
    (∃ (size : Nat) (s : State) (req : SpdmReq), s.cfgOpen 0 = true ∧ size ≤ 4096 ∧ req ∈ [SpdmReq.getDigests, SpdmReq.getCertificate 0,
      SpdmReq.challenge 0]) ∧
    (∃ (size : Nat) (s : State) (k : Fin 8), s.cfgOpen 0 = true ∧ size ≤ 4096 ∧ k ≠ 0) ∧
    (∃ (size : Nat) (s : State) (n : Nat), s.cfgOpen 0 = true ∧ size ≤ 4096 ∧ s.freeSession = some n) ∧
    (∃ (size : Nat) (s : State), s.cfgOpen 0 = true ∧ size ≤ 4096 ∧ s.freeSession = none) ∧
    (∃ (size : Nat) (s : State) (n : Nat), s.cfgOpen 0 = true ∧ size ≤ 4096 ∧ (n, false) ∈ s.sec.sessions) ∧
    (∃ (sec : Bool) (size : Nat) (s : State) (n : Nat), s.cfgOpen 0 = true ∧ size ≤ 4096 ∧ sec = true ∧ s.established n = true) ∧
    (∃ (sec : Bool) (size : Nat) (s : State) (n : Nat), s.cfgOpen 0 = true ∧ size ≤ 4096 ∧ (sec = false ∨ s.established n = false)) ∧
    (∃ (s : State), s.cfgOpen 0 = true) ∧
    (∃ (s : State), s.cfgOpen 0 = false) ∧
    (∃ (session : Nat) (s : State) (sub : SubStream) (tx : Bool) (set : Fin 2) (d : IdeDir), s.cfgOpen 0 = true ∧ s.established session = true ∧
      ((s.dir (dirIndex sub tx)).key set.val).isSome = true ∧ d = (s.dir (dirIndex sub tx)).setLive (set.val) true ∧
      dirIndex sub tx < s.sec.dirs.length) ∧
    (∃ (session : Nat) (s : State) (sub : SubStream) (tx : Bool) (set : Fin 2), s.cfgOpen 0 = true ∧ s.established session = true ∧
      ((s.dir (dirIndex sub tx)).key set.val).isSome = false) ∧
    (∃ (session : Nat) (s : State), (s.cfgOpen 0 = false ∨ s.established session = false)) :=
  ⟨⟨4097, { wS with sec := { wS.sec with sessions := [(0, true), (1, true)] } }, by decide, by decide⟩,
   ⟨4096, wS, 18, by decide, by decide, by decide⟩,
   ⟨4096, { wS with sec := { wS.sec with sessions := [(0, true), (1, true)] } }, 0, by decide, by decide, by decide, by decide⟩,
   ⟨4096, { wS with sec := { wS.sec with sessions := [(0, true), (1, true)] } }, 0, by decide, by decide, by decide⟩,
   ⟨4096, { wS with sec := { wS.sec with sessions := [(0, true), (1, true)] } }, 7, by decide, by decide, by decide⟩,
   ⟨4096, { wS with sec := { wS.sec with sessions := [(0, true), (1, true)] } }, (.challenge 0), by decide, by decide, by decide⟩,
   ⟨4096, { wS with sec := { wS.sec with sessions := [(0, true), (1, true)] } }, 7, by decide, by decide, by decide⟩,
   ⟨4096, { wS with sec := { wS.sec with sessions := [(1, true)], dirs := List.replicate 6 ⟨none, some 9, 0, false, false, false, false, false⟩ } },
      _, by decide, by decide, rfl⟩,
   ⟨4096, { wS with sec := { wS.sec with sessions := [(0, true), (1, true)] } }, by decide, by decide, by decide⟩,
   ⟨4096, { wS with sec := { wS.sec with sessions := [(0, false)] } }, 0, by decide, by decide, by decide⟩,
   ⟨true, 4096, { wS with sec := { wS.sec with sessions := [(0, true), (1, true)] } }, 0, by decide, by decide, by decide, by decide⟩,
   ⟨false, 4096, { wS with sec := { wS.sec with sessions := [(0, true), (1, true)] } }, 0, by decide, by decide, by decide⟩,
   ⟨{ wS with sec := { wS.sec with sessions := [(0, true), (1, true)] } }, by decide⟩,
   ⟨{ wS with hlt := { wS.hlt with halt := some ⟨1, 0, none, 0, 0, 0, 0, 65535, false, 0, 0, false, false⟩ } }, by decide⟩,
   ⟨1, { wS with sec := { wS.sec with sessions := [(1, true)], dirs := List.replicate 6 ⟨none, some 9, 0, false, false, false, false, false⟩ } },
      .completion, true, 1, _, by decide, by decide, by decide, rfl, by decide⟩,
   ⟨1, { wS with sec := { wS.sec with sessions := [(0, true), (1, true)] } }, .completion, true, 1, by decide, by decide, by decide⟩,
   ⟨2, { wS with sec := { wS.sec with sessions := [(0, true), (1, true)] } }, by decide⟩⟩

theorem witness_IdeTraffic :
    (∃ (sub : SubStream) (k : Fin 2) (chk : TlpCheck) (s : State), s.running = true ∧ s.sec.secure = true ∧ s.tlpFailure sub k chk = none) ∧
    (∃ (sub : SubStream) (k : Fin 2) (chk : TlpCheck) (s : State) (c : HaltCause), s.running = true ∧ s.sec.secure = true ∧
      s.tlpFailure sub k chk = some c) ∧
    (∃ (s : State), s.sec.secure = false) ∧
    (∃ (s : State), s.serving = true ∧ s.sec.secure = true) ∧
    (∃ (v : Word) (s : State), s.cfgOpen 0 = true ∧ fld v 0 1 = 1) ∧
    (∃ (v : Word) (s : State), s.cfgOpen 0 = true ∧ fld v 0 1 = 0) ∧
    (∃ (s : State), s.cfgOpen 0 = false) :=
  ⟨⟨.completion, 1, .good, { wS with sec := { wS.sec with secure := true, dirs := List.replicate 6 ⟨none, some 9, 1, false, true, false, false, false⟩ } }, by decide, by decide, by decide⟩,
   ⟨.completion, 1, .macFail, { wS with sec := { wS.sec with secure := true, dirs := List.replicate 6 ⟨none, some 9, 1, false, true, false, false, false⟩ } }, _, by decide, by decide, rfl⟩,
   ⟨wS, by decide⟩,
   ⟨{ wS with sec := { wS.sec with secure := true, dirs := List.replicate 6 ⟨none, some 9, 1, false, true, false, false, false⟩ } }, by decide,
      by decide⟩,
   ⟨1, { wS with sec := { wS.sec with secure := true, dirs := List.replicate 6 ⟨none, some 9, 1, false, true, false, false, false⟩ } }, by decide,
      by decide⟩,
   ⟨0, { wS with sec := { wS.sec with secure := true, dirs := List.replicate 6 ⟨none, some 9, 1, false, true, false, false, false⟩ } }, by decide,
      by decide⟩,
   ⟨{ wS with hlt := { wS.hlt with halt := some ⟨1, 0, none, 0, 0, 0, 0, 65535, false, 0, 0, false, false⟩ } }, by decide⟩⟩

theorem witness_SealingHealth :
    (∃ (s : State), s.running = true ∧ Cf.SEA_CTL_selftest_min s = 0) ∧
    (∃ (s : State), s.running = true ∧ Cf.SEA_CTL_selftest_min s ≠ 0) ∧
    (∃ (s : State), s.running = true ∧ 65536 ≤ s.sea.drbgCount) ∧
    (∃ (s : State), s.sea.drbgCount < 65536) ∧
    (∃ (s : State), s.running = true ∧ s.sea.rngOk = true) ∧
    (∃ (s : State), s.running = true ∧ s.sea.rngOk = false) ∧
    (∃ (v : Word) (s : State), s.barOpen 0 = true ∧ fld v 0 1 = 1) ∧
    (∃ (v : Word), fld v 0 1 = 0) :=
  ⟨⟨wS, by decide, by decide⟩,
   ⟨{ wS with liveSet := [(Reg.SEA_CTL, 1#32)] }, by decide, by decide⟩,
   ⟨{ wS with sea := { wS.sea with drbgCount := 65536 } }, by decide, by decide⟩,
   ⟨{ wS with liveSet := [(Reg.SEA_CTL, 1#32)] }, by decide⟩,
   ⟨{ wS with liveSet := [(Reg.SEA_CTL, 1#32)] }, by decide, by decide⟩,
   ⟨State.reset, by decide, by decide⟩,
   ⟨1, { wS with liveSet := [(Reg.SEA_CTL, 1#32)] }, by decide, by decide⟩,
   ⟨0, by decide⟩⟩

theorem witness_SettingsAndFirmware :
    (∃ (id : Nat) (s : State) (c : Cmd), s.Runs id Op.store c ∧ ePtr c.entry ≠ 0) ∧
    (∃ (id : Nat) (s : State) (c : Cmd), s.Runs id Op.store c ∧ ePtr c.entry = 0) ∧
    (∃ (id : Nat) (s : State) (c : Cmd), s.Runs id Op.stage c ∧ (eArg0 c.entry ≠ 0 ∧
      eArg0 c.entry ≠ s.fw.staged ∨ 524288 < eArg0 c.entry + eLen c.entry)) ∧
    (∃ (id : Nat) (s : State) (c : Cmd) (u : State), s.Runs id Op.stage c ∧ (eArg0 c.entry = 0 ∨ eArg0 c.entry = s.fw.staged) ∧
      eArg0 c.entry + eLen c.entry ≤ 524288 ∧ eByte c.entry 44 % 2 = 0 ∧
      (u = if eArg0 c.entry = 0 then (s.setFor c).beginStage (1 - s.boot.slot) else s.setFor c)) ∧
    (∃ (id : Nat) (s : State) (c : Cmd) (u : State) (v : State) (k : Nat), s.Runs id Op.stage c ∧ k = 1 - s.boot.slot ∧
      (eArg0 c.entry = 0 ∨ eArg0 c.entry = s.fw.staged) ∧ eArg0 c.entry + eLen c.entry ≤ 524288 ∧ eByte c.entry 44 % 2 = 1 ∧
      (u = (if eArg0 c.entry = 0 then (s.setFor c).beginStage k else s.setFor c).setImage k ((if eArg0 c.entry = 0 then (s.setFor c).beginStage k else s.setFor c).image k ++ c.data)) ∧ v = { u with fw := { u.fw with staged := eArg0 c.entry + eLen c.entry } }) ∧
    (∃ (id : Nat) (s : State) (c : Cmd) (r : SlotRec) (slot : Nat), s.Runs id Op.activate c ∧ r = s.slotRecord.fst ∧ slot = eByte c.entry 44 ∧
      bitN r.valid slot = false) ∧
    (∃ (id : Nat) (s : State) (c : Cmd) (r : SlotRec) (slot : Nat), s.Runs id Op.activate c ∧ r = s.slotRecord.fst ∧ slot = eByte c.entry 44 ∧
      bitN r.valid slot = true ∧ slot = s.boot.slot) ∧
    (∃ (id : Nat) (s : State) (c : Cmd) (r : SlotRec) (slot : Nat), s.Runs id Op.activate c ∧ r = s.slotRecord.fst ∧ slot = eByte c.entry 44 ∧
      bitN r.valid slot = true ∧ slot ≠ s.boot.slot) :=
  ⟨⟨1, (wRun 0x4C 1 0 0 0 0 0), _, ⟨by decide, rfl, by decide, by decide⟩, by decide⟩,
   ⟨1, (wRun 0x4C 0 0 0 0 0 0), _, ⟨by decide, rfl, by decide, by decide⟩, by decide⟩,
   ⟨1, (wRun 0x4E 1 1 0 0 0 0), _, ⟨by decide, rfl, by decide, by decide⟩, by decide⟩,
   ⟨1, (wRun 0x4E 1 0 0 0 0 0), _, _, ⟨by decide, rfl, by decide, by decide⟩, by decide +kernel, by decide +kernel, by decide +kernel, rfl⟩,
   ⟨1, (wRun 0x4E 1 0 0 0 0 1), _, _, _, _, ⟨by decide, rfl, by decide, by decide⟩, rfl, by decide, by decide, by decide, rfl, rfl⟩,
   ⟨1, { wS.writeSlot ⟨0, 0, 0, 0, 1, 1, 1, 0, 0⟩ with cmds := [wCmd (wEntry 0x4F 0 0 0 0 0 1)] }, _, _, _, ⟨by decide, rfl, by decide, by decide⟩,
      rfl, rfl, by decide +kernel⟩,
   ⟨1, { wS.writeSlot ⟨0, 0, 0, 0, 3, 1, 1, 0, 0⟩ with cmds := [wCmd (wEntry 0x4F 0 0 0 0 0 0)] }, _, _, _, ⟨by decide, rfl, by decide, by decide⟩,
      rfl, rfl, by decide +kernel, by decide +kernel⟩,
   ⟨1, { wS.writeSlot ⟨0, 0, 0, 0, 3, 1, 1, 0, 0⟩ with cmds := [wCmd (wEntry 0x4F 0 0 0 0 0 1)] }, _, _, _, ⟨by decide, rfl, by decide, by decide⟩,
      rfl, rfl, by decide +kernel, by decide +kernel⟩⟩

theorem witness_ReadCommandAndHostReads :
    (∃ (id : Nat) (bad : List Nat) (s : State) (c : Cmd) (l : List (Nat × Nat × Nat)) (u : State) (d : Cmd), s.Runs id Op.read c ∧
      State.lookupRun (BitVec.toNat c.fn) id bad (eArg1 c.entry) (eArg0 c.entry) (s.setFor c) = (l, u) ∧
      d = { c with stage := Stage.media, placed := l }) ∧
    (∃ (id : Nat) (s : State) (c : Cmd) (addr : BitVec 40) (a : Nat), s.Runs id Op.read c ∧ a = addr.toNat / 64 * 64 ∧ s.sea.sweepLines ≤ a / 64) ∧
    (∃ (id : Nat) (s : State) (c : Cmd) (addr : BitVec 40) (first : List Byte) (a : Nat), s.Runs id Op.read c ∧ a = addr.toNat / 64 * 64 ∧
      a / 64 < s.sea.sweepLines ∧ s.linePasses a first = true) ∧
    (∃ (id : Nat) (s : State) (c : Cmd) (addr : BitVec 40) (first : List Byte) (again : List Byte) (a : Nat), s.Runs id Op.read c ∧
      a = addr.toNat / 64 * 64 ∧ a / 64 < s.sea.sweepLines ∧ s.linePasses a first = false ∧ s.linePasses a again = true) ∧
    (∃ (id : Nat) (s : State) (c : Cmd) (addr : BitVec 40) (first : List Byte) (again : List Byte) (a : Nat), s.Runs id Op.read c ∧
      a = addr.toNat / 64 * 64 ∧ a / 64 < s.sea.sweepLines ∧ s.linePasses a first = false ∧ s.linePasses a again = false) ∧
    (∃ (id : Nat) (s : State) (c : Cmd), s.serving = true ∧ s.findCmd id = some c ∧ eOp c.entry = some Op.read ∧ c.stage = Stage.media) ∧
    (∃ (id : Nat) (s : State), (s.findCmd id = none ∨ ∃ c, s.findCmd id = some c ∧ eOp c.entry ≠ some Op.read)) ∧
    (∃ (line : Nat) (s : State) (l : LeafFetch), s.serving = true ∧ (List.find? (fun l => decide (l.line = line)) s.fetches = some l) ∧
      l.failed = true) ∧
    (∃ (line : Nat) (s : State) (l : LeafFetch), s.serving = true ∧ (List.find? (fun l => decide (l.line = line)) s.fetches = some l) ∧
      l.failed = false ∧ l.passed = true ∧ s.fillWaits (l.line * 64) = false) ∧
    (∃ (line : Nat) (s : State) (l : LeafFetch), s.serving = true ∧ (List.find? (fun l => decide (l.line = line)) s.fetches = some l) ∧
      l.failed = false ∧ (l.passed = false ∨ s.fillWaits (l.line * 64) = true)) ∧
    (∃ (line : Nat) (s : State), (List.find? (fun l => decide (l.line = line)) s.fetches = none)) ∧
    (∃ (tag : Nat) (s : State) (r : DmaRead), s.serving = true ∧ s.findRead tag = some r) ∧
    (∃ (tag : Nat) (s : State) (r : DmaRead), s.serving = true ∧ s.findRead tag = some r ∧ (s.getFn (BitVec.toNat r.fn)).cfg.ctoDis = true) ∧
    (∃ (tag : Nat) (s : State) (r : DmaRead) (u : State), s.serving = true ∧ s.findRead tag = some r ∧
      (s.getFn (BitVec.toNat r.fn)).cfg.ctoDis = false ∧ u = (s.dropRead tag).aerReport r.fn 14) ∧
    (∃ (tag : Nat) (s : State), s.findRead tag = none) :=
  ⟨⟨1, [], (wRun 2 0 0 1 0 0 0), _, _, _, _, ⟨by decide, rfl, by decide, by decide⟩, rfl, rfl⟩,
   ⟨1, (wRun 2 0 0 1 0 0 0), _, 0, _, ⟨by decide, rfl, by decide, by decide⟩, rfl, by decide⟩,
   ⟨1, { (wRun 2 0 0 1 0 0 0) with sea := { wS.sea with sweepLines := 64 } }, _, 63, (wLine wS 0), _, ⟨by decide, rfl, by decide, by decide⟩, rfl,
      by decide, wLine_passes wS 0⟩,
   ⟨1, { (wRun 2 0 0 1 0 0 0) with sea := { wS.sea with sweepLines := 64 } }, _, 63, [], (wLine wS 0), _, ⟨by decide, rfl, by decide, by decide⟩,
      rfl, by decide, nil_fails _ _, wLine_passes wS 0⟩,
   ⟨1, { (wRun 2 0 0 1 0 0 0) with sea := { wS.sea with sweepLines := 64 } }, _, 63, [], [], _, ⟨by decide, rfl, by decide, by decide⟩, rfl,
      by decide, nil_fails _ _, nil_fails _ _⟩,
   ⟨1, { wS with cmds := [{ wCmd (wEntry 2 0 0 1 0 0 0) with stage := .media }] }, _, by decide, rfl, by decide, by decide⟩,
   ⟨0, (wRun 2 0 0 1 0 0 0), by decide⟩,
   ⟨5, { wS with fetches := [⟨5, 1, true, false, [], [], none, false⟩] }, _, by decide, rfl, by decide⟩,
   ⟨5, { wS with fetches := [⟨5, 1, false, false, [], [], none, true⟩] }, _, by decide, rfl, by decide, by decide, by decide⟩,
   ⟨5, { wS with fetches := [⟨5, 1, false, false, [], [], none, false⟩] }, _, by decide, rfl, by decide, by decide⟩,
   ⟨5, (wRun 2 0 0 1 0 0 0), by decide⟩,
   ⟨9, { wS with reads := [⟨9, 255, 0, 64, .data 1⟩] }, _, by decide, rfl⟩,
   ⟨9, { wF { wFn with cfg := { wFn.cfg with ctoDis := true } } with reads := [⟨9, 255, 0, 64, .data 1⟩] }, _, by decide, rfl, by decide⟩,
   ⟨9, { wS with reads := [⟨9, 255, 0, 64, .data 1⟩] }, _, _, by decide, rfl, by decide, rfl⟩,
   ⟨9, (wRun 2 0 0 1 0 0 0), by decide⟩⟩

theorem witness_WriteCommand :
    (∃ (id : Nat) (s : State) (u : State) (c : Cmd) (r : Instance) (k : Nat), s.serving = true ∧ s.findCmd id = some c ∧
      eOp c.entry = some Op.write ∧ (c.ready = true ∨ c.stage = Stage.space) ∧ s.fss.quiesced = false ∧
      u = (s.setFor c).touchRun (BitVec.toNat c.fn) (eArg0 c.entry) (eArg1 c.entry) ∧ r = u.getInst (BitVec.toNat c.fn) ∧ u.heldIndex c = some k) ∧
    (∃ (id : Nat) (s : State) (u : State) (c : Cmd) (r : Instance), s.serving = true ∧ s.findCmd id = some c ∧ eOp c.entry = some Op.write ∧
      (c.ready = true ∨ c.stage = Stage.space) ∧ s.fss.quiesced = false ∧
      u = (s.setFor c).touchRun (BitVec.toNat c.fn) (eArg0 c.entry) (eArg1 c.entry) ∧ r = u.getInst (BitVec.toNat c.fn) ∧ u.heldIndex c = none ∧
      (u.freeBands < 3 ∨ r.unitDur < r.unitSeq + eArg1 c.entry)) ∧
    (∃ (id : Nat) (s : State) (u : State) (c : Cmd) (r : Instance) (l : List (Nat × Nat × Nat)) (v : State), s.serving = true ∧
      s.findCmd id = some c ∧ eOp c.entry = some Op.write ∧ (c.ready = true ∨ c.stage = Stage.space) ∧ s.fss.quiesced = false ∧
      u = (s.setFor c).touchRun (BitVec.toNat c.fn) (eArg0 c.entry) (eArg1 c.entry) ∧ r = u.getInst (BitVec.toNat c.fn) ∧ u.heldIndex c = none ∧
      3 ≤ u.freeBands ∧ r.unitSeq + eArg1 c.entry ≤ r.unitDur ∧
      sealRun c (r.keySerial.getD 0) (eArg1 c.entry) 0 (eArg1 c.entry) 0 c.data u = some (l, v)) ∧
    (∃ (id : Nat) (s : State) (u : State) (c : Cmd) (r : Instance), s.serving = true ∧ s.findCmd id = some c ∧ eOp c.entry = some Op.write ∧
      (c.ready = true ∨ c.stage = Stage.space) ∧ s.fss.quiesced = false ∧
      u = (s.setFor c).touchRun (BitVec.toNat c.fn) (eArg0 c.entry) (eArg1 c.entry) ∧ r = u.getInst (BitVec.toNat c.fn) ∧ u.heldIndex c = none ∧
      3 ≤ u.freeBands ∧ r.unitSeq + eArg1 c.entry ≤ r.unitDur ∧ sealRun c (r.keySerial.getD 0) (eArg1 c.entry) 0 (eArg1 c.entry) 0 c.data u = none) ∧
    (∃ (id : Nat) (s : State) (u : State) (c : Cmd) (r : Instance) (addr : BitVec 40) (a : Nat), s.serving = true ∧ s.findCmd id = some c ∧
      eOp c.entry = some Op.write ∧ (c.ready = true ∨ c.stage = Stage.space) ∧ s.fss.quiesced = false ∧
      u = (s.setFor c).touchRun (BitVec.toNat c.fn) (eArg0 c.entry) (eArg1 c.entry) ∧ r = u.getInst (BitVec.toNat c.fn) ∧ a = addr.toNat / 64 * 64 ∧
      s.sea.sweepLines ≤ a / 64) ∧
    (∃ (id : Nat) (s : State) (u : State) (c : Cmd) (r : Instance) (addr : BitVec 40) (first : List Byte) (again : List Byte) (a : Nat),
      s.serving = true ∧ s.findCmd id = some c ∧ eOp c.entry = some Op.write ∧ (c.ready = true ∨ c.stage = Stage.space) ∧ s.fss.quiesced = false ∧
      u = (s.setFor c).touchRun (BitVec.toNat c.fn) (eArg0 c.entry) (eArg1 c.entry) ∧ r = u.getInst (BitVec.toNat c.fn) ∧ a = addr.toNat / 64 * 64 ∧
      a / 64 < s.sea.sweepLines ∧ s.linePasses a first = false ∧ s.linePasses a again = true) ∧
    (∃ (id : Nat) (s : State) (u : State) (c : Cmd) (r : Instance) (addr : BitVec 40) (first : List Byte) (a : Nat), s.serving = true ∧
      s.findCmd id = some c ∧ eOp c.entry = some Op.write ∧ (c.ready = true ∨ c.stage = Stage.space) ∧ s.fss.quiesced = false ∧
      u = (s.setFor c).touchRun (BitVec.toNat c.fn) (eArg0 c.entry) (eArg1 c.entry) ∧ r = u.getInst (BitVec.toNat c.fn) ∧ a = addr.toNat / 64 * 64 ∧
      a / 64 < s.sea.sweepLines ∧ s.linePasses a first = true) ∧
    (∃ (id : Nat) (s : State) (u : State) (c : Cmd) (r : Instance) (addr : BitVec 40) (first : List Byte) (again : List Byte) (a : Nat),
      s.serving = true ∧ s.findCmd id = some c ∧ eOp c.entry = some Op.write ∧ (c.ready = true ∨ c.stage = Stage.space) ∧ s.fss.quiesced = false ∧
      u = (s.setFor c).touchRun (BitVec.toNat c.fn) (eArg0 c.entry) (eArg1 c.entry) ∧ r = u.getInst (BitVec.toNat c.fn) ∧ a = addr.toNat / 64 * 64 ∧
      a / 64 < s.sea.sweepLines ∧ s.linePasses a first = false ∧ s.linePasses a again = false) ∧
    (∃ (id : Nat) (s : State), (s.fss.quiesced = true ∨ s.findCmd id = none)) ∧
    (∃ (id : Nat) (s : State) (c : Cmd), s.serving = true ∧ s.findCmd id = some c ∧ c.stage = Stage.space ∧ c.since + 10000 ≤ s.tm.mono) ∧
    (∃ (id : Nat) (s : State) (c : Cmd), s.serving = true ∧ s.findCmd id = some c ∧ (c.stage ≠ Stage.space ∨ s.tm.mono < c.since + 10000)) :=
  ⟨⟨1, { wS with cmds := [{ wCmd (wEntry 1 1 8 2 0 0 0) with minHold := 1000001 }], fss := { wS.fss with map := [(mapKey 0 9, 5)] } }, _, _, _, _,
      by decide, rfl, by decide, by decide, by decide, rfl, rfl, rfl⟩,
   ⟨1, { wS with cmds := [wCmd (wEntry 1 1 8 2 0 0 0)], fss := { wS.fss with blocksPerDie := 2 } }, _, _, _, by decide, rfl, by decide, by decide,
      by decide, rfl, rfl, by decide, by decide⟩,
   ⟨1, { wS with cmds := [wCmd (wEntry 1 1 8 1 0 0 0)], fss := { wS.fss with fill := [⟨28, .host, [], [], false⟩] }, sea := { wS.sea with sweepLines := 64 } }, _, _, _, _, _, by decide, rfl, by decide, by decide, by decide, rfl, rfl, by decide, by decide, by decide, rfl⟩,
   ⟨1, { wS with cmds := [{ wCmd (wEntry 1 1 8 2 0 0 0) with stage := .space }] }, _, _, _, by decide, rfl, by decide, by decide, by decide, rfl,
      rfl, by decide, by decide, by decide, by decide⟩,
   ⟨1, { wS with cmds := [{ wCmd (wEntry 1 1 8 2 0 0 0) with minHold := 1000001 }], fss := { wS.fss with map := [(mapKey 0 9, 5)] } }, _, _, _, 0,
      _, by decide, rfl, by decide, by decide, by decide, rfl, rfl, rfl, by decide⟩,
   ⟨1, { wS with cmds := [wCmd (wEntry 1 1 8 1 0 0 0)], fss := { wS.fss with fill := [⟨28, .host, [], [], false⟩] }, sea := { wS.sea with sweepLines := 64 } }, _, _, _, 63, [], (wLine wS 0), _, by decide, rfl, by decide, by decide, by decide, rfl, rfl, rfl, by decide, nil_fails _ _, wLine_passes wS 0⟩,
   ⟨1, { wS with cmds := [wCmd (wEntry 1 1 8 1 0 0 0)], fss := { wS.fss with fill := [⟨28, .host, [], [], false⟩] }, sea := { wS.sea with sweepLines := 64 } }, _, _, _, 63, (wLine wS 0), _, by decide, rfl, by decide, by decide, by decide, rfl, rfl, rfl, by decide, wLine_passes wS 0⟩,
   ⟨1, { wS with cmds := [wCmd (wEntry 1 1 8 1 0 0 0)], fss := { wS.fss with fill := [⟨28, .host, [], [], false⟩] }, sea := { wS.sea with sweepLines := 64 } }, _, _, _, 63, [], [], _, by decide, rfl, by decide, by decide, by decide, rfl, rfl, rfl, by decide, nil_fails _ _, nil_fails _ _⟩,
   ⟨0, { wS with cmds := [{ wCmd (wEntry 1 1 8 2 0 0 0) with minHold := 1000001 }], fss := { wS.fss with map := [(mapKey 0 9, 5)] } }, by decide⟩,
   ⟨1, { wS with cmds := [{ wCmd (wEntry 1 1 8 2 0 0 0) with stage := .space }] }, _, by decide, rfl, by decide, by decide⟩,
   ⟨1, { wS with cmds := [{ wCmd (wEntry 1 1 8 2 0 0 0) with minHold := 1000001 }], fss := { wS.fss with map := [(mapKey 0 9, 5)] } }, _, by decide,
      rfl, by decide⟩⟩

theorem witness_DiscardFlushAndReports :
    (∃ (id : Nat) (s : State) (u : State) (c : Cmd) (i : Nat) (l : List Nat) (k : Nat), s.Runs id Op.discard c ∧ i = BitVec.toNat c.fn ∧
      u = (s.setFor c).touchRun i (eArg0 c.entry) (eArg1 c.entry) ∧ l = u.mappedRun i (eArg0 c.entry) (eArg1 c.entry) ∧ u.heldIndex c = some k) ∧
    (∃ (id : Nat) (s : State) (u : State) (c : Cmd) (i : Nat) (l : List Nat) (w : State) (x : State), s.Runs id Op.discard c ∧
      i = BitVec.toNat c.fn ∧ u = (s.setFor c).touchRun i (eArg0 c.entry) (eArg1 c.entry) ∧ l = u.mappedRun i (eArg0 c.entry) (eArg1 c.entry) ∧
      u.heldIndex c = none ∧ (w = forEach l (fun b t => t.mapPut i b puaEmpty) u) ∧
      x = w.jUpdate (JEntry.discard i (eArg0 c.entry) (eArg1 c.entry) (w.getInst i).unitSeq)) ∧
    (∃ (id : Nat) (s : State) (c : Cmd), s.Runs id Op.flush c ∧ (((earlier c.id s.cmds).any fun a => decide (a.fn = c.fn ∧
      a.stage ≠ Stage.due)) = true)) ∧
    (∃ (id : Nat) (s : State) (c : Cmd), s.Runs id Op.flush c ∧ (((earlier c.id s.cmds).any fun a => decide (a.fn = c.fn ∧
      a.stage ≠ Stage.due)) = false)) ∧
    (∃ (id : Nat) (s : State), s.findCmd id = none) ∧
    (∃ (id : Nat) (s : State) (c : Cmd) (q : Nat) (r : List LogEntry × Nat), s.Runs id Op.getLog c ∧ q = eArg0 c.entry % 2 ^ 32 ∧
      (r = logTake (BitVec.toNat c.fn) (eLen c.entry / 32) s.log.next (if serialAfter s.log.next q = true then List.filter (fun e => !serialAfter q e.seq) s.wholeLog else []))) ∧
    (∃ (id : Nat) (s : State) (c : Cmd) (i : Nat) (l : List Period), s.Runs id Op.getUsage c ∧
      (i = if c.fn = 0 then eTarget c.entry else BitVec.toNat c.fn) ∧
      l = List.take (eArg1 c.entry / 256 % 256) (List.drop (eArg1 c.entry % 256) (s.getInst i).usage)) :=
  ⟨⟨1, { wS with cmds := [{ wCmd (wEntry 3 0 8 2 0 0 0) with legalHold := true }], fss := { wS.fss with map := [(mapKey 0 9, 5)] } }, _, _, _, _, _,
      ⟨by decide, rfl, by decide, by decide⟩, rfl, rfl, rfl, rfl⟩,
   ⟨1, { wS with cmds := [{ wCmd (wEntry 3 0 8 2 0 0 0) with minHold := 1000000 }], fss := { wS.fss with map := [(mapKey 0 9, 5)] } }, _, _, _, _,
      _, _, ⟨by decide, rfl, by decide, by decide⟩, rfl, rfl, rfl, by decide, rfl, rfl⟩,
   ⟨1, { wS with cmds := [{ wCmd (wEntry 1 1 8 2 0 0 0) with id := 0 }, wCmd (wEntry 4 0 0 0 0 0 0)] }, _, ⟨by decide, rfl, by decide, by decide⟩,
      by decide⟩,
   ⟨1, (wRun 4 0 0 0 0 0 0), _, ⟨by decide, rfl, by decide, by decide⟩, by decide⟩,
   ⟨0, { wS with cmds := [{ wCmd (wEntry 3 0 8 2 0 0 0) with legalHold := true }], fss := { wS.fss with map := [(mapKey 0 9, 5)] } }, by decide⟩,
   ⟨1, (wRun 9 1 0 0 32 0 0), _, _, _, ⟨by decide, rfl, by decide, by decide⟩, rfl, rfl⟩,
   ⟨1, (wRun 10 1 0 0 0 255 0), _, _, _, ⟨by decide, rfl, by decide, by decide⟩, rfl, rfl⟩⟩

theorem witness_CommitSegment :
    (∃ (id : Nat) (s : State) (c : Cmd), s.Runs id Op.commit c ∧ (1024 ≤ s.segCount (BitVec.toNat c.fn) ∨ 16384 ≤ s.fss.segs.length)) ∧
    (∃ (id : Nat) (s : State) (c : Cmd), s.Runs id Op.commit c ∧ s.segCount (BitVec.toNat c.fn) < 1024 ∧ s.fss.segs.length < 16384 ∧ s.Canon) :=
  ⟨⟨1, { wS with cmds := [wCmd (wEntry 5 0 0 8 0 0 0)], fss := { wS.fss with segs := List.replicate 1024 wSeg } }, _, ⟨by decide, rfl, by decide,
      by decide⟩, by decide +kernel⟩,
   ⟨1, (wRun 5 0 0 8 0 0 0), _, ⟨by decide, rfl, by decide, by decide⟩, by decide, by decide, canon_of (by decide)⟩⟩

theorem witness_EventLogKeeping :
    (∃ (s : State), s.running = true ∧ (∀ (w : Fold), w ∈ s.log.folds → w.ends ≤ s.tm.mono → w.count = 0)) ∧
    (∃ (s : State) (w : Fold), s.running = true ∧ s.log.folds = [w] ∧ w.ends ≤ s.tm.mono ∧ w.count ≠ 0) ∧
    (∃ (s : State) (l : List Fold), s.running = true ∧ (l = List.filter (fun w => decide (w.ends ≤ s.tm.mono)) s.log.folds)) ∧
    (∃ (s : State), s.running = true ∧ s.mounted = true ∧ s.log.unmirrored ≠ s.log.next) ∧
    (∃ (s : State), (s.mounted = false ∨ s.log.unmirrored = s.log.next)) ∧
    (∃ (s : State) (e : LogEntry) (r : List LogEntry), s.Canon ∧ s.running = true ∧ s.log.critical = e :: r) ∧
    (∃ (s : State), s.log.critical = []) ∧
    (∃ (s : State), s.running = true ∧ s.tm.valid = true) ∧
    (∃ (s : State), s.tm.valid = false) ∧
    (∃ (s : State), s.running = true ∧ s.ctr 4 ≤ s.tm.mono) ∧
    (∃ (s : State), s.tm.mono < s.ctr 4) :=
  ⟨⟨{ wS with log := { wS.log with next := 1, ring := [⟨0, .linkDown, none, 0, false, false, 0, 0, 0⟩] } }, by decide, by decide⟩,
   ⟨{ wS with log := { wS.log with folds := [⟨.linkDown, none, 1, 0, 1000000000⟩] } }, ⟨.linkDown, none, 1, 0, 1000000000⟩, by decide, by decide,
      by decide, by decide⟩,
   ⟨{ wS with log := { wS.log with folds := [⟨.linkDown, none, 1, 0, 1000000000⟩] } }, _, by decide, rfl⟩,
   ⟨{ wS with log := { wS.log with next := 1, ring := [⟨0, .linkDown, none, 0, false, false, 0, 0, 0⟩] } }, by decide, by decide, by decide⟩,
   ⟨{ wS with log := { wS.log with folds := [⟨.linkDown, none, 1, 0, 1000000000⟩] } }, by decide⟩,
   ⟨{ wS with log := { wS.log with critical := [⟨0, .linkDown, none, 0, false, false, 0, 0, 0⟩] } }, _, _, canon_of (by decide), by decide, rfl⟩,
   ⟨{ wS with log := { wS.log with folds := [⟨.linkDown, none, 1, 0, 1000000000⟩] } }, by decide⟩,
   ⟨{ wS with log := { wS.log with folds := [⟨.linkDown, none, 1, 0, 1000000000⟩] } }, by decide, by decide⟩,
   ⟨State.reset, by decide⟩,
   ⟨{ wS with log := { wS.log with folds := [⟨.linkDown, none, 1, 0, 1000000000⟩] } }, by decide +kernel, by decide +kernel⟩,
   ⟨(wS.ctrStore 4 1000000001), by decide +kernel⟩⟩

theorem witness_NandPrograms :
    (∃ (pua : Nat) (s : State) (p : PageProg) (u : State) (v : State) (w : State), s.running = true ∧ s.programOf pua = some p ∧
      (u = (({ s with fss := { s.fss with progs := List.filter (fun x => decide (x.pua ≠ p.pua)) s.fss.progs } } : State).storeUnits p.pua p.units).dieOk (puaDie p.pua)) ∧ (v = if p.units = [] then u.parityDone p.pua else u) ∧ (w = if Option.any (fun r => decide (r.pua / 4 = p.pua / 4)) v.fss.rootWait = true then v.rootLanded else v)) ∧
    (∃ (s : State) (w : RootWait), s.fss.rootWait = some w) ∧
    (∃ (pua : Nat) (s : State) (p : PageProg) (d : Nat) (b : Nat) (u : State), s.running = true ∧ s.programOf pua = some p ∧ d = puaDie pua ∧
      b = puaBlock s.fss.ppb pua ∧ (u = ({ s with fss := { s.fss with progs := List.filter (fun x => decide (x.pua ≠ pua)) s.fss.progs } } : State).mapBands fun x => if (x.blocks.contains (d, b) && x.isOpen) = true then x.skipDie d else x) ∧ ((u.fss.fill.any fun x => decide (x.role = p.role ∧ puaDie x.pua ≠ d)) = true)) ∧
    (∃ (pua : Nat) (s : State) (p : PageProg) (d : Nat) (b : Nat) (u : State), s.running = true ∧ s.programOf pua = some p ∧ d = puaDie pua ∧
      b = puaBlock s.fss.ppb pua ∧ (u = ({ s with fss := { s.fss with progs := List.filter (fun x => decide (x.pua ≠ pua)) s.fss.progs } } : State).mapBands fun x => if (x.blocks.contains (d, b) && x.isOpen) = true then x.skipDie d else x) ∧ ((u.fss.fill.any fun x => decide (x.role = p.role ∧ puaDie x.pua ≠ d)) = false)) ∧
    (∃ (pua : Nat) (s : State), s.programOf pua = none) ∧
    (∃ (s : State), s.running = true ∧ s.nandOpen = true) ∧
    (∃ (s : State), s.nandOpen = false) :=
  ⟨⟨28, { wS with fss := { wS.fss with progs := [⟨28, .host, [], [], false⟩] } }, _, _, _, _, by decide, rfl, rfl, rfl, rfl⟩,
   ⟨{ wS with fss := { wS.fss with rootWait := some ⟨28, wS.rootSnap⟩ } }, _, rfl⟩,
   ⟨28, { wS with fss := { wS.fss with progs := [⟨28, .host, [], [], false⟩], fill := [⟨mkPua 4 1 0 0 0, .host, [], [], false⟩] } }, _, _, _, _,
      by decide, rfl, rfl, rfl, rfl, by decide⟩,
   ⟨28, { wS with fss := { wS.fss with progs := [⟨28, .host, [], [], false⟩] } }, _, _, _, _, by decide, rfl, rfl, rfl, rfl, by decide⟩,
   ⟨0, { wS with fss := { wS.fss with progs := [⟨28, .host, [], [], false⟩] } }, by decide⟩,
   ⟨{ wS with fss := { wS.fss with progs := [⟨28, .host, [], [], false⟩] } }, by decide, by decide⟩,
   ⟨State.reset, by decide⟩⟩

theorem witness_NandErasesAndReads :
    (∃ (die : Fin 16) (block : BitVec 16) (ok : Bool) (s : State) (u : State) (n : Nat) (w : State), s.running = true ∧
      (s.block (die.val) block.toNat).use = BlockUse.erasing ∧ s.fss.quiesced = false ∧ s.readsBlock (die.val) block.toNat = false ∧
      n = (s.block (die.val) block.toNat).erases + 1 ∧ u = (s.unband (die.val) block.toNat).dieOk die.val ∧
      (w = ({ u with fss := { u.fss with units := List.filter (fun e => !decide (puaDie e.fst = die.val ∧ puaBlock u.fss.ppb e.fst = block.toNat)) u.fss.units } } : State).setBlock (die.val) block.toNat { use := BlockUse.free, erases := n, band := 0, stale := false }) ∧ ok = true ∧ n < Cf.FSS_WL_pe_limit s * 10) ∧
    (∃ (die : Fin 16) (block : BitVec 16) (ok : Bool) (s : State) (u : State) (n : Nat) (w : State), s.running = true ∧
      (s.block (die.val) block.toNat).use = BlockUse.erasing ∧ s.fss.quiesced = false ∧ s.readsBlock (die.val) block.toNat = false ∧
      n = (s.block (die.val) block.toNat).erases + 1 ∧ u = (s.unband (die.val) block.toNat).dieOk die.val ∧
      (w = ({ u with fss := { u.fss with units := List.filter (fun e => !decide (puaDie e.fst = die.val ∧ puaBlock u.fss.ppb e.fst = block.toNat)) u.fss.units } } : State).setBlock (die.val) block.toNat { use := BlockUse.free, erases := n, band := 0, stale := false }) ∧ ok = true ∧ Cf.FSS_WL_pe_limit s * 10 ≤ n) ∧
    (∃ (die : Fin 16) (block : BitVec 16) (ok : Bool) (s : State) (u : State) (n : Nat) (w : State), s.running = true ∧
      (s.block (die.val) block.toNat).use = BlockUse.erasing ∧ s.fss.quiesced = false ∧ s.readsBlock (die.val) block.toNat = false ∧
      n = (s.block (die.val) block.toNat).erases + 1 ∧ u = (s.unband (die.val) block.toNat).dieOk die.val ∧
      (w = ({ u with fss := { u.fss with units := List.filter (fun e => !decide (puaDie e.fst = die.val ∧ puaBlock u.fss.ppb e.fst = block.toNat)) u.fss.units } } : State).setBlock (die.val) block.toNat { use := BlockUse.free, erases := n, band := 0, stale := false }) ∧ ok = false) ∧
    (∃ (die : Fin 16) (block : BitVec 16) (s : State) (u : State) (r : BlockRec), s.running = true ∧ s.fss.quiesced = false ∧
      r = s.block (die.val) block.toNat ∧ r.use = BlockUse.opened ∧ r.stale = true ∧
      u = (s.dieOk die.val).setBlock (die.val) block.toNat { r with erases := r.erases + 1, stale := false }) ∧
    (∃ (die : Fin 16) (block : BitVec 16) (s : State), ((s.block (die.val) block.toNat).use ≠ BlockUse.erasing ∧
      ((s.block (die.val) block.toNat).use ≠ BlockUse.opened ∨ (s.block (die.val) block.toNat).stale = false) ∨ s.fss.quiesced = true ∨ (s.block (die.val) block.toNat).use = BlockUse.erasing ∧ s.readsBlock (die.val) block.toNat = true)) ∧
    (∃ (pua : Nat) (s : State), s.running = true ∧ s.mounted = true ∧ (s.unitAt pua).kind ≠ 255) ∧
    (∃ (pua : Nat) (s : State), (s.mounted = false ∨ (s.unitAt pua).kind = 255)) ∧
    (∃ (die : Fin 16) (block : BitVec 16) (page : BitVec 12) (r : NandRead) (s : State) (u : State), s.running = true ∧ s.mounted = true ∧
      s.pageUnits (die.val) block.toNat page.toNat ≠ [] ∧
      (u = forEach (s.pageUnits (die.val) block.toNat page.toNat) (fun pua t => if t.running = true then t.unitRead pua (t.readResult pua r) else t) s) ∧ readFails r = true ∧ u.running = true) ∧
    (∃ (die : Fin 16) (block : BitVec 16) (page : BitVec 12) (r : NandRead) (s : State) (u : State), s.running = true ∧ s.mounted = true ∧
      s.pageUnits (die.val) block.toNat page.toNat ≠ [] ∧
      (u = forEach (s.pageUnits (die.val) block.toNat page.toNat) (fun pua t => if t.running = true then t.unitRead pua (t.readResult pua r) else t) s) ∧ (readFails r = false ∨ u.running = false)) ∧
    (∃ (die : Fin 16) (block : BitVec 16) (page : BitVec 12) (s : State), (s.mounted = false ∨ s.pageUnits (die.val) block.toNat page.toNat = [])) :=
  ⟨⟨0, 7, true, { wS with fss := { wS.fss with blocks := [(blockKey 0 7, ⟨.erasing, 8, 1, false⟩)] }, liveSet := [(Reg.FSS_WL, 0x10000#32)] }, _, _,
      _, by decide +kernel, by decide +kernel, by decide +kernel, by decide +kernel, rfl, rfl, rfl, by decide +kernel, by decide +kernel⟩,
   ⟨0, 7, true, { wS with fss := { wS.fss with blocks := [(blockKey 0 7, ⟨.erasing, 9, 1, false⟩)] }, liveSet := [(Reg.FSS_WL, 0x10000#32)] }, _, _,
      _, by decide +kernel, by decide +kernel, by decide +kernel, by decide +kernel, rfl, rfl, rfl, by decide +kernel, by decide +kernel⟩,
   ⟨0, 7, false, { wS with fss := { wS.fss with blocks := [(blockKey 0 7, ⟨.erasing, 8, 1, false⟩)] }, liveSet := [(Reg.FSS_WL, 0x10000#32)] }, _,
      _, _, by decide +kernel, by decide +kernel, by decide +kernel, by decide +kernel, rfl, rfl, rfl, by decide +kernel⟩,
   ⟨0, 7, { wS with fss := { wS.fss with blocks := [(blockKey 0 7, ⟨.opened, 9, 1, true⟩)] } }, _, _, by decide +kernel, by decide +kernel, rfl,
      by decide +kernel, by decide +kernel, rfl⟩,
   ⟨0, 0, { wS with fss := { wS.fss with blocks := [(blockKey 0 7, ⟨.erasing, 8, 1, false⟩)] }, liveSet := [(Reg.FSS_WL, 0x10000#32)] },
      by decide +kernel⟩,
   ⟨(mkPua 4 0 7 3 3), { wS with fss := { wS.fss with units := [(mkPua 4 0 7 3 3, { unitDef 0 with kind := 0, lbn := 9 })], map := [(mapKey 0 9, mkPua 4 0 7 3 3)] } }, by decide +kernel, by decide +kernel, by decide +kernel⟩,
   ⟨(mkPua 4 0 7 3 3), { wS with fss := { wS.fss with blocks := [(blockKey 0 7, ⟨.erasing, 8, 1, false⟩)] }, liveSet := [(Reg.FSS_WL, 0x10000#32)] }, by decide +kernel⟩,
   ⟨0, 7, 3, .lost, { wS with fss := { wS.fss with units := [(mkPua 4 0 7 3 3, { unitDef 0 with kind := 0, lbn := 9 })], map := [(mapKey 0 9, mkPua 4 0 7 3 3)] } }, _, by decide +kernel, by decide +kernel, by decide +kernel, rfl, by decide +kernel, by decide +kernel⟩,
   ⟨0, 7, 3, .clean, { wS with fss := { wS.fss with units := [(mkPua 4 0 7 3 3, { unitDef 0 with kind := 0, lbn := 9 })], map := [(mapKey 0 9, mkPua 4 0 7 3 3)] } }, _, by decide +kernel, by decide +kernel, by decide +kernel, rfl, by decide +kernel⟩,
   ⟨0, 7, 3, { wS with fss := { wS.fss with blocks := [(blockKey 0 7, ⟨.erasing, 8, 1, false⟩)] }, liveSet := [(Reg.FSS_WL, 0x10000#32)] },
      by decide +kernel⟩⟩

theorem witness_JournalRootAndStoreUpkeep :
    (∃ (s : State) (u : State) (r : Option State), s.running = true ∧ s.nandOpen = true ∧ s.fss.jFlying = false ∧ s.fss.rootWait = none ∧
      s.flushDue = true ∧ u = s.flushTail ∧
      r = State.journalRun (journalRuns u.fss.jWait) { u with fss := { u.fss with jWait := [], jFlight := [] } } ∧ r = none) ∧
    (∃ (s : State) (u : State) (r : Option State) (t : State) (x : State), s.running = true ∧ s.nandOpen = true ∧ s.fss.jFlying = false ∧
      s.fss.rootWait = none ∧ s.flushDue = true ∧ u = s.flushTail ∧
      r = State.journalRun (journalRuns u.fss.jWait) { u with fss := { u.fss with jWait := [], jFlight := [] } } ∧ r = some t ∧
      x = ((t.issuePage Band.Role.gc).issuePage Band.Role.cold).issuePage Band.Role.system) ∧
    (∃ (s : State), (s.nandOpen = false ∨ s.fss.jFlying = true ∨ s.fss.rootWait.isSome = true ∨ s.flushDue = false)) ∧
    (∃ (s : State), s.running = true ∧ s.fss.jFlying = true ∧ ((s.fss.progs.any fun p => decide (p.role ≠ Band.Role.host) && p.queued) = false)) ∧
    (∃ (s : State), (s.fss.jFlying = false ∨ (s.fss.progs.any fun p => decide (p.role ≠ Band.Role.host) && p.queued) = true)) ∧
    (∃ (s : State) (r : Option (Nat × State)), s.running = true ∧ s.nandOpen = true ∧ s.fss.jFlying = false ∧ s.fss.rootWait = none ∧
      (s.fss.rootTime + Cf.FSS_CKPT_interval s * 1000 ≤ s.tm.mono ∨ s.fss.rootUnits + 8192 ≤ s.fss.jUnits) ∧
      r = State.putRoot s.reserveSeqs.rootSnap.sectionUnits s.reserveSeqs ∧ r = none) ∧
    (∃ (s : State) (r : Option (Nat × State)) (pua : Nat) (u : State) (v : State), s.running = true ∧ s.nandOpen = true ∧ s.fss.jFlying = false ∧
      s.fss.rootWait = none ∧ (s.fss.rootTime + Cf.FSS_CKPT_interval s * 1000 ≤ s.tm.mono ∨ s.fss.rootUnits + 8192 ≤ s.fss.jUnits) ∧
      r = State.putRoot s.reserveSeqs.rootSnap.sectionUnits s.reserveSeqs ∧ r = some (pua, u) ∧ v = u.issuePage Band.Role.system) ∧
    (∃ (s : State), (s.nandOpen = false ∨ s.fss.jFlying = true ∨ s.fss.rootWait.isSome = true ∨ s.tm.mono < s.fss.rootTime + Cf.FSS_CKPT_interval s * 1000 ∧ s.fss.jUnits < s.fss.rootUnits + 8192)) ∧
    (∃ (s : State) (u : State) (b : Band), s.running = true ∧ s.nandOpen = true ∧ (s.freeBands < 8 ∨ s.fss.gcOn = true ∧ s.freeBands < 12) ∧
      u = { s with fss := { s.fss with gcOn := true } } ∧
      (leastBand (fun b => (u.liveIn b.blocks).length) (List.filter u.mayEmpty u.fss.bands) = some b)) ∧
    (∃ (s : State) (u : State), s.running = true ∧ s.nandOpen = true ∧ (s.freeBands < 8 ∨ s.fss.gcOn = true ∧ s.freeBands < 12) ∧
      u = { s with fss := { s.fss with gcOn := true } } ∧
      (leastBand (fun b => (u.liveIn b.blocks).length) (List.filter u.mayEmpty u.fss.bands) = none)) ∧
    (∃ (s : State), s.running = true ∧ s.nandOpen = true ∧ 8 ≤ s.freeBands ∧ (s.fss.gcOn = false ∨ 12 ≤ s.freeBands)) ∧
    (∃ (s : State), (s.running = false ∨ s.nandOpen = false)) ∧
    (∃ (die : Fin 16) (s : State), (leastBy (fun b => (s.block (die.val) b).erases) (s.wearBlocks die.val) = none ∨ ∃ b,
      leastBy (fun b => (s.block (die.val) b).erases) (s.wearBlocks die.val) = some b ∧ List.find? (fun x => x.blocks.contains (die.val,
      b) && s.mayEmpty x) s.fss.bands = none)) ∧
    (∃ (die : Fin 16) (s : State) (b : Nat) (x : Band), s.running = true ∧ s.nandOpen = true ∧ s.goodDies.contains die.val = true ∧
      Cf.FSS_WL_spread s < s.eraseSpread die.val ∧ (leastBy (fun b => (s.block (die.val) b).erases) (s.wearBlocks die.val) = some b) ∧
      (List.find? (fun x => x.blocks.contains (die.val, b) && s.mayEmpty x) s.fss.bands = some x)) ∧
    (∃ (die : Fin 16) (s : State), (s.nandOpen = false ∨ s.goodDies.contains die.val = false ∨ s.eraseSpread die.val ≤ Cf.FSS_WL_spread s)) ∧
    (∃ (die : Fin 16) (s : State) (u : State), s.running = true ∧ (s.die die.val).present = true ∧ (s.die die.val).failed = false ∧
      (u = s.modDie die.val fun x => { x with busy := x.busy + 1 }) ∧ 2 ≤ (u.die die.val).busy) ∧
    (∃ (die : Fin 16) (s : State) (u : State), s.running = true ∧ (s.die die.val).present = true ∧ (s.die die.val).failed = false ∧
      (u = s.modDie die.val fun x => { x with busy := x.busy + 1 }) ∧ (u.die die.val).busy < 2) ∧
    (∃ (die : Fin 16) (s : State), ((s.die die.val).present = false ∨ (s.die die.val).failed = true)) ∧
    (∃ (seen : List (Nat × NandRead)) (s : State) (u : State), s.running = true ∧ s.fss.dieRebuild = true ∧ s.nandOpen = true ∧
      (u = forEach s.onFailed (fun p t => if t.running = true then t.rebuildUnit seen p else t) s)) ∧
    (∃ (seen : List (Nat × NandRead)) (p : Nat), seenRead seen p = NandRead.lost) ∧
    (∃ (seen : List (Nat × NandRead)) (s : State) (p : Nat), seenRead seen p = NandRead.clean ∧ (s.moveLive Band.Role.gc p).isLive p = false) ∧
    (∃ (s : State), (s.fss.dieRebuild = false ∨ s.nandOpen = false)) ∧
    (∃ (s : State), s.running = true) :=
  ⟨⟨{ wS with fss := { wS.fss with blocks := [(blockKey 0 7, ⟨.closed, 1, 1, false⟩)], bands := [⟨1, .host, [(0, 7)], [], [], [], 0, 0, false, none⟩] } }, _, _, by decide, by decide, by decide, by decide, by decide, rfl, rfl, by decide⟩,
   ⟨{ wS with fss := { wS.fss with dieRebuild := true, dies := ⟨true, true, 0, []⟩ :: List.replicate 15 Die.reset, units := [(mkPua 4 0 7 3 3, { unitDef 0 with kind := 0, lbn := 9 })], map := [(mapKey 0 9, mkPua 4 0 7 3 3)] } }, _, _, _, _, by decide, by decide, by decide, by decide, by decide, rfl, rfl, rfl, rfl⟩,
   ⟨State.reset, by decide⟩,
   ⟨{ wS with fss := { wS.fss with jFlying := true } }, by decide, by decide, by decide⟩,
   ⟨{ wS with fss := { wS.fss with blocks := [(blockKey 0 7, ⟨.closed, 1, 1, false⟩)], bands := [⟨1, .host, [(0, 7)], [], [], [], 0, 0, false, none⟩] } }, by decide⟩,
   ⟨{ wS with fss := { wS.fss with blocks := [(blockKey 0 7, ⟨.closed, 1, 1, false⟩)], bands := [⟨1, .host, [(0, 7)], [], [], [], 0, 0, false, none⟩] } }, _, by decide, by decide, by decide, by decide, by decide, rfl, by decide⟩,
   ⟨{ wS with fss := { wS.fss with bands := [⟨1, .system, [(0, 5), (1, 5), (2, 5)], [], [], [], 0, 0, true, none⟩] } }, _, _, _, _, by decide,
      by decide, by decide, by decide, by decide, rfl, rfl, rfl⟩,
   ⟨State.reset, by decide⟩,
   ⟨{ wS with fss := { wS.fss with blocks := [(blockKey 0 7, ⟨.closed, 1, 1, false⟩)], bands := [⟨1, .host, [(0, 7)], [], [], [], 0, 0, false, none⟩] } }, _, _, by decide, by decide, by decide, rfl, rfl⟩,
   ⟨{ wS with fss := { wS.fss with blocksPerDie := 4 } }, _, by decide, by decide, by decide, rfl, rfl⟩,
   ⟨{ wS with fss := { wS.fss with blocksPerDie := 64 } }, by decide, by decide, by decide, by decide⟩,
   ⟨{ wS with hlt := { wS.hlt with halt := some ⟨1, 0, none, 0, 0, 0, 0, 65535, false, 0, 0, false, false⟩ } }, by decide⟩,
   ⟨15, { wS with fss := { wS.fss with blocksPerDie := 0 } }, Or.inl rfl⟩,
   ⟨0, { wS with fss := { wS.fss with blocks := [(blockKey 0 0, ⟨.closed, 0, 1, false⟩), (blockKey 0 7, ⟨.closed, 2001, 2, false⟩)], bands := [⟨1, .host, [(0, 0)], [], [], [], 0, 0, false, none⟩] } }, 0, ⟨1, .host, [(0, 0)], [], [], [], 0, 0, false, none⟩, by decide +kernel, by decide +kernel, by decide +kernel, by decide +kernel, by decide +kernel, by decide +kernel⟩,
   ⟨0, { wS with fss := { wS.fss with quiesced := true } }, by decide⟩,
   ⟨0, { wS with fss := { wS.fss with dies := ⟨true, false, 1, []⟩ :: List.replicate 15 Die.reset } }, _, by decide, by decide, by decide, rfl,
      by decide⟩,
   ⟨0, { wS with fss := { wS.fss with blocks := [(blockKey 0 7, ⟨.closed, 1, 1, false⟩)], bands := [⟨1, .host, [(0, 7)], [], [], [], 0, 0, false, none⟩] } }, _, by decide, by decide, by decide, rfl, by decide⟩,
   ⟨15, { wS with fss := { wS.fss with blocks := [(blockKey 0 7, ⟨.closed, 1, 1, false⟩)], bands := [⟨1, .host, [(0, 7)], [], [], [], 0, 0, false, none⟩] } }, by decide⟩,
   ⟨[], { wS with fss := { wS.fss with dieRebuild := true, dies := ⟨true, true, 0, []⟩ :: List.replicate 15 Die.reset, units := [(mkPua 4 0 7 3 3, { unitDef 0 with kind := 0, lbn := 9 })], map := [(mapKey 0 9, mkPua 4 0 7 3 3)] } }, _, by decide, by decide, by decide, rfl⟩,
   ⟨[(0, .lost)], 0, by decide⟩,
   ⟨[], { wS with fss := { wS.fss with blocks := [(blockKey 0 7, ⟨.closed, 1, 1, false⟩)], bands := [⟨1, .host, [(0, 7)], [], [], [], 0, 0, false, none⟩] } }, (mkPua 4 0 7 3 3), by decide, by decide⟩,
   ⟨{ wS with fss := { wS.fss with blocks := [(blockKey 0 7, ⟨.closed, 1, 1, false⟩)], bands := [⟨1, .host, [(0, 7)], [], [], [], 0, 0, false, none⟩] } }, by decide⟩,
   ⟨{ wS with fss := { wS.fss with blocks := [(blockKey 0 7, ⟨.closed, 1, 1, false⟩)], bands := [⟨1, .host, [(0, 7)], [], [], [], 0, 0, false, none⟩] } }, by decide⟩⟩

theorem witness_ServoSamplesAndTimers :
    (∃ (a : Axis) (adc : List Pickup) (since : Nat) (ns : BitVec 16) (s : State) (u : State) (t : State) (held : Bool), s.serving = true ∧
      s.onTimeBy (a.val) ns.toNat = true ∧ u = s.judgeSource a.val ∧ held = (decide (a.val % 4 < 2) && u.defHeld a.val) ∧
      (t = (if a.val % 4 = 0 then u.focTick (a.val / 4) adc else if a.val % 4 = 1 then if held = true then u else u.trkSample (a.val / 4) else if a.val % 4 = 2 then u.spnSample (a.val / 4) since else u.sldSample (a.val / 4)).noteTime (a.val) ns.toNat) ∧ held = true) ∧
    (∃ (a : Axis) (adc : List Pickup) (since : Nat) (ns : BitVec 16) (s : State) (u : State) (t : State) (held : Bool), s.serving = true ∧
      s.onTimeBy (a.val) ns.toNat = true ∧ u = s.judgeSource a.val ∧ held = (decide (a.val % 4 < 2) && u.defHeld a.val) ∧
      (t = (if a.val % 4 = 0 then u.focTick (a.val / 4) adc else if a.val % 4 = 1 then if held = true then u else u.trkSample (a.val / 4) else if a.val % 4 = 2 then u.spnSample (a.val / 4) since else u.sldSample (a.val / 4)).noteTime (a.val) ns.toNat) ∧ held = false) ∧
    (∃ (a : Axis) (ns : BitVec 16) (s : State), s.onTimeBy (a.val) ns.toNat = false) ∧
    (∃ (a : Axis) (s : State) (u : State) (w : State), s.serving = true ∧ (s.axis a.val).computes = true ∧
      (u = (s.modAxis a.val fun x => { x with lateRun := min 3 (x.lateRun + 1), lateCnt := inc16 x.lateCnt, onTime := 0 }).alarmRise 4) ∧
      (w = if (decide (a.val % 4 < 2) && (u.drive (a.val / 4)).wst.gate) = true then u.closeGate (a.val / 4) else u) ∧ 2 ≤ (s.axis a.val).lateRun ∧
      (s.axis a.val).st ≠ AxState.lateOpen) ∧
    (∃ (a : Axis) (s : State) (u : State) (w : State), s.serving = true ∧ (s.axis a.val).computes = true ∧
      (u = (s.modAxis a.val fun x => { x with lateRun := min 3 (x.lateRun + 1), lateCnt := inc16 x.lateCnt, onTime := 0 }).alarmRise 4) ∧
      (w = if (decide (a.val % 4 < 2) && (u.drive (a.val / 4)).wst.gate) = true then u.closeGate (a.val / 4) else u) ∧
      ((s.axis a.val).lateRun < 2 ∨ (s.axis a.val).st = AxState.lateOpen)) ∧
    (∃ (a : Axis) (s : State), (s.axis a.val).computes = false) ∧
    (∃ (s : State), s.serving = true) ∧
    (∃ (a : Axis) (s : State), s.serving = true ∧ (s.axis a.val).srcFault = true ∧
      (s.axis a.val).faultSince + Cf.SRV_SP_CFG_hold_ms s a.val ≤ s.tm.mono) ∧
    (∃ (a : Axis) (s : State), s.serving = true ∧
      ((s.axis a.val).srcFault = false ∨ s.tm.mono < (s.axis a.val).faultSince + Cf.SRV_SP_CFG_hold_ms s a.val)) ∧
    (∃ (d : Fin 4) (s : State), s.serving = true ∧ (s.drive d.val).sled.lastDecl + 1000 * Cf.SLD_CUR2_decay_s s d.val ≤ s.tm.mono) ∧
    (∃ (d : Fin 4) (s : State), s.serving = true ∧ s.tm.mono < (s.drive d.val).sled.lastDecl + 1000 * Cf.SLD_CUR2_decay_s s d.val) ∧
    (∃ (d : Fin 4) (s : State) (t : Nat) (u : State), s.serving = true ∧ (s.drive d.val).sled.report = some t ∧ t ≤ s.tm.mono ∧
      (u = s.modSled d.val fun l => { l with report := none }) ∧ (u.drive d.val).seq ≠ Seq.long) ∧
    (∃ (d : Fin 4) (s : State) (t : Nat) (u : State), s.serving = true ∧ (s.drive d.val).sled.report = some t ∧ t ≤ s.tm.mono ∧
      (u = s.modSled d.val fun l => { l with report := none }) ∧ (u.drive d.val).seq = Seq.long) ∧
    (∃ (d : Fin 4) (s : State), s.serving = true ∧ ((s.drive d.val).sled.report = none ∨ ∃ t, (s.drive d.val).sled.report = some t ∧
      s.tm.mono < t)) :=
  ⟨⟨12, [], 0, 0, { wD { Drive.reset with flagged := true } with liveSet := [(Reg.SRV_AX_CTL 12, 4#32)] }, _, _, true, by decide, by decide, rfl,
      by decide, rfl, by decide⟩,
   ⟨15, [], 0, 0, { wD { Drive.reset with flagged := true } with liveSet := [(Reg.SRV_AX_CTL 12, 4#32)] }, _, _, false, by decide, by decide, rfl,
      by decide, rfl, by decide⟩,
   ⟨12, 0xFFFF, { wD { Drive.reset with flagged := true } with liveSet := [(Reg.SRV_AX_CTL 12, 4#32)] }, by decide⟩,
   ⟨12, (wAx 0 { Ax.reset with st := .closed, lateRun := 2 }), _, _, by decide, by decide, rfl, rfl, by decide, by decide⟩,
   ⟨12, (wAx 0 { Ax.reset with st := .closed, lateRun := 1 }), _, _, by decide, by decide, rfl, rfl, by decide⟩,
   ⟨12, { wD { Drive.reset with flagged := true } with liveSet := [(Reg.SRV_AX_CTL 12, 4#32)] }, by decide⟩,
   ⟨{ wD { Drive.reset with flagged := true } with liveSet := [(Reg.SRV_AX_CTL 12, 4#32)] }, by decide⟩,
   ⟨12, { wAx 0 { Ax.reset with st := .closed, srcFault := true, faultSince := 999999999 } with liveSet := [(Reg.SRV_SP_CFG 12, 0x10000#32)] },
      by decide, by decide, by decide⟩,
   ⟨12, { wD { Drive.reset with flagged := true } with liveSet := [(Reg.SRV_AX_CTL 12, 4#32)] }, by decide, by decide⟩,
   ⟨3, { wD { Drive.reset with flagged := true } with liveSet := [(Reg.SRV_AX_CTL 12, 4#32)] }, by decide, by decide⟩,
   ⟨3, { wSled { Sled.reset with lastDecl := 999999001 } with liveSet := [(Reg.SLD_CUR2 3, 0x1000000#32)] }, by decide, by decide⟩,
   ⟨3, (wSled { Sled.reset with report := some 1000000000 }), _, _, by decide, rfl, by decide, rfl, by decide⟩,
   ⟨3, (wD { Drive.reset with seq := .long, sled := { Sled.reset with report := some 1000000000 } }), _, _, by decide, rfl, by decide, rfl,
      by decide⟩,
   ⟨3, { wD { Drive.reset with flagged := true } with liveSet := [(Reg.SRV_AX_CTL 12, 4#32)] }, by decide, by decide⟩⟩

theorem witness_AxisCommands :
    (∃ (v : Word) (s : State), s.serving = true ∧ fld v 0 1 = 1) ∧
    (∃ (v : Word) (s : State), s.serving = true ∧ fld v 0 1 = 0) ∧
    (∃ (s : State), s.serving = true) ∧
    (∃ (a : Axis) (s : State) (u : State), s.serving = true ∧ u = s.take a.val ∧
      ((u.axis a.val).st = AxState.ramp ∨ (u.axis a.val).st = AxState.closed ∨ a.val % 4 = 2 ∧ (u.drive (a.val / 4)).spin.st ≠ SpState.run)) ∧
    (∃ (a : Axis) (s : State) (u : State), s.serving = true ∧ u = s.take a.val ∧ (u.axis a.val).st ≠ AxState.ramp ∧
      (u.axis a.val).st ≠ AxState.closed ∧ (a.val % 4 = 2 → (u.drive (a.val / 4)).spin.st = SpState.run) ∧ a.val % 4 = 0) ∧
    (∃ (a : Axis) (s : State) (u : State), s.serving = true ∧ u = s.take a.val ∧ (u.axis a.val).st ≠ AxState.ramp ∧
      (u.axis a.val).st ≠ AxState.closed ∧ (a.val % 4 = 2 → (u.drive (a.val / 4)).spin.st = SpState.run) ∧ a.val % 4 ≠ 0) ∧
    (∃ (d : Fin 4) (s : State) (u : State), s.serving = true ∧ u = s.take (axisOf (d.val) 0) ∧
      (((u.drive d.val).axis 0).st = AxState.ramp ∨ ((u.drive d.val).axis 0).st = AxState.closed)) ∧
    (∃ (d : Fin 4) (s : State) (u : State), s.serving = true ∧ u = s.take (axisOf (d.val) 0) ∧ ((u.drive d.val).axis 0).st ≠ AxState.ramp ∧
      ((u.drive d.val).axis 0).st ≠ AxState.closed) ∧
    (∃ (d : Fin 4) (s : State) (u : State), s.serving = true ∧ u = s.take (axisOf (d.val) 0) ∧
      ((u.axis (axisOf (d.val) 0)).st = AxState.ramp ∨ (u.axis (axisOf (d.val) 0)).st = AxState.closed)) ∧
    (∃ (d : Fin 4) (s : State) (u : State), s.serving = true ∧ u = s.take (axisOf (d.val) 0) ∧ (u.axis (axisOf (d.val) 0)).st ≠ AxState.ramp ∧
      (u.axis (axisOf (d.val) 0)).st ≠ AxState.closed) ∧
    (∃ (d : Fin 4) (s : State) (layer : Nat) (ph : JumpStep) (t : Nat) (all : Nat) (base : Int), s.serving = true ∧
      (s.drive d.val).seq = Seq.jump layer ph t all base ∧ Cf.SRV_JUMP2_tmo_us s (axisOf (d.val) 0) ≤ 5 * all) ∧
    (∃ (d : Fin 4) (s : State) (layer : Nat) (ph : JumpStep) (t : Nat) (all : Nat) (base : Int), s.serving = true ∧
      (s.drive d.val).seq = Seq.jump layer ph t all base ∧ 5 * all < Cf.SRV_JUMP2_tmo_us s (axisOf (d.val) 0)) :=
  ⟨⟨1, (wAx 0 { Ax.reset with st := .closed }), by decide, by decide⟩,
   ⟨0, (wAx 0 { Ax.reset with st := .closed }), by decide, by decide⟩,
   ⟨(wAx 0 { Ax.reset with st := .closed }), by decide⟩,
   ⟨2, (wAx 0 { Ax.reset with st := .closed }), _, by decide, rfl, by decide⟩,
   ⟨0, (wAx 0 { Ax.reset with st := .closed }), _, by decide, rfl, by decide, by decide, by decide, by decide⟩,
   ⟨1, (wAx 0 { Ax.reset with st := .closed }), _, by decide, rfl, by decide, by decide, by decide, by decide⟩,
   ⟨3, (wAx 0 { Ax.reset with st := .closed }), _, by decide, rfl, by decide⟩,
   ⟨0, (wAx 0 { Ax.reset with st := .closed }), _, by decide, rfl, by decide, by decide⟩,
   ⟨3, (wAx 0 { Ax.reset with st := .closed }), _, by decide, rfl, by decide⟩,
   ⟨0, (wAx 0 { Ax.reset with st := .closed }), _, by decide, rfl, by decide, by decide⟩,
   ⟨3, { wD { Drive.reset with seq := .jump 1 .brake 0 1 0 } with liveSet := [(Reg.SRV_JUMP2 12, 5#32)] }, 1, .brake, 0, 1, 0, by decide, by decide,
      by decide⟩,
   ⟨3, { wD { Drive.reset with seq := .jump 1 .brake 0 1 0 } with liveSet := [(Reg.SRV_JUMP2 12, 6#32)] }, 1, .brake, 0, 1, 0, by decide, by decide,
      by decide⟩⟩

theorem witness_SledMotionAndCommands :
    (∃ (d : Fin 4) (s : State), s.serving = true ∧ (s.drive d.val).sled.st = SlState.fault) ∧
    (∃ (d : Fin 4) (s : State) (l : Sled) (p : Int) (v : Int) (an : Int) (arr : Bool) (u : State), s.serving = true ∧ l = (s.drive d.val).sled ∧
      (l.st = SlState.travel ∨ l.st = SlState.seek) ∧ l.stopping = false ∧
      planTick (decide (l.st = SlState.travel)) l.p l.v (l.tgt * 65536) (s.sldA d.val) (perTick (Cf.SLD_MOT_v_max s d.val)) (perTick (Cf.SLD_MOT3_v_min s d.val)) = (p, v, an, arr) ∧ (u = s.modSled d.val fun l => { l with p := p, v := v, a := an })) ∧
    (∃ (d : Fin 4) (s : State) (l : Sled) (cl : Bool), s.serving = true ∧ l = (s.drive d.val).sled ∧
      cl = decide (((s.drive d.val).axis 3).st = AxState.closed) ∧ l.st = SlState.off) ∧
    (∃ (d : Fin 4) (s : State) (l : Sled) (cl : Bool), s.serving = true ∧ l = (s.drive d.val).sled ∧
      cl = decide (((s.drive d.val).axis 3).st = AxState.closed) ∧ l.st = SlState.hold) ∧
    (∃ (d : Fin 4) (s : State) (l : Sled) (cl : Bool), s.serving = true ∧ l = (s.drive d.val).sled ∧
      cl = decide (((s.drive d.val).axis 3).st = AxState.closed) ∧ l.st = SlState.follow) ∧
    (∃ (d : Fin 4) (s : State) (l : Sled) (cl : Bool), s.serving = true ∧ l = (s.drive d.val).sled ∧
      cl = decide (((s.drive d.val).axis 3).st = AxState.closed) ∧ (l.st = SlState.homing ∨ l.st = SlState.travel ∨ l.st = SlState.seek) ∧
      l.stopping = true) ∧
    (∃ (d : Fin 4) (s : State) (l : Sled) (cl : Bool), s.serving = true ∧ l = (s.drive d.val).sled ∧
      cl = decide (((s.drive d.val).axis 3).st = AxState.closed) ∧ l.st = SlState.homing ∧ l.stopping = false ∧ l.home = 3) ∧
    (∃ (d : Fin 4) (s : State) (l : Sled) (cl : Bool) (p : Int) (v : Int) (an : Int) (arr : Bool) (u : State), s.serving = true ∧
      l = (s.drive d.val).sled ∧ cl = decide (((s.drive d.val).axis 3).st = AxState.closed) ∧ l.st = SlState.homing ∧ l.stopping = false ∧
      l.home ≠ 3 ∧ (planTick true l.p l.v (l.tgt * 65536) (s.sldA d.val) (if l.home = 2 then perTick (Cf.SLD_HOME_v_home s d.val) else perTick (Cf.SLD_MOT_v_max s d.val)) (perTick (Cf.SLD_MOT3_v_min s d.val)) = (p, v, an, arr)) ∧ (u = s.modSled d.val fun l => { l with p := p, v := v, a := an })) ∧
    (∃ (d : Fin 4) (s : State) (fast : Prop) (l : Sled), s.serving = true ∧ l = (s.drive d.val).sled ∧
      (fast = ((l.st = SlState.homing ∨ l.st = SlState.follow ∨ l.st = SlState.travel ∨ l.st = SlState.seek) ∧
      perTick (Cf.SLD_MOT3_v_min s d.val) < ↑l.v.natAbs))) ∧
    (∃ (d : Fin 4) (k : Fin 567840) (s : State) (r : Machine.Drive) (rk : Int), s.serving = true ∧ r = s.drive d.val ∧
      rk = s.slotRadius (d.val) r.layer k.val ∧ (r.sled.st ≠ SlState.hold ∧
      r.sled.st ≠ SlState.follow ∨ s.zoneW (d.val) r.layer 0 = 0 ∨ Cf.SLD_MECH_NM_nm16 s d.val = 0)) ∧
    (∃ (d : Fin 4) (k : Fin 567840) (s : State) (r : Machine.Drive) (rk : Int), s.serving = true ∧ r = s.drive d.val ∧
      rk = s.slotRadius (d.val) r.layer k.val ∧ (r.sled.st = SlState.hold ∨ r.sled.st = SlState.follow) ∧ s.zoneW (d.val) r.layer 0 ≠ 0 ∧
      Cf.SLD_MECH_NM_nm16 s d.val ≠ 0 ∧ r.sled.anchored = false) ∧
    (∃ (d : Fin 4) (k : Fin 567840) (s : State) (r : Machine.Drive) (rk : Int) (u : State) (pe : Int), s.serving = true ∧ r = s.drive d.val ∧
      rk = s.slotRadius (d.val) r.layer k.val ∧ (r.sled.st = SlState.hold ∨ r.sled.st = SlState.follow) ∧ s.zoneW (d.val) r.layer 0 ≠ 0 ∧
      Cf.SLD_MECH_NM_nm16 s d.val ≠ 0 ∧ (u = if r.sled.lateOnly = true then s.modSled d.val fun l => { l with homed := true, lateOnly := false } else s) ∧ pe = s.slotPos (d.val) r.layer k.val ∧ r.sled.anchored = true ∧ (r.sled.pos - pe).natAbs ≤ Cf.SLD_LOST_tol u d.val) ∧
    (∃ (d : Fin 4) (k : Fin 567840) (s : State) (r : Machine.Drive) (rk : Int) (u : State) (pe : Int) (times : List Nat) (v : State),
      s.serving = true ∧ r = s.drive d.val ∧ rk = s.slotRadius (d.val) r.layer k.val ∧ (r.sled.st = SlState.hold ∨ r.sled.st = SlState.follow) ∧
      s.zoneW (d.val) r.layer 0 ≠ 0 ∧ Cf.SLD_MECH_NM_nm16 s d.val ≠ 0 ∧
      (u = if r.sled.lateOnly = true then s.modSled d.val fun l => { l with homed := true, lateOnly := false } else s) ∧
      pe = s.slotPos (d.val) r.layer k.val ∧ r.sled.anchored = true ∧ Cf.SLD_LOST_tol u d.val < (r.sled.pos - pe).natAbs ∧
      (times = List.filter (fun t => decide (u.tm.mono < t + 600000)) (u.tm.mono :: r.sled.lostTimes)) ∧
      (v = (u.modSled d.val fun l => { l with p := pe * 65536, boost := min (Cf.SLD_CUR_i_max u d.val - Cf.SLD_CUR_i_hold u d.val) (l.boost + Cf.SLD_CUR2_step u d.val), lostTimes := times, lastDecl := u.tm.mono, lost := inc16 l.lost, err := r.sled.pos - pe, anchorP := pe, anchorR := rk }).note Ev.stepsLost d.val)) ∧
    (∃ (s : State), s.serving = true) ∧
    (∃ (d : Fin 4) (b : Bool) (s : State) (l : Sled), s.serving = true ∧ l = (s.drive d.val).sled ∧ l.st ≠ SlState.off ∧ l.st ≠ SlState.fault ∧
      (100 ≤ if b = true then l.openB else l.openA)) ∧
    (∃ (d : Fin 4) (b : Bool) (s : State) (l : Sled), s.serving = true ∧ l = (s.drive d.val).sled ∧
      (l.st = SlState.off ∨ l.st = SlState.fault ∨ (if b = true then l.openB else l.openA) < 100)) ∧
    (∃ (d : Fin 4) (s : State), s.serving = true ∧ s.sledMayMove d.val = true) ∧
    (∃ (d : Fin 4) (s : State), s.serving = true ∧ s.sledMayMove d.val = false) ∧
    (∃ (d : Fin 4) (s : State) (l : Sled), s.serving = true ∧ l = (s.drive d.val).sled ∧
      (l.st = SlState.fault ∨ l.st = SlState.homing ∨ l.st = SlState.travel ∨ s.pgood = false)) ∧
    (∃ (d : Fin 4) (s : State) (l : Sled), s.serving = true ∧ l = (s.drive d.val).sled ∧ l.st ≠ SlState.fault ∧ l.st ≠ SlState.homing ∧
      l.st ≠ SlState.travel ∧ s.pgood = true) ∧
    (∃ (d : Fin 4) (s : State), s.serving = true ∧ ((s.drive d.val).axis 3).manual = true ∧ (s.drive d.val).sled.st ≠ SlState.fault) ∧
    (∃ (d : Fin 4) (s : State), s.serving = true ∧ (((s.drive d.val).axis 3).manual = false ∨ (s.drive d.val).sled.st = SlState.fault)) :=
  ⟨⟨3, (wSled { Sled.reset with st := .fault }), by decide, by decide⟩,
   ⟨3, (wSled { Sled.reset with st := .travel }), _, 0, 0, 0, true, _, by decide, rfl, by decide, by decide, by decide, rfl⟩,
   ⟨0, (wSled { Sled.reset with st := .travel }), _, false, by decide, rfl, by decide, by decide⟩,
   ⟨3, (wSled { Sled.reset with st := .hold, openB := 100 }), _, false, by decide, rfl, by decide, by decide⟩,
   ⟨3, { wD { Drive.reset with layer := 1, sled := { Sled.reset with st := .follow }, rdc := { ReadChannel.reset with zw := [(64, 100)] } } with liveSet := [(Reg.SLD_MECH_NM 3, 1#32)] }, _, false, by decide, rfl, by decide, by decide⟩,
   ⟨3, (wSled { Sled.reset with st := .travel, stopping := true }), _, false, by decide, rfl, by decide, by decide, by decide⟩,
   ⟨3, (wSled { Sled.reset with st := .homing, home := 3 }), _, false, by decide, rfl, by decide, by decide, by decide, by decide⟩,
   ⟨3, (wSled { Sled.reset with st := .homing }), _, false, _, _, _, _, _, by decide, rfl, by decide, by decide, by decide, by decide, rfl, rfl⟩,
   ⟨3, (wSled { Sled.reset with st := .travel }), _, _, by decide, rfl, rfl⟩,
   ⟨3, 0, (wSled { Sled.reset with st := .travel }), _, _, by decide, rfl, rfl, by decide⟩,
   ⟨3, 0, { wD { Drive.reset with layer := 1, sled := { Sled.reset with st := .follow }, rdc := { ReadChannel.reset with zw := [(64, 100)] } } with liveSet := [(Reg.SLD_MECH_NM 3, 1#32)] }, _, _, by decide, rfl, rfl, by decide, by decide, by decide, by decide⟩,
   ⟨3, 0, { wD { Drive.reset with layer := 1, sled := { Sled.reset with st := .follow, anchored := true, lateOnly := true }, rdc := { ReadChannel.reset with zw := [(64, 100)] } } with liveSet := [(Reg.SLD_MECH_NM 3, 1#32), (Reg.SLD_LOST 3, 0x2000004#32)] }, _, _, _, _, by decide, rfl, rfl, by decide, by decide, by decide, rfl, rfl, by decide, by decide⟩,
   ⟨3, 0, { wD { Drive.reset with layer := 1, sled := { Sled.reset with st := .follow, anchored := true, p := 65536 * 100 }, rdc := { ReadChannel.reset with zw := [(64, 100)] } } with liveSet := [(Reg.SLD_MECH_NM 3, 1#32), (Reg.SLD_LOST 3, 0x2000004#32)] }, _, _, _, _, _, _, by decide, rfl, rfl, by decide, by decide, by decide, rfl, rfl, by decide, by decide, rfl, rfl⟩,
   ⟨(wSled { Sled.reset with st := .travel }), by decide⟩,
   ⟨3, true, (wSled { Sled.reset with st := .hold, openB := 100 }), _, by decide, rfl, by decide, by decide, by decide⟩,
   ⟨3, true, (wSled { Sled.reset with st := .travel }), _, by decide, rfl, by decide⟩,
   ⟨3, (wD { Drive.reset with ax := [Ax.reset, Ax.reset, Ax.reset, { Ax.reset with manual := true }], sled := { Sled.reset with homed := true } }),
      by decide, by decide⟩,
   ⟨3, (wSled { Sled.reset with st := .travel }), by decide, by decide⟩,
   ⟨3, (wSled { Sled.reset with st := .travel }), _, by decide, rfl, by decide⟩,
   ⟨0, (wSled { Sled.reset with st := .travel }), _, by decide, rfl, by decide, by decide, by decide, by decide⟩,
   ⟨3, (wD { Drive.reset with ax := [Ax.reset, Ax.reset, Ax.reset, { Ax.reset with manual := true }], sled := { Sled.reset with homed := true } }),
      by decide, by decide, by decide⟩,
   ⟨3, (wSled { Sled.reset with st := .travel }), by decide, by decide⟩⟩

theorem witness_SpindleCommands :
    (∃ (d : Fin 4) (s : State), s.serving = true ∧ (s.drive d.val).spin.st = SpState.stopped) ∧
    (∃ (d : Fin 4) (s : State), s.serving = true ∧ (s.drive d.val).spin.st ≠ SpState.stopped) ∧
    (∃ (d : Fin 4) (s : State), s.serving = true ∧ (s.drive d.val).spin.st ≠ SpState.stopped ∧ (s.drive d.val).spin.st ≠ SpState.fault) ∧
    (∃ (d : Fin 4) (s : State), s.serving = true ∧ (s.drive d.val).spin.st = SpState.fault) ∧
    (∃ (d : Fin 4) (s : State) (u : State), s.serving = true ∧ s.shut d.val = true ∧ s.boot.dramFail = false ∧
      (u = s.modDrive d.val fun r => { r with disc := true, starting := true }) ∧ ((u.drive d.val).axis 2).manual = false ∧
      (u.drive d.val).spin.st = SpState.stopped) ∧
    (∃ (d : Fin 4) (s : State) (u : State), s.serving = true ∧ s.shut d.val = true ∧ s.boot.dramFail = false ∧
      (u = s.modDrive d.val fun r => { r with disc := true, starting := true }) ∧
      (((u.drive d.val).axis 2).manual = true ∨ (u.drive d.val).spin.st ≠ SpState.stopped)) ∧
    (∃ (d : Fin 4) (s : State), (s.shut d.val = false ∨ s.boot.dramFail = true)) :=
  ⟨⟨0, (wSpin { Spindle.reset with st := .brake }), by decide, by decide⟩,
   ⟨3, (wSpin { Spindle.reset with st := .brake }), by decide, by decide⟩,
   ⟨3, (wSpin { Spindle.reset with st := .brake }), by decide, by decide, by decide⟩,
   ⟨3, (wSpin { Spindle.reset with st := .fault }), by decide, by decide⟩,
   ⟨0, (wSpin { Spindle.reset with st := .brake }), _, by decide, by decide, by decide, rfl, by decide, by decide⟩,
   ⟨3, (wSpin { Spindle.reset with st := .brake }), _, by decide, by decide, by decide, rfl, by decide⟩,
   ⟨3, State.reset, by decide⟩⟩

theorem witness_SpindleStart :
    (∃ (d : Fin 4) (currents : List Nat) (s : State) (k : Nat) (top : Nat), s.serving = true ∧ (s.drive d.val).spin.st = SpState.detect ∧
      (s.drive d.val).spin.aligning = false ∧ currents.length = 6 ∧ largest currents = (k, top) ∧
      (largest (currents.eraseIdx k)).snd * (100 + Cf.SPN_IPD_margin s d.val) ≤ top * 100) ∧
    (∃ (d : Fin 4) (currents : List Nat) (s : State) (k : Nat) (top : Nat), s.serving = true ∧ (s.drive d.val).spin.st = SpState.detect ∧
      (s.drive d.val).spin.aligning = false ∧ currents.length = 6 ∧ largest currents = (k, top) ∧
      top * 100 < (largest (currents.eraseIdx k)).snd * (100 + Cf.SPN_IPD_margin s d.val) ∧ (s.drive d.val).spin.detRuns < 2) ∧
    (∃ (d : Fin 4) (currents : List Nat) (s : State) (k : Nat) (top : Nat), s.serving = true ∧ (s.drive d.val).spin.st = SpState.detect ∧
      (s.drive d.val).spin.aligning = false ∧ currents.length = 6 ∧ largest currents = (k, top) ∧
      top * 100 < (largest (currents.eraseIdx k)).snd * (100 + Cf.SPN_IPD_margin s d.val) ∧ 2 ≤ (s.drive d.val).spin.detRuns) ∧
    (∃ (d : Fin 4) (s : State), s.serving = true ∧ (s.drive d.val).spin.st = SpState.detect ∧ (s.drive d.val).spin.aligning = true) ∧
    (∃ (d : Fin 4) (s : State), s.serving = true ∧ (s.drive d.val).spin.st ≠ SpState.detect) ∧
    (∃ (d : Fin 4) (s : State), s.serving = true ∧ (s.drive d.val).spin.st = SpState.start) ∧
    (∃ (d : Fin 4) (s : State), s.serving = true ∧ (s.drive d.val).spin.st ≠ SpState.start) ∧
    (∃ (d : Fin 4) (s : State), s.serving = true ∧ (s.drive d.val).spin.st = SpState.run ∧ (s.drive d.val).spin.due = true) ∧
    (∃ (d : Fin 4) (s : State), s.serving = true ∧ ((s.drive d.val).spin.st ≠ SpState.run ∨ (s.drive d.val).spin.due = false)) ∧
    (∃ (d : Fin 4) (dt : Nat) (rising : Bool) (s : State) (p : Spindle), s.serving = true ∧ p = (s.drive d.val).spin ∧
      rising = decide (p.step % 2 = 1) ∧ s.crossOk (d.val) dt = true ∧ p.st = SpState.start ∧ 6 ≤ p.crossRun + 1 ∧
      1000 * Cf.SPN_START2_handover (s.commEvent (d.val) dt) d.val ≤ p.forced) ∧
    (∃ (d : Fin 4) (dt : Nat) (rising : Bool) (s : State) (p : Spindle), s.serving = true ∧ p = (s.drive d.val).spin ∧
      rising = decide (p.step % 2 = 1) ∧ s.crossOk (d.val) dt = true ∧ p.st = SpState.start ∧
      (p.crossRun + 1 < 6 ∨ p.forced < 1000 * Cf.SPN_START2_handover (s.commEvent (d.val) dt) d.val)) ∧
    (∃ (d : Fin 4) (dt : Nat) (rising : Bool) (s : State) (p : Spindle), s.serving = true ∧ p = (s.drive d.val).spin ∧
      rising = decide (p.step % 2 = 1) ∧ s.crossOk (d.val) dt = true ∧ p.st = SpState.run ∧ p.locked = false) ∧
    (∃ (d : Fin 4) (dt : Nat) (rising : Bool) (sample : Int) (s : State) (p : Spindle) (u : State) (v : State), s.serving = true ∧
      p = (s.drive d.val).spin ∧ rising = decide (p.step % 2 = 1) ∧ s.crossOk (d.val) dt = true ∧ p.st = SpState.run ∧ p.locked = true ∧
      u = s.commEvent (d.val) dt ∧ (v = if 0 ≤ (u.drive d.val).spnGroup.demand then u.modSpin d.val fun p => { p with keSum := p.keSum + sample.natAbs * Cf.SPN_BEMF_div u d.val / 256, keNum := p.keNum + 1 } else u)) ∧
    (∃ (d : Fin 4) (dt : Nat) (rising : Bool) (s : State),
      (s.crossOk (d.val) dt = false ∨ rising ≠ decide ((s.drive d.val).spin.step % 2 = 1) ∨ (s.drive d.val).spin.st ≠ SpState.start ∧
      (s.drive d.val).spin.st ≠ SpState.run)) :=
  ⟨⟨3, [0, 0, 0, 0, 100, 110], { wSpin { Spindle.reset with st := .detect } with liveSet := [(Reg.SPN_IPD 3, 0xA00000#32)] }, _, _, by decide,
      by decide, by decide, by decide, rfl, by decide⟩,
   ⟨3, [0, 0, 0, 0, 100, 109], { wSpin { Spindle.reset with st := .detect } with liveSet := [(Reg.SPN_IPD 3, 0xA00000#32)] }, _, _, by decide,
      by decide, by decide, by decide, rfl, by decide, by decide⟩,
   ⟨3, [0, 0, 0, 0, 100, 109], { wSpin { Spindle.reset with st := .detect, detRuns := 2 } with liveSet := [(Reg.SPN_IPD 3, 0xA00000#32)] }, _, _,
      by decide, by decide, by decide, by decide, rfl, by decide, by decide⟩,
   ⟨3, (wSpin { Spindle.reset with st := .detect, aligning := true }), by decide, by decide, by decide⟩,
   ⟨0, { wSpin { Spindle.reset with st := .detect } with liveSet := [(Reg.SPN_IPD 3, 0xA00000#32)] }, by decide, by decide⟩,
   ⟨3, (wSpin { Spindle.reset with st := .start }), by decide, by decide⟩,
   ⟨3, { wSpin { Spindle.reset with st := .detect } with liveSet := [(Reg.SPN_IPD 3, 0xA00000#32)] }, by decide, by decide⟩,
   ⟨3, (wSpin { Spindle.reset with st := .run, due := true }), by decide, by decide, by decide⟩,
   ⟨3, { wSpin { Spindle.reset with st := .detect } with liveSet := [(Reg.SPN_IPD 3, 0xA00000#32)] }, by decide, by decide⟩,
   ⟨3, 2500000, true, { wSpin { Spindle.reset with st := .start, forced := 1000000, crossRun := 5, step := 1 } with liveSet := [(Reg.SPN_MOTOR 3, 4#32), (Reg.SPN_COM 3, 0x0F08#32), (Reg.SPN_START2 3, 1000#32)] }, _, by decide, rfl, by decide, by decide, by decide, by decide, by decide⟩,
   ⟨3, 2500000, true, { wSpin { Spindle.reset with st := .start, forced := 1000000, crossRun := 4, step := 1 } with liveSet := [(Reg.SPN_MOTOR 3, 4#32), (Reg.SPN_COM 3, 0x0F08#32), (Reg.SPN_START2 3, 1000#32)] }, _, by decide, rfl, by decide, by decide, by decide, by decide⟩,
   ⟨3, 1000, false, { wSpin { Spindle.reset with st := .run, intervals := [1000, 1000] } with liveSet := [(Reg.SPN_MOTOR 3, 4#32), (Reg.SPN_COM 3, 0x0F08#32)] }, _, by decide, rfl, by decide, by decide, by decide, by decide⟩,
   ⟨3, 1000, false, 0, { wSpin { Spindle.reset with st := .run, locked := true, intervals := [1000, 1000] } with liveSet := [(Reg.SPN_MOTOR 3, 4#32), (Reg.SPN_COM 3, 0x0F08#32)] }, _, _, _, by decide, rfl, by decide, by decide, by decide, by decide, rfl, rfl⟩,
   ⟨3, 2500000, true, { wSpin { Spindle.reset with st := .detect } with liveSet := [(Reg.SPN_IPD 3, 0xA00000#32)] }, by decide⟩⟩

theorem witness_SpindleCurrentBrakeAndLoss :
    (∃ (s : State), s.serving = true) ∧
    (∃ (d : Fin 4) (ma : BitVec 16) (s : State) (u : State), s.serving = true ∧
      (u = s.modSpin d.val fun p => { p with pSum := p.pSum + ma.toNat * p.duty, pNum := p.pNum + 1 }) ∧
      (Cf.SPN_PROT_ioc u d.val < ma.toNat ∨ Cf.SPN_IFS_ma u d.val ≠ 0 ∧ Cf.SPN_IFS_ma u d.val ≤ ma.toNat)) ∧
    (∃ (d : Fin 4) (ma : BitVec 16) (s : State) (u : State), s.serving = true ∧
      (u = s.modSpin d.val fun p => { p with pSum := p.pSum + ma.toNat * p.duty, pNum := p.pNum + 1 }) ∧ ma.toNat ≤ Cf.SPN_PROT_ioc u d.val ∧
      (Cf.SPN_IFS_ma u d.val = 0 ∨ ma.toNat < Cf.SPN_IFS_ma u d.val)) ∧
    (∃ (d : Fin 4) (uv : Nat) (s : State) (slow : Prop), s.serving = true ∧ (s.drive d.val).spin.st = SpState.brake ∧
      slow = (uv * Cf.SPN_BEMF_div s d.val / 256 < 60 * Cf.SPN_KE_nom s d.val) ∧ slow ∧ 1 ≤ (s.drive d.val).spin.probes) ∧
    (∃ (d : Fin 4) (uv : Nat) (s : State) (slow : Prop), s.serving = true ∧ (s.drive d.val).spin.st = SpState.brake ∧
      slow = (uv * Cf.SPN_BEMF_div s d.val / 256 < 60 * Cf.SPN_KE_nom s d.val) ∧ slow ∧ (s.drive d.val).spin.probes = 0) ∧
    (∃ (d : Fin 4) (uv : Nat) (s : State) (slow : Prop), s.serving = true ∧ (s.drive d.val).spin.st = SpState.brake ∧
      slow = (uv * Cf.SPN_BEMF_div s d.val / 256 < 60 * Cf.SPN_KE_nom s d.val) ∧ ¬slow) ∧
    (∃ (d : Fin 4) (s : State), (s.drive d.val).spin.st ≠ SpState.brake) ∧
    (∃ (d : Fin 4) (s : State), s.serving = true ∧ ((s.drive d.val).spin.st = SpState.start ∨ (s.drive d.val).spin.st = SpState.run)) ∧
    (∃ (d : Fin 4) (s : State), s.serving = true ∧ (s.drive d.val).spin.st ≠ SpState.start ∧ (s.drive d.val).spin.st ≠ SpState.run) ∧
    (∃ (d : Fin 4) (s : State), s.serving = true ∧ (s.drive d.val).spin.st = SpState.stopped ∧ (s.drive d.val).spin.waiting = true ∧
      (s.drive d.val).spin.retries < Cf.SPN_START_retries s d.val) ∧
    (∃ (d : Fin 4) (s : State), s.serving = true ∧ (s.drive d.val).spin.st = SpState.stopped ∧ (s.drive d.val).spin.waiting = true ∧
      Cf.SPN_START_retries s d.val ≤ (s.drive d.val).spin.retries) ∧
    (∃ (d : Fin 4) (s : State), s.serving = true ∧ ((s.drive d.val).spin.st ≠ SpState.stopped ∨ (s.drive d.val).spin.waiting = false)) ∧
    (∃ (d : Fin 4) (s : State), s.serving = true ∧ (s.drive d.val).spin.st = SpState.run ∧ Cf.SPN_CTL_idle_s s d.val ≠ 0 ∧
      s.driveBusy d.val = false ∧ (s.drive d.val).spin.lastWork + 1000 * Cf.SPN_CTL_idle_s s d.val ≤ s.tm.mono) ∧
    (∃ (d : Fin 4) (s : State), s.serving = true ∧
      (Cf.SPN_CTL_idle_s s d.val = 0 ∨ s.driveBusy d.val = true ∨ (s.drive d.val).spin.st ≠ SpState.run ∨ s.tm.mono < (s.drive d.val).spin.lastWork + 1000 * Cf.SPN_CTL_idle_s s d.val)) ∧
    (∃ (d : Fin 4) (s : State), s.serving = true ∧ (s.drive d.val).spin.st = SpState.run ∧ (s.drive d.val).spin.misses = 0) ∧
    (∃ (d : Fin 4) (s : State), s.serving = true ∧ (s.drive d.val).spin.st = SpState.run ∧ (s.drive d.val).spin.misses ≠ 0) ∧
    (∃ (d : Fin 4) (s : State), s.serving = true ∧ (s.drive d.val).spin.st ≠ SpState.run) ∧
    (∃ (d : Fin 4) (l : List Nat) (s : State) (m : Int), s.serving = true ∧ (s.drive d.val).spin.st = SpState.lost ∧ l.length = 5 ∧ steady l = true ∧
      (m = speedQ (s.pp d.val) (List.foldl (fun a b => a + b) 0 l / 5) 0) ∧ 2 * m < (s.drive d.val).spin.heldSp) ∧
    (∃ (d : Fin 4) (l : List Nat) (s : State) (m : Int), s.serving = true ∧ (s.drive d.val).spin.st = SpState.lost ∧ l.length = 5 ∧ steady l = true ∧
      (m = speedQ (s.pp d.val) (List.foldl (fun a b => a + b) 0 l / 5) 0) ∧ (s.drive d.val).spin.heldSp ≤ 2 * m ∧
      ((s.drive d.val).axis 2).st ≠ AxState.lateOpen) ∧
    (∃ (d : Fin 4) (l : List Nat) (s : State) (m : Int), s.serving = true ∧ (s.drive d.val).spin.st = SpState.lost ∧ l.length = 5 ∧ steady l = true ∧
      (m = speedQ (s.pp d.val) (List.foldl (fun a b => a + b) 0 l / 5) 0) ∧ (s.drive d.val).spin.heldSp ≤ 2 * m ∧
      ((s.drive d.val).axis 2).st = AxState.lateOpen) ∧
    (∃ (d : Fin 4) (l : List Nat) (s : State), ((s.drive d.val).spin.st ≠ SpState.lost ∨ l.length ≠ 5 ∨ steady l = false)) ∧
    (∃ (d : Fin 4) (s : State), s.serving = true ∧ (s.drive d.val).spin.st = SpState.lost) ∧
    (∃ (d : Fin 4) (s : State), s.serving = true ∧ (s.drive d.val).spin.st = SpState.run ∧ (s.drive d.val).spin.waiting = true ∧
      ((s.drive d.val).axis 2).st = AxState.lateOpen) ∧
    (∃ (d : Fin 4) (s : State), s.serving = true ∧ (s.drive d.val).spin.st ≠ SpState.lost ∧ ((s.drive d.val).axis 2).st ≠ AxState.lateOpen) :=
  ⟨⟨{ wSpin { Spindle.reset with st := .brake, probes := 1 } with liveSet := [(Reg.SPN_KE 3, 1#32), (Reg.SPN_BEMF 3, 256#32)] }, by decide⟩,
   ⟨3, 1, { wSpin { Spindle.reset with st := .brake, probes := 1 } with liveSet := [(Reg.SPN_KE 3, 1#32), (Reg.SPN_BEMF 3, 256#32)] }, _, by decide,
      rfl, by decide⟩,
   ⟨3, 0, { wSpin { Spindle.reset with st := .brake, probes := 1 } with liveSet := [(Reg.SPN_KE 3, 1#32), (Reg.SPN_BEMF 3, 256#32)] }, _, by decide,
      rfl, by decide, by decide⟩,
   ⟨3, 59, { wSpin { Spindle.reset with st := .brake, probes := 1 } with liveSet := [(Reg.SPN_KE 3, 1#32), (Reg.SPN_BEMF 3, 256#32)] }, _,
      by decide, by decide, rfl, by decide, by decide⟩,
   ⟨3, 59, { wSpin { Spindle.reset with st := .brake } with liveSet := [(Reg.SPN_KE 3, 1#32), (Reg.SPN_BEMF 3, 256#32)] }, _, by decide, by decide,
      rfl, by decide, by decide⟩,
   ⟨3, 60, { wSpin { Spindle.reset with st := .brake, probes := 1 } with liveSet := [(Reg.SPN_KE 3, 1#32), (Reg.SPN_BEMF 3, 256#32)] }, _,
      by decide, by decide, rfl, by decide⟩,
   ⟨0, { wSpin { Spindle.reset with st := .brake, probes := 1 } with liveSet := [(Reg.SPN_KE 3, 1#32), (Reg.SPN_BEMF 3, 256#32)] }, by decide⟩,
   ⟨3, (wSpin { Spindle.reset with st := .start }), by decide, by decide⟩,
   ⟨3, { wSpin { Spindle.reset with st := .brake, probes := 1 } with liveSet := [(Reg.SPN_KE 3, 1#32), (Reg.SPN_BEMF 3, 256#32)] }, by decide,
      by decide, by decide⟩,
   ⟨3, { wSpin { Spindle.reset with waiting := true, retries := 2 } with liveSet := [(Reg.SPN_START 3, 0x3000000#32)] }, by decide, by decide,
      by decide, by decide⟩,
   ⟨3, { wSpin { Spindle.reset with waiting := true, retries := 3 } with liveSet := [(Reg.SPN_START 3, 0x3000000#32)] }, by decide, by decide,
      by decide, by decide⟩,
   ⟨3, { wSpin { Spindle.reset with st := .brake, probes := 1 } with liveSet := [(Reg.SPN_KE 3, 1#32), (Reg.SPN_BEMF 3, 256#32)] }, by decide,
      by decide⟩,
   ⟨3, { wSpin { Spindle.reset with st := .run, lastWork := 999000000 } with liveSet := [(Reg.SPN_CTL 3, 0x3E80000#32)] }, by decide, by decide,
      by decide, by decide, by decide⟩,
   ⟨3, { wSpin { Spindle.reset with st := .brake, probes := 1 } with liveSet := [(Reg.SPN_KE 3, 1#32), (Reg.SPN_BEMF 3, 256#32)] }, by decide,
      by decide⟩,
   ⟨3, { wSpin { Spindle.reset with st := .run, lastWork := 999000000 } with liveSet := [(Reg.SPN_CTL 3, 0x3E80000#32)] }, by decide, by decide,
      by decide⟩,
   ⟨3, (wSpin { Spindle.reset with st := .run, misses := 1 }), by decide, by decide, by decide⟩,
   ⟨3, { wSpin { Spindle.reset with st := .brake, probes := 1 } with liveSet := [(Reg.SPN_KE 3, 1#32), (Reg.SPN_BEMF 3, 256#32)] }, by decide,
      by decide⟩,
   ⟨3, [400000, 400000, 400000, 400000, 500000],
      { wSpin { Spindle.reset with st := .lost, heldSp := 10000000000000 } with liveSet := [(Reg.SPN_MOTOR 3, 4#32)] }, _, by decide, by decide,
      by decide, by decide, rfl, by decide⟩,
   ⟨3, [400000, 400000, 400000, 400000, 500000], { wSpin { Spindle.reset with st := .lost } with liveSet := [(Reg.SPN_MOTOR 3, 4#32)] }, _,
      by decide, by decide, by decide, by decide, rfl, by decide, by decide⟩,
   ⟨3, [400000, 400000, 400000, 400000, 500000],
      { wD { Drive.reset with spin := { Spindle.reset with st := .lost }, ax := [Ax.reset, Ax.reset, { Ax.reset with st := .lateOpen }, Ax.reset] } with liveSet := [(Reg.SPN_MOTOR 3, 4#32)] }, _, by decide, by decide, by decide, by decide, rfl, by decide, by decide⟩,
   ⟨3, [400000, 400000, 400000, 400000, 500000],
      { wSpin { Spindle.reset with st := .brake, probes := 1 } with liveSet := [(Reg.SPN_KE 3, 1#32), (Reg.SPN_BEMF 3, 256#32)] }, by decide⟩,
   ⟨3, { wSpin { Spindle.reset with st := .lost, heldSp := 10000000000000 } with liveSet := [(Reg.SPN_MOTOR 3, 4#32)] }, by decide, by decide⟩,
   ⟨3, (wD { Drive.reset with spin := { Spindle.reset with st := .run, waiting := true }, ax := [Ax.reset, Ax.reset, { Ax.reset with st := .lateOpen }, Ax.reset] }), by decide, by decide, by decide, by decide⟩,
   ⟨3, { wSpin { Spindle.reset with st := .brake, probes := 1 } with liveSet := [(Reg.SPN_KE 3, 1#32), (Reg.SPN_BEMF 3, 256#32)] }, by decide,
      by decide, by decide⟩⟩

theorem witness_SeekAndReadChannel :
    (∃ (d : Fin 4) (s : State) (u : State), s.serving = true ∧
      (u = ((s.take (axisOf (d.val) 1)).touchDrive d.val).modDrive d.val fun r => { r with target := pbaWobble (Cf.SRV_SEEK_target ((s.take (axisOf (d.val) 1)).touchDrive d.val) (axisOf (d.val) 1)), failed := 0 }) ∧ (u.drive d.val).seq = Seq.none) ∧
    (∃ (d : Fin 4) (s : State) (u : State), s.serving = true ∧
      (u = ((s.take (axisOf (d.val) 1)).touchDrive d.val).modDrive d.val fun r => { r with target := pbaWobble (Cf.SRV_SEEK_target ((s.take (axisOf (d.val) 1)).touchDrive d.val) (axisOf (d.val) 1)), failed := 0 }) ∧ (u.drive d.val).seq = Seq.long) ∧
    (∃ (d : Fin 4) (s : State) (u : State) (a : Nat) (b : Int) (c : Nat) (e : Int), s.serving = true ∧
      (u = ((s.take (axisOf (d.val) 1)).touchDrive d.val).modDrive d.val fun r => { r with target := pbaWobble (Cf.SRV_SEEK_target ((s.take (axisOf (d.val) 1)).touchDrive d.val) (axisOf (d.val) 1)), failed := 0 }) ∧ (u.drive d.val).seq = Seq.short a b c e) ∧
    (∃ (d : Fin 4) (now : Nat) (s : State) (u : State) (v : State) (r : Machine.Drive) (dist : Int) (n : Nat), s.serving = true ∧ r = s.drive d.val ∧
      r.confirm = true ∧ dist = trackDist now r.target (s.zoneW (d.val) r.layer (slotZone r.layer (now / slotWobbles))) ∧ n = r.failed + 1 ∧
      (v = s.modDrive d.val fun r => { r with track := now, confirm := false, landed := false }) ∧
      (u = v.modDrive d.val fun r => { r with failed := n }) ∧ dist = 0) ∧
    (∃ (d : Fin 4) (now : Nat) (s : State) (u : State) (v : State) (r : Machine.Drive) (dist : Int) (n : Nat), s.serving = true ∧ r = s.drive d.val ∧
      r.confirm = true ∧ dist = trackDist now r.target (s.zoneW (d.val) r.layer (slotZone r.layer (now / slotWobbles))) ∧ n = r.failed + 1 ∧
      (v = s.modDrive d.val fun r => { r with track := now, confirm := false, landed := false }) ∧
      (u = v.modDrive d.val fun r => { r with failed := n }) ∧ dist ≠ 0 ∧ r.landed = true) ∧
    (∃ (d : Fin 4) (now : Nat) (s : State) (u : State) (v : State) (r : Machine.Drive) (dist : Int) (n : Nat), s.serving = true ∧ r = s.drive d.val ∧
      r.confirm = true ∧ dist = trackDist now r.target (s.zoneW (d.val) r.layer (slotZone r.layer (now / slotWobbles))) ∧ n = r.failed + 1 ∧
      (v = s.modDrive d.val fun r => { r with track := now, confirm := false, landed := false }) ∧
      (u = v.modDrive d.val fun r => { r with failed := n }) ∧ dist ≠ 0 ∧ r.landed = false ∧ n < 3) ∧
    (∃ (d : Fin 4) (now : Nat) (s : State) (u : State) (v : State) (r : Machine.Drive) (dist : Int) (n : Nat), s.serving = true ∧ r = s.drive d.val ∧
      r.confirm = true ∧ dist = trackDist now r.target (s.zoneW (d.val) r.layer (slotZone r.layer (now / slotWobbles))) ∧ n = r.failed + 1 ∧
      (v = s.modDrive d.val fun r => { r with track := now, confirm := false, landed := false }) ∧
      (u = v.modDrive d.val fun r => { r with failed := n }) ∧ dist ≠ 0 ∧ r.landed = false ∧ n = 3) ∧
    (∃ (d : Fin 4) (now : Nat) (s : State) (u : State) (v : State) (r : Machine.Drive) (dist : Int) (n : Nat), s.serving = true ∧ r = s.drive d.val ∧
      r.confirm = true ∧ dist = trackDist now r.target (s.zoneW (d.val) r.layer (slotZone r.layer (now / slotWobbles))) ∧ n = r.failed + 1 ∧
      (v = s.modDrive d.val fun r => { r with track := now, confirm := false, landed := false }) ∧
      (u = v.modDrive d.val fun r => { r with failed := n }) ∧ dist ≠ 0 ∧ r.landed = false ∧ 3 < n ∧ n ≤ 6) ∧
    (∃ (d : Fin 4) (now : Nat) (s : State) (u : State) (v : State) (r : Machine.Drive) (dist : Int) (n : Nat), s.serving = true ∧ r = s.drive d.val ∧
      r.confirm = true ∧ dist = trackDist now r.target (s.zoneW (d.val) r.layer (slotZone r.layer (now / slotWobbles))) ∧ n = r.failed + 1 ∧
      (v = s.modDrive d.val fun r => { r with track := now, confirm := false, landed := false }) ∧
      (u = v.modDrive d.val fun r => { r with failed := n }) ∧ dist ≠ 0 ∧ r.landed = false ∧ 6 < n) ∧
    (∃ (d : Fin 4) (s : State), (s.drive d.val).confirm = false) ∧
    (∃ (d : Fin 4) (errs : List (BitVec 8)) (kbps : BitVec 18) (s : State) (u : State), s.serving = true ∧ s.hasDisc d.val = true ∧
      (u = s.modRdc d.val fun c => have __src := List.foldl ReadChannel.wobble c errs; { __src with kbps := kbps.toNat }) ∧
      (u.drive d.val).rdc.clkLock = true ∧ u.rateOk d.val = true) ∧
    (∃ (d : Fin 4) (errs : List (BitVec 8)) (kbps : BitVec 18) (s : State) (u : State), s.serving = true ∧ s.hasDisc d.val = true ∧
      (u = s.modRdc d.val fun c => have __src := List.foldl ReadChannel.wobble c errs; { __src with kbps := kbps.toNat }) ∧
      ((u.drive d.val).rdc.clkLock = false ∨ u.rateOk d.val = false)) ∧
    (∃ (d : Fin 4) (s : State), s.serving = true ∧ s.hasDisc d.val = true) ∧
    (∃ (d : Fin 4) (s : State), s.hasDisc d.val = false) ∧
    (∃ (d : Fin 4) (s : State), ((s.drive d.val).rdc.started = false ∨ s.rateOk d.val = false)) ∧
    (∃ (d : Fin 4) (start : Option (BitVec 21)) (s : State) (c : ReadChannel) (x : Rx), s.serving = true ∧ c = (s.drive d.val).rdc ∧
      c.started = true ∧ s.rateOk d.val = true ∧ (x = match start with | some p => Rx.begin (s.rxCfg d.val) c.rx p.toNat | none => c.rx) ∧
      x.pba.isSome = true) ∧
    (∃ (d : Fin 4) (start : Option (BitVec 21)) (s : State) (c : ReadChannel) (x : Rx), s.serving = true ∧ c = (s.drive d.val).rdc ∧
      c.started = true ∧ s.rateOk d.val = true ∧ (x = match start with | some p => Rx.begin (s.rxCfg d.val) c.rx p.toNat | none => c.rx) ∧
      x.pba.isSome = false) :=
  ⟨⟨0, (wD { Drive.reset with seq := .long }), _, by decide, rfl, by decide⟩,
   ⟨3, (wD { Drive.reset with seq := .long }), _, by decide, rfl, by decide⟩,
   ⟨3, (wD { Drive.reset with seq := .short 1 2 3 4 }), _, _, _, _, _, by decide, rfl, rfl⟩,
   ⟨3, 100, (wD { Drive.reset with confirm := true, layer := 1, target := 149, failed := 0, rdc := { ReadChannel.reset with zw := (List.range 40).map (fun z => (64 + z, 100)) } }), _, _, _, _, _, by decide, rfl, by decide, rfl, rfl, rfl, rfl, by decide⟩,
   ⟨3, 0, (wD { Drive.reset with confirm := true, landed := true, layer := 1, target := 149, rdc := { ReadChannel.reset with zw := (List.range 40).map (fun z => (64 + z, 100)) } }), _, _, _, _, _, by decide, rfl, by decide, rfl, rfl, rfl, rfl, by decide, by decide⟩,
   ⟨3, 0, (wD { Drive.reset with confirm := true, layer := 1, target := 149, failed := 0, rdc := { ReadChannel.reset with zw := (List.range 40).map (fun z => (64 + z, 100)) } }), _, _, _, _, _, by decide, rfl, by decide, rfl, rfl, rfl, rfl, by decide, by decide, by decide⟩,
   ⟨3, 0, (wD { Drive.reset with confirm := true, layer := 1, target := 151, failed := 2, rdc := { ReadChannel.reset with zw := (List.range 40).map (fun z => (64 + z, 100)) } }), _, _, _, _, _, by decide, rfl, by decide, rfl, rfl, rfl, rfl, by decide, by decide, by decide⟩,
   ⟨3, 0, (wD { Drive.reset with confirm := true, layer := 1, target := 151, failed := 5, rdc := { ReadChannel.reset with zw := (List.range 40).map (fun z => (64 + z, 100)) } }), _, _, _, _, _, by decide, rfl, by decide, rfl, rfl, rfl, rfl, by decide, by decide, by decide, by decide⟩,
   ⟨3, 0, (wD { Drive.reset with confirm := true, layer := 1, target := 151, failed := 6, rdc := { ReadChannel.reset with zw := (List.range 40).map (fun z => (64 + z, 100)) } }), _, _, _, _, _, by decide, rfl, by decide, rfl, rfl, rfl, rfl, by decide, by decide, by decide⟩,
   ⟨3, (wD { Drive.reset with seq := .long }), by decide⟩,
   ⟨3, [4], 20000, { wRdc { ReadChannel.reset with lockRun := 63 } with liveSet := [(Reg.CLK_GATE_RUN, 0x40#32)] }, _, by decide, by decide, rfl,
      by decide, by decide⟩,
   ⟨3, [4], 19999, { wRdc { ReadChannel.reset with lockRun := 63 } with liveSet := [(Reg.CLK_GATE_RUN, 0x40#32)] }, _, by decide, by decide, rfl,
      by decide⟩,
   ⟨3, { wRdc { ReadChannel.reset with lockRun := 63 } with liveSet := [(Reg.CLK_GATE_RUN, 0x40#32)] }, by decide, by decide⟩,
   ⟨3, (wD { Drive.reset with seq := .long }), by decide⟩,
   ⟨3, (wD { Drive.reset with seq := .long }), by decide⟩,
   ⟨3, none, (wRdc { ReadChannel.reset with started := true, kbps := 250000, rx := { Rx.reset with pba := some 0 } }), _, _, by decide, rfl,
      by decide, by decide, rfl, by decide⟩,
   ⟨3, none, { wRdc { ReadChannel.reset with started := true, kbps := 250000 } with liveSet := [(Reg.CLK_GATE_RUN, 0x40#32)] }, _, _, by decide,
      rfl, by decide, by decide, rfl, by decide⟩⟩

theorem witness_ArchiveIntakeAndDone :
    (∃ (s : State) (g : Segment), s.serving = true ∧ s.admissible = some g) ∧
    (∃ (s : State), s.serving = true ∧ s.admissible = none) ∧
    (∃ (s : State) (num : Nat) (want : Nat) (first : Nat) (run : Nat) (rest : List Nat) (g : Segment), s.serving = true ∧
      s.arc.active = num :: rest ∧ s.setWritable = true ∧ s.arc.rebuilding = false ∧ s.findSeg num = some g ∧ g.todo = (first, run) ∧
      want = min 96 run ∧ (s.getInst g.inst).arcDur < (s.getInst g.inst).arcSeq + want) ∧
    (∃ (reads : List NandRead) (s : State) (u : State) (num : Nat) (n : Nat) (want : Nat) (first : Nat) (run : Nat) (rest : List Nat) (g : Segment) (w : State), s.serving = true ∧ s.arc.active = num :: rest ∧ s.setWritable = true ∧ s.arc.rebuilding = false ∧ s.findSeg num = some g ∧ g.todo = (first, run) ∧ want = min 96 run ∧ (s.getInst g.inst).arcSeq + want ≤ (s.getInst g.inst).arcDur ∧ s.formatRun num reads first want = (n, u) ∧ (w = if n = 0 then u else u.pendRun { inst := g.inst, first := decide (first = 0), last := decide (first + n = g.blocks), len := n, seg := num, idx := first, slot := s.slotsUsed }) ∧ want ≤ n ∧ (∃ k, first + n + k < g.blocks ∧ ¬first + n + k ∈ g.verified)) ∧
    (∃ (reads : List NandRead) (s : State) (u : State) (num : Nat) (n : Nat) (want : Nat) (first : Nat) (run : Nat) (rest : List Nat) (g : Segment) (w : State), s.serving = true ∧ s.arc.active = num :: rest ∧ s.setWritable = true ∧ s.arc.rebuilding = false ∧ s.findSeg num = some g ∧ g.todo = (first, run) ∧ want = min 96 run ∧ (s.getInst g.inst).arcSeq + want ≤ (s.getInst g.inst).arcDur ∧ s.formatRun num reads first want = (n, u) ∧ (w = if n = 0 then u else u.pendRun { inst := g.inst, first := decide (first = 0), last := decide (first + n = g.blocks), len := n, seg := num, idx := first, slot := s.slotsUsed }) ∧ want ≤ n ∧ (∀ (k : Nat), first + n + k < g.blocks → first + n + k ∈ g.verified)) ∧
    (∃ (reads : List NandRead) (s : State) (u : State) (num : Nat) (n : Nat) (want : Nat) (first : Nat) (run : Nat) (rest : List Nat) (g : Segment) (w : State), s.serving = true ∧ s.arc.active = num :: rest ∧ s.setWritable = true ∧ s.arc.rebuilding = false ∧ s.findSeg num = some g ∧ g.todo = (first, run) ∧ want = min 96 run ∧ (s.getInst g.inst).arcSeq + want ≤ (s.getInst g.inst).arcDur ∧ s.formatRun num reads first want = (n, u) ∧ (w = if n = 0 then u else u.pendRun { inst := g.inst, first := decide (first = 0), last := decide (first + n = g.blocks), len := n, seg := num, idx := first, slot := s.slotsUsed }) ∧ n < want) ∧
    (∃ (s : State) (num : Nat) (rest : List Nat), s.serving = true ∧ s.arc.active = num :: rest ∧ s.setWritable = true ∧ s.arc.rebuilding = false ∧
      s.findSeg num = none) ∧
    (∃ (s : State), (s.arc.active = [] ∨ s.setWritable = false ∨ s.arc.rebuilding = true)) ∧
    (∃ (s : State), s.serving = true ∧ s.arc.active = [] ∧ s.arc.part ≠ [] ∧ s.arc.idle + Cf.ARC_CTL_fill_ms s ≤ s.tm.mono) ∧
    (∃ (s : State), (s.arc.active ≠ [] ∨ s.arc.part = [] ∨ s.tm.mono < s.arc.idle + Cf.ARC_CTL_fill_ms s)) ∧
    (∃ (num : Nat) (s : State) (u : State) (g : Segment), s.serving = true ∧ s.findSeg num = some g ∧ g.unpinAt = none ∧ s.segVerified g = true ∧
      s.doneRoom g.inst = true ∧ u = (s.markUnits g).jAdd (JEntry.unpin g.inst num)) ∧
    (∃ (num : Nat) (s : State) (g : Segment), s.serving = true ∧ s.findSeg num = some g ∧ g.unpinAt = none ∧
      (s.segVerified g = false ∨ s.doneRoom g.inst = false)) ∧
    (∃ (num : Nat) (s : State) (g : Segment) (n : Nat), s.serving = true ∧ s.findSeg num = some g ∧ g.unpinAt = some n ∧ n ≤ s.fss.jDone) ∧
    (∃ (num : Nat) (s : State) (g : Segment) (n : Nat), s.serving = true ∧ s.findSeg num = some g ∧ g.unpinAt = some n ∧ s.fss.jDone < n) ∧
    (∃ (num : Nat) (s : State), s.findSeg num = none) :=
  ⟨⟨{ wRec with fss := { wRec.fss with segs := [wSeg] } }, _, by decide, rfl⟩,
   ⟨{ wRec with arc := { wRec.arc with active := [1] }, fss := { wRec.fss with segs := [{ wSeg with active := true, cnt := 776, blocks := 97 }] } },
      by decide, by decide⟩,
   ⟨{ wRec with arc := { wRec.arc with active := [1] }, fss := { wRec.fss with segs := [{ wSeg with active := true }] }, inst := [(0, { wInst with arcDur := 0 })] }, _, _, _, _, _, _, by decide, rfl, by decide, by decide, rfl, rfl, rfl, by decide⟩,
   ⟨[], { wRec with arc := { wRec.arc with active := [1] }, fss := { wRec.fss with segs := [{ wSeg with active := true, cnt := 776, blocks := 97 }] } }, _, _, _, _, _, _, _, _, _, by decide, rfl, by decide, by decide, rfl, pair_eta _, rfl, by decide, pair_eta _, rfl, by decide, ⟨0, by decide +kernel, by decide +kernel⟩⟩,
   ⟨[], { wRec with arc := { wRec.arc with active := [1] }, fss := { wRec.fss with segs := [{ wSeg with active := true }] } }, _, _, _, _, _, _, _,
      _, _, by decide, rfl, by decide, by decide, rfl, pair_eta _, rfl, by decide, pair_eta _, rfl, by decide,
      fun k h => absurd (show 1 + k < 1 from h) (by omega)⟩,
   ⟨[], { wRec with arc := { wRec.arc with active := [1] }, fss := { wRec.fss with segs := [{ wSeg with active := true }], map := [(mapKey 0 0, puaLost)] } }, _, _, _, _, _, _, _, _, _, by decide, rfl, by decide, by decide, rfl, rfl, rfl, by decide, rfl, rfl, by decide⟩,
   ⟨{ wRec with arc := { wRec.arc with active := [1] } }, _, _, by decide, rfl, by decide, by decide, by decide⟩,
   ⟨{ wRec with fss := { wRec.fss with segs := [wSeg] } }, by decide⟩,
   ⟨{ wRec with arc := { wRec.arc with part := [⟨1, 0, 1, 0, 1, []⟩] } }, by decide, by decide, by decide, by decide⟩,
   ⟨{ wRec with fss := { wRec.fss with segs := [wSeg] } }, by decide⟩,
   ⟨1, { wRec with fss := { wRec.fss with segs := [{ wSeg with active := true, formatted := 1, verified := [0] }] } }, _, _, by decide, rfl,
      by decide, by decide, by decide, rfl⟩,
   ⟨1, { wRec with fss := { wRec.fss with segs := [{ wSeg with active := true, formatted := 1 }] } }, _, by decide, rfl, by decide, by decide⟩,
   ⟨1, { wRec with fss := { wRec.fss with segs := [{ wSeg with unpinAt := some 3 }], jDone := 3 } }, _, _, by decide, rfl, rfl, by decide⟩,
   ⟨1, { wRec with fss := { wRec.fss with segs := [{ wSeg with unpinAt := some 3 }], jDone := 2 } }, _, _, by decide, rfl, rfl, by decide⟩,
   ⟨0, { wRec with fss := { wRec.fss with segs := [wSeg] } }, by decide⟩⟩

theorem witness_ArchiveRecordingAndPowerCalibration :
    (∃ (s : State) (u : State) (t : Stripe), s.serving = true ∧ lowestStripe s.arc.ready = some t ∧ s.setWritable = true ∧ s.arc.rebuilding = false ∧
      s.sns.hot = false ∧ s.opcHolds = false ∧ s.calHolds = false ∧ s.arc.going.length < 8 ∧
      ((s.writeDrives.all fun d => s.canBurst d (pbaLayer t.pba)) = true) ∧ (∃ ps, ps = List.filterMap (fun d => s.posOf d) s.writeDrives ∧
      u = { s with arc := { s.arc with next := max s.arc.next (t.num + 1), ready := List.filter (fun x => decide (x.num ≠ t.num)) s.arc.ready, going := s.arc.going ++ [{ t with on := ps, ok := [], bad := false, open_ := ps }] } })) ∧
    (∃ (s : State), (lowestStripe s.arc.ready = none ∨ s.setWritable = false ∨ s.arc.rebuilding = true ∨ s.sns.hot = true ∨ s.opcHolds = true ∨ s.calHolds = true ∨ 8 ≤ s.arc.going.length ∨ ∀ (t : Stripe), lowestStripe s.arc.ready = some t → (s.writeDrives.all fun d => s.canBurst d (pbaLayer t.pba)) = false)) ∧
    (∃ (d : Fin 4) (num : Nat) (s : State) (u : State) (t : Stripe) (p : Nat) (r : Decoded) (good : Bool), s.serving = true ∧
      (List.find? (fun t => decide (t.num = num)) s.arc.going = some t) ∧ s.posOf d.val = some p ∧ (s.drive d.val).rdc.decoded = some r ∧
      t.open_.contains p = true ∧ r.pba = t.pba ∧ good = (s.verifies (d.val) r && decide (slice r.content 32832 64 = (s.stripeAddr t p).bytes)) ∧
      (u = s.modDrive d.val fun x => { x with rdc := { x.rdc with decoded := none, vfyFail := if good = true then x.rdc.vfyFail else inc16 x.rdc.vfyFail }, wst := have __src := x.wst.judged (!good) (pbaLayer t.pba); { __src with burst := if x.wst.burst = some num then none else x.wst.burst } })) ∧
    (∃ (d : Fin 4) (num : Nat) (s : State),
      (List.find? (fun t => decide (t.num = num)) s.arc.going = none ∨ (s.drive d.val).rdc.decoded = none ∨ s.posOf d.val = none ∨ ∃ t p r,
      List.find? (fun t => decide (t.num = num)) s.arc.going = some t ∧ s.posOf d.val = some p ∧ (s.drive d.val).rdc.decoded = some r ∧
      (t.open_.contains p = false ∨ r.pba ≠ t.pba))) ∧
    (∃ (s : State), s.serving = true ∧ s.setWritable = true ∧ s.pendingDue = true) ∧
    (∃ (s : State), s.serving = true ∧ (s.setWritable = false ∨ s.pendingDue = false)) ∧
    (∃ (d : Fin 4) (s : State) (others : List Nat), s.serving = true ∧ (others = List.filter (fun k => decide (k ≠ d.val)) s.writeDrives) ∧
      s.setWritable = true ∧ s.writeDrives.contains d.val = true ∧ (s.drive d.val).wst.gate = false ∧
      (s.drive d.val).wst.shutSince + 1000 * Cf.ARC_DEG_tmo_s s ≤ s.tm.mono ∧ others.length = 3 ∧ ((others.all fun k => s.gateOk k) = true)) ∧
    (∃ (d : Fin 4) (s : State) (others : List Nat), s.serving = true ∧ (others = List.filter (fun k => decide (k ≠ d.val)) s.writeDrives) ∧
      (s.setWritable = false ∨ (s.drive d.val).wst.gate = true ∨ others.length ≠ 3 ∨ s.writeDrives.contains d.val = false ∨ s.tm.mono < (s.drive d.val).wst.shutSince + 1000 * Cf.ARC_DEG_tmo_s s ∨ (others.all fun k => s.gateOk k) = false)) ∧
    (∃ (s : State), s.serving = true) ∧
    (∃ (d : Fin 4) (layer : Fin 2) (s : State), s.serving = true ∧ s.mayOpc d.val layer.val = false) ∧
    (∃ (d : Fin 4) (layer : Fin 2) (s : State), s.serving = true ∧ s.mayOpc d.val layer.val = true ∧ nth 0 (s.drive d.val).wst.pca layer.val ≠ 0) ∧
    (∃ (d : Fin 4) (layer : Fin 2) (s : State), s.serving = true ∧ s.mayOpc d.val layer.val = true ∧ nth 0 (s.drive d.val).wst.pca layer.val = 0) ∧
    (∃ (d : Fin 4) (layer : Fin 2) (s : State), s.serving = true ∧ (s.drive d.val).wst.opcBusy = true ∧ (s.drive d.val).layer = layer.val) ∧
    (∃ (d : Fin 4) (layer : Fin 2) (s : State), s.serving = true ∧ ((s.drive d.val).wst.opcBusy = false ∨ (s.drive d.val).layer ≠ layer.val)) :=
  ⟨⟨{ wRec with arc := { wRec.arc with ready := [⟨0, [], stripePba 0, stripePba 0, [], [], false, []⟩] } }, _, _, by decide, rfl, by decide,
      by decide, by decide, by decide, by decide, by decide, by decide, ⟨_, rfl, rfl⟩⟩,
   ⟨{ wRec with arc := { wRec.arc with going := [⟨0, [], 0, 0, [0, 1, 2, 3], [], false, [3]⟩] }, drives := List.replicate 4 { wRecDrive with rdc := { wRecDrive.rdc with decoded := some ⟨0, true, [], true, 0, 0, 0, 0, 0, 0⟩ } } }, by decide⟩,
   ⟨3, 0, { wRec with arc := { wRec.arc with going := [⟨0, [], 0, 0, [0, 1, 2, 3], [], false, [3]⟩] }, drives := List.replicate 4 { wRecDrive with rdc := { wRecDrive.rdc with decoded := some ⟨0, true, [], true, 0, 0, 0, 0, 0, 0⟩ } } }, _, _, _, _, false, by decide, rfl, rfl, rfl, by decide, by decide, by decide, rfl⟩,
   ⟨3, 0, wRec, Or.inl rfl⟩,
   ⟨{ wRec with arc := { wRec.arc with sinceSr := 16384 } }, by decide, by decide, by decide⟩,
   ⟨{ wRec with arc := { wRec.arc with ready := [⟨0, [], stripePba 0, stripePba 0, [], [], false, []⟩] } }, by decide, by decide⟩,
   ⟨3, { wRec with drives := [wRecDrive, wRecDrive, wRecDrive, { wRecDrive with wst := { wRecDrive.wst with gate := false } }] }, _, by decide, rfl,
      by decide, by decide, by decide, by decide, by decide, by decide⟩,
   ⟨3, { wRec with arc := { wRec.arc with ready := [⟨0, [], stripePba 0, stripePba 0, [], [], false, []⟩] } }, _, by decide, rfl, by decide⟩,
   ⟨{ wRec with arc := { wRec.arc with ready := [⟨0, [], stripePba 0, stripePba 0, [], [], false, []⟩] } }, by decide⟩,
   ⟨3, 0, { wRec with arc := { wRec.arc with ready := [⟨0, [], stripePba 0, stripePba 0, [], [], false, []⟩] } }, by decide, by decide⟩,
   ⟨3, 0, { wRec with drives := List.replicate 4 { wRecDrive with wst := { wRecDrive.wst with opcDue := [0, 1] } } }, by decide, by decide,
      by decide⟩,
   ⟨3, 1, { wRec with drives := List.replicate 4 { wRecDrive with layer := 1, wst := { wRecDrive.wst with opcDue := [0, 1] } } }, by decide,
      by decide, by decide⟩,
   ⟨3, 1, { wRec with drives := List.replicate 4 { wRecDrive with layer := 1, wst := { wRecDrive.wst with opcBusy := true } } }, by decide,
      by decide, by decide⟩,
   ⟨3, 0, { wRec with arc := { wRec.arc with ready := [⟨0, [], stripePba 0, stripePba 0, [], [], false, []⟩] } }, by decide, by decide⟩⟩

theorem witness_SetCommands :
    (∃ (id : Nat) (discs : List (Option DiscExam)) (set : SetExam) (fails : Nat) (s : State) (c : Cmd) (st : Nat) (res : Nat) (u : State),
      s.Runs id Op.load c ∧ (s.setFor c).loadSet (eArg0 c.entry) (decide (eByte c.entry 44 = 1)) discs set fails = (st, res, u)) ∧
    (∃ (s : State), s.serving = true ∧ (s.arc.reloadDue = false ∨ s.drivesLocked = false)) ∧
    (∃ (s : State), s.serving = true ∧ s.arc.reloadDue = true ∧ s.drivesLocked = true ∧ s.arc.named = 0) ∧
    (∃ (discs : List (Option DiscExam)) (set : SetExam) (s : State) (st : Nat) (res : Nat) (u : State), s.serving = true ∧ s.arc.reloadDue = true ∧
      s.drivesLocked = true ∧ s.arc.named ≠ 0 ∧
      ({ s with arc := { s.arc with reloadDue := false } } : State).loadSet s.arc.named false discs set 0 = (st, res, u) ∧ st = stSuccess) ∧
    (∃ (discs : List (Option DiscExam)) (set : SetExam) (s : State) (st : Nat) (res : Nat) (u : State), s.serving = true ∧ s.arc.reloadDue = true ∧
      s.drivesLocked = true ∧ s.arc.named ≠ 0 ∧
      ({ s with arc := { s.arc with reloadDue := false } } : State).loadSet s.arc.named false discs set 0 = (st, res, u) ∧ st ≠ stSuccess) ∧
    (∃ (id : Nat) (s : State) (c : Cmd), s.serving = true ∧ s.findCmd id = some c ∧ eOp c.entry = some Op.finalize ∧ c.stage = Stage.media) ∧
    (∃ (id : Nat) (s : State) (c : Cmd), s.serving = true ∧ s.findCmd id = some c ∧ eOp c.entry = some Op.finalize ∧ c.ready = true ∧
      c.stage ≠ Stage.media ∧ (s.arc.loaded = false ∨ s.arc.setId ≠ eArg0 c.entry)) ∧
    (∃ (id : Nat) (s : State) (c : Cmd), s.serving = true ∧ s.findCmd id = some c ∧ eOp c.entry = some Op.finalize ∧ c.ready = true ∧
      c.stage ≠ Stage.media ∧ s.arc.loaded = true ∧ s.arc.setId = eArg0 c.entry ∧ (s.arc.finalised = true ∨ s.setWritable = false ∧
      s.arc.full = false)) ∧
    (∃ (id : Nat) (s : State) (c : Cmd) (k : Cmd), s.serving = true ∧ s.findCmd id = some c ∧ eOp c.entry = some Op.finalize ∧ c.ready = true ∧
      c.stage ≠ Stage.media ∧ s.arc.loaded = true ∧ s.arc.setId = eArg0 c.entry ∧ s.arc.finalised = false ∧
      (s.setWritable = true ∨ s.arc.full = true) ∧ k = { c with stage := Stage.media, aux := b2n s.arc.full }) ∧
    (∃ (id : Nat) (disc : Option DiscExam) (s : State) (c : Cmd) (d : Nat), s.serving = true ∧ s.findCmd id = some c ∧
      eOp c.entry = some Op.rebuild ∧ c.ready = true ∧ c.stage ≠ Stage.media ∧ d = eByte c.entry 44 ∧ s.rebuildOk (eArg0 c.entry) d disc = false) ∧
    (∃ (id : Nat) (disc : Option DiscExam) (s : State) (u : State) (c : Cmd) (d : Nat), s.serving = true ∧ s.findCmd id = some c ∧
      eOp c.entry = some Op.rebuild ∧ c.ready = true ∧ c.stage ≠ Stage.media ∧ d = eByte c.entry 44 ∧ s.rebuildOk (eArg0 c.entry) d disc = true ∧
      u = { s with arc := { s.arc with rebuilding := true, lost := 0, redone := 0 } }) ∧
    (∃ (id : Nat) (reads : List (List (Option (List Byte)))) (s : State) (u : State) (v : State) (c : Cmd) (k : Cmd) (d : Nat) (p : Nat) (n : Nat),
      s.serving = true ∧ s.findCmd id = some c ∧ eOp c.entry = some Op.rebuild ∧ c.stage = Stage.media ∧ d = eByte c.entry 44 ∧ p = s.missingPos ∧
      (n, u) = State.rebuildStripes d p reads c.aux s ∧ k = { c with aux := n } ∧ v = u.setCmd k ∧ u.arc.form ≤ n ∧ u.arc.going = []) ∧
    (∃ (id : Nat) (reads : List (List (Option (List Byte)))) (s : State) (u : State) (v : State) (c : Cmd) (k : Cmd) (d : Nat) (p : Nat) (n : Nat),
      s.serving = true ∧ s.findCmd id = some c ∧ eOp c.entry = some Op.rebuild ∧ c.stage = Stage.media ∧ d = eByte c.entry 44 ∧ p = s.missingPos ∧
      (n, u) = State.rebuildStripes d p reads c.aux s ∧ k = { c with aux := n } ∧ v = u.setCmd k ∧ (n < u.arc.form ∨ u.arc.going ≠ [])) ∧
    (∃ (id : Nat) (s : State), s.findCmd id = none) :=
  ⟨⟨1, [], wSet, 0, (wRun 0x48 0 0 0 0 0 0), _, _, _, _, ⟨by decide, rfl, by decide, by decide⟩, triple_eta _⟩,
   ⟨(wRun 0x48 0 0 0 0 0 0), by decide, by decide⟩,
   ⟨{ wS with arc := { wS.arc with reloadDue := true }, drives := List.replicate 4 wRecDrive, liveSet := [(Reg.CLK_GATE_RUN, 0x78#32)] }, by decide,
      by decide, by decide, by decide⟩,
   ⟨[some (wDisc 0), some (wDisc 1), some (wDisc 2), none], wSet,
      { wS with arc := { wS.arc with reloadDue := true, named := 5 }, drives := List.replicate 4 wRecDrive, liveSet := [(Reg.CLK_GATE_RUN, 0x78#32)] }, _, _, _, by decide, by decide, by decide, by decide, loadSet_named rfl (sid := (⟨5, 0, 2, 0, 0, 100, Config.deviceDigest⟩ : SidBody)) rfl (Or.inr rfl) rfl rfl, rfl⟩,
   ⟨[], wSet, { wS with arc := { wS.arc with reloadDue := true, named := 5 } }, _, _, _, by decide, by decide, by decide, by decide, triple_eta _,
      by decide⟩,
   ⟨1, { wRec with cmds := [{ wCmd (wEntry 0x49 0 5 0 0 0 0) with stage := .media }] }, _, by decide, rfl, by decide, by decide⟩,
   ⟨1, { wS with cmds := [wCmd (wEntry 0x49 0 5 0 0 0 0)] }, _, by decide, rfl, by decide, by decide, by decide, by decide⟩,
   ⟨1, { wRec with arc := { wRec.arc with finalised := true }, cmds := [wCmd (wEntry 0x49 0 5 0 0 0 0)] }, _, by decide, rfl, by decide, by decide,
      by decide, by decide, by decide, by decide⟩,
   ⟨1, { wRec with cmds := [wCmd (wEntry 0x49 0 5 0 0 0 0)] }, _, _, by decide, rfl, by decide, by decide, by decide, by decide, by decide,
      by decide, by decide, rfl⟩,
   ⟨1, none, { wS with cmds := [wCmd (wEntry 0x4A 0 5 0 0 0 3)] }, _, _, by decide, rfl, by decide, by decide, by decide, rfl, by decide⟩,
   ⟨1, (some { wDisc 3 with blank := true, sid := none }),
      { wRec with arc := { wRec.arc with pos := [some 0, some 1, some 2, none], active := [1] }, cmds := [wCmd (wEntry 0x4A 0 5 0 0 0 3)] }, _, _,
      _, by decide, rfl, by decide, by decide, by decide, rfl, by decide, rfl⟩,
   ⟨1, [], { wS with cmds := [{ wCmd (wEntry 0x4A 0 5 0 0 0 3) with stage := .media }] }, _, _, _, _, _, _, _, by decide, rfl, by decide, by decide,
      rfl, rfl, rfl, rfl, rfl, by decide, by decide⟩,
   ⟨1, [], { wS with cmds := [{ wCmd (wEntry 0x4A 0 5 0 0 0 3) with stage := .media }], arc := { wS.arc with form := 1 } }, _, _, _, _, _, _, _,
      by decide, rfl, by decide, by decide, rfl, rfl, rfl, rfl, rfl, by decide⟩,
   ⟨0, (wRun 0x48 0 0 0 0 0 0), by decide⟩⟩

theorem witness_ArchiveReads :
    (∃ (d : Fin 4) (s : State) (u : State) (pba : Nat) (r : Decoded), s.serving = true ∧ (s.drive d.val).rdc.rx.pba = some pba ∧
      u = s.decodeSlot d.val ∧ (u.drive d.val).rdc.decoded = some r ∧ u.wanted (d.val) pba = false) ∧
    (∃ (d : Fin 4) (s : State) (u : State) (pba : Nat) (r : Decoded), s.serving = true ∧ (s.drive d.val).rdc.rx.pba = some pba ∧
      u = s.decodeSlot d.val ∧ (u.drive d.val).rdc.decoded = some r ∧ u.wanted (d.val) pba = true) ∧
    (∃ (d : Fin 4) (s : State), (s.drive d.val).rdc.rx.pba = none) ∧
    (∃ (d : Fin 4) (s : State) (r : Decoded), s.serving = true ∧ (s.drive d.val).rdc.decoded = some r ∧ r.ok = false ∧
      s.wanted (d.val) r.pba = true ∧ (s.drive d.val).rdc.retry < Cf.RDC_RTRY_n s d.val) ∧
    (∃ (d : Fin 4) (s : State) (r : Decoded), s.serving = true ∧ (s.drive d.val).rdc.decoded = some r ∧
      (r.ok = true ∨ s.wanted (d.val) r.pba = false ∨ Cf.RDC_RTRY_n s d.val ≤ (s.drive d.val).rdc.retry)) ∧
    (∃ (d : Fin 4) (s : State), (s.drive d.val).rdc.decoded = none) ∧
    (∃ (id : Nat) (s : State) (c : Cmd), s.Runs id Op.identify c) :=
  ⟨⟨3, { wRec with drives := List.replicate 4 { wRecDrive with rdc := { wRecDrive.rdc with rx := { Rx.reset with pba := some 0 } } } }, _, _, _,
      by decide, rfl, rfl, rfl, by decide⟩,
   ⟨3, { wRec with drives := List.replicate 4 { wRecDrive with rdc := { wRecDrive.rdc with rx := { Rx.reset with pba := some (stripePba 0) } } }, arc := { wRec.arc with reads := [⟨1, some 0, 0, 1, 0, 0, 3, [⟨3, false, none⟩], false, .waits, [], false⟩] } }, _, _, _, by decide, rfl, rfl, rfl, by decide⟩,
   ⟨3, { wRec with drives := List.replicate 4 { wRecDrive with rdc := { wRecDrive.rdc with decoded := some ⟨stripePba 0, false, [], false, 0, 0, 0, 0, 0, 0⟩, retry := 2 } }, arc := { wRec.arc with reads := [⟨1, some 0, 0, 1, 0, 0, 3, [⟨3, false, none⟩], false, .waits, [], false⟩] }, liveSet := [(Reg.CLK_GATE_RUN, 0x78#32), (Reg.RDC_RTRY 3, 3#32)] }, by decide⟩,
   ⟨3, { wRec with drives := List.replicate 4 { wRecDrive with rdc := { wRecDrive.rdc with decoded := some ⟨stripePba 0, false, [], false, 0, 0, 0, 0, 0, 0⟩, retry := 2 } }, arc := { wRec.arc with reads := [⟨1, some 0, 0, 1, 0, 0, 3, [⟨3, false, none⟩], false, .waits, [], false⟩] }, liveSet := [(Reg.CLK_GATE_RUN, 0x78#32), (Reg.RDC_RTRY 3, 3#32)] }, _, by decide, rfl, by decide, by decide, by decide⟩,
   ⟨0, { wRec with drives := List.replicate 4 { wRecDrive with rdc := { wRecDrive.rdc with decoded := some ⟨stripePba 0, false, [], false, 0, 0, 0, 0, 0, 0⟩, retry := 2 } }, arc := { wRec.arc with reads := [⟨1, some 0, 0, 1, 0, 0, 3, [⟨3, false, none⟩], false, .waits, [], false⟩] }, liveSet := [(Reg.CLK_GATE_RUN, 0x78#32), (Reg.RDC_RTRY 3, 3#32)] }, _, by decide, rfl, by decide⟩,
   ⟨3, { wRec with drives := List.replicate 4 { wRecDrive with rdc := { wRecDrive.rdc with rx := { Rx.reset with pba := some 0 } } } }, by decide⟩,
   ⟨1, (wRun 8 1 0 0 0 0 0), _, ⟨by decide, rfl, by decide, by decide⟩⟩⟩

theorem witness_CalibrationItems :
    (∃ (s : State), s.serving = true ∧ s.cal.running = none) ∧
    (∃ (s : State) (k : Nat) (d : Nat) (t : Int), s.serving = true ∧ s.cal.running = some (k, d, t)) ∧
    (∃ (kind : Fin 16) (s : State), s.serving = true ∧ 10 < kind.val) ∧
    (∃ (kind : Fin 16) (s : State), s.serving = true ∧ kind.val = 10) ∧
    (∃ (kind : Fin 16) (d : Fin 4) (s : State) (e : Nat), s.serving = true ∧ kind.val < 10 ∧ (e = if kind.val ≤ 1 then 0 else d.val)) ∧
    (∃ (s : State), s.serving = true ∧ (∃ e, e ∈ s.cal.due ∧ 4 ≤ e.fst ∧ e.fst ≤ 7 ∧ e.snd.snd + 1000 * Cf.CAL_CFG_defer_s s ≤ s.tm.mono)) ∧
    (∃ (s : State), s.serving = true ∧ (∀ (e : Nat × Nat × Nat),
      e ∈ s.cal.due → 4 ≤ e.fst → e.fst ≤ 7 → s.tm.mono < e.snd.snd + 1000 * Cf.CAL_CFG_defer_s s)) ∧
    (∃ (s : State), s.serving = true ∧ s.cal.dirty ≠ 0 ∧ s.cal.lastStore + 60000 * Cf.CAL_CFG2_store_min s ≤ s.tm.mono) ∧
    (∃ (s : State), s.serving = true ∧ (s.cal.dirty = 0 ∨ s.tm.mono < s.cal.lastStore + 60000 * Cf.CAL_CFG2_store_min s)) :=
  ⟨⟨{ wS with cal := { wS.cal with due := [(4, 3, 0)] } }, by decide, by decide⟩,
   ⟨{ wS with cal := { wS.cal with running := some (10, 0, 400) } }, _, _, _, by decide, rfl⟩,
   ⟨15, { wS with cal := { wS.cal with running := some (10, 0, 400) } }, by decide, by decide⟩,
   ⟨10, { wS with cal := { wS.cal with running := some (10, 0, 400) } }, by decide, by decide⟩,
   ⟨0, 3, { wS with cal := { wS.cal with running := some (10, 0, 400) } }, _, by decide, by decide, rfl⟩,
   ⟨{ wS with cal := { wS.cal with due := [(4, 3, 0)] } }, by decide, by decide⟩,
   ⟨{ wS with cal := { wS.cal with running := some (10, 0, 400) } }, by decide, by decide⟩,
   ⟨{ wS with cal := { wS.cal with dirty := 32 } }, by decide, by decide, by decide⟩,
   ⟨{ wS with cal := { wS.cal with running := some (10, 0, 400) } }, by decide, by decide⟩⟩

theorem witness_FabricMonitorPowerModesAndCounter :
    (∃ (s : State), s.running = true ∧ s.stl.alarm = true) ∧
    (∃ (s : State), s.running = true ∧ s.stl.alarm = false) ∧
    (∃ (s : State), s.running = true) ∧
    (∃ (s : State), s.running = true ∧ s.stl.alarm = true ∧ Cf.STL_ALM_CFG_v_lo s + 10 ≤ s.stl.mv ∧ (∀ (n : Nat),
      n ∈ s.stl.idx → Cf.STL_ALM_CFG_s_lo s ≤ n) ∧ s.stl.goodSince + Cf.STL_ALM_CFG_hold_ms s ≤ s.tm.mono) ∧
    (∃ (s : State), s.running = true ∧ (s.stl.alarm = false ∨ s.stl.mv < Cf.STL_ALM_CFG_v_lo s + 10 ∨ (∃ n, n ∈ s.stl.idx ∧
      n < Cf.STL_ALM_CFG_s_lo s) ∨ s.tm.mono < s.stl.goodSince + Cf.STL_ALM_CFG_hold_ms s)) ∧
    (∃ (v : Word) (s : State), s.running = true ∧ fld v 0 1 = 1) ∧
    (∃ (v : Word) (s : State), s.running = true ∧ fld v 0 1 = 0) ∧
    (∃ (s : State) (t0 : Nat), s.serving = true ∧ s.trackIdle.clk.idleSince = some t0 ∧ Cf.CLK_PM_sleep_en s = 1 ∧ s.clk.mode = 0 ∧
      t0 + Cf.CLK_PM_idle_ms s ≤ s.tm.mono) ∧
    (∃ (s : State), s.serving = true ∧ (s.trackIdle.clk.idleSince = none ∨ Cf.CLK_PM_sleep_en s = 0 ∨ s.clk.mode ≠ 0)) ∧
    (∃ (s : State) (t0 : Nat), s.serving = true ∧ s.trackIdle.clk.idleSince = some t0 ∧ s.tm.mono < t0 + Cf.CLK_PM_idle_ms s) ∧
    (∃ (v : Word) (s : State), s.serving = true ∧ fld v 0 1 = 0) ∧
    (∃ (v : Word) (s : State), s.serving = true ∧ fld v 0 1 = 1 ∧ s.clk.fmcBusy = true) ∧
    (∃ (v : Word) (s : State), s.serving = true ∧ fld v 0 1 = 1 ∧ s.clk.fmcBusy = false) ∧
    (∃ (s : State), s.serving = true ∧ s.clk.fmcBusy = false) ∧
    (∃ (s : State), s.serving = true ∧ s.clk.fmcBusy = true) :=
  ⟨⟨{ wS with stl := { wS.stl with alarm := true } }, by decide, by decide⟩,
   ⟨{ wS with clk := { wS.clk with idleSince := some 999990000 }, liveSet := [(Reg.CLK_PM, 0x27100001#32)] }, by decide, by decide⟩,
   ⟨{ wS with stl := { wS.stl with alarm := true } }, by decide⟩,
   ⟨{ wS with stl := { wS.stl with alarm := true, mv := 710, idx := [900, 900], goodSince := 999999800 }, liveSet := [(Reg.STL_ALM_CFG, 0xC8000000#32 ||| 700#32 ||| (900#32 <<< 10))] }, by decide, by decide, by decide, by decide, by decide⟩,
   ⟨{ wS with stl := { wS.stl with alarm := true } }, by decide, by decide⟩,
   ⟨1, { wS with stl := { wS.stl with alarm := true } }, by decide, by decide⟩,
   ⟨0, { wS with stl := { wS.stl with alarm := true } }, by decide, by decide⟩,
   ⟨{ wS with clk := { wS.clk with idleSince := some 999990000 }, liveSet := [(Reg.CLK_PM, 0x27100001#32)] }, 999990000, by decide +kernel,
      by decide +kernel, by decide +kernel, by decide +kernel, by decide +kernel⟩,
   ⟨{ wS with stl := { wS.stl with alarm := true } }, by decide +kernel, by decide +kernel⟩,
   ⟨{ wS with clk := { wS.clk with idleSince := some 999990001 }, liveSet := [(Reg.CLK_PM, 0x27100001#32)] }, 999990001, by decide +kernel,
      by decide +kernel, by decide +kernel⟩,
   ⟨0, { wS with stl := { wS.stl with alarm := true } }, by decide, by decide⟩,
   ⟨1, { wS with clk := { wS.clk with fmcBusy := true } }, by decide, by decide, by decide⟩,
   ⟨1, { wS with stl := { wS.stl with alarm := true } }, by decide, by decide, by decide⟩,
   ⟨{ wS with stl := { wS.stl with alarm := true } }, by decide, by decide⟩,
   ⟨{ wS with clk := { wS.clk with fmcBusy := true } }, by decide, by decide⟩⟩

theorem witness_ClockSources :
    (∃ (s : State), s.hlt.porHeld = false ∧ s.clk.sel ≠ 0) ∧
    (∃ (s : State), s.hlt.porHeld = false ∧ s.clk.sel = 0) ∧
    (∃ (k : Fin 3) (s : State), s.hlt.porHeld = false ∧ bitN s.clk.ok k.val = true) ∧
    (∃ (k : Fin 3) (s : State), s.hlt.porHeld = false ∧ bitN s.clk.ok k.val = false) ∧
    (∃ (s : State), s.hlt.porHeld = false) ∧
    (∃ (s : State), s.hlt.porHeld = false ∧ s.clk.goingTo = none) ∧
    (∃ (s : State) (k : Nat), s.hlt.porHeld = false ∧ s.clk.goingTo = some k ∧ k = s.clk.sel) ∧
    (∃ (s : State) (k : Nat), s.hlt.porHeld = false ∧ s.clk.goingTo = some k ∧ k ≠ s.clk.sel) ∧
    (∃ (s : State) (back : Nat), s.hlt.porHeld = false ∧
      (back = maskOf 3 fun k => bitN s.clk.fault k && bitN s.clk.renewed k && decide (8 * Cf.CLK_SUP_CFG_return_s s ≤ nth 0 s.clk.agreed k)) ∧
      back = 0) ∧
    (∃ (s : State) (back : Nat), s.hlt.porHeld = false ∧
      (back = maskOf 3 fun k => bitN s.clk.fault k && bitN s.clk.renewed k && decide (8 * Cf.CLK_SUP_CFG_return_s s ≤ nth 0 s.clk.agreed k)) ∧
      back ≠ 0) ∧
    (∃ (v : Word) (s : State), s.serving = true ∧ fld v 0 2 < s.clk.sel ∧ s.clkUsable (fld v 0 2) = true) ∧
    (∃ (v : Word) (s : State), s.serving = true ∧ (s.clk.sel ≤ fld v 0 2 ∨ s.clkUsable (fld v 0 2) = false)) :=
  ⟨⟨{ wS with clk := { wS.clk with sel := 1 } }, by decide, by decide⟩,
   ⟨{ wS with clk := { wS.clk with ok := 2 } }, by decide, by decide⟩,
   ⟨1, { wS with clk := { wS.clk with ok := 2 } }, by decide, by decide⟩,
   ⟨1, { wS with clk := { wS.clk with sel := 1 } }, by decide, by decide⟩,
   ⟨{ wS with clk := { wS.clk with sel := 1 } }, by decide⟩,
   ⟨{ wS with clk := { wS.clk with sel := 1 } }, by decide, by decide⟩,
   ⟨{ wS with clk := { wS.clk with sel := 1, goingTo := some 1 } }, _, by decide, rfl, by decide⟩,
   ⟨{ wS with clk := { wS.clk with sel := 1, goingTo := some 2 } }, _, by decide, rfl, by decide⟩,
   ⟨{ wS with clk := { wS.clk with sel := 1 } }, _, by decide, rfl, by decide⟩,
   ⟨{ wS with clk := { wS.clk with fault := 1, renewed := 1, agreed := [8, 0, 0] }, liveSet := [(Reg.CLK_SUP_CFG, 0x1000000#32)] }, _, by decide,
      rfl, by decide⟩,
   ⟨0, { wS with clk := { wS.clk with sel := 2, ok := 1 } }, by decide, by decide, by decide⟩,
   ⟨0, { wS with clk := { wS.clk with sel := 1 } }, by decide, by decide⟩⟩

theorem witness_Inputs :
    (∃ (s : State) (i : Fin 13) (v : Bool), s.running = true ∧ bitN s.inp.qual i.val = v) ∧
    (∃ (i : Fin 13) (s : State), s.running = true ∧ bitN s.inp.chat i.val = true ∧ s.rateLimit i.val = none ∧ s.judged i.val = true) ∧
    (∃ (i : Fin 13) (s : State) (lim : Nat) (w : Nat), s.running = true ∧ bitN s.inp.chat i.val = true ∧ i.val ≠ 11 ∧ s.rateLimit i.val = some (lim,
      w) ∧ nth 0 s.inp.since i.val + fineSec ≤ s.fine ∧ s.changesIn (i.val) (nth 0 s.inp.since i.val) fineSec ≤ lim) ∧
    (∃ (i : Fin 13) (s : State) (lim : Nat) (w : Nat), s.running = true ∧ bitN s.inp.chat i.val = true ∧ i.val ≠ 11 ∧ s.rateLimit i.val = some (lim,
      w) ∧ (s.fine < nth 0 s.inp.since i.val + fineSec ∨ lim < s.changesIn (i.val) (nth 0 s.inp.since i.val) fineSec)) ∧
    (∃ (s : State), s.running = true ∧ bitN s.inp.chat 11 = true ∧ s.judged 11 = true ∧ s.inp.rateBad + 200 * fineWindow ≤ s.fine) ∧
    (∃ (s : State), s.running = true ∧ bitN s.inp.chat 11 = true ∧ s.fine < s.inp.rateBad + 200 * fineWindow) ∧
    (∃ (i : Fin 13) (s : State), bitN s.inp.chat i.val = false) ∧
    (∃ (i : Fin 13) (s : State), bitN s.inp.stuck i.val = false) ∧
    (∃ (i : Fin 13) (s : State), s.judged i.val = false) ∧
    (∃ (i : Fin 13) (s : State) (t : Nat), s.running = true ∧ i.val < 8 ∧ nth none s.inp.pairSince (i.val % 4) = some t ∧
      t + Cf.INP_CFG_TRAY_pair_s s * fineSec < s.fine ∧ bitN s.inp.chat (i.val % 4) = false ∧ bitN s.inp.chat (4 + i.val % 4) = false) ∧
    (∃ (i : Fin 13) (s : State), s.running = true ∧ i.val < 8 ∧ nth none s.inp.pairSince (i.val % 4) = none) ∧
    (∃ (i : Fin 13) (s : State) (t : Nat), s.running = true ∧ i.val < 8 ∧ nth none s.inp.pairSince (i.val % 4) = some t ∧
      (s.fine ≤ t + Cf.INP_CFG_TRAY_pair_s s * fineSec ∨ bitN s.inp.chat (i.val % 4) = true ∨ bitN s.inp.chat (4 + i.val % 4) = true)) ∧
    (∃ (i : Fin 13) (s : State), s.running = true ∧ 8 ≤ i.val ∧ s.stuckRule i.val = none) ∧
    (∃ (i : Fin 13) (s : State) (v : Bool) (ms : Nat), s.running = true ∧ 8 ≤ i.val ∧ s.stuckRule i.val = some (v, ms) ∧
      (bitN s.inp.qual i.val ≠ v ∨ s.fine ≤ nth 0 s.inp.since i.val + ms * 32768 ∨ bitN s.inp.chat i.val = true ∨ s.judged i.val = false)) ∧
    (∃ (i : Fin 13) (s : State) (v : Bool) (ms : Nat), s.running = true ∧ 8 ≤ i.val ∧ s.judged i.val = true ∧ s.stuckRule i.val = some (v, ms) ∧
      bitN s.inp.qual i.val = v ∧ bitN s.inp.chat i.val = false ∧ nth 0 s.inp.since i.val + ms * 32768 < s.fine) ∧
    (∃ (i : Fin 13) (s : State) (v : Bool) (ms : Nat), s.running = true ∧ bitN s.inp.stuck i.val = true ∧ 8 ≤ i.val ∧ s.judged i.val = true ∧
      s.stuckRule i.val = some (v, ms) ∧ bitN s.inp.qual i.val ≠ v ∧ nth 0 s.inp.since i.val + fineSec ≤ s.fine) ∧
    (∃ (i : Fin 13) (s : State) (l : List Nat), s.running = true ∧ bitN s.inp.stuck i.val = true ∧ i.val < 8 ∧ l = [i.val % 4, 4 + i.val % 4] ∧
      s.pairApart (i.val % 4) = true) ∧
    (∃ (i : Fin 13) (s : State) (l : List Nat), s.running = true ∧ bitN s.inp.stuck i.val = true ∧ i.val < 8 ∧ l = [i.val % 4, 4 + i.val % 4] ∧
      s.pairApart (i.val % 4) = false) ∧
    (∃ (i : Fin 13) (s : State) (v : Bool) (ms : Nat), s.running = true ∧ 8 ≤ i.val ∧ s.stuckRule i.val = some (v, ms) ∧
      (bitN s.inp.qual i.val = v ∨ s.fine < nth 0 s.inp.since i.val + fineSec)) ∧
    (∃ (i : Fin 10) (code : BitVec 12) (s : State), s.running = true ∧ bitN s.inp.range i.val = false ∧ s.codeOut (i.val) code.toNat = true) ∧
    (∃ (i : Fin 10) (code : BitVec 12) (s : State), s.running = true ∧ (bitN s.inp.range i.val = true ∨ s.codeOut (i.val) code.toNat = false)) ∧
    (∃ (i : Fin 10) (code : BitVec 12) (s : State), s.running = true ∧ bitN s.inp.range i.val = true ∧ s.codeBack (i.val) code.toNat = true) ∧
    (∃ (i : Fin 10) (code : BitVec 12) (s : State), s.running = true ∧ (bitN s.inp.range i.val = false ∨ s.codeBack (i.val) code.toNat = false)) :=
  ⟨⟨{ wS with inp := { wS.inp with chat := 4096 } }, 12, true, by decide, by decide⟩,
   ⟨12, { wS with inp := { wS.inp with chat := 4096 } }, by decide, by decide, by decide, by decide⟩,
   ⟨8, { wS with inp := { wS.inp with chat := 256 } }, _, _, by decide, by decide, by decide, rfl, by decide, by decide⟩,
   ⟨8, { wS with inp := { wS.inp with chat := 256, since := List.replicate 13 100000000000000 } }, _, _, by decide, by decide, by decide, rfl,
      by decide⟩,
   ⟨{ wS with inp := { wS.inp with chat := 0x800 } }, by decide, by decide, by decide, by decide⟩,
   ⟨{ wS with inp := { wS.inp with chat := 0x800, rateBad := 100000000000000 } }, by decide, by decide, by decide⟩,
   ⟨7, { wS with inp := { wS.inp with chat := 4096 } }, by decide⟩,
   ⟨12, { wS with inp := { wS.inp with chat := 4096 } }, by decide⟩,
   ⟨11, { wS with liveSet := [(Reg.INP_DIS, 1#32)] }, by decide⟩,
   ⟨7, { wS with inp := { wS.inp with pairSince := [none, none, none, some 0] }, liveSet := [(Reg.INP_CFG_TRAY, 0x0A000000#32)] }, _, by decide,
      by decide, rfl, by decide, by decide, by decide⟩,
   ⟨7, { wS with inp := { wS.inp with chat := 4096 } }, by decide, by decide, by decide⟩,
   ⟨7, { wS with inp := { wS.inp with pairSince := [none, none, none, some 0], chat := 128 } }, _, by decide, by decide, rfl, by decide⟩,
   ⟨9, { wS with inp := { wS.inp with chat := 4096 } }, by decide, by decide, by decide⟩,
   ⟨12, { wS with inp := { wS.inp with chat := 4096 } }, false, 60000, by decide, by decide, by decide, by decide⟩,
   ⟨12, { wS with inp := { wS.inp with qual := 0x07FF } }, false, 60000, by decide, by decide, by decide, by decide, by decide, by decide, by decide⟩,
   ⟨12, { wS with inp := { wS.inp with stuck := 4096 } }, false, 60000, by decide, by decide, by decide, by decide, by decide, by decide, by decide⟩,
   ⟨7, { wS with inp := { wS.inp with stuck := 128, qual := 8 } }, _, by decide, by decide, by decide, rfl, by decide⟩,
   ⟨7, { wS with inp := { wS.inp with qual := 128, stuck := 128, pairSince := [none, none, none, some 0] } }, _, by decide, by decide, by decide,
      rfl, by decide⟩,
   ⟨12, { wS with inp := { wS.inp with qual := 0x07FF } }, false, 60000, by decide, by decide, by decide, by decide⟩,
   ⟨12, 60, { wS with inp := { wS.inp with chat := 4096 } }, by decide, by decide, by decide⟩,
   ⟨7, 60, { wS with inp := { wS.inp with chat := 4096 } }, by decide, by decide⟩,
   ⟨5, 60, { wS with inp := { wS.inp with range := 32 } }, by decide, by decide, by decide⟩,
   ⟨12, 60, { wS with inp := { wS.inp with chat := 4096 } }, by decide, by decide⟩⟩

theorem witness_BudgetSensorsAndClock :
    (∃ (s : State), s.running = true) ∧
    (∃ (s : State) (t : Nat), s.running = true ∧ s.sns.coolSince = some t ∧ t + 10000 ≤ s.tm.mono) ∧
    (∃ (s : State), s.running = true ∧ (s.sns.coolSince = none ∨ ∃ t, s.sns.coolSince = some t ∧ s.tm.mono < t + 10000)) ∧
    (∃ (v : Word) (s : State) (t : State), s.serving = true ∧
      (t = s.setReg Reg.HRN_THERM (if thermOk (BitVec.toNat v) = true then BitVec.ofNat 32 (BitVec.toNat v % 65536 + BitVec.toNat (s.reg Reg.HRN_THERM) / 65536 * 65536) else s.reg Reg.HRN_THERM))) ∧
    (∃ (s : State), s.serving = true) ∧
    (∃ (s : State), s.serving = true ∧ s.tm.pending = true) ∧
    (∃ (s : State), s.serving = true ∧ s.tm.pending = false) ∧
    (∃ (s : State), s.running = true ∧ s.tm.pending = true) ∧
    (∃ (s : State), s.tm.pending = false) :=
  ⟨⟨{ wS with sns := { wS.sns with coolSince := some 999990000 } }, by decide⟩,
   ⟨{ wS with sns := { wS.sns with coolSince := some 999990000 } }, _, by decide, rfl, by decide⟩,
   ⟨wS, by decide, by decide⟩,
   ⟨0x7350, { wS with sns := { wS.sns with coolSince := some 999990000 } }, _, by decide, rfl⟩,
   ⟨{ wS with sns := { wS.sns with coolSince := some 999990000 } }, by decide⟩,
   ⟨{ wS with tm := { wS.tm with pending := true } }, by decide, by decide⟩,
   ⟨{ wS with sns := { wS.sns with coolSince := some 999990000 } }, by decide, by decide⟩,
   ⟨{ wS with tm := { wS.tm with pending := true } }, by decide, by decide⟩,
   ⟨{ wS with sns := { wS.sns with coolSince := some 999990000 } }, by decide⟩⟩

theorem witness_RegisterAccess :
    (∃ (s : State), s.hlt.porHeld = false ∧ s.hlt.perstLow = false ∧ s.hlt.halt.isSome = true) ∧
    (∃ (off : BitVec 22) (s : State) (f : Func), s.hlt.porHeld = false ∧ s.hlt.perstLow = false ∧ s.hlt.halt = none ∧
      (s.barOpen (BitVec.toNat f) = false ∨ 32768 ≤ off.toNat)) ∧
    (∃ (off : BitVec 22) (w : Width) (s : State) (f : Func), s.hlt.porHeld = false ∧ s.hlt.perstLow = false ∧ s.hlt.halt = none ∧
      s.barOpen (BitVec.toNat f) = true ∧ s.wakeUp.inReset (BitVec.toNat f) = true ∧ 4 ≤ off.toNat ∧ off.toNat + w.bytes ≤ 32768) ∧
    (∃ (off : BitVec 22) (w : Width) (s : State) (l : List Byte) (t : State), s.hlt.porHeld = false ∧ s.hlt.perstLow = false ∧ s.hlt.halt = none ∧
      s.barOpen 0 = true ∧ readSpan State.readBar2 off.toNat w.bytes s.wakeUp = (l, t)) ∧
    (∃ (off : BitVec 22) (s : State) (v : Word) (t : State), s.hlt.porHeld = false ∧ s.hlt.perstLow = false ∧ s.hlt.halt = none ∧
      s.barOpen 0 = true ∧ off.toNat % 4 = 0 ∧ s.wakeUp.readWord off.toNat = (v, t)) ∧
    (∃ (off : BitVec 22) (w : Width) (s : State) (f : Func) (l : List Byte) (t : State), s.hlt.porHeld = false ∧ s.hlt.perstLow = false ∧
      s.hlt.halt = none ∧ s.barOpen (BitVec.toNat f) = true ∧ off.toNat < 32768 ∧
      readSpan (State.readBar0 (BitVec.toNat f)) off.toNat w.bytes s.wakeUp = (l, t)) ∧
    (∃ (off : BitVec 22) (s : State), s.hlt.porHeld = false ∧ s.hlt.perstLow = false ∧ off.toNat < 4096) ∧
    (∃ (off : BitVec 22) (s : State), s.hlt.porHeld = false ∧ s.hlt.perstLow = false ∧ 1024 ≤ off.toNat ∧ off.toNat < 1088) ∧
    (∃ (off : BitVec 22) (s : State) (f : Func), s.hlt.porHeld = false ∧ s.hlt.perstLow = false ∧ s.hlt.halt = none ∧ s.link.up = true ∧
      off.toNat < 4096 ∧ s.serving = true ∧ s.fnExists (BitVec.toNat f) = false) ∧
    (∃ (off : BitVec 22) (s : State), s.hlt.porHeld = false ∧ s.hlt.perstLow = false ∧ s.hlt.halt = none ∧ s.link.up = true ∧ off.toNat < 4096 ∧
      s.serving = false) ∧
    (∃ (s : State) (f : Func), (s.barOpen (BitVec.toNat f) = false ∨ s.inReset (BitVec.toNat f) = true)) ∧
    (∃ (s : State), s.barOpen 0 = false) ∧
    (∃ (s : State), s.cfgOpen 0 = false) ∧
    (∃ (off : BitVec 22) (data : List Byte), off.toNat % 4 = 0 ∧ data.length = 4 ∧ off.toNat < 4096) ∧
    (∃ (off : BitVec 22) (data : List Byte) (s : State), s.barOpen 0 = true ∧ 851968 ≤ off.toNat ∧ off.toNat < 917504 ∧
      (bar2Desc off.toNat).isSome = true ∧ off.toNat % 4 = 0 ∧ off.toNat % 4096 ≠ 4 ∧ data.length = 4) ∧
    (∃ (off : BitVec 22) (data : List Byte) (s : State), s.barOpen 0 = true ∧ (off.toNat % 4 ≠ 0 ∨ data.length % 4 ≠ 0) ∧
      touchesReg bar2Desc off.toNat data.length = true) ∧
    (∃ (off : BitVec 22) (data : List Byte) (s : State), s.barOpen 0 = true ∧ (off.toNat % 4 ≠ 0 ∨ data.length % 4 ≠ 0) ∧
      touchesReg bar2Desc off.toNat data.length = false) ∧
    (∃ (s : State), s.barOpen 0 = true) :=
  ⟨⟨{ wS with hlt := { wS.hlt with halt := some ⟨1, 0, none, 0, 0, 0, 0, 65535, false, 0, 0, false, false⟩ } }, by decide, by decide, by decide⟩,
   ⟨0xD0000, (wI { wInst with state := .resetting, reset := some ⟨1, 2, [], false, 0, 0⟩ }), 255, by decide, by decide, by decide, by decide⟩,
   ⟨8, .w32, (wI { wInst with state := .resetting, reset := some ⟨1, 2, [], false, 0, 0⟩ }), 255, by decide, by decide, by decide, by decide,
      by decide, by decide, by decide⟩,
   ⟨8, .w32, (wI { wInst with state := .resetting, reset := some ⟨1, 2, [], false, 0, 0⟩ }), _, _, by decide, by decide, by decide, by decide, rfl⟩,
   ⟨8, (wI { wInst with state := .resetting, reset := some ⟨1, 2, [], false, 0, 0⟩ }), _, _, by decide, by decide, by decide, by decide, by decide,
      rfl⟩,
   ⟨8, .w32, (wI { wInst with state := .resetting, reset := some ⟨1, 2, [], false, 0, 0⟩ }), 255, _, _, by decide, by decide, by decide, by decide,
      by decide, rfl⟩,
   ⟨8, (wI { wInst with state := .resetting, reset := some ⟨1, 2, [], false, 0, 0⟩ }), by decide, by decide, by decide⟩,
   ⟨0x43F, wS, by decide, by decide, by decide, by decide⟩,
   ⟨8, { wS with link := { wS.link with vfEnable := false } }, 255, by decide, by decide, by decide, by decide, by decide, by decide, by decide⟩,
   ⟨8, { wS with hlt := { wS.hlt with warming := true } }, by decide, by decide, by decide, by decide, by decide, by decide⟩,
   ⟨(wI { wInst with state := .resetting, reset := some ⟨1, 2, [], false, 0, 0⟩ }), 255, by decide⟩,
   ⟨{ wS with hlt := { wS.hlt with halt := some ⟨1, 0, none, 0, 0, 0, 0, 65535, false, 0, 0, false, false⟩ } }, by decide⟩,
   ⟨{ wS with hlt := { wS.hlt with halt := some ⟨1, 0, none, 0, 0, 0, 0, 65535, false, 0, 0, false, false⟩ } }, by decide⟩,
   ⟨8, [1, 2, 3, 4], by decide, by decide, by decide⟩,
   ⟨0xD0000, [1, 2, 3, 4], (wI { wInst with state := .resetting, reset := some ⟨1, 2, [], false, 0, 0⟩ }), by decide, by decide, by decide,
      by decide, by decide, by decide, by decide⟩,
   ⟨1, [1, 2, 3, 4], (wI { wInst with state := .resetting, reset := some ⟨1, 2, [], false, 0, 0⟩ }), by decide, by decide, by decide⟩,
   ⟨1, [], (wI { wInst with state := .resetting, reset := some ⟨1, 2, [], false, 0, 0⟩ }), by decide, by decide, by decide⟩,
   ⟨(wI { wInst with state := .resetting, reset := some ⟨1, 2, [], false, 0, 0⟩ }), by decide⟩⟩

theorem witness_WritableBits :
    (∃ (k : Nat) (r : RegDesc) (s : State) (i : Nat), s.Canon ∧ regDesc k = some r ∧ k ≠ 65588 ∧ i < 32 ∧ r.rw.testBit i = false ∧
      r.rws.testBit i = false) ∧
    (∃ (k : Nat) (r : RegDesc) (s : State) (j : Nat), s.Canon ∧ regDesc k = some r ∧ k ≠ 65588 ∧ j ≠ k) ∧
    (∃ (k : Nat) (r : RegDesc) (v : Word) (s : State), s.Canon ∧ regDesc k = some r ∧ k ≠ 65588 ∧ rsvWritten r v = false ∧
      (unstatedRange k && rangeRefused k r (s.reg k) v) = false) ∧
    (∃ (k : Nat) (r : RegDesc) (v : Word) (s : State), s.Canon ∧ regDesc k = some r ∧ k ≠ 65588 ∧ rsvWritten r v = true ∧
      (unstatedRange k && rangeRefused k r (s.reg k) v) = false) ∧
    (∃ (k : Nat) (r : RegDesc) (v : Word) (s : State), s.Canon ∧ regDesc k = some r ∧ k ≠ 65588 ∧ rsvWritten r v = false ∧
      (unstatedRange k && rangeRefused k r (s.reg k) v) = true) :=
  ⟨⟨Reg.CLK_PM, _, wS, 2, canon_of (by decide), rfl, by decide, by decide, by decide, by decide⟩,
   ⟨Reg.CLK_PM, _, wS, 1, canon_of (by decide), rfl, by decide, by decide⟩,
   ⟨Reg.CLK_PM, _, 0, wS, canon_of (by decide), rfl, by decide, by decide, by decide⟩,
   ⟨Reg.CLK_PM, _, 0x4, wS, canon_of (by decide), rfl, by decide, by decide, by decide⟩,
   ⟨Reg.CFG_EPOCH_TMO, _, 0, wS, canon_of (by decide), rfl, by decide, by decide, by decide⟩⟩

theorem witness_MonitorSession :
    (∃ (s : State) (u : State) (c : BitVec 64), s.mon.active = true ∧ s.running = true ∧ u = { s with mon := { s.mon with lastLine := s.tm.mono } } ∧
      s.mon.locked = true ∧ c.toNat = idValue ∧ s.sea.slot < 3) ∧
    (∃ (s : State) (u : State) (c : BitVec 64), s.mon.active = true ∧ s.running = true ∧ u = { s with mon := { s.mon with lastLine := s.tm.mono } } ∧
      s.mon.locked = true ∧ (c.toNat ≠ idValue ∨ 3 ≤ s.sea.slot)) ∧
    (∃ (s : State) (u : State) (n : BitVec 64), s.mon.active = true ∧ s.running = true ∧ u = { s with mon := { s.mon with lastLine := s.tm.mono } } ∧
      s.mon.locked = false ∧ (n.toNat = 0 ∨ 64 < n.toNat)) ∧
    (∃ (s : State) (u : State) (a : BitVec 64) (n : BitVec 64) (l : List Word) (t : State) (e : Nat), s.mon.active = true ∧ s.running = true ∧
      u = { s with mon := { s.mon with lastLine := s.tm.mono } } ∧ s.mon.locked = false ∧ n.toNat ≠ 0 ∧ n.toNat ≤ 64 ∧
      u.monWords a.toNat n.toNat = (l, t, e)) ∧
    (∃ (s : State) (u : State) (a : BitVec 64) (v : BitVec 64), s.mon.active = true ∧ s.running = true ∧
      u = { s with mon := { s.mon with lastLine := s.tm.mono } } ∧ s.mon.locked = false ∧ (a.toNat % 4 ≠ 0 ∨ 2 ^ 32 ≤ v.toNat)) ∧
    (∃ (s : State) (u : State) (a : BitVec 64) (v : BitVec 64), s.mon.active = true ∧ s.running = true ∧
      u = { s with mon := { s.mon with lastLine := s.tm.mono } } ∧ s.mon.locked = false ∧ a.toNat % 4 = 0 ∧ v.toNat < 2 ^ 32 ∧
      u.admits Initiator.monitor a.toNat true = false) ∧
    (∃ (s : State) (u : State) (a : BitVec 64) (v : BitVec 64), s.mon.active = true ∧ s.running = true ∧
      u = { s with mon := { s.mon with lastLine := s.tm.mono } } ∧ s.mon.locked = false ∧ a.toNat % 4 = 0 ∧ v.toNat < 2 ^ 32 ∧
      u.admits Initiator.monitor a.toNat true = true ∧ regionOf a.toNat = Region.sram ∧ a.toNat < 245760) ∧
    (∃ (s : State) (u : State) (a : BitVec 64) (v : BitVec 64), s.mon.active = true ∧ s.running = true ∧
      u = { s with mon := { s.mon with lastLine := s.tm.mono } } ∧ s.mon.locked = false ∧ a.toNat % 4 = 0 ∧ v.toNat < 2 ^ 32 ∧
      u.admits Initiator.monitor a.toNat true = true ∧ regionOf a.toNat = Region.sram ∧ 245760 ≤ a.toNat) ∧
    (∃ (s : State) (u : State) (a : BitVec 64) (v : BitVec 64), s.mon.active = true ∧ s.running = true ∧
      u = { s with mon := { s.mon with lastLine := s.tm.mono } } ∧ s.mon.locked = false ∧ a.toNat % 4 = 0 ∧ v.toNat < 2 ^ 32 ∧
      u.admits Initiator.monitor a.toNat true = true ∧ regionOf a.toNat = Region.bar2) ∧
    (∃ (s : State) (u : State) (a : BitVec 64) (v : BitVec 64), s.mon.active = true ∧ s.running = true ∧
      u = { s with mon := { s.mon with lastLine := s.tm.mono } } ∧ s.mon.locked = false ∧ a.toNat % 4 = 0 ∧ v.toNat < 2 ^ 32 ∧
      u.admits Initiator.monitor a.toNat true = true ∧ regionOf a.toNat = Region.nvm ∧ nvmFixed (a.toNat - 1342177280) = true) ∧
    (∃ (s : State) (u : State) (a : BitVec 64) (v : BitVec 64) (g : Bool) (t : State) (e : Nat), s.mon.active = true ∧ s.running = true ∧
      u = { s with mon := { s.mon with lastLine := s.tm.mono } } ∧ s.mon.locked = false ∧ a.toNat % 4 = 0 ∧ v.toNat < 2 ^ 32 ∧
      u.admits Initiator.monitor a.toNat true = true ∧ regionOf a.toNat = Region.nvm ∧ nvmFixed (a.toNat - 1342177280) = false ∧
      u.rowWrite (a.toNat - 1342177280) (BitVec.ofNat 32 v.toNat) g = (t, e)) ∧
    (∃ (s : State) (u : State) (r : BitVec 64), s.mon.active = true ∧ s.running = true ∧ u = { s with mon := { s.mon with lastLine := s.tm.mono } } ∧
      s.mon.locked = false ∧ baudRates.contains r.toNat = true) ∧
    (∃ (s : State) (u : State) (r : BitVec 64), s.mon.active = true ∧ s.running = true ∧ u = { s with mon := { s.mon with lastLine := s.tm.mono } } ∧
      s.mon.locked = false ∧ baudRates.contains r.toNat = false) ∧
    (∃ (s : State) (u : State), s.mon.active = true ∧ s.running = true ∧ u = { s with mon := { s.mon with lastLine := s.tm.mono } } ∧
      s.mon.lastLine + 1000 * s.mon.idleS ≤ s.tm.mono) ∧
    (∃ (s : State) (u : State), s.mon.active = true ∧ s.running = true ∧ u = { s with mon := { s.mon with lastLine := s.tm.mono } } ∧
      s.tm.mono < s.mon.lastLine + 1000 * s.mon.idleS) ∧
    (∃ (s : State), s.mon.active = false) ∧
    (∃ (addr : BitVec 40) (s : State) (a : Nat) (w : Bool), s.hlt.porHeld = false ∧ a = addr.toNat / 4 * 4 ∧ s.admits Initiator.jtag a w = false) ∧
    (∃ (addr : BitVec 40) (s : State) (a : Nat), s.hlt.porHeld = false ∧ a = addr.toNat / 4 * 4 ∧ s.admits Initiator.jtag a true = true ∧
      regionOf a = Region.sram) ∧
    (∃ (addr : BitVec 40) (s : State) (a : Nat), s.hlt.porHeld = false ∧ a = addr.toNat / 4 * 4 ∧ s.admits Initiator.jtag a false = true ∧
      regionOf a = Region.sram) :=
  ⟨⟨(wMon true), _, (BitVec.ofNat 64 idValue), by decide, by decide, rfl, by decide, idValue_fits, by decide⟩,
   ⟨{ (wMon true) with sea := { (wMon true).sea with slot := 3 } }, _, 0, by decide, by decide, rfl, by decide, Or.inr (by decide)⟩,
   ⟨(wMon false), _, 65, by decide, by decide, rfl, by decide, by decide⟩,
   ⟨(wMon false), _, 0, 2, _, _, _, by decide, by decide, rfl, by decide, by decide, by decide, rfl⟩,
   ⟨(wMon false), _, 2, 0, by decide, by decide, rfl, by decide, by decide⟩,
   ⟨(wMon false), _, 0x100000000, 0, by decide, by decide, rfl, by decide, by decide, by decide, by decide⟩,
   ⟨(wMon false), _, 245756, 0xFFFFFFFF, by decide, by decide, rfl, by decide, by decide, by decide, by decide, by decide, by decide⟩,
   ⟨(wMon false), _, 245760, 0, by decide, by decide, rfl, by decide, by decide, by decide, by decide, by decide, by decide⟩,
   ⟨(wMon false), _, 0x40000000, 0, by decide, by decide, rfl, by decide, by decide, by decide, by decide, by decide⟩,
   ⟨(wMon false), _, 0x50025800, 0, by decide, by decide, rfl, by decide, by decide, by decide, by decide, by decide, by decide⟩,
   ⟨(wMon false), _, 0x50000100, 0, true, _, _, by decide, by decide, rfl, by decide, by decide, by decide, by decide, by decide, by decide,
      pair_eta _⟩,
   ⟨(wMon false), _, 921600, by decide, by decide, rfl, by decide, by decide⟩,
   ⟨(wMon false), _, 115201, by decide, by decide, rfl, by decide, by decide⟩,
   ⟨(wMon true), _, by decide, by decide, rfl, by decide⟩,
   ⟨{ (wMon false) with mon := { (wMon false).mon with lastLine := 999700001 } }, _, by decide, by decide, rfl, by decide⟩,
   ⟨wS, by decide⟩,
   ⟨0x50000000, (wMon true), _, true, by decide +kernel, rfl, by decide +kernel⟩,
   ⟨0, (wMon true), _, by decide +kernel, rfl, by decide +kernel, by decide +kernel⟩,
   ⟨0, (wMon true), _, by decide +kernel, rfl, by decide +kernel, by decide +kernel⟩⟩

theorem witness_ConfigurationWrites :
    (∃ (f : Func) (s : State), s.cfgOpen (BitVec.toNat f) = true ∧ s.hlt.perstLow = false) ∧
    (∃ (s : State) (v : Word), s.cfgOpen 0 = true ∧ s.hlt.perstLow = false ∧ v ∈ [1#32, 2#32, 4#32, 8#32]) ∧
    (∃ (s : State) (v : Word), s.cfgOpen 0 = true ∧ s.hlt.perstLow = false ∧ ¬v ∈ [1#32, 2#32, 4#32, 8#32]) ∧
    (∃ (s : State) (v : BitVec 16), s.cfgOpen 0 = true ∧ s.hlt.perstLow = false ∧ s.link.vfEnable = false ∧ v.toNat ≤ 255) ∧
    (∃ (s : State) (v : BitVec 16), s.cfgOpen 0 = true ∧ s.hlt.perstLow = false ∧ (s.link.vfEnable = true ∨ 255 < v.toNat)) ∧
    (∃ (s : State), s.cfgOpen 0 = true ∧ s.hlt.perstLow = false ∧ s.link.vfEnable = true) ∧
    (∃ (s : State), s.cfgOpen 0 = true ∧ s.hlt.perstLow = false ∧ s.link.vfEnable = false ∧ s.Canon) ∧
    (∃ (f : Func) (s : State), s.cfgOpen (BitVec.toNat f) = true ∧ s.hlt.perstLow = false ∧ (s.getFn (BitVec.toNat f)).cfg.bme = true) ∧
    (∃ (f : Func) (s : State), s.cfgOpen (BitVec.toNat f) = true ∧ s.hlt.perstLow = false ∧ (s.getFn (BitVec.toNat f)).cfg.bme = false) ∧
    (∃ (f : Func) (s : State) (v : BitVec 4), s.cfgOpen (BitVec.toNat f) = true ∧ s.hlt.perstLow = false ∧ v ∈ [1#4, 2#4, 5#4, 6#4]) ∧
    (∃ (f : Func) (s : State) (v : BitVec 4), s.cfgOpen (BitVec.toNat f) = true ∧ s.hlt.perstLow = false ∧ ¬v ∈ [1#4, 2#4, 5#4, 6#4]) ∧
    (∃ (f : Func) (s : State), s.cfgOpen (BitVec.toNat f) = true ∧ s.hlt.perstLow = false ∧ f ≠ 0) ∧
    (∃ (f : Func) (s : State), s.barOpen (BitVec.toNat f) = true ∧ s.inReset (BitVec.toNat f) = false) ∧
    (∃ (f : Func) (s : State), s.serving = true ∧ s.link.up = true ∧ s.hlt.perstLow = false ∧ s.fnExists (BitVec.toNat f) = false) ∧
    (∃ (f : Func) (s : State), s.serving = true ∧ s.link.up = true ∧ s.hlt.perstLow = false ∧ s.fnExists (BitVec.toNat f) = true ∧
      (s.getFn (BitVec.toNat f)).flr = true) :=
  ⟨⟨0, (wF { wFn with flr := true }), by decide, by decide⟩,
   ⟨(wF { wFn with flr := true }), 1, by decide, by decide, by decide⟩,
   ⟨(wF { wFn with flr := true }), 0, by decide, by decide, by decide⟩,
   ⟨{ wS with link := { wS.link with vfEnable := false } }, 0, by decide, by decide, by decide, by decide⟩,
   ⟨(wF { wFn with flr := true }), 0, by decide, by decide, by decide⟩,
   ⟨(wF { wFn with flr := true }), by decide, by decide, by decide⟩,
   ⟨{ wS with link := { wS.link with vfEnable := false } }, by decide, by decide, by decide, canon_of (by decide)⟩,
   ⟨0, (wF { wFn with flr := true }), by decide, by decide, by decide⟩,
   ⟨255, (wF { wFn with cfg := { wFn.cfg with bme := false } }), by decide, by decide, by decide⟩,
   ⟨0, (wF { wFn with flr := true }), 1, by decide, by decide, by decide⟩,
   ⟨0, (wF { wFn with flr := true }), 0, by decide, by decide, by decide⟩,
   ⟨255, wS, by decide, by decide, by decide⟩,
   ⟨255, wS, by decide, by decide⟩,
   ⟨255, { wS with link := { wS.link with vfEnable := false } }, by decide, by decide, by decide, by decide⟩,
   ⟨255, (wF { wFn with flr := true }), by decide, by decide, by decide, by decide, by decide⟩⟩

theorem witness_LinkAndPowerStates :
    (∃ (s : State), s.cfgOpen 0 = true ∧ s.hlt.perstLow = false) ∧
    (∃ (s : State), s.hlt.porHeld = false ∧ s.hlt.perstLow = false ∧ s.hlt.warming = false ∧ (s.running = true ∨ s.link.up = false)) ∧
    (∃ (s : State), (s.hlt.porHeld = true ∨ s.hlt.perstLow = true ∨ s.hlt.warming = true ∨ s.running = false ∧ s.link.up = true)) ∧
    (∃ (s : State), s.link.up = true ∧ s.running = true ∧ s.boot.ready = false) ∧
    (∃ (s : State) (u : State) (w : State), s.link.up = true ∧ s.running = true ∧ s.boot.ready = true ∧
      u = { s with link := { s.link with linkDown := inc16 s.link.linkDown } } ∧ w = u.note Ev.linkDown 0) ∧
    (∃ (s : State) (u : State) (w : State), s.link.up = true ∧ s.running = true ∧ s.boot.ready = true ∧
      u = { s with link := { s.link with linkDown := inc16 s.link.linkDown } } ∧ w = u.note Ev.linkDown 1) ∧
    (∃ (s : State), (s.link.up = false ∨ s.running = false)) ∧
    (∃ (s : State), s.running = true ∧ s.hlt.warming = true) ∧
    (∃ (s : State), (s.running = false ∨ s.hlt.warming = false)) :=
  ⟨⟨wS, by decide, by decide⟩,
   ⟨wS, by decide, by decide, by decide, by decide⟩,
   ⟨{ wS with hlt := { wS.hlt with halt := some ⟨1, 0, none, 0, 0, 0, 0, 65535, false, 0, 0, false, false⟩ } }, by decide⟩,
   ⟨{ wS with boot := { wS.boot with ready := false, step := 3 } }, by decide, by decide, by decide⟩,
   ⟨wS, _, _, by decide, by decide, by decide, rfl, rfl⟩,
   ⟨wS, _, _, by decide, by decide, by decide, rfl, rfl⟩,
   ⟨{ wS with hlt := { wS.hlt with halt := some ⟨1, 0, none, 0, 0, 0, 0, 65535, false, 0, 0, false, false⟩ } }, by decide⟩,
   ⟨{ wS with hlt := { wS.hlt with warming := true } }, by decide, by decide⟩,
   ⟨wS, by decide⟩⟩

theorem witness_ResetsOfTheBlock :
    (∃ (s : State), s.hlt.porHeld = true) ∧
    (∃ (s : State), s.hlt.porHeld = false) ∧
    (∃ (s : State), s.hlt.perstLow = false) ∧
    (∃ (s : State), s.hlt.perstLow = true ∧ s.hlt.porHeld = true) ∧
    (∃ (s : State), s.hlt.perstLow = true ∧ s.hlt.porHeld = false) :=
  ⟨⟨{ wS with hlt := { wS.hlt with porHeld := true } }, by decide⟩,
   ⟨wS, by decide⟩,
   ⟨wS, by decide⟩,
   ⟨{ wS with hlt := { wS.hlt with porHeld := true, perstLow := true } }, by decide, by decide⟩,
   ⟨{ wS with hlt := { wS.hlt with perstLow := true } }, by decide, by decide⟩⟩

theorem witness_StartUp :
    (∃ (s : State), (s.boot.ready = true ∨ s.mon.active = true)) ∧
    (∃ (env : StartEnv) (s : State), s.running = true ∧ s.boot.ready = false ∧ s.mon.active = false ∧ s.boot.step < 4 ∧
      (s.bootFirst env).running = false) ∧
    (∃ (env : StartEnv) (s : State), s.running = true ∧ s.boot.ready = false ∧ s.mon.active = false ∧ s.boot.step < 4 ∧
      (s.bootFirst env).running = true ∧ (s.bootFirst env).level 12 = false) ∧
    (∃ (env : StartEnv) (s : State), s.running = true ∧ s.boot.ready = false ∧ s.mon.active = false ∧ s.boot.step < 4 ∧
      (s.bootFirst env).running = true ∧ (s.bootFirst env).level 12 = true) ∧
    (∃ (s : State), s.running = true ∧ s.boot.ready = false ∧ s.mon.active = false ∧ 4 ≤ s.boot.step ∧ s.boot.step < 7) ∧
    (∃ (s : State), s.running = true ∧ s.boot.ready = false ∧ s.mon.active = false ∧ s.boot.step = 7) ∧
    (∃ (env : StartEnv) (s : State), s.running = true ∧ s.boot.ready = false ∧ s.mon.active = false ∧ s.boot.step = 8 ∧
      (s.boot.dramFail = true ∨ min 1048576 s.sweepTotal ≤ s.sea.sweepLines) ∧ (s.formatDue env = false ∨ s.sea.rngOk = true)) ∧
    (∃ (env : StartEnv) (s : State), s.running = true ∧ s.boot.ready = false ∧ s.mon.active = false ∧ s.boot.step = 8 ∧
      (s.boot.dramFail = true ∨ min 1048576 s.sweepTotal ≤ s.sea.sweepLines) ∧ s.formatDue env = true ∧ s.sea.rngOk = false ∧
      s.sea.rngDown + 10000 ≤ s.tm.mono) ∧
    (∃ (env : StartEnv) (s : State), s.running = true ∧ s.boot.ready = false ∧ s.mon.active = false ∧ s.boot.step = 8 ∧
      (s.boot.dramFail = true ∨ min 1048576 s.sweepTotal ≤ s.sea.sweepLines) ∧ s.formatDue env = true ∧ s.sea.rngOk = false ∧
      s.tm.mono < s.sea.rngDown + 10000) ∧
    (∃ (s : State), s.running = true ∧ s.boot.ready = false ∧ s.mon.active = false ∧ s.boot.step = 8 ∧ s.boot.dramFail = false ∧
      s.sea.sweepLines < min 1048576 s.sweepTotal) ∧
    (∃ (s : State), s.running = true ∧ s.boot.ready = false ∧ s.mon.active = false ∧ 8 < s.boot.step) ∧
    (∃ (s : State), s.running = true ∧ s.sweeping = true) ∧
    (∃ (s : State), s.sweeping = false) ∧
    (∃ (s : State), s.running = true ∧ s.boot.ready = false ∧ s.boot.step = 11) ∧
    (∃ (s : State), (s.boot.ready = true ∨ s.boot.step ≠ 11)) :=
  ⟨⟨wS, by decide⟩,
   ⟨{ wEnv with check := some 3 }, { State.reset with inp := { State.reset.inp with qual := 0 } }, by decide +kernel, by decide +kernel,
      by decide +kernel, by decide +kernel, by decide +kernel⟩,
   ⟨wEnv, { State.reset with inp := { State.reset.inp with qual := 0 } }, by decide, by decide, by decide, by decide, (Prod.mk.inj wBootLow).1,
      (Prod.mk.inj wBootLow).2⟩,
   ⟨wEnv, State.reset, by decide, by decide, by decide, by decide, (Prod.mk.inj wBootHigh).1, (Prod.mk.inj wBootHigh).2⟩,
   ⟨{ wS with boot := { wS.boot with ready := false, step := 4 } }, by decide, by decide, by decide, by decide, by decide⟩,
   ⟨{ wS with boot := { wS.boot with ready := false, step := 7 } }, by decide +kernel, by decide +kernel, by decide +kernel, by decide +kernel⟩,
   ⟨{ wEnv with check := some 3 }, { wS with boot := { wS.boot with ready := false, step := 8 } }, by decide +kernel, by decide +kernel,
      by decide +kernel, by decide +kernel, by decide +kernel, by decide +kernel⟩,
   ⟨wEnv, { wS with boot := { wS.boot with ready := false, step := 8 }, fss := { wS.fss with anchorErased := true }, sea := { wS.sea with rngOk := false, rngDown := 999990000, sweepLines := 1048576 } }, by decide +kernel, by decide +kernel, by decide +kernel, by decide +kernel, by decide +kernel, by decide +kernel, by decide +kernel, by decide +kernel⟩,
   ⟨wEnv, { wS with boot := { wS.boot with ready := false, step := 8 }, fss := { wS.fss with anchorErased := true }, sea := { wS.sea with rngOk := false, rngDown := 999990001, sweepLines := 1048576 } }, by decide +kernel, by decide +kernel, by decide +kernel, by decide +kernel, by decide +kernel, by decide +kernel, by decide +kernel, by decide +kernel⟩,
   ⟨{ wS with boot := { wS.boot with ready := false, step := 8 }, sea := { wS.sea with sweepDone := false, kd := some wKeys, lpddrMib := 4096, sweepLines := 1048575 } }, by decide +kernel, by decide +kernel, by decide +kernel, by decide +kernel, by decide +kernel, by decide +kernel⟩,
   ⟨{ wS with boot := { wS.boot with ready := false, step := 9 }, sea := { wS.sea with sweepDone := false, kd := some wKeys, lpddrMib := 4096, sweepLines := 0 } }, by decide +kernel, by decide +kernel, by decide +kernel, by decide +kernel⟩,
   ⟨{ wS with boot := { wS.boot with ready := false, step := 8 }, sea := { wS.sea with sweepDone := false, kd := some wKeys, lpddrMib := 4096, sweepLines := 1048575 } }, by decide +kernel, by decide +kernel⟩,
   ⟨{ State.reset with inp := { State.reset.inp with qual := 0 } }, by decide +kernel⟩,
   ⟨{ wS with boot := { wS.boot with ready := false, step := 11 } }, by decide +kernel, by decide +kernel, by decide +kernel⟩,
   ⟨{ State.reset with inp := { State.reset.inp with qual := 0 } }, by decide +kernel⟩⟩

theorem witness_HeldBlocksRefuseWrites :
    (∃ (id : Nat) (s : State) (u : State) (c : Cmd), s.Canon ∧ s.Runs id Op.discard c ∧
      u = (s.setFor c).touchRun (BitVec.toNat c.fn) (eArg0 c.entry) (eArg1 c.entry) ∧ (∃ k, k < eArg1 c.entry ∧
      u.heldBlock (BitVec.toNat c.fn) (eArg0 c.entry + k) c.minHold c.legalHold = true)) ∧
    (∃ (id : Nat) (s : State) (u : State) (v : State) (c : Cmd) (mac : MacCheck), s.Canon ∧ s.Runs id Op.write c ∧ s.fss.quiesced = false ∧
      (mac = MacCheck.good ∧ v = s ∨ ∃ addr first again, mac = MacCheck.line addr first again ∧ addr.toNat / 64 * 64 / 64 < s.sea.sweepLines ∧
      (s.linePasses (addr.toNat / 64 * 64) first = true ∧ v = s ∨ s.linePasses (addr.toNat / 64 * 64) first = false ∧
      s.linePasses (addr.toNat / 64 * 64) again = true ∧ v = { s with sea := { s.sea with retryDram := inc16 s.sea.retryDram } })) ∧
      u = (v.setFor c).touchRun (BitVec.toNat c.fn) (eArg0 c.entry) (eArg1 c.entry) ∧ (∃ k, k < eArg1 c.entry ∧
      u.heldBlock (BitVec.toNat c.fn) (eArg0 c.entry + k) c.minHold c.legalHold = true)) :=
  ⟨⟨1, { wS with cmds := [{ wCmd (wEntry 3 0 8 2 0 0 0) with legalHold := true }], fss := { wS.fss with map := [(mapKey 0 9, 5)] } }, _, _,
      canon_of (by decide), ⟨by decide, rfl, by decide, by decide⟩, rfl, by decide⟩,
   ⟨1, { wS with cmds := [{ wCmd (wEntry 1 1 8 2 0 0 0) with minHold := 1000001 }], fss := { wS.fss with map := [(mapKey 0 9, 5)] } }, _, _, _,
      .good, canon_of (by decide), ⟨by decide, rfl, by decide, by decide⟩, by decide, Or.inl ⟨rfl, rfl⟩, rfl, ⟨1, by decide, by decide⟩⟩⟩

theorem witness_HeldInstanceNotRemoved :
    (∃ (id : Nat) (s : State) (u : State) (c : Cmd) (i : Nat), s.Canon ∧ s.Runs id Op.remove c ∧
      (s.setFor c).checkState Op.remove (BitVec.toNat c.fn) c.entry = none ∧ i = eTarget c.entry ∧
      (u = forEach (List.map (fun b => leafKey i b) (s.mappedBlocks i)).eraseDups (fun k t => t.touchLeaf k) (s.setFor c)) ∧ (∃ b,
      b ∈ s.mappedBlocks i ∧ u.heldBlock i b (u.getInst i).minHold (u.getInst i).legalHold = true)) ∧
    (∃ (id : Nat) (s : State) (u : State) (c : Cmd) (i : Nat), s.Canon ∧ s.Runs id Op.remove c ∧
      (s.setFor c).checkState Op.remove (BitVec.toNat c.fn) c.entry = none ∧ i = eTarget c.entry ∧
      (u = forEach (List.map (fun b => leafKey i b) (s.mappedBlocks i)).eraseDups (fun k t => t.touchLeaf k) (s.setFor c)) ∧ (∀ (b : Nat),
      b ∈ s.mappedBlocks i → u.heldBlock i b (u.getInst i).minHold (u.getInst i).legalHold = false) ∧ (s.getInst i).state = IState.active) :=
  ⟨⟨1, { wI { wInst with minHold := 1000001 } with cmds := [wCmd (wEntry 0x45 0 0 0 0 255 0)], fss := { wS.fss with map := [(mapKey 255 9, 5)] } },
      _, _, _, canon_of (by decide), ⟨by decide, rfl, by decide, by decide⟩, by decide, rfl, rfl, by decide⟩,
   ⟨1, { wI { wInst with minHold := 1000000 } with cmds := [wCmd (wEntry 0x45 0 0 0 0 255 0)], fss := { wS.fss with map := [(mapKey 255 9, 5)] } },
      _, _, _, canon_of (by decide), ⟨by decide, rfl, by decide, by decide⟩, by decide, rfl, rfl, by decide, by decide⟩⟩

theorem witness_StartWithoutEntropyIsBusy :
    (∃ (id : Nat) (s : State) (c : Cmd), s.Canon ∧ s.Runs id Op.start c ∧ (s.setFor c).checkState Op.start (BitVec.toNat c.fn) c.entry = none ∧
      s.sea.rngOk = false ∧ s.sea.rngDown + 100 ≤ s.tm.mono) :=
  ⟨1, { (wRun 0x43 0 0 0 0 254 0) with sea := { (wRun 0x43 0 0 0 0 254 0).sea with rngOk := false, rngDown := 999999900 } }, _,
      canon_of (by decide), ⟨by decide, rfl, by decide, by decide⟩, by decide, by decide, by decide⟩

theorem witness_LostStepsFault :
    (∃ (d : Fin 4) (k : Fin 567840) (s : State) (l : Sled) (r : Machine.Drive), s.serving = true ∧ s.drives.length = 4 ∧ r = s.drive d.val ∧
      l = r.sled ∧ (l.st = SlState.hold ∨ l.st = SlState.follow) ∧ s.zoneW (d.val) r.layer 0 ≠ 0 ∧ Cf.SLD_MECH_NM_nm16 s d.val ≠ 0 ∧
      l.anchored = true ∧ Cf.SLD_LOST_tol s d.val < (l.pos - s.slotPos (d.val) r.layer k.val).natAbs ∧
      (Cf.SLD_LOST_max s d.val < (List.filter (fun t => decide (s.tm.mono < t + 600000)) (s.tm.mono :: l.lostTimes)).length)) :=
  ⟨3, 0, { wD { Drive.reset with sled := { Sled.reset with st := .follow, anchored := true, lostTimes := [999999999, 999400001], p := 65536 * 100 }, rdc := { ReadChannel.reset with zw := [(0, 100)] } } with liveSet := [(Reg.SLD_MECH_NM 3, 1#32), (Reg.SLD_LOST 3, 0x2000004#32)] }, _, _, by decide, by decide, rfl, rfl, by decide, by decide, by decide, by decide, by decide, by decide⟩

/-! ### Ill-formed commands are refused by the check -/

theorem test_registerWrite_empty : (Instr.registerWrite .bar2 0 []).wellFormed = false := by decide
theorem test_registerWrite_long : (Instr.registerWrite .bar2 0 (List.replicate 9 0)).wellFormed = false := by decide
theorem test_registerWrite_dword : (Instr.registerWrite (.bar0 255) 0x3FFFFC (List.replicate 4 0)).wellFormed = true := by decide
theorem test_sharedPageWrite_empty : (Instr.sharedPageWrite 0 0 []).wellFormed = false := by decide
theorem test_commandAccept_short : (Instr.commandAccept 0 0 (List.replicate 63 0)).wellFormed = false := by decide
theorem test_doorbellFetchComplete_long : (Instr.doorbellFetchComplete 0 (List.replicate 33 0)).wellFormed = false := by decide
theorem test_hostReadCompletion_empty : (Instr.hostReadCompletion 0 [] []).wellFormed = false := by decide

/-! ### The host's interface: no row has bits, and reset has an empty queue -/

theorem test_decodeTableWord : (List.range 64).all (fun n => (decodeTableWord n 0).isNone) = true := by decide
theorem test_withFetchWord : State.reset.withFetchWord 32 1 = State.reset := by rfl
theorem test_resetQueue : State.reset.pending = [] := by rfl

/-! ### Values that the spec works out -/

/-- spec/08, placing stripe 200,000: its PBA, zone, parity position and wobble period. -/
theorem test_stripe : (stripePba 200000, slotZone 0 223072, parityPos 200000, pbaWobble 223072) = (223072, 20, 0, 2005417280) := by
  decide +kernel

/-- spec/08, content byte 1000: the frame byte that carries row 4, column 72, and its channel bit. -/
theorem test_frameByte : (frameByte 4 792, byteBit 4 792) = ((4, 72), 173524) := by decide +kernel

/-- spec/08, coding bytes 0xB4 0x70. -/
theorem test_code : codeUnit (pairs (bitList 16 0xB470)) = bitList 24 0b100101001010001000010010 := by decide +kernel

/-- spec/08, the sync of frame 5. -/
theorem test_sync : (syncId 5, syncMark 5) = (0x55A4, bitList 48 0b010000000010000000010010001001001010000100001010) := by decide +kernel

/-- spec/06, the capacity of 267,943,936 good pages with w = 16 and 7 %. -/
theorem test_capacity : capUnits 267943936 16 7 1024 = 933962956 := by decide +kernel

/-- spec/06, die 9, block 1234, page 567, slot 2. -/
theorem test_pua : mkPua 1024 9 1234 567 2 = 0x904D28DE := by decide

/-- spec/05, the MAC of the line at 0x8A3F_1240 with 4 GiB, and its tweak. -/
theorem test_macAddr : (macAddr 4096 0x8A3F1240, lineTweak 0x8A3F1240) = (0xF4C7E248, 0x228FC49) := by decide +kernel

/-- spec/05, the sweep covers 3640 MiB of 4 GiB. -/
theorem test_protected : ({ wS with sea := { wS.sea with lpddrMib := 4096 } } : State).sweepTotal * 64 = 0xE3800000 := by decide +kernel

/-- spec/11, F(39, 0) is 3622.9 rpm. -/
theorem test_zoneSpeed : (zoneF 66780 * 60000 + 2 ^ 27) / 2 ^ 28 = 36229 := by decide +kernel

/-- spec/12, the target of stripe 200,000: the radius and the expected position. -/
theorem test_slotPos :
    (let s : State :=
      { wD { Drive.reset with
             sled := { Sled.reset with anchored := true, anchorP := 10240, anchorR := 24000 }
             rdc := { ReadChannel.reset with zw := [(0, 28000), (20, 47590), (21, 48580)] } } with
        liveSet := [(Reg.SLD_MECH_NM 3, 37500#32), (Reg.SLD_MECH_RREF 3 0, 24000#32)] }
     (s.slotRadius 3 0 223072, s.slotPos 3 0 223072)) = (40883, 17443) := by decide +kernel

/-- spec/14, the budget of a Class 8 port, and the sample of code 2048. -/
theorem test_budget :
    (let s : State :=
      { wS with
        pwb := { wS.pwb with classCode := 3 }
        liveSet := [(Reg.PWB_CFG, 40#32), (Reg.PWB_SENSE, 2000#32), (Reg.PWB_VIN, 50000#32)] }
     (s.availPower false, (s.budget 2048).pwb.pin, (s.budget 2048).pwb.x)) = (68514, 50000, -18514) := by decide +kernel

/-- spec/10, the bumpless close: the code of 0.30, which spec/19 writes to the converter. -/
theorem test_dacCode : rnd 80530637 13 = 9830 := by decide +kernel

/-- The CRC-32 of the nine digits, the published check value of IEEE 802.3. -/
theorem test_crc : crc32 [0x31, 0x32, 0x33, 0x34, 0x35, 0x36, 0x37, 0x38, 0x39] = 0xCBF43926 := by decide +kernel


/-- spec/06, R212: the generator of the page code has degree 840, and a codeword is 1146 bytes long. -/
theorem test_bchGenerator : bchGenerator.log2 = 840 := by decide +kernel
theorem test_pageHeader : (pageHeader 3 15 2 7 255).length = 16 := by decide
end Sys2Proof.Tests
end

section
/-! SUPPORT. What a write of a stored register leaves as it was: the bits outside its RW and RWS masks, and every other register
(R7, R20, R24). -/

namespace Sys2Proof.Machine

/-- A field that is given back its old value brings no bit that differs from the old word. -/
theorem testBit_setFldN_restore {old new j : Nat} (lo len : Nat) (h : new.testBit j = old.testBit j) :
    (setFldN new lo len (fldN old lo len)).testBit j = old.testBit j := by
  by_cases hj : lo ≤ j ∧ j < lo + len
  · have hlo : lo + (j - lo) = j := by omega
    have hlen : j - lo < len := by omega
    rw [testBit_setFldN_inside _ _ _ _ _ hj.1 hj.2]
    simp [fldN, Nat.testBit_mod_two_pow, Nat.testBit_shiftRight, hlo, hlen]
  · rw [testBit_setFldN_other _ _ _ _ _ (by omega), h]

theorem testBit_rangeKeep {old new j : Nat} (c : FieldRange) (h : new.testBit j = old.testBit j) :
    (rangeKeep old new c).testBit j = old.testBit j := by
  unfold rangeKeep
  extract_lets v i
  split
  · exact h
  · exact testBit_setFldN_restore _ _ h

theorem testBit_foldl_rangeKeep {old j : Nat} (cs : List FieldRange) {new : Nat} (h : new.testBit j = old.testBit j) :
    (cs.foldl (rangeKeep old) new).testBit j = old.testBit j := by
  induction cs generalizing new with
  | nil => exact h
  | cons c cs ih => exact ih (testBit_rangeKeep c h)

theorem testBit_pairKeep {old new j : Nat} (plo plen qlo qlen : Nat) (h : new.testBit j = old.testBit j) :
    (pairKeep old new plo plen qlo qlen).testBit j = old.testBit j := by
  unfold pairKeep
  split
  · exact h
  · exact testBit_setFldN_restore _ _ h

/-- CLK.GATE_RUN is the one register whose rule sets bits of its own (Table 14-5). -/
theorem testBit_pairRules {k old new j : Nat} (hk : k ≠ 0x010034) (h : new.testBit j = old.testBit j) :
    (pairRules k old new).testBit j = old.testBit j := by
  unfold pairRules
  rw [if_neg hk]
  split
  · exact testBit_pairKeep _ _ _ _ h
  split
  · exact testBit_pairKeep _ _ _ _ h
  split
  · exact testBit_pairKeep _ _ _ _ h
  split
  · exact testBit_pairKeep _ _ _ _ h
  split
  · split
    · exact h
    · rfl
  · exact h

/-- A written word has the old bits wherever the register is neither RW nor RWS. -/
theorem testBit_writeWord {k i : Nat} {r : RegDesc} (old new : Word) (hk : k ≠ 0x010034) (hi : i < 32) (hrw : r.rw.testBit i = false)
    (hrws : r.rws.testBit i = false) : (writeWord k r old new).toNat.testBit i = old.toNat.testBit i := by
  have hm : (r.rw ||| r.rws).testBit i = false := by rw [Nat.testBit_or, hrw, hrws]; rfl
  have hcand : ((new.toNat &&& (r.rw ||| r.rws)) ||| (old.toNat - (old.toNat &&& (r.rw ||| r.rws)))).testBit i = old.toNat.testBit i := by
    simp [Nat.testBit_or, Nat.testBit_and, testBit_sub_land, hm]
  have hword : ∀ n : Nat, (BitVec.ofNat 32 n).toNat.testBit i = n.testBit i := fun n => by
    rw [BitVec.toNat_ofNat, Nat.testBit_mod_two_pow, decide_eq_true hi, Bool.true_and]
  unfold writeWord
  extract_lets m cand
  split
  · split
    · rw [hword, hcand]
    · rfl
  · rw [hword, testBit_pairRules hk (testBit_foldl_rangeKeep _ hcand)]

@[simp] theorem State.note_regs (s : State) (ev : Ev) (arg : Nat) : (s.note ev arg).regs = s.regs :=
  State.note_only s ev arg .regs (by decide)

/-- A write of a stored register: the word it takes, and the notice of a reserved bit and that of a value out of range. -/
theorem State.storeReg_of_desc {k : Nat} {r : RegDesc} (h : regDesc k = some r) (s : State) (v : Word) :
    s.storeReg k v =
      if unstatedRange k && rangeRefused k r (s.reg k) v then
        (if rsvWritten r v then (s.setReg k (writeWord k r (s.reg k) v)).note .reservedBits k
          else s.setReg k (writeWord k r (s.reg k) v)).note .valueRefused k
      else if rsvWritten r v then (s.setReg k (writeWord k r (s.reg k) v)).note .reservedBits k
      else s.setReg k (writeWord k r (s.reg k) v) := by
  unfold State.storeReg
  rw [h]

theorem State.storeReg_regs {k : Nat} {r : RegDesc} (h : regDesc k = some r) (s : State) (v : Word) :
    (s.storeReg k v).regs = (s.setReg k (writeWord k r (s.reg k) v)).regs := by
  rw [State.storeReg_of_desc h]
  split
  · rw [State.note_regs]
    split
    · exact State.note_regs _ _ _
    · rfl
  · split
    · exact State.note_regs _ _ _
    · rfl

theorem State.reg_storeReg {k : Nat} {r : RegDesc} {s : State} (c : s.Canon) (h : regDesc k = some r) (j : Nat) (v : Word) :
    (s.storeReg k v).reg j = if j = k then writeWord k r (s.reg k) v else s.reg j := by
  rw [← State.reg_setReg c.regs j k]
  exact congrArg (fun b => Bank.get regReset b j) (State.storeReg_regs h s v)

/-- Settles O47: a field out of its range takes back its old bits, so each rule of a write leaves the bits outside the masks alone;
a notice touches no register. -/
theorem writableBits : Obligations.WritableBits := by
  unfold Obligations.WritableBits
  intro k r v s hc hr hk
  refine ⟨fun i hi hrw hrws => ?_, fun j hj => ?_, fun hrsv hrange => ?_, fun hrsv hrange => ?_, fun hrsv hrange => ?_⟩
  · rw [State.reg_storeReg hc hr, if_pos rfl, testBit_writeWord _ _ hk hi hrw hrws]
  · rw [State.reg_storeReg hc hr, if_neg hj]
  · rw [State.storeReg_of_desc hr, hrsv, hrange]
    exact State.setReg_only _ _ _
  · rw [State.storeReg_of_desc hr, hrsv, hrange]
    rfl
  · rw [State.storeReg_of_desc hr, hrsv, hrange]
    rfl

end Sys2Proof.Machine
end

section
/-! SUPPORT. The host's reads and writes of BAR0, BAR2, HST and configuration space: what a span of registers reads as, what a write of
one word does and what a narrow or unaligned one does (R8, R22, R23, R91). -/

namespace Sys2Proof.Machine

theorem readWords_succ (rd : Nat → State → Word × State) (n off : Nat) (s : State) :
    readWords rd (n + 1) off s = (leBytes 4 (rd off s).1.toNat ++ (readWords rd n (off + 4) (rd off s).2).1,
      (readWords rd n (off + 4) (rd off s).2).2) := rfl

theorem readSpan_eq (rd : Nat → State → Word × State) (off len : Nat) (s : State) :
    readSpan rd off len s = (slice (readWords rd ((off % 4 + len + 3) / 4) (off / 4 * 4) s).1 (off % 4) len,
      (readWords rd ((off % 4 + len + 3) / 4) (off / 4 * 4) s).2) := rfl

/-- Words that all read as ones read as a run of bytes of ones. -/
theorem readWords_of_ones {rd : Nat → State → Word × State} {s : State} :
    ∀ (n off : Nat), (∀ i, i < n → rd (off + 4 * i) s = (0xFFFFFFFF, s)) → readWords rd n off s = (List.replicate (4 * n) 0xFF, s)
  | 0, _, _ => rfl
  | n + 1, off, h => by
    have h0 : rd off s = (0xFFFFFFFF, s) := h 0 (Nat.succ_pos n)
    have hr := readWords_of_ones n (off + 4) (fun i hi => by
      rw [show off + 4 + 4 * i = off + 4 * (i + 1) by omega]
      exact h (i + 1) (Nat.succ_lt_succ hi))
    have hones : leBytes 4 (0xFFFFFFFF : Word).toNat = List.replicate 4 0xFF := by decide
    rw [readWords_succ, h0, hr]
    dsimp only
    rw [hones, List.replicate_append_replicate, Nat.mul_succ, Nat.add_comm]

theorem slice_replicate (b : Byte) {n off len : Nat} (h : off + len ≤ n) :
    slice (List.replicate n b) off len = List.replicate len b := by
  unfold slice
  rw [List.drop_replicate, List.take_replicate, Nat.min_eq_left (by omega)]

theorem State.answerRead_of_readSpan {rd : Nat → State → Word × State} {s t : State} {off len : Nat} {l : List Byte} (f : Func)
    (h : readSpan rd off len s = (l, t)) : s.answerRead rd f off len = t.emitCpl (.readData f off l) := by
  unfold State.answerRead
  rw [h]

/-- An access whose registers all read as ones answers ones. -/
theorem State.answerRead_of_ones {rd : Nat → State → Word × State} {s : State} {off len : Nat} (f : Func)
    (h : ∀ o, off / 4 * 4 ≤ o → o % 4 = 0 → o < off + len → rd o s = (0xFFFFFFFF, s)) :
    s.answerRead rd f off len = s.emitCpl (.readData f off (List.replicate len 0xFF)) := by
  have hw : readWords rd ((off % 4 + len + 3) / 4) (off / 4 * 4) s = (List.replicate (4 * ((off % 4 + len + 3) / 4)) 0xFF, s) :=
    readWords_of_ones _ _ (fun i hi => h _ (by omega) (by omega) (by omega))
  have hs : readSpan rd off len s = (List.replicate len 0xFF, s) := by rw [readSpan_eq, hw, slice_replicate _ (by omega)]
  exact State.answerRead_of_readSpan f hs

theorem State.answerRead_onesRead (s : State) (f : Func) (off len : Nat) :
    s.answerRead onesRead f off len = s.emitCpl (.readData f off (List.replicate len 0xFF)) :=
  State.answerRead_of_ones f (fun _ _ _ _ => rfl)

/-- An aligned access of one word reads one register. -/
theorem readSpan_word {rd : Nat → State → Word × State} {s t : State} {off : Nat} {v : Word} (ha : off % 4 = 0)
    (h : rd off s = (v, t)) : readSpan rd off 4 s = (leBytes 4 v.toNat, t) := by
  have hoff : off / 4 * 4 = off := by omega
  rw [readSpan_eq, ha, hoff, readWords_succ, h]
  rfl

/-- BAR0 of a function under reset reads as ones, but for INS.STS (R91). -/
theorem State.readBar0_of_inReset {s : State} {f o : Nat} (hr : s.inReset f = true) (h0 : o ≠ 0) (ho : o < 0x8000) :
    State.readBar0 f o s = (0xFFFFFFFF, s) := by
  unfold State.readBar0
  rw [if_neg (by omega), hr, if_pos (by simpa using h0)]

theorem State.readBar2_of_lt {o : Nat} (ho : o < 0x400000) (s : State) : State.readBar2 o s = s.readWord o := if_neg (by omega)

theorem writeWords_succ (w : Nat → Word → State → State) (n off : Nat) (data : List Byte) (s : State) :
    writeWords w (n + 1) off data s =
      if data.length < 4 then s else writeWords w n (off + 4) (data.drop 4) (w off (BitVec.ofNat 32 (leAt data 0 4)) s) := rfl

/-- A run of one word is written as one word. -/
theorem State.writeBytes_word {w : Nat → Word → State → State} {err : State → State} {desc : Nat → Option RegDesc} {off : Nat}
    {data : List Byte} (s : State) (ha : off % 4 = 0) (hl : data.length = 4) :
    s.writeBytes w err desc off data = w off (BitVec.ofNat 32 (leAt data 0 4)) s := by
  unfold State.writeBytes
  rw [if_pos ⟨ha, by rw [hl]⟩, hl, writeWords_succ, if_neg (by omega), writeWords_succ,
    if_pos (by rw [List.length_drop]; omega)]

theorem State.writeBytes_narrow {w : Nat → Word → State → State} {err : State → State} {desc : Nat → Option RegDesc} {off : Nat}
    {data : List Byte} (s : State) (h : off % 4 ≠ 0 ∨ data.length % 4 ≠ 0) :
    s.writeBytes w err desc off data = if touchesReg desc off data.length then err s else s := if_neg (by omega)

/-- A register of the spindle block that is no command is stored. -/
theorem State.writeBar2_spindle {k : Nat} (s : State) (v : Word) (hlo : 0x0D0000 ≤ k) (hhi : k < 0x0E0000)
    (hd : (bar2Desc k).isSome = true) (hcmd : k % 0x1000 ≠ 4) : s.writeBar2 k v = s.storeReg k v := by
  unfold State.writeBar2
  rw [Option.isNone_eq_false_iff.mpr hd, if_neg Bool.false_ne_true, if_neg (by omega), if_neg (by omega), if_neg (by omega), if_pos hhi,
    if_neg hcmd]

theorem hostBar0_not {s : State} {f : Nat} {g : State → State} (h : s.barOpen f = false ∨ s.inReset f = true) : hostBar0 f s g = s := by
  unfold hostBar0
  rcases h with h | h
  · rw [h]; rfl
  · rw [h, Bool.not_true, Bool.and_false]; rfl

theorem hostBar2_not {s : State} {g : State → State} (h : s.barOpen 0 = false) : hostBar2 s g = s :=
  if_neg (by rw [h]; exact Bool.false_ne_true)

/-- REGISTER_WRITE to BAR0 reaches the registers of an open function that is not under reset. -/
theorem exec_registerWrite_bar0 (f : Func) (off : BitVec 22) (data : List Byte) (s : State) :
    exec (.registerWrite (.bar0 f) off data) s = .next (hostBar0 f.toNat s (fun s => s.wakeUp.writeBytes
      (fun a v t => if a < 0x8000 then t.writeBar0 f.toNat a v else t) (fun t => t.accError f.toNat 0 off.toNat) (bar0Touch f.toNat)
      off.toNat data)) := rfl

theorem exec_registerWrite_bar2 (off : BitVec 22) (data : List Byte) (s : State) :
    exec (.registerWrite .bar2 off data) s = .next (hostBar2 s (fun s => s.wakeUp.writeBytes (fun a v t => t.writeBar2 a v)
      (fun t => t.accError 0 1 off.toNat) bar2Desc off.toNat data)) := rfl

theorem exec_registerWrite_hst (off : BitVec 22) (data : List Byte) (s : State) :
    exec (.registerWrite .hst off data) s = .next (if s.cfgOpen 0 then
      s.writeBytes (fun a v t => t.writeHst (0x2000000 + a) v) (fun t => t) (fun _ => none) off.toNat data else s) := rfl

theorem exec_registerWrite_cfg (f : Func) (off : BitVec 22) (data : List Byte) (s : State) :
    exec (.registerWrite (.cfg f) off data) s = .next
      (if off.toNat % 4 = 0 ∧ data.length = 4 ∧ off.toNat < 4096 then s.writeCfg f off.toNat (leAt data 0 4) else s) := rfl

theorem State.notHeld {s : State} (hp : s.hlt.porHeld = false) (hl : s.hlt.perstLow = false) :
    ¬ (s.hlt.porHeld || s.hlt.perstLow) = true := by
  rw [hp, hl]
  exact Bool.false_ne_true

section Reads
variable {s : State} (hp : s.hlt.porHeld = false) (hl : s.hlt.perstLow = false) (off : BitVec 22) (w : Width)
include hp hl

/-- With power on and PERST_N high a read is answered as its space answers. -/
theorem exec_latchedPairRead_bar0 (f : Func) : exec (.latchedPairRead (.bar0 f) ⟨off, w⟩) s = .next
    (if s.hlt.halt.isSome then s.answerRead onesRead f off.toNat w.bytes
     else if !s.barOpen f.toNat || decide (0x8000 ≤ off.toNat) then s.emitCpl (.cplUr f)
     else s.wakeUp.answerRead (State.readBar0 f.toNat) f off.toNat w.bytes) :=
  congrArg Host.Outcome.next (if_neg (State.notHeld hp hl))

theorem exec_latchedPairRead_bar0_closed (f : Func) (hh : s.hlt.halt = none) (hc : s.barOpen f.toNat = false ∨ 0x8000 ≤ off.toNat) :
    exec (.latchedPairRead (.bar0 f) ⟨off, w⟩) s = .next (s.emitCpl (.cplUr f)) := by
  rw [exec_latchedPairRead_bar0 hp hl, hh, if_neg (by decide), if_pos (by simpa using hc)]

theorem exec_latchedPairRead_bar0_open (f : Func) (hh : s.hlt.halt = none) (ho : s.barOpen f.toNat = true) (hlt : off.toNat < 0x8000) :
    exec (.latchedPairRead (.bar0 f) ⟨off, w⟩) s = .next (s.wakeUp.answerRead (State.readBar0 f.toNat) f off.toNat w.bytes) := by
  rw [exec_latchedPairRead_bar0 hp hl, hh, if_neg (by decide), if_neg (by simp [ho, hlt])]

theorem exec_latchedPairRead_bar2 : exec (.latchedPairRead .bar2 ⟨off, w⟩) s = .next
    (if s.hlt.halt.isSome then s.answerRead onesRead 0 off.toNat w.bytes
     else if s.barOpen 0 then s.wakeUp.answerRead State.readBar2 0 off.toNat w.bytes
     else s.emitCpl (.cplUr 0)) :=
  congrArg Host.Outcome.next (if_neg (State.notHeld hp hl))

theorem exec_latchedPairRead_bar2_open (hh : s.hlt.halt = none) (ho : s.barOpen 0 = true) :
    exec (.latchedPairRead .bar2 ⟨off, w⟩) s = .next (s.wakeUp.answerRead State.readBar2 0 off.toNat w.bytes) := by
  rw [exec_latchedPairRead_bar2 hp hl, hh, if_neg (by decide), if_pos ho]

theorem exec_latchedPairRead_cfg (f : Func) (hlt : off.toNat < 4096) :
    exec (.latchedPairRead (.cfg f) ⟨off, w⟩) s = .next (s.configRead f off.toNat w.bytes) :=
  congrArg Host.Outcome.next ((if_neg (State.notHeld hp hl)).trans (if_pos hlt))

theorem exec_latchedPairRead_hst (hlo : 0x400 ≤ off.toNat) (hhi : off.toNat < 0x440) :
    exec (.latchedPairRead .hst ⟨off, w⟩) s = .next (s.configRead 0 off.toNat w.bytes) :=
  congrArg Host.Outcome.next ((if_neg (State.notHeld hp hl)).trans (if_pos ⟨hlo, hhi⟩))

end Reads

/-- A function that does not exist answers Unsupported Request (R49). -/
theorem State.configRead_of_not_fnExists {s : State} {f : Func} (off len : Nat) (hh : s.hlt.halt = none) (hup : s.link.up = true)
    (hs : s.serving = true) (hf : s.fnExists f.toNat = false) : s.configRead f off len = s.emitCpl (.cplUr f) := by
  unfold State.configRead
  rw [hh, hup, hs, hf]
  rfl

/-- While the block does not serve, a configuration read is to be retried (R44). -/
theorem State.configRead_of_not_serving {s : State} (f : Func) (off len : Nat) (hh : s.hlt.halt = none) (hup : s.link.up = true)
    (hs : s.serving = false) : s.configRead f off len = s.emitCpl (.cplCrs f) := by
  unfold State.configRead
  rw [hh, hup, hs]
  rfl

theorem Width.bytes_pos (w : Width) : 0 < w.bytes := by cases w <;> decide

/-- Settles O46: each answer of a read is the branch of its space, BAR0 under reset reads as ones word by word, and an aligned word and
a narrow write are the two ways through `State.writeBytes`. -/
theorem registerAccess : Obligations.RegisterAccess := by
  unfold Obligations.RegisterAccess
  refine ⟨fun off w s hp hl => ?_, fun off data s => ?_, fun off data s ho hlo hhi hd ha hcmd hlen => ?_, fun off data s ho hn => ?_,
    fun s ho => ⟨?_, ?_⟩, fun s ho => ⟨?_, ?_⟩⟩
  · refine ⟨fun f hh => ?_, fun hh => ?_, fun f hh hc => ?_, fun f hh ho hr h4 hend => ?_,
      fun hh ho => ⟨fun l t e => ?_, fun v t ha e => ?_⟩, fun f hh ho hlt l t e => ?_, fun f hlt => ?_, fun hlo hhi => ?_,
      fun f hh hup hlt => ⟨fun hs hf => ?_, fun hs => ?_⟩⟩
    · rw [exec_latchedPairRead_bar0 hp hl, if_pos hh, State.answerRead_onesRead]
    · rw [exec_latchedPairRead_bar2 hp hl, if_pos hh, State.answerRead_onesRead]
    · exact exec_latchedPairRead_bar0_closed hp hl off w f hh hc
    · have hpos := Width.bytes_pos w
      rw [exec_latchedPairRead_bar0_open hp hl off w f hh ho (by omega), State.answerRead_of_ones f (fun o hlo hal hhi =>
        State.readBar0_of_inReset hr (by omega) (by omega))]
    · rw [exec_latchedPairRead_bar2_open hp hl off w hh ho, State.answerRead_of_readSpan 0 e]
    · have hword : State.readBar2 off.toNat s.wakeUp = (v, t) := by rw [State.readBar2_of_lt off.isLt, e]
      rw [exec_latchedPairRead_bar2_open hp hl off .w32 hh ho,
        State.answerRead_of_readSpan (len := Width.w32.bytes) 0 (readSpan_word ha hword)]
    · rw [exec_latchedPairRead_bar0_open hp hl off w f hh ho hlt, State.answerRead_of_readSpan f e]
    · exact exec_latchedPairRead_cfg hp hl off w f hlt
    · exact exec_latchedPairRead_hst hp hl off w hlo hhi
    · rw [exec_latchedPairRead_cfg hp hl off w f hlt, State.configRead_of_not_fnExists _ _ hh hup hs hf]
    · rw [exec_latchedPairRead_cfg hp hl off w f hlt, State.configRead_of_not_serving _ _ _ hh hup hs]
  · refine ⟨fun f h => ?_, fun h => ?_, fun h => ?_, fun f ha hlen hlt => ?_⟩
    · rw [exec_registerWrite_bar0, hostBar0_not h]
    · rw [exec_registerWrite_bar2, hostBar2_not h]
    · rw [exec_registerWrite_hst, if_neg (by rw [h]; exact Bool.false_ne_true)]
    · rw [exec_registerWrite_cfg, if_pos ⟨ha, hlen, hlt⟩]
  · rw [exec_registerWrite_bar2, hostBar2_of ho, State.writeBytes_word _ ha hlen, State.writeBar2_spindle _ _ hlo hhi hd hcmd]
  · rw [exec_registerWrite_bar2, hostBar2_of ho, State.writeBytes_narrow _ hn]
    exact ⟨fun ht => by rw [if_pos ht], fun ht => by rw [ht, if_neg Bool.false_ne_true]⟩
  · exact congrArg Host.Outcome.next (hostBar2_of ho)
  · exact congrArg Host.Outcome.next (hostBar2_of ho)
  · exact congrArg Host.Outcome.next (hostBar2_not ho)
  · exact congrArg Host.Outcome.next (hostBar2_not ho)

end Sys2Proof.Machine
end

section
/-! SUPPORT. COMMIT_SEGMENT (R27, R35, R151): the segment that joins the archive queue and the commits that an instance remembers, which
usage, warnings, the events of a waiting queue and the leaves of a run leave alone. -/

namespace Sys2Proof.Machine

/-- Every instance remembers the commits it remembered, and its table keeps the canonical form. -/
def SameCommits (s t : State) : Prop :=
  Bank.wf instDef s.inst = true → Bank.wf instDef t.inst = true ∧ ∀ j, (t.getInst j).commits = (s.getInst j).commits

theorem SameCommits.refl (s : State) : SameCommits s s := fun w => ⟨w, fun _ => rfl⟩

theorem SameCommits.trans {s t u : State} (h : SameCommits s t) (k : SameCommits t u) : SameCommits s u := fun w => by
  obtain ⟨wt, ht⟩ := h w
  obtain ⟨wu, hu⟩ := k wt
  exact ⟨wu, fun j => (hu j).trans (ht j)⟩

theorem SameCommits.of_inst {s t : State} (e : t.inst = s.inst) : SameCommits s t := fun w => by
  refine ⟨by rw [e]; exact w, fun j => ?_⟩
  unfold State.getInst
  rw [e]

/-- An effect whose frame leaves the instances out. -/
theorem SameCommits.ofOnly {l : List StateField} {s t : State} (h : Only l s t) (hl : l.elem .inst = false) : SameCommits s t :=
  SameCommits.of_inst (h.at .inst hl)

theorem SameCommits.modInst (s : State) (i : Nat) {g : Instance → Instance} (hg : ∀ r, (g r).commits = r.commits) :
    SameCommits s (s.modInst i g) := fun w => by
  refine ⟨Bank.wf_set w _ _, fun j => ?_⟩
  rw [State.getInst_modInst w]
  split
  · subst j
    exact hg _
  · rfl

/-- The same change of every instance, one that leaves a fresh instance as it is. -/
theorem SameCommits.mapVals (s : State) {g : Instance → Instance} (h0 : g Instance.fresh = Instance.fresh)
    (hg : ∀ r, (g r).commits = r.commits) : SameCommits s { s with inst := Bank.mapVals instDef s.inst g } := fun w => by
  refine ⟨Bank.wf_mapVals w, fun j => ?_⟩
  have changed : Bank.get instDef (Bank.mapVals instDef s.inst g) j = g (Bank.get instDef s.inst j) := Bank.get_mapVals w (fun _ => h0) j
  exact (congrArg Instance.commits changed).trans (hg _)

theorem SameCommits.ite {p : Prop} [Decidable p] {s t u : State} (ht : SameCommits s t) (hu : SameCommits s u) :
    SameCommits s (if p then t else u) := by
  split
  · exact ht
  · exact hu

theorem SameCommits.forEach {α : Type} {l : List α} {g : α → State → State} (hg : ∀ a t, SameCommits t (g a t)) (s : State) :
    SameCommits s (forEach l g s) := by
  unfold Sys2Proof.Machine.forEach
  induction l generalizing s with
  | nil => exact SameCommits.refl s
  | cons a r ih => exact (hg a s).trans (ih (g a s))

theorem Brought.sameCommits {s t : State} (h : Brought s t) : SameCommits s t := fun w => by
  obtain ⟨wt, others, a, b, pf⟩ := h.inst w
  refine ⟨wt, fun j => ?_⟩
  by_cases hj : j = 0
  · rw [hj, pf]
  · rw [others j hj]

theorem State.quotaWarning_sameCommits (s : State) (i : Nat) : SameCommits s (s.quotaWarning i) := by
  unfold State.quotaWarning
  extract_lets r body t u
  have ht : SameCommits s t := SameCommits.ofOnly (State.postOwn_only _ _ _ _) rfl
  have hu : SameCommits t u := SameCommits.ite (SameCommits.refl t) (SameCommits.ofOnly (State.postPeer_only _ _ _ _) rfl)
  exact (ht.trans hu).trans (SameCommits.modInst u i fun _ => rfl)

theorem State.quotaSettle_sameCommits (s : State) (i : Nat) : SameCommits s (s.quotaSettle i) := by
  unfold State.quotaSettle
  extract_lets t r
  have ht : SameCommits s t := SameCommits.ite (SameCommits.modInst s i fun _ => rfl) (SameCommits.refl s)
  exact SameCommits.ite (ht.trans (SameCommits.modInst t i fun _ => rfl)) ht

theorem State.refreshUsed_sameCommits (s : State) (i : Nat) : SameCommits s (s.refreshUsed i) := by
  unfold State.refreshUsed State.setUsed
  extract_lets r t u
  have ht : SameCommits s t := SameCommits.modInst s i fun _ => rfl
  have hu : SameCommits t u := SameCommits.ite (t.quotaWarning_sameCommits i) (SameCommits.refl t)
  exact (ht.trans hu).trans (u.quotaSettle_sameCommits i)

/-- The event of a queue that waits is marked in the instances and nothing else of them changes (R35). -/
theorem State.noteWaiting_sameCommits (s : State) : SameCommits s s.noteWaiting := by
  have marked : ∀ (i : Nat) (t : State), SameCommits t (if (t.getInst i).waitLogged then t else
      (t.modInst i (fun r => { r with waitLogged := true })).logEv .queueWaiting (some (BitVec.ofNat 8 i)) 0) := fun i t =>
    SameCommits.ite (SameCommits.refl t)
      ((SameCommits.modInst t i (g := fun r => { r with waitLogged := true }) fun _ => rfl).trans
        (SameCommits.ofOnly (State.logEv_only _ _ _ _) rfl))
  exact SameCommits.ite (SameCommits.forEach marked s) (SameCommits.mapVals s rfl fun _ => rfl)

/-- The segment of a COMMIT_SEGMENT, its run pinned as the map stands in `u` (R27, R151, R284). -/
def Cmd.segment (c : Cmd) (u : State) : Segment :=
  { num := c.aux % 2 ^ 32, inst := c.fn.toNat, lbn := eArg0 c.entry, cnt := eArg1 c.entry, rid := eRid c.entry,
    blocks := (eArg1 c.entry + 7) / 8, displaced := u.unpinnable c.fn.toNat (eArg0 c.entry) (eArg1 c.entry), active := false,
    formatted := 0, verified := [], rebuilt := false, replaced := false,
    broken := u.lostIn c.fn.toNat (eArg0 c.entry) (eArg1 c.entry), unpinAt := none, chain := 0, setId := 0 }

/-- The record of an instance once it remembers the commit of `c`. -/
def Instance.remember (r : Instance) (c : Cmd) : Instance :=
  { r with commits := ⟨eRid c.entry, c.aux % 2 ^ 32, c.aux / 2 ^ 32, false, 0⟩ :: r.commits,
           firstSeg := if r.firstSeg = 0 then c.aux % 2 ^ 32 else r.firstSeg }

/-- The segment of `c` is at the end of the queue and its instance remembers the commit. -/
def State.enqueue (u : State) (c : Cmd) : State :=
  State.modInst { u with fss := { u.fss with segs := u.fss.segs ++ [c.segment u] } } c.fn.toNat (fun r => r.remember c)

theorem State.enqueue_getInst {u : State} (c : Cmd) (w : Bank.wf instDef u.inst = true) :
    (u.enqueue c).getInst c.fn.toNat = (u.getInst c.fn.toNat).remember c :=
  Bank.get_set_same w _ _

/-- The segment of `c` is queued and journaled, and usage and the events of the queue follow (R27, R105). -/
def State.queueCommit (u : State) (c : Cmd) : State :=
  (((u.enqueue c).jAdd (.pin c.fn.toNat (eArg0 c.entry) (eArg1 c.entry) (eRid c.entry) (c.aux % 2 ^ 32) (c.aux / 2 ^ 32))).refreshUsed
    c.fn.toNat).noteWaiting

theorem State.queueCommit_segs (u : State) (c : Cmd) : (u.queueCommit c).fss.segs = u.fss.segs ++ [c.segment u] := by
  have same : (u.queueCommit c).fss = ((u.enqueue c).jAdd _).fss :=
    ((State.noteWaiting_only _).at .fss rfl).trans ((State.refreshUsed_only _ _).at .fss rfl)
  exact congrArg FssState.segs same

theorem State.queueCommit_cmds (u : State) (c : Cmd) : (u.queueCommit c).cmds = u.cmds :=
  ((State.noteWaiting_only _).at .cmds rfl).trans ((State.refreshUsed_only _ _).at .cmds rfl)

theorem State.queueCommit_commits {u : State} (c : Cmd) (w : Bank.wf instDef u.inst = true) :
    ((u.queueCommit c).getInst c.fn.toNat).commits =
      ⟨eRid c.entry, c.aux % 2 ^ 32, c.aux / 2 ^ 32, false, 0⟩ :: (u.getInst c.fn.toNat).commits := by
  have rest : SameCommits (u.enqueue c) (u.queueCommit c) :=
    ((SameCommits.ofOnly (State.jAdd_only _ _) rfl).trans (State.refreshUsed_sameCommits _ _)).trans (State.noteWaiting_sameCommits _)
  obtain ⟨-, same⟩ := rest (Bank.wf_set w _ _)
  rw [same, State.enqueue_getInst c w]
  rfl

/-- What COMMIT_SEGMENT answers: the refusal at the bounds of R35, or the run brought in and queued with the completion waiting (R151). -/
theorem exec_commitSegment {id : Nat} {s : State} {c : Cmd} (h : s.Runs id .commit c) :
    exec (.commitSegment id) s = .next ((if 1024 ≤ s.segCount c.fn.toNat ∨ 16384 ≤ s.fss.segs.length then
        (s.setFor c).complete c stArcFull 0 false
      else (((s.setFor c).touchRun c.fn.toNat (eArg0 c.entry) (eArg1 c.entry)).queueCommit c).completeFlushed c c.aux).setBack s) := by
  have word : c.aux % 2 ^ 32 + c.aux / 2 ^ 32 * 2 ^ 32 = c.aux := by omega
  refine congrArg Host.Outcome.next ((withCmd_of h).trans (congrArg (State.setBack · s) (if_congr Iff.rfl rfl ?_)))
  exact congrArg (State.completeFlushed _ c) word

/-- Settles O25: the two clauses are the branches of `exec_commitSegment`; in the second, bringing the leaves in, usage and the queue's
events change neither the commands nor the remembered commits, and the new segment stays last. -/
theorem commitSegment : Obligations.CommitSegment := by
  unfold Obligations.CommitSegment
  refine ⟨fun id s c h hfull => ?_, fun id s c h hown hall canon => ?_⟩
  · rw [exec_commitSegment h, if_pos hfull]
  · have answer := exec_commitSegment h
    rw [if_neg (by omega)] at answer
    generalize hu : (s.setFor c).touchRun c.fn.toNat (eArg0 c.entry) (eArg1 c.entry) = u at answer ⊢
    have hb : Brought (s.setFor c) u := hu ▸ State.touchRun_brought _ _ _ _
    obtain ⟨wf, same⟩ := hb.sameCommits canon.inst
    have hcmds : u.cmds = s.cmds := hu ▸ (State.touchRun_only _ _ _ _).at .cmds rfl
    have hcommits := (State.queueCommit_commits c wf).trans (congrArg _ (same _))
    have hq := (State.queueCommit_cmds u c).trans hcmds
    have hsegs := State.queueCommit_segs u c
    have frame := execCommitSegment_only id s s
    rw [show execCommitSegment id s = .next _ from answer, runRow_next] at frame
    -- What is left reads the completion of `v` alone: how `v` came about must not unfold.
    generalize u.queueCommit c = v at answer hcommits hq hsegs frame
    exact ⟨_, answer, ⟨hcommits, ⟨v.fss.jMade, congrArg (List.map _) hq⟩, c.segment u, hsegs, rfl, rfl, rfl, rfl, rfl, rfl, rfl, rfl,
      rfl, rfl⟩, frame⟩

end Sys2Proof.Machine
end

section
/-! SUPPORT. Requests through configuration space (R44, R49, R60): when a function answers, and what an open one lets through. -/

namespace Sys2Proof.Machine

/-- The three parts of an answer: the next state, its frame as `exec` has it, and what holds of it. -/
theorem Answers.of_exec {c : Sys2Proof.Instr} {s t : State} {l : List StateField} {P : State → Prop} (h : exec c s = .next t)
    (frame : Only l s (runRow (exec c s) s)) (hP : P t) : Answers c s l P := by
  rw [h, runRow_next] at frame
  exact ⟨t, h, hP, frame⟩

theorem State.cfgOpen_iff {s : State} {f : Nat} :
    s.cfgOpen f = true ↔ s.serving = true ∧ s.link.up = true ∧ s.fnExists f = true ∧ (s.getFn f).flr = false := by
  simp [State.cfgOpen, and_assoc]

theorem State.running_of_serving {s : State} (h : s.serving = true) : s.running = true := by
  simp only [State.serving, Bool.and_eq_true] at h
  obtain ⟨⟨⟨hr, -⟩, -⟩, -⟩ := h
  exact hr

/-- What a configuration write meets while the block serves and the link is up (R49, R60). -/
theorem cfgTo_of_serving {s : State} {f : Nat} {g : State → State} (hs : s.serving = true) (hup : s.link.up = true)
    (hp : s.hlt.perstLow = false) :
    cfgTo f s g = if !s.fnExists f then s.emitCpl (.cplUr (BitVec.ofNat 8 f))
      else if (s.getFn f).flr then s.emitCpl (.cplCrs (BitVec.ofNat 8 f)) else g s := by
  have hr := State.running_of_serving hs
  have held := State.porHeld_of_running hr
  unfold cfgTo
  rw [hr, held, hp, hup, hs]
  rfl

/-- Configuration space that is open lets the effect of a write through. -/
theorem cfgTo_of {s : State} {f : Nat} {g : State → State} (ho : s.cfgOpen f = true) (hp : s.hlt.perstLow = false) :
    cfgTo f s g = g s := by
  obtain ⟨hs, hup, hf, hflr⟩ := State.cfgOpen_iff.mp ho
  rw [cfgTo_of_serving hs hup hp, hf, hflr]
  rfl

end Sys2Proof.Machine
end

section
/-! SUPPORT. Received TLPs, transmit counters and the link counters (R69, R71, R74, R80). -/

namespace Sys2Proof.Machine

@[simp] theorem State.note_sec (s : State) (ev : Ev) (arg : Nat) : (s.note ev arg).sec = s.sec := (State.note_only s ev arg).at .sec rfl
@[simp] theorem State.noteRsv_link (s : State) (k : Nat) (v : Word) : (s.noteRsv k v).link = s.link :=
  (State.noteRsv_only s k v).at .link rfl

theorem exec_ideTlpReceived_of_secure {s : State} (hr : s.running = true) (hs : s.sec.secure = true) (sub : SubStream) (k : Fin 2)
    (chk : TlpCheck) : exec (.ideTlpReceived sub k chk) s = .next ((s.tlpFailure sub k chk).elim s s.haltBy) := by
  refine congrArg Host.Outcome.next ((if_pos (by rw [hr, hs]; rfl)).trans ?_)
  cases s.tlpFailure sub k chk <;> rfl

theorem exec_hstCntClr_of_open {s : State} (ho : s.cfgOpen 0 = true) (v : Word) : exec (.hstCntClr v) s = .next
    (if fld v 0 1 = 1 then
      { s.noteRsv Reg.HST_CNT_CLR v with link := { s.link with linkDown := 0, cplTimeout := 0, poisoned := 0, urCa := 0 } }
     else s.noteRsv Reg.HST_CNT_CLR v) := by
  rw [← State.noteRsv_link s Reg.HST_CNT_CLR v]
  exact congrArg Host.Outcome.next (if_pos ho)

/-- Settles O19: a received TLP halts the block by its failure if it has one; the notices of a held sub-stream and of reserved bits
touch neither the stream nor the link. -/
theorem ideTraffic : Obligations.IdeTraffic := by
  unfold Obligations.IdeTraffic
  refine ⟨fun sub k chk s hr hs => ⟨fun hn => ?_, fun c hc => ?_⟩, fun sub k chk s hs => ?_, fun sub s hv hs => ?_,
    fun sub s hs => ?_, fun v s ho h1 => ?_, fun v s => ⟨fun ho h0 => ?_, fun ho => ?_⟩⟩
  · rw [exec_ideTlpReceived_of_secure hr hs, hn, Option.elim_none]
  · rw [exec_ideTlpReceived_of_secure hr hs, hc, Option.elim_some]
  · exact congrArg Host.Outcome.next (if_neg (by simp [hs]))
  · exact Answers.of_exec (congrArg Host.Outcome.next ((whenServing_of hv).trans (if_pos hs))) (execIdeTxCounterLimit_only sub s s)
      (State.note_sec _ _ _)
  · have ignored : ∀ g : State → State, whenServing s (fun u => if u.sec.secure then g u else u) = s := fun g => by
      simp [whenServing, hs]
    exact congrArg Host.Outcome.next (ignored _)
  · rw [exec_hstCntClr_of_open ho, if_pos h1]
  · rw [exec_hstCntClr_of_open ho, if_neg (by rw [h0]; decide)]
  · exact congrArg Host.Outcome.next (if_neg (by simp [ho]))

end Sys2Proof.Machine
end

section
/-! SUPPORT. Power states, the loss of the link and the end of the warm reset (R44, R61, R63, R484). -/

namespace Sys2Proof.Machine

@[simp] theorem State.note_link (s : State) (ev : Ev) (arg : Nat) : (s.note ev arg).link = s.link :=
  (State.note_only s ev arg).at .link rfl
@[simp] theorem State.note_hlt (s : State) (ev : Ev) (arg : Nat) : (s.note ev arg).hlt = s.hlt := (State.note_only s ev arg).at .hlt rfl
@[simp] theorem State.note_boot (s : State) (ev : Ev) (arg : Nat) : (s.note ev arg).boot = s.boot :=
  (State.note_only s ev arg).at .boot rfl

/-- One link loss is counted and logged, with its kind (R61, Table 02-13). -/
def State.countLinkLoss (s : State) (kind : Nat) : State :=
  ({ s with link := { s.link with linkDown := inc16 s.link.linkDown } } : State).note .linkDown kind

/-- What follows a counted link loss: after the first ready state the warm reset with its cause, which `mark` notes. -/
def State.loseLink (s : State) (mark : State → State) : State := (if s.boot.ready then mark s else s).linkLost

theorem exec_dlDown_of_up {s : State} (hup : s.link.up = true) (hr : s.running = true) :
    exec .dlDown s = .next ((s.countLinkLoss 0).loseLink fun w => { w with hlt := { w.hlt with warmLink := true } }) :=
  congrArg Host.Outcome.next (if_pos (by rw [hup, hr, State.porHeld_of_running hr]; rfl))

theorem exec_hotResetReceived_of_up {s : State} (hup : s.link.up = true) (hr : s.running = true) :
    exec .hotResetReceived s = .next ((s.countLinkLoss 1).loseLink fun w => { w with hlt := { w.hlt with warmHot := true } }) :=
  congrArg Host.Outcome.next (if_pos (by rw [hup, hr, State.porHeld_of_running hr]; rfl))

/-- Before the first ready state a link loss takes the link down and begins no warm reset (R44). -/
theorem State.loseLink_of_not_ready {s : State} (hr : s.running = true) (hready : s.boot.ready = false) (mark : State → State) :
    s.loseLink mark = { s with link := { s.link with up := false } } := by
  have unmarked : s.loseLink mark = s.linkLost := congrArg State.linkLost (if_neg (by simp [hready]))
  have held := State.porHeld_of_running hr
  exact unmarked.trans ((if_neg (by simp [held])).trans ((if_neg (by simp [hr])).trans (if_neg (by simp [hready]))))

theorem State.countLinkLoss_not_ready {s : State} (hr : s.running = true) (hready : s.boot.ready = false) (kind : Nat)
    (mark : State → State) :
    ((s.countLinkLoss kind).loseLink mark).link = { s.link with up := false, linkDown := inc16 s.link.linkDown } ∧
      ((s.countLinkLoss kind).loseLink mark).hlt = s.hlt := by
  have hhlt : (s.countLinkLoss kind).hlt = s.hlt := State.note_hlt _ _ _
  have hlink : (s.countLinkLoss kind).link = { s.link with linkDown := inc16 s.link.linkDown } := State.note_link _ _ _
  have running : (s.countLinkLoss kind).running = true := by
    unfold State.running at hr ⊢
    rw [hhlt, hr]
  have unready : (s.countLinkLoss kind).boot.ready = false := by
    rw [← hready]
    exact congrArg BootState.ready (State.note_boot _ _ _)
  rw [State.loseLink_of_not_ready running unready]
  exact ⟨by rw [hlink], hhlt⟩

/-- After the first ready state the cause of the warm reset is marked before it begins (R61). -/
theorem State.countLinkLoss_ready {s : State} (hready : s.boot.ready = true) (kind : Nat) (mark : State → State) :
    (s.countLinkLoss kind).loseLink mark = (mark (s.countLinkLoss kind)).linkLost := by
  have ready : (s.countLinkLoss kind).boot.ready = true := by
    rw [← hready]
    exact congrArg BootState.ready (State.note_boot _ _ _)
  unfold State.loseLink
  rw [if_pos ready]

/-- Settles O50: the guards of a link loss and of the warm reset's end are its cases; a notice leaves the link, the start-up and the
halt alone, and the reset of a function's registers leaves the halt alone. -/
theorem linkAndPowerStates : Obligations.LinkAndPowerStates := by
  unfold Obligations.LinkAndPowerStates
  refine ⟨fun s ho hp => ⟨?_, ?_⟩, fun rate width s hpor hp hw hup => ?_, fun rate width s hno => ?_,
    fun s hup hr hready => ⟨?_, ?_⟩, fun s u hup hr hready hu => ⟨fun w hw => ?_, fun w hw => ?_⟩, fun s hno => ⟨?_, ?_⟩,
    fun s hr hw => ?_, fun s hno => ?_⟩
  · exact congrArg Host.Outcome.next (cfgTo_of ho hp)
  · exact congrArg Host.Outcome.next (cfgTo_of ho hp)
  · have trains : ¬ (s.hlt.porHeld || s.hlt.perstLow || s.hlt.warming || (!s.running && s.link.up)) = true := by
      rcases hup with h | h <;> simp [hpor, hp, hw, h]
    exact Answers.of_exec (congrArg Host.Outcome.next (if_neg trains)) (execLinkUp_only rate width s s) (State.note_link _ _ _)
  · exact congrArg Host.Outcome.next (if_pos (by simpa [or_assoc] using hno))
  · exact Answers.of_exec (exec_dlDown_of_up hup hr) (execDlDown_only s s) (State.countLinkLoss_not_ready hr hready 0 _)
  · exact Answers.of_exec (exec_hotResetReceived_of_up hup hr) (execHotResetReceived_only s s)
      (State.countLinkLoss_not_ready hr hready 1 _)
  · subst hw hu
    rw [exec_dlDown_of_up hup hr, State.countLinkLoss_ready hready]
    rfl
  · subst hw hu
    rw [exec_hotResetReceived_of_up hup hr, State.countLinkLoss_ready hready]
    rfl
  · exact congrArg Host.Outcome.next (if_neg (by rcases hno with h | h <;> simp [h]))
  · exact congrArg Host.Outcome.next (if_neg (by rcases hno with h | h <;> simp [h]))
  · refine Answers.of_exec (congrArg Host.Outcome.next (if_pos (by rw [hw, hr]; rfl))) (execWarmResetComplete_only s s)
      ⟨?_, fun u hu => by subst hu; rfl⟩
    have frame : ∀ X : State, Only [.out, .regs, .latches, .link, .sec, .fn] X
        (forEach X.liveFns (fun f t => if (t.getInst f).reset.isNone then t.resetFnOnly f else t) X) := fun X =>
      Only.forEach (fun f t h => Only.ite (fun _ => h.trans (State.resetFnOnly_only t f)) (fun _ => h)) (Only.refl _ X)
    exact (frame _).at .hlt rfl
  · exact congrArg Host.Outcome.next (if_neg (by rcases hno with h | h <;> simp [h]))

end Sys2Proof.Machine
end

section
/-! SUPPORT. Configuration writes with an effect of their own (R41, R48 to R60): the configuration space of the VFs that appear. -/

namespace Sys2Proof.Machine

/-- What a VF that appears starts with (R50). -/
def Fn.fresh (n : Fn) : Fn := { n with cfg := FnCfg.reset, msix := [], pba := 0 }

/-- Functions 1 to `n` appear with fresh configuration space. -/
def State.freshFns (s : State) (n : Nat) : State := forBelow n (fun k t => t.modFn (k + 1) Fn.fresh) s

theorem State.freshFns_link (s : State) (n : Nat) : (s.freshFns n).link = s.link :=
  (Only.forBelow (l := [.fn]) (fun k _ h => h.trans (State.modFn_only _ (k + 1) _)) (Only.refl _ s)).at .link rfl

theorem State.freshFns_wf {s : State} (w : Bank.wf fnDef s.fn = true) (n : Nat) : Bank.wf fnDef (s.freshFns n).fn = true := by
  induction n with
  | zero => exact w
  | succ n ih => exact Bank.wf_set ih _ _

theorem State.freshFns_getFn {s : State} (w : Bank.wf fnDef s.fn = true) (n j : Nat) :
    (s.freshFns n).getFn j = if 1 ≤ j ∧ j ≤ n then (s.getFn j).fresh else s.getFn j := by
  induction n with
  | zero => exact (if_neg (by omega)).symm
  | succ n ih =>
    have last : (s.freshFns (n + 1)).getFn j =
        if j = n + 1 then ((s.freshFns n).getFn (n + 1)).fresh else (s.freshFns n).getFn j :=
      State.getFn_modFn (State.freshFns_wf w n) (n + 1) j Fn.fresh
    rw [last]
    by_cases hj : j = n + 1
    · subst j
      rw [if_pos rfl, ih, if_neg (by omega), if_pos (by omega)]
    · rw [if_neg hj, ih]
      exact if_congr (by omega) rfl rfl

/-- VF Enable is set, and ARI as it was then set is in force for the VFs, whose stored fields begin anew (R46, R50). -/
def LinkState.vfsOn (l : LinkState) : LinkState :=
  { l with vfEnable := true, ariInForce := l.ari, misc := l.misc.filter (fun e => decide (e.1 / 4096 = 0)) }

theorem exec_vfEnableSet_of_clear {s : State} (ho : s.cfgOpen 0 = true) (hp : s.hlt.perstLow = false) (hv : s.link.vfEnable = false) :
    exec .vfEnableSet s = .next { s.freshFns s.link.numVfs with link := (s.freshFns s.link.numVfs).link.vfsOn } :=
  congrArg Host.Outcome.next ((cfgTo_of ho hp).trans (if_neg (c := s.link.vfEnable = true) (by rw [hv]; exact Bool.false_ne_true)))

theorem contains_toNat_iff {w : Nat} {v : BitVec w} {l : List (BitVec w)} : (l.map BitVec.toNat).contains v.toNat = true ↔ v ∈ l := by
  rw [List.contains_iff_mem, List.mem_map_of_injective BitVec.toNat_injective]

theorem exec_completionTimeoutValueWrite_of_open {f : Func} {s : State} (ho : s.cfgOpen f.toNat = true) (hp : s.hlt.perstLow = false)
    (v : BitVec 4) : exec (.completionTimeoutValueWrite f v) s = .next
      (if v ∈ [1#4, 2#4, 5#4, 6#4] then s.modCfg f.toNat (fun c => { c with cto := v.toNat }) else s) :=
  congrArg Host.Outcome.next ((cfgTo_of ho hp).trans (if_congr (contains_toNat_iff (l := [1#4, 2#4, 5#4, 6#4])) rfl rfl))

theorem exec_systemPageSizeWrite_of_open {s : State} (ho : s.cfgOpen 0 = true) (hp : s.hlt.perstLow = false) (v : Word) :
    exec (.systemPageSizeWrite v) s = .next
      (if v ∈ [1#32, 2#32, 4#32, 8#32] then { s with link := { s.link with pageSize := v.toNat } } else s) :=
  congrArg Host.Outcome.next ((cfgTo_of ho hp).trans (if_congr (contains_toNat_iff (l := [1#32, 2#32, 4#32, 8#32])) rfl rfl))

theorem exec_numvfsWrite_of_open {s : State} (ho : s.cfgOpen 0 = true) (hp : s.hlt.perstLow = false) (v : BitVec 16) :
    exec (.numvfsWrite v) s = .next
      (if s.link.vfEnable || decide (255 < v.toNat) then s else { s with link := { s.link with numVfs := v.toNat } }) :=
  congrArg Host.Outcome.next (cfgTo_of ho hp)

theorem exec_busMasterEnableWrite_of_open {f : Func} {s : State} (ho : s.cfgOpen f.toNat = true) (hp : s.hlt.perstLow = false) :
    exec (.busMasterEnableWrite f true) s = .next
      (((if (s.getFn f.toNat).cfg.bme then s.modCfg f.toNat (fun c => { c with bme := true })
        else ((s.modCfg f.toNat (fun c => { c with bme := true })).wakeFn f.toNat).fetchSoon f.toNat).releasePending f.toNat).pump) :=
  congrArg Host.Outcome.next (cfgTo_of ho hp)

/-- Settles O49: `cfgTo_of` opens every write, and what is left is the choice of its value; the VFs that appear are the functions 1 to
NumVFs. -/
theorem configurationWrites : Obligations.ConfigurationWrites := by
  unfold Obligations.ConfigurationWrites
  refine ⟨fun f field v s ho hp => congrArg Host.Outcome.next (cfgTo_of ho hp),
    fun s ho hp => ⟨fun v hv => ?_, fun v hv => ?_, fun v hen hv => ?_, fun v hv => ?_, fun hen => ?_, fun hen hc => ?_, ?_, ?_⟩,
    fun f s ho hp => ⟨?_, fun hb => ?_, fun hb => ?_, fun v hv => ?_, fun v hv => ?_, fun hf => ?_, ?_, ?_⟩,
    fun f v s ho hr => ⟨_, congrArg Host.Outcome.next (hostBar0_of ho hr), fun _ => rfl⟩,
    fun f field v s hs hup hp => ⟨fun hf => ?_, fun hf hflr => ?_⟩⟩
  · rw [exec_systemPageSizeWrite_of_open ho hp, if_pos hv]
  · rw [exec_systemPageSizeWrite_of_open ho hp, if_neg hv]
  · rw [exec_numvfsWrite_of_open ho hp, if_neg (by simp [hen, hv])]
  · rw [exec_numvfsWrite_of_open ho hp, if_pos (by simpa using hv)]
  · exact congrArg Host.Outcome.next ((cfgTo_of ho hp).trans (if_pos hen))
  · refine Answers.of_exec (exec_vfEnableSet_of_clear ho hp hen) (execVfEnableSet_only s s)
      ⟨congrArg LinkState.vfsOn (State.freshFns_link s _), fun k hlo hhi => ?_, fun k hk => ?_⟩
    · exact (State.freshFns_getFn hc.fn _ k).trans (if_pos ⟨hlo, hhi⟩)
    · exact (State.freshFns_getFn hc.fn _ k).trans (if_neg (by omega))
  · exact congrArg Host.Outcome.next (cfgTo_of ho hp)
  · exact congrArg Host.Outcome.next (cfgTo_of ho hp)
  · exact congrArg Host.Outcome.next (cfgTo_of ho hp)
  · rw [exec_busMasterEnableWrite_of_open ho hp, if_pos hb]
  · rw [exec_busMasterEnableWrite_of_open ho hp, if_neg (by simp [hb])]
  · rw [exec_completionTimeoutValueWrite_of_open ho hp, if_pos hv]
  · rw [exec_completionTimeoutValueWrite_of_open ho hp, if_neg hv]
  · exact congrArg Host.Outcome.next ((cfgTo_of ho hp).trans (if_neg hf))
  · exact congrArg Host.Outcome.next (cfgTo_of ho hp)
  · exact congrArg Host.Outcome.next (cfgTo_of ho hp)
  · have missing := cfgTo_of_serving (f := f.toNat) (g := fun s => s.setCfgField f.toNat field v.toNat) hs hup hp
    rw [hf, BitVec.ofNat_toNat, BitVec.setWidth_eq] at missing
    exact congrArg Host.Outcome.next missing
  · have retried := cfgTo_of_serving (f := f.toNat) (g := fun s => s.setCfgField f.toNat field v.toNat) hs hup hp
    rw [hf, hflr, BitVec.ofNat_toNat, BitVec.setWidth_eq] at retried
    exact congrArg Host.Outcome.next retried

end Sys2Proof.Machine
end

section
/-! SUPPORT. SPDM, IDE_KM and what lets held transmission go on (R65 to R70, R75): answers and releases leave keys and sessions alone. -/

namespace Sys2Proof.Machine

@[simp] theorem State.doeAnswer_sec (s : State) (e : Emit) : (s.doeAnswer e).sec = s.sec := (State.doeAnswer_only s e).at .sec rfl

/-- Completions that leave are only taken off their queue. -/
theorem State.flushCpl_sec (s : State) : ∃ w, s.flushCpl.sec = { s.sec with cplWait := w } := by
  have emits : ∀ (l : List Emit) (t : State), Only [.out] t (forEach l (fun e t => t.emit e) t) := fun l t =>
    Only.forEach (fun e t h => h.trans (State.emit_only t e)) (Only.refl _ t)
  unfold State.flushCpl
  split
  · exact ⟨s.sec.cplWait, rfl⟩
  · exact ⟨[], (emits _ _).at .sec rfl⟩

theorem State.resume_sec (s : State) : ∃ w, s.resume.sec = { s.sec with cplWait := w } := by
  obtain ⟨w, hw⟩ := s.flushCpl_sec
  have interrupts : Only [.out, .fn] s.flushCpl
      (forEach (s.fn.map (fun (e : Nat × Fn) => e.1)) (fun f t => t.releasePending f) s.flushCpl) :=
    Only.forEach (fun f t h => h.trans (State.releasePending_only t f)) (Only.refl _ _)
  have work : s.resume.sec = s.flushCpl.sec :=
    ((State.pump_only _).at .sec rfl).trans (((State.finishWays_only _).at .sec rfl).trans (interrupts.at .sec rfl))
  exact ⟨w, work.trans hw⟩

/-- Every direction of the link stream uses a key set that was started (R75). -/
def SecState.allLive (c : SecState) : Bool := c.dirs.all (fun d => d.live d.cur)

theorem State.settleStream_sec (s : State) :
    ∃ w, s.settleStream.sec = { s.sec with secure := s.sec.secure || (s.sec.streamEn && s.sec.allLive), cplWait := w } := by
  by_cases h : (s.sec.streamEn && s.sec.allLive && !s.sec.secure) = true
  · obtain ⟨w, hw⟩ := State.resume_sec { s with sec := { s.sec with secure := true } }
    have starts : s.settleStream = State.resume { s with sec := { s.sec with secure := true } } := if_pos h
    have secured : (s.sec.secure || (s.sec.streamEn && s.sec.allLive)) = true := by
      simp only [Bool.and_eq_true] at h
      obtain ⟨⟨hen, hlive⟩, -⟩ := h
      simp [hen, hlive]
    exact ⟨w, by rw [starts, hw, secured]⟩
  · have stays : s.settleStream = s := if_neg h
    have kept : (s.sec.secure || (s.sec.streamEn && s.sec.allLive)) = s.sec.secure := by
      cases hs : s.sec.secure
      · simpa [hs] using h
      · rfl
    exact ⟨s.sec.cplWait, by rw [stays, kept]⟩

/-- What K_SET_GO of set `k` does to its direction: the set comes into use and, of a transmit direction, the other is retired (R69). -/
def IdeDir.go (d : IdeDir) (tx : Bool) (k : Nat) : IdeDir :=
  let d := d.setLive k true
  let d := if tx then d.setLive (1 - k) false else d
  { d with cur := k, held := tx && d.spent k }

theorem IdeDir.spent_setLive (d : IdeDir) (k : Nat) (v : Bool) (j : Nat) : (d.setLive k v).spent j = d.spent j := by
  unfold IdeDir.setLive
  split <;> rfl

/-- Retiring the other set does not bear on whether set `k` is spent. -/
theorem IdeDir.go_eq (d : IdeDir) (tx : Bool) (k : Nat) : d.go tx k =
    { (if tx then (d.setLive k true).setLive (1 - k) false else d.setLive k true) with
      cur := k, held := tx && (d.setLive k true).spent k } := by
  cases tx with
  | false => rfl
  | true =>
    unfold IdeDir.go
    simp only [if_true, IdeDir.spent_setLive]

theorem ideKm_of {session : Nat} {s : State} {g : State → State} (ho : s.cfgOpen 0 = true) (he : s.established session = true) :
    ideKm session s g = g s := if_pos (by rw [ho, he]; rfl)

theorem ideKm_not {session : Nat} {s : State} {g : State → State} (h : s.cfgOpen 0 = false ∨ s.established session = false) :
    ideKm session s g = s := if_neg (by rcases h with h | h <;> simp [h])

/-- The stream once a set has been started and its answer sent. -/
def State.started (s : State) (sub : SubStream) (tx : Bool) (set : Fin 2) : State :=
  (((s.modDir (dirIndex sub tx) (fun d => d.go tx set.val)).doeAnswer (.ideKm 6 0)).settleStream).resume

theorem State.started_sec (s : State) (sub : SubStream) (tx : Bool) (set : Fin 2) : ∃ c w,
    c = { s.sec with dirs := modNth (fun d => d.go tx set.val) s.sec.dirs (dirIndex sub tx) } ∧
      (s.started sub tx set).sec = { c with secure := c.secure || (c.streamEn && c.allLive), cplWait := w } := by
  obtain ⟨v, hv⟩ := State.settleStream_sec ((s.modDir (dirIndex sub tx) (fun d => d.go tx set.val)).doeAnswer (.ideKm 6 0))
  obtain ⟨w, hw⟩ := State.resume_sec (((s.modDir (dirIndex sub tx) (fun d => d.go tx set.val)).doeAnswer (.ideKm 6 0)).settleStream)
  rw [hv, State.doeAnswer_sec] at hw
  exact ⟨_, w, rfl, hw⟩

theorem State.started_dir (s : State) (sub : SubStream) (tx : Bool) (set : Fin 2) (m : Nat) :
    (s.started sub tx set).dir m = nth IdeDir.reset (modNth (fun d => d.go tx set.val) s.sec.dirs (dirIndex sub tx)) m := by
  obtain ⟨c, w, hc, hsec⟩ := s.started_sec sub tx set
  unfold State.dir
  rw [hsec, hc]

theorem State.started_secure (s : State) (sub : SubStream) (tx : Bool) (set : Fin 2) : (s.started sub tx set).sec.secure = true ↔
    s.sec.secure = true ∨ (s.sec.streamEn = true ∧ (s.started sub tx set).sec.allLive = true) := by
  obtain ⟨c, w, hc, hsec⟩ := s.started_sec sub tx set
  have live : (s.started sub tx set).sec.allLive = c.allLive := by rw [hsec]; rfl
  rw [live, hsec, Bool.or_eq_true, Bool.and_eq_true, hc]

/-- KEY_EXCHANGE opens the lowest free session, and is refused where none is free. -/
theorem State.spdm_keyExchange (s : State) (secured : Bool) : s.spdm secured .keyExchange =
    s.freeSession.elim (s.doeAnswer .spdmError) (fun n =>
      ({ s with sec := { s.sec with sessions := s.sec.sessions ++ [(n, false)] } } : State).doeAnswer (.spdm (Config.spdmResponse 8))) := by
  change (match s.freeSession with
    | some n => ({ s with sec := { s.sec with sessions := s.sec.sessions ++ [(n, false)] } } : State).doeAnswer _
    | none => s.doeAnswer .spdmError) = _
  cases s.freeSession <;> rfl

/-- A block index beyond Table 02-6 has no measurement and is refused. -/
theorem State.spdm_getMeasurements (s : State) (secured : Bool) (k : Nat) : s.spdm secured (.getMeasurements k) =
    s.doeAnswer ((s.measure k).elim .spdmError (.measurement k)) := by
  change (match s.measure k with
    | some v => s.doeAnswer (.measurement k v)
    | none => s.doeAnswer .spdmError) = _
  cases s.measure k <;> rfl

section Requests

variable {sec : Bool} {size : Nat} {s : State} (ho : s.cfgOpen 0 = true) (hn : size ≤ 4096)
include ho hn

theorem exec_spdmRequest_of_open (req : SpdmReq) : exec (.spdmRequest sec size req) s = .next (s.wakeUp.spdm sec req) :=
  congrArg Host.Outcome.next ((if_pos ho).trans (if_neg (by omega)))

theorem exec_getCapabilities (v : Nat) : exec (.spdmRequest sec size (.getCapabilities v)) s = .next (if v = 0x11 ∨ v = 0x12 then
    ({ s.wakeUp with sec := { s.sec with version := v } } : State).doeAnswer (.spdmCapabilities v spdmFlags)
    else s.wakeUp.doeAnswer .spdmError) :=
  (exec_spdmRequest_of_open ho hn _).trans (congrArg Host.Outcome.next (if_congr (by simp [spdmVersions]) rfl rfl))

theorem exec_discovery (k : Nat) : exec (.spdmRequest sec size (.discovery k)) s =
    .next (s.wakeUp.doeAnswer (if k < 3 then .doeDiscovery k ((k + 1) % 3) else .doeDiscovery 0xFF 0)) :=
  exec_spdmRequest_of_open ho hn _

theorem exec_getMeasurements (k : Nat) : exec (.spdmRequest sec size (.getMeasurements k)) s =
    .next (s.wakeUp.doeAnswer ((s.measure k).elim .spdmError (.measurement k))) :=
  (exec_spdmRequest_of_open ho hn _).trans (congrArg Host.Outcome.next (State.spdm_getMeasurements _ _ _))

theorem exec_keyExchange : exec (.spdmRequest sec size .keyExchange) s = .next (s.freeSession.elim (s.wakeUp.doeAnswer .spdmError) (fun n =>
    ({ s.wakeUp with sec := { s.sec with sessions := s.sec.sessions ++ [(n, false)] } } : State).doeAnswer
      (.spdm (Config.spdmResponse 8)))) :=
  (exec_spdmRequest_of_open ho hn _).trans (congrArg Host.Outcome.next (State.spdm_keyExchange _ _))

theorem exec_finish_good {n : Nat} (hm : (n, false) ∈ s.sec.sessions) : exec (.spdmRequest sec size (.finish n true)) s =
    .next (({ s.wakeUp with sec := { s.sec with
        sessions := s.sec.sessions.map (fun e => if e.1 = n then (n, true) else e) } } : State).doeAnswer (.spdm (Config.spdmResponse 9))) := by
  have negotiating : s.sec.sessions.any (fun e => decide (e.1 = n) && !e.2) = true :=
    List.any_eq_true.mpr ⟨(n, false), hm, by simp⟩
  exact (exec_spdmRequest_of_open ho hn _).trans (congrArg Host.Outcome.next (if_pos negotiating))

theorem exec_endSession_of_established {n : Nat} (hs : sec = true) (he : s.established n = true) :
    ∃ t, exec (.spdmRequest sec size (.endSession n)) s = .next t ∧
      t.sec = { s.sec with sessions := s.sec.sessions.filter (fun e => e.1 ≠ n) } := by
  have granted : (sec && s.wakeUp.established n) = true := by
    rw [hs]
    exact he
  refine ⟨_, (exec_spdmRequest_of_open ho hn _).trans (congrArg Host.Outcome.next (if_pos granted)), ?_⟩
  exact congrArg (fun c : SecState => { c with sessions := c.sessions.filter (fun e => e.1 ≠ n) }) (State.doeAnswer_sec _ _)

theorem exec_endSession_refused {n : Nat} (h : sec = false ∨ s.established n = false) :
    exec (.spdmRequest sec size (.endSession n)) s = .next (s.wakeUp.doeAnswer .spdmError) := by
  have refused : ¬ (sec && s.wakeUp.established n) = true := by
    have same : s.wakeUp.established n = s.established n := rfl
    rcases h with h | h <;> simp [same, h]
  exact (exec_spdmRequest_of_open ho hn _).trans (congrArg Host.Outcome.next (if_neg refused))

end Requests

/-- Settles O18: each request is one branch of the responder and each IDE_KM message one change of a direction; answers leave sessions
and keys alone, and what a started set lets go on changes only whether the stream is Secure and which completions wait. -/
theorem spdmAndIdeKeyManagement : Obligations.SpdmAndIdeKeyManagement := by
  unfold Obligations.SpdmAndIdeKeyManagement
  refine ⟨⟨fun sec size req s ho hbig => ?_, fun sec size s ho hn => ?_, fun s ho => ?_,
      fun s hc => ⟨?_, fun sec size req => ?_⟩⟩,
    fun session s ho he => ?_, fun session s h => ?_⟩
  · exact congrArg Host.Outcome.next ((if_pos ho).trans (if_pos hbig))
  · refine ⟨?_, fun v => ⟨fun hv => ?_, fun h1 h2 => ?_⟩, ?_, fun k => ⟨fun hk => ?_, fun hk => ?_⟩, fun req hreq => ?_,
      fun k => ?_, fun k hk => ⟨?_, ?_⟩, fun n hf => ?_, fun hf => ?_, fun n hm => ?_, fun n => ?_,
      fun n hs he => ?_, fun n h => ?_, fun n => ?_, ?_⟩
    · exact exec_spdmRequest_of_open ho hn _
    · rw [exec_getCapabilities ho hn, if_pos hv]
    · rw [exec_getCapabilities ho hn, if_neg (by omega)]
    · exact exec_spdmRequest_of_open ho hn _
    · rw [exec_discovery ho hn, if_pos hk]
    · rw [exec_discovery ho hn, if_neg (by omega)]
    · rw [exec_spdmRequest_of_open ho hn]
      simp only [List.mem_cons, List.not_mem_nil, or_false] at hreq
      rcases hreq with rfl | rfl | rfl <;> rfl
    · rw [exec_getMeasurements ho hn]
      cases s.measure k <;> rfl
    · exact (exec_spdmRequest_of_open ho hn _).trans (congrArg Host.Outcome.next (if_neg (fun h => hk (Fin.ext h))))
    · exact (exec_spdmRequest_of_open ho hn _).trans (congrArg Host.Outcome.next (if_neg (fun h => hk (Fin.ext h))))
    · have opens := exec_keyExchange (sec := sec) ho hn
      rw [hf, Option.elim_some] at opens
      exact Answers.of_exec opens (execSpdmRequest_only _ _ _ s s) (State.doeAnswer_sec _ _)
    · rw [exec_keyExchange ho hn, hf, Option.elim_none]
    · exact Answers.of_exec (exec_finish_good ho hn hm) (execSpdmRequest_only _ _ _ s s) (State.doeAnswer_sec _ _)
    · exact Answers.of_exec (exec_spdmRequest_of_open ho hn _) (execSpdmRequest_only _ _ _ s s) (State.doeAnswer_sec _ _)
    · obtain ⟨t, ht, hsec⟩ := exec_endSession_of_established ho hn hs he
      exact Answers.of_exec ht (execSpdmRequest_only _ _ _ s s) hsec
    · exact exec_endSession_refused ho hn h
    · exact exec_spdmRequest_of_open ho hn _
    · exact exec_spdmRequest_of_open ho hn _
  · exact congrArg Host.Outcome.next (if_pos ho)
  · exact congrArg Host.Outcome.next (if_neg (by simp [hc]))
  · exact congrArg Host.Outcome.next (if_neg (by simp [hc]))
  · refine ⟨congrArg Host.Outcome.next (ideKm_of ho he), fun sub tx set key => ?_, fun sub tx set hk d hd hlen => ?_,
      fun sub tx set hk => ?_, fun sub set => ?_⟩
    · exact Answers.of_exec (congrArg Host.Outcome.next (ideKm_of ho he)) (execKeyProg_only _ _ _ _ _ s s) (State.doeAnswer_sec _ _)
    · subst hd
      refine Answers.of_exec (t := s.started sub tx set) (congrArg Host.Outcome.next ((ideKm_of ho he).trans (if_pos hk)))
        (execKSetGo_only _ _ _ _ s s) ⟨?_, fun n hne => ?_, State.started_secure s sub tx set⟩
      · rw [State.started_dir, nth_modNth_same _ _ _ _ hlen]
        exact IdeDir.go_eq _ _ _
      · rw [State.started_dir, nth_modNth_other _ _ _ hne]
        rfl
    · exact congrArg Host.Outcome.next ((ideKm_of ho he).trans (if_neg (by rw [hk]; exact Bool.false_ne_true)))
    · exact Answers.of_exec (congrArg Host.Outcome.next (ideKm_of ho he)) (execKSetStop_only _ _ _ s s) (State.doeAnswer_sec _ _)
  · exact ⟨congrArg Host.Outcome.next (ideKm_not h), fun _ _ _ _ => congrArg Host.Outcome.next (ideKm_not h),
      fun _ _ _ => congrArg Host.Outcome.next (ideKm_not h), fun _ _ => congrArg Host.Outcome.next (ideKm_not h)⟩

end Sys2Proof.Machine
end

section
/-! SUPPORT. Metering (R102, R116, R119): what a tick, a boundary and the used fields make of every instance record. -/

namespace Sys2Proof.Machine

/-- An effect whose frame leaves the instances out reads every record as it was. -/
theorem Only.getInst {l : List StateField} {s t : State} (h : Only l s t) (hl : l.elem .inst = false) (j : Nat) :
    t.getInst j = s.getInst j :=
  congrArg (Bank.get instDef · j) (h.at .inst hl)

/-- An instance without a record reads as a fresh one. -/
theorem State.getInst_of_not_mem {s : State} {j : Nat} (h : j ∉ s.instIds) : s.getInst j = Instance.fresh :=
  Bank.get_of_not_mem h

/-- One effect on every instance that has a record is that effect on every instance, where it leaves a fresh record as it is. -/
theorem getInst_forEach_instIds {f : Nat → State → State} {g : Instance → Instance}
    (hk : ∀ i t, Keeps t (f i t))
    (hf : ∀ i t, t.Canon → ∀ j, (f i t).getInst j = if j = i then g (t.getInst i) else t.getInst j)
    (h0 : g Instance.fresh = Instance.fresh) {s : State} (c : s.Canon) (j : Nat) :
    (forEach s.instIds f s).getInst j = g (s.getInst j) := by
  refine (getInst_forEach (g := fun _ => g) hk hf (Bank.keys_nodup c.inst) c j).trans ?_
  split
  · rfl
  · rw [State.getInst_of_not_mem ‹_›, h0]

/-! ### OCCUPANCY_TICK -/

/-- The record of an instance whose open period's meter changes by `g` while the meter counts (R116). -/
def Instance.metered (r : Instance) (g : Meter → Meter) : Instance :=
  if r.counting then { r with opened := r.opened.map (fun p => { p with meter := g p.meter }) } else r

theorem State.count_getInst {s : State} (w : Bank.wf instDef s.inst = true) (i j : Nat) (g : Meter → Meter) :
    (s.count i g).getInst j = if j = i then (s.getInst i).metered g else s.getInst j := by
  unfold State.count Instance.metered
  split
  · exact State.getInst_modInst w i j _
  · split
    · rw [‹j = i›]
    · rfl

/-- The record of an instance after a tick: its usage joins its occupancy. -/
def Instance.ticked (r : Instance) : Instance := r.metered (fun m => { m with occupancy := m.occupancy + r.used })

theorem exec_occupancyTick {s : State} (h : s.serving = true) : exec .occupancyTick s = .next (forEach s.instIds (fun i t =>
    t.count i (fun m => { m with occupancy := m.occupancy + (t.getInst i).used })) s) :=
  congrArg Host.Outcome.next (whenServing_of h)

/-! ### PERIOD_BOUNDARY -/

/-- The record of an instance whose open period, if it has one, closes at its boundary (R119). -/
def Instance.pastBoundary (r : Instance) (t : TimeState) : Instance := r.opened.elim r (r.closeBoundary t)

theorem State.closeOne_getInst {s : State} (w : Bank.wf instDef s.inst = true) (i j : Nat) :
    (s.closeOne i).getInst j = if j = i then (s.getInst i).pastBoundary s.tm else s.getInst j := by
  unfold State.closeOne Instance.pastBoundary
  split
  · rename_i p hp
    rw [(State.logEv_only _ _ _ _).getInst rfl, (State.tenantClosed_only _ _).getInst rfl, State.getInst_modInst w, hp,
      Option.elim_some]
  · rename_i hp
    rw [hp, Option.elim_none]
    split
    · rw [‹j = i›]
    · rfl

/-- An instance with a boundary due has a record. -/
theorem State.mem_instIds_of_due {s : State} {j b : Nat} (h : s.dueBoundary j = some b) : j ∈ s.instIds := by
  by_contra hj
  rw [State.dueBoundary, State.getInst_of_not_mem hj] at h
  cases h

/-- Taking a boundary closes the open period of exactly the instances due there. -/
theorem State.takeBoundary_getInst {s : State} (c : s.Canon) (b j : Nat) :
    (s.takeBoundary b).getInst j = if s.dueBoundary j = some b then (s.getInst j).pastBoundary s.tm else s.getInst j := by
  have due : j ∈ s.instIds.filter (fun i => s.dueBoundary i = some b) ↔ s.dueBoundary j = some b := by
    rw [List.mem_filter, decide_eq_true_eq]
    exact and_iff_right_of_imp State.mem_instIds_of_due
  unfold State.takeBoundary
  extract_lets l
  split
  · rename_i hl
    rw [if_neg (fun h => List.ne_nil_of_mem (due.mpr h) (List.isEmpty_iff.mp hl))]
  · have closes := getInst_forEach (I := fun t => t.Canon ∧ t.tm = s.tm) (f := fun i t => t.closeOne i)
      (g := fun _ r => r.pastBoundary s.tm) (l := l) (s := s)
      (fun i t h => ⟨State.closeOne_keeps t i h.1, ((State.closeOne_only t i).at .tm rfl).trans h.2⟩)
      (fun i t h j => by rw [State.closeOne_getInst h.1.inst, h.2]) ((Bank.keys_nodup c.inst).filter _) ⟨c, rfl⟩ j
    rw [State.pfClosed, (State.postOwn_only _ _ _ _).getInst rfl, closes]
    exact if_congr due rfl rfl

theorem exec_periodBoundary {s : State} (h : s.serving = true) :
    exec .periodBoundary s = .next (s.firstDue.elim s s.takeBoundary) := by
  refine congrArg Host.Outcome.next ((whenServing_of h).trans ?_)
  cases s.firstDue <;> rfl

/-! ### POLICY_PAGE_USED_UPDATE -/

theorem exec_policyPageUsedUpdate {s : State} (h : s.serving = true) : exec .policyPageUsedUpdate s =
    .next (forEach s.instIds (fun i t => t.modInst i (fun r => { r with shownUsed := r.used })) s) :=
  congrArg Host.Outcome.next (whenServing_of h)

/-- Settles O7: a tick and the used fields are one effect on every record, which leaves a fresh one alone; a boundary closes the periods
of the instances due there, and telling their owners touches no record. -/
theorem meteringTicks : Obligations.MeteringTicks := by
  unfold Obligations.MeteringTicks
  refine ⟨fun s c hs => ?_, fun s b c hs hb => ?_, fun s hs hb => ?_, fun s c hs => ?_⟩
  · refine Answers.of_exec (exec_occupancyTick hs) (execOccupancyTick_only s s) (fun i => ?_)
    exact getInst_forEach_instIds (g := Instance.ticked) (fun i t => State.count_keeps t i _)
      (fun i t c j => State.count_getInst c.inst i j _) rfl c i
  · have taken := exec_periodBoundary hs
    rw [hb, Option.elim_some] at taken
    refine Answers.of_exec taken (execPeriodBoundary_only s s) ⟨fun i p hi hp => ?_, fun i hi => ?_⟩
    · rw [State.takeBoundary_getInst c, if_pos hi, Instance.pastBoundary, hp, Option.elim_some]
    · rw [State.takeBoundary_getInst c, if_neg hi]
  · rw [exec_periodBoundary hs, hb, Option.elim_none]
  · refine Answers.of_exec (exec_policyPageUsedUpdate hs) (execPolicyPageUsedUpdate_only s s) (fun i => ?_)
    exact getInst_forEach_instIds (g := fun r => { r with shownUsed := r.used }) (fun i t => State.modInst_keeps t i _)
      (fun i t c j => State.getInst_modInst c.inst i j _) rfl c i

end Sys2Proof.Machine
end

section
/-! SUPPORT. Committing and adopting an epoch (R112 to R115): what the switch of a part and the end of an adoption make of the epoch. -/

namespace Sys2Proof.Machine

@[simp] theorem State.note_epoch (s : State) (ev : Ev) (arg : Nat) : (s.note ev arg).epoch = s.epoch :=
  (State.note_only s ev arg).at .epoch rfl

theorem exec_epochCommit {s : State} (h : s.serving = true) (v : Word) : exec (.epochCommit v) s = .next (s.commitEpoch (fld v 0 16)) :=
  congrArg Host.Outcome.next (whenServing_of h)

theorem State.commitEpoch_next {s : State} {v : Nat} (hp : s.epoch.pending = false) (hv : v = wrapInc 65535 s.epoch.cur) :
    s.commitEpoch v = { s with
      prevSet := s.nextSet, nextSet := Bank.keep isEpochReg s.regs,
      epoch := { s.epoch with cur := v, pending := true, adopt := 0, drives := 0, axes := 0,
                              tmo := Cf.CFG_EPOCH_TMO_ms s, since := s.tm.mono, timedOut := false } } :=
  if_neg (by simp [hp, hv])

theorem State.commitEpoch_refused {s : State} {v : Nat} (h : s.epoch.pending = true ∨ v ≠ wrapInc 65535 s.epoch.cur) :
    s.commitEpoch v = ({ s with epoch := { s.epoch with refused := true } } : State).note .commitRefused v :=
  if_pos (by simpa using h)

/-- The end of an adoption clears pending once every bit is set and changes nothing else of the epoch (R113). -/
theorem State.epochDone_epoch (s : State) :
    s.epochDone.epoch = { s.epoch with pending := s.epoch.pending && !decide (s.epoch.adopt = 0x3FFF) } := by
  unfold State.epochDone
  split
  · rename_i h
    rw [Bool.and_eq_true] at h
    obtain ⟨-, hall⟩ := h
    rw [State.note_epoch, (State.postOwn_only _ _ _ _).at .epoch rfl, hall, Bool.not_true, Bool.and_false]
  · rename_i h
    have kept : (s.epoch.pending && !decide (s.epoch.adopt = 0x3FFF)) = s.epoch.pending := by
      revert h
      cases s.epoch.pending <;> simp
    rw [kept]

/-- A latency that changes resynchronises the axis, which leaves alone what an adoption still has to drain. -/
theorem State.mustDrain_adoptRegs (s : State) (bit part : Nat) :
    ((s.adoptRegs bit part).latChanged s bit part).mustDrain bit = s.mustDrain bit := by
  have frame := State.latChanged_only (s.adoptRegs bit part) s bit part
  have same : ((s.adoptRegs bit part).latChanged s bit part).oldEpochWork bit = (s.adoptRegs bit part).oldEpochWork bit := by
    unfold State.oldEpochWork
    rw [frame.at .cmds rfl, frame.at .epoch rfl]
  exact congrArg (decide (2 ≤ bit) && ·) same

@[simp] theorem EpochState.switched_pending (e : EpochState) (bit part : Nat) : (e.switched bit part).pending = e.pending := by
  unfold EpochState.switched
  split
  · rfl
  · split <;> rfl

/-- SUBSYSTEM_ADOPT of a part that may adopt (R113): the epoch takes the switch, and pending clears where that set the last bit. -/
theorem exec_subsystemAdopt {bit : Fin 14} {part : Fin 16} {s : State} (hs : s.serving = true) (hp : s.epoch.pending = true)
    (hb : bitN s.epoch.adopt bit.val = false) (h6 : bit.val = 6 → part.val < 4) (hw : bit.val < 2 ∨ s.oldEpochWork bit.val = false)
    (hsafe : s.safePoint bit.val part.val = true) :
    ∃ t, exec (.subsystemAdopt bit part) s = .next t ∧ t.epoch = { s.epoch.switched bit.val part.val with
      pending := !decide ((s.epoch.switched bit.val part.val).adopt = 0x3FFF) } := by
  have admitted : (!s.epoch.pending || bitN s.epoch.adopt bit.val || (decide (bit.val = 6) && decide (4 ≤ part.val)) ||
      !s.safePoint bit.val part.val) = false := by
    rw [hp, hb, hsafe]
    simpa using h6
  have drained : s.mustDrain bit.val = false := by
    rcases hw with hlt | hw
    · simp [State.mustDrain, hlt]
    · simp [State.mustDrain, hw]
  generalize ht : (s.adoptRegs bit.val part.val).latChanged s bit.val part.val = t
  have he : t.epoch = s.epoch := ht ▸ (State.latChanged_only _ _ _ _).at .epoch rfl
  have hd : t.mustDrain bit.val = false := by rw [← ht, State.mustDrain_adoptRegs, drained]
  refine ⟨({ t with epoch := t.epoch.switched bit.val part.val } : State).epochDone, ?_, ?_⟩
  · refine congrArg Host.Outcome.next ((whenServing_of hs).trans ((if_neg (by rw [admitted]; exact Bool.false_ne_true)).trans ?_))
    rw [ht]
    exact if_neg (by rw [hd]; exact Bool.false_ne_true)
  · rw [State.epochDone_epoch, he, EpochState.switched_pending, hp, Bool.true_and]

/-- An adoption may set late once the time of its commit has passed and late is not yet set for it (R115). -/
def State.lateNow (s : State) : Bool := s.epoch.pending && !s.epoch.timedOut && decide (s.epoch.since + s.epoch.tmo ≤ s.tm.mono)

theorem exec_epochAdoptionTimeout (s : State) : exec .epochAdoptionTimeout s = .next (whenServing s (fun s => if s.lateNow then
    ({ s with epoch := { s.epoch with late := true, timedOut := true } } : State).note .epochLate (0x3FFF - s.epoch.adopt) else s)) := rfl

/-- Settles O11: a commit is the two branches of `State.commitEpoch`; an adoption takes the switch of its part and then tests the bits,
and resynchronising an axis changes neither the epoch nor what is in flight. -/
theorem epochCommitAndAdoption : Obligations.EpochCommitAndAdoption := by
  unfold Obligations.EpochCommitAndAdoption
  refine ⟨fun v s hs hp hv => ?_, fun v s hs h => ?_, fun bit part s hs hp hb h6 h7 hw hsafe => ?_,
    fun bit part s d hs hp hb hw hsafe => ⟨fun h6 hpart hd => ?_, fun h7 hd => ?_⟩, fun s hs hp hout hdue => ?_, fun s h => ?_⟩
  · rw [exec_epochCommit hs, State.commitEpoch_next hp hv]
  · have refused := exec_epochCommit hs v
    rw [State.commitEpoch_refused h] at refused
    exact ⟨_, refused, State.note_epoch _ _ _, Only.via (State.note_only _ _ _) rfl (Only.mono (Only.set_epoch s _) rfl)⟩
  · obtain ⟨t, ht, he⟩ := exec_subsystemAdopt hs hp hb (fun e => absurd e h6) hw hsafe
    refine Answers.of_exec ht (execSubsystemAdopt_only bit part s s) ?_
    rw [he, EpochState.switched, if_neg h6, if_neg h7]
    simp
  · obtain ⟨t, ht, he⟩ := exec_subsystemAdopt hs hp hb (fun _ => hpart) (.inr hw) hsafe
    refine Answers.of_exec ht (execSubsystemAdopt_only bit part s s) ?_
    rw [he, EpochState.switched, if_pos h6, hd]
    simp
  · obtain ⟨t, ht, he⟩ := exec_subsystemAdopt hs hp hb (fun h6 => by omega) (.inr hw) hsafe
    refine Answers.of_exec ht (execSubsystemAdopt_only bit part s s) ?_
    rw [he, EpochState.switched, if_neg (by omega), if_pos h7, hd]
    simp
  · have late : s.lateNow = true := by simp [State.lateNow, hp, hout, hdue]
    have noted := exec_epochAdoptionTimeout s
    rw [whenServing_of hs, if_pos late] at noted
    exact Answers.of_exec noted (execEpochAdoptionTimeout_only s s) (State.note_epoch _ _ _)
  · have early : s.lateNow = false := by
      rcases h with hp | hout | hdue
      · simp [State.lateNow, hp]
      · simp [State.lateNow, hout]
      · simp [State.lateNow, hdue]
    rw [exec_epochAdoptionTimeout, whenServing, early]
    simp

end Sys2Proof.Machine
end

section
/-! SUPPORT. Mailbox slots and the words of the shared pages (R8, R95 to R97, R101): what each access does once its BAR0 is open. -/

namespace Sys2Proof.Machine

/-- The slots named by a byte that a function has not posted, ascending (R95). -/
def State.freeNamed (s : State) (f : Nat) (post : Byte) : List Nat :=
  (bitsOf post.toNat).filter (fun k => !(s.getFn f).posted.contains k)

/-- Some slot named by a byte is posted already (R95). -/
def State.busyNamed (s : State) (f : Nat) (post : Byte) : Bool := (bitsOf post.toNat).any (fun k => (s.getFn f).posted.contains k)

theorem State.getFn_accErrorIf (p : Prop) [Decidable p] (s : State) (f off : Nat) {g : Nat} :
    (if p then s.accError f 0 off else s).getFn g = s.getFn g := by
  split <;> rfl

section Bar0
variable {f : Func} {s : State} (ho : s.barOpen f.toNat = true) (hr : s.inReset f.toNat = false)
include ho hr

theorem exec_mbInPost (post : Byte) : exec (.mbInPost f post) s = .next (if s.busyNamed f.toNat post then
      (s.modFn f.toNat (fun x => { x with posted := x.posted ++ s.freeNamed f.toNat post })).accError f.toNat 0 0x1400
    else s.modFn f.toNat (fun x => { x with posted := x.posted ++ s.freeNamed f.toNat post })) :=
  congrArg Host.Outcome.next (hostBar0_of ho hr)

theorem exec_mbOutAck (ack : Byte) : exec (.mbOutAck f ack) s = .next
    ((s.modFn f.toNat (fun x => { x with outSlots := x.outSlots.filter (fun e => !ack.toNat.testBit e.1) })).fillSlots f.toNat) :=
  congrArg Host.Outcome.next (hostBar0_of ho hr)

/-- A write of an aligned word is the write of that word of the window (R101). -/
theorem exec_sharedPageWrite_word {off : BitVec 12} {data : List Byte} (ha : off.toNat % 4 = 0) (hl : data.length = 4) :
    exec (.sharedPageWrite f off data) s = .next (s.pageWord f.toNat off.toNat data) :=
  congrArg Host.Outcome.next ((hostBar0_of ho hr).trans (if_pos ⟨ha, hl⟩))

/-- An aligned write of 64 bits that ends inside the window is its two words, one after the other (R8). -/
theorem exec_sharedPageWrite_two {off : BitVec 12} {a b : List Byte} (ha : off.toNat % 4 = 0) (hend : off.toNat + 4 < 4096)
    (hla : a.length = 4) (hlb : b.length = 4) : exec (.sharedPageWrite f off (a ++ b)) s = .next
      ((s.pageWord f.toNat off.toNat a).pageWord f.toNat (off.toNat + 4) b) := by
  have wide : (a ++ b).length = 8 := by rw [List.length_append, hla, hlb]
  refine congrArg Host.Outcome.next ((hostBar0_of ho hr).trans ((if_neg (by omega)).trans ((if_pos ⟨ha, wide⟩).trans ?_)))
  rw [← hla, List.take_left, List.drop_left, hla]
  exact if_pos hend

/-- A narrow or unaligned write is one access error (R8). -/
theorem exec_sharedPageWrite_narrow {off : BitVec 12} {data : List Byte}
    (h : off.toNat % 4 ≠ 0 ∨ (data.length ≠ 4 ∧ data.length ≠ 8)) :
    exec (.sharedPageWrite f off data) s = .next (s.accError f.toNat 0 (0x7000 + off.toNat)) :=
  congrArg Host.Outcome.next ((hostBar0_of ho hr).trans ((if_neg (by omega)).trans (if_neg (by omega))))

end Bar0

/-! ### MAILBOX_CONSUME -/

theorem exec_mailboxConsume_posted {f : Func} {s : State} {k : Nat} {r : List Nat} (hs : s.serving = true)
    (hp : (s.getFn f.toNat).posted = k :: r) (hr : s.inReset f.toNat = false) : exec (.mailboxConsume f) s = .next
      ((if leAt (s.inSlot f.toNat k) 0 1 = 0x81 then (s.modFn f.toNat (fun x => { x with posted := r })).relay f (s.inSlot f.toNat k)
        else (s.modFn f.toNat (fun x => { x with posted := r })).logEv .inboundUnknown (some f) (leAt (s.inSlot f.toNat k) 0 1)).setInsEvt
          f.toNat 1) := by
  refine congrArg Host.Outcome.next ((whenServing_of hs).trans ?_)
  dsimp only
  rw [hp]
  exact if_neg (by rw [hr]; exact Bool.false_ne_true)

theorem exec_mailboxConsume_idle {f : Func} {s : State} (h : (s.getFn f.toNat).posted = [] ∨ s.inReset f.toNat = true) :
    exec (.mailboxConsume f) s = .next s := by
  refine congrArg Host.Outcome.next (ite_eq_right_iff.mpr fun _ => ?_)
  dsimp only
  split
  · rename_i hp
    rcases h with he | hr
    · rw [he] at hp
      cases hp
    · exact if_pos hr
  · rfl

/-! ### One word of a window (R101, R591) -/

section Word
variable {s : State} {f off i : Nat} {w : List Byte} (hd : s.boot.dramFail = false)
include hd

theorem State.pageWord_ownStatus (hp : s.pageSel f = (true, f)) :
    s.pageWord f off w = s.modInst f (fun r => { r with status := Bank.putBytes zeroByte r.status off w }) := by
  unfold State.pageWord
  rw [hp, hd]
  exact if_pos rfl

theorem State.pageWord_otherStatus (hp : s.pageSel f = (true, i)) (hi : i ≠ f) :
    s.pageWord f off w = s.accError f 0 (0x7000 + off) := by
  unfold State.pageWord
  rw [hp, hd]
  exact if_neg hi

theorem State.pageWord_policy (hp : s.pageSel 0 = (false, i)) (ho : 256 ≤ off) : s.pageWord 0 off w = if off = 256 then
    (s.modInst i (fun r => { r with policy := Bank.putBytes zeroByte r.policy off w })).policySeq i
    else s.modInst i (fun r => { r with policy := Bank.putBytes zeroByte r.policy off w }) := by
  unfold State.pageWord
  rw [hp, hd]
  exact if_pos (And.intro (Eq.refl 0) ho)

theorem State.pageWord_policyRefused (hp : s.pageSel f = (false, i)) (h : f ≠ 0 ∨ off < 256) :
    s.pageWord f off w = s.accError f 0 (0x7000 + off) := by
  unfold State.pageWord
  rw [hp, hd]
  exact if_neg (c := f = 0 ∧ 256 ≤ off) (by omega)

end Word

/-- Settles O15: behind an open BAR0 each access is one branch of its meaning, a word of a window one branch of `State.pageWord`, and a
posted or written record is read back through the canonical tables. -/
theorem mailboxAndSharedPages : Obligations.MailboxAndSharedPages := by
  unfold Obligations.MailboxAndSharedPages
  refine ⟨⟨fun f post s c ho hr => ?_, fun f s k r hs hp hr u hu => ⟨fun hrelay => ?_, fun hother => ?_⟩,
      fun f s h => exec_mailboxConsume_idle h, fun f ack s ho hr => exec_mbOutAck ho hr ack⟩,
    fun f off data s c ho hr hd ha hl hp => ?_, fun f off data s i ho hr hd ha hl hp hi => ?_,
    fun f off data s ho hr h => exec_sharedPageWrite_narrow ho hr h, fun off data s u i ho hr hd ha hl hp h256 hu => ?_,
    fun f off data s i ho hr hd ha hl hp h => ?_, fun f off a b s ho hr ha hend hla hlb => exec_sharedPageWrite_two ho hr ha hend hla hlb⟩
  · have posts := State.getFn_modFn (s := s) c.fn f.toNat (g := fun x => { x with posted := x.posted ++ s.freeNamed f.toNat post })
    refine Answers.of_exec (exec_mbInPost ho hr post) (execMbInPost_only f post s s)
      ⟨fun l hl => ?_, fun g hg => (State.getFn_accErrorIf _ _ _ _).trans ((posts g).trans (if_neg hg)), apply_ite State.hlt _ _ _⟩
    rw [hl]
    exact (State.getFn_accErrorIf _ _ _ _).trans ((posts _).trans (if_pos rfl))
  · rw [exec_mailboxConsume_posted hs hp hr, if_pos hrelay, hu]
  · rw [exec_mailboxConsume_posted hs hp hr, if_neg hother, hu]
  · have written := exec_sharedPageWrite_word ho hr ha hl
    rw [State.pageWord_ownStatus hd hp] at written
    have reads := State.getInst_modInst (s := s) c.inst f.toNat
      (g := fun r => { r with status := Bank.putBytes zeroByte r.status off.toNat data })
    exact Answers.of_exec written (execSharedPageWrite_only f off data s s)
      ⟨(reads _).trans (if_pos rfl), fun i hi => (reads i).trans (if_neg hi), rfl⟩
  · rw [exec_sharedPageWrite_word ho hr ha hl, State.pageWord_otherStatus hd hp hi]
  · rw [exec_sharedPageWrite_word (f := 0) ho hr ha hl, hu]
    exact congrArg Host.Outcome.next (State.pageWord_policy hd hp h256)
  · rw [exec_sharedPageWrite_word ho hr ha hl, State.pageWord_policyRefused hd hp h]

end Sys2Proof.Machine
end

section
/-! SUPPORT. Manager commands on an instance (R86, R87, R92, R93, R107, R118): the target is judged again, then the command takes its
effect on the state with its own setting set in force. -/

namespace Sys2Proof.Machine

section Managed
variable {id : Nat} {op : Op} {s : State} {d : Cmd} (h : s.Runs id op d) {g : Cmd → State → State}
include h

/-- A manager command whose target allows it takes its effect (R153). -/
theorem withCmd_manage_of (hc : (s.setFor d).checkState op d.fn.toNat d.entry = none) :
    withCmd id op s (fun c t => t.manage c (g c)) = (g d (s.setFor d)).setBack s := by
  rw [withCmd_of h]
  unfold State.manage
  rw [h.op]
  dsimp only
  rw [hc]

/-- A manager command whose target is in another state completes with the status of that state (R153). -/
theorem withCmd_manage_refused {st res : Nat} (hc : (s.setFor d).checkState op d.fn.toNat d.entry = some (st, res)) :
    withCmd id op s (fun c t => t.manage c (g c)) = ((s.setFor d).complete d st res false).setBack s := by
  rw [withCmd_of h]
  unfold State.manage
  rw [h.op]
  dsimp only
  rw [hc]

end Managed

section Commands
variable {id : Nat} {s : State} {d : Cmd}

/-- INSTANCE_START is served on a target that allows it: with the random source running, its key is drawn (R86, R208). -/
theorem exec_instanceStart (h : s.Runs id .start d) (hc : (s.setFor d).checkState .start d.fn.toNat d.entry = none) :
    exec (.instanceStart id) s = .next ((if s.sea.rngOk = true then
      let k := (s.setFor d).drawKey.1
      let u := (s.setFor d).drawKey.2
      (u.journalRecordOf (eTarget d.entry) (startRecord u.tm d.entry k (u.wrapFor k (eTarget d.entry))
        (u.getInst (eTarget d.entry)))).completeFlushed { d with aux := k } (wrapInc 4095 (u.getInst (eTarget d.entry)).gen)
      else if s.sea.rngDown + 100 ≤ s.tm.mono then (s.setFor d).complete d stBusy 0 false else s.setFor d).setBack s) :=
  congrArg Host.Outcome.next (withCmd_manage_of h hc)

/-- INSTANCE_RESET is served on a target that allows it: it begins the reset or joins the one in progress (R87, R124). -/
theorem exec_instanceReset (h : s.Runs id .reset d) (hc : (s.setFor d).checkState .reset d.fn.toNat d.entry = none) :
    exec (.instanceReset id) s = .next ((if (s.getInst (eTarget d.entry)).state = .active then
        ((s.setFor d).setCmd { d with stage := .media }).beginReset (eTarget d.entry) 1 false [d.id]
      else ((s.setFor d).setCmd { d with stage := .media }).joinReset (eTarget d.entry) false [d.id]).setBack s) :=
  congrArg Host.Outcome.next (withCmd_manage_of h hc)

/-- The leaves of every block that an instance maps are in the pool (R93). -/
def State.touchMapped (s : State) (i : Nat) : State :=
  forEach ((s.mappedBlocks i).map (fun b => leafKey i b)).eraseDups (fun k t => t.touchLeaf k) s

/-- What INSTANCE_REMOVE answers once the leaves of its target are in, as `u` holds them (R92, R93). -/
def State.removeOrRefuse (u : State) (d : Cmd) (i : Nat) : State :=
  (u.firstHeld i).elim
    (if (u.getInst i).state = .active then (u.setCmd { d with stage := .media }).beginReset i 5 false [d.id] else u)
    (fun b => u.complete d stRetention b false)

theorem exec_instanceRemove (h : s.Runs id .remove d) (hc : (s.setFor d).checkState .remove d.fn.toNat d.entry = none) :
    exec (.instanceRemove id) s =
      .next ((((s.setFor d).touchMapped (eTarget d.entry)).removeOrRefuse d (eTarget d.entry)).setBack s) := by
  refine congrArg Host.Outcome.next ((withCmd_manage_of h hc).trans (congrArg (State.setBack · s) ?_))
  unfold State.removeOrRefuse State.touchMapped
  dsimp only
  split
  · rename_i hb
    rw [hb, Option.elim_some]
  · rename_i hn
    rw [hn, Option.elim_none]

/-- SET_POLICY is served on a target that allows it: the new record is journaled (R111). -/
theorem exec_setPolicy (h : s.Runs id .setPolicy d) (hc : (s.setFor d).checkState .setPolicy d.fn.toNat d.entry = none) :
    exec (.setPolicy id) s = .next ((((s.setFor d).journalRecordOf (eTarget d.entry) (policyRecord d.entry
      (s.getInst (eTarget d.entry)))).completeFlushed d 0).setBack s) :=
  congrArg Host.Outcome.next (withCmd_manage_of h hc)

/-- SET_QUOTA is served on a target that allows it: refused where the sum of the quotas passes the capacity (R107). -/
theorem exec_setQuota (h : s.Runs id .setQuota d) (hc : (s.setFor d).checkState .setQuota d.fn.toNat d.entry = none) :
    exec (.setQuota id) s = .next ((if (s.setFor d).fss.cap < (s.setFor d).quotaSum (eTarget d.entry) (eArg0 d.entry) then
        (s.setFor d).complete d stCapacity 0 false
      else ((s.setFor d).journalRecordOf (eTarget d.entry) (quotaRecord d.entry
        (s.getInst (eTarget d.entry)))).completeFlushed d 0).setBack s) :=
  congrArg Host.Outcome.next (withCmd_manage_of h hc)

/-- SET_PERIOD is served on a target that allows it: boundaries reached are taken, then a late boundary is refused (R118, R126). -/
theorem exec_setPeriod (h : s.Runs id .setPeriod d) (hc : (s.setFor d).checkState .setPeriod d.fn.toNat d.entry = none) :
    exec (.setPeriod id) s = .next ((if (s.setFor d).settleBoundaries.periodLate d.entry = true then
        (s.setFor d).settleBoundaries.complete d stField (fieldResult 8 noElem) false
      else ((s.setFor d).settleBoundaries.journalRecordOf (eTarget d.entry) (periodRecord d.entry
        ((s.setFor d).settleBoundaries.getInst (eTarget d.entry)))).completeFlushed d 0).setBack s) :=
  congrArg Host.Outcome.next (withCmd_manage_of h hc)

end Commands

/-- Settles O16: each command is its one equation, and each clause one of its branches. -/
theorem instanceManagement : Obligations.InstanceManagement := by
  unfold Obligations.InstanceManagement
  refine ⟨fun c op hm id s d st res h hc => ?_, fun id s d h hc u k => ⟨fun hr hk => ?_, fun hr hd => ?_, fun hr hd => ?_⟩,
    fun id s d i h hc hi u hu => ⟨fun ha => ?_, fun ha => ?_⟩, fun id s u d i h hc hi hu => ⟨fun b hb => ?_, fun hn ha => ?_⟩,
    fun id s d i h hc hi => ?_, fun id s d i h hc hi => ⟨fun hq => ?_, fun hq => ?_⟩,
    fun id s d i u h hc hi hu => ⟨fun hl => ?_, fun hl => ?_⟩⟩
  · simp only [List.mem_cons, List.not_mem_nil, or_false, Prod.mk.injEq] at hm
    obtain ⟨rfl, rfl⟩ | ⟨rfl, rfl⟩ | ⟨rfl, rfl⟩ | ⟨rfl, rfl⟩ | ⟨rfl, rfl⟩ | ⟨rfl, rfl⟩ := hm <;>
      exact congrArg Host.Outcome.next (withCmd_manage_refused h hc)
  · rw [exec_instanceStart h hc, if_pos hr, hk]
  · rw [exec_instanceStart h hc, if_neg (by simp [hr]), if_pos hd]
  · rw [exec_instanceStart h hc, if_neg (by simp [hr]), if_neg (by omega)]
    rfl
  · rw [exec_instanceReset h hc, ← hi, if_pos ha, hu]
  · rw [exec_instanceReset h hc, ← hi, if_neg ha, hu]
  · rw [exec_instanceRemove h hc, ← hi, State.touchMapped, ← hu, State.removeOrRefuse, hb, Option.elim_some]
  · rw [exec_instanceRemove h hc, ← hi, State.touchMapped, ← hu, State.removeOrRefuse, hn, Option.elim_none, if_pos ha]
  · rw [exec_setPolicy h hc, ← hi]
  · rw [exec_setQuota h hc, ← hi, if_pos hq]
  · rw [exec_setQuota h hc, ← hi, if_neg (by omega)]
  · rw [exec_setPeriod h hc, ← hu, if_pos hl]
  · rw [exec_setPeriod h hc, ← hu, if_neg (by simp [hl]), ← hi]

end Sys2Proof.Machine
end

section
/-! SUPPORT. The steps of a reset after its beginning (R57, R87, R88, R92): RESET_DRAIN_DONE and OLD_GENERATION_MEDIA_ENDED by what the
programme of the instance holds. -/

namespace Sys2Proof.Machine

/-- The old operations of instance `n` are off. -/
def State.dropOldOps (s : State) (n : Nat) : State := { s with oldOps := s.oldOps.filter (fun o => o.1 ≠ n) }

/-- The old operations of instance `n` are off and its programme has ended. -/
def State.endReset (s : State) (n : Nat) : State := (s.dropOldOps n).modInst n (fun r => { r with reset := none })

/-- The end of a removal (R92): IDLE with the key destroyed when no segment is left, DRAINING otherwise. -/
def State.endRemoval (v : State) (n : Nat) (p : ResetProg) : State :=
  ((if v.segCount n = 0 then (v.destroyKey n).setIState n .idle else v.setIState n .draining).journalRecord n).ackAll p.acks 0

section Drain
variable {i : Func} {s : State} (hr : s.running = true)
include hr

theorem exec_resetDrainDone_programme {p : ResetProg} (hp : (s.getInst i.toNat).reset = some p) (h5 : p.step < 5) :
    exec (.resetDrainDone i) s = .next (if s.drained i.toNat p.flr = true ∧ s.ackHeld i.toNat = false then
      ((s.resetStep4 i.toNat p).resetStep5 i.toNat (s.getInst i.toNat).gen).pump else s) := by
  refine congrArg Host.Outcome.next ((whenRunning_of hr).trans ?_)
  dsimp only
  rw [hp]
  dsimp only
  refine if_congr (by simp [h5]) rfl (if_neg ?_)
  simp [h5]

theorem exec_resetDrainDone_none (hn : (s.getInst i.toNat).reset = none) :
    exec (.resetDrainDone i) s = .next (if (s.getFn i.toNat).flr then s.resetFnOnly i.toNat else s) := by
  refine congrArg Host.Outcome.next ((whenRunning_of hr).trans ?_)
  dsimp only
  rw [hn]

end Drain

theorem State.resetFnOnly_eq (s : State) (n : Nat) : s.resetFnOnly n =
    if ((s.clearFnConfig n).getFn n).outSlots = [] then s.clearFnConfig n else (s.clearFnConfig n).setInsEvt n 0 :=
  if_congr List.isEmpty_iff rfl rfl

/-- What OLD_GENERATION_MEDIA_ENDED leaves of an instance whose programme is `p` (R87 step 6, R92). -/
def State.mediaEnded (s : State) (n : Nat) (p : ResetProg) : State :=
  if p.step < 5 then s.dropOldOps n else if p.cause = 5 then (s.endReset n).endRemoval n p else s.endReset n

theorem exec_oldGenerationMediaEnded {s : State} (hr : s.running = true) (i : Func) : exec (.oldGenerationMediaEnded i) s =
    .next ((s.getInst i.toNat).reset.elim (s.dropOldOps i.toNat) (s.mediaEnded i.toNat)) := by
  refine congrArg Host.Outcome.next ((whenRunning_of hr).trans ?_)
  dsimp only
  split
  · rename_i p hp
    rw [show (s.getInst i.toNat).reset = some p from hp]
    rfl
  · rename_i hn
    rw [show (s.getInst i.toNat).reset = none from hn]
    rfl

/-- The end of a removal leaves the old operations as they are. -/
theorem State.endRemoval_oldOps (v : State) (n : Nat) (p : ResetProg) : (v.endRemoval n p).oldOps = v.oldOps := by
  refine ((State.ackAll_only _ _ _).at .oldOps rfl).trans (((State.journalRecord_only _ _).at .oldOps rfl).trans ?_)
  split
  · exact ((State.setIState_only _ _ _).at .oldOps rfl).trans ((State.destroyKey_only _ _).at .oldOps rfl)
  · exact (State.setIState_only _ _ _).at .oldOps rfl

theorem State.mediaEnded_oldOps (s : State) (n : Nat) (p : ResetProg) :
    (s.mediaEnded n p).oldOps = s.oldOps.filter (fun o => o.1 ≠ n) := by
  unfold State.mediaEnded
  split
  · rfl
  · split
    · exact State.endRemoval_oldOps _ _ _
    · rfl

/-- Settles O17: a drained reset takes its steps; of a reset past step 5 the programme alone ends, and the end of a removal leaves the
old operations, already taken off, as they are. -/
theorem resetProgramme : Obligations.ResetProgramme := by
  unfold Obligations.ResetProgramme
  refine ⟨fun i s p hr hp h5 => ⟨fun hd ha => ?_, fun h => ?_⟩, fun i s hr hn => ⟨fun hf he => ?_, fun hf he => ?_, fun hf => ?_⟩,
    fun i s c hr => ?_, fun i s v p hr hp h5 hc hv => ?_⟩
  · rw [exec_resetDrainDone_programme hr hp h5, if_pos ⟨hd, ha⟩]
  · rw [exec_resetDrainDone_programme hr hp h5, if_neg (by rcases h with h | h <;> simp [h])]
  · rw [exec_resetDrainDone_none hr hn, if_pos hf, State.resetFnOnly_eq, if_pos he]
  · rw [exec_resetDrainDone_none hr hn, if_pos hf, State.resetFnOnly_eq, if_neg he]
  · rw [exec_resetDrainDone_none hr hn, if_neg (by simp [hf])]
  · refine Answers.of_exec (exec_oldGenerationMediaEnded hr i) (execOldGenerationMediaEnded_only i s s)
      ⟨?_, fun p hp h5 hc => ?_, fun h => ?_⟩
    · cases (s.getInst i.toNat).reset with
      | none => rfl
      | some p => exact State.mediaEnded_oldOps s _ p
    · have reads := State.getInst_modInst (s := s.dropOldOps i.toNat) c.inst i.toNat (g := fun r => { r with reset := none })
      rw [hp, Option.elim_some, State.mediaEnded, if_neg (by omega), if_neg hc]
      exact ⟨(reads _).trans (if_pos rfl), fun j hj => (reads j).trans (if_neg hj)⟩
    · rcases h with hn | ⟨p, hp, h5⟩
      · rw [hn]
        rfl
      · rw [hp, Option.elim_some, State.mediaEnded, if_pos h5]
        rfl
  · rw [exec_oldGenerationMediaEnded hr, hp, Option.elim_some, State.mediaEnded, if_neg (by omega), if_pos hc, hv]
    rfl

end Sys2Proof.Machine
end

section
/-! SUPPORT. Refusals for a held block (R93, R110): the leaves of the command come in, it completes with a failure, and nothing else of
the store changes. -/

namespace Sys2Proof.Machine

/-! ### A command that brings leaves in and fails -/

/-- The frame of an effect under the setting set of a command is its frame on the block. -/
theorem Only.setBack {l : List StateField} {s t : State} {c : Cmd} (h : Only l (s.setFor c) t) : Only l s (t.setBack s) := fun f hf => by
  cases f with
  | liveSet => rfl
  | _ => exact h _ hf

/-- Bringing leaves in changes neither the generation nor the state of an instance. -/
theorem Brought.gen_state {s t : State} (h : Brought s t) (w : Bank.wf instDef s.inst = true) (j : Nat) :
    (t.getInst j).gen = (s.getInst j).gen ∧ (t.getInst j).state = (s.getInst j).state := by
  obtain ⟨-, others, a, b, pf⟩ := h.inst w
  by_cases hj : j = 0
  · rw [hj, pf]
    exact ⟨rfl, rfl⟩
  · rw [others j hj]
    exact ⟨rfl, rfl⟩

section Refused
variable {s u : State} {c : Cmd} {st res : Nat} (hst : st ≠ 0)
include hst

theorem State.refused_only (fr : Only [.out, .inst, .fss, .mch, .fetches] (s.setFor c) u) :
    Only [.out, .log, .nvm, .nvs, .inst, .fn, .cmds, .due, .fss, .mch, .fetches] s ((u.complete c st res false).setBack s) :=
  Only.setBack (Only.via (State.complete_fail_only u c hst) rfl (Only.mono fr rfl))

variable (b : Brought (s.setFor c) u)
include b

theorem State.refused_fss : ((u.complete c st res false).setBack s).fss = u.fss ∧
    ((u.complete c st res false).setBack s).fss.map = s.fss.map ∧
    ((u.complete c st res false).setBack s).fss.archived = s.fss.archived := by
  have same : ((u.complete c st res false).setBack s).fss = u.fss := (State.complete_fail_only u c hst).at .fss rfl
  rw [same]
  exact ⟨rfl, b.map, b.archived⟩

variable (w : Bank.wf instDef s.inst = true)
include w

theorem State.refused_due (hd : u.due = s.due) (hg : c.gen = (s.getInst c.fn.toNat).gen) :
    ((u.complete c st res false).setBack s).due =
      s.due ++ [⟨c.id, c.fn, c.sq, c.cq, c.sqHead, eRid c.entry, st, false, false, res⟩] := by
  obtain ⟨wu, -⟩ := b.inst w
  obtain ⟨gen, -⟩ := b.gen_state w c.fn.toNat
  exact (State.complete_due wu hst (hg.trans gen.symm)).trans (congrArg (· ++ _) hd)

theorem State.refused_stands : (∀ j, j ≠ c.fn.toNat → j ≠ 0 → ((u.complete c st res false).setBack s).getInst j = s.getInst j) ∧
    ∀ j, (((u.complete c st res false).setBack s).getInst j).state = (s.getInst j).state := by
  obtain ⟨wu, others, -⟩ := b.inst w
  have stands : Stands c.fn.toNat u (u.complete c st res false) := State.complete_stands wu c hst
  exact ⟨fun j hj h0 => (stands.others j hj).trans (others j h0), fun j => (stands.state j).trans (b.gen_state w j).2⟩

end Refused

/-! ### WRITE and DISCARD (R110) -/

/-- The leaves of the blocks of a WRITE or DISCARD are in, under its own setting set. -/
def State.broughtFor (s : State) (c : Cmd) : State := (s.setFor c).touchRun c.fn.toNat (eArg0 c.entry) (eArg1 c.entry)

/-- The command is refused for the held block at index `k` of its run. -/
def State.refuseHeld (s : State) (c : Cmd) (k : Nat) : State := ((s.broughtFor c).complete c stRetention k false).setBack s

theorem State.heldIndex_of_held {u : State} {c : Cmd}
    (h : ∃ k, k < eArg1 c.entry ∧ u.heldBlock c.fn.toNat (eArg0 c.entry + k) c.minHold c.legalHold = true) :
    ∃ k, u.heldIndex c = some k := by
  obtain ⟨k, hk, held⟩ := h
  exact Option.isSome_iff_exists.mp (List.find?_isSome.mpr ⟨k, List.mem_range.mpr hk, held⟩)

theorem exec_discard_held {id : Nat} {s : State} {c : Cmd} {k : Nat} (h : s.Runs id .discard c)
    (hk : (s.broughtFor c).heldIndex c = some k) : exec (.discard id) s = .next (s.refuseHeld c k) := by
  refine congrArg Host.Outcome.next ((withCmd_of h).trans (congrArg (State.setBack · s) ?_))
  unfold State.broughtFor at hk
  dsimp only
  rw [hk]
  rfl

/-- Retention is judged before anything else of a WRITE (R110). -/
theorem State.startWrite_held {s : State} {c : Cmd} {k : Nat}
    (hk : (s.touchRun c.fn.toNat (eArg0 c.entry) (eArg1 c.entry)).heldIndex c = some k) :
    s.startWrite c = (s.touchRun c.fn.toNat (eArg0 c.entry) (eArg1 c.entry)).complete c stRetention k false := by
  unfold State.startWrite
  dsimp only
  rw [hk]

theorem State.underEpoch_startWrite_held {s : State} {c : Cmd} {k : Nat} (hk : (s.broughtFor c).heldIndex c = some k) :
    s.underEpoch c (fun t => t.startWrite c) = s.refuseHeld c k :=
  congrArg (State.setBack · s) (State.startWrite_held hk)

theorem exec_write_of {id : Nat} {s : State} {c : Cmd} (h : s.Runs id .write c) (hq : s.fss.quiesced = false) (mac : MacCheck) :
    exec (.write id mac) s = .next (dramCheck mac s (fun t => t.underEpoch c (fun t => t.startWrite c))) := by
  refine congrArg Host.Outcome.next ((whenServing_of h.serving).trans ?_)
  rw [h.found]
  exact if_pos (by rw [h.op, h.ready, hq]; rfl)

/-- The check of the line that a command touches lets it go on, and `v` is what the check leaves: the line passes when first read, or when
read again, which is counted (R183). -/
def LineLets (mac : MacCheck) (s v : State) : Prop :=
  mac = .good ∧ v = s ∨ ∃ addr first again, mac = .line addr first again ∧ addr.toNat / 64 * 64 / 64 < s.sea.sweepLines ∧
    (s.linePasses (addr.toNat / 64 * 64) first = true ∧ v = s ∨
     s.linePasses (addr.toNat / 64 * 64) first = false ∧ s.linePasses (addr.toNat / 64 * 64) again = true ∧
       v = { s with sea := { s.sea with retryDram := inc16 s.sea.retryDram } })

/-- The check itself changes a count, and the notice of a second read follows the effect. -/
theorem dramCheck_of {mac : MacCheck} {s v : State} (h : LineLets mac s v) (g : State → State) :
    Only [.sea] s v ∧ Only [.out, .log, .nvm, .nvs, .fn] (g v) (dramCheck mac s g) := by
  obtain ⟨rfl, rfl⟩ | ⟨addr, first, again, rfl, hl, h⟩ := h
  · exact ⟨Only.refl _ _, Only.refl _ _⟩
  · have swept : ¬ s.sea.sweepLines ≤ addr.toNat / 64 * 64 / 64 := by omega
    obtain ⟨hf, rfl⟩ | ⟨hf, ha, rfl⟩ := h
    · have readOnce : dramCheck (.line addr first again) v g = g v := (if_neg swept).trans (if_pos hf)
      rw [readOnce]
      exact ⟨Only.refl _ _, Only.refl _ _⟩
    · have readAgain : dramCheck (.line addr first again) s g =
          (g { s with sea := { s.sea with retryDram := inc16 s.sea.retryDram } }).note .lineRetried 0 :=
        (if_neg swept).trans ((if_neg (by simp [hf])).trans (if_pos ha))
      rw [readAgain]
      exact ⟨Only.set_sea _ _, State.note_only _ _ _⟩

/-- What a WRITE or DISCARD refused for a held block leaves (R110): its leaves are in, the map and the archive marks are as they were,
and its completion is due. -/
theorem State.refuseHeld_spec {s : State} (w : Bank.wf instDef s.inst = true) (c : Cmd) (k : Nat) :
    Only [.out, .log, .nvm, .nvs, .inst, .fn, .cmds, .due, .fss, .mch, .fetches] s (s.refuseHeld c k) ∧
    (s.refuseHeld c k).fss = (s.broughtFor c).fss ∧ (s.refuseHeld c k).fss.map = s.fss.map ∧
    (s.refuseHeld c k).fss.archived = s.fss.archived ∧
    (c.gen = (s.getInst c.fn.toNat).gen → (s.refuseHeld c k).due =
      s.due ++ [⟨c.id, c.fn, c.sq, c.cq, c.sqHead, eRid c.entry, stRetention, false, false, k⟩]) := by
  have frame : Only [.out, .inst, .fss, .mch, .fetches] (s.setFor c) (s.broughtFor c) := State.touchRun_only _ _ _ _
  have brought : Brought (s.setFor c) (s.broughtFor c) := State.touchRun_brought _ _ _ _
  have failed : stRetention ≠ 0 := by decide
  obtain ⟨fss, map, archived⟩ := State.refused_fss (res := k) failed brought
  exact ⟨State.refused_only failed frame, fss, map, archived, State.refused_due failed brought w (frame.at .due rfl)⟩

/-- Settles O53: retention is judged first, so the command is refused at the first held block, and a failed completion leaves the store as
the leaves came in; the check of the WRITE's line adds a count and a notice. -/
theorem heldBlocksRefuseWrites : Obligations.HeldBlocksRefuseWrites := by
  unfold Obligations.HeldBlocksRefuseWrites
  refine ⟨fun id s u c canon h hu held => ?_, fun id s u v c mac canon h hq hmac hu held => ?_⟩
  · obtain ⟨k, hk⟩ := State.heldIndex_of_held held
    subst hu
    obtain ⟨frame, spec⟩ := State.refuseHeld_spec canon.inst c k
    exact ⟨k, _, exec_discard_held h hk, spec, Only.mono frame rfl⟩
  · obtain ⟨k, hk⟩ := State.heldIndex_of_held held
    subst hu
    obtain ⟨checked, noticed⟩ := dramCheck_of hmac (fun t => t.underEpoch c (fun t => t.startWrite c))
    rw [State.underEpoch_startWrite_held hk] at noticed
    have table : v.inst = s.inst := checked.at .inst rfl
    obtain ⟨frame, fss, map, archived, due⟩ := State.refuseHeld_spec (s := v) (by rw [table]; exact canon.inst) c k
    have store : v.fss = s.fss := checked.at .fss rfl
    refine ⟨k, _, exec_write_of h hq mac, ?_, Only.via noticed rfl (Only.via frame rfl (Only.mono checked rfl))⟩
    dsimp only
    rw [noticed.at .fss rfl, noticed.at .due rfl, ← store, ← checked.getInst rfl, ← show v.due = s.due from checked.at .due rfl]
    exact ⟨fss, map, archived, due⟩

end Sys2Proof.Machine
end

section
/-! SUPPORT. INSTANCE_REMOVE while a block of its target is held (R92, R93): bringing the leaves of the target in changes neither what it
maps nor its state. -/

namespace Sys2Proof.Machine

theorem State.touchMapped_brought (s : State) (i : Nat) : Brought s (s.touchMapped i) :=
  Brought.forEach (fun k t => t.touchLeaf_brought k) s

theorem State.touchMapped_only (s : State) (i : Nat) : Only [.out, .inst, .fss, .mch, .fetches] s (s.touchMapped i) :=
  Only.forEach (fun k t h => Only.via (State.touchLeaf_only t k) rfl h) (Only.refl _ _)

theorem Brought.mappedBlocks {s t : State} (h : Brought s t) (i : Nat) : t.mappedBlocks i = s.mappedBlocks i := by
  unfold State.mappedBlocks
  rw [h.map]

theorem State.firstHeld_of_held {u : State} {i b : Nat} (hb : b ∈ u.mappedBlocks i)
    (held : u.heldBlock i b (u.getInst i).minHold (u.getInst i).legalHold = true) : ∃ b, u.firstHeld i = some b :=
  Option.isSome_iff_exists.mp (List.find?_isSome.mpr ⟨b, hb, held⟩)

theorem State.firstHeld_eq_none {u : State} {i : Nat} : u.firstHeld i = none ↔
    ∀ b ∈ u.mappedBlocks i, u.heldBlock i b (u.getInst i).minHold (u.getInst i).legalHold = false := by
  simp [State.firstHeld]

/-- Settles O54: with the leaves in, the target maps what it mapped, so a held block refuses the command; a failed completion changes
no instance but the counters of its sender, and the leaves none but the unit sequence of the PF. -/
theorem heldInstanceNotRemoved : Obligations.HeldInstanceNotRemoved := by
  unfold Obligations.HeldInstanceNotRemoved
  intro id s u c i canon h hc hi hu
  have hu : u = (s.setFor c).touchMapped i := hu
  have answer := exec_instanceRemove h hc
  have brought : Brought (s.setFor c) u := hu ▸ State.touchMapped_brought _ i
  have frame : Only [.out, .inst, .fss, .mch, .fetches] (s.setFor c) u := hu ▸ State.touchMapped_only _ i
  have maps : u.mappedBlocks i = s.mappedBlocks i := brought.mappedBlocks i
  rw [← hi, ← hu, State.removeOrRefuse] at answer
  refine ⟨fun ⟨b, hb, held⟩ => ?_, fun none ha => ?_⟩
  · obtain ⟨b, hheld⟩ := State.firstHeld_of_held (maps ▸ hb) held
    rw [hheld, Option.elim_some] at answer
    have failed : stRetention ≠ 0 := by decide
    obtain ⟨fss, map, -⟩ := State.refused_fss (res := b) failed brought
    obtain ⟨others, state⟩ := State.refused_stands (res := b) failed brought canon.inst
    exact ⟨b, _, answer, ⟨fss, map, others, state i, State.refused_due failed brought canon.inst (frame.at .due rfl)⟩,
      State.refused_only failed frame⟩
  · have active : (u.getInst i).state = .active := (brought.gen_state canon.inst i).2.trans ha
    rw [answer, State.firstHeld_eq_none.mpr (maps ▸ none), Option.elim_none, if_pos active]

end Sys2Proof.Machine
end

section
/-! SUPPORT. Rings, doorbells, commands and the task port (spec/04): the statements O12, O13, O14, O22, O23 and O24. Their proofs are short
and elaborated one after the other, which keeps the memory that the whole text takes lower. -/

set_option Elab.async false

section
/-! SUPPORT. Enabling, disabling and waking rings (R128 to R131, R137, R138): what each write does once its BAR0 is open. -/

namespace Sys2Proof.Machine

/-- The context of a ring starts empty; that of a CQ with phase 1 (R128). -/
def State.emptyRing (s : State) (f : Nat) (cq : Bool) (i : Nat) : State :=
  if cq then s.modCq f i (fun _ => ⟨0, true, 0, 0, 0⟩) else s.modSq f i (fun _ => ⟨0, 0, 0, 0, false⟩)

/-- A ring whose stored word breaks no condition is enabled, and its function fetches soon (R128, R133). -/
def State.startRing (u : State) (f : Nat) (cq : Bool) (i : Nat) : State :=
  ((((u.setReg (cfgKey f cq i) (setFld (u.reg (cfgKey f cq i)) 0 1 1)).emptyRing f cq i).wakeFn f).fetchSoon f).pump

/-- A ring is refused with error `e` (R129). -/
def State.refuseRing (u : State) (f : Func) (cq : Bool) (i e : Nat) : State :=
  (u.setRingErr f.toNat cq i e).logEv .ringRefused (some f) (e + 16 * i + 256 * b2n cq)

section Open
variable {f : Func} {s : State} (ho : s.barOpen f.toNat = true) (hr : s.inReset f.toNat = false)
include ho hr

theorem exec_ringEnable_enabled {cq : Bool} {i : Fin 4} (he : bitN (s.reg (cfgKey f.toNat cq i.val)).toNat 0 = true) (v : Word) :
    exec (.ringEnable f cq i v) s = .next (s.noteRsv (cfgKey f.toNat cq i.val) v) :=
  congrArg Host.Outcome.next ((hostBar0_of ho hr).trans (if_pos he))

theorem exec_ringEnable_stopped {cq : Bool} {i : Fin 4} (he : bitN (s.reg (cfgKey f.toNat cq i.val)).toNat 0 = false) {v : Word}
    {u : State} (hu : u = s.storeReg (cfgKey f.toNat cq i.val) (setFld v 0 1 0)) : exec (.ringEnable f cq i v) s = .next
      ((u.enableErr f.toNat cq i.val (u.reg (cfgKey f.toNat cq i.val))).elim (u.startRing f.toNat cq i.val)
        (u.refuseRing f cq i.val)) := by
  refine congrArg Host.Outcome.next ((hostBar0_of ho hr).trans ((if_neg (by rw [he]; exact Bool.false_ne_true)).trans ?_))
  dsimp only
  rw [← hu]
  cases u.enableErr f.toNat cq i.val (u.reg (cfgKey f.toNat cq i.val)) <;> rfl

theorem exec_ringDisable_stopped {cq : Bool} {i : Fin 4} (he : bitN (s.reg (cfgKey f.toNat cq i.val)).toNat 0 = false) (v : Word) :
    exec (.ringDisable f cq i v) s = .next (s.storeReg (cfgKey f.toNat cq i.val) (setFld v 0 1 0)) :=
  congrArg Host.Outcome.next ((hostBar0_of ho hr).trans (if_neg (by rw [he]; exact Bool.false_ne_true)))

theorem exec_ringDisable_enabled {cq : Bool} {i : Fin 4} (he : bitN (s.reg (cfgKey f.toNat cq i.val)).toNat 0 = true) {v : Word}
    {u : State} (hu : u = s.noteRsv (cfgKey f.toNat cq i.val) v) : exec (.ringDisable f cq i v) s = .next
      (if cq && u.cqNeeded f.toNat i.val then u.refuseRing f true i.val 7
       else if cq then u.cqOff f.toNat i.val else u.sqOff f.toNat i.val) := by
  subst hu
  exact congrArg Host.Outcome.next ((hostBar0_of ho hr).trans (if_pos he))

theorem exec_wake_of : exec (.wake f) s = .next (if (s.getFn f.toNat).db.asleep then (s.wakeFn f.toNat).pump
    else s.modFn f.toNat (fun n => { n with spurious := inc16 n.spurious })) :=
  congrArg Host.Outcome.next (hostBar0_of ho hr)

end Open

/-- The word that DB_EN_WRITE stores: db_en is held while a ring of the function is enabled (R131). -/
def State.dbEnWord (s : State) (f : Nat) (v : Word) : Word := if s.anyRing f then setFld v 0 1 (fld (s.reg (Reg.F_RNG_CTL f)) 0 1) else v

/-- What follows the stored word: the function wakes, and fetches soon where db_en was set just now (R133, R138). -/
def State.dbEnEffect (t : State) (f : Nat) (was : Bool) : State :=
  (if !was && (t.wakeFn f).dbEn f then (t.wakeFn f).fetchSoon f else t.wakeFn f).pump

theorem State.dbEnEffect_regs (t : State) (f : Nat) (was : Bool) : (t.dbEnEffect f was).regs = t.regs := by
  have woken : Only [.out, .link, .fn, .reads, .nextTag, .lastFn, .mch] t (t.dbEnEffect f was) :=
    Only.via (State.pump_only _) rfl (Only.ite
      (fun _ => Only.via (State.fetchSoon_only _ _) rfl (Only.mono (State.wakeFn_only t f) rfl))
      (fun _ => Only.mono (State.wakeFn_only t f) rfl))
  exact woken.at .regs rfl

theorem exec_dbEnWrite_of {f : Func} {s : State} (ho : s.barOpen f.toNat = true) (hr : s.inReset f.toNat = false) (v : Word) :
    exec (.dbEnWrite f v) s = .next ((s.storeReg (Reg.F_RNG_CTL f.toNat) (s.dbEnWord f.toNat v)).dbEnEffect f.toNat
      (bitN (s.reg (Reg.F_RNG_CTL f.toNat)).toNat 0)) :=
  congrArg Host.Outcome.next (hostBar0_of ho hr)

/-- Settles O12: an open BAR0 lets each write through to its branches; waking and fetching soon leave the registers as stored. -/
theorem ringControl : Obligations.RingControl := by
  unfold Obligations.RingControl
  refine ⟨fun f cq i v s ho hr => ⟨fun he => exec_ringEnable_enabled ho hr he v, fun he u w hu hw => ?_⟩,
    fun f cq i v s u ho hr hu => ⟨fun he => exec_ringDisable_stopped ho hr he v, fun he hcq hn => ?_, fun he hn => ?_⟩,
    fun f v s ho hr => ?_, fun f s ho hr => ⟨fun ha => ?_, fun ha => ?_⟩⟩
  · have answer := exec_ringEnable_stopped ho hr he hu
    subst hw
    refine ⟨fun e herr => ?_, fun herr x hx => ?_⟩
    · rw [answer, herr, Option.elim_some]
      rfl
    · rw [answer, herr, Option.elim_none, hx]
      rfl
  · subst hcq
    rw [exec_ringDisable_enabled ho hr he hu, if_pos (by rw [hn]; rfl)]
    rfl
  · rw [exec_ringDisable_enabled ho hr he hu, if_neg (by rcases hn with h | h <;> simp [h])]
    cases cq <;> rfl
  · exact Answers.of_exec (exec_dbEnWrite_of ho hr v) (execDbEnWrite_only f v s s) (State.dbEnEffect_regs _ _ _)
  · rw [exec_wake_of ho hr, if_pos ha]
  · rw [exec_wake_of ho hr, if_neg (by rw [ha]; exact Bool.false_ne_true)]

end Sys2Proof.Machine
end

section
/-! SUPPORT. Doorbell fetches, accepted entries and started commands (R133, R136, R147, R154, R155, R158). -/

namespace Sys2Proof.Machine

/-- An event without effect changes nothing, whether or not the block serves commands. -/
theorem whenServing_same {s : State} {g : State → State} (h : g s = s) : whenServing s g = s := by
  unfold whenServing
  rw [h, ite_self]

theorem exec_doorbellFetch_polls {f : Func} {s : State} (hs : s.serving = true) (he : s.dbEn f.toNat = true)
    (hc : s.canRead f.toNat = true) (hd : (s.getFn f.toNat).db.asleep = false ∨ (s.getFn f.toNat).db.extra = true) :
    exec (.doorbellFetch f) s = .next ((if (s.retryEntries f.toNat).fetching f.toNat then s.retryEntries f.toNat
      else (s.retryEntries f.toNat).issueFetch f.toNat).pump) :=
  congrArg Host.Outcome.next ((whenServing_of hs).trans (if_pos (by simp [he, hc, hd])))

theorem exec_doorbellFetch_stays {f : Func} {s : State} (h : s.dbEn f.toNat = false ∨ s.canRead f.toNat = false) :
    exec (.doorbellFetch f) s = .next s :=
  congrArg Host.Outcome.next (whenServing_same (if_neg (by rcases h with h | h <;> simp [h])))

theorem State.takeEntry_of {u : State} {f : Func} {i : Nat} (hq : u.sqOn f.toNat i = true) (ha : (u.getInst f.toNat).state = .active)
    (entry : List Byte) {h : Nat} (hh : h = ((u.sq f.toNat i).head + 1) % u.sqSize f.toNat i) : u.takeEntry f i entry =
      ((((u.modSq f.toNat i (fun q => { q with head := h, fails := 0, hold := false })).modFn f.toNat (fun x => x.taken i)).accept f
        (some i) h (padTo 64 entry)).pump) := by
  subst hh
  exact if_pos (by simp [hq, ha])

theorem exec_commandStart_of {id : Nat} {s : State} {c : Cmd} (hs : s.serving = true) (hf : s.findCmd id = some c)
    (hc : s.canStart c = true) : exec (.commandStart id) s = .next ((s.setCmd { c with stage := .started }).pump) := by
  refine congrArg Host.Outcome.next ((whenServing_of hs).trans ?_)
  rw [hf]
  exact if_pos hc

/-- Settles O13: each event is one guard; letting the entry fetches be tried again changes no outstanding read. -/
theorem fetchesAndAcceptance : Obligations.FetchesAndAcceptance := by
  unfold Obligations.FetchesAndAcceptance
  refine ⟨fun f s u hs he hc hd hu => ?_, fun f s h => exec_doorbellFetch_stays h, fun f data s hs hf => ?_, fun f data s hf => ?_,
    fun f i entry s u hs hr hu hq ha h hh => ?_, fun f i entry s hr => ?_, fun id s c hs hf hc => exec_commandStart_of hs hf hc,
    fun id s hn => ?_⟩
  · have polls := exec_doorbellFetch_polls hs he hc hd
    have outstanding : (s.retryEntries f.toNat).fetching f.toNat = s.fetching f.toNat := rfl
    rw [outstanding] at polls
    subst hu
    refine ⟨fun hf => ?_, fun hf => ?_⟩
    · rw [polls, hf, if_neg Bool.false_ne_true]
      rfl
    · rw [polls, if_pos hf]
      rfl
  · exact congrArg Host.Outcome.next ((whenServing_of hs).trans (if_pos hf))
  · exact congrArg Host.Outcome.next (whenServing_same (if_neg (by rw [hf]; exact Bool.false_ne_true)))
  · rw [← State.takeEntry_of hq ha entry hh, hu]
    exact congrArg Host.Outcome.next ((whenServing_of hs).trans (if_pos hr))
  · exact congrArg Host.Outcome.next (whenServing_same (if_neg (by rw [hr]; exact Bool.false_ne_true)))
  · exact congrArg Host.Outcome.next (whenServing_same (by rw [hn]))

end Sys2Proof.Machine
end

section
/-! SUPPORT. Completion entries, coalescing and the task port (R156, R157, R164, R165, R167). -/

namespace Sys2Proof.Machine

/-- The oldest completion due of its CQ, where its function may write, is written, waits or is discarded (R156, R167). -/
theorem exec_completionWrite_of {id : Nat} {s : State} {d : Due} (hs : s.serving = true)
    (hd : s.due.find? (fun d => d.cmd = id) = some d) (hq : d.sq.isSome = true) (hw : s.canWrite d.fn.toNat = true)
    (hfirst : s.firstDueOf d.fn.toNat d.cq = some d) : exec (.completionWrite id) s = .next
      (if !s.cqOn d.fn.toNat d.cq then (s.discardDue d).pump
       else if s.cqFull d.fn.toNat d.cq then s else (s.writeCq d).pump) := by
  refine congrArg Host.Outcome.next ((whenServing_of hs).trans ?_)
  rw [hd]
  have oldest : ¬ (d.sq.isNone || !s.canWrite d.fn.toNat || decide (s.firstDueOf d.fn.toNat d.cq ≠ some d)) = true := by
    simp [hw, hfirst, Option.isSome_iff_ne_none.mp hq]
  exact if_neg oldest

theorem exec_goTask_of {f : Func} {v : Word} {s : State} (ho : s.barOpen f.toNat = true) (hr : s.inReset f.toNat = false)
    (hv : fld v 0 1 = 1) : exec (.goTask f v) s = .next
      (if (s.getFn f.toNat).tskBusy || (decide (f.toNat ≠ 0) && decide (fldN (s.limits f.toNat) 12 1 = 0)) then
        s.accError f.toNat 0 0x2040
       else ((s.modFn f.toNat (fun x => { x with tskBusy := true, tskDone := false })).accept f none 0
        ((s.modFn f.toNat (fun x => { x with tskBusy := true, tskDone := false })).taskImage f.toNat)).pump) :=
  congrArg Host.Outcome.next ((hostBar0_of ho hr).trans (if_neg (by rw [hv]; decide)))

/-- The completion `d` is shown on the task port of its function, which is idle again (R164). -/
def State.showTask (s : State) (d : Due) : State :=
  ((s.modFn d.fn.toNat (fun n => { n with tskBusy := false, tskDone := true, tskCpl := cplWords (d.bytes false) })).modDb
    d.fn.toNat (fun x => { x with lastWork := s.tm.mono })).settleDue d

theorem exec_taskPortCompletion_of {id : Nat} {s : State} {d : Due} (hs : s.serving = true)
    (hd : s.due.find? (fun d => d.cmd = id) = some d) (hq : d.sq = none) : exec (.taskPortCompletion id) s = .next
      (if bitN ((s.showTask d).reg (Reg.F_TSK_CTL d.fn.toNat)).toNat 0 then (s.showTask d).raise d.fn.toNat 0
       else s.showTask d).pump := by
  refine congrArg Host.Outcome.next ((whenServing_of hs).trans ?_)
  rw [hd]
  exact if_neg (by rw [hq]; exact Bool.false_ne_true)

/-- Settles O14: the guards of a completion, of a vector and of the task port, branch by branch. -/
theorem completionsAndTaskPort : Obligations.CompletionsAndTaskPort := by
  unfold Obligations.CompletionsAndTaskPort
  refine ⟨fun id s d hs hd hq hw hfirst => ⟨fun hon hroom => ?_, fun hon hfull => ?_, fun hoff => ?_⟩,
    fun f j s hs hon hcount htime hun => ?_, fun f j s hun => ?_, fun f v s ho hr hv => ⟨fun hidle hport => ?_, fun hbusy => ?_⟩,
    fun id s d hs hd hq u hu => ?_, fun id s hn => ⟨?_, ?_⟩⟩
  · rw [exec_completionWrite_of hs hd hq hw hfirst, if_neg (by simp [hon]), if_neg (by simp [hroom])]
  · rw [exec_completionWrite_of hs hd hq hw hfirst, if_neg (by simp [hon]), if_pos hfull]
  · rw [exec_completionWrite_of hs hd hq hw hfirst, if_pos (by simp [hoff])]
  · exact congrArg Host.Outcome.next ((whenServing_of hs).trans (if_pos (by simp [hon, hcount, htime, hun])))
  · exact congrArg Host.Outcome.next (whenServing_same (if_neg (by simp [hun])))
  · have port : (decide (f.toNat ≠ 0) && decide (fldN (s.limits f.toNat) 12 1 = 0)) = false := by
      rcases hport with rfl | hport
      · rfl
      · simp [hport]
    rw [exec_goTask_of ho hr hv, if_neg (by rw [hidle, port]; decide)]
  · rw [exec_goTask_of ho hr hv, if_pos (by rw [hbusy]; rfl)]
  · subst hu
    exact exec_taskPortCompletion_of hs hd hq
  · exact congrArg Host.Outcome.next (whenServing_same (by rw [hn]))
  · exact congrArg Host.Outcome.next (whenServing_same (by rw [hn]))

end Sys2Proof.Machine
end

section
/-! SUPPORT. READ, the retry of a leaf fetch and the ends of host reads (R53, R149, R220), and the four outcomes of the check of a DRAM
line (R183, R200). -/

namespace Sys2Proof.Machine

/-! ### The check of a DRAM line -/

/-- The block once it has counted a line that passed when read again (R183). -/
def State.countRetry (s : State) : State := { s with sea := { s.sea with retryDram := inc16 s.sea.retryDram } }

section Line
variable {s : State} {g : State → State} {addr : BitVec 40} {first again : List Byte}

theorem dramCheck_waits (hl : s.sea.sweepLines ≤ addr.toNat / 64 * 64 / 64) : dramCheck (.line addr first again) s g = s := if_pos hl

variable (hl : addr.toNat / 64 * 64 / 64 < s.sea.sweepLines)
include hl

theorem dramCheck_passes (hf : s.linePasses (addr.toNat / 64 * 64) first = true) : dramCheck (.line addr first again) s g = g s :=
  (if_neg (Nat.not_le.mpr hl)).trans (if_pos hf)

theorem dramCheck_unread (hf : s.linePasses (addr.toNat / 64 * 64) first = false) : dramCheck (.line addr first again) s g =
    if s.linePasses (addr.toNat / 64 * 64) again then (g s.countRetry).note .lineRetried 0
    else s.haltBy (.dramMac (BitVec.ofNat 40 (addr.toNat / 64 * 64))) :=
  (if_neg (Nat.not_le.mpr hl)).trans (if_neg (by rw [hf]; exact Bool.false_ne_true))

theorem dramCheck_retried (hf : s.linePasses (addr.toNat / 64 * 64) first = false)
    (ha : s.linePasses (addr.toNat / 64 * 64) again = true) :
    dramCheck (.line addr first again) s g = (g s.countRetry).note .lineRetried 0 := by
  rw [dramCheck_unread hl hf, if_pos ha]

theorem dramCheck_halts (hf : s.linePasses (addr.toNat / 64 * 64) first = false)
    (ha : s.linePasses (addr.toNat / 64 * 64) again = false) :
    dramCheck (.line addr first again) s g = s.haltBy (.dramMac (BitVec.ofNat 40 (addr.toNat / 64 * 64))) := by
  rw [dramCheck_unread hl hf, ha, if_neg Bool.false_ne_true]

end Line

/-! ### READ and the retry of a leaf fetch -/

/-- The lookups of the blocks of READ `id`, and the blocks as they stand after them (R149). -/
def State.startRead (s : State) (id : Nat) (bad : List Nat) (c : Cmd) : State :=
  let p := State.lookupRun c.fn.toNat id bad (eArg1 c.entry) (eArg0 c.entry) s
  let d := { c with stage := .media, placed := p.1 }
  ((p.2.setCmd d).endRead d).pump

theorem exec_read_of {id : Nat} {s : State} {c : Cmd} (h : s.Runs id .read c) (mac : MacCheck) (bad : List Nat) :
    exec (.read id mac bad) s = .next (dramCheck mac s (fun t => t.underEpoch c (fun t => t.startRead id bad c))) := by
  refine congrArg Host.Outcome.next ((whenServing_of h.serving).trans ?_)
  rw [h.found]
  exact (if_neg (not_not_intro h.op)).trans (if_pos h.ready)

/-- A READ on its way to the media is not waiting to be executed. -/
theorem Cmd.not_ready_of_media {c : Cmd} (h : c.stage = .media) : c.ready = false := by simp [Cmd.ready, h]

theorem exec_read_media {id : Nat} {s : State} {c : Cmd} (hs : s.serving = true) (hf : s.findCmd id = some c)
    (hop : eOp c.entry = some .read) (hm : c.stage = .media) (mac : MacCheck) (bad : List Nat) :
    exec (.read id mac bad) s = .next (s.endRead c) := by
  refine congrArg Host.Outcome.next ((whenServing_of hs).trans ?_)
  rw [hf]
  exact (if_neg (not_not_intro hop)).trans ((if_neg (by simp [Cmd.not_ready_of_media hm])).trans (if_pos hm))

theorem exec_read_other {id : Nat} {s : State} (h : s.findCmd id = none ∨ ∃ c, s.findCmd id = some c ∧ eOp c.entry ≠ some .read)
    (mac : MacCheck) (bad : List Nat) : exec (.read id mac bad) s = .next s := by
  refine congrArg Host.Outcome.next (whenServing_same ?_)
  rcases h with hn | ⟨c, hf, hop⟩
  · rw [hn]
  · rw [hf]
    exact if_pos hop

theorem exec_leafFetchRetry_of {line : Nat} {s : State} {l : LeafFetch} (hs : s.serving = true)
    (hl : s.fetches.find? (fun l => l.line = line) = some l) : exec (.leafFetchRetry line) s = .next
      (if l.failed then (s.setFetch { l with failed := false }).pump
       else if l.passed && !s.fillWaits (l.line * 64) then (s.linePassed { l with passed := false } []).pump else s) := by
  refine congrArg Host.Outcome.next ((whenServing_of hs).trans ?_)
  rw [hl]

/-! ### The ends of host reads -/

theorem exec_hostReadCompletion_of {tag : Nat} {s : State} {r : DmaRead} (hs : s.serving = true) (hr : s.findRead tag = some r)
    (data : List Byte) (bad : List Nat) :
    exec (.hostReadCompletion tag data bad) s = .next ((s.dropRead tag).readData r data bad) := by
  refine congrArg Host.Outcome.next ((whenServing_of hs).trans ?_)
  rw [hr]

theorem exec_hostReadErrorCompletion_of {tag : Nat} {s : State} {r : DmaRead} (hs : s.serving = true) (hr : s.findRead tag = some r)
    (why : ReadFail) :
    exec (.hostReadErrorCompletion tag why) s = .next (((s.dropRead tag).countReadFail r why).readFail r).pump := by
  refine congrArg Host.Outcome.next ((whenServing_of hs).trans ?_)
  rw [hr]

/-- A read that timed out is counted and logged and fails (R53). -/
def State.readTimedOut (u : State) (r : DmaRead) : State :=
  ((({ u with link := { u.link with cplTimeout := inc16 u.link.cplTimeout } } : State).logEv .readTimeout (some r.fn) r.addr).readFail
    r).pump

theorem exec_completionTimeout_of {tag : Nat} {s : State} {r : DmaRead} (hs : s.serving = true) (hr : s.findRead tag = some r) :
    exec (.completionTimeout tag) s = .next (if (s.getFn r.fn.toNat).cfg.ctoDis then s
      else ((s.dropRead tag).aerReport r.fn 14).readTimedOut r) := by
  refine congrArg Host.Outcome.next ((whenServing_of hs).trans ?_)
  rw [hr]
  rfl

/-- Settles O22: a READ goes on under the check of its line, whose outcomes are those of `dramCheck`; each other command is one look-up
and the branches of what it finds. -/
theorem readCommandAndHostReads : Obligations.ReadCommandAndHostReads := by
  unfold Obligations.ReadCommandAndHostReads
  refine ⟨⟨fun id bad s c h => ⟨fun l u hl d hd => ?_, fun addr first again a ha => ?_⟩, fun id mac bad s c hs hf hop hm => ?_,
      fun id mac bad s h => ?_, fun line s l hs hl => ?_, fun line s hn => ?_⟩,
    fun tag data bad s r hs hr => ?_, fun tag why s r hs hr => ?_, fun tag s r hs hr => ⟨fun hd => ?_, fun hd u hu => ?_⟩,
    fun tag s hn => ⟨fun data bad => ?_, fun why => ?_, ?_⟩⟩
  · have started : (s.setFor c).startRead id bad c = ((u.setCmd d).endRead d).pump := by
      unfold State.startRead
      rw [hl, hd]
    exact (exec_read_of h .good bad).trans (congrArg (fun t => Host.Outcome.next (t.setBack s)) started)
  · subst ha
    have counted : s.countRetry.Runs id .read c := ⟨h.serving, h.found, h.ready, h.op⟩
    have answer := exec_read_of h (.line addr first again) bad
    refine ⟨fun hl => ?_, fun hl hp => ?_, fun hl hp hagain => ?_, fun hl hp hagain => ?_⟩
    · rw [answer, dramCheck_waits hl]
    · rw [answer, dramCheck_passes hl hp]
      exact (exec_read_of h .good bad).symm
    · exact ⟨_, exec_read_of counted .good bad, answer.trans (congrArg _ (dramCheck_retried hl hp hagain))⟩
    · rw [answer, dramCheck_halts hl hp hagain]
  · exact exec_read_media hs hf hop hm mac bad
  · exact exec_read_other h mac bad
  · have answer := exec_leafFetchRetry_of hs hl
    refine ⟨fun hf => ?_, fun hf hp hw => ?_, fun hf h => ?_⟩
    · rw [answer, if_pos hf]
    · rw [answer, if_neg (by simp [hf]), if_pos (by simp [hp, hw])]
    · rw [answer, if_neg (by simp [hf]), if_neg (by rcases h with h | h <;> simp [h])]
  · exact congrArg Host.Outcome.next (whenServing_same (by rw [hn]))
  · exact exec_hostReadCompletion_of hs hr data bad
  · exact exec_hostReadErrorCompletion_of hs hr why
  · rw [exec_completionTimeout_of hs hr, if_pos hd]
  · rw [exec_completionTimeout_of hs hr, if_neg (by simp [hd]), hu]
    rfl
  · exact congrArg Host.Outcome.next (whenServing_same (by rw [hn]))
  · exact congrArg Host.Outcome.next (whenServing_same (by rw [hn]))
  · exact congrArg Host.Outcome.next (whenServing_same (by rw [hn]))

end Sys2Proof.Machine
end

section
/-! SUPPORT. WRITE and its wait for space (R149, R183, R223, R245): what a WRITE makes of a run whose leaves are in. -/

namespace Sys2Proof.Machine

/-- A WRITE has no room: a band or a sequence number is missing (R191, R237). -/
def State.noRoom (u : State) (c : Cmd) : Prop :=
  u.freeBands < 3 ∨ (u.getInst c.fn.toNat).unitDur < (u.getInst c.fn.toNat).unitSeq + eArg1 c.entry

/-- The units of a WRITE are sealed, where there are pages for them (R223). -/
def State.sealUnits (u : State) (c : Cmd) : Option (List (Nat × Nat × Nat) × State) :=
  sealRun c ((u.getInst c.fn.toNat).keySerial.getD 0) (eArg1 c.entry) 0 (eArg1 c.entry) 0 c.data u

/-- A WRITE over no held block waits for space, or waits for the pages of its sealed units. -/
theorem State.startWrite_free {s u : State} {c : Cmd} (hu : s.touchRun c.fn.toNat (eArg0 c.entry) (eArg1 c.entry) = u)
    (hk : u.heldIndex c = none) : (u.noRoom c → s.startWrite c = u.waitSpace c) ∧
    (¬ u.noRoom c → s.startWrite c =
      (u.sealUnits c).elim (u.waitSpace c) (fun p => p.2.setCmd { c with stage := .media, placed := p.1 })) := by
  unfold State.startWrite
  rw [hu]
  dsimp only
  rw [hk]
  refine ⟨fun hn => if_pos hn, fun hn => (if_neg hn).trans ?_⟩
  unfold State.sealUnits
  cases sealRun c ((u.getInst c.fn.toNat).keySerial.getD 0) (eArg1 c.entry) 0 (eArg1 c.entry) 0 c.data u <;> rfl

/-- WRITE `id` is served: it is ready or waits for space, and the store is not quiesced. -/
structure State.Writes (s : State) (id : Nat) (c : Cmd) : Prop where
  serving : s.serving = true
  found : s.findCmd id = some c
  op : eOp c.entry = some .write
  stage : c.ready = true ∨ c.stage = .space
  live : s.fss.quiesced = false

theorem exec_write_served {id : Nat} {s : State} {c : Cmd} (h : s.Writes id c) (mac : MacCheck) :
    exec (.write id mac) s = .next (dramCheck mac s (fun t => t.underEpoch c (fun t => t.startWrite c))) := by
  refine congrArg Host.Outcome.next ((whenServing_of h.serving).trans ?_)
  rw [h.found]
  exact if_pos (by simp [h.op, h.stage, h.live])

/-- A WRITE whose line passes does to the block what it does under its own setting set. -/
theorem exec_write_good {id : Nat} {s t : State} {c : Cmd} (h : s.Writes id c) (ht : (s.setFor c).startWrite c = t) :
    exec (.write id .good) s = .next (t.setBack s) :=
  ht ▸ exec_write_served h .good

theorem exec_write_stays {id : Nat} {s : State} (h : s.fss.quiesced = true ∨ s.findCmd id = none) (mac : MacCheck) :
    exec (.write id mac) s = .next s := by
  refine congrArg Host.Outcome.next (whenServing_same ?_)
  cases hf : s.findCmd id with
  | none => rfl
  | some c =>
    have quiesced : s.fss.quiesced = true := by simpa [hf] using h
    exact if_neg (by simp [quiesced])

theorem exec_writeSpaceWaitTimeout_of {id : Nat} {s : State} {c : Cmd} (hs : s.serving = true) (hf : s.findCmd id = some c) :
    exec (.writeSpaceWaitTimeout id) s = .next (if c.stage = .space ∧ c.since + 10000 ≤ s.tm.mono then
      (s.complete c stBusy 0 false).logEv .spaceTimeout (some c.fn) 0 else s) := by
  refine congrArg Host.Outcome.next ((whenServing_of hs).trans ?_)
  rw [hf]

/-- Settles O23: a WRITE goes on under the check of its line; retention is judged first, then room, then pages. -/
theorem writeCommand : Obligations.WriteCommand := by
  unfold Obligations.WriteCommand
  refine ⟨fun id s u c r hs hf hop hst hq hu hr => ?_, fun id mac s h => exec_write_stays h mac,
    fun id s c hs hf => ⟨fun hsp ht => ?_, fun h => ?_⟩⟩
  · have runs : s.Writes id c := ⟨hs, hf, hop, hst, hq⟩
    have counted : s.countRetry.Writes id c := ⟨hs, hf, hop, hst, hq⟩
    subst hr
    refine ⟨fun k hk => ?_, fun hk hn => ?_, fun l v hk hb hd hv => ?_, fun hk hb hd hv => ?_, fun addr first again a ha hl => ?_,
      fun addr first again a ha hl => ⟨fun hp hagain => ?_, fun hp => ?_, fun hp hagain => ?_⟩⟩
    · rw [hu] at hk ⊢
      exact exec_write_good runs (State.startWrite_held hk)
    · exact exec_write_good runs ((State.startWrite_free hu.symm hk).1 hn)
    · have pages := (State.startWrite_free hu.symm hk).2 (by unfold State.noRoom; omega)
      rw [State.sealUnits, hv, Option.elim_some] at pages
      exact exec_write_good runs pages
    · have pages := (State.startWrite_free hu.symm hk).2 (by unfold State.noRoom; omega)
      rw [State.sealUnits, hv, Option.elim_none] at pages
      exact exec_write_good runs pages
    · subst ha
      rw [exec_write_served runs, dramCheck_waits hl]
    · subst ha
      exact ⟨_, exec_write_served counted .good, (exec_write_served runs _).trans (congrArg _ (dramCheck_retried hl hp hagain))⟩
    · subst ha
      rw [exec_write_served runs, dramCheck_passes hl hp]
      exact (exec_write_served runs .good).symm
    · subst ha
      rw [exec_write_served runs, dramCheck_halts hl hp hagain]
  · rw [exec_writeSpaceWaitTimeout_of hs hf, if_pos ⟨hsp, ht⟩]
  · rw [exec_writeSpaceWaitTimeout_of hs hf, if_neg (fun ⟨hsp, ht⟩ => by rcases h with h | h; exacts [h hsp, by omega])]

end Sys2Proof.Machine
end

section
/-! SUPPORT. DISCARD, FLUSH, GET_LOG and GET_USAGE (R123, R144, R150, R246). -/

namespace Sys2Proof.Machine

/-- The blocks `l` of an instance become Empty in one step, and the change is journaled (R246). -/
def State.emptyRun (u : State) (c : Cmd) (l : List Nat) : State :=
  let w := forEach l (fun b t => t.mapPut c.fn.toNat b puaEmpty) u
  w.jUpdate (.discard c.fn.toNat (eArg0 c.entry) (eArg1 c.entry) (w.getInst c.fn.toNat).unitSeq)

/-- The units that a DISCARD of the blocks `l` frees at once: those of no pinned run (R246). -/
def State.freedAtOnce (u : State) (i : Nat) (l : List Nat) : Nat := (l.filter (fun b => isReal (u.mapGet i b) && !u.pinned i b)).length

theorem exec_discard_free {id : Nat} {s : State} {c : Cmd} (h : s.Runs id .discard c) (hk : (s.broughtFor c).heldIndex c = none)
    {l : List Nat} (hl : l = (s.broughtFor c).mappedRun c.fn.toNat (eArg0 c.entry) (eArg1 c.entry)) : exec (.discard id) s =
      .next ((((((s.broughtFor c).emptyRun c l).dropEmptyLeaves c.fn.toNat).refreshUsed c.fn.toNat).complete c stSuccess
        ((s.broughtFor c).freedAtOnce c.fn.toNat l) false).setBack s) := by
  refine congrArg Host.Outcome.next ((withCmd_of h).trans (congrArg (State.setBack · s) ?_))
  subst hl
  unfold State.broughtFor at hk
  dsimp only
  rw [hk]
  rfl

theorem exec_flush_of {id : Nat} {s : State} {c : Cmd} (h : s.Runs id .flush c) : exec (.flush id) s = .next
    ((if (earlier c.id s.cmds).any (fun a => decide (a.fn = c.fn ∧ a.stage ≠ .due)) then s.setFor c
      else (s.setFor c).completeFlushed c 0).setBack s) :=
  congrArg Host.Outcome.next (withCmd_of h)

/-- Settles O24: each command is served under its own setting set; a FLUSH touches the commands alone. -/
theorem discardFlushAndReports : Obligations.DiscardFlushAndReports := by
  unfold Obligations.DiscardFlushAndReports
  refine ⟨⟨fun id s u c i l h hi hu hl => ⟨fun k hk => ?_, fun hk w x hw hx => ?_⟩, fun id s c h => ⟨fun hb => ?_, fun hb => ?_⟩,
      fun id s hn => ⟨?_, ?_⟩⟩,
    fun id s c q r h hq hr => ?_, fun id s c i l h hi hl => ?_, fun id s hn => ⟨?_, ?_⟩⟩
  · subst hi hu
    exact exec_discard_held h hk
  · subst hi hu hw hx
    exact exec_discard_free h hk hl
  · rw [exec_flush_of h, if_pos hb]
    rfl
  · have waits := exec_flush_of h
    rw [hb, if_neg Bool.false_ne_true] at waits
    exact Answers.of_exec waits (execFlush_only id s s) rfl
  · exact congrArg Host.Outcome.next (withCmd_of_none hn)
  · exact congrArg Host.Outcome.next (withCmd_of_none hn)
  · subst hq hr
    exact congrArg Host.Outcome.next (withCmd_of h)
  · subst hi hl
    exact congrArg Host.Outcome.next (withCmd_of h)
  · exact congrArg Host.Outcome.next (withCmd_of_none hn)
  · exact congrArg Host.Outcome.next (withCmd_of_none hn)

end Sys2Proof.Machine
end

end

section
/-! SUPPORT. The sealing boundary (R176, R202, R204, R208): INSTANCE_START while key generation is stopped, the self-tests, the random bit
generator and the quarantine list, one equation per branch of each event. -/

namespace Sys2Proof.Machine

@[simp] theorem State.note_sea (s : State) (ev : Ev) (arg : Nat) : (s.note ev arg).sea = s.sea := (State.note_only s ev arg).at .sea rfl

/-! ### INSTANCE_START without entropy (R208) -/

theorem exec_instanceStart_busy {id : Nat} {s : State} {c : Cmd} (h : s.Runs id .start c)
    (hc : (s.setFor c).checkState .start c.fn.toNat c.entry = none) (hr : s.sea.rngOk = false)
    (hd : s.sea.rngDown + 100 ≤ s.tm.mono) :
    exec (.instanceStart id) s = .next (((s.setFor c).complete c stBusy 0 false).setBack s) := by
  rw [exec_instanceStart h hc, if_neg (by simp [hr]), if_pos hd]

/-- Settles O55: the command completes with a failure before any key is drawn, and a failed completion changes no instance but the
counters of its sender. -/
theorem startWithoutEntropyIsBusy : Obligations.StartWithoutEntropyIsBusy := by
  unfold Obligations.StartWithoutEntropyIsBusy
  intro id s c canon h hc hr hd
  have failed : stBusy ≠ 0 := by decide
  have table : Bank.wf instDef (s.setFor c).inst = true := canon.inst
  have frame := State.complete_fail_only (s.setFor c) c (res := 0) (rb := false) failed
  have stands := State.complete_stands table c (res := 0) (rb := false) failed
  exact ⟨_, exec_instanceStart_busy h hc hr hd,
    ⟨frame.at .fss rfl, frame.at .sea rfl, stands.others, stands.state _, State.complete_due table failed⟩, Only.setBack frame⟩

/-! ### Self-tests and the random bit generator (R176, R202) -/

/-- An event without effect changes nothing, whether or not the block runs. -/
theorem whenRunning_same {s : State} {g : State → State} (h : g s = s) : whenRunning s g = s := by
  unfold whenRunning
  rw [h, ite_self]

theorem exec_selftestPeriod_disabled {s : State} (h : Cf.SEA_CTL_selftest_min s = 0) (bad : Option (Fin 5)) :
    exec (.selftestPeriod bad) s = .next s :=
  congrArg Host.Outcome.next (whenRunning_same (if_pos h))

theorem exec_selftestPeriod_pass {s : State} (hr : s.running = true) (h : Cf.SEA_CTL_selftest_min s ≠ 0) :
    exec (.selftestPeriod none) s = .next { s with sea := { s.sea with lastTest := s.tm.mono } } :=
  congrArg Host.Outcome.next ((whenRunning_of hr).trans (if_neg h))

theorem exec_selftestPeriod_fail {s : State} (hr : s.running = true) (h : Cf.SEA_CTL_selftest_min s ≠ 0) (n : Fin 5) :
    exec (.selftestPeriod (some n)) s = .next (({ s with sea := { s.sea with lastTest := s.tm.mono, selftestOk := false } } : State).haltBy
      (.hardware ⟨n.val + 1, by omega⟩)) :=
  congrArg Host.Outcome.next ((whenRunning_of hr).trans (if_neg h))

theorem exec_drbgReseed_of {s : State} (hr : s.running = true) (h : 65536 ≤ s.sea.drbgCount) :
    exec .drbgReseed s = .next { s with sea := { s.sea with drbgCount := 0, reseeds := s.sea.reseeds + 1 } } :=
  congrArg Host.Outcome.next ((whenRunning_of hr).trans (if_pos h))

theorem exec_drbgReseed_early {s : State} (h : s.sea.drbgCount < 65536) : exec .drbgReseed s = .next s :=
  congrArg Host.Outcome.next (whenRunning_same (if_neg (Nat.not_le.mpr h)))

theorem exec_entropyHealthFail_of {s : State} (hr : s.running = true) (h : s.sea.rngOk = true) : exec .entropyHealthFail s =
    .next (({ s with sea := { s.sea with rngOk := false, rngDown := s.tm.mono } } : State).note .entropyFail 0) :=
  congrArg Host.Outcome.next ((whenRunning_of hr).trans (if_pos h))

theorem exec_entropyHealthFail_stopped {s : State} (h : s.sea.rngOk = false) : exec .entropyHealthFail s = .next s :=
  congrArg Host.Outcome.next (whenRunning_same (if_neg (by simp [h])))

theorem exec_entropyHealthRecovery_of {s : State} (hr : s.running = true) (h : s.sea.rngOk = false) : exec .entropyHealthRecovery s =
    .next (({ s with sea := { s.sea with rngOk := true } } : State).note .entropyBack 0) :=
  congrArg Host.Outcome.next ((whenRunning_of hr).trans (if_neg (by simp [h])))

theorem exec_entropyHealthRecovery_going {s : State} (h : s.sea.rngOk = true) : exec .entropyHealthRecovery s = .next s :=
  congrArg Host.Outcome.next (whenRunning_same (if_pos h))

/-! ### The quarantine list (R204) -/

/-- A write without effect changes nothing, whether or not BAR2 is open. -/
theorem hostBar2_same {s : State} {g : State → State} (h : g s = s) : hostBar2 s g = s := by
  unfold hostBar2
  rw [h, ite_self]

/-- The writes of both NVM copies touch nothing of the sealing block's state. -/
theorem State.setQuar_sea (s : State) (l : List QuarLoc) : (s.setQuar l).sea = { s.sea with quar := l } :=
  ((State.nvmWrite_only _ _ _).at .sea rfl).trans ((State.nvmWrite_only _ _ _).at .sea rfl)

theorem exec_quarClr_of {s : State} {v : Word} (ho : s.barOpen 0 = true) (h : fld v 0 1 = 1) :
    exec (.quarClr v) s = .next ((s.setQuar []).note .quarantineCleared 0) :=
  congrArg Host.Outcome.next ((hostBar2_of ho).trans (if_pos h))

theorem exec_quarClr_zero {v : Word} (h : fld v 0 1 = 0) (s : State) : exec (.quarClr v) s = .next s :=
  congrArg Host.Outcome.next (hostBar2_same (if_neg (by omega)))

/-- Settles O20: each event is one guard, and the notices that follow leave the state of the sealing block as it is. -/
theorem sealingHealth : Obligations.SealingHealth := by
  unfold Obligations.SealingHealth
  refine ⟨fun bad s _ hm => exec_selftestPeriod_disabled hm bad,
    fun s hr hm => ⟨exec_selftestPeriod_pass hr hm, fun n => ⟨_, rfl, exec_selftestPeriod_fail hr hm n⟩⟩,
    fun s hr hd => exec_drbgReseed_of hr hd, fun s hd => exec_drbgReseed_early hd, fun s hr hok => ?_, fun s hr hok => ?_,
    fun v s ho hv => ?_, fun v s hv => exec_quarClr_zero hv s⟩
  · exact Answers.of_exec (exec_entropyHealthFail_of hr hok) (execEntropyHealthFail_only s s)
      ⟨State.note_sea _ _ _, exec_entropyHealthRecovery_going hok⟩
  · exact Answers.of_exec (exec_entropyHealthRecovery_of hr hok) (execEntropyHealthRecovery_only s s)
      ⟨State.note_sea _ _ _, exec_entropyHealthFail_stopped hok⟩
  · exact Answers.of_exec (exec_quarClr_of ho hv) (execQuarClr_only v s s) ((State.note_sea _ _ _).trans (State.setQuar_sea s []))

end Sys2Proof.Machine
end

section
/-! SUPPORT. Effects applied for each element of a list: a part of the state that none of them changes stays. -/

namespace Sys2Proof.Machine

theorem forEach_unchanged {α β : Type} {f : State → β} {g : α → State → State} (hg : ∀ a t, f (g a t) = f t) (l : List α) (s : State) :
    f (forEach l g s) = f s := by
  unfold forEach
  induction l generalizing s with
  | nil => rfl
  | cons a r ih => exact (ih (g a s)).trans (hg a s)

end Sys2Proof.Machine
end

section
/-! SUPPORT. The host-held region (R220, R221, R267): when HREG_ENABLE and HREG_DISABLE take effect, and what the end of a disable leaves
of the map cache and of the leaves. -/

namespace Sys2Proof.Machine

theorem exec_hregEnable_of {s : State} (ho : s.barOpen 0 = true) (he : s.fss.hregEn = false) (h0 : Cf.FSS_HREG_SIZE_size s ≠ 0)
    (h64 : Cf.FSS_HREG_SIZE_size s ≤ 64) (hb : s.fss.hregBusy = false) :
    exec .hregEnable s = .next { s with fss := { s.fss with hregEn := true } } :=
  congrArg Host.Outcome.next ((hostBar2_of ho).trans ((if_neg (by simp [he])).trans (if_neg (by simp [h0, h64, hb]))))

theorem exec_hregEnable_refused {s : State} (ho : s.barOpen 0 = true) (he : s.fss.hregEn = false)
    (h : Cf.FSS_HREG_SIZE_size s = 0 ∨ 64 < Cf.FSS_HREG_SIZE_size s ∨ s.fss.hregBusy = true) :
    exec .hregEnable s = .next (({ s with fss := { s.fss with hregErr := true } } : State).note .hregRefused 0) :=
  congrArg Host.Outcome.next ((hostBar2_of ho).trans ((if_neg (by simp [he])).trans (if_pos (by simpa [or_assoc] using h))))

theorem exec_hregEnable_enabled {s : State} (he : s.fss.hregEn = true) : exec .hregEnable s = .next s :=
  congrArg Host.Outcome.next (hostBar2_same (if_pos he))

theorem exec_hregDisable_of {s : State} (ho : s.barOpen 0 = true) (he : s.fss.hregEn = true) : exec .hregDisable s = .next { s with
    fss := { s.fss with hregEn := false, hregBusy := true }
    mch := { s.mch with op := none, aborted := s.mch.aborted || s.mch.op.isSome } } :=
  congrArg Host.Outcome.next ((hostBar2_of ho).trans (if_pos he))

theorem exec_hregDisable_disabled {s : State} (he : s.fss.hregEn = false) : exec .hregDisable s = .next s :=
  congrArg Host.Outcome.next (hostBar2_same (if_neg (by simp [he])))

theorem exec_hregDisableDone_of {s : State} (hr : s.running = true) (hb : s.fss.hregBusy = true) (hl : s.leafReading = false) :
    exec .hregDisableDone s = .next s.clearRegion :=
  congrArg Host.Outcome.next ((whenRunning_of hr).trans (if_pos (by simp [hb, hl])))

theorem exec_hregDisableDone_waits {s : State} (h : s.fss.hregBusy = false ∨ s.leafReading = true) :
    exec .hregDisableDone s = .next s :=
  congrArg Host.Outcome.next (whenRunning_same (if_neg (by rcases h with h | h <;> simp [h])))

/-- A leaf that the region held is NAND only (R221). -/
def LeafRec.leaveRegion (l : LeafRec) : LeafRec := if l.loc = .host then { l with loc := .nand } else l

/-- The region is given up: the cache is empty, and its leaves are NAND only (R221, R267). -/
def State.regionGone (s : State) : State :=
  { s.emptyCache with fss := { s.fss with
      hregEn := false, hregBusy := false, leaves := Bank.mapVals leafDef s.fss.leaves LeafRec.leaveRegion } }

/-- READs that go on once the region is given up change neither the store nor the cache. -/
theorem State.clearRegion_frame (s : State) :
    Only [.out, .log, .nvm, .nvs, .inst, .fn, .cmds, .due, .fetches, .rate] s.regionGone s.clearRegion :=
  Only.forEach (fun l t settled => Only.via (State.settleLine_only t l.line) rfl settled) (Only.refl _ _)

/-- Settles O10: each write of the region's control is one guard; the end of a disable empties the cache and drops the region's leaves,
and the READs that then go on leave both as they are. -/
theorem hostHeldRegion : Obligations.HostHeldRegion := by
  unfold Obligations.HostHeldRegion
  refine ⟨fun s ho he h0 h64 hb => exec_hregEnable_of ho he h0 h64 hb, fun s ho he h => ?_, fun s he => exec_hregEnable_enabled he,
    fun s ho he => exec_hregDisable_of ho he, fun s he => exec_hregDisable_disabled he, fun s hr hb hl => ?_,
    fun s h => exec_hregDisableDone_waits h⟩
  · exact Answers.of_exec (exec_hregEnable_refused ho he h) (execHregEnable_only s s) ((State.note_only _ _ _).at .fss rfl)
  · have dropped := s.clearRegion_frame
    exact Answers.of_exec (exec_hregDisableDone_of hr hb hl) (execHregDisableDone_only s s)
      ⟨dropped.at .mch rfl, LeafRec.leaveRegion, dropped.at .fss rfl, fun _ => rfl⟩

end Sys2Proof.Machine
end

section
/-! SUPPORT. Page programs (R223, R229, R240, R244): what the success of a page does, what its failure does, and the end of the page
wait. -/

namespace Sys2Proof.Machine

theorem State.pageDone_of {s u v w : State} {p : PageProg}
    (hu : u = (({ s with fss := { s.fss with progs := s.fss.progs.filter (fun x => x.pua ≠ p.pua) } } : State).storeUnits p.pua
      p.units).dieOk (puaDie p.pua))
    (hv : v = if p.units = [] then u.parityDone p.pua else u)
    (hw : w = if v.fss.rootWait.any (fun r => decide (r.pua / 4 = p.pua / 4)) then v.rootLanded else v) :
    s.pageDone p = (forEach p.cmds (fun id t => t.endWrite id) w).issueParity := by
  subst hu hv hw
  unfold State.pageDone
  simp only [List.isEmpty_iff]

theorem exec_nandPageProgramDone_of {pua : Nat} {s : State} {p : PageProg} (hr : s.running = true) (hp : s.programOf pua = some p) :
    exec (.nandPageProgramDone pua) s = .next (s.pageDone p).pump := by
  refine congrArg Host.Outcome.next ((whenRunning_of hr).trans ?_)
  rw [hp]

theorem exec_nandPageProgramDone_none {pua : Nat} {s : State} (hp : s.programOf pua = none) :
    exec (.nandPageProgramDone pua) s = .next s := by
  refine congrArg Host.Outcome.next (whenRunning_same ?_)
  rw [hp]

theorem exec_nandProgramFail_of {pua d b : Nat} {s u : State} {p : PageProg} (hr : s.running = true) (hp : s.programOf pua = some p)
    (hd : d = puaDie pua) (hb : b = puaBlock s.fss.ppb pua)
    (hu : u = ({ s with fss := { s.fss with progs := s.fss.progs.filter (fun x => x.pua ≠ pua) } } : State).mapBands
      (fun x => if x.blocks.contains (d, b) && x.isOpen then x.skipDie d else x)) : exec (.nandProgramFail pua) s = .next
    ((((if u.fss.fill.any (fun x => decide (x.role = p.role ∧ puaDie x.pua ≠ d)) then u.issuePage p.role else u).retireBlock d b
      1).rewriteAll p 0 p.units).issueParity) := by
  subst hd hb hu
  refine congrArg Host.Outcome.next ((whenRunning_of hr).trans ?_)
  rw [hp]

theorem exec_nandProgramFail_none {pua : Nat} {s : State} (hp : s.programOf pua = none) : exec (.nandProgramFail pua) s = .next s := by
  refine congrArg Host.Outcome.next (whenRunning_same ?_)
  rw [hp]

theorem State.not_quiesced_of_nandOpen {s : State} (h : s.nandOpen = true) : s.fss.quiesced = false := by
  simp only [State.nandOpen, Bool.and_eq_true, Bool.not_eq_true'] at h
  exact h.2

theorem exec_pageWaitTimeout_of {role : Fin 4} {s : State} (hr : s.running = true) (h : s.nandOpen = true) :
    exec (.pageWaitTimeout role) s = .next (s.issuePage (roleOf role)) :=
  congrArg Host.Outcome.next ((whenRunning_of hr).trans (if_pos h))

theorem exec_pageWaitTimeout_closed {s : State} (h : s.nandOpen = false) (role : Fin 4) : exec (.pageWaitTimeout role) s = .next s :=
  congrArg Host.Outcome.next (whenRunning_same (if_neg (by simp [h])))

/-- The older system bands are closed and the reserved marks of a root `w` stand (R229, R230). -/
def State.rootMarked (s : State) (w : RootWait) : State :=
  forEach w.snap.inst (fun e t => t.durMark e.1 e.2.unitHigh e.2.arcHigh)
    (forEach (s.fss.bands.filter (fun b => decide (b.role = .system) && !b.isOpen)) (fun b t =>
      forEach b.blocks (fun e u => if (u.block e.1 e.2).use = .opened then u.setBlock e.1 e.2 { u.block e.1 e.2 with use := .closed } else u) t) s)

theorem State.rootLanded_of {s : State} {w : RootWait} (h : s.fss.rootWait = some w) :
    s.rootLanded = { s.rootMarked w with fss := (s.rootMarked w).fss.rootLanded } := by
  unfold State.rootLanded
  rw [h]
  rfl

theorem State.rootMarked_rootWait (s : State) (w : RootWait) : (s.rootMarked w).fss.rootWait = s.fss.rootWait := by
  unfold State.rootMarked
  refine (forEach_unchanged (f := fun t => t.fss.rootWait) (fun e t => ?_) _ _).trans
    (forEach_unchanged (f := fun t => t.fss.rootWait) (fun b t => ?_) _ _)
  · rfl
  · refine forEach_unchanged (f := fun t => t.fss.rootWait) (fun e u => ?_) _ _
    dsimp only
    split <;> rfl

theorem FssState.rootLanded_of {f : FssState} {w : RootWait} (h : f.rootWait = some w) :
    f.rootLanded.root = some w.snap ∧ f.rootLanded.rootSeq = w.snap.seq ∧ f.rootLanded.rootWait = none := by
  unfold FssState.rootLanded
  rw [h]
  exact ⟨rfl, rfl, rfl⟩

theorem State.rootLanded_fss {s : State} {w : RootWait} (h : s.fss.rootWait = some w) :
    s.rootLanded.fss.root = some w.snap ∧ s.rootLanded.fss.rootSeq = w.snap.seq ∧ s.rootLanded.fss.rootWait = none := by
  rw [State.rootLanded_of h]
  exact FssState.rootLanded_of ((s.rootMarked_rootWait w).trans h)

/-- Settles O27: a page that ends is found among the pages in programming, and its success or failure is one sequence of effects; the
page that fills is programmed as it is, and is not queued, since the store is not quiesced. -/
theorem nandPrograms : Obligations.NandPrograms := by
  unfold Obligations.NandPrograms
  refine ⟨fun pua s p hr hp u v w hu hv hw => ?_, fun s w h => State.rootLanded_fss h,
    fun pua s p hr hp d b u hd hb hu => ⟨fun hf => ?_, fun hf => ?_⟩,
    fun pua s hp => ⟨exec_nandPageProgramDone_none hp, exec_nandProgramFail_none hp⟩, fun role s hr ho => ?_,
    fun role s ho => exec_pageWaitTimeout_closed ho role⟩
  · rw [exec_nandPageProgramDone_of hr hp, State.pageDone_of hu hv hw]
  · rw [exec_nandProgramFail_of hr hp hd hb hu, if_pos hf]
  · rw [exec_nandProgramFail_of hr hp hd hb hu, hf, if_neg Bool.false_ne_true]
  · rw [exec_pageWaitTimeout_of hr ho, State.issuePage, State.not_quiesced_of_nandOpen ho]

end Sys2Proof.Machine
end

section
/-! SUPPORT. Erases, unit reads and refresh reads (R206, R236, R240 to R242): the branches of an erase that ends, and of the reads. -/

namespace Sys2Proof.Machine

/-- NAND holds no unit of a block. -/
def State.dropUnits (s : State) (d b : Nat) : State :=
  { s with fss := { s.fss with units := s.fss.units.filter (fun e => !decide (puaDie e.1 = d ∧ puaBlock s.fss.ppb e.1 = b)) } }

/-- A block whose erase ended is out of its band, holds no unit and is free after `n` erases (R240). -/
def State.erased (s : State) (d b n : Nat) : State :=
  (((s.unband d b).dieOk d).dropUnits d b).setBlock d b ⟨.free, n, 0, false⟩

/-- An ended erase removes exactly the units of its block. -/
theorem State.erased_units (s : State) (d b n : Nat) :
    (s.erased d b n).fss.units = s.fss.units.filter (fun e => !decide (puaDie e.1 = d ∧ puaBlock s.fss.ppb e.1 = b)) := rfl

theorem exec_nandEraseDone_erasing {die : Fin 16} {block : BitVec 16} {s : State} (hr : s.running = true)
    (he : (s.block die.val block.toNat).use = .erasing) (hq : s.fss.quiesced = false)
    (hn : s.readsBlock die.val block.toNat = false) (ok : Bool) {n : Nat} (e : n = (s.block die.val block.toNat).erases + 1) {w : State}
    (hw : w = s.erased die.val block.toNat n) : exec (.nandEraseDone die block ok) s = .next
      (if !ok then w.retireBlock die.val block.toNat 2
       else if Cf.FSS_WL_pe_limit s * 10 ≤ n then w.retireBlock die.val block.toNat 3 else w) := by
  subst e hw
  exact congrArg Host.Outcome.next ((whenRunning_of hr).trans ((if_neg (by simp [hq])).trans
    ((if_neg (by simp [he])).trans (if_neg (by simp [he, hn])))))

theorem exec_nandEraseDone_opened {die : Fin 16} {block : BitVec 16} {s : State} (hr : s.running = true)
    (hq : s.fss.quiesced = false) (ho : (s.block die.val block.toNat).use = .opened)
    (hs : (s.block die.val block.toNat).stale = true) (ok : Bool) :
    exec (.nandEraseDone die block ok) s = .next ((s.dieOk die.val).staleErased die.val block.toNat ok) :=
  congrArg Host.Outcome.next ((whenRunning_of hr).trans ((if_neg (by simp [hq])).trans (if_pos ⟨ho, hs⟩)))

theorem exec_nandEraseDone_other {die : Fin 16} {block : BitVec 16} {s : State}
    (h : ((s.block die.val block.toNat).use ≠ .erasing ∧ ((s.block die.val block.toNat).use ≠ .opened ∨
        (s.block die.val block.toNat).stale = false)) ∨ s.fss.quiesced = true ∨
      ((s.block die.val block.toNat).use = .erasing ∧ s.readsBlock die.val block.toNat = true)) (ok : Bool) :
    exec (.nandEraseDone die block ok) s = .next s := by
  refine congrArg Host.Outcome.next (whenRunning_same (ite_eq_left_iff.mpr (fun hq => ?_)))
  have notOpened : ¬((s.block die.val block.toNat).use = .opened ∧ (s.block die.val block.toNat).stale) := fun ⟨ho, hs⟩ => by
    rcases h with ⟨-, hu | hf⟩ | hq1 | ⟨he, -⟩
    · exact hu ho
    · simp [hf] at hs
    · exact hq hq1
    · simp [ho] at he
  rw [if_neg notOpened]
  refine if_pos ?_
  rcases h with ⟨hu, -⟩ | h | ⟨-, hn⟩
  · simp [hu]
  · exact absurd h hq
  · simp [hn]

theorem exec_nandReadDone_of {pua : Nat} {s : State} (hr : s.running = true) (hm : s.mounted = true)
    (hk : (s.unitAt pua).kind ≠ 0xFF) (r : NandRead) :
    exec (.nandReadDone pua r) s = .next ((s.dieOk (puaDie pua)).unitRead pua (s.readResult pua r)) :=
  congrArg Host.Outcome.next ((whenRunning_of hr).trans (if_neg (by simp [hm, hk])))

theorem exec_nandReadDone_none {pua : Nat} {s : State} (h : s.mounted = false ∨ (s.unitAt pua).kind = 0xFF) (r : NandRead) :
    exec (.nandReadDone pua r) s = .next s :=
  congrArg Host.Outcome.next (whenRunning_same (if_pos (by rcases h with h | h <;> simp [h])))

theorem exec_refreshRead_of {die : Fin 16} {block : BitVec 16} {page : BitVec 12} {r : NandRead} {s u : State} (hr : s.running = true)
    (hm : s.mounted = true) (hp : s.pageUnits die.val block.toNat page.toNat ≠ [])
    (hu : u = forEach (s.pageUnits die.val block.toNat page.toNat)
      (fun pua t => if t.running then t.unitRead pua (t.readResult pua r) else t) s) :
    exec (.refreshRead die block page r) s = .next (if readFails r && u.running then
      (u.moveAll .gc [(die.val, block.toNat)]).retireBlock die.val block.toNat 4 else u) := by
  subst hu
  exact congrArg Host.Outcome.next ((whenRunning_of hr).trans (if_neg (by simp [hm, hp])))

theorem exec_refreshRead_none {die : Fin 16} {block : BitVec 16} {page : BitVec 12} {s : State}
    (h : s.mounted = false ∨ s.pageUnits die.val block.toNat page.toNat = []) (r : NandRead) :
    exec (.refreshRead die block page r) s = .next s :=
  congrArg Host.Outcome.next (whenRunning_same (if_pos (by rcases h with h | h <;> simp [h])))

/-- Settles O28: a block being erased is no opened block, so each end of an erase is one branch; each read is one guard. -/
theorem nandErasesAndReads : Obligations.NandErasesAndReads := by
  unfold Obligations.NandErasesAndReads
  refine ⟨fun die block ok s hr he hq hn u n e hu w hw => ?_, fun die block ok s u r hr hq hrec ho hs hu => ?_,
    fun die block ok s h => exec_nandEraseDone_other h ok, fun pua r s hr hm hk => exec_nandReadDone_of hr hm hk r,
    fun pua r s h => exec_nandReadDone_none h r, fun die block page r s u hr hm hp hu => ⟨fun hf hru => ?_, fun h => ?_⟩,
    fun die block page r s h => exec_refreshRead_none h r⟩
  · subst hu
    have answer := exec_nandEraseDone_erasing hr he hq hn ok e hw
    refine ⟨fun hok hl => ?_, fun hok hl => ?_, fun hok => ?_⟩ <;> subst hok
    · have free : exec (.nandEraseDone die block true) s = .next w := answer.trans (congrArg _ (if_neg (Nat.not_le.mpr hl)))
      refine ⟨free, Answers.of_exec free (execNandEraseDone_only die block true s s) ?_⟩
      rw [hw]
      exact State.erased_units s _ _ n
    · exact answer.trans (congrArg _ (if_pos hl))
    · exact answer
  · subst hrec hu
    exact exec_nandEraseDone_opened hr hq ho hs ok
  · rw [exec_refreshRead_of hr hm hp hu, if_pos (by simp [hf, hru])]
  · rw [exec_refreshRead_of hr hm hp hu, if_neg (by rcases h with h | h <;> simp [h])]

end Sys2Proof.Machine
end
section
/-! SUPPORT. Journal flushes and root checkpoints (R225 to R229): when each begins, and what it writes where pages are left. -/

namespace Sys2Proof.Machine

/-- The journal units of everything that waits, the end of the flush included; none where a page is missing (R225, R227). -/
def State.flushUnits (s : State) : Option State :=
  State.journalRun (journalRuns s.flushTail.fss.jWait) { s.flushTail with fss := { s.flushTail.fss with jWait := [], jFlight := [] } }

/-- The pages that a flush names or lies in are issued (R227). -/
def State.issueFlush (s : State) : State := ((s.issuePage .gc).issuePage .cold).issuePage .system

/-- Issuing pages leaves the journal's queues alone. -/
theorem State.issueFlush_journal (s : State) : s.issueFlush.fss.jWait = s.fss.jWait ∧ s.issueFlush.fss.jFlight = s.fss.jFlight := ⟨rfl, rfl⟩

theorem State.flushOut_none {s : State} (h : s.flushUnits = none) : s.flushOut = s := by
  unfold State.flushUnits at h
  unfold State.flushOut
  dsimp only
  rw [h]

theorem State.flushOut_some {s t : State} (h : s.flushUnits = some t) :
    s.flushOut = { t.issueFlush with fss := { t.issueFlush.fss with jFlying := true, jUpdates := 0 } } := by
  unfold State.flushUnits at h
  unfold State.flushOut
  dsimp only
  rw [h]
  rfl

theorem exec_journalFlush_of {s : State} (hr : s.running = true) (ho : s.nandOpen = true) (hj : s.fss.jFlying = false)
    (hw : s.fss.rootWait = none) (hd : s.flushDue = true) : exec .journalFlush s = .next s.flushOut :=
  congrArg Host.Outcome.next ((whenRunning_of hr).trans (if_neg (by simp [ho, hj, hw, hd])))

theorem exec_journalFlush_held {s : State}
    (h : s.nandOpen = false ∨ s.fss.jFlying = true ∨ s.fss.rootWait.isSome = true ∨ s.flushDue = false) :
    exec .journalFlush s = .next s :=
  congrArg Host.Outcome.next (whenRunning_same (if_pos (by rcases h with h | h | h | h <;> simp [h])))

theorem exec_journalFlushComplete_of {s : State} (hr : s.running = true) (hj : s.fss.jFlying = true)
    (hp : s.fss.progs.any (fun p => decide (p.role ≠ .host) && p.queued) = false) : exec .journalFlushComplete s =
      .next ((forEach s.flushPages (fun p t => t.pageDone p) s).flushLanded.finishFlushed.beginErases.pump) :=
  congrArg Host.Outcome.next ((whenRunning_of hr).trans (if_neg (by rw [hj, hp]; exact Bool.false_ne_true)))

theorem exec_journalFlushComplete_held {s : State}
    (h : s.fss.jFlying = false ∨ s.fss.progs.any (fun p => decide (p.role ≠ .host) && p.queued) = true) :
    exec .journalFlushComplete s = .next s :=
  congrArg Host.Outcome.next (whenRunning_same (if_pos (by rcases h with h | h <;> rw [h] <;> simp)))

/-- The marks that a flush brings to NAND leave the store alone; its units join the journal (R227). -/
theorem State.flushLanded_fss (s : State) : s.flushLanded.fss = { s.fss with
    jFlying := false, jDone := s.fss.jDone + (s.fss.jFlight.flatMap (fun u => u.entries)).length,
    jLog := s.fss.jLog ++ s.fss.jFlight, jFlight := [] } :=
  forEach_unchanged (f := State.fss) (fun e t => (State.landEntry_only t e).at .fss rfl) _ _

/-- A root is due: at its interval, or after 8192 journal units (R229). -/
def State.rootDue (s : State) : Prop :=
  s.fss.rootTime + Cf.FSS_CKPT_interval s * 1000 ≤ s.tm.mono ∨ s.fss.rootUnits + 8192 ≤ s.fss.jUnits

theorem exec_rootCheckpoint_of {s : State} (hr : s.running = true) (ho : s.nandOpen = true) (hj : s.fss.jFlying = false)
    (hw : s.fss.rootWait = none) (hd : s.rootDue) : exec .rootCheckpoint s = .next s.writeRoot :=
  congrArg Host.Outcome.next ((whenRunning_of hr).trans (if_pos (by unfold State.rootDue at hd; simp [ho, hj, hw, hd])))

theorem exec_rootCheckpoint_held {s : State}
    (h : s.nandOpen = false ∨ s.fss.jFlying = true ∨ s.fss.rootWait.isSome = true ∨ ¬s.rootDue) : exec .rootCheckpoint s = .next s := by
  refine congrArg Host.Outcome.next (whenRunning_same (if_neg ?_))
  rcases h with h | h | h | h
  · simp [h]
  · simp [h]
  · simp [Option.isSome_iff_ne_none.mp h]
  · unfold State.rootDue at h
    simp only [Bool.and_eq_true, Bool.or_eq_true, decide_eq_true_eq]
    exact fun ⟨_, due⟩ => h due

theorem State.writeRoot_none {s : State} (h : State.putRoot s.reserveSeqs.rootSnap.sectionUnits s.reserveSeqs = none) :
    s.writeRoot = s := by
  unfold State.writeRoot
  dsimp only
  rw [h]

theorem State.writeRoot_some {s u : State} {pua : Nat}
    (h : State.putRoot s.reserveSeqs.rootSnap.sectionUnits s.reserveSeqs = some (pua, u)) :
    s.writeRoot = { u.issuePage .system with fss := { (u.issuePage .system).fss with
      rootWait := some ⟨pua, u.rootSnap⟩, rootTime := (u.issuePage .system).tm.mono, rootUnits := (u.issuePage .system).fss.jUnits } } := by
  unfold State.writeRoot
  dsimp only
  rw [h]

end Sys2Proof.Machine
end

section
/-! SUPPORT. Garbage collection, static wear levelling, dies that stay busy or have failed, and ZQ calibration (R209, R237 to R239,
R245). -/

namespace Sys2Proof.Machine

/-! ### GARBAGE_COLLECTION (R237) -/

theorem exec_garbageCollection_collects {s u : State} (hr : s.running = true) (ho : s.nandOpen = true)
    (h : s.freeBands < 8 ∨ (s.fss.gcOn = true ∧ s.freeBands < 12)) (hu : u = { s with fss := { s.fss with gcOn := true } }) :
    exec .garbageCollection s = .next ((leastBand (fun b => (u.liveIn b.blocks).length) (u.fss.bands.filter u.mayEmpty)).elim u
      (fun b => u.emptyBand b .gc)) := by
  subst hu
  refine congrArg Host.Outcome.next ((whenRunning_of hr).trans ((if_neg (by simp [ho])).trans ((if_pos h).trans ?_)))
  dsimp only
  split
  · rename_i b hb
    rw [hb]
    rfl
  · rename_i hb
    rw [hb]
    rfl

theorem exec_garbageCollection_stops {s : State} (hr : s.running = true) (ho : s.nandOpen = true) (h8 : 8 ≤ s.freeBands)
    (h12 : s.fss.gcOn = false ∨ 12 ≤ s.freeBands) :
    exec .garbageCollection s = .next { s with fss := { s.fss with gcOn := false } } := by
  have enough : ¬(s.freeBands < 8 ∨ (s.fss.gcOn = true ∧ s.freeBands < 12)) := by
    rcases h12 with h | h
    · simp [h, h8]
    · omega
  exact congrArg Host.Outcome.next ((whenRunning_of hr).trans ((if_neg (by simp [ho])).trans (if_neg enough)))

theorem exec_garbageCollection_held {s : State} (h : s.running = false ∨ s.nandOpen = false) : exec .garbageCollection s = .next s := by
  rcases h with h | h
  · exact congrArg Host.Outcome.next (whenRunning_not h)
  · exact congrArg Host.Outcome.next (whenRunning_same (if_pos (by simp [h])))

/-! ### STATIC_WEAR_LEVELLING (R239) -/

/-- The closed band that holds the least-erased block of a die, where both are there (R239). -/
def State.leastWorn (s : State) (d : Nat) : Option Band :=
  (leastBy (fun b => (s.block d b).erases) (s.wearBlocks d)).bind (fun b =>
    s.fss.bands.find? (fun x => x.blocks.contains (d, b) && s.mayEmpty x))

theorem exec_staticWearLevelling_eq (die : Fin 16) (s : State) : exec (.staticWearLevelling die) s = .next (whenRunning s (fun s =>
    if s.nandOpen && s.goodDies.contains die.val && decide (Cf.FSS_WL_spread s < s.eraseSpread die.val) then
      (s.leastWorn die.val).elim s (fun x => s.emptyBand x .cold)
    else s)) := by
  refine congrArg (fun g => Host.Outcome.next (whenRunning s g)) (funext (fun t => ?_))
  dsimp only
  refine if_congr Iff.rfl ?_ rfl
  unfold State.leastWorn
  split
  · rename_i b hb
    rw [hb]
    dsimp only [Option.bind_some]
    split
    · rename_i x hx
      rw [hx]
      rfl
    · rename_i hx
      rw [hx]
      rfl
  · rename_i hb
    rw [hb]
    rfl

theorem exec_staticWearLevelling_of {die : Fin 16} {s : State} {x : Band} (hr : s.running = true) (ho : s.nandOpen = true)
    (hg : s.goodDies.contains die.val = true) (hs : Cf.FSS_WL_spread s < s.eraseSpread die.val) (hx : s.leastWorn die.val = some x) :
    exec (.staticWearLevelling die) s = .next (s.emptyBand x .cold) := by
  rw [exec_staticWearLevelling_eq, whenRunning_of hr, if_pos (by rw [ho, hg, decide_eq_true hs]; rfl), hx]
  rfl

theorem exec_staticWearLevelling_none {die : Fin 16} {s : State} (hx : s.leastWorn die.val = none) :
    exec (.staticWearLevelling die) s = .next s := by
  rw [exec_staticWearLevelling_eq, whenRunning_same (by rw [hx]; exact ite_self _)]

theorem exec_staticWearLevelling_held {die : Fin 16} {s : State}
    (h : s.nandOpen = false ∨ s.goodDies.contains die.val = false ∨ s.eraseSpread die.val ≤ Cf.FSS_WL_spread s) :
    exec (.staticWearLevelling die) s = .next s := by
  refine (exec_staticWearLevelling_eq die s).trans (congrArg Host.Outcome.next (whenRunning_same (if_neg ?_)))
  simp only [Bool.and_eq_true, decide_eq_true_eq, not_and, Nat.not_lt]
  rintro ⟨ho, hg⟩
  rcases h with h | h | h
  · rw [ho] at h
    cases h
  · rw [hg] at h
    cases h
  · exact h

/-! ### Dies (R209, R245) -/

theorem exec_dieBusyTimeout_of {die : Fin 16} {s u : State} (hr : s.running = true) (hp : (s.die die.val).present = true)
    (hf : (s.die die.val).failed = false) (hu : u = s.modDie die.val (fun x => { x with busy := x.busy + 1 })) :
    exec (.dieBusyTimeout die) s =
      .next (if 2 ≤ (u.die die.val).busy then u.dieFail die.val else u.emit (.nand die.val .syncReset)) := by
  subst hu
  exact congrArg Host.Outcome.next ((whenRunning_of hr).trans (if_neg (by simp [hp, hf])))

theorem exec_dieBusyTimeout_gone {die : Fin 16} {s : State} (h : (s.die die.val).present = false ∨ (s.die die.val).failed = true) :
    exec (.dieBusyTimeout die) s = .next s :=
  congrArg Host.Outcome.next (whenRunning_same (if_pos (by rcases h with h | h <;> simp [h])))

theorem exec_dieRebuildDone_of {seen : List (Nat × NandRead)} {s u : State} (hr : s.running = true) (hd : s.fss.dieRebuild = true)
    (ho : s.nandOpen = true) (hu : u = forEach s.onFailed (fun p t => if t.running then t.rebuildUnit seen p else t) s) :
    exec (.dieRebuildDone seen) s = .next { u with fss := { u.fss with dieRebuild := !u.onFailed.isEmpty } } := by
  subst hu
  exact congrArg Host.Outcome.next ((whenRunning_of hr).trans (if_neg (by simp [hd, ho])))

theorem exec_dieRebuildDone_held {s : State} (h : s.fss.dieRebuild = false ∨ s.nandOpen = false) (seen : List (Nat × NandRead)) :
    exec (.dieRebuildDone seen) s = .next s :=
  congrArg Host.Outcome.next (whenRunning_same (if_pos (by rcases h with h | h <;> simp [h])))

theorem State.rebuildUnit_lost {seen : List (Nat × NandRead)} {p : Nat} (h : seenRead seen p = .lost) (s : State) :
    s.rebuildUnit seen p = s.loseUnit p := by
  unfold State.rebuildUnit
  rw [h]

theorem State.rebuildUnit_clean {seen : List (Nat × NandRead)} {p : Nat} {s : State} (h : seenRead seen p = .clean)
    (hl : (s.moveLive .gc p).isLive p = false) : s.rebuildUnit seen p =
      { s.moveLive .gc p with fss := { (s.moveLive .gc p).fss with rebuilt := inc16 (s.moveLive .gc p).fss.rebuilt } } := by
  unfold State.rebuildUnit
  rw [h]
  exact (if_neg (by simp)).trans (if_neg (by simp [hl]))

/-- The channels that run NV-DDR3. -/
def State.ddr3Channels (s : State) (n : Nat) : List Nat := (List.range n).filter (fun c => decide ((nth NandMode.reset s.fss.modes c).kind = .ddr3))

theorem forBelow_zqCal (s : State) (n : Nat) :
    forBelow n (fun c t => if (nth NandMode.reset t.fss.modes c).kind = .ddr3 then t.emit (.zqCal c) else t) s =
      { s with out := (s.ddr3Channels n).reverse.map Emit.zqCal ++ s.out } := by
  induction n with
  | zero => rfl
  | succ k ih =>
    rw [forBelow, ih]
    unfold State.ddr3Channels
    dsimp only
    rw [List.range_succ, List.filter_append]
    split <;> rename_i hk <;> simp [hk, State.emit]

/-- Settles O29: each event is one guard and one sequence of effects; a flush or a root without pages leaves the state as it was. -/
theorem journalRootAndStoreUpkeep : Obligations.JournalRootAndStoreUpkeep := by
  unfold Obligations.JournalRootAndStoreUpkeep
  refine ⟨⟨fun s u hr ho hj hw hd hu r hunits => ⟨fun hn => ?_, fun t x ht hx => ?_⟩, fun s h => exec_journalFlush_held h,
      fun s hr hj hp => exec_journalFlushComplete_of hr hj hp, fun s h => exec_journalFlushComplete_held h, fun s => ?_,
      fun s hr ho hj hw hd r hroot => ⟨fun hn => ?_, fun pua u v hp hv => ?_⟩, fun s h => ?_⟩,
    ⟨fun s u hr ho h hu => ⟨fun b hb => ?_, fun hb => ?_⟩, fun s hr ho h8 h12 => exec_garbageCollection_stops hr ho h8 h12,
      fun s h => exec_garbageCollection_held h, fun die s h => ?_, fun die s b x hr ho hg hs hb hx => ?_,
      fun die s h => exec_staticWearLevelling_held h, fun die s u hr hp hf hu => ⟨fun hb => ?_, fun hb => ?_⟩,
      fun die s h => exec_dieBusyTimeout_gone h, fun seen s u hr hd ho hu => exec_dieRebuildDone_of hr hd ho hu,
      fun seen s p => ⟨fun h => State.rebuildUnit_lost h s, fun h hl => State.rebuildUnit_clean h hl⟩,
      fun seen s h => exec_dieRebuildDone_held h seen, fun s hr => ?_⟩⟩
  · subst hu hunits
    rw [exec_journalFlush_of hr ho hj hw hd, State.flushOut_none hn]
  · subst hu hunits hx
    rw [exec_journalFlush_of hr ho hj hw hd, State.flushOut_some ht]
    exact ⟨rfl, t.issueFlush_journal⟩
  · rw [State.flushLanded_fss]
    exact ⟨rfl, rfl, rfl, rfl⟩
  · rw [exec_rootCheckpoint_of hr ho hj hw hd, State.writeRoot_none (hroot.symm.trans hn)]
  · subst hv
    rw [exec_rootCheckpoint_of hr ho hj hw hd, State.writeRoot_some (hroot.symm.trans hp)]
  · refine exec_rootCheckpoint_held (h.imp_right (Or.imp_right (Or.imp_right ?_)))
    rintro ⟨early, few⟩ (due | due) <;> omega
  · rw [exec_garbageCollection_collects hr ho h hu, hb]
    rfl
  · rw [exec_garbageCollection_collects hr ho h hu, hb]
    rfl
  · refine exec_staticWearLevelling_none ?_
    unfold State.leastWorn
    rcases h with h | ⟨b, hb, hx⟩
    · rw [h]
      rfl
    · rw [hb]
      exact hx
  · refine exec_staticWearLevelling_of hr ho hg hs ?_
    unfold State.leastWorn
    rw [hb]
    exact hx
  · rw [exec_dieBusyTimeout_of hr hp hf hu, if_pos hb]
  · rw [exec_dieBusyTimeout_of hr hp hf hu, if_neg (by omega)]
  · exact congrArg Host.Outcome.next ((whenRunning_of hr).trans (forBelow_zqCal s 2))

end Sys2Proof.Machine
end

section
/-! SUPPORT. The map cache (R258, R259, R261, R265, R269, R270): its enable, the ways put back in service, the end of a parity window, and
the begin and end of a maintenance operation. -/

namespace Sys2Proof.Machine

/-! ### Enable (R258, R259) -/

theorem exec_mchEnableWrite_refused {s : State} {v : Word} (ho : s.barOpen 0 = true) (hv : fld v 0 1 = 1) (he : s.mchEn = false)
    (hi : s.mch.invOk = false) : exec (.mchEnableWrite v) s = .next ((s.storeReg Reg.MCH_CTL (setFld v 0 1 0)).setMchEvt 3) :=
  congrArg Host.Outcome.next ((hostBar2_of ho).trans (if_pos (by simp [hv, he, hi])))

theorem exec_mchEnableWrite_of {s : State} {v : Word} (ho : s.barOpen 0 = true)
    (h : fld v 0 1 = 0 ∨ s.mchEn = true ∨ s.mch.invOk = true) : exec (.mchEnableWrite v) s = .next (s.storeReg Reg.MCH_CTL v) :=
  congrArg Host.Outcome.next ((hostBar2_of ho).trans (if_neg (by rcases h with h | h | h <;> simp [h])))

/-- An event bit changes nothing else of the map cache: an interrupt it raises leaves the cache as it is. -/
theorem State.setMchEvt_mch (s : State) (bit : Nat) : (s.setMchEvt bit).mch =
    { s.mch with evt := if bitN s.mch.evt bit then s.mch.evt else setBitN s.mch.evt bit true } := by
  unfold State.setMchEvt
  split
  · rfl
  · dsimp only
    split
    · exact (State.raise_only _ 0 0).at .mch rfl
    · rfl

/-! ### Ways put back in service (R270) -/

/-- A way is back in service with no valid line and no window. -/
def State.restoreWay (s : State) (w : Nat) : State :=
  let t := s.invalidateWay w
  ({ t with mch := { t.mch with off := setBitN t.mch.off w false, auto := setBitN t.mch.auto w false } } : State).modWay w
    (fun c => { c with inWindow := 0, opened := 0 })

/-- The disabled ones of the first `n` ways that a word names are back in service. -/
def State.restoreWays (s : State) (v : Word) (n : Nat) : State :=
  forBelow n (fun w t => if bitN v.toNat w && bitN t.mch.off w then t.restoreWay w else t) s

theorem exec_wayEn_of {s : State} (ho : s.barOpen 0 = true) (v : Word) : exec (.wayEn v) s = .next (s.restoreWays v 8) :=
  congrArg Host.Outcome.next (hostBar2_of ho)

@[simp] theorem State.bitN_off_restoreWay (s : State) (w j : Nat) :
    bitN (s.restoreWay w).mch.off j = if j = w then false else bitN s.mch.off j :=
  bitN_setBitN _ _ _ _

@[simp] theorem State.mem_lines_restoreWay {s : State} {w : Nat} {e : Nat × Option MLine} :
    e ∈ (s.restoreWay w).mch.lines ↔ e ∈ s.mch.lines ∧ e.1 % 8 ≠ w :=
  List.mem_filter.trans (and_congr_right fun _ => decide_eq_true_iff)

theorem State.restoreWays_succ (s : State) (v : Word) (n : Nat) : s.restoreWays v (n + 1) =
    if bitN v.toNat n && bitN (s.restoreWays v n).mch.off n then (s.restoreWays v n).restoreWay n else s.restoreWays v n := rfl

theorem State.bitN_off_restoreWays (s : State) (v : Word) (n j : Nat) :
    bitN (s.restoreWays v n).mch.off j = (bitN s.mch.off j && !(decide (j < n) && bitN v.toNat j)) := by
  induction n with
  | zero => simp [State.restoreWays, forBelow]
  | succ n ih =>
    rw [State.restoreWays_succ]
    by_cases hj : j = n
    · subst j
      cases hv : bitN v.toNat n <;> cases ho : bitN s.mch.off n <;> simp [ih, hv, ho]
    · have hlt : j < n + 1 ↔ j < n := by omega
      split <;> simp [ih, hj, hlt]

theorem State.mem_lines_restoreWays {s : State} {v : Word} {n : Nat} {e : Nat × Option MLine} :
    e ∈ (s.restoreWays v n).mch.lines ↔
      e ∈ s.mch.lines ∧ ¬(e.1 % 8 < n ∧ bitN v.toNat (e.1 % 8) = true ∧ bitN s.mch.off (e.1 % 8) = true) := by
  induction n with
  | zero => simp [State.restoreWays, forBelow]
  | succ n ih =>
    have hoff : bitN (s.restoreWays v n).mch.off n = bitN s.mch.off n := by simp [State.bitN_off_restoreWays]
    rw [State.restoreWays_succ, hoff]
    by_cases hj : e.1 % 8 = n
    · cases hv : bitN v.toNat n <;> cases ho : bitN s.mch.off n <;> simp [ih, hj, hv, ho]
    · have hlt : e.1 % 8 < n + 1 ↔ e.1 % 8 < n := by omega
      split <;> simp [ih, hj, hlt]

/-! ### The parity window (R269) -/

/-- The counts of a way after the end of its window. -/
def State.expireWindow (s : State) (c : WayCount) : WayCount :=
  if c.inWindow ≠ 0 ∧ !c.closing ∧ c.opened + Cf.MCH_PAR_window s * 1000 ≤ s.tm.mono then { c with inWindow := 0, opened := 0 } else c

theorem exec_parityWindowExpiry_of {s : State} (hr : s.running = true) (way : Fin 8) :
    exec (.parityWindowExpiry way) s = .next (s.modWay way.val s.expireWindow) :=
  congrArg Host.Outcome.next (whenRunning_of hr)

/-! ### Maintenance operations (R261 to R265) -/

theorem exec_goWrite_of {c : Fin 2 → Instr} {op : Nat} {mode : Fin 2} {s : State}
    (hc : (c, op) ∈ [(Instr.clean, 1), (Instr.invalidate, 2), (Instr.cleanAndInvalidate, 3)]) (ho : s.barOpen 0 = true) :
    exec (c mode) s = .next (s.beginOp op mode.val) := by
  have host : exec (c mode) s = .next (hostBar2 s (fun s => s.beginOp op mode.val)) := by
    simp only [List.mem_cons, Prod.mk.injEq, List.not_mem_nil, or_false] at hc
    obtain ⟨rfl, rfl⟩ | ⟨rfl, rfl⟩ | ⟨rfl, rfl⟩ := hc <;> rfl
  rw [host, hostBar2_of ho]

theorem State.beginOp_begins {s : State} {mode : Nat} (hb : s.mch.op = none)
    (hn : mode ≠ 0 ∨ (Cf.MCH_OP_CNT_lines s ≠ 0 ∧ Cf.MCH_OP_CNT_lines s ≤ 65536)) (op : Nat) :
    s.beginOp op mode = { s with mch := { s.mch with op := some (op, mode), written := 0, done := false } } :=
  (if_neg (by simp [hb])).trans (if_neg (by omega))

theorem State.beginOp_refused {s : State} {mode : Nat} (hb : s.mch.op = none) (hm : mode = 0)
    (hn : Cf.MCH_OP_CNT_lines s = 0 ∨ 65536 < Cf.MCH_OP_CNT_lines s) (op : Nat) :
    s.beginOp op mode = { s with mch := { s.mch with refused := true } } :=
  (if_neg (by simp [hb])).trans (if_pos ⟨hm, hn⟩)

theorem State.beginOp_busy {s : State} (hb : s.mch.op.isSome = true) (op mode : Nat) : s.beginOp op mode = s.accError 0 1 0x05001C :=
  if_pos hb

/-- The state once an operation has visited every line it names. -/
def State.visitLines (s : State) (op mode : Nat) (bad : List Nat) : State :=
  forEach (s.visits mode) (fun k t => t.visitLine op k bad) s

/-- A visited line, a write-back or a parity fault among them writes no register. -/
theorem State.reg_visitLines (s : State) (op mode : Nat) (bad : List Nat) (k : Nat) : (s.visitLines op mode bad).reg k = s.reg k :=
  congrArg (fun b => Bank.get regReset b k)
    (forEach_unchanged (f := State.regs) (fun line t => (State.visitLine_only t op line bad).at .regs rfl) _ s)

/-- An operation ends: it is no longer busy, and `whole` says that it invalidated the whole cache (R258, R265). -/
def State.endOp (s : State) (whole : Bool) : State :=
  ({ s with mch := { s.mch with op := none, done := true, invOk := s.mch.invOk || whole } } : State).setMchEvt 0

theorem State.endOp_mch (s : State) (whole : Bool) :
    (s.endOp whole).mch.op = none ∧ (s.endOp whole).mch.done = true ∧ (s.endOp whole).mch.invOk = (s.mch.invOk || whole) := by
  unfold State.endOp
  rw [State.setMchEvt_mch]
  exact ⟨rfl, rfl, rfl⟩

theorem exec_maintenanceOpDone_of {s : State} {op mode : Nat} (hr : s.running = true) (hb : s.mch.op = some (op, mode))
    (he : s.opMayEnd op = true) (bad : List Nat) : exec (.maintenanceOpDone bad) s = .next ((s.visitLines op mode bad).endOp
      (decide (mode = 1 ∧ 2 ≤ op) && bitN (s.reg Reg.MCH_OP_SW).toNat 24)) := by
  rw [← s.reg_visitLines op mode bad]
  refine congrArg Host.Outcome.next ((whenRunning_of hr).trans ?_)
  rw [hb]
  exact if_pos he

theorem exec_maintenanceOpDone_idle {s : State} (hb : s.mch.op = none) (bad : List Nat) : exec (.maintenanceOpDone bad) s = .next s :=
  congrArg Host.Outcome.next (whenRunning_same (by rw [hb]))

/-- Settles O9: each write of the cache's control is one guard; each way named is restored once, which leaves the others as they were,
and the visits of an operation write no register, so MCH.OP_SW still says at its end whether it named the whole cache. -/
theorem mapCacheControlAndMaintenance : Obligations.MapCacheControlAndMaintenance := by
  unfold Obligations.MapCacheControlAndMaintenance
  refine ⟨⟨fun v s ho hv he hi => exec_mchEnableWrite_refused ho hv he hi, fun v s ho h => exec_mchEnableWrite_of ho h,
      fun v s ho => ?_, fun way s hr => ?_⟩,
    fun c op hc mode s ho => ⟨fun hb hn => ?_, fun hb hm hn => ?_, fun hb => ?_⟩, fun bad s op mode hr hb he => ?_,
      fun bad s hb => exec_maintenanceOpDone_idle hb bad⟩
  · refine Answers.of_exec (exec_wayEn_of ho v) (execWayEn_only v s s) (fun w hw => ⟨?_, fun hv hoff e he hway => ?_⟩)
    · rw [State.bitN_off_restoreWays, decide_eq_true hw, Bool.true_and]
    · subst hway
      exact (State.mem_lines_restoreWays.mp he).2 ⟨hw, hv, hoff⟩
  · exact Answers.of_exec (exec_parityWindowExpiry_of hr way) (execParityWindowExpiry_only way s s)
      ⟨s.expireWindow, rfl, fun _ => by simp [State.expireWindow]⟩
  · rw [exec_goWrite_of hc ho, State.beginOp_begins hb hn]
  · rw [exec_goWrite_of hc ho, State.beginOp_refused hb hm hn]
  · rw [exec_goWrite_of hc ho, State.beginOp_busy hb]
  · obtain ⟨idle, done, whole⟩ := (s.visitLines op mode bad).endOp_mch (decide (mode = 1 ∧ 2 ≤ op) && bitN (s.reg Reg.MCH_OP_SW).toNat 24)
    refine Answers.of_exec (exec_maintenanceOpDone_of hr hb he bad) (execMaintenanceOpDone_only bad s s)
      ⟨idle, done, fun hm hop hsw => ?_⟩
    rw [whole, decide_eq_true ⟨hm, hop⟩, hsw]
    exact Bool.or_true _

end Sys2Proof.Machine
end

section
/-! SUPPORT. Admission of segments, formatting in turn, and filling a stripe (R284, R290 to R292). -/

namespace Sys2Proof.Machine

/-! ### SEGMENT_ADMIT (R290) -/

/-- A segment becomes active and joins the end of the rotation (R290). -/
def State.makeActive (s : State) (g : Segment) : State :=
  { s.modSeg g.num (fun x => { x with active := true }) with
    arc := { s.arc with active := s.arc.active ++ [g.num], idle := s.tm.mono } }

theorem exec_segmentAdmit_of {s : State} {g : Segment} (hs : s.serving = true) (hg : s.admissible = some g) :
    exec .segmentAdmit s = .next (s.makeActive g) := by
  refine congrArg Host.Outcome.next ((whenServing_of hs).trans ?_)
  rw [hg]
  rfl

theorem exec_segmentAdmit_waits {s : State} (hs : s.serving = true) (hg : s.admissible = none) :
    exec .segmentAdmit s = .next s.noteWaiting := by
  refine congrArg Host.Outcome.next ((whenServing_of hs).trans ?_)
  rw [hg]

/-! ### ARCHIVE_BLOCK_FORMAT (R291) -/

/-- A run of `n` blocks from `first` on that was placed from data slot `slot` on joins the pending entries; an empty one does not (R298). -/
def State.runPlaced (u : State) (g : Segment) (num first n slot : Nat) : State :=
  if n = 0 then u else u.pendRun ⟨g.inst, first = 0, first + n = g.blocks, n, num, first, slot⟩

/-- The turn of segment `num` ends after a run that was to place `want` blocks and placed all up to `last`, `n` of them (R291). -/
def State.endTurn (w : State) (g : Segment) (num : Nat) (rest : List Nat) (last n want : Nat) : State :=
  if n < want then
    (({ w with arc := { w.arc with active := rest } } : State).modSeg num (fun x => { x with broken := true, active := false })).note
      .segmentHeld num
  else if (List.range (g.blocks - last)).all (fun k => g.verified.contains (last + k)) then { w with arc := { w.arc with active := rest } }
  else { w with arc := { w.arc with active := rest ++ [num] } }

theorem all_verified_iff {g : Segment} {last : Nat} :
    (List.range (g.blocks - last)).all (fun k => g.verified.contains (last + k)) = true ↔
      ∀ k, last + k < g.blocks → last + k ∈ g.verified := by
  simp only [List.all_eq_true, List.mem_range, List.contains_iff_mem]
  exact forall_congr' (fun k => imp_congr_left (by omega))

section Turn
variable {w : State} {g : Segment} {num : Nat} {rest : List Nat} {last n want : Nat}

theorem State.endTurn_broken (h : n < want) : w.endTurn g num rest last n want =
    (({ w with arc := { w.arc with active := rest } } : State).modSeg num (fun x => { x with broken := true, active := false })).note
      .segmentHeld num := if_pos h

theorem State.endTurn_finished (h : want ≤ n) (hv : ∀ k, last + k < g.blocks → last + k ∈ g.verified) :
    w.endTurn g num rest last n want = { w with arc := { w.arc with active := rest } } :=
  (if_neg (Nat.not_lt.mpr h)).trans (if_pos (all_verified_iff.mpr hv))

theorem State.endTurn_again (h : want ≤ n) (hv : ∃ k, last + k < g.blocks ∧ last + k ∉ g.verified) :
    w.endTurn g num rest last n want = { w with arc := { w.arc with active := rest ++ [num] } } := by
  obtain ⟨k, hk, unverified⟩ := hv
  exact (if_neg (Nat.not_lt.mpr h)).trans (if_neg (fun all => unverified (all_verified_iff.mp all k hk)))

end Turn

section Format
variable {s : State} {num : Nat} {rest : List Nat} (hs : s.serving = true) (ha : s.arc.active = num :: rest)
  (hw : s.setWritable = true) (hr : s.arc.rebuilding = false) (reads : List NandRead)
include hs ha hw hr

theorem exec_archiveBlockFormat_of {u : State} {g : Segment} {first run n : Nat} (hg : s.findSeg num = some g)
    (ht : g.todo = (first, run)) (hrun : s.formatRun num reads first (min 96 run) = (n, u)) :
    exec (.archiveBlockFormat reads) s = .next (if (s.getInst g.inst).arcDur < (s.getInst g.inst).arcSeq + min 96 run then s
      else (u.runPlaced g num first n s.slotsUsed).endTurn g num rest (first + n) n (min 96 run)) := by
  refine congrArg Host.Outcome.next ((whenServing_of hs).trans ?_)
  rw [ha]
  refine (if_neg (by simp [hw, hr])).trans ?_
  rw [hg]
  dsimp only
  rw [ht]
  dsimp only
  rw [hrun]
  rfl

theorem exec_archiveBlockFormat_gone (hg : s.findSeg num = none) :
    exec (.archiveBlockFormat reads) s = .next { s with arc := { s.arc with active := rest } } := by
  refine congrArg Host.Outcome.next ((whenServing_of hs).trans ?_)
  rw [ha]
  refine (if_neg (by simp [hw, hr])).trans ?_
  rw [hg]

end Format

theorem exec_archiveBlockFormat_idle {s : State} (h : s.arc.active = [] ∨ s.setWritable = false ∨ s.arc.rebuilding = true)
    (reads : List NandRead) : exec (.archiveBlockFormat reads) s = .next s := by
  refine congrArg Host.Outcome.next (whenServing_same ?_)
  cases ha : s.arc.active with
  | nil => rfl
  | cons num rest =>
    have closed : s.setWritable = false ∨ s.arc.rebuilding = true := h.resolve_left (by simp [ha])
    exact if_pos (by rcases closed with h | h <;> simp [h])

/-! ### FILLER_TIMEOUT (R292) -/

theorem exec_fillerTimeout_of {s : State} (hs : s.serving = true) (ha : s.arc.active = []) (hp : s.arc.part ≠ [])
    (ht : s.arc.idle + Cf.ARC_CTL_fill_ms s ≤ s.tm.mono) : exec .fillerTimeout s = .next s.fillStripe :=
  congrArg Host.Outcome.next ((whenServing_of hs).trans (if_pos (by simp [ha, hp, ht])))

theorem exec_fillerTimeout_early {s : State}
    (h : s.arc.active ≠ [] ∨ s.arc.part = [] ∨ s.tm.mono < s.arc.idle + Cf.ARC_CTL_fill_ms s) : exec .fillerTimeout s = .next s :=
  congrArg Host.Outcome.next (whenServing_same (if_neg (by rcases h with h | h | h <;> simp [h])))

end Sys2Proof.Machine
end

section
/-! SUPPORT. ARCHIVE_DONE (R29, R97, R228): the segment is unpinned, and its message follows the flush of the UNPIN entry. -/

namespace Sys2Proof.Machine

/-- The units of segment `num` are archived, and its UNPIN entry waits for a flush (R29, R228). -/
def State.unpin (s : State) (g : Segment) (num : Nat) : State := (s.markUnits g).jAdd (.unpin g.inst num)

theorem forBelow_unchanged {β : Type} {f : State → β} {g : Nat → State → State} (hg : ∀ k t, f (g k t) = f t) (n : Nat)
    (s : State) : f (forBelow n g s) = f s := by
  induction n with
  | zero => rfl
  | succ k ih => exact (hg k _).trans ih

theorem State.markUnits_jMade (s : State) (g : Segment) : (s.markUnits g).fss.jMade = s.fss.jMade := by
  refine forBelow_unchanged (f := fun t => t.fss.jMade) (fun k t => ?_) _ s
  dsimp only
  split <;> rfl

theorem State.unpin_jMade (s : State) (g : Segment) (num : Nat) : (s.unpin g num).fss.jMade = s.fss.jMade + 1 :=
  congrArg (· + 1) (s.markUnits_jMade g)

section Done
variable {num : Nat} {s : State} {g : Segment}

theorem exec_archiveDone_pinned (hs : s.serving = true) (hg : s.findSeg num = some g) (hu : g.unpinAt = none) :
    exec (.archiveDone num) s = .next (if s.segVerified g && s.doneRoom g.inst then
      ((s.unpin g num).modSeg num (fun x => { x with unpinAt := some (s.unpin g num).fss.jMade, active := false })).refreshUsed g.inst
    else s) := by
  refine congrArg Host.Outcome.next ((whenServing_of hs).trans ?_)
  rw [hg]
  dsimp only
  rw [hu]
  rfl

theorem exec_archiveDone_unpinned {n : Nat} (hs : s.serving = true) (hg : s.findSeg num = some g) (hu : g.unpinAt = some n) :
    exec (.archiveDone num) s = .next (if n ≤ s.fss.jDone then s.postDone g else s) := by
  refine congrArg Host.Outcome.next ((whenServing_of hs).trans ?_)
  rw [hg]
  dsimp only
  rw [hu]

theorem exec_archiveDone_gone (hg : s.findSeg num = none) : exec (.archiveDone num) s = .next s :=
  congrArg Host.Outcome.next (whenServing_same (by rw [hg]))

end Done

/-- Settles O37: a turn of the rotation ends by how many blocks were placed and by those not verified; ARCHIVE_DONE is the branch of
its segment's UNPIN entry, and marking units leaves the count of journal entries alone. -/
theorem archiveIntakeAndDone : Obligations.ArchiveIntakeAndDone := by
  unfold Obligations.ArchiveIntakeAndDone
  refine ⟨⟨fun s hs => ⟨fun g hg => ?_, fun hg => exec_segmentAdmit_waits hs hg⟩,
      fun reads s u num n want first run rest g hs ha hw hr hg ht hwant => ?_,
      fun reads s num rest hs ha hw hr hg => exec_archiveBlockFormat_gone hs ha hw hr reads hg,
      fun reads s h => exec_archiveBlockFormat_idle h reads, fun s hs ha hp ht => exec_fillerTimeout_of hs ha hp ht,
      fun s h => exec_fillerTimeout_early h⟩,
    fun num s u g hs hg hn => ⟨fun hv hroom hu => ?_, fun h => ?_⟩, fun num s g n hs hg hn => ⟨fun hd => ?_, fun hd => ?_⟩,
    fun num s hg => exec_archiveDone_gone hg⟩
  · exact Answers.of_exec (exec_segmentAdmit_of hs hg) (execSegmentAdmit_only s s) ⟨rfl, rfl⟩
  · subst hwant
    refine ⟨fun hdur => ?_, fun hdur hrun w hplaced => ?_⟩
    · rw [exec_archiveBlockFormat_of hs ha hw hr reads hg ht rfl, if_pos hdur]
    · have placed : w = u.runPlaced g num first n s.slotsUsed := hplaced
      have turn := exec_archiveBlockFormat_of hs ha hw hr reads hg ht hrun
      rw [if_neg (Nat.not_lt.mpr hdur), ← placed] at turn
      exact ⟨fun hall hk => turn.trans (congrArg _ (State.endTurn_again hall hk)),
        fun hall hk => turn.trans (congrArg _ (State.endTurn_finished hall hk)),
        fun hfew => turn.trans (congrArg _ (State.endTurn_broken hfew))⟩
  · subst hu
    rw [exec_archiveDone_pinned hs hg hn, if_pos (by rw [hv, hroom]; rfl)]
    exact ⟨rfl, s.unpin_jMade g num⟩
  · rw [exec_archiveDone_pinned hs hg hn, if_neg (by rcases h with h | h <;> simp [h])]
  · rw [exec_archiveDone_unpinned hs hg hn, if_pos hd]
  · rw [exec_archiveDone_unpinned hs hg hn, if_neg (Nat.not_le.mpr hd)]

end Sys2Proof.Machine
end

section
/-! SUPPORT. Recording and verification of stripes, pending entries and drives treated as absent (R279, R293, R298, R305, R337). -/

namespace Sys2Proof.Machine

/-! ### STRIPE_RECORD_START (R279, R293) -/

/-- The lowest ready stripe `t` may begin: the set takes stripes, nothing holds recording back, and every write drive can burst (R293). -/
structure State.MayRecord (s : State) (t : Stripe) : Prop where
  lowest : lowestStripe s.arc.ready = some t
  writable : s.setWritable = true
  rebuilding : s.arc.rebuilding = false
  cool : s.sns.hot = false
  opc : s.opcHolds = false
  cal : s.calHolds = false
  room : s.arc.going.length < 8
  burst : s.writeDrives.all (fun d => s.canBurst d (pbaLayer t.pba)) = true

/-- A stripe leaves those ready and is in recording at the positions of the write drives (R293). -/
def State.toGoing (s : State) (t : Stripe) : State :=
  { s with arc := { s.arc with
      ready := s.arc.ready.filter (fun x => x.num ≠ t.num), next := max s.arc.next (t.num + 1),
      going := s.arc.going ++ [{ t with
        on := s.writeDrives.filterMap (fun d => s.posOf d), ok := [], bad := false,
        open_ := s.writeDrives.filterMap (fun d => s.posOf d) }] } }

/-- Drive `d` begins its slot of stripe `t` at its position; one without a position does nothing (R293). -/
def State.beginOn (t : Stripe) (d : Nat) (u : State) : State :=
  match u.posOf d with
  | some p => (u.beginSlot d t.num t.pba).emit (.slot d t.pba (blockContent (t.at p).2.2 (u.stripeAddr t p)) (u.shapes d))
  | none => u

theorem exec_stripeRecordStart_of {s : State} {t : Stripe} (hs : s.serving = true) (h : s.MayRecord t) :
    exec .stripeRecordStart s = .next (forEach s.writeDrives (State.beginOn t) (s.toGoing t)) := by
  refine congrArg Host.Outcome.next ((whenServing_of hs).trans ?_)
  rw [h.lowest]
  exact if_neg (by simp [h.writable, h.rebuilding, h.cool, h.opc, h.cal, h.room, h.burst])

theorem exec_stripeRecordStart_held {s : State} (h : ∀ t, ¬s.MayRecord t) : exec .stripeRecordStart s = .next s := by
  refine congrArg Host.Outcome.next (whenServing_same ?_)
  cases ht : lowestStripe s.arc.ready with
  | none => rfl
  | some t =>
    refine if_pos ?_
    by_contra may
    simp only [Bool.or_eq_true, Bool.not_eq_true', decide_eq_true_eq, not_or, Bool.not_eq_true, Bool.not_eq_false, Nat.not_le] at may
    obtain ⟨⟨⟨⟨⟨⟨hw, hr⟩, hh⟩, ho⟩, hc⟩, hg⟩, hb⟩ := may
    exact h t ⟨ht, hw, hr, hh, ho, hc, hg, hb⟩

/-! ### SLOT_VERIFY_RESULT (R337) -/

theorem exec_slotVerifyResult_of {d : Fin 4} {num p : Nat} {s : State} {t : Stripe} {r : Decoded} (hs : s.serving = true)
    (ht : s.arc.going.find? (fun t => t.num = num) = some t) (hp : s.posOf d.val = some p)
    (hr : (s.drive d.val).rdc.decoded = some r) (ho : t.open_.contains p = true) (ha : r.pba = t.pba) {good : Bool}
    (hgood : good = (s.verifies d.val r && decide (slice r.content 32832 64 = (s.stripeAddr t p).bytes))) {u : State}
    (hu : u = s.modDrive d.val (fun x => { x with
      rdc := { x.rdc with decoded := none, vfyFail := if good then x.rdc.vfyFail else inc16 x.rdc.vfyFail },
      wst := { (x.wst.judged (!good) (pbaLayer t.pba)) with burst := if x.wst.burst = some num then none else x.wst.burst } })) :
    exec (.slotVerifyResult d num) s = .next (if good then u.stripeGood num p else u.stripeBad num p).settle := by
  subst hu hgood
  refine congrArg Host.Outcome.next ((whenServing_of hs).trans ?_)
  dsimp only
  rw [ht, hp, hr]
  exact if_neg (by rw [ho, decide_eq_false (not_not_intro ha)]; exact Bool.false_ne_true)

/-- A slot whose stripe, position or decode is missing, or that is not open at the decoded address, is not judged (R337). -/
theorem exec_slotVerifyResult_none {d : Fin 4} {num : Nat} {s : State}
    (h : ∀ t p r, s.arc.going.find? (fun t => t.num = num) = some t → s.posOf d.val = some p →
      (s.drive d.val).rdc.decoded = some r → t.open_.contains p = false ∨ r.pba ≠ t.pba) : exec (.slotVerifyResult d num) s = .next s := by
  refine congrArg Host.Outcome.next (whenServing_same ?_)
  dsimp only
  split
  · rename_i t p r ht hp hr
    rcases h t p r ht hp hr with shut | elsewhere
    · exact if_pos (by rw [shut]; rfl)
    · exact if_pos (by rw [decide_eq_true elsewhere]; exact Bool.or_true _)
  · rfl

/-! ### PENDING_ENTRIES_WRITE and DEGRADED_DRIVE_TIMEOUT (R298, R305) -/

theorem exec_pendingEntriesWrite_of {s : State} (hs : s.serving = true) (hw : s.setWritable = true) (hd : s.pendingDue = true)
    (fails : Nat) : exec (.pendingEntriesWrite fails) s = .next (s.writePending fails).settle :=
  congrArg Host.Outcome.next ((whenServing_of hs).trans (if_pos (by rw [hw, hd]; rfl)))

theorem exec_pendingEntriesWrite_held {s : State} (h : s.setWritable = false ∨ s.pendingDue = false) (fails : Nat) :
    exec (.pendingEntriesWrite fails) s = .next s :=
  congrArg Host.Outcome.next (whenServing_same (if_neg (by rcases h with h | h <;> simp [h])))

section Degraded
variable {d : Fin 4} {s : State} {others : List Nat} (ho : others = s.writeDrives.filter (fun k => k ≠ d.val))
include ho

theorem exec_degradedDriveTimeout_of (hs : s.serving = true) (hw : s.setWritable = true) (hd : s.writeDrives.contains d.val = true)
    (hg : (s.drive d.val).wst.gate = false) (ht : (s.drive d.val).wst.shutSince + 1000 * Cf.ARC_DEG_tmo_s s ≤ s.tm.mono)
    (hl : others.length = 3) (hopen : others.all (fun k => s.gateOk k) = true) : exec (.degradedDriveTimeout d) s =
      .next (({ s with arc := { s.arc with absent := d.val :: s.arc.absent } } : State).note .driveAbsent d.val).settle := by
  subst ho
  exact congrArg Host.Outcome.next ((whenServing_of hs).trans (if_pos (by rw [hw, hd, hg, hl, hopen, decide_eq_true ht]; rfl)))

theorem exec_degradedDriveTimeout_held (h : s.setWritable = false ∨ (s.drive d.val).wst.gate = true ∨ others.length ≠ 3 ∨
      s.writeDrives.contains d.val = false ∨ s.tm.mono < (s.drive d.val).wst.shutSince + 1000 * Cf.ARC_DEG_tmo_s s ∨
      others.all (fun k => s.gateOk k) = false) : exec (.degradedDriveTimeout d) s = .next s := by
  subst ho
  refine congrArg Host.Outcome.next (whenServing_same (if_neg ?_))
  simp only [Bool.and_eq_true, Bool.not_eq_true', decide_eq_true_eq]
  rintro ⟨⟨⟨⟨⟨hw, hd⟩, hg⟩, ht⟩, hl⟩, hopen⟩
  rcases h with h | h | h | h | h | h
  · exact Bool.false_ne_true (h.symm.trans hw)
  · exact Bool.false_ne_true (hg.symm.trans h)
  · exact h hl
  · exact Bool.false_ne_true (h.symm.trans hd)
  · exact Nat.not_lt.mpr ht h
  · exact Bool.false_ne_true (h.symm.trans hopen)

end Degraded

end Sys2Proof.Machine
end

section
/-! SUPPORT. Optimum power calibration (R334 to R336): what falls due, and how a calibration begins and ends. -/

namespace Sys2Proof.Machine

/-- A calibration of every layer of a disc of `n` layers falls due, once each (R334). -/
def WriteStrategy.opcOn (n : Nat) (w : WriteStrategy) : WriteStrategy :=
  { w with opcDue := w.opcDue ++ (List.range n).filter (fun l => !w.opcDue.contains l) }

theorem WriteStrategy.mem_opcDue_opcOn {n k : Nat} {w : WriteStrategy} : k ∈ (w.opcOn n).opcDue ↔ k ∈ w.opcDue ∨ k < n := by
  simp only [WriteStrategy.opcOn, List.mem_append, List.mem_filter, List.mem_range, Bool.not_eq_true',
    List.contains_eq_mem, decide_eq_false_iff_not]
  tauto

theorem WriteStrategy.opcDue_opcOn_nodup {n : Nat} {w : WriteStrategy} (h : w.opcDue.Nodup) : (w.opcOn n).opcDue.Nodup :=
  h.append (List.nodup_range.filter _) (fun k due fresh => by
    have notDue := (List.mem_filter.mp fresh).2
    simp [due] at notDue)

theorem exec_opcGo_of {s : State} (hs : s.serving = true) (d : Fin 4) :
    exec (.opcGo d) s = .next (s.modWst d.val (WriteStrategy.opcOn (max 1 s.arc.layers))) :=
  congrArg Host.Outcome.next (whenServing_of hs)

/-- A due calibration of layer `l` ends untested, for the calibration area is full; `temp` is the drive's temperature (R336). -/
def WriteStrategy.opcUntested (l : Nat) (temp : Int) (w : WriteStrategy) : WriteStrategy :=
  { w with pcaFull := true, opcDue := w.opcDue.filter (fun x => x ≠ l), last := [], recMs := 0, opcTemp := temp }

section Run
variable {d : Fin 4} {layer : Fin 2} {s : State} (hs : s.serving = true)
include hs

theorem exec_opcRun_held (h : s.mayOpc d.val layer.val = false) : exec (.opcRun d layer none) s = .next s :=
  congrArg Host.Outcome.next ((whenServing_of hs).trans (if_pos (by rw [h]; rfl)))

theorem exec_opcRun_begins (h : s.mayOpc d.val layer.val = true) (hp : nth 0 (s.drive d.val).wst.pca layer.val ≠ 0) :
    exec (.opcRun d layer none) s = .next ((s.touchDrive d.val).modWst d.val (fun w => { w with opcBusy := true })) :=
  congrArg Host.Outcome.next ((whenServing_of hs).trans ((if_neg (by simp [h])).trans (if_neg hp)))

theorem exec_opcRun_untested (h : s.mayOpc d.val layer.val = true) (hp : nth 0 (s.drive d.val).wst.pca layer.val = 0) :
    exec (.opcRun d layer none) s = .next (s.modWst d.val (WriteStrategy.opcUntested layer.val (s.driveTemp d.val))) :=
  congrArg Host.Outcome.next ((whenServing_of hs).trans ((if_neg (by simp [h])).trans (if_pos hp)))

theorem exec_opcRun_means (f : List (Int × Int)) : exec (.opcRun d layer (some f)) s =
    .next (if (s.drive d.val).wst.opcBusy && decide ((s.drive d.val).layer = layer.val) then (s.endOpc d.val layer.val f).settle else s) :=
  congrArg Host.Outcome.next (whenServing_of hs)

end Run

/-- Settles O38: a stripe begins when all of `State.MayRecord` holds and at no other time; the other events are guards, and what falls
due by OPC_GO is what was due and every layer once. -/
theorem archiveRecordingAndPowerCalibration : Obligations.ArchiveRecordingAndPowerCalibration := by
  unfold Obligations.ArchiveRecordingAndPowerCalibration
  refine ⟨⟨fun s u t hs ht hw hr hh ho hc hg hb hu => ?_, fun s h => exec_stripeRecordStart_held (fun t may => ?_),
      fun d num s u t p r good hs ht hp hd ho ha hgood hu => exec_slotVerifyResult_of hs ht hp hd ho ha hgood hu,
      fun d num s h => exec_slotVerifyResult_none (fun t p r ht hp hd => ?_),
      fun fails s hs => ⟨fun hw hd => exec_pendingEntriesWrite_of hs hw hd fails, fun h => exec_pendingEntriesWrite_held h fails⟩,
      fun d s others hs ho => ⟨exec_degradedDriveTimeout_of ho hs, exec_degradedDriveTimeout_held ho⟩⟩,
    fun d s hs => ?_, fun d layer s hs => ⟨exec_opcRun_held hs, exec_opcRun_begins hs, fun h hp => ?_, fun f hbusy hl => ?_,
      fun f h => ?_⟩⟩
  · obtain ⟨ps, rfl, rfl⟩ := hu
    exact exec_stripeRecordStart_of hs ⟨ht, hw, hr, hh, ho, hc, hg, hb⟩
  · rcases h with h | h | h | h | h | h | h | h
    · exact Option.some_ne_none t (may.lowest.symm.trans h)
    · exact Bool.false_ne_true (h.symm.trans may.writable)
    · exact Bool.false_ne_true (may.rebuilding.symm.trans h)
    · exact Bool.false_ne_true (may.cool.symm.trans h)
    · exact Bool.false_ne_true (may.opc.symm.trans h)
    · exact Bool.false_ne_true (may.cal.symm.trans h)
    · exact Nat.not_lt.mpr h may.room
    · exact Bool.false_ne_true ((h t may.lowest).symm.trans may.burst)
  · rcases h with h | h | h | ⟨t', p', r', ht', hp', hd', h⟩
    · simp [h] at ht
    · simp [h] at hd
    · simp [h] at hp
    · obtain rfl : t' = t := Option.some.inj (ht'.symm.trans ht)
      obtain rfl : p' = p := Option.some.inj (hp'.symm.trans hp)
      obtain rfl : r' = r := Option.some.inj (hd'.symm.trans hd)
      exact h
  · exact Answers.of_exec (exec_opcGo_of hs d) (execOpcGo_only d s s) ⟨_, rfl, fun w => ⟨⟨_, rfl⟩,
      fun k hk => WriteStrategy.mem_opcDue_opcOn.mpr (Or.inr hk), WriteStrategy.opcDue_opcOn_nodup,
      fun k hk => WriteStrategy.mem_opcDue_opcOn.mpr (Or.inl hk)⟩⟩
  · exact Answers.of_exec (exec_opcRun_untested hs h hp) (execOpcRun_only d layer none s s) ⟨_, rfl, fun w => ⟨rfl, rfl, rfl⟩⟩
  · rw [exec_opcRun_means hs, if_pos (by rw [hbusy, decide_eq_true hl]; rfl)]
  · rw [exec_opcRun_means hs, if_neg (by rcases h with h | h <;> simp [h])]

end Sys2Proof.Machine
end

section
/-! SUPPORT. Loading, finalising and rebuilding a set (R299 to R302, R306, R485): each command by the stage it is in. -/

namespace Sys2Proof.Machine

/-! ### STRIPE_LOAD and STARTUP_SET_RELOAD (R299, R300, R485) -/

theorem exec_stripeLoad_of {id : Nat} {discs : List (Option DiscExam)} {set : SetExam} {fails : Nat} {s u : State} {c : Cmd} {st res : Nat}
    (h : s.Runs id .load c) (hl : (s.setFor c).loadSet (eArg0 c.entry) (decide (eByte c.entry 44 = 1)) discs set fails = (st, res, u)) :
    exec (.stripeLoad id discs set fails) s = .next (((u.complete c st res false).settle).setBack s) := by
  refine congrArg Host.Outcome.next ((withCmd_of h).trans ?_)
  rw [hl]

/-- The reload after a start-up is no longer due (R485). -/
def State.reloadTaken (s : State) : State := { s with arc := { s.arc with reloadDue := false } }

section Reload
variable {discs : List (Option DiscExam)} {set : SetExam} {s : State}

theorem exec_startupSetReload_held (h : s.arc.reloadDue = false ∨ s.drivesLocked = false) :
    exec (.startupSetReload discs set) s = .next s :=
  congrArg Host.Outcome.next (whenServing_same (if_pos (by rcases h with h | h <;> simp [h])))

variable (hs : s.serving = true) (hd : s.arc.reloadDue = true) (hl : s.drivesLocked = true)
include hs hd hl

theorem exec_startupSetReload_unnamed (hn : s.arc.named = 0) : exec (.startupSetReload discs set) s = .next s.reloadTaken :=
  congrArg Host.Outcome.next ((whenServing_of hs).trans ((if_neg (by simp [hd, hl])).trans (if_pos hn)))

theorem exec_startupSetReload_of {st res : Nat} {u : State} (hn : s.arc.named ≠ 0)
    (hu : s.reloadTaken.loadSet s.arc.named false discs set 0 = (st, res, u)) :
    exec (.startupSetReload discs set) s = .next (if st = stSuccess then u else (u.note .setLoadFailed st).noteWaiting).settle := by
  refine congrArg Host.Outcome.next ((whenServing_of hs).trans ((if_neg (by simp [hd, hl])).trans ((if_neg hn).trans ?_)))
  unfold State.reloadTaken at hu
  dsimp only
  rw [hu]

end Reload

/-! ### STRIPE_FINALIZE (R302) -/

/-- Admission stops, and the finalisation of command `k` begins (R302). -/
def State.startFinalize (s : State) (k : Cmd) (fails : Nat) : State :=
  ((({ s with arc := { s.arc with closing := true } } : State).setCmd k).goFinalize k fails).noteWaiting.settle

section Finalize
variable {id fails : Nat} {s : State} {c : Cmd} (hs : s.serving = true) (hf : s.findCmd id = some c) (hop : eOp c.entry = some .finalize)
include hs hf hop

theorem exec_stripeFinalize_media (hm : c.stage = .media) :
    exec (.stripeFinalize id fails) s = .next (s.goFinalize c fails).noteWaiting.settle := by
  refine congrArg Host.Outcome.next ((whenServing_of hs).trans ?_)
  rw [hf]
  exact (if_neg (not_not_intro hop)).trans (if_pos hm)

variable (hr : c.ready = true) (hm : c.stage ≠ .media)
include hr hm

theorem exec_stripeFinalize_of : exec (.stripeFinalize id fails) s = .next (
    if !s.arc.loaded || decide (s.arc.setId ≠ eArg0 c.entry) then s.complete c stAbsent (eArg0 c.entry) false
    else if s.arc.finalised || (!s.setWritable && !s.arc.full) then s.complete c stState (s.getInst 0).state.code false
    else s.startFinalize { c with stage := .media, aux := b2n s.arc.full } fails) := by
  refine congrArg Host.Outcome.next ((whenServing_of hs).trans ?_)
  rw [hf]
  exact (if_neg (not_not_intro hop)).trans ((if_neg hm).trans (if_neg (by simp [hr])))

end Finalize

theorem exec_stripeFinalize_none {id : Nat} {s : State} (hf : s.findCmd id = none) (fails : Nat) :
    exec (.stripeFinalize id fails) s = .next s :=
  congrArg Host.Outcome.next (whenServing_same (by rw [hf]))

/-! ### STRIPE_REBUILD (R306) -/

section Rebuild
variable {id : Nat} {disc : Option DiscExam} {rebuilds : Nat} {reads : List (List (Option (List Byte)))} {s : State} {c : Cmd}
  (hs : s.serving = true) (hf : s.findCmd id = some c) (hop : eOp c.entry = some .rebuild)
include hs hf hop

/-- STRIPE_REBUILD is taken up for the first time: the structures of the new disc are written, where it is usable (R306). -/
theorem exec_stripeRebuild_of {u : State} (hr : c.ready = true) (hm : c.stage ≠ .media)
    (hu : u = { s with arc := { s.arc with rebuilding := true, lost := 0, redone := 0 } }) :
    exec (.stripeRebuild id disc rebuilds reads) s = .next (if s.rebuildOk (eArg0 c.entry) (eByte c.entry 44) disc then
      (u.rebuildStructs (eByte c.entry 44) u.missingPos (rebuilds + 1)).setCmd { c with stage := .media, aux := 0 }
    else s.complete c stState (s.getInst 0).state.code false) := by
  subst hu
  refine congrArg Host.Outcome.next ((whenServing_of hs).trans ?_)
  rw [hf]
  refine (if_neg (not_not_intro hop)).trans ((if_neg hm).trans ((if_neg (by simp [hr])).trans ?_))
  cases s.rebuildOk (eArg0 c.entry) (eByte c.entry 44) disc <;> rfl

theorem exec_stripeRebuild_media {u : State} {n : Nat} (hm : c.stage = .media)
    (hu : (n, u) = State.rebuildStripes (eByte c.entry 44) s.missingPos reads c.aux s) :
    exec (.stripeRebuild id disc rebuilds reads) s = .next (if u.arc.form ≤ n ∧ u.arc.going.isEmpty then
      ((u.setCmd { c with aux := n }).endRebuild { c with aux := n } (eByte c.entry 44) s.missingPos).noteWaiting.settle
    else u.setCmd { c with aux := n }) := by
  refine congrArg Host.Outcome.next ((whenServing_of hs).trans ?_)
  rw [hf]
  refine (if_neg (not_not_intro hop)).trans ((if_pos hm).trans ?_)
  dsimp only
  rw [← hu]

end Rebuild

theorem exec_stripeRebuild_none {id : Nat} {s : State} (hf : s.findCmd id = none) (disc : Option DiscExam) (rebuilds : Nat)
    (reads : List (List (Option (List Byte)))) : exec (.stripeRebuild id disc rebuilds reads) s = .next s :=
  congrArg Host.Outcome.next (whenServing_same (by rw [hf]))

/-- Settles O39: a load completes by its outcome; finalising and rebuilding have one equation for the first serving and one for each
later serving, whose branches are the clauses. -/
theorem setCommands : Obligations.SetCommands := by
  unfold Obligations.SetCommands
  refine ⟨fun id discs set fails s c h st res u hl => exec_stripeLoad_of h hl,
    fun discs set s hs => ⟨exec_startupSetReload_held, exec_startupSetReload_unnamed hs,
      fun hd hl hn st res u hu => ⟨fun hst => ?_, fun hst => ?_⟩⟩,
    fun id fails s c hs hf hop => ⟨exec_stripeFinalize_media hs hf hop, fun hr hm => ⟨fun h => ?_, fun hl hid h => ?_,
      fun hl hid hfin h k hk => ?_⟩⟩,
    fun id disc rebuilds reads s u c d hs hf hop hr hm hd => ⟨fun hok => ?_, fun hok hu => ?_⟩,
    fun id disc rebuilds reads s u v c k d p n hs hf hop hm hd hp hu hk hv => ⟨fun hn hg => ?_, fun h => ?_⟩,
    fun id s hf => ⟨exec_stripeFinalize_none hf, exec_stripeRebuild_none hf,
      fun discs set fails => congrArg Host.Outcome.next (withCmd_of_none hf)⟩⟩
  · rw [exec_startupSetReload_of hs hd hl hn hu, if_pos hst]
  · rw [exec_startupSetReload_of hs hd hl hn hu, if_neg hst]
  · rw [exec_stripeFinalize_of hs hf hop hr hm, if_pos (by rcases h with h | h <;> simp [h])]
  · rw [exec_stripeFinalize_of hs hf hop hr hm, if_neg (by simp [hl, hid]), if_pos (by rcases h with h | ⟨hw, hfull⟩ <;> simp [*])]
  · subst hk
    rw [exec_stripeFinalize_of hs hf hop hr hm, if_neg (by simp [hl, hid]), if_neg (by rcases h with h | h <;> simp [hfin, h])]
    rfl
  · subst hd
    rw [exec_stripeRebuild_of hs hf hop hr hm rfl, if_neg (by rw [hok]; exact Bool.false_ne_true)]
  · subst hd
    rw [exec_stripeRebuild_of hs hf hop hr hm hu, if_pos hok]
  · subst hd hp hk hv
    rw [exec_stripeRebuild_media hs hf hop hm hu, if_pos ⟨hn, List.isEmpty_iff.mpr hg⟩]
  · subst hd hp hk hv
    rw [exec_stripeRebuild_media hs hf hop hm hu,
      if_neg (fun ⟨hn, hg⟩ => h.elim (Nat.not_lt.mpr hn) (fun going => going (List.isEmpty_iff.mp hg)))]

end Sys2Proof.Machine
end

section
/-! SUPPORT. Samples of the servo axes and of the limit groups, on time and late (R339, R359, R365, R366). -/

namespace Sys2Proof.Machine

/-- The tick of axis `a`, computed by its role; a tracking axis whose fault of the source is held computes nothing (R339, R357). -/
def State.axisTick (s : State) (a : Nat) (adc : List Pickup) (since : Nat) (held : Bool) : State :=
  if a % 4 = 0 then s.focTick (a / 4) adc
  else if a % 4 = 1 then (if held then s else s.trkSample (a / 4))
  else if a % 4 = 2 then s.spnSample (a / 4) since
  else s.sldSample (a / 4)

section Sample
variable {a : Axis} {adc : List Pickup} {since : Nat} {ns : BitVec 16} {s : State}

theorem exec_servoSample_onTime {u t : State} {held : Bool} (hs : s.serving = true) (hn : s.onTimeBy a.val ns.toNat = true)
    (hu : u = s.judgeSource a.val) (hh : held = (decide (a.val % 4 < 2) && u.defHeld a.val))
    (ht : t = (u.axisTick a.val adc since held).noteTime a.val ns.toNat) : exec (.servoSample a adc since ns) s =
      .next (if held then t else t.modAxis a.val (fun x => { x with lateRun := 0 })).settle := by
  subst hu hh ht
  refine congrArg Host.Outcome.next ((whenServing_of hs).trans ((if_neg (by simp [hn])).trans ?_))
  have role : a.val % 4 = 0 ∨ a.val % 4 = 1 ∨ a.val % 4 = 2 ∨ a.val % 4 = 3 := by omega
  unfold State.axisTick
  dsimp only
  rcases role with h | h | h | h <;> rw [h] <;> rfl

theorem exec_servoSample_late (hn : s.onTimeBy a.val ns.toNat = false) : exec (.servoSample a adc since ns) s = .next s :=
  congrArg Host.Outcome.next (whenServing_same (if_pos (by rw [hn]; rfl)))

theorem exec_servoSampleDeadline_of {u w : State} (hs : s.serving = true) (hc : (s.axis a.val).computes = true)
    (hu : u = (s.modAxis a.val (fun x => { x with lateRun := min 3 (x.lateRun + 1), lateCnt := inc16 x.lateCnt, onTime := 0 })).alarmRise 4)
    (hw : w = if decide (a.val % 4 < 2) && (u.drive (a.val / 4)).wst.gate then u.closeGate (a.val / 4) else u) :
    exec (.servoSampleDeadline a ns) s =
      .next (if 2 ≤ (s.axis a.val).lateRun ∧ (s.axis a.val).st ≠ .lateOpen then w.lateOpen a.val ns.toNat else w).settle := by
  subst hu hw
  exact congrArg Host.Outcome.next ((whenServing_of hs).trans (if_neg (by simp [hc])))

theorem exec_servoSampleDeadline_idle (hc : (s.axis a.val).computes = false) : exec (.servoSampleDeadline a ns) s = .next s :=
  congrArg Host.Outcome.next (whenServing_same (if_pos (by rw [hc]; rfl)))

end Sample

theorem exec_limitGroupSample_of {s : State} (hs : s.serving = true) (d : Fin 4) (laser : Bool) (ma : BitVec 16) :
    exec (.limitGroupSample d laser ma) s = .next (if laser then s.laserGroup d.val else s.spinGroup d.val ma.toNat) :=
  congrArg Host.Outcome.next (whenServing_of hs)

end Sys2Proof.Machine
end

section
/-! SUPPORT. Heron's timers of the servo and the sled (R356, R357, R363, R403, R410). -/

namespace Sys2Proof.Machine

/-- The meter after a bin of 100 ms: the bytes counted stand first of at most ten bins, and counting begins again (R356). -/
def RateMeter.shifted (r : RateMeter) : RateMeter :=
  ⟨(r.acc :: r.bins).take 10, 0, ((r.acc :: r.bins).take 10).foldl (fun a b => a + b) 0 / 1000⟩

theorem RateMeter.shifted_bins_le (r : RateMeter) : r.shifted.bins.length ≤ 10 := List.length_take_le 10 _

theorem exec_rateMeterBin_of {s : State} (hs : s.serving = true) : exec .rateMeterBin s = .next { s with rate := s.rate.shifted } :=
  congrArg Host.Outcome.next (whenServing_of hs)

section HoldExpiry
variable {a : Axis} {s : State}

theorem exec_sourceFaultHoldExpiry_of (hs : s.serving = true) (hf : (s.axis a.val).srcFault = true)
    (ht : (s.axis a.val).faultSince + Cf.SRV_SP_CFG_hold_ms s a.val ≤ s.tm.mono) :
    exec (.sourceFaultHoldExpiry a) s = .next (s.modAxis a.val (fun x => { x with heldOver := true })) :=
  congrArg Host.Outcome.next ((whenServing_of hs).trans (if_pos (by rw [hf, decide_eq_true ht]; rfl)))

theorem exec_sourceFaultHoldExpiry_early (h : (s.axis a.val).srcFault = false ∨
      s.tm.mono < (s.axis a.val).faultSince + Cf.SRV_SP_CFG_hold_ms s a.val) : exec (.sourceFaultHoldExpiry a) s = .next s :=
  congrArg Host.Outcome.next (whenServing_same (if_neg (by rcases h with h | h <;> simp [h])))

end HoldExpiry

section SledTimers
variable {d : Fin 4} {s : State}

theorem exec_boostDecay_of (hs : s.serving = true)
    (ht : (s.drive d.val).sled.lastDecl + 1000 * Cf.SLD_CUR2_decay_s s d.val ≤ s.tm.mono) : exec (.boostDecay d) s =
      .next (s.modSled d.val (fun l => { l with boost := l.boost - Cf.SLD_CUR2_step s d.val, lastDecl := s.tm.mono })) :=
  congrArg Host.Outcome.next ((whenServing_of hs).trans (if_pos ht))

theorem exec_boostDecay_early (ht : s.tm.mono < (s.drive d.val).sled.lastDecl + 1000 * Cf.SLD_CUR2_decay_s s d.val) :
    exec (.boostDecay d) s = .next s :=
  congrArg Host.Outcome.next (whenServing_same (if_neg (Nat.not_le.mpr ht)))

theorem exec_sledArrivalReport_early (h : (s.drive d.val).sled.report = none ∨
      ∃ t, (s.drive d.val).sled.report = some t ∧ s.tm.mono < t) : exec (.sledArrivalReport d) s = .next s := by
  refine congrArg Host.Outcome.next (whenServing_same ?_)
  dsimp only
  rcases h with h | ⟨t, h, ht⟩
  · rw [h]
  · rw [h]
    exact if_pos ht

/-- An arrival whose report is due, in a long seek or outside one. -/
theorem exec_sledArrivalReport_due {t : Nat} {u : State} (hs : s.serving = true) (hr : (s.drive d.val).sled.report = some t)
    (ht : t ≤ s.tm.mono) (hu : u = s.modSled d.val (fun l => { l with report := none })) : exec (.sledArrivalReport d) s =
      .next (if (u.drive d.val).seq = .long then ((u.modDrive d.val (fun r => { r with
        seq := .none, confirm := true, landed := true, track := r.target })).closeAxis (axisOf d.val 1)).settle else u) := by
  subst hu
  refine congrArg Host.Outcome.next ((whenServing_of hs).trans ?_)
  dsimp only
  rw [hr]
  refine (if_neg (Nat.not_lt.mpr ht)).trans ?_
  split
  case h_1 long => rw [if_pos long]
  case h_2 noSeek => rw [if_neg noSeek]

end SledTimers

/-- Settles O30: a sample on time is the tick of its axis by role, and whether its run of late ones ends turns on the held source; each
timer is one guard. -/
theorem servoSamplesAndTimers : Obligations.ServoSamplesAndTimers := by
  unfold Obligations.ServoSamplesAndTimers
  refine ⟨⟨fun a adc since ns s u t held hs hn hu hh ht => ?_, fun a adc since ns s hn => exec_servoSample_late hn,
      fun a ns s u w hs hc hu hw => ⟨fun hl ho => ?_, fun h => ?_⟩, fun a ns s hc => exec_servoSampleDeadline_idle hc,
      fun d ma s hs => ⟨exec_limitGroupSample_of hs d true ma, exec_limitGroupSample_of hs d false ma⟩⟩,
    fun s hs => ?_, fun a s hs => ⟨exec_sourceFaultHoldExpiry_of hs, exec_sourceFaultHoldExpiry_early⟩,
    fun d s hs => ⟨fun ht => ?_, exec_boostDecay_early⟩,
    fun d s hs => ⟨fun t u hr ht hu => ⟨fun hq => ?_, fun hq => ?_⟩,
      exec_sledArrivalReport_early⟩⟩
  · have sample := exec_servoSample_onTime hs hn hu hh ht
    refine ⟨fun h => ?_, fun h => ?_⟩
    · rw [sample, if_pos h]
    · rw [sample, if_neg (by rw [h]; exact Bool.false_ne_true)]
  · rw [exec_servoSampleDeadline_of hs hc hu hw, if_pos ⟨hl, ho⟩]
  · rw [exec_servoSampleDeadline_of hs hc hu hw,
      if_neg (fun ⟨third, notOpen⟩ => h.elim (Nat.not_lt.mpr third) notOpen)]
  · exact Answers.of_exec (exec_rateMeterBin_of hs) (execRateMeterBin_only s s) ⟨rfl, rfl, s.rate.shifted_bins_le, rfl⟩
  · exact Answers.of_exec (exec_boostDecay_of hs ht) (execBoostDecay_only d s s) ⟨_, rfl, fun _ => rfl⟩
  · rw [exec_sledArrivalReport_due hs hr ht hu, if_neg hq]
  · rw [exec_sledArrivalReport_due hs hr ht hu, if_pos hq]

end Sys2Proof.Machine
end

section
/-! SUPPORT. Seeks and their confirmation (R362 to R364). -/

namespace Sys2Proof.Machine

/-- SEEK takes tracking under host control and notes the target, with no seek failed yet (R362, R364). -/
def State.seekTaken (s : State) (d : Nat) : State :=
  ((s.take (axisOf d 1)).touchDrive d).modDrive d (fun r => { r with
    target := pbaWobble (Cf.SRV_SEEK_target ((s.take (axisOf d 1)).touchDrive d) (axisOf d 1)), failed := 0 })

/-- What a new target does to the sequence that runs: none begins one, a long seek turns at once, a short one waits (R364). -/
def State.seekOn (u : State) (d now : Nat) : State :=
  match (u.drive d).seq with
  | .short _ _ _ _ => u
  | .long => u.sledSeekTo d
  | .none => ((u.modDrive d (fun r => { r with track := now })).seek d false).settle
  | _ => u

section Seek
variable {u : State} {d now : Nat}

theorem State.seekOn_none (hq : (u.drive d).seq = .none) :
    u.seekOn d now = ((u.modDrive d (fun r => { r with track := now })).seek d false).settle := by
  unfold State.seekOn
  rw [hq]

theorem State.seekOn_long (hq : (u.drive d).seq = .long) : u.seekOn d now = u.sledSeekTo d := by
  unfold State.seekOn
  rw [hq]

theorem State.seekOn_short {a b c e} (hq : (u.drive d).seq = .short a b c e) : u.seekOn d now = u := by
  unfold State.seekOn
  rw [hq]

end Seek

theorem exec_seek_of {d : Fin 4} {now : Nat} {s u : State} (hs : s.serving = true) (hu : u = s.seekTaken d.val) :
    exec (.seek d now) s = .next (u.seekOn d.val now) := by
  subst hu
  exact congrArg Host.Outcome.next (whenServing_of hs)

/-- What the `n`th confirmation missed by `dist` tracks leads to: two seeks, a long one, three short ones, and tracking fails (R364). -/
def State.seekMissed (s : State) (d n : Nat) (dist : Int) : State :=
  if n < 3 then s.seek d false
  else if n = 3 then s.seek d true
  else if n ≤ 6 then s.shortSeek d dist
  else (s.openTrk d .fail).note .seekFailed (axisOf d 1)

section Missed
variable {s : State} {d n : Nat} {dist : Int}

theorem State.seekMissed_first (h : n < 3) : s.seekMissed d n dist = s.seek d false := if_pos h

theorem State.seekMissed_third : s.seekMissed d 3 dist = s.seek d true := by
  unfold State.seekMissed
  rw [if_neg (by omega), if_pos rfl]

theorem State.seekMissed_later (h : 3 < n) (h' : n ≤ 6) : s.seekMissed d n dist = s.shortSeek d dist := by
  unfold State.seekMissed
  rw [if_neg (by omega), if_neg (by omega), if_pos h']

theorem State.seekMissed_last (h : 6 < n) : s.seekMissed d n dist = (s.openTrk d .fail).note .seekFailed (axisOf d 1) := by
  unfold State.seekMissed
  rw [if_neg (by omega), if_neg (by omega), if_neg (by omega)]

end Missed

section Confirm
variable {d : Fin 4} {now : Nat} {s : State}

theorem exec_seekConfirm_idle (hc : (s.drive d.val).confirm = false) : exec (.seekConfirm d now) s = .next s :=
  congrArg Host.Outcome.next (whenServing_same (if_pos (by rw [hc]; rfl)))

/-- A confirmation that is due: of the arrival of a long seek, of the track sought, or of a miss. -/
theorem exec_seekConfirm_due {v : State} {r : Machine.Drive} {dist : Int} (hs : s.serving = true) (hr : r = s.drive d.val)
    (hc : r.confirm = true) (hd : dist = trackDist now r.target (s.zoneW d.val r.layer (slotZone r.layer (now / slotWobbles))))
    (hv : v = s.modDrive d.val (fun r => { r with confirm := false, landed := false, track := now })) : exec (.seekConfirm d now) s =
      .next (if dist ≠ 0 ∧ r.landed = true then (v.shortSeek d.val dist).settle
        else if dist = 0 then v.modDrive d.val (fun r => { r with failed := 0 })
        else ((v.modDrive d.val (fun x => { x with failed := r.failed + 1 })).seekMissed d.val (r.failed + 1) dist).settle) := by
  subst hr hd hv
  exact congrArg Host.Outcome.next ((whenServing_of hs).trans (if_neg (by simp [hc])))

end Confirm

end Sys2Proof.Machine
end

section
/-! SUPPORT. The channel clock, the measurement of a zone and the samples of a slot (R307 to R311). -/

namespace Sys2Proof.Machine

section Clock
variable {d : Fin 4} {s : State}

theorem exec_channelClockLockChange_of {errs : List (BitVec 8)} {kbps : BitVec 18} {u : State} (hs : s.serving = true)
    (hd : s.hasDisc d.val = true) (hu : u = s.modRdc d.val (fun c => { errs.foldl ReadChannel.wobble c with kbps := kbps.toNat })) :
    exec (.channelClockLockChange d errs kbps) s =
      .next (if (u.drive d.val).rdc.clkLock && u.rateOk d.val then u else u.abandonSlot d.val).settle := by
  subst hu
  exact congrArg Host.Outcome.next ((whenServing_of hs).trans (if_neg (by simp [hd])))

theorem exec_channelClockLockChange_noDisc (hd : s.hasDisc d.val = false) (errs : List (BitVec 8)) (kbps : BitVec 18) :
    exec (.channelClockLockChange d errs kbps) s = .next s :=
  congrArg Host.Outcome.next (whenServing_same (if_pos (by rw [hd]; rfl)))

theorem exec_zoneWobbleMeasure_of (hs : s.serving = true) (hd : s.hasDisc d.val = true) (layer : Fin 2) (zone : Fin 40)
    (periods : BitVec 24) : exec (.zoneWobbleMeasure d layer zone periods) s = .next (s.modRdc d.val (fun c =>
      { c with zw := Bank.set natDef c.zw (layer.val * 64 + zone.val) ((periods.toNat + 4) / 8) })) :=
  congrArg Host.Outcome.next ((whenServing_of hs).trans (if_pos hd))

theorem exec_zoneWobbleMeasure_noDisc (hd : s.hasDisc d.val = false) (layer : Fin 2) (zone : Fin 40) (periods : BitVec 24) :
    exec (.zoneWobbleMeasure d layer zone periods) s = .next s :=
  congrArg Host.Outcome.next (whenServing_same (if_neg (by rw [hd]; exact Bool.false_ne_true)))

end Clock

/-- The receiver that the samples meet: of the slot that begins with them, or of the slot it has (R315). -/
def ReadChannel.rxAt (c : ReadChannel) (k : RxCfg) : Option (BitVec 21) → Rx
  | some p => c.rx.begin k p.toNat
  | none => c.rx

/-- A slot that begins notes its address as the track (R311). -/
def State.slotNoted (s : State) (d : Nat) : Option (BitVec 21) → State
  | some p => s.modDrive d (fun r => { r with track := pbaWobble p.toNat })
  | none => s

/-- The channel after the samples `rf`, which its receiver `x` took one by one; with `new` they begin a slot. -/
def ReadChannel.sampled (k : RxCfg) (x : Rx) (rf : List RfSample) (new : Bool) (c : ReadChannel) : ReadChannel :=
  { c with
    rx := (rf.foldl (Rx.step k) (x, 0)).1
    decoded := if new then none else c.decoded
    idErr := satU 16 (c.idErr + (rf.foldl (Rx.step k) (x, 0)).2)
    rfLoss := satU 16 (c.rfLoss + ((rf.foldl (Rx.step k) (x, 0)).1.loss - x.loss))
    ovr := satU 16 (c.ovr + overrange rf) }

section Frame
variable {d : Fin 4} {start : Option (BitVec 21)} {rf : List RfSample} {s : State}

theorem exec_frameSync_idle (h : (s.drive d.val).rdc.started = false ∨ s.rateOk d.val = false) :
    exec (.frameSync d start rf) s = .next s :=
  congrArg Host.Outcome.next (whenServing_same (if_pos (by rcases h with h | h <;> simp [h])))

/-- FRAME_SYNC of a started channel, with the address of its slot or before a first one. -/
theorem exec_frameSync_started {x : Rx} (hs : s.serving = true) (hc : (s.drive d.val).rdc.started = true)
    (hr : s.rateOk d.val = true) (hx : x = (s.drive d.val).rdc.rxAt (s.rxCfg d.val) start) : exec (.frameSync d start rf) s =
      .next (if x.pba.isNone then s
        else (s.slotNoted d.val start).modRdc d.val (ReadChannel.sampled (s.rxCfg d.val) x rf start.isSome)) := by
  subst hx
  refine congrArg Host.Outcome.next ((whenServing_of hs).trans ((if_neg (by simp [hc, hr])).trans ?_))
  cases start <;> rfl

end Frame

/-- Settles O36: a seek goes by the sequence that runs, a due confirmation by its distance, its landing and its misses; the receiver's
samples are one fold, over the slot that begins or goes on. -/
theorem seekAndReadChannel : Obligations.SeekAndReadChannel := by
  unfold Obligations.SeekAndReadChannel
  refine ⟨fun d now s u hs hu => ⟨fun hq => ?_, fun hq => ?_, fun a b c e hq => ?_⟩,
    fun d now s u v r dist n hs hr hc hd hn hv hu => ?_, fun d now s hc => exec_seekConfirm_idle hc,
    fun d errs kbps s u hs hd hu => ⟨fun hl hr => ?_, fun h => ?_⟩,
    fun d layer zone periods s hs hd => exec_zoneWobbleMeasure_of hs hd layer zone periods,
    fun d s hd => ⟨exec_channelClockLockChange_noDisc hd, exec_zoneWobbleMeasure_noDisc hd⟩,
    fun d start rf s h => exec_frameSync_idle h, fun d start rf s c x hs hc hst hr hx => ?_⟩
  · rw [exec_seek_of hs hu, State.seekOn_none hq]
  · rw [exec_seek_of hs hu, State.seekOn_long hq]
  · rw [exec_seek_of hs hu, State.seekOn_short hq]
  · have due := exec_seekConfirm_due hs hr hc hd hv
    subst hn hu
    refine ⟨fun h0 => ?_, fun h0 hl => ?_, fun h0 hl hn => ?_, fun h0 hl hn => ?_, fun h0 hl hn hn' => ?_, fun h0 hl hn => ?_⟩
    · rw [due, if_neg (fun h => h.1 h0), if_pos h0]
    · rw [due, if_pos ⟨h0, hl⟩]
    · rw [due, if_neg (by simp [hl]), if_neg h0, State.seekMissed_first hn]
    · rw [due, if_neg (by simp [hl]), if_neg h0, hn, State.seekMissed_third]
    · rw [due, if_neg (by simp [hl]), if_neg h0, State.seekMissed_later hn hn']
    · rw [due, if_neg (by simp [hl]), if_neg h0, State.seekMissed_last hn]
  · rw [exec_channelClockLockChange_of hs hd hu, if_pos (by rw [hl, hr]; rfl)]
  · rw [exec_channelClockLockChange_of hs hd hu, if_neg (by rcases h with h | h <;> simp [h])]
  · subst hc
    have begun : x = (s.drive d.val).rdc.rxAt (s.rxCfg d.val) start := by
      cases start <;> exact hx
    have sync := exec_frameSync_started (rf := rf) hs hst hr begun
    refine ⟨fun known => ?_, fun unknown => ?_⟩
    · rw [if_neg (by simp [Option.isSome_iff_ne_none.mp known])] at sync
      exact Answers.of_exec sync (execFrameSync_only d start rf s s)
        ⟨ReadChannel.sampled (s.rxCfg d.val) x rf start.isSome, by cases start <;> rfl, fun k => ⟨rfl, rfl, rfl, rfl, rfl⟩⟩
    · rw [sync, if_pos (by simpa using unknown)]

end Sys2Proof.Machine
end

section
/-! SUPPORT. Commands on a servo axis (R348, R350 to R352, R360, R361). -/

namespace Sys2Proof.Machine

section Axis
variable {a : Axis} {s : State} (hs : s.serving = true)
include hs

theorem exec_swap_of (v : Word) : exec (.swap a v) s =
    .next (if fld v 0 1 = 1 then s.modAxis a.val (fun x => { x with swapPending := true }) else s) :=
  congrArg Host.Outcome.next (whenServing_of hs)

theorem exec_openAxis_of : exec (.openAxis a) s = .next ((s.take a.val).openAxis a.val .opened).settle :=
  congrArg Host.Outcome.next (whenServing_of hs)

theorem exec_releaseToHeron_of : exec (.releaseToHeron a) s = .next (s.modAxis a.val (fun x => { x with manual := false })) :=
  congrArg Host.Outcome.next (whenServing_of hs)

theorem exec_closeAxis_of {u : State} (hu : u = s.take a.val) : exec (.closeAxis a) s =
    .next (if (u.axis a.val).st = .ramp ∨ (u.axis a.val).st = .closed ∨ (a.val % 4 = 2 ∧ (u.drive (a.val / 4)).spin.st ≠ .run) then u
      else (if a.val % 4 = 0 then u.closeFoc (a.val / 4) (u.drive (a.val / 4)).layer else u.closeAxis a.val).settle) := by
  subst hu
  exact congrArg Host.Outcome.next (whenServing_of hs)

end Axis

section Layer
variable {d : Fin 4} {layer : Fin 2} {s u : State} (hs : s.serving = true) (hu : u = s.take (axisOf d.val 0))
include hs hu

theorem exec_acquire_of : exec (.acquire d layer) s =
    .next ((if ((u.drive d.val).axis 0).st = .ramp ∨ ((u.drive d.val).axis 0).st = .closed then u.openFoc d.val .opened else u).acquire
      d.val layer.val).settle := by
  subst hu
  exact congrArg Host.Outcome.next (whenServing_of hs)

theorem exec_layerJump_of : exec (.layerJump d layer) s =
    .next (if (u.axis (axisOf d.val 0)).st = .ramp ∨ (u.axis (axisOf d.val 0)).st = .closed then
      (((u.openTrk d.val .opened).modDrive d.val (fun r => { r with
        seq := .jump layer.val .kick 0 0 (u.axis (axisOf d.val 0)).out })).modAxis (axisOf d.val 0)
          (fun x => { x with st := .seq, locked := false, lockCnt := 0 })).settle else u) := by
  subst hu
  exact congrArg Host.Outcome.next (whenServing_of hs)

end Layer

theorem exec_layerJumpTimeout_of {d : Fin 4} {s : State} {layer t all : Nat} {ph : JumpStep} {base : Int} (hs : s.serving = true)
    (hq : (s.drive d.val).seq = .jump layer ph t all base) : exec (.layerJumpTimeout d) s =
      .next (if Cf.SRV_JUMP2_tmo_us s (axisOf d.val 0) ≤ 5 * all then (s.acquire d.val layer).settle else s) := by
  refine congrArg Host.Outcome.next ((whenServing_of hs).trans ?_)
  rw [hq]

/-- Settles O31: each command is one equation on the axis it has taken, and each clause one of its branches. -/
theorem axisCommands : Obligations.AxisCommands := by
  unfold Obligations.AxisCommands
  refine ⟨fun a v s hs => ⟨fun h => ?_, fun h => ?_⟩, fun a s hs => exec_openAxis_of hs,
    fun a s u hs hu => ⟨fun h => ?_, fun hr hc hspin => ?_⟩, fun d layer s u hs hu => ⟨fun h => ?_, fun hr hc => ?_⟩,
    fun d layer s u hs hu => ⟨fun h => ?_, fun hr hc => ?_⟩, fun d s layer ph t all base hs hq => ⟨fun h => ?_, fun h => ?_⟩,
    fun a s hs => exec_releaseToHeron_of hs⟩
  · rw [exec_swap_of hs, if_pos h]
  · rw [exec_swap_of hs, if_neg (by rw [h]; decide)]
  · rw [exec_closeAxis_of hs hu, if_pos h]
  · rw [exec_closeAxis_of hs hu, if_neg (fun h => h.elim hr (fun h => h.elim hc (fun ⟨spn, still⟩ => still (hspin spn))))]
    exact ⟨fun foc => by rw [if_pos foc], fun notFoc => by rw [if_neg notFoc]⟩
  · rw [exec_acquire_of hs hu, if_pos h]
  · rw [exec_acquire_of hs hu, if_neg (not_or.mpr ⟨hr, hc⟩)]
  · rw [exec_layerJump_of hs hu, if_pos h]
  · rw [exec_layerJump_of hs hu, if_neg (not_or.mpr ⟨hr, hc⟩)]
  · rw [exec_layerJumpTimeout_of hs hq, if_pos h]
  · rw [exec_layerJumpTimeout_of hs hq, if_neg (Nat.not_le.mpr h)]

end Sys2Proof.Machine
end

section
/-! SUPPORT. Commands of SPN.CMD and the start sequence of a drive (R350, R375, R376, R406). -/

namespace Sys2Proof.Machine

section Commands
variable {d : Fin 4} {s : State} (hs : s.serving = true)
include hs

theorem exec_spinStart_of : exec (.spinStart d) s =
    .next (if (s.drive d.val).spin.st = .stopped then (s.spinRequest d.val).settle else s.spinIgnore d.val 1) :=
  congrArg Host.Outcome.next (whenServing_of hs)

theorem exec_spinStop_of : exec (.spinStop d) s =
    .next (if (s.drive d.val).spin.st = .stopped ∨ (s.drive d.val).spin.st = .fault then s.spinIgnore d.val 2
      else (s.spinStopReq d.val).settle) :=
  congrArg Host.Outcome.next (whenServing_of hs)

theorem exec_coast_of : exec (.coast d) s =
    .next (if (s.drive d.val).spin.st = .fault then s.spinIgnore d.val 3 else (s.spinStopped d.val).settle) :=
  congrArg Host.Outcome.next (whenServing_of hs)

theorem exec_clearFault_of : exec (.clearFault d) s =
    .next (if (s.drive d.val).spin.st = .fault then
        ((s.spinStopped d.val).modSpin d.val (fun p => { p with fault := 0, keFault := false, retries := 0 })).settle
      else s.spinIgnore d.val 4) :=
  congrArg Host.Outcome.next (whenServing_of hs)

/-- DRIVE_START_SEQUENCE over a disc that can start: under host control, or with a spindle not stopped, the sled alone moves. -/
theorem exec_driveStartSequence_of {u : State} (hd : s.shut d.val = true) (hb : s.boot.dramFail = false)
    (hu : u = s.modDrive d.val (fun r => { r with disc := true, starting := true })) : exec (.driveStartSequence d) s =
      .next (if ((u.drive d.val).axis 2).manual = true ∨ (u.drive d.val).spin.st ≠ .stopped then
          (if (u.drive d.val).sled.homed then u else u.sledHome d.val)
        else u.spinRequest d.val).settle := by
  subst hu
  refine congrArg Host.Outcome.next ((whenServing_of hs).trans ((if_neg (by rw [hd, hb]; decide)).trans ?_))
  simp only [Bool.or_eq_true, decide_eq_true_eq]

end Commands

theorem exec_driveStartSequence_unready {d : Fin 4} {s : State} (h : s.shut d.val = false ∨ s.boot.dramFail = true) :
    exec (.driveStartSequence d) s = .next s :=
  congrArg Host.Outcome.next (whenServing_same (if_pos (by rcases h with h | h <;> simp [h])))

/-- Settles O33: each command is one equation on the state of the spindle, and each clause one of its branches. -/
theorem spindleCommands : Obligations.SpindleCommands := by
  unfold Obligations.SpindleCommands
  refine ⟨fun d s hs => ?_, fun d s u hs hd hb hu => ⟨fun hm hst => ?_, fun h => ?_⟩,
    fun d s h => exec_driveStartSequence_unready h⟩
  · rw [exec_spinStart_of hs, exec_spinStop_of hs, exec_coast_of hs, exec_clearFault_of hs]
    refine ⟨fun stopped => ?_, fun busy => ?_, fun busy sound => ?_, fun fault => ?_⟩
    · have sound : (s.drive d.val).spin.st ≠ .fault := by rw [stopped]; decide
      rw [if_pos stopped, if_pos (.inl stopped), if_neg sound, if_neg sound]
      exact ⟨rfl, rfl, rfl, rfl⟩
    · rw [if_neg busy]
    · rw [if_neg (not_or.mpr ⟨busy, sound⟩), if_neg sound, if_neg sound]
      exact ⟨rfl, rfl, rfl⟩
    · rw [if_pos (.inr fault), if_pos fault, if_pos fault]
      exact ⟨rfl, rfl, rfl⟩
  · rw [exec_driveStartSequence_of hs hd hb hu, if_neg (by rw [hm, hst]; decide)]
  · rw [exec_driveStartSequence_of hs hd hb hu, if_pos h]

end Sys2Proof.Machine
end

section
/-! SUPPORT. The start of a spindle: its rotor is found, it turns by force, and crossings hand it over (R377 to R381). -/

namespace Sys2Proof.Machine

/-- Six currents of which none stands out leave the run ambiguous; the third such run aligns the rotor (R377, R378). -/
def State.detectAmbiguous (s : State) (d : Nat) : State :=
  if 2 ≤ (s.drive d).spin.detRuns then (s.modSpin d (fun p => { p with aligning := true, detRuns := 3, step := 0 })).note .rotorAligned d
  else s.modSpin d (fun p => { p with detRuns := p.detRuns + 1 })

section Detect
variable {d : Fin 4} {s : State}

theorem exec_rotorDetectDone_of {currents : List Nat} {k top : Nat} (hs : s.serving = true) (hst : (s.drive d.val).spin.st = .detect)
    (ha : (s.drive d.val).spin.aligning = false) (h6 : currents.length = 6) (hk : largest currents = (k, top)) :
    exec (.rotorDetectDone d currents) s =
      .next (if top * 100 < (largest (currents.eraseIdx k)).2 * (100 + Cf.SPN_IPD_margin s d.val) then s.detectAmbiguous d.val
        else s.spinStart d.val ((k + 2) % 6)) := by
  refine congrArg Host.Outcome.next ((whenServing_of hs).trans ((if_neg (by simp [hst, ha, h6])).trans ?_))
  rw [hk]
  rfl

theorem exec_rotorDetectDone_notDetecting (h : (s.drive d.val).spin.st ≠ .detect) (currents : List Nat) :
    exec (.rotorDetectDone d currents) s = .next s :=
  congrArg Host.Outcome.next (whenServing_same (if_pos (.inl h)))

theorem exec_alignmentDone_of (hs : s.serving = true) (hst : (s.drive d.val).spin.st = .detect)
    (ha : (s.drive d.val).spin.aligning = true) : exec (.alignmentDone d) s = .next (s.spinStart d.val 2) :=
  congrArg Host.Outcome.next ((whenServing_of hs).trans (if_pos ⟨hst, ha⟩))

theorem exec_alignmentDone_notDetecting (h : (s.drive d.val).spin.st ≠ .detect) : exec (.alignmentDone d) s = .next s :=
  congrArg Host.Outcome.next (whenServing_same (if_neg (fun h' => h h'.1)))

end Detect

/-- A forced step: the start current in force at `s`, a speed that grows, and an end of the run of crossings where none came (R379). -/
def Spindle.forcedStep (s : State) (d : Nat) (p : Spindle) : Spindle :=
  { p with
    step := (p.step + 1) % 6, iStart := Cf.SPN_START_i_start s d, due := false, crossRun := if p.due then p.crossRun else 0
    forced := p.forced + (if s.pp d = 0 ∨ p.forced = 0 then 0 else Cf.SPN_START_accel s d * 10 ^ 7 / (s.pp d * p.forced)) }

section Steps
variable {d : Fin 4} {s : State}

theorem exec_forcedCommutation_of (hs : s.serving = true) (hst : (s.drive d.val).spin.st = .start) :
    exec (.forcedCommutation d) s = .next (s.modSpin d.val (Spindle.forcedStep s d.val)) :=
  congrArg Host.Outcome.next ((whenServing_of hs).trans (if_neg (not_not_intro hst)))

theorem exec_forcedCommutation_notStarting (h : (s.drive d.val).spin.st ≠ .start) : exec (.forcedCommutation d) s = .next s :=
  congrArg Host.Outcome.next (whenServing_same (if_pos h))

theorem exec_commutation_of (hs : s.serving = true) (hst : (s.drive d.val).spin.st = .run) (hd : (s.drive d.val).spin.due = true) :
    exec (.commutation d) s = .next (s.modSpin d.val (fun p => { p with step := (p.step + 1) % 6, due := false })) :=
  congrArg Host.Outcome.next ((whenServing_of hs).trans (if_pos ⟨hst, hd⟩))

theorem exec_commutation_idle (h : (s.drive d.val).spin.st ≠ .run ∨ (s.drive d.val).spin.due = false) :
    exec (.commutation d) s = .next s :=
  congrArg Host.Outcome.next (whenServing_same (if_neg (fun ⟨run, due⟩ => h.elim (· run) (by simp [due]))))

end Steps

/-- An accepted crossing in START: the sixth in a row hands over at the handover speed (R379). `p` is the spindle before it. -/
def State.startCrossed (u : State) (d : Nat) (p : Spindle) : State :=
  if 6 ≤ p.crossRun + 1 ∧ 1000 * Cf.SPN_START2_handover u d ≤ p.forced then u.handOver d else u

/-- A back-EMF sample counts towards the speed constant of a locked spindle that is not driven backwards (R391). -/
def State.keSampled (u : State) (d : Nat) (sample : Int) : State :=
  if 0 ≤ (u.drive d).spnGroup.demand then u.modSpin d (fun p =>
    { p with keSum := p.keSum + sample.natAbs * Cf.SPN_BEMF_div u d / 256, keNum := p.keNum + 1 }) else u

section Crossing
variable {d : Fin 4} {dt : Nat} {rising : Bool} {sample : Int} {s : State}

theorem exec_zeroCrossing_refused (h : s.crossOk d.val dt = false ∨ rising ≠ decide ((s.drive d.val).spin.step % 2 = 1) ∨
      ((s.drive d.val).spin.st ≠ .start ∧ (s.drive d.val).spin.st ≠ .run)) : exec (.zeroCrossing d dt rising sample) s = .next s := by
  refine congrArg Host.Outcome.next (whenServing_same (if_pos ?_))
  rcases h with window | slope | state
  · exact .inr (.inr (by rw [window]; rfl))
  · exact .inr (.inl slope)
  · exact .inl state

variable {p : Spindle} (hs : s.serving = true) (hp : p = (s.drive d.val).spin) (hr : rising = decide (p.step % 2 = 1))
  (hw : s.crossOk d.val dt = true)
include hs hp hr hw

theorem exec_zeroCrossing_start (hst : p.st = .start) : exec (.zeroCrossing d dt rising sample) s =
    .next ((s.commEvent d.val dt).startCrossed d.val p).settle := by
  subst hp
  refine congrArg Host.Outcome.next ((whenServing_of hs).trans ((if_neg (by simp [hst, hr, hw])).trans ?_))
  exact congrArg State.settle (if_pos hst)

theorem exec_zeroCrossing_run (hst : p.st = .run) : exec (.zeroCrossing d dt rising sample) s =
    .next (((if p.locked then (s.commEvent d.val dt).keSampled d.val sample else s.commEvent d.val dt).revolution d.val).spinReach
      d.val).settle := by
  subst hp
  refine congrArg Host.Outcome.next ((whenServing_of hs).trans ((if_neg (by simp [hst, hr, hw])).trans ?_))
  refine congrArg State.settle ((if_neg (by rw [hst]; decide)).trans ?_)
  cases hl : (s.drive d.val).spin.locked <;> simp [State.keSampled]

end Crossing

/-- Settles O34: a run of detection turns on the margin, a crossing on the state that accepts it, and each other step is one guard. -/
theorem spindleStart : Obligations.SpindleStart := by
  unfold Obligations.SpindleStart
  refine ⟨fun d currents s k top hs hst ha h6 hk => ?_, fun d s hs => ⟨exec_alignmentDone_of hs,
      fun h => ⟨exec_alignmentDone_notDetecting h, exec_rotorDetectDone_notDetecting h⟩, fun h => ?_,
      exec_forcedCommutation_notStarting, exec_commutation_of hs, exec_commutation_idle⟩,
    fun d dt rising sample s p hs hp hr hw => ⟨fun hst run speed => ?_, fun hst early => ?_, fun hst free => ?_,
      fun hst locked u v hu hv => ?_⟩,
    fun d dt rising sample s h => exec_zeroCrossing_refused h⟩
  · rw [exec_rotorDetectDone_of hs hst ha h6 hk]
    refine ⟨fun clear => ?_, fun ambiguous first => ?_, fun ambiguous third => ?_⟩
    · rw [if_neg (Nat.not_lt.mpr clear)]
    · rw [if_pos ambiguous, State.detectAmbiguous, if_neg (Nat.not_le.mpr first)]
    · rw [if_pos ambiguous, State.detectAmbiguous, if_pos third]
  · exact ⟨_, exec_forcedCommutation_of hs h, fun p => ⟨rfl, rfl, rfl, rfl, Nat.le_add_right _ _, rfl⟩⟩
  · rw [exec_zeroCrossing_start hs hp hr hw hst, State.startCrossed, if_pos ⟨run, speed⟩]
  · rw [exec_zeroCrossing_start hs hp hr hw hst, State.startCrossed,
      if_neg (fun ⟨run, speed⟩ => early.elim (Nat.not_lt.mpr run) (Nat.not_lt.mpr speed))]
  · rw [exec_zeroCrossing_run hs hp hr hw hst, if_neg (by rw [free]; exact Bool.false_ne_true)]
  · rw [exec_zeroCrossing_run hs hp hr hw hst, if_pos locked, hv, hu, State.keSampled]

end Sys2Proof.Machine
end

section
/-! SUPPORT. Current, braking, a locked rotor and idling of a spindle (R383, R389, R390, R392, R397). -/

namespace Sys2Proof.Machine

section Current
variable {d : Fin 4} {s : State} (hs : s.serving = true)
include hs

theorem exec_spindleOvercurrent_of : exec (.spindleOvercurrent d) s = .next (s.spinOver d.val).settle :=
  congrArg Host.Outcome.next (whenServing_of hs)

theorem exec_carrierPeriod_sled (ma mb : BitVec 16) : exec (.carrierPeriod d true ma mb) s =
    .next (s.sledPeriod d.val ma.toNat mb.toNat) :=
  congrArg Host.Outcome.next (whenServing_of hs)

theorem exec_carrierPeriod_spindle {ma : BitVec 16} {u : State}
    (hu : u = s.modSpin d.val (fun p => { p with pSum := p.pSum + ma.toNat * p.duty, pNum := p.pNum + 1 })) (mb : BitVec 16) :
    exec (.carrierPeriod d false ma mb) s =
      .next (if Cf.SPN_PROT_ioc u d.val < ma.toNat ∨ (Cf.SPN_IFS_ma u d.val ≠ 0 ∧ Cf.SPN_IFS_ma u d.val ≤ ma.toNat) then
          (u.spinOver d.val).settle
        else u.modSpin d.val (fun p => { p with duty := u.nextDuty d.val ma.toNat, cuts := 0 })) := by
  subst hu
  exact congrArg Host.Outcome.next (whenServing_of hs)

end Current

section Brake
variable {d : Fin 4} {uv : Nat} {s : State}

/-- A probe in BRAKE, over whether its estimate is slow. -/
theorem exec_brakeProbe_of {slow : Prop} [Decidable slow] (hs : s.serving = true) (hst : (s.drive d.val).spin.st = .brake)
    (hslow : slow = (uv * Cf.SPN_BEMF_div s d.val / 256 < 60 * Cf.SPN_KE_nom s d.val)) : exec (.brakeProbe d uv) s =
      .next (if slow ∧ 1 ≤ (s.drive d.val).spin.probes then (s.brakeEnds d.val).settle
        else s.modSpin d.val (fun p => { p with probes := if slow then p.probes + 1 else 0 })) := by
  subst hslow
  refine congrArg Host.Outcome.next ((whenServing_of hs).trans ((if_neg (not_not_intro hst)).trans ?_))
  simp only [decide_eq_true_eq]

theorem exec_brakeTimeout_of (hs : s.serving = true) (hst : (s.drive d.val).spin.st = .brake) :
    exec (.brakeTimeout d) s = .next ((s.brakeEnds d.val).note .brakeTimeout d.val).settle :=
  congrArg Host.Outcome.next ((whenServing_of hs).trans (if_pos hst))

theorem exec_brakeProbe_notBraking (h : (s.drive d.val).spin.st ≠ .brake) (uv : Nat) : exec (.brakeProbe d uv) s = .next s :=
  congrArg Host.Outcome.next (whenServing_same (if_pos h))

theorem exec_brakeTimeout_notBraking (h : (s.drive d.val).spin.st ≠ .brake) : exec (.brakeTimeout d) s = .next s :=
  congrArg Host.Outcome.next (whenServing_same (if_neg h))

end Brake

section Locked
variable {d : Fin 4} {s : State}

theorem exec_lockedRotorTimeout_of (hs : s.serving = true) (h : (s.drive d.val).spin.st = .start ∨ (s.drive d.val).spin.st = .run) :
    exec (.lockedRotorTimeout d) s = .next (((s.spinStopped d.val).modSpin d.val
      (fun p => { p with waiting := true, lockedCnt := inc16 p.lockedCnt })).note .rotorLocked d.val).settle :=
  congrArg Host.Outcome.next ((whenServing_of hs).trans (if_pos h))

theorem exec_lockedRotorTimeout_still (h : (s.drive d.val).spin.st ≠ .start) (h' : (s.drive d.val).spin.st ≠ .run) :
    exec (.lockedRotorTimeout d) s = .next s :=
  congrArg Host.Outcome.next (whenServing_same (if_neg (not_or.mpr ⟨h, h'⟩)))

theorem exec_lockedRotorRetry_of (hs : s.serving = true) (hst : (s.drive d.val).spin.st = .stopped)
    (hw : (s.drive d.val).spin.waiting = true) : exec (.lockedRotorRetry d) s =
      .next (if (s.drive d.val).spin.retries < Cf.SPN_START_retries s d.val then
          (s.modSpin d.val (fun p => { p with retries := p.retries + 1 })).spinWait d.val
        else s.spinFault d.val 1).settle :=
  congrArg Host.Outcome.next ((whenServing_of hs).trans (if_pos ⟨hst, hw⟩))

theorem exec_lockedRotorRetry_idle (h : (s.drive d.val).spin.st ≠ .stopped ∨ (s.drive d.val).spin.waiting = false) :
    exec (.lockedRotorRetry d) s = .next s :=
  congrArg Host.Outcome.next (whenServing_same (if_neg (fun ⟨stopped, waits⟩ => h.elim (· stopped) (by simp [waits]))))

end Locked

section Idle
variable {d : Fin 4} {s : State}

theorem exec_spindleIdleTimeout_of (hs : s.serving = true) (hst : (s.drive d.val).spin.st = .run)
    (hi : Cf.SPN_CTL_idle_s s d.val ≠ 0) (hb : s.driveBusy d.val = false)
    (ht : (s.drive d.val).spin.lastWork + 1000 * Cf.SPN_CTL_idle_s s d.val ≤ s.tm.mono) : exec (.spindleIdleTimeout d) s =
      .next ((s.spinBrake d.val .stop).modSpin d.val (fun p => { p with idled := true })).settle :=
  congrArg Host.Outcome.next ((whenServing_of hs).trans (if_pos ⟨hst, hi, by rw [hb]; rfl, ht⟩))

theorem exec_spindleIdleTimeout_early (h : Cf.SPN_CTL_idle_s s d.val = 0 ∨ s.driveBusy d.val = true ∨ (s.drive d.val).spin.st ≠ .run ∨
      s.tm.mono < (s.drive d.val).spin.lastWork + 1000 * Cf.SPN_CTL_idle_s s d.val) : exec (.spindleIdleTimeout d) s = .next s := by
  refine congrArg Host.Outcome.next (whenServing_same (if_neg ?_))
  rintro ⟨run, idle, free, late⟩
  rcases h with off | busy | still | early
  · exact idle off
  · rw [busy] at free
    exact Bool.false_ne_true free
  · exact still run
  · exact Nat.not_lt.mpr late early

end Idle

end Sys2Proof.Machine
end

section
/-! SUPPORT. Loss of the rotor and its reacquisition (R393, R394, R398). -/

namespace Sys2Proof.Machine

section Miss
variable {d : Fin 4} {s : State}

theorem exec_crossingWindowMiss_of (hs : s.serving = true) (hst : (s.drive d.val).spin.st = .run) : exec (.crossingWindowMiss d) s =
    .next (if (s.drive d.val).spin.misses = 0 then s.modSpin d.val (fun p => { p with misses := 1, due := true })
      else (s.rotorLoss d.val).settle) :=
  congrArg Host.Outcome.next ((whenServing_of hs).trans (if_neg (not_not_intro hst)))

theorem exec_crossingWindowMiss_notRunning (h : (s.drive d.val).spin.st ≠ .run) : exec (.crossingWindowMiss d) s = .next s :=
  congrArg Host.Outcome.next (whenServing_same (if_pos h))

end Miss

/-- The rotor runs again at the step and the intervals found; `late` where its close waits for late samples to end (Table 11-3). -/
def State.rotorFound (s : State) (d step : Nat) (l : List Nat) (late : Bool) : State :=
  s.modSpin d (fun p => { p with st := .run, step := step, intervals := l.reverse, misses := 0, waiting := late })

section Reacquired
variable {d : Fin 4} {step : Fin 6} {l : List Nat} {s : State}

theorem exec_rotorReacquired_of {m : Int} (hs : s.serving = true) (hst : (s.drive d.val).spin.st = .lost) (h5 : l.length = 5)
    (hl : steady l = true) (hm : m = speedQ (s.pp d.val) (l.foldl (fun a b => a + b) 0 / 5) 0) : exec (.rotorReacquired d step l) s =
      .next (if 2 * m < (s.drive d.val).spin.heldSp then s.spinBrake d.val .restart
        else if ((s.drive d.val).axis 2).st = .lateOpen then s.rotorFound d.val step.val l true
        else (s.rotorFound d.val step.val l false).closeAxis (axisOf d.val 2)).settle := by
  subst hm
  refine congrArg Host.Outcome.next ((whenServing_of hs).trans ((if_neg (by simp [hst, h5, hl])).trans ?_))
  by_cases late : ((s.drive d.val).axis 2).st = .lateOpen <;> simp [late, State.rotorFound]

theorem exec_rotorReacquired_refused (h : (s.drive d.val).spin.st ≠ .lost ∨ l.length ≠ 5 ∨ steady l = false) :
    exec (.rotorReacquired d step l) s = .next s :=
  congrArg Host.Outcome.next (whenServing_same (if_pos (h.imp_right (Or.imp_right fun uneven => by rw [uneven]; rfl))))

theorem exec_reacquisitionTimeout_of (hs : s.serving = true) (h : (s.drive d.val).spin.st = .lost ∨
      ((s.drive d.val).spin.st = .run ∧ (s.drive d.val).spin.waiting = true ∧ ((s.drive d.val).axis 2).st = .lateOpen)) :
    exec (.reacquisitionTimeout d) s = .next (s.spinBrake d.val .restart).settle :=
  congrArg Host.Outcome.next ((whenServing_of hs).trans (if_pos h))

theorem exec_reacquisitionTimeout_found (h : (s.drive d.val).spin.st ≠ .lost) (hx : ((s.drive d.val).axis 2).st ≠ .lateOpen) :
    exec (.reacquisitionTimeout d) s = .next s :=
  congrArg Host.Outcome.next (whenServing_same (if_neg (fun h' => h'.elim h (fun ⟨_, _, late⟩ => hx late))))

end Reacquired

/-- Settles O35: a carrier period turns on its current, a probe on its estimate, a retry on those left, a rotor found again on its speed
and on its axis; each other event is one guard. -/
theorem spindleCurrentBrakeAndLoss : Obligations.SpindleCurrentBrakeAndLoss := by
  unfold Obligations.SpindleCurrentBrakeAndLoss
  refine ⟨⟨fun d s hs => exec_spindleOvercurrent_of hs, fun d ma mb s u hs hu => ⟨exec_carrierPeriod_sled hs ma mb, fun h => ?_,
        fun below scale => ?_⟩,
      fun d uv s slow hs hst hslow => ?_, fun d s h => ⟨exec_brakeTimeout_notBraking h, exec_brakeProbe_notBraking h⟩,
      fun d s hs => ⟨exec_lockedRotorTimeout_of hs, exec_lockedRotorTimeout_still, fun hst hw => ⟨fun left => ?_, fun spent => ?_⟩,
        exec_lockedRotorRetry_idle⟩,
      fun d s hs => ⟨exec_spindleIdleTimeout_of hs, exec_spindleIdleTimeout_early⟩⟩,
    fun d s hs => ⟨fun hst first => ?_, fun hst again => ?_, exec_crossingWindowMiss_notRunning⟩,
    fun d step l s m hs hst h5 hl hm => ?_, fun d step l s h => exec_rotorReacquired_refused h,
    fun d s hs => ⟨fun lost => exec_reacquisitionTimeout_of hs (.inl lost),
      fun run waits late => exec_reacquisitionTimeout_of hs (.inr ⟨run, waits, late⟩), exec_reacquisitionTimeout_found⟩⟩
  · rw [exec_carrierPeriod_spindle hs hu, if_pos h]
  · rw [exec_carrierPeriod_spindle hs hu, if_neg]
    exact not_or.mpr ⟨Nat.not_lt.mpr below, fun ⟨known, full⟩ => scale.elim known (Nat.not_lt.mpr full)⟩
  · classical
    have probe := exec_brakeProbe_of hs hst hslow
    refine ⟨fun low again => ?_, fun low first => ?_, fun fast => ?_, exec_brakeTimeout_of hs hst⟩
    · rw [probe, if_pos ⟨low, again⟩]
    · rw [probe, if_neg (by rw [first]; simp)]
      simp only [if_pos low]
    · rw [probe, if_neg (fun h => fast h.1)]
      simp only [if_neg fast]
  · rw [exec_lockedRotorRetry_of hs hst hw, if_pos left]
  · rw [exec_lockedRotorRetry_of hs hst hw, if_neg (Nat.not_lt.mpr spent)]
  · rw [exec_crossingWindowMiss_of hs hst, if_pos first]
  · rw [exec_crossingWindowMiss_of hs hst, if_neg again]
  · rw [exec_rotorReacquired_of hs hst h5 hl hm]
    refine ⟨fun slow => ?_, fun fast closed => ?_, fun fast late => ?_⟩
    · rw [if_pos slow]
    · rw [if_neg (Int.not_lt.mpr fast), if_neg closed, State.rotorFound]
    · rw [if_neg (Int.not_lt.mpr fast), if_pos late, State.rotorFound]

end Sys2Proof.Machine
end

section
/-! SUPPORT. What holds of every command at once, one line per constructor: its frame, and that it keeps the tables in canonical form
(R475, R506, R534). -/

namespace Sys2Proof.Machine

section Reset
variable (s : State)

/-- The fields of State that a power-on or a PERST_N reset may change: all but the queue. -/
def resetFields : List StateField := mayChange .perstNAssert

theorem only_resetFields {t : State} (h : t.pending = s.pending) : Only resetFields s t := fun f hf => by
  cases f with
  | pending => exact h
  | _ => exact absurd (List.elem_iff.mp rfl) hf

theorem State.recordHalt_pending : s.recordHalt.pending = s.pending := (State.recordHalt_only s).at .pending rfl

theorem State.perstReset_pending : s.perstReset.pending = s.pending :=
  ((State.finishPrograms_only s.recordHalt).at .pending rfl).trans s.recordHalt_pending

theorem execPowerOnReset_only (v : BitVec 2) (z : State) : Only (mayChange (.powerOnReset v)) s (runRow (execPowerOnReset v s) z) :=
  only_resetFields s rfl

theorem execBrownOut_only (rail : Fin 7) (z : State) : Only (mayChange (.brownOut rail)) s (runRow (execBrownOut rail s) z) :=
  only_resetFields s rfl

theorem execPerstNAssert_only (z : State) : Only (mayChange .perstNAssert) s (runRow (execPerstNAssert s) z) := by
  refine only_resetFields s ?_
  unfold execPerstNAssert
  rw [runRow_next]
  split
  · rfl
  · exact s.perstReset_pending

end Reset

/-- The frame of every command is its list in `mayChange`. -/
theorem exec_only (s z : State) : ∀ c : Instr, Only (mayChange c) s (runRow (exec c s) z)
  | .registerWrite _ _ _ => execRegisterWrite_only _ _ _ _ _
  | .latchedPairRead _ _ => execLatchedPairRead_only _ _ _ _
  | .configWrite _ _ _ => execConfigWrite_only _ _ _ _ _
  | .systemPageSizeWrite _ => execSystemPageSizeWrite_only _ _ _
  | .numvfsWrite _ => execNumvfsWrite_only _ _ _
  | .vfEnableSet => execVfEnableSet_only _ _
  | .vfEnableClear => execVfEnableClear_only _ _
  | .busMasterEnableWrite _ _ => execBusMasterEnableWrite_only _ _ _ _
  | .completionTimeoutValueWrite _ _ => execCompletionTimeoutValueWrite_only _ _ _ _
  | .initiateFunctionLevelReset _ => execInitiateFunctionLevelReset_only _ _ _
  | .powerStateD3hot => execPowerStateD3hot_only _ _
  | .powerStateD0 => execPowerStateD0_only _ _
  | .msixVectorUnmask _ _ => execMsixVectorUnmask_only _ _ _ _
  | .hostReadCompletion _ _ _ => execHostReadCompletion_only _ _ _ _ _
  | .hostReadErrorCompletion _ _ => execHostReadErrorCompletion_only _ _ _ _
  | .completionTimeout _ => execCompletionTimeout_only _ _ _
  | .leafFetchRetry _ => execLeafFetchRetry_only _ _ _
  | .linkUp _ _ => execLinkUp_only _ _ _ _
  | .dlDown => execDlDown_only _ _
  | .hotResetReceived => execHotResetReceived_only _ _
  | .warmResetComplete => execWarmResetComplete_only _ _
  | .spdmRequest _ _ _ => execSpdmRequest_only _ _ _ _ _
  | .doeAbort => execDoeAbort_only _ _
  | .query _ => execQuery_only _ _ _
  | .keyProg _ _ _ _ _ => execKeyProg_only _ _ _ _ _ _ _
  | .kSetGo _ _ _ _ => execKSetGo_only _ _ _ _ _ _
  | .kSetStop _ _ _ => execKSetStop_only _ _ _ _ _
  | .ideTlpReceived _ _ _ => execIdeTlpReceived_only _ _ _ _ _
  | .ideTxCounterLimit _ => execIdeTxCounterLimit_only _ _ _
  | .hstCntClr _ => execHstCntClr_only _ _ _
  | .instanceStart _ => execInstanceStart_only _ _ _
  | .instanceReset _ => execInstanceReset_only _ _ _
  | .instanceRemove _ => execInstanceRemove_only _ _ _
  | .setPolicy _ => execSetPolicy_only _ _ _
  | .setQuota _ => execSetQuota_only _ _ _
  | .setPeriod _ => execSetPeriod_only _ _ _
  | .resetDrainDone _ => execResetDrainDone_only _ _ _
  | .oldGenerationMediaEnded _ => execOldGenerationMediaEnded_only _ _ _
  | .mbInPost _ _ => execMbInPost_only _ _ _ _
  | .mailboxConsume _ => execMailboxConsume_only _ _ _
  | .mbOutAck _ _ => execMbOutAck_only _ _ _ _
  | .sharedPageWrite _ _ _ => execSharedPageWrite_only _ _ _ _ _
  | .policyPageUsedUpdate => execPolicyPageUsedUpdate_only _ _
  | .epochCommit _ => execEpochCommit_only _ _ _
  | .subsystemAdopt _ _ => execSubsystemAdopt_only _ _ _ _
  | .epochAdoptionTimeout => execEpochAdoptionTimeout_only _ _
  | .occupancyTick => execOccupancyTick_only _ _
  | .periodBoundary => execPeriodBoundary_only _ _
  | .ringEnable _ _ _ _ => execRingEnable_only _ _ _ _ _ _
  | .ringDisable _ _ _ _ => execRingDisable_only _ _ _ _ _ _
  | .dbEnWrite _ _ => execDbEnWrite_only _ _ _ _
  | .doorbellFetch _ => execDoorbellFetch_only _ _ _
  | .doorbellFetchComplete _ _ => execDoorbellFetchComplete_only _ _ _ _
  | .wake _ => execWake_only _ _ _
  | .commandAccept _ _ _ => execCommandAccept_only _ _ _ _ _
  | .commandStart _ => execCommandStart_only _ _ _
  | .write _ _ => execWrite_only _ _ _ _
  | .read _ _ _ => execRead_only _ _ _ _ _
  | .discard _ => execDiscard_only _ _ _
  | .flush _ => execFlush_only _ _ _
  | .commitSegment _ => execCommitSegment_only _ _ _
  | .archiveRead _ => execArchiveRead_only _ _ _
  | .verify _ => execVerify_only _ _ _
  | .identify _ => execIdentify_only _ _ _
  | .getLog _ => execGetLog_only _ _ _
  | .getUsage _ => execGetUsage_only _ _ _
  | .stripeLoad _ _ _ _ => execStripeLoad_only _ _ _ _ _ _
  | .stripeFinalize _ _ => execStripeFinalize_only _ _ _ _
  | .stripeRebuild _ _ _ _ => execStripeRebuild_only _ _ _ _ _ _
  | .storeSettings _ => execStoreSettings_only _ _ _
  | .storeSettingsCapture _ => execStoreSettingsCapture_only _ _ _
  | .fwStage _ => execFwStage_only _ _ _
  | .fwActivate _ => execFwActivate_only _ _ _
  | .completionWrite _ => execCompletionWrite_only _ _ _
  | .coalescingTimeout _ _ => execCoalescingTimeout_only _ _ _ _
  | .goTask _ _ => execGoTask_only _ _ _ _
  | .taskPortCompletion _ => execTaskPortCompletion_only _ _ _
  | .integrityHalt _ _ => execIntegrityHalt_only _ _ _ _
  | .haltRecordWritten => execHaltRecordWritten_only _ _
  | .haltedStateRequest _ => execHaltedStateRequest_only _ _ _
  | .selftestPeriod _ => execSelftestPeriod_only _ _ _
  | .drbgReseed => execDrbgReseed_only _ _
  | .entropyHealthFail => execEntropyHealthFail_only _ _
  | .jtagAccess _ _ _ => execJtagAccess_only _ _ _ _ _
  | .quarClr _ => execQuarClr_only _ _ _
  | .nandPageProgramDone _ => execNandPageProgramDone_only _ _ _
  | .pageWaitTimeout _ => execPageWaitTimeout_only _ _ _
  | .nandProgramFail _ => execNandProgramFail_only _ _ _
  | .nandEraseDone _ _ _ => execNandEraseDone_only _ _ _ _ _
  | .nandReadDone _ _ => execNandReadDone_only _ _ _ _
  | .journalFlush => execJournalFlush_only _ _
  | .journalFlushComplete => execJournalFlushComplete_only _ _
  | .rootCheckpoint => execRootCheckpoint_only _ _
  | .garbageCollection => execGarbageCollection_only _ _
  | .staticWearLevelling _ => execStaticWearLevelling_only _ _ _
  | .refreshRead _ _ _ _ => execRefreshRead_only _ _ _ _ _ _
  | .dieBusyTimeout _ => execDieBusyTimeout_only _ _ _
  | .dieRebuildDone _ => execDieRebuildDone_only _ _ _
  | .writeSpaceWaitTimeout _ => execWriteSpaceWaitTimeout_only _ _ _
  | .zqCalibration => execZqCalibration_only _ _
  | .hregEnable => execHregEnable_only _ _
  | .hregDisable => execHregDisable_only _ _
  | .hregDisableDone => execHregDisableDone_only _ _
  | .pdPgoodFall => execPdPgoodFall_only _ _
  | .pdPgoodRise => execPdPgoodRise_only _ _
  | .mchEnableWrite _ => execMchEnableWrite_only _ _ _
  | .clean _ => execClean_only _ _ _
  | .invalidate _ => execInvalidate_only _ _ _
  | .cleanAndInvalidate _ => execCleanAndInvalidate_only _ _ _
  | .maintenanceOpDone _ => execMaintenanceOpDone_only _ _ _
  | .parityWindowExpiry _ => execParityWindowExpiry_only _ _ _
  | .wayEn _ => execWayEn_only _ _ _
  | .segmentAdmit => execSegmentAdmit_only _ _
  | .archiveBlockFormat _ => execArchiveBlockFormat_only _ _ _
  | .fillerTimeout => execFillerTimeout_only _ _
  | .stripeRecordStart => execStripeRecordStart_only _ _
  | .slotVerifyResult _ _ => execSlotVerifyResult_only _ _ _ _
  | .archiveDone _ => execArchiveDone_only _ _ _
  | .pendingEntriesWrite _ => execPendingEntriesWrite_only _ _ _
  | .degradedDriveTimeout _ => execDegradedDriveTimeout_only _ _ _
  | .zoneWobbleMeasure _ _ _ _ => execZoneWobbleMeasure_only _ _ _ _ _ _
  | .channelClockLockChange _ _ _ => execChannelClockLockChange_only _ _ _ _ _
  | .frameSync _ _ _ => execFrameSync_only _ _ _ _ _
  | .blockDecode _ => execBlockDecode_only _ _ _
  | .readRetry _ => execReadRetry_only _ _ _
  | .opcRun _ _ _ => execOpcRun_only _ _ _ _ _
  | .opcGo _ => execOpcGo_only _ _ _
  | .servoSample _ _ _ _ => execServoSample_only _ _ _ _ _ _
  | .servoSampleDeadline _ _ => execServoSampleDeadline_only _ _ _ _
  | .limitGroupSample _ _ _ => execLimitGroupSample_only _ _ _ _ _
  | .swap _ _ => execSwap_only _ _ _ _
  | .openAxis _ => execOpenAxis_only _ _ _
  | .closeAxis _ => execCloseAxis_only _ _ _
  | .acquire _ _ => execAcquire_only _ _ _ _
  | .seek _ _ => execSeek_only _ _ _ _
  | .layerJump _ _ => execLayerJump_only _ _ _ _
  | .releaseToHeron _ => execReleaseToHeron_only _ _ _
  | .layerJumpTimeout _ => execLayerJumpTimeout_only _ _ _
  | .seekConfirm _ _ => execSeekConfirm_only _ _ _ _
  | .driveStartSequence _ => execDriveStartSequence_only _ _ _
  | .rateMeterBin => execRateMeterBin_only _ _
  | .sourceFaultHoldExpiry _ => execSourceFaultHoldExpiry_only _ _ _
  | .spinStart _ => execSpinStart_only _ _ _
  | .spinStop _ => execSpinStop_only _ _ _
  | .coast _ => execCoast_only _ _ _
  | .clearFault _ => execClearFault_only _ _ _
  | .rotorDetectDone _ _ => execRotorDetectDone_only _ _ _ _
  | .alignmentDone _ => execAlignmentDone_only _ _ _
  | .forcedCommutation _ => execForcedCommutation_only _ _ _
  | .zeroCrossing _ _ _ _ => execZeroCrossing_only _ _ _ _ _ _
  | .crossingWindowMiss _ => execCrossingWindowMiss_only _ _ _
  | .rotorReacquired _ _ _ => execRotorReacquired_only _ _ _ _ _
  | .reacquisitionTimeout _ => execReacquisitionTimeout_only _ _ _
  | .lockedRotorTimeout _ => execLockedRotorTimeout_only _ _ _
  | .lockedRotorRetry _ => execLockedRotorRetry_only _ _ _
  | .spindleOvercurrent _ => execSpindleOvercurrent_only _ _ _
  | .brakeProbe _ _ => execBrakeProbe_only _ _ _ _
  | .brakeTimeout _ => execBrakeTimeout_only _ _ _
  | .spindleIdleTimeout _ => execSpindleIdleTimeout_only _ _ _
  | .travel _ => execTravel_only _ _ _
  | .sledSeek _ => execSledSeek_only _ _ _
  | .home _ => execHome_only _ _ _
  | .park _ => execPark_only _ _ _
  | .sledStop _ => execSledStop_only _ _ _
  | .sledRelease _ => execSledRelease_only _ _ _
  | .sledClear _ => execSledClear_only _ _ _
  | .sledPlanTick _ => execSledPlanTick_only _ _ _
  | .sledTickLate _ => execSledTickLate_only _ _ _
  | .sledArrivalReport _ => execSledArrivalReport_only _ _ _
  | .sledRereference _ _ => execSledRereference_only _ _ _ _
  | .boostDecay _ => execBoostDecay_only _ _ _
  | .sledOvercurrent _ _ => execSledOvercurrent_only _ _ _ _
  | .openCoil _ _ => execOpenCoil_only _ _ _ _
  | .calItemGo _ _ => execCalItemGo_only _ _ _ _
  | .calStore => execCalStore_only _ _
  | .calItemRun _ => execCalItemRun_only _ _ _
  | .calDeferTimeout => execCalDeferTimeout_only _ _
  | .calPeriodicStore => execCalPeriodicStore_only _ _
  | .converterCheckPeriod => execConverterCheckPeriod_only _ _
  | .vcoreLow => execVcoreLow_only _ _
  | .speedIndexMeasure _ _ => execSpeedIndexMeasure_only _ _ _ _
  | .fabricSlowAlarmClear => execFabricSlowAlarmClear_only _ _
  | .tputWindow _ => execTputWindow_only _ _ _
  | .tputClr _ => execTputClr_only _ _ _
  | .crystalQualified _ _ => execCrystalQualified_only _ _ _ _
  | .xt25Requalify _ => execXt25Requalify_only _ _ _
  | .clockSourceFault _ => execClockSourceFault_only _ _ _
  | .supervisorGate _ _ _ => execSupervisorGate_only _ _ _ _ _
  | .ref25Switchover => execRef25Switchover_only _ _
  | .sourceReturn => execSourceReturn_only _ _
  | .selReq _ => execSelReq_only _ _ _
  | .sleepModeEntry => execSleepModeEntry_only _ _
  | .powerModeWake => execPowerModeWake_only _ _
  | .fmcGo _ => execFmcGo_only _ _ _
  | .fmcDone _ => execFmcDone_only _ _ _
  | .pseClassChange _ => execPseClassChange_only _ _ _
  | .budgetSample _ => execBudgetSample_only _ _ _
  | .powerOnReset _ => execPowerOnReset_only _ _ _
  | .brownOut _ => execBrownOut_only _ _ _
  | .perstNAssert => execPerstNAssert_only _ _
  | .perstNDeassert => execPerstNDeassert_only _ _
  | .startupSequence _ => execStartupSequence_only _ _ _
  | .sweepComplete => execSweepComplete_only _ _
  | .firstReadyState => execFirstReadyState_only _ _
  | .startupSetReload _ _ => execStartupSetReload_only _ _ _ _
  | .accClr => execAccClr_only _ _
  | .rstCntClear => execRstCntClear_only _ _
  | .sensorSample _ => execSensorSample_only _ _ _
  | .hotClear => execHotClear_only _ _
  | .thermWrite _ => execThermWrite_only _ _ _
  | .logFoldFlush => execLogFoldFlush_only _ _
  | .logMirrorWrite => execLogMirrorWrite_only _ _
  | .logNvmWrite => execLogNvmWrite_only _ _
  | .timSecLoRead => execTimSecLoRead_only _ _
  | .setClock => execSetClock_only _ _
  | .cancel => execCancel_only _ _
  | .clockCommit => execClockCommit_only _ _
  | .lastAliveWrite => execLastAliveWrite_only _ _
  | .monoFloorWrite => execMonoFloorWrite_only _ _
  | .monI => execMonI_only _ _
  | .monRd _ _ => execMonRd_only _ _ _ _
  | .monWr _ _ _ => execMonWr_only _ _ _ _ _
  | .baud _ => execBaud_only _ _ _
  | .lock => execLock_only _ _
  | .unlock _ => execUnlock_only _ _ _
  | .monitorGo => execMonitorGo_only _ _
  | .monitorIdleTimeout => execMonitorIdleTimeout_only _ _
  | .inputQualified _ _ => execInputQualified_only _ _ _ _
  | .chatterClear _ => execChatterClear_only _ _ _
  | .inputStuck _ => execInputStuck_only _ _ _
  | .stuckClear _ => execStuckClear_only _ _ _
  | .analogueOutOfRange _ _ => execAnalogueOutOfRange_only _ _ _ _
  | .analogueReturn _ _ => execAnalogueReturn_only _ _ _ _
  | .entropyHealthRecovery => execEntropyHealthRecovery_only _ _
  | .carrierPeriod _ _ _ _ => execCarrierPeriod_only _ _ _ _ _ _
  | .commutation _ => execCommutation_only _ _ _
  | .sweepWatermark _ => execSweepWatermark_only _ _ _
  | .unknownCommand _ => execUnknownCommand_only _ _ _

/-- The queue is in no list of `mayChange`. -/
theorem pending_not_mem_mayChange (c : Instr) : (mayChange c).elem .pending = false := by
  cases c <;> rfl

/-- Every command keeps the tables in canonical form. -/
theorem exec_keeps (s z : State) : ∀ c : Instr, Keeps s (runRow (exec c s) z)
  | .registerWrite _ _ _ => execRegisterWrite_keeps _ _ _ _ _
  | .latchedPairRead _ _ => execLatchedPairRead_keeps _ _ _ _
  | .configWrite _ _ _ => execConfigWrite_keeps _ _ _ _ _
  | .systemPageSizeWrite _ => execSystemPageSizeWrite_keeps _ _ _
  | .numvfsWrite _ => execNumvfsWrite_keeps _ _ _
  | .vfEnableSet => execVfEnableSet_keeps _ _
  | .vfEnableClear => execVfEnableClear_keeps _ _
  | .busMasterEnableWrite _ _ => execBusMasterEnableWrite_keeps _ _ _ _
  | .completionTimeoutValueWrite _ _ => execCompletionTimeoutValueWrite_keeps _ _ _ _
  | .initiateFunctionLevelReset _ => execInitiateFunctionLevelReset_keeps _ _ _
  | .powerStateD3hot => execPowerStateD3hot_keeps _ _
  | .powerStateD0 => execPowerStateD0_keeps _ _
  | .msixVectorUnmask _ _ => execMsixVectorUnmask_keeps _ _ _ _
  | .hostReadCompletion _ _ _ => execHostReadCompletion_keeps _ _ _ _ _
  | .hostReadErrorCompletion _ _ => execHostReadErrorCompletion_keeps _ _ _ _
  | .completionTimeout _ => execCompletionTimeout_keeps _ _ _
  | .leafFetchRetry _ => execLeafFetchRetry_keeps _ _ _
  | .linkUp _ _ => execLinkUp_keeps _ _ _ _
  | .dlDown => execDlDown_keeps _ _
  | .hotResetReceived => execHotResetReceived_keeps _ _
  | .warmResetComplete => execWarmResetComplete_keeps _ _
  | .spdmRequest _ _ _ => execSpdmRequest_keeps _ _ _ _ _
  | .doeAbort => execDoeAbort_keeps _ _
  | .query _ => execQuery_keeps _ _ _
  | .keyProg _ _ _ _ _ => execKeyProg_keeps _ _ _ _ _ _ _
  | .kSetGo _ _ _ _ => execKSetGo_keeps _ _ _ _ _ _
  | .kSetStop _ _ _ => execKSetStop_keeps _ _ _ _ _
  | .ideTlpReceived _ _ _ => execIdeTlpReceived_keeps _ _ _ _ _
  | .ideTxCounterLimit _ => execIdeTxCounterLimit_keeps _ _ _
  | .hstCntClr _ => execHstCntClr_keeps _ _ _
  | .instanceStart _ => execInstanceStart_keeps _ _ _
  | .instanceReset _ => execInstanceReset_keeps _ _ _
  | .instanceRemove _ => execInstanceRemove_keeps _ _ _
  | .setPolicy _ => execSetPolicy_keeps _ _ _
  | .setQuota _ => execSetQuota_keeps _ _ _
  | .setPeriod _ => execSetPeriod_keeps _ _ _
  | .resetDrainDone _ => execResetDrainDone_keeps _ _ _
  | .oldGenerationMediaEnded _ => execOldGenerationMediaEnded_keeps _ _ _
  | .mbInPost _ _ => execMbInPost_keeps _ _ _ _
  | .mailboxConsume _ => execMailboxConsume_keeps _ _ _
  | .mbOutAck _ _ => execMbOutAck_keeps _ _ _ _
  | .sharedPageWrite _ _ _ => execSharedPageWrite_keeps _ _ _ _ _
  | .policyPageUsedUpdate => execPolicyPageUsedUpdate_keeps _ _
  | .epochCommit _ => execEpochCommit_keeps _ _ _
  | .subsystemAdopt _ _ => execSubsystemAdopt_keeps _ _ _ _
  | .epochAdoptionTimeout => execEpochAdoptionTimeout_keeps _ _
  | .occupancyTick => execOccupancyTick_keeps _ _
  | .periodBoundary => execPeriodBoundary_keeps _ _
  | .ringEnable _ _ _ _ => execRingEnable_keeps _ _ _ _ _ _
  | .ringDisable _ _ _ _ => execRingDisable_keeps _ _ _ _ _ _
  | .dbEnWrite _ _ => execDbEnWrite_keeps _ _ _ _
  | .doorbellFetch _ => execDoorbellFetch_keeps _ _ _
  | .doorbellFetchComplete _ _ => execDoorbellFetchComplete_keeps _ _ _ _
  | .wake _ => execWake_keeps _ _ _
  | .commandAccept _ _ _ => execCommandAccept_keeps _ _ _ _ _
  | .commandStart _ => execCommandStart_keeps _ _ _
  | .write _ _ => execWrite_keeps _ _ _ _
  | .read _ _ _ => execRead_keeps _ _ _ _ _
  | .discard _ => execDiscard_keeps _ _ _
  | .flush _ => execFlush_keeps _ _ _
  | .commitSegment _ => execCommitSegment_keeps _ _ _
  | .archiveRead _ => execArchiveRead_keeps _ _ _
  | .verify _ => execVerify_keeps _ _ _
  | .identify _ => execIdentify_keeps _ _ _
  | .getLog _ => execGetLog_keeps _ _ _
  | .getUsage _ => execGetUsage_keeps _ _ _
  | .stripeLoad _ _ _ _ => execStripeLoad_keeps _ _ _ _ _ _
  | .stripeFinalize _ _ => execStripeFinalize_keeps _ _ _ _
  | .stripeRebuild _ _ _ _ => execStripeRebuild_keeps _ _ _ _ _ _
  | .storeSettings _ => execStoreSettings_keeps _ _ _
  | .storeSettingsCapture _ => execStoreSettingsCapture_keeps _ _ _
  | .fwStage _ => execFwStage_keeps _ _ _
  | .fwActivate _ => execFwActivate_keeps _ _ _
  | .completionWrite _ => execCompletionWrite_keeps _ _ _
  | .coalescingTimeout _ _ => execCoalescingTimeout_keeps _ _ _ _
  | .goTask _ _ => execGoTask_keeps _ _ _ _
  | .taskPortCompletion _ => execTaskPortCompletion_keeps _ _ _
  | .integrityHalt _ _ => execIntegrityHalt_keeps _ _ _ _
  | .haltRecordWritten => execHaltRecordWritten_keeps _ _
  | .haltedStateRequest _ => execHaltedStateRequest_keeps _ _ _
  | .selftestPeriod _ => execSelftestPeriod_keeps _ _ _
  | .drbgReseed => execDrbgReseed_keeps _ _
  | .entropyHealthFail => execEntropyHealthFail_keeps _ _
  | .jtagAccess _ _ _ => execJtagAccess_keeps _ _ _ _ _
  | .quarClr _ => execQuarClr_keeps _ _ _
  | .nandPageProgramDone _ => execNandPageProgramDone_keeps _ _ _
  | .pageWaitTimeout _ => execPageWaitTimeout_keeps _ _ _
  | .nandProgramFail _ => execNandProgramFail_keeps _ _ _
  | .nandEraseDone _ _ _ => execNandEraseDone_keeps _ _ _ _ _
  | .nandReadDone _ _ => execNandReadDone_keeps _ _ _ _
  | .journalFlush => execJournalFlush_keeps _ _
  | .journalFlushComplete => execJournalFlushComplete_keeps _ _
  | .rootCheckpoint => execRootCheckpoint_keeps _ _
  | .garbageCollection => execGarbageCollection_keeps _ _
  | .staticWearLevelling _ => execStaticWearLevelling_keeps _ _ _
  | .refreshRead _ _ _ _ => execRefreshRead_keeps _ _ _ _ _ _
  | .dieBusyTimeout _ => execDieBusyTimeout_keeps _ _ _
  | .dieRebuildDone _ => execDieRebuildDone_keeps _ _ _
  | .writeSpaceWaitTimeout _ => execWriteSpaceWaitTimeout_keeps _ _ _
  | .zqCalibration => execZqCalibration_keeps _ _
  | .hregEnable => execHregEnable_keeps _ _
  | .hregDisable => execHregDisable_keeps _ _
  | .hregDisableDone => execHregDisableDone_keeps _ _
  | .pdPgoodFall => execPdPgoodFall_keeps _ _
  | .pdPgoodRise => execPdPgoodRise_keeps _ _
  | .mchEnableWrite _ => execMchEnableWrite_keeps _ _ _
  | .clean _ => execClean_keeps _ _ _
  | .invalidate _ => execInvalidate_keeps _ _ _
  | .cleanAndInvalidate _ => execCleanAndInvalidate_keeps _ _ _
  | .maintenanceOpDone _ => execMaintenanceOpDone_keeps _ _ _
  | .parityWindowExpiry _ => execParityWindowExpiry_keeps _ _ _
  | .wayEn _ => execWayEn_keeps _ _ _
  | .segmentAdmit => execSegmentAdmit_keeps _ _
  | .archiveBlockFormat _ => execArchiveBlockFormat_keeps _ _ _
  | .fillerTimeout => execFillerTimeout_keeps _ _
  | .stripeRecordStart => execStripeRecordStart_keeps _ _
  | .slotVerifyResult _ _ => execSlotVerifyResult_keeps _ _ _ _
  | .archiveDone _ => execArchiveDone_keeps _ _ _
  | .pendingEntriesWrite _ => execPendingEntriesWrite_keeps _ _ _
  | .degradedDriveTimeout _ => execDegradedDriveTimeout_keeps _ _ _
  | .zoneWobbleMeasure _ _ _ _ => execZoneWobbleMeasure_keeps _ _ _ _ _ _
  | .channelClockLockChange _ _ _ => execChannelClockLockChange_keeps _ _ _ _ _
  | .frameSync _ _ _ => execFrameSync_keeps _ _ _ _ _
  | .blockDecode _ => execBlockDecode_keeps _ _ _
  | .readRetry _ => execReadRetry_keeps _ _ _
  | .opcRun _ _ _ => execOpcRun_keeps _ _ _ _ _
  | .opcGo _ => execOpcGo_keeps _ _ _
  | .servoSample _ _ _ _ => execServoSample_keeps _ _ _ _ _ _
  | .servoSampleDeadline _ _ => execServoSampleDeadline_keeps _ _ _ _
  | .limitGroupSample _ _ _ => execLimitGroupSample_keeps _ _ _ _ _
  | .swap _ _ => execSwap_keeps _ _ _ _
  | .openAxis _ => execOpenAxis_keeps _ _ _
  | .closeAxis _ => execCloseAxis_keeps _ _ _
  | .acquire _ _ => execAcquire_keeps _ _ _ _
  | .seek _ _ => execSeek_keeps _ _ _ _
  | .layerJump _ _ => execLayerJump_keeps _ _ _ _
  | .releaseToHeron _ => execReleaseToHeron_keeps _ _ _
  | .layerJumpTimeout _ => execLayerJumpTimeout_keeps _ _ _
  | .seekConfirm _ _ => execSeekConfirm_keeps _ _ _ _
  | .driveStartSequence _ => execDriveStartSequence_keeps _ _ _
  | .rateMeterBin => execRateMeterBin_keeps _ _
  | .sourceFaultHoldExpiry _ => execSourceFaultHoldExpiry_keeps _ _ _
  | .spinStart _ => execSpinStart_keeps _ _ _
  | .spinStop _ => execSpinStop_keeps _ _ _
  | .coast _ => execCoast_keeps _ _ _
  | .clearFault _ => execClearFault_keeps _ _ _
  | .rotorDetectDone _ _ => execRotorDetectDone_keeps _ _ _ _
  | .alignmentDone _ => execAlignmentDone_keeps _ _ _
  | .forcedCommutation _ => execForcedCommutation_keeps _ _ _
  | .zeroCrossing _ _ _ _ => execZeroCrossing_keeps _ _ _ _ _ _
  | .crossingWindowMiss _ => execCrossingWindowMiss_keeps _ _ _
  | .rotorReacquired _ _ _ => execRotorReacquired_keeps _ _ _ _ _
  | .reacquisitionTimeout _ => execReacquisitionTimeout_keeps _ _ _
  | .lockedRotorTimeout _ => execLockedRotorTimeout_keeps _ _ _
  | .lockedRotorRetry _ => execLockedRotorRetry_keeps _ _ _
  | .spindleOvercurrent _ => execSpindleOvercurrent_keeps _ _ _
  | .brakeProbe _ _ => execBrakeProbe_keeps _ _ _ _
  | .brakeTimeout _ => execBrakeTimeout_keeps _ _ _
  | .spindleIdleTimeout _ => execSpindleIdleTimeout_keeps _ _ _
  | .travel _ => execTravel_keeps _ _ _
  | .sledSeek _ => execSledSeek_keeps _ _ _
  | .home _ => execHome_keeps _ _ _
  | .park _ => execPark_keeps _ _ _
  | .sledStop _ => execSledStop_keeps _ _ _
  | .sledRelease _ => execSledRelease_keeps _ _ _
  | .sledClear _ => execSledClear_keeps _ _ _
  | .sledPlanTick _ => execSledPlanTick_keeps _ _ _
  | .sledTickLate _ => execSledTickLate_keeps _ _ _
  | .sledArrivalReport _ => execSledArrivalReport_keeps _ _ _
  | .sledRereference _ _ => execSledRereference_keeps _ _ _ _
  | .boostDecay _ => execBoostDecay_keeps _ _ _
  | .sledOvercurrent _ _ => execSledOvercurrent_keeps _ _ _ _
  | .openCoil _ _ => execOpenCoil_keeps _ _ _ _
  | .calItemGo _ _ => execCalItemGo_keeps _ _ _ _
  | .calStore => execCalStore_keeps _ _
  | .calItemRun _ => execCalItemRun_keeps _ _ _
  | .calDeferTimeout => execCalDeferTimeout_keeps _ _
  | .calPeriodicStore => execCalPeriodicStore_keeps _ _
  | .converterCheckPeriod => execConverterCheckPeriod_keeps _ _
  | .vcoreLow => execVcoreLow_keeps _ _
  | .speedIndexMeasure _ _ => execSpeedIndexMeasure_keeps _ _ _ _
  | .fabricSlowAlarmClear => execFabricSlowAlarmClear_keeps _ _
  | .tputWindow _ => execTputWindow_keeps _ _ _
  | .tputClr _ => execTputClr_keeps _ _ _
  | .crystalQualified _ _ => execCrystalQualified_keeps _ _ _ _
  | .xt25Requalify _ => execXt25Requalify_keeps _ _ _
  | .clockSourceFault _ => execClockSourceFault_keeps _ _ _
  | .supervisorGate _ _ _ => execSupervisorGate_keeps _ _ _ _ _
  | .ref25Switchover => execRef25Switchover_keeps _ _
  | .sourceReturn => execSourceReturn_keeps _ _
  | .selReq _ => execSelReq_keeps _ _ _
  | .sleepModeEntry => execSleepModeEntry_keeps _ _
  | .powerModeWake => execPowerModeWake_keeps _ _
  | .fmcGo _ => execFmcGo_keeps _ _ _
  | .fmcDone _ => execFmcDone_keeps _ _ _
  | .pseClassChange _ => execPseClassChange_keeps _ _ _
  | .budgetSample _ => execBudgetSample_keeps _ _ _
  | .powerOnReset _ => execPowerOnReset_keeps _ _ _
  | .brownOut _ => execBrownOut_keeps _ _ _
  | .perstNAssert => execPerstNAssert_keeps _ _
  | .perstNDeassert => execPerstNDeassert_keeps _ _
  | .startupSequence _ => execStartupSequence_keeps _ _ _
  | .sweepComplete => execSweepComplete_keeps _ _
  | .firstReadyState => execFirstReadyState_keeps _ _
  | .startupSetReload _ _ => execStartupSetReload_keeps _ _ _ _
  | .accClr => execAccClr_keeps _ _
  | .rstCntClear => execRstCntClear_keeps _ _
  | .sensorSample _ => execSensorSample_keeps _ _ _
  | .hotClear => execHotClear_keeps _ _
  | .thermWrite _ => execThermWrite_keeps _ _ _
  | .logFoldFlush => execLogFoldFlush_keeps _ _
  | .logMirrorWrite => execLogMirrorWrite_keeps _ _
  | .logNvmWrite => execLogNvmWrite_keeps _ _
  | .timSecLoRead => execTimSecLoRead_keeps _ _
  | .setClock => execSetClock_keeps _ _
  | .cancel => execCancel_keeps _ _
  | .clockCommit => execClockCommit_keeps _ _
  | .lastAliveWrite => execLastAliveWrite_keeps _ _
  | .monoFloorWrite => execMonoFloorWrite_keeps _ _
  | .monI => execMonI_keeps _ _
  | .monRd _ _ => execMonRd_keeps _ _ _ _
  | .monWr _ _ _ => execMonWr_keeps _ _ _ _ _
  | .baud _ => execBaud_keeps _ _ _
  | .lock => execLock_keeps _ _
  | .unlock _ => execUnlock_keeps _ _ _
  | .monitorGo => execMonitorGo_keeps _ _
  | .monitorIdleTimeout => execMonitorIdleTimeout_keeps _ _
  | .inputQualified _ _ => execInputQualified_keeps _ _ _ _
  | .chatterClear _ => execChatterClear_keeps _ _ _
  | .inputStuck _ => execInputStuck_keeps _ _ _
  | .stuckClear _ => execStuckClear_keeps _ _ _
  | .analogueOutOfRange _ _ => execAnalogueOutOfRange_keeps _ _ _ _
  | .analogueReturn _ _ => execAnalogueReturn_keeps _ _ _ _
  | .entropyHealthRecovery => execEntropyHealthRecovery_keeps _ _
  | .carrierPeriod _ _ _ _ => execCarrierPeriod_keeps _ _ _ _ _ _
  | .commutation _ => execCommutation_keeps _ _ _
  | .sweepWatermark _ => execSweepWatermark_keeps _ _ _
  | .unknownCommand _ => execUnknownCommand_keeps _ _ _

/-! ### A step (log entry 1) -/

theorem step_of_nil {s : State} (h : s.pending = []) : step s = .next (tick s) := by
  unfold step
  rw [h]

theorem step_of_cons {s : State} {c : Instr} {r : List Instr} (h : s.pending = c :: r) : step s = exec c { s with pending := r } := by
  unfold step
  rw [h]

/-- Settles O1. -/
theorem stepTakesTheFront : Obligations.StepTakesTheFront := by
  unfold Obligations.StepTakesTheFront
  exact ⟨fun c r s h => step_of_cons h, fun s h => step_of_nil h⟩

/-- Settles O2: each command has its frame, with the queue in none, and a tick has its own. -/
theorem framesHold : Obligations.FramesHold := by
  unfold Obligations.FramesHold
  refine ⟨fun c s t next => ?_, fun s t idle next => ?_⟩
  · have frame := exec_only s s c
    rw [next, runRow_next] at frame
    exact ⟨frame, frame.at .pending (pending_not_mem_mayChange c)⟩
  · rw [step_of_nil idle] at next
    cases next
    exact tick_only s

/-- Settles O3: a tick keeps the tables, and so does the command at the front, which meets them as the state before left them. -/
theorem canonKept : Obligations.CanonKept := by
  unfold Obligations.CanonKept
  intro s t canon next
  cases hq : s.pending with
  | nil =>
    rw [step_of_nil hq] at next
    cases next
    exact tick_keeps s canon
  | cons c r =>
    rw [step_of_cons hq] at next
    have keeps := exec_keeps { s with pending := r } s c
    rw [next, runRow_next] at keeps
    exact keeps (Keeps.set_pending s r canon)

/-! ### Reset (R476, R582) -/

theorem State.reset_canon : State.reset.Canon :=
  ⟨rfl, rfl, rfl, (fun _ e => nomatch e), (fun _ e => nomatch e), rfl, rfl, rfl⟩

/-- Settles O4. -/
theorem canonAtReset : Obligations.CanonAtReset := State.reset_canon

/-- A register that nothing has written reads as its description has it. -/
theorem State.reset_reg {k : Nat} {r : RegDesc} (h : regDesc k = some r) : State.reset.reg k = BitVec.ofNat 32 r.reset := by
  show regReset k = _
  unfold regReset
  rw [h]

theorem State.reset_drive : ∀ d : Fin 4, State.reset.drive d.val = Drive.reset
  | 0 | 1 | 2 | 3 => rfl

theorem Drive.reset_axis : ∀ r : Fin 4, Drive.reset.axis r.val = Ax.reset
  | 0 | 1 | 2 | 3 => rfl

/-- Settles O6: every table is empty, so each record is the one of an unlisted key, and the four drives are alike. -/
theorem resetValues : Obligations.ResetValues := by
  unfold Obligations.ResetValues
  refine ⟨fun k r h => State.reset_reg h, rfl, rfl, rfl, rfl, rfl, rfl, rfl, rfl, rfl, rfl, rfl, rfl, rfl, rfl, rfl, fun i => ⟨rfl, rfl⟩,
    fun f => rfl, fun d => ?_⟩
  rw [State.reset_drive d]
  exact ⟨rfl, rfl, rfl, fun r => by rw [Drive.reset_axis r]; rfl⟩

end Sys2Proof.Machine
end

section
/-! SUPPORT. The integrity halt (R475, R487, R489): what a halted block closes, that every command outside `answersInHalt` leaves it as it
is, and that of those inside only a reset ends it. -/

namespace Sys2Proof.Machine

/-! ### What is closed in the halt -/

theorem State.not_running_of_halted {s : State} (h : s.hlt.halt.isSome = true) : s.running = false := by
  obtain ⟨i, hi⟩ := Option.isSome_iff_exists.mp h
  simp [State.running, hi]

theorem ite_of_both {p : Prop} [Decidable p] {s a b : State} (ha : a = s) (hb : b = s) : (if p then a else b) = s := by
  rw [ha, hb, ite_self]

section Closed
variable {s : State} (running : s.running = false)
include running

theorem State.not_serving_of_not_running : s.serving = false := by
  simp [State.serving, running]

theorem State.barOpen_of_not_running (f : Nat) : s.barOpen f = false := by
  simp [State.barOpen, State.not_serving_of_not_running running]

theorem State.cfgOpen_of_not_running (f : Nat) : s.cfgOpen f = false := by
  simp [State.cfgOpen, State.not_serving_of_not_running running]

theorem cfgTo_not (f : Nat) (g : State → State) : cfgTo f s g = s := if_pos (by simp [running])

/-- A write of configuration space is one write of a field after another; none has an effect. -/
theorem State.writeCfg_not (f : Func) (off v : Nat) : s.writeCfg f off v = s := by
  have still : ∀ g, runRow (.next (cfgTo f.toNat s g)) s = s := fun _ => cfgTo_not running _ _
  have still0 : ∀ g, runRow (.next (cfgTo 0 s g)) s = s := fun _ => cfgTo_not running _ _
  have doe : runRow (execDoeAbort s) s = s := if_neg (by rw [State.cfgOpen_of_not_running running]; exact Bool.false_ne_true)
  unfold State.writeCfg
  extract_lets run set pf other fields
  have hset : ∀ c pos len, set c pos len s = s := fun _ _ _ => still _
  have hother : other s = s := hset _ _ _
  have hpf : ∀ g : State → State, g s = s → pf g s = s := fun g h => by unfold pf; split <;> [exact h; rfl]
  have hfields : fields = s := by simp only [fields, hother, hset]
  clear_value fields other pf
  clear_value set
  split
  · rw [hother, hset]; exact still _
  · exact hpf _ (ite_of_both (still0 _) (ite_of_both (still0 _) rfl))
  · rw [hset, hset]
  · rw [hfields]; exact ite_of_both (still _) rfl
  · rw [hother, hset]
  · rw [show run _ s = s from still _, hset, hset, hset]
  · rw [hother, hset]
  · exact hset _ _ _
  · exact hset _ _ _
  · refine hpf _ ?_
    have off : (if bitN v 0 then s else run execVfEnableClear s) = s := ite_of_both rfl (still0 _)
    dsimp only
    rw [off, hset, hset]
    exact ite_of_both (still0 _) rfl
  · exact hpf _ (still0 _)
  · exact hpf _ (still0 _)
  · refine hpf _ ?_
    have abort : (if bitN v 0 then run execDoeAbort s else s) = s := ite_of_both doe rfl
    rw [abort, hset]
  · rw [hother, hset, hset]
  · rw [hother, hset]
  · exact hother

theorem registerWrite_halted (sp : Space) (off : BitVec 22) (data : List Byte) : exec (.registerWrite sp off data) s = .next s := by
  have closed := State.barOpen_of_not_running running
  cases sp with
  | bar0 f => exact congrArg _ (hostBar0_not (.inl (closed _)))
  | bar2 => exact congrArg _ (hostBar2_not (closed _))
  | cfg f => exact congrArg _ ((congrArg (ite _ · s) (State.writeCfg_not running f _ _)).trans (ite_self s))
  | hst => exact congrArg _ (if_neg (by rw [State.cfgOpen_of_not_running running]; exact Bool.false_ne_true))

theorem msixVectorUnmask_halted (f : Func) (what : Unmask) : exec (.msixVectorUnmask f what) s = .next s := by
  cases what with
  | vector v => exact congrArg _ (hostBar0_not (.inl (State.barOpen_of_not_running running _)))
  | functionMask => exact congrArg _ (cfgTo_not running _ _)
  | enable => exact congrArg _ (cfgTo_not running _ _)

end Closed

/-- A command that is not among those of R489 changes nothing in the halt. -/
theorem exec_halted {s : State} (running : s.running = false) (c : Instr) (outside : answersInHalt c = false) : exec c s = .next s :=
  have serving := State.not_serving_of_not_running running
  have closed := State.barOpen_of_not_running running
  have cfgClosed := State.cfgOpen_of_not_running running
  match c, outside with
  | .registerWrite _ _ _, _ => registerWrite_halted running _ _ _
  | .latchedPairRead _ _, h => nomatch h
  | .configWrite _ _ _, _ => congrArg _ (cfgTo_not running _ _)
  | .systemPageSizeWrite _, _ => congrArg _ (cfgTo_not running _ _)
  | .numvfsWrite _, _ => congrArg _ (cfgTo_not running _ _)
  | .vfEnableSet, _ => congrArg _ (cfgTo_not running _ _)
  | .vfEnableClear, _ => congrArg _ (cfgTo_not running _ _)
  | .busMasterEnableWrite _ _, _ => congrArg _ (cfgTo_not running _ _)
  | .completionTimeoutValueWrite _ _, _ => congrArg _ (cfgTo_not running _ _)
  | .initiateFunctionLevelReset _, _ => congrArg _ (cfgTo_not running _ _)
  | .powerStateD3hot, _ => congrArg _ (cfgTo_not running _ _)
  | .powerStateD0, _ => congrArg _ (cfgTo_not running _ _)
  | .msixVectorUnmask _ _, _ => msixVectorUnmask_halted running _ _
  | .hostReadCompletion _ _ _, _ => congrArg _ (whenServing_not serving)
  | .hostReadErrorCompletion _ _, _ => congrArg _ (whenServing_not serving)
  | .completionTimeout _, _ => congrArg _ (whenServing_not serving)
  | .leafFetchRetry _, _ => congrArg _ (whenServing_not serving)
  | .linkUp _ _, h => nomatch h
  | .dlDown, _ => congrArg _ (if_neg (by simp [running]))
  | .hotResetReceived, _ => congrArg _ (if_neg (by simp [running]))
  | .warmResetComplete, _ => congrArg _ (if_neg (by simp [running]))
  | .spdmRequest _ _ _, _ => congrArg _ (if_neg (by rw [cfgClosed]; exact Bool.false_ne_true))
  | .doeAbort, _ => congrArg _ (if_neg (by rw [cfgClosed]; exact Bool.false_ne_true))
  | .query _, _ => congrArg _ (ideKm_not (.inl (cfgClosed _)))
  | .keyProg _ _ _ _ _, _ => congrArg _ (ideKm_not (.inl (cfgClosed _)))
  | .kSetGo _ _ _ _, _ => congrArg _ (ideKm_not (.inl (cfgClosed _)))
  | .kSetStop _ _ _, _ => congrArg _ (ideKm_not (.inl (cfgClosed _)))
  | .ideTlpReceived _ _ _, _ => congrArg _ (if_neg (by simp [running]))
  | .ideTxCounterLimit _, _ => congrArg _ (whenServing_not serving)
  | .hstCntClr _, _ => congrArg _ (if_neg (by rw [cfgClosed]; exact Bool.false_ne_true))
  | .instanceStart _, _ => congrArg _ (whenServing_not serving)
  | .instanceReset _, _ => congrArg _ (whenServing_not serving)
  | .instanceRemove _, _ => congrArg _ (whenServing_not serving)
  | .setPolicy _, _ => congrArg _ (whenServing_not serving)
  | .setQuota _, _ => congrArg _ (whenServing_not serving)
  | .setPeriod _, _ => congrArg _ (whenServing_not serving)
  | .resetDrainDone _, _ => congrArg _ (whenRunning_not running)
  | .oldGenerationMediaEnded _, _ => congrArg _ (whenRunning_not running)
  | .mbInPost _ _, _ => congrArg _ (hostBar0_not (.inl (closed _)))
  | .mailboxConsume _, _ => congrArg _ (whenServing_not serving)
  | .mbOutAck _ _, _ => congrArg _ (hostBar0_not (.inl (closed _)))
  | .sharedPageWrite _ _ _, _ => congrArg _ (hostBar0_not (.inl (closed _)))
  | .policyPageUsedUpdate, _ => congrArg _ (whenServing_not serving)
  | .epochCommit _, _ => congrArg _ (whenServing_not serving)
  | .subsystemAdopt _ _, _ => congrArg _ (whenServing_not serving)
  | .epochAdoptionTimeout, _ => congrArg _ (whenServing_not serving)
  | .occupancyTick, _ => congrArg _ (whenServing_not serving)
  | .periodBoundary, _ => congrArg _ (whenServing_not serving)
  | .ringEnable _ _ _ _, _ => congrArg _ (hostBar0_not (.inl (closed _)))
  | .ringDisable _ _ _ _, _ => congrArg _ (hostBar0_not (.inl (closed _)))
  | .dbEnWrite _ _, _ => congrArg _ (hostBar0_not (.inl (closed _)))
  | .doorbellFetch _, _ => congrArg _ (whenServing_not serving)
  | .doorbellFetchComplete _ _, _ => congrArg _ (whenServing_not serving)
  | .wake _, _ => congrArg _ (hostBar0_not (.inl (closed _)))
  | .commandAccept _ _ _, _ => congrArg _ (whenServing_not serving)
  | .commandStart _, _ => congrArg _ (whenServing_not serving)
  | .write _ _, _ => congrArg _ (whenServing_not serving)
  | .read _ _ _, _ => congrArg _ (whenServing_not serving)
  | .discard _, _ => congrArg _ (whenServing_not serving)
  | .flush _, _ => congrArg _ (whenServing_not serving)
  | .commitSegment _, _ => congrArg _ (whenServing_not serving)
  | .archiveRead _, _ => congrArg _ (whenServing_not serving)
  | .verify _, _ => congrArg _ (whenServing_not serving)
  | .identify _, _ => congrArg _ (whenServing_not serving)
  | .getLog _, _ => congrArg _ (whenServing_not serving)
  | .getUsage _, _ => congrArg _ (whenServing_not serving)
  | .stripeLoad _ _ _ _, _ => congrArg _ (whenServing_not serving)
  | .stripeFinalize _ _, _ => congrArg _ (whenServing_not serving)
  | .stripeRebuild _ _ _ _, _ => congrArg _ (whenServing_not serving)
  | .storeSettings _, _ => congrArg _ (whenServing_not serving)
  | .storeSettingsCapture _, _ => congrArg _ (whenServing_not serving)
  | .fwStage _, _ => congrArg _ (whenServing_not serving)
  | .fwActivate _, _ => congrArg _ (whenServing_not serving)
  | .completionWrite _, _ => congrArg _ (whenServing_not serving)
  | .coalescingTimeout _ _, _ => congrArg _ (whenServing_not serving)
  | .goTask _ _, _ => congrArg _ (hostBar0_not (.inl (closed _)))
  | .taskPortCompletion _, _ => congrArg _ (whenServing_not serving)
  | .integrityHalt _ _, h => nomatch h
  | .haltRecordWritten, h => nomatch h
  | .haltedStateRequest _, h => nomatch h
  | .selftestPeriod _, _ => congrArg _ (whenRunning_not running)
  | .drbgReseed, _ => congrArg _ (whenRunning_not running)
  | .entropyHealthFail, _ => congrArg _ (whenRunning_not running)
  | .jtagAccess _ _ _, h => nomatch h
  | .quarClr _, _ => congrArg _ (hostBar2_not (closed _))
  | .nandPageProgramDone _, _ => congrArg _ (whenRunning_not running)
  | .pageWaitTimeout _, _ => congrArg _ (whenRunning_not running)
  | .nandProgramFail _, _ => congrArg _ (whenRunning_not running)
  | .nandEraseDone _ _ _, _ => congrArg _ (whenRunning_not running)
  | .nandReadDone _ _, _ => congrArg _ (whenRunning_not running)
  | .journalFlush, _ => congrArg _ (whenRunning_not running)
  | .journalFlushComplete, _ => congrArg _ (whenRunning_not running)
  | .rootCheckpoint, _ => congrArg _ (whenRunning_not running)
  | .garbageCollection, _ => congrArg _ (whenRunning_not running)
  | .staticWearLevelling _, _ => congrArg _ (whenRunning_not running)
  | .refreshRead _ _ _ _, _ => congrArg _ (whenRunning_not running)
  | .dieBusyTimeout _, _ => congrArg _ (whenRunning_not running)
  | .dieRebuildDone _, _ => congrArg _ (whenRunning_not running)
  | .writeSpaceWaitTimeout _, _ => congrArg _ (whenServing_not serving)
  | .zqCalibration, _ => congrArg _ (whenRunning_not running)
  | .hregEnable, _ => congrArg _ (hostBar2_not (closed _))
  | .hregDisable, _ => congrArg _ (hostBar2_not (closed _))
  | .hregDisableDone, _ => congrArg _ (whenRunning_not running)
  | .pdPgoodFall, _ => congrArg _ (whenRunning_not running)
  | .pdPgoodRise, _ => congrArg _ (whenRunning_not running)
  | .mchEnableWrite _, _ => congrArg _ (hostBar2_not (closed _))
  | .clean _, _ => congrArg _ (hostBar2_not (closed _))
  | .invalidate _, _ => congrArg _ (hostBar2_not (closed _))
  | .cleanAndInvalidate _, _ => congrArg _ (hostBar2_not (closed _))
  | .maintenanceOpDone _, _ => congrArg _ (whenRunning_not running)
  | .parityWindowExpiry _, _ => congrArg _ (whenRunning_not running)
  | .wayEn _, _ => congrArg _ (hostBar2_not (closed _))
  | .segmentAdmit, _ => congrArg _ (whenServing_not serving)
  | .archiveBlockFormat _, _ => congrArg _ (whenServing_not serving)
  | .fillerTimeout, _ => congrArg _ (whenServing_not serving)
  | .stripeRecordStart, _ => congrArg _ (whenServing_not serving)
  | .slotVerifyResult _ _, _ => congrArg _ (whenServing_not serving)
  | .archiveDone _, _ => congrArg _ (whenServing_not serving)
  | .pendingEntriesWrite _, _ => congrArg _ (whenServing_not serving)
  | .degradedDriveTimeout _, _ => congrArg _ (whenServing_not serving)
  | .zoneWobbleMeasure _ _ _ _, _ => congrArg _ (whenServing_not serving)
  | .channelClockLockChange _ _ _, _ => congrArg _ (whenServing_not serving)
  | .frameSync _ _ _, _ => congrArg _ (whenServing_not serving)
  | .blockDecode _, _ => congrArg _ (whenServing_not serving)
  | .readRetry _, _ => congrArg _ (whenServing_not serving)
  | .opcRun _ _ _, _ => congrArg _ (whenServing_not serving)
  | .opcGo _, _ => congrArg _ (whenServing_not serving)
  | .servoSample _ _ _ _, _ => congrArg _ (whenServing_not serving)
  | .servoSampleDeadline _ _, _ => congrArg _ (whenServing_not serving)
  | .limitGroupSample _ _ _, _ => congrArg _ (whenServing_not serving)
  | .swap _ _, _ => congrArg _ (whenServing_not serving)
  | .openAxis _, _ => congrArg _ (whenServing_not serving)
  | .closeAxis _, _ => congrArg _ (whenServing_not serving)
  | .acquire _ _, _ => congrArg _ (whenServing_not serving)
  | .seek _ _, _ => congrArg _ (whenServing_not serving)
  | .layerJump _ _, _ => congrArg _ (whenServing_not serving)
  | .releaseToHeron _, _ => congrArg _ (whenServing_not serving)
  | .layerJumpTimeout _, _ => congrArg _ (whenServing_not serving)
  | .seekConfirm _ _, _ => congrArg _ (whenServing_not serving)
  | .driveStartSequence _, _ => congrArg _ (whenServing_not serving)
  | .rateMeterBin, _ => congrArg _ (whenServing_not serving)
  | .sourceFaultHoldExpiry _, _ => congrArg _ (whenServing_not serving)
  | .spinStart _, _ => congrArg _ (whenServing_not serving)
  | .spinStop _, _ => congrArg _ (whenServing_not serving)
  | .coast _, _ => congrArg _ (whenServing_not serving)
  | .clearFault _, _ => congrArg _ (whenServing_not serving)
  | .rotorDetectDone _ _, _ => congrArg _ (whenServing_not serving)
  | .alignmentDone _, _ => congrArg _ (whenServing_not serving)
  | .forcedCommutation _, _ => congrArg _ (whenServing_not serving)
  | .zeroCrossing _ _ _ _, _ => congrArg _ (whenServing_not serving)
  | .crossingWindowMiss _, _ => congrArg _ (whenServing_not serving)
  | .rotorReacquired _ _ _, _ => congrArg _ (whenServing_not serving)
  | .reacquisitionTimeout _, _ => congrArg _ (whenServing_not serving)
  | .lockedRotorTimeout _, _ => congrArg _ (whenServing_not serving)
  | .lockedRotorRetry _, _ => congrArg _ (whenServing_not serving)
  | .spindleOvercurrent _, _ => congrArg _ (whenServing_not serving)
  | .brakeProbe _ _, _ => congrArg _ (whenServing_not serving)
  | .brakeTimeout _, _ => congrArg _ (whenServing_not serving)
  | .spindleIdleTimeout _, _ => congrArg _ (whenServing_not serving)
  | .travel _, _ => congrArg _ (whenServing_not serving)
  | .sledSeek _, _ => congrArg _ (whenServing_not serving)
  | .home _, _ => congrArg _ (whenServing_not serving)
  | .park _, _ => congrArg _ (whenServing_not serving)
  | .sledStop _, _ => congrArg _ (whenServing_not serving)
  | .sledRelease _, _ => congrArg _ (whenServing_not serving)
  | .sledClear _, _ => congrArg _ (whenServing_not serving)
  | .sledPlanTick _, _ => congrArg _ (whenServing_not serving)
  | .sledTickLate _, _ => congrArg _ (whenServing_not serving)
  | .sledArrivalReport _, _ => congrArg _ (whenServing_not serving)
  | .sledRereference _ _, _ => congrArg _ (whenServing_not serving)
  | .boostDecay _, _ => congrArg _ (whenServing_not serving)
  | .sledOvercurrent _ _, _ => congrArg _ (whenServing_not serving)
  | .openCoil _ _, _ => congrArg _ (whenServing_not serving)
  | .calItemGo _ _, _ => congrArg _ (whenServing_not serving)
  | .calStore, _ => congrArg _ (whenServing_not serving)
  | .calItemRun _, _ => congrArg _ (whenServing_not serving)
  | .calDeferTimeout, _ => congrArg _ (whenServing_not serving)
  | .calPeriodicStore, _ => congrArg _ (whenServing_not serving)
  | .converterCheckPeriod, _ => congrArg _ (whenServing_not serving)
  | .vcoreLow, _ => congrArg _ (whenRunning_not running)
  | .speedIndexMeasure _ _, _ => congrArg _ (whenRunning_not running)
  | .fabricSlowAlarmClear, _ => congrArg _ (whenRunning_not running)
  | .tputWindow _, _ => congrArg _ (whenRunning_not running)
  | .tputClr _, _ => congrArg _ (whenRunning_not running)
  | .crystalQualified _ _, h => nomatch h
  | .xt25Requalify _, h => nomatch h
  | .clockSourceFault _, h => nomatch h
  | .supervisorGate _ _ _, h => nomatch h
  | .ref25Switchover, h => nomatch h
  | .sourceReturn, h => nomatch h
  | .selReq _, _ => congrArg _ (whenServing_not serving)
  | .sleepModeEntry, _ => congrArg _ (whenServing_not serving)
  | .powerModeWake, _ => congrArg _ (whenRunning_not running)
  | .fmcGo _, _ => congrArg _ (whenServing_not serving)
  | .fmcDone _, _ => congrArg _ (whenServing_not serving)
  | .pseClassChange _, _ => congrArg _ (whenRunning_not running)
  | .budgetSample _, _ => congrArg _ (whenRunning_not running)
  | .powerOnReset _, h => nomatch h
  | .brownOut _, h => nomatch h
  | .perstNAssert, h => nomatch h
  | .perstNDeassert, h => nomatch h
  | .startupSequence _, _ => congrArg _ (whenRunning_not running)
  | .sweepComplete, _ => congrArg _ (whenRunning_not running)
  | .firstReadyState, _ => congrArg _ (whenRunning_not running)
  | .startupSetReload _ _, _ => congrArg _ (whenServing_not serving)
  | .accClr, _ => congrArg _ (hostBar2_not (closed _))
  | .rstCntClear, _ => congrArg _ (hostBar2_not (closed _))
  | .sensorSample _, _ => congrArg _ (whenRunning_not running)
  | .hotClear, _ => congrArg _ (whenRunning_not running)
  | .thermWrite _, _ => congrArg _ (whenServing_not serving)
  | .logFoldFlush, _ => congrArg _ (whenRunning_not running)
  | .logMirrorWrite, _ => congrArg _ (whenRunning_not running)
  | .logNvmWrite, _ => congrArg _ (whenRunning_not running)
  | .timSecLoRead, _ => congrArg _ (whenServing_not serving)
  | .setClock, _ => congrArg _ (whenServing_not serving)
  | .cancel, _ => congrArg _ (whenServing_not serving)
  | .clockCommit, _ => congrArg _ (whenRunning_not running)
  | .lastAliveWrite, _ => congrArg _ (whenRunning_not running)
  | .monoFloorWrite, _ => congrArg _ (whenRunning_not running)
  | .monI, _ => congrArg _ (if_neg (by simp [running]))
  | .monRd _ _, _ => congrArg _ (if_neg (by simp [running]))
  | .monWr _ _ _, _ => congrArg _ (if_neg (by simp [running]))
  | .baud _, _ => congrArg _ (if_neg (by simp [running]))
  | .lock, _ => congrArg _ (if_neg (by simp [running]))
  | .unlock _, _ => congrArg _ (if_neg (by simp [running]))
  | .monitorGo, _ => congrArg _ (if_neg (by simp [running]))
  | .monitorIdleTimeout, _ => congrArg _ (if_neg (by simp [running]))
  | .inputQualified _ _, _ => congrArg _ (whenRunning_not running)
  | .chatterClear _, _ => congrArg _ (whenRunning_not running)
  | .inputStuck _, _ => congrArg _ (whenRunning_not running)
  | .stuckClear _, _ => congrArg _ (whenRunning_not running)
  | .analogueOutOfRange _ _, _ => congrArg _ (whenRunning_not running)
  | .analogueReturn _ _, _ => congrArg _ (whenRunning_not running)
  | .entropyHealthRecovery, _ => congrArg _ (whenRunning_not running)
  | .carrierPeriod _ _ _ _, _ => congrArg _ (whenServing_not serving)
  | .commutation _, _ => congrArg _ (whenServing_not serving)
  | .sweepWatermark _, _ => congrArg _ (whenRunning_not running)
  | .unknownCommand _, _ => congrArg _ (if_neg (by simp [running]))

/-! ### Which step ends the halt -/

/-- A state in the integrity halt, with power-on reset released. -/
def State.Halted (s : State) : Prop := s.hlt.halt.isSome = true ∧ s.hlt.porHeld = false

theorem State.Halted.of_hlt {s t : State} (h : s.Halted) (e : t.hlt = s.hlt) : t.Halted := by
  unfold State.Halted
  rw [e]
  exact h

theorem State.Halted.countFurther {s : State} (h : s.Halted) (n : Nat) : (s.countFurther n).Halted := by
  unfold State.countFurther
  split
  · extract_lets i k u
    have hu : u.Halted := ⟨rfl, h.2⟩
    exact iteInduction (fun _ => hu.of_hlt rfl) (fun _ => hu)
  · exact h

theorem State.Halted.recordHalt {s : State} (h : s.Halted) : s.recordHalt.Halted := by
  unfold State.recordHalt
  split
  · split
    · exact h
    · exact ⟨rfl, h.2⟩
  · exact h

theorem State.Halted.perstNDeassert {s : State} (h : s.Halted) (z : State) : (runRow (execPerstNDeassert s) z).Halted := by
  unfold execPerstNDeassert
  rw [runRow_next]
  split
  · exact h
  · extract_lets k u l v
    have hu : u.Halted := h
    have hv : v.Halted := hu.of_hlt rfl
    refine iteInduction (fun _ => hu) (fun _ => iteInduction (fun _ => ?_) (fun _ => hv))
    exact hv.of_hlt (State.note_hlt _ _ _)

/-- A command whose frame leaves the halt controller out keeps the halt. -/
theorem State.Halted.of_frame {s : State} (h : s.Halted) (z : State) (c : Instr) (hf : (mayChange c).elem .hlt = false) :
    (runRow (Machine.exec c s) z).Halted :=
  h.of_hlt ((exec_only s z c).at .hlt hf)

theorem State.Halted.integrityHalt {s : State} (h : s.Halted) (z : State) (c : HaltCause) (more : List HaltCause) :
    (runRow (execIntegrityHalt c more s) z).Halted := by
  have counted : execIntegrityHalt c more s = .next (s.countFurther (1 + more.length)) :=
    congrArg Host.Outcome.next ((if_neg (by rw [h.2]; exact Bool.false_ne_true)).trans (if_pos h.1))
  rw [counted]
  exact h.countFurther _

/-- Of the commands of R489 only three write the halt controller, but for the resets. -/
theorem State.Halted.inside {s : State} (h : s.Halted) (z : State) : ∀ c : Instr, answersInHalt c = true → beginsReset c = false →
    (runRow (Machine.exec c s) z).Halted
  | .integrityHalt c more, _, _ => h.integrityHalt z c more
  | .haltRecordWritten, _, _ => h.recordHalt
  | .perstNDeassert, _, _ => h.perstNDeassert z
  | .latchedPairRead _ _, _, _ => h.of_frame z _ rfl
  | .linkUp _ _, _, _ => h.of_frame z _ rfl
  | .haltedStateRequest _, _, _ => h.of_frame z _ rfl
  | .jtagAccess _ _ _, _, _ => h.of_frame z _ rfl
  | .crystalQualified _ _, _, _ => h.of_frame z _ rfl
  | .xt25Requalify _, _, _ => h.of_frame z _ rfl
  | .clockSourceFault _, _, _ => h.of_frame z _ rfl
  | .supervisorGate _ _ _, _, _ => h.of_frame z _ rfl
  | .ref25Switchover, _, _ => h.of_frame z _ rfl
  | .sourceReturn, _, _ => h.of_frame z _ rfl

/-- No command but a reset ends the halt. -/
theorem State.Halted.exec {s : State} (h : s.Halted) (z : State) (c : Instr) (hc : beginsReset c = false) :
    (runRow (Machine.exec c s) z).Halted := by
  cases ha : answersInHalt c with
  | true => exact h.inside z c ha hc
  | false =>
    rw [exec_halted (State.not_running_of_halted h.1) c ha]
    exact h

theorem State.Halted.tick {s : State} (h : s.Halted) : (tick s).Halted := h.of_hlt ((tick_only s).at .hlt rfl)

theorem exec_reset_ends_halt {s : State} (held : s.hlt.porHeld = false) : ∀ c : Instr, beginsReset c = true →
    ∃ t, exec c s = .next t ∧ t.hlt.halt = none
  | .powerOnReset _, _ => ⟨_, rfl, rfl⟩
  | .brownOut _, _ => ⟨_, rfl, rfl⟩
  | .perstNAssert, _ => ⟨s.perstReset, congrArg _ (if_neg (by rw [held]; exact Bool.false_ne_true)), rfl⟩

/-- Settles O5: a command outside R489 finds everything closed, the three others that write the halt controller keep the halt, and each
reset starts from a controller without one. -/
theorem haltLeftOnlyByReset : Obligations.HaltLeftOnlyByReset := by
  unfold Obligations.HaltLeftOnlyByReset
  refine ⟨fun c s halt held outside => exec_halted (State.not_running_of_halted halt) c outside, fun s t halt held queue next => ?_,
    fun c s begins held => exec_reset_ends_halt held c begins⟩
  have h : s.Halted := ⟨halt, held⟩
  cases hq : s.pending with
  | nil =>
    rw [step_of_nil hq] at next
    cases next
    exact h.tick
  | cons c r =>
    rw [step_of_cons hq] at next
    have k : ({ s with pending := r } : State).Halted := h
    have := k.exec s c (queue c r hq)
    rwa [next, runRow_next] at this

end Sys2Proof.Machine
end

section
/-! SUPPORT. The tick of the sled's plan (R406, R409, R410, R422): what it makes of the sled in each state, and a late one. -/

namespace Sys2Proof.Machine

section PlanTick
variable (s : State) (d : Nat)

/-- The next position and speed of the plan, and the arrival it notes. -/
def State.planned (travel : Bool) (vmax : Int) : State :=
  let l := (s.drive d).sled
  let r := planTick travel l.p l.v (l.tgt * 65536) (s.sldA d) vmax (perTick (Cf.SLD_MOT3_v_min s d))
  let u := s.modSled d (fun l => { l with p := r.1, v := r.2.1, a := r.2.2.1 })
  if r.2.2.2 then u.sledArrived d else u

/-- An unpowered or holding sled follows where its axis is closed, homed stands and power is good; `t` is the state otherwise. -/
def State.followOr (t : State) : State :=
  if decide (((s.drive d).axis 3).st = .closed) && (s.drive d).sled.homed && s.pgood then s.modSled d (fun l => { l with st := .follow, a := 0 })
  else t

/-- The wait at the inner stop, and the move outward that ends it (R406). -/
def State.homeWait : State :=
  if (s.drive d).sled.wait ≤ 1 then s.modSled d (fun l => { l with home := 4, wait := 0, tgt := Cf.SLD_MECH_LEAD_pos_lead s d })
  else s.modSled d (fun l => { l with wait := l.wait - 1 })

/-- The sled's own part of a tick, by its state; the coils follow after it. -/
def State.sledTicked : State :=
  match (s.drive d).sled.st with
  | .off => s.followOr d s
  | .fault => s
  | .hold => s.followOr d (s.modSled d (fun l => { l with v := 0, a := 0 }))
  | .follow => if (s.drive d).sled.stopping || !decide (((s.drive d).axis 3).st = .closed) || !s.pgood then s.brakeTick d else s.followTick d
  | .homing =>
    if (s.drive d).sled.stopping then s.brakeTick d
    else if (s.drive d).sled.home = 3 then s.homeWait d
    else s.planned d true (if (s.drive d).sled.home = 2 then perTick (Cf.SLD_HOME_v_home s d) else perTick (Cf.SLD_MOT_v_max s d))
  | .travel => if (s.drive d).sled.stopping then s.brakeTick d else s.planned d true (perTick (Cf.SLD_MOT_v_max s d))
  | .seek => if (s.drive d).sled.stopping then s.brakeTick d else s.planned d false (perTick (Cf.SLD_MOT_v_max s d))

end PlanTick

section Tick
variable {d : Fin 4} {s : State}

theorem exec_sledPlanTick_of (hs : s.serving = true) :
    exec (.sledPlanTick d) s = .next (((s.sledTicked d.val).coils d.val (s.drive d.val).sled.pos).settle) :=
  congrArg Host.Outcome.next (whenServing_of hs)

/-- The plan's tick as the next position `p`, speed `v` and acceleration `an`, and whether it arrives. -/
theorem State.planned_of {d : Nat} {travel arr : Bool} {vmax p v an : Int}
    (h : planTick travel (s.drive d).sled.p (s.drive d).sled.v ((s.drive d).sled.tgt * 65536) (s.sldA d) vmax
      (perTick (Cf.SLD_MOT3_v_min s d)) = (p, v, an, arr)) :
    s.planned d travel vmax = if arr then (s.modSled d (fun l => { l with p := p, v := v, a := an })).sledArrived d
      else s.modSled d (fun l => { l with p := p, v := v, a := an }) := by
  unfold State.planned
  dsimp only
  rw [h]

/-- A sled that moves to a target and is told to stop brakes. -/
theorem State.sledTicked_stopping {d : Nat} (hst : (s.drive d).sled.st = .homing ∨ (s.drive d).sled.st = .travel ∨ (s.drive d).sled.st = .seek)
    (stop : (s.drive d).sled.stopping = true) : s.sledTicked d = s.brakeTick d := by
  unfold State.sledTicked
  rcases hst with h | h | h <;> rw [h] <;> exact if_pos stop

theorem State.sledTicked_move {d : Nat} (hst : (s.drive d).sled.st = .travel ∨ (s.drive d).sled.st = .seek)
    (going : (s.drive d).sled.stopping = false) :
    s.sledTicked d = s.planned d (decide ((s.drive d).sled.st = .travel)) (perTick (Cf.SLD_MOT_v_max s d)) := by
  unfold State.sledTicked
  rcases hst with h | h <;> rw [h] <;> exact if_neg (by rw [going]; exact Bool.false_ne_true)

theorem State.sledTicked_homing {d : Nat} (hst : (s.drive d).sled.st = .homing) (going : (s.drive d).sled.stopping = false) :
    s.sledTicked d = if (s.drive d).sled.home = 3 then s.homeWait d
      else s.planned d true (if (s.drive d).sled.home = 2 then perTick (Cf.SLD_HOME_v_home s d) else perTick (Cf.SLD_MOT_v_max s d)) := by
  unfold State.sledTicked
  rw [hst]
  exact if_neg (by rw [going]; exact Bool.false_ne_true)

/-- A late tick: the move stops, the tick is counted, and homed falls where the sled was fast. -/
def Sled.lateTick (fast : Bool) (l : Sled) : Sled :=
  { l with late := inc16 l.late, v := 0, a := 0, homed := l.homed && !fast, lateOnly := l.lateOnly || (l.homed && fast) }

theorem exec_sledTickLate_of (hs : s.serving = true) {fast : Bool} (hf : fast = true ↔
      ((s.drive d.val).sled.st = .homing ∨ (s.drive d.val).sled.st = .follow ∨ (s.drive d.val).sled.st = .travel ∨
        (s.drive d.val).sled.st = .seek) ∧ perTick (Cf.SLD_MOT3_v_min s d.val) < ((s.drive d.val).sled.v.natAbs : Int)) :
    exec (.sledTickLate d) s = .next ((s.modSled d.val (Sled.lateTick fast)).alarmRise 4) := by
  have h := Bool.eq_iff_iff.mpr (hf.trans decide_eq_true_iff.symm)
  rw [Bool.decide_and] at h
  subst h
  exact congrArg Host.Outcome.next (whenServing_of hs)

end Tick

end Sys2Proof.Machine
end

section
/-! SUPPORT. A sled's position by an address: the anchor, its tolerance and lost steps (R407, R414, R415). -/

namespace Sys2Proof.Machine

/-- An address tells where the sled is: it holds or follows, and its drive is calibrated (R407). -/
structure State.Placeable (s : State) (d : Nat) : Prop where
  still : (s.drive d).sled.st = .hold ∨ (s.drive d).sled.st = .follow
  wobble : s.zoneW d (s.drive d).layer 0 ≠ 0
  pitch : Cf.SLD_MECH_NM_nm16 s d ≠ 0

/-- A late tick alone had cleared homed, and the address sets it again (R422). -/
def State.homedAgain (s : State) (d : Nat) : State :=
  if (s.drive d).sled.lateOnly then s.modSled d (fun l => { l with homed := true, lateOnly := false }) else s

/-- Lost steps declared at `times`: the sled stands at `pe`, and the current is boosted by a step (R403, R415). -/
def State.stepsLost (u : State) (d : Nat) (pe rk diff : Int) (times : List Nat) : State :=
  (u.modSled d (fun l =>
    { l with p := pe * 65536, anchorP := pe, anchorR := rk, lost := inc16 l.lost, err := diff, lostTimes := times, lastDecl := u.tm.mono,
             boost := min (Cf.SLD_CUR_i_max u d - Cf.SLD_CUR_i_hold u d) (l.boost + Cf.SLD_CUR2_step u d) })).note .stepsLost d

section Rereference
variable {d : Fin 4} {k : Fin 567840} {s : State}

theorem exec_sledRereference_unplaced (h : ¬s.Placeable d.val) : exec (.sledRereference d k) s = .next s := by
  refine congrArg Host.Outcome.next (whenServing_same (if_pos ?_))
  by_contra none
  obtain ⟨still, known⟩ := not_or.mp none
  obtain ⟨wobble, pitch⟩ := not_or.mp known
  exact h ⟨Classical.byContradiction (fun moving => still (by simp [moving])), wobble, pitch⟩

theorem State.Placeable.not_stays (h : s.Placeable d.val) :
    ¬((!decide ((s.drive d.val).sled.st = .hold ∨ (s.drive d.val).sled.st = .follow)) = true ∨
    s.zoneW d.val (s.drive d.val).layer 0 = 0 ∨ Cf.SLD_MECH_NM_nm16 s d.val = 0) := by
  rintro (moving | none | none)
  · simp [h.still] at moving
  · exact h.wobble none
  · exact h.pitch none

theorem exec_sledRereference_first (hs : s.serving = true) (h : s.Placeable d.val) (ha : (s.drive d.val).sled.anchored = false) :
    exec (.sledRereference d k) s = .next (s.modSled d.val (fun l =>
      { l with anchored := true, anchorP := l.pos, anchorR := s.slotRadius d.val (s.drive d.val).layer k.val, homed := l.homed || l.lateOnly,
               lateOnly := false })) :=
  congrArg Host.Outcome.next ((whenServing_of hs).trans ((if_neg h.not_stays).trans (if_pos (by rw [ha]; rfl))))

/-- An address met with the anchor set: within the tolerance it moves the anchor; else steps are lost. -/
theorem exec_sledRereference_anchored {u : State} {pe rk diff : Int} {times : List Nat} (hs : s.serving = true) (h : s.Placeable d.val)
    (ha : (s.drive d.val).sled.anchored = true) (hu : u = s.homedAgain d.val) (hp : pe = s.slotPos d.val (s.drive d.val).layer k.val)
    (hk : rk = s.slotRadius d.val (s.drive d.val).layer k.val) (hd : diff = (s.drive d.val).sled.pos - pe)
    (ht : times = (u.tm.mono :: (s.drive d.val).sled.lostTimes).filter (fun t => u.tm.mono < t + 600000)) : exec (.sledRereference d k) s =
      .next (if diff.natAbs ≤ Cf.SLD_LOST_tol u d.val then u.modSled d.val (fun l => { l with anchorP := l.pos, anchorR := rk })
        else if Cf.SLD_LOST_max (u.stepsLost d.val pe rk diff times) d.val < times.length then
          (u.stepsLost d.val pe rk diff times).sledFault d.val 4
        else u.stepsLost d.val pe rk diff times) := by
  subst hu hp hk hd ht
  exact congrArg Host.Outcome.next ((whenServing_of hs).trans ((if_neg h.not_stays).trans (if_neg (by rw [ha]; exact Bool.false_ne_true))))

end Rereference

section LostSteps
variable (s : State) (d : Nat)

theorem State.homedAgain_same : (s.homedAgain d).tm = s.tm ∧ (s.homedAgain d).liveSet = s.liveSet ∧
    (s.homedAgain d).drives.length = s.drives.length := by
  unfold State.homedAgain
  split
  · exact ⟨rfl, rfl, modNth_length _ _ _⟩
  · exact ⟨rfl, rfl, rfl⟩

theorem State.homedAgain_lost (h : d < s.drives.length) : ((s.homedAgain d).drive d).sled.lost = (s.drive d).sled.lost := by
  unfold State.homedAgain
  split
  · show (nth Drive.reset (modNth _ s.drives d) d).sled.lost = _
    rw [nth_modNth_same Drive.reset _ s.drives d h]
    rfl
  · rfl

variable {s d} (pe rk diff : Int) (times : List Nat)

theorem State.stepsLost_drives : (s.stepsLost d pe rk diff times).drives.length = s.drives.length :=
  (congrArg List.length ((State.note_only _ _ _).at .drives rfl)).trans (modNth_length _ _ _)

theorem State.stepsLost_lost (h : d < s.drives.length) :
    ((s.stepsLost d pe rk diff times).drive d).sled.lost = inc16 (s.drive d).sled.lost := by
  refine (congrArg Sled.lost ((Sleds.of_drives ((State.note_only _ _ _).at .drives rfl)).sled d)).trans ?_
  exact congrArg (fun r : Drive => r.sled.lost) (nth_modNth_same Drive.reset _ s.drives d h)

theorem State.stepsLost_liveSet : (s.stepsLost d pe rk diff times).liveSet = s.liveSet := (State.note_only _ _ _).at .liveSet rfl

end LostSteps

theorem Cf.SLD_LOST_tol_of_liveSet {s t : State} (h : t.liveSet = s.liveSet) (d : Nat) : Cf.SLD_LOST_tol t d = Cf.SLD_LOST_tol s d := by
  simp only [Cf.SLD_LOST_tol, State.live, h]

theorem Cf.SLD_LOST_max_of_liveSet {s t : State} (h : t.liveSet = s.liveSet) (d : Nat) : Cf.SLD_LOST_max t d = Cf.SLD_LOST_max s d := by
  simp only [Cf.SLD_LOST_max, State.live, h]

/-- Settles O56: the declaration is counted before the fault, which keeps the counts; neither homed nor the log touches a setting. -/
theorem lostStepsFault : Obligations.LostStepsFault := by
  unfold Obligations.LostStepsFault
  intro d k s l r hs hlen hr hl still wobble pitch anchored off many
  subst hl hr
  have hd : d.val < s.drives.length := by omega
  obtain ⟨htm, hset, hsame⟩ := s.homedAgain_same d.val
  have run := exec_sledRereference_anchored (k := k) hs ⟨still, wobble, pitch⟩ anchored rfl rfl rfl rfl rfl
  rw [if_neg (by rw [Cf.SLD_LOST_tol_of_liveSet hset]; omega),
    if_pos (by rw [Cf.SLD_LOST_max_of_liveSet (State.stepsLost_liveSet ..), Cf.SLD_LOST_max_of_liveSet hset, htm]; exact many)] at run
  refine Answers.of_exec run (execSledRereference_only _ _ _ _) ?_
  have hu : d.val < (s.homedAgain d.val).drives.length := hsame.symm ▸ hd
  rw [State.sledFault_sled (by rw [State.stepsLost_drives]; exact hu)]
  exact ⟨rfl, rfl, (State.stepsLost_lost _ _ _ _ hu).trans (congrArg inc16 (s.homedAgain_lost d.val hd))⟩

end Sys2Proof.Machine
end

section
/-! SUPPORT. Coil protection and the commands of the sled (R405, R406, R411, R416 to R418, R421). -/

namespace Sys2Proof.Machine

section Commands
variable {d : Fin 4} {s : State} (hs : s.serving = true)
include hs

theorem exec_sledOvercurrent_of (b : Bool) : exec (.sledOvercurrent d b) s = .next (s.sledOver d.val b) :=
  congrArg Host.Outcome.next (whenServing_of hs)

theorem exec_openCoil_of {b : Bool} (on : (s.drive d.val).sled.st ≠ .off) (sound : (s.drive d.val).sled.st ≠ .fault)
    (h : 100 ≤ (if b then (s.drive d.val).sled.openB else (s.drive d.val).sled.openA)) :
    exec (.openCoil d b) s = .next (s.sledFault d.val (if b then 2 else 1)) :=
  congrArg Host.Outcome.next ((whenServing_of hs).trans ((if_neg (not_or.mpr ⟨on, sound⟩)).trans (if_pos h)))

theorem exec_travel_of : exec (.travel d) s = .next (if s.sledMayMove d.val then
    (s.sledMove d.val .travel (Cf.SLD_TGT_target s d.val)).settle else s.sledRefuse d.val) :=
  congrArg Host.Outcome.next (whenServing_of hs)

theorem exec_sledSeek_of : exec (.sledSeek d) s = .next (if s.sledMayMove d.val then
    (s.sledMove d.val .seek (Cf.SLD_TGT_target s d.val)).settle else s.sledRefuse d.val) :=
  congrArg Host.Outcome.next (whenServing_of hs)

theorem exec_park_of : exec (.park d) s = .next (if s.sledMayMove d.val then
    ((s.sledMove d.val .travel (Cf.SLD_MECH_PARK_park s d.val)).modSled d.val (fun l => { l with parking := true })).settle
    else s.sledRefuse d.val) :=
  congrArg Host.Outcome.next (whenServing_of hs)

theorem exec_home_of : exec (.home d) s = .next (if (s.drive d.val).sled.st = .fault ∨ (s.drive d.val).sled.st = .homing ∨
    (s.drive d.val).sled.st = .travel ∨ (!s.pgood) = true then s.sledRefuse d.val else (s.sledHome d.val).settle) :=
  congrArg Host.Outcome.next (whenServing_of hs)

theorem exec_sledStop_of : exec (.sledStop d) s = .next (s.modSled d.val (fun l =>
    if l.st = .homing ∨ l.st = .follow ∨ l.st = .travel ∨ l.st = .seek then { l with stopping := true } else l)) :=
  congrArg Host.Outcome.next (whenServing_of hs)

theorem exec_sledRelease_of (host : ((s.drive d.val).axis 3).manual = true) (sound : (s.drive d.val).sled.st ≠ .fault) :
    exec (.sledRelease d) s = .next (s.modSled d.val (fun l => { l with
      st := .off, homed := false, lateOnly := false, v := 0, a := 0, iA := 0, iB := 0, stopping := false,
      parking := false, parkNext := false, report := none })) :=
  congrArg Host.Outcome.next ((whenServing_of hs).trans (if_pos (by rw [host, decide_eq_true sound]; rfl)))

theorem exec_sledRelease_refused (h : ((s.drive d.val).axis 3).manual = false ∨ (s.drive d.val).sled.st = .fault) :
    exec (.sledRelease d) s = .next (s.sledRefuse d.val) :=
  congrArg Host.Outcome.next ((whenServing_of hs).trans (if_neg (by rcases h with h | h <;> simp [h])))

theorem exec_sledClear_of : exec (.sledClear d) s = .next (s.modSled d.val (fun l =>
    if l.st = .fault then { l with st := .off, fault := 0, cutA := 0, cutB := 0, openA := 0, openB := 0 } else l)) :=
  congrArg Host.Outcome.next (whenServing_of hs)

end Commands

theorem exec_openCoil_sound {d : Fin 4} {b : Bool} {s : State} (h : (s.drive d.val).sled.st = .off ∨ (s.drive d.val).sled.st = .fault ∨
      (if b then (s.drive d.val).sled.openB else (s.drive d.val).sled.openA) < 100) : exec (.openCoil d b) s = .next s := by
  refine congrArg Host.Outcome.next (whenServing_same ?_)
  by_cases rests : (s.drive d.val).sled.st = .off ∨ (s.drive d.val).sled.st = .fault
  · exact if_pos rests
  · exact (if_neg rests).trans (if_neg (Nat.not_le.mpr (h.resolve_left (rests ∘ .inl) |>.resolve_left (rests ∘ .inr))))

/-- Settles O32: a plan tick is one case of the sled's state, an address one of what it finds, and each command is one guard. -/
theorem sledMotionAndCommands : Obligations.SledMotionAndCommands := by
  unfold Obligations.SledMotionAndCommands
  refine ⟨⟨fun d s hs hst => ?_, fun d s l p v an arr hs hl hst going plan u hu => ?_, fun d s l cl hs hl hc => ?_,
      fun d s hs fast l hl hf => ?_, fun d k s r rk hs hr hk => ⟨fun h => ?_, fun still wobble pitch => ?_⟩,
      fun d b s hs => exec_sledOvercurrent_of hs b, fun d b s l hs hl => ?_⟩,
    fun d s hs => ⟨fun may => ?_, fun may => ?_⟩, fun d s l hs hl => ?_, fun d s hs => ?_, fun d s hs => ⟨fun host sound => ?_,
      exec_sledRelease_refused hs⟩, fun d s hs => ?_⟩
  · rw [exec_sledPlanTick_of hs, State.sledTicked, hst]
  · subst hl hu
    rw [exec_sledPlanTick_of hs, State.sledTicked_move hst going, State.planned_of plan]
  · subst hl hc
    rw [exec_sledPlanTick_of hs]
    refine ⟨fun hst => ?_, fun hst => ?_, fun hst => ?_, fun hst stop => ?_, fun hst going wait => ?_,
      fun hst going move p v an arr u plan hu => ?_⟩
    · rw [State.sledTicked, hst]; rfl
    · rw [State.sledTicked, hst]; rfl
    · rw [State.sledTicked, hst]
    · rw [State.sledTicked_stopping hst stop]
    · rw [State.sledTicked_homing hst going, if_pos wait, State.homeWait]
    · rw [State.sledTicked_homing hst going, if_neg move, State.planned_of plan, hu]
  · subst hl
    classical
    refine Answers.of_exec (exec_sledTickLate_of hs (fast := decide fast) (by rw [decide_eq_true_iff, hf])) (execSledTickLate_only _ _ _)
      ⟨Sled.lateTick _, rfl, fun k => ⟨rfl, rfl, rfl, fun h => ?_, fun h => ?_⟩⟩
    · simp [Sled.lateTick, h]
    · simp [Sled.lateTick, h]
  · subst hr
    exact exec_sledRereference_unplaced (fun place => h.elim (fun ⟨holds, follows⟩ => place.still.elim holds follows)
      (fun none => none.elim place.wobble place.pitch))
  · subst hr hk
    have place : s.Placeable d.val := ⟨still, wobble, pitch⟩
    refine ⟨exec_sledRereference_first hs place, fun u pe hu hp anchored => ⟨fun near => ?_, fun times v far ht hv => ?_⟩⟩
    · rw [exec_sledRereference_anchored hs place anchored hu hp rfl rfl rfl, if_pos near]
    · subst hv
      rw [exec_sledRereference_anchored hs place anchored hu hp rfl rfl ht, if_neg (Nat.not_le.mpr far)]
      rfl
  · subst hl
    exact ⟨exec_openCoil_of hs, exec_openCoil_sound⟩
  · rw [exec_travel_of hs, exec_sledSeek_of hs, exec_park_of hs]
    simp only [if_pos may, and_self]
  · rw [exec_travel_of hs, exec_sledSeek_of hs, exec_park_of hs]
    simp only [may, Bool.false_eq_true, if_false, and_self]
  · subst hl
    rw [exec_home_of hs]
    refine ⟨fun h => ?_, fun sound still still' power => ?_⟩
    · rw [if_pos (by simpa using h)]
    · rw [if_neg (by simp [sound, still, still', power])]
  · exact Answers.of_exec (exec_sledStop_of hs) (execSledStop_only _ _ _) ⟨_, rfl, fun l => rfl⟩
  · refine Answers.of_exec (exec_sledRelease_of hs host sound) ((execSledRelease_only _ _ _).mono rfl) ⟨_, rfl, fun l => ?_⟩
    exact ⟨rfl, rfl, rfl, rfl, rfl, rfl, rfl, rfl, rfl, rfl⟩
  · refine Answers.of_exec (exec_sledClear_of hs) (execSledClear_only _ _ _) ⟨_, rfl, fun l => ⟨fun sound => if_neg sound, fun fault => ?_⟩⟩
    rw [if_pos fault]
    exact ⟨rfl, rfl, rfl, rfl, rfl, rfl⟩

end Sys2Proof.Machine
end

section
/-! SUPPORT. Calibration items and their storage (R430, R436, R437, R442): the run of an item, the items asked for, and the stores. -/

namespace Sys2Proof.Machine

section Items
variable {s : State} (hs : s.serving = true)
include hs

theorem exec_calItemRun_begins (hr : s.cal.running = none) : exec (.calItemRun none) s = .next s.beginItem := by
  refine congrArg Host.Outcome.next ((whenServing_of hs).trans ?_)
  rw [hr]

theorem exec_calItemRun_ends {k d : Nat} {t : Int} (hr : s.cal.running = some (k, d, t)) (m : CalMeas) :
    exec (.calItemRun (some m)) s = .next (s.endItem k d t m) := by
  refine congrArg Host.Outcome.next ((whenServing_of hs).trans ?_)
  rw [hr]

theorem exec_calItemGo_of (kind : Fin 16) (d : Fin 4) : exec (.calItemGo kind d) s = .next (s.calGo kind.val d.val) :=
  congrArg Host.Outcome.next (whenServing_of hs)

theorem exec_calDeferTimeout_of (h : ∃ e ∈ s.cal.due, 4 ≤ e.1 ∧ e.1 ≤ 7 ∧ e.2.2 + 1000 * Cf.CAL_CFG_defer_s s ≤ s.tm.mono) :
    exec .calDeferTimeout s = .next { s with cal := { s.cal with deferred := true } } :=
  congrArg Host.Outcome.next ((whenServing_of hs).trans (if_pos (by simpa only [List.any_eq_true, decide_eq_true_eq] using h)))

theorem exec_converterCheckPeriod_of :
    exec .converterCheckPeriod s = .next (forBelow 4 (fun d t => (t.calFallsDue 2 d).calFallsDue 3 d) s) :=
  congrArg Host.Outcome.next (whenServing_of hs)

theorem exec_calStore_of : exec .calStore s = .next s.calStore := congrArg Host.Outcome.next (whenServing_of hs)

theorem exec_calPeriodicStore_of (hd : s.cal.dirty ≠ 0) (ht : s.cal.lastStore + 60000 * Cf.CAL_CFG2_store_min s ≤ s.tm.mono) :
    exec .calPeriodicStore s = .next s.calStore :=
  congrArg Host.Outcome.next ((whenServing_of hs).trans (if_pos ⟨hd, ht⟩))

end Items

section Idle
variable {s : State}

theorem exec_calItemRun_unasked (hr : s.cal.running = none) (m : CalMeas) : exec (.calItemRun (some m)) s = .next s := by
  refine congrArg Host.Outcome.next (whenServing_same ?_)
  rw [hr]

theorem exec_calItemRun_busy {k d : Nat} {t : Int} (hr : s.cal.running = some (k, d, t)) : exec (.calItemRun none) s = .next s := by
  refine congrArg Host.Outcome.next (whenServing_same ?_)
  rw [hr]

theorem exec_calDeferTimeout_early (h : ∀ e ∈ s.cal.due, 4 ≤ e.1 → e.1 ≤ 7 → s.tm.mono < e.2.2 + 1000 * Cf.CAL_CFG_defer_s s) :
    exec .calDeferTimeout s = .next s := by
  refine congrArg Host.Outcome.next (whenServing_same (if_neg ?_))
  simp only [List.any_eq_true, decide_eq_true_eq]
  exact fun ⟨e, he, low, high, due⟩ => Nat.not_le.mpr (h e he low high) due

theorem exec_calPeriodicStore_early (h : s.cal.dirty = 0 ∨ s.tm.mono < s.cal.lastStore + 60000 * Cf.CAL_CFG2_store_min s) :
    exec .calPeriodicStore s = .next s :=
  congrArg Host.Outcome.next (whenServing_same (if_neg (fun ⟨hd, ht⟩ => h.elim hd (Nat.not_lt.mpr ht))))

end Idle

section Go
variable {s : State} {kind d : Nat}

theorem State.calGo_none (h : 10 < kind) : s.calGo kind d = s := if_pos h

theorem State.calGo_power (h : kind = 10) : s.calGo kind d = s.modWst d (fun w => { w with opcDue := List.range s.arc.layers }) :=
  (if_neg (by omega)).trans (if_pos h)

theorem State.calGo_item (h : kind < 10) {e : Nat} (he : e = if kind ≤ 1 then 0 else d) :
    s.calGo kind d = (s.modItem kind e (fun x => { x with inRow := 0 })).calDue kind e := by
  subst he
  exact (if_neg (by omega)).trans (if_neg (by omega))

end Go

/-- Settles O41: a run turns on the item that runs, a GO on its kind, and each time on its condition. -/
theorem calibrationItems : Obligations.CalibrationItems := by
  unfold Obligations.CalibrationItems
  refine ⟨fun s hs => ⟨fun hr => ⟨exec_calItemRun_begins hs hr, exec_calItemRun_unasked hr⟩,
      fun k d t hr => ⟨exec_calItemRun_busy hr, exec_calItemRun_ends hs hr⟩⟩,
    fun kind d s hs => ?_, fun s hs => ⟨exec_calDeferTimeout_of hs, exec_calDeferTimeout_early⟩,
    fun s hs => ⟨exec_converterCheckPeriod_of hs, exec_calStore_of hs, exec_calPeriodicStore_of hs, exec_calPeriodicStore_early⟩⟩
  rw [exec_calItemGo_of hs]
  exact ⟨fun h => congrArg _ (State.calGo_none h), fun h => congrArg _ (State.calGo_power h), fun h e he => congrArg _ (State.calGo_item h he)⟩

end Sys2Proof.Machine
end

section
/-! SUPPORT. The fabric-slow alarm and the throughput of the engines (R447 to R451). -/

namespace Sys2Proof.Machine

@[simp] theorem State.note_stl (s : State) (ev : Ev) (arg : Nat) : (s.note ev arg).stl = s.stl := (State.note_only s ev arg).at .stl rfl

/-- What a rise of the alarm makes of the fabric's telemetry. -/
theorem State.alarmRise_stl (s : State) (cause : Nat) : (s.alarmRise cause).stl =
    if s.stl.alarm then { s.stl with goodSince := s.tm.mono, cause := s.stl.cause ||| cause }
    else { s.stl with goodSince := s.tm.mono, alarm := true, cause := cause, count := inc16 s.stl.count } := by
  unfold State.alarmRise
  extract_lets u
  split
  · rfl
  · refine ((State.gates_only _).at .stl rfl).trans ?_
    rw [State.note_stl]

theorem State.railReading_stl (s : State) (n : Nat) (out : Bool) (k : Nat) : (s.railReading n out k).stl = s.stl :=
  (State.railReading_only s n out k).at .stl rfl

theorem State.railReading_tm (s : State) (n : Nat) (out : Bool) (k : Nat) : (s.railReading n out k).tm = s.tm :=
  (State.railReading_only s n out k).at .tm rfl

/-- The four indices of a measurement. -/
def indicesOf (idx : List (BitVec 16)) : List Nat := (List.range 4).map (fun k => (nth 0 idx k).toNat)

theorem nth_indicesOf (idx : List (BitVec 16)) {k : Nat} (h : k < 4) : nth 0 (indicesOf idx) k = (nth 0 idx k).toNat := by
  interval_cases k <;> rfl

/-- How often in a row each index has been low. -/
def State.lowRuns (s : State) (l : List Nat) : List Nat :=
  (List.range 4).map (fun k => if nth 0 l k < Cf.STL_ALM_CFG_s_lo s then nth 0 s.stl.low k + 1 else 0)

/-- An index or the voltage is low, and the hold of the alarm begins again (R451). -/
def State.fabricLow (s : State) (l : List Nat) (mv : Nat) : Bool :=
  (s.lowRuns l).any (fun n => decide (0 < n)) || decide (mv < Cf.STL_ALM_CFG_v_lo s + 10)

/-- The measurement as it is kept. -/
def State.measured (s : State) (l : List Nat) (mv : Nat) : State :=
  { s with stl := { s.stl with
    idx := l, minIdx := lowest s.stl.minIdx l, mv := mv, minMv := min s.stl.minMv mv, low := s.lowRuns l,
    goodSince := if s.fabricLow l mv then s.tm.mono else s.stl.goodSince } }

theorem State.fabricLow_of_voltage {s : State} {l : List Nat} {mv : Nat} (h : mv < Cf.STL_ALM_CFG_v_lo s + 10) : s.fabricLow l mv = true := by
  simp [State.fabricLow, h]

theorem State.fabricLow_of_index {s : State} {l : List Nat} {mv k : Nat} (hk : k < 4) (h : nth 0 l k < Cf.STL_ALM_CFG_s_lo s) :
    s.fabricLow l mv = true := by
  unfold State.fabricLow
  rw [Bool.or_eq_true, List.any_eq_true]
  exact .inl ⟨_, List.mem_map.mpr ⟨k, List.mem_range.mpr hk, if_pos h⟩, decide_eq_true (Nat.succ_pos _)⟩

section Fabric
variable {s : State} (hr : s.running = true)
include hr

theorem exec_vcoreLow_of : exec .vcoreLow s = .next (s.alarmRise 1) := congrArg Host.Outcome.next (whenRunning_of hr)

theorem exec_speedIndexMeasure_of (idx : List (BitVec 16)) (mv : BitVec 16) {u : State}
    (hu : u = (s.measured (indicesOf idx) mv.toNat).railReading 6 (decide (920 < mv.toNat)) 100) : exec (.speedIndexMeasure idx mv) s =
      .next (if (s.lowRuns (indicesOf idx)).any (fun n => decide (2 ≤ n)) then u.alarmRise 2 else u) := by
  subst hu
  exact congrArg Host.Outcome.next (whenRunning_of hr)

theorem exec_fabricSlowAlarmClear_of (ha : s.stl.alarm = true) (hv : Cf.STL_ALM_CFG_v_lo s + 10 ≤ s.stl.mv)
    (hi : ∀ n ∈ s.stl.idx, Cf.STL_ALM_CFG_s_lo s ≤ n) (ht : s.stl.goodSince + Cf.STL_ALM_CFG_hold_ms s ≤ s.tm.mono) :
    exec .fabricSlowAlarmClear s = .next ({ s with stl := { s.stl with alarm := false } } : State).settle := by
  refine congrArg Host.Outcome.next ((whenRunning_of hr).trans (if_pos ?_))
  simpa [ha, hv, ht] using hi

theorem exec_tputWindow_of (counts : List Nat) : exec (.tputWindow counts) s = .next { s with stl := { s.stl with
    last := (List.range 8).map (fun k => satU 16 (nth 0 counts k)),
    mins := (List.range 8).map (fun k => min (nth 0xFFFF s.stl.mins k) (nth 0 ((List.range 8).map (fun k => satU 16 (nth 0 counts k))) k)) } } :=
  congrArg Host.Outcome.next (whenRunning_of hr)

theorem exec_tputClr_of {v : Word} (h : fld v 0 1 = 1) :
    exec (.tputClr v) s = .next { s with stl := { s.stl with mins := List.replicate 8 0xFFFF } } :=
  congrArg Host.Outcome.next ((whenRunning_of hr).trans (if_pos h))

end Fabric

theorem exec_fabricSlowAlarmClear_early {s : State} (h : s.stl.alarm = false ∨ s.stl.mv < Cf.STL_ALM_CFG_v_lo s + 10 ∨
      (∃ n ∈ s.stl.idx, n < Cf.STL_ALM_CFG_s_lo s) ∨ s.tm.mono < s.stl.goodSince + Cf.STL_ALM_CFG_hold_ms s) :
    exec .fabricSlowAlarmClear s = .next s := by
  refine congrArg Host.Outcome.next (whenRunning_same (if_neg ?_))
  simp only [Bool.and_eq_true, decide_eq_true_eq, List.all_eq_true]
  rintro ⟨⟨⟨up, volts⟩, sites⟩, held⟩
  rcases h with h | h | ⟨n, hn, h⟩ | h
  · rw [h] at up
    exact Bool.false_ne_true up
  · exact Nat.not_le.mpr h volts
  · exact Nat.not_le.mpr h (sites n hn)
  · exact Nat.not_le.mpr h held

theorem exec_tputClr_zero {v : Word} (h : fld v 0 1 = 0) (s : State) : exec (.tputClr v) s = .next s :=
  congrArg Host.Outcome.next (whenRunning_same (if_neg (by rw [h]; decide)))

/-- The table of the eight engines, read back below 8. -/
theorem map_min_range8 (m : List Nat) (f : Nat → Nat) :
    (List.range 8).map (fun k => min (nth 0xFFFF m k) (nth 0 ((List.range 8).map f) k)) = (List.range 8).map (fun k => min (nth 0xFFFF m k) (f k)) :=
  rfl

/-- What a rise of the alarm over a measurement keeps of it; either way the hold begins at the measurement where that is low. -/
theorem State.measured_kept {s u : State} {l : List Nat} {mv : Nat} (hu : u.stl = (s.measured l mv).stl) (hm : u.tm = s.tm) (again : Bool) :
    (if again then u.alarmRise 2 else u).stl.idx = l ∧ (if again then u.alarmRise 2 else u).stl.mv = mv ∧
      (if again then u.alarmRise 2 else u).stl.minMv = min s.stl.minMv mv ∧
      (if again then u.alarmRise 2 else u).stl.minIdx = lowest s.stl.minIdx l ∧
      (s.fabricLow l mv = true → (if again then u.alarmRise 2 else u).stl.goodSince = s.tm.mono) := by
  cases again with
  | false =>
    rw [if_neg Bool.false_ne_true, hu]
    exact ⟨rfl, rfl, rfl, rfl, fun low => if_pos low⟩
  | true =>
    rw [if_pos rfl, State.alarmRise_stl, hu, hm]
    split <;> exact ⟨rfl, rfl, rfl, rfl, fun _ => rfl⟩

end Sys2Proof.Machine
end

section
/-! SUPPORT. Power modes and the frequency-measuring counter (R461, R462, R464). -/

namespace Sys2Proof.Machine

theorem State.trackIdle_frame (s : State) : s.trackIdle.liveSet = s.liveSet ∧ s.trackIdle.tm = s.tm ∧ s.trackIdle.link = s.link ∧
    s.trackIdle.clk.mode = s.clk.mode := by
  refine ⟨(State.trackIdle_only s).at .liveSet rfl, (State.trackIdle_only s).at .tm rfl, (State.trackIdle_only s).at .link rfl, ?_⟩
  unfold State.trackIdle
  exact iteInduction (motive := fun t : State => t.clk.mode = s.clk.mode)
    (fun _ => iteInduction (motive := fun t : State => t.clk.mode = s.clk.mode) (fun _ => rfl) (fun _ => rfl)) (fun _ => rfl)

/-- The mode that an idle block enters, and what its gated domain does to the sleds that hold (R461). -/
def State.asleep (u : State) (deep : Bool) : State :=
  let v : State := { u with clk := { u.clk with mode := if deep then 2 else 1 } }
  if bitN (if deep then Cf.CLK_GATE_DEEP_en u else Cf.CLK_GATE_SLP_en u) 9 then v
  else forBelow 4 (fun d t => t.modSled d (fun l => if l.st = .hold then { l with st := .off, dutyA := 0, dutyB := 0, report := none } else l)) v

theorem State.asleep_clk (u : State) (deep : Bool) : (u.asleep deep).clk = { u.clk with mode := if deep then 2 else 1 } := by
  unfold State.asleep
  extract_lets _ v
  exact iteInduction (motive := fun t : State => t.clk = v.clk) (fun _ => rfl) (fun _ => forBelow_unchanged (f := State.clk) (fun _ _ => rfl) 4 v)

/-- The idle time has lasted for idle_ms of a block that may sleep (R461). -/
abbrev State.sleepDue (u : State) (t0 : Nat) : Prop :=
  Cf.CLK_PM_sleep_en u = 1 ∧ u.clk.mode = 0 ∧ t0 + Cf.CLK_PM_idle_ms u ≤ u.tm.mono

theorem State.sleepDue_trackIdle {s : State} {t0 : Nat} : s.trackIdle.sleepDue t0 ↔ s.sleepDue t0 := by
  obtain ⟨set, time, -, mode⟩ := s.trackIdle_frame
  simp only [State.sleepDue, Cf.CLK_PM_sleep_en, Cf.CLK_PM_idle_ms, State.live, set, time, mode]

theorem State.deep_trackIdle (s : State) : (decide (Cf.CLK_PM_deep_en s.trackIdle = 1) && s.trackIdle.link.d3) =
    (decide (Cf.CLK_PM_deep_en s = 1) && s.link.d3) := by
  obtain ⟨set, -, link, -⟩ := s.trackIdle_frame
  have field : Cf.CLK_PM_deep_en s.trackIdle = Cf.CLK_PM_deep_en s := by simp only [Cf.CLK_PM_deep_en, State.live, set]
  rw [field, link]

theorem exec_sleepModeEntry_of {s : State} {t0 : Nat} (hs : s.serving = true) (h0 : s.trackIdle.clk.idleSince = some t0)
    (due : s.sleepDue t0) : exec .sleepModeEntry s = .next (s.trackIdle.asleep (decide (Cf.CLK_PM_deep_en s = 1) && s.link.d3)) := by
  rw [← State.deep_trackIdle]
  refine congrArg Host.Outcome.next ((whenServing_of hs).trans ?_)
  dsimp only
  split
  case h_1 t1 h1 =>
    cases h0.symm.trans h1
    exact if_pos (State.sleepDue_trackIdle.mpr due)
  case h_2 none => cases h0.symm.trans none

theorem exec_sleepModeEntry_awake {s : State} (hs : s.serving = true)
    (h : ∀ t0, s.trackIdle.clk.idleSince = some t0 → ¬s.sleepDue t0) : exec .sleepModeEntry s = .next s.trackIdle := by
  refine congrArg Host.Outcome.next ((whenServing_of hs).trans ?_)
  dsimp only
  split
  case h_1 t0 h0 => exact if_neg (h t0 h0 ∘ State.sleepDue_trackIdle.mp)
  case h_2 => rfl

theorem exec_powerModeWake_of {s : State} (hr : s.running = true) : exec .powerModeWake s = .next s.wakeUp :=
  congrArg Host.Outcome.next (whenRunning_of hr)

section Counter
variable {s : State}

theorem exec_fmcGo_zero {v : Word} (h : fld v 0 1 = 0) : exec (.fmcGo v) s = .next s :=
  congrArg Host.Outcome.next (whenServing_same (if_pos h))

theorem exec_fmcGo_of {v : Word} (hs : s.serving = true) (h : fld v 0 1 = 1) : exec (.fmcGo v) s =
    .next (if s.clk.fmcBusy then { s with clk := { s.clk with fmcRefused := true } } else { s with clk := { s.clk with fmcBusy := true } }) :=
  congrArg Host.Outcome.next ((whenServing_of hs).trans (if_neg (by rw [h]; decide)))

theorem exec_fmcDone_idle (h : s.clk.fmcBusy = false) (count : Word) : exec (.fmcDone count) s = .next s :=
  congrArg Host.Outcome.next (whenServing_same (if_pos (by rw [h]; rfl)))

/-- The clock of the measurement is stopped, or its reference absent (R464). -/
def State.fmcStopped (s : State) : Bool :=
  (match fmcDomain (Cf.CLK_FMC_CTL_clk s) with
    | some b => !bitN s.domains b
    | none => false) || (decide (Cf.CLK_FMC_CTL_ref s < 3) && !bitN s.clk.ok (Cf.CLK_FMC_CTL_ref s))

theorem exec_fmcDone_of (hs : s.serving = true) (h : s.clk.fmcBusy = true) (count : Word) : exec (.fmcDone count) s =
    .next { s with clk := { s.clk with
      fmcBusy := false, fmcDone := true, fmcGated := s.clk.fmcGated || s.fmcStopped, fmcCount := if s.fmcStopped then 0 else count.toNat } } :=
  congrArg Host.Outcome.next ((whenServing_of hs).trans (if_neg (by rw [h]; decide)))

end Counter

/-- Settles O42: a measurement is kept whether or not it raises the alarm, sleep turns on the idle time as it is tracked, and each other
command is one guard. -/
theorem fabricMonitorPowerModesAndCounter : Obligations.FabricMonitorPowerModesAndCounter := by
  unfold Obligations.FabricMonitorPowerModesAndCounter
  refine ⟨⟨fun s hr => ⟨exec_vcoreLow_of hr, fun up => ?_, fun down => ?_⟩, fun idx mv s hr => ?_,
      fun s hr => ⟨exec_fabricSlowAlarmClear_of hr, exec_fabricSlowAlarmClear_early⟩, fun counts s hr => ?_,
      fun v s hr => ⟨exec_tputClr_of hr, fun h => exec_tputClr_zero h s⟩⟩,
    fun s t0 hs h0 enabled run due => ?_, fun s hs h => ?_, fun s t0 hs h0 early => ?_, fun s hr => exec_powerModeWake_of hr,
    fun v s hs => ⟨exec_fmcGo_zero, fun go busy => ?_, fun go free => ?_⟩,
    fun count s hs => ⟨fun h => exec_fmcDone_idle h count, fun h => ⟨s.fmcStopped, rfl, exec_fmcDone_of hs h count⟩⟩⟩
  · rw [exec_vcoreLow_of hr]
    exact congrArg Host.Outcome.next (if_pos up)
  · refine Answers.of_exec (exec_vcoreLow_of hr) (execVcoreLow_only _ _) ?_
    rw [State.alarmRise_stl, down]
    exact ⟨rfl, rfl, rfl⟩
  · obtain ⟨kept, volts, least, lowest, again⟩ := State.measured_kept
      (State.railReading_stl (s.measured (indicesOf idx) mv.toNat) 6 (decide (920 < mv.toNat)) 100) (State.railReading_tm _ _ _ _)
      ((s.lowRuns (indicesOf idx)).any (fun n => decide (2 ≤ n)))
    refine Answers.of_exec (exec_speedIndexMeasure_of hr idx mv rfl) (execSpeedIndexMeasure_only _ _ _ _)
      ⟨kept, volts, least, lowest, fun low => again (State.fabricLow_of_voltage low), fun k hk low => again (State.fabricLow_of_index hk ?_)⟩
    rw [nth_indicesOf idx hk]
    exact low
  · exact Answers.of_exec (exec_tputWindow_of hr counts) (execTputWindow_only _ _ _) ⟨rfl, map_min_range8 _ _⟩
  · refine Answers.of_exec (exec_sleepModeEntry_of hs h0 ⟨enabled, run, due⟩) (execSleepModeEntry_only _ _) ((State.asleep_clk _ _).trans ?_)
    simp only [Bool.and_eq_true, decide_eq_true_eq]
  · refine exec_sleepModeEntry_awake hs (fun t0 h0 ⟨enabled, run, _⟩ => ?_)
    rcases h with h | h | h
    · rw [h] at h0
      cases h0
    · rw [h] at enabled
      cases enabled
    · exact h run
  · refine exec_sleepModeEntry_awake hs (fun t1 h1 ⟨_, _, due⟩ => ?_)
    cases h0.symm.trans h1
    exact Nat.not_le.mpr early due
  · rw [exec_fmcGo_of hs go, if_pos busy]
  · rw [exec_fmcGo_of hs go, if_neg (by rw [free]; exact Bool.false_ne_true)]

end Sys2Proof.Machine
end

section
/-! SUPPORT. Clock sources (R453 to R459): the gate of the supervisor shows its deviations whatever it finds, and the other commands are
one guard each. -/

namespace Sys2Proof.Machine

theorem whenPowered_of {s : State} {g : State → State} (h : s.hlt.porHeld = false) : whenPowered s g = g s :=
  if_neg (by rw [h]; exact Bool.false_ne_true)

@[simp] theorem State.note_clk (s : State) (ev : Ev) (arg : Nat) : (s.note ev arg).clk = s.clk := (State.note_only s ev arg).at .clk rfl

/-- The deviations of the three pairs that the supervisor shows. -/
def State.deviations (s : State) : Int × Int × Int := (s.clk.devXP, s.clk.devXK, s.clk.devPK)

theorem State.note_deviations (s : State) (ev : Ev) (arg : Nat) : (s.note ev arg).deviations = s.deviations := by
  unfold State.deviations
  rw [State.note_clk]

theorem State.leaveSource_deviations (s : State) : s.leaveSource.deviations = s.deviations :=
  iteInduction (motive := fun t : State => t.deviations = s.deviations) (fun _ => rfl) (fun _ => rfl)

theorem State.sourceUp_deviations (s : State) (k : Nat) : (s.sourceUp k).deviations = s.deviations :=
  iteInduction (motive := fun t : State => t.deviations = s.deviations) (fun _ => rfl) (fun _ => rfl)

theorem State.clkFault_deviations (s : State) (k : Nat) : (s.clkFault k).deviations = s.deviations :=
  iteInduction (motive := fun t : State => t.deviations = s.deviations) (fun _ => rfl)
    (fun _ => (State.leaveSource_deviations _).trans (State.note_deviations _ _ _))

theorem exec_supervisorGate_deviations {s : State} (hp : s.hlt.porHeld = false) (xp xk pk : Int) :
    ∃ t, exec (.supervisorGate xp xk pk) s = .next t ∧ t.deviations =
      ((if bitN s.clk.ok 0 && bitN s.clk.ok 1 then xp + 16 * Cf.CLK_SUP_CFG_pe_ofs_ppm s else 0),
        (if bitN s.clk.ok 0 && bitN s.clk.ok 2 then xk else 0),
        (if bitN s.clk.ok 1 && bitN s.clk.ok 2 then pk - 16 * Cf.CLK_SUP_CFG_pe_ofs_ppm s else 0)) := by
  refine ⟨_, congrArg Host.Outcome.next (whenPowered_of hp), ?_⟩
  extract_lets c ofs on ds inner outer dev inside present near far all u cry _ was v w
  have found : u.deviations = ((if bitN s.clk.ok 0 && bitN s.clk.ok 1 then xp + 16 * Cf.CLK_SUP_CFG_pe_ofs_ppm s else 0),
        (if bitN s.clk.ok 0 && bitN s.clk.ok 2 then xk else 0),
        (if bitN s.clk.ok 1 && bitN s.clk.ok 2 then pk - 16 * Cf.CLK_SUP_CFG_pe_ofs_ppm s else 0)) := rfl
  have cried : (cry u).deviations = u.deviations := State.note_deviations _ _ _
  rw [← found]
  split
  case h_1 k _ => exact State.clkFault_deviations u k
  case h_2 => exact cried
  case h_3 =>
    split
    case h_1 k _ =>
      exact iteInduction (motive := fun t : State => t.deviations = u.deviations) (fun _ => rfl)
        (fun _ => (State.leaveSource_deviations _).trans (State.note_deviations _ _ _))
    case h_2 => exact cried
    case h_3 =>
      have back : w.deviations = u.deviations :=
        iteInduction (motive := fun t : State => t.deviations = u.deviations) (fun _ => State.sourceUp_deviations v 1) (fun _ => rfl)
      exact iteInduction (motive := fun t : State => t.deviations = u.deviations) (fun _ => (State.sourceUp_deviations w 0).trans back)
        (fun _ => back)

section Powered
variable {s : State} (hp : s.hlt.porHeld = false)
include hp

theorem exec_crystalQualified_of (xt good : Bool) : exec (.crystalQualified xt good) s = .next (s.clkQualify (if xt then 2 else 0) good) :=
  congrArg Host.Outcome.next (whenPowered_of hp)

theorem exec_xt25Requalify_of (good : Bool) :
    exec (.xt25Requalify good) s = .next (if s.clk.sel = 0 then s else s.clkQualify 0 good) :=
  congrArg Host.Outcome.next (whenPowered_of hp)

theorem exec_clockSourceFault_of (k : Fin 3) :
    exec (.clockSourceFault k) s = .next (if bitN s.clk.ok k.val then s.clkFault k.val else s) :=
  congrArg Host.Outcome.next (whenPowered_of hp)

theorem exec_ref25Switchover_none (h : s.clk.goingTo = none) : exec .ref25Switchover s = .next s := by
  refine congrArg Host.Outcome.next ((whenPowered_of hp).trans ?_)
  rw [h]

theorem exec_ref25Switchover_some {k : Nat} (h : s.clk.goingTo = some k) : exec .ref25Switchover s =
    .next (if k = s.clk.sel then { s with clk := { s.clk with goingTo := none } }
      else ({ s with clk := { s.clk with goingTo := none, sel := k, switches := inc16 s.clk.switches } } : State).resyncAll) := by
  refine congrArg Host.Outcome.next ((whenPowered_of hp).trans ?_)
  dsimp only
  rw [h]

/-- The sources qualified anew that have agreed for return_s, at eight gates a second (R459). -/
def State.returning (s : State) : Nat :=
  maskOf 3 (fun k => bitN s.clk.fault k && bitN s.clk.renewed k && decide (8 * Cf.CLK_SUP_CFG_return_s s ≤ nth 0 s.clk.agreed k))

theorem exec_sourceReturn_of : exec .sourceReturn s = .next (if s.returning = 0 then s else ({ s with clk := { s.clk with
      fault := s.clk.fault - s.returning, renewed := s.clk.renewed - s.returning,
      rtcDiv := if bitN s.returning 2 then false else s.clk.rtcDiv } } : State).betterSource) :=
  congrArg Host.Outcome.next (whenPowered_of hp)

end Powered

theorem exec_selReq_of {s : State} (hs : s.serving = true) (v : Word) : exec (.selReq v) s =
    .next (if fld v 0 2 < s.clk.sel ∧ s.clkUsable (fld v 0 2) then { s with clk := { s.clk with goingTo := some (fld v 0 2) } } else s) :=
  congrArg Host.Outcome.next (whenServing_of hs)

/-- Settles O43: a command on a source is one guard, and what the gate of the supervisor finds leaves its deviations as they are. -/
theorem clockSources : Obligations.ClockSources := by
  unfold Obligations.ClockSources
  refine ⟨fun xt good s hp => ⟨exec_crystalQualified_of hp xt good, fun other => ?_, fun own => ?_⟩,
    fun k s hp => ⟨fun up => ?_, fun down => ?_⟩, fun xp xk pk s hp => ?_,
    fun s hp => ⟨exec_ref25Switchover_none hp, fun k h same => ?_, fun k h other => ?_⟩,
    fun s back hp hb => ⟨fun none => ?_, fun some => ?_⟩, fun v s hs => ⟨fun better usable => ?_, fun not => ?_⟩⟩
  · rw [exec_xt25Requalify_of hp, if_neg other]
  · rw [exec_xt25Requalify_of hp, if_pos own]
  · rw [exec_clockSourceFault_of hp, if_pos up]
  · rw [exec_clockSourceFault_of hp, down, if_neg Bool.false_ne_true]
  · obtain ⟨t, run, shown⟩ := exec_supervisorGate_deviations hp xp xk pk
    obtain ⟨devXP, devXK, devPK⟩ : _ ∧ _ ∧ _ := by simpa only [State.deviations, Prod.mk.injEq] using shown
    exact Answers.of_exec run (execSupervisorGate_only _ _ _ _ _) ⟨devXP, devXK, devPK⟩
  · rw [exec_ref25Switchover_some hp h, if_pos same]
  · rw [exec_ref25Switchover_some hp h, if_neg other]
  · have hb : back = s.returning := hb
    subst hb
    rw [exec_sourceReturn_of hp, if_pos none]
  · have hb : back = s.returning := hb
    subst hb
    rw [exec_sourceReturn_of hp, if_neg some]
  · rw [exec_selReq_of hs, if_pos ⟨better, usable⟩]
  · rw [exec_selReq_of hs, if_neg]
    rintro ⟨better, usable⟩
    rcases not with worse | unusable
    · exact Nat.not_lt.mpr worse better
    · rw [unusable] at usable
      exact Bool.false_ne_true usable

end Sys2Proof.Machine
end

section
/-! SUPPORT. Inputs (R465, R466, R557 to R566): when an input is quiet, and the guard of each verdict. -/

namespace Sys2Proof.Machine

theorem State.judged_of_not_rate {s : State} {i : Nat} (h : i ≠ 11) : s.judged i = true := by
  simp [State.judged, h]

theorem State.eq_rate_of_not_judged {s : State} {i : Nat} (h : s.judged i = false) : i = 11 := by
  by_contra other
  rw [State.judged_of_not_rate other] at h
  cases h

/-- An input that chatters has been quiet for its time (R558). -/
def State.quiet (s : State) (i : Nat) : Bool :=
  match s.rateLimit i with
  | none => true
  | some (lim, _) =>
    if i = 11 then decide (s.inp.rateBad + 200 * fineWindow ≤ s.fine)
    else decide (nth 0 s.inp.since i + fineSec ≤ s.fine) && decide (s.changesIn i (nth 0 s.inp.since i) fineSec ≤ lim)

theorem State.quiet_unlimited {s : State} {i : Nat} (h : s.rateLimit i = none) : s.quiet i = true := by
  unfold State.quiet
  rw [h]

theorem State.quiet_iff {s : State} {i lim w : Nat} (hi : i ≠ 11) (h : s.rateLimit i = some (lim, w)) : s.quiet i = true ↔
    nth 0 s.inp.since i + fineSec ≤ s.fine ∧ s.changesIn i (nth 0 s.inp.since i) fineSec ≤ lim := by
  unfold State.quiet
  rw [h]
  simp [hi]

theorem State.quiet_rate_iff {s : State} : s.quiet 11 = true ↔ s.inp.rateBad + 200 * fineWindow ≤ s.fine := by
  have limit : s.rateLimit 11 = some (Cf.INP_CFG_RATE_limit s, fineWindow) := by simp [State.rateLimit]
  unfold State.quiet
  simp only [limit, if_true, decide_eq_true_eq]

section Running
variable {s : State} (hr : s.running = true)
include hr

theorem exec_inputQualified_of (i : Fin 13) (v : Bool) : exec (.inputQualified i v) s = .next (s.qualify i.val v) :=
  congrArg Host.Outcome.next (whenRunning_of hr)

theorem exec_pdPgoodFall_of : exec .pdPgoodFall s = .next (s.qualify 10 false) := congrArg Host.Outcome.next (whenRunning_of hr)

theorem exec_pdPgoodRise_of : exec .pdPgoodRise s = .next (s.qualify 10 true) := congrArg Host.Outcome.next (whenRunning_of hr)

theorem exec_pseClassChange_of (code : BitVec 2) :
    exec (.pseClassChange code) s = .next ((s.qualify 8 (bitN code.toNat 0)).qualify 9 (bitN code.toNat 1)) :=
  congrArg Host.Outcome.next (whenRunning_of hr)

theorem exec_chatterClear_of {i : Fin 13} (hj : s.judged i.val = true) (hc : bitN s.inp.chat i.val = true) (hq : s.quiet i.val = true) :
    exec (.chatterClear i) s = .next ((s.overLevels (fun s => s.endChatter i.val)).cleared i.val) := by
  refine congrArg Host.Outcome.next ((whenRunning_of hr).trans (if_pos ?_))
  rw [hj, hc]
  exact hq

theorem exec_inputStuck_pair {i : Fin 13} {t : Nat} (hi : i.val < 8) (ht : nth none s.inp.pairSince (i.val % 4) = some t)
    (late : t + Cf.INP_CFG_TRAY_pair_s s * fineSec < s.fine) (tray : bitN s.inp.chat (i.val % 4) = false)
    (door : bitN s.inp.chat (4 + i.val % 4) = false) : exec (.inputStuck i) s = .next (s.declareStuck [i.val % 4, 4 + i.val % 4]) := by
  refine congrArg Host.Outcome.next ((whenRunning_of hr).trans ((if_pos hi).trans ?_))
  simp only [ht, late, tray, door, decide_true, Bool.not_false, Bool.and_self, if_true]

theorem exec_inputStuck_single {i : Fin 13} {v : Bool} {ms : Nat} (hi : 8 ≤ i.val) (rule : s.stuckRule i.val = some (v, ms))
    (h : bitN s.inp.qual i.val = v ∧ nth 0 s.inp.since i.val + ms * 32768 < s.fine ∧ bitN s.inp.chat i.val = false ∧
      s.judged i.val = true) : exec (.inputStuck i) s = .next (s.declareStuck [i.val]) := by
  refine congrArg Host.Outcome.next ((whenRunning_of hr).trans ((if_neg (Nat.not_lt.mpr hi)).trans ?_))
  rw [rule]
  exact if_pos h

/-- The verdicts of inputs that have left them end together (R559). -/
def State.endStuck (s : State) (l : List Nat) : State :=
  forEach l (fun k u => u.cleared k)
    (s.overLevels (fun s => { s with inp := { s.inp with stuck := l.foldl (fun a k => setBitN a k false) s.inp.stuck } }))

theorem exec_stuckClear_pair {i : Fin 13} (hi : i.val < 8) (hs : bitN s.inp.stuck i.val = true) :
    exec (.stuckClear i) s = .next (if s.pairApart (i.val % 4) then s.endStuck [i.val % 4, 4 + i.val % 4] else s) :=
  congrArg Host.Outcome.next ((whenRunning_of hr).trans ((if_neg (by rw [hs]; decide)).trans (if_pos hi)))

theorem exec_stuckClear_single {i : Fin 13} {v : Bool} {ms : Nat} (hi : 8 ≤ i.val) (hs : bitN s.inp.stuck i.val = true)
    (rule : s.stuckRule i.val = some (v, ms)) (judged : s.judged i.val = true) (away : bitN s.inp.qual i.val ≠ v)
    (held : nth 0 s.inp.since i.val + fineSec ≤ s.fine) : exec (.stuckClear i) s = .next (s.endStuck [i.val]) := by
  refine congrArg Host.Outcome.next ((whenRunning_of hr).trans ((if_neg (by rw [hs]; decide)).trans
    ((if_neg (Nat.not_lt.mpr hi)).trans ?_)))
  rw [rule]
  exact if_pos (by rw [judged, decide_eq_true away, decide_eq_true held]; rfl)

theorem exec_analogueOutOfRange_of {i : Fin 10} {code : BitVec 12} (hin : bitN s.inp.range i.val = false)
    (out : s.codeOut i.val code.toNat = true) : exec (.analogueOutOfRange i code) s =
      .next (((s.setRange i.val code.toNat true).inpEvt 2).note .rangeVerdict i.val) :=
  congrArg Host.Outcome.next ((whenRunning_of hr).trans (if_neg (by rw [hin, out]; decide)))

theorem exec_analogueReturn_of {i : Fin 10} {code : BitVec 12} (out : bitN s.inp.range i.val = true)
    (back : s.codeBack i.val code.toNat = true) : exec (.analogueReturn i code) s =
      .next (((s.setRange i.val code.toNat false).inpEvt 3).note .rangeBack i.val) :=
  congrArg Host.Outcome.next ((whenRunning_of hr).trans (if_pos (by rw [out, back]; rfl)))

end Running

section Unchanged
variable {s : State}

theorem State.qualify_same {i : Nat} {v : Bool} (h : bitN s.inp.qual i = v) : s.qualify i v = s := if_pos h

theorem exec_chatterClear_same {i : Fin 13} (h : s.judged i.val = false ∨ bitN s.inp.chat i.val = false ∨ s.quiet i.val = false) :
    exec (.chatterClear i) s = .next s := by
  refine congrArg Host.Outcome.next (whenRunning_same (if_neg ?_))
  rw [Bool.and_eq_true, Bool.and_eq_true]
  rintro ⟨⟨judged, chatters⟩, quiet⟩
  rcases h with h | h | h
  · exact Bool.eq_false_iff.mp h judged
  · exact Bool.eq_false_iff.mp h chatters
  · exact Bool.eq_false_iff.mp h quiet

theorem exec_inputStuck_pair_none {i : Fin 13} (hi : i.val < 8) (h : nth none s.inp.pairSince (i.val % 4) = none) :
    exec (.inputStuck i) s = .next s := by
  refine congrArg Host.Outcome.next (whenRunning_same ((if_pos hi).trans ?_))
  rw [h]

theorem exec_inputStuck_pair_same {i : Fin 13} {t : Nat} (hi : i.val < 8) (ht : nth none s.inp.pairSince (i.val % 4) = some t)
    (h : s.fine ≤ t + Cf.INP_CFG_TRAY_pair_s s * fineSec ∨ bitN s.inp.chat (i.val % 4) = true ∨ bitN s.inp.chat (4 + i.val % 4) = true) :
    exec (.inputStuck i) s = .next s := by
  refine congrArg Host.Outcome.next (whenRunning_same ((if_pos hi).trans ?_))
  rw [ht]
  refine if_neg ?_
  simp only [Bool.and_eq_true, Bool.not_eq_true', decide_eq_true_eq]
  rintro ⟨⟨late, tray⟩, door⟩
  rcases h with h | h | h
  · exact Nat.not_lt.mpr h late
  · exact Bool.eq_false_iff.mp tray h
  · exact Bool.eq_false_iff.mp door h

theorem exec_inputStuck_no_rule {i : Fin 13} (hi : 8 ≤ i.val) (h : s.stuckRule i.val = none) : exec (.inputStuck i) s = .next s := by
  refine congrArg Host.Outcome.next (whenRunning_same ((if_neg (Nat.not_lt.mpr hi)).trans ?_))
  rw [h]

theorem exec_inputStuck_single_same {i : Fin 13} {v : Bool} {ms : Nat} (hi : 8 ≤ i.val) (rule : s.stuckRule i.val = some (v, ms))
    (h : ¬(bitN s.inp.qual i.val = v ∧ nth 0 s.inp.since i.val + ms * 32768 < s.fine ∧ bitN s.inp.chat i.val = false ∧
      s.judged i.val = true)) : exec (.inputStuck i) s = .next s := by
  refine congrArg Host.Outcome.next (whenRunning_same ((if_neg (Nat.not_lt.mpr hi)).trans ?_))
  rw [rule]
  exact if_neg h

theorem exec_stuckClear_not_stuck {i : Fin 13} (h : bitN s.inp.stuck i.val = false) : exec (.stuckClear i) s = .next s :=
  congrArg Host.Outcome.next (whenRunning_same (if_pos (by rw [h]; rfl)))

theorem exec_stuckClear_single_same {i : Fin 13} {v : Bool} {ms : Nat} (hi : 8 ≤ i.val) (rule : s.stuckRule i.val = some (v, ms))
    (h : s.judged i.val = false ∨ bitN s.inp.qual i.val = v ∨ s.fine < nth 0 s.inp.since i.val + fineSec) :
    exec (.stuckClear i) s = .next s := by
  cases hs : bitN s.inp.stuck i.val with
  | false => exact exec_stuckClear_not_stuck hs
  | true =>
    refine congrArg Host.Outcome.next (whenRunning_same ((if_neg (by rw [hs]; decide)).trans ((if_neg (Nat.not_lt.mpr hi)).trans ?_)))
    rw [rule]
    refine if_neg ?_
    simp only [Bool.and_eq_true, decide_eq_true_eq]
    rintro ⟨⟨judged, away⟩, held⟩
    rcases h with h | h | h
    · exact Bool.eq_false_iff.mp h judged
    · exact away h
    · exact Nat.not_lt.mpr held h

theorem exec_analogueOutOfRange_same {i : Fin 10} {code : BitVec 12}
    (h : bitN s.inp.range i.val = true ∨ s.codeOut i.val code.toNat = false) : exec (.analogueOutOfRange i code) s = .next s :=
  congrArg Host.Outcome.next (whenRunning_same (if_pos (by rcases h with h | h <;> simp [h])))

theorem exec_analogueReturn_same {i : Fin 10} {code : BitVec 12}
    (h : bitN s.inp.range i.val = false ∨ s.codeBack i.val code.toNat = false) : exec (.analogueReturn i code) s = .next s :=
  congrArg Host.Outcome.next (whenRunning_same (if_neg (by rcases h with h | h <;> simp [h])))

end Unchanged

/-- An input that is not judged is RATE_IN, which no pair holds: no verdict of it changes (R563). -/
theorem exec_verdicts_of_not_judged {s : State} {i : Fin 13} (h : s.judged i.val = false) :
    exec (.chatterClear i) s = .next s ∧ exec (.inputStuck i) s = .next s ∧ exec (.stuckClear i) s = .next s := by
  have rate := State.eq_rate_of_not_judged h
  have single : 8 ≤ i.val := by omega
  have rule : s.stuckRule i.val = some (true, Cf.INP_CFG_RATE_stuck_ms s) := by rw [rate]; rfl
  exact ⟨exec_chatterClear_same (.inl h),
    exec_inputStuck_single_same single rule (fun ⟨_, _, _, judged⟩ => Bool.eq_false_iff.mp h judged),
    exec_stuckClear_single_same single rule (.inl h)⟩

/-- Settles O44: each verdict turns on one guard, over the time of the input that the command names. -/
theorem inputs : Obligations.Inputs := by
  unfold Obligations.Inputs
  refine ⟨fun s hr => ⟨fun i v => ⟨exec_inputQualified_of hr i v, fun same => ?_⟩, exec_pdPgoodFall_of hr, exec_pdPgoodRise_of hr,
      exec_pseClassChange_of hr⟩,
    fun i s hr hc free hj => exec_chatterClear_of hr hj hc (State.quiet_unlimited free),
    fun i s lim w hr hc hi hl => ⟨fun held few =>
        exec_chatterClear_of hr (State.judged_of_not_rate hi) hc ((State.quiet_iff hi hl).mpr ⟨held, few⟩), fun not =>
        exec_chatterClear_same (.inr (.inr (Bool.eq_false_iff.mpr (mt (State.quiet_iff hi hl).mp (by omega)))))⟩,
    fun s hr hc => ⟨fun hj held => exec_chatterClear_of hr hj hc (State.quiet_rate_iff.mpr held), fun early =>
        exec_chatterClear_same (.inr (.inr (Bool.eq_false_iff.mpr (mt State.quiet_rate_iff.mp (Nat.not_le.mpr early)))))⟩,
    fun i s => ⟨fun h => exec_chatterClear_same (.inr (.inl h)), exec_stuckClear_not_stuck, exec_verdicts_of_not_judged⟩,
    fun i s hr => ⟨fun t hi ht late tray door => exec_inputStuck_pair hr hi ht late tray door, exec_inputStuck_pair_none,
      fun t hi ht h => exec_inputStuck_pair_same hi ht h, exec_inputStuck_no_rule, fun v ms hi rule h => ?_,
      fun v ms hi hj rule at_ calm late => exec_inputStuck_single hr hi rule ⟨at_, late, calm, hj⟩⟩,
    fun i s v ms hr hs hi hj rule away held => exec_stuckClear_single hr hi hs rule hj away held,
    fun i s l hr hs hi hl => ⟨fun apart => ?_, fun near => ?_⟩,
    fun i s v ms hr hi rule h => exec_stuckClear_single_same hi rule (.inr h),
    fun i code s hr => ⟨exec_analogueOutOfRange_of hr, exec_analogueOutOfRange_same, exec_analogueReturn_of hr, exec_analogueReturn_same⟩⟩
  · rw [exec_inputQualified_of hr, State.qualify_same same]
  · refine exec_inputStuck_single_same hi rule (fun ⟨at_, late, calm, judged⟩ => ?_)
    rcases h with h | h | h | h
    · exact h at_
    · exact Nat.not_lt.mpr h late
    · exact Bool.eq_false_iff.mp calm h
    · exact Bool.eq_false_iff.mp h judged
  · subst hl
    rw [exec_stuckClear_pair hr hi hs, if_pos apart]
    rfl
  · rw [exec_stuckClear_pair hr hi hs, near, if_neg Bool.false_ne_true]

end Sys2Proof.Machine
end

section
/-! SUPPORT. Budget samples, sensors and the real-time clock (R468, R497, R498, R518 to R520): the write of the two temperatures, the
latches of a read of the time, and the time that a commit leaves. -/

namespace Sys2Proof.Machine

@[simp] theorem State.note_tm (s : State) (ev : Ev) (arg : Nat) : (s.note ev arg).tm = s.tm := (State.note_only s ev arg).at .tm rfl

section Running
variable {s : State} (hr : s.running = true)
include hr

theorem exec_budgetSample_of (code : BitVec 12) : exec (.budgetSample code) s =
    .next (((((s.budget code.toNat).judgeLevel).queueAsked).giveGrant).runGrants).settle :=
  congrArg Host.Outcome.next (whenRunning_of hr)

theorem exec_sensorSample_die (l : List Int) : exec (.sensorSample (.die l)) s = .next (s.readDie l) :=
  congrArg Host.Outcome.next (whenRunning_of hr)

theorem exec_sensorSample_therm (l : List (BitVec 12)) : exec (.sensorSample (.therm l)) s = .next
    ((forBelow 4 (fun d t => t.holdTherm d)
      { s with sns := { s.sns with thm := (List.range 4).map (fun d => (nth 0 l d).toNat) } }).tempTriggers).settle :=
  congrArg Host.Outcome.next (whenRunning_of hr)

theorem exec_sensorSample_rails (l : List (BitVec 16)) : exec (.sensorSample (.rails l)) s = .next (s.readRails (l.map (fun v => v.toNat))) :=
  congrArg Host.Outcome.next (whenRunning_of hr)

theorem exec_sensorSample_laser (d : Fin 4) (code : BitVec 12) :
    exec (.sensorSample (.laser d code)) s = .next (s.readLaser d.val code.toNat) :=
  congrArg Host.Outcome.next (whenRunning_of hr)

theorem exec_hotClear_of {t : Nat} (h : s.sns.coolSince = some t) (cool : t + 10000 ≤ s.tm.mono) :
    exec .hotClear s = .next { s with sns := { s.sns with hot := false } } := by
  refine congrArg Host.Outcome.next ((whenRunning_of hr).trans ?_)
  dsimp only
  rw [h]
  exact if_pos cool

end Running

theorem exec_hotClear_same {s : State} (h : s.sns.coolSince = none ∨ ∃ t, s.sns.coolSince = some t ∧ s.tm.mono < t + 10000) :
    exec .hotClear s = .next s := by
  refine congrArg Host.Outcome.next (whenRunning_same ?_)
  rcases h with h | ⟨t, h, early⟩
  · rw [h]
  · rw [h]
    exact if_neg (Nat.not_le.mpr early)

end Sys2Proof.Machine
end

section
/-! SUPPORT. HRN.THERM (R498): both temperatures are taken, or neither. -/

namespace Sys2Proof.Machine

/-- HRN.THERM: 16 writable bits, in which both temperatures lie. -/
theorem regDesc_therm : ∃ r, regDesc Reg.HRN_THERM = some r ∧ r.rw = 65535 ∧ r.rws = 0 ∧ r.w1c = 0 ∧ r.ro = 0 ∧ r.wo = 0 :=
  ⟨_, rfl, rfl, rfl, rfl, rfl, rfl⟩

theorem land_low16 (n : Nat) : n &&& 65535 = n % 65536 := Nat.and_two_pow_sub_one_eq_mod n 16

theorem lor_high16 (a b : Nat) : a % 65536 ||| b / 65536 * 65536 = a % 65536 + b / 65536 * 65536 := by
  rw [Nat.or_comm, Nat.mul_comm, ← Nat.two_pow_add_eq_or_of_lt (i := 16) (Nat.mod_lt a (by decide)), Nat.add_comm]

/-- The judgement of the two temperatures reads the low half of the word only. -/
theorem thermOk_congr {a b : Nat} (h : a % 65536 = b % 65536) : thermOk a = thermOk b := by
  have low : fldN a 0 8 = fldN b 0 8 := by
    simp only [fldN, Nat.shiftRight_zero]
    omega
  have high : fldN a 8 8 = fldN b 8 8 := by
    simp only [fldN, Nat.shiftRight_eq_div_pow]
    omega
  unfold thermOk
  rw [low, high]

theorem writeWord_therm {r : RegDesc} (hrw : r.rw = 65535) (hrws : r.rws = 0) (old v : Word) : writeWord Reg.HRN_THERM r old v =
    if thermOk v.toNat then BitVec.ofNat 32 (v.toNat % 65536 + old.toNat / 65536 * 65536) else old := by
  have cand : v.toNat &&& (r.rw ||| r.rws) ||| (old.toNat - (old.toNat &&& (r.rw ||| r.rws))) =
      v.toNat % 65536 + old.toNat / 65536 * 65536 := by
    rw [hrw, hrws, Nat.or_zero, land_low16, land_low16, ← lor_high16]
    congr 1
    omega
  unfold writeWord
  extract_lets _ word
  have hw : word = v.toNat % 65536 + old.toNat / 65536 * 65536 := cand
  rw [if_pos (show Reg.HRN_THERM = 0x100074 from rfl), hw, thermOk_congr (a := v.toNat % 65536 + old.toNat / 65536 * 65536) (b := v.toNat) (by omega)]

theorem rsvWritten_therm {r : RegDesc} (hrw : r.rw = 65535) (hrws : r.rws = 0) (hw1c : r.w1c = 0) (hro : r.ro = 0) (hwo : r.wo = 0)
    (v : Word) : rsvWritten r v = !decide (v.toNat < 65536) := by
  unfold rsvWritten
  rw [hrw, hrws, hw1c, hro, hwo, Nat.or_zero, Nat.or_zero, Nat.or_zero, Nat.or_zero, land_low16, ← decide_not]
  exact decide_eq_decide.mpr (by omega)

theorem exec_thermWrite_of {s : State} (hs : s.serving = true) (v : Word) {t : State} (ht : t = s.setReg Reg.HRN_THERM
      (if thermOk v.toNat then BitVec.ofNat 32 (v.toNat % 65536 + (s.reg Reg.HRN_THERM).toNat / 65536 * 65536) else s.reg Reg.HRN_THERM)) :
    exec (.thermWrite v) s = .next (if v.toNat < 65536 then t else t.note .reservedBits Reg.HRN_THERM) := by
  obtain ⟨r, desc, hrw, hrws, hw1c, hro, hwo⟩ := regDesc_therm
  have stated : unstatedRange Reg.HRN_THERM = false := rfl
  refine congrArg Host.Outcome.next ((whenServing_of hs).trans ?_)
  rw [State.storeReg_of_desc desc, stated, Bool.false_and, if_neg Bool.false_ne_true, writeWord_therm hrw hrws, ← ht,
    rsvWritten_therm hrw hrws hw1c hro hwo]
  by_cases low : v.toNat < 65536
  · rw [if_pos low, decide_eq_true low, Bool.not_true, if_neg Bool.false_ne_true]
  · rw [if_neg low, decide_eq_false low, Bool.not_false, if_pos rfl]

end Sys2Proof.Machine
end

section
/-! SUPPORT. The real-time clock (R518 to R520). -/

namespace Sys2Proof.Machine

theorem State.emitCpl_latches (s : State) (e : Emit) : (s.emitCpl e).latches = s.latches := (State.emitCpl_only s e).at .latches rfl

theorem State.emitCpl_out {s : State} (h : s.txHold 2 = false) (e : Emit) : (s.emitCpl e).out = e :: s.out := by
  unfold State.emitCpl
  rw [h]
  rfl

theorem Bank.get_setLatch_same (b : Bank (Option Word)) (k : Nat) (w : Word) : Bank.get latchDef (Bank.set latchDef b k (some w)) k = some w := by
  rw [show Bank.set latchDef b k (some w) = b.insert k (some w) from if_neg (by simp [latchDef])]
  exact Bank.get_insert_same _ _ _ _

/-- The block with the upper parts of the time latched. -/
def State.timeLatched (s : State) : State :=
  { s with
    latches := Bank.set latchDef (Bank.set latchDef s.latches Reg.TIM_SEC_HI (some (BitVec.ofNat 32 (s.tm.sec / 2 ^ 32))))
      Reg.TIM_SUB (some (BitVec.ofNat 32 s.tm.sub)) }

theorem State.timeLatched_txHold (s : State) (k : Nat) : s.timeLatched.txHold k = s.txHold k := rfl

theorem State.timeLatched_sub (s : State) : Bank.get latchDef s.timeLatched.latches Reg.TIM_SUB = some (BitVec.ofNat 32 s.tm.sub) :=
  Bank.get_setLatch_same _ _ _

theorem State.timeLatched_high (s : State) :
    Bank.get latchDef s.timeLatched.latches Reg.TIM_SEC_HI = some (BitVec.ofNat 32 (s.tm.sec / 2 ^ 32)) :=
  have other : Reg.TIM_SEC_HI ≠ Reg.TIM_SUB := by decide
  (Bank.get_set_other latchDef _ (some (BitVec.ofNat 32 s.tm.sub)) other).trans (Bank.get_setLatch_same s.latches _ _)

section Serving
variable {s : State} (hs : s.serving = true)
include hs

theorem exec_timSecLoRead_of :
    exec .timSecLoRead s = .next (s.timeLatched.emitCpl (.readData 0 Reg.TIM_SEC_LO (leBytes 4 s.tm.sec))) :=
  congrArg Host.Outcome.next (whenServing_of hs)

theorem exec_setClock_of : exec .setClock s = .next (if s.tm.pending then s.accError 0 1 Reg.TIM_CMD
    else { s with tm := { s.tm with pending := true, late := decide (s.tm.sub = 32767) } }) :=
  congrArg Host.Outcome.next (whenServing_of hs)

theorem exec_cancel_of : exec .cancel s = .next s.cancelSet := congrArg Host.Outcome.next (whenServing_of hs)

end Serving

/-- The clock has taken the staged time of `s` (R520). -/
def State.ClockTaken (s t : State) : Prop :=
  t.tm.sec = s.stagedSec ∧ t.tm.sub = s.stagedSub ∧ t.tm.pending = false ∧ t.tm.valid = true ∧ t.tm.commits = inc16 s.tm.commits

theorem State.ClockTaken.congr {s t u : State} (h : s.ClockTaken t) (same : u.tm = t.tm) : s.ClockTaken u := by
  unfold State.ClockTaken
  rw [same]
  exact h

theorem State.commitClock_taken (s : State) (was : Nat) : s.ClockTaken (s.commitClock was) := by
  unfold State.commitClock
  extract_lets sec back first time s1 s2 old s3
  have taken : s.ClockTaken s2 := State.ClockTaken.congr (t := s1) ⟨rfl, rfl, rfl, rfl, rfl⟩ (State.note_tm _ _ _)
  have told : s.ClockTaken s3 := by
    refine iteInduction (motive := s.ClockTaken) (fun _ => ?_) (fun _ => taken.congr ((State.jumpPeriods_only _).at .tm rfl))
    refine taken.congr (((State.postOwn_only _ _ _ _).at .tm rfl).trans ((State.note_tm _ _ _).trans ?_))
    exact (State.flagPeriods_only _ _).at .tm rfl
  exact iteInduction (motive := s.ClockTaken) (fun _ => told.congr ((State.coldDecision_only _).at .tm rfl)) (fun _ => told)

theorem exec_clockCommit_of {s : State} (hr : s.running = true) (hp : s.tm.pending = true) : exec .clockCommit s =
    .next (({ s with tm := s.tm.pass (32768 - s.tm.sub) } : State).commitClock ((s.tm.sec + 1) % 2 ^ 64)) :=
  congrArg Host.Outcome.next ((whenRunning_of hr).trans (if_pos hp))

theorem exec_clockCommit_none {s : State} (hp : s.tm.pending = false) : exec .clockCommit s = .next s :=
  congrArg Host.Outcome.next (whenRunning_same (if_neg (by rw [hp]; exact Bool.false_ne_true)))

/-- Settles O45: a sample is taken by its kind, a write of the temperatures by their judgement, and the steps after a commit leave the
time it took. -/
theorem budgetSensorsAndClock : Obligations.BudgetSensorsAndClock := by
  unfold Obligations.BudgetSensorsAndClock
  refine ⟨fun code s hr => exec_budgetSample_of hr code, fun s hr => ⟨exec_sensorSample_die hr, exec_sensorSample_therm hr,
      exec_sensorSample_rails hr, exec_sensorSample_laser hr⟩,
    fun s hr => ⟨fun t h cool => exec_hotClear_of hr h cool, exec_hotClear_same⟩,
    fun v s hs t ht => exec_thermWrite_of hs v ht, fun s hs => ?_,
    fun s hs => ⟨fun hp => ?_, fun hp => ?_, exec_cancel_of hs⟩, fun s hr hp => ?_, fun s hp => exec_clockCommit_none hp⟩
  · refine Answers.of_exec (exec_timSecLoRead_of hs) (execTimSecLoRead_only _ _) ⟨fun h => ?_, ?_, ?_⟩
    · rw [State.emitCpl_out (s.timeLatched_txHold 2 ▸ h)]
      rfl
    · rw [State.emitCpl_latches, State.timeLatched_high]
    · rw [State.emitCpl_latches, State.timeLatched_sub]
  · rw [exec_setClock_of hs, if_pos hp]
  · rw [exec_setClock_of hs, if_neg (by rw [hp]; exact Bool.false_ne_true)]
  · exact Answers.of_exec (exec_clockCommit_of hr hp) (execClockCommit_only _ _) (State.commitClock_taken _ _)

end Sys2Proof.Machine
end

section
/-! SUPPORT. Entering the halt (R487, R489; Table 15-6): what the first failure records, and what stops. -/

namespace Sys2Proof.Machine

/-- What the first failure records of itself (R77, Table 15-8). -/
def State.haltInfo (s : State) (c : HaltCause) : HaltInfo :=
  { cause := causeCode c, detail := causeDetail c, inst := causeInst c, micros := s.tm.micros,
    wall := if s.tm.valid then s.tm.wall else 0, slot := s.boot.slot, setId := if causeCode c = 0x07 then s.arc.setId else 0,
    further := 0, nvmOk := false, place := 0, hseq := 0, stream := s.sec.secure,
    waits := s.reads.any (fun r => decide (r.fn.toNat = 0)) }

/-- A drive whose laser is shut off. -/
def Drive.shut (r : Drive) : Drive := { r with wst := { r.wst with gate := false, burst := none, opcBusy := false, lden := false } }

/-- The block at the entry of the halt, before its engines stop. -/
def State.enterHalt (s : State) (c : HaltCause) : State :=
  { s with
    hlt := { s.hlt with halt := some (s.haltInfo c), warming := false }, drives := s.drives.map Drive.shut,
    pwb := { s.pwb with granted := none, run := 0 }, mon := { s.mon with active := false, acting := false },
    cal := { s.cal with running := none } }

theorem State.haltBy_first {s : State} (h : s.hlt.halt = none) (c : HaltCause) : s.haltBy c = (s.enterHalt c).stopEngines.zeroise := by
  unfold State.haltBy
  rw [h]
  rfl

theorem State.enterHalt_hlt (s : State) (c : HaltCause) :
    (s.enterHalt c).stopEngines.zeroise.hlt = { s.hlt with halt := some (s.haltInfo c), warming := false } :=
  ((State.zeroise_only _).at .hlt rfl).trans ((State.stopEngines_only _).at .hlt rfl)

theorem State.enterHalt_drives (s : State) (c : HaltCause) : (s.enterHalt c).stopEngines.zeroise.drives = s.drives.map Drive.shut :=
  ((State.zeroise_only _).at .drives rfl).trans ((State.stopEngines_only _).at .drives rfl)

/-- No laser of a drive that is shut off has its gate, its enable or a burst. -/
theorem Drive.dark_of_mem_shut {l : List Drive} {r : Drive} (h : r ∈ l.map Drive.shut) :
    r.wst.gate = false ∧ r.wst.lden = false ∧ r.wst.burst = none := by
  obtain ⟨_, _, rfl⟩ := List.mem_map.mp h
  exact ⟨rfl, rfl, rfl⟩

theorem State.zeroise_keyLive {s : State} (wf : Bank.wf instDef s.inst = true) (i : Nat) : (s.zeroise.getInst i).keyLive = false := by
  have keys : s.zeroise.getInst i = { s.getInst i with keyLive := false } :=
    Bank.get_mapVals (g := fun r : Instance => { r with keyLive := false }) wf (fun _ => rfl) i
  rw [keys]

theorem exec_integrityHalt_first {s : State} (hp : s.hlt.porHeld = false) (h : s.hlt.halt = none) (c : HaltCause) (more : List HaltCause) :
    exec (.integrityHalt c more) s = .next ((s.enterHalt (lowestCause c more)).stopEngines.zeroise) := by
  rw [← State.haltBy_first h]
  refine congrArg Host.Outcome.next ((if_neg ?_).trans (if_neg ?_))
  · rw [hp]
    exact Bool.false_ne_true
  · rw [h]
    exact Bool.false_ne_true

theorem exec_integrityHalt_further {s : State} {h : HaltInfo} (hp : s.hlt.porHeld = false) (hh : s.hlt.halt = some h) (c : HaltCause)
    (more : List HaltCause) : exec (.integrityHalt c more) s = .next (s.countFurther (1 + more.length)) := by
  refine congrArg Host.Outcome.next ((if_neg ?_).trans (if_pos ?_))
  · rw [hp]
    exact Bool.false_ne_true
  · rw [hh]
    rfl

end Sys2Proof.Machine
end

section
/-! SUPPORT. The halt record in NVM (R492, Table 15-8) and the answers of the responder (R490). -/

namespace Sys2Proof.Machine

theorem haltImage_length (h : HaltInfo) (seq : Nat) : (haltImage h seq).length = 48 := by
  unfold haltImage
  cases h.inst <;> simp [leBytes_length]

/-- A record reads back from its place. -/
theorem State.haltRec_nvmWrite {s : State} (wf : Bank.wf nvmDef s.nvm = true) (k : Nat) (h : HaltInfo) (seq : Nat) :
    (s.nvmWrite (haltRingAddr + 48 * k) (haltImage h seq)).haltRec k = haltImage h seq := by
  have written := Bank.bytes_putBytes wf (haltRingAddr + 48 * k) (haltImage h seq)
  rw [haltImage_length] at written
  exact written

/-- A record changes no byte outside its place. -/
theorem State.nvm_nvmWrite_haltRec (s : State) (k : Nat) (h : HaltInfo) (seq : Nat) {a : Nat}
    (outside : a < haltRingAddr + 48 * k ∨ haltRingAddr + 48 * k + 48 ≤ a) :
    Bank.get nvmDef (s.nvmWrite (haltRingAddr + 48 * k) (haltImage h seq)).nvm a = Bank.get nvmDef s.nvm a :=
  Bank.get_putBytes_other _ _ _ ((haltImage_length h seq).symm ▸ outside)

/-- A failure after the first is counted, also in a record that stands (R77). -/
theorem State.countFurther_of {s : State} {h g : HaltInfo} {n : Nat} (hh : s.hlt.halt = some h)
    (hg : g = { h with further := satU 16 (h.further + n) }) : s.countFurther n =
      if h.nvmOk then ({ s with hlt := { s.hlt with halt := some g } } : State).nvmWrite (haltRingAddr + 48 * h.place) (haltImage g h.hseq)
      else { s with hlt := { s.hlt with halt := some g } } := by
  subst hg
  unfold State.countFurther
  rw [hh]

/-- The place and the sequence of the next record: after the newest valid one. -/
def State.nextRecord (s : State) : Nat × Nat :=
  match s.haltOrder with
  | k :: _ => ((k + 1) % 16, recSeq (s.haltRec k) + 1)
  | [] => (0, 1)

theorem State.nextRecord_nil {s : State} (h : s.haltOrder = []) : s.nextRecord = (0, 1) := by
  unfold State.nextRecord
  rw [h]

theorem State.nextRecord_cons {s : State} {j : Nat} {r : List Nat} (h : s.haltOrder = j :: r) :
    s.nextRecord = ((j + 1) % 16, recSeq (s.haltRec j) + 1) := by
  unfold State.nextRecord
  rw [h]

theorem State.recordHalt_of {s : State} {h : HaltInfo} (hh : s.hlt.halt = some h) (hn : h.nvmOk = false) : s.recordHalt =
    { s.nvmWrite (haltRingAddr + 48 * s.nextRecord.1) (haltImage h s.nextRecord.2) with
      hlt := { s.hlt with halt := some { h with nvmOk := true, place := s.nextRecord.1, hseq := s.nextRecord.2 } } } := by
  unfold State.recordHalt
  rw [hh]
  exact if_neg (by rw [hn]; exact Bool.false_ne_true)

theorem State.recordHalt_written {s : State} {h : HaltInfo} (hh : s.hlt.halt = some h) (hn : h.nvmOk = true) : s.recordHalt = s := by
  unfold State.recordHalt
  rw [hh]
  exact if_pos hn

/-- The answer of the responder to a request in the halt (Table 15-7). -/
def State.respond (s : State) : HaltReq → State
  | .memRead f n => s.emit (.cplValue f (2 ^ (8 * n) - 1))
  | .memWrite _ => s
  | .cfgRead f off => s.emit (.cplValue f (if f = 0 then (s.cfgRead 0 (off / 4 * 4)).toNat else 2 ^ 32 - 1))
  | .cfgWrite f _ => s.emit (.cplValue f 0)
  | .message => s
  | .nonPosted => s.emit (.cplUr 0)

theorem exec_haltedStateRequest_of {s : State} (h : s.running = false) (r : HaltReq) :
    exec (.haltedStateRequest r) s = .next (s.respond r) := by
  refine congrArg Host.Outcome.next ((if_neg (by rw [h]; exact Bool.false_ne_true)).trans ?_)
  cases r <;> rfl

/-- Settles O8: the first failure enters the halt with its engines stopped and its keys gone, a later one is counted, and a record is one
write of its 48 bytes. -/
theorem haltEntry : Obligations.HaltEntry := by
  unfold Obligations.HaltEntry
  refine ⟨fun c more s hc hp hh => ?_, fun c more s h g hc hp hh hg => ?_, fun s h hc hh hn => ?_, fun s h hh hn => ?_, fun s hr => ?_⟩
  · refine Answers.of_exec (exec_integrityHalt_first hp hh c more) ((execIntegrityHalt_only _ _ _ _).mono rfl) ?_
    have same : (s.enterHalt (lowestCause c more)).stopEngines.inst = s.inst := (State.stopEngines_only _).at .inst rfl
    refine ⟨⟨_, congrArg HltState.halt (State.enterHalt_hlt s _), rfl, rfl, rfl, rfl, rfl, rfl, rfl⟩, State.zeroise_keyLive (same ▸ hc.inst),
      rfl, rfl, rfl, rfl, rfl, rfl, rfl, rfl, fun r hr => ?_⟩
    rw [State.enterHalt_drives] at hr
    exact Drive.dark_of_mem_shut hr
  · refine ⟨_, exec_integrityHalt_further hp hh c more, ?_, State.countFurther_only _ _⟩
    rw [State.countFurther_of hh hg]
    refine ⟨?_, fun open_ => ?_, fun written => ?_⟩
    · split <;> rfl
    · rw [if_neg (by rw [open_]; exact Bool.false_ne_true)]
    · rw [if_pos written]
      exact ⟨State.haltRec_nvmWrite hc.nvm _ _ _, fun a outside => State.nvm_nvmWrite_haltRec _ _ _ _ outside⟩
  · refine Answers.of_exec (congrArg Host.Outcome.next (State.recordHalt_of hh hn)) (execHaltRecordWritten_only _ _)
      ⟨s.nextRecord.1, s.nextRecord.2, rfl, fun first => ?_, fun j r later => ?_, State.haltRec_nvmWrite hc.nvm _ _ _,
        fun a outside => State.nvm_nvmWrite_haltRec _ _ _ _ outside⟩
    · rw [State.nextRecord_nil first]
      exact ⟨rfl, rfl⟩
    · rw [State.nextRecord_cons later]
      exact ⟨rfl, rfl⟩
  · exact congrArg Host.Outcome.next (State.recordHalt_written hh hn)
  · exact ⟨fun f n => exec_haltedStateRequest_of hr _, fun f => exec_haltedStateRequest_of hr _, fun f off => exec_haltedStateRequest_of hr _,
      fun f off => exec_haltedStateRequest_of hr _, exec_haltedStateRequest_of hr _, exec_haltedStateRequest_of hr _⟩

end Sys2Proof.Machine
end

section
/-! SUPPORT. Start-up (R186, R479, R480, R527): where STARTUP_SEQUENCE goes on from, the sweep, and the first ready state. -/

namespace Sys2Proof.Machine

/-- Where start-up goes on from a step that it has reached (R479). -/
def State.startUpFrom (s : State) (env : StartEnv) : State :=
  if s.boot.step < 4 then
    if !(s.bootFirst env).running then s.bootFirst env
    else if !(s.bootFirst env).level 12 then (s.bootFirst env).enterMonitor
    else (s.bootFirst env).bootSecond env
  else if s.boot.step < 7 then s.bootSecond env
  else if s.boot.step = 7 then s.stepDram env.lpddr
  else if s.boot.step = 8 && (s.boot.dramFail || decide (min 1048576 s.sweepTotal ≤ s.sea.sweepLines)) then
    if s.formatDue env then s.withRandom (fun s => s.bootThird env) else s.bootThird env
  else s

theorem exec_startupSequence_of {s : State} (hr : s.running = true) (ready : s.boot.ready = false) (quiet : s.mon.active = false)
    (env : StartEnv) : exec (.startupSequence env) s = .next (s.startUpFrom env) :=
  congrArg Host.Outcome.next ((whenRunning_of hr).trans (if_neg (by rw [ready, quiet]; exact Bool.false_ne_true)))

theorem exec_startupSequence_same {s : State} (h : s.boot.ready = true ∨ s.mon.active = true) (env : StartEnv) :
    exec (.startupSequence env) s = .next s :=
  congrArg Host.Outcome.next (whenRunning_same (if_pos (by rwa [Bool.or_eq_true])))

section From
variable {s : State} {env : StartEnv}

theorem State.startUpFrom_first (h : s.boot.step < 4) : s.startUpFrom env =
    if !(s.bootFirst env).running then s.bootFirst env
    else if !(s.bootFirst env).level 12 then (s.bootFirst env).enterMonitor
    else (s.bootFirst env).bootSecond env := if_pos h

theorem State.startUpFrom_second (h4 : 4 ≤ s.boot.step) (h7 : s.boot.step < 7) : s.startUpFrom env = s.bootSecond env :=
  (if_neg (Nat.not_lt.mpr h4)).trans (if_pos h7)

theorem State.startUpFrom_seven (h : s.boot.step = 7) : s.startUpFrom env = s.stepDram env.lpddr :=
  (if_neg (by omega)).trans ((if_neg (by omega)).trans (if_pos h))

theorem State.startUpFrom_third (h : s.boot.step = 8) (sealed_ : s.boot.dramFail = true ∨ min 1048576 s.sweepTotal ≤ s.sea.sweepLines) :
    s.startUpFrom env = if s.formatDue env then s.withRandom (fun s => s.bootThird env) else s.bootThird env := by
  refine (if_neg (by omega)).trans ((if_neg (by omega)).trans ((if_neg (by omega)).trans (if_pos ?_)))
  simpa [h] using sealed_

theorem State.startUpFrom_unsealed (h : s.boot.step = 8) (trained : s.boot.dramFail = false)
    (open_ : s.sea.sweepLines < min 1048576 s.sweepTotal) : s.startUpFrom env = s := by
  refine (if_neg (by omega)).trans ((if_neg (by omega)).trans ((if_neg (by omega)).trans (if_neg ?_)))
  rw [trained, Bool.false_or, decide_eq_false (Nat.not_le.mpr open_), Bool.and_false]
  exact Bool.false_ne_true

theorem State.startUpFrom_later (h : 8 < s.boot.step) : s.startUpFrom env = s := by
  refine (if_neg (by omega)).trans ((if_neg (by omega)).trans ((if_neg (by omega)).trans (if_neg ?_)))
  rw [decide_eq_false (by omega), Bool.false_and]
  exact Bool.false_ne_true

end From

section Random
variable {s : State} {g : State → State}

theorem State.withRandom_of (h : s.sea.rngOk = true) : s.withRandom g = g s := if_pos h

theorem State.withRandom_late (h : s.sea.rngOk = false) (late : s.sea.rngDown + 10000 ≤ s.tm.mono) :
    s.withRandom g = s.haltBy (.hardware ⟨9, by decide⟩) :=
  (if_neg (by rw [h]; exact Bool.false_ne_true)).trans (if_pos late)

theorem State.withRandom_waits (h : s.sea.rngOk = false) (early : s.tm.mono < s.sea.rngDown + 10000) : s.withRandom g = s :=
  (if_neg (by rw [h]; exact Bool.false_ne_true)).trans (if_neg (Nat.not_le.mpr early))

end Random

section Sweep
variable {s : State}

theorem exec_sweepWatermark_of (hr : s.running = true) (h : s.sweeping = true) (n : BitVec 27) : exec (.sweepWatermark n) s =
    .next { s with sea := { s.sea with sweepLines := min s.sweepTotal (s.sea.sweepLines + n.toNat) } } :=
  congrArg Host.Outcome.next ((whenRunning_of hr).trans (if_pos h))

theorem exec_sweepComplete_of (hr : s.running = true) (h : s.sweeping = true) : exec .sweepComplete s =
    .next { s with
      sea := { s.sea with sweepDone := true, sweepLines := s.sweepTotal },
      boot := { s.boot with step := if s.boot.step < 9 then s.boot.step else if s.boot.mapDone then 11 else 10 } } :=
  congrArg Host.Outcome.next ((whenRunning_of hr).trans (if_pos h))

theorem exec_sweepWatermark_none (h : s.sweeping = false) (n : BitVec 27) : exec (.sweepWatermark n) s = .next s :=
  congrArg Host.Outcome.next (whenRunning_same (if_neg (by rw [h]; exact Bool.false_ne_true)))

theorem exec_sweepComplete_none (h : s.sweeping = false) : exec .sweepComplete s = .next s :=
  congrArg Host.Outcome.next (whenRunning_same (if_neg (by rw [h]; exact Bool.false_ne_true)))

end Sweep

/-- The block at the first ready state, before what waits goes on (R480). -/
def State.firstReady (s : State) : State :=
  let t := s.endTrial
  let cause := b2n t.hlt.por + 2 * b2n t.hlt.brownout + 4 * b2n t.hlt.perst + 8 * b2n t.hlt.haltBefore
  let u := t.note .startUp (cause + satU 16 t.bootClock * 2 ^ 32)
  { u with boot := { u.boot with step := 12, ready := true, bootMs := satU 16 t.bootClock } }

/-- Ending a trial takes no time. -/
theorem State.endTrial_bootClock (s : State) : s.endTrial.bootClock = s.bootClock := by
  unfold State.bootClock
  rw [(State.endTrial_only s).at .tm rfl]

theorem exec_firstReadyState_of {s : State} (hr : s.running = true) (ready : s.boot.ready = false) (step : s.boot.step = 11) :
    exec .firstReadyState s = .next s.firstReady.settle :=
  congrArg Host.Outcome.next ((whenRunning_of hr).trans (if_neg (by rw [ready, step]; decide)))

theorem exec_firstReadyState_same {s : State} (h : s.boot.ready = true ∨ s.boot.step ≠ 11) : exec .firstReadyState s = .next s :=
  congrArg Host.Outcome.next (whenRunning_same (if_pos (by rwa [Bool.or_eq_true, decide_eq_true_iff])))

/-- Settles O52: start-up goes on from the step it has reached, and a format waits for the random source. -/
theorem startUp : Obligations.StartUp := by
  unfold Obligations.StartUp
  refine ⟨fun env s h => exec_startupSequence_same h env, fun env s hr ready quiet => ?_,
    fun n s hr h => Answers.of_exec (exec_sweepWatermark_of hr h n) (execSweepWatermark_only _ _ _) ⟨rfl, Nat.min_le_left _ _⟩,
    fun s hr h => Answers.of_exec (exec_sweepComplete_of hr h) (execSweepComplete_only _ _)
      ⟨rfl, rfl, fun late => if_neg (Nat.not_lt.mpr late)⟩,
    fun s h => ⟨exec_sweepComplete_none h, exec_sweepWatermark_none h⟩, fun s hr ready step => ?_, fun s => exec_firstReadyState_same⟩
  · rw [exec_startupSequence_of hr ready quiet]
    refine ⟨fun h stopped => ?_, fun h going low => ?_, fun h going high => ?_, fun h4 h7 => ?_, fun h => ?_, fun h lines => ?_,
      fun h trained open_ => ?_, fun h => ?_⟩
    · rw [State.startUpFrom_first h, stopped]
      rfl
    · rw [State.startUpFrom_first h, going, low]
      rfl
    · rw [State.startUpFrom_first h, going, high]
      rfl
    · rw [State.startUpFrom_second h4 h7]
    · rw [State.startUpFrom_seven h]
    · rw [State.startUpFrom_third h lines]
      refine ⟨fun free => ?_, fun due down late => ⟨⟨9, by decide⟩, rfl, ?_⟩, fun due down early => ?_⟩
      · rcases free with undue | up
        · rw [undue, if_neg Bool.false_ne_true]
        · rw [State.withRandom_of up, ite_self]
      · rw [if_pos due, State.withRandom_late down late]
      · rw [if_pos due, State.withRandom_waits down early]
    · rw [State.startUpFrom_unsealed h trained open_]
    · rw [State.startUpFrom_later h]
  · refine Answers.of_exec (exec_firstReadyState_of hr ready step) (execFirstReadyState_only _ _) ?_
    rw [(State.settle_only _).at .boot rfl]
    exact ⟨rfl, rfl, congrArg (satU 16) s.endTrial_bootClock⟩

end Sys2Proof.Machine
end

section
/-! SUPPORT. Settings and firmware (R509 to R511, R525, R526): what a command that is served does, by its data and the slot record. -/

namespace Sys2Proof.Machine

section Served
variable {id : Nat} {s : State} {c : Cmd}

theorem exec_storeSettings_of (h : s.Runs id .store c) (data : ePtr c.entry ≠ 0) : exec (.storeSettings id) s =
    .next ((match (s.setFor c).settingsCheck c.data with
      | some n => (s.setFor c).complete c stImage n false
      | none => ((s.setFor c).storeSettings (slice c.data 512 (leAt c.data 12 4)) (leAt c.data 8 4) 1
        (if 2 ≤ leAt c.data 16 1 then some (slice c.data 96 97) else s.nvs.owner)).complete c stSuccess 0 false).setBack s) := by
  refine congrArg Host.Outcome.next ((withCmd_of h).trans (congrArg (fun t => State.setBack t s) ((if_neg data).trans ?_)))
  dsimp only
  cases (s.setFor c).settingsCheck c.data with
  | none => rfl
  | some n => rfl

theorem exec_storeSettingsCapture_of (h : s.Runs id .store c) (none : ePtr c.entry = 0) : exec (.storeSettingsCapture id) s =
    .next ((((s.setFor c).storeSettings ((s.setFor c).captureContent false) ((s.setFor c).ctr 2 + 1) 2 s.nvs.owner).complete c stSuccess 0
      false).setBack s) :=
  congrArg Host.Outcome.next ((withCmd_of h).trans (congrArg (fun t => State.setBack t s) (if_pos none)))

theorem exec_fwStage_refused (h : s.Runs id .stage c)
    (bad : (eArg0 c.entry ≠ 0 ∧ eArg0 c.entry ≠ s.fw.staged) ∨ 524288 < eArg0 c.entry + eLen c.entry) :
    exec (.fwStage id) s = .next (((s.setFor c).complete c stField (fieldResult 8 noElem) false).setBack s) :=
  congrArg Host.Outcome.next ((withCmd_of h).trans (congrArg (fun t => State.setBack t s) (if_pos bad)))

/-- The slot that a piece goes to is ready for it: a piece at offset 0 erases it first (R525). -/
def State.stageBegun (s : State) (c : Cmd) : State :=
  if eArg0 c.entry = 0 then (s.setFor c).beginStage (1 - s.boot.slot) else s.setFor c

/-- A piece has joined the image of slot `k` (R525). -/
def State.pieceStaged (u : State) (c : Cmd) (k : Nat) : State :=
  { u.setImage k (u.image k ++ c.data) with fw := { (u.setImage k (u.image k ++ c.data)).fw with staged := eArg0 c.entry + eLen c.entry } }

theorem exec_fwStage_of (h : s.Runs id .stage c) (off : eArg0 c.entry = 0 ∨ eArg0 c.entry = s.fw.staged)
    (fits : eArg0 c.entry + eLen c.entry ≤ 524288) {k : Nat} (hk : k = 1 - s.boot.slot) {v : State}
    (hv : v = (s.stageBegun c).pieceStaged c k) : exec (.fwStage id) s = .next ((
      if eByte c.entry 44 % 2 = 0 then v.complete c stSuccess (eArg0 c.entry + eLen c.entry) false
      else match v.firmwareCheck (v.image k) with
        | some n => v.complete c stImage n false
        | none => ((v.writeSlot (v.slotRecord.1.mark k true (leAt (v.image k) 8 4) (leAt (v.image k) 12 4))).note .firmwareStaged k).complete
            c stSuccess (eArg0 c.entry + eLen c.entry) false).setBack s) := by
  subst hk hv
  refine congrArg Host.Outcome.next ((withCmd_of h).trans (congrArg (fun t => State.setBack t s) ((if_neg ?_).trans ?_)))
  · rintro (⟨nonzero, other⟩ | long)
    · exact off.elim nonzero other
    · exact Nat.not_lt.mpr fits long
  · by_cases last : eByte c.entry 44 % 2 = 0
    · exact (if_pos last).trans (if_pos last).symm
    · exact (if_neg last).trans (if_neg last).symm

theorem exec_fwActivate_of (h : s.Runs id .activate c) {r : SlotRec} {slot : Nat} (hr : r = s.slotRecord.1) (hslot : slot = eByte c.entry 44) :
    exec (.fwActivate id) s = .next ((if !bitN r.valid slot then (s.setFor c).complete c stState (s.getInst 0).state.code false
      else ((s.setFor c).writeSlot (if slot = s.boot.slot then { r with active := slot, trial := 0 }
        else { r with active := slot, previous := s.boot.slot, trial := 1 })).complete c stSuccess 0 false).setBack s) := by
  subst hr hslot
  exact congrArg Host.Outcome.next (withCmd_of h)

end Served

section Images
variable (u : State)

theorem State.image_setImage_same (k : Nat) (l : List Byte) : (u.setImage k l).image k = l := by
  unfold State.image State.setImage
  by_cases zero : k = 0
  · rw [if_pos zero, if_pos zero]
  · rw [if_neg zero, if_neg zero]

/-- The two slots of an image are 0 and any other number. -/
theorem State.image_setImage_other (j : Nat) (l : List Byte) : (u.setImage (1 - j) l).image j = u.image j := by
  unfold State.image State.setImage
  by_cases zero : j = 0
  · rw [if_pos zero, if_neg (by omega), if_pos zero]
  · rw [if_neg zero, if_pos (by omega), if_neg zero]

theorem State.image_congr {t u : State} (h : t.fw = u.fw) (j : Nat) : t.image j = u.image j := by
  unfold State.image
  rw [h]

end Images

/-- Settles O21: a served command runs on the state with its own setting set, and each case is one branch there. -/
theorem settingsAndFirmware : Obligations.SettingsAndFirmware := by
  unfold Obligations.SettingsAndFirmware
  refine ⟨fun id s c h data => exec_storeSettings_of h data, fun id s c h none => exec_storeSettingsCapture_of h none,
    fun id s c h bad => exec_fwStage_refused h bad, fun id s c u h off fits more hu => ?_, fun id s c u v k h hk off fits last hu hv => ?_,
    fun id s c r slot h hr hslot => ⟨fun invalid => ?_, fun valid own => ?_, fun valid other => ?_⟩⟩
  · have hu : u = s.stageBegun c := hu
    subst hu
    refine Answers.of_exec (exec_fwStage_of h off fits rfl rfl) ((execFwStage_only _ _ _).mono rfl) ?_
    rw [if_pos more]
    have fw : (((s.stageBegun c).pieceStaged c (1 - s.boot.slot)).complete c stSuccess (eArg0 c.entry + eLen c.entry) false).fw =
        ((s.stageBegun c).pieceStaged c (1 - s.boot.slot)).fw := (State.complete_only _ _ _ _ _).at .fw rfl
    refine ⟨congrArg FwState.staged fw, ?_, ?_⟩
    · exact (State.image_congr fw _).trans (State.image_setImage_same _ _ _)
    · exact (State.image_congr fw _).trans (State.image_setImage_other _ _ _)
  · have hv : v = (s.stageBegun c).pieceStaged c k := by
      subst hv hu hk
      rfl
    rw [exec_fwStage_of h off fits hk hv, if_neg (by rw [last]; decide)]
    cases v.firmwareCheck (v.image k) <;> rfl
  · rw [exec_fwActivate_of h hr hslot, invalid]
    rfl
  · rw [exec_fwActivate_of h hr hslot, valid, if_pos own]
    rfl
  · rw [exec_fwActivate_of h hr hslot, valid, if_neg other]
    rfl

end Sys2Proof.Machine
end

section
/-! SUPPORT. The copies of the event log and of the clock (R503, R504, R521, R522): the folds whose second has ended, and one entry at
its place in NVM. -/

namespace Sys2Proof.Machine

/-- The folds whose second has ended, and the block without them (R503). -/
def State.foldsEnded (s : State) : List Fold := s.log.folds.filter (fun w => decide (w.ends ≤ s.tm.mono))
def State.foldsOpen (s : State) : State :=
  { s with log := { s.log with folds := s.log.folds.filter (fun w => !decide (w.ends ≤ s.tm.mono)) } }

/-- An ended fold writes an entry if it stands for a further event. -/
def State.foldEntry (w : Fold) (t : State) : State := if w.count = 0 then t else t.logWrite w.ev w.inst w.count w.arg

theorem forEach_same {α : Type} {f : α → State → State} {s : State} : ∀ {l : List α}, (∀ a ∈ l, f a s = s) → forEach l f s = s
  | [], _ => rfl
  | a :: l, h => by
    show forEach l f (f a s) = s
    rw [h a List.mem_cons_self]
    exact forEach_same (fun b hb => h b (List.mem_cons_of_mem _ hb))

section Running
variable {s : State} (hr : s.running = true)
include hr

theorem exec_logFoldFlush_of : exec .logFoldFlush s = .next (forEach s.foldsEnded.reverse State.foldEntry s.foldsOpen) :=
  congrArg Host.Outcome.next (whenRunning_of hr)

theorem exec_logFoldFlush_still (h : ∀ w ∈ s.log.folds, w.ends ≤ s.tm.mono → w.count = 0) :
    exec .logFoldFlush s = .next s.foldsOpen := by
  rw [exec_logFoldFlush_of hr]
  refine congrArg Host.Outcome.next (forEach_same (fun w hw => if_pos ?_))
  obtain ⟨mem, ended⟩ := List.mem_filter.mp (List.mem_reverse.mp hw)
  exact h w mem (of_decide_eq_true ended)

theorem exec_logFoldFlush_single {w : Fold} (only : s.log.folds = [w]) (ended : w.ends ≤ s.tm.mono) (further : w.count ≠ 0) :
    exec .logFoldFlush s = .next (({ s with log := { s.log with folds := [] } } : State).logWrite w.ev w.inst w.count w.arg) := by
  have off : s.foldsEnded = [w] := by simp [State.foldsEnded, only, ended]
  have left : s.foldsOpen = { s with log := { s.log with folds := [] } } := by simp [State.foldsOpen, only, ended]
  rw [exec_logFoldFlush_of hr, off, left]
  exact congrArg Host.Outcome.next (if_neg further)

theorem exec_logMirrorWrite_of (mounted : s.mounted = true) (more : s.log.unmirrored ≠ s.log.next) :
    exec .logMirrorWrite s = .next s.mirrorOne :=
  congrArg Host.Outcome.next ((whenRunning_of hr).trans (if_pos (by rw [mounted, decide_eq_true more]; rfl)))

theorem exec_logNvmWrite_of : exec .logNvmWrite s = .next s.critOne := congrArg Host.Outcome.next (whenRunning_of hr)

theorem exec_lastAliveWrite_of (valid : s.tm.valid = true) : exec .lastAliveWrite s = .next (s.ctrStore 5 s.tm.sec) :=
  congrArg Host.Outcome.next ((whenRunning_of hr).trans (if_pos valid))

theorem exec_monoFloorWrite_of (reached : s.ctr 4 ≤ s.tm.mono) : exec .monoFloorWrite s = .next (s.ctrStore 4 (s.tm.mono + 600000)) :=
  congrArg Host.Outcome.next ((whenRunning_of hr).trans (if_pos reached))

end Running

section Unchanged
variable {s : State}

theorem exec_logMirrorWrite_same (h : s.mounted = false ∨ s.log.unmirrored = s.log.next) : exec .logMirrorWrite s = .next s :=
  congrArg Host.Outcome.next (whenRunning_same (if_neg (by rcases h with h | h <;> simp [h])))

theorem State.critOne_none (h : s.log.critical = []) : s.critOne = s := by
  unfold State.critOne
  rw [h]

theorem exec_logNvmWrite_same (h : s.log.critical = []) : exec .logNvmWrite s = .next s :=
  congrArg Host.Outcome.next (whenRunning_same (State.critOne_none h))

theorem exec_lastAliveWrite_same (h : s.tm.valid = false) : exec .lastAliveWrite s = .next s :=
  congrArg Host.Outcome.next (whenRunning_same (if_neg (by rw [h]; exact Bool.false_ne_true)))

theorem exec_monoFloorWrite_same (h : s.tm.mono < s.ctr 4) : exec .monoFloorWrite s = .next s :=
  congrArg Host.Outcome.next (whenRunning_same (if_neg (Nat.not_le.mpr h)))

/-- The oldest critical entry goes to the next place of the NVM copy (R504). -/
theorem State.critOne_cons {e : LogEntry} {r : List LogEntry} (h : s.log.critical = e :: r) : s.critOne =
    { s.nvmWrite (0x29000 + 32 * s.log.nvmNext) e.bytes with
      log := { s.log with critical := r, nvmNext := (s.log.nvmNext + 1) % 64 } } := by
  unfold State.critOne
  rw [h]
  rfl

end Unchanged

/-- Settles O26: the ended folds are written one by one, and every other write is one guarded store. -/
theorem eventLogKeeping : Obligations.EventLogKeeping := by
  unfold Obligations.EventLogKeeping
  refine ⟨fun s hr h => exec_logFoldFlush_still hr h, fun s w hr only ended further => exec_logFoldFlush_single hr only ended further,
    fun s l hr hl => ?_, fun s hr mounted more => exec_logMirrorWrite_of hr mounted more, fun s h => exec_logMirrorWrite_same h,
    fun s e r hc hr h => ?_, fun s h => exec_logNvmWrite_same h, fun s hr valid => exec_lastAliveWrite_of hr valid,
    fun s h => exec_lastAliveWrite_same h, fun s hr reached => exec_monoFloorWrite_of hr reached, fun s h => exec_monoFloorWrite_same h⟩
  · subst hl
    exact exec_logFoldFlush_of hr
  · refine Answers.of_exec (exec_logNvmWrite_of hr) (execLogNvmWrite_only _ _) ?_
    rw [State.critOne_cons h]
    exact ⟨rfl, Bank.bytes_putBytes hc.nvm _ _, fun a outside => Bank.get_putBytes_other _ _ _ outside⟩

end Sys2Proof.Machine
end

section
/-! SUPPORT. The serial monitor and the JTAG port (R198, R535 to R544): which lines the monitor takes, and what each does then. -/

namespace Sys2Proof.Machine

/-- A complete line has restarted the idle time. -/
def State.lineTaken (s : State) : State := { s with mon := { s.mon with lastLine := s.tm.mono } }

section Lines
variable {s : State} {g : State → State} {takes : Bool}

theorem atMonitor_quiet (h : s.mon.active = false) : atMonitor takes s g = .next s :=
  congrArg Host.Outcome.next (if_neg (by rw [h]; exact Bool.false_ne_true))

variable (ha : s.mon.active = true) (hr : s.running = true)
include ha hr

theorem State.monitor_listens : (s.mon.active && s.running && !s.hlt.porHeld) = true := by
  rw [ha, hr, State.porHeld_of_running hr]
  rfl

theorem atMonitor_taken (h : s.mon.locked = false ∨ takes = true) : atMonitor takes s g = .next (g s.lineTaken) := by
  refine congrArg Host.Outcome.next ((if_pos (State.monitor_listens ha hr)).trans (if_neg ?_))
  rcases h with h | h
  · simp [h]
  · simp [h]

theorem atMonitor_locked (h : s.mon.locked = true) : atMonitor false s g = .next (s.lineTaken.monRefuse 7) :=
  congrArg Host.Outcome.next ((if_pos (State.monitor_listens ha hr)).trans (if_pos (by simp [h])))

theorem exec_monI_mon : ∃ t, exec .monI s = .next t ∧ t.mon = s.lineTaken.mon := by
  refine ⟨_, Eq.trans (b := execMonI s) rfl (atMonitor_taken ha hr (.inr rfl)), ?_⟩
  extract_lets r t1 t2 t3 t4 t5
  have first : t1.mon = s.lineTaken.mon :=
    iteInduction (motive := fun t : State => t.mon = s.lineTaken.mon) (fun _ => rfl) (fun _ => rfl)
  exact iteInduction (motive := fun t : State => t.mon = s.lineTaken.mon) (fun _ => first) (fun _ => first)

theorem exec_monitorGo_of : exec .monitorGo s = .next (s.lineTaken.line (46 :: hexOf 2 0)).endMonitor :=
  Eq.trans (b := execMonitorGo s) rfl (atMonitor_taken ha hr (.inr rfl))

theorem exec_unlock_of (c : BitVec 64) : exec (.unlock c) s =
    .next (if s.mon.locked && decide (c.toNat = idValue) && decide (s.sea.slot < 3) then
      ((s.lineTaken.monSave true true).monEvent .monitorArmed 0).status 0 else s.lineTaken.monRefuse 4) :=
  Eq.trans (b := execUnlock c s) rfl (atMonitor_taken ha hr (.inr rfl))

theorem exec_unknownCommand_of (syn : Bool) : exec (.unknownCommand syn) s =
    .next (if s.mon.locked && !syn then s.monRefuse 7 else s.status (if syn then 2 else 1)) :=
  congrArg Host.Outcome.next (if_pos (State.monitor_listens ha hr))

theorem exec_monitorIdleTimeout_of : exec .monitorIdleTimeout s =
    .next (if s.mon.lastLine + 1000 * s.mon.idleS ≤ s.tm.mono then s.endMonitor else s) := by
  refine congrArg Host.Outcome.next ?_
  rw [ha, hr, Bool.and_self, Bool.true_and]
  exact if_congr decide_eq_true_iff rfl rfl

end Lines

/-- What a WR of an admitted word does in its region (Table 17-4). -/
def State.monPut (u : State) (a : Nat) (v : Word) (good : Bool) : Region → State
  | .sram =>
    if 0x3C000 ≤ a then u.monRefuse 4
    else ({ u with mon := { u.mon with sram := Bank.set wordDef u.mon.sram a v } } : State).status 0
  | .bar2 => (u.asPf (a - 0x40000000) v).status 0
  | .nvm =>
    if nvmFixed (a - 0x50000000) then u.monRefuse 4
    else (u.rowWrite (a - 0x50000000) v good).1.status (u.rowWrite (a - 0x50000000) v good).2
  | _ => (u.rcRefuse .monitor a).monRefuse 3

theorem State.monPut_sram (u : State) (a : Nat) (v : Word) (good : Bool) : u.monPut a v good .sram =
    if 0x3C000 ≤ a then u.monRefuse 4
    else ({ u with mon := { u.mon with sram := Bank.set wordDef u.mon.sram a v } } : State).status 0 := rfl

theorem State.monPut_bar2 (u : State) (a : Nat) (v : Word) (good : Bool) :
    u.monPut a v good .bar2 = (u.asPf (a - 0x40000000) v).status 0 := rfl

theorem State.monPut_nvm (u : State) (a : Nat) (v : Word) (good : Bool) : u.monPut a v good .nvm =
    if nvmFixed (a - 0x50000000) then u.monRefuse 4
    else (u.rowWrite (a - 0x50000000) v good).1.status (u.rowWrite (a - 0x50000000) v good).2 := rfl

section Unlocked
variable {s : State} (ha : s.mon.active = true) (hr : s.running = true) (hl : s.mon.locked = false)
include ha hr hl

theorem exec_monRd_refused {n : BitVec 64} (h : n.toNat = 0 ∨ 64 < n.toNat) (a : BitVec 64) :
    exec (.monRd a n) s = .next (s.lineTaken.status 2) :=
  Eq.trans (b := execMonRd a n s) rfl ((atMonitor_taken ha hr (.inl hl)).trans (congrArg Host.Outcome.next (if_pos h)))

theorem exec_monRd_of {a n : BitVec 64} {l : List Word} {t : State} {e : Nat} (low : n.toNat ≠ 0) (high : n.toNat ≤ 64)
    (h : s.lineTaken.monWords a.toNat n.toNat = (l, t, e)) : exec (.monRd a n) s =
      .next (if 3 ≤ e then (t.dataLines a.toNat 8 l).monRefuse e else (t.dataLines a.toNat 8 l).status e) := by
  refine Eq.trans (b := execMonRd a n s) rfl ((atMonitor_taken ha hr (.inl hl)).trans (congrArg Host.Outcome.next ((if_neg ?_).trans ?_)))
  · omega
  · rw [h]

theorem exec_monWr_misaligned {a v : BitVec 64} (h : a.toNat % 4 ≠ 0 ∨ 2 ^ 32 ≤ v.toNat) (g : Bool) :
    exec (.monWr a v g) s = .next (s.lineTaken.status 2) :=
  Eq.trans (b := execMonWr a v g s) rfl ((atMonitor_taken ha hr (.inl hl)).trans (congrArg Host.Outcome.next (if_pos h)))

section Word
variable {a v : BitVec 64} (aligned : a.toNat % 4 = 0) (word : v.toNat < 2 ^ 32)
include aligned word

theorem exec_monWr_not_admitted (h : s.lineTaken.admits .monitor a.toNat true = false) (g : Bool) :
    exec (.monWr a v g) s = .next ((s.lineTaken.rcRefuse .monitor a.toNat).monRefuse 3) := by
  refine Eq.trans (b := execMonWr a v g s) rfl ((atMonitor_taken ha hr (.inl hl)).trans (congrArg Host.Outcome.next ((if_neg ?_).trans (if_pos ?_))))
  · omega
  · rw [h]
    rfl

variable (h : s.lineTaken.admits .monitor a.toNat true = true)
include h

theorem exec_monWr_admitted (g : Bool) :
    exec (.monWr a v g) s = .next (s.lineTaken.monPut a.toNat (BitVec.ofNat 32 v.toNat) g (regionOf a.toNat)) := by
  refine Eq.trans (b := execMonWr a v g s) rfl ((atMonitor_taken ha hr (.inl hl)).trans (congrArg Host.Outcome.next
    ((if_neg ?_).trans ((if_neg ?_).trans ?_))))
  · omega
  · rw [h]
    exact Bool.false_ne_true
  · cases regionOf a.toNat <;> rfl

end Word

theorem exec_baud_of (r : BitVec 64) : exec (.baud r) s = .next (if baudRates.contains r.toNat then
      { s.lineTaken.status 0 with mon := { (s.lineTaken.status 0).mon with baud := r.toNat } } else s.lineTaken.monRefuse 4) :=
  Eq.trans (b := execBaud r s) rfl (atMonitor_taken ha hr (.inl hl))

theorem exec_lock_of :
    exec .lock s = .next (((s.lineTaken.monSave true s.lineTaken.monArmed).monEvent .monitorLock 0).status 0) :=
  Eq.trans (b := execLock s) rfl (atMonitor_taken ha hr (.inl hl))

end Unlocked

section Quiet
variable {s : State} (h : s.mon.active = false)
include h

theorem exec_monitorIdleTimeout_quiet : exec .monitorIdleTimeout s = .next s :=
  congrArg Host.Outcome.next (if_neg (by rw [h]; exact Bool.false_ne_true))

theorem exec_unknownCommand_quiet (syn : Bool) : exec (.unknownCommand syn) s = .next s :=
  congrArg Host.Outcome.next (if_neg (by rw [h]; exact Bool.false_ne_true))

end Quiet

section Jtag
variable {s : State} (hp : s.hlt.porHeld = false) {addr : BitVec 40} {a : Nat} (ha : a = addr.toNat / 4 * 4)
include hp ha

theorem exec_jtagAccess_refused {w : Bool} (h : s.admits .jtag a w = false) (v : Word) : exec (.jtagAccess w addr v) s =
    .next ((if w then s.rcRefuse .jtag a else (s.rcRefuse .jtag a).emit (.jtag 0)).emit .jtagError) := by
  subst ha
  exact congrArg Host.Outcome.next ((if_neg (by rw [hp]; exact Bool.false_ne_true)).trans
    (if_neg (by rw [h]; exact Bool.false_ne_true)))

theorem exec_jtagAccess_sram {w : Bool} (h : s.admits .jtag a w = true) (region : regionOf a = .sram) (v : Word) :
    exec (.jtagAccess w addr v) s = .next (if w then { s with mon := { s.mon with sram := Bank.set wordDef s.mon.sram a v } }
      else s.emit (.jtag (Bank.get wordDef s.mon.sram a))) := by
  subst ha
  refine congrArg Host.Outcome.next ((if_neg (by rw [hp]; exact Bool.false_ne_true)).trans ((if_pos h).trans ?_))
  rw [region]

end Jtag

/-- Settles O48: a line is taken or refused by the lock, and each command the monitor takes is then one guard. -/
theorem monitorSession : Obligations.MonitorSession := by
  unfold Obligations.MonitorSession
  refine ⟨fun s u ha hr hu => ?_, fun s h => ?_, fun addr v s a hp haddr => ⟨fun w h => ?_, fun h region => ?_, fun h region => ?_⟩⟩
  · have hu : u = s.lineTaken := hu
    subst hu
    refine ⟨fun hl => ?_, fun hl => ?_, ?_, ?_, exec_unknownCommand_of ha hr true ▸ ?_, fun late => ?_, fun early => ?_⟩
    · refine ⟨fun a n => Eq.trans (b := execMonRd a n s) rfl (atMonitor_locked ha hr hl),
        fun a v g => Eq.trans (b := execMonWr a v g s) rfl (atMonitor_locked ha hr hl),
        fun r => Eq.trans (b := execBaud r s) rfl (atMonitor_locked ha hr hl),
        Eq.trans (b := execLock s) rfl (atMonitor_locked ha hr hl), fun c right slot => ?_, fun c wrong => ?_, ?_⟩
      · rw [exec_unlock_of ha hr, hl, decide_eq_true right, decide_eq_true slot]
        rfl
      · rw [exec_unlock_of ha hr, if_neg]
        simp only [Bool.and_eq_true, decide_eq_true_eq]
        omega
      · rw [exec_unknownCommand_of ha hr, hl]
        rfl
    · refine ⟨fun a n h => exec_monRd_refused ha hr hl h a, fun a n l t e low high h => exec_monRd_of ha hr hl low high h,
        fun a v g h => exec_monWr_misaligned ha hr hl h g, fun a v g aligned word h => exec_monWr_not_admitted ha hr hl aligned word h g,
        fun a v g aligned word h region below => ?_, fun a v g aligned word h region own => ?_,
        fun a v g aligned word h region => ?_, fun a v g aligned word h region => ⟨fun fixed => ?_, fun free t e row => ?_⟩,
        fun r allowed => ?_, fun r other => ?_, exec_lock_of ha hr hl, fun c => ?_, ?_⟩
      · rw [exec_monWr_admitted ha hr hl aligned word h, region, State.monPut_sram, if_neg (Nat.not_le.mpr below)]
      · rw [exec_monWr_admitted ha hr hl aligned word h, region, State.monPut_sram, if_pos own]
      · rw [exec_monWr_admitted ha hr hl aligned word h, region, State.monPut_bar2]
      · rw [exec_monWr_admitted ha hr hl aligned word h, region, State.monPut_nvm, if_pos fixed]
      · rw [exec_monWr_admitted ha hr hl aligned word h, region, State.monPut_nvm, if_neg (by rw [free]; exact Bool.false_ne_true), row]
      · refine Answers.of_exec (exec_baud_of ha hr hl r) (execBaud_only _ _ _) ?_
        rw [if_pos allowed]
        rfl
      · rw [exec_baud_of ha hr hl, if_neg (by rw [other]; exact Bool.false_ne_true)]
      · rw [exec_unlock_of ha hr, hl]
        rfl
      · rw [exec_unknownCommand_of ha hr, hl]
        rfl
    · obtain ⟨t, run, same⟩ := exec_monI_mon ha hr
      exact Answers.of_exec run (execMonI_only _ _) same
    · exact Answers.of_exec (exec_monitorGo_of ha hr) (execMonitorGo_only _ _) rfl
    · rw [Bool.not_true, Bool.and_false]
      rfl
    · rw [exec_monitorIdleTimeout_of ha hr, if_pos late]
    · rw [exec_monitorIdleTimeout_of ha hr, if_neg (Nat.not_le.mpr early)]
  · exact ⟨Eq.trans (b := execMonI s) rfl (atMonitor_quiet h), fun a n => Eq.trans (b := execMonRd a n s) rfl (atMonitor_quiet h),
      fun a v g => Eq.trans (b := execMonWr a v g s) rfl (atMonitor_quiet h), fun r => Eq.trans (b := execBaud r s) rfl (atMonitor_quiet h),
      Eq.trans (b := execLock s) rfl (atMonitor_quiet h), fun c => Eq.trans (b := execUnlock c s) rfl (atMonitor_quiet h),
      Eq.trans (b := execMonitorGo s) rfl (atMonitor_quiet h), exec_monitorIdleTimeout_quiet h, exec_unknownCommand_quiet h⟩
  · exact exec_jtagAccess_refused hp haddr h v
  · exact exec_jtagAccess_sram hp haddr h region v
  · exact exec_jtagAccess_sram hp haddr h region v

end Sys2Proof.Machine
end
